-- ==== Sys2Proof/Word.lean ====
section
/-!
DEFINITION. The word types of the VX7480 model and their plainest arithmetic (spec 00_scope.md, R6, R7, R11).
-/

namespace Sys2Proof

/-- A register word: registers are 32 bits wide (00_scope.md, Registers). -/
abbrev Word := BitVec 32

/-- A byte of a record, descriptor or image. -/
abbrev Byte := BitVec 8

/-- A global meter number: 20 bits, node ID × 16 384 + meter slot (Table 0.7). -/
abbrev Gmn := BitVec 20

/-- A node ID, 0 to 63 (Table 0.7). -/
abbrev NodeId := BitVec 6

/-- A SHA-512 digest. -/
abbrev Digest := BitVec 512

/-- The largest value of an unsigned field of `w` bits. -/
def maxOf (w : Nat) : Nat := 2 ^ w - 1

/-- Addition that stops at the largest value of a field of `w` bits. -/
def satAdd (w a b : Nat) : Nat := min (a + b) (maxOf w)

end Sys2Proof
end

