-- ==== Sys2Proof/Machine/Map.lean ====
section
/-!
DEFINITION. Sparse tables in one canonical form: a list of (index, value) pairs with strictly rising indices and no
pair whose value is the table's default, so that equal tables are equal lists.  Contexts, legal slots, registers,
tags and the other indexed stores of the device are held in this form.
-/

namespace Sys2Proof.Machine

/-- A sparse table: what is not listed reads as the default that the reader names. -/
abbrev Table (α : Type) := List (Nat × α)

/-- The value at an index; an unlisted index reads as the default `d`. -/
def Table.get {α : Type} (d : α) : Table α → Nat → α
  | [], _ => d
  | (j, v) :: t, k => if j = k then v else Table.get d t k

/-- Remove an index. -/
def Table.erase {α : Type} : Table α → Nat → Table α
  | [], _ => []
  | (j, v) :: t, k => if j = k then t else (j, v) :: Table.erase t k

/-- List a value at an index, keeping the indices rising. -/
def Table.put {α : Type} : Table α → Nat → α → Table α
  | [], k, v => [(k, v)]
  | (j, w) :: t, k, v =>
    if k < j then (k, v) :: (j, w) :: t
    else if k = j then (k, v) :: t
    else (j, w) :: Table.put t k v

/-- Write a value; writing the default removes the entry, so that the canonical form is kept. -/
def Table.set {α : Type} [DecidableEq α] (d : α) (t : Table α) (k : Nat) (v : α) : Table α :=
  if v = d then Table.erase t k else Table.put t k v

/-- Apply a function to the value at an index. -/
def Table.modify {α : Type} [DecidableEq α] (d : α) (t : Table α) (k : Nat) (f : α → α) : Table α :=
  Table.set d t k (f (Table.get d t k))

/-- Keep the entries that pass a test. -/
def Table.keep {α : Type} (p : Nat → α → Bool) (t : Table α) : Table α :=
  t.filter fun e => p e.1 e.2

/-- Rewrite every listed value, dropping those that become the default. -/
def Table.mapVals {α : Type} [DecidableEq α] (d : α) (f : Nat → α → α) (t : Table α) : Table α :=
  (t.map fun e => (e.1, f e.1 e.2)).filter fun e => e.2 ≠ d

/-- The canonical form: strictly rising indices, no default listed. -/
def Table.Wf {α : Type} (d : α) (t : Table α) : Prop :=
  t.Pairwise (fun a b => a.1 < b.1) ∧ ∀ e ∈ t, e.2 ≠ d

end Sys2Proof.Machine
end

