-- ==== Sys2Proof/Syntax/Common.lean ====
section
/-!
DEFINITION. Names and small records that commands and state share: modes, reset classes, logs, masters, reading
records, certificates and the part of a job that every job has (spec 00, 02, 04, 13, 14, 15).
-/

namespace Sys2Proof

/-- Operating modes (Table 15.1), in code order. -/
inductive Mode where
  | boot | run | throttle | ride | gasp | standby | recovery | test
  deriving DecidableEq, Repr

/-- Reset classes (Table 0.6), in index order; `wake` is RST_CAUSE class 8 (R467). -/
inductive ResetClass where
  | por | hrst | wrm | wdg | swf | swp | sbc | fbc | wake
  deriving DecidableEq, Repr

/-- What one of Troika's units does with an update (R188): it presents an image with its SLOT_CRC, which differs from the right one in the
bits of a mask (0: the right image), or presents nothing within 20 000 SYS cycles. -/
inductive UnitAnswer where
  | image (mask : Nat)
  | silent
  deriving DecidableEq, Repr

/-- The three Waybill logs (Table 17.1). -/
inductive LogId where
  | legal | security | operations
  deriving DecidableEq, Repr

/-- How an access is addressed: by an offset of PCIe BAR0, which is the register window, of BAR2, or of BAR4, which holds the MSI-X table, or
by a device physical address of 40 bits (Tables 1.1, 1.6, 13.1, R38). -/
inductive Space where
  | bar0 | bar2 | bar4 | device
  deriving DecidableEq, Repr

/-- A bus master ID (Table 1.7). -/
abbrev Master := Fin 16

/-- The 64-byte reading record (Table 4.11) with VAL's fields (Table 5.1). -/
structure Record where
  gmn : Gmn
  src : BitVec 4
  typ : BitVec 4
  readSeq : BitVec 32
  cycle : BitVec 48
  rxFlags : BitVec 16
  meterTime : BitVec 32
  rxTime : BitVec 32
  impAct : BitVec 40
  expAct : BitVec 40
  impReact : BitVec 40
  expReact : BitVec 40
  voltage : BitVec 16
  current : BitVec 16
  meterFlags : BitVec 8
  hops : BitVec 3
  rxPhase : BitVec 2
  snr : BitVec 8
  zcOffset : BitVec 16
  vflags : BitVec 16
  verdict : BitVec 3
  rule : BitVec 5
  gap : BitVec 8
  seqGap : BitVec 16
  rck : Word
  deriving DecidableEq, Repr

/-- An authority certificate (Table 2.9): its 444 bytes. -/
structure Cert where
  bytes : List Byte
  deriving DecidableEq, Repr

/-- The authority bits of Table 2.9. -/
inductive Authority where
  | config | expert | tariff | state | time | logClear | debug | update
  deriving DecidableEq, Repr

/-- Where a job comes from: a job source of R398 and the master through which it arrives. -/
inductive JobSource where
  | cq (n : Fin 4)
  | eth (port : Fin 2) (peer : Fin 32)
  | sideband (mac : BitVec 48)
  | fabric (port : Fin 4) (node : NodeId)
  deriving DecidableEq, Repr

/-- The signed-job envelope (Table 13.7) with what follows the body in its attachment (R406): the padding, the certificate, the four bytes
between it and the signature, and the signature. -/
structure Envelope where
  magic : BitVec 32
  version : BitVec 16
  length : BitVec 16
  targetSerial : BitVec 64
  notBefore : BitVec 32
  notAfter : BitVec 32
  nonce : BitVec 64
  bodyLen : BitVec 32
  certOffset : BitVec 32
  reserved : BitVec 192
  pad : List Byte
  cert : Cert
  gap : BitVec 32
  sig : List Byte
  deriving DecidableEq, Repr

/-- What every job descriptor carries (Table 13.3), and the envelope of a signed job.  ENVELOPE is set where there is one; `reserved` are the
reserved bits of bytes 1, 2 and 3, lowest first. -/
structure JobHdr where
  source : JobSource
  jobId : BitVec 32
  rq : Fin 4
  chain : Bool
  remote : Bool
  target : NodeId
  reserved : BitVec 13
  attachOffset : BitVec 32
  attachLen : BitVec 32
  dcrc : BitVec 32
  envelope : Option Envelope
  deriving DecidableEq, Repr

/-- The node to which a REMOTE job goes (R390). -/
def JobHdr.remoteNode (h : JobHdr) : Option NodeId := if h.remote = true then some h.target else none

/-- The part of a job that later reports need: where they go and which job they answer (R402, R405). -/
structure JobRef where
  source : JobSource
  jobId : BitVec 32
  rq : Fin 4
  deriving DecidableEq, Repr

/-- The reference a job's reports carry. -/
def JobHdr.ref (h : JobHdr) : JobRef := ⟨h.source, h.jobId, h.rq⟩

end Sys2Proof
end

