-- ==== Sys2Proof/Syntax/Images.lean ====
section
/-!
DEFINITION. The objects held in NOR and delivered in update bundles: the boot header, configuration images, firmware parts, meter images
and bundles (spec 02 Tables 2.3 to 2.7; spec 16 Tables 16.1 to 16.4).  An object is its bytes; its fields, digests and signatures are read
from them (Machine/Objects.lean).
-/

namespace Sys2Proof

/-- The boot header (Table 2.3): the first 256 bytes of its partition. -/
structure BootHeader where
  bytes : List Byte
  deriving DecidableEq, Repr

/-- An item of a section (Table 2.7); `padZero`: its padding bytes are zero. -/
structure Item where
  id : Nat
  len : Nat
  value : List Byte
  padZero : Bool
  deriving DecidableEq, Repr

/-- A section of an image with its table entry (Table 2.5). -/
structure Section where
  expert : Bool
  typ : Nat
  layout : Nat
  offset : Nat
  length : Nat
  items : List Item
  deriving DecidableEq, Repr

/-- A configuration image (Table 2.4): what lies in its partition from the start on. -/
structure ConfigImage where
  bytes : List Byte
  deriving DecidableEq, Repr

/-- A firmware part of kinds 1 to 5 (Table 16.4). -/
structure FwPart where
  bytes : List Byte
  deriving DecidableEq, Repr

/-- A meter firmware image (kind 7): the version and METER_MODEL of its part, and its bytes. -/
structure MeterImage where
  version : Nat
  model : BitVec 64
  bytes : List Byte
  deriving DecidableEq, Repr

/-- What a part of a bundle holds (Table 16.3). -/
inductive PartContent where
  | firmware (p : FwPart)
  | config (c : ConfigImage)
  | meter (m : MeterImage)
  deriving DecidableEq, Repr

/-- A part with its table entry (Table 16.2). -/
structure BundlePart where
  kind : Nat
  offset : Nat
  length : Nat
  version : Nat
  model : BitVec 64
  content : PartContent
  deriving DecidableEq, Repr

/-- An update bundle (Table 16.1). -/
structure UpdateBundle where
  bytes : List Byte
  deriving DecidableEq, Repr

end Sys2Proof
end

