-- ==== Sys2Proof/Syntax/Records.lean ====
section
/-!
DEFINITION. The larger Brodcel records that travel in reports, mirror packets and the store: closed periods, group
results, anomalies and relay bundles (Tables 4.13, 4.14, 6.5, 7.10, 7.11).
-/

namespace Sys2Proof

/-- A closed-period record (Table 6.5); its CRC is computed when it is sent.  `demand`: per direction the maximum and
the span end at which it occurred. -/
structure ClosedPeriod where
  gmn : Gmn
  periodIndex : Nat
  periodEnd : Nat
  tariffId : Nat
  rate : List Nat
  total : List Nat
  demand : List (Nat × Nat)
  credit : Int
  forced : Bool
  estimated : Bool
  late : Bool
  crc : Word
  deriving DecidableEq, Repr

/-- A group result record (Table 7.10) with its CRC. -/
structure GroupResult where
  group : Nat
  phase : Nat
  snapshot : Bool
  mixed : Bool
  incomplete : Bool
  outage : Bool
  noFeeder : Bool
  reverseFlow : Bool
  longFeeder : Bool
  abandoned : Bool
  excluded : Bool
  node : NodeId
  earthHigh : Bool
  members : Nat
  reported : Nat
  frozen : Nat
  snapId : Nat
  index : Nat
  endTime : Nat
  span : Nat
  endCycle : Nat
  feederE : Int
  metersE : Int
  techLoss : Int
  residue : Int
  residuePm : Int
  earth : Nat
  topSlot : Option Nat
  topCorr : Int
  crc : BitVec 32
  deriving DecidableEq, Repr

/-- An anomaly record (Table 7.11) with its CRC. -/
structure AnomalyRecord where
  gmn : Gmn
  group : Nat
  score : Nat
  components : List Nat
  phaseState : Nat
  flagsSeen : Nat
  corr : Int
  beta : Int
  attributed : Int
  entries : Nat
  stepTime : Nat
  meanSnr : Nat
  sigSteps : Nat
  action : Nat
  time : Nat
  cause : BitVec 7
  crc : BitVec 32
  deriving DecidableEq, Repr

/-- A TYPE 5 feeder record (Table 6.9): one phase of one close or latch of MET.  `earth` is the mean earth current that
bytes 52 and 53 carry to BAL and in a bundle; in other records they are zero (R204). -/
structure FeederRecord where
  node : NodeId
  phase : Nat
  seq : Nat
  cycle : Nat
  rxFlags : BitVec 16
  stamp : Nat
  energy : List Nat
  voltage : Nat
  current : Nat
  short : Bool
  snapshot : Bool
  phaseAbsent : Bool
  clipped : Bool
  neutral : Nat
  i2t : Nat
  earth : Nat
  deriving DecidableEq, Repr

/-- One mains cycle as MET's converters give it (R194): the samples of V1 to V3, I1 to I3 and IN, signed 24-bit numbers. -/
structure MetCycle where
  channels : List (List Int)
  deriving DecidableEq, Repr

/-- What MET has integrated of one phase (R194): energy per direction in parts of 0.1 Wh or varh (1 over `metEnergyUnit`), the sums over
cycles of the RMS voltage in 0.1 V and of the RMS current in 0.1 A, i²t in parts of 1 A²·s (1 over `metI2tUnit`), and whether the
phase was absent or a channel clipped. -/
structure MetPhase where
  energy : List Nat
  vSum : Nat
  iSum : Nat
  i2t : Nat
  absent : Bool
  clipped : Bool
  deriving DecidableEq, Repr

/-- What MET has measured over a number of cycles (R194, R226): the three phases, the sums over cycles of the RMS neutral and
earth currents in 0.1 A, the RMS values of its seven channels over the last cycle, and the channels at full scale. -/
structure MetSample where
  phases : List MetPhase
  cycles : Nat
  nSum : Nat
  earthSum : Nat
  rms : List Nat
  clip : BitVec 7
  deriving DecidableEq, Repr

/-- A secured meter APDU: its bytes as received (R119 to R123). -/
abbrev Apdu := List Byte

/-- What a relay-bundle entry carries after its header (Table 4.14): nothing, with its KIND; an APDU; a record; a feeder record with its RCK;
or bytes of a KIND and LENGTH that the table does not have. -/
inductive RelayPayload where
  | presence (kind : Nat)
  | sealed (a : Apdu)
  | record (r : Record)
  | feeder (f : FeederRecord) (rck : BitVec 32)
  | other (kind : Nat) (bytes : List Byte)
  deriving DecidableEq, Repr

/-- A relay-bundle entry (Table 4.14). -/
structure RelayEntry where
  gmn : Gmn
  synth : Bool
  regressed : Bool
  snr : BitVec 8
  hops : BitVec 3
  rxPhase : BitVec 2
  rxCycle : BitVec 48
  zcOffset : BitVec 16
  rxTime : BitVec 32
  payload : RelayPayload
  deriving DecidableEq, Repr

/-- A relay bundle (Table 4.13) as received: its header, its entries and its CMAC. -/
structure RelayBundle where
  magic : BitVec 32
  version : BitVec 16
  entryCount : Nat
  totalLength : Nat
  senderId : BitVec 32
  seq : BitVec 32
  senderCycle : BitVec 48
  senderSynth : Bool
  senderRegressed : Bool
  senderRotation : Bool
  entries : List RelayEntry
  cmac : List Byte
  deriving DecidableEq, Repr

end Sys2Proof
end

