-- ==== Sys2Proof/Syntax/Jobs.lean ====
section
/-!
DEFINITION. The arguments of every job (Table 13.5), signed tariff sets (Tables 6.2 to 6.4) and the job as one object,
as mirror packets, peers and the side-band carry it.
-/

namespace Sys2Proof

/-- A rate entry (Table 6.3). -/
structure RateEntry where
  blocks : Nat
  exportPrice : Nat
  thresholds : List Nat
  prices : List Nat
  deriving DecidableEq, Repr

/-- A day profile (Table 6.4): the rate from local midnight, then switch points (minute, rate). -/
structure DayProfile where
  startRate : Nat
  points : List (Nat × Nat)
  deriving DecidableEq, Repr

/-- A tariff set (R179): its bytes, from the header to the signature. -/
structure TariffSet where
  bytes : List Byte
  deriving DecidableEq, Repr

/-- A change of one meter's legal state as it passes through Troika (Table 6.6): the jobs, and the internal requests;
`byCredit` marks a request of CREDIT_ACTION (R186), `byPolicy` one of BAL's policy (R233). -/
inductive LegalOp where
  | credit (amount : Int)
  | disconnect (byCredit : Bool)
  | reconnect (force byCredit : Bool)
  | release (mode : Nat)
  | confirm (positive : Bool)
  | forcedClosure (period : Nat)
  deriving DecidableEq, Repr

/-- Arguments of an enrol job (0x15). -/
structure EnrolArgs where
  gmn : Gmn
  meterGroup : Nat
  rating : Nat
  balGroup : Nat
  regPhase : Nat
  exportAllowed : Bool
  replace : Bool
  radio : Nat
  chan : Nat
  keySlot : Nat
  title : BitVec 64
  ekWrapped : BitVec 192
  akWrapped : BitVec 192
  deriving DecidableEq, Repr

/-- A trigger job's template (Table 10.6 without the ticket). -/
structure TriggerTemplate where
  kind : Nat
  priority : Nat
  eclass : Nat
  exec : Nat
  coreMask : BitVec 12
  arg : BitVec 32
  deriving DecidableEq, Repr

/-- Arguments of a campaign start job (0x25, Table 16.9). -/
structure CampaignArgs where
  campaign : Nat
  slot : Nat
  media : BitVec 8
  sleepyUnicast : Bool
  abort : Bool
  groupMask : BitVec 16
  blockSize : Nat
  rounds : Nat
  roundGap : Nat
  activateAt : Nat
  statusObis : BitVec 48
  gmns : List Gmn
  deriving DecidableEq, Repr

/-- A job: its code's arguments with its attachment or envelope body (Table 13.5); `unknown` is a code that the table does not list.
`writeFails` tells whether the read-back of what the job writes to NOR or to Fuller fails. -/
inductive JobBody where
  | readMeter (gmn : Gmn) (obis : BitVec 48) (priority : Nat) (medium : Nat)
  | snapshotGroup (group : Nat) (all : Nat) (lead : Nat) (gmns : List Gmn)
  | registerRead (offset : Nat) (words : Nat)
  | meterStateRead (gmn : Gmn) (parts : BitVec 8)
  | attest (nonce : BitVec 256)
  | cancel (tag : BitVec 16)
  | trigger (entry : Nat) (source : Nat) (due : Nat) (period : Nat) (template : TriggerTemplate)
  | pulse (output : Nat) (startSec startNs : Nat) (period width : Nat)
  | hostTime (sec ns : Nat)
  | balanceMembership (gmn : Gmn) (group regPhase exportAllowed : Nat)
  | bundleSubmit (b : RelayBundle)
  | pushTariffSet (slot : Nat) (set : TariffSet)
  | creditChange (gmn : Gmn) (amount : Int)
  | disconnect (gmn : Gmn)
  | reconnect (gmn : Gmn) (force : Nat)
  | legalRelease (gmn : Gmn) (mode : Nat)
  | enrolMeter (a : EnrolArgs)
  | removeMeter (gmn : Gmn)
  | keyChange (gmn : Gmn) (keySlot : Nat) (ek ak : BitVec 192)
  | counterReset (gmn : Gmn) (rxIc txIc : BitVec 32)
  | designate (range : Nat) (trueNode : NodeId) (slots : Option (List Nat))
  | claimOwnership
  | releaseOwnership
  | forgetCoordinate
  | wallTimeStep (window maxStep : Nat)
  | clearLog (log : Nat)
  | openExpertSession (duration : Nat)
  | debugToken (token : List Byte)
  | updateDelivery (imageTag : BitVec 32) (offset total part : Nat) (block : List Byte) (writeFails : Bool)
  | campaignStart (a : CampaignArgs)
  | reset (node : NodeId) (cls : Nat)
  | bootHeaderWrite (h : BootHeader) (writeFails : Bool)
  | unknown (jobCode : Nat)
  deriving DecidableEq, Repr

/-- The JOB_CODE of a job (Table 13.5). -/
def JobBody.code : JobBody → Nat
  | .readMeter .. => 0x01
  | .snapshotGroup .. => 0x02
  | .registerRead .. => 0x03
  | .meterStateRead .. => 0x04
  | .attest .. => 0x05
  | .cancel .. => 0x06
  | .trigger .. => 0x07
  | .pulse .. => 0x08
  | .hostTime .. => 0x09
  | .balanceMembership .. => 0x0A
  | .bundleSubmit .. => 0x0B
  | .pushTariffSet .. => 0x10
  | .creditChange .. => 0x11
  | .disconnect .. => 0x12
  | .reconnect .. => 0x13
  | .legalRelease .. => 0x14
  | .enrolMeter .. => 0x15
  | .removeMeter .. => 0x16
  | .keyChange .. => 0x17
  | .counterReset .. => 0x18
  | .designate .. => 0x19
  | .claimOwnership => 0x1A
  | .releaseOwnership => 0x1B
  | .forgetCoordinate => 0x1C
  | .wallTimeStep .. => 0x20
  | .clearLog .. => 0x21
  | .openExpertSession .. => 0x22
  | .debugToken .. => 0x23
  | .updateDelivery .. => 0x24
  | .campaignStart .. => 0x25
  | .reset .. => 0x26
  | .bootHeaderWrite .. => 0x27
  | .unknown c => c

/-- A job with its header. -/
structure Job where
  hdr : JobHdr
  body : JobBody
  deriving DecidableEq, Repr

end Sys2Proof
end

