-- ==== Sys2Proof/Machine/State/Meter.lean ====
section
/-!
DEFINITION. The state kept per meter: the session context with its validation, link, transaction and balance parts
(Tables 4.4, 5.5, 7.7, 8.9, 9.7, 10.5) and the legal slot (Table 6.1).
-/

namespace Sys2Proof.Machine

/-- Context states (Table 4.5), in code order. -/
inductive CtxState where
  | empty | active | forward | mirror | frozen | exhausted | lost
  deriving DecidableEq, Repr

/-- Validation state (Table 5.5).  A register never reported is all ones. -/
structure ValState where
  lastSeq : BitVec 32
  seqSeen : BitVec 32
  lastReg : List Nat
  lastTref : Nat
  lastCycle : Nat
  lastIndex : Nat
  rating : Nat
  valid : Bool
  indexValid : Bool
  seqGaps : Nat
  intervalGaps : Nat
  rejects : Nat
  estimates : Nat
  deriving DecidableEq, Repr

/-- PLC link state (Table 8.9). -/
structure PlcLink where
  bestPhase : Nat
  primaryValid : Bool
  altValid : Bool
  discovering : Bool
  txMod : Nat
  txTm : BitVec 24
  fails : Nat
  snr : List Nat
  lastHeard : Nat
  deriving DecidableEq, Repr

/-- Radio link state (Table 9.7). -/
structure RadioLink where
  wake : Nat
  recovering : Bool
  gstep : Nat
  radio : Nat
  chan : Nat
  sleepy : Bool
  dist : Nat
  misses : Nat
  slot : Nat
  offset : Int
  drift : Int
  tMeas : Nat
  fails : Nat
  deriving DecidableEq, Repr

/-- Transaction state (Table 10.5).  `active` 0xFFFF is none. -/
structure TxnState where
  active : Nat
  radioLast : Bool
  noAnswer : Nat
  pending : Nat
  deriving DecidableEq, Repr

/-- Balance state (Table 7.7). -/
structure BalState where
  group : Nat
  regPhase : Nat
  detPhase : Nat
  member : Bool
  exportAllowed : Bool
  phaseRun : Nat
  phaseCand : Nat
  mismatch : Bool
  moved : Bool
  stepPending : Bool
  holdIssued : Bool
  discIssued : Bool
  above : Bool
  score : Nat
  components : List Nat
  corr : Int
  beta : Int
  snapImp : Nat
  snapExp : Nat
  snapId : Nat
  flagsSeen : Nat
  sigSteps : Nat
  postCount : Nat
  stepTime : Nat
  flagsTime : Nat
  reverseTime : Nat
  preMean : Int
  deriving DecidableEq, Repr

/-- A context table entry (Table 4.4).  `crcOk`: CTX_CRC verifies (R112, R113). -/
structure Context where
  gmn : Gmn
  group : Nat
  state : CtxState
  title : BitVec 64
  rxIc : BitVec 32
  window : BitVec 64
  txIc : BitVec 32
  keySlot : Nat
  keyGen : BitVec 8
  ekWrapped : BitVec 192
  akWrapped : BitVec 192
  val : ValState
  plc : PlcLink
  radio : RadioLink
  txn : TxnState
  bal : BalState
  fwCount : Nat
  crcOk : Bool
  deriving DecidableEq, Repr

/-- The legal slot (Table 6.1).  `crcOk`: SLOT_CRC verifies. -/
structure LegalSlot where
  rate : List Nat
  total : List Nat
  demand : List (Nat × Nat)
  periodEnergy : List Nat
  credit : Int
  residue : Nat
  periodIndex : Nat
  lastClose : Nat
  billTref : Nat
  estApplied : List Nat
  frozen : Bool
  supply : Nat
  supplyConfirmed : Bool
  creditLow : Bool
  creditExhausted : Bool
  deferred : Bool
  estInPeriod : Bool
  lateInPeriod : Bool
  byCredit : Bool
  tariffId : Nat
  lastSeq : BitVec 32
  commits : BitVec 32
  freezeSeq : BitVec 32
  freezeCause : Nat
  crcOk : Bool
  deriving DecidableEq, Repr

/-- All ones of a 40-bit register: never reported (Table 5.5, R124). -/
def neverReported : Nat := 2 ^ 40 - 1

/-- Validation state of a fresh meter. -/
def ValState.fresh (rating : Nat) : ValState :=
  ⟨0, 0, [neverReported, neverReported, neverReported, neverReported], 0, 0, 0, rating, false, false, 0, 0, 0, 0⟩

/-- Link, transaction and balance state of a fresh meter (R268, R302, R321, R235). -/
def PlcLink.fresh : PlcLink := ⟨0, false, false, false, 0, 0, 0, [0, 0, 0], 0⟩

/-- A fresh radio link. -/
def RadioLink.fresh (radio chan : Nat) : RadioLink := ⟨0, false, 0, radio, chan, false, 0, 0, 0, 0, 0, 0, 0⟩

/-- A fresh transaction state (R321). -/
def TxnState.fresh : TxnState := ⟨0xFFFF, false, 0, 0⟩

/-- A fresh balance state. -/
def BalState.fresh (group regPhase : Nat) (member exportAllowed : Bool) : BalState :=
  ⟨group, regPhase, 0, member, exportAllowed, 0, 0, false, false, false, false, false, false, 0,
   [0, 0, 0, 0, 0, 0], 0, 0, 0, 0, 0, 0, 0, 0, 0, 0, 0, 0⟩

/-- An EMPTY context. -/
def Context.empty : Context :=
  ⟨0, 0, .empty, 0, 0, 0, 0, 0, 0, 0, 0, .fresh 0, .fresh, .fresh 0 0, .fresh, .fresh 0 0 false false, 0, true⟩

/-- A legal slot as enrolment leaves it: everything zero, supply connected. -/
def LegalSlot.fresh : LegalSlot :=
  ⟨List.replicate 64 0, [0, 0, 0, 0], [(0, 0), (0, 0), (0, 0), (0, 0)], [0, 0, 0, 0], 0, 0, 0, 0, 0, [0, 0, 0, 0],
   false, 0, false, false, false, false, false, false, false, 0, 0, 0, 0, 0, true⟩

end Sys2Proof.Machine
end

