-- ==== Sys2Proof/Machine/State/Base.lean ====
section
/-!
DEFINITION. The state of the recorder, the key ladder, the access tables, the mode machine, the resets, the host
interfaces and Coachman (spec 10, 13, 14, 15, 17), as plain data.
-/

namespace Sys2Proof.Machine

/-! ## Waybill (17) -/

/-- A Waybill record (Table 17.3); CRC is computed from the other fields and so is not held twice. -/
structure WayRecord where
  opTime : Nat
  powerCycles : Nat
  source : BitVec 8
  code : BitVec 8
  set : BitVec 4
  payload : BitVec 128
  deriving DecidableEq, Repr

/-- What a record slot of a log holds: a verified record or a torn slot (R517). -/
inductive LogSlot where
  | valid (r : WayRecord)
  | torn
  deriving DecidableEq, Repr

/-- A log header as saved in NOR (Table 17.2).  `state`: 0 ACTIVE, 1 CLEARING, 2 FULL_BY_MEDIA. -/
structure LogHeader where
  state : Nat
  writeSeq : Nat
  generation : Nat
  lost : Nat
  clearCert : BitVec 32
  clearAnchor : Nat
  clearOpTime : Nat
  clearPrev : Nat
  remap : List (Nat × Nat)
  deriving DecidableEq, Repr

/-- One log: its two header copies, its slots in order, the counts WAY keeps in its AON registers, and the clear-log job that waits for
the erase (R519). -/
structure Log where
  headerA : Option LogHeader
  headerB : Option LogHeader
  slots : List LogSlot
  lost : Nat
  full : Bool
  clearing : Bool
  clearJob : Option JobRef
  deriving DecidableEq, Repr

/-- A buffered event; `decided` tells whether R516 has decided it as logged. -/
structure BufferedEvent where
  log : LogId
  record : WayRecord
  decided : Bool
  deriving DecidableEq, Repr

/-- The recorder, with MGC's two counts (R521) and their persisted copies. -/
structure Way where
  legal : Log
  security : Log
  operations : Log
  buffer : List BufferedEvent
  ready : Bool
  portWords : Table (BitVec 32)
  opTime : Nat
  powerCycles : Nat
  opTimeSaved : Nat
  powerCyclesSaved : Nat
  deriving DecidableEq, Repr

/-! ## Security (14) -/

/-- The security fuses (Table 14.1) as sensed; a zero anchor digest is an anchor not fused. -/
structure Fuses where
  serial : BitVec 64
  rootScr : BitVec 256
  rootMask : BitVec 256
  rootChk : BitVec 32
  fwAnchor : Digest
  anchors : List Digest
  revoke : BitVec 4
  certFloor : List Nat
  debugPermanent : Bool
  debugDisable : Bool
  vendor : BitVec 16
  metal : Nat
  base : Nat
  grade : Nat
  deriving DecidableEq, Repr

/-- A key slot (Table 14.2) with its material, which no master can read (R430).  `kind` 0 is EMPTY. -/
structure KeySlot where
  material : List Byte
  kind : Nat
  usage : BitVec 6
  origin : Nat
  parent : Nat
  parentGen : BitVec 8
  version : BitVec 32
  deriving DecidableEq, Repr

/-- The generation table's entry of a slot (R436). -/
structure GenEntry where
  gen : BitVec 8
  floor : Nat
  version : Nat
  deriving DecidableEq, Repr

/-- A held debug token (Table 14.5) with the starts it has left, and what its signature covers: the descriptor and the envelope it came in
(R441). -/
structure DebugToken where
  starts : Nat
  token : List Byte
  head : List Byte
  envelope : Envelope
  deriving DecidableEq, Repr

/-- The latched access violation (ACC_VIOL). -/
structure Violation where
  master : Master
  kind : Nat
  fixed : Bool
  target : Nat
  addr : Nat
  deriving DecidableEq, Repr

/-- An entry of SDRAM region 3 (Table 14.4): the meter's master key wrapped under slot 3, with the slot and generation of its context; CRC
is computed from the other fields and so is not held twice. -/
structure MasterEntry where
  wrapped : List Byte
  keySlot : Nat
  keyGen : BitVec 8
  valid : Bool
  deriving DecidableEq, Repr

/-- SEC: fuses, key slots, generation table, measurements, tokens, the master-key entries of region 3 (R439), the key statement of this
start (R445), nonces and the access-violation latch. -/
structure Sec where
  fuses : Fuses
  slots : Table KeySlot
  gens : Table GenEntry
  genTableErased : Bool
  genTableBad : Bool
  keytableLost : Bool
  destroyBusy : Option Nat
  testRoot : Bool
  debugActive : Bool
  debugPorts : BitVec 4
  token : Option DebugToken
  meas : List Digest
  masters : Table MasterEntry
  keyStmt : List Byte
  nonces : List (BitVec 64 × Nat × Option Nat)
  quotesUntil : List Nat
  violation : Option Violation
  acc : Table (Option (BitVec 16 × BitVec 16 × BitVec 16))
  overrides : Nat
  deriving DecidableEq, Repr

/-! ## Modes, power and resets (15, 18) -/

/-- The mode machine and its inputs (R455 to R465). -/
structure Pwr where
  mode : Mode
  budget : Nat
  testStart : Bool
  startInProgress : Bool
  pfailLow : Bool
  metAssumed : Bool
  step15At : Nat
  overCap : Bool
  overCapClearSince : Option Nat
  temps : List Int
  sensorFail : BitVec 4
  mismatchRuns : List Nat
  thermal : Bool
  thermalClearSince : Option Nat
  b2 : Bool
  b2ClearSince : Option Nat
  thermalStandby : Bool
  coolSince : Option Nat
  wakeHeld : Bool
  vscap : Nat
  vbatPresent : Bool
  powerMw : Nat
  rideStart : Option Nat
  lastRide : Nat
  gaspAt : Option Nat
  gaspCause : Nat
  gaspStored : Bool
  parked : BitVec 12
  deriving DecidableEq, Repr

/-- A hold for Fuller in progress (R475): its class, since when, and whether an SWP has escalated to it (R476). -/
structure Hold where
  cls : ResetClass
  since : Nat
  escalated : Bool
  deriving DecidableEq, Repr

/-- The reset unit: what RST latched, a hold for Fuller in progress, and the SYS watchdog (R474 to R476). -/
structure Rst where
  cls : ResetClass
  prev : ResetClass
  holdTimeout : Bool
  vbatLost : Bool
  escalated : Bool
  hold : Option Hold
  heldInGasp : Option ResetClass
  heartbeatAt : Nat
  watchdogPending : Bool
  swpAt : Option Nat
  legalPending : Bool
  deriving DecidableEq, Repr

/-- The rails and level pins (18): always-on rails in range, AON power-on reset done, PWR_EN_MAIN, main rails in
range, attempts to bring them up, whether they come up for a wake, VDD_AON up without a break since the last start, PCIE_PERST_N, and
ACT_OWN_OUT high-impedance. -/
structure Pins where
  railsOk : Bool
  aonReset : Bool
  pwrEnMain : Bool
  mainOk : Bool
  railAttempts : Nat
  wakePending : Bool
  aonSupply : Bool
  perstLow : Bool
  actOwnHighZ : Bool
  railAt : Nat
  deriving DecidableEq, Repr

/-! ## Host, Ethernet and side-band (13) -/

/-- A command queue's free-running indices (R397). -/
structure CmdQueue where
  head : BitVec 32
  tail : BitVec 32
  deriving DecidableEq, Repr

/-- Where a report goes (R402). -/
inductive ReportDest where
  | rq (n : Fin 4)
  | eth (port : Fin 2) (peer : Fin 32)
  | sideband (mac : BitVec 48)
  | fabric (port : Fin 4) (node : NodeId)
  deriving DecidableEq, Repr

/-- The body of a report descriptor by type (Table 13.6). -/
inductive ReportBody where
  | jobResult (status reason outcome : Nat) (detail : List Byte)
  | reading (outcome : Nat) (r : Record)
  | feederReading (f : FeederRecord)
  | groupResult (r : GroupResult)
  | anomaly (r : AnomalyRecord)
  | closedPeriod (p : ClosedPeriod)
  | alarm (cause : Nat) (gmn : Nat) (detail : Int)
  | txnOutcome (gmn : Nat) (tag : Nat) (outcome : Nat) (schedule : Nat)
  | bundle (b : RelayBundle)
  | event (log : LogId) (r : WayRecord) (notLogged : Bool)
  | mode (mode budget cause : Nat)
  deriving DecidableEq, Repr

/-- Job-specific data slots of a JOB_RESULT (Table 13.6): register words, a meter's state, a quote, the FAILED meters of a
campaign. -/
inductive ReportData where
  | none
  | words (ws : List (BitVec 32))
  | meter (ctx : Option Context) (slot : Option LegalSlot) (periods : List ClosedPeriod)
  | bytes (bs : List Byte)
  | failed (ms : List (Gmn × Nat))
  deriving DecidableEq, Repr

/-- A report (Tables 13.4, 13.6); `node` issues it. -/
structure Report where
  body : ReportBody
  data : ReportData
  final : Bool
  unmirrored : Bool
  fromMirror : Bool
  jobId : BitVec 32
  node : NodeId
  deriving DecidableEq, Repr

/-- A report that waits for its destination, since when, and whether it has found its ring full and been counted in RQ_WAITS (R402). -/
structure WaitingReport where
  dest : ReportDest
  report : Report
  since : Nat
  waited : Bool
  deriving DecidableEq, Repr

/-- A report queue (R400, R401); `ring`: the 64 bytes that the device wrote last into each slot, none for a slot not written since ENABLE. -/
structure ReportQueue where
  baseLo : BitVec 32
  baseHi : BitVec 32
  sizeLog2 : Nat
  enable : Bool
  head : BitVec 32
  tail : BitVec 32
  coalesce : Nat
  coalesceSince : Option Nat
  ring : Table (List Byte)
  deriving DecidableEq, Repr

/-- A job accepted and not yet answered by its final report (R61); `remote` names the node to which a REMOTE job went (R390). -/
structure OpenJob where
  ref : JobRef
  code : Nat
  remote : Option NodeId
  deriving DecidableEq, Repr

/-- The host interface: queues, the command queue that intake visited last (R398), waiting reports, accepted jobs and the link. -/
structure HostIf where
  cqs : List CmdQueue
  served : Nat
  rqs : List ReportQueue
  queuesOpen : Bool
  waiting : List WaitingReport
  jobs : List OpenJob
  speed : Nat
  width : Nat
  deriving DecidableEq, Repr

/-- A message of the Ethernet transport (Table 13.10). -/
inductive EthBody where
  | job (j : Job)
  | report (r : Report)
  | bundle (b : RelayBundle)
  | bundleAck (sender seq : BitVec 32)
  | ack
  deriving DecidableEq, Repr

/-- A message sent and not yet acknowledged (R420). -/
structure SentMessage where
  seq : Nat
  body : EthBody
  resends : Nat
  due : Nat
  deriving DecidableEq, Repr

/-- The association of a port with a peer (R420); `frags`: the fragments received of the next message, by their index. -/
structure Assoc where
  peerEpoch : Option Nat
  nextTx : Nat
  nextRx : Nat
  unacked : List SentMessage
  waiting : List EthBody
  frags : List (Nat × List Byte)
  ackDue : Bool
  down : Bool
  deriving DecidableEq, Repr

/-- An outbound relay bundle kept until its BUNDLE_ACK (R421). -/
structure HeldBundle where
  bundle : RelayBundle
  due : Nat
  deriving DecidableEq, Repr

/-- An Ethernet frame as sent (R417, R419): port, traffic class, addresses as numbers with byte 0 lowest, VID and PCP of its 802.1Q tag,
EtherType, and the bytes between it and the FCS. -/
structure EthSent where
  port : Nat
  traffic : Nat
  dst : Nat
  src : Nat
  tag : Option (Nat × Nat)
  etherType : Nat
  payload : List Byte
  deriving DecidableEq, Repr

/-- A frame that the port holds for its launch time (R96). -/
structure LaunchFrame where
  traffic : Nat
  bytes : List Byte
  sec : Nat
  ns : Nat
  deriving DecidableEq, Repr

/-- An Ethernet port; `gclFrom`: the wall time in ns from which its gate list runs (R418); `queue`: frames that wait for their gates,
oldest first; `launches`: frames held for their launch times. -/
structure EthPort where
  mode : Nat
  link : Bool
  los : Bool
  gates : BitVec 8
  gclRunning : Bool
  gclFrom : Nat
  queue : List EthSent
  launches : List LaunchFrame
  deriving DecidableEq, Repr

/-- The two Ethernet ports and their message layer. -/
structure Eth where
  ports : List EthPort
  assocs : Table Assoc
  heldBundles : List HeldBundle
  deriving DecidableEq, Repr

/-- A response of the side-band (R423, Table 13.11): its requester, and what it carries. -/
structure SbResponse where
  mac : BitVec 48
  reqId : BitVec 32
  cmd : Nat
  status : Nat
  reason : Nat
  data : List Byte
  deriving DecidableEq, Repr

/-- A response the side-band keeps for repeats (R423). -/
structure SbCached where
  response : SbResponse
  at_ : Nat
  deriving DecidableEq, Repr

/-- A request that executes: a JOB with its JOB_ID, whose reports return under its REQ_ID. -/
structure SbOpen where
  mac : BitVec 48
  reqId : BitVec 32
  jobId : BitVec 32
  deriving DecidableEq, Repr

/-- The side-band port. -/
structure Sb where
  up : Bool
  link : Bool
  cache : List SbCached
  outstanding : List SbOpen
  deriving DecidableEq, Repr

/-! ## Coachman and TXN (10) -/

/-- A task descriptor (Table 10.6).  `ticket` is the µs of the dispatch clock at the post. -/
structure Task where
  kind : Nat
  priority : Nat
  eclass : Nat
  exec : Nat
  coreMask : BitVec 12
  arg : Nat
  ticket : Nat
  deriving DecidableEq, Repr

/-- An executor: cores VAC0 to VAC11, then the ports PLC, RF0, RF1 and NET.  `acted`: the running task has done its work
and waits to be retired; `spans`: busy spans (start, end, in AFE clocks) of the last second. -/
structure Executor where
  running : Option Task
  acted : Bool
  busySince : Nat
  spans : List (Nat × Nat)
  deriving DecidableEq, Repr

/-- A trigger-table entry (R326).  `source` 0 is free; `late`: set with a DUE already numbered. -/
structure Trigger where
  source : Nat
  late : Bool
  due : Nat
  period : Nat
  kind : Nat
  priority : Nat
  eclass : Nat
  exec : Nat
  coreMask : BitVec 12
  arg : Nat
  deriving DecidableEq, Repr

/-- Coachman.  `held`: CYC and TIM events that wait to be posted again; `suspendedSince` and `suspendedMs` by class. -/
structure Cch where
  waiting : List Task
  executors : List Executor
  triggers : Table Trigger
  held : List Task
  level : Nat
  suspendedSince : List (Option Nat)
  suspendedMs : List Nat
  deriving DecidableEq, Repr

/-- Tag states (Table 10.1). -/
inductive TagState where
  | free | issued | retryWait | quarantine
  deriving DecidableEq, Repr

/-- The medium of an attempt. -/
inductive Medium where
  | plc | radio | relay | none
  deriving DecidableEq, Repr

/-- What a transaction carries (Table 10.3).  `read` an OBIS object; `supply` 1 opens, 2 closes; `hold` a credit
hold or its release; `clock` a clock set; `push` a data object with its block count. -/
inductive TxnBody where
  | read (obis : BitVec 48)
  | supply (value : Nat)
  | hold (set : Bool)
  | clock
  | push (payload : List Byte) (blocks : Nat)
  | snapshot (id : Nat)
  | broadcast (payload : List Byte)
  | relay (code : Nat)
  deriving DecidableEq, Repr

/-- A request of TXN (R311, R316).  `released`: its release cycle has been numbered; `medium` is a job's choice, `none`
for R315's; `heardLimit`: with SKIP_IF_HEARD, the boundary's stamp (R317); `tag` the held tag of a retry; `campaign` the campaign that reads a status (R505). -/
structure Request where
  gmn : Gmn
  body : TxnBody
  priority : Nat
  release : Nat
  released : Bool
  heardLimit : Option Nat
  schedule : Option Nat
  job : Option JobRef
  medium : Medium
  tag : Option Nat
  campaign : Option Nat
  deriving DecidableEq, Repr

/-- A transaction tag (R305, R306).  `deadline` and `restUntil` are on the TXN tick, in ms; `freed` orders the free
tags by when they were freed; `flood`: the TTL of the attempt's radio flood, zero for another path. -/
structure Tag where
  state : TagState
  gen : Nat
  request : Option Request
  attempts : Nat
  medium : Medium
  flood : Nat
  deadline : Option Nat
  restUntil : Nat
  freed : Nat
  blocksDone : Nat
  deriving DecidableEq, Repr

/-- The final report of a read job that waits for its answering record (R409): job, tag value and outcome. -/
structure FinalHeld where
  job : JobRef
  tagValue : Nat
  outcome : Nat
  deriving DecidableEq, Repr

/-- TXN.  `tagWait`: an issue found no free tag and none has left quarantine since; `schedules`: for each schedule, the
start cycle of its pending run and the stamp of its boundary. -/
structure Txn where
  tags : Table Tag
  pending : List Request
  genReseeded : Bool
  reseedPending : Bool
  tagWait : Bool
  freeCount : Nat
  schedules : Table (Nat × Nat)
  deriving DecidableEq, Repr

end Sys2Proof.Machine
end

