-- ==== Sys2Proof/Machine/State/Fabric.lean ====
section
/-!
DEFINITION. The state of the Herwyn fabric: node, ports, routes, pair, mirror stream, digests, ownership and the chain
relay (spec 12).
-/

namespace Sys2Proof.Machine

/-- Port states (HWLP_STATUS.STATE), in code order. -/
inductive PortState where
  | down | training | hello | up | isolated | failed
  deriving DecidableEq, Repr

/-- What the acting primary is asked to sequence (R373): a legal operation or a context operation. -/
inductive SeqWork where
  | legal (gmn : Gmn) (op : LegalOp)
  | context (b : JobBody)
  deriving DecidableEq, Repr

/-- A packet's payload in the mirror stream (R368) and the other packets of Table 12.2. -/
inductive HwlBody where
  | mrec (r : Record)
  | mest (r : Record)
  | mfeed (f : FeederRecord)
  | mjob (gmn : Gmn) (op : LegalOp)
  | mctx (j : JobBody)
  | cut (cutId lane : Nat)
  | msync (gmn : Gmn) (reason part parts : Nat) (data : List Byte)
  | handback
  | announce (serial : BitVec 64) (node : NodeId) (ports : List Nat) (pair : Nat)
  | pair (named : Nat) (rejoin : Bool) (mseqBase : BitVec 32) (inHigh query answer : Bool)
  | heartbeat
  | leave (cause : Nat)
  | mack (mseq : BitVec 32)
  | mnak (mseq : BitVec 32)
  | syncReq (gmn : Gmn) (reason : Nat)
  | digest (cutId range first : Nat) (digests : List (List Byte))
  | digestReq (cutId range : Nat) (blocks : List Nat)
  | digestResult (cutId range : Nat) (slots : List Nat)
  | fwdEntry (e : RelayEntry)
  | seqReq (w : SeqWork)
  | actionReq (gmn : Gmn) (action score kinds : Nat)
  | job (j : Job)
  | report (r : Report)
  | reset (j : Job)
  | chainData (tag : BitVec 32) (offset total : Nat) (data : List Byte)
  | chainAck (tag : BitVec 32) (next : Nat)
  | chainResult (tag : BitVec 32) (node : NodeId) (result : Nat)
  | hello (bytes : List Byte)
  | helloAck (bytes cmac : List Byte)
  deriving DecidableEq, Repr

/-- A packet without its LSEQ: the fields of its header (Table 12.1) and its payload; `tag` is MSEQ or ANN_SEQ. -/
structure HwlPacket where
  typ : Nat
  vc : Nat
  cls : Nat
  flood : Bool
  dst : NodeId
  src : NodeId
  hops : Nat
  tag : BitVec 32
  payload : List Byte
  deriving DecidableEq, Repr

/-- A port (R355 to R361). `credits` are per VC and class in 64-byte units; `replay` holds (LSEQ, packet); `ackSince` is when the oldest
packet arrived that no ACK names, `unacked` how many there are; `helloSent` the 48 bytes of the HELLO that this port sent last. -/
structure HwlPort where
  state : PortState
  blockLock : Bool
  peer : Option NodeId
  peerSerial : Option (BitVec 64)
  peerPort : Nat
  isolate : Nat
  credits : Table Nat
  nextTx : BitVec 16
  expectRx : BitVec 16
  replay : List (BitVec 16 × HwlPacket)
  waiting : List HwlPacket
  naks : Nat
  nakFor : BitVec 16
  ackSince : Option Nat
  unacked : Nat
  trainFails : List Nat
  retrainAt : Option Nat
  helloSent : List Byte
  stalled : Option Nat
  nakSent : Bool
  deriving DecidableEq, Repr

/-- A route (HWL_ROUTE_d). -/
structure Route where
  port : Nat
  reachable : Bool
  diverted : Bool
  distance : Nat
  deriving DecidableEq, Repr

/-- What is known of another node from its ANNOUNCE (R364). -/
structure Member where
  serial : BitVec 64
  annSeq : BitVec 32
  heard : Nat
  ports : List Nat
  member : Bool
  deriving DecidableEq, Repr

/-- A digest cut in progress (R375, R376): its interval index, its range as the node ID of the range's primary, the lanes whose barrier
Troika has passed, whether all have; the meters' register sets at the cut by slot; and in the mirror the block digests received, the
blocks whose meter digests were asked for, and the meter digests received. -/
structure Cut where
  cutId : Nat
  range : Nat
  lanes : BitVec 4
  ready : Bool
  slots : Table LegalSlot
  blocks : Table (List Byte)
  asked : List Nat
  meters : List (List Byte)
  deriving DecidableEq, Repr

/-- The parts of an MSYNC that have arrived (R374): its meter, its REASON and the DATA of each part. -/
structure SyncParts where
  gmn : Gmn
  reason : Nat
  parts : List (List Byte)
  deriving DecidableEq, Repr

/-- A chain relay this node takes part in (R387 to R389), with the bytes of the image received so far in region 13. -/
structure Chain where
  tag : BitVec 32
  total : Nat
  bytes : List Byte
  head : Option NodeId
  predecessor : Option NodeId
  successor : Option NodeId
  sentTo : Nat
  ackedTo : Nat
  lastAck : Nat
  result : Option Nat
  results : List (NodeId × Nat)
  job : Option JobRef
  deriving DecidableEq, Repr

/-- The offset that a node of a chain expects next. -/
def Chain.next (c : Chain) : Nat := c.bytes.length

/-- A report that waits for the mirror's acknowledgement of an MSEQ (R18, R373). -/
structure MirrorHeld where
  mseq : BitVec 32
  dests : List ReportDest
  report : Report
  deriving DecidableEq, Repr

/-- A job that this node accepted and its partner sequences: its final report follows the work's return (R373). -/
structure SeqAsked where
  work : SeqWork
  ref : JobRef
  deriving DecidableEq, Repr

/-- The fabric. -/
structure Hwl where
  ports : List HwlPort
  assigned : Bool
  nodeId : NodeId
  x : Nat
  y : Nat
  conflict : Bool
  stored : Option (Nat × Nat)
  firstUp : Option Nat
  annSeq : BitVec 32
  announceAt : Nat
  members : Table (Option Member)
  routes : Table Route
  paired : Bool
  pairSent : Bool
  pairMismatch : Bool
  partnerLost : Bool
  assignedAt : Nat
  partnerHeard : Nat
  heartbeatAt : Nat
  rejoin : Bool
  partnerRejoin : Bool
  syncing : Bool
  ownRange : Bool
  partnerRange : Bool
  mseqOut : BitVec 32
  mseqAcked : BitVec 32
  window : List (BitVec 32 × HwlBody)
  expectIn : BitVec 32
  heldIn : List (BitVec 32 × HwlBody)
  gapSince : Option Nat
  mackSince : Option Nat
  syncParts : List SyncParts
  mests : Table (Option Record)
  heldReports : List MirrorHeld
  syncAsked : List Nat
  seqAsked : List SeqAsked
  cuts : List Cut
  lastCut : Nat
  mismatch : List Nat
  outHigh : Bool
  inHigh : Bool
  owner : Bool
  claiming : Option Nat
  backoffUntil : Option Nat
  interlockFault : Bool
  checkWiring : Bool
  queries : Nat
  queriedAt : Nat
  chain : Option Chain
  chainTag : Nat
  deriving DecidableEq, Repr

end Sys2Proof.Machine
end

