-- ==== Sys2Proof/Syntax/Links.lean ====
section
/-!
DEFINITION. Frames of the two link layers as the demodulators decode them (spec 08, spec 09), and the freeze payload of a beacon (spec 07
Table 7.2).
-/

namespace Sys2Proof

/-- A parity failure that a frame meets inside ING (R111, R112): a flit that reaches a receiver damaged, with the replays of it that
fail before one succeeds; or a read of a FIFO, lane buffer or replay buffer that fails, with the repeats that fail. -/
inductive ParityFault where
  | flit (number failed : Nat)
  | read (failed : Nat)
  deriving DecidableEq, Repr

/-- A rising passage of a phase voltage at the MET input, in units of 0.1 mV (R64): the lowest voltage since the phase last stood above +h,
the highest since the passage began, and the two samples that straddle zero with the AFE clocks they refer to, the group delay of the
decimation filter removed. -/
structure ZcWave where
  low : Int
  high : Int
  u0 : Int
  u1 : Int
  at0 : Nat
  at1 : Nat
  deriving DecidableEq, Repr

/-- A copy of a frame as a power-line chain decodes it: its bytes, the modulation and tone map of its frame control header, the magnitudes
of its samples symbol by symbol with the RMS of its preamble (R247), its mean SNR and that of each tone group in 1/64 dB (R254), and the
level of each of its eight sub-bands in 1/64 dBµV at the ball (R265).  `fckOk`, `faults`: what happens to it inside ING (Table 4.3, R111). -/
structure PlcCopy where
  bytes : List Byte
  modulation : Nat
  toneMap : BitVec 24
  symbols : List (List Nat)
  rms : Nat
  snr : Nat
  groups : List Int
  levels : List Int
  fckOk : Bool
  faults : List ParityFault
  deriving DecidableEq, Repr

/-- TIMING of a sleepy partner (Table 9.5). -/
structure MeshTiming where
  lag : Nat
  valid : Bool
  longWindow : Bool
  deriving DecidableEq, Repr

/-- A copy of a frame as a radio's demodulator decodes it: radio, channel (0 CHAN_A), the PHR's mode switch and FCS type, the PSDU, the
received level in 0.25 dBm, and the first preamble sample in RADIO clocks, the demodulator's path delay taken off (R281).  `fckOk`,
`faults`: what happens to it inside ING. -/
structure MeshCopy where
  radio : Fin 2
  chan : Fin 2
  modeSwitch : Bool
  fcsType : Nat
  bytes : List Byte
  level : Int
  start : Nat
  fckOk : Bool
  faults : List ParityFault
  deriving DecidableEq, Repr

/-- A command payload of a beacon: the freeze payload of a snapshot (Table 7.2). -/
structure FreezePayload where
  snapId : Nat
  refCycle : Nat
  delta : Nat
  spread : Nat
  deriving DecidableEq, Repr

/-- A Herwyn packet as received (R356): the port on which it arrives, its 16-byte header (Table 12.1), its payload and its LCRC. -/
structure HwlHeader where
  port : Fin 4
  head : List Byte
  payload : List Byte
  lcrc : BitVec 32
  deriving DecidableEq, Repr

/-- What every PTP message brings (R91): port, domain, the master's identity, sequence and logMessageInterval. -/
structure PtpHdr where
  port : Fin 2
  domain : Nat
  master : BitVec 64
  seq : Nat
  logInterval : Int
  deriving DecidableEq, Repr

/-- An Announce's dataset (IEEE 1588-2019) and its UTC fields (R89, R92). -/
structure PtpAnnounce where
  sender : BitVec 64
  identity : BitVec 64
  priority1 : Nat
  clockClass : Nat
  accuracy : Nat
  variance : Nat
  priority2 : Nat
  stepsRemoved : Nat
  logInterval : Int
  utcOffset : Nat
  utcValid : Bool
  leap61 : Bool
  leap59 : Bool
  deriving DecidableEq, Repr

end Sys2Proof
end

