-- ==== Sys2Proof/Syntax/Frames.lean ====
section
/-!
DEFINITION. Frames as the ingest FIFOs hold them: the ingest header (Table 4.2) and what follows it, for each of the
eleven sources of Table 4.1.
-/

namespace Sys2Proof

/-- What follows the ingest header: a link frame (link header, APDU, FCS as received), a relay bundle with the Ethernet port and peer
it came from, a forwarded bundle entry, a mirrored record, or a record built by firmware. -/
inductive FrameBody where
  | apdu (header : List Byte) (a : Apdu) (fcs : List Byte)
  | bundle (b : RelayBundle) (peer : Option (Fin 2 × Fin 32))
  | entry (e : RelayEntry)
  | mirror (r : Record)
  | built (r : Record)
  deriving DecidableEq, Repr

/-- What SECDED finds in an entry of the context table (R113). -/
inductive EccOutcome where
  | clean | corrected | uncorrectable
  deriving DecidableEq, Repr

/-- A frame with its ingest header (Table 4.2).  `fckOk`: the bytes as the lane reads them are those that were written, so that the two
FCKs of Table 4.3 agree; `faults`: the parity failures it meets. -/
structure Frame where
  src : Nat
  slot : Option (Fin 16384)
  synth : Bool
  regressed : Bool
  rxCycle : BitVec 48
  zcOffset : BitVec 16
  snr : BitVec 8
  hops : BitVec 3
  rxPhase : BitVec 2
  txnTag : BitVec 16
  rxTime : BitVec 32
  fcsKind : Nat
  fckOk : Bool
  faults : List ParityFault
  body : FrameBody
  deriving DecidableEq, Repr

/-- The fields that a decrypted APDU gives for a record (Tables 4.8, 4.9), from ING's parser or from firmware. -/
structure Parsed where
  typ : Nat
  readSeq : Nat
  meterTime : Nat
  freezeCycle : Nat
  regs : List Nat
  voltage : Nat
  current : Nat
  flags : Nat
  deriving DecidableEq, Repr

/-- A meter's campaign status object (Table 16.12): CAMPAIGN_ID, STATE, and the missing blocks that BASE and BITMAP name. -/
structure CampStatus where
  campaign : Nat
  state : Nat
  missing : List Nat
  deriving DecidableEq, Repr

end Sys2Proof
end

