-- ==== Sys2Proof/Syntax/Host.lean ====
section
/-!
DEFINITION. Frames of the Ethernet ports and requests of the side-band, as they reach the device (R414 to R423, Tables 13.10, 13.11).
-/

namespace Sys2Proof

/-- A message frame (Table 13.10): its header's fields, the bytes of its body and its CMAC.  `reserved`: the header's reserved bits, lowest
first; `body`: what the bytes of the whole message spell. -/
structure EthMsg where
  version : Nat
  kind : Nat
  length : Nat
  peerId : Nat
  epoch : Nat
  reserved : BitVec 44
  seq : Nat
  ackSeq : Nat
  frag : Nat
  frags : Nat
  part : List Byte
  cmac : List Byte
  body : Machine.EthBody
  deriving DecidableEq, Repr

/-- Kinds of PTP messages (R91); the slave's own kinds are rows of their own. -/
inductive PtpKind where
  | slave | pdelay | signaling | management
  deriving DecidableEq, Repr

/-- What a frame carries after its EtherType: a PTP message, an IPv4 UDP datagram by its destination address and port with the PTP message
in it, or a message frame. -/
inductive EthContent where
  | pause
  | ptp (k : PtpKind)
  | udp (dstIp dstPort : Nat) (k : PtpKind)
  | message (m : EthMsg)
  | other
  deriving DecidableEq, Repr

/-- A received Ethernet frame.  MAC addresses are numbers with byte 0 lowest; `vid` is the VID of an 802.1Q tag; `length` counts the
frame without its preamble. -/
structure EthFrame where
  dst : Nat
  src : Nat
  vid : Option Nat
  etherType : Nat
  length : Nat
  fcsOk : Bool
  content : EthContent
  deriving DecidableEq, Repr

/-- A side-band request frame and what its answer meets on the segment.  `bytes`: its length from destination to FCS; then its header's fields
(Table 13.10) and REQ_ID; `collisions`: attempts of the answer that collided; `late`: a late collision spoils the answer. -/
structure SbReq where
  mac : BitVec 48
  dst : BitVec 48
  etherType : Nat
  bytes : Nat
  fcsOk : Bool
  version : Nat
  kind : Nat
  length : Nat
  peerId : Nat
  frag : Nat
  frags : Nat
  reqId : BitVec 32
  collisions : Nat
  late : Bool
  deriving DecidableEq, Repr

end Sys2Proof
end

