-- ==== Sys2Proof/Syntax/Start.lean ====
section
/-!
DEFINITION. What a start finds outside the device's own state: the outcomes of its self-tests, what answers on the memory buses and
which burns verify (spec 02 Table 2.1, 11 R331, 14, 17 Table 17.5, 18).
-/

namespace Sys2Proof

/-- What a NAND chip enable answers to its parameter page (R331): `mode` is the fastest timing mode it offers, `trainsAt` the modes at
which its bus trains, `factoryBad` its factory-bad blocks. -/
structure NandProbe where
  pageValid : Bool
  pageBytes : Nat
  spareBytes : Nat
  pages : Nat
  blocks : Nat
  luns : Nat
  pairGroup : Nat
  retryLevels : Nat
  mode : Nat
  trainsAt : List Nat
  factoryBad : List Nat
  deriving DecidableEq, Repr

/-- A start.  `ticks`: how long it takes, in AFE clocks; `hangAfter`: the boot ROM hangs after completing this step, so that the boot
watchdog will expire; `rails`: the main rails come into range; `vbatHeld`: VBAT has held AON SRAM and the RTC;
`crypto`, `random`: the known-answer and random-generator tests pass; `temps`: the die sensors in °C;
`sdramTrains`, `sdramTest`: training and the memory test pass; `nand`: by chip enable; `logBad`: log header copies that do not verify, as 2 × LOG + copy (R520); `updBad`: the copies
of the update state record that fail their CRC (0, 1; R492); `copyFails`, `backFails`: how often the read-back fails of each copy step of
Table 16.8 and of each copy of the fallback (R494, R496);
`parityOk` the parity path test; `troika`: A, B, C pass the known-answer updates; `fuseFails`: fuse items (by ID) whose burn fails
to verify; `pcieSpeed`, `pcieWidth`: what the PCIe link trains to,
zero without a host. -/
structure StartEnv where
  ticks : Nat
  hangAfter : Option Nat
  rails : Bool
  vbatHeld : Bool
  crypto : Bool
  random : Bool
  temps : List Int
  sdramTrains : Bool
  sdramTest : Bool
  nand : List (Option NandProbe)
  logBad : List Nat
  updBad : List Nat
  copyFails : List Nat
  backFails : List Nat
  parityOk : Bool
  troika : List Bool
  fuseFails : List Nat
  pcieSpeed : Nat
  pcieWidth : Nat
  deriving DecidableEq, Repr

end Sys2Proof
end

