-- ==== Sys2Proof/Syntax.lean ====
section
/-!
DEFINITION. The commands of the block: one constructor per row of spec/opcode_table.json, with what each brings from
outside.  `t` is the time of a command in AFE clocks since the model's epoch.
-/

namespace Sys2Proof

/-- The commands. -/
inductive Instr where
  /-- The always-on rails enter range, the AON power-on reset ends and PWR_EN_MAIN is raised so that the main rails can come
  up (R528). -/
  | powerUpSequence (t : Nat)
  /-- The main-rail detectors have not all reported in range within 50 ms of PWR_EN_MAIN rising, so the device drops
  PWR_EN_MAIN, waits and retries, and stays in STANDBY after three failures (R529). -/
  | mainRailTimeout (t : Nat)
  /-- A main rail leaves its range for more than 10 µs while PWR_EN_MAIN is high, the main domains stop, and the return of
  the rail is a POR (R529). -/
  | mainRailDrop (t : Nat)
  /-- The core or AON supply rises through its threshold, everything not held on VBAT resets, and the start runs from step 1
  (R474). -/
  | powerOnReset (e : StartEnv) (t : Nat)
  /-- RESET_N is held low for at least 1 µs, the device resets as for POR except that AON registers survive while VBAT is
  held, and the start runs from step 1 (R474). -/
  | hrst (e : StartEnv) (t : Nat)
  /-- WRST_N is held low for at least 1 µs and the device takes a warm reset of everything but AON, held first for Fuller
  (R474). -/
  | wrm (t : Nat)
  /-- Fuller completes steps 1 to 4 of Table 11.4 during a reset hold, and RST applies the held reset (R475). -/
  | holdComplete (e : StartEnv) (t : Nat)
  /-- Fuller has not completed 100 ms into a reset hold, so the reset proceeds with HOLD_TIMEOUT set and dirty data lost
  (R475). -/
  | holdTimeout (e : StartEnv) (t : Nat)
  /-- The 10 s boot watchdog expires, the device takes a watchdog reset, and the third consecutive expiry ends the start in
  RECOVERY with fail code 0x08 (R34). -/
  | bootWatchdogExpiry (e : StartEnv) (t : Nat)
  /-- The application cluster signals MGC, which restarts the SYS watchdog counting (R476). -/
  | appHeartbeat (t : Nat)
  /-- The cluster has not signalled for 1 s, so the SYS watchdog becomes pending and the owner drives ACT_OWN_OUT low
  (R476). -/
  | watchdogPending (t : Nat)
  /-- WDG_TIMEOUT passes without a signal from the cluster and MGC takes a WDG reset (R476). -/
  | sysWatchdogExpiry (t : Nat)
  /-- The cluster has not signalled within 2 s of an SWP, so MGC takes SWF in its place and sets ESCALATED (R476). -/
  | swpEscalation (t : Nat)
  /-- The 2 s legal-core watchdog expires and the legal partition enters its safe state (R168). -/
  | legalWatchdogExpiry (t : Nat)
  /-- The legal core has not recovered 1 s after its watchdog expired, so the device takes a WDG reset (R168). -/
  | legalWatchdogEscalation (t : Nat)
  /-- The synchronised level of PFAIL_N changes and the mode is evaluated again (R457). -/
  | pfailNChange (low : Bool) (t : Nat)
  /-- At a change of its inputs, or every AON millisecond, PWR re-evaluates the mode and the budget level by the rules of
  precedence (R458). -/
  | modeEvaluation (vscap powerMw : Nat) (t : Nat)
  /-- Fuller has not reported completion 180 ms into GASP, so PWR stops it, abandons the dirty data and counts GASP_LATE
  (R464). -/
  | gaspFullerDeadline (t : Nat)
  /-- At 250 ms into GASP, every domain but AON stops and the device enters STANDBY (R464). -/
  | standbyEntry (t : Nat)
  /-- The present ride reaches RIDE_TIME and the device moves to GASP (R458). -/
  | rideTimeExpiry (t : Nat)
  /-- The four die sensors are sampled, failed sensors are detected, and the thermal condition is evaluated (R461). -/
  | temperatureSample (t0 t1 t2 t3 : Int) (t : Nat)
  /-- The thermal or power-cap condition has stayed cleared for 10 s, so THROTTLE or B2 is left (R461). -/
  | thermalClear (t : Nat)
  /-- WAKE_N is held low for at least 1 ms and the device wakes from STANDBY (R466). -/
  | wakeNLow (e : StartEnv) (t : Nat)
  /-- Mains returns during a STANDBY that followed a mains loss, by PFAIL_N high or 8 valid crossings at V1, and the device
  wakes (R466). -/
  | standbyMainsReturn (periods : List Nat) (e : StartEnv) (t : Nat)
  /-- After a thermal STANDBY, T_max has stayed below THERMAL_WAKE_C for 60 s, so held wake events may act (R466). -/
  | thermalWake (e : StartEnv) (t : Nat)
  /-- MET's voltage on a phase crosses from below −h to above +h, and the crossing is interpolated, accepted or rejected,
  and checked against the window (R64). -/
  | zeroCrossing (phase : Fin 3) (w : ZcWave) (m : List MetCycle) (t : Nat)
  /-- No valid crossing has followed within LOSS_PERIODS tenths of a nominal period, so the phase becomes absent and the
  source or mains presence changes (R66). -/
  | phaseAbsent (phase : Fin 3) (t : Nat)
  /-- A synthetic cycle falls due one nominal period after the last cycle while mains is absent, and it is numbered and
  flagged synthetic (R69). -/
  | syntheticCycle (t : Nat)
  /-- An RTC tick, corrected by RTC_TRIM, advances the cycle-shadow accumulator and AON wall time while CYC numbers no
  cycles (R73). -/
  | rtcTick (t : Nat)
  /-- MGC counts one second of operating time from the trimmed RTC (R521). -/
  | operatingTimeTick (t : Nat)
  /-- Every 3 600 s, MGC writes the operating-time count to management persistence (R521). -/
  | operatingTimePersist (t : Nat)
  /-- Once per second while LINK runs, AON's copy of wall time is refreshed from TIM (R90). -/
  | aonTimeRefresh (t : Nat)
  /-- A PTP Sync message is received and timestamped, and it completes an offset sample when its companions are held (R547).
  -/
  | sync (h : PtpHdr) (t1 : Option Int) (sub : Nat) (t : Nat)
  /-- A PTP Follow_Up message from a two-step master is received and completes the Sync's sample (R547). -/
  | followUp (h : PtpHdr) (t1 : Int) (t : Nat)
  /-- A PTP Delay_Resp message is received and supplies t4 for the offset computation (R93). -/
  | delayResp (h : PtpHdr) (t4 : Int) (t : Nat)
  /-- At the master's logMinDelayReqInterval, TIM sends a Delay_Req (R91). -/
  | delayReqSend (port : Fin 2) (sub : Nat) (t : Nat)
  /-- A PTP Announce message is received and the best-master comparison is run (R92). -/
  | ptpAnnounce (h : PtpHdr) (a : PtpAnnounce) (t : Nat)
  /-- Three announce intervals pass without an Announce from a master, which is dropped, and TIM sets HOLDOVER when none is
  left (R92). -/
  | masterTimeout (port : Fin 2) (master : BitVec 64) (t : Nat)
  /-- T seconds after a passed sample the proportional term ends, and the integral rate alone applies (R548). -/
  | proportionalEnd (t : Nat)
  /-- The WINDOW of a wall-time step permit runs out and the permit closes unused (R87). -/
  | stepPermitExpiry (t : Nat)
  /-- At the end of a UTC day announced with a leap flag, UTC_OFFSET changes by one second (R89). -/
  | leapSecond (t : Nat)
  /-- The expert session's remaining time runs out, expert level ends and a security event is written (R58). -/
  | expertSessionExpiry (t : Nat)
  /-- Wall time passes a cached nonce's NOT_AFTER, or its operating-time life ends, and the nonce leaves the cache (R407). -/
  | nonceExpiry (t : Nat)
  /-- A TPULSE schedule instant is reached, the output rises and the pulse trigger is posted (R98). -/
  | pulseInstant (output : Fin 2) (t : Nat)
  /-- WIDTH after a pulse instant, the TPULSE output falls (R98). -/
  | pulseFall (output : Fin 2) (t : Nat)
  /-- An Ethernet frame with a launch time is sent when its launch time arrives, or sent late or discarded (R96). -/
  | launch (port : Fin 2) (traffic : Fin 8) (bytes : List Byte) (launchSec launchNs : Nat) (ahead : Bool) (t : Nat)
  /-- A PLC beacon is launched at its named cycle and offset, carrying any command payload (R266). -/
  | beaconLaunch (t : Nat)
  /-- An RF beacon is launched on CHAN_A, or CHAN_B for the second copy, of each enabled radio at its cycle and offset
  (R300). -/
  | rfBeaconLaunch (radio : Fin 2) (t : Nat)
  /-- The last word of a frame is written into an ingest FIFO, and the frame gets its arrival ticket (R107). -/
  | ingestFrame (f : Frame)
  /-- The steering stage reads the next ticketed frame into its lane, the bundle splitter or a drop, returning credits
  (R107). -/
  | steering
  /-- Returned credits reach a producer, which may then begin a frame that needs them (R102). -/
  | creditReturn (src : Fin 11)
  /-- The splitter checks a relay bundle's header and CMAC and hands its entries on with arrival tickets, or drops the
  bundle (R135). -/
  | bundleSplit (t : Nat)
  /-- A context-cache fill completes with its keys unwrapped, or the fill fails and the context becomes LOST (R115). -/
  | contextFill (lane : Fin 4) (ecc : EccOutcome) (t : Nat)
  /-- A frame whose context is ready passes the frame check, replay check, decryption, parse and FCK compare, and becomes a
  record handed to VAL or is dropped (R120). -/
  | laneProcessing (lane : Fin 4) (badRead : Bool) (t : Nat)
  /-- Firmware builds a record from a pass-to-firmware entry and returns it through source 10 (R127). -/
  | firmwareRecordBuild (verified : Bool) (built : Option Parsed) (status : Option CampStatus) (t : Nat)
  /-- A job or mirror operation that writes a context takes effect between a meter's frames and is journaled as a context
  image (R116). -/
  | contextOperation (lane : Fin 4) (t : Nat)
  /-- Contexts are rebuilt from the newest checkpoint, context images and later records, after which credits open (R118). -/
  | contextRestore (t : Nat)
  /-- A mirrored record from source 9 has its RCK verified and is handed to VAL for the mirrored context (R138). -/
  | mirrorRecord (lane : Fin 4) (t : Nat)
  /-- A field node closes its outbound bundle at 255 entries, 16 384 bytes, BUNDLE_HOLD or an interval boundary, and sends
  it (R137). -/
  | bundleClose (boundary : Bool) (t : Nat)
  /-- VAL applies the sequence, time, cycle, register, delta, quality and gap rules to a record and writes its verdict and
  flags (R161). -/
  | validate (lane : Fin 4) (t : Nat)
  /-- Once downstream can accept, VAL releases a record, or an estimate with its trigger, to Troika, BAL, Fuller and HWL and
  updates the meter state (R162). -/
  | recordRelease (lane : Fin 4) (t : Nat)
  /-- Troika computes an update for a record or job on its voting units, and commits it on two equal images or declines it
  (R188). -/
  | troikaUpdate (readFails : Bool) (a b c : UnitAnswer) (t : Nat)
  /-- A unit does not present within 20 000 SYS cycles and counts as disagreeing or outvoted (R188). -/
  | voteTimeout (unit : Fin 3) (t : Nat)
  /-- The known-answer updates of the safe state complete and the safe state ends or stays (R190). -/
  | safeStateTestsDone (a b c : Bool) (t : Nat)
  /-- At the cycle realising P + CLOSE_GRACE, Troika posts forced closures for meters whose period has not closed (R182). -/
  | forcedClosure (slot : Fin 16) (t : Nat)
  /-- Once per second, MET hands Troika the accumulated feeder deltas, which it applies to the feeder register set (R195). -/
  | feederDeltas (m : List MetCycle) (t : Nat)
  /-- The friendly period ends and held disconnect requests are posted if the meter still qualifies (R186). -/
  | friendlyPeriodEnd (t : Nat)
  /-- Troika's rebuild of region 4 from the legal checkpoint and the journal completes, and new updates are accepted (R193).
  -/
  | troikaRebuild (votes : List (List UnitAnswer)) (t : Nat)
  /-- At each dwell, or each second, LGC sends a display frame and checks the module's return (R198). -/
  | displayFrame (sync shownSeq : Byte) (shown : Bool) (t : Nat)
  /-- TXN hands Troika the meter's answer to a supply command, which sets SUPPLY_CONFIRMED or writes a legal event (R187). -/
  | supplyConfirmation (gmn : Gmn) (positive : Bool) (t : Nat)
  /-- BAL takes a released record for phase identification, signature tracking, flag checks, interval share and snapshot
  matching (R207). -/
  | balRecord (t : Nat)
  /-- A PLC channel estimate updates the meter's signature and may open, confirm or close a step candidate (R223). -/
  | channelEstimate (t : Nat)
  /-- BAL_SETTLE after an interval's end, BAL computes the group's interval results, attribution and scores (R210). -/
  | intervalResult (group : Fin 256) (t : Nat)
  /-- SNAP_COLLECT ÷ 2 after C_t, TXN reads the latched registers of named meters that have not reported (R217). -/
  | snapshotCollectRead (t : Nat)
  /-- At SNAP_COLLECT after C_t, or when every named meter has latched, the snapshot result is computed (R218). -/
  | snapshotResult (t : Nat)
  /-- A score component's hold of SCORE_HOLD_DAYS runs out and the score is recomputed (R231). -/
  | componentLapse (gmn : Gmn) (t : Nat)
  /-- A PLC receive chain decodes a frame copy, checks its FCS and applies the address filter (R259). -/
  | copyReceived (chain : Fin 3) (c : PlcCopy) (t : Nat)
  /-- The combine window closes, and the best copy of a reception is delivered or found in Tollbook (R260). -/
  | combineWindowClose (mesh : Bool) (t : Nat)
  /-- 1.2 ms after a frame's last sample, the PLC ACK is sent with PENDING computed afresh, or skipped (R252). -/
  | ackTransmit (t : Nat)
  /-- A PLC ACK frame for an awaited transmission is received and the attempt succeeds (R258). -/
  | ack (chain : Fin 3) (bytes : List Byte) (t : Nat)
  /-- A PLC attempt's ACK wait ends without an ACK, and the next attempt of the ladder follows or the link failure is
  reported (R258). -/
  | ackWaitExpiry (t : Nat)
  /-- A PLC CSMA wait ends, and the frame is sent or deferred again (R263). -/
  | csmaBackoffEnd (t : Nat)
  /-- DISC_WINDOW after a DISCOVER, reply collection ends and the discovery's place frees (R256). -/
  | discWindowExpiry (t : Nat)
  /-- A Tollbook entry's lifetime ends and the entry leaves (R261). -/
  | tollbookExpiry (t : Nat)
  /-- A radio demodulator decodes a frame copy and applies the hardware filter and the NET_ID and address checks (R288). -/
  | rfCopyReceived (c : MeshCopy) (t : Nat)
  /-- 1 ms after a unicast frame's last symbol, the Enh-Ack is sent with its pending bit computed afresh (R276). -/
  | enhAckTransmit (t : Nat)
  /-- An awaited Enh-Ack is received, ending the attempt or slot exchange, and its TIMING is measured (R297). -/
  | enhAck (radio : Fin 2) (bytes : List Byte) (start t : Nat)
  /-- A radio unicast gets no Enh-Ack, and it is retried with fresh CSMA-CA, flooded or reported as a link failure (R278). -/
  | rfAckWaitExpiry (radio : Fin 2) (t : Nat)
  /-- An unslotted CSMA-CA backoff ends with a CCA, and the frame is sent or access fails (R278). -/
  | csmaCaAttempt (radio : Fin 2) (energy : Int) (t : Nat)
  /-- At a slotted partner's wake instant, RFM makes one CCA and sends preamble and frame within the guard, or yields
  (R293). -/
  | slotExchange (slot : Fin 16384) (energy : Int) (t : Nat)
  /-- A slot exchange gets no Enh-Ack, and the guard widens or the partner moves to long preamble (R295). -/
  | slotMiss (slot : Fin 16384) (t : Nat)
  /-- RFM sends a long preamble of LPL_INTERVAL + 4 ms and a frame to a sleepy partner (R296). -/
  | longPreambleExchange (radio : Fin 2) (energy : Int) (t : Nat)
  /-- The rolling duty-cycle window again allows transmission on a held radio (R279). -/
  | dutyHoldRelease (radio : Fin 2) (t : Nat)
  /-- An issue task allocates a tag and sends the ready request of its port as a PLC, radio or relay transaction (R311). -/
  | issue (port : Fin 4) (plain : Apdu) (t : Nat)
  /-- A transaction's answer deadline expires on the TXN tick, and the tag enters RETRY_WAIT or the transaction completes
  NO_ANSWER (R314). -/
  | txnDeadline (tag : Fin 1024) (t : Nat)
  /-- A retry's release cycle is numbered and the request becomes ready again (R314). -/
  | retryRelease (t : Nat)
  /-- A tag's quarantine of Q seconds ends, the tag becomes FREE, and a new issue task may be posted (R307). -/
  | quarantineEnd (tag : Fin 1024) (t : Nat)
  /-- A schedule's trigger task gives release cycles to the meters of its groups (R317). -/
  | scheduleRun (t : Nat)
  /-- A task descriptor is posted to Coachman and accepted, held or failed by the descriptor reserve (R325). -/
  | taskPost (kind priority eclass exec : Nat) (coreMask : BitVec 12) (arg : BitVec 32) (t : Nat)
  /-- A running task completes and its executor falls idle (R324). -/
  | taskRetire (executor : Fin 16) (t : Nat)
  /-- Fuller places a record, or an estimate pair, in a region 8 sector buffer, or holds upstream at DIRTY_MAX or CRITICAL
  (R338). -/
  | fullerAccept (t : Nat)
  /-- FLUSH_MS after the first unprogrammed entry, a partly filled sector is programmed (R338). -/
  | flushTimer (t : Nat)
  /-- A page program completes, entries having been checked at assembly, and a block may close with its summary (R339). -/
  | pageProgram (bad : List (Nat × Nat)) (t : Nat)
  /-- A program fails and the block is retired, with a GC target handled under R347 (R346). -/
  | programFail (copy markFails : Bool) (t : Nat)
  /-- An erase fails and the block is retired (R346). -/
  | eraseFail (block : Nat) (markFails : Bool) (t : Nat)
  /-- A read completes with correction, refresh queueing or read retries, or as uncorrectable (R332). -/
  | sectorRead (lsa bits retries : Nat) (uncorrectable : Bool) (t : Nat)
  /-- Collection copies one batch of valid sectors into a destination page and moves their map entries (R344). -/
  | gcBatch (t : Nat)
  /-- A checkpoint's header sector is written after stream 8 up to READ_POS is programmed, and the slot becomes complete
  (R337). -/
  | checkpointComplete (legal : Bool) (t : Nat)
  /-- Every 24 h of operating time, read and erase counts are saved in stream 0 (R345). -/
  | counterSnapshot (t : Nat)
  /-- The rebuild ends, open blocks are closed early, and the context restore may proceed (R349). -/
  | rebuildDone (badSummaries : List Nat) (badPages : List (Nat × Nat)) (t : Nat)
  /-- A Herwyn port reaches block lock and sends HELLO (R361): so many consecutive blocks carried valid sync headers. -/
  | blockLock (port : Fin 4) (valid : Nat) (t : Nat)
  /-- A port loses block lock for 100 µs, becomes DOWN and retrains (R361): without lock since an AFE time. -/
  | lockLoss (port : Fin 4) (since : Nat) (t : Nat)
  /-- 60 s after isolation or failure, the port retrains (R361). -/
  | portRetrainTimer (port : Fin 4) (t : Nat)
  /-- A HELLO is received and answered with HELLO_ACK, or the port is isolated (R361). -/
  | hello (l : HwlHeader) (t : Nat)
  /-- A HELLO_ACK is received, its CMAC is verified and the link is UP, or the port is isolated (R361). -/
  | helloAck (l : HwlHeader) (t : Nat)
  /-- The node takes its coordinate from storage, a neighbour or ORIGIN after 2 s, its node ID is assigned and credits open
  (R362). -/
  | coordinateAssign (t : Nat)
  /-- Every 1 s, the node floods an ANNOUNCE (R364). -/
  | announceTimer (t : Nat)
  /-- An ANNOUNCE is received, membership and routes are updated, and the packet is forwarded (R364). -/
  | announce (l : HwlHeader) (t : Nat)
  /-- No ANNOUNCE has been heard from a node for 3 s, so it stops being a member and routes are recomputed (R364). -/
  | memberExpiry (node : NodeId) (t : Nat)
  /-- A PAIR is received, establishing pairing, MSEQ bases and rejoin, or answering or carrying an interlock query (R367). -/
  | pair (l : HwlHeader) (t : Nat)
  /-- The partner has not paired within 10 × PARTNER_TIMEOUT of ID assignment, so it is treated as lost (R367). -/
  | pairTimeout (t : Nat)
  /-- Every HEARTBEAT_MS, a HEARTBEAT is sent to the partner (R384). -/
  | heartbeatSend (t : Nat)
  /-- A HEARTBEAT from the partner is received, refreshing its liveness (R384). -/
  | heartbeat (l : HwlHeader) (t : Nat)
  /-- A LEAVE is received and the partner is declared lost at once (R384). -/
  | leave (l : HwlHeader) (t : Nat)
  /-- PARTNER_TIMEOUT ms pass without a packet from the partner, which is declared lost, with ownership claimed and mirror
  ranges taken over (R384). -/
  | partnerTimeout (t : Nat)
  /-- An MREC mirror-stream packet is delivered in MSEQ order to ingest source 9 (R369). -/
  | mrec (l : HwlHeader) (t : Nat)
  /-- An MEST is held for comparison with the mirror's own estimate (R371). -/
  | mest (l : HwlHeader) (t : Nat)
  /-- An MFEED is delivered to BAL and Fuller (R369). -/
  | mfeed (l : HwlHeader) (t : Nat)
  /-- An MJOB is delivered as a context operation into the meter's lane (R369). -/
  | mjob (l : HwlHeader) (gmn : Gmn) (op : LegalOp) (t : Nat)
  /-- An MCTX is delivered as a context operation into the meter's lane (R369). -/
  | mctx (l : HwlHeader) (job : JobBody) (t : Nat)
  /-- A CUT is delivered as a digest barrier into its lane (R375). -/
  | cut (l : HwlHeader) (t : Nat)
  /-- A part of an MSYNC arrives; with the last one the meter's whole mirrored state is applied (R374). -/
  | msync (l : HwlHeader) (t : Nat)
  /-- HANDBACK is delivered and the returning node becomes primary for its range (R386). -/
  | handback (l : HwlHeader) (t : Nat)
  /-- An MACK is received, freeing the mirror window and releasing held reports (R369). -/
  | mack (l : HwlHeader) (t : Nat)
  /-- An MNAK is received and the sender resends from the named MSEQ (R370); `spoilt` are the MSEQs whose record fails RCK when the sender
  reads it again. -/
  | mnak (l : HwlHeader) (spoilt : List (BitVec 32)) (t : Nat)
  /-- A gap in the mirror stream is not filled within MIRROR_GAP_MS, so an MNAK is sent (R369). -/
  | mirrorGapTimer (t : Nat)
  /-- A SYNC_REQ is received and answered with an MSYNC in the stream (R372). -/
  | syncReq (l : HwlHeader) (t : Nat)
  /-- Block digests are received and compared, and DIGEST_REQ is sent for the blocks that differ (R376). -/
  | digest (l : HwlHeader) (t : Nat)
  /-- A DIGEST_REQ is received and answered with the meter digests of the requested blocks (R376). -/
  | digestReq (l : HwlHeader) (t : Nat)
  /-- A DIGEST_RESULT names differing slots, which are marked MISMATCH and alarmed (R377). -/
  | digestResult (l : HwlHeader) (t : Nat)
  /-- A forwarded relay-bundle entry is received into ingest source 8 (R23). -/
  | fwdEntry (l : HwlHeader) (e : RelayEntry) (t : Nat)
  /-- The acting primary receives a legal job for sequencing, then tickets, commits and mirrors it (R373). -/
  | seqReq (l : HwlHeader) (w : Machine.SeqWork) (t : Nat)
  /-- The owner receives a policy action request and issues or refuses it (R383). -/
  | actionReq (l : HwlHeader) (t : Nat)
  /-- A JOB packet from a peer is taken as a job with the arriving port's rights (R390). -/
  | job (l : HwlHeader) (j : Job) (t : Nat)
  /-- A REPORT packet is received and passed to the host (R390). -/
  | report (l : HwlHeader) (r : Machine.Report) (t : Nat)
  /-- A signed RESET packet is checked and causes an FBC, or is discarded (R391). -/
  | resetPacket (l : HwlHeader) (j : Job) (t : Nat)
  /-- A CHAIN_DATA block is written at its offset in region 13 and acknowledged (R388). -/
  | chainData (l : HwlHeader) (head : NodeId) (writeFails : Bool) (t : Nat)
  /-- A CHAIN_ACK is received and the sender continues from the expected offset (R388). -/
  | chainAck (l : HwlHeader) (t : Nat)
  /-- A CHAIN_RESULT is received and reported by the head (R389). -/
  | chainResult (l : HwlHeader) (t : Nat)
  /-- A successor sends no CHAIN_ACK for 5 s and is skipped (R389). -/
  | chainAckTimeout (t : Nat)
  /-- A CREDIT link word returns credit for a VC and class (R357). -/
  | credit (port : Fin 4) (vc : Fin 4) (cls : Fin 3) (units : Nat) (t : Nat)
  /-- An ACK link word frees replay-buffer entries (R359). -/
  | linkWordAck (port : Fin 4) (lseq : BitVec 16) (t : Nat)
  /-- A NAK link word makes the sender replay from the named packet, or retrain at the eighth NAK (R359). -/
  | linkWordNak (port : Fin 4) (lseq : BitVec 16) (t : Nat)
  /-- A stable change of ACT_OWN_IN drives arbitration or an interlock fault (R379). -/
  | actOwnInChange (high : Bool) (t : Nat)
  /-- ARB_WINDOW passes with ACT_OWN_IN low and the claiming node becomes owner (R379). -/
  | arbWindowExpiry (t : Nat)
  /-- 10 × ARB_WINDOW after a lost arbitration, the node may claim again (R379). -/
  | arbBackoffExpiry (t : Nat)
  /-- An unanswered interlock query is sent again after 10 ms, then every 1 s (R382). -/
  | queryRetry (t : Nat)
  /-- A host write to CQ_TAIL_n makes new jobs available, or is ignored with CQ_ERROR (R397). -/
  | cqTailWrite (n : Fin 4) (m : Master) (v : Word) (t : Nat)
  /-- Setting RQ_CTRL_n.ENABLE starts report queue n with its base and size (R400). -/
  | rqEnable (n : Fin 4) (m : Master) (sizeLog2 : Fin 16) (t : Nat)
  /-- Clearing ENABLE stops the queue after the report in progress and returns its indices to zero (R400). -/
  | rqDisable (n : Fin 4) (m : Master) (sizeLog2 : Fin 16) (t : Nat)
  /-- The host writes RQ_HEAD_n, freeing slots so that waiting reports may be written (R401). -/
  | rqHeadWrite (n : Fin 4) (m : Master) (v : Word) (t : Nat)
  /-- A report is written into its queue, data slots first and descriptor last, when the ring has room (R401). -/
  | reportIssue (t : Nat)
  /-- COAL_US after the first pending report, the queue's MSI-X vector fires (R400). -/
  | coalesceTimer (n : Fin 4) (t : Nat)
  /-- A report still waits for queue space after RQ_HOLD_MS and is discarded, and its issuer proceeds (R402). -/
  | reportHoldExpiry (t : Nat)
  /-- PCIE_PERST_N holds the link and queues in reset, and its rise zeroes the queue registers (R540). -/
  | pciePerstN (high : Bool) (speed width : Nat) (t : Nat)
  /-- A frame received on an Ethernet port passes the filters and goes to PTP or the message layer, or is discarded (R415).
  -/
  | ethernetFrame (port : Fin 2) (f : EthFrame) (t : Nat)
  /-- ETH_RTO passes without acknowledgement, so the message is resent with a doubled wait, or the peer is declared down
  after 8 resends (R420). -/
  | messageResend (port : Fin 2) (peer : Fin 32) (t : Nat)
  /-- Within 1 ms of an unacknowledged message, a standalone ACK is sent (R420). -/
  | standaloneAck (port : Fin 2) (peer : Fin 32) (t : Nat)
  /-- An unacknowledged outbound bundle is resent every 2 s (R421). -/
  | bundleResend (t : Nat)
  /-- An 802.1Qbv gate-list entry or cycle boundary is reached and the gates change (R418). -/
  | gateChange (port : Fin 2) (t : Nat)
  /-- The side-band IDENTIFY command returns identity and firmware versions (R423). -/
  | identify (r : SbReq) (t : Nat)
  /-- The side-band STATUS command returns mode, boot state, temperatures and supply levels (R423). -/
  | status (r : SbReq) (t : Nat)
  /-- The side-band AON_COUNTERS command returns operating time, power cycles and the cycle shadow (R423). -/
  | aonCounters (r : SbReq) (t : Nat)
  /-- The side-band TIME command returns AON wall time and its flags (R423). -/
  | time (r : SbReq) (t : Nat)
  /-- The side-band READ_LOG command returns Waybill records, or a count as a probe (R523). -/
  | readLog (r : SbReq) (log first count : Nat) (t : Nat)
  /-- The side-band WAKE command leaves STANDBY, and is a no-op in other modes (R466). -/
  | sidebandWake (r : SbReq) (e : StartEnv) (t : Nat)
  /-- The signed side-band RESET command takes an SBC after R350, and retries within 10 s are answered from the cache
  (R423). -/
  | sidebandReset (r : SbReq) (j : Job) (t : Nat)
  /-- The side-band JOB command carries a job whose reports return as SB_RSP (R423). -/
  | sidebandJob (r : SbReq) (h : JobHdr) (b : JobBody) (t : Nat)
  /-- Job 0x01 queues a READ transaction for a meter and reports after the answering reading (R409). -/
  | readMeter (h : JobHdr) (gmn : Gmn) (obis : BitVec 48) (priority medium : Nat) (t : Nat)
  /-- Job 0x02 starts a cycle-synchronous snapshot of a group with freeze beacons (R213). -/
  | snapshotGroup (h : JobHdr) (group all lead : Nat) (gmns : List Gmn) (t : Nat)
  /-- Job 0x03 returns up to 256 register words, or probes the access right (R451). -/
  | registerRead (h : JobHdr) (offset words : Nat) (t : Nat)
  /-- Job 0x04 returns a meter's context, legal slot or closed periods (R408). -/
  | meterStateRead (h : JobHdr) (gmn : Gmn) (parts : BitVec 8) (t : Nat)
  /-- Job 0x05 returns a signed quote of the measurements and device state (R444). -/
  | attest (h : JobHdr) (nonce : BitVec 256) (t : Nat)
  /-- Job 0x06 completes an outstanding transaction CANCELLED, or probes the tag (R320). -/
  | cancel (h : JobHdr) (tag : BitVec 16) (t : Nat)
  /-- Job 0x07 sets, replaces or frees a trigger-table entry (R326). -/
  | trigger (h : JobHdr) (entry source due period : Nat) (template : TriggerTemplate) (t : Nat)
  /-- Job 0x08 replaces a TPULSE schedule (R98). -/
  | pulse (h : JobHdr) (output startSec startNs period width : Nat) (t : Nat)
  /-- Job 0x09 supplies one offset sample from the host's wall time (R83). -/
  | hostTime (h : JobHdr) (sec ns : Nat) (t : Nat)
  /-- Job 0x0A sets a meter's group, registered phase and export flag as a context operation (R202). -/
  | balanceMembership (h : JobHdr) (gmn : Gmn) (group regPhase exportAllowed : Nat) (t : Nat)
  /-- Job 0x0B submits a relay bundle from the host into ingest source 7 (R134). -/
  | bundleSubmit (h : JobHdr) (b : RelayBundle) (t : Nat)
  /-- Job 0x10 checks a signed tariff set and, after Fuller accepts it, commits it into its tariff slot (R180). -/
  | pushTariffSet (h : JobHdr) (slot : Nat) (set : TariffSet) (t : Nat)
  /-- Job 0x11 adds a signed amount to a meter's credit through Troika, or probes it (R187). -/
  | creditChange (h : JobHdr) (gmn : Gmn) (amount : Int) (t : Nat)
  /-- Job 0x12 commits SUPPLY 1 and commands the meter to open its supply (R187). -/
  | disconnect (h : JobHdr) (gmn : Gmn) (t : Nat)
  /-- Job 0x13 commits SUPPLY 2 unless credit is exhausted without FORCE (R187). -/
  | reconnect (h : JobHdr) (gmn : Gmn) (force : Nat) (t : Nat)
  /-- Job 0x14 unfreezes a meter by replaying or discarding its declined records (R191). -/
  | legalRelease (h : JobHdr) (gmn : Gmn) (mode : Nat) (t : Nat)
  /-- Job 0x15 unwraps and installs a meter's keys and clears its state as a context operation (R438). -/
  | enrolMeter (h : JobHdr) (a : EnrolArgs) (t : Nat)
  /-- Job 0x16 removes a meter, completes its transactions REMOVED and empties its context (R320). -/
  | removeMeter (h : JobHdr) (gmn : Gmn) (t : Nat)
  /-- Job 0x17 installs new wrapped keys and resets RX_IC and WINDOW (R116). -/
  | keyChange (h : JobHdr) (gmn : Gmn) (keySlot : Nat) (ek ak : BitVec 192) (t : Nat)
  /-- Job 0x18 sets a meter's RX_IC and TX_IC (R408). -/
  | counterReset (h : JobHdr) (gmn : Gmn) (rxIc txIc : BitVec 32) (t : Nat)
  /-- Job 0x19 names the true node, which sends MSYNCs to clear MISMATCH, or counts the meters marked as a probe (R378). -/
  | designate (h : JobHdr) (range : Nat) (trueNode : NodeId) (slots : Option (List Nat)) (t : Nat)
  /-- Job 0x1A makes a node claim ownership and clears INTERLOCK_FAULT (R380). -/
  | claimOwnership (h : JobHdr) (t : Nat)
  /-- Job 0x1B makes the owner drive ACT_OWN_OUT low (R380). -/
  | releaseOwnership (h : JobHdr) (t : Nat)
  /-- Job 0x1C clears the stored coordinate and takes an FBC (R363). -/
  | forgetCoordinate (h : JobHdr) (t : Nat)
  /-- Job 0x20 opens a step permit, or probes the offset (R87). -/
  | wallTimeStep (h : JobHdr) (window maxStep : Nat) (t : Nat)
  /-- Job 0x21 erases a Waybill log and writes the clear record as its first record (R519). -/
  | clearLog (h : JobHdr) (log : Nat) (t : Nat)
  /-- Job 0x22 opens or extends an expert session, or reports the time left as a probe (R58). -/
  | openExpertSession (h : JobHdr) (duration : Nat) (t : Nat)
  /-- Job 0x23 stores a debug token in AON SRAM, or probes the held one (R441). -/
  | debugToken (h : JobHdr) (token : List Byte) (t : Nat)
  /-- Job 0x24 opens a delivery or adds a block at the next expected offset, and verifies and stages the bundle when
  complete (R486). -/
  | updateDelivery (h : JobHdr) (imageTag : BitVec 32) (offset total part : Nat) (block : List Byte) (writeFails : Bool) (t : Nat)
  /-- Job 0x25 starts, aborts or probes a meter firmware campaign (R502). -/
  | campaignStart (h : JobHdr) (a : CampaignArgs) (t : Nat)
  /-- Job 0x26 takes an SWF, or an SWP of the application cluster alone (R474). -/
  | reset (h : JobHdr) (node : NodeId) (cls : Nat) (t : Nat)
  /-- Job 0x27 in RECOVERY checks, programs and verifies a new boot header (R38). -/
  | bootHeaderWrite (h : JobHdr) (b : BootHeader) (writeFails : Bool) (t : Nat)
  /-- A delivery receives no block for DELIVERY_IDLE seconds and is abandoned (R487). -/
  | deliveryIdleTimeout (t : Nat)
  /-- The device runs past the probation DEADLINE unconfirmed, so MGC takes an SWF and the fallback runs (R497). -/
  | probationDeadline (t : Nat)
  /-- The health conditions and the soak are met, floors are raised and the probation ends confirmed (R499). -/
  | healthConfirmation (t : Nat)
  /-- A campaign-round task sends announcements, a block pass or a repair round (R505). -/
  | campaignRound (campaign : Fin 4) (t : Nat)
  /-- After CAMPAIGN_BLOCK_GAP, the next campaign block is broadcast (R505). -/
  | campaignBlock (campaign : Fin 4) (t : Nat)
  /-- ROUND_GAP after a pass or round, the status objects of PENDING meters are read (R505). -/
  | statusRound (campaign : Fin 4) (t : Nat)
  /-- A write to KEY_DESTROY invalidates a slot and its descendants (R434). -/
  | keyDestroy (m : Master) (v : Word) (t : Nat)
  /-- Once the generation table is written, invalidated slots are zeroed and cache ways under them are purged (R435). -/
  | keyPurge (t : Nat)
  /-- A write to word 6 of a security or operations event port submits a record, or is refused (R515). -/
  | eventPortSubmit (port : Fin 2) (m : Master) (v : Word) (t : Nat)
  /-- LGC's write to word 6 of the legal port submits a legal-log record (R515). -/
  | legalPortSubmit (m : Master) (v : Word) (t : Nat)
  /-- Within 50 ms of acceptance, MGC programs buffered records to NOR and reads them back, remapping torn sectors (R517). -/
  | bufferProgram (bad erased : List Bool) (t : Nat)
  /-- A read of the low word of a 64-bit pair latches the high word for the next read by the same master (R12); any read or instruction
  fetch of the device's map (R25). -/
  | lowWordRead (sp : Space) (m : Master) (fetch : Bool) (a size : Nat) (t : Nat)
  /-- A write to a register without a row of its own sets its writable fields or is counted as ignored, under the access
  codes and access tables (R10); any write to the device's map (R25). -/
  | registerWrite (sp : Space) (m : Master) (a size : Nat) (v : Word) (t : Nat)
  /-- VDD_AON falls below 0.70 V, so AON SRAM and the 32.768 kHz oscillator move onto VBAT and ACT_OWN_OUT goes
  high-impedance (R527). -/
  | aonSupplyLoss (t : Nat)
  /-- An Ethernet port's link goes up or down, with ETHp_LOS forcing it down, and LINK_CHANGE is set (R541). -/
  | ethLinkChange (port : Fin 2) (up los : Bool) (t : Nat)
  /-- While unacknowledged Herwyn packets are held, a port sends an ACK link word at least every 2 µs (R359). -/
  | linkAckTimer (port : Fin 4) (t : Nat)
  /-- While any mirror packet is unacknowledged, the receiver sends an MACK at least every 20 µs (R369). -/
  | mirrorAckTimer (t : Nat)
  /-- A NAND block erase completes successfully, its erase count rises and the block becomes free (R344). -/
  | blockErase (block : Nat) (t : Nat)
  /-- A PLC receive chain detects a preamble, freezes its AGC gain and counts as inside a frame for carrier sense (R246). -/
  | preambleDetection (chain : Fin 3) (first : Nat) (announced : Option Nat) (t : Nat)
  deriving DecidableEq, Repr

end Sys2Proof
end

