-- ==== Sys2Proof/Decode.lean ====
section
/-!
DEFINITION. Commands spelled by words.  The device is a block: no row of spec/opcode_table.json gives bits, so no word spells a command.
-/

namespace Sys2Proof

/-- The command that a word of `nbits` bits spells by the table's bits: none, since the table gives none. -/
def decodeTableWord (nbits w : Nat) : Option Instr :=
  match nbits, w with
  | _, _ => none

end Sys2Proof
end

