-- ==== Sys2Proof/Machine/Crc.lean ====
section
/-!
DEFINITION. Bytes of little-endian fields (R6) and the checks the spec names: CRC-32C (R110), the CRC-32 of R253 and
its use by the Ethernet group filter (R415).
-/

namespace Sys2Proof.Machine

/-- The `n` little-endian bytes of a field value (R6). -/
def leBytes : Nat → Nat → List Byte
  | 0, _ => []
  | n + 1, v => BitVec.ofNat 8 v :: leBytes n (v / 256)

/-- The value of little-endian bytes (R6). -/
def leNat : List Byte → Nat
  | [] => 0
  | b :: t => b.toNat + 256 * leNat t

/-- Two's-complement image of an integer in a field of `n` bytes. -/
def leInt (n : Nat) (v : Int) : List Byte := leBytes n (v % (2 ^ (8 * n) : Nat)).toNat

/-- The signed value of a field of `w` bits. -/
def signedOf (w v : Nat) : Int := if v % 2 ^ w < 2 ^ (w - 1) then ((v % 2 ^ w : Nat) : Int) else ((v % 2 ^ w : Nat) : Int) - (2 ^ w : Nat)

/-- `n` bytes at offset `o`, as a number. -/
def fieldAt (v : List Byte) (o n : Nat) : Nat := leNat ((v.drop o).take n)

/-- `n` bytes at offset `o`, as a signed number. -/
def signedAt (v : List Byte) (o n : Nat) : Int := signedOf (8 * n) (fieldAt v o n)

/-- `n` bytes from offset `o` on. -/
def partOf (v : List Byte) (o n : Nat) : List Byte := (v.drop o).take n

/-- Bytes with others put in at an offset. -/
def putAt (v : List Byte) (o : Nat) (x : List Byte) : List Byte := v.take o ++ x ++ v.drop (o + x.length)

/-- The bytes from one offset to another are all zero. -/
def zeroBetween (v : List Byte) (a b : Nat) : Bool := (partOf v a (b - a)).all fun x => decide (x = 0)

/-- The first multiple of 8 at or after a position. -/
def align8 (n : Nat) : Nat := (n + 7) / 8 * 8

/-- `n` steps of a reflected CRC over the register. -/
def crcSteps (poly : Word) : Nat → Word → Word
  | 0, r => r
  | n + 1, r => crcSteps poly n (if r.getLsbD 0 then (r >>> 1) ^^^ poly else r >>> 1)

/-- A reflected 32-bit CRC, initial value and final exclusive-or all ones. -/
def crc32Refl (poly : Word) (bytes : List Byte) : Word :=
  (bytes.foldl (fun r b => crcSteps poly 8 (r ^^^ b.setWidth 32)) (BitVec.allOnes 32)) ^^^ BitVec.allOnes 32

/-- CRC-32C, the record check of R110. -/
def crc32c (bytes : List Byte) : Word := crc32Refl 0x82F63B78#32 bytes

/-- `n` steps of CRC-16 over the register. -/
def crc16Steps : Nat → BitVec 16 → BitVec 16
  | 0, r => r
  | n + 1, r => crc16Steps n (if r.getLsbD 15 then (r <<< 1) ^^^ 0x1021#16 else r <<< 1)

/-- The CRC-16 of R253: polynomial 0x1021, no reflection, initial value 0xFFFF, no final exclusive-or. -/
def crc16 (bytes : List Byte) : BitVec 16 := bytes.foldl (fun r (b : Byte) => crc16Steps 8 (r ^^^ ((b.setWidth 16 : BitVec 16) <<< 8))) 0xFFFF#16

/-- The IEEE 802.3 CRC-32 of R253. -/
def crc32 (bytes : List Byte) : Word := crc32Refl 0xEDB88320#32 bytes

end Sys2Proof.Machine
end

