-- ==== Sys2Proof/Machine/Sha512.lean ====
section
/-!
DEFINITION. SHA-512 (FIPS 180-4), which the spec uses for every digest and measurement (R48, R49, R60, R443), over lists of bytes.
-/

namespace Sys2Proof.Machine

/-- A 64-bit word. -/
def w64 (n : Nat) : Nat := n % 2 ^ 64

/-- Rotate a 64-bit word right. -/
def rotr64 (n x : Nat) : Nat := (x >>> n) ||| w64 (x <<< (64 - n))

/-- Round constants 0 to 19. -/
def shaK0 : List Nat :=
  [0x428A2F98D728AE22, 0x7137449123EF65CD, 0xB5C0FBCFEC4D3B2F, 0xE9B5DBA58189DBBC, 0x3956C25BF348B538,
   0x59F111F1B605D019, 0x923F82A4AF194F9B, 0xAB1C5ED5DA6D8118, 0xD807AA98A3030242, 0x12835B0145706FBE,
   0x243185BE4EE4B28C, 0x550C7DC3D5FFB4E2, 0x72BE5D74F27B896F, 0x80DEB1FE3B1696B1, 0x9BDC06A725C71235,
   0xC19BF174CF692694, 0xE49B69C19EF14AD2, 0xEFBE4786384F25E3, 0x0FC19DC68B8CD5B5, 0x240CA1CC77AC9C65]

/-- Round constants 20 to 39. -/
def shaK1 : List Nat :=
  [0x2DE92C6F592B0275, 0x4A7484AA6EA6E483, 0x5CB0A9DCBD41FBD4, 0x76F988DA831153B5, 0x983E5152EE66DFAB,
   0xA831C66D2DB43210, 0xB00327C898FB213F, 0xBF597FC7BEEF0EE4, 0xC6E00BF33DA88FC2, 0xD5A79147930AA725,
   0x06CA6351E003826F, 0x142929670A0E6E70, 0x27B70A8546D22FFC, 0x2E1B21385C26C926, 0x4D2C6DFC5AC42AED,
   0x53380D139D95B3DF, 0x650A73548BAF63DE, 0x766A0ABB3C77B2A8, 0x81C2C92E47EDAEE6, 0x92722C851482353B]

/-- Round constants 40 to 59. -/
def shaK2 : List Nat :=
  [0xA2BFE8A14CF10364, 0xA81A664BBC423001, 0xC24B8B70D0F89791, 0xC76C51A30654BE30, 0xD192E819D6EF5218,
   0xD69906245565A910, 0xF40E35855771202A, 0x106AA07032BBD1B8, 0x19A4C116B8D2D0C8, 0x1E376C085141AB53,
   0x2748774CDF8EEB99, 0x34B0BCB5E19B48A8, 0x391C0CB3C5C95A63, 0x4ED8AA4AE3418ACB, 0x5B9CCA4F7763E373,
   0x682E6FF3D6B2B8A3, 0x748F82EE5DEFB2FC, 0x78A5636F43172F60, 0x84C87814A1F0AB72, 0x8CC702081A6439EC]

/-- Round constants 60 to 79. -/
def shaK3 : List Nat :=
  [0x90BEFFFA23631E28, 0xA4506CEBDE82BDE9, 0xBEF9A3F7B2C67915, 0xC67178F2E372532B, 0xCA273ECEEA26619C,
   0xD186B8C721C0C207, 0xEADA7DD6CDE0EB1E, 0xF57D4F7FEE6ED178, 0x06F067AA72176FBA, 0x0A637DC5A2C898A6,
   0x113F9804BEF90DAE, 0x1B710B35131C471B, 0x28DB77F523047D84, 0x32CAAB7B40C72493, 0x3C9EBE0A15C9BEBC,
   0x431D67C49C100D4C, 0x4CC5D4BECB3E42B6, 0x597F299CFC657E2A, 0x5FCB6FAB3AD6FAEC, 0x6C44198C4A475817]

/-- The eighty round constants. -/
def shaK : List Nat := shaK0 ++ shaK1 ++ shaK2 ++ shaK3

/-- The initial hash value. -/
def shaInit : List Nat :=
  [0x6A09E667F3BCC908, 0xBB67AE8584CAA73B, 0x3C6EF372FE94F82B, 0xA54FF53A5F1D36F1,
   0x510E527FADE682D1, 0x9B05688C2B3E6C1F, 0x1F83D9ABFB41BD6B, 0x5BE0CD19137E2179]

/-- Bytes as a number, the first byte highest. -/
def beNat (bs : List Byte) : Nat := bs.foldl (fun a b => 256 * a + b.toNat) 0

/-- The `n` bytes of a number, the highest first. -/
def beBytes : Nat → Nat → List Byte
  | 0, _ => []
  | n + 1, x => BitVec.ofNat 8 (x / 256 ^ n) :: beBytes n x

/-- The next word of a message schedule, from the sixteen before it, the latest first. -/
def shaNext (w : List Nat) : Nat :=
  let a := w.getD 1 0
  let b := w.getD 14 0
  w64 ((rotr64 19 a ^^^ rotr64 61 a ^^^ (a >>> 6)) + w.getD 6 0 + (rotr64 1 b ^^^ rotr64 8 b ^^^ (b >>> 7)) + w.getD 15 0)

/-- Round words from the first sixteen, which are listed in order, then computed; `win` holds the last sixteen, the latest first. -/
def shaSchedule : Nat → List Nat → List Nat
  | 0, _ => []
  | n + 1, win => let x := shaNext win; x :: shaSchedule n (x :: win.take 15)

/-- The eight working variables. -/
structure ShaVars where
  a : Nat
  b : Nat
  c : Nat
  d : Nat
  e : Nat
  f : Nat
  g : Nat
  h : Nat
  deriving DecidableEq, Repr

/-- One round. -/
def shaRound (v : ShaVars) (kw : Nat × Nat) : ShaVars :=
  let t1 := v.h + (rotr64 14 v.e ^^^ rotr64 18 v.e ^^^ rotr64 41 v.e) + ((v.e &&& v.f) ^^^ ((2 ^ 64 - 1 - v.e) &&& v.g)) + kw.1 + kw.2
  let t2 := (rotr64 28 v.a ^^^ rotr64 34 v.a ^^^ rotr64 39 v.a) + ((v.a &&& v.b) ^^^ (v.a &&& v.c) ^^^ (v.b &&& v.c))
  ⟨w64 (t1 + t2), v.a, v.b, v.c, w64 (v.d + t1), v.e, v.f, v.g⟩

/-- One block of sixteen words. -/
def shaBlock (h : List Nat) (m : List Nat) : List Nat :=
  let v0 : ShaVars :=
    ⟨h.getD 0 0, h.getD 1 0, h.getD 2 0, h.getD 3 0, h.getD 4 0, h.getD 5 0, h.getD 6 0, h.getD 7 0⟩
  let v := (shaK.zip (m ++ shaSchedule 64 m.reverse)).foldl shaRound v0
  (h.zip [v.a, v.b, v.c, v.d, v.e, v.f, v.g, v.h]).map fun p => w64 (p.1 + p.2)

/-- The message with its padding: a one bit, zeros, and the length in bits in sixteen bytes. -/
def shaPadded (bs : List Byte) : List Byte :=
  bs ++ 0x80#8 :: List.replicate ((239 - bs.length % 128) % 128) 0 ++ beBytes 16 (8 * bs.length)

/-- The words of a list of bytes, eight bytes each. -/
def shaWords : Nat → List Byte → List Nat
  | 0, _ => []
  | n + 1, bs => beNat (bs.take 8) :: shaWords n (bs.drop 8)

/-- Take in blocks of 128 bytes. -/
def shaBlocks : Nat → List Nat → List Byte → List Nat
  | 0, h, _ => h
  | n + 1, h, bs => shaBlocks n (shaBlock h (shaWords 16 bs)) (bs.drop 128)

/-- SHA-512 as 64 bytes. -/
def sha512Bytes (bs : List Byte) : List Byte :=
  let p := shaPadded bs
  (shaBlocks (p.length / 128) shaInit p).flatMap (beBytes 8)

/-- SHA-512 as a digest, its byte 0 lowest. -/
def sha512 (bs : List Byte) : Digest := BitVec.ofNat 512 ((sha512Bytes bs).reverse.foldl (fun a b => 256 * a + b.toNat) 0)

/-- The 64 bytes of a digest. -/
def digestBytes (d : Digest) : List Byte := (beBytes 64 d.toNat).reverse

end Sys2Proof.Machine
end

