-- ==== Sys2Proof/Machine/Aes.lean ====
section
/-!
DEFINITION. AES (FIPS 197) and what the spec builds on it: AES-GCM (R119, R432), AES-CMAC (R134, R364, R418) and AES key wrap
(RFC 3394; R114, R438, R439).  Blocks and keys are lists of sixteen or thirty-two numbers below 256.
-/

namespace Sys2Proof.Machine

/-- The S-box, thirty-two bytes a row, the lowest byte first. -/
def aesSRows : List Nat :=
  [0xC072A49CAFA2D4ADF04759FA7DC982CA76ABD7FE2B670130C56F6BF27B777C63,
   0x75B227EBE28012079A059618C323C7041531D871F1E5A534CCF73F362693FDB7,
   0xCF584C4A39BECB6A5BB1FC20ED00D153842FE329B3D63B52A05A6E1B1A2C8309,
   0xD2F3FF1021DAB6BCF5389D928F40A351A89F3C507F02F94585334D43FBAAEFD0,
   0xDB0B5EDE14B8EE4688902A22DC4F816073195D643D7EA7C41744975FEC130CCD,
   0x08AE7A65EAF4566CA94ED58D6D37C8E779E4959162ACD3C25C2406490A3A32E0,
   0x9E1DC186B95735610EF6034866B53E708A8BBD4B1F74DDE8C6B4A61C2E2578BA,
   0x16BB54B00F2D99416842E6BF0D89A18CDF2855CEE9871E9B948ED9691198F8E1]

/-- The inverse S-box, in the same form. -/
def aesInvRows : List Nat :=
  [0xCBE9DEC444438E3487FF2F9B8239E37CFBD7F3819EA340BF38A53630D56A0952,
   0x25D18B6D49A25B76B224D92866A12E084EC3FA420B954CEE3D23C2A632947B54,
   0x849D8DA75746155EDAB9EDFD5048706C92B6655DCC5CA4D41698688664F6F872,
   0x6B8A130103BDAFC1020F3FCA8F1E2CD00645B3B80558E4F70AD3BC8C00ABD890,
   0x6EDF751CE837F9E28535ADE72274AC9673E6B4F0CECFF297EADC674F4111913A,
   0xF45ACD78FEC0DB9A2079D2C64B3E56FC1BBE18AA0E62B76F89C5291D711AF147,
   0xEF9CC9939F7AE52D0D4AB519A97F51605FEC8027591012B131C7078833A8DD1F,
   0x7D0C2155631469E126D677BA7E042B17619953833CBBEBC8B0F52AAE4D3BE0A0]

/-- A byte of a table of rows. -/
def aesLook (t : List Nat) (x : Nat) : Nat := (t.getD (x / 32) 0) >>> (8 * (x % 32)) % 256

/-- SubBytes of one byte. -/
def aesSub (x : Nat) : Nat := aesLook aesSRows x

/-- Multiply by x in GF(2^8). -/
def aesDouble (x : Nat) : Nat := if x < 128 then 2 * x else (2 * x - 256) ^^^ 0x1B

/-- Exclusive-or of two lists of numbers. -/
def xorList (a b : List Nat) : List Nat := List.zipWith (fun x y => x ^^^ y) a b

/-- The next word of the key schedule: `i` its number, `nk` words of key, `w` the words so far, the latest first. -/
def aesNextWord (nk i : Nat) (w : List (List Nat)) : List Nat :=
  let p := w.headD []
  let t :=
    if i % nk = 0 then
      xorList ((p.drop 1 ++ p.take 1).map aesSub) [(List.range (i / nk - 1)).foldl (fun a _ => aesDouble a) 1, 0, 0, 0]
    else if nk = 8 ∧ i % nk = 4 then p.map aesSub else p
  xorList (w.getD (nk - 1) []) t

/-- `n` further words of the key schedule. -/
def aesExpand (nk : Nat) : Nat → Nat → List (List Nat) → List (List Nat)
  | 0, _, w => w
  | n + 1, i, w => aesExpand nk n (i + 1) (aesNextWord nk i w :: w)

/-- A list in groups of `k`, `n` of them. -/
def groupsOf (k : Nat) : Nat → List Nat → List (List Nat)
  | 0, _ => []
  | n + 1, l => l.take k :: groupsOf k n (l.drop k)

/-- The round keys of a key of 16 or 32 bytes. -/
def aesRoundKeys (key : List Nat) : List (List Nat) :=
  let nk := key.length / 4
  let w := aesExpand nk (4 * (nk + 7) - nk) nk (groupsOf 4 nk key).reverse
  groupsOf 16 (nk + 7) w.reverse.flatten

/-- ShiftRows. -/
def aesShift (s : List Nat) : List Nat := (List.range 16).map fun i => s.getD ((i + 4 * (i % 4)) % 16) 0

/-- InvShiftRows. -/
def aesUnshift (s : List Nat) : List Nat := (List.range 16).map fun i => s.getD ((i + 12 * (i % 4)) % 16) 0

/-- MixColumns of one column. -/
def aesMixCol (a b c d : Nat) : List Nat :=
  let t := a ^^^ b ^^^ c ^^^ d
  [a ^^^ t ^^^ aesDouble (a ^^^ b), b ^^^ t ^^^ aesDouble (b ^^^ c), c ^^^ t ^^^ aesDouble (c ^^^ d), d ^^^ t ^^^ aesDouble (d ^^^ a)]

/-- MixColumns. -/
def aesMix : List Nat → List Nat
  | a :: b :: c :: d :: t => aesMixCol a b c d ++ aesMix t
  | _ => []

/-- InvMixColumns: a correction of each column, then MixColumns. -/
def aesUnmixPre : List Nat → List Nat
  | a :: b :: c :: d :: t =>
    let u := aesDouble (aesDouble (a ^^^ c))
    let v := aesDouble (aesDouble (b ^^^ d))
    (a ^^^ u) :: (b ^^^ v) :: (c ^^^ u) :: (d ^^^ v) :: aesUnmixPre t
  | _ => []

/-- The rounds of the cipher but the first key addition; the last round has no MixColumns. -/
def aesRounds : List (List Nat) → List Nat → List Nat
  | [], s => s
  | [k], s => xorList (aesShift (s.map aesSub)) k
  | k :: ks, s => aesRounds ks (xorList (aesMix (aesShift (s.map aesSub))) k)

/-- AES encryption of a block under expanded keys. -/
def aesEnc (keys : List (List Nat)) (b : List Nat) : List Nat := aesRounds keys.tail (xorList b (keys.headD []))

/-- The rounds of the inverse cipher, round keys from the last but one to the first. -/
def aesInvRounds : List (List Nat) → List Nat → List Nat
  | [], s => s
  | [k], s => xorList ((aesUnshift s).map (aesLook aesInvRows)) k
  | k :: ks, s => aesInvRounds ks (aesMix (aesUnmixPre (xorList ((aesUnshift s).map (aesLook aesInvRows)) k)))

/-- AES decryption of a block under expanded keys. -/
def aesDec (keys : List (List Nat)) (b : List Nat) : List Nat :=
  let ks := keys.reverse
  aesInvRounds ks.tail (xorList b (ks.headD []))

/-! ## Bytes and blocks -/

/-- Bytes as numbers. -/
def natsOf (bs : List Byte) : List Nat := bs.map BitVec.toNat

/-- Numbers as bytes. -/
def bytesOf (l : List Nat) : List Byte := l.map (BitVec.ofNat 8)

/-- Numbers below 256 as one number, the first highest. -/
def beJoin (l : List Nat) : Nat := l.foldl (fun a b => 256 * a + b) 0

/-- The `n` bytes of a number as numbers, the highest first. -/
def beSplit : Nat → Nat → List Nat
  | 0, _ => []
  | n + 1, x => x / 256 ^ n % 256 :: beSplit n x

/-! ## AES key wrap (RFC 3394) -/

/-- The integrity check value. -/
def kwIv : List Nat := List.replicate 8 0xA6

/-- One unwrapping step with counter `t` on register `i`. -/
def kwUnstep (keys : List (List Nat)) (st : List Nat × List (List Nat)) (t : Nat × Nat) : List Nat × List (List Nat) :=
  let b := aesDec keys (xorList st.1 (beSplit 8 t.1) ++ st.2.getD t.2 [])
  (b.take 8, st.2.set t.2 (b.drop 8))

/-- Unwrap a key under a key-encrypting key; `none` where the integrity check fails. -/
def kwUnwrap (kek wrapped : List Byte) : Option (List Byte) :=
  let n := wrapped.length / 8 - 1
  let g := groupsOf 8 (n + 1) (natsOf wrapped)
  let steps := ((List.range 6).flatMap fun j => (List.range n).map fun i => (n * j + i + 1, i)).reverse
  let r := steps.foldl (kwUnstep (aesRoundKeys (natsOf kek))) (g.headD [], g.tail)
  if r.1 = kwIv then some (bytesOf r.2.flatten) else none

/-- One wrapping step with counter `t` on register `i`. -/
def kwStep (keys : List (List Nat)) (st : List Nat × List (List Nat)) (t : Nat × Nat) : List Nat × List (List Nat) :=
  let b := aesEnc keys (st.1 ++ st.2.getD t.2 [])
  (xorList (b.take 8) (beSplit 8 t.1), st.2.set t.2 (b.drop 8))

/-- Wrap a key under a key-encrypting key. -/
def kwWrap (kek plain : List Byte) : List Byte :=
  let n := plain.length / 8
  let steps := (List.range 6).flatMap fun j => (List.range n).map fun i => (n * j + i + 1, i)
  let r := steps.foldl (kwStep (aesRoundKeys (natsOf kek))) (kwIv, groupsOf 8 n (natsOf plain))
  bytesOf (r.1 ++ r.2.flatten)

/-! ## AES-GCM -/

/-- Multiplication by H in GHASH's field: `n` bits of `x` remain, the highest first; `v` is H shifted so far, `z` the sum. -/
def gcmMul (x : Nat) : Nat → Nat → Nat → Nat
  | 0, _, z => z
  | n + 1, v, z =>
    gcmMul x n (if v % 2 = 1 then (v / 2) ^^^ (0xE1 * 2 ^ 120) else v / 2) (if x / 2 ^ n % 2 = 1 then z ^^^ v else z)

/-- Bytes in blocks of sixteen, the last padded with zeros, as numbers. -/
def gcmBlocks (bs : List Byte) : List Nat :=
  let n := (bs.length + 15) / 16
  (groupsOf 16 n (natsOf bs ++ List.replicate 15 0)).map beJoin

/-- GHASH of blocks. -/
def ghash (h : Nat) (blocks : List Nat) : Nat := blocks.foldl (fun y b => gcmMul (y ^^^ b) 128 h 0) 0

/-- The key stream of `n` blocks after the initial counter block of a 12-byte IV. -/
def gcmStream (keys : List (List Nat)) (iv : List Byte) (n : Nat) : List Nat :=
  (List.range n).flatMap fun i => aesEnc keys (natsOf iv ++ beSplit 4 (i + 2))

/-- Encrypt, or decrypt, in counter mode. -/
def gcmCrypt (key iv text : List Byte) : List Byte :=
  bytesOf (xorList (natsOf text) (gcmStream (aesRoundKeys (natsOf key)) iv ((text.length + 15) / 16)))

/-- The 16-byte tag over additional data and ciphertext. -/
def gcmTag (key iv aad cipher : List Byte) : List Byte :=
  let keys := aesRoundKeys (natsOf key)
  let h := beJoin (aesEnc keys (List.replicate 16 0))
  let g := ghash h (gcmBlocks aad ++ gcmBlocks cipher ++ [8 * aad.length * 2 ^ 64 + 8 * cipher.length])
  bytesOf (xorList (beSplit 16 g) (aesEnc keys (natsOf iv ++ [0, 0, 0, 1])))

/-! ## AES-CMAC -/

/-- Double in CMAC's field. -/
def cmacDouble (x : Nat) : Nat := if x < 2 ^ 127 then 2 * x else (2 * x - 2 ^ 128) ^^^ 0x87

/-- The 16-byte AES-CMAC of bytes. -/
def aesCmac (key bs : List Byte) : List Byte :=
  let keys := aesRoundKeys (natsOf key)
  let k1 := cmacDouble (beJoin (aesEnc keys (List.replicate 16 0)))
  let n := max 1 ((bs.length + 15) / 16)
  let full := bs.length ≠ 0 ∧ bs.length % 16 = 0
  let padded := if full then natsOf bs else natsOf bs ++ 0x80 :: List.replicate 15 0
  let g := groupsOf 16 n padded
  let last := xorList (g.getLastD []) (beSplit 16 (if full then k1 else cmacDouble k1))
  bytesOf (aesEnc keys (xorList ((g.take (n - 1)).foldl (fun x b => aesEnc keys (xorList x b)) (List.replicate 16 0)) last))

/-! ## HMAC and HKDF with SHA-512 (RFC 2104, RFC 5869; R431, R432, R439) -/

/-- HMAC-SHA-512 under a key of at most 128 bytes. -/
def hmac512 (key msg : List Byte) : List Byte :=
  let k := key ++ List.replicate (128 - key.length) 0
  sha512Bytes ((k.map fun b => b ^^^ 0x5C#8) ++ sha512Bytes ((k.map fun b => b ^^^ 0x36#8) ++ msg))

/-- The blocks of HKDF-Expand: `n` more, the `i`-th next, after `t`. -/
def hkdfBlocks (prk info : List Byte) : Nat → Nat → List Byte → List Byte
  | 0, _, _ => []
  | n + 1, i, t => let u := hmac512 prk (t ++ info ++ [BitVec.ofNat 8 i]); u ++ hkdfBlocks prk info n (i + 1) u

/-- HKDF-Expand to `l` bytes. -/
def hkdfExpand (prk info : List Byte) (l : Nat) : List Byte := (hkdfBlocks prk info ((l + 63) / 64) 1 []).take l

/-- HKDF-Extract. -/
def hkdfExtract (salt ikm : List Byte) : List Byte := hmac512 salt ikm

/-- The 24 bytes of a wrapped key. -/
def wrappedBytes (w : BitVec 192) : List Byte := leBytes 24 w.toNat

end Sys2Proof.Machine
end

