-- ==== Sys2Proof/Config.lean ====
section
/-!
DEFINITION. What the spec leaves open as free values: opaque functions of a draw number, or of the operands, with no
body, so that no statement can rest on a value of them (notes/assumptions/7.md to 12.md).
-/

namespace Sys2Proof.Config

/-- A random number of 64 bits from the device's generator; every draw has its own number (R278, R361, R408). -/
opaque random : Nat → BitVec 64

/-- The cause byte of an ownership event, whose values the spec does not list (Table 17.4, HWL 0x82 and 0x83): a function of whether
ownership is taken. -/
opaque ownerCause : Bool → BitVec 8

/-- The cause word of a LEAVE packet, whose values the spec does not list (Table 12.2). -/
opaque leaveCause : Nat → BitVec 32

/-- SHA-512 of the boot ROM, whose contents the spec does not give (Table 14.6). -/
opaque romDigest : Digest

/-- Events that a rule requires and Table 17.4 lists no code for: the NODE_ID item ignored (1, Table 2.8), the parity path test (2,
Table 17.5), a debug token erased (3, R441), the generation table lost (4, R436), a reset packet that is discarded (5, R391), an access that
the map does not admit (6, R25), the update state record lost (7, R492). -/
opaque openEventCode : Nat → BitVec 8

/-- A byte of memory that no access has stored, at a device physical address: an argument of the draw (R25, notes/assumptions/128.md). -/
opaque memByte : Nat → Nat → BitVec 8

/-- AGC gain in 0.5 dB (0 to 96) of a power-line receive chain at a tick, outside a frame or frozen: a measurement of the medium
(PLC_CHAIN_n.GAIN). -/
opaque plcGain : Nat → Nat → Fin 97

/-- The AFE clocks that a frame takes on the power line, as G.9903 has it: BAND, modulation, tone map, bytes (R244, R258). -/
opaque plcAirtime : Nat → Nat → BitVec 24 → Nat → Nat

/-- The AFE clocks of the longest frame that a BAND allows (R246). -/
opaque plcLongest : Nat → Nat

/-- A frame of so many bytes fits G.9903's frame-length field under an allowed modulation and tone map: BAND, MOD_MASK, bytes (R245). -/
opaque plcFits : Nat → Nat → Nat → Bool

/-- The phase detection counter that G.9903 requires of a frame, from the AFE clocks since the zero crossing of its phase (R244). -/
opaque plcPdc : Nat → BitVec 8

/-- The system title under which the device protects its requests to meters (R318): the spec does not give it. -/
opaque clientTitle : BitVec 64

/-- Whether an ASSIGN grants the relay role to a meter, by its slot: the spec does not say how firmware decides (Tables 8.5, 9.4). -/
opaque grantsRelay : Nat → Bool

/-- AFE clocks of a SUN FSK preamble: MODE, octets (R272). -/
opaque rfPreamble : Nat → Nat → Nat

/-- AFE clocks of the SFD, the PHR and a PSDU: MODE, bytes (R272). -/
opaque rfTail : Nat → Nat → Nat

/-- AFE clocks of the standard's unit backoff period: MODE (R278). -/
opaque rfUnitBackoff : Nat → Nat

/-- AFE clocks for which the standard waits for an Enh-Ack after a frame: MODE (R278). -/
opaque rfAckWait : Nat → Nat

/-- In-band noise floor of a power-line receive chain at a tick, in dBµV (PLC_CHAIN_n.NOISE). -/
opaque plcNoise : Nat → Nat → BitVec 8

/-- Noise floor of a radio's channel at a tick, in dBm (RFM_RADIO_n): radio, channel, tick. -/
opaque rfNoise : Nat → Nat → Nat → BitVec 8

/-- Bytes of the DSP memories, into which a part of kind 2 loads: the spec does not give their size (R482). -/
opaque dspMemory : Nat

/-- The bit position of the root to which a bit position of ROOT_SCR is wired: the fixed permutation of R427, which the spec does not
list. -/
opaque rootBit : Nat → Fin 256

/-- The 90° Hilbert filter of MET over the samples of a voltage: the spec does not give its coefficients (R194). -/
opaque hilbert : List Int → List Int

/-- MET's phase correction, in 0.001°, over the samples of a current: the spec does not give the interpolation (Table 6.12). -/
opaque phaseShift : Int → List Int → List Int

/-- The secret number of an ECDSA signature, which the signer draws; every draw has its own number (R444, R445). -/
opaque ecdsaNonce : Nat → Nat

/-- The bytes of a legal job as accepted, which MJOB and SEQ_REQ carry (Table 12.2; R368, R373): a committed operation does not hold the
descriptor and attachment that it came from, and an internal one has none (notes/assumptions/177.md). -/
opaque legalJobBytes : Nat → LegalOp → List Byte

/-- CODE of a journal entry of a committed operation that no job of Table 13.5 orders: the spec gives none (R352). -/
opaque internalJob : LegalOp → BitVec 8

/-- ARGS of such an entry. -/
opaque internalArgs : LegalOp → Nat → BitVec 8

/-- A byte of a sector whose layout the spec does not give: the control record, the counter snapshot, checkpoints, meter images
(R333, R337, R345). -/
opaque sectorByte {α : Type} : α → Nat → BitVec 8

/-- The bytes of a context operation as accepted, which MCTX and SEQ_REQ carry (notes/assumptions/177.md). -/
opaque contextJobBytes : JobBody → List Byte

end Sys2Proof.Config
end

