-- ==== Sys2Proof/Machine/Counters.lean ====
section
/-!
DEFINITION. The counters of Table 17.6: where each lies in the register window and, under R513, the SOURCE, CODE and
SET of the event that goes with it.
-/

namespace Sys2Proof.Machine

/-- A counter register and the identity of its event (R513). -/
structure Counter where
  source : Nat
  code : Nat
  set : Nat
  addr : Nat
  deriving DecidableEq, Repr

/-! Table 10.10: TXN -/

/-- STARTED, counter 0 of Table 10.10. -/
def cTxnStarted : Counter := ⟨13, 0, 0, 0x0D1000⟩
/-- ANSWERED, counter 1 of Table 10.10. -/
def cTxnAnswered : Counter := ⟨13, 1, 0, 0x0D1004⟩
/-- NO_ANSWER, counter 2 of Table 10.10. -/
def cTxnNoAnswer : Counter := ⟨13, 2, 0, 0x0D1008⟩
/-- LINK_FAIL, counter 3 of Table 10.10. -/
def cTxnLinkFail : Counter := ⟨13, 3, 0, 0x0D100C⟩
/-- RETRIES, counter 4 of Table 10.10. -/
def cTxnRetries : Counter := ⟨13, 4, 0, 0x0D1010⟩
/-- LATE_DUP, counter 5 of Table 10.10. -/
def cTxnLateDup : Counter := ⟨13, 5, 0, 0x0D1014⟩
/-- STALE_GEN, counter 6 of Table 10.10. -/
def cTxnStaleGen : Counter := ⟨13, 6, 0, 0x0D1018⟩
/-- TAG_MISMATCH, counter 7 of Table 10.10. -/
def cTxnTagMismatch : Counter := ⟨13, 7, 0, 0x0D101C⟩
/-- LATE_RESPONSE, counter 8 of Table 10.10. -/
def cTxnLateResponse : Counter := ⟨13, 8, 0, 0x0D1020⟩
/-- RELAYED, counter 9 of Table 10.10. -/
def cTxnRelayed : Counter := ⟨13, 9, 0, 0x0D1024⟩
/-- CANCELLED, counter 10 of Table 10.10. -/
def cTxnCancelled : Counter := ⟨13, 10, 0, 0x0D1028⟩
/-- REMOVED, counter 11 of Table 10.10. -/
def cTxnRemoved : Counter := ⟨13, 11, 0, 0x0D102C⟩
/-- NOT_OWNER, counter 12 of Table 10.10. -/
def cTxnNotOwner : Counter := ⟨13, 12, 0, 0x0D1030⟩
/-- PENDING_FULL, counter 13 of Table 10.10. -/
def cTxnPendingFull : Counter := ⟨13, 13, 0, 0x0D1034⟩
/-- MERGED, counter 14 of Table 10.10. -/
def cTxnMerged : Counter := ⟨13, 14, 0, 0x0D1038⟩
/-- SKIPPED_HEARD, counter 15 of Table 10.10. -/
def cTxnSkippedHeard : Counter := ⟨13, 15, 0, 0x0D103C⟩
/-- TAG_WAIT, counter 16 of Table 10.10. -/
def cTxnTagWait : Counter := ⟨13, 16, 0, 0x0D1040⟩
/-- MEDIUM_SWITCH, counter 17 of Table 10.10. -/
def cTxnMediumSwitch : Counter := ⟨13, 17, 0, 0x0D1044⟩
/-- UNVERIFIED, counter 18 of Table 10.10. -/
def cTxnUnverified : Counter := ⟨13, 18, 0, 0x0D1048⟩
/-- BROADCASTS, counter 19 of Table 10.10. -/
def cTxnBroadcasts : Counter := ⟨13, 19, 0, 0x0D104C⟩

/-! Table 10.11: CCH -/

/-- POSTED, counter 0 of Table 10.11. -/
def cCchPosted : Counter := ⟨12, 0, 0, 0x0C1000⟩
/-- DISPATCHED, counter 1 of Table 10.11. -/
def cCchDispatched : Counter := ⟨12, 1, 0, 0x0C1004⟩
/-- POST_FAIL, counter 2 of Table 10.11. -/
def cCchPostFail : Counter := ⟨12, 2, 0, 0x0C1008⟩
/-- RESERVE_POSTS, counter 3 of Table 10.11. -/
def cCchReservePosts : Counter := ⟨12, 3, 0, 0x0C100C⟩
/-- BUDGET_CHANGES, counter 4 of Table 10.11. -/
def cCchBudgetChanges : Counter := ⟨12, 4, 0, 0x0C1010⟩
/-- TRIGGERS_FIRED, counter 5 of Table 10.11. -/
def cCchTriggersFired : Counter := ⟨12, 5, 0, 0x0C1014⟩
/-- TRIGGER_LATE, counter 6 of Table 10.11. -/
def cCchTriggerLate : Counter := ⟨12, 6, 0, 0x0C1018⟩
/-- TRIGGER_HELD, counter 7 of Table 10.11. -/
def cCchTriggerHeld : Counter := ⟨12, 7, 0, 0x0C101C⟩
/-- SWP_REQUEUED, counter 8 of Table 10.11. -/
def cCchSwpRequeued : Counter := ⟨12, 8, 0, 0x0C1020⟩
/-- WAIT_ALARMS, counter 9 of Table 10.11. -/
def cCchWaitAlarms : Counter := ⟨12, 9, 0, 0x0C1024⟩
/-- TRIGGER_SKIPPED, counter 10 of Table 10.11. -/
def cCchTriggerSkipped : Counter := ⟨12, 10, 0, 0x0C1028⟩

/-! Table 6.13: BIL -/

/-- UPDATES, counter 0 of Table 6.13. -/
def cBilUpdates : Counter := ⟨20, 0, 0, 0x141000⟩
/-- COMMITTED, counter 1 of Table 6.13. -/
def cBilCommitted : Counter := ⟨20, 1, 0, 0x141004⟩
/-- DECLINED_VALIDATION, counter 2 of Table 6.13. -/
def cBilDeclinedValidation : Counter := ⟨20, 2, 0, 0x141008⟩
/-- DECLINED_LATE, counter 3 of Table 6.13. -/
def cBilDeclinedLate : Counter := ⟨20, 3, 0, 0x14100C⟩
/-- DECLINED_FROZEN, counter 4 of Table 6.13. -/
def cBilDeclinedFrozen : Counter := ⟨20, 4, 0, 0x141010⟩
/-- DECLINED_SAFE, counter 5 of Table 6.13. -/
def cBilDeclinedSafe : Counter := ⟨20, 5, 0, 0x141014⟩
/-- OUTVOTE_A, counter 6 of Table 6.13. -/
def cBilOutvoteA : Counter := ⟨20, 6, 0, 0x141018⟩
/-- OUTVOTE_B, counter 7 of Table 6.13. -/
def cBilOutvoteB : Counter := ⟨20, 7, 0, 0x14101C⟩
/-- OUTVOTE_C, counter 8 of Table 6.13. -/
def cBilOutvoteC : Counter := ⟨20, 8, 0, 0x141020⟩
/-- NO_MAJORITY, counter 9 of Table 6.13. -/
def cBilNoMajority : Counter := ⟨20, 9, 0, 0x141024⟩
/-- SPLIT_LIMIT, counter 10 of Table 6.13. -/
def cBilSplitLimit : Counter := ⟨20, 10, 0, 0x141028⟩
/-- CLOSURES, counter 11 of Table 6.13. -/
def cBilClosures : Counter := ⟨20, 11, 0, 0x14102C⟩
/-- FORCED_CLOSURES, counter 12 of Table 6.13. -/
def cBilForcedClosures : Counter := ⟨20, 12, 0, 0x141030⟩
/-- LATE_ENERGY, counter 13 of Table 6.13. -/
def cBilLateEnergy : Counter := ⟨20, 13, 0, 0x141034⟩
/-- JOBS_COMMITTED, counter 14 of Table 6.13. -/
def cBilJobsCommitted : Counter := ⟨20, 14, 0, 0x141038⟩
/-- SLOT_ERROR, counter 15 of Table 6.13. -/
def cBilSlotError : Counter := ⟨20, 15, 0, 0x14103C⟩

/-! Table 7.14: BAL -/

/-- RECORDS_IN, counter 0 of Table 7.14. -/
def cBalRecordsIn : Counter := ⟨21, 0, 0, 0x151000⟩
/-- BAL_DROP, counter 1 of Table 7.14. -/
def cBalBalDrop : Counter := ⟨21, 1, 0, 0x151004⟩
/-- INTERVAL_RESULTS, counter 2 of Table 7.14. -/
def cBalIntervalResults : Counter := ⟨21, 2, 0, 0x151008⟩
/-- SNAPSHOT_RESULTS, counter 3 of Table 7.14. -/
def cBalSnapshotResults : Counter := ⟨21, 3, 0, 0x15100C⟩
/-- SNAP_ABANDONED, counter 4 of Table 7.14. -/
def cBalSnapAbandoned : Counter := ⟨21, 4, 0, 0x151010⟩
/-- SNAP_OFF_CYCLE, counter 5 of Table 7.14. -/
def cBalSnapOffCycle : Counter := ⟨21, 5, 0, 0x151014⟩
/-- SNAP_NOT_FROZEN, counter 6 of Table 7.14. -/
def cBalSnapNotFrozen : Counter := ⟨21, 6, 0, 0x151018⟩
/-- LATE_SHARES, counter 7 of Table 7.14. -/
def cBalLateShares : Counter := ⟨21, 7, 0, 0x15101C⟩
/-- PHASE_MISMATCH, counter 8 of Table 7.14. -/
def cBalPhaseMismatch : Counter := ⟨21, 8, 0, 0x151020⟩
/-- PHASE_UNCLEAR, counter 9 of Table 7.14. -/
def cBalPhaseUnclear : Counter := ⟨21, 9, 0, 0x151024⟩
/-- SIG_STEPS_SUSPICIOUS, counter 10 of Table 7.14. -/
def cBalSigStepsSuspicious : Counter := ⟨21, 10, 0, 0x151028⟩
/-- SIG_STEPS_BENIGN, counter 11 of Table 7.14. -/
def cBalSigStepsBenign : Counter := ⟨21, 11, 0, 0x15102C⟩
/-- TRANSIENT, counter 12 of Table 7.14. -/
def cBalTransient : Counter := ⟨21, 12, 0, 0x151030⟩
/-- ANOMALY_REPORTS, counter 13 of Table 7.14. -/
def cBalAnomalyReports : Counter := ⟨21, 13, 0, 0x151034⟩
/-- ACTIONS_ISSUED, counter 14 of Table 7.14. -/
def cBalActionsIssued : Counter := ⟨21, 14, 0, 0x151038⟩
/-- ACTIONS_LIMITED, counter 15 of Table 7.14. -/
def cBalActionsLimited : Counter := ⟨21, 15, 0, 0x15103C⟩
/-- NONMEMBER_NAMED, counter 16 of Table 7.14. -/
def cBalNonmemberNamed : Counter := ⟨21, 16, 0, 0x151040⟩
/-- EARTH_HIGH, counter 17 of Table 7.14. -/
def cBalEarthHigh : Counter := ⟨21, 17, 0, 0x151044⟩

/-! Table 11.8: FUL -/

/-- SECTORS_WRITTEN, counter 0 of Table 11.8. -/
def cFulSectorsWritten : Counter := ⟨17, 0, 0, 0x111000⟩
/-- PAGES_PROGRAMMED, counter 1 of Table 11.8. -/
def cFulPagesProgrammed : Counter := ⟨17, 1, 0, 0x111004⟩
/-- PAGES_READ, counter 2 of Table 11.8. -/
def cFulPagesRead : Counter := ⟨17, 2, 0, 0x111008⟩
/-- GC_RUNS, counter 3 of Table 11.8. -/
def cFulGcRuns : Counter := ⟨17, 3, 0, 0x11100C⟩
/-- GC_PAGES_COPIED, counter 4 of Table 11.8. -/
def cFulGcPagesCopied : Counter := ⟨17, 4, 0, 0x111010⟩
/-- REFRESHES, counter 5 of Table 11.8. -/
def cFulRefreshes : Counter := ⟨17, 5, 0, 0x111014⟩
/-- ERASES, counter 6 of Table 11.8. -/
def cFulErases : Counter := ⟨17, 6, 0, 0x111018⟩
/-- PROGRAM_FAIL, counter 7 of Table 11.8. -/
def cFulProgramFail : Counter := ⟨17, 7, 0, 0x11101C⟩
/-- ERASE_FAIL, counter 8 of Table 11.8. -/
def cFulEraseFail : Counter := ⟨17, 8, 0, 0x111020⟩
/-- BLOCKS_RETIRED, counter 9 of Table 11.8. -/
def cFulBlocksRetired : Counter := ⟨17, 9, 0, 0x111024⟩
/-- CORRECTED_READS, counter 10 of Table 11.8. -/
def cFulCorrectedReads : Counter := ⟨17, 10, 0, 0x111028⟩
/-- UNCORRECTABLE, counter 11 of Table 11.8. -/
def cFulUncorrectable : Counter := ⟨17, 11, 0, 0x11102C⟩
/-- READ_RETRIES, counter 12 of Table 11.8. -/
def cFulReadRetries : Counter := ⟨17, 12, 0, 0x111030⟩
/-- RCK_FAIL, counter 13 of Table 11.8. -/
def cFulRckFail : Counter := ⟨17, 13, 0, 0x111034⟩
/-- RELEASED_SECTORS, counter 14 of Table 11.8. -/
def cFulReleasedSectors : Counter := ⟨17, 14, 0, 0x111038⟩
/-- EARLY_CLOSES, counter 15 of Table 11.8. -/
def cFulEarlyCloses : Counter := ⟨17, 15, 0, 0x11103C⟩
/-- REBUILD_PROBES, counter 16 of Table 11.8. -/
def cFulRebuildProbes : Counter := ⟨17, 16, 0, 0x111040⟩
/-- SUMMARY_FAIL, counter 17 of Table 11.8. -/
def cFulSummaryFail : Counter := ⟨17, 17, 0, 0x111044⟩
/-- CRITICAL_HOLDS, counter 18 of Table 11.8. -/
def cFulCriticalHolds : Counter := ⟨17, 18, 0, 0x111048⟩
/-- WEAR_MOVES, counter 19 of Table 11.8. -/
def cFulWearMoves : Counter := ⟨17, 19, 0, 0x11104C⟩

/-! Table 12.8: HWL -/

/-- ANNOUNCES, counter 0 of Table 12.8. -/
def cHwlAnnounces : Counter := ⟨28, 0, 0, 0x1C0800⟩
/-- ROUTE_CHANGES, counter 1 of Table 12.8. -/
def cHwlRouteChanges : Counter := ⟨28, 1, 0, 0x1C0804⟩
/-- UNREACHABLE, counter 2 of Table 12.8. -/
def cHwlUnreachable : Counter := ⟨28, 2, 0, 0x1C0808⟩
/-- ROUTE_DROP, counter 3 of Table 12.8. -/
def cHwlRouteDrop : Counter := ⟨28, 3, 0, 0x1C080C⟩
/-- MIRROR_OUT, counter 4 of Table 12.8. -/
def cHwlMirrorOut : Counter := ⟨28, 4, 0, 0x1C0810⟩
/-- MIRROR_RESENT, counter 5 of Table 12.8. -/
def cHwlMirrorResent : Counter := ⟨28, 5, 0, 0x1C0814⟩
/-- MIRROR_GAP, counter 6 of Table 12.8. -/
def cHwlMirrorGap : Counter := ⟨28, 6, 0, 0x1C0818⟩
/-- MIRROR_DUP, counter 7 of Table 12.8. -/
def cHwlMirrorDup : Counter := ⟨28, 7, 0, 0x1C081C⟩
/-- RCK_FAIL, counter 8 of Table 12.8. -/
def cHwlRckFail : Counter := ⟨28, 8, 0, 0x1C0820⟩
/-- EST_DISAGREE, counter 9 of Table 12.8. -/
def cHwlEstDisagree : Counter := ⟨28, 9, 0, 0x1C0824⟩
/-- SYNC_SENT, counter 10 of Table 12.8. -/
def cHwlSyncSent : Counter := ⟨28, 10, 0, 0x1C0828⟩
/-- SYNC_APPLIED, counter 11 of Table 12.8. -/
def cHwlSyncApplied : Counter := ⟨28, 11, 0, 0x1C082C⟩
/-- DIGEST_CUTS, counter 12 of Table 12.8. -/
def cHwlDigestCuts : Counter := ⟨28, 12, 0, 0x1C0830⟩
/-- DIGEST_MISMATCH, counter 13 of Table 12.8. -/
def cHwlDigestMismatch : Counter := ⟨28, 13, 0, 0x1C0834⟩
/-- DIGEST_LATE, counter 14 of Table 12.8. -/
def cHwlDigestLate : Counter := ⟨28, 14, 0, 0x1C0838⟩
/-- PARTNER_LOST, counter 15 of Table 12.8. -/
def cHwlPartnerLost : Counter := ⟨28, 15, 0, 0x1C083C⟩
/-- REJOINS, counter 16 of Table 12.8. -/
def cHwlRejoins : Counter := ⟨28, 16, 0, 0x1C0840⟩
/-- ARB_LOST, counter 17 of Table 12.8. -/
def cHwlArbLost : Counter := ⟨28, 17, 0, 0x1C0844⟩
/-- INTERLOCK_FAULT, counter 18 of Table 12.8. -/
def cHwlInterlockFault : Counter := ⟨28, 18, 0, 0x1C0848⟩
/-- CHAIN_FORWARDED, counter 19 of Table 12.8. -/
def cHwlChainForwarded : Counter := ⟨28, 19, 0, 0x1C084C⟩
/-- CHAIN_FAILED, counter 20 of Table 12.8. -/
def cHwlChainFailed : Counter := ⟨28, 20, 0, 0x1C0850⟩
/-- FWD_ENTRIES, counter 21 of Table 12.8. -/
def cHwlFwdEntries : Counter := ⟨28, 21, 0, 0x1C0854⟩

/-! Table 13.13: PCI -/

/-- JOBS_IN, counter 0 of Table 13.13. -/
def cPciJobsIn : Counter := ⟨29, 0, 0, 0x1D1000⟩
/-- JOBS_REJECTED, counter 1 of Table 13.13. -/
def cPciJobsRejected : Counter := ⟨29, 1, 0, 0x1D1004⟩
/-- REPORTS_OUT, counter 2 of Table 13.13. -/
def cPciReportsOut : Counter := ⟨29, 2, 0, 0x1D1008⟩
/-- REPORTS_UNROUTED, counter 3 of Table 13.13. -/
def cPciReportsUnrouted : Counter := ⟨29, 3, 0, 0x1D100C⟩
/-- REPORT_DROP, counter 4 of Table 13.13. -/
def cPciReportDrop : Counter := ⟨29, 4, 0, 0x1D1010⟩
/-- DCRC_FAIL, counter 5 of Table 13.13. -/
def cPciDcrcFail : Counter := ⟨29, 5, 0, 0x1D1014⟩
/-- CQ_ERROR, counter 6 of Table 13.13. -/
def cPciCqError : Counter := ⟨29, 6, 0, 0x1D1018⟩
/-- RQ_WAITS, counter 7 of Table 13.13. -/
def cPciRqWaits : Counter := ⟨29, 7, 0, 0x1D101C⟩
/-- ATTACH_ERR, counter 8 of Table 13.13. -/
def cPciAttachErr : Counter := ⟨29, 8, 0, 0x1D1020⟩
/-- NONCE_EVICT, counter 9 of Table 13.13. -/
def cPciNonceEvict : Counter := ⟨29, 9, 0, 0x1D1024⟩

/-! Table 13.13: SBM -/

/-- FRAMES_RX, counter 0 of Table 13.13. -/
def cSbFramesRx : Counter := ⟨5, 0, 0, 0x051000⟩
/-- FRAMES_TX, counter 1 of Table 13.13. -/
def cSbFramesTx : Counter := ⟨5, 1, 0, 0x051004⟩
/-- FCS_FAIL, counter 2 of Table 13.13. -/
def cSbFcsFail : Counter := ⟨5, 2, 0, 0x051008⟩
/-- FILTERED, counter 3 of Table 13.13. -/
def cSbFiltered : Counter := ⟨5, 3, 0, 0x05100C⟩
/-- COLLISIONS, counter 4 of Table 13.13. -/
def cSbCollisions : Counter := ⟨5, 4, 0, 0x051010⟩
/-- EXCESS_COLLISION, counter 5 of Table 13.13. -/
def cSbExcessCollision : Counter := ⟨5, 5, 0, 0x051014⟩
/-- LATE_COLLISION, counter 6 of Table 13.13. -/
def cSbLateCollision : Counter := ⟨5, 6, 0, 0x051018⟩
/-- REQUESTS, counter 7 of Table 13.13. -/
def cSbRequests : Counter := ⟨5, 7, 0, 0x05101C⟩
/-- REQ_CACHED, counter 8 of Table 13.13. -/
def cSbReqCached : Counter := ⟨5, 8, 0, 0x051020⟩
/-- REQ_REJECTED, counter 9 of Table 13.13. -/
def cSbReqRejected : Counter := ⟨5, 9, 0, 0x051024⟩

/-! Table 14.12: SEC -/

/-- DERIVATIONS, counter 0 of Table 14.12. -/
def cSecDerivations : Counter := ⟨7, 0, 0, 0x073000⟩
/-- UNSEALED, counter 1 of Table 14.12. -/
def cSecUnsealed : Counter := ⟨7, 1, 0, 0x073004⟩
/-- UNSEAL_FAIL, counter 2 of Table 14.12. -/
def cSecUnsealFail : Counter := ⟨7, 2, 0, 0x073008⟩
/-- KEY_DESTROYED, counter 3 of Table 14.12. -/
def cSecKeyDestroyed : Counter := ⟨7, 3, 0, 0x07300C⟩
/-- ORPHANED, counter 4 of Table 14.12. -/
def cSecOrphaned : Counter := ⟨7, 4, 0, 0x073010⟩
/-- KEY_USE_REFUSED, counter 5 of Table 14.12. -/
def cSecKeyUseRefused : Counter := ⟨7, 5, 0, 0x073014⟩
/-- UNWRAP_FAIL, counter 6 of Table 14.12. -/
def cSecUnwrapFail : Counter := ⟨7, 6, 0, 0x073018⟩
/-- QUOTES, counter 7 of Table 14.12. -/
def cSecQuotes : Counter := ⟨7, 7, 0, 0x07301C⟩
/-- DEBUG_TOKENS, counter 8 of Table 14.12. -/
def cSecDebugTokens : Counter := ⟨7, 8, 0, 0x073020⟩
/-- FUSE_BURNS, counter 9 of Table 14.12. -/
def cSecFuseBurns : Counter := ⟨7, 9, 0, 0x073024⟩
/-- FUSE_FAIL, counter 10 of Table 14.12. -/
def cSecFuseFail : Counter := ⟨7, 10, 0, 0x073028⟩
/-- ITEM_SKIPPED, counter 11 of Table 14.12. -/
def cSecItemSkipped : Counter := ⟨7, 11, 0, 0x07302C⟩

/-! Table 15.10: PWR -/

/-- MODE_CHANGES, counter 0 of Table 15.10. -/
def cPwrModeChanges : Counter := ⟨3, 0, 0, 0x031000⟩
/-- RIDES, counter 1 of Table 15.10. -/
def cPwrRides : Counter := ⟨3, 1, 0, 0x031004⟩
/-- RIDE_TIMEOUTS, counter 2 of Table 15.10. -/
def cPwrRideTimeouts : Counter := ⟨3, 2, 0, 0x031008⟩
/-- SCAP_LOW, counter 3 of Table 15.10. -/
def cPwrScapLow : Counter := ⟨3, 3, 0, 0x03100C⟩
/-- GASPS, counter 4 of Table 15.10. -/
def cPwrGasps : Counter := ⟨3, 4, 0, 0x031010⟩
/-- GASP_LATE, counter 5 of Table 15.10. -/
def cPwrGaspLate : Counter := ⟨3, 5, 0, 0x031014⟩
/-- GASP_DROPPED, counter 6 of Table 15.10. -/
def cPwrGaspDropped : Counter := ⟨3, 6, 0, 0x031018⟩
/-- THROTTLES, counter 7 of Table 15.10. -/
def cPwrThrottles : Counter := ⟨3, 7, 0, 0x03101C⟩
/-- THERMAL_SHUTDOWNS, counter 8 of Table 15.10. -/
def cPwrThermalShutdowns : Counter := ⟨3, 8, 0, 0x031020⟩
/-- SENSOR_FAILS, counter 9 of Table 15.10. -/
def cPwrSensorFails : Counter := ⟨3, 9, 0, 0x031024⟩
/-- OVER_CAP, counter 10 of Table 15.10. -/
def cPwrOverCap : Counter := ⟨3, 10, 0, 0x031028⟩
/-- STANDBY_WAKES, counter 11 of Table 15.10. -/
def cPwrStandbyWakes : Counter := ⟨3, 11, 0, 0x03102C⟩

/-! Table 16.14: UPD -/

/-- DELIVERIES_OPENED, counter 0 of Table 16.14. -/
def cUpdDeliveriesOpened : Counter := ⟨9, 0, 0, 0x091000⟩
/-- BLOCKS_IN, counter 1 of Table 16.14. -/
def cUpdBlocksIn : Counter := ⟨9, 1, 0, 0x091004⟩
/-- BLOCK_REJECT, counter 2 of Table 16.14. -/
def cUpdBlockReject : Counter := ⟨9, 2, 0, 0x091008⟩
/-- DELIVERY_ABANDONED, counter 3 of Table 16.14. -/
def cUpdDeliveryAbandoned : Counter := ⟨9, 3, 0, 0x09100C⟩
/-- BUNDLES_VERIFIED, counter 4 of Table 16.14. -/
def cUpdBundlesVerified : Counter := ⟨9, 4, 0, 0x091010⟩
/-- BUNDLES_REFUSED, counter 5 of Table 16.14. -/
def cUpdBundlesRefused : Counter := ⟨9, 5, 0, 0x091014⟩
/-- BUNDLES_STAGED, counter 6 of Table 16.14. -/
def cUpdBundlesStaged : Counter := ⟨9, 6, 0, 0x091018⟩
/-- CONFIRMATIONS, counter 7 of Table 16.14. -/
def cUpdConfirmations : Counter := ⟨9, 7, 0, 0x09101C⟩
/-- FALLBACKS, counter 8 of Table 16.14. -/
def cUpdFallbacks : Counter := ⟨9, 8, 0, 0x091020⟩
/-- CAMPAIGNS_STARTED, counter 9 of Table 16.14. -/
def cUpdCampaignsStarted : Counter := ⟨9, 9, 0, 0x091024⟩
/-- CAMPAIGN_BLOCKS_TX, counter 10 of Table 16.14. -/
def cUpdCampaignBlocksTx : Counter := ⟨9, 10, 0, 0x091028⟩
/-- STATUS_READS, counter 11 of Table 16.14. -/
def cUpdStatusReads : Counter := ⟨9, 11, 0, 0x09102C⟩
/-- METERS_DONE, counter 12 of Table 16.14. -/
def cUpdMetersDone : Counter := ⟨9, 12, 0, 0x091030⟩
/-- METERS_FAILED, counter 13 of Table 16.14. -/
def cUpdMetersFailed : Counter := ⟨9, 13, 0, 0x091034⟩
/-- CAMPAIGNS_ENDED, counter 14 of Table 16.14. -/
def cUpdCampaignsEnded : Counter := ⟨9, 14, 0, 0x091038⟩
/-- COPY_RETRIES, counter 15 of Table 16.14. -/
def cUpdCopyRetries : Counter := ⟨9, 15, 0, 0x09103C⟩

/-! Table 17.7: WAY -/

/-- EVENTS_IN, counter 0 of Table 17.7. -/
def cWayEventsIn : Counter := ⟨6, 0, 0, 0x060100⟩
/-- RECORDS_WRITTEN, counter 1 of Table 17.7. -/
def cWayRecordsWritten : Counter := ⟨6, 1, 0, 0x060104⟩
/-- LOST_FULL, counter 2 of Table 17.7. -/
def cWayLostFull : Counter := ⟨6, 2, 0, 0x060108⟩
/-- BUFFER_DROP, counter 3 of Table 17.7. -/
def cWayBufferDrop : Counter := ⟨6, 3, 0, 0x06010C⟩
/-- TORN, counter 4 of Table 17.7. -/
def cWayTorn : Counter := ⟨6, 4, 0, 0x060110⟩
/-- REMAPS, counter 5 of Table 17.7. -/
def cWayRemaps : Counter := ⟨6, 5, 0, 0x060114⟩
/-- CLEARS, counter 6 of Table 17.7. -/
def cWayClears : Counter := ⟨6, 6, 0, 0x060118⟩
/-- EVENT_REPORTS, counter 7 of Table 17.7. -/
def cWayEventReports : Counter := ⟨6, 7, 0, 0x06011C⟩
/-- PORT_REFUSED, counter 8 of Table 17.7. -/
def cWayPortRefused : Counter := ⟨6, 8, 0, 0x060120⟩

/-! Table 17.6: DDR -/

/-- CORRECTED, counter 0 of Table 17.6. -/
def cDdrCorrected : Counter := ⟨15, 0, 0, 0x0F1000⟩
/-- UNCORRECTABLE, counter 1 of Table 17.6. -/
def cDdrUncorrectable : Counter := ⟨15, 1, 0, 0x0F1004⟩

/-! Table 4.21: ING -/

/-- BUNDLES_IN, counter 0 of Table 4.21. -/
def cSplitBundlesIn : Counter := ⟨18, 0, 4, 0x121400⟩
/-- CMAC_FAIL, counter 1 of Table 4.21. -/
def cSplitCmacFail : Counter := ⟨18, 1, 4, 0x121404⟩
/-- UNKNOWN_SENDER, counter 2 of Table 4.21. -/
def cSplitUnknownSender : Counter := ⟨18, 2, 4, 0x121408⟩
/-- BUNDLE_DUP, counter 3 of Table 4.21. -/
def cSplitBundleDup : Counter := ⟨18, 3, 4, 0x12140C⟩
/-- FORMAT_ERR, counter 4 of Table 4.21. -/
def cSplitFormatErr : Counter := ⟨18, 4, 4, 0x121410⟩
/-- ENTRIES_OUT, counter 5 of Table 4.21. -/
def cSplitEntriesOut : Counter := ⟨18, 5, 4, 0x121414⟩
/-- MISDELIVERY, counter 6 of Table 4.21. -/
def cSplitMisdelivery : Counter := ⟨18, 6, 4, 0x121418⟩
/-- ENTRY_KIND_REFUSED, counter 7 of Table 4.21. -/
def cSplitEntryKindRefused : Counter := ⟨18, 7, 4, 0x12141C⟩
/-- RECORD_DISAGREE, counter 8 of Table 4.21. -/
def cSplitRecordDisagree : Counter := ⟨18, 8, 4, 0x121420⟩
/-- KEEPALIVE, counter 9 of Table 4.21. -/
def cSplitKeepalive : Counter := ⟨18, 9, 4, 0x121424⟩
/-- MIRROR_IN, counter 10 of Table 4.21. -/
def cSplitMirrorIn : Counter := ⟨18, 10, 4, 0x121428⟩
/-- MIRROR_RCK_FAIL, counter 11 of Table 4.21. -/
def cSplitMirrorRckFail : Counter := ⟨18, 11, 4, 0x12142C⟩
/-- BUNDLES_OUT, counter 12 of Table 4.21. -/
def cSplitBundlesOut : Counter := ⟨18, 12, 4, 0x121430⟩
/-- PRESENCE_NOTES, counter 13 of Table 4.21. -/
def cSplitPresenceNotes : Counter := ⟨18, 13, 4, 0x121434⟩
/-- NO_SLOT, counter 14 of Table 4.21. -/
def cSplitNoSlot : Counter := ⟨18, 14, 4, 0x121438⟩

/-! Table 4.20: ING -/

/-- FRAMES_IN, counter 0 of Table 4.20, of instance `i`. -/
def cLaneFramesIn (i : Nat) : Counter := ⟨18, 0, i, 0x121000 + 0x100 * i⟩
/-- RECORDS_OUT, counter 1 of Table 4.20, of instance `i`. -/
def cLaneRecordsOut (i : Nat) : Counter := ⟨18, 1, i, 0x121004 + 0x100 * i⟩
/-- FCS_FAIL, counter 2 of Table 4.20, of instance `i`. -/
def cLaneFcsFail (i : Nat) : Counter := ⟨18, 2, i, 0x121008 + 0x100 * i⟩
/-- FCK_FAIL, counter 3 of Table 4.20, of instance `i`. -/
def cLaneFckFail (i : Nat) : Counter := ⟨18, 3, i, 0x12100C + 0x100 * i⟩
/-- CTX_HIT, counter 4 of Table 4.20, of instance `i`. -/
def cLaneCtxHit (i : Nat) : Counter := ⟨18, 4, i, 0x121010 + 0x100 * i⟩
/-- CTX_MISS, counter 5 of Table 4.20, of instance `i`. -/
def cLaneCtxMiss (i : Nat) : Counter := ⟨18, 5, i, 0x121014 + 0x100 * i⟩
/-- UNKNOWN_METER, counter 6 of Table 4.20, of instance `i`. -/
def cLaneUnknownMeter (i : Nat) : Counter := ⟨18, 6, i, 0x121018 + 0x100 * i⟩
/-- REPEAT, counter 7 of Table 4.20, of instance `i`. -/
def cLaneRepeat (i : Nat) : Counter := ⟨18, 7, i, 0x12101C + 0x100 * i⟩
/-- REPLAY, counter 8 of Table 4.20, of instance `i`. -/
def cLaneReplay (i : Nat) : Counter := ⟨18, 8, i, 0x121020 + 0x100 * i⟩
/-- TAG_FAIL, counter 9 of Table 4.20, of instance `i`. -/
def cLaneTagFail (i : Nat) : Counter := ⟨18, 9, i, 0x121024 + 0x100 * i⟩
/-- TITLE_MISMATCH, counter 10 of Table 4.20, of instance `i`. -/
def cLaneTitleMismatch (i : Nat) : Counter := ⟨18, 10, i, 0x121028 + 0x100 * i⟩
/-- EXHAUSTED, counter 11 of Table 4.20, of instance `i`. -/
def cLaneExhausted (i : Nat) : Counter := ⟨18, 11, i, 0x12102C + 0x100 * i⟩
/-- TO_FIRMWARE, counter 12 of Table 4.20, of instance `i`. -/
def cLaneToFirmware (i : Nat) : Counter := ⟨18, 12, i, 0x121030 + 0x100 * i⟩
/-- FW_QUEUE_DROP, counter 13 of Table 4.20, of instance `i`. -/
def cLaneFwQueueDrop (i : Nat) : Counter := ⟨18, 13, i, 0x121034 + 0x100 * i⟩
/-- SECURITY_REJECT, counter 14 of Table 4.20, of instance `i`. -/
def cLaneSecurityReject (i : Nat) : Counter := ⟨18, 14, i, 0x121038 + 0x100 * i⟩
/-- PARITY_REPLAY, counter 15 of Table 4.20, of instance `i`. -/
def cLaneParityReplay (i : Nat) : Counter := ⟨18, 15, i, 0x12103C + 0x100 * i⟩
/-- PARITY_DROP, counter 16 of Table 4.20, of instance `i`. -/
def cLaneParityDrop (i : Nat) : Counter := ⟨18, 16, i, 0x121040 + 0x100 * i⟩
/-- FORWARDED, counter 17 of Table 4.20, of instance `i`. -/
def cLaneForwarded (i : Nat) : Counter := ⟨18, 17, i, 0x121044 + 0x100 * i⟩
/-- CONTEXT_LOST_DROP, counter 18 of Table 4.20, of instance `i`. -/
def cLaneContextLostDrop (i : Nat) : Counter := ⟨18, 18, i, 0x121048 + 0x100 * i⟩
/-- HEARTBEAT, counter 19 of Table 4.20, of instance `i`. -/
def cLaneHeartbeat (i : Nat) : Counter := ⟨18, 19, i, 0x12104C + 0x100 * i⟩

/-! Table 5.11: VAL -/

/-- RECORDS_IN, counter 0 of Table 5.11, of instance `i`. -/
def cValRecordsIn (i : Nat) : Counter := ⟨19, 0, i, 0x131000 + 0x100 * i⟩
/-- ACCEPTED, counter 1 of Table 5.11, of instance `i`. -/
def cValAccepted (i : Nat) : Counter := ⟨19, 1, i, 0x131004 + 0x100 * i⟩
/-- FLAGGED, counter 2 of Table 5.11, of instance `i`. -/
def cValFlagged (i : Nat) : Counter := ⟨19, 2, i, 0x131008 + 0x100 * i⟩
/-- REJECTED, counter 3 of Table 5.11, of instance `i`. -/
def cValRejected (i : Nat) : Counter := ⟨19, 3, i, 0x13100C + 0x100 * i⟩
/-- DUPLICATE, counter 4 of Table 5.11, of instance `i`. -/
def cValDuplicate (i : Nat) : Counter := ⟨19, 4, i, 0x131010 + 0x100 * i⟩
/-- LATE, counter 5 of Table 5.11, of instance `i`. -/
def cValLate (i : Nat) : Counter := ⟨19, 5, i, 0x131014 + 0x100 * i⟩
/-- ESTIMATED, counter 6 of Table 5.11, of instance `i`. -/
def cValEstimated (i : Nat) : Counter := ⟨19, 6, i, 0x131018 + 0x100 * i⟩
/-- EST_SKIPPED, counter 7 of Table 5.11, of instance `i`. -/
def cValEstSkipped (i : Nat) : Counter := ⟨19, 7, i, 0x13101C + 0x100 * i⟩
/-- SEQ_GAP, counter 8 of Table 5.11, of instance `i`. -/
def cValSeqGap (i : Nat) : Counter := ⟨19, 8, i, 0x131020 + 0x100 * i⟩
/-- INTERVAL_GAP, counter 9 of Table 5.11, of instance `i`. -/
def cValIntervalGap (i : Nat) : Counter := ⟨19, 9, i, 0x131024 + 0x100 * i⟩
/-- REVERSE, counter 10 of Table 5.11, of instance `i`. -/
def cValReverse (i : Nat) : Counter := ⟨19, 10, i, 0x131028 + 0x100 * i⟩
/-- ROLLOVER, counter 11 of Table 5.11, of instance `i`. -/
def cValRollover (i : Nat) : Counter := ⟨19, 11, i, 0x13102C + 0x100 * i⟩
/-- DELTA_HIGH, counter 12 of Table 5.11, of instance `i`. -/
def cValDeltaHigh (i : Nat) : Counter := ⟨19, 12, i, 0x131030 + 0x100 * i⟩
/-- RANGE, counter 13 of Table 5.11, of instance `i`. -/
def cValRange (i : Nat) : Counter := ⟨19, 13, i, 0x131034 + 0x100 * i⟩
/-- CLOCK, counter 14 of Table 5.11, of instance `i`. -/
def cValClock (i : Nat) : Counter := ⟨19, 14, i, 0x131038 + 0x100 * i⟩
/-- CYCLE_ORDER, counter 15 of Table 5.11, of instance `i`. -/
def cValCycleOrder (i : Nat) : Counter := ⟨19, 15, i, 0x13103C + 0x100 * i⟩
/-- QUALITY, counter 16 of Table 5.11, of instance `i`. -/
def cValQuality (i : Nat) : Counter := ⟨19, 16, i, 0x131040 + 0x100 * i⟩
/-- RCK_FAIL, counter 17 of Table 5.11, of instance `i`. -/
def cValRckFail (i : Nat) : Counter := ⟨19, 17, i, 0x131044 + 0x100 * i⟩
/-- MIRROR_DISAGREE, counter 18 of Table 5.11, of instance `i`. -/
def cValMirrorDisagree (i : Nat) : Counter := ⟨19, 18, i, 0x131048 + 0x100 * i⟩
/-- TYPE_INVALID, counter 19 of Table 5.11, of instance `i`. -/
def cValTypeInvalid (i : Nat) : Counter := ⟨19, 19, i, 0x13104C + 0x100 * i⟩
/-- SEQ_JUMP, counter 20 of Table 5.11, of instance `i`. -/
def cValSeqJump (i : Nat) : Counter := ⟨19, 20, i, 0x131050 + 0x100 * i⟩
/-- STATE_HOLD_CYCLES, counter 21 of Table 5.11, of instance `i`. -/
def cValStateHoldCycles (i : Nat) : Counter := ⟨19, 21, i, 0x131054 + 0x100 * i⟩

/-! Table 8.11: PLC -/

/-- PREAMBLES, counter 0 of Table 8.11, of instance `i`. -/
def cPlcRxPreambles (i : Nat) : Counter := ⟨25, 0, i, 0x191000 + 0x100 * i⟩
/-- FRAMES_OK, counter 1 of Table 8.11, of instance `i`. -/
def cPlcRxFramesOk (i : Nat) : Counter := ⟨25, 1, i, 0x191004 + 0x100 * i⟩
/-- FCS_FAIL_LINK, counter 2 of Table 8.11, of instance `i`. -/
def cPlcRxFcsFailLink (i : Nat) : Counter := ⟨25, 2, i, 0x191008 + 0x100 * i⟩
/-- DAMAGED_RECOVERED, counter 3 of Table 8.11, of instance `i`. -/
def cPlcRxDamagedRecovered (i : Nat) : Counter := ⟨25, 3, i, 0x19100C + 0x100 * i⟩
/-- DAMAGED_LOST, counter 4 of Table 8.11, of instance `i`. -/
def cPlcRxDamagedLost (i : Nat) : Counter := ⟨25, 4, i, 0x191010 + 0x100 * i⟩
/-- BLANKED_SYMBOLS, counter 5 of Table 8.11, of instance `i`. -/
def cPlcRxBlankedSymbols (i : Nat) : Counter := ⟨25, 5, i, 0x191014 + 0x100 * i⟩
/-- CROSS_COPY, counter 6 of Table 8.11, of instance `i`. -/
def cPlcRxCrossCopy (i : Nat) : Counter := ⟨25, 6, i, 0x191018 + 0x100 * i⟩
/-- NOT_FOR_US, counter 7 of Table 8.11, of instance `i`. -/
def cPlcRxNotForUs (i : Nat) : Counter := ⟨25, 7, i, 0x19101C + 0x100 * i⟩
/-- TYPE_INVALID, counter 8 of Table 8.11, of instance `i`. -/
def cPlcRxTypeInvalid (i : Nat) : Counter := ⟨25, 8, i, 0x191020 + 0x100 * i⟩
/-- RX_MUTED, counter 9 of Table 8.11, of instance `i`. -/
def cPlcRxRxMuted (i : Nat) : Counter := ⟨25, 9, i, 0x191024 + 0x100 * i⟩
/-- ZC_UNMEASURED, counter 10 of Table 8.11, of instance `i`. -/
def cPlcRxZcUnmeasured (i : Nat) : Counter := ⟨25, 10, i, 0x191028 + 0x100 * i⟩
/-- DELIVERED, counter 11 of Table 8.11, of instance `i`. -/
def cPlcRxDelivered (i : Nat) : Counter := ⟨25, 11, i, 0x19102C + 0x100 * i⟩
/-- KEEPALIVE, counter 12 of Table 8.11, of instance `i`. -/
def cPlcRxKeepalive (i : Nat) : Counter := ⟨25, 12, i, 0x191030 + 0x100 * i⟩

/-! Table 8.11: PLC -/

/-- FRAMES_TX, counter 0 of Table 8.11. -/
def cPlcFramesTx : Counter := ⟨25, 0, 3, 0x191300⟩
/-- TX_RETRY, counter 1 of Table 8.11. -/
def cPlcTxRetry : Counter := ⟨25, 1, 3, 0x191304⟩
/-- TX_FAIL, counter 2 of Table 8.11. -/
def cPlcTxFail : Counter := ⟨25, 2, 3, 0x191308⟩
/-- ACK_RX, counter 3 of Table 8.11. -/
def cPlcAckRx : Counter := ⟨25, 3, 3, 0x19130C⟩
/-- ACK_SENT, counter 4 of Table 8.11. -/
def cPlcAckSent : Counter := ⟨25, 4, 3, 0x191310⟩
/-- ACK_SKIPPED, counter 5 of Table 8.11. -/
def cPlcAckSkipped : Counter := ⟨25, 5, 3, 0x191314⟩
/-- CSMA_DEFER, counter 6 of Table 8.11. -/
def cPlcCsmaDefer : Counter := ⟨25, 6, 3, 0x191318⟩
/-- TX_TOO_LONG, counter 7 of Table 8.11. -/
def cPlcTxTooLong : Counter := ⟨25, 7, 3, 0x19131C⟩
/-- BEACONS_TX, counter 8 of Table 8.11. -/
def cPlcBeaconsTx : Counter := ⟨25, 8, 3, 0x191320⟩
/-- BEACONS_LATE, counter 9 of Table 8.11. -/
def cPlcBeaconsLate : Counter := ⟨25, 9, 3, 0x191324⟩
/-- DISCOVERIES, counter 10 of Table 8.11. -/
def cPlcDiscoveries : Counter := ⟨25, 10, 3, 0x191328⟩
/-- ROUTES_LEARNED, counter 11 of Table 8.11. -/
def cPlcRoutesLearned : Counter := ⟨25, 11, 3, 0x19132C⟩
/-- JOIN_RX, counter 12 of Table 8.11. -/
def cPlcJoinRx : Counter := ⟨25, 12, 3, 0x191330⟩
/-- JOIN_UNKNOWN, counter 13 of Table 8.11. -/
def cPlcJoinUnknown : Counter := ⟨25, 13, 3, 0x191334⟩
/-- LINK_DUP, counter 14 of Table 8.11. -/
def cPlcLinkDup : Counter := ⟨25, 14, 3, 0x191338⟩
/-- TOLLBOOK_EVICT, counter 15 of Table 8.11. -/
def cPlcTollbookEvict : Counter := ⟨25, 15, 3, 0x19133C⟩
/-- ESTIMATES_OUT, counter 16 of Table 8.11. -/
def cPlcEstimatesOut : Counter := ⟨25, 16, 3, 0x191340⟩
/-- ESTIMATE_DROP, counter 17 of Table 8.11. -/
def cPlcEstimateDrop : Counter := ⟨25, 17, 3, 0x191344⟩

/-! Table 9.9: RFM -/

/-- PREAMBLES, counter 0 of Table 9.9, of instance `i`. -/
def cRfPreambles (i : Nat) : Counter := ⟨26, 0, i, 0x1A1000 + 0x100 * i⟩
/-- FRAMES_OK, counter 1 of Table 9.9, of instance `i`. -/
def cRfFramesOk (i : Nat) : Counter := ⟨26, 1, i, 0x1A1004 + 0x100 * i⟩
/-- FCS_FAIL_LINK, counter 2 of Table 9.9, of instance `i`. -/
def cRfFcsFailLink (i : Nat) : Counter := ⟨26, 2, i, 0x1A1008 + 0x100 * i⟩
/-- MAC_FILTERED, counter 3 of Table 9.9, of instance `i`. -/
def cRfMacFiltered (i : Nat) : Counter := ⟨26, 3, i, 0x1A100C + 0x100 * i⟩
/-- NOT_FOR_US, counter 4 of Table 9.9, of instance `i`. -/
def cRfNotForUs (i : Nat) : Counter := ⟨26, 4, i, 0x1A1010 + 0x100 * i⟩
/-- TYPE_INVALID, counter 5 of Table 9.9, of instance `i`. -/
def cRfTypeInvalid (i : Nat) : Counter := ⟨26, 5, i, 0x1A1014 + 0x100 * i⟩
/-- RX_MUTED, counter 6 of Table 9.9, of instance `i`. -/
def cRfRxMuted (i : Nat) : Counter := ⟨26, 6, i, 0x1A1018 + 0x100 * i⟩
/-- CROSS_COPY, counter 7 of Table 9.9, of instance `i`. -/
def cRfCrossCopy (i : Nat) : Counter := ⟨26, 7, i, 0x1A101C + 0x100 * i⟩
/-- FRAMES_TX, counter 8 of Table 9.9, of instance `i`. -/
def cRfFramesTx (i : Nat) : Counter := ⟨26, 8, i, 0x1A1020 + 0x100 * i⟩
/-- ACK_SENT, counter 9 of Table 9.9, of instance `i`. -/
def cRfAckSent (i : Nat) : Counter := ⟨26, 9, i, 0x1A1024 + 0x100 * i⟩
/-- ACK_RX, counter 10 of Table 9.9, of instance `i`. -/
def cRfAckRx (i : Nat) : Counter := ⟨26, 10, i, 0x1A1028 + 0x100 * i⟩
/-- CSMA_FAIL, counter 11 of Table 9.9, of instance `i`. -/
def cRfCsmaFail (i : Nat) : Counter := ⟨26, 11, i, 0x1A102C + 0x100 * i⟩
/-- DUTY_HOLD, counter 12 of Table 9.9, of instance `i`. -/
def cRfDutyHold (i : Nat) : Counter := ⟨26, 12, i, 0x1A1030 + 0x100 * i⟩
/-- ACK_SKIPPED, counter 13 of Table 9.9, of instance `i`. -/
def cRfAckSkipped (i : Nat) : Counter := ⟨26, 13, i, 0x1A1034 + 0x100 * i⟩
/-- BEACONS_TX, counter 14 of Table 9.9, of instance `i`. -/
def cRfBeaconsTx (i : Nat) : Counter := ⟨26, 14, i, 0x1A1038 + 0x100 * i⟩
/-- BEACONS_LATE, counter 15 of Table 9.9, of instance `i`. -/
def cRfBeaconsLate (i : Nat) : Counter := ⟨26, 15, i, 0x1A103C + 0x100 * i⟩
/-- KEEPALIVE, counter 16 of Table 9.9, of instance `i`. -/
def cRfKeepalive (i : Nat) : Counter := ⟨26, 16, i, 0x1A1040 + 0x100 * i⟩

/-! Table 9.9: RFM -/

/-- DELIVERED, counter 0 of Table 9.9. -/
def cRfmDelivered : Counter := ⟨26, 0, 2, 0x1A1200⟩
/-- LINK_DUP, counter 1 of Table 9.9. -/
def cRfmLinkDup : Counter := ⟨26, 1, 2, 0x1A1204⟩
/-- FLOOD_COPY, counter 2 of Table 9.9. -/
def cRfmFloodCopy : Counter := ⟨26, 2, 2, 0x1A1208⟩
/-- TOLLBOOK_EVICT, counter 3 of Table 9.9. -/
def cRfmTollbookEvict : Counter := ⟨26, 3, 2, 0x1A120C⟩
/-- MESH_ACK_TX, counter 4 of Table 9.9. -/
def cRfmMeshAckTx : Counter := ⟨26, 4, 2, 0x1A1210⟩
/-- TX_RETRY, counter 5 of Table 9.9. -/
def cRfmTxRetry : Counter := ⟨26, 5, 2, 0x1A1214⟩
/-- TX_FAIL, counter 6 of Table 9.9. -/
def cRfmTxFail : Counter := ⟨26, 6, 2, 0x1A1218⟩
/-- FLOODS_TX, counter 7 of Table 9.9. -/
def cRfmFloodsTx : Counter := ⟨26, 7, 2, 0x1A121C⟩
/-- SLOT_HIT, counter 8 of Table 9.9. -/
def cRfmSlotHit : Counter := ⟨26, 8, 2, 0x1A1220⟩
/-- SLOT_MISS, counter 9 of Table 9.9. -/
def cRfmSlotMiss : Counter := ⟨26, 9, 2, 0x1A1224⟩
/-- SLOT_YIELD, counter 10 of Table 9.9. -/
def cRfmSlotYield : Counter := ⟨26, 10, 2, 0x1A1228⟩
/-- GUARD_WIDEN, counter 11 of Table 9.9. -/
def cRfmGuardWiden : Counter := ⟨26, 11, 2, 0x1A122C⟩
/-- LPL_MOVE, counter 12 of Table 9.9. -/
def cRfmLplMove : Counter := ⟨26, 12, 2, 0x1A1230⟩
/-- LPL_TX, counter 13 of Table 9.9. -/
def cRfmLplTx : Counter := ⟨26, 13, 2, 0x1A1234⟩
/-- LPL_FAIL, counter 14 of Table 9.9. -/
def cRfmLplFail : Counter := ⟨26, 14, 2, 0x1A1238⟩
/-- SLOT_RETURN, counter 15 of Table 9.9. -/
def cRfmSlotReturn : Counter := ⟨26, 15, 2, 0x1A123C⟩
/-- RESLOT, counter 16 of Table 9.9. -/
def cRfmReslot : Counter := ⟨26, 16, 2, 0x1A1240⟩
/-- TIMING_REJECT, counter 17 of Table 9.9. -/
def cRfmTimingReject : Counter := ⟨26, 17, 2, 0x1A1244⟩
/-- PENDING_TX, counter 18 of Table 9.9. -/
def cRfmPendingTx : Counter := ⟨26, 18, 2, 0x1A1248⟩
/-- LONG_WINDOW, counter 19 of Table 9.9. -/
def cRfmLongWindow : Counter := ⟨26, 19, 2, 0x1A124C⟩
/-- JOIN_RX, counter 20 of Table 9.9. -/
def cRfmJoinRx : Counter := ⟨26, 20, 2, 0x1A1250⟩
/-- JOIN_UNKNOWN, counter 21 of Table 9.9. -/
def cRfmJoinUnknown : Counter := ⟨26, 21, 2, 0x1A1254⟩
/-- TX_TOO_LONG, counter 22 of Table 9.9. -/
def cRfmTxTooLong : Counter := ⟨26, 22, 2, 0x1A1258⟩

/-! Table 12.9: HWL -/

/-- PACKETS_TX, counter 0 of Table 12.9, of instance `i`. -/
def cPortPacketsTx (i : Nat) : Counter := ⟨28, 0, i + 1, 0x1C1800 + 0x1000 * i⟩
/-- PACKETS_RX, counter 1 of Table 12.9, of instance `i`. -/
def cPortPacketsRx (i : Nat) : Counter := ⟨28, 1, i + 1, 0x1C1804 + 0x1000 * i⟩
/-- LCRC_FAIL, counter 2 of Table 12.9, of instance `i`. -/
def cPortLcrcFail (i : Nat) : Counter := ⟨28, 2, i + 1, 0x1C1808 + 0x1000 * i⟩
/-- NAK_SENT, counter 3 of Table 12.9, of instance `i`. -/
def cPortNakSent (i : Nat) : Counter := ⟨28, 3, i + 1, 0x1C180C + 0x1000 * i⟩
/-- NAK_RX, counter 4 of Table 12.9, of instance `i`. -/
def cPortNakRx (i : Nat) : Counter := ⟨28, 4, i + 1, 0x1C1810 + 0x1000 * i⟩
/-- REPLAYS, counter 5 of Table 12.9, of instance `i`. -/
def cPortReplays (i : Nat) : Counter := ⟨28, 5, i + 1, 0x1C1814 + 0x1000 * i⟩
/-- RETRAINS, counter 6 of Table 12.9, of instance `i`. -/
def cPortRetrains (i : Nat) : Counter := ⟨28, 6, i + 1, 0x1C1818 + 0x1000 * i⟩
/-- LINK_DOWN, counter 7 of Table 12.9, of instance `i`. -/
def cPortLinkDown (i : Nat) : Counter := ⟨28, 7, i + 1, 0x1C181C + 0x1000 * i⟩
/-- HELLO_FAIL, counter 8 of Table 12.9, of instance `i`. -/
def cPortHelloFail (i : Nat) : Counter := ⟨28, 8, i + 1, 0x1C1820 + 0x1000 * i⟩
/-- FOREIGN, counter 9 of Table 12.9, of instance `i`. -/
def cPortForeign (i : Nat) : Counter := ⟨28, 9, i + 1, 0x1C1824 + 0x1000 * i⟩
/-- TYPE_INVALID, counter 10 of Table 12.9, of instance `i`. -/
def cPortTypeInvalid (i : Nat) : Counter := ⟨28, 10, i + 1, 0x1C1828 + 0x1000 * i⟩
/-- CREDIT_STALL_US, counter 11 of Table 12.9, of instance `i`. -/
def cPortCreditStallUs (i : Nat) : Counter := ⟨28, 11, i + 1, 0x1C182C + 0x1000 * i⟩

/-! Table 13.13: ETH -/

/-- FRAMES_RX, counter 0 of Table 13.13, of instance `i`. -/
def cEthFramesRx (i : Nat) : Counter := ⟨27, 0, i, 0x1B1000 + 0x2000 * i⟩
/-- FRAMES_TX, counter 1 of Table 13.13, of instance `i`. -/
def cEthFramesTx (i : Nat) : Counter := ⟨27, 1, i, 0x1B1004 + 0x2000 * i⟩
/-- FCS_FAIL, counter 2 of Table 13.13, of instance `i`. -/
def cEthFcsFail (i : Nat) : Counter := ⟨27, 2, i, 0x1B1008 + 0x2000 * i⟩
/-- FILTERED, counter 3 of Table 13.13, of instance `i`. -/
def cEthFiltered (i : Nat) : Counter := ⟨27, 3, i, 0x1B100C + 0x2000 * i⟩
/-- VLAN_DROP, counter 4 of Table 13.13, of instance `i`. -/
def cEthVlanDrop (i : Nat) : Counter := ⟨27, 4, i, 0x1B1010 + 0x2000 * i⟩
/-- OVERSIZE, counter 5 of Table 13.13, of instance `i`. -/
def cEthOversize (i : Nat) : Counter := ⟨27, 5, i, 0x1B1014 + 0x2000 * i⟩
/-- TRUNCATED_DISCARD, counter 6 of Table 13.13, of instance `i`. -/
def cEthTruncatedDiscard (i : Nat) : Counter := ⟨27, 6, i, 0x1B1018 + 0x2000 * i⟩
/-- GATE_TOO_LONG, counter 7 of Table 13.13, of instance `i`. -/
def cEthGateTooLong (i : Nat) : Counter := ⟨27, 7, i, 0x1B101C + 0x2000 * i⟩
/-- LAUNCH_LATE, counter 8 of Table 13.13, of instance `i`. -/
def cEthLaunchLate (i : Nat) : Counter := ⟨27, 8, i, 0x1B1020 + 0x2000 * i⟩
/-- LAUNCH_DISCARD, counter 9 of Table 13.13, of instance `i`. -/
def cEthLaunchDiscard (i : Nat) : Counter := ⟨27, 9, i, 0x1B1024 + 0x2000 * i⟩
/-- CMAC_FAIL, counter 10 of Table 13.13, of instance `i`. -/
def cEthCmacFail (i : Nat) : Counter := ⟨27, 10, i, 0x1B1028 + 0x2000 * i⟩
/-- UNKNOWN_PEER, counter 11 of Table 13.13, of instance `i`. -/
def cEthUnknownPeer (i : Nat) : Counter := ⟨27, 11, i, 0x1B102C + 0x2000 * i⟩
/-- MSG_RESENT, counter 12 of Table 13.13, of instance `i`. -/
def cEthMsgResent (i : Nat) : Counter := ⟨27, 12, i, 0x1B1030 + 0x2000 * i⟩
/-- MSG_DUP, counter 13 of Table 13.13, of instance `i`. -/
def cEthMsgDup (i : Nat) : Counter := ⟨27, 13, i, 0x1B1034 + 0x2000 * i⟩
/-- PEER_DOWN, counter 14 of Table 13.13, of instance `i`. -/
def cEthPeerDown (i : Nat) : Counter := ⟨27, 14, i, 0x1B1038 + 0x2000 * i⟩
/-- FORMAT, counter 15 of Table 13.13, of instance `i`. -/
def cEthFormat (i : Nat) : Counter := ⟨27, 15, i, 0x1B103C + 0x2000 * i⟩
/-- PTP_DISCARDED, counter 16 of Table 13.13, of instance `i`. -/
def cEthPtpDiscarded (i : Nat) : Counter := ⟨27, 16, i, 0x1B1040 + 0x2000 * i⟩
/-- PAUSE_RX, counter 17 of Table 13.13, of instance `i`. -/
def cEthPauseRx (i : Nat) : Counter := ⟨27, 17, i, 0x1B1044 + 0x2000 * i⟩

/-! RST_CNT (spec 15) and ACC_VIOL_CNT (spec 14) -/

/-- RST_CNT_k: resets of class k. -/
def cRst (k : Nat) : Counter := ⟨2, k, 0, 0x020100 + 4 * k⟩
/-- HOLD_TIMEOUTS, RST_CNT_9. -/
def cRstHoldTimeouts : Counter := cRst 9
/-- RESETS_DISCARDED, RST_CNT_10. -/
def cRstResetsDiscarded : Counter := cRst 10
/-- SWP_ESCALATED, RST_CNT_11. -/
def cRstSwpEscalated : Counter := cRst 11
/-- ACC_VIOL_CNT_m: violations by master m. -/
def cAccViol (m : Nat) : Counter := ⟨8, 0, m, 0x080020 + 4 * m⟩

end Sys2Proof.Machine
end

