-- ==== Sys2Proof/Machine/Items.lean ====
section
/-!
DEFINITION. Every configuration item of the spec (Tables 2.8, 3.4, 4.16, 5.9, 6.12, 7.12, 7.13, 8.10, 9.8, 10.8, 11.7,
12.7, 13.12, 14.9, 15.9, 16.13): its section type and identifier, its length, its range and its default.
-/

namespace Sys2Proof.Machine

/-- An item definition: section type, first identifier, how many consecutive identifiers it covers, length, the range
of a plain number (signed), whether it is a plain number, and its default as little-endian bytes. -/
structure ItemDef where
  typ : Nat
  id : Nat
  count : Nat
  len : Nat
  lo : Int
  hi : Int
  number : Bool
  dflt : List Byte
  deriving DecidableEq, Repr

/-- The key under which an item's applied value is held. -/
def itemKey (typ id : Nat) : Nat := typ * 0x10000 + id

/-- Default of a meter group (Table 4.17): transparent, PARSER 1, SC_ALLOWED 0x01, scales 0, −1, −2. -/
def groupDefault : List Byte := [0, 1, 1, 0, 0, 0xFF, 0xFE, 0, 0, 0, 0, 0, 0, 0, 0, 0]

/-- Items of the SYSTEM section, type 0x0001. -/
def itemsSystem : List ItemDef := [
  ⟨1, 0x0001, 1, 4, 0, 63, true, leBytes 4 0⟩,
  ⟨1, 0x0002, 1, 32, 0, 0, false, leBytes 32 0⟩,
  ⟨1, 0x0003, 1, 4, 0, 60, true, leBytes 4 0⟩,
  ⟨1, 0x0004, 1, 4, 1, 12, true, leBytes 4 12⟩,
  ⟨1, 0x8001, 1, 4, 600, 1200, true, leBytes 4 1200⟩]

/-- Items of the TIME section, type 0x0002. -/
def itemsTime : List ItemDef := [
  ⟨2, 0x0001, 1, 4, 5, 60, true, leBytes 4 15⟩,
  ⟨2, 0x0002, 1, 4, -43200, 43200, true, leBytes 4 0⟩,
  ⟨2, 0x0003, 1, 4, 0, 100, true, leBytes 4 37⟩,
  ⟨2, 0x0004, 1, 4, 0, 4, true, leBytes 4 3⟩,
  ⟨2, 0x0005, 1, 4, 1, 10000000, true, leBytes 4 50000⟩,
  ⟨2, 0x0006, 1, 4, 0, 127, true, leBytes 4 0⟩,
  ⟨2, 0x0007, 1, 4, 0, 1, true, leBytes 4 0⟩,
  ⟨2, 0x0008, 1, 4, 0, 3, true, leBytes 4 0⟩,
  ⟨2, 0x0009, 1, 4, -100000, 100000, true, leBytes 4 0⟩,
  ⟨2, 0x000A, 1, 4, -100000, 100000, true, leBytes 4 0⟩,
  ⟨2, 0x000B, 1, 12, 0, 0, false, leBytes 12 0⟩,
  ⟨2, 0x000C, 1, 4, 0, 4000000000, true, leBytes 4 0⟩,
  ⟨2, 0x000D, 1, 4, 0, 3999999900, true, leBytes 4 1000⟩,
  ⟨2, 0x000E, 1, 12, 0, 0, false, leBytes 12 0⟩,
  ⟨2, 0x000F, 1, 4, 0, 4000000000, true, leBytes 4 0⟩,
  ⟨2, 0x0010, 1, 4, 0, 3999999900, true, leBytes 4 1000⟩,
  ⟨2, 0x0011, 1, 4, -10000, 10000, true, leBytes 4 0⟩,
  ⟨2, 0x0012, 1, 4, 0, 1000000, true, leBytes 4 1000⟩,
  ⟨2, 0x8001, 1, 4, 12, 40, true, leBytes 4 15⟩,
  ⟨2, 0x8002, 1, 4, 2, 32, true, leBytes 4 4⟩,
  ⟨2, 0x8003, 1, 4, 1000, 5000, true, leBytes 4 5000⟩,
  ⟨2, 0x8004, 1, 4, 5, 100, true, leBytes 4 20⟩,
  ⟨2, 0x8005, 1, 4, 0, 262144, true, leBytes 4 45875⟩,
  ⟨2, 0x8006, 1, 4, 0, 262144, true, leBytes 4 19661⟩,
  ⟨2, 0x8007, 1, 4, 100, 100000, true, leBytes 4 1000⟩]

/-- Items of the METER_GROUPS section, type 0x0003. -/
def itemsMeterGroups : List ItemDef := [
  ⟨3, 0x0001, 1, 4, 1, 96, true, leBytes 4 1⟩,
  ⟨3, 0x0002, 1, 4, 0, 60000, true, leBytes 4 500⟩,
  ⟨3, 0x0003, 1, 4, 1024, 32768, true, leBytes 4 32768⟩,
  ⟨3, 0x0100, 16, 16, 0, 0, false, groupDefault⟩,
  ⟨3, 0x0200, 16, 36, 0, 0, false, leBytes 36 0⟩,
  ⟨3, 0x0300, 256, 12, 0, 0, false, leBytes 12 0⟩]

/-- Items of the VALIDATION section, type 0x0004. -/
def itemsValidation : List ItemDef := [
  ⟨4, 0x0001, 1, 4, 1, 2, true, leBytes 4 2⟩,
  ⟨4, 0x0002, 1, 4, 0, 2, true, leBytes 4 2⟩,
  ⟨4, 0x0003, 1, 4, 0, 2, true, leBytes 4 1⟩,
  ⟨4, 0x0004, 1, 4, 0, 1, true, leBytes 4 1⟩,
  ⟨4, 0x0005, 1, 4, 0, 2, true, leBytes 4 1⟩,
  ⟨4, 0x0100, 16, 8, 0, 0, false, leBytes 2 2300 ++ leBytes 2 6000 ++ leBytes 4 1⟩,
  ⟨4, 0x8001, 1, 4, 1, 2147483647, true, leBytes 4 1000000⟩,
  ⟨4, 0x8002, 1, 4, 0, 32, true, leBytes 4 32⟩,
  ⟨4, 0x8003, 1, 4, 0, 86400, true, leBytes 4 60⟩,
  ⟨4, 0x8004, 1, 4, 0, 2592000, true, leBytes 4 172800⟩,
  ⟨4, 0x8005, 1, 4, 0, 200, true, leBytes 4 25⟩,
  ⟨4, 0x8006, 1, 4, 0, 3600, true, leBytes 4 60⟩,
  ⟨4, 0x8007, 1, 4, 500, 1000, true, leBytes 4 800⟩,
  ⟨4, 0x8008, 1, 4, 1000, 1500, true, leBytes 4 1150⟩,
  ⟨4, 0x8009, 1, 4, 0, 100, true, leBytes 4 20⟩]

/-- Items of the BILLING section, type 0x0005. -/
def itemsBilling : List ItemDef := [
  ⟨5, 0x0001, 1, 4, 1000, 6000, true, leBytes 4 2300⟩,
  ⟨5, 0x0002, 1, 4, 5, 20000, true, leBytes 4 1000⟩,
  ⟨5, 0x0003, 1, 4, 1, 5, true, leBytes 4 5⟩,
  ⟨5, 0x0004, 1, 4, 1000, 1000000, true, leBytes 4 1000⟩,
  ⟨5, 0x0005, 1, 4, 0, 15, true, leBytes 4 0⟩,
  ⟨5, 0x0006, 1, 4, 0, 2147483647, true, leBytes 4 10000000⟩,
  ⟨5, 0x0007, 1, 4, 0, 2147483647, true, leBytes 4 0⟩,
  ⟨5, 0x0008, 1, 4, 0, 1, true, leBytes 4 0⟩,
  ⟨5, 0x0009, 1, 4, 0, 1439, true, leBytes 4 0⟩,
  ⟨5, 0x000A, 1, 4, 0, 1439, true, leBytes 4 0⟩,
  ⟨5, 0x000B, 1, 4, 0, 2592000, true, leBytes 4 172800⟩,
  ⟨5, 0x000C, 1, 4, 1, 96, true, leBytes 4 4⟩,
  ⟨5, 0x000D, 1, 4, 0, 604800, true, leBytes 4 3600⟩,
  ⟨5, 0x000E, 1, 132, 0, 0, false, leBytes 132 0⟩,
  ⟨5, 0x000F, 1, 4, 100, 4000, true, leBytes 4 1000⟩,
  ⟨5, 0x8001, 1, 36, 0, 0, false, (List.replicate 7 (leBytes 4 0x40000000)).flatten ++ leBytes 8 0⟩,
  ⟨5, 0x8002, 1, 4, 1, 64, true, leBytes 4 8⟩,
  ⟨5, 0x8003, 1, 4, 16, 256, true, leBytes 4 256⟩]

/-- Items of the BALANCE section, type 0x0006. -/
def itemsBalance : List ItemDef := [
  ⟨6, 0x0001, 1, 4, 60, 10800, true, leBytes 4 600⟩,
  ⟨6, 0x0002, 1, 4, 4, 48, true, leBytes 4 16⟩,
  ⟨6, 0x0003, 1, 4, 1, 1000, true, leBytes 4 500⟩,
  ⟨6, 0x0004, 1, 4, 1, 365, true, leBytes 4 30⟩,
  ⟨6, 0x0005, 1, 4, 60, 3600, true, leBytes 4 900⟩,
  ⟨6, 0x0006, 1, 4, 50, 3000, true, leBytes 4 250⟩,
  ⟨6, 0x0007, 1, 4, 0, 1, true, leBytes 4 0⟩,
  ⟨6, 0x0008, 1, 4, 0, 600, true, leBytes 4 60⟩,
  ⟨6, 0x0100, 256, 24, 0, 0, false, leBytes 24 0⟩,
  ⟨6, 0x8001, 1, 4, 182, 5461, true, leBytes 4 2731⟩,
  ⟨6, 0x8002, 1, 4, 2, 64, true, leBytes 4 8⟩,
  ⟨6, 0x8003, 1, 4, 1, 8, true, leBytes 4 4⟩,
  ⟨6, 0x8004, 1, 4, 64, 1280, true, leBytes 4 192⟩,
  ⟨6, 0x8005, 1, 4, 2, 64, true, leBytes 4 8⟩,
  ⟨6, 0x8006, 1, 4, 2, 24, true, leBytes 4 8⟩,
  ⟨6, 0x8007, 1, 4, 5, 90, true, leBytes 4 30⟩,
  ⟨6, 0x8008, 1, 4, 500, 1000, true, leBytes 4 800⟩,
  ⟨6, 0x8009, 1, 4, 0, 500, true, leBytes 4 20⟩,
  ⟨6, 0x800A, 1, 4, 1, 1000, true, leBytes 4 20⟩,
  ⟨6, 0x800B, 1, 4, 1, 50, true, leBytes 4 5⟩,
  ⟨6, 0x800C, 1, 4, 0, 10000, true, leBytes 4 10⟩,
  ⟨6, 0x800D, 1, 16, 0, 0, false, leBytes 2 200 ++ leBytes 2 150 ++ leBytes 2 150 ++ leBytes 2 150 ++ leBytes 2 100 ++ leBytes 2 400 ++ leBytes 4 0⟩]

/-- Items of the POLICY section, type 0x0007. -/
def itemsPolicy : List ItemDef := [
  ⟨7, 0x0001, 1, 4, 0, 1000, true, leBytes 4 0⟩,
  ⟨7, 0x0002, 1, 4, 0, 1000, true, leBytes 4 0⟩,
  ⟨7, 0x0003, 1, 4, 1, 6, true, leBytes 4 2⟩,
  ⟨7, 0x0004, 1, 4, 0, 1000, true, leBytes 4 10⟩,
  ⟨7, 0x0005, 1, 4, 0, 1, true, leBytes 4 1⟩,
  ⟨7, 0x0006, 1, 32, 0, 0, false, List.replicate 32 0xFF#8⟩]

/-- Items of the PLC section, type 0x0008. -/
def itemsPlc : List ItemDef := [
  ⟨8, 0x0001, 1, 4, 0, 1, true, leBytes 4 0⟩,
  ⟨8, 0x0002, 1, 4, 0, 15, true, leBytes 4 0⟩,
  ⟨8, 0x0003, 1, 4, 0, 2, true, leBytes 4 0⟩,
  ⟨8, 0x0004, 1, 4, 0, 30, true, leBytes 4 0⟩,
  ⟨8, 0x0005, 1, 4, 0, 7, true, leBytes 4 3⟩,
  ⟨8, 0x0006, 1, 4, 0, 60000, true, leBytes 4 1500⟩,
  ⟨8, 0x0007, 1, 4, 0, 65535, true, leBytes 4 16384⟩,
  ⟨8, 0x0008, 1, 4, 0, 7, true, leBytes 4 3⟩,
  ⟨8, 0x0009, 1, 4, 60, 140, true, leBytes 4 120⟩,
  ⟨8, 0x000A, 1, 4, 1, 15, true, leBytes 4 15⟩,
  ⟨8, 0x000B, 1, 4, 1, 8, true, leBytes 4 2⟩,
  ⟨8, 0x000C, 1, 4, 1, 30, true, leBytes 4 4⟩,
  ⟨8, 0x8001, 1, 4, 6, 30, true, leBytes 4 12⟩,
  ⟨8, 0x8002, 1, 4, 0, 32, true, leBytes 4 6⟩,
  ⟨8, 0x8003, 1, 4, 100, 1000, true, leBytes 4 400⟩,
  ⟨8, 0x8004, 1, 4, 10, 300, true, leBytes 4 30⟩,
  ⟨8, 0x8005, 1, 4, 0, 0, false, leBytes 4 530480⟩,
  ⟨8, 0x8006, 1, 4, 0, 0, false, leBytes 4 85198339⟩,
  ⟨8, 0x8007, 1, 4, 1, 8, true, leBytes 4 3⟩]

/-- Items of the RADIO section, type 0x0009. -/
def itemsRadio : List ItemDef := [
  ⟨9, 0x0001, 1, 4, 0, 2, true, leBytes 4 0⟩,
  ⟨9, 0x0002, 1, 4, 0, 2, true, leBytes 4 0⟩,
  ⟨9, 0x0003, 1, 12, 0, 0, false, leBytes 4 863125 ++ leBytes 2 200 ++ leBytes 2 0 ++ leBytes 2 3 ++ leBytes 2 0⟩,
  ⟨9, 0x0004, 1, 12, 0, 0, false, leBytes 4 863125 ++ leBytes 2 200 ++ leBytes 2 10 ++ leBytes 2 13 ++ leBytes 2 0⟩,
  ⟨9, 0x0005, 1, 4, 0, 65534, true, leBytes 4 29824⟩,
  ⟨9, 0x0006, 1, 4, 0, 15, true, leBytes 4 0⟩,
  ⟨9, 0x0007, 1, 4, -10, 14, true, leBytes 4 14⟩,
  ⟨9, 0x0008, 1, 4, 1, 15, true, leBytes 4 6⟩,
  ⟨9, 0x0009, 1, 4, 0, 4, true, leBytes 4 1⟩,
  ⟨9, 0x000A, 1, 4, 0, 7, true, leBytes 4 3⟩,
  ⟨9, 0x000B, 1, 4, 0, 60000, true, leBytes 4 3000⟩,
  ⟨9, 0x000C, 1, 4, 0, 65535, true, leBytes 4 32768⟩,
  ⟨9, 0x000D, 1, 4, 0, 7, true, leBytes 4 3⟩,
  ⟨9, 0x000E, 1, 4, 0, 1, true, leBytes 4 0⟩,
  ⟨9, 0x000F, 1, 4, 40, 1000, true, leBytes 4 60⟩,
  ⟨9, 0x0010, 1, 4, 1, 1024, true, leBytes 4 1024⟩,
  ⟨9, 0x0011, 1, 4, 250, 5000, true, leBytes 4 1000⟩,
  ⟨9, 0x0012, 1, 4, 0, 1000, true, leBytes 4 100⟩,
  ⟨9, 0x0013, 1, 4, 0, 1, true, leBytes 4 1⟩,
  ⟨9, 0x0014, 1, 4, 4, 1000, true, leBytes 4 8⟩,
  ⟨9, 0x8001, 1, 4, 500, 10000, true, leBytes 4 2000⟩,
  ⟨9, 0x8002, 1, 4, 500, 30000, true, leBytes 4 20000⟩,
  ⟨9, 0x8003, 1, 4, -110, -60, true, leInt 4 (-90)⟩,
  ⟨9, 0x8004, 1, 4, 0, 0, false, leBytes 4 263427⟩,
  ⟨9, 0x8005, 1, 4, 20, 60, true, leBytes 4 30⟩,
  ⟨9, 0x8006, 1, 4, 100, 2000, true, leBytes 4 500⟩,
  ⟨9, 0x8007, 1, 4, 30, 3600, true, leBytes 4 30⟩,
  ⟨9, 0x8008, 1, 4, 0, 0, false, leBytes 4 655380⟩]

/-- Items of the SCHEDULES section, type 0x000A. -/
def itemsSchedules : List ItemDef := [
  ⟨10, 0x0001, 1, 4, 1, 60, true, leBytes 4 6⟩,
  ⟨10, 0x0002, 1, 4, 1, 120, true, leBytes 4 4⟩,
  ⟨10, 0x0003, 1, 4, 5, 3600, true, leBytes 4 120⟩,
  ⟨10, 0x0004, 1, 4, 0, 7, true, leBytes 4 2⟩,
  ⟨10, 0x0005, 1, 4, 0, 30000, true, leBytes 4 100⟩,
  ⟨10, 0x0100, 32, 16, 0, 0, false, leBytes 16 0⟩,
  ⟨10, 0x8001, 1, 4, 0, 60, true, leBytes 4 0⟩,
  ⟨10, 0x8002, 1, 4, 1, 256, true, leBytes 4 32⟩,
  ⟨10, 0x8101, 26, 4, 0, 0, false, leBytes 4 0xFFFFFFFF⟩]

/-- Items of the STORE section, type 0x000B. -/
def itemsStore : List ItemDef := [
  ⟨11, 0x0001, 1, 4, 50, 500, true, leBytes 4 70⟩,
  ⟨11, 0x0002, 1, 4, 0, 10000, true, leBytes 4 1000⟩,
  ⟨11, 0x0003, 1, 4, 500, 1000, true, leBytes 4 900⟩,
  ⟨11, 0x0004, 1, 4, 16, 4096, true, leBytes 4 256⟩,
  ⟨11, 0x0005, 1, 4, 64, 65536, true, leBytes 4 2048⟩,
  ⟨11, 0x0006, 1, 4, 16, 4096, true, leBytes 4 256⟩,
  ⟨11, 0x8001, 1, 4, 5, 100, true, leBytes 4 20⟩,
  ⟨11, 0x8002, 1, 4, 10, 150, true, leBytes 4 40⟩,
  ⟨11, 0x8003, 1, 4, 10000, 1000000, true, leBytes 4 100000⟩,
  ⟨11, 0x8004, 1, 4, 16, 64, true, leBytes 4 48⟩,
  ⟨11, 0x8005, 1, 4, 30, 3650, true, leBytes 4 180⟩,
  ⟨11, 0x8006, 1, 4, 100, 10000, true, leBytes 4 500⟩,
  ⟨11, 0x8007, 1, 4, 1, 64, true, leBytes 4 8⟩]

/-- Items of the FABRIC section, type 0x000C. -/
def itemsFabric : List ItemDef := [
  ⟨12, 0x0001, 1, 4, 1, 8, true, leBytes 4 2⟩,
  ⟨12, 0x0002, 1, 4, 1, 8, true, leBytes 4 1⟩,
  ⟨12, 0x0003, 1, 4, 1, 4294967295, true, leBytes 4 1⟩,
  ⟨12, 0x0004, 1, 4, 0, 1, true, leBytes 4 0⟩,
  ⟨12, 0x0005, 1, 4, 0, 255, true, leBytes 4 0⟩,
  ⟨12, 0x0006, 1, 4, 0, 255, true, leBytes 4 255⟩,
  ⟨12, 0x0007, 1, 4, 0, 15, true, leBytes 4 15⟩,
  ⟨12, 0x0008, 1, 4, 20, 5000, true, leBytes 4 100⟩,
  ⟨12, 0x8001, 1, 4, 1024, 16384, true, leBytes 4 8192⟩,
  ⟨12, 0x8002, 1, 4, 1, 1000, true, leBytes 4 5⟩,
  ⟨12, 0x8003, 1, 4, 1, 100, true, leBytes 4 10⟩,
  ⟨12, 0x8004, 1, 4, 1, 16, true, leBytes 4 3⟩,
  ⟨12, 0x8005, 1, 4, 500, 50000, true, leBytes 4 2500⟩]

/-- Items of the HOST section, type 0x000D. -/
def itemsHost : List ItemDef := [
  ⟨13, 0x0001, 1, 4, 64, 65536, true, leBytes 4 4096⟩,
  ⟨13, 0x0002, 1, 8, 0, 0, false, leBytes 8 1030792151040⟩,
  ⟨13, 0x0003, 1, 4, 0, 60000, true, leBytes 4 1000⟩,
  ⟨13, 0x0004, 1, 4, 0, 7, true, leBytes 4 0⟩,
  ⟨13, 0x8001, 1, 8, 0, 0, false, leBytes 8 214748364816⟩]

/-- Items of the ETHERNET section, type 0x000E. -/
def itemsEthernet : List ItemDef := [
  ⟨14, 0x0001, 1, 4, 0, 3, true, leBytes 4 0⟩,
  ⟨14, 0x0002, 1, 8, 0, 0, false, leBytes 8 0⟩,
  ⟨14, 0x0003, 1, 4, 1518, 9018, true, leBytes 4 1518⟩,
  ⟨14, 0x0004, 1, 4, 0, 4094, true, leBytes 4 0⟩,
  ⟨14, 0x0005, 1, 4, 0, 4294967295, true, leBytes 4 0⟩,
  ⟨14, 0x0006, 1, 48, 0, 0, false, leBytes 48 0⟩,
  ⟨14, 0x0007, 1, 8, 0, 0, false, leBytes 8 0⟩,
  ⟨14, 0x0008, 1, 4, 0, 1, true, leBytes 4 0⟩,
  ⟨14, 0x0009, 1, 532, 0, 0, false, leBytes 532 0⟩,
  ⟨14, 0x000A, 1, 4, 0, 0, false, leBytes 4 33818119⟩,
  ⟨14, 0x0041, 1, 4, 0, 3, true, leBytes 4 0⟩,
  ⟨14, 0x0042, 1, 8, 0, 0, false, leBytes 8 0⟩,
  ⟨14, 0x0043, 1, 4, 1518, 9018, true, leBytes 4 1518⟩,
  ⟨14, 0x0044, 1, 4, 0, 4094, true, leBytes 4 0⟩,
  ⟨14, 0x0045, 1, 4, 0, 4294967295, true, leBytes 4 0⟩,
  ⟨14, 0x0046, 1, 48, 0, 0, false, leBytes 48 0⟩,
  ⟨14, 0x0047, 1, 8, 0, 0, false, leBytes 8 0⟩,
  ⟨14, 0x0048, 1, 4, 0, 1, true, leBytes 4 0⟩,
  ⟨14, 0x0049, 1, 532, 0, 0, false, leBytes 532 0⟩,
  ⟨14, 0x004A, 1, 4, 0, 0, false, leBytes 4 33818119⟩,
  ⟨14, 0x0020, 1, 4, 1536, 65535, true, leBytes 4 34997⟩,
  ⟨14, 0x0100, 32, 16, 0, 0, false, leBytes 16 0⟩,
  ⟨14, 0x8001, 1, 4, 1, 1000, true, leBytes 4 20⟩,
  ⟨14, 0x8002, 1, 4, 1, 256, true, leBytes 4 64⟩]

/-- Items of the SIDEBAND section, type 0x000F. -/
def itemsSideband : List ItemDef := [
  ⟨15, 0x0001, 1, 4, 0, 1, true, leBytes 4 1⟩,
  ⟨15, 0x0002, 1, 8, 0, 0, false, leBytes 8 0⟩,
  ⟨15, 0x0003, 1, 4, 1536, 65535, true, leBytes 4 34997⟩]

/-- Items of the SECURITY section, type 0x0010. -/
def itemsSecurity : List ItemDef := [
  ⟨16, 0x0001, 1, 516, 0, 0, false, leBytes 516 0⟩,
  ⟨16, 0x0002, 1, 128, 0, 0, false, leBytes 128 0⟩,
  ⟨16, 0x0010, 4, 64, 0, 0, false, leBytes 64 0⟩,
  ⟨16, 0x0014, 1, 4, 0, 15, true, leBytes 4 0⟩,
  ⟨16, 0x0015, 1, 4, 0, 0, false, leBytes 4 0⟩,
  ⟨16, 0x0016, 1, 4, 0, 1, true, leBytes 4 0⟩,
  ⟨16, 0x0017, 1, 4, 0, 4294967295, true, leBytes 4 0⟩,
  ⟨16, 0x0108, 248, 240, 0, 0, false, leBytes 240 0⟩,
  ⟨16, 0x0200, 1024, 12, 0, 0, false, leBytes 12 0⟩]

/-- Items of the POWER section, type 0x0011. -/
def itemsPower : List ItemDef := [
  ⟨17, 0x0001, 1, 4, 0, 600, true, leBytes 4 30⟩,
  ⟨17, 0x0002, 1, 4, 0, 2, true, leBytes 4 2⟩,
  ⟨17, 0x0003, 1, 4, 1, 12, true, leBytes 4 4⟩,
  ⟨17, 0x0004, 1, 4, 1, 12, true, leBytes 4 4⟩,
  ⟨17, 0x0005, 1, 4, 0, 15000, true, leBytes 4 0⟩,
  ⟨17, 0x0006, 1, 4, 1000, 10000, true, leBytes 4 3000⟩,
  ⟨17, 0x0007, 1, 4, 1500, 10000, true, leBytes 4 3000⟩,
  ⟨17, 0x0008, 1, 4, 40, 120, true, leBytes 4 95⟩,
  ⟨17, 0x8001, 1, 4, 60, 125, true, leBytes 4 105⟩,
  ⟨17, 0x8002, 1, 4, 61, 125, true, leBytes 4 118⟩,
  ⟨17, 0x8003, 1, 4, 62, 125, true, leBytes 4 125⟩,
  ⟨17, 0x8004, 1, 4, 1, 10, true, leBytes 4 3⟩,
  ⟨17, 0x8005, 1, 4, 400, 1200, true, leBytes 4 800⟩,
  ⟨17, 0x8006, 1, 4, 1000, 30000, true, leBytes 4 4000⟩]

/-- Items of the UPDATE section, type 0x0012. -/
def itemsUpdate : List ItemDef := [
  ⟨18, 0x0001, 1, 4, 1, 8, true, leBytes 4 3⟩,
  ⟨18, 0x0002, 1, 4, 600, 604800, true, leBytes 4 86400⟩,
  ⟨18, 0x0003, 1, 4, 0, 86400, true, leBytes 4 600⟩,
  ⟨18, 0x0004, 1, 4, 0, 15, true, leBytes 4 0⟩,
  ⟨18, 0x0005, 1, 4, 10, 3600, true, leBytes 4 600⟩,
  ⟨18, 0x0006, 1, 4, 0, 1000, true, leBytes 4 50⟩]

/-- Items of the EVENTS section, type 0x0013. -/
def itemsEvents : List ItemDef := [
]

/-- The items of a section type. -/
def itemsOf : Nat → List ItemDef
  | 1 => itemsSystem
  | 2 => itemsTime
  | 3 => itemsMeterGroups
  | 4 => itemsValidation
  | 5 => itemsBilling
  | 6 => itemsBalance
  | 7 => itemsPolicy
  | 8 => itemsPlc
  | 9 => itemsRadio
  | 10 => itemsSchedules
  | 11 => itemsStore
  | 12 => itemsFabric
  | 13 => itemsHost
  | 14 => itemsEthernet
  | 15 => itemsSideband
  | 16 => itemsSecurity
  | 17 => itemsPower
  | 18 => itemsUpdate
  | 19 => itemsEvents
  | _ => []

/-- The definition of an item, if its identifier is defined for the section type (R44). -/
def itemDef (typ id : Nat) : Option ItemDef := (itemsOf typ).find? fun d => decide (d.id ≤ id) && decide (id < d.id + d.count)

/-! ## The items by name -/

/-- SYSTEM.NODE_ID. -/
def iNodeId : Nat := 0x10001
/-- SYSTEM.SITE_NAME. -/
def iSiteName : Nat := 0x10002
/-- SYSTEM.MAINS_NOMINAL. -/
def iMainsNominal : Nat := 0x10003
/-- SYSTEM.ACTIVE_CORES. -/
def iActiveCores : Nat := 0x10004
/-- SYSTEM.SYS_CLOCK_CAP. -/
def iSysClockCap : Nat := 0x18001
/-- TIME.INTERVAL_MIN. -/
def iIntervalMin : Nat := 0x20001
/-- TIME.INTERVAL_ALIGN. -/
def iIntervalAlign : Nat := 0x20002
/-- TIME.UTC_OFFSET. -/
def iUtcOffset : Nat := 0x20003
/-- TIME.TIME_SOURCE. -/
def iTimeSource : Nat := 0x20004
/-- TIME.JUMP_THRESHOLD. -/
def iJumpThreshold : Nat := 0x20005
/-- TIME.PTP_DOMAIN. -/
def iPtpDomain : Nat := 0x20006
/-- TIME.PTP_TRANSPORT. -/
def iPtpTransport : Nat := 0x20007
/-- TIME.TS_MODE. -/
def iTsMode : Nat := 0x20008
/-- TIME.ASYMMETRY_ETH0. -/
def iAsymmetryEth0 : Nat := 0x20009
/-- TIME.ASYMMETRY_ETH1. -/
def iAsymmetryEth1 : Nat := 0x2000A
/-- TIME.PULSE0_START. -/
def iPulse0Start : Nat := 0x2000B
/-- TIME.PULSE0_PERIOD. -/
def iPulse0Period : Nat := 0x2000C
/-- TIME.PULSE0_WIDTH. -/
def iPulse0Width : Nat := 0x2000D
/-- TIME.PULSE1_START. -/
def iPulse1Start : Nat := 0x2000E
/-- TIME.PULSE1_PERIOD. -/
def iPulse1Period : Nat := 0x2000F
/-- TIME.PULSE1_WIDTH. -/
def iPulse1Width : Nat := 0x20010
/-- TIME.RTC_TRIM. -/
def iRtcTrim : Nat := 0x20011
/-- TIME.LAUNCH_LATE_LIMIT. -/
def iLaunchLateLimit : Nat := 0x20012
/-- TIME.LOSS_PERIODS. -/
def iLossPeriods : Nat := 0x28001
/-- TIME.RESTORE_COUNT. -/
def iRestoreCount : Nat := 0x28002
/-- TIME.FREQ_WINDOW. -/
def iFreqWindow : Nat := 0x28003
/-- TIME.ZC_HYSTERESIS. -/
def iZcHysteresis : Nat := 0x28004
/-- TIME.SERVO_KP. -/
def iServoKp : Nat := 0x28005
/-- TIME.SERVO_KI. -/
def iServoKi : Nat := 0x28006
/-- TIME.LOCK_NS. -/
def iLockNs : Nat := 0x28007
/-- METER_GROUPS.CHECKPOINT_INTERVALS. -/
def iCheckpointIntervals : Nat := 0x30001
/-- METER_GROUPS.BUNDLE_HOLD. -/
def iBundleHold : Nat := 0x30002
/-- METER_GROUPS.FW_QUEUE_SLOTS. -/
def iFwQueueSlots : Nat := 0x30003
/-- METER_GROUPS.GROUP_i. -/
def iGroup (i : Nat) : Nat := 0x30100 + i
/-- METER_GROUPS.TEMPLATE_i. -/
def iTemplate (i : Nat) : Nat := 0x30200 + i
/-- METER_GROUPS.SENDER_i. -/
def iSender (i : Nat) : Nat := 0x30300 + i
/-- VALIDATION.MONO_ACTION. -/
def iMonoAction : Nat := 0x40001
/-- VALIDATION.DELTA_ACTION. -/
def iDeltaAction : Nat := 0x40002
/-- VALIDATION.TIME_ACTION. -/
def iTimeAction : Nat := 0x40003
/-- VALIDATION.ESTIMATE. -/
def iEstimate : Nat := 0x40004
/-- VALIDATION.QUALITY_ACTION. -/
def iQualityAction : Nat := 0x40005
/-- VALIDATION.RATING_i. -/
def iRating (i : Nat) : Nat := 0x40100 + i
/-- VALIDATION.SEQ_AHEAD_MAX. -/
def iSeqAheadMax : Nat := 0x48001
/-- VALIDATION.LATE_WINDOW. -/
def iLateWindow : Nat := 0x48002
/-- VALIDATION.TIME_AHEAD_MAX. -/
def iTimeAheadMax : Nat := 0x48003
/-- VALIDATION.TIME_LATE_MAX. -/
def iTimeLateMax : Nat := 0x48004
/-- VALIDATION.DELTA_MARGIN. -/
def iDeltaMargin : Nat := 0x48005
/-- VALIDATION.DELTA_SLACK. -/
def iDeltaSlack : Nat := 0x48006
/-- VALIDATION.V_LOW. -/
def iVLow : Nat := 0x48007
/-- VALIDATION.V_HIGH. -/
def iVHigh : Nat := 0x48008
/-- VALIDATION.I_MARGIN. -/
def iIMargin : Nat := 0x48009
/-- BILLING.MET_U_NOM. -/
def iMetUNom : Nat := 0x50001
/-- BILLING.MET_CT_PRIMARY. -/
def iMetCtPrimary : Nat := 0x50002
/-- BILLING.MET_CT_SECONDARY. -/
def iMetCtSecondary : Nat := 0x50003
/-- BILLING.MET_VT_RATIO. -/
def iMetVtRatio : Nat := 0x50004
/-- BILLING.FEEDER_TARIFF_SLOT. -/
def iFeederTariffSlot : Nat := 0x50005
/-- BILLING.CREDIT_LOW. -/
def iCreditLow : Nat := 0x50006
/-- BILLING.EMERGENCY_CREDIT. -/
def iEmergencyCredit : Nat := 0x50007
/-- BILLING.CREDIT_ACTION. -/
def iCreditAction : Nat := 0x50008
/-- BILLING.FRIENDLY_START. -/
def iFriendlyStart : Nat := 0x50009
/-- BILLING.FRIENDLY_END. -/
def iFriendlyEnd : Nat := 0x5000A
/-- BILLING.CLOSE_GRACE. -/
def iCloseGrace : Nat := 0x5000B
/-- BILLING.LEGAL_CHECKPOINT_INTERVALS. -/
def iLegalCheckpointIntervals : Nat := 0x5000C
/-- BILLING.TARIFF_LEAD. -/
def iTariffLead : Nat := 0x5000D
/-- BILLING.DISPLAY. -/
def iDisplay : Nat := 0x5000E
/-- BILLING.DISPLAY_SPI_KHZ. -/
def iDisplaySpiKhz : Nat := 0x5000F
/-- BILLING.MET_CAL. -/
def iMetCal : Nat := 0x58001
/-- BILLING.OUTVOTE_LIMIT. -/
def iOutvoteLimit : Nat := 0x58002
/-- BILLING.SPLIT_MAX. -/
def iSplitMax : Nat := 0x58003
/-- BALANCE.BAL_SETTLE. -/
def iBalSettle : Nat := 0x60001
/-- BALANCE.ATTR_WINDOW. -/
def iAttrWindow : Nat := 0x60002
/-- BALANCE.SCORE_REPORT. -/
def iScoreReport : Nat := 0x60003
/-- BALANCE.SCORE_HOLD_DAYS. -/
def iScoreHoldDays : Nat := 0x60004
/-- BALANCE.SNAP_COLLECT. -/
def iSnapCollect : Nat := 0x60005
/-- BALANCE.SNAP_LEAD. -/
def iSnapLead : Nat := 0x60006
/-- BALANCE.PHASE_AUTO. -/
def iPhaseAuto : Nat := 0x60007
/-- BALANCE.REPORT_SPREAD. -/
def iReportSpread : Nat := 0x60008
/-- BALANCE.BAL_GROUP_i. -/
def iBalGroup (i : Nat) : Nat := 0x60100 + i
/-- BALANCE.PHASE_TOL. -/
def iPhaseTol : Nat := 0x68001
/-- BALANCE.PHASE_CONFIRM. -/
def iPhaseConfirm : Nat := 0x68002
/-- BALANCE.SIG_ALPHA_SHIFT. -/
def iSigAlphaShift : Nat := 0x68003
/-- BALANCE.SIG_STEP. -/
def iSigStep : Nat := 0x68004
/-- BALANCE.SIG_PERSIST. -/
def iSigPersist : Nat := 0x68005
/-- BALANCE.SIG_DROP_WINDOW. -/
def iSigDropWindow : Nat := 0x68006
/-- BALANCE.SIG_DROP_PCT. -/
def iSigDropPct : Nat := 0x68007
/-- BALANCE.ATTR_MIN_CORR. -/
def iAttrMinCorr : Nat := 0x68008
/-- BALANCE.INCOMPLETE_MAX. -/
def iIncompleteMax : Nat := 0x68009
/-- BALANCE.EARTH_MIN. -/
def iEarthMin : Nat := 0x6800A
/-- BALANCE.EARTH_PCT. -/
def iEarthPct : Nat := 0x6800B
/-- BALANCE.REVERSE_MIN. -/
def iReverseMin : Nat := 0x6800C
/-- BALANCE.WEIGHTS. -/
def iWeights : Nat := 0x6800D
/-- POLICY.HOLD_SCORE. -/
def iHoldScore : Nat := 0x70001
/-- POLICY.DISCONNECT_SCORE. -/
def iDisconnectScore : Nat := 0x70002
/-- POLICY.MIN_KINDS. -/
def iMinKinds : Nat := 0x70003
/-- POLICY.MAX_ACTIONS_PER_DAY. -/
def iMaxActionsPerDay : Nat := 0x70004
/-- POLICY.RESPECT_FRIENDLY. -/
def iRespectFriendly : Nat := 0x70005
/-- POLICY.GROUP_MASK. -/
def iGroupMask : Nat := 0x70006
/-- PLC.PLC_BAND. -/
def iPlcBand : Nat := 0x80001
/-- PLC.PLC_NET_ID. -/
def iPlcNetId : Nat := 0x80002
/-- PLC.COUPLING. -/
def iCoupling : Nat := 0x80003
/-- PLC.TX_LEVEL. -/
def iTxLevel : Nat := 0x80004
/-- PLC.PLC_RETRIES. -/
def iPlcRetries : Nat := 0x80005
/-- PLC.BEACON_PERIOD. -/
def iBeaconPeriod : Nat := 0x80006
/-- PLC.BEACON_OFFSET. -/
def iBeaconOffset : Nat := 0x80007
/-- PLC.BEACON_HOPS. -/
def iBeaconHops : Nat := 0x80008
/-- PLC.TX_REF. -/
def iTxRef : Nat := 0x80009
/-- PLC.MOD_MASK. -/
def iModMask : Nat := 0x8000A
/-- PLC.ROUTE_FAIL_LIMIT. -/
def iRouteFailLimit : Nat := 0x8000B
/-- PLC.DISC_WINDOW. -/
def iDiscWindow : Nat := 0x8000C
/-- PLC.BLANK_THRESHOLD. -/
def iBlankThreshold : Nat := 0x88001
/-- PLC.BLANK_SYMBOLS. -/
def iBlankSymbols : Nat := 0x88002
/-- PLC.PLC_COMBINE_WINDOW. -/
def iPlcCombineWindow : Nat := 0x88003
/-- PLC.PLC_TOLLBOOK_LIFE. -/
def iPlcTollbookLife : Nat := 0x88004
/-- PLC.LQ_THRESHOLDS. -/
def iLqThresholds : Nat := 0x88005
/-- PLC.PLC_CSMA. -/
def iPlcCsma : Nat := 0x88006
/-- PLC.SNR_ALPHA. -/
def iSnrAlpha : Nat := 0x88007
/-- RADIO.RF0_BAND. -/
def iRf0Band : Nat := 0x90001
/-- RADIO.RF1_BAND. -/
def iRf1Band : Nat := 0x90002
/-- RADIO.RF0_CHANNELS. -/
def iRf0Channels : Nat := 0x90003
/-- RADIO.RF1_CHANNELS. -/
def iRf1Channels : Nat := 0x90004
/-- RADIO.PAN_ID. -/
def iPanId : Nat := 0x90005
/-- RADIO.RF_NET_ID. -/
def iRfNetId : Nat := 0x90006
/-- RADIO.TX_POWER. -/
def iTxPower : Nat := 0x90007
/-- RADIO.TTL_MAX. -/
def iTtlMax : Nat := 0x90008
/-- RADIO.TTL_MARGIN. -/
def iTtlMargin : Nat := 0x90009
/-- RADIO.RF_RETRIES. -/
def iRfRetries : Nat := 0x9000A
/-- RADIO.RF_BEACON_PERIOD. -/
def iRfBeaconPeriod : Nat := 0x9000B
/-- RADIO.RF_BEACON_OFFSET. -/
def iRfBeaconOffset : Nat := 0x9000C
/-- RADIO.RF_BEACON_HOPS. -/
def iRfBeaconHops : Nat := 0x9000D
/-- RADIO.WAKE_MODE. -/
def iWakeMode : Nat := 0x9000E
/-- RADIO.SLOT_LEN. -/
def iSlotLen : Nat := 0x9000F
/-- RADIO.SLOTS. -/
def iSlots : Nat := 0x90010
/-- RADIO.LPL_INTERVAL. -/
def iLplInterval : Nat := 0x90011
/-- RADIO.DUTY_PERMILLE. -/
def iDutyPermille : Nat := 0x90012
/-- RADIO.WHITENING. -/
def iWhitening : Nat := 0x90013
/-- RADIO.PREAMBLE_OCTETS. -/
def iPreambleOctets : Nat := 0x90014
/-- RADIO.GUARD_START. -/
def iGuardStart : Nat := 0x98001
/-- RADIO.GUARD_MAX. -/
def iGuardMax : Nat := 0x98002
/-- RADIO.CCA_DBM. -/
def iCcaDbm : Nat := 0x98003
/-- RADIO.RF_CSMA. -/
def iRfCsma : Nat := 0x98004
/-- RADIO.RF_TOLLBOOK_LIFE. -/
def iRfTollbookLife : Nat := 0x98005
/-- RADIO.RF_COMBINE_WINDOW. -/
def iRfCombineWindow : Nat := 0x98006
/-- RADIO.DRIFT_MIN_SPAN. -/
def iDriftMinSpan : Nat := 0x98007
/-- RADIO.PA_TIMING. -/
def iPaTiming : Nat := 0x98008
/-- SCHEDULES.TIMEOUT_PLC. -/
def iTimeoutPlc : Nat := 0xA0001
/-- SCHEDULES.TIMEOUT_RF. -/
def iTimeoutRf : Nat := 0xA0002
/-- SCHEDULES.RELAY_TIMEOUT. -/
def iRelayTimeout : Nat := 0xA0003
/-- SCHEDULES.TXN_RETRIES. -/
def iTxnRetries : Nat := 0xA0004
/-- SCHEDULES.RETRY_BACKOFF. -/
def iRetryBackoff : Nat := 0xA0005
/-- SCHEDULES.SCHEDULE_i. -/
def iSchedule (i : Nat) : Nat := 0xA0100 + i
/-- SCHEDULES.QUAR_EXTRA. -/
def iQuarExtra : Nat := 0xA8001
/-- SCHEDULES.ISSUE_TASKS_MAX. -/
def iIssueTasksMax : Nat := 0xA8002
/-- SCHEDULES.TASK_KIND_i. -/
def iTaskKind (i : Nat) : Nat := 0xA8101 + i
/-- STORE.OP_PERMILLE. -/
def iOpPermille : Nat := 0xB0001
/-- STORE.FLUSH_MS. -/
def iFlushMs : Nat := 0xB0002
/-- STORE.FULL_WARN. -/
def iFullWarn : Nat := 0xB0003
/-- STORE.RELEASE_MIB. -/
def iReleaseMib : Nat := 0xB0004
/-- STORE.BALANCE_MIB. -/
def iBalanceMib : Nat := 0xB0005
/-- STORE.ANOMALY_MIB. -/
def iAnomalyMib : Nat := 0xB0006
/-- STORE.GC_LOW. -/
def iGcLow : Nat := 0xB8001
/-- STORE.GC_HIGH. -/
def iGcHigh : Nat := 0xB8002
/-- STORE.READ_LIMIT. -/
def iReadLimit : Nat := 0xB8003
/-- STORE.REFRESH_BITS. -/
def iRefreshBits : Nat := 0xB8004
/-- STORE.RETENTION_DAYS. -/
def iRetentionDays : Nat := 0xB8005
/-- STORE.WEAR_SPREAD. -/
def iWearSpread : Nat := 0xB8006
/-- STORE.DIRTY_MAX. -/
def iDirtyMax : Nat := 0xB8007
/-- FABRIC.TORUS_W. -/
def iTorusW : Nat := 0xC0001
/-- FABRIC.TORUS_H. -/
def iTorusH : Nat := 0xC0002
/-- FABRIC.FABRIC_ID. -/
def iFabricId : Nat := 0xC0003
/-- FABRIC.ORIGIN. -/
def iOrigin : Nat := 0xC0004
/-- FABRIC.FABRIC_KEY_SLOT. -/
def iFabricKeySlot : Nat := 0xC0005
/-- FABRIC.PARTNER. -/
def iPartner : Nat := 0xC0006
/-- FABRIC.PORT_ENABLE. -/
def iPortEnable : Nat := 0xC0007
/-- FABRIC.PARTNER_TIMEOUT. -/
def iPartnerTimeout : Nat := 0xC0008
/-- FABRIC.MIRROR_WINDOW. -/
def iMirrorWindow : Nat := 0xC8001
/-- FABRIC.MIRROR_GAP_MS. -/
def iMirrorGapMs : Nat := 0xC8002
/-- FABRIC.HEARTBEAT_MS. -/
def iHeartbeatMs : Nat := 0xC8003
/-- FABRIC.LINK_RETRAIN_LIMIT. -/
def iLinkRetrainLimit : Nat := 0xC8004
/-- FABRIC.ARB_WINDOW. -/
def iArbWindow : Nat := 0xC8005
/-- HOST.CQ_ENTRIES. -/
def iCqEntries : Nat := 0xD0001
/-- HOST.RQ_MAP. -/
def iRqMap : Nat := 0xD0002
/-- HOST.RQ_HOLD_MS. -/
def iRqHoldMs : Nat := 0xD0003
/-- HOST.EVENT_LOGS. -/
def iEventLogs : Nat := 0xD0004
/-- HOST.COAL. -/
def iCoal : Nat := 0xD8001
/-- ETHERNET.ETH_MODE_ETH0. -/
def iEthModeEth0 : Nat := 0xE0001
/-- ETHERNET.MAC_ADDR_ETH0. -/
def iMacAddrEth0 : Nat := 0xE0002
/-- ETHERNET.MAX_FRAME_ETH0. -/
def iMaxFrameEth0 : Nat := 0xE0003
/-- ETHERNET.VLAN_ID_ETH0. -/
def iVlanIdEth0 : Nat := 0xE0004
/-- ETHERNET.IPV4_ETH0. -/
def iIpv4Eth0 : Nat := 0xE0005
/-- ETHERNET.EXACT_ETH0. -/
def iExactEth0 : Nat := 0xE0006
/-- ETHERNET.GROUP_HASH_ETH0. -/
def iGroupHashEth0 : Nat := 0xE0007
/-- ETHERNET.BCAST_ETH0. -/
def iBcastEth0 : Nat := 0xE0008
/-- ETHERNET.GCL_ETH0. -/
def iGclEth0 : Nat := 0xE0009
/-- ETHERNET.TX_TC_ETH0. -/
def iTxTcEth0 : Nat := 0xE000A
/-- ETHERNET.ETH_MODE_ETH1. -/
def iEthModeEth1 : Nat := 0xE0041
/-- ETHERNET.MAC_ADDR_ETH1. -/
def iMacAddrEth1 : Nat := 0xE0042
/-- ETHERNET.MAX_FRAME_ETH1. -/
def iMaxFrameEth1 : Nat := 0xE0043
/-- ETHERNET.VLAN_ID_ETH1. -/
def iVlanIdEth1 : Nat := 0xE0044
/-- ETHERNET.IPV4_ETH1. -/
def iIpv4Eth1 : Nat := 0xE0045
/-- ETHERNET.EXACT_ETH1. -/
def iExactEth1 : Nat := 0xE0046
/-- ETHERNET.GROUP_HASH_ETH1. -/
def iGroupHashEth1 : Nat := 0xE0047
/-- ETHERNET.BCAST_ETH1. -/
def iBcastEth1 : Nat := 0xE0048
/-- ETHERNET.GCL_ETH1. -/
def iGclEth1 : Nat := 0xE0049
/-- ETHERNET.TX_TC_ETH1. -/
def iTxTcEth1 : Nat := 0xE004A
/-- ETHERNET.ETHERTYPE. -/
def iEthertype : Nat := 0xE0020
/-- ETHERNET.PEER_i. -/
def iPeer (i : Nat) : Nat := 0xE0100 + i
/-- ETHERNET.ETH_RTO. -/
def iEthRto : Nat := 0xE8001
/-- ETHERNET.ETH_WINDOW. -/
def iEthWindow : Nat := 0xE8002
/-- SIDEBAND.SB_ENABLE. -/
def iSbEnable : Nat := 0xF0001
/-- SIDEBAND.SB_MAC. -/
def iSbMac : Nat := 0xF0002
/-- SIDEBAND.SB_ETHERTYPE. -/
def iSbEthertype : Nat := 0xF0003
/-- SECURITY.REVOKED. -/
def iRevoked : Nat := 0x100001
/-- SECURITY.DESTROY. -/
def iDestroy : Nat := 0x100002
/-- SECURITY.ANCHOR_ADD_i. -/
def iAnchorAdd (i : Nat) : Nat := 0x100010 + i
/-- SECURITY.ANCHOR_REVOKE. -/
def iAnchorRevoke : Nat := 0x100014
/-- SECURITY.CERT_FLOOR. -/
def iCertFloor : Nat := 0x100015
/-- SECURITY.DEBUG_DISABLE. -/
def iDebugDisable : Nat := 0x100016
/-- SECURITY.KEYTABLE_RESET. -/
def iKeytableReset : Nat := 0x100017
/-- SECURITY.KEY_i. -/
def iKey (i : Nat) : Nat := 0x100108 + i
/-- SECURITY.ACCESS_i. -/
def iAccess (i : Nat) : Nat := 0x100200 + i
/-- POWER.RIDE_TIME. -/
def iRideTime : Nat := 0x110001
/-- POWER.MAINS_SOURCE. -/
def iMainsSource : Nat := 0x110002
/-- POWER.RIDE_CORES. -/
def iRideCores : Nat := 0x110003
/-- POWER.THROTTLE_CORES. -/
def iThrottleCores : Nat := 0x110004
/-- POWER.POWER_CAP_MW. -/
def iPowerCapMw : Nat := 0x110005
/-- POWER.SCAP_DIVIDER. -/
def iScapDivider : Nat := 0x110006
/-- POWER.SCAP_GASP_MV. -/
def iScapGaspMv : Nat := 0x110007
/-- POWER.THERMAL_WAKE_C. -/
def iThermalWakeC : Nat := 0x110008
/-- POWER.THROTTLE_C. -/
def iThrottleC : Nat := 0x118001
/-- POWER.B2_C. -/
def iB2C : Nat := 0x118002
/-- POWER.SHUTDOWN_C. -/
def iShutdownC : Nat := 0x118003
/-- POWER.THERMAL_HYST_C. -/
def iThermalHystC : Nat := 0x118004
/-- POWER.THROTTLE_SYS_MHZ. -/
def iThrottleSysMhz : Nat := 0x118005
/-- POWER.WDG_TIMEOUT. -/
def iWdgTimeout : Nat := 0x118006
/-- UPDATE.CONFIRM_STARTS. -/
def iConfirmStarts : Nat := 0x120001
/-- UPDATE.CONFIRM_DEADLINE. -/
def iConfirmDeadline : Nat := 0x120002
/-- UPDATE.HEALTH_SOAK. -/
def iHealthSoak : Nat := 0x120003
/-- UPDATE.HEALTH_CHECKS. -/
def iHealthChecks : Nat := 0x120004
/-- UPDATE.DELIVERY_IDLE. -/
def iDeliveryIdle : Nat := 0x120005
/-- UPDATE.CAMPAIGN_BLOCK_GAP. -/
def iCampaignBlockGap : Nat := 0x120006

end Sys2Proof.Machine
end

