-- ==== Sys2Proof/Machine/RegTable.lean ====
section
/-!
DEFINITION. The register map: every register heading of the spec, with its place in the window (Table 1.1), its
index ranges and, per access code of Table 0.5, the mask of the bits that have it.
-/

namespace Sys2Proof.Machine

/-- A register heading: window offset of its first instance, up to two index ranges (stride, count), and the bits of
each access code that can take a write. -/
structure RegRow where
  name : String
  base : Nat
  stride1 : Nat
  count1 : Nat
  stride2 : Nat
  count2 : Nat
  rw : BitVec 32
  w1c : BitVec 32
  wo : BitVec 32
  rwl : BitVec 32
  rwx : BitVec 32
  deriving DecidableEq, Repr

/-- The offset of an instance relative to the row's base is a sum of multiples of its strides below the counts. -/
def RegRow.covers (r : RegRow) (a : Nat) : Bool :=
  decide (r.base ≤ a) &&
    (let d := a - r.base
     let i := if r.stride1 = 0 then 0 else min (d / r.stride1) (r.count1 - 1)
     let e := d - i * r.stride1
     let j := if r.stride2 = 0 then 0 else min (e / r.stride2) (r.count2 - 1)
     decide (i * r.stride1 + j * r.stride2 = d))

/-- The registers of the DEV pages. -/
def regRowsDev : List RegRow := [
  ⟨"DEV_ID", 0x000000, 0x0, 1, 0x0, 1, 0x00000000#32, 0x00000000#32, 0x00000000#32, 0x00000000#32, 0x00000000#32⟩,
  ⟨"DEV_REV", 0x000004, 0x0, 1, 0x0, 1, 0x00000000#32, 0x00000000#32, 0x00000000#32, 0x00000000#32, 0x00000000#32⟩,
  ⟨"DEV_SERIAL_LO", 0x000008, 0x0, 1, 0x0, 1, 0x00000000#32, 0x00000000#32, 0x00000000#32, 0x00000000#32, 0x00000000#32⟩,
  ⟨"DEV_SERIAL_HI", 0x00000C, 0x0, 1, 0x0, 1, 0x00000000#32, 0x00000000#32, 0x00000000#32, 0x00000000#32, 0x00000000#32⟩,
  ⟨"BOOT_STATUS", 0x000010, 0x0, 1, 0x0, 1, 0x00000000#32, 0x00000000#32, 0x00000000#32, 0x00000000#32, 0x00000000#32⟩,
  ⟨"CFG_SERIAL", 0x000014, 0x0, 1, 0x0, 1, 0x00000000#32, 0x00000000#32, 0x00000000#32, 0x00000000#32, 0x00000000#32⟩,
  ⟨"CFG_INFO", 0x000018, 0x0, 1, 0x0, 1, 0x00000000#32, 0x00000000#32, 0x00000000#32, 0x00000000#32, 0x00000000#32⟩,
  ⟨"CFG_CERT", 0x00001C, 0x0, 1, 0x0, 1, 0x00000000#32, 0x00000000#32, 0x00000000#32, 0x00000000#32, 0x00000000#32⟩,
  ⟨"EXPERT_STATUS", 0x000020, 0x0, 1, 0x0, 1, 0x00000000#32, 0x00000000#32, 0x00000000#32, 0x00000000#32, 0x00000000#32⟩,
  ⟨"SELFTEST", 0x000024, 0x0, 1, 0x0, 1, 0x00000000#32, 0x00000000#32, 0x00000000#32, 0x00000000#32, 0x00000000#32⟩,
  ⟨"PAGE_IGNORED_t", 0x000400, 0x4, 480, 0x0, 1, 0x00000000#32, 0x00000000#32, 0x00000000#32, 0x00000000#32, 0x00000000#32⟩]

/-- The registers of the CLK pages. -/
def regRowsClk : List RegRow := [
  ⟨"CLK_STATUS", 0x010000, 0x0, 1, 0x0, 1, 0x00000000#32, 0x00000000#32, 0x00000000#32, 0x00000000#32, 0x00000000#32⟩]

/-- The registers of the RST pages. -/
def regRowsRst : List RegRow := [
  ⟨"RST_CAUSE", 0x020000, 0x0, 1, 0x0, 1, 0x00000000#32, 0x00000000#32, 0x00000000#32, 0x00000000#32, 0x00000000#32⟩,
  ⟨"RST_CNT", 0x020100, 0x4, 12, 0x0, 1, 0x00000000#32, 0x00000000#32, 0x00000000#32, 0x00000000#32, 0x00000000#32⟩]

/-- The registers of the PWR pages. -/
def regRowsPwr : List RegRow := [
  ⟨"PWR_STATUS", 0x030000, 0x0, 1, 0x0, 1, 0x00000000#32, 0x00000000#32, 0x00000000#32, 0x00000000#32, 0x00000000#32⟩,
  ⟨"PWR_INT", 0x030004, 0x0, 1, 0x0, 1, 0x00000000#32, 0x0000001F#32, 0x00000000#32, 0x00000000#32, 0x00000000#32⟩,
  ⟨"PWR_INT_EN", 0x030008, 0x0, 1, 0x0, 1, 0x0000001F#32, 0x00000000#32, 0x00000000#32, 0x00000000#32, 0x00000000#32⟩,
  ⟨"PWR_TEMP", 0x030010, 0x0, 1, 0x0, 1, 0x00000000#32, 0x00000000#32, 0x00000000#32, 0x00000000#32, 0x00000000#32⟩,
  ⟨"PWR_SUPPLY", 0x030014, 0x0, 1, 0x0, 1, 0x00000000#32, 0x00000000#32, 0x00000000#32, 0x00000000#32, 0x00000000#32⟩,
  ⟨"PWR_RIDE", 0x030018, 0x0, 1, 0x0, 1, 0x00000000#32, 0x00000000#32, 0x00000000#32, 0x00000000#32, 0x00000000#32⟩,
  ⟨"PWR_CNT", 0x031000, 0x4, 12, 0x0, 1, 0x00000000#32, 0x00000000#32, 0x00000000#32, 0x00000000#32, 0x00000000#32⟩]

/-- The registers of the SBM pages. -/
def regRowsSbm : List RegRow := [
  ⟨"SB_STATUS", 0x050000, 0x0, 1, 0x0, 1, 0x00000000#32, 0x00000000#32, 0x00000000#32, 0x00000000#32, 0x00000000#32⟩,
  ⟨"SB_CNT", 0x051000, 0x4, 10, 0x0, 1, 0x00000000#32, 0x00000000#32, 0x00000000#32, 0x00000000#32, 0x00000000#32⟩]

/-- The registers of the WAY pages. -/
def regRowsWay : List RegRow := [
  ⟨"WAY_STATUS", 0x060000, 0x0, 1, 0x0, 1, 0x00000000#32, 0x00000000#32, 0x00000000#32, 0x00000000#32, 0x00000000#32⟩,
  ⟨"WAY_INT", 0x060004, 0x0, 1, 0x0, 1, 0x00000000#32, 0x0000003F#32, 0x00000000#32, 0x00000000#32, 0x00000000#32⟩,
  ⟨"WAY_INT_EN", 0x060008, 0x0, 1, 0x0, 1, 0x0000003F#32, 0x00000000#32, 0x00000000#32, 0x00000000#32, 0x00000000#32⟩,
  ⟨"WAY_LOG_n", 0x060010, 0x4, 3, 0x0, 1, 0x00000000#32, 0x00000000#32, 0x00000000#32, 0x00000000#32, 0x00000000#32⟩,
  ⟨"WAY_LOST_n", 0x060020, 0x4, 3, 0x0, 1, 0x00000000#32, 0x00000000#32, 0x00000000#32, 0x00000000#32, 0x00000000#32⟩,
  ⟨"WAY_GEN_n", 0x060030, 0x4, 3, 0x0, 1, 0x00000000#32, 0x00000000#32, 0x00000000#32, 0x00000000#32, 0x00000000#32⟩,
  ⟨"WAY_READ_SEL", 0x060040, 0x0, 1, 0x0, 1, 0x0007FFFF#32, 0x00000000#32, 0x00000000#32, 0x00000000#32, 0x00000000#32⟩,
  ⟨"WAY_READ_DATA_w", 0x060044, 0x4, 8, 0x0, 1, 0x00000000#32, 0x00000000#32, 0x00000000#32, 0x00000000#32, 0x00000000#32⟩,
  ⟨"WAY_CNT", 0x060100, 0x4, 9, 0x0, 1, 0x00000000#32, 0x00000000#32, 0x00000000#32, 0x00000000#32, 0x00000000#32⟩,
  ⟨"EVENT_PORT_q", 0x060800, 0x20, 2, 0x4, 8, 0x00000000#32, 0x00000000#32, 0xFFFFFFFF#32, 0x00000000#32, 0x00000000#32⟩,
  ⟨"LEGAL_PORT", 0x061000, 0x4, 8, 0x0, 1, 0x00000000#32, 0x00000000#32, 0xFFFFFFFF#32, 0x00000000#32, 0x00000000#32⟩]

/-- The registers of the SEC pages. -/
def regRowsSec : List RegRow := [
  ⟨"SEC_STATUS", 0x070000, 0x0, 1, 0x0, 1, 0x00000000#32, 0x00000000#32, 0x00000000#32, 0x00000000#32, 0x00000000#32⟩,
  ⟨"SEC_INT", 0x070004, 0x0, 1, 0x0, 1, 0x00000000#32, 0x0000001F#32, 0x00000000#32, 0x00000000#32, 0x00000000#32⟩,
  ⟨"SEC_INT_EN", 0x070008, 0x0, 1, 0x0, 1, 0x0000001F#32, 0x00000000#32, 0x00000000#32, 0x00000000#32, 0x00000000#32⟩,
  ⟨"KEY_DESTROY", 0x070010, 0x0, 1, 0x0, 1, 0x00000000#32, 0x00000000#32, 0x00000000#32, 0x00000000#32, 0x000000FF#32⟩,
  ⟨"SEC_FUSES", 0x070014, 0x0, 1, 0x0, 1, 0x00000000#32, 0x00000000#32, 0x00000000#32, 0x00000000#32, 0x00000000#32⟩,
  ⟨"SEC_CERT_FLOOR", 0x070018, 0x0, 1, 0x0, 1, 0x00000000#32, 0x00000000#32, 0x00000000#32, 0x00000000#32, 0x00000000#32⟩,
  ⟨"MEAS_m", 0x070100, 0x40, 8, 0x4, 16, 0x00000000#32, 0x00000000#32, 0x00000000#32, 0x00000000#32, 0x00000000#32⟩,
  ⟨"KEY_STATE_s", 0x071000, 0x4, 256, 0x0, 1, 0x00000000#32, 0x00000000#32, 0x00000000#32, 0x00000000#32, 0x00000000#32⟩,
  ⟨"KEY_LINK_s", 0x071400, 0x4, 256, 0x0, 1, 0x00000000#32, 0x00000000#32, 0x00000000#32, 0x00000000#32, 0x00000000#32⟩,
  ⟨"KEY_VERSION_s", 0x071800, 0x4, 256, 0x0, 1, 0x00000000#32, 0x00000000#32, 0x00000000#32, 0x00000000#32, 0x00000000#32⟩,
  ⟨"SEC_CNT", 0x073000, 0x4, 12, 0x0, 1, 0x00000000#32, 0x00000000#32, 0x00000000#32, 0x00000000#32, 0x00000000#32⟩]

/-- The registers of the ACC pages. -/
def regRowsAcc : List RegRow := [
  ⟨"ACC_STATUS", 0x080000, 0x0, 1, 0x0, 1, 0x00000000#32, 0x00000000#32, 0x00000000#32, 0x00000000#32, 0x00000000#32⟩,
  ⟨"ACC_INT", 0x080004, 0x0, 1, 0x0, 1, 0x00000000#32, 0x00000001#32, 0x00000000#32, 0x00000000#32, 0x00000000#32⟩,
  ⟨"ACC_INT_EN", 0x080008, 0x0, 1, 0x0, 1, 0x00000001#32, 0x00000000#32, 0x00000000#32, 0x00000000#32, 0x00000000#32⟩,
  ⟨"ACC_VIOL", 0x080010, 0x0, 1, 0x0, 1, 0x00000000#32, 0x00000000#32, 0x00000000#32, 0x00000000#32, 0x00000000#32⟩,
  ⟨"ACC_VIOL_ADDR_LO", 0x080014, 0x0, 1, 0x0, 1, 0x00000000#32, 0x00000000#32, 0x00000000#32, 0x00000000#32, 0x00000000#32⟩,
  ⟨"ACC_VIOL_ADDR_HI", 0x080018, 0x0, 1, 0x0, 1, 0x00000000#32, 0x00000000#32, 0x00000000#32, 0x00000000#32, 0x00000000#32⟩,
  ⟨"ACC_VIOL_CNT_m", 0x080020, 0x4, 16, 0x0, 1, 0x00000000#32, 0x00000000#32, 0x00000000#32, 0x00000000#32, 0x00000000#32⟩,
  ⟨"ACC_RW_t", 0x081000, 0x8, 1024, 0x0, 1, 0x00000000#32, 0x00000000#32, 0x00000000#32, 0xFFFFFFFF#32, 0x00000000#32⟩,
  ⟨"ACC_X_t", 0x081004, 0x8, 1024, 0x0, 1, 0x00000000#32, 0x00000000#32, 0x00000000#32, 0x0000FFFF#32, 0x00000000#32⟩]

/-- The registers of the UPD pages. -/
def regRowsUpd : List RegRow := [
  ⟨"UPD_STATUS", 0x090000, 0x0, 1, 0x0, 1, 0x00000000#32, 0x00000000#32, 0x00000000#32, 0x00000000#32, 0x00000000#32⟩,
  ⟨"UPD_INT", 0x090004, 0x0, 1, 0x0, 1, 0x00000000#32, 0x0000001F#32, 0x00000000#32, 0x00000000#32, 0x00000000#32⟩,
  ⟨"UPD_INT_EN", 0x090008, 0x0, 1, 0x0, 1, 0x0000001F#32, 0x00000000#32, 0x00000000#32, 0x00000000#32, 0x00000000#32⟩,
  ⟨"UPD_PROBATION", 0x090010, 0x0, 1, 0x0, 1, 0x00000000#32, 0x00000000#32, 0x00000000#32, 0x00000000#32, 0x00000000#32⟩,
  ⟨"UPD_DEADLINE", 0x090014, 0x0, 1, 0x0, 1, 0x00000000#32, 0x00000000#32, 0x00000000#32, 0x00000000#32, 0x00000000#32⟩,
  ⟨"UPD_NEXT_OFFSET", 0x090018, 0x0, 1, 0x0, 1, 0x00000000#32, 0x00000000#32, 0x00000000#32, 0x00000000#32, 0x00000000#32⟩,
  ⟨"UPD_CAMP_c", 0x090100, 0x4, 4, 0x0, 1, 0x00000000#32, 0x00000000#32, 0x00000000#32, 0x00000000#32, 0x00000000#32⟩,
  ⟨"UPD_CAMP_LEFT_c", 0x090110, 0x4, 4, 0x0, 1, 0x00000000#32, 0x00000000#32, 0x00000000#32, 0x00000000#32, 0x00000000#32⟩,
  ⟨"UPD_CNT", 0x091000, 0x4, 16, 0x0, 1, 0x00000000#32, 0x00000000#32, 0x00000000#32, 0x00000000#32, 0x00000000#32⟩]

/-- The registers of the LGC pages. -/
def regRowsLgc : List RegRow := [
  ⟨"LGC_STATUS", 0x0B0000, 0x0, 1, 0x0, 1, 0x00000000#32, 0x00000000#32, 0x00000000#32, 0x00000000#32, 0x00000000#32⟩,
  ⟨"LGC_CHECK_LO", 0x0B0010, 0x0, 1, 0x0, 1, 0x00000000#32, 0x00000000#32, 0x00000000#32, 0x00000000#32, 0x00000000#32⟩,
  ⟨"LGC_CHECK_HI", 0x0B0014, 0x0, 1, 0x0, 1, 0x00000000#32, 0x00000000#32, 0x00000000#32, 0x00000000#32, 0x00000000#32⟩]

/-- The registers of the CCH pages. -/
def regRowsCch : List RegRow := [
  ⟨"CCH_STATUS", 0x0C0000, 0x0, 1, 0x0, 1, 0x00000000#32, 0x00000000#32, 0x00000000#32, 0x00000000#32, 0x00000000#32⟩,
  ⟨"CCH_INT", 0x0C0004, 0x0, 1, 0x0, 1, 0x00000000#32, 0x0000000F#32, 0x00000000#32, 0x00000000#32, 0x00000000#32⟩,
  ⟨"CCH_INT_EN", 0x0C0008, 0x0, 1, 0x0, 1, 0x0000000F#32, 0x00000000#32, 0x00000000#32, 0x00000000#32, 0x00000000#32⟩,
  ⟨"CCH_WAIT_ALARM", 0x0C0010, 0x0, 1, 0x0, 1, 0xFFFFFFFF#32, 0x00000000#32, 0x00000000#32, 0x00000000#32, 0x00000000#32⟩,
  ⟨"CCH_LEVEL_p", 0x0C0100, 0x4, 64, 0x0, 1, 0x00000000#32, 0xFFFF0000#32, 0x00000000#32, 0x00000000#32, 0x00000000#32⟩,
  ⟨"CCH_CLASS_c", 0x0C0200, 0x4, 4, 0x0, 1, 0x00000000#32, 0x00000000#32, 0x00000000#32, 0x00000000#32, 0x00000000#32⟩,
  ⟨"CCH_EXEC_n", 0x0C0300, 0x4, 16, 0x0, 1, 0x00000000#32, 0x00000000#32, 0x00000000#32, 0x00000000#32, 0x00000000#32⟩,
  ⟨"CCH_CNT", 0x0C1000, 0x4, 11, 0x0, 1, 0x00000000#32, 0x00000000#32, 0x00000000#32, 0x00000000#32, 0x00000000#32⟩]

/-- The registers of the TXN pages. -/
def regRowsTxn : List RegRow := [
  ⟨"TXN_STATUS", 0x0D0000, 0x0, 1, 0x0, 1, 0x00000000#32, 0x00000000#32, 0x00000000#32, 0x00000000#32, 0x00000000#32⟩,
  ⟨"TXN_PENDING", 0x0D0004, 0x0, 1, 0x0, 1, 0x00000000#32, 0x00000000#32, 0x00000000#32, 0x00000000#32, 0x00000000#32⟩,
  ⟨"TXN_INT", 0x0D0008, 0x0, 1, 0x0, 1, 0x00000000#32, 0x0000000F#32, 0x00000000#32, 0x00000000#32, 0x00000000#32⟩,
  ⟨"TXN_INT_EN", 0x0D000C, 0x0, 1, 0x0, 1, 0x0000000F#32, 0x00000000#32, 0x00000000#32, 0x00000000#32, 0x00000000#32⟩,
  ⟨"TXN_CNT", 0x0D1000, 0x4, 20, 0x0, 1, 0x00000000#32, 0x00000000#32, 0x00000000#32, 0x00000000#32, 0x00000000#32⟩]

/-- The registers of the DDR pages. -/
def regRowsDdr : List RegRow := [
  ⟨"DDR_CNT", 0x0F1000, 0x4, 2, 0x0, 1, 0x00000000#32, 0x00000000#32, 0x00000000#32, 0x00000000#32, 0x00000000#32⟩]

/-- The registers of the FUL pages. -/
def regRowsFul : List RegRow := [
  ⟨"FUL_STATUS", 0x110000, 0x0, 1, 0x0, 1, 0x00000000#32, 0x00000000#32, 0x00000000#32, 0x00000000#32, 0x00000000#32⟩,
  ⟨"FUL_INT", 0x110004, 0x0, 1, 0x0, 1, 0x00000000#32, 0x0000003F#32, 0x00000000#32, 0x00000000#32, 0x00000000#32⟩,
  ⟨"FUL_INT_EN", 0x110008, 0x0, 1, 0x0, 1, 0x0000003F#32, 0x00000000#32, 0x00000000#32, 0x00000000#32, 0x00000000#32⟩,
  ⟨"FUL_FREE", 0x110010, 0x0, 1, 0x0, 1, 0x00000000#32, 0x00000000#32, 0x00000000#32, 0x00000000#32, 0x00000000#32⟩,
  ⟨"FUL_BAD", 0x110014, 0x0, 1, 0x0, 1, 0x00000000#32, 0x00000000#32, 0x00000000#32, 0x00000000#32, 0x00000000#32⟩,
  ⟨"FUL_REBUILD", 0x110018, 0x0, 1, 0x0, 1, 0x00000000#32, 0x00000000#32, 0x00000000#32, 0x00000000#32, 0x00000000#32⟩,
  ⟨"FUL_FILL", 0x11001C, 0x0, 1, 0x0, 1, 0x00000000#32, 0x00000000#32, 0x00000000#32, 0x00000000#32, 0x00000000#32⟩,
  ⟨"FUL_CNT", 0x111000, 0x4, 20, 0x0, 1, 0x00000000#32, 0x00000000#32, 0x00000000#32, 0x00000000#32, 0x00000000#32⟩]

/-- The registers of the ING pages. -/
def regRowsIng : List RegRow := [
  ⟨"ING_STATUS", 0x120000, 0x0, 1, 0x0, 1, 0x00000000#32, 0x00000000#32, 0x00000000#32, 0x00000000#32, 0x00000000#32⟩,
  ⟨"ING_INT", 0x120004, 0x0, 1, 0x0, 1, 0x00000000#32, 0x00007FFF#32, 0x00000000#32, 0x00000000#32, 0x00000000#32⟩,
  ⟨"ING_INT_EN", 0x120008, 0x0, 1, 0x0, 1, 0x00007FFF#32, 0x00000000#32, 0x00000000#32, 0x00000000#32, 0x00000000#32⟩,
  ⟨"FIFO_STAT_n", 0x120100, 0x4, 11, 0x0, 1, 0x00000000#32, 0x00000000#32, 0x00000000#32, 0x00000000#32, 0x00000000#32⟩,
  ⟨"FIFO_THR_n", 0x120140, 0x4, 11, 0x0, 1, 0x00000FFF#32, 0x00000000#32, 0x00000000#32, 0x00000000#32, 0x00000000#32⟩,
  ⟨"SRC_DROP_n", 0x120180, 0x4, 11, 0x0, 1, 0x00000000#32, 0x00000000#32, 0x00000000#32, 0x00000000#32, 0x00000000#32⟩,
  ⟨"FW_QUEUE", 0x120200, 0x0, 1, 0x0, 1, 0xFFFF0000#32, 0x00000000#32, 0x00000000#32, 0x00000000#32, 0x00000000#32⟩,
  ⟨"LANE_CNT", 0x121000, 0x100, 4, 0x4, 20, 0x00000000#32, 0x00000000#32, 0x00000000#32, 0x00000000#32, 0x00000000#32⟩,
  ⟨"SPLIT_CNT", 0x121400, 0x4, 15, 0x0, 1, 0x00000000#32, 0x00000000#32, 0x00000000#32, 0x00000000#32, 0x00000000#32⟩]

/-- The registers of the VAL pages. -/
def regRowsVal : List RegRow := [
  ⟨"VAL_STATUS", 0x130000, 0x0, 1, 0x0, 1, 0x00000000#32, 0x00000000#32, 0x00000000#32, 0x00000000#32, 0x00000000#32⟩,
  ⟨"VAL_INT", 0x130004, 0x0, 1, 0x0, 1, 0x00000000#32, 0x0000000F#32, 0x00000000#32, 0x00000000#32, 0x00000000#32⟩,
  ⟨"VAL_INT_EN", 0x130008, 0x0, 1, 0x0, 1, 0x0000000F#32, 0x00000000#32, 0x00000000#32, 0x00000000#32, 0x00000000#32⟩,
  ⟨"VAL_LAST_REJECT", 0x130010, 0x0, 1, 0x0, 1, 0x00000000#32, 0x00000000#32, 0x00000000#32, 0x00000000#32, 0x00000000#32⟩,
  ⟨"VAL_LAST_REJECT_SEQ", 0x130014, 0x0, 1, 0x0, 1, 0x00000000#32, 0x00000000#32, 0x00000000#32, 0x00000000#32, 0x00000000#32⟩,
  ⟨"VAL_CNT", 0x131000, 0x100, 4, 0x4, 22, 0x00000000#32, 0x00000000#32, 0x00000000#32, 0x00000000#32, 0x00000000#32⟩]

/-- The registers of the BIL pages. -/
def regRowsBil : List RegRow := [
  ⟨"BIL_STATUS", 0x140000, 0x0, 1, 0x0, 1, 0x00000000#32, 0x00000000#32, 0x00000000#32, 0x00000000#32, 0x00000000#32⟩,
  ⟨"BIL_INT", 0x140004, 0x0, 1, 0x0, 1, 0x00000000#32, 0x0000001F#32, 0x00000000#32, 0x00000000#32, 0x00000000#32⟩,
  ⟨"BIL_INT_EN", 0x140008, 0x0, 1, 0x0, 1, 0x0000001F#32, 0x00000000#32, 0x00000000#32, 0x00000000#32, 0x00000000#32⟩,
  ⟨"BIL_LAST_FREEZE", 0x140010, 0x0, 1, 0x0, 1, 0x00000000#32, 0x00000000#32, 0x00000000#32, 0x00000000#32, 0x00000000#32⟩,
  ⟨"BIL_CNT", 0x141000, 0x4, 16, 0x0, 1, 0x00000000#32, 0x00000000#32, 0x00000000#32, 0x00000000#32, 0x00000000#32⟩]

/-- The registers of the BAL pages. -/
def regRowsBal : List RegRow := [
  ⟨"BAL_STATUS", 0x150000, 0x0, 1, 0x0, 1, 0x00000000#32, 0x00000000#32, 0x00000000#32, 0x00000000#32, 0x00000000#32⟩,
  ⟨"BAL_INT", 0x150004, 0x0, 1, 0x0, 1, 0x00000000#32, 0x0000001F#32, 0x00000000#32, 0x00000000#32, 0x00000000#32⟩,
  ⟨"BAL_INT_EN", 0x150008, 0x0, 1, 0x0, 1, 0x0000001F#32, 0x00000000#32, 0x00000000#32, 0x00000000#32, 0x00000000#32⟩,
  ⟨"BAL_ACTIONS", 0x150010, 0x0, 1, 0x0, 1, 0x00000000#32, 0x00000000#32, 0x00000000#32, 0x00000000#32, 0x00000000#32⟩,
  ⟨"BAL_CNT", 0x151000, 0x4, 18, 0x0, 1, 0x00000000#32, 0x00000000#32, 0x00000000#32, 0x00000000#32, 0x00000000#32⟩]

/-- The registers of the MET pages. -/
def regRowsMet : List RegRow := [
  ⟨"MET_STATUS", 0x160000, 0x0, 1, 0x0, 1, 0x00000000#32, 0x0000007F#32, 0x00000000#32, 0x00000000#32, 0x00000000#32⟩,
  ⟨"MET_RMS_n", 0x160010, 0x4, 7, 0x0, 1, 0x00000000#32, 0x00000000#32, 0x00000000#32, 0x00000000#32, 0x00000000#32⟩]

/-- The registers of the CYC pages. -/
def regRowsCyc : List RegRow := [
  ⟨"CYC_STATUS", 0x170000, 0x0, 1, 0x0, 1, 0x00000000#32, 0x00000000#32, 0x00000000#32, 0x00000000#32, 0x00000000#32⟩,
  ⟨"CYC_NUM_LO", 0x170008, 0x0, 1, 0x0, 1, 0x00000000#32, 0x00000000#32, 0x00000000#32, 0x00000000#32, 0x00000000#32⟩,
  ⟨"CYC_NUM_HI", 0x17000C, 0x0, 1, 0x0, 1, 0x00000000#32, 0x00000000#32, 0x00000000#32, 0x00000000#32, 0x00000000#32⟩,
  ⟨"CYC_FREQ", 0x170010, 0x0, 1, 0x0, 1, 0x00000000#32, 0x00000000#32, 0x00000000#32, 0x00000000#32, 0x00000000#32⟩,
  ⟨"CYC_ANGLE", 0x170014, 0x0, 1, 0x0, 1, 0x00000000#32, 0x00000000#32, 0x00000000#32, 0x00000000#32, 0x00000000#32⟩,
  ⟨"CYC_COUNTS", 0x170020, 0x0, 1, 0x0, 1, 0x00000000#32, 0x00000000#32, 0x00000000#32, 0x00000000#32, 0x00000000#32⟩]

/-- The registers of the TIM pages. -/
def regRowsTim : List RegRow := [
  ⟨"TIM_STATUS", 0x180000, 0x0, 1, 0x0, 1, 0x00000000#32, 0x00000008#32, 0x00000000#32, 0x00000000#32, 0x00000000#32⟩,
  ⟨"TIM_SEC_LO", 0x180010, 0x0, 1, 0x0, 1, 0x00000000#32, 0x00000000#32, 0x00000000#32, 0x00000000#32, 0x00000000#32⟩,
  ⟨"TIM_SEC_HI", 0x180014, 0x0, 1, 0x0, 1, 0x00000000#32, 0x00000000#32, 0x00000000#32, 0x00000000#32, 0x00000000#32⟩,
  ⟨"TIM_NS", 0x180018, 0x0, 1, 0x0, 1, 0x00000000#32, 0x00000000#32, 0x00000000#32, 0x00000000#32, 0x00000000#32⟩,
  ⟨"TIM_FRAC", 0x18001C, 0x0, 1, 0x0, 1, 0x00000000#32, 0x00000000#32, 0x00000000#32, 0x00000000#32, 0x00000000#32⟩,
  ⟨"TIM_OFFSET", 0x180020, 0x0, 1, 0x0, 1, 0x00000000#32, 0x00000000#32, 0x00000000#32, 0x00000000#32, 0x00000000#32⟩,
  ⟨"TIM_RATE", 0x180024, 0x0, 1, 0x0, 1, 0x00000000#32, 0x00000000#32, 0x00000000#32, 0x00000000#32, 0x00000000#32⟩]

/-- The registers of the PLC pages. -/
def regRowsPlc : List RegRow := [
  ⟨"PLC_STATUS", 0x190000, 0x0, 1, 0x0, 1, 0x00000000#32, 0x00000000#32, 0x00000000#32, 0x00000000#32, 0x00000000#32⟩,
  ⟨"PLC_INT", 0x190004, 0x0, 1, 0x0, 1, 0x00000000#32, 0x0000001F#32, 0x00000000#32, 0x00000000#32, 0x00000000#32⟩,
  ⟨"PLC_INT_EN", 0x190008, 0x0, 1, 0x0, 1, 0x0000001F#32, 0x00000000#32, 0x00000000#32, 0x00000000#32, 0x00000000#32⟩,
  ⟨"PLC_CHAIN_n", 0x190010, 0x4, 3, 0x0, 1, 0x00000000#32, 0x00000000#32, 0x00000000#32, 0x00000000#32, 0x00000000#32⟩,
  ⟨"PLC_TOLLBOOK", 0x190020, 0x0, 1, 0x0, 1, 0x00000000#32, 0x00000000#32, 0x00000000#32, 0x00000000#32, 0x00000000#32⟩,
  ⟨"PLC_CNT", 0x191000, 0x100, 4, 0x4, 18, 0x00000000#32, 0x00000000#32, 0x00000000#32, 0x00000000#32, 0x00000000#32⟩]

/-- The registers of the RFM pages. -/
def regRowsRfm : List RegRow := [
  ⟨"RFM_STATUS", 0x1A0000, 0x0, 1, 0x0, 1, 0x00000000#32, 0x00000000#32, 0x00000000#32, 0x00000000#32, 0x00000000#32⟩,
  ⟨"RFM_INT", 0x1A0004, 0x0, 1, 0x0, 1, 0x00000000#32, 0x0000003F#32, 0x00000000#32, 0x00000000#32, 0x00000000#32⟩,
  ⟨"RFM_INT_EN", 0x1A0008, 0x0, 1, 0x0, 1, 0x0000003F#32, 0x00000000#32, 0x00000000#32, 0x00000000#32, 0x00000000#32⟩,
  ⟨"RFM_RADIO_n", 0x1A0010, 0x4, 2, 0x0, 1, 0x00000000#32, 0x00000000#32, 0x00000000#32, 0x00000000#32, 0x00000000#32⟩,
  ⟨"RFM_TOLLBOOK", 0x1A0020, 0x0, 1, 0x0, 1, 0x00000000#32, 0x00000000#32, 0x00000000#32, 0x00000000#32, 0x00000000#32⟩,
  ⟨"RFM_CNT", 0x1A1000, 0x100, 3, 0x4, 23, 0x00000000#32, 0x00000000#32, 0x00000000#32, 0x00000000#32, 0x00000000#32⟩]

/-- The registers of the ETH pages. -/
def regRowsEth : List RegRow := [
  ⟨"ETH_STATUS_p", 0x1B0000, 0x2000, 2, 0x0, 1, 0x00000000#32, 0x00000000#32, 0x00000000#32, 0x00000000#32, 0x00000000#32⟩,
  ⟨"ETH_INT_p", 0x1B0004, 0x2000, 2, 0x0, 1, 0x00000000#32, 0x00000007#32, 0x00000000#32, 0x00000000#32, 0x00000000#32⟩,
  ⟨"ETH_INT_EN_p", 0x1B0008, 0x2000, 2, 0x0, 1, 0x00000007#32, 0x00000000#32, 0x00000000#32, 0x00000000#32, 0x00000000#32⟩,
  ⟨"ETH_CNT", 0x1B1000, 0x2000, 2, 0x4, 18, 0x00000000#32, 0x00000000#32, 0x00000000#32, 0x00000000#32, 0x00000000#32⟩]

/-- The registers of the HWL pages. -/
def regRowsHwl : List RegRow := [
  ⟨"HWL_STATUS", 0x1C0000, 0x0, 1, 0x0, 1, 0x00000000#32, 0x00000000#32, 0x00000000#32, 0x00000000#32, 0x00000000#32⟩,
  ⟨"HWL_INT", 0x1C0004, 0x0, 1, 0x0, 1, 0x00000000#32, 0x000000FF#32, 0x00000000#32, 0x00000000#32, 0x00000000#32⟩,
  ⟨"HWL_INT_EN", 0x1C0008, 0x0, 1, 0x0, 1, 0x000000FF#32, 0x00000000#32, 0x00000000#32, 0x00000000#32, 0x00000000#32⟩,
  ⟨"HWL_MEMBERS_LO", 0x1C000C, 0x0, 1, 0x0, 1, 0x00000000#32, 0x00000000#32, 0x00000000#32, 0x00000000#32, 0x00000000#32⟩,
  ⟨"HWL_MEMBERS_HI", 0x1C0010, 0x0, 1, 0x0, 1, 0x00000000#32, 0x00000000#32, 0x00000000#32, 0x00000000#32, 0x00000000#32⟩,
  ⟨"HWL_MIRROR", 0x1C0014, 0x0, 1, 0x0, 1, 0x00000000#32, 0x00000000#32, 0x00000000#32, 0x00000000#32, 0x00000000#32⟩,
  ⟨"HWL_MSEQ_OUT", 0x1C0018, 0x0, 1, 0x0, 1, 0x00000000#32, 0x00000000#32, 0x00000000#32, 0x00000000#32, 0x00000000#32⟩,
  ⟨"HWL_MSEQ_ACKED", 0x1C001C, 0x0, 1, 0x0, 1, 0x00000000#32, 0x00000000#32, 0x00000000#32, 0x00000000#32, 0x00000000#32⟩,
  ⟨"HWL_DIGEST", 0x1C0020, 0x0, 1, 0x0, 1, 0x00000000#32, 0x00000000#32, 0x00000000#32, 0x00000000#32, 0x00000000#32⟩,
  ⟨"HWL_DIGEST_MISMATCH", 0x1C0024, 0x0, 1, 0x0, 1, 0x00000000#32, 0x00000000#32, 0x00000000#32, 0x00000000#32, 0x00000000#32⟩,
  ⟨"HWL_ROUTE_d", 0x1C0100, 0x4, 64, 0x0, 1, 0x00000000#32, 0x00000000#32, 0x00000000#32, 0x00000000#32, 0x00000000#32⟩,
  ⟨"HWL_CNT", 0x1C0800, 0x4, 22, 0x0, 1, 0x00000000#32, 0x00000000#32, 0x00000000#32, 0x00000000#32, 0x00000000#32⟩,
  ⟨"HWLP_STATUS", 0x1C1000, 0x1000, 4, 0x0, 1, 0x00000000#32, 0x00000000#32, 0x00000000#32, 0x00000000#32, 0x00000000#32⟩,
  ⟨"HWLP_CREDITS", 0x1C1004, 0x1000, 4, 0x0, 1, 0x00000000#32, 0x00000000#32, 0x00000000#32, 0x00000000#32, 0x00000000#32⟩,
  ⟨"HWLP_CNT", 0x1C1800, 0x1000, 4, 0x4, 12, 0x00000000#32, 0x00000000#32, 0x00000000#32, 0x00000000#32, 0x00000000#32⟩]

/-- The registers of the PCI pages. -/
def regRowsPci : List RegRow := [
  ⟨"PCI_STATUS", 0x1D0000, 0x0, 1, 0x0, 1, 0x00000000#32, 0x00000000#32, 0x00000000#32, 0x00000000#32, 0x00000000#32⟩,
  ⟨"PCI_INT", 0x1D0004, 0x0, 1, 0x0, 1, 0x00000000#32, 0x0000000F#32, 0x00000000#32, 0x00000000#32, 0x00000000#32⟩,
  ⟨"PCI_INT_EN", 0x1D0008, 0x0, 1, 0x0, 1, 0x0000000F#32, 0x00000000#32, 0x00000000#32, 0x00000000#32, 0x00000000#32⟩,
  ⟨"CQ_TAIL_n", 0x1D0100, 0x10, 4, 0x0, 1, 0xFFFFFFFF#32, 0x00000000#32, 0x00000000#32, 0x00000000#32, 0x00000000#32⟩,
  ⟨"CQ_HEAD_n", 0x1D0104, 0x10, 4, 0x0, 1, 0x00000000#32, 0x00000000#32, 0x00000000#32, 0x00000000#32, 0x00000000#32⟩,
  ⟨"RQ_BASE_LO_n", 0x1D0200, 0x20, 4, 0x0, 1, 0xFFFFF000#32, 0x00000000#32, 0x00000000#32, 0x00000000#32, 0x00000000#32⟩,
  ⟨"RQ_BASE_HI_n", 0x1D0204, 0x20, 4, 0x0, 1, 0xFFFFFFFF#32, 0x00000000#32, 0x00000000#32, 0x00000000#32, 0x00000000#32⟩,
  ⟨"RQ_CTRL_n", 0x1D0208, 0x20, 4, 0x0, 1, 0x0000001F#32, 0x00000000#32, 0x00000000#32, 0x00000000#32, 0x00000000#32⟩,
  ⟨"RQ_HEAD_n", 0x1D020C, 0x20, 4, 0x0, 1, 0xFFFFFFFF#32, 0x00000000#32, 0x00000000#32, 0x00000000#32, 0x00000000#32⟩,
  ⟨"RQ_TAIL_n", 0x1D0210, 0x20, 4, 0x0, 1, 0x00000000#32, 0x00000000#32, 0x00000000#32, 0x00000000#32, 0x00000000#32⟩,
  ⟨"PCI_CNT", 0x1D1000, 0x4, 10, 0x0, 1, 0x00000000#32, 0x00000000#32, 0x00000000#32, 0x00000000#32, 0x00000000#32⟩]

/-- The registers of the block whose range starts at `n` × 0x10000 (Table 1.1). -/
def regRowsOf : Nat → List RegRow
  | 0 => regRowsDev
  | 1 => regRowsClk
  | 2 => regRowsRst
  | 3 => regRowsPwr
  | 5 => regRowsSbm
  | 6 => regRowsWay
  | 7 => regRowsSec
  | 8 => regRowsAcc
  | 9 => regRowsUpd
  | 11 => regRowsLgc
  | 12 => regRowsCch
  | 13 => regRowsTxn
  | 15 => regRowsDdr
  | 17 => regRowsFul
  | 18 => regRowsIng
  | 19 => regRowsVal
  | 20 => regRowsBil
  | 21 => regRowsBal
  | 22 => regRowsMet
  | 23 => regRowsCyc
  | 24 => regRowsTim
  | 25 => regRowsPlc
  | 26 => regRowsRfm
  | 27 => regRowsEth
  | 28 => regRowsHwl
  | 29 => regRowsPci
  | _ => []

/-- The register at a window offset, if one is implemented there. -/
def regRowAt (a : Nat) : Option RegRow := (regRowsOf (a / 0x10000)).find? fun r => r.covers a

/-- Pages of each block (Table 1.1), in window order. -/
def pagesOf : List Nat :=
  [1, 1, 1, 2, 2, 2, 2, 4, 16, 2, 4, 2, 4, 4, 2, 2, 1, 4, 8, 4, 4, 4, 2, 1, 2, 4, 4, 4, 5, 2]

/-- Table 1.1 places a page at this window offset. -/
def pageListed (a : Nat) : Bool := decide (a % 0x10000 / 0x1000 < pagesOf.getD (a / 0x10000) 0)

/-- The page belongs to a block of the AON domain: CLK, RST, PWR, MGC, SBM, WAY (Table 1.1). -/
def pageAon (a : Nat) : Bool := decide (1 ≤ a / 0x10000) && decide (a / 0x10000 ≤ 6)

end Sys2Proof.Machine
end

