-- ==== Sys2Proof/Machine/State/Balance.lean ====
section
/-!
DEFINITION. The state of BAL: signatures, series, groups, snapshots and policy (spec 07).
-/

namespace Sys2Proof.Machine

/-- A signature of a member on one receive phase (Table 7.9). -/
structure Signature where
  mean : List Nat
  cand : List Nat
  snr : Nat
  run : Nat
  valid : Bool
  candOpen : Bool
  frames : Nat
  deriving DecidableEq, Repr

/-- What waits at BAL's entrance (R205): a released record with its context index, VAL's time, index and deltas; the
RX_CYCLE by which its channel estimate is keyed (R129), and the reference angles that apply to it; or a feeder record with the SENDER item that brought it. -/
inductive BalItem where
  | record (index : Nat) (r : Record) (rxCycle : BitVec 48) (tref : Nat) (k : Option Int) (deltas : List (Option Nat)) (rotation : Bool)
  | feeder (f : FeederRecord) (sender : Option Nat)
  deriving DecidableEq, Repr

/-- A member's share of an interval (R208). -/
structure Share where
  index : Nat
  k : Int
  net : Int
  deriving DecidableEq, Repr

/-- What a feeder record gave for an interval and a phase (R209, R212). -/
structure FeederShare where
  k : Int
  phase : Nat
  energy : Int
  i2t : Nat
  outage : Bool
  long : Bool
  cycle : Nat
  current : Nat
  earth : Nat
  deriving DecidableEq, Repr

/-- The feeder of a snapshot: per phase 1 to 3 the accumulated net energy and i²t (R216); of a feeder meter its import and export registers
(R218). -/
structure FeederLatch where
  energy : List Int
  i2t : List Nat
  deriving DecidableEq, Repr

/-- The group's last snapshot that was not abandoned (R218), with the members that latched in it. -/
structure SnapBase where
  snapId : Nat
  cycle : Nat
  stamp : Nat
  feeder : Option FeederLatch
  latched : List Nat
  deriving DecidableEq, Repr

/-- A group's accumulators, open intervals, and residue and earth rings (R236), newest entry first.  `outageSince`, `longSince`: per phase,
what close records have shown since the feeder's last latch; `current`: the CURRENT that a feeder meter reported last (R212). -/
structure BalGroup where
  accumE : List Int
  accumI : List Nat
  shares : List Share
  feeders : List FeederShare
  lastFeederK : Option Int
  issued : Option Int
  base : Option SnapBase
  residues : List (List Int)
  earths : List (List Int)
  earthHigh : Bool
  outageSince : List Bool
  longSince : List Bool
  current : Nat
  deriving DecidableEq, Repr

/-- A latch of a member in a snapshot (R217): registers at the latch. -/
structure SnapLatch where
  index : Nat
  imp : Nat
  exp : Nat
  deriving DecidableEq, Repr

/-- A pending snapshot (R213 to R219).  A target of zero is not known yet: a head-end node learns it from the field sender's
snapshot record.  `feeder`, `outage` and `long` fill phase by phase; `earth` is that of the snapshot records. -/
structure Snapshot where
  group : Nat
  snapId : Nat
  target : Nat
  named : List Nat
  latched : List SnapLatch
  feeder : List (Nat × Int × Nat)
  outage : List Bool
  long : List Bool
  earth : Nat
  stamp : Option Nat
  asked : Bool
  job : Option JobRef
  deriving DecidableEq, Repr

/-- What the last result found for a member (R230), for its anomaly records. -/
structure Attribution where
  attributed : Int
  entries : Nat
  meanResidue : Int
  earthCorr : Int
  deriving DecidableEq, Repr

/-- BAL.  Signatures are numbered 3 × index + phase − 1; a series entry is the mean power and the energy over which it was taken
(R229, R230). -/
structure Bal where
  queue : List BalItem
  sigs : Table Signature
  series : Table (List (Option (Int × Int)))
  attributions : Table Attribution
  groups : Table BalGroup
  snapshots : List Snapshot
  nextSnap : Nat
  actionsToday : Nat
  actionDay : Nat
  heldDisconnects : List Nat
  deriving DecidableEq, Repr

end Sys2Proof.Machine
end

