-- ==== Sys2Proof/Machine/State/Boot.lean ====
section
/-!
DEFINITION. The state of the start sequence, the NOR partitions and the update path (spec 02, 16).
-/

namespace Sys2Proof.Machine

/-- The boot-state record (Table 2.11). -/
structure BootRecord where
  role : Nat
  flags : BitVec 6
  resetClass : Nat
  failCode : Nat
  fwVersions : List Nat
  cfgSerial : Nat
  cfgCert : BitVec 32
  formatRead : Nat
  anchor : Nat
  debug : Bool
  powerCycles : Nat
  deriving DecidableEq, Repr

/-- Progress and outcome of the start (BOOT_STATUS, CFG_* and SELFTEST), the applied image's facts and expert level.  `expertStep`: expert
level is active within the start itself, from step 13 to boot lock (R58); `watchdogAt`: when the boot ROM last restarted the boot watchdog
(R34). -/
structure Boot where
  stage : Nat
  failCode : Nat
  cfgBackup : Bool
  fwBackup : Bool
  recovery : Bool
  reduced : Bool
  expertApplied : Bool
  expertIgnored : Bool
  migrated : Bool
  headEnd : Bool
  locked : Bool
  halted : Bool
  cfgSerial : Nat
  cfgCert : BitVec 32
  formatRead : Nat
  sections : Nat
  anchor : Nat
  selftest : BitVec 32
  fwVersions : List Nat
  legalCheck : BitVec 64
  record : Option BootRecord
  expertUntil : Option Nat
  expertStep : Bool
  watchdogAt : Option Nat
  watchdogExpiries : Nat
  sdramRegions : List (Nat × Nat)
  deriving DecidableEq, Repr

/-- A firmware partition: the parts of its four slots (R31), and a part of kind 5 in staging. -/
structure FwSet where
  management : Option FwPart
  dsp : Option FwPart
  application : Option FwPart
  legal : Option FwPart
  recovery : Option FwPart
  deriving DecidableEq, Repr

/-- An entry of the migration journal (R53). -/
structure MigrationEntry where
  original : Digest
  migrated : Digest
  fromFormat : Nat
  toFormat : Nat
  result : Bool
  opTime : Nat
  deriving DecidableEq, Repr

/-- States of the update state record (Table 16.7). -/
inductive UpdState where
  | idle | staged | copying | probation | restoring
  deriving DecidableEq, Repr

/-- The update state record (Table 16.7). -/
structure UpdRecord where
  writeSeq : Nat
  state : UpdState
  stagedMask : BitVec 6
  copyStep : Nat
  baseBackup : Bool
  baseCfgBackup : Bool
  noBase : Bool
  starts : Nat
  confirmStarts : Nat
  deadline : Nat
  confirmDeadline : Nat
  healthSoak : Nat
  healthChecks : Nat
  lastResult : Nat
  floors : List Nat
  pendingFloors : List Nat
  pendingCfgFloor : Nat
  deriving DecidableEq, Repr

/-- The NOR partitions (Table 1.9) other than Waybill's, with the contents of management persistence; `updA`, `updB`: the two copies of the
update state record, none where a copy does not verify (R492); `sizeMib` is the installed size (R25,
R30). -/
structure Nor where
  bootHeader : Option BootHeader
  cfgActive : Option ConfigImage
  cfgBackup : Option ConfigImage
  cfgStaging : Option ConfigImage
  fwActive : FwSet
  fwBackup : FwSet
  fwStaging : FwSet
  recovery : Option FwPart
  cfgFloor : Nat
  journal : List MigrationEntry
  updA : Option UpdRecord
  updB : Option UpdRecord
  keyTable : Option (Table GenEntry)
  keyTableBad : Bool
  cycleReservation : Option (Nat × Nat)
  lastBoundary : Option Nat
  coordinate : Option (Nat × Nat × Nat × Nat × Nat)
  epoch : Nat
  bundleSeq : Nat
  sizeMib : Nat
  deriving DecidableEq, Repr

/-- An open delivery (R485) with the bytes it has received. -/
structure Delivery where
  part : Nat
  tag : BitVec 32
  total : Nat
  bytes : List Byte
  source : JobSource
  chain : Bool
  lastBlock : Nat
  deriving DecidableEq, Repr

/-- The next expected offset (R486). -/
def Delivery.next (d : Delivery) : Nat := d.bytes.length

/-- Phases of a campaign (UPD_CAMP_c.PHASE). -/
inductive CampPhase where
  | idle | announcing | pass | waiting | statusRound | repair
  deriving DecidableEq, Repr

/-- Meter campaign states (Table 16.10). -/
inductive CampState where
  | pending | untracked | excluded | done
  | failed (cause : Nat)
  deriving DecidableEq, Repr

/-- A meter of a campaign: its state, whether its blocks go as PUSH transactions, the missing blocks that it last reported, whether
its status read is under way, whether it has answered in the present status round, and the consecutive rounds without an answer. -/
structure CampMeter where
  gmn : Gmn
  state : CampState
  push : Bool
  missing : List Nat
  reading : Bool
  heard : Bool
  misses : Nat
  deriving DecidableEq, Repr

/-- A running campaign (R502 to R507): the announcements and blocks that its task has left to send, and when the next is due. -/
structure Campaign where
  id : Nat
  args : CampaignArgs
  image : MeterImage
  job : JobRef
  phase : CampPhase
  round : Nat
  announcesLeft : Nat
  toSend : List Nat
  due : Nat
  blocksSent : Nat
  meters : List CampMeter
  deriving DecidableEq, Repr

/-- UPD outside the state record: open deliveries, meter slots, campaigns and those that a reset ended, the operating time of
step 15, and the checks of HEALTH_CHECKS met since (R498). -/
structure Upd where
  deliveries : List Delivery
  meterSlots : Table (Option MeterImage)
  campaigns : Table (Option Campaign)
  nextCampaign : Nat
  ended : List Nat
  step15Op : Nat
  checksMet : BitVec 4
  fellBack : Bool
  deriving DecidableEq, Repr

end Sys2Proof.Machine
end

