-- ==== Sys2Proof/Machine/State/Ingest.lean ====
section
/-!
DEFINITION. The state of the ingest pipeline and of validation's lanes (spec 04, 05).
-/

namespace Sys2Proof.Machine

/-- A context operation (R116): a job of this node or of the mirror stream, a legal job on its way to Troika (R373), a
whole mirrored meter (R374), the freezing or release of a context by Troika (R190, R191), or a digest barrier (R375). -/
inductive CtxOp where
  | job (j : JobBody) (ref : Option JobRef) (mirrored : Bool)
  | legal (gmn : Gmn) (op : LegalOp) (ref : Option JobRef) (mirrored : Bool)
  | freeze (index : Nat) (frozen : Bool)
  | sync (gmn : Gmn) (reason : Nat) (ctx : Context) (slot : LegalSlot) (closed : List ClosedPeriod)
  | barrier (cutId range : Nat)
  deriving DecidableEq, Repr

/-- What waits in line with an arrival ticket: a frame, an entry that the splitter passed on with the source of its bundle and its SENDER
item, or a context operation for the lane of an index. -/
inductive LaneBody where
  | frame (f : Frame)
  | entry (e : RelayEntry) (src : Nat) (sender : Option Nat)
  | op (o : CtxOp) (lane : Fin 4)
  deriving DecidableEq, Repr

/-- A FIFO word (R103): eight 16-bit words with their parity bits, LAST, and VBYTES. -/
structure FifoWord where
  data : BitVec 128
  parity : BitVec 8
  last : Bool
  vbytes : Nat
  deriving DecidableEq, Repr

/-- A ticketed item: its 32-bit arrival ticket (R107), its FIFO words, and what they spell. -/
structure Ticketed where
  ticket : BitVec 32
  data : List FifoWord
  body : LaneBody
  deriving DecidableEq, Repr

/-- An item in a lane: the context index of its meter, if it has one, and whether it waits for a fill that it started. -/
structure LaneItem where
  index : Option Nat
  waiting : Bool
  item : Ticketed
  deriving DecidableEq, Repr

/-- A set of the context cache (R115): the tag held by each of eight ways, whether its fill is outstanding, and the
seven tree bits n0 to n6. -/
structure CacheSet where
  ways : List (Option Nat)
  filling : List Bool
  tree : List Bool
  deriving DecidableEq, Repr

/-- A pass-to-firmware entry (R126): the bytes it stores after its header, and their FCK. -/
structure FwEntry where
  index : Nat
  reason : Nat
  slots : Nat
  at_ : Nat
  frame : Frame
  stored : List Byte
  fck : Word
  answer : Option FinalHeld
  deriving DecidableEq, Repr

/-- What ING keeps of a bundle sender: its last 64 BUNDLE_SEQ values, newest first, when it was last heard,
and its SENDER_ROTATION. -/
structure SenderState where
  seqs : List (BitVec 32)
  lastHeard : Nat
  rotation : Bool
  deriving DecidableEq, Repr

/-- The ingest pipeline.  FIFOs 0 to 10 are those of Table 4.1; `inner` holds what takes a ticket inside ING: entries that
left the splitter, and context operations.  `via`: for each context index, 1 + the SENDER item through which the
meter was last heard, zero for none (the field node to which R319 relays). -/
structure Ing where
  creditsOpen : Bool
  restoring : Bool
  fifos : List (List Ticketed)
  inner : List Ticketed
  credits : List Nat
  returning : List Nat
  thrHigh : List Bool
  ticket : BitVec 32
  splitter : List Ticketed
  lanes : List (List LaneItem)
  fills : List (List Nat)
  cache : Table CacheSet
  fwWrite : Nat
  fwUsed : Nat
  fwRing : List FwEntry
  senders : Table SenderState
  via : Table Nat
  outEntries : List RelayEntry
  outBytes : Nat
  outFirst : Option Nat
  outSeq : Nat
  deriving DecidableEq, Repr

/-- A record on its way through VAL and beyond: the index of its context, whether it came by the mirror port, the record
as a bundle or the mirror port brought it (R163), the read job that it answers, and the cycle of its reception with whether that is
synthetic (R132). -/
structure ValItem where
  index : Nat
  rxCycle : BitVec 48
  rxSynth : Bool
  record : Record
  mirrored : Bool
  relayed : Option Record
  answer : Option FinalHeld
  deriving DecidableEq, Repr

/-- A validated record that waits for release, with its register deltas, the estimate that precedes it (R159) with its
own, the validation state that release writes (R162), and
since when downstream has refused it (R165). -/
structure ValHeld where
  item : ValItem
  deltas : List (Option Nat)
  estimate : Option Record
  estDeltas : List (Option Nat)
  state : ValState
  refusedAt : Option Nat
  deriving DecidableEq, Repr

/-- VAL: per lane the records handed over, and the record held for release. -/
structure Val where
  queue : List (List ValItem)
  held : List (Option ValHeld)
  lastRejectGmn : Nat
  lastRejectRule : Nat
  lastRejectSeq : BitVec 32
  deriving DecidableEq, Repr

end Sys2Proof.Machine
end

