-- ==== Sys2Proof/Machine/State/Legal.lean ====
section
/-!
DEFINITION. The state of the legal partition: Troika, the feeder register set, tariff slots, closed periods, the display
and the feeder meter MET (spec 06).
-/

namespace Sys2Proof.Machine

/-- What waits for Troika, in the order in which it reached it (R17): a validated record with VAL's t_ref, interval index
and deltas (R173); a legal job; an enrolment's clearing of a slot (R171); a tariff set (R180); a mirrored slot (R374); a declined record
that a release replays, with the job that asked and the records it has replayed (R191).  `id` names the report that waits for a record's outcome (R18). -/
inductive TroikaItem where
  | record (id index : Nat) (r : Record) (tref : Nat) (k : Option Int) (deltas : List (Option Nat))
  | legal (index : Nat) (op : LegalOp) (ref : Option JobRef) (mirrored : Bool)
  | clear (index : Nat) (a : EnrolArgs)
  | tariff (slot : Nat) (set : TariffSet) (ref : Option JobRef)
  | slot (index : Nat) (v : LegalSlot)
  | replay (index : Nat) (r : Record) (tref : Nat) (k : Option Int) (deltas : List (Option Nat)) (ref : Option JobRef) (mirrored : Bool)
      (done : List (BitVec 32))
  | cut (lane : Fin 4) (cutId range : Nat)
  deriving DecidableEq, Repr

/-- An update whose vote is not over: the units that have presented nothing, and whether two equal images have committed
it already, and when the update began (R188). -/
structure VoteWait where
  item : TroikaItem
  silent : List Nat
  committed : Bool
  since : Nat
  deriving DecidableEq, Repr

/-- Troika and the legal slots.  `units`: A, B, C in service; `sitOut` a unit that sits out the next update; `outvotes`
the operating times of each unit's outvotes within a day; `dead`: fewer than two units passed the tests (R190); `rebuildAt`: the position
in stream 8 at which a rebuild that has begun goes on (R193). -/
structure Bil where
  slots : Table LegalSlot
  feeder : LegalSlot
  tariffs : Table (List TariffSet)
  closed : Table (List ClosedPeriod)
  queue : List TroikaItem
  awaiting : List VoteWait
  units : List Bool
  sitOut : Option Nat
  outvotes : List (List Nat)
  safe : Bool
  dead : Bool
  restoring : Bool
  rebuildAt : Option Nat
  freezeGmn : Nat
  freezeCause : Nat
  deriving DecidableEq, Repr

/-- The legal core and its display (R168, R169, R198); `servedAt`: when it last showed that it runs, at its start or with a display frame
(DESIGN CHOICE, notes/assumptions/185.md). -/
structure Lgc where
  running : Bool
  displaySeq : Nat
  displayItem : Nat
  itemSince : Nat
  misses : Nat
  fault : Bool
  servedAt : Nat
  watchdogAt : Option Nat
  deriving DecidableEq, Repr

/-- MET: what it has accumulated since the last close and since the last hand-off to Troika, the RMS values of the last
cycle, the feeder's rate, and the switch that R197 holds pending.  `seq` is the node-wide feeder sequence, kept in AON. -/
structure Met where
  since : MetSample
  unhanded : List Nat
  rms : List Nat
  rate : Nat
  pendingSwitch : Bool
  seq : Nat
  closedShort : Bool
  deriving DecidableEq, Repr

end Sys2Proof.Machine
end

