-- ==== Sys2Proof/Machine/State/Links.lean ====
section
/-!
DEFINITION. The state of the power-line front end and of the radio mesh (spec 08, 09).
-/

namespace Sys2Proof.Machine

/-- A power-line frame as its bytes spell it (Table 8.4): `route` lists (address, LQ) from SRC to DST; `header` are the bytes of the link
header, `body` those between it and the FCS. -/
structure PlcFrame where
  typ : Nat
  ackReq : Bool
  tag : Option (BitVec 16)
  up : Bool
  hopIndex : Nat
  epoch : Nat
  netId : Nat
  zcDelay : Nat
  src : Nat
  dst : Nat
  seq : BitVec 16
  route : List (Nat × Nat)
  header : List Byte
  body : List Byte
  fcs : List Byte
  deriving DecidableEq, Repr

/-- A radio data frame as its bytes spell it: MAC header (Table 9.2) and mesh header (Table 9.3). -/
structure MeshFrame where
  pan : Nat
  macDst : Nat
  macSrc : Nat
  dsn : Nat
  ar : Bool
  typ : Nat
  ackReq : Bool
  up : Bool
  tag : Option (BitVec 16)
  timing : Option MeshTiming
  ttl : Nat
  ttlStart : Nat
  epoch : Nat
  netId : Nat
  dist : Nat
  src : Nat
  dst : Nat
  seq : BitVec 16
  header : List Byte
  body : List Byte
  fcs : List Byte
  deriving DecidableEq, Repr

/-- The reference cycle and the second at a frame's last sample, with SYNTH and REGRESSED (R259). -/
structure RxStamp where
  cycle : BitVec 48
  time : BitVec 32
  synth : Bool
  regressed : Bool
  deriving DecidableEq, Repr

/-- A copy of a power-line frame that passed the filter: its chain, whether it is damaged (R248), the AFE clocks from the last valid L1
crossing to its first preamble sample where they are measured (R251), its stamp, and the AFE time of its last sample. -/
structure PlcHeard where
  chain : Nat
  copy : PlcCopy
  frame : PlcFrame
  damaged : Bool
  sinceZero : Option Nat
  stamp : RxStamp
  last : Nat
  deriving DecidableEq, Repr

/-- A copy of a radio frame that passed the filter, with its SNR in 0.25 dB and its stamp. -/
structure MeshHeard where
  copy : MeshCopy
  frame : MeshFrame
  snr : Nat
  stamp : RxStamp
  deriving DecidableEq, Repr

/-- What a frame of the node carries: a transaction's request by its tag number, a broadcast command of one, a DISCOVER, an ASSIGN with
its FLAGS, a MESH_ACK, a SLOT_SET (its wake slot, ENABLE, and NEXT_WAKE in ticks of 1/32 768 s), or nothing (a DATA frame of zero
bytes). -/
inductive LinkWork where
  | request (tag : Nat)
  | command (tag : Nat)
  | discover (target : Nat)
  | assign (slot : Nat) (title : BitVec 64) (relay : Bool)
  | meshAck (seq : BitVec 16) (epoch : Nat)
  | slotSet (slot : Nat) (enable : Bool) (nextWake : Nat)
  | keepAlive
  deriving DecidableEq, Repr

/-- A path to a meter: its cost and its repeaters from the concentrator on, each with the LQ of the hop into it (R257). -/
structure LinkPath where
  cost : Nat
  hops : List (Nat × Nat)
  deriving DecidableEq, Repr

/-- A meter's routes (R257): a route that R258 marked invalid is not held. -/
structure RouteCache where
  primary : Option LinkPath
  alternate : Option LinkPath
  deriving DecidableEq, Repr

/-- A Tollbook entry (R261, R289): its key and the AFE time at which its life ends. -/
structure Tolled where
  netId : Nat
  src : Nat
  seq : BitVec 16
  epoch : Nat
  ends : Nat
  deriving DecidableEq, Repr

/-- Copies of one PLC reception (R260), and when the combine window closes. -/
structure PlcReception where
  copies : List PlcHeard
  last : Nat
  closes : Nat
  deriving DecidableEq, Repr

/-- A PLC ACK that falls due (R252): when, on which phases, and what it acknowledges with its advice (R254). -/
structure PlcDueAck where
  at_ : Nat
  phases : List Nat
  dest : Nat
  seq : BitVec 16
  epoch : Nat
  advMod : Nat
  advTm : BitVec 24
  deriving DecidableEq, Repr

/-- A PLC frame on its way out (R258, R263) with the APDU it carries: the path it is bound to, if any; the attempt, the backoff exponent,
the deferrals of the attempt and when its wait ends; the path of the attempt last sent; until when its ACK is awaited. -/
structure PlcTx where
  work : LinkWork
  apdu : Apdu
  slot : Option Nat
  dst : Nat
  seq : BitVec 16
  bound : Option LinkPath
  attempt : Nat
  be : Nat
  deferrals : Nat
  readyAt : Nat
  used : Option LinkPath
  awaiting : Bool
  waitUntil : Nat
  deriving DecidableEq, Repr

/-- A queued beacon (R97, R266): its cycle, its offset from the crossing in clocks of its domain, its command, and once its cycle is
numbered the AFE time of its launch. -/
structure BeaconDue where
  cycle : Nat
  offset : Nat
  command : Option FreezePayload
  at_ : Option Nat
  deriving DecidableEq, Repr

/-- A frame that a receive chain is inside of (R246): until when, whether its frame control header decoded, the frozen gain, and the AFE
clocks from the last valid L1 crossing to its first preamble sample. -/
structure PlcRx where
  ends : Nat
  header : Bool
  gain : Fin 97
  sinceZero : Option Nat
  deriving DecidableEq, Repr

/-- A receive chain: the frame it is inside of, and the SNR of the last frame in 0.25 dB. -/
structure PlcChain where
  rx : Option PlcRx
  lastSnr : Nat
  deriving DecidableEq, Repr

/-- A channel estimate (Table 8.8a). -/
structure ChannelEst where
  gmn : Gmn
  phase : Nat
  rxCycle : BitVec 48
  snr : Nat
  modulation : Nat
  att : List Nat
  deriving DecidableEq, Repr

/-- The power-line front end.  `txFrom` to `txUntil`: from the first enable to the last sample of the last frame sent; `epoch` lies in AON
(R261); `nextBeacon` is the cycle of the last periodic beacon posted; `caps` are the CAPS of a meter's last JOIN, by slot. -/
structure Plc where
  chains : List PlcChain
  txFrom : Nat
  txUntil : Nat
  txPhases : List Nat
  epoch : Nat
  seq : BitVec 16
  tollbook : List Tolled
  receptions : List PlcReception
  acks : List PlcDueAck
  tx : List PlcTx
  discoveries : List (Nat × Nat)
  discWaiting : List Nat
  routes : Table RouteCache
  beacons : List BeaconDue
  nextBeacon : Nat
  estimates : List ChannelEst
  caps : Table (BitVec 16)
  deriving DecidableEq, Repr

/-- Copies of one radio reception (R288), and when its combine window closes. -/
structure MeshReception where
  copies : List MeshHeard
  closes : Nat
  deriving DecidableEq, Repr

/-- An Enh-Ack that falls due (R276). -/
structure EnhAckDue where
  at_ : Nat
  radio : Nat
  chan : Nat
  dest : Nat
  dsn : Nat
  deriving DecidableEq, Repr

/-- How a radio frame is sent: a unicast with AR, a flood with its TTL, a slot exchange, a long preamble, or a unicast in the
partner's next pending window. -/
inductive MeshWay where
  | unicast
  | flood (ttl : Nat)
  | slotted
  | longPreamble
  | window
  deriving DecidableEq, Repr

/-- A radio frame on its way out with the APDU it carries; `slot` is its meter.  `readyAt`: when its backoff ends; `pending`: the frame
pending bit it was sent with; `waitUntil`: until when its Enh-Ack is awaited. -/
structure MeshTx where
  work : LinkWork
  apdu : Apdu
  slot : Option Nat
  dst : Nat
  radio : Nat
  chan : Nat
  seq : BitVec 16
  dsn : Nat
  way : MeshWay
  attempt : Nat
  be : Nat
  backoffs : Nat
  readyAt : Nat
  pending : Bool
  awaiting : Bool
  waitUntil : Nat
  deriving DecidableEq, Repr

/-- A transmission of a radio: the AFE time of its first preamble symbol, its length in AFE clocks, and its channel. -/
structure TxSpan where
  first : Nat
  airtime : Nat
  chan : Nat
  deriving DecidableEq, Repr

/-- A radio: the transmissions of the rolling window, newest first (R279); its queued beacons, each with its channel; and whether a duty
hold is in force. -/
structure Radio where
  spans : List TxSpan
  beacons : List (BeaconDue × Nat)
  holding : Bool
  deriving DecidableEq, Repr

/-- A pending window of an address (R277): until when, and whether a frame has gone out in it. -/
structure PendingWindow where
  addr : Nat
  ends : Nat
  used : Bool
  deriving DecidableEq, Repr

/-- The radio mesh.  `origin` is the AFE time at which radio time began (R292); `windows` are the pending windows that acknowledgements
opened (R277); `originated` are the AFE times at which new frames of the last second left (R289). -/
structure Rfm where
  origin : Nat
  radios : List Radio
  seq : BitVec 16
  tollbook : List Tolled
  receptions : List MeshReception
  acks : List EnhAckDue
  tx : List MeshTx
  windows : List PendingWindow
  originated : List Nat
  nextBeacon : Nat
  deriving DecidableEq, Repr

end Sys2Proof.Machine
end

