-- ==== Sys2Proof/Machine/State/Out.lean ====
section
/-!
DEFINITION. What the device sends out, drives or posts, as the model lists it: one entry per frame, response, interrupt,
pin event or event of the cycle clock, newest first.  The list is the model's own (DESIGN CHOICE, notes/assumptions/4.md): the spec names the
frames and signals, not a list of them.
-/

namespace Sys2Proof.Machine

/-- A power-line frame as sent: the enables, TX_LEVEL, the modulation, tone map and phase detection counter of its frame control header
(R244, R245), the AFE time of its first preamble sample, and its bytes. -/
structure PlcSent where
  phases : List Nat
  level : Nat
  modulation : Nat
  toneMap : BitVec 24
  pdc : BitVec 8
  first : Nat
  bytes : List Byte
  deriving DecidableEq, Repr

/-- A radio frame as sent (R271, R272): radio, channel (0 CHAN_A) and its centre in kHz, MODE, power in dBm, WHITENING, the AFE time of
its first preamble symbol and the AFE clocks of its preamble, and the PSDU. -/
structure MeshSent where
  radio : Nat
  chan : Nat
  khz : Nat
  mode : Nat
  dbm : Int
  whitening : Bool
  first : Nat
  preamble : Nat
  bytes : List Byte
  deriving DecidableEq, Repr

/-- One thing sent or driven. -/
inductive Emission where
  /-- A posted write to host memory: its address and its bytes (R401). -/
  | hostWrite (addr : Nat) (bytes : List Byte)
  /-- An MSI-X vector fires (Table 13.2): the message's address and data, as the MSI-X table gives them. -/
  | msix (vector addr : Nat) (data : Word)
  /-- A side-band response (R423) and its frame on the segment. -/
  | sideband (r : SbResponse) (frame : EthSent)
  /-- A frame on an Ethernet port (R417, R419). -/
  | ethFrame (f : EthSent)
  /-- A packet on a Herwyn port (R356): its bytes, LCRC included. -/
  | hwlPacket (port : Nat) (bytes : List Byte)
  /-- A link word on a Herwyn port (R357): the eight bytes of its control block. -/
  | linkWord (port : Nat) (bytes : List Byte)
  /-- A page programmed on the NAND array: its physical sector address, its data, and its metadata (R332, R338, R341).  The BCH parity that
  goes beside them is left out: the spec does not give the code (notes/assumptions/182.md). -/
  | nandPage (psa : Nat) (data spare : List Byte)
  /-- A bad-block mark programmed into spare byte 0 of a block's page 0 (R346). -/
  | nandMark (psa : Nat)
  /-- A display frame: its 32 bytes (Table 6.10). -/
  | display (bytes : List Byte)
  /-- A power-line frame: on which phases, at what attenuation, and as what bytes (R242, R244, R250, R252, R266). -/
  | plcFrame (f : PlcSent)
  /-- A radio frame: on what radio and channel, at what power, and as what PSDU (R272, R274, R276, R300). -/
  | meshFrame (f : MeshSent)
  /-- An event of CYC as it is posted (R76 to R79, Table 3.2): its task KIND, the cycle it names, and for a boundary the boundary in
  seconds since 2020 with the boundaries passed over; SHORT and SYNTH. -/
  | cycleEvent (kind cycle : Nat) (boundary : Option Nat) (passed : Nat) (short synth : Bool)
  /-- A level of a TPULSE output (R98). -/
  | pulse (output : Nat) (level : Bool)
  /-- A Delay_Req on an Ethernet port (R91): its traffic class, and VID and PCP of its tag (R417). -/
  | delayReq (port seq traffic : Nat) (tag : Option (Nat × Nat))
  /-- The completion of a frame with a launch time (R96): the frame, sent or not, and its lateness in ns. -/
  | launch (port traffic : Nat) (bytes : List Byte) (sent : Bool) (late : Nat)
  /-- The answer to a read (R12): master, address as the master gave it, value. -/
  | readData (master addr : Nat) (value : Word)
  /-- An access completes with an error response (R11, R15, R25, R38, R452): master, address as the master gave it. -/
  | busError (master addr : Nat)
  deriving DecidableEq, Repr

end Sys2Proof.Machine
end

