-- ==== Sys2Proof/Machine/State/Store.lean ====
section
/-!
DEFINITION. The state of Fuller, the record store: what a sector, a page and a block hold, the map, the streams and the
work in progress (spec 11).
-/

namespace Sys2Proof.Machine

/-- What a journal entry says (Table 11.6).  A context image is eight entries, parts 0 to 7; each part of the model
carries the whole context as the operation left it.  `cleared` is an enrol job's clearing of the legal slot (KIND 1). -/
inductive JournalBody where
  | job (op : LegalOp)
  | tariff (slot : Nat) (set : TariffSet)
  | cleared (a : EnrolArgs)
  | declined (seq : BitVec 32) (code : Nat)
  | frozen (seq : BitVec 32) (cause : Nat)
  | image (index part : Nat) (c : Context)
  deriving DecidableEq, Repr

/-- A journal entry; its RCK is computed from the other fields. -/
structure JournalEntry where
  gmn : Gmn
  cycle : Nat
  time : Nat
  body : JournalBody
  deriving DecidableEq, Repr

/-- An entry of stream 8 (R335).  With a reading record stand the t_ref, the interval index and the deltas that VAL gave
Troika: the spec does not say from what the replay of R191 and the rebuild of R193 take them (DESIGN CHOICE,
notes/assumptions/25.md). -/
inductive StoreEntry where
  | record (r : Record) (tref : Nat) (k : Option Int) (deltas : List (Option Nat))
  | feeder (f : FeederRecord)
  | journal (j : JournalEntry)
  deriving DecidableEq, Repr

/-- A context checkpoint (R117, R337). -/
structure CtxCheckpoint where
  seq : Nat
  readPos : Nat
  cycle : Nat
  table : Table Context
  deriving DecidableEq, Repr

/-- A legal checkpoint (R193, R337): region 4, the feeder register set, the tariff slots and the freeze table. -/
structure LegalCheckpoint where
  seq : Nat
  readPos : Nat
  cycle : Nat
  slots : Table LegalSlot
  feeder : LegalSlot
  tariffs : Table (List TariffSet)
  freezes : Table Nat
  deriving DecidableEq, Repr

/-- The control record (R333, R348). -/
structure ControlRecord where
  clean : Bool
  opPermille : Nat
  balanceMib : Nat
  anomalyMib : Nat
  capacity : Nat
  len8 : Nat
  deriving DecidableEq, Repr

/-- What a logical sector holds.  A checkpoint stands with its header sector, a meter's closed periods with the first
sector of their area, and a meter image with the first sector of its slot (DESIGN CHOICE, notes/assumptions/26.md). -/
inductive SectorData where
  | control (c : ControlRecord)
  | bitmap (bad : List Nat)
  | counters (counts : List (Nat × Nat × Nat))
  | ctxCheckpoint (c : CtxCheckpoint)
  | legalCheckpoint (c : LegalCheckpoint)
  | closed (ps : List ClosedPeriod)
  | tariff (slot : Nat) (set : TariffSet)
  | meterImage (slot : Nat) (i : Option MeterImage)
  | groups (es : List (Option GroupResult))
  | anomalies (es : List (Option AnomalyRecord))
  | entries (es : List (Option StoreEntry))
  deriving DecidableEq, Repr

/-- A programmed page with its metadata (Table 11.2): four sectors with their LSAs, `none` an unused position. -/
structure StorePage where
  seq : Nat
  gcCopy : Bool
  sectors : List (Option (Nat × SectorData))
  deriving DecidableEq, Repr

/-- Block states (R341, R342, R346). -/
inductive BlockState where
  | free | openNew | openCopy | closed | retired | factoryBad
  deriving DecidableEq, Repr

/-- A block: its pages, its counts and its summary; `marked`: it carries a bad-block mark in spare byte 0 of page 0 (R346). -/
structure Block where
  state : BlockState
  pages : List StorePage
  erases : Nat
  reads : Nat
  closeKind : Nat
  closeTime : Nat
  summary : Bool
  marked : Bool
  deriving DecidableEq, Repr

/-- A chip enable's parameter page (R331). -/
structure NandCe where
  pageBytes : Nat
  spareBytes : Nat
  pages : Nat
  blocks : Nat
  luns : Nat
  pairGroup : Nat
  retryLevels : Nat
  trained : Bool
  mode : Nat
  deriving DecidableEq, Repr

/-- A physical place: block, page and sector within the page. -/
structure Loc where
  block : Nat
  page : Nat
  pos : Nat
  deriving DecidableEq, Repr

/-- A circular stream: free-running sector counts of its tail and its head. -/
structure Stream where
  tail : Nat
  head : Nat
  deriving DecidableEq, Repr

/-- The sector that a stream is filling: its entries, how many of them are programmed, and since when the first
unprogrammed one waits (R338). -/
structure OpenSector (α : Type) where
  entries : List α
  programmed : Nat
  since : Option Nat
  deriving DecidableEq, Repr

/-- What waits at Fuller's entrance.  `id` names the report that waits for a record's acceptance (R18). -/
inductive FulItem where
  | record (id : Nat) (r : Record) (tref : Nat) (k : Option Int) (deltas : List (Option Nat))
  | pair (idE : Nat) (e : Record) (trefE : Nat) (kE : Option Int) (deltasE : List (Option Nat)) (id : Nat) (r : Record)
      (tref : Nat) (k : Option Int) (deltas : List (Option Nat))
  | feeder (f : FeederRecord) (mseq : Option (BitVec 32))
  | journal (js : List JournalEntry)
  | group (g : GroupResult)
  | anomaly (a : AnomalyRecord)
  | closed (index : Nat) (p : ClosedPeriod)
  | tariff (slot : Nat) (set : TariffSet) (ref : Option JobRef)
  | meterImage (slot : Nat) (i : Option MeterImage)
  deriving DecidableEq, Repr

/-- A collection in progress (R344): the victim and the first page not yet copied. -/
structure Collection where
  victim : Nat
  next : Nat
  refresh : Bool
  deriving DecidableEq, Repr

/-- Fuller.  `ces` are the parts fitted on the sixteen chip enables; `dirty` the sectors that wait for a page, oldest first. -/
structure Ful where
  ces : List (Option NandCe)
  used : List Nat
  blocks : Table Block
  map : Table (Option Loc)
  nextSeq : Nat
  dirty : List (Nat × SectorData)
  open6 : OpenSector GroupResult
  open7 : OpenSector AnomalyRecord
  open8 : OpenSector StoreEntry
  stream4 : Stream
  stream6 : Stream
  stream7 : Stream
  stream8 : Stream
  control : Option ControlRecord
  queue : List FulItem
  holding : Bool
  collection : Option Collection
  collecting : Bool
  refresh : List Nat
  rotate : Nat
  rebuilding : Bool
  heldForCheckpoint : Bool
  cleanStart : Bool
  formatted : Bool
  itemsIgnored : Bool
  shrunk : Bool
  stopped : Bool
  rebuildMs : Nat
  probes : Nat
  rebuildFrom : Nat
  warned : Bool
  ckptCtx : Option CtxCheckpoint
  ckptLegal : Option LegalCheckpoint
  ctxSeq : Nat
  legalSeq : Nat
  ctxReadPos : Option Nat
  legalReadPos : Option Nat
  freezes : Table Nat
  snapshotAt : Nat
  deriving DecidableEq, Repr

/-- A reading whose report waits (R18): for Troika's outcome, Fuller's acceptance and the mirror's acknowledgement of
`mseq`. -/
structure PendingReading where
  id : Nat
  record : Record
  outcome : Option Nat
  stored : Bool
  mseq : Option (BitVec 32)
  answer : Option FinalHeld
  fromMirror : Bool
  deriving DecidableEq, Repr

/-- The readings whose reports wait, in the order in which they were released. -/
structure Readings where
  next : Nat
  waiting : List PendingReading
  deriving DecidableEq, Repr

end Sys2Proof.Machine
end

