-- ==== Sys2Proof/Machine/State/Time.lean ====
section
/-!
DEFINITION. The state of the mains cycle clock, wall time, PTP and the pulse outputs (spec 03).
-/

namespace Sys2Proof.Machine

/-- One phase of the cycle clock (R64 to R67).  Times are AFE clocks; `periods` are the last 16 valid periods, newest first, and
`runPeriods` those of the run from which R67 decides the nominal frequency. -/
structure Phase where
  lastAccepted : Option Nat
  lastValid : Option Nat
  validRun : Nat
  present : Bool
  cycle : Nat
  periods : List Nat
  runPeriods : List Nat
  deriving DecidableEq, Repr

/-- A realised cycle of the history of R80: number, wall-time stamp in seconds and nanoseconds, AFE time, synthetic. -/
structure CycleStamp where
  cycle : Nat
  sec : Nat
  ns : Nat
  afe : Nat
  synth : Bool
  regressed : Bool
  deriving DecidableEq, Repr

/-- A boundary cycle of the history of R80; `stamp` is its wall-time stamp in ns. -/
structure BoundaryStamp where
  index : Nat
  boundary : Nat
  cycle : Nat
  synth : Bool
  stamp : Nat
  deriving DecidableEq, Repr

/-- The mains cycle clock (CYC).  `source` 0 to 2 a phase, 3 synthetic; `passedOver`: the first crossing on a new source was not
numbered (R68); `lastAt` is the AFE time of the latest numbered cycle, `lastReal` the latest real cycle of the present presence of
mains, and `realBoundary` whether it was a boundary cycle (R77).  `stamps` and `boundaries` are the histories of R80, newest
first; `lastBoundary` is the wall time of the last realised boundary in seconds since 2020 (R549), and `realisedTo` the latest stamp up to
which switch points and period ends are realised (R76).  `shadow` to `trimAcc` are
AON's: the shadow with its accumulator, RTC_TRIM in force and its remainder (R73, R90). -/
structure Cyc where
  phases : List Phase
  source : Nat
  pendingSource : Option Nat
  passedOver : Bool
  num : Nat
  synth : Bool
  lastAt : Nat
  lastReal : Option CycleStamp
  realBoundary : Bool
  nominal60 : Bool
  nominalDecided : Bool
  reseeded : Bool
  rotation : Bool
  saturated : Bool
  angle2 : Nat
  angle3 : Nat
  noise : Nat
  outOfWindow : Nat
  stamps : List CycleStamp
  boundaries : List BoundaryStamp
  lastBoundary : Option Nat
  realisedTo : Option Nat
  running : Bool
  shadow : Nat
  shadowAcc : Nat
  shadowValid : Bool
  rtcTrim : Int
  trimAcc : Int
  checkpointCount : Nat
  legalCheckpointCount : Nat
  deriving DecidableEq, Repr

/-- A foreign master: its latest Announce and when it was heard (R92). -/
structure Foreign where
  announce : PtpAnnounce
  heard : Nat
  deriving DecidableEq, Repr

/-- A Sync waiting for its Follow_Up (R547): master, sequence, t2 and the Sync interval; times in tenths of a ns TAI. -/
structure PtpSync where
  master : BitVec 64
  seq : Nat
  t2 : Int
  logInterval : Int
  deriving DecidableEq, Repr

/-- The latest Delay_Req and Delay_Resp exchange with a master (R547), and when its Delay_Resp came. -/
structure PtpExchange where
  master : BitVec 64
  t3 : Int
  t4 : Int
  heard : Nat
  deriving DecidableEq, Repr

/-- The PTP slave on one Ethernet port (R91 to R93).  `request`: the Delay_Req sent and not yet answered, with its t3. -/
structure PtpPort where
  foreign : List Foreign
  sync : Option PtpSync
  nextSeq : Nat
  request : Option (Nat × Int)
  requestAt : Option Nat
  exchange : Option PtpExchange
  delayInterval : Int
  deriving DecidableEq, Repr

/-- An open wall-time step permit (R87). -/
structure StepPermit where
  opened : Nat
  window : Nat
  maxStep : Nat
  job : JobRef
  deriving DecidableEq, Repr

/-- A TPULSE output (R98, R99): its schedule in ns TAI (`start` zero when disabled), the next instant not yet emitted, the level, the
wall time in ns at which the pulse in progress falls, and the instants that steps skipped. -/
structure Pulse where
  start : Nat
  period : Nat
  width : Nat
  next : Nat
  level : Bool
  fallAt : Option Nat
  skipped : Nat
  deriving DecidableEq, Repr

/-- Wall time and its discipline (TIM).  `wall` is wall time, in units of 2⁻¹⁶ ns since 1970-01-01 TAI, at tick `anchor`, and `rate`
the correction in force in units of 1/256 ppb.  `master` is the selected master with its port,
`lastSource` the source (1 ETH0, 2 ETH1, 3 host) and master of the latest passed sample, at tick `lastSample`; `window` holds the filter's samples,
`clamped` the direction in which the servo's output was clamped, `goodRun` and `badRun` the runs of LOCKED.  `leap` is the change
due at the end of UTC day `leapDay`. -/
structure Tim where
  running : Bool
  anchor : Nat
  wall : Nat
  rate : Int
  valid : Bool
  stepped : Bool
  lockedBit : Bool
  refusedRun : Bool
  refusedCount : Nat
  regressed : Bool
  holdover : Bool
  sourceActive : Nat
  master : Option (Fin 2 × BitVec 64)
  offset : Int
  window : List Int
  integral : Int
  clamped : Int
  propUntil : Option Nat
  lastSource : Option (Nat × BitVec 64)
  lastSample : Option Nat
  goodRun : Nat
  badRun : Nat
  permit : Option StepPermit
  utcOffset : Nat
  leap : Int
  leapDay : Nat
  ports : List PtpPort
  pulses : List Pulse
  aonWall : Nat
  aonAt : Nat
  aonValid : Bool
  deriving DecidableEq, Repr

end Sys2Proof.Machine
end

