-- ==== Sys2Proof/Machine/State.lean ====
section
/-!
DEFINITION. The state of the device as plain data, the stops a command can end in, and the state right after reset.
-/

namespace Sys2Proof.Machine

/-- No command of this device ends in a fault: every error of the spec is a response, a counter, an event, a report or
an interrupt bit, and so part of the next state. -/
inductive Fault where
  deriving DecidableEq, Repr

/-- Refusals. -/
inductive Refusal where
  /-- Raised by Dispatch.lean for a command that has no meaning yet; safe. -/
  | notModelled (mnemonic : String)
  deriving DecidableEq, Repr

/-- A mark of an event rate limit (R20): the cause, the meter it names (0 none), and for a one-second limit the second. -/
structure Limit where
  source : Nat
  code : Nat
  set : Nat
  who : Nat
  span : Nat
  second : Nat
  deriving DecidableEq, Repr

/-- The whole state. -/
structure State where
  pending : List Instr
  now : Nat
  draws : Nat
  regs : Table (BitVec 32)
  latches : Table (Option (BitVec 32))
  cfg : Table (List Byte)
  limits : List Limit
  out : List Emission
  boot : Boot
  nor : Nor
  sec : Sec
  way : Way
  pwr : Pwr
  rst : Rst
  pins : Pins
  host : HostIf
  eth : Eth
  sb : Sb
  cch : Cch
  txn : Txn
  upd : Upd
  cyc : Cyc
  tim : Tim
  ctx : Table Context
  ing : Ing
  val : Val
  hwl : Hwl
  bil : Bil
  lgc : Lgc
  met : Met
  bal : Bal
  ful : Ful
  readings : Readings
  plc : Plc
  rfm : Rfm
  mem : Table (Option Byte)
  deriving DecidableEq, Repr

/-! ## The state right after reset -/

/-- An erased log. -/
def Log.erased : Log := ⟨none, none, [], 0, false, false, none⟩

/-- Fuses of which none has been burnt, but for a check word that suits the root of zeros (DESIGN CHOICE, notes/assumptions/2.md). -/
def Fuses.blank : Fuses := ⟨0, 0, 0, 0x8A9136AA, 0, [0, 0, 0, 0], 0, [0, 0, 0, 0], false, false, 0, 0, 0, 0⟩

/-- A firmware partition that is erased. -/
def FwSet.erased : FwSet := ⟨none, none, none, none, none⟩

/-- The start's progress before step 1 (BOOT_STATUS, CFG_SERIAL, CFG_INFO, CFG_CERT, SELFTEST: 0). -/
def Boot.atReset : Boot :=
  ⟨0, 0, false, false, false, false, false, false, false, false, false, false, 0, 0, 0, 0, 0, 0, [0, 0, 0, 0], 0, none, none, false, none, 0, []⟩

/-- Every NOR partition erased. -/
def Nor.erased : Nor :=
  ⟨none, none, none, none, .erased, .erased, .erased, none, 0, [], none, none, none, false, none, none, none, 0, 0, 64⟩

/-- SEC at reset: nothing derived, measured or cached. -/
def Sec.atReset : Sec :=
  ⟨.blank, [], [], false, false, false, none, false, false, 0, none, List.replicate 8 0, [], [], [], [], none, [], 0⟩

/-- Waybill at power-on reset: erased logs, an empty buffer, counts of zero. -/
def Way.atReset : Way := ⟨.erased, .erased, .erased, [], false, [], 0, 0, 0, 0⟩

/-- PWR at reset: mode BOOT, budget level 0, every core but VAC0 parked. -/
def Pwr.atReset : Pwr :=
  ⟨.boot, 0, false, true, false, true, 0, false, none, [0, 0, 0, 0], 0, [0, 0, 0, 0], false, none, false, none, false, none, false, 0,
   false, 0, none, 0, none, 0, false, 0xFFE⟩

/-- RST at power-on reset (RST_CAUSE: class POR, no class before it). -/
def Rst.atReset : Rst := ⟨.por, .por, false, false, false, none, none, 0, false, none, false⟩

/-- The rails at power-on reset: in range, PWR_EN_MAIN high; VDD_AON has just risen. -/
def Pins.atReset : Pins := ⟨true, true, true, true, 0, false, false, false, false, 0⟩

/-- The host interface at reset: no queue set up or open. -/
def HostIf.atReset : HostIf :=
  ⟨List.replicate 4 ⟨0, 0⟩, 3, List.replicate 4 ⟨0, 0, 0, false, 0, 0, 0, none, []⟩, false, [], [], 0, 0⟩

/-- The Ethernet ports at reset: every gate open (R418). -/
def Eth.atReset : Eth := ⟨List.replicate 2 ⟨0, false, false, 0xFF, false, 0, [], []⟩, [], []⟩

/-- Coachman at reset. -/
def Cch.atReset : Cch := ⟨[], List.replicate 16 ⟨none, false, 0, []⟩, [], [], 0, [none, none, none, none], [0, 0, 0, 0]⟩

/-- UPD outside its state record at reset. -/
def Upd.atReset : Upd := ⟨[], [], [], 0, [], 0, 0, false⟩

/-- The cycle clock at power-on reset (CYC_STATUS: SOURCE 3); AON holds no shadow. -/
def Cyc.atReset : Cyc :=
  ⟨List.replicate 3 ⟨none, none, 0, false, 0, [], []⟩, 3, none, false, 0, false, 0, none, false, false, false, false, false, false, 0, 0, 0,
   0, [], [], none, none, false, 0, 0, false, 0, 0, 0, 0⟩

/-- Wall time at power-on reset (TIM_STATUS: HOLDOVER 1); AON holds no time. -/
def Tim.atReset : Tim :=
  ⟨false, 0, 0, 0, false, false, false, false, 0, false, true, 0, none, 0, [], 0, 0, none, none, none, 0, 0, none, 0, 0, 0,
   List.replicate 2 ⟨[], none, 0, none, none, none, 0⟩, List.replicate 2 ⟨0, 0, 0, 0, false, none, 0⟩, 0, 0, false⟩

/-- The capacity in 16-byte words of the eleven ingest FIFOs (Table 4.1). -/
def fifoCapacities : List Nat := [512, 512, 512, 512, 512, 2048, 2048, 2048, 1024, 512, 512]

/-- Ingest at reset: FIFOs and lanes empty, each producer holding the full capacity as credits (R105), which are first issued when the
restore has ended (R118: `creditsOpen`). -/
def Ing.atReset : Ing :=
  ⟨false, true, List.replicate 11 [], [], fifoCapacities, List.replicate 11 0, List.replicate 11 false, 0#32, [], List.replicate 4 [],
   List.replicate 4 [], [], 0, 0, [], [], [], [], 0, none, 0⟩

/-- VAL at reset. -/
def Val.atReset : Val := ⟨List.replicate 4 [], List.replicate 4 none, 0, 0, 0⟩

/-- A Herwyn port held in reset. -/
def HwlPort.atReset : HwlPort := ⟨.down, false, none, none, 0, 0, [], 0, 0, [], [], 0, 0, none, 0, [], none, [], none, false⟩

/-- The fabric at reset: no node ID, no pair, ACT_OWN_OUT low. -/
def Hwl.atReset : Hwl :=
  ⟨List.replicate 4 .atReset, false, 0, 0, 0, false, none, none, 0, 0, [], [], false, false, false, false, 0, 0, 0, false, false, false, false,
   false, 0, 0, [], 0, [], none, none, [], [], [], [], [], [], 0, [], false, false, false, none, none, false, false, 0, 0, none, 0⟩

/-- Troika at reset (BIL_STATUS: UNITS 0b111, RESTORING 1). -/
def Bil.atReset : Bil := ⟨[], .fresh, [], [], [], [], [true, true, true], none, [[], [], []], false, false, true, none, 0, 0⟩

/-- The legal core at reset: held. -/
def Lgc.atReset : Lgc := ⟨false, 0, 0, 0, 0, false, 0, none⟩

/-- A phase of MET at the start of an accumulation. -/
def metPhaseZero : MetPhase := ⟨[0, 0, 0, 0], 0, 0, 0, false, false⟩

/-- MET at reset. -/
def Met.atReset : Met :=
  ⟨⟨List.replicate 3 metPhaseZero, 0, 0, 0, List.replicate 7 0, 0⟩, [0, 0, 0, 0], List.replicate 7 0, 0, false, 0, false⟩

/-- BAL at reset. -/
def Bal.atReset : Bal := ⟨[], [], [], [], [], [], 0, 0, 0, []⟩

/-- Fuller at reset: no part known, the map to be rebuilt. -/
def Ful.atReset : Ful :=
  ⟨List.replicate 16 none, [], [], [], 0, [], ⟨[], 0, none⟩, ⟨[], 0, none⟩, ⟨[], 0, none⟩, ⟨0, 0⟩, ⟨0, 0⟩, ⟨0, 0⟩, ⟨0, 0⟩, none, [], false,
   none, false, [], 0, true, false, false, false, false, false, false, 0, 0, 0, false, none, none, 0, 0, none, none, [], 0⟩

/-- The power-line front end at power-on reset. -/
def Plc.atReset : Plc :=
  ⟨List.replicate 3 ⟨none, 0⟩, 0, 0, [], 0, 0, [], [], [], [], [], [], [], [], 0, [], []⟩

/-- The radio mesh at reset. -/
def Rfm.atReset : Rfm := ⟨0, List.replicate 2 ⟨[], [], false⟩, 0, [], [], [], [], [], [], 0⟩

/-- The machine right after a power-on reset, before step 1 of the start: every register at its reset value, every queue empty, the
rails up; NOR, fuses, NAND and the AON memory hold nothing (DESIGN CHOICE: the spec gives them no reset value, notes/assumptions/2.md). -/
def State.reset : State :=
  ⟨[], 0, 0, [], [], [], [], [], .atReset, .erased, .atReset, .atReset, .atReset, .atReset, .atReset, .atReset, .atReset,
   ⟨false, false, [], []⟩, .atReset, ⟨[], [], false, false, false, 0, []⟩, .atReset, .atReset, .atReset, [], .atReset, .atReset, .atReset,
   .atReset, .atReset, .atReset, .atReset, .atReset, ⟨0, []⟩, .atReset, .atReset, []⟩

end Sys2Proof.Machine
end

