-- ==== Sys2Proof/Machine/Ops.lean ====
section
/-!
DEFINITION. The shared operations: time, settings, registers, counters, interrupts, reports and events.
-/

namespace Sys2Proof.Machine

/-! ## Time -/

/-- AFE clocks per second (Table 1.10): the model's one time base. -/
def ticksPerSec : Nat := 24576000

/-- AFE clocks per millisecond. -/
def ticksPerMs : Nat := 24576

/-- Seconds between 1970-01-01 and 2020-01-01 TAI as the spec writes record times (Table 4.2). -/
def epoch2020 : Nat := 1577836800

/-- Time never runs back: a command that names a time moves `now` forward to it. -/
def State.advance (s : State) (t : Nat) : State := { s with now := max s.now t }

/-- Milliseconds of the AON oscillator (the TXN tick of R313). -/
def State.ms (s : State) : Nat := s.now / ticksPerMs

/-- Microseconds of the AON oscillator (Coachman's dispatch clock, R322). -/
def State.us (s : State) : Nat := s.now * 125 / 3072

/-- Wall time at an AFE tick, in units of 2⁻¹⁶ ns since 1970-01-01 TAI, from the anchor and the rate in force (R7, R84). -/
def Tim.wallAt (t : Tim) (tick : Nat) : Nat :=
  (((tick : Int) - t.anchor) * 8000000 * (256000000000 + t.rate) / 768000000000 + t.wall).toNat

/-- Wall time now, 2⁻¹⁶ ns. -/
def State.wall (s : State) : Nat := s.tim.wallAt s.now

/-- Nanoseconds part and seconds part of a wall-time value. -/
def wallSecOf (w : Nat) : Nat := w / 65536 / 1000000000

/-- Nanoseconds within the second. -/
def wallNsOf (w : Nat) : Nat := w / 65536 % 1000000000

/-- Wall-time seconds since 1970-01-01 TAI. -/
def State.wallSec (s : State) : Nat := wallSecOf s.wall

/-- Wall-time seconds since 2020-01-01 TAI, as records and envelopes carry them. -/
def State.sec2020 (s : State) : Nat := s.wallSec - epoch2020

/-- A fresh draw number for a free value; every draw is a different argument of an opaque function of Config. -/
def State.drawn (s : State) : State := { s with draws := s.draws + 1 }

/-! ## Settings (R43 to R46) -/

/-- Default MAC address (Table 13.12): 0x02, then DEVICE_SERIAL bytes 4 to 0 with bits 1:0 of the last replaced. -/
def defaultMac (serial : BitVec 64) (port : Nat) : List Byte :=
  let b := leBytes 5 serial.toNat
  0x02#8 :: (b.drop 1).reverse ++ [BitVec.ofNat 8 ((b.getD 0 0).toNat / 4 * 4 + port), 0, 0]

/-- The default of an item, with the defaults that depend on role, grade or serial. -/
def State.itemDefault (s : State) (key : Nat) : List Byte :=
  if key = iMainsSource ∧ s.boot.headEnd = true then leBytes 4 1
  else if key = iThermalWakeC ∧ s.sec.fuses.grade = 1 then leBytes 4 85
  else if key = iThrottleC ∧ s.sec.fuses.grade = 1 then leBytes 4 95
  else if key = iB2C ∧ s.sec.fuses.grade = 1 then leBytes 4 100
  else if key = iShutdownC ∧ s.sec.fuses.grade = 1 then leBytes 4 105
  else if key = iMacAddrEth0 then defaultMac s.sec.fuses.serial 0
  else if key = iMacAddrEth1 then defaultMac s.sec.fuses.serial 1
  else if key = iSbMac then defaultMac s.sec.fuses.serial 2
  else match itemDef (key / 0x10000) (key % 0x10000) with
    | some d => d.dflt
    | none => []

/-- The value in force of a setting: applied from the image, or its default (R45). -/
def State.itemBytes (s : State) (key : Nat) : List Byte :=
  match Table.get [] s.cfg key with
  | [] => s.itemDefault key
  | v => v

/-- A setting as an unsigned number. -/
def State.item (s : State) (key : Nat) : Nat := leNat (s.itemBytes key)

/-- A 4-byte setting as a signed number. -/
def State.itemInt (s : State) (key : Nat) : Int := signedOf 32 (s.item key)

/-- `n` bytes at offset `o` of a setting, as a number. -/
def State.itemField (s : State) (key o n : Nat) : Nat := leNat (((s.itemBytes key).drop o).take n)

/-- The side-band port answers (R422): it runs, and SB_ENABLE allows it (notes/assumptions/71.md, DEDUCED). -/
def State.sbOpen (s : State) : Bool := s.sb.up && decide (s.item iSbEnable ≠ 0)

/-- Nominal mains frequency in Hz (R67). -/
def State.nominalHz (s : State) : Nat := if s.cyc.nominal60 = true then 60 else 50

/-- PIPE is off in GASP from its entry, in STANDBY and in RECOVERY: ING, VAL and BAL stand still (Tables 1.10, 15.5; R469). -/
def State.pipeOff (s : State) : Bool := decide (s.pwr.mode = .gasp ∨ s.pwr.mode = .standby ∨ s.pwr.mode = .recovery)

/-! ## Registers, counters and interrupts -/

/-- A stored register word; an unlisted register holds zero. -/
def State.reg (s : State) (a : Nat) : Word := Table.get 0 s.regs a

/-- Store a register word. -/
def State.setReg (s : State) (a : Nat) (v : Word) : State := { s with regs := Table.set 0 s.regs a v }

/-- Raise a counter, saturating at 0xFFFFFFFF (Table 17.6). -/
def State.bumpBy (s : State) (c : Counter) (n : Nat) : State :=
  s.setReg c.addr (BitVec.ofNat 32 (satAdd 32 (s.reg c.addr).toNat n))

/-- Raise a counter by one. -/
def State.bump (s : State) (c : Counter) : State := s.bumpBy c 1

/-- Raise a 16-bit half of a register word by one, saturating (PAGE_IGNORED_t, SRC_DROP_n). -/
def State.bumpHalf (s : State) (a : Nat) (high : Bool) : State :=
  let w := s.reg a
  let lo := w.toNat % 65536
  let hi := w.toNat / 65536
  s.setReg a (BitVec.ofNat 32 (if high = true then lo + 65536 * satAdd 16 hi 1 else satAdd 16 lo 1 + 65536 * hi))

/-- List something sent or driven. -/
def State.emit (s : State) (e : Emission) : State := { s with out := e :: s.out }

/-- Where the words of BAR4 stand among the register words: past the 16 MiB of the register window. -/
def msixBase : Nat := 0x1000000

/-- A word of the MSI-X table's entry of a vector (R395): message address low and high, data, vector control. -/
def msixWordAt (vector w : Nat) : Nat := msixBase + 16 * vector + 4 * w

/-- The pending-bit array (Table 13.1). -/
def msixPending : Nat := msixBase + 0x2000

/-- A vector is masked: its vector control's bit 0, which is stored inverted since every vector is masked at reset (PRESUMED: PCIe's rule,
notes/assumptions/173.md). -/
def State.msixMasked (s : State) (vector : Nat) : Bool := !(s.reg (msixWordAt vector 3)).getLsbD 0

/-- The message of a vector goes out. -/
def State.msixMessage (s : State) (v : Nat) : State :=
  s.emit (.msix v ((s.reg (msixWordAt v 0)).toNat + 2 ^ 32 * (s.reg (msixWordAt v 1)).toNat) (s.reg (msixWordAt v 2)))

/-- A vector fires where it is unmasked (R395); a masked one becomes pending. -/
def State.fire (s : State) (v : Nat) : State :=
  if s.msixMasked v = true then s.setReg msixPending (s.reg msixPending ||| (1#32 <<< v)) else s.msixMessage v

/-- The MSI-X vector of an interrupt register (Table 13.2): PCI_INT fires vector 7, or 5 for CQ_SPACE; every other
block's register fires the summary vector 0. -/
def intVector (a bit : Nat) : Nat := if a = 0x1D0004 then (if bit = 3 then 5 else 7) else 0

/-- Set a cause in an interrupt register; its enable lies in the next register.  An enabled cause fires its vector (R395). -/
def State.raiseInt (s : State) (a bit : Nat) : State :=
  let s1 := s.setReg a (s.reg a ||| (1#32 <<< bit))
  if (s.reg (a + 4)).getLsbD bit = true then s1.fire (intVector a bit) else s1

/-! ## Reports (R402, R410) -/

/-- The type code of a report (Table 13.6). -/
def ReportBody.type : ReportBody → Nat
  | .jobResult _ _ _ _ => 1
  | .reading _ _ => 2
  | .feederReading _ => 2
  | .groupResult _ => 3
  | .anomaly _ => 4
  | .closedPeriod _ => 5
  | .alarm _ _ _ => 6
  | .txnOutcome _ _ _ _ => 7
  | .bundle _ => 8
  | .event _ _ _ => 9
  | .mode _ _ _ => 10

/-- The report queue's registers as state. -/
def State.rq (s : State) (n : Nat) : ReportQueue :=
  s.host.rqs.getD n ⟨0, 0, 0, false, 0, 0, 0, none, []⟩

/-- A peer's item: MAC, port, roles, identity and key slot (PEER_i of Table 13.12). -/
structure PeerItem where
  mac : Nat
  port : Nat
  roles : BitVec 8
  peerId : Nat
  keySlot : Nat
  deriving DecidableEq, Repr

/-- PEER_i; an unused item has identity zero. -/
def State.peer (s : State) (i : Nat) : PeerItem :=
  ⟨s.itemField (iPeer i) 0 6, s.itemField (iPeer i) 6 1, BitVec.ofNat 8 (s.itemField (iPeer i) 7 1),
   s.itemField (iPeer i) 8 4, s.itemField (iPeer i) 12 1⟩

/-- The peers that hold a role bit. -/
def State.peersWith (s : State) (role : Nat) : List (Fin 32) :=
  (List.finRange 32).filter fun i => decide ((s.peer i.val).peerId ≠ 0) && (s.peer i.val).roles.getLsbD role

/-- The Ethernet port through which a peer is reached: its own, or ETH0 for `either`. -/
def PeerItem.usePort (p : PeerItem) : Fin 2 := if p.port = 1 then 1 else 0

/-- Put a report in line for a destination. -/
def State.enqueue (s : State) (d : ReportDest) (r : Report) : State :=
  { s with host := { s.host with waiting := s.host.waiting ++ [⟨d, r, s.now, false⟩] } }

/-- Destinations of an unsolicited report (R402): the queue that RQ_MAP gives when it is set up, and each REPORTS peer. -/
def State.unsolicitedDests (s : State) (typ : Nat) : List ReportDest :=
  let q := s.item iRqMap / 16 ^ typ % 16
  (if h : q < 4 then (if (s.rq q).enable = true then [ReportDest.rq ⟨q, h⟩] else []) else []) ++
    (s.peersWith 1).map fun (i : Fin 32) => ReportDest.eth (s.peer i.val).usePort i

/-- Send a report to a list of destinations; with none, REPORTS_UNROUTED is counted (R402). -/
def State.route (s : State) (ds : List ReportDest) (r : Report) : State :=
  match ds with
  | [] => s.bump cPciReportsUnrouted
  | _ => ds.foldl (fun st d => st.enqueue d r) s

/-- Issue an unsolicited report (R402). -/
def State.reportOut (s : State) (b : ReportBody) : State :=
  s.route (s.unsolicitedDests b.type) ⟨b, .none, true, false, false, 0, s.hwl.nodeId⟩

/-- Where a job's reports go (R402): the queue the job names, if set up, or back to the source that sent it. -/
def State.jobDest (s : State) (j : JobRef) : List ReportDest :=
  match j.source with
  | .cq _ => if (s.rq j.rq).enable = true then [.rq j.rq] else []
  | .eth p i => [.eth p i]
  | .sideband m => [.sideband m]
  | .fabric p n => [.fabric p n]

/-- Send a report of a job. -/
def State.jobReport (s : State) (j : JobRef) (b : ReportBody) (d : ReportData) (final : Bool) : State :=
  s.route (s.jobDest j) ⟨b, d, final, false, false, j.jobId, s.hwl.nodeId⟩

/-! ## Events (17) -/

/-- A log by its name. -/
def Way.log (w : Way) : LogId → Log
  | .legal => w.legal
  | .security => w.security
  | .operations => w.operations

/-- Replace a log. -/
def Way.setLog (w : Way) : LogId → Log → Way
  | .legal, l => { w with legal := l }
  | .security, l => { w with security := l }
  | .operations, l => { w with operations := l }

/-- The log's index (Table 17.1). -/
def logIndex : LogId → Nat
  | .legal => 0
  | .security => 1
  | .operations => 2

/-- Record slots N of a log (Table 17.1). -/
def logCapacity : LogId → Nat
  | .legal => 4096
  | .security => 16384
  | .operations => 65536

/-- The header in force: the valid copy with the higher WRITE_SEQ (R511). -/
def Log.header (l : Log) : Option LogHeader :=
  match l.headerA, l.headerB with
  | none, h => h
  | some a, none => some a
  | some a, some b => if a.writeSeq < b.writeSeq then some b else some a

/-- Records buffered for a log and decided as logged. -/
def Way.bufferedFor (w : Way) (g : LogId) : Nat := (w.buffer.filter fun e => decide (e.log = g) && e.decided).length

/-- Ordinary slots (0 to N − 2) still free for a log, the buffered records counted against them (R516, R518). -/
def Way.freeOrdinary (w : Way) (g : LogId) : Nat := logCapacity g - 1 - ((w.log g).slots.length + w.bufferedFor g)

/-- Copy an event as an EVENT report when EVENT_LOGS asks for it (R522). -/
def State.eventReport (s : State) (g : LogId) (r : WayRecord) (notLogged : Bool) : State :=
  if (BitVec.ofNat 32 (s.item iEventLogs)).getLsbD (logIndex g) = true then
    (s.reportOut (.event g r notLogged)).bump cWayEventReports
  else s

/-- Append to the buffer. -/
def State.buffer (s : State) (e : BufferedEvent) : State :=
  { s with way := { s.way with buffer := s.way.buffer ++ [e] } }

/-- Refuse an event because its log is full (R518): LOST and LOST_FULL rise; the first refusal writes the log-full
record naming the refused event, and sets FULL_n. -/
def State.refuseEvent (s : State) (g : LogId) (r : WayRecord) : State :=
  let l := s.way.log g
  let s1 := { s with way := s.way.setLog g { l with lost := satAdd 32 l.lost 1, full := true } }
  let s2 := s1.bump cWayLostFull
  let s3 := if l.full = true then s2 else
    (s2.buffer ⟨g, ⟨s.way.opTime, s.way.powerCycles, 6, 0x81, 0, BitVec.ofNat 128 (r.source.toNat + 256 * r.code.toNat)⟩, true⟩).raiseInt
      0x060004 (logIndex g)
  s3.eventReport g r true

/-- Decide an event (R516): logged while an ordinary slot is free, refused otherwise. -/
def State.decideEvent (s : State) (g : LogId) (r : WayRecord) : State :=
  if (s.way.log g).full = true ∨ (s.way.log g).header.map LogHeader.state = some 2 ∨ s.way.freeOrdinary g = 0 then s.refuseEvent g r
  else (s.buffer ⟨g, r, true⟩).eventReport g r false

/-- Accept an event into the buffer (R516).  A full buffer counts and sets BUFFER_DROP; before the positions are found, and while its log
is clearing (R519), the event waits undecided. -/
def State.acceptEvent (s : State) (g : LogId) (r : WayRecord) : State :=
  if 256 ≤ s.way.buffer.length then (s.bump cWayBufferDrop).raiseInt 0x060004 3
  else
    let s1 := s.bump cWayEventsIn
    if s.way.ready = true ∧ (s.way.log g).clearing = false then s1.decideEvent g r else s1.buffer ⟨g, r, false⟩

/-- Write an event of a block: WAY fills the stamps (R512). -/
def State.event (s : State) (g : LogId) (source code set payload : Nat) : State :=
  s.acceptEvent g ⟨s.way.opTime, s.way.powerCycles, BitVec.ofNat 8 source, BitVec.ofNat 8 code, BitVec.ofNat 4 set,
    BitVec.ofNat 128 payload⟩

/-- Spans of the rate limits of R20. -/
inductive Span where
  | none | interval | second | gasp
  deriving DecidableEq, Repr

/-- The code of a span in a limit's mark. -/
def Span.code : Span → Nat
  | .none => 0
  | .interval => 1
  | .second => 2
  | .gasp => 3

/-- The mark a limited event leaves. -/
def State.limitMark (s : State) (source code set who : Nat) (sp : Span) : Limit :=
  ⟨source, code, set, who, sp.code, if sp = .second then s.now / ticksPerSec else 0⟩

/-- Write an event under a rate limit of R20: only the first of each span, per meter where `who` names one. -/
def State.eventLimited (s : State) (g : LogId) (sp : Span) (who source code set payload : Nat) : State :=
  let m := s.limitMark source code set who sp
  if sp = .none then s.event g source code set payload
  else if m ∈ s.limits then s
  else ({ s with limits := m :: s.limits }).event g source code set payload

/-- Count an outcome and write the event that goes with its counter (R20, R513), under a rate limit. -/
def State.note (s : State) (c : Counter) (g : LogId) (sp : Span) (who payload : Nat) : State :=
  (s.bump c).eventLimited g sp who c.source c.code c.set payload

/-- Demand-interval limits begin afresh at each realised boundary event (R20). -/
def State.clearIntervalLimits (s : State) : State :=
  { s with limits := s.limits.filter fun m => m.span ≠ Span.interval.code }

/-- A check of HEALTH_CHECKS has been met since step 15 (R498): bit 0 a host job accepted, 1 pairing, 2 a record committed, 3 LOCKED. -/
def State.checkMet (s : State) (bit : Nat) : State :=
  if s.boot.stage < 15 then s else { s with upd := { s.upd with checksMet := s.upd.checksMet ||| (1#4 <<< bit) } }

/-- SECDED's outcome of an SDRAM read is counted in the DDR page; an uncorrectable error writes an operations event (R113, R525). -/
def State.countEcc (s : State) : EccOutcome → State
  | .clean => s
  | .corrected => s.bump cDdrCorrected
  | .uncorrectable => s.note cDdrUncorrectable .operations .none 0 0

/-! ## Key slots and nodes used by every path -/

/-- The node's own identity. -/
def State.serial (s : State) : BitVec 64 := s.sec.fuses.serial

end Sys2Proof.Machine
end

