-- ==== Sys2Proof/Machine/Contexts.lean ====
section
/-!
DEFINITION. The context table: where a meter's entry lies, reading it and writing it (R112 to R116), and the range a
node is responsible for (R22, R23, R366).
-/

namespace Sys2Proof.Machine

/-- The context entry at an index. -/
def State.ctxAt (s : State) (i : Nat) : Context := Table.get Context.empty s.ctx i

/-- Write a context entry. -/
def State.setCtx (s : State) (i : Nat) (c : Context) : State := { s with ctx := Table.set Context.empty s.ctx i c }

/-- Change a context entry. -/
def State.modCtx (s : State) (i : Nat) (f : Context → Context) : State := s.setCtx i (f (s.ctxAt i))

/-- The legal slot of an index. -/
def State.slotAt (s : State) (i : Nat) : LegalSlot := Table.get LegalSlot.fresh s.bil.slots i

/-- The closed periods of an index, newest first. -/
def State.closedOf (s : State) (i : Nat) : List ClosedPeriod := Table.get [] s.bil.closed i

/-- The node of a GMN. -/
def gmnNode (g : Gmn) : Nat := g.toNat / 16384

/-- The slot of a GMN. -/
def gmnSlot (g : Gmn) : Nat := g.toNat % 16384

/-- The partner node (R366): PARTNER where it names a node, else this node's ID with bit 0 inverted; none before assignment. -/
def State.partner (s : State) : Option Nat :=
  if s.hwl.assigned = false then none
  else if s.item iPartner < 64 then some (s.item iPartner)
  else some (s.hwl.nodeId ^^^ 1#6).toNat

/-- The index at which a node keeps a meter: in the head-end role its own range and the partner's; in the field role the
GMN's bits 13:0 (DEDUCED, notes/assumptions/27.md). -/
def State.indexFor (s : State) (g : Gmn) : Option Nat :=
  if s.boot.headEnd = true then
    if s.hwl.assigned = false then none
    else if gmnNode g = s.hwl.nodeId.toNat then some (gmnSlot g)
    else if s.partner = some (gmnNode g) then some (16384 + gmnSlot g)
    else none
  else some (gmnSlot g)

/-- The index of a meter that the node holds. -/
def State.heldIndex (s : State) (g : Gmn) : Option Nat :=
  match s.indexFor g with
  | none => none
  | some i => if (s.ctxAt i).state ≠ .empty ∧ (s.ctxAt i).gmn = g then some i else none

/-- The node acts for the meters of a range: its own, but for a rejoin in which it is the returning node (R385), or the
partner's once the partner is declared lost (R23). -/
def State.actsFor (s : State) (i : Nat) : Bool := if i < 16384 then !s.boot.headEnd || s.hwl.ownRange else s.hwl.partnerRange

/-- The meter is legally this node's to serve: its context is not EMPTY, and a MIRROR one only after takeover. -/
def State.serves (s : State) (i : Nat) : Bool :=
  match (s.ctxAt i).state with
  | .empty => false
  | .mirror => s.hwl.partnerRange
  | _ => s.actsFor i

/-- Byte of a GROUP item. -/
def State.groupByte (s : State) (g o : Nat) : Nat := s.itemField (iGroup g) o 1

/-- Signed byte of a GROUP item. -/
def State.groupSigned (s : State) (g o : Nat) : Int := signedOf 8 (s.groupByte g o)

/-- The end-to-end model (R131). -/
def State.endToEnd (s : State) (g : Nat) : Bool := decide (s.groupByte g 0 = 1)

/-- Update the time at which a meter was last heard (LAST_HEARD, Table 8.9). -/
def State.heardMeter (s : State) (i : Nat) (sec : Nat) : State :=
  s.modCtx i fun c => { c with plc := { c.plc with lastHeard := sec } }

/-- An event about a meter: the payload names its GMN, then detail (17_event_recorder_diagnostics.md). -/
def State.noteMeter (s : State) (c : Counter) (g : LogId) (sp : Span) (gmn : Nat) (detail : Nat) : State :=
  s.note c g sp (gmn + 1) (gmn + detail * 2 ^ 32)

end Sys2Proof.Machine
end

