-- ==== Sys2Proof/Machine/RecordOps.lean ====
section
/-!
DEFINITION. The reading record as bytes (Table 4.11), its check RCK (R110) and its flags (Tables 4.12, 5.3).
-/

namespace Sys2Proof.Machine

/-- Bytes 0 to 59 of a record (Table 4.11). -/
def recordBytes (r : Record) : List Byte :=
  leBytes 4 (r.gmn.toNat + 2 ^ 20 * r.src.toNat + 2 ^ 24 * r.typ.toNat) ++ leBytes 4 r.readSeq.toNat ++ leBytes 6 r.cycle.toNat ++
  leBytes 2 r.rxFlags.toNat ++ leBytes 4 r.meterTime.toNat ++ leBytes 4 r.rxTime.toNat ++ leBytes 5 r.impAct.toNat ++
  leBytes 5 r.expAct.toNat ++ leBytes 5 r.impReact.toNat ++ leBytes 5 r.expReact.toNat ++ leBytes 2 r.voltage.toNat ++
  leBytes 2 r.current.toNat ++ leBytes 1 r.meterFlags.toNat ++ leBytes 1 (r.hops.toNat + 8 * r.rxPhase.toNat) ++
  leBytes 1 r.snr.toNat ++ leBytes 1 0 ++ leBytes 2 r.zcOffset.toNat ++ leBytes 2 r.vflags.toNat ++
  leBytes 1 (r.verdict.toNat + 8 * r.rule.toNat) ++ leBytes 1 r.gap.toNat ++ leBytes 2 r.seqGap.toNat

/-- The CRC-32C that RCK must hold (R110). -/
def recordCrc (r : Record) : Word := crc32c (recordBytes r)

/-- RCK verifies over the record as it stands. -/
def recordOk (r : Record) : Bool := decide (r.rck = recordCrc r)

/-- The record with its RCK computed. -/
def sealRecord (r : Record) : Record := { r with rck := recordCrc r }

/-- The four registers, in the order of Table 4.11. -/
def recordRegs (r : Record) : List Nat := [r.impAct.toNat, r.expAct.toNat, r.impReact.toNat, r.expReact.toNat]

/-- Replace the four registers. -/
def withRegs (r : Record) (v : List Nat) : Record :=
  { r with impAct := BitVec.ofNat 40 (v.getD 0 0), expAct := BitVec.ofNat 40 (v.getD 1 0),
           impReact := BitVec.ofNat 40 (v.getD 2 0), expReact := BitVec.ofNat 40 (v.getD 3 0) }

/-- Bits of RX_FLAGS (Table 4.12). -/
def rxTimeRegressed : Nat := 0
/-- CYCLE is synthetic. -/
def rxSynth : Nat := 1
/-- CYCLE is the meter's latched FREEZE_CYCLE. -/
def rxFreeze : Nat := 2
/-- The APDU carried SC 0x10. -/
def rxAuthOnly : Nat := 3
/-- Accepted inside the replay window. -/
def rxWindowed : Nat := 4
/-- Decrypted by a head-end node under the end-to-end model. -/
def rxE2e : Nat := 5
/-- Built by firmware. -/
def rxFwBuilt : Nat := 6
/-- Entered this node in a relay bundle. -/
def rxRelayed : Nat := 7
/-- METER_TIME is zero. -/
def rxTimeAbsent : Nat := 8

/-- A 16-bit flag word with one bit set where a condition holds. -/
def flag16 (bit : Nat) (c : Bool) : BitVec 16 := if c = true then 1#16 <<< bit else 0

/-- The OR of flags. -/
def flags16 (l : List (Nat × Bool)) : BitVec 16 := l.foldl (fun a p => a ||| flag16 p.1 p.2) 0

/-- The 64 bytes of a record, its RCK last. -/
def recordData (r : Record) : List Byte := recordBytes r ++ leBytes 4 r.rck.toNat

/-- Bytes 0 to 59 of a TYPE 5 feeder record (Table 6.9); bytes 52 and 53 carry the earth current where the record is for BAL or a bundle
(R204). -/
def feederBytes (f : FeederRecord) : List Byte :=
  leBytes 4 (f.node.toNat * 16384 + f.phase + 15 * 2 ^ 20 + 5 * 2 ^ 24) ++ leBytes 4 f.seq ++ leBytes 6 f.cycle ++ leBytes 2 f.rxFlags.toNat ++
  leBytes 4 f.stamp ++ leBytes 4 f.stamp ++ ((List.range 4).flatMap fun d => leBytes 5 (f.energy.getD d 0)) ++ leBytes 2 f.voltage ++
  leBytes 2 f.current ++
  leBytes 1 ((if f.short = true then 1 else 0) + (if f.snapshot = true then 2 else 0) + (if f.phaseAbsent = true then 4 else 0) +
    (if f.clipped = true then 8 else 0)) ++
  leBytes 1 0 ++ leBytes 2 f.neutral ++ leBytes 2 f.earth ++ leBytes 6 f.i2t

/-- The RCK of a feeder record (R110). -/
def feederCrc (f : FeederRecord) : Word := crc32c (feederBytes f)

/-- A flag as a number in its place. -/
def flagBit (c : Bool) (n : Nat) : Nat := if c = true then 2 ^ n else 0

/-! ## Results and anomalies as bytes (R237) -/

/-- Bytes 0 to 59 of a group result record (Table 7.10). -/
def groupBytes (r : GroupResult) : List Byte :=
  leBytes 1 r.group ++ leBytes 1 (r.phase + flagBit r.snapshot 2) ++
  leBytes 1 (flagBit r.mixed 0 + flagBit r.incomplete 1 + flagBit r.outage 2 + flagBit r.noFeeder 3 + flagBit r.reverseFlow 4 +
    flagBit r.longFeeder 5 + flagBit r.abandoned 6 + flagBit r.excluded 7) ++
  leBytes 1 (r.node.toNat + flagBit r.earthHigh 6) ++ leBytes 2 r.members ++ leBytes 2 r.reported ++ leBytes 2 r.frozen ++ leBytes 2 r.snapId ++
  leBytes 4 r.index ++ leBytes 4 r.endTime ++ leBytes 4 r.span ++ leBytes 6 r.endCycle ++ leInt 5 r.feederE ++ leInt 5 r.metersE ++
  leInt 5 r.techLoss ++ leInt 5 r.residue ++ leInt 2 r.residuePm ++ leBytes 2 r.earth ++
  leBytes 2 ((r.topSlot.getD 0) % 2 ^ 14 + flagBit r.topSlot.isSome 15) ++ leInt 2 r.topCorr ++ leBytes 2 0

/-- A group result with its CRC-32C over bytes 0 to 59. -/
def sealGroup (r : GroupResult) : GroupResult := { r with crc := crc32c (groupBytes r) }

/-- Bytes 0 to 59 of an anomaly record (Table 7.11). -/
def anomalyBytes (r : AnomalyRecord) : List Byte :=
  leBytes 4 (r.gmn.toNat + 2 ^ 20 * r.group) ++ leBytes 2 r.score ++ ((List.range 6).flatMap fun n => leBytes 2 (r.components.getD n 0)) ++
  leBytes 1 r.phaseState ++ leBytes 1 r.flagsSeen ++ leInt 2 r.corr ++ leInt 4 r.beta ++ leInt 5 r.attributed ++ leBytes 1 r.entries ++
  leBytes 4 r.stepTime ++ leBytes 2 r.meanSnr ++ leBytes 1 r.sigSteps ++ leBytes 1 r.action ++ leBytes 4 r.time ++ leBytes 1 r.cause.toNat ++
  leBytes 15 0

/-- An anomaly record with its CRC-32C over bytes 0 to 59. -/
def sealAnomaly (r : AnomalyRecord) : AnomalyRecord := { r with crc := crc32c (anomalyBytes r) }

/-! ## Waybill records as bytes (Table 17.3) -/

/-- Bytes 0 to 27 of a Waybill record (Table 17.3). -/
def WayRecord.body (r : WayRecord) : List Byte :=
  leBytes 5 r.opTime ++ leBytes 4 r.powerCycles ++ [r.source, r.code] ++ leBytes 1 r.set.toNat ++ leBytes 16 r.payload.toNat

/-- The 32 bytes of a Waybill record with its CRC. -/
def WayRecord.bytes (r : WayRecord) : List Byte := r.body ++ leBytes 4 (crc32c r.body).toNat

/-- The copy of a Waybill record in an EVENT report (R522): a refused event carries NOT_LOGGED and a zero CRC. -/
def WayRecord.copy (r : WayRecord) (notLogged : Bool) : List Byte :=
  if notLogged = true then putAt (putAt r.bytes 11 (leBytes 1 (r.set.toNat + 16))) 28 [0, 0, 0, 0] else r.bytes

/-! ## Relay bundles as bytes (R134) -/

/-- KIND of an entry. -/
def payloadKind : RelayPayload → Nat
  | .presence k => k
  | .sealed _ => 1
  | .record _ => 2
  | .feeder _ _ => 3
  | .other k _ => k

/-- PAYLOAD of an entry. -/
def payloadBytes : RelayPayload → List Byte
  | .presence _ => []
  | .sealed a => a
  | .record r => recordData r
  | .feeder f c => feederBytes f ++ leBytes 4 c.toNat
  | .other _ l => l

/-- An entry's bytes (Table 4.14): 20 bytes, the payload, and zero bytes to the next multiple of 4. -/
def entryData (e : RelayEntry) : List Byte :=
  let p := payloadBytes e.payload
  leBytes 4 (e.gmn.toNat + 2 ^ 20 * payloadKind e.payload + (if e.synth = true then 2 ^ 24 else 0) + (if e.regressed = true then 2 ^ 25 else 0)) ++
  leBytes 2 p.length ++ leBytes 1 e.snr.toNat ++ leBytes 1 (e.hops.toNat + 8 * e.rxPhase.toNat) ++ leBytes 6 e.rxCycle.toNat ++
  leBytes 2 e.zcOffset.toNat ++ leBytes 4 e.rxTime.toNat ++ p ++ List.replicate ((4 - p.length % 4) % 4) 0

/-- A bundle's bytes before its CMAC (Tables 4.13, 4.14). -/
def bundleBody (b : RelayBundle) : List Byte :=
  leBytes 4 b.magic.toNat ++ leBytes 2 b.version.toNat ++ leBytes 2 b.entryCount ++ leBytes 4 b.totalLength ++ leBytes 4 b.senderId.toNat ++
  leBytes 4 b.seq.toNat ++ leBytes 6 b.senderCycle.toNat ++
  leBytes 1 ((if b.senderSynth = true then 1 else 0) + (if b.senderRegressed = true then 2 else 0) + (if b.senderRotation = true then 4 else 0)) ++
  leBytes 5 0 ++ b.entries.flatMap entryData

/-- A bundle's bytes. -/
def bundleBytes (b : RelayBundle) : List Byte := bundleBody b ++ b.cmac

/-- MAGIC of a bundle, the bytes "VXRB". -/
def bundleMagic : BitVec 32 := 0x42525856#32

/-- MAGIC, VERSION and TOTAL_LENGTH are right, and the entries, as many as ENTRY_COUNT says, end exactly at TOTAL_LENGTH − 16 (R134,
R135). -/
def bundleFormatOk (b : RelayBundle) : Bool :=
  decide (b.magic = bundleMagic ∧ b.version = 1#16 ∧ 48 ≤ b.totalLength ∧ b.totalLength ≤ 16384 ∧ b.entryCount = b.entries.length ∧
    b.entryCount ≤ 255 ∧ (bundleBody b).length + 16 = b.totalLength ∧ b.cmac.length = 16)

end Sys2Proof.Machine
end

