-- ==== Sys2Proof/Machine/ParseOps.lean ====
section
/-!
DEFINITION. ING's parser: templates, conversions and the Vorius compact record (R122 to R125, R130, R142).
-/

namespace Sys2Proof.Machine

/-! ## The outer layer (R119, R122, R123) -/

/-- A COSEM date-time (IEC 62056-6-2, R124): its fields as received; 0xFFFF and 0xFF mean not specified. -/
structure CosemTime where
  year : Nat
  month : Nat
  day : Nat
  weekday : Nat
  hour : Nat
  minute : Nat
  second : Nat
  hundredths : Nat
  deviation : Int
  status : Nat
  deriving DecidableEq, Repr

/-- An element of a DLMS structure (R123): its A-XDR type tag, its length for an octet string, its unsigned value, and
the date-time that an octet string of length 12 spells. -/
structure Element where
  tag : Nat
  len : Nat
  raw : Nat
  time : CosemTime
  deriving DecidableEq, Repr

/-- The body of a Vorius compact record (Table 4.9). -/
structure VcrBody where
  version : Nat
  typ : Nat
  readSeq : BitVec 32
  meterTime : BitVec 32
  freezeCycle : BitVec 48
  regs : List (BitVec 40)
  voltage : BitVec 16
  current : BitVec 16
  flags : BitVec 8
  deriving DecidableEq, Repr

/-- The outer layers that ING knows. -/
inductive OuterLayer where
  | generalGlo | gloGet | vcr | other
  deriving DecidableEq, Repr

/-- An APDU's outer layer as ING reads it: what `malformed` tells is the reason 2 of Table 4.10; `head` is what precedes the protected
information, `info` that information and `tag` what follows it. -/
structure Outer where
  layer : OuterLayer
  malformed : Bool
  title : List Byte
  sc : Byte
  ic : BitVec 32
  head : List Byte
  info : List Byte
  tag : List Byte
  deriving DecidableEq, Repr

/-- An A-XDR length of one, two or three bytes and the bytes after it (R123). -/
def axdrLength : List Byte → Option (Nat × List Byte)
  | [] => none
  | b :: t =>
    if b.toNat < 0x80 then some (b.toNat, t)
    else match b.toNat, t with
      | 0x81, c :: u => some (c.toNat, u)
      | 0x82, c :: d :: u => some (256 * c.toNat + d.toNat, u)
      | _, _ => none

/-- A protected part: its A-XDR length, then SC, the invocation counter, the information and a tag of 12 bytes.  One too short for SC
and counter is malformed (DESIGN CHOICE, notes/assumptions/138.md). -/
def protectedPart (layer : OuterLayer) (title : List Byte) (bs : List Byte) : Outer :=
  match axdrLength bs with
  | none => ⟨layer, true, title, 0, 0, [], [], []⟩
  | some (n, t) =>
    let body := t.drop 5
    ⟨layer, decide (n ≠ t.length ∨ t.length < 5), title, t.headD 0, BitVec.ofNat 32 (beNat ((t.drop 1).take 4)), [t.headD 0],
     body.take (body.length - 12), body.drop (body.length - 12)⟩

/-- The outer layer of an APDU: general-glo-ciphering (0xDB), glo-get-response (0xCC), a VCR envelope (0xB7) or another (R122, R123). -/
def outerOf (a : Apdu) : Outer :=
  match a with
  | [] => ⟨.other, false, [], 0, 0, [], [], []⟩
  | b :: t =>
    if b = 0xDB#8 then
      { protectedPart .generalGlo ((t.drop 1).take 8) (t.drop 9) with
        malformed := decide (t.headD 0 ≠ 8#8) || (protectedPart .generalGlo [] (t.drop 9)).malformed }
    else if b = 0xCC#8 then protectedPart .gloGet [] t
    else if b = 0xB7#8 then
      let n := leNat ((a.drop 6).take 2)
      ⟨.vcr, decide (a.length ≠ 8 + n + 12), [], a.getD 1 0, BitVec.ofNat 32 (leNat ((a.drop 2).take 4)), a.take 8, (a.drop 8).take n,
       a.drop (8 + n)⟩
    else ⟨.other, false, [], 0, 0, [], [], []⟩

/-- The IV under a meter's system title: the counter big-endian, in a VCR little-endian (R119, R122). -/
def Outer.iv (o : Outer) (title : List Byte) : List Byte :=
  title ++ (if o.layer = .vcr then leBytes 4 o.ic.toNat else beBytes 4 o.ic.toNat)

/-- The additional data under AK (R119, R122): SC and AK, a VCR's AK and bytes 0 to 7; with SC 0x10 the plain information follows. -/
def Outer.aad (o : Outer) (ak : List Byte) : List Byte :=
  (if o.layer = .vcr then ak ++ o.head else o.head ++ ak) ++ (if o.sc = 0x10#8 then o.info else [])

/-- The tag that the bytes must carry under EK and AK: with SC 0x10 nothing is enciphered. -/
def Outer.tagFor (o : Outer) (title ek ak : List Byte) : List Byte :=
  (gcmTag ek (o.iv title) (o.aad ak) (if o.sc = 0x10#8 then [] else o.info)).take 12

/-- The plain information. -/
def Outer.plain (o : Outer) (title ek : List Byte) : List Byte := if o.sc = 0x10#8 then o.info else gcmCrypt ek (o.iv title) o.info

/-! ## The inner layer (R123, Table 4.9) -/

/-- The decrypted content (R122, R123).  `structOk`: the structure is complete and each element is a single value of a
listed type; `trailing`: bytes remain after the structure. -/
inductive InnerApdu where
  | notification (time : Option CosemTime) (structOk trailing : Bool) (elements : List Element)
  | response (structOk trailing : Bool) (elements : List Element)
  | compact (bodyLen : Nat) (body : VcrBody)
  | other
  deriving DecidableEq, Repr

/-- The date-time of 12 bytes (IEC 62056-6-2). -/
def cosemOf (b : List Byte) : CosemTime :=
  ⟨beNat (b.take 2), (b.getD 2 0).toNat, (b.getD 3 0).toNat, (b.getD 4 0).toNat, (b.getD 5 0).toNat, (b.getD 6 0).toNat,
   (b.getD 7 0).toNat, (b.getD 8 0).toNat, signedOf 16 (beNat ((b.drop 9).take 2)), (b.getD 11 0).toNat⟩

/-- Bytes of a value of a type tag of Table 4.8; `none` for an octet string, whose length it carries, and for other tags. -/
def tagBytes (tag : Nat) : Option Nat :=
  if tag = 0x06 then some 4 else if tag = 0x11 then some 1 else if tag = 0x12 then some 2 else if tag = 0x15 then some 8 else none

/-- One element and the bytes after it; `none` where it is truncated or of a type that Table 4.8 does not list. -/
def elementOf : List Byte → Option (Element × List Byte)
  | [] => none
  | b :: t =>
    match tagBytes b.toNat with
    | some n => if t.length < n then none else some (⟨b.toNat, n, beNat (t.take n), cosemOf []⟩, t.drop n)
    | none =>
      if b.toNat ≠ 0x09 then none
      else match axdrLength t with
        | none => none
        | some (n, u) => if u.length < n then none else some (⟨0x09, n, 0, cosemOf (u.take n)⟩, u.drop n)

/-- `n` elements in order and the bytes after them. -/
def elementsOf : Nat → List Byte → Option (List Element × List Byte)
  | 0, bs => some ([], bs)
  | n + 1, bs =>
    match elementOf bs with
    | none => none
    | some (e, t) => (elementsOf n t).map fun r => (e :: r.1, r.2)

/-- A structure (0x02): its elements and whether bytes remain after it; `none` where it is not well formed. -/
def structureOf : List Byte → Option (List Element × Bool)
  | [] => none
  | b :: t =>
    if b ≠ 0x02#8 then none
    else match axdrLength t with
      | none => none
      | some (n, u) => (elementsOf n u).map fun r => (r.1, decide (r.2 ≠ []))

/-- The decrypted APDU under PARSER 0: a data-notification (0x0F) or a get-response-normal with data (0xC4 0x01).  A body that is no
structure matches no template (DEDUCED, notes/assumptions/138.md). -/
def innerDlms (bs : List Byte) : InnerApdu :=
  if bs.headD 0 = 0x0F#8 ∧ ((bs.drop 5).headD 1 = 0#8 ∨ ((bs.drop 5).headD 1 = 12#8 ∧ 18 ≤ bs.length)) then
    let timed := decide ((bs.drop 5).headD 1 = 12#8)
    let body := bs.drop (if timed = true then 18 else 6)
    let st := structureOf body
    .notification (if timed = true then some (cosemOf ((bs.drop 6).take 12)) else none) st.isSome ((st.map Prod.snd).getD false)
      ((st.map Prod.fst).getD [])
  else if bs.take 2 = [0xC4#8, 0x01#8] ∧ (bs.drop 3).headD 1 = 0#8 then
    let st := structureOf (bs.drop 4)
    .response st.isSome ((st.map Prod.snd).getD false) ((st.map Prod.fst).getD [])
  else .other

/-- The body of a Vorius compact record (Table 4.9). -/
def vcrOf (b : List Byte) : VcrBody :=
  let f (o n : Nat) : Nat := leNat ((b.drop o).take n)
  ⟨f 0 1, f 1 1, BitVec.ofNat 32 (f 2 4), BitVec.ofNat 32 (f 6 4), BitVec.ofNat 48 (f 10 6),
   [BitVec.ofNat 40 (f 16 5), BitVec.ofNat 40 (f 21 5), BitVec.ofNat 40 (f 26 5), BitVec.ofNat 40 (f 31 5)], BitVec.ofNat 16 (f 36 2),
   BitVec.ofNat 16 (f 38 2), BitVec.ofNat 8 (f 40 1)⟩

/-- The decrypted content of an APDU. -/
def Outer.inner (o : Outer) (plain : List Byte) : InnerApdu :=
  if o.layer = .vcr then .compact plain.length (vcrOf plain) else innerDlms plain

/-! ## Conversions -/

/-- The outcomes of a parse. -/
inductive ParseOutcome where
  | record (p : Parsed)
  | heartbeat
  | firmware (reason : Nat)
  deriving DecidableEq, Repr

/-- All ones of a 40-bit register: not reported (R125). -/
def ones40 : Nat := 2 ^ 40 - 1

/-- A record with every field absent (R125). -/
def Parsed.absent (typ : Nat) : Parsed := ⟨typ, 0, 0, 0, [ones40, ones40, ones40, ones40], 0xFFFF, 0xFFFF, 0⟩

/-! ## Date-times (R124) -/

/-- Days from 1970-01-01 to a date of the Gregorian calendar. -/
def daysFromCivil (y m d : Nat) : Int :=
  let y' : Int := (y : Int) - (if m ≤ 2 then 1 else 0)
  let era := y' / 400
  let yoe := y' - era * 400
  let doy : Int := (153 * ((m : Int) + (if 2 < m then -3 else 9)) + 2) / 5 + (d : Int) - 1
  era * 146097 + (yoe * 365 + yoe / 4 - yoe / 100 + doy) - 719468

/-- Leap years. -/
def leapYear (y : Nat) : Bool := (decide (y % 4 = 0) && decide (y % 100 ≠ 0)) || decide (y % 400 = 0)

/-- Days of a month. -/
def daysInMonth (y m : Nat) : Nat :=
  if m = 2 then (if leapYear y = true then 29 else 28) else if m = 4 ∨ m = 6 ∨ m = 9 ∨ m = 11 then 30 else 31

/-- The date-time names one instant: no field not specified, no special value, every field in range, the date real. -/
def cosemOk (t : CosemTime) : Bool :=
  decide (t.year ≠ 0xFFFF ∧ t.status ≠ 0xFF) && decide (1 ≤ t.month ∧ t.month ≤ 12) &&
  decide (1 ≤ t.day ∧ t.day ≤ daysInMonth t.year t.month) && decide (1 ≤ t.weekday ∧ t.weekday ≤ 7) &&
  decide (t.hour < 24 ∧ t.minute < 60 ∧ t.second < 60 ∧ t.hundredths < 100) &&
  decide (t.deviation = -32768 ∨ (-720 ≤ t.deviation ∧ t.deviation ≤ 720))

/-- TAI seconds since 2020-01-01 of a date-time; an unspecified deviation is UTC, and the deviation is added to local
time (PRESUMED from IEC 62056-6-2, notes/assumptions/38.md). -/
def cosemSeconds (t : CosemTime) (utcOffset : Nat) : Int :=
  daysFromCivil t.year t.month t.day * 86400 + t.hour * 3600 + t.minute * 60 + t.second +
    60 * (if t.deviation = -32768 then 0 else t.deviation) + utcOffset - epoch2020

/-- Convert a date-time into METER_TIME: reason 6 for a bad date, 5 where it does not fit or is all ones. -/
def putTime (utcOffset : Nat) (p : Parsed) (t : CosemTime) : ParseOutcome :=
  if cosemOk t = false then .firmware 6
  else
    let v := cosemSeconds t utcOffset
    if v < 0 ∨ 0xFFFFFFFF ≤ v then .firmware 5 else .record { p with meterTime := v.toNat }

/-! ## Templates (R123, R142) -/

/-- A field of TEMPLATE_t. -/
def State.templateByte (s : State) (t o : Nat) : Nat := s.itemField (iTemplate t) o 1

/-- An element matches element `e` of a template. -/
def State.elementMatches (s : State) (t e : Nat) (x : Element) : Bool :=
  decide (s.templateByte t (4 + 2 * e) = x.tag) &&
    (decide (s.templateByte t (5 + 2 * e) ≠ 2) || (decide (x.tag = 9) && decide (x.len = 12)))

/-- All elements match, in order. -/
def State.elementsMatch (s : State) (t : Nat) : Nat → List Element → Bool
  | _, [] => true
  | e, x :: xs => s.elementMatches t e x && s.elementsMatch t (e + 1) xs

/-- The first template of the group that matches. -/
def State.findTemplate (s : State) (group kind : Nat) (els : List Element) : Option Nat :=
  (List.range 16).find? fun t =>
    (BitVec.ofNat 16 (s.itemField (iGroup group) 8 2)).getLsbD t && decide (s.templateByte t 0 = kind) &&
      decide (s.templateByte t 1 ≠ 0) && decide (s.templateByte t 1 = els.length) && s.elementsMatch t 0 els

/-- Write one element into its target (Table 4.8). -/
def State.putElement (s : State) (group target : Nat) (x : Element) (p : Parsed) : ParseOutcome :=
  let scale (e : Int) (base : Int) : Nat := x.raw * 10 ^ (e + base).toNat
  if target = 1 then .record { p with readSeq := x.raw }
  else if target = 2 then putTime s.tim.utcOffset p x.time
  else if 3 ≤ target ∧ target ≤ 6 then
    let v := scale (s.groupSigned group 4) 1
    if ones40 ≤ v then .firmware 5 else .record { p with regs := p.regs.set (target - 3) v }
  else if target = 7 then
    let v := scale (s.groupSigned group 5) 1
    if 0xFFFF ≤ v then .firmware 5 else .record { p with voltage := v }
  else if target = 8 then
    let v := scale (s.groupSigned group 6) 2
    if 0xFFFF ≤ v then .firmware 5 else .record { p with current := v }
  else if target = 9 then .record { p with flags := x.raw % 256 }
  else if target = 10 then
    let v := x.raw % 2 ^ 48
    if v = 0 then .record p else .record { p with freezeCycle := v, typ := 3 }
  else .record p

/-- Write the elements in order; the first that sends the frame to firmware decides the reason. -/
def State.putElements (s : State) (group t : Nat) : Nat → List Element → Parsed → ParseOutcome
  | _, [], p => .record p
  | e, x :: xs, p =>
    match s.putElement group (s.templateByte t (5 + 2 * e)) x p with
    | .record q => s.putElements group t (e + 1) xs q
    | o => o

/-- A template of the group has an element that targets METER_TIME. -/
def State.templateTimed (s : State) (t : Nat) : Bool :=
  (List.range (s.templateByte t 1)).any fun e => decide (s.templateByte t (5 + 2 * e) = 2)

/-- Parse a structure under the group's templates (R123, R124). -/
def State.parseElements (s : State) (group kind : Nat) (time : Option CosemTime) (structOk trailing : Bool)
    (els : List Element) : ParseOutcome :=
  if structOk = false then .firmware 4
  else if trailing = true then .firmware 3
  else match s.findTemplate group kind els with
    | none => .firmware 4
    | some t =>
      match s.putElements group t 0 els (Parsed.absent (if kind = 2 then 2 else 1)) with
      | .record p =>
        match time with
        | some d => if s.templateTimed t = true then .record p else putTime s.tim.utcOffset p d
        | none => .record p
      | o => o

/-- Parse a VCR body (Table 4.9): TYPE 1 to 4 and VERSION 1, else reason 8. -/
def parseCompact (bodyLen : Nat) (b : VcrBody) : ParseOutcome :=
  if bodyLen = 0 then .heartbeat
  else if bodyLen ≠ 48 ∨ b.version ≠ 1 ∨ b.typ < 1 ∨ 4 < b.typ then .firmware 8
  else .record ⟨b.typ, b.readSeq.toNat, b.meterTime.toNat, b.freezeCycle.toNat, b.regs.map BitVec.toNat, b.voltage.toNat,
    b.current.toNat, b.flags.toNat⟩

/-- Parse the decrypted content of a frame of a group (R122, R123; PARSER 2 goes to firmware with reason 7). -/
def State.parseInner (s : State) (group : Nat) (a : InnerApdu) : ParseOutcome :=
  if s.groupByte group 1 = 2 then .firmware 7
  else match a with
    | .notification time ok trailing els => s.parseElements group 1 time ok trailing els
    | .response ok trailing els => s.parseElements group 2 none ok trailing els
    | .compact n b => parseCompact n b
    | .other => .firmware 3

/-! ## The record (R128, R130) -/

/-- What the medium knew of a frame, from its ingest header or its bundle entry. -/
structure LinkInfo where
  src : Nat
  synth : Bool
  regressed : Bool
  rxCycle : BitVec 48
  zcOffset : BitVec 16
  snr : BitVec 8
  hops : BitVec 3
  rxPhase : BitVec 2
  rxTime : BitVec 32
  deriving DecidableEq, Repr

/-- The link information of a frame. -/
def frameLink (f : Frame) : LinkInfo :=
  ⟨f.src, f.synth, f.regressed, f.rxCycle, f.zcOffset, f.snr, f.hops, f.rxPhase, f.rxTime⟩

/-- The link information of a bundle entry. -/
def entryLink (e : RelayEntry) (src : Nat) : LinkInfo :=
  ⟨src, e.synth, e.regressed, e.rxCycle, e.zcOffset, e.snr, e.hops, e.rxPhase, e.rxTime⟩

/-- Build the record (R128, R130): CYCLE is a reported FREEZE_CYCLE, else the receive cycle. -/
def buildRecord (gmn : Gmn) (p : Parsed) (l : LinkInfo) (authOnly windowed e2e relayed : Bool) : Record :=
  let freeze := decide (p.freezeCycle ≠ 0)
  sealRecord (withRegs
    { gmn := gmn, src := BitVec.ofNat 4 l.src, typ := BitVec.ofNat 4 p.typ, readSeq := BitVec.ofNat 32 p.readSeq,
      cycle := if freeze = true then BitVec.ofNat 48 p.freezeCycle else l.rxCycle,
      rxFlags := flags16 [(rxTimeRegressed, l.regressed), (rxSynth, !freeze && l.synth), (rxFreeze, freeze),
        (rxAuthOnly, authOnly), (rxWindowed, windowed), (rxE2e, e2e), (rxRelayed, relayed),
        (rxTimeAbsent, decide (p.meterTime = 0))],
      meterTime := BitVec.ofNat 32 p.meterTime, rxTime := l.rxTime, impAct := 0, expAct := 0, impReact := 0, expReact := 0,
      voltage := BitVec.ofNat 16 p.voltage, current := BitVec.ofNat 16 p.current, meterFlags := BitVec.ofNat 8 p.flags,
      hops := l.hops, rxPhase := l.rxPhase, snr := l.snr, zcOffset := l.zcOffset, vflags := 0, verdict := 0, rule := 0,
      gap := 0, seqGap := 0, rck := 0 } p.regs)

end Sys2Proof.Machine
end

