-- ==== Sys2Proof/Machine/Access.lean ====
section
/-!
DEFINITION. The access tables (R447 to R452) and the write rule of registers (Table 0.5, R10, R11, R15, R35).
-/

namespace Sys2Proof.Machine

/-- A master's bit in a mask. -/
def mbit (m : Nat) : BitVec 16 := 1#16 <<< m

/-- A mask of several masters (Table 1.7). -/
def mmask (ms : List Nat) : BitVec 16 := ms.foldl (fun a m => a ||| mbit m) 0

/-- HOST, ETH0, ETH1, SBM, VAC, LGC, MGC and the Herwyn ports. -/
def maskReaders : BitVec 16 := mmask [0, 1, 2, 3, 4, 5, 6, 11, 12, 13, 14]

/-- Blocks whose first page a job or side-band right of R451 names for writing: RST, PWR, WAY, SEC, UPD, CCH, TXN, ING,
BIL, BAL, TIM, HWL (DEDUCED: the pages of R451 that R450 gives ETH0, ETH1, SBM and the Herwyn ports, notes/assumptions/34.md). -/
def jobRightBlocks : List Nat := [2, 3, 6, 7, 9, 12, 13, 18, 20, 21, 24, 28]

/-- An access entry: READ, WRITE and EXEC masks (R447). -/
structure AccEntry where
  read : BitVec 16
  write : BitVec 16
  exec : BitVec 16
  deriving DecidableEq, Repr

/-- The default entry of a register page (R450). -/
def accDefaultPage (t : Nat) : AccEntry :=
  let blk := t / 16
  let w := mmask [0, 4, 6] ||| (if blk = 11 ∨ blk = 20 ∨ t = 0x61 then mbit 5 else 0) |||
    (if t % 16 = 0 ∧ blk ∈ jobRightBlocks then mmask [1, 2, 3, 11, 12, 13, 14] else 0)
  ⟨maskReaders, w, 0⟩

/-- The principal users of an SDRAM region as masters (Table 1.8, with SEC as DMA0 and UPD as VAC). -/
def regionUsers : Nat → BitVec 16
  | 0 => mmask [4]
  | 1 => mmask [4]
  | 2 => mmask [7, 4]
  | 3 => mmask [7]
  | 4 => mmask [5]
  | 5 => mmask [5, 15]
  | 6 => mmask [9]
  | 7 => mmask [15]
  | 8 => mmask [15]
  | 9 => mmask [0, 4]
  | 10 => mmask [1, 2]
  | 11 => mmask [11, 12, 13, 14, 4]
  | 12 => mmask [8]
  | 13 => mmask [0, 1, 2, 11, 12, 13, 14, 4]
  | 14 => mmask [7, 4]
  | _ => mmask [4, 6]

/-- The default entry of a target (R450); a key slot's depends on its usage. -/
def State.accDefault (s : State) (t : Nat) : AccEntry :=
  if t < 480 then accDefaultPage t
  else if t = 512 then ⟨mmask [4, 5, 6], 0, mmask [4, 5, 6]⟩
  else if t = 513 then ⟨mmask [4, 7, 8, 10], mmask [4, 7, 8, 10], mmask [4]⟩
  else if t = 514 then ⟨mmask [5], mmask [5], mmask [5]⟩
  else if t = 515 then ⟨mmask [4, 6], mmask [6], mmask [6]⟩
  else if 528 ≤ t ∧ t < 544 then
    let i := t - 528
    ⟨regionUsers i ||| (if i = 4 then mmask [4] else 0) ||| (if i = 15 then mmask [0] else 0),
     if i = 0 then 0 else regionUsers i, if i = 0 then mmask [4] else 0⟩
  else if 560 ≤ t ∧ t < 570 then
    let i := t - 560
    ⟨mmask [4, 6], if i = 3 ∨ i = 8 then mmask [4] else if i = 4 ∨ i = 9 then mmask [6] else 0, 0⟩
  else if 776 ≤ t ∧ t < 1024 then
    let u := (Table.get (⟨[], 0, 0, 0, 0, 0, 0⟩ : KeySlot) s.sec.slots (t - 768)).usage
    ⟨(if u.getLsbD 1 then mmask [7, 4] else 0) ||| (if u.getLsbD 2 then mmask [7, 1, 2, 11, 12, 13, 14, 4] else 0),
     mmask [0, 4], 0⟩
  else ⟨0, 0, 0⟩

/-- The entry in force: an ACCESS item's, or the default (R450). -/
def State.accEntry (s : State) (t : Nat) : AccEntry :=
  match Table.get none s.sec.acc t with
  | some (r, w, x) => ⟨r, w, x⟩
  | none => s.accDefault t

/-- The fixed restrictions of Table 14.9a: `true` where the access is refused whatever an entry says. -/
def State.accFixed (s : State) (m t kind : Nat) : Bool :=
  if t = 514 ∨ t = 532 then decide (kind = 1 ∧ m ≠ 5)
  else if t = 0xC3 then decide (kind ≠ 2 ∧ m ≠ 4)
  else if t = 0x61 then decide (kind = 1 ∧ m ≠ 5)
  else if t = 512 ∨ t = 560 ∨ t = 561 ∨ t = 562 ∨ t = 565 ∨ t = 566 ∨ t = 567 then decide (kind = 1)
  else if 0x81 ≤ t ∧ t ≤ 0x8F then decide (kind = 1) && s.boot.locked
  else decide (768 ≤ t ∧ t < 776)

/-- An access of kind 0 read or use, 1 write or manage, 2 fetch, is granted (R448). -/
def State.accGranted (s : State) (m t kind : Nat) : Bool :=
  let e := s.accEntry t
  !s.accFixed m t kind && (if kind = 0 then e.read else if kind = 1 then e.write else e.exec).getLsbD m

/-- Device physical address of the register window (Table 1.6). -/
def windowBase : Nat := 0x20000000

/-- A refused access (R452): counted, latched, VIOLATION set, a security event once per master and target per second. -/
def State.refuseAccess (s : State) (m : Master) (kind t addr : Nat) : State :=
  let s1 := s.bump (cAccViol m)
  let s2 := { s1 with sec := { s1.sec with violation := some ⟨m, kind, s.accFixed m t kind, t, addr⟩ } }
  (s2.raiseInt 0x080004 0).eventLimited .security .second (t + 1) 8 0 m 0

/-- Masters that R35 limits before boot lock: HOST, ETH0, ETH1 and the Herwyn ports. -/
def externalMaster (m : Nat) : Bool := decide (m ≤ 2 ∨ (11 ≤ m ∧ m ≤ 14))

/-- Window offset of PAGE_IGNORED_t of a page. -/
def pageIgnoredAt (a : Nat) : Nat := 0x000400 + 4 * (a / 4096)

/-- Count a write that is ignored (R10). -/
def State.ignoreWrite (s : State) (a : Nat) : State := s.bumpHalf (pageIgnoredAt a) false

/-- Count an access that ends in an error response under R11. -/
def State.countError (s : State) (a : Nat) : State := s.bumpHalf (pageIgnoredAt a) true

/-- Expert level is active now (R58): a session is open, or a start stands between step 13 under EXPERT and boot lock. -/
def State.expertActive (s : State) : Bool := s.boot.expertUntil.isSome || s.boot.expertStep

/-- What a register access meets before its register: an error response, the pre-lock rule, a refusal, or the page. -/
inductive AccessCheck where
  | reserved | misaligned | preLock | refused | open
  deriving DecidableEq, Repr

/-- R11, R15, R35 and R448 for an access of `size` bytes.  Where an access is misaligned and also meets R35 or R452, R11's error comes
first (DESIGN CHOICE: the spec gives no precedence, notes/assumptions/122.md). -/
def State.checkAccess (s : State) (m : Master) (a size kind : Nat) : AccessCheck :=
  if pageListed a = false then .reserved
  else if a % 4 ≠ 0 ∨ size ≠ 4 then .misaligned
  else if s.boot.locked = false ∧ externalMaster m = true ∧ 0x1000 ≤ a then .preLock
  else if s.accGranted m (a / 4096) kind = false then .refused
  else .open

/-- The bits of a register that take a write now (Table 0.5). -/
def State.writeMask (s : State) (r : RegRow) : BitVec 32 :=
  r.rw ||| (if s.boot.locked = true then 0 else r.rwl) ||| (if s.expertActive = true then r.rwx else 0)

/-- Write the stored bits of a register: RW, RWL and RWX bits that are open take the value, W1C bits clear. -/
def State.storeBits (s : State) (r : RegRow) (a : Nat) (v : BitVec 32) : State :=
  let old := s.reg a
  let mk := s.writeMask r
  s.setReg a (((old &&& ~~~mk) ||| (v &&& mk)) &&& ~~~(v &&& r.w1c))

/-- No implemented field takes effect from a write now (R10). -/
def State.writeIgnored (s : State) (r : RegRow) : Bool :=
  decide (s.writeMask r ||| r.w1c ||| r.wo = 0)

end Sys2Proof.Machine
end

