-- ==== Sys2Proof/Machine/Coachman.lean ====
section
/-!
DEFINITION. Coachman's operations: posting, dispatch, retirement, the trigger table and the budget (R322 to R328).
-/

namespace Sys2Proof.Machine

/-- EXEC, priority and class of a kind in Table 10.7.  Kinds 8 and 9 take theirs from the trigger's entry. -/
def taskTable : Nat → Option (Nat × Nat × Nat)
  | 1 => some (0, 0, 0)
  | 2 => some (0, 1, 0)
  | 3 => some (0, 2, 0)
  | 4 => some (0, 2, 0)
  | 5 => some (0, 2, 0)
  | 6 => some (2, 4, 1)
  | 7 => some (1, 4, 2)
  | 8 => some (0, 0, 0)
  | 9 => some (0, 0, 0)
  | 16 => some (0, 12, 1)
  | 17 => some (0, 16, 1)
  | 18 => some (1, 20, 2)
  | 19 => some (2, 20, 1)
  | 20 => some (4, 20, 1)
  | 21 => some (0, 24, 1)
  | 22 => some (0, 28, 1)
  | 23 => some (0, 30, 1)
  | 24 => some (1, 32, 2)
  | 25 => some (0, 40, 3)
  | 26 => some (0, 60, 3)
  | _ => none

/-- Priority and class of a kind: the TASK_KIND item where the image sets one, else Table 10.7 (R323). -/
def State.taskRank (s : State) (kind : Nat) : Nat × Nat :=
  let d := match taskTable kind with
    | some (_, p, c) => (p, c)
    | none => (63, 3)
  if Table.get [] s.cfg (iTaskKind (kind - 1)) = [] then d
  else (s.itemField (iTaskKind (kind - 1)) 0 1, s.itemField (iTaskKind (kind - 1)) 1 1)

/-- A descriptor of a block's own task. -/
def State.taskFor (s : State) (kind exec arg : Nat) : Task :=
  ⟨kind, (s.taskRank kind).1, (s.taskRank kind).2, exec, 0, arg, s.us⟩

/-- The task that handles a job: class E3 for update delivery and campaign start, else E1 (Table 10.7). -/
def State.jobTask (s : State) (code : Nat) : Task :=
  let t := s.taskFor 23 0 code
  if code = 0x24 ∨ code = 0x25 then { t with eclass := 3 } else t

/-- The number of energy classes allowed at a budget level, E0 first (Table 15.3). -/
def allowedClasses (level : Nat) : Nat := if level = 0 then 4 else if level = 1 then 3 else if level = 2 then 2 else 1

/-- A class is allowed at the level in force. -/
def Cch.allows (c : Cch) (cls : Nat) : Bool := decide (cls < allowedClasses c.level)

/-- Descriptors not in use: a task holds its descriptor until it retires (R325, R328). -/
def Cch.free (c : Cch) : Nat :=
  4096 - c.waiting.length - (c.executors.filter fun x => x.running.isSome).length

/-- A task may run on executor `x`: cores 0 to 11, then the PLC, RF0, RF1 and NET ports (Table 10.6). -/
def Task.admits (t : Task) (x : Nat) : Bool :=
  if x < 12 then decide (t.exec = 0) && (decide (t.coreMask = 0) || t.coreMask.getLsbD x) else decide (t.exec = x - 11)

/-- Of two candidates, the one that R324 runs first; the earlier in the list wins a tie. -/
def Task.first (a b : Task) : Task :=
  if b.priority < a.priority ∨ (b.priority = a.priority ∧ b.ticket < a.ticket) then b else a

/-- The candidate that R324 runs on an executor. -/
def Cch.pick (c : Cch) (x : Nat) : Option Task :=
  match c.waiting.filter fun t => c.allows t.eclass && t.admits x with
  | [] => none
  | t :: ts => some (ts.foldl Task.first t)

/-- The executor record at an index. -/
def Cch.executor (c : Cch) (x : Nat) : Executor := c.executors.getD x ⟨none, false, 0, []⟩

/-- Replace the executor at an index. -/
def Cch.setExecutor (c : Cch) (x : Nat) (e : Executor) : Cch := { c with executors := c.executors.set x e }

/-- The register CCH_LEVEL_p. -/
def levelAt (p : Nat) : Nat := 0x0C0100 + 4 * p

/-- Record how long a task waited: MAX_WAIT of its level, and the wait alarm (CCH_WAIT_ALARM). -/
def State.noteWait (s : State) (t : Task) : State :=
  let wait := s.us - t.ticket
  let ms := min (wait / 1000) 65535
  let a := levelAt t.priority
  let s1 := if (s.reg a).toNat / 65536 < ms then s.setReg a (BitVec.ofNat 32 (65536 * ms)) else s
  if (s.reg 0x0C0010).toNat ≠ 0 ∧ (s.reg 0x0C0010).toNat < wait then (s1.bump cCchWaitAlarms).raiseInt 0x0C0004 2 else s1

/-- Run the chosen candidate on one executor if it is idle and, for a core, not parked (R324). -/
def State.dispatchOn (s : State) (x : Nat) : State :=
  if (s.cch.executor x).running.isSome ∨ (x < 12 ∧ s.pwr.parked.getLsbD x = true) then s
  else match s.cch.pick x with
    | none => s
    | some t =>
      let c := s.cch
      let e := c.executor x
      let s1 := { s with cch := { c with waiting := c.waiting.erase t }.setExecutor x ⟨some t, false, s.now, e.spans⟩ }
      (s1.bump cCchDispatched).noteWait t

/-- The dispatch rule over all executors, cores in ascending number, then ports (R324). -/
def State.dispatch (s : State) : State := (List.range 16).foldl State.dispatchOn s

/-- Put a task among the waiting if a descriptor may be taken (R325): `none` where the post fails. -/
def State.accept? (s : State) (t : Task) : Option State :=
  if s.cch.free = 0 ∨ (s.cch.free ≤ 256 ∧ t.eclass ≠ 0) then none
  else
    let s1 := ({ s with cch := { s.cch with waiting := s.cch.waiting ++ [{ t with ticket := s.us }] } }).bump cCchPosted
    let s2 := if s.cch.free ≤ 256 then s1.bump cCchReservePosts else s1
    some (if s1.cch.free ≤ 256 then s2.raiseInt 0x0C0004 1 else s2)

/-- Count a failed post (R325). -/
def State.postFailed (s : State) : State :=
  ((if s.cch.free ≤ 256 then s.raiseInt 0x0C0004 1 else s).raiseInt 0x0C0004 0).note cCchPostFail .operations .second 0 0

/-- Post a task of TXN, of job intake or of firmware: the state and whether the post was accepted. -/
def State.post (s : State) (t : Task) : State × Bool :=
  match s.accept? t with
  | some s1 => (s1.dispatch, true)
  | none => (s.postFailed, false)

/-- Post an event of CYC or TIM: while it finds no descriptor, or earlier events are held, it is held (R325). -/
def State.postHeld (s : State) (t : Task) : State :=
  match (if s.cch.held = [] then s.accept? t else none) with
  | some s1 => s1.dispatch
  | none => ({ s with cch := { s.cch with held := s.cch.held ++ [t] } }).bump cCchTriggerHeld

/-- At the next cycle the held events are posted again, in their order (R325). -/
def State.repostHeld (s : State) : State :=
  s.cch.held.foldl State.postHeld { s with cch := { s.cch with held := [] } }

/-- End the task on an executor: its busy span of the last second is kept for LOAD. -/
def State.retire (s : State) (x : Nat) : State :=
  let e := s.cch.executor x
  match e.running with
  | none => s
  | some _ =>
    let spans := ((e.busySince, s.now) :: e.spans).filter fun p => decide (s.now < p.2 + ticksPerSec)
    { s with cch := s.cch.setExecutor x ⟨none, false, 0, spans⟩ }

/-- Busy permille of an executor over the last second (CCH_EXEC_n.LOAD). -/
def State.execLoad (s : State) (x : Nat) : Nat :=
  let e := s.cch.executor x
  let spans := if e.running.isSome = true then (e.busySince, s.now) :: e.spans else e.spans
  (spans.foldl (fun acc p => acc + (p.2 - max p.1 (s.now - ticksPerSec))) 0) * 1000 / ticksPerSec

/-- Mark the running task of an executor as having done its work. -/
def State.actedOn (s : State) (x : Nat) : State :=
  let e := s.cch.executor x
  { s with cch := s.cch.setExecutor x { e with acted := true } }

/-- The kind of the task that runs on an executor and has not done its work. -/
def State.runningKind (s : State) (x : Nat) : Option Nat :=
  let e := s.cch.executor x
  if e.acted = true then none else e.running.map Task.kind

/-- The first executor on which a task of a kind runs that has not done its work. -/
def State.executorOf (s : State) (kind : Nat) : Option Nat := (List.range 16).find? fun x => s.runningKind x == some kind

/-! ## The budget (R327) -/

/-- Suspension marks of a class when the level changes. -/
def suspend (now : Nat) (before after : Bool) (since : Option Nat) (ms : Nat) : Option Nat × Nat :=
  if before = true ∧ after = false then (some now, 0)
  else if before = false ∧ after = true then (none, min ((now - since.getD now) / ticksPerMs) 65535)
  else (since, ms)

/-- A new budget level reaches Coachman (R327). -/
def State.setBudget (s : State) (level : Nat) : State :=
  if level = s.cch.level then s
  else
    let c := s.cch
    let marks := (List.range 4).map fun cls =>
      suspend s.now (c.allows cls) (decide (cls < allowedClasses level)) (c.suspendedSince.getD cls none) (c.suspendedMs.getD cls 0)
    let s1 := { s with cch := { c with level := level, suspendedSince := marks.map Prod.fst, suspendedMs := marks.map Prod.snd } }
    ((s1.bump cCchBudgetChanges).raiseInt 0x0C0004 3).dispatch

/-- SUSPENDED_MS of a class (CCH_CLASS_c). -/
def State.suspendedMsOf (s : State) (cls : Nat) : Nat :=
  match s.cch.suspendedSince.getD cls none with
  | some t => min ((s.now - t) / ticksPerMs) 65535
  | none => s.cch.suspendedMs.getD cls 0

/-! ## The trigger table (R326) -/

/-- A free entry. -/
def Trigger.free : Trigger := ⟨0, false, 0, 0, 0, 0, 0, 0, 0, 0⟩

/-- Set an entry of the trigger table; a cycle entry whose DUE is already numbered fires at the next cycle. -/
def State.setTrigger (s : State) (entry : Nat) (t : Trigger) : State :=
  let late := decide (t.source = 1 ∧ t.due ≤ s.cyc.num)
  let s1 := { s with cch := { s.cch with triggers := Table.set Trigger.free s.cch.triggers entry { t with late := late } } }
  if late = true then s1.bump cCchTriggerLate else s1

/-- The task that an entry posts. -/
def Trigger.task (t : Trigger) (synth : Bool) (us : Nat) : Task :=
  ⟨t.kind, t.priority, t.eclass, t.exec, t.coreMask, if synth = true then t.arg % 2 ^ 31 + 2 ^ 31 else t.arg, us⟩

/-- Fire one cycle entry at a cycle; a periodic entry fires once for its latest due cycle and goes on. -/
def State.fireCycleTrigger (synth : Bool) (s : State) (e : Nat × Trigger) : State :=
  let t := e.2
  let n := if t.period = 0 then 0 else (s.cyc.num - t.due) / t.period
  let next := if t.period = 0 then Trigger.free else { t with due := t.due + (n + 1) * t.period, late := false }
  let s1 := { s with cch := { s.cch with triggers := Table.set Trigger.free s.cch.triggers e.1 next } }
  let s2 := if t.late = true ∨ n = 0 then s1 else s1.bumpBy cCchTriggerSkipped n
  (s2.bump cCchTriggersFired).postHeld (t.task synth s.us)

/-- Fire the cycle entries that are due, in ascending entry order (order 6 of Table 3.2). -/
def State.fireCycleTriggers (s : State) (synth : Bool) : State :=
  (s.cch.triggers.filter fun e => decide (e.2.source = 1 ∧ e.2.due ≤ s.cyc.num)).foldl (State.fireCycleTrigger synth) s

/-- Fire the entries of a pulse output at one of its instants (R98). -/
def State.firePulseTriggers (s : State) (output : Nat) : State :=
  (s.cch.triggers.filter fun e => decide (e.2.source = 2 + output)).foldl
    (fun st e => (st.bump cCchTriggersFired).postHeld (e.2.task false st.us)) s

/-- A trigger job's template has no undefined encoding (R326). -/
def templateValid (t : TriggerTemplate) : Bool :=
  (taskTable t.kind).isSome && decide (t.exec ≤ 4 ∧ t.priority ≤ 63 ∧ t.eclass ≤ 3)

/-- SWP returns the tasks of application cores to their places with their tickets (R328). -/
def State.requeueCores (s : State) : State :=
  (List.range 12).foldl (fun st x =>
    match (st.cch.executor x).running with
    | none => st
    | some t =>
      ({ st with cch := { st.cch with waiting := t :: st.cch.waiting }.setExecutor x ⟨none, false, 0, []⟩ }).bump cCchSwpRequeued) s

/-- Coachman after every other reset class (R328). -/
def Cch.cleared : Cch := ⟨[], List.replicate 16 ⟨none, false, 0, []⟩, [], [], 0, [none, none, none, none], [0, 0, 0, 0]⟩

end Sys2Proof.Machine
end

