-- ==== Sys2Proof/Machine/P521.lean ====
section
/-!
DEFINITION. The curve P-521 and ECDSA with SHA-512 (FIPS 186), on which every signature of the spec rests (R47, R48, R431, R432, R444,
R445).
-/

namespace Sys2Proof.Machine

/-- The field's prime. -/
def ecP : Nat := 2 ^ 521 - 1

/-- The order of the base point. -/
def ecN : Nat :=
  0x01FFFFFFFFFFFFFFFFFFFFFFFFFFFFFFFFFFFFFFFFFFFFFFFFFFFFFFFFFFFFFFFFFA51868783BF2F966B7FCC0148F709A5D03BB5C9B8899C47AEBB6FB71E91386409

/-- The curve's coefficient b; a is −3. -/
def ecB : Nat :=
  0x0051953EB9618E1C9A1F929A21A0B68540EEA2DA725B99B315F3B8B489918EF109E156193951EC7E937B1652C0BD3BB1BF073573DF883D2C34F1EF451FD46B503F00

/-- The base point. -/
def ecG : Nat × Nat :=
  (0x00C6858E06B70404E9CD9E3ECB662395B4429C648139053FB521F828AF606B4D3DBAA14B5E77EFE75928FE1DC127A2FFA8DE3348B3C1856A429BF97E7E31C2E5BD66,
   0x011839296A789A3BC0045C8A5FB42C7D1BD998F54449579B446817AFBD17273E662C97EE72995EF42640C550B9013FAD0761353C7086A272C24088BE94769FD16650)

/-- A power modulo `m`: `n` bits of the exponent remain, the highest first. -/
def powMod (m b e : Nat) : Nat → Nat → Nat
  | 0, a => a
  | n + 1, a => powMod m b e n (if e / 2 ^ n % 2 = 1 then a * a % m * b % m else a * a % m)

/-- The inverse modulo a prime of at most 521 bits. -/
def invMod (m x : Nat) : Nat := powMod m (x % m) (m - 2) 521 1

/-- A point of the curve in Jacobian coordinates (x = X/Z², y = Y/Z³); Z is 0 at the point at infinity. -/
structure Jac where
  x : Nat
  y : Nat
  z : Nat
  deriving DecidableEq, Repr

/-- The point at infinity. -/
def Jac.zero : Jac := ⟨1, 1, 0⟩

/-- A point of the plane. -/
def Jac.of (p : Nat × Nat) : Jac := ⟨p.1, p.2, 1⟩

/-- A number worked out before it is used. -/
def strictly {α : Type} (n : Nat) (f : Nat → α) : α :=
  match n with
  | 0 => f 0
  | .succ m => f (.succ m)

/-- Twice a point, with a = −3. -/
def Jac.double (p : Jac) : Jac :=
  strictly (p.z * p.z % ecP) fun zz =>
  strictly (p.y * p.y % ecP) fun yy =>
  strictly (p.x * yy % ecP) fun b =>
  strictly (3 * (p.x + (ecP - zz)) * (p.x + zz) % ecP) fun a =>
  strictly ((a * a + 8 * (ecP - b)) % ecP) fun x =>
  strictly ((a * (4 * b + (ecP - x)) + 8 * (ecP - yy * yy % ecP)) % ecP) fun y =>
  strictly (2 * p.y * p.z % ecP) fun z => ⟨x, y, z⟩

/-- The sum of two points. -/
def Jac.add (p q : Jac) : Jac :=
  if p.z = 0 then q
  else if q.z = 0 then p
  else
    strictly (p.z * p.z % ecP) fun pz =>
    strictly (q.z * q.z % ecP) fun qz =>
    strictly (p.x * qz % ecP) fun u =>
    strictly (p.y * qz % ecP * q.z % ecP) fun s =>
    strictly ((q.x * pz + (ecP - u)) % ecP) fun h =>
    strictly ((q.y * pz % ecP * p.z + (ecP - s)) % ecP) fun r =>
    if h = 0 then (if r = 0 then p.double else .zero)
    else
      strictly (h * h % ecP) fun hh =>
      strictly (h * hh % ecP) fun hhh =>
      strictly (u * hh % ecP) fun v =>
      strictly ((r * r + (ecP - hhh) + 2 * (ecP - v)) % ecP) fun x =>
      strictly ((r * (v + (ecP - x)) + s * (ecP - hhh)) % ecP) fun y =>
      strictly (p.z * q.z % ecP * h % ecP) fun z => ⟨x, y, z⟩

/-- `j` times one point plus `k` times another, whose sum is given: `n` bits of the scalars remain, the highest first. -/
def jacMul (j k : Nat) (p q pq : Jac) : Nat → Jac → Jac
  | 0, a => a
  | n + 1, a =>
    let d := a.double
    jacMul j k p q pq n
      (match (j / 2 ^ n % 2 : Nat), (k / 2 ^ n % 2 : Nat) with
        | 0, 0 => d
        | 0, _ => d.add q
        | _, 0 => d.add p
        | _, _ => d.add pq)

/-- The point in the plane; `none` at infinity. -/
def Jac.plane (p : Jac) : Option (Nat × Nat) :=
  if p.z = 0 then none
  else
    let i := invMod ecP p.z
    some (p.x * (i * i % ecP) % ecP, p.y * (i * i % ecP * i % ecP) % ecP)

/-- `j` times one point plus `k` times another. -/
def ecSum (j k : Nat) (p q : Nat × Nat) : Option (Nat × Nat) :=
  (jacMul j k (.of p) (.of q) ((Jac.of p).add (.of q)) 521 .zero).plane

/-- A scalar times a point. -/
def ecTimes (k : Nat) (p : Nat × Nat) : Option (Nat × Nat) := ecSum k 0 p p

/-- A point as SEC 1 uncompressed bytes (133). -/
def ecBytes (p : Option (Nat × Nat)) : List Byte :=
  match p with
  | some (x, y) => 0x04#8 :: beBytes 66 x ++ beBytes 66 y
  | none => List.replicate 133 0

/-- The point that SEC 1 uncompressed bytes spell, on the curve. -/
def ecPoint (bs : List Byte) : Option (Nat × Nat) :=
  let x := beNat ((bs.drop 1).take 66)
  let y := beNat ((bs.drop 67).take 66)
  if bs.length = 133 ∧ bs.headD 0 = 0x04#8 ∧ x < ecP ∧ y < ecP ∧ (y * y) % ecP = (x * x * x + (ecP - 3) * x + ecB) % ecP then some (x, y)
  else none

/-- The public key of a private scalar. -/
def ecPublic (d : Nat) : List Byte := ecBytes (ecTimes d ecG)

/-- SHA-512 of a message as ECDSA's number. -/
def ecHash (msg : List Byte) : Nat := beNat (sha512Bytes msg) % ecN

/-- An ECDSA signature r‖s (132 bytes) with a private scalar and the signer's random number. -/
def ecdsaSign (d k : Nat) (msg : List Byte) : List Byte :=
  let r := match ecTimes k ecG with
    | some p => p.1 % ecN
    | none => 0
  beBytes 66 r ++ beBytes 66 (invMod ecN k * (ecHash msg + r * d) % ecN)

/-- An ECDSA signature r‖s verifies under a public key. -/
def ecdsaVerify (pub msg sig : List Byte) : Bool :=
  let r := beNat (sig.take 66)
  let s := beNat ((sig.drop 66).take 66)
  match ecPoint pub with
  | none => false
  | some q =>
    let w := invMod ecN s
    decide (sig.length = 132 ∧ 0 < r ∧ r < ecN ∧ 0 < s ∧ s < ecN) &&
      (match ecSum (ecHash msg * w % ecN) (r * w % ecN) ecG q with
        | some v => decide (v.1 % ecN = r)
        | none => false)

end Sys2Proof.Machine
end

