-- ==== Sys2Proof/Machine/Objects.lean ====
section
/-!
DEFINITION. The fields of the signed objects, read from their bytes: authority certificates (Table 2.9), the boot header (Table 2.3),
configuration images (Tables 2.4 to 2.7) and their migration (Table 2.10), firmware parts (Table 16.4), update bundles (Tables 16.1 to 16.3)
and tariff sets (Tables 6.2 to 6.4).
-/

namespace Sys2Proof

open Machine

/-! ## Certificates (R47, R48) -/

/-- MAGIC, VERSION, LENGTH and ANCHOR are those of Table 2.9. -/
def Cert.wellFormed (c : Cert) : Bool :=
  decide (c.bytes.length = 444 ∧ fieldAt c.bytes 0 4 = 0x43415856 ∧ fieldAt c.bytes 4 2 = 1 ∧ fieldAt c.bytes 6 2 = 444 ∧ fieldAt c.bytes 12 1 < 4)

/-- The authority bits. -/
def Cert.authority (c : Cert) : BitVec 32 := BitVec.ofNat 32 (fieldAt c.bytes 8 4)

/-- ANCHOR: the owner anchor's index. -/
def Cert.anchor (c : Cert) : Fin 4 := Fin.ofNat 4 (fieldAt c.bytes 12 1)

/-- CERT_SERIAL. -/
def Cert.serial (c : Cert) : BitVec 32 := BitVec.ofNat 32 (fieldAt c.bytes 16 4)

/-- SUBJECT: 16 bytes of ASCII. -/
def Cert.subject (c : Cert) : List Byte := partOf c.bytes 24 16

/-- SUBJECT_KEY: the signer's public key. -/
def Cert.subjectKey (c : Cert) : List Byte := partOf c.bytes 40 133

/-- The SHA-512 of ANCHOR_KEY. -/
def Cert.anchorKey (c : Cert) : Digest := sha512 (partOf c.bytes 176 133)

/-- CERT_SIG verifies with ANCHOR_KEY over bytes 0 to 311. -/
def Cert.sigOk (c : Cert) : Bool := ecdsaVerify (partOf c.bytes 176 133) (c.bytes.take 312) (partOf c.bytes 312 132)

/-! ## The boot header (R39) -/

/-- MAGIC. -/
def BootHeader.magic (h : BootHeader) : BitVec 32 := BitVec.ofNat 32 (fieldAt h.bytes 0 4)

/-- VERSION. -/
def BootHeader.version (h : BootHeader) : BitVec 16 := BitVec.ofNat 16 (fieldAt h.bytes 4 2)

/-- LENGTH. -/
def BootHeader.length (h : BootHeader) : BitVec 16 := BitVec.ofNat 16 (fieldAt h.bytes 6 2)

/-- NOR_MODE. -/
def BootHeader.norMode (h : BootHeader) : Byte := h.bytes.getD 8 0

/-- NOR_DUMMY. -/
def BootHeader.norDummy (h : BootHeader) : Byte := h.bytes.getD 9 0

/-- NOR_MHZ. -/
def BootHeader.norMhz (h : BootHeader) : BitVec 16 := BitVec.ofNat 16 (fieldAt h.bytes 10 2)

/-- NOR_ADDR. -/
def BootHeader.norAddr (h : BootHeader) : Byte := h.bytes.getD 12 0

/-- SDRAM_GIB. -/
def BootHeader.sdramGib (h : BootHeader) : Byte := h.bytes.getD 16 0

/-- SDRAM_RANKS. -/
def BootHeader.sdramRanks (h : BootHeader) : Byte := h.bytes.getD 17 0

/-- SDRAM_WIDTH. -/
def BootHeader.sdramWidth (h : BootHeader) : Byte := h.bytes.getD 18 0

/-- SDRAM_MTS. -/
def BootHeader.sdramMts (h : BootHeader) : BitVec 32 := BitVec.ofNat 32 (fieldAt h.bytes 20 4)

/-- SDRAM_TIMING. -/
def BootHeader.timing (h : BootHeader) : List Byte := partOf h.bytes 24 64

/-- NAND_CE_MASK. -/
def BootHeader.nandCeMask (h : BootHeader) : BitVec 16 := BitVec.ofNat 16 (fieldAt h.bytes 88 2)

/-- NAND_MODE. -/
def BootHeader.nandMode (h : BootHeader) : Byte := h.bytes.getD 90 0

/-- VBAT_FITTED. -/
def BootHeader.vbatFitted (h : BootHeader) : Bool := (h.bytes.getD 92 0).getLsbD 0

/-- SCAP_FITTED. -/
def BootHeader.scapFitted (h : BootHeader) : Bool := (h.bytes.getD 92 0).getLsbD 1

/-- CRC. -/
def BootHeader.crc (h : BootHeader) : Word := BitVec.ofNat 32 (fieldAt h.bytes 252 4)

/-- CRC verifies over bytes 0 to 251. -/
def BootHeader.crcOk (h : BootHeader) : Bool := decide (h.bytes.length = 256 ∧ crc32c (h.bytes.take 252) = h.crc)

/-- The SHA-512 that MEAS1 is extended with (Table 14.6). -/
def BootHeader.digest (h : BootHeader) : Digest := sha512 h.bytes

/-! ## Configuration images (R41 to R43, R49) -/

/-- MAGIC. -/
def ConfigImage.magic (c : ConfigImage) : Nat := fieldAt c.bytes 0 4

/-- FORMAT. -/
def ConfigImage.format (c : ConfigImage) : Nat := fieldAt c.bytes 4 2

/-- HEADER_SIZE. -/
def ConfigImage.headerSize (c : ConfigImage) : Nat := fieldAt c.bytes 6 2

/-- TOTAL_LENGTH. -/
def ConfigImage.totalLength (c : ConfigImage) : Nat := fieldAt c.bytes 8 4

/-- DEVICE_TYPE. -/
def ConfigImage.deviceType (c : ConfigImage) : Nat := fieldAt c.bytes 12 4

/-- SERIAL. -/
def ConfigImage.serial (c : ConfigImage) : Nat := fieldAt c.bytes 16 4

/-- ROLLBACK_FLOOR. -/
def ConfigImage.rollbackFloor (c : ConfigImage) : Nat := fieldAt c.bytes 20 4

/-- ROLE. -/
def ConfigImage.role (c : ConfigImage) : Nat := fieldAt c.bytes 24 1

/-- SECTION_COUNT. -/
def ConfigImage.sectionCount (c : ConfigImage) : Nat := fieldAt c.bytes 26 2

/-- SECTION_TABLE. -/
def ConfigImage.sectionTable (c : ConfigImage) : Nat := fieldAt c.bytes 28 4

/-- CERT_OFFSET. -/
def ConfigImage.certOffset (c : ConfigImage) : Nat := fieldAt c.bytes 32 4

/-- SIG_OFFSET. -/
def ConfigImage.sigOffset (c : ConfigImage) : Nat := fieldAt c.bytes 36 4

/-- APP_MIN. -/
def ConfigImage.appMin (c : ConfigImage) : Nat := fieldAt c.bytes 40 4

/-- APP_MAX. -/
def ConfigImage.appMax (c : ConfigImage) : Nat := fieldAt c.bytes 44 4

/-- The items that a section's bytes spell (Table 2.7); bytes that end within an item leave one that no table admits. -/
def itemsOf : Nat → List Byte → List Item
  | 0, _ => []
  | _, [] => []
  | n + 1, bs =>
    let len := fieldAt bs 2 2
    let pad := partOf bs (4 + len) ((4 - len % 4) % 4)
    ⟨fieldAt bs 0 2, len, partOf bs 4 len, decide (pad.length = (4 - len % 4) % 4) && pad.all fun x => decide (x = 0)⟩ ::
      itemsOf n (bs.drop (4 + (len + 3) / 4 * 4))

/-- The section that entry `k` of the table names (Table 2.5). -/
def ConfigImage.sectionAt (c : ConfigImage) (k : Nat) : Section :=
  let e := partOf c.bytes (c.sectionTable + 16 * k) 16
  let key := fieldAt e 0 2
  let o := fieldAt e 4 4
  let n := fieldAt e 8 4
  ⟨decide (2 ^ 15 ≤ key), key % 2 ^ 15, fieldAt e 2 2, o, n, itemsOf n (partOf c.bytes o n)⟩

/-- The sections. -/
def ConfigImage.sections (c : ConfigImage) : List Section := (List.range c.sectionCount).map c.sectionAt

/-- The certificate. -/
def ConfigImage.cert (c : ConfigImage) : Cert := ⟨partOf c.bytes c.certOffset 444⟩

/-- The signature verifies with SUBJECT_KEY over bytes 0 to SIG_OFFSET − 1 (R49). -/
def ConfigImage.sigOk (c : ConfigImage) : Bool := ecdsaVerify c.cert.subjectKey (c.bytes.take c.sigOffset) (partOf c.bytes c.sigOffset 132)

/-- The SHA-512 of bytes 0 to TOTAL_LENGTH − 1 (R49). -/
def ConfigImage.digest (c : ConfigImage) : Digest := sha512 (c.bytes.take c.totalLength)

/-- Every padding byte between the parts is zero (R42). -/
def ConfigImage.padZero (c : ConfigImage) : Bool :=
  let ends := (128 + 16 * c.sectionCount) :: c.sections.map fun x => x.offset + x.length
  let starts := (c.sections.map fun x => x.offset) ++ [c.certOffset]
  ((ends.zip starts).all fun x => zeroBetween c.bytes x.1 x.2) && zeroBetween c.bytes (c.certOffset + 444) c.sigOffset

/-- Raise a 32-bit field by 32. -/
def raise32 (bs : List Byte) (o : Nat) : List Byte := putAt bs o (leBytes 4 (fieldAt bs o 4 + 32))

/-- The format 3 copy of an image (Table 2.10). -/
def ConfigImage.migrated (c : ConfigImage) : ConfigImage :=
  if c.format = 1 then
    let wide := c.bytes.take 96 ++ List.replicate 32 0 ++ c.bytes.drop 96
    let fields := putAt (putAt (putAt (putAt wide 4 (leBytes 2 3)) 6 (leBytes 2 128)) 20 (leBytes 4 0)) 40 (leBytes 8 0)
    let moved := ([8, 28, 32, 36] : List Nat).foldl raise32 fields
    ⟨(List.range c.sectionCount).foldl (fun bs k => raise32 bs (c.sectionTable + 32 + 16 * k + 4)) moved⟩
  else if c.format = 2 then ⟨putAt (putAt c.bytes 4 (leBytes 2 3)) 40 (leBytes 8 0)⟩
  else c

/-- The SHA-512 of the migrated copy (R53). -/
def ConfigImage.migratedDigest (c : ConfigImage) : Digest := c.migrated.digest

/-! ## Firmware parts (R482) -/

/-- KIND. -/
def FwPart.kind (p : FwPart) : Nat := fieldAt p.bytes 8 1

/-- PART_VERSION. -/
def FwPart.version (p : FwPart) : Nat := fieldAt p.bytes 12 4

/-- SEC_VERSION. -/
def FwPart.secVersion (p : FwPart) : Nat := fieldAt p.bytes 16 4

/-- BODY_LENGTH. -/
def FwPart.bodyLength (p : FwPart) : Nat := fieldAt p.bytes 20 4

/-- COMPAT: MIN and MAX for kinds 1 to 4. -/
def FwPart.compat (p : FwPart) : List (Nat × Nat) := (List.range 4).map fun k => (fieldAt p.bytes (24 + 8 * k) 4, fieldAt p.bytes (28 + 8 * k) 4)

/-- SEGMENTS: LOAD_ADDR, OFFSET and LENGTH of each. -/
def FwPart.segments (p : FwPart) : List (Nat × Nat × Nat) :=
  (List.range 8).map fun k => (fieldAt p.bytes (56 + 16 * k) 8, fieldAt p.bytes (64 + 16 * k) 4, fieldAt p.bytes (68 + 16 * k) 4)

/-- MAGIC, VERSION, HEADER_SIZE and KIND are those of Table 16.4, and the part is whole. -/
def FwPart.headerOk (p : FwPart) : Bool :=
  decide (fieldAt p.bytes 0 4 = 0x50465856 ∧ fieldAt p.bytes 4 2 = 1 ∧ fieldAt p.bytes 6 2 = 256 ∧ 1 ≤ p.kind ∧ p.kind ≤ 5 ∧ p.bodyLength % 4 = 0 ∧
    p.bodyLength + 524 ≤ p.bytes.length)

/-- The memories into which a kind loads, as base and size (Tables 1.6, 1.11, 2.1, R26, R37). -/
def loadAreas : Nat → List (Nat × Nat)
  | 1 => [(0x1C000000, 0x28000)]
  | 2 => [(0, Config.dspMemory)]
  | 3 => [(0x100000000, 0x1000000)]
  | 4 => [(0x18000000, 0x80000)]
  | _ => [(0x10000000, 0x300000), (0x1C000000, 0x28000)]

/-- Every segment in use lies within the body and within the memory of its kind (R26, R482). -/
def FwPart.segmentsOk (p : FwPart) : Bool :=
  p.segments.all fun x => decide (x.2.2 = 0) || (decide (x.2.1 + x.2.2 ≤ p.bodyLength) &&
    (loadAreas p.kind).any fun a => decide (a.1 ≤ x.1 ∧ x.1 + x.2.2 ≤ a.1 + a.2))

/-- SIGNER_KEY. -/
def FwPart.signer (p : FwPart) : List Byte := partOf p.bytes (256 + p.bodyLength) 133

/-- The SHA-512 of SIGNER_KEY. -/
def FwPart.signerKey (p : FwPart) : Digest := sha512 p.signer

/-- The signature verifies over every byte before it. -/
def FwPart.sigOk (p : FwPart) : Bool := ecdsaVerify p.signer (p.bytes.take (p.bodyLength + 392)) (partOf p.bytes (p.bodyLength + 392) 132)

/-- The SHA-512 of the part from its first byte to the end of its signature (R443). -/
def FwPart.digest (p : FwPart) : Digest := sha512 (p.bytes.take (p.bodyLength + 524))

/-! ## Update bundles (R480) -/

/-- TOTAL_LENGTH. -/
def UpdateBundle.totalLength (b : UpdateBundle) : Nat := fieldAt b.bytes 8 4

/-- DEVICE_TYPE. -/
def UpdateBundle.deviceType (b : UpdateBundle) : Nat := fieldAt b.bytes 12 4

/-- BUNDLE_SERIAL. -/
def UpdateBundle.serial (b : UpdateBundle) : Nat := fieldAt b.bytes 16 4

/-- PART_COUNT. -/
def UpdateBundle.partCount (b : UpdateBundle) : Nat := fieldAt b.bytes 20 2

/-- CERT_OFFSET. -/
def UpdateBundle.certOffset (b : UpdateBundle) : Nat := fieldAt b.bytes 24 4

/-- SIG_OFFSET. -/
def UpdateBundle.sigOffset (b : UpdateBundle) : Nat := fieldAt b.bytes 28 4

/-- The part that entry `k` of the table names (Tables 16.2, 16.3). -/
def UpdateBundle.partAt (b : UpdateBundle) (k : Nat) : BundlePart :=
  let e := partOf b.bytes (64 + 32 * k) 32
  let kind := fieldAt e 0 1
  let o := fieldAt e 4 4
  let n := fieldAt e 8 4
  let v := fieldAt e 12 4
  let m := BitVec.ofNat 64 (fieldAt e 16 8)
  let x := partOf b.bytes o n
  ⟨kind, o, n, v, m, if kind = 6 then .config ⟨x⟩ else if kind = 7 then .meter ⟨v, m, x⟩ else .firmware ⟨x⟩⟩

/-- The parts. -/
def UpdateBundle.parts (b : UpdateBundle) : List BundlePart := (List.range (min 8 b.partCount)).map b.partAt

/-- The certificate. -/
def UpdateBundle.cert (b : UpdateBundle) : Cert := ⟨partOf b.bytes b.certOffset 444⟩

/-- The bundle signature verifies with SUBJECT_KEY over bytes 0 to SIG_OFFSET − 1 (R481). -/
def UpdateBundle.sigOk (b : UpdateBundle) : Bool := ecdsaVerify b.cert.subjectKey (b.bytes.take b.sigOffset) (partOf b.bytes b.sigOffset 132)

/-- The parts stand where R480 puts them, with zero bytes between them; the answer is the end of the last. -/
def partsPlaced (bs : List Byte) : Nat → List BundlePart → Option Nat
  | pos, [] => some pos
  | pos, x :: rest => if x.offset = align8 pos ∧ zeroBetween bs pos x.offset = true then partsPlaced bs (x.offset + x.length) rest else none

/-- The layout of R480. -/
def UpdateBundle.layoutOk (b : UpdateBundle) : Bool :=
  decide (fieldAt b.bytes 0 4 = 0x42555856 ∧ fieldAt b.bytes 4 2 = 1 ∧ fieldAt b.bytes 6 2 = 64 ∧ b.partCount ≤ 7 ∧
    b.totalLength = b.bytes.length ∧ b.sigOffset = b.certOffset + 448 ∧ b.totalLength = b.sigOffset + 132) &&
    (match partsPlaced b.bytes (64 + 32 * b.partCount) b.parts with
      | none => false
      | some e => decide (b.certOffset = align8 e) && zeroBetween b.bytes e b.certOffset && zeroBetween b.bytes (b.certOffset + 444) b.sigOffset)

/-! ## Tariff sets (R179) -/

/-- TARIFF_ID. -/
def TariffSet.tariffId (x : TariffSet) : Nat := fieldAt x.bytes 12 4

/-- REVISION. -/
def TariffSet.revision (x : TariffSet) : Nat := fieldAt x.bytes 16 4

/-- ACTIVATE. -/
def TariffSet.activate (x : TariffSet) : Nat := fieldAt x.bytes 20 4

/-- LOCAL_OFFSET in minutes. -/
def TariffSet.localOffset (x : TariffSet) : Int := signedAt x.bytes 24 2

/-- CURRENCY. -/
def TariffSet.currency (x : TariffSet) : List Byte := partOf x.bytes 26 3

/-- RATES, SEASONS, PROFILES and SPECIAL. -/
def TariffSet.count (x : TariffSet) (k : Nat) : Nat := fieldAt x.bytes (29 + k) 1

/-- PERIOD_DAY. -/
def TariffSet.periodDay (x : TariffSet) : Nat := fieldAt x.bytes 33 1

/-- PERIOD_MINUTE. -/
def TariffSet.periodMinute (x : TariffSet) : Nat := fieldAt x.bytes 34 2

/-- STANDING. -/
def TariffSet.standing (x : TariffSet) : Nat := fieldAt x.bytes 36 4

/-- CERT_OFFSET. -/
def TariffSet.certOffset (x : TariffSet) : Nat := fieldAt x.bytes 40 4

/-- SIG_OFFSET. -/
def TariffSet.sigOffset (x : TariffSet) : Nat := fieldAt x.bytes 44 4

/-- Where the season entries begin. -/
def TariffSet.seasonsAt (x : TariffSet) : Nat := 64 + 68 * x.count 0

/-- Where the day profiles begin. -/
def TariffSet.profilesAt (x : TariffSet) : Nat := x.seasonsAt + 12 * x.count 1

/-- Where the special days begin. -/
def TariffSet.specialAt (x : TariffSet) : Nat := x.profilesAt + 44 * x.count 2

/-- Where the last of them ends. -/
def TariffSet.entriesEnd (x : TariffSet) : Nat := x.specialAt + 8 * x.count 3

/-- The rate entries (Table 6.3). -/
def TariffSet.rates (x : TariffSet) : List RateEntry :=
  (List.range (x.count 0)).map fun k =>
    let o := 64 + 68 * k
    ⟨fieldAt x.bytes o 1, fieldAt x.bytes (o + 4) 4, (List.range 7).map fun b => fieldAt x.bytes (o + 8 + 4 * b) 4,
      (List.range 8).map fun b => fieldAt x.bytes (o + 36 + 4 * b) 4⟩

/-- The seasons: month, day, and the profile of each weekday. -/
def TariffSet.seasons (x : TariffSet) : List (Nat × Nat × List Nat) :=
  (List.range (x.count 1)).map fun k =>
    let o := x.seasonsAt + 12 * k
    (fieldAt x.bytes o 1, fieldAt x.bytes (o + 1) 1, (List.range 7).map fun d => fieldAt x.bytes (o + 2 + d) 1)

/-- The day profiles (Table 6.4). -/
def TariffSet.profiles (x : TariffSet) : List DayProfile :=
  (List.range (x.count 2)).map fun k =>
    let o := x.profilesAt + 44 * k
    ⟨fieldAt x.bytes (o + 1) 1, (List.range (fieldAt x.bytes o 1)).map fun j => (fieldAt x.bytes (o + 4 + 4 * j) 2, fieldAt x.bytes (o + 6 + 4 * j) 1)⟩

/-- The special days: year, month, day, profile. -/
def TariffSet.special (x : TariffSet) : List (Nat × Nat × Nat × Nat) :=
  (List.range (x.count 3)).map fun k =>
    let o := x.specialAt + 8 * k
    (fieldAt x.bytes o 2, fieldAt x.bytes (o + 2) 1, fieldAt x.bytes (o + 3) 1, fieldAt x.bytes (o + 4) 1)

/-- The layout of R179: header, places, length, and zero padding. -/
def TariffSet.formatOk (x : TariffSet) : Bool :=
  decide (fieldAt x.bytes 0 4 = 0x53545856 ∧ fieldAt x.bytes 4 2 = 1 ∧ fieldAt x.bytes 6 2 = 64 ∧ fieldAt x.bytes 8 4 = x.bytes.length ∧
    x.bytes.length ≤ 4096 ∧ x.certOffset = align8 x.entriesEnd ∧ x.sigOffset = x.certOffset + 448 ∧ x.bytes.length = x.sigOffset + 132) &&
    zeroBetween x.bytes x.entriesEnd x.certOffset && zeroBetween x.bytes (x.certOffset + 444) x.sigOffset

/-- The certificate. -/
def TariffSet.cert (x : TariffSet) : Cert := ⟨partOf x.bytes x.certOffset 444⟩

/-- The signature verifies with SUBJECT_KEY over bytes 0 to SIG_OFFSET − 1. -/
def TariffSet.sigOk (x : TariffSet) : Bool := ecdsaVerify x.cert.subjectKey (x.bytes.take x.sigOffset) (partOf x.bytes x.sigOffset 132)

end Sys2Proof
end

