-- ==== Sys2Proof/Machine/JobBytes.lean ====
section
/-!
DEFINITION. Jobs as bytes: arguments, descriptor and DCRC (Tables 13.3, 13.5; R404), attachments and their lengths (R399), and what the
signature of a signed job covers (R406).
-/

namespace Sys2Proof.Machine

/-! ## Arguments and attachments (Table 13.5) -/

/-- A GMN in its four bytes, bits 31:20 zero (R408). -/
def gmnBytes (g : Gmn) : List Byte := leBytes 4 g.toNat

/-- A trigger's template (Table 10.6 without the ticket). -/
def templateBytes (m : TriggerTemplate) : List Byte :=
  leBytes 1 m.kind ++ leBytes 1 (m.priority + 64 * m.eclass) ++ leBytes 1 m.exec ++ [0] ++ leBytes 2 m.coreMask.toNat ++ [0, 0] ++
    leBytes 4 m.arg.toNat ++ leBytes 4 0

/-- ARGS of an enrol job. -/
def enrolBytes (a : EnrolArgs) : List Byte :=
  gmnBytes a.gmn ++ leBytes 1 a.meterGroup ++ leBytes 1 a.rating ++ leBytes 1 a.balGroup ++ leBytes 1 a.regPhase ++
    leBytes 1 ((if a.exportAllowed = true then 1 else 0) + (if a.replace = true then 2 else 0)) ++ leBytes 1 (a.radio + 2 * a.chan) ++
    leBytes 1 a.keySlot ++ leBytes 8 a.title.toNat

/-- ARGS of a campaign start (Table 16.9). -/
def campaignBytes (a : CampaignArgs) : List Byte :=
  leBytes 1 a.campaign ++ leBytes 1 a.slot ++ [a.media] ++
    leBytes 1 ((if a.sleepyUnicast = true then 1 else 0) + (if a.abort = true then 2 else 0)) ++ leBytes 2 a.groupMask.toNat ++
    leBytes 2 a.gmns.length ++ leBytes 2 a.blockSize ++ leBytes 1 a.rounds ++ [0] ++ leBytes 4 a.roundGap ++ leBytes 4 a.activateAt ++
    leBytes 6 a.statusObis.toNat

/-- A time of 64.32 form: seconds, then ns (R7). -/
def time6432 (sec ns : Nat) : List Byte := leBytes 8 sec ++ leBytes 4 ns

/-- ARGS of a job, packed from byte 16 in the order of Table 13.5. -/
def jobArgs : JobBody → List Byte
  | .readMeter g o p m => gmnBytes g ++ leBytes 6 o.toNat ++ leBytes 1 p ++ leBytes 1 m
  | .snapshotGroup g all lead ms => leBytes 1 g ++ leBytes 1 all ++ leBytes 2 lead ++ leBytes 2 ms.length
  | .registerRead o n => leBytes 4 o ++ leBytes 2 n
  | .meterStateRead g parts => gmnBytes g ++ [parts]
  | .attest n => leBytes 32 n.toNat
  | .cancel t => leBytes 2 t.toNat
  | .trigger e src due per m => leBytes 1 e ++ leBytes 1 src ++ leBytes 6 due ++ leBytes 4 per ++ templateBytes m
  | .pulse o a b per w => leBytes 1 o ++ time6432 a b ++ leBytes 4 per ++ leBytes 4 w
  | .hostTime a b => time6432 a b
  | .balanceMembership g grp ph ex => gmnBytes g ++ leBytes 1 grp ++ leBytes 1 ph ++ leBytes 1 ex
  | .bundleSubmit _ => []
  | .pushTariffSet k _ => leBytes 1 k
  | .creditChange g a => gmnBytes g ++ leInt 8 a
  | .disconnect g => gmnBytes g
  | .reconnect g f => gmnBytes g ++ leBytes 1 f
  | .legalRelease g m => gmnBytes g ++ leBytes 1 m
  | .enrolMeter a => enrolBytes a
  | .removeMeter g => gmnBytes g
  | .keyChange g k _ _ => gmnBytes g ++ leBytes 1 k
  | .counterReset g r t => gmnBytes g ++ leBytes 4 r.toNat ++ leBytes 4 t.toNat
  | .designate r n l => leBytes 1 r ++ leBytes 1 n.toNat ++ leBytes 2 (match l with
      | some x => x.length
      | none => 0xFFFF)
  | .claimOwnership => []
  | .releaseOwnership => []
  | .forgetCoordinate => []
  | .wallTimeStep w m => leBytes 4 w ++ leBytes 4 m
  | .clearLog l => leBytes 1 l
  | .openExpertSession d => leBytes 4 d
  | .debugToken _ => []
  | .updateDelivery tag o total part _ _ => leBytes 4 tag.toNat ++ leBytes 4 o ++ leBytes 4 total ++ leBytes 1 part
  | .campaignStart a => campaignBytes a
  | .reset n p => leBytes 1 n.toNat ++ leBytes 1 p
  | .bootHeaderWrite _ _ => []
  | .unknown _ => []

/-- The attachment of an unsigned job, or the body of a signed one (Table 13.5). -/
def jobData : JobBody → List Byte
  | .snapshotGroup _ _ _ ms => ms.flatMap gmnBytes
  | .bundleSubmit b => bundleBytes b
  | .pushTariffSet _ x => x.bytes
  | .enrolMeter a => wrappedBytes a.ekWrapped ++ wrappedBytes a.akWrapped
  | .keyChange _ _ ek ak => wrappedBytes ek ++ wrappedBytes ak
  | .designate _ _ (some l) => l.flatMap (leBytes 2)
  | .debugToken x => x
  | .updateDelivery _ _ _ _ x _ => x
  | .campaignStart a => a.gmns.flatMap gmnBytes
  | .bootHeaderWrite h _ => h.bytes
  | _ => []

/-! ## Descriptors (R404) -/

/-- Bytes 0 to 59 of a descriptor (Table 13.3). -/
def jobHead (j : Job) : List Byte :=
  let h := j.hdr
  let r := h.reserved.toNat
  leBytes 1 j.body.code ++
    leBytes 1 ((if h.envelope.isSome = true then 1 else 0) + (if h.chain = true then 2 else 0) + (if h.remote = true then 4 else 0) + 8 * (r % 32)) ++
    leBytes 1 (h.target.toNat + 64 * (r / 32 % 4)) ++ leBytes 1 (h.rq.val + 4 * (r / 128)) ++ leBytes 4 h.jobId.toNat ++
    leBytes 4 h.attachOffset.toNat ++ leBytes 4 h.attachLen.toNat ++ (jobArgs j.body ++ List.replicate 44 0).take 44

/-- DCRC verifies. -/
def dcrcOk (j : Job) : Bool := decide (j.hdr.dcrc = crc32c (jobHead j))

/-- A job with its DCRC. -/
def withDcrc (j : Job) : Job := { j with hdr := { j.hdr with dcrc := crc32c (jobHead j) } }

/-! ## Signed jobs (R406) -/

/-- The 64 bytes of an envelope (Table 13.7). -/
def envelopeBytes (e : Envelope) : List Byte :=
  leBytes 4 e.magic.toNat ++ leBytes 2 e.version.toNat ++ leBytes 2 e.length.toNat ++ leBytes 8 e.targetSerial.toNat ++
    leBytes 4 e.notBefore.toNat ++ leBytes 4 e.notAfter.toNat ++ leBytes 8 e.nonce.toNat ++ leBytes 4 e.bodyLen.toNat ++
    leBytes 4 e.certOffset.toNat ++ leBytes 24 e.reserved.toNat

/-- The layout of R406 around a body of so many bytes, and ATTACH_LEN = CERT_OFFSET + 580 (R407). -/
def envelopeLayoutOk (e : Envelope) (body attachLen : Nat) : Bool :=
  decide (e.magic = 0x4A535856#32 ∧ e.version = 1 ∧ e.length = 64 ∧ e.bodyLen.toNat = body ∧ e.certOffset.toNat = align8 (64 + body) ∧
    64 + body + e.pad.length = e.certOffset.toNat ∧ attachLen = e.certOffset.toNat + 580 ∧ e.sig.length = 132) &&
    e.pad.all fun x => decide (x = 0)

/-- What the signature covers: envelope, descriptor bytes 0 to 59 with bytes 3 and 4 to 7 zero, body, padding, certificate. -/
def signedText (e : Envelope) (head body : List Byte) : List Byte :=
  envelopeBytes e ++ putAt (putAt head 3 [0]) 4 [0, 0, 0, 0] ++ body ++ e.pad ++ e.cert.bytes

/-- The signature verifies with SUBJECT_KEY. -/
def envelopeSigned (e : Envelope) (head body : List Byte) : Bool := ecdsaVerify e.cert.subjectKey (signedText e head body) e.sig

/-- The whole attachment. -/
def attachment (j : Job) : List Byte :=
  match j.hdr.envelope with
  | none => jobData j.body
  | some e => envelopeBytes e ++ jobData j.body ++ e.pad ++ e.cert.bytes ++ leBytes 4 e.gap.toNat ++ e.sig

/-- A job that this node makes, with its length and DCRC. -/
def madeJob (src : JobSource) (id : BitVec 32) (b : JobBody) : Job :=
  withDcrc ⟨⟨src, id, 0, false, false, 0, 0, 0, BitVec.ofNat 32 (jobData b).length, 0, none⟩, b⟩

/-! ## Enumerated fields (R9) -/

/-- No enumerated argument holds an encoding that Table 13.5 does not define (R9). -/
def jobEncodingOk : JobBody → Bool
  | .readMeter _ _ _ m => decide (m ≤ 2)
  | .snapshotGroup _ all _ _ => decide (all ≤ 1)
  | .trigger _ src _ _ _ => decide (src ≤ 3)
  | .balanceMembership _ _ _ ex => decide (ex ≤ 1)
  | .reconnect _ f => decide (f ≤ 1)
  | .legalRelease _ m => decide (m ≤ 1)
  | .designate r _ _ => decide (r ≤ 1)
  | .clearLog l => decide (l ≤ 2)
  | .reset _ c => decide (c ≤ 1)
  | _ => true

/-! ## Lengths (R399) -/

/-- The largest body or attachment that a job's table allows. -/
def dataLimit : JobBody → Nat
  | .snapshotGroup .. => 4 * 65535
  | .bundleSubmit _ => 1048576
  | .pushTariffSet .. => 4096
  | .enrolMeter _ => 48
  | .keyChange .. => 48
  | .designate .. => 2 * 65534
  | .debugToken _ => 16
  | .updateDelivery .. => 1048576
  | .campaignStart _ => 4 * 65535
  | .bootHeaderWrite .. => 256
  | _ => 0

/-- ATTACH_LEN is within R399 and no larger than the job's table allows. -/
def attachLenOk (j : Job) : Bool :=
  let most := if j.hdr.envelope.isSome = true then align8 (64 + dataLimit j.body) + 580 else dataLimit j.body
  decide (j.hdr.attachLen.toNat ≤ min 1048576 most)

/-- An unsigned job's attachment is as long as ATTACH_LEN says. -/
def attachWhole (j : Job) : Bool := decide (j.hdr.envelope.isSome = true ∨ j.hdr.attachLen.toNat = (jobData j.body).length)

end Sys2Proof.Machine
end

