-- ==== Sys2Proof/Machine/JobOps.lean ====
section
/-!
DEFINITION. The life of a job: acceptance, progress, its one final report, and rejection (R61, R409, R412).
-/

namespace Sys2Proof.Machine

/-- Reason codes (Table 13.8). -/
inductive Reason where
  | none | format | unknown | access | signature | authority | replay | mode | busy | owner | frozen | mismatch | credit
  | noSource | noMains | notFound | expired | unreachable | legalSafe
  deriving DecidableEq, Repr

/-- The REASON byte. -/
def Reason.code : Reason → Nat
  | .none => 0
  | .format => 1
  | .unknown => 2
  | .access => 3
  | .signature => 4
  | .authority => 5
  | .replay => 6
  | .mode => 7
  | .busy => 8
  | .owner => 9
  | .frozen => 10
  | .mismatch => 11
  | .credit => 12
  | .noSource => 13
  | .noMains => 14
  | .notFound => 15
  | .expired => 16
  | .unreachable => 17
  | .legalSafe => 18

/-- Remember a job as accepted until its final report (R61). -/
def State.openJob (s : State) (j : JobRef) (code : Nat) : State :=
  { s with host := { s.host with jobs := s.host.jobs ++ [⟨j, code, none⟩] } }

/-- Forget a job. -/
def State.closeJob (s : State) (j : JobRef) : State :=
  { s with host := { s.host with jobs := s.host.jobs.filter fun o => o.ref ≠ j } }

/-- The final report of a job (R409). -/
def State.finishJob (s : State) (j : JobRef) (status : Nat) (reason : Reason) (outcome : Nat) (detail : List Byte)
    (data : ReportData) : State :=
  (s.closeJob j).jobReport j (.jobResult status reason.code outcome detail) data true

/-- A job done. -/
def State.jobDone (s : State) (j : JobRef) : State := s.finishJob j 0 .none 0 [] .none

/-- A job that failed after acceptance. -/
def State.jobFailed (s : State) (j : JobRef) (reason : Reason) : State := s.finishJob j 2 reason 0 [] .none

/-- A progress report, never final. -/
def State.jobProgress (s : State) (j : JobRef) (detail : List Byte) : State :=
  s.jobReport j (.jobResult 3 0 0 detail) .none false

/-- A rejection: counted, reported, and nothing else changed (R61). -/
def State.rejectJob (s : State) (j : JobRef) (reason : Reason) : State :=
  (s.finishJob j 1 reason 0 [] .none).bump cPciJobsRejected

/-- A rejection for "owner" names the owner's node in byte 12 (R412). -/
def State.rejectOwner (s : State) (j : JobRef) (node : Nat) : State :=
  (s.finishJob j 1 .owner 0 (leBytes 1 node) .none).bump cPciJobsRejected

/-- Report a final answer that waited for its record (R409): ANSWERED and UNVERIFIED are done, other outcomes failed. -/
def State.finalAnswer (s : State) (f : FinalHeld) : State :=
  s.finishJob f.job (if f.outcome = 0 ∨ f.outcome = 6 then 0 else 2) .none f.outcome (leBytes 2 f.tagValue) .none

/-- Report the final answer, if there is one. -/
def State.finalAnswer? (s : State) : Option FinalHeld → State
  | none => s
  | some f => s.finalAnswer f

end Sys2Proof.Machine
end

