-- ==== Sys2Proof/Machine/JobCheck.lean ====
section
/-!
DEFINITION. What every job meets at intake: its kind and mode (Table 2.12), the access right (R451), and the checks of a signed job
(R48, R406, R407, R429).
-/

namespace Sys2Proof.Machine

/-! ## Certificates (R48, R429) -/

/-- The pair of anchor and serial stands in the REVOKED item of the applied image (Table 14.9). -/
def State.listedRevoked (s : State) (c : Cert) : Bool :=
  (List.range (s.itemField iRevoked 0 4)).any fun i =>
    decide (s.itemField iRevoked (4 + 8 * i) 1 = c.anchor.val ∧ s.itemField iRevoked (8 + 8 * i) 4 = c.serial.toNat)

/-- The fuses do not revoke the certificate (R429). -/
def Fuses.accepts (f : Fuses) (c : Cert) : Bool :=
  c.wellFormed && decide (f.anchors.getD c.anchor.val 0 ≠ 0 ∧ f.anchors.getD c.anchor.val 0 = c.anchorKey) &&
    !f.revoke.getLsbD c.anchor.val && decide (f.certFloor.getD c.anchor.val 0 * 2 ^ 26 ≤ c.serial.toNat) && c.sigOk

/-- The device accepts a certificate of a job, a tariff set or a token (R48, R429). -/
def State.acceptsCert (s : State) (c : Cert) : Bool := s.sec.fuses.accepts c && !s.listedRevoked c

/-- The bit of an authority in a certificate (Table 2.9). -/
def authorityBit : Authority → Nat
  | .config => 0
  | .expert => 1
  | .tariff => 2
  | .state => 3
  | .time => 4
  | .logClear => 5
  | .debug => 6
  | .update => 7

/-- The certificate carries an authority. -/
def certCarries (c : Cert) (a : Authority) : Bool := c.authority.getLsbD (authorityBit a)

/-! ## Kinds (Tables 2.12, 14.10) -/

/-- The authority under which a kind is signed; a tariff push is signed in its own object (R406). -/
def jobAuthority (code : Nat) : Option Authority :=
  if 0x11 ≤ code ∧ code ≤ 0x1C then some .state
  else if code = 0x20 then some .time
  else if code = 0x21 then some .logClear
  else if code = 0x22 then some .expert
  else if code = 0x23 then some .debug
  else if 0x24 ≤ code ∧ code ≤ 0x27 then some .update
  else none

/-- The code is one of Table 13.5. -/
def jobListed (code : Nat) : Bool :=
  decide ((1 ≤ code ∧ code ≤ 0x0B) ∨ (0x10 ≤ code ∧ code ≤ 0x1C) ∨ (0x20 ≤ code ∧ code ≤ 0x27))

/-- Kinds accepted in THROTTLE. -/
def inThrottle (code : Nat) : Bool := decide (code ≠ 0x23 ∧ code ≠ 0x27)

/-- Kinds accepted in RIDE. -/
def inRide (code : Nat) : Bool := decide (code ≤ 0x0B ∨ (0x19 ≤ code ∧ code ≤ 0x1C) ∨ code = 0x26)

/-- Kinds accepted in RECOVERY; reduced recovery takes no update delivery (R38). -/
def inRecovery (code : Nat) (reduced : Bool) : Bool :=
  decide (code = 0x03 ∨ code = 0x05 ∨ code = 0x21 ∨ code = 0x23 ∨ code = 0x26 ∨ code = 0x27) || (decide (code = 0x24) && !reduced)

/-- Table 2.12: a kind is accepted in a mode; TEST takes what RUN takes (R456). -/
def acceptedIn (code : Nat) (m : Mode) (reduced : Bool) : Bool :=
  match m with
  | .run | .test => decide (code ≠ 0x27)
  | .throttle => inThrottle code
  | .ride => inRide code
  | .recovery => inRecovery code reduced
  | .boot | .gasp | .standby => false

/-- The master through which a job arrives (R61, Table 1.7). -/
def sourceMaster : JobSource → Master
  | .cq _ => 0
  | .eth p _ => if p = 0 then 1 else 2
  | .sideband _ => 3
  | .fabric p _ => ⟨11 + p.val, by omega⟩

/-- The pages whose right a job needs (Table 14.10), and the kind of access: 0 read, 1 write. -/
def jobRights (b : JobBody) : List (Nat × Nat) :=
  match b with
  | .registerRead o n => (List.range ((o + 4 * max 1 n - 1) / 4096 + 1 - o / 4096)).map fun k => (o / 4096 + k, 0)
  | b =>
    let c := b.code
    if c = 0x01 ∨ c = 0x06 then [(0xD0, 1)]
    else if c = 0x02 ∨ c = 0x0A then [(0x150, 1)]
    else if c = 0x04 then [(0x120, 0), (0x140, 0)]
    else if c = 0x05 then [(0x70, 0)]
    else if c = 0x07 then [(0xC0, 1)]
    else if c = 0x08 ∨ c = 0x09 ∨ c = 0x20 then [(0x180, 1)]
    else if c = 0x0B ∨ (0x15 ≤ c ∧ c ≤ 0x18) then [(0x120, 1)]
    else if 0x10 ≤ c ∧ c ≤ 0x14 then [(0x140, 1)]
    else if 0x19 ≤ c ∧ c ≤ 0x1C then [(0x1C0, 1)]
    else if c = 0x21 then [(0x60, 1)]
    else if c = 0x22 ∨ c = 0x23 then [(0x70, 1)]
    else if c = 0x24 ∨ c = 0x25 ∨ c = 0x27 then [(0x90, 1)]
    else if c = 0x26 then [(0x20, 1)]
    else []

/-- The first right that the job's master lacks. -/
def State.lackedRight (s : State) (m : Master) (b : JobBody) : Option (Nat × Nat) :=
  (jobRights b).find? fun r => decide (r.1 < 480) && pageListed (4096 * r.1) && !s.accGranted m r.1 r.2

/-! ## Signed jobs (R406, R407) -/

/-- The nonce cache holds a nonce. -/
def State.nonceHeld (s : State) (n : BitVec 64) : Bool := s.sec.nonces.any fun x => decide (x.1 = n)

/-- The checks of R407 on a job's envelope, in their order; the first that fails gives the reason. -/
def State.envelopeReason (s : State) (j : Job) (e : Envelope) (a : Authority) : Option Reason :=
  let body := jobData j.body
  if envelopeLayoutOk e body.length j.hdr.attachLen.toNat = false ∨ e.notBefore.toNat + 604800 < e.notAfter.toNat then some .format
  else if s.acceptsCert e.cert = false ∨ envelopeSigned e (jobHead j) body = false then some .signature
  else if certCarries e.cert a = false then some .authority
  else if e.targetSerial = 0 ∨ e.targetSerial ≠ s.serial then some .format
  else if s.tim.valid = true ∧ (s.sec2020 < e.notBefore.toNat ∨ e.notAfter.toNat < s.sec2020) then some .expired
  else if s.nonceHeld e.nonce = true then some .replay
  else if 4096 ≤ s.sec.nonces.length then some .busy
  else none

/-- A signed kind needs an envelope that passes; another kind needs none.  An update delivery without one is a later block or a probe,
which the opening job covers (R485). -/
def State.signedReason (s : State) (j : Job) : Option Reason :=
  match jobAuthority j.body.code with
  | none => none
  | some a => match j.hdr.envelope with
    | none => if j.body.code = 0x24 then none else some .format
    | some e => s.envelopeReason j e a

/-- An accepted signed job's nonce enters the cache; entered while TIME_VALID is 0 it stays for 604 800 s of operating time. -/
def State.enterNonce (s : State) (j : Job) : State :=
  match jobAuthority j.body.code, j.hdr.envelope with
  | some _, some e =>
    let until_ := if s.tim.valid = true then none else some (s.way.opTime + 604800)
    { s with sec := { s.sec with nonces := s.sec.nonces ++ [(e.nonce, e.notAfter.toNat, until_)] } }
  | _, _ => s

/-! ## Acceptance -/

/-- Accept a job: its task is posted, its nonce entered, and it stays open until its final report.  A full descriptor table rejects it
as busy (R325); in RECOVERY no dispatcher runs. -/
def State.onAccept (s : State) (j : Job) (f : State → State) : State :=
  let posted := if s.pwr.mode = .recovery then (s, true) else s.post (s.jobTask j.body.code)
  if posted.2 = true then
    let s1 := (posted.1.enterNonce j).openJob j.hdr.ref j.body.code
    f (match j.hdr.source with
      | .cq _ => s1.checkMet 0
      | .eth _ _ => s1.checkMet 0
      | _ => s1)
  else posted.1.rejectJob j.hdr.ref .busy

/-- Reject a job for a missing right (R452). -/
def State.rejectAccess (s : State) (j : Job) (page kind : Nat) : State :=
  (s.refuseAccess (sourceMaster j.hdr.source) kind page (windowBase + 4096 * page)).rejectJob j.hdr.ref .access

/-- The checks that every job meets after its descriptor: mode, right, envelope.  The handler runs where all pass. -/
def State.acceptAndRun (s : State) (j : Job) (run : State → State) : State :=
  if jobListed j.body.code = false then s.rejectJob j.hdr.ref .unknown
  else if acceptedIn j.body.code s.pwr.mode s.boot.reduced = false then s.rejectJob j.hdr.ref .mode
  else match s.lackedRight (sourceMaster j.hdr.source) j.body with
    | some r => s.rejectAccess j r.1 r.2
    | none => match s.signedReason j with
      | some r => s.rejectJob j.hdr.ref r
      | none => run s

end Sys2Proof.Machine
end

