-- ==== Sys2Proof/Machine/ConfigCheck.lean ====
section
/-!
DEFINITION. What makes a configuration image valid: structure, items, ranges and the constraints between settings (R41 to R46, R50,
and the section rules of every file).
-/

namespace Sys2Proof.Machine

/-! ## Bytes of a value -/

/-- Bytes from offset `o` on are zero. -/
def zeroFrom (v : List Byte) (o : Nat) : Bool := (v.drop o).all fun b => b = 0

/-- A number that is zero or at least a bound. -/
def zeroOr (lo x : Nat) : Bool := decide (x = 0 ∨ lo ≤ x)

/-! ## Ranges of structured items (R44) -/

/-- Type tags that a target of Table 4.8 accepts. -/
def tagAccepted (target tag : Nat) : Bool :=
  if target = 0 then decide (tag = 0x06 ∨ tag = 0x12 ∨ tag = 0x09 ∨ tag = 0x15 ∨ tag = 0x11)
  else if target = 1 ∨ target = 7 ∨ target = 8 then decide (tag = 0x06 ∨ tag = 0x12)
  else if target = 2 then decide (tag = 0x09)
  else if 3 ≤ target ∧ target ≤ 6 then decide (tag = 0x06 ∨ tag = 0x12 ∨ tag = 0x15)
  else if target = 9 then decide (tag = 0x11 ∨ tag = 0x12)
  else decide (target = 10 ∧ tag = 0x15)

/-- A TEMPLATE item (R142). -/
def templateOk (v : List Byte) : Bool :=
  let n := fieldAt v 1 1
  let targets := (List.range n).map fun e => fieldAt v (5 + 2 * e) 1
  decide (fieldAt v 0 1 = 1 ∨ fieldAt v 0 1 = 2) && decide (n ≤ 16) &&
    ((List.range n).all fun e => tagAccepted (fieldAt v (5 + 2 * e) 1) (fieldAt v (4 + 2 * e) 1)) &&
    decide ((targets.filter fun x => x ≠ 0).Nodup) && zeroFrom v (4 + 2 * n) && decide (n = 0 ∨ 1 ∈ targets)

/-- A meter-group item (Table 4.17). -/
def meterGroupOk (v : List Byte) : Bool :=
  decide (fieldAt v 0 1 ≤ 1 ∧ fieldAt v 1 1 ≤ 2 ∧ fieldAt v 3 1 ≤ 64) &&
    decide (-1 ≤ signedAt v 4 1 ∧ signedAt v 4 1 ≤ 3 ∧ -1 ≤ signedAt v 5 1 ∧ signedAt v 5 1 ≤ 0 ∧ -2 ≤ signedAt v 6 1 ∧ signedAt v 6 1 ≤ 0)

/-- A rating profile (Table 5.10). -/
def ratingOk (v : List Byte) : Bool :=
  let roll := fieldAt v 5 1
  decide (fieldAt v 0 2 ≤ 6000 ∧ fieldAt v 2 2 ≤ 20000 ∧ (fieldAt v 4 1 = 1 ∨ fieldAt v 4 1 = 3) ∧ (roll = 0 ∨ (6 ≤ roll ∧ roll ≤ 12)))

/-- The scroll sequence (R199, Table 6.11). -/
def displayOk (v : List Byte) : Bool :=
  let n := fieldAt v 0 1
  decide (n ≤ 32) && (List.range n).all fun e =>
    decide (1 ≤ fieldAt v (4 + 4 * e) 1 ∧ fieldAt v (4 + 4 * e) 1 ≤ 7 ∧ fieldAt v (6 + 4 * e) 1 ≤ 60)

/-- MET_CAL (Table 6.12). -/
def metCalOk (v : List Byte) : Bool :=
  ((List.range 7).all fun k => decide (0x30000000 ≤ fieldAt v (4 * k) 4 ∧ fieldAt v (4 * k) 4 ≤ 0x50000000)) &&
    (List.range 3).all fun k => decide (-5000 ≤ signedAt v (28 + 2 * k) 2 ∧ signedAt v (28 + 2 * k) 2 ≤ 5000)

/-- A balance group (Table 7.1): FEED 1 belongs to group 0 alone. -/
def balanceGroupOk (g : Nat) (v : List Byte) : Bool :=
  let feed := fieldAt v 0 1
  decide (feed ≤ 3 ∧ fieldAt v 1 1 ≤ 1 ∧ (feed = 1 → g = 0) ∧ (feed < 2 → fieldAt v 4 4 = 0))

/-- Least channel spacing of a radio mode (Table 9.1). -/
def leastSpacing (mode : Nat) : Nat := if mode = 0 then 200 else if mode = 4 then 600 else 400

/-- A radio's channels (Table 9.8, R303). -/
def channelsOk (v : List Byte) : Bool :=
  let mode := fieldAt v 10 1
  decide (mode ≤ 4 ∧ leastSpacing mode ≤ fieldAt v 4 2 ∧ fieldAt v 6 2 ≠ fieldAt v 8 2)

/-- A schedule (Table 10.9). -/
def scheduleOk (v : List Byte) : Bool :=
  let kind := fieldAt v 2 1 % 16
  decide ((kind = 1 ∨ kind = 2) ∧ fieldAt v 4 2 ≤ 2880 ∧ fieldAt v 6 2 ≤ 3600 ∧ fieldAt v 8 2 ≤ 3600)

/-- A port's gate control list (R418). -/
def gclOk (v : List Byte) : Bool :=
  let n := fieldAt v 16 1
  let cycle := fieldAt v 12 4
  let sum := (List.range n).foldl (fun a e => a + fieldAt v (24 + 8 * e) 4) 0
  decide (n = 0 ∨ (n ≤ 64 ∧ fieldAt v 8 4 ≤ 999999999 ∧ 1000 ≤ cycle ∧ cycle ≤ 1000000000 ∧ sum ≤ cycle))

/-- A KEY item by itself (R437, Table 14.11). -/
def keyItemOk (v : List Byte) : Bool :=
  let kind := fieldAt v 0 1
  let usage := BitVec.ofNat 8 (fieldAt v 1 1)
  let origin := fieldAt v 3 1
  decide (kind = 1 ∨ kind = 2 ∨ kind = 4) && decide (usage.toNat % 64 < 8) && decide (1 ≤ fieldAt v 4 4) &&
    (!usage.getLsbD 0 || decide (kind = 2 ∨ kind = 4)) && (!usage.getLsbD 1 || decide (kind = 1 ∨ kind = 2)) &&
    (!usage.getLsbD 2 || decide (kind = 1)) && decide (origin = 1 ∨ origin = 2) && decide (origin = 2 → fieldAt v 2 1 = 4) &&
    (decide (origin = 2) || (((v.drop 24).take 133).all fun b => b = 0) && zeroFrom v 160)

/-- A target of Table 14.8. -/
def targetDefined (t : Nat) : Bool :=
  (decide (t < 480) && pageListed (4096 * t)) ||
    decide ((512 ≤ t ∧ t < 516) ∨ (528 ≤ t ∧ t < 544) ∨ (560 ≤ t ∧ t < 570) ∨ (768 ≤ t ∧ t < 1024))

/-- An ACCESS item grants nothing beyond Table 14.9a (R449). -/
def accessOk (v : List Byte) : Bool :=
  let t := fieldAt v 0 2
  let r := fieldAt v 4 2
  let w := fieldAt v 6 2
  targetDefined t &&
    (if t = 514 ∨ t = 532 ∨ t = 0x61 then decide (w = 0 ∨ w = 32)
     else if t = 0xC3 then decide ((r = 0 ∨ r = 16) ∧ (w = 0 ∨ w = 16))
     else if t = 512 ∨ t = 560 ∨ t = 561 ∨ t = 562 ∨ t = 565 ∨ t = 566 ∨ t = 567 then decide (w = 0)
     else if 768 ≤ t ∧ t < 776 then decide (r = 0 ∧ w = 0)
     else true)

/-- The range of an item's value (R44), of a section type and identifier. -/
def valueOk (d : ItemDef) (id : Nat) (v : List Byte) : Bool :=
  if d.number = true then
    let x : Int := if d.lo < 0 then signedAt v 0 4 else (fieldAt v 0 4 : Int)
    let n := fieldAt v 0 4
    decide (d.lo ≤ x ∧ x ≤ d.hi) &&
      (let k := itemKey d.typ id
       if k = iMainsNominal then decide (n = 0 ∨ n = 50 ∨ n = 60)
       else if k = iSysClockCap ∨ k = iThrottleSysMhz then decide (n % 100 = 0)
       else if k = iIntervalMin then decide (n = 5 ∨ n = 10 ∨ n = 15 ∨ n = 30 ∨ n = 60)
       else if k = iPulse0Period ∨ k = iPulse1Period then zeroOr 1000 n
       else if k = iPulse0Width ∨ k = iPulse1Width then zeroOr 100 n
       else if k = iMetCtSecondary then decide (n = 1 ∨ n = 5)
       else if k = iBeaconPeriod ∨ k = iRfBeaconPeriod then zeroOr 250 n
       else if k = iModMask then decide (n % 2 = 1)
       else if k = iPartner then decide (n ≤ 63 ∨ n = 255)
       else if k = iCqEntries then decide (n ∈ (List.range 11).map fun e => 2 ^ (6 + e))
       else if k = iPowerCapMw then zeroOr 2000 n
       else true)
  else
    let k := itemKey d.typ id
    if k = iPulse0Start ∨ k = iPulse1Start then decide (fieldAt v 8 4 ≤ 999999999)
    else if d.typ = 3 ∧ d.id = 0x100 then meterGroupOk v
    else if d.typ = 3 ∧ d.id = 0x200 then templateOk v
    else if d.typ = 3 ∧ d.id = 0x300 then decide (fieldAt v 0 4 ≠ 0)
    else if d.typ = 4 ∧ d.id = 0x100 then ratingOk v
    else if k = iDisplay then displayOk v
    else if k = iMetCal then metCalOk v
    else if d.typ = 6 ∧ d.id = 0x100 then balanceGroupOk (id - 0x100) v
    else if k = iWeights then (List.range 6).all fun w => decide (fieldAt v (2 * w) 2 ≤ 1000)
    else if k = iLqThresholds then decide (fieldAt v 1 1 < fieldAt v 0 1 ∧ fieldAt v 2 1 < fieldAt v 1 1)
    else if k = iPlcCsma then
      decide (1 ≤ fieldAt v 0 1 ∧ fieldAt v 0 1 ≤ 8 ∧ fieldAt v 0 1 ≤ fieldAt v 1 1 ∧ fieldAt v 1 1 ≤ 10 ∧ 500 ≤ fieldAt v 2 2 ∧ fieldAt v 2 2 ≤ 5000)
    else if k = iRf0Channels ∨ k = iRf1Channels then channelsOk v
    else if k = iRfCsma then decide (fieldAt v 0 1 ≤ fieldAt v 1 1 ∧ fieldAt v 1 1 ≤ 8 ∧ fieldAt v 2 1 ≤ 5)
    else if k = iPaTiming then decide (fieldAt v 0 2 ≤ 100 ∧ fieldAt v 2 2 ≤ 100)
    else if d.typ = 10 ∧ d.id = 0x100 then scheduleOk v
    else if d.typ = 10 ∧ d.id = 0x8101 then
      decide (fieldAt v 0 1 ≤ 63 ∧ fieldAt v 1 1 ≤ 3 ∧ (id ≤ 0x8105 → fieldAt v 1 1 = 0))
    else if k = iRqMap then
      (List.range 9).all fun t => (let q := fieldAt v 0 8 / 16 ^ (t + 2) % 16; decide (q < 4 ∨ q = 15))
    else if k = iCoal then decide (fieldAt v 0 4 ≤ 1024 ∧ fieldAt v 4 4 ≤ 100000)
    else if k = iGclEth0 ∨ k = iGclEth1 then gclOk v
    else if k = iTxTcEth0 ∨ k = iTxTcEth1 then (List.range 4).all fun c => decide (fieldAt v c 1 ≤ 7)
    else if d.typ = 14 ∧ d.id = 0x100 then decide (fieldAt v 6 1 ≤ 2 ∧ fieldAt v 8 4 ≠ 0)
    else if k = iRevoked then
      decide (fieldAt v 0 4 ≤ 64) && (List.range (fieldAt v 0 4)).all fun e => decide (fieldAt v (4 + 8 * e) 1 ≤ 3)
    else if k = iDestroy then (List.range 16).all fun e => decide (fieldAt v (8 * e) 1 = 0 ∨ 8 ≤ fieldAt v (8 * e) 1)
    else if k = iCertFloor then (List.range 4).all fun a => decide (fieldAt v a 1 ≤ 63)
    else if d.typ = 16 ∧ d.id = 0x108 then keyItemOk v
    else if d.typ = 16 ∧ d.id = 0x200 then accessOk v
    else true

/-! ## Structure (R41 to R43) -/

/-- Expert form allowed (Table 2.6). -/
def expertAllowed (typ : Nat) : Bool := decide (typ ∉ [3, 7, 15, 16, 18, 19])

/-- A section-table entry (Tables 2.5 and 2.6). -/
def sectionEntryOk (x : Section) : Bool :=
  decide (1 ≤ x.typ ∧ x.typ ≤ 19 ∧ x.layout = 1 ∧ x.length % 4 = 0) && (!x.expert || expertAllowed x.typ)

/-- The 16-bit value of bytes 0–1 of an entry. -/
def sectionKey (x : Section) : Nat := x.typ + (if x.expert = true then 0x8000 else 0)

/-- The sections stand where R42 puts them; the answer is the end of the last. -/
def placed : Nat → List Section → Option Nat
  | pos, [] => some pos
  | pos, x :: rest => if x.offset = align8 pos then placed (x.offset + x.length) rest else none

/-- R41 and R42 on a format 3 image. -/
def imageStructured (c : ConfigImage) : Bool :=
  decide (c.headerSize = 128 ∧ 708 ≤ c.totalLength ∧ c.totalLength ≤ 1048576 ∧ c.serial ≠ 0 ∧ c.serial < 2 ^ 32 ∧
    c.rollbackFloor ≤ c.serial ∧ c.role ≤ 1 ∧ c.sectionCount ≤ 64 ∧ c.sectionTable = 128 ∧ c.totalLength ≤ c.bytes.length) &&
    c.sections.all sectionEntryOk && decide ((c.sections.map sectionKey).Pairwise (fun a b => a < b)) &&
    (match placed (128 + 16 * c.sectionCount) c.sections with
     | none => false
     | some e => decide (c.certOffset = align8 e)) &&
    decide (c.sigOffset = c.certOffset + 448 ∧ c.totalLength = c.sigOffset + 132) && c.padZero

/-- An item of a section (R43, R44): LEN zero is a no-op of a defined identifier. -/
def itemOk (x : Section) (i : Item) : Bool :=
  match itemDef x.typ i.id with
  | none => false
  | some d =>
    decide (1 ≤ i.id) && (x.expert || decide (i.id < 0x8000)) && decide (i.len = 0 ∨ i.len = d.len) && i.padZero &&
      decide (i.value.length = i.len) && (decide (i.len = 0) || valueOk d i.id i.value)

/-- A section that is applied: its items end exactly at LENGTH, each identifier once, each item valid. -/
def sectionItemsOk (x : Section) : Bool :=
  decide (x.items.foldl (fun a (i : Item) => a + 4 + (i.len + 3) / 4 * 4) 0 = x.length) &&
    decide ((x.items.map Item.id).Nodup) && x.items.all (itemOk x)

/-! ## Settings of an image (R45, R46) -/

/-- The sections that are applied: all of them, or the basic ones where the signer lacks EXPERT. -/
def imageApplied (c : ConfigImage) : List Section := c.sections.filter fun x => !x.expert || certCarries c.cert .expert

/-- Set the items of one section; LEN zero sets nothing. -/
def putSection (t : Table (List Byte)) (x : Section) : Table (List Byte) :=
  x.items.foldl (fun u (i : Item) => if i.len = 0 then u else Table.set [] u (itemKey x.typ i.id) i.value) t

/-- The settings that the applied sections give: basic sections first, then expert ones. -/
def imageSettings (c : ConfigImage) : Table (List Byte) :=
  (((imageApplied c).filter fun x => !x.expert) ++ (imageApplied c).filter fun x => x.expert).foldl putSection []

/-- A state whose settings are those of an image, in its role. -/
def State.withImage (s : State) (c : ConfigImage) : State :=
  { s with cfg := imageSettings c, boot := { s.boot with headEnd := decide (c.role = 1) } }

/-! ## Constraints between settings -/

/-- An item is present in the applied image, with a value. -/
def State.given (s : State) (key : Nat) : Bool := Table.get [] s.cfg key ≠ []

/-- The pulse width lies below the period (Table 3.4). -/
def pulseOk (period width : Nat) : Bool :=
  decide (width = 0 ∨ (if period = 0 then width ≤ 1000000000 else width + 100 ≤ period))

/-- Senders given, by item. -/
def State.sendersGiven (s : State) : List Nat := (List.range 256).filter fun i => s.given (iSender i)

/-- Peers given, by item. -/
def State.peersGiven (s : State) : List Nat := (List.range 32).filter fun i => s.given (iPeer i)

/-- KEY_s is given with CMAC (R437). -/
def State.cmacGiven (s : State) (slot : Nat) : Bool :=
  decide (8 ≤ slot ∧ slot < 256) && s.given (iKey (slot - 8)) && (BitVec.ofNat 8 (s.itemField (iKey (slot - 8)) 1 1)).getLsbD 2

/-- A KEY item's parent (R437): a derived slot's is a lower-numbered owner slot with DERIVE. -/
def State.keyParentOk (s : State) (slot : Nat) : Bool :=
  let v := s.itemBytes (iKey (slot - 8))
  let p := fieldAt v 2 1
  decide (fieldAt v 3 1 = 2) ||
    (decide (8 ≤ p ∧ p < slot) && s.given (iKey (p - 8)) && (BitVec.ofNat 8 (s.itemField (iKey (p - 8)) 1 1)).getLsbD 0)

/-- The fuse items given (R428): identifier 0x10 to 0x16. -/
def State.fuseItems (s : State) : List Nat := ([0x10, 0x11, 0x12, 0x13, 0x14, 0x15, 0x16] : List Nat).filter fun i => s.given (itemKey 16 i)

/-- R428: fuse items need EXPERT, and the revocations leave an anchor and spare the image's own. -/
def State.fusesOk (s : State) (c : Cert) : Bool :=
  let add := BitVec.ofNat 4 (s.item iAnchorRevoke)
  let rev := s.sec.fuses.revoke ||| add
  (decide (s.fuseItems = []) || certCarries c .expert) &&
    (!s.given iAnchorRevoke || (!add.getLsbD c.anchor.val &&
      (List.range 4).any fun a =>
        (decide (s.sec.fuses.anchors.getD a 0 ≠ 0) || s.given (iAnchorAdd a)) && !rev.getLsbD a))

/-- TARGETs of the ACCESS items given. -/
def State.accessTargets (s : State) : List Nat :=
  (s.cfg.filter fun e => decide (itemKey 16 0x200 ≤ e.1 ∧ e.1 < itemKey 16 0x600)).map fun e => fieldAt e.2 0 2

/-- Constraints between the settings in force of an image with a certificate. -/
def State.settingsOk (s : State) (c : Cert) : Bool :=
  let i := s.item
  let senders := s.sendersGiven
  let peers := s.peersGiven
  let keys := (List.range 248).filter fun k => s.given (iKey k)
  let mac (k : Nat) := (s.itemField (iPeer k) 0 6, s.itemField (iPeer k) 6 1)
  pulseOk (i iPulse0Period) (i iPulse0Width) && pulseOk (i iPulse1Period) (i iPulse1Width) &&
    decide ((senders.map fun k => s.itemField (iSender k) 0 4).Nodup) &&
    senders.all (fun k => s.cmacGiven (s.itemField (iSender k) 4 1)) &&
    ((List.range 256).all fun g => !s.ctx.any fun e => decide (s.itemField (iBalGroup g) 0 1 = 2 ∧ e.2.state ≠ .empty ∧
      e.2.gmn.toNat = s.itemField (iBalGroup g) 4 4 % 2 ^ 20 ∧ e.2.bal.group = g) && e.2.bal.member) &&
    decide (i iBalSettle ≤ 180 * i iIntervalMin) && decide (i iGuardStart ≤ i iGuardMax) &&
    decide (2 * i iGuardMax + 18200 ≤ 1000 * i iSlotLen) && decide (i iGcLow + 5 ≤ i iGcHigh) &&
    (!s.boot.headEnd || (decide (i iTorusW * i iTorusH % 2 = 0 ∧ 4 * i iHeartbeatMs ≤ i iPartnerTimeout) &&
      (!s.given iFabricKeySlot || s.cmacGiven (i iFabricKeySlot)))) &&
    decide ((peers.map mac).Nodup) && decide ((peers.map fun k => s.itemField (iPeer k) 8 4).Nodup) &&
    decide ((peers.filter fun k => (s.peer k).roles.getLsbD 2).length ≤ 1) &&
    peers.all (fun k => s.cmacGiven (s.itemField (iPeer k) 12 1)) && keys.all (fun k => s.keyParentOk (k + 8)) &&
    s.fusesOk c && decide (s.accessTargets.Nodup) &&
    decide (i iThrottleC < i iB2C ∧ i iB2C < i iShutdownC ∧ i iShutdownC ≤ (if s.sec.fuses.grade = 1 then 105 else 125) ∧
      i iThermalWakeC < i iThrottleC) &&
    decide (i iHealthSoak < i iConfirmDeadline)

/-! ## The verdict on an image (R48 to R53) -/

/-- Header checks that come before migration. -/
def imageReadable (c : ConfigImage) : Bool :=
  decide (c.magic = 0x49435856 ∧ 1 ≤ c.format ∧ c.format ≤ 3 ∧ c.headerSize = if c.format = 1 then 96 else 128)

/-- The certificate is accepted by the fuses alone, carries CONFIG, and the signature verifies over the original bytes. -/
def State.imageSigned (s : State) (c : ConfigImage) : Bool :=
  s.sec.fuses.accepts c.cert && certCarries c.cert .config && c.sigOk

/-- The checks of R42 to R50 on a format 3 image against an application version. -/
def State.imageValid (s : State) (c : ConfigImage) (app : Nat) : Bool :=
  imageStructured c && decide (c.deviceType = 0x7480) && decide (c.appMin = 0 ∨ c.appMin ≤ app) && decide (c.appMax = 0 ∨ app ≤ c.appMax) &&
    decide (s.nor.cfgFloor ≤ c.serial) && (imageApplied c).all sectionItemsOk && (s.withImage c).settingsOk c.cert

/-- The journal knows the image under another migrated copy (R53). -/
def Nor.journalMismatch (n : Nor) (c : ConfigImage) : Bool :=
  n.journal.any fun j => decide (j.original = c.digest ∧ j.migrated ≠ c.migratedDigest)

/-- A migration fails (R53): no format 3 image comes out, or the journal knows another copy of the image.  Any other check of R42 to R50
that the copy fails is a failed check (Table 2.2; DEDUCED, notes/assumptions/125.md). -/
def State.migrationFails (s : State) (c : ConfigImage) : Bool :=
  decide (c.format ≠ 3) && (!imageStructured c.migrated || s.nor.journalMismatch c)

/-- The verdict on an image that a given application version would read: it may be applied. -/
def State.imageGood (s : State) (c : ConfigImage) (app : Nat) : Bool :=
  imageReadable c && s.imageSigned c && !s.migrationFails c && s.imageValid c.migrated app

end Sys2Proof.Machine
end

