-- ==== Sys2Proof/Machine/LinkBytes.lean ====
section
/-!
DEFINITION. The frames of the two link layers as bytes: the power-line header and ACK (spec 08 Tables 8.4 to 8.6), the MAC and mesh headers
(spec 09 Tables 9.2, 9.3, 9.5), and the bodies of Tables 8.5, 8.8, 9.4 and 9.6.
-/

namespace Sys2Proof.Machine

/-- A bit of a byte of a frame. -/
def bitAt (bs : List Byte) (o n : Nat) : Bool := (bs.getD o 0).getLsbD n

/-- A flag as a number in its place. -/
def bitOf (c : Bool) (n : Nat) : Nat := if c = true then 2 ^ n else 0

/-- TAG, where TAG_PRESENT. -/
def tagAtByte (bs : List Byte) (present : Bool) : Option (BitVec 16) :=
  if present = true then some (BitVec.ofNat 16 (fieldAt bs 10 2)) else none

/-! ## The power line (R250 to R253) -/

/-- The link FCS of a power-line frame verifies: the CRC-16 of a 12-byte ACK, the CRC-32 of any other frame (R252, R253). -/
def plcFcsOk (bs : List Byte) : Bool :=
  if fieldAt bs 0 1 % 16 = 1 then decide (bs.length = 12) && decide (fieldAt bs 10 2 = (crc16 (bs.take 10)).toNat)
  else decide (4 ≤ bs.length) && decide (fieldAt bs (bs.length - 4) 4 = (crc32 (bs.take (bs.length - 4))).toNat)

/-- A body is long enough for its TYPE (Table 8.5). -/
def plcBodyOk (typ : Nat) (body : List Byte) : Bool :=
  if typ = 4 ∨ typ = 5 then decide (4 ≤ body.length) else if typ = 6 ∨ typ = 7 then decide (12 ≤ body.length) else true

/-- A frame other than an ACK, read by Table 8.4; `none` where it is shorter than its header, or its body than its TYPE has it (DESIGN
CHOICE: the spec does not say what becomes of such a frame, notes/assumptions/148.md). -/
def plcParse (bs : List Byte) : Option PlcFrame :=
  let n := bs.length - 4
  let tagged := bitAt bs 0 5
  let hops := fieldAt bs 1 1 % 8
  let at0 := if tagged = true then 12 else 10
  let h := at0 + 2 * hops
  let typ := fieldAt bs 0 1 % 16
  let body := (bs.take n).drop h
  if n < h ∨ plcBodyOk typ body = false then none
  else some
    { typ := typ, ackReq := bitAt bs 0 4, tag := tagAtByte bs tagged, up := bitAt bs 0 6, hopIndex := fieldAt bs 1 1 / 8 % 8,
      epoch := fieldAt bs 2 1 % 16, netId := fieldAt bs 2 1 / 16, zcDelay := fieldAt bs 3 1, src := fieldAt bs 4 2, dst := fieldAt bs 6 2,
      seq := BitVec.ofNat 16 (fieldAt bs 8 2),
      route := (List.range hops).map fun k => let e := fieldAt bs (at0 + 2 * k) 2; (e % 16384, e / 16384),
      header := bs.take h, body := body, fcs := bs.drop n }

/-- The header of a frame (Table 8.4), its reserved bits zero. -/
def plcHeader (typ : Nat) (ackReq : Bool) (tag : Option (BitVec 16)) (up : Bool) (hopIndex epoch netId zcDelay src dst : Nat) (seq : BitVec 16)
    (route : List (Nat × Nat)) : List Byte :=
  leBytes 1 (typ + bitOf ackReq 4 + bitOf tag.isSome 5 + bitOf up 6) ++ leBytes 1 (route.length + 8 * hopIndex) ++
    leBytes 1 (epoch + 16 * netId) ++ leBytes 1 zcDelay ++ leBytes 2 src ++ leBytes 2 dst ++ leBytes 2 seq.toNat ++
    (match tag with
      | some t => leBytes 2 t.toNat
      | none => []) ++
    route.flatMap fun r => leBytes 2 (r.1 + 16384 * r.2)

/-- A frame with its CRC-32. -/
def withCrc32 (bs : List Byte) : List Byte := bs ++ leBytes 4 (crc32 bs).toNat

/-- The 12 bytes of an ACK (Table 8.6). -/
def plcAckBytes (pending : Bool) (epoch netId dest : Nat) (seq : BitVec 16) (advMod : Nat) (advTm : BitVec 24) : List Byte :=
  let b := leBytes 1 (1 + bitOf pending 5) ++ leBytes 1 (epoch + 16 * netId) ++ leBytes 2 dest ++ leBytes 2 seq.toNat ++ leBytes 1 advMod ++
    leBytes 3 advTm.toNat
  b ++ leBytes 2 (crc16 b).toNat

/-- The 20 bytes of a freeze payload (Table 7.2). -/
def freezeBytes (p : FreezePayload) : List Byte :=
  leBytes 1 0xC5 ++ leBytes 1 1 ++ leBytes 2 p.snapId ++ leBytes 6 p.refCycle ++ leBytes 2 p.delta ++ leBytes 2 p.spread ++ leBytes 6 0

/-- A beacon body (Table 8.8). -/
def beaconBody (cycle time offset : Nat) (synth : Bool) (interval next : Nat) (command : Option FreezePayload) : List Byte :=
  let cmd := match command with
    | some p => freezeBytes p
    | none => []
  leBytes 6 cycle ++ leBytes 4 time ++ leBytes 2 offset ++ leBytes 1 (bitOf synth 0) ++ leBytes 1 interval ++ leBytes 2 next ++
    leBytes 2 cmd.length ++ cmd

/-- A body of an ASSIGN (Table 8.5). -/
def assignBody (slot netId : Nat) (relay : Bool) (title : BitVec 64) : List Byte :=
  leBytes 2 slot ++ leBytes 1 netId ++ leBytes 1 (bitOf relay 0) ++ leBytes 8 title.toNat

/-! ## The mesh (R274, R280) -/

/-- The frame control field of a frame of version 0b10 with short addresses and PAN ID compression (Table 9.2; its bit places are IEEE
802.15.4's, PRESUMED, notes/assumptions/152.md). -/
def macControl (typ : Nat) (pending ar : Bool) : Nat := typ + bitOf pending 4 + bitOf ar 5 + 0xA840

/-- A frame is of a kind that Table 9.2 allows: data (1) or Enh-Ack (2), with the fields that the table fixes. -/
def macKindOk (bs : List Byte) (typ : Nat) : Bool :=
  decide (9 ≤ bs.length - 4 ∧ fieldAt bs 0 2 % 8 = typ) && decide (fieldAt bs 0 2 / 64 % 2 = 1 ∧ fieldAt bs 0 2 / 256 = 0xA8) && !bitAt bs 0 3

/-- The MAC header: 9 bytes. -/
def macHeader (typ : Nat) (pending ar : Bool) (dsn pan dst src : Nat) : List Byte :=
  leBytes 2 (macControl typ pending ar) ++ leBytes 1 dsn ++ leBytes 2 pan ++ leBytes 2 dst ++ leBytes 2 src

/-- The FCS of a PSDU verifies (R274). -/
def meshFcsOk (bs : List Byte) : Bool :=
  decide (5 ≤ bs.length ∧ bs.length ≤ 2047) && decide (fieldAt bs (bs.length - 4) 4 = (crc32 (bs.take (bs.length - 4))).toNat)

/-- TIMING (Table 9.5) at an offset. -/
def timingAt (bs : List Byte) (o : Nat) : MeshTiming := ⟨fieldAt bs o 3, bitAt bs (o + 3) 0, bitAt bs (o + 3) 1⟩

/-- A data frame that passed the hardware filter, read by Tables 9.2 and 9.3; `none` where it is shorter than its header, or its body than
its TYPE has it (notes/assumptions/148.md, DESIGN CHOICE). -/
def meshParse (bs : List Byte) : Option MeshFrame :=
  let n := bs.length - 4
  let p := bs.drop 9
  let tagged := bitAt p 0 5
  let timed := bitAt p 0 7
  let at0 := if tagged = true then 12 else 10
  let h := 9 + at0 + (if timed = true then 4 else 0)
  let typ := fieldAt p 0 1 % 16
  let body := (bs.take n).drop h
  if n < h ∨ plcBodyOk typ body = false then none
  else some
    { pan := fieldAt bs 3 2, macDst := fieldAt bs 5 2, macSrc := fieldAt bs 7 2, dsn := fieldAt bs 2 1, ar := bitAt bs 0 5,
      typ := typ, ackReq := bitAt p 0 4, up := bitAt p 0 6, tag := tagAtByte p tagged,
      timing := if timed = true then some (timingAt p at0) else none,
      ttl := fieldAt p 1 1 % 16, ttlStart := fieldAt p 1 1 / 16, epoch := fieldAt p 2 1 % 16, netId := fieldAt p 2 1 / 16,
      dist := fieldAt p 3 1 % 16, src := fieldAt p 4 2, dst := fieldAt p 6 2, seq := BitVec.ofNat 16 (fieldAt p 8 2),
      header := bs.take h, body := body, fcs := bs.drop n }

/-- The mesh header of a frame of the concentrator (Table 9.3): DIST 0, no TIMING. -/
def meshHeader (typ : Nat) (tag : Option (BitVec 16)) (ttl epoch netId dst : Nat) (seq : BitVec 16) : List Byte :=
  leBytes 1 (typ + bitOf tag.isSome 5) ++ leBytes 1 (ttl + 16 * ttl) ++ leBytes 1 (epoch + 16 * netId) ++ leBytes 1 0 ++ leBytes 2 0xFFFE ++
    leBytes 2 dst ++ leBytes 2 seq.toNat ++
    (match tag with
      | some t => leBytes 2 t.toNat
      | none => [])

/-- A SLOT_SET body (Table 9.6): PERIOD in ticks of 1/32 768 s. -/
def slotSetBody (slot : Nat) (enable : Bool) (nextWake period lpl : Nat) : List Byte :=
  leBytes 2 (slot + bitOf enable 15) ++ leBytes 3 nextWake ++ leBytes 1 0 ++ leBytes 4 period ++ leBytes 2 lpl

/-- A MESH_ACK body (Table 9.4). -/
def meshAckBody (seq : BitVec 16) (epoch : Nat) (pending : Bool) : List Byte :=
  leBytes 2 seq.toNat ++ leBytes 1 epoch ++ leBytes 1 (bitOf pending 0)

end Sys2Proof.Machine
end

