-- ==== Sys2Proof/Machine/SlotBytes.lean ====
section
/-!
DEFINITION. The legal slot (Table 6.1) and the closed-period record (Table 6.5) as bytes, their CRCs, and the slot that bytes spell.
-/

namespace Sys2Proof.Machine

/-- A signed 64-bit value as it stands in a field. -/
def twos64 (x : Int) : Nat := (x % 2 ^ 64).toNat

/-- The slot's flags as bytes 652 and 653 hold them (Table 6.1). -/
def slotFlags (v : LegalSlot) : Nat :=
  flagBit v.frozen 0 + 2 * v.supply + flagBit v.supplyConfirmed 3 + flagBit v.creditLow 4 + flagBit v.creditExhausted 5 + flagBit v.deferred 6 +
    flagBit v.estInPeriod 7 + flagBit v.lateInPeriod 8 + flagBit v.byCredit 9

/-- `n` numbers of a list, each in `k` bytes. -/
def rowBytes (k n : Nat) (l : List Nat) : List Byte := (List.range n).flatMap fun i => leBytes k (l.getD i 0)

/-- DEMAND as bytes: the maximum, then its span end. -/
def demandBytes (l : List (Nat × Nat)) : List Byte :=
  (List.range 4).flatMap fun d => leBytes 4 (l.getD d (0, 0)).1 ++ leBytes 4 (l.getD d (0, 0)).2

/-- The register set: bytes 0 to 1019 of a legal slot (R170). -/
def registerSet (v : LegalSlot) : List Byte :=
  rowBytes 8 64 v.rate ++ rowBytes 8 4 v.total ++ demandBytes v.demand ++ rowBytes 8 4 v.periodEnergy ++ leBytes 8 (twos64 v.credit) ++
  leBytes 4 v.residue ++ leBytes 4 v.periodIndex ++ leBytes 4 v.lastClose ++ leBytes 4 v.billTref ++ rowBytes 5 4 v.estApplied ++
  leBytes 2 (slotFlags v) ++ leBytes 2 0 ++ leBytes 4 v.tariffId ++ leBytes 4 v.lastSeq.toNat ++ leBytes 4 v.commits.toNat ++
  leBytes 4 v.freezeSeq.toNat ++ leBytes 1 v.freezeCause ++ List.replicate 347 0

/-- The 1 024 bytes of a slot, SLOT_CRC last (R170). -/
def slotBytes (v : LegalSlot) : List Byte := registerSet v ++ leBytes 4 (crc32c (registerSet v)).toNat

/-- `n` numbers of `k` bytes each, from an offset. -/
def rowAt (bs : List Byte) (o k n : Nat) : List Nat := (List.range n).map fun i => fieldAt bs (o + k * i) k

/-- The slot that 1 024 bytes spell. -/
def slotOfBytes (bs : List Byte) : LegalSlot :=
  let f := BitVec.ofNat 16 (fieldAt bs 652 2)
  { rate := rowAt bs 0 8 64
    total := rowAt bs 512 8 4
    demand := (List.range 4).map fun d => (fieldAt bs (544 + 8 * d) 4, fieldAt bs (548 + 8 * d) 4)
    periodEnergy := rowAt bs 576 8 4
    credit := signedAt bs 608 8
    residue := fieldAt bs 616 4
    periodIndex := fieldAt bs 620 4
    lastClose := fieldAt bs 624 4
    billTref := fieldAt bs 628 4
    estApplied := rowAt bs 632 5 4
    frozen := f.getLsbD 0
    supply := f.toNat / 2 % 4
    supplyConfirmed := f.getLsbD 3
    creditLow := f.getLsbD 4
    creditExhausted := f.getLsbD 5
    deferred := f.getLsbD 6
    estInPeriod := f.getLsbD 7
    lateInPeriod := f.getLsbD 8
    byCredit := f.getLsbD 9
    tariffId := fieldAt bs 656 4
    lastSeq := BitVec.ofNat 32 (fieldAt bs 660 4)
    commits := BitVec.ofNat 32 (fieldAt bs 664 4)
    freezeSeq := BitVec.ofNat 32 (fieldAt bs 668 4)
    freezeCause := fieldAt bs 672 1
    crcOk := decide (crc32c (bs.take 1020) = BitVec.ofNat 32 (fieldAt bs 1020 4)) }

/-- A slot whose image differs from the right one in the bits of a mask, byte 0's lowest bit first (R188). -/
def flipSlot (v : LegalSlot) (mask : Nat) : LegalSlot :=
  if mask = 0 then v else slotOfBytes (leBytes 1024 (leNat (slotBytes v) ^^^ mask))

/-- Bytes 0 to 635 of a closed-period record (Table 6.5). -/
def closedBytes (p : ClosedPeriod) : List Byte :=
  leBytes 4 p.gmn.toNat ++ leBytes 4 p.periodIndex ++ leBytes 4 p.periodEnd ++ leBytes 4 p.tariffId ++ rowBytes 8 64 p.rate ++ rowBytes 8 4 p.total ++
  demandBytes p.demand ++ leBytes 8 (twos64 p.credit) ++ leBytes 1 (flagBit p.forced 0 + flagBit p.estimated 1 + flagBit p.late 2) ++
  List.replicate 35 0

/-- A closed-period record with its CRC-32C over bytes 0 to 635. -/
def sealClosed (p : ClosedPeriod) : ClosedPeriod := { p with crc := crc32c (closedBytes p) }

end Sys2Proof.Machine
end

