-- ==== Sys2Proof/Machine/Billing.lean ====
section
/-!
DEFINITION. Troika's arithmetic: local time, tariff sets, spans and their cut instants, segments, credit, demand and the
closure of periods (R172 to R186).  Everything here is a function of the slot, the sets and the record alone (R170).
-/

namespace Sys2Proof.Machine

/-! ## Local time (R176) -/

/-- Local seconds since 2020-01-01 of an instant, for a set's LOCAL_OFFSET. -/
def localSecs (utc : Nat) (offset : Int) (t : Int) : Int := t - utc + 60 * offset

/-- The instant of a local time. -/
def instantOf (utc : Nat) (offset : Int) (l : Int) : Int := l + utc - 60 * offset

/-- Days from 1970-01-01 to 2020-01-01. -/
def days2020 : Int := 18262

/-- Year, month and day of a day number counted from 2020-01-01. -/
def civilOf (days : Int) : Nat × Nat × Nat :=
  let z := days + days2020 + 719468
  let era := z / 146097
  let doe := z % 146097
  let yoe := (doe - doe / 1460 + doe / 36524 - doe / 146096) / 365
  let doy := doe - (365 * yoe + yoe / 4 - yoe / 100)
  let mp := (5 * doy + 2) / 153
  let d := doy - (153 * mp + 2) / 5 + 1
  let m := if mp < 10 then mp + 3 else mp - 9
  ((yoe + era * 400 + (if m ≤ 2 then 1 else 0)).toNat, m.toNat, d.toNat)

/-- Day number from 2020-01-01 of a date. -/
def dayNumber (y m d : Nat) : Int := daysFromCivil y m d - days2020

/-- Weekday of a day number, Monday 0: 2020-01-01 was a Wednesday. -/
def weekdayOf (days : Int) : Nat := ((days + 2) % 7).toNat

/-! ## Tariff sets (R179, R180) -/

/-- The set in force at an instant (R180). -/
def inForce (sets : List TariffSet) (t : Int) : Option TariffSet :=
  let later (a b : TariffSet) : TariffSet := if a.activate < b.activate then b else a
  let earlier (a b : TariffSet) : TariffSet := if b.activate < a.activate then b else a
  match sets.filter fun s => decide ((s.activate : Int) ≤ t) with
  | s :: rest => some (rest.foldl later s)
  | [] => match sets with
    | [] => none
    | s :: rest => some (rest.foldl earlier s)

/-- The day profile of a local date: a special day's, else the weekday's of the season in force (R179). -/
def profileOf (s : TariffSet) (days : Int) : DayProfile :=
  let (y, m, d) := civilOf days
  let started := s.seasons.filter fun e => decide (e.1 < m ∨ (e.1 = m ∧ e.2.1 ≤ d))
  let season := (started.getLast?.orElse fun _ => s.seasons.getLast?).map fun e => e.2.2
  let p := match s.special.find? fun e => decide ((e.1 = 0 ∨ e.1 = y) ∧ e.2.1 = m ∧ e.2.2.1 = d) with
    | some e => e.2.2.2
    | none => (season.getD []).getD (weekdayOf days) 0
  s.profiles.getD p ⟨0, []⟩

/-- The rate that a set gives at a local time (Table 6.4). -/
def rateOf (s : TariffSet) (l : Int) : Nat :=
  let p := profileOf s (l / 86400)
  let minute := (l % 86400 / 60).toNat
  ((p.points.filter fun q => decide (q.1 ≤ minute)).getLast?.map fun q => q.2).getD p.startRate

/-- The next switch point of a set after a local time, local midnight included (R175). -/
def nextSwitch (s : TariffSet) (l : Int) : Int :=
  let day := l / 86400
  match (profileOf s day).points.find? fun q => decide (l < day * 86400 + 60 * q.1) with
  | some q => day * 86400 + 60 * q.1
  | none => (day + 1) * 86400

/-- The next billing-period end of a set after a local time, in local seconds; a PERIOD_DAY of zero has none. -/
def nextPeriodEnd (s : TariffSet) (l : Int) : Option Int :=
  if s.periodDay = 0 then none
  else
    let (y, m, _) := civilOf (l / 86400)
    let here := dayNumber y m s.periodDay * 86400 + 60 * s.periodMinute
    let (y2, m2) := if m = 12 then (y + 1, 1) else (y, m + 1)
    some (if l < here then here else dayNumber y2 m2 s.periodDay * 86400 + 60 * s.periodMinute)

/-- The latest billing-period end of a set at or before a local time, in local seconds. -/
def lastEndOf (s : TariffSet) (l : Int) : Option Int :=
  if s.periodDay = 0 then none
  else
    let (y, m, _) := civilOf (l / 86400)
    let here := dayNumber y m s.periodDay * 86400 + 60 * s.periodMinute
    let (y0, m0) := if m = 1 then (y - 1, 12) else (y, m - 1)
    some (if here ≤ l then here else dayNumber y0 m0 s.periodDay * 86400 + 60 * s.periodMinute)

/-- The latest period end at or before an instant: of each set, the latest one that falls after its time in force begins and not after
it ends (R180, R182). -/
def lastPeriodEnd (utc : Nat) (sets : List TariffSet) (t : Int) : Option Nat :=
  (sets.filterMap fun s =>
    let next := (sets.filter fun x => decide (s.activate < x.activate)).foldl (fun (a : Int) x => min a x.activate) t
    let first := sets.all fun x => decide (s.activate ≤ x.activate)
    match lastEndOf s (localSecs utc s.localOffset (min t next)) with
    | none => none
    | some l =>
      let p := instantOf utc s.localOffset l
      if 0 < p ∧ (first = true ∨ (s.activate : Int) < p) then some p.toNat else none).max?

/-- The next period end after an instant, as an instant, by the set in force there. -/
def periodEndAfter (utc : Nat) (sets : List TariffSet) (t : Int) : Option Int :=
  match inForce sets t with
  | none => none
  | some s => (nextPeriodEnd s (localSecs utc s.localOffset t)).map (instantOf utc s.localOffset)

/-- The rate in force at an instant; without a set all energy goes to rate 0 (R172). -/
def rateAt (utc : Nat) (sets : List TariffSet) (t : Int) : Nat :=
  match inForce sets t with
  | none => 0
  | some s => rateOf s (localSecs utc s.localOffset t)

/-! ## Spans and segments (R174 to R176) -/

/-- The next cut instant after an instant: a switch point, an ACTIVATE or a period end. -/
def nextCut (utc : Nat) (sets : List TariffSet) (t : Int) : Option Int :=
  match inForce sets t with
  | none => none
  | some s =>
    let l := localSecs utc s.localOffset t
    let sw := instantOf utc s.localOffset (nextSwitch s l)
    let c1 := match periodEndAfter utc sets t with
      | some p => min sw p
      | none => sw
    some ((sets.filter fun a => decide (t < (a.activate : Int))).foldl (fun c a => min c a.activate) c1)

/-- A segment: where it starts and stops, and the billing-period ends that it reaches, in order. -/
structure Segment where
  start : Int
  stop : Int
  ends : List Int
  deriving DecidableEq, Repr

/-- The period ends after `a` and up to `e`, from one cut instant to the next, of which there is at most one a second. -/
def periodEndsIn (utc : Nat) (sets : List TariffSet) (e : Int) : Nat → Int → List Int
  | 0, _ => []
  | n + 1, a =>
    match nextCut utc sets a with
    | none => []
    | some c =>
      if e < c then []
      else if periodEndAfter utc sets a = some c then c :: periodEndsIn utc sets e n c else periodEndsIn utc sets e n c

/-- Cut a span at its cut instants, at most `n` of them (R175, R176); what is left over is one segment, with the period ends inside
it. -/
def cutSpan (utc : Nat) (sets : List TariffSet) (e : Int) : Nat → Int → List Segment
  | 0, a => [⟨a, e, periodEndsIn utc sets e (e - a).toNat a⟩]
  | n + 1, a =>
    match nextCut utc sets a with
    | none => [⟨a, e, []⟩]
    | some c =>
      let ends := if periodEndAfter utc sets a = some c ∧ c ≤ e then [c] else []
      if c < e then ⟨a, c, ends⟩ :: cutSpan utc sets e n c else [⟨a, e, ends⟩]

/-- More cut instants lay in the span than SPLIT_MAX allows: the last segment has one inside it. -/
def splitLimited (utc : Nat) (sets : List TariffSet) (segs : List Segment) : Bool :=
  match segs.getLast? with
  | none => false
  | some g => match nextCut utc sets g.start with
    | none => false
    | some c => decide (c < g.stop)

/-- The share of a delta that falls to each segment (R175). -/
def shareOut (a : Nat) (len : Nat) : List Segment → Nat → List Nat
  | [], _ => []
  | [_], given => [a - given]
  | g :: rest, given =>
    let s := if len = 0 then 0 else a * (g.stop - g.start).toNat / len
    s :: shareOut a len rest (given + s)

/-! ## Credit (R184, R185) -/

/-- The largest credit. -/
def creditMax : Int := 2 ^ 63 - 1

/-- CREDIT saturates (R185). -/
def satCredit (c : Int) : Int := max (-creditMax) (min creditMax c)

/-- Change the exact credit V = 10 000 × CREDIT − RESIDUE by an amount in 10⁻⁴ milli-units (R184). -/
def moveCredit (s : LegalSlot) (x : Int) : LegalSlot :=
  let v := 10000 * s.credit - s.residue + x
  let c := -((-v) / 10000)
  { s with credit := satCredit c, residue := (10000 * c - v).toNat }

/-- Where block `b` of a rate starts, in 0.1 Wh of import active PERIOD_ENERGY; block 0 starts at zero. -/
def blockStart (r : RateEntry) (b : Nat) : Nat := if b = 0 then 0 else 10000 * r.thresholds.getD (b - 1) 0

/-- The charge for energy `e` that starts at PERIOD_ENERGY `p`: each part at the price of its block (R184). -/
def chargeFor (r : RateEntry) (p e : Nat) : Nat :=
  let n := max 1 r.blocks
  (List.range n).foldl (fun acc b =>
    let lo := blockStart r b
    let hi := if b + 1 < n then blockStart r (b + 1) else p + e + lo
    acc + (min hi (p + e) - max lo p) * r.prices.getD b 0) 0

/-- Add to an element of a list of 64-bit registers. -/
def addAt (l : List Nat) (i n : Nat) : List Nat := l.set i ((l.getD i 0 + n) % 2 ^ 64)

/-- Add energies to RATE, TOTAL and PERIOD_ENERGY at one rate (R177). -/
def addEnergy (s : LegalSlot) (rate : Nat) (es : List Nat) : LegalSlot :=
  (List.range 4).foldl (fun acc d =>
    let e := es.getD d 0
    { acc with rate := addAt acc.rate (4 * rate + d) e, total := addAt acc.total d e,
               periodEnergy := addAt acc.periodEnergy d e }) s

/-- Apply one segment's energies: priced, import before export, then added (R177, R184). -/
def applySegment (utc : Nat) (sets : List TariffSet) (g : Segment) (es : List Nat) (s : LegalSlot) : LegalSlot :=
  let rate := rateAt utc sets g.start
  let s1 := match inForce sets g.start with
    | none => s
    | some t =>
      let r := t.rates.getD rate ⟨1, 0, [], []⟩
      let a := moveCredit s (-(chargeFor r (s.periodEnergy.getD 0 0) (es.getD 0 0) : Int))
      moveCredit a ((es.getD 1 0 * r.exportPrice : Nat) : Int)
  addEnergy s1 rate es

/-- Local midnights after `a` and up to `b`, by the set in force at `a`. -/
def midnights (utc : Nat) (sets : List TariffSet) (a b : Int) : List Int :=
  match inForce sets a with
  | none => []
  | some s =>
    let first := localSecs utc s.localOffset a / 86400
    let n := (localSecs utc s.localOffset b / 86400 - first).toNat
    (List.range n).map fun i => instantOf utc s.localOffset ((first + 1 + i) * 86400)

/-- Subtract STANDING for each local midnight of a segment (R185). -/
def applyStanding (utc : Nat) (sets : List TariffSet) (g : Segment) (s : LegalSlot) : LegalSlot :=
  (midnights utc sets g.start g.stop).foldl (fun acc m =>
    match inForce sets m with
    | none => acc
    | some t => { acc with credit := satCredit (acc.credit - t.standing) }) s

/-! ## Periods (R181 to R183) -/

/-- The set identity in force at an instant. -/
def tariffIdAt (sets : List TariffSet) (t : Int) : Nat :=
  match inForce sets t with
  | none => 0
  | some s => s.tariffId

/-- Close a period at `p` (R181): the record of Table 6.5 and the slot after it. -/
def closePeriod (sets : List TariffSet) (gmn : Gmn) (forced : Bool) (p : Int) (s : LegalSlot) : LegalSlot × ClosedPeriod :=
  ({ s with periodIndex := s.periodIndex + 1, lastClose := p.toNat, demand := [(0, 0), (0, 0), (0, 0), (0, 0)],
            periodEnergy := [0, 0, 0, 0], estInPeriod := false, lateInPeriod := false },
   sealClosed ⟨gmn, s.periodIndex, p.toNat, tariffIdAt sets p, s.rate, s.total, s.demand, s.credit, forced, s.estInPeriod, s.lateInPeriod, 0⟩)

/-- Demand over `n` intervals replaces the stored maximum where it exceeds it (R178). -/
def raiseDemand (intervalMin n : Nat) (as : List (Option Nat)) (e : Int) (s : LegalSlot) : LegalSlot :=
  if n = 0 ∨ intervalMin = 0 then s
  else
    (List.range 4).foldl (fun acc d =>
      match as.getD d none with
      | none => acc
      | some a =>
        let w := 6 * a / (intervalMin * n)
        if (acc.demand.getD d (0, 0)).1 < w then { acc with demand := acc.demand.set d (w, e.toNat) } else acc) s

/-! ## A record applied (R173 to R178) -/

/-- What billing needs of the settings. -/
structure BillEnv where
  utc : Nat
  intervalMin : Nat
  align : Int
  splitMax : Nat
  deriving DecidableEq, Repr

/-- A slot under update, with the periods it has closed. -/
structure Billing where
  slot : LegalSlot
  closed : List ClosedPeriod
  late : Bool
  limited : Bool
  nothing : Bool
  deriving DecidableEq, Repr

/-- The applied deltas (R173). -/
def appliedDeltas (s : LegalSlot) (follows : Bool) (deltas : List (Option Nat)) : List (Option Nat) :=
  (List.range 4).map fun d => (deltas.getD d none).map fun x => if follows = true then x - s.estApplied.getD d 0 else x

/-- The end of a record's span (R174). -/
def spanEnd (env : BillEnv) (typ : Nat) (tref : Nat) (k : Option Int) : Int :=
  match k with
  | some i => if typ = 1 ∨ typ = 6 then 60 * env.intervalMin * i + env.utc + env.align else tref
  | none => tref

/-- Close the periods that end at instants, in order, each once (R181). -/
def closeAll (sets : List TariffSet) (gmn : Gmn) : List Int → LegalSlot × List ClosedPeriod → LegalSlot × List ClosedPeriod
  | [], x => x
  | p :: rest, (s, ps) =>
    if (s.lastClose : Int) < p then
      let (s1, c) := closePeriod sets gmn false p s
      closeAll sets gmn rest (s1, ps ++ [c])
    else closeAll sets gmn rest (s, ps)

/-- One segment of a span: energy, standing charge, demand in the period that holds the span's end, and the closure of every period whose
end it reaches (R177, R178, R181, R183).  `late` energy comes from before the last closure. -/
def stepSegment (env : BillEnv) (sets : List TariffSet) (gmn : Gmn) (est : Bool) (e : Int) (b : Billing) (g : Segment)
    (es : List Nat) (demand : LegalSlot → LegalSlot) : Billing :=
  let late := decide (g.start < (b.slot.lastClose : Int)) && es.any fun x => decide (x ≠ 0)
  let s1 := { b.slot with lateInPeriod := b.slot.lateInPeriod || late, estInPeriod := b.slot.estInPeriod || est }
  let s2 := applyStanding env.utc sets g (applySegment env.utc sets g es s1)
  let inside := g.ends.filter fun p => decide (p < e)
  let at_ := g.ends.filter fun p => decide (e ≤ p)
  let x := closeAll sets gmn inside (s2, [])
  let y := closeAll sets gmn at_ (if g.stop = e then (demand x.1, x.2) else x)
  ⟨y.1, b.closed ++ y.2, b.late || late, b.limited, b.nothing⟩

/-- The segments of a span that starts at BILL_TREF: one at the rate in force there where the span does not advance it, and
one where no span was applied before (DEDUCED: R174 and R175 give no start where BILL_TREF is none, notes/assumptions/29.md). -/
def spanSegments (env : BillEnv) (sets : List TariffSet) (from_ : Nat) (e : Int) : List Segment :=
  if from_ = 0 then [⟨e, e, []⟩]
  else if e ≤ (from_ : Int) then [⟨from_, from_, []⟩]
  else cutSpan env.utc sets e env.splitMax from_

/-- Apply a record's energies (R173 to R178, R181 to R185). -/
def applyRecord (env : BillEnv) (sets : List TariffSet) (s : LegalSlot) (gmn : Gmn) (r : Record) (tref : Nat) (k : Option Int)
    (deltas : List (Option Nat)) : Billing :=
  let follows := r.vflags.getLsbD 13
  let first := r.vflags.getLsbD 15
  let est := decide (r.typ = 6)
  let as := appliedDeltas s follows deltas
  let e := spanEnd env r.typ.toNat tref k
  let s0 := { s with lastSeq := r.readSeq, commits := s.commits + 1,
                     estApplied := if est = true then as.map fun a => a.getD 0 else [0, 0, 0, 0] }
  if first = true then ⟨{ s0 with billTref := e.toNat, tariffId := tariffIdAt sets e }, [], false, false, true⟩
  else if as.all Option.isNone = true then ⟨s0, [], false, false, true⟩
  else
    let segs := spanSegments env sets s.billTref e
    let len := (e - (s.billTref : Int)).toNat
    let shares := as.map fun a => shareOut (a.getD 0) len segs 0
    let n := r.gap.toNat + 1 - (if follows = true then 1 else 0)
    let demand (x : LegalSlot) : LegalSlot :=
      if k.isSome = true ∧ (r.typ = 1 ∨ r.typ = 6) ∧ (x.lastClose : Int) < e then raiseDemand env.intervalMin n as e x else x
    let stop := (segs.getLast?.map fun g => g.stop).getD e
    let b := (List.range segs.length).foldl (fun acc i =>
      stepSegment env sets gmn est stop acc (segs.getD i ⟨0, 0, []⟩) (shares.map fun l => l.getD i 0) demand)
      ⟨s0, [], false, splitLimited env.utc sets segs, false⟩
    let tr := max s.billTref e.toNat
    { b with slot := { b.slot with billTref := tr, tariffId := tariffIdAt sets tr } }

/-! ## Legal jobs (Table 6.6) -/

/-- What a legal job does to its slot: the slot and the period it closed, or the code of Table 6.8 that declines it.
A release is handled apart (R191). -/
def applyOp (sets : List TariffSet) (gmn : Gmn) (op : LegalOp) (s : LegalSlot) : Except Nat (LegalSlot × List ClosedPeriod) :=
  match op with
  | .credit a => .ok ({ s with credit := satCredit (s.credit + a) }, [])
  | .disconnect c => .ok ({ s with supply := 1, supplyConfirmed := false, byCredit := c, deferred := false }, [])
  | .reconnect force _ =>
    if s.creditExhausted = true ∧ force = false then .error 6
    else .ok ({ s with supply := 2, supplyConfirmed := false }, [])
  | .release _ => .ok (s, [])
  | .confirm positive => .ok (if positive = true then { s with supplyConfirmed := true } else s, [])
  | .forcedClosure p =>
    if s.lastClose < p then
      let (s1, c) := closePeriod sets gmn true p s
      .ok (s1, [c])
    else .ok (s, [])

/-- What credit needs of the settings (R186). -/
structure CreditEnv where
  low : Nat
  emergency : Nat
  action : Bool
  friendlyStart : Nat
  friendlyEnd : Nat
  utc : Nat
  deriving DecidableEq, Repr

/-- An instant lies in the friendly period, by the local time of the tariff slot's sets (R186).  Equal ends mean none; a period may run
over midnight. -/
def CreditEnv.friendly (env : CreditEnv) (sets : List TariffSet) (t : Nat) : Bool :=
  let off := match inForce sets t with
    | some x => x.localOffset
    | none => 0
  let m := (localSecs env.utc off t % 86400 / 60).toNat
  if env.friendlyStart = env.friendlyEnd then false
  else if env.friendlyStart < env.friendlyEnd then decide (env.friendlyStart ≤ m ∧ m < env.friendlyEnd)
  else decide (env.friendlyStart ≤ m ∨ m < env.friendlyEnd)

/-- The credit flags as they must stand after a change from `old` (R186).  DEFERRED is set where the credit is exhausted in the friendly
period, judged at BILL_TREF, and clears with CREDIT_EXHAUSTED, so that it follows from records and jobs alone (R170; DEDUCED,
notes/assumptions/90.md). -/
def creditFlags (env : CreditEnv) (sets : List TariffSet) (old s : LegalSlot) : LegalSlot :=
  let ex := decide (s.credit < -(env.emergency : Int))
  { s with creditLow := decide (s.credit < (env.low : Int)), creditExhausted := ex,
           deferred := ex && (s.deferred || (env.action && !old.creditExhausted && env.friendly sets s.billTref)) }

end Sys2Proof.Machine
end

