-- ==== Sys2Proof/Machine/EthGate.lean ====
section
/-!
DEFINITION. The Ethernet ports' items, their 802.1Qbv gate lists and launch times (R96, R415, R418).
-/

namespace Sys2Proof.Machine

/-- An item of an Ethernet port: ETH1's identifiers are ETH0's plus 0x40 (R424). -/
def ethItem (p key : Nat) : Nat := key + 0x40 * p

/-- A port's state. -/
def State.ethPort (s : State) (p : Nat) : EthPort := s.eth.ports.getD p ⟨0, false, false, 0xFF, false, 0, [], []⟩

/-- Change a port. -/
def State.modEthPort (s : State) (p : Nat) (f : EthPort → EthPort) : State :=
  { s with eth := { s.eth with ports := s.eth.ports.set p (f (s.ethPort p)) } }

/-- Wall time in whole ns. -/
def State.wallNs (s : State) : Nat := s.wall / 65536

/-- Picoseconds per bit in a port's ETH_MODE. -/
def bitPs (mode : Nat) : Nat := if mode = 1 then 97 else if mode = 2 then 400 else 1000

/-- Time in ns that a frame of `bits` takes, with preamble and inter-frame gap (160 bits). -/
def State.frameNs (s : State) (p bits : Nat) : Nat := ((bits + 160) * bitPs (s.ethPort p).mode + 999) / 1000

/-- COUNT of a port's gate list. -/
def State.gclCount (s : State) (p : Nat) : Nat := s.itemField (ethItem p iGclEth0) 16 1

/-- CYCLE of a port's gate list in ns. -/
def State.gclCycle (s : State) (p : Nat) : Nat := max 1 (s.itemField (ethItem p iGclEth0) 12 4)

/-- BASE of a port's gate list in ns. -/
def State.gclBase (s : State) (p : Nat) : Nat :=
  s.itemField (ethItem p iGclEth0) 0 8 * 1000000000 + s.itemField (ethItem p iGclEth0) 8 4

/-- GATES and INTERVAL of an entry. -/
def State.gclEntry (s : State) (p e : Nat) : BitVec 8 × Nat :=
  (BitVec.ofNat 8 (s.itemField (ethItem p iGclEth0) (20 + 8 * e) 1), s.itemField (ethItem p iGclEth0) (24 + 8 * e) 4)

/-- The spans of one cycle as (start, end, gates); the last entry's gates hold to the cycle's end. -/
def State.gclSpans (s : State) (p : Nat) : List (Nat × Nat × BitVec 8) :=
  let n := s.gclCount p
  ((List.range n).foldl (fun (acc : List (Nat × Nat × BitVec 8) × Nat) e =>
    let (g, i) := s.gclEntry p e
    let stop := if e + 1 = n then s.gclCycle p else acc.2 + i
    (acc.1 ++ [(acc.2, stop, g)], stop)) ([], 0)).1

/-- The span in force at an offset in the cycle. -/
def State.gclAt (s : State) (p off : Nat) : Option (Nat × Nat × BitVec 8) :=
  (s.gclSpans p).find? fun x => decide (x.1 ≤ off ∧ off < x.2.1)

/-- Gates that the list holds at a wall time in ns; before the list's first cycle the gates in force stay. -/
def State.gatesAt (s : State) (p ns : Nat) : BitVec 8 :=
  if s.gclCount p = 0 then 0xFF
  else if ns < max (s.gclBase p) (s.ethPort p).gclFrom then (s.ethPort p).gates
  else match s.gclAt p ((ns - s.gclBase p) % s.gclCycle p) with
    | some x => x.2.2
    | none => (s.ethPort p).gates

/-- The open windows of a class in one cycle: neighbouring open spans joined, as (start, end). -/
def State.openWindows (s : State) (p : Nat) (traffic : Fin 8) : List (Nat × Nat) :=
  (s.gclSpans p).foldl (fun acc x =>
    if x.2.2.getLsbD traffic.val = false then acc
    else match acc.getLast? with
      | some w => if w.2 = x.1 then acc.dropLast ++ [(w.1, x.2.1)] else acc ++ [(x.1, x.2.1)]
      | none => [(x.1, x.2.1)]) []

/-- The class is open for the whole cycle. -/
def State.alwaysOpen (s : State) (p : Nat) (traffic : Fin 8) : Bool :=
  decide (s.gclCount p = 0) || (s.gclSpans p).all fun x => x.2.2.getLsbD traffic.val

/-- A window that runs to the end of the cycle goes on in one that begins the next cycle: its length from `start`. -/
def State.windowRest (s : State) (p : Nat) (ws : List (Nat × Nat)) (off : Nat) : Option Nat :=
  (ws.find? fun w => decide (w.1 ≤ off ∧ off < w.2)).map fun w =>
    if w.2 = s.gclCycle p then
      w.2 - off + (match ws.head? with
        | some f => if f.1 = 0 then f.2 else 0
        | none => 0)
    else w.2 - off

/-- A frame fits some open window of its class in the cycle (R418). -/
def State.gateFits (s : State) (p : Nat) (traffic : Fin 8) (bits : Nat) : Bool :=
  s.alwaysOpen p traffic ||
    (let ws := s.openWindows p traffic
     ws.any fun w => decide (s.frameNs p bits ≤ (s.windowRest p ws w.1).getD 0))

/-- A frame may start at a wall time: its gate is open, and its whole transmission ends before the gate closes (R418). -/
def State.gateOpenFor (s : State) (p : Nat) (traffic : Fin 8) (bits ns : Nat) : Bool :=
  s.alwaysOpen p traffic ||
    (if ns < max (s.gclBase p) (s.ethPort p).gclFrom then (s.ethPort p).gates.getLsbD traffic.val
     else match s.windowRest p (s.openWindows p traffic) ((ns - s.gclBase p) % s.gclCycle p) with
       | some rest => decide (s.frameNs p bits ≤ rest)
       | none => false)

/-- ns from a wall time until the frame's gate opens for it, the next cycle's windows included. -/
def State.gateWait (s : State) (p : Nat) (traffic : Fin 8) (bits ns : Nat) : Nat :=
  if s.gateOpenFor p traffic bits ns = true then 0
  else
    let from_ := max (s.gclBase p) (s.ethPort p).gclFrom
    let start := if ns < from_ then from_ else ns
    let off := (start - s.gclBase p) % s.gclCycle p
    let ws := s.openWindows p traffic
    let fits := ws.filter fun w => decide (s.frameNs p bits ≤ (s.windowRest p ws w.1).getD 0)
    match fits.find? fun w => decide (off ≤ w.1) with
    | some w => start - ns + (w.1 - off)
    | none => match fits.head? with
      | some w => start - ns + (s.gclCycle p - off + w.1)
      | none => start - ns

/-! ## Sending (R417, R418) -/

/-- The class that TX_TC gives a kind of frame: 0 PTP, 1 ACK, 2 JOB and REPORT, 3 BUNDLE. -/
def State.txClass (s : State) (p kind : Nat) : Fin 8 := ⟨s.itemField (ethItem p iTxTcEth0) kind 1 % 8, Nat.mod_lt _ (by decide)⟩

/-- The 802.1Q tag of a class: VLAN_ID with PCP equal to the class; none while VLAN_ID is zero. -/
def State.ethTag (s : State) (p traffic : Nat) : Option (Nat × Nat) :=
  let v := s.item (ethItem p iVlanIdEth0)
  if v = 0 then none else some (v, traffic)

/-- Bytes of a frame from its destination to its FCS around so many bytes of payload. -/
def frameBytes (tag : Option (Nat × Nat)) (payload : Nat) : Nat := 18 + (if tag.isSome = true then 4 else 0) + payload

/-- Bits of a frame; one shorter than 64 bytes is padded. -/
def EthSent.bits (f : EthSent) : Nat := 8 * max 64 (frameBytes f.tag f.payload.length)

/-- The class of a frame. -/
def EthSent.cls (f : EthSent) : Fin 8 := ⟨f.traffic % 8, Nat.mod_lt _ (by decide)⟩

/-- A frame starts. -/
def State.ethTransmit (s : State) (f : EthSent) : State := (s.emit (.ethFrame f)).bump (cEthFramesTx f.port)

/-- The gate lets a frame start now. -/
def State.gateLets (s : State) (f : EthSent) : Bool := s.gateOpenFor f.port f.cls f.bits s.wallNs

/-- A frame enters its class's queue (R417, R418): one that fits no open window of the cycle is discarded; one with no frame of its class
before it and its gate open starts at once.  A port without link sends nothing. -/
def State.ethEnqueue (s : State) (f : EthSent) : State :=
  if (s.ethPort f.port).link = false then s
  else if s.gateFits f.port f.cls f.bits = false then s.bump (cEthGateTooLong f.port)
  else if ((s.ethPort f.port).queue.any fun g => decide (g.traffic = f.traffic)) = true ∨ s.gateLets f = false then
    s.modEthPort f.port fun x => { x with queue := x.queue ++ [f] }
  else s.ethTransmit f

/-- The waiting frames of a port that may start now: class 7 first, each class in order up to the first whose gate is closed. -/
def State.readyFrames (s : State) (p : Nat) : List EthSent :=
  ([7, 6, 5, 4, 3, 2, 1, 0] : List Nat).flatMap fun c =>
    ((s.ethPort p).queue.filter fun f => decide (f.traffic = c)).takeWhile s.gateLets

/-- Start the waiting frames whose gates are open. -/
def State.ethRelease (s : State) (p : Nat) : State :=
  if (s.ethPort p).link = false then s
  else
    let go := s.readyFrames p
    go.foldl (fun (st : State) f => (st.modEthPort p fun x => { x with queue := x.queue.erase f }).ethTransmit f) s

/-! ## Gates in force -/

/-- Put the gates in force that the list holds now. -/
def State.applyGates (s : State) (p : Nat) : State :=
  let g := s.gatesAt p s.wallNs
  let run := decide (s.gclCount p ≠ 0 ∧ max (s.gclBase p) (s.ethPort p).gclFrom ≤ s.wallNs)
  s.modEthPort p fun x => { x with gates := g, gclRunning := run }

/-- The first instant BASE + k × CYCLE at or after a wall time in ns (R418). -/
def State.nextGclCycle (s : State) (p ns : Nat) : Nat :=
  if ns ≤ s.gclBase p then s.gclBase p
  else s.gclBase p + (ns - s.gclBase p + s.gclCycle p - 1) / s.gclCycle p * s.gclCycle p

/-- After a step of wall time the cycle in progress ends and the schedule restarts from the next instant in the new time (R418). -/
def State.restartGates (s : State) : State :=
  [0, 1].foldl (fun st p => st.modEthPort p fun x => { x with gclFrom := st.nextGclCycle p st.wallNs }) s

end Sys2Proof.Machine
end

