-- ==== Sys2Proof/Machine/KeyUse.lean ====
section
/-!
DEFINITION. Key slots as they are used (R433, R436): which are usable, and what they unwrap and authenticate.
-/

namespace Sys2Proof.Machine

/-- An unused key slot. -/
def KeySlot.empty : KeySlot := ⟨[], 0, 0, 0, 0, 0, 0⟩

/-- The key slot numbered `n`. -/
def State.keySlot (s : State) (n : Nat) : KeySlot := Table.get KeySlot.empty s.sec.slots n

/-- The generation of a slot (R436); an entry not written is generation 1 (DEDUCED, notes/assumptions/22.md). -/
def State.slotGen (s : State) (n : Nat) : BitVec 8 := (Table.get (⟨1, 0, 0⟩ : GenEntry) s.sec.gens n).gen

/-- A key slot is usable (R433): not EMPTY, filled under its parent's present generation, and its parent usable; `n` bounds the chain
of parents. -/
def State.usableWithin (s : State) : Nat → Nat → Bool
  | 0, _ => false
  | n + 1, k =>
    let v := s.keySlot k
    decide (v.kind ≠ 0) && (decide (k = 0) || (decide (v.parentGen = s.slotGen v.parent) && s.usableWithin n v.parent))

/-- A key slot is usable. -/
def State.keyUsable (s : State) (k : Nat) : Bool := s.usableWithin 256 k

/-- A wrapped key unwrapped under a slot's material (RFC 3394); `none` where the slot is not usable or the integrity check fails. -/
def State.unwrapUnder (s : State) (k : Nat) (w : BitVec 192) : Option (List Byte) :=
  if s.keyUsable k = true then kwUnwrap (s.keySlot k).material (wrappedBytes w) else none

/-- AES-CMAC under a key slot; `none` where the slot is not usable (R433). -/
def State.cmacUnder (s : State) (k : Nat) (bs : List Byte) : Option (List Byte) :=
  if s.keyUsable k = true then some (aesCmac (s.keySlot k).material bs) else none

end Sys2Proof.Machine
end

