-- ==== Sys2Proof/Machine/ReportBytes.lean ====
section
/-!
DEFINITION. A context entry as bytes (Table 4.4), and reports as bytes: descriptors and data slots (R401, R405, R410 to R413).
-/

namespace Sys2Proof.Machine

/-! ## The context entry (Table 4.4) -/

/-- Code of a context state (Table 4.5). -/
def CtxState.number : CtxState → Nat
  | .empty => 0
  | .active => 1
  | .forward => 2
  | .mirror => 3
  | .frozen => 4
  | .exhausted => 5
  | .lost => 6

/-- Validation state: bytes 80 to 135 (Table 5.5). -/
def ValState.bytes (v : ValState) : List Byte :=
  leBytes 4 v.lastSeq.toNat ++ leBytes 4 v.seqSeen.toNat ++ rowBytes 5 4 v.lastReg ++ leBytes 4 v.lastTref ++ leBytes 6 v.lastCycle ++
  leBytes 4 v.lastIndex ++ leBytes 1 (v.rating + flagBit v.valid 4 + flagBit v.indexValid 5) ++ [0] ++ leBytes 2 v.seqGaps ++
  leBytes 2 v.intervalGaps ++ leBytes 2 v.rejects ++ leBytes 2 v.estimates ++ leBytes 4 0

/-- PLC link state: bytes 136 to 151 (Table 8.9). -/
def PlcLink.bytes (v : PlcLink) : List Byte :=
  leBytes 1 (v.bestPhase + flagBit v.primaryValid 2 + flagBit v.altValid 3 + flagBit v.discovering 4) ++ leBytes 1 v.txMod ++
  leBytes 3 v.txTm.toNat ++ leBytes 1 v.fails ++ rowBytes 1 3 v.snr ++ [0] ++ leBytes 4 v.lastHeard ++ [0, 0]

/-- Radio link state: bytes 152 to 167 (Table 9.7). -/
def RadioLink.bytes (v : RadioLink) : List Byte :=
  leBytes 1 (v.wake + flagBit v.recovering 2 + 8 * v.gstep + 32 * v.radio + 64 * v.chan + flagBit v.sleepy 7) ++
  leBytes 1 (v.dist + 16 * v.misses) ++ leBytes 2 v.slot ++ leInt 4 v.offset ++ leInt 2 v.drift ++ leBytes 4 v.tMeas ++ leBytes 1 v.fails ++ [0]

/-- Transaction state: bytes 168 to 175 (Table 10.5). -/
def TxnState.bytes (v : TxnState) : List Byte :=
  leBytes 2 v.active ++ leBytes 1 (flagBit v.radioLast 0) ++ leBytes 1 v.noAnswer ++ leBytes 2 v.pending ++ [0, 0]

/-- Balance state: bytes 176 to 247 (Table 7.7). -/
def BalState.bytes (v : BalState) : List Byte :=
  leBytes 1 v.group ++ leBytes 1 (v.regPhase + 8 * v.detPhase + flagBit v.member 6 + flagBit v.exportAllowed 7) ++ leBytes 1 v.phaseRun ++
  leBytes 1 (v.phaseCand + flagBit v.mismatch 2 + flagBit v.moved 3 + flagBit v.stepPending 4 + flagBit v.holdIssued 5 +
    flagBit v.discIssued 6 + flagBit v.above 7) ++
  leBytes 2 v.score ++ rowBytes 2 6 v.components ++ leInt 2 v.corr ++ leInt 4 v.beta ++ leBytes 5 v.snapImp ++ leBytes 5 v.snapExp ++
  leBytes 2 v.snapId ++ leBytes 1 v.flagsSeen ++ leBytes 1 v.sigSteps ++ leBytes 1 v.postCount ++ [0] ++ leBytes 4 v.stepTime ++
  leBytes 4 v.flagsTime ++ leBytes 4 v.reverseTime ++ leInt 4 v.preMean ++ List.replicate 16 0

/-- Bytes 0 to 251 of a context entry.  SYSTEM_TITLE's first byte is its lowest. -/
def contextBody (c : Context) : List Byte :=
  leBytes 4 (c.gmn.toNat + 2 ^ 20 * c.group + 2 ^ 24 * c.state.number) ++ leBytes 8 c.title.toNat ++ leBytes 4 c.rxIc.toNat ++
  leBytes 8 c.window.toNat ++ leBytes 4 c.txIc.toNat ++ leBytes 1 c.keySlot ++ [c.keyGen] ++ [0, 0] ++ leBytes 24 c.ekWrapped.toNat ++
  leBytes 24 c.akWrapped.toNat ++ c.val.bytes ++ c.plc.bytes ++ c.radio.bytes ++ c.txn.bytes ++ c.bal.bytes ++ leBytes 4 c.fwCount

/-- The 256 bytes of a context entry, CTX_CRC last. -/
def contextBytes (c : Context) : List Byte := contextBody c ++ leBytes 4 (crc32c (contextBody c)).toNat

/-- The 640 bytes of a closed-period record. -/
def closedData (p : ClosedPeriod) : List Byte := closedBytes p ++ leBytes 4 (crc32c (closedBytes p)).toNat

/-! ## Reports (R405, R410 to R413) -/

/-- The job-specific data of a JOB_RESULT: register words, context, slot and closed-period bytes, a quote, or the FAILED meters of a
campaign (R507: GMN, then the cause in bits 23:20). -/
def ReportData.toBytes : ReportData → List Byte
  | .none => []
  | .words ws => ws.flatMap fun w => leBytes 4 w.toNat
  | .meter c l ps => ((c.map contextBytes).getD []) ++ ((l.map slotBytes).getD []) ++ ps.flatMap closedData
  | .bytes bs => bs
  | .failed ms => ms.flatMap fun m => leBytes 4 (m.1.toNat + 2 ^ 20 * m.2)

/-- The data of a report by its type (Table 13.6). -/
def Report.dataBytes (r : Report) : List Byte :=
  match r.body with
  | .jobResult _ _ _ _ => r.data.toBytes
  | .reading _ x => recordData x
  | .feederReading f => feederBytes f ++ leBytes 4 (feederCrc f).toNat
  | .groupResult x => groupBytes x ++ leBytes 4 x.crc.toNat
  | .anomaly x => anomalyBytes x ++ leBytes 4 x.crc.toNat
  | .closedPeriod p => closedData p
  | .bundle b => bundleBytes b
  | .event _ x notLogged => x.copy notLogged
  | _ => []

/-- EXTRA: data slots of 64 bytes that follow the descriptor, 0 to 256. -/
def Report.extra (r : Report) : Nat := min 256 ((r.dataBytes.length + 63) / 64)

/-- Bytes 9 to 59 of a descriptor by type, before the zero bytes that fill them (Table 13.6, R411, R412). -/
def ReportBody.fields : ReportBody → List Byte
  | .jobResult status reason outcome detail => leBytes 1 status ++ leBytes 1 reason ++ leBytes 1 outcome ++ detail
  | .reading outcome r =>
    leBytes 1 outcome ++ partOf (recordBytes r) 56 1 ++ [0] ++ partOf (recordBytes r) 0 14 ++ [0, 0] ++ leBytes 4 r.rck.toNat
  | .feederReading f => [7, 0, 0] ++ partOf (feederBytes f) 0 14 ++ [0, 0] ++ leBytes 4 (feederCrc f).toNat
  | .groupResult x => leBytes 1 x.group
  | .anomaly x => leBytes 4 x.gmn.toNat ++ leBytes 1 x.action
  | .closedPeriod p => leBytes 4 p.gmn.toNat ++ leBytes 4 p.periodIndex
  | .alarm cause gmn detail => leBytes 1 cause ++ leBytes 4 gmn ++ leInt 8 detail
  | .txnOutcome gmn tag outcome schedule => leBytes 4 gmn ++ leBytes 2 tag ++ leBytes 1 outcome ++ leBytes 1 schedule
  | .bundle b => leBytes 4 b.seq.toNat
  | .event g _ _ => leBytes 1 (logIndex g)
  | .mode m budget cause => leBytes 1 m ++ leBytes 1 budget ++ leBytes 1 cause

/-- Bytes 0 to 59 of a report descriptor (Table 13.4); PHASE is that of a report ring (R401). -/
def reportHead (phase : Bool) (r : Report) : List Byte :=
  leBytes 1 r.body.type ++
    leBytes 1 (flagBit r.final 0 + flagBit phase 1 + flagBit r.unmirrored 2 + flagBit r.fromMirror 3) ++ leBytes 2 r.extra ++
    leBytes 4 r.jobId.toNat ++ leBytes 1 r.node.toNat ++ (r.body.fields ++ List.replicate 51 0).take 51

/-- A report descriptor with its DCRC. -/
def reportDescriptor (phase : Bool) (r : Report) : List Byte :=
  reportHead phase r ++ leBytes 4 (crc32c (reportHead phase r)).toNat

/-- Data slot `k` of a report. -/
def reportSlot (r : Report) (k : Nat) : List Byte := (partOf r.dataBytes (64 * k) 64 ++ List.replicate 64 0).take 64

/-- A report as it travels outside a report ring: its descriptor with PHASE zero, then its data slots (R419, R423; the PHASE is the model's
choice there, DESIGN CHOICE, notes/assumptions/169.md). -/
def reportBytes (r : Report) : List Byte :=
  reportDescriptor false r ++ (List.range r.extra).flatMap (reportSlot r)

end Sys2Proof.Machine
end

