-- ==== Sys2Proof/Machine/EthMessage.lean ====
section
/-!
DEFINITION. The sending side of the Ethernet message transport (R419 to R421).
-/

namespace Sys2Proof.Machine

/-- A new association (R420). -/
def Assoc.fresh : Assoc := ⟨none, 0, 0, [], [], [], false, false⟩

/-- The index of the association of a port with a peer. -/
def assocKey (p : Fin 2) (i : Fin 32) : Nat := p.val * 32 + i.val

/-- The association of a port with a peer. -/
def State.assoc (s : State) (k : Nat) : Assoc := Table.get Assoc.fresh s.eth.assocs k

/-- Replace an association. -/
def State.setAssoc (s : State) (k : Nat) (a : Assoc) : State :=
  { s with eth := { s.eth with assocs := Table.set Assoc.fresh s.eth.assocs k a } }

/-- AFE clocks of ETH_RTO. -/
def State.rtoTicks (s : State) : Nat := s.item iEthRto * ticksPerMs

/-- ACK_SEQ: the highest MSG_SEQ received in order; all ones before the first (DEDUCED, notes/assumptions/41.md). -/
def Assoc.ackSeq (a : Assoc) : Nat := (a.nextRx + 2 ^ 32 - 1) % 2 ^ 32

/-! ## Frames (R419) -/

/-- KIND of a message (Table 13.10). -/
def EthBody.kind : EthBody → Nat
  | .job _ => 1
  | .report _ => 2
  | .bundle _ => 3
  | .bundleAck _ _ => 4
  | .ack => 5

/-- The bytes of a message's body (R419). -/
def EthBody.bytes : EthBody → List Byte
  | .job j => jobHead j ++ leBytes 4 j.hdr.dcrc.toNat ++ attachment j
  | .report r => reportBytes r
  | .bundle b => bundleBytes b
  | .bundleAck sender seq => leBytes 4 sender.toNat ++ leBytes 4 seq.toNat
  | .ack => []

/-- The place in TX_TC of a message's kind; a BUNDLE_ACK goes with the ACKs (DESIGN CHOICE, notes/assumptions/174.md). -/
def EthBody.classKind : EthBody → Nat
  | .job _ => 2
  | .report _ => 2
  | .bundle _ => 3
  | .bundleAck _ _ => 1
  | .ack => 1

/-- The field node's own SENDER item: the first with an identity (DEDUCED, notes/assumptions/24.md). -/
def State.ownSender (s : State) : Option Nat := (List.range 256).find? fun k => decide (s.itemField (iSender k) 0 4 ≠ 0)

/-- PEER_ID of this node's messages: SENDER_ID of its own SENDER item, else the low half of DEVICE_SERIAL (DESIGN CHOICE,
notes/assumptions/174.md). -/
def State.ownPeerId (s : State) : Nat :=
  match s.ownSender with
  | some k => s.itemField (iSender k) 0 4
  | none => s.serial.toNat % 2 ^ 32

/-- The 24 bytes of a message header (Table 13.10); `reserved`: byte 8's upper half, bytes 9 to 11, bytes 22 and 23, lowest first. -/
def messageHeader (version kind length peerId epoch seq ackSeq frag frags reserved : Nat) : List Byte :=
  leBytes 1 version ++ leBytes 1 kind ++ leBytes 2 length ++ leBytes 4 peerId ++ leBytes 1 (epoch % 16 + 16 * (reserved % 16)) ++
    leBytes 3 (reserved / 2 ^ 4) ++ leBytes 4 seq ++ leBytes 4 ackSeq ++ leBytes 1 frag ++ leBytes 1 frags ++ leBytes 2 (reserved / 2 ^ 28)

/-- Cut bytes into parts of at most `n`; no byte makes one empty part. -/
def partsOf (n : Nat) (bs : List Byte) : List (List Byte) :=
  (List.range (max 1 ((bs.length + n - 1) / n))).map fun k => partOf bs (n * k) n

/-- The most bytes of body that a frame of a port carries (R416): MAX_FRAME less the MAC's bytes, the header and the CMAC. -/
def State.bodyMax (s : State) (p traffic : Nat) : Nat := s.item (ethItem p iMaxFrameEth0) - frameBytes (s.ethTag p traffic) 40

/-- The bytes of a message's frames after the EtherType, before each one's CMAC, on the association `k`. -/
def State.messageParts (s : State) (k seq : Nat) (b : EthBody) : List (List Byte) :=
  let parts := partsOf (max 1 (s.bodyMax (k / 32) (s.txClass (k / 32) b.classKind).val)) b.bytes
  ((List.range parts.length).zip parts).map fun (e : Nat × List Byte) =>
    messageHeader 1 b.kind e.2.length s.ownPeerId s.plc.epoch seq (s.assoc k).ackSeq e.1 parts.length 0 ++ e.2

/-- The frame of a port that carries these bytes to the peer of an association. -/
def State.frameTo (s : State) (k traffic : Nat) (payload : List Byte) : EthSent :=
  let p := k / 32
  ⟨p, traffic, (s.peer (k % 32)).mac, s.itemField (ethItem p iMacAddrEth0) 0 6, s.ethTag p traffic, s.item iEthertype, payload⟩

/-- The frames of a message, each with its CMAC under the peer's KEY_SLOT. -/
def State.messageFrames (s : State) (k seq : Nat) (b : EthBody) : List EthSent :=
  (s.messageParts k seq b).map fun x =>
    s.frameTo k (s.txClass (k / 32) b.classKind).val (x ++ (s.cmacUnder (s.peer (k % 32)).keySlot x).getD [])

/-- A message's frames go out with ACK_SEQ, so that nothing is left to acknowledge.  With a key slot that is not usable nothing is sent
(R433). -/
def State.sendFrame (s : State) (k seq : Nat) (b : EthBody) : State :=
  if s.keyUsable (s.peer (k % 32)).keySlot = false then s.bump cSecKeyUseRefused
  else (s.messageFrames k seq b).foldl (fun st f => st.ethEnqueue f) (s.setAssoc k { s.assoc k with ackDue := false })

/-! ## Messages (R420) -/

/-- Put a message on the wire: it takes the next number. -/
def State.launchMessage (s : State) (k : Nat) (b : EthBody) : State :=
  let a := s.assoc k
  let m : SentMessage := ⟨a.nextTx, b, 0, s.now + s.rtoTicks⟩
  (s.setAssoc k { a with nextTx := (a.nextTx + 1) % 2 ^ 32, unacked := a.unacked ++ [m] }).sendFrame k a.nextTx b

/-- Send as many waiting messages as ETH_WINDOW leaves room for; `n` bounds the count. -/
def State.pumpMessages (s : State) (k : Nat) : Nat → State
  | 0 => s
  | n + 1 =>
    match (s.assoc k).waiting with
    | [] => s
    | b :: rest =>
      if (s.assoc k).unacked.length < s.item iEthWindow then
        ((s.setAssoc k { s.assoc k with waiting := rest }).launchMessage k b).pumpMessages k n
      else s

/-- Send a message to a peer (R420): at once within the window, else after earlier ones. -/
def State.ethSend (s : State) (p : Fin 2) (i : Fin 32) (b : EthBody) : State :=
  let k := assocKey p i
  let s1 := s.setAssoc k { s.assoc k with waiting := (s.assoc k).waiting ++ [b] }
  s1.pumpMessages k (s1.assoc k).waiting.length

/-- Send to a peer over the port its item names. -/
def State.ethSendPeer (s : State) (i : Fin 32) (b : EthBody) : State := s.ethSend (s.peer i.val).usePort i b

/-- Keep an outbound relay bundle until the HEAD_END peer acknowledges it. -/
def State.holdBundle (s : State) (b : RelayBundle) : State :=
  if s.peersWith 2 = [] then s
  else { s with eth := { s.eth with heldBundles := s.eth.heldBundles ++ [HeldBundle.mk b (s.now + 2 * ticksPerSec)] } }

/-- Send an outbound relay bundle: to the HEAD_END peer, kept until acknowledged, or as a BUNDLE report (R421). -/
def State.sendBundle (s : State) (b : RelayBundle) : State :=
  match s.peersWith 2 with
  | i :: _ => (s.holdBundle b).ethSendPeer i (.bundle b)
  | [] => s.reportOut (.bundle b)

end Sys2Proof.Machine
end

