-- ==== Sys2Proof/Machine/FrameBytes.lean ====
section
/-!
DEFINITION. An ingest frame as bytes: its header (Table 4.2) and what follows it.
-/

namespace Sys2Proof.Machine

/-- The ingest header (Table 4.2). -/
def headerBytes (f : Frame) : List Byte :=
  let off := match f.body with
    | .apdu h _ _ => h.length
    | _ => 0
  leBytes 1 f.src ++ leBytes 1 ((if f.slot.isSome = true then 1 else 0) + (if f.synth = true then 2 else 0) + (if f.regressed = true then 4 else 0)) ++
  leBytes 2 ((f.slot.map Fin.val).getD 0) ++ leBytes 6 f.rxCycle.toNat ++ leBytes 2 f.zcOffset.toNat ++ leBytes 1 f.snr.toNat ++
  leBytes 1 (f.hops.toNat + 8 * f.rxPhase.toNat) ++ leBytes 2 f.txnTag.toNat ++ leBytes 4 f.rxTime.toNat ++ leBytes 1 f.fcsKind ++
  leBytes 1 0 ++ leBytes 2 off ++ leBytes 8 0

/-- The bytes that follow the ingest header. -/
def bodyBytes : FrameBody → List Byte
  | .apdu h a c => h ++ a ++ c
  | .bundle b _ => bundleBytes b
  | .entry e => entryData e
  | .mirror r => recordData r
  | .built r => recordData r

/-- Bytes of a relay-bundle entry (Table 4.14), padded to a multiple of 4. -/
def entryBytes (e : RelayEntry) : Nat := 20 + ((payloadBytes e.payload).length + 3) / 4 * 4

/-- The frame as which a bundle entry stands in its lane. -/
def entryFrame (e : RelayEntry) (src : Nat) : Frame :=
  ⟨src, none, e.synth, e.regressed, e.rxCycle, e.zcOffset, e.snr, e.hops, e.rxPhase, 0xFFFF, e.rxTime, 0, true, [], .entry e⟩

/-- A frame's bytes as its producer writes them. -/
def frameData (f : Frame) : List Byte := headerBytes f ++ bodyBytes f.body

end Sys2Proof.Machine
end

