-- ==== Sys2Proof/Machine/FabricBytes.lean ====
section
/-!
DEFINITION. What Herwyn carries, as bytes: packets (Tables 12.1, 12.2), link words (R357), HELLO (Table 12.4), MSYNC (Table 12.5) and
CHAIN_DATA (Table 12.6), and what such bytes say.
-/

namespace Sys2Proof

open Machine

/-! ## The header of a received packet (Table 12.1); reserved bits are not read (R9) -/

/-- TYPE. -/
def HwlHeader.typ (l : HwlHeader) : Nat := fieldAt l.head 0 1

/-- VC. -/
def HwlHeader.vc (l : HwlHeader) : Nat := fieldAt l.head 1 1 % 4

/-- CLASS. -/
def HwlHeader.cls (l : HwlHeader) : Nat := fieldAt l.head 1 1 / 4 % 4

/-- FLOOD. -/
def HwlHeader.flood (l : HwlHeader) : Bool := (l.head.getD 1 0).getLsbD 4

/-- DST. -/
def HwlHeader.dst (l : HwlHeader) : NodeId := BitVec.ofNat 6 (fieldAt l.head 2 1)

/-- SRC. -/
def HwlHeader.src (l : HwlHeader) : NodeId := BitVec.ofNat 6 (fieldAt l.head 3 1)

/-- HOPS. -/
def HwlHeader.hops (l : HwlHeader) : Nat := fieldAt l.head 4 1 % 32

/-- LENGTH. -/
def HwlHeader.length (l : HwlHeader) : Nat := fieldAt l.head 6 2

/-- LSEQ. -/
def HwlHeader.lseq (l : HwlHeader) : BitVec 16 := BitVec.ofNat 16 (fieldAt l.head 8 2)

/-- TAG. -/
def HwlHeader.tag (l : HwlHeader) : BitVec 32 := BitVec.ofNat 32 (fieldAt l.head 12 4)

/-- The LCRC verifies over the header and payload as received (R356, R360). -/
def HwlHeader.lcrcOk (l : HwlHeader) : Bool := decide (l.lcrc = crc32c (l.head ++ l.payload))

namespace Machine

/-! ## Packets as sent -/

/-- TYPE of a packet (Table 12.2). -/
def HwlBody.typ : HwlBody → Nat
  | .hello _ => 0x01
  | .helloAck _ _ => 0x02
  | .announce .. => 0x03
  | .pair .. => 0x04
  | .heartbeat => 0x05
  | .leave _ => 0x06
  | .mrec _ => 0x10
  | .mest _ => 0x11
  | .mfeed _ => 0x12
  | .mjob _ _ => 0x13
  | .mctx _ => 0x14
  | .cut _ _ => 0x15
  | .msync .. => 0x16
  | .handback => 0x17
  | .mack _ => 0x18
  | .mnak _ => 0x19
  | .syncReq _ _ => 0x1A
  | .digest .. => 0x1B
  | .digestReq .. => 0x1C
  | .digestResult .. => 0x1D
  | .fwdEntry _ => 0x20
  | .seqReq _ => 0x21
  | .actionReq .. => 0x22
  | .job _ => 0x23
  | .report _ => 0x24
  | .reset _ => 0x25
  | .chainData .. => 0x30
  | .chainAck _ _ => 0x31
  | .chainResult .. => 0x32

/-- Virtual channel of a TYPE (Table 12.2). -/
def typeVc (typ : Nat) : Nat :=
  if 0x30 ≤ typ then 3 else if 0x20 ≤ typ then 2 else if 0x10 ≤ typ ∧ typ ≤ 0x17 then 1 else 0

/-- Virtual channel of a packet. -/
def HwlBody.vc (b : HwlBody) : Nat := typeVc b.typ

/-- Zero bytes to the next multiple of 4. -/
def padTo4 (bs : List Byte) : List Byte := bs ++ List.replicate ((4 - bs.length % 4) % 4) 0

/-- A job descriptor with its attachment (Table 13.3). -/
def jobBytes (j : Job) : List Byte := jobHead j ++ leBytes 4 j.hdr.dcrc.toNat ++ attachment j

/-- The most that a packet's payload holds (Table 12.1). -/
def payloadMax : Nat := 4096

/-- What a SEQ_REQ, MJOB or MCTX carries of its work. -/
def SeqWork.bytes : SeqWork → List Byte
  | .legal g op => padTo4 ((Config.legalJobBytes g.toNat op).take payloadMax)
  | .context b => padTo4 ((Config.contextJobBytes b).take payloadMax)

/-- The bits of a list of blocks: 32 bytes (DIGEST_REQ). -/
def blockBitmap (blocks : List Nat) : List Byte :=
  (List.range 32).map fun k => BitVec.ofNat 8 ((List.range 8).foldl (fun a n => a + bitOf (decide (8 * k + n ∈ blocks)) n) 0)

/-- LEVELS of a PAIR (Table 12.2). -/
def pairLevels (inHigh query answer : Bool) : Nat := bitOf inHigh 0 + bitOf query 1 + bitOf answer 2

/-- The payload of a packet (Table 12.2). -/
def HwlBody.payload : HwlBody → List Byte
  | .hello bs => bs
  | .helloAck bs mac => bs ++ mac
  | .announce serial node ports state =>
    leBytes 8 serial.toNat ++ leBytes 1 node.toNat ++ leBytes 1 ((List.range 4).foldl (fun a p => a + ports.getD p 0 % 4 * 4 ^ p) 0) ++
      leBytes 1 state ++ [0]
  | .pair named rejoin base inHigh query answer =>
    leBytes 1 named ++ leBytes 1 (bitOf rejoin 0) ++ leBytes 4 base.toNat ++ leBytes 1 (pairLevels inHigh query answer) ++ [0]
  | .heartbeat => []
  | .leave cause => leBytes 4 cause
  | .mrec r => recordData r
  | .mest r => recordData r
  | .mfeed f => feederBytes f ++ leBytes 4 (feederCrc f).toNat
  | .mjob g op => (SeqWork.legal g op).bytes
  | .mctx b => (SeqWork.context b).bytes
  | .cut id lane => leBytes 4 id ++ leBytes 1 lane ++ [0, 0, 0]
  | .msync g reason part parts data => leBytes 4 (g.toNat + 2 ^ 20 * (reason % 16)) ++ leBytes 1 part ++ leBytes 1 parts ++ [0, 0] ++ data
  | .handback => []
  | .mack m => leBytes 4 m.toNat
  | .mnak m => leBytes 4 m.toNat
  | .syncReq g reason => leBytes 4 g.toNat ++ leBytes 4 reason
  | .digest id range first ds => leBytes 4 id ++ leBytes 1 range ++ leBytes 1 first ++ leBytes 1 ds.length ++ [0] ++ ds.flatten
  | .digestReq id range blocks => leBytes 4 id ++ leBytes 1 range ++ [0, 0, 0] ++ blockBitmap blocks
  | .digestResult id range slots =>
    padTo4 (leBytes 4 id ++ leBytes 1 range ++ [0] ++ leBytes 2 slots.length ++ slots.flatMap (leBytes 2))
  | .fwdEntry e => headerBytes (entryFrame e 8) ++ entryData e
  | .seqReq w => w.bytes
  | .actionReq g action score kinds =>
    leBytes 4 g.toNat ++ leBytes 1 action ++ [0] ++ leBytes 2 score ++ leBytes 1 kinds ++ [0, 0, 0]
  | .job j => padTo4 (jobBytes j)
  | .report r => (reportBytes r).take payloadMax
  | .reset j => padTo4 (jobBytes j)
  | .chainData tag offset total data => padTo4 (leBytes 4 tag.toNat ++ leBytes 4 offset ++ leBytes 4 total ++ [0, 0, 0, 0] ++ data)
  | .chainAck tag next => leBytes 4 tag.toNat ++ leBytes 4 next
  | .chainResult tag node result => leBytes 4 tag.toNat ++ leBytes 1 node.toNat ++ leBytes 1 result ++ [0, 0]

/-- LENGTH of a packet's payload. -/
def HwlBody.length (b : HwlBody) : Nat := b.payload.length

/-- The header of a packet under an LSEQ (Table 12.1). -/
def packetHeader (lseq : BitVec 16) (k : HwlPacket) : List Byte :=
  leBytes 1 k.typ ++ leBytes 1 (k.vc + 4 * k.cls + bitOf k.flood 4) ++ leBytes 1 k.dst.toNat ++ leBytes 1 k.src.toNat ++ leBytes 1 k.hops ++
    [0] ++ leBytes 2 k.payload.length ++ leBytes 2 lseq.toNat ++ [0, 0] ++ leBytes 4 k.tag.toNat

/-- A packet under an LSEQ with its LCRC (R356). -/
def packetBytes (lseq : BitVec 16) (k : HwlPacket) : List Byte :=
  let b := packetHeader lseq k ++ k.payload
  b ++ leBytes 4 (crc32c b).toNat

/-- A packet of a body. -/
def packetOf (b : HwlBody) (cls : Nat) (flood : Bool) (dst src : NodeId) (hops : Nat) (tag : BitVec 32) : HwlPacket :=
  ⟨b.typ, b.vc, cls, flood, dst, src, hops, tag, b.payload⟩

/-! ## Link words (R357) -/

/-- The control block of a link word: block type, KIND, and bytes 2 to 7. -/
def linkWordBytes (kind : Nat) (fields : List Byte) : List Byte := leBytes 1 0x5A ++ leBytes 1 kind ++ (fields ++ List.replicate 6 0).take 6

/-- CREDIT: VC, CLASS and units of 64 bytes. -/
def creditWord (vc cls units : Nat) : List Byte := linkWordBytes 1 (leBytes 1 (vc + 4 * cls) ++ leBytes 2 units)

/-- ACK: the highest LSEQ received in order. -/
def ackWord (lseq : BitVec 16) : List Byte := linkWordBytes 2 (leBytes 2 lseq.toNat)

/-- NAK: the LSEQ expected next. -/
def nakWord (lseq : BitVec 16) : List Byte := linkWordBytes 3 (leBytes 2 lseq.toNat)

/-! ## HELLO (Table 12.4) -/

/-- A HELLO's fields: serial, FABRIC_ID, sending port and, with COORD_VALID, the coordinate. -/
structure Hello where
  serial : BitVec 64
  fabricId : Nat
  port : Nat
  coord : Option (Nat × Nat)
  deriving DecidableEq, Repr

/-- The 48 bytes of a HELLO with its nonce. -/
def helloBytes (h : Hello) (nonce : List Byte) : List Byte :=
  leBytes 8 h.serial.toNat ++ leBytes 4 h.fabricId ++ leBytes 1 h.port ++ leBytes 1 (bitOf h.coord.isSome 0) ++
    leBytes 1 ((h.coord.map Prod.fst).getD 0) ++ leBytes 1 ((h.coord.map Prod.snd).getD 0) ++ nonce ++ List.replicate 16 0

/-- A HELLO as its bytes say it. -/
def helloOf (bs : List Byte) : Hello :=
  ⟨BitVec.ofNat 64 (fieldAt bs 0 8), fieldAt bs 8 4, fieldAt bs 12 1 % 4,
   if bitAt bs 13 0 = true then some (fieldAt bs 14 1, fieldAt bs 15 1) else none⟩

/-! ## What payloads say -/

/-- A reading record (Table 4.11). -/
def recordOf (bs : List Byte) : Record :=
  { gmn := BitVec.ofNat 20 (fieldAt bs 0 4), src := BitVec.ofNat 4 (fieldAt bs 2 1 / 16), typ := BitVec.ofNat 4 (fieldAt bs 3 1),
    readSeq := BitVec.ofNat 32 (fieldAt bs 4 4), cycle := BitVec.ofNat 48 (fieldAt bs 8 6), rxFlags := BitVec.ofNat 16 (fieldAt bs 14 2),
    meterTime := BitVec.ofNat 32 (fieldAt bs 16 4), rxTime := BitVec.ofNat 32 (fieldAt bs 20 4),
    impAct := BitVec.ofNat 40 (fieldAt bs 24 5), expAct := BitVec.ofNat 40 (fieldAt bs 29 5), impReact := BitVec.ofNat 40 (fieldAt bs 34 5),
    expReact := BitVec.ofNat 40 (fieldAt bs 39 5), voltage := BitVec.ofNat 16 (fieldAt bs 44 2), current := BitVec.ofNat 16 (fieldAt bs 46 2),
    meterFlags := BitVec.ofNat 8 (fieldAt bs 48 1), hops := BitVec.ofNat 3 (fieldAt bs 49 1), rxPhase := BitVec.ofNat 2 (fieldAt bs 49 1 / 8),
    snr := BitVec.ofNat 8 (fieldAt bs 50 1), zcOffset := BitVec.ofNat 16 (fieldAt bs 52 2), vflags := BitVec.ofNat 16 (fieldAt bs 54 2),
    verdict := BitVec.ofNat 3 (fieldAt bs 56 1), rule := BitVec.ofNat 5 (fieldAt bs 56 1 / 8), gap := BitVec.ofNat 8 (fieldAt bs 57 1),
    seqGap := BitVec.ofNat 16 (fieldAt bs 58 2), rck := BitVec.ofNat 32 (fieldAt bs 60 4) }

/-- A feeder record (Table 6.9). -/
def feederOf (bs : List Byte) : FeederRecord :=
  let g := fieldAt bs 0 4 % 2 ^ 20
  { node := BitVec.ofNat 6 (g / 16384), phase := g % 16384, seq := fieldAt bs 4 4, cycle := fieldAt bs 8 6,
    rxFlags := BitVec.ofNat 16 (fieldAt bs 14 2), stamp := fieldAt bs 16 4, energy := rowAt bs 24 5 4, voltage := fieldAt bs 44 2,
    current := fieldAt bs 46 2, short := bitAt bs 48 0, snapshot := bitAt bs 48 1, phaseAbsent := bitAt bs 48 2, clipped := bitAt bs 48 3,
    neutral := fieldAt bs 50 2, i2t := fieldAt bs 54 6, earth := fieldAt bs 52 2 }

/-- A closed-period record (Table 6.5). -/
def closedOfBytes (bs : List Byte) : ClosedPeriod :=
  { gmn := BitVec.ofNat 20 (fieldAt bs 0 4), periodIndex := fieldAt bs 4 4, periodEnd := fieldAt bs 8 4, tariffId := fieldAt bs 12 4,
    rate := rowAt bs 16 8 64, total := rowAt bs 528 8 4,
    demand := (List.range 4).map fun d => (fieldAt bs (560 + 8 * d) 4, fieldAt bs (564 + 8 * d) 4),
    credit := signedAt bs 592 8, forced := bitAt bs 600 0, estimated := bitAt bs 600 1, late := bitAt bs 600 2,
    crc := BitVec.ofNat 32 (fieldAt bs 636 4) }

/-- Validation state (Table 5.5). -/
def valOf (bs : List Byte) : ValState :=
  ⟨BitVec.ofNat 32 (fieldAt bs 0 4), BitVec.ofNat 32 (fieldAt bs 4 4), rowAt bs 8 5 4, fieldAt bs 28 4, fieldAt bs 32 6, fieldAt bs 38 4,
   fieldAt bs 42 1 % 16, bitAt bs 42 4, bitAt bs 42 5, fieldAt bs 44 2, fieldAt bs 46 2, fieldAt bs 48 2, fieldAt bs 50 2⟩

/-- PLC link state (Table 8.9). -/
def plcLinkOf (bs : List Byte) : PlcLink :=
  ⟨fieldAt bs 0 1 % 4, bitAt bs 0 2, bitAt bs 0 3, bitAt bs 0 4, fieldAt bs 1 1, BitVec.ofNat 24 (fieldAt bs 2 3), fieldAt bs 5 1,
   rowAt bs 6 1 3, fieldAt bs 10 4⟩

/-- Radio link state (Table 9.7). -/
def radioLinkOf (bs : List Byte) : RadioLink :=
  ⟨fieldAt bs 0 1 % 4, bitAt bs 0 2, fieldAt bs 0 1 / 8 % 4, fieldAt bs 0 1 / 32 % 2, fieldAt bs 0 1 / 64 % 2, bitAt bs 0 7,
   fieldAt bs 1 1 % 16, fieldAt bs 1 1 / 16, fieldAt bs 2 2, signedAt bs 4 4, signedAt bs 8 2, fieldAt bs 10 4, fieldAt bs 14 1⟩

/-- Transaction state (Table 10.5). -/
def txnStateOf (bs : List Byte) : TxnState := ⟨fieldAt bs 0 2, bitAt bs 2 0, fieldAt bs 3 1, fieldAt bs 4 2⟩

/-- Balance state (Table 7.7). -/
def balStateOf (bs : List Byte) : BalState :=
  { group := fieldAt bs 0 1, regPhase := fieldAt bs 1 1 % 8, detPhase := fieldAt bs 1 1 / 8 % 8, member := bitAt bs 1 6,
    exportAllowed := bitAt bs 1 7, phaseRun := fieldAt bs 2 1, phaseCand := fieldAt bs 3 1 % 4, mismatch := bitAt bs 3 2, moved := bitAt bs 3 3,
    stepPending := bitAt bs 3 4, holdIssued := bitAt bs 3 5, discIssued := bitAt bs 3 6, above := bitAt bs 3 7, score := fieldAt bs 4 2,
    components := rowAt bs 6 2 6, corr := signedAt bs 18 2, beta := signedAt bs 20 4, snapImp := fieldAt bs 24 5, snapExp := fieldAt bs 29 5,
    snapId := fieldAt bs 34 2, flagsSeen := fieldAt bs 36 1, sigSteps := fieldAt bs 37 1, postCount := fieldAt bs 38 1,
    stepTime := fieldAt bs 40 4, flagsTime := fieldAt bs 44 4, reverseTime := fieldAt bs 48 4, preMean := signedAt bs 52 4 }

/-- The mirrored part of a context entry, bytes 12 to 27 and 80 to 247 (Table 12.5), as 184 bytes. -/
def mirroredBytes (c : Context) : List Byte := partOf (contextBody c) 12 16 ++ partOf (contextBody c) 80 168

/-- The mirrored parts of a context that 184 bytes say, put into an entry, which keeps the others (R374). -/
def withMirrored (c : Context) (bs : List Byte) : Context :=
  { c with rxIc := BitVec.ofNat 32 (fieldAt bs 0 4), window := BitVec.ofNat 64 (fieldAt bs 4 8), txIc := BitVec.ofNat 32 (fieldAt bs 12 4),
           val := valOf (bs.drop 16), plc := plcLinkOf (bs.drop 72), radio := radioLinkOf (bs.drop 88), txn := txnStateOf (bs.drop 104),
           bal := balStateOf (bs.drop 112) }

/-- The DATA of an MSYNC's parts (Table 12.5): the context's bytes and the legal slot, then up to six closed-period records each. -/
def syncData (c : Context) (v : LegalSlot) (closed : List ClosedPeriod) : List (List Byte) :=
  (mirroredBytes c ++ slotBytes v) ::
    (List.range ((closed.length + 5) / 6)).map fun k => ((closed.drop (6 * k)).take 6).flatMap closedData

/-- `n` pieces of `k` bytes. -/
def pieces (k : Nat) : Nat → List Byte → List (List Byte)
  | 0, _ => []
  | n + 1, bs => bs.take k :: pieces k n (bs.drop k)

/-- The blocks of a bitmap of 32 bytes. -/
def blocksOf (bs : List Byte) : List Nat := (List.range 256).filter fun b => bitAt bs (b / 8) (b % 8)

/-- A payload is as long as its TYPE has it (Table 12.2); jobs, entries and reports are of many lengths. -/
def payloadOk (typ : Nat) (bs : List Byte) : Bool :=
  let n := bs.length
  match typ with
  | 0x01 => decide (n = 48)
  | 0x02 => decide (n = 64)
  | 0x03 => decide (n = 12)
  | 0x04 => decide (n = 8)
  | 0x05 => decide (n = 0)
  | 0x06 => decide (n = 4)
  | 0x10 => decide (n = 64)
  | 0x11 => decide (n = 64)
  | 0x12 => decide (n = 64)
  | 0x15 => decide (n = 8)
  | 0x16 => decide (1 ≤ fieldAt bs 5 1 ∧ fieldAt bs 5 1 ≤ 5 ∧ fieldAt bs 4 1 < fieldAt bs 5 1) &&
      (if fieldAt bs 4 1 = 0 then decide (n = 1216) else decide (8 < n ∧ (n - 8) % 640 = 0 ∧ n ≤ 3848))
  | 0x17 => decide (n = 0)
  | 0x18 => decide (n = 4)
  | 0x19 => decide (n = 4)
  | 0x1A => decide (n = 8)
  | 0x1B => decide (8 ≤ n ∧ n = 8 + 64 * fieldAt bs 6 1)
  | 0x1C => decide (n = 40)
  | 0x1D => decide (8 ≤ n ∧ n = (8 + 2 * fieldAt bs 6 2 + 3) / 4 * 4)
  | 0x22 => decide (n = 12)
  | 0x30 => decide (16 ≤ n)
  | 0x31 => decide (n = 8)
  | 0x32 => decide (n = 8)
  | _ => decide (0 < n)

/-- A received packet is of a TYPE and formed as Tables 12.1 and 12.2 have it; one that is not is discarded as of no valid TYPE (DESIGN
CHOICE for a LENGTH or payload that does not fit its TYPE, notes/assumptions/178.md). -/
def packetFits (l : HwlHeader) (typ : Nat) : Bool :=
  decide (l.typ = typ ∧ l.length = l.payload.length ∧ l.payload.length ≤ payloadMax ∧ l.payload.length % 4 = 0) && payloadOk typ l.payload

end Machine

end Sys2Proof
end

