-- ==== Sys2Proof/Machine/FabricSend.lean ====
section
/-!
DEFINITION. Sending on Herwyn: packets, credits, the replay buffer and the mirror stream (R356 to R360, R366 to R370).
-/

namespace Sys2Proof.Machine

/-! ## Packets (R356, R358) -/

/-- Credit units of 64 bytes that a packet needs: header, payload and LCRC (R358). -/
def HwlPacket.units (p : HwlPacket) : Nat := (16 + p.payload.length + 4 + 63) / 64

/-- A share of a receive buffer in credit units: 8 KiB on VC0, a third of 32 KiB or 16 KiB on the others (R358). -/
def shareUnits (vc : Nat) : Nat := if vc = 0 then 128 else if vc = 1 then 170 else 85

/-- The index of a virtual channel and class. -/
def creditKey (vc cls : Nat) : Nat := vc * 3 + cls

/-- A port in reset or DOWN: nothing queued, nothing known of the neighbour. -/
def HwlPort.down : HwlPort := ⟨.down, false, none, none, 0, 0, [], 0, 0, [], [], 0, 0, none, 0, [], none, [], none, false⟩

/-- A port of the node. -/
def State.hport (s : State) (p : Nat) : HwlPort := s.hwl.ports.getD p HwlPort.down

/-- Replace a port. -/
def State.setHport (s : State) (p : Nat) (v : HwlPort) : State :=
  { s with hwl := { s.hwl with ports := s.hwl.ports.set p v } }

/-- Credits held on a port. -/
def HwlPort.credit (v : HwlPort) (vc cls : Nat) : Nat := Table.get 0 v.credits (creditKey vc cls)

/-- The first waiting packet that may be sent: the port UP, room in the replay buffer, and credits for it.  A packet
waits only behind earlier ones of its own channel and class. -/
def HwlPort.sendable (v : HwlPort) : Option HwlPacket :=
  if v.state ≠ .up ∨ 64 ≤ v.replay.length then none
  else v.waiting.find? fun p => decide (p.units ≤ v.credit p.vc p.cls) &&
    decide ((v.waiting.find? fun q => decide (q.vc = p.vc ∧ q.cls = p.cls)) = some p)

/-- Send one packet: its credits are spent, it takes the next LSEQ and enters the replay buffer (R358, R359). -/
def State.hwlTransmit (s : State) (p : Nat) (k : HwlPacket) : State :=
  let v := s.hport p
  let v1 := { v with waiting := v.waiting.erase k, nextTx := v.nextTx + 1, replay := v.replay ++ [(v.nextTx, k)],
                     credits := Table.set 0 v.credits (creditKey k.vc k.cls) (v.credit k.vc k.cls - k.units) }
  ((s.setHport p v1).emit (.hwlPacket p (packetBytes v.nextTx k))).bump (cPortPacketsTx p)

/-- Note whether a packet waits for credit, and count the µs it waited (CREDIT_STALL_US). -/
def State.noteStall (s : State) (p : Nat) : State :=
  let v := s.hport p
  let blocked := decide (v.state = .up ∧ v.replay.length < 64 ∧ v.waiting ≠ [])
  match v.stalled with
  | none => if blocked = true then s.setHport p { v with stalled := some s.now } else s
  | some t => if blocked = true then s else (s.setHport p { v with stalled := none }).bumpBy (cPortCreditStallUs p) ((s.now - t) * 125 / 3072)

/-- Send every packet that may go; `n` bounds the count. -/
def State.hwlPump (s : State) (p : Nat) : Nat → State
  | 0 => s.noteStall p
  | n + 1 =>
    match (s.hport p).sendable with
    | none => s.noteStall p
    | some k => (s.hwlTransmit p k).hwlPump p n

/-- Queue a packet on a port and send what may go. -/
def State.hwlQueue (s : State) (p : Nat) (k : HwlPacket) : State :=
  let v := s.hport p
  let s1 := s.setHport p { v with waiting := v.waiting ++ [k] }
  s1.hwlPump p (s1.hport p).waiting.length

/-- No route. -/
def Route.none : Route := ⟨0, false, false, 0⟩

/-- The route to a node (HWL_ROUTE_d). -/
def State.routeTo (s : State) (d : Nat) : Route := Table.get Route.none s.hwl.routes d

/-- The link behind a port crosses a dateline (R365). -/
def State.wraps (s : State) (p : Nat) : Bool :=
  (decide (p = 0) && decide (s.hwl.x + 1 = s.item iTorusW)) || (decide (p = 1) && decide (s.hwl.x = 0)) ||
    (decide (p = 2) && decide (s.hwl.y + 1 = s.item iTorusH)) || (decide (p = 3) && decide (s.hwl.y = 0))

/-- The class of a packet on the link of a port: 2 once diverted; a turn from X to Y returns it to 0; 1 from a dateline on. -/
def State.hopClass (s : State) (p cls : Nat) (diverted turn : Bool) : Nat :=
  if cls = 2 ∨ diverted = true then 2 else if s.wraps p = true then 1 else if turn = true then 0 else cls

/-- Send a packet of this node to another (R365).  A node that the routes do not reach counts UNREACHABLE. -/
def State.hwlSend (s : State) (d : Nat) (tag : BitVec 32) (b : HwlBody) : State :=
  let r := s.routeTo d
  if r.reachable = false then s.note cHwlUnreachable .operations .second 0 d
  else s.hwlQueue r.port (packetOf b (s.hopClass r.port 0 r.diverted false) false (BitVec.ofNat 6 d) s.hwl.nodeId 0 tag)

/-- Flood a packet of this node on every up port (R364). -/
def State.hwlFlood (s : State) (tag : BitVec 32) (b : HwlBody) : State :=
  ((List.range 4).filter fun p => decide ((s.hport p).state = .up)).foldl
    (fun st p => st.hwlQueue p (packetOf b 0 true 0 st.hwl.nodeId 0 tag)) s

/-! ## The mirror stream (R368 to R370) -/

/-- The node mirrors: head-end, paired with a partner that is not lost. -/
def State.mirroring (s : State) : Bool := s.boot.headEnd && s.hwl.paired && !s.hwl.partnerLost

/-- A head-end node whose partner has neither paired nor been declared lost: HWL accepts nothing for the mirror yet, so that records and
changes of own meters wait (R18, R19, R367; DEDUCED, notes/assumptions/167.md). -/
def State.mirrorAwaited (s : State) : Bool := s.boot.headEnd && s.hwl.assigned && !s.hwl.paired && !s.hwl.partnerLost

/-- Room for `n` more packets in the mirror window (R370). -/
def State.mirrorRoom (s : State) (n : Nat) : Bool :=
  !s.mirrorAwaited && (!s.mirroring || decide (s.hwl.window.length + n ≤ s.item iMirrorWindow))

/-- A packet of the mirror stream under the next MSEQ (R368). -/
def State.streamNext (s : State) (b : HwlBody) : State :=
  if s.mirroring = false then s
  else
    let m := s.hwl.mseqOut
    let s1 := { s with hwl := { s.hwl with mseqOut := m + 1, window := s.hwl.window ++ [(m, b)] } }
    (s1.hwlSend (s.partner.getD 0) m b).bump cHwlMirrorOut

/-- The packets of a meter's MSYNC, in order (R374). -/
def State.syncBodies (s : State) (i reason : Nat) : List HwlBody :=
  let data := syncData (s.ctxAt i) (s.slotAt i) (s.closedOf i)
  data.zipIdx.map fun d => .msync (s.ctxAt i).gmn reason d.2 data.length d.1

/-- Send a meter's whole state in the stream (R372, R374, R378, R386). -/
def State.mirrorSync (s : State) (i reason : Nat) : State :=
  ((s.syncBodies i reason).foldl State.streamNext s).bump cHwlSyncSent

/-- The record of a packet of the stream that fails its RCK as the sender reads it (R360): its meter. -/
def HwlBody.spoiltMeter : HwlBody → Option Gmn
  | .mrec r => if recordOk r = true then none else some r.gmn
  | .mest r => if recordOk r = true then none else some r.gmn
  | _ => none

/-- Hand a packet to the mirror stream (R368).  A record whose RCK fails at the sender is counted and not sent: an MSYNC of its meter takes
its MSEQ (R360, R370). -/
def State.mirrorSend (s : State) (b : HwlBody) : State :=
  match b.spoiltMeter with
  | none => s.streamNext b
  | some g => if s.mirroring = false then s else match s.heldIndex g with
    | some i => (s.bump cHwlRckFail).mirrorSync i 0
    | none => s.bump cHwlRckFail

/-- A report that waits for the mirror's acknowledgement of the packet just handed to the stream (R18, R373). -/
def State.heldByMirror (s : State) (ds : List ReportDest) (r : Report) : State :=
  if s.mirroring = true then
    { s with hwl := { s.hwl with heldReports := s.hwl.heldReports ++ [⟨s.hwl.mseqOut - 1, ds, r⟩] } }
  else ds.foldl (fun st d => st.enqueue d { r with unmirrored := s.boot.headEnd && s.hwl.partnerLost }) s

/-- Forward a relay-bundle entry to the primary of its meter, or by a returning node to the survivor (R23, R385): counted as a
misdelivery. -/
def State.forwardEntry (s : State) (e : RelayEntry) : State :=
  let d := if s.hwl.ownRange = false then s.partner.getD 0 else gmnNode e.gmn
  (s.hwlSend d 0 (.fwdEntry e)).bump cSplitMisdelivery

end Sys2Proof.Machine
end

