-- ==== Sys2Proof/Machine/TxnOps.lean ====
section
/-!
DEFINITION. The transaction engine's operations: tags and generations, the pending queue, deadlines, retries and
completion (R305 to R321).
-/

namespace Sys2Proof.Machine

/-! ## Tags (R305 to R308) -/

/-- A FREE tag of generation zero. -/
def Tag.fresh : Tag := ⟨.free, 0, none, 0, .none, 0, none, 0, 0, 0⟩

/-- The tag numbered `t`. -/
def State.tagAt (s : State) (t : Nat) : Tag := Table.get Tag.fresh s.txn.tags t

/-- Replace a tag. -/
def State.setTag (s : State) (t : Nat) (v : Tag) : State :=
  { s with txn := { s.txn with tags := Table.set Tag.fresh s.txn.tags t v } }

/-- The 16-bit name of a transaction (R305). -/
def tagName (t gen : Nat) : Nat := t + 1024 * gen

/-- The generation after `gen` for tag `t`: six bits, and tag 1 023 never takes 63 (R305). -/
def nextGen (t gen : Nat) : Nat := if t = 1023 ∧ gen = 62 then 0 else (gen + 1) % 64

/-- A tag is ISSUED or in RETRY_WAIT. -/
def Tag.outstanding (v : Tag) : Bool := decide (v.state = .issued ∨ v.state = .retryWait)

/-- The free tag that was freed least recently (R306); of equals, the lowest. -/
def State.freeTag (s : State) : Option Nat :=
  (List.range 1024).foldl (fun best t =>
    if (s.tagAt t).state ≠ .free then best
    else match best with
      | none => some t
      | some b => if (s.tagAt t).freed < (s.tagAt b).freed then some t else best) none

/-- Kinds of Table 10.3. -/
def TxnBody.kind : TxnBody → Nat
  | .read _ => 1
  | .supply _ => 2
  | .hold _ => 2
  | .clock => 2
  | .push _ _ => 3
  | .snapshot _ => 4
  | .broadcast _ => 5
  | .relay _ => 6

/-- The index of the meter that a request is for; a broadcast is for none. -/
def State.reqIndex (s : State) (r : Request) : Option Nat := if r.body.kind = 5 then none else s.heldIndex r.gmn

/-- Quarantine in ms by the medium of the last attempt (R307). -/
def State.quarantineMs (s : State) (m : Medium) (kind : Nat) : Nat :=
  1000 * (s.item iQuarExtra + 2 +
    (if 4 ≤ kind then 0 else match m with
      | .plc => 8
      | .radio => s.item iTtlMax
      | .relay => 0
      | .none => 0))

/-! ## Media and ports (R315, R319, R324) -/

/-- In the head-end role, the field node's peer through which a meter is reached (R319, R421). -/
def State.fieldPeer (s : State) (i : Nat) : Option (Fin 32) :=
  match Table.get 0 s.ing.via i with
  | 0 => none
  | v + 1 =>
    let id := s.itemField (iSender v) 0 4
    (s.peersWith 3).find? fun p => decide ((s.peer p.val).peerId = id)

/-- The medium of the next attempt, and whether the last retry switches media (R315). -/
def State.nextMedium (s : State) (r : Request) (attempts : Nat) : Medium × Bool :=
  match s.reqIndex r with
  | none => (if r.medium = .radio then .radio else .plc, false)
  | some i =>
    let c := s.ctxAt i
    if s.boot.headEnd = true ∧ (Table.get 0 s.ing.via i) ≠ 0 then (.relay, false)
    else if r.medium = .plc ∨ r.medium = .radio then (r.medium, false)
    else
      let last := decide (0 < attempts ∧ attempts = s.item iTxnRetries)
      if c.txn.radioLast = true then
        if last = true ∧ c.plc.bestPhase ≠ 0 then (.plc, true) else (.radio, false)
      else if last = true ∧ c.radio.dist ≠ 0 then (.radio, true) else (.plc, false)

/-- Attempts already made for a request. -/
def State.attemptsOf (s : State) (r : Request) : Nat :=
  match r.tag with
  | none => 0
  | some t => (s.tagAt t).attempts

/-- The issue port of a request: executor 12 PLC, 13 RF0, 14 RF1, 15 NET. -/
def State.portOf (s : State) (r : Request) : Nat :=
  match (s.nextMedium r (s.attemptsOf r)).1 with
  | .radio => 13 + (match s.reqIndex r with
      | some i => (s.ctxAt i).radio.radio
      | none => if s.item iRf0Band = 0 then 1 else 0)
  | .relay => 15
  | _ => 12

/-- The kind of issue task that a port runs (Table 10.7). -/
def issueKind (x : Nat) : Nat := if x = 12 then 18 else if x = 15 then 20 else 19

/-! ## The pending queue (R316) -/

/-- The meter has a transaction of kind 1 to 3 ISSUED or in RETRY_WAIT (R311). -/
def State.meterBusy (s : State) (g : Gmn) : Bool :=
  match s.heldIndex g with
  | none => false
  | some i => decide ((s.ctxAt i).txn.active ≠ 0xFFFF)

/-- A request is ready: released, and its meter free or the request the retry of its own transaction. -/
def State.requestReady (s : State) (r : Request) : Bool :=
  r.released && (r.tag.isSome || !(decide (r.body.kind ≤ 3) && s.meterBusy r.gmn))

/-- The ready requests of a port. -/
def State.readyOn (s : State) (x : Nat) : List Request :=
  s.txn.pending.filter fun r => s.requestReady r && decide (s.portOf r = x)

/-- Issue tasks of a port that have not yet run. -/
def State.issuesWaiting (s : State) (x : Nat) : Nat :=
  (s.cch.waiting.filter fun t => decide (t.kind = issueKind x ∧ t.exec = x - 11)).length

/-- Post issue tasks until ISSUE_TASKS_MAX or the ready requests are covered, or a post fails. -/
def State.postIssues (s : State) (x : Nat) : Nat → State
  | 0 => s
  | n + 1 =>
    match s.post (s.taskFor (issueKind x) (x - 11) 0) with
    | (s1, true) => s1.postIssues x n
    | (s1, false) => s1

/-- Keep the issue tasks of every port up to its ready requests (R325, R329). -/
def State.topUpIssues (s : State) : State :=
  if s.txn.tagWait = true then s
  else [12, 13, 14, 15].foldl (fun st x =>
    st.postIssues x (min (st.item iIssueTasksMax) (st.readyOn x).length - st.issuesWaiting x)) s

/-- Raise or lower the meter's PENDING count. -/
def State.countPending (s : State) (r : Request) (up : Bool) : State :=
  match s.reqIndex r with
  | none => s
  | some i => s.modCtx i fun c =>
    { c with txn := { c.txn with pending := if up = true then satAdd 16 c.txn.pending 1 else c.txn.pending - 1 } }

/-- Put a request in the pending queue without looking at its room. -/
def State.pushRequest (s : State) (r : Request) : State :=
  ({ s with txn := { s.txn with pending := s.txn.pending ++ [r] } }).countPending r true

/-- Take a request out of the pending queue. -/
def State.pullRequest (s : State) (r : Request) : State :=
  ({ s with txn := { s.txn with pending := s.txn.pending.erase r } }).countPending r false

/-- The pending queue is full. -/
def State.pendingFull (s : State) : Bool := decide (32768 ≤ s.txn.pending.length)

/-- A schedule's request (R316): merged, dropped when the queue is full, or queued. -/
def State.scheduleRequest (s : State) (r : Request) : State :=
  if s.txn.pending.any (fun q => decide (q.gmn = r.gmn ∧ q.schedule = r.schedule)) = true then s.bump cTxnMerged
  else if s.pendingFull = true then
    (s.raiseInt 0x0D0008 0).note cTxnPendingFull .operations .interval 0 0
  else s.pushRequest r

/-- Release requests whose cycle has been numbered; with SKIP_IF_HEARD a meter heard since the boundary drops its
request (R317).  Retries are released by their own step. -/
def State.releaseRequest (s : State) (r : Request) : State :=
  if r.released = true ∨ r.tag.isSome ∨ s.cyc.num < r.release then s
  else
    let heard := match r.heardLimit, s.heldIndex r.gmn with
      | some b, some i => decide (b ≤ (s.ctxAt i).plc.lastHeard)
      | _, _ => false
    if heard = true then (s.pullRequest r).bump cTxnSkippedHeard
    else { s with txn := { s.txn with pending := s.txn.pending.map fun q => if q = r then { q with released := true } else q } }

/-- Release what a numbered cycle makes ready, and post issue tasks. -/
def State.releaseRequests (s : State) : State := (s.txn.pending.foldl State.releaseRequest s).topUpIssues

/-! ## Completion (R309, R313, R314) -/

/-- The counter of an outcome of R412. -/
def outcomeCounter : Nat → Counter
  | 0 => cTxnAnswered
  | 1 => cTxnNoAnswer
  | 2 => cTxnLinkFail
  | 3 => cTxnCancelled
  | 4 => cTxnRemoved
  | 5 => cTxnNotOwner
  | _ => cTxnUnverified

/-- The meter's transaction fields after an outcome. -/
def TxnState.after (t : TxnState) (outcome : Nat) : TxnState :=
  { t with active := 0xFFFF,
           noAnswer := if outcome = 1 ∨ outcome = 2 then satAdd 8 t.noAnswer 1
                       else if outcome = 0 ∨ outcome = 6 then 0 else t.noAnswer }

/-- Report a completed transaction: to its job, unless the final report waits for a record (R409), and a TXN_OUTCOME for
a schedule's transaction that ended NO_ANSWER or LINK_FAIL. -/
def State.reportOutcome (s : State) (r : Request) (name outcome : Nat) (deferred : Bool) : State :=
  let s1 := match r.job with
    | some j => if deferred = true then s else s.finalAnswer ⟨j, name, outcome⟩
    | none => s
  match r.schedule with
  | some k => if outcome = 1 ∨ outcome = 2 then s1.reportOut (.txnOutcome r.gmn.toNat name outcome k) else s1
  | none => s1

/-- A frame of an attempt that is over leaves its transmit queue; one whose ACK is awaited no longer stands for the tag
(DEDUCED, notes/assumptions/31.md). -/
def State.unlink (s : State) (t : Nat) : State :=
  let keepP (x : PlcTx) : Option PlcTx := if x.work ≠ .request t then some x else if x.awaiting = true then some { x with work := .keepAlive } else none
  let keepM (x : MeshTx) : Option MeshTx := if x.work ≠ .request t then some x else if x.awaiting = true then some { x with work := .keepAlive } else none
  { s with plc := { s.plc with tx := s.plc.tx.filterMap keepP }, rfm := { s.rfm with tx := s.rfm.tx.filterMap keepM } }

/-- A campaign. -/
def State.camp (s : State) (c : Nat) : Option Campaign := Table.get none s.upd.campaigns c

/-- Replace a campaign. -/
def State.setCamp (s : State) (c : Nat) (v : Option Campaign) : State :=
  { s with upd := { s.upd with campaigns := Table.set none s.upd.campaigns c v } }

/-- The status read of a campaign's meter is over (R505). -/
def State.statusReadOver (s : State) (k : Option Nat) (g : Gmn) : State :=
  match k with
  | none => s
  | some c => match s.camp c with
    | none => s
    | some v => s.setCamp c (some { v with meters := v.meters.map fun (m : CampMeter) => if m.gmn = g then { m with reading := false } else m })

/-- Complete a transaction with an outcome: quarantine, counters, the meter's state, the completion task and reports. -/
def State.completeTxn (s : State) (t : Nat) (outcome : Nat) (deferred : Bool) : State :=
  let v := s.tagAt t
  match v.request with
  | none => s
  | some r =>
    let rest := s.ms + s.quarantineMs v.medium r.body.kind
    let s1 := (s.unlink t).setTag t { v with state := .quarantine, request := none, deadline := none, restUntil := rest }
    let s2 := (s1.txn.pending.filter fun q => decide (q.tag = some t)).foldl State.pullRequest s1
    let s3 := match s2.reqIndex r with
      | some i => s2.modCtx i fun c => { c with txn := c.txn.after outcome }
      | none => s2
    let s4 := s3.bump (outcomeCounter outcome)
    let s5 := if outcome = 1 ∨ outcome = 2 then s4.raiseInt 0x0D0008 3 else s4
    let s6 := (s5.post (s5.taskFor 17 0 t)).1
    ((s6.statusReadOver r.campaign r.gmn).reportOutcome r (tagName t v.gen) outcome deferred).topUpIssues

/-- An attempt fails, at the link layer or by its deadline (R314). -/
def State.failAttempt (s : State) (t : Nat) (link : Bool) : State :=
  let v := s.tagAt t
  match v.request with
  | none => s
  | some r =>
    if v.state ≠ .issued then s
    else if v.attempts ≤ s.item iTxnRetries then
      let back := s.item iRetryBackoff
      let s1 := (s.unlink t).setTag t { v with state := .retryWait, deadline := none }
      s1.pushRequest { r with tag := some t, released := false, release := s.cyc.num + (if back = 0 then 1 else back) }
    else s.completeTxn t (if link = true then 2 else 1) false

/-- The link layer reports the first transmission of an attempt: its deadline starts (R313, Table 10.4). -/
def State.txnSent (s : State) (t : Nat) : State :=
  let v := s.tagAt t
  if v.state ≠ .issued ∨ v.deadline.isSome = true then s
  else
    let ms := match v.medium with
      | .plc => 1000 * s.item iTimeoutPlc
      | .radio => 1000 * (s.item iTimeoutRf + 2 * v.flood)
      | .relay => 1000 * s.item iRelayTimeout
      | .none => 0
    s.setTag t { v with deadline := some (s.ms + ms) }

/-- The tag that a frame names, if it is outstanding with the frame's generation and the frame's source is its meter. -/
def State.answers (s : State) (name : Nat) (g : Gmn) : Option Nat :=
  let v := s.tagAt (name % 1024)
  if name ≠ 0xFFFF ∧ v.outstanding = true ∧ v.gen = name / 1024 ∧ (v.request.map Request.gmn) = some g then some (name % 1024)
  else none

/-- The pre-check of a tagged frame (R309, Table 10.2): the state and whether the frame goes on to ING. -/
def State.preCheck (s : State) (name : Nat) (src : Option Gmn) : State × Bool :=
  if name = 0xFFFF then (s, true)
  else
    let v := s.tagAt (name % 1024)
    let who := (src.map fun g => g.toNat).getD 0
    if v.gen ≠ name / 1024 ∨ v.state = .free then (s.noteMeter cTxnStaleGen .operations .interval who 0, false)
    else if v.state = .quarantine then (s.noteMeter cTxnLateDup .operations .interval who 0, false)
    else if src.isSome ∧ (v.request.map Request.gmn) = src then (s, true)
    else ((s.raiseInt 0x0D0008 2).noteMeter cTxnTagMismatch .security .interval who 0, false)

/-- A push goes on with its next block: the same tag, attempts counted afresh (Table 10.3, PUSH). -/
def State.nextBlock (s : State) (t : Nat) (v : Tag) (r : Request) : State :=
  let s1 := s.setTag t { v with state := .retryWait, deadline := none, attempts := 0, blocksDone := v.blocksDone + 1 }
  (s1.pushRequest { r with tag := some t, released := true, release := s.cyc.num }).topUpIssues

/-- What the answer to a transaction's request does (R309, R314, R315): a push goes on to its next block, a hold is released, or the
transaction completes. -/
def State.requestAnswered (s1 : State) (t : Nat) (v : Tag) (r : Request) (name outcome : Nat) : State × Option FinalHeld :=
  match r.body with
  | .push _ n =>
    if v.blocksDone + 1 < n then
      let s2 := (s1.txn.pending.filter fun q => decide (q.tag = some t)).foldl State.pullRequest s1
      (s2.nextBlock t v r, none)
    else (s1.completeTxn t outcome false, none)
  | .read _ => (s1.completeTxn t outcome true, r.job.map fun j => ⟨j, name, outcome⟩)
  | .hold set =>
    let s2 := match s1.heldIndex r.gmn with
      | some i => s1.modCtx i fun c => { c with bal := { c.bal with holdIssued := set && c.bal.holdIssued } }
      | none => s1
    (s2.completeTxn t outcome false, none)
  | _ => (s1.completeTxn t outcome false, none)

/-- An answer passes the completing check (R309, R315): LAST_MEDIUM is set, and the transaction completes, or a push
goes on.  The result carries the job whose final report waits for the record. -/
def State.answered (s : State) (name : Nat) (g : Gmn) (radio : Bool) (outcome : Nat) : State × Option FinalHeld :=
  match s.answers name g with
  | none => (if name = 0xFFFF then s else s.bump cTxnLateResponse, none)
  | some t =>
    let v := s.tagAt t
    let s1 := match s.heldIndex g with
      | some i => s.modCtx i fun c => { c with txn := { c.txn with radioLast := radio, noAnswer := 0 } }
      | none => s
    match v.request with
    | none => (s1, none)
    | some r => s1.requestAnswered t v r name outcome

/-- Every request and transaction of a removed meter ends (R320). -/
def State.dropMeter (s : State) (g : Gmn) : State :=
  let s1 := (List.range 1024).foldl (fun st t =>
    if (st.tagAt t).outstanding = true ∧ ((st.tagAt t).request.map Request.gmn) = some g ∧
        ((st.tagAt t).request.map fun r => r.body.kind) ≠ some 5 then st.completeTxn t 4 false else st) s
  (s1.txn.pending.filter fun r => decide (r.gmn = g ∧ r.body.kind ≠ 5)).foldl State.pullRequest s1

/-! ## Start (R310) -/

/-- Advance every generation and free every tag, in AON SRAM's keeping. -/
def State.advanceGens (s : State) : State :=
  let tags := (List.range 1024).foldl (fun tb t =>
    let v := Table.get Tag.fresh tb t
    Table.set Tag.fresh tb t { Tag.fresh with gen := nextGen t v.gen }) s.txn.tags
  { s with txn := ⟨tags, [], false, false, false, 0, []⟩ }

/-- AON SRAM was lost: every tag rests from the moment credits open, and GEN_RESEEDED is set.  The operations event is
MGC's 0x81, written with the loss (DEDUCED: Table 17.4 lists no other, notes/assumptions/32.md). -/
def State.reseedGens (s : State) : State := { s with txn := ⟨[], [], true, true, false, 0, []⟩ }

/-- Credits open: tags reseeded after a loss of AON SRAM begin their rest, for the largest Q of R307. -/
def State.reseedRest (s : State) : State :=
  if s.txn.reseedPending = false then s
  else
    let q := max (s.quarantineMs .plc 1) (s.quarantineMs .radio 1)
    let tags := (List.range 1024).foldl (fun tb t =>
      Table.set Tag.fresh tb t { Tag.fresh with state := .quarantine, restUntil := s.ms + q }) []
    { s with txn := { s.txn with tags := tags, reseedPending := false } }

end Sys2Proof.Machine
end

