-- ==== Sys2Proof/Machine/IngestOps.lean ====
section
/-!
DEFINITION. ING's operations: credits and FIFOs, steering, the context cache, the replay rules, the pass-to-firmware ring
and the outbound bundle (R101 to R137).
-/

namespace Sys2Proof.Machine

/-! ## FIFOs and credits (R101 to R105) -/

/-- Capacity of a FIFO in FIFO words (Table 4.1). -/
def fifoSize (src : Nat) : Nat := if src = 5 ∨ src = 6 ∨ src = 7 then 2048 else if src = 8 then 1024 else 512

/-- Largest frame accepted, ingest header included (Table 4.1). -/
def frameLimit (src : Nat) : Nat :=
  if src ≤ 4 then 2080 else if src ≤ 7 then 16416 else if src = 8 then 4128 else 96

/-- FIFO words of a number of bytes (R103). -/
def fifoWords (bytes : Nat) : Nat := (bytes + 15) / 16

/-- A 16-bit word as a producer writes it: its parity bit (even parity: DESIGN CHOICE, notes/assumptions/139.md) and its marks (R103). -/
structure PortWord where
  data : BitVec 16
  parity : Bool
  first : Bool
  last : Bool
  odd : Bool
  deriving DecidableEq, Repr

/-- The parity bit of a 16-bit word. -/
def parity16 (w : BitVec 16) : Bool := (List.range 16).foldl (fun a i => a ^^ w.getLsbD i) false

/-- The words of a frame's bytes: START on the first, END on the last, ODD where the last holds only its low byte. -/
def portWords (first : Bool) : List Byte → List PortWord
  | [] => []
  | [a] => let w := a.setWidth 16; [⟨w, parity16 w, first, true, true⟩]
  | a :: b :: t => let w := (b ++ a : BitVec 16); ⟨w, parity16 w, first, decide (t = []), false⟩ :: portWords false t

/-- Eight words, the missing ones zero, as one FIFO word: word k at bits 16 k + 15 to 16 k (R103). -/
def packWord (ws : List PortWord) (last : Bool) : FifoWord :=
  let z : PortWord := ⟨0, false, false, false, false⟩
  ⟨(List.range 8).foldl (fun a k => a ||| ((ws.getD k z).data.setWidth 128 <<< (16 * k))) 0,
   (List.range 8).foldl (fun a k => a ||| ((if (ws.getD k z).parity = true then 1#8 else 0) <<< k)) 0, last,
   if last = true then ws.foldl (fun a w => a + (if w.odd = true then 1 else 2)) 0 else 16⟩

/-- ING packs the words of a frame into `n` FIFO words, LAST on the last. -/
def packWords : Nat → List PortWord → List FifoWord
  | 0, _ => []
  | n + 1, ws => packWord (ws.take 8) (decide (n = 0)) :: packWords n (ws.drop 8)

/-- The FIFO words of a frame's bytes. -/
def fifoData (bs : List Byte) : List FifoWord := packWords (fifoWords bs.length) (portWords true bs)

/-- A frame's length, its ingest header of 32 bytes included. -/
def frameLen (f : Frame) : Nat := 32 + (bodyBytes f.body).length

/-- FCK, computed at FIFO entry over the ingest header and the frame's bytes (Table 4.3). -/
def frameFck (f : Frame) : Word := crc32c (frameData f)

/-- The link FCS of a frame verifies over its link header and APDU: CRC-16 or CRC-32 by FCS_KIND; another kind fails (Table 4.2, R253). -/
def fcsHolds (f : Frame) : Bool :=
  match f.body with
  | .apdu h a c => if f.fcsKind = 0 then true else if f.fcsKind = 1 then c == leBytes 2 (crc16 (h ++ a)).toNat
      else f.fcsKind == 2 && c == leBytes 4 (crc32 (h ++ a)).toNat
  | _ => decide (f.fcsKind ≤ 2)

/-- A FIFO's contents. -/
def State.fifo (s : State) (n : Nat) : List Ticketed := s.ing.fifos.getD n []

/-- Words held. -/
def wordsOf (l : List Ticketed) : Nat := l.foldl (fun a t => a + t.data.length) 0

/-- Words held in FIFO n (FIFO_STAT_n.LEVEL). -/
def State.fifoLevel (s : State) (n : Nat) : Nat := wordsOf (s.fifo n)

/-- FIFO_THR_n.THRESHOLD. -/
def State.fifoThreshold (s : State) (n : Nat) : Nat := (s.reg (0x120140 + 4 * n)).toNat % 4096

/-- Set THR_n when the level reaches the threshold, once until it has fallen below (R104). -/
def State.checkThreshold (s : State) (n : Nat) : State :=
  let t := s.fifoThreshold n
  let high := s.ing.thrHigh.getD n false
  let reached := decide (t ≠ 0 ∧ t ≤ s.fifoLevel n)
  let s1 := { s with ing := { s.ing with thrHigh := s.ing.thrHigh.set n reached } }
  if reached = true ∧ high = false then s1.raiseInt 0x120004 n else s1

/-- An entrance drop: SRC_DROP_n and an operations event of SET 5 (R102, R19, R513). -/
def State.entranceDrop (s : State) (src : Nat) (oversize : Bool) : State :=
  (s.bumpHalf (0x120180 + 4 * src) oversize).event .operations 18 (2 * src + (if oversize = true then 1 else 0)) 5 0

/-- The next arrival ticket (R107). -/
def State.takeTicket (s : State) : State := { s with ing := { s.ing with ticket := s.ing.ticket + 1 } }

/-- Credits of a source are open (R56): sources 5 to 9 of a head-end node only once its node ID is assigned. -/
def State.creditsFor (s : State) (src : Nat) : Bool :=
  s.ing.creditsOpen && (!s.boot.headEnd || s.hwl.assigned || decide (src < 5 ∨ 9 < src))

/-- A frame fits: its source exists, it is not oversize, credits are open and cover it. -/
def State.frameFits (s : State) (f : Frame) : Bool :=
  decide (f.src ≤ 10 ∧ frameLen f ≤ frameLimit f.src) && s.creditsFor f.src &&
    decide (fifoWords (frameLen f) ≤ s.ing.credits.getD f.src 0)

/-- The last word of a frame is written (R102, R103, R107).  An oversize frame, and a PLC or RF frame without credits, is
dropped at the entrance; the other producers keep a frame until they hold credits for it. -/
def State.ingestFrame (s : State) (f : Frame) : State :=
  if 10 < f.src then s
  else if frameLimit f.src < frameLen f then s.entranceDrop f.src true
  else if s.frameFits f = false then (if f.src ≤ 4 then s.entranceDrop f.src false else s)
  else
    let d := fifoData (frameData f)
    let i := s.ing
    let i1 := { i with credits := i.credits.set f.src (i.credits.getD f.src 0 - d.length),
                       fifos := i.fifos.set f.src (i.fifos.getD f.src [] ++ [Ticketed.mk i.ticket d (.frame f)]) }
    ({ s with ing := i1 }.takeTicket).checkThreshold f.src

/-- A context operation takes a ticket for its lane (R116). -/
def State.queueOp (s : State) (lane : Fin 4) (o : CtxOp) : State :=
  ({ s with ing := { s.ing with inner := s.ing.inner ++ [Ticketed.mk s.ing.ticket [] (.op o lane)] } }).takeTicket

/-- The lane of an index. -/
def laneOf (i : Nat) : Fin 4 := ⟨i % 4, Nat.mod_lt _ (by decide)⟩

/-! ## Steering (R107) -/

/-- A ticket was given before another: the counter wraps at 32 bits, and fewer than 2³¹ tickets are out at once. -/
def ticketBefore (a b : BitVec 32) : Bool := decide (2 ^ 31 ≤ (a - b).toNat)

/-- The item with the earliest ticket at the heads of the FIFOs and of the inner queue: FIFO number, 11 for the inner one. -/
def State.nextTicketed (s : State) : Option (Nat × Ticketed) :=
  let heads := (List.range 11).filterMap fun n => (s.fifo n).head?.map fun t => (n, t)
  let all := heads ++ (s.ing.inner.head?.map fun t => (11, t)).toList
  match all with
  | [] => none
  | h :: t => some (t.foldl (fun a b => if ticketBefore b.2.ticket a.2.ticket = true then b else a) h)

/-- Read the head of a FIFO: its credits start back to the producer (R102). -/
def State.readFifo (s : State) (n : Nat) (t : Ticketed) : State :=
  if n = 11 then { s with ing := { s.ing with inner := s.ing.inner.tail } }
  else
    let i := s.ing
    ({ s with ing := { i with fifos := i.fifos.set n (i.fifos.getD n []).tail,
                              returning := i.returning.set n (i.returning.getD n 0 + t.data.length) } }).checkThreshold n

/-- A lane's items. -/
def State.lane (s : State) (l : Nat) : List LaneItem := s.ing.lanes.getD l []

/-- The lane buffer holds 64 FIFO words or more. -/
def State.laneFull (s : State) (l : Nat) : Bool := decide (64 ≤ wordsOf ((s.lane l).map LaneItem.item))

/-- Where a ticketed item goes: a lane with its context index, the splitter, or nowhere (no slot). -/
inductive SteerTo where
  | lane (l : Nat) (index : Option Nat)
  | splitter
  | noSlot
  deriving DecidableEq, Repr

/-- The meter that a context job names (R116). -/
def jobGmn : JobBody → Option Gmn
  | .balanceMembership g _ _ _ => some g
  | .enrolMeter a => some a.gmn
  | .removeMeter g => some g
  | .keyChange g _ _ _ => some g
  | .counterReset g _ _ => some g
  | _ => none

/-- The context index of a context operation; a barrier has none. -/
def State.opIndex (s : State) : CtxOp → Option Nat
  | .job j _ _ => match jobGmn j with
    | some g => s.indexFor g
    | none => none
  | .legal g _ _ _ => s.indexFor g
  | .freeze i _ => some i
  | .sync g _ _ _ _ => s.indexFor g
  | .barrier _ _ => none

/-- The context index of a bundle entry; a FEEDER entry is of no meter (Table 6.9). -/
def State.entryIndex (s : State) (e : RelayEntry) : Option Nat :=
  match e.payload with
  | .feeder _ _ => none
  | _ => s.indexFor e.gmn

/-- Steering's rule (R107). -/
def State.steerTo (s : State) : LaneBody → SteerTo
  | .op o l => .lane l.val (s.opIndex o)
  | .entry e _ _ => .lane (e.gmn.toNat % 4) (s.entryIndex e)
  | .frame f =>
    match f.body with
    | .bundle _ _ => .splitter
    | .entry e => .lane (e.gmn.toNat % 4) (s.entryIndex e)
    | .mirror r => .lane (r.gmn.toNat % 4) (s.indexFor r.gmn)
    | .built r => match f.slot, s.indexFor r.gmn with
      | some i, some j => .lane (i.val % 4) (some (if j % 16384 = i.val then j else i.val))
      | some i, none => .lane (i.val % 4) (some i.val)
      | none, _ => .noSlot
    | _ => match f.slot with
      | some i => .lane (i.val % 4) (some i.val)
      | none => .noSlot

/-- Put an item in a lane. -/
def State.pushLane (s : State) (l : Nat) (i : Option Nat) (t : Ticketed) : State :=
  { s with ing := { s.ing with lanes := s.ing.lanes.set l (s.lane l ++ [⟨i, false, t⟩]) } }

/-- The source of a ticketed item. -/
def LaneBody.src : LaneBody → Nat
  | .frame f => f.src
  | .entry _ src _ => src
  | .op _ _ => 0

/-- Read the next ticketed item into its lane or the splitter; a full lane or a busy splitter makes steering wait. -/
def State.steer (s : State) : State :=
  match s.nextTicketed with
  | none => s
  | some (n, t) =>
    match s.steerTo t.body with
    | .splitter => if s.ing.splitter ≠ [] then s else
        let s1 := s.readFifo n t
        { s1 with ing := { s1.ing with splitter := [t] } }
    | .lane l i => if s.laneFull l = true then s else (s.readFifo n t).pushLane l i t
    | .noSlot => (s.readFifo n t).note cSplitNoSlot .operations .interval (t.body.src + 1) 0

/-! ## The context cache (R115) -/

/-- An empty set. -/
def CacheSet.empty : CacheSet :=
  ⟨List.replicate 8 none, List.replicate 8 false, List.replicate 7 false⟩

/-- A tree bit as a number. -/
def CacheSet.bit (c : CacheSet) (n : Nat) : Nat := if c.tree.getD n false = true then 1 else 0

/-- The ways of a pair, the one that the tree points to first. -/
def CacheSet.pairWays (c : CacheSet) (p : Nat) : List Nat := [2 * p + c.bit (3 + p), 2 * p + (1 - c.bit (3 + p))]

/-- The ways of a half, in the order in which R115 tries them. -/
def CacheSet.halfWays (c : CacheSet) (h : Nat) : List Nat :=
  c.pairWays (2 * h + c.bit (1 + h)) ++ c.pairWays (2 * h + (1 - c.bit (1 + h)))

/-- The victim of R115: the lowest invalid way, else the first way in tree order that is not busy. -/
def CacheSet.victim (c : CacheSet) (busy : Nat → Bool) : Option Nat :=
  match (List.range 8).find? fun w => (c.ways.getD w none).isNone with
  | some w => some w
  | none => (c.halfWays (c.bit 0) ++ c.halfWays (1 - c.bit 0)).find? fun w => !busy w

/-- Point every bit on the path to `w` at the half that does not hold it (R115). -/
def CacheSet.touch (c : CacheSet) (w : Nat) : CacheSet :=
  let t0 := c.tree.set 0 (decide (w < 4))
  let t1 := t0.set (1 + w / 4) (decide (w % 4 < 2))
  { c with tree := t1.set (3 + w / 2) (decide (w % 2 = 0)) }

/-- The set number of an index within its bank, keyed with the bank. -/
def cacheKey (i : Nat) : Nat := (i % 4) * 128 + i / 4 % 128

/-- The tag of an index. -/
def cacheTag (i : Nat) : Nat := i / 512

/-- The set of an index. -/
def State.cacheSet (s : State) (i : Nat) : CacheSet := Table.get CacheSet.empty s.ing.cache (cacheKey i)

/-- Replace the set of an index. -/
def State.setCache (s : State) (i : Nat) (c : CacheSet) : State :=
  { s with ing := { s.ing with cache := Table.set CacheSet.empty s.ing.cache (cacheKey i) c } }

/-- The way that holds an index. -/
def CacheSet.find (c : CacheSet) (tag : Nat) : Option Nat := (List.range 8).find? fun w => c.ways.getD w none == some tag

/-- The index whose entry a way of a set holds. -/
def wayIndex (key tag : Nat) : Nat := tag * 512 + (key % 128) * 4 + key / 128

/-- A way is busy: its fill is outstanding, or an item of its meter waits in the lane (R115). -/
def State.wayBusy (s : State) (i : Nat) (w : Nat) : Bool :=
  let c := s.cacheSet i
  c.filling.getD w false ||
    match c.ways.getD w none with
    | some tag => (s.lane (i % 4)).any fun x => x.waiting && decide (x.index = some (wayIndex (cacheKey i) tag))
    | none => false

/-- Outstanding fills of a lane. -/
def State.laneFills (s : State) (l : Nat) : List Nat := s.ing.fills.getD l []

/-- Start a fill (R108): `none` while eight are outstanding or every way is busy. -/
def State.startFill (s : State) (i : Nat) : Option State :=
  let l := i % 4
  if 8 ≤ (s.laneFills l).length then none
  else match (s.cacheSet i).victim (s.wayBusy i) with
    | none => none
    | some w =>
      let c := s.cacheSet i
      let s1 := s.setCache i { c with ways := c.ways.set w (some (cacheTag i)), filling := c.filling.set w true }
      some { s1 with ing := { s1.ing with fills := s1.ing.fills.set l (s.laneFills l ++ [i]) } }

/-- End a fill: the way becomes valid and is touched, or is invalidated. -/
def State.endFill (s : State) (i : Nat) (ok : Bool) : State :=
  let l := i % 4
  let s1 := { s with ing := { s.ing with fills := s.ing.fills.set l ((s.laneFills l).erase i) } }
  let c := s1.cacheSet i
  match c.find (cacheTag i) with
  | none => s1
  | some w =>
    let c1 := { c with filling := c.filling.set w false }
    s1.setCache i (if ok = true then c1.touch w else { c1 with ways := c1.ways.set w none })

/-- Invalidate the way of an index, with its key store (R112, R440).  A way whose fill is outstanding stays: its fill reads the context and
unwraps the keys as they are when it completes. -/
def State.evict (s : State) (i : Nat) : State :=
  let c := s.cacheSet i
  match c.find (cacheTag i) with
  | none => s
  | some w => if c.filling.getD w false = true then s else s.setCache i { c with ways := c.ways.set w none }

/-- The context is in the cache, its fill complete. -/
def State.cached (s : State) (i : Nat) : Bool :=
  let c := s.cacheSet i
  match c.find (cacheTag i) with
  | none => false
  | some w => !c.filling.getD w false

/-- Touch at a hit. -/
def State.touchCache (s : State) (i : Nat) : State :=
  let c := s.cacheSet i
  match c.find (cacheTag i) with
  | none => s
  | some w => s.setCache i (c.touch w)

/-! ## Keys of a context (R115) -/

/-- A system title's bytes in transmission order. -/
def titleBytes (t : BitVec 64) : List Byte := leBytes 8 t.toNat

/-- EK and AK of a context as its cache way's key store holds them (R115): unwrapped under KEY_SLOT, of the generation recorded at
wrapping. -/
def State.contextKeys (s : State) (c : Context) : Option (List Byte × List Byte) :=
  if s.slotGen c.keySlot ≠ c.keyGen then none
  else match s.unwrapUnder c.keySlot c.ekWrapped, s.unwrapUnder c.keySlot c.akWrapped with
    | some ek, some ak => some (ek, ak)
    | _, _ => none

/-- The keys of a context can be unwrapped. -/
def State.keysUnwrap (s : State) (c : Context) : Bool := (s.contextKeys c).isSome

/-! ## Replay protection (R120) -/

/-- Outcomes of Table 4.6. -/
inductive IcOutcome where
  | advance | windowed (k : Nat) | repeated | replayed
  deriving DecidableEq, Repr

/-- Judge an invocation counter against RX_IC and WINDOW with REPLAY_WINDOW `w`. -/
def judgeIc (rxIc : BitVec 32) (window : BitVec 64) (w : Nat) (ic : BitVec 32) : IcOutcome :=
  if rxIc.toNat < ic.toNat then .advance
  else if ic = rxIc then .repeated
  else if rxIc.toNat ≤ ic.toNat + w ∧ window.getLsbD (rxIc.toNat - ic.toNat - 1) = false then .windowed (rxIc.toNat - ic.toNat - 1)
  else .replayed

/-- RX_IC and WINDOW after a verified frame (R120, R121). -/
def acceptIc (rxIc : BitVec 32) (window : BitVec 64) (ic : BitVec 32) : IcOutcome → BitVec 32 × BitVec 64
  | .advance =>
    let d := ic.toNat - rxIc.toNat
    (ic, if d ≤ 64 then (window <<< d) ||| (1#64 <<< (d - 1)) else 0)
  | .windowed k => (rxIc, window ||| (1#64 <<< k))
  | .repeated => (rxIc, window)
  | .replayed => (rxIc, window)

/-! ## The pass-to-firmware ring (R126, R127) -/

/-- READ_INDEX, which firmware advances (FW_QUEUE). -/
def State.fwRead (s : State) : Nat := (s.reg 0x120200).toNat / 65536

/-- The slot that lies `n` after READ_INDEX: both indices run round the ring of FW_QUEUE_SLOTS (DEDUCED, notes/assumptions/23.md). -/
def State.fwNext (s : State) (n : Nat) : Nat := (s.fwRead + n) % s.item iFwQueueSlots

/-- READ_INDEX takes a value: the slots from the old one up to it are free again. -/
def State.advanceFwRead (s : State) (v : Word) : State :=
  let n := s.item iFwQueueSlots
  let freed := (v.toNat / 65536 % n + n - s.fwRead % n) % n
  ({ s with ing := { s.ing with fwUsed := s.ing.fwUsed - freed } }).setReg 0x120200 (v &&& 0xFFFF0000#32)

/-- Slots that an entry of so many stored bytes needs (R126). -/
def fwSlots (apduBytes : Nat) : Nat := max 1 ((64 + apduBytes + 1023) / 1024)

/-- Free slots of the ring. -/
def State.fwFree (s : State) : Nat := s.item iFwQueueSlots - s.ing.fwUsed

/-- What an entry stores after its header (R126): the APDU, decrypted where ING decrypted it, or the whole frame where not.  A bundle
entry's frame is its APDU. -/
def storedBytes (reason : Nat) (f : Frame) (a plain : Apdu) : List Byte :=
  if 3 ≤ reason then plain
  else match f.body with
    | .apdu h _ c => h ++ a ++ c
    | _ => a

/-- Pass a frame to firmware (R126): an entry, FW_COUNT and a task of kind 16, or a drop when slots are short (R127). -/
def State.toFirmware (s : State) (lane i reason : Nat) (f : Frame) (stored : List Byte) (ans : Option FinalHeld) : State :=
  let n := fwSlots stored.length
  if s.fwFree < n then
    ((s.raiseInt 0x120004 11).note (cLaneFwQueueDrop lane) .operations .none 0 0).finalAnswer? ans
  else
    let s1 := { s with ing := { s.ing with fwWrite := (s.ing.fwWrite + n) % s.item iFwQueueSlots,
                                           fwUsed := s.ing.fwUsed + n,
                                           fwRing := s.ing.fwRing ++ [FwEntry.mk i reason n s.now f stored (crc32c stored) ans] } }
    let s2 := (s1.bump (cLaneToFirmware lane)).modCtx i fun c => { c with fwCount := satAdd 32 c.fwCount 1 }
    (s2.post (s2.taskFor 16 0 i)).1

/-! ## The outbound bundle (R132, R133, R137) -/

/-- The node sends relay bundles: field role with a SENDER identity. -/
def State.sendsBundles (s : State) : Bool := !s.boot.headEnd && s.ownSender.isSome

/-- BUNDLE_SEQ advances; MGC renews the sequence reservation once it comes within 32 768 of it, or where no reservation written by
MGC stands ahead of it (R137). -/
def State.advanceBundleSeq (s : State) : State :=
  let q := (s.ing.outSeq + 1) % 2 ^ 32
  let s1 := { s with ing := { s.ing with outSeq := q } }
  let ahead := (s1.nor.bundleSeq + 2 ^ 32 - q) % 2 ^ 32
  if ahead ≤ 32768 ∨ 65536 < ahead then { s1 with nor := { s1.nor with bundleSeq := (q + 65536) % 2 ^ 32 } } else s1

/-- An outbound bundle with its CMAC under the KEY_SLOT of the node's own SENDER item; `none` where the slot is not usable, and then the
bundle is not sent (R134, R433). -/
def State.sealBundle (s : State) (b : RelayBundle) : Option RelayBundle :=
  (s.cmacUnder (s.itemField (iSender (s.ownSender.getD 0)) 4 1) (bundleBody b)).map fun c => { b with cmac := c }

/-- Close the outbound bundle and send it (R137).  With no entry there is nothing to close. -/
def State.closeBundle (s : State) : State :=
  if s.ing.outEntries = [] then s
  else
    let k := s.ownSender.getD 0
    let b : RelayBundle := ⟨bundleMagic, 1, s.ing.outEntries.length, 48 + s.ing.outBytes, BitVec.ofNat 32 (s.itemField (iSender k) 0 4),
      BitVec.ofNat 32 s.ing.outSeq, BitVec.ofNat 48 s.cyc.num, s.cyc.synth, s.tim.regressed, s.cyc.rotation, s.ing.outEntries, []⟩
    let s1 := { s with ing := { s.ing with outEntries := [], outBytes := 0, outFirst := none } }
    let s2 := (s1.advanceBundleSeq).bump cSplitBundlesOut
    match s.sealBundle b with
    | some c => s2.sendBundle c
    | none => (s2.bump cSecKeyUseRefused).holdBundle b

/-- Add an entry to the outbound bundle: an entry that would pass 16 384 bytes closes it first, the 255th or, with
BUNDLE_HOLD zero, every entry closes it. -/
def State.addEntry (s : State) (e : RelayEntry) : State :=
  let n := entryBytes e
  let s1 := if 16384 < 48 + s.ing.outBytes + n then s.closeBundle else s
  let i := s1.ing
  let s2 := { s1 with ing := { i with outEntries := i.outEntries ++ [e], outBytes := i.outBytes + n,
                                      outFirst := some (i.outFirst.getD s1.now) } }
  if 255 ≤ s2.ing.outEntries.length ∨ s2.item iBundleHold = 0 then s2.closeBundle else s2

/-- The entry in which a frame travels sealed (R133). -/
def sealedEntry (gmn : Gmn) (f : Frame) (a : Apdu) : RelayEntry :=
  ⟨gmn, f.synth, f.regressed, f.snr, f.hops, f.rxPhase, f.rxCycle, f.zcOffset, f.rxTime, .sealed a⟩

/-- The entry in which a validated record travels (R132), with the cycle of its reception. -/
def recordEntry (r : Record) (rxCycle : BitVec 48) (rxSynth : Bool) : RelayEntry :=
  ⟨r.gmn, rxSynth, r.rxFlags.getLsbD rxTimeRegressed, r.snr, r.hops, r.rxPhase, rxCycle, r.zcOffset, r.rxTime, .record r⟩

end Sys2Proof.Machine
end

