-- ==== Sys2Proof/Machine/StoreQueue.lean ====
section
/-!
DEFINITION. The entrances of Fuller and of BAL, and the reports that wait for Troika, Fuller and the mirror
(R18, R206, R338, R352).
-/

namespace Sys2Proof.Machine

/-! ## Fuller's geometry and levels (R331, R342) -/

/-- A good block that is erased. -/
def Block.fresh : Block := ⟨.free, [], 0, 0, 0, 0, false, false⟩

/-- The block numbered `b`. -/
def Ful.block (f : Ful) (b : Nat) : Block := Table.get Block.fresh f.blocks b

/-- Replace a block. -/
def Ful.setBlock (f : Ful) (b : Nat) (v : Block) : Ful := { f with blocks := Table.set Block.fresh f.blocks b v }

/-- The parameter page of the first chip enable in use, whose geometry all share. -/
def Ful.geometry (f : Ful) : NandCe :=
  match f.used with
  | [] => ⟨0, 0, 0, 0, 0, 0, 0, false, 0⟩
  | c :: _ => (f.ces.getD c none).getD ⟨0, 0, 0, 0, 0, 0, 0, false, 0⟩

/-- Blocks of one chip enable. -/
def Ful.perCe (f : Ful) : Nat := f.geometry.blocks * f.geometry.luns

/-- Blocks of the array in use. -/
def Ful.total (f : Ful) : Nat := f.used.length * f.perCe

/-- Blocks that are retired or carry a factory mark (FUL_BAD). -/
def Ful.badCount (f : Ful) : Nat :=
  (f.blocks.filter fun e => decide (e.2.state = .retired ∨ e.2.state = .factoryBad)).length

/-- Good blocks. -/
def Ful.goodCount (f : Ful) : Nat := f.total - f.badCount

/-- Free blocks: erased good blocks that are not open (R342). -/
def Ful.freeCount (f : Ful) : Nat := f.total - (f.blocks.filter fun e => decide (e.2.state ≠ .free)).length

/-- CRITICAL: fewer than 64 free blocks, or stream 8 held by R336. -/
def Ful.critical (f : Ful) : Bool := decide (f.freeCount < 64) || f.heldForCheckpoint

/-- Bytes accepted and not yet programmed (R338). -/
def Ful.dirtyBytes (f : Ful) : Nat :=
  4096 * f.dirty.length + 64 * ((f.open6.entries.length - f.open6.programmed) + (f.open7.entries.length - f.open7.programmed) +
    (f.open8.entries.length - f.open8.programmed))

/-- Bytes that an item makes dirty when it is accepted. -/
def FulItem.bytes : FulItem → Nat
  | .record _ _ _ _ _ => 64
  | .pair _ _ _ _ _ _ _ _ _ _ => 128
  | .feeder _ _ => 64
  | .journal js => 64 * js.length
  | .group _ => 64
  | .anomaly _ => 64
  | .closed _ _ => 4096
  | .tariff _ _ _ => 4096
  | .meterImage _ _ => 4096

/-- Fuller accepts nothing new: its rebuild, a GASP under way, or a critical lack of blocks (R338, R342, R350). -/
def Ful.shut (f : Ful) : Bool := f.rebuilding || f.stopped || f.critical

/-- Fuller can accept `bytes` more after what waits already (R160, R338). -/
def State.fulRoom (s : State) (bytes : Nat) : Bool :=
  !s.ful.shut && decide (s.ful.dirtyBytes + (s.ful.queue.foldl (fun a i => a + i.bytes) 0) + bytes ≤ s.item iDirtyMax * 2 ^ 20)

/-- Hand an item to Fuller. -/
def State.toFuller (s : State) (i : FulItem) : State := { s with ful := { s.ful with queue := s.ful.queue ++ [i] } }

/-! ## Journal (R352) -/

/-- The stamp of the latest cycle, in seconds since 2020-01-01 TAI. -/
def State.cycleTime (s : State) : Nat :=
  match s.cyc.stamps with
  | [] => s.sec2020
  | c :: _ => c.sec - epoch2020

/-- Hand a journal entry to Fuller. -/
def State.journal (s : State) (gmn : Gmn) (b : JournalBody) : State :=
  s.toFuller (.journal [⟨gmn, s.cyc.num, s.cycleTime, b⟩])

/-- Hand Fuller the context image of an index: eight consecutive entries (R352). -/
def State.journalImage (s : State) (i : Nat) : State :=
  let c := s.ctxAt i
  s.toFuller (.journal ((List.range 8).map fun p => ⟨c.gmn, s.cyc.num, s.cycleTime, .image i p c⟩))

/-! ## Readings whose reports wait (R18, R409) -/

/-- The mirror has acknowledged an MSEQ, or there is no mirror to wait for. -/
def State.mirrorAcked (s : State) : Option (BitVec 32) → Bool
  | none => true
  | some m => !s.mirroring || decide ((s.hwl.mseqAcked - m).toNat < 2 ^ 31)

/-- A reading's report may be issued. -/
def State.readingReady (s : State) (p : PendingReading) : Bool := p.outcome.isSome && p.stored && s.mirrorAcked p.mseq

/-- Issue a reading's report: to the job that it answers, FINAL clear, or unsolicited; then the job's final report (R409). -/
def State.issueReading (s : State) (p : PendingReading) : State :=
  let unm := s.boot.headEnd && s.hwl.partnerLost
  let body := ReportBody.reading (p.outcome.getD 0) p.record
  match p.answer with
  | none => s.route (s.unsolicitedDests 2) ⟨body, .none, true, unm, p.fromMirror, 0, s.hwl.nodeId⟩
  | some f => (s.route (s.jobDest f.job) ⟨body, .none, false, unm, p.fromMirror, f.job.jobId, s.hwl.nodeId⟩).finalAnswer f

/-- Issue every report that may go, keeping the order of each meter (R18): `kept` are those passed over. -/
def State.flushFrom (s : State) : List PendingReading → List PendingReading → State
  | [], kept => { s with readings := { s.readings with waiting := kept.reverse } }
  | p :: rest, kept =>
    if s.readingReady p = true ∧ (kept.all fun q => decide (q.record.gmn ≠ p.record.gmn)) = true then
      (s.issueReading p).flushFrom rest kept
    else s.flushFrom rest (p :: kept)

/-- Issue every report that may go. -/
def State.flushReadings (s : State) : State := s.flushFrom s.readings.waiting []

/-- Enter a released reading; its number names it to Troika and Fuller. -/
def State.openReading (s : State) (r : Record) (mseq : Option (BitVec 32)) (answer : Option FinalHeld) (fromMirror : Bool) : State :=
  { s with readings := ⟨s.readings.next + 1, s.readings.waiting ++ [⟨s.readings.next, r, none, false, mseq, answer, fromMirror⟩]⟩ }

/-- Change the waiting reading of a number, and issue what may go. -/
def State.markReading (s : State) (id : Nat) (f : PendingReading → PendingReading) : State :=
  ({ s with readings := { s.readings with waiting := s.readings.waiting.map fun (p : PendingReading) => if p.id = id then f p else p } }).flushReadings

/-- Troika has decided a reading. -/
def State.readingDecided (s : State) (id outcome : Nat) : State := s.markReading id fun p => { p with outcome := some outcome }

/-- Fuller has accepted a reading. -/
def State.readingStored (s : State) (id : Nat) : State := s.markReading id fun p => { p with stored := true }

/-! ## BAL's entrance (R205, R206) -/

/-- A record or feeder record reaches BAL; a full queue drops it from balance only. -/
def State.toBal (s : State) (i : BalItem) : State :=
  if 4096 ≤ s.bal.queue.length then (s.raiseInt 0x150004 0).note cBalBalDrop .operations .interval 0 0
  else { s with bal := { s.bal with queue := s.bal.queue ++ [i] } }

/-- The SENDER_ROTATION that applies to a meter's frames in the head-end role (R220). -/
def State.rotationFor (s : State) (i : Nat) : Bool :=
  match Table.get 0 s.ing.via i with
  | 0 => false
  | v + 1 => (Table.get (⟨[], 0, false⟩ : SenderState) s.ing.senders v).rotation

/-- A job's report that waits for the mirror's acknowledgement of the packet sent last (R373). -/
def State.finishMirrored (s : State) (j : JobRef) (status : Nat) (reason : Reason) (outcome : Nat) (detail : List Byte) : State :=
  (s.closeJob j).heldByMirror (s.jobDest j)
    ⟨.jobResult status reason.code outcome detail, .none, true, false, false, j.jobId, s.hwl.nodeId⟩

end Sys2Proof.Machine
end

