-- ==== Sys2Proof/Machine/StoreRead.lean ====
section
/-!
DEFINITION. Reading Fuller's logical space: streams, sectors and the entries of stream 8 in stored order (R334, R335).
-/

namespace Sys2Proof.Machine

/-! ## Streams (Table 11.1) -/

/-- Length of stream 6 in sectors, by the control record's BALANCE_MIB (R333). -/
def Ful.len6 (f : Ful) : Nat := ((f.control.map ControlRecord.balanceMib).getD 0) * 256

/-- Length of stream 7 in sectors. -/
def Ful.len7 (f : Ful) : Nat := ((f.control.map ControlRecord.anomalyMib).getD 0) * 256

/-- Length of stream 8 in sectors. -/
def Ful.len8 (f : Ful) : Nat := (f.control.map ControlRecord.len8).getD 0

/-- Base of stream 7. -/
def Ful.base7 (f : Ful) : Nat := 245760 + f.len6

/-- Base of stream 8. -/
def Ful.base8 (f : Ful) : Nat := f.base7 + f.len7

/-- The LSA of a free-running sector number of a circular stream. -/
def ringLsa (base len n : Nat) : Nat := if len = 0 then base else base + n % len

/-- The newest copy of a sector: one that waits for its page, else the one the map points at. -/
def Ful.sector (f : Ful) (lsa : Nat) : Option SectorData :=
  match f.dirty.reverse.find? fun d => decide (d.1 = lsa) with
  | some d => some d.2
  | none => match Table.get none f.map lsa with
    | none => none
    | some l => ((((f.block l.block).pages[l.page]?).map StorePage.sectors).getD []).getD l.pos none |>.map Prod.snd

/-- The entries of one sector of stream 8, with their positions: 64 × the sector's number + the entry's index. -/
def Ful.entriesAt (f : Ful) (n : Nat) : List (Nat × StoreEntry) :=
  match f.sector (ringLsa f.base8 f.len8 n) with
  | some (.entries es) => ((List.range 64).zip es).filterMap fun p => p.2.map fun e => (64 * n + p.1, e)
  | _ => []

/-- The next position of stream 8. -/
def Ful.readPos (f : Ful) : Nat := 64 * f.stream8.head + f.open8.entries.length

/-- Every live entry of stream 8 in stored order (R335), the sector being filled last. -/
def Ful.entries (f : Ful) : List (Nat × StoreEntry) :=
  ((List.range (f.stream8.head - f.stream8.tail)).flatMap fun i => f.entriesAt (f.stream8.tail + i)) ++
    ((List.range 64).zip f.open8.entries).map fun p => (64 * f.stream8.head + p.1, p.2)

/-- The entries that wait at Fuller's entrance, in order. -/
def Ful.arriving (f : Ful) : List StoreEntry :=
  f.queue.flatMap fun i => match i with
    | .record _ r t k d => [.record r t k d]
    | .pair _ e te ke de _ r t k d => [.record e te ke de, .record r t k d]
    | .feeder x _ => [.feeder x]
    | .journal js => js.map StoreEntry.journal
    | _ => []

/-- The meter of an entry. -/
def StoreEntry.gmn : StoreEntry → Gmn
  | .record r _ _ _ => r.gmn
  | .feeder f => BitVec.ofNat 20 (f.node.toNat * 16384 + f.phase)
  | .journal j => j.gmn

/-- A record with what VAL gave Troika. -/
structure StoredRecord where
  record : Record
  tref : Nat
  k : Option Int
  deltas : List (Option Nat)
  deriving DecidableEq, Repr

/-- The record of an entry, if it is one that bills: VERDICT 0, 1 or 4 (R191, R352), its RCK verified (R339). -/
def StoreEntry.billable? : StoreEntry → Option StoredRecord
  | .record r t k d => if (r.verdict = 0 ∨ r.verdict = 1 ∨ r.verdict = 4) ∧ recordOk r = true then some ⟨r, t, k, d⟩ else none
  | _ => none

/-- A journal entry that declines a record with codes 3 to 5 (R352). -/
def StoreEntry.declines (g : Gmn) (seq : BitVec 32) : StoreEntry → Bool
  | .journal j => decide (j.gmn = g) && match j.body with
    | .declined q _ => decide (q = seq)
    | _ => false
  | _ => false

/-- The declined records of a meter from a sequence onwards among entries, in their order (R191). -/
def declinedAmong (es : List StoreEntry) (g : Gmn) (seq : BitVec 32) : List StoredRecord :=
  es.filterMap fun e =>
    match e.billable? with
    | some x => if x.record.gmn = g ∧ (x.record.readSeq - seq).toNat < 2 ^ 31 ∧ es.any (StoreEntry.declines g x.record.readSeq) = true
        then some x else none
    | none => none

/-- The declined records of a meter from a sequence onwards, in stored order (R191). -/
def Ful.declinedFrom (f : Ful) (g : Gmn) (seq : BitVec 32) : List StoredRecord := declinedAmong (f.entries.map Prod.snd ++ f.arriving) g seq

end Sys2Proof.Machine
end

