-- ==== Sys2Proof/Machine/TroikaOps.lean ====
section
/-!
DEFINITION. Troika's operations: committing records and legal jobs, credit flags, closures, freezing and the vote
(R171, R180 to R191).
-/

namespace Sys2Proof.Machine

/-! ## Slots and settings -/

/-- Write a legal slot with its SLOT_CRC. -/
def State.setSlot (s : State) (i : Nat) (v : LegalSlot) : State :=
  { s with bil := { s.bil with slots := Table.set LegalSlot.fresh s.bil.slots i { v with crcOk := true } } }

/-- The sets of a tariff slot. -/
def State.tariffSlot (s : State) (k : Nat) : List TariffSet := Table.get [] s.bil.tariffs k

/-- The sets of a meter's tariff slot, its meter group number (R172). -/
def State.tariffsOf (s : State) (i : Nat) : List TariffSet := s.tariffSlot (s.ctxAt i).group

/-- The settings that billing uses. -/
def State.billEnv (s : State) : BillEnv :=
  ⟨s.tim.utcOffset, s.item iIntervalMin, s.itemInt iIntervalAlign, s.item iSplitMax⟩

/-- The settings that credit uses. -/
def State.creditEnv (s : State) : CreditEnv :=
  ⟨s.item iCreditLow, s.item iEmergencyCredit, decide (s.item iCreditAction = 1), s.item iFriendlyStart, s.item iFriendlyEnd, s.tim.utcOffset⟩

/-- Keep closed periods: Fuller keeps the 24 newest of each meter (R181). -/
def State.keepClosed (s : State) (i : Nat) (ps : List ClosedPeriod) : State :=
  { s with bil := { s.bil with closed := Table.set [] s.bil.closed i ((ps.reverse ++ s.closedOf i).take 24) } }

/-- This node sequences the meter's changes (R373). -/
def State.sequences (s : State) (i : Nat) : Bool := !s.boot.headEnd || s.actsFor i

/-- This node owns its meters: always in the field role, and as the owner of its pair otherwise (R55, R234). -/
def State.ownsMeters (s : State) : Bool := !s.boot.headEnd || s.hwl.owner

/-- Put an item in Troika's line. -/
def State.toTroika (s : State) (x : TroikaItem) : State := { s with bil := { s.bil with queue := s.bil.queue ++ [x] } }

/-- A record, or an estimate and its trigger, can be handed to Troika: an update place of the four is free (R160, R192), and
neither the rebuild nor a safe state that may end holds it (R190, R193). -/
def State.troikaRoom (s : State) : Bool :=
  !s.bil.restoring && (!s.bil.safe || s.bil.dead) && decide (s.bil.queue.length < 4)

/-- Post an operation of this node: into Troika's line, or to the acting primary for sequencing (R186, R373). -/
def State.postLegal (s : State) (i : Nat) (op : LegalOp) : State :=
  if s.sequences i = true then s.toTroika (.legal i op none false)
  else s.hwlSend (s.partner.getD 0) 0 (.seqReq (.legal (s.ctxAt i).gmn op))

/-! ## Closures and credit -/

/-- A closed period goes to Fuller, to region 5's cache and to the host. -/
def State.closureOut (i : Nat) (s : State) (p : ClosedPeriod) : State :=
  let s1 := s.bump (if p.forced = true then cBilForcedClosures else cBilClosures)
  ((s1.keepClosed i [p]).toFuller (.closed i p)).reportOut (.closedPeriod p)

/-- An instant lies in the friendly period of a meter (R186). -/
def State.friendlyAt (s : State) (i : Nat) (t : Nat) : Bool := s.creditEnv.friendly (s.tariffsOf i) t

/-- A credit flag was set: legal event and interrupt cause, and an alarm where it is reported (R186, R413). -/
def State.creditAlarm (s : State) (i code cause : Nat) (reported : Bool) (v : LegalSlot) : State :=
  let g := (s.ctxAt i).gmn.toNat
  let s1 := (s.event .legal 20 code 0 (g + 2 ^ 32 * twos64 v.credit)).raiseInt 0x140004 3
  if reported = true then s1.reportOut (.alarm cause g v.credit) else s1

/-- With CREDIT_ACTION 1: an exhaustion asks for a disconnect, unless DEFERRED holds it; a credit that has risen to CREDIT_LOW asks for a
reconnect while BY_CREDIT is set (R186). -/
def State.creditAction (s : State) (i : Nat) (old v : LegalSlot) : State :=
  if s.item iCreditAction ≠ 1 then s
  else
    let low : Int := s.item iCreditLow
    let s1 :=
      if v.creditExhausted = true ∧ old.creditExhausted = false ∧ v.deferred = false ∧ s.ownsMeters = true then s.postLegal i (.disconnect true) else s
    if old.credit < low ∧ low ≤ v.credit ∧ v.byCredit = true ∧ s.ownsMeters = true then s1.postLegal i (.reconnect false true) else s1

/-- Write a slot whose credit may have changed, with its flags and what follows from them (R186). -/
def State.commitSlot (s : State) (i : Nat) (old v : LegalSlot) : State :=
  let w := creditFlags s.creditEnv (s.tariffsOf i) old v
  let s1 := s.setSlot i w
  let s2 := if w.creditLow = true ∧ old.creditLow = false then s1.creditAlarm i 0x80 7 (decide (s.item iCreditLow ≠ 0)) w else s1
  let s3 := if w.creditExhausted = true ∧ old.creditExhausted = false then s2.creditAlarm i 0x81 8 true w else s2
  s3.creditAction i old w

/-! ## Records -/

/-- Commit a record's update (R173 to R186); the outcome is 0, or 7 with nothing to apply. -/
def State.commitRecord (s : State) (i : Nat) (r : Record) (tref : Nat) (k : Option Int) (deltas : List (Option Nat)) : State × Nat :=
  let old := s.slotAt i
  let b := applyRecord s.billEnv (s.tariffsOf i) old r.gmn r tref k deltas
  let s1 := ((s.commitSlot i old b.slot).bump cBilCommitted).checkMet 2
  let s2 := if b.late = true then s1.bump cBilLateEnergy else s1
  let s3 := if b.limited = true then s2.bump cBilSplitLimit else s2
  (b.closed.foldl (State.closureOut i) s3, if b.nothing = true then 7 else 0)

/-- Decline a record with a code of Table 6.8: counted, and journaled for codes 3 to 5 (R352). -/
def State.declineRecord (s : State) (id : Nat) (r : Record) (code : Nat) : State :=
  let s1 := match code with
    | 1 => s.bump cBilDeclinedValidation
    | 2 => s.bump cBilDeclinedLate
    | 3 => s.bump cBilDeclinedFrozen
    | 5 => s.bump cBilDeclinedSafe
    | _ => s
  let s2 := if 3 ≤ code ∧ code ≤ 5 then s1.journal r.gmn (.declined r.readSeq code) else s1
  s2.readingDecided id code

/-! ## Freezing (R190) -/

/-- Freeze a meter: the slot's line, the context operation, the journal entry and the latest-freeze register. -/
def State.freezeMeter (s : State) (i : Nat) (seq : BitVec 32) (cause : Nat) : State :=
  let g := (s.ctxAt i).gmn
  let s1 := s.setSlot i { s.slotAt i with frozen := true, freezeSeq := seq, freezeCause := cause }
  let s2 := { s1 with bil := { s1.bil with freezeGmn := g.toNat, freezeCause := cause } }
  (s2.queueOp (laneOf i) (.freeze i true)).journal g (.frozen seq cause)

/-- A slot fails SLOT_CRC: the meter freezes with cause 2 (R171). -/
def State.slotError (s : State) (i : Nat) (seq : BitVec 32) : State :=
  ((s.freezeMeter i seq 2).raiseInt 0x140004 4).bump cBilSlotError

/-- No majority: the meter freezes, the host is alarmed, and the partition enters its safe state (R190). -/
def State.noMajority (s : State) (i : Nat) (seq : BitVec 32) : State :=
  let g := (s.ctxAt i).gmn.toNat
  let s1 := ((s.freezeMeter i seq 1).raiseInt 0x140004 1).bump cBilNoMajority
  let s2 := s1.reportOut (.alarm 1 g seq.toNat)
  { s2 with bil := { s2.bil with safe := true } }

/-! ## Legal jobs (Table 6.6) -/

/-- A job's final report, if a job asked. -/
def State.answerOp (s : State) (ref : Option JobRef) (status : Nat) (reason : Reason) (outcome : Nat) (detail : List Byte) : State :=
  match ref with
  | none => s
  | some j => s.finishJob j status reason outcome detail .none

/-- A committed operation goes to the mirror as MJOB from the node that sequences it; its job's final report waits for
the mirror's acknowledgement (R368, R373). -/
def State.mirrorOp (s : State) (i : Nat) (op : LegalOp) (ref : Option JobRef) (mirrored : Bool) (detail : List Byte) : State :=
  if mirrored = true ∨ 16384 ≤ i then s.answerOp ref 0 .none 0 detail
  else
    let s1 := s.mirrorSend (.mjob (s.ctxAt i).gmn op)
    match ref with
    | none => s1
    | some j => s1.finishMirrored j 0 .none 0 detail

/-- The command that follows a supply commit: TXN tells the meter (Table 6.6). -/
def State.supplyCommand (s : State) (g : Gmn) (value : Nat) : State :=
  (s.pushRequest ⟨g, .supply value, 0, s.cyc.num, true, none, none, none, .none, none, none⟩).topUpIssues

/-- What a committed operation causes beyond its slot. -/
def State.afterOp (s : State) (i : Nat) (op : LegalOp) (mirrored : Bool) : State :=
  let g := (s.ctxAt i).gmn
  match op with
  | .disconnect _ => if mirrored = true then s else s.supplyCommand g 1
  | .reconnect _ _ =>
    let s1 := s.modCtx i fun c => { c with bal := { c.bal with discIssued := false } }
    if mirrored = true then s1 else s1.supplyCommand g 2
  | .confirm false => s.event .legal 20 0x82 0 (g.toNat + 2 ^ 32 * (s.slotAt i).supply)
  | _ => s

/-- The unapplied energy of a frozen meter per direction, in 0.1 Wh (R191, MODE 1). -/
def State.unapplied (s : State) (i : Nat) : List Nat :=
  let xs := s.ful.declinedFrom (s.ctxAt i).gmn (s.slotAt i).freezeSeq
  (List.range 4).map fun d => xs.foldl (fun a x => a + (x.deltas.getD d none).getD 0) 0

/-- Clear FROZEN; the context returns to ACTIVE or EXHAUSTED through a context operation. -/
def State.unfreeze (s : State) (i : Nat) : State :=
  (s.setSlot i { s.slotAt i with frozen := false, freezeCause := 0 }).queueOp (laneOf i) (.freeze i false)

/-- A committed job: counted and journaled (R188). -/
def State.jobCommitted (s : State) (g : Gmn) (op : LegalOp) : State := (s.bump cBilJobsCommitted).journal g (.job op)

/-- The release of a frozen meter ends (R191): it is unfrozen, and a discard writes its event with the unapplied energy in Wh. -/
def State.endRelease (s : State) (i mode : Nat) (ref : Option JobRef) (mirrored : Bool) : State :=
  let g := (s.ctxAt i).gmn
  let s1 := s.unfreeze i
  let s2 := if mode = 0 then s1
    else
      let wh := (s.unapplied i).map fun e => min (e / 10) (2 ^ 24 - 1)
      s1.event .legal 20 0x83 0 ((List.range 4).foldl (fun a d => a + wh.getD d 0 * 2 ^ (32 + 24 * d)) g.toNat)
  (s2.jobCommitted g (.release mode)).mirrorOp i (.release mode) ref mirrored []

/-- The declined records of a meter that a replay has not applied yet, in stored order (R191). -/
def State.toReplay (s : State) (i : Nat) (done : List (BitVec 32)) : List StoredRecord :=
  (s.ful.declinedFrom (s.ctxAt i).gmn (s.slotAt i).freezeSeq).filter fun x => decide (x.record.readSeq ∉ done)

/-- A replay goes on (R191, MODE 0): its next declined record comes first in Troika's line, to be applied under a vote of its own; with none
left the release ends. -/
def State.replayOn (s : State) (i : Nat) (ref : Option JobRef) (mirrored : Bool) (done : List (BitVec 32)) : State :=
  match s.toReplay i done with
  | [] => s.endRelease i 0 ref mirrored
  | x :: _ => { s with bil := { s.bil with queue := .replay i x.record x.tref x.k x.deltas ref mirrored done :: s.bil.queue } }

/-- The operation commits (Table 6.6, R187).  A meter that is frozen, and a probe, are answered before any vote. -/
def State.commitOp (s : State) (i : Nat) (op : LegalOp) (ref : Option JobRef) (mirrored : Bool) : State :=
  let v := s.slotAt i
  let g := (s.ctxAt i).gmn
  match op with
  | .release mode => if mode = 0 then s.replayOn i ref mirrored [] else s.endRelease i mode ref mirrored
  | _ => match applyOp (s.tariffsOf i) g op v with
    | .error code => s.answerOp ref 2 .credit code []
    | .ok (w, ps) =>
      let s1 := (s.commitSlot i v { w with commits := w.commits + 1 }).jobCommitted g op
      ((ps.foldl (State.closureOut i) s1).afterOp i op mirrored).mirrorOp i op ref mirrored []

/-- A tariff set joins its slot (R180). -/
def joinSets (held : List TariffSet) (x : TariffSet) : List TariffSet :=
  let kept := held.filter fun h => decide (h.activate < x.activate)
  let all := kept ++ [x]
  if 3 < all.length then
    let first := all.foldl (fun m h => min m h.activate) x.activate
    all.filter fun h => decide (h.activate ≠ first)
  else all

/-- The feeder's rate becomes the rate in force by wall time (R197). -/
def State.setFeederRate (s : State) (t : Nat) : State :=
  let r := rateAt s.tim.utcOffset (s.tariffSlot (s.item iFeederTariffSlot)) t
  { s with met := { s.met with rate := r, pendingSwitch := false } }

/-- Commit a tariff set (R180): journaled, and its job reported.  In the feeder's slot it may change the rate in force, unless a switch is
held pending (R195, R197). -/
def State.commitTariff (s : State) (k : Nat) (x : TariffSet) (ref : Option JobRef) : State :=
  let s1 := { s with bil := { s.bil with tariffs := Table.set [] s.bil.tariffs k (joinSets (s.tariffSlot k) x) } }
  let s2 := if k = s.item iFeederTariffSlot ∧ s.met.pendingSwitch = false then s1.setFeederRate s.sec2020 else s1
  ((s2.bump cBilJobsCommitted).journal 0 (.tariff k x)).answerOp ref 0 .none 0 []

/-! ## The vote (R188, R189) -/

/-- The units that vote on the next update: in service, and not sitting one out. -/
def Bil.voters (b : Bil) : List Nat :=
  (List.range 3).filter fun u => b.units.getD u false && decide (b.sitOut ≠ some u)

/-- The counter of a unit's outvotes. -/
def outvoteCounter (u : Nat) : Counter := if u = 0 then cBilOutvoteA else if u = 1 then cBilOutvoteB else cBilOutvoteC

/-- Take a unit out of service: alarm and interrupt cause; with fewer than two left the partition stays safe (R189, R190). -/
def State.retireUnit (s : State) (u : Nat) : State :=
  let units := s.bil.units.set u false
  let few := decide ((units.filter fun x => x).length < 2)
  let s1 := { s with bil := { s.bil with units := units, safe := s.bil.safe || few, dead := s.bil.dead || few } }
  ((s1.raiseInt 0x140004 2).reportOut (.alarm 9 0 u)).event .legal 20 (outvoteCounter u).code 0 1

/-- A unit is outvoted (Table 6.7): it sits out the next update, is counted, and is retired where it has been outvoted more than OUTVOTE_LIMIT
times within one day of operating time (R189). -/
def State.outvote (s : State) (u : Nat) : State :=
  let times := s.way.opTime :: (s.bil.outvotes.getD u []).filter fun t => decide (s.way.opTime < t + 86400)
  let s1 := { s with bil := { s.bil with sitOut := some u, outvotes := s.bil.outvotes.set u times } }
  let s2 := (s1.raiseInt 0x140004 0).note (outvoteCounter u) .legal .none 0 0
  if s.item iOutvoteLimit < times.length then s2.retireUnit u else s2

/-- The meter of an item in Troika's line. -/
def TroikaItem.index : TroikaItem → Option Nat
  | .record _ i _ _ _ _ => some i
  | .legal i _ _ _ => some i
  | .clear i _ => some i
  | .tariff _ _ _ => none
  | .slot i _ => some i
  | .replay i _ _ _ _ _ _ _ => some i
  | .cut _ _ _ => none

/-- Commit an item as two right images have it. -/
def State.commitItem (s : State) : TroikaItem → State
  | .record id i r t k d =>
    let (s1, o) := s.commitRecord i r t k d
    s1.readingDecided id o
  | .legal i op ref m => s.commitOp i op ref m
  | .clear i a =>
    let s1 := (s.setSlot i LegalSlot.fresh).journal (s.ctxAt i).gmn (.cleared a)
    { s1 with bil := { s1.bil with closed := Table.set [] s1.bil.closed i [] } }
  | .tariff k x ref => s.commitTariff k x ref
  | .slot i v => s.setSlot i v
  | .replay i r t k d ref m done => ((s.commitRecord i r t k d).1).replayOn i ref m (r.readSeq :: done)
  | .cut _ _ _ => s

/-- An item finds no majority: its meter freezes, and it is declined (R190). -/
def State.itemNoMajority (s : State) : TroikaItem → State
  | .record id i r _ _ _ => (s.noMajority i r.readSeq).declineRecord id r 4
  | .legal i _ ref _ => (s.noMajority i (s.slotAt i).lastSeq).answerOp ref 2 .none 4 []
  | .clear i _ => s.noMajority i (s.slotAt i).lastSeq
  | .slot i _ => s.noMajority i (s.slotAt i).lastSeq
  | .replay i r _ _ _ ref _ _ => (s.noMajority i r.readSeq).answerOp ref 2 .none 4 []
  | .cut _ _ _ => s
  | .tariff _ _ ref =>
    let s1 := (s.raiseInt 0x140004 1).bump cBilNoMajority
    ({ s1 with bil := { s1.bil with safe := true } }).answerOp ref 2 .none 4 []

/-- Decline an item because the partition stays safe until reset (R190). -/
def State.itemLegalSafe (s : State) : TroikaItem → State
  | .record id _ r _ _ _ => s.declineRecord id r 5
  | .legal _ _ ref _ => (s.bump cBilDeclinedSafe).answerOp ref 2 .legalSafe 5 []
  | .tariff _ _ ref => (s.bump cBilDeclinedSafe).answerOp ref 2 .legalSafe 5 []
  | .clear _ _ => s.bump cBilDeclinedSafe
  | .slot _ _ => s.bump cBilDeclinedSafe
  | .replay _ _ _ _ _ ref _ _ => (s.bump cBilDeclinedSafe).answerOp ref 2 .legalSafe 5 []
  | .cut _ _ _ => s

/-- A legal job that is answered before any vote (R187, R191): one for a meter whose billing another node keeps (R22; DEDUCED,
notes/assumptions/136.md), a release of a meter that is not frozen, any other job of a frozen meter, and a probe of CREDIT. -/
def State.answeredEarly (s : State) (i : Nat) (op : LegalOp) (ref : Option JobRef) : Option State :=
  let v := s.slotAt i
  if (s.ctxAt i).state = .forward then some (s.answerOp ref 2 .notFound 0 [])
  else match op with
    | .release _ => if v.frozen = false then some (s.answerOp ref 0 .none 0 (leBytes 2 (slotFlags v))) else none
    | _ =>
      if v.frozen = true then some ((s.bump cBilDeclinedFrozen).answerOp ref 2 .frozen 3 [])
      else if op = .credit 0 then some (s.answerOp ref 0 .none 0 (leInt 8 v.credit ++ leBytes 2 (slotFlags v)))
      else none

/-- What is decided before any vote: a declined verdict, a frozen meter, a slot that cannot be read, a probe.  `fails`: the read of the slot
meets an uncorrectable error (R171).  `none` where the item goes to the vote. -/
def State.beforeVote (s : State) (fails : Bool) : TroikaItem → Option State
  | .record id i r _ _ _ =>
    if r.verdict = 2 then some (s.declineRecord id r 1)
    else if r.verdict = 3 then some (s.declineRecord id r 2)
    else if (s.slotAt i).frozen = true then some (s.declineRecord id r 3)
    else if fails = true ∨ (s.slotAt i).crcOk = false then some ((s.slotError i r.readSeq).declineRecord id r 3)
    else none
  | .legal i op ref _ =>
    match s.answeredEarly i op ref with
    | some u => some u
    | none =>
      if (s.slotAt i).frozen = false ∧ (fails = true ∨ (s.slotAt i).crcOk = false) then
        some ((s.slotError i (s.slotAt i).lastSeq).answerOp ref 2 .frozen 3 [])
      else none
  | _ => none

/-- The answers of the units that vote, as (unit, answer). -/
def Bil.presented (b : Bil) (answers : List UnitAnswer) : List (Nat × UnitAnswer) := b.voters.map fun u => (u, answers.getD u .silent)

/-- The image that at least two units presented, as its mask. -/
def agreedMask (l : List (Nat × UnitAnswer)) : Option Nat :=
  l.findSome? fun p => match p.2 with
    | .image m => if 2 ≤ (l.filter fun q => decide (q.2 = .image m)).length then some m else none
    | .silent => none

/-- Units that presented nothing. -/
def silentUnits (l : List (Nat × UnitAnswer)) : List Nat := (l.filter fun p => decide (p.2 = .silent)).map Prod.fst

/-- Units that presented another image than the agreed one. -/
def dissenters (l : List (Nat × UnitAnswer)) (m : Nat) : List Nat :=
  (l.filter fun p => decide (p.2 ≠ .silent ∧ p.2 ≠ .image m)).map Prod.fst

/-- Commit an item on an agreed image: two equal wrong images commit too, and the slot then holds theirs; what else follows from the update
follows from the right one (DESIGN CHOICE, notes/assumptions/89.md). -/
def State.commitImage (s : State) (x : TroikaItem) (m : Nat) : State :=
  let s1 := s.commitItem x
  match x.index with
  | some i =>
    if m = 0 then s1
    else { s1 with bil := { s1.bil with slots := Table.set LegalSlot.fresh s1.bil.slots i (flipSlot (s1.slotAt i) m) } }
  | none => s1

/-- The vote on an item (Table 6.7): two equal images commit; otherwise silent units are waited for, and without any there is no
majority. -/
def State.vote (s : State) (x : TroikaItem) (answers : List UnitAnswer) : State :=
  let l := s.bil.presented answers
  let s0 := { s with bil := { s.bil with sitOut := none } }
  let await (st : State) (committed : Bool) : State :=
    { st with bil := { st.bil with awaiting := st.bil.awaiting ++ [⟨x, silentUnits l, committed, s.now⟩] } }
  match agreedMask l with
  | some m =>
    let s1 := (dissenters l m).foldl State.outvote (s0.commitImage x m)
    if silentUnits l = [] then s1 else await s1 true
  | none => if silentUnits l = [] then s0.itemNoMajority x else await s0 false

/-! ## Digest cuts (R375 to R377) -/

/-- The digest of a meter's register set at a cut. -/
def Cut.meterDigest (c : Cut) (slot : Nat) : List Byte := sha512Bytes (registerSet (Table.get LegalSlot.fresh c.slots slot))

/-- The digest of a block: over the 64 meter digests of its slots, in slot order (R376). -/
def Cut.blockDigest (c : Cut) (b : Nat) : List Byte := sha512Bytes ((List.range 64).flatMap fun m => c.meterDigest (64 * b + m))

/-- Replace a cut of the same interval and range. -/
def State.setCut (s : State) (c : Cut) : State :=
  { s with hwl := { s.hwl with cuts := s.hwl.cuts.map fun x => if x.cutId = c.cutId ∧ x.range = c.range then c else x } }

/-- Digests in DIGEST packets of at most 63, FIRST the number of the first in its list (R376; how the packets divide a list is the model's,
DESIGN CHOICE, notes/assumptions/180.md). -/
def State.sendDigests (s : State) (id range : Nat) (ds : List (List Byte)) : State :=
  (List.range ((ds.length + 62) / 63)).foldl
    (fun st k => st.hwlSend (st.partner.getD 0) 0 (.digest id range (63 * k) ((ds.drop (63 * k)).take 63))) s

/-- Slots in DIGEST_RESULT packets; none at all still makes one, from which the primary learns that its cut is complete (DESIGN CHOICE,
notes/assumptions/180.md). -/
def State.sendResult (s : State) (id range : Nat) (slots : List Nat) : State :=
  (List.range (max 1 ((slots.length + 2043) / 2044))).foldl
    (fun st k => st.hwlSend (st.partner.getD 0) 0 (.digestResult id range ((slots.drop (2044 * k)).take 2044))) s

/-- Meters found to differ are marked (R377): counted, and the host alarmed for each. -/
def State.markMismatch (s : State) (cutId range : Nat) (slots : List Nat) : State :=
  let base := if range = s.hwl.nodeId.toNat then 0 else 16384
  slots.foldl (fun st k =>
    let i := base + k % 16384
    let s1 : State := { st with hwl := { st.hwl with mismatch := if i ∈ st.hwl.mismatch then st.hwl.mismatch else st.hwl.mismatch ++ [i] } }
    let s2 := (s1.note cHwlDigestMismatch .operations .second 0 ((st.ctxAt i).gmn.toNat)).raiseInt 0x1C0004 4
    s2.reportOut (.alarm 2 (st.ctxAt i).gmn.toNat cutId)) s

/-- A cut has been compared (HWL_DIGEST). -/
def State.cutCompared (s : State) (cutId range : Nat) : State :=
  { s with hwl := { s.hwl with lastCut := cutId, cuts := s.hwl.cuts.filter fun c => decide (c.cutId ≠ cutId ∨ c.range ≠ range) } }

/-- The partner's part of a cut (R376): with every block digest of the primary and its own cut state it asks for the blocks that differ; with
their meter digests it names the slots that differ. -/
def State.compareCut (s : State) (c : Cut) : State :=
  if c.ready = false ∨ c.range = s.hwl.nodeId.toNat then s
  else if c.asked ≠ [] then
    if c.meters.length < 64 * c.asked.length then s
    else
      let slots := (c.asked.flatMap fun b => (List.range 64).map fun m => 64 * b + m)
      let differ := (slots.zip c.meters).filterMap fun (e : Nat × List Byte) => if e.2 = c.meterDigest e.1 then none else some e.1
      ((s.markMismatch c.cutId c.range differ).cutCompared c.cutId c.range).sendResult c.cutId c.range differ
  else if c.blocks.length < 256 then s
  else
    let differ := (List.range 256).filter fun b => decide (Table.get [] c.blocks b ≠ c.blockDigest b)
    if differ = [] then ((s.bump cHwlDigestCuts).cutCompared c.cutId c.range).sendResult c.cutId c.range []
    else ((s.bump cHwlDigestCuts).setCut { c with asked := differ }).hwlSend (s.partner.getD 0) 0 (.digestReq c.cutId c.range differ)

/-- The barrier of a lane has passed Troika (R375): the cut state of the lane's meters is marked; with all four lanes marked the digests are
made, and the primary sends its block digests (R376). -/
def State.markCut (s : State) (lane : Fin 4) (cutId range : Nat) : State :=
  match s.hwl.cuts.find? fun c => decide (c.cutId = cutId ∧ c.range = range) with
  | none => s
  | some c =>
    let own := decide (range = s.hwl.nodeId.toNat)
    let mine := (s.bil.slots.filter fun e => decide (e.1 % 4 = lane.val) && (decide (e.1 < 16384) == own)).map fun e => (e.1 % 16384, e.2)
    let lanes := c.lanes ||| (1#4 <<< lane.val)
    let c1 : Cut := { c with lanes := lanes, ready := decide (lanes = 0xF#4), slots := mine.foldl (fun tb e => Table.set LegalSlot.fresh tb e.1 e.2) c.slots }
    let s1 := s.setCut c1
    if c1.ready = false then s1
    else if own = true then (s1.bump cHwlDigestCuts).sendDigests cutId range ((List.range 256).map c1.blockDigest)
    else s1.compareCut c1

/-- The barriers of Troika's line that nothing of their lane precedes, in line or in an undecided vote. -/
def settled (busy : List Nat) : List TroikaItem → List (Fin 4 × Nat × Nat)
  | [] => []
  | .cut lane id range :: rest =>
    if lane.val ∈ busy then settled busy rest else (lane, id, range) :: settled busy rest
  | x :: rest => settled ((x.index.map fun i => i % 4).toList ++ busy) rest

/-- Barriers leave Troika's line as soon as nothing of their lane precedes them. -/
def State.settleCuts (s : State) : State :=
  let busy := (s.bil.awaiting.filter fun w => !w.committed).filterMap fun w => w.item.index.map fun i => i % 4
  let go := settled busy s.bil.queue
  if go = [] then s
  else
    let isGone (x : TroikaItem) : Bool := go.any fun g => decide (x = .cut g.1 g.2.1 g.2.2)
    go.foldl (fun st g => st.markCut g.1 g.2.1 g.2.2) { s with bil := { s.bil with queue := s.bil.queue.filter fun x => !isGone x } }

end Sys2Proof.Machine
end

