-- ==== Sys2Proof/Machine/ValidateOps.lean ====
section
/-!
DEFINITION. VAL's rules over a record and the meter's validation state (R150 to R162).
-/

namespace Sys2Proof.Machine

/-! ## Flags and settings -/

/-- VFLAGS bits (Table 5.3). -/
def vfSeqGap : Nat := 0
/-- LATE. -/
def vfLate : Nat := 1
/-- REVERSE. -/
def vfReverse : Nat := 2
/-- ROLLOVER. -/
def vfRollover : Nat := 3
/-- DELTA_HIGH. -/
def vfDeltaHigh : Nat := 4
/-- RANGE. -/
def vfRange : Nat := 5
/-- VOLTAGE_RANGE. -/
def vfVoltageRange : Nat := 6
/-- CURRENT_HIGH. -/
def vfCurrentHigh : Nat := 7
/-- CLOCK_AHEAD. -/
def vfClockAhead : Nat := 8
/-- CLOCK_LATE. -/
def vfClockLate : Nat := 9
/-- TIME_BACKWARDS. -/
def vfTimeBackwards : Nat := 10
/-- CYCLE_ORDER. -/
def vfCycleOrder : Nat := 11
/-- INTERVAL_GAP. -/
def vfIntervalGap : Nat := 12
/-- ESTIMATE_FOLLOWS. -/
def vfEstimateFollows : Nat := 13
/-- INTERVAL_ORDER. -/
def vfIntervalOrder : Nat := 14
/-- FIRST. -/
def vfFirst : Nat := 15

/-- A rating profile (Table 5.10). -/
structure Rating where
  uNom : Nat
  iMax : Nat
  phases : Nat
  modulus : Nat
  deriving DecidableEq, Repr

/-- RATING_p. -/
def State.rating (s : State) (p : Nat) : Rating :=
  let e := s.itemField (iRating p) 5 1
  ⟨s.itemField (iRating p) 0 2, s.itemField (iRating p) 2 2, s.itemField (iRating p) 4 1, if e = 0 then 2 ^ 40 else 10 ^ e⟩

/-! ## Sequence (R151) -/

/-- Outcomes of Table 5.6. -/
inductive SeqOutcome where
  | duplicate | inOrder (d : Nat) | late (b : Nat) | jump
  deriving DecidableEq, Repr

/-- Judge READ_SEQ (Table 5.6). -/
def State.judgeSeq (s : State) (v : ValState) (seq : BitVec 32) : SeqOutcome :=
  let d := (seq - v.lastSeq).toNat
  let b := 2 ^ 32 - d
  if d = 0 then .duplicate
  else if d ≤ s.item iSeqAheadMax then .inOrder d
  else if b ≤ s.item iLateWindow then (if v.seqSeen.getLsbD (b - 1) = true then .duplicate else .late b)
  else if b ≤ 32 then .duplicate
  else .jump

/-- LAST_SEQ and SEQ_SEEN after a record that is not discarded. -/
def ValState.afterSeq (v : ValState) (seq : BitVec 32) : SeqOutcome → ValState
  | .duplicate => v
  | .inOrder d => { v with lastSeq := seq, seqSeen := if d ≤ 32 then (v.seqSeen <<< d) ||| (1#32 <<< (d - 1)) else 0 }
  | .late b => { v with seqSeen := v.seqSeen ||| (1#32 <<< (b - 1)) }
  | .jump => { v with lastSeq := seq, seqSeen := 0 }

/-! ## Time and cycle (R152, R153) -/

/-- What the time rule gives: t_ref, whether it is RX_TIME, and the clock flags. -/
structure TimeJudgement where
  tref : Nat
  fromRx : Bool
  ahead : Bool
  late : Bool
  deriving DecidableEq, Repr

/-- The time rule (R152; with TIME_ACTION 0 no clock flag is set). -/
def State.judgeTime (s : State) (r : Record) : TimeJudgement :=
  let mt := r.meterTime.toNat
  let rx := r.rxTime.toNat
  if r.rxFlags.getLsbD rxTimeAbsent = true then ⟨rx, true, false, false⟩
  else if s.item iTimeAction = 0 ∨ r.rxFlags.getLsbD rxTimeRegressed = true then ⟨mt, false, false, false⟩
  else
    let ahead := decide (rx + s.item iTimeAheadMax < mt)
    let late := decide (mt + s.item iTimeLateMax < rx)
    if ahead = true ∨ late = true then ⟨rx, true, ahead, late⟩ else ⟨mt, false, false, false⟩

/-- CYCLE_ORDER (R153). -/
def State.judgeCycle (s : State) (v : ValState) (r : Record) : Bool :=
  v.valid && decide (s.item iTimeAction ≠ 0) && !r.rxFlags.getLsbD rxFreeze && decide (r.cycle.toNat < v.lastCycle)

/-! ## Registers (R154, R155) -/

/-- Outcomes of Table 5.7, with registers that are not judged or have no last value. -/
inductive RegOutcome where
  | absent | first | inOrder (d : Nat) | rollover (d : Nat) | reverse | range
  deriving DecidableEq, Repr

/-- Judge one register: new value `n`, last value `o`, modulus `m`; `first` while VALID is 0. -/
def judgeReg (m n o : Nat) : RegOutcome :=
  if n = neverReported then .absent
  else if m ≤ n then .range
  else if o = neverReported then .first
  else if o ≤ n then .inOrder (n - o)
  else if n + m - o < m / 2 then .rollover (n + m - o)
  else .reverse

/-- The delta that a register yields; under MONO_ACTION 1 a REVERSE register yields zero. -/
def RegOutcome.delta (mono : Nat) : RegOutcome → Option Nat
  | .inOrder d => some d
  | .rollover d => some d
  | .reverse => if mono = 1 then some 0 else none
  | _ => none

/-- The bound B of R155. -/
def deltaBound (g : Rating) (margin slack tref lastTref : Nat) : Nat :=
  let e := if tref ≤ lastTref then slack else tref - lastTref + slack
  g.phases * g.uNom * g.iMax * e * (100 + margin) / 36000000

/-- DELTA_HIGH (R155). -/
def State.judgeDeltas (s : State) (g : Rating) (tref lastTref : Nat) (ds : List (Option Nat)) : Bool :=
  decide (s.item iDeltaAction ≠ 0 ∧ g.uNom ≠ 0 ∧ g.iMax ≠ 0) &&
    ds.any fun d => match d with
      | some x => decide (deltaBound g (s.item iDeltaMargin) (s.item iDeltaSlack) tref lastTref < x)
      | none => false

/-! ## Quality (R156) -/

/-- VOLTAGE_RANGE. -/
def State.judgeVoltage (s : State) (g : Rating) (r : Record) : Bool :=
  let v := r.voltage.toNat
  decide (s.item iQualityAction ≠ 0 ∧ v ≠ 0xFFFF ∧ g.uNom ≠ 0) &&
    decide (v * 1000 < g.uNom * s.item iVLow ∨ g.uNom * s.item iVHigh < v * 1000)

/-- CURRENT_HIGH. -/
def State.judgeCurrent (s : State) (g : Rating) (r : Record) : Bool :=
  let c := r.current.toNat
  decide (s.item iQualityAction ≠ 0 ∧ c ≠ 0xFFFF ∧ g.iMax ≠ 0) && decide (g.iMax * (100 + s.item iIMargin) < c * 100)

/-! ## Intervals and estimates (R157 to R159) -/

/-- The interval index of a time (R157). -/
def State.intervalIndex (s : State) (tref : Nat) : Int :=
  ((tref : Int) - s.tim.utcOffset - s.itemInt iIntervalAlign + 30 * s.item iIntervalMin) / (60 * s.item iIntervalMin)

/-- The index that a record derives, if it derives one. -/
def State.recordIndex (s : State) (r : Record) (t : TimeJudgement) : Option Int :=
  if r.typ ≠ 1 ∨ (r.rxFlags.getLsbD rxTimeRegressed = true ∧ t.fromRx = true) then none else some (s.intervalIndex t.tref)

/-- The missing boundary's time t_b (R158). -/
def State.missingBoundary (s : State) (v : ValState) : Int :=
  60 * s.item iIntervalMin * (v.lastIndex + 1) + s.tim.utcOffset + s.itemInt iIntervalAlign

/-- The part of a delta that falls in the estimated interval (R159). -/
def estPart (d : Nat) (tb : Int) (tref lastTref : Nat) : Nat := d * (tb - lastTref).toNat / (tref - lastTref)

/-- The estimated record (Table 5.8). -/
def estimateOf (r : Record) (v : ValState) (m tref : Nat) (tb : Int) (ds : List (Option Nat)) : Record :=
  let span : Int := tref - v.lastTref
  let cyc : Int := v.lastCycle + ((r.cycle.toNat : Int) - v.lastCycle) * (tb - v.lastTref) / span
  let regs := (List.range 4).map fun k =>
    match ds.getD k none with
    | some d => (v.lastReg.getD k 0 + estPart d tb tref v.lastTref) % m
    | none => neverReported
  sealRecord (withRegs
    { r with typ := 6, cycle := BitVec.ofInt 48 cyc,
             rxFlags := r.rxFlags &&& ~~~(flags16 [(rxTimeAbsent, true), (rxSynth, true), (rxFreeze, true)]),
             meterTime := BitVec.ofInt 32 tb, voltage := 0xFFFF, current := 0xFFFF, meterFlags := 0, vflags := 0, gap := 0,
             seqGap := 0, verdict := 4, rule := 0 } regs)

/-! ## The whole judgement (R161) -/

/-- What VAL finds of a record: to be held for release, or discarded as a duplicate; `skipped` an estimate that could not
be made. -/
structure Judgement where
  record : Record
  deltas : List (Option Nat)
  estimate : Option Record
  estDeltas : List (Option Nat)
  state : ValState
  skipped : Bool
  deriving DecidableEq, Repr

/-- The first rule that rejects. -/
def firstRule (l : List (Nat × Bool)) : Nat :=
  match l.find? fun p => p.2 with
  | some p => p.1
  | none => 0

/-- A late record (R151): RANGE is the only other rule, and only SEQ_SEEN changes. -/
def State.judgeLate (s : State) (v : ValState) (r : Record) (b : Nat) : Judgement :=
  let m := (s.rating v.rating).modulus
  let range := (recordRegs r).any fun n => decide (n ≠ neverReported ∧ m ≤ n)
  ⟨sealRecord { r with vflags := flags16 [(vfLate, true), (vfRange, range)], verdict := 3, rule := 0, gap := 0, seqGap := 0 },
   [none, none, none, none], none, [], v.afterSeq r.readSeq (.late b), false⟩

/-- The state after an advancing record (R162). -/
def ValState.advance (v : ValState) (r : Record) (outs : List RegOutcome) (tref : Nat) (k : Option Int) : ValState :=
  let regs := (List.range 4).map fun i =>
    match outs.getD i .absent with
    | .inOrder _ => (recordRegs r).getD i 0
    | .rollover _ => (recordRegs r).getD i 0
    | .first => (recordRegs r).getD i 0
    | _ => v.lastReg.getD i neverReported
  let v1 := { v with lastReg := regs, lastTref := tref,
                     lastCycle := if r.rxFlags.getLsbD rxFreeze = false ∧ v.lastCycle < r.cycle.toNat then r.cycle.toNat else v.lastCycle }
  match k with
  | some i => { v1 with lastIndex := (i % 2 ^ 32).toNat, indexValid := true }
  | none => v1

/-- Judge a record that is neither a duplicate nor late (R150 to R162). -/
def State.judgeRecord (s : State) (v : ValState) (r : Record) (q : SeqOutcome) : Judgement :=
  let g := s.rating v.rating
  let t := s.judgeTime r
  let d := match q with
    | .inOrder d => d
    | _ => 0
  let seqGap := if v.valid = true ∧ 1 < d then d - 1 else 0
  let outs := (List.range 4).map fun i =>
    judgeReg g.modulus ((recordRegs r).getD i 0) (if v.valid = true then v.lastReg.getD i neverReported else neverReported)
  let ds := outs.map (RegOutcome.delta (s.item iMonoAction))
  let range := outs.any fun o => decide (o = .range)
  let reverse := outs.any fun o => decide (o = .reverse)
  let rollover := outs.any fun o => match o with
    | .rollover _ => true
    | _ => false
  let order := s.judgeCycle v r
  let high := s.judgeDeltas g t.tref v.lastTref ds
  let vr := s.judgeVoltage g r
  let ch := s.judgeCurrent g r
  let rule := firstRule [(1, v.valid && decide (q = .jump)), (2, decide (s.item iTimeAction = 2) && (t.ahead || t.late)),
    (3, decide (s.item iTimeAction = 2) && order), (4, decide (s.item iMonoAction = 2) && range),
    (5, decide (s.item iMonoAction = 2) && reverse), (6, decide (s.item iDeltaAction = 2) && high),
    (7, decide (s.item iQualityAction = 2) && (vr || ch))]
  let k := s.recordIndex r t
  let indexed := v.valid && v.indexValid
  let gap := match k with
    | some i => if indexed = true ∧ rule = 0 ∧ (v.lastIndex : Int) + 1 < i then (i - v.lastIndex - 1).toNat else 0
    | none => 0
  let iorder := match k with
    | some i => indexed && decide (i ≤ v.lastIndex)
    | none => false
  let tb := s.missingBoundary v
  let made := decide (gap = 1 ∧ s.item iEstimate = 1) && !range && !reverse && decide ((v.lastTref : Int) < tb ∧ tb < t.tref)
  let flags := flags16 [(vfSeqGap, decide (seqGap ≠ 0)), (vfReverse, reverse), (vfRollover, rollover), (vfDeltaHigh, high),
    (vfRange, range), (vfVoltageRange, vr), (vfCurrentHigh, ch), (vfClockAhead, t.ahead), (vfClockLate, t.late),
    (vfTimeBackwards, v.valid && decide (t.tref < v.lastTref)), (vfCycleOrder, order), (vfIntervalGap, decide (gap ≠ 0)),
    (vfEstimateFollows, made), (vfIntervalOrder, iorder), (vfFirst, !v.valid)]
  let verdict := if rule ≠ 0 then 2 else if flags &&& 0x7FFF#16 = 0 then 0 else 1
  let rec1 := sealRecord { r with
    vflags := flags, verdict := BitVec.ofNat 3 verdict, rule := BitVec.ofNat 5 rule,
    gap := BitVec.ofNat 8 (min gap 255), seqGap := BitVec.ofNat 16 (min seqGap 65535) }
  let v1 := if v.valid = true then v.afterSeq r.readSeq q else { v with lastSeq := r.readSeq, seqSeen := 0, valid := true }
  let v2 := { v1 with seqGaps := satAdd 16 v1.seqGaps seqGap, intervalGaps := satAdd 16 v1.intervalGaps gap,
                      rejects := if verdict = 2 then satAdd 16 v1.rejects 1 else v1.rejects,
                      estimates := if made = true then satAdd 16 v1.estimates 1 else v1.estimates }
  let est := if made = true then some (estimateOf r v g.modulus t.tref tb ds) else none
  let parts := ds.map fun d => d.map fun x => estPart x tb t.tref v.lastTref
  ⟨rec1, ds, est, if made = true then parts else [], if verdict = 2 then v2 else v2.advance r outs t.tref k,
   decide (gap = 1) && !made⟩

/-- PIPE cycles of a hold (STATE_HOLD_CYCLES): the PIPE domain runs at 500 MHz. -/
def pipeCycles (ticks : Nat) : Nat := ticks * 500000 / 24576

/-- PIPE cycles for which a lane has held its record so far and that are not yet counted (R166). -/
def State.holdingCycles (s : State) (l : Nat) : Nat :=
  match (s.val.held.getD l none).bind ValHeld.refusedAt with
  | some a => pipeCycles (s.now - a)
  | none => 0

/-- Judge a record of TYPE 1 to 4 (R161): `none` where it is a duplicate. -/
def State.judge (s : State) (v : ValState) (r : Record) : Option Judgement :=
  if v.valid = false then some (s.judgeRecord v r (.inOrder 0))
  else match s.judgeSeq v r.readSeq with
    | .duplicate => none
    | .late b => some (s.judgeLate v r b)
    | q => some (s.judgeRecord v r q)

end Sys2Proof.Machine
end

