-- ==== Sys2Proof/Machine/BalanceOps.lean ====
section
/-!
DEFINITION. BAL's operations: groups, results, attribution, scores, anomalies and policy (R201 to R240).
-/

namespace Sys2Proof.Machine

/-! ## Groups (R201 to R203) -/

/-- A GROUP item of the BALANCE section (Table 7.1). -/
structure GroupItem where
  feed : Nat
  attrSource : Nat
  onMirror : Bool
  ref : Nat
  res : List Nat
  p0 : List Nat
  deriving DecidableEq, Repr

/-- GROUP_g. -/
def State.balGroupItem (s : State) (g : Nat) : GroupItem :=
  let f (o n : Nat) : Nat := s.itemField (iBalGroup g) o n
  ⟨f 0 1, f 1 1, decide (f 2 1 % 2 = 1), f 4 4, [f 8 2, f 10 2, f 12 2], [f 14 2, f 16 2, f 18 2]⟩

/-- A group about which nothing is known. -/
def BalGroup.fresh : BalGroup :=
  ⟨[0, 0, 0], [0, 0, 0], [], [], none, none, none, [[], [], [], []], [[], [], [], []], false, [false, false, false], [false, false, false], 0⟩

/-- The group numbered `g`. -/
def State.balGroup (s : State) (g : Nat) : BalGroup := Table.get BalGroup.fresh s.bal.groups g

/-- Replace a group. -/
def State.setBalGroup (s : State) (g : Nat) (v : BalGroup) : State :=
  { s with bal := { s.bal with groups := Table.set BalGroup.fresh s.bal.groups g v } }

/-- The node computes a group (R203). -/
def State.computes (s : State) (g : Nat) : Bool :=
  decide ((s.balGroupItem g).feed ≠ 0) && (!s.boot.headEnd || !(s.balGroupItem g).onMirror || s.hwl.partnerRange)

/-- An index is of the range whose meters a group has (R203). -/
def State.ofGroupRange (s : State) (g i : Nat) : Bool :=
  !s.boot.headEnd || decide (((s.balGroupItem g).onMirror = true) = (16384 ≤ i))

/-- The members of a group: context index and context. -/
def State.members (s : State) (g : Nat) : List (Nat × Context) :=
  s.ctx.filter fun e => decide (e.2.state ≠ .empty) && e.2.bal.member && decide (e.2.bal.group = g) && s.ofGroupRange g e.1

/-- Change a meter's balance state. -/
def State.modBal (s : State) (i : Nat) (f : BalState → BalState) : State := s.modCtx i fun c => { c with bal := f c.bal }

/-! ## Interval arithmetic (R208, R209) -/

/-- Seconds of an interval. -/
def State.intervalSec (s : State) : Nat := 60 * s.item iIntervalMin

/-- The end boundary of an interval index. -/
def State.boundaryOf (s : State) (k : Int) : Int := s.intervalSec * k + s.tim.utcOffset + s.itemInt iIntervalAlign

/-- The index of the first boundary at or after a time. -/
def State.indexAtOrAfter (s : State) (t : Int) : Int :=
  -((-(t - s.tim.utcOffset - s.itemInt iIntervalAlign)) / s.intervalSec)

/-- The net energy of a record: import less export active, a missing delta counting as zero. -/
def netOf (deltas : List (Option Nat)) : Int :=
  (((deltas.getD 0 none).getD 0 : Nat) : Int) - (((deltas.getD 1 none).getD 0 : Nat) : Int)

/-- The intervals over which a record's net energy is shared, with the shares (R208). -/
def State.sharesOf (s : State) (r : Record) (tref : Nat) (k : Option Int) (net : Int) : List (Int × Int) :=
  match k with
  | some i =>
    if r.typ = 1 ∨ r.typ = 6 then
      let n := r.gap.toNat + 1 - (if r.vflags.getLsbD vfEstimateFollows = true then 1 else 0)
      let n1 := max n 1
      (List.range n1).map fun j =>
        let each := net / (n1 : Int)
        if j + 1 = n1 then (i, net - each * ((n1 : Int) - 1)) else (i - (n1 : Int) + 1 + j, each)
    else [(s.indexAtOrAfter tref, net)]
  | none => [(s.indexAtOrAfter tref, net)]

/-- An interval's result has been issued. -/
def BalGroup.isIssued (b : BalGroup) (k : Int) : Bool :=
  match b.issued with
  | some j => decide (k ≤ j)
  | none => false

/-- Enter a member's share, or count it late (R208). -/
def State.addShare (s : State) (g i : Nat) (p : Int × Int) : State :=
  let b := s.balGroup g
  if b.isIssued p.1 = true then s.bump cBalLateShares
  else s.setBalGroup g { b with shares := b.shares ++ [⟨i, p.1, p.2⟩] }

/-! ## Results (R210 to R212, R218) -/

/-- The phase of a member in reconciliation: 0 unknown, 4 polyphase (R211, R222). -/
def State.memberPhase (s : State) (c : Context) : Nat :=
  if c.bal.regPhase = 4 then 4
  else if s.item iPhaseAuto = 1 ∧ c.bal.detPhase ≠ 0 then c.bal.detPhase
  else c.bal.regPhase

/-- A polyphase member's part in a phase result: L1 takes the remainder. -/
def polyPart (p : Nat) (net : Int) : Int := if p = 1 then net - 2 * (net / 3) else net / 3

/-- What a member contributes to the result of phase `p`, given its net energy; `none` where it is missing. -/
def memberPart (ph p : Nat) (net : Option Int) : Option Int :=
  if p = 0 then net else if ph = 4 then net.map (polyPart p) else if ph = p then net else none

/-- A member counts in the result of phase `p`: those of unknown phase count, and are missing (R211). -/
def memberCounts (ph p : Nat) : Bool := decide (p = 0 ∨ ph = p ∨ ph = 4 ∨ ph = 0)

/-- The feeder's side of a result. -/
structure FeederSide where
  present : Bool
  energy : Int
  i2t : List Nat
  outage : Bool
  long : Bool
  cycle : Nat
  earth : Nat
  earthHigh : Bool
  deriving DecidableEq, Repr

/-- Technical loss of a phase 1 to 3 (R212). -/
def phaseLoss (it : GroupItem) (p i2t span : Nat) : Int :=
  (((it.res.getD (p - 1) 0 * i2t / 360000 + it.p0.getD (p - 1) 0 * span / 360) : Nat) : Int)

/-- Technical loss of a result: phase 0 adds the three phases; a feeder meter uses the values of L1 for the whole group. -/
def lossOf (it : GroupItem) (p : Nat) (i2t : List Nat) (span : Nat) : Int :=
  if it.feed = 2 then phaseLoss it 1 (i2t.getD 0 0) span
  else if p = 0 then phaseLoss it 1 (i2t.getD 0 0) span + phaseLoss it 2 (i2t.getD 1 0) span + phaseLoss it 3 (i2t.getD 2 0) span
  else phaseLoss it p (i2t.getD (p - 1) 0) span

/-- A signed value limited to 16 bits. -/
def clamp16 (x : Int) : Int := max (-32768) (min 32767 x)

/-- A member in a result: index, its phase, its net energy if it contributed, and whether it was frozen. -/
structure MemberPart where
  index : Nat
  phase : Nat
  net : Option Int
  frozen : Bool
  deriving DecidableEq, Repr

/-- Build one group result (R212, Table 7.10). -/
def State.buildResult (s : State) (g p : Nat) (snap : Bool) (ms : List MemberPart) (f : FeederSide) (snapId : Nat) (k : Int)
    (endTime span : Nat) : GroupResult :=
  let it := s.balGroupItem g
  let inRes := ms.filter fun m => memberCounts m.phase p
  let parts := inRes.filterMap fun m => memberPart m.phase p m.net
  let metersE := parts.foldl (fun a x => a + x) 0
  let feederE := if f.present = true then f.energy else 0
  let loss := if f.present = true then lossOf it p f.i2t span else 0
  let residue := if f.present = true then feederE - metersE - loss else 0
  let missing := inRes.length - parts.length
  let incomplete := decide (inRes.length * s.item iIncompleteMax < missing * 1000)
  let frozen := (inRes.filter fun m => m.frozen).length
  ⟨g, p, snap, snap && decide (frozen < inRes.length), incomplete, f.outage, !f.present, decide (feederE < 0), f.long, false,
   incomplete || f.outage || !f.present || f.long, s.hwl.nodeId, f.earthHigh, inRes.length, parts.length,
   if snap = true then frozen else 0, snapId, if snap = true then 0 else (k % 2 ^ 32).toNat, endTime, span, f.cycle, feederE, metersE, loss,
   residue, if 0 < feederE then clamp16 (residue * 1000 / feederE) else 0, f.earth, none, 0, 0⟩

/-! ## Series and attribution (R229, R230) -/

/-- The result that a member's series follows: its phase, or 0 (R229). -/
def followed (it : GroupItem) (phase : Nat) : Nat := if it.feed = 2 ∨ phase = 0 ∨ phase = 4 then 0 else phase

/-- A member's series, newest first. -/
def State.seriesOf (s : State) (i : Nat) : List (Option (Int × Int)) := Table.get [] s.bal.series i

/-- Power in W of an energy over a span; rounded towards zero. -/
def powerOf (e : Int) (span : Nat) : Int := if span = 0 then 0 else (e * 360).tdiv span

/-- The mean of the numbers of a list, rounded towards zero; none gives zero. -/
def meanInt (l : List Int) : Int := if l = [] then 0 else (l.foldl (fun a x => a + x) 0).tdiv l.length

/-- Add an entry to a member's series, and settle a pending step after SIG_DROP_WINDOW further entries (R225). -/
def State.addSeries (s : State) (i : Nat) (e : Option (Int × Int)) : State :=
  let ring := (e :: s.seriesOf i).take 48
  let s1 := { s with bal := { s.bal with series := Table.set [] s.bal.series i ring } }
  let b := (s1.ctxAt i).bal
  if b.stepPending = false then s1
  else
    let n := b.postCount + 1
    if n < s1.item iSigDropWindow then s1.modBal i fun x => { x with postCount := n }
    else
      let m := meanInt ((ring.take n).filterMap fun x => x.map Prod.fst)
      let bad := decide (b.preMean ≠ 0 ∧ m ≤ (b.preMean * (100 - s1.item iSigDropPct)).tdiv 100)
      let s2 := s1.modBal i fun x =>
        { x with postCount := n, stepPending := false, sigSteps := if bad = true then satAdd 8 x.sigSteps 1 else x.sigSteps }
      s2.bump (if bad = true then cBalSigStepsSuspicious else cBalSigStepsBenign)

/-- The entries present in both of two series, within ATTR_WINDOW: the residue, the member's power and its energy. -/
def pairedEntries (window : Nat) (member : List (Option (Int × Int))) (res : List Int) : List (Int × Int × Int) :=
  ((member.take window).zip (res.take window)).filterMap fun p => p.1.map fun m => (p.2, m.1, m.2)

/-- The integer square root: the bits of the root of `n` from bit `k − 1` down, below `r`. -/
def sqrtBits (n : Nat) : Nat → Nat → Nat
  | 0, r => r
  | k + 1, r => sqrtBits n k (if (r + 2 ^ k) * (r + 2 ^ k) ≤ n then r + 2 ^ k else r)

/-- The largest number whose square is at most `n`. -/
def intSqrt (n : Nat) : Nat := sqrtBits n (n.log2 / 2 + 1) 0

/-- Correlation in permille and slope in permille of paired entries (R230); fewer than four give zero. -/
def correlate (ps : List (Int × Int × Int)) : Int × Int :=
  if ps.length < 4 then (0, 0)
  else
    let mr := meanInt (ps.map Prod.fst)
    let mc := meanInt (ps.map fun p => p.2.1)
    let sxy := ps.foldl (fun a p => a + (p.1 - mr) * (p.2.1 - mc)) 0
    let sxx := ps.foldl (fun a p => a + (p.1 - mr) * (p.1 - mr)) 0
    let syy := ps.foldl (fun a p => a + (p.2.1 - mc) * (p.2.1 - mc)) 0
    let root : Int := intSqrt (sxx * syy).toNat
    (if sxx = 0 ∨ syy = 0 then 0 else (1000 * sxy).tdiv root, if syy = 0 then 0 else (1000 * sxy).tdiv syy)

/-- An attribution of nothing. -/
def Attribution.none : Attribution := ⟨0, 0, 0, 0⟩

/-- Recompute a member's correlation with its group's residue and, in group 0, with the earth current (R230).  Where snapshot results feed
the series, they and the earth entries of interval results are paired newest with newest (DESIGN CHOICE, notes/assumptions/162.md). -/
def State.attribute (s : State) (g : Nat) (i : Nat) : State :=
  let b := s.balGroup g
  let ph := followed (s.balGroupItem g) (s.memberPhase (s.ctxAt i))
  let w := s.item iAttrWindow
  let ps := pairedEntries w (s.seriesOf i) (b.residues.getD ph [])
  let (corr, beta) := correlate ps
  let energy := ps.foldl (fun (a : Int) x => a + x.2.2) 0
  let earth := if g = 0 then (correlate (pairedEntries w (s.seriesOf i) (b.earths.getD ph []))).1 else 0
  let at_ : Attribution := ⟨if ps.length < 4 then 0 else (beta * energy).tdiv 1000, ps.length, meanInt (ps.map Prod.fst), earth⟩
  ({ s with bal := { s.bal with attributions := Table.set Attribution.none s.bal.attributions i at_ } }).modBal i
    fun x => { x with corr := corr, beta := beta }

/-! ## Scores and anomalies (R231, R232) -/

/-- A weight (WEIGHTS). -/
def State.weight (s : State) (n : Nat) : Nat := s.itemField iWeights (2 * n) 2

/-- A hold of SCORE_HOLD_DAYS from a time still runs. -/
def State.holds (s : State) (t : Nat) : Bool := decide (t ≠ 0 ∧ s.sec2020 ≤ t + 86400 * s.item iScoreHoldDays)

/-- The components of a member's score (Table 7.4). -/
def State.scoreParts (s : State) (i : Nat) : List Nat :=
  let b := (s.ctxAt i).bal
  let a := Table.get Attribution.none s.bal.attributions i
  let min_ : Int := s.item iAttrMinCorr
  let bits := ((List.range 5).filter fun n => (BitVec.ofNat 8 b.flagsSeen).getLsbD n).length
  [if b.mismatch = true then s.weight 0 else 0,
   if b.sigSteps ≠ 0 then s.weight 1 else 0,
   if b.group = 0 ∧ (s.balGroup 0).earthHigh = true ∧ min_ ≤ a.earthCorr then (s.weight 2 * a.earthCorr.toNat) / 1000 else 0,
   if s.holds b.reverseTime = true then s.weight 3 else 0,
   min (2 * s.weight 4) (s.weight 4 * bits),
   if min_ ≤ b.corr ∧ 0 < b.beta ∧ 0 < a.meanResidue then (s.weight 5 * b.corr.toNat) / 1000 else 0]

/-- The signature of a member on a phase 1 to 3. -/
def State.signature (s : State) (i p : Nat) : Signature :=
  Table.get (⟨[0, 0, 0, 0, 0, 0, 0, 0], [0, 0, 0, 0, 0, 0, 0, 0], 0, 0, false, false, 0⟩ : Signature) s.bal.sigs (3 * i + p - 1)

/-- Byte 177 of the balance state (Table 7.7). -/
def phaseState (b : BalState) : Nat :=
  b.regPhase + 8 * b.detPhase + (if b.member = true then 64 else 0) + (if b.exportAllowed = true then 128 else 0)

/-- A record for Fuller that finds no space is dropped and counted (R237, R206). -/
def State.balToFuller (s : State) (x : FulItem) : State :=
  if s.fulRoom 64 = true then s.toFuller x
  else (s.raiseInt 0x150004 0).note cBalBalDrop .operations .interval 0 0

/-- Issue an anomaly record (R232, Table 7.11). -/
def State.anomaly (s : State) (i action time : Nat) (cause : BitVec 7) : State :=
  let c := s.ctxAt i
  let b := c.bal
  let a := Table.get Attribution.none s.bal.attributions i
  let r : AnomalyRecord := ⟨c.gmn, b.group, b.score, b.components, phaseState b, b.flagsSeen, b.corr, b.beta, a.attributed, a.entries,
    b.stepTime, (s.signature i (if b.regPhase = 0 ∨ 3 < b.regPhase then 1 else b.regPhase)).snr, b.sigSteps, action, time, cause, 0⟩
  let r1 := sealAnomaly r
  (((s.bump cBalAnomalyReports).raiseInt 0x150004 1).balToFuller (.anomaly r1)).reportOut (.anomaly r1)

/-- Clear what has outlived SCORE_HOLD_DAYS: SIG_STEPS and FLAGS_SEEN (R228, R231). -/
def State.lapse (s : State) (i : Nat) : State :=
  s.modBal i fun b =>
    { b with sigSteps := if s.holds b.stepTime = true then b.sigSteps else 0,
             flagsSeen := if s.holds b.flagsTime = true then b.flagsSeen else 0 }

/-- Recompute a member's score, and report a crossing of SCORE_REPORT or a kind that becomes nonzero above it (R231, R232). -/
def State.rescore (s0 : State) (i time : Nat) : State :=
  let s := s0.lapse i
  let b := (s.ctxAt i).bal
  let parts := s.scoreParts i
  let score := min 1000 (parts.foldl (fun a x => a + x) 0)
  let above := decide (s.item iScoreReport ≤ score)
  let changed := (List.range 6).foldl (fun (a : BitVec 7) n =>
    if parts.getD n 0 ≠ b.components.getD n 0 then a ||| (1#7 <<< n) else a) 0
  let newKind := (List.range 6).any fun n => decide (parts.getD n 0 ≠ 0 ∧ b.components.getD n 0 = 0)
  let s1 := s.modBal i fun x => { x with components := parts, score := score, above := above }
  if above ≠ b.above ∨ (newKind = true ∧ above = true) then s1.anomaly i (if above = true then 1 else 0) time changed else s1

/-! ## Policy (R233, R234) -/

/-- The kinds of a member: its components above zero. -/
def BalState.kinds (b : BalState) : Nat := (b.components.filter fun c => decide (c ≠ 0)).length

/-- Actions of the present day of operating time. -/
def State.actionsToday (s : State) : Nat := if s.bal.actionDay = s.way.opTime / 86400 then s.bal.actionsToday else 0

/-- An action is taken: counted, with its event and its anomaly record. -/
def State.actionTaken (s : State) (i action time : Nat) : State :=
  let c := s.ctxAt i
  let s1 := { s with bal := { s.bal with actionsToday := s.actionsToday + 1, actionDay := s.way.opTime / 86400 } }
  let s2 := (s1.raiseInt 0x150004 2).note cBalActionsIssued .operations .none 0
    (c.gmn.toNat + 2 ^ 32 * (c.bal.score + 2 ^ 16 * c.bal.kinds))
  s2.anomaly i action time 0

/-- The owner issues an action: 2 a credit hold, 3 a disconnect, which the friendly period may hold (R233, R234). -/
def State.issueAction (s : State) (i action time : Nat) : State :=
  let g := (s.ctxAt i).gmn
  if action = 2 then
    let s1 := (s.modBal i fun b => { b with holdIssued := true }).pushRequest
      ⟨g, .hold true, 0, s.cyc.num, true, none, none, none, .none, none, none⟩
    (s1.topUpIssues).actionTaken i 2 time
  else if s.item iRespectFriendly = 1 ∧ s.friendlyAt i s.sec2020 = true then
    if i ∈ s.bal.heldDisconnects then s
    else ({ s with bal := { s.bal with heldDisconnects := s.bal.heldDisconnects ++ [i] } }).anomaly i 4 time 0
  else ((s.modBal i fun b => { b with discIssued := true }).postLegal i (.disconnect false)).actionTaken i 3 time

/-- An action that is limited (ACTION 5) or refused by the owner (ACTION 6): counted in ACTIONS_LIMITED, the one counter that Table 7.14 has
for both (DEDUCED, notes/assumptions/163.md), with an event that names GMN, score and kinds (R234, R240). -/
def State.actionBarred (s : State) (i action time : Nat) : State :=
  let c := s.ctxAt i
  ((s.raiseInt 0x150004 2).note cBalActionsLimited .operations .none 0
    (c.gmn.toNat + 2 ^ 32 * (c.bal.score + 2 ^ 16 * c.bal.kinds))).anomaly i action time 0

/-- A qualifying meter: limited, issued here, or handed to the owner (R234). -/
def State.takeAction (s : State) (i action time : Nat) : State :=
  let b := (s.ctxAt i).bal
  if s.item iMaxActionsPerDay ≤ s.actionsToday then s.actionBarred i 5 time
  else if s.ownsMeters = true then s.issueAction i action time
  else
    let s1 := s.modBal i fun x => if action = 2 then { x with holdIssued := true } else { x with discIssued := true }
    s1.hwlSend (s.partner.getD 0) 0 (.actionReq (s.ctxAt i).gmn action b.score b.kinds)

/-- The pair table marks a meter MISMATCH (R377). -/
def State.mismatched (s : State) (i : Nat) : Bool := decide (i ∈ s.hwl.mismatch)

/-- A member's score and kinds meet an action's threshold; zero disables the action (R233). -/
def State.qualifies (s : State) (i threshold : Nat) : Bool :=
  let b := (s.ctxAt i).bal
  decide (threshold ≠ 0 ∧ threshold ≤ b.score ∧ s.item iMinKinds ≤ b.kinds)

/-- Turn a member's score into actions (R233). -/
def State.policy (s : State) (g i time : Nat) : State :=
  let mask : BitVec 256 := BitVec.ofNat 256 (leNat (s.itemBytes iGroupMask))
  let b := (s.ctxAt i).bal
  let ok (threshold : Nat) : Bool := s.qualifies i threshold
  if mask.getLsbD g = false ∨ s.mismatched i = true ∨ s.item iMaxActionsPerDay = 0 then s
  else
    let s1 := if ok (s.item iHoldScore) = true ∧ b.holdIssued = false then s.takeAction i 2 time else s
    if ok (s.item iDisconnectScore) = true ∧ b.discIssued = false then s1.takeAction i 3 time else s1

/-! ## After a result -/

/-- The member with the highest correlation that qualifies (R230): its slot and the correlation. -/
def State.topMember (s : State) (ms : List MemberPart) (p : Nat) : Option (Nat × Int) :=
  (ms.filter fun m => memberCounts m.phase p && m.net.isSome).foldl (fun best m =>
    let b := (s.ctxAt m.index).bal
    if (s.item iAttrMinCorr : Int) ≤ b.corr ∧ 0 < b.beta then
      match best with
      | none => some (m.index % 16384, b.corr)
      | some x => if x.2 < b.corr then some (m.index % 16384, b.corr) else best
    else best) none

/-- Add the entries of one result to the series that follow it (R229). -/
def State.enterSeries (s : State) (g : Nat) (ms : List MemberPart) (r : GroupResult) : State :=
  if r.excluded = true then s
  else
    let it := s.balGroupItem g
    let b := s.balGroup g
    let ring := (powerOf r.residue r.span :: b.residues.getD r.phase []).take 48
    let s1 := s.setBalGroup g { b with residues := b.residues.set r.phase ring }
    (ms.filter fun m => decide (followed it m.phase = r.phase)).foldl
      (fun st m => st.addSeries m.index ((memberPart m.phase r.phase m.net).map fun e => (powerOf e r.span, e))) s1

/-- Add the earth current of an interval result of group 0 to its series (R230); a result carrying EXCLUDED adds none. -/
def State.enterEarth (s : State) (g : Nat) (r : GroupResult) : State :=
  if g ≠ 0 ∨ r.snapshot = true ∨ r.excluded = true then s
  else
    let b := s.balGroup g
    s.setBalGroup g { b with earths := b.earths.set r.phase (((r.earth : Int) :: b.earths.getD r.phase []).take 48) }

/-- Send a result with its top member to Fuller and the host (R237). -/
def State.resultOut (s : State) (ms : List MemberPart) (r : GroupResult) : State :=
  let top := s.topMember ms r.phase
  let r1 := sealGroup { r with topSlot := top.map Prod.fst, topCorr := (top.map Prod.snd).getD 0 }
  (s.balToFuller (.group r1)).reportOut (.groupResult r1)

/-- Finish a set of results of a group: series of the kind that feeds attribution, correlations, the results themselves,
scores and policy. -/
def State.finishResults (s : State) (g : Nat) (snap : Bool) (ms : List MemberPart) (rs : List GroupResult) (time : Nat) : State :=
  let feeds := decide ((s.balGroupItem g).attrSource = (if snap = true then 1 else 0))
  let s0 := rs.foldl (fun st r => st.enterEarth g r) s
  let s1 := if feeds = true then rs.foldl (fun st r => st.enterSeries g ms r) s0 else s0
  let s2 := if feeds = true then ms.foldl (fun st m => st.attribute g m.index) s1 else s1
  let s3 := rs.foldl (fun st r => st.resultOut ms r) s2
  ms.foldl (fun st m => (st.rescore m.index time).policy g m.index time) s3

/-- The phases for which a group has results (R211). -/
def resultPhases (it : GroupItem) : List Nat := if it.feed = 2 then [0] else [0, 1, 2, 3]

end Sys2Proof.Machine
end

