-- ==== Sys2Proof/Machine/Balance.lean ====
section
/-!
DEFINITION. The commands of BAL (spec 07).
-/

namespace Sys2Proof.Machine

/-! ## Phase identification (R220, R221) -/

/-- The reference angles of L1, L2 and L3 (R220). -/
def State.angles (s : State) (rotation : Bool) : List Nat :=
  if s.boot.headEnd = true then (if rotation = true then [0, 43691, 21845] else [0, 21845, 43691])
  else [0, s.cyc.angle2, s.cyc.angle3]

/-- Circular distance in units of 360/65 536 degrees. -/
def circular (a b : Nat) : Nat :=
  let d := (a + 65536 - b) % 65536
  min d (65536 - d)

/-- The phase of a directly received PLC frame. -/
def State.framePhase (s : State) (r : Record) (rotation : Bool) : Option Nat :=
  let as := s.angles rotation
  ((List.range 3).find? fun p => decide (circular r.zcOffset.toNat (as.getD p 0) ≤ s.item iPhaseTol)).map fun p => p + 1

/-- DET_PHASE is confirmed: MISMATCH and MOVED follow, with their report (R221). -/
def State.confirmPhase (s : State) (i ph time : Nat) : State :=
  let b := (s.ctxAt i).bal
  let moved := b.moved || decide (b.detPhase ≠ 0 ∧ b.detPhase ≠ ph)
  let mis := if 1 ≤ b.regPhase ∧ b.regPhase ≤ 3 then decide (ph ≠ b.regPhase) else false
  let s1 := s.modBal i fun x => { x with detPhase := ph, moved := moved, mismatch := mis }
  let g := (s.ctxAt i).gmn.toNat
  let fresh := mis && (!b.mismatch || decide (ph ≠ b.detPhase))
  let s2 := if fresh = true then s1.note cBalPhaseMismatch .operations .none (g + 1) g else s1
  let s3 := s2.rescore i time
  if fresh = true ∨ mis ≠ b.mismatch ∨ moved ≠ b.moved then s3.anomaly i (if (s3.ctxAt i).bal.above = true then 1 else 0) time 0x40 else s3

/-- Phase identification of a record (R220, R221). -/
def State.identifyPhase (s : State) (i : Nat) (r : Record) (rotation : Bool) (tref : Nat) : State :=
  if r.hops ≠ 0 ∨ r.zcOffset = 0xFFFF#16 ∨ r.typ = 6 then s
  else match s.framePhase r rotation with
    | none => s.bump cBalPhaseUnclear
    | some ph =>
      let b := (s.ctxAt i).bal
      let run := if ph = b.phaseCand then satAdd 8 b.phaseRun 1 else 1
      let s1 := s.modBal i fun x => { x with phaseCand := ph, phaseRun := run }
      if run = s.item iPhaseConfirm then s1.confirmPhase i ph tref else s1

/-! ## Flags, reverse energy, shares and latches -/

/-- The meter's tamper flags (R228), of any verdict. -/
def State.noteFlags (s : State) (i : Nat) (r : Record) (tref : Nat) : State :=
  let f := r.meterFlags.toNat % 32
  if f = 0 then s
  else s.modBal i fun b => { b with flagsSeen := (BitVec.ofNat 8 b.flagsSeen ||| BitVec.ofNat 8 f).toNat, flagsTime := tref }

/-- Reverse energy of a member that does not export (R227). -/
def State.noteReverse (s : State) (i : Nat) (r : Record) (tref : Nat) (deltas : List (Option Nat)) : State :=
  let b := (s.ctxAt i).bal
  let exceeds := match deltas.getD 1 none with
    | some d => decide (s.item iReverseMin < d)
    | none => false
  if b.member = true ∧ b.exportAllowed = false ∧ (exceeds || r.vflags.getLsbD vfReverse || r.meterFlags.getLsbD 3) = true then
    s.modBal i fun x => { x with reverseTime := tref }
  else s

/-- A feeder meter's record stands for its groups (FEED 2, R201, R212). -/
def State.feederMeter (s : State) (r : Record) (tref : Nat) (k : Option Int) (deltas : List (Option Nat)) (g : Nat) : State :=
  let it := s.balGroupItem g
  if it.feed ≠ 2 ∨ it.ref % 2 ^ 20 ≠ r.gmn.toNat ∨ s.computes g = false then s
  else
    let b0 := s.balGroup g
    let out := r.rxFlags.getLsbD rxSynth
    let s1 := s.setBalGroup g { b0 with current := if r.current = 0xFFFF#16 then b0.current else r.current.toNat,
                                        outageSince := b0.outageSince.set 0 (b0.outageSince.getD 0 false || out) }
    (s.sharesOf r tref k (netOf deltas)).foldl (fun st p =>
      let b := st.balGroup g
      st.setBalGroup g { b with feeders := b.feeders ++ [⟨p.1, 0, p.2, 0, out, false, r.cycle.toNat, 0, 0⟩] }) s1

/-- Latch a TYPE 3 record for the pending snapshot of a group, or count it (R217). -/
def State.snapLatch (s : State) (g i : Nat) (r : Record) : State :=
  let hit (x : Snapshot) : Bool := decide (x.group = g ∧ x.target ≠ 0 ∧ x.target ≤ r.cycle.toNat + 1 ∧ r.cycle.toNat ≤ x.target + 1) &&
    r.rxFlags.getLsbD rxFreeze
  if s.bal.snapshots.any hit = false then s.bump cBalSnapOffCycle
  else
    let list := s.bal.snapshots.map fun x =>
      if hit x = true then { x with latched := (x.latched.filter fun l => decide (l.index ≠ i)) ++ [⟨i, r.impAct.toNat, r.expAct.toNat⟩] }
      else x
    { s with bal := { s.bal with snapshots := list } }

/-- A feeder meter's own latch for a group of FEED 2 (R216, R218): its import and its export register. -/
def State.feederLatch (s : State) (r : Record) (g : Nat) : State :=
  let it := s.balGroupItem g
  let hit (x : Snapshot) : Bool := decide (x.group = g ∧ x.target ≠ 0 ∧ x.target ≤ r.cycle.toNat + 1 ∧ r.cycle.toNat ≤ x.target + 1) &&
    r.rxFlags.getLsbD rxFreeze
  if it.feed ≠ 2 ∨ it.ref % 2 ^ 20 ≠ r.gmn.toNat ∨ s.computes g = false ∨ s.bal.snapshots.any hit = false then s
  else
    let b := s.balGroup g
    let list := s.bal.snapshots.map fun x =>
      if hit x = true then { x with feeder := [(0, (r.impAct.toNat : Int), r.expAct.toNat)], outage := b.outageSince, long := b.longSince } else x
    ({ s with bal := { s.bal with snapshots := list } }).setBalGroup g
      { b with outageSince := [false, false, false], longSince := [false, false, false] }

/-! ## Channel signatures (R223 to R225) -/

/-- Move a mean towards a value by 1 / 2^shift of the difference, rounded towards zero (R223). -/
def ewma (shift m a : Nat) : Nat := ((m : Int) + ((a : Int) - m).tdiv (2 ^ shift : Nat)).toNat

/-- The distance of two sets of sub-band attenuations (R223). -/
def bandDistance (a m : List Nat) : Nat :=
  ((List.range 8).foldl (fun acc b => acc + ((a.getD b 0 : Int) - (m.getD b 0 : Int)).natAbs) 0) / 8

/-- Move the means of a signature. -/
def Signature.move (v : Signature) (shift : Nat) (att : List Nat) (snr : Nat) : Signature :=
  { v with mean := (List.range 8).map fun b => ewma shift (v.mean.getD b 0) (att.getD b 0), snr := ewma shift v.snr snr }

/-- Replace a signature. -/
def State.setSignature (s : State) (i p : Nat) (v : Signature) : State :=
  let zero : Signature := ⟨[0, 0, 0, 0, 0, 0, 0, 0], [0, 0, 0, 0, 0, 0, 0, 0], 0, 0, false, false, 0⟩
  { s with bal := { s.bal with sigs := Table.set zero s.bal.sigs (3 * i + p - 1) v } }

/-- A step is confirmed (R224, R225): the mean takes the candidate, and the wait for a fall of consumption begins. -/
def State.confirmStep (s : State) (i p : Nat) (v : Signature) (rx : Nat) : State :=
  let s1 := s.setSignature i p { v with mean := v.cand, candOpen := false, run := 0 }
  let pre := meanInt (((s1.seriesOf i).take (s1.item iSigDropWindow)).filterMap fun x => x.map Prod.fst)
  (s1.modBal i fun b => { b with stepTime := rx, stepPending := true, postCount := 0, preMean := pre }).rescore i rx

/-- A frame's estimate on one receive phase of a member (R223, R224); the first frame gives the means their values (DESIGN CHOICE,
notes/assumptions/164.md). -/
def State.channelFrame (s : State) (i p : Nat) (att : List Nat) (snr rx : Nat) : State :=
  let v0 := s.signature i p
  let v := { v0 with frames := satAdd 32 v0.frames 1, valid := v0.valid || decide (15 ≤ v0.frames) }
  let sh := s.item iSigAlphaShift
  let step := s.item iSigStep
  let moved := if v0.frames = 0 then { v with mean := att, snr := snr } else v.move sh att snr
  if v0.valid = false then s.setSignature i p moved
  else
    let d := bandDistance att v.mean
    if v.candOpen = false then
      if step ≤ d then s.setSignature i p { v with cand := att, candOpen := true, run := 1 } else s.setSignature i p moved
    else if d < step / 2 then (s.setSignature i p { moved with candOpen := false, run := 0 }).bump cBalTransient
    else if bandDistance att v.cand ≤ step / 2 ∧ step ≤ d then
      let w := { v with cand := (List.range 8).map fun b => ewma sh (v.cand.getD b 0) (att.getD b 0), run := v.run + 1 }
      if s.item iSigPersist ≤ w.run then s.confirmStep i p w rx else s.setSignature i p w
    else s.setSignature i p { v with cand := att, candOpen := true, run := 1 }

/-- A channel estimate of a meter with the RX_TIME of its frame (R223): it counts for members of the groups that the node computes
(R203). -/
def State.trackEstimate (s : State) (i : Nat) (e : ChannelEst) (rx : Nat) : State :=
  if (s.ctxAt i).bal.member = true ∧ s.computes (s.ctxAt i).bal.group = true then s.channelFrame i e.phase e.att e.snr rx else s

/-- Step 2 of R207: the estimates of the frame that brought a record, by GMN and RX_CYCLE (R129, R205); an estimate record of VAL came by no
frame. -/
def State.trackRecord (s : State) (i : Nat) (r : Record) (rxCycle : BitVec 48) : State :=
  let mine (e : ChannelEst) : Bool := decide (e.gmn = r.gmn ∧ e.rxCycle = rxCycle ∧ r.typ ≠ 6)
  let s1 : State := { s with plc := { s.plc with estimates := s.plc.estimates.filter fun e => !mine e } }
  (s.plc.estimates.filter mine).foldl (fun st e => st.trackEstimate i e r.rxTime.toNat) s1

/-- A record in BAL, in the order of R207. -/
def State.balRecord (s : State) (i : Nat) (r : Record) (rxCycle : BitVec 48) (tref : Nat) (k : Option Int) (deltas : List (Option Nat))
    (rotation : Bool) : State :=
  let s0 := s.bump cBalRecordsIn
  let billed := decide (r.verdict = 0 ∨ r.verdict = 1 ∨ r.verdict = 4)
  if billed = false then s0.noteFlags i r tref
  else
    let s1 := (s0.identifyPhase i r rotation tref).trackRecord i r rxCycle
    let s2 := (s1.noteReverse i r tref deltas).noteFlags i r tref
    let b := (s2.ctxAt i).bal
    let g := b.group
    let here := b.member && s2.computes g && s2.ofGroupRange g i
    let s3 := if here = true then (s2.sharesOf r tref k (netOf deltas)).foldl (fun st p => st.addShare g i p) s2 else s2
    let s4 := if here = true ∧ r.typ = 3 then s3.snapLatch g i r else s3
    let groups := (List.range 256).filter fun x => decide ((s4.balGroupItem x).feed = 2)
    groups.foldl (fun st x => (st.feederMeter r tref k deltas x).feederLatch r x) s4

/-! ## Feeder records (R209, R216) -/

/-- The interval of a feeder record (R209). -/
def State.feederIndex (s : State) (f : FeederRecord) : Int :=
  if f.short = true then s.indexAtOrAfter f.stamp else s.intervalIndex f.stamp

/-- Signed net energy of a feeder record. -/
def feederNet (f : FeederRecord) : Int := (f.energy.getD 0 0 : Int) - (f.energy.getD 1 0 : Int)

/-- A close of the feeder for a group: its interval and the accumulators. -/
def State.feederClose (s : State) (g : Nat) (f : FeederRecord) : State :=
  let b := s.balGroup g
  let k := s.feederIndex f
  let p := f.phase - 1
  let out := f.short || f.phaseAbsent || f.rxFlags.getLsbD rxSynth
  let long := match b.lastFeederK with
    | some j => decide (j < k - 1) || b.feeders.any fun x => decide (x.k = k) && x.long
    | none => false
  let e := feederNet f
  s.setBalGroup g { b with
    accumE := b.accumE.set p (b.accumE.getD p 0 + e), accumI := b.accumI.set p (b.accumI.getD p 0 + f.i2t),
    feeders := if b.isIssued k = true then b.feeders else b.feeders ++ [⟨k, f.phase, e, f.i2t, out, long, f.cycle, f.current, f.earth⟩],
    lastFeederK := some (max k (b.lastFeederK.getD k)), outageSince := b.outageSince.set p (b.outageSince.getD p false || out),
    longSince := b.longSince.set p (b.longSince.getD p false || long) }

/-- A snapshot record of the feeder: the accumulator plus the record, with OUTAGE and LONG_FEEDER of the span that ends here (R212, R216).
A head-end node learns C_t from it. -/
def State.feederSnap (s : State) (g : Nat) (f : FeederRecord) : State :=
  let b := s.balGroup g
  let p := f.phase - 1
  let hit (x : Snapshot) : Bool := decide (x.group = g ∧ (x.target = 0 ∨ x.target = f.cycle))
  let out := f.short || f.phaseAbsent || f.rxFlags.getLsbD rxSynth || b.outageSince.getD p false
  if s.bal.snapshots.any hit = false then s
  else
    let list := s.bal.snapshots.map fun x =>
      if hit x = true then
        { x with target := f.cycle, stamp := some (x.stamp.getD f.stamp), earth := f.earth, outage := x.outage.set p out,
                 long := x.long.set p (b.longSince.getD p false),
                 feeder := (x.feeder.filter fun y => decide (y.1 ≠ f.phase)) ++
                   [(f.phase, b.accumE.getD p 0 + feederNet f, b.accumI.getD p 0 + f.i2t)] }
      else x
    ({ s with bal := { s.bal with snapshots := list } }).setBalGroup g
      { b with outageSince := b.outageSince.set p false, longSince := b.longSince.set p false }

/-- The groups that a feeder record feeds: group 0 for MET, the FEED 3 groups of the sender for an entry. -/
def State.fedGroups (s : State) (sender : Option Nat) : List Nat :=
  match sender with
  | none => if (s.balGroupItem 0).feed = 1 then [0] else []
  | some k => (List.range 256).filter fun g =>
      decide ((s.balGroupItem g).feed = 3 ∧ (s.balGroupItem g).ref = s.itemField (iSender k) 0 4)

/-- A feeder record in BAL. -/
def State.balFeeder (s : State) (f : FeederRecord) (sender : Option Nat) : State :=
  ((s.fedGroups sender).filter fun g => s.computes g).foldl
    (fun st g => if f.snapshot = true then st.feederSnap g f else st.feederClose g f) s

/-- BAL_RECORD (R207): BAL takes the next record or feeder record of its queue. -/
def execBalRecord (t : Nat) (s0 : State) : Host.Outcome State Fault Refusal :=
  let s := s0.advance t
  if s.pipeOff = true then .next s
  else match s.bal.queue with
  | [] => .next s
  | x :: rest =>
    let s1 := { s with bal := { s.bal with queue := rest } }
    .next (match x with
      | .record i r rx tref k deltas rot => s1.balRecord i r rx tref k deltas rot
      | .feeder f sender => s1.balFeeder f sender)

/-! ## Channel estimates (R205, R223) -/

/-- What waits in ING is the frame of an estimate. -/
def itemOf (x : Ticketed) (slot : Nat) (rxCycle : BitVec 48) : Bool :=
  match x.body with
  | .frame f => decide (f.slot.map Fin.val = some slot ∧ f.rxCycle = rxCycle)
  | _ => false

/-- The frame of an estimate, or its record, is still on its way through ING or VAL or waits for BAL: step 2 of that record's handling is to
take the estimate (R129, R207). -/
def State.recordComing (s : State) (i : Nat) (e : ChannelEst) : Bool :=
  (s.ing.fifos.any fun q => q.any fun t => itemOf t i e.rxCycle) || (s.ing.lanes.any fun q => q.any fun t => itemOf t.item i e.rxCycle) ||
  (s.ing.fwRing.any fun x => decide (x.index = i ∧ x.frame.rxCycle = e.rxCycle)) || ((s.val.queue.any fun q => q.any fun x => decide (x.index = i ∧ x.rxCycle = e.rxCycle)) ||
    s.val.held.any fun h => match h with
      | some x => decide (x.item.index = i ∧ x.item.rxCycle = e.rxCycle)
      | none => false) ||
  s.bal.queue.any fun x => match x with
    | .record j _ c _ _ _ _ => decide (j = i ∧ c = e.rxCycle)
    | .feeder _ _ => false

/-- CHANNEL_ESTIMATE (R205, R223): BAL takes the oldest channel estimate that no record on its way will take: that of a JOIN, of a
DISCOVER_REPLY, or of a frame that gave no record.  STEP_TIME then takes the present second (DESIGN CHOICE, notes/assumptions/161.md). -/
def execChannelEstimate (t : Nat) (s0 : State) : Host.Outcome State Fault Refusal :=
  let s := s0.advance t
  let free (e : ChannelEst) : Bool := match s.heldIndex e.gmn with
    | none => true
    | some i => !s.recordComing i e
  if s.pipeOff = true then .next s
  else match s.plc.estimates.find? free with
  | none => .next s
  | some e =>
    let s1 : State := { s with plc := { s.plc with estimates := s.plc.estimates.erase e } }
    .next (match s.heldIndex e.gmn with
      | none => s1
      | some i => s1.trackEstimate i e s.sec2020)

/-! ## Interval results (R210) -/

/-- The oldest interval of a group that is due and has no result: the one after the last issued, or the latest due. -/
def State.dueInterval (s : State) (g : Nat) : Option Int :=
  let settled : Int := (s.cycleTime : Int) - s.item iBalSettle
  let latest := (settled - s.tim.utcOffset - s.itemInt iIntervalAlign) / s.intervalSec
  match (s.balGroup g).issued with
  | some j => if j + 1 ≤ latest then some (j + 1) else none
  | none => some latest

/-- The feeder's side of an interval result of phase `p`. -/
def State.intervalFeeder (s : State) (g p : Nat) (k : Int) : FeederSide :=
  let it := s.balGroupItem g
  let fs := (s.balGroup g).feeders.filter fun x => decide (x.k = k)
  let mine := if p = 0 then fs else fs.filter fun x => decide (x.phase = p)
  let amps := (s.balGroup g).current
  let i2t := if it.feed = 2 then [amps * amps * s.intervalSec / 10000]
    else (List.range 3).map fun q => (fs.filter fun x => decide (x.phase = q + 1)).foldl (fun a x => a + x.i2t) 0
  let earth := if g = 0 ∨ it.feed = 3 then fs.foldl (fun a x => max a x.earth) 0 else 0
  let cur := fs.foldl (fun a x => a + x.current) 0 / 3
  ⟨decide (mine ≠ []), mine.foldl (fun a x => a + x.energy) 0, i2t, mine.any fun x => x.outage, mine.any fun x => x.long,
   mine.foldl (fun a x => max a x.cycle) 0, earth,
   decide (g = 0 ∧ s.item iEarthMin < earth ∧ s.item iEarthPct * cur < 100 * earth)⟩

/-- The members' parts in an interval. -/
def State.intervalParts (s : State) (g : Nat) (k : Int) : List MemberPart :=
  let shares := (s.balGroup g).shares.filter fun x => decide (x.k = k)
  (s.members g).map fun e =>
    let mine := shares.filter fun x => decide (x.index = e.1)
    ⟨e.1, s.memberPhase e.2, if mine = [] then none else some (mine.foldl (fun a x => a + x.net) 0), false⟩

/-- Keep what later results still need: shares of open intervals, and those after the last snapshot. -/
def State.pruneGroup (s : State) (g : Nat) : State :=
  let b := s.balGroup g
  let keep (k : Int) : Bool := !b.isIssued k || (match b.base with
    | some x => decide ((x.stamp : Int) < s.boundaryOf k)
    | none => false)
  s.setBalGroup g { b with shares := b.shares.filter fun x => keep x.k, feeders := b.feeders.filter fun x => !b.isIssued x.k }

/-- The interval results of a group (R210 to R212, R226). -/
def State.intervalResult (s : State) (g : Nat) (k : Int) : State :=
  let it := s.balGroupItem g
  let ms := s.intervalParts g k
  let endT := (s.boundaryOf k).toNat
  let rs := (resultPhases it).map fun p => s.buildResult g p false ms (s.intervalFeeder g p k) 0 k endT s.intervalSec
  let f0 := s.intervalFeeder g 0 k
  let b := s.balGroup g
  let s1 := s.setBalGroup g { b with issued := some k, earthHigh := f0.earthHigh }
  let s2 := s1.bumpBy cBalIntervalResults rs.length
  let s3 := if f0.earthHigh = true then (s2.bump cBalEarthHigh).raiseInt 0x150004 3 else s2
  (s3.finishResults g false ms rs endT).pruneGroup g

/-- INTERVAL_RESULT (R210): BAL_SETTLE after an interval's end the group's results are computed. -/
def execIntervalResult (group : Fin 256) (t : Nat) (s0 : State) : Host.Outcome State Fault Refusal :=
  let s := s0.advance t
  if s.pipeOff = true ∨ s.computes group.val = false then .next s
  else match s.dueInterval group.val with
    | none => .next s
    | some k => .next (s.intervalResult group.val k)

/-! ## Snapshots (R217 to R219) -/

/-- The meters of a list that have not latched. -/
def Snapshot.unlatched (x : Snapshot) : List Nat := x.named.filter fun i => x.latched.all fun l => decide (l.index ≠ i)

/-- Ask TXN to read the latched registers of a meter. -/
def State.collectRead (s : State) (i : Nat) : State :=
  (s.pushRequest ⟨(s.ctxAt i).gmn, .read 0, 0, s.cyc.num, true, none, none, none, .none, none, none⟩).topUpIssues

/-- SNAPSHOT_COLLECT_READ (R217): SNAP_COLLECT ÷ 2 after C_t the named meters that have not reported are read. -/
def execSnapshotCollectRead (t : Nat) (s0 : State) : Host.Outcome State Fault Refusal :=
  let s := s0.advance t
  let due (x : Snapshot) : Bool := !x.asked && match x.stamp with
    | some c => decide (c + s.item iSnapCollect / 2 ≤ s.cycleTime)
    | none => false
  if s.pipeOff = true then .next s
  else match s.bal.snapshots.find? due with
  | none => .next s
  | some x =>
    let s1 := { s with bal := { s.bal with snapshots := s.bal.snapshots.map fun y => if y = x then { x with asked := true } else y } }
    .next (x.unlatched.foldl State.collectRead s1)

/-- The modulus of a meter's registers. -/
def State.modulusOf (s : State) (i : Nat) : Nat := (s.rating (s.ctxAt i).val.rating).modulus

/-- The difference of two register values modulo M. -/
def modDiff (m a b : Nat) : Int := ((((a : Int) - b) % m : Int))

/-- The members' parts in a snapshot result (R218). -/
def State.snapParts (s : State) (x : Snapshot) (base : SnapBase) (stamp : Nat) : List MemberPart :=
  let shares := (s.balGroup x.group).shares.filter fun y =>
    decide ((base.stamp : Int) < s.boundaryOf y.k ∧ s.boundaryOf y.k ≤ stamp)
  (s.members x.group).map fun e =>
    let b := e.2.bal
    match x.latched.find? fun l => decide (l.index = e.1) with
    | some l =>
      if b.snapId = base.snapId ∧ e.1 ∈ base.latched then
        ⟨e.1, s.memberPhase e.2, some (modDiff (s.modulusOf e.1) l.imp b.snapImp - modDiff (s.modulusOf e.1) l.exp b.snapExp), true⟩
      else
        let mine := shares.filter fun y => decide (y.index = e.1)
        ⟨e.1, s.memberPhase e.2, if mine = [] then none else some (mine.foldl (fun a y => a + y.net) 0), false⟩
    | none =>
      let mine := shares.filter fun y => decide (y.index = e.1)
      ⟨e.1, s.memberPhase e.2, if mine = [] then none else some (mine.foldl (fun a y => a + y.net) 0), false⟩

/-- The feeder of a snapshot, when every phase has latched: of a feeder meter its two registers. -/
def Snapshot.latch (x : Snapshot) (feed : Nat) : Option FeederLatch :=
  let get (p : Nat) : Option (Nat × Int × Nat) := x.feeder.find? fun y => decide (y.1 = p)
  if feed = 2 then (get 0).map fun y => ⟨[y.2.1, (y.2.2 : Int)], []⟩
  else match get 1, get 2, get 3 with
    | some a, some b, some c => some ⟨[a.2.1, b.2.1, c.2.1], [a.2.2, b.2.2, c.2.2]⟩
    | _, _, _ => none

/-- The feeder's side of a snapshot result (R216, R218). -/
def State.snapFeeder (s : State) (x : Snapshot) (base : Option SnapBase) (p span : Nat) : FeederSide :=
  let it := s.balGroupItem x.group
  let b := s.balGroup x.group
  let old := base.bind fun y => y.feeder
  let of (l : List Bool) : Bool := if p = 0 then l.any fun c => c else l.getD (p - 1) false
  let earth := if x.group = 0 ∨ it.feed = 3 then x.earth else 0
  match x.latch it.feed, old with
  | some l, some o =>
    if it.feed = 2 then
      let m := match s.heldIndex (BitVec.ofNat 20 it.ref) with
        | some i => s.modulusOf i
        | none => 2 ^ 40
      let d (q : Nat) : Int := modDiff m (l.energy.getD q 0).toNat (o.energy.getD q 0).toNat
      ⟨true, d 0 - d 1, [b.current * b.current * span / 10000], of x.outage, of x.long, x.target, 0, false⟩
    else
      let e (q : Nat) : Int := l.energy.getD q 0 - o.energy.getD q 0
      let i2t := (List.range 3).map fun q => l.i2t.getD q 0 - o.i2t.getD q 0
      ⟨true, if p = 0 then e 0 + e 1 + e 2 else e (p - 1), i2t, of x.outage, of x.long, x.target, earth, b.earthHigh⟩
  | _, _ => ⟨false, 0, [0, 0, 0], of x.outage, of x.long, x.target, earth, b.earthHigh⟩

/-- A SNAPSHOT transaction completes ANSWERED when its result is computed or abandoned (Table 10.3); the job that started it ends
after its results (R409). -/
def State.snapDone (s : State) (x : Snapshot) : State :=
  let s1 := ({ s with bal := { s.bal with snapshots := s.bal.snapshots.erase x } }).bump cTxnAnswered
  match x.job with
  | some j => s1.jobDone j
  | none => s1

/-- The results of a snapshot (R218): the members that latched take it as their base. -/
def State.snapshotResult (s : State) (x : Snapshot) (stamp : Nat) : State :=
  let g := x.group
  let it := s.balGroupItem g
  let b := s.balGroup g
  let base := b.base.getD ⟨0, 0, stamp, none, []⟩
  let span := stamp - base.stamp
  let ms := s.snapParts x base stamp
  let rs := (resultPhases it).map fun p => s.buildResult g p true ms (s.snapFeeder x b.base p span) x.snapId 0 stamp span
  let s1 := ((s.bumpBy cBalSnapshotResults rs.length).bumpBy cBalSnapNotFrozen x.unlatched.length).raiseInt 0x150004 4
  let s2 := s1.finishResults g true ms rs stamp
  let s3 := x.latched.foldl (fun st l => st.modBal l.index fun y => { y with snapImp := l.imp, snapExp := l.exp, snapId := x.snapId }) s2
  let b3 := s3.balGroup g
  let s4 := s3.setBalGroup g { b3 with base := some ⟨x.snapId, x.target, stamp, x.latch it.feed, x.latched.map SnapLatch.index⟩ }
  (s4.pruneGroup g).snapDone x

/-- SNAPSHOT_RESULT (R217, R218): every named meter has latched, or SNAP_COLLECT has passed since C_t.  A group that the node has since
ceased to compute gives no result (R203, DEDUCED, notes/assumptions/160.md). -/
def execSnapshotResult (t : Nat) (s0 : State) : Host.Outcome State Fault Refusal :=
  let s := s0.advance t
  let due (x : Snapshot) : Bool := match x.stamp with
    | some c => decide (x.unlatched = [] ∨ c + s.item iSnapCollect ≤ s.cycleTime)
    | none => false
  if s.pipeOff = true then .next s
  else match s.bal.snapshots.find? due with
  | none => .next s
  | some x => .next (if s.computes x.group = true then s.snapshotResult x (x.stamp.getD 0) else s.snapDone x)

/-- Abandon a snapshot (R219): its results carry ABANDONED and no energies. -/
def State.abandonSnapshot (s : State) (x : Snapshot) (stamp : Nat) : State :=
  let r (p : Nat) : GroupResult :=
    ⟨x.group, p, true, false, false, false, false, false, false, true, true, s.hwl.nodeId, false, 0, 0, 0, x.snapId, 0, stamp, 0, x.target,
     0, 0, 0, 0, 0, 0, none, 0, 0⟩
  let s1 := ((resultPhases (s.balGroupItem x.group)).map fun p => sealGroup (r p)).foldl (fun st q => (st.balToFuller (.group q)).reportOut (.groupResult q)) s
  ((s1.bump cBalSnapAbandoned).raiseInt 0x150004 4).snapDone x

/-- COMPONENT_LAPSE (R231): a component's hold of SCORE_HOLD_DAYS runs out and the score is recomputed. -/
def execComponentLapse (gmn : Gmn) (t : Nat) (s0 : State) : Host.Outcome State Fault Refusal :=
  let s := s0.advance t
  match s.heldIndex gmn with
  | none => .next s
  | some i => .next (if (s.ctxAt i).bal.member = true then s.rescore i s.sec2020 else s)

end Sys2Proof.Machine
end

