-- ==== Sys2Proof/Machine/CampaignOps.lean ====
section
/-!
DEFINITION. Meter firmware campaigns: their meters, what they send, and how a round is judged (R501 to R507).
-/

namespace Sys2Proof.Machine

/-- Blocks of an image. -/
def Campaign.blocks (c : Campaign) : Nat := (c.image.bytes.length + c.args.blockSize - 1) / max 1 c.args.blockSize

/-- Meters in a state. -/
def Campaign.count (c : Campaign) (p : CampState → Bool) : Nat := (c.meters.filter fun m => p m.state).length

/-- A FAILED state. -/
def CampState.isFailed : CampState → Bool
  | .failed _ => true
  | _ => false

/-- The data of a campaign's reports (R507): CAMPAIGN and ROUND, the counts of DONE, FAILED, PENDING, UNTRACKED and EXCLUDED meters, and
BLOCKS_SENT. -/
def campaignDetail (campaign round : Nat) (counts : List Nat) (sent : Nat) : List Byte :=
  leBytes 1 campaign ++ leBytes 1 round ++ rowBytes 2 5 counts ++ leBytes 4 sent

/-- The data of a running campaign's reports. -/
def Campaign.detail (c : Campaign) : List Byte :=
  campaignDetail c.args.campaign c.round [c.count (· = .done), c.count CampState.isFailed, c.count (· = .pending), c.count (· = .untracked),
    c.count (· = .excluded)] c.blocksSent

/-- The FAILED meters with their causes, up to 4 096. -/
def Campaign.failures (c : Campaign) : List (Gmn × Nat) :=
  (c.meters.filterMap fun m => match m.state with
    | .failed n => some (m.gmn, n)
    | _ => none).take 4096

/-- Change a meter of a campaign. -/
def Campaign.setMeter (c : Campaign) (g : Gmn) (f : CampMeter → CampMeter) : Campaign :=
  { c with meters := c.meters.map fun (m : CampMeter) => if m.gmn = g then f m else m }

/-- A meter fails (R509): counted, with an operations event that names it and the cause. -/
def State.meterFailed (s : State) (c : Nat) (g : Gmn) (cause : Nat) : State :=
  match s.camp c with
  | none => s
  | some v => (s.setCamp c (some (v.setMeter g fun m => { m with state := .failed cause }))).noteMeter cUpdMetersFailed .operations .none g.toNat cause

/-- A campaign's payload (Table 16.11): ANNOUNCE (1), the BLOCK of an INDEX (2), or END (3). -/
def Campaign.payload (c : Campaign) (kind index : Nat) : List Byte :=
  let head := leBytes 1 0xC6 ++ leBytes 1 1 ++ leBytes 1 kind ++ leBytes 1 0 ++ leBytes 2 c.id ++ leBytes 2 0
  if kind = 1 then
    head ++ leBytes 8 c.image.model.toNat ++ leBytes 4 c.image.version ++ leBytes 4 c.image.bytes.length ++ leBytes 2 c.args.blockSize ++
      leBytes 2 0 ++ leBytes 4 c.args.activateAt ++ (sha512Bytes c.image.bytes).take 32
  else if kind = 2 then
    let data := (c.image.bytes.drop (index * c.args.blockSize)).take c.args.blockSize
    let b := head ++ leBytes 4 index ++ leBytes 2 data.length ++ leBytes 2 0 ++ data
    b ++ leBytes 4 (crc32c b).toNat
  else head

/-- The priority of a campaign's transactions: that of its task (DESIGN CHOICE, notes/assumptions/21.md). -/
def State.campPriority (s : State) : Nat := (s.taskRank 25).1

/-- Queue a campaign payload as a BROADCAST on each medium of MEDIA (R504). -/
def State.campBroadcast (s : State) (v : Campaign) (kind index : Nat) : State :=
  let send (st : State) (m : Medium) : State :=
    st.pushRequest ⟨0, .broadcast (v.payload kind index), st.campPriority, st.cyc.num, true, none, none, none, m, none, none⟩
  let s1 := if v.args.media.getLsbD 0 = true then send s .plc else s
  (if v.args.media.getLsbD 1 = true then send s1 .radio else s1).topUpIssues

/-- Queue a block for the sleepy meters that take it as a PUSH (R504). -/
def State.campPush (s : State) (v : Campaign) (index : Nat) : State :=
  ((v.meters.filter fun m => m.push && decide (m.state = .pending)).foldl
    (fun st m => st.pushRequest
      ⟨m.gmn, .push (v.payload 2 index) 1, st.campPriority, st.cyc.num, true, none, none, none, .none, none, none⟩) s).topUpIssues

/-- The campaign's task waits or runs and has work left. -/
def State.campTaskHeld (s : State) (c : Nat) : Bool :=
  (s.cch.waiting.any fun t => decide (t.kind = 25 ∧ t.arg = c)) ||
    s.cch.executors.any fun e => !e.acted && (match e.running with
      | some t => decide (t.kind = 25 ∧ t.arg = c)
      | none => false)

/-- The executor on which the campaign's task runs with work left. -/
def State.campExecutor (s : State) (c : Nat) : Option Nat :=
  (List.range 16).find? fun x => decide (s.runningKind x = some 25) && decide ((s.cch.executor x).running.map Task.arg = some c)

/-- Post the campaign's task unless it is held already (R505). -/
def State.postCamp (s : State) (c : Nat) : State := if s.campTaskHeld c = true then s else (s.post (s.taskFor 25 0 c)).1

/-- The campaign's task has done its work. -/
def State.campTaskDone (s : State) (c : Nat) : State :=
  match s.campExecutor c with
  | some x => s.actedOn x
  | none => s

/-- End a campaign: its final report with STATUS 0, CAMPAIGN_DONE and CAMPAIGNS_ENDED (R507). -/
def State.endCampaign (s : State) (c : Nat) (v : Campaign) : State :=
  let s1 := ((s.campTaskDone c).setCamp c none).finishJob v.job 0 .none 0 v.detail (.failed v.failures)
  (s1.bump cUpdCampaignsEnded).raiseInt 0x090004 4

/-- What a meter's status object says (R503, R506, Table 16.12): its next state, with its missing blocks. -/
def Campaign.judge (c : Campaign) (st : CampStatus) : CampState × List Nat :=
  if st.campaign ≠ c.id then (.pending, List.range c.blocks)
  else if st.state = 2 ∨ st.state = 4 then (.done, [])
  else if st.state = 3 then (.failed 2, [])
  else (.pending, st.missing.filter fun b => decide (b < c.blocks))

/-- A campaign takes a meter's status. -/
def State.campStatus (s : State) (c : Nat) (g : Gmn) (st : CampStatus) : State :=
  match s.camp c with
  | none => s
  | some v =>
    if (v.meters.any fun m => decide (m.gmn = g ∧ m.state = .pending)) = false then s
    else
      let j := v.judge st
      let s1 := s.setCamp c (some (v.setMeter g fun m => { m with state := if j.1 = .done then .done else m.state, missing := j.2, heard := true }))
      if j.1 = .done then s1.bump cUpdMetersDone else if j.1 = .failed 2 then s1.meterFailed c g 2 else s1

/-- Firmware hands a campaign the status object that it found in a meter's answer (R506). -/
def State.takeStatus (s : State) (g : Gmn) (status : Option CampStatus) : State :=
  match status with
  | none => s
  | some st => [0, 1, 2, 3].foldl (fun u c => u.campStatus c g st) s

/-- The union of the missing blocks that PENDING meters reported, in INDEX order (R505). -/
def Campaign.union (c : Campaign) : List Nat :=
  (List.range c.blocks).filter fun b => c.meters.any fun m => decide (m.state = .pending) && decide (b ∈ m.missing)

/-- A status round is over: no read is under way, and firmware holds no answer of a PENDING meter. -/
def State.roundOver (s : State) (v : Campaign) : Bool :=
  !(v.meters.any fun m => m.reading) &&
    !(s.ing.fwRing.any fun e => v.meters.any fun m => decide (m.state = .pending) && decide (m.gmn = (s.ctxAt e.index).gmn))

/-- Judge a status round: a second consecutive round without an answer fails a meter with cause 3; after the last round the
rest fail with cause 1; otherwise a repair round follows (R503, R505). -/
def State.judgeRound (s : State) (c : Nat) (v : Campaign) : State :=
  let note (m : CampMeter) : CampMeter :=
    if m.state = .pending then { m with misses := if m.heard = true then 0 else m.misses + 1, heard := false } else m
  let v1 := { v with meters := v.meters.map note }
  let lost := (v1.meters.filter fun m => decide (m.state = .pending ∧ 2 ≤ m.misses)).map CampMeter.gmn
  let s1 := lost.foldl (fun st g => st.meterFailed c g 3) (s.setCamp c (some v1))
  let open1 := ((s1.camp c).map fun x => (x.meters.filter fun m => decide (m.state = .pending)).map CampMeter.gmn).getD []
  let last := decide (v.args.rounds ≤ v.round)
  let s2 := if last = true then open1.foldl (fun st g => st.meterFailed c g 1) s1 else s1
  match s2.camp c with
  | none => s2
  | some w =>
    let s3 := s2.jobProgress w.job w.detail
    if last = true ∨ open1 = [] then s3.endCampaign c w
    else s3.setCamp c (some { w with phase := .repair, announcesLeft := 1, toSend := w.union, due := s.now })

/-- A pass or round has been sent: the campaign waits ROUND_GAP for its status round. -/
def State.passSent (s : State) (c : Nat) (v : Campaign) : State :=
  (s.setCamp c (some { v with phase := .waiting, round := if v.phase = .repair then v.round + 1 else v.round,
                              due := s.now + v.args.roundGap * ticksPerSec })).campTaskDone c

end Sys2Proof.Machine
end

