-- ==== Sys2Proof/Machine/Handoff.lean ====
section
/-!
DEFINITION. Hand-offs between blocks: a feeder record to BAL, Fuller and the mirror.
-/

namespace Sys2Proof.Machine

/-- A TYPE 5 feeder record goes to BAL and Fuller, past VAL and Troika (R136, R146, R205), and to the mirror unless the
mirror stream brought it (R368).  Bytes 52 and 53 of a record of MET that travels on no bundle are zero (R204).  `sender` is the SENDER item
whose bundle brought it. -/
def State.feederArrived (s : State) (f : FeederRecord) (sender : Option Nat) (mirrored : Bool) : State :=
  let g := if sender = none ∧ mirrored = false ∧ s.sendsBundles = false then { f with earth := 0 } else f
  let s1 := s.toBal (.feeder f sender)
  let s2 := if mirrored = true then s1 else s1.mirrorSend (.mfeed g)
  s2.toFuller (.feeder g (if mirrored = false ∧ s.mirroring = true then some s.hwl.mseqOut else none))

end Sys2Proof.Machine
end

