-- ==== Sys2Proof/Machine/Ingest.lean ====
section
/-!
DEFINITION. The commands of the ingest pipeline (spec 04).
-/

namespace Sys2Proof.Machine

/-! ## FIFOs, steering and the splitter -/

/-- INGEST_FRAME (R107): the last word of a frame is written into its FIFO. -/
def execIngestFrame (f : Frame) (s : State) : Host.Outcome State Fault Refusal := .next (s.ingestFrame f)

/-- STEERING (R107). -/
def execSteering (s : State) : Host.Outcome State Fault Refusal := .next (if s.pipeOff = true then s else s.steer)

/-- CREDIT_RETURN (R102): the credits on their way to a producer reach it. -/
def execCreditReturn (src : Fin 11) (s : State) : Host.Outcome State Fault Refusal :=
  let i := s.ing
  .next { s with ing := { i with credits := i.credits.set src.val (i.credits.getD src.val 0 + i.returning.getD src.val 0),
                                 returning := i.returning.set src.val 0 } }

/-- The SENDER item with an identity. -/
def State.findSender (s : State) (id : Nat) : Option Nat :=
  if id = 0 then none else (List.range 256).find? fun k => decide (s.itemField (iSender k) 0 4 = id)

/-- A sender never heard. -/
def SenderState.fresh : SenderState := ⟨[], 0, false⟩

/-- Acknowledge a bundle to the peer it came from (R135). -/
def State.ackBundle (s : State) (b : RelayBundle) (peer : Option (Fin 2 × Fin 32)) : State :=
  match peer with
  | some (p, i) => s.ethSend p i (.bundleAck b.senderId b.seq)
  | none => s

/-- An entry that the splitter refuses: a KIND that Table 4.14 does not have or that the sender may not use (RECORD and FEEDER need their
flags, R136), or a LENGTH that its KIND does not have, of which the spec says nothing (DESIGN CHOICE, notes/assumptions/140.md). -/
def State.entryRefused (s : State) (sender : Nat) (e : RelayEntry) : Bool :=
  let fl := BitVec.ofNat 8 (s.itemField (iSender sender) 5 1)
  match e.payload with
  | .other _ _ => true
  | .record _ => !fl.getLsbD 0
  | .feeder _ _ => !fl.getLsbD 1
  | .sealed a => decide (4032 < a.length)
  | .presence k => decide (¬(1 ≤ k ∧ k ≤ 3))

/-- An entry leaves the splitter with an arrival ticket, or is refused (R135). -/
def State.splitEntry (src sender : Nat) (s : State) (e : RelayEntry) : State :=
  if s.entryRefused sender e = true then s.note cSplitEntryKindRefused .operations .none 0 0
  else
    let s1 := { s with ing := { s.ing with
      inner := s.ing.inner ++ [Ticketed.mk s.ing.ticket (fifoData (entryData e)) (.entry e src (some sender))] } }
    (s1.takeTicket).bump cSplitEntriesOut

/-- Accept a bundle from a known sender: a repeat is only acknowledged, an empty one is a keep-alive. -/
def State.acceptBundle (s : State) (b : RelayBundle) (src sender : Nat) : State :=
  let st := Table.get SenderState.fresh s.ing.senders sender
  if b.seq ∈ st.seqs then s.note cSplitBundleDup .operations .none 0 b.senderId.toNat
  else
    let st1 : SenderState := ⟨(b.seq :: st.seqs).take 64, s.sec2020, b.senderRotation⟩
    let s1 := { s with ing := { s.ing with senders := Table.set SenderState.fresh s.ing.senders sender st1 } }
    if b.entries = [] then s1.bump cSplitKeepalive else b.entries.foldl (State.splitEntry src sender) s1

/-- The CMAC of a bundle verifies under the KEY_SLOT of its sender's item; a slot that is not usable fails (R433). -/
def State.bundleVerifies (s : State) (b : RelayBundle) (k : Nat) : Bool :=
  s.cmacUnder (s.itemField (iSender k) 4 1) (bundleBody b) == some b.cmac

/-- A parity failure that three replays or repeats did not cure (R111, R112). -/
def parityLost : ParityFault → Bool
  | .flit _ n => decide (3 ≤ n)
  | .read n => decide (3 ≤ n)

/-- A replay that succeeded (R111). -/
def parityReplayed : ParityFault → Bool
  | .flit _ n => decide (n < 3)
  | .read _ => false

/-- A frame meets its parity failures (R111, R112): each replay that succeeds is counted in lane `l`, and the first failure that is not
cured drops the frame, which is then `none`. -/
def State.parityStage (s : State) (l : Nat) (fs : List ParityFault) : State × Bool :=
  let cured := (fs.takeWhile fun x => !parityLost x).filter parityReplayed
  let s1 := s.bumpBy (cLaneParityReplay l) cured.length
  if fs.any parityLost = true then ((s1.raiseInt 0x120004 12).note (cLaneParityDrop l) .operations .none 0 0, false) else (s1, true)

/-- BUNDLE_SPLIT (R135): the splitter checks its bundle and hands the entries on, or drops the bundle whole.  Parity failures at the
splitter count in lane 0, because Table 4.21 has no counter of them (DESIGN CHOICE, notes/assumptions/141.md). -/
def execBundleSplit (t : Nat) (s0 : State) : Host.Outcome State Fault Refusal :=
  let s := s0.advance t
  if s.pipeOff = true then .next s
  else match s.ing.splitter with
  | [] => .next s
  | x :: rest =>
    let s1 := { s with ing := { s.ing with splitter := rest } }
    match x.body with
    | .frame f =>
      match f.body with
      | .bundle b peer =>
        let p := s1.parityStage 0 f.faults
        let s2 := p.1.bump cSplitBundlesIn
        .next (if p.2 = false then p.1
          else if bundleFormatOk b = false then s2.note cSplitFormatErr .operations .none 0 0
          else match s2.findSender b.senderId.toNat with
            | none => s2.note cSplitUnknownSender .security .none 0 0
            | some k =>
              if s2.bundleVerifies b k = false then s2.note cSplitCmacFail .security .none 0 0
              else (s2.acceptBundle b f.src k).ackBundle b peer)
      | _ => .next s1
    | _ => .next s1

/-! ## Lanes -/

/-- The first item of a lane that may go on: no earlier item is of its meter, no barrier is before it, and the fill it
waits for is complete (R108, R116). -/
def State.readyIn (s : State) (want : LaneBody → Bool) : List LaneItem → List (Option Nat) → Option LaneItem
  | [], _ => none
  | x :: xs, seen =>
    let barrier := match x.item.body with
      | .op (.barrier _ _) _ => true
      | _ => false
    let free := decide (x.index = none ∨ x.index ∉ seen)
    let ready := !x.waiting || (match x.index with
      | some i => s.cached i
      | none => true)
    if want x.item.body = true ∧ free = true ∧ ready = true then some x
    else if barrier = true then none
    else s.readyIn want xs (x.index :: seen)

/-- Take an item out of its lane. -/
def State.leaveLane (s : State) (l : Nat) (x : LaneItem) : State :=
  { s with ing := { s.ing with lanes := s.ing.lanes.set l ((s.lane l).erase x) } }

/-- Mark an item as waiting for the fill it started. -/
def State.awaitFill (s : State) (l : Nat) (x : LaneItem) : State :=
  { s with ing := { s.ing with lanes := s.ing.lanes.set l ((s.lane l).map fun y => if y = x then { y with waiting := true } else y) } }

/-- VAL can take a record of the lane: it holds none that waits to be validated. -/
def State.valRoom (s : State) (l : Nat) : Bool := decide ((s.val.queue.getD l []) = [])

/-- Hand a record to VAL. -/
def State.toVal (s : State) (l : Nat) (v : ValItem) : State :=
  ({ s with val := { s.val with queue := s.val.queue.set l (s.val.queue.getD l [] ++ [v]) } }).bump (cLaneRecordsOut l)

/-- A frame or entry of a meter whose primary this node is not: forwarded under R23. -/
def State.misdelivered (s : State) (e : RelayEntry) : State := s.forwardEntry e

/-- What the full path needs to know of a frame or a sealed entry; `gmn` is the number that a meter of its slot or entry has. -/
structure Arrival where
  lane : Nat
  index : Nat
  gmn : Nat
  frame : Frame
  link : LinkInfo
  relayed : Bool
  deriving DecidableEq, Repr

/-- UNKNOWN_METER: the context is EMPTY (Table 4.5).  The limit is the meter's: of the index that its slot or its GMN gives.  An EMPTY
context names no GMN; the event names the entry's, or the one that the slot has on this node (DESIGN CHOICE, notes/assumptions/142.md). -/
def State.unknownMeter (s : State) (l i gmn : Nat) : State :=
  s.note (cLaneUnknownMeter l) .operations .interval (2 ^ 20 + i + 1) gmn

/-- The number that a meter of a local slot has on this node (R21). -/
def State.slotGmn (s : State) (i : Nat) : Nat := (s.hwl.nodeId.toNat * 16384 + i) % 2 ^ 20

/-- Which outer layers PARSER recognises (Table 4.10, reason 2). -/
def outerOk (parser : Nat) (o : OuterLayer) : Bool :=
  if parser = 0 then decide (o = .generalGlo ∨ o = .gloGet)
  else if parser = 1 then decide (o = .vcr) else decide (o ≠ .other)

/-- FCK is compared at the end; a bundle entry has none of its own (Table 4.3). -/
def Arrival.fckOk (a : Arrival) : Bool := a.relayed || a.frame.fckOk

/-- The medium of an arrival is radio (R315). -/
def Arrival.radio (a : Arrival) : Bool := decide (a.link.src = 3 ∨ a.link.src = 4)

/-- After a verified tag and a parse: FCK, then the record to VAL, the frame to firmware, or a heartbeat. -/
def State.deliverParsed (s : State) (v : Arrival) (o : Outer) (plain : List Byte) (windowed : Bool) (ans : Option FinalHeld) : State :=
  let c := s.ctxAt v.index
  let exhausted := decide (o.ic = 0xFFFFFFFF#32)
  let done (st : State) : State :=
    if exhausted = true ∧ c.state = .active then st.modCtx v.index fun x => { x with state := .exhausted } else st
  if v.fckOk = false then done ((s.note (cLaneFckFail v.lane) .operations .none 0 0).finalAnswer? ans)
  else match s.parseInner c.group (o.inner plain) with
    | .heartbeat => done (((s.bump (cLaneHeartbeat v.lane)).finalAnswer? ans).heardMeter v.index v.link.rxTime.toNat)
    | .firmware reason => done (s.toFirmware v.lane v.index reason v.frame plain ans)
    | .record p =>
      let e2e := v.relayed && s.boot.headEnd && s.endToEnd c.group
      let r := buildRecord c.gmn p v.link (decide (o.sc = 0x10#8)) windowed e2e v.relayed
      done ((s.heardMeter v.index v.link.rxTime.toNat).toVal v.lane ⟨v.index, v.link.rxCycle, v.link.synth, r, false, none, ans⟩)

/-- The plain information of an APDU whose GCM tag verifies with the context's keys and title (R119, R122); `none` where the keys cannot be
unwrapped or the tag fails. -/
def State.openApdu (s : State) (c : Context) (o : Outer) : Option (List Byte) :=
  match s.contextKeys c with
  | none => none
  | some (ek, ak) =>
    let t := titleBytes c.title
    if o.tagFor t ek ak = o.tag then some (o.plain t ek) else none

/-- The tag fails: nothing in the context changes (R121). -/
def State.tagFails (s : State) (l : Nat) (gmn : Nat) : State :=
  (s.raiseInt 0x120004 14).noteMeter (cLaneTagFail l) .security .interval gmn 0

/-- Decrypt, verify, accept the counter and complete the transaction, then parse (R120, R121, R309). -/
def State.decryptFrame (s : State) (v : Arrival) (a : Outer) (o : IcOutcome) : State :=
  let c := s.ctxAt v.index
  match s.openApdu c a with
  | none => s.tagFails v.lane c.gmn.toNat
  | some plain =>
    let (ic, w) := acceptIc c.rxIc c.window a.ic o
    let s1 := s.modCtx v.index fun x => { x with rxIc := ic, window := w }
    let windowed := match o with
      | .windowed _ => true
      | _ => false
    let (s2, ans) := if v.relayed = true then (s1, none) else s1.answered v.frame.txnTag.toNat c.gmn v.radio 0
    s2.deliverParsed v a plain windowed ans

/-- A frame passed to firmware undecrypted (reasons 1 and 2): its FCK is verified first (Table 4.3). -/
def State.unopened (s : State) (v : Arrival) (reason : Nat) (apdu : Apdu) : State :=
  if v.fckOk = false then s.note (cLaneFckFail v.lane) .operations .none 0 0
  else s.toFirmware v.lane v.index reason v.frame (storedBytes reason v.frame apdu []) none

/-- The full path of a frame of an ACTIVE or FROZEN context (R119, R120, Table 4.10). -/
def State.fullPath (s : State) (v : Arrival) (apdu : Apdu) : State :=
  let c := s.ctxAt v.index
  let a := outerOf apdu
  let g := c.group
  let allow := BitVec.ofNat 8 (s.groupByte g 2)
  let gmn := c.gmn.toNat
  if outerOk (s.groupByte g 1) a.layer = false ∨ a.malformed = true then s.unopened v 2 apdu
  else if a.sc = 0#8 then s.note (cLaneSecurityReject v.lane) .operations .none (gmn + 1) gmn
  else if (a.sc = 0x30#8 ∧ allow.getLsbD 0 = true) ∨ (a.sc = 0x10#8 ∧ allow.getLsbD 1 = true) then
    if a.layer = .generalGlo ∧ a.title ≠ titleBytes c.title then s.note (cLaneTitleMismatch v.lane) .security .none (gmn + 1) gmn
    else
      match judgeIc c.rxIc c.window (s.groupByte g 3) a.ic with
      | .repeated => s.note (cLaneRepeat v.lane) .operations .none (gmn + 1) gmn
      | .replayed => s.noteMeter (cLaneReplay v.lane) .security .interval gmn 0
      | o => s.decryptFrame v a o
  else s.unopened v 1 apdu

/-- A frame of a FORWARD context: FCK, then a SEALED entry; a tagged frame completes at the pre-check (R133, R309). -/
def State.forwardSealed (s : State) (v : Arrival) (a : Apdu) : State :=
  let c := s.ctxAt v.index
  if v.fckOk = false then s.note (cLaneFckFail v.lane) .operations .none 0 0
  else
    let (s1, ans) := s.answered v.frame.txnTag.toNat c.gmn v.radio 6
    let s2 := (s1.finalAnswer? ans).heardMeter v.index v.link.rxTime.toNat
    (s2.addEntry (sealedEntry c.gmn v.frame a)).bump (cLaneForwarded v.lane)

/-- The action of a context's STATE on a frame of its meter (Table 4.5). -/
def State.byState (s : State) (v : Arrival) (a : Apdu) : State :=
  let c := s.ctxAt v.index
  let gmn := c.gmn.toNat
  match c.state with
  | .empty => s.unknownMeter v.lane v.index v.gmn
  | .active => s.fullPath v a
  | .frozen => s.fullPath v a
  | .forward => s.forwardSealed v a
  | .mirror => if s.hwl.partnerRange = true then s.fullPath v a else s.misdelivered (sealedEntry c.gmn v.frame a)
  | .exhausted => s.noteMeter (cLaneExhausted v.lane) .security .interval gmn 0
  | .lost => s.note (cLaneContextLostDrop v.lane) .operations .none (gmn + 1) gmn

/-- A record of a bundle entry: its RCK is verified, RELAYED set, and VAL judges it anew (R136, R110).  A failing RCK counts FORMAT_ERR of the
splitter, since no table names a counter for it (DESIGN CHOICE, notes/assumptions/143.md). -/
def State.relayedRecord (s : State) (l i : Nat) (e : RelayEntry) (r : Record) : State :=
  if recordOk r = false then s.note cSplitFormatErr .operations .none 0 0
  else
    let r1 := sealRecord { r with rxFlags := r.rxFlags ||| flag16 rxRelayed true }
    s.toVal l ⟨i, e.rxCycle, e.synth, r1, false, some r, none⟩

/-- A bundle entry in its lane (R134, R136): by KIND, or forwarded when this node is not the meter's primary (R23).  `src` is the source of its
bundle, 8 for an entry that Herwyn forwarded, which a record built here carries, because an entry carries none (DEDUCED,
notes/assumptions/144.md).  A failing RCK of a FEEDER entry counts as `State.relayedRecord` says. -/
def State.entryPath (s : State) (l : Nat) (i? : Option Nat) (e : RelayEntry) (src : Nat) (sender : Option Nat) : State :=
  match e.payload with
  | .feeder f c => if c = feederCrc f then s.feederArrived f sender false else s.note cSplitFormatErr .operations .none 0 0
  | _ =>
    match i? with
    | none => s.misdelivered e
    | some i =>
      if s.actsFor i = false then s.misdelivered e
      else
        let s1 := match sender with
          | some k => { s with ing := { s.ing with via := Table.set 0 s.ing.via i (k + 1) } }
          | none => s
        match e.payload with
        | .presence _ => (s1.heardMeter i e.rxTime.toNat).bump cSplitPresenceNotes
        | .record r =>
          match (s1.ctxAt i).state with
          | .empty => s1.unknownMeter l i e.gmn.toNat
          | .lost => s1.note (cLaneContextLostDrop l) .operations .none (e.gmn.toNat + 1) e.gmn.toNat
          | _ => s1.relayedRecord l i e r
        | .sealed a =>
          s1.byState ⟨l, i, e.gmn.toNat, entryFrame e src, entryLink e src, true⟩ a
        | _ => s1

/-- A record that firmware built (R106, R126): to VAL unless the meter is gone or its context lost.  Its header brings no receive cycle, so
the record's CYCLE stands for it (DESIGN CHOICE, notes/assumptions/145.md). -/
def State.builtRecord (s : State) (l i : Nat) (f : Frame) (r : Record) : State :=
  if f.fckOk = false then s.note (cLaneFckFail l) .operations .none 0 0
  else match (s.ctxAt i).state with
    | .empty => s.unknownMeter l i r.gmn.toNat
    | .lost => s.note (cLaneContextLostDrop l) .operations .none ((s.ctxAt i).gmn.toNat + 1) (s.ctxAt i).gmn.toNat
    | _ => s.toVal l ⟨i, r.cycle, r.rxFlags.getLsbD rxSynth, r, false, none, none⟩

/-- An item past the context stage. -/
def State.pastContext (s : State) (l : Nat) (x : LaneItem) : State :=
  let s1 := s.leaveLane l x
  match x.item.body with
  | .entry e src sender => s1.entryPath l x.index e src sender
  | .frame f =>
    match f.body, x.index with
    | .entry e, i? => if f.fckOk = false then s1.note (cLaneFckFail l) .operations .none 0 0 else s1.entryPath l i? e 8 none
    | .apdu _ a _, some i => s1.byState ⟨l, i, s1.slotGmn i, f, frameLink f, false⟩ a
    | .built r, some i => s1.builtRecord l i f r
    | _, _ => s1
  | .op _ _ => s1

/-- The frame check (Table 4.3, R106, R111): parity, then FCS; `false` where the frame is dropped. -/
def State.frameCheck (s : State) (l : Nat) (x : LaneItem) : State × Bool :=
  match x.item.body with
  | .frame f =>
    let p := s.parityStage l f.faults
    if p.2 = false then (p.1.leaveLane l x, false)
    else if fcsHolds f = false then ((p.1.note (cLaneFcsFail l) .operations .none 0 0).leaveLane l x, false)
    else p
  | _ => (s, true)

/-- LANE_PROCESSING takes frames and entries; mirrored records and context operations have steps of their own. -/
def LaneBody.isFrame : LaneBody → Bool
  | .op _ _ => false
  | .entry _ _ _ => true
  | .frame f => match f.body with
    | .mirror _ => false
    | _ => true

/-- An item at the context stage: a hit goes on, a miss starts a fill and waits, or the lane stalls (R108, R115).  `badRead`: the cache read
fails its parity three times, so that the way is invalidated and filled again before the frame goes on (R112). -/
def State.contextStage (s : State) (l : Nat) (x : LaneItem) (badRead : Bool) : State :=
  let c := (s.bump (cLaneFramesIn l)).frameCheck l x
  let s1 := c.1
  if c.2 = false then s1
  else
    match x.index with
    | none => s1.pastContext l x
    | some i =>
      if s.cached i = true ∧ badRead = false then ((s1.bump (cLaneCtxHit l)).touchCache i).pastContext l x
      else match (if s.cached i = true then (s1.bump (cLaneCtxHit l)).evict i else s1.bump (cLaneCtxMiss l)).startFill i with
        | some s2 => s2.awaitFill l x
        | none => s

/-- LANE_PROCESSING (R120): the first item of the lane that may go on does; with VAL's lane occupied it waits (R19). -/
def execLaneProcessing (lane : Fin 4) (badRead : Bool) (t : Nat) (s0 : State) : Host.Outcome State Fault Refusal :=
  let s := s0.advance t
  if s.pipeOff = true ∨ s.valRoom lane.val = false then .next s
  else match s.readyIn LaneBody.isFrame (s.lane lane.val) [] with
    | none => .next s
    | some x => .next (if x.waiting = true then s.pastContext lane.val x else s.contextStage lane.val x badRead)

/-! ## Fills, firmware, mirror records and bundles -/

/-- The context becomes LOST (R113); the event that names the meter goes with the drop of the frame (R513). -/
def State.loseContext (s : State) (i : Nat) : State :=
  (s.modCtx i fun c => { c with state := .lost }).raiseInt 0x120004 13

/-- The item that waits for a fill. -/
def State.waiterOf (s : State) (i : Nat) : Option LaneItem := (s.lane (i % 4)).find? fun x => x.waiting && decide (x.index = some i)

/-- CONTEXT_FILL (R115): the lane's oldest outstanding fill ends.  A corrected error is counted in the DDR page; an uncorrectable one or a
CTX_CRC failure makes the context LOST (R113, R114); a parent whose generation has passed drops the frame as a tag failure. -/
def execContextFill (lane : Fin 4) (ecc : EccOutcome) (t : Nat) (s0 : State) : Host.Outcome State Fault Refusal :=
  let s := if (s0.advance t).pipeOff = true then s0.advance t else (s0.advance t).countEcc ecc
  if s.pipeOff = true then .next s
  else match s.laneFills lane.val with
  | [] => .next s
  | i :: _ =>
    let c := s.ctxAt i
    let keyed := decide (c.state ≠ .empty ∧ c.state ≠ .forward ∧ c.state ≠ .lost)
    if ecc = .uncorrectable ∨ c.crcOk = false then .next ((s.endFill i true).loseContext i)
    else if keyed = true ∧ s.keysUnwrap c = false then
      let s1 := s.endFill i false
      .next (match s1.waiterOf i with
        | some x => (s1.tagFails lane.val c.gmn.toNat).leaveLane lane.val x
        | none => s1)
    else .next (s.endFill i true)

/-- The APDU of a frame. -/
def frameApdu (f : Frame) : Apdu :=
  match f.body with
  | .apdu _ a _ => a
  | .entry e => (match e.payload with
    | .sealed a => a
    | _ => [])
  | _ => []

/-- The record that firmware builds from an entry's content, with FW_BUILT (R126). -/
def State.builtOf (s : State) (e : FwEntry) (p : Parsed) : Record :=
  let r := buildRecord (s.ctxAt e.index).gmn p (frameLink e.frame) (decide ((outerOf (frameApdu e.frame)).sc = 0x10#8)) false false false
  sealRecord { r with rxFlags := r.rxFlags ||| flag16 rxFwBuilt true }

/-- The frame in which it returns (R106): SRC 10 and SLOT, zero elsewhere. -/
def builtFrame (e : FwEntry) (r : Record) : Frame :=
  ⟨10, some ⟨e.index % 16384, Nat.mod_lt _ (by decide)⟩, false, false, 0, 0, 0, 0, 0, 0, 0, 0, true, [], .built r⟩

/-- FIRMWARE_RECORD_BUILD (R127): firmware takes the oldest entry of the ring, advances READ_INDEX past it and, where its FCK verifies and
it builds a record, returns that through source 10, once it holds the credits (R102).  For reasons 1 and 2 firmware's own check completes
the transaction (R309).  `status` is a campaign status object that it found, which the campaign takes (R506). -/
def execFirmwareRecordBuild (verified : Bool) (built : Option Parsed) (status : Option CampStatus) (t : Nat) (s0 : State) :
    Host.Outcome State Fault Refusal :=
  let s := s0.advance t
  match s.ing.fwRing with
  | [] => .next s
  | e :: rest =>
    let good := decide (e.fck = crc32c e.stored) && (decide (3 ≤ e.reason) || verified)
    let made := if good = true then built.map (s.builtOf e) else none
    let waits := match made with
      | some r => !s.frameFits (builtFrame e r)
      | none => false
    if waits = true then .next s
    else
      let s1 := ({ s with ing := { s.ing with fwRing := rest } }).advanceFwRead (BitVec.ofNat 32 (65536 * s.fwNext e.slots))
      let c := s1.ctxAt e.index
      let radio := decide (e.frame.src = 3 ∨ e.frame.src = 4)
      let (s2, ans) := if e.reason ≤ 2 ∧ good = true then s1.answered e.frame.txnTag.toNat c.gmn radio 0 else (s1, e.answer)
      let s3 := (s2.finalAnswer? ans).takeStatus c.gmn (if good = true then status else none)
      .next (match made with
        | none => s3
        | some r => s3.ingestFrame (builtFrame e r))

/-- A lane item that is a mirrored record. -/
def LaneBody.isMirror : LaneBody → Bool
  | .frame f => match f.body with
    | .mirror _ => true
    | _ => false
  | _ => false

/-- Ask the partner for a meter's whole state, once per meter per demand interval (R372). -/
def State.syncRequest (s : State) (gmn : Gmn) (reason : Nat) : State :=
  if gmn.toNat ∈ s.hwl.syncAsked then s
  else ({ s with hwl := { s.hwl with syncAsked := gmn.toNat :: s.hwl.syncAsked } }).hwlSend (s.partner.getD 0) 0 (.syncReq gmn reason)

/-- MIRROR_RECORD (R138): the RCK of the lane's next mirrored record is verified and the record goes to VAL; a failure is
dropped and leads to a resend of the meter's state (R372). -/
def execMirrorRecord (lane : Fin 4) (t : Nat) (s0 : State) : Host.Outcome State Fault Refusal :=
  let s := s0.advance t
  if s.pipeOff = true ∨ s.valRoom lane.val = false then .next s
  else match s.readyIn LaneBody.isMirror (s.lane lane.val) [] with
    | none => .next s
    | some x =>
      let s1 := (s.leaveLane lane.val x).bump (cLaneFramesIn lane.val)
      match x.item.body, x.index with
      | .frame f, some i =>
        match f.body with
        | .mirror r =>
          let p := s1.parityStage lane.val f.faults
          .next (if p.2 = false then p.1
            else if recordOk r = true then
              (p.1.bump cSplitMirrorIn).toVal lane.val ⟨i, r.cycle, r.rxFlags.getLsbD rxSynth, r, true, some r, none⟩
            else (p.1.note cSplitMirrorRckFail .operations .none 0 0).syncRequest r.gmn 0)
        | _ => .next s1
      | _, _ => .next s1

/-- BUNDLE_CLOSE (R137): BUNDLE_HOLD has passed since the first entry, or a boundary has come. -/
def execBundleClose (boundary : Bool) (t : Nat) (s0 : State) : Host.Outcome State Fault Refusal :=
  let s := s0.advance t
  match s.ing.outFirst with
  | none => .next s
  | some f => .next (if boundary = true ∨ f + s.item iBundleHold * ticksPerMs ≤ s.now then s.closeBundle else s)

end Sys2Proof.Machine
end

