-- ==== Sys2Proof/Machine/KeyLadder.lean ====
section
/-!
DEFINITION. The key ladder and its persistence: fixed and owner slots, invalidation, the generation table, debug tokens, fuse items and
the measurement registers (R426 to R443).
-/

namespace Sys2Proof.Machine

/-- SEC changes. -/
def State.modSec (s : State) (f : Sec → Sec) : State := { s with sec := f s.sec }

/-- Extend a measurement register with data of a digest (R443). -/
def State.extend (s : State) (m : Nat) (d : Digest) : State :=
  s.modSec fun c => { c with meas := c.meas.set m (sha512 (digestBytes (c.meas.getD m 0) ++ digestBytes d)) }

/-- Measurement registers return to zero. -/
def State.zeroMeas (s : State) (ms : List Nat) : State := s.modSec fun c => { c with meas := ms.foldl (fun l m => l.set m 0) c.meas }

/-- The generation table's entry of a slot at a first start (R436). -/
def GenEntry.first : GenEntry := ⟨1, 0, 0⟩

/-- The generation table's entry of a slot. -/
def State.genEntry (s : State) (k : Nat) : GenEntry := Table.get GenEntry.first s.sec.gens k

/-- Write the generation table's entry, in SEC and in persistence; a TEST start writes nothing. -/
def State.setGen (s : State) (k : Nat) (e : GenEntry) : State :=
  if s.sec.testRoot = true then s
  else
    let t := Table.set GenEntry.first s.sec.gens k e
    { s with sec := { s.sec with gens := t }, nor := { s.nor with keyTable := some t } }

/-- Fill a slot. -/
def State.setKeySlot (s : State) (k : Nat) (v : KeySlot) : State := s.modSec fun c => { c with slots := Table.set KeySlot.empty c.slots k v }

/-! ## The root and derivation (R427, R431, R442) -/

/-- The root that the fuses hold: ROOT_SCR without ROOT_MASK, each bit at its place (R427); byte 0 is the lowest (DEDUCED,
notes/assumptions/146.md). -/
def Fuses.root (f : Fuses) : List Byte :=
  let x := f.rootScr ^^^ f.rootMask
  leBytes 32 ((List.range 256).foldl (fun a i => if x.getLsbD i = true then a ||| 2 ^ (Config.rootBit i).val else a) 0)

/-- ROOT_CHK is the CRC-32C of the root. -/
def Fuses.rootOk (f : Fuses) : Bool := decide (crc32c f.root = f.rootChk)

/-- The bytes of an ASCII string. -/
def asciiBytes (x : String) : List Byte := x.toList.map fun c => BitVec.ofNat 8 c.toNat

/-- The test root (R442). -/
def testRootBytes (serial : BitVec 64) : List Byte := (sha512Bytes (asciiBytes "VX7480-TEST-ROOT" ++ leBytes 8 serial.toNat)).take 32

/-- The length of HKDF's output for a KIND (R431). -/
def materialLength (kind : Nat) : Nat := if kind = 1 then 16 else if kind = 2 ∨ kind = 3 then 32 else if kind = 4 then 64 else 74

/-- The pseudorandom key of a slot's material. -/
def slotPrk (k : List Byte) : List Byte := hkdfExtract (List.replicate 64 0) k

/-- A private scalar from HKDF's output (R431), as 66 bytes. -/
def scalarBytes (okm : List Byte) : List Byte := beBytes 66 (beNat okm % (ecN - 1) + 1)

/-- A derived slot's material from its parent's (R431); the two length bytes are little-endian (R6). -/
def derived (k label : List Byte) (kind : Nat) : List Byte :=
  let l := materialLength kind
  let okm := hkdfExpand (slotPrk k) (asciiBytes "VXKD" ++ (label ++ List.replicate 16 0).take 16 ++ leBytes 1 kind ++ leBytes 2 l) l
  if kind = 5 ∨ kind = 6 then scalarBytes okm else okm

/-- Slots 1 to 4 (Table 14.3): slot, KIND, USAGE, label. -/
def fixedSlots : List (Nat × Nat × BitVec 6 × String) :=
  [(1, 5, 8, "identity"), (2, 5, 8, "attest"), (3, 2, 32, "storage-kek"), (4, 6, 17, "import")]

/-- Fill the fixed slots: the root of the device or of TEST, and the four derived from it. -/
def State.fillFixed (s : State) : State :=
  let root := if s.sec.testRoot = true then testRootBytes s.serial else s.sec.fuses.root
  (fixedSlots.foldl (fun st (x : Nat × Nat × BitVec 6 × String) =>
    st.setKeySlot x.1 ⟨derived root (asciiBytes x.2.2.2) x.2.1, x.2.1, x.2.2.1, 0, 0, st.slotGen 0, 0⟩)
    (s.setKeySlot 0 ⟨root, 3, 1, 0, 0, s.slotGen 0, 0⟩)).bumpBy cSecDerivations 4

/-- The public key of a P-521 slot, SEC 1 uncompressed. -/
def State.slotPublic (s : State) (k : Nat) : List Byte := ecPublic (beNat (s.keySlot k).material)

/-- An ECDSA signature with a P-521 slot; its secret number is drawn. -/
def State.signWith (s : State) (k : Nat) (msg : List Byte) : List Byte :=
  ecdsaSign (beNat (s.keySlot k).material) (Config.ecdsaNonce s.draws % (ecN - 1) + 1) msg

/-- The 282 bytes that KEY_STMT signs (R445). -/
def State.keyStatement (s : State) : List Byte :=
  asciiBytes "VXKS" ++ leBytes 8 s.serial.toNat ++ [if s.sec.testRoot = true then 1#8 else 0#8, 0, 0, 0] ++ s.slotPublic 2 ++ s.slotPublic 4

/-- KEY_STMT, once per start in step 3 (R445). -/
def State.signStatement (s : State) : State := (s.modSec fun c => { c with keyStmt := s.signWith 1 s.keyStatement }).drawn

/-- Load the generation table (R436): erased, lost, or as stored; a TEST start does not read it. -/
def State.loadGens (s : State) : State :=
  if s.sec.testRoot = true then s
  else if s.nor.keyTableBad = true then
    ((s.modSec fun c => { c with gens := [], keytableLost := true, genTableBad := true }).raiseInt 0x070004 4).event .security 7
      (Config.openEventCode 4).toNat 0 0
  else match s.nor.keyTable with
    | none => s.modSec fun c => { c with gens := [], genTableErased := true }
    | some t => s.modSec fun c => { c with gens := t }

/-- The held debug token verifies (R441): R48 against the fuses, and this device. -/
def State.tokenGood (s : State) (t : DebugToken) : Bool :=
  s.sec.fuses.accepts t.envelope.cert && certCarries t.envelope.cert .debug && envelopeSigned t.envelope t.head t.token &&
    decide (t.envelope.targetSerial = s.serial ∧ t.envelope.targetSerial ≠ 0)

/-- Step 3: debug is decided (R441, R442); a token in use loses a start, and one that fails is erased. -/
def State.decideDebug (s : State) : State :=
  let f := s.sec.fuses
  let bad := match s.sec.token with
    | some t => !s.tokenGood t
    | none => false
  let s1 := if bad = true then (s.modSec fun c => { c with token := none }).event .security 7 (Config.openEventCode 3).toNat 0 0 else s
  match s1.sec.token with
  | some t =>
    if f.debugDisable = false ∧ 0 < t.starts then
      s1.modSec fun c => { c with testRoot := true, debugActive := true, debugPorts := if f.debugPermanent = true then 15 else BitVec.ofNat 4 (fieldAt t.token 7 1),
                                  token := some { t with starts := t.starts - 1 } }
    else if f.debugPermanent = true ∧ f.debugDisable = false then
      s1.modSec fun c => { c with testRoot := true, debugActive := true, debugPorts := 15 }
    else s1
  | none =>
    if f.debugPermanent = true ∧ f.debugDisable = false then
      s1.modSec fun c => { c with testRoot := true, debugActive := true, debugPorts := 15 }
    else s1

/-- Step 3 of the start in SEC: debug, the root check (R427), the generation table and the fixed slots. -/
def State.startSec (s : State) : State :=
  let s1 := s.decideDebug
  let s2 := if s1.sec.fuses.rootOk = true then s1 else s1.modSec fun c => { c with testRoot := true }
  (s2.loadGens.fillFixed).signStatement

/-! ## Invalidation (R434, R435) -/

/-- A slot descends from another; `n` bounds the chain of parents. -/
def State.descends (s : State) (root : Nat) : Nat → Nat → Bool
  | 0, _ => false
  | n + 1, k =>
    let v := s.keySlot k
    decide (v.kind ≠ 0 ∧ 8 ≤ k) && (decide (v.parent = root) || s.descends root n v.parent)

/-- The owner slots that descend from a slot. -/
def State.descendants (s : State) (k : Nat) : List Nat := ((List.range 248).map fun i => i + 8).filter fun j => decide (j ≠ k) && s.descends k 256 j

/-- The purge (R435): every cache way whose keys were unwrapped under one of the slots is invalidated.  A way whose fill is outstanding
stays: its unwrap is refused when the fill completes. -/
def State.purgeWays (s : State) (ks : List Nat) : State :=
  { s with ing := { s.ing with cache := s.ing.cache.map fun e =>
      (e.1, { e.2 with ways := (e.2.ways.zip e.2.filling).map fun w => match w.1 with
        | some g => if w.2 = false ∧ (s.ctxAt (wayIndex e.1 g)).keySlot ∈ ks then none else some g
        | none => none }) } }

/-- Invalidate an owner slot: floor and generations, then material, then the purge. -/
def State.invalidate (s : State) (k : Nat) (version : Nat) : State :=
  let kids := s.descendants k
  let e := s.genEntry k
  let s1 := s.setGen k ⟨e.gen + 1, max e.floor (version + 1), e.version⟩
  let s2 := kids.foldl (fun st j => let g := st.genEntry j; st.setGen j ⟨g.gen + 1, g.floor, g.version⟩) s1
  let s3 := (k :: kids).foldl (fun st j => st.setKeySlot j KeySlot.empty) s2
  let names := k + kids.foldl (fun a j => a * 256 + j) 0 * 256
  let s4 := (s3.raiseInt 0x070004 1).note cSecKeyDestroyed .security .none 0 (names % 2 ^ 128)
  (s4.bumpBy cSecOrphaned kids.length).purgeWays (k :: kids)

/-! ## Owner slots at a start (R430 to R437) -/

/-- A KEY item is not filled: below its slot's floor, or the table is lost. -/
def State.skipKey (s : State) (k : Nat) : State := s.note cSecItemSkipped .security .none 0 k

/-- The material of a sealed slot (R432): GCM under a key agreed with the owner's ephemeral key; `none` where the tag fails or a byte that
must be zero is not.  A KEY item whose EPHEMERAL is no point of the curve does not open. -/
def State.unseal (s : State) (k : Nat) (v : List Byte) : Option (List Byte) :=
  match (ecPoint ((v.drop 24).take 133)).bind (ecTimes (beNat (s.keySlot 4).material)) with
  | none => none
  | some z =>
    let aad := v.take 24
    let okm := hkdfExpand (hkdfExtract (leBytes 8 s.serial.toNat) (beBytes 66 z.1)) (asciiBytes "VXKI" ++ leBytes 1 k ++ aad) 44
    let key := okm.take 32
    let iv := okm.drop 32
    let text := (v.drop 160).take 64
    let plain := gcmCrypt key iv text
    let n := materialLength (fieldAt v 0 1)
    if gcmTag key iv aad text = (v.drop 224).take 16 ∧ (plain.drop n).all (fun b => decide (b = 0)) = true then some (plain.take n) else none

/-- Fill a slot with material and keep its version in the generation table. -/
def State.fillKey (s : State) (k : Nat) (v : List Byte) (material : List Byte) : State :=
  let parent := fieldAt v 2 1
  let version := fieldAt v 4 4
  let g := s.genEntry k
  let s1 := s.setKeySlot k ⟨material, fieldAt v 0 1, BitVec.ofNat 6 (fieldAt v 1 1), fieldAt v 3 1, parent, s.slotGen parent, BitVec.ofNat 32 version⟩
  if g.version = version then s1 else s1.setGen k ⟨g.gen, g.floor, version⟩

/-- A KEY item at step 13: skipped, unsealed (R432) or derived (R431); under the test root no sealed slot opens (R442). -/
def State.loadKey (s : State) (k : Nat) : State :=
  let v := s.itemBytes (iKey (k - 8))
  if s.given (iKey (k - 8)) = false then s
  else if s.sec.keytableLost = true ∨ fieldAt v 4 4 < (s.genEntry k).floor then s.skipKey k
  else if fieldAt v 3 1 = 2 then
    match (if s.sec.testRoot = true then none else s.unseal k v) with
    | some m => (s.fillKey k v m).bump cSecUnsealed
    | none => (s.raiseInt 0x070004 0).note cSecUnsealFail .security .none 0 k
  else if s.keyUsable (fieldAt v 2 1) = true then
    (s.fillKey k v (derived (s.keySlot (fieldAt v 2 1)).material ((v.drop 8).take 16) (fieldAt v 0 1))).bump cSecDerivations
  else s

/-- A DESTROY entry (Table 14.9) on the version that the generation table holds, unless it lies below the floor already. -/
def State.destroyEntry (s : State) (i : Nat) : State :=
  let k := s.itemField iDestroy (8 * i) 1
  let version := s.itemField iDestroy (8 * i + 4) 4
  let g := s.genEntry k
  if 8 ≤ k ∧ g.version ≠ 0 ∧ g.floor ≤ g.version ∧ g.version ≤ version then s.invalidate k g.version else s

/-- KEYTABLE_RESET with the image's own SERIAL restarts a lost table (R436). -/
def State.restartGens (s : State) : State :=
  if s.sec.keytableLost = true ∧ s.item iKeytableReset = s.boot.cfgSerial then
    { s with sec := { s.sec with keytableLost := false, genTableBad := false, gens := [] },
             nor := { s.nor with keyTable := some [], keyTableBad := false } }
  else s

/-- Owner slots at step 13. -/
def State.loadKeys (s : State) : State :=
  let s1 := s.restartGens
  let s2 := (List.range 16).foldl State.destroyEntry s1
  ((List.range 248).map fun i => i + 8).foldl State.loadKey s2

/-! ## Access entries and fuse items at step 13 -/

/-- The ACCESS items become entries in force; EXEC of a key slot stays zero. -/
def State.loadAccess (s : State) : State :=
  let items := s.cfg.filter fun e => decide (itemKey 16 0x200 ≤ e.1 ∧ e.1 < itemKey 16 0x600)
  let acc := items.foldl (fun (a : Table (Option (BitVec 16 × BitVec 16 × BitVec 16))) e =>
    let t := fieldAt e.2 0 2
    Table.set none a t (some (BitVec.ofNat 16 (fieldAt e.2 4 2), BitVec.ofNat 16 (fieldAt e.2 6 2),
      if 768 ≤ t then 0 else BitVec.ofNat 16 (fieldAt e.2 8 2)))) []
  s.modSec fun c => { c with acc := acc, overrides := items.length }

/-- The fuses after a fuse item, when they differ. -/
def State.burnt (s : State) (id : Nat) : Option Fuses :=
  let f := s.sec.fuses
  let g : Fuses :=
    if id = 0x14 then { f with revoke := f.revoke ||| BitVec.ofNat 4 (s.item iAnchorRevoke) }
    else if id = 0x15 then { f with certFloor := (List.range 4).map fun a => max (f.certFloor.getD a 0) (s.itemField iCertFloor a 1) }
    else if id = 0x16 then { f with debugDisable := f.debugDisable || decide (s.item iDebugDisable = 1) }
    else { f with anchors := f.anchors.set (id - 0x10) (BitVec.ofNat 512 (leNat (s.itemBytes (itemKey 16 id)))) }
  if g = f then none else some g

/-- A fuse item acts (R428): idempotent; an anchor fused with another digest is skipped; a burn that fails to verify leaves the fuses. -/
def State.fuseItem (e : StartEnv) (s : State) (id : Nat) : State :=
  match s.burnt id with
  | none => s
  | some g =>
    if id < 0x14 ∧ s.sec.fuses.anchors.getD (id - 0x10) 0 ≠ 0 then s.note cSecItemSkipped .security .none 0 id
    else if id ∈ e.fuseFails then (s.raiseInt 0x070004 2).note cSecFuseFail .security .none 0 id
    else ((s.modSec fun c => { c with fuses := g }).bump cSecFuseBurns).event .security 7 0x82 0 id

/-- The fuse items, last in step 13. -/
def State.burnFuses (e : StartEnv) (s : State) : State := s.fuseItems.foldl (State.fuseItem e) s

end Sys2Proof.Machine
end

