-- ==== Sys2Proof/Machine/PlcOps.lean ====
section
/-!
DEFINITION. The power-line front end's operations: paths, the attempt ladder, reception, Tollbook and acknowledgement
(R241 to R268).
-/

namespace Sys2Proof.Machine

/-- The block runs (R269, Table 1.4). -/
def State.plcOn (s : State) : Bool := !s.boot.headEnd || decide (Table.get [] s.cfg iPlcBand ≠ [])

/-- The power-line block runs: it is used in this role, its firmware and items are in place, and the mode does not stop it (Table 15.5). -/
def State.plcRuns (s : State) : Bool := s.plcOn && decide (15 ≤ s.boot.stage ∧ s.pwr.mode ≠ .standby)

/-- The receive chains and the transmit chain run: they stop in RIDE (R463). -/
def State.plcLive (s : State) : Bool := s.plcRuns && decide (s.pwr.mode ≠ .ride)

/-- Parts of PLC change. -/
def State.modPlc (s : State) (f : Plc → Plc) : State := { s with plc := f s.plc }

/-- AFE clocks of a number of microseconds, rounded up (notes/assumptions/104.md, DESIGN CHOICE). -/
def ticksOfUs (us : Nat) : Nat := (us * 3072 + 124) / 125

/-- A nominal period in AFE clocks (R251). -/
def State.periodTicks (s : State) : Nat := if s.cyc.nominal60 = true then 409600 else 491520

/-- A random number below a bound that is a power of two, from the device's generator, and its draw (R263, R278). -/
def State.roll (s : State) (be : Nat) : Nat × State := ((Config.random s.draws).toNat % 2 ^ be, s.drawn)

/-! ## Link quality and paths (R252, R257) -/

/-- Threshold `k` of LQ_THRESHOLDS, 0.25 dB. -/
def State.lqThreshold (s : State) (k : Nat) : Nat := s.itemField iLqThresholds k 1

/-- The class of an SNR in 0.25 dB. -/
def State.lqOf (s : State) (snr : Nat) : Nat :=
  if s.lqThreshold 0 ≤ snr then 3 else if s.lqThreshold 1 ≤ snr then 2 else if s.lqThreshold 2 ≤ snr then 1 else 0

/-- The cost of a hop. -/
def hopCost (lq : Nat) : Nat := if lq = 3 then 1 else if lq = 2 then 2 else if lq = 1 then 4 else 8

/-- The path that a received route offers: its cost with the device's own class for the last hop, repeaters from here. -/
def State.offered (s : State) (route : List (Nat × Nat)) (snr : Nat) : LinkPath :=
  ⟨min 255 ((route.foldl (fun a r => a + hopCost r.2) 0) + hopCost (s.lqOf snr)), route.reverse⟩

/-- The repeaters of a path. -/
def LinkPath.addrs (p : LinkPath) : List Nat := p.hops.map Prod.fst

/-- A meter's routes. -/
def State.routesOf (s : State) (slot : Nat) : RouteCache := Table.get ⟨none, none⟩ s.plc.routes slot

/-- The same path, whatever its cost and the quality of its hops. -/
def sameHops (p : Option LinkPath) (q : LinkPath) : Bool :=
  match p with
  | none => false
  | some x => decide (x.addrs = q.addrs)

/-- A path is the better of two: lower cost, then fewer hops. -/
def cheaper (a b : LinkPath) : Bool := decide (a.cost < b.cost) || (decide (a.cost = b.cost) && decide (a.hops.length < b.hops.length))

/-- Whether an offered path takes the place of a held one; ties go to the fewer hops, then to the path learned last. -/
def beats (p : LinkPath) (held : Option LinkPath) : Bool :=
  match held with
  | none => true
  | some x => !cheaper x p

/-- Offer a path to the route cache (R257); the second part tells whether it was learned anew.  A path that was marked invalid and is
offered again is learned anew (DEDUCED, notes/assumptions/156.md). -/
def RouteCache.offer (r : RouteCache) (p : LinkPath) : RouteCache × Bool :=
  let r1 : RouteCache × Bool :=
    if sameHops r.primary p = true then ({ r with primary := some p }, false)
    else if sameHops r.alternate p = true then ({ r with alternate := some p }, false)
    else if beats p r.primary = true then (⟨some p, r.primary⟩, true)
    else if beats p r.alternate = true then ({ r with alternate := some p }, true)
    else (r, false)
  match r1.1.primary, r1.1.alternate with
  | some a, some b => if cheaper b a = true then (⟨some b, some a⟩, r1.2) else r1
  | _, _ => r1

/-- Store a meter's routes, and their validity in its context (R268). -/
def State.setRoutes (s : State) (slot : Nat) (r : RouteCache) : State :=
  let s1 := s.modPlc fun p => { p with routes := Table.set ⟨none, none⟩ p.routes slot r }
  s1.modCtx slot fun c => { c with plc := { c.plc with primaryValid := r.primary.isSome, altValid := r.alternate.isSome } }

/-- A path is learned for a meter. -/
def State.learnPath (s : State) (slot : Nat) (p : LinkPath) : State :=
  if (s.ctxAt slot).state = .empty ∨ p.hops = [] then s
  else
    let o := (s.routesOf slot).offer p
    let s1 := s.setRoutes slot o.1
    if o.2 = true then s1.bump cPlcRoutesLearned else s1

/-- A path to a meter fails (R258): it is marked invalid; the other keeps its place. -/
def State.dropPath (s : State) (slot : Nat) (p : LinkPath) : State :=
  let r := s.routesOf slot
  if sameHops r.primary p = true then s.setRoutes slot { r with primary := none }
  else if sameHops r.alternate p = true then s.setRoutes slot { r with alternate := none }
  else s

/-- Put a path before the first that costs more. -/
def insertPath (p : LinkPath) : List LinkPath → List LinkPath
  | [] => [p]
  | q :: t => if p.cost ≤ q.cost then p :: q :: t else q :: insertPath p t

/-- The candidates for a meter, by cost (R258). -/
def State.candidates (s : State) (slot : Nat) : List LinkPath :=
  let l := (s.ctxAt slot).plc
  let direct : List LinkPath := if l.bestPhase = 0 then [] else [⟨hopCost (s.lqOf (l.snr.getD (l.bestPhase - 1) 0)), []⟩]
  let r := s.routesOf slot
  (direct ++ r.primary.toList ++ r.alternate.toList).foldr insertPath []

/-! ## Coupling and the ladder (Tables 8.1, 8.7) -/

/-- The enables of a frame that would go out on `phase`; zero, or a three-phase frame, takes all three. -/
def State.enables (s : State) (phase : Nat) (all : Bool) : List Nat :=
  if s.item iCoupling = 2 then [1]
  else if s.item iCoupling = 1 ∨ all = true ∨ phase = 0 then [1, 2, 3] else [phase]

/-- The first receiver of a path: the meter, or the first repeater. -/
def firstReceiver (dst : Nat) (p : LinkPath) : Nat := p.addrs.headD dst

/-- BEST_PHASE of a receiver. -/
def State.phaseTo (s : State) (addr : Nat) : Nat := if addr < 16384 then (s.ctxAt addr).plc.bestPhase else 0

/-- The path and the enables of a frame's present attempt (Table 8.7). -/
def State.attemptOf (s : State) (x : PlcTx) : LinkPath × List Nat :=
  if x.dst = 0xFFFF then (⟨0, []⟩, s.enables 0 true)
  else
    let cs := match x.bound, x.slot with
      | some p, _ => [p]
      | none, some k => s.candidates k
      | none, none => []
    let first := cs.headD ⟨0, []⟩
    let path := if x.attempt = 2 then (cs[1]?).getD first else first
    let all := decide (3 ≤ x.attempt) || (decide (x.attempt = 2) && decide (cs.length < 2))
    (path, s.enables (s.phaseTo (firstReceiver x.dst path)) all)

/-! ## The transmit chain (R242, R243, R264) -/

/-- The transmit chain is sending. -/
def State.plcBusy (s : State) : Bool := decide (s.now < s.plc.txUntil)

/-- From an enable to the first sample: 50 µs (R242). -/
def plcLead : Nat := ticksOfUs 50

/-- The line-driver enable of a phase (R242): from 50 µs before the first sample until 20 µs after the last. -/
def State.plcTxEn (s : State) (phase : Nat) : Bool :=
  decide (phase ∈ s.plc.txPhases) && decide (s.plc.txFrom ≤ s.now ∧ s.now < s.plc.txUntil + ticksOfUs 20)

/-- A chain (0 to 2) is muted: from the first enable of its phase to 200 µs after the enable is released (R243). -/
def State.plcMuted (s : State) (chain : Nat) : Bool :=
  decide (chain + 1 ∈ s.plc.txPhases) && decide (s.plc.txFrom ≤ s.now ∧ s.now < s.plc.txUntil + ticksOfUs 220)

/-- A chain by number. -/
def State.chain (s : State) (n : Nat) : PlcChain := s.plc.chains.getD n ⟨none, 0⟩

/-- Set a chain. -/
def State.setChain (s : State) (n : Nat) (c : PlcChain) : State := s.modPlc fun p => { p with chains := p.chains.set n c }

/-- A chain is inside a frame: until the last symbol that the frame control header announces, or until the longest frame of BAND where
the header failed (R246). -/
def State.inFrame (s : State) (n : Nat) : Bool :=
  match (s.chain n).rx with
  | some r => decide (s.now < r.ends)
  | none => false

/-- GAIN of a chain: frozen during a frame, else what AGC sets (R246). -/
def State.plcGain (s : State) (n : Nat) : Nat :=
  match (s.chain n).rx with
  | some r => if s.now < r.ends then r.gain.val else (Config.plcGain n s.now).val
  | none => (Config.plcGain n s.now).val

/-- Drive phases from the enable 50 µs before a first sample for an airtime: frames arriving on their chains are lost and counted
RX_MUTED (R242, R243). -/
def State.drive (s : State) (phases : List Nat) (first airtime : Nat) : State :=
  let s1 := s.modPlc fun p => { p with txFrom := first - plcLead, txUntil := first + airtime, txPhases := phases }
  phases.foldl (fun st p =>
    if st.inFrame (p - 1) = true then (st.setChain (p - 1) { st.chain (p - 1) with rx := none }).bump (cPlcRxRxMuted (p - 1))
    else st) s1

/-- The AFE time at which a queued beacon launches: its instant once its cycle is numbered, before that as its crossing is expected. -/
def State.launchAt (s : State) (b : BeaconDue) : Nat :=
  b.at_.getD (s.cyc.lastAt + (b.cycle - s.cyc.num) * s.periodTicks + b.offset)

/-- The tone map of all tone groups (Table 8.2). -/
def State.allGroups (s : State) : BitVec 24 := if s.item iPlcBand = 1 then 0xFFFFFF else 0x3F

/-- The airtime of a frame of robust modulation with all tone groups. -/
def State.robustAirtime (s : State) (bytes : Nat) : Nat := Config.plcAirtime (s.item iPlcBand) 0 s.allGroups bytes

/-- The bytes of a beacon frame: header, body and FCS. -/
def beaconLength (b : BeaconDue) : Nat := if b.command.isSome = true then 52 else 32

/-- A frame that starts now and takes an airtime would overlap a beacon's reserved span, from 1 ms before its launch to its end (R264). -/
def State.meetsBeacon (s : State) (first airtime : Nat) : Bool :=
  s.plc.beacons.any fun b =>
    decide (s.launchAt b < first + airtime + ticksPerMs ∧ first < s.launchAt b + s.robustAirtime (beaconLength b))

/-! ## Frames to send -/

/-- The AFE time at which a wait of 0 to 2^BE − 1 slots of CSMA_SLOT ends that begins now (R263), and its draw. -/
def State.csmaWait (s : State) (be : Nat) : Nat × State :=
  let r := s.roll be
  (s.now + ticksOfUs (r.1 * s.itemField iPlcCsma 2 2), r.2)

/-- Queue a frame with a new SEQ (R261); its wait begins now (DESIGN CHOICE, notes/assumptions/150.md). -/
def State.plcQueue (s : State) (w : LinkWork) (a : Apdu) (slot : Option Nat) (dst : Nat) (bound : Option LinkPath) : State :=
  let be := s.itemField iPlcCsma 0 1
  let r := s.csmaWait be
  r.2.modPlc fun p => { p with seq := p.seq + 1, tx := p.tx ++ [⟨w, a, slot, dst, p.seq, bound, 0, be, 0, r.1, none, false, 0⟩] }

/-- Start a discovery, or let it wait for one of the 16 places (R256, R258). -/
def State.discover (s : State) (slot : Nat) : State :=
  if (s.plc.discoveries.any fun d => decide (d.1 = slot)) = true ∨ slot ∈ s.plc.discWaiting then s
  else if 16 ≤ s.plc.discoveries.length then s.modPlc fun p => { p with discWaiting := p.discWaiting ++ [slot] }
  else
    let s1 := (s.modPlc fun p => { p with discoveries := p.discoveries ++ [(slot, s.now + s.item iDiscWindow * ticksPerSec)] }).bump
      cPlcDiscoveries
    (s1.modCtx slot fun c => { c with plc := { c.plc with discovering := true } }).plcQueue (.discover slot) [] none 0xFFFF none

/-- Remove a frame from the queue. -/
def State.plcDone (s : State) (x : PlcTx) : State := s.modPlc fun p => { p with tx := p.tx.erase x }

/-- Replace a queued frame. -/
def State.plcSet (s : State) (x y : PlcTx) : State := s.modPlc fun p => { p with tx := p.tx.map fun z => if z = x then y else z }

/-- An attempt fails (R258): the next of the ladder follows after a new backoff, or the frame fails. -/
def State.plcAttemptFailed (s : State) (x : PlcTx) : State :=
  if x.dst ≠ 0xFFFF ∧ x.attempt < s.item iPlcRetries then
    let be := s.itemField iPlcCsma 0 1
    let r := s.csmaWait be
    (r.2.plcSet x { x with attempt := x.attempt + 1, be := be, deferrals := 0, readyAt := r.1, awaiting := false }).bump cPlcTxRetry
  else
    let s1 := ((s.plcDone x).bump cPlcTxFail).raiseInt 0x190004 1
    let s2 := match x.slot with
      | none => s1
      | some k =>
        let n := satAdd 8 (s1.ctxAt k).plc.fails 1
        let s3 := s1.modCtx k fun c => { c with plc := { c.plc with fails := n } }
        if s.item iRouteFailLimit ≤ n then (s3.dropPath k ((x.used).getD ⟨0, []⟩)).discover k else s3
    match x.work with
    | .request t => s2.failAttempt t true
    | .command t => s2.failAttempt t true
    | _ => s2

/-- The modulation and tone map of a frame (R245): the advice last received from its first receiver; without any, or for a broadcast,
robust modulation and all tone groups.  Advice that MOD_MASK forbids gives way to robust modulation (DESIGN CHOICE,
notes/assumptions/155.md). -/
def State.plcModulation (s : State) (x : PlcTx) (p : LinkPath) : Nat × BitVec 24 :=
  let hop := firstReceiver x.dst p
  let l := (s.ctxAt hop).plc
  if x.dst = 0xFFFF ∨ 16384 ≤ hop ∨ (s.ctxAt hop).state = .empty ∨ l.txTm = 0 then (0, s.allGroups)
  else (if (BitVec.ofNat 4 (s.item iModMask)).getLsbD l.txMod = true then l.txMod else 0, l.txTm)

/-- ZC_DELAY of a frame sent on some phases (R251): from the last positive-going crossing of the transmit phase, L1 for a three-phase
transmission, to its first preamble sample, in 1/256 of a nominal period.  More than a period, or without a crossing, it is 255 (DESIGN CHOICE,
notes/assumptions/149.md). -/
def State.zcDelay (s : State) (phases : List Nat) (first : Nat) : Nat :=
  let n := if phases.length = 1 then phases.headD 1 - 1 else 0
  match (s.cyc.phases.getD n ⟨none, none, 0, false, 0, [], []⟩).lastValid with
  | some z => min 255 ((first - z) * 256 / s.periodTicks)
  | none => 255

/-- The phase detection counter of a frame's control header. -/
def State.pdcOf (s : State) (phases : List Nat) (first : Nat) : BitVec 8 :=
  let n := if phases.length = 1 then phases.headD 1 - 1 else 0
  Config.plcPdc (first - ((s.cyc.phases.getD n ⟨none, none, 0, false, 0, [], []⟩).lastValid).getD 0)

/-- TYPE of what a frame carries (Tables 8.5, 9.4). -/
def LinkWork.typ : LinkWork → Nat
  | .request _ => 0
  | .command _ => 3
  | .discover _ => 4
  | .assign .. => 7
  | .meshAck _ _ => 8
  | .slotSet .. => 9
  | .keepAlive => 0

/-- TAG of a frame: a request's tag and generation (Table 8.4). -/
def State.tagOf (s : State) : LinkWork → Option (BitVec 16)
  | .request t => some (BitVec.ofNat 16 (tagName t (s.tagAt t).gen))
  | _ => none

/-- The body of a power-line frame (Table 8.5). -/
def State.plcBody (s : State) (w : LinkWork) (a : Apdu) : List Byte :=
  match w with
  | .discover k => leBytes 2 k ++ leBytes 2 0
  | .assign k title relay => assignBody k (s.item iPlcNetId) relay title
  | _ => a

/-- The bytes of a frame of the node on a path (R250): towards the meters, its route with every LQ zero. -/
def State.plcBytes (s : State) (x : PlcTx) (p : LinkPath) (phases : List Nat) (first : Nat) : List Byte :=
  withCrc32 (plcHeader x.work.typ (decide (x.dst ≠ 0xFFFF)) (s.tagOf x.work) false 0 s.plc.epoch (s.item iPlcNetId) (s.zcDelay phases first)
    0xFFFE x.dst x.seq (p.addrs.map fun a => (a, 0)) ++ s.plcBody x.work x.apdu)

/-- A frame goes out on the chain: an attempt of a unicast awaits its ACK for 1.2 ms, the airtime of a robust ACK and 1 ms after its last
sample (R258); a broadcast is done. -/
def State.plcTransmit (s : State) (x : PlcTx) : State :=
  let a := s.attemptOf x
  let first := s.now + plcLead
  let md := s.plcModulation x a.1
  let bytes := s.plcBytes x a.1 a.2 first
  let air := Config.plcAirtime (s.item iPlcBand) md.1 md.2 bytes.length
  let s1 := (((s.drive a.2 first air).bump cPlcFramesTx).emit
    (.plcFrame ⟨a.2, s.item iTxLevel, md.1, md.2, s.pdcOf a.2 first, first, bytes⟩))
  let s2 := match x.work with
    | .request t => s1.txnSent t
    | _ => s1
  if x.dst = 0xFFFF then
    let s3 := s2.plcDone x
    match x.work with
    | .command t => s3.completeTxn t 0 false
    | _ => s3
  else s2.plcSet x { x with used := some a.1, awaiting := true, waitUntil := first + air + ticksOfUs 2200 + s.robustAirtime 12 }

/-! ## PENDING (R262) -/

/-- TXN or the transmit queue holds a downstream frame whose first receiver is an address. -/
def State.plcPending (s : State) (addr : Nat) : Bool :=
  (s.plc.tx.any fun x => decide (x.dst ≠ 0xFFFF) && decide (firstReceiver x.dst (s.attemptOf x).1 = addr)) ||
    ((s.readyOn 12).any fun r => match s.heldIndex r.gmn with
      | some i => decide (firstReceiver (i % 16384) ((s.candidates i).headD ⟨0, []⟩) = addr)
      | none => false)

/-! ## Advice (R254) -/

/-- ADV_TM and ADV_MOD for a frame; SNR in 1/64 dB. -/
def State.advice (s : State) (c : PlcCopy) : BitVec 24 × Nat :=
  let n := if s.item iPlcBand = 1 then 24 else 6
  let on := (List.range n).filter fun g => decide (192 ≤ c.groups.getD g 0)
  if on = [] then (BitVec.ofNat 24 (2 ^ n - 1), 0)
  else
    let mean := (on.foldl (fun a g => a + c.groups.getD g 0) 0) / (on.length : Int)
    let ok (m : Nat) (need : Int) : Bool := (BitVec.ofNat 4 (s.item iModMask)).getLsbD m && decide (need ≤ mean)
    (BitVec.ofNat 24 (on.foldl (fun a g => a + 2 ^ g) 0), if ok 3 960 = true then 3 else if ok 2 576 = true then 2 else if ok 1 320 = true then 1 else 0)

/-! ## Tollbook (R261, R289) -/

/-- A key is in a Tollbook. -/
def tolled (l : List Tolled) (net src : Nat) (seq : BitVec 16) (epoch now : Nat) : Bool :=
  l.any fun e => decide (e.netId = net ∧ e.src = src ∧ e.seq = seq ∧ e.epoch = epoch ∧ now < e.ends)

/-- Insert a key; a full Tollbook of 16 384 entries loses its oldest. -/
def insertToll (l : List Tolled) (e : Tolled) : List Tolled × Bool :=
  if 16384 ≤ l.length then (l.drop 1 ++ [e], true) else (l ++ [e], false)

/-- Insert a PLC key. -/
def State.plcToll (s : State) (f : PlcFrame) : State :=
  let r := insertToll s.plc.tollbook ⟨f.netId, f.src, f.seq, f.epoch, s.now + s.item iPlcTollbookLife * ticksPerSec⟩
  let s1 := s.modPlc fun p => { p with tollbook := r.1 }
  if r.2 = true then (s1.bump cPlcTollbookEvict).raiseInt 0x190004 3 else s1

/-! ## Delivery (R251, R259, R265) -/

/-- AFE clocks from the last valid L1 crossing to a first preamble sample (R251); `none` while L1 is absent or the reference cycle is
synthetic.  Crossings before the last are the valid periods back from it. -/
def State.sinceZero (s : State) (first : Nat) : Option Nat :=
  let l1 := s.cyc.phases.headD ⟨none, none, 0, false, 0, [], []⟩
  if l1.present = false ∨ s.cyc.synth = true then none
  else match l1.lastValid with
    | none => none
    | some z =>
      let zs := l1.periods.foldl (fun (l : List Nat) p => (l.headD 0 - p) :: l) [z]
      (zs.reverse.find? fun y => decide (y ≤ first)).map fun y => first - y

/-- ZC_OFFSET of a heard copy; `none` where it is not measured. -/
def State.zcOffset (s : State) (h : PlcHeard) : Option Nat :=
  h.sinceZero.map fun a => (a * 65536 / s.periodTicks + 65536 * 256 - 256 * h.frame.zcDelay) % 65536

/-- Weighted mean of SNR (R268). -/
def State.snrMean (s : State) (old x : Nat) : Nat :=
  if old = 0 then x else ((old : Int) + ((x : Int) - old).tdiv (2 ^ s.item iSnrAlpha : Nat)).toNat

/-- The phase with the highest mean, L1 first among equals; zero without any. -/
def bestPhaseOf (snr : List Nat) : Nat :=
  (List.range 3).foldl (fun b p => if snr.getD p 0 = 0 then b else if b = 0 ∨ snr.getD (b - 1) 0 < snr.getD p 0 then p + 1 else b) 0

/-- A direct frame from a meter updates its SNR (R268). -/
def State.heardDirect (s : State) (slot chain snr : Nat) : State :=
  s.modCtx slot fun c =>
    let m := c.plc.snr.set chain (s.snrMean (c.plc.snr.getD chain 0) snr)
    { c with plc := { c.plc with snr := m, bestPhase := bestPhaseOf m } }

/-- A sub-band's attenuation in 1/64 dB: TX_REF less its level, saturating (R265). -/
def attenuation (ref : Nat) (level : Int) : Nat := min 65535 ((ref * 64 : Nat) - level).toNat

/-- A channel estimate goes to BAL (R265). -/
def State.estimateOut (s : State) (slot : Nat) (h : PlcHeard) : State :=
  let st := (s.ctxAt slot).state
  if h.frame.route ≠ [] ∨ h.damaged = true ∨ 16384 ≤ slot ∨ (st ≠ .active ∧ st ≠ .mirror) then s
  else if 256 ≤ s.plc.estimates.length then (s.raiseInt 0x190004 0).note cPlcEstimateDrop .operations .interval 0 0
  else
    (s.modPlc fun p => { p with estimates := p.estimates ++
      [⟨(s.ctxAt slot).gmn, h.chain + 1, h.stamp.cycle, h.copy.snr, h.copy.modulation, h.copy.levels.map (attenuation (s.item iTxRef))⟩] }).bump
      cPlcEstimatesOut

/-- SNR of a copy in 0.25 dB, saturating (R259). -/
def quarterDb (snr : Nat) : Nat := min 255 (snr / 16)

/-- The ingest frame of a DATA frame (R259). -/
def State.plcIngest (s : State) (h : PlcHeard) : Frame :=
  let f := h.frame
  { src := h.chain,
    slot := if k : f.src < 16384 then (if f.hopIndex = f.route.length then some ⟨f.src, k⟩ else none) else none,
    synth := h.stamp.synth, regressed := h.stamp.regressed, rxCycle := h.stamp.cycle,
    zcOffset := BitVec.ofNat 16 ((s.zcOffset h).getD 0xFFFF), snr := BitVec.ofNat 8 (quarterDb h.copy.snr),
    hops := BitVec.ofNat 3 f.route.length, rxPhase := BitVec.ofNat 2 (h.chain + 1), txnTag := f.tag.getD 0xFFFF, rxTime := h.stamp.time,
    fcsKind := 2, fckOk := h.copy.fckOk, faults := h.copy.faults, body := .apdu f.header f.body f.fcs }

/-- The GMN of an assigned address, if its context is not EMPTY. -/
def State.gmnOfSlot (s : State) (src : Nat) : Option Gmn :=
  if src < 16384 ∧ (s.ctxAt src).state ≠ .empty then some (s.ctxAt src).gmn else none

/-- Firmware answers a JOIN (R256): the slot whose context has the system title. -/
def State.titleSlot (s : State) (title : BitVec 64) : Option Nat :=
  ((s.ctx.find? fun e => decide (e.1 < 16384 ∧ e.2.state ≠ .empty ∧ e.2.title = title))).map Prod.fst

/-- Keep the CAPS of a meter's JOIN. -/
def State.keepCaps (s : State) (slot : Nat) (caps : BitVec 16) : State := s.modPlc fun p => { p with caps := Table.set 0 p.caps slot caps }

/-- The ACK of a reception falls due 1.2 ms after the last sample (R252). -/
def State.plcAckDue (s : State) (h : PlcHeard) (last : Nat) : State :=
  let f := h.frame
  if f.dst = 0xFFFE ∧ f.ackReq = true ∧ f.hopIndex = f.route.length then
    let hop := match f.route.getLast? with
      | some r => r.1
      | none => f.src
    let v := s.advice h.copy
    s.modPlc fun p => { p with acks := p.acks ++ [⟨last + 29491, s.enables (h.chain + 1) false, hop, f.seq, f.epoch, v.2, v.1⟩] }
  else s

/-- What every delivery of a meter's frame does to its link state. -/
def State.plcHeardFrom (s : State) (h : PlcHeard) : State :=
  let f := h.frame
  if 16384 ≤ f.src ∨ (s.ctxAt f.src).state = .empty ∨ f.hopIndex ≠ f.route.length then s
  else
    let s0 := s.heardMeter f.src s.sec2020
    let s1 := if f.typ = 0 then s0.learnPath f.src (s.offered f.route (h.copy.snr / 16)) else s0
    if f.route = [] then s1.heardDirect f.src h.chain (quarterDb h.copy.snr) else s1

/-- A JOIN reaches firmware (R256): it is answered with an ASSIGN along the reversed route, or its title is unknown. -/
def State.plcJoin (s : State) (h : PlcHeard) : State :=
  let f := h.frame
  let title := BitVec.ofNat 64 (fieldAt f.body 0 8)
  match s.titleSlot title with
  | some k =>
    (s.keepCaps k (BitVec.ofNat 16 (fieldAt f.body 8 2))).plcQueue (.assign k title (Config.grantsRelay k)) [] none f.src
      (some (s.offered f.route (h.copy.snr / 16)))
  | none => ((s.raiseInt 0x190004 4).eventLimited .operations .interval title.toNat cPlcJoinUnknown.source cPlcJoinUnknown.code
      cPlcJoinUnknown.set title.toNat).bump cPlcJoinUnknown

/-- Deliver a reception's copy (R259, R260): to ING, to the route cache or to firmware.  `false` where ING lacks credits:
then nothing is delivered.  A DISCOVER_REPLY counts only while its discovery runs (R256). -/
def State.plcDeliver (s : State) (h : PlcHeard) : State × Bool :=
  let f := h.frame
  let zc (st : State) : State := if (st.zcOffset h).isNone = true then st.bump (cPlcRxZcUnmeasured h.chain) else st
  if f.typ = 0 ∧ f.body ≠ [] then
    let pre := s.preCheck (f.tag.getD 0xFFFF).toNat (s.gmnOfSlot f.src)
    if pre.2 = false then ((pre.1.plcToll f).plcHeardFrom h, true)
    else
      let g := s.plcIngest h
      if s.frameFits g = false then (s.ingestFrame g, false)
      else
        let s1 := (zc (pre.1.ingestFrame g)).plcToll f
        (((s1.plcHeardFrom h).bump (cPlcRxDelivered h.chain)).estimateOut f.src h, true)
  else if f.typ = 0 then (((s.plcToll f).plcHeardFrom h).bump (cPlcRxKeepalive h.chain), true)
  else if f.typ = 5 then
    let target := fieldAt f.body 0 2
    let s1 := ((s.plcToll f).plcHeardFrom h).estimateOut f.src h
    let s2 := if (s.plc.discoveries.any fun d => decide (d.1 = target)) = true then s1.learnPath target (s.offered f.route (h.copy.snr / 16)) else s1
    (s2.bump (cPlcRxDelivered h.chain), true)
  else if f.typ = 6 then ((((s.plcToll f).bump cPlcJoinRx).estimateOut f.src h).plcJoin h, true)
  else (s.plcToll f, true)

end Sys2Proof.Machine
end

