-- ==== Sys2Proof/Machine/StoreBytes.lean ====
section
/-!
DEFINITION. Fuller's flash as bytes: physical addresses (R332), stream 8 entries and the other sectors (R335, Table 11.6), page metadata with
PAGE_CRC (Table 11.2) and block summaries (Table 11.3).
-/

namespace Sys2Proof.Machine

/-! ## Physical addresses (R332) -/

/-- Bits that hold the numbers below `n`. -/
def fieldBits (n : Nat) : Nat := if n ≤ 1 then 0 else Nat.log2 (n - 1) + 1

/-- The physical sector address of sector `pos` of page `page` of block `block` of the array (R332). -/
def Ful.psa (f : Ful) (block page pos : Nat) : Nat :=
  let g := f.geometry
  let k := if f.perCe = 0 then 0 else block % f.perCe
  let ce := f.used.getD (if f.perCe = 0 then 0 else block / f.perCe) 0
  let pb := fieldBits g.pages
  let bb := fieldBits g.blocks
  let lb := fieldBits g.luns
  pos + 4 * (page + 2 ^ pb * (k % (max 1 g.blocks) + 2 ^ bb * (k / (max 1 g.blocks) + 2 ^ lb * (ce % 4 + 4 * (ce / 4)))))

/-! ## Journal entries (Table 11.6) -/

/-- The job of Table 13.5 that a legal operation carries out; an internal one has none. -/
def legalBody (g : Gmn) : LegalOp → Option JobBody
  | .credit a => some (.creditChange g a)
  | .disconnect _ => some (.disconnect g)
  | .reconnect f _ => some (.reconnect g (if f = true then 1 else 0))
  | .release m => some (.legalRelease g m)
  | .confirm _ => none
  | .forcedClosure _ => none

/-- CODE and the argument bytes of a KIND 1 entry; of an operation that no job orders they are free (notes/assumptions/182.md). -/
def journalJob (g : Gmn) : JournalBody → Nat × List Byte
  | .job op => match legalBody g op with
    | some b => (b.code, jobArgs b)
    | none => ((Config.internalJob op).toNat, (List.range 36).map (Config.internalArgs op))
  | .tariff k x => ((JobBody.pushTariffSet k x).code, jobArgs (.pushTariffSet k x))
  | .cleared a => ((JobBody.enrolMeter a).code, jobArgs (.enrolMeter a))
  | _ => (0, [])

/-- KIND, the word of bytes 4 to 7, CODE and ARGS of an entry. -/
def journalFields (g : Gmn) : JournalBody → Nat × Nat × Nat × List Byte
  | .declined q c => (2, q.toNat, c, [])
  | .frozen q c => (3, q.toNat, c, [])
  | .image i p c => (4, i, p, partOf (contextBytes c) (32 * p) 32)
  | b => (1, 0, (journalJob g b).1, (journalJob g b).2)

/-- Bytes 0 to 59 of a journal entry. -/
def journalHead (j : JournalEntry) : List Byte :=
  let f := journalFields j.gmn j.body
  leBytes 4 (j.gmn.toNat + 2 ^ 20 * f.1 + 2 ^ 24 * 15) ++ leBytes 4 f.2.1 ++ leBytes 6 j.cycle ++ leBytes 1 f.2.2.1 ++ [0] ++
    leBytes 4 j.time ++ (f.2.2.2 ++ List.replicate 36 0).take 36 ++ List.replicate 4 0

/-- The 64 bytes of a journal entry, RCK last. -/
def journalBytes (j : JournalEntry) : List Byte := journalHead j ++ leBytes 4 (crc32c (journalHead j)).toNat

/-! ## Sectors (R334, R335, R337) -/

/-- The 64 bytes of a stream 8 entry. -/
def storeEntryBytes : StoreEntry → List Byte
  | .record r _ _ _ => recordData r
  | .feeder f => feederBytes f ++ leBytes 4 (feederCrc f).toNat
  | .journal j => journalBytes j

/-- Entry slots of a sector; an empty one is all ones (R335). -/
def slotsBytes {α : Type} (enc : α → List Byte) (es : List (Option α)) : List Byte :=
  es.flatMap fun e => match e with
    | some x => enc x
    | none => List.replicate 64 0xFF

/-- The 4 096 bytes of a sector.  The layouts of the control record, the counters, the checkpoints' data and a meter image's sector that the
spec does not give are free (notes/assumptions/26.md, 182.md). -/
def sectorBytes : SectorData → List Byte
  | .entries es => slotsBytes storeEntryBytes es
  | .groups es => slotsBytes (fun g => groupBytes g ++ leBytes 4 g.crc.toNat) es
  | .anomalies es => slotsBytes (fun a => anomalyBytes a ++ leBytes 4 a.crc.toNat) es
  | .tariff _ x => (x.bytes ++ List.replicate 4096 0xFF).take 4096
  | d => (List.range 4096).map (Config.sectorByte d)

/-- The four sectors of a page as its 16 384 data bytes; an unused position is all ones. -/
def pageData (p : StorePage) : List Byte :=
  (List.range 4).flatMap fun k => match p.sectors.getD k none with
    | some x => sectorBytes x.2
    | none => List.replicate 4096 0xFF

/-- The LSAs of a page, 32 bits each (Table 11.2). -/
def pageLsas (p : StorePage) : List Byte :=
  (List.range 4).flatMap fun k => leBytes 4 (match p.sectors.getD k none with
    | some x => x.1
    | none => 0xFFFFFFFF)

/-- Page metadata, 64 bytes, PAGE_CRC over the data and the bytes before it (Table 11.2). -/
def pageMeta (seq : Nat) (gcCopy summary : Bool) (lsas data : List Byte) : List Byte :=
  let m := leBytes 6 seq ++ leBytes 1 (flagBit gcCopy 0 + flagBit summary 1) ++ [0] ++ lsas ++ List.replicate 36 0
  m ++ leBytes 4 (crc32c (data ++ m)).toNat

/-- The bytes of a data page and of its spare area. -/
def pageImage (p : StorePage) : List Byte × List Byte :=
  (pageData p, pageMeta p.seq p.gcCopy false (pageLsas p) (pageData p))

/-! ## Block summaries (Table 11.3) -/

/-- Summary pages per block (R341): the least S with 16 384 × S ≥ 64 + 16 × (P − S). -/
def summaryPages (p : Nat) : Nat := (p + 4 + 1024) / 1025

/-- Header bytes 0 to 59. -/
def summaryHead (s : Nat) (v : Block) : List Byte :=
  leBytes 4 0x53465856 ++ [1] ++ leBytes 1 s ++ leBytes 2 v.pages.length ++ leBytes 6 ((v.pages.head?.map StorePage.seq).getD 0) ++
    leBytes 6 ((v.pages.getLast?.map StorePage.seq).getD 0) ++ leBytes 4 v.erases ++ leBytes 1 v.closeKind ++ [0, 0, 0] ++ leBytes 5 v.closeTime ++
    List.replicate 27 0

/-- The summary: header with SUM_CRC, then one entry per data page. -/
def summaryBytes (s : Nat) (v : Block) : List Byte :=
  let es := v.pages.flatMap pageLsas
  summaryHead s v ++ leBytes 4 (crc32c (summaryHead s v ++ es)).toNat ++ es

/-- Page `k` of a summary and its spare area, under its SEQ; after the last entry the page is all ones (DESIGN CHOICE,
notes/assumptions/182.md). -/
def summaryPage (s k seq : Nat) (v : Block) : List Byte × List Byte :=
  let d := (((summaryBytes s v).drop (16384 * k)) ++ List.replicate 16384 0xFF).take 16384
  (d, pageMeta seq false true (List.replicate 16 0xFF) d)

end Sys2Proof.Machine
end

