-- ==== Sys2Proof/Machine/StoreOps.lean ====
section
/-!
DEFINITION. Fuller's operations: blocks and pages, sectors that become dirty, releases, bad blocks, format and rebuild
(R331 to R349).
-/

namespace Sys2Proof.Machine

/-! ## Geometry (R331, R333, R341) -/

/-- Pages per block. -/
def Ful.pagesPer (f : Ful) : Nat := f.geometry.pages

/-- Data pages per block. -/
def Ful.dataPages (f : Ful) : Nat := f.pagesPer - summaryPages f.pagesPer

/-- The logical capacity that a number of good blocks gives (R333). -/
def Ful.capacityOf (f : Ful) (good permille : Nat) : Nat := good * f.dataPages * 4 * (1000 - permille) / 1000

/-- The array index of the chip enable of a block, among those in use. -/
def Ful.ceOf (f : Ful) (b : Nat) : Nat := if f.perCe = 0 then 0 else b / f.perCe

/-- The state a block is open in, for new sectors or for copies. -/
def openState (copy : Bool) : BlockState := if copy = true then .openCopy else .openNew

/-- The open block of a chip enable. -/
def Ful.openOn (f : Ful) (ce : Nat) (copy : Bool) : Option Nat :=
  (f.blocks.find? fun e => decide (e.2.state = openState copy ∧ f.ceOf e.1 = ce)).map Prod.fst

/-- The free block of lowest erase count on a chip enable (R341). -/
def Ful.freeOn (f : Ful) (ce : Nat) : Option Nat :=
  (List.range f.perCe).foldl (fun best k =>
    let b := ce * f.perCe + k
    if (f.block b).state ≠ .free then best
    else match best with
      | none => some b
      | some a => if (f.block b).erases < (f.block a).erases then some b else best) none

/-- Open blocks (FUL_STATUS.OPEN_BLOCKS). -/
def Ful.openCount (f : Ful) : Nat := (f.blocks.filter fun e => decide (e.2.state = .openNew ∨ e.2.state = .openCopy)).length

/-- A free block is erased and opened (R341). -/
def State.openBlock (s : State) (b : Nat) (copy : Bool) : State :=
  let v := s.ful.block b
  let f := s.ful.setBlock b { Block.fresh with state := openState copy, erases := v.erases + 1 }
  ({ s with ful := { f with refresh := f.refresh.filter fun x => decide (x ≠ b) } }).bump cFulErases

/-- The block that takes the next page, opening one where none is open; the chip enables take turns (R341). -/
def State.target (s : State) (copy : Bool) : Option (Nat × State) :=
  let f := s.ful
  let n := f.used.length
  let order := (List.range n).map fun k => (f.rotate + k) % n
  match order.find? fun ce => (f.openOn ce copy).isSome || (f.freeOn ce).isSome with
  | none => none
  | some ce =>
    let s1 := { s with ful := { f with rotate := (ce + 1) % n } }
    match f.openOn ce copy with
    | some b => some (b, s1)
    | none => (f.freeOn ce).map fun b => (b, s1.openBlock b copy)

/-! ## Closing blocks (R341, R350) -/

/-- Program the summary of a block in the pages after its last data page; each takes the next SEQ (R340, Table 11.2). -/
def State.programSummary (s : State) (b : Nat) (v : Block) : State :=
  let n := summaryPages s.ful.pagesPer
  let s1 := (List.range n).foldl (fun (st : State) k =>
    let p := summaryPage n k (s.ful.nextSeq + k) v
    st.emit (.nandPage (s.ful.psa b (v.pages.length + k) 0) p.1 p.2)) s
  ({ s1 with ful := { s1.ful with nextSeq := s.ful.nextSeq + n } }).bumpBy cFulPagesProgrammed n

/-- Close a block with its summary: KIND 0 full, 1 early.  KIND 2, at retirement of a neighbouring target, does not arise: no rule states
when (DESIGN CHOICE, notes/assumptions/183.md). -/
def State.closeBlock (s : State) (b kind : Nat) : State :=
  let v := s.ful.block b
  if v.pages = [] then { s with ful := s.ful.setBlock b { v with state := .free } }
  else
    let w : Block := { v with state := .closed, closeKind := kind, closeTime := s.way.opTime, summary := true }
    let s1 := ({ s with ful := s.ful.setBlock b w }).programSummary b w
    if kind = 0 then s1 else s1.bump cFulEarlyCloses

/-- Close every open block early (R349, R350). -/
def State.closeOpenBlocks (s : State) : State :=
  (s.ful.blocks.filter fun e => decide (e.2.state = .openNew ∨ e.2.state = .openCopy)).foldl (fun st e => st.closeBlock e.1 1) s

/-! ## Programming (R338, R339, R341) -/

/-- Point the map at the sectors of a page. -/
def mapPage (m : Table (Option Loc)) (b p : Nat) (secs : List (Option (Nat × SectorData))) : Table (Option Loc) :=
  ((List.range secs.length).zip secs).foldl (fun t x =>
    match x.2 with
    | none => t
    | some y => Table.set none t y.1 (some ⟨b, p, x.1⟩)) m

/-- Program a page with up to four sectors in the next block, and close the block when it is full. -/
def State.programPage (s : State) (copy : Bool) (secs : List (Nat × SectorData)) : State :=
  match s.target copy with
  | none => s
  | some (b, s1) =>
    let f := s1.ful
    let v := f.block b
    let four := (List.range 4).map fun k => secs[k]?
    let page : StorePage := ⟨f.nextSeq, copy, four⟩
    let f1 := { f.setBlock b { v with pages := v.pages ++ [page] } with nextSeq := f.nextSeq + 1, map := mapPage f.map b v.pages.length four }
    let image := pageImage page
    let s2 := (({ s1 with ful := f1 }).emit (.nandPage (f.psa b v.pages.length 0) image.1 image.2)).bump cFulPagesProgrammed
    let s3 := if copy = true then s2.bump cFulGcPagesCopied else s2.bumpBy cFulSectorsWritten secs.length
    if f1.dataPages ≤ v.pages.length + 1 then s3.closeBlock b 0 else s3

/-- Put a sector in line for a page; a copy of the same LSA that still waits is superseded. -/
def Ful.putDirty (f : Ful) (lsa : Nat) (d : SectorData) : Ful :=
  { f with dirty := (f.dirty.filter fun x => decide (x.1 ≠ lsa)) ++ [(lsa, d)] }

/-- An entry whose check fails at assembly (R339): a record by its RCK, any entry by what `bad` names, since SDRAM can spoil a byte of it. -/
def entryFails (bad : List (Nat × Nat)) (pos : Nat) (x : Nat × Option StoreEntry) : Bool :=
  match x.2 with
  | none => false
  | some e => decide ((pos, x.1) ∈ bad) || (match e with
    | .record r _ _ _ => !recordOk r
    | _ => false)

/-- A group result whose check fails at assembly. -/
def groupFails (bad : List (Nat × Nat)) (pos : Nat) (x : Nat × Option GroupResult) : Bool :=
  match x.2 with
  | none => false
  | some g => decide ((pos, x.1) ∈ bad ∨ g.crc ≠ crc32c (groupBytes g))

/-- An anomaly record whose check fails at assembly. -/
def anomalyFails (bad : List (Nat × Nat)) (pos : Nat) (x : Nat × Option AnomalyRecord) : Bool :=
  match x.2 with
  | none => false
  | some a => decide ((pos, x.1) ∈ bad ∨ a.crc ≠ crc32c (anomalyBytes a))

/-- Names of the entries that fail in one sector: GMN and READ_SEQ. -/
def failedNames (bad : List (Nat × Nat)) (pos : Nat) : SectorData → List (Nat × Nat)
  | .entries es => (((List.range es.length).zip es).filter fun x => entryFails bad pos x).filterMap fun x =>
      x.2.map fun e => (e.gmn.toNat, match e with
        | .record r _ _ _ => r.readSeq.toNat
        | .feeder f => f.seq
        | .journal _ => 0)
  | .groups es => (((List.range es.length).zip es).filter fun x => groupFails bad pos x).map fun _ => (0, 0)
  | .anomalies es => (((List.range es.length).zip es).filter fun x => anomalyFails bad pos x).filterMap fun x =>
      x.2.map fun a => (a.gmn.toNat, 0)
  | _ => []

/-- The sector with its failed entries overwritten. -/
def blankFailed (bad : List (Nat × Nat)) (pos : Nat) : SectorData → SectorData
  | .entries es => .entries (((List.range es.length).zip es).map fun x => if entryFails bad pos x = true then none else x.2)
  | .groups es => .groups (((List.range es.length).zip es).map fun x => if groupFails bad pos x = true then none else x.2)
  | .anomalies es => .anomalies (((List.range es.length).zip es).map fun x => if anomalyFails bad pos x = true then none else x.2)
  | d => d

/-- Program the oldest dirty sectors as one page, their entries checked (R339). -/
def State.programDirty (s : State) (bad : List (Nat × Nat)) : State :=
  let take := s.ful.dirty.take 4
  if take = [] ∨ (s.target false).isNone = true then s
  else
    let s1 := { s with ful := { s.ful with dirty := s.ful.dirty.drop 4 } }
    let pairs := (List.range take.length).zip take
    let s2 := s1.programPage false (pairs.map fun x => (x.2.1, blankFailed bad x.1 x.2.2))
    (pairs.flatMap fun x => failedNames bad x.1 x.2.2).foldl
      (fun st n => (st.raiseInt 0x110004 4).note cFulRckFail .operations .none 0 (n.1 + 2 ^ 32 * n.2)) s2

/-! ## Collection (R342, R343) -/

/-- A circular stream holds a sector: its number lies between tail and head, the sector being filled included. -/
def Stream.holds (v : Stream) (len off : Nat) : Bool :=
  decide (len ≠ 0) && decide ((off + len - v.tail % len) % len ≤ v.head - v.tail)

/-- An LSA lies in its stream's live range (R344). -/
def Ful.live (f : Ful) (lsa : Nat) : Bool :=
  if lsa < 163840 then true
  else if lsa < 180224 then f.stream4.holds 16384 (lsa - 163840)
  else if lsa < 245760 then true
  else if lsa < f.base7 then f.stream6.holds f.len6 (lsa - 245760)
  else if lsa < f.base8 then f.stream7.holds f.len7 (lsa - f.base7)
  else f.stream8.holds f.len8 (lsa - f.base8)

/-- The still-valid sectors of a page, with their LSAs. -/
def Ful.validIn (f : Ful) (b p : Nat) : List (Nat × SectorData) :=
  match (f.block b).pages[p]? with
  | none => []
  | some g => ((List.range 4).zip g.sectors).filterMap fun x => match x.2 with
    | none => none
    | some y => if Table.get none f.map y.1 = some ⟨b, p, x.1⟩ ∧ f.live y.1 = true then some y else none

/-- Valid sectors of a block. -/
def Ful.validCount (f : Ful) (b : Nat) : Nat :=
  ((List.range (f.block b).pages.length).map fun p => (f.validIn b p).length).foldl (fun a n => a + n) 0

/-- Queue a block for refresh (R343). -/
def Ful.queueRefresh (f : Ful) (b : Nat) : Ful := if b ∈ f.refresh then f else { f with refresh := f.refresh ++ [b] }

/-- Closed blocks. -/
def Ful.closedBlocks (f : Ful) : List (Nat × Block) := f.blocks.filter fun e => decide (e.2.state = .closed)

/-- The better of two candidates by a measure; ties go to the lower erase count, then to the lower index. -/
def lesser (measure : Nat × Block → Nat) (best : Option (Nat × Block)) (e : Nat × Block) : Option (Nat × Block) :=
  match best with
  | none => some e
  | some a => if measure e < measure a ∨ (measure e = measure a ∧ e.2.erases < a.2.erases) then some e else best

/-- The spread of erase counts over good blocks. -/
def Ful.wearSpread (f : Ful) : Nat :=
  let good := f.blocks.filter fun e => decide (e.2.state ≠ .retired ∧ e.2.state ≠ .factoryBad)
  let counts := good.map fun e => e.2.erases
  let low := if good.length < f.goodCount then 0 else counts.foldl min (counts.headD 0)
  counts.foldl max 0 - low

/-- RIDE holds collection, refresh and wear moves unless CRITICAL is set (R463). -/
def State.rideHoldsGc (s : State) : Bool := decide (s.pwr.mode = .ride) && !s.ful.critical

/-- Start collecting the next victim (R343): a block queued for refresh, a wear move, or the emptiest closed block while
free blocks are short. -/
def State.startCollection (s : State) : State :=
  let f := s.ful
  if f.collection.isSome = true ∨ f.stopped = true ∨ s.rideHoldsGc = true then s
  else match f.refresh with
  | b :: rest => ({ s with ful := { f with refresh := rest, collection := some ⟨b, 0, true⟩ } }).bump cFulRefreshes
  | [] =>
    if s.item iWearSpread < f.wearSpread ∧ f.closedBlocks ≠ [] then
      match f.closedBlocks.foldl (lesser fun e => e.2.erases) none with
      | some e => ({ s with ful := { f with collection := some ⟨e.1, 0, false⟩ } }).bump cFulWearMoves
      | none => s
    else if f.collecting = true then
      match f.closedBlocks.foldl (lesser fun e => f.validCount e.1) none with
      | some e => ({ s with ful := { f with collection := some ⟨e.1, 0, false⟩ } }).bump cFulGcRuns
      | none => s
    else s

/-- The levels of R342: collection starts at GC_LOW and ends at GC_HIGH; CRITICAL is set below 64 free blocks. -/
def State.checkLevels (s : State) (wasCritical : Bool) : State :=
  let f := s.ful
  let c := if f.freeCount * 1000 ≤ s.item iGcLow * f.goodCount then true
           else if s.item iGcHigh * f.goodCount ≤ f.freeCount * 1000 then false else f.collecting
  let s1 := { s with ful := { f with collecting := c } }
  let s2 := if s1.ful.critical = true ∧ wasCritical = false then s1.raiseInt 0x110004 1 else s1
  s2.startCollection

/-! ## Circular streams (R336) -/

/-- Sectors that one release gives back. -/
def State.releaseSectors (s : State) : Nat := s.item iReleaseMib * 256

/-- Count and report a release of some sectors. -/
def State.released (s : State) (n : Nat) : State :=
  if n = 0 then s else ((s.bumpBy cFulReleasedSectors n).raiseInt 0x110004 5).eventLimited .operations .none 0
    cFulReleasedSectors.source cFulReleasedSectors.code cFulReleasedSectors.set n

/-- The tail after a release of up to `n` sectors. -/
def Stream.release (v : Stream) (n : Nat) : Stream := { v with tail := min v.head (v.tail + n) }

/-- The position in stream 8 that neither newest complete checkpoint has passed: its sector. -/
def Ful.checkpointSector (f : Ful) : Nat := min (f.ctxReadPos.getD 0) (f.legalReadPos.getD 0) / 64

/-- Forget where `n` sectors of a circular stream from number `a` lie. -/
def Ful.unmap (f : Ful) (base len a n : Nat) : Ful :=
  { f with map := (List.range n).foldl (fun m k => Table.erase m (ringLsa base len (a + k))) f.map }

/-- For `n` entries the head of stream 8 needs a sector that the tail still holds. -/
def Ful.full8 (f : Ful) (n : Nat) : Bool :=
  let used := f.open8.entries.length
  decide (used = 0 ∨ 64 < used + n) && decide (f.len8 ≤ f.stream8.head + (if used = 0 then 0 else 1) - f.stream8.tail)

/-- Make room at the head of stream 8 for `n` entries: release, or hold until a checkpoint completes. -/
def State.room8 (s : State) (n : Nat) : State :=
  if s.ful.full8 n = false then s
  else
    let v := s.ful.stream8.release s.releaseSectors
    if s.ful.checkpointSector < v.tail then
      let s1 := { s with ful := { s.ful with heldForCheckpoint := true } }
      if s.ful.critical = true then s1 else s1.raiseInt 0x110004 1
    else
      let k := v.tail - s.ful.stream8.tail
      let f := s.ful.unmap s.ful.base8 s.ful.len8 s.ful.stream8.tail k
      ({ s with ful := { f with stream8 := v, heldForCheckpoint := false } }).released k

/-- Stream 8 in permille live (FUL_FILL). -/
def Ful.fill (f : Ful) : Nat := if f.len8 = 0 then 0 else min 1000 ((f.stream8.head - f.stream8.tail) * 1000 / f.len8)

/-- FULL_WARN once stream 8 is filled to its mark (R336). -/
def State.checkFull (s : State) : State :=
  let reached := decide (s.item iFullWarn ≤ s.ful.fill ∧ s.ful.len8 ≠ 0)
  let s1 := { s with ful := { s.ful with warned := reached } }
  if reached = true ∧ s.ful.warned = false then s1.raiseInt 0x110004 0 else s1

/-- The stream 8 sector being filled, as it would be programmed. -/
def Ful.sector8 (f : Ful) : Nat × SectorData :=
  (ringLsa f.base8 f.len8 f.stream8.head, .entries ((f.open8.entries.map some) ++ List.replicate (64 - f.open8.entries.length) none))

/-- The stream 6 sector being filled. -/
def Ful.sector6 (f : Ful) : Nat × SectorData :=
  (ringLsa 245760 f.len6 f.stream6.head, .groups ((f.open6.entries.map some) ++ List.replicate (64 - f.open6.entries.length) none))

/-- The stream 7 sector being filled. -/
def Ful.sector7 (f : Ful) : Nat × SectorData :=
  (ringLsa f.base7 f.len7 f.stream7.head, .anomalies ((f.open7.entries.map some) ++ List.replicate (64 - f.open7.entries.length) none))

/-- An entry enters the sector being filled; since when the first unprogrammed one waits. -/
def OpenSector.add {α : Type} (o : OpenSector α) (e : α) (now : Nat) : OpenSector α :=
  { o with entries := o.entries ++ [e], since := some (o.since.getD now) }

/-- Put one entry into stream 8 (R335); a full sector waits for its page. -/
def State.append8 (s : State) (e : StoreEntry) : State :=
  let f := { s.ful with open8 := s.ful.open8.add e s.now }
  if f.open8.entries.length < 64 then { s with ful := f }
  else
    let g := f.putDirty f.sector8.1 f.sector8.2
    ({ s with ful := { g with stream8 := { g.stream8 with head := g.stream8.head + 1 }, open8 := ⟨[], 0, none⟩ } }).checkFull

/-- Put one group result into stream 6. -/
def State.append6 (s : State) (g : GroupResult) : State :=
  let v := if s.ful.open6.entries = [] ∧ s.ful.len6 ≤ s.ful.stream6.head - s.ful.stream6.tail then s.ful.stream6.release s.releaseSectors
    else s.ful.stream6
  let k := v.tail - s.ful.stream6.tail
  let f0 := s.ful.unmap 245760 s.ful.len6 s.ful.stream6.tail k
  let s1 := ({ s with ful := { f0 with stream6 := v } }).released k
  let f : Ful := { s1.ful with open6 := s1.ful.open6.add g s.now }
  if f.open6.entries.length < 64 then { s1 with ful := f }
  else
    let h := f.putDirty f.sector6.1 f.sector6.2
    { s1 with ful := { h with stream6 := { h.stream6 with head := h.stream6.head + 1 }, open6 := ⟨[], 0, none⟩ } }

/-- Put one anomaly record into stream 7. -/
def State.append7 (s : State) (a : AnomalyRecord) : State :=
  let v := if s.ful.open7.entries = [] ∧ s.ful.len7 ≤ s.ful.stream7.head - s.ful.stream7.tail then s.ful.stream7.release s.releaseSectors
    else s.ful.stream7
  let k := v.tail - s.ful.stream7.tail
  let f0 := s.ful.unmap s.ful.base7 s.ful.len7 s.ful.stream7.tail k
  let s1 := ({ s with ful := { f0 with stream7 := v } }).released k
  let f : Ful := { s1.ful with open7 := s1.ful.open7.add a s.now }
  if f.open7.entries.length < 64 then { s1 with ful := f }
  else
    let h := f.putDirty f.sector7.1 f.sector7.2
    { s1 with ful := { h with stream7 := { h.stream7 with head := h.stream7.head + 1 }, open7 := ⟨[], 0, none⟩ } }

/-- Write one sector at the head of stream 4. -/
def State.headTariff (s : State) (x : Nat × TariffSet) : State :=
  let g := s.ful.putDirty (ringLsa 163840 16384 s.ful.stream4.head) (.tariff x.1 x.2)
  { s with ful := { g with stream4 := { g.stream4 with head := g.stream4.head + 1 } } }

/-- The tariff sets in a stretch of stream 4 that still belong to their slots (R336). -/
def State.tariffsKept (s : State) (a n : Nat) : List (Nat × TariffSet) :=
  (List.range n).filterMap fun k => match s.ful.sector (ringLsa 163840 16384 (a + k)) with
    | some (.tariff slot x) => if x ∈ Table.get [] s.bil.tariffs slot then some (slot, x) else none
    | _ => none

/-- Put a tariff set into stream 4; sets that still belong to a slot are copied to its head before their release. -/
def State.append4 (s : State) (slot : Nat) (x : TariffSet) : State :=
  let old := s.ful.stream4
  if 16384 ≤ old.head - old.tail then
    let v := old.release (min s.releaseSectors 8192)
    let kept := s.tariffsKept old.tail (v.tail - old.tail)
    let f0 := s.ful.unmap 163840 16384 old.tail (v.tail - old.tail)
    let s1 := ({ s with ful := { f0 with stream4 := v } }).released (v.tail - old.tail)
    (kept.foldl State.headTariff s1).headTariff (slot, x)
  else s.headTariff (slot, x)

/-! ## Bad blocks (R346, R348) -/

/-- Put the control record in line, as it now reads. -/
def Ful.dirtyControl (f : Ful) : Ful :=
  match f.control with
  | none => f
  | some c => f.putDirty 0 (.control c)

/-- Sectors by which stream 8 has been shortened already. -/
def Ful.shrunkBy (f : Ful) (c : ControlRecord) : Nat := c.capacity - (245760 + f.len6 + f.len7) - c.len8

/-- Shorten stream 8 while the good blocks can no longer hold L sectors with 64 free blocks to spare (R348). -/
def State.shrink (s : State) : State :=
  match s.ful.control with
  | none => s
  | some c =>
    if s.ful.dataPages * 4 * (s.ful.goodCount - 64) < c.capacity - (s.ful.shrunkBy c) then
      let n := min s.releaseSectors c.len8
      let c1 := { c with len8 := c.len8 - n }
      let v := s.ful.stream8.release n
      let f0 := s.ful.unmap s.ful.base8 s.ful.len8 s.ful.stream8.tail (v.tail - s.ful.stream8.tail)
      let f1 := { f0 with control := some c1, shrunk := true, stream8 := v }
      (({ s with ful := f1.dirtyControl }).released (v.tail - s.ful.stream8.tail)).event .operations 17 0x83 0 c1.len8
    else s

/-- Retire a block (R346); `markFails`: the program of its bad-block mark fails too, which is ignored. -/
def State.retireBlock (s : State) (b : Nat) (markFails : Bool) : State :=
  let v := s.ful.block b
  let f := s.ful.setBlock b { v with state := .retired, marked := !markFails }
  let bad := (f.blocks.filter fun e => decide (e.2.state = .retired) && decide (e.1 / 32768 = b / 32768)).map Prod.fst
  let f1 := (f.putDirty (8 + b / 32768) (.bitmap bad)).dirtyControl
  let f2 := if v.pages = [] then f1 else f1.queueRefresh b
  let s0 : State := if markFails = true then { s with ful := f2 } else ({ s with ful := f2 }).emit (.nandMark (f2.psa b 0 0))
  let s1 := (s0.note cFulBlocksRetired .operations .none 0 b).raiseInt 0x110004 2
  s1.shrink

end Sys2Proof.Machine
end

