-- ==== Sys2Proof/Machine/Store.lean ====
section
/-!
DEFINITION. The steps of Fuller: acceptance, programs, reads, collection, checkpoints and rebuild (spec 11).
-/

namespace Sys2Proof.Machine

/-! ## Acceptance (R335, R338, R352) -/

/-- A feeder record's report (R18): at once, or when the mirror has acknowledged its packet. -/
def State.feederReport (s : State) (f : FeederRecord) (mseq : Option (BitVec 32)) : State :=
  let r : Report := ⟨.feederReading f, .none, true, s.boot.headEnd && s.hwl.partnerLost, false, 0, s.hwl.nodeId⟩
  if s.mirrorAcked mseq = true then s.route (s.unsolicitedDests 2) r
  else { s with hwl := { s.hwl with heldReports := s.hwl.heldReports ++ [⟨mseq.getD 0, s.unsolicitedDests 2, r⟩] } }

/-- Put a journal entry into stream 8; a freeze enters the freeze table (R352). -/
def State.appendJournal (s : State) (j : JournalEntry) : State :=
  let pos := s.ful.readPos
  let s1 := s.append8 (.journal j)
  match j.body with
  | .frozen _ _ => match s.indexFor j.gmn with
    | some i => { s1 with ful := { s1.ful with freezes := Table.set 0 s1.ful.freezes i (pos + 1) } }
    | none => s1
  | _ => s1

/-- The closed periods of a meter's area with one more in its place (R337). -/
def Ful.closedWith (f : Ful) (i : Nat) (p : ClosedPeriod) : List ClosedPeriod :=
  let old := match f.sector (32768 + 4 * i) with
    | some (.closed ps) => ps
    | _ => []
  (old.filter fun q => decide (q.periodIndex % 24 ≠ p.periodIndex % 24)) ++ [p]

/-- Place an accepted item in its sector buffer. -/
def State.place (s : State) : FulItem → State
  | .record id r t k d => (s.append8 (.record r t k d)).readingStored id
  | .pair idE e te ke de id r t k d => (((s.append8 (.record e te ke de)).append8 (.record r t k d)).readingStored idE).readingStored id
  | .feeder f m => (s.append8 (.feeder f)).feederReport f m
  | .journal js => js.foldl State.appendJournal s
  | .group g => s.append6 g
  | .anomaly a => s.append7 a
  | .closed i p => { s with ful := s.ful.putDirty (32768 + 4 * i) (.closed (s.ful.closedWith i p)) }
  | .tariff k x ref =>
    let s1 := s.append4 k x
    { s1 with bil := { s1.bil with queue := s1.bil.queue ++ [.tariff k x ref] } }
  | .meterImage k i => { s with ful := s.ful.putDirty (180224 + 16384 * k) (.meterImage k i) }

/-- Entries of stream 8 that an item brings. -/
def FulItem.entries8 : FulItem → Nat
  | .record _ _ _ _ _ => 1
  | .pair _ _ _ _ _ _ _ _ _ _ => 2
  | .feeder _ _ => 1
  | .journal js => js.length
  | _ => 0

/-- FULLER_ACCEPT (R338): the item at Fuller's entrance is accepted, or upstream is held at DIRTY_MAX or CRITICAL. -/
def execFullerAccept (t : Nat) (s0 : State) : Host.Outcome State Fault Refusal :=
  let s := s0.advance t
  match s.ful.queue with
  | [] => .next s
  | i :: rest =>
    let s1 := if s.ful.shut = true ∨ i.entries8 = 0 then s else s.room8 i.entries8
    if s1.ful.shut = true ∨ s1.item iDirtyMax * 2 ^ 20 < s1.ful.dirtyBytes + i.bytes then
      let s2 := if s1.ful.critical = true ∧ s1.ful.holding = false then s1.bump cFulCriticalHolds else s1
      .next { s2 with ful := { s2.ful with holding := true } }
    else
      let s2 : State := { s1 with ful := { s1.ful with queue := rest, holding := false } }
      .next ((s2.place i).checkLevels s.ful.critical)

/-! ## Programs (R338, R339, R350) -/

/-- Put a partly filled sector in line for its page; its entries count as programmed with it. -/
def Ful.flush6 (f : Ful) : Ful :=
  if f.open6.entries.length ≤ f.open6.programmed then f
  else { f.putDirty f.sector6.1 f.sector6.2 with open6 := { f.open6 with programmed := f.open6.entries.length, since := none } }

/-- The same for stream 7. -/
def Ful.flush7 (f : Ful) : Ful :=
  if f.open7.entries.length ≤ f.open7.programmed then f
  else { f.putDirty f.sector7.1 f.sector7.2 with open7 := { f.open7 with programmed := f.open7.entries.length, since := none } }

/-- The same for stream 8. -/
def Ful.flush8 (f : Ful) : Ful :=
  if f.open8.entries.length ≤ f.open8.programmed then f
  else { f.putDirty f.sector8.1 f.sector8.2 with open8 := { f.open8 with programmed := f.open8.entries.length, since := none } }

/-- A wait of FLUSH_MS that began at `since` is over. -/
def State.flushDue (s : State) (since : Option Nat) : Bool :=
  match since with
  | none => false
  | some a => decide (s.item iFlushMs ≠ 0 ∧ a + s.item iFlushMs * ticksPerMs ≤ s.now)

/-- FLUSH_TIMER (R338): partly filled sectors of streams 6, 7 and 8 whose wait is over are put in line for a page. -/
def execFlushTimer (t : Nat) (s0 : State) : Host.Outcome State Fault Refusal :=
  let s := s0.advance t
  let f1 := if s.flushDue s.ful.open6.since = true then s.ful.flush6 else s.ful
  let f2 := if s.flushDue f1.open7.since = true then f1.flush7 else f1
  let f3 := if s.flushDue f2.open8.since = true then f2.flush8 else f2
  .next { s with ful := f3 }

/-- Steps 3 and 4 of Table 11.4: open blocks closed early, then the control record with CLEAN set. -/
def State.cleanClose (s : State) : State :=
  let s1 := s.closeOpenBlocks
  match s1.ful.control with
  | none => s1
  | some c =>
    let c1 := { c with clean := true }
    ({ s1 with ful := { s1.ful with control := some c1 } }).programPage false [(0, .control c1)]

/-- Step 1 and the padding of step 2 of Table 11.4. -/
def State.stopFuller (s : State) : State :=
  { s with ful := { s.ful.flush6.flush7.flush8 with stopped := true, collection := none } }

/-- Program every dirty sector; `n` bounds the pages. -/
def State.programSectors (s : State) : Nat → State
  | 0 => s
  | n + 1 => if s.ful.dirty = [] then s else (s.programDirty []).programSectors n

/-- Steps 1 to 4 of Table 11.4 (R350), as a reset hold completes them; before the rebuild ends nothing is dirty or open. -/
def State.flushFuller (s : State) : State :=
  if s.ful.rebuilding = true then s
  else
    let s1 := s.stopFuller
    (s1.programSectors s1.ful.dirty.length).cleanClose

/-- In GASP, Fuller reports completion once nothing is dirty (R350). -/
def State.gaspProgress (s : State) : State :=
  if s.ful.stopped = true ∧ s.ful.dirty = [] ∧ s.pwr.gaspAt.isSome = true ∧ s.pwr.gaspStored = false then
    let s1 := if s.ful.rebuilding = true then s else s.cleanClose
    { s1 with pwr := { s1.pwr with gaspStored := true } }
  else s

/-- PAGE_PROGRAM (R339, R341): the next page completes.  `bad`: entries that fail their check at assembly, by sector of
the page and entry of the sector. -/
def execPageProgram (bad : List (Nat × Nat)) (t : Nat) (s0 : State) : Host.Outcome State Fault Refusal :=
  let s := s0.advance t
  .next (((s.programDirty bad).checkLevels s.ful.critical).gaspProgress)

/-- PROGRAM_FAIL (R346, R347): the program of the next page fails and its block is retired; the sectors of the page, new
or copied, go to another block with the next program.  `markFails`: its bad-block mark cannot be programmed either. -/
def execProgramFail (copy markFails : Bool) (t : Nat) (s0 : State) : Host.Outcome State Fault Refusal :=
  let s := s0.advance t
  if (copy = false ∧ s.ful.dirty = []) ∨ (copy = true ∧ s.ful.collection.isNone = true) then .next s
  else match s.target copy with
    | none => .next s
    | some (b, s1) => .next (((s1.bump cFulProgramFail).retireBlock b markFails).checkLevels s.ful.critical)

/-- ERASE_FAIL (R346): the erase of a block fails and the block is retired. -/
def execEraseFail (block : Nat) (markFails : Bool) (t : Nat) (s0 : State) : Host.Outcome State Fault Refusal :=
  let s := s0.advance t
  let st := (s.ful.block block).state
  if s.ful.total ≤ block ∨ st = .retired ∨ st = .factoryBad then .next s
  else
    let s1 := match s.ful.collection with
      | some c => if c.victim = block then { s with ful := { s.ful with collection := none } } else s
      | none => s
    .next (((s1.bump cFulEraseFail).retireBlock block markFails).checkLevels s.ful.critical)

/-! ## Reads (R332, R341, R345) -/

/-- The page group of an open block is not complete, so that its buffers are still held (R341). -/
def Ful.buffered (f : Ful) (l : Loc) : Bool :=
  let v := f.block l.block
  let g := max 1 f.geometry.pairGroup
  decide (v.state = .openNew ∨ v.state = .openCopy) && decide (v.pages.length < (l.page / g + 1) * g)

/-- One page of a block is read: its read count rises, and at READ_LIMIT the block is queued for refresh (R343, R345). -/
def State.readPage (s : State) (b : Nat) : State :=
  let v := s.ful.block b
  let f := s.ful.setBlock b { v with reads := v.reads + 1 }
  ({ s with ful := if s.item iReadLimit ≤ v.reads + 1 then f.queueRefresh b else f }).bump cFulPagesRead

/-- SECTOR_READ (R332, R341, R345): the read of the page that holds a sector completes.  `bits` is the largest number of
bits corrected in a codeword, `retries` the read-retry levels tried, as far as the parameter page offers them and up to 8;
`uncorrectable`: no read passed ECC and PAGE_CRC (R339). -/
def execSectorRead (lsa bits retries : Nat) (uncorrectable : Bool) (t : Nat) (s0 : State) : Host.Outcome State Fault Refusal :=
  let s := s0.advance t
  match Table.get none s.ful.map lsa with
  | none => .next s
  | some l =>
    let f2 := s.ful
    let s1 := s.readPage l.block
    let s2 := if bits = 0 then s1 else s1.bump cFulCorrectedReads
    let levels := min s.ful.geometry.retryLevels 8
    let tried := if uncorrectable = true then levels else min retries levels
    let s3 := if tried = 0 then s2 else s2.bumpBy cFulReadRetries tried
    let s4 : State := if s.item iRefreshBits < bits ∨ uncorrectable = true then { s3 with ful := s3.ful.queueRefresh l.block } else s3
    let s5 := if uncorrectable = false then s4
      else
        let again := if f2.buffered l = true then f2.validIn l.block l.page else []
        let s6 := (s4.raiseInt 0x110004 3).note cFulUncorrectable .operations .none 0 lsa
        { s6 with ful := again.foldl (fun f x => f.putDirty x.1 x.2) s6.ful }
    .next s5.startCollection

/-! ## Collection (R342 to R344) -/

/-- The pages of a batch: up to four from page `p`, as long as their valid sectors fit one page; how many pages, and the sectors. -/
def Ful.batch (f : Ful) (b p : Nat) : Nat → Nat → List (Nat × SectorData) → Nat × List (Nat × SectorData)
  | 0, n, acc => (n, acc)
  | k + 1, n, acc =>
    let v := f.validIn b (p + n)
    if (f.block b).pages.length ≤ p + n ∨ 4 < acc.length + v.length then (n, acc) else f.batch b p k (n + 1) (acc ++ v)

/-- GC_BATCH (R344): one batch of the victim's valid sectors is copied and its map entries move; a block due for refresh by
age is queued first (R343). -/
def execGcBatch (t : Nat) (s0 : State) : Host.Outcome State Fault Refusal :=
  let s := s0.advance t
  let aged := s.ful.closedBlocks.filter fun e => decide (e.2.closeTime + 86400 * s.item iRetentionDays < s.way.opTime)
  let s1 := ({ s with ful := aged.foldl (fun (f : Ful) (e : Nat × Block) => f.queueRefresh e.1) s.ful }).startCollection
  match s1.ful.collection with
  | none => .next s1
  | some c =>
    if s1.ful.stopped = true ∨ s1.rideHoldsGc = true ∨ (s1.ful.block c.victim).pages.length ≤ c.next then .next s1
    else
      let r := s1.ful.batch c.victim c.next 4 0 []
      if r.2 ≠ [] ∧ (s1.target true).isNone = true then .next s1
      else
        let read := ((List.range r.1).filter fun k => decide (s1.ful.validIn c.victim (c.next + k) ≠ [])).foldl
          (fun (st : State) _ => st.readPage c.victim) s1
        let s2 := if r.2 = [] then s1 else read.programPage true r.2
        let k := c.next + r.1
        let done := decide ((s2.ful.block c.victim).state = BlockState.retired ∧ (s2.ful.block c.victim).pages.length ≤ k)
        .next { s2 with ful := { s2.ful with collection := if done = true then none else some { c with next := k } } }

/-- BLOCK_ERASE (R344): a victim whose valid sectors have all been copied, or a free block, is erased: its count rises and
the block is free. -/
def execBlockErase (block : Nat) (t : Nat) (s0 : State) : Host.Outcome State Fault Refusal :=
  let s := s0.advance t
  let v := s.ful.block block
  let copied := match s.ful.collection with
    | some c => !s.rideHoldsGc && decide (c.victim = block ∧ v.pages.length ≤ c.next ∧ v.state = .closed)
    | none => false
  if s.ful.total ≤ block ∨ (copied = false ∧ v.state ≠ .free) then .next s
  else
    let f0 := s.ful.setBlock block { Block.fresh with erases := v.erases + 1 }
    let f : Ful := { f0 with refresh := f0.refresh.filter fun x => decide (x ≠ block) }
    let s1 := ({ s with ful := if copied = true then { f with collection := none } else f }).bump cFulErases
    .next (s1.checkLevels s.ful.critical)

/-! ## Checkpoints and snapshots (R336, R337, R345) -/

/-- Every stream 8 sector before a position is programmed. -/
def Ful.programmedTo (f : Ful) (pos : Nat) : Bool :=
  ((List.range (pos / 64 - f.stream8.tail)).all fun k => (f.dirty.find? fun d => decide (d.1 = ringLsa f.base8 f.len8 (f.stream8.tail + k))).isNone) &&
    (if pos / 64 = f.stream8.head then decide (pos % 64 ≤ f.open8.programmed) &&
        (f.dirty.find? fun d => decide (d.1 = f.sector8.1)).isNone
     else true)

/-- The stream 8 release that waited for a checkpoint goes on (R336). -/
def State.afterCheckpoint (s : State) : State := if s.ful.heldForCheckpoint = true then s.room8 1 else s

/-- CHECKPOINT_COMPLETE (R337): the pending context or legal checkpoint gets its header in the slot that does not hold the
newest complete one. -/
def execCheckpointComplete (legal : Bool) (t : Nat) (s0 : State) : Host.Outcome State Fault Refusal :=
  let s := s0.advance t
  if legal = true then
    match s.ful.ckptLegal with
    | none => .next s
    | some c =>
      if s.ful.programmedTo c.readPos = false ∨ (s.target false).isNone = true then .next s
      else
        let s1 := s.programPage false [(if c.seq % 2 = 0 then 12288 else 22528, .legalCheckpoint c)]
        .next ({ s1 with ful := { s1.ful with ckptLegal := none, legalReadPos := some c.readPos } }).afterCheckpoint
  else
    match s.ful.ckptCtx with
    | none => .next s
    | some c =>
      if s.ful.programmedTo c.readPos = false ∨ (s.target false).isNone = true then .next s
      else
        let s1 := s.programPage false [(if c.seq % 2 = 0 then 4096 else 8192, .ctxCheckpoint c)]
        .next ({ s1 with ful := { s1.ful with ckptCtx := none, ctxReadPos := some c.readPos } }).afterCheckpoint

/-- COUNTER_SNAPSHOT (R345): every 24 h of operating time, read and erase counts are saved in stream 0. -/
def execCounterSnapshot (t : Nat) (s0 : State) : Host.Outcome State Fault Refusal :=
  let s := s0.advance t
  if s.way.opTime < s.ful.snapshotAt + 86400 ∨ s.ful.control = none then .next s
  else
    let counts := s.ful.blocks.map fun e => (e.1, e.2.erases, e.2.reads)
    .next { s with ful := { s.ful.putDirty 2048 (.counters counts) with snapshotAt := s.way.opTime } }

/-! ## Rebuild and format (R333, R340, R345, R349) -/

/-- SEQ range of a block's pages. -/
def Block.seqRange (v : Block) : Nat × Nat :=
  ((v.pages.map StorePage.seq).foldl min ((v.pages.map StorePage.seq).headD 0), (v.pages.map StorePage.seq).foldl max 0)

/-- The comparison of R349: the page is newer than what the map holds, and whether that took a metadata probe. -/
def Ful.newer (f : Ful) (b i : Nat) (h : Loc) : Bool × Bool :=
  if b = h.block then (decide (h.page < i), false)
  else
    let x := (f.block b).seqRange
    let y := (f.block h.block).seqRange
    if x.2 < y.1 ∨ y.2 < x.1 then (decide (y.2 < x.1), false)
    else
      let seqOf (l : Nat) (p : Nat) : Nat := (((f.block l).pages[p]?).map StorePage.seq).getD 0
      (decide (seqOf h.block h.page < seqOf b i), true)

/-- Enter one sector of a page in the map under rebuild; the second part counts probes. -/
def Ful.enterSector (f : Ful) (b i : Nat) (acc : Table (Option Loc) × Nat) (x : Nat × Option (Nat × SectorData)) :
    Table (Option Loc) × Nat :=
  match x.2 with
  | none => acc
  | some y =>
    match Table.get none acc.1 y.1 with
    | none => (Table.set none acc.1 y.1 (some ⟨b, i, x.1⟩), acc.2)
    | some h =>
      let n := f.newer b i h
      (if n.1 = true then Table.set none acc.1 y.1 (some ⟨b, i, x.1⟩) else acc.1, acc.2 + (if n.2 = true then 1 else 0))

/-- The map that the pages of some blocks give (R349). -/
def Ful.scan (f : Ful) (skip : Nat → Bool) : Table (Option Loc) × Nat :=
  (f.blocks.filter fun e => !skip e.1 && decide (e.2.state ≠ .factoryBad)).foldl (fun acc (e : Nat × Block) =>
    ((List.range e.2.pages.length).zip e.2.pages).foldl (fun a p =>
      ((List.range 4).zip p.2.sectors).foldl (f.enterSector e.1 p.1) a) acc) ([], 0)

/-- The retired blocks that the bitmap sectors on flash name. -/
def Ful.bitmap (f : Ful) : List Nat :=
  (List.range 32).flatMap fun k => match f.sector (8 + k) with
    | some (.bitmap l) => l
    | _ => []

/-- A block is scanned page by page: it has no summary, or one whose SUM_CRC fails. -/
def scanned (badSums : List Nat) (b : Nat) (v : Block) : Bool := !v.summary || decide (b ∈ badSums)

/-- A block as far as the rebuild can read it: a scan passes over the pages that fail ECC or PAGE_CRC. -/
def readBlock (badSums : List Nat) (badPages : List (Nat × Nat)) (b : Nat) (v : Block) : Block :=
  if scanned badSums b v = false then v
  else
    { v with summary := false,
             pages := ((List.range v.pages.length).zip v.pages).map fun p => if (b, p.1) ∈ badPages then { p.2 with sectors := [] } else p.2 }

/-- A block as the rebuild finds it: the bitmap's retirements stand; one that holds no valid page is free; one that was scanned is open, and
is closed early while its data pages are not all programmed (DESIGN CHOICE: a full one whose summary fails has no room for another and stays
without, notes/assumptions/183.md). -/
def foundBlock (bad : List Nat) (dataPages b : Nat) (v : Block) : Block :=
  if v.state = .factoryBad then v
  else if b ∈ bad then { v with state := .retired }
  else if (v.pages.all fun p => p.sectors.all Option.isNone) = true then { v with state := .free, pages := [] }
  else if v.summary = true ∨ dataPages ≤ v.pages.length then { v with state := .closed }
  else { v with state := .openNew }

/-- The counts of the counter snapshot on flash. -/
def Ful.savedCounts (f : Ful) : List (Nat × Nat × Nat) :=
  match f.sector 2048 with
  | some (.counters l) => l
  | _ => []

/-- Counts resume from the snapshot; a part of READ_LIMIT stands for the reads since (R345). -/
def resumeCounts (saved : List (Nat × Nat × Nat)) (add b : Nat) (v : Block) : Block :=
  match saved.find? fun x => decide (x.1 = b) with
  | none => { v with reads := add }
  | some x => { v with erases := max v.erases x.2.1, reads := x.2.2 + add }

/-- The newest complete context checkpoint (R118, R337). -/
def Ful.ctxCheckpoint (f : Ful) : Option CtxCheckpoint :=
  let get (lsa : Nat) : Option CtxCheckpoint := match f.sector lsa with
    | some (.ctxCheckpoint c) => some c
    | _ => none
  match get 4096, get 8192 with
  | none, c => c
  | some a, none => some a
  | some a, some b => if a.seq < b.seq then some b else some a

/-- The newest complete legal checkpoint's position (R336). -/
def Ful.legalPos (f : Ful) : Option (Nat × Nat) :=
  let get (lsa : Nat) : Option (Nat × Nat) := match f.sector lsa with
    | some (.legalCheckpoint c) => some (c.seq, c.readPos)
    | _ => none
  match get 12288, get 22528 with
  | none, c => c
  | some a, none => some a
  | some a, some b => if a.1 < b.1 then some b else some a

/-- Fuller's working memory goes with SDRAM: what was not programmed is lost, and the circular streams end with their last
programmed sector. -/
def Ful.lost (f : Ful) : Ful :=
  let top (base len : Nat) (v : Stream) : Stream :=
    { v with head := (List.range (v.head + 1 - v.tail)).foldl (fun h k =>
        if (Table.get none f.map (ringLsa base len (v.tail + k))).isSome = true then max h (v.tail + k + 1) else h) v.tail }
  { f with dirty := [], open6 := ⟨[], 0, none⟩, open7 := ⟨[], 0, none⟩, open8 := ⟨[], 0, none⟩,
           stream4 := top 163840 16384 f.stream4, stream6 := top 245760 f.len6 f.stream6,
           stream7 := top f.base7 f.len7 f.stream7, stream8 := top f.base8 f.len8 f.stream8,
           queue := [], holding := false, collection := none, collecting := false, refresh := [], rebuilding := true,
           heldForCheckpoint := false, stopped := false, ckptCtx := none, ckptLegal := none, formatted := false, cleanStart := false,
           itemsIgnored := false, warned := false, rotate := 0 }

/-- Format the array (R333): every good block is erased, the capacity fixed and the first control record written. -/
def State.format (s : State) : State :=
  let f := s.ful
  let good := f.goodCount
  let dirtyBlocks := (f.blocks.filter fun e => decide (e.2.pages ≠ [])).length
  let blocks := (List.range f.total).filterMap fun b =>
    let v := f.block b
    if v.state = .factoryBad ∨ v.marked = true then some (b, v) else some (b, { Block.fresh with erases := v.erases + 1 })
  let cap := f.capacityOf good (s.item iOpPermille)
  let balance := s.item iBalanceMib
  let anomaly := s.item iAnomalyMib
  let c : ControlRecord := ⟨false, s.item iOpPermille, balance, anomaly, cap, cap - (245760 + 256 * balance + 256 * anomaly)⟩
  let g := { f with blocks := blocks, map := [], control := some c, formatted := true, stream4 := ⟨0, 0⟩, stream6 := ⟨0, 0⟩,
                    stream7 := ⟨0, 0⟩, stream8 := ⟨0, 0⟩, ctxReadPos := none, legalReadPos := none, freezes := [] }
  let s1 := ({ s with ful := g.putDirty 0 (.control c) }).bumpBy cFulErases good
  let p := good + 2 ^ 32 * dirtyBlocks + 2 ^ 64 * cap
  (s1.event .operations 17 0x80 0 p).event .security 17 0x80 0 p

/-- The rebuild of the map, the block table and the streams from flash (R349). -/
def State.rebuildStore (s : State) (badSums : List Nat) (badPages : List (Nat × Nat)) : State :=
  let read : Ful := { s.ful with blocks := s.ful.blocks.map fun e => (e.1, readBlock badSums badPages e.1 e.2) }
  let first := read.scan fun _ => false
  let bad := ({ read with map := first.1 } : Ful).bitmap
  let m := read.scan fun b => decide (b ∈ bad)
  let f1 : Ful := { read with map := m.1 }
  let fails := (s.ful.blocks.filter fun (e : Nat × Block) => decide (e.2.summary = true ∧ e.1 ∈ badSums ∧ e.1 ∉ bad)).length
  let saved := f1.savedCounts
  let add := s.item iReadLimit / 4
  let f2 : Ful := { f1 with blocks := f1.blocks.map fun e => (e.1, resumeCounts saved add e.1 (foundBlock bad f1.dataPages e.1 e.2)) }
  let top := f2.blocks.foldl (fun a e => max a e.2.seqRange.2) 0
  let control := match f2.sector 0 with
    | some (.control c) => some c
    | _ => none
  let f3 : Ful := { f2 with control := control, nextSeq := top + 4096, probes := min 65535 m.2,
                            cleanStart := (control.map ControlRecord.clean).getD false }
  let f4 : Ful := { f3 with ctxReadPos := f3.ctxCheckpoint.map CtxCheckpoint.readPos, legalReadPos := f3.legalPos.map Prod.snd,
                            ctxSeq := (f3.ctxCheckpoint.map fun c => c.seq + 1).getD 0, legalSeq := (f3.legalPos.map fun p => p.1 + 1).getD 0 }
  ((({ s with ful := f4 }).bumpBy cFulSummaryFail fails).bumpBy cFulRebuildProbes m.2).closeOpenBlocks

/-- After the rebuild: format where no control record was found, or compare the format items (R333); CLEAN is cleared on
flash, since the store is in use again (DEDUCED, notes/assumptions/40.md). -/
def State.readyStore (s : State) : State :=
  match s.ful.control with
  | none => s.format
  | some c =>
    let s1 : State := { s with ful := { s.ful with control := some { c with clean := false } } }
    let s2 : State := if c.clean = true then { s1 with ful := s1.ful.dirtyControl } else s1
    if c.opPermille = s.item iOpPermille ∧ c.balanceMib = s.item iBalanceMib ∧ c.anomalyMib = s.item iAnomalyMib then s2
    else ({ s2 with ful := { s2.ful with itemsIgnored := true } }).event .operations 17 0x81 0
      (c.opPermille + 2 ^ 16 * c.balanceMib + 2 ^ 48 * c.anomalyMib)

/-- REBUILD_DONE (R349): the rebuild ends, open blocks have been closed early, and the context restore may proceed.
`badSummaries`: the blocks whose summary fails SUM_CRC, which are scanned page by page; `badPages`: the pages, as block and page, that fail
ECC or PAGE_CRC. -/
def execRebuildDone (badSummaries : List Nat) (badPages : List (Nat × Nat)) (t : Nat) (s0 : State) : Host.Outcome State Fault Refusal :=
  let s := s0.advance t
  if s.ful.rebuilding = false ∨ s.boot.stage < 15 then .next s
  else
    let s1 := (s.rebuildStore badSummaries badPages).readyStore
    let ms := min 65535 ((s1.now - s1.ful.rebuildFrom) / ticksPerMs)
    let s2 : State := { s1 with ful := { s1.ful with rebuilding := false, rebuildMs := ms, snapshotAt := s1.way.opTime } }
    .next (s2.checkLevels false)

end Sys2Proof.Machine
end

