-- ==== Sys2Proof/Machine/ContextOps.lean ====
section
/-!
DEFINITION. Context operations and the restore of contexts (R116 to R118, R191, R374, R375, R438, R439).
-/

namespace Sys2Proof.Machine

/-! ## What an operation does to a context (R116) -/

/-- The state of a newly enrolled meter: MIRROR in the partner's range, FORWARD for an end-to-end group of a field node,
else ACTIVE (Table 4.5). -/
def State.enrolledState (s : State) (i group : Nat) : CtxState :=
  if 16384 ≤ i then .mirror else if s.boot.headEnd = false ∧ s.endToEnd group = true then .forward else .active

/-- The context that an enrolment leaves (R149, R235, R268, R302, R321, R438). -/
def State.enrolled (s : State) (i : Nat) (a : EnrolArgs) : Context :=
  let st := s.enrolledState i a.meterGroup
  let sealed := decide (st = .forward)
  { Context.empty with
    gmn := a.gmn, group := a.meterGroup, state := st, title := a.title,
    keySlot := if sealed = true then 0 else a.keySlot, keyGen := if sealed = true then 0 else s.slotGen a.keySlot,
    ekWrapped := if sealed = true then 0 else a.ekWrapped, akWrapped := if sealed = true then 0 else a.akWrapped,
    val := .fresh a.rating, radio := .fresh a.radio a.chan,
    bal := .fresh a.balGroup a.regPhase true a.exportAllowed }

/-- Keys change (R116): RX_IC and WINDOW are cleared, EXHAUSTED becomes ACTIVE. -/
def State.rekeyed (s : State) (c : Context) (slot : Nat) (ek ak : BitVec 192) : Context :=
  { c with keySlot := slot, keyGen := s.slotGen slot, ekWrapped := ek, akWrapped := ak, rxIc := 0, window := 0,
           state := if c.state = .exhausted then .active else c.state }

/-- An entry of region 3 that is not built. -/
def MasterEntry.empty : MasterEntry := ⟨[], 0, 0, false⟩

/-- The entry of region 3 for a context (Table 14.4): its master key by HKDF-Expand over the PRK of KEY_SLOT's material, wrapped under slot
3.  Without keys, or under a slot that is not usable, none is built. -/
def State.masterEntry (s : State) (c : Context) : MasterEntry :=
  if c.state = .empty ∨ c.state = .forward ∨ s.keyUsable c.keySlot = false then .empty
  else
    let key := hkdfExpand (slotPrk (s.keySlot c.keySlot).material) (asciiBytes "VXMK" ++ titleBytes c.title ++ [0x10#8, 0#8]) 16
    ⟨kwWrap (s.keySlot 3).material key, c.keySlot, c.keyGen, true⟩

/-- SEC fills the meter's entry of region 3 at enrolment and key change, and empties it at removal (R439). -/
def State.fillMaster (s : State) (i : Nat) : State :=
  { s with sec := { s.sec with masters := Table.set MasterEntry.empty s.sec.masters i (s.masterEntry (s.ctxAt i)) } }

/-- Bytes 0 to 123 of an entry of region 3, then its CRC-32C (Table 14.4). -/
def masterBytes (e : MasterEntry) : List Byte :=
  let b := (e.wrapped ++ List.replicate 24 0).take 24 ++ leBytes 1 e.keySlot ++ leBytes 1 e.keyGen.toNat ++
    leBytes 1 (if e.valid = true then 1 else 0) ++ List.replicate 97 0
  b ++ leBytes 4 (crc32c b).toNat

/-- The context image of an index, under its meter's GMN (R352). -/
def State.journalContext (s : State) (i : Nat) (g : Gmn) : State :=
  let c := s.ctxAt i
  s.toFuller (.journal ((List.range 8).map fun p => ⟨g, s.cyc.num, s.cycleTime, .image i p c⟩))

/-- A job's operation on the context at its index. -/
def State.applyJob (s : State) (i : Nat) (b : JobBody) : State :=
  let c := s.ctxAt i
  match b with
  | .enrolMeter a =>
    let s1 := (((s.modPlc fun p => { p with routes := Table.set ⟨none, none⟩ p.routes i ⟨none, none⟩ }).evict i).setCtx i (s.enrolled i a)).fillMaster i
    (s1.journalContext i a.gmn).toTroika (.clear i a)
  | .removeMeter g => ((((s.dropMeter g).evict i).setCtx i Context.empty).fillMaster i).journalContext i g
  | .keyChange g slot ek ak =>
    if c.state = .forward then s
    else (((s.evict i).setCtx i (s.rekeyed c slot ek ak)).fillMaster i).journalContext i g
  | .counterReset g rx tx =>
    (s.setCtx i { c with rxIc := rx, txIc := tx }).journalContext i g
  | .balanceMembership g group phase exported =>
    (s.setCtx i { c with bal := { c.bal with group := group, regPhase := phase, member := true, exportAllowed := decide (exported = 1) } }).journalContext i g
  | _ => s

/-- The final report of a job of this node that its partner sequenced, now that its work has returned (R373). -/
def State.seqReturned (s : State) (w : SeqWork) : State :=
  match s.hwl.seqAsked.find? fun a => decide (a.work = w) with
  | none => s
  | some a => ({ s with hwl := { s.hwl with seqAsked := s.hwl.seqAsked.erase a } }).finishJob a.ref 0 .none 0 [] .none

/-- Mirror an operation of an own meter and finish its job (R368, R373). -/
def State.finishOp (s : State) (i : Nat) (b : JobBody) (ref : Option JobRef) (mirrored : Bool) : State :=
  if mirrored = true then s.seqReturned (.context b)
  else
    let s1 := if i < 16384 then s.mirrorSend (.mctx b) else s
    match ref with
    | none => s1
    | some j => if i < 16384 then s1.finishMirrored j 0 .none 0 [] else s1.finishJob j 0 .none 0 [] .none

/-- Freeze or release a context (R190, R191): released, it is EXHAUSTED where RX_IC is at its end, MIRROR for a mirrored
index, else ACTIVE. -/
def State.applyFreeze (s : State) (i : Nat) (frozen : Bool) : State :=
  let c := s.ctxAt i
  let st : CtxState :=
    if frozen = true then (if c.state = .active ∨ c.state = .exhausted ∨ c.state = .mirror then .frozen else c.state)
    else if c.state ≠ .frozen then c.state
    else if c.rxIc = 0xFFFFFFFF#32 then .exhausted
    else if 16384 ≤ i then .mirror else .active
  (s.setCtx i { c with state := st }).journalContext i c.gmn

/-- A whole mirrored meter replaces this node's state of it (R374): not the wrapped keys and STATE.  An MSYNC of a designation clears MISMATCH
(R378). -/
def State.applySync (s : State) (i : Nat) (g : Gmn) (reason : Nat) (x : Context) (v : LegalSlot) (closed : List ClosedPeriod) : State :=
  let c := s.ctxAt i
  let s1 := s.setCtx i { c with rxIc := x.rxIc, window := x.window, txIc := x.txIc, val := x.val, plc := x.plc, radio := x.radio,
                                txn := x.txn, bal := x.bal }
  let missing := closed.filter fun p => (s.closedOf i).all fun q => decide (q.periodIndex ≠ p.periodIndex)
  let s2 := (s1.journalContext i g).toTroika (.slot i v)
  let s3 := missing.foldl (fun st p => (st.keepClosed i [p]).toFuller (.closed i p)) s2
  let s4 := if reason = 2 then { s3 with hwl := { s3.hwl with mismatch := s3.hwl.mismatch.filter fun m => decide (m ≠ i) } } else s3
  s4.note cHwlSyncApplied .legal .none 0 (g.toNat + 2 ^ 32 * ((s.partner.getD 0) + 2 ^ 8 * reason))

/-- A digest barrier passes its lane (R375): the primary writes a CUT into the stream, and Troika marks the cut state behind what it has in
line for the lane. -/
def State.passBarrier (s : State) (lane : Fin 4) (cutId range : Nat) : State :=
  let s1 := if range = s.hwl.nodeId.toNat then s.mirrorSend (.cut cutId lane.val) else s
  (s1.toTroika (.cut lane cutId range)).settleCuts

/-! ## The step (R116) -/

/-- A lane item that is a context operation. -/
def LaneBody.isOp : LaneBody → Bool
  | .op _ _ => true
  | _ => false

/-- What was handed to VAL before an operation has left it, so that Troika sees it first (R373, R375). -/
def State.valEmpty (s : State) (l : Nat) : Bool := decide (s.val.queue.getD l [] = []) && (s.val.held.getD l none).isNone

/-- Perform a context operation at an index. -/
def State.applyOp (s : State) (lane : Fin 4) (i : Option Nat) : CtxOp → State
  | .job b ref m => match i with
    | some k => (s.applyJob k b).finishOp k b ref m
    | none => s
  | .legal _ op ref m => match i with
    | some k => if (s.ctxAt k).state = .empty then s.answerOp ref 2 .notFound 0 [] else s.toTroika (.legal k op ref m)
    | none => s
  | .freeze k f => s.applyFreeze k f
  | .sync g reason c v ps => match i with
    | some k => s.applySync k g reason c v ps
    | none => s
  | .barrier cutId range => s.passBarrier lane cutId range

/-- An operation that Troika must see after the records before it. -/
def CtxOp.waitsForVal : CtxOp → Bool
  | .freeze _ _ => false
  | _ => true

/-- A change of an own meter that goes to the mirror. -/
def CtxOp.mirrors (i : Option Nat) : CtxOp → Bool
  | .job _ _ m => !m && i.any fun k => decide (k < 16384)
  | .legal _ _ _ m => !m && i.any fun k => decide (k < 16384)
  | _ => false

/-- CONTEXT_OPERATION (R116): the lane's next context operation takes effect between the frames ticketed before it and those
ticketed after it, and its context image is journaled. -/
def execContextOperation (lane : Fin 4) (t : Nat) (s0 : State) : Host.Outcome State Fault Refusal :=
  let s := s0.advance t
  if s.pipeOff = true then .next s
  else match s.readyIn LaneBody.isOp (s.lane lane.val) [] with
  | none => .next s
  | some x =>
    match x.item.body with
    | .op o _ =>
      let first := decide ((s.lane lane.val).head? = some x)
      let barrier := match o with
        | .barrier _ _ => true
        | _ => false
      if (o.waitsForVal = true ∧ s.valEmpty lane.val = false) ∨ (barrier = true ∧ first = false) ∨
          (o.mirrors x.index = true ∧ s.mirrorAwaited = true) then .next s
      else .next ((s.leaveLane lane.val x).applyOp lane x.index o)
    | _ => .next s

/-! ## The restore (R118) -/

/-- The last complete context image of an index in a list of entries, and the entries after it. -/
def lastImage (i : Nat) : List StoreEntry → Option Context × List StoreEntry → Option Context × List StoreEntry
  | [], acc => acc
  | .journal j :: rest, acc =>
    match j.body with
    | .image k 7 c => if k = i then lastImage i rest (some c, rest) else lastImage i rest acc
    | _ => lastImage i rest acc
  | _ :: rest, acc => lastImage i rest acc

/-- The reading records of a meter, applied to its validation state in stored order; estimates are not judged. -/
def State.replayVal (s : State) (g : Gmn) (v : ValState) (es : List StoreEntry) : ValState :=
  es.foldl (fun st e => match e with
    | .record r _ _ _ => if r.gmn = g ∧ r.typ ≠ 6 ∧ recordOk r = true then ((s.judge st r).map Judgement.state).getD st else st
    | _ => st) v

/-- A context as the restore finds it. -/
def State.restored (s : State) (base : Table Context) (es : List StoreEntry) (i : Nat) : Context :=
  let (img, rest) := lastImage i es (none, es)
  let c := img.getD (Table.get Context.empty base i)
  if c.state = .empty then c else { c with val := s.replayVal c.gmn c.val rest }

/-- At every start a slotted partner takes RECOVERING, because radio time restarts (R298). -/
def unanchored (c : Context) : Context := { c with radio := { c.radio with recovering := c.radio.recovering || decide (c.radio.wake = 1) } }

/-- The indices that a restore concerns. -/
def imageIndices (es : List StoreEntry) : List Nat :=
  es.filterMap fun e => match e with
    | .journal j => match j.body with
      | .image k _ _ => some k
      | _ => none
    | _ => none

/-- CONTEXT_RESTORE (R118): at start the whole table is rebuilt, after Fuller's rebuild, and credits open; later, the
contexts that are LOST.  A context restored later is journaled (R352). -/
def execContextRestore (t : Nat) (s0 : State) : Host.Outcome State Fault Refusal :=
  let s := s0.advance t
  if s.ful.rebuilding = true then .next s
  else
    let ck := s.ful.ctxCheckpoint
    let base := (ck.map CtxCheckpoint.table).getD []
    let pos := (ck.map CtxCheckpoint.readPos).getD 0
    let es := ((s.ful.entries.filter fun e => decide (pos ≤ e.1)).map Prod.snd) ++ s.ful.arriving
    if s.ing.restoring = true then
      let is := base.map Prod.fst ++ imageIndices es
      let s1 := is.foldl (fun st i => st.setCtx i (unanchored (s.restored base es i))) { s with ctx := [] }
      let s2 := s1.ctx.foldl (fun st e => st.fillMaster e.1) s1
      .next ({ s2 with ing := { s2.ing with restoring := false, creditsOpen := true } }).reseedRest
    else
      let lost := (s.ctx.filter fun e => decide (e.2.state = .lost)).map Prod.fst
      .next (lost.foldl (fun st i =>
        let c := s.restored base es i
        if c.state = .lost ∨ c.state = .empty then st else ((st.evict i).setCtx i c).journalContext i c.gmn) s)

end Sys2Proof.Machine
end

