-- ==== Sys2Proof/Machine/FeederOps.lean ====
section
/-!
DEFINITION. The feeder meter MET: accumulation, hand-off to Troika, interval closes and snapshot latches
(R194 to R197, R204, R226).
-/

namespace Sys2Proof.Machine

/-! ## What the converters give (R194) -/

/-- A phase on which nothing has crossed. -/
def Phase.fresh : Phase := ⟨none, none, 0, false, 0, [], []⟩

/-- A phase, 0 to 2. -/
def Cyc.phase (c : Cyc) (p : Nat) : Phase := c.phases.getD p Phase.fresh

/-- Energies count in parts of 0.1 Wh: a sample's product of two 24-bit numbers under 30-bit gains, over 8 000 samples a second.  A voltage of
full scale, ±2^23, is 1 000 V at the MET input, a current 2.5 A times MET_CT_PRIMARY (R536), so that the primary power in W is the product
times MET_VT_RATIO × 5 × MET_CT_PRIMARY ÷ 2^107; 0.1 Wh is 360 W·s. -/
def metEnergyUnit : Nat := 2 ^ 107 * 8000 * 360

/-- i²t counts in parts of 1 A²·s: a primary current is a number under its gain times 5 × MET_CT_PRIMARY ÷ 2^54. -/
def metI2tUnit : Nat := 2 ^ 108 * 8000

/-- The largest whole number whose square is no more than `n`, from bit `k` − 1 down. -/
def isqrtFrom (n : Nat) : Nat → Nat → Nat
  | 0, a => a
  | k + 1, a => isqrtFrom n k (if (a + 2 ^ k) ^ 2 ≤ n then a + 2 ^ k else a)

/-- The integer square root of a number below 2^256. -/
def isqrt (n : Nat) : Nat := isqrtFrom n 128 0

/-- The samples of a channel of a cycle. -/
def metChannel (c : MetCycle) (n : Nat) : List Int := c.channels.getD n []

/-- The samples of a channel under its gain of MET_CAL. -/
def State.metGained (s : State) (c : MetCycle) (n : Nat) : List Int := (metChannel c n).map fun x => x * (s.itemField iMetCal (4 * n) 4 : Int)

/-- The current samples of a phase, 0 to 2, moved by its phase correction of MET_CAL in 0.001°. -/
def State.metCurrent (s : State) (c : MetCycle) (p : Nat) : List Int :=
  let k := signedAt (s.itemBytes iMetCal) (28 + 2 * p) 2
  if k = 0 then s.metGained c (3 + p) else Config.phaseShift k (s.metGained c (3 + p))

/-- The sum of products, sample by sample. -/
def dotInt (a b : List Int) : Int := (a.zip b).foldl (fun x p => x + p.1 * p.2) 0

/-- The RMS of samples whose squares stand for 1 over `unit`, cut to a whole number. -/
def rmsOf (l : List Int) (factor unit : Nat) : Nat :=
  isqrt ((dotInt l l).toNat * factor ^ 2 / (max 1 l.length * unit))

/-- A primary voltage's RMS, `k` parts to the volt. -/
def State.voltRms (s : State) (l : List Int) (k : Nat) : Nat := rmsOf l (s.item iMetVtRatio * k) (2 ^ 106)

/-- A primary current's RMS, `k` parts to the ampere. -/
def State.ampRms (s : State) (l : List Int) (k : Nat) : Nat := rmsOf l (5 * s.item iMetCtPrimary * k) (2 ^ 108)

/-- Energy goes to import when positive and to export when negative (R194). -/
def splitSign (x : Int) : List Nat := [x.toNat, (-x).toNat]

/-- What a cycle gives of a phase: active energy from v × i, reactive energy from i and v through the Hilbert filter. -/
def State.measurePhase (s : State) (c : MetCycle) (p : Nat) : MetPhase :=
  let v := s.metGained c p
  let i := s.metCurrent c p
  let scale : Int := (s.item iMetVtRatio * 5 * s.item iMetCtPrimary : Nat)
  ⟨splitSign (dotInt v i * scale) ++ splitSign (dotInt (Config.hilbert v) i * scale), s.voltRms v 10, s.ampRms i 10,
   (dotInt i i).toNat * (5 * s.item iMetCtPrimary) ^ 2, !(s.cyc.phase p).present,
   ([p, 3 + p] : List Nat).any fun n => (metChannel c n).any fun x => decide (x ≤ -(2 ^ 23) ∨ 2 ^ 23 - 1 ≤ x)⟩

/-- The earth current i1 + i2 + i3 − iN, sample by sample (R226). -/
def State.metEarth (s : State) (c : MetCycle) : List Int :=
  let i (p : Nat) := s.metCurrent c p
  (((i 0).zip (i 1)).zip ((i 2).zip (s.metGained c 6))).map fun (x : (Int × Int) × (Int × Int)) => x.1.1 + x.1.2 + x.2.1 - x.2.2

/-- What a cycle gives (R194, R226). -/
def State.measureCycle (s : State) (c : MetCycle) : MetSample :=
  ⟨(List.range 3).map (s.measurePhase c), 1, s.ampRms (s.metGained c 6) 10, s.ampRms (s.metEarth c) 10,
   (List.range 7).map fun n => if n < 3 then s.voltRms (s.metGained c n) 100 else if n < 6 then s.ampRms (s.metCurrent c (n - 3)) 1000
     else s.ampRms (s.metGained c 6) 1000,
   BitVec.ofNat 7 ((List.range 7).foldl (fun a n => a +
     (if (metChannel c n).any (fun x => decide (x ≤ -(2 ^ 23) ∨ 2 ^ 23 - 1 ≤ x)) = true then 2 ^ n else 0)) 0)⟩

/-! ## Accumulation -/

/-- A phase with nothing accumulated. -/
def zeroPhase : MetPhase := ⟨[0, 0, 0, 0], 0, 0, 0, false, false⟩

/-- Nothing accumulated. -/
def zeroSample : MetSample :=
  ⟨[zeroPhase, zeroPhase, zeroPhase], 0, 0, 0, [0, 0, 0, 0, 0, 0, 0], 0⟩

/-- Add two lists of numbers element by element. -/
def addLists (n : Nat) (a b : List Nat) : List Nat := (List.range n).map fun i => a.getD i 0 + b.getD i 0

/-- Add what a phase measured. -/
def addPhase (a b : MetPhase) : MetPhase :=
  ⟨addLists 4 a.energy b.energy, a.vSum + b.vSum, a.iSum + b.iSum, a.i2t + b.i2t, a.absent || b.absent, a.clipped || b.clipped⟩

/-- The phase `p`, 0 to 2. -/
def samplePhase (m : MetSample) (p : Nat) : MetPhase := m.phases.getD p zeroPhase

/-- Add what MET measured. -/
def addSample (a b : MetSample) : MetSample :=
  ⟨(List.range 3).map fun p => addPhase (samplePhase a p) (samplePhase b p), a.cycles + b.cycles, a.nSum + b.nSum, a.earthSum + b.earthSum, b.rms,
   a.clip ||| b.clip⟩

/-- The energy of all phases per direction, in parts of 0.1 Wh. -/
def sampleParts (m : MetSample) : List Nat :=
  (List.range 4).map fun d => (List.range 3).foldl (fun a p => a + (samplePhase m p).energy.getD d 0) 0

/-- The energy of all phases per direction, in whole 0.1 Wh. -/
def sampleEnergy (m : MetSample) : List Nat := (sampleParts m).map fun e => e / metEnergyUnit

/-- What an interval that closes leaves to the next: the parts of a unit that its records could not show (DESIGN CHOICE,
notes/assumptions/147.md). -/
def carrySample (m : MetSample) : MetSample :=
  { zeroSample with phases := (List.range 3).map fun p =>
      { zeroPhase with energy := (samplePhase m p).energy.map fun e => e % metEnergyUnit, i2t := (samplePhase m p).i2t % metI2tUnit } }

/-- MET takes a cycle: it accumulates, keeps the RMS values and sets the channels' CLIP bits (MET_STATUS). -/
def State.metTake (s : State) (c : MetCycle) : State :=
  let m := s.measureCycle c
  let s1 := { s with met := { s.met with since := addSample s.met.since m, unhanded := addLists 4 s.met.unhanded (sampleParts m),
                                         rms := (List.range 7).map fun n => m.rms.getD n 0 % 2 ^ 24 } }
  s1.setReg 0x160000 (s1.reg 0x160000 ||| BitVec.setWidth 32 m.clip)

/-- A phase is absent for a part of the interval (Table 6.9). -/
def State.markAbsent (s : State) (p : Nat) : State :=
  let m := s.met.since
  { s with met := { s.met with since := { m with phases := m.phases.set p { samplePhase m p with absent := true } } } }

/-- MET takes the cycles that its converters have completed. -/
def State.metMeasure (s : State) (l : List MetCycle) : State := l.foldl State.metTake s

/-- Troika applies the feeder deltas to the feeder register set at the rate in force (R195), in whole units; MET keeps the rest, and all of
them while Troika accepts nothing. -/
def State.handFeeder (s : State) : State :=
  if s.bil.restoring = true ∨ s.bil.safe = true then s
  else
    let f := addEnergy s.bil.feeder s.met.rate (s.met.unhanded.map fun e => e / metEnergyUnit)
    let t := s.cycleTime
    let sets := s.tariffSlot (s.item iFeederTariffSlot)
    { s with bil := { s.bil with feeder := { f with billTref := max f.billTref t, tariffId := tariffIdAt sets t } },
             met := { s.met with unhanded := s.met.unhanded.map fun e => e % metEnergyUnit } }

/-- A mean over cycles; no cycle gives zero. -/
def meanOf (sum n : Nat) : Nat := if n = 0 then 0 else min (sum / n) 65535

/-- The TYPE 5 record of a phase (Table 6.9). -/
def State.feederRecord (s : State) (m : MetSample) (p cycle stamp : Nat) (synth short snap : Bool) : FeederRecord :=
  let ph := samplePhase m p
  ⟨s.hwl.nodeId, p + 1, s.met.seq % 2 ^ 32, cycle, flags16 [(rxTimeRegressed, s.tim.regressed), (rxSynth, synth)], stamp,
   ph.energy.map fun e => e / metEnergyUnit % 2 ^ 40, meanOf ph.vSum m.cycles, meanOf ph.iSum m.cycles, short, snap, ph.absent, ph.clipped,
   meanOf m.nSum m.cycles, ph.i2t / metI2tUnit % 2 ^ 48, meanOf m.earthSum m.cycles⟩

/-- One feeder record leaves MET: to BAL and Fuller, and from a bundle sender as a FEEDER entry (R204). -/
def State.feederOut (s : State) (f : FeederRecord) : State :=
  let s1 := s.feederArrived f none false
  if s1.sendsBundles = true then
    s1.addEntry ⟨BitVec.ofNat 20 (f.node.toNat * 16384 + f.phase), f.rxFlags.getLsbD rxSynth, f.rxFlags.getLsbD rxTimeRegressed, 0xFF, 0, 0,
      BitVec.ofNat 48 f.cycle, 0xFFFF, BitVec.ofNat 32 f.stamp, .feeder f (feederCrc f)⟩
  else s1

/-- Three feeder records of one close or latch, under one feeder sequence (R196). -/
def State.feederRecords (s : State) (m : MetSample) (cycle stamp : Nat) (synth short snap : Bool) : State :=
  let s1 := (List.range 3).foldl (fun st p => st.feederOut (s.feederRecord m p cycle stamp synth short snap)) s
  { s1 with met := { s1.met with seq := (s1.met.seq + 1) % 2 ^ 32 } }

/-- The feeder's demand over an interval (R178, as for a meter's interval record). -/
def State.feederDemand (s : State) (stamp : Nat) : State :=
  let f := raiseDemand (s.item iIntervalMin) 1 ((sampleEnergy s.met.since).map some) stamp s.bil.feeder
  { s with bil := { s.bil with feeder := f } }

/-- Close the feeder's interval (R195, R196): the deltas go to Troika, three records are written, and accumulation starts
afresh. -/
def State.closeFeeder (s : State) (cycle stamp : Nat) (short : Bool) : State :=
  let s1 := (s.handFeeder).feederDemand stamp
  let s2 := s1.feederRecords s1.met.since cycle stamp false short false
  { s2 with met := { s2.met with since := carrySample s1.met.since, closedShort := short } }

/-- A synthetic boundary (R196): a record with zero energy and SYNTH, unless SHORT has closed the interval already. -/
def State.closeSynthetic (s : State) (cycle stamp : Nat) : State :=
  if s.met.closedShort = true then { s with met := { s.met with closedShort := false } }
  else s.feederRecords { zeroSample with phases := [⟨[0, 0, 0, 0], 0, 0, 0, true, false⟩, ⟨[0, 0, 0, 0], 0, 0, 0, true, false⟩,
    ⟨[0, 0, 0, 0], 0, 0, 0, true, false⟩] } cycle stamp true false false

/-- A snapshot latch (R216): the deltas go to Troika and three records with SNAPSHOT are written; nothing closes. -/
def State.latchFeeder (s : State) (cycle stamp : Nat) : State :=
  let s1 := s.handFeeder
  s1.feederRecords s1.met.since cycle stamp false false true

end Sys2Proof.Machine
end

