-- ==== Sys2Proof/Machine/RfmOps.lean ====
section
/-!
DEFINITION. The radio mesh's operations: radios, muting and duty, radio time and wake prediction, frames to send, reception,
Tollbook and acknowledgement (R271 to R300).
-/

namespace Sys2Proof.Machine

/-! ## Radios (R271, R273, R279) -/

/-- Parts of RFM change. -/
def State.modRfm (s : State) (f : Rfm → Rfm) : State := { s with rfm := f s.rfm }

/-- Radio n runs (R269, R303): its band is set. -/
def State.radioOn (s : State) (n : Nat) : Bool := decide (s.item (if n = 0 then iRf0Band else iRf1Band) ≠ 0)

/-- A radio's part of the block runs: its firmware and items are in place, and the mode does not stop it (Table 15.5). -/
def State.rfRuns (s : State) (n : Nat) : Bool := s.radioOn n && decide (15 ≤ s.boot.stage ∧ s.pwr.mode ≠ .standby)

/-- A radio may transmit: GASP allows none (Table 15.5). -/
def State.rfSends (s : State) (n : Nat) : Bool := s.rfRuns n && decide (s.pwr.mode ≠ .gasp)

/-- An idle radio. -/
def Radio.idle : Radio := ⟨[], [], false⟩

/-- A radio by number. -/
def State.radioAt (s : State) (n : Nat) : Radio := s.rfm.radios.getD n Radio.idle

/-- Replace a radio. -/
def State.setRadio (s : State) (n : Nat) (r : Radio) : State := s.modRfm fun m => { m with radios := m.radios.set n r }

/-- RFn_CHANNELS of a radio. -/
def rfChannelsItem (n : Nat) : Nat := if n = 0 then iRf0Channels else iRf1Channels

/-- MODE of a radio (Table 9.1). -/
def State.rfMode (s : State) (n : Nat) : Nat := s.itemField (rfChannelsItem n) 10 1

/-- The centre of a channel of a radio in kHz: CH0 + n × SPACING (R271); channel 0 is CHAN_A. -/
def State.channelKhz (s : State) (n chan : Nat) : Nat :=
  let i := rfChannelsItem n
  s.itemField i 0 4 + s.itemField i 4 2 * s.itemField i (if chan = 0 then 6 else 8) 2

/-- Two frequencies lie within 2 MHz of each other. -/
def within2MHz (a b : Nat) : Bool := decide (a ≤ b + 2000 ∧ b ≤ a + 2000)

/-- PA_LEAD in AFE clocks (Table 9.8). -/
def State.paLead (s : State) : Nat := ticksOfUs (s.itemField iPaTiming 0 2)

/-- PA_LAG in AFE clocks (Table 9.8). -/
def State.paLag (s : State) : Nat := ticksOfUs (s.itemField iPaTiming 2 2)

/-- A transmission mutes a frame that began at an AFE time and ends now: from PA enable until 100 µs after the last symbol (R273). -/
def State.spanMutes (s : State) (start : Nat) (sp : TxSpan) : Bool :=
  decide (sp.first - s.paLead ≤ s.now ∧ start < sp.first + sp.airtime + ticksOfUs 100)

/-- A frame that began at an AFE time on a channel of a radio and ends now was lost to muting (R273): its own radio transmitted during it, or
the other on the same band within 2 MHz. -/
def State.radioMuted (s : State) (n chan start : Nat) : Bool :=
  ((s.radioAt n).spans.any fun sp => s.spanMutes start sp) ||
    (decide (s.item iRf0Band = s.item iRf1Band) && (s.radioAt (1 - n)).spans.any fun sp =>
      s.spanMutes start sp && within2MHz (s.channelKhz n chan) (s.channelKhz (1 - n) sp.chan))

/-- The rolling window of R279 in AFE clocks. -/
def dutyWindow : Nat := 3600 * ticksPerSec

/-- AFE clocks that a radio has transmitted in the rolling 3 600 s. -/
def State.dutyUsed (s : State) (n : Nat) : Nat :=
  (s.radioAt n).spans.foldl (fun a sp => a + (min s.now (sp.first + sp.airtime) - max sp.first (s.now - dutyWindow))) 0

/-- The rolling window allows no frame now. -/
def State.dutyFull (s : State) (n : Nat) : Bool :=
  decide (s.item iDutyPermille ≠ 0) && decide (s.item iDutyPermille * dutyWindow / 1000 ≤ s.dutyUsed n)

/-- A frame of a radio meets a duty hold: counted once per hold (R279). -/
def State.holdDuty (s : State) (n : Nat) : State :=
  let r := s.radioAt n
  if r.holding = true then s
  else ((s.setRadio n { r with holding := true }).bump (cRfDutyHold n)).raiseInt 0x1A0004 3

/-- The radio sends on a channel: its first preamble symbol, and the airtime from it to the last symbol. -/
def State.radioDrive (s : State) (n chan first airtime : Nat) : State :=
  let r := s.radioAt n
  s.setRadio n { r with spans := ⟨first, airtime, chan⟩ :: r.spans.filter fun sp => decide (s.now < sp.first + sp.airtime + dutyWindow) }

/-- The radio is transmitting. -/
def State.radioBusy (s : State) (n : Nat) : Bool := (s.radioAt n).spans.any fun sp => decide (s.now < sp.first + sp.airtime)

/-- From LNA_EN low to the first preamble symbol: PA_LEAD before PA_EN rises, which is PA_LEAD before that symbol (R301). -/
def State.rfLead (s : State) : Nat := 2 * s.paLead

/-- PA_EN of a radio (R301): from PA_LEAD before the first preamble symbol until PA_LAG after the last symbol. -/
def State.paEn (s : State) (n : Nat) : Bool :=
  (s.radioAt n).spans.any fun sp => decide (sp.first - s.paLead ≤ s.now ∧ s.now < sp.first + sp.airtime + s.paLag)

/-- LNA_EN of a radio (R301): high while it receives; low from PA_LEAD before PA_EN rises until PA_LAG after it falls. -/
def State.lnaEn (s : State) (n : Nat) : Bool :=
  s.rfRuns n && !((s.radioAt n).spans.any fun sp => decide (sp.first - s.rfLead ≤ s.now ∧ s.now < sp.first + sp.airtime + 2 * s.paLag))

/-- AFE clocks of a frame with an ordinary preamble of a radio (R272). -/
def State.rfAirtime (s : State) (n bytes : Nat) : Nat :=
  Config.rfPreamble (s.rfMode n) (s.item iPreambleOctets) + Config.rfTail (s.rfMode n) bytes

/-! ## Radio time and wake prediction (R292 to R294) -/

/-- Radio time now in ns. -/
def State.radioNs (s : State) : Nat := (s.now - s.rfm.origin) * 15625 / 384

/-- Length of a slot frame in ns. -/
def State.slotFrameNs (s : State) : Nat := s.item iSlots * s.item iSlotLen * 1000000

/-- Start of slot k within its frame, in ns. -/
def State.slotStartNs (s : State) (k : Nat) : Nat := k * s.item iSlotLen * 1000000

/-- The nominal instant within a slot: GUARD_MAX + 0.2 ms after its start. -/
def State.slotLeadNs (s : State) : Nat := s.item iGuardMax * 1000 + 200000

/-- N of slot k in frame f, in ns of radio time. -/
def State.nominalNs (s : State) (f k : Nat) : Nat := f * s.slotFrameNs + s.slotStartNs k + s.slotLeadNs

/-- The most recent N of slot k at or before an instant, in ns. -/
def State.recentN (s : State) (k : Nat) (w : Int) : Nat :=
  s.nominalNs ((w - s.slotStartNs k - s.slotLeadNs).toNat / max 1 s.slotFrameNs) k

/-- N − T_MEAS in ms; T_MEAS wraps at 32 bits. -/
def sinceMeas (n tMeas : Nat) : Nat := (n / 1000000 + 2 ^ 32 - tMeas) % 2 ^ 32

/-- Ŵ for an N, in ns: N + OFFSET + DRIFT × (N − T_MEAS). -/
def predicted (l : RadioLink) (n : Nat) : Int :=
  (n : Int) + l.offset * 1000 + l.drift * (sinceMeas n l.tMeas : Int) / 100

/-- G[i] in ns (R293). -/
def State.guardNs (s : State) (i : Nat) : Nat :=
  (s.item iGuardStart + i * (s.item iGuardMax - s.item iGuardStart) / 3) * 1000

/-- A meter's radio link state. -/
def State.radioLink (s : State) (i : Nat) : RadioLink := (s.ctxAt i).radio

/-- Change a meter's radio link state. -/
def State.modRadio (s : State) (i : Nat) (f : RadioLink → RadioLink) : State := s.modCtx i fun c => { c with radio := f c.radio }

/-- N of the exchange that a partner's slot offers at the present radio time. -/
def State.exchangeN (s : State) (i : Nat) : Nat :=
  s.nominalNs (s.radioNs / max 1 s.slotFrameNs) (s.radioLink i).slot

/-- The span of an exchange for the guard in force: from Ŵ − g − 0.2 ms to Ŵ + g + 18 ms (R293, R294). -/
def State.exchangeSpan (s : State) (i : Nat) : Int × Int :=
  let l := s.radioLink i
  let w := predicted l (s.exchangeN i)
  let g : Int := s.guardNs l.gstep
  (w - g - 200000, w + g + 18000000)

/-- The span lies within the partner's own slot (R294). -/
def State.exchangeFits (s : State) (i : Nat) : Bool :=
  let n := s.exchangeN i
  let sp := s.exchangeSpan i
  let start : Int := (n : Int) - s.slotLeadNs
  decide (start ≤ sp.1 ∧ sp.2 ≤ start + s.item iSlotLen * 1000000)

/-- The AFE time of an instant of radio time in ns. -/
def State.afeOf (s : State) (ns : Int) : Nat := s.rfm.origin + (ns.toNat * 384 + 15624) / 15625

/-- The CCA of a partner's exchange is due (R293): 0.2 ms before its preamble. -/
def State.exchangeDue (s : State) (i : Nat) : Bool :=
  let sp := s.exchangeSpan i
  decide (sp.1 ≤ s.radioNs ∧ (s.radioNs : Int) ≤ sp.1 + 200000)

/-- A frame of an airtime that starts at an AFE time would overlap the reserved span of a slot exchange of the radio: one that is queued,
or one that is sent and not yet answered (R293). -/
def State.meetsSlot (s : State) (n first airtime : Nat) : Bool :=
  s.rfm.tx.any fun x => decide (x.radio = n ∧ x.way = .slotted) && (if x.awaiting = true then decide (first < x.waitUntil) else
    match x.slot with
    | none => false
    | some i =>
      let sp := s.exchangeSpan i
      decide (s.afeOf sp.1 < first + airtime ∧ first < s.afeOf sp.2))

/-! ## Beacons (R97, R300) -/

/-- A nominal period in RADIO clocks (R97). -/
def State.radioPeriod (s : State) : Nat := if s.cyc.nominal60 = true then 533333 else 640000

/-- AFE clocks of a number of RADIO clocks. -/
def afeOfRadio (n : Nat) : Nat := n * 96 / 125

/-- AFE time at which a queued radio beacon launches: its instant once its cycle is numbered, before that as its crossing is expected. -/
def State.rfLaunchAt (s : State) (b : BeaconDue) : Nat :=
  b.at_.getD (s.cyc.lastAt + (b.cycle - s.cyc.num) * s.periodTicks + afeOfRadio b.offset)

/-- PSDU bytes of a beacon: MAC header, mesh header, body and FCS. -/
def meshBeaconLength (b : BeaconDue) : Nat := if b.command.isSome = true then 61 else 41

/-- A frame of an airtime that starts at an AFE time would overlap a beacon of the radio.  Beacons take precedence over slot exchanges
(R293); that no other frame starts into one is the model's (DESIGN CHOICE, notes/assumptions/154.md). -/
def State.meetsRfBeacon (s : State) (n first airtime : Nat) : Bool :=
  (s.radioAt n).beacons.any fun b =>
    decide (s.rfLaunchAt b.1 < first + airtime + s.rfLead ∧ first < s.rfLaunchAt b.1 + s.rfAirtime n (meshBeaconLength b.1))

/-- A beacon joins those queued (R266): a periodic beacon and a command beacon of one cycle go out as one that carries the command, at the
command's offset (DESIGN CHOICE, notes/assumptions/151.md). -/
def mergeBeacon (b : BeaconDue) : List BeaconDue → List BeaconDue
  | [] => [b]
  | c :: l =>
    if c.cycle = b.cycle ∧ b.command = none then c :: l
    else if c.cycle = b.cycle ∧ c.command = none then b :: l
    else c :: mergeBeacon b l

/-- Queue a power-line beacon (R97): one whose cycle has already been numbered is discarded and counted late. -/
def State.queuePlcBeacon (s : State) (b : BeaconDue) : State :=
  if s.plcOn = false then s
  else if b.cycle ≤ s.cyc.num then (s.raiseInt 0x190004 2).bump cPlcBeaconsLate
  else s.modPlc fun p => { p with beacons := mergeBeacon b p.beacons }

/-- Queue a radio beacon on one channel of a radio (R97). -/
def State.queueRfBeacon (s : State) (n chan : Nat) (b : BeaconDue) : State :=
  if s.radioOn n = false then s
  else if b.cycle ≤ s.cyc.num then (s.raiseInt 0x1A0004 4).bump (cRfBeaconsLate n)
  else
    let r := s.radioAt n
    let same := (mergeBeacon b ((r.beacons.filter fun x => decide (x.2 = chan)).map Prod.fst)).map fun x => (x, chan)
    s.setRadio n { r with beacons := (r.beacons.filter fun x => decide (x.2 ≠ chan)) ++ same }

/-! ## Frames to send (R284 to R287, R291) -/

/-- A frame for the queue. -/
structure MeshOut where
  work : LinkWork
  apdu : Apdu
  slot : Option Nat
  dst : Nat
  radio : Nat
  chan : Nat
  way : MeshWay

/-- The AFE time at which a backoff of 0 to 2^BE − 1 unit periods ends that begins now (R278), and its draw. -/
def State.rfWait (s : State) (n be : Nat) : Nat × State :=
  let r := s.roll be
  (s.now + r.1 * Config.rfUnitBackoff (s.rfMode n), r.2)

/-- MIN_BE (Table 9.8). -/
def State.rfMinBe (s : State) : Nat := s.itemField iRfCsma 0 1

/-- Queue a frame with a new SEQ and DSN (R289). -/
def State.meshQueue (s : State) (o : MeshOut) : State :=
  let r := s.rfWait o.radio s.rfMinBe
  r.2.modRfm fun m => { m with seq := m.seq + 1,
                               tx := m.tx ++ [⟨o.work, o.apdu, o.slot, o.dst, o.radio, o.chan, m.seq, m.seq.toNat % 256, o.way, 0,
                                 s.rfMinBe, 0, r.1, false, false, 0⟩] }

/-- A pending window of an address is open (R277). -/
def State.windowOpen (s : State) (addr : Nat) : Bool := s.rfm.windows.any fun w => decide (w.addr = addr ∧ s.now < w.ends)

/-- TTL of a flood to a hop distance; an unknown distance takes TTL_MAX (DEDUCED, notes/assumptions/28.md). -/
def State.floodTtl (s : State) (dist : Nat) : Nat :=
  if dist = 0 then s.item iTtlMax else min (s.item iTtlMax) (dist + s.item iTtlMargin)

/-- How a frame reaches a meter that listens (R285): directly at DIST 1, else by a flood. -/
def State.wayAwake (s : State) (i : Nat) : MeshWay :=
  if (s.radioLink i).dist = 1 then .unicast else .flood (s.floodTtl (s.radioLink i).dist)

/-- How a downstream frame reaches a meter (R285, R291).  In its pending window a sleepy partner is reached as one that listens (DEDUCED,
notes/assumptions/158.md). -/
def State.wayTo (s : State) (i : Nat) : MeshWay :=
  let l := s.radioLink i
  if l.sleepy = true then
    if s.windowOpen (i % 16384) = true then s.wayAwake i
    else if l.wake = 2 ∨ l.recovering = true then .longPreamble
    else if l.wake = 1 then .slotted
    else .window
  else s.wayAwake i

/-- Queue a downstream frame to a meter on its radio and channel. -/
def State.meshTo (s : State) (i : Nat) (w : LinkWork) (a : Apdu) : State :=
  let l := s.radioLink i
  s.meshQueue ⟨w, a, some i, i % 16384, l.radio, l.chan, s.wayTo i⟩

/-- Flood a frame on channel A of each enabled radio (R286). -/
def State.floodAll (s : State) (w : LinkWork) (a : Apdu) (slot : Option Nat) (dst ttl : Nat) : State :=
  [0, 1].foldl (fun st n => if st.radioOn n = true then st.meshQueue ⟨w, a, slot, dst, n, 0, .flood ttl⟩ else st) s

/-- Remove a frame from the queue. -/
def State.meshDone (s : State) (x : MeshTx) : State := s.modRfm fun m => { m with tx := m.tx.erase x }

/-- Replace a queued frame. -/
def State.meshSet (s : State) (x y : MeshTx) : State := s.modRfm fun m => { m with tx := m.tx.map fun z => if z = x then y else z }

/-- Frames that wait for a pending window of an address may go in it, by CSMA-CA from MIN_BE (R277). -/
def State.openWindow (s : State) (addr : Nat) : State :=
  let s1 := s.modRfm fun m => { m with windows := ⟨addr, s.now + ticksPerSec / 2, false⟩ :: m.windows.filter fun w => decide (s.now < w.ends) }
  (s1.rfm.tx.filter fun x => decide (x.dst = addr ∧ x.awaiting = false) &&
      decide (x.way = .window ∨ x.way = .slotted ∨ x.way = .longPreamble)).foldl (fun st x =>
    let r := st.rfWait x.radio st.rfMinBe
    r.2.meshSet x { x with way := (x.slot.map st.wayAwake).getD .unicast, be := st.rfMinBe, backoffs := 0, readyAt := r.1 }) s1

/-- Slots of a radio in use: WAKE 1, or recovering (Table 9.7). -/
def State.slotsUsed (s : State) (n : Nat) : List Nat :=
  (s.ctx.filter fun e => decide (e.2.radio.radio = n) && (decide (e.2.radio.wake = 1) || e.2.radio.recovering)).map
    fun e => e.2.radio.slot

/-- The lowest free slot of a radio, if slots are used and one is left (R291). -/
def State.freeSlot (s : State) (n : Nat) : Option Nat :=
  if s.item iWakeMode ≠ 0 then none else (List.range (s.item iSlots)).find? fun k => decide (k ∉ s.slotsUsed n)

/-- Anchor a partner by SLOT_SET (R298): in its window, or by long preamble; RECOVERING holds until it is acknowledged. -/
def State.sendSlotSet (s : State) (i : Nat) : State :=
  let s1 := (s.modRadio i fun l => { l with wake := 2, recovering := true }).bump cRfmReslot
  s1.meshTo i (.slotSet (s1.radioLink i).slot true 0) []

/-- A partner newly declared sleepy (R291, R298): SLOT_SET with the lowest free slot, flooded because it has none yet, or with
ENABLE 0.  A partner with DIST above 1 gets no slot. -/
def State.newSleepy (s : State) (i : Nat) : State :=
  let l := s.radioLink i
  if l.dist ≠ 1 then s
  else match s.freeSlot l.radio with
    | some k =>
      let s1 := (s.modRadio i fun r => { r with wake := 2, recovering := true, slot := k, gstep := 0, misses := 0 }).bump cRfmReslot
      s1.floodAll (.slotSet k true 0) [] (some i) (i % 16384) (s1.item iTtlMax)
    | none =>
      let s1 := (s.modRadio i fun r => { r with wake := 2, recovering := false }).bump cRfmReslot
      s1.floodAll (.slotSet 0 false 0) [] (some i) (i % 16384) (s1.item iTtlMax)

/-- The first N of a slot at least LPL_INTERVAL + 200 ms after an instant of radio time, in ns (R294). -/
def State.nextAnchor (s : State) (k from_ : Nat) : Nat :=
  let least := from_ + (s.item iLplInterval + 200) * 1000000
  let n := s.recentN k (least : Int)
  if n < least then n + s.slotFrameNs else n

/-- Radio time of an AFE time, in ns. -/
def State.radioNsAt (s : State) (tick : Nat) : Nat := (tick - s.rfm.origin) * 15625 / 384

/-- A SLOT_SET as it goes out with a first preamble sample: NEXT_WAKE in ticks of 1/32 768 s from it; OFFSET starts at zero and T_MEAS is
the first wake instant (R298). -/
def State.anchor (s : State) (x : MeshTx) (first : Nat) : State × LinkWork :=
  match x.work, x.slot with
  | .slotSet k true _, some i =>
    let at0 := s.radioNsAt first
    let n := s.nextAnchor k at0
    (s.modRadio i fun l => { l with offset := 0, tMeas := n / 1000000 % 2 ^ 32 }, .slotSet k true ((n - at0) * 32768 / 1000000000))
  | w, _ => (s, w)

/-! ## Timing (R297) -/

/-- Measure a partner's wake instant from the LAG of a frame whose first preamble sample fell at `tp` ns of radio time; `false`
where the schedule is treated as lost. -/
def State.measure (s : State) (i tp lag : Nat) : State × Bool :=
  let l := s.radioLink i
  let lagNs : Int := (lag : Int) * 1000000000 / 32768
  let w : Int := tp - lagNs * (100000000 + l.drift) / 100000000
  let n := s.recentN l.slot w
  let e := w - predicted l n
  let since := sinceMeas n l.tMeas
  if (s.item iSlotLen : Int) * 500000 < e.natAbs then ((s.bump cRfmTimingReject).sendSlotSet i, false)
  else
    let drift := if s.item iDriftMinSpan * 1000 ≤ since then max (-20000) (min 20000 (l.drift + e * 100 / (max 1 since : Nat))) else l.drift
    (s.modRadio i fun r => { r with drift := drift, offset := (w - n) / 1000, tMeas := n / 1000000 % 2 ^ 32 }, true)

/-- A partner's schedule is in step again (R294, R296). -/
def State.slotReturn (s : State) (i : Nat) : State :=
  (s.modRadio i fun l => { l with wake := 1, gstep := 0, misses := 0, recovering := false }).bump cRfmSlotReturn

/-- TIMING of a frame that came directly from a sleepy partner (R281, R297 to R299). -/
def State.uplinkTiming (s : State) (i tp : Nat) (m : MeshTiming) : State :=
  let s1 := if m.longWindow = true then s.bump cRfmLongWindow else s
  let l := s1.radioLink i
  if l.wake = 1 ∧ l.recovering = true then s1.sendSlotSet i
  else if m.valid = true ∧ (l.wake = 1 ∨ l.recovering = true) then (s1.measure i tp m.lag).1
  else s1

/-! ## Failure (R278, R285, R295, R296) -/

/-- Every attempt of a frame has failed. -/
def State.meshFail (s : State) (x : MeshTx) : State :=
  let s1 := ((s.meshDone x).bump cRfmTxFail).raiseInt 0x1A0004 2
  let s2 := match x.slot with
    | some i => s1.modRadio i fun l => { l with fails := satAdd 8 l.fails 1 }
    | none => s1
  match x.work with
  | .request t => s2.failAttempt t true
  | .command t => s2.failAttempt t true
  | _ => s2

/-- Note on the tag that its attempt went to a flood (Table 10.4). -/
def State.markFlood (s : State) (w : LinkWork) (ttl : Nat) : State :=
  match w with
  | .request t => s.setTag t { s.tagAt t with flood := ttl }
  | _ => s

/-- An attempt fails: retried with fresh CSMA-CA, a direct unicast then flooded, or the frame fails (R278, R285, R296). -/
def State.meshAttemptFailed (s : State) (x : MeshTx) : State :=
  let flood := match x.way with
    | .flood _ => true
    | _ => false
  let r := s.rfWait x.radio s.rfMinBe
  if flood = false ∧ x.attempt < s.item iRfRetries then
    (r.2.meshSet x { x with attempt := x.attempt + 1, be := s.rfMinBe, backoffs := 0, readyAt := r.1, awaiting := false }).bump cRfmTxRetry
  else if x.way = .longPreamble then (s.bump cRfmLplFail).meshFail x
  else match x.slot with
    | some i =>
      if x.way = .unicast ∧ (s.radioLink i).sleepy = false then
        let ttl := s.floodTtl (s.radioLink i).dist
        (r.2.meshSet x { x with way := .flood ttl, attempt := 0, be := s.rfMinBe, backoffs := 0, readyAt := r.1, awaiting := false }).markFlood
          x.work ttl
      else s.meshFail x
    | none => s.meshFail x

/-- All frames of a partner that were to go out in its slots go by long preamble. -/
def State.toLongPreamble (s : State) (i : Nat) : State :=
  s.modRfm fun m => { m with tx := m.tx.map fun x => if x.slot = some i ∧ x.way = .slotted then { x with way := .longPreamble, awaiting := false } else x }

/-! ## Reception (R282, R286 to R290) -/

/-- HOPS of a frame, saturating at 7. -/
def meshHops (f : MeshFrame) : Nat := min 7 (f.ttlStart - f.ttl)

/-- The ingest frame of a radio DATA frame (R288). -/
def meshIngest (h : MeshHeard) : Frame :=
  let f := h.frame
  { src := 3 + h.copy.radio.val, slot := if k : f.src < 16384 then some ⟨f.src, k⟩ else none,
    synth := h.stamp.synth, regressed := h.stamp.regressed, rxCycle := h.stamp.cycle, zcOffset := 0xFFFF, snr := BitVec.ofNat 8 h.snr,
    hops := BitVec.ofNat 3 (meshHops f), rxPhase := 0, txnTag := f.tag.getD 0xFFFF, rxTime := h.stamp.time, fcsKind := 2,
    fckOk := h.copy.fckOk, faults := h.copy.faults, body := .apdu f.header f.body f.fcs }

/-- Insert a radio key into Tollbook. -/
def State.meshToll (s : State) (f : MeshFrame) : State :=
  let r := insertToll s.rfm.tollbook ⟨f.netId, f.src, f.seq, f.epoch, s.now + s.item iRfTollbookLife * ticksPerSec⟩
  let s1 := s.modRfm fun m => { m with tollbook := r.1 }
  if r.2 = true then (s1.bump cRfmTollbookEvict).raiseInt 0x1A0004 0 else s1

/-- The node holds a downstream frame for an address (R277). -/
def State.rfPending (s : State) (addr : Nat) : Bool :=
  (s.rfm.tx.any fun x => decide (x.dst = addr) && (match x.way with
    | .flood _ => false
    | _ => true)) ||
  ([13, 14].any fun p => (s.readyOn p).any fun r => match s.heldIndex r.gmn with
    | some i => decide (i % 16384 = addr) && (decide ((s.radioLink i).dist = 1) || (s.radioLink i).sleepy)
    | none => false)

/-- An Enh-Ack falls due 1 ms after the last symbol, for a unicast frame with AR (R276). -/
def State.enhAckDue (s : State) (h : MeshHeard) (last : Nat) : State :=
  let f := h.frame
  if f.ar = true ∧ f.macDst = 0xFFFD then
    s.modRfm fun m => { m with acks := m.acks ++ [⟨last + ticksPerMs, h.copy.radio.val, h.copy.chan.val, f.macSrc, f.dsn⟩] }
  else s

/-- A MESH_ACK for a flooded upstream frame that asks for one (R287). -/
def State.meshAckFor (s : State) (h : MeshHeard) : State :=
  let f := h.frame
  if f.ackReq = true ∧ f.macDst = 0xFFFF then
    (s.meshQueue ⟨.meshAck f.seq f.epoch, [], none, f.src, h.copy.radio.val, h.copy.chan.val,
      .flood (min 15 (meshHops f + 1 + s.item iTtlMargin))⟩).bump cRfmMeshAckTx
  else s

/-- DIST of a delivered meter's frame: the least HOPS + 1 among the reception's copies; a Tollbook hit only lowers it (R282). -/
def State.setDist (s : State) (i hops : Nat) (lower : Bool) : State :=
  s.modRadio i fun l => { l with dist := if lower = true ∧ l.dist ≠ 0 then min l.dist (min 15 (hops + 1)) else min 15 (hops + 1) }

/-- What every delivery of a meter's radio frame does to its link state. -/
def State.meshHeardFrom (s : State) (h : MeshHeard) (hops : Nat) : State :=
  let f := h.frame
  if 16384 ≤ f.src ∨ (s.ctxAt f.src).state = .empty then s
  else
    let s1 := ((s.heardMeter f.src s.sec2020).setDist f.src hops false).modRadio f.src fun l => { l with fails := 0 }
    match f.timing with
    | some m => if f.ttl = f.ttlStart ∧ (s1.radioLink f.src).sleepy = true then s1.uplinkTiming f.src (h.copy.start * 125 / 4) m else s1
    | none => s1

/-- A JOIN on radio reaches firmware (R286, R291): CAPS bit 2 declares a sleepy partner, bit 3 a meter able to relay; the relay role is
granted to none that cannot, or sleeps. -/
def State.meshJoin (s : State) (h : MeshHeard) (hops : Nat) : State :=
  let f := h.frame
  let title := BitVec.ofNat 64 (fieldAt f.body 0 8)
  let caps := BitVec.ofNat 16 (fieldAt f.body 8 2)
  let sleepy := caps.getLsbD 2
  match s.titleSlot title with
  | some k =>
    let s2 := (s.keepCaps k caps).modRadio k fun r => { r with sleepy := r.sleepy || sleepy, dist := min 15 (hops + 1) }
    let s3 := s2.floodAll (.assign k title (Config.grantsRelay k && caps.getLsbD 3 && !sleepy)) [] none f.src
      (min (s2.item iTtlMax) (hops + 1 + s2.item iTtlMargin))
    if sleepy = true ∧ (s3.radioLink k).wake = 0 then s3.newSleepy k else s3
  | none => ((s.raiseInt 0x1A0004 5).eventLimited .operations .interval title.toNat cRfmJoinUnknown.source cRfmJoinUnknown.code
      cRfmJoinUnknown.set title.toNat).bump cRfmJoinUnknown

/-- Deliver the best copy of a radio reception (R288): `false` where ING lacks credits, and then nothing is delivered. -/
def State.meshDeliver (s : State) (h : MeshHeard) (hops : Nat) : State × Bool :=
  let f := h.frame
  if f.typ = 0 ∧ f.body ≠ [] then
    let pre := s.preCheck (f.tag.getD 0xFFFF).toNat (s.gmnOfSlot f.src)
    if pre.2 = false then ((pre.1.meshToll f).meshHeardFrom h hops, true)
    else
      let g := meshIngest h
      if s.frameFits g = false then (s.ingestFrame g, false)
      else ((((pre.1.ingestFrame g).meshToll f).meshHeardFrom h hops).bump cRfmDelivered, true)
  else if f.typ = 0 then (((s.meshToll f).meshHeardFrom h hops).bump (cRfKeepalive h.copy.radio.val), true)
  else if f.typ = 6 then (((s.meshToll f).bump cRfmJoinRx).meshJoin h hops, true)
  else (s.meshToll f, true)

/-- The best of a radio reception's copies: the highest SNR, the first of equals. -/
def bestMesh (l : List MeshHeard) : Option MeshHeard :=
  l.foldl (fun b x => match b with
    | none => some x
    | some y => if y.snr < x.snr then some x else b) none

/-- Finish a radio reception (R288, R290): the other copies are counted, Tollbook is looked up, and the best is delivered and
acknowledged. -/
def State.finishMesh (s : State) (r : MeshReception) : State :=
  match bestMesh r.copies with
  | none => s
  | some h =>
    let f := h.frame
    let last := r.closes - ticksOfUs (s.item iRfCombineWindow)
    let hops := r.copies.foldl (fun a x => min a (meshHops x.frame)) (meshHops f)
    let s1 := (r.copies.erase h).foldl (fun st x => st.bump (cRfCrossCopy x.copy.radio.val)) s
    if tolled s.rfm.tollbook f.netId f.src f.seq f.epoch s.now = true then
      let s2 := if f.src < 16384 ∧ (s1.ctxAt f.src).state ≠ .empty then s1.setDist f.src hops true else s1
      ((s2.bump (if f.macDst = 0xFFFF then cRfmFloodCopy else cRfmLinkDup)).enhAckDue h last).meshAckFor h
    else
      let d := s1.meshDeliver h hops
      if d.2 = true then (d.1.enhAckDue h last).meshAckFor h else d.1

/-! ## Frames as bytes (R274, R280) -/

/-- A flood's TTL. -/
def MeshWay.floodTtl : MeshWay → Option Nat
  | .flood k => some k
  | _ => none

/-- The body of a mesh frame (Table 9.4); a MESH_ACK's PENDING is computed now (R287).  With ENABLE 0 the other fields of a SLOT_SET but
LPL_INTERVAL are zero (DESIGN CHOICE, notes/assumptions/157.md). -/
def State.meshBody (s : State) (w : LinkWork) (dst : Nat) (a : Apdu) : List Byte :=
  match w with
  | .assign k title relay => assignBody k (s.item iRfNetId) relay title
  | .meshAck q e => meshAckBody q e (s.rfPending dst)
  | .slotSet k on n => slotSetBody k on n (if on = true then s.item iSlots * s.item iSlotLen * 32768 / 1000 else 0) (s.item iLplInterval)
  | _ => a

/-- The PSDU of a frame of the node: MAC header, mesh header, body, FCS; a flood goes to 0xFFFF without AR. -/
def State.meshBytes (s : State) (x : MeshTx) (w : LinkWork) (pending : Bool) : List Byte :=
  let flood := x.way.floodTtl
  withCrc32 (macHeader 1 pending flood.isNone x.dsn (s.item iPanId) (if flood.isSome = true then 0xFFFF else x.dst) 0xFFFD ++
    meshHeader w.typ (s.tagOf w) (flood.getD 1) s.plc.epoch (s.item iRfNetId) x.dst x.seq ++ s.meshBody w x.dst x.apdu)

/-- AFE clocks of a frame's preamble: of a slot exchange from Ŵ − g to Ŵ + g (R293), of a long preamble LPL_INTERVAL + 4 ms (R296). -/
def State.preambleTicks (s : State) (x : MeshTx) : Nat :=
  match x.way with
  | .slotted => ticksOfUs (2 * s.guardNs (s.radioLink (x.slot.getD 0)).gstep / 1000)
  | .longPreamble => (s.item iLplInterval + 4) * ticksPerMs
  | _ => Config.rfPreamble (s.rfMode x.radio) (s.item iPreambleOctets)

/-- The airtime of a frame, its preamble included. -/
def State.meshAirtime (s : State) (x : MeshTx) : Nat :=
  s.preambleTicks x + Config.rfTail (s.rfMode x.radio) (s.meshBytes x x.work false).length

/-- A PSDU as it leaves a radio. -/
def State.meshSent (s : State) (n chan first preamble : Nat) (bytes : List Byte) : Emission :=
  .meshFrame ⟨n, chan, s.channelKhz n chan, s.rfMode n, s.itemInt iTxPower, decide (s.item iWhitening = 1), first, preamble, bytes⟩

end Sys2Proof.Machine
end

