-- ==== Sys2Proof/Machine/CycleOps.lean ====
section
/-!
DEFINITION. The mains cycle clock's operations: phases, numbering, the events of a cycle in the order of Table 3.2, boundaries and
conversions (R64 to R80, R549).
-/

namespace Sys2Proof.Machine

/-! ## Phases (R64 to R67) -/

/-- Change the cycle clock. -/
def State.modCyc (s : State) (f : Cyc → Cyc) : State := { s with cyc := f s.cyc }

/-- A nominal period in AFE clocks (R67). -/
def Cyc.period (c : Cyc) : Nat := if c.nominal60 = true then 409600 else 491520

/-- Change a phase. -/
def State.modPhase (s : State) (p : Nat) (f : Phase → Phase) : State :=
  s.modCyc fun c => { c with phases := c.phases.set p (f (c.phase p)) }

/-- Mains is present while a phase is (R66). -/
def Cyc.mains (c : Cyc) : Bool := c.phases.any fun p => p.present

/-- A period in AFE clocks of a frequency in mHz, rounded to the nearest clock (R65). -/
def periodOf (mhz : Nat) : Nat := (2 * 24576000000 + mhz) / (2 * max 1 mhz)

/-- The period lies in the window of R65, both bounds included. -/
def State.inWindow (s : State) (d : Nat) : Bool :=
  let f := 1000 * s.nominalHz
  let w := s.item iFreqWindow
  decide (periodOf (f + w) ≤ d ∧ d ≤ periodOf (f - w))

/-- The nominal frequency that a run of 16 periods decides (R67): 45 Hz to below 55 Hz, and 55 Hz to 65 Hz. -/
def nominalOf (ps : List Nat) : Option Bool :=
  let total := ps.foldl (· + ·) 0
  let f := 16 * ticksPerSec
  if 45 * total ≤ f ∧ f < 55 * total then some false else if 55 * total ≤ f ∧ f ≤ 65 * total then some true else none

/-- A period counts for R67: its frequency lies between 40 Hz and 70 Hz. -/
def runPeriod (d : Nat) : Bool := decide (40 * d ≤ ticksPerSec ∧ ticksPerSec ≤ 70 * d)

/-- The nominal frequency is decided (R67): AON keeps it. -/
def Cyc.decide60 (c : Cyc) (sixty : Bool) : Cyc := { c with nominal60 := sixty, nominalDecided := true }

/-- A measured period enters the run of its phase (R67). -/
def State.detectNominal (s : State) (p d : Nat) : State :=
  if s.cyc.nominalDecided = true then s
  else if runPeriod d = false then s.modPhase p fun x => { x with runPeriods := [] }
  else
    let run := (s.cyc.phase p).runPeriods ++ [d]
    if run.length < 16 then s.modPhase p fun x => { x with runPeriods := run }
    else
      let s1 := s.modPhase p fun x => { x with runPeriods := [] }
      match nominalOf run with
      | some sixty => s1.modCyc fun c => c.decide60 sixty
      | none => s1

/-! ## Boundaries (R76, R88, R549) -/

/-- The index of the latest boundary at or before a time, in seconds since 2020. -/
def State.boundaryIndex (s : State) (t : Nat) : Int := ((t : Int) - s.tim.utcOffset - s.itemInt iIntervalAlign) / s.intervalSec

/-- The latest boundary at or before a time. -/
def State.boundaryAt (s : State) (t : Nat) : Nat := (s.boundaryOf (s.boundaryIndex t)).toNat

/-- The first boundary later than a time. -/
def State.boundaryAfter (s : State) (t : Nat) : Nat := (s.boundaryOf (s.boundaryIndex t + 1)).toNat

/-- REGRESSED holds while wall time lies behind the last realised boundary (R88). -/
def State.noteRegressed (s : State) : State :=
  let behind := match s.cyc.lastBoundary with
    | some b => decide (s.wallSec < b + epoch2020)
    | none => false
  { s with tim := { s.tim with regressed := behind } }

/-! ## Posting (R78, R325) -/

/-- Post an event of CYC that names a cycle, and for a boundary the boundary and the count passed over, with SHORT and SYNTH (R76, R77).
It becomes a task, whose ARG is the cycle number's low word (DESIGN CHOICE, notes/assumptions/30.md). -/
def State.postEvent (s : State) (kind exec cycle : Nat) (boundary : Option Nat) (passed : Nat) (short synth : Bool) : State :=
  (s.emit (.cycleEvent kind cycle boundary passed short synth)).postHeld (s.taskFor kind exec (cycle % 2 ^ 32))

/-- Post an event of the cycle just numbered. -/
def State.postCycle (s : State) (kind exec cycle : Nat) : State := s.postEvent kind exec cycle none 0 false s.cyc.synth

/-- Schedules whose PERIOD divides the index (R317): their run is a trigger of entry 128 + k, OFFSET seconds later. -/
def State.startSchedules (s : State) (index stamp : Nat) : State :=
  (List.range 32).foldl (fun st k =>
    let period := st.itemField (iSchedule k) 4 2
    if period = 0 ∨ index % period ≠ 0 then st
    else
      let start := st.cyc.num + st.itemField (iSchedule k) 6 2 * st.nominalHz
      let r := st.taskRank 21
      let e : Trigger := ⟨1, false, start, 0, 21, r.1, r.2, 0, 0, k⟩
      { st with txn := { st.txn with schedules := Table.set (0, 0) st.txn.schedules k (start, stamp) },
                cch := { st.cch with triggers := Table.set Trigger.free st.cch.triggers (128 + k) e } }) s

/-- A digest barrier in each lane (R375); a cut of this range that is not complete is abandoned (R376). -/
def State.postBarriers (s : State) (k : Nat) : State :=
  if s.mirroring = false then s
  else
    let own := s.hwl.nodeId.toNat
    let s1 := if (s.hwl.cuts.any fun c => decide (c.range = own)) = true then s.note cHwlDigestLate .operations .second 0 k else s
    let s2 : State := { s1 with hwl := { s1.hwl with cuts := (s1.hwl.cuts.filter fun c => decide (c.range ≠ own)) ++ [Cut.mk k own 0 false [] [] [] []] } }
    (List.finRange 4).foldl (fun st (l : Fin 4) => st.queueOp l (.barrier k own)) s2

/-- The context checkpoint falls due (R117): a copy of the table goes to Fuller, and its task is posted. -/
def State.contextCheckpoint (s : State) (n : Nat) : State :=
  if s.cyc.checkpointCount + n < s.item iCheckpointIntervals then s.modCyc fun c => { c with checkpointCount := c.checkpointCount + n }
  else
    let s1 := s.modCyc fun c => { c with checkpointCount := 0 }
    let k : CtxCheckpoint := ⟨s.ful.ctxSeq, s.ful.readPos, s.cyc.num, s.ctx⟩
    ({ s1 with ful := { s1.ful with ckptCtx := some k, ctxSeq := s.ful.ctxSeq + 1 } }).postHeld (s1.taskFor 22 0 0)

/-- The legal checkpoint falls due (R193). -/
def State.legalCheckpoint (s : State) (n : Nat) : State :=
  if s.cyc.legalCheckpointCount + n < s.item iLegalCheckpointIntervals then
    s.modCyc fun c => { c with legalCheckpointCount := c.legalCheckpointCount + n }
  else
    let s1 := s.modCyc fun c => { c with legalCheckpointCount := 0 }
    let k : LegalCheckpoint :=
      ⟨s.ful.legalSeq, s.ful.readPos, s.cyc.num, s.bil.slots, s.bil.feeder, s.bil.tariffs, s.ful.freezes⟩
    ({ s1 with ful := { s1.ful with ckptLegal := some k, legalSeq := s.ful.legalSeq + 1 } }).postHeld (s1.taskFor 22 0 1)

/-- The stamp in ns of the latest numbered cycle. -/
def Cyc.stampNs (c : Cyc) : Nat :=
  match c.stamps with
  | x :: _ => x.sec * 1000000000 + x.ns
  | [] => 0

/-- The interval boundary event of a cycle (R76, Table 3.2 order 1): `b` is the boundary named, `passed` the boundaries passed over. -/
def State.boundaryEvent (s : State) (stamp b passed : Nat) (synth : Bool) : State :=
  let k := (s.boundaryIndex b).toNat
  let s1 := s.modCyc fun c =>
    { c with lastBoundary := some b, boundaries := (BoundaryStamp.mk k b c.num synth c.stampNs :: c.boundaries).take 1024,
             realBoundary := if synth = true then c.realBoundary else true }
  let s2 := s1.clearIntervalLimits
  let s3 : State := { s2 with hwl := { s2.hwl with syncAsked := [] } }
  let s4 := s3.postEvent 3 0 s.cyc.num (some b) passed false synth
  let s5 := if synth = true then s4.closeSynthetic s.cyc.num stamp else s4.closeFeeder s.cyc.num stamp false
  ((((s5.postBarriers k).contextCheckpoint (passed + 1)).legalCheckpoint (passed + 1)).startSchedules k stamp)

/-- Compare the stamp with the earliest pending boundary (R76, R88).  With no boundary known, the latest at or before the stamp
counts as realised without an event (R549). -/
def State.realiseBoundary (s : State) (stamp : Nat) (synth : Bool) : State :=
  match s.cyc.lastBoundary with
  | none => s.modCyc fun c => { c with lastBoundary := some (s.boundaryAt stamp) }
  | some last =>
    let next := s.boundaryAfter last
    if stamp < next then s
    else
      let b := s.boundaryAt stamp
      s.boundaryEvent stamp b ((b - next) / s.intervalSec) synth

/-! ## Period ends and switch points (R76, R182, R197) -/

/-- A tariff slot's next period end or switch point after one stamp is reached by another. -/
def reachedBy (next : Option Int) (stamp : Nat) : Bool :=
  match next with
  | some p => decide (p ≤ stamp)
  | none => false

/-- The next switch point or ACTIVATE after an instant. -/
def switchAfter (utc : Nat) (sets : List TariffSet) (t : Int) : Option Int :=
  match inForce sets t with
  | none => ((sets.filter fun a => decide (t < (a.activate : Int))).map fun a => (a.activate : Int)).min?
  | some x =>
    let sw := instantOf utc x.localOffset (nextSwitch x (localSecs utc x.localOffset t))
    some ((sets.filter fun a => decide (t < (a.activate : Int))).foldl (fun c a => min c a.activate) sw)

/-- The feeder's switch (R197): from the cycle after its switch cycle; on a synthetic cycle it is held pending. -/
def State.feederSwitch (s : State) (stamp : Nat) (synth : Bool) : State :=
  if synth = true then { s with met := { s.met with pendingSwitch := true } } else (s.handFeeder).setFeederRate stamp

/-- Orders 2 and 3 of Table 3.2: period ends, then switch points, of the tariff slots, after the latest stamp realised so far and up to this
one: none is realised twice after a backward step (R76, R88). -/
def State.tariffEvents (s : State) (before stamp : Nat) (synth : Bool) : State :=
  let slots := (List.range 16).filter fun k => decide (s.tariffSlot k ≠ [])
  let ends := slots.filter fun k => reachedBy (periodEndAfter s.tim.utcOffset (s.tariffSlot k) before) stamp
  let switches := slots.filter fun k => reachedBy (switchAfter s.tim.utcOffset (s.tariffSlot k) before) stamp
  let s1 := if ends = [] then s else s.postCycle 4 0 s.cyc.num
  let s2 := if switches = [] then s1 else s1.postCycle 5 0 s.cyc.num
  if s.item iFeederTariffSlot ∈ switches then s2.feederSwitch stamp synth else s2

/-! ## Snapshot latches (R216, R217, R219) -/

/-- Order 4: the snapshots whose target this cycle is: on a real cycle MET latches the feeder, on a synthetic one they are
abandoned. -/
def State.latchSnapshots (s : State) (stamp : Nat) (synth : Bool) : State :=
  let due := s.bal.snapshots.filter fun x => decide (x.target = s.cyc.num)
  if due = [] then s
  else if synth = true then due.foldl (fun st x => st.abandonSnapshot x stamp) s
  else
    let mark (x : Snapshot) : Snapshot := if x.target = s.cyc.num then { x with stamp := some stamp } else x
    let s1 : State := { s with bal := { s.bal with snapshots := s.bal.snapshots.map mark } }
    (s1.postCycle 2 0 s.cyc.num).latchFeeder s.cyc.num stamp

/-- Snapshots whose target has not come are abandoned when mains is lost (R219). -/
def State.abandonPending (s : State) (stamp : Nat) : State :=
  (s.bal.snapshots.filter fun x => decide (s.cyc.num < x.target)).foldl (fun st x => st.abandonSnapshot x stamp) s

/-! ## Beacons (R97, R266, R300) -/

/-- The offset of a launch in clocks of a period of `p`, from units of 1/65 536 of it. -/
def launchOffset (units p : Nat) : Nat := units * p / 65536

/-- Queue the next periodic PLC beacon, one period after the last (R266); one due with a command beacon goes with it. -/
def State.nextPlcBeacon (s : State) : State :=
  let p := s.item iBeaconPeriod
  if p = 0 ∨ s.plcOn = false ∨ s.cyc.num < s.plc.nextBeacon then s
  else
    let c := if s.cyc.num < s.plc.nextBeacon + p then s.plc.nextBeacon + p else s.cyc.num + p
    let s1 : State := { s with plc := { s.plc with nextBeacon := c } }
    if (s.plc.beacons.any fun b => decide (b.cycle = c)) = true then s1
    else s1.queuePlcBeacon ⟨c, launchOffset (s.item iBeaconOffset) s.periodTicks, none, none⟩

/-- Queue the next periodic radio beacon on CHAN_A of each radio (R300). -/
def State.nextRfBeacon (s : State) : State :=
  let p := s.item iRfBeaconPeriod
  if p = 0 ∨ (s.radioOn 0 = false ∧ s.radioOn 1 = false) ∨ s.cyc.num < s.rfm.nextBeacon then s
  else
    let c := if s.cyc.num < s.rfm.nextBeacon + p then s.rfm.nextBeacon + p else s.cyc.num + p
    let s1 : State := { s with rfm := { s.rfm with nextBeacon := c } }
    [0, 1].foldl (fun st n =>
      if ((s.radioAt n).beacons.any fun b => decide (b.1.cycle = c ∧ b.2 = 0)) = true then st
      else st.queueRfBeacon n 0 ⟨c, launchOffset (s.item iRfBeaconOffset) s.radioPeriod, none, none⟩) s1

/-- The beacons whose cycle has now been numbered take their instant from its crossing or due time (R97); one whose cycle was passed over
is discarded and counted late. -/
def State.timeBeacons (s : State) : State :=
  let n := s.cyc.num
  let stale (b : BeaconDue) : Bool := decide (b.cycle < n ∧ b.at_ = none)
  let plc (b : BeaconDue) : BeaconDue := if b.cycle = n ∧ b.at_ = none then { b with at_ := some (s.cyc.lastAt + b.offset) } else b
  let rf (b : BeaconDue × Nat) : BeaconDue × Nat :=
    if b.1.cycle = n ∧ b.1.at_ = none then ({ b.1 with at_ := some (s.cyc.lastAt + afeOfRadio b.1.offset) }, b.2) else b
  let latePlc := (s.plc.beacons.filter stale).length
  let s1 := s.modPlc fun p => { p with beacons := (p.beacons.filter fun b => !stale b).map plc }
  let s2 := if latePlc = 0 then s1 else (s1.raiseInt 0x190004 2).bumpBy cPlcBeaconsLate latePlc
  [0, 1].foldl (fun (st : State) r =>
    let q := st.radioAt r
    let late := (q.beacons.filter fun b => stale b.1).length
    let st1 := st.setRadio r { q with beacons := (q.beacons.filter fun b => !stale b.1).map rf }
    if late = 0 then st1 else (st1.raiseInt 0x1A0004 4).bumpBy (cRfBeaconsLate r) late) s2

/-- Order 5: the launch tasks of the beacons of this cycle, and the next periodic beacons. -/
def State.launchBeacons (s0 : State) : State :=
  let s := s0.timeBeacons
  let s1 := [0, 1].foldl (fun st n =>
    if ((s.radioAt n).beacons.any fun b => decide (b.1.cycle = s.cyc.num)) = true then st.postCycle 6 (2 + n) s.cyc.num else st) s
  let s2 := if (s.plc.beacons.any fun b => decide (b.cycle = s.cyc.num)) = true then s1.postCycle 7 1 s.cyc.num else s1
  (s2.nextPlcBeacon).nextRfBeacon

/-! ## Numbering (R68 to R74) -/

/-- The reservation is renewed once the number comes within 2²⁰ of it (R74); the last boundary goes with it (R549). -/
def State.reserveCycles (s : State) : State :=
  let far := match s.nor.cycleReservation with
    | some r => decide (s.cyc.num + 2 ^ 20 < r.1)
    | none => false
  if far = true then s
  else { s with nor := { s.nor with cycleReservation := some (s.cyc.num + 2 ^ 21, s.wall), lastBoundary := s.cyc.lastBoundary } }

/-- BAL_SETTLE after a boundary the results' event is posted with the cycle triggers (R210, order 6). -/
def State.settleEvent (s : State) (before stamp : Nat) : State :=
  let d := s.item iBalSettle
  if stamp < d ∨ (s.boundaryIndex (stamp - d) ≤ s.boundaryIndex (before - d)) then s
  else (s.bump cCchTriggersFired).postHeld ⟨8, 2, 0, 0, 0, s.cyc.num % 2 ^ 31 + (if s.cyc.synth = true then 2 ^ 31 else 0), s.us⟩

/-- The events of the cycle just numbered, in the order of Table 3.2; `before` is the latest stamp realised before it. -/
def State.cycleEvents (s : State) (before stamp : Nat) (synth : Bool) : State :=
  let s1 := s.repostHeld
  let s2 := if synth = false ∧ s1.met.pendingSwitch = true then s1.setFeederRate stamp else s1
  let s3 := (((s2.realiseBoundary stamp synth).tariffEvents before stamp synth).latchSnapshots stamp synth).launchBeacons
  ((s3.fireCycleTriggers synth).settleEvent before stamp).releaseRequests

/-- Give the next number to a cycle at an AFE time (R68 to R75); at 2⁴⁸ − 1 the number stops (R72). -/
def State.numberCycle (s : State) (at_ : Nat) (synth : Bool) : State :=
  if 2 ^ 48 - 1 ≤ s.cyc.num then s.modCyc fun c => { c with saturated := true }
  else
    let w := s.tim.wallAt at_
    let n := s.cyc.num + 1
    let c : CycleStamp := ⟨n, wallSecOf w, wallNsOf w, at_, synth, s.tim.regressed⟩
    let stamp := wallSecOf w - epoch2020
    let before := s.cyc.realisedTo.getD (s.cyc.lastBoundary.getD stamp)
    let s1 := s.modCyc fun y =>
      { y with num := n, synth := synth, realisedTo := some (max before stamp), lastAt := at_, stamps := (c :: y.stamps).take 4096, shadow := n, shadowAcc := 0, shadowValid := true,
               saturated := decide (n = 2 ^ 48 - 1), lastReal := if synth = true then y.lastReal else some c,
               realBoundary := if synth = true then y.realBoundary else false }
    ((s1.noteRegressed).reserveCycles).cycleEvents before stamp synth

/-! ## The source (R68, R69, R77) -/

/-- Number the synthetic cycles that are due; `n` bounds the count (R69). -/
def State.numberDue (s : State) : Nat → State
  | 0 => s
  | n + 1 => if s.now < s.cyc.lastAt + s.cyc.period then s else (s.numberCycle (s.cyc.lastAt + s.cyc.period) true).numberDue n

/-- Mains becomes absent (R77): the mains-loss event, the interval closed short unless the last real cycle was its boundary
cycle, and the synthetic cycles that are due by now.  Without a real cycle the event names the latest numbered one and carries SYNTH. -/
def State.mainsLost (s : State) : State :=
  let s1 := match s.cyc.lastReal with
    | some r =>
      let a := s.postEvent 1 0 r.cycle none 0 (!s.cyc.realBoundary) false
      if s.cyc.realBoundary = true then a.handFeeder else a.closeFeeder r.cycle (r.sec - epoch2020) true
    | none => s.postEvent 1 0 s.cyc.num none 0 false true
  let s2 := (s1.abandonPending s.cycleTime).modCyc fun c => { c with lastReal := none }
  s2.numberDue ((s.now - s.cyc.lastAt) / s.cyc.period)

/-- The source that R68 names: the present phase of lowest index, or synthetic. -/
def Cyc.wanted (c : Cyc) : Nat := ((List.range 3).find? fun p => (c.phase p).present).getD 3

/-- A phase's presence has changed (R68): a new source waits for its next crossing; without any phase the source is synthetic. -/
def State.chooseSource (s : State) : State :=
  let w := s.cyc.wanted
  if w = 3 then
    if s.cyc.source = 3 ∧ s.cyc.pendingSource = none then s
    else (s.modCyc fun c => { c with source := 3, pendingSource := none, passedOver := false }).mainsLost
  else s.modCyc fun c => { c with pendingSource := if w = c.source then none else some w }

/-- A valid crossing on the source takes the next number, or is passed over (R68).  `first`: the crossing on which a change of
source takes effect. -/
def State.maybeNumber (s : State) (z : Nat) (first : Bool) : State :=
  let gap := z - s.cyc.lastAt
  let ok := if first = true then decide (s.cyc.period ≤ gap) else s.cyc.passedOver || decide (s.cyc.period < 2 * gap)
  if ok = true then (s.modCyc fun c => { c with passedOver := false }).numberCycle z false
  else if first = true then s.modCyc fun c => { c with passedOver := true } else s

/-- The angle of a phase after L1 in 1/65 536 of a turn, measured at an L1 crossing (R71). -/
def Cyc.angleOf (c : Cyc) (now p : Nat) : Option Nat :=
  match (c.phase p).lastValid, (c.phase 0).periods with
  | some z, d :: _ => if (c.phase p).present = true ∧ 0 < d then some ((d - (now - z) % d) % d * 65536 / d) else none
  | _, _ => none

/-- CYC_ANGLE and ROTATION at an L1 cycle at a time (R71). -/
def State.measureAngles (s : State) (z : Nat) : State :=
  if (s.cyc.phase 0).present = false then s
  else
    let c := s.cyc
    let a2 := (c.angleOf z 1).getD c.angle2
    let a3 := (c.angleOf z 2).getD c.angle3
    let both := (c.phase 1).present && (c.phase 2).present
    s.modCyc fun y => { y with angle2 := a2, angle3 := a3, rotation := if both = true then decide (a3 < a2) else y.rotation }

/-- A valid crossing at a time (R65, R66, R71).  The phase cycle number follows every valid crossing, also before the phase is present
(DESIGN CHOICE, notes/assumptions/130.md). -/
def State.validCrossing (s : State) (p d z : Nat) (first : Bool) : State :=
  let s1 := s.modPhase p fun x => { x with lastValid := some z, validRun := x.validRun + 1, periods := (d :: x.periods).take 16 }
  let s2 := if s1.cyc.source = p then s1.maybeNumber z first else s1
  let s3 := s2.modPhase p fun x => { x with cycle := s2.cyc.num }
  let s4 := if p = 0 then s3.measureAngles z else s3
  if (s4.cyc.phase p).present = false ∧ s.item iRestoreCount ≤ (s4.cyc.phase p).validRun then
    (s4.modPhase p fun x => { x with present := true }).chooseSource
  else s4

/-- A crossing that is not valid is counted and not numbered, but starts the next measurement (R65). -/
def State.invalidCrossing (s : State) (p : Nat) (first : Bool) : State :=
  (s.modPhase p fun x => { x with validRun := 0 }).modCyc fun c =>
    { c with outOfWindow := satAdd 16 c.outOfWindow 1, passedOver := c.passedOver || first }

/-- The passage runs from below −h to above +h (R64): h is ZC_HYSTERESIS permille of the nominal peak MET_U_NOM × √2, so that in units of
0.1 mV its square is twice that of the two items' product. -/
def State.swings (s : State) (w : ZcWave) : Bool :=
  let h2 : Int := 2 * ((s.item iZcHysteresis * s.item iMetUNom : Nat) : Int) ^ 2
  decide (w.low < 0 ∧ h2 < w.low ^ 2 ∧ 0 < w.high ∧ h2 < w.high ^ 2 ∧ w.u0 ≤ 0 ∧ 0 < w.u1)

/-- The instant of zero by linear interpolation between the straddling samples, to the nearest AFE clock (R64; the rounding is a DESIGN
CHOICE, notes/assumptions/135.md). -/
def zcInstant (w : ZcWave) : Nat :=
  w.at0 + (2 * (w.at1 - w.at0) * w.u0.natAbs + (w.u1 - w.u0).natAbs) / (2 * max 1 (w.u1 - w.u0).natAbs)

/-- A crossing on a phase at a time (R64 to R68). -/
def State.crossing (s : State) (p z : Nat) : State :=
  let last := (s.cyc.phase p).lastAccepted
  let noise := match last with
    | some a => decide (2 * (z - a) < s.cyc.period)
    | none => false
  if noise = true then s.modCyc fun c => { c with noise := satAdd 16 c.noise 1 }
  else
    let first := decide (s.cyc.pendingSource = some p)
    let s1 := s.modPhase p fun x => { x with lastAccepted := some z }
    let s2 := if first = true then s1.modCyc fun c => { c with source := p, pendingSource := none, passedOver := false } else s1
    match last with
    | none => s2.invalidCrossing p first
    | some a =>
      let d := z - a
      let s3 := s2.detectNominal p d
      if s3.inWindow d = true then s3.validCrossing p d z first else s3.invalidCrossing p first

/-! ## The start (R73, R74, R549) -/

/-- Step 15: the number resumes at the shadow + 1, or at the stored reservation when AON has lost the shadow, synthetic until mains
is present.  With neither a shadow nor a reservation the numbering starts from 0 with RESEEDED and the event (DESIGN CHOICE,
notes/assumptions/131.md). -/
def State.startCycles (s : State) : State :=
  let c := s.cyc
  let lost := !c.shadowValid
  let first := if lost = true then (s.nor.cycleReservation.map Prod.fst).getD 0 else c.shadow + 1
  let fixed := s.item iMainsNominal
  let last := if lost = true then s.nor.lastBoundary else c.lastBoundary
  let sixty := if fixed = 0 then c.nominal60 else decide (fixed = 60)
  let c1 : Cyc :=
    ⟨[Phase.fresh, Phase.fresh, Phase.fresh], 3, none, false, first - 1, true, s.now, none, false, sixty, decide (fixed ≠ 0), lost, false, false, 0, 0,
     0, 0, [], [], last, none, true, c.shadow, c.shadowAcc, true, c.rtcTrim, c.trimAcc, 0, 0⟩
  let s1 : State := { s with cyc := c1 }
  let s2 := if lost = true then s1.event .operations 4 0x80 0 first else s1
  s2.numberCycle s.now true

/-! ## Conversion of wall time (R80) -/

/-- How a conversion is flagged. -/
inductive Conversion where
  | exact (cycle : Nat)
  | approximate (cycle : Nat)
  | predicted (cycle : Nat)
  deriving DecidableEq, Repr

/-- Mean period of the last 16 in ns, on the source. -/
def State.meanPeriodNs (s : State) : Nat :=
  let ps := (s.cyc.phase s.cyc.source).periods
  let ticks := if ps = [] then s.cyc.period else ps.foldl (· + ·) 0 / ps.length
  ticks * 15625 / 384

/-- A stamp in ns. -/
def CycleStamp.at_ (c : CycleStamp) : Nat := c.sec * 1000000000 + c.ns

/-- The cycle number of a wall time in ns (R80). -/
def State.cycleAt (s : State) (t : Nat) : Option Conversion :=
  match s.cyc.stamps with
  | [] => none
  | newest :: rest =>
    if newest.at_ < t then
      let p := max 1 s.meanPeriodNs
      some (.predicted (newest.cycle + (t - newest.at_ + p - 1) / p))
    else
      let older := (newest :: rest).filter fun c => decide (t ≤ c.at_)
      let oldest := (newest :: rest).getLast?.getD newest
      if oldest.at_ ≤ t then (older.getLast?).map fun c => .exact c.cycle
      else
        let p := s.cyc.period * 15625 / 384
        let ref := (s.cyc.boundaries.find? fun b => decide (b.stamp ≤ t)).getD (s.cyc.boundaries.getLast?.getD ⟨0, 0, oldest.cycle, false, oldest.at_⟩)
        some (.approximate (if ref.stamp ≤ t then ref.cycle + (t - ref.stamp + p - 1) / p else ref.cycle - (ref.stamp - t) / p))

end Sys2Proof.Machine
end

