-- ==== Sys2Proof/Machine/Cycle.lean ====
section
/-!
DEFINITION. The commands of the mains cycle clock and of AON's timekeeping (spec 03, R64 to R80, R90).
-/

namespace Sys2Proof.Machine

/-- ZERO_CROSSING (R64): a phase voltage has passed above zero, with the cycles that MET has completed since the last command that brought
any; a passage that does not run from below −h to above +h is no crossing.  CYC numbers no cycles before step 15 or while SYS is
off (R73). -/
def execZeroCrossing (phase : Fin 3) (w : ZcWave) (m : List MetCycle) (t : Nat) (s0 : State) : Host.Outcome State Fault Refusal :=
  let s := s0.advance t
  .next (if s.cyc.running = false then s
    else if s.swings w = false then s.metMeasure m
    else (s.metMeasure m).crossing phase.val (min s.now (zcInstant w)))

/-- PHASE_ABSENT (R66): LOSS_PERIODS tenths of a nominal period have passed since the phase's last valid crossing. -/
def execPhaseAbsent (phase : Fin 3) (t : Nat) (s0 : State) : Host.Outcome State Fault Refusal :=
  let s := s0.advance t
  let p := phase.val
  match (s.cyc.phase p).lastValid with
  | none => .next s
  | some v =>
    .next (if s.cyc.running = false ∨ (s.cyc.phase p).present = false ∨ 10 * (s.now - v) < s.item iLossPeriods * s.cyc.period then s
      else ((s.modPhase p fun x => { x with present := false, validRun := 0 }).markAbsent p).chooseSource)

/-- SYNTHETIC_CYCLE (R69): a synthetic cycle falls due while no phase is present. -/
def execSyntheticCycle (t : Nat) (s0 : State) : Host.Outcome State Fault Refusal :=
  let s := s0.advance t
  .next (if s.cyc.running = false ∨ s.cyc.mains = true then s else s.numberDue 1)

/-- Ticks that an RTC tick counts as under RTC_TRIM, 0 to 2, and the remainder (R90). -/
def trimmedTicks (trim acc : Int) : Nat × Int :=
  let a := acc + trim
  if 100000000 ≤ a then (2, a - 100000000) else if a ≤ -100000000 then (0, a + 100000000) else (1, a)

/-- RTC_TICK (R73, R90): while CYC numbers no cycles, AON advances the shadow and wall time. -/
def execRtcTick (t : Nat) (s0 : State) : Host.Outcome State Fault Refusal :=
  let s := s0.advance t
  if s.cyc.running = true then .next s
  else
    let (n, rest) := trimmedTicks s.cyc.rtcTrim s.cyc.trimAcc
    let acc := s.cyc.shadowAcc + n * s.nominalHz
    let s1 := s.modCyc fun c => { c with shadow := min (c.shadow + acc / 32768) (2 ^ 48 - 1), shadowAcc := acc % 32768, trimAcc := rest }
    .next { s1 with tim := { s1.tim with aonWall := s1.tim.aonWall + n * 2000000000 } }

/-- AON_TIME_REFRESH (R90): once per second AON's copy of wall time is taken from TIM while LINK runs. -/
def execAonTimeRefresh (t : Nat) (s0 : State) : Host.Outcome State Fault Refusal :=
  let s := s0.advance t
  .next (if s.tim.running = false ∨ s.now < s.tim.aonAt + ticksPerSec then s
    else { s with tim := { s.tim with aonWall := s.wall, aonAt := s.now, aonValid := s.tim.valid } })

end Sys2Proof.Machine
end

