-- ==== Sys2Proof/Machine/HostOps.lean ====
section
/-!
DEFINITION. The host's command and report queues (R396 to R402), and where a waiting report goes.
-/

namespace Sys2Proof.Machine

/-! ## Command queues -/

/-- A command queue. -/
def State.cq (s : State) (n : Nat) : CmdQueue := s.host.cqs.getD n ⟨0, 0⟩

/-- Replace a command queue. -/
def State.setCq (s : State) (n : Nat) (q : CmdQueue) : State := { s with host := { s.host with cqs := s.host.cqs.set n q } }

/-- Slots of a command queue: CQ_ENTRIES; in RECOVERY queue 0 alone has 1 024, or 64 in reduced recovery (R396). -/
def State.cqEntries (s : State) (n : Nat) : Nat :=
  if s.pwr.mode = .recovery then (if n = 0 then (if s.boot.reduced = true then 64 else 1024) else 0) else s.item iCqEntries

/-- A command queue takes jobs: open (R396), and the link not in reset (R540). -/
def State.cqOpen (s : State) (n : Nat) : Bool := s.host.queuesOpen && !s.pins.perstLow && decide (0 < s.cqEntries n)

/-- A command queue has a job that intake can take. -/
def State.cqHasJob (s : State) (n : Nat) : Bool := s.cqOpen n && decide ((s.cq n).head ≠ (s.cq n).tail)

/-- It is a queue's turn (R398): it has a job, and no queue between it and the one visited last, in round-robin order, has one. -/
def State.cqTurn (s : State) (n : Nat) : Bool :=
  s.cqHasJob n && decide ((([1, 2, 3, 4] : List Nat).map fun k => (s.host.served + k) % 4).find? s.cqHasJob = some n)

/-- Intake has visited a queue. -/
def State.visit (s : State) (n : Nat) : State := { s with host := { s.host with served := n } }

/-- A write of CQ_TAIL_n (R397). -/
def State.writeTail (s : State) (n : Nat) (v : Word) : State :=
  let q := s.cq n
  if s.cqOpen n = false ∨ v = q.tail then s
  else if s.cqEntries n < (v - q.head).toNat then (s.bump cPciCqError).raiseInt 0x1D0004 0
  else s.setCq n { q with tail := v }

/-! ## Report queues -/

/-- Replace a report queue. -/
def State.setRq (s : State) (n : Nat) (q : ReportQueue) : State := { s with host := { s.host with rqs := s.host.rqs.set n q } }

/-- SIZE of a report queue. -/
def ReportQueue.size (q : ReportQueue) : Nat := 2 ^ q.sizeLog2

/-- The lap phase of an index (R401). -/
def ReportQueue.phase (q : ReportQueue) (j : BitVec 32) : Bool := decide (j.toNat / q.size % 2 = 0)

/-- The ring has room for all of a report (R401). -/
def ReportQueue.room (q : ReportQueue) (r : Report) : Bool := decide (1 + r.extra ≤ q.size - (q.tail - q.head).toNat)

/-- The slots of a report at the ring's tail in the order in which they are written: its data slots from the next index on, and the
descriptor last, with the lap phase of its own index (R401). -/
def ReportQueue.slots (q : ReportQueue) (r : Report) : List (Nat × List Byte) :=
  ((List.range r.extra).map fun k => ((q.tail + 1 + BitVec.ofNat 32 k).toNat % q.size, reportSlot r k)) ++
    [(q.tail.toNat % q.size, reportDescriptor (q.phase q.tail) r)]

/-- The ring after a report. -/
def ReportQueue.write (q : ReportQueue) (r : Report) : ReportQueue :=
  { q with ring := (q.slots r).foldl (fun tb e => Table.set [] tb e.1 e.2) q.ring, tail := q.tail + 1 + BitVec.ofNat 32 r.extra }

/-- The host address of a ring. -/
def ReportQueue.base (q : ReportQueue) : Nat := q.baseLo.toNat + 2 ^ 32 * q.baseHi.toNat

/-- COAL_COUNT and COAL_US. -/
def State.coalCount (s : State) : Nat := s.itemField iCoal 0 4

/-- COAL_US. -/
def State.coalUs (s : State) : Nat := s.itemField iCoal 4 4

/-- A queue's vector fires, and nothing is pending for it (R400). -/
def State.fireQueue (s : State) (n : Nat) : State :=
  (s.setRq n { s.rq n with coalesce := 0, coalesceSince := none }).fire (1 + n)

/-- Coalescing after a report (R400). -/
def State.coalesce (s : State) (n : Nat) : State :=
  let q := s.rq n
  if s.coalCount = 0 ∨ s.coalUs = 0 ∨ s.coalCount ≤ q.coalesce + 1 then s.fireQueue n
  else s.setRq n { q with coalesce := q.coalesce + 1, coalesceSince := some (q.coalesceSince.getD s.now) }

/-- Write a report into a ring that has room for it: one posted write for each slot, the descriptor last (R401). -/
def State.ringReport (s : State) (n : Nat) (r : Report) : State :=
  let q := s.rq n
  let s1 := (q.slots r).foldl (fun (st : State) e => st.emit (.hostWrite (q.base + 64 * e.1) e.2)) s
  ((s1.setRq n (q.write r)).bump cPciReportsOut).coalesce n

/-- Discard a report whose queue had no space (R402). -/
def State.dropReport (s : State) : State :=
  (s.note cPciReportDrop .operations .second 0 0).raiseInt 0x1D0004 1

/-- The body of a response (R423): CMD, STATUS, REASON, a reserved byte, REQ_ID, then data. -/
def SbResponse.body (p : SbResponse) : List Byte :=
  leBytes 1 p.cmd ++ leBytes 1 p.status ++ leBytes 1 p.reason ++ [0] ++ leBytes 4 p.reqId.toNat ++ p.data

/-- The frame of a response: the header of Table 13.10 with KIND SB_RSP, PEER_ID 0 and FRAGS 1.  What does not fit MAX_FRAME of 1 518 bytes is
left out (DESIGN CHOICE: the spec does not say how a longer report goes, notes/assumptions/176.md). -/
def State.sbFrame (s : State) (p : SbResponse) : EthSent :=
  let body := p.body.take 1476
  ⟨2, 0, p.mac.toNat, s.itemField iSbMac 0 6, none, s.item iSbEthertype,
    messageHeader 1 7 body.length 0 s.plc.epoch 0 0 0 1 0 ++ body⟩

/-- A response goes out. -/
def State.sbEmit (s : State) (p : SbResponse) : State := (s.emit (.sideband p (s.sbFrame p))).bump cSbFramesTx

/-- The side-band returns a report of a job under the request that carried the job; the final one ends the request (R423). -/
def State.sidebandReport (s : State) (mac : BitVec 48) (r : Report) : State :=
  match s.sb.outstanding.find? fun o => decide (o.mac = mac ∧ o.jobId = r.jobId) with
  | none => s
  | some o =>
    let status := match r.body with
      | .jobResult st rs _ _ => (st, rs)
      | _ => (3, 0)
    let p : SbResponse := ⟨mac, o.reqId, 8, status.1, status.2, reportBytes r⟩
    let s1 := s.sbEmit p
    if r.final = false then s1
    else { s1 with sb := { s1.sb with outstanding := s1.sb.outstanding.filter fun x => x ≠ o,
                                      cache := (SbCached.mk p s1.now :: s1.sb.cache).take 16 } }

/-- Send a report over a destination that is not a ring. -/
def State.sendReport (s : State) (d : ReportDest) (r : Report) : State :=
  match d with
  | .rq n => s.ringReport n.val r
  | .eth p i => (s.ethSend p i (.report r)).bump cPciReportsOut
  | .sideband mac => (s.sidebandReport mac r).bump cPciReportsOut
  | .fabric _ node => (s.hwlSend node.toNat 0 (.report r)).bump cPciReportsOut

/-- What becomes of a report that may go to its destination now: written, held back, unrouted or dropped. -/
inductive ReportFate where
  | send | hold | unrouted | drop
  deriving DecidableEq, Repr

/-- The fate of a waiting report: a ring must be set up and have room; with RQ_HOLD_MS zero a report that finds none is dropped. -/
def State.reportFate (s : State) (w : WaitingReport) : ReportFate :=
  match w.dest with
  | .rq n =>
    if (s.rq n).enable = false then .unrouted
    else if (s.rq n).room w.report = true then .send
    else if s.item iRqHoldMs = 0 then .drop
    else .hold
  | _ => .send

/-- Put a list of waiting reports back. -/
def State.setWaiting (s : State) (l : List WaitingReport) : State := { s with host := { s.host with waiting := l } }

/-- Issue the first waiting report that can go; reports to one destination keep their order, and one that finds its ring full counts
RQ_WAITS once. -/
def State.issueFrom (s : State) (front : List WaitingReport) : List WaitingReport → State
  | [] => s.setWaiting front
  | w :: rest =>
    if (front.any fun x => decide (x.dest = w.dest)) = true then s.issueFrom (front ++ [w]) rest
    else match s.reportFate w with
      | .send => (s.setWaiting (front ++ rest)).sendReport w.dest w.report
      | .unrouted => (s.setWaiting (front ++ rest)).bump cPciReportsUnrouted
      | .drop => (s.setWaiting (front ++ rest)).dropReport
      | .hold =>
        let s1 := if w.waited = true then s else s.bump cPciRqWaits
        s1.issueFrom (front ++ [{ w with waited := true }]) rest

/-- Reports that wait for a queue that is no longer set up have no enabled destination (R402). -/
def State.unrouteWaiting (s : State) (n : Fin 4) : State :=
  let gone := s.host.waiting.filter fun w => decide (w.dest = .rq n)
  (s.setWaiting (s.host.waiting.filter fun w => decide (w.dest ≠ .rq n))).bumpBy cPciReportsUnrouted gone.length

/-- A queue that stops (R400). -/
def State.stopQueue (s : State) (n : Fin 4) : State :=
  let q := s.rq n
  (s.setRq n { q with enable := false, head := 0, tail := 0, coalesce := 0, coalesceSince := none, ring := [] }).unrouteWaiting n

/-- A write of RQ_CTRL_n (R400): SIZE_LOG2 is taken while ENABLE is 0, and ENABLE holds only with 10 to 16. -/
def State.writeRqCtrl (s : State) (n : Fin 4) (v : Word) : State :=
  let q := s.rq n
  let size := v.toNat / 2 % 16
  let on := v.getLsbD 0
  if q.enable = true then (if on = true then s else s.stopQueue n)
  else
    let ok := on && decide (10 ≤ size ∧ size ≤ 16)
    s.setRq n { q with sizeLog2 := size, enable := ok, ring := if ok = true then [] else q.ring }

end Sys2Proof.Machine
end

