-- ==== Sys2Proof/Machine/FabricOps.lean ====
section
/-!
DEFINITION. The fabric's operations: port states, routes, membership, reception of a packet, ownership and partner loss
(R355 to R386).
-/

namespace Sys2Proof.Machine

/-- Parts of HWL change. -/
def State.modHwl (s : State) (f : Hwl → Hwl) : State := { s with hwl := f s.hwl }

/-- AFE clocks of a number of ms. -/
def msTicks (ms : Nat) : Nat := ms * ticksPerMs

/-- AFE clocks of a number of AON cycles (50 MHz, R379), rounded up. -/
def aonTicks (n : Nat) : Nat := (n * 24576 + 49999) / 50000

/-! ## Ports (R355, R361) -/

/-- A port that may run: head-end role, enabled, and its dimension wider than one node. -/
def State.portEnabled (s : State) (p : Nat) : Bool :=
  s.boot.headEnd && (BitVec.ofNat 4 (s.item iPortEnable)).getLsbD p &&
    (if p < 2 then decide (s.item iTorusW ≠ 1) else decide (s.item iTorusH ≠ 1))

/-- STATE of HWLP_STATUS. -/
def PortState.code : PortState → Nat
  | .down => 0
  | .training => 1
  | .hello => 2
  | .up => 3
  | .isolated => 4
  | .failed => 5

/-- The neighbour's coordinate in the direction of a port (R355, R362). -/
def State.stepTo (s : State) (x y p : Nat) : Nat × Nat :=
  let w := max 1 (s.item iTorusW)
  let h := max 1 (s.item iTorusH)
  if p = 0 then ((x + 1) % w, y) else if p = 1 then ((x + w - 1) % w, y)
  else if p = 2 then (x, (y + 1) % h) else (x, (y + h - 1) % h)

/-- The opposite port (R355). -/
def oppositePort (p : Nat) : Nat := if p % 2 = 0 then p + 1 else p - 1

/-- The node at a coordinate. -/
def State.nodeAt (s : State) (c : Nat × Nat) : Nat := c.2 * s.item iTorusW + c.1

/-- A node is a member (R364), this one included. -/
def State.isMember (s : State) (d : Nat) : Bool :=
  (s.hwl.assigned && decide (d = s.hwl.nodeId.toNat)) ||
    (match Table.get none s.hwl.members d with
      | some m => m.member
      | none => false)

/-- A port of a node is usable: it is UP and the neighbour behind it is a member (R365). -/
def State.usable (s : State) (d p : Nat) : Bool :=
  let w := max 1 (s.item iTorusW)
  s.isMember (s.nodeAt (s.stepTo (d % w) (d / w) p)) &&
    (if s.hwl.assigned = true ∧ d = s.hwl.nodeId.toNat then decide ((s.hport p).state = .up)
     else match Table.get none s.hwl.members d with
      | some m => m.member && decide (m.ports.getD p 0 = 1)
      | none => false)

/-- The port of a dimension's shorter direction, ties going the + way; `none` where the coordinate is reached. -/
def shorterPort (n here there plus : Nat) : Option Nat :=
  let d := (there + n - here) % n
  if d = 0 then none else if d ≤ n - d then some plus else some (plus + 1)

/-- R365's choice at a node for a destination: the port and whether the packet is diverted. -/
def State.choice (s : State) (d dst : Nat) : Option (Nat × Bool) :=
  let w := max 1 (s.item iTorusW)
  let h := max 1 (s.item iTorusH)
  let px := shorterPort w (d % w) (dst % w) 0
  let py := shorterPort h (d / w) (dst / w) 2
  match (match px with
      | some p => some p
      | none => py) with
  | none => none
  | some p =>
    if s.usable d p = true then some (p, false)
    else if px.isSome = true ∧ py.isSome = true ∧ s.usable d (py.getD 2) = true then some (py.getD 2, true)
    else if s.usable d (oppositePort p) = true then some (oppositePort p, true)
    else none

/-- Links from a node to another by the choices of the nodes on the way, within 16. -/
def State.pathLength (s : State) (dst : Nat) : Nat → Nat → Option Nat
  | 0, _ => none
  | n + 1, d =>
    if d = dst then some 0
    else match s.choice d dst with
      | none => none
      | some (p, _) =>
        let w := max 1 (s.item iTorusW)
        (s.pathLength dst n (s.nodeAt (s.stepTo (d % w) (d / w) p))).map (· + 1)

/-- The route to a node (R365). -/
def State.computeRoute (s : State) (dst : Nat) : Route :=
  if s.hwl.assigned = false ∨ dst = s.hwl.nodeId.toNat ∨ s.item iTorusW * s.item iTorusH ≤ dst then Route.none
  else match s.choice s.hwl.nodeId.toNat dst, s.pathLength dst 17 s.hwl.nodeId.toNat with
    | some (p, div), some n => ⟨p, true, div, min 15 n⟩
    | _, _ => Route.none

/-- Recompute every route; a change is counted. -/
def State.recomputeRoutes (s : State) : State :=
  let routes := (List.range 64).foldl (fun tb d => Table.set Route.none tb d (s.computeRoute d)) []
  if routes = s.hwl.routes then s else (s.modHwl fun h => { h with routes := routes }).bump cHwlRouteChanges

/-- Two bits of a port's state in an ANNOUNCE (Table 12.2). -/
def announceBits : PortState → Nat
  | .up => 1
  | .isolated => 2
  | .failed => 3
  | _ => 0

/-- Flood an ANNOUNCE with the next ANN_SEQ (R364).  PAIR_STATE is 1 while pairing holds (DESIGN CHOICE: the spec does not number it,
notes/assumptions/178.md). -/
def State.announce (s : State) : State :=
  if s.hwl.assigned = false then s
  else
    let n := s.hwl.annSeq + 1
    (s.modHwl fun h => { h with annSeq := n }).hwlFlood n
      (.announce s.serial s.hwl.nodeId (s.hwl.ports.map fun v => announceBits v.state) (if s.hwl.paired = true then 1 else 0))

/-- A port changes state: event, interrupt, routes and an ANNOUNCE (R361, R364). -/
def State.portState (s : State) (p : Nat) (st : PortState) (isolate : Nat) : State :=
  let v := s.hport p
  if v.state = st ∧ v.isolate = isolate then s
  else
    let s1 := (s.setHport p { v with state := st, isolate := isolate }).event .operations 28 0x80 p (st.code + 256 * isolate)
    ((s1.raiseInt 0x1C0004 0).recomputeRoutes).announce

/-- Isolate a port for 60 s (R361, R363). -/
def State.isolatePort (s : State) (p cause : Nat) : State :=
  let s1 := s.portState p .isolated cause
  s1.setHport p { s1.hport p with retrainAt := some (s1.now + 60 * ticksPerSec) }

/-- What a port keeps of its link is gone: the replay buffer, credits, sequences and the neighbour (DEDUCED, notes/assumptions/39.md). -/
def HwlPort.cleared (v : HwlPort) : HwlPort :=
  { HwlPort.down with state := v.state, waiting := v.waiting, trainFails := v.trainFails, isolate := v.isolate }

/-- A training fails: after LINK_RETRAIN_LIMIT of them within 60 s the port is FAILED for 60 s (R361). -/
def State.trainingFailed (s : State) (p : Nat) : State :=
  let v := s.hport p
  let fails := s.now :: v.trainFails.filter fun t => decide (s.now < t + 60 * ticksPerSec)
  if s.item iLinkRetrainLimit ≤ fails.length then
    let s1 := (s.setHport p { v.cleared with trainFails := [] }).portState p .failed 0
    s1.setHport p { s1.hport p with retrainAt := some (s1.now + 60 * ticksPerSec) }
  else (s.setHport p { v.cleared with trainFails := fails }).portState p .training 0

/-- Retrain a port (R359, R361). -/
def State.retrain (s : State) (p : Nat) : State :=
  ((s.setHport p { (s.hport p).cleared with retrainAt := none }).portState p .training 0).bump (cPortRetrains p)

/-! ## Receiving a packet (R356 to R360) -/

/-- Send a link word (R357). -/
def State.word (s : State) (p : Nat) (bytes : List Byte) : State := s.emit (.linkWord p bytes)

/-- The receiver asks for the packet that it expects: once for a gap, and again for a bad LCRC. -/
def State.sendNak (s : State) (p : Nat) : State :=
  let v := s.hport p
  ((s.setHport p { v with nakSent := true }).word p (nakWord v.expectRx)).bump (cPortNakSent p)

/-- An ACK names every packet received in order (R359). -/
def State.sendAckWord (s : State) (p : Nat) : State :=
  let v := s.hport p
  (s.setHport p { v with ackSince := none, unacked := 0 }).word p (ackWord (v.expectRx - 1))

/-- Forward a packet: LSEQ, HOPS and CLASS are rewritten, and the payload goes on as it came (R360, R365). -/
def State.hwlForward (s : State) (l : HwlHeader) : State :=
  let d := l.dst.toNat
  if 16 < l.hops + 1 then s.note cHwlRouteDrop .operations .second 0 d
  else match s.choice s.hwl.nodeId.toNat d with
    | none => s.note cHwlUnreachable .operations .second 0 d
    | some (p, div) =>
      s.hwlQueue p ⟨l.typ, l.vc, s.hopClass p l.cls div (decide (l.port.val < 2 ∧ 2 ≤ p)), false, l.dst, l.src, l.hops + 1, l.tag, l.payload⟩

/-- A packet of a TYPE reaches a port: LCRC and LSEQ, ACK and credits, its form, then forwarding or delivery (R356, R358 to R360). -/
def State.hwlReceive (s : State) (l : HwlHeader) (typ : Nat) (deliver : State → State) : State :=
  let p := l.port.val
  let v := s.hport p
  if v.state ≠ .up then s
  else if l.lcrcOk = false then (s.bump (cPortLcrcFail p)).sendNak p
  else if l.lseq ≠ v.expectRx then (if v.nakSent = true then s else s.sendNak p)
  else
    let units := (16 + l.payload.length + 4 + 63) / 64
    let v1 := { v with expectRx := v.expectRx + 1, ackSince := some (v.ackSince.getD s.now), unacked := v.unacked + 1, nakSent := false }
    let s1 := ((s.setHport p v1).bump (cPortPacketsRx p)).word p (creditWord l.vc l.cls units)
    let s2 := if 16 ≤ v1.unacked then s1.sendAckWord p else s1
    let s3 := if s2.partner = some l.src.toNat then s2.modHwl fun h => { h with partnerHeard := s2.now } else s2
    if packetFits l typ = false then s3.bump (cPortTypeInvalid p)
    else if l.flood = false ∧ l.dst ≠ s.hwl.nodeId then s3.hwlForward l else deliver s3

/-! ## Ownership (R379 to R382) -/

/-- An owner lets go: ACT_OWN_OUT low, OWNER clear, the security event and OWNER_CHANGE (R381). -/
def State.releaseOwner (s : State) : State :=
  let s1 := s.modHwl fun h => { h with outHigh := false, claiming := none }
  if s.hwl.owner = false then s1
  else ((s1.modHwl fun h => { h with owner := false }).event .security 28 0x83 0 (Config.ownerCause false).toNat).raiseInt 0x1C0004 2

/-- The node may not drive ACT_OWN_OUT high now: field role, an interlock fault, a backoff, or a mode that releases ownership. -/
def State.claimBarred (s : State) : Bool :=
  !s.boot.headEnd || s.hwl.interlockFault || s.hwl.backoffUntil.isSome || s.hwl.pairMismatch ||
    decide (s.pwr.mode = .gasp ∨ s.pwr.mode = .standby ∨ s.pwr.mode = .recovery ∨ s.pwr.mode = .boot)

/-- Claim ownership: ACT_OWN_IN sampled low, ACT_OWN_OUT driven high, and the window begins (R379). -/
def State.claim (s : State) : State :=
  if s.claimBarred = true ∨ s.hwl.owner = true ∨ s.hwl.claiming.isSome = true ∨ s.hwl.inHigh = true then s
  else s.modHwl fun h => { h with outHigh := true, claiming := some s.now }

/-- A case of R380 that holds without a job: the even node of a pairing, or a lost partner. -/
def State.claimDue (s : State) : Bool := s.hwl.partnerLost || (s.hwl.paired && decide (s.hwl.nodeId.toNat % 2 = 0))

/-- The interlock fails (R382): ACT_OWN_OUT low, INTERLOCK_FAULT, counted with a security event, and an alarm. -/
def State.interlockFails (s : State) : State :=
  let s1 := (s.releaseOwner).modHwl fun h => { h with interlockFault := true, checkWiring := false }
  ((s1.raiseInt 0x1C0004 3).note cHwlInterlockFault .security .second 0 0).reportOut (.alarm 3 0 0)

/-! ## Partner loss (R384) -/

/-- What a MIRROR range needs when it becomes this node's to act for, or stops being it, is read from `partnerRange`. -/
def State.sendHeld (s : State) (unmirrored : Bool) (l : List MirrorHeld) : State :=
  l.foldl (fun st x => x.dests.foldl (fun t d => t.enqueue d { x.report with unmirrored := unmirrored }) st) s

/-- Work that the lost partner was asked to sequence comes back to this node, which now acts for its range (R373, R384). -/
def State.takeBack (s : State) (a : SeqAsked) : State :=
  match a.work with
  | .legal g op => match s.indexFor g with
    | some i => s.queueOp (laneOf i) (.legal g op (some a.ref) false)
    | none => s
  | .context b => match jobGmn b with
    | some g => match s.indexFor g with
      | some i => s.queueOp (laneOf i) (.job b (some a.ref) false)
      | none => s
    | none => s

/-- Declare the partner lost (R384). -/
def State.partnerIsLost (s : State) : State :=
  if s.hwl.partnerLost = true then s
  else
    let held := s.hwl.heldReports
    let asked := s.hwl.seqAsked
    let s1 := s.modHwl fun h => { h with partnerLost := true, paired := false, pairSent := false, partnerRange := true, ownRange := true,
                                         syncing := false, window := [], heldReports := [], heldIn := [], gapSince := none,
                                         mackSince := none, syncParts := [], mests := [], seqAsked := [], checkWiring := false }
    let s2 := asked.foldl State.takeBack (s1.sendHeld true held)
    let s3 := (s2.raiseInt 0x1C0004 1).note cHwlPartnerLost .operations .second 0 ((s.partner.getD 0))
    ((s3.reportOut (.alarm 4 0 (s.partner.getD 0 : Nat))).flushReadings).claim

/-- Send LEAVE to the partner (R384). -/
def State.sendLeave (s : State) (why : Nat) : State :=
  if s.hwl.paired = true then s.hwlSend (s.partner.getD 0) 0 (.leave (Config.leaveCause why).toNat) else s

/-! ## Pairing (R367, R382) -/

/-- Send PAIR to the partner; `query` and `answer` make it a status exchange. -/
def State.sendPair (s : State) (query answer : Bool) : State :=
  let s1 := if query = true ∨ answer = true then s else s.modHwl fun h => { h with pairSent := true }
  s1.hwlSend (s.partner.getD 0) 0 (.pair (s.partner.getD 0) s.hwl.rejoin s.hwl.mseqOut s.hwl.inHigh query answer)

/-- A range's MSYNC packets, in slot order (R386). -/
def State.syncRange (s : State) (partner : Bool) (reason : Nat) : State :=
  (s.ctx.filter fun e => decide (e.2.state ≠ .empty) && (decide (16384 ≤ e.1) == partner)).foldl
    (fun st e => st.mirrorSync e.1 reason) s

end Sys2Proof.Machine
end

