-- ==== Sys2Proof/Machine/TimeOps.lean ====
section
/-!
DEFINITION. Wall time: the filter, the servo, steps and refusals (R83 to R88, R547, R548), the best master (R92), and the pulse
outputs (R98, R99).
-/

namespace Sys2Proof.Machine

/-- Change TIM. -/
def State.modTim (s : State) (f : Tim → Tim) : State := { s with tim := f s.tim }

/-- The bound of the rate in units of 1/256 ppb: 500 ppm (R82, R93). -/
def rateBound : Int := 128000000

/-- Clamp a rate. -/
def clampRate (r : Int) : Int := max (-rateBound) (min rateBound r)

/-- Apply a rate from now on. -/
def State.setRate (s : State) (r : Int) : State :=
  let w := s.wall
  s.modTim fun t => { t with anchor := s.now, wall := w, rate := clampRate r }

/-! ## Pulses (R98, R99) -/

/-- The wall time in ns of an instant; a PERIOD of zero has the single instant START. -/
def Pulse.instant (p : Pulse) (k : Nat) : Option Nat :=
  if p.start = 0 then none else if p.period = 0 then (if k = 0 then some p.start else none) else some (p.start + k * p.period)

/-- Instants at or before a wall time in ns. -/
def Pulse.instantsBy (p : Pulse) (ns : Nat) : Nat :=
  if p.start = 0 ∨ ns < p.start then 0 else if p.period = 0 then 1 else (ns - p.start) / p.period + 1

/-- A schedule of an output (R98): START in seconds and ns, zero seconds disabling it; instants already past are not emitted. -/
def Pulse.scheduled (old : Pulse) (startSec startNs period width ns : Nat) : Pulse :=
  let p : Pulse := { old with start := if startSec = 0 then 0 else startSec * 1000000000 + startNs, period := period, width := width }
  { p with next := if ns = 0 then 0 else p.instantsBy (ns - 1) }

/-- An output of TIM. -/
def Tim.pulse (t : Tim) (o : Nat) : Pulse := t.pulses.getD o ⟨0, 0, 0, 0, false, none, 0⟩

/-- Change an output. -/
def State.setPulse (s : State) (o : Nat) (p : Pulse) : State := s.modTim fun t => { t with pulses := t.pulses.set o p }

/-- The schedules of the image's items (R98). -/
def State.pulsesFromItems (s : State) : State :=
  [0, 1].foldl (fun st o =>
    let k := iPulse0Start + 3 * o
    st.setPulse o ((st.tim.pulse o).scheduled (st.itemField k 0 8) (st.itemField k 8 4) (st.item (k + 1)) (st.item (k + 2)) st.wallNs)) s

/-- A step of wall time (R99): instants a forward step skips are counted and not emitted; a pulse in progress completes its width in
the new time. -/
def Pulse.stepped (p : Pulse) (before after : Nat) : Pulse :=
  let gone := p.instantsBy after
  let p1 : Pulse := if p.next < gone then { p with next := gone, skipped := p.skipped + (gone - p.next) } else p
  { p1 with fallAt := p.fallAt.map fun f => f - before + after }

/-! ## Steps, refusals and the servo -/

/-- Seconds since 2020 and ns of a wall-time value, as Table 17.4 packs them. -/
def stampBits (w : Nat) : Nat := (wallSecOf w - epoch2020) % 2 ^ 32 + 2 ^ 32 * wallNsOf w

/-- A step by an offset in ns (R84, R87): p is cleared and i kept, REGRESSED, pulses and gate lists follow the new time; an
authorised step writes its two records. -/
def State.stepTime (s : State) (e : Int) (authorised : Bool) : State :=
  let before := s.wall
  let after := ((before : Int) + e * 65536).toNat
  let s1 := s.modTim fun t =>
    { t with anchor := s.now, wall := after, rate := clampRate t.integral, propUntil := none, valid := true, refusedRun := false,
             pulses := t.pulses.map fun p => Pulse.stepped p (before / 65536) (after / 65536) }
  let s2 := s1.noteRegressed.restartGates
  if authorised = true then
    let payload := stampBits before + 2 ^ 64 * stampBits after
    (s2.event .legal 24 0x81 0 payload).event .security 24 0x81 0 payload
  else s2

/-- A refusal (R85): time and rate stay; the first of a run writes the security event. -/
def State.refuseOffset (s : State) (e : Int) : State :=
  let s1 := (s.setReg 0x180000 (s.reg 0x180000 ||| 8)).modTim fun t => { t with refusedRun := true, refusedCount := satAdd 16 t.refusedCount 1 }
  if s.tim.refusedRun = true then s1 else s1.event .security 24 0x80 0 (BitVec.ofInt 64 e).toNat

/-- The term gain × e ÷ T in 1/256 ppb, for a 16.16 gain and T in AFE clocks (R548). -/
def servoTerm (gain : Nat) (e : Int) (ticks : Nat) : Int := gain * e * ticksPerSec / (256 * max 1 ticks)

/-- One run of the servo (R548): the rate i + p holds for T. -/
def State.servo (s : State) (e : Int) (ticks : Nat) : State :=
  let p := servoTerm (s.item iServoKp) e ticks
  let i := if 0 < s.tim.clamped * e then s.tim.integral else s.tim.integral + servoTerm (s.item iServoKi) e ticks
  let total := i + p
  let dir : Int := if rateBound < total then 1 else if total < -rateBound then -1 else 0
  (s.setRate total).modTim fun t =>
    { t with integral := i, clamped := dir, propUntil := some (s.now + ticks), refusedRun := false }

/-- LOCKED (R93): set after 16 consecutive passed samples within LOCK_NS, cleared after 4 outside it. -/
def State.noteLock (s : State) (e : Int) : State :=
  if e.natAbs ≤ s.item iLockNs then
    let s1 := s.modTim fun t => { t with goodRun := t.goodRun + 1, badRun := 0, lockedBit := t.lockedBit || decide (15 ≤ t.goodRun) }
    if s1.tim.lockedBit = true then s1.checkMet 3 else s1
  else s.modTim fun t => { t with goodRun := 0, badRun := t.badRun + 1, lockedBit := t.lockedBit && decide (t.badRun < 3) }

/-- T of R548 in AFE clocks: since the previous passed sample, 1 s for the first, bounded to 0.125 to 3 600 s. -/
def State.sampleTicks (s : State) : Nat :=
  match s.tim.lastSample with
  | none => ticksPerSec
  | some l => max (ticksPerSec / 8) (min (3600 * ticksPerSec) (s.now - l))

/-- JUMP_THRESHOLD in ns. -/
def State.jumpNs (s : State) : Nat := 1000 * s.item iJumpThreshold

/-- The largest step of a permit in ns (R87). -/
def State.permitNs (s : State) (p : StepPermit) : Nat := if p.maxStep = 0 then s.jumpNs else p.maxStep * 1000000000

/-- Act on a passed sample: the open permit (R87), then the start step (R84, R86), then the servo (R548), else refusal (R85). -/
def State.actOnOffset (s : State) (e : Int) (ticks : Nat) : State :=
  let within := decide (e.natAbs ≤ s.jumpNs)
  let permitted := match s.tim.permit with
    | some p => decide (e.natAbs ≤ s.permitNs p)
    | none => false
  if permitted = true then (s.modTim fun t => { t with permit := none }).stepTime e true
  else if s.tim.stepped = false then
    (if within = true ∨ (s.tim.valid = false ∧ 0 < e) then (s.modTim fun t => { t with stepped := true }).stepTime e false
     else s.refuseOffset e)
  else if within = true then s.servo e ticks
  else s.refuseOffset e

/-- A sample that passed the filter (R547), from a source (1 ETH0, 2 ETH1, 3 host) and its master. -/
def State.passSample (s : State) (source : Nat) (master : BitVec 64) (e : Int) : State :=
  let same := decide (s.tim.lastSource = some (source, master))
  let s1 := if same = true then s else s.modTim fun t => { t with integral := 0, clamped := 0, lastSample := none }
  let ticks := s1.sampleTicks
  let s2 := (s1.modTim fun t =>
    { t with lastSource := some (source, master), lastSample := some s.now, offset := e, sourceActive := source, holdover := false }).noteLock e
  s2.actOnOffset e ticks

/-! ## PTP (R91 to R93, R547) -/

/-- The port serves PTP under TIME_SOURCE (R83). -/
def State.ptpPortOn (s : State) (p : Fin 2) : Bool :=
  s.tim.running && decide (s.item iTimeSource = 3 ∨ s.item iTimeSource = p.val + 1) && (s.ethPort p.val).link

/-- A PTP message of the device's domain on an enabled port. -/
def State.ptpHeard (s : State) (h : PtpHdr) : Bool := s.ptpPortOn h.port && decide (h.domain = s.item iPtpDomain)

/-- TIM's state of a port.  Before a Delay_Resp has advertised an interval of delay requests it is 2⁰ s (DESIGN CHOICE,
notes/assumptions/133.md). -/
def Tim.port (t : Tim) (p : Fin 2) : PtpPort := t.ports.getD p.val ⟨[], none, 0, none, none, none, 0⟩

/-- Change it. -/
def State.modPtp (s : State) (p : Fin 2) (f : PtpPort → PtpPort) : State :=
  s.modTim fun t => { t with ports := t.ports.set p.val (f (t.port p)) }

/-- AFE clocks of a PTP interval 2^l s. -/
def intervalTicks (l : Int) : Nat :=
  if 0 ≤ l then ticksPerSec * 2 ^ (min l.toNat 16) else ticksPerSec / 2 ^ (min (-l).toNat 16)

/-- Ingress and egress of Table 3.3 in tenths of a ns, zero in compatibility mode (R94, R95). -/
def State.stampFigures (s : State) (p : Fin 2) : Int × Int :=
  if (BitVec.ofNat 32 (s.item iTsMode)).getLsbD p.val = true then (0, 0)
  else
    match p, (s.ethPort p.val).mode with
    | 0, 1 => (621, 496)
    | 0, 2 => (1184, 976)
    | 0, 3 => (2440, 2032)
    | 1, 1 => (634, 509)
    | 1, 2 => (1197, 989)
    | 1, 3 => (2453, 2045)
    | _, _ => (0, 0)

/-- A port's stamp at the MAC/PCS boundary now, in tenths of a ns of TIM's wall time (R94); `sub` is how far the start-of-frame delimiter
passes after the AFE clock, the model's time base. -/
def State.macStamp (s : State) (sub : Nat) : Int := ((s.wall * 10 / 65536 + sub : Nat) : Int)

/-- ASYMMETRY of a port in tenths of a ns. -/
def State.asymmetry (s : State) (p : Fin 2) : Int := 10 * s.itemInt (iAsymmetryEth0 + p.val)

/-- Order of datasets by IEEE 1588-2019 between different grandmasters, then by steps removed, sender and port (R92). -/
def announceKey (p : Nat) (a : PtpAnnounce) : List Nat :=
  [a.priority1, a.clockClass, a.accuracy, a.variance, a.priority2, a.identity.toNat, a.stepsRemoved, a.sender.toNat, p]

/-- Lexicographic order. -/
def keyLess : List Nat → List Nat → Bool
  | x :: xs, y :: ys => decide (x < y) || (decide (x = y) && keyLess xs ys)
  | _, _ => false

/-- The foreign masters heard on the enabled ports. -/
def State.foreignMasters (s : State) : List (Fin 2 × PtpAnnounce) :=
  (List.finRange 2).flatMap fun p =>
    if s.ptpPortOn p = true then (s.tim.port p).foreign.map fun f => (p, f.announce) else []

/-- The best master (R92). -/
def State.bestMaster (s : State) : Option (Fin 2 × PtpAnnounce) :=
  s.foreignMasters.foldl (fun (best : Option (Fin 2 × PtpAnnounce)) x =>
    match best with
    | none => some x
    | some b => if keyLess (announceKey x.1.val x.2) (announceKey b.1.val b.2) = true then some x else some b) none

/-- Select the best master; the filter starts again after a change, and with none TIM keeps its rate in HOLDOVER (R92, R547). -/
def State.selectMaster (s : State) : State :=
  let m := s.bestMaster.map fun x => (x.1, x.2.sender)
  if m = s.tim.master then s
  else if m.isNone = true then s.modTim fun t => { t with master := none, window := [], holdover := true, sourceActive := 0 }
  else s.modTim fun t => { t with master := m, window := [] }

/-- The median of three. -/
def median3 (a b c : Int) : Int := max (min a b) (min (max a b) c)

/-- A complete sample enters the filter of the selected master (R547). -/
def State.filterSample (s : State) (p : Fin 2) (master : BitVec 64) (e : Int) : State :=
  let w := (e :: s.tim.window).take 3
  let s1 := s.modTim fun t => { t with window := w }
  match w with
  | [a, b, c] => s1.passSample (p.val + 1) master (median3 a b c)
  | _ => s1

/-- A Sync with its t1: a complete sample when the exchange is the same master's and no older than four Sync intervals (R547).
The sample is source minus device, in ns.  Only a Sync with its t1 completes a sample; a Delay_Resp that comes later waits for the next Sync
(DESIGN CHOICE, notes/assumptions/134.md). -/
def State.syncComplete (s : State) (p : Fin 2) (y : PtpSync) (t1 : Int) : State :=
  match (s.tim.port p).exchange with
  | none => s
  | some x =>
    if s.tim.master ≠ some (p, y.master) ∨ x.master ≠ y.master ∨ 4 * intervalTicks y.logInterval < s.now - x.heard then s
    else s.filterSample p y.master (-(((y.t2 - t1) - (x.t4 - x.t3) - 2 * s.asymmetry p) / 20))

/-- What the PTP source announces of UTC (R89): a leap at the end of the day, or a new offset at once. -/
def State.announcedUtc (s : State) (a : PtpAnnounce) : State :=
  if a.utcValid = false then s
  else if a.leap61 = true ∨ a.leap59 = true then
    s.modTim fun t => { t with leap := if a.leap61 = true then 1 else -1, leapDay := (s.wallSec - t.utcOffset) / 86400 }
  else
    let s1 := s.modTim fun t => { t with leap := 0 }
    if a.utcOffset = s.tim.utcOffset then s1
    else (s1.modTim fun t => { t with utcOffset := a.utcOffset }).event .operations 24 0x82 0 (s.tim.utcOffset % 65536 + 65536 * (a.utcOffset % 65536))

/-- TAI seconds of the end of the UTC day that ends with the leap second. -/
def Tim.leapEnd (t : Tim) : Int := (t.leapDay + 1) * 86400 + t.utcOffset + t.leap

/-! ## Entering and leaving a start -/

/-- TIM's state at a start or a reset, apart from AON's copy of time and the UTC offset (Table 3.4, TIM registers). -/
def Tim.cleared (t : Tim) : Tim :=
  { t with running := false, rate := 0, stepped := false, lockedBit := false, refusedRun := false, refusedCount := 0,
           regressed := false, holdover := true, sourceActive := 0, master := none, offset := 0, window := [], integral := 0, clamped := 0,
           propUntil := none, lastSource := none, lastSample := none, goodRun := 0, badRun := 0, permit := none, leap := 0,
           ports := [⟨[], none, 0, none, none, none, 0⟩, ⟨[], none, 0, none, none, none, 0⟩],
           pulses := [⟨0, 0, 0, 0, false, none, 0⟩, ⟨0, 0, 0, 0, false, none, 0⟩] }

/-- TIM starts from AON's wall time, or, when AON has lost it, from the wall time stored with the cycle reservation with
TIME_VALID 0 (R86, R90).  R84's one step is again to be made.  AON's own time is taken also where it is flagged invalid (DESIGN CHOICE,
notes/assumptions/132.md). -/
def State.startTime (s : State) : State :=
  let stored := match s.nor.cycleReservation with
    | some (_, w) => w
    | none => 0
  let w := if s.cyc.shadowValid = true then s.tim.aonWall else stored
  s.modTim fun t => { t.cleared with running := true, anchor := s.now, wall := w, valid := t.aonValid && s.cyc.shadowValid }

/-- TIM stops: AON's copy takes over (R90). -/
def State.stopTime (s : State) : State :=
  if s.tim.running = false then s
  else s.modTim fun t => { t with running := false, aonWall := s.wall, aonAt := s.now, aonValid := t.valid }

end Sys2Proof.Machine
end

