-- ==== Sys2Proof/Machine/WayOps.lean ====
section
/-!
DEFINITION. The recorder's operations: programming records, remapping, clearing and finding positions (R510 to R521).
-/

namespace Sys2Proof.Machine

/-- A header as a format or a rebuild leaves it. -/
def LogHeader.blank : LogHeader := ⟨0, 0, 0, 0, 0, 0, 0, 0, []⟩

/-- Change a log. -/
def State.modLog (s : State) (g : LogId) (f : Log → Log) : State := { s with way := s.way.setLog g (f (s.way.log g)) }

/-- Write a header to the older copy, WRITE_SEQ one higher (R511). -/
def Log.writeHeader (l : Log) (h : LogHeader) : Log :=
  let w := { h with writeSeq := ((l.header.map LogHeader.writeSeq).getD 0) + 1 }
  match l.headerA, l.headerB with
  | none, _ => { l with headerA := some w }
  | some _, none => { l with headerB := some w }
  | some a, some b => if a.writeSeq ≤ b.writeSeq then { l with headerA := some w } else { l with headerB := some w }

/-- Record slots in a sector of 4 KiB. -/
def slotsPerSector : Nat := 128

/-- Spare sectors of a log (Table 17.1). -/
def spareSectors : LogId → Nat
  | .legal => 16
  | .security => 48
  | .operations => 240

/-- Torn slots in a sector. -/
def tornIn (slots : List LogSlot) (sector : Nat) : Nat :=
  (((slots.drop (sector * slotsPerSector)).take slotsPerSector).filter fun x => x = LogSlot.torn).length

/-- A sector holds two torn slots (R517): remapped to the next unused spare sector, or the log is full by media, and takes no log-full record
(DESIGN CHOICE, notes/assumptions/188.md). -/
def State.remapSector (s : State) (g : LogId) (sector : Nat) : State :=
  let l := s.way.log g
  let h := l.header.getD LogHeader.blank
  if spareSectors g ≤ h.remap.length ∨ 64 ≤ h.remap.length then
    s.modLog g fun x => x.writeHeader { h with state := 2, lost := x.lost }
  else
    let s1 := s.modLog g fun x => x.writeHeader { h with remap := h.remap ++ [(sector, h.remap.length)] }
    ((s1.bump cWayRemaps).raiseInt 0x060004 4).event .operations 6 0x82 0 (logIndex g + 2 ^ 8 * sector + 2 ^ 24 * h.remap.length)

/-- Program a record in the next slot and read it back (R517); `bad` tells of each program whether its read-back failed.  A record
that finds no slot is refused (R518). -/
def State.programRecord (s : State) (g : LogId) (r : WayRecord) : List Bool → State × List Bool
  | true :: bad =>
    let l := s.way.log g
    let last := decide (r.source = 6 ∧ r.code = 0x81)
    if (if last = true then logCapacity g else logCapacity g - 1) ≤ l.slots.length ∨ (l.header.map LogHeader.state) = some 2 then
      (if last = true then s else s.refuseEvent g r, true :: bad)
    else
      let s1 := (s.modLog g fun x => { x with slots := x.slots ++ [.torn] }).bump cWayTorn
      let sector := l.slots.length / slotsPerSector
      let s2 := if tornIn (s1.way.log g).slots sector % 2 = 0 then s1.remapSector g sector else s1
      s2.programRecord g r bad
  | bad =>
    let l := s.way.log g
    let last := decide (r.source = 6 ∧ r.code = 0x81)
    if (if last = true then logCapacity g else logCapacity g - 1) ≤ l.slots.length ∨ (l.header.map LogHeader.state) = some 2 then
      (if last = true then s else s.refuseEvent g r, bad.drop 1)
    else ((s.modLog g fun x => { x with slots := x.slots ++ [.valid r] }).bump cWayRecordsWritten, bad.drop 1)

/-- Program a list of buffered events. -/
def State.programAll (s : State) : List BufferedEvent → List Bool → State
  | [], _ => s
  | e :: rest, bad =>
    let r := s.programRecord e.log e.record bad
    r.1.programAll rest r.2

/-- Program every decided record of the buffer, in order (R516); those of a log that is clearing wait (R519). -/
def State.programBuffer (s : State) (bad : List Bool) : State :=
  if s.way.ready = false then s
  else
    let due (e : BufferedEvent) : Bool := e.decided && !(s.way.log e.log).clearing
    ({ s with way := { s.way with buffer := s.way.buffer.filter fun e => !due e } }).programAll (s.way.buffer.filter due) bad

/-- Steps 2 to 4 of a clear (R519) from its stored fields: the erase, the clear record in slot 0, the header ACTIVE. -/
def State.finishClear (s : State) (g : LogId) : State :=
  let h := (s.way.log g).header.getD LogHeader.blank
  let r : WayRecord := ⟨s.way.opTime, s.way.powerCycles, 6, 0x80, 0,
    BitVec.ofNat 128 ((h.generation + 1) % 2 ^ 32 + 2 ^ 32 * h.clearPrev + 2 ^ 64 * h.lost + 2 ^ 96 * h.clearCert.toNat)⟩
  let s1 := s.modLog g fun l => { l with slots := [.valid r], lost := 0, full := false, clearing := false, clearJob := none }
  let s2 := s1.modLog g fun l => l.writeHeader { h with state := 0, generation := (h.generation + 1) % 2 ^ 32, lost := 0, remap := [] }
  ((s2.bump cWayRecordsWritten).bump cWayClears).eventReport g r false

/-- A clear-log job begins: the header with STATE CLEARING (R519, step 1); the erase runs. -/
def State.clearLog (s : State) (g : LogId) (cert : BitVec 32) (anchor : Nat) (job : JobRef) : State :=
  let l := s.way.log g
  let h := l.header.getD LogHeader.blank
  let s1 := s.modLog g fun x => { x with clearing := true, clearJob := some job }
  s1.modLog g fun x => x.writeHeader
    { h with state := 1, lost := l.lost, clearCert := cert, clearAnchor := anchor, clearOpTime := s.way.opTime, clearPrev := l.slots.length }

/-- The undecided events of a log are decided in order of acceptance (R516). -/
def State.decideWaiting (s : State) (g : LogId) : State :=
  let waits (e : BufferedEvent) : Bool := decide (e.log = g) && !e.decided
  let s1 := { s with way := { s.way with buffer := s.way.buffer.filter fun e => !waits e } }
  (s.way.buffer.filter waits).foldl (fun st e => st.decideEvent e.log e.record) s1

/-- The erase of a clear is done: steps 2 to 5 of R519. -/
def State.clearErased (s : State) (g : LogId) : State :=
  let l := s.way.log g
  if l.clearing = false ∨ s.way.ready = false then s
  else
    let s1 := (s.finishClear g).decideWaiting g
    match l.clearJob with
    | none => s1
    | some j => s1.jobDone j

/-- Step 7 of Table 2.1 for a log (R520). -/
def State.findLog (s : State) (g : LogId) : State :=
  let l := s.way.log g
  let s1 := match l.header with
    | some h =>
      if h.state = 1 then s.finishClear g
      else s.modLog g fun x => { x with lost := max x.lost h.lost, full := decide (h.state = 2) || decide (logCapacity g ≤ x.slots.length) }
    | none =>
      let a := s.modLog g fun x => { x.writeHeader LogHeader.blank with lost := 0, full := decide (logCapacity g ≤ x.slots.length) }
      let b := { a with boot := { a.boot with selftest := a.boot.selftest ||| (1#32 <<< (7 + logIndex g)) } }
      (b.raiseInt 0x060004 5).event .operations 6 0x83 0 (logIndex g + 2 ^ 8 * l.slots.length)
  s1

/-- The positions are found: READY, and the undecided events are decided in order (R516, R520). -/
def State.findPositions (s : State) : State :=
  let s1 := [LogId.legal, LogId.security, LogId.operations].foldl State.findLog s
  let wait := s1.way.buffer.filter fun e => !e.decided
  let s2 := { s1 with way := { s1.way with ready := true, buffer := s1.way.buffer.filter fun e => e.decided } }
  wait.foldl (fun st e => st.decideEvent e.log e.record) s2

/-! ## Ports (R513, R515) -/

/-- Counters of a block that port events may name: code and SET (R513). -/
def counterDefined (source code set : Nat) : Bool :=
  match source with
  | 2 => decide (code < 12 ∧ set = 0)
  | 3 => decide (code < 12 ∧ set = 0)
  | 5 => decide (code < 10 ∧ set = 0)
  | 6 => decide (code < 9 ∧ set = 0)
  | 7 => decide (code < 12 ∧ set = 0)
  | 8 => decide (code = 0 ∧ set < 16)
  | 9 => decide (code < 16 ∧ set = 0)
  | 12 => decide (code < 11 ∧ set = 0)
  | 13 => decide (code < 20 ∧ set = 0)
  | 15 => decide (code < 2 ∧ set = 0)
  | 17 => decide (code < 20 ∧ set = 0)
  | 18 => decide ((code < 20 ∧ set < 4) ∨ (code < 15 ∧ set = 4) ∨ (code < 22 ∧ set = 5))
  | 19 => decide (code < 22 ∧ set < 4)
  | 20 => decide (code < 16 ∧ set = 0)
  | 21 => decide (code < 18 ∧ set = 0)
  | 25 => decide ((code < 13 ∧ set < 3) ∨ (code < 18 ∧ set = 3))
  | 26 => decide ((code < 17 ∧ set < 2) ∨ (code < 23 ∧ set = 2))
  | 27 => decide (code < 18 ∧ set < 2)
  | 28 => decide ((code < 22 ∧ set = 0) ∨ (code < 12 ∧ 1 ≤ set ∧ set ≤ 4))
  | 29 => decide (code < 10 ∧ set = 0)
  | _ => false

/-- Events without counters that Table 17.4 lists. -/
def eventListed (source code : Nat) : Bool :=
  match source with
  | 0 => decide ((0x81 ≤ code ∧ code ≤ 0x8B) ∨ (0x90 ≤ code ∧ code ≤ 0x93))
  | 4 => decide (code = 0x80 ∨ code = 0x81)
  | 2 => decide (code = 0x80)
  | 6 => decide (0x80 ≤ code ∧ code ≤ 0x83)
  | 7 => decide (0x80 ≤ code ∧ code ≤ 0x82)
  | 11 => decide (code = 0x80 ∨ code = 0x81)
  | 20 => decide (0x80 ≤ code ∧ code ≤ 0x83)
  | 24 => decide (0x80 ≤ code ∧ code ≤ 0x82)
  | 28 => decide (0x80 ≤ code ∧ code ≤ 0x83)
  | 9 => decide (0x80 ≤ code ∧ code ≤ 0x83)
  | 17 => decide (0x80 ≤ code ∧ code ≤ 0x84)
  | _ => false

/-- A port write is defined (R513). -/
def portDefined (source code set : Nat) : Bool := if code < 128 then counterDefined source code set else eventListed source code

/-- A word of a port (ports 0 security, 1 operations, 2 legal). -/
def State.portWord (s : State) (q w : Nat) : Nat := (Table.get 0 s.way.portWords (8 * q + w)).toNat

/-- Keep a word written to a port. -/
def State.setPortWord (s : State) (q w : Nat) (v : Word) : State :=
  { s with way := { s.way with portWords := Table.set 0 s.way.portWords (8 * q + w) v } }

/-- A port's record is submitted with its word 6 (R512, R515): words 2 to 6 give SOURCE, CODE, SET and the payload. -/
def State.submitPort (s : State) (q : Nat) (g : LogId) (allowed : Bool) (v : Word) : State :=
  let s1 := s.setPortWord q 6 v
  let w2 := s1.portWord q 2
  let source := w2 / 2 ^ 8 % 2 ^ 8
  let code := w2 / 2 ^ 16 % 2 ^ 8
  let set := w2 / 2 ^ 24 % 2 ^ 4
  let payload := s1.portWord q 3 + 2 ^ 32 * s1.portWord q 4 + 2 ^ 64 * s1.portWord q 5 + 2 ^ 96 * s1.portWord q 6
  if allowed = false ∨ portDefined source code set = false then s1.bump cWayPortRefused
  else s1.event g source code set payload

/-- A register write meets the window's rules (R11, R15, R35, R448): the state after a refusal, or `none` where it goes on. -/
def State.writeBarred (s : State) (m : Master) (a size : Nat) : Option State :=
  match s.checkAccess m a size 1 with
  | .reserved => some (s.emit (.busError m.val a))
  | .misaligned => some ((s.countError a).emit (.busError m.val a))
  | .preLock => some (s.ignoreWrite a)
  | .refused => some ((s.refuseAccess m 1 (a / 4096) (windowBase + a)).emit (.busError m.val a))
  | .open => none

end Sys2Proof.Machine
end

