-- ==== Sys2Proof/Machine/PowerOps.lean ====
section
/-!
DEFINITION. The mode machine: mains presence, the thermal and power-cap conditions, the budget, parking, ride-through and last gasp
(R455 to R465).
-/

namespace Sys2Proof.Machine

/-! ## Inputs (R457, R461, R462) -/

/-- Parts of PWR change. -/
def State.modPwr (s : State) (f : Pwr → Pwr) : State := { s with pwr := f s.pwr }

/-- MODE codes (Table 15.1). -/
def modeCode : Mode → Nat
  | .boot => 0
  | .run => 1
  | .throttle => 2
  | .ride => 3
  | .gasp => 4
  | .standby => 5
  | .recovery => 6
  | .test => 7

/-- MET's presence for the mode machine: present until it has declared a phase, for at most 2 s from step 15. -/
def State.metPresent (s : State) : Bool :=
  s.cyc.mains || (s.pwr.metAssumed && decide (s.now < s.pwr.step15At + 2 * ticksPerSec))

/-- Mains presence under MAINS_SOURCE; PFAIL_N alone before step 15 and in RECOVERY. -/
def State.mainsPresent (s : State) : Bool :=
  let src := s.item iMainsSource
  if s.boot.stage < 15 ∨ s.pwr.mode = .recovery then !s.pwr.pfailLow
  else if src = 0 then s.metPresent
  else if src = 1 then !s.pwr.pfailLow
  else s.metPresent && !s.pwr.pfailLow

/-- T_max: the highest reading of a sensor that has not failed. -/
def State.tMax (s : State) : Option Int :=
  (List.range 4).foldl (fun m n =>
    if s.pwr.sensorFail.getLsbD n = true then m
    else match m with
      | none => some (s.pwr.temps.getD n 0)
      | some x => some (max x (s.pwr.temps.getD n 0))) none

/-- T_max compared with a limit; false when every sensor has failed. -/
def State.tMaxIs (s : State) (p : Int → Bool) : Bool :=
  match s.tMax with
  | none => false
  | some t => p t

/-- Sensors failed in the present start. -/
def State.sensorsFailed (s : State) : Nat := ((List.range 4).filter fun n => s.pwr.sensorFail.getLsbD n).length

/-- The boot header says that a supercapacitor is fitted. -/
def State.scapFitted (s : State) : Bool :=
  match s.nor.bootHeader with
  | none => false
  | some h => h.scapFitted

/-- A sensor's reading differs from the median of the other three by more than 15 °C. -/
def apart (ts : List Int) (n : Nat) : Bool :=
  match (List.range 4).filter fun k => decide (k ≠ n) with
  | [i, j, k] => decide (15 < (ts.getD n 0 - median3 (ts.getD i 0) (ts.getD j 0) (ts.getD k 0)).natAbs)
  | _ => false

/-- A sensor fails for the rest of the start. -/
def State.failSensor (s : State) (n : Nat) : State :=
  ((s.modPwr fun p => { p with sensorFail := p.sensorFail ||| (1#4 <<< n) }).raiseInt 0x030004 3).note cPwrSensorFails .operations .none 0 0

/-- One sensor's part of a sample. -/
def State.sampleSensor (s : State) (n : Nat) : State :=
  let t := s.pwr.temps.getD n 0
  let runs := if apart s.pwr.temps n = true then s.pwr.mismatchRuns.getD n 0 + 1 else 0
  let s1 := s.modPwr fun p => { p with mismatchRuns := p.mismatchRuns.set n (min runs 100) }
  if s.pwr.sensorFail.getLsbD n = true then s1
  else if t < -55 ∨ 160 < t ∨ 100 ≤ runs then s1.failSensor n
  else s1

/-- When a condition began to hold, while it holds. -/
def since (now : Nat) (holds : Bool) (before : Option Nat) : Option Nat := if holds = true then some (before.getD now) else none

/-- The thermal condition and B2 after a sample: set at once; their clearing is timed. -/
def State.judgeHeat (s : State) : State :=
  let hyst : Int := s.item iThermalHystC
  let throttle : Int := s.item iThrottleC
  let b2 : Int := s.item iB2C
  let two := decide (2 ≤ s.sensorsFailed)
  let hot := two || s.tMaxIs fun t => decide (throttle ≤ t)
  let cool := !two && s.tMaxIs fun t => decide (t ≤ throttle - hyst)
  let b2Hot := s.tMaxIs fun t => decide (b2 ≤ t)
  let b2Cool := s.tMaxIs fun t => decide (t ≤ b2 - hyst)
  let s1 := if hot = true ∧ s.pwr.thermal = false then s.raiseInt 0x030004 2 else s
  s1.modPwr fun p =>
    { p with thermal := p.thermal || hot, thermalClearSince := since s.now cool p.thermalClearSince,
             b2 := p.b2 || b2Hot, b2ClearSince := since s.now b2Cool p.b2ClearSince }

/-- The power cap after a new mean of input power, in mW. -/
def State.judgePower (s : State) (mw : Nat) : State :=
  let cap := s.item iPowerCapMw
  let above := decide (cap ≠ 0 ∧ cap < mw)
  let low := decide (cap = 0 ∨ 10 * mw < 9 * cap)
  let s1 := if above = true ∧ s.pwr.overCap = false then (s.raiseInt 0x030004 4).note cPwrOverCap .operations .none 0 0 else s
  s1.modPwr fun p => { p with powerMw := mw, overCap := (p.overCap || above) && decide (cap ≠ 0), overCapClearSince := since s.now low p.overCapClearSince }

/-- A condition has stayed cleared for 10 s. -/
def clearedFor (now : Nat) (t : Option Nat) : Bool :=
  match t with
  | none => false
  | some x => decide (x + 10 * ticksPerSec ≤ now)

/-- The conditions that have stayed cleared for 10 s end. -/
def State.endConditions (s : State) : State :=
  s.modPwr fun p =>
    { p with thermal := p.thermal && !clearedFor s.now p.thermalClearSince, b2 := p.b2 && !clearedFor s.now p.b2ClearSince,
             overCap := p.overCap && !clearedFor s.now p.overCapClearSince }

/-! ## Budget and parking (R459, R460) -/

/-- Budget level of a mode (Table 15.3); STANDBY keeps B3. -/
def Pwr.budgetOf (p : Pwr) : Mode → Nat
  | .run | .test | .boot => 0
  | .recovery => if p.thermal = true ∨ p.overCap = true then 1 else 0
  | .throttle => if p.b2 = true then 2 else 1
  | .ride => 2
  | .gasp | .standby => 3

/-- Application cores unparked at most. -/
def State.coresAllowed (s : State) (m : Mode) (level : Nat) : Nat :=
  min (s.item iActiveCores) (match m with
    | .throttle => if level = 2 then (s.item iThrottleCores + 1) / 2 else s.item iThrottleCores
    | .ride => s.item iRideCores
    | .gasp | .standby => 1
    | _ => 12)

/-- SYS clock in force, in MHz (R460, Table 15.5). -/
def State.sysMhz (s : State) : Nat :=
  let cap := s.item iSysClockCap
  match s.pwr.mode with
  | .boot => 1200
  | .run | .test => cap
  | .throttle => min cap (s.item iThrottleSysMhz)
  | .ride | .gasp => min cap 400
  | .standby => 0
  | .recovery => 600

/-- The cores above a number are parked. -/
def parkAbove (n : Nat) : BitVec 12 := BitVec.ofNat 12 (4095 - (2 ^ n - 1))

/-- The counter of an entry into a mode, beside MODE_CHANGES: R479 is read as one counter for each thing that Table 15.10 names (DEDUCED,
notes/assumptions/112.md). -/
def modeEntry : Mode → Option Counter
  | .throttle => some cPwrThrottles
  | .ride => some cPwrRides
  | .gasp => some cPwrGasps
  | _ => none

/-- Where a MODE report goes: as every unsolicited report, but in GASP to every enabled queue and REPORTS peer (Table 15.4). -/
def State.modeDests (s : State) (m : Mode) : List ReportDest :=
  if m = .gasp then
    ((List.finRange 4).filter fun n => (s.rq n.val).enable).map ReportDest.rq ++
      (s.peersWith 1).map fun (i : Fin 32) => ReportDest.eth (s.peer i.val).usePort i
  else s.unsolicitedDests 10

/-- Change the mode and the budget level: counters, causes, parking, Coachman, and one MODE report with vector 6. -/
def State.setMode (s : State) (m : Mode) (cause : Nat) : State :=
  let level := s.pwr.budgetOf m
  let old := s.pwr
  if m = old.mode ∧ level = old.budget then s
  else
    let s1 := s.modPwr fun p => { p with mode := m, budget := level, parked := parkAbove (s.coresAllowed m level), startInProgress := decide (m = .boot) }
    let s2 := if m = old.mode then s1 else
      let a := (s1.raiseInt 0x030004 0).note cPwrModeChanges .operations .none 0 0
      match modeEntry m with
      | some c => a.note c .operations .none 0 0
      | none => a
    let s3 := if level = old.budget then s2.dispatch else (s2.raiseInt 0x030004 1).setBudget level
    (s3.route (s.modeDests m) ⟨.mode (modeCode m) level cause, .none, true, false, false, 0, s3.hwl.nodeId⟩).fire 6

/-! ## Sessions and deliveries that a mode change ends -/

/-- The expert session ends (R58); `cause` 0 time, 1 reset, 2 mode. -/
def State.endExpert (s : State) (cause : Nat) : State :=
  match s.boot.expertUntil with
  | none => s
  | some u =>
    ({ s with boot := { s.boot with expertUntil := none } }).event .security 7 0x81 0
      ((u - s.now + ticksPerSec - 1) / ticksPerSec + 2 ^ 32 * cause)

/-- Open deliveries are abandoned (R487). -/
def State.abandonDeliveries (s : State) : State :=
  s.upd.deliveries.foldl (fun st _ => st.note cUpdDeliveryAbandoned .operations .none 0 0) { s with upd := { s.upd with deliveries := [] } }

/-- Order of the classes when requests coincide (R475): POR, HRST, WRM, WDG, FBC, SBC, SWF, SWP. -/
def resetRank : ResetClass → Nat
  | .por => 0
  | .hrst => 1
  | .wrm => 2
  | .wdg => 3
  | .fbc => 4
  | .sbc => 5
  | .swf => 6
  | .swp => 7
  | .wake => 8

/-- The wider of a class and one already requested. -/
def wider (a : ResetClass) : Option ResetClass → ResetClass
  | none => a
  | some b => if resetRank a < resetRank b then a else b

/-! ## Ride-through (R458, R463) -/

/-- A ride has reached RIDE_TIME. -/
def State.rideOver (s : State) : Bool :=
  match s.pwr.rideStart with
  | none => false
  | some t => decide (t + s.item iRideTime * ticksPerSec ≤ s.now)

/-- ride_allowed of R458. -/
def State.rideAllowed (s : State) : Bool :=
  s.scapFitted && decide (0 < s.item iRideTime ∧ s.item iScapGaspMv < s.pwr.vscap) && !s.rideOver

/-- The present ride ends: its length is kept in 0.1 s. -/
def State.endRide (s : State) : State :=
  match s.pwr.rideStart with
  | none => s
  | some t => s.modPwr fun p => { p with rideStart := none, lastRide := min 65535 ((s.now - t) * 10 / ticksPerSec) }

/-! ## Last gasp (R464, R465) -/

/-- Reading records of an item at Fuller's entrance. -/
def FulItem.recordIds : FulItem → List Nat
  | .record id _ _ _ _ => [id]
  | .pair a _ _ _ _ b _ _ _ _ => [a, b]
  | _ => []

/-- A record item of Troika's line with one of the ids. -/
def TroikaItem.isRecordOf (ids : List Nat) : TroikaItem → Bool
  | .record id _ _ _ _ _ => decide (id ∈ ids)
  | _ => false

/-- An item at Fuller's entrance that is a record. -/
def FulItem.isRecord : FulItem → Bool
  | .record .. => true
  | .pair .. => true
  | .feeder .. => true
  | _ => false

/-- Step 1: records that Fuller has not accepted are discarded and counted, with one event. -/
def State.dropRecords (s : State) : State :=
  let ids := s.ful.queue.flatMap FulItem.recordIds
  let feeders := (s.ful.queue.filter fun x => x.isRecord && decide (x.recordIds = [])).length
  let held := s.val.held.foldl (fun n h => match h with
    | none => n
    | some x => n + (if x.estimate.isSome = true then 2 else 1)) 0
  let n := (s.val.queue.foldl (fun a l => a + l.length) 0) + held + ids.length + feeders
  let s0 := ([0, 1, 2, 3] : List Nat).foldl (fun st l => st.bumpBy (cValStateHoldCycles l) (st.holdingCycles l)) s
  let s1 : State :=
    { s0 with val := { s.val with queue := [[], [], [], []], held := [none, none, none, none] },
              ful := { s.ful with queue := s.ful.queue.filter fun x => !x.isRecord },
              bil := { s.bil with queue := s.bil.queue.filter fun x => !x.isRecordOf ids },
              readings := { s.readings with waiting := s.readings.waiting.filter fun r => r.stored } }
  if n = 0 then s1 else (s1.bumpBy cPwrGaspDropped n).event .operations 3 6 0 n

/-- BOOT_STATUS (DEV+0x0010). -/
def State.bootStatus (s : State) : Nat :=
  let b (c : Bool) (n : Nat) : Nat := if c = true then 2 ^ n else 0
  let o := s.boot
  o.stage + 256 * o.failCode + b o.cfgBackup 16 + b o.fwBackup 17 + b o.recovery 18 + b o.expertApplied 19 + b o.expertIgnored 20 +
    b o.migrated 21 + b o.headEnd 22 + b o.locked 23 + b o.halted 24

/-- Codes of RST_CAUSE. -/
def resetCode : ResetClass → Nat
  | .por => 0
  | .hrst => 1
  | .wrm => 2
  | .wdg => 3
  | .swf => 4
  | .swp => 5
  | .sbc => 6
  | .fbc => 7
  | .wake => 8

/-- RST_CAUSE. -/
def State.rstCause (s : State) : Nat :=
  let b (c : Bool) (n : Nat) : Nat := if c = true then 2 ^ n else 0
  resetCode s.rst.cls + 16 * resetCode s.rst.prev + b s.rst.holdTimeout 8 + b s.rst.vbatLost 9 + b s.rst.escalated 10

/-- VSCAP as shown: zero while no supercapacitor is fitted. -/
def State.vscapShown (s : State) : Nat := if s.scapFitted = true then s.pwr.vscap else 0

/-- The data of the side-band's STATUS (Table 13.11); the widths are the model's (DESIGN CHOICE, notes/assumptions/176.md). -/
def State.sbStatus (s : State) : List Byte :=
  leBytes 1 (modeCode s.pwr.mode) ++ leBytes 4 s.bootStatus ++ leBytes 4 s.rstCause ++ leBytes 1 s.pwr.budget ++
    (s.pwr.temps.flatMap fun t => leInt 1 t) ++ leBytes 1 (if s.pwr.vbatPresent = true then 1 else 0) ++ leBytes 2 s.vscapShown

/-- The counter of a GASP's cause. -/
def gaspCounter : Nat → Option Counter
  | 5 => some cPwrRideTimeouts
  | 6 => some cPwrScapLow
  | 7 => some cPwrThermalShutdowns
  | _ => none

/-- AON's copy of wall time is refreshed at entry to GASP (R90). -/
def State.gaspTime (s : State) : State :=
  if s.tim.running = true then { s with tim := { s.tim with aonWall := s.wall, aonAt := s.now, aonValid := s.tim.valid } } else s

/-- A hold that GASP overtakes waits with the requests of R465, since GASP always runs to its end (DEDUCED, notes/assumptions/184.md). -/
def State.gaspHold (s : State) : State :=
  match s.rst.hold with
  | none => s
  | some h => { s with rst := { s.rst with hold := none, heldInGasp := some (wider h.cls s.rst.heldInGasp) } }

/-- GASP begins (Table 15.4, steps 1 to 3); a second trigger changes only the cause recorded, and cause 7 stands (R465). -/
def State.enterGasp (s : State) (cause : Nat) : State :=
  if s.pwr.mode = .gasp then s.modPwr fun p => { p with gaspCause := if p.gaspCause = 7 then 7 else cause }
  else
    let s1 := (s.endRide).setMode .gasp cause
    let s2 := match gaspCounter cause with
      | some c => s1.note c .operations .none 0 0
      | none => s1
    let s3 := (s2.modPwr fun p => { p with gaspAt := some s.now, gaspCause := cause, gaspStored := false }).gaspTime.gaspHold
    let s4 := ({ s3 with ing := { s3.ing with creditsOpen := false } }).dropRecords
    let s5 := (((s4.endExpert 2).abandonDeliveries).releaseOwner).sendLeave 1
    let s6 := s5.sbEmit ⟨0xFFFFFFFFFFFF#48, 0, 2, 0, 0, s5.sbStatus⟩
    s6.stopFuller.gaspProgress

/-! ## The rules of precedence (R458) -/

/-- The cause of a ride's end in GASP, and of a loss that no ride meets. -/
def State.lossCause (s : State) : Nat := if s.pwr.mode ≠ .ride then 3 else if s.rideOver = true then 5 else 6

/-- The mode where mains is present. -/
def State.powered (s : State) : State :=
  let p := s.pwr
  let back := s.endRide
  let cond := p.thermal || p.overCap
  let why := if p.thermal = true then 1 else 2
  if p.mode = .recovery then s.setMode .recovery (if cond = true then why else 9)
  else if cond = true then
    back.setMode .throttle (if p.mode = .ride then 4 else if p.mode = .throttle ∧ p.budgetOf .throttle < p.budget then 9 else why)
  else back.setMode (if p.testStart = true then .test else .run) (if p.mode = .ride then 4 else 9)

/-- Evaluate the mode (R458).  A halted boot ROM stays halted: only a reset leaves the halt (R37). -/
def State.evaluate (s : State) : State :=
  if s.boot.halted = true then s else
  let hot := s.tMaxIs fun t => decide ((s.item iShutdownC : Int) ≤ t)
  match s.pwr.mode with
  | .gasp => if hot = true then s.enterGasp 7 else s
  | .standby => s
  | m =>
    if hot = true then s.enterGasp 7
    else if m = .boot then (if s.pwr.pfailLow = true then s.enterGasp 3 else s)
    else if s.mainsPresent = true then s.powered
    else if s.rideAllowed = true ∧ m ≠ .recovery then
      if m = .ride then s else (s.modPwr fun p => { p with rideStart := some s.now }).setMode .ride 3
    else s.enterGasp s.lossCause

end Sys2Proof.Machine
end

