-- ==== Sys2Proof/Machine/ResetOps.lean ====
section
/-!
DEFINITION. What each reset class keeps (R474 to R477, Table 15.8), the holds for Fuller, and the software partial reset.
-/

namespace Sys2Proof.Machine

/-! ## Survival -/

/-- The class returns the AON registers to their defaults (Table 15.8). -/
def aonRegsLost (cls : ResetClass) (vbat : Bool) : Bool := decide (cls = .por) || (decide (cls = .hrst) && !vbat)

/-- The class loses the AON retained state (Table 15.8). -/
def retainedLost (cls : ResetClass) (vbat : Bool) : Bool := decide (cls = .por) && !vbat

/-- Waybill across a reset: the logs stand in NOR; buffered records and the counts lie in AON (R521). -/
def Way.afterReset (w : Way) (regs retained : Bool) : Way :=
  let keep (l : Log) : Log := if regs = true then { l with lost := 0, full := false, clearing := false, clearJob := none } else { l with clearJob := none }
  { w with legal := keep w.legal, security := keep w.security, operations := keep w.operations, ready := false,
           buffer := if retained = true then [] else w.buffer.map fun (e : BufferedEvent) => { e with decided := false },
           portWords := if regs = true then [] else w.portWords,
           opTime := if retained = true then w.opTimeSaved else w.opTime,
           powerCycles := if retained = true then w.powerCyclesSaved else w.powerCycles }

/-- SEC across a reset: fuses, and in AON the nonce cache and the debug token. -/
def Sec.afterReset (c : Sec) (retained : Bool) : Sec :=
  { Sec.atReset with fuses := c.fuses, nonces := if retained = true then [] else c.nonces,
                     token := if retained = true then none else c.token }

/-- PWR across a reset: its inputs are live; THERMAL_STANDBY and the length of the last ride return to 0 at POR alone, as their Reset column
says (R13). -/
def Pwr.afterReset (p : Pwr) (por : Bool) : Pwr :=
  { Pwr.atReset with pfailLow := p.pfailLow, temps := p.temps, vscap := p.vscap, vbatPresent := p.vbatPresent, powerMw := p.powerMw,
                     thermalStandby := p.thermalStandby && !por, lastRide := if por = true then 0 else p.lastRide }

/-- CYC across a reset: AON's shadow and RTC_TRIM, the nominal frequency, and the last boundary (R73, R67, R90, R549). -/
def Cyc.afterReset (c : Cyc) (retained : Bool) : Cyc :=
  if retained = true then Cyc.atReset
  else { Cyc.atReset with shadow := c.shadow, shadowAcc := c.shadowAcc, shadowValid := c.shadowValid, rtcTrim := c.rtcTrim,
                          trimAcc := c.trimAcc, nominal60 := c.nominal60, lastBoundary := c.lastBoundary }

/-- Ethernet ports across a reset: LINK returns to 0 (R13); the level of a port's LOS input is what it is. -/
def Eth.afterReset (e : Eth) : Eth :=
  { Eth.atReset with ports := e.ports.map fun (p : EthPort) => ⟨0, false, p.los, 0xFF, false, 0, [], []⟩ }

/-- Events that a reset writes of what it ends, before the state is cleared: deliveries (R487) and the expert session (R58). -/
def State.endedByReset (s : State) (cls : ResetClass) : State :=
  if cls = .por then s else (s.endExpert 1).abandonDeliveries

/-- Campaigns under way, which the next start reports as ended (R508). -/
def State.campaignIds (s : State) : List Nat :=
  s.upd.campaigns.filterMap fun (e : Nat × Option Campaign) => e.2.map fun v => v.id

/-- The state that a reset of a class other than SWP leaves, before step 1 of the start (Table 15.8). -/
def State.cleared (s0 : State) (cls : ResetClass) (vbat : Bool) : State :=
  let regs := aonRegsLost cls vbat
  let lost := retainedLost cls vbat
  let s := (s0.endedByReset cls).stopTime
  let r := State.reset
  { r with
    pending := s.pending, now := s.now, draws := s.draws, out := s.out,
    regs := if regs = true then [] else s.regs.filter fun e => pageAon e.1,
    boot := { Boot.atReset with watchdogExpiries := s.boot.watchdogExpiries, record := if lost = true then none else s.boot.record },
    nor := s.nor,
    sec := s.sec.afterReset lost,
    way := s.way.afterReset regs lost,
    pwr := s.pwr.afterReset (decide (cls = .por)),
    rst := { Rst.atReset with cls := cls, prev := s.rst.cls, vbatLost := lost, heartbeatAt := s.now },
    pins := { s.pins with actOwnHighZ := false },
    host := HostIf.atReset,
    eth := s.eth.afterReset,
    sb := ⟨false, s.sb.link, if cls = .por ∨ cls = .hrst then [] else s.sb.cache, []⟩,
    txn := s.txn,
    upd := { Upd.atReset with meterSlots := s.upd.meterSlots, ended := s.upd.ended ++ s.campaignIds },
    cyc := s.cyc.afterReset lost,
    tim := { s.tim.cleared with aonValid := s.tim.aonValid && !lost },
    ing := { Ing.atReset with outSeq := if lost = true then s.nor.bundleSeq else s.ing.outSeq },
    hwl := { Hwl.atReset with rejoin := true },
    met := { Met.atReset with seq := if lost = true then 0 else s.met.seq },
    ful := s.ful.lost,
    mem := if lost = true then [] else s.mem.filter fun e => decide (0x1C000000 ≤ e.1 ∧ e.1 < 0x1C040000),
    plc := { Plc.atReset with epoch := if lost = true then s.nor.epoch else s.plc.epoch } }

/-- A reset is counted and written as an event (Table 15.10, Table 17.4); POR and a wake raise the power-cycle count (R521); a loss of
AON retained state is written. -/
def State.noteReset (s : State) : State :=
  let w := s.way
  let s1 : State := if s.rst.cls = .por ∨ s.rst.cls = .wake then
    { s with way := { w with powerCycles := w.powerCycles + 1, powerCyclesSaved := w.powerCycles + 1 } } else s
  let s2 := s1.bump (cRst (resetCode s.rst.cls))
  let s3 := if s.rst.holdTimeout = true then s2.note cRstHoldTimeouts .operations .none 0 0 else s2
  let s4 := if s.rst.escalated = true then s3.note cRstSwpEscalated .operations .none 0 0 else s3
  let s5 := s4.event .operations 2 0x80 0
    (resetCode s.rst.cls + 2 ^ 8 * resetCode s.rst.prev + 2 ^ 16 * (if s.rst.holdTimeout = true then 1 else 0))
  if s.rst.vbatLost = true then (s5.event .operations 4 0x81 0 s.way.opTime).note cPciNonceEvict .security .none 0 0 else s5

/-- Apply a reset of a class other than SWP: Table 15.8, the tag generations (R310) and EPOCH (R261) of the start that follows, and the
reset's own record. -/
def State.applyReset (s : State) (cls : ResetClass) (vbat timeout escalated : Bool) : State :=
  let s1 := s.cleared cls vbat
  let s2 : State := { s1 with rst := { s1.rst with holdTimeout := timeout, escalated := escalated } }
  let s3 := if s2.rst.vbatLost = true then s2.reseedGens else s2.advanceGens
  let epoch := (s3.plc.epoch + 1) % 16
  let s4 : State := { s3 with plc := { s3.plc with epoch := epoch }, nor := { s3.nor with epoch := epoch } }
  s4.noteReset

/-! ## Holds (R475) -/

/-- Begin a hold: LEAVE, an owner drives ACT_OWN_OUT low (R381, R384), and Fuller begins Table 11.4 (R350). -/
def State.beginHold (s : State) (cls : ResetClass) (escalated : Bool) : State :=
  let s1 := (s.sendLeave 2).releaseOwner.stopFuller
  { s1 with rst := { s1.rst with hold := some ⟨cls, s1.now, escalated⟩ } }

/-- A request of a class that is held for Fuller: in GASP it waits for STANDBY (R465); in STANDBY the domains it would reset are off
(DEDUCED, notes/assumptions/35.md). -/
def State.requestReset (s : State) (cls : ResetClass) : State :=
  match s.pwr.mode with
  | .gasp => { s with rst := { s.rst with heldInGasp := some (wider cls s.rst.heldInGasp) } }
  | .standby => s
  | _ => match s.rst.hold with
    | none => s.beginHold cls false
    | some h => { s with rst := { s.rst with hold := some { h with cls := wider cls (some h.cls), escalated := h.escalated && decide (wider cls (some h.cls) = h.cls) } } }

/-! ## SWP (R33, R328) -/

/-- SWP: the application cluster alone restarts from region 0; its tasks go back to their queues, and the expert session ends. -/
def State.softPartial (s : State) : State :=
  let s1 := (s.endExpert 1).requeueCores
  let s2 : State := { s1 with rst := { s1.rst with prev := s1.rst.cls, cls := .swp, holdTimeout := false, vbatLost := false, escalated := false,
                                                   swpAt := some s1.now, watchdogPending := false } }
  (s2.bump (cRst 5)).event .operations 2 0x80 0 (5 + 2 ^ 8 * resetCode s2.rst.prev)

/-- A request of SWP; a hold absorbs it, and in GASP it waits. -/
def State.requestPartial (s : State) : State :=
  match s.pwr.mode with
  | .gasp => { s with rst := { s.rst with heldInGasp := some (wider .swp s.rst.heldInGasp) } }
  | .standby => s
  | _ => if s.rst.hold.isSome = true then s else s.softPartial

end Sys2Proof.Machine
end

