-- ==== Sys2Proof/Machine/StartUpdate.lean ====
section
/-!
DEFINITION. Firmware parts, compatibility, the update state record, the copy at a start and the fallback (R40, R482 to R497).
-/

namespace Sys2Proof.Machine

/-! ## Parts -/

/-- The slot of a kind in a firmware partition; kinds 1 to 4 in the order of R40, kind 5 the recovery image in staging. -/
def fwSlot (f : FwSet) : Nat → Option FwPart
  | 1 => f.management
  | 2 => f.dsp
  | 3 => f.application
  | 4 => f.legal
  | 5 => f.recovery
  | _ => none

/-- Replace the slot of a kind. -/
def setFwSlot (f : FwSet) (k : Nat) (p : Option FwPart) : FwSet :=
  match k with
  | 1 => { f with management := p }
  | 2 => { f with dsp := p }
  | 3 => { f with application := p }
  | 4 => { f with legal := p }
  | 5 => { f with recovery := p }
  | _ => f

/-- The update state record as it reads when erased (R492). -/
def updIdle : UpdRecord := ⟨0, .idle, 0, 0, false, false, false, 0, 0, 0, 0, 0, 0, 0, [0, 0, 0, 0, 0], [0, 0, 0, 0, 0], 0⟩

/-- The update state record: the copy of the higher WRITE_SEQ among those that verify; with neither it reads as IDLE (R492). -/
def State.updRec (s : State) : UpdRecord :=
  match s.nor.updA, s.nor.updB with
  | none, none => updIdle
  | some a, none => a
  | none, some b => b
  | some a, some b => if a.writeSeq < b.writeSeq then b else a

/-- The next write goes to copy A: it does not verify, or it is the older one. -/
def Nor.writesA (n : Nor) : Bool :=
  match n.updA, n.updB with
  | none, _ => true
  | some _, none => false
  | some a, some b => decide (a.writeSeq < b.writeSeq)

/-- Write the update state record to the older copy; each write raises WRITE_SEQ (R492). -/
def State.writeUpd (s : State) (r : UpdRecord) : State :=
  let v := some { r with writeSeq := (s.updRec.writeSeq + 1) % 2 ^ 32 }
  { s with nor := if s.nor.writesA = true then { s.nor with updA := v } else { s.nor with updB := v } }

/-- Step 6 reads the record: the copies in `bad` (0 A, 1 B) fail their CRC; with no copy left an operations event is written, whose code the
spec does not list (R492; notes/assumptions/10.md). -/
def State.readRecord (s : State) (bad : List Nat) : State :=
  let n := { s.nor with updA := if 0 ∈ bad then none else s.nor.updA, updB := if 1 ∈ bad then none else s.nor.updB }
  let s1 : State := { s with nor := n }
  if n.updA.isNone = true ∧ n.updB.isNone = true then s1.event .operations 9 (Config.openEventCode 7).toNat 0 0 else s1

/-- A part verifies in the slot of a kind, against fuses and security floors (R482, R483). -/
def partVerifies (f : Fuses) (floors : List Nat) (k : Nat) (p : FwPart) : Bool :=
  decide (p.kind = k ∧ p.signerKey = f.fwAnchor ∧ floors.getD (k - 1) 0 ≤ p.secVersion) && p.headerOk && p.segmentsOk && p.sigOk

/-- A part verifies in the slot of a kind on this device. -/
def State.partGood (s : State) (k : Nat) (p : FwPart) : Bool := partVerifies s.sec.fuses s.updRec.floors k p

/-- A version lies within a pair of MIN and MAX; zero is no bound. -/
def withinPair (v : Nat) (b : Nat × Nat) : Bool := decide (b.1 = 0 ∨ b.1 ≤ v) && decide (b.2 = 0 ∨ v ≤ b.2)

/-- Every part's version lies within the ranges that each of the other three names (R40). -/
def compatible (f : FwSet) : Bool :=
  ([1, 2, 3, 4] : List Nat).all fun k => match fwSlot f k with
    | none => false
    | some p => ([1, 2, 3, 4] : List Nat).all fun j => match fwSlot f j with
      | none => false
      | some q => decide (j = k) || withinPair q.version (p.compat.getD (j - 1) (0, 0))

/-- The kinds of a mask of staged parts, or of any set of bits k − 1. -/
def kindsOf (m : BitVec 6) : List Nat := ([1, 2, 3, 4, 5, 6] : List Nat).filter fun k => m.getLsbD (k - 1)

/-- The firmware set that staged kinds make of a base set (R490). -/
def mergedSet (base staged : FwSet) (m : BitVec 6) : FwSet :=
  ([1, 2, 3, 4] : List Nat).foldl (fun f k => if m.getLsbD (k - 1) = true then setFwSlot f k (fwSlot staged k) else f) base

/-- The base set of the state record. -/
def State.baseSet (s : State) (r : UpdRecord) : FwSet :=
  if r.noBase = true then .erased else if r.baseBackup = true then s.nor.fwBackup else s.nor.fwActive

/-- Only kind 5 is staged. -/
def onlyRecovery (m : BitVec 6) : Bool := decide (m = 0x10)

/-- What step 6 checks of a staged bundle (R493). -/
def State.stagedGood (s : State) (r : UpdRecord) : Bool :=
  ((kindsOf r.stagedMask).all fun k => decide (k = 6) || (match fwSlot s.nor.fwStaging k with
    | none => false
    | some p => s.partGood k p)) &&
    (onlyRecovery r.stagedMask || compatible (mergedSet (s.baseSet r) s.nor.fwStaging r.stagedMask))

/-! ## The copy (Table 16.8) -/

/-- A copy step is skipped. -/
def copySkipped (r : UpdRecord) (n : Nat) : Bool :=
  let only := onlyRecovery r.stagedMask
  match n with
  | 0 => r.baseBackup || r.noBase || only
  | 1 => r.baseCfgBackup || r.noBase || only
  | 2 => only
  | 3 => !(r.stagedMask.getLsbD 5 || r.baseCfgBackup)
  | _ => !r.stagedMask.getLsbD 4

/-- Kinds 1 to 4 of a set in place of another's, the rest as it is. -/
def copySlots (from' to' : FwSet) (ks : List Nat) : FwSet := ks.foldl (fun f k => setFwSlot f k (fwSlot from' k)) to'

/-- What a copy step does to NOR. -/
def Nor.copyStep (n : Nor) (r : UpdRecord) (i : Nat) : Nor :=
  match i with
  | 0 => { n with fwBackup := copySlots n.fwActive n.fwBackup [1, 2, 3, 4] }
  | 1 => { n with cfgBackup := n.cfgActive }
  | 2 =>
    let staged := ([1, 2, 3, 4] : List Nat).filter fun k => r.stagedMask.getLsbD (k - 1)
    let rest := ([1, 2, 3, 4] : List Nat).filter fun k => !r.stagedMask.getLsbD (k - 1)
    let a := copySlots n.fwStaging n.fwActive staged
    { n with fwActive := if r.baseBackup = true then copySlots n.fwBackup a rest else a }
  | 3 => { n with cfgActive := if r.stagedMask.getLsbD 5 = true then n.cfgStaging else n.cfgBackup }
  | _ => { n with recovery := n.fwStaging.recovery }

/-- Run a copy step and journal it; a skipped step is journaled alone.  Each copy restarts the boot watchdog (R34). -/
def State.copyOne (s : State) (i : Nat) : State :=
  let r := s.updRec
  let s1 : State := if copySkipped r i = true then s else { s with nor := s.nor.copyStep r i }
  let s2 : State := { s1 with boot := { s1.boot with watchdogAt := some s1.now } }
  s2.writeUpd { s2.updRec with copyStep := i + 1 }

/-- What a copy step leaves whose read-back failed twice: nothing in its target verifies (DESIGN CHOICE, notes/assumptions/187.md). -/
def Nor.copySpoilt (n : Nor) (i : Nat) : Nor :=
  match i with
  | 0 => { n with fwBackup := copySlots .erased n.fwBackup [1, 2, 3, 4] }
  | 1 => { n with cfgBackup := none }
  | 2 => { n with fwActive := copySlots .erased n.fwActive [1, 2, 3, 4] }
  | 3 => { n with cfgActive := none }
  | _ => { n with recovery := none }

/-- Copy steps in order; `fails`: how often the read-back of each step fails, by step.  A failure is retried once; `false` where a step
fails twice (R494). -/
def State.copySteps (fails : List Nat) : List Nat → State → State × Bool
  | [], s => (s, true)
  | i :: rest, s =>
    if copySkipped s.updRec i = true then State.copySteps fails rest (s.copyOne i)
    else
      let n := fails.getD i 0
      let s1 := if 0 < n then s.bump cUpdCopyRetries else s
      if 2 ≤ n then ({ s1 with nor := s1.nor.copySpoilt i }, false) else State.copySteps fails rest (s1.copyOne i)

/-- The copy from COPY_STEP on. -/
def State.copyAll (fails : List Nat) (s : State) : State × Bool :=
  State.copySteps fails ((List.range 5).filter fun i => decide (s.updRec.copyStep ≤ i)) s

/-- The copy is done: a recovery image ends it, any other bundle starts probation (R494). -/
def State.copyDone (s : State) : State :=
  let r := s.updRec
  if onlyRecovery r.stagedMask = true then s.writeUpd { r with state := .idle, lastResult := 6 }
  else s.writeUpd { r with state := .probation, starts := 1, deadline := 0 }

/-! ## Fallback (R495, R496) -/

/-- The fallback's cause as LAST_RESULT: 2 starts, 3 deadline, 4 failed start; `none` where none is due. -/
def State.fallbackDue (s : State) : Option Nat :=
  let r := s.updRec
  match r.state with
  | .restoring => some 4
  | .probation => if r.confirmStarts < r.starts then some 2 else if r.deadline ≠ 0 ∧ r.deadline ≤ s.way.opTime then some 3 else none
  | _ => none

/-- One copy of the fallback: 0 the four firmware slots, 1 the configuration image. -/
def Nor.backStep (n : Nor) (i : Nat) : Nor :=
  if i = 0 then { n with fwActive := copySlots n.fwBackup n.fwActive [1, 2, 3, 4] } else { n with cfgActive := n.cfgBackup }

/-- The copies of the fallback in order, journaled through COPY_STEP; each restarts the boot watchdog (R34). -/
def State.backSteps (fails : List Nat) : List Nat → State → State × Bool
  | [], s => (s, true)
  | i :: rest, s =>
    let n := fails.getD i 0
    let s1 := if 0 < n then s.bump cUpdCopyRetries else s
    if 2 ≤ n then ({ s1 with nor := s1.nor.copySpoilt (i + 2) }, false)
    else
      let s2 : State := { s1 with nor := s1.nor.backStep i, boot := { s1.boot with watchdogAt := some s1.now } }
      State.backSteps fails rest (s2.writeUpd { s2.updRec with copyStep := i + 1 })

/-- Copy the backup set and the backup image back (R496), from COPY_STEP on where an earlier start began it; `false` where the read-back of a
copy fails twice. -/
def State.fallBack (fails : List Nat) (why : Nat) (s : State) : State × Bool :=
  let first := if s.updRec.copyStep ≤ 1 then s.updRec.copyStep else 0
  let x := State.backSteps fails (([0, 1] : List Nat).filter fun i => decide (first ≤ i)) (s.writeUpd { s.updRec with copyStep := first })
  if x.2 = false then x
  else
    let s1 : State := { x.1 with upd := { x.1.upd with fellBack := true } }
    let s2 := (s1.writeUpd { s1.updRec with state := .idle, lastResult := why }).bump cUpdFallbacks
    ((s2.event .legal 9 0x80 0 why).event .operations 9 0x80 0 why, true)

/-- Step 6 (R493 to R497); `fails`, `back`: the failing read-backs of the copy and of the fallback; `false` where a copy fails. -/
def State.updateStep (fails back : List Nat) (s : State) : State × Bool :=
  let r := s.updRec
  match r.state with
  | .idle => (s, true)
  | .staged =>
    if s.stagedGood r = true then
      let x := ((s.writeUpd { r with state := .copying, copyStep := 0 }).copyAll fails)
      if x.2 = true then (x.1.copyDone, true) else x
    else ((s.writeUpd { r with state := .idle, lastResult := 5 }).note cUpdBundlesRefused .operations .none 0 5, true)
  | .copying =>
    let x := s.copyAll fails
    if x.2 = true then (x.1.copyDone, true) else x
  | .probation =>
    let s1 := s.writeUpd { r with starts := min 15 (r.starts + 1) }
    match s1.fallbackDue with
    | none => (s1, true)
    | some why => s1.fallBack back why
  | .restoring => s.fallBack back 4

end Sys2Proof.Machine
end

