-- ==== Sys2Proof/Machine/StartOps.lean ====
section
/-!
DEFINITION. The start sequence, steps 1 to 15 of Table 2.1, with its failures and RECOVERY (R28, R29, R33 to R40, R49 to R60, R331,
R524).
-/

namespace Sys2Proof.Machine

/-- How a start stops short of step 15: the boot ROM has stopped in this state, or a check of Table 2.2 failed with a code, and the
MiB that the SDRAM is short of. -/
inductive StartStop where
  | ended (s : State)
  | failed (s : State) (code short : Nat)
  deriving DecidableEq, Repr

/-- A part of the start. -/
abbrev Start (α : Type) := Except StartStop α

/-- A step of Table 2.1 is completed, and the start of the next restarts the boot watchdog (R34); the boot ROM may hang there. -/
def State.done (e : StartEnv) (k : Nat) (s : State) : Start State :=
  let s1 : State := { s with boot := { s.boot with stage := k, watchdogAt := if k = 0 then none else some s.now } }
  if e.hangAfter = some k then .error (.ended s1) else .ok s1

/-- Set a bit of SELFTEST. -/
def State.selftestFail (s : State) (n : Nat) : State := { s with boot := { s.boot with selftest := s.boot.selftest ||| (1#32 <<< n) } }

/-! ## Time in a start (R73, R90, R521) -/

/-- AON counts the RTC ticks of a start, with RTC_TRIM. -/
def State.rtcRun (s : State) (ticks : Nat) : State :=
  let a : Int := s.cyc.trimAcc + (ticks : Int) * s.cyc.rtcTrim
  let n := ((ticks : Int) + Int.tdiv a 100000000).toNat
  let acc := s.cyc.shadowAcc + n * s.nominalHz
  let s1 : State :=
    { s with cyc := { s.cyc with shadow := min (s.cyc.shadow + acc / 32768) (2 ^ 48 - 1), shadowAcc := acc % 32768, trimAcc := Int.tmod a 100000000 },
             tim := { s.tim with aonWall := s.tim.aonWall + n * 2000000000 } }
  { s1 with way := { s1.way with opTime := min (s1.way.opTime + n / 32768) (2 ^ 40 - 1) } }

/-! ## Steps 1 to 5 -/

/-- Step 2: self-tests, the boot ROM's measurement and the die sensors. -/
def State.start2 (e : StartEnv) (s : State) : Start State :=
  if e.crypto = false ∨ e.random = false then
    let s1 := if e.crypto = true then s.selftestFail 1 else s.selftestFail 0
    let s2 : State := { s1 with boot := { s1.boot with stage := 1, failCode := 0x0B, halted := true, watchdogAt := none } }
    .error (.ended (s2.event .operations 0 0x8B 0 1))
  else
    let s1 := (s.extend 0 Config.romDigest).modPwr fun p => { p with temps := e.temps }
    ([0, 1, 2, 3].foldl State.sampleSensor s1).done e 2

/-- A field of the SDRAM timing block: zero, or in its range (Table 18.12). -/
def timingField (t : List Byte) (o n lo hi : Nat) : Bool := let v := fieldAt t o n; decide (v = 0 ∨ (lo ≤ v ∧ v ≤ hi))

/-- The SDRAM timing block is in range (R537). -/
def timingOk (t : List Byte) : Bool :=
  ([(0, 1, 9, 32), (1, 1, 9, 20), (2, 1, 9, 32), (3, 1, 9, 32), (4, 2, 20, 80), (6, 2, 30, 120), (8, 1, 4, 16), (9, 1, 4, 16), (10, 1, 16, 64),
    (11, 1, 10, 32), (12, 1, 2, 8), (13, 1, 6, 16), (14, 1, 5, 16), (16, 2, 200, 1200), (18, 2, 2000, 13000), (22, 1, 60, 92)] :
      List (Nat × Nat × Nat × Nat)).all (fun f => timingField t f.1 f.2.1 f.2.2.1 f.2.2.2) &&
    decide (fieldAt t 20 1 % 16 ≤ 8 ∧ fieldAt t 20 1 / 16 ≤ 4 ∧ fieldAt t 21 1 % 16 ≤ 8 ∧ fieldAt t 21 1 / 16 ≤ 2)

/-- Ceiling of NOR_MHZ in a NOR_MODE (Table 18.13). -/
def norCeiling (mode : Nat) : Nat := if mode < 2 then 133 else if mode = 2 then 166 else 200

/-- A boot header's checks (R39, Table 2.3). -/
def headerGood (h : BootHeader) : Bool :=
  decide (h.magic = 0x48425856 ∧ h.version = 1 ∧ h.length = 256 ∧ h.norMode.toNat ≤ 3 ∧ h.norDummy.toNat ≤ 30) &&
    decide (h.norMhz = 0 ∨ (25 ≤ h.norMhz.toNat ∧ h.norMhz.toNat ≤ norCeiling h.norMode.toNat)) &&
    decide (h.norAddr = 3 ∨ h.norAddr = 4) && decide (h.sdramGib = 4 ∨ h.sdramGib = 8 ∨ h.sdramGib = 16) &&
    decide (h.sdramRanks = 1 ∨ h.sdramRanks = 2) && decide (h.sdramWidth = 8 ∨ h.sdramWidth = 16) &&
    decide (h.sdramMts = 2400 ∨ h.sdramMts = 2666 ∨ h.sdramMts = 2933 ∨ h.sdramMts = 3200) &&
    timingOk h.timing && decide (h.nandMode.toNat ≤ 10) && h.crcOk

/-- Step 3: the boot header, SEC's root check and the fixed slots. -/
def State.start3 (e : StartEnv) (s : State) : Start State :=
  let digest := match s.nor.bootHeader with
    | some h => h.digest
    | none => sha512 (List.replicate 256 0xFF#8)
  let s1 := (s.extend 1 digest).startSec
  let s2 : State := { s1 with pwr := { s1.pwr with testStart := s1.sec.debugActive } }
  match s2.nor.bootHeader with
  | none => .error (.failed s2 1 0)
  | some h =>
    if headerGood h = false then .error (.failed s2 1 0)
    else if s2.sec.fuses.rootOk = false then .error (.failed s2 0x0A 0)
    else s2.done e 3

/-- Step 4: SDRAM. -/
def State.start4 (e : StartEnv) (s : State) : Start State :=
  if e.sdramTrains = false then .error (.failed s 2 0)
  else if e.sdramTest = false then .error (.failed (s.selftestFail 2) 2 0)
  else s.done e 4

/-- The timing mode a chip enable trains at (R539): the lower of NAND_MODE and what its parameter page offers, or the next lower mode at
which training succeeds. -/
def nandTrained (top : Nat) (p : NandProbe) : Option Nat := ((List.range (min top p.mode + 1)).reverse).find? (p.trainsAt.contains ·)

/-- Why a chip enable is left unused (FUL event 0x82), given the geometry of the first usable one; `none` where it is used. -/
def ceCause (top : Nat) (first : Option NandProbe) : Option NandProbe → Option Nat
  | none => some 0
  | some p =>
    if p.pageValid = false then some 0
    else if p.pageBytes ≠ 16384 ∨ p.spareBytes < 2048 ∨ p.pages < 256 ∨ 4096 < p.pages ∨ p.luns < 1 ∨ 8 < p.luns then some 1
    else match first with
      | none => if (nandTrained top p).isSome = true then none else some 2
      | some q =>
        if p.spareBytes ≠ q.spareBytes ∨ p.pages ≠ q.pages ∨ p.blocks ≠ q.blocks ∨ p.luns ≠ q.luns ∨ p.pairGroup ≠ q.pairGroup then some 1
        else if (nandTrained top p).isSome = true then none else some 2

/-- Look at the enabled chip enables in order: those used, the first one's geometry, and the events of those left unused. -/
def State.probeCe (e : StartEnv) (top : Nat) (x : State × List Nat × Option NandProbe) (k : Nat) : State × List Nat × Option NandProbe :=
  let (s, used, first) := x
  let p := e.nand.getD k none
  match ceCause top first p with
  | none => (s, used ++ [k], if first.isNone = true then p else first)
  | some c => (s.event .operations 17 0x82 0 (k / 4 + 2 ^ 8 * (k % 4) + 2 ^ 16 * c), used, first)

/-- A probe as Fuller keeps it. -/
def nandCe (top : Nat) (p : NandProbe) : NandCe :=
  ⟨p.pageBytes, p.spareBytes, p.pages, p.blocks, p.luns, p.pairGroup, p.retryLevels, (nandTrained top p).isSome, (nandTrained top p).getD 0⟩

/-- Factory marks of the chip enables in use, as blocks of the array. -/
def Ful.markFactory (f : Ful) (e : StartEnv) : Ful :=
  (List.range f.used.length).foldl (fun (g : Ful) r =>
    let bad := ((e.nand.getD (f.used.getD r 0) none).map NandProbe.factoryBad).getD []
    bad.foldl (fun (h : Ful) b =>
      let n := r * f.perCe + b
      if b < f.perCe ∧ (h.block n).state = .free then h.setBlock n { h.block n with state := .factoryBad } else h) g) f

/-- Sizes of the sixteen SDRAM regions in MiB, for raw NAND of so many pages of 16 KiB (Table 1.8): region 7 is the raw capacity divided by
1 024, rounded up to 2 MiB, plus 64 MiB (R28). -/
def regionSizes (rawPages : Nat) : List Nat :=
  [16, 256, 8, 4, 32, 64, 16, (rawPages + 131071) / 131072 * 2 + 64, 64, 32, 32, 64, 32, 64, 32, 16]

/-- The regions, laid out in order on 2 MiB boundaries: offset and size in MiB (R28). -/
def layout : Nat → List Nat → List (Nat × Nat)
  | _, [] => []
  | pos, n :: rest => (pos, n) :: layout ((pos + n + 1) / 2 * 2) rest

/-- Step 5: NAND parts, then the regions.  The raw capacity of R28 counts the chip enables in use (DESIGN CHOICE: the spec does not say
whether one that R331 leaves unused is counted, notes/assumptions/123.md). -/
def State.start5 (e : StartEnv) (s : State) : Start State :=
  let h := s.nor.bootHeader
  let mask := (h.map BootHeader.nandCeMask).getD 0
  let top := ((h.map BootHeader.nandMode).getD 0).toNat
  let (s1, used, _) := ((List.range 16).filter fun k => mask.getLsbD k).foldl (State.probeCe e top) (s, [], none)
  let ces := (List.range 16).map fun k => if mask.getLsbD k = true then (e.nand.getD k none).map (nandCe top) else none
  let f : Ful := { s1.ful with ces := ces, used := used }
  let s2 : State := { s1 with ful := f.markFactory e }
  if used = [] then .error (.failed s2 4 0)
  else
    let sizes := regionSizes (f.total * f.geometry.pages)
    let total := sizes.foldl (fun a b => a + b) 0
    let have' := 1024 * ((h.map BootHeader.sdramGib).getD 0).toNat
    if have' < total then .error (.failed s2 3 (total - have'))
    else ({ s2 with boot := { s2.boot with sdramRegions := layout 0 sizes } } : State).done e 5

/-! ## Steps 7 to 10 -/

/-- One part verified, measured and loaded; with the management part MGC runs: the side-band is up and the log positions are found. -/
def State.loadPart (e : StartEnv) (f : FwSet) (x : State × Bool) (k : Nat) : Start (State × Bool) :=
  let (s, ok) := x
  match ok, fwSlot f k with
  | true, some p =>
    if s.partGood k p = true then do
      let s1 := s.extend (k + 1) p.digest
      let s2 : State := if k = 1 then { s1 with sb := { s1.sb with up := true } } else s1
      let s3 := if k = 1 ∧ s2.way.ready = false then s2.findPositions else s2
      let s4 ← s3.done e (k + 6)
      return (s4, true)
    else .ok (s, false)
  | _, _ => .ok (s, false)

/-- Verify a whole firmware set, then its compatibility ranges (R40). -/
def State.loadSet (e : StartEnv) (f : FwSet) (s : State) : Start (State × Bool) := do
  let x ← List.foldlM (State.loadPart e f) ((s, true) : State × Bool) ([1, 2, 3, 4] : List Nat)
  return (x.1, x.2 && compatible f)

/-- The first 8 bytes of a digest, byte 0 in the highest place (R169); a digest's byte 0 is its lowest. -/
def legalCheckValue (d : Digest) : BitVec 64 := BitVec.ofNat 64 (leNat (leBytes 8 d.toNat).reverse)

/-- The set runs: its versions, the legal check value (R169), and Troika's known-answer updates at step 10 (R190). -/
def State.runSet (e : StartEnv) (f : FwSet) (s : State) : State :=
  let versions := ([1, 2, 3, 4] : List Nat).map fun k => ((fwSlot f k).map FwPart.version).getD 0
  let legal : Digest := (f.legal.map FwPart.digest).getD 0
  let s1 : State := { s with boot := { s.boot with fwVersions := versions, legalCheck := legalCheckValue legal } }
  ([0, 1, 2] : List Nat).foldl (fun st u => if e.troika.getD u false = true then st else (st.selftestFail (4 + u)).retireUnit u) s1

/-- A failure of a start as an event (R36, Table 17.4): the step reached, and what the SDRAM falls short of. -/
def State.failEvent (s : State) (code short : Nat) : State := s.event .operations 0 (0x80 + code) 0 (s.boot.stage + 2 ^ 8 * short)

/-- Steps 7 to 10: the active set, or the backup set (Table 2.2); in probation a failing set ends the probation instead (R495).  Each
failure writes its boot event, also where the start goes on (R36; DEDUCED, notes/assumptions/124.md). -/
def State.start10 (e : StartEnv) (s : State) : Start State := do
  let a ← s.loadSet e s.nor.fwActive
  if a.2 = true then return a.1.runSet e s.nor.fwActive
  else if a.1.updRec.state = .probation then .error (.failed a.1 5 0)
  else
    let s1 := (a.1.failEvent 5 0).zeroMeas [2, 3, 4, 5]
    let b ← s1.loadSet e s1.nor.fwBackup
    if b.2 = true then
      return (({ b.1 with boot := { b.1.boot with fwBackup := true } } : State).event .operations 0 0x91 0 0).runSet e s1.nor.fwBackup
    else .error (.failed (b.1.zeroMeas [2, 3, 4, 5]) 5 0)

/-! ## Steps 11 to 13 -/

/-- The version of the application part that runs. -/
def State.appVersion (s : State) : Nat := s.boot.fwVersions.getD 2 0

/-- The migration journal and its event, at the first start at which an image is migrated (R53): the result is 1 where a format 3 image
came out. -/
def State.journalMigration (s : State) (c : ConfigImage) : State :=
  if c.format = 3 ∨ (s.nor.journal.any fun j => decide (j.original = c.digest)) = true then s
  else
    let ok := imageStructured c.migrated
    let j : MigrationEntry := ⟨c.digest, c.migratedDigest, c.format, 3, ok, s.way.opTime⟩
    let s1 : State := { s with nor := { s.nor with journal := s.nor.journal ++ [j] } }
    s1.event .operations 0 0x93 0 (c.format + 2 ^ 8 * 3 + 2 ^ 16 * (if ok = true then 1 else 0))

/-- Apply an image: its settings, its facts, expert sections, keys, access entries, time and fuse items last (Table 2.1, step 13). -/
def State.applyImage (e : StartEnv) (backup : Bool) (s : State) (c : ConfigImage) : State :=
  let m := c.migrated
  let carries := certCarries c.cert .expert
  let expert := m.sections.any fun x => x.expert
  let s1 := s.withImage m
  let s2 : State :=
    { s1 with boot := { s1.boot with cfgBackup := backup, cfgSerial := m.serial, cfgCert := c.cert.serial, formatRead := c.format,
                                     sections := (imageApplied m).length, anchor := c.cert.anchor.val, migrated := decide (c.format ≠ 3),
                                     expertApplied := expert && carries, expertIgnored := expert && !carries, expertStep := carries } }
  let s3 := s2.journalMigration c
  let s4 := if expert = true ∧ carries = false then s3.event .security 0 0x92 0 c.cert.serial.toNat else s3
  let s5 := if s4.boot.headEnd = true ∧ s4.given iNodeId = true then s4.event .operations 0 (Config.openEventCode 1).toNat 0 0 else s4
  let s6 := if e.parityOk = true then s5 else (s5.selftestFail 3).event .operations 18 (Config.openEventCode 2).toNat 0 0
  let s7 : State := { s6 with cyc := { s6.cyc with rtcTrim := s6.itemInt iRtcTrim }, tim := { s6.tim with utcOffset := s6.item iUtcOffset } }
  (s7.loadKeys.loadAccess).burnFuses e

/-- Steps 11 to 13 on one image partition: read, verified and measured (R49, Table 14.6); migrated; checked and applied.  The answer is the
fail code of Table 2.2 where the image is not applied. -/
def State.tryImage (e : StartEnv) (backup : Bool) (s : State) : Option ConfigImage → Start (State × Option Nat)
  | none => .ok (s, some 6)
  | some c =>
    if imageReadable c = false ∨ s.imageSigned c = false then .ok (s, some 6)
    else do
      let s11 ← (s.extend 6 c.digest).done e 11
      let m := s11.journalMigration c
      if m.migrationFails c = true then return (m, some 7)
      let s12 ← m.done e 12
      if s12.imageValid c.migrated s12.appVersion = false then return (s12, some 6)
      let s12' := if backup = true then s12.event .operations 0 0x90 0 0 else s12
      let s13 ← (s12'.applyImage e backup c).done e 13
      return (s13, none)

/-- Steps 11 to 13: the active image, or the backup image (Table 2.2); in probation a failing image ends the probation (R495). -/
def State.start13 (e : StartEnv) (s : State) : Start State := do
  let a ← s.tryImage e false s.nor.cfgActive
  match a.2 with
  | none => return a.1
  | some code =>
    if a.1.updRec.state = .probation then .error (.failed a.1 code 0)
    else
      let b ← (a.1.failEvent code 0).tryImage e true s.nor.cfgBackup
      match b.2 with
      | none => return b.1
      | some c => .error (.failed b.1 c 0)

/-! ## Steps 14 and 15 -/

/-- The 64 bytes of a boot-state record (Table 2.11). -/
def bootRecordBytes (r : BootRecord) : List Byte :=
  leBytes 4 0x53425856 ++ leBytes 1 r.role ++ leBytes 1 r.flags.toNat ++ leBytes 1 r.resetClass ++ leBytes 1 r.failCode ++
    r.fwVersions.flatMap (leBytes 4) ++ leBytes 4 r.cfgSerial ++ leBytes 4 r.cfgCert.toNat ++ leBytes 1 r.formatRead ++ leBytes 1 r.anchor ++
    leBytes 1 (if r.debug = true then 1 else 0) ++ List.replicate 5 0 ++ leBytes 4 r.powerCycles ++ List.replicate 20 0

/-- The boot-state record is made, kept in AON SRAM and measured (R60). -/
def State.keepRecord (s : State) (role : Nat) : State :=
  let o := s.boot
  let r : BootRecord :=
    ⟨role, BitVec.ofNat 6 (s.bootStatus / 65536 % 64), resetCode s.rst.cls, o.failCode, o.fwVersions, o.cfgSerial, o.cfgCert, o.formatRead, o.anchor,
     s.sec.debugActive, s.way.powerCycles⟩
  ({ s with boot := { s.boot with record := some r } }).extend 7 (sha512 (bootRecordBytes r))

/-- Step 14: boot lock, where expert level ends (R58), and the boot-state record. -/
def State.start14 (e : StartEnv) (s : State) : Start State :=
  let s1 : State := { s with boot := { s.boot with locked := true, expertStep := false } }
  (s1.keepRecord (if s1.boot.headEnd = true then 1 else 0)).done e 14

/-- The stored coordinate, where it is of this fabric (R362). -/
def State.storedCoordinate (s : State) : Option (Nat × Nat) :=
  match s.nor.coordinate with
  | none => none
  | some (id, w, h, x, y) => if id = s.item iFabricId ∧ w = s.item iTorusW ∧ h = s.item iTorusH then some (x, y) else none

/-- The fabric at step 15: the field role's node ID is its item's, and it owns all its meters (R55); the head-end role starts
discovery (R56). -/
def State.startFabric (s : State) : State :=
  if s.boot.headEnd = true then { s with hwl := { s.hwl with stored := s.storedCoordinate } }
  else { s with hwl := { s.hwl with nodeId := BitVec.ofNat 6 (s.item iNodeId), assigned := true } }

/-- The Ethernet ports take their modes; their gate lists run from the first cycle to come. -/
def State.startPorts (s : State) : State :=
  let s1 := (s.modEthPort 0 fun p => { p with mode := s.item iEthModeEth0 }).modEthPort 1 fun p => { p with mode := s.item iEthModeEth1 }
  let s2 := s1.restartGates
  (s2.applyGates 0).applyGates 1

/-- A probation's first step 15 sets its DEADLINE (R497). -/
def State.startProbation (s : State) : State :=
  let r := s.updRec
  if r.state = .probation ∧ r.deadline = 0 then s.writeUpd { r with deadline := s.way.opTime + r.confirmDeadline } else s

/-- Step 15: the cores run, the job queues open, time and cycles run, and the mode is RUN or TEST. -/
def State.start15 (s : State) : State :=
  let s0 : State := { s with boot := { s.boot with stage := 15, watchdogAt := none, watchdogExpiries := 0 }, host := { s.host with queuesOpen := true } }
  let s1 := ((s0.startTime).startCycles).pulsesFromItems
  let s2 : State :=
    { s1 with pwr := { s1.pwr with metAssumed := true, step15At := s1.now, startInProgress := false },
              rst := { s1.rst with heartbeatAt := s1.now, watchdogPending := false, swpAt := none },
              lgc := { s1.lgc with running := true, itemSince := s1.now, servedAt := s1.now },
              ful := { s1.ful with rebuildFrom := s1.now },
              upd := { s1.upd with step15Op := s1.way.opTime, checksMet := 0 },
              rfm := { s1.rfm with origin := s1.now } }
  let s3 := ((s2.startFabric).startPorts).startProbation
  let s4 := if s3.upd.fellBack = true then s3.raiseInt 0x090004 2 else s3
  (s4.setMode (if s4.pwr.testStart = true then .test else .run) 0).evaluate

/-! ## RECOVERY (R37, R38) -/

/-- The recovery image that runs: the partition's, or the staged one where the partition fails and kind 5 is staged (R493). -/
def State.recoveryImage (s : State) : Option FwPart :=
  let good (o : Option FwPart) : Option FwPart := match o with
    | some p => if s.partGood 5 p = true then some p else none
    | none => none
  match good s.nor.recovery with
  | some p => some p
  | none =>
    let r := s.updRec
    if r.stagedMask.getLsbD 4 = true ∧ (r.state = .staged ∨ r.state = .copying) then good s.nor.fwStaging.recovery else none

/-- A start ends in RECOVERY with a fail code. -/
def State.enterRecovery (s : State) (code short : Nat) : State :=
  let s1 := s.failEvent code short
  let o := s1.boot
  let s2 : State :=
    { s1 with cfg := [],
              boot := { o with failCode := code, cfgBackup := false, fwBackup := false, expertApplied := false, expertIgnored := false,
                               migrated := false, headEnd := false, cfgSerial := 0, cfgCert := 0, formatRead := 0, sections := 0, anchor := 0,
                               fwVersions := [0, 0, 0, 0], expertStep := false, watchdogAt := none } }
  let s3 := s2.zeroMeas [2, 3, 4, 5, 6]
  match s3.recoveryImage with
  | none =>
    ({ s3 with boot := { s3.boot with failCode := 9, halted := true } }).event .operations 0 0x89 0 s3.boot.stage
  | some p =>
    let s4 := s3.extend 2 p.digest
    let s5 : State :=
      { s4 with boot := { s4.boot with recovery := true, reduced := decide (code = 1 ∨ code = 2), locked := true },
                sb := { s4.sb with up := true }, host := { s4.host with queuesOpen := true },
                pwr := { s4.pwr with startInProgress := false }, rst := { s4.rst with heartbeatAt := s4.now } }
    let s6 := (s5.keepRecord 0xFF).startTime
    let s7 := if s6.way.ready = true then s6 else s6.findPositions
    (s7.setMode .recovery 0).evaluate

/-! ## The whole start -/

/-- Step 1 enables the PCIe endpoint: its link trains unless PCIE_PERST_N holds it in reset (R540). -/
def State.trainPcie (s : State) (e : StartEnv) : State :=
  if s.pins.perstLow = true then s else { s with host := { s.host with speed := e.pcieSpeed, width := e.pcieWidth } }

/-- Steps 1 to 5; MEAS and the key slots are as the reset left them. -/
def State.steps1to5 (e : StartEnv) (s : State) : Start State := do
  let s1 ← (s.trainPcie e).done e 1
  let s2 ← s1.start2 e
  let s3 ← s2.start3 e
  let s4 ← s3.start4 e
  s4.start5 e

/-- Steps 6 to 15. -/
def State.steps6to15 (e : StartEnv) (s : State) : Start State := do
  let u := (s.readRecord e.updBad).updateStep e.copyFails e.backFails
  if u.2 = false then .error (.failed u.1 5 0)
  else
    let s6 ← u.1.done e 6
    let s10 ← s6.start10 e
    let s13 ← s10.start13 e
    let s14 ← s13.start14 e
    return s14.start15

/-- A probation that a failure of Table 2.2 ends (R495). -/
def State.endProbation (s : State) : State := s.writeUpd { s.updRec with state := .restoring }

/-- Steps 6 to 15, and again from step 6 where a failure has ended a probation. -/
def State.runFrom6 (e : StartEnv) (s : State) : State :=
  match s.steps6to15 e with
  | .ok t => t
  | .error (.ended t) => t
  | .error (.failed t code short) =>
    if t.updRec.state = .probation then
      let back := (((t.failEvent code short).endProbation).zeroMeas [2, 3, 4, 5, 6])
      match ({ back with cfg := [], boot := { back.boot with fwBackup := false, cfgBackup := false, expertStep := false } } : State).steps6to15 { e with updBad := [] } with
      | .ok u => u
      | .error (.ended u) => u
      | .error (.failed u c sh) => u.enterRecovery c sh
    else t.enterRecovery code short

/-- Log headers whose copies no longer verify at this start, as 2 × LOG + copy (R520). -/
def State.spoilHeaders (s : State) (bad : List Nat) : State :=
  [LogId.legal, LogId.security, LogId.operations].foldl (fun (st : State) g => st.modLog g fun l =>
    { l with headerA := if 2 * logIndex g ∈ bad then none else l.headerA, headerB := if 2 * logIndex g + 1 ∈ bad then none else l.headerB }) s

/-- The start after a reset or a wake; `forced` where the boot watchdog has expired for the third time in a row (R34).  PFAIL_N low
takes BOOT to GASP; a wake without mains starts like any other (R458, Table 15.2). -/
def State.startDevice (e : StartEnv) (forced : Bool) (s : State) : State :=
  let ended := s.upd.ended.foldl (fun st id => st.note cUpdCampaignsEnded .operations .none 0 id) { s with upd := { s.upd with ended := [] } }
  if ended.pwr.pfailLow = true ∧ ended.rst.cls ≠ .wake then ended.enterGasp 3
  else
    let s1 := ((ended.rtcRun (e.ticks / 750)).advance (ended.now + e.ticks)).spoilHeaders e.logBad
    match s1.steps1to5 e with
    | .ok s5 => if forced = true then s5.enterRecovery 8 0 else s5.runFrom6 e
    | .error (.ended t) => t
    | .error (.failed t code short) =>
      (if t.updRec.state = .probation then t.endProbation else t).enterRecovery code short

end Sys2Proof.Machine
end

