-- ==== Sys2Proof/Machine/RegView.lean ====
section
/-!
DEFINITION. What each register reads as: stored bits, and the fields that report the state of their block (the register tables of
every file of the spec).
-/

namespace Sys2Proof.Machine

/-- A word from its fields: (lowest bit, width, value); a value is cut to its width. -/
def pack (fs : List (Nat × Nat × Nat)) : Word :=
  fs.foldl (fun (w : Word) (f : Nat × Nat × Nat) => w ||| (BitVec.ofNat 32 (f.2.2 % 2 ^ f.2.1) <<< f.1)) 0

/-- A flag as a field of one bit. -/
def flag (b : Bool) : Nat := if b = true then 1 else 0

/-- The index of an instance in an array of registers. -/
def instanceOf (base stride a : Nat) : Nat := (a - base) / stride

/-- Flags as a mask, the first in bit 0. -/
def maskOf (bs : List Bool) : Nat := bs.foldr (fun b n => flag b + 2 * n) 0

/-! ## DEV and CLK -/

/-- Seconds left in the expert session (EXPERT_STATUS). -/
def State.expertLeft (s : State) : Nat :=
  match s.boot.expertUntil with
  | none => 0
  | some t => (t - s.now + ticksPerSec - 1) / ticksPerSec

/-- The fuses have been sensed: step 1 is done in this start (Table 14.1); in STANDBY the DEV page keeps what it showed. -/
def State.sensed (s : State) : Bool := decide (1 ≤ s.boot.stage ∨ s.pwr.mode = .standby)

/-- DEV registers. -/
def State.readDev (s : State) (a : Nat) : Word :=
  let f := s.sec.fuses
  if a = 0x00 then pack [(0, 16, if s.sensed = true then f.vendor.toNat else 0), (16, 16, 0x7480)]
  else if a = 0x04 then (if s.sensed = true then pack [(0, 4, f.metal), (4, 4, f.base), (8, 2, f.grade)] else 0)
  else if a = 0x08 then (if s.sensed = true then BitVec.ofNat 32 f.serial.toNat else 0)
  else if a = 0x0C then (if s.sensed = true then BitVec.ofNat 32 (f.serial.toNat / 2 ^ 32) else 0)
  else if a = 0x10 then BitVec.ofNat 32 s.bootStatus
  else if a = 0x14 then BitVec.ofNat 32 s.boot.cfgSerial
  else if a = 0x18 then pack [(0, 4, s.boot.formatRead), (8, 8, s.boot.sections), (16, 2, s.boot.anchor)]
  else if a = 0x1C then s.boot.cfgCert
  else if a = 0x20 then pack [(0, 1, flag s.expertActive), (16, 12, s.expertLeft)]
  else if a = 0x24 then s.boot.selftest
  else s.reg a

/-- Domains clocked now (Table 15.5), in the order of Table 1.10. -/
def State.domains (s : State) : Nat :=
  let g := s.boot.stage
  let trained := decide (s.boot.sdramRegions ≠ [])
  let held := s.ing.lanes.any (· ≠ []) || s.val.held.any Option.isSome || s.val.queue.any (· ≠ []) || s.ing.fifos.any (· ≠ []) ||
    decide (s.ing.inner ≠ [] ∨ s.ing.splitter ≠ [] ∨ s.bal.queue ≠ [])
  let pipe := match s.pwr.mode with
    | .boot => decide (13 ≤ g)
    | .run | .test | .throttle => true
    | .ride => held
    | _ => false
  let ddr := match s.pwr.mode with
    | .boot => decide (4 ≤ g)
    | .standby => false
    | .recovery => trained
    | _ => true
  let nand := match s.pwr.mode with
    | .boot => decide (5 ≤ g)
    | .standby | .recovery => false
    | _ => true
  let radio := match s.pwr.mode with
    | .boot => decide (8 ≤ g)
    | .standby | .recovery => false
    | _ => true
  let on := decide (s.pwr.mode ≠ .standby)
  maskOf [on, pipe, ddr, nand, on, on, radio, on, true]

/-! ## PWR, RST, SBM -/

/-- A byte of a signed temperature. -/
def tempByte (t : Int) : Nat := (t % 256).toNat

/-- Tenths of a second left of the present ride. -/
def State.rideLeft (s : State) : Nat :=
  match s.pwr.mode, s.pwr.rideStart with
  | .ride, some t => s.item iRideTime * 10 - (s.now - t) * 10 / ticksPerSec
  | _, _ => 0

/-- PWR registers. -/
def State.readPwr (s : State) (a : Nat) : Word :=
  let p := s.pwr
  if a = 0x30000 then
    pack [(0, 3, modeCode p.mode), (3, 2, p.budget), (5, 1, flag p.testStart), (6, 1, flag s.mainsPresent), (7, 1, flag p.pfailLow),
      (8, 1, flag p.overCap), (9, 4, p.sensorFail.toNat), (13, 1, flag p.thermalStandby)]
  else if a = 0x30010 then pack ((List.range 4).map fun n => (8 * n, 8, tempByte (p.temps.getD n 0)))
  else if a = 0x30014 then pack [(0, 16, min 65535 s.vscapShown), (16, 16, min 65535 (p.powerMw / 10))]
  else if a = 0x30018 then pack [(0, 16, min 65535 s.rideLeft), (16, 16, p.lastRide)]
  else s.reg a

/-- SBM registers. -/
def State.readSbm (s : State) (a : Nat) : Word :=
  if a = 0x50000 then pack [(0, 1, flag s.sbOpen), (1, 1, flag s.sb.link), (2, 3, min 4 s.sb.outstanding.length)] else s.reg a

/-! ## WAY (17) -/

/-- A word of a slot as read: a slot not written, and a torn slot, read all ones (DEDUCED for the torn one, notes/assumptions/20.md). -/
def LogSlot.word (w : Nat) : Option LogSlot → Word
  | some (.valid r) => BitVec.ofNat 32 (leNat ((r.bytes.drop (4 * w)).take 4))
  | _ => BitVec.allOnes 32

/-- A log by its number. -/
def logOf (n : Nat) : Option LogId := if n = 0 then some .legal else if n = 1 then some .security else if n = 2 then some .operations else none

/-- WAY_READ_DATA_w through WAY_READ_SEL (R523). -/
def State.wayRead (s : State) (w : Nat) : Word :=
  let sel := (s.reg 0x060040).toNat
  match logOf (sel / 2 ^ 17 % 4) with
  | none => BitVec.allOnes 32
  | some g => LogSlot.word w ((s.way.log g).slots[sel % 2 ^ 17]?)

/-- Slots in use of a log. -/
def State.logRecords (s : State) (g : LogId) : Nat := (s.way.log g).slots.length

/-- WAY registers. -/
def State.readWay (s : State) (a : Nat) : Word :=
  let w := s.way
  let logs := [w.legal, w.security, w.operations]
  if a = 0x60000 then
    pack [(0, 1, flag w.ready), (1, 3, maskOf (logs.map Log.full)), (4, 3, maskOf (logs.map Log.clearing)), (7, 9, w.buffer.length)]
  else if 0x60010 ≤ a ∧ a < 0x6001C then pack [(0, 17, ((logs[instanceOf 0x60010 4 a]?).map fun l => l.slots.length).getD 0)]
  else if 0x60020 ≤ a ∧ a < 0x6002C then pack [(0, 32, ((logs[instanceOf 0x60020 4 a]?).map Log.lost).getD 0)]
  else if 0x60030 ≤ a ∧ a < 0x6003C then
    pack [(0, 32, ((logs[instanceOf 0x60030 4 a]?).map fun l => (l.header.map LogHeader.generation).getD 0).getD 0)]
  else if 0x60044 ≤ a ∧ a < 0x60064 then s.wayRead (instanceOf 0x60044 4 a)
  else s.reg a

/-! ## SEC and ACC (14) -/

/-- SEC_FUSES. -/
def State.secFuses (s : State) : Word :=
  let f := s.sec.fuses
  if s.sensed = false then 0
  else pack [(0, 4, maskOf (f.anchors.map fun d => decide (d ≠ 0))), (4, 4, f.revoke.toNat), (8, 1, flag f.debugPermanent),
    (9, 1, flag f.debugDisable), (10, 1, flag f.rootOk)]

/-- SEC_CERT_FLOOR. -/
def State.secCertFloor (s : State) : Word :=
  if s.sensed = false then 0 else pack ((List.range 4).map fun a => (8 * a, 6, s.sec.fuses.certFloor.getD a 0))

/-- Owner slots that are usable. -/
def State.ownerUsable (s : State) : Nat := ((List.range 248).filter fun i => s.keyUsable (i + 8)).length

/-- SEC registers. -/
def State.readSec (s : State) (a : Nat) : Word :=
  let c := s.sec
  if a = 0x70000 then
    pack [(0, 1, flag c.testRoot), (1, 1, flag c.debugActive), (2, 1, flag c.token.isSome), (3, 5, (c.token.map DebugToken.starts).getD 0),
      (8, 1, flag c.keytableLost), (9, 1, flag c.destroyBusy.isSome), (10, 8, s.ownerUsable)]
  else if a = 0x70014 then s.secFuses
  else if a = 0x70018 then s.secCertFloor
  else if 0x70100 ≤ a ∧ a < 0x70300 then
    let m := instanceOf 0x70100 0x40 a
    let w := instanceOf 0 4 ((a - 0x70100) % 0x40)
    (c.meas.getD m 0).extractLsb' (32 * w) 32
  else if 0x71000 ≤ a ∧ a < 0x71400 then
    let k := instanceOf 0x71000 4 a
    let v := s.keySlot k
    pack [(0, 3, v.kind), (3, 1, flag (s.keyUsable k)), (4, 2, v.origin), (6, 6, v.usage.toNat), (16, 8, (s.slotGen k).toNat),
      (24, 8, v.parentGen.toNat)]
  else if 0x71400 ≤ a ∧ a < 0x71800 then pack [(0, 8, (s.keySlot (instanceOf 0x71400 4 a)).parent)]
  else if 0x71800 ≤ a ∧ a < 0x71C00 then (s.keySlot (instanceOf 0x71800 4 a)).version
  else s.reg a

/-- ACC registers; the masks of a target read its entry in force. -/
def State.readAcc (s : State) (a : Nat) : Word :=
  if a = 0x80000 then pack [(0, 11, s.sec.overrides)]
  else if a = 0x80010 then
    match s.sec.violation with
    | none => 0
    | some v => pack [(0, 4, v.master.val), (4, 2, v.kind), (6, 1, flag v.fixed), (7, 1, 1), (8, 10, v.target)]
  else if a = 0x80014 then BitVec.ofNat 32 ((s.sec.violation.map Violation.addr).getD 0)
  else if a = 0x80018 then pack [(0, 8, ((s.sec.violation.map Violation.addr).getD 0) / 2 ^ 32)]
  else if 0x81000 ≤ a ∧ a < 0x83000 then
    let e := s.accEntry (instanceOf 0x81000 8 a)
    if a % 8 = 0 then pack [(0, 16, e.read.toNat), (16, 16, e.write.toNat)] else pack [(0, 16, e.exec.toNat)]
  else s.reg a

/-! ## UPD (16) -/

/-- STATE codes of Table 16.7. -/
def UpdState.code : UpdState → Nat
  | .idle => 0
  | .staged => 1
  | .copying => 2
  | .probation => 3
  | .restoring => 4

/-- PHASE codes of UPD_CAMP_c. -/
def CampPhase.code : CampPhase → Nat
  | .idle => 0
  | .announcing => 1
  | .pass => 2
  | .waiting => 3
  | .statusRound => 4
  | .repair => 5

/-- The open delivery of a PART. -/
def State.delivery (s : State) (part : Nat) : Option Delivery := s.upd.deliveries.find? fun d => decide (d.part = part)

/-- The checks of HEALTH_CHECKS that the state record selects have been met (R498). -/
def State.checksMet (s : State) : Bool :=
  let want := BitVec.ofNat 4 s.updRec.healthChecks
  decide (want &&& s.upd.checksMet = want)

/-- Every condition of R498 but the soak holds. -/
def State.healthy (s : State) : Bool :=
  decide (15 ≤ s.boot.stage) && !s.boot.fwBackup && !s.boot.cfgBackup && !s.boot.recovery && !s.ful.rebuilding && !s.bil.restoring &&
    s.checksMet

/-- UPD registers. -/
def State.readUpd (s : State) (a : Nat) : Word :=
  let r := s.updRec
  if a = 0x90000 then
    pack [(0, 3, r.state.code), (3, 1, flag (s.delivery 0).isSome), (4, 4, maskOf ((List.range 4).map fun k => (s.delivery (k + 1)).isSome)),
      (8, 4, maskOf ((List.range 4).map fun c => (s.camp c).isSome)), (12, 6, r.stagedMask.toNat), (18, 4, r.lastResult)]
  else if a = 0x90010 then
    pack [(0, 4, r.starts), (4, 4, r.confirmStarts), (8, 1, flag (decide (r.state = .probation) && s.healthy))]
  else if a = 0x90014 then (if r.state = .probation then BitVec.ofNat 32 (r.deadline - s.way.opTime) else 0)
  else if a = 0x90018 then BitVec.ofNat 32 (((s.delivery 0).map Delivery.next).getD 0)
  else if 0x90100 ≤ a ∧ a < 0x90110 then
    match s.camp (instanceOf 0x90100 4 a) with
    | none => 0
    | some v => pack [(0, 3, v.phase.code), (3, 5, v.round), (8, 15, v.count (· = .done))]
  else if 0x90110 ≤ a ∧ a < 0x90120 then
    match s.camp (instanceOf 0x90110 4 a) with
    | none => 0
    | some v => pack [(0, 15, v.count CampState.isFailed), (16, 15, v.count (· = .pending))]
  else s.reg a

/-! ## LGC, CCH, TXN -/

/-- LGC registers. -/
def State.readLgc (s : State) (a : Nat) : Word :=
  if a = 0xB0000 then pack [(0, 1, flag s.lgc.running), (1, 1, flag s.lgc.fault), (2, 6, s.lgc.displayItem)]
  else if a = 0xB0010 then s.boot.legalCheck.extractLsb' 0 32
  else if a = 0xB0014 then s.boot.legalCheck.extractLsb' 32 32
  else s.reg a

/-- CCH registers. -/
def State.readCch (s : State) (a : Nat) : Word :=
  let c := s.cch
  if a = 0xC0000 then
    pack [(0, 2, c.level), (2, 4, maskOf ((List.range 4).map c.allows)), (6, 13, c.free), (19, 12, s.pwr.parked.toNat)]
  else if 0xC0100 ≤ a ∧ a < 0xC0200 then
    let p := instanceOf 0xC0100 4 a
    s.reg a ||| pack [(0, 13, (c.waiting.filter fun t => decide (t.priority = p)).length)]
  else if 0xC0200 ≤ a ∧ a < 0xC0210 then
    let k := instanceOf 0xC0200 4 a
    pack [(0, 13, (c.waiting.filter fun t => decide (t.eclass = k)).length), (13, 1, flag (!c.allows k)), (16, 16, s.suspendedMsOf k)]
  else if 0xC0300 ≤ a ∧ a < 0xC0340 then
    let x := instanceOf 0xC0300 4 a
    let r := (c.executor x).running
    pack [(0, 10, min 1000 (s.execLoad x)), (10, 1, flag (decide (x < 12) && s.pwr.parked.getLsbD x)), (11, 1, flag r.isSome),
      (12, 6, (r.map Task.priority).getD 0), (18, 8, (r.map Task.kind).getD 0)]
  else s.reg a

/-- TXN registers. -/
def State.readTxn (s : State) (a : Nat) : Word :=
  if a = 0xD0000 then
    pack [(0, 11, (s.txn.tags.filter fun e => e.2.outstanding).length),
      (11, 11, (s.txn.tags.filter fun e => decide (e.2.state = .quarantine)).length), (22, 1, flag s.txn.genReseeded)]
  else if a = 0xD0004 then
    pack [(0, 16, s.txn.pending.length), (16, 16, min 65535 (s.txn.pending.filter fun r => s.requestReady r).length)]
  else s.reg a

/-! ## FUL, ING, VAL -/

/-- FUL registers. -/
def State.readFul (s : State) (a : Nat) : Word :=
  let f := s.ful
  if a = 0x110000 then
    pack [(0, 1, flag f.rebuilding), (1, 1, flag (f.collecting || f.collection.isSome)), (2, 1, flag f.critical), (3, 1, flag f.cleanStart),
      (4, 1, flag f.formatted), (5, 1, flag f.itemsIgnored), (6, 1, flag f.shrunk), (8, 6, f.openCount),
      (16, 16, f.used.foldl (fun m c => m ||| 2 ^ c) 0)]
  else if a = 0x110010 then pack [(0, 21, f.freeCount)]
  else if a = 0x110014 then pack [(0, 21, f.badCount)]
  else if a = 0x110018 then pack [(0, 16, min 65535 f.rebuildMs), (16, 16, min 65535 f.probes)]
  else if a = 0x11001C then pack [(0, 10, f.fill)]
  else s.reg a

/-- ING registers; WRITE_INDEX stands beside the stored READ_INDEX. -/
def State.readIng (s : State) (a : Nat) : Word :=
  if a = 0x120000 then
    pack [(0, 1, flag s.ing.creditsOpen), (1, 1, flag s.ing.restoring), (2, 4, maskOf ((List.range 4).map fun l => decide (s.lane l ≠ []))),
      (6, 1, flag (decide (s.fwFree < 4)))]
  else if 0x120100 ≤ a ∧ a < 0x12012C then
    let n := instanceOf 0x120100 4 a
    pack [(0, 12, s.fifoLevel n), (16, 12, fifoSize n)]
  else if a = 0x120200 then s.reg a ||| pack [(0, 16, s.ing.fwWrite)]
  else s.reg a

/-- VAL registers. -/
def State.readVal (s : State) (a : Nat) : Word :=
  let v := s.val
  if a = 0x130000 then
    pack [(0, 4, maskOf ((List.range 4).map fun l => (v.held.getD l none).isSome || decide (v.queue.getD l [] ≠ []))),
      (4, 4, maskOf ((List.range 4).map fun l => match v.held.getD l none with
        | some h => h.refusedAt.isSome
        | none => false))]
  else if a = 0x130010 then pack [(0, 20, v.lastRejectGmn), (20, 5, v.lastRejectRule)]
  else if a = 0x130014 then v.lastRejectSeq
  else if 0x131000 ≤ a ∧ a < 0x131400 ∧ a % 0x100 = 0x54 then
    BitVec.ofNat 32 (min (2 ^ 32 - 1) ((s.reg a).toNat + s.holdingCycles (instanceOf 0x131000 0x100 a)))
  else s.reg a

/-! ## BIL, BAL, MET -/

/-- BIL registers. -/
def State.readBil (s : State) (a : Nat) : Word :=
  let b := s.bil
  if a = 0x140000 then
    pack [(0, 3, maskOf b.units), (3, 1, flag b.safe), (4, 1, flag b.restoring), (5, 1, flag (b.units.any fun u => !u))]
  else if a = 0x140010 then pack [(0, 20, b.freezeGmn), (20, 2, b.freezeCause)]
  else s.reg a

/-- BAL registers. -/
def State.readBal (s : State) (a : Nat) : Word :=
  if a = 0x150000 then
    pack [(0, 13, s.bal.queue.length), (13, 5, s.bal.snapshots.length),
      (18, 1, flag ((List.range 256).any fun g => s.boot.headEnd && (s.balGroupItem g).onMirror && s.computes g))]
  else if a = 0x150010 then pack [(0, 16, min 65535 s.actionsToday)]
  else s.reg a

/-- MET registers. -/
def State.readMet (s : State) (a : Nat) : Word :=
  if a = 0x160000 then s.reg a ||| pack [(7, 1, flag s.met.pendingSwitch)]
  else if 0x160010 ≤ a ∧ a < 0x16002C then pack [(0, 24, min (2 ^ 24 - 1) (s.met.rms.getD (instanceOf 0x160010 4 a) 0))]
  else s.reg a

/-! ## CYC and TIM (03) -/

/-- The source phase's frequency in mHz over its last periods, to the nearest; zero while synthetic. -/
def State.cycFreq (s : State) : Nat :=
  if 3 ≤ s.cyc.source ∨ s.cyc.synth = true then 0
  else
    let ps := (s.cyc.phase s.cyc.source).periods
    let total := ps.foldl (· + ·) 0
    if total = 0 then 0 else (ps.length * ticksPerSec * 1000 + total / 2) / total

/-- CYC registers. -/
def State.readCyc (s : State) (a : Nat) : Word :=
  let c := s.cyc
  if a = 0x170000 then
    pack [(0, 2, c.source), (2, 1, flag c.mains), (3, 3, maskOf ((List.range 3).map fun p => (c.phase p).present)), (6, 1, flag c.nominal60),
      (7, 1, flag c.nominalDecided), (8, 1, flag c.reseeded), (9, 1, flag c.rotation), (10, 1, flag c.saturated)]
  else if a = 0x170008 then BitVec.ofNat 32 c.num
  else if a = 0x17000C then pack [(0, 16, c.num / 2 ^ 32)]
  else if a = 0x170010 then pack [(0, 17, s.cycFreq)]
  else if a = 0x170014 then pack [(0, 16, c.angle2), (16, 16, c.angle3)]
  else if a = 0x170020 then pack [(0, 16, c.noise), (16, 16, c.outOfWindow)]
  else s.reg a

/-- Wall time as TIM shows it: its own while it runs, else AON's copy. -/
def State.wallShown (s : State) : Nat := if s.tim.running = true then s.wall else s.tim.aonWall

/-- TIM_OFFSET: the latest passed sample, saturating. -/
def State.offsetShown (s : State) : Word := BitVec.ofInt 32 (max (-(2 ^ 31 - 1)) (min (2 ^ 31 - 1) s.tim.offset))

/-- TIM_STATUS without its stored bit. -/
def State.timStatus (s : State) : Word :=
  let t := s.tim
  pack [(0, 1, flag (if t.running = true then t.valid else t.aonValid)), (1, 1, flag t.stepped), (2, 1, flag t.lockedBit), (4, 1, flag t.regressed),
    (5, 1, flag t.holdover), (6, 2, t.sourceActive), (8, 1, flag t.permit.isSome), (16, 16, t.refusedCount)]

/-- TIM registers. -/
def State.readTim (s : State) (a : Nat) : Word :=
  if a = 0x180000 then s.reg a ||| s.timStatus
  else if a = 0x180010 then BitVec.ofNat 32 (wallSecOf s.wallShown)
  else if a = 0x180014 then BitVec.ofNat 32 (wallSecOf s.wallShown / 2 ^ 32)
  else if a = 0x180018 then pack [(0, 30, wallNsOf s.wallShown)]
  else if a = 0x18001C then (if s.tim.running = true then pack [(0, 16, s.wallShown % 65536)] else 0)
  else if a = 0x180020 then s.offsetShown
  else if a = 0x180024 then BitVec.ofInt 32 s.tim.rate
  else s.reg a

/-! ## PLC and RFM (08, 09) -/

/-- PLC registers; gain and noise are measurements (free values). -/
def State.readPlc (s : State) (a : Nat) : Word :=
  let p := s.plc
  if a = 0x190000 then
    pack [(0, 1, flag s.plcRuns), (1, 1, s.item iPlcBand), (2, 2, s.item iCoupling),
      (4, 3, maskOf ((List.range 3).map s.inFrame)), (7, 1, flag s.plcBusy),
      (8, 3, maskOf ((List.range 3).map fun n => s.plcTxEn (n + 1))), (12, 4, p.epoch), (16, 5, p.discoveries.length)]
  else if 0x190010 ≤ a ∧ a < 0x19001C then
    let n := instanceOf 0x190010 4 a
    if s.plcRuns = false then 0
    else pack [(0, 7, s.plcGain n), (7, 1, flag (s.inFrame n)), (8, 8, (Config.plcNoise n s.now).toNat),
      (16, 8, (s.chain n).lastSnr)]
  else if a = 0x190020 then pack [(0, 15, p.tollbook.length)]
  else s.reg a

/-- RFM registers; noise floors are measurements (free values). -/
def State.readRfm (s : State) (a : Nat) : Word :=
  if a = 0x1A0000 then
    pack [(0, 2, maskOf [s.rfRuns 0, s.rfRuns 1]), (2, 2, maskOf [s.radioBusy 0, s.radioBusy 1]), (4, 4, s.plc.epoch),
      (8, 12, (s.slotsUsed 0).length + (s.slotsUsed 1).length),
      (20, 12, min 4095 (s.ctx.filter fun e => e.2.radio.recovering).length)]
  else if 0x1A0010 ≤ a ∧ a < 0x1A0018 then
    let n := instanceOf 0x1A0010 4 a
    if s.rfRuns n = false then pack [(16, 10, s.dutyUsed n * 1000 / dutyWindow)]
    else pack [(0, 8, (Config.rfNoise n 0 s.now).toNat), (8, 8, (Config.rfNoise n 1 s.now).toNat),
      (16, 10, s.dutyUsed n * 1000 / dutyWindow)]
  else if a = 0x1A0020 then pack [(0, 15, s.rfm.tollbook.length)]
  else s.reg a

/-! ## ETH, HWL, PCI -/

/-- ETH registers. -/
def State.readEth (s : State) (a : Nat) : Word :=
  let p := (a - 0x1B0000) / 0x2000
  if (a - 0x1B0000) % 0x2000 = 0 then
    let e := s.ethPort p
    pack [(0, 2, e.mode), (2, 1, flag e.link), (3, 1, flag e.gclRunning), (4, 8, e.gates.toNat),
      (12, 1, flag (decide (e.mode ≠ 0) && (BitVec.ofNat 32 (s.item iTsMode)).getLsbD p))]
  else s.reg a

/-- Members 0 to 63 as a mask. -/
def State.memberMask (s : State) : BitVec 64 := BitVec.ofNat 64 (maskOf ((List.range 64).map s.isMember))

/-- Meters of a range with MISMATCH set: the own one, or the partner's. -/
def State.mismatches (s : State) (partner : Bool) : Nat := (s.hwl.mismatch.filter fun i => decide (16384 ≤ i) == partner).length

/-- HWL registers. -/
def State.readHwl (s : State) (a : Nat) : Word :=
  let h := s.hwl
  if a = 0x1C0000 then
    pack [(0, 6, h.nodeId.toNat), (6, 1, flag h.assigned), (7, 1, flag h.conflict), (8, 3, h.x), (11, 3, h.y),
      (16, 4, maskOf ((List.range 4).map fun p => decide ((s.hport p).state = .up))), (20, 6, s.partner.getD 0), (26, 1, flag h.paired),
      (27, 1, flag h.partnerLost), (28, 1, flag h.owner), (29, 1, flag h.interlockFault), (30, 1, flag h.syncing), (31, 1, flag h.pairMismatch)]
  else if a = 0x1C000C then s.memberMask.extractLsb' 0 32
  else if a = 0x1C0010 then s.memberMask.extractLsb' 32 32
  else if a = 0x1C0014 then pack [(0, 15, h.window.length), (16, 9, h.heldIn.length)]
  else if a = 0x1C0018 then (if h.mseqOut = 0 then 0 else h.mseqOut - 1)
  else if a = 0x1C001C then h.mseqAcked
  else if a = 0x1C0020 then BitVec.ofNat 32 h.lastCut
  else if a = 0x1C0024 then pack [(0, 16, min 65535 (s.mismatches false)), (16, 16, min 65535 (s.mismatches true))]
  else if 0x1C0100 ≤ a ∧ a < 0x1C0200 then
    let r := s.routeTo (instanceOf 0x1C0100 4 a)
    pack [(0, 2, r.port), (2, 1, flag r.reachable), (3, 1, flag r.diverted), (4, 4, r.distance)]
  else if 0x1C1000 ≤ a ∧ a % 0x1000 = 0 then
    let v := s.hport (instanceOf 0x1C1000 0x1000 a)
    pack [(0, 3, v.state.code), (3, 1, flag v.blockLock), (4, 6, (v.peer.map BitVec.toNat).getD 0), (10, 1, flag v.peer.isSome),
      (11, 2, v.peerPort), (13, 3, v.isolate)]
  else if 0x1C1000 ≤ a ∧ a % 0x1000 = 4 then
    let v := s.hport (instanceOf 0x1C1000 0x1000 a)
    pack ((List.range 4).map fun c => (8 * c, 8, min 255 (v.credit c 0 + v.credit c 1 + v.credit c 2)))
  else s.reg a

/-- PCI registers: the queues' own are held with the queues. -/
def State.readPci (s : State) (a : Nat) : Word :=
  if a = 0x1D0000 then
    pack [(0, 3, s.host.speed), (3, 3, s.host.width), (6, 1, flag s.host.queuesOpen),
      (7, 4, maskOf ((List.range 4).map fun n => (s.rq n).enable))]
  else if 0x1D0100 ≤ a ∧ a < 0x1D0140 then
    let q := s.cq (instanceOf 0x1D0100 0x10 a)
    if a % 0x10 = 0 then q.tail else if a % 0x10 = 4 then q.head else s.reg a
  else if 0x1D0200 ≤ a ∧ a < 0x1D0280 then
    let q := s.rq (instanceOf 0x1D0200 0x20 a)
    if a % 0x20 = 0 then q.baseLo else if a % 0x20 = 4 then q.baseHi
    else if a % 0x20 = 8 then pack [(0, 1, flag q.enable), (1, 4, q.sizeLog2)]
    else if a % 0x20 = 0xC then q.head else if a % 0x20 = 0x10 then q.tail else s.reg a
  else s.reg a

/-! ## Any register -/

/-- What a register reads as, by its block's range (Table 1.1). -/
def State.readBlock (s : State) (a : Nat) : Word :=
  match a / 0x10000 with
  | 0 => s.readDev a
  | 1 => pack [(0, 9, s.domains), (9, 1, 0), (10, 11, s.sysMhz)]
  | 2 => if a = 0x20000 then BitVec.ofNat 32 s.rstCause else s.reg a
  | 3 => s.readPwr a
  | 5 => s.readSbm a
  | 6 => s.readWay a
  | 7 => s.readSec a
  | 8 => s.readAcc a
  | 9 => s.readUpd a
  | 11 => s.readLgc a
  | 12 => s.readCch a
  | 13 => s.readTxn a
  | 17 => s.readFul a
  | 18 => s.readIng a
  | 19 => s.readVal a
  | 20 => s.readBil a
  | 21 => s.readBal a
  | 22 => s.readMet a
  | 23 => s.readCyc a
  | 24 => s.readTim a
  | 25 => s.readPlc a
  | 26 => s.readRfm a
  | 27 => s.readEth a
  | 28 => s.readHwl a
  | 29 => s.readPci a
  | _ => s.reg a

/-- What a register reads as (Table 0.5): an unimplemented offset and a WO register read zero (R11). -/
def State.readReg (s : State) (a : Nat) : Word :=
  match regRowAt a with
  | none => 0
  | some r => if r.wo ≠ 0 then 0 else s.readBlock a

/-! ## Pairs of registers (R12, R81) -/

/-- The registers that a read latches for the same master's next reads. -/
def latchedBy (a : Nat) : List Nat :=
  if a = 0x000008 then [0x00000C]
  else if a = 0x170008 then [0x17000C]
  else if a = 0x0B0010 then [0x0B0014]
  else if a = 0x1C000C then [0x1C0010]
  else if a = 0x180010 then [0x180014, 0x180018, 0x18001C]
  else if a = 0x080010 then [0x080014, 0x080018]
  else if a = 0x130010 then [0x130014]
  else if a = 0x080014 then [0x080018]
  else if 0x1D0200 ≤ a ∧ a < 0x1D0280 ∧ a % 0x20 = 0 then [a + 4]
  else []

/-- The key of a latch: register and master. -/
def latchKey (a : Nat) (m : Master) : Nat := a * 16 + m.val

/-- Drop or keep a latched word. -/
def State.setLatch (s : State) (a : Nat) (m : Master) (w : Option Word) : State :=
  { s with latches := Table.set none s.latches (latchKey a m) w }

/-- A granted read by a master: the latched half where one is held, else the register; a low word latches its partners. -/
def State.masterRead (s : State) (m : Master) (a : Nat) : State × Word :=
  match Table.get none s.latches (latchKey a m) with
  | some w =>
    ((latchedBy a).foldl (fun st b => if (Table.get none st.latches (latchKey b m)).isSome = true then st else st.setLatch b m (some (s.readReg b)))
      (s.setLatch a m none), w)
  | none => ((latchedBy a).foldl (fun st b => st.setLatch b m (some (s.readReg b))) s, s.readReg a)

end Sys2Proof.Machine
end

