-- ==== Sys2Proof/Machine/RegWrite.lean ====
section
/-!
DEFINITION. Reads and writes of registers by a master (R10 to R12, R35, R448, R452), and the registers whose writes act (R397, R400,
R401, R434, R447, R515).
-/

namespace Sys2Proof.Machine

/-- What a read answers when it does not reach a register: an error response, the pre-lock zero, or all ones. -/
def State.readAnswer (s : State) (m : Master) (a size : Nat) : State × Word :=
  match s.checkAccess m a size 0 with
  | .reserved => (s.emit (.busError m.val a), 0xFFFFFFFF)
  | .misaligned => ((s.countError a).emit (.busError m.val a), 0xFFFFFFFF)
  | .preLock => (s, 0)
  | .refused => ((s.refuseAccess m 0 (a / 4096) (windowBase + a)).emit (.busError m.val a), 0xFFFFFFFF)
  | .open => s.masterRead m a

/-- A write to KEY_DESTROY (R434): ignored while one is in progress; SLOT takes the value, and 0 to 7 invalidate nothing. -/
def State.writeKeyDestroy (s : State) (r : RegRow) (v : Word) : State :=
  let k := v.toNat % 256
  if s.sec.destroyBusy.isSome = true then s.ignoreWrite 0x070010
  else
    let s1 := s.storeBits r 0x070010 v
    if k < 8 then s1 else s1.modSec fun c => { c with destroyBusy := some k }

/-- The access entry of a target becomes one word's new value (R447). -/
def State.writeAcc (s : State) (a : Nat) (v : Word) : State :=
  let t := (a - 0x081000) / 8
  let e := s.accEntry t
  let lo := v.extractLsb' 0 16
  let e1 := if a % 8 = 0 then (lo, v.extractLsb' 16 16, e.exec) else (e.read, e.write, lo)
  s.modSec fun c => { c with acc := Table.set none c.acc t (some e1) }

/-- A word of an event port (R515): words 2 to 5 are kept, word 6 submits; the others are filled by WAY. -/
def State.writePort (s : State) (m : Master) (q w : Nat) (v : Word) : State :=
  if w = 6 then
    s.submitPort q (if q = 0 then .security else if q = 1 then .operations else .legal)
      (if q = 2 then decide (m = 5) else decide (m = 4 ∨ m = 6)) v
  else if 2 ≤ w ∧ w ≤ 5 then s.setPortWord q w v
  else s

/-- A queue's register by its number. -/
def queueOf (base stride a : Nat) : Fin 4 := ⟨(a - base) / stride % 4, Nat.mod_lt _ (by decide)⟩

/-- A write to a command or report queue's register.  A write of RQ_BASE that ENABLE makes ignored (R400) is not counted in PAGE_IGNORED
(DESIGN CHOICE, notes/assumptions/129.md). -/
def State.writeQueue (s : State) (a : Nat) (v : Word) : State :=
  if a < 0x1D0200 then s.writeTail (queueOf 0x1D0100 0x10 a).val v
  else
    let n := queueOf 0x1D0200 0x20 a
    let q := s.rq n
    if a % 0x20 = 0 then (if q.enable = true then s else s.setRq n { q with baseLo := v &&& 0xFFFFF000#32 })
    else if a % 0x20 = 4 then (if q.enable = true then s else s.setRq n { q with baseHi := v })
    else if a % 0x20 = 8 then s.writeRqCtrl n v
    else s.setRq n { q with head := v }

/-- A granted write to an implemented register: a register whose write acts does so; another stores its bits (Table 0.5). -/
def State.writeRegister (s : State) (m : Master) (r : RegRow) (a : Nat) (v : Word) : State :=
  if s.writeIgnored r = true then s.ignoreWrite a
  else if a = 0x070010 then s.writeKeyDestroy r v
  else if 0x081000 ≤ a ∧ a < 0x083000 then s.writeAcc a v
  else if 0x060800 ≤ a ∧ a < 0x060840 then s.writePort m ((a - 0x060800) / 0x20) ((a - 0x060800) % 0x20 / 4) v
  else if 0x061000 ≤ a ∧ a < 0x061020 then s.writePort m 2 ((a - 0x061000) / 4) v
  else if 0x1D0100 ≤ a ∧ a < 0x1D0280 then s.writeQueue a v
  else if a = 0x120200 then s.advanceFwRead v
  else if 0x120140 ≤ a ∧ a < 0x12016C then (s.storeBits r a v).checkThreshold ((a - 0x120140) / 4)
  else s.storeBits r a v

/-- A register write (R10, R11). -/
def State.masterWrite (s : State) (m : Master) (a size : Nat) (v : Word) : State :=
  match s.writeBarred m a size with
  | some s1 => s1
  | none => match regRowAt a with
    | none => s.ignoreWrite a
    | some r => s.writeRegister m r a v

/-- KEY_DESTROY (R434): a write of a slot's index begins its invalidation; the slot stays usable until the table is written. -/
def execKeyDestroy (m : Master) (v : Word) (t : Nat) (s0 : State) : Host.Outcome State Fault Refusal :=
  let s := s0.advance t
  .next (s.masterWrite m 0x070010 4 v)

/-- KEY_PURGE (R434, R435): the generation table is written; the slot and its descendants are emptied and purged. -/
def execKeyPurge (t : Nat) (s0 : State) : Host.Outcome State Fault Refusal :=
  let s := s0.advance t
  match s.sec.destroyBusy with
  | none => .next s
  | some k =>
    let v := s.keySlot k
    .next ((s.invalidate k (if v.kind = 0 then (s.genEntry k).version else v.version.toNat)).modSec
      fun c => { c with destroyBusy := none })

end Sys2Proof.Machine
end

