-- ==== Sys2Proof/Machine/JobDevice.lean ====
section
/-!
DEFINITION. What the jobs do that concern the device as a whole: register read, attest, trigger, pulse, host time, wall-time step, clear
log, expert session, debug token, reset and boot-header write (Table 13.5).  Each handler runs after the checks that every job meets.
-/

namespace Sys2Proof.Machine

/-! ## Register read, attest -/

/-- Read register words one after another as the job's master (R12, R451). -/
def State.readWords (s : State) (m : Master) (a : Nat) : Nat → State × List Word
  | 0 => (s, [])
  | n + 1 =>
    let r := s.readAnswer m a 4
    let rest := r.1.readWords m (a + 4) n
    (rest.1, r.2 :: rest.2)

/-- Register read (0x03): up to 256 words; WORDS 0 probes the access right. -/
def State.runRegisterRead (s : State) (j : Job) (offset words : Nat) : State :=
  if 256 < words then s.rejectJob j.hdr.ref .format
  else s.onAccept j fun st =>
    let r := st.readWords (sourceMaster j.hdr.source) offset words
    r.1.finishJob j.hdr.ref 0 .none 0 (leBytes 2 words) (if words = 0 then .none else .words r.2)

/-- SOURCE of a quote (Table 14.7). -/
def sourceCode : JobSource → Nat
  | .cq _ => 0
  | .eth _ _ => 1
  | .sideband _ => 2
  | .fabric _ _ => 3

/-- Bytes 0 to 719 of a quote (Table 14.7).  NONCE's byte 0 is its lowest; LEGAL_CHECK and MEAS run in digest byte order. -/
def State.quoteHead (s : State) (src : JobSource) (nonce : BitVec 256) : List Byte :=
  let b (c : Bool) (n : Nat) : Nat := if c = true then 2 ^ n else 0
  leBytes 4 0x51415856 ++ leBytes 2 1 ++ leBytes 2 1252 ++ leBytes 8 s.serial.toNat ++ leBytes 32 nonce.toNat ++
    ([(sourceMaster src).val + 16 * sourceCode src, modeCode s.pwr.mode,
      b s.sec.testRoot 0 + b s.sec.debugActive 1 + b s.tim.valid 2 + b s.expertActive 3 + b s.sec.keytableLost 4, 0].map (BitVec.ofNat 8)) ++
    leBytes 4 (s.readReg 0x070014).toNat ++ leBytes 4 (s.readReg 0x070018).toNat ++ List.replicate 16 0 ++
    (match s.boot.record with
      | some r => bootRecordBytes r
      | none => List.replicate 64 0) ++
    (leBytes 8 (if s.pwr.mode = .recovery then 0 else s.boot.legalCheck.toNat)).reverse ++ leBytes 5 s.way.opTime ++ List.replicate 3 0 ++
    leBytes 8 s.wallSec ++ leBytes 4 (wallNsOf s.wall) ++ leBytes 6 s.cyc.num ++ List.replicate 2 0 ++
    (s.itemBytes iSiteName ++ List.replicate 32 0).take 32 ++ s.sec.meas.flatMap digestBytes

/-- The quote (R444, R445): what it says, the public keys of slots 2 and 4, KEY_STMT, and slot 2's signature over the 1 120 bytes before
it, in 20 data slots. -/
def State.quote (s : State) (src : JobSource) (nonce : BitVec 256) : List Byte :=
  let said := s.quoteHead src nonce ++ s.slotPublic 2 ++ s.slotPublic 4 ++ List.replicate 2 0 ++ s.sec.keyStmt
  (said ++ s.signWith 2 said ++ List.replicate 28 0)

/-- Attest (0x05, R444, R446): a signed quote in 20 data slots; four are signed at a time, each within 3 ms. -/
def State.runAttest (s : State) (j : Job) (nonce : BitVec 256) : State :=
  let busy := s.sec.quotesUntil.filter fun u => decide (s.now < u)
  if 4 ≤ busy.length then s.rejectJob j.hdr.ref .busy
  else s.onAccept j fun st =>
    let s1 := (st.modSec fun c => { c with quotesUntil := busy ++ [st.now + 3 * ticksPerMs] }).bump cSecQuotes
    s1.drawn.finishJob j.hdr.ref 0 .none 0 [] (.bytes (st.quote j.hdr.source nonce))

/-! ## Trigger, pulse, time -/

/-- Trigger (0x07, R326). -/
def State.runTrigger (s : State) (j : Job) (entry source due period : Nat) (m : TriggerTemplate) : State :=
  if 63 < entry then s.rejectJob j.hdr.ref .format
  else if source = 0 then s.onAccept j fun st => (st.setTrigger entry Trigger.free).jobDone j.hdr.ref
  else if templateValid m = false then s.rejectJob j.hdr.ref .format
  else s.onAccept j fun st =>
    (st.setTrigger entry ⟨source, false, due, period, m.kind, m.priority, m.eclass, m.exec, m.coreMask, m.arg.toNat⟩).jobDone j.hdr.ref

/-- Pulse (0x08, R98): the schedule of an output is replaced. -/
def State.runPulse (s : State) (j : Job) (output startSec startNs period width : Nat) : State :=
  if 1 < output ∨ 999999999 < startNs then s.rejectJob j.hdr.ref .format
  else s.onAccept j fun st =>
    (st.setPulse output ((st.tim.pulse output).scheduled startSec startNs period width st.wallNs)).jobDone j.hdr.ref

/-- Host time (0x09, R83): with TIME_SOURCE 4 the difference from TIM's time at acceptance is one offset sample. -/
def State.runHostTime (s : State) (j : Job) (sec ns : Nat) : State :=
  if 999999999 < ns then s.rejectJob j.hdr.ref .format
  else s.onAccept j fun st =>
    let e : Int := (sec * 1000000000 + ns : Nat) - (st.wallNs : Int)
    (if st.item iTimeSource = 4 ∧ st.tim.running = true then st.passSample 3 0 e else st).jobDone j.hdr.ref

/-- Wall-time step (0x20, R87): WINDOW 0 is a probe of the latest offset, the source and TIM_STATUS. -/
def State.runWallTimeStep (s : State) (j : Job) (window maxStep : Nat) : State :=
  if 600 < window then s.rejectJob j.hdr.ref .format
  else if window = 0 then
    s.onAccept j fun st =>
      let off : Int := if st.item iTimeSource = 0 then 0 else st.tim.offset
      st.finishJob j.hdr.ref 0 .none 0 (leInt 8 off ++ leBytes 1 st.tim.sourceActive ++ leBytes 4 (st.readReg 0x180000).toNat) .none
  else if s.item iTimeSource = 0 then s.rejectJob j.hdr.ref .noSource
  else s.onAccept j fun st =>
    (st.modTim fun t => { t with permit := some ⟨st.now, window, maxStep, j.hdr.ref⟩ }).jobDone j.hdr.ref

/-! ## Logs, expert level, debug -/

/-- A log by its number (Table 13.5, 0x21). -/
def logOfNumber : Nat → Option LogId
  | 0 => some .legal
  | 1 => some .security
  | 2 => some .operations
  | _ => none

/-- The certificate of a signed job: its serial and anchor. -/
def certOf (j : Job) : BitVec 32 × Nat :=
  match j.hdr.envelope with
  | some e => (e.cert.serial, e.cert.anchor.val)
  | none => (0, 0)

/-- Clear log (0x21, R519): busy while that log is clearing; the final report follows the erase. -/
def State.runClearLog (s : State) (j : Job) (log : Nat) : State :=
  match logOfNumber log with
  | none => s.rejectJob j.hdr.ref .format
  | some g =>
    if (s.way.log g).clearing = true then s.rejectJob j.hdr.ref .busy
    else s.onAccept j fun st => st.clearLog g (certOf j).1 (certOf j).2 j.hdr.ref

/-- Open expert session (0x22, R58): duration 0 reports the seconds left; a further job sets the remaining time. -/
def State.runExpert (s : State) (j : Job) (duration : Nat) : State :=
  if 3600 < duration then s.rejectJob j.hdr.ref .format
  else if duration = 0 then s.onAccept j fun st => st.finishJob j.hdr.ref 0 .none 0 (leBytes 4 (expertLeft st)) .none
  else s.onAccept j fun st =>
    let s1 := if st.expertActive = true then st else st.event .security 7 0x80 0 duration
    ({ s1 with boot := { s1.boot with expertUntil := some (s1.now + duration * ticksPerSec) } }).jobDone j.hdr.ref

/-- Debug token (0x23, R441): 16 bytes of Table 14.5; STARTS 0 reports the held token's; DEBUG_DISABLE rejects the job. -/
def State.runDebugToken (s : State) (j : Job) (x : List Byte) : State :=
  let starts := fieldAt x 6 1
  if x.length ≠ 16 ∨ fieldAt x 0 4 ≠ 0x54445856 ∨ fieldAt x 4 2 ≠ 1 ∨ 16 < starts then s.rejectJob j.hdr.ref .format
  else if s.sec.fuses.debugDisable = true then s.rejectJob j.hdr.ref .authority
  else if starts = 0 then
    s.onAccept j fun st => st.finishJob j.hdr.ref 0 .none 0 (leBytes 1 ((st.sec.token.map DebugToken.starts).getD 0)) .none
  else match j.hdr.envelope with
    | none => s.rejectJob j.hdr.ref .format
    | some e => s.onAccept j fun st =>
      ((st.modSec fun c => { c with token := some ⟨starts, x, jobHead j, e⟩ }).bump cSecDebugTokens).jobDone j.hdr.ref

/-! ## Reset and boot header -/

/-- Reset (0x26): SWF, or SWP of the application cluster; its final report leaves before the reset. -/
def State.runReset (s : State) (j : Job) (swp : Bool) : State :=
  s.onAccept j fun st => if swp = true then (st.jobDone j.hdr.ref).requestPartial else (st.jobDone j.hdr.ref).requestReset .swf

/-- Boot-header write (0x27, R38): checked, programmed, read back and compared; the event's last byte is the result. -/
def State.runBootHeader (s : State) (j : Job) (h : BootHeader) (fails : Bool) : State :=
  if headerGood h = false then s.rejectJob j.hdr.ref .format
  else s.onAccept j fun st =>
    let s1 := { st with nor := { st.nor with bootHeader := if fails = true then none else some h } }
    let s2 := s1.event .security 9 0x83 0 ((certOf j).1.toNat + 2 ^ 32 * h.crc.toNat + if fails = true then 2 ^ 64 else 0)
    if fails = true then s2.jobFailed j.hdr.ref .none else s2.jobDone j.hdr.ref

/-- EXPERT_SESSION_EXPIRY (R58): the session's time has run out. -/
def execExpertSessionExpiry (t : Nat) (s0 : State) : Host.Outcome State Fault Refusal :=
  let s := s0.advance t
  match s.boot.expertUntil with
  | none => .next s
  | some u => .next (if s.now < u then s else s.endExpert 0)

/-- NONCE_EXPIRY (R407): nonces whose NOT_AFTER wall time has passed, or whose life in operating time has ended, leave the cache. -/
def execNonceExpiry (t : Nat) (s0 : State) : Host.Outcome State Fault Refusal :=
  let s := s0.advance t
  let keep (x : BitVec 64 × Nat × Option Nat) : Bool :=
    match x.2.2 with
    | some u => decide (s.way.opTime < u)
    | none => !s.tim.valid || decide (s.sec2020 ≤ x.2.1)
  .next (s.modSec fun c => { c with nonces := c.nonces.filter keep })

end Sys2Proof.Machine
end

