-- ==== Sys2Proof/Machine/Plc.lean ====
section
/-!
DEFINITION. The steps of the power-line front end (spec 08).
-/

namespace Sys2Proof.Machine

/-- PREAMBLE_DETECTION (R243, R246, R251, R263): a chain detects the preamble of a frame whose first sample fell at `first`; it freezes
its gain and is inside a frame for the airtime that the frame control header announces, or, where the header does not decode, for the
longest frame of BAND.  A muted chain loses the frame; a chain inside a frame detects no other. -/
def execPreambleDetection (chain : Fin 3) (first : Nat) (announced : Option Nat) (t : Nat) (s0 : State) : Host.Outcome State Fault Refusal :=
  let s := s0.advance t
  let n := chain.val
  if s.plcLive = false ∨ s.inFrame n = true then .next s
  else if s.plcMuted n = true then .next (s.bump (cPlcRxRxMuted n))
  else
    let r : PlcRx := ⟨first + announced.getD (Config.plcLongest (s.item iPlcBand)), announced.isSome, Config.plcGain n s.now, s.sinceZero first⟩
    .next ((s.setChain n { s.chain n with rx := some r }).bump (cPlcRxPreambles n))

/-- An address that no frame may use (Table 8.3). -/
def reservedAddr (a : Nat) : Bool := decide ((0x4000 ≤ a ∧ a < 0x8000) ∨ (0xC000 ≤ a ∧ a < 0xFFFE))

/-- The address and network filter of R249. -/
def State.plcForUs (s : State) (f : PlcFrame) : Bool :=
  (decide (f.netId = s.item iPlcNetId) || decide (f.typ = 6)) && decide (f.dst = 0xFFFE ∨ f.dst = 0xFFFF) &&
    !reservedAddr f.src && !(f.route.any fun r => decide (0x4000 ≤ r.1))

/-- Copies of one reception (R260). -/
def sameReception (a b : PlcFrame) : Bool := decide (a.src = b.src ∧ a.seq = b.seq ∧ a.epoch = b.epoch ∧ a.fcs = b.fcs)

/-- A filtered copy joins its reception, or opens one. -/
def State.plcCombine (s : State) (h : PlcHeard) : State :=
  let joins (r : PlcReception) : Bool :=
    decide (s.now ≤ r.closes) && (r.copies.any fun x => sameReception x.frame h.frame)
  if s.plc.receptions.any joins = true then
    s.modPlc fun p => { p with receptions := p.receptions.map fun r => if joins r = true then { r with copies := r.copies ++ [h] } else r }
  else
    s.modPlc fun p => { p with receptions := p.receptions ++ [⟨[h], s.now, s.now + ticksOfUs (s.item iPlcCombineWindow)⟩] }

/-! ## Impulsive noise (R247, R248) -/

/-- A sample's magnitude exceeds the preamble's RMS by more than so many dB: m ÷ rms > 10^(dB ÷ 20). -/
def blanks (dB rms m : Nat) : Bool := decide (rms ^ 20 * 10 ^ dB < m ^ 20)

/-- A symbol is blanked: at least one eighth of its samples were set to zero. -/
def symbolBlanked (dB rms : Nat) (samples : List Nat) : Bool :=
  decide (samples ≠ [] ∧ samples.length ≤ 8 * (samples.filter (blanks dB rms)).length)

/-- The longest run of true. -/
def longestRun : List Bool → Nat → Nat → Nat
  | [], _, best => best
  | true :: l, run, best => longestRun l (run + 1) (max best (run + 1))
  | false :: l, _, best => longestRun l 0 best

/-- The blanked symbols of a copy. -/
def State.blanked (s : State) (c : PlcCopy) : List Bool := c.symbols.map (symbolBlanked (s.item iBlankThreshold) c.rms)

/-- A copy is damaged: more than BLANK_SYMBOLS consecutive symbols were blanked. -/
def State.damaged (s : State) (c : PlcCopy) : Bool := decide (s.item iBlankSymbols < longestRun (s.blanked c) 0 0)

/-- The stamp of a frame whose last sample falls now (R259). -/
def State.rxStamp (s : State) : RxStamp := ⟨BitVec.ofNat 48 s.cyc.num, BitVec.ofNat 32 s.sec2020, s.cyc.synth, s.tim.regressed⟩

/-- An ACK that a chain received (R245, R249, R258): it ends the attempt that awaits it; FAILS is cleared and the advice kept for the first
receiver. -/
def State.ackArrived (s : State) (n : Nat) (bs : List Byte) : State :=
  let seq := BitVec.ofNat 16 (fieldAt bs 4 2)
  if fieldAt bs 1 1 / 16 ≠ s.item iPlcNetId ∨ fieldAt bs 2 2 ≠ 0xFFFE then s.bump (cPlcRxNotForUs n)
  else match s.plc.tx.find? fun x => x.awaiting && decide (x.seq = seq ∧ s.plc.epoch = fieldAt bs 1 1 % 16) with
    | none => s
    | some x =>
      let s1 := (s.plcDone x).bump cPlcAckRx
      let s2 := match x.slot with
        | some k => s1.modCtx k fun c => { c with plc := { c.plc with fails := 0 } }
        | none => s1
      let hop := firstReceiver x.dst ((x.used).getD ⟨0, []⟩)
      if hop < 16384 ∧ (s2.ctxAt hop).state ≠ .empty then
        s2.modCtx hop fun c => { c with plc := { c.plc with txMod := fieldAt bs 6 1 % 8, txTm := BitVec.ofNat 24 (fieldAt bs 7 3) } }
      else s2

/-- A frame of a chain that decoded, its FCS verified (R248, R249, R259): the address and network filter, then the combine window. -/
def State.frameArrived (s : State) (n : Nat) (r : PlcRx) (c : PlcCopy) : State :=
  match plcParse c.bytes with
  | none => s.bump (cPlcRxTypeInvalid n)
  | some f =>
    if s.plcForUs f = false then s.bump (cPlcRxNotForUs n)
    else if 8 ≤ f.typ then s.bump (cPlcRxTypeInvalid n)
    else s.plcCombine ⟨n, c, f, s.damaged c, r.sinceZero, s.rxStamp, s.now⟩

/-- COPY_RECEIVED (R247 to R249, R259): a chain's frame ends: blanking, FCS, then the filter; a copy that passes waits for its combine
window.  An ACK is taken at once. -/
def execCopyReceived (chain : Fin 3) (c : PlcCopy) (t : Nat) (s0 : State) : Host.Outcome State Fault Refusal :=
  let s := s0.advance t
  let n := chain.val
  match (s.chain n).rx with
  | none => .next s
  | some r =>
    if s.plcLive = false ∨ r.header = false ∨ s.now < r.ends then .next s
    else
      let d := s.damaged c
      let s1 := (s.setChain n ⟨none, quarterDb c.snr⟩).bumpBy (cPlcRxBlankedSymbols n) ((s.blanked c).filter id).length
      .next (if plcFcsOk c.bytes = false then s1.bump (if d = true then cPlcRxDamagedLost n else cPlcRxFcsFailLink n)
        else
          let s2 := s1.bump (cPlcRxFramesOk n)
          let s3 := if d = true then s2.bump (cPlcRxDamagedRecovered n) else s2
          if fieldAt c.bytes 0 1 % 16 = 1 then s3.ackArrived n c.bytes else s3.frameArrived n r c)

/-- The best of a reception's copies: the highest SNR, the first of equals. -/
def bestCopy (l : List PlcHeard) : Option PlcHeard :=
  l.foldl (fun b x => match b with
    | none => some x
    | some y => if y.copy.snr < x.copy.snr then some x else b) none

/-- Finish a reception (R260 to R262): the other copies are counted, Tollbook is looked up, and the best is delivered and
acknowledged. -/
def State.finishReception (s : State) (r : PlcReception) : State :=
  match bestCopy r.copies with
  | none => s
  | some h =>
    let f := h.frame
    let s1 := (r.copies.erase h).foldl (fun st x => st.bump (cPlcRxCrossCopy x.chain)) s
    if tolled s.plc.tollbook f.netId f.src f.seq f.epoch s.now = true then (s1.bump cPlcLinkDup).plcAckDue h h.last
    else
      let d := s1.plcDeliver h
      if d.2 = true then d.1.plcAckDue h h.last else d.1

/-- ACK_TRANSMIT (R242, R252, R262, R264): the enable of the ACK that falls due rises; it is sent at its instant with its PENDING computed
now, or skipped for a beacon or a frame in transmission. -/
def execAckTransmit (t : Nat) (s0 : State) : Host.Outcome State Fault Refusal :=
  let s := s0.advance t
  match s.plc.acks with
  | [] => .next s
  | a :: rest =>
    let s1 := s.modPlc fun p => { p with acks := rest }
    let air := s.robustAirtime 12
    .next (if s.plcLive = false ∨ s.now + plcLead < a.at_ then s
      else if a.at_ < s.plc.txUntil ∨ s.meetsBeacon a.at_ air = true then s1.bump cPlcAckSkipped
      else ((s1.drive a.phases a.at_ air).bump cPlcAckSent).emit
        (.plcFrame ⟨a.phases, s.item iTxLevel, 0, s.allGroups, s.pdcOf a.phases a.at_, a.at_,
          plcAckBytes (s.plcPending a.dest) a.epoch (s.item iPlcNetId) a.dest a.seq a.advMod a.advTm⟩))

/-- ACK (R245, R258): a chain's frame is an ACK; one whose FCS fails is counted, and a frame of another type is none. -/
def execAck (chain : Fin 3) (bytes : List Byte) (t : Nat) (s0 : State) : Host.Outcome State Fault Refusal :=
  let s := s0.advance t
  let n := chain.val
  match (s.chain n).rx with
  | none => .next s
  | some r =>
    if s.plcLive = false ∨ r.header = false ∨ s.now < r.ends then .next s
    else
      let s1 := s.setChain n { s.chain n with rx := none }
      .next (if plcFcsOk bytes = false then s1.bump (cPlcRxFcsFailLink n)
        else
          let s2 := s1.bump (cPlcRxFramesOk n)
          if fieldAt bytes 0 1 % 16 = 1 then s2.ackArrived n bytes else s2.bump (cPlcRxTypeInvalid n))

/-- ACK_WAIT_EXPIRY (R258): the ACK wait of the frame sent ends without an ACK. -/
def execAckWaitExpiry (t : Nat) (s0 : State) : Host.Outcome State Fault Refusal :=
  let s := s0.advance t
  match s.plc.tx.find? fun x => x.awaiting with
  | none => .next s
  | some x => .next (if s.now < x.waitUntil then s else s.plcAttemptFailed x)

/-- CSMA_BACKOFF_END (R263, R264): the wait of the frame in line ends: it is sent, deferred while a chain it would drive is
inside a frame, or held for an ACK that is due, a frame in transmission or a beacon. -/
def execCsmaBackoffEnd (t : Nat) (s0 : State) : Host.Outcome State Fault Refusal :=
  let s := s0.advance t
  match s.plc.tx with
  | [] => .next s
  | x :: _ =>
    let first := s.now + plcLead
    let due := s.plc.acks.any fun a => decide (a.at_ ≤ first)
    let a := s.attemptOf x
    let md := s.plcModulation x a.1
    let air := Config.plcAirtime (s.item iPlcBand) md.1 md.2 (s.plcBytes x a.1 a.2 first).length
    if s.plcLive = false ∨ x.awaiting = true ∨ s.now < x.readyAt ∨ due = true ∨ s.plcBusy = true ∨ s.meetsBeacon first air = true then .next s
    else if (a.2.any fun p => s.inFrame (p - 1)) = true then
      let s1 := s.bump cPlcCsmaDefer
      let be := min (x.be + 1) (s.itemField iPlcCsma 1 1)
      let r := s1.csmaWait be
      .next (if 8 ≤ x.deferrals + 1 then s1.plcAttemptFailed x
        else r.2.plcSet x { x with deferrals := x.deferrals + 1, be := be, readyAt := r.1 })
    else .next (s.plcTransmit x)

/-- DISC_WINDOW_EXPIRY (R256, R258): the oldest discovery ends, and one that waited for its place begins. -/
def execDiscWindowExpiry (t : Nat) (s0 : State) : Host.Outcome State Fault Refusal :=
  let s := s0.advance t
  match s.plc.discoveries with
  | [] => .next s
  | d :: rest =>
    if s.now < d.2 then .next s
    else
      let s1 := (s.modPlc fun p => { p with discoveries := rest }).modCtx d.1 fun c => { c with plc := { c.plc with discovering := false } }
      .next (match s1.plc.discWaiting with
        | [] => s1
        | k :: ks => (s1.modPlc fun p => { p with discWaiting := ks }).discover k)

/-- TOLLBOOK_EXPIRY (R261, R289): entries whose life has ended leave both Tollbooks. -/
def execTollbookExpiry (t : Nat) (s0 : State) : Host.Outcome State Fault Refusal :=
  let s := s0.advance t
  .next { s with plc := { s.plc with tollbook := s.plc.tollbook.filter fun e => decide (s.now < e.ends) },
                 rfm := { s.rfm with tollbook := s.rfm.tollbook.filter fun e => decide (s.now < e.ends) } }

/-- A beacon's offset in 1/65 536 of a nominal period (Table 8.8). -/
def offsetUnits (offset period : Nat) : Nat := offset * 65536 / period

/-- The stamp of a cycle in seconds since 2020 and whether it is synthetic, as far as they are known (Table 8.8). -/
def State.stampOf (s : State) (cycle : Nat) : Nat × Bool :=
  match s.cyc.stamps.find? fun c => decide (c.cycle = cycle) with
  | some c => (c.sec - epoch2020, c.synth)
  | none => (s.sec2020, s.cyc.synth)

/-- The body of a beacon (Table 8.8): its offset is of a nominal period of its own clock, `next` the cycle of the next periodic beacon. -/
def State.beaconBodyOf (s : State) (b : BeaconDue) (period next : Nat) : List Byte :=
  let st := s.stampOf b.cycle
  beaconBody b.cycle st.1 (offsetUnits b.offset period) st.2 (s.item iIntervalMin) (next - b.cycle) b.command

/-- BEACON_LAUNCH (R97, R264, R266): the enable of a beacon whose cycle has been numbered rises 50 µs before its instant, on all the
phases of COUPLING. -/
def execBeaconLaunch (t : Nat) (s0 : State) : Host.Outcome State Fault Refusal :=
  let s := s0.advance t
  match s.plc.beacons.find? fun b => match b.at_ with
      | some a => decide (a ≤ s.now + plcLead)
      | none => false with
  | none => .next s
  | some b =>
    let first := s.launchAt b
    let phases := s.enables 0 true
    let seq := s.plc.seq
    let s1 := s.modPlc fun p => { p with beacons := p.beacons.erase b, seq := p.seq + 1 }
    let bytes := withCrc32 (plcHeader 2 false none false 0 s.plc.epoch (s.item iPlcNetId) (s.zcDelay phases first) 0xFFFE 0xFFFF seq [] ++
      s.beaconBodyOf b s.periodTicks s.plc.nextBeacon)
    .next (if s.plcLive = false then s1
      else ((s1.drive phases first (s.robustAirtime bytes.length)).bump cPlcBeaconsTx).emit
        (.plcFrame ⟨phases, s.item iTxLevel, 0, s.allGroups, s.pdcOf phases first, first, bytes⟩))

end Sys2Proof.Machine
end

