-- ==== Sys2Proof/Machine/Rfm.lean ====
section
/-!
DEFINITION. The steps of the radio mesh (spec 09), and the close of a combine window of either link layer.
-/

namespace Sys2Proof.Machine

/-- COMBINE_WINDOW_CLOSE (R260, R288): the window of the oldest reception of the power line, or of the mesh, closes, and its best
copy is delivered or found in Tollbook. -/
def execCombineWindowClose (mesh : Bool) (t : Nat) (s0 : State) : Host.Outcome State Fault Refusal :=
  let s := s0.advance t
  if mesh = true then
    match s.rfm.receptions with
    | [] => .next s
    | r :: rest => .next (if s.now < r.closes then s else (s.modRfm fun m => { m with receptions := rest }).finishMesh r)
  else
    match s.plc.receptions with
    | [] => .next s
    | r :: rest => .next (if s.now < r.closes then s else (s.modPlc fun p => { p with receptions := rest }).finishReception r)

/-- A mesh frame type that is received at all (Table 9.4), with TTL in range (Table 9.3). -/
def meshTypeOk (f : MeshFrame) : Bool := decide (f.ttl ≠ 0) && !decide (f.typ = 1 ∨ f.typ = 4 ∨ f.typ = 5 ∨ 10 ≤ f.typ)

/-- Copies of one radio reception (R288). -/
def sameMesh (a b : MeshFrame) : Bool :=
  decide (a.netId = b.netId ∧ a.src = b.src ∧ a.seq = b.seq ∧ a.epoch = b.epoch ∧ a.fcs = b.fcs)

/-- A filtered radio copy joins its reception, or opens one. -/
def State.meshCombine (s : State) (h : MeshHeard) : State :=
  let joins (r : MeshReception) : Bool := decide (s.now ≤ r.closes) && (r.copies.any fun x => sameMesh x.frame h.frame)
  s.modRfm fun m =>
    if m.receptions.any joins = true then
      { m with receptions := m.receptions.map fun r => if joins r = true then { r with copies := r.copies ++ [h] } else r }
    else { m with receptions := m.receptions ++ [⟨[h], s.now + ticksOfUs (s.item iRfCombineWindow)⟩] }

/-- SNR of a radio frame in 0.25 dB (R288): the received level less the demodulator's noise floor, from 0 to 255. -/
def meshSnr (c : MeshCopy) : Nat := min 255 (c.level - 4 * (Config.rfNoise c.radio.val c.chan.val c.start).toInt).toNat

/-- The AFE time of a first preamble sample that the RADIO counter gave. -/
def State.radioTick (s : State) (start : Nat) : Nat := s.rfm.origin + afeOfRadio start

/-- The destination of a frame that the hardware filter accepts (R275). -/
def State.macForUs (s : State) (bs : List Byte) : Bool :=
  decide (fieldAt bs 3 2 = s.item iPanId ∨ fieldAt bs 3 2 = 0xFFFF) && decide (fieldAt bs 5 2 = 0xFFFD ∨ fieldAt bs 5 2 = 0xFFFF)

/-- The NET_ID and address check of R288, with the addresses that no frame may use (Table 8.3). -/
def State.meshForUs (s : State) (f : MeshFrame) : Bool :=
  decide (f.dst = 0xFFFE ∨ f.dst = 0xFFFF) && (decide (f.netId = s.item iRfNetId) || decide (f.typ = 6)) && !reservedAddr f.src

/-! ## Acknowledgements (R275, R285, R294 to R298) -/

/-- An acknowledged frame to a sleepy partner: its timing, its slot's guard and its recovery (R294 to R298). -/
def State.ackTiming (s : State) (x : MeshTx) (start : Nat) (timing : Option MeshTiming) : State :=
  match x.slot with
  | none => s
  | some i =>
    let l := s.radioLink i
    let s1 := match timing with
      | some m => if m.longWindow = true then s.bump cRfmLongWindow else s
      | none => s
    let valid := (timing.map MeshTiming.valid).getD false
    let measured := if valid = true then s1.measure i (start * 125 / 4) ((timing.map MeshTiming.lag).getD 0) else (s1, false)
    match x.work with
    | .slotSet _ true _ => s1.slotReturn i
    | .slotSet _ false _ => s1
    | _ =>
      if x.way = .slotted then (measured.1.modRadio i fun r => { r with gstep := 0, misses := 0 }).bump cRfmSlotHit
      else if l.recovering = true then
        if valid = false then s1.sendSlotSet i else if measured.2 = true then measured.1.slotReturn i else measured.1
      else if l.wake = 1 then measured.1
      else s1

/-- An Enh-Ack of a radio whose FCS verified: the one awaited ends its frame's attempt or slot exchange; one that answered a frame with the
pending bit set leaves its partner's window open.  Any other is filtered (R275). -/
def State.enhAckArrived (s : State) (n : Nat) (bs : List Byte) (start : Nat) : State :=
  match s.rfm.tx.find? fun x => x.awaiting && decide (x.radio = n ∧ x.dsn = fieldAt bs 2 1 ∧ x.dst = fieldAt bs 7 2) with
  | none => s.bump (cRfMacFiltered n)
  | some x =>
    if macKindOk bs 2 = false ∨ s.macForUs bs = false then s.bump (cRfMacFiltered n)
    else
      let s1 := (s.bump (cRfAckRx n)).meshDone x
      let s2 := match x.slot with
        | some i => s1.modRadio i fun l => { l with fails := 0 }
        | none => s1
      let s3 := if x.pending = true then s2.openWindow x.dst else s2
      s3.ackTiming x start (if bs.length = 17 then some (timingAt bs 9) else none)

/-- ENH_ACK (R273, R275, R285, R295 to R297): a frame of a demodulator is an Enh-Ack; `start` is its first preamble sample in RADIO
clocks. -/
def execEnhAck (radio : Fin 2) (bytes : List Byte) (start t : Nat) (s0 : State) : Host.Outcome State Fault Refusal :=
  let s := s0.advance t
  let n := radio.val
  let muted := match s.rfm.tx.find? fun x => x.awaiting && decide (x.radio = n) with
    | some x => s.radioMuted n x.chan (s.radioTick start)
    | none => false
  if s.rfRuns n = false then .next s
  else if muted = true then .next (s.bump (cRfRxMuted n))
  else
    let s1 := s.bump (cRfPreambles n)
    .next (if meshFcsOk bytes = false then s1.bump (cRfFcsFailLink n)
      else (s1.bump (cRfFramesOk n)).enhAckArrived n bytes start)

/-- A frame of a demodulator that decoded, its FCS verified (R275, R288): the hardware filter, the mesh header, the address check, then the
combine window.  An Enh-Ack is taken at once. -/
def State.meshArrived (s : State) (n : Nat) (c : MeshCopy) : State :=
  if fieldAt c.bytes 0 2 % 8 = 2 then s.enhAckArrived n c.bytes c.start
  else if macKindOk c.bytes 1 = false ∨ s.macForUs c.bytes = false then s.bump (cRfMacFiltered n)
  else match meshParse c.bytes with
    | none => s.bump (cRfTypeInvalid n)
    | some f =>
      if s.meshForUs f = false then s.bump (cRfNotForUs n)
      else if meshTypeOk f = false then s.bump (cRfTypeInvalid n)
      else s.meshCombine ⟨c, f, meshSnr c, s.rxStamp⟩

/-- RF_COPY_RECEIVED (R272 to R275, R288): a demodulator's frame ends: muting, the PHR, the FCS, then the filters; a copy that passes waits
for its combine window.  A PHR of another FCS type counts as a failed FCS (DESIGN CHOICE, notes/assumptions/153.md). -/
def execRfCopyReceived (c : MeshCopy) (t : Nat) (s0 : State) : Host.Outcome State Fault Refusal :=
  let s := s0.advance t
  let n := c.radio.val
  if s.rfRuns n = false then .next s
  else if s.radioMuted n c.chan.val (s.radioTick c.start) = true then .next (s.bump (cRfRxMuted n))
  else
    let s1 := s.bump (cRfPreambles n)
    .next (if c.modeSwitch = true then s1.bump (cRfTypeInvalid n)
      else if c.fcsType ≠ 0 ∨ meshFcsOk c.bytes = false then s1.bump (cRfFcsFailLink n)
      else (s1.bump (cRfFramesOk n)).meshArrived n c)

/-- ENH_ACK_TRANSMIT (R276, R277, R279): the Enh-Ack that falls due is sent with its pending bit computed now, or skipped for a
reserved span, a transmission or a duty hold; a pending bit of 1 opens the sender's window. -/
def execEnhAckTransmit (t : Nat) (s0 : State) : Host.Outcome State Fault Refusal :=
  let s := s0.advance t
  match s.rfm.acks with
  | [] => .next s
  | a :: rest =>
    let n := a.radio
    let s1 := s.modRfm fun m => { m with acks := rest }
    let p := s.rfPending a.dest
    let bytes := withCrc32 (macHeader 2 p false a.dsn (s.item iPanId) a.dest 0xFFFD)
    let air := s.rfAirtime n bytes.length
    .next (if s.now + s.rfLead < a.at_ then s
      else if s.rfSends n = false then s1
      else if s.radioBusy n = true ∨ s.meetsSlot n a.at_ air = true ∨ s.meetsRfBeacon n a.at_ air = true then s1.bump (cRfAckSkipped n)
      else if s.dutyFull n = true then (s1.holdDuty n).bump (cRfAckSkipped n)
      else
        let s2 := ((s1.radioDrive n a.chan a.at_ air).bump (cRfAckSent n)).emit
          (s.meshSent n a.chan a.at_ (Config.rfPreamble (s.rfMode n) (s.item iPreambleOctets)) bytes)
        if p = true then s2.openWindow a.dest else s2)

/-- RF_ACK_WAIT_EXPIRY (R278, R285, R296): a unicast or long-preamble frame of a radio gets no Enh-Ack. -/
def execRfAckWaitExpiry (radio : Fin 2) (t : Nat) (s0 : State) : Host.Outcome State Fault Refusal :=
  let s := s0.advance t
  match s.rfm.tx.find? fun x => x.awaiting && decide (x.radio = radio.val ∧ x.way ≠ .slotted ∧ x.waitUntil ≤ s.now) with
  | none => .next s
  | some x => .next (s.meshAttemptFailed x)

/-! ## Sending (R278, R279, R285, R286, R293, R296) -/

/-- The AFE time of the first preamble symbol of a frame whose CCA is now: of a slot exchange Ŵ − g (R293). -/
def State.meshFirst (s : State) (x : MeshTx) : Nat :=
  match x.way, x.slot with
  | .slotted, some i => s.afeOf ((s.exchangeSpan i).1 + 200000)
  | _, _ => s.now + s.rfLead

/-- The frame pending bit of a slot exchange (R293): a further frame of the partner is queued. -/
def State.moreQueued (s : State) (x : MeshTx) : Bool :=
  decide (x.way = .slotted) && s.rfm.tx.any fun y => decide (y.dst = x.dst ∧ y.seq ≠ x.seq) && y.way.floodTtl.isNone

/-- A frame goes out in an open pending window: PENDING_TX counts the first (R277). -/
def State.windowSent (s : State) (addr : Nat) : State :=
  if (s.rfm.windows.any fun w => decide (w.addr = addr ∧ s.now < w.ends ∧ w.used = false)) = true then
    (s.modRfm fun m => { m with windows := m.windows.map fun w => if w.addr = addr then { w with used := true } else w }).bump cRfmPendingTx
  else s

/-- What a frame that has left says to its transaction (Table 10.4); a flood or a broadcast command is then done (R285, R286). -/
def State.meshLeft (s : State) (x y : MeshTx) : State :=
  let s1 := match x.work with
    | .request k => s.txnSent k
    | _ => s
  if x.way.floodTtl.isNone = true then s1.meshSet x y
  else
    let s2 := (s1.meshDone x).bump cRfmFloodsTx
    match x.work with
    | .command k => if (s2.rfm.tx.any fun z => decide (z.work = .command k)) = true then s2 else s2.completeTxn k 0 false
    | .meshAck _ _ => if s2.rfPending x.dst = true then s2.openWindow x.dst else s2
    | _ => s2

/-- A frame goes out: FRAMES_TX, the deadline of its attempt, and the Enh-Ack wait of a unicast (R278, R293). -/
def State.meshTransmit (s : State) (x : MeshTx) : State :=
  let first := s.meshFirst x
  let pend := s.moreQueued x
  let a := s.anchor x first
  let bytes := a.1.meshBytes x a.2 pend
  let pre := s.preambleTicks x
  let air := pre + Config.rfTail (s.rfMode x.radio) bytes.length
  let s1 := ((a.1.radioDrive x.radio x.chan first air).bump (cRfFramesTx x.radio)).emit (s.meshSent x.radio x.chan first pre bytes)
  let s2 := s1.modRfm fun m => { m with originated :=
    (if x.attempt = 0 then [first] else []) ++ m.originated.filter fun o => decide (s.now < o + ticksPerSec) }
  (s2.windowSent x.dst).meshLeft x
    { x with awaiting := true, work := a.2, pending := pend, waitUntil := first + air + Config.rfAckWait (s.rfMode x.radio) }

/-- RFM has originated 1 000 frames in the last second (R289). -/
def State.rateFull (s : State) : Bool := decide (1000 ≤ (s.rfm.originated.filter fun o => decide (s.now < o + ticksPerSec)).length)

/-- A CCA found the channel busy (R278): a further backoff, or an access failure that ends the attempt. -/
def State.ccaBusy (s : State) (x : MeshTx) : State :=
  if s.itemField iRfCsma 2 1 ≤ x.backoffs then (s.bump (cRfCsmaFail x.radio)).meshAttemptFailed x
  else
    let be := min (x.be + 1) (s.itemField iRfCsma 1 1)
    let r := s.rfWait x.radio be
    r.2.meshSet x { x with backoffs := x.backoffs + 1, be := be, readyAt := r.1 }

/-- The channel is busy: its energy in dBm is above CCA_DBM (R278). -/
def State.ccaIsBusy (s : State) (energy : Int) : Bool := decide (s.itemInt iCcaDbm < energy)

/-- A frame of a radio that a CSMA-CA attempt of a kind may send: its backoff has ended. -/
def State.nextMesh (s : State) (n : Nat) (long : Bool) : Option MeshTx :=
  s.rfm.tx.find? fun x => decide (x.radio = n ∧ x.readyAt ≤ s.now) && !x.awaiting &&
    (if long = true then decide (x.way = .longPreamble) else decide (x.way = .unicast) || x.way.floodTtl.isSome)

/-- A frame that waited for a pending window which has ended goes by its partner's wake rules again (R285). -/
def State.windowMissed (s : State) (x : MeshTx) : Bool :=
  match x.slot, x.work with
  | _, .slotSet .. => false
  | some i, _ => (s.radioLink i).sleepy && !s.windowOpen x.dst
  | none, _ => false

/-- A CSMA-CA attempt of a frame: sent, backed off, or left to wait for a reserved span, a beacon, the transmitter, a duty hold or R289's rate. -/
def State.csmaAttempt (s : State) (x : MeshTx) (energy : Int) : State × Bool :=
  let n := x.radio
  let first := s.meshFirst x
  let air := s.meshAirtime x
  if s.rfSends n = false ∨ s.rateFull = true ∨ s.radioBusy n = true ∨ s.meetsSlot n first air = true ∨ s.meetsRfBeacon n first air = true then
    (s, false)
  else if s.dutyFull n = true then (s.holdDuty n, false)
  else if s.ccaIsBusy energy = true then (s.ccaBusy x, false)
  else (s.meshTransmit x, true)

/-- CSMA_CA_ATTEMPT (R278, R279, R293): a backoff of a radio's frame ends with a CCA that measured an energy in dBm. -/
def execCsmaCaAttempt (radio : Fin 2) (energy : Int) (t : Nat) (s0 : State) : Host.Outcome State Fault Refusal :=
  let s := s0.advance t
  match s.nextMesh radio.val false with
  | none => .next s
  | some x =>
    .next (if s.windowMissed x = true then s.meshSet x { x with way := s.wayTo (x.slot.getD 0), attempt := 0 }
      else (s.csmaAttempt x energy).1)

/-- A slot exchange is not sent: it yields to its partner's next slot (R293). -/
def State.slotYield (s : State) (x : MeshTx) (i : Nat) : State :=
  (s.meshSet x { x with readyAt := s.afeOf (s.exchangeSpan i).2 }).bump cRfmSlotYield

/-- The frame of an exchange: one of more than 64 bytes of PSDU follows in the window that a zero-byte frame opens (R293; that such a
frame goes first is the model's reading, DEDUCED, notes/assumptions/27.md). -/
def State.slotFrame (s : State) (x : MeshTx) (i : Nat) : State :=
  if (s.meshBytes x x.work false).length ≤ 64 then s.meshTransmit x
  else
    let k : MeshTx := ⟨.keepAlive, [], some i, x.dst, x.radio, x.chan, s.rfm.seq, s.rfm.seq.toNat % 256, .slotted, 0, 0, 0, 0, false, false, 0⟩
    (s.modRfm fun m => { m with seq := m.seq + 1, tx := k :: m.tx.map fun y => if y = x then { x with way := .window } else y }).meshTransmit k

/-- SLOT_EXCHANGE (R293, R294): the exchange of a slotted partner (its context index) at its instant, with the energy of its CCA in dBm:
sent, yielded, or, where its span does not fit the slot, given up for long preamble and SLOT_SET. -/
def execSlotExchange (slot : Fin 16384) (energy : Int) (t : Nat) (s0 : State) : Host.Outcome State Fault Refusal :=
  let s := s0.advance t
  let i := slot.val
  match s.rfm.tx.find? fun x => decide (x.slot = some i ∧ x.way = .slotted ∧ x.readyAt ≤ s.now) && !x.awaiting with
  | none => .next s
  | some x =>
    let n := x.radio
    let sp := s.exchangeSpan i
    let first := s.afeOf sp.1
    .next (if s.rfSends n = false ∨ s.rateFull = true then s
      else if s.exchangeFits i = false then
        if (s.exchangeN i : Int) - s.slotLeadNs ≤ s.radioNs then (s.sendSlotSet i).toLongPreamble i else s
      else if s.exchangeDue i = false then s
      else if s.ccaIsBusy energy = true ∨ s.radioBusy n = true ∨ s.meetsRfBeacon n first (s.afeOf sp.2 - first) = true then s.slotYield x i
      else if s.dutyFull n = true then (s.holdDuty n).slotYield x i
      else s.slotFrame x i)

/-- SLOT_MISS (R295): a slot exchange gets no Enh-Ack: the guard widens from the second consecutive miss, and a miss at GSTEP 3
moves the partner to long preamble. -/
def execSlotMiss (slot : Fin 16384) (t : Nat) (s0 : State) : Host.Outcome State Fault Refusal :=
  let s := s0.advance t
  let i := slot.val
  match s.rfm.tx.find? fun x => decide (x.slot = some i ∧ x.way = .slotted ∧ x.waitUntil ≤ s.now) && x.awaiting with
  | none => .next s
  | some x =>
    let l := s.radioLink i
    let s1 := ((if x.work = .keepAlive then (s.meshDone x).modRfm fun m =>
        { m with tx := m.tx.map fun y => if y.slot = some i ∧ y.way = .window then { y with way := .slotted } else y }
      else s.meshSet x { x with awaiting := false }).bump cRfmSlotMiss).modRadio i fun r => { r with misses := min 15 (r.misses + 1) }
    .next (if l.gstep = 3 then
        (((s1.modRadio i fun r => { r with wake := 2, recovering := true }).bump cRfmLplMove).raiseInt 0x1A0004 1).toLongPreamble i
      else if 1 ≤ l.misses then (s1.modRadio i fun r => { r with gstep := r.gstep + 1 }).bump cRfmGuardWiden
      else s1)

/-- LONG_PREAMBLE_EXCHANGE (R296): the CSMA-CA of a radio's long-preamble frame ends with a CCA, and the long preamble and the frame
are sent. -/
def execLongPreambleExchange (radio : Fin 2) (energy : Int) (t : Nat) (s0 : State) : Host.Outcome State Fault Refusal :=
  let s := s0.advance t
  match s.nextMesh radio.val true with
  | none => .next s
  | some x =>
    let r := s.csmaAttempt x energy
    .next (if r.2 = true then r.1.bump cRfmLplTx else r.1)

/-- DUTY_HOLD_RELEASE (R279): the rolling window allows a held radio's frames again. -/
def execDutyHoldRelease (radio : Fin 2) (t : Nat) (s0 : State) : Host.Outcome State Fault Refusal :=
  let s := s0.advance t
  .next (if s.dutyFull radio.val = true then s else s.setRadio radio.val { s.radioAt radio.val with holding := false })

/-- The second copy of a beacon, on CHAN_B (R300): its offset is the first's plus its airtime and 2 ms, in RADIO clocks, taken
against the next cycle where it would reach a nominal period. -/
def State.secondBeacon (s : State) (b : BeaconDue) (airtime : Nat) : BeaconDue :=
  let o := b.offset + airtime * 125 / 96 + 64000
  if s.radioPeriod ≤ o then { b with cycle := b.cycle + 1, offset := o - s.radioPeriod, at_ := none }
  else { b with offset := o, at_ := some (s.rfLaunchAt b + airtime + 2 * ticksPerMs) }

/-- A beacon frame (R300): broadcast, DIST 0, TTL RF_BEACON_HOPS + 1, the body of Table 8.8. -/
def State.rfBeaconBytes (s : State) (b : BeaconDue) : List Byte :=
  withCrc32 (macHeader 1 false false (s.rfm.seq.toNat % 256) (s.item iPanId) 0xFFFF 0xFFFD ++
    meshHeader 2 none (s.item iRfBeaconHops + 1) s.plc.epoch (s.item iRfNetId) 0xFFFF s.rfm.seq ++
    s.beaconBodyOf b s.radioPeriod s.rfm.nextBeacon)

/-- RF_BEACON_LAUNCH (R97, R300, R301): a radio's beacon whose cycle has been numbered launches, its enables rising in time for its
instant; its CHAN_A copy queues the CHAN_B copy.  One that a duty hold stops counts late. -/
def execRfBeaconLaunch (radio : Fin 2) (t : Nat) (s0 : State) : Host.Outcome State Fault Refusal :=
  let s := s0.advance t
  let n := radio.val
  match (s.radioAt n).beacons.find? fun b => match b.1.at_ with
      | some a => decide (a ≤ s.now + s.rfLead)
      | none => false with
  | none => .next s
  | some b =>
    let first := s.rfLaunchAt b.1
    let bytes := s.rfBeaconBytes b.1
    let air := s.rfAirtime n bytes.length
    let next := if b.2 = 0 then [(s.secondBeacon b.1 air, 1)] else []
    let s1 := s.setRadio n { s.radioAt n with beacons := (s.radioAt n).beacons.erase b ++ next }
    .next (if s.rfSends n = false then s1
      else if s.dutyFull n = true then ((s1.holdDuty n).raiseInt 0x1A0004 4).bump (cRfBeaconsLate n)
      else (((s1.modRfm fun m => { m with seq := m.seq + 1, originated := first :: m.originated }).radioDrive n b.2 first air).bump
        (cRfBeaconsTx n)).emit (s.meshSent n b.2 first (Config.rfPreamble (s.rfMode n) (s.item iPreambleOctets)) bytes))

end Sys2Proof.Machine
end

