-- ==== Sys2Proof/Machine/Txn.lean ====
section
/-!
DEFINITION. The steps of the transaction engine and of Coachman (spec 10).
-/

namespace Sys2Proof.Machine

/-! ## ISSUE (R311, R312, R315, R319) -/

/-- A request that only the owner may issue: supply and hold commands (R319). -/
def TxnBody.changesState : TxnBody → Bool
  | .supply _ => true
  | .hold _ => true
  | _ => false

/-- The ready request that an issue task of a port takes: the lowest priority number, then the earliest release (R329). -/
def State.nextRequest (s : State) (x : Nat) : Option Request :=
  (s.readyOn x).foldl (fun best r => match best with
    | none => some r
    | some b => if r.priority < b.priority ∨ (r.priority = b.priority ∧ r.release < b.release) then some r else best) none

/-- The job that carries a request to a field node (R319), where Table 13.5 has one. -/
def relayJob (r : Request) : Option JobBody :=
  match r.body with
  | .read o => some (.readMeter r.gmn o r.priority 0)
  | .supply v => some (if v = 1 then .disconnect r.gmn else .reconnect r.gmn 1)
  | _ => none

/-- The number by which a relayed job's reports name its transaction (DESIGN CHOICE, notes/assumptions/36.md). -/
def relayJobId (name : Nat) : BitVec 32 := BitVec.ofNat 32 (0x10000 + name)

/-- Send a RELAY transaction to the field node of its meter; its deadline starts with it. -/
def State.relayRequest (s : State) (t : Nat) (i : Nat) (r : Request) : State :=
  let s1 := (s.bump cTxnRelayed).txnSent t
  match s1.fieldPeer i, relayJob r with
  | some p, some b =>
    let q := s1.peer p.val
    s1.ethSendPeer p (.job (madeJob (.eth q.usePort p) (relayJobId (tagName t (s1.tagAt t).gen)) b))
  | _, _ => s1

/-- Hand a broadcast command to its medium. -/
def State.sendBroadcast (s : State) (t : Nat) (m : Medium) (a : Apdu) : State :=
  let s1 := s.bump cTxnBroadcasts
  if m = .radio then s1.floodAll (.command t) a none 0xFFFF (s1.item iTtlMax)
  else s1.plcQueue (.command t) a none 0xFFFF none

/-- A frame that fits no frame of its medium is refused and reported as a link failure (R250, R285). -/
def State.tooLong (s : State) (t : Nat) (m : Medium) : State :=
  (s.bump (if m = .radio then cRfmTxTooLong else cPlcTxTooLong)).failAttempt t true

/-- An A-XDR length (R123). -/
def axdrBytes (n : Nat) : List Byte := if n < 128 then beBytes 1 n else if n < 256 then 0x81#8 :: beBytes 1 n else 0x82#8 :: beBytes 2 n

/-- A request protected under suite 0 with SC 0x30 (R119, R318): get, set or action (0xC0, 0xC1, 0xC3) becomes glo-get, glo-set or glo-action
(0xC8, 0xC9, 0xCB), its invocation counter big-endian.  The IV's title is the device's own, which the spec does not give (a free value,
notes/assumptions/159.md). -/
def protectedRequest (ek ak plain : List Byte) (ic : BitVec 32) : List Byte :=
  let iv := leBytes 8 Config.clientTitle.toNat ++ beBytes 4 ic.toNat
  let cipher := gcmCrypt ek iv plain
  let body := 0x30#8 :: beBytes 4 ic.toNat ++ cipher ++ (gcmTag ek iv (0x30#8 :: ak) cipher).take 12
  (plain.headD 0 + 8) :: axdrBytes body.length ++ body

/-- The frame's APDU for a meter (R312, R318): protected with the next TX_IC for PARSER 0 or 1; as firmware built it for PARSER 2, and as the
head-end sealed it for a FORWARD context.  `none` where the meter's keys cannot be unwrapped. -/
def State.requestApdu (s : State) (i : Nat) (plain : Apdu) : Option (State × Apdu) :=
  let c := s.ctxAt i
  let s1 := s.modCtx i fun x => { x with txIc := x.txIc + 1 }
  if c.state = .forward then some (s, plain)
  else if s.groupByte c.group 1 = 2 then some (s1, plain)
  else match s.contextKeys c with
    | none => none
    | some (ek, ak) => some (s1, protectedRequest ek ak plain c.txIc)

/-- The hops of the longest path that a frame to a meter may take on the power line. -/
def State.longestPath (s : State) (i : Nat) : Nat := (s.candidates i).foldl (fun a p => max a p.hops.length) 0

/-- A frame with an APDU fits no power-line frame (R245): 2 048 bytes, or what MOD_MASK and the tone maps let G.9903 carry. -/
def State.plcTooLong (s : State) (hops : Nat) (a : Apdu) : Bool :=
  let n := 12 + 2 * hops + a.length + 4
  decide (2048 < n) || !Config.plcFits (s.item iPlcBand) (s.item iModMask) n

/-- A frame with an APDU fits no PSDU (R285): 2 047 bytes with the headers and the FCS. -/
def meshTooLong (a : Apdu) : Bool := decide (2047 < 9 + 12 + a.length + 4)

/-- Hand a meter's frame to its medium. -/
def State.sendTo (s : State) (t i : Nat) (m : Medium) (a : Apdu) : State :=
  if m = .radio then
    let s1 := match s.wayTo i with
      | .flood k => s.markFlood (.request t) k
      | _ => s
    if meshTooLong a = true then s.tooLong t m else s1.meshTo i (.request t) a
  else if s.plcTooLong (s.longestPath i) a = true then s.tooLong t m
  else s.plcQueue (.request t) a (some i) (i % 16384) none

/-- Hand an issued transaction's frame to its medium.  A broadcast carries its own payload (R504); a block of a PUSH is in the request that
firmware builds.  A request whose meter's keys cannot be unwrapped fails as at the link (DESIGN CHOICE, notes/assumptions/159.md), and so does
one of a meter that this node does not hold (R56). -/
def State.sendRequest (s : State) (t : Nat) (r : Request) (m : Medium) (plain : Apdu) : State :=
  match r.body with
  | .broadcast p => if (if m = .radio then meshTooLong p else s.plcTooLong 0 p) = true then s.tooLong t m else s.sendBroadcast t m p
  | _ => match s.reqIndex r with
    | none => s.failAttempt t true
    | some i =>
      if m = .relay then
        (if s.endToEnd (s.ctxAt i).group = true then s.modCtx i fun c => { c with txIc := c.txIc + 1 } else s).relayRequest t i r
      else match s.requestApdu i plain with
        | none => s.failAttempt t true
        | some (s1, a) => s1.sendTo t i m a

/-- Issue a request on a tag (R306, R314, R315). -/
def State.issueOn (s : State) (t : Nat) (r : Request) (plain : Apdu) : State :=
  let n := s.attemptsOf r
  let m := s.nextMedium r n
  let v := s.tagAt t
  let gen := if r.tag.isSome = true then v.gen else nextGen t v.gen
  let r1 := { r with tag := none }
  let s1 := (s.pullRequest r).setTag t
    { v with state := .issued, gen := gen, request := some r1, attempts := n + 1, medium := m.1, flood := 0, deadline := none,
             blocksDone := if r.tag.isSome = true then v.blocksDone else 0 }
  let s2 := if r.tag.isSome = true then s1.bump cTxnRetries else s1.bump cTxnStarted
  let s3 := if m.2 = true then s2.bump cTxnMediumSwitch else s2
  let s4 := match s3.reqIndex r with
    | some i => if r.body.kind ≤ 3 then s3.modCtx i fun c => { c with txn := { c.txn with active := tagName t gen } } else s3
    | none => s3
  s4.sendRequest t r1 m.1 plain

/-- The work of an issue task (R329). -/
def State.issueNext (s : State) (x : Nat) (plain : Apdu) : State :=
  match s.nextRequest x with
  | none => s
  | some r =>
    if s.boot.headEnd = true ∧ s.hwl.assigned = false then s
    else if r.body.changesState = true ∧ s.ownsMeters = false ∧ r.tag = none then
      ((s.pullRequest r).bump cTxnNotOwner).reportOutcome r 0xFFFF 5 false
    else match (match r.tag with
        | some t => some t
        | none => s.freeTag) with
      | none => ({ (s.bump cTxnTagWait) with txn := { s.txn with tagWait := true } }).raiseInt 0x0D0008 1
      | some t => s.issueOn t r plain

/-- ISSUE (R311, R329): the issue task that runs on a port does its work.  `plain` is the request that firmware
builds to the schedule's or job's OBIS code (R318), of which the spec gives no more. -/
def execIssue (port : Fin 4) (plain : Apdu) (t : Nat) (s0 : State) : Host.Outcome State Fault Refusal :=
  let s := s0.advance t
  let x := 12 + port.val
  .next (if s.runningKind x = some (issueKind x) then (s.actedOn x).issueNext x plain else s)

/-! ## Deadlines, retries and quarantine -/

/-- TXN_DEADLINE (R313, R314): the answer deadline of a tag passes. -/
def execTxnDeadline (tag : Fin 1024) (t : Nat) (s0 : State) : Host.Outcome State Fault Refusal :=
  let s := s0.advance t
  .next (match (s.tagAt tag.val).deadline with
    | some d => if (s.tagAt tag.val).state = .issued ∧ d ≤ s.ms then (s.failAttempt tag.val false).topUpIssues else s
    | none => s)

/-- RETRY_RELEASE (R314): retries whose release cycle has been numbered become ready again. -/
def execRetryRelease (t : Nat) (s0 : State) : Host.Outcome State Fault Refusal :=
  let s := s0.advance t
  let f (r : Request) : Request := if r.tag.isSome = true ∧ r.release ≤ s.cyc.num then { r with released := true } else r
  .next (({ s with txn := { s.txn with pending := s.txn.pending.map f } }).topUpIssues)

/-- QUARANTINE_END (R307, R329): a tag that has rested becomes FREE, and an issue that found none may be posted again. -/
def execQuarantineEnd (tag : Fin 1024) (t : Nat) (s0 : State) : Host.Outcome State Fault Refusal :=
  let s := s0.advance t
  let v := s.tagAt tag.val
  if v.state = .quarantine ∧ v.restUntil ≤ s.ms then
    let n := s.txn.freeCount + 1
    let s1 := s.setTag tag.val { Tag.fresh with gen := v.gen, freed := n }
    .next (({ s1 with txn := { s1.txn with freeCount := n, tagWait := false } }).topUpIssues)
  else .next s

/-! ## Schedules (R317) -/

/-- The meters of a schedule's groups, in slot order. -/
def State.scheduleMeters (s : State) (k : Nat) : List (Nat × Context) :=
  let mask := BitVec.ofNat 16 (s.itemField (iSchedule k) 0 2)
  s.ctx.filter fun e => mask.getLsbD e.2.group &&
    (decide (e.2.state = .active) || (decide (e.2.state = .mirror) && s.hwl.partnerRange))

/-- The request of a schedule for its i-th meter of n. -/
def State.scheduleFor (s : State) (k start stamp n i : Nat) (c : Context) : Request :=
  let f (o w : Nat) : Nat := s.itemField (iSchedule k) o w
  ⟨c.gmn, if f 2 1 % 16 = 1 then .read (BitVec.ofNat 48 (f 10 6)) else .clock, f 3 1 % 64,
   start + i * f 8 2 * s.nominalHz / n, false, if f 2 1 / 16 % 2 = 1 then some stamp else none, some k, none, .none, none, none⟩

/-- Queue the requests of a schedule's meters. -/
def State.runSchedule (s : State) (k start stamp : Nat) : State :=
  let ms := s.scheduleMeters k
  let s1 := (List.range ms.length).foldl (fun st i => match ms[i]? with
    | some e => st.scheduleRequest (s.scheduleFor k start stamp ms.length i e.2)
    | none => st) s
  s1.releaseRequests

/-- SCHEDULE_RUN (R317): the schedule task that runs on a core gives its meters their release cycles. -/
def execScheduleRun (t : Nat) (s0 : State) : Host.Outcome State Fault Refusal :=
  let s := s0.advance t
  match s.executorOf 21 with
  | none => .next s
  | some x =>
    let k := (((s.cch.executor x).running.map Task.arg).getD 0) % 32
    let p := Table.get (0, 0) s.txn.schedules k
    .next (if s.boot.headEnd = true ∧ s.hwl.assigned = false then s.actedOn x else (s.actedOn x).runSchedule k p.1 p.2)

/-! ## Coachman's windows (R324, R325) -/

/-- A descriptor that firmware posts has no undefined encoding (Table 10.6). -/
def taskValid (kind priority eclass exec : Nat) : Bool :=
  (taskTable kind).isSome && decide (priority ≤ 63 ∧ eclass ≤ 3 ∧ exec ≤ 4)

/-- TASK_POST (R322, R325): firmware posts a descriptor; the post is accepted or fails. -/
def execTaskPost (kind priority eclass exec : Nat) (coreMask : BitVec 12) (arg : BitVec 32) (t : Nat) (s0 : State) :
    Host.Outcome State Fault Refusal :=
  let s := s0.advance t
  .next (if taskValid kind priority eclass exec = true then (s.post ⟨kind, priority, eclass, exec, coreMask, arg.toNat, s.us⟩).1
    else s.postFailed)

/-- TASK_RETIRE (R324, R325): a running task completes, its executor falls idle, and the next candidate runs. -/
def execTaskRetire (executor : Fin 16) (t : Nat) (s0 : State) : Host.Outcome State Fault Refusal :=
  let s := s0.advance t
  .next (((s.retire executor.val).dispatch).topUpIssues)

end Sys2Proof.Machine
end

