-- ==== Sys2Proof/Machine/JobMeter.lean ====
section
/-!
DEFINITION. What the jobs do that name a meter, a group or a transaction: reads, snapshots, cancel, membership, bundles, the legal jobs
and the context operations (Table 13.5).  Each handler runs after the checks that every job meets.
-/

namespace Sys2Proof.Machine

/-! ## Read meter, cancel -/

/-- Read meter (0x01, R311, R409): a READ transaction is queued; its final report follows the answering record. -/
def State.runReadMeter (s : State) (j : Job) (g : Gmn) (obis : BitVec 48) (priority medium : Nat) : State :=
  if 63 < priority then s.rejectJob j.hdr.ref .format
  else if (s.heldIndex g).isNone = true then s.rejectJob j.hdr.ref .notFound
  else if s.pendingFull = true then s.rejectJob j.hdr.ref .busy
  else s.onAccept j fun st =>
    (st.pushRequest ⟨g, .read obis, priority, st.cyc.num, true, none, none, some j.hdr.ref,
      if medium = 1 then .plc else if medium = 2 then .radio else .none, none, none⟩).topUpIssues

/-- Code of a tag's state (Table 10.1). -/
def TagState.code : TagState → Nat
  | .free => 0
  | .issued => 1
  | .retryWait => 2
  | .quarantine => 3

/-- Cancel (0x06, R320): an outstanding transaction completes CANCELLED; any other is a probe of the tag's state. -/
def State.runCancel (s : State) (j : Job) (tag : BitVec 16) : State :=
  let t := tag.toNat % 1024
  let v := s.tagAt t
  if v.gen = tag.toNat / 1024 ∧ v.outstanding = true then
    s.onAccept j fun st => (st.completeTxn t 3 false).jobDone j.hdr.ref
  else s.onAccept j fun st => st.finishJob j.hdr.ref 0 .none 0 (leBytes 1 v.state.code) .none

/-! ## Meter state read -/

/-- The newest closed periods that fit beside the other parts in 256 data slots. -/
def periodsThatFit (used : Nat) (ps : List ClosedPeriod) : List ClosedPeriod := ps.take ((256 - used) / 10)

/-- Meter state read (0x04): context, legal slot and closed periods; PARTS 0 probes presence. -/
def State.runMeterState (s : State) (j : Job) (g : Gmn) (parts : BitVec 8) : State :=
  match s.heldIndex g with
  | none => s.rejectJob j.hdr.ref .notFound
  | some i => s.onAccept j fun st =>
    let c := if parts.getLsbD 0 = true then some (st.ctxAt i) else none
    let l := if parts.getLsbD 1 = true then some (st.slotAt i) else none
    let used := (if c.isSome = true then 4 else 0) + (if l.isSome = true then 16 else 0)
    let ps := if parts.getLsbD 2 = true then periodsThatFit used (st.closedOf i) else []
    st.finishJob j.hdr.ref 0 .none 0 (parts :: leBytes 1 ps.length) (if parts.toNat % 8 = 0 then .none else .meter c l ps)

/-! ## Snapshot group (R213, R214) -/

/-- The next snapshot identity, which wraps at 16 bits. -/
def State.takeSnapId (s : State) : State := { s with bal := { s.bal with nextSnap := (s.bal.nextSnap + 1) % 65536 } }

/-- Add a pending snapshot. -/
def State.addSnapshot (s : State) (x : Snapshot) : State := { s with bal := { s.bal with snapshots := s.bal.snapshots ++ [x] } }

/-- Queue one launch of the freeze payload on PLC and both radios, a quarter of a nominal period after the crossing of its REF. -/
def State.queueFreeze (s : State) (snapId ref target : Nat) : State :=
  if target ≤ ref then s
  else
    let p : FreezePayload := ⟨snapId, ref, target - ref, s.item iReportSpread⟩
    let s1 := s.queuePlcBeacon ⟨ref, s.periodTicks / 4, some p, none⟩
    [0, 1].foldl (fun (st : State) n => st.queueRfBeacon n 0 ⟨ref, st.radioPeriod / 4, some p, none⟩) s1

/-- Begin a snapshot on this node (R213, R214). -/
def State.beginSnapshot (s : State) (j : Job) (group : Nat) (all : Bool) (lead : Nat) (gmns : List Gmn) : State :=
  let ms := (s.members group).map Prod.fst
  let asked := gmns.map s.heldIndex
  let named := if all = true then ms else (asked.filterMap fun (i : Option Nat) => i).filter fun i => decide (i ∈ ms)
  let strangers := if all = true then 0 else gmns.length - named.length
  let ref := s.cyc.num + 10
  let target := ref + (if lead = 0 then s.item iSnapLead else lead)
  let id := s.bal.nextSnap
  let s1 := ((s.takeSnapId.bumpBy cBalNonmemberNamed strangers).bump cTxnStarted).addSnapshot
    ⟨group, id, target, named.dedup, [], [], [false, false, false], [false, false, false], 0, none, false, some j.hdr.ref⟩
  [0, 10, 20].foldl (fun (st : State) k => st.queueFreeze id (ref + k) target) s1

/-- The FIELD peer that serves a FEED 3 group: the sender its FEEDER_REF names (R213, R319). -/
def State.feederPeer (s : State) (group : Nat) : Option (Fin 32) :=
  (s.peersWith 3).find? fun p => decide ((s.peer p.val).peerId = (s.balGroupItem group).ref)

/-- A FEED 3 group's snapshot goes to its field node, whose records return in bundles. -/
def State.relaySnapshot (s : State) (j : Job) (p : Fin 32) (group : Nat) (all : Bool) (lead : Nat) (gmns : List Gmn) : State :=
  let ms := (s.members group).map Prod.fst
  let named := if all = true then ms else (gmns.filterMap s.heldIndex).filter fun i => decide (i ∈ ms)
  let q := s.peer p.val
  let strangers := if all = true then 0 else gmns.length - named.length
  let s1 := (((s.takeSnapId.bumpBy cBalNonmemberNamed strangers).bump cTxnStarted).bump cTxnRelayed).addSnapshot
    ⟨group, s.bal.nextSnap, 0, named.dedup, [], [], [false, false, false], [false, false, false], 0, none, false, some j.hdr.ref⟩
  s1.ethSendPeer p (.job (madeJob (.eth q.usePort p) (BitVec.ofNat 32 (0x20000 + group))
    (.snapshotGroup group (if all = true then 1 else 0) lead gmns)))

/-- Snapshot group (0x02).  A group that the partner computes (R203) is declined with reason "owner" (DESIGN CHOICE,
notes/assumptions/160.md). -/
def State.runSnapshot (s : State) (j : Job) (group : Nat) (all : Bool) (lead : Nat) (gmns : List Gmn) : State :=
  let feed := (s.balGroupItem group).feed
  if feed = 0 then s.rejectJob j.hdr.ref .notFound
  else if s.computes group = false then s.rejectJob j.hdr.ref .owner
  else if (s.bal.snapshots.any fun x => decide (x.group = group)) = true ∨ 16 ≤ s.bal.snapshots.length then
    s.rejectJob j.hdr.ref .busy
  else if s.boot.headEnd = true ∧ feed = 3 then
    match s.feederPeer group with
    | none => s.rejectJob j.hdr.ref .unreachable
    | some p => s.onAccept j fun st => st.relaySnapshot j p group all lead gmns
  else if s.mainsPresent = false then s.rejectJob j.hdr.ref .noMains
  else s.onAccept j fun st => st.beginSnapshot j group all lead gmns

/-! ## Bundle submit (R134) -/

/-- The frame of a bundle that the host submits: source 7. -/
def State.hostBundle (s : State) (b : RelayBundle) : Frame :=
  ⟨7, none, s.cyc.synth, s.tim.regressed, BitVec.ofNat 48 s.cyc.num, 0, 0, 0, 0, 0, BitVec.ofNat 32 s.sec2020, 0, true, [], .bundle b none⟩

/-- A bundle-submit job waits while its source lacks credits (R19, R403); an oversize bundle does not. -/
def State.bundleWaits (s : State) (b : JobBody) : Bool :=
  match b with
  | .bundleSubmit x => decide (frameLen (s.hostBundle x) ≤ frameLimit 7) && !s.frameFits (s.hostBundle x)
  | _ => false

/-- Bundle submit (0x0B). -/
def State.runBundle (s : State) (j : Job) (b : RelayBundle) : State :=
  if frameLimit 7 < frameLen (s.hostBundle b) then (s.entranceDrop 7 true).rejectJob j.hdr.ref .format
  else s.onAccept j fun st => (st.ingestFrame (st.hostBundle b)).jobDone j.hdr.ref

/-! ## Work on one meter: legal jobs and context operations -/

/-- Hand accepted work on a meter to the node that sequences it: into the meter's lane here, or to the acting primary (R116, R373). -/
def State.sequenceWork (s : State) (i : Nat) (w : SeqWork) (ref : JobRef) : State :=
  if s.sequences i = true then
    match w with
    | .legal g op => s.queueOp (laneOf i) (.legal g op (some ref) false)
    | .context b => s.queueOp (laneOf i) (.job b (some ref) false)
  else
    (s.modHwl fun h => { h with seqAsked := h.seqAsked ++ [⟨w, ref⟩] }).hwlSend (s.partner.getD 0) 0 (.seqReq w)

/-- A job that changes a meter's legal state (0x11 to 0x14): ownership (R63), the meter, and the mismatch mark (R377).  A meter of a FORWARD
context has no legal state here (R22; DEDUCED, notes/assumptions/136.md). -/
def State.runLegal (s : State) (j : Job) (g : Gmn) (op : LegalOp) (owned : Bool) : State :=
  if owned = true ∧ s.ownsMeters = false then s.rejectOwner j.hdr.ref (s.partner.getD 0)
  else match s.heldIndex g with
    | none => s.rejectJob j.hdr.ref .notFound
    | some i =>
      if (s.ctxAt i).state = .forward then s.rejectJob j.hdr.ref .notFound
      else if s.mismatched i = true then s.rejectJob j.hdr.ref .mismatch
      else s.onAccept j fun st => st.sequenceWork i (.legal g op) j.hdr.ref

/-- A slot that may wrap meter keys, usable and with METER, unwraps both values (R438). -/
def State.unwrapsBoth (s : State) (k : Nat) (ek ak : BitVec 192) : Bool :=
  decide (8 ≤ k) && (s.keySlot k).usage.getLsbD 1 && (s.unwrapUnder k ek).isSome && (s.unwrapUnder k ak).isSome

/-- The keys of an enrolment or key change do not unwrap (R438). -/
def State.unwrapFails (s : State) (j : Job) (slot : Nat) : State :=
  (s.note cSecUnwrapFail .security .none 0 slot).rejectJob j.hdr.ref .format

/-- Enrol meter (0x15, R438). -/
def State.runEnrol (s : State) (j : Job) (a : EnrolArgs) : State :=
  if 15 < a.meterGroup ∨ 15 < a.rating ∨ 4 < a.regPhase ∨ 1 < a.radio ∨ 1 < a.chan then s.rejectJob j.hdr.ref .format
  else match s.indexFor a.gmn with
    | none => s.rejectJob j.hdr.ref .notFound
    | some i =>
      if (s.ctxAt i).state ≠ .empty ∧ a.replace = false then s.rejectJob j.hdr.ref .busy
      else if s.unwrapsBoth a.keySlot a.ekWrapped a.akWrapped = false then s.unwrapFails j a.keySlot
      else s.onAccept j fun st => st.sequenceWork i (.context j.body) j.hdr.ref

/-- A context operation on a meter that the node holds (0x0A, 0x16, 0x18). -/
def State.runContextOp (s : State) (j : Job) (g : Gmn) : State :=
  match s.heldIndex g with
  | none => s.rejectJob j.hdr.ref .notFound
  | some i => s.onAccept j fun st => st.sequenceWork i (.context j.body) j.hdr.ref

/-- Balance membership (0x0A, R202). -/
def State.runMembership (s : State) (j : Job) (g : Gmn) (regPhase : Nat) : State :=
  if 4 < regPhase then s.rejectJob j.hdr.ref .format else s.runContextOp j g

/-- Key change (0x17, R438). -/
def State.runKeyChange (s : State) (j : Job) (g : Gmn) (slot : Nat) (ek ak : BitVec 192) : State :=
  match s.heldIndex g with
  | none => s.rejectJob j.hdr.ref .notFound
  | some i =>
    if s.unwrapsBoth slot ek ak = false then s.unwrapFails j slot
    else s.onAccept j fun st => st.sequenceWork i (.context j.body) j.hdr.ref

/-! ## Tariff sets (R179, R180) -/

/-- The values are strictly ascending. -/
def ascends : List Nat → Bool
  | a :: b :: rest => decide (a < b) && ascends (b :: rest)
  | _ => true

/-- Days of a month, the 29th of February included. -/
def monthDays (m : Nat) : Nat := if m = 2 then 29 else if m = 4 ∨ m = 6 ∨ m = 9 ∨ m = 11 then 30 else 31

/-- A date of a season or special day is in range. -/
def dateOk (m d : Nat) : Bool := decide (1 ≤ m ∧ m ≤ 12 ∧ 1 ≤ d ∧ d ≤ monthDays m)

/-- A rate entry keeps Table 6.3: the thresholds in use ascend, the others are zero. -/
def rateOk (r : RateEntry) : Bool :=
  let used := (max 1 r.blocks) - 1
  decide (r.blocks ≤ 8) && ascends (r.thresholds.take used) && (r.thresholds.drop used).all fun x => decide (x = 0)

/-- A day profile keeps Table 6.4 and names rates of the set. -/
def profileOk (rates : Nat) (p : DayProfile) : Bool :=
  decide (p.startRate < rates ∧ p.points.length ≤ 10) && ascends (p.points.map Prod.fst) &&
    p.points.all fun x => decide (1 ≤ x.1 ∧ x.1 ≤ 1439 ∧ x.2 < rates)

/-- A tariff set keeps Tables 6.2 to 6.4 (R180). -/
def tariffOk (x : TariffSet) : Bool :=
  x.formatOk && decide (x.tariffId ≠ 0 ∧ x.activate ≠ 0 ∧ -840 ≤ x.localOffset ∧ x.localOffset ≤ 840) &&
    decide (1 ≤ x.rates.length ∧ x.rates.length ≤ 16 ∧ 1 ≤ x.seasons.length ∧ x.seasons.length ≤ 4) &&
    decide (1 ≤ x.profiles.length ∧ x.profiles.length ≤ 12 ∧ x.special.length ≤ 64 ∧ x.periodDay ≤ 28 ∧ x.periodMinute ≤ 1439) &&
    x.rates.all rateOk && x.profiles.all (profileOk x.rates.length) &&
    (x.seasons.all fun y => dateOk y.1 y.2.1 && decide (y.2.2.length = 7) && y.2.2.all fun p => decide (p < x.profiles.length)) &&
    ascends (x.seasons.map fun y => 100 * y.1 + y.2.1) &&
    x.special.all fun y => dateOk y.2.1 y.2.2.1 && decide (y.2.2.2 < x.profiles.length)

/-- Push tariff set (0x10): ownership, the set's own signature and authority, its content, then Fuller and Troika. -/
def State.runTariff (s : State) (j : Job) (slot : Nat) (x : TariffSet) : State :=
  if s.ownsMeters = false then s.rejectOwner j.hdr.ref (s.partner.getD 0)
  else if x.formatOk = false then s.rejectJob j.hdr.ref .format
  else if s.acceptsCert x.cert = false ∨ x.sigOk = false then s.rejectJob j.hdr.ref .signature
  else if certCarries x.cert .tariff = false then s.rejectJob j.hdr.ref .authority
  else if 15 < slot ∨ tariffOk x = false ∨ ((s.tariffSlot slot).any fun h => decide (x.revision ≤ h.revision)) = true ∨
      x.activate < s.sec2020 + s.item iTariffLead then s.rejectJob j.hdr.ref .format
  else s.onAccept j fun st => st.toFuller (.tariff slot x (some j.hdr.ref))

/-! ## The pair (R378, R380, R363) -/

/-- Indices that a designate job names in a range: its slots, or every marked one. -/
def State.designated (s : State) (range : Nat) (slots : Option (List Nat)) : List Nat :=
  let base := if range = 1 then 16384 else 0
  match slots with
  | none => s.hwl.mismatch.filter fun i => decide ((16384 ≤ i) = (range = 1))
  | some l => l.map fun k => base + k

/-- The true node sends a meter's whole state (R374, R378). -/
def State.sendDesignated (s : State) (i : Nat) : State :=
  let c := s.ctxAt i
  if c.state = .empty then s
  else s.mirrorSync i 2

/-- Designate (0x19, R378): naming no meter, it reports the count of meters marked. -/
def State.runDesignate (s : State) (j : Job) (range : Nat) (trueNode : NodeId) (slots : Option (List Nat)) : State :=
  if ((slots.getD []).any fun k => decide (16383 < k)) = true then s.rejectJob j.hdr.ref .format
  else if slots = some [] then
    s.onAccept j fun st => st.finishJob j.hdr.ref 0 .none 0
      (leBytes 2 (st.hwl.mismatch.filter fun i => decide ((16384 ≤ i) = (range = 1))).length) .none
  else if s.boot.headEnd = false ∨ s.hwl.assigned = false then s.rejectJob j.hdr.ref .notFound
  else if trueNode = s.hwl.nodeId then
    s.onAccept j fun st => ((st.designated range slots).foldl State.sendDesignated st).jobDone j.hdr.ref
  else if s.partner = some trueNode.toNat then
    s.onAccept j fun st => ((st.designated range slots).foldl (fun (u : State) i =>
      let c := u.ctxAt i
      if c.state = .empty then u else u.hwlSend trueNode.toNat 0 (.syncReq c.gmn 2)) st).jobDone j.hdr.ref
  else s.rejectJob j.hdr.ref .format

/-- Claim ownership (0x1A, R380, R382): it clears INTERLOCK_FAULT, and the node claims once its partner has released. -/
def State.runClaim (s : State) (j : Job) : State :=
  s.onAccept j fun st => ((st.modHwl fun h => { h with interlockFault := false }).claim).jobDone j.hdr.ref

/-- Release ownership (0x1B, R380): the owner drives ACT_OWN_OUT low.  In the field role it owns its meters always (R55). -/
def State.runRelease (s : State) (j : Job) : State :=
  s.onAccept j fun st => (if st.boot.headEnd = true then st.releaseOwner else st).jobDone j.hdr.ref

end Sys2Proof.Machine
end

