-- ==== Sys2Proof/Machine/UpdateOps.lean ====
section
/-!
DEFINITION. Update bundles: their verification (Table 16.6), staging (R491), and the chain relay of a bundle (R387 to R389).
-/

namespace Sys2Proof.Machine

/-- The data of a delivery's JOB_RESULT (Table 16.5): NEXT_OFFSET, RESULT and OPEN. -/
def deliveryDetail (next result : Nat) (isOpen : Bool) : List Byte := leBytes 4 next ++ leBytes 1 result ++ leBytes 1 (flagBit isOpen 0)

/-! ## Verification (R480 to R490) -/

/-- The largest LENGTH of a part kind (Table 16.3). -/
def kindLimit : Nat → Nat
  | 1 => 1048576
  | 2 => 2097152
  | 3 => 10485760
  | 4 => 3145728
  | 5 => 4194304
  | 6 => 1048576
  | _ => 67104768

/-- A part's table entry agrees with what the part holds (Table 16.2). -/
def partMatches (p : BundlePart) : Bool :=
  decide (p.length ≠ 0 ∧ p.length % 4 = 0) &&
    (match p.content with
      | .firmware f => decide (1 ≤ p.kind ∧ p.kind ≤ 5 ∧ f.version = p.version)
      | .config c => decide (p.kind = 6 ∧ c.serial = p.version)
      | .meter m => decide (p.kind = 7 ∧ m.version = p.version ∧ m.bytes.length = p.length))

/-- The kinds of a bundle's parts. -/
def bundleKinds (b : UpdateBundle) : List Nat := b.parts.map BundlePart.kind

/-- The layout of R480, with the kinds that the destination allows: 0 a device bundle, 1 to 4 a meter slot. -/
def updateFormatOk (dest : Nat) (b : UpdateBundle) : Bool :=
  b.layoutOk && decide (b.serial ≠ 0) && b.parts.all partMatches &&
    decide ((bundleKinds b).Pairwise (fun x y => x < y)) &&
    (if dest = 0 then (bundleKinds b).all (fun k => decide (1 ≤ k ∧ k ≤ 6)) &&
        (!(bundleKinds b).contains 5 || (bundleKinds b).all fun k => decide (5 ≤ k))
      else decide (bundleKinds b = [7]))

/-- A firmware part is signed for its kind (R482); floors are a check of their own. -/
def State.partSigned (s : State) (p : BundlePart) : Bool :=
  match p.content with
  | .firmware f => partVerifies s.sec.fuses [] p.kind f
  | _ => true

/-- A part is no larger than its kind allows and than its LENGTH. -/
def partSized (p : BundlePart) : Bool :=
  decide (p.length ≤ kindLimit p.kind) &&
    (match p.content with
      | .firmware f => decide (f.bodyLength + 524 ≤ p.length)
      | .config c => decide (c.totalLength ≤ p.length)
      | .meter _ => true)

/-- A part does not fall below its stored floor (R50, R483). -/
def State.partFresh (s : State) (p : BundlePart) : Bool :=
  match p.content with
  | .firmware f => decide (s.updRec.floors.getD (p.kind - 1) 0 ≤ f.secVersion)
  | .config c => decide (s.nor.cfgFloor ≤ c.serial)
  | .meter _ => true

/-- The staging slots as a bundle fills them. -/
def bundleSet (b : UpdateBundle) : FwSet :=
  b.parts.foldl (fun f p => match p.content with
    | .firmware q => setFwSlot f p.kind (some q)
    | _ => f) FwSet.erased

/-- The configuration image of a bundle. -/
def bundleConfig (b : UpdateBundle) : Option ConfigImage :=
  b.parts.findSome? fun p => match p.content with
    | .config c => some c
    | _ => none

/-- STAGED_MASK of a bundle. -/
def bundleMask (b : UpdateBundle) : BitVec 6 := BitVec.ofNat 6 (((bundleKinds b).map fun k => 2 ^ (k - 1)).foldl (· + ·) 0)

/-- The firmware set that ran at the start in progress (R490); none in RECOVERY. -/
def State.runningSet (s : State) : FwSet :=
  if s.boot.recovery = true then .erased else if s.boot.fwBackup = true then s.nor.fwBackup else s.nor.fwActive

/-- The configuration image that ran at the start in progress. -/
def State.runningConfig (s : State) : Option ConfigImage :=
  if s.boot.recovery = true then none else if s.boot.cfgBackup = true then s.nor.cfgBackup else s.nor.cfgActive

/-- Checks 9 to 11 of Table 16.6 on the resulting set of a device bundle; a bundle of kind 5 alone meets none of them. -/
def State.resultingFault (s : State) (b : UpdateBundle) : Option Nat :=
  let kinds := bundleKinds b
  let whole := mergedSet s.runningSet (bundleSet b) (bundleMask b)
  let config := match bundleConfig b with
    | some c => some c
    | none => s.runningConfig
  if kinds = [5] then none
  else if s.boot.recovery = true ∧ ¬([1, 2, 3, 4, 6].all fun k => kinds.contains k) then some 11
  else if compatible whole = false then some 9
  else match config, whole.application with
    | some c, some a => if s.imageGood c a.version = true then none else some 10
    | _, _ => some 10

/-- A probation runs, or a bundle is staged or being copied (R497). -/
def State.stagingBarred (s : State) : Bool := decide (s.updRec.state ≠ .idle)

/-- RESULT of the checks of Table 16.6, in their order; the write to NOR or to Fuller comes after them. -/
def State.bundleResult (s : State) (dest : Nat) (b : UpdateBundle) : Nat :=
  if updateFormatOk dest b = false then 2
  else if s.acceptsCert b.cert = false ∨ b.sigOk = false then 3
  else if certCarries b.cert .update = false then 4
  else if b.deviceType ≠ 0x7480 then 5
  else if b.parts.all s.partSigned = false then 6
  else if b.parts.all partSized = false then 7
  else if b.parts.all s.partFresh = false then 8
  else if dest ≠ 0 then (if ([0, 1, 2, 3] : List Nat).any (fun c => (s.camp c).any fun v => decide (v.args.slot + 1 = dest)) = true then 14 else 0)
  else if b.parts = [] then 1
  else match s.resultingFault b with
    | some r => r
    | none => if s.stagingBarred = true then 12 else 0

/-! ## Staging (R491) -/

/-- A bundle is refused (R489): counted, with an operations event, and a security event for RESULT 3 to 6. -/
def State.bundleRefused (s : State) (result : Nat) : State :=
  let s1 := (s.note cUpdBundlesRefused .operations .none 0 result).raiseInt 0x090004 3
  if 3 ≤ result ∧ result ≤ 6 then s1.event .security 9 5 0 result else s1

/-- SEC_VERSION of the staged parts, by kind (Table 16.7). -/
def pendingOf (f : FwSet) : List Nat := ([1, 2, 3, 4, 5] : List Nat).map fun k => ((fwSlot f k).map FwPart.secVersion).getD 0

/-- The state record of a staged bundle, with the probation parameters of the image in force (R497). -/
def State.stagedRecord (s : State) (b : UpdateBundle) : UpdRecord :=
  { s.updRec with
    state := .staged, stagedMask := bundleMask b, copyStep := 0, baseBackup := s.boot.fwBackup, baseCfgBackup := s.boot.cfgBackup,
    noBase := s.boot.recovery, starts := 0, confirmStarts := s.item iConfirmStarts, deadline := 0,
    confirmDeadline := s.item iConfirmDeadline, healthSoak := s.item iHealthSoak, healthChecks := s.item iHealthChecks,
    pendingFloors := pendingOf (bundleSet b),
    pendingCfgFloor := ((bundleConfig b).map fun c => c.migrated.rollbackFloor).getD 0 }

/-- Program the staging slots of the kinds present. -/
def Nor.staged (n : Nor) (b : UpdateBundle) : Nor :=
  { n with fwStaging := copySlots (bundleSet b) n.fwStaging ((bundleKinds b).filter fun k => decide (k ≤ 5)),
           cfgStaging := match bundleConfig b with
             | some c => some c
             | none => n.cfgStaging }

/-- The staging slots of the kinds present after a read-back that failed: nothing in them verifies. -/
def Nor.unstaged (n : Nor) (b : UpdateBundle) : Nor :=
  { n with fwStaging := copySlots .erased n.fwStaging ((bundleKinds b).filter fun k => decide (k ≤ 5)),
           cfgStaging := if (bundleConfig b).isSome = true then none else n.cfgStaging }

/-- Stage a device bundle that passed every check; a failed read-back refuses it with RESULT 13 after the record went to IDLE. -/
def State.stageDevice (s : State) (b : UpdateBundle) (fails : Bool) : State × Nat :=
  let s1 := s.writeUpd { s.updRec with state := .idle, stagedMask := 0 }
  if fails = true then (({ s1 with nor := s1.nor.unstaged b }).bundleRefused 13, 13)
  else
    let s2 := { s1 with nor := s1.nor.staged b }
    let s3 := ((s2.writeUpd (s2.stagedRecord b)).bump cUpdBundlesVerified).bump cUpdBundlesStaged
    ((s3.event .operations 9 0x82 0 ((bundleMask b).toNat + 2 ^ 8 * b.serial)).raiseInt 0x090004 0, 0)

/-- Stage a meter bundle: Fuller writes its slot header (R501). -/
def State.stageMeter (s : State) (slot : Nat) (b : UpdateBundle) (fails : Bool) : State × Nat :=
  if fails = true then (s.bundleRefused 13, 13)
  else match b.parts.head?.map BundlePart.content with
    | some (.meter m) =>
      let s1 := ({ s with upd := { s.upd with meterSlots := Table.set none s.upd.meterSlots slot (some m) } }).toFuller
        (.meterImage slot (some m))
      let s2 := (s1.bump cUpdBundlesVerified).bump cUpdBundlesStaged
      ((s2.event .operations 9 0x82 0 (2 ^ 6 + 2 ^ 8 * b.serial)).raiseInt 0x090004 0, 0)
    | _ => (s.bundleRefused 2, 2)

/-- Verify the bytes of a complete delivery and stage them (R486, R489). -/
def State.stageBundle (s : State) (dest : Nat) (bytes : List Byte) (fails : Bool) : State × Nat :=
  let x : UpdateBundle := ⟨bytes⟩
  let r := s.bundleResult dest x
  if r = 1 then (s.bump cUpdBundlesVerified, 1)
  else if r = 14 ∧ fails = true then (s.bundleRefused 13, 13)
  else if r ≠ 0 then (s.bundleRefused r, r)
  else if dest = 0 then s.stageDevice x fails else s.stageMeter (dest - 1) x fails

/-! ## Chain relay (R387 to R389) -/

/-- The snake index of a node. -/
def State.snake (s : State) (d : Nat) : Nat :=
  let w := max 1 (s.item iTorusW)
  if d / w % 2 = 0 then d else d / w * w + (w - 1 - d % w)

/-- The node after another in snake order, wrapping past the highest index; the mapping from node to index is its own inverse. -/
def State.snakeNext (s : State) (d : Nat) : Nat := s.snake ((s.snake d + 1) % max 1 (s.item iTorusW * s.item iTorusH))

/-- The next member in snake order after a node; nodes that are no members are skipped and counted, and none is left where the order
comes back to this node. -/
def State.nextInChain (s : State) (d : Nat) : Nat → State × Option NodeId
  | 0 => (s, none)
  | n + 1 =>
    let e := s.snakeNext d
    if e = s.hwl.nodeId.toNat then (s, none)
    else if s.isMember e = true then (s, some (BitVec.ofNat 6 e))
    else (s.note cHwlChainFailed .operations .second e e).nextInChain e n

/-- Change this node's chain. -/
def State.setRelay (s : State) (c : Option Chain) : State := s.modHwl fun h => { h with chain := c }

/-- Bytes of a CHAIN_DATA block. -/
def chainBlock : Nat := 4080

/-- Send the blocks that the window of 16 unacknowledged packets admits; `n` bounds the count. -/
def State.chainPump (s : State) : Nat → State
  | 0 => s
  | n + 1 =>
    match s.hwl.chain with
    | none => s
    | some c => match c.successor with
      | none => s
      | some d =>
        if c.total ≤ c.sentTo ∨ c.ackedTo + 16 * chainBlock ≤ c.sentTo then s
        else
          let data := partOf c.bytes c.sentTo chainBlock
          ((s.setRelay (some { c with sentTo := c.sentTo + data.length })).hwlSend d.toNat 0 (.chainData c.tag c.sentTo c.total data)).chainPump n

/-- A chain that this node heads has ended: CHAIN_DONE, and the final report of its job. -/
def State.chainDone (s : State) (c : Chain) : State :=
  let s1 := (s.setRelay none).raiseInt 0x1C0004 6
  match c.job with
  | none => s1
  | some j => s1.finishJob j 0 .none 0 (deliveryDetail c.total (c.result.getD 0) false) .none

/-- Relay to the next node in snake order after `d`; with none left this node's part is over. -/
def State.chainRelay (s : State) (d : Nat) : State :=
  match s.hwl.chain with
  | none => s
  | some c =>
    let r := s.nextInChain d 64
    match r.2 with
    | none => if c.head = none then r.1.chainDone c else r.1.setRelay none
    | some e => (r.1.setRelay (some { c with successor := some e, sentTo := 0, ackedTo := 0, lastAck := r.1.now })).chainPump 16

/-- The present successor is skipped (R389). -/
def State.chainSkip (s : State) : State :=
  match s.hwl.chain.bind Chain.successor with
  | none => s
  | some d => (s.note cHwlChainFailed .operations .second d.toNat d.toNat).chainRelay d.toNat

/-- This node's own image has been verified with a RESULT: the head relays a bundle whose signature passed, another node one that it
did not refuse; both tell the head and the predecessor (R389, R488). -/
def State.chainVerified (s : State) (result : Nat) : State :=
  match s.hwl.chain with
  | none => s
  | some c =>
    let tell := (match c.head with
      | some h => [h]
      | none => []) ++ (match c.predecessor with
      | some p => if c.head = some p then [] else [p]
      | none => [])
    let s1 := tell.foldl (fun st d => st.hwlSend d.toNat 0 (.chainResult c.tag s.hwl.nodeId result)) s
    let s2 := s1.setRelay (some { c with result := some result })
    if c.head = none then
      (if 2 ≤ result ∧ result ≤ 5 then s2.chainDone { c with result := some result } else s2.chainRelay s.hwl.nodeId.toNat)
    else if result ≤ 1 then s2.chainRelay s.hwl.nodeId.toNat
    else s2.setRelay none

/-- Every other member has reported a result. -/
def State.chainAllHeard (s : State) (c : Chain) : Bool :=
  (List.range 64).all fun d => decide (d = s.hwl.nodeId.toNat) || !s.isMember d || c.results.any fun r => decide (r.1.toNat = d)

end Sys2Proof.Machine
end

