-- ==== Sys2Proof/Machine/JobUpdate.lean ====
section
/-!
DEFINITION. Update delivery and campaign start (jobs 0x24 and 0x25; R484 to R488, R502, R503).
-/

namespace Sys2Proof.Machine

/-! ## Update delivery -/

/-- Replace or drop the delivery of a PART. -/
def State.setDelivery (s : State) (part : Nat) (d : Option Delivery) : State :=
  let rest := s.upd.deliveries.filter fun x => decide (x.part ≠ part)
  { s with upd := { s.upd with deliveries := match d with
      | some v => rest ++ [v]
      | none => rest } }

/-- A block is refused (R486, R509): rejected and counted, with an operations event. -/
def State.rejectBlock (s : State) (j : Job) (reason : Reason) : State :=
  (s.rejectJob j.hdr.ref reason).note cUpdBlockReject .operations .none 0 0

/-- The delivery with an IMAGE_TAG and a PART. -/
def State.deliveryOf (s : State) (part : Nat) (tag : BitVec 32) : Option Delivery :=
  s.upd.deliveries.find? fun d => decide (d.part = part ∧ d.tag = tag)

/-- The head begins its chain once its bundle is complete (R387, R488); the job stays open until the chain ends. -/
def State.headChain (s : State) (d : Delivery) (bytes : List Byte) (result : Nat) (j : JobRef) : State :=
  (s.setRelay (some ⟨d.tag, d.total, bytes, none, none, none, 0, 0, s.now, none, [], some j⟩)).chainVerified result

/-- A delivery takes its next block; the block that completes it is answered after verification and staging (R486). -/
def State.takeBlock (s : State) (j : Job) (d : Delivery) (block : List Byte) (fails : Bool) : State :=
  let s1 := s.bump cUpdBlocksIn
  let bytes := d.bytes ++ block
  if bytes.length < d.total then
    (s1.setDelivery d.part (some { d with bytes := bytes, lastBlock := s.now })).finishJob j.hdr.ref 0 .none 0
      (deliveryDetail bytes.length 0xFF true) .none
  else
    let r := (s1.setDelivery d.part none).stageBundle d.part bytes fails
    if d.chain = true ∧ d.part = 0 ∧ r.1.hwl.assigned = true then r.1.headChain d bytes r.2 j.hdr.ref
    else r.1.finishJob j.hdr.ref 0 .none 0 (deliveryDetail bytes.length r.2 false) .none

/-- Open a delivery (R485): one already open for the PART is abandoned, and a meter slot's header is erased first (R501). -/
def State.openDelivery (s : State) (d : Delivery) : State :=
  let s1 := if (s.delivery d.part).isSome = true then s.note cUpdDeliveryAbandoned .operations .none 0 0 else s
  let s2 := (s1.setDelivery d.part (some d)).bump cUpdDeliveriesOpened
  if d.part = 0 then s2
  else ({ s2 with upd := { s2.upd with meterSlots := Table.set none s2.upd.meterSlots (d.part - 1) none } }).toFuller
    (.meterImage (d.part - 1) none)

/-- Update delivery (0x24, R484 to R486): a probe, an opening block or a later block. -/
def State.runDelivery (s : State) (j : Job) (tag : BitVec 32) (offset total part : Nat) (block : List Byte) (fails : Bool) : State :=
  if 4 < part then s.rejectBlock j .format
  else if block = [] then
    s.onAccept j fun st => match st.deliveryOf part tag with
      | some d => st.finishJob j.hdr.ref 0 .none 0 (deliveryDetail d.next 0xFF true) .none
      | none => st.finishJob j.hdr.ref 0 .none 0 (deliveryDetail 0 0xFF false) .none
  else if j.hdr.envelope.isSome = true then
    if offset ≠ 0 ∨ tag = 0 ∨ total < 48 ∨ (if part = 0 then 33554432 else 67104768) < total ∨ total < block.length then
      s.rejectBlock j .format
    else
      let d : Delivery := ⟨part, tag, total, [], j.hdr.source, j.hdr.chain, s.now⟩
      s.onAccept j fun st => (st.openDelivery d).takeBlock j d block fails
  else match s.deliveryOf part tag with
    | none => s.rejectBlock j .format
    | some d =>
      if d.source ≠ j.hdr.source then s.rejectBlock j .busy
      else if offset ≠ d.next ∨ d.total < offset + block.length then s.rejectBlock j .format
      else s.onAccept j fun st => st.takeBlock j d block fails

/-! ## Campaign start -/

/-- The arguments that a starting campaign needs lie within Table 16.9. -/
def campaignArgsOk (a : CampaignArgs) : Bool :=
  decide (a.slot ≤ 3 ∧ a.media ≠ 0 ∧ a.media.toNat ≤ 3 ∧ 128 ≤ a.blockSize ∧ a.blockSize ≤ 1024 ∧ a.blockSize % 16 = 0 ∧
    a.rounds ≤ 16 ∧ 10 ≤ a.roundGap ∧ a.roundGap ≤ 86400)

/-- A running campaign names the meter. -/
def State.inCampaign (s : State) (g : Gmn) : Bool :=
  ([0, 1, 2, 3] : List Nat).any fun c => (s.camp c).any fun v => v.meters.any fun m => decide (m.gmn = g)

/-- The state in which a named meter starts (Table 16.10), and whether it takes its blocks as PUSH transactions. -/
def State.campMeter (s : State) (a : CampaignArgs) (g : Gmn) : CampMeter :=
  let x : CampState × Bool := match s.heldIndex g with
    | none => (.excluded, false)
    | some i =>
      let c := s.ctxAt i
      if s.inCampaign g = true then (.excluded, false)
      else if c.state = .forward then (.untracked, false)
      else if c.state ≠ .active then (.excluded, false)
      else if c.radio.sleepy = true then (if a.sleepyUnicast = true then (.pending, true) else (.excluded, false))
      else (.pending, false)
  ⟨g, x.1, x.2, [], false, false, 0⟩

/-- The meters that a campaign names (R502): those listed, or every meter of the groups. -/
def State.campNamed (s : State) (a : CampaignArgs) : List Gmn :=
  if a.gmns = [] then
    (s.ctx.filter fun e => decide (e.2.state ≠ .empty) && a.groupMask.getLsbD e.2.group).map fun (e : Nat × Context) => e.2.gmn
  else a.gmns.dedup

/-- Campaign start (0x25, R502): starts, aborts or probes a campaign. -/
def State.runCampaign (s : State) (j : Job) (a : CampaignArgs) : State :=
  if 3 < a.campaign then s.rejectJob j.hdr.ref .format
  else if a.abort = true then
    match s.camp a.campaign with
    | none => s.rejectJob j.hdr.ref .notFound
    | some v => s.onAccept j fun st => ((st.campBroadcast v 3 0).endCampaign a.campaign v).jobDone j.hdr.ref
  else if a.gmns = [] ∧ a.groupMask = 0 then
    s.onAccept j fun st => st.finishJob j.hdr.ref 0 .none 0
      (((st.camp a.campaign).map Campaign.detail).getD (campaignDetail a.campaign 0 [] 0)) .none
  else if (s.camp a.campaign).isSome = true then s.rejectJob j.hdr.ref .busy
  else match campaignArgsOk a, Table.get none s.upd.meterSlots a.slot with
    | true, some img => s.onAccept j fun st =>
      let v : Campaign := ⟨st.upd.nextCampaign, a, img, j.hdr.ref, .announcing, 0, 3, [], st.now, 0, (st.campNamed a).map (st.campMeter a)⟩
      let s1 := (st.setCamp a.campaign (some v)).bump cUpdCampaignsStarted
      ({ s1 with upd := { s1.upd with nextCampaign := (s1.upd.nextCampaign + 1) % 65536 } }).postCamp a.campaign
    | _, _ => s.rejectJob j.hdr.ref .format

end Sys2Proof.Machine
end

