-- ==== Sys2Proof/Machine/JobTake.lean ====
section
/-!
DEFINITION. Taking a job from its source: the descriptor's checks, a remote job, and the handler of each code (R61 to R63, R398 to R408).
-/

namespace Sys2Proof.Machine

/-- Forget coordinate (0x1C, R363): the stored coordinate is cleared, and the node takes an FBC. -/
def State.runForget (s : State) (j : Job) : State :=
  s.onAccept j fun st =>
    let s1 : State := { st with nor := { st.nor with coordinate := none }, hwl := { st.hwl with stored := none } }
    (s1.jobDone j.hdr.ref).requestReset .fbc

/-- The handler of a job. -/
def State.runJob (s : State) (j : Job) : State :=
  match j.body with
  | .readMeter g o p m => s.runReadMeter j g o p m
  | .snapshotGroup g all lead ms => s.runSnapshot j g (decide (all = 1)) lead ms
  | .registerRead o n => s.runRegisterRead j o n
  | .meterStateRead g parts => s.runMeterState j g parts
  | .attest n => s.runAttest j n
  | .cancel t => s.runCancel j t
  | .trigger e src due per m => s.runTrigger j e src due per m
  | .pulse o a b per w => s.runPulse j o a b per w
  | .hostTime a b => s.runHostTime j a b
  | .balanceMembership g _ ph _ => s.runMembership j g ph
  | .bundleSubmit b => s.runBundle j b
  | .pushTariffSet k x => s.runTariff j k x
  | .creditChange g a => s.runLegal j g (.credit a) true
  | .disconnect g => s.runLegal j g (.disconnect false) true
  | .reconnect g f => s.runLegal j g (.reconnect (decide (f = 1)) false) true
  | .legalRelease g m => s.runLegal j g (.release m) false
  | .enrolMeter a => s.runEnrol j a
  | .removeMeter g => s.runContextOp j g
  | .keyChange g k ek ak => s.runKeyChange j g k ek ak
  | .counterReset g _ _ => s.runContextOp j g
  | .designate r n l => s.runDesignate j r n l
  | .claimOwnership => s.runClaim j
  | .releaseOwnership => s.runRelease j
  | .forgetCoordinate => s.runForget j
  | .wallTimeStep w m => s.runWallTimeStep j w m
  | .clearLog l => s.runClearLog j l
  | .openExpertSession d => s.runExpert j d
  | .debugToken x => s.runDebugToken j x
  | .updateDelivery tag o total part b fails => s.runDelivery j tag o total part b fails
  | .campaignStart a => s.runCampaign j a
  | .reset _ c => s.runReset j (decide (c = 1))
  | .bootHeaderWrite h fails => s.runBootHeader j h fails
  | .unknown _ => s.rejectJob j.hdr.ref .unknown

/-- A job for another node (R390): carried to it unchanged in a JOB packet, and open here until its final report comes back.  One that is
larger than a packet's payload is rejected (DESIGN CHOICE, notes/assumptions/178.md). -/
def State.forwardJob (s : State) (j : Job) (d : NodeId) : State :=
  if s.boot.headEnd = false ∨ s.hwl.assigned = false ∨ (s.routeTo d.toNat).reachable = false then s.rejectJob j.hdr.ref .unreachable
  else if payloadMax < (jobBytes j).length then s.rejectJob j.hdr.ref .format
  else
    let s1 := s.openJob j.hdr.ref j.body.code
    let mark (o : OpenJob) : OpenJob := if o.ref = j.hdr.ref then { o with remote := some d } else o
    ({ s1 with host := { s1.host with jobs := s1.host.jobs.map mark } }).hwlSend d.toNat 0 (.job j)

/-- A reset job that names another node of this fabric (R391). -/
def State.resetElsewhere (s : State) (b : JobBody) : Option NodeId :=
  match b with
  | .reset n _ => if s.boot.headEnd = true ∧ s.hwl.assigned = true ∧ n ≠ s.hwl.nodeId then some n else none
  | _ => none

/-- A reset job for another node: this node checks mode and right, and the target the signature (R391, DEDUCED, notes/assumptions/33.md). -/
def State.sendReset (s : State) (j : Job) (d : NodeId) : State :=
  if acceptedIn j.body.code s.pwr.mode s.boot.reduced = false then s.rejectJob j.hdr.ref .mode
  else match s.lackedRight (sourceMaster j.hdr.source) j.body with
    | some r => s.rejectAccess j r.1 r.2
    | none =>
      if (s.routeTo d.toNat).reachable = false then s.rejectJob j.hdr.ref .unreachable
      else ((s.openJob j.hdr.ref j.body.code).hwlSend d.toNat 0 (.reset j)).jobDone j.hdr.ref

/-- The source may submit jobs: an Ethernet peer needs the JOBS role (R421). -/
def State.maySubmit (s : State) : JobSource → Bool
  | .eth _ k => (s.peer k.val).roles.getLsbD 0
  | _ => true

/-- A job's attachment lies where R399 and R404 have it: from a command queue in the attachment area, of which reduced recovery has 768 KiB
(R38); from another source right behind the descriptor, with ATTACH_OFFSET zero over Ethernet and side-band (R404).  Its length is one that the job's table allows. -/
def State.attachOk (s : State) (j : Job) : Bool :=
  let o := j.hdr.attachOffset.toNat
  attachLenOk j && attachWhole j &&
    (match j.hdr.source with
      | .cq _ => decide (o % 64 = 0 ∧ o + j.hdr.attachLen.toNat ≤ if s.boot.reduced = true then 786432 else 16777216)
      | .fabric _ _ => true
      | _ => decide (o = 0))

/-- The node to which this node carries a job (R390); a job that a peer carried here is for this node. -/
def State.carriedTo (s : State) (h : JobHdr) : Option NodeId :=
  match h.source with
  | .fabric _ _ => none
  | _ => h.remoteNode.filter fun d => decide (s.boot.headEnd = false ∨ d ≠ s.hwl.nodeId)

/-- Check a job's descriptor, and run it here, forward it, or reject it (R61, R404, R408).  A bundle that lacks credits and came from a
source that cannot hold it back is rejected as busy. -/
def State.takeJob (s0 : State) (j : Job) : State :=
  let s := s0.bump cPciJobsIn
  if dcrcOk j = false then ((s.bump cPciDcrcFail).raiseInt 0x1D0004 2).rejectJob j.hdr.ref .format
  else if j.hdr.jobId = 0 then s.rejectJob j.hdr.ref .format
  else if jobListed j.body.code = false then s.rejectJob j.hdr.ref .unknown
  else if s.attachOk j = false then (s.bump cPciAttachErr).rejectJob j.hdr.ref .format
  else if s.maySubmit j.hdr.source = false then s.rejectJob j.hdr.ref .access
  else match s.carriedTo j.hdr with
    | some d => s.forwardJob j d
    | none => if jobEncodingOk j.body = false then s.rejectJob j.hdr.ref .format
      else match s.resetElsewhere j.body with
      | some d => s.sendReset j d
      | none => s.acceptAndRun j fun st => if st.bundleWaits j.body = true then st.rejectJob j.hdr.ref .busy else st.runJob j

/-- The interfaces other than the command queues and the side-band take jobs: their queues are open and the mode is no RECOVERY (R63, R396). -/
def State.linksTake (s : State) : Bool := s.host.queuesOpen && decide (s.pwr.mode ≠ .recovery)

/-- A job that waits at the front of its source is taken (R397, R398); a bundle that lacks ingest credits waits on (R19, R403), and intake
passes on from its queue to the next. -/
def State.intake (s : State) (j : Job) : State :=
  match j.hdr.source with
  | .cq n =>
    if s.cqTurn n.val = false then s
    else if s.bundleWaits j.body = true then s.visit n.val
    else
      let q := s.cq n.val
      (((s.visit n.val).setCq n.val { q with head := q.head + 1 }).raiseInt 0x1D0004 3).takeJob j
  | .eth _ _ => if s.linksTake = false ∨ s.bundleWaits j.body = true then s else s.takeJob j
  | .sideband _ => if s.sbOpen = false then s else s.takeJob j
  | .fabric _ _ => if s.linksTake = false then s else s.takeJob j

end Sys2Proof.Machine
end

