-- ==== Sys2Proof/Machine/EthernetOps.lean ====
section
/-!
DEFINITION. The receiving side of the Ethernet ports: filter, dispatch, and the message transport (R414 to R416, R419 to R421).
-/

namespace Sys2Proof.Machine

/-! ## The filter (R415) -/

/-- A port's MAC address. -/
def State.ethMac (s : State) (p : Nat) : Nat := s.itemField (ethItem p iMacAddrEth0) 0 6

/-- An entry of EXACT; an all-zero entry is unused. -/
def State.exactHit (s : State) (p dst : Nat) : Bool :=
  (List.range 8).any fun e => decide (s.itemField (ethItem p iExactEth0) (6 * e) 6 = dst ∧ dst ≠ 0)

/-- The GROUP_HASH bit of a group address. -/
def State.groupHit (s : State) (p dst : Nat) : Bool :=
  decide (dst % 2 = 1) && (s.item (ethItem p iGroupHashEth0)).testBit ((crc32 (leBytes 6 dst)).toNat / 2 ^ 26)

/-- The receive filter passes a destination. -/
def State.filterPass (s : State) (p dst : Nat) : Bool :=
  decide (dst = s.ethMac p) || s.exactHit p dst || s.groupHit p dst ||
    (decide (dst = 0xFFFFFFFFFFFF) && decide (s.item (ethItem p iBcastEth0) = 1))

/-- A frame's tag meets VLAN_ID. -/
def State.vlanOk (s : State) (p : Nat) (vid : Option Nat) : Bool :=
  let want := s.item (ethItem p iVlanIdEth0)
  match vid with
  | none => decide (want = 0)
  | some v => decide (v = want)

/-- The consumer of a frame: PTP, the message layer, or none. -/
inductive EthTarget where
  | ptp | message | none
  deriving DecidableEq, Repr

/-- Dispatch by EtherType. -/
def State.ethTarget (s : State) (p : Nat) (f : EthFrame) : EthTarget :=
  if f.etherType = 0x88F7 ∧ s.item iPtpTransport = 0 then .ptp
  else match f.content with
    | .udp ip port _ =>
      let own := s.item (ethItem p iIpv4Eth0)
      if s.item iPtpTransport = 1 ∧ f.etherType = 0x0800 ∧ (port = 319 ∨ port = 320) ∧ ((own ≠ 0 ∧ ip = own) ∨ ip = 0x810100E0) then .ptp
      else .none
    | _ => if f.etherType = s.item iEthertype then .message else .none

/-! ## Associations (R420) -/

/-- The peer of a source address on a port. -/
def State.peerOf (s : State) (p : Fin 2) (mac : Nat) : Option (Fin 32) :=
  (List.finRange 32).find? fun i =>
    let q := s.peer i.val
    decide (q.peerId ≠ 0 ∧ q.mac = mac ∧ (q.port = p.val ∨ q.port = 2))

/-- A new EPOCH restarts the association: outstanding messages are sent again, renumbered from 0. -/
def State.restartAssoc (s : State) (k epoch : Nat) : State :=
  let a := s.assoc k
  let un := (List.range a.unacked.length).zip a.unacked |>.map fun (e : Nat × SentMessage) =>
    ({ e.2 with seq := e.1, resends := 0, due := s.now + s.rtoTicks } : SentMessage)
  let s1 := s.setAssoc k { a with peerEpoch := some epoch, nextTx := un.length, nextRx := 0, unacked := un, frags := [], ackDue := false }
  un.foldl (fun st m => st.sendFrame k m.seq m.body) s1

/-- A frame's EPOCH: the first one is noted, another restarts the association. -/
def State.noteEpoch (s : State) (k epoch : Nat) : State :=
  match (s.assoc k).peerEpoch with
  | none => s.setAssoc k { s.assoc k with peerEpoch := some epoch }
  | some e => if e = epoch then s else s.restartAssoc k epoch

/-- Messages that an ACK_SEQ acknowledges leave the window, and waiting ones enter it. -/
def State.takeAck (s : State) (k ackSeq : Nat) : State :=
  let a := s.assoc k
  let keep := a.unacked.filter fun m => decide (2 ^ 31 ≤ (ackSeq + 2 ^ 32 - m.seq) % 2 ^ 32)
  let s1 := s.setAssoc k { a with unacked := keep, down := false }
  s1.pumpMessages k a.waiting.length

/-! ## Delivery of a message -/

/-- The frame of a relay bundle that a peer sent: source 5 or 6. -/
def State.peerBundle (s : State) (p : Fin 2) (i : Fin 32) (b : RelayBundle) : Frame :=
  { s.hostBundle b with src := 5 + p.val, body := .bundle b (some (p, i)) }

/-- The port must keep a bundle until it holds credits for it (R102). -/
def State.peerBundleWaits (s : State) (p : Fin 2) (i : Fin 32) (b : RelayBundle) : Bool :=
  decide (frameLen (s.peerBundle p i b) ≤ frameLimit (5 + p.val)) && !s.frameFits (s.peerBundle p i b)

/-- A message cannot be taken yet: its queue is closed, or a bundle lacks ingest credits. -/
def State.messageWaits (s : State) (p : Fin 2) (i : Fin 32) : EthBody → Bool
  | .job j => !s.linksTake || s.bundleWaits j.body
  | .bundle b => s.peerBundleWaits p i b
  | _ => false

/-- The outcome with which a field node's final report closes a RELAY transaction; a rejection closes it NOT_OWNER or NO_ANSWER. -/
def relayOutcome (status reason outcome : Nat) : Nat :=
  if status = 1 then (if reason = 9 then 5 else 1) else outcome

/-- A field node's final report of a relayed job (R319), or of a snapshot that it took for a FEED 3 group (R213).  A snapshot whose job has
ended before any snapshot record of its feeder came was abandoned there (R219, DEDUCED, notes/assumptions/165.md). -/
def State.fieldReport (s : State) (r : Report) : State :=
  match r.body with
  | .jobResult status reason outcome _ =>
    let id := r.jobId.toNat
    if r.final = false then s
    else if 0x10000 ≤ id ∧ id < 0x20000 then
      let t := (id - 0x10000) % 1024
      let v := s.tagAt t
      if v.outstanding = true ∧ v.medium = .relay ∧ tagName t v.gen = id - 0x10000 then s.completeTxn t (relayOutcome status reason outcome) false
      else s.bump cTxnLateDup
    else if 0x20000 ≤ id ∧ id < 0x20400 then
      let g := id - 0x20000
      match s.bal.snapshots.find? fun x => decide (x.group = g) with
      | none => s
      | some x =>
        if status ≠ 1 then (if x.target = 0 then s.abandonSnapshot x s.cycleTime else s)
        else
        let s1 := { s with bal := { s.bal with snapshots := s.bal.snapshots.filter fun y => decide (y.group ≠ g) } }
        match x.job with
        | some j => s1.jobFailed j .unreachable
        | none => s1
    else s
  | _ => s

/-- A complete message is delivered. -/
def State.deliverMessage (s : State) (p : Fin 2) (i : Fin 32) (b : EthBody) : State :=
  match b with
  | .job j => s.takeJob { j with hdr := { j.hdr with source := .eth p i } }
  | .report r => if (s.peer i.val).roles.getLsbD 3 = true then s.fieldReport r else s
  | .bundle x => s.ingestFrame (s.peerBundle p i x)
  | .bundleAck sender seq =>
    { s with eth := { s.eth with heldBundles := s.eth.heldBundles.filter fun h => decide (¬(h.bundle.senderId = sender ∧ h.bundle.seq = seq)) } }
  | .ack => s

/-- The bytes of a message from its fragments. -/
def wholeMessage (n : Nat) (l : List (Nat × List Byte)) : List Byte :=
  (List.range n).flatMap fun k => ((l.find? fun f => decide (f.1 = k)).map Prod.snd).getD []

/-- A numbered message frame: a repeat, one out of order, a fragment, or the frame that completes its message.  Bytes that spell no message of
their KIND, or more than 1 048 576 + 64 of them, are discarded. -/
def State.takeMessage (s : State) (p : Fin 2) (i : Fin 32) (m : EthMsg) : State :=
  let k := assocKey p i
  let a := s.assoc k
  if m.seq ≠ a.nextRx then
    if (m.seq + 2 ^ 32 - a.nextRx) % 2 ^ 32 < 2 ^ 31 then s
    else (s.setAssoc k { a with ackDue := true }).bump (cEthMsgDup p.val)
  else
    let got := if (a.frags.any fun f => decide (f.1 = m.frag)) = true then a.frags else (m.frag, m.part) :: a.frags
    if got.length < m.frags then s.setAssoc k { a with frags := got }
    else if s.messageWaits p i m.body = true then s
    else
      let s1 := s.setAssoc k { a with frags := [], nextRx := (a.nextRx + 1) % 2 ^ 32, ackDue := true }
      if wholeMessage m.frags got = m.body.bytes ∧ m.body.bytes.length ≤ 1048640 then s1.deliverMessage p i m.body
      else s1.bump (cEthFormat p.val)

/-- A message frame's header holds (Table 13.10); reserved bits are ignored (R9). -/
def ethMsgOk (m : EthMsg) (peerId : Nat) : Bool :=
  decide (m.version = 1 ∧ 1 ≤ m.kind ∧ m.kind ≤ 5 ∧ m.kind = m.body.kind ∧ m.length = m.part.length ∧ (m.length ≠ 0 ∨ m.kind = 5) ∧
    m.peerId = peerId ∧ 1 ≤ m.frags ∧ m.frags ≤ 64 ∧ m.frag < m.frags)

/-- The header and body of a received frame, which its CMAC covers. -/
def messageCovered (m : EthMsg) : List Byte :=
  messageHeader m.version m.kind m.length m.peerId m.epoch m.seq m.ackSeq m.frag m.frags m.reserved.toNat ++ m.part

/-- The message layer takes a frame (R419, R420).  Its header is checked before its CMAC (DESIGN CHOICE, notes/assumptions/174.md). -/
def State.messageFrame (s : State) (p : Fin 2) (f : EthFrame) : State :=
  match s.peerOf p f.src with
  | none => s.bump (cEthUnknownPeer p.val)
  | some i => match f.content with
    | .message m =>
      if ethMsgOk m (s.peer i.val).peerId = false then s.bump (cEthFormat p.val)
      else if s.cmacUnder (s.peer i.val).keySlot (messageCovered m) ≠ some m.cmac then
        (s.raiseInt (0x1B0004 + 0x2000 * p.val) 1).note (cEthCmacFail p.val) .security .second i.val i.val
      else
        let k := assocKey p i
        let s1 := (s.noteEpoch k m.epoch).takeAck k m.ackSeq
        if m.body = .ack then s1 else s1.takeMessage p i m
    | _ => s.bump (cEthFormat p.val)

end Sys2Proof.Machine
end

