-- ==== Sys2Proof/Machine/Ethernet.lean ====
section
/-!
DEFINITION. The steps of the Ethernet message layer: a frame received, resends, acknowledgements and held bundles (R414 to R421).
-/

namespace Sys2Proof.Machine

/-- A PTP message of a kind that the slave does not support (R91). -/
def ptpRefused (f : EthFrame) : Bool :=
  match f.content with
  | .ptp k => decide (k ≠ .slave)
  | .udp _ _ k => decide (k ≠ .slave)
  | _ => false

/-- A frame that passed the filter, for its consumer. -/
def State.dispatchFrame (s : State) (p : Fin 2) (f : EthFrame) : State :=
  match s.ethTarget p.val f with
  | .none => s.bump (cEthFiltered p.val)
  | target =>
    if s.item (ethItem p.val iMaxFrameEth0) < f.length then s.bump (cEthTruncatedDiscard p.val)
    else if target = .message then s.messageFrame p f
    else if ptpRefused f = true then s.bump (cEthPtpDiscarded p.val)
    else s

/-- ETHERNET_FRAME (R91, R414 to R416): counted, filtered and dispatched; the PTP messages that the slave takes are rows of their own.  A frame
longer than MAX_FRAME is counted as it arrives. -/
def execEthernetFrame (port : Fin 2) (f : EthFrame) (t : Nat) (s0 : State) : Host.Outcome State Fault Refusal :=
  let s := s0.advance t
  let p := port.val
  if (s.ethPort p).link = false then .next s
  else
    let s0 := s.bump (cEthFramesRx p)
    let s1 := if s.item (ethItem p iMaxFrameEth0) < f.length then s0.bump (cEthOversize p) else s0
    .next (if f.content = .pause then s1.bump (cEthPauseRx p)
      else if f.fcsOk = false then s1.bump (cEthFcsFail p)
      else if s1.filterPass p f.dst = false then s1.bump (cEthFiltered p)
      else if s1.vlanOk p f.vid = false then s1.bump (cEthVlanDrop p)
      else s1.dispatchFrame port f)

/-- The port of a peer's association is up. -/
def State.portUp (s : State) (p : Nat) : Bool := (s.ethPort p).link

/-- One resend of a message: its wait doubles. -/
def State.resend (s : State) (k : Nat) (m : SentMessage) : State :=
  let m1 : SentMessage := { m with resends := m.resends + 1, due := s.now + s.rtoTicks * 2 ^ (m.resends + 1) }
  let a := s.assoc k
  ((s.setAssoc k { a with unacked := a.unacked.map fun x => if x.seq = m.seq then m1 else x }).sendFrame k m.seq m.body).bump
    (cEthMsgResent (k / 32))

/-- The peer is declared down. -/
def State.peerDown (s : State) (k : Nat) : State :=
  let s1 := s.setAssoc k { s.assoc k with down := true }
  (s1.raiseInt (0x1B0004 + 0x2000 * (k / 32)) 0).note (cEthPeerDown (k / 32)) .operations .none (k % 32) (k % 32)

/-- MESSAGE_RESEND (R420): the oldest due message is sent again; after 8 resends the peer is declared down. -/
def execMessageResend (port : Fin 2) (peer : Fin 32) (t : Nat) (s0 : State) : Host.Outcome State Fault Refusal :=
  let s := s0.advance t
  let k := assocKey port peer
  let a := s.assoc k
  .next (if a.down = true then s
    else match a.unacked.find? fun m => decide (m.due ≤ s.now) with
      | none => s
      | some m => if 8 ≤ m.resends then s.peerDown k else s.resend k m)

/-- STANDALONE_ACK (R420): a message not yet acknowledged is acknowledged. -/
def execStandaloneAck (port : Fin 2) (peer : Fin 32) (t : Nat) (s0 : State) : Host.Outcome State Fault Refusal :=
  let s := s0.advance t
  let k := assocKey port peer
  .next (if (s.assoc k).ackDue = true then s.sendFrame k 0 .ack else s)

/-- BUNDLE_RESEND (R421): held bundles that are due go to the head end again, while the association is up. -/
def execBundleResend (t : Nat) (s0 : State) : Host.Outcome State Fault Refusal :=
  let s := s0.advance t
  .next (match s.peersWith 2 with
    | [] => s
    | i :: _ =>
      let k := assocKey (s.peer i.val).usePort i
      if (s.assoc k).down = true ∨ s.portUp (k / 32) = false then s
      else
        let due := s.eth.heldBundles.filter fun h => decide (h.due ≤ s.now)
        let again (h : HeldBundle) : HeldBundle := if h.due ≤ s.now then { h with due := s.now + 2 * ticksPerSec } else h
        let s1 := { s with eth := { s.eth with heldBundles := s.eth.heldBundles.map again } }
        due.foldl (fun st h => match st.sealBundle h.bundle with
          | some b => st.ethSendPeer i (.bundle b)
          | none => st.bump cSecKeyUseRefused) s1)

end Sys2Proof.Machine
end

