-- ==== Sys2Proof/Machine/Fabric.lean ====
section
/-!
DEFINITION. The steps of the fabric's ports, links, coordinates and membership (R355 to R365), and of the ownership interlock
(R379 to R382).
-/

namespace Sys2Proof.Machine

/-! ## Link set-up (R361 to R363) -/

/-- The fields of this node's HELLO on a port (Table 12.4). -/
def State.ownHello (s : State) (p : Nat) : Hello :=
  ⟨s.serial, s.item iFabricId, p, if s.hwl.assigned = true then some (s.hwl.x, s.hwl.y) else none⟩

/-- This node's HELLO with a fresh nonce of 16 random bytes. -/
def State.helloNow (s : State) (p : Nat) : List Byte :=
  helloBytes (s.ownHello p) (leBytes 8 (Config.random s.draws).toNat ++ leBytes 8 (Config.random (s.draws + 1)).toNat)

/-- Send a packet of link set-up: LSEQ 0, for numbering starts when the link is UP (DESIGN CHOICE, notes/assumptions/178.md). -/
def State.sendSetup (s : State) (p : Nat) (b : HwlBody) : State :=
  (((s.drawn).drawn).emit (.hwlPacket p (packetBytes 0 (packetOf b 0 false 0 0 0 0)))).bump (cPortPacketsTx p)

/-- A port sends HELLO (R361). -/
def State.sendHello (s : State) (p : Nat) : State :=
  let bs := s.helloNow p
  (s.setHport p { s.hport p with helloSent := bs }).sendSetup p (.hello bs)

/-- A port answers a HELLO with HELLO_ACK, under the fabric key (R361); a key slot that is not usable makes none (R433). -/
def State.sendHelloAck (s : State) (p : Nat) (peer : List Byte) : State :=
  let bs := s.helloNow p
  match s.cmacUnder (s.item iFabricKeySlot) (peer ++ bs) with
  | none => s.bump cSecKeyUseRefused
  | some mac => s.sendSetup p (.helloAck bs mac)

/-- BLOCK_LOCK (R361): after 64 consecutive valid sync headers a port that trains reaches block lock and sends HELLO. -/
def execBlockLock (port : Fin 4) (valid : Nat) (t : Nat) (s0 : State) : Host.Outcome State Fault Refusal :=
  let s := s0.advance t
  let p := port.val
  let v := s.hport p
  .next (if valid < 64 ∨ s.portEnabled p = false ∨ (v.state ≠ .down ∧ v.state ≠ .training) then s
    else ((s.setHport p { v with blockLock := true }).portState p .hello 0).sendHello p)

/-- LOCK_LOSS (R361): a port without block lock for 100 µs, since an AFE time, is DOWN and retrains at once; a loss before the link was UP
is a failed training. -/
def execLockLoss (port : Fin 4) (since : Nat) (t : Nat) (s0 : State) : Host.Outcome State Fault Refusal :=
  let s := s0.advance t
  let p := port.val
  let v := s.hport p
  .next (if s.portEnabled p = false ∨ v.blockLock = false ∨ s.now < since + 2458 then s
    else
      let s1 := (s.setHport p { v.cleared with retrainAt := v.retrainAt }).bump (cPortLinkDown p)
      if v.state = .up then (s1.portState p .down 0).retrain p
      else if v.state = .isolated ∨ v.state = .failed then s1
      else (s1.portState p .down 0).trainingFailed p)

/-- PORT_RETRAIN_TIMER (R361): 60 s after isolation or failure a port retrains. -/
def execPortRetrainTimer (port : Fin 4) (t : Nat) (s0 : State) : Host.Outcome State Fault Refusal :=
  let s := s0.advance t
  match (s.hport port.val).retrainAt with
  | none => .next s
  | some d => .next (if s.now < d then s else s.retrain port.val)

/-- A neighbour's HELLO passes the checks that need no key: FABRIC_ID and the wiring (R361); the isolation cause otherwise. -/
def State.helloCause (s : State) (p : Nat) (h : Hello) : Option Nat :=
  if h.fabricId ≠ s.item iFabricId then some 1 else if h.port ≠ oppositePort p then some 3 else none

/-- The neighbour becomes known from its HELLO. -/
def State.noteNeighbour (s : State) (p : Nat) (h : Hello) : State :=
  s.setHport p { s.hport p with peerSerial := some h.serial, peerPort := h.port,
                                peer := h.coord.map fun c => BitVec.ofNat 6 (s.nodeAt c) }

/-- Isolate a port for a cause found in a HELLO, with its counter. -/
def State.refuseHello (s : State) (p cause : Nat) : State :=
  let s1 := s.isolatePort p cause
  if cause = 1 then s1.note (cPortForeign p) .operations .second (p + 1) p else s1

/-- A packet of link set-up reaches a port that has sent HELLO: its LCRC and its form, then what it brings (R356, R361). -/
def State.setupReceive (s : State) (l : HwlHeader) (typ : Nat) (deliver : State → State) : State :=
  let p := l.port.val
  if (s.hport p).state ≠ .hello then s
  else if l.lcrcOk = false then s.bump (cPortLcrcFail p)
  else if packetFits l typ = false then (s.bump (cPortPacketsRx p)).bump (cPortTypeInvalid p)
  else deliver (s.bump (cPortPacketsRx p))

/-- HELLO (R361): answered with HELLO_ACK, or the port is isolated. -/
def execHello (l : HwlHeader) (t : Nat) (s0 : State) : Host.Outcome State Fault Refusal :=
  let s := s0.advance t
  let p := l.port.val
  .next (s.setupReceive l 0x01 fun st =>
    match st.helloCause p (helloOf l.payload) with
    | some c => st.refuseHello p c
    | none => (st.noteNeighbour p (helloOf l.payload)).sendHelloAck p l.payload)

/-- Every VC and class holds the credits of its share when a link comes up (R358). -/
def fullCredits : Table Nat :=
  (List.range 4).foldl (fun tb v => (List.range 3).foldl (fun u c => Table.set 0 u (creditKey v c) (shareUnits v)) tb) []

/-- The coordinates of two nodes that a link joins are one step apart in its direction (R363). -/
def State.coordsAgree (s : State) (p : Nat) (c : Option (Nat × Nat)) : Bool :=
  match c with
  | none => true
  | some xy => !s.hwl.assigned || decide (xy = s.stepTo s.hwl.x s.hwl.y p)

/-- The CMAC of a HELLO_ACK verifies: over the HELLO that this port sent, followed by the neighbour's (R361). -/
def State.helloAckOk (s : State) (p : Nat) (bs : List Byte) : Bool :=
  match s.cmacUnder (s.item iFabricKeySlot) ((s.hport p).helloSent ++ bs.take 48) with
  | none => false
  | some mac => mac == bs.drop 48

/-- A verified link is UP: credits of every share, sequences from 0, an empty replay buffer; where coordinates conflict the port is
isolated (R358, R361, R363). -/
def State.linkUp (s : State) (p : Nat) (h : Hello) : State :=
  let s2 := s.noteNeighbour p h
  let s3 := s2.setHport p { s2.hport p with credits := fullCredits, nextTx := 0, expectRx := 0, replay := [], naks := 0 }
  let s4 := (s3.modHwl fun x => { x with firstUp := some (x.firstUp.getD s3.now) }).portState p .up 0
  if s4.coordsAgree p h.coord = true then s4.hwlPump p (s4.hport p).waiting.length
  else (((s4.isolatePort p 4).modHwl fun x => { x with conflict := true }).raiseInt 0x1C0004 5).reportOut (.alarm 6 0 0)

/-- HELLO_ACK (R361, R363): with its CMAC verified the link is UP; otherwise, or where coordinates conflict, the port is
isolated. -/
def execHelloAck (l : HwlHeader) (t : Nat) (s0 : State) : Host.Outcome State Fault Refusal :=
  let s := s0.advance t
  let p := l.port.val
  .next (s.setupReceive l 0x02 fun st =>
    match st.helloCause p (helloOf l.payload) with
    | some c => st.refuseHello p c
    | none =>
      if st.helloAckOk p l.payload = false then (st.isolatePort p 2).note (cPortHelloFail p) .security .second (p + 1) p
      else st.linkUp p (helloOf l.payload))

/-- The coordinate that R362 gives the node now. -/
def State.coordinate (s : State) : Option (Nat × Nat) :=
  match s.hwl.stored with
  | some c => some c
  | none =>
    match (List.range 4).findSome? fun p => if (s.hport p).state = .up then (s.hport p).peer.map fun d => (p, d.toNat) else none with
    | some (p, d) =>
      let w := max 1 (s.item iTorusW)
      some (s.stepTo (d % w) (d / w) (oppositePort p))
    | none =>
      match s.hwl.firstUp with
      | some u => if s.item iOrigin = 1 ∧ u + 2 * ticksPerSec ≤ s.now then some (0, 0) else none
      | none => none

/-- COORDINATE_ASSIGN (R362, R56): the node takes its coordinate and ID; credits of sources 5 to 9 open with it. -/
def execCoordinateAssign (t : Nat) (s0 : State) : Host.Outcome State Fault Refusal :=
  let s := s0.advance t
  if s.boot.headEnd = false ∨ s.hwl.assigned = true ∨ s.hwl.conflict = true ∨ s.boot.locked = false then .next s
  else match s.coordinate with
    | none => .next s
    | some c =>
      let id := s.nodeAt c
      let s1 := s.modHwl fun h => { h with assigned := true, nodeId := BitVec.ofNat 6 id, x := c.1, y := c.2, stored := some c, assignedAt := s.now,
                                           announceAt := s.now + ticksPerSec }
      let s2 := { s1 with nor := { s1.nor with coordinate := some (s.item iFabricId, s.item iTorusW, s.item iTorusH, c.1, c.2) } }
      .next (((s2.event .operations 28 0x81 0 (id + 2 ^ 8 * c.1 + 2 ^ 16 * c.2)).recomputeRoutes).announce)

/-! ## Membership (R364) -/

/-- ANNOUNCE_TIMER (R364): every 1 s from the assignment of its ID the node floods an ANNOUNCE. -/
def execAnnounceTimer (t : Nat) (s0 : State) : Host.Outcome State Fault Refusal :=
  let s := s0.advance t
  .next (if s.boot.headEnd = false ∨ s.hwl.assigned = false ∨ s.now < s.hwl.announceAt then s
    else (s.modHwl fun h => { h with announceAt := s.now + ticksPerSec }).announce)

/-- Two serials claim one node ID (R363): the higher stops using it, isolates its ports and forgets its stored coordinate. -/
def State.idConflict (s : State) (serial : BitVec 64) : State :=
  if s.serial.toNat ≤ serial.toNat then s
  else
    let s1 := s.modHwl fun h => { h with assigned := false, stored := none, conflict := true }
    let s2 := { s1 with nor := { s1.nor with coordinate := none } }
    ((((List.range 4).filter fun p => s2.portEnabled p).foldl (fun st p => st.isolatePort p 4) s2).raiseInt 0x1C0004 5).reportOut (.alarm 6 0 0)

/-- A node's ANNOUNCE that is newer than the last: membership, routes, pairing and forwarding. -/
def State.heardAnnounce (s : State) (l : HwlHeader) : State :=
  let serial : BitVec 64 := BitVec.ofNat 64 (fieldAt l.payload 0 8)
  let node : NodeId := BitVec.ofNat 6 (fieldAt l.payload 8 1)
  let ports := (List.range 4).map fun p => fieldAt l.payload 9 1 / 4 ^ p % 4
  let d := node.toNat
  let old := Table.get none s.hwl.members d
  let newer := match old with
    | none => true
    | some m => decide (0 < (l.tag - m.annSeq).toNat ∧ (l.tag - m.annSeq).toNat < 2 ^ 31) || !m.member
  if s.hwl.assigned = true ∧ node = s.hwl.nodeId then (if serial = s.serial then s else s.idConflict serial)
  else if newer = false then s
  else
    let s1 := (s.modHwl fun h => { h with members := Table.set none h.members d (some ⟨serial, l.tag, s.now, ports, true⟩) }).bump cHwlAnnounces
    let s2 := s1.recomputeRoutes
    let fwd := (List.range 4).filter fun p => decide (p ≠ l.port.val) && decide ((s2.hport p).state = .up)
    let s3 := if 16 < l.hops + 1 then s2.note cHwlRouteDrop .operations .second 0 d
      else fwd.foldl (fun st p => st.hwlQueue p ⟨l.typ, l.vc, 0, true, l.dst, l.src, l.hops + 1, l.tag, l.payload⟩) s2
    if s3.partner = some d ∧ s3.hwl.paired = false ∧ s3.hwl.pairSent = false then s3.sendPair false false else s3

/-- ANNOUNCE (R364): received, judged and forwarded. -/
def execAnnounce (l : HwlHeader) (t : Nat) (s0 : State) : Host.Outcome State Fault Refusal :=
  let s := s0.advance t
  .next (s.hwlReceive l 0x03 fun st => st.heardAnnounce l)

/-- MEMBER_EXPIRY (R364): a node from which no ANNOUNCE came for 3 s is no member, and routes change. -/
def execMemberExpiry (node : NodeId) (t : Nat) (s0 : State) : Host.Outcome State Fault Refusal :=
  let s := s0.advance t
  match Table.get none s.hwl.members node.toNat with
  | none => .next s
  | some m =>
    .next (if m.member = false ∨ s.now < m.heard + 3 * ticksPerSec then s
      else (s.modHwl fun h => { h with members := Table.set none h.members node.toNat (some { m with member := false }) }).recomputeRoutes)

/-! ## Link words (R357 to R359) -/

/-- CREDIT (R357): units for a VC and class; waiting packets go. -/
def execCredit (port : Fin 4) (vc : Fin 4) (cls : Fin 3) (units : Nat) (t : Nat) (s0 : State) : Host.Outcome State Fault Refusal :=
  let s := s0.advance t
  let v := s.hport port.val
  let k := creditKey vc.val cls.val
  .next (if v.state ≠ .up then s
    else
      let s1 := s.setHport port.val { v with credits := Table.set 0 v.credits k (min (shareUnits vc.val) (Table.get 0 v.credits k + units)) }
      s1.hwlPump port.val (s1.hport port.val).waiting.length)

/-- Replay-buffer entries after an LSEQ. -/
def after (l : List (BitVec 16 × HwlPacket)) (lseq : BitVec 16) : List (BitVec 16 × HwlPacket) :=
  l.filter fun e => decide ((lseq - e.1).toNat ≥ 2 ^ 15)

/-- LINK_WORD_ACK (R359): entries up to the LSEQ leave the replay buffer. -/
def execLinkWordAck (port : Fin 4) (lseq : BitVec 16) (t : Nat) (s0 : State) : Host.Outcome State Fault Refusal :=
  let s := s0.advance t
  let v := s.hport port.val
  .next (if v.state ≠ .up then s
    else
      let s1 := s.setHport port.val { v with replay := after v.replay lseq }
      s1.hwlPump port.val (s1.hport port.val).waiting.length)

/-- LINK_WORD_NAK (R359): the sender replays from the named packet, or retrains at the eighth NAK for the same LSEQ. -/
def execLinkWordNak (port : Fin 4) (lseq : BitVec 16) (t : Nat) (s0 : State) : Host.Outcome State Fault Refusal :=
  let s := s0.advance t
  let p := port.val
  let v := s.hport p
  if v.state ≠ .up then .next s
  else
    let n := if v.nakFor = lseq then v.naks + 1 else 1
    let kept := after v.replay (lseq - 1)
    let s1 := (s.setHport p { v with naks := n, nakFor := lseq, replay := kept }).bump (cPortNakRx p)
    .next (if 8 ≤ n then s1.retrain p
      else kept.foldl (fun st e => (st.emit (.hwlPacket p (packetBytes e.1 e.2))).bump (cPortReplays p)) s1)

/-- LINK_ACK_TIMER (R359): 2 µs after the oldest packet that no ACK names, an ACK for the packets received in order. -/
def execLinkAckTimer (port : Fin 4) (t : Nat) (s0 : State) : Host.Outcome State Fault Refusal :=
  let s := s0.advance t
  let v := s.hport port.val
  .next (match v.ackSince with
    | none => s
    | some d => if v.state ≠ .up ∨ s.now < d + 49 then s else s.sendAckWord port.val)

/-! ## The interlock (R379 to R382) -/

/-- ACT_OWN_IN_CHANGE (R379, R380, R382): a stable level: a claim is contested, an owner's wire is wrong, or a claim becomes
possible. -/
def execActOwnInChange (high : Bool) (t : Nat) (s0 : State) : Host.Outcome State Fault Refusal :=
  let s := (s0.advance t)
  if s.boot.headEnd = false then .next s
  else
    let s1 := s.modHwl fun h => { h with inHigh := high }
    .next (if high = true then
        if s.hwl.owner = true then s1.interlockFails
        else if s.hwl.claiming.isSome = true then
          if s.hwl.nodeId.toNat % 2 = 1 then
            (s1.modHwl fun h => { h with outHigh := false, claiming := none,
                                         backoffUntil := some (s.now + aonTicks (10 * s.item iArbWindow)) }).note cHwlArbLost .operations .second 0 0
          else s1.modHwl fun h => { h with claiming := some s.now }
        else s1
      else if s.hwl.claiming.isSome = true then s1.modHwl fun h => { h with claiming := some s.now }
      else if s.hwl.partnerLost = true then s1.claim else s1)

/-- ARB_WINDOW_EXPIRY (R379, R382): ACT_OWN_IN low for a full window makes the claiming node owner; the even node of a pairing
then checks the wiring. -/
def execArbWindowExpiry (t : Nat) (s0 : State) : Host.Outcome State Fault Refusal :=
  let s := s0.advance t
  match s.hwl.claiming with
  | none => .next s
  | some c =>
    if s.hwl.inHigh = true ∨ s.now < c + aonTicks (s.item iArbWindow) then .next s
    else
      let s1 := ((s.modHwl fun h => { h with owner := true, claiming := none }).event .security 28 0x82 0 (Config.ownerCause true).toNat).raiseInt
        0x1C0004 2
      .next (if s.hwl.paired = true ∧ s.hwl.nodeId.toNat % 2 = 0 ∧ s.hwl.checkWiring = true then
          (s1.modHwl fun h => { h with queries := 1, queriedAt := s1.now }).sendPair true false
        else s1)

/-- ARB_BACKOFF_EXPIRY (R379): the node may claim again, where a case of R380 holds. -/
def execArbBackoffExpiry (t : Nat) (s0 : State) : Host.Outcome State Fault Refusal :=
  let s := s0.advance t
  match s.hwl.backoffUntil with
  | none => .next s
  | some d =>
    if s.now < d then .next s
    else
      let s1 := s.modHwl fun h => { h with backoffUntil := none }
      .next (if s1.claimDue = true then s1.claim else s1)

/-- When an unanswered interlock query is sent again: after 10 ms, up to three times, and then every 1 s (R382). -/
def Hwl.queryAgain (h : Hwl) : Nat := h.queriedAt + (if h.queries ≤ 3 then 10 * ticksPerMs else ticksPerSec)

/-- QUERY_RETRY (R382): an unanswered interlock query is sent again while pairing holds. -/
def execQueryRetry (t : Nat) (s0 : State) : Host.Outcome State Fault Refusal :=
  let s := s0.advance t
  .next (if s.hwl.paired = true ∧ s.hwl.checkWiring = true ∧ 0 < s.hwl.queries ∧ s.hwl.queryAgain ≤ s.now then
      (s.modHwl fun h => { h with queries := h.queries + 1, queriedAt := s.now }).sendPair true false
    else s)

end Sys2Proof.Machine
end

