-- ==== Sys2Proof/Machine/FabricJobs.lean ====
section
/-!
DEFINITION. Jobs, reports and resets that come from other nodes, and the packets of the chain relay (R387 to R391).
-/

namespace Sys2Proof.Machine

/-! ## Jobs and resets from peers -/

/-- The payload of a packet is a job's bytes. -/
def HwlHeader.carries (l : HwlHeader) (j : Job) : Bool := decide (l.payload = padTo4 (jobBytes j))

/-- JOB (R390): taken as a job from a Herwyn peer, with the rights of the arriving port. -/
def execJob (l : HwlHeader) (j : Job) (t : Nat) (s0 : State) : Host.Outcome State Fault Refusal :=
  let s := s0.advance t
  .next (s.hwlReceive l 0x23 fun st =>
    if HwlHeader.carries l j = false then st.bump (cPortTypeInvalid l.port.val)
    else if st.linksTake = false then st else st.takeJob { j with hdr := { j.hdr with source := .fabric l.port l.src } })

/-- REPORT (R390): passed to the host that submitted the job; the final one closes it. -/
def execReport (l : HwlHeader) (r : Report) (t : Nat) (s0 : State) : Host.Outcome State Fault Refusal :=
  let s := s0.advance t
  .next (s.hwlReceive l 0x24 fun st =>
    if l.payload ≠ (reportBytes r).take payloadMax then st.bump (cPortTypeInvalid l.port.val)
    else match st.host.jobs.find? fun o => decide (o.remote = some l.src ∧ o.ref.jobId = r.jobId) with
    | none => st
    | some o =>
      let s1 := st.route (st.jobDest o.ref) r
      if r.final = true then s1.closeJob o.ref else s1)

/-- A RESET packet meets every check (R391): a reset job that names this node, signed for it under UPDATE. -/
def State.resetPacketOk (s : State) (j : Job) : Bool :=
  (match j.body with
    | .reset n _ => s.hwl.assigned && decide (n = s.hwl.nodeId)
    | _ => false) && decide (j.hdr.envelope.isSome = true ∧ s.signedReason j = none)

/-- RESET_PACKET (R391): an FBC after R350's steps and LEAVE, or discarded with a security event. -/
def execResetPacket (l : HwlHeader) (j : Job) (t : Nat) (s0 : State) : Host.Outcome State Fault Refusal :=
  let s := s0.advance t
  .next (s.hwlReceive l 0x25 fun st =>
    if HwlHeader.carries l j = true ∧ st.resetPacketOk j = true then (st.enterNonce j).requestReset .fbc
    else st.event .security 28 (Config.openEventCode 5).toNat 0 l.src.toNat)

/-! ## Chain relay -/

/-- A chain that this node may begin as a receiver: none runs, or the one held has been received whole. -/
def State.chainFree (s : State) : Bool :=
  match s.hwl.chain with
  | none => true
  | some c => decide (c.head ≠ none) && c.result.isSome

/-- The block of an image reaches its place, and completes the image or not. -/
def State.takeChainBlock (s : State) (c : Chain) (src : NodeId) (offset : Nat) (data : List Byte) (fails : Bool) : State :=
  let fits := decide (offset = c.next ∧ data ≠ [] ∧ c.next + data.length ≤ c.total)
  let c1 : Chain := if fits = true then { c with bytes := c.bytes ++ data } else c
  let s1 := (s.setRelay (some c1)).hwlSend src.toNat 0 (.chainAck c.tag c1.next)
  if fits = false ∨ c1.next < c1.total then s1
  else
    let r := s1.stageBundle 0 c1.bytes fails
    r.1.chainVerified r.2

/-- CHAIN_DATA (R388): a block at the next expected offset is written; any is answered with that offset.  An image that returns to its
head ends the chain.  With a PART 0 delivery open the node sends no CHAIN_ACK (R488). -/
def execChainData (l : HwlHeader) (head : NodeId) (writeFails : Bool) (t : Nat) (s0 : State) : Host.Outcome State Fault Refusal :=
  let s := s0.advance t
  let tag : BitVec 32 := BitVec.ofNat 32 (fieldAt l.payload 0 4)
  let offset := fieldAt l.payload 4 4
  let total := fieldAt l.payload 8 4
  let data := (l.payload.drop 16).take (total - offset)
  .next (s.hwlReceive l 0x30 fun st =>
    if (st.delivery 0).isSome = true then st
    else match st.hwl.chain.filter fun c => decide (c.tag = tag) with
      | some c =>
        if c.head = none then (st.hwlSend l.src.toNat 0 (.chainAck tag c.total)).chainDone c
        else if c.result.isSome = true then st.hwlSend l.src.toNat 0 (.chainAck tag c.next)
        else st.takeChainBlock c l.src offset data writeFails
      | none =>
        if st.chainFree = false then st
        else
          let c : Chain := ⟨tag, total, [], some head, some l.src, none, 0, 0, st.now, none, [], none⟩
          st.takeChainBlock c l.src offset data writeFails)

/-- CHAIN_ACK (R388): the sender goes on from the expected offset; the head's answer ends the part of the node that brought the image
back to it. -/
def execChainAck (l : HwlHeader) (t : Nat) (s0 : State) : Host.Outcome State Fault Refusal :=
  let s := s0.advance t
  let tag : BitVec 32 := BitVec.ofNat 32 (fieldAt l.payload 0 4)
  let next := fieldAt l.payload 4 4
  .next (s.hwlReceive l 0x31 fun st =>
    match st.hwl.chain.filter fun c => decide (c.tag = tag ∧ c.successor = some l.src) with
    | none => st
    | some c =>
      let gap := decide (next ≤ c.ackedTo)
      let c1 : Chain := { c with ackedTo := max c.ackedTo next, sentTo := if gap = true then next else max c.sentTo next, lastAck := st.now }
      if c.head = some l.src ∧ c.total ≤ c1.ackedTo then st.setRelay none else (st.setRelay (some c1)).chainPump 16)

/-- A successor's result: a refusal makes this node relay to the next one, else its own part is over (R389). -/
def State.successorDone (s : State) (c : Chain) (result : Nat) : State :=
  if 2 ≤ result then s.chainSkip
  else
    let s1 := s.bump cHwlChainForwarded
    if c.head = none then s1.setRelay (some { c with successor := none }) else s1.setRelay none

/-- CHAIN_RESULT (R389): the head reports it and ends the chain once every member has a result; a predecessor learns what became of its
successor. -/
def execChainResult (l : HwlHeader) (t : Nat) (s0 : State) : Host.Outcome State Fault Refusal :=
  let s := s0.advance t
  let tag : BitVec 32 := BitVec.ofNat 32 (fieldAt l.payload 0 4)
  let node : NodeId := BitVec.ofNat 6 (fieldAt l.payload 4 1)
  let result := fieldAt l.payload 5 1
  .next (s.hwlReceive l 0x32 fun st =>
    match st.hwl.chain.filter fun c => decide (c.tag = tag) with
    | none => st
    | some c =>
      let c1 : Chain := if c.head = none then { c with results := c.results ++ [(node, result)] } else c
      let s1 := st.setRelay (some c1)
      let s2 := match c.head, c.job with
        | none, some j => s1.jobProgress j (deliveryDetail c.total result false ++ leBytes 1 node.toNat)
        | _, _ => s1
      let s3 := if c.successor = some node then s2.successorDone c1 result else s2
      match s3.hwl.chain with
      | some c2 => if c2.head = none ∧ s3.chainAllHeard c2 = true then s3.chainDone c2 else s3
      | none => s3)

/-- CHAIN_ACK_TIMEOUT (R389): a successor that sends no CHAIN_ACK for 5 s is skipped. -/
def execChainAckTimeout (t : Nat) (s0 : State) : Host.Outcome State Fault Refusal :=
  let s := s0.advance t
  .next (match s.hwl.chain with
    | none => s
    | some c =>
      if c.successor.isNone = true ∨ c.total ≤ c.ackedTo ∨ s.now < c.lastAck + 5 * ticksPerSec then s else s.chainSkip)

end Sys2Proof.Machine
end

