-- ==== Sys2Proof/Machine/Host.lean ====
section
/-!
DEFINITION. The host's queues (R397 to R402), PCIE_PERST_N (R540), and the links and gates of the Ethernet ports (R418, R541).
-/

namespace Sys2Proof.Machine

/-- Vendor ID, Device ID and class code of the endpoint's one function (R394). -/
def State.configIds (s : State) : BitVec 16 × BitVec 16 × BitVec 24 := (s.sec.fuses.vendor, 0x7480#16, 0x118000#24)

/-- Sizes in bytes of BAR0, BAR2 and BAR4 (Table 13.1). -/
def barSizes : List Nat := [0x1000000, 0x2000000, 0x4000]

/-- CQ_TAIL_WRITE (R397). -/
def execCqTailWrite (n : Fin 4) (m : Master) (v : Word) (t : Nat) (s0 : State) : Host.Outcome State Fault Refusal :=
  let s := s0.advance t
  .next (s.masterWrite m (0x1D0100 + 0x10 * n.val) 4 v)

/-- RQ_ENABLE (R400): a write of RQ_CTRL_n with ENABLE and a size. -/
def execRqEnable (n : Fin 4) (m : Master) (sizeLog2 : Fin 16) (t : Nat) (s0 : State) : Host.Outcome State Fault Refusal :=
  let s := s0.advance t
  .next (s.masterWrite m (0x1D0208 + 0x20 * n.val) 4 (BitVec.ofNat 32 (1 + 2 * sizeLog2.val)))

/-- RQ_DISABLE (R400): a write of RQ_CTRL_n without ENABLE. -/
def execRqDisable (n : Fin 4) (m : Master) (sizeLog2 : Fin 16) (t : Nat) (s0 : State) : Host.Outcome State Fault Refusal :=
  let s := s0.advance t
  .next (s.masterWrite m (0x1D0208 + 0x20 * n.val) 4 (BitVec.ofNat 32 (2 * sizeLog2.val)))

/-- RQ_HEAD_WRITE (R401). -/
def execRqHeadWrite (n : Fin 4) (m : Master) (v : Word) (t : Nat) (s0 : State) : Host.Outcome State Fault Refusal :=
  let s := s0.advance t
  .next (s.masterWrite m (0x1D020C + 0x20 * n.val) 4 v)

/-- REPORT_ISSUE (R401, R402): the first waiting report that can go is issued. -/
def execReportIssue (t : Nat) (s0 : State) : Host.Outcome State Fault Refusal :=
  let s := s0.advance t
  .next (s.issueFrom [] s.host.waiting)

/-- COALESCE_TIMER (R400): COAL_US after the first pending report the queue's vector fires. -/
def execCoalesceTimer (n : Fin 4) (t : Nat) (s0 : State) : Host.Outcome State Fault Refusal :=
  let s := s0.advance t
  .next (match (s.rq n.val).coalesceSince with
    | none => s
    | some a => if (s.now - a) * 125 < s.coalUs * 3072 then s else s.fireQueue n.val)

/-- A report has found its ring full and has waited for RQ_HOLD_MS. -/
def State.heldTooLong (s : State) (w : WaitingReport) : Bool :=
  match w.dest with
  | .rq n => (s.rq n.val).enable && !(s.rq n.val).room w.report && decide (w.since + s.item iRqHoldMs * ticksPerMs ≤ s.now)
  | _ => false

/-- REPORT_HOLD_EXPIRY (R402): the oldest report that has waited for RQ_HOLD_MS is discarded. -/
def execReportHoldExpiry (t : Nat) (s0 : State) : Host.Outcome State Fault Refusal :=
  let s := s0.advance t
  .next (match s.host.waiting.find? s.heldTooLong with
    | none => s
    | some w => (s.setWaiting (s.host.waiting.erase w)).dropReport)

/-- The queue registers return to zero (R540). -/
def State.zeroQueues (s : State) : State :=
  let s1 := ([0, 1, 2, 3] : List (Fin 4)).foldl (fun (st : State) (n : Fin 4) => (st.setCq n.val ⟨0, 0⟩).stopQueue n) s
  ([0, 1, 2, 3] : List (Fin 4)).foldl (fun (st : State) (n : Fin 4) => st.setRq n.val { st.rq n.val with sizeLog2 := 0 }) s1

/-- PCIE_PERST_N (R540): low, the link is in reset and no job is taken; its rise zeroes the queue registers and the link trains. -/
def execPciePerstN (high : Bool) (speed width : Nat) (t : Nat) (s0 : State) : Host.Outcome State Fault Refusal :=
  let s := s0.advance t
  if high = false then
    .next { s with pins := { s.pins with perstLow := true }, host := { s.host with speed := 0, width := 0 } }
  else if s.pins.perstLow = false then .next s
  else
    let s1 := s.zeroQueues
    .next { s1 with pins := { s1.pins with perstLow := false }, host := { s1.host with speed := speed, width := width } }

/-- GATE_CHANGE (R417, R418): an entry or a cycle boundary is reached, its gates come into force, and the frames that waited for them start. -/
def execGateChange (port : Fin 2) (t : Nat) (s0 : State) : Host.Outcome State Fault Refusal :=
  let s := s0.advance t
  .next (if (s.ethPort port.val).mode = 0 then s else (s.applyGates port.val).ethRelease port.val)

/-- ETH_LINK_CHANGE (R541): the link of a port; ETHp_LOS forces it down, and it is down while the port is off. -/
def execEthLinkChange (port : Fin 2) (up los : Bool) (t : Nat) (s0 : State) : Host.Outcome State Fault Refusal :=
  let s := s0.advance t
  let p := port.val
  let link := up && !los && decide ((s.ethPort p).mode ≠ 0)
  let s1 := s.modEthPort p fun x => { x with link := link, los := los }
  .next (if link = (s.ethPort p).link then s1 else s1.raiseInt (0x1B0004 + 0x2000 * p) 2)

end Sys2Proof.Machine
end

