-- ==== Sys2Proof/Machine/Jobs.lean ====
section
/-!
DEFINITION. The jobs of Table 13.5, one step each: a job waits at the front of its source and is taken with its arguments.  A job row of
an Ethernet peer, of the side-band or of a Herwyn peer is the job as its transport delivers it.
-/

namespace Sys2Proof.Machine

/-- READ_METER (0x01, R409). -/
def execReadMeter (h : JobHdr) (gmn : Gmn) (obis : BitVec 48) (priority medium : Nat) (t : Nat) (s0 : State) :
    Host.Outcome State Fault Refusal :=
  .next ((s0.advance t).intake ⟨h, .readMeter gmn obis priority medium⟩)

/-- SNAPSHOT_GROUP (0x02, R213). -/
def execSnapshotGroup (h : JobHdr) (group : Nat) (all : Nat) (lead : Nat) (gmns : List Gmn) (t : Nat) (s0 : State) :
    Host.Outcome State Fault Refusal :=
  .next ((s0.advance t).intake ⟨h, .snapshotGroup group all lead gmns⟩)

/-- REGISTER_READ (0x03, R451). -/
def execRegisterRead (h : JobHdr) (offset words : Nat) (t : Nat) (s0 : State) :
    Host.Outcome State Fault Refusal :=
  .next ((s0.advance t).intake ⟨h, .registerRead offset words⟩)

/-- METER_STATE_READ (0x04, R408). -/
def execMeterStateRead (h : JobHdr) (gmn : Gmn) (parts : BitVec 8) (t : Nat) (s0 : State) :
    Host.Outcome State Fault Refusal :=
  .next ((s0.advance t).intake ⟨h, .meterStateRead gmn parts⟩)

/-- ATTEST (0x05, R444). -/
def execAttest (h : JobHdr) (nonce : BitVec 256) (t : Nat) (s0 : State) :
    Host.Outcome State Fault Refusal :=
  .next ((s0.advance t).intake ⟨h, .attest nonce⟩)

/-- CANCEL (0x06, R320). -/
def execCancel (h : JobHdr) (tag : BitVec 16) (t : Nat) (s0 : State) :
    Host.Outcome State Fault Refusal :=
  .next ((s0.advance t).intake ⟨h, .cancel tag⟩)

/-- TRIGGER (0x07, R326). -/
def execTrigger (h : JobHdr) (entry source due period : Nat) (template : TriggerTemplate) (t : Nat) (s0 : State) :
    Host.Outcome State Fault Refusal :=
  .next ((s0.advance t).intake ⟨h, .trigger entry source due period template⟩)

/-- PULSE (0x08, R98). -/
def execPulse (h : JobHdr) (output startSec startNs period width : Nat) (t : Nat) (s0 : State) :
    Host.Outcome State Fault Refusal :=
  .next ((s0.advance t).intake ⟨h, .pulse output startSec startNs period width⟩)

/-- HOST_TIME (0x09, R83). -/
def execHostTime (h : JobHdr) (sec ns : Nat) (t : Nat) (s0 : State) :
    Host.Outcome State Fault Refusal :=
  .next ((s0.advance t).intake ⟨h, .hostTime sec ns⟩)

/-- BALANCE_MEMBERSHIP (0x0A, R202). -/
def execBalanceMembership (h : JobHdr) (gmn : Gmn) (group regPhase exportAllowed : Nat) (t : Nat) (s0 : State) :
    Host.Outcome State Fault Refusal :=
  .next ((s0.advance t).intake ⟨h, .balanceMembership gmn group regPhase exportAllowed⟩)

/-- BUNDLE_SUBMIT (0x0B, R134). -/
def execBundleSubmit (h : JobHdr) (b : RelayBundle) (t : Nat) (s0 : State) :
    Host.Outcome State Fault Refusal :=
  .next ((s0.advance t).intake ⟨h, .bundleSubmit b⟩)

/-- PUSH_TARIFF_SET (0x10, R180). -/
def execPushTariffSet (h : JobHdr) (slot : Nat) (set : TariffSet) (t : Nat) (s0 : State) :
    Host.Outcome State Fault Refusal :=
  .next ((s0.advance t).intake ⟨h, .pushTariffSet slot set⟩)

/-- CREDIT_CHANGE (0x11, R187). -/
def execCreditChange (h : JobHdr) (gmn : Gmn) (amount : Int) (t : Nat) (s0 : State) :
    Host.Outcome State Fault Refusal :=
  .next ((s0.advance t).intake ⟨h, .creditChange gmn amount⟩)

/-- DISCONNECT (0x12, R187). -/
def execDisconnect (h : JobHdr) (gmn : Gmn) (t : Nat) (s0 : State) :
    Host.Outcome State Fault Refusal :=
  .next ((s0.advance t).intake ⟨h, .disconnect gmn⟩)

/-- RECONNECT (0x13, R187). -/
def execReconnect (h : JobHdr) (gmn : Gmn) (force : Nat) (t : Nat) (s0 : State) :
    Host.Outcome State Fault Refusal :=
  .next ((s0.advance t).intake ⟨h, .reconnect gmn force⟩)

/-- LEGAL_RELEASE (0x14, R191). -/
def execLegalRelease (h : JobHdr) (gmn : Gmn) (mode : Nat) (t : Nat) (s0 : State) :
    Host.Outcome State Fault Refusal :=
  .next ((s0.advance t).intake ⟨h, .legalRelease gmn mode⟩)

/-- ENROL_METER (0x15, R438). -/
def execEnrolMeter (h : JobHdr) (a : EnrolArgs) (t : Nat) (s0 : State) :
    Host.Outcome State Fault Refusal :=
  .next ((s0.advance t).intake ⟨h, .enrolMeter a⟩)

/-- REMOVE_METER (0x16, R320). -/
def execRemoveMeter (h : JobHdr) (gmn : Gmn) (t : Nat) (s0 : State) :
    Host.Outcome State Fault Refusal :=
  .next ((s0.advance t).intake ⟨h, .removeMeter gmn⟩)

/-- KEY_CHANGE (0x17, R116). -/
def execKeyChange (h : JobHdr) (gmn : Gmn) (keySlot : Nat) (ek ak : BitVec 192) (t : Nat) (s0 : State) :
    Host.Outcome State Fault Refusal :=
  .next ((s0.advance t).intake ⟨h, .keyChange gmn keySlot ek ak⟩)

/-- COUNTER_RESET (0x18, R408). -/
def execCounterReset (h : JobHdr) (gmn : Gmn) (rxIc txIc : BitVec 32) (t : Nat) (s0 : State) :
    Host.Outcome State Fault Refusal :=
  .next ((s0.advance t).intake ⟨h, .counterReset gmn rxIc txIc⟩)

/-- DESIGNATE (0x19, R378). -/
def execDesignate (h : JobHdr) (range : Nat) (trueNode : NodeId) (slots : Option (List Nat)) (t : Nat) (s0 : State) :
    Host.Outcome State Fault Refusal :=
  .next ((s0.advance t).intake ⟨h, .designate range trueNode slots⟩)

/-- CLAIM_OWNERSHIP (0x1A, R380). -/
def execClaimOwnership (h : JobHdr) (t : Nat) (s0 : State) :
    Host.Outcome State Fault Refusal :=
  .next ((s0.advance t).intake ⟨h, .claimOwnership⟩)

/-- RELEASE_OWNERSHIP (0x1B, R380). -/
def execReleaseOwnership (h : JobHdr) (t : Nat) (s0 : State) :
    Host.Outcome State Fault Refusal :=
  .next ((s0.advance t).intake ⟨h, .releaseOwnership⟩)

/-- FORGET_COORDINATE (0x1C, R363). -/
def execForgetCoordinate (h : JobHdr) (t : Nat) (s0 : State) :
    Host.Outcome State Fault Refusal :=
  .next ((s0.advance t).intake ⟨h, .forgetCoordinate⟩)

/-- WALL_TIME_STEP (0x20, R87). -/
def execWallTimeStep (h : JobHdr) (window maxStep : Nat) (t : Nat) (s0 : State) :
    Host.Outcome State Fault Refusal :=
  .next ((s0.advance t).intake ⟨h, .wallTimeStep window maxStep⟩)

/-- CLEAR_LOG (0x21, R519). -/
def execClearLog (h : JobHdr) (log : Nat) (t : Nat) (s0 : State) :
    Host.Outcome State Fault Refusal :=
  .next ((s0.advance t).intake ⟨h, .clearLog log⟩)

/-- OPEN_EXPERT_SESSION (0x22, R58). -/
def execOpenExpertSession (h : JobHdr) (duration : Nat) (t : Nat) (s0 : State) :
    Host.Outcome State Fault Refusal :=
  .next ((s0.advance t).intake ⟨h, .openExpertSession duration⟩)

/-- DEBUG_TOKEN (0x23, R441). -/
def execDebugToken (h : JobHdr) (token : List Byte) (t : Nat) (s0 : State) :
    Host.Outcome State Fault Refusal :=
  .next ((s0.advance t).intake ⟨h, .debugToken token⟩)

/-- UPDATE_DELIVERY (0x24, R486). -/
def execUpdateDelivery (h : JobHdr) (imageTag : BitVec 32) (offset total part : Nat) (block : List Byte) (writeFails : Bool) (t : Nat)
    (s0 : State) : Host.Outcome State Fault Refusal :=
  .next ((s0.advance t).intake ⟨h, .updateDelivery imageTag offset total part block writeFails⟩)

/-- CAMPAIGN_START (0x25, R502). -/
def execCampaignStart (h : JobHdr) (a : CampaignArgs) (t : Nat) (s0 : State) :
    Host.Outcome State Fault Refusal :=
  .next ((s0.advance t).intake ⟨h, .campaignStart a⟩)

/-- RESET (0x26, R474). -/
def execReset (h : JobHdr) (node : NodeId) (cls : Nat) (t : Nat) (s0 : State) :
    Host.Outcome State Fault Refusal :=
  .next ((s0.advance t).intake ⟨h, .reset node cls⟩)

/-- BOOT_HEADER_WRITE (0x27, R38). -/
def execBootHeaderWrite (h : JobHdr) (b : BootHeader) (writeFails : Bool) (t : Nat) (s0 : State) :
    Host.Outcome State Fault Refusal :=
  .next ((s0.advance t).intake ⟨h, .bootHeaderWrite b writeFails⟩)

end Sys2Proof.Machine
end

