-- ==== Sys2Proof/Machine/Legal.lean ====
section
/-!
DEFINITION. The commands of the legal partition (spec 06).
-/

namespace Sys2Proof.Machine

/-- The first item of Troika's line that may be taken up: no earlier item and no undecided vote is of its meter, and no digest barrier of its
lane is before it. -/
def nextItem (busy : List (Option Nat)) (barred : List Nat) : List TroikaItem → Option TroikaItem
  | [] => none
  | .cut lane _ _ :: rest => nextItem busy (lane.val :: barred) rest
  | x :: rest =>
    if (x.index.isSome = true ∧ x.index ∈ busy) ∨ (x.index.any fun i => decide (i % 4 ∈ barred)) = true then nextItem (x.index :: busy) barred rest
    else some x

/-- The meters whose votes are not decided. -/
def Bil.undecided (b : Bil) : List (Option Nat) := (b.awaiting.filter fun w => !w.committed).map fun w => w.item.index

/-- TROIKA_UPDATE (R188): the units answer for the next item of the line; `readFails`: the read of its slot fails SLOT_CRC or meets an
uncorrectable error (R171).  While the partition is safe or restoring nothing is committed; a partition that stays safe until reset
declines (R190, R193). -/
def execTroikaUpdate (readFails : Bool) (a b c : UnitAnswer) (t : Nat) (s0 : State) : Host.Outcome State Fault Refusal :=
  let s := s0.advance t
  if s.bil.restoring = true ∨ (s.bil.safe = true ∧ s.bil.dead = false) ∨ 4 ≤ s.bil.awaiting.length then .next s
  else match nextItem s.bil.undecided [] s.bil.queue with
    | none => .next s
    | some x =>
      let s1 := ({ s with bil := { s.bil with queue := s.bil.queue.erase x } }).bump cBilUpdates
      .next (if s1.bil.dead = true then s1.itemLegalSafe x
        else match s1.beforeVote readFails x with
          | some s2 => s2
          | none => s1.vote x [a, b, c]).settleCuts

/-- AFE clocks of 20 000 SYS cycles, rounded up (R188). -/
def State.voteTicks (s : State) : Nat := (20000 * 24576 + 1000 * max 1 s.sysMhz - 1) / (1000 * max 1 s.sysMhz)

/-- VOTE_TIMEOUT (R188): 20 000 SYS cycles have passed since the start of an update without a presentation of the unit.  It is outvoted
where the commit is made, and disagrees where it is not. -/
def execVoteTimeout (unit : Fin 3) (t : Nat) (s0 : State) : Host.Outcome State Fault Refusal :=
  let s := s0.advance t
  match s.bil.awaiting.find? fun w => decide (unit.val ∈ w.silent ∧ w.since + s.voteTicks ≤ s.now) with
  | none => .next s
  | some w =>
    let left := w.silent.filter fun u => decide (u ≠ unit.val)
    let rest := s.bil.awaiting.erase w
    let kept := if left = [] then rest else s.bil.awaiting.map fun x => if x = w then { w with silent := left } else x
    let s1 := { s with bil := { s.bil with awaiting := kept } }
    .next (if w.committed = true then s1.outvote unit.val else if left = [] then s1.itemNoMajority w.item else s1).settleCuts

/-- SAFE_STATE_TESTS_DONE (R190): the units that failed their 64 known-answer updates leave service; with two left the safe
state ends, otherwise it stays until reset. -/
def execSafeStateTestsDone (a b c : Bool) (t : Nat) (s0 : State) : Host.Outcome State Fault Refusal :=
  let s := s0.advance t
  if s.bil.safe = false ∨ s.bil.dead = true then .next s
  else
    let failed := (List.range 3).filter fun u => s.bil.units.getD u false && !([a, b, c].getD u false)
    let s1 := failed.foldl State.retireUnit s
    .next (if s1.bil.dead = true then s1 else { s1 with bil := { s1.bil with safe := false } })

/-- FORCED_CLOSURE (R182): P + CLOSE_GRACE is realised for a tariff slot.  The owner posts a forced closure for each meter
of the slot whose LAST_CLOSE is before P. -/
def execForcedClosure (slot : Fin 16) (t : Nat) (s0 : State) : Host.Outcome State Fault Refusal :=
  let s := s0.advance t
  match lastPeriodEnd s.tim.utcOffset (s.tariffSlot slot.val) ((s.cycleTime : Int) - s.item iCloseGrace) with
  | none => .next s
  | some p =>
    if s.ownsMeters = false then .next s
    else
      let meters := s.ctx.filter fun e => decide (e.2.group = slot.val ∧ e.2.state ≠ .empty ∧ e.2.state ≠ .forward) &&
        decide ((s.slotAt e.1).lastClose < p)
      .next (meters.foldl (fun st e => st.postLegal e.1 (.forcedClosure p)) s)

/-- FEEDER_DELTAS (R195): once per second MET hands Troika what it has measured. -/
def execFeederDeltas (m : List MetCycle) (t : Nat) (s0 : State) : Host.Outcome State Fault Refusal :=
  .next (((s0.advance t).metMeasure m).handFeeder)

/-- A disconnect that CREDIT_ACTION asked for is on its way through Troika's line. -/
def State.disconnectQueued (s : State) (i : Nat) : Bool :=
  s.bil.queue.any fun x => match x with
    | .legal j (.disconnect true) _ _ => decide (j = i)
    | _ => false

/-- A deferred disconnect whose meter's friendly period has ended (R186): the owner posts it; its commit clears DEFERRED.  A meter that is
exhausted no more has lost DEFERRED already. -/
def State.endDeferred (s : State) (i : Nat) : State :=
  if s.friendlyAt i s.sec2020 = true ∨ s.ownsMeters = false ∨ s.disconnectQueued i = true then s else s.postLegal i (.disconnect true)

/-- A held disconnect whose meter's friendly period has ended (R234): issued if the score still qualifies. -/
def State.endHeld (s : State) (i : Nat) : State :=
  if s.qualifies i (s.item iDisconnectScore) = true ∧ (s.ctxAt i).bal.discIssued = false then s.takeAction i 3 s.sec2020 else s

/-- FRIENDLY_PERIOD_END (R186, R234): held disconnects of the meters whose friendly period has ended by their local time are posted if the
meter still qualifies. -/
def execFriendlyPeriodEnd (t : Nat) (s0 : State) : Host.Outcome State Fault Refusal :=
  let s := s0.advance t
  let s1 := (s.bil.slots.filter fun e => e.2.deferred).foldl (fun st e => st.endDeferred e.1) s
  let ended (i : Nat) : Bool := !s.friendlyAt i s.sec2020
  let s2 := { s1 with bal := { s1.bal with heldDisconnects := s1.bal.heldDisconnects.filter fun i => !ended i } }
  .next ((s1.bal.heldDisconnects.filter ended).foldl State.endHeld s2)

/-! ## The rebuild of region 4 (R193) -/

/-- The newest complete legal checkpoint (R193, R337). -/
def Ful.legalCheckpoint (f : Ful) : Option LegalCheckpoint :=
  let get (lsa : Nat) : Option LegalCheckpoint := match f.sector lsa with
    | some (.legalCheckpoint c) => some c
    | _ => none
  match get 12288, get 22528 with
  | none, c => c
  | some a, none => some a
  | some a, some b => if a.seq < b.seq then some b else some a

/-- The index of an entry's meter: before a coordinate is assigned, by the coordinate that the node had, else by the context that holds the
meter. -/
def State.rebuildIndex (s : State) (g : Gmn) : Option Nat :=
  let again (c : Nat × Nat) : State := { s with hwl := { s.hwl with assigned := true, nodeId := BitVec.ofNat 6 (s.nodeAt c) } }
  match s.indexFor g with
  | some i => some i
  | none =>
    match s.hwl.stored.bind fun c => (again c).indexFor g with
    | some i => some i
    | none => (s.ctx.find? fun e => decide (e.2.gmn = g ∧ e.2.state ≠ .empty)).map Prod.fst

/-- Change a slot of region 4 as a re-applied update leaves it: the periods it closed go to region 5 and to Fuller (R181, R193). -/
def State.rebuildPut (s : State) (i : Nat) (v : LegalSlot) (ps : List ClosedPeriod) : State :=
  ps.foldl (fun st p => st.toFuller (.closed i p)) ((s.setSlot i v).keepClosed i ps)

/-- Re-apply a stored record. -/
def State.rebuildRecord (s : State) (i : Nat) (x : StoredRecord) : State :=
  let old := s.slotAt i
  let b := applyRecord s.billEnv (s.tariffsOf i) old x.record.gmn x.record x.tref x.k x.deltas
  s.rebuildPut i (creditFlags s.creditEnv (s.tariffsOf i) old b.slot) b.closed

/-- Re-apply a committed job; `past` are the entries before it. -/
def State.rebuildOp (s : State) (i : Nat) (g : Gmn) (op : LegalOp) (past : List StoreEntry) : State :=
  let v := s.slotAt i
  match op with
  | .release mode =>
    let again := if mode = 0 then declinedAmong past g v.freezeSeq else []
    let s1 := again.foldl (fun st x => st.rebuildRecord i x) s
    s1.rebuildPut i { s1.slotAt i with frozen := false, freezeCause := 0 } []
  | _ => match Sys2Proof.Machine.applyOp (s.tariffsOf i) g op v with
    | .error _ => s
    | .ok (w, ps) => s.rebuildPut i (creditFlags s.creditEnv (s.tariffsOf i) v { w with commits := w.commits + 1 }) ps

/-- Re-apply a freeze.  A meter that was frozen already froze again in a replay: the records that the replay had applied before that one are
applied first (DEDUCED, notes/assumptions/137.md). -/
def State.rebuildFreeze (s : State) (i : Nat) (g : Gmn) (q : BitVec 32) (c : Nat) (past : List StoreEntry) : State :=
  let v := s.slotAt i
  let held := if v.frozen = true then declinedAmong past g v.freezeSeq else []
  let again := if held.any (fun x => decide (x.record.readSeq = q)) = true then held.takeWhile fun x => decide (x.record.readSeq ≠ q) else []
  let s1 := again.foldl (fun st x => st.rebuildRecord i x) s
  s1.rebuildPut i { s1.slotAt i with frozen := true, freezeSeq := q, freezeCause := c } []

/-- What an entry of stream 8 asks Troika to apply again, as an item for the vote; `past` are the entries before it, `later` those after it. -/
def State.rebuildEntry (s : State) (e : StoreEntry) (past later : List StoreEntry) : Option (Option Nat × State) :=
  match e with
  | .feeder _ => none
  | .journal ⟨_, _, _, .tariff k x⟩ => some (none, { s with bil := { s.bil with tariffs := Table.set [] s.bil.tariffs k (joinSets (s.tariffSlot k) x) } })
  | .journal ⟨_, _, _, .declined _ _⟩ => none
  | .journal ⟨_, _, _, .image _ _ _⟩ => none
  | _ => match s.rebuildIndex e.gmn with
    | none => none
    | some i =>
      match e with
      | .record r _ _ _ => match e.billable? with
        | none => none
        | some x => if later.any (StoreEntry.declines r.gmn r.readSeq) = true then none else some (some i, s.rebuildRecord i x)
      | .journal ⟨g, _, _, .job op⟩ => some (some i, s.rebuildOp i g op past)
      | .journal ⟨_, _, _, .cleared _⟩ => some (some i, { s.setSlot i LegalSlot.fresh with bil := { (s.setSlot i LegalSlot.fresh).bil with
          closed := Table.set [] s.bil.closed i [] } })
      | .journal ⟨g, _, _, .frozen q c⟩ => some (some i, s.rebuildFreeze i g q c past)
      | _ => none

/-- An entry finds no majority when it is re-applied: nothing is committed, and its meter freezes (R190). -/
def State.rebuildNoMajority (s : State) (e : StoreEntry) (i : Option Nat) : State :=
  match i with
  | none => { (s.raiseInt 0x140004 1).bump cBilNoMajority with bil := { s.bil with safe := true } }
  | some i =>
    match e with
    | .record r _ _ _ => (s.noMajority i r.readSeq).journal r.gmn (.declined r.readSeq 4)
    | _ => s.noMajority i (s.slotAt i).lastSeq

/-- Re-apply entries in stored order, each under a vote (R193); `votes` are the units' answers to the updates in order, a unit that is not
listed presenting the right image.  A vote without a majority leaves the rest until the safe state ends. -/
def State.rebuildAll (s : State) : List (Nat × StoreEntry) → List StoreEntry → List (List UnitAnswer) → State
  | [], _, _ => { s with bil := { s.bil with rebuildAt := none, restoring := false } }
  | e :: rest, past, votes =>
    match s.rebuildEntry e.2 past (rest.map Prod.snd) with
    | none => s.rebuildAll rest (past ++ [e.2]) votes
    | some (i, u) =>
      let l := s.bil.voters.map fun n => (n, (votes.headD []).getD n (.image 0))
      let clear (st : State) : State := { st with bil := { st.bil with sitOut := none } }
      match agreedMask l with
      | some m =>
        let v := match i with
          | some k => { u with bil := { u.bil with slots := Table.set LegalSlot.fresh u.bil.slots k (flipSlot (u.slotAt k) m) } }
          | none => u
        ((dissenters l m ++ silentUnits l).foldl State.outvote (clear v)).rebuildAll rest (past ++ [e.2]) (votes.drop 1)
      | none => { (clear s).rebuildNoMajority e.2 i with bil := { ((clear s).rebuildNoMajority e.2 i).bil with rebuildAt := some (e.1 + 1) } }

/-- The closed periods in stream 3, newest first (R181, R337). -/
def Ful.closedStored (f : Ful) : Table (List ClosedPeriod) :=
  ((f.map.map Prod.fst ++ f.dirty.map Prod.fst).filter fun l => decide (32768 ≤ l ∧ l < 163840 ∧ l % 4 = 0)).foldl
    (fun (t : Table (List ClosedPeriod)) l => match f.sector l with
      | some (.closed ps) => Table.set [] t ((l - 32768) / 4) (ps.reverse.take 24)
      | _ => t) []

/-- Load the newest legal checkpoint into region 4 (R193); the answer is the position at which re-application begins. -/
def State.loadLegal (s : State) : State × Nat :=
  let closed := s.ful.closedStored
  match s.ful.legalCheckpoint with
  | some c => ({ s with bil := { s.bil with slots := c.slots, feeder := c.feeder, tariffs := c.tariffs, closed := closed } }, c.readPos)
  | none => ({ s with bil := { s.bil with slots := [], feeder := LegalSlot.fresh, tariffs := [], closed := closed } }, 0)

/-- TROIKA_REBUILD (R193): region 4 is rebuilt from the newest legal checkpoint and, under vote, the entries after it, and Troika accepts new
updates.  It waits for Fuller's rebuild, for the contexts, which give each meter its tariff slot (DEDUCED, notes/assumptions/137.md), and
for a safe state to end.  A partition that stays safe until reset re-applies nothing. -/
def execTroikaRebuild (votes : List (List UnitAnswer)) (t : Nat) (s0 : State) : Host.Outcome State Fault Refusal :=
  let s := s0.advance t
  if s.bil.restoring = false ∨ s.ful.rebuilding = true ∨ s.ing.restoring = true ∨ (s.bil.safe = true ∧ s.bil.dead = false) then .next s
  else
    let x : State × Nat := match s.bil.rebuildAt with
      | some p => (s, p)
      | none => s.loadLegal
    let all := s.ful.entries
    let todo := if s.bil.dead = true then [] else all.filter fun e => decide (x.2 ≤ e.1)
    let u := x.1.rebuildAll todo ((all.filter fun e => decide (e.1 < x.2)).map Prod.snd) votes
    .next (if u.bil.restoring = true then u else u.setFeederRate u.sec2020)

/-! ## The display (R198, R199) -/

/-- An entry of the scroll sequence. -/
structure DisplayEntry where
  code : Nat
  arg : Nat
  dwell : Nat
  deriving DecidableEq, Repr

/-- The scroll sequence: entries with DWELL zero are skipped; one of code 3 with 10 s is appended where none is (R199). -/
def State.displayEntries (s : State) : List DisplayEntry :=
  let n := min 32 (s.itemField iDisplay 0 1)
  let es := ((List.range n).map fun i =>
    DisplayEntry.mk (s.itemField iDisplay (4 + 4 * i) 1) (s.itemField iDisplay (5 + 4 * i) 1) (s.itemField iDisplay (6 + 4 * i) 1)).filter
      fun e => decide (e.dwell ≠ 0)
  if es.any (fun e => decide (e.code = 3)) = true then es else es ++ [⟨3, 0, 10⟩]

/-- The last `n` decimal digits of a number, leading zeros kept. -/
def digits : Nat → Nat → List Byte
  | 0, _ => []
  | n + 1, x => digits n (x / 10) ++ [BitVec.ofNat 8 (48 + x % 10)]

/-- A number in decimal, of at most 16 digits, without leading zeros. -/
def decimal (x : Nat) : List Byte :=
  let l := (digits 16 x).dropWhile fun b => decide (b = 48#8)
  if l = [] then [48#8] else l

/-- An upper-case hex digit. -/
def hexDigit (n : Nat) : Byte := BitVec.ofNat 8 (if n < 10 then 48 + n else 55 + n)

/-- The last `n` upper-case hex digits of a number. -/
def hexDigits : Nat → Nat → List Byte
  | 0, _ => []
  | n + 1, x => hexDigits n (x / 16) ++ [hexDigit (x % 16)]

/-- A field of text, left-aligned and space-padded. -/
def textLeft (n : Nat) (l : List Byte) : List Byte := (l ++ List.replicate n 32#8).take n

/-- A field of text, right-aligned and space-padded. -/
def textRight (n : Nat) (l : List Byte) : List Byte := List.replicate (n - l.length) 32#8 ++ l.drop (l.length - n)

/-- The four letters of a direction, as "IMPA" for import active. -/
def directionText (d : Nat) : List Byte := asciiBytes (if d = 0 then "IMPA" else if d = 1 then "EXPA" else if d = 2 then "IMPR" else "EXPR")

/-- LABEL of an entry: of code 1 as Table 6.10 has it, of the others a word of the model's (DESIGN CHOICE, notes/assumptions/166.md). -/
def displayLabel (e : DisplayEntry) : List Byte :=
  let d := directionText (e.arg / 16 % 4)
  match e.code with
  | 1 => asciiBytes "T" ++ digits 2 (e.arg % 16) ++ asciiBytes " " ++ d
  | 2 => asciiBytes "TOT " ++ d
  | 3 => asciiBytes "CHECK"
  | 4 => asciiBytes "VERSION"
  | 5 => asciiBytes "PERIOD"
  | 6 => asciiBytes "MAX " ++ d
  | _ => asciiBytes "TIME"

/-- UNIT of an entry: two letters (DESIGN CHOICE beyond "Wh", notes/assumptions/166.md). -/
def displayUnit (e : DisplayEntry) : List Byte :=
  let active := decide (e.arg / 16 % 4 < 2)
  if e.code = 1 ∨ e.code = 2 then asciiBytes (if active = true then "Wh" else "vh")
  else if e.code = 6 then asciiBytes (if active = true then "W" else "vr") else []

/-- VALUE of an entry (Table 6.11): energy in Wh or varh with the tenths dropped; the check value as 16 hex digits, byte 0 of the digest
first; the version as major.minor.patch; local date and time to the minute. -/
def State.displayValue (s : State) (e : DisplayEntry) : List Byte :=
  let d := e.arg / 16 % 4
  match e.code with
  | 1 => decimal (s.bil.feeder.rate.getD (4 * (e.arg % 16) + d) 0 / 10)
  | 2 => decimal (s.bil.feeder.total.getD d 0 / 10)
  | 3 => hexDigits 16 s.boot.legalCheck.toNat
  | 4 =>
    let v := s.boot.fwVersions.getD 3 0
    decimal (v / 2 ^ 24) ++ [46#8] ++ decimal (v / 65536 % 256) ++ [46#8] ++ decimal (v % 65536)
  | 5 => decimal s.bil.feeder.periodIndex
  | 6 => decimal (s.bil.feeder.demand.getD d (0, 0)).1
  | _ =>
    let off := match inForce (s.tariffSlot (s.item iFeederTariffSlot)) s.sec2020 with
      | some x => x.localOffset
      | none => 0
    let l := localSecs s.tim.utcOffset off s.sec2020
    let c := civilOf (l / 86400)
    let m := (l % 86400 / 60).toNat
    digits 4 c.1 ++ [45#8] ++ digits 2 c.2.1 ++ [45#8] ++ digits 2 c.2.2 ++ [32#8] ++ digits 2 (m / 60) ++ [58#8] ++ digits 2 (m % 60)

/-- The 32-byte frame of an entry (Table 6.10). -/
def State.displayBytes (s : State) (seq : Nat) (e : DisplayEntry) : List Byte :=
  let b := 0x5A#8 :: BitVec.ofNat 8 seq :: textLeft 8 (displayLabel e) ++ textRight 16 (s.displayValue e) ++ textLeft 2 (displayUnit e)
  b ++ leBytes 4 (crc32c b).toNat

/-- DISPLAY_FRAME (R198): LGC sends a frame, moving on once the entry's dwell has passed, and checks the module's return: its
sync byte, the SEQ of the last frame shown and the "shown" bit.  A core that sends it has recovered from its watchdog (R168).  The third frame in a row without a valid return sets
DISPLAY_FAULT. -/
def execDisplayFrame (sync shownSeq : Byte) (shown : Bool) (t : Nat) (s0 : State) : Host.Outcome State Fault Refusal :=
  let s := s0.advance t
  if s.lgc.running = false then .next s
  else
    let es := s.displayEntries
    let l := s.lgc
    let cur := es.getD l.displayItem ⟨3, 0, 10⟩
    let passed := decide (l.itemSince + cur.dwell * ticksPerSec ≤ s.now)
    let item := if passed = true then (if l.displayItem + 1 < es.length then l.displayItem + 1 else 0) else l.displayItem
    let e := es.getD item ⟨3, 0, 10⟩
    let ok := decide (sync = 0xA5#8 ∧ shownSeq.toNat = l.displaySeq) && shown
    let misses := if ok = true then 0 else min 3 (l.misses + 1)
    let fault := decide (misses = 3)
    let seq := (l.displaySeq + 1) % 256
    let s1 := { s with lgc := { l with displaySeq := seq, displayItem := item, misses := misses, fault := fault, servedAt := s.now,
                                       watchdogAt := none, itemSince := if passed = true then s.now else l.itemSince } }
    let s2 := s1.emit (.display (s.displayBytes seq e))
    .next (if fault = true ∧ l.fault = false then s2.event .legal 11 0x80 0 0 else s2)

/-- SUPPLY_CONFIRMATION (Table 6.6): TXN hands Troika the meter's answer to a supply command. -/
def execSupplyConfirmation (gmn : Gmn) (positive : Bool) (t : Nat) (s0 : State) : Host.Outcome State Fault Refusal :=
  let s := s0.advance t
  match s.heldIndex gmn with
  | none => .next s
  | some i => .next (s.postLegal i (.confirm positive))

end Sys2Proof.Machine
end

