-- ==== Sys2Proof/Machine/Mirror.lean ====
section
/-!
DEFINITION. The steps of a pair: pairing, liveness, the mirror stream, digests and the packets of VC2 that a meter's primary takes
(R366 to R377, R382 to R386).
-/

namespace Sys2Proof.Machine

/-- A packet comes from the partner. -/
def State.fromPartner (s : State) (l : HwlHeader) : Bool := s.partner == some l.src.toNat

/-! ## Pairing and liveness -/

/-- The rejoin ends: counted, with SYNC_DONE (R386). -/
def State.syncDone (s : State) : State :=
  ((s.modHwl fun h => { h with syncing := false }).bump cHwlRejoins).raiseInt 0x1C0004 7

/-- The survivor's part of a rejoin: MSYNC of its own range, and of the returning node's where that node was away, then HANDBACK
(R386). -/
def State.survive (s : State) (both : Bool) : State :=
  let s1 := (s.modHwl fun h => { h with syncing := true }).syncRange false 3
  let s2 := if both = true then s1.syncRange true 3 else s1
  (s2.mirrorSend .handback).modHwl fun h => { h with partnerRange := false }

/-- Pairing holds (R367): MSEQ restarts in each direction, and a rejoin begins where either side was away (R385). -/
def State.pairUp (s : State) (rejoin : Bool) (base : BitVec 32) : State :=
  let own := s.hwl.rejoin
  let lost := s.hwl.partnerLost
  let reply := s.hwl.pairSent = false ∨ s.hwl.paired = true
  let s0 := if reply then s.sendPair false false else s
  let even := decide (s.hwl.nodeId.toNat % 2 = 0)
  let s1 := (s0.checkMet 1).modHwl fun h =>
    { h with paired := true, pairMismatch := false, partnerLost := false, partnerHeard := s.now, partnerRejoin := rejoin, rejoin := false,
             expectIn := base, heldIn := [], gapSince := none, mackSince := none, syncParts := [], window := [], mseqAcked := h.mseqOut - 1,
             checkWiring := even, queries := 0, heartbeatAt := s.now }
  let s2 := if rejoin = true ∧ own = false then s1.survive true
    else if rejoin = false ∧ own = true then s1.modHwl fun h => { h with syncing := true, ownRange := false }
    else if rejoin = false ∧ lost = true then s1.survive false
    else s1.modHwl fun h => { h with partnerRange := false }
  if even = true then s2.claim else s2

/-- A PAIR names a third node (R367): neither side mirrors nor claims, and the host is alarmed. -/
def State.pairWrong (s : State) (named : Nat) : State :=
  let s1 := (s.releaseOwner).modHwl fun h => { h with pairMismatch := true, paired := false }
  s1.reportOut (.alarm 5 0 named)

/-- What a PAIR brings (R367, R382). -/
def State.heardPair (s : State) (l : HwlHeader) (named : Nat) (rejoin : Bool) (base : BitVec 32) (inHigh query answer : Bool) : State :=
  if s.hwl.assigned = false then s
  else if query = true then (if s.fromPartner l = true then s.sendPair false true else s)
  else if answer = true then
    if s.fromPartner l = false ∨ s.hwl.checkWiring = false ∨ s.hwl.queries = 0 then s
    else if inHigh = false then s.interlockFails else s.modHwl fun h => { h with checkWiring := false }
  else if s.fromPartner l = true ∧ named = s.hwl.nodeId.toNat then s.pairUp rejoin base
  else s.pairWrong named

/-- PAIR (R367, R382): received from a node. -/
def execPair (l : HwlHeader) (t : Nat) (s0 : State) : Host.Outcome State Fault Refusal :=
  let s := s0.advance t
  let b := l.payload
  .next (s.hwlReceive l 0x04 fun st =>
    st.heardPair l (fieldAt b 0 1) (bitAt b 1 0) (BitVec.ofNat 32 (fieldAt b 2 4)) (bitAt b 6 0) (bitAt b 6 1) (bitAt b 6 2))

/-- PAIR_TIMEOUT (R367): no pairing within 10 × PARTNER_TIMEOUT of the assignment: the partner is treated as lost. -/
def execPairTimeout (t : Nat) (s0 : State) : Host.Outcome State Fault Refusal :=
  let s := s0.advance t
  .next (if s.boot.headEnd = true ∧ s.hwl.assigned = true ∧ s.hwl.paired = false ∧ s.hwl.assignedAt + msTicks (10 * s.item iPartnerTimeout) ≤ s.now
    then s.partnerIsLost else s)

/-- HEARTBEAT_SEND (Table 12.2): every HEARTBEAT_MS a heartbeat to the partner. -/
def execHeartbeatSend (t : Nat) (s0 : State) : Host.Outcome State Fault Refusal :=
  let s := s0.advance t
  .next (if s.hwl.paired = true ∧ s.hwl.heartbeatAt + msTicks (s.item iHeartbeatMs) ≤ s.now then
      (s.modHwl fun h => { h with heartbeatAt := s.now }).hwlSend (s.partner.getD 0) 0 .heartbeat
    else s)

/-- HEARTBEAT (R384): like every packet of the partner, it refreshes its liveness. -/
def execHeartbeat (l : HwlHeader) (t : Nat) (s0 : State) : Host.Outcome State Fault Refusal :=
  let s := s0.advance t
  .next (s.hwlReceive l 0x05 fun st => st)

/-- LEAVE (R384): the partner is declared lost at once. -/
def execLeave (l : HwlHeader) (t : Nat) (s0 : State) : Host.Outcome State Fault Refusal :=
  let s := s0.advance t
  .next (s.hwlReceive l 0x06 fun st => if st.fromPartner l = true then st.partnerIsLost else st)

/-- PARTNER_TIMEOUT (R384): PARTNER_TIMEOUT ms without a packet from the partner. -/
def execPartnerTimeout (t : Nat) (s0 : State) : Host.Outcome State Fault Refusal :=
  let s := s0.advance t
  .next (if s.hwl.paired = true ∧ s.hwl.partnerHeard + msTicks (s.item iPartnerTimeout) ≤ s.now then s.partnerIsLost else s)

/-! ## The mirror stream (R368 to R374) -/

/-- The frame in which a mirrored record enters source 9 (R138). -/
def State.mirrorFrame (s : State) (r : Record) : Frame :=
  ⟨9, none, s.cyc.synth, s.tim.regressed, r.cycle, r.zcOffset, r.snr, r.hops, r.rxPhase, 0xFFFF, r.rxTime, 0, true, [], .mirror r⟩

/-- A context operation of the stream enters its meter's lane; what this node asked its partner to sequence has come back (R373). -/
def State.streamOp (s : State) (g : Gmn) (o : CtxOp) (w : Option SeqWork) : State :=
  let s1 := match w with
    | some x => s.seqReturned x
    | none => s
  match s1.indexFor g with
  | some i => s1.queueOp (laneOf i) o
  | none => s1

/-- End of the stored time before a rejoin: the newest stored reading's RX_TIME. -/
def Ful.lastStored (f : Ful) : Nat :=
  f.entries.foldl (fun a e => match e.2 with
    | .record r _ _ _ => if recordOk r = true then max a r.rxTime.toNat else a
    | _ => a) 0

/-- HANDBACK is delivered (R386): this node is primary for its own range again, and the gap of its store is recorded. -/
def State.handback (s : State) : State :=
  if s.hwl.ownRange = true then s
  else
    let s1 := (s.modHwl fun h => { h with ownRange := true }).syncDone
    s1.event .operations 17 0x84 0 (s1.ful.lastStored + 2 ^ 32 * (s1.sec2020 % 2 ^ 32))

/-- A part of an MSYNC arrives (R374): part 0 begins anew, and with the last one the whole state goes into the meter's lane as one context
operation. -/
def State.syncPart (s : State) (g : Gmn) (reason part parts : Nat) (data : List Byte) : State :=
  let others := s.hwl.syncParts.filter fun x => decide (x.gmn ≠ g)
  let held := if part = 0 then [] else ((s.hwl.syncParts.find? fun x => decide (x.gmn = g)).map SyncParts.parts).getD []
  if held.length ≠ part then s
  else
    let all := held ++ [data]
    if part + 1 < parts then s.modHwl fun h => { h with syncParts := others ++ [⟨g, reason, all⟩] }
    else
      let first := all.getD 0 []
      let closed := (all.drop 1).flatMap fun d => (pieces 640 (d.length / 640) d).map closedOfBytes
      (s.modHwl fun h => { h with syncParts := others }).streamOp g
        (.sync g reason (withMirrored Context.empty (first.take 184)) (slotOfBytes (first.drop 184)) closed) none

/-- Deliver a packet of the stream to its destination; `none` while source 9 holds no credits for a record. -/
def State.mirrorDeliver (s : State) (b : HwlBody) : Option State :=
  match b with
  | .mrec r => if s.frameFits (s.mirrorFrame r) = true then some (s.ingestFrame (s.mirrorFrame r)) else none
  | .mest r => some (match s.indexFor r.gmn with
      | some i => s.modHwl fun h => { h with mests := Table.set none h.mests i (some r) }
      | none => s)
  | .mfeed f => some (s.feederArrived f none true)
  | .mjob g op => some (s.streamOp g (.legal g op none true) (some (.legal g op)))
  | .mctx j => some (match jobGmn j with
      | some g => s.streamOp g (.job j none true) (some (.context j))
      | none => s)
  | .cut id lane => some (s.queueOp ⟨lane % 4, Nat.mod_lt _ (by decide)⟩ (.barrier id (s.partner.getD 0)))
  | .msync g reason part parts data => some (s.syncPart g reason part parts data)
  | .handback => some s.handback
  | _ => some s

/-- A barrier of the partner's range opens the cut that its lanes will pass; one that is not complete is abandoned (R375, R376). -/
def State.openCut (s : State) (b : HwlBody) : State :=
  match b with
  | .cut id _ =>
    let d := s.partner.getD 0
    if (s.hwl.cuts.any fun c => decide (c.cutId = id ∧ c.range = d)) = true then s
    else
      let s1 := if (s.hwl.cuts.any fun c => decide (c.range = d)) = true then s.note cHwlDigestLate .operations .second 0 id else s
      s1.modHwl fun h => { h with cuts := (h.cuts.filter fun c => decide (c.range ≠ d)) ++ [⟨id, d, 0, false, [], [], [], []⟩] }
  | _ => s

/-- An MACK names the highest MSEQ delivered in order (R369). -/
def State.sendMack (s : State) : State :=
  (s.modHwl fun h => { h with mackSince := none }).hwlSend (s.partner.getD 0) 0 (.mack (s.hwl.expectIn - 1))

/-- Deliver held packets in MSEQ order; `n` bounds the count. -/
def State.mirrorDrain (s : State) : Nat → State
  | 0 => s
  | n + 1 =>
    match s.hwl.heldIn.find? fun e => decide (e.1 = s.hwl.expectIn) with
    | none => s
    | some e =>
      match (s.openCut e.2).mirrorDeliver e.2 with
      | none => s
      | some s1 =>
        let s2 := s1.modHwl fun h => { h with expectIn := h.expectIn + 1, heldIn := h.heldIn.erase e, mackSince := some (h.mackSince.getD s.now) }
        (if s2.hwl.expectIn.toNat % 64 = 0 then s2.sendMack else s2).mirrorDrain n

/-- Deliver what may be delivered, and watch the gap (R369). -/
def State.mirrorPump (s : State) : State :=
  let s1 := s.mirrorDrain (s.hwl.heldIn.length)
  let gap := s1.hwl.heldIn.any fun e => decide (e.1 = s1.hwl.expectIn)
  s1.modHwl fun h =>
    { h with gapSince := if h.heldIn = [] ∨ gap = true then none else if h.expectIn = s.hwl.expectIn then some (h.gapSince.getD s.now) else some s.now }

/-- A packet of the partner's stream arrives (R369): a duplicate is discarded, others are held until their turn.  One that finds 256 held is
dropped, to be resent, and counts with the gap that it lies beyond (R20; DESIGN CHOICE, notes/assumptions/168.md). -/
def State.mirrorIn (s : State) (l : HwlHeader) (b : HwlBody) : State :=
  if s.fromPartner l = false ∨ s.hwl.paired = false then s
  else if 2 ^ 31 ≤ (l.tag - s.hwl.expectIn).toNat ∨ (s.hwl.heldIn.any fun e => decide (e.1 = l.tag)) = true then
    s.note cHwlMirrorDup .operations .second 0 0
  else if l.tag ≠ s.hwl.expectIn ∧ 256 ≤ s.hwl.heldIn.length then s.note cHwlMirrorGap .operations .second 0 0
  else (s.modHwl fun h => { h with heldIn := h.heldIn ++ [(l.tag, b)] }).mirrorPump

/-- MREC (R369): a reading record of the partner's range. -/
def execMrec (l : HwlHeader) (t : Nat) (s0 : State) : Host.Outcome State Fault Refusal :=
  let s := s0.advance t
  .next (s.hwlReceive l 0x10 fun st => st.mirrorIn l (.mrec (recordOf l.payload)))

/-- MEST (R371): the partner's estimate, held until VAL builds its own. -/
def execMest (l : HwlHeader) (t : Nat) (s0 : State) : Host.Outcome State Fault Refusal :=
  let s := s0.advance t
  .next (s.hwlReceive l 0x11 fun st => st.mirrorIn l (.mest (recordOf l.payload)))

/-- MFEED (R369): a feeder record, to BAL and Fuller. -/
def execMfeed (l : HwlHeader) (t : Nat) (s0 : State) : Host.Outcome State Fault Refusal :=
  let s := s0.advance t
  .next (s.hwlReceive l 0x12 fun st => st.mirrorIn l (.mfeed (feederOf l.payload)))

/-- MJOB (R369, R373): a legal job as the acting primary committed it, which its payload spells (notes/assumptions/177.md, DESIGN CHOICE). -/
def execMjob (l : HwlHeader) (gmn : Gmn) (op : LegalOp) (t : Nat) (s0 : State) : Host.Outcome State Fault Refusal :=
  let s := s0.advance t
  .next (s.hwlReceive l 0x13 fun st => st.mirrorIn l (.mjob gmn op))

/-- MCTX (R369): a context operation of the partner's range, which its payload spells (notes/assumptions/177.md, DESIGN CHOICE). -/
def execMctx (l : HwlHeader) (job : JobBody) (t : Nat) (s0 : State) : Host.Outcome State Fault Refusal :=
  let s := s0.advance t
  .next (s.hwlReceive l 0x14 fun st => st.mirrorIn l (.mctx job))

/-- CUT (R375): a digest barrier for a lane. -/
def execCut (l : HwlHeader) (t : Nat) (s0 : State) : Host.Outcome State Fault Refusal :=
  let s := s0.advance t
  .next (s.hwlReceive l 0x15 fun st => st.mirrorIn l (.cut (fieldAt l.payload 0 4) (fieldAt l.payload 4 1 % 4)))

/-- MSYNC (R374): a part of a meter's whole state. -/
def execMsync (l : HwlHeader) (t : Nat) (s0 : State) : Host.Outcome State Fault Refusal :=
  let s := s0.advance t
  let b := l.payload
  .next (s.hwlReceive l 0x16 fun st =>
    st.mirrorIn l (.msync (BitVec.ofNat 20 (fieldAt b 0 4)) (fieldAt b 2 1 / 16) (fieldAt b 4 1) (fieldAt b 5 1) (b.drop 8)))

/-- HANDBACK (R386): the survivor hands the returning node its range. -/
def execHandback (l : HwlHeader) (t : Nat) (s0 : State) : Host.Outcome State Fault Refusal :=
  let s := s0.advance t
  .next (s.hwlReceive l 0x17 fun st => st.mirrorIn l .handback)

/-- The partner has acknowledged the stream up to an MSEQ (R369, R373, R18): the window empties, and reports that waited go out. -/
def State.mirrorAck (s : State) (m : BitVec 32) : State :=
  let acked (x : BitVec 32) : Bool := decide ((m - x).toNat < 2 ^ 31)
  let go := s.hwl.heldReports.filter fun x => acked x.mseq
  let settled := (s.hwl.window.filter fun e => acked e.1).filterMap fun e => match e.2 with
    | .msync g 2 part parts _ => if part + 1 = parts then s.heldIndex g else none
    | _ => none
  let s1 := s.modHwl fun h =>
    { h with mseqAcked := m, window := h.window.filter (fun e => !acked e.1), heldReports := h.heldReports.filter (fun x => !acked x.mseq),
             mismatch := h.mismatch.filter fun i => decide (i ∉ settled) }
  let s2 := (s1.sendHeld false go).flushReadings
  if s2.hwl.syncing = true ∧ s2.hwl.ownRange = true ∧ s2.hwl.window = [] then s2.syncDone else s2

/-- MACK (R369): the partner's acknowledgement. -/
def execMack (l : HwlHeader) (t : Nat) (s0 : State) : Host.Outcome State Fault Refusal :=
  let s := s0.advance t
  .next (s.hwlReceive l 0x18 fun st =>
    if st.fromPartner l = true then st.mirrorAck (BitVec.ofNat 32 (fieldAt l.payload 0 4)) else st)

/-- A record of the window that fails its RCK as the sender reads it again is counted and not sent: its MSEQ carries the first packet of an
MSYNC of the meter, whose further packets follow at the end of the stream (R370; DESIGN CHOICE for those, notes/assumptions/179.md). -/
def State.replaceSpoilt (s : State) (m : BitVec 32) : State :=
  match s.hwl.window.find? fun e => decide (e.1 = m) with
  | some (_, .mrec x) => go x.gmn
  | some (_, .mest x) => go x.gmn
  | _ => s
where
  go (g : Gmn) : State :=
    match s.heldIndex g with
    | none => s
    | some i => match s.syncBodies i 0 with
      | [] => s
      | b :: more =>
        let s1 := (s.bump cHwlRckFail).modHwl fun h => { h with window := h.window.map fun e => if e.1 = m then (m, b) else e }
        (more.foldl State.streamNext s1).bump cHwlSyncSent

/-- Resend the stream from an MSEQ, in order (R370). -/
def State.resendFrom (s : State) (m : BitVec 32) : State :=
  (s.hwl.window.filter fun e => decide ((e.1 - m).toNat < 2 ^ 31)).foldl
    (fun st e => (st.hwlSend (st.partner.getD 0) e.1 e.2).bump cHwlMirrorResent) s

/-- MNAK (R370): the sender resends from the named MSEQ; the records of the MSEQs `spoilt` fail their RCK. -/
def execMnak (l : HwlHeader) (spoilt : List (BitVec 32)) (t : Nat) (s0 : State) : Host.Outcome State Fault Refusal :=
  let s := s0.advance t
  let m : BitVec 32 := BitVec.ofNat 32 (fieldAt l.payload 0 4)
  .next (s.hwlReceive l 0x19 fun st =>
    if st.fromPartner l = true then ((spoilt.filter fun x => decide ((x - m).toNat < 2 ^ 31)).foldl State.replaceSpoilt st).resendFrom m
    else st)

/-- MIRROR_GAP_TIMER (R369): a gap has lasted MIRROR_GAP_MS: an MNAK names the first missing MSEQ. -/
def execMirrorGapTimer (t : Nat) (s0 : State) : Host.Outcome State Fault Refusal :=
  let s := s0.advance t
  match s.hwl.gapSince with
  | none => .next s
  | some g =>
    .next (if s.now < g + msTicks (s.item iMirrorGapMs) then s
      else ((s.modHwl fun h => { h with gapSince := some s.now }).note cHwlMirrorGap .operations .second 0 0).hwlSend (s.partner.getD 0) 0
        (.mnak s.hwl.expectIn))

/-- MIRROR_ACK_TIMER (R369): 20 µs after the oldest delivery that no MACK names, an MACK; packets that waited for credits are tried again. -/
def execMirrorAckTimer (t : Nat) (s0 : State) : Host.Outcome State Fault Refusal :=
  let s := (s0.advance t).mirrorPump
  .next (match s.hwl.mackSince with
    | none => s
    | some d => if s.now < d + 491 then s else s.sendMack)

/-- SYNC_REQ (R372): answered with an MSYNC of the meter in the stream. -/
def execSyncReq (l : HwlHeader) (t : Nat) (s0 : State) : Host.Outcome State Fault Refusal :=
  let s := s0.advance t
  let reason := fieldAt l.payload 4 4
  .next (s.hwlReceive l 0x1A fun st =>
    match st.heldIndex (BitVec.ofNat 20 (fieldAt l.payload 0 4)) with
    | some i => if st.fromPartner l = true ∧ (i < 16384 ∨ reason = 2) then st.mirrorSync i reason else st
    | none => st)

/-! ## Digests (R376, R377) -/

/-- A cut that has not been abandoned. -/
def State.cutOf (s : State) (id range : Nat) : Option Cut := s.hwl.cuts.find? fun c => decide (c.cutId = id ∧ c.range = range)

/-- DIGEST (R376): digests of the primary's blocks from FIRST on, or, once blocks have been asked for, the next meter digests of those. -/
def execDigest (l : HwlHeader) (t : Nat) (s0 : State) : Host.Outcome State Fault Refusal :=
  let s := s0.advance t
  let b := l.payload
  let id := fieldAt b 0 4
  let range := fieldAt b 4 1
  let ds := pieces 64 (fieldAt b 6 1) (b.drop 8)
  .next (s.hwlReceive l 0x1B fun st =>
    if st.fromPartner l = false ∨ range = st.hwl.nodeId.toNat then st
    else match st.cutOf id range with
      | none => st
      | some c =>
        let c1 : Cut := if c.asked = [] then { c with blocks := ds.zipIdx.foldl (fun tb d => Table.set [] tb (fieldAt b 5 1 + d.2) d.1) c.blocks }
          else { c with meters := c.meters ++ ds }
        (st.setCut c1).compareCut c1)

/-- DIGEST_REQ (R376): the 64 meter digests of each requested block are sent. -/
def execDigestReq (l : HwlHeader) (t : Nat) (s0 : State) : Host.Outcome State Fault Refusal :=
  let s := s0.advance t
  let b := l.payload
  .next (s.hwlReceive l 0x1C fun st =>
    if st.fromPartner l = false ∨ fieldAt b 4 1 ≠ st.hwl.nodeId.toNat then st
    else match st.cutOf (fieldAt b 0 4) (fieldAt b 4 1) with
      | none => st
      | some c => (blocksOf (partOf b 8 32)).foldl (fun u k =>
          u.sendDigests c.cutId c.range ((List.range 64).map fun m => c.meterDigest (64 * k + m))) st)

/-- DIGEST_RESULT (R377): the partner names the slots that differ. -/
def execDigestResult (l : HwlHeader) (t : Nat) (s0 : State) : Host.Outcome State Fault Refusal :=
  let s := s0.advance t
  let b := l.payload
  let slots := (List.range (fieldAt b 6 2)).map fun k => fieldAt b (8 + 2 * k) 2
  .next (s.hwlReceive l 0x1D fun st =>
    if st.fromPartner l = true ∧ fieldAt b 4 1 = st.hwl.nodeId.toNat then
      (st.markMismatch (fieldAt b 0 4) (fieldAt b 4 1) slots).cutCompared (fieldAt b 0 4) (fieldAt b 4 1)
    else st)

/-! ## Other packets of the pair (R23, R373, R383) -/

/-- FWD_ENTRY (R23, R19): a forwarded bundle entry enters source 8; without credits it stays in the port's receive buffer.  A payload that does
not hold the entry after its ingest header is of no valid form (notes/assumptions/178.md, DESIGN CHOICE). -/
def execFwdEntry (l : HwlHeader) (e : RelayEntry) (t : Nat) (s0 : State) : Host.Outcome State Fault Refusal :=
  let s := s0.advance t
  let f := entryFrame e 8
  .next (if l.dst = s.hwl.nodeId ∧ s.frameFits f = false then s
    else s.hwlReceive l 0x20 fun st =>
      if l.payload.drop 32 = entryData e then (st.ingestFrame f).bump cHwlFwdEntries else st.bump (cPortTypeInvalid l.port.val))

/-- SEQ_REQ (R373): the acting primary takes the work, which the payload spells (notes/assumptions/177.md, DESIGN CHOICE), into the meter's
lane, commits it and mirrors it. -/
def execSeqReq (l : HwlHeader) (w : SeqWork) (t : Nat) (s0 : State) : Host.Outcome State Fault Refusal :=
  let s := s0.advance t
  .next (s.hwlReceive l 0x21 fun st =>
    match w with
    | .legal g op => st.streamOp g (.legal g op none false) none
    | .context b => match jobGmn b with
      | some g => st.streamOp g (.job b none false) none
      | none => st)

/-- ACTION_REQ (R234, R383): the owner issues the action or refuses it, and replies (the reply's form is the model's own, DESIGN
CHOICE, notes/assumptions/37.md). -/
def execActionReq (l : HwlHeader) (t : Nat) (s0 : State) : Host.Outcome State Fault Refusal :=
  let s := s0.advance t
  let gmn : Gmn := BitVec.ofNat 20 (fieldAt l.payload 0 4)
  let action := fieldAt l.payload 4 1
  .next (s.hwlReceive l 0x22 fun st =>
    let reply (u : State) (done : Bool) : State :=
      u.hwlSend l.src.toNat 0 (.report
        ⟨.jobResult (if done = true then 0 else 1) 0 0 (leBytes 4 gmn.toNat ++ leBytes 1 action), .none, true, false, false, 0, u.hwl.nodeId⟩)
    match st.heldIndex gmn with
    | none => reply st false
    | some i =>
      if st.hwl.owner = false ∨ st.mismatched i = true ∨ (action ≠ 2 ∧ action ≠ 3) then reply (st.actionBarred i 6 st.sec2020) false
      else if st.item iMaxActionsPerDay ≤ st.actionsToday then reply (st.actionBarred i 5 st.sec2020) false
      else reply (st.issueAction i action st.sec2020) true)

end Sys2Proof.Machine
end

