-- ==== Sys2Proof/Machine/PhysMap.lean ====
section
/-!
DEFINITION. The device physical map and what an access to it meets (R25 to R27, R30, R38, R396, R448, R452), and the memory bytes that
masters store there.
-/

namespace Sys2Proof.Machine

/-! ## The map -/

/-- The areas of AON SRAM: offset and size of each (Table 1.11): management code, nonce cache, Waybill buffer, TXN generations, debug token,
retained values, reserved. -/
def aonLayout : List (Nat × Nat) :=
  [(0x00000, 0x28000), (0x28000, 0xC000), (0x34000, 0x2000), (0x36000, 0x400), (0x36400, 0x400), (0x36800, 0x1000), (0x37800, 0x8800)]

/-- NOR partitions: offset and size in MiB (Table 1.9). -/
def norPartitions : List (Nat × Nat) := [(0, 1), (1, 1), (2, 1), (3, 1), (4, 4), (8, 4), (12, 16), (28, 16), (44, 16), (60, 4)]

/-- What lies at a device physical address (Table 1.6): a target of Table 14.8, the register window at an offset, or nothing. -/
inductive Place where
  | target (t : Nat)
  | window (a : Nat)
  | nowhere
  deriving DecidableEq, Repr

/-- The first of some areas, given as offset and size in MiB, that holds an offset in bytes. -/
def areaOf (areas : List (Nat × Nat)) (o : Nat) : Option Nat :=
  areas.findIdx? fun r => decide (r.1 * 2 ^ 20 ≤ o ∧ o < (r.1 + r.2) * 2 ^ 20)

/-- A target that no entry grants: memory that exists and belongs to no target of Table 14.8. -/
def noTarget : Nat := 1024

/-- Installed SDRAM in bytes: the boot header's, once step 4 has brought it up. -/
def State.sdramBytes (s : State) : Nat :=
  if s.boot.reduced = true then 0 else ((s.nor.bootHeader.map BootHeader.sdramGib).getD 0).toNat * 2 ^ 30

/-- The place of a byte. -/
def State.placeOf (s : State) (p : Nat) : Place :=
  if p < 0x20000 then .target 512
  else if 0x10000000 ≤ p ∧ p < 0x10400000 then .target 513
  else if 0x18000000 ≤ p ∧ p < 0x18080000 then .target 514
  else if 0x1C000000 ≤ p ∧ p < 0x1C040000 then .target 515
  else if windowBase ≤ p ∧ p < windowBase + 0x1000000 then .window (p - windowBase)
  else if 0x40000000 ≤ p ∧ p < 0x40000000 + min (s.nor.sizeMib * 2 ^ 20) (2 ^ 29) then
    .target (match areaOf norPartitions (p - 0x40000000) with
      | some i => 560 + i
      | none => noTarget)
  else if 0x100000000 ≤ p ∧ p < 0x100000000 + s.sdramBytes then
    .target (match areaOf s.boot.sdramRegions (p - 0x100000000) with
      | some i => 528 + i
      | none => noTarget)
  else .nowhere

/-- The device physical address of a BAR2 offset (R38, R397, R399): SDRAM region 9, or in reduced recovery the top 1 MiB of shared SRAM, of
which the queue takes the first 4 KiB and the attachment area the last 768 KiB (DESIGN CHOICE: the spec does not place them within it,
notes/assumptions/127.md). -/
def State.bar2At (s : State) (o : Nat) : Option Nat :=
  if s.boot.reduced = true then
    if o < 0x1000 then some (0x10300000 + o)
    else if 0x1000000 ≤ o ∧ o < 0x10C0000 then some (0x10340000 + (o - 0x1000000))
    else none
  else match s.boot.sdramRegions[9]? with
    | none => none
    | some r => if o < r.2 * 2 ^ 20 then some (0x100000000 + r.1 * 2 ^ 20 + o) else none

/-! ## Memory -/

/-- Bytes of memory from an address; a byte that no access has stored is a free value (notes/assumptions/128.md). -/
def State.memBytes (s : State) (p n : Nat) : List Byte :=
  (List.range n).map fun k => (Table.get none s.mem (p + k)).getD (Config.memByte s.draws (p + k))

/-- Store bytes. -/
def State.storeBytes (s : State) (p : Nat) (bs : List Byte) : State :=
  { s with mem := ((List.range bs.length).zip bs).foldl (fun m x => Table.set none m (p + x.1) (some x.2)) s.mem }

/-! ## Accesses -/

/-- An access that no entry of the map answers (R25): an error response and a security event, whose code the spec does not list. -/
def State.unmapped (s : State) (m : Master) (a : Nat) : State :=
  (s.event .security 8 (Config.openEventCode 6).toNat m.val a).emit (.busError m.val a)

/-- The target that refuses an access of `n` bytes: its first byte's, then its last byte's (R448). -/
def State.refusedAt (s : State) (m : Master) (kind p n : Nat) : Option Nat :=
  ([p, p + n - 1] : List Nat).findSome? fun q => match s.placeOf q with
    | .target t => if s.accGranted m t kind = true then none else some t
    | _ => none

/-- What an access of `n` bytes at a device physical address meets: nothing there, the register window, a refusal, or memory. -/
inductive BusCheck where
  | unmapped
  | window (a : Nat)
  | refused (t : Nat)
  | memory
  deriving DecidableEq, Repr

/-- Classify an access of kind 0 read, 1 write or 2 fetch. -/
def State.busCheck (s : State) (m : Master) (kind p n : Nat) : BusCheck :=
  match s.placeOf p with
  | .window a => .window a
  | .nowhere => .unmapped
  | .target _ =>
    if s.placeOf (p + n - 1) = .nowhere then .unmapped
    else match s.refusedAt m kind p n with
      | some t => .refused t
      | none => .memory

/-- A read or fetch by a device physical address; an access of no byte reads nothing (R8). -/
def State.deviceRead (s : State) (m : Master) (fetch : Bool) (p n : Nat) : State × Word :=
  let kind := if fetch = true then 2 else 0
  match s.busCheck m kind p n with
  | .unmapped => (s.unmapped m p, 0xFFFFFFFF)
  | .window a => s.readAnswer m a n
  | .refused t => ((s.refuseAccess m kind t p).emit (.busError m.val p), 0xFFFFFFFF)
  | .memory => (s.drawn, BitVec.ofNat 32 (leNat (s.memBytes p n)))

/-- A write by a device physical address.  NOR is read only in the map: a write there that an entry grants changes nothing and completes
with an error response (DESIGN CHOICE, notes/assumptions/128.md). -/
def State.deviceWrite (s : State) (m : Master) (p n : Nat) (v : Word) : State :=
  match s.busCheck m 1 p n with
  | .unmapped => s.unmapped m p
  | .window a => s.masterWrite m a n v
  | .refused t => (s.refuseAccess m 1 t p).emit (.busError m.val p)
  | .memory => if p < 0x40000000 ∨ 0x100000000 ≤ p then s.storeBytes p (leBytes n v.toNat) else s.emit (.busError m.val p)

/-- BAR2 answers before the queues open as R35 states for register pages (R396). -/
def State.bar2Closed (s : State) : Bool := !s.host.queuesOpen

/-- A read of BAR4 (R395, Table 13.1): the MSI-X table at +0, the pending bits at +8 KiB; the rest reads zero (PRESUMED,
notes/assumptions/173.md). -/
def State.bar4Read (s : State) (m : Master) (a n : Nat) : State × Word :=
  if n ≠ 4 ∨ a % 4 ≠ 0 ∨ 0x4000 ≤ a then (s.emit (.busError m.val a), 0xFFFFFFFF)
  else if a < 128 ∧ a % 16 = 12 then (s, s.reg (msixBase + a) ^^^ 1#32)
  else if a < 128 ∨ a = 0x2000 then (s, s.reg (msixBase + a))
  else (s, 0)

/-- A write of BAR4: a pending vector that is unmasked fires (PRESUMED: PCIe's rule, notes/assumptions/173.md). -/
def State.bar4Write (s : State) (m : Master) (a n : Nat) (v : Word) : State :=
  if n ≠ 4 ∨ a % 4 ≠ 0 ∨ 0x4000 ≤ a then s.emit (.busError m.val a)
  else if 128 ≤ a then s
  else if a % 16 ≠ 12 then s.setReg (msixBase + a) v
  else
    let k := a / 16
    let s1 := s.setReg (msixBase + a) (~~~v &&& 1#32)
    if s1.msixMasked k = true ∨ (s1.reg msixPending).getLsbD k = false then s1
    else (s1.setReg msixPending (s1.reg msixPending &&& ~~~(1#32 <<< k))).msixMessage k

/-- A read through a space. -/
def State.spaceRead (s : State) (sp : Space) (m : Master) (fetch : Bool) (a n : Nat) : State × Word :=
  match sp with
  | .bar0 => s.readAnswer m a n
  | .bar4 => s.bar4Read m a n
  | .bar2 =>
    if s.bar2Closed = true then (s, 0)
    else match s.bar2At a with
      | none => (s.emit (.busError m.val a), 0xFFFFFFFF)
      | some p => s.deviceRead m fetch p n
  | .device => s.deviceRead m fetch a n

/-- A write through a space. -/
def State.spaceWrite (s : State) (sp : Space) (m : Master) (a n : Nat) (v : Word) : State :=
  match sp with
  | .bar0 => s.masterWrite m a n v
  | .bar4 => s.bar4Write m a n v
  | .bar2 =>
    if s.bar2Closed = true then s
    else match s.bar2At a with
      | none => s.emit (.busError m.val a)
      | some p => s.deviceWrite m p n v
  | .device => s.deviceWrite m a n v

/-- LOW_WORD_READ (R12, R25): a read by a master; the low word of a pair latches the high word for the same master's next read of it. -/
def execLowWordRead (sp : Space) (m : Master) (fetch : Bool) (a size : Nat) (t : Nat) (s0 : State) : Host.Outcome State Fault Refusal :=
  let s := s0.advance t
  let r := s.spaceRead sp m fetch a size
  .next (r.1.emit (.readData m.val a r.2))

/-- REGISTER_WRITE (R10, R25). -/
def execRegisterWrite (sp : Space) (m : Master) (a size : Nat) (v : Word) (t : Nat) (s0 : State) : Host.Outcome State Fault Refusal :=
  let s := s0.advance t
  .next (s.spaceWrite sp m a size v)

end Sys2Proof.Machine
end

