-- ==== Sys2Proof/Machine/Standby.lean ====
section
/-!
DEFINITION. Leaving and entering STANDBY, the loss of the main domains, and the starts that resets bring (R464 to R467, R475, R527 to
R529).
-/

namespace Sys2Proof.Machine

/-! ## Starts -/

/-- A reset of a class other than SWP, with the start that follows it (R33, R474). -/
def State.resetAndStart (s : State) (cls : ResetClass) (e : StartEnv) (timeout escalated : Bool) : State :=
  let vbat := if cls = .por then s.pins.aonSupply || e.vbatHeld else e.vbatHeld
  let s1 := s.applyReset cls vbat timeout escalated
  let s2 : State :=
    { s1 with pins := { s1.pins with railsOk := true, aonReset := true, pwrEnMain := true, mainOk := true, railAttempts := 0,
                                     wakePending := false, aonSupply := true } }
  s2.startDevice e false

/-- A wake with its rails in range (R466, R467): class 8. -/
def State.wakeStart (s : State) (e : StartEnv) : State := (((s.setMode .boot 8).bump cPwrStandbyWakes).resetAndStart .wake e false false)

/-- A wake (R466): PWR_EN_MAIN rises, and the start follows once the main rails are in range. -/
def State.wakeNow (s : State) (e : StartEnv) : State :=
  if e.rails = true then s.wakeStart e
  else { s with pins := { s.pins with pwrEnMain := true, mainOk := false, railAttempts := 0, wakePending := true, railAt := s.now } }

/-- T_max has stayed below THERMAL_WAKE_C for 60 s. -/
def State.cooled (s : State) : Bool :=
  match s.pwr.coolSince with
  | none => false
  | some t => decide (t + 60 * ticksPerSec ≤ s.now)

/-- A wake event in STANDBY: after a thermal shutdown it is held until the device has cooled. -/
def State.wakeEvent (s : State) (e : StartEnv) : State :=
  if s.pwr.mode ≠ .standby ∨ s.pins.wakePending = true then s
  else if s.pwr.thermalStandby = true ∧ s.cooled = false then s.modPwr fun p => { p with wakeHeld := true }
  else s.wakeNow e

/-! ## The main domains stop -/

/-- The main domains stop: what lies outside AON is lost; AON keeps the applied settings until the next start, and the side-band
answers on as `sb` says. -/
def State.mainOff (s : State) (sb : Bool) : State :=
  let c := s.cleared .wake true
  let b := s.boot
  { c with cfg := s.cfg,
           boot := { b with stage := 0, locked := false, expertUntil := none, expertStep := false, watchdogAt := none },
           rst := { s.rst with hold := none, heldInGasp := none, watchdogPending := false, swpAt := none },
           hwl := { Hwl.atReset with nodeId := s.hwl.nodeId, rejoin := true },
           sb := { s.sb with up := sb } }

/-- The headers take the LOST counts (R511). -/
def State.saveLost (s : State) : State :=
  [LogId.legal, LogId.security, LogId.operations].foldl (fun st g =>
    let l := st.way.log g
    match l.header with
    | none => st
    | some h => if h.lost = l.lost then st else st.modLog g fun x => x.writeHeader { h with lost := l.lost }) s

/-- Step 4 of Table 15.4: Waybill's records and MGC's counts go to NOR. -/
def State.saveInGasp (s : State) : State :=
  let s1 := (s.programBuffer []).saveLost
  let w := s1.way
  let s2 : State := { s1 with way := { w with opTimeSaved := w.opTime, powerCyclesSaved := w.powerCycles } }
  if s2.cyc.running = false then s2
  else { s2 with nor := { s2.nor with cycleReservation := some (s2.cyc.num + 2 ^ 21, s2.wall), lastBoundary := s2.cyc.lastBoundary } }

/-- STANDBY is entered at the end of GASP (R464, R465, R529). -/
def State.enterStandby (s : State) : State :=
  let cause := s.pwr.gaspCause
  let s1 := s.saveInGasp
  let s2 := if s1.rst.heldInGasp.isSome = true then s1.note cRstResetsDiscarded .operations .none 0 0 else s1
  let s3 := (s2.setMode .standby cause).mainOff s2.sb.up
  let p := s2.pwr
  { s3 with pwr := { s3.pwr with mode := .standby, budget := 3, startInProgress := false, thermalStandby := decide (cause = 7), gaspCause := cause,
                                 testStart := p.testStart, gaspStored := p.gaspStored, parked := 0xFFE,
                                 sensorFail := p.sensorFail, mismatchRuns := p.mismatchRuns },
            pins := { s3.pins with pwrEnMain := false, mainOk := false, wakePending := false, railAttempts := 0 } }

/-- The device is in RUN, TEST, THROTTLE, RIDE or RECOVERY, where the cluster must signal MGC. -/
def State.clusterRuns (s : State) : Bool :=
  match s.pwr.mode with
  | .boot | .gasp | .standby => false
  | _ => true

end Sys2Proof.Machine
end

