-- ==== Sys2Proof/Machine/Power.lean ====
section
/-!
DEFINITION. The commands of the mode machine: its inputs and evaluations, GASP, STANDBY and the wakes (R455 to R467).
-/

namespace Sys2Proof.Machine

/-- PFAIL_N_CHANGE (R457): the synchronised level of PFAIL_N changes. -/
def execPfailNChange (low : Bool) (t : Nat) (s0 : State) : Host.Outcome State Fault Refusal :=
  let s := s0.advance t
  .next (s.modPwr fun p => { p with pfailLow := low }).evaluate

/-- MODE_EVALUATION (R458, R459, R462): the mode and the budget level follow from the inputs, with VSCAP in mV and the mean input power
in mW as they are now. -/
def execModeEvaluation (vscap powerMw : Nat) (t : Nat) (s0 : State) : Host.Outcome State Fault Refusal :=
  let s := s0.advance t
  let s1 := ((s.modPwr fun p => { p with vscap := vscap }).judgePower powerMw).endConditions
  .next (s1.modPwr fun p => { p with metAssumed := p.metAssumed && !s1.cyc.mains && decide (s1.now < p.step15At + 2 * ticksPerSec) }).evaluate

/-- RIDE_TIME_EXPIRY (R458): the present ride reaches RIDE_TIME. -/
def execRideTimeExpiry (t : Nat) (s0 : State) : Host.Outcome State Fault Refusal :=
  let s := s0.advance t
  .next (if s.pwr.mode = .ride ∧ s.rideOver = true then s.evaluate else s)

/-- TEMPERATURE_SAMPLE (R461, R466): the four die sensors are sampled, in °C. -/
def execTemperatureSample (t0 t1 t2 t3 : Int) (t : Nat) (s0 : State) : Host.Outcome State Fault Refusal :=
  let s := s0.advance t
  let s1 := ([0, 1, 2, 3] : List Nat).foldl State.sampleSensor (s.modPwr fun p => { p with temps := [t0, t1, t2, t3] })
  let s2 := s1.judgeHeat
  let cool := s2.tMaxIs fun x => decide (x < (s2.item iThermalWakeC : Int))
  .next (s2.modPwr fun p => { p with coolSince := since s2.now (cool && p.thermalStandby && decide (p.mode = .standby)) p.coolSince }).evaluate

/-- THERMAL_CLEAR (R461, R462): a condition has stayed cleared for 10 s. -/
def execThermalClear (t : Nat) (s0 : State) : Host.Outcome State Fault Refusal :=
  let s := s0.advance t
  .next s.endConditions.evaluate

/-- GASP_FULLER_DEADLINE (R464): Fuller has not reported completion by 180 ms; what is dirty is abandoned and CLEAN stays unset. -/
def execGaspFullerDeadline (t : Nat) (s0 : State) : Host.Outcome State Fault Refusal :=
  let s := s0.advance t
  match s.pwr.gaspAt with
  | none => .next s
  | some a =>
    if s.pwr.mode ≠ .gasp ∨ s.pwr.gaspStored = true ∨ s.now < a + 180 * ticksPerMs then .next s
    else
      let s1 := s.note cPwrGaspLate .operations .none 0 0
      .next { s1 with ful := { s1.ful with dirty := [] }, pwr := { s1.pwr with gaspStored := true } }

/-- STANDBY_ENTRY (R464): 250 ms into GASP every domain but AON stops. -/
def execStandbyEntry (t : Nat) (s0 : State) : Host.Outcome State Fault Refusal :=
  let s := s0.advance t
  match s.pwr.gaspAt with
  | none => .next s
  | some a => .next (if s.pwr.mode ≠ .gasp ∨ s.now < a + 250 * ticksPerMs then s else s.enterStandby)

/-- WAKE_N_LOW (R466). -/
def execWakeNLow (e : StartEnv) (t : Nat) (s0 : State) : Host.Outcome State Fault Refusal :=
  let s := s0.advance t
  .next (s.wakeEvent e)

/-- Eight consecutive crossings, each period within ±10 % of nominal (R466). -/
def State.crossingsReturn (s : State) (periods : List Nat) : Bool :=
  let last := periods.drop (periods.length - 8)
  decide (8 ≤ periods.length) && last.all fun p => decide (9 * ticksPerSec ≤ 10 * s.nominalHz * p ∧ 10 * s.nominalHz * p ≤ 11 * ticksPerSec)

/-- STANDBY_MAINS_RETURN (R466): mains returns, as PFAIL_N high or as crossings at V1 whose last periods are `periods` in AFE clocks; it
wakes a STANDBY that followed a mains loss. -/
def execStandbyMainsReturn (periods : List Nat) (e : StartEnv) (t : Nat) (s0 : State) : Host.Outcome State Fault Refusal :=
  let s := s0.advance t
  .next (if (s.pwr.gaspCause = 3 ∨ s.pwr.gaspCause = 5 ∨ s.pwr.gaspCause = 6) ∧ (s.pwr.pfailLow = false ∨ s.crossingsReturn periods = true)
    then s.wakeEvent e else s)

/-- THERMAL_WAKE (R466): the device has cooled for 60 s, and a held wake event acts. -/
def execThermalWake (e : StartEnv) (t : Nat) (s0 : State) : Host.Outcome State Fault Refusal :=
  let s := s0.advance t
  .next (if s.pwr.mode = .standby ∧ s.pwr.wakeHeld = true ∧ s.cooled = true ∧ s.pins.wakePending = false then s.wakeNow e else s)

end Sys2Proof.Machine
end

