-- ==== Sys2Proof/Machine/Reset.lean ====
section
/-!
DEFINITION. The commands of supplies, resets and watchdogs (R34, R168, R474 to R476, R527 to R529).
-/

namespace Sys2Proof.Machine

/-- POWER_UP_SEQUENCE (R528, R531): the always-on rails are in range and ACT_OWN_OUT is driven; PWR_EN_MAIN rises 0.5 ms later. -/
def execPowerUpSequence (t : Nat) (s0 : State) : Host.Outcome State Fault Refusal :=
  let s := s0.advance t
  .next (if s.pins.aonReset = true then s
    else
      { s with
        pins := { s.pins with railsOk := true, aonReset := true, pwrEnMain := true, mainOk := false, railAttempts := 0,
                              actOwnHighZ := false, railAt := s.now + ticksPerMs / 2 } })

/-- PWR_EN_MAIN has been high for 50 ms and the main rails are not in range (R529). -/
def State.railsLate (s : State) : Bool :=
  s.pins.pwrEnMain && !s.pins.mainOk && decide (s.pins.railAt + 50 * ticksPerMs ≤ s.now)

/-- MAIN_RAIL_TIMEOUT (R529): the main rails are not in range 50 ms after PWR_EN_MAIN rose; it falls, and rises again 1 s later, twice. -/
def execMainRailTimeout (t : Nat) (s0 : State) : Host.Outcome State Fault Refusal :=
  let s := s0.advance t
  if s.railsLate = false then .next s
  else if s.pins.railAttempts < 2 then
    .next { s with pins := { s.pins with railAttempts := s.pins.railAttempts + 1, railAt := s.now + ticksPerSec } }
  else
    .next { s with pins := { s.pins with pwrEnMain := false, railAttempts := 0, wakePending := false }, sb := { s.sb with up := true },
                   pwr := { s.pwr with mode := .standby, budget := 3, startInProgress := false } }

/-- MAIN_RAIL_DROP (R529): a main rail leaves its range while PWR_EN_MAIN is high; the main domains stop, and its return is a POR.  The
50 ms of a rail that does not return count from the drop: DESIGN CHOICE (notes/assumptions/186.md). -/
def execMainRailDrop (t : Nat) (s0 : State) : Host.Outcome State Fault Refusal :=
  let s := s0.advance t
  if s.pins.pwrEnMain = false ∨ s.pins.mainOk = false then .next s
  else
    let s1 := s.mainOff s.sb.up
    .next { s1 with pins := { s1.pins with mainOk := false, railAttempts := 0, railAt := s.now } }

/-- AON_SUPPLY_LOSS (R527, R531): VDD_AON falls below 0.70 V; AON SRAM and the RTC move onto VBAT, and everything else stops. -/
def execAonSupplyLoss (t : Nat) (s0 : State) : Host.Outcome State Fault Refusal :=
  let s := s0.advance t
  if s.pins.aonReset = false then .next s
  else
    let s1 := s.mainOff false
    .next { s1 with pins := { s1.pins with railsOk := false, aonReset := false, pwrEnMain := false, mainOk := false, railAttempts := 0,
                                           wakePending := false, aonSupply := false, actOwnHighZ := true } }

/-- POWER_ON_RESET (R474): the supplies have risen and the start runs: class POR, or a wake's start where one waits for its rails. -/
def execPowerOnReset (e : StartEnv) (t : Nat) (s0 : State) : Host.Outcome State Fault Refusal :=
  let s := s0.advance t
  .next (if s.pins.aonReset = false ∨ s.pins.pwrEnMain = false ∨ s.now < s.pins.railAt then s
    else if s.pins.wakePending = true then s.wakeStart e
    else s.resetAndStart .por e false false)

/-- HRST (R474): RESET_N has been low; the start waits for the main rails where they are down (Table 18.4). -/
def execHrst (e : StartEnv) (t : Nat) (s0 : State) : Host.Outcome State Fault Refusal :=
  let s := s0.advance t
  .next (if s.pins.aonReset = false then s
    else if e.rails = false then
      { s with
        pins := { s.pins with pwrEnMain := true, mainOk := false, railAttempts := 0, wakePending := false, railAt := s.now } }
    else s.resetAndStart .hrst e false false)

/-- WRM (R474): WRST_N has been low; the reset is held for Fuller. -/
def execWrm (t : Nat) (s0 : State) : Host.Outcome State Fault Refusal :=
  let s := s0.advance t
  .next (s.requestReset .wrm)

/-- HOLD_COMPLETE (R475): Fuller completes steps 1 to 4 of Table 11.4, and the held reset is applied. -/
def execHoldComplete (e : StartEnv) (t : Nat) (s0 : State) : Host.Outcome State Fault Refusal :=
  let s := s0.advance t
  match s.rst.hold with
  | none => .next s
  | some h => .next (s.flushFuller.resetAndStart h.cls e false h.escalated)

/-- HOLD_TIMEOUT (R475): 100 ms into a hold Fuller has not completed; the reset proceeds. -/
def execHoldTimeout (e : StartEnv) (t : Nat) (s0 : State) : Host.Outcome State Fault Refusal :=
  let s := s0.advance t
  match s.rst.hold with
  | none => .next s
  | some h => .next (if s.now < h.since + 100 * ticksPerMs then s else s.resetAndStart h.cls e true h.escalated)

/-- BOOT_WATCHDOG_EXPIRY (R34): 10 s have passed in a start since the boot ROM restarted its watchdog; the third expiry in a row forces
RECOVERY, which the start that follows it enters after step 5 (DESIGN CHOICE, notes/assumptions/126.md). -/
def execBootWatchdogExpiry (e : StartEnv) (t : Nat) (s0 : State) : Host.Outcome State Fault Refusal :=
  let s := s0.advance t
  if s.pwr.mode ≠ .boot ∨ s.boot.halted = true ∨ (s.boot.watchdogAt.all fun a => decide (s.now < a + 10 * ticksPerSec)) = true then .next s
  else
    let n := s.boot.watchdogExpiries + 1
    let s1 : State := { s with boot := { s.boot with watchdogExpiries := n } }
    .next ((s1.applyReset .wdg true false false).startDevice e (decide (3 ≤ n)))

/-- APP_HEARTBEAT (R476): the application cluster signals MGC. -/
def execAppHeartbeat (t : Nat) (s0 : State) : Host.Outcome State Fault Refusal :=
  let s := s0.advance t
  .next (if s.clusterRuns = false then s
    else { s with rst := { s.rst with heartbeatAt := s.now, watchdogPending := false, swpAt := none } })

/-- WATCHDOG_PENDING (R381, R476): no signal for 1 s; an owner drives ACT_OWN_OUT low. -/
def execWatchdogPending (t : Nat) (s0 : State) : Host.Outcome State Fault Refusal :=
  let s := s0.advance t
  .next (if s.clusterRuns = false ∨ s.now < s.rst.heartbeatAt + ticksPerSec then s
    else ({ s with rst := { s.rst with watchdogPending := true } }).releaseOwner)

/-- SYS_WATCHDOG_EXPIRY (R476): no signal for WDG_TIMEOUT; MGC takes WDG. -/
def execSysWatchdogExpiry (t : Nat) (s0 : State) : Host.Outcome State Fault Refusal :=
  let s := s0.advance t
  .next (if s.clusterRuns = false ∨ s.now < s.rst.heartbeatAt + s.item iWdgTimeout * ticksPerMs then s else s.requestReset .wdg)

/-- SWP_ESCALATION (R476): no signal within 2 s of an SWP; MGC takes SWF in its place. -/
def execSwpEscalation (t : Nat) (s0 : State) : Host.Outcome State Fault Refusal :=
  let s := s0.advance t
  match s.rst.swpAt with
  | none => .next s
  | some a =>
    .next (if s.clusterRuns = false ∨ s.now < a + 2 * ticksPerSec then s
      else match s.rst.hold with
        | some _ => s
        | none => ({ s with rst := { s.rst with swpAt := none } }).beginHold .swf true)

/-- LEGAL_WATCHDOG_EXPIRY (R168): the legal core has not shown itself for 2 s, where only its display frames show it (DESIGN CHOICE,
notes/assumptions/185.md); the legal partition enters its safe state. -/
def execLegalWatchdogExpiry (t : Nat) (s0 : State) : Host.Outcome State Fault Refusal :=
  let s := s0.advance t
  .next (if s.lgc.running = false ∨ s.lgc.watchdogAt.isSome = true ∨ s.now < s.lgc.servedAt + 2 * ticksPerSec then s
    else ({ s with bil := { s.bil with safe := true }, lgc := { s.lgc with watchdogAt := some s.now } }).event .legal 11 0x81 0 0)

/-- LEGAL_WATCHDOG_ESCALATION (R168): the core has not recovered 1 s after its watchdog expired; the device takes WDG. -/
def execLegalWatchdogEscalation (t : Nat) (s0 : State) : Host.Outcome State Fault Refusal :=
  let s := s0.advance t
  match s.lgc.watchdogAt with
  | none => .next s
  | some a => .next (if s.now < a + ticksPerSec then s else s.requestReset .wdg)

end Sys2Proof.Machine
end

