-- ==== Sys2Proof/Machine/Sideband.lean ====
section
/-!
DEFINITION. The side-band port and its commands (R422, R423, R451, Table 13.11).
-/

namespace Sys2Proof.Machine

/-! ## Requests and answers -/

/-- The side-band's MAC address. -/
def State.sbMac (s : State) : Nat := s.itemField iSbMac 0 6

/-- A response goes out: collisions are counted, one that exhausts 16 attempts is dropped, and a late collision spoils it. -/
def State.sbSend (s : State) (r : SbReq) (p : SbResponse) : State :=
  let s1 := s.bumpBy cSbCollisions (min 16 r.collisions)
  if 16 ≤ r.collisions then s1.bump cSbExcessCollision
  else if r.late = true then s1.bump cSbLateCollision
  else s1.sbEmit p

/-- Answer a request, and keep the answer for repeats. -/
def State.sbAnswer (s : State) (r : SbReq) (cmd status : Nat) (reason : Reason) (data : List Byte) : State :=
  let p : SbResponse := ⟨r.mac, r.reqId, cmd, status, reason.code, data⟩
  ({ s with sb := { s.sb with cache := (SbCached.mk p s.now :: s.sb.cache).take 16 } }).sbSend r p

/-- A rejected request. -/
def State.sbReject (s : State) (r : SbReq) (cmd : Nat) (reason : Reason) : State :=
  (s.bump cSbReqRejected).sbAnswer r cmd 1 reason []

/-- The answer kept for a request that repeats a REQ_ID within 10 s. -/
def State.sbCached (s : State) (r : SbReq) : Option SbCached :=
  s.sb.cache.find? fun c => decide (c.response.mac = r.mac ∧ c.response.reqId = r.reqId ∧ s.now ≤ c.at_ + 10 * ticksPerSec)

/-- The request still executes. -/
def State.sbExecuting (s : State) (r : SbReq) : Bool := s.sb.outstanding.any fun o => decide (o.mac = r.mac ∧ o.reqId = r.reqId)

/-- The frame is one that the port accepts (R422). -/
def State.sbAccepts (s : State) (r : SbReq) : Bool :=
  decide ((r.dst.toNat = s.sbMac ∨ r.dst = 0xFFFFFFFFFFFF#48) ∧ r.etherType = s.item iSbEthertype ∧ r.bytes ≤ 1518)

/-- A request's header is that of Table 13.10 with KIND SB_REQ, PEER_ID 0 and FRAGS 1, and its body holds CMD, REQ_ID and `args` bytes of
arguments, whole in its frame (R423). -/
def sbFormatOk (r : SbReq) (args : Nat) : Bool :=
  decide (r.version = 1 ∧ r.kind = 6 ∧ r.peerId = 0 ∧ r.frag = 0 ∧ r.frags = 1 ∧ r.length = 8 + args ∧ 42 + r.length ≤ r.bytes)

/-- Receive a request (R422, R423): `args` is the length of its command's arguments, `right` is the page and the kind of access that its command needs, `run` what it does. -/
def State.sbReceive (s : State) (r : SbReq) (cmd args : Nat) (right : Option (Nat × Nat)) (run : State → State) : State :=
  if s.sbOpen = false then s
  else
    let s1 := s.bump cSbFramesRx
    if r.fcsOk = false then s1.bump cSbFcsFail
    else if s.sbAccepts r = false then s1.bump cSbFiltered
    else
      let s2 := s1.bump cSbRequests
      match s.sbCached r with
      | some c => (s2.bump cSbReqCached).sbSend r c.response
      | none =>
        if s.sbExecuting r = true then s2
        else if sbFormatOk r args = false then s2.sbReject r cmd .format
        else if 4 ≤ (s.sb.outstanding.filter fun o => decide (o.mac = r.mac)).length then s2.sbReject r cmd .busy
        else match right.filter fun x => !s.accGranted 3 x.1 x.2 with
          | some x => (s2.refuseAccess 3 x.2 x.1 (windowBase + 4096 * x.1)).sbReject r cmd .access
          | none => run s2

/-! ## Commands (Table 13.11) -/

/-- The four firmware versions that run. -/
def State.fwVersions (s : State) : List Nat := ([1, 2, 3, 4] : List Nat).map fun k => ((fwSlot s.runningSet k).map FwPart.version).getD 0

/-- IDENTIFY: serial, part, SITE_NAME, node ID and the four firmware versions.  The widths of the commands' data are the model's where the
spec gives none (DESIGN CHOICE, notes/assumptions/176.md). -/
def execIdentify (r : SbReq) (t : Nat) (s0 : State) : Host.Outcome State Fault Refusal :=
  let s := s0.advance t
  .next (s.sbReceive r 1 0 (some (0x00, 0)) fun st =>
    st.sbAnswer r 1 0 .none (leBytes 8 st.serial.toNat ++ leBytes 2 0x7480 ++ (st.itemBytes iSiteName ++ List.replicate 32 0).take 32 ++ leBytes 1 st.hwl.nodeId.toNat ++
      st.fwVersions.flatMap (leBytes 4)))

/-- STATUS: mode, BOOT_STATUS, reset cause, budget, temperatures and supply levels. -/
def execStatus (r : SbReq) (t : Nat) (s0 : State) : Host.Outcome State Fault Refusal :=
  let s := s0.advance t
  .next (s.sbReceive r 2 0 (some (0x30, 0)) fun st => st.sbAnswer r 2 0 .none st.sbStatus)

/-- AON_COUNTERS: operating time, power cycles, the cycle shadow and the reseed flag of the tag generations. -/
def execAonCounters (r : SbReq) (t : Nat) (s0 : State) : Host.Outcome State Fault Refusal :=
  let s := s0.advance t
  .next (s.sbReceive r 3 0 (some (0x40, 0)) fun st =>
    st.sbAnswer r 3 0 .none (leBytes 5 st.way.opTime ++ leBytes 4 st.way.powerCycles ++ leBytes 6 st.cyc.shadow ++
      leBytes 1 (if st.txn.reseedPending = true then 1 else 0)))

/-- TIME: AON wall time as 64.32, TIME_VALID and HOLDOVER. -/
def execTime (r : SbReq) (t : Nat) (s0 : State) : Host.Outcome State Fault Refusal :=
  let s := s0.advance t
  .next (s.sbReceive r 4 0 (some (0x180, 0)) fun st =>
    let w := st.wallShown
    let valid := if st.tim.running = true then st.tim.valid else st.tim.aonValid
    st.sbAnswer r 4 0 .none (time6432 (wallSecOf w) (wallNsOf w) ++ leBytes 1 (if valid = true then 1 else 0) ++
      leBytes 1 (if st.tim.holdover = true then 1 else 0)))

/-- The 32 bytes of a record slot. -/
def State.recordSlot (s : State) (g : LogId) (i : Nat) : List Byte :=
  (List.range 8).flatMap fun w => leBytes 4 (LogSlot.word w ((s.way.log g).slots[i]?)).toNat

/-- READ_LOG (R523): up to 32 records; COUNT 0 gives the record count and the full flag. -/
def execReadLog (r : SbReq) (log first count : Nat) (t : Nat) (s0 : State) : Host.Outcome State Fault Refusal :=
  let s := s0.advance t
  .next (s.sbReceive r 5 6 (some (0x60, 0)) fun st =>
    if st.pwr.mode = .standby ∨ st.pwr.mode = .gasp then st.sbReject r 5 .mode
    else match logOf log with
      | none => st.sbReject r 5 .format
      | some g =>
        if 32 < count then st.sbReject r 5 .format
        else if count = 0 then st.sbAnswer r 5 0 .none (leBytes 4 (st.logRecords g) ++ leBytes 1 (if (st.way.log g).full = true then 1 else 0))
        else st.sbAnswer r 5 0 .none ((List.range count).flatMap fun k => st.recordSlot g (first + k)))

/-- SIDEBAND_WAKE (R466): leaves STANDBY; no effect in other modes. -/
def execSidebandWake (r : SbReq) (e : StartEnv) (t : Nat) (s0 : State) : Host.Outcome State Fault Refusal :=
  let s := s0.advance t
  .next (s.sbReceive r 6 0 (some (0x30, 1)) fun st => (st.sbAnswer r 6 0 .none []).wakeEvent e)

/-- SIDEBAND_RESET (R423): a reset job signed under UPDATE; SBC after R350. -/
def execSidebandReset (r : SbReq) (j : Job) (t : Nat) (s0 : State) : Host.Outcome State Fault Refusal :=
  let s := s0.advance t
  .next (s.sbReceive r 7 (64 + j.hdr.attachLen.toNat) (some (0x20, 1)) fun st =>
    if st.pwr.mode = .gasp then st.sbReject r 7 .mode
    else if j.body.code ≠ 0x26 then st.sbReject r 7 .format
    else match st.signedReason j with
      | some reason => st.sbReject r 7 reason
      | none => ((st.enterNonce j).sbAnswer r 7 0 .none []).requestReset .sbc)

/-- SIDEBAND_JOB (R423): a job in one frame, rejected where its attachment does not fit; its reports return under the request. -/
def execSidebandJob (r : SbReq) (h : JobHdr) (b : JobBody) (t : Nat) (s0 : State) : Host.Outcome State Fault Refusal :=
  let s := s0.advance t
  .next (s.sbReceive r 8 (64 + h.attachLen.toNat) none fun st =>
    let st1 : State := { st with sb := { st.sb with outstanding := st.sb.outstanding ++ [⟨r.mac, r.reqId, h.jobId⟩] } }
    st1.takeJob ⟨{ h with source := .sideband r.mac }, b⟩)

end Sys2Proof.Machine
end

