-- ==== Sys2Proof/Machine/Time.lean ====
section
/-!
DEFINITION. The commands of wall time: PTP messages, the servo's and permits' deadlines, leap seconds, pulse outputs and launch times
(spec 03, R84 to R99, R547, R548).
-/

namespace Sys2Proof.Machine

/-- SYNC (R91, R94, R547): a Sync, stamped at the MAC as it arrives; a one-step master's t1, in tenths of a ns, comes with it.  A message of
another master than the selected one gives no sample. -/
def execSync (h : PtpHdr) (t1 : Option Int) (sub : Nat) (t : Nat) (s0 : State) : Host.Outcome State Fault Refusal :=
  let s := s0.advance t
  if s.ptpHeard h = false then .next s
  else
    let y : PtpSync := ⟨h.master, h.seq, s.macStamp sub - (s.stampFigures h.port).1, h.logInterval⟩
    match t1 with
    | some x => .next ((s.modPtp h.port fun p => { p with sync := none }).syncComplete h.port y x)
    | none => .next (s.modPtp h.port fun p => { p with sync := some y })

/-- FOLLOW_UP (R547): the t1 of a two-step master's Sync. -/
def execFollowUp (h : PtpHdr) (t1 : Int) (t : Nat) (s0 : State) : Host.Outcome State Fault Refusal :=
  let s := s0.advance t
  if s.ptpHeard h = false then .next s
  else
    match (s.tim.port h.port).sync with
    | none => .next s
    | some y =>
      if y.master ≠ h.master ∨ y.seq ≠ h.seq then .next s
      else .next ((s.modPtp h.port fun p => { p with sync := none }).syncComplete h.port y t1)

/-- DELAY_RESP (R91, R93): the answer to the Delay_Req sent last; it brings t4 and the interval of delay requests. -/
def execDelayResp (h : PtpHdr) (t4 : Int) (t : Nat) (s0 : State) : Host.Outcome State Fault Refusal :=
  let s := s0.advance t
  if s.ptpHeard h = false then .next s
  else
    match (s.tim.port h.port).request with
    | none => .next s
    | some (seq, t3) =>
      if seq ≠ h.seq ∨ s.tim.master ≠ some (h.port, h.master) then .next s
      else .next (s.modPtp h.port fun p =>
        { p with request := none, exchange := some ⟨h.master, t3, t4, s.now⟩, delayInterval := h.logInterval })

/-- Bits of a Delay_Req frame: 44 bytes of message, behind IPv4 and UDP headers where PTP_TRANSPORT is 1 (PRESUMED: IEEE 1588-2019,
notes/assumptions/174.md). -/
def delayReqBits (tag : Option (Nat × Nat)) (transport : Nat) : Nat := 8 * max 64 (frameBytes tag (if transport = 1 then 72 else 44))

/-- DELAY_REQ_SEND (R91, R94, R417): at the selected master's interval TIM sends a Delay_Req in PTP's class, stamped at the MAC as it leaves;
it waits while its gate is closed. -/
def execDelayReqSend (port : Fin 2) (sub : Nat) (t : Nat) (s0 : State) : Host.Outcome State Fault Refusal :=
  let s := s0.advance t
  let p := s.tim.port port
  let early := match p.requestAt with
    | some a => decide (s.now < a + intervalTicks p.delayInterval)
    | none => false
  let c := s.txClass port.val 0
  let bits := delayReqBits (s.ethTag port.val c.val) (s.item iPtpTransport)
  if s.ptpPortOn port = false ∨ s.tim.master.map Prod.fst ≠ some port ∨ early = true then .next s
  else if s.gateFits port.val c bits = false then .next (s.bump (cEthGateTooLong port.val))
  else if s.gateOpenFor port.val c bits s.wallNs = false then .next s
  else
    let s1 := s.modPtp port fun x =>
      { x with request := some (x.nextSeq, s.macStamp sub + (s.stampFigures port).2), requestAt := some s.now, nextSeq := (x.nextSeq + 1) % 65536 }
    .next ((s1.emit (.delayReq port.val p.nextSeq c.val (s.ethTag port.val c.val))).bump (cEthFramesTx port.val))

/-- PTP_ANNOUNCE (R92): the sender's dataset is taken and the best master selected; the source's UTC offset is followed (R89). -/
def execPtpAnnounce (h : PtpHdr) (a : PtpAnnounce) (t : Nat) (s0 : State) : Host.Outcome State Fault Refusal :=
  let s := s0.advance t
  if s.ptpHeard h = false then .next s
  else
    let a1 : PtpAnnounce := { a with sender := h.master, logInterval := h.logInterval }
    let s1 := (s.modPtp h.port fun p =>
      { p with foreign := (p.foreign.filter fun f => f.announce.sender ≠ h.master) ++ [Foreign.mk a1 s.now] }).selectMaster
    .next (if s1.tim.master = some (h.port, h.master) then s1.announcedUtc a1 else s1)

/-- MASTER_TIMEOUT (R92): three announce intervals without an Announce drop the master. -/
def execMasterTimeout (port : Fin 2) (master : BitVec 64) (t : Nat) (s0 : State) : Host.Outcome State Fault Refusal :=
  let s := s0.advance t
  let gone := fun (f : Foreign) =>
    decide (f.announce.sender = master ∧ f.heard + 3 * intervalTicks f.announce.logInterval ≤ s.now)
  .next (if (s.tim.port port).foreign.any gone = false then s
    else (s.modPtp port fun p => { p with foreign := p.foreign.filter fun f => !gone f }).selectMaster)

/-- PROPORTIONAL_END (R548): T after a passed sample, i alone applies. -/
def execProportionalEnd (t : Nat) (s0 : State) : Host.Outcome State Fault Refusal :=
  let s := s0.advance t
  match s.tim.propUntil with
  | none => .next s
  | some u => .next (if s.now < u then s else (s.setRate s.tim.integral).modTim fun x => { x with propUntil := none })

/-- STEP_PERMIT_EXPIRY (R87): WINDOW has run out, and the permit closes unused. -/
def execStepPermitExpiry (t : Nat) (s0 : State) : Host.Outcome State Fault Refusal :=
  let s := s0.advance t
  match s.tim.permit with
  | none => .next s
  | some p => .next (if s.now < p.opened + p.window * ticksPerSec then s else s.modTim fun x => { x with permit := none })

/-- LEAP_SECOND (R89): the UTC day announced with a leap flag ends, and UTC_OFFSET changes by one second. -/
def execLeapSecond (t : Nat) (s0 : State) : Host.Outcome State Fault Refusal :=
  let s := s0.advance t
  .next (if s.tim.running = false ∨ s.tim.leap = 0 ∨ (s.wallSec : Int) < s.tim.leapEnd then s
    else s.modTim fun x => { x with utcOffset := ((x.utcOffset : Int) + x.leap).toNat, leap := 0 })

/-- PULSE_INSTANT (R98, R99): the next instant of an output is reached: the output rises unless WIDTH is zero, and the trigger
entries of the output fire. -/
def execPulseInstant (output : Fin 2) (t : Nat) (s0 : State) : Host.Outcome State Fault Refusal :=
  let s := s0.advance t
  let o := output.val
  let p := s.tim.pulse o
  match p.instant p.next with
  | none => .next s
  | some i =>
    if s.tim.running = false ∨ s.wallNs < i then .next s
    else
      let q := { p with next := p.next + 1 }
      let s1 :=
        if p.width = 0 then s.setPulse o q
        else (s.setPulse o { q with level := true, fallAt := some (i + p.width) }).emit (.pulse o true)
      .next (s1.firePulseTriggers o)

/-- PULSE_FALL (R98): WIDTH after an instant the output falls. -/
def execPulseFall (output : Fin 2) (t : Nat) (s0 : State) : Host.Outcome State Fault Refusal :=
  let s := s0.advance t
  let p := s.tim.pulse output.val
  match p.fallAt with
  | none => .next s
  | some f =>
    .next (if s.wallNs < f then s
      else (s.setPulse output.val { p with level := false, fallAt := none }).emit (.pulse output.val false))

/-- A frame reaches the head of its queue with no launch time, past it, or at it (R96): sent, sent late, or discarded when too late.  `start`:
when it could leave; `ahead`: a frame before it is still in transmission. -/
def State.launchNow (s : State) (p : Nat) (f : LaunchFrame) (start due : Nat) (ahead : Bool) : State :=
  let traffic : Fin 8 := ⟨f.traffic % 8, Nat.mod_lt _ (by decide)⟩
  let late := start - due + s.gateWait p traffic (8 * f.bytes.length) start
  let limit := 1000 * s.item iLaunchLateLimit
  let done (sent : Bool) : State := s.emit (.launch p f.traffic f.bytes sent late)
  if late = 0 ∧ ahead = false then (done true).bump (cEthFramesTx p)
  else if limit = 0 ∨ limit < late then (done false).bump (cEthLaunchDiscard p)
  else ((done true).bump (cEthLaunchLate p)).bump (cEthFramesTx p)

/-- LAUNCH (R96): a descriptor with its class, frame and launch time is enqueued, and held while its launch time lies ahead or, with none,
while its gate is closed; the same descriptor again is the arrival of that time (DESIGN CHOICE, notes/assumptions/175.md).  More than 10 s ahead it is rejected at enqueue; a
seconds field of zero is no launch time. -/
def execLaunch (port : Fin 2) (traffic : Fin 8) (bytes : List Byte) (launchSec launchNs : Nat) (ahead : Bool) (t : Nat) (s0 : State) :
    Host.Outcome State Fault Refusal :=
  let s := s0.advance t
  let p := port.val
  let f : LaunchFrame := ⟨traffic.val, bytes, launchSec, launchNs⟩
  let due := launchSec * 1000000000 + launchNs
  let now := s.wallNs
  if (s.ethPort p).link = false then .next s
  else if f ∈ (s.ethPort p).launches then
    .next (if now < due ∨ (launchSec = 0 ∧ s.gateOpenFor p traffic (8 * bytes.length) now = false) then s
      else (s.modEthPort p fun x => { x with launches := x.launches.erase f }).launchNow p f (if launchSec = 0 then now else due)
        (if launchSec = 0 then now else due) (ahead && decide (launchSec ≠ 0)))
  else if s.gateFits p traffic (8 * bytes.length) = false then .next (s.bump (cEthGateTooLong p))
  else if launchSec = 0 ∧ s.gateOpenFor p traffic (8 * bytes.length) now = true then
    .next ((s.emit (.launch p traffic.val bytes true 0)).bump (cEthFramesTx p))
  else if now + 10 * 1000000000 < due then .next (s.emit (.launch p traffic.val bytes false 0))
  else if now < due ∨ launchSec = 0 then .next (s.modEthPort p fun x => { x with launches := x.launches ++ [f] })
  else .next (s.launchNow p f now due ahead)

end Sys2Proof.Machine
end

