-- ==== Sys2Proof/Machine/Update.lean ====
section
/-!
DEFINITION. The steps of UPD that time or a task brings: idle deliveries, the end of a probation, and campaigns (R487, R497 to R506).
-/

namespace Sys2Proof.Machine

/-! ## Deliveries and probation -/

/-- DELIVERY_IDLE_TIMEOUT (R487): deliveries that have received no block for DELIVERY_IDLE seconds are abandoned. -/
def execDeliveryIdleTimeout (t : Nat) (s0 : State) : Host.Outcome State Fault Refusal :=
  let s := s0.advance t
  let idle (d : Delivery) : Bool := decide (d.lastBlock + s.item iDeliveryIdle * ticksPerSec ≤ s.now)
  let lost := s.upd.deliveries.filter idle
  .next (lost.foldl (fun st d => (st.setDelivery d.part none).note cUpdDeliveryAbandoned .operations .none 0 d.part) s)

/-- PROBATION_DEADLINE (R497): past DEADLINE without confirmation MGC takes an SWF reset, and step 6 falls back. -/
def execProbationDeadline (t : Nat) (s0 : State) : Host.Outcome State Fault Refusal :=
  let s := s0.advance t
  let r := s.updRec
  .next (if r.state = .probation ∧ r.deadline ≠ 0 ∧ r.deadline < s.way.opTime then s.requestReset .swf else s)

/-- The four firmware versions (Table 17.4). -/
def State.versions (s : State) : Nat :=
  let v (k : Nat) : Nat := ((fwSlot s.nor.fwActive k).map FwPart.version).getD 0
  v 1 + 2 ^ 32 * v 2 + 2 ^ 64 * v 3 + 2 ^ 96 * v 4

/-- What confirmation does (R499): floors, the configuration floor, the state record, CONFIRMED and the events. -/
def State.confirm (s : State) : State :=
  let r := s.updRec
  let floors := ([0, 1, 2, 3, 4] : List Nat).map fun k => max (r.floors.getD k 0) (r.pendingFloors.getD k 0)
  let s1 := s.writeUpd { r with floors := floors, state := .idle, lastResult := 1 }
  let s2 := { s1 with nor := { s1.nor with cfgFloor := max s1.nor.cfgFloor r.pendingCfgFloor } }
  let s3 := ((s2.raiseInt 0x090004 1).bump cUpdConfirmations).event .operations 9 0x81 0 s2.versions
  if r.stagedMask.getLsbD 3 = true then s3.event .legal 9 0x81 0 s2.versions else s3

/-- HEALTH_CONFIRMATION (R498): in probation, every condition holds and the soak has passed. -/
def execHealthConfirmation (t : Nat) (s0 : State) : Host.Outcome State Fault Refusal :=
  let s := s0.advance t
  let r := s.updRec
  .next (if r.state = .probation ∧ s.healthy = true ∧ s.upd.step15Op + r.healthSoak ≤ s.way.opTime then s.confirm else s)

/-! ## Campaigns (R505) -/

/-- One ANNOUNCE; after the last one the blocks follow, and with none to send the round is over. -/
def State.campAnnounce (s : State) (c : Nat) (v : Campaign) : State :=
  let s1 := s.campBroadcast v 1 0
  let left := v.announcesLeft - 1
  if v.phase = .announcing then
    if left = 0 then s1.setCamp c (some { v with phase := .pass, announcesLeft := 0, toSend := List.range v.blocks, due := s.now })
    else s1.setCamp c (some { v with announcesLeft := left, due := s.now + 10 * ticksPerSec })
  else if v.toSend = [] then s1.passSent c { v with announcesLeft := 0 }
  else s1.setCamp c (some { v with announcesLeft := 0, due := s.now })

/-- CAMPAIGN_ROUND (R505): the campaign's task announces, or judges a status round whose reads are over. -/
def execCampaignRound (campaign : Fin 4) (t : Nat) (s0 : State) : Host.Outcome State Fault Refusal :=
  let s := s0.advance t
  let c := campaign.val
  .next (match s.camp c with
    | none => s
    | some v =>
      if (s.campExecutor c).isNone = true ∨ s.pendingFull = true then s
      else if 0 < v.announcesLeft then (if s.now < v.due then s else s.campAnnounce c v)
      else if v.phase = .statusRound ∧ s.roundOver v = true then s.judgeRound c v
      else s)

/-- CAMPAIGN_BLOCK (R504, R505): CAMPAIGN_BLOCK_GAP after the block before, the next block is broadcast, and pushed to the sleepy
meters that take it so. -/
def execCampaignBlock (campaign : Fin 4) (t : Nat) (s0 : State) : Host.Outcome State Fault Refusal :=
  let s := s0.advance t
  let c := campaign.val
  .next (match s.camp c with
    | none => s
    | some v =>
      if (s.campExecutor c).isNone = true ∨ s.pendingFull = true ∨ 0 < v.announcesLeft ∨ s.now < v.due then s
      else if v.phase ≠ .pass ∧ v.phase ≠ .repair then s
      else match v.toSend with
        | [] => s.passSent c v
        | b :: rest =>
          let w := { v with toSend := rest, blocksSent := v.blocksSent + 1, due := s.now + s.item iCampaignBlockGap * ticksPerMs }
          let s1 := (((s.setCamp c (some w)).campBroadcast w 2 b).campPush w b).bump cUpdCampaignBlocksTx
          if rest = [] then s1.passSent c w else s1)

/-- The status read of one meter (R505). -/
def State.campRead (s : State) (c : Nat) (v : Campaign) (g : Gmn) : State :=
  (s.pushRequest ⟨g, .read v.args.statusObis, s.campPriority, s.cyc.num, true, none, none, none, .none, none, some c⟩).bump cUpdStatusReads

/-- STATUS_ROUND (R505): ROUND_GAP after a pass or round, the status object of every PENDING meter is read. -/
def execStatusRound (campaign : Fin 4) (t : Nat) (s0 : State) : Host.Outcome State Fault Refusal :=
  let s := s0.advance t
  let c := campaign.val
  .next (match s.camp c with
    | none => s
    | some v =>
      if v.phase ≠ .waiting ∨ s.now < v.due ∨ s.cch.allows 3 = false ∨ s.pendingFull = true then s
      else
        let ask := v.meters.filter fun m => decide (m.state = .pending)
        let w := { v with phase := .statusRound, meters := v.meters.map fun (m : CampMeter) =>
          if m.state = .pending then { m with reading := true, heard := false } else m }
        ((ask.foldl (fun st m => st.campRead c w m.gmn) (s.setCamp c (some w))).topUpIssues).postCamp c)

end Sys2Proof.Machine
end

