-- ==== Sys2Proof/Machine/Validate.lean ====
section
/-!
DEFINITION. The commands of validation (spec 05): VALIDATE and RECORD_RELEASE.
-/

namespace Sys2Proof.Machine

/-- The record that a lane holds for release. -/
def State.valHeld (s : State) (l : Nat) : Option ValHeld := s.val.held.getD l none

/-- The counters of the flags that a FLAGGED record carries (R166). -/
def flagCounters (l : Nat) (f : BitVec 16) : List Counter :=
  ([(vfSeqGap, cValSeqGap l), (vfIntervalGap, cValIntervalGap l), (vfReverse, cValReverse l), (vfRollover, cValRollover l),
    (vfDeltaHigh, cValDeltaHigh l), (vfRange, cValRange l)].filter fun p => f.getLsbD p.1).map Prod.snd ++
  (if f.getLsbD vfClockAhead || f.getLsbD vfClockLate then [cValClock l] else []) ++
  (if f.getLsbD vfCycleOrder then [cValCycleOrder l] else []) ++
  (if f.getLsbD vfVoltageRange || f.getLsbD vfCurrentHigh then [cValQuality l] else [])

/-- The counter of a rule (R166). -/
def ruleCounter (l rule : Nat) : Counter :=
  match rule with
  | 1 => cValSeqJump l
  | 2 => cValClock l
  | 3 => cValCycleOrder l
  | 4 => cValRange l
  | 5 => cValReverse l
  | 6 => cValDeltaHigh l
  | _ => cValQuality l

/-- Count a rejection: VAL_LAST_REJECT, the interrupt causes and the limited event (R166). -/
def State.countReject (s : State) (l : Nat) (r : Record) : State :=
  let rule := r.rule.toNat
  let s1 := ({ s with val := { s.val with lastRejectGmn := r.gmn.toNat, lastRejectRule := rule, lastRejectSeq := r.readSeq } }).bump
    (ruleCounter l rule)
  let s2 := s1.raiseInt 0x130004 1
  let s3 := if rule = 1 then s2.raiseInt 0x130004 3 else s2
  s3.noteMeter (cValRejected l) .operations .interval r.gmn.toNat (r.readSeq.toNat + 2 ^ 32 * rule)

/-- Count a record's verdict (R166). -/
def State.countVerdict (s : State) (l : Nat) (r : Record) : State :=
  match r.verdict.toNat with
  | 0 => s.bump (cValAccepted l)
  | 1 => (flagCounters l r.vflags).foldl State.bump (s.bump (cValFlagged l))
  | 2 => s.countReject l r
  | _ => s.bump (cValLate l)

/-- Compare the fields written with those that the record carried from another node (R163). -/
def State.compareVerdict (s : State) (l : Nat) (v : ValItem) (r : Record) : State :=
  match v.relayed with
  | none => s
  | some o =>
    if o.verdict = r.verdict ∧ o.rule = r.rule ∧ o.vflags = r.vflags then s
    else
      let detail := o.vflags.toNat + 2 ^ 16 * r.vflags.toNat
      if v.mirrored = true then
        (((s.raiseInt 0x130004 2).note (cValMirrorDisagree l) .operations .none 0 (r.gmn.toNat + 2 ^ 32 * detail))).syncRequest r.gmn 1
      else s.note cSplitRecordDisagree .operations .none 0 (r.gmn.toNat + 2 ^ 32 * detail)

/-- Compare the mirror's own estimate with the one that the stream brought (R371). -/
def State.compareEstimate (s : State) (v : ValItem) (e : Option Record) : State :=
  if v.mirrored = false then s
  else
    let held := Table.get none s.hwl.mests v.index
    let s1 := { s with hwl := { s.hwl with mests := Table.set none s.hwl.mests v.index none } }
    if held.isNone = true ∨ held = e then s1
    else (s1.bump cHwlEstDisagree).syncRequest v.record.gmn 1

/-- A judged record is held for release. -/
def State.holdJudged (s : State) (l : Nat) (v : ValItem) (j : Judgement) : State :=
  let h : ValHeld := ⟨{ v with record := j.record }, j.deltas, j.estimate, j.estDeltas, j.state, none⟩
  let s1 := { s with val := { s.val with held := s.val.held.set l (some h) } }
  let s2 := s1.countVerdict l j.record
  let s3 := if j.estimate.isSome = true then s2.bump (cValEstimated l) else s2
  let s4 := if j.skipped = true then s3.bump (cValEstSkipped l) else s3
  (s4.compareVerdict l v j.record).compareEstimate v j.estimate

/-- VALIDATE (R161): the lane's next record is judged: dropped for its TYPE, discarded as a duplicate, dropped for its RCK, or
held for release with its verdict. -/
def execValidate (lane : Fin 4) (t : Nat) (s0 : State) : Host.Outcome State Fault Refusal :=
  let s := s0.advance t
  let l := lane.val
  if s.pipeOff = true then .next s
  else match s.valHeld l, s.val.queue.getD l [] with
  | none, v :: rest =>
    let s1 := ({ s with val := { s.val with queue := s.val.queue.set l rest } }).bump (cValRecordsIn l)
    let g := v.record.gmn.toNat
    .next (if v.record.typ = 0 ∨ 4 < v.record.typ.toNat then
        (s1.note (cValTypeInvalid l) .operations .none 0 g).finalAnswer? v.answer
      else match s1.judge (s1.ctxAt v.index).val v.record with
        | none => (s1.noteMeter (cValDuplicate l) .operations .interval g 0).finalAnswer? v.answer
        | some j =>
          if recordOk v.record = false then
            ((s1.raiseInt 0x130004 0).note (cValRckFail l) .operations .none 0 g).finalAnswer? v.answer
          else s1.holdJudged l v j)
  | _, _ => .next s

/-- Downstream can accept a held record, or its estimate with it (R160, R165, R370). -/
def State.canRelease (s : State) (h : ValHeld) : Bool :=
  let n := if h.estimate.isSome = true then 2 else 1
  let own := decide (h.item.index < 16384) && !h.item.mirrored
  s.troikaRoom && s.fulRoom (64 * n) && (!own || s.mirrorRoom n)

/-- The MSEQ under which the next mirror packet will go, if the record is to be mirrored (R18, R368). -/
def State.mirrorNext (s : State) (h : ValHeld) : Option (BitVec 32) :=
  if s.mirroring = true ∧ h.item.index < 16384 ∧ h.item.mirrored = false then some s.hwl.mseqOut else none

/-- Hand one record to the mirror, to Troika and to BAL, and enter its report (R18). -/
def State.releaseOne (s : State) (h : ValHeld) (r : Record) (tref : Nat) (k : Option Int) (deltas : List (Option Nat))
    (answer : Option FinalHeld) : State :=
  let i := h.item.index
  let m := s.mirrorNext h
  let s1 := s.openReading r m answer h.item.mirrored
  let s2 := if m.isSome = true then s1.mirrorSend (if r.typ = 6 then .mest r else .mrec r) else s1
  (s2.toTroika (.record s.readings.next i r tref k deltas)).toBal (.record i r h.item.rxCycle tref k deltas (s.rotationFor i))

/-- Release a held record: the estimate first, with its trigger (R160), then the meter's state (R162). -/
def State.release (s : State) (l : Nat) (h : ValHeld) : State :=
  let r := h.item.record
  let i := h.item.index
  let tj := s.judgeTime r
  let k := s.recordIndex r tj
  let idE := s.readings.next
  let s1 := match h.estimate with
    | some e => s.releaseOne h e e.meterTime.toNat (k.map fun x => x - 1) h.estDeltas none
    | none => s
  let id := s1.readings.next
  let s2 := s1.releaseOne h r tj.tref k h.deltas h.item.answer
  let s3 := s2.toFuller (match h.estimate with
    | some e => .pair idE e e.meterTime.toNat (k.map fun x => x - 1) h.estDeltas id r tj.tref k h.deltas
    | none => .record id r tj.tref k h.deltas)
  let s4 := s3.modCtx i fun c => { c with val := h.state }
  let s5 := { s4 with val := { s4.val with held := s4.val.held.set l none } }
  if s5.sendsBundles = true then s5.addEntry (recordEntry r h.item.rxCycle h.item.rxSynth) else s5

/-- RECORD_RELEASE (R160, R162, R165): the lane's held record is released once downstream can accept it, and held otherwise. -/
def execRecordRelease (lane : Fin 4) (t : Nat) (s0 : State) : Host.Outcome State Fault Refusal :=
  let s := s0.advance t
  if s.pipeOff = true then .next s
  else match s.valHeld lane.val with
  | none => .next s
  | some h =>
    .next (if s.canRelease h = true then
        (s.bumpBy (cValStateHoldCycles lane.val) (s.holdingCycles lane.val)).release lane.val h
      else { s with val := { s.val with held := s.val.held.set lane.val (some { h with refusedAt := some (h.refusedAt.getD s.now) }) } })

end Sys2Proof.Machine
end

