-- ==== Sys2Proof/Machine/Way.lean ====
section
/-!
DEFINITION. The steps of the recorder and of operating time (spec 17).
-/

namespace Sys2Proof.Machine

/-- EVENT_PORT_SUBMIT (R515): a write to word 6 of the security or operations port submits a record: from VAC or MGC, and defined, or
refused. -/
def execEventPortSubmit (port : Fin 2) (m : Master) (v : Word) (t : Nat) (s0 : State) : Host.Outcome State Fault Refusal :=
  let s := s0.advance t
  match s.writeBarred m (0x060800 + 0x20 * port.val + 24) 4 with
  | some s1 => .next s1
  | none => .next (s.submitPort port.val (if port.val = 0 then .security else .operations) (decide (m = 4 ∨ m = 6)) v)

/-- LEGAL_PORT_SUBMIT (R515): LGC's write to word 6 of the legal port. -/
def execLegalPortSubmit (m : Master) (v : Word) (t : Nat) (s0 : State) : Host.Outcome State Fault Refusal :=
  let s := s0.advance t
  match s.writeBarred m (0x061000 + 24) 4 with
  | some s1 => .next s1
  | none => .next (s.submitPort 2 .legal (decide (m = 5)) v)

/-- BUFFER_PROGRAM (R516, R517, R519): MGC's turn at NOR: it ends the clears whose erase is done, `erased` by log, and programs the buffered
records; `bad` tells of each program whether its read-back failed.  No row of the table is the end of an erase (DESIGN CHOICE,
notes/assumptions/109.md). -/
def execBufferProgram (bad erased : List Bool) (t : Nat) (s0 : State) : Host.Outcome State Fault Refusal :=
  let s := s0.advance t
  let s1 := [LogId.legal, LogId.security, LogId.operations].foldl
    (fun (st : State) g => if erased.getD (logIndex g) false = true then st.clearErased g else st) s
  .next (s1.programBuffer bad)

/-- OPERATING_TIME_TICK (R521): one second of operating time, saturating. -/
def execOperatingTimeTick (t : Nat) (s0 : State) : Host.Outcome State Fault Refusal :=
  let s := s0.advance t
  .next { s with way := { s.way with opTime := satAdd 40 s.way.opTime 1 } }

/-- OPERATING_TIME_PERSIST (R521): 3 600 s after the last time, the count is written to management persistence. -/
def execOperatingTimePersist (t : Nat) (s0 : State) : Host.Outcome State Fault Refusal :=
  let s := s0.advance t
  .next (if s.way.opTime < s.way.opTimeSaved + 3600 then s else { s with way := { s.way with opTimeSaved := s.way.opTime } })

end Sys2Proof.Machine
end

