-- ==== Sys2Proof/Machine/Dispatch.lean ====
section
/-!
DEFINITION. The dispatch of commands: one arm per row of spec/opcode_table.json, one call of its meaning.
-/

namespace Sys2Proof.Machine

/-- The effect of a command on everything but the queue. -/
def exec (i : Instr) (s : State) : Host.Outcome State Fault Refusal :=
  match i with
  | .powerUpSequence t => Sys2Proof.Machine.execPowerUpSequence t s
  | .mainRailTimeout t => Sys2Proof.Machine.execMainRailTimeout t s
  | .mainRailDrop t => Sys2Proof.Machine.execMainRailDrop t s
  | .powerOnReset e t => Sys2Proof.Machine.execPowerOnReset e t s
  | .hrst e t => Sys2Proof.Machine.execHrst e t s
  | .wrm t => Sys2Proof.Machine.execWrm t s
  | .holdComplete e t => Sys2Proof.Machine.execHoldComplete e t s
  | .holdTimeout e t => Sys2Proof.Machine.execHoldTimeout e t s
  | .bootWatchdogExpiry e t => Sys2Proof.Machine.execBootWatchdogExpiry e t s
  | .appHeartbeat t => Sys2Proof.Machine.execAppHeartbeat t s
  | .watchdogPending t => Sys2Proof.Machine.execWatchdogPending t s
  | .sysWatchdogExpiry t => Sys2Proof.Machine.execSysWatchdogExpiry t s
  | .swpEscalation t => Sys2Proof.Machine.execSwpEscalation t s
  | .legalWatchdogExpiry t => Sys2Proof.Machine.execLegalWatchdogExpiry t s
  | .legalWatchdogEscalation t => Sys2Proof.Machine.execLegalWatchdogEscalation t s
  | .pfailNChange low t => Sys2Proof.Machine.execPfailNChange low t s
  | .modeEvaluation vscap powerMw t => Sys2Proof.Machine.execModeEvaluation vscap powerMw t s
  | .gaspFullerDeadline t => Sys2Proof.Machine.execGaspFullerDeadline t s
  | .standbyEntry t => Sys2Proof.Machine.execStandbyEntry t s
  | .rideTimeExpiry t => Sys2Proof.Machine.execRideTimeExpiry t s
  | .temperatureSample t0 t1 t2 t3 t => Sys2Proof.Machine.execTemperatureSample t0 t1 t2 t3 t s
  | .thermalClear t => Sys2Proof.Machine.execThermalClear t s
  | .wakeNLow e t => Sys2Proof.Machine.execWakeNLow e t s
  | .standbyMainsReturn periods e t => Sys2Proof.Machine.execStandbyMainsReturn periods e t s
  | .thermalWake e t => Sys2Proof.Machine.execThermalWake e t s
  | .zeroCrossing phase w m t => Sys2Proof.Machine.execZeroCrossing phase w m t s
  | .phaseAbsent phase t => Sys2Proof.Machine.execPhaseAbsent phase t s
  | .syntheticCycle t => Sys2Proof.Machine.execSyntheticCycle t s
  | .rtcTick t => Sys2Proof.Machine.execRtcTick t s
  | .operatingTimeTick t => Sys2Proof.Machine.execOperatingTimeTick t s
  | .operatingTimePersist t => Sys2Proof.Machine.execOperatingTimePersist t s
  | .aonTimeRefresh t => Sys2Proof.Machine.execAonTimeRefresh t s
  | .sync h t1 sub t => Sys2Proof.Machine.execSync h t1 sub t s
  | .followUp h t1 t => Sys2Proof.Machine.execFollowUp h t1 t s
  | .delayResp h t4 t => Sys2Proof.Machine.execDelayResp h t4 t s
  | .delayReqSend port sub t => Sys2Proof.Machine.execDelayReqSend port sub t s
  | .ptpAnnounce h a t => Sys2Proof.Machine.execPtpAnnounce h a t s
  | .masterTimeout port master t => Sys2Proof.Machine.execMasterTimeout port master t s
  | .proportionalEnd t => Sys2Proof.Machine.execProportionalEnd t s
  | .stepPermitExpiry t => Sys2Proof.Machine.execStepPermitExpiry t s
  | .leapSecond t => Sys2Proof.Machine.execLeapSecond t s
  | .expertSessionExpiry t => Sys2Proof.Machine.execExpertSessionExpiry t s
  | .nonceExpiry t => Sys2Proof.Machine.execNonceExpiry t s
  | .pulseInstant output t => Sys2Proof.Machine.execPulseInstant output t s
  | .pulseFall output t => Sys2Proof.Machine.execPulseFall output t s
  | .launch port traffic bytes launchSec launchNs ahead t => Sys2Proof.Machine.execLaunch port traffic bytes launchSec launchNs ahead t s
  | .beaconLaunch t => Sys2Proof.Machine.execBeaconLaunch t s
  | .rfBeaconLaunch radio t => Sys2Proof.Machine.execRfBeaconLaunch radio t s
  | .ingestFrame f => Sys2Proof.Machine.execIngestFrame f s
  | .steering => Sys2Proof.Machine.execSteering s
  | .creditReturn src => Sys2Proof.Machine.execCreditReturn src s
  | .bundleSplit t => Sys2Proof.Machine.execBundleSplit t s
  | .contextFill lane ecc t => Sys2Proof.Machine.execContextFill lane ecc t s
  | .laneProcessing lane badRead t => Sys2Proof.Machine.execLaneProcessing lane badRead t s
  | .firmwareRecordBuild verified built status t => Sys2Proof.Machine.execFirmwareRecordBuild verified built status t s
  | .contextOperation lane t => Sys2Proof.Machine.execContextOperation lane t s
  | .contextRestore t => Sys2Proof.Machine.execContextRestore t s
  | .mirrorRecord lane t => Sys2Proof.Machine.execMirrorRecord lane t s
  | .bundleClose boundary t => Sys2Proof.Machine.execBundleClose boundary t s
  | .validate lane t => Sys2Proof.Machine.execValidate lane t s
  | .recordRelease lane t => Sys2Proof.Machine.execRecordRelease lane t s
  | .troikaUpdate f a b c t => Sys2Proof.Machine.execTroikaUpdate f a b c t s
  | .voteTimeout unit t => Sys2Proof.Machine.execVoteTimeout unit t s
  | .safeStateTestsDone a b c t => Sys2Proof.Machine.execSafeStateTestsDone a b c t s
  | .forcedClosure slot t => Sys2Proof.Machine.execForcedClosure slot t s
  | .feederDeltas m t => Sys2Proof.Machine.execFeederDeltas m t s
  | .friendlyPeriodEnd t => Sys2Proof.Machine.execFriendlyPeriodEnd t s
  | .troikaRebuild v t => Sys2Proof.Machine.execTroikaRebuild v t s
  | .displayFrame sync shownSeq shown t => Sys2Proof.Machine.execDisplayFrame sync shownSeq shown t s
  | .supplyConfirmation gmn positive t => Sys2Proof.Machine.execSupplyConfirmation gmn positive t s
  | .balRecord t => Sys2Proof.Machine.execBalRecord t s
  | .channelEstimate t => Sys2Proof.Machine.execChannelEstimate t s
  | .intervalResult group t => Sys2Proof.Machine.execIntervalResult group t s
  | .snapshotCollectRead t => Sys2Proof.Machine.execSnapshotCollectRead t s
  | .snapshotResult t => Sys2Proof.Machine.execSnapshotResult t s
  | .componentLapse gmn t => Sys2Proof.Machine.execComponentLapse gmn t s
  | .copyReceived chain c t => Sys2Proof.Machine.execCopyReceived chain c t s
  | .combineWindowClose mesh t => Sys2Proof.Machine.execCombineWindowClose mesh t s
  | .ackTransmit t => Sys2Proof.Machine.execAckTransmit t s
  | .ack chain bytes t => Sys2Proof.Machine.execAck chain bytes t s
  | .ackWaitExpiry t => Sys2Proof.Machine.execAckWaitExpiry t s
  | .csmaBackoffEnd t => Sys2Proof.Machine.execCsmaBackoffEnd t s
  | .discWindowExpiry t => Sys2Proof.Machine.execDiscWindowExpiry t s
  | .tollbookExpiry t => Sys2Proof.Machine.execTollbookExpiry t s
  | .rfCopyReceived c t => Sys2Proof.Machine.execRfCopyReceived c t s
  | .enhAckTransmit t => Sys2Proof.Machine.execEnhAckTransmit t s
  | .enhAck radio bytes start t => Sys2Proof.Machine.execEnhAck radio bytes start t s
  | .rfAckWaitExpiry radio t => Sys2Proof.Machine.execRfAckWaitExpiry radio t s
  | .csmaCaAttempt radio energy t => Sys2Proof.Machine.execCsmaCaAttempt radio energy t s
  | .slotExchange slot energy t => Sys2Proof.Machine.execSlotExchange slot energy t s
  | .slotMiss slot t => Sys2Proof.Machine.execSlotMiss slot t s
  | .longPreambleExchange radio energy t => Sys2Proof.Machine.execLongPreambleExchange radio energy t s
  | .dutyHoldRelease radio t => Sys2Proof.Machine.execDutyHoldRelease radio t s
  | .issue port plain t => Sys2Proof.Machine.execIssue port plain t s
  | .txnDeadline tag t => Sys2Proof.Machine.execTxnDeadline tag t s
  | .retryRelease t => Sys2Proof.Machine.execRetryRelease t s
  | .quarantineEnd tag t => Sys2Proof.Machine.execQuarantineEnd tag t s
  | .scheduleRun t => Sys2Proof.Machine.execScheduleRun t s
  | .taskPost kind priority eclass exec coreMask arg t => Sys2Proof.Machine.execTaskPost kind priority eclass exec coreMask arg t s
  | .taskRetire executor t => Sys2Proof.Machine.execTaskRetire executor t s
  | .fullerAccept t => Sys2Proof.Machine.execFullerAccept t s
  | .flushTimer t => Sys2Proof.Machine.execFlushTimer t s
  | .pageProgram bad t => Sys2Proof.Machine.execPageProgram bad t s
  | .programFail copy markFails t => Sys2Proof.Machine.execProgramFail copy markFails t s
  | .eraseFail block markFails t => Sys2Proof.Machine.execEraseFail block markFails t s
  | .sectorRead lsa bits retries uncorrectable t => Sys2Proof.Machine.execSectorRead lsa bits retries uncorrectable t s
  | .gcBatch t => Sys2Proof.Machine.execGcBatch t s
  | .checkpointComplete legal t => Sys2Proof.Machine.execCheckpointComplete legal t s
  | .counterSnapshot t => Sys2Proof.Machine.execCounterSnapshot t s
  | .rebuildDone badSummaries badPages t => Sys2Proof.Machine.execRebuildDone badSummaries badPages t s
  | .blockLock port valid t => Sys2Proof.Machine.execBlockLock port valid t s
  | .lockLoss port since t => Sys2Proof.Machine.execLockLoss port since t s
  | .portRetrainTimer port t => Sys2Proof.Machine.execPortRetrainTimer port t s
  | .hello l t => Sys2Proof.Machine.execHello l t s
  | .helloAck l t => Sys2Proof.Machine.execHelloAck l t s
  | .coordinateAssign t => Sys2Proof.Machine.execCoordinateAssign t s
  | .announceTimer t => Sys2Proof.Machine.execAnnounceTimer t s
  | .announce l t => Sys2Proof.Machine.execAnnounce l t s
  | .memberExpiry node t => Sys2Proof.Machine.execMemberExpiry node t s
  | .pair l t => Sys2Proof.Machine.execPair l t s
  | .pairTimeout t => Sys2Proof.Machine.execPairTimeout t s
  | .heartbeatSend t => Sys2Proof.Machine.execHeartbeatSend t s
  | .heartbeat l t => Sys2Proof.Machine.execHeartbeat l t s
  | .leave l t => Sys2Proof.Machine.execLeave l t s
  | .partnerTimeout t => Sys2Proof.Machine.execPartnerTimeout t s
  | .mrec l t => Sys2Proof.Machine.execMrec l t s
  | .mest l t => Sys2Proof.Machine.execMest l t s
  | .mfeed l t => Sys2Proof.Machine.execMfeed l t s
  | .mjob l gmn op t => Sys2Proof.Machine.execMjob l gmn op t s
  | .mctx l job t => Sys2Proof.Machine.execMctx l job t s
  | .cut l t => Sys2Proof.Machine.execCut l t s
  | .msync l t => Sys2Proof.Machine.execMsync l t s
  | .handback l t => Sys2Proof.Machine.execHandback l t s
  | .mack l t => Sys2Proof.Machine.execMack l t s
  | .mnak l spoilt t => Sys2Proof.Machine.execMnak l spoilt t s
  | .mirrorGapTimer t => Sys2Proof.Machine.execMirrorGapTimer t s
  | .syncReq l t => Sys2Proof.Machine.execSyncReq l t s
  | .digest l t => Sys2Proof.Machine.execDigest l t s
  | .digestReq l t => Sys2Proof.Machine.execDigestReq l t s
  | .digestResult l t => Sys2Proof.Machine.execDigestResult l t s
  | .fwdEntry l e t => Sys2Proof.Machine.execFwdEntry l e t s
  | .seqReq l w t => Sys2Proof.Machine.execSeqReq l w t s
  | .actionReq l t => Sys2Proof.Machine.execActionReq l t s
  | .job l j t => Sys2Proof.Machine.execJob l j t s
  | .report l r t => Sys2Proof.Machine.execReport l r t s
  | .resetPacket l j t => Sys2Proof.Machine.execResetPacket l j t s
  | .chainData l head writeFails t => Sys2Proof.Machine.execChainData l head writeFails t s
  | .chainAck l t => Sys2Proof.Machine.execChainAck l t s
  | .chainResult l t => Sys2Proof.Machine.execChainResult l t s
  | .chainAckTimeout t => Sys2Proof.Machine.execChainAckTimeout t s
  | .credit port vc cls units t => Sys2Proof.Machine.execCredit port vc cls units t s
  | .linkWordAck port lseq t => Sys2Proof.Machine.execLinkWordAck port lseq t s
  | .linkWordNak port lseq t => Sys2Proof.Machine.execLinkWordNak port lseq t s
  | .actOwnInChange high t => Sys2Proof.Machine.execActOwnInChange high t s
  | .arbWindowExpiry t => Sys2Proof.Machine.execArbWindowExpiry t s
  | .arbBackoffExpiry t => Sys2Proof.Machine.execArbBackoffExpiry t s
  | .queryRetry t => Sys2Proof.Machine.execQueryRetry t s
  | .cqTailWrite n m v t => Sys2Proof.Machine.execCqTailWrite n m v t s
  | .rqEnable n m sizeLog2 t => Sys2Proof.Machine.execRqEnable n m sizeLog2 t s
  | .rqDisable n m sizeLog2 t => Sys2Proof.Machine.execRqDisable n m sizeLog2 t s
  | .rqHeadWrite n m v t => Sys2Proof.Machine.execRqHeadWrite n m v t s
  | .reportIssue t => Sys2Proof.Machine.execReportIssue t s
  | .coalesceTimer n t => Sys2Proof.Machine.execCoalesceTimer n t s
  | .reportHoldExpiry t => Sys2Proof.Machine.execReportHoldExpiry t s
  | .pciePerstN high speed width t => Sys2Proof.Machine.execPciePerstN high speed width t s
  | .ethernetFrame port f t => Sys2Proof.Machine.execEthernetFrame port f t s
  | .messageResend port peer t => Sys2Proof.Machine.execMessageResend port peer t s
  | .standaloneAck port peer t => Sys2Proof.Machine.execStandaloneAck port peer t s
  | .bundleResend t => Sys2Proof.Machine.execBundleResend t s
  | .gateChange port t => Sys2Proof.Machine.execGateChange port t s
  | .identify r t => Sys2Proof.Machine.execIdentify r t s
  | .status r t => Sys2Proof.Machine.execStatus r t s
  | .aonCounters r t => Sys2Proof.Machine.execAonCounters r t s
  | .time r t => Sys2Proof.Machine.execTime r t s
  | .readLog r log first count t => Sys2Proof.Machine.execReadLog r log first count t s
  | .sidebandWake r e t => Sys2Proof.Machine.execSidebandWake r e t s
  | .sidebandReset r j t => Sys2Proof.Machine.execSidebandReset r j t s
  | .sidebandJob r h b t => Sys2Proof.Machine.execSidebandJob r h b t s
  | .readMeter h gmn obis priority medium t => Sys2Proof.Machine.execReadMeter h gmn obis priority medium t s
  | .snapshotGroup h group all lead gmns t => Sys2Proof.Machine.execSnapshotGroup h group all lead gmns t s
  | .registerRead h offset words t => Sys2Proof.Machine.execRegisterRead h offset words t s
  | .meterStateRead h gmn parts t => Sys2Proof.Machine.execMeterStateRead h gmn parts t s
  | .attest h nonce t => Sys2Proof.Machine.execAttest h nonce t s
  | .cancel h tag t => Sys2Proof.Machine.execCancel h tag t s
  | .trigger h entry source due period template t => Sys2Proof.Machine.execTrigger h entry source due period template t s
  | .pulse h output startSec startNs period width t => Sys2Proof.Machine.execPulse h output startSec startNs period width t s
  | .hostTime h sec ns t => Sys2Proof.Machine.execHostTime h sec ns t s
  | .balanceMembership h gmn group regPhase exportAllowed t => Sys2Proof.Machine.execBalanceMembership h gmn group regPhase exportAllowed t s
  | .bundleSubmit h b t => Sys2Proof.Machine.execBundleSubmit h b t s
  | .pushTariffSet h slot set t => Sys2Proof.Machine.execPushTariffSet h slot set t s
  | .creditChange h gmn amount t => Sys2Proof.Machine.execCreditChange h gmn amount t s
  | .disconnect h gmn t => Sys2Proof.Machine.execDisconnect h gmn t s
  | .reconnect h gmn force t => Sys2Proof.Machine.execReconnect h gmn force t s
  | .legalRelease h gmn mode t => Sys2Proof.Machine.execLegalRelease h gmn mode t s
  | .enrolMeter h a t => Sys2Proof.Machine.execEnrolMeter h a t s
  | .removeMeter h gmn t => Sys2Proof.Machine.execRemoveMeter h gmn t s
  | .keyChange h gmn keySlot ek ak t => Sys2Proof.Machine.execKeyChange h gmn keySlot ek ak t s
  | .counterReset h gmn rxIc txIc t => Sys2Proof.Machine.execCounterReset h gmn rxIc txIc t s
  | .designate h range trueNode slots t => Sys2Proof.Machine.execDesignate h range trueNode slots t s
  | .claimOwnership h t => Sys2Proof.Machine.execClaimOwnership h t s
  | .releaseOwnership h t => Sys2Proof.Machine.execReleaseOwnership h t s
  | .forgetCoordinate h t => Sys2Proof.Machine.execForgetCoordinate h t s
  | .wallTimeStep h window maxStep t => Sys2Proof.Machine.execWallTimeStep h window maxStep t s
  | .clearLog h log t => Sys2Proof.Machine.execClearLog h log t s
  | .openExpertSession h duration t => Sys2Proof.Machine.execOpenExpertSession h duration t s
  | .debugToken h token t => Sys2Proof.Machine.execDebugToken h token t s
  | .updateDelivery h imageTag offset total part block writeFails t => Sys2Proof.Machine.execUpdateDelivery h imageTag offset total part block writeFails t s
  | .campaignStart h a t => Sys2Proof.Machine.execCampaignStart h a t s
  | .reset h node cls t => Sys2Proof.Machine.execReset h node cls t s
  | .bootHeaderWrite h b writeFails t => Sys2Proof.Machine.execBootHeaderWrite h b writeFails t s
  | .deliveryIdleTimeout t => Sys2Proof.Machine.execDeliveryIdleTimeout t s
  | .probationDeadline t => Sys2Proof.Machine.execProbationDeadline t s
  | .healthConfirmation t => Sys2Proof.Machine.execHealthConfirmation t s
  | .campaignRound campaign t => Sys2Proof.Machine.execCampaignRound campaign t s
  | .campaignBlock campaign t => Sys2Proof.Machine.execCampaignBlock campaign t s
  | .statusRound campaign t => Sys2Proof.Machine.execStatusRound campaign t s
  | .keyDestroy m v t => Sys2Proof.Machine.execKeyDestroy m v t s
  | .keyPurge t => Sys2Proof.Machine.execKeyPurge t s
  | .eventPortSubmit port m v t => Sys2Proof.Machine.execEventPortSubmit port m v t s
  | .legalPortSubmit m v t => Sys2Proof.Machine.execLegalPortSubmit m v t s
  | .bufferProgram bad erased t => Sys2Proof.Machine.execBufferProgram bad erased t s
  | .lowWordRead sp m fetch a size t => Sys2Proof.Machine.execLowWordRead sp m fetch a size t s
  | .registerWrite sp m a size v t => Sys2Proof.Machine.execRegisterWrite sp m a size v t s
  | .aonSupplyLoss t => Sys2Proof.Machine.execAonSupplyLoss t s
  | .ethLinkChange port up los t => Sys2Proof.Machine.execEthLinkChange port up los t s
  | .linkAckTimer port t => Sys2Proof.Machine.execLinkAckTimer port t s
  | .mirrorAckTimer t => Sys2Proof.Machine.execMirrorAckTimer t s
  | .blockErase block t => Sys2Proof.Machine.execBlockErase block t s
  | .preambleDetection chain first announced t => Sys2Proof.Machine.execPreambleDetection chain first announced t s

end Sys2Proof.Machine
end

