-- ==== Sys2Proof/Safety.lean ====
section
/-!
DEFINITION. What a run of the device is, what counts as safe (bounds that the spec sets on what the device holds), and which parts of
the state a command leaves as they are.
-/

namespace Sys2Proof.Machine

/-- The side-band keeps no more than the 16 latest responses (R423). -/
def State.cacheBounded (s : State) : Prop := s.sb.cache.length ≤ 16

/-- A requester of the side-band has at most four requests under way (R423). -/
def State.requestersBounded (s : State) : Prop :=
  ∀ m, (s.sb.outstanding.filter fun o => decide (o.mac = m)).length ≤ 4

/-- The nonce cache holds at most 4 096 nonces (R407). -/
def State.noncesBounded (s : State) : Prop := s.sec.nonces.length ≤ 4096

/-! ## Frames -/

/-- The parts of the state, one for each field. -/
inductive Part where
  | pending | now | draws | regs | latches | cfg | limits | out | boot | nor | sec | way | pwr | rst | pins | host | eth | sb
  | cch | txn | upd | cyc | tim | ctx | ing | val | hwl | bil | lgc | met | bal | ful | readings | plc | rfm | mem
  deriving DecidableEq, Repr

/-- A part stands in `u` as it stood in `s`. -/
def State.sameAt (s u : State) : Part → Prop
  | .pending => u.pending = s.pending
  | .now => u.now = s.now
  | .draws => u.draws = s.draws
  | .regs => u.regs = s.regs
  | .latches => u.latches = s.latches
  | .cfg => u.cfg = s.cfg
  | .limits => u.limits = s.limits
  | .out => u.out = s.out
  | .boot => u.boot = s.boot
  | .nor => u.nor = s.nor
  | .sec => u.sec = s.sec
  | .way => u.way = s.way
  | .pwr => u.pwr = s.pwr
  | .rst => u.rst = s.rst
  | .pins => u.pins = s.pins
  | .host => u.host = s.host
  | .eth => u.eth = s.eth
  | .sb => u.sb = s.sb
  | .cch => u.cch = s.cch
  | .txn => u.txn = s.txn
  | .upd => u.upd = s.upd
  | .cyc => u.cyc = s.cyc
  | .tim => u.tim = s.tim
  | .ctx => u.ctx = s.ctx
  | .ing => u.ing = s.ing
  | .val => u.val = s.val
  | .hwl => u.hwl = s.hwl
  | .bil => u.bil = s.bil
  | .lgc => u.lgc = s.lgc
  | .met => u.met = s.met
  | .bal => u.bal = s.bal
  | .ful => u.ful = s.ful
  | .readings => u.readings = s.readings
  | .plc => u.plc = s.plc
  | .rfm => u.rfm = s.rfm
  | .mem => u.mem = s.mem

/-- Every part but those listed stands in `u` as it stood in `s`. -/
def State.keepsBut (s : State) (ps : List Part) (u : State) : Prop := ∀ p, p ∉ ps → s.sameAt u p

/-- All parts but those listed. -/
def allBut (ps : List Part) : List Part :=
  ([.pending, .now, .draws, .regs, .latches, .cfg, .limits, .out, .boot, .nor, .sec, .way, .pwr, .rst, .pins, .host, .eth, .sb, .cch, .txn,
    .upd, .cyc, .tim, .ctx, .ing, .val, .hwl, .bil, .lgc, .met, .bal, .ful, .readings, .plc, .rfm, .mem] : List Part).filter fun p => decide (p ∉ ps)

/-- Whenever the command answers a next state, every part but those listed stands as it stood. -/
def Framed (c : Instr) (ps : List Part) : Prop := ∀ s u, exec c s = .next u → s.keepsBut ps u

/-! ## Conditions that statements share -/

/-- How a start ends: at step 15, in RECOVERY, halted (R37), with the boot ROM hanging under its watchdog (R34), or in GASP. -/
def State.startEnds (u : State) : Prop :=
  u.boot.stage = 15 ∨ u.boot.recovery = true ∨ u.boot.halted = true ∨ u.boot.watchdogAt.isSome = true ∨ u.pwr.mode = .gasp

/-- A packet of a TYPE that this node takes: its port is UP, it arrived whole and in order, it names this node, and it has its TYPE's form (R356 to
R360). -/
def State.packetArrives (s : State) (l : HwlHeader) (typ : Nat) : Prop :=
  (s.hport l.port.val).state = .up ∧ l.lcrcOk = true ∧ l.lseq = (s.hport l.port.val).expectRx ∧ l.dst = s.hwl.nodeId ∧ packetFits l typ = true

/-- A packet of the partner's stream that is delivered at once: the next MSEQ, with none held before it (R369). -/
def State.streamArrives (s : State) (l : HwlHeader) (typ : Nat) : Prop :=
  s.packetArrives l typ ∧ s.fromPartner l = true ∧ s.hwl.paired = true ∧ l.tag = s.hwl.expectIn ∧ s.hwl.heldIn = []

/-- The port of the route to a node. -/
def State.outPort (s : State) (d : Nat) : HwlPort := s.hport (s.routeTo d).port

/-- A packet to a node goes out at once: a route, its port UP with nothing in line, room in the replay buffer, and credits (R358). -/
def State.openTo (s : State) (d : Nat) (b : HwlBody) : Prop :=
  (s.routeTo d).reachable = true ∧ (s.outPort d).state = .up ∧ (s.outPort d).waiting = [] ∧ (s.outPort d).replay.length < 64 ∧
    (16 + b.payload.length + 4 + 63) / 64 ≤ (s.outPort d).credit b.vc (s.hopClass (s.routeTo d).port 0 (s.routeTo d).diverted false)

/-- The packet in which this node sends a body to another, and the port and number with which it leaves (R356, R359). -/
def State.packetTo (s : State) (d : Nat) (tag : BitVec 32) (b : HwlBody) : Emission :=
  .hwlPacket (s.routeTo d).port (packetBytes (s.outPort d).nextTx
    (packetOf b (s.hopClass (s.routeTo d).port 0 (s.routeTo d).diverted false) false (BitVec.ofNat 6 d) s.hwl.nodeId 0 tag))

/-- A frame of an Ethernet port starts at once: link, a window of its cycle that it fits, none of its class before it, and its gate open (R417, R418). -/
def State.frameLeaves (s : State) (f : EthSent) : Prop :=
  (s.ethPort f.port).link = true ∧ s.gateFits f.port f.cls f.bits = true ∧
    ((s.ethPort f.port).queue.any fun g => decide (g.traffic = f.traffic)) = false ∧ s.gateLets f = true

/-- A side-band request that is executed: a whole frame for this device, no repeat, well formed, fewer than four under way for its
sender, and the right that its command needs (R422, R423). -/
def State.sbTakes (s : State) (r : SbReq) (args : Nat) (right : Option (Nat × Nat)) : Prop :=
  s.sbOpen = true ∧ r.fcsOk = true ∧ s.sbAccepts r = true ∧ s.sbCached r = none ∧ s.sbExecuting r = false ∧ sbFormatOk r args = true ∧
    (s.sb.outstanding.filter fun o => decide (o.mac = r.mac)).length < 4 ∧ ∀ x, right = some x → s.accGranted 3 x.1 x.2 = true

/-- The response to a side-band request goes out at the first attempt, and is kept for repeats (R423). -/
def State.sbAnswers (s : State) (r : SbReq) (t cmd : Nat) (data : List Byte) (u : State) : Prop :=
  u.out = .sideband ⟨r.mac, r.reqId, cmd, 0, 0, data⟩ (s.sbFrame ⟨r.mac, r.reqId, cmd, 0, 0, data⟩) :: s.out ∧
    u.sb.cache = (⟨⟨r.mac, r.reqId, cmd, 0, 0, data⟩, max s.now t⟩ :: s.sb.cache).take 16

/-- A job at the front of an open command queue whose descriptor is whole and names no other node (R397, R404). -/
def State.jobComes (s : State) (n : Fin 4) (j : Job) : Prop :=
  j.hdr.source = .cq n ∧ n.val < s.host.cqs.length ∧ s.cqTurn n.val = true ∧
    dcrcOk j = true ∧ j.hdr.jobId ≠ 0 ∧ jobEncodingOk j.body = true ∧ s.attachOk j = true ∧ s.carriedTo j.hdr = none ∧
    s.bundleWaits j.body = false ∧ s.resetElsewhere j.body = none

/-- A job that is accepted: it comes, its kind is accepted in the mode, the host holds its right, its envelope passes, and its task finds a
descriptor where a dispatcher runs (R61 to R63, R325, R407, R451). -/
def State.takesJob (s : State) (n : Fin 4) (j : Job) : Prop :=
  s.jobComes n j ∧ acceptedIn j.body.code s.pwr.mode s.boot.reduced = true ∧ s.lackedRight 0 j.body = none ∧ s.signedReason j = none ∧
    (s.pwr.mode = .recovery ∨ (s.post (s.jobTask j.body.code)).2 = true)

/-- A register read of no words, which probes the access right, passes every check of the node that takes it from a link (R61, R404, R451). -/
def State.probeTakes (s : State) (h : JobHdr) (o : Nat) : Prop :=
  dcrcOk ⟨h, .registerRead o 0⟩ = true ∧ h.jobId ≠ 0 ∧ s.attachOk ⟨h, .registerRead o 0⟩ = true ∧ s.maySubmit h.source = true ∧
    s.carriedTo h = none ∧ jobEncodingOk (.registerRead o 0) = true ∧ acceptedIn 0x03 s.pwr.mode s.boot.reduced = true ∧
    s.lackedRight (sourceMaster h.source) (.registerRead o 0) = none ∧
    (s.pwr.mode = .recovery ∨ (s.post (s.jobTask 0x03)).2 = true)

/-- A job has been answered: it is no longer open, and its one final report waits for its queue where that is set up (R61, R402, R409). -/
def State.answeredJob (s : State) (h : JobHdr) (t : Nat) (b : ReportBody) (d : ReportData) (u : State) : Prop :=
  (∀ o, o ∈ u.host.jobs → o.ref ≠ h.ref) ∧
    ((s.rq h.rq).enable = true → ⟨.rq h.rq, ⟨b, d, true, false, false, h.jobId, s.hwl.nodeId⟩, max s.now t, false⟩ ∈ u.host.waiting)

/-- A job done, with nothing to tell (R409). -/
def State.doneJob (s : State) (h : JobHdr) (t : Nat) (u : State) : Prop := s.answeredJob h t (.jobResult 0 0 0 []) .none u

/-- The job that a job row brings. -/
def jobOf : Instr → Option Job
  | .readMeter h g o p m _ => some ⟨h, .readMeter g o p m⟩
  | .snapshotGroup h g a l ms _ => some ⟨h, .snapshotGroup g a l ms⟩
  | .registerRead h o n _ => some ⟨h, .registerRead o n⟩
  | .meterStateRead h g p _ => some ⟨h, .meterStateRead g p⟩
  | .attest h n _ => some ⟨h, .attest n⟩
  | .cancel h tag _ => some ⟨h, .cancel tag⟩
  | .trigger h e src d p m _ => some ⟨h, .trigger e src d p m⟩
  | .pulse h o a b p w _ => some ⟨h, .pulse o a b p w⟩
  | .hostTime h a b _ => some ⟨h, .hostTime a b⟩
  | .balanceMembership h g k ph e _ => some ⟨h, .balanceMembership g k ph e⟩
  | .bundleSubmit h b _ => some ⟨h, .bundleSubmit b⟩
  | .pushTariffSet h k x _ => some ⟨h, .pushTariffSet k x⟩
  | .creditChange h g a _ => some ⟨h, .creditChange g a⟩
  | .disconnect h g _ => some ⟨h, .disconnect g⟩
  | .reconnect h g f _ => some ⟨h, .reconnect g f⟩
  | .legalRelease h g m _ => some ⟨h, .legalRelease g m⟩
  | .enrolMeter h a _ => some ⟨h, .enrolMeter a⟩
  | .removeMeter h g _ => some ⟨h, .removeMeter g⟩
  | .keyChange h g k ek ak _ => some ⟨h, .keyChange g k ek ak⟩
  | .counterReset h g a b _ => some ⟨h, .counterReset g a b⟩
  | .designate h r n l _ => some ⟨h, .designate r n l⟩
  | .claimOwnership h _ => some ⟨h, .claimOwnership⟩
  | .releaseOwnership h _ => some ⟨h, .releaseOwnership⟩
  | .forgetCoordinate h _ => some ⟨h, .forgetCoordinate⟩
  | .wallTimeStep h w m _ => some ⟨h, .wallTimeStep w m⟩
  | .clearLog h l _ => some ⟨h, .clearLog l⟩
  | .openExpertSession h d _ => some ⟨h, .openExpertSession d⟩
  | .debugToken h x _ => some ⟨h, .debugToken x⟩
  | .updateDelivery h g o n p b f _ => some ⟨h, .updateDelivery g o n p b f⟩
  | .campaignStart h a _ => some ⟨h, .campaignStart a⟩
  | .reset h n p _ => some ⟨h, .reset n p⟩
  | .bootHeaderWrite h b f _ => some ⟨h, .bootHeaderWrite b f⟩
  | _ => none


end Sys2Proof.Machine
end

