-- ==== Sys2Proof/Certificates/Slice0/Obligations.lean ====
section
/-!
DEFINITION. The statements for the provers: one `Prop` per obligation of OBLIGATIONS.json.  Most are conjunctions of clauses, each of which says of
one command, for every state and operands that meet its hypotheses, that it answers a next state and what that state holds.
-/

open Sys2Proof Sys2Proof.Machine

/-- The step: the command at the front of the queue runs on the state with the queue's rest; with an empty queue the device idles (the idling is the
model's choice, notes/assumptions/1.md). -/
def Obligations.StepRunsFrontCommand : Prop :=
  (∀ (c : Instr) (rest : List Instr) (s : State), s.pending = c :: rest → step s = exec c { s with pending := rest }) ∧
  (∀ s : State, s.pending = [] → step s = .next s)

/-- What reset leaves (R105, R118, R418, R455, Tables 15.10 and 0.6): mode BOOT with its class POR, no command and no report waiting, no queue set up
or open, the ingest credits full but not yet issued, every gate open, no lock, and no context, key slot or nonce held. That NOR and the other
stores begin blank is the model's choice (notes/assumptions/2.md). -/
def Obligations.ResetStateOfTheDevice : Prop :=
  State.reset.pwr.mode = .boot ∧ State.reset.rst.cls = .por ∧ State.reset.boot.locked = false ∧ State.reset.boot.stage = 0 ∧
    State.reset.pending = [] ∧ State.reset.host.waiting = [] ∧ State.reset.host.queuesOpen = false ∧
    (∀ n : Fin 4, (State.reset.rq n.val).enable = false ∧ State.reset.cqOpen n.val = false) ∧
    State.reset.ing.credits = fifoCapacities ∧ State.reset.ing.creditsOpen = false ∧ (∀ n : Fin 11, State.reset.fifo n.val = []) ∧
    (∀ p : Fin 2, (State.reset.ethPort p.val).gates = 0xFF) ∧ (∀ p : Fin 4, (State.reset.hport p.val).state = .down) ∧
    State.reset.ctx = [] ∧ State.reset.sec.slots = [] ∧ State.reset.sec.nonces = [] ∧ State.reset.hwl.owner = false ∧
    State.reset.nor = Nor.erased

/-- The bounds of R407 and R423 hold at reset. -/
def Obligations.BoundsHoldAtReset : Prop := State.reset.cacheBounded ∧ State.reset.noncesBounded ∧ State.reset.requestersBounded

/-- The bounds of R407 and R423 in every step from every state that has them: the nonce cache holds at most 4 096 nonces, and the side-band keeps at
most its 16 latest responses and has at most four requests of one sender under way; and time never runs back. -/
def Obligations.BoundsAreKeptByEveryStep : Prop :=
  ∀ s u : State, s.cacheBounded → s.noncesBounded → s.requestersBounded → step s = .next u →
    u.cacheBounded ∧ u.noncesBounded ∧ u.requestersBounded ∧ s.now ≤ u.now

/-- R12, in full: a granted read of the low word of a pair answers its live value and latches the high word; the next read of the high word by the
same master returns the latched half, whatever the register holds by then; a read of the high word without a low-word read before it returns the
live half. -/
def Obligations.PairsAreReadLowWordFirst : Prop :=
  (∀ (s : State) (m : Master) (lo hi t t' : Nat), hi ∈ latchedBy lo → s.checkAccess m lo 4 0 = .open → s.checkAccess m hi 4 0 = .open →
    Table.get none s.latches (latchKey lo m) = none →
    ∃ u v, exec (.lowWordRead .bar0 m false lo 4 t) s = .next u ∧ u.out = .readData m.val lo ((s.advance t).readReg lo) :: s.out ∧
      exec (.lowWordRead .bar0 m false hi 4 t') u = .next v ∧ v.out = .readData m.val hi ((s.advance t).readReg hi) :: u.out) ∧
  (∀ (u : State) (m : Master) (lo hi t : Nat) (w : Word), hi ∈ latchedBy lo → u.checkAccess m hi 4 0 = .open →
    Table.get none u.latches (latchKey hi m) = some w →
    ∃ v, exec (.lowWordRead .bar0 m false hi 4 t) u = .next v ∧ v.out = .readData m.val hi w :: u.out) ∧
  (∀ (s : State) (m : Master) (hi t : Nat), s.checkAccess m hi 4 0 = .open → Table.get none s.latches (latchKey hi m) = none →
    ∃ v, exec (.lowWordRead .bar0 m false hi 4 t) s = .next v ∧ v.out = .readData m.val hi ((s.advance t).readReg hi) :: s.out)

/-- R11, in full: an access to a listed page that is not 32 bits wide and 4-byte aligned changes nothing but the count of its page, completes with an
error response, and answers all ones to a read; a granted read of an unimplemented offset answers zero; a granted write to one changes nothing but
the IGNORED count of its page. -/
def Obligations.AccessesAreWholeAlignedWords : Prop :=
  (∀ (s : State) (m : Master) (a size t : Nat), pageListed a = true → (a % 4 ≠ 0 ∨ size ≠ 4) →
    ∃ u, exec (.lowWordRead .bar0 m false a size t) s = .next u ∧ u.out = .readData m.val a 0xFFFFFFFF :: .busError m.val a :: s.out ∧ s.keepsBut [.now, .regs, .out] u ∧
      ∀ b, b ≠ pageIgnoredAt a → u.reg b = s.reg b) ∧
  (∀ (s : State) (m : Master) (a size t : Nat) (v : Word), pageListed a = true → (a % 4 ≠ 0 ∨ size ≠ 4) →
    ∃ u, exec (.registerWrite .bar0 m a size v t) s = .next u ∧ u.out = .busError m.val a :: s.out ∧ s.keepsBut [.now, .regs, .out] u ∧ ∀ b, b ≠ pageIgnoredAt a → u.reg b = s.reg b) ∧
  (∀ (s : State) (m : Master) (a t : Nat), s.checkAccess m a 4 0 = .open → regRowAt a = none →
    Table.get none s.latches (latchKey a m) = none →
    ∃ u, exec (.lowWordRead .bar0 m false a 4 t) s = .next u ∧ u.out = .readData m.val a 0 :: s.out) ∧
  (∀ (s : State) (m : Master) (a t : Nat) (v : Word), s.checkAccess m a 4 1 = .open → regRowAt a = none →
    ∃ u, exec (.registerWrite .bar0 m a 4 v t) s = .next u ∧ s.keepsBut [.now, .regs] u ∧
      (∀ b, b ≠ pageIgnoredAt a → u.reg b = s.reg b) ∧
      ((s.reg (pageIgnoredAt a)).toNat % 65536 < 65535 → (u.reg (pageIgnoredAt a)).toNat = (s.reg (pageIgnoredAt a)).toNat + 1))

/-- R72: at 2⁴⁸ − 1 the reference number stops and SATURATED is set, whether the cycle is synthetic or real: the cycle that reaches it sets it, and
one at it moves the number no more. -/
def Obligations.ReferenceNumberStopsAtItsEnd : Prop :=
  (∀ (s : State) (t : Nat), s.cyc.running = true → s.cyc.mains = false → s.cyc.lastAt + s.cyc.period ≤ max s.now t →
    s.cyc.num = 2 ^ 48 - 1 → ∃ u, exec (.syntheticCycle t) s = .next u ∧ u.cyc = { s.cyc with saturated := true }) ∧
  (∀ (s : State) (t : Nat), s.cyc.running = true → s.cyc.mains = false → s.cyc.lastAt + s.cyc.period ≤ max s.now t →
    s.cyc.num < 2 ^ 48 - 1 →
    ∃ u, exec (.syntheticCycle t) s = .next u ∧ u.cyc.num = s.cyc.num + 1 ∧
      u.cyc.saturated = decide (s.cyc.num + 1 = 2 ^ 48 - 1)) ∧
  (∀ (s : State) (p : Fin 3) (w : ZcWave) (m : List MetCycle) (t a z : Nat), s.cyc.running = true → s.swings w = true →
    z = min (max s.now t) (zcInstant w) → (s.cyc.phase p.val).lastAccepted = some a →
    (s.cyc.phase p.val).present = true → s.cyc.source = p.val → s.cyc.pendingSource = none → s.cyc.nominalDecided = true →
    s.cyc.period ≤ 2 * (z - a) → s.inWindow (z - a) = true → s.cyc.period < 2 * (z - s.cyc.lastAt) →
    s.cyc.num = 2 ^ 48 - 1 →
    ∃ u, exec (.zeroCrossing p w m t) s = .next u ∧ u.cyc.num = 2 ^ 48 - 1 ∧ u.cyc.saturated = true) ∧
  (∀ (s : State) (p : Fin 3) (w : ZcWave) (m : List MetCycle) (t a z : Nat), s.cyc.running = true → s.swings w = true →
    z = min (max s.now t) (zcInstant w) → (s.cyc.phase p.val).lastAccepted = some a →
    (s.cyc.phase p.val).present = true → s.cyc.source = p.val → s.cyc.pendingSource = none → s.cyc.nominalDecided = true →
    s.cyc.period ≤ 2 * (z - a) → s.inWindow (z - a) = true → s.cyc.period < 2 * (z - s.cyc.lastAt) →
    s.cyc.num < 2 ^ 48 - 1 →
    ∃ u, exec (.zeroCrossing p w m t) s = .next u ∧ u.cyc.num = s.cyc.num + 1 ∧
      u.cyc.saturated = decide (s.cyc.num + 1 = 2 ^ 48 - 1))

/-- CONTEXT_FILL, SLOT_MISS, COMPONENT_LAPSE and TROIKA_UPDATE leave every other meter as it is: a step that works on one meter's context entry, or on
its legal slot, changes no other meter's (R113, R187, R231, R295). -/
def Obligations.OtherMetersKeepTheirState : Prop :=
  (∀ (s u : State) (lane : Fin 4) (x : EccOutcome) (t i : Nat) (rest : List Nat), s.laneFills lane.val = i :: rest →
    exec (.contextFill lane x t) s = .next u → ∀ j, j ≠ i → u.ctxAt j = s.ctxAt j) ∧
  (∀ (s u : State) (k : Fin 16384) (t : Nat), exec (.slotMiss k t) s = .next u → ∀ j, j ≠ k.val → u.ctxAt j = s.ctxAt j) ∧
  (∀ (s u : State) (g : Gmn) (t i : Nat), s.heldIndex g = some i → exec (.componentLapse g t) s = .next u →
    ∀ j, j ≠ i → u.ctxAt j = s.ctxAt j) ∧
  (∀ (s u : State) (f : Bool) (a b c : UnitAnswer) (t id i tref : Nat) (r : Record) (k : Option Int) (d : List (Option Nat)),
    nextItem s.bil.undecided [] s.bil.queue = some (.record id i r tref k d) → exec (.troikaUpdate f a b c t) s = .next u →
    ∀ j, j ≠ i → u.slotAt j = s.slotAt j)

/-- POWER_UP_SEQUENCE and MAIN_RAIL_TIMEOUT (R528, R529): PWR_EN_MAIN rises once the always-on rails are in range; while the main rails do not follow,
two further attempts are made a second apart, each after 50 ms, and then the device waits in STANDBY with PWR_EN_MAIN low and the side-band up.

MAIN_RAIL_DROP and AON_SUPPLY_LOSS (R527, R529): the main domains stop, the start's progress is gone, and what lies outside AON is lost; the
supply loss also lowers PWR_EN_MAIN and leaves ACT_OWN_OUT high-impedance. -/
def Obligations.SuppliesStartAndStopTheDevice : Prop :=
  (∀ (s : State) (t : Nat), s.pins.aonReset = false →
    ∃ u, exec (.powerUpSequence t) s = .next u ∧ u.pins.railsOk = true ∧ u.pins.aonReset = true ∧ u.pins.pwrEnMain = true ∧
      u.pins.mainOk = false ∧ u.pins.actOwnHighZ = false ∧ u.pins.railAt = max s.now t + ticksPerMs / 2) ∧
  (∀ (s : State) (t : Nat), s.pins.pwrEnMain = true → s.pins.mainOk = false → s.pins.railAt + 50 * ticksPerMs ≤ max s.now t →
    s.pins.railAttempts < 2 →
    ∃ u, exec (.mainRailTimeout t) s = .next u ∧ u.pins.pwrEnMain = true ∧ u.pins.railAttempts = s.pins.railAttempts + 1 ∧
      u.pins.railAt = max s.now t + ticksPerSec ∧ u.pwr = s.pwr) ∧
  (∀ (s : State) (t : Nat), s.pins.pwrEnMain = true → s.pins.mainOk = false → s.pins.railAt + 50 * ticksPerMs ≤ max s.now t →
    2 ≤ s.pins.railAttempts →
    ∃ u, exec (.mainRailTimeout t) s = .next u ∧ u.pins.pwrEnMain = false ∧ u.pwr.mode = .standby ∧ u.pwr.budget = 3 ∧
      u.sb.up = true) ∧
  (∀ (s : State) (t : Nat), s.pins.pwrEnMain = true → s.pins.mainOk = true →
    ∃ u, exec (.mainRailDrop t) s = .next u ∧ u.pins.mainOk = false ∧ u.pins.pwrEnMain = true ∧ u.boot.stage = 0 ∧ u.boot.locked = false ∧
      u.host.queuesOpen = false ∧ u.bal = Bal.atReset ∧ u.val = Val.atReset ∧ u.plc.tx = [] ∧ u.cfg = s.cfg ∧ u.pending = s.pending) ∧
  (∀ (s : State) (t : Nat), s.pins.aonReset = true →
    ∃ u, exec (.aonSupplyLoss t) s = .next u ∧ u.pins.aonReset = false ∧ u.pins.pwrEnMain = false ∧ u.pins.mainOk = false ∧
      u.boot.stage = 0 ∧ u.host.queuesOpen = false ∧ u.bal = Bal.atReset ∧ u.pins.actOwnHighZ = true ∧ u.pending = s.pending)

/-- POWER_ON_RESET, HRST, HOLD_COMPLETE and HOLD_TIMEOUT (R474, R475): the start that follows has its class latched, the class before it kept as the
previous class, and the rails up; so has the start after BOOT_WATCHDOG_EXPIRY (R34), 10 s after the boot ROM last restarted its watchdog. Each
start ends in step 15, in RECOVERY, halted, hanging, or in GASP, and no job outlives the reset.

WAKE_N_LOW, STANDBY_MAINS_RETURN and THERMAL_WAKE (R466, R467): from STANDBY the device starts again with class 8 once its rails are up; after a
thermal shutdown the wake is held until the device has cooled. -/
def Obligations.ResetsAndWakesLatchTheirClass : Prop :=
  (∀ (s : State) (e : StartEnv) (t : Nat), s.pins.aonReset = true → s.pins.pwrEnMain = true → s.pins.railAt ≤ max s.now t →
    s.pins.wakePending = false →
    ∃ u, exec (.powerOnReset e t) s = .next u ∧ u.rst.cls = .por ∧ u.rst.prev = s.rst.cls ∧ u.pins.mainOk = true ∧ u.pins.pwrEnMain = true ∧
      u.startEnds ∧ u.host.jobs = [] ∧ u.pending = s.pending) ∧
  (∀ (s : State) (e : StartEnv) (t : Nat), s.pins.aonReset = true → e.rails = true →
    ∃ u, exec (.hrst e t) s = .next u ∧ u.rst.cls = .hrst ∧ u.rst.prev = s.rst.cls ∧ u.pins.mainOk = true ∧ u.pins.pwrEnMain = true ∧
      u.startEnds ∧ u.host.jobs = [] ∧ u.pending = s.pending) ∧
  (∀ (s : State) (e : StartEnv) (t : Nat) (h : Hold), s.rst.hold = some h →
    ∃ u, exec (.holdComplete e t) s = .next u ∧ u.rst.cls = h.cls ∧ u.rst.prev = s.rst.cls ∧ u.rst.holdTimeout = false ∧
      u.rst.escalated = h.escalated ∧ u.rst.hold = none ∧ u.startEnds ∧ u.host.jobs = [] ∧ u.pending = s.pending) ∧
  (∀ (s : State) (e : StartEnv) (t : Nat) (h : Hold), s.rst.hold = some h → h.since + 100 * ticksPerMs ≤ max s.now t →
    ∃ u, exec (.holdTimeout e t) s = .next u ∧ u.rst.cls = h.cls ∧ u.rst.prev = s.rst.cls ∧ u.rst.holdTimeout = true ∧
      u.rst.escalated = h.escalated ∧ u.rst.hold = none ∧ u.startEnds ∧ u.host.jobs = [] ∧ u.pending = s.pending) ∧
  (∀ (s : State) (e : StartEnv) (t a : Nat), s.pwr.mode = .boot → s.boot.halted = false → s.boot.watchdogAt = some a →
    a + 10 * ticksPerSec ≤ max s.now t →
    ∃ u, exec (.bootWatchdogExpiry e t) s = .next u ∧ u.rst.cls = .wdg ∧ u.rst.prev = s.rst.cls ∧ u.startEnds ∧ u.host.jobs = [] ∧
      u.pending = s.pending) ∧
  (∀ (s : State) (e : StartEnv) (t : Nat), s.pwr.mode = .standby → s.pins.wakePending = false → s.pwr.thermalStandby = false → e.rails = true →
    ∃ u, exec (.wakeNLow e t) s = .next u ∧ u.rst.cls = .wake ∧ u.rst.prev = s.rst.cls ∧ u.pins.pwrEnMain = true ∧ u.pins.mainOk = true ∧
      u.startEnds ∧ u.host.jobs = []) ∧
  (∀ (s : State) (e : StartEnv) (t : Nat), s.pwr.mode = .standby → s.pins.wakePending = false → s.pwr.thermalStandby = true →
    s.pwr.coolSince = none →
    ∃ u, exec (.wakeNLow e t) s = .next u ∧ u.pwr.wakeHeld = true ∧ u.pwr.mode = .standby) ∧
  (∀ (s : State) (periods : List Nat) (e : StartEnv) (t : Nat), s.pwr.mode = .standby → s.pins.wakePending = false →
    s.pwr.thermalStandby = false → s.pwr.gaspCause = 3 → s.pwr.pfailLow = false ∨ s.crossingsReturn periods = true → e.rails = true →
    ∃ u, exec (.standbyMainsReturn periods e t) s = .next u ∧ u.rst.cls = .wake ∧ u.rst.prev = s.rst.cls ∧ u.pins.mainOk = true ∧ u.startEnds ∧
      u.host.jobs = []) ∧
  (∀ (s : State) (e : StartEnv) (t a : Nat), s.pwr.mode = .standby → s.pins.wakePending = false → s.pwr.wakeHeld = true →
    s.pwr.coolSince = some a → a + 60 * ticksPerSec ≤ max s.now t → e.rails = true →
    ∃ u, exec (.thermalWake e t) s = .next u ∧ u.rst.cls = .wake ∧ u.rst.prev = s.rst.cls ∧ u.pins.mainOk = true ∧ u.startEnds ∧ u.host.jobs = [])

/-- WRM, SYS_WATCHDOG_EXPIRY, SWP_ESCALATION and LEGAL_WATCHDOG_ESCALATION (R475, R476, R168): outside GASP and STANDBY, with no hold in progress, the
reset is held for Fuller from now on.

APP_HEARTBEAT, WATCHDOG_PENDING and LEGAL_WATCHDOG_EXPIRY (R476, R168): a heartbeat restarts the watchdog; a second without one makes it pending;
a legal core that has not shown itself for 2 s takes the legal partition into its safe state (how it shows itself is the model's choice,
notes/assumptions/185.md). -/
def Obligations.WatchdogsHoldResetsForFuller : Prop :=
  (∀ (s : State) (t : Nat), s.pwr.mode ≠ .gasp → s.pwr.mode ≠ .standby → s.rst.hold = none →
    ∃ u, exec (.wrm t) s = .next u ∧ u.rst.hold = some ⟨.wrm, max s.now t, false⟩) ∧
  (∀ (s : State) (t : Nat), s.clusterRuns = true → s.rst.hold = none →
    s.rst.heartbeatAt + s.item iWdgTimeout * ticksPerMs ≤ max s.now t →
    ∃ u, exec (.sysWatchdogExpiry t) s = .next u ∧ u.rst.hold = some ⟨.wdg, max s.now t, false⟩) ∧
  (∀ (s : State) (t a : Nat), s.clusterRuns = true → s.rst.hold = none → s.rst.swpAt = some a → a + 2 * ticksPerSec ≤ max s.now t →
    ∃ u, exec (.swpEscalation t) s = .next u ∧ u.rst.hold = some ⟨.swf, max s.now t, true⟩ ∧ u.rst.swpAt = none) ∧
  (∀ (s : State) (t a : Nat), s.pwr.mode ≠ .gasp → s.pwr.mode ≠ .standby → s.rst.hold = none → s.lgc.watchdogAt = some a →
    a + ticksPerSec ≤ max s.now t →
    ∃ u, exec (.legalWatchdogEscalation t) s = .next u ∧ u.rst.hold = some ⟨.wdg, max s.now t, false⟩) ∧
  (∀ (s : State) (t : Nat), s.clusterRuns = true →
    ∃ u, exec (.appHeartbeat t) s = .next u ∧ u.rst.heartbeatAt = max s.now t ∧ u.rst.watchdogPending = false ∧ u.rst.swpAt = none) ∧
  (∀ (s : State) (t : Nat), s.clusterRuns = true → s.rst.heartbeatAt + ticksPerSec ≤ max s.now t →
    ∃ u, exec (.watchdogPending t) s = .next u ∧ u.rst.watchdogPending = true) ∧
  (∀ (s : State) (t : Nat), s.lgc.running = true → s.lgc.watchdogAt = none → s.lgc.servedAt + 2 * ticksPerSec ≤ max s.now t →
    ∃ u, exec (.legalWatchdogExpiry t) s = .next u ∧ u.bil.safe = true ∧ u.lgc.watchdogAt = some (max s.now t))

/-- PFAIL_N_CHANGE, MODE_EVALUATION and RIDE_TIME_EXPIRY (R457, R458, R461, R463): STANDBY notes the pin only; a loss of supply in a start begins GASP
with cause 3; a power above its cap throttles a running device, and one within it, with no heat, returns it to RUN; a ride that reaches RIDE_TIME
goes to GASP with cause 5.

TEMPERATURE_SAMPLE and THERMAL_CLEAR (R461): the four readings are kept, and a sensor that reads outside −55 to 160 °C has failed; a condition
that has stayed cleared for 10 s ends.

GASP_FULLER_DEADLINE and STANDBY_ENTRY (R464): 180 ms into GASP what is dirty is abandoned; at 250 ms STANDBY begins with PWR_EN_MAIN low. -/
def Obligations.ModesFollowTheirInputs : Prop :=
  (∀ (s : State) (low : Bool) (t : Nat), s.pwr.mode = .standby →
    ∃ u, exec (.pfailNChange low t) s = .next u ∧ u.pwr = { s.pwr with pfailLow := low }) ∧
  (∀ (s : State) (t : Nat), s.pwr.mode = .boot → s.boot.halted = false → (s.tMaxIs fun x => decide ((s.item iShutdownC : Int) ≤ x)) = false →
    ∃ u, exec (.pfailNChange true t) s = .next u ∧ u.pwr.mode = .gasp ∧ u.pwr.budget = 3 ∧ u.pwr.gaspCause = 3 ∧
      u.pwr.gaspAt = some (max s.now t)) ∧
  (∀ (s : State) (vscap mw t : Nat), s.pwr.mode = .run → s.boot.halted = false → s.item iPowerCapMw ≠ 0 → s.item iPowerCapMw < mw → s.item iMainsSource = 1 →
    15 ≤ s.boot.stage → s.pwr.pfailLow = false → (s.tMaxIs fun x => decide ((s.item iShutdownC : Int) ≤ x)) = false →
    ∃ u, exec (.modeEvaluation vscap mw t) s = .next u ∧ u.pwr.vscap = vscap ∧ u.pwr.powerMw = mw ∧ u.pwr.overCap = true ∧
      u.pwr.mode = .throttle) ∧
  (∀ (s : State) (vscap mw t : Nat), s.pwr.mode = .throttle → s.boot.halted = false → mw ≤ s.item iPowerCapMw → s.pwr.overCap = false → s.pwr.thermal = false →
    s.pwr.testStart = false → s.item iMainsSource = 1 → 15 ≤ s.boot.stage → s.pwr.pfailLow = false →
    (s.tMaxIs fun x => decide ((s.item iShutdownC : Int) ≤ x)) = false →
    ∃ u, exec (.modeEvaluation vscap mw t) s = .next u ∧ u.pwr.vscap = vscap ∧ u.pwr.mode = .run ∧ u.pwr.budget = 0) ∧
  (∀ (s : State) (t : Nat), s.pwr.mode = .ride → s.boot.halted = false → s.mainsPresent = false → (s.advance t).rideOver = true → 15 ≤ s.boot.stage →
    s.item iMainsSource = 1 → (s.tMaxIs fun x => decide ((s.item iShutdownC : Int) ≤ x)) = false →
    ∃ u, exec (.rideTimeExpiry t) s = .next u ∧ u.pwr.mode = .gasp ∧ u.pwr.budget = 3 ∧ u.pwr.gaspCause = 5 ∧
      u.pwr.gaspAt = some (max s.now t)) ∧
  (∀ (s : State) (t0 t1 t2 t3 : Int) (t : Nat),
    ∃ u, exec (.temperatureSample t0 t1 t2 t3 t) s = .next u ∧ u.pwr.temps = [t0, t1, t2, t3] ∧
      (∀ n : Fin 4, (t0 :: t1 :: t2 :: t3 :: []).getD n.val 0 < -55 ∨ 160 < (t0 :: t1 :: t2 :: t3 :: []).getD n.val 0 →
        u.pwr.sensorFail.getLsbD n.val = true)) ∧
  (∀ (s : State) (t a : Nat), s.pwr.thermalClearSince = some a → a + 10 * ticksPerSec ≤ max s.now t →
    ∃ u, exec (.thermalClear t) s = .next u ∧ u.pwr.thermal = false) ∧
  (∀ (s : State) (t a : Nat), s.pwr.gaspAt = some a → s.pwr.mode = .gasp → s.pwr.gaspStored = false → a + 180 * ticksPerMs ≤ max s.now t →
    ∃ u, exec (.gaspFullerDeadline t) s = .next u ∧ u.ful.dirty = [] ∧ u.pwr.gaspStored = true ∧ u.ful.cleanStart = s.ful.cleanStart) ∧
  (∀ (s : State) (t a : Nat), s.pwr.gaspAt = some a → s.pwr.mode = .gasp → a + 250 * ticksPerMs ≤ max s.now t →
    ∃ u, exec (.standbyEntry t) s = .next u ∧ u.pwr.mode = .standby ∧ u.pwr.budget = 3 ∧ u.pins.pwrEnMain = false ∧ u.pins.mainOk = false ∧
      u.boot.stage = 0 ∧ u.pending = s.pending)

/-- ZERO_CROSSING, PHASE_ABSENT and SYNTHETIC_CYCLE (R64 to R69): a passage that does not swing through the hysteresis is no crossing; a crossing less
than half a period after the last accepted one is counted as noise; an accepted crossing in the window on the present source takes the next cycle
number; a phase whose crossings fail is absent; a synthetic cycle that is due takes the next number, one period after the last. -/
def Obligations.CyclesAreNumbered : Prop :=
  (∀ (s : State) (p : Fin 3) (w : ZcWave) (m : List MetCycle) (t : Nat), s.cyc.running = true → s.swings w = false →
    ∃ u, exec (.zeroCrossing p w m t) s = .next u ∧ u.cyc = s.cyc) ∧
  (∀ (s : State) (p : Fin 3) (w : ZcWave) (m : List MetCycle) (t a : Nat), s.cyc.running = true → s.swings w = true →
    (s.cyc.phase p.val).lastAccepted = some a → 2 * (min (max s.now t) (zcInstant w) - a) < s.cyc.period →
    ∃ u, exec (.zeroCrossing p w m t) s = .next u ∧ u.cyc = { s.cyc with noise := satAdd 16 s.cyc.noise 1 }) ∧
  (∀ (s : State) (p : Fin 3) (w : ZcWave) (m : List MetCycle) (t a z : Nat), s.cyc.running = true → s.swings w = true →
    z = min (max s.now t) (zcInstant w) → (s.cyc.phase p.val).lastAccepted = some a →
    (s.cyc.phase p.val).present = true → s.cyc.source = p.val → s.cyc.pendingSource = none → s.cyc.nominalDecided = true →
    s.cyc.period ≤ 2 * (z - a) → s.inWindow (z - a) = true → s.cyc.period < 2 * (z - s.cyc.lastAt) → s.cyc.num < 2 ^ 48 - 1 →
    ∃ u, exec (.zeroCrossing p w m t) s = .next u ∧ u.cyc.num = s.cyc.num + 1 ∧ u.cyc.synth = false ∧ u.cyc.lastAt = z) ∧
  (∀ (s : State) (p : Fin 3) (t v : Nat), s.cyc.running = true → (s.cyc.phase p.val).present = true →
    (s.cyc.phase p.val).lastValid = some v → s.item iLossPeriods * s.cyc.period ≤ 10 * (max s.now t - v) →
    ∃ u, exec (.phaseAbsent p t) s = .next u ∧ (u.cyc.phase p.val).present = false) ∧
  (∀ (s : State) (t : Nat), s.cyc.running = true → s.cyc.mains = false → s.cyc.lastAt + s.cyc.period ≤ max s.now t →
    s.cyc.num < 2 ^ 48 - 1 →
    ∃ u, exec (.syntheticCycle t) s = .next u ∧ u.cyc.num = s.cyc.num + 1 ∧ u.cyc.synth = true ∧
      u.cyc.lastAt = s.cyc.lastAt + s.cyc.period)

/-- RTC_TICK, OPERATING_TIME_TICK, OPERATING_TIME_PERSIST and AON_TIME_REFRESH (R73, R90, R521): while CYC stands, a tick without trim adds one 32
768th of a second's cycles to the shadow's accumulator; operating time rises by a second and is persisted once an hour; AON's copy of wall time is
taken from TIM. -/
def Obligations.AonKeepsTime : Prop :=
  (∀ (s : State) (t : Nat), s.cyc.running = false → s.cyc.rtcTrim = 0 → s.cyc.trimAcc = 0 → s.cyc.shadowAcc + s.nominalHz < 32768 →
    s.cyc.shadow < 2 ^ 48 →
    ∃ u, exec (.rtcTick t) s = .next u ∧ u.cyc.shadow = s.cyc.shadow ∧ u.cyc.shadowAcc = s.cyc.shadowAcc + s.nominalHz ∧
      u.tim.aonWall = s.tim.aonWall + 2000000000) ∧
  (∀ (s : State) (t : Nat), ∃ u, exec (.operatingTimeTick t) s = .next u ∧ u.way.opTime = satAdd 40 s.way.opTime 1) ∧
  (∀ (s : State) (t : Nat), s.way.opTimeSaved + 3600 ≤ s.way.opTime →
    ∃ u, exec (.operatingTimePersist t) s = .next u ∧ u.way.opTimeSaved = s.way.opTime) ∧
  (∀ (s : State) (t : Nat), s.tim.running = true → s.tim.aonAt + ticksPerSec ≤ max s.now t →
    ∃ u, exec (.aonTimeRefresh t) s = .next u ∧ u.tim.aonWall = (s.advance t).wall ∧ u.tim.aonAt = max s.now t ∧
      u.tim.aonValid = s.tim.valid)

/-- The PTP commands (R91, R92, R547): a two-step Sync waits for its Follow_Up; the Follow_Up takes it; the Delay_Resp that answers the last request
completes the exchange; a request takes the next sequence number and is sent; an Announce enters the foreign masters; a master silent for three
intervals leaves them. -/
def Obligations.PtpMessagesAreTaken : Prop :=
  (∀ (s : State) (h : PtpHdr) (sub t : Nat), s.ptpHeard h = true → h.port.val < s.tim.ports.length →
    ∃ u, exec (.sync h none sub t) s = .next u ∧
      (u.tim.port h.port).sync = some ⟨h.master, h.seq, (s.advance t).macStamp sub - (s.stampFigures h.port).1, h.logInterval⟩) ∧
  (∀ (s : State) (h : PtpHdr) (t1 : Int) (t : Nat) (y : PtpSync), s.ptpHeard h = true → (s.tim.port h.port).sync = some y →
    y.master = h.master → y.seq = h.seq → (s.tim.port h.port).exchange = none →
    ∃ u, exec (.followUp h t1 t) s = .next u ∧ (u.tim.port h.port).sync = none) ∧
  (∀ (s : State) (h : PtpHdr) (t4 t3 : Int) (t : Nat), s.ptpHeard h = true → (s.tim.port h.port).request = some (h.seq, t3) →
    s.tim.master = some (h.port, h.master) →
    ∃ u, exec (.delayResp h t4 t) s = .next u ∧ (u.tim.port h.port).request = none ∧
      (u.tim.port h.port).exchange = some ⟨h.master, t3, t4, max s.now t⟩) ∧
  (∀ (s : State) (p : Fin 2) (sub t bits : Nat) (c : Fin 8) (m : BitVec 64), s.ptpPortOn p = true → s.tim.master = some (p, m) →
    (s.tim.port p).requestAt = none → p.val < s.tim.ports.length → c = s.txClass p.val 0 →
    bits = delayReqBits (s.ethTag p.val c.val) (s.item iPtpTransport) → (s.advance t).gateFits p.val c bits = true →
    (s.advance t).gateOpenFor p.val c bits (s.advance t).wallNs = true →
    ∃ u, exec (.delayReqSend p sub t) s = .next u ∧
      (u.tim.port p).request = some ((s.tim.port p).nextSeq, (s.advance t).macStamp sub + (s.stampFigures p).2) ∧
      (u.tim.port p).requestAt = some (max s.now t) ∧ u.out.head? = some (.delayReq p.val (s.tim.port p).nextSeq c.val (s.ethTag p.val c.val))) ∧
  (∀ (s : State) (h : PtpHdr) (a : PtpAnnounce) (t : Nat), s.ptpHeard h = true → h.port.val < s.tim.ports.length →
    ∃ u, exec (.ptpAnnounce h a t) s = .next u ∧
      (u.tim.port h.port).foreign.getLast? = some ⟨{ a with sender := h.master, logInterval := h.logInterval }, max s.now t⟩) ∧
  (∀ (s : State) (p : Fin 2) (m : BitVec 64) (t : Nat),
    ∃ u, exec (.masterTimeout p m t) s = .next u ∧
      ∀ f, f ∈ (u.tim.port p).foreign →
        ¬(f.announce.sender = m ∧ f.heard + 3 * intervalTicks f.announce.logInterval ≤ max s.now t))

/-- PROPORTIONAL_END, STEP_PERMIT_EXPIRY, LEAP_SECOND, EXPERT_SESSION_EXPIRY and NONCE_EXPIRY (R548, R87, R89, R58, R407): what has run out ends.

PULSE_INSTANT, PULSE_FALL and LAUNCH (R98, R96): at its instant an output rises for WIDTH, then falls; a frame without a launch time whose gate is
open is sent at once; one whose time lies ahead is held, and sent at that time; one too long for its gate is counted. -/
def Obligations.TimedStatesEndAndOutputsAct : Prop :=
  (∀ (s : State) (t a : Nat), s.tim.propUntil = some a → a ≤ max s.now t →
    ∃ u, exec (.proportionalEnd t) s = .next u ∧ u.tim.propUntil = none ∧ u.tim.rate = clampRate s.tim.integral ∧
      u.tim.anchor = max s.now t ∧ u.tim.wall = (s.advance t).wall) ∧
  (∀ (s : State) (t : Nat) (p : StepPermit), s.tim.permit = some p → p.opened + p.window * ticksPerSec ≤ max s.now t →
    ∃ u, exec (.stepPermitExpiry t) s = .next u ∧ u.tim.permit = none ∧ u.tim.wall = s.tim.wall) ∧
  (∀ (s : State) (t : Nat), s.tim.running = true → s.tim.leap ≠ 0 → s.tim.leapEnd ≤ ((s.advance t).wallSec : Int) →
    ∃ u, exec (.leapSecond t) s = .next u ∧ (u.tim.utcOffset : Int) = max 0 (s.tim.utcOffset + s.tim.leap) ∧ u.tim.leap = 0) ∧
  (∀ (s : State) (t a : Nat), s.boot.expertUntil = some a → a ≤ max s.now t →
    ∃ u, exec (.expertSessionExpiry t) s = .next u ∧ u.boot.expertUntil = none) ∧
  (∀ (s : State) (t : Nat), s.tim.valid = true →
    ∃ u, exec (.nonceExpiry t) s = .next u ∧
      (∀ x, x ∈ u.sec.nonces → x ∈ s.sec.nonces) ∧
      (∀ n a, (n, a, none) ∈ s.sec.nonces → ((n, a, none) ∈ u.sec.nonces ↔ (s.advance t).sec2020 ≤ a)) ∧
      (∀ n a b, (n, a, some b) ∈ s.sec.nonces → ((n, a, some b) ∈ u.sec.nonces ↔ s.way.opTime < b))) ∧
  (∀ (s : State) (o : Fin 2) (t i : Nat), s.tim.running = true → o.val < s.tim.pulses.length → (s.tim.pulse o.val).width ≠ 0 →
    (s.tim.pulse o.val).instant (s.tim.pulse o.val).next = some i → i ≤ (s.advance t).wallNs →
    ∃ u, exec (.pulseInstant o t) s = .next u ∧ (u.tim.pulse o.val).level = true ∧
      (u.tim.pulse o.val).fallAt = some (i + (s.tim.pulse o.val).width) ∧ (u.tim.pulse o.val).next = (s.tim.pulse o.val).next + 1) ∧
  (∀ (s : State) (o : Fin 2) (t f : Nat), (s.tim.pulse o.val).fallAt = some f → f ≤ (s.advance t).wallNs →
    ∃ u, exec (.pulseFall o t) s = .next u ∧ (u.tim.pulse o.val).level = false ∧ (u.tim.pulse o.val).fallAt = none ∧
      u.out = .pulse o.val false :: s.out) ∧
  (∀ (s : State) (p : Fin 2) (c : Fin 8) (bytes : List Byte) (ns : Nat) (ahead : Bool) (t : Nat), (s.ethPort p.val).link = true →
    ⟨c.val, bytes, 0, ns⟩ ∉ (s.ethPort p.val).launches → (s.advance t).gateFits p.val c (8 * bytes.length) = true →
    (s.advance t).gateOpenFor p.val c (8 * bytes.length) (s.advance t).wallNs = true →
    ∃ u, exec (.launch p c bytes 0 ns ahead t) s = .next u ∧ u.out = .launch p.val c.val bytes true 0 :: s.out) ∧
  (∀ (s : State) (p : Fin 2) (c : Fin 8) (bytes : List Byte) (sec ns : Nat) (ahead : Bool) (t : Nat), (s.ethPort p.val).link = true →
    p.val < s.eth.ports.length → ⟨c.val, bytes, sec, ns⟩ ∉ (s.ethPort p.val).launches → sec ≠ 0 →
    (s.advance t).gateFits p.val c (8 * bytes.length) = true → (s.advance t).wallNs < sec * 1000000000 + ns →
    sec * 1000000000 + ns ≤ (s.advance t).wallNs + 10000000000 →
    ∃ u, exec (.launch p c bytes sec ns ahead t) s = .next u ∧ u.out = s.out ∧ ⟨c.val, bytes, sec, ns⟩ ∈ (u.ethPort p.val).launches) ∧
  (∀ (s : State) (p : Fin 2) (c : Fin 8) (bytes : List Byte) (sec ns : Nat) (t : Nat), (s.ethPort p.val).link = true →
    ⟨c.val, bytes, sec, ns⟩ ∈ (s.ethPort p.val).launches → sec ≠ 0 → sec * 1000000000 + ns ≤ (s.advance t).wallNs →
    (s.advance t).gateWait p.val c (8 * bytes.length) (sec * 1000000000 + ns) = 0 →
    ∃ u, exec (.launch p c bytes sec ns false t) s = .next u ∧ u.out = .launch p.val c.val bytes true 0 :: s.out) ∧
  (∀ (s : State) (p : Fin 2) (c : Fin 8) (bytes : List Byte) (sec ns : Nat) (ahead : Bool) (t : Nat), (s.ethPort p.val).link = true →
    ⟨c.val, bytes, sec, ns⟩ ∉ (s.ethPort p.val).launches → (s.advance t).gateFits p.val c (8 * bytes.length) = false →
    ∃ u, exec (.launch p c bytes sec ns ahead t) s = .next u ∧ u.out = s.out ∧
      u.reg (cEthGateTooLong p.val).addr = BitVec.ofNat 32 (satAdd 32 (s.reg (cEthGateTooLong p.val).addr).toNat 1))

/-- INGEST_FRAME, STEERING and CREDIT_RETURN (R102, R103, R107): an accepted frame takes the next arrival ticket and FIFO words of credit; a PLC or RF
frame without credits changes nothing in ING; the item of the lowest ticket is read into its lane or the splitter; credits on their way back are
held again.

BUNDLE_SPLIT and BUNDLE_CLOSE (R135, R137): a bundle of a known sender whose check holds is noted with its sequence and time; a repeat, one lost
to parity and a badly formed one hand no entry on; a bundle that is due is closed and leaves nothing behind. -/
def Obligations.FramesEnterInTicketOrder : Prop :=
  (∀ (s : State) (f : Frame), f.src < s.ing.fifos.length → f.src ≤ 10 → s.frameFits f = true →
    ∃ u, exec (.ingestFrame f) s = .next u ∧ u.fifo f.src = s.fifo f.src ++ [⟨s.ing.ticket, fifoData (frameData f), .frame f⟩] ∧
      u.ing.ticket = s.ing.ticket + 1 ∧
      u.ing.credits = s.ing.credits.set f.src (s.ing.credits.getD f.src 0 - fifoWords (frameLen f))) ∧
  (∀ (s : State) (f : Frame), f.src ≤ 4 → frameLen f ≤ frameLimit f.src → s.frameFits f = false →
    ∃ u, exec (.ingestFrame f) s = .next u ∧ u.ing = s.ing) ∧
  (∀ (s : State) (n : Nat) (x : Ticketed) (l : Nat) (i : Option Nat), s.pipeOff = false → s.nextTicketed = some (n, x) → s.steerTo x.body = .lane l i →
    s.laneFull l = false → l < s.ing.lanes.length →
    ∃ u, exec .steering s = .next u ∧ u.lane l = s.lane l ++ [⟨i, false, x⟩] ∧ u.ing.ticket = s.ing.ticket) ∧
  (∀ (s : State) (n : Nat) (x : Ticketed), s.pipeOff = false → s.nextTicketed = some (n, x) → s.steerTo x.body = .splitter → s.ing.splitter = [] →
    ∃ u, exec .steering s = .next u ∧ u.ing.splitter = [x]) ∧
  (∀ (s : State) (src : Fin 11), src.val < s.ing.credits.length → src.val < s.ing.returning.length →
    ∃ u, exec (.creditReturn src) s = .next u ∧
      u.ing.credits.getD src.val 0 = s.ing.credits.getD src.val 0 + s.ing.returning.getD src.val 0 ∧
      u.ing.returning.getD src.val 0 = 0 ∧ u.ing.fifos = s.ing.fifos) ∧
  (∀ (s : State) (t : Nat) (x : Ticketed) (f : Frame) (b : RelayBundle) (peer : Option (Fin 2 × Fin 32)) (k : Nat),
    s.pipeOff = false → s.ing.splitter = [x] → x.body = .frame f → f.faults.any parityLost = false → f.body = .bundle b peer →
    bundleFormatOk b = true → s.findSender b.senderId.toNat = some k → s.bundleVerifies b k = true →
    b.seq ∉ (Table.get SenderState.fresh s.ing.senders k).seqs →
    ∃ u, exec (.bundleSplit t) s = .next u ∧ u.ing.splitter = [] ∧
      Table.get SenderState.fresh u.ing.senders k =
        ⟨(b.seq :: (Table.get SenderState.fresh s.ing.senders k).seqs).take 64, (s.advance t).sec2020, b.senderRotation⟩) ∧
  (∀ (s : State) (t : Nat) (x : Ticketed) (f : Frame) (b : RelayBundle) (peer : Option (Fin 2 × Fin 32)) (k : Nat),
    s.pipeOff = false → s.ing.splitter = [x] → x.body = .frame f → f.faults.any parityLost = false → f.body = .bundle b peer →
    bundleFormatOk b = true → s.findSender b.senderId.toNat = some k → s.bundleVerifies b k = true →
    b.seq ∈ (Table.get SenderState.fresh s.ing.senders k).seqs →
    ∃ u, exec (.bundleSplit t) s = .next u ∧ u.ing = { s.ing with splitter := [] }) ∧
  (∀ (s : State) (t : Nat) (x : Ticketed) (f : Frame) (b : RelayBundle) (peer : Option (Fin 2 × Fin 32)),
    s.pipeOff = false → s.ing.splitter = [x] → x.body = .frame f → f.body = .bundle b peer →
    (f.faults.any parityLost = true ∨ bundleFormatOk b = false) →
    ∃ u, exec (.bundleSplit t) s = .next u ∧ u.ing = { s.ing with splitter := [] }) ∧
  (∀ (s : State) (t f : Nat) (boundary : Bool), s.ing.outFirst = some f → s.ing.outEntries ≠ [] →
    (boundary = true ∨ f + s.item iBundleHold * ticksPerMs ≤ max s.now t) →
    ∃ u, exec (.bundleClose boundary t) s = .next u ∧ u.ing.outEntries = [] ∧ u.ing.outBytes = 0 ∧ u.ing.outFirst = none ∧
      u.ing.outSeq = (s.ing.outSeq + 1) % 2 ^ 32)

/-- CONTEXT_FILL (R113 to R115): a fill that ends well leaves the context cached and the table as it was; an uncorrectable error or a CTX_CRC failure
makes the context LOST.

FIRMWARE_RECORD_BUILD and MIRROR_RECORD (R126, R127, R138): firmware takes the oldest entry of its ring, and a record that it builds returns
through source 10 once it holds the credits; a mirrored record whose RCK verifies goes to VAL, and one whose RCK fails or that is lost to parity
does not. -/
def Obligations.FillsAndBuiltRecordsEnd : Prop :=
  (∀ (s : State) (lane : Fin 4) (ecc : EccOutcome) (t i w : Nat) (rest : List Nat), s.pipeOff = false → ecc ≠ .uncorrectable →
    s.laneFills lane.val = i :: rest → i % 4 = lane.val →
    (s.ctxAt i).crcOk = true → s.keysUnwrap (s.ctxAt i) = true → (s.cacheSet i).find (cacheTag i) = some w →
    ∃ u, exec (.contextFill lane ecc t) s = .next u ∧ u.laneFills lane.val = rest ∧ u.cached i = true ∧ u.ctx = s.ctx) ∧
  (∀ (s : State) (lane : Fin 4) (ecc : EccOutcome) (t i : Nat) (rest : List Nat), s.pipeOff = false →
    s.laneFills lane.val = i :: rest → (ecc = .uncorrectable ∨ (s.ctxAt i).crcOk = false) →
    ∃ u, exec (.contextFill lane ecc t) s = .next u ∧ (u.ctxAt i).state = .lost) ∧
  (∀ (s : State) (verified : Bool) (status : Option CampStatus) (t : Nat) (e : FwEntry) (rest : List FwEntry),
    s.ing.fwRing = e :: rest → e.frame.txnTag = 0xFFFF#16 →
    ∃ u, exec (.firmwareRecordBuild verified none status t) s = .next u ∧ u.ing.fwRing = rest ∧ u.val = s.val) ∧
  (∀ (s : State) (verified : Bool) (p : Parsed) (status : Option CampStatus) (t : Nat) (e : FwEntry) (rest : List FwEntry),
    s.ing.fwRing = e :: rest → e.frame.txnTag = 0xFFFF#16 → e.fck = crc32c e.stored → 3 ≤ e.reason →
    s.frameFits (builtFrame e (s.builtOf e p)) = true → 10 < s.ing.fifos.length →
    ∃ u, exec (.firmwareRecordBuild verified (some p) status t) s = .next u ∧ u.ing.fwRing = rest ∧
      u.fifo 10 = s.fifo 10 ++ [⟨s.ing.ticket, fifoData (frameData (builtFrame e (s.builtOf e p))), .frame (builtFrame e (s.builtOf e p))⟩]) ∧
  (∀ (s : State) (verified : Bool) (p : Parsed) (status : Option CampStatus) (t : Nat) (e : FwEntry) (rest : List FwEntry),
    s.ing.fwRing = e :: rest → e.fck = crc32c e.stored → 3 ≤ e.reason → s.frameFits (builtFrame e (s.builtOf e p)) = false →
    ∃ u, exec (.firmwareRecordBuild verified (some p) status t) s = .next u ∧ u.ing = s.ing) ∧
  (∀ (s : State) (lane : Fin 4) (t i : Nat) (x : LaneItem) (f : Frame) (r : Record),
    lane.val < s.val.queue.length → s.pipeOff = false → s.valRoom lane.val = true →
    s.readyIn LaneBody.isMirror (s.lane lane.val) [] = some x →
    x.item.body = .frame f → f.faults.any parityLost = false → f.body = .mirror r → x.index = some i → recordOk r = true →
    ∃ u, exec (.mirrorRecord lane t) s = .next u ∧ u.val.queue.getD lane.val [] = [⟨i, r.cycle, r.rxFlags.getLsbD rxSynth, r, true, some r, none⟩] ∧
      u.lane lane.val = (s.lane lane.val).erase x) ∧
  (∀ (s : State) (lane : Fin 4) (t i : Nat) (x : LaneItem) (f : Frame) (r : Record),
    s.pipeOff = false → s.valRoom lane.val = true → s.readyIn LaneBody.isMirror (s.lane lane.val) [] = some x →
    x.item.body = .frame f → f.body = .mirror r → x.index = some i → (recordOk r = false ∨ f.faults.any parityLost = true) →
    ∃ u, exec (.mirrorRecord lane t) s = .next u ∧ u.val = s.val)

/-- LANE_PROCESSING (R120, R121): a frame whose tag verifies and whose counter advances gives its record to VAL and its counter to the context; a
repeated or replayed counter, another system title and a tag that fails change nothing in the context table and give VAL nothing. -/
def Obligations.CountersAdvanceOnlyWithVerifiedFrames : Prop :=
  (∀ (s : State) (lane : Fin 4) (badRead : Bool) (t i : Nat) (x : LaneItem) (f : Frame) (h a c plain : List Byte) (p : Parsed),
    lane.val < s.val.queue.length → s.pipeOff = false → s.valRoom lane.val = true →
    s.readyIn LaneBody.isFrame (s.lane lane.val) [] = some x → x.item.body = .frame f → f.body = .apdu h a c → x.index = some i →
    (x.waiting = true ∨ (s.cached i = true ∧ badRead = false ∧ f.faults.any parityLost = false ∧ fcsHolds f = true)) →
    f.txnTag = 0xFFFF#16 → f.fckOk = true → (s.ctxAt i).state = .active →
    outerOk (s.groupByte (s.ctxAt i).group 1) (outerOf a).layer = true → (outerOf a).malformed = false → (outerOf a).sc = 0x30#8 →
    (BitVec.ofNat 8 (s.groupByte (s.ctxAt i).group 2)).getLsbD 0 = true →
    ((outerOf a).layer = .generalGlo → (outerOf a).title = titleBytes (s.ctxAt i).title) →
    (s.ctxAt i).rxIc.toNat < (outerOf a).ic.toNat → s.openApdu (s.ctxAt i) (outerOf a) = some plain →
    s.parseInner (s.ctxAt i).group ((outerOf a).inner plain) = .record p →
    ∃ u, exec (.laneProcessing lane badRead t) s = .next u ∧ (u.ctxAt i).rxIc = (outerOf a).ic ∧
      (u.ctxAt i).window = (acceptIc (s.ctxAt i).rxIc (s.ctxAt i).window (outerOf a).ic .advance).2 ∧
      u.val.queue.getD lane.val [] =
        [⟨i, f.rxCycle, f.synth, buildRecord (s.ctxAt i).gmn p (frameLink f) false false false false, false, none, none⟩]) ∧
  (∀ (s : State) (lane : Fin 4) (badRead : Bool) (t i : Nat) (x : LaneItem) (f : Frame) (h a c : List Byte),
    s.pipeOff = false → s.valRoom lane.val = true → s.readyIn LaneBody.isFrame (s.lane lane.val) [] = some x →
    x.item.body = .frame f → f.body = .apdu h a c → x.index = some i →
    (x.waiting = true ∨ (s.cached i = true ∧ badRead = false)) → (s.ctxAt i).state = .active →
    outerOk (s.groupByte (s.ctxAt i).group 1) (outerOf a).layer = true → (outerOf a).malformed = false → (outerOf a).sc = 0x30#8 →
    (BitVec.ofNat 8 (s.groupByte (s.ctxAt i).group 2)).getLsbD 0 = true →
    (judgeIc (s.ctxAt i).rxIc (s.ctxAt i).window (s.groupByte (s.ctxAt i).group 3) (outerOf a).ic = .replayed ∨
      judgeIc (s.ctxAt i).rxIc (s.ctxAt i).window (s.groupByte (s.ctxAt i).group 3) (outerOf a).ic = .repeated ∨
      ((outerOf a).layer = .generalGlo ∧ (outerOf a).title ≠ titleBytes (s.ctxAt i).title) ∨
      s.openApdu (s.ctxAt i) (outerOf a) = none) →
    ∃ u, exec (.laneProcessing lane badRead t) s = .next u ∧ u.ctx = s.ctx ∧ u.val = s.val)

/-- CONTEXT_OPERATION and CONTEXT_RESTORE (R116, R118, R190): a counter reset and a freeze take effect in the context at their turn; the restore at
start opens the credits. -/
def Obligations.ContextsAreOperatedOn : Prop :=
  (∀ (s : State) (lane : Fin 4) (t i : Nat) (x : LaneItem) (g : Gmn) (rx tx : BitVec 32) (m : Bool) (l : Fin 4),
    s.pipeOff = false → s.valEmpty lane.val = true → (m = true ∨ 16384 ≤ i ∨ s.mirrorAwaited = false) →
    s.readyIn LaneBody.isOp (s.lane lane.val) [] = some x → x.item.body = .op (.job (.counterReset g rx tx) none m) l → x.index = some i →
    (s.ctxAt i).state ≠ .empty →
    ∃ u, exec (.contextOperation lane t) s = .next u ∧ u.ctxAt i = { s.ctxAt i with rxIc := rx, txIc := tx } ∧
      u.lane lane.val = (s.lane lane.val).erase x) ∧
  (∀ (s : State) (lane : Fin 4) (t i : Nat) (x : LaneItem) (l : Fin 4),
    s.pipeOff = false → s.readyIn LaneBody.isOp (s.lane lane.val) [] = some x → x.item.body = .op (.freeze i true) l → x.index = some i →
    (s.ctxAt i).state = .active →
    ∃ u, exec (.contextOperation lane t) s = .next u ∧ u.ctxAt i = { s.ctxAt i with state := .frozen }) ∧
  (∀ (s : State) (t : Nat), s.ful.rebuilding = false → s.ing.restoring = true →
    ∃ u, exec (.contextRestore t) s = .next u ∧ u.ing = { s.ing with restoring := false, creditsOpen := true } ∧
      u.txn.reseedPending = false)

/-- VALIDATE and RECORD_RELEASE (R151, R161, R162, R165): a record that the rules judge is held with its verdict, and the meter's validation state
stands until its release; a duplicate and a bad RCK are dropped; a record that downstream refuses stays held. -/
def Obligations.RecordsAreJudgedThenReleased : Prop :=
  (∀ (s : State) (lane : Fin 4) (t : Nat) (v : ValItem) (rest : List ValItem) (j : Judgement),
    lane.val < s.val.held.length → s.valHeld lane.val = none → s.val.queue.getD lane.val [] = v :: rest →
    s.pipeOff = false → 1 ≤ v.record.typ.toNat → v.record.typ.toNat ≤ 4 → recordOk v.record = true →
    s.judge (s.ctxAt v.index).val v.record = some j →
    ∃ u, exec (.validate lane t) s = .next u ∧
      u.valHeld lane.val = some ⟨{ v with record := j.record }, j.deltas, j.estimate, j.estDeltas, j.state, none⟩ ∧ u.ctx = s.ctx) ∧
  (∀ (s : State) (lane : Fin 4) (t : Nat) (v : ValItem) (rest : List ValItem),
    s.pipeOff = false → s.valHeld lane.val = none → s.val.queue.getD lane.val [] = v :: rest → 1 ≤ v.record.typ.toNat → v.record.typ.toNat ≤ 4 →
    (s.judge (s.ctxAt v.index).val v.record = none ∨ recordOk v.record = false) →
    ∃ u, exec (.validate lane t) s = .next u ∧ u.val = { s.val with queue := s.val.queue.set lane.val rest }) ∧
  (∀ (s : State) (lane : Fin 4) (t : Nat) (h : ValHeld), s.pipeOff = false → s.valHeld lane.val = some h →
    s.canRelease h = true →
    (s.ctxAt h.item.index).state ≠ .empty →
    ∃ u, exec (.recordRelease lane t) s = .next u ∧ u.valHeld lane.val = none ∧ (u.ctxAt h.item.index).val = h.state) ∧
  (∀ (s : State) (lane : Fin 4) (t : Nat) (h : ValHeld), s.pipeOff = false → s.valHeld lane.val = some h →
    s.canRelease h = false →
    ∃ u, exec (.recordRelease lane t) s = .next u ∧
      u.valHeld lane.val = some { h with refusedAt := some (h.refusedAt.getD (max s.now t)) } ∧ u.ctx = s.ctx)

/-- TROIKA_UPDATE (R171 to R190): with three units right a record of verdict 0 or 1 is applied to its slot (here without CREDIT_ACTION, which may add
a hold); a rejected record changes no slot; a slot that cannot be read freezes its meter with cause 2; three unlike images freeze the meter and
make the partition safe. -/
def Obligations.TroikaCommitsOnlyByMajority : Prop :=
  (∀ (s : State) (t id i : Nat) (r : Record) (tref : Nat) (k : Option Int) (d : List (Option Nat)),
    s.bil.restoring = false → s.bil.safe = false → s.bil.dead = false → s.bil.awaiting = [] → s.bil.units = [true, true, true] →
    s.bil.sitOut = none → nextItem s.bil.undecided [] s.bil.queue = some (.record id i r tref k d) → r.verdict.toNat < 2 →
    settled [] (s.bil.queue.erase (.record id i r tref k d)) = [] →
    (s.slotAt i).frozen = false → (s.slotAt i).crcOk = true → s.item iCreditAction = 0 →
    ∃ u, exec (.troikaUpdate false (.image 0) (.image 0) (.image 0) t) s = .next u ∧
      u.bil.slots = Table.set LegalSlot.fresh s.bil.slots i
        { creditFlags s.creditEnv (s.tariffsOf i) (s.slotAt i)
            (applyRecord s.billEnv (s.tariffsOf i) (s.slotAt i) r.gmn r tref k d).slot with crcOk := true } ∧
      u.bil.queue = s.bil.queue.erase (.record id i r tref k d)) ∧
  (∀ (s : State) (t id i : Nat) (r : Record) (tref : Nat) (k : Option Int) (d : List (Option Nat)) (fails : Bool) (a b c : UnitAnswer),
    s.bil.restoring = false → s.bil.safe = false → s.bil.dead = false → s.bil.awaiting = [] →
    nextItem s.bil.undecided [] s.bil.queue = some (.record id i r tref k d) → r.verdict = 2#3 →
    settled [] (s.bil.queue.erase (.record id i r tref k d)) = [] →
    ∃ u, exec (.troikaUpdate fails a b c t) s = .next u ∧ u.bil = { s.bil with queue := s.bil.queue.erase (.record id i r tref k d) }) ∧
  (∀ (s : State) (t id i : Nat) (r : Record) (tref : Nat) (k : Option Int) (d : List (Option Nat)) (a b c : UnitAnswer),
    s.bil.restoring = false → s.bil.safe = false → s.bil.dead = false → s.bil.awaiting = [] →
    nextItem s.bil.undecided [] s.bil.queue = some (.record id i r tref k d) → r.verdict.toNat < 2 → (s.slotAt i).frozen = false →
    ∃ u, exec (.troikaUpdate true a b c t) s = .next u ∧ (u.slotAt i).frozen = true ∧ (u.slotAt i).freezeCause = 2 ∧
      (u.slotAt i).freezeSeq = r.readSeq ∧ (u.slotAt i).total = (s.slotAt i).total ∧ u.bil.safe = false) ∧
  (∀ (s : State) (t id i a b c : Nat) (r : Record) (tref : Nat) (k : Option Int) (d : List (Option Nat)),
    s.bil.restoring = false → s.bil.safe = false → s.bil.dead = false → s.bil.awaiting = [] → s.bil.units = [true, true, true] →
    s.bil.sitOut = none → nextItem s.bil.undecided [] s.bil.queue = some (.record id i r tref k d) → r.verdict.toNat < 2 →
    (s.slotAt i).frozen = false → (s.slotAt i).crcOk = true → a ≠ b → a ≠ c → b ≠ c →
    ∃ u, exec (.troikaUpdate false (.image a) (.image b) (.image c) t) s = .next u ∧ (u.slotAt i).frozen = true ∧
      (u.slotAt i).freezeCause = 1 ∧ (u.slotAt i).total = (s.slotAt i).total ∧ u.bil.safe = true)

/-- VOTE_TIMEOUT and SAFE_STATE_TESTS_DONE (R188 to R190): the last silent unit of an update not committed leaves no majority once 20 000 SYS cycles
have passed since its start; a unit silent on a committed update is outvoted and sits out the next; tests that all pass end the safe state, and
tests that all fail make it last until reset.

DISPLAY_FRAME (R198): each frame of 32 bytes carries the next sequence and its CRC; a valid return of the last frame clears DISPLAY_FAULT, and the
third frame in a row without one sets it. -/
def Obligations.FailedUnitsLeaveTheVoteAndDisplayIsChecked : Prop :=
  (∀ (s : State) (unit : Fin 3) (t i : Nat) (w : VoteWait), s.bil.awaiting = [w] → w.silent = [unit.val] → w.committed = false →
    w.since + s.voteTicks ≤ (s.advance t).now → w.item.index = some i →
    ∃ u, exec (.voteTimeout unit t) s = .next u ∧ u.bil.safe = true ∧ u.bil.awaiting = []) ∧
  (∀ (s : State) (unit : Fin 3) (t : Nat) (w : VoteWait), s.bil.awaiting = [w] → w.silent = [unit.val] → w.committed = true →
    w.since + s.voteTicks ≤ (s.advance t).now →
    ∃ u, exec (.voteTimeout unit t) s = .next u ∧ u.bil.sitOut = some unit.val ∧ u.bil.awaiting = [] ∧ u.bil.slots = s.bil.slots) ∧
  (∀ (s : State) (unit : Fin 3) (t : Nat) (w : VoteWait), s.bil.awaiting = [w] → (s.advance t).now < w.since + s.voteTicks →
    exec (.voteTimeout unit t) s = .next (s.advance t)) ∧
  (∀ (s : State) (t : Nat), s.bil.safe = true → s.bil.dead = false →
    ∃ u, exec (.safeStateTestsDone true true true t) s = .next u ∧ u.bil = { s.bil with safe := false }) ∧
  (∀ (s : State) (t : Nat), s.bil.safe = true → s.bil.dead = false → s.bil.units = [true, true, true] →
    ∃ u, exec (.safeStateTestsDone false false false t) s = .next u ∧ u.bil.safe = true ∧ u.bil.dead = true ∧
      u.bil.units = [false, false, false]) ∧
  (∀ (s : State) (shownSeq : Byte) (t : Nat), s.lgc.running = true → shownSeq.toNat = s.lgc.displaySeq →
    ∃ u, exec (.displayFrame 0xA5#8 shownSeq true t) s = .next u ∧ u.lgc.displaySeq = (s.lgc.displaySeq + 1) % 256 ∧
      u.lgc.misses = 0 ∧ u.lgc.fault = false ∧ u.lgc.watchdogAt = none ∧
      ∃ e, u.out = .display ((s.advance t).displayBytes ((s.lgc.displaySeq + 1) % 256) e) :: (s.advance t).out) ∧
  (∀ (s : State) (sync shownSeq : Byte) (t : Nat), s.lgc.running = true → s.lgc.misses = 2 →
    ∃ u, exec (.displayFrame sync shownSeq false t) s = .next u ∧ u.lgc.displaySeq = (s.lgc.displaySeq + 1) % 256 ∧
      u.lgc.misses = 3 ∧ u.lgc.fault = true) ∧
  (∀ (s : State) (seq : Nat) (e : DisplayEntry),
    (s.displayBytes seq e).take 2 = [0x5A#8, BitVec.ofNat 8 seq] ∧
    (s.displayBytes seq e).drop ((s.displayBytes seq e).length - 4) =
      leBytes 4 (crc32c ((s.displayBytes seq e).take ((s.displayBytes seq e).length - 4))).toNat)

/-- FORCED_CLOSURE, FRIENDLY_PERIOD_END and SUPPLY_CONFIRMATION in the field role, whose node sequences its own meters (R55, R182, R186, R187, R234):
each posts its operation into Troika's line.

FEEDER_DELTAS and TROIKA_REBUILD (R193 to R195): what MET has measured of its samples goes to the feeder register set at the rate in force in
whole 0.1 Wh, the parts of a unit stay with MET, and all of it does while Troika accepts nothing; a rebuild from a checkpoint with nothing stored
after it takes the checkpoint. -/
def Obligations.LegalOperationsArePosted : Prop :=
  (∀ (s : State) (slot : Fin 16) (t p : Nat), s.boot.headEnd = false →
    lastPeriodEnd s.tim.utcOffset (s.tariffSlot slot.val) (((s.advance t).cycleTime : Int) - s.item iCloseGrace) = some p →
    ∃ u, exec (.forcedClosure slot t) s = .next u ∧ u.bil.slots = s.bil.slots ∧
      ∀ e, e ∈ s.ctx → e.2.group = slot.val → e.2.state = .active → (s.slotAt e.1).lastClose < p →
        TroikaItem.legal e.1 (.forcedClosure p) none false ∈ u.bil.queue) ∧
  (∀ (s : State) (t i : Nat) (v : LegalSlot), s.boot.headEnd = false → s.bil.slots = [(i, v)] → v.deferred = true →
    (s.advance t).friendlyAt i (s.advance t).sec2020 = false → s.disconnectQueued i = false → s.bal.heldDisconnects = [] →
    ∃ u, exec (.friendlyPeriodEnd t) s = .next u ∧ u.bil = { s.bil with queue := s.bil.queue ++ [.legal i (.disconnect true) none false] }) ∧
  (∀ (s : State) (t i : Nat) (v : LegalSlot), s.bil.slots = [(i, v)] → s.bal.heldDisconnects = [] →
    (v.deferred = false ∨ (s.advance t).friendlyAt i (s.advance t).sec2020 = true) →
    exec (.friendlyPeriodEnd t) s = .next (s.advance t)) ∧
  (∀ (s : State) (gmn : Gmn) (positive : Bool) (t i : Nat), s.boot.headEnd = false → s.heldIndex gmn = some i →
    ∃ u, exec (.supplyConfirmation gmn positive t) s = .next u ∧
      u.bil = { s.bil with queue := s.bil.queue ++ [.legal i (.confirm positive) none false] }) ∧
  (∀ (s : State) (m : MetCycle) (t : Nat), s.bil.restoring = false → s.bil.safe = false →
    ∃ u, exec (.feederDeltas [m] t) s = .next u ∧
      u.met.unhanded = (addLists 4 s.met.unhanded (sampleParts ((s.advance t).measureCycle m))).map (fun e => e % metEnergyUnit) ∧
      u.met.since = addSample s.met.since ((s.advance t).measureCycle m) ∧
      u.bil.feeder.total = (addEnergy s.bil.feeder s.met.rate
        ((addLists 4 s.met.unhanded (sampleParts ((s.advance t).measureCycle m))).map (fun e => e / metEnergyUnit))).total ∧
      u.bil.feeder.rate = (addEnergy s.bil.feeder s.met.rate
        ((addLists 4 s.met.unhanded (sampleParts ((s.advance t).measureCycle m))).map (fun e => e / metEnergyUnit))).rate ∧
      u.bil.slots = s.bil.slots) ∧
  (∀ (s : State) (m : MetCycle) (t : Nat), s.bil.safe = true →
    ∃ u, exec (.feederDeltas [m] t) s = .next u ∧
      u.met.unhanded = addLists 4 s.met.unhanded (sampleParts ((s.advance t).measureCycle m)) ∧ u.bil = s.bil) ∧
  (∀ (s : State) (c : MetCycle) (p : Nat),
    (s.measurePhase c p).energy.getD 0 0 =
      (dotInt (s.metGained c p) (s.metCurrent c p) * (s.item iMetVtRatio * 5 * s.item iMetCtPrimary : Nat)).toNat ∧
    (s.measurePhase c p).energy.getD 1 0 =
      (-(dotInt (s.metGained c p) (s.metCurrent c p) * (s.item iMetVtRatio * 5 * s.item iMetCtPrimary : Nat))).toNat) ∧
  (∀ (s : State) (votes : List (List UnitAnswer)) (t : Nat) (c : LegalCheckpoint), s.bil.restoring = true → s.ful.rebuilding = false →
    s.ing.restoring = false → s.bil.safe = false → s.bil.rebuildAt = none →
    s.ful.legalCheckpoint = some c → (s.ful.entries.filter fun e => decide (c.readPos ≤ e.1)) = [] →
    ∃ u, exec (.troikaRebuild votes t) s = .next u ∧ u.bil.slots = c.slots ∧ u.bil.feeder = c.feeder ∧ u.bil.tariffs = c.tariffs ∧
      u.bil.restoring = false ∧ u.bil.safe = false)

/-- BAL_RECORD (R207, R209): BAL takes the front of its queue; a rejected record gives no share; a record of the feeder's close adds its net energy to
the accumulator of its phase in group 0.

CHANNEL_ESTIMATE and COMPONENT_LAPSE (R223, R228, R231): an estimate that no record on its way will take is tracked, and a member's first one on a
phase begins its signature; a recomputed score is the sum of its components, at most 1 000, and flags whose hold has run out are cleared. -/
def Obligations.BalanceTakesRecordsAndEstimates : Prop :=
  (∀ (s : State) (t i tref : Nat) (r : Record) (rx : BitVec 48) (k : Option Int) (d : List (Option Nat)) (rot : Bool) (rest : List BalItem),
    s.pipeOff = false → s.bal.queue = .record i r rx tref k d rot :: rest → r.verdict = 2#3 → r.meterFlags.toNat % 32 = 0 →
    ∃ u, exec (.balRecord t) s = .next u ∧ u.bal = { s.bal with queue := rest } ∧ u.ctx = s.ctx) ∧
  (∀ (s : State) (t i tref : Nat) (r : Record) (rx : BitVec 48) (k : Option Int) (d : List (Option Nat)) (rot : Bool) (rest : List BalItem),
    s.pipeOff = false → s.bal.queue = .record i r rx tref k d rot :: rest → r.verdict = 2#3 → r.meterFlags.toNat % 32 ≠ 0 →
    ∃ u, exec (.balRecord t) s = .next u ∧ u.bal = { s.bal with queue := rest } ∧
      (u.ctxAt i).bal = { (s.ctxAt i).bal with
        flagsSeen := (BitVec.ofNat 8 (s.ctxAt i).bal.flagsSeen ||| BitVec.ofNat 8 (r.meterFlags.toNat % 32)).toNat, flagsTime := tref }) ∧
  (∀ (s : State) (t : Nat) (f : FeederRecord) (rest : List BalItem), s.pipeOff = false → s.bal.queue = .feeder f none :: rest →
    (s.balGroupItem 0).feed = 1 → s.computes 0 = true → f.snapshot = false →
    ∃ u, exec (.balRecord t) s = .next u ∧ u.bal.queue = rest ∧
      (u.balGroup 0).accumE = (s.balGroup 0).accumE.set (f.phase - 1) ((s.balGroup 0).accumE.getD (f.phase - 1) 0 + feederNet f) ∧
      (u.balGroup 0).accumI = (s.balGroup 0).accumI.set (f.phase - 1) ((s.balGroup 0).accumI.getD (f.phase - 1) 0 + f.i2t)) ∧
  (∀ (s : State) (t i : Nat) (e : ChannelEst) (rest : List ChannelEst), s.pipeOff = false → s.plc.estimates = e :: rest →
    s.heldIndex e.gmn = some i → (s.advance t).recordComing i e = false →
    (s.ctxAt i).bal.member = true → s.computes (s.ctxAt i).bal.group = true → (s.signature i e.phase).frames = 0 →
    (s.signature i e.phase).valid = false →
    ∃ u, exec (.channelEstimate t) s = .next u ∧ u.plc.estimates = rest ∧ (u.signature i e.phase).mean = e.att ∧
      (u.signature i e.phase).snr = e.snr ∧ (u.signature i e.phase).frames = 1 ∧ u.ctx = s.ctx) ∧
  (∀ (s : State) (gmn : Gmn) (t i : Nat), s.heldIndex gmn = some i → (s.ctxAt i).bal.member = true →
    ∃ u, exec (.componentLapse gmn t) s = .next u ∧
      (u.ctxAt i).bal.score = min 1000 ((u.ctxAt i).bal.components.foldl (fun a x => a + x) 0) ∧
      (u.ctxAt i).bal.above = decide (s.item iScoreReport ≤ (u.ctxAt i).bal.score) ∧
      ((s.advance t).holds (s.ctxAt i).bal.flagsTime = false → (u.ctxAt i).bal.flagsSeen = 0))

/-- INTERVAL_RESULT, SNAPSHOT_COLLECT_READ and SNAPSHOT_RESULT (R210, R217, R218): a due interval is issued; half of SNAP_COLLECT after C_t a named
meter that has not latched is read; a snapshot that is complete or out of time ends and becomes the group's base. -/
def Obligations.GroupResultsAreIssued : Prop :=
  (∀ (s : State) (g : Fin 256) (t : Nat) (k : Int), s.pipeOff = false → s.computes g.val = true →
    (s.advance t).dueInterval g.val = some k →
    ∃ u, exec (.intervalResult g t) s = .next u ∧ (u.balGroup g.val).issued = some k ∧ u.bal.snapshots = s.bal.snapshots) ∧
  (∀ (s : State) (t c : Nat) (x : Snapshot), s.pipeOff = false → s.bal.snapshots = [x] → x.asked = false → x.stamp = some c →
    c + s.item iSnapCollect / 2 ≤ (s.advance t).cycleTime → x.unlatched = [] →
    ∃ u, exec (.snapshotCollectRead t) s = .next u ∧ u.bal.snapshots = [{ x with asked := true }] ∧ u.txn = s.txn) ∧
  (∀ (s : State) (t c i : Nat) (x : Snapshot), s.pipeOff = false → s.bal.snapshots = [x] → x.asked = false → x.stamp = some c →
    x.unlatched = [i] → c + s.item iSnapCollect / 2 ≤ (s.advance t).cycleTime →
    ∃ u, exec (.snapshotCollectRead t) s = .next u ∧ u.bal.snapshots = [{ x with asked := true }] ∧
      u = (({ s.advance t with bal := { s.bal with snapshots := [{ x with asked := true }] } } : State).pushRequest
        ⟨(s.ctxAt i).gmn, .read 0, 0, (s.advance t).cyc.num, true, none, none, none, .none, none, none⟩).topUpIssues) ∧
  (∀ (s : State) (t c : Nat) (x : Snapshot), s.pipeOff = false → s.bal.snapshots = [x] → x.stamp = some c →
    s.computes x.group = true → (x.unlatched = [] ∨ c + s.item iSnapCollect ≤ (s.advance t).cycleTime) →
    ∃ u, exec (.snapshotResult t) s = .next u ∧ u.bal.snapshots = [] ∧
      (u.balGroup x.group).base = some ⟨x.snapId, x.target, c, x.latch (s.balGroupItem x.group).feed, x.latched.map SnapLatch.index⟩) ∧
  (∀ (s : State) (t c : Nat) (x : Snapshot), s.pipeOff = false → s.bal.snapshots = [x] → x.stamp = some c →
    s.computes x.group = false → (x.unlatched = [] ∨ c + s.item iSnapCollect ≤ (s.advance t).cycleTime) →
    ∃ u, exec (.snapshotResult t) s = .next u ∧ u.bal.snapshots = [])

/-- PREAMBLE_DETECTION and COPY_RECEIVED (R243, R246 to R249, R260): a chain that is not muted and inside no frame enters one for the airtime that its
header announces; a copy whose FCS, address and TYPE pass opens a reception until its combine window closes; a copy whose FCS fails opens none.

COMBINE_WINDOW_CLOSE and TOLLBOOK_EXPIRY (R260, R261, R288, R289): the reception whose window has closed is finished; what Tollbook holds is not
delivered again; entries whose life has ended leave both Tollbooks, and no others. -/
def Obligations.PlcCopiesAreReceived : Prop :=
  (∀ (s : State) (n : Fin 3) (first t : Nat) (air : Option Nat), s.plcLive = true → (s.advance t).inFrame n.val = false →
    (s.advance t).plcMuted n.val = false → n.val < s.plc.chains.length →
    ∃ u, exec (.preambleDetection n first air t) s = .next u ∧
      u.chain n.val = { s.chain n.val with rx := some ⟨first + air.getD (Config.plcLongest (s.item iPlcBand)), air.isSome,
        Config.plcGain n.val (max s.now t), (s.advance t).sinceZero first⟩ } ∧ u.plc.txUntil = s.plc.txUntil) ∧
  (∀ (s : State) (n : Fin 3) (first t : Nat) (air : Option Nat), s.plcLive = true → (s.advance t).plcMuted n.val = true →
    ∃ u, exec (.preambleDetection n first air t) s = .next u ∧ u.plc = s.plc) ∧
  (∀ (s : State) (n : Fin 3) (c : PlcCopy) (f : PlcFrame) (r : PlcRx) (t : Nat), s.plcLive = true → (s.chain n.val).rx = some r →
    r.header = true → r.ends ≤ max s.now t → plcFcsOk c.bytes = true → fieldAt c.bytes 0 1 % 16 ≠ 1 → plcParse c.bytes = some f →
    s.plcForUs f = true → f.typ < 8 → s.plc.receptions = [] →
    ∃ u, exec (.copyReceived n c t) s = .next u ∧ (u.chain n.val).rx = none ∧
      u.plc.receptions = [⟨[⟨n.val, c, f, s.damaged c, r.sinceZero, (s.advance t).rxStamp, max s.now t⟩], max s.now t,
        max s.now t + ticksOfUs (s.item iPlcCombineWindow)⟩]) ∧
  (∀ (s : State) (n : Fin 3) (c : PlcCopy) (r : PlcRx) (t : Nat), s.plcLive = true → (s.chain n.val).rx = some r → r.header = true →
    r.ends ≤ max s.now t → plcFcsOk c.bytes = false →
    ∃ u, exec (.copyReceived n c t) s = .next u ∧ (u.chain n.val).rx = none ∧ u.plc.receptions = s.plc.receptions ∧ u.plc.tx = s.plc.tx) ∧
  (∀ (s : State) (t : Nat) (r : PlcReception) (rest : List PlcReception), s.plc.receptions = r :: rest → r.closes ≤ max s.now t →
    ∃ u, exec (.combineWindowClose false t) s = .next u ∧ u.plc.receptions = rest ∧ u.rfm = s.rfm) ∧
  (∀ (s : State) (t : Nat) (r : PlcReception) (rest : List PlcReception) (h : PlcHeard), s.plc.receptions = r :: rest →
    r.closes ≤ max s.now t → bestCopy r.copies = some h →
    tolled s.plc.tollbook h.frame.netId h.frame.src h.frame.seq h.frame.epoch (max s.now t) = true →
    ∃ u, exec (.combineWindowClose false t) s = .next u ∧ u.ing = s.ing ∧ u.ctx = s.ctx ∧ u.plc.tollbook = s.plc.tollbook) ∧
  (∀ (s : State) (t : Nat) (r : MeshReception) (rest : List MeshReception), s.rfm.receptions = r :: rest → r.closes ≤ max s.now t →
    ∃ u, exec (.combineWindowClose true t) s = .next u ∧ u.rfm.receptions = rest ∧ u.plc.receptions = s.plc.receptions) ∧
  (∀ (s : State) (t : Nat), ∃ u, exec (.tollbookExpiry t) s = .next u ∧
    (∀ e, e ∈ u.plc.tollbook ↔ e ∈ s.plc.tollbook ∧ max s.now t < e.ends) ∧
    (∀ e, e ∈ u.rfm.tollbook ↔ e ∈ s.rfm.tollbook ∧ max s.now t < e.ends))

/-- ACK_TRANSMIT, ACK and ACK_WAIT_EXPIRY (R245, R252, R258): an ACK that is due is sent on its phases at its instant, its bytes those of Table 8.6;
an awaited ACK ends its frame and clears FAILS; a frame that gets none within its wait is tried again while PLC_RETRIES allow, and then given up.

CSMA_BACKOFF_END, DISC_WINDOW_EXPIRY and BEACON_LAUNCH (R97, R242, R250, R256, R258, R263, R266): a unicast frame whose wait has ended and whose
chains are free is sent 50 µs later, and awaits its ACK for 2.2 ms and a robust ACK's airtime after its last sample; a chain inside a frame defers
it; the oldest discovery ends and the first that waited begins; a beacon whose cycle has been numbered is launched at its instant. -/
def Obligations.PlcFramesGoOutAndEnd : Prop :=
  (∀ (s : State) (t : Nat) (a : PlcDueAck) (rest : List PlcDueAck), s.plcLive = true → s.plc.acks = a :: rest →
    a.at_ ≤ max s.now t + plcLead → s.plc.txUntil ≤ a.at_ → s.meetsBeacon a.at_ (s.robustAirtime 12) = false →
    ∃ u, exec (.ackTransmit t) s = .next u ∧ u.plc.acks = rest ∧ u.plc.txUntil = a.at_ + s.robustAirtime 12 ∧
      u.plc.txPhases = a.phases ∧ u.plc.tx = s.plc.tx ∧
      u.out = .plcFrame ⟨a.phases, s.item iTxLevel, 0, s.allGroups, s.pdcOf a.phases a.at_, a.at_,
        plcAckBytes ((s.advance t).plcPending a.dest) a.epoch (s.item iPlcNetId) a.dest a.seq a.advMod a.advTm⟩ :: s.out) ∧
  (∀ (s : State) (n : Fin 3) (bytes : List Byte) (r : PlcRx) (t k : Nat) (x : PlcTx), s.plcLive = true → (s.chain n.val).rx = some r →
    r.header = true → r.ends ≤ max s.now t → plcFcsOk bytes = true → fieldAt bytes 0 1 % 16 = 1 →
    fieldAt bytes 1 1 / 16 = s.item iPlcNetId → fieldAt bytes 2 2 = 0xFFFE →
    (s.plc.tx.find? fun y => y.awaiting && decide (y.seq = BitVec.ofNat 16 (fieldAt bytes 4 2) ∧ s.plc.epoch = fieldAt bytes 1 1 % 16)) = some x →
    x.slot = some k → (s.ctxAt k).state ≠ .empty →
    ∃ u, exec (.ack n bytes t) s = .next u ∧ u.plc.tx = s.plc.tx.erase x ∧ (u.ctxAt k).plc.fails = 0 ∧ (u.chain n.val).rx = none) ∧
  (∀ (s : State) (t : Nat) (x : PlcTx), (s.plc.tx.find? fun y => y.awaiting) = some x → x.waitUntil ≤ max s.now t → x.dst ≠ 0xFFFF →
    x.attempt < s.item iPlcRetries →
    ∃ u, exec (.ackWaitExpiry t) s = .next u ∧
      u.plc.tx = s.plc.tx.map fun z => if z = x then
        { x with attempt := x.attempt + 1, be := s.itemField iPlcCsma 0 1, deferrals := 0,
                 readyAt := ((s.advance t).csmaWait (s.itemField iPlcCsma 0 1)).1, awaiting := false } else z) ∧
  (∀ (s : State) (t : Nat) (x : PlcTx), (s.plc.tx.find? fun y => y.awaiting) = some x → max s.now t < x.waitUntil →
    exec (.ackWaitExpiry t) s = .next (s.advance t)) ∧
  (∀ (s : State) (t : Nat) (x : PlcTx), (s.plc.tx.find? fun y => y.awaiting) = some x → x.waitUntil ≤ max s.now t →
    s.item iPlcRetries ≤ x.attempt → x.slot = none → x.work = .keepAlive →
    ∃ u, exec (.ackWaitExpiry t) s = .next u ∧ u.plc.tx = s.plc.tx.erase x) ∧
  (∀ (s : State) (air t : Nat) (x : PlcTx) (rest : List PlcTx) (bytes : List Byte), s.plcLive = true → s.plc.tx = x :: rest →
    x.awaiting = false → x.readyAt ≤ max s.now t → s.plc.acks = [] → (s.advance t).plcBusy = false →
    bytes = s.plcBytes x (s.attemptOf x).1 (s.attemptOf x).2 (max s.now t + plcLead) →
    air = Config.plcAirtime (s.item iPlcBand) (s.plcModulation x (s.attemptOf x).1).1 (s.plcModulation x (s.attemptOf x).1).2 bytes.length →
    s.meetsBeacon (max s.now t + plcLead) air = false →
    ((s.attemptOf x).2.any fun p => (s.advance t).inFrame (p - 1)) = false → x.dst ≠ 0xFFFF →
    ∃ u, exec (.csmaBackoffEnd t) s = .next u ∧ u.plc.txUntil = max s.now t + plcLead + air ∧
      u.plc.tx = s.plc.tx.map (fun z => if z = x then
        { x with used := some (s.attemptOf x).1, awaiting := true,
                 waitUntil := max s.now t + plcLead + air + ticksOfUs 2200 + s.robustAirtime 12 } else z) ∧
      u.out = .plcFrame ⟨(s.attemptOf x).2, s.item iTxLevel, (s.plcModulation x (s.attemptOf x).1).1, (s.plcModulation x (s.attemptOf x).1).2,
        s.pdcOf (s.attemptOf x).2 (max s.now t + plcLead), max s.now t + plcLead, bytes⟩ :: s.out) ∧
  (∀ (s : State) (air t : Nat) (x : PlcTx) (rest : List PlcTx) (bytes : List Byte), s.plcLive = true → s.plc.tx = x :: rest →
    x.awaiting = false → x.readyAt ≤ max s.now t → s.plc.acks = [] → (s.advance t).plcBusy = false →
    bytes = s.plcBytes x (s.attemptOf x).1 (s.attemptOf x).2 (max s.now t + plcLead) →
    air = Config.plcAirtime (s.item iPlcBand) (s.plcModulation x (s.attemptOf x).1).1 (s.plcModulation x (s.attemptOf x).1).2 bytes.length →
    s.meetsBeacon (max s.now t + plcLead) air = false →
    ((s.attemptOf x).2.any fun p => (s.advance t).inFrame (p - 1)) = true → x.deferrals + 1 < 8 →
    ∃ u, exec (.csmaBackoffEnd t) s = .next u ∧ u.out = s.out ∧
      u.plc.tx = s.plc.tx.map fun z => if z = x then
        { x with deferrals := x.deferrals + 1, be := min (x.be + 1) (s.itemField iPlcCsma 1 1),
                 readyAt := ((s.advance t).csmaWait (min (x.be + 1) (s.itemField iPlcCsma 1 1))).1 } else z) ∧
  (∀ (s : State) (t : Nat) (d : Nat × Nat) (rest : List (Nat × Nat)) (k : Nat) (ks : List Nat), s.plc.discoveries = d :: rest →
    d.2 ≤ max s.now t → s.plc.discWaiting = k :: ks → rest.length < 16 → (rest.any fun e => decide (e.1 = k)) = false → k ∉ ks →
    ∃ u, exec (.discWindowExpiry t) s = .next u ∧ u.plc.discWaiting = ks ∧
      u.plc.discoveries = rest ++ [(k, max s.now t + s.item iDiscWindow * ticksPerSec)]) ∧
  (∀ (s : State) (t a : Nat) (b : BeaconDue) (rest : List BeaconDue) (bytes : List Byte), s.plcLive = true → s.plc.beacons = b :: rest →
    b.at_ = some a → a ≤ max s.now t + plcLead →
    bytes = withCrc32 (plcHeader 2 false none false 0 s.plc.epoch (s.item iPlcNetId) (s.zcDelay (s.enables 0 true) a) 0xFFFE 0xFFFF s.plc.seq []
      ++ (s.advance t).beaconBodyOf b s.periodTicks s.plc.nextBeacon) →
    ∃ u, exec (.beaconLaunch t) s = .next u ∧ u.plc.beacons = rest ∧ u.plc.txUntil = a + s.robustAirtime bytes.length ∧
      u.out = .plcFrame ⟨s.enables 0 true, s.item iTxLevel, 0, s.allGroups, s.pdcOf (s.enables 0 true) a, a, bytes⟩ :: s.out)

/-- RF_COPY_RECEIVED and ENH_ACK_TRANSMIT (R272 to R276, R288): a copy that passes FCS, filter and addresses opens a reception; one whose FCS fails
changes nothing of the mesh; an Enh-Ack that is due is sent at its instant when nothing stands against it. -/
def Obligations.MeshCopiesAreReceived : Prop :=
  (∀ (s : State) (c : MeshCopy) (f : MeshFrame) (t : Nat), s.rfRuns c.radio.val = true →
    (s.advance t).radioMuted c.radio.val c.chan.val (s.radioTick c.start) = false → c.modeSwitch = false → c.fcsType = 0 →
    meshFcsOk c.bytes = true → fieldAt c.bytes 0 2 % 8 ≠ 2 → macKindOk c.bytes 1 = true → s.macForUs c.bytes = true →
    meshParse c.bytes = some f → s.meshForUs f = true → meshTypeOk f = true → s.rfm.receptions = [] →
    ∃ u, exec (.rfCopyReceived c t) s = .next u ∧
      u.rfm = { s.rfm with receptions := [⟨[⟨c, f, meshSnr c, (s.advance t).rxStamp⟩], max s.now t + ticksOfUs (s.item iRfCombineWindow)⟩] }) ∧
  (∀ (s : State) (c : MeshCopy) (t : Nat), s.rfRuns c.radio.val = true → meshFcsOk c.bytes = false →
    ∃ u, exec (.rfCopyReceived c t) s = .next u ∧ u.rfm = s.rfm ∧ u.ing = s.ing) ∧
  (∀ (s : State) (t : Nat) (a : EnhAckDue) (rest : List EnhAckDue) (bytes : List Byte), s.rfm.acks = a :: rest →
    a.at_ ≤ max s.now t + s.rfLead → s.rfSends a.radio = true → a.radio < s.rfm.radios.length → (s.advance t).radioBusy a.radio = false →
    bytes = withCrc32 (macHeader 2 false false a.dsn (s.item iPanId) a.dest 0xFFFD) →
    (s.advance t).meetsSlot a.radio a.at_ (s.rfAirtime a.radio bytes.length) = false →
    (s.advance t).meetsRfBeacon a.radio a.at_ (s.rfAirtime a.radio bytes.length) = false →
    (s.advance t).dutyFull a.radio = false → (s.advance t).rfPending a.dest = false →
    ∃ u, exec (.enhAckTransmit t) s = .next u ∧ u.rfm.acks = rest ∧
      (u.radioAt a.radio).spans.head? = some ⟨a.at_, s.rfAirtime a.radio bytes.length, a.chan⟩ ∧
      u.out = s.meshSent a.radio a.chan a.at_ (Config.rfPreamble (s.rfMode a.radio) (s.item iPreambleOctets)) bytes :: s.out)

/-- ENH_ACK, RF_ACK_WAIT_EXPIRY and SLOT_MISS (R275, R278, R295): an awaited Enh-Ack ends its frame and clears FAILS; without one in its wait the
frame is tried again while RF_RETRIES allow; a first miss of a slot is counted, a further one widens the guard, and one at GSTEP 3 moves the
partner to long preamble. -/
def Obligations.MeshAttemptsEnd : Prop :=
  (∀ (s : State) (n : Fin 2) (bytes : List Byte) (start t k req : Nat) (x : MeshTx), s.rfRuns n.val = true →
    (s.advance t).radioMuted n.val x.chan (s.radioTick start) = false → meshFcsOk bytes = true → macKindOk bytes 2 = true →
    s.macForUs bytes = true → (s.rfm.tx.find? fun y => y.awaiting && decide (y.radio = n.val)) = some x →
    x.dsn = fieldAt bytes 2 1 → x.dst = fieldAt bytes 7 2 → x.slot = some k → bytes.length = 13 →
    x.way = .unicast → x.pending = false → x.work = .request req → (s.ctxAt k).state ≠ .empty → (s.ctxAt k).radio.recovering = false →
    ∃ u, exec (.enhAck n bytes start t) s = .next u ∧ u.rfm.tx = s.rfm.tx.erase x ∧ (u.ctxAt k).radio.fails = 0) ∧
  (∀ (s : State) (n : Fin 2) (t : Nat) (x : MeshTx),
    (s.rfm.tx.find? fun y => y.awaiting && decide (y.radio = n.val ∧ y.way ≠ .slotted ∧ y.waitUntil ≤ max s.now t)) = some x → x.way = .unicast →
    x.attempt < s.item iRfRetries →
    ∃ u, exec (.rfAckWaitExpiry n t) s = .next u ∧
      u.rfm.tx = s.rfm.tx.map fun z => if z = x then
        { x with attempt := x.attempt + 1, be := s.itemField iRfCsma 0 1, backoffs := 0,
                 readyAt := ((s.advance t).rfWait x.radio s.rfMinBe).1, awaiting := false } else z) ∧
  (∀ (s : State) (k : Fin 16384) (t req : Nat) (x : MeshTx),
    (s.rfm.tx.find? fun y => decide (y.slot = some k.val ∧ y.way = .slotted ∧ y.waitUntil ≤ max s.now t) && y.awaiting) = some x →
    x.work = .request req → (s.ctxAt k.val).state ≠ .empty → (s.ctxAt k.val).radio.gstep ≠ 3 → (s.ctxAt k.val).radio.misses = 0 →
    ∃ u, exec (.slotMiss k t) s = .next u ∧ (u.ctxAt k.val).radio = { (s.ctxAt k.val).radio with misses := 1 }) ∧
  (∀ (s : State) (k : Fin 16384) (t req : Nat) (x : MeshTx),
    (s.rfm.tx.find? fun y => decide (y.slot = some k.val ∧ y.way = .slotted ∧ y.waitUntil ≤ max s.now t) && y.awaiting) = some x →
    x.work = .request req → (s.ctxAt k.val).state ≠ .empty → (s.ctxAt k.val).radio.gstep ≠ 3 → 1 ≤ (s.ctxAt k.val).radio.misses →
    ∃ u, exec (.slotMiss k t) s = .next u ∧ (u.ctxAt k.val).radio.gstep = (s.ctxAt k.val).radio.gstep + 1 ∧
      (u.ctxAt k.val).radio.misses = min 15 ((s.ctxAt k.val).radio.misses + 1)) ∧
  (∀ (s : State) (k : Fin 16384) (t req : Nat) (x : MeshTx),
    (s.rfm.tx.find? fun y => decide (y.slot = some k.val ∧ y.way = .slotted ∧ y.waitUntil ≤ max s.now t) && y.awaiting) = some x →
    x.work = .request req → (s.ctxAt k.val).state ≠ .empty → (s.ctxAt k.val).radio.gstep = 3 →
    ∃ u, exec (.slotMiss k t) s = .next u ∧ (u.ctxAt k.val).radio.wake = 2 ∧ (u.ctxAt k.val).radio.recovering = true)

/-- CSMA_CA_ATTEMPT, LONG_PREAMBLE_EXCHANGE and SLOT_EXCHANGE (R278, R293, R294, R296): with the channel's energy at or below CCA_DBM, no reserved
span and duty left, a request goes out and awaits its Enh-Ack; a busy channel costs a backoff, and a slot exchange that finds it busy yields to
the partner's next slot.

RF_BEACON_LAUNCH and DUTY_HOLD_RELEASE (R97, R279, R300): a beacon on CHAN_A queues its copy on CHAN_B, which queues none; each goes out at its
instant; a duty hold ends once the rolling window allows a frame. -/
def Obligations.MeshFramesGoOut : Prop :=
  (∀ (s : State) (n : Fin 2) (energy : Int) (t req : Nat) (x : MeshTx), (s.advance t).nextMesh n.val false = some x → x.way = .unicast →
    x.work = .request req → (s.advance t).windowMissed x = false → (s.advance t).windowOpen x.dst = false → x.slot = none →
    s.rfSends n.val = true → (s.advance t).rateFull = false → (s.advance t).radioBusy n.val = false →
    (s.advance t).meetsSlot n.val (max s.now t + s.rfLead) (s.meshAirtime x) = false →
    (s.advance t).meetsRfBeacon n.val (max s.now t + s.rfLead) (s.meshAirtime x) = false → (s.advance t).dutyFull n.val = false →
    s.ccaIsBusy energy = false →
    ∃ u, exec (.csmaCaAttempt n energy t) s = .next u ∧
      u.rfm.tx = s.rfm.tx.map (fun z => if z = x then
        { x with awaiting := true, pending := false,
                 waitUntil := max s.now t + s.rfLead + s.meshAirtime x + Config.rfAckWait (s.rfMode x.radio) } else z) ∧
      u.out = s.meshSent x.radio x.chan (max s.now t + s.rfLead) (s.preambleTicks x) (s.meshBytes x x.work false) :: s.out) ∧
  (∀ (s : State) (n : Fin 2) (energy : Int) (t : Nat) (x : MeshTx), (s.advance t).nextMesh n.val false = some x →
    (s.advance t).windowMissed x = false → s.rfSends n.val = true → (s.advance t).rateFull = false → (s.advance t).radioBusy n.val = false →
    (s.advance t).meetsSlot n.val ((s.advance t).meshFirst x) (s.meshAirtime x) = false →
    (s.advance t).meetsRfBeacon n.val ((s.advance t).meshFirst x) (s.meshAirtime x) = false → (s.advance t).dutyFull n.val = false →
    s.ccaIsBusy energy = true → x.backoffs < s.itemField iRfCsma 2 1 →
    ∃ u, exec (.csmaCaAttempt n energy t) s = .next u ∧
      u.rfm.tx = s.rfm.tx.map (fun z => if z = x then
        { x with backoffs := x.backoffs + 1, be := min (x.be + 1) (s.itemField iRfCsma 1 1),
                 readyAt := ((s.advance t).rfWait x.radio (min (x.be + 1) (s.itemField iRfCsma 1 1))).1 } else z) ∧ u.out = s.out) ∧
  (∀ (s : State) (n : Fin 2) (energy : Int) (t req : Nat) (x : MeshTx), (s.advance t).nextMesh n.val true = some x →
    x.work = .request req → (s.advance t).windowOpen x.dst = false →
    s.rfSends n.val = true → (s.advance t).rateFull = false → (s.advance t).radioBusy n.val = false →
    (s.advance t).meetsSlot n.val (max s.now t + s.rfLead) (s.meshAirtime x) = false →
    (s.advance t).meetsRfBeacon n.val (max s.now t + s.rfLead) (s.meshAirtime x) = false → (s.advance t).dutyFull n.val = false →
    s.ccaIsBusy energy = false →
    ∃ u, exec (.longPreambleExchange n energy t) s = .next u ∧
      u.rfm.tx = s.rfm.tx.map (fun z => if z = x then
        { x with awaiting := true, pending := false,
                 waitUntil := max s.now t + s.rfLead + s.meshAirtime x + Config.rfAckWait (s.rfMode x.radio) } else z) ∧
      u.out = s.meshSent x.radio x.chan (max s.now t + s.rfLead) ((s.item iLplInterval + 4) * ticksPerMs) (s.meshBytes x x.work false) :: s.out) ∧
  (∀ (s : State) (k : Fin 16384) (energy : Int) (t req : Nat) (x : MeshTx), s.rfm.tx = [x] → x.slot = some k.val → x.way = .slotted →
    x.readyAt ≤ max s.now t → x.awaiting = false → x.work = .request req → (s.meshBytes x x.work false).length ≤ 64 →
    s.rfSends x.radio = true → (s.advance t).rateFull = false → (s.advance t).exchangeFits k.val = true → (s.advance t).exchangeDue k.val = true →
    s.ccaIsBusy energy = false → (s.advance t).radioBusy x.radio = false →
    (s.advance t).meetsRfBeacon x.radio (s.afeOf ((s.advance t).exchangeSpan k.val).1)
      (s.afeOf ((s.advance t).exchangeSpan k.val).2 - s.afeOf ((s.advance t).exchangeSpan k.val).1) = false →
    (s.advance t).dutyFull x.radio = false →
    ∃ u, exec (.slotExchange k energy t) s = .next u ∧
      u.rfm.tx.map (fun y => (y.work, y.awaiting)) = [(x.work, true)] ∧
      u.out = s.meshSent x.radio x.chan (s.afeOf (((s.advance t).exchangeSpan k.val).1 + 200000)) (s.preambleTicks x)
        (s.meshBytes x x.work false) :: s.out) ∧
  (∀ (s : State) (k : Fin 16384) (energy : Int) (t : Nat) (x : MeshTx), s.rfm.tx = [x] → x.slot = some k.val → x.way = .slotted →
    x.readyAt ≤ max s.now t → x.awaiting = false → s.rfSends x.radio = true → (s.advance t).rateFull = false →
    (s.advance t).exchangeFits k.val = true → (s.advance t).exchangeDue k.val = true → s.ccaIsBusy energy = true →
    ∃ u, exec (.slotExchange k energy t) s = .next u ∧
      u.rfm = { s.rfm with tx := [{ x with readyAt := s.afeOf ((s.advance t).exchangeSpan k.val).2 }] } ∧ u.out = s.out) ∧
  (∀ (s : State) (n : Fin 2) (t a : Nat) (b : BeaconDue) (rest : List (BeaconDue × Nat)), n.val < s.rfm.radios.length →
    s.rfSends n.val = true → (s.radioAt n.val).beacons = (b, 0) :: rest → b.at_ = some a → a ≤ max s.now t + s.rfLead →
    (s.advance t).dutyFull n.val = false →
    ∃ u, exec (.rfBeaconLaunch n t) s = .next u ∧
      (u.radioAt n.val).beacons = rest ++ [(s.secondBeacon b (s.rfAirtime n.val ((s.advance t).rfBeaconBytes b).length), 1)] ∧
      (u.radioAt n.val).spans.head? = some ⟨a, s.rfAirtime n.val ((s.advance t).rfBeaconBytes b).length, 0⟩ ∧
      u.out = s.meshSent n.val 0 a (Config.rfPreamble (s.rfMode n.val) (s.item iPreambleOctets)) ((s.advance t).rfBeaconBytes b) :: s.out) ∧
  (∀ (s : State) (n : Fin 2) (t a : Nat) (b : BeaconDue) (rest : List (BeaconDue × Nat)), n.val < s.rfm.radios.length →
    s.rfSends n.val = true → (s.radioAt n.val).beacons = (b, 1) :: rest → b.at_ = some a → a ≤ max s.now t + s.rfLead →
    ∃ u, exec (.rfBeaconLaunch n t) s = .next u ∧ (u.radioAt n.val).beacons = rest ∧
      ((s.advance t).dutyFull n.val = true → (u.radioAt n.val).spans = (s.radioAt n.val).spans ∧ u.out = s.out)) ∧
  (∀ (s : State) (n : Fin 2) (t : Nat), n.val < s.rfm.radios.length → (s.advance t).dutyFull n.val = false →
    ∃ u, exec (.dutyHoldRelease n t) s = .next u ∧ u.radioAt n.val = { s.radioAt n.val with holding := false })

/-- ISSUE (R306, R311, R312, R314, R318): the issue task that runs on a port takes the next request: a free tag with its next generation is issued for
it, the request leaves the queue, the meter's transaction is active, and the request goes to the power line, where a power-line frame can carry
it, protected under the meter's keys with the next TX_IC; so it does on a radio's port, to the mesh.

TXN_DEADLINE, RETRY_RELEASE and QUARANTINE_END (R307, R313, R314): a deadline that passes puts the request back for a retry while TXN_RETRIES
allow, and then ends the transaction in quarantine; retries whose release cycle has been numbered are released; a tag that has rested is free and
was freed last. -/
def Obligations.TransactionsBeginAndEnd : Prop :=
  (∀ (s : State) (plain ek ak : List Byte) (t i tag : Nat) (r : Request) (o : BitVec 48), s.runningKind 12 = some 18 →
    (s.boot.headEnd = false ∨ s.hwl.assigned = true) → s.nextRequest 12 = some r → r.body = .read o →
    r.tag = none → s.freeTag = some tag → (s.nextMedium r 0).1 = .plc → s.reqIndex r = some i → (s.ctxAt i).state ≠ .forward →
    s.groupByte (s.ctxAt i).group 1 ≠ 2 → s.contextKeys (s.ctxAt i) = some (ek, ak) →
    ∃ u, exec (.issue 0 plain t) s = .next u ∧ (u.tagAt tag).gen = nextGen tag (s.tagAt tag).gen ∧ (u.ctxAt i).txIc = (s.ctxAt i).txIc + 1 ∧
      (s.plcTooLong (s.longestPath i) (protectedRequest ek ak plain (s.ctxAt i).txIc) = false →
        u.txn.pending = s.txn.pending.erase r ∧ (u.tagAt tag).state = .issued ∧ (u.tagAt tag).request = some r ∧ (u.tagAt tag).attempts = 1 ∧
        (u.ctxAt i).txn.active = tagName tag (nextGen tag (s.tagAt tag).gen) ∧
        u.plc.tx.map (fun y => (y.work, y.slot, y.apdu)) = s.plc.tx.map (fun y => (y.work, y.slot, y.apdu)) ++
          [(.request tag, some i, protectedRequest ek ak plain (s.ctxAt i).txIc)])) ∧
  (∀ (s : State) (plain ek ak : List Byte) (t i tag : Nat) (r : Request) (o : BitVec 48), s.runningKind 13 = some (issueKind 13) →
    (s.boot.headEnd = false ∨ s.hwl.assigned = true) → s.nextRequest 13 = some r → r.body = .read o →
    r.tag = none → s.freeTag = some tag → (s.nextMedium r 0).1 = .radio → s.reqIndex r = some i → (s.ctxAt i).state ≠ .forward →
    s.groupByte (s.ctxAt i).group 1 ≠ 2 → s.contextKeys (s.ctxAt i) = some (ek, ak) →
    meshTooLong (protectedRequest ek ak plain (s.ctxAt i).txIc) = false →
    ∃ u, exec (.issue 1 plain t) s = .next u ∧ u.txn.pending = s.txn.pending.erase r ∧ (u.tagAt tag).state = .issued ∧
      (u.tagAt tag).gen = nextGen tag (s.tagAt tag).gen ∧ (u.tagAt tag).request = some r ∧ (u.tagAt tag).attempts = 1 ∧
      (u.ctxAt i).txn.active = tagName tag (nextGen tag (s.tagAt tag).gen) ∧ (u.ctxAt i).txIc = (s.ctxAt i).txIc + 1 ∧
      u.rfm.tx.map (fun y => (y.work, y.slot, y.apdu, y.way)) = s.rfm.tx.map (fun y => (y.work, y.slot, y.apdu, y.way)) ++
        [(.request tag, some i, protectedRequest ek ak plain (s.ctxAt i).txIc, (s.advance t).wayTo i)]) ∧
  (∀ (s : State) (tag : Fin 1024) (t d : Nat) (r : Request), (s.tagAt tag.val).state = .issued → (s.tagAt tag.val).deadline = some d →
    d ≤ (s.advance t).ms → (s.tagAt tag.val).request = some r → (s.tagAt tag.val).attempts ≤ s.item iTxnRetries →
    ∃ u, exec (.txnDeadline tag t) s = .next u ∧ (u.tagAt tag.val).state = .retryWait ∧ (u.tagAt tag.val).deadline = none ∧
      u.txn.pending = s.txn.pending ++
        [{ r with tag := some tag.val, released := false, release := s.cyc.num + (if s.item iRetryBackoff = 0 then 1 else s.item iRetryBackoff) }]) ∧
  (∀ (s : State) (tag : Fin 1024) (t d : Nat) (r : Request), (s.tagAt tag.val).state = .issued → (s.tagAt tag.val).deadline = some d →
    d ≤ (s.advance t).ms → (s.tagAt tag.val).request = some r → s.item iTxnRetries < (s.tagAt tag.val).attempts →
    ∃ u, exec (.txnDeadline tag t) s = .next u ∧ (u.tagAt tag.val).state = .quarantine ∧ (u.tagAt tag.val).request = none ∧
      (u.tagAt tag.val).restUntil = (s.advance t).ms + s.quarantineMs (s.tagAt tag.val).medium r.body.kind) ∧
  (∀ (s : State) (t : Nat), ∃ u, exec (.retryRelease t) s = .next u ∧
    u.txn.pending = s.txn.pending.map fun r => if r.tag.isSome = true ∧ r.release ≤ s.cyc.num then { r with released := true } else r) ∧
  (∀ (s : State) (tag : Fin 1024) (t : Nat), (s.tagAt tag.val).state = .quarantine → (s.tagAt tag.val).restUntil ≤ (s.advance t).ms →
    ∃ u, exec (.quarantineEnd tag t) s = .next u ∧ u.txn.tagWait = false ∧
      u.tagAt tag.val = { Tag.fresh with gen := (s.tagAt tag.val).gen, freed := s.txn.freeCount + 1 })

/-- SCHEDULE_RUN, TASK_POST and TASK_RETIRE (R316, R317, R322, R324, R325): a schedule whose task runs queues its meter's request; a post takes its
place in line, and one without a free descriptor or with an undefined encoding takes none; a task that retires leaves its executor idle when
nothing waits. -/
def Obligations.TasksArePostedAndRetired : Prop :=
  (∀ (s : State) (t x i : Nat) (c : Context) (k : Nat), s.executorOf 21 = some x →
    (s.boot.headEnd = false ∨ s.hwl.assigned = true) →
    (((s.cch.executor x).running.map Task.arg).getD 0) % 32 = k → s.scheduleMeters k = [(i, c)] → s.txn.pending = [] →
    s.cyc.num < (Table.get (0, 0) s.txn.schedules k).1 →
    ∃ u, exec (.scheduleRun t) s = .next u ∧
      u.txn.pending = [s.scheduleFor k (Table.get (0, 0) s.txn.schedules k).1 (Table.get (0, 0) s.txn.schedules k).2 1 0 c]) ∧
  (∀ (s : State) (kind priority eclass exec_ : Nat) (mask : BitVec 12) (arg : BitVec 32) (t : Nat),
    taskValid kind priority eclass exec_ = true → 256 < s.cch.free → (∀ x : Fin 16, (s.cch.executor x.val).running.isSome = true) →
    ∃ u, exec (.taskPost kind priority eclass exec_ mask arg t) s = .next u ∧
      u.cch.waiting = s.cch.waiting ++ [⟨kind, priority, eclass, exec_, mask, arg.toNat, (s.advance t).us⟩]) ∧
  (∀ (s : State) (kind priority eclass exec_ : Nat) (mask : BitVec 12) (arg : BitVec 32) (t : Nat),
    (taskValid kind priority eclass exec_ = false ∨ s.cch.free = 0) →
    ∃ u, exec (.taskPost kind priority eclass exec_ mask arg t) s = .next u ∧ u.cch = s.cch) ∧
  (∀ (s : State) (x : Fin 16) (t : Nat), (s.cch.executor x.val).running.isSome = true → s.cch.waiting = [] → s.txn.pending = [] →
    ∃ u, exec (.taskRetire x t) s = .next u ∧ (u.cch.executor x.val).running = none ∧ u.cch.waiting = [])

/-- FULLER_ACCEPT and FLUSH_TIMER (R335, R338): a record that Fuller accepts enters the sector of stream 8 that is being filled; while Fuller is shut
upstream is held; a partly filled sector whose wait is over is put in line for a page.

PAGE_PROGRAM and GC_BATCH (R338, R341, R344): a page takes the four oldest dirty sectors and the next SEQ, and the summary of the block that it
fills takes one more; a batch of a closed victim moves the collection past the pages it has copied. -/
def Obligations.EntriesAreAcceptedAndProgrammed : Prop :=
  (∀ (s : State) (t id tref : Nat) (r : Record) (k : Option Int) (d : List (Option Nat)) (rest : List FulItem),
    s.ful.queue = .record id r tref k d :: rest → s.ful.shut = false → s.ful.full8 1 = false →
    s.ful.dirtyBytes + 64 ≤ s.item iDirtyMax * 2 ^ 20 → s.ful.open8.entries.length < 63 →
    ∃ u, exec (.fullerAccept t) s = .next u ∧ u.ful.queue = rest ∧ u.ful.holding = false ∧
      u.ful.open8 = s.ful.open8.add (.record r tref k d) (max s.now t)) ∧
  (∀ (s : State) (t : Nat) (i : FulItem) (rest : List FulItem), s.ful.queue = i :: rest → s.ful.shut = true →
    ∃ u, exec (.fullerAccept t) s = .next u ∧ u.ful = { s.ful with holding := true }) ∧
  (∀ (s : State) (t a : Nat), s.ful.open8.since = some a → s.item iFlushMs ≠ 0 → a + s.item iFlushMs * ticksPerMs ≤ max s.now t →
    s.ful.open8.programmed < s.ful.open8.entries.length →
    ∃ u, exec (.flushTimer t) s = .next u ∧ s.ful.sector8 ∈ u.ful.dirty ∧ u.ful.open8.since = none ∧
      u.ful.open8.programmed = s.ful.open8.entries.length ∧ u.ful.open8.entries = s.ful.open8.entries) ∧
  (∀ (s s1 : State) (t b : Nat) (bad : List (Nat × Nat)), s.ful.dirty ≠ [] → s.target false = some (b, s1) →
    s.ful.stopped = false →
    ∃ u, exec (.pageProgram bad t) s = .next u ∧ u.ful.dirty = s.ful.dirty.drop 4 ∧
      u.ful.nextSeq = s.ful.nextSeq + (if s.ful.dataPages ≤ (s1.ful.block b).pages.length + 1 then 1 + summaryPages s.ful.pagesPer else 1)) ∧
  (∀ (s : State) (t : Nat) (bad : List (Nat × Nat)), s.ful.dirty = [] → s.ful.stopped = false →
    ∃ u, exec (.pageProgram bad t) s = .next u ∧ u.ful.dirty = [] ∧ u.ful.nextSeq = s.ful.nextSeq) ∧
  (∀ (s : State) (t : Nat) (c : Collection), s.ful.collection = some c → s.ful.stopped = false → s.rideHoldsGc = false →
    (∀ e, e ∈ s.ful.blocks → s.way.opTime ≤ e.2.closeTime + 86400 * s.item iRetentionDays) →
    c.next < (s.ful.block c.victim).pages.length → (s.ful.block c.victim).state = .closed → (s.target true).isSome = true →
    ∃ u, exec (.gcBatch t) s = .next u ∧
      u.ful.collection = some { c with next := c.next + (s.ful.batch c.victim c.next 4 0 []).1 })

/-- PROGRAM_FAIL, ERASE_FAIL and BLOCK_ERASE (R344, R346): a block whose program or erase fails is retired, and marked where its mark can be
programmed; an erased block is free with its erase count raised.

SECTOR_READ, CHECKPOINT_COMPLETE, COUNTER_SNAPSHOT and REBUILD_DONE (R337, R345, R349): a read counts for its block; a checkpoint whose position
is programmed ends and its position stands; a day of operating time saves the counts; the rebuild ends only once the start is over. -/
def Obligations.BlocksAndBooksOfTheStore : Prop :=
  (∀ (s : State) (markFails : Bool) (t b : Nat), s.ful.dirty ≠ [] → (s.target false).map Prod.fst = some b →
    ∃ u, exec (.programFail false markFails t) s = .next u ∧ (u.ful.block b).state = .retired ∧ (u.ful.block b).marked = !markFails) ∧
  (∀ (s : State) (markFails : Bool) (b t : Nat), b < s.ful.total → (s.ful.block b).state ≠ .retired → (s.ful.block b).state ≠ .factoryBad →
    ∃ u, exec (.eraseFail b markFails t) s = .next u ∧ (u.ful.block b).state = .retired ∧ (u.ful.block b).marked = !markFails ∧
      (u.ful.block b).pages = (s.ful.block b).pages) ∧
  (∀ (s : State) (b t : Nat), b < s.ful.total → (s.ful.block b).state = .free → s.ful.collection = none →
    ∃ u, exec (.blockErase b t) s = .next u ∧ (u.ful.block b).state = .free ∧
      (u.ful.block b).erases = (s.ful.block b).erases + 1 ∧ (u.ful.block b).pages = []) ∧
  (∀ (s : State) (lsa bits retries t : Nat) (l : Loc), Table.get none s.ful.map lsa = some l →
    ∃ u, exec (.sectorRead lsa bits retries false t) s = .next u ∧ (u.ful.block l.block).reads = (s.ful.block l.block).reads + 1 ∧
      u.ful.map = s.ful.map) ∧
  (∀ (s : State) (t : Nat) (c : LegalCheckpoint), s.ful.ckptLegal = some c → s.ful.programmedTo c.readPos = true →
    (s.target false).isSome = true →
    ∃ u, exec (.checkpointComplete true t) s = .next u ∧ u.ful.ckptLegal = none ∧ u.ful.legalReadPos = some c.readPos) ∧
  (∀ (s : State) (t : Nat) (c : CtxCheckpoint), s.ful.ckptCtx = some c → s.ful.programmedTo c.readPos = true →
    (s.target false).isSome = true →
    ∃ u, exec (.checkpointComplete false t) s = .next u ∧ u.ful.ckptCtx = none ∧ u.ful.ctxReadPos = some c.readPos) ∧
  (∀ (s : State) (t : Nat) (c : LegalCheckpoint), s.ful.ckptLegal = some c → s.ful.programmedTo c.readPos = false →
    ∃ u, exec (.checkpointComplete true t) s = .next u ∧ u.ful = s.ful) ∧
  (∀ (s : State) (t : Nat), s.ful.snapshotAt + 86400 ≤ s.way.opTime → s.ful.control ≠ none →
    ∃ u, exec (.counterSnapshot t) s = .next u ∧ u.ful.snapshotAt = s.way.opTime ∧
      (2048, SectorData.counters (s.ful.blocks.map fun e => (e.1, e.2.erases, e.2.reads))) ∈ u.ful.dirty) ∧
  (∀ (s : State) (sums : List Nat) (pages : List (Nat × Nat)) (t : Nat), s.ful.rebuilding = true → 15 ≤ s.boot.stage →
    ∃ u, exec (.rebuildDone sums pages t) s = .next u ∧ u.ful.rebuilding = false) ∧
  (∀ (s : State) (sums : List Nat) (pages : List (Nat × Nat)) (t : Nat), s.boot.stage < 15 →
    ∃ u, exec (.rebuildDone sums pages t) s = .next u ∧ u.ful = s.ful)

/-- BLOCK_LOCK, LOCK_LOSS, PORT_RETRAIN_TIMER, HELLO and HELLO_ACK (R361 to R363): a training port sends HELLO after 64 valid sync headers; a link
without block lock for 100 µs retrains; a HELLO of the same fabric and wiring is answered under the fabric key, one of another fabric isolates the
port for 60 s; a HELLO_ACK with its CMAC verified brings the link UP, one without it isolates the port. -/
def Obligations.LinksComeUp : Prop :=
  (∀ (s : State) (p : Fin 4) (valid t : Nat), s.portEnabled p.val = true → (s.hport p.val).state = .training → p.val < s.hwl.ports.length →
    64 ≤ valid →
    ∃ u, exec (.blockLock p valid t) s = .next u ∧ (u.hport p.val).state = .hello ∧ (u.hport p.val).blockLock = true ∧
      (u.hport p.val).helloSent = s.helloNow p.val ∧
      ∃ o, u.out = .hwlPacket p.val (packetBytes 0 (packetOf (.hello (s.helloNow p.val)) 0 false 0 0 0 0)) :: o) ∧
  (∀ (s : State) (p : Fin 4) (since t : Nat), s.portEnabled p.val = true → (s.hport p.val).state = .up → (s.hport p.val).blockLock = true →
    since + 2458 ≤ max s.now t →
    ∃ u, exec (.lockLoss p since t) s = .next u ∧ (u.hport p.val).state = .training ∧ (u.hport p.val).blockLock = false ∧
      (u.hport p.val).replay = []) ∧
  (∀ (s : State) (p : Fin 4) (t d : Nat), (s.hport p.val).retrainAt = some d → d ≤ max s.now t →
    ∃ u, exec (.portRetrainTimer p t) s = .next u ∧ (u.hport p.val).state = .training ∧ (u.hport p.val).retrainAt = none) ∧
  (∀ (s : State) (l : HwlHeader) (mac : List Byte) (t : Nat), (s.hport l.port.val).state = .hello → l.lcrcOk = true → packetFits l 0x01 = true →
    s.helloCause l.port.val (helloOf l.payload) = none →
    s.cmacUnder (s.item iFabricKeySlot) (l.payload ++ s.helloNow l.port.val) = some mac →
    ∃ u, exec (.hello l t) s = .next u ∧ (u.hport l.port.val).state = .hello ∧
      (u.hport l.port.val).peerSerial = some (helloOf l.payload).serial ∧
      u.out = .hwlPacket l.port.val (packetBytes 0 (packetOf (.helloAck (s.helloNow l.port.val) mac) 0 false 0 0 0 0)) :: s.out) ∧
  (∀ (s : State) (l : HwlHeader) (t : Nat), (s.hport l.port.val).state = .hello → l.lcrcOk = true → packetFits l 0x01 = true →
    (helloOf l.payload).fabricId ≠ s.item iFabricId →
    ∃ u, exec (.hello l t) s = .next u ∧ (u.hport l.port.val).state = .isolated ∧ (u.hport l.port.val).isolate = 1 ∧
      (u.hport l.port.val).retrainAt = some (max s.now t + 60 * ticksPerSec)) ∧
  (∀ (s : State) (l : HwlHeader) (t : Nat), (s.hport l.port.val).state = .hello → l.lcrcOk = true → packetFits l 0x02 = true →
    s.helloCause l.port.val (helloOf l.payload) = none → s.helloAckOk l.port.val l.payload = true →
    s.coordsAgree l.port.val (helloOf l.payload).coord = true →
    ∃ u, exec (.helloAck l t) s = .next u ∧ (u.hport l.port.val).state = .up ∧
      (u.hport l.port.val).peerSerial = some (helloOf l.payload).serial ∧ (u.hport l.port.val).expectRx = 0) ∧
  (∀ (s : State) (l : HwlHeader) (t : Nat), (s.hport l.port.val).state = .hello → l.lcrcOk = true → packetFits l 0x02 = true →
    s.helloCause l.port.val (helloOf l.payload) = none → s.helloAckOk l.port.val l.payload = false →
    ∃ u, exec (.helloAck l t) s = .next u ∧ (u.hport l.port.val).state = .isolated ∧ (u.hport l.port.val).isolate = 2)

/-- CREDIT, LINK_WORD_ACK, LINK_WORD_NAK and LINK_ACK_TIMER (R357 to R359): credits add up to a share at most; an ACK empties the replay buffer up to
its number; a NAK replays from its number, and the eighth for one number retrains; packets received in order are acknowledged within 2 µs.

COORDINATE_ASSIGN, ANNOUNCE_TIMER, ANNOUNCE and MEMBER_EXPIRY (R362, R364): a node takes its stored coordinate and keeps it; an assigned node
numbers its ANNOUNCEs, one a second; a first ANNOUNCE makes its sender a member; 3 s without one end that. -/
def Obligations.LinkWordsAndNodesAct : Prop :=
  (∀ (s : State) (p : Fin 4) (vc : Fin 4) (cls : Fin 3) (units t : Nat), (s.hport p.val).state = .up → (s.hport p.val).waiting = [] →
    ∃ u, exec (.credit p vc cls units t) s = .next u ∧
      (u.hport p.val).credits = Table.set 0 (s.hport p.val).credits (creditKey vc.val cls.val)
        (min (shareUnits vc.val) ((s.hport p.val).credit vc.val cls.val + units))) ∧
  (∀ (s : State) (p : Fin 4) (lseq : BitVec 16) (t : Nat), (s.hport p.val).state = .up → (s.hport p.val).waiting = [] →
    ∃ u, exec (.linkWordAck p lseq t) s = .next u ∧ (u.hport p.val).replay = after (s.hport p.val).replay lseq) ∧
  (∀ (s : State) (p : Fin 4) (lseq : BitVec 16) (t : Nat), (s.hport p.val).state = .up → (s.hport p.val).nakFor = lseq →
    (s.hport p.val).naks < 7 →
    ∃ u, exec (.linkWordNak p lseq t) s = .next u ∧ (u.hport p.val).naks = (s.hport p.val).naks + 1 ∧
      (u.hport p.val).replay = after (s.hport p.val).replay (lseq - 1) ∧
      u.out = ((after (s.hport p.val).replay (lseq - 1)).map fun e => Emission.hwlPacket p.val (packetBytes e.1 e.2)).reverse ++ s.out) ∧
  (∀ (s : State) (p : Fin 4) (lseq : BitVec 16) (t : Nat), (s.hport p.val).state = .up → (s.hport p.val).nakFor = lseq →
    7 ≤ (s.hport p.val).naks →
    ∃ u, exec (.linkWordNak p lseq t) s = .next u ∧ (u.hport p.val).state = .training ∧ (u.hport p.val).replay = []) ∧
  (∀ (s : State) (p : Fin 4) (d t : Nat), (s.hport p.val).state = .up → (s.hport p.val).ackSince = some d → d + 49 ≤ max s.now t →
    ∃ u, exec (.linkAckTimer p t) s = .next u ∧ (u.hport p.val).ackSince = none ∧ (u.hport p.val).unacked = 0 ∧
      u.out = .linkWord p.val (ackWord ((s.hport p.val).expectRx - 1)) :: s.out) ∧
  (∀ (s : State) (t x y : Nat), s.boot.headEnd = true → s.boot.locked = true → s.hwl.assigned = false → s.hwl.conflict = false →
    s.hwl.stored = some (x, y) →
    ∃ u, exec (.coordinateAssign t) s = .next u ∧ u.hwl.assigned = true ∧ u.hwl.nodeId = BitVec.ofNat 6 (s.nodeAt (x, y)) ∧
      u.hwl.x = x ∧ u.hwl.y = y ∧
      u.nor.coordinate = some (s.item iFabricId, s.item iTorusW, s.item iTorusH, x, y)) ∧
  (∀ (s : State) (t : Nat), s.boot.headEnd = true → s.hwl.assigned = true → s.hwl.announceAt ≤ max s.now t →
    ∃ u, exec (.announceTimer t) s = .next u ∧ u.hwl.annSeq = s.hwl.annSeq + 1 ∧ u.hwl.announceAt = max s.now t + ticksPerSec) ∧
  (∀ (s : State) (l : HwlHeader) (node : NodeId) (t : Nat),
    (s.hport l.port.val).state = .up → l.lcrcOk = true → l.lseq = (s.hport l.port.val).expectRx → packetFits l 0x03 = true → l.flood = true →
    node = BitVec.ofNat 6 (fieldAt l.payload 8 1) → node ≠ s.hwl.nodeId → Table.get none s.hwl.members node.toNat = none →
    ∃ u, exec (.announce l t) s = .next u ∧ u.isMember node.toNat = true ∧
      Table.get none u.hwl.members node.toNat = some ⟨BitVec.ofNat 64 (fieldAt l.payload 0 8), l.tag, max s.now t,
        (List.range 4).map fun p => fieldAt l.payload 9 1 / 4 ^ p % 4, true⟩) ∧
  (∀ (s : State) (node : NodeId) (t : Nat) (m : Member), Table.get none s.hwl.members node.toNat = some m → m.member = true →
    m.heard + 3 * ticksPerSec ≤ max s.now t →
    ∃ u, exec (.memberExpiry node t) s = .next u ∧ Table.get none u.hwl.members node.toNat = some { m with member := false })

/-- PAIR, PAIR_TIMEOUT, HEARTBEAT_SEND, HEARTBEAT, LEAVE and PARTNER_TIMEOUT (R367, R380, R384): a PAIR of the partner that names this node pairs them
and sets the base of its stream; one that names another stops pairing and ownership; a LEAVE, silence and a pairing that does not come lose the
partner, so that this node acts for both ranges. -/
def Obligations.PairsFormAndBreak : Prop :=
  (∀ (s : State) (l : HwlHeader) (t : Nat), s.packetArrives l 0x04 → s.hwl.assigned = true → s.fromPartner l = true →
    fieldAt l.payload 0 1 = s.hwl.nodeId.toNat → bitAt l.payload 6 1 = false → bitAt l.payload 6 2 = false →
    ∃ u, exec (.pair l t) s = .next u ∧ u.hwl.paired = true ∧ u.hwl.partnerLost = false ∧
      u.hwl.expectIn = BitVec.ofNat 32 (fieldAt l.payload 2 4)) ∧
  (∀ (s : State) (l : HwlHeader) (t : Nat), s.packetArrives l 0x04 → s.hwl.assigned = true →
    fieldAt l.payload 0 1 ≠ s.hwl.nodeId.toNat → bitAt l.payload 6 1 = false → bitAt l.payload 6 2 = false →
    ∃ u, exec (.pair l t) s = .next u ∧ u.hwl.paired = false ∧ u.hwl.pairMismatch = true ∧ u.hwl.owner = false ∧ u.hwl.outHigh = false) ∧
  (∀ (s : State) (t : Nat), s.boot.headEnd = true → s.hwl.assigned = true → s.hwl.paired = false → s.hwl.partnerLost = false →
    s.hwl.assignedAt + msTicks (10 * s.item iPartnerTimeout) ≤ max s.now t →
    ∃ u, exec (.pairTimeout t) s = .next u ∧ u.hwl.partnerLost = true ∧ u.hwl.partnerRange = true) ∧
  (∀ (s : State) (t : Nat), s.hwl.paired = true → s.hwl.heartbeatAt + msTicks (s.item iHeartbeatMs) ≤ max s.now t →
    s.openTo (s.partner.getD 0) .heartbeat →
    ∃ u, exec (.heartbeatSend t) s = .next u ∧ u.hwl.heartbeatAt = max s.now t ∧
      u.out = s.packetTo (s.partner.getD 0) 0 .heartbeat :: s.out) ∧
  (∀ (s : State) (l : HwlHeader) (t : Nat), s.packetArrives l 0x05 → s.fromPartner l = true →
    ∃ u, exec (.heartbeat l t) s = .next u ∧ u.hwl.partnerHeard = max s.now t ∧ (u.hport l.port.val).expectRx = l.lseq + 1 ∧
      Emission.linkWord l.port.val (creditWord l.vc l.cls 1) ∈ u.out) ∧
  (∀ (s : State) (l : HwlHeader) (t : Nat), s.packetArrives l 0x06 → s.fromPartner l = true →
    ∃ u, exec (.leave l t) s = .next u ∧ u.hwl.partnerLost = true ∧ u.hwl.paired = (s.hwl.paired && s.hwl.partnerLost)) ∧
  (∀ (s : State) (t : Nat), s.hwl.paired = true → s.hwl.partnerLost = false →
    s.hwl.partnerHeard + msTicks (s.item iPartnerTimeout) ≤ max s.now t →
    ∃ u, exec (.partnerTimeout t) s = .next u ∧ u.hwl.partnerLost = true ∧ u.hwl.paired = false ∧ u.hwl.partnerRange = true ∧
      u.hwl.window = [])

/-- MREC, MEST, MFEED, MJOB, MCTX, CUT, MSYNC and HANDBACK (R368, R369, R371, R373 to R375, R386): the next packet of the partner's stream is
delivered and counted: a record enters source 9, an estimate is held, a feeder record reaches Fuller and BAL, an operation, a barrier and a whole
state take the next ticket, and HANDBACK gives the range back. -/
def Obligations.StreamIsTakenInOrder : Prop :=
  (∀ (s : State) (l : HwlHeader) (t : Nat), s.streamArrives l 0x10 → s.frameFits (s.mirrorFrame (recordOf l.payload)) = true →
    9 < s.ing.fifos.length →
    ∃ u, exec (.mrec l t) s = .next u ∧ u.hwl.expectIn = s.hwl.expectIn + 1 ∧
      u.fifo 9 = s.fifo 9 ++ [⟨s.ing.ticket, fifoData (frameData (s.mirrorFrame (recordOf l.payload))),
        .frame (s.mirrorFrame (recordOf l.payload))⟩]) ∧
  (∀ (s : State) (l : HwlHeader) (t i : Nat), s.streamArrives l 0x11 → s.indexFor (recordOf l.payload).gmn = some i →
    ∃ u, exec (.mest l t) s = .next u ∧ u.hwl.expectIn = s.hwl.expectIn + 1 ∧ Table.get none u.hwl.mests i = some (recordOf l.payload)) ∧
  (∀ (s : State) (l : HwlHeader) (t : Nat), s.streamArrives l 0x12 → s.bal.queue.length < 4096 → s.pipeOff = false →
    ∃ u, exec (.mfeed l t) s = .next u ∧ u.hwl.expectIn = s.hwl.expectIn + 1 ∧
      u.ful.queue = s.ful.queue ++ [.feeder (feederOf l.payload) none] ∧ u.bal.queue = s.bal.queue ++ [.feeder (feederOf l.payload) none]) ∧
  (∀ (s : State) (l : HwlHeader) (g : Gmn) (op : LegalOp) (t i : Nat), s.streamArrives l 0x13 → s.indexFor g = some i →
    ∃ u, exec (.mjob l g op t) s = .next u ∧ u.hwl.expectIn = s.hwl.expectIn + 1 ∧
      u.ing.inner = s.ing.inner ++ [⟨s.ing.ticket, [], .op (.legal g op none true) (laneOf i)⟩]) ∧
  (∀ (s : State) (l : HwlHeader) (j : JobBody) (g : Gmn) (t i : Nat), s.streamArrives l 0x14 → jobGmn j = some g → s.indexFor g = some i →
    ∃ u, exec (.mctx l j t) s = .next u ∧ u.hwl.expectIn = s.hwl.expectIn + 1 ∧
      u.ing.inner = s.ing.inner ++ [⟨s.ing.ticket, [], .op (.job j none true) (laneOf i)⟩]) ∧
  (∀ (s : State) (l : HwlHeader) (lane : Fin 4) (t : Nat), s.streamArrives l 0x15 → fieldAt l.payload 4 1 = lane.val →
    ∃ u, exec (.cut l t) s = .next u ∧ u.hwl.expectIn = s.hwl.expectIn + 1 ∧
      (u.cutOf (fieldAt l.payload 0 4) (s.partner.getD 0)).isSome = true ∧
      u.ing.inner = s.ing.inner ++ [⟨s.ing.ticket, [], .op (.barrier (fieldAt l.payload 0 4) (s.partner.getD 0)) lane⟩]) ∧
  (∀ (s : State) (l : HwlHeader) (g : Gmn) (data : List Byte) (t i : Nat), s.streamArrives l 0x16 → g = BitVec.ofNat 20 (fieldAt l.payload 0 4) →
    fieldAt l.payload 4 1 = 0 → fieldAt l.payload 5 1 = 1 → s.indexFor g = some i → data = l.payload.drop 8 →
    ∃ u, exec (.msync l t) s = .next u ∧ u.hwl.expectIn = s.hwl.expectIn + 1 ∧
      u.ing.inner = s.ing.inner ++ [⟨s.ing.ticket, [], .op (.sync g (fieldAt l.payload 2 1 / 16) (withMirrored Context.empty (data.take 184))
        (slotOfBytes (data.drop 184)) []) (laneOf i)⟩]) ∧
  (∀ (s : State) (l : HwlHeader) (t : Nat), s.streamArrives l 0x17 → s.hwl.ownRange = false →
    ∃ u, exec (.handback l t) s = .next u ∧ u.hwl.expectIn = s.hwl.expectIn + 1 ∧ u.hwl.ownRange = true ∧ u.hwl.syncing = false)

/-- MACK, MNAK, MIRROR_GAP_TIMER, MIRROR_ACK_TIMER and SYNC_REQ (R369, R370, R372, R374): an MACK empties the window up to its number; an MNAK resends
from its number; a gap is asked for after MIRROR_GAP_MS; what was delivered is acknowledged within 20 µs; a request for a meter puts its whole
state into the stream.

DIGEST, DIGEST_REQ and DIGEST_RESULT (R376, R377): block digests are kept until the cut is whole; then equal ones end its comparison, and
differing blocks are asked for; with their meter digests, and with a DIGEST_RESULT, the meters that differ are marked; requested meter digests are
sent. -/
def Obligations.StreamIsAcknowledgedAndCompared : Prop :=
  (∀ (s : State) (l : HwlHeader) (m : BitVec 32) (t : Nat), s.packetArrives l 0x18 → s.fromPartner l = true →
    m = BitVec.ofNat 32 (fieldAt l.payload 0 4) →
    ∃ u, exec (.mack l t) s = .next u ∧ u.hwl.mseqAcked = m ∧
      u.hwl.window = s.hwl.window.filter (fun e => !decide ((m - e.1).toNat < 2 ^ 31))) ∧
  (∀ (s : State) (l : HwlHeader) (m : BitVec 32) (b : HwlBody) (t : Nat), s.packetArrives l 0x19 → s.fromPartner l = true →
    m = BitVec.ofNat 32 (fieldAt l.payload 0 4) → s.hwl.window = [(m, b)] → s.openTo (s.partner.getD 0) b →
    ∃ u, exec (.mnak l [] t) s = .next u ∧ u.hwl.window = [(m, b)] ∧ ∃ o, u.out = s.packetTo (s.partner.getD 0) m b :: o) ∧
  (∀ (s : State) (t g : Nat), s.hwl.gapSince = some g → g + msTicks (s.item iMirrorGapMs) ≤ max s.now t →
    s.openTo (s.partner.getD 0) (.mnak s.hwl.expectIn) →
    ∃ u, exec (.mirrorGapTimer t) s = .next u ∧ u.hwl.gapSince = some (max s.now t) ∧
      ∃ o, u.out = s.packetTo (s.partner.getD 0) 0 (.mnak s.hwl.expectIn) :: o) ∧
  (∀ (s : State) (t d : Nat), s.hwl.heldIn = [] → s.hwl.mackSince = some d → d + 491 ≤ max s.now t →
    s.openTo (s.partner.getD 0) (.mack (s.hwl.expectIn - 1)) →
    ∃ u, exec (.mirrorAckTimer t) s = .next u ∧ u.hwl.mackSince = none ∧
      u.out = s.packetTo (s.partner.getD 0) 0 (.mack (s.hwl.expectIn - 1)) :: s.out) ∧
  (∀ (s : State) (l : HwlHeader) (g : Gmn) (reason t i : Nat), s.packetArrives l 0x1A → s.fromPartner l = true → s.mirroring = true →
    g = BitVec.ofNat 20 (fieldAt l.payload 0 4) → reason = fieldAt l.payload 4 4 → s.heldIndex g = some i → i < 16384 →
    ∃ u, exec (.syncReq l t) s = .next u ∧ u.hwl.mseqOut = s.hwl.mseqOut + BitVec.ofNat 32 (s.syncBodies i reason).length ∧
      u.hwl.window.map Prod.snd = s.hwl.window.map Prod.snd ++ s.syncBodies i reason) ∧
  (∀ (s : State) (l : HwlHeader) (c c1 : Cut) (bl : Table (List Byte)) (t : Nat), s.packetArrives l 0x1B → s.fromPartner l = true →
    fieldAt l.payload 4 1 ≠ s.hwl.nodeId.toNat → s.cutOf (fieldAt l.payload 0 4) (fieldAt l.payload 4 1) = some c → c.asked = [] →
    bl = (pieces 64 (fieldAt l.payload 6 1) (l.payload.drop 8)).zipIdx.foldl
      (fun tb d => Table.set [] tb (fieldAt l.payload 5 1 + d.2) d.1) c.blocks → c1 = { c with blocks := bl } → (c.ready = false ∨ c1.blocks.length < 256) →
    ∃ u, exec (.digest l t) s = .next u ∧ u.cutOf c.cutId c.range = some c1 ∧ u.hwl.mismatch = s.hwl.mismatch) ∧
  (∀ (s : State) (l : HwlHeader) (c c1 : Cut) (bl : Table (List Byte)) (t : Nat), s.packetArrives l 0x1B → s.fromPartner l = true →
    fieldAt l.payload 4 1 ≠ s.hwl.nodeId.toNat → s.cutOf (fieldAt l.payload 0 4) (fieldAt l.payload 4 1) = some c → c.asked = [] →
    bl = (pieces 64 (fieldAt l.payload 6 1) (l.payload.drop 8)).zipIdx.foldl
      (fun tb d => Table.set [] tb (fieldAt l.payload 5 1 + d.2) d.1) c.blocks → c1 = { c with blocks := bl } → c.ready = true → 256 ≤ c1.blocks.length →
    ∃ u, exec (.digest l t) s = .next u ∧ u.hwl.mismatch = s.hwl.mismatch ∧
      (((List.range 256).all fun b => decide (Table.get [] c1.blocks b = c1.blockDigest b)) = true →
        u.hwl.lastCut = c.cutId ∧ u.cutOf c.cutId c.range = none) ∧
      (((List.range 256).all fun b => decide (Table.get [] c1.blocks b = c1.blockDigest b)) = false →
        u.cutOf c.cutId c.range = some { c1 with asked := (List.range 256).filter fun b => decide (Table.get [] c1.blocks b ≠ c1.blockDigest b) })) ∧
  (∀ (s : State) (l : HwlHeader) (c : Cut) (b t : Nat) (ms : List (List Byte)), s.packetArrives l 0x1B → s.fromPartner l = true →
    fieldAt l.payload 4 1 ≠ s.hwl.nodeId.toNat → s.cutOf (fieldAt l.payload 0 4) (fieldAt l.payload 4 1) = some c → c.asked = [b] →
    ms = c.meters ++ pieces 64 (fieldAt l.payload 6 1) (l.payload.drop 8) → c.ready = true → ms.length = 64 →
    ∃ u, exec (.digest l t) s = .next u ∧ u.hwl.lastCut = c.cutId ∧ u.cutOf c.cutId c.range = none ∧
      ∀ k, k < 64 → ms.getD k [] ≠ c.meterDigest (64 * b + k) → 16384 + (64 * b + k) % 16384 ∈ u.hwl.mismatch) ∧
  (∀ (s : State) (l : HwlHeader) (c : Cut) (b d t : Nat), s.packetArrives l 0x1C → s.fromPartner l = true →
    fieldAt l.payload 4 1 = s.hwl.nodeId.toNat → s.cutOf (fieldAt l.payload 0 4) (fieldAt l.payload 4 1) = some c →
    blocksOf (partOf l.payload 8 32) = [b] → s.partner = some d → (s.routeTo d).reachable = true → (s.outPort d).state = .up →
    (s.outPort d).waiting = [] → (s.outPort d).replay.length < 63 →
    66 ≤ (s.outPort d).credit 0 (s.hopClass (s.routeTo d).port 0 (s.routeTo d).diverted false) →
    ∃ u, exec (.digestReq l t) s = .next u ∧
      s.packetTo d 0 (.digest c.cutId c.range 0 (((List.range 64).map fun m => c.meterDigest (64 * b + m)).take 63)) ∈ u.out) ∧
  (∀ (s : State) (l : HwlHeader) (t : Nat), s.packetArrives l 0x1D → s.fromPartner l = true →
    fieldAt l.payload 4 1 = s.hwl.nodeId.toNat →
    ∃ u, exec (.digestResult l t) s = .next u ∧ u.hwl.lastCut = fieldAt l.payload 0 4 ∧
      ∀ k, k < fieldAt l.payload 6 2 → fieldAt l.payload (8 + 2 * k) 2 % 16384 ∈ u.hwl.mismatch)

/-- FWD_ENTRY, SEQ_REQ, ACTION_REQ, JOB, REPORT and RESET_PACKET (R19, R23, R234, R373, R383, R390, R391): what a peer sends is taken as the same
thing from the host would be: an entry enters source 8, work enters its meter's lane, an owner answers for its actions, a job is taken with its
sender's rights, a final report closes the job, and a verified reset holds this node for its reset. -/
def Obligations.PeersAskForWork : Prop :=
  (∀ (s : State) (l : HwlHeader) (e : RelayEntry) (t : Nat), s.packetArrives l 0x20 → l.payload.drop 32 = entryData e →
    8 < s.ing.fifos.length → s.frameFits (entryFrame e 8) = true →
    ∃ u, exec (.fwdEntry l e t) s = .next u ∧
      u.fifo 8 = s.fifo 8 ++ [⟨s.ing.ticket, fifoData (frameData (entryFrame e 8)), .frame (entryFrame e 8)⟩]) ∧
  (∀ (s : State) (l : HwlHeader) (g : Gmn) (op : LegalOp) (t i : Nat), s.packetArrives l 0x21 → s.indexFor g = some i →
    ∃ u, exec (.seqReq l (.legal g op) t) s = .next u ∧
      u.ing.inner = s.ing.inner ++ [⟨s.ing.ticket, [], .op (.legal g op none false) (laneOf i)⟩]) ∧
  (∀ (s : State) (l : HwlHeader) (g : Gmn) (r : Report) (t : Nat), s.packetArrives l 0x22 → g = BitVec.ofNat 20 (fieldAt l.payload 0 4) →
    s.heldIndex g = none →
    r = ⟨.jobResult 1 0 0 (leBytes 4 g.toNat ++ leBytes 1 (fieldAt l.payload 4 1)), .none, true, false, false, 0, s.hwl.nodeId⟩ →
    s.openTo l.src.toNat (.report r) →
    ∃ u, exec (.actionReq l t) s = .next u ∧ ∃ o, u.out = s.packetTo l.src.toNat 0 (.report r) :: o) ∧
  (∀ (s : State) (l : HwlHeader) (g : Gmn) (t i : Nat), s.packetArrives l 0x22 → g = BitVec.ofNat 20 (fieldAt l.payload 0 4) →
    fieldAt l.payload 4 1 = 2 → s.hwl.owner = true → s.heldIndex g = some i →
    s.mismatched i = false → s.actionsToday < s.item iMaxActionsPerDay →
    ∃ u, exec (.actionReq l t) s = .next u ∧ u.actionsToday = s.actionsToday + 1 ∧ (u.ctxAt i).bal.holdIssued = true) ∧
  (∀ (s : State) (l : HwlHeader) (j : Job) (t : Nat), s.packetArrives l 0x23 → HwlHeader.carries l j = true → s.linksTake = true →
    ∃ v, s.keepsBut [.now, .hwl, .regs, .out] v ∧
      exec (.job l j t) s = .next (v.takeJob { j with hdr := { j.hdr with source := .fabric l.port l.src } })) ∧
  (∀ (s : State) (l : HwlHeader) (h : JobHdr) (o t : Nat), s.packetArrives l 0x23 →
    HwlHeader.carries l ⟨h, .registerRead o 0⟩ = true → s.linksTake = true → (s.advance t).probeTakes { h with source := .fabric l.port l.src } o →
    ∃ u, exec (.job l ⟨h, .registerRead o 0⟩ t) s = .next u ∧
      ⟨.fabric l.port l.src, ⟨.jobResult 0 0 0 [0, 0], .none, true, false, false, h.jobId, s.hwl.nodeId⟩, max s.now t, false⟩ ∈ u.host.waiting) ∧
  (∀ (s : State) (l : HwlHeader) (r : Report) (o : OpenJob) (t : Nat), s.packetArrives l 0x24 → r.final = true →
    l.payload = (reportBytes r).take payloadMax →
    (s.host.jobs.find? fun o => decide (o.remote = some l.src ∧ o.ref.jobId = r.jobId)) = some o →
    ∃ u, exec (.report l r t) s = .next u ∧ u.host.jobs = s.host.jobs.filter fun x => decide (x.ref ≠ o.ref)) ∧
  (∀ (s : State) (l : HwlHeader) (j : Job) (t : Nat), s.packetArrives l 0x25 → HwlHeader.carries l j = true →
    (s.advance t).resetPacketOk j = true → s.pwr.mode = .run → s.rst.hold = none →
    ∃ u, exec (.resetPacket l j t) s = .next u ∧ u.rst.hold = some ⟨.fbc, max s.now t, false⟩ ∧ u.hwl.owner = false)

/-- CHAIN_DATA, CHAIN_ACK, CHAIN_RESULT and CHAIN_ACK_TIMEOUT (R388, R389): a first block starts a chain at this node; the successor's ACK moves the
window; the head notes results; a silent successor of a node that is not the head and has nobody else to relay to ends that node's part. -/
def Obligations.ChainsAreRelayed : Prop :=
  (∀ (s : State) (l : HwlHeader) (head : NodeId) (w : Bool) (data : List Byte) (total t : Nat),
    s.packetArrives l 0x30 → s.delivery 0 = none → s.hwl.chain = none → fieldAt l.payload 4 4 = 0 → total = fieldAt l.payload 8 4 →
    data = (l.payload.drop 16).take total → data ≠ [] → data.length < total →
    ∃ u, exec (.chainData l head w t) s = .next u ∧
      u.hwl.chain = some ⟨BitVec.ofNat 32 (fieldAt l.payload 0 4), total, data, some head, some l.src, none, 0, 0, max s.now t, none, [], none⟩) ∧
  (∀ (s : State) (l : HwlHeader) (t : Nat) (c : Chain), s.packetArrives l 0x31 → s.hwl.chain = some c → c.successor = some l.src →
    c.tag = BitVec.ofNat 32 (fieldAt l.payload 0 4) → c.head = none → c.ackedTo < fieldAt l.payload 4 4 →
    ∃ u, exec (.chainAck l t) s = .next u ∧
      ∃ c', u.hwl.chain = some c' ∧ c'.ackedTo = fieldAt l.payload 4 4 ∧ c'.lastAck = max s.now t ∧ c'.successor = some l.src ∧
        c.sentTo ≤ c'.sentTo) ∧
  (∀ (s : State) (l : HwlHeader) (node : NodeId) (t : Nat) (c c1 : Chain), s.packetArrives l 0x32 → s.hwl.chain = some c →
    c.tag = BitVec.ofNat 32 (fieldAt l.payload 0 4) → node = BitVec.ofNat 6 (fieldAt l.payload 4 1) → c.head = none → c.successor ≠ some node →
    c1 = { c with results := c.results ++ [(node, fieldAt l.payload 5 1)] } → s.chainAllHeard c1 = false →
    ∃ u, exec (.chainResult l t) s = .next u ∧ u.hwl.chain = some c1) ∧
  (∀ (s : State) (t : Nat) (c : Chain) (h d : NodeId), s.hwl.chain = some c → c.head = some h → c.successor = some d →
    c.ackedTo < c.total → c.lastAck + 5 * ticksPerSec ≤ max s.now t → (s.nextInChain d.toNat 64).2 = none →
    ∃ u, exec (.chainAckTimeout t) s = .next u ∧ u.hwl.chain = none)

/-- ACT_OWN_IN_CHANGE, ARB_WINDOW_EXPIRY, ARB_BACKOFF_EXPIRY and QUERY_RETRY (R379, R380, R382): an owner that sees ACT_OWN_IN high lets go for good;
an odd node that claims at the same time backs off; a window of ACT_OWN_IN low makes the claimant owner; a backoff ends, with a new claim where a
case for one holds; an unanswered query is sent again after 10 ms, and later every second. -/
def Obligations.OwnershipIsExclusive : Prop :=
  (∀ (s : State) (t : Nat), s.boot.headEnd = true → s.hwl.owner = true →
    ∃ u, exec (.actOwnInChange true t) s = .next u ∧ u.hwl.owner = false ∧ u.hwl.outHigh = false ∧ u.hwl.interlockFault = true ∧
      u.hwl.inHigh = true) ∧
  (∀ (s : State) (t c : Nat), s.boot.headEnd = true → s.hwl.owner = false → s.hwl.claiming = some c → s.hwl.nodeId.toNat % 2 = 1 →
    ∃ u, exec (.actOwnInChange true t) s = .next u ∧ u.hwl.claiming = none ∧ u.hwl.outHigh = false ∧
      u.hwl.backoffUntil = some (max s.now t + aonTicks (10 * s.item iArbWindow))) ∧
  (∀ (s : State) (t c : Nat), s.boot.headEnd = true → s.hwl.claiming = some c →
    ∃ u, exec (.actOwnInChange false t) s = .next u ∧ u.hwl = { s.hwl with inHigh := false, claiming := some (max s.now t) }) ∧
  (∀ (s : State) (t c : Nat), s.hwl.claiming = some c → s.hwl.inHigh = false → c + aonTicks (s.item iArbWindow) ≤ max s.now t →
    ∃ u, exec (.arbWindowExpiry t) s = .next u ∧ u.hwl.owner = true ∧ u.hwl.claiming = none) ∧
  (∀ (s : State) (t c : Nat), s.hwl.claiming = some c → s.hwl.inHigh = true →
    ∃ u, exec (.arbWindowExpiry t) s = .next u ∧ u.hwl = s.hwl) ∧
  (∀ (s : State) (t d : Nat), s.hwl.backoffUntil = some d → d ≤ max s.now t → s.hwl.partnerLost = true → s.boot.headEnd = true →
    s.hwl.interlockFault = false → s.hwl.pairMismatch = false → s.pwr.mode = .run → s.hwl.owner = false → s.hwl.claiming = none →
    s.hwl.inHigh = false →
    ∃ u, exec (.arbBackoffExpiry t) s = .next u ∧
      u.hwl = { s.hwl with backoffUntil := none, outHigh := true, claiming := some (max s.now t) }) ∧
  (∀ (s : State) (t : Nat), s.hwl.paired = true → s.hwl.checkWiring = true → 0 < s.hwl.queries → s.hwl.queryAgain ≤ max s.now t →
    ∃ u, exec (.queryRetry t) s = .next u ∧ u.hwl.queries = s.hwl.queries + 1 ∧ u.hwl.queriedAt = max s.now t)

/-- CQ_TAIL_WRITE, RQ_ENABLE, RQ_DISABLE and RQ_HEAD_WRITE (R397, R400, R401): a granted tail write within the queue's size moves the tail, one beyond
it changes no queue; a report queue is set up with a size of 2^10 to 2^16 only, stops with its indices at zero, and takes its head as written. -/
def Obligations.QueuesFollowTheirRegisters : Prop :=
  (∀ (s : State) (n : Fin 4) (m : Master) (v : Word) (t : Nat), s.checkAccess m (0x1D0100 + 0x10 * n.val) 4 1 = .open →
    s.cqOpen n.val = true → n.val < s.host.cqs.length → v ≠ (s.cq n.val).tail → (v - (s.cq n.val).head).toNat ≤ s.cqEntries n.val →
    ∃ u, exec (.cqTailWrite n m v t) s = .next u ∧ u.cq n.val = { s.cq n.val with tail := v }) ∧
  (∀ (s : State) (n : Fin 4) (m : Master) (v : Word) (t : Nat), s.checkAccess m (0x1D0100 + 0x10 * n.val) 4 1 = .open →
    s.cqOpen n.val = true → v ≠ (s.cq n.val).tail → s.cqEntries n.val < (v - (s.cq n.val).head).toNat →
    ∃ u, exec (.cqTailWrite n m v t) s = .next u ∧ u.host = s.host) ∧
  (∀ (s : State) (n : Fin 4) (m : Master) (k : Fin 16) (t : Nat), s.checkAccess m (0x1D0208 + 0x20 * n.val) 4 1 = .open →
    (s.rq n.val).enable = false → n.val < s.host.rqs.length → 10 ≤ k.val →
    ∃ u, exec (.rqEnable n m k t) s = .next u ∧ u.rq n.val = { s.rq n.val with sizeLog2 := k.val, enable := true, ring := [] }) ∧
  (∀ (s : State) (n : Fin 4) (m : Master) (k : Fin 16) (t : Nat), s.checkAccess m (0x1D0208 + 0x20 * n.val) 4 1 = .open →
    (s.rq n.val).enable = false → n.val < s.host.rqs.length → k.val < 10 →
    ∃ u, exec (.rqEnable n m k t) s = .next u ∧ u.rq n.val = { s.rq n.val with sizeLog2 := k.val }) ∧
  (∀ (s : State) (n : Fin 4) (m : Master) (k : Fin 16) (t : Nat), s.checkAccess m (0x1D0208 + 0x20 * n.val) 4 1 = .open →
    (s.rq n.val).enable = true → n.val < s.host.rqs.length →
    ∃ u, exec (.rqDisable n m k t) s = .next u ∧
      u.rq n.val = { s.rq n.val with enable := false, head := 0, tail := 0, coalesce := 0, coalesceSince := none, ring := [] } ∧
      u.host.waiting = s.host.waiting.filter fun w => decide (w.dest ≠ .rq n)) ∧
  (∀ (s : State) (n : Fin 4) (m : Master) (v : Word) (t : Nat), s.checkAccess m (0x1D020C + 0x20 * n.val) 4 1 = .open →
    n.val < s.host.rqs.length →
    ∃ u, exec (.rqHeadWrite n m v t) s = .next u ∧ u.rq n.val = { s.rq n.val with head := v })

/-- REPORT_ISSUE, COALESCE_TIMER, REPORT_HOLD_EXPIRY and PCIE_PERST_N (R400 to R402, R540): the first waiting report whose ring has room is written
slot by slot into the host's memory, its descriptor last with the lap phase, and moves the tail past its slots; one whose queue is not set up is
discarded; a vector that is not masked fires when COAL_US has passed, and a masked one becomes pending; a report that waited too long is dropped;
PERST_N low stops the link, and its rise zeroes the queues. -/
def Obligations.ReportsAreIssuedInOrder : Prop :=
  (∀ (s : State) (t : Nat) (w : WaitingReport) (rest : List WaitingReport) (n : Fin 4), s.host.waiting = w :: rest → w.dest = .rq n →
    n.val < s.host.rqs.length → (s.rq n.val).enable = true → (s.rq n.val).room w.report = true →
    ∃ u, exec (.reportIssue t) s = .next u ∧ u.host.waiting = rest ∧
      (u.rq n.val).tail = (s.rq n.val).tail + 1 + BitVec.ofNat 32 w.report.extra ∧
      (u.rq n.val).ring = ((s.rq n.val).write w.report).ring ∧
      (∀ e, e ∈ (s.rq n.val).slots w.report → .hostWrite ((s.rq n.val).base + 64 * e.1) e.2 ∈ u.out)) ∧
  (∀ (s : State) (t : Nat) (w : WaitingReport) (rest : List WaitingReport) (n : Fin 4), s.host.waiting = w :: rest → w.dest = .rq n →
    (s.rq n.val).enable = false →
    ∃ u, exec (.reportIssue t) s = .next u ∧ u.host = { s.host with waiting := rest }) ∧
  (∀ (s : State) (n : Fin 4) (t a : Nat), (s.rq n.val).coalesceSince = some a → n.val < s.host.rqs.length →
    s.coalUs * 3072 ≤ (max s.now t - a) * 125 →
    ∃ u, exec (.coalesceTimer n t) s = .next u ∧
      u.rq n.val = { s.rq n.val with coalesce := 0, coalesceSince := none } ∧
      (s.msixMasked (1 + n.val) = false → u.out = .msix (1 + n.val) ((s.reg (msixWordAt (1 + n.val) 0)).toNat +
        2 ^ 32 * (s.reg (msixWordAt (1 + n.val) 1)).toNat) (s.reg (msixWordAt (1 + n.val) 2)) :: s.out) ∧
      (s.msixMasked (1 + n.val) = true → (u.reg msixPending).getLsbD (1 + n.val) = true ∧ u.out = s.out)) ∧
  (∀ (s : State) (t : Nat) (w : WaitingReport), s.host.waiting.find? (s.advance t).heldTooLong = some w →
    ∃ u, exec (.reportHoldExpiry t) s = .next u ∧ ∀ x, x ∈ s.host.waiting.erase w → x ∈ u.host.waiting) ∧
  (∀ (s : State) (speed width t : Nat),
    ∃ u, exec (.pciePerstN false speed width t) s = .next u ∧ u.pins.perstLow = true ∧ u.host.speed = 0 ∧ u.host.width = 0 ∧
      ∀ n, u.cqOpen n = false) ∧
  (∀ (s : State) (speed width t : Nat) (n : Fin 4), s.pins.perstLow = true → n.val < s.host.cqs.length → n.val < s.host.rqs.length →
    ∃ u, exec (.pciePerstN true speed width t) s = .next u ∧ u.pins.perstLow = false ∧ u.host.speed = speed ∧ u.host.width = width ∧
      u.cq n.val = ⟨0, 0⟩ ∧ (u.rq n.val).enable = false ∧ (u.rq n.val).sizeLog2 = 0 ∧ (u.rq n.val).head = 0 ∧ (u.rq n.val).tail = 0)

/-- ETHERNET_FRAME (R415, R416, R419 to R421): a whole frame that passes the filter and brings the next message of its association is delivered and
will be acknowledged; a repeat is acknowledged again and not delivered; a frame with a failed FCS, and one that the filter turns away, change
nothing of the ports; a PTP message of a kind that the slave does not support is counted and discarded (R91).

MESSAGE_RESEND, STANDALONE_ACK and BUNDLE_RESEND (R420, R421): a message that is due is sent again with its number and its wait doubled, its
frames under the peer's key; after eight resends the peer is down; what was received is acknowledged; bundles that are due go to the head end
again as messages of their own, sealed anew.

GATE_CHANGE and ETH_LINK_CHANGE (R418, R541): the gates of a port that is on become those that its list holds now, and a frame that waited for
them starts; a link is up where it trains, meets no LOS and the port is on, and a change of it raises its interrupt bit. -/
def Obligations.EthernetMessagesAreDeliveredOnce : Prop :=
  (∀ (s : State) (p : Fin 2) (f : EthFrame) (m : EthMsg) (i : Fin 32) (sender seq : BitVec 32) (t : Nat), (s.ethPort p.val).link = true →
    f.content = .message m → f.fcsOk = true → s.filterPass p.val f.dst = true → s.vlanOk p.val f.vid = true →
    s.ethTarget p.val f = .message → f.length ≤ s.item (ethItem p.val iMaxFrameEth0) → s.peerOf p f.src = some i →
    ethMsgOk m (s.peer i.val).peerId = true → s.cmacUnder (s.peer i.val).keySlot (messageCovered m) = some m.cmac →
    (s.assoc (assocKey p i)).peerEpoch = some m.epoch → (s.assoc (assocKey p i)).waiting = [] →
    m.seq = (s.assoc (assocKey p i)).nextRx → m.frags = 1 → (s.assoc (assocKey p i)).frags = [] →
    m.body = .bundleAck sender seq → m.part = m.body.bytes →
    ∃ u, exec (.ethernetFrame p f t) s = .next u ∧ (u.assoc (assocKey p i)).nextRx = (m.seq + 1) % 2 ^ 32 ∧
      (u.assoc (assocKey p i)).ackDue = true ∧
      u.eth.heldBundles = s.eth.heldBundles.filter
        fun h => decide (¬(h.bundle.senderId = sender ∧ h.bundle.seq = seq))) ∧
  (∀ (s : State) (p : Fin 2) (f : EthFrame) (m : EthMsg) (i : Fin 32) (t : Nat), (s.ethPort p.val).link = true →
    f.content = .message m → f.fcsOk = true → s.filterPass p.val f.dst = true → s.vlanOk p.val f.vid = true →
    s.ethTarget p.val f = .message → f.length ≤ s.item (ethItem p.val iMaxFrameEth0) → s.peerOf p f.src = some i →
    ethMsgOk m (s.peer i.val).peerId = true → s.cmacUnder (s.peer i.val).keySlot (messageCovered m) = some m.cmac →
    (s.assoc (assocKey p i)).peerEpoch = some m.epoch → (s.assoc (assocKey p i)).waiting = [] → m.body ≠ .ack →
    m.seq + 1 = (s.assoc (assocKey p i)).nextRx → (s.assoc (assocKey p i)).nextRx < 2 ^ 32 →
    ∃ u, exec (.ethernetFrame p f t) s = .next u ∧ (u.assoc (assocKey p i)).nextRx = (s.assoc (assocKey p i)).nextRx ∧
      (u.assoc (assocKey p i)).ackDue = true ∧ u.eth.heldBundles = s.eth.heldBundles ∧ u.host = s.host ∧ u.ing = s.ing) ∧
  (∀ (s : State) (p : Fin 2) (f : EthFrame) (t : Nat), (s.ethPort p.val).link = true → f.content ≠ .pause →
    (f.fcsOk = false ∨ s.filterPass p.val f.dst = false ∨ s.vlanOk p.val f.vid = false) →
    ∃ u, exec (.ethernetFrame p f t) s = .next u ∧ s.keepsBut [.now, .regs] u) ∧
  (∀ (s : State) (p : Fin 2) (f : EthFrame) (t : Nat), (s.ethPort p.val).link = true → f.content ≠ .pause →
    f.fcsOk = true → s.filterPass p.val f.dst = true → s.vlanOk p.val f.vid = true → s.ethTarget p.val f = .ptp →
    ptpRefused f = true → f.length ≤ s.item (ethItem p.val iMaxFrameEth0) →
    exec (.ethernetFrame p f t) s = .next (((s.advance t).bump (cEthFramesRx p.val)).bump (cEthPtpDiscarded p.val))) ∧
  (∀ (s : State) (p : Fin 2) (i : Fin 32) (t : Nat) (m : SentMessage) (f : EthSent), (s.assoc (assocKey p i)).down = false →
    ((s.assoc (assocKey p i)).unacked.find? fun m => decide (m.due ≤ max s.now t)) = some m → m.resends < 8 →
    s.keyUsable (s.peer i.val).keySlot = true → s.messageFrames (assocKey p i) m.seq m.body = [f] → (s.advance t).frameLeaves f →
    ∃ u, exec (.messageResend p i t) s = .next u ∧ u.out = .ethFrame f :: s.out ∧ (u.assoc (assocKey p i)).ackDue = false ∧
      (u.assoc (assocKey p i)).unacked = (s.assoc (assocKey p i)).unacked.map fun x =>
        if x.seq = m.seq then { m with resends := m.resends + 1, due := max s.now t + s.rtoTicks * 2 ^ (m.resends + 1) } else x) ∧
  (∀ (s : State) (p : Fin 2) (i : Fin 32) (t : Nat) (m : SentMessage), (s.assoc (assocKey p i)).down = false →
    ((s.assoc (assocKey p i)).unacked.find? fun m => decide (m.due ≤ max s.now t)) = some m → 8 ≤ m.resends →
    ∃ u, exec (.messageResend p i t) s = .next u ∧ (u.assoc (assocKey p i)).down = true ∧ u.out = s.out) ∧
  (∀ (s : State) (p : Fin 2) (i : Fin 32) (t : Nat) (f : EthSent), (s.assoc (assocKey p i)).ackDue = true →
    s.keyUsable (s.peer i.val).keySlot = true → s.messageFrames (assocKey p i) 0 .ack = [f] → (s.advance t).frameLeaves f →
    ∃ u, exec (.standaloneAck p i t) s = .next u ∧ u.out = .ethFrame f :: s.out ∧
      u.eth = { s.eth with assocs := Table.set Assoc.fresh s.eth.assocs (assocKey p i) { s.assoc (assocKey p i) with ackDue := false } }) ∧
  (∀ (s : State) (t : Nat) (i : Fin 32) (rest : List (Fin 32)), s.peersWith 2 = i :: rest →
    (s.assoc (assocKey (s.peer i.val).usePort i)).down = false → (s.ethPort (s.peer i.val).usePort.val).link = true →
    ∃ u, exec (.bundleResend t) s = .next u ∧
      u.eth.heldBundles = s.eth.heldBundles.map fun h =>
        if h.due ≤ max s.now t then { h with due := max s.now t + 2 * ticksPerSec } else h) ∧
  (∀ (s : State) (t : Nat) (i : Fin 32) (rest : List (Fin 32)) (h : HeldBundle) (b : RelayBundle), s.peersWith 2 = i :: rest →
    (s.assoc (assocKey (s.peer i.val).usePort i)).down = false → (s.ethPort (s.peer i.val).usePort.val).link = true →
    (s.eth.heldBundles.filter fun h => decide (h.due ≤ max s.now t)) = [h] → s.sealBundle h.bundle = some b →
    (s.assoc (assocKey (s.peer i.val).usePort i)).waiting = [] →
    (s.assoc (assocKey (s.peer i.val).usePort i)).unacked.length < s.item iEthWindow →
    ∃ u, exec (.bundleResend t) s = .next u ∧
      (u.assoc (assocKey (s.peer i.val).usePort i)).unacked = (s.assoc (assocKey (s.peer i.val).usePort i)).unacked ++
        [⟨(s.assoc (assocKey (s.peer i.val).usePort i)).nextTx, .bundle b, 0, max s.now t + s.rtoTicks⟩]) ∧
  (∀ (s : State) (p : Fin 2) (t : Nat), (s.ethPort p.val).mode ≠ 0 → p.val < s.eth.ports.length →
    ∃ u, exec (.gateChange p t) s = .next u ∧ (u.ethPort p.val).gates = (s.advance t).gatesAt p.val (s.advance t).wallNs ∧
      s.keepsBut [.now, .eth, .regs, .out] u) ∧
  (∀ (s : State) (p : Fin 2) (f : EthSent) (t : Nat), (s.ethPort p.val).mode ≠ 0 → p.val < s.eth.ports.length →
    (s.ethPort p.val).link = true → (s.ethPort p.val).queue = [f] → f.traffic < 8 →
    ((s.advance t).applyGates p.val).gateLets f = true →
    ∃ u, exec (.gateChange p t) s = .next u ∧ u.out = .ethFrame f :: s.out ∧ (u.ethPort p.val).queue = []) ∧
  (∀ (s : State) (p : Fin 2) (t : Nat), (s.ethPort p.val).mode = 0 → exec (.gateChange p t) s = .next (s.advance t)) ∧
  (∀ (s : State) (p : Fin 2) (up los : Bool) (t : Nat), p.val < s.eth.ports.length →
    ∃ u, exec (.ethLinkChange p up los t) s = .next u ∧ (u.ethPort p.val).los = los ∧
      (u.ethPort p.val).link = (up && !los && decide ((s.ethPort p.val).mode ≠ 0)) ∧ s.keepsBut [.now, .eth, .regs, .out] u)

/-- IDENTIFY, STATUS, AON_COUNTERS, TIME and READ_LOG (R422, R423, R523): a request that is taken is answered with what its command names; a repeat
within 10 s is answered again from the responses kept, and not executed.

SIDEBAND_WAKE, SIDEBAND_RESET and SIDEBAND_JOB (R423, R466): a wake ends STANDBY once the rails are up, and in other modes is answered only; a
verified reset holds the device for SBC; a job is taken with the side-band's rights, under its request. -/
def Obligations.SidebandAnswersAndActs : Prop :=
  (∀ (s : State) (r : SbReq) (t : Nat), (s.advance t).sbTakes r 0 (some (0x00, 0)) → r.collisions = 0 → r.late = false →
    ∃ u, exec (.identify r t) s = .next u ∧
      s.sbAnswers r t 1 (leBytes 8 s.serial.toNat ++ leBytes 2 0x7480 ++ (s.itemBytes iSiteName ++ List.replicate 32 0).take 32 ++
        leBytes 1 s.hwl.nodeId.toNat ++ s.fwVersions.flatMap (leBytes 4)) u) ∧
  (∀ (s : State) (r : SbReq) (t : Nat), (s.advance t).sbTakes r 0 (some (0x30, 0)) → r.collisions = 0 → r.late = false →
    ∃ u, exec (.status r t) s = .next u ∧ s.sbAnswers r t 2 (s.advance t).sbStatus u) ∧
  (∀ (s : State) (r : SbReq) (t : Nat), (s.advance t).sbTakes r 0 (some (0x40, 0)) → r.collisions = 0 → r.late = false →
    ∃ u, exec (.aonCounters r t) s = .next u ∧
      s.sbAnswers r t 3 (leBytes 5 s.way.opTime ++ leBytes 4 s.way.powerCycles ++ leBytes 6 s.cyc.shadow ++
        leBytes 1 (if s.txn.reseedPending = true then 1 else 0)) u) ∧
  (∀ (s : State) (r : SbReq) (t : Nat), (s.advance t).sbTakes r 0 (some (0x180, 0)) → r.collisions = 0 → r.late = false →
    ∃ u, exec (.time r t) s = .next u ∧
      s.sbAnswers r t 4 (time6432 (wallSecOf (s.advance t).wallShown) (wallNsOf (s.advance t).wallShown) ++
        leBytes 1 (if (if s.tim.running = true then s.tim.valid else s.tim.aonValid) = true then 1 else 0) ++
        leBytes 1 (if s.tim.holdover = true then 1 else 0)) u) ∧
  (∀ (s : State) (r : SbReq) (log first count t : Nat), (s.advance t).sbTakes r 6 (some (0x60, 0)) → r.collisions = 0 → r.late = false →
    s.pwr.mode ≠ .standby → s.pwr.mode ≠ .gasp →
    log < 3 → count ≠ 0 → count ≤ 32 →
    ∃ u, exec (.readLog r log first count t) s = .next u ∧ ∃ g, logOf log = some g ∧
      s.sbAnswers r t 5 ((List.range count).flatMap fun k => s.recordSlot g (first + k)) u) ∧
  (∀ (s : State) (r : SbReq) (t : Nat) (c : SbCached), s.sb.up = true → r.fcsOk = true → s.sbAccepts r = true →
    (s.advance t).sbCached r = some c → r.collisions = 0 → r.late = false →
    ∃ u, exec (.identify r t) s = .next u ∧ u.out = .sideband c.response (s.sbFrame c.response) :: s.out ∧ u.sb = s.sb) ∧
  (∀ (s : State) (r : SbReq) (e : StartEnv) (t : Nat), (s.advance t).sbTakes r 0 (some (0x30, 1)) → s.pwr.mode = .standby →
    s.pins.wakePending = false → s.pwr.thermalStandby = false → e.rails = true →
    ∃ u, exec (.sidebandWake r e t) s = .next u ∧ u.rst.cls = .wake ∧ u.pins.mainOk = true) ∧
  (∀ (s : State) (r : SbReq) (e : StartEnv) (t : Nat), (s.advance t).sbTakes r 0 (some (0x30, 1)) → s.pwr.mode ≠ .standby →
    r.collisions = 0 → r.late = false →
    ∃ u, exec (.sidebandWake r e t) s = .next u ∧ s.sbAnswers r t 6 [] u ∧ u.pwr = s.pwr) ∧
  (∀ (s : State) (r : SbReq) (j : Job) (t : Nat), (s.advance t).sbTakes r (64 + j.hdr.attachLen.toNat) (some (0x20, 1)) → s.pwr.mode = .run → j.body.code = 0x26 →
    (s.advance t).signedReason j = none → s.rst.hold = none →
    ∃ u, exec (.sidebandReset r j t) s = .next u ∧ u.rst.hold = some ⟨.sbc, max s.now t, false⟩ ∧ u.hwl.owner = false) ∧
  (∀ (s : State) (r : SbReq) (h : JobHdr) (b : JobBody) (t : Nat), (s.advance t).sbTakes r (64 + h.attachLen.toNat) none →
    ∃ v, s.keepsBut [.now, .regs, .sb] v ∧ v.sb.outstanding = s.sb.outstanding ++ [⟨r.mac, r.reqId, h.jobId⟩] ∧
      exec (.sidebandJob r h b t) s = .next (v.takeJob ⟨{ h with source := .sideband r.mac }, b⟩)) ∧
  (∀ (s : State) (r : SbReq) (h : JobHdr) (o t : Nat), (s.advance t).sbTakes r (64 + h.attachLen.toNat) none →
    (s.advance t).probeTakes { h with source := .sideband r.mac } o →
    ∃ u, exec (.sidebandJob r h (.registerRead o 0) t) s = .next u ∧
      ⟨.sideband r.mac, ⟨.jobResult 0 0 0 [0, 0], .none, true, false, false, h.jobId, s.hwl.nodeId⟩, max s.now t, false⟩ ∈ u.host.waiting)

/-- Every job row (R61, R63, R397, R451): a job that comes to the front of its queue in a mode that does not accept its kind, or without the right it
needs, is answered with a rejection that names why, its slot is consumed, and it changes nothing else of the device than its counters, interrupts
and violation registers. -/
def Obligations.JobsAreRejectedWithoutEffect : Prop :=
  (∀ (c : Instr) (j : Job) (s : State) (n : Fin 4), jobOf c = some j → s.jobComes n j → jobListed j.body.code = true →
    acceptedIn j.body.code s.pwr.mode s.boot.reduced = false →
    ∃ u, exec c s = .next u ∧ s.keepsBut [.now, .host, .regs, .out] u ∧ (u.cq n.val).head = (s.cq n.val).head + 1 ∧
      s.answeredJob j.hdr u.now (.jobResult 1 Reason.mode.code 0 []) .none u) ∧
  (∀ (c : Instr) (j : Job) (s : State) (n : Fin 4) (r : Nat × Nat), jobOf c = some j → s.jobComes n j →
    jobListed j.body.code = true → acceptedIn j.body.code s.pwr.mode s.boot.reduced = true → s.lackedRight 0 j.body = some r →
    ∃ u, exec c s = .next u ∧ s.keepsBut [.now, .host, .regs, .out, .sec, .limits, .way] u ∧
      (u.cq n.val).head = (s.cq n.val).head + 1 ∧
      s.answeredJob j.hdr u.now (.jobResult 1 Reason.access.code 0 []) .none u)

/-- READ_METER, SNAPSHOT_GROUP, METER_STATE_READ, CANCEL, BALANCE_MEMBERSHIP and BUNDLE_SUBMIT (R102, R116, R202, R213, R311, R320, R409): an accepted
read is queued with its job and stays open; a snapshot of a group is pending with its members named; a state read and a probe of a tag are
answered; an outstanding transaction that is cancelled ends; a membership enters its meter's lane; a bundle enters source 7. -/
def Obligations.MeterJobsAreTaken : Prop :=
  (∀ (s : State) (n : Fin 4) (h : JobHdr) (g : Gmn) (o : BitVec 48) (p m t i : Nat), (s.advance t).takesJob n ⟨h, .readMeter g o p m⟩ →
    p ≤ 63 → m = 1 → s.heldIndex g = some i → s.txn.pending.length < 32768 →
    ∃ u, exec (.readMeter h g o p m t) s = .next u ∧ ⟨h.ref, 1, none⟩ ∈ u.host.jobs ∧
      u.txn.pending = s.txn.pending ++ [⟨g, .read o, p, s.cyc.num, true, none, none, some h.ref, .plc, none, none⟩]) ∧
  (∀ (s : State) (n : Fin 4) (h : JobHdr) (k lead t : Nat) (gs : List Gmn), (s.advance t).takesJob n ⟨h, .snapshotGroup k 1 lead gs⟩ →
    (s.balGroupItem k).feed ≠ 0 → s.computes k = true → (s.boot.headEnd = true → (s.balGroupItem k).feed ≠ 3) → (s.bal.snapshots.any fun x => decide (x.group = k)) = false → s.bal.snapshots.length < 16 →
    s.mainsPresent = true →
    ∃ u, exec (.snapshotGroup h k 1 lead gs t) s = .next u ∧ ⟨h.ref, 2, none⟩ ∈ u.host.jobs ∧
      u.bal.nextSnap = (s.bal.nextSnap + 1) % 65536 ∧
      u.bal.snapshots = s.bal.snapshots ++
        [⟨k, s.bal.nextSnap, s.cyc.num + 10 + (if lead = 0 then s.item iSnapLead else lead), ((s.members k).map Prod.fst).dedup, [], [],
          [false, false, false], [false, false, false], 0, none, false, some h.ref⟩]) ∧
  (∀ (s : State) (n : Fin 4) (h : JobHdr) (g : Gmn) (t i : Nat), (s.advance t).takesJob n ⟨h, .meterStateRead g 3⟩ →
    s.heldIndex g = some i →
    ∃ u, exec (.meterStateRead h g 3 t) s = .next u ∧
      s.answeredJob h t (.jobResult 0 0 0 [3, 0]) (.meter (some (s.ctxAt i)) (some (s.slotAt i)) []) u) ∧
  (∀ (s : State) (n : Fin 4) (h : JobHdr) (tag : BitVec 16) (t : Nat) (r : Request), (s.advance t).takesJob n ⟨h, .cancel tag⟩ →
    (s.tagAt (tag.toNat % 1024)).gen = tag.toNat / 1024 → (s.tagAt (tag.toNat % 1024)).outstanding = true →
    (s.tagAt (tag.toNat % 1024)).request = some r →
    ∃ u, exec (.cancel h tag t) s = .next u ∧ (u.tagAt (tag.toNat % 1024)).state = .quarantine ∧
      (u.tagAt (tag.toNat % 1024)).request = none) ∧
  (∀ (s : State) (n : Fin 4) (h : JobHdr) (tag : BitVec 16) (t : Nat), (s.advance t).takesJob n ⟨h, .cancel tag⟩ →
    (s.tagAt (tag.toNat % 1024)).outstanding = false →
    ∃ u, exec (.cancel h tag t) s = .next u ∧ u.txn = s.txn ∧
      s.answeredJob h t (.jobResult 0 0 0 (leBytes 1 (s.tagAt (tag.toNat % 1024)).state.code)) .none u) ∧
  (∀ (s : State) (n : Fin 4) (h : JobHdr) (g : Gmn) (k ph e t i : Nat),
    (s.advance t).takesJob n ⟨h, .balanceMembership g k ph e⟩ → ph ≤ 4 → s.heldIndex g = some i → s.sequences i = true →
    ∃ u, exec (.balanceMembership h g k ph e t) s = .next u ∧ ⟨h.ref, 0x0A, none⟩ ∈ u.host.jobs ∧
      u.ing.inner = s.ing.inner ++ [⟨s.ing.ticket, [], .op (.job (.balanceMembership g k ph e) (some h.ref) false) (laneOf i)⟩]) ∧
  (∀ (s : State) (n : Fin 4) (h : JobHdr) (b : RelayBundle) (t : Nat), (s.advance t).takesJob n ⟨h, .bundleSubmit b⟩ →
    frameLen (s.hostBundle b) ≤ frameLimit 7 → 7 < s.ing.fifos.length →
    ∃ u, exec (.bundleSubmit h b t) s = .next u ∧ s.doneJob h t u ∧
      u.fifo 7 = s.fifo 7 ++
        [⟨s.ing.ticket, fifoData (frameData ((s.advance t).hostBundle b)), .frame ((s.advance t).hostBundle b)⟩])

/-- PUSH_TARIFF_SET, CREDIT_CHANGE, DISCONNECT, RECONNECT, LEGAL_RELEASE, ENROL_METER, REMOVE_METER, KEY_CHANGE and COUNTER_RESET (R63, R116, R180,
R373, R377, R438): an accepted tariff set goes to Fuller; where this node sequences a meter's work, each accepted job on a meter takes the next
ticket of that meter's lane and stays open. -/
def Obligations.LegalAndContextJobsEnterTheirLane : Prop :=
  (∀ (s : State) (n : Fin 4) (h : JobHdr) (k t : Nat) (x : TariffSet), (s.advance t).takesJob n ⟨h, .pushTariffSet k x⟩ →
    s.ownsMeters = true → x.formatOk = true → s.acceptsCert x.cert = true → x.sigOk = true → certCarries x.cert .tariff = true → k ≤ 15 →
    tariffOk x = true → ((s.tariffSlot k).any fun y => decide (x.revision ≤ y.revision)) = false →
    (s.advance t).sec2020 + s.item iTariffLead ≤ x.activate →
    ∃ u, exec (.pushTariffSet h k x t) s = .next u ∧ ⟨h.ref, 0x10, none⟩ ∈ u.host.jobs ∧
      u.ful.queue = s.ful.queue ++ [.tariff k x (some h.ref)]) ∧
  (∀ (s : State) (n : Fin 4) (h : JobHdr) (g : Gmn) (a : Int) (t i : Nat), (s.advance t).takesJob n ⟨h, .creditChange g a⟩ →
    s.ownsMeters = true → s.heldIndex g = some i → (s.ctxAt i).state ≠ .forward → s.mismatched i = false → s.sequences i = true →
    ∃ u, exec (.creditChange h g a t) s = .next u ∧ ⟨h.ref, 0x11, none⟩ ∈ u.host.jobs ∧
      u.ing.inner = s.ing.inner ++ [⟨s.ing.ticket, [], .op (.legal g (.credit a) (some h.ref) false) (laneOf i)⟩]) ∧
  (∀ (s : State) (n : Fin 4) (h : JobHdr) (g : Gmn) (t i : Nat), (s.advance t).takesJob n ⟨h, .disconnect g⟩ →
    s.ownsMeters = true → s.heldIndex g = some i → (s.ctxAt i).state ≠ .forward → s.mismatched i = false → s.sequences i = true →
    ∃ u, exec (.disconnect h g t) s = .next u ∧ ⟨h.ref, 0x12, none⟩ ∈ u.host.jobs ∧
      u.ing.inner = s.ing.inner ++ [⟨s.ing.ticket, [], .op (.legal g (.disconnect false) (some h.ref) false) (laneOf i)⟩]) ∧
  (∀ (s : State) (n : Fin 4) (h : JobHdr) (g : Gmn) (f t i : Nat), (s.advance t).takesJob n ⟨h, .reconnect g f⟩ →
    s.ownsMeters = true → s.heldIndex g = some i → (s.ctxAt i).state ≠ .forward → s.mismatched i = false → s.sequences i = true →
    ∃ u, exec (.reconnect h g f t) s = .next u ∧ ⟨h.ref, 0x13, none⟩ ∈ u.host.jobs ∧
      u.ing.inner = s.ing.inner ++ [⟨s.ing.ticket, [], .op (.legal g (.reconnect (decide (f = 1)) false) (some h.ref) false) (laneOf i)⟩]) ∧
  (∀ (s : State) (n : Fin 4) (h : JobHdr) (g : Gmn) (m t i : Nat), (s.advance t).takesJob n ⟨h, .legalRelease g m⟩ →
    m ≤ 1 → s.heldIndex g = some i → (s.ctxAt i).state ≠ .forward → s.mismatched i = false → s.sequences i = true →
    ∃ u, exec (.legalRelease h g m t) s = .next u ∧ ⟨h.ref, 0x14, none⟩ ∈ u.host.jobs ∧
      u.ing.inner = s.ing.inner ++ [⟨s.ing.ticket, [], .op (.legal g (.release m) (some h.ref) false) (laneOf i)⟩]) ∧
  (∀ (s : State) (n : Fin 4) (h : JobHdr) (a : EnrolArgs) (t i : Nat), (s.advance t).takesJob n ⟨h, .enrolMeter a⟩ →
    a.meterGroup ≤ 15 → a.rating ≤ 15 → a.regPhase ≤ 4 → a.radio ≤ 1 → a.chan ≤ 1 → s.indexFor a.gmn = some i →
    (s.ctxAt i).state = .empty → s.unwrapsBoth a.keySlot a.ekWrapped a.akWrapped = true → s.sequences i = true →
    ∃ u, exec (.enrolMeter h a t) s = .next u ∧ ⟨h.ref, 0x15, none⟩ ∈ u.host.jobs ∧
      u.ing.inner = s.ing.inner ++ [⟨s.ing.ticket, [], .op (.job (.enrolMeter a) (some h.ref) false) (laneOf i)⟩]) ∧
  (∀ (s : State) (n : Fin 4) (h : JobHdr) (g : Gmn) (t i : Nat), (s.advance t).takesJob n ⟨h, .removeMeter g⟩ →
    s.heldIndex g = some i → s.sequences i = true →
    ∃ u, exec (.removeMeter h g t) s = .next u ∧ ⟨h.ref, 0x16, none⟩ ∈ u.host.jobs ∧
      u.ing.inner = s.ing.inner ++ [⟨s.ing.ticket, [], .op (.job (.removeMeter g) (some h.ref) false) (laneOf i)⟩]) ∧
  (∀ (s : State) (n : Fin 4) (h : JobHdr) (g : Gmn) (k t i : Nat) (ek ak : BitVec 192),
    (s.advance t).takesJob n ⟨h, .keyChange g k ek ak⟩ → s.heldIndex g = some i → s.unwrapsBoth k ek ak = true → s.sequences i = true →
    ∃ u, exec (.keyChange h g k ek ak t) s = .next u ∧ ⟨h.ref, 0x17, none⟩ ∈ u.host.jobs ∧
      u.ing.inner = s.ing.inner ++ [⟨s.ing.ticket, [], .op (.job (.keyChange g k ek ak) (some h.ref) false) (laneOf i)⟩]) ∧
  (∀ (s : State) (n : Fin 4) (h : JobHdr) (g : Gmn) (rx tx : BitVec 32) (t i : Nat),
    (s.advance t).takesJob n ⟨h, .counterReset g rx tx⟩ → s.heldIndex g = some i → s.sequences i = true →
    ∃ u, exec (.counterReset h g rx tx t) s = .next u ∧ ⟨h.ref, 0x18, none⟩ ∈ u.host.jobs ∧
      u.ing.inner = s.ing.inner ++ [⟨s.ing.ticket, [], .op (.job (.counterReset g rx tx) (some h.ref) false) (laneOf i)⟩])

/-- DESIGNATE, CLAIM_OWNERSHIP, RELEASE_OWNERSHIP and FORGET_COORDINATE (R363, R374, R378, R380, R382): the true node sends a named meter's whole
state; a designation that names none counts the meters marked; a claim clears INTERLOCK_FAULT and drives ACT_OWN_OUT; a release ends ownership; a
forgotten coordinate is gone and the node is held for an FBC. -/
def Obligations.NodeJobsAct : Prop :=
  (∀ (s : State) (n : Fin 4) (h : JobHdr) (t k : Nat), (s.advance t).takesJob n ⟨h, .designate 0 s.hwl.nodeId (some [k])⟩ →
    k ≤ 16383 → s.mirroring = true → s.hwl.assigned = true → (s.ctxAt k).state ≠ .empty →
    ∃ u, exec (.designate h 0 s.hwl.nodeId (some [k]) t) s = .next u ∧ s.doneJob h t u ∧
      u.hwl.window = s.hwl.window ++ (s.syncBodies k 2).zipIdx.map fun (e : HwlBody × Nat) => (s.hwl.mseqOut + BitVec.ofNat 32 e.2, e.1)) ∧
  (∀ (s : State) (n : Fin 4) (h : JobHdr) (t : Nat) (d : NodeId), (s.advance t).takesJob n ⟨h, .designate 0 d (some [])⟩ →
    ∃ u, exec (.designate h 0 d (some []) t) s = .next u ∧ u.hwl = s.hwl ∧
      s.answeredJob h t (.jobResult 0 0 0 (leBytes 2 (s.hwl.mismatch.filter fun i => decide (i < 16384)).length)) .none u) ∧
  (∀ (s : State) (n : Fin 4) (h : JobHdr) (t : Nat), (s.advance t).takesJob n ⟨h, .claimOwnership⟩ → s.pwr.mode = .run →
    s.boot.headEnd = true → s.hwl.pairMismatch = false → s.hwl.backoffUntil = none → s.hwl.owner = false → s.hwl.claiming = none →
    s.hwl.inHigh = false →
    ∃ u, exec (.claimOwnership h t) s = .next u ∧ s.doneJob h t u ∧
      u.hwl = { s.hwl with interlockFault := false, outHigh := true, claiming := some (max s.now t) }) ∧
  (∀ (s : State) (n : Fin 4) (h : JobHdr) (t : Nat), (s.advance t).takesJob n ⟨h, .releaseOwnership⟩ → s.boot.headEnd = true →
    ∃ u, exec (.releaseOwnership h t) s = .next u ∧ s.doneJob h t u ∧
      u.hwl = { s.hwl with owner := false, outHigh := false, claiming := none }) ∧
  (∀ (s : State) (n : Fin 4) (h : JobHdr) (t : Nat), (s.advance t).takesJob n ⟨h, .forgetCoordinate⟩ → s.pwr.mode = .run →
    s.rst.hold = none →
    ∃ u, exec (.forgetCoordinate h t) s = .next u ∧ s.doneJob h t u ∧ u.nor.coordinate = none ∧ u.hwl.stored = none ∧
      u.rst.hold = some ⟨.fbc, max s.now t, false⟩)

/-- REGISTER_READ, ATTEST, TRIGGER, PULSE and HOST_TIME (R83, R98, R326, R444, R451): a register read answers its words, or with none probes the
right; a quote is counted among those under way; a trigger entry and a pulse schedule are replaced; host time is a sample where the host is the
time source, and changes no time elsewhere. -/
def Obligations.DeviceJobsAct : Prop :=
  (∀ (s : State) (n : Fin 4) (h : JobHdr) (o t : Nat), (s.advance t).takesJob n ⟨h, .registerRead o 0⟩ →
    ∃ u, exec (.registerRead h o 0 t) s = .next u ∧ s.answeredJob h t (.jobResult 0 0 0 [0, 0]) .none u) ∧
  (∀ (s : State) (n : Fin 4) (h : JobHdr) (o k t : Nat), (s.advance t).takesJob n ⟨h, .registerRead o k⟩ → 0 < k → k ≤ 256 →
    ∃ u, exec (.registerRead h o k t) s = .next u ∧
      ∃ ws, ws.length = k ∧ s.answeredJob h t (.jobResult 0 0 0 (leBytes 2 k)) (.words ws) u) ∧
  (∀ (s : State) (n : Fin 4) (h : JobHdr) (x : BitVec 256) (t : Nat), (s.advance t).takesJob n ⟨h, .attest x⟩ →
    (s.sec.quotesUntil.filter fun u => decide (max s.now t < u)).length < 4 →
    ∃ u, exec (.attest h x t) s = .next u ∧ (∃ bs, s.answeredJob h t (.jobResult 0 0 0 []) (.bytes bs) u) ∧
      u.sec.quotesUntil = (s.sec.quotesUntil.filter fun u => decide (max s.now t < u)) ++ [max s.now t + 3 * ticksPerMs]) ∧
  (∀ (s : State) (n : Fin 4) (h : JobHdr) (e src due per t : Nat) (m : TriggerTemplate),
    (s.advance t).takesJob n ⟨h, .trigger e src due per m⟩ → e ≤ 63 → 0 < src → src ≤ 3 → templateValid m = true →
    ∃ u, exec (.trigger h e src due per m t) s = .next u ∧ s.doneJob h t u ∧
      Table.get Trigger.free u.cch.triggers e =
        ⟨src, decide (src = 1 ∧ due ≤ s.cyc.num), due, per, m.kind, m.priority, m.eclass, m.exec, m.coreMask, m.arg.toNat⟩) ∧
  (∀ (s : State) (n : Fin 4) (h : JobHdr) (o a b per w t : Nat), (s.advance t).takesJob n ⟨h, .pulse o a b per w⟩ → o ≤ 1 →
    b < 1000000000 → o < s.tim.pulses.length →
    ∃ u, exec (.pulse h o a b per w t) s = .next u ∧ s.doneJob h t u ∧
      u.tim.pulse o = (s.tim.pulse o).scheduled a b per w (s.advance t).wallNs) ∧
  (∀ (s : State) (n : Fin 4) (h : JobHdr) (a b t : Nat), (s.advance t).takesJob n ⟨h, .hostTime a b⟩ → b < 1000000000 →
    s.item iTimeSource ≠ 4 →
    ∃ u, exec (.hostTime h a b t) s = .next u ∧ s.doneJob h t u ∧ u.tim = s.tim) ∧
  (∀ (s : State) (n : Fin 4) (h : JobHdr) (a b t : Nat), (s.advance t).takesJob n ⟨h, .hostTime a b⟩ → b < 1000000000 →
    s.item iTimeSource = 4 → s.tim.running = true →
    ∃ u, exec (.hostTime h a b t) s = .next u ∧ s.doneJob h t u ∧ u.tim.sourceActive = 3 ∧ u.tim.lastSource = some (3, 0) ∧
      u.tim.holdover = false ∧ u.tim.lastSample = some (max s.now t))

/-- WALL_TIME_STEP, CLEAR_LOG, OPEN_EXPERT_SESSION, DEBUG_TOKEN, RESET and BOOT_HEADER_WRITE (R38, R58, R87, R441, R474, R519): a permit stands for
its window; a log begins to clear, and its job stays open until the erase ends; a session runs for its duration; a token is kept; a reset job
holds the device for SWF once its report waits; a verified boot header replaces the one in NOR. -/
def Obligations.SignedJobsAct : Prop :=
  (∀ (s : State) (n : Fin 4) (h : JobHdr) (w k t : Nat), (s.advance t).takesJob n ⟨h, .wallTimeStep w k⟩ → 0 < w → w ≤ 600 →
    s.item iTimeSource ≠ 0 →
    ∃ u, exec (.wallTimeStep h w k t) s = .next u ∧ s.doneJob h t u ∧ u.tim = { s.tim with permit := some ⟨max s.now t, w, k, h.ref⟩ }) ∧
  (∀ (s : State) (n : Fin 4) (h : JobHdr) (g : LogId) (k t : Nat), (s.advance t).takesJob n ⟨h, .clearLog k⟩ → logOfNumber k = some g →
    (s.way.log g).clearing = false →
    ∃ u, exec (.clearLog h k t) s = .next u ∧ ⟨h.ref, 0x21, none⟩ ∈ u.host.jobs ∧ (u.way.log g).clearing = true ∧
      (u.way.log g).clearJob = some h.ref ∧ (u.way.log g).slots = (s.way.log g).slots) ∧
  (∀ (s : State) (n : Fin 4) (h : JobHdr) (d t : Nat), (s.advance t).takesJob n ⟨h, .openExpertSession d⟩ → 0 < d → d ≤ 3600 →
    ∃ u, exec (.openExpertSession h d t) s = .next u ∧ s.doneJob h t u ∧ u.boot.expertUntil = some (max s.now t + d * ticksPerSec)) ∧
  (∀ (s : State) (n : Fin 4) (h : JobHdr) (x : List Byte) (t : Nat) (e : Envelope), (s.advance t).takesJob n ⟨h, .debugToken x⟩ →
    x.length = 16 → fieldAt x 0 4 = 0x54445856 → fieldAt x 4 2 = 1 → 0 < fieldAt x 6 1 → fieldAt x 6 1 ≤ 16 →
    s.sec.fuses.debugDisable = false → h.envelope = some e →
    ∃ u, exec (.debugToken h x t) s = .next u ∧ s.doneJob h t u ∧
      u.sec.token = some ⟨fieldAt x 6 1, x, jobHead ⟨h, .debugToken x⟩, e⟩) ∧
  (∀ (s : State) (n : Fin 4) (h : JobHdr) (d : NodeId) (t : Nat), (s.advance t).takesJob n ⟨h, .reset d 0⟩ → s.pwr.mode = .run →
    s.rst.hold = none →
    ∃ u, exec (.reset h d 0 t) s = .next u ∧ s.doneJob h t u ∧ u.rst.hold = some ⟨.swf, max s.now t, false⟩ ∧ u.hwl.owner = false) ∧
  (∀ (s : State) (n : Fin 4) (h : JobHdr) (b : BootHeader) (t : Nat), (s.advance t).takesJob n ⟨h, .bootHeaderWrite b false⟩ →
    headerGood b = true →
    ∃ u, exec (.bootHeaderWrite h b false t) s = .next u ∧ s.doneJob h t u ∧ u.nor.bootHeader = some b) ∧
  (∀ (s : State) (n : Fin 4) (h : JobHdr) (b : BootHeader) (f : Bool) (t : Nat), (s.advance t).takesJob n ⟨h, .bootHeaderWrite b f⟩ →
    headerGood b = false →
    ∃ u, exec (.bootHeaderWrite h b f t) s = .next u ∧ u.nor = s.nor ∧ s.answeredJob h t (.jobResult 1 Reason.format.code 0 []) .none u)

/-- UPDATE_DELIVERY, DELIVERY_IDLE_TIMEOUT, PROBATION_DEADLINE and HEALTH_CONFIRMATION (R485 to R487, R497 to R499): an opening block that does not
complete its bundle leaves the delivery open at the next offset; a later block moves it on; a delivery that is idle too long is abandoned; a
probation past its deadline takes an SWF reset; one whose conditions hold is confirmed with its floors. -/
def Obligations.DeliveriesAndProbationRun : Prop :=
  (∀ (s : State) (n : Fin 4) (h : JobHdr) (e : Envelope) (tag : BitVec 32) (total t : Nat) (b : List Byte) (f : Bool),
    (s.advance t).takesJob n ⟨h, .updateDelivery tag 0 total 0 b f⟩ → h.envelope = some e → tag ≠ 0 → 48 ≤ total →
    total ≤ 33554432 → b ≠ [] → b.length < total →
    ∃ u, exec (.updateDelivery h tag 0 total 0 b f t) s = .next u ∧
      u.delivery 0 = some ⟨0, tag, total, b, h.source, h.chain, max s.now t⟩ ∧
      s.answeredJob h t (.jobResult 0 0 0 (deliveryDetail b.length 0xFF true)) .none u) ∧
  (∀ (s : State) (n : Fin 4) (h : JobHdr) (d : Delivery) (total t : Nat) (b : List Byte) (f : Bool),
    (s.advance t).takesJob n ⟨h, .updateDelivery d.tag d.next total d.part b f⟩ → h.envelope = none →
    s.deliveryOf d.part d.tag = some d → d.part ≤ 4 → d.source = h.source → b ≠ [] → d.next + b.length < d.total →
    ∃ u, exec (.updateDelivery h d.tag d.next total d.part b f t) s = .next u ∧
      u.delivery d.part = some { d with bytes := d.bytes ++ b, lastBlock := max s.now t }) ∧
  (∀ (s : State) (d : Delivery) (t : Nat), d ∈ s.upd.deliveries → d.lastBlock + s.item iDeliveryIdle * ticksPerSec ≤ max s.now t →
    ∃ u, exec (.deliveryIdleTimeout t) s = .next u ∧ u.delivery d.part = none) ∧
  (∀ (s : State) (t : Nat), s.updRec.state = .probation → s.updRec.deadline ≠ 0 → s.updRec.deadline < s.way.opTime →
    s.pwr.mode = .run → s.rst.hold = none →
    ∃ u, exec (.probationDeadline t) s = .next u ∧ u.rst.hold = some ⟨.swf, max s.now t, false⟩) ∧
  (∀ (s : State) (t : Nat), s.updRec.state = .probation → (s.advance t).healthy = true →
    s.upd.step15Op + s.updRec.healthSoak ≤ s.way.opTime →
    ∃ u, exec (.healthConfirmation t) s = .next u ∧ u.updRec.state = .idle ∧ u.updRec.lastResult = 1 ∧
      u.nor.cfgFloor = max s.nor.cfgFloor s.updRec.pendingCfgFloor ∧
      ∀ k, k < 5 → u.updRec.floors.getD k 0 = max (s.updRec.floors.getD k 0) (s.updRec.pendingFloors.getD k 0))

/-- CAMPAIGN_START, CAMPAIGN_ROUND, CAMPAIGN_BLOCK and STATUS_ROUND (R502 to R505): a campaign starts with its next identity and three announcements;
after the last one its pass begins with every block; each block goes out once in its pass; a status round reads every pending meter. -/
def Obligations.CampaignsAdvance : Prop :=
  (∀ (s : State) (n : Fin 4) (h : JobHdr) (a : CampaignArgs) (img : MeterImage) (t : Nat), (s.advance t).takesJob n ⟨h, .campaignStart a⟩ →
    a.campaign ≤ 3 → a.abort = false → a.gmns ≠ [] → s.camp a.campaign = none → campaignArgsOk a = true →
    Table.get none s.upd.meterSlots a.slot = some img →
    ∃ u v, exec (.campaignStart h a t) s = .next u ∧ u.camp a.campaign = some v ∧ v.id = s.upd.nextCampaign ∧ v.args = a ∧ v.image = img ∧
      v.phase = .announcing ∧ v.announcesLeft = 3 ∧ v.job = h.ref ∧ u.upd.nextCampaign = (s.upd.nextCampaign + 1) % 65536) ∧
  (∀ (s : State) (c : Fin 4) (v : Campaign) (x t : Nat), s.camp c.val = some v → s.campExecutor c.val = some x → s.pendingFull = false →
    v.phase = .announcing → 1 < v.announcesLeft → v.due ≤ max s.now t →
    ∃ u, exec (.campaignRound c t) s = .next u ∧
      u.camp c.val = some { v with announcesLeft := v.announcesLeft - 1, due := max s.now t + 10 * ticksPerSec }) ∧
  (∀ (s : State) (c : Fin 4) (v : Campaign) (x t : Nat), s.camp c.val = some v → s.campExecutor c.val = some x → s.pendingFull = false →
    v.phase = .announcing → v.announcesLeft = 1 → v.due ≤ max s.now t →
    ∃ u, exec (.campaignRound c t) s = .next u ∧
      u.camp c.val = some { v with phase := .pass, announcesLeft := 0, toSend := List.range v.blocks, due := max s.now t }) ∧
  (∀ (s : State) (c : Fin 4) (v : Campaign) (x t b k : Nat) (bs : List Nat), s.camp c.val = some v → s.campExecutor c.val = some x →
    s.pendingFull = false → v.phase = .pass → v.announcesLeft = 0 → v.toSend = b :: k :: bs → v.due ≤ max s.now t →
    ∃ u, exec (.campaignBlock c t) s = .next u ∧
      u.camp c.val = some { v with toSend := k :: bs, blocksSent := v.blocksSent + 1,
                                   due := max s.now t + s.item iCampaignBlockGap * ticksPerMs }) ∧
  (∀ (s : State) (c : Fin 4) (v : Campaign) (t : Nat), s.camp c.val = some v → v.phase = .waiting → v.due ≤ max s.now t →
    s.cch.allows 3 = true → s.pendingFull = false →
    ∃ u, exec (.statusRound c t) s = .next u ∧
      u.camp c.val = some { v with phase := .statusRound, meters := v.meters.map fun (m : CampMeter) =>
        if m.state = .pending then { m with reading := true, heard := false } else m })

/-- REGISTER_WRITE and LOW_WORD_READ (R10 to R12, R452): a granted write stores the bits that are writable now and clears the W1C bits written with
one, and changes nothing else; a misaligned one, and one to an unlisted page, reach no register; a refused one is latched as a violation, and both
complete with an error response; a read answers the register, or the high word that a read of the low word latched. The window's place in the
device map reaches the same registers; memory that the map holds reads what was written; an access that no entry answers reads all ones with an
error response (R25). -/
def Obligations.RegistersReadAndWrite : Prop :=
  (∀ (s : State) (m : Master) (a : Nat) (v : Word) (t : Nat) (r : RegRow), s.checkAccess m a 4 1 = .open → regRowAt a = some r →
    s.writeIgnored r = false → a ≠ 0x070010 → ¬(0x081000 ≤ a ∧ a < 0x083000) → ¬(0x060800 ≤ a ∧ a < 0x060840) →
    ¬(0x061000 ≤ a ∧ a < 0x061020) → ¬(0x1D0100 ≤ a ∧ a < 0x1D0280) →
    a ≠ 0x120200 → ¬(0x120140 ≤ a ∧ a < 0x12016C) →
    exec (.registerWrite .bar0 m a 4 v t) s = .next ((s.advance t).setReg a
      (((s.reg a &&& ~~~(s.writeMask r)) ||| (v &&& s.writeMask r)) &&& ~~~(v &&& r.w1c)))) ∧
  (∀ (s : State) (m : Master) (a size : Nat) (v : Word) (t : Nat), s.checkAccess m a size 1 = .reserved →
    exec (.registerWrite .bar0 m a size v t) s = .next ((s.advance t).emit (.busError m.val a))) ∧
  (∀ (s : State) (m : Master) (a size : Nat) (v : Word) (t : Nat), s.checkAccess m a size 1 = .refused →
    ∃ u, exec (.registerWrite .bar0 m a size v t) s = .next u ∧ (∃ o, u.out = .busError m.val a :: o) ∧
      u.sec.violation = some ⟨m, 1, s.accFixed m (a / 4096) 1, a / 4096, windowBase + a⟩ ∧ s.keepsBut [.now, .regs, .sec, .out, .limits, .way, .host] u) ∧
  (∀ (s : State) (m : Master) (a t : Nat), s.checkAccess m a 4 0 = .open → Table.get none s.latches (latchKey a m) = none →
    ∃ u, exec (.lowWordRead .bar0 m false a 4 t) s = .next u ∧ u.out = .readData m.val a ((s.advance t).readReg a) :: s.out ∧
      s.keepsBut [.now, .latches, .out] u) ∧
  (∀ (s : State) (m : Master) (a t : Nat) (w : Word), s.checkAccess m a 4 0 = .open → Table.get none s.latches (latchKey a m) = some w →
    ∃ u, exec (.lowWordRead .bar0 m false a 4 t) s = .next u ∧ u.out = .readData m.val a w :: s.out) ∧
  (∀ (s : State) (m : Master) (a : Nat) (v : Word) (t : Nat), a + 4 ≤ 0x1000000 → s.checkAccess m a 4 1 = .open →
    exec (.registerWrite .device m (windowBase + a) 4 v t) s = exec (.registerWrite .bar0 m a 4 v t) s) ∧
  (∀ (s : State) (m : Master) (p k : Nat) (v : Word) (t : Nat), k = 1 ∨ k = 2 ∨ k = 4 → s.busCheck m 1 p k = .memory →
    p < 0x40000000 ∨ 0x100000000 ≤ p → Table.Wf none s.mem →
    ∃ u, exec (.registerWrite .device m p k v t) s = .next u ∧ u.memBytes p k = leBytes k v.toNat ∧ s.keepsBut [.now, .mem] u ∧
      ∀ q, q < p ∨ p + k ≤ q → u.memBytes q 1 = s.memBytes q 1) ∧
  (∀ (s : State) (m : Master) (f : Bool) (p k t : Nat), s.busCheck m (if f = true then 2 else 0) p k = .memory →
    ∃ u, exec (.lowWordRead .device m f p k t) s = .next u ∧
      u.out = .readData m.val p (BitVec.ofNat 32 (leNat (s.memBytes p k))) :: s.out ∧ u.mem = s.mem) ∧
  (∀ (s : State) (m : Master) (f : Bool) (p k t : Nat), s.busCheck m (if f = true then 2 else 0) p k = .unmapped →
    ∃ u o, exec (.lowWordRead .device m f p k t) s = .next u ∧ u.out = .readData m.val p 0xFFFFFFFF :: .busError m.val p :: o ∧
      u.mem = s.mem)

/-- KEY_DESTROY and KEY_PURGE (R434, R435): in an expert session a granted write of an owner slot's index begins its invalidation and leaves the slot
usable until then; the purge raises its generation and its floor and empties it; indices 0 to 7 change nothing.

EVENT_PORT_SUBMIT, LEGAL_PORT_SUBMIT and BUFFER_PROGRAM (R512, R515 to R517): a defined record of a permitted master enters the buffer with the
stamps of Waybill while the log has room, undecided while it clears; one of another master enters nothing; a buffered record is programmed into
the next slot of its log, and a clear whose erase is done leaves its clear record first and answers its job. -/
def Obligations.KeysAndLogsAct : Prop :=
  (∀ (s : State) (m : Master) (v : Word) (t : Nat), s.checkAccess m 0x070010 4 1 = .open → s.expertActive = true →
    s.sec.destroyBusy = none → 8 ≤ v.toNat % 256 →
    ∃ u, exec (.keyDestroy m v t) s = .next u ∧ u.sec = { s.sec with destroyBusy := some (v.toNat % 256) } ∧
      (u.reg 0x070010).toNat % 256 = v.toNat % 256 ∧ s.keepsBut [.now, .sec, .regs] u) ∧
  (∀ (s : State) (m : Master) (v : Word) (t : Nat), s.checkAccess m 0x070010 4 1 = .open → v.toNat % 256 < 8 →
    ∃ u, exec (.keyDestroy m v t) s = .next u ∧ u.sec = s.sec ∧ s.keepsBut [.now, .regs] u) ∧
  (∀ (s : State) (t k : Nat), s.sec.destroyBusy = some k → s.sec.testRoot = false → s.descendants k = [] → (s.keySlot k).kind ≠ 0 →
    Table.Wf KeySlot.empty s.sec.slots →
    ∃ u, exec (.keyPurge t) s = .next u ∧ u.sec.destroyBusy = none ∧ u.keySlot k = KeySlot.empty ∧
      u.genEntry k = ⟨(s.genEntry k).gen + 1, max (s.genEntry k).floor ((s.keySlot k).version.toNat + 1), (s.genEntry k).version⟩ ∧
      ∀ j, j ≠ k → u.keySlot j = s.keySlot j ∧ u.genEntry j = s.genEntry j) ∧
  (∀ (s : State) (q : Fin 2) (m : Master) (v : Word) (t : Nat), s.checkAccess m (0x060800 + 0x20 * q.val + 24) 4 1 = .open → m = 4 ∨ m = 6 →
    v ≠ 0 → portDefined (s.portWord q.val 2 / 2 ^ 8 % 2 ^ 8) (s.portWord q.val 2 / 2 ^ 16 % 2 ^ 8) (s.portWord q.val 2 / 2 ^ 24 % 2 ^ 4) = true →
    s.way.ready = true → s.way.buffer.length < 256 → (s.way.log (if q.val = 0 then .security else .operations)).full = false →
    s.way.freeOrdinary (if q.val = 0 then .security else .operations) ≠ 0 →
    ∃ u, exec (.eventPortSubmit q m v t) s = .next u ∧ u.way.buffer = s.way.buffer ++
      [⟨if q.val = 0 then .security else .operations,
        ⟨s.way.opTime, s.way.powerCycles, BitVec.ofNat 8 (s.portWord q.val 2 / 2 ^ 8 % 2 ^ 8), BitVec.ofNat 8 (s.portWord q.val 2 / 2 ^ 16 % 2 ^ 8),
          BitVec.ofNat 4 (s.portWord q.val 2 / 2 ^ 24 % 2 ^ 4),
          BitVec.ofNat 128 (s.portWord q.val 3 + 2 ^ 32 * s.portWord q.val 4 + 2 ^ 64 * s.portWord q.val 5 + 2 ^ 96 * v.toNat)⟩,
        !(s.way.log (if q.val = 0 then .security else .operations)).clearing⟩]) ∧
  (∀ (s : State) (q : Fin 2) (m : Master) (v : Word) (t : Nat), s.checkAccess m (0x060800 + 0x20 * q.val + 24) 4 1 = .open → m ≠ 4 → m ≠ 6 →
    ∃ u, exec (.eventPortSubmit q m v t) s = .next u ∧ u.way.buffer = s.way.buffer ∧ u.way.security = s.way.security ∧
      u.way.operations = s.way.operations) ∧
  (∀ (s : State) (v : Word) (t : Nat), s.checkAccess 5 0x061018 4 1 = .open → v ≠ 0 →
    portDefined (s.portWord 2 2 / 2 ^ 8 % 2 ^ 8) (s.portWord 2 2 / 2 ^ 16 % 2 ^ 8) (s.portWord 2 2 / 2 ^ 24 % 2 ^ 4) = true →
    s.way.ready = true → s.way.buffer.length < 256 → s.way.legal.full = false → s.way.freeOrdinary .legal ≠ 0 →
    ∃ u, exec (.legalPortSubmit 5 v t) s = .next u ∧ u.way.buffer = s.way.buffer ++
      [⟨.legal, ⟨s.way.opTime, s.way.powerCycles, BitVec.ofNat 8 (s.portWord 2 2 / 2 ^ 8 % 2 ^ 8), BitVec.ofNat 8 (s.portWord 2 2 / 2 ^ 16 % 2 ^ 8),
          BitVec.ofNat 4 (s.portWord 2 2 / 2 ^ 24 % 2 ^ 4),
          BitVec.ofNat 128 (s.portWord 2 3 + 2 ^ 32 * s.portWord 2 4 + 2 ^ 64 * s.portWord 2 5 + 2 ^ 96 * v.toNat)⟩, true⟩]) ∧
  (∀ (s : State) (m : Master) (v : Word) (t : Nat), m ≠ 5 →
    ∃ u, exec (.legalPortSubmit m v t) s = .next u ∧ u.way.legal = s.way.legal ∧
      (u.way.buffer.filter fun e => decide (e.log = .legal)) = s.way.buffer.filter fun e => decide (e.log = .legal)) ∧
  (∀ (s : State) (t : Nat) (e : BufferedEvent), s.way.ready = true → s.way.buffer = [e] → e.decided = true → (s.way.log e.log).clearing = false →
    (s.way.log e.log).slots.length < logCapacity e.log - 1 → ((s.way.log e.log).header.map LogHeader.state) ≠ some 2 →
    ∃ u, exec (.bufferProgram [] [] t) s = .next u ∧ u.way.buffer = [] ∧
      (u.way.log e.log).slots = (s.way.log e.log).slots ++ [.valid e.record]) ∧
  (∀ (s : State) (t : Nat) (j : JobRef), s.way.ready = true → s.way.buffer = [] → s.way.operations.clearing = true →
    s.way.operations.clearJob = some j →
    ∃ u, exec (.bufferProgram [] [false, false, true] t) s = .next u ∧ u.way.operations.clearing = false ∧ u.way.operations.full = false ∧
      u.way.operations.lost = 0 ∧ (∃ r rest, u.way.operations.slots = .valid r :: rest ∧ r.source = 6 ∧ r.code = 0x80) ∧
      ∀ o, o ∈ u.host.jobs → o.ref ≠ j)

/-- What the rows of the supplies, resets, modes and clocks change at most; whatever else the state holds stands as it stood: other parts of the
device, its stores, and the queue.

What the rows of ingest, validation, Troika, the balance and the two meter media change at most; whatever else the state holds stands as it stood:
other parts of the device, its stores, and the queue. -/
def Obligations.FramesOfPowerTimeAndMeterRows : Prop :=
  (∀ t, Framed (.powerUpSequence t) [.now, .pins]) ∧
  (∀ t, Framed (.mainRailTimeout t) [.now, .pwr, .pins, .sb]) ∧
  (∀ t, Framed (.mainRailDrop t) (allBut [.pending])) ∧
  (∀ e t, Framed (.powerOnReset e t) (allBut [.pending])) ∧
  (∀ e t, Framed (.hrst e t) (allBut [.pending])) ∧
  (∀ t, Framed (.wrm t) [.now, .regs, .limits, .out, .way, .rst, .host, .hwl, .ful]) ∧
  (∀ e t, Framed (.holdComplete e t) (allBut [.pending])) ∧
  (∀ e t, Framed (.holdTimeout e t) (allBut [.pending])) ∧
  (∀ e t, Framed (.bootWatchdogExpiry e t) (allBut [.pending])) ∧
  (∀ t, Framed (.appHeartbeat t) [.now, .rst]) ∧
  (∀ t, Framed (.watchdogPending t) [.now, .regs, .out, .way, .rst, .host, .hwl]) ∧
  (∀ t, Framed (.sysWatchdogExpiry t) [.now, .regs, .limits, .out, .way, .rst, .host, .hwl, .ful]) ∧
  (∀ t, Framed (.swpEscalation t) [.now, .regs, .limits, .out, .way, .rst, .host, .hwl, .ful]) ∧
  (∀ t, Framed (.legalWatchdogExpiry t) [.now, .regs, .out, .way, .host, .bil, .lgc]) ∧
  (∀ t, Framed (.legalWatchdogEscalation t) [.now, .regs, .limits, .out, .way, .rst, .host, .hwl, .ful]) ∧
  (∀ low t, Framed (.pfailNChange low t) [.now, .regs, .limits, .out, .boot, .way, .pwr, .rst, .host, .cch, .upd, .tim, .ing, .val, .hwl, .bil, .ful, .readings]) ∧
  (∀ vscap powerMw t, Framed (.modeEvaluation vscap powerMw t) [.now, .regs, .limits, .out, .boot, .way, .pwr, .rst, .host, .cch, .upd, .tim, .ing, .val, .hwl, .bil, .ful, .readings]) ∧
  (∀ t, Framed (.gaspFullerDeadline t) [.now, .regs, .limits, .out, .way, .pwr, .host, .ful]) ∧
  (∀ t, Framed (.standbyEntry t) (allBut [.pending])) ∧
  (∀ t, Framed (.rideTimeExpiry t) [.now, .regs, .limits, .out, .boot, .way, .pwr, .rst, .host, .cch, .upd, .tim, .ing, .val, .hwl, .bil, .ful, .readings]) ∧
  (∀ t0 t1 t2 t3 t, Framed (.temperatureSample t0 t1 t2 t3 t) [.now, .regs, .limits, .out, .boot, .way, .pwr, .rst, .host, .cch, .upd, .tim, .ing, .val, .hwl, .bil, .ful, .readings]) ∧
  (∀ t, Framed (.thermalClear t) [.now, .regs, .limits, .out, .boot, .way, .pwr, .rst, .host, .cch, .upd, .tim, .ing, .val, .hwl, .bil, .ful, .readings]) ∧
  (∀ e t, Framed (.wakeNLow e t) (allBut [.pending])) ∧
  (∀ periods e t, Framed (.standbyMainsReturn periods e t) (allBut [.pending])) ∧
  (∀ e t, Framed (.thermalWake e t) (allBut [.pending])) ∧
  (∀ phase w m t, Framed (.zeroCrossing phase w m t) (allBut [.pending, .draws, .latches, .cfg, .boot, .sec, .pwr, .rst, .pins, .sb, .upd, .val, .lgc, .readings, .mem])) ∧
  (∀ phase t, Framed (.phaseAbsent phase t) (allBut [.pending, .draws, .latches, .cfg, .boot, .sec, .pwr, .rst, .pins, .sb, .upd, .val, .lgc, .readings, .mem])) ∧
  (∀ t, Framed (.syntheticCycle t) (allBut [.pending, .draws, .latches, .cfg, .boot, .sec, .pwr, .rst, .pins, .sb, .upd, .val, .lgc, .readings, .mem])) ∧
  (∀ t, Framed (.rtcTick t) [.now, .cyc, .tim]) ∧
  (∀ t, Framed (.operatingTimeTick t) [.now, .way]) ∧
  (∀ t, Framed (.operatingTimePersist t) [.now, .way]) ∧
  (∀ t, Framed (.aonTimeRefresh t) [.now, .tim]) ∧
  (∀ h t1 sub t, Framed (.sync h t1 sub t) [.now, .regs, .out, .way, .host, .eth, .upd, .tim]) ∧
  (∀ h t1 t, Framed (.followUp h t1 t) [.now, .regs, .out, .way, .host, .eth, .upd, .tim]) ∧
  (∀ h t4 t, Framed (.delayResp h t4 t) [.now, .tim]) ∧
  (∀ port sub t, Framed (.delayReqSend port sub t) [.now, .regs, .out, .tim]) ∧
  (∀ h a t, Framed (.ptpAnnounce h a t) [.now, .regs, .out, .way, .host, .tim]) ∧
  (∀ port master t, Framed (.masterTimeout port master t) [.now, .tim]) ∧
  (∀ t, Framed (.proportionalEnd t) [.now, .tim]) ∧
  (∀ t, Framed (.stepPermitExpiry t) [.now, .tim]) ∧
  (∀ t, Framed (.leapSecond t) [.now, .tim]) ∧
  (∀ t, Framed (.expertSessionExpiry t) [.now, .regs, .out, .boot, .way, .host]) ∧
  (∀ t, Framed (.nonceExpiry t) [.now, .sec]) ∧
  (∀ output t, Framed (.pulseInstant output t) [.now, .regs, .out, .cch, .tim]) ∧
  (∀ output t, Framed (.pulseFall output t) [.now, .out, .tim]) ∧
  (∀ port traffic bytes launchSec launchNs ahead t, Framed (.launch port traffic bytes launchSec launchNs ahead t) [.now, .regs, .out, .eth]) ∧
  (∀ t, Framed (.beaconLaunch t) [.now, .regs, .out, .plc]) ∧
  (∀ radio t, Framed (.rfBeaconLaunch radio t) [.now, .regs, .out, .rfm]) ∧
  (∀ f, Framed (.ingestFrame f) [.regs, .out, .way, .host, .ing]) ∧
  (Framed (.steering) [.regs, .limits, .out, .way, .host, .ing]) ∧
  (∀ src, Framed (.creditReturn src) [.ing]) ∧
  (∀ t, Framed (.bundleSplit t) [.now, .regs, .limits, .out, .way, .host, .eth, .ing]) ∧
  (∀ lane ecc t, Framed (.contextFill lane ecc t) [.now, .regs, .limits, .out, .way, .host, .ctx, .ing]) ∧
  (∀ lane badRead t, Framed (.laneProcessing lane badRead t) (allBut [.pending, .draws, .latches, .cfg, .boot, .sec, .pwr, .rst, .pins, .sb, .cyc, .tim, .bil, .lgc, .met, .readings, .mem])) ∧
  (∀ verified built status t, Framed (.firmwareRecordBuild verified built status t) [.now, .regs, .limits, .out, .way, .host, .cch, .txn, .upd, .ctx, .ing, .plc, .rfm]) ∧
  (∀ lane t, Framed (.contextOperation lane t) [.now, .regs, .limits, .out, .sec, .way, .host, .cch, .txn, .upd, .ctx, .ing, .hwl, .bil, .ful, .plc, .rfm]) ∧
  (∀ t, Framed (.contextRestore t) [.now, .sec, .txn, .ctx, .ing, .ful]) ∧
  (∀ lane t, Framed (.mirrorRecord lane t) [.now, .regs, .limits, .out, .way, .host, .ing, .val, .hwl]) ∧
  (∀ boundary t, Framed (.bundleClose boundary t) [.now, .regs, .out, .nor, .host, .eth, .ing]) ∧
  (∀ lane t, Framed (.validate lane t) [.now, .regs, .limits, .out, .way, .host, .val, .hwl]) ∧
  (∀ lane t, Framed (.recordRelease lane t) [.now, .regs, .limits, .out, .nor, .way, .host, .eth, .ctx, .ing, .val, .hwl, .bil, .bal, .ful, .readings]) ∧
  (∀ f a b c t, Framed (.troikaUpdate f a b c t) [.now, .regs, .limits, .out, .way, .host, .cch, .txn, .upd, .ctx, .ing, .hwl, .bil, .met, .ful, .readings]) ∧
  (∀ unit t, Framed (.voteTimeout unit t) [.now, .regs, .limits, .out, .way, .host, .ing, .hwl, .bil, .ful, .readings]) ∧
  (∀ a b c t, Framed (.safeStateTestsDone a b c t) [.now, .regs, .out, .way, .host, .bil]) ∧
  (∀ slot t, Framed (.forcedClosure slot t) [.now, .regs, .limits, .out, .way, .host, .hwl, .bil]) ∧
  (∀ m t, Framed (.feederDeltas m t) [.now, .regs, .bil, .met]) ∧
  (∀ t, Framed (.friendlyPeriodEnd t) [.now, .regs, .limits, .out, .way, .host, .cch, .txn, .ctx, .hwl, .bil, .bal, .ful]) ∧
  (∀ v t, Framed (.troikaRebuild v t) [.now, .regs, .limits, .out, .way, .host, .ing, .bil, .met, .ful]) ∧
  (∀ sync shownSeq shown t, Framed (.displayFrame sync shownSeq shown t) [.now, .regs, .out, .way, .host, .lgc]) ∧
  (∀ gmn positive t, Framed (.supplyConfirmation gmn positive t) [.now, .regs, .limits, .out, .way, .host, .hwl, .bil]) ∧
  (∀ t, Framed (.balRecord t) [.now, .regs, .limits, .out, .way, .host, .ctx, .bal, .ful, .plc]) ∧
  (∀ t, Framed (.channelEstimate t) [.now, .regs, .limits, .out, .way, .host, .ctx, .bal, .ful, .plc]) ∧
  (∀ group t, Framed (.intervalResult group t) [.now, .regs, .limits, .out, .way, .host, .cch, .txn, .ctx, .hwl, .bil, .bal, .ful]) ∧
  (∀ t, Framed (.snapshotCollectRead t) [.now, .regs, .limits, .out, .way, .host, .cch, .txn, .ctx, .bal]) ∧
  (∀ t, Framed (.snapshotResult t) [.now, .regs, .limits, .out, .way, .host, .cch, .txn, .ctx, .hwl, .bil, .bal, .ful]) ∧
  (∀ gmn t, Framed (.componentLapse gmn t) [.now, .regs, .limits, .out, .way, .host, .ctx, .ful]) ∧
  (∀ chain c t, Framed (.copyReceived chain c t) [.now, .regs, .ctx, .plc]) ∧
  (∀ mesh t, Framed (.combineWindowClose mesh t) [.now, .draws, .regs, .limits, .out, .way, .host, .ctx, .ing, .plc, .rfm]) ∧
  (∀ t, Framed (.ackTransmit t) [.now, .regs, .out, .plc]) ∧
  (∀ chain bytes t, Framed (.ack chain bytes t) [.now, .regs, .ctx, .plc]) ∧
  (∀ t, Framed (.ackWaitExpiry t) [.now, .draws, .regs, .limits, .out, .way, .host, .cch, .txn, .upd, .ctx, .plc, .rfm]) ∧
  (∀ t, Framed (.csmaBackoffEnd t) [.now, .draws, .regs, .limits, .out, .way, .host, .cch, .txn, .upd, .ctx, .plc, .rfm]) ∧
  (∀ t, Framed (.discWindowExpiry t) [.now, .draws, .regs, .ctx, .plc]) ∧
  (∀ t, Framed (.tollbookExpiry t) [.now, .plc, .rfm]) ∧
  (∀ c t, Framed (.rfCopyReceived c t) [.now, .draws, .regs, .ctx, .rfm]) ∧
  (∀ t, Framed (.enhAckTransmit t) [.now, .draws, .regs, .out, .rfm]) ∧
  (∀ radio bytes start t, Framed (.enhAck radio bytes start t) [.now, .draws, .regs, .ctx, .rfm]) ∧
  (∀ radio t, Framed (.rfAckWaitExpiry radio t) [.now, .draws, .regs, .limits, .out, .way, .host, .cch, .txn, .upd, .ctx, .plc, .rfm]) ∧
  (∀ radio energy t, Framed (.csmaCaAttempt radio energy t) [.now, .draws, .regs, .limits, .out, .way, .host, .cch, .txn, .upd, .ctx, .plc, .rfm]) ∧
  (∀ slot energy t, Framed (.slotExchange slot energy t) [.now, .draws, .regs, .limits, .out, .way, .host, .cch, .txn, .upd, .ctx, .plc, .rfm]) ∧
  (∀ slot t, Framed (.slotMiss slot t) [.now, .regs, .out, .ctx, .rfm]) ∧
  (∀ radio energy t, Framed (.longPreambleExchange radio energy t) [.now, .draws, .regs, .limits, .out, .way, .host, .cch, .txn, .upd, .ctx, .plc, .rfm]) ∧
  (∀ radio t, Framed (.dutyHoldRelease radio t) [.now, .rfm])

/-- What the rows of transactions, tasks, Fuller and the fabric change at most; whatever else the state holds stands as it stood: other parts of the
device, its stores, and the queue.

What the rows of the host queues, Ethernet and the side-band change at most; whatever else the state holds stands as it stood: other parts of the
device, its stores, and the queue. -/
def Obligations.FramesOfTransactionStoreFabricAndHostRows : Prop :=
  (∀ port plain t, Framed (.issue port plain t) [.now, .draws, .regs, .limits, .out, .way, .host, .eth, .cch, .txn, .upd, .ctx, .plc, .rfm]) ∧
  (∀ tag t, Framed (.txnDeadline tag t) [.now, .regs, .limits, .out, .way, .host, .cch, .txn, .upd, .ctx, .plc, .rfm]) ∧
  (∀ t, Framed (.retryRelease t) [.now, .regs, .limits, .out, .way, .host, .cch, .txn]) ∧
  (∀ tag t, Framed (.quarantineEnd tag t) [.now, .regs, .limits, .out, .way, .host, .cch, .txn]) ∧
  (∀ t, Framed (.scheduleRun t) [.now, .regs, .limits, .out, .way, .host, .cch, .txn, .ctx]) ∧
  (∀ kind priority eclass exec' coreMask arg t, Framed (.taskPost kind priority eclass exec' coreMask arg t) [.now, .regs, .limits, .out, .way, .host, .cch]) ∧
  (∀ executor t, Framed (.taskRetire executor t) [.now, .regs, .limits, .out, .way, .host, .cch]) ∧
  (∀ t, Framed (.fullerAccept t) [.now, .regs, .limits, .out, .way, .host, .hwl, .bil, .ful, .readings]) ∧
  (∀ t, Framed (.flushTimer t) [.now, .ful]) ∧
  (∀ bad t, Framed (.pageProgram bad t) [.now, .regs, .limits, .out, .way, .pwr, .host, .ful]) ∧
  (∀ copy markFails t, Framed (.programFail copy markFails t) [.now, .regs, .limits, .out, .way, .host, .ful]) ∧
  (∀ block markFails t, Framed (.eraseFail block markFails t) [.now, .regs, .limits, .out, .way, .host, .ful]) ∧
  (∀ lsa bits retries uncorrectable t, Framed (.sectorRead lsa bits retries uncorrectable t) [.now, .regs, .limits, .out, .way, .host, .ful]) ∧
  (∀ t, Framed (.gcBatch t) [.now, .regs, .out, .ful]) ∧
  (∀ legal t, Framed (.checkpointComplete legal t) [.now, .regs, .limits, .out, .way, .host, .ful]) ∧
  (∀ t, Framed (.counterSnapshot t) [.now, .ful]) ∧
  (∀ badSummaries badPages t, Framed (.rebuildDone badSummaries badPages t) [.now, .regs, .out, .way, .host, .ful]) ∧
  (∀ port valid t, Framed (.blockLock port valid t) [.now, .draws, .regs, .out, .way, .host, .hwl]) ∧
  (∀ port since t, Framed (.lockLoss port since t) [.now, .regs, .out, .way, .host, .hwl]) ∧
  (∀ port t, Framed (.portRetrainTimer port t) [.now, .regs, .out, .way, .host, .hwl]) ∧
  (∀ l t, Framed (.hello l t) [.now, .draws, .regs, .limits, .out, .way, .host, .hwl]) ∧
  (∀ l t, Framed (.helloAck l t) [.now, .regs, .limits, .out, .way, .host, .hwl]) ∧
  (∀ t, Framed (.coordinateAssign t) [.now, .regs, .out, .nor, .way, .host, .hwl]) ∧
  (∀ t, Framed (.announceTimer t) [.now, .regs, .out, .hwl]) ∧
  (∀ l t, Framed (.announce l t) [.now, .regs, .limits, .out, .nor, .way, .host, .hwl]) ∧
  (∀ node t, Framed (.memberExpiry node t) [.now, .regs, .hwl]) ∧
  (∀ l t, Framed (.pair l t) [.now, .regs, .limits, .out, .way, .host, .upd, .hwl]) ∧
  (∀ t, Framed (.pairTimeout t) [.now, .regs, .limits, .out, .way, .host, .ing, .hwl, .readings]) ∧
  (∀ t, Framed (.heartbeatSend t) [.now, .regs, .limits, .out, .way, .host, .hwl]) ∧
  (∀ l t, Framed (.heartbeat l t) [.now, .regs, .limits, .out, .way, .host, .hwl]) ∧
  (∀ l t, Framed (.leave l t) [.now, .regs, .limits, .out, .way, .host, .ing, .hwl, .readings]) ∧
  (∀ t, Framed (.partnerTimeout t) [.now, .regs, .limits, .out, .way, .host, .ing, .hwl, .readings]) ∧
  (∀ l t, Framed (.mrec l t) [.now, .regs, .limits, .out, .way, .host, .ing, .hwl, .bal, .ful]) ∧
  (∀ l t, Framed (.mest l t) [.now, .regs, .limits, .out, .way, .host, .ing, .hwl, .bal, .ful]) ∧
  (∀ l t, Framed (.mfeed l t) [.now, .regs, .limits, .out, .way, .host, .ing, .hwl, .bal, .ful]) ∧
  (∀ l gmn op t, Framed (.mjob l gmn op t) [.now, .regs, .limits, .out, .way, .host, .ing, .hwl, .bal, .ful]) ∧
  (∀ l job t, Framed (.mctx l job t) [.now, .regs, .limits, .out, .way, .host, .ing, .hwl, .bal, .ful]) ∧
  (∀ l t, Framed (.cut l t) [.now, .regs, .limits, .out, .way, .host, .ing, .hwl, .bal, .ful]) ∧
  (∀ l t, Framed (.msync l t) [.now, .regs, .limits, .out, .way, .host, .ing, .hwl, .bal, .ful]) ∧
  (∀ l t, Framed (.handback l t) [.now, .regs, .limits, .out, .way, .host, .ing, .hwl, .bal, .ful]) ∧
  (∀ l t, Framed (.mack l t) [.now, .regs, .limits, .out, .way, .host, .hwl, .readings]) ∧
  (∀ l spoilt t, Framed (.mnak l spoilt t) [.now, .regs, .limits, .out, .way, .host, .hwl]) ∧
  (∀ t, Framed (.mirrorGapTimer t) [.now, .regs, .limits, .out, .way, .host, .hwl]) ∧
  (∀ l t, Framed (.syncReq l t) [.now, .regs, .limits, .out, .way, .host, .hwl]) ∧
  (∀ l t, Framed (.digest l t) [.now, .regs, .limits, .out, .way, .host, .hwl]) ∧
  (∀ l t, Framed (.digestReq l t) [.now, .regs, .limits, .out, .way, .host, .hwl]) ∧
  (∀ l t, Framed (.digestResult l t) [.now, .regs, .limits, .out, .way, .host, .hwl]) ∧
  (∀ l e t, Framed (.fwdEntry l e t) [.now, .regs, .limits, .out, .way, .host, .ing, .hwl]) ∧
  (∀ l w t, Framed (.seqReq l w t) [.now, .regs, .limits, .out, .way, .host, .ing, .hwl]) ∧
  (∀ l t, Framed (.actionReq l t) [.now, .regs, .limits, .out, .way, .host, .cch, .txn, .ctx, .hwl, .bil, .bal, .ful]) ∧
  (∀ l j t, Framed (.job l j t) (allBut [.pending, .cfg, .pwr, .pins, .sb, .cyc, .val, .bil, .lgc, .met, .readings, .mem])) ∧
  (∀ l r t, Framed (.report l r t) [.now, .regs, .limits, .out, .way, .host, .hwl]) ∧
  (∀ l j t, Framed (.resetPacket l j t) [.now, .regs, .limits, .out, .sec, .way, .rst, .host, .hwl, .ful]) ∧
  (∀ l head writeFails t, Framed (.chainData l head writeFails t) [.now, .regs, .limits, .out, .nor, .way, .host, .upd, .hwl, .ful]) ∧
  (∀ l t, Framed (.chainAck l t) [.now, .regs, .limits, .out, .way, .host, .hwl]) ∧
  (∀ l t, Framed (.chainResult l t) [.now, .regs, .limits, .out, .way, .host, .hwl]) ∧
  (∀ t, Framed (.chainAckTimeout t) [.now, .regs, .limits, .out, .way, .host, .hwl]) ∧
  (∀ port vc cls units t, Framed (.credit port vc cls units t) [.now, .regs, .out, .hwl]) ∧
  (∀ port lseq t, Framed (.linkWordAck port lseq t) [.now, .regs, .out, .hwl]) ∧
  (∀ port lseq t, Framed (.linkWordNak port lseq t) [.now, .regs, .out, .way, .host, .hwl]) ∧
  (∀ high t, Framed (.actOwnInChange high t) [.now, .regs, .limits, .out, .way, .host, .hwl]) ∧
  (∀ t, Framed (.arbWindowExpiry t) [.now, .regs, .limits, .out, .way, .host, .hwl]) ∧
  (∀ t, Framed (.arbBackoffExpiry t) [.now, .hwl]) ∧
  (∀ t, Framed (.queryRetry t) [.now, .regs, .limits, .out, .way, .host, .hwl]) ∧
  (∀ n m v t, Framed (.cqTailWrite n m v t) [.now, .regs, .limits, .out, .sec, .way, .host, .ing]) ∧
  (∀ n m sizeLog2 t, Framed (.rqEnable n m sizeLog2 t) [.now, .regs, .limits, .out, .sec, .way, .host, .ing]) ∧
  (∀ n m sizeLog2 t, Framed (.rqDisable n m sizeLog2 t) [.now, .regs, .limits, .out, .sec, .way, .host, .ing]) ∧
  (∀ n m v t, Framed (.rqHeadWrite n m v t) [.now, .regs, .limits, .out, .sec, .way, .host, .ing]) ∧
  (∀ t, Framed (.reportIssue t) [.now, .regs, .limits, .out, .way, .host, .eth, .sb, .hwl]) ∧
  (∀ n t, Framed (.coalesceTimer n t) [.now, .regs, .out, .host]) ∧
  (∀ t, Framed (.reportHoldExpiry t) [.now, .regs, .limits, .out, .way, .host]) ∧
  (∀ high speed width t, Framed (.pciePerstN high speed width t) [.now, .regs, .pins, .host]) ∧
  (∀ port f t, Framed (.ethernetFrame port f t) (allBut [.pending, .cfg, .pwr, .pins, .sb, .cyc, .val, .bil, .lgc, .met, .readings, .mem])) ∧
  (∀ port peer t, Framed (.messageResend port peer t) [.now, .regs, .limits, .out, .way, .host, .eth]) ∧
  (∀ port peer t, Framed (.standaloneAck port peer t) [.now, .regs, .out, .eth]) ∧
  (∀ t, Framed (.bundleResend t) [.now, .regs, .out, .eth]) ∧
  (∀ port t, Framed (.gateChange port t) [.now, .regs, .out, .eth]) ∧
  (∀ r t, Framed (.identify r t) [.now, .regs, .limits, .out, .sec, .way, .host, .sb]) ∧
  (∀ r t, Framed (.status r t) [.now, .regs, .limits, .out, .sec, .way, .host, .sb]) ∧
  (∀ r t, Framed (.aonCounters r t) [.now, .regs, .limits, .out, .sec, .way, .host, .sb]) ∧
  (∀ r t, Framed (.time r t) [.now, .regs, .limits, .out, .sec, .way, .host, .sb]) ∧
  (∀ r log first count t, Framed (.readLog r log first count t) [.now, .regs, .limits, .out, .sec, .way, .host, .sb]) ∧
  (∀ r e t, Framed (.sidebandWake r e t) (allBut [.pending])) ∧
  (∀ r j t, Framed (.sidebandReset r j t) [.now, .regs, .limits, .out, .sec, .way, .rst, .host, .sb, .hwl, .ful]) ∧
  (∀ r h b t, Framed (.sidebandJob r h b t) (allBut [.pending, .cfg, .pwr, .pins, .cyc, .val, .bil, .lgc, .met, .readings, .mem]))

/-- What the rows of the jobs change at most; whatever else the state holds stands as it stood: other parts of the device, its stores, and the queue.

What the rows of update, keys, logs and registers, and the table's last rows change at most; whatever else the state holds stands as it stood:
other parts of the device, its stores, and the queue. -/
def Obligations.FramesOfJobAndUpdateRows : Prop :=
  (∀ h gmn obis priority medium t, Framed (.readMeter h gmn obis priority medium t) [.now, .regs, .limits, .out, .sec, .way, .host, .cch, .txn, .upd, .ctx, .hwl]) ∧
  (∀ h group all lead gmns t, Framed (.snapshotGroup h group all lead gmns t) [.now, .regs, .limits, .out, .sec, .way, .host, .eth, .cch, .upd, .hwl, .bal, .plc, .rfm]) ∧
  (∀ h offset words t, Framed (.registerRead h offset words t) [.now, .regs, .latches, .limits, .out, .sec, .way, .host, .cch, .upd, .hwl]) ∧
  (∀ h gmn parts t, Framed (.meterStateRead h gmn parts t) [.now, .regs, .limits, .out, .sec, .way, .host, .cch, .upd, .hwl]) ∧
  (∀ h nonce t, Framed (.attest h nonce t) [.now, .draws, .regs, .limits, .out, .sec, .way, .host, .cch, .upd, .hwl]) ∧
  (∀ h tag t, Framed (.cancel h tag t) [.now, .regs, .limits, .out, .sec, .way, .host, .cch, .txn, .upd, .ctx, .hwl, .plc, .rfm]) ∧
  (∀ h entry source due period template t, Framed (.trigger h entry source due period template t) [.now, .regs, .limits, .out, .sec, .way, .host, .cch, .upd, .hwl]) ∧
  (∀ h output startSec startNs period width t, Framed (.pulse h output startSec startNs period width t) [.now, .regs, .limits, .out, .sec, .way, .host, .cch, .upd, .tim, .hwl]) ∧
  (∀ h sec ns t, Framed (.hostTime h sec ns t) [.now, .regs, .limits, .out, .sec, .way, .host, .eth, .cch, .upd, .tim, .hwl]) ∧
  (∀ h gmn group regPhase exportAllowed t, Framed (.balanceMembership h gmn group regPhase exportAllowed t) [.now, .regs, .limits, .out, .sec, .way, .host, .cch, .upd, .ing, .hwl]) ∧
  (∀ h b t, Framed (.bundleSubmit h b t) [.now, .regs, .limits, .out, .sec, .way, .host, .cch, .upd, .ing, .hwl]) ∧
  (∀ h slot set t, Framed (.pushTariffSet h slot set t) [.now, .regs, .limits, .out, .sec, .way, .host, .cch, .upd, .hwl, .ful]) ∧
  (∀ h gmn amount t, Framed (.creditChange h gmn amount t) [.now, .regs, .limits, .out, .sec, .way, .host, .cch, .upd, .ing, .hwl]) ∧
  (∀ h gmn t, Framed (.disconnect h gmn t) [.now, .regs, .limits, .out, .sec, .way, .host, .cch, .upd, .ing, .hwl]) ∧
  (∀ h gmn force t, Framed (.reconnect h gmn force t) [.now, .regs, .limits, .out, .sec, .way, .host, .cch, .upd, .ing, .hwl]) ∧
  (∀ h gmn mode t, Framed (.legalRelease h gmn mode t) [.now, .regs, .limits, .out, .sec, .way, .host, .cch, .upd, .ing, .hwl]) ∧
  (∀ h a t, Framed (.enrolMeter h a t) [.now, .regs, .limits, .out, .sec, .way, .host, .cch, .upd, .ing, .hwl]) ∧
  (∀ h gmn t, Framed (.removeMeter h gmn t) [.now, .regs, .limits, .out, .sec, .way, .host, .cch, .upd, .ing, .hwl]) ∧
  (∀ h gmn keySlot ek ak t, Framed (.keyChange h gmn keySlot ek ak t) [.now, .regs, .limits, .out, .sec, .way, .host, .cch, .upd, .ing, .hwl]) ∧
  (∀ h gmn rxIc txIc t, Framed (.counterReset h gmn rxIc txIc t) [.now, .regs, .limits, .out, .sec, .way, .host, .cch, .upd, .ing, .hwl]) ∧
  (∀ h range trueNode slots t, Framed (.designate h range trueNode slots t) [.now, .regs, .limits, .out, .sec, .way, .host, .cch, .upd, .hwl]) ∧
  (∀ h t, Framed (.claimOwnership h t) [.now, .regs, .limits, .out, .sec, .way, .host, .cch, .upd, .hwl]) ∧
  (∀ h t, Framed (.releaseOwnership h t) [.now, .regs, .limits, .out, .sec, .way, .host, .cch, .upd, .hwl]) ∧
  (∀ h t, Framed (.forgetCoordinate h t) [.now, .regs, .limits, .out, .nor, .sec, .way, .rst, .host, .cch, .upd, .hwl, .ful]) ∧
  (∀ h window maxStep t, Framed (.wallTimeStep h window maxStep t) [.now, .regs, .limits, .out, .sec, .way, .host, .cch, .upd, .tim, .hwl]) ∧
  (∀ h log t, Framed (.clearLog h log t) [.now, .regs, .limits, .out, .sec, .way, .host, .cch, .upd, .hwl]) ∧
  (∀ h duration t, Framed (.openExpertSession h duration t) [.now, .regs, .limits, .out, .boot, .sec, .way, .host, .cch, .upd, .hwl]) ∧
  (∀ h token t, Framed (.debugToken h token t) [.now, .regs, .limits, .out, .sec, .way, .host, .cch, .upd, .hwl]) ∧
  (∀ h imageTag offset total part block writeFails t, Framed (.updateDelivery h imageTag offset total part block writeFails t) [.now, .regs, .limits, .out, .nor, .sec, .way, .host, .cch, .upd, .hwl, .ful]) ∧
  (∀ h a t, Framed (.campaignStart h a t) [.now, .regs, .limits, .out, .sec, .way, .host, .cch, .txn, .upd, .ctx, .hwl]) ∧
  (∀ h node cls t, Framed (.reset h node cls t) [.now, .regs, .limits, .out, .boot, .sec, .way, .rst, .host, .cch, .upd, .hwl, .ful]) ∧
  (∀ h b writeFails t, Framed (.bootHeaderWrite h b writeFails t) [.now, .regs, .limits, .out, .nor, .sec, .way, .host, .cch, .upd, .hwl]) ∧
  (∀ t, Framed (.deliveryIdleTimeout t) [.now, .regs, .limits, .out, .way, .host, .upd]) ∧
  (∀ t, Framed (.probationDeadline t) [.now, .regs, .limits, .out, .way, .rst, .host, .hwl, .ful]) ∧
  (∀ t, Framed (.healthConfirmation t) [.now, .regs, .out, .nor, .way, .host]) ∧
  (∀ campaign t, Framed (.campaignRound campaign t) [.now, .regs, .limits, .out, .way, .host, .cch, .txn, .upd, .ctx]) ∧
  (∀ campaign t, Framed (.campaignBlock campaign t) [.now, .regs, .limits, .out, .way, .host, .cch, .txn, .upd, .ctx]) ∧
  (∀ campaign t, Framed (.statusRound campaign t) [.now, .regs, .limits, .out, .way, .host, .cch, .txn, .upd, .ctx]) ∧
  (∀ m v t, Framed (.keyDestroy m v t) [.now, .regs, .limits, .out, .sec, .way, .host, .ing]) ∧
  (∀ t, Framed (.keyPurge t) [.now, .regs, .limits, .out, .nor, .sec, .way, .host, .ing]) ∧
  (∀ port m v t, Framed (.eventPortSubmit port m v t) [.now, .regs, .limits, .out, .sec, .way, .host]) ∧
  (∀ m v t, Framed (.legalPortSubmit m v t) [.now, .regs, .limits, .out, .sec, .way, .host]) ∧
  (∀ bad erased t, Framed (.bufferProgram bad erased t) [.now, .regs, .out, .way, .host]) ∧
  (∀ sp m fetch a size t, Framed (.lowWordRead sp m fetch a size t) [.now, .draws, .regs, .latches, .limits, .out, .sec, .way, .host]) ∧
  (∀ sp m a size v t, Framed (.registerWrite sp m a size v t) [.now, .regs, .limits, .out, .sec, .way, .host, .ing, .mem]) ∧
  (∀ t, Framed (.aonSupplyLoss t) (allBut [.pending])) ∧
  (∀ port up los t, Framed (.ethLinkChange port up los t) [.now, .regs, .out, .eth]) ∧
  (∀ port t, Framed (.linkAckTimer port t) [.now, .out, .hwl]) ∧
  (∀ t, Framed (.mirrorAckTimer t) [.now, .regs, .limits, .out, .way, .host, .ing, .hwl, .bal, .ful]) ∧
  (∀ block t, Framed (.blockErase block t) [.now, .regs, .out, .ful]) ∧
  (∀ chain first announced t, Framed (.preambleDetection chain first announced t) [.now, .regs, .plc])
end

