-- ==== Sys2Proof/Laws/Frame.lean ====
section
/-!
SUPPORT. Frames: the relation `keepsBut` composes along updates, choices and folds; and what one record update leaves.
-/

namespace Sys2Proof.Machine

theorem keepsBut_refl (ps : List Part) (s : State) : s.keepsBut ps s := by
  intro p _
  cases p <;> rfl

theorem keepsBut_step {A L : List Part} {s t u : State} (hg : t.keepsBut A u) (sub : ∀ p ∈ A, p ∈ L) (h : s.keepsBut L t) :
    s.keepsBut L u := by
  intro p hp
  have h1 := hg p (fun x => hp (sub p x))
  have h2 := h p hp
  cases p <;> exact Eq.trans h1 h2

theorem State.keepsBut.weaken {A L : List Part} {s t : State} (h : s.keepsBut A t) (sub : ∀ p ∈ A, p ∈ L) : s.keepsBut L t :=
  keepsBut_step h sub (keepsBut_refl _ _)

theorem keepsBut_sub {A B L : List Part} (h : ∀ p ∈ B, p ∈ A) (sub : ∀ p ∈ A, p ∈ L) : ∀ p ∈ B, p ∈ L := fun p hp => sub p (h p hp)

theorem keepsBut_ite {L : List Part} {s a b : State} {c : Prop} [Decidable c] (ha : s.keepsBut L a) (hb : s.keepsBut L b) :
    s.keepsBut L (if c then a else b) := by
  split <;> assumption

theorem keepsBut_iteFst {α : Type} {L : List Part} {s : State} {a b : State × α} {c : Prop} [Decidable c] (ha : s.keepsBut L a.1)
    (hb : s.keepsBut L b.1) : s.keepsBut L (if c then a else b).1 := by
  split <;> assumption

theorem keepsBut_dite {L : List Part} {s : State} {c : Prop} [Decidable c] {a : c → State} {b : ¬c → State}
    (ha : ∀ h, s.keepsBut L (a h)) (hb : ∀ h, s.keepsBut L (b h)) : s.keepsBut L (dite c a b) := by
  split
  · exact ha _
  · exact hb _

theorem keepsBut_foldl {α : Type} {L : List Part} {s i : State} {f : State → α → State} {l : List α}
    (hf : ∀ u a, s.keepsBut L u → s.keepsBut L (f u a)) (hi : s.keepsBut L i) : s.keepsBut L (l.foldl f i) := by
  induction l generalizing i with
  | nil => exact hi
  | cons a l ih => exact ih (hf i a hi)

theorem keepsBut_foldlFst {α β : Type} {L : List Part} {s : State} {i : State × β} {f : State × β → α → State × β} {l : List α}
    (hf : ∀ u a, s.keepsBut L u.1 → s.keepsBut L (f u a).1) (hi : s.keepsBut L i.1) : s.keepsBut L (l.foldl f i).1 := by
  induction l generalizing i with
  | nil => exact hi
  | cons a l ih => exact ih (hf i a hi)

theorem keeps_with_pwr {s : State} {pwrv : Pwr} :
    s.keepsBut [.pwr] { s with pwr := pwrv } := by
  intro p hp
  cases p <;> first | rfl | exact absurd (by decide) hp

theorem keeps_with_ing {s : State} {ingv : Ing} :
    s.keepsBut [.ing] { s with ing := ingv } := by
  intro p hp
  cases p <;> first | rfl | exact absurd (by decide) hp

theorem keeps_with_bil {s : State} {bilv : Bil} :
    s.keepsBut [.bil] { s with bil := bilv } := by
  intro p hp
  cases p <;> first | rfl | exact absurd (by decide) hp

theorem keeps_with_host {s : State} {hostv : HostIf} :
    s.keepsBut [.host] { s with host := hostv } := by
  intro p hp
  cases p <;> first | rfl | exact absurd (by decide) hp

theorem keeps_with_rfm {s : State} {rfmv : Rfm} :
    s.keepsBut [.rfm] { s with rfm := rfmv } := by
  intro p hp
  cases p <;> first | rfl | exact absurd (by decide) hp

theorem keeps_with_draws {s : State} {drawsv : Nat} :
    s.keepsBut [.draws] { s with draws := drawsv } := by
  intro p hp
  cases p <;> first | rfl | exact absurd (by decide) hp

theorem keeps_with_ctx {s : State} {ctxv : (Table Context)} :
    s.keepsBut [.ctx] { s with ctx := ctxv } := by
  intro p hp
  cases p <;> first | rfl | exact absurd (by decide) hp

theorem keeps_with_val {s : State} {valv : Val} :
    s.keepsBut [.val] { s with val := valv } := by
  intro p hp
  cases p <;> first | rfl | exact absurd (by decide) hp

theorem keeps_with_cyc {s : State} {cycv : Cyc} :
    s.keepsBut [.cyc] { s with cyc := cycv } := by
  intro p hp
  cases p <;> first | rfl | exact absurd (by decide) hp

theorem keeps_with_boot {s : State} {bootv : Boot} :
    s.keepsBut [.boot] { s with boot := bootv } := by
  intro p hp
  cases p <;> first | rfl | exact absurd (by decide) hp

theorem keeps_with_way {s : State} {wayv : Way} :
    s.keepsBut [.way] { s with way := wayv } := by
  intro p hp
  cases p <;> first | rfl | exact absurd (by decide) hp

theorem keeps_with_nor_sec {s : State} {norv : Nor} {secv : Sec} :
    s.keepsBut [.nor, .sec] { s with nor := norv, sec := secv } := by
  intro p hp
  cases p <;> first | rfl | exact absurd (by decide) hp

theorem keeps_with_boot_host {s : State} {bootv : Boot} {hostv : HostIf} :
    s.keepsBut [.boot, .host] { s with boot := bootv, host := hostv } := by
  intro p hp
  cases p <;> first | rfl | exact absurd (by decide) hp

theorem keeps_with_cfg_boot {s : State} {cfgv : (Table (List Byte))} {bootv : Boot} :
    s.keepsBut [.cfg, .boot] { s with cfg := cfgv, boot := bootv } := by
  intro p hp
  cases p <;> first | rfl | exact absurd (by decide) hp

theorem keeps_with_cyc_tim {s : State} {cycv : Cyc} {timv : Tim} :
    s.keepsBut [.cyc, .tim] { s with cyc := cycv, tim := timv } := by
  intro p hp
  cases p <;> first | rfl | exact absurd (by decide) hp

theorem keeps_with_upd {s : State} {updv : Upd} :
    s.keepsBut [.upd] { s with upd := updv } := by
  intro p hp
  cases p <;> first | rfl | exact absurd (by decide) hp

theorem keeps_with_txn {s : State} {txnv : Txn} :
    s.keepsBut [.txn] { s with txn := txnv } := by
  intro p hp
  cases p <;> first | rfl | exact absurd (by decide) hp

theorem keeps_with_ful {s : State} {fulv : Ful} :
    s.keepsBut [.ful] { s with ful := fulv } := by
  intro p hp
  cases p <;> first | rfl | exact absurd (by decide) hp

theorem keeps_with_readings {s : State} {readingsv : Readings} :
    s.keepsBut [.readings] { s with readings := readingsv } := by
  intro p hp
  cases p <;> first | rfl | exact absurd (by decide) hp

theorem keeps_with_nor_hwl {s : State} {norv : Nor} {hwlv : Hwl} :
    s.keepsBut [.nor, .hwl] { s with nor := norv, hwl := hwlv } := by
  intro p hp
  cases p <;> first | rfl | exact absurd (by decide) hp

theorem keeps_with_bal {s : State} {balv : Bal} :
    s.keepsBut [.bal] { s with bal := balv } := by
  intro p hp
  cases p <;> first | rfl | exact absurd (by decide) hp

theorem keeps_with_sb {s : State} {sbv : Sb} :
    s.keepsBut [.sb] { s with sb := sbv } := by
  intro p hp
  cases p <;> first | rfl | exact absurd (by decide) hp

theorem keeps_with_bil_met {s : State} {bilv : Bil} {metv : Met} :
    s.keepsBut [.bil, .met] { s with bil := bilv, met := metv } := by
  intro p hp
  cases p <;> first | rfl | exact absurd (by decide) hp

theorem keeps_with_out {s : State} {outv : (List Emission)} :
    s.keepsBut [.out] { s with out := outv } := by
  intro p hp
  cases p <;> first | rfl | exact absurd (by decide) hp

theorem keeps_with_limits {s : State} {limitsv : (List Limit)} :
    s.keepsBut [.limits] { s with limits := limitsv } := by
  intro p hp
  cases p <;> first | rfl | exact absurd (by decide) hp

theorem keeps_with_pending {s : State} {pendingv : (List Instr)} :
    s.keepsBut [.pending] { s with pending := pendingv } := by
  intro p hp
  cases p <;> first | rfl | exact absurd (by decide) hp

theorem keeps_with_hwl {s : State} {hwlv : Hwl} :
    s.keepsBut [.hwl] { s with hwl := hwlv } := by
  intro p hp
  cases p <;> first | rfl | exact absurd (by decide) hp

theorem keeps_with_val_bil_ful_readings {s : State} {valv : Val} {bilv : Bil} {fulv : Ful} {readingsv : Readings} :
    s.keepsBut [.val, .bil, .ful, .readings] { s with val := valv, bil := bilv, ful := fulv, readings := readingsv } := by
  intro p hp
  cases p <;> first | rfl | exact absurd (by decide) hp

theorem keeps_with_sec {s : State} {secv : Sec} :
    s.keepsBut [.sec] { s with sec := secv } := by
  intro p hp
  cases p <;> first | rfl | exact absurd (by decide) hp

theorem keeps_with_plc_rfm {s : State} {plcv : Plc} {rfmv : Rfm} :
    s.keepsBut [.plc, .rfm] { s with plc := plcv, rfm := rfmv } := by
  intro p hp
  cases p <;> first | rfl | exact absurd (by decide) hp

theorem keeps_with_plc {s : State} {plcv : Plc} :
    s.keepsBut [.plc] { s with plc := plcv } := by
  intro p hp
  cases p <;> first | rfl | exact absurd (by decide) hp

theorem keeps_with_eth {s : State} {ethv : Eth} :
    s.keepsBut [.eth] { s with eth := ethv } := by
  intro p hp
  cases p <;> first | rfl | exact absurd (by decide) hp

theorem keeps_with_boot_pwr_rst_host_sb {s : State} {bootv : Boot} {pwrv : Pwr} {rstv : Rst} {hostv : HostIf} {sbv : Sb} :
    s.keepsBut [.boot, .pwr, .rst, .host, .sb] { s with boot := bootv, pwr := pwrv, rst := rstv, host := hostv, sb := sbv } := by
  intro p hp
  cases p <;> first | rfl | exact absurd (by decide) hp

theorem keeps_with_rst {s : State} {rstv : Rst} :
    s.keepsBut [.rst] { s with rst := rstv } := by
  intro p hp
  cases p <;> first | rfl | exact absurd (by decide) hp

theorem keeps_with_now {s : State} {nowv : Nat} :
    s.keepsBut [.now] { s with now := nowv } := by
  intro p hp
  cases p <;> first | rfl | exact absurd (by decide) hp

theorem keeps_with_regs {s : State} {regsv : (Table (BitVec 32))} :
    s.keepsBut [.regs] { s with regs := regsv } := by
  intro p hp
  cases p <;> first | rfl | exact absurd (by decide) hp

theorem keeps_with_latches {s : State} {latchesv : (Table (Option (BitVec 32)))} :
    s.keepsBut [.latches] { s with latches := latchesv } := by
  intro p hp
  cases p <;> first | rfl | exact absurd (by decide) hp

theorem keeps_with_cch {s : State} {cchv : Cch} :
    s.keepsBut [.cch] { s with cch := cchv } := by
  intro p hp
  cases p <;> first | rfl | exact absurd (by decide) hp

theorem keeps_with_pwr_rst_upd_lgc_ful_rfm {s : State} {pwrv : Pwr} {rstv : Rst} {updv : Upd} {lgcv : Lgc} {fulv : Ful} {rfmv : Rfm} :
    s.keepsBut [.pwr, .rst, .upd, .lgc, .ful, .rfm] { s with pwr := pwrv, rst := rstv, upd := updv, lgc := lgcv, ful := fulv, rfm :=
        rfmv } := by
  intro p hp
  cases p <;> first | rfl | exact absurd (by decide) hp

theorem keeps_with_met {s : State} {metv : Met} :
    s.keepsBut [.met] { s with met := metv } := by
  intro p hp
  cases p <;> first | rfl | exact absurd (by decide) hp

theorem keeps_with_mem {s : State} {memv : (Table (Option Byte))} :
    s.keepsBut [.mem] { s with mem := memv } := by
  intro p hp
  cases p <;> first | rfl | exact absurd (by decide) hp

theorem keeps_with_cch_txn {s : State} {cchv : Cch} {txnv : Txn} :
    s.keepsBut [.cch, .txn] { s with cch := cchv, txn := txnv } := by
  intro p hp
  cases p <;> first | rfl | exact absurd (by decide) hp

theorem keeps_with_tim {s : State} {timv : Tim} :
    s.keepsBut [.tim] { s with tim := timv } := by
  intro p hp
  cases p <;> first | rfl | exact absurd (by decide) hp

theorem keeps_with_nor {s : State} {norv : Nor} :
    s.keepsBut [.nor] { s with nor := norv } := by
  intro p hp
  cases p <;> first | rfl | exact absurd (by decide) hp

theorem keeps_with_boot_nor {s : State} {bootv : Boot} {norv : Nor} :
    s.keepsBut [.boot, .nor] { s with boot := bootv, nor := norv } := by
  intro p hp
  cases p <;> first | rfl | exact absurd (by decide) hp

end Sys2Proof.Machine
end

