-- ==== Sys2Proof/Laws/Keeps01.lean ====
section
/-!
SUPPORT. What each shared operation leaves of the state, one lemma an operation, an operation after those it is built from: from `roll`
to `isolatePort`.
-/

namespace Sys2Proof.Machine

theorem keeps_State_roll {s : State} {be : Nat} : s.keepsBut [.draws] (s.roll be).2 := by
  unfold State.roll
  exact keeps_with_draws

theorem keeps_State_csmaWait {s : State} {be : Nat} : s.keepsBut [.draws] (s.csmaWait be).2 := keeps_State_roll (be := be)

theorem keeps_State_rfWait {s : State} {n be : Nat} : s.keepsBut [.draws] (s.rfWait n be).2 := keeps_State_roll (be := be)

theorem keeps_State_modSec {s : State} {f : Sec → Sec} :
    s.keepsBut [.sec] (s.modSec f) := by
  have h0 : State.keepsBut s [.sec] s := keepsBut_refl _ _
  unfold State.modSec
  exact keepsBut_step keeps_with_sec (by decide) (by assumption)

theorem keeps_State_writeAcc {s : State} {a : ℕ} {v : Word} :
    s.keepsBut [.sec] (s.writeAcc a v) := by
  have h0 : State.keepsBut s [.sec] s := keepsBut_refl _ _
  unfold State.writeAcc
  extract_lets +onlyGivenNames x0
  try clear_value x0
  extract_lets +onlyGivenNames x1
  try clear_value x1
  extract_lets +onlyGivenNames x2
  try clear_value x2
  extract_lets +onlyGivenNames x3
  try clear_value x3
  exact keepsBut_step keeps_State_modSec (by decide) (by assumption)

theorem keeps_State_setRq {s : State} {n : ℕ} {q : ReportQueue} :
    s.keepsBut [.host] (s.setRq n q) := by
  have h0 : State.keepsBut s [.host] s := keepsBut_refl _ _
  unfold State.setRq
  exact keepsBut_step keeps_with_host (by decide) (by assumption)

theorem keeps_State_setWaiting {s : State} {l : List WaitingReport} :
    s.keepsBut [.host] (s.setWaiting l) := by
  have h0 : State.keepsBut s [.host] s := keepsBut_refl _ _
  unfold State.setWaiting
  exact keepsBut_step keeps_with_host (by decide) (by assumption)

theorem keeps_State_setReg {s : State} {a : ℕ} {v : Word} :
    s.keepsBut [.regs] (s.setReg a v) := by
  have h0 : State.keepsBut s [.regs] s := keepsBut_refl _ _
  unfold State.setReg
  exact keepsBut_step keeps_with_regs (by decide) (by assumption)

theorem keeps_State_bumpBy {s : State} {c : Counter} {n : ℕ} :
    s.keepsBut [.regs] (s.bumpBy c n) := by
  have h0 : State.keepsBut s [.regs] s := keepsBut_refl _ _
  unfold State.bumpBy
  exact keepsBut_step keeps_State_setReg (by decide) (by assumption)

theorem keeps_State_unrouteWaiting {s : State} {n : Fin 4} :
    s.keepsBut [.host, .regs] (s.unrouteWaiting n) := by
  have h0 : State.keepsBut s [.host, .regs] s := keepsBut_refl _ _
  unfold State.unrouteWaiting
  extract_lets +onlyGivenNames x0
  try clear_value x0
  refine keepsBut_step keeps_State_bumpBy (by decide) ?_
  exact keepsBut_step keeps_State_setWaiting (by decide) (by assumption)

theorem keeps_State_stopQueue {s : State} {n : Fin 4} :
    s.keepsBut [.host, .regs] (s.stopQueue n) := by
  have h0 : State.keepsBut s [.host, .regs] s := keepsBut_refl _ _
  unfold State.stopQueue
  extract_lets +onlyGivenNames x0
  try clear_value x0
  refine keepsBut_step keeps_State_unrouteWaiting (by decide) ?_
  exact keepsBut_step keeps_State_setRq (by decide) (by assumption)

theorem keeps_State_setSlot {s : State} {i : ℕ} {v : LegalSlot} :
    s.keepsBut [.bil] (s.setSlot i v) := by
  have h0 : State.keepsBut s [.bil] s := keepsBut_refl _ _
  unfold State.setSlot
  exact keepsBut_step keeps_with_bil (by decide) (by assumption)

theorem keeps_State_toFuller {s : State} {i : FulItem} :
    s.keepsBut [.ful] (s.toFuller i) := by
  have h0 : State.keepsBut s [.ful] s := keepsBut_refl _ _
  unfold State.toFuller
  exact keepsBut_step keeps_with_ful (by decide) (by assumption)

theorem keeps_State_keepClosed {s : State} {i : ℕ} {ps : List ClosedPeriod} :
    s.keepsBut [.bil] (s.keepClosed i ps) := by
  have h0 : State.keepsBut s [.bil] s := keepsBut_refl _ _
  unfold State.keepClosed
  exact keepsBut_step keeps_with_bil (by decide) (by assumption)

theorem keeps_State_rebuildPut {s : State} {i : ℕ} {v : LegalSlot} {ps : List ClosedPeriod} :
    s.keepsBut [.ful, .bil] (s.rebuildPut i v ps) := by
  have h0 : State.keepsBut s [.ful, .bil] s := keepsBut_refl _ _
  unfold State.rebuildPut
  refine keepsBut_foldl ?_ ?_
  · intro u a hu
    try beta_reduce
    · exact keepsBut_step keeps_State_toFuller (by decide) (by assumption)
  · refine keepsBut_step keeps_State_keepClosed (by decide) ?_
    exact keepsBut_step keeps_State_setSlot (by decide) (by assumption)

theorem keeps_State_rebuildRecord {s : State} {i : ℕ} {x : StoredRecord} :
    s.keepsBut [.ful, .bil] (s.rebuildRecord i x) := by
  have h0 : State.keepsBut s [.ful, .bil] s := keepsBut_refl _ _
  unfold State.rebuildRecord
  extract_lets +onlyGivenNames x0
  try clear_value x0
  extract_lets +onlyGivenNames x1
  try clear_value x1
  exact keepsBut_step keeps_State_rebuildPut (by decide) (by assumption)

theorem keeps_State_rebuildOp {s : State} {i : ℕ} {g : Gmn} {op : LegalOp} {past : List StoreEntry} :
    s.keepsBut [.ful, .bil] (s.rebuildOp i g op past) := by
  have h0 : State.keepsBut s [.ful, .bil] s := keepsBut_refl _ _
  unfold State.rebuildOp
  extract_lets +onlyGivenNames x0
  try clear_value x0
  split
  · extract_lets +onlyGivenNames x1
    try clear_value x1
    extract_lets +onlyGivenNames x2
    have hx2 : State.keepsBut s [.ful, .bil] x2 := by
      unfold x2
      refine keepsBut_foldl ?_ ?_
      · intro u a hu
        try beta_reduce
        · exact keepsBut_step keeps_State_rebuildRecord (by decide) (by assumption)
      · assumption
    try clear_value x2
    exact keepsBut_step keeps_State_rebuildPut (by decide) (by assumption)
  · split
    · assumption
    · exact keepsBut_step keeps_State_rebuildPut (by decide) (by assumption)

theorem keeps_State_bump {s : State} {c : Counter} :
    s.keepsBut [.regs] (s.bump c) := by
  have h0 : State.keepsBut s [.regs] s := keepsBut_refl _ _
  unfold State.bump
  exact keepsBut_step keeps_State_bumpBy (by decide) (by assumption)

theorem keeps_State_emit {s : State} {e : Emission} :
    s.keepsBut [.out] (s.emit e) := by
  have h0 : State.keepsBut s [.out] s := keepsBut_refl _ _
  unfold State.emit
  exact keepsBut_step keeps_with_out (by decide) (by assumption)

theorem keeps_State_msixMessage {s : State} {v : ℕ} :
    s.keepsBut [.out] (s.msixMessage v) := by
  have h0 : State.keepsBut s [.out] s := keepsBut_refl _ _
  unfold State.msixMessage
  exact keepsBut_step keeps_State_emit (by decide) (by assumption)

theorem keeps_State_fire {s : State} {v : ℕ} :
    s.keepsBut [.regs, .out] (s.fire v) := by
  have h0 : State.keepsBut s [.regs, .out] s := keepsBut_refl _ _
  unfold State.fire
  refine keepsBut_ite ?_ ?_
  · exact keepsBut_step keeps_State_setReg (by decide) (by assumption)
  · exact keepsBut_step keeps_State_msixMessage (by decide) (by assumption)

theorem keeps_State_raiseInt {s : State} {a : ℕ} {bit : ℕ} :
    s.keepsBut [.regs, .out] (s.raiseInt a bit) := by
  have h0 : State.keepsBut s [.regs, .out] s := keepsBut_refl _ _
  unfold State.raiseInt
  extract_lets +onlyGivenNames x0
  have hx0 : State.keepsBut s [.regs, .out] x0 := by
    unfold x0
    exact keepsBut_step keeps_State_setReg (by decide) (by assumption)
  try clear_value x0
  refine keepsBut_ite ?_ ?_
  · exact keepsBut_step keeps_State_fire (by decide) (by assumption)
  · assumption

theorem keeps_State_noteWait {s : State} {t : Task} :
    s.keepsBut [.regs, .out] (s.noteWait t) := by
  have h0 : State.keepsBut s [.regs, .out] s := keepsBut_refl _ _
  unfold State.noteWait
  extract_lets +onlyGivenNames x0
  try clear_value x0
  extract_lets +onlyGivenNames x1
  try clear_value x1
  extract_lets +onlyGivenNames x2
  try clear_value x2
  extract_lets +onlyGivenNames x3
  have hx3 : State.keepsBut s [.regs, .out] x3 := by
    unfold x3
    refine keepsBut_ite ?_ ?_
    · exact keepsBut_step keeps_State_setReg (by decide) (by assumption)
    · assumption
  try clear_value x3
  refine keepsBut_ite ?_ ?_
  · refine keepsBut_step keeps_State_raiseInt (by decide) ?_
    exact keepsBut_step keeps_State_bump (by decide) (by assumption)
  · assumption

theorem keeps_State_dispatchOn {s : State} {x : ℕ} :
    s.keepsBut [.cch, .regs, .out] (s.dispatchOn x) := by
  have h0 : State.keepsBut s [.cch, .regs, .out] s := keepsBut_refl _ _
  unfold State.dispatchOn
  refine keepsBut_ite ?_ ?_
  · assumption
  · split
    · assumption
    · extract_lets +onlyGivenNames x0
      try clear_value x0
      extract_lets +onlyGivenNames x1
      try clear_value x1
      extract_lets +onlyGivenNames x2
      have hx2 : State.keepsBut s [.cch, .regs, .out] x2 := by
        unfold x2
        exact keepsBut_step keeps_with_cch (by decide) (by assumption)
      try clear_value x2
      refine keepsBut_step keeps_State_noteWait (by decide) ?_
      exact keepsBut_step keeps_State_bump (by decide) (by assumption)

theorem keeps_State_dispatch {s : State} :
    s.keepsBut [.cch, .regs, .out] (s.dispatch) := by
  have h0 : State.keepsBut s [.cch, .regs, .out] s := keepsBut_refl _ _
  unfold State.dispatch
  refine keepsBut_foldl ?_ ?_
  · intro u a hu
    try beta_reduce
    · exact keepsBut_step keeps_State_dispatchOn (by decide) (by assumption)
  · assumption

theorem keeps_State_buffer {s : State} {e : BufferedEvent} :
    s.keepsBut [.way] (s.buffer e) := by
  have h0 : State.keepsBut s [.way] s := keepsBut_refl _ _
  unfold State.buffer
  exact keepsBut_step keeps_with_way (by decide) (by assumption)

theorem keeps_State_enqueue {s : State} {d : ReportDest} {r : Report} :
    s.keepsBut [.host] (s.enqueue d r) := by
  have h0 : State.keepsBut s [.host] s := keepsBut_refl _ _
  unfold State.enqueue
  exact keepsBut_step keeps_with_host (by decide) (by assumption)

theorem keeps_State_route {s : State} {ds : List ReportDest} {r : Report} :
    s.keepsBut [.host, .regs] (s.route ds r) := by
  have h0 : State.keepsBut s [.host, .regs] s := keepsBut_refl _ _
  unfold State.route
  split
  · exact keepsBut_step keeps_State_bump (by decide) (by assumption)
  · refine keepsBut_foldl ?_ ?_
    · intro u a hu
      try beta_reduce
      · exact keepsBut_step keeps_State_enqueue (by decide) (by assumption)
    · assumption

theorem keeps_State_reportOut {s : State} {b : ReportBody} :
    s.keepsBut [.host, .regs] (s.reportOut b) := by
  have h0 : State.keepsBut s [.host, .regs] s := keepsBut_refl _ _
  unfold State.reportOut
  exact keepsBut_step keeps_State_route (by decide) (by assumption)

theorem keeps_State_eventReport {s : State} {g : LogId} {r : WayRecord} {notLogged : Bool} :
    s.keepsBut [.host, .regs] (s.eventReport g r notLogged) := by
  have h0 : State.keepsBut s [.host, .regs] s := keepsBut_refl _ _
  unfold State.eventReport
  refine keepsBut_ite ?_ ?_
  · refine keepsBut_step keeps_State_bump (by decide) ?_
    exact keepsBut_step keeps_State_reportOut (by decide) (by assumption)
  · assumption

theorem keeps_State_refuseEvent {s : State} {g : LogId} {r : WayRecord} :
    s.keepsBut [.way, .host, .regs, .out] (s.refuseEvent g r) := by
  have h0 : State.keepsBut s [.way, .host, .regs, .out] s := keepsBut_refl _ _
  unfold State.refuseEvent
  extract_lets +onlyGivenNames x0
  try clear_value x0
  extract_lets +onlyGivenNames x1
  have hx1 : State.keepsBut s [.way, .host, .regs, .out] x1 := by
    unfold x1
    exact keepsBut_step keeps_with_way (by decide) (by assumption)
  try clear_value x1
  extract_lets +onlyGivenNames x2
  have hx2 : State.keepsBut s [.way, .host, .regs, .out] x2 := by
    unfold x2
    exact keepsBut_step keeps_State_bump (by decide) (by assumption)
  try clear_value x2
  extract_lets +onlyGivenNames x3
  have hx3 : State.keepsBut s [.way, .host, .regs, .out] x3 := by
    unfold x3
    refine keepsBut_ite ?_ ?_
    · assumption
    · refine keepsBut_step keeps_State_raiseInt (by decide) ?_
      exact keepsBut_step keeps_State_buffer (by decide) (by assumption)
  try clear_value x3
  exact keepsBut_step keeps_State_eventReport (by decide) (by assumption)

theorem keeps_State_decideEvent {s : State} {g : LogId} {r : WayRecord} :
    s.keepsBut [.way, .host, .regs, .out] (s.decideEvent g r) := by
  have h0 : State.keepsBut s [.way, .host, .regs, .out] s := keepsBut_refl _ _
  unfold State.decideEvent
  refine keepsBut_ite ?_ ?_
  · exact keepsBut_step keeps_State_refuseEvent (by decide) (by assumption)
  · refine keepsBut_step keeps_State_eventReport (by decide) ?_
    exact keepsBut_step keeps_State_buffer (by decide) (by assumption)

theorem keeps_State_acceptEvent {s : State} {g : LogId} {r : WayRecord} :
    s.keepsBut [.way, .host, .regs, .out] (s.acceptEvent g r) := by
  have h0 : State.keepsBut s [.way, .host, .regs, .out] s := keepsBut_refl _ _
  unfold State.acceptEvent
  refine keepsBut_ite ?_ ?_
  · refine keepsBut_step keeps_State_raiseInt (by decide) ?_
    exact keepsBut_step keeps_State_bump (by decide) (by assumption)
  · extract_lets +onlyGivenNames x0
    have hx0 : State.keepsBut s [.way, .host, .regs, .out] x0 := by
      unfold x0
      exact keepsBut_step keeps_State_bump (by decide) (by assumption)
    try clear_value x0
    refine keepsBut_ite ?_ ?_
    · exact keepsBut_step keeps_State_decideEvent (by decide) (by assumption)
    · exact keepsBut_step keeps_State_buffer (by decide) (by assumption)

theorem keeps_State_event {s : State} {g : LogId} {source : ℕ} {code : ℕ} {set : ℕ} {payload : ℕ} :
    s.keepsBut [.way, .host, .regs, .out] (s.event g source code set payload) := by
  have h0 : State.keepsBut s [.way, .host, .regs, .out] s := keepsBut_refl _ _
  unfold State.event
  exact keepsBut_step keeps_State_acceptEvent (by decide) (by assumption)

theorem keeps_State_eventLimited {s : State} {g : LogId} {sp : Span} {who : ℕ} {source : ℕ} {code : ℕ} {set : ℕ} {payload : ℕ} :
    s.keepsBut [.way, .host, .limits, .regs, .out] (s.eventLimited g sp who source code set payload) := by
  have h0 : State.keepsBut s [.way, .host, .limits, .regs, .out] s := keepsBut_refl _ _
  unfold State.eventLimited
  extract_lets +onlyGivenNames x0
  try clear_value x0
  refine keepsBut_ite ?_ ?_
  · exact keepsBut_step keeps_State_event (by decide) (by assumption)
  · refine keepsBut_ite ?_ ?_
    · assumption
    · refine keepsBut_step keeps_State_event (by decide) ?_
      exact keepsBut_step keeps_with_limits (by decide) (by assumption)

theorem keeps_State_note {s : State} {c : Counter} {g : LogId} {sp : Span} {who : ℕ} {payload : ℕ} :
    s.keepsBut [.way, .host, .limits, .regs, .out] (s.note c g sp who payload) := by
  have h0 : State.keepsBut s [.way, .host, .limits, .regs, .out] s := keepsBut_refl _ _
  unfold State.note
  refine keepsBut_step keeps_State_eventLimited (by decide) ?_
  exact keepsBut_step keeps_State_bump (by decide) (by assumption)

theorem keeps_State_postFailed {s : State} :
    s.keepsBut [.way, .host, .limits, .regs, .out] (s.postFailed) := by
  have h0 : State.keepsBut s [.way, .host, .limits, .regs, .out] s := keepsBut_refl _ _
  unfold State.postFailed
  refine keepsBut_step keeps_State_note (by decide) ?_
  refine keepsBut_step keeps_State_raiseInt (by decide) ?_
  refine keepsBut_ite ?_ ?_
  · exact keepsBut_step keeps_State_raiseInt (by decide) (by assumption)
  · assumption

theorem keeps_State_acceptQ {s u : State} {t : Task} (h : s.accept? t = some u) : s.keepsBut [.cch, .regs, .out] u := by
  have h0 : State.keepsBut s [.cch, .regs, .out] s := keepsBut_refl _ _
  unfold State.accept? at h
  split at h
  · cases h
  · cases h
    refine keepsBut_ite ?_ ?_
    · refine keepsBut_step keeps_State_raiseInt (by decide) ?_
      refine keepsBut_ite ?_ ?_
      · refine keepsBut_step keeps_State_bump (by decide) ?_
        refine keepsBut_step keeps_State_bump (by decide) ?_
        exact keepsBut_step keeps_with_cch (by decide) (by assumption)
      · refine keepsBut_step keeps_State_bump (by decide) ?_
        exact keepsBut_step keeps_with_cch (by decide) (by assumption)
    · refine keepsBut_ite ?_ ?_
      · refine keepsBut_step keeps_State_bump (by decide) ?_
        refine keepsBut_step keeps_State_bump (by decide) ?_
        exact keepsBut_step keeps_with_cch (by decide) (by assumption)
      · refine keepsBut_step keeps_State_bump (by decide) ?_
        exact keepsBut_step keeps_with_cch (by decide) (by assumption)

theorem keeps_State_post {s : State} {t : Task} :
    s.keepsBut [.way, .host, .limits, .cch, .regs, .out] (s.post t).1 := by
  have h0 : State.keepsBut s [.way, .host, .limits, .cch, .regs, .out] s := keepsBut_refl _ _
  unfold State.post
  split
  · dsimp only
    refine keepsBut_step keeps_State_dispatch (by decide) ?_
    exact keepsBut_step (keeps_State_acceptQ (by assumption)) (by decide) h0
  · dsimp only
    exact keepsBut_step keeps_State_postFailed (by decide) (by assumption)

theorem keeps_State_modRfm {s : State} {f : Rfm → Rfm} :
    s.keepsBut [.rfm] (s.modRfm f) := by
  have h0 : State.keepsBut s [.rfm] s := keepsBut_refl _ _
  unfold State.modRfm
  exact keepsBut_step keeps_with_rfm (by decide) (by assumption)

theorem keeps_State_setRadio {s : State} {n : ℕ} {r : Radio} :
    s.keepsBut [.rfm] (s.setRadio n r) := by
  have h0 : State.keepsBut s [.rfm] s := keepsBut_refl _ _
  unfold State.setRadio
  exact keepsBut_step keeps_State_modRfm (by decide) (by assumption)

theorem keeps_State_queueRfBeacon {s : State} {n : ℕ} {chan : ℕ} {b : BeaconDue} :
    s.keepsBut [.regs, .out, .rfm] (s.queueRfBeacon n chan b) := by
  have h0 : State.keepsBut s [.regs, .out, .rfm] s := keepsBut_refl _ _
  unfold State.queueRfBeacon
  refine keepsBut_ite ?_ ?_
  · assumption
  · refine keepsBut_ite ?_ ?_
    · refine keepsBut_step keeps_State_bump (by decide) ?_
      exact keepsBut_step keeps_State_raiseInt (by decide) (by assumption)
    · extract_lets +onlyGivenNames x0
      try clear_value x0
      extract_lets +onlyGivenNames x1
      try clear_value x1
      exact keepsBut_step keeps_State_setRadio (by decide) (by assumption)

theorem keeps_State_enterNonce {s : State} {j : Job} :
    s.keepsBut [.sec] (s.enterNonce j) := by
  have h0 : State.keepsBut s [.sec] s := keepsBut_refl _ _
  unfold State.enterNonce
  split
  · extract_lets +onlyGivenNames x0
    try clear_value x0
    exact keepsBut_step keeps_with_sec (by decide) (by assumption)
  · assumption

theorem keeps_State_openJob {s : State} {j : JobRef} {code : ℕ} :
    s.keepsBut [.host] (s.openJob j code) := by
  have h0 : State.keepsBut s [.host] s := keepsBut_refl _ _
  unfold State.openJob
  exact keepsBut_step keeps_with_host (by decide) (by assumption)

theorem keeps_State_jobReport {s : State} {j : JobRef} {b : ReportBody} {d : ReportData} {final : Bool} :
    s.keepsBut [.host, .regs] (s.jobReport j b d final) := by
  have h0 : State.keepsBut s [.host, .regs] s := keepsBut_refl _ _
  unfold State.jobReport
  exact keepsBut_step keeps_State_route (by decide) (by assumption)

theorem keeps_State_closeJob {s : State} {j : JobRef} :
    s.keepsBut [.host] (s.closeJob j) := by
  have h0 : State.keepsBut s [.host] s := keepsBut_refl _ _
  unfold State.closeJob
  exact keepsBut_step keeps_with_host (by decide) (by assumption)

theorem keeps_State_finishJob {s : State} {j : JobRef} {status : ℕ} {reason : Reason} {outcome : ℕ} {detail : List Byte} {data :
    ReportData} :
    s.keepsBut [.host, .regs] (s.finishJob j status reason outcome detail data) := by
  have h0 : State.keepsBut s [.host, .regs] s := keepsBut_refl _ _
  unfold State.finishJob
  refine keepsBut_step keeps_State_jobReport (by decide) ?_
  exact keepsBut_step keeps_State_closeJob (by decide) (by assumption)

theorem keeps_State_rejectJob {s : State} {j : JobRef} {reason : Reason} :
    s.keepsBut [.host, .regs] (s.rejectJob j reason) := by
  have h0 : State.keepsBut s [.host, .regs] s := keepsBut_refl _ _
  unfold State.rejectJob
  refine keepsBut_step keeps_State_bump (by decide) ?_
  exact keepsBut_step keeps_State_finishJob (by decide) (by assumption)

theorem keeps_State_checkMet {s : State} {bit : ℕ} :
    s.keepsBut [.upd] (s.checkMet bit) := by
  have h0 : State.keepsBut s [.upd] s := keepsBut_refl _ _
  unfold State.checkMet
  refine keepsBut_ite ?_ ?_
  · assumption
  · exact keepsBut_step keeps_with_upd (by decide) (by assumption)

theorem keeps_State_onAccept {L : List Part} {s0 : State} {s : State} {j : Job} {f : State → State} (sub : ∀ p ∈ [.way, .host, .limits,
    .cch, .regs, .out, .upd, .sec], p ∈ L)
    (hf : ∀ u, s0.keepsBut L u → s0.keepsBut L (f u)) (h0 : s0.keepsBut L s) : s0.keepsBut L (s.onAccept j f) := by
  unfold State.onAccept
  extract_lets +onlyGivenNames x0
  have hx0 : State.keepsBut s0 L x0.1 := by
    unfold x0
    refine keepsBut_iteFst ?_ ?_
    · dsimp only
      assumption
    · exact keepsBut_step keeps_State_post (keepsBut_sub (by decide) sub) (by assumption)
  try clear_value x0
  refine keepsBut_ite ?_ ?_
  · extract_lets +onlyGivenNames x1
    have hx1 : State.keepsBut s0 L x1 := by
      unfold x1
      refine keepsBut_step keeps_State_openJob (keepsBut_sub (by decide) sub) ?_
      exact keepsBut_step keeps_State_enterNonce (keepsBut_sub (by decide) sub) (by assumption)
    try clear_value x1
    apply hf
    split
    · exact keepsBut_step keeps_State_checkMet (keepsBut_sub (by decide) sub) (by assumption)
    · exact keepsBut_step keeps_State_checkMet (keepsBut_sub (by decide) sub) (by assumption)
    · assumption
  · exact keepsBut_step keeps_State_rejectJob (keepsBut_sub (by decide) sub) (by assumption)

theorem keeps_State_takeTicket {s : State} :
    s.keepsBut [.ing] (s.takeTicket) := by
  have h0 : State.keepsBut s [.ing] s := keepsBut_refl _ _
  unfold State.takeTicket
  exact keepsBut_step keeps_with_ing (by decide) (by assumption)

theorem keeps_State_queueOp {s : State} {lane : Fin 4} {o : CtxOp} :
    s.keepsBut [.ing] (s.queueOp lane o) := by
  have h0 : State.keepsBut s [.ing] s := keepsBut_refl _ _
  unfold State.queueOp
  refine keepsBut_step keeps_State_takeTicket (by decide) ?_
  exact keepsBut_step keeps_with_ing (by decide) (by assumption)

theorem keeps_State_setHport {s : State} {p : ℕ} {v : HwlPort} :
    s.keepsBut [.hwl] (s.setHport p v) := by
  have h0 : State.keepsBut s [.hwl] s := keepsBut_refl _ _
  unfold State.setHport
  exact keepsBut_step keeps_with_hwl (by decide) (by assumption)

theorem keeps_State_noteStall {s : State} {p : ℕ} :
    s.keepsBut [.regs, .hwl] (s.noteStall p) := by
  have h0 : State.keepsBut s [.regs, .hwl] s := keepsBut_refl _ _
  unfold State.noteStall
  extract_lets +onlyGivenNames x0
  try clear_value x0
  extract_lets +onlyGivenNames x1
  try clear_value x1
  split
  · refine keepsBut_ite ?_ ?_
    · exact keepsBut_step keeps_State_setHport (by decide) (by assumption)
    · assumption
  · refine keepsBut_ite ?_ ?_
    · assumption
    · refine keepsBut_step keeps_State_bumpBy (by decide) ?_
      exact keepsBut_step keeps_State_setHport (by decide) (by assumption)

theorem keeps_State_hwlTransmit {s : State} {p : ℕ} {k : HwlPacket} :
    s.keepsBut [.regs, .out, .hwl] (s.hwlTransmit p k) := by
  have h0 : State.keepsBut s [.regs, .out, .hwl] s := keepsBut_refl _ _
  unfold State.hwlTransmit
  extract_lets +onlyGivenNames x0
  try clear_value x0
  extract_lets +onlyGivenNames x1
  try clear_value x1
  refine keepsBut_step keeps_State_bump (by decide) ?_
  refine keepsBut_step keeps_State_emit (by decide) ?_
  exact keepsBut_step keeps_State_setHport (by decide) (by assumption)

theorem keeps_State_hwlPump {s : State} {p : ℕ} {a2 : ℕ} :
    s.keepsBut [.regs, .out, .hwl] (s.hwlPump p a2) := by
  induction a2 generalizing s with
  | zero => exact keeps_State_noteStall.weaken (by decide)
  | succ n ih =>
    rw [State.hwlPump]
    split
    · exact keeps_State_noteStall.weaken (by decide)
    · exact keepsBut_step ih (by decide) (keeps_State_hwlTransmit.weaken (by decide))

theorem keeps_State_hwlQueue {s : State} {p : ℕ} {k : HwlPacket} :
    s.keepsBut [.regs, .out, .hwl] (s.hwlQueue p k) := by
  have h0 : State.keepsBut s [.regs, .out, .hwl] s := keepsBut_refl _ _
  unfold State.hwlQueue
  extract_lets +onlyGivenNames x0
  try clear_value x0
  extract_lets +onlyGivenNames x1
  have hx1 : State.keepsBut s [.regs, .out, .hwl] x1 := by
    unfold x1
    exact keepsBut_step keeps_State_setHport (by decide) (by assumption)
  try clear_value x1
  exact keepsBut_step keeps_State_hwlPump (by decide) (by assumption)

theorem keeps_State_hwlSend {s : State} {d : ℕ} {tag : BitVec 32} {b : HwlBody} :
    s.keepsBut [.way, .host, .limits, .regs, .out, .hwl] (s.hwlSend d tag b) := by
  have h0 : State.keepsBut s [.way, .host, .limits, .regs, .out, .hwl] s := keepsBut_refl _ _
  unfold State.hwlSend
  extract_lets +onlyGivenNames x0
  try clear_value x0
  refine keepsBut_ite ?_ ?_
  · exact keepsBut_step keeps_State_note (by decide) (by assumption)
  · exact keepsBut_step keeps_State_hwlQueue (by decide) (by assumption)

theorem keeps_State_modHwl {s : State} {f : Hwl → Hwl} :
    s.keepsBut [.hwl] (s.modHwl f) := by
  have h0 : State.keepsBut s [.hwl] s := keepsBut_refl _ _
  unfold State.modHwl
  exact keepsBut_step keeps_with_hwl (by decide) (by assumption)

theorem keeps_State_sequenceWork {s : State} {i : ℕ} {w : SeqWork} {ref : JobRef} :
    s.keepsBut [.way, .host, .limits, .regs, .out, .hwl, .ing] (s.sequenceWork i w ref) := by
  have h0 : State.keepsBut s [.way, .host, .limits, .regs, .out, .hwl, .ing] s := keepsBut_refl _ _
  unfold State.sequenceWork
  refine keepsBut_ite ?_ ?_
  · split
    · exact keepsBut_step keeps_State_queueOp (by decide) (by assumption)
    · exact keepsBut_step keeps_State_queueOp (by decide) (by assumption)
  · refine keepsBut_step keeps_State_hwlSend (by decide) ?_
    exact keepsBut_step keeps_State_modHwl (by decide) (by assumption)

theorem keeps_State_unwrapFails {s : State} {j : Job} {slot : ℕ} :
    s.keepsBut [.way, .host, .limits, .regs, .out] (s.unwrapFails j slot) := by
  have h0 : State.keepsBut s [.way, .host, .limits, .regs, .out] s := keepsBut_refl _ _
  unfold State.unwrapFails
  refine keepsBut_step keeps_State_rejectJob (by decide) ?_
  exact keepsBut_step keeps_State_note (by decide) (by assumption)

theorem keeps_State_runEnrol {s : State} {j : Job} {a : EnrolArgs} :
    s.keepsBut [.way, .host, .limits, .cch, .regs, .out, .upd, .sec, .hwl, .ing] (s.runEnrol j a) := by
  have h0 : State.keepsBut s [.way, .host, .limits, .cch, .regs, .out, .upd, .sec, .hwl, .ing] s := keepsBut_refl _ _
  unfold State.runEnrol
  refine keepsBut_ite ?_ ?_
  · exact keepsBut_step keeps_State_rejectJob (by decide) (by assumption)
  · split
    · exact keepsBut_step keeps_State_rejectJob (by decide) (by assumption)
    · refine keepsBut_ite ?_ ?_
      · exact keepsBut_step keeps_State_rejectJob (by decide) (by assumption)
      · refine keepsBut_ite ?_ ?_
        · exact keepsBut_step keeps_State_unwrapFails (by decide) (by assumption)
        · refine keeps_State_onAccept (by decide) ?_ ?_
          · intro u hu
            try beta_reduce
            exact keepsBut_step keeps_State_sequenceWork (by decide) (by assumption)
          · assumption

theorem keeps_State_modCyc {s : State} {f : Cyc → Cyc} :
    s.keepsBut [.cyc] (s.modCyc f) := by
  have h0 : State.keepsBut s [.cyc] s := keepsBut_refl _ _
  unfold State.modCyc
  exact keepsBut_step keeps_with_cyc (by decide) (by assumption)

theorem keeps_State_drawn {s : State} :
    s.keepsBut [.draws] (s.drawn) := by
  have h0 : State.keepsBut s [.draws] s := keepsBut_refl _ _
  unfold State.drawn
  exact keepsBut_step keeps_with_draws (by decide) (by assumption)

theorem keeps_State_signStatement {s : State} :
    s.keepsBut [.sec, .draws] (s.signStatement) := by
  have h0 : State.keepsBut s [.sec, .draws] s := keepsBut_refl _ _
  unfold State.signStatement
  refine keepsBut_step keeps_State_drawn (by decide) ?_
  exact keepsBut_step keeps_State_modSec (by decide) (by assumption)

theorem keeps_State_setKeySlot {s : State} {k : ℕ} {v : KeySlot} :
    s.keepsBut [.sec] (s.setKeySlot k v) := by
  have h0 : State.keepsBut s [.sec] s := keepsBut_refl _ _
  unfold State.setKeySlot
  exact keepsBut_step keeps_State_modSec (by decide) (by assumption)

theorem keeps_State_fillFixed {s : State} :
    s.keepsBut [.regs, .sec] (s.fillFixed) := by
  have h0 : State.keepsBut s [.regs, .sec] s := keepsBut_refl _ _
  unfold State.fillFixed
  extract_lets +onlyGivenNames x0
  try clear_value x0
  refine keepsBut_step keeps_State_bumpBy (by decide) ?_
  refine keepsBut_foldl ?_ ?_
  · intro u a hu
    try beta_reduce
    · exact keepsBut_step keeps_State_setKeySlot (by decide) (by assumption)
  · exact keepsBut_step keeps_State_setKeySlot (by decide) (by assumption)

theorem keeps_State_decideDebug {s : State} :
    s.keepsBut [.way, .host, .regs, .out, .sec] (s.decideDebug) := by
  have h0 : State.keepsBut s [.way, .host, .regs, .out, .sec] s := keepsBut_refl _ _
  unfold State.decideDebug
  extract_lets +onlyGivenNames x0
  try clear_value x0
  extract_lets +onlyGivenNames x1
  try clear_value x1
  extract_lets +onlyGivenNames x2
  have hx2 : State.keepsBut s [.way, .host, .regs, .out, .sec] x2 := by
    unfold x2
    refine keepsBut_ite ?_ ?_
    · refine keepsBut_step keeps_State_event (by decide) ?_
      exact keepsBut_step keeps_State_modSec (by decide) (by assumption)
    · assumption
  try clear_value x2
  split
  · refine keepsBut_ite ?_ ?_
    · exact keepsBut_step keeps_State_modSec (by decide) (by assumption)
    · refine keepsBut_ite ?_ ?_
      · exact keepsBut_step keeps_State_modSec (by decide) (by assumption)
      · assumption
  · refine keepsBut_ite ?_ ?_
    · exact keepsBut_step keeps_State_modSec (by decide) (by assumption)
    · assumption

theorem keeps_State_loadGens {s : State} :
    s.keepsBut [.way, .host, .regs, .out, .sec] (s.loadGens) := by
  have h0 : State.keepsBut s [.way, .host, .regs, .out, .sec] s := keepsBut_refl _ _
  unfold State.loadGens
  refine keepsBut_ite ?_ ?_
  · assumption
  · refine keepsBut_ite ?_ ?_
    · refine keepsBut_step keeps_State_event (by decide) ?_
      refine keepsBut_step keeps_State_raiseInt (by decide) ?_
      exact keepsBut_step keeps_State_modSec (by decide) (by assumption)
    · split
      · exact keepsBut_step keeps_State_modSec (by decide) (by assumption)
      · exact keepsBut_step keeps_State_modSec (by decide) (by assumption)

theorem keeps_State_startSec {s : State} :
    s.keepsBut [.way, .host, .regs, .out, .sec, .draws] (s.startSec) := by
  have h0 : State.keepsBut s [.way, .host, .regs, .out, .sec, .draws] s := keepsBut_refl _ _
  unfold State.startSec
  extract_lets +onlyGivenNames x0
  have hx0 : State.keepsBut s [.way, .host, .regs, .out, .sec, .draws] x0 := by
    unfold x0
    exact keepsBut_step keeps_State_decideDebug (by decide) (by assumption)
  try clear_value x0
  extract_lets +onlyGivenNames x1
  have hx1 : State.keepsBut s [.way, .host, .regs, .out, .sec, .draws] x1 := by
    unfold x1
    refine keepsBut_ite ?_ ?_
    · assumption
    · exact keepsBut_step keeps_State_modSec (by decide) (by assumption)
  try clear_value x1
  refine keepsBut_step keeps_State_signStatement (by decide) ?_
  refine keepsBut_step keeps_State_fillFixed (by decide) ?_
  exact keepsBut_step keeps_State_loadGens (by decide) (by assumption)

theorem keeps_State_countEcc {s : State} {a1 : EccOutcome} :
    s.keepsBut [.way, .host, .limits, .regs, .out] (s.countEcc a1) := by
  have h0 : State.keepsBut s [.way, .host, .limits, .regs, .out] s := keepsBut_refl _ _
  unfold State.countEcc
  split
  · assumption
  · exact keepsBut_step keeps_State_bump (by decide) (by assumption)
  · exact keepsBut_step keeps_State_note (by decide) (by assumption)

theorem keeps_State_seqReturned {s : State} {w : SeqWork} :
    s.keepsBut [.host, .regs, .hwl] (s.seqReturned w) := by
  have h0 : State.keepsBut s [.host, .regs, .hwl] s := keepsBut_refl _ _
  unfold State.seqReturned
  split
  · assumption
  · refine keepsBut_step keeps_State_finishJob (by decide) ?_
    exact keepsBut_step keeps_with_hwl (by decide) (by assumption)

theorem keeps_State_streamOp {s : State} {g : Gmn} {o : CtxOp} {w : Option SeqWork} :
    s.keepsBut [.host, .regs, .hwl, .ing] (s.streamOp g o w) := by
  have h0 : State.keepsBut s [.host, .regs, .hwl, .ing] s := keepsBut_refl _ _
  unfold State.streamOp
  extract_lets +onlyGivenNames x0
  have hx0 : State.keepsBut s [.host, .regs, .hwl, .ing] x0 := by
    unfold x0
    split
    · exact keepsBut_step keeps_State_seqReturned (by decide) (by assumption)
    · assumption
  try clear_value x0
  split
  · exact keepsBut_step keeps_State_queueOp (by decide) (by assumption)
  · assumption

theorem keeps_State_syncPart {s : State} {g : Gmn} {reason : ℕ} {part : ℕ} {parts : ℕ} {data : List Byte} :
    s.keepsBut [.host, .regs, .hwl, .ing] (s.syncPart g reason part parts data) := by
  have h0 : State.keepsBut s [.host, .regs, .hwl, .ing] s := keepsBut_refl _ _
  unfold State.syncPart
  extract_lets +onlyGivenNames x0
  try clear_value x0
  extract_lets +onlyGivenNames x1
  try clear_value x1
  refine keepsBut_ite ?_ ?_
  · assumption
  · extract_lets +onlyGivenNames x2
    try clear_value x2
    refine keepsBut_ite ?_ ?_
    · exact keepsBut_step keeps_State_modHwl (by decide) (by assumption)
    · extract_lets +onlyGivenNames x3
      try clear_value x3
      extract_lets +onlyGivenNames x4
      try clear_value x4
      refine keepsBut_step keeps_State_streamOp (by decide) ?_
      exact keepsBut_step keeps_State_modHwl (by decide) (by assumption)

theorem keeps_State_setBalGroup {s : State} {g : ℕ} {v : BalGroup} :
    s.keepsBut [.bal] (s.setBalGroup g v) := by
  have h0 : State.keepsBut s [.bal] s := keepsBut_refl _ _
  unfold State.setBalGroup
  exact keepsBut_step keeps_with_bal (by decide) (by assumption)

theorem keeps_State_pruneGroup {s : State} {g : ℕ} :
    s.keepsBut [.bal] (s.pruneGroup g) := by
  have h0 : State.keepsBut s [.bal] s := keepsBut_refl _ _
  unfold State.pruneGroup
  extract_lets +onlyGivenNames x0
  try clear_value x0
  extract_lets +onlyGivenNames x1
  try clear_value x1
  exact keepsBut_step keeps_State_setBalGroup (by decide) (by assumption)

theorem keeps_State_finalAnswer {s : State} {f : FinalHeld} :
    s.keepsBut [.host, .regs] (s.finalAnswer f) := by
  have h0 : State.keepsBut s [.host, .regs] s := keepsBut_refl _ _
  unfold State.finalAnswer
  exact keepsBut_step keeps_State_finishJob (by decide) (by assumption)

theorem keeps_State_issueReading {s : State} {p : PendingReading} :
    s.keepsBut [.host, .regs] (s.issueReading p) := by
  have h0 : State.keepsBut s [.host, .regs] s := keepsBut_refl _ _
  unfold State.issueReading
  extract_lets +onlyGivenNames x0
  try clear_value x0
  extract_lets +onlyGivenNames x1
  try clear_value x1
  split
  · exact keepsBut_step keeps_State_route (by decide) (by assumption)
  · refine keepsBut_step keeps_State_finalAnswer (by decide) ?_
    exact keepsBut_step keeps_State_route (by decide) (by assumption)

theorem keeps_State_flushFrom {s : State} {a1 : List PendingReading} {a2 : List PendingReading} :
    s.keepsBut [.host, .regs, .readings] (s.flushFrom a1 a2) := by
  induction a1 generalizing s a2 with
  | nil =>
    rw [State.flushFrom]
    exact keeps_with_readings.weaken (by decide)
  | cons p rest ih =>
    rw [State.flushFrom]
    split
    · exact keepsBut_step ih (by decide) (keeps_State_issueReading.weaken (by decide))
    · exact ih

theorem keeps_State_flushReadings {s : State} :
    s.keepsBut [.host, .regs, .readings] (s.flushReadings) := by
  have h0 : State.keepsBut s [.host, .regs, .readings] s := keepsBut_refl _ _
  unfold State.flushReadings
  exact keepsBut_step keeps_State_flushFrom (by decide) (by assumption)

theorem keeps_State_markReading {s : State} {id : ℕ} {f : PendingReading → PendingReading} :
    s.keepsBut [.host, .regs, .readings] (s.markReading id f) := by
  have h0 : State.keepsBut s [.host, .regs, .readings] s := keepsBut_refl _ _
  unfold State.markReading
  refine keepsBut_step keeps_State_flushReadings (by decide) ?_
  exact keepsBut_step keeps_with_readings (by decide) (by assumption)

theorem keeps_State_launchNow {s : State} {p : ℕ} {f : LaunchFrame} {start : ℕ} {due : ℕ} {ahead : Bool} :
    s.keepsBut [.regs, .out] (s.launchNow p f start due ahead) := by
  have h0 : State.keepsBut s [.regs, .out] s := keepsBut_refl _ _
  unfold State.launchNow
  extract_lets +onlyGivenNames x0
  try clear_value x0
  extract_lets +onlyGivenNames x1
  try clear_value x1
  extract_lets +onlyGivenNames x2
  try clear_value x2
  extract_lets +onlyGivenNames x3
  have hd : ∀ b, State.keepsBut s [.regs, .out] (x3 b) := by
    intro b
    unfold x3
    exact keepsBut_step keeps_State_emit (by decide) h0
  try clear_value x3
  refine keepsBut_ite ?_ ?_
  · refine keepsBut_step keeps_State_bump (by decide) ?_
    exact hd _
  · refine keepsBut_ite ?_ ?_
    · refine keepsBut_step keeps_State_bump (by decide) ?_
      exact hd _
    · refine keepsBut_step keeps_State_bump (by decide) ?_
      refine keepsBut_step keeps_State_bump (by decide) ?_
      exact hd _

theorem keeps_State_takeSnapId {s : State} :
    s.keepsBut [.bal] (s.takeSnapId) := by
  have h0 : State.keepsBut s [.bal] s := keepsBut_refl _ _
  unfold State.takeSnapId
  exact keepsBut_step keeps_with_bal (by decide) (by assumption)

theorem keeps_State_modPlc {s : State} {f : Plc → Plc} :
    s.keepsBut [.plc] (s.modPlc f) := by
  have h0 : State.keepsBut s [.plc] s := keepsBut_refl _ _
  unfold State.modPlc
  exact keepsBut_step keeps_with_plc (by decide) (by assumption)

theorem keeps_State_queuePlcBeacon {s : State} {b : BeaconDue} :
    s.keepsBut [.plc, .regs, .out] (s.queuePlcBeacon b) := by
  have h0 : State.keepsBut s [.plc, .regs, .out] s := keepsBut_refl _ _
  unfold State.queuePlcBeacon
  refine keepsBut_ite ?_ ?_
  · assumption
  · refine keepsBut_ite ?_ ?_
    · refine keepsBut_step keeps_State_bump (by decide) ?_
      exact keepsBut_step keeps_State_raiseInt (by decide) (by assumption)
    · exact keepsBut_step keeps_State_modPlc (by decide) (by assumption)

theorem keeps_State_queueFreeze {s : State} {snapId : ℕ} {ref : ℕ} {target : ℕ} :
    s.keepsBut [.plc, .regs, .out, .rfm] (s.queueFreeze snapId ref target) := by
  have h0 : State.keepsBut s [.plc, .regs, .out, .rfm] s := keepsBut_refl _ _
  unfold State.queueFreeze
  refine keepsBut_ite ?_ ?_
  · assumption
  · extract_lets +onlyGivenNames x0
    try clear_value x0
    extract_lets +onlyGivenNames x1
    have hx1 : State.keepsBut s [.plc, .regs, .out, .rfm] x1 := by
      unfold x1
      exact keepsBut_step keeps_State_queuePlcBeacon (by decide) (by assumption)
    try clear_value x1
    refine keepsBut_foldl ?_ ?_
    · intro u a hu
      try beta_reduce
      · exact keepsBut_step keeps_State_queueRfBeacon (by decide) (by assumption)
    · assumption

theorem keeps_State_addSnapshot {s : State} {x : Snapshot} :
    s.keepsBut [.bal] (s.addSnapshot x) := by
  have h0 : State.keepsBut s [.bal] s := keepsBut_refl _ _
  unfold State.addSnapshot
  exact keepsBut_step keeps_with_bal (by decide) (by assumption)

theorem keeps_State_beginSnapshot {s : State} {j : Job} {group : ℕ} {all : Bool} {lead : ℕ} {gmns : List Gmn} :
    s.keepsBut [.plc, .bal, .regs, .out, .rfm] (s.beginSnapshot j group all lead gmns) := by
  have h0 : State.keepsBut s [.plc, .bal, .regs, .out, .rfm] s := keepsBut_refl _ _
  unfold State.beginSnapshot
  extract_lets +onlyGivenNames x0
  try clear_value x0
  extract_lets +onlyGivenNames x1
  try clear_value x1
  extract_lets +onlyGivenNames x2
  try clear_value x2
  extract_lets +onlyGivenNames x3
  try clear_value x3
  extract_lets +onlyGivenNames x4
  try clear_value x4
  extract_lets +onlyGivenNames x5
  try clear_value x5
  extract_lets +onlyGivenNames x6
  try clear_value x6
  extract_lets +onlyGivenNames x7
  have hx7 : State.keepsBut s [.plc, .bal, .regs, .out, .rfm] x7 := by
    unfold x7
    refine keepsBut_step keeps_State_addSnapshot (by decide) ?_
    refine keepsBut_step keeps_State_bump (by decide) ?_
    refine keepsBut_step keeps_State_bumpBy (by decide) ?_
    exact keepsBut_step keeps_State_takeSnapId (by decide) (by assumption)
  try clear_value x7
  refine keepsBut_foldl ?_ ?_
  · intro u a hu
    try beta_reduce
    · exact keepsBut_step keeps_State_queueFreeze (by decide) (by assumption)
  · assumption

theorem keeps_State_hwlFlood {s : State} {tag : BitVec 32} {b : HwlBody} :
    s.keepsBut [.regs, .out, .hwl] (s.hwlFlood tag b) := by
  have h0 : State.keepsBut s [.regs, .out, .hwl] s := keepsBut_refl _ _
  unfold State.hwlFlood
  refine keepsBut_foldl ?_ ?_
  · intro u a hu
    try beta_reduce
    · exact keepsBut_step keeps_State_hwlQueue (by decide) (by assumption)
  · assumption

theorem keeps_State_announce {s : State} :
    s.keepsBut [.regs, .out, .hwl] (s.announce) := by
  have h0 : State.keepsBut s [.regs, .out, .hwl] s := keepsBut_refl _ _
  unfold State.announce
  refine keepsBut_ite ?_ ?_
  · assumption
  · extract_lets +onlyGivenNames x0
    try clear_value x0
    refine keepsBut_step keeps_State_hwlFlood (by decide) ?_
    exact keepsBut_step keeps_State_modHwl (by decide) (by assumption)

theorem keeps_State_recomputeRoutes {s : State} :
    s.keepsBut [.regs, .hwl] (s.recomputeRoutes) := by
  have h0 : State.keepsBut s [.regs, .hwl] s := keepsBut_refl _ _
  unfold State.recomputeRoutes
  extract_lets +onlyGivenNames x0
  try clear_value x0
  refine keepsBut_ite ?_ ?_
  · assumption
  · refine keepsBut_step keeps_State_bump (by decide) ?_
    exact keepsBut_step keeps_State_modHwl (by decide) (by assumption)

theorem keeps_State_portState {s : State} {p : ℕ} {st : PortState} {isolate : ℕ} :
    s.keepsBut [.way, .host, .regs, .out, .hwl] (s.portState p st isolate) := by
  have h0 : State.keepsBut s [.way, .host, .regs, .out, .hwl] s := keepsBut_refl _ _
  unfold State.portState
  extract_lets +onlyGivenNames x0
  try clear_value x0
  refine keepsBut_ite ?_ ?_
  · assumption
  · extract_lets +onlyGivenNames x1
    have hx1 : State.keepsBut s [.way, .host, .regs, .out, .hwl] x1 := by
      unfold x1
      refine keepsBut_step keeps_State_event (by decide) ?_
      exact keepsBut_step keeps_State_setHport (by decide) (by assumption)
    try clear_value x1
    refine keepsBut_step keeps_State_announce (by decide) ?_
    refine keepsBut_step keeps_State_recomputeRoutes (by decide) ?_
    exact keepsBut_step keeps_State_raiseInt (by decide) (by assumption)

theorem keeps_State_setCq {s : State} {n : ℕ} {q : CmdQueue} :
    s.keepsBut [.host] (s.setCq n q) := by
  have h0 : State.keepsBut s [.host] s := keepsBut_refl _ _
  unfold State.setCq
  exact keepsBut_step keeps_with_host (by decide) (by assumption)

theorem keeps_State_zeroQueues {s : State} :
    s.keepsBut [.host, .regs] (s.zeroQueues) := by
  have h0 : State.keepsBut s [.host, .regs] s := keepsBut_refl _ _
  unfold State.zeroQueues
  extract_lets +onlyGivenNames x0
  have hx0 : State.keepsBut s [.host, .regs] x0 := by
    unfold x0
    refine keepsBut_foldl ?_ ?_
    · intro u a hu
      try beta_reduce
      · refine keepsBut_step keeps_State_stopQueue (by decide) ?_
        exact keepsBut_step keeps_State_setCq (by decide) (by assumption)
    · assumption
  try clear_value x0
  refine keepsBut_foldl ?_ ?_
  · intro u a hu
    try beta_reduce
    · exact keepsBut_step keeps_State_setRq (by decide) (by assumption)
  · assumption

theorem keeps_State_refuseAccess {s : State} {m : Master} {kind : ℕ} {t : ℕ} {addr : ℕ} :
    s.keepsBut [.way, .host, .limits, .regs, .out, .sec] (s.refuseAccess m kind t addr) := by
  have h0 : State.keepsBut s [.way, .host, .limits, .regs, .out, .sec] s := keepsBut_refl _ _
  unfold State.refuseAccess
  extract_lets +onlyGivenNames x0
  have hx0 : State.keepsBut s [.way, .host, .limits, .regs, .out, .sec] x0 := by
    unfold x0
    exact keepsBut_step keeps_State_bump (by decide) (by assumption)
  try clear_value x0
  extract_lets +onlyGivenNames x1
  try clear_value x1
  extract_lets +onlyGivenNames x2
  have hx2 : State.keepsBut s [.way, .host, .limits, .regs, .out, .sec] x2 := by
    unfold x2
    exact keepsBut_step keeps_with_sec (by decide) (by assumption)
  try clear_value x2
  refine keepsBut_step keeps_State_eventLimited (by decide) ?_
  exact keepsBut_step keeps_State_raiseInt (by decide) (by assumption)

theorem keeps_State_rejectAccess {s : State} {j : Job} {page : ℕ} {kind : ℕ} :
    s.keepsBut [.way, .host, .limits, .regs, .out, .sec] (s.rejectAccess j page kind) := by
  have h0 : State.keepsBut s [.way, .host, .limits, .regs, .out, .sec] s := keepsBut_refl _ _
  unfold State.rejectAccess
  refine keepsBut_step keeps_State_rejectJob (by decide) ?_
  exact keepsBut_step keeps_State_refuseAccess (by decide) (by assumption)

theorem keeps_State_acceptAndRun {L : List Part} {s0 : State} {s : State} {j : Job} {run : State → State} (sub : ∀ p ∈ [.way, .host,
    .limits, .regs, .out, .sec], p ∈ L)
    (hf : ∀ u, s0.keepsBut L u → s0.keepsBut L (run u)) (h0 : s0.keepsBut L s) : s0.keepsBut L (s.acceptAndRun j run) := by
  unfold State.acceptAndRun
  refine keepsBut_ite ?_ ?_
  · exact keepsBut_step keeps_State_rejectJob (keepsBut_sub (by decide) sub) (by assumption)
  · refine keepsBut_ite ?_ ?_
    · exact keepsBut_step keeps_State_rejectJob (keepsBut_sub (by decide) sub) (by assumption)
    · split
      · exact keepsBut_step keeps_State_rejectAccess (keepsBut_sub (by decide) sub) (by assumption)
      · split
        · exact keepsBut_step keeps_State_rejectJob (keepsBut_sub (by decide) sub) (by assumption)
        · apply hf; assumption

theorem keeps_State_setDelivery {s : State} {part : ℕ} {d : Option Delivery} :
    s.keepsBut [.upd] (s.setDelivery part d) := by
  have h0 : State.keepsBut s [.upd] s := keepsBut_refl _ _
  unfold State.setDelivery
  extract_lets +onlyGivenNames x0
  try clear_value x0
  exact keepsBut_step keeps_with_upd (by decide) (by assumption)

theorem keeps_State_openDelivery {s : State} {d : Delivery} :
    s.keepsBut [.way, .ful, .host, .limits, .regs, .out, .upd] (s.openDelivery d) := by
  have h0 : State.keepsBut s [.way, .ful, .host, .limits, .regs, .out, .upd] s := keepsBut_refl _ _
  unfold State.openDelivery
  extract_lets +onlyGivenNames x0
  have hx0 : State.keepsBut s [.way, .ful, .host, .limits, .regs, .out, .upd] x0 := by
    unfold x0
    refine keepsBut_ite ?_ ?_
    · exact keepsBut_step keeps_State_note (by decide) (by assumption)
    · assumption
  try clear_value x0
  extract_lets +onlyGivenNames x1
  have hx1 : State.keepsBut s [.way, .ful, .host, .limits, .regs, .out, .upd] x1 := by
    unfold x1
    refine keepsBut_step keeps_State_bump (by decide) ?_
    exact keepsBut_step keeps_State_setDelivery (by decide) (by assumption)
  try clear_value x1
  refine keepsBut_ite ?_ ?_
  · assumption
  · refine keepsBut_step keeps_State_toFuller (by decide) ?_
    exact keepsBut_step keeps_with_upd (by decide) (by assumption)

theorem keeps_State_unmapped {s : State} {m : Master} {a : ℕ} :
    s.keepsBut [.way, .host, .regs, .out] (s.unmapped m a) := by
  have h0 : State.keepsBut s [.way, .host, .regs, .out] s := keepsBut_refl _ _
  unfold State.unmapped
  refine keepsBut_step keeps_State_emit (by decide) ?_
  exact keepsBut_step keeps_State_event (by decide) (by assumption)

theorem keeps_State_setCtx {s : State} {i : ℕ} {c : Context} :
    s.keepsBut [.ctx] (s.setCtx i c) := by
  have h0 : State.keepsBut s [.ctx] s := keepsBut_refl _ _
  unfold State.setCtx
  exact keepsBut_step keeps_with_ctx (by decide) (by assumption)

theorem keeps_State_modCtx {s : State} {i : ℕ} {f : Context → Context} :
    s.keepsBut [.ctx] (s.modCtx i f) := by
  have h0 : State.keepsBut s [.ctx] s := keepsBut_refl _ _
  unfold State.modCtx
  exact keepsBut_step keeps_State_setCtx (by decide) (by assumption)

theorem keeps_State_heardDirect {s : State} {slot : ℕ} {chain : ℕ} {snr : ℕ} :
    s.keepsBut [.ctx] (s.heardDirect slot chain snr) := by
  have h0 : State.keepsBut s [.ctx] s := keepsBut_refl _ _
  unfold State.heardDirect
  exact keepsBut_step keeps_State_modCtx (by decide) (by assumption)

theorem keeps_State_sendHeld {s : State} {unmirrored : Bool} {l : List MirrorHeld} :
    s.keepsBut [.host] (s.sendHeld unmirrored l) := by
  have h0 : State.keepsBut s [.host] s := keepsBut_refl _ _
  unfold State.sendHeld
  refine keepsBut_foldl ?_ ?_
  · intro u a hu
    try beta_reduce
    · refine keepsBut_foldl ?_ ?_
      · intro u a hu
        try beta_reduce
        · exact keepsBut_step keeps_State_enqueue (by decide) (by assumption)
      · assumption
  · assumption

theorem keeps_State_writeRqCtrl {s : State} {n : Fin 4} {v : Word} :
    s.keepsBut [.host, .regs] (s.writeRqCtrl n v) := by
  have h0 : State.keepsBut s [.host, .regs] s := keepsBut_refl _ _
  unfold State.writeRqCtrl
  extract_lets +onlyGivenNames x0
  try clear_value x0
  extract_lets +onlyGivenNames x1
  try clear_value x1
  extract_lets +onlyGivenNames x2
  try clear_value x2
  refine keepsBut_ite ?_ ?_
  · refine keepsBut_ite ?_ ?_
    · assumption
    · exact keepsBut_step keeps_State_stopQueue (by decide) (by assumption)
  · extract_lets +onlyGivenNames x3
    try clear_value x3
    exact keepsBut_step keeps_State_setRq (by decide) (by assumption)

theorem keeps_State_writeTail {s : State} {n : ℕ} {v : Word} :
    s.keepsBut [.host, .regs, .out] (s.writeTail n v) := by
  have h0 : State.keepsBut s [.host, .regs, .out] s := keepsBut_refl _ _
  unfold State.writeTail
  extract_lets +onlyGivenNames x0
  try clear_value x0
  refine keepsBut_ite ?_ ?_
  · assumption
  · refine keepsBut_ite ?_ ?_
    · refine keepsBut_step keeps_State_raiseInt (by decide) ?_
      exact keepsBut_step keeps_State_bump (by decide) (by assumption)
    · exact keepsBut_step keeps_State_setCq (by decide) (by assumption)

theorem keeps_State_writeQueue {s : State} {a : ℕ} {v : Word} :
    s.keepsBut [.host, .regs, .out] (s.writeQueue a v) := by
  have h0 : State.keepsBut s [.host, .regs, .out] s := keepsBut_refl _ _
  unfold State.writeQueue
  refine keepsBut_ite ?_ ?_
  · exact keepsBut_step keeps_State_writeTail (by decide) (by assumption)
  · extract_lets +onlyGivenNames x0
    try clear_value x0
    extract_lets +onlyGivenNames x1
    try clear_value x1
    refine keepsBut_ite ?_ ?_
    · refine keepsBut_ite ?_ ?_
      · assumption
      · exact keepsBut_step keeps_State_setRq (by decide) (by assumption)
    · refine keepsBut_ite ?_ ?_
      · refine keepsBut_ite ?_ ?_
        · assumption
        · exact keepsBut_step keeps_State_setRq (by decide) (by assumption)
      · refine keepsBut_ite ?_ ?_
        · exact keepsBut_step keeps_State_writeRqCtrl (by decide) (by assumption)
        · exact keepsBut_step keeps_State_setRq (by decide) (by assumption)

theorem keeps_State_modEthPort {s : State} {p : ℕ} {f : EthPort → EthPort} :
    s.keepsBut [.eth] (s.modEthPort p f) := by
  have h0 : State.keepsBut s [.eth] s := keepsBut_refl _ _
  unfold State.modEthPort
  exact keepsBut_step keeps_with_eth (by decide) (by assumption)

theorem keeps_State_applyGates {s : State} {p : ℕ} :
    s.keepsBut [.eth] (s.applyGates p) := by
  have h0 : State.keepsBut s [.eth] s := keepsBut_refl _ _
  unfold State.applyGates
  extract_lets +onlyGivenNames x0
  try clear_value x0
  extract_lets +onlyGivenNames x1
  try clear_value x1
  exact keepsBut_step keeps_State_modEthPort (by decide) (by assumption)

theorem keeps_State_modPwr {s : State} {f : Pwr → Pwr} :
    s.keepsBut [.pwr] (s.modPwr f) := by
  have h0 : State.keepsBut s [.pwr] s := keepsBut_refl _ _
  unfold State.modPwr
  exact keepsBut_step keeps_with_pwr (by decide) (by assumption)

theorem keeps_State_noteNeighbour {s : State} {p : ℕ} {h : Hello} :
    s.keepsBut [.hwl] (s.noteNeighbour p h) := by
  have h0 : State.keepsBut s [.hwl] s := keepsBut_refl _ _
  unfold State.noteNeighbour
  exact keepsBut_step keeps_State_setHport (by decide) (by assumption)

theorem keeps_State_isolatePort {s : State} {p : ℕ} {cause : ℕ} :
    s.keepsBut [.way, .host, .regs, .out, .hwl] (s.isolatePort p cause) := by
  have h0 : State.keepsBut s [.way, .host, .regs, .out, .hwl] s := keepsBut_refl _ _
  unfold State.isolatePort
  extract_lets +onlyGivenNames x0
  have hx0 : State.keepsBut s [.way, .host, .regs, .out, .hwl] x0 := by
    unfold x0
    exact keepsBut_step keeps_State_portState (by decide) (by assumption)
  try clear_value x0
  exact keepsBut_step keeps_State_setHport (by decide) (by assumption)

end Sys2Proof.Machine
end

