-- ==== Sys2Proof/Laws/Keeps02.lean ====
section
/-!
SUPPORT. What each shared operation leaves of the state, one lemma an operation, an operation after those it is built from: from `linkUp`
to `closeSynthetic`.
-/

namespace Sys2Proof.Machine

theorem keeps_State_linkUp {s : State} {p : ℕ} {h : Hello} :
    s.keepsBut [.way, .host, .regs, .out, .hwl] (s.linkUp p h) := by
  have h0 : State.keepsBut s [.way, .host, .regs, .out, .hwl] s := keepsBut_refl _ _
  unfold State.linkUp
  extract_lets +onlyGivenNames x0
  have hx0 : State.keepsBut s [.way, .host, .regs, .out, .hwl] x0 := by
    unfold x0
    exact keepsBut_step keeps_State_noteNeighbour (by decide) (by assumption)
  try clear_value x0
  extract_lets +onlyGivenNames x1
  try clear_value x1
  extract_lets +onlyGivenNames x2
  have hx2 : State.keepsBut s [.way, .host, .regs, .out, .hwl] x2 := by
    unfold x2
    exact keepsBut_step keeps_State_setHport (by decide) (by assumption)
  try clear_value x2
  extract_lets +onlyGivenNames x3
  have hx3 : State.keepsBut s [.way, .host, .regs, .out, .hwl] x3 := by
    unfold x3
    refine keepsBut_step keeps_State_portState (by decide) ?_
    exact keepsBut_step keeps_State_modHwl (by decide) (by assumption)
  try clear_value x3
  refine keepsBut_ite ?_ ?_
  · exact keepsBut_step keeps_State_hwlPump (by decide) (by assumption)
  · refine keepsBut_step keeps_State_reportOut (by decide) ?_
    refine keepsBut_step keeps_State_raiseInt (by decide) ?_
    refine keepsBut_step keeps_State_modHwl (by decide) ?_
    exact keepsBut_step keeps_State_isolatePort (by decide) (by assumption)

theorem keeps_State_jobDone {s : State} {j : JobRef} :
    s.keepsBut [.host, .regs] (s.jobDone j) := by
  have h0 : State.keepsBut s [.host, .regs] s := keepsBut_refl _ _
  unfold State.jobDone
  exact keepsBut_step keeps_State_finishJob (by decide) (by assumption)

theorem keeps_State_snapDone {s : State} {x : Snapshot} :
    s.keepsBut [.host, .bal, .regs] (s.snapDone x) := by
  have h0 : State.keepsBut s [.host, .bal, .regs] s := keepsBut_refl _ _
  unfold State.snapDone
  extract_lets +onlyGivenNames x0
  try clear_value x0
  extract_lets +onlyGivenNames x1
  have hx1 : State.keepsBut s [.host, .bal, .regs] x1 := by
    unfold x1
    refine keepsBut_step keeps_State_bump (by decide) ?_
    exact keepsBut_step keeps_with_bal (by decide) (by assumption)
  try clear_value x1
  split
  · exact keepsBut_step keeps_State_jobDone (by decide) (by assumption)
  · assumption

theorem keeps_State_balToFuller {s : State} {x : FulItem} :
    s.keepsBut [.way, .ful, .host, .limits, .regs, .out] (s.balToFuller x) := by
  have h0 : State.keepsBut s [.way, .ful, .host, .limits, .regs, .out] s := keepsBut_refl _ _
  unfold State.balToFuller
  refine keepsBut_ite ?_ ?_
  · exact keepsBut_step keeps_State_toFuller (by decide) (by assumption)
  · refine keepsBut_step keeps_State_note (by decide) ?_
    exact keepsBut_step keeps_State_raiseInt (by decide) (by assumption)

theorem keeps_State_abandonSnapshot {s : State} {x : Snapshot} {stamp : ℕ} :
    s.keepsBut [.way, .ful, .host, .limits, .bal, .regs, .out] (s.abandonSnapshot x stamp) := by
  have h0 : State.keepsBut s [.way, .ful, .host, .limits, .bal, .regs, .out] s := keepsBut_refl _ _
  unfold State.abandonSnapshot
  extract_lets +onlyGivenNames x0
  try clear_value x0
  extract_lets +onlyGivenNames x1
  have hx1 : State.keepsBut s [.way, .ful, .host, .limits, .bal, .regs, .out] x1 := by
    unfold x1
    refine keepsBut_foldl ?_ ?_
    · intro u a hu
      try beta_reduce
      · refine keepsBut_step keeps_State_reportOut (by decide) ?_
        exact keepsBut_step keeps_State_balToFuller (by decide) (by assumption)
    · assumption
  try clear_value x1
  refine keepsBut_step keeps_State_snapDone (by decide) ?_
  refine keepsBut_step keeps_State_raiseInt (by decide) ?_
  exact keepsBut_step keeps_State_bump (by decide) (by assumption)

theorem keeps_State_released {s : State} {n : ℕ} :
    s.keepsBut [.way, .host, .limits, .regs, .out] (s.released n) := by
  have h0 : State.keepsBut s [.way, .host, .limits, .regs, .out] s := keepsBut_refl _ _
  unfold State.released
  refine keepsBut_ite ?_ ?_
  · assumption
  · refine keepsBut_step keeps_State_eventLimited (by decide) ?_
    refine keepsBut_step keeps_State_raiseInt (by decide) ?_
    exact keepsBut_step keeps_State_bumpBy (by decide) (by assumption)

theorem keeps_State_shrink {s : State} :
    s.keepsBut [.way, .ful, .host, .limits, .regs, .out] (s.shrink) := by
  have h0 : State.keepsBut s [.way, .ful, .host, .limits, .regs, .out] s := keepsBut_refl _ _
  unfold State.shrink
  split
  · assumption
  · refine keepsBut_ite ?_ ?_
    · extract_lets +onlyGivenNames x0
      try clear_value x0
      extract_lets +onlyGivenNames x1
      try clear_value x1
      extract_lets +onlyGivenNames x2
      try clear_value x2
      extract_lets +onlyGivenNames x3
      try clear_value x3
      extract_lets +onlyGivenNames x4
      try clear_value x4
      refine keepsBut_step keeps_State_event (by decide) ?_
      refine keepsBut_step keeps_State_released (by decide) ?_
      exact keepsBut_step keeps_with_ful (by decide) (by assumption)
    · assumption

theorem keeps_State_retireBlock {s : State} {b : ℕ} {markFails : Bool} :
    s.keepsBut [.way, .ful, .host, .limits, .regs, .out] (s.retireBlock b markFails) := by
  have h0 : State.keepsBut s [.way, .ful, .host, .limits, .regs, .out] s := keepsBut_refl _ _
  unfold State.retireBlock
  extract_lets +onlyGivenNames x0
  try clear_value x0
  extract_lets +onlyGivenNames x1
  try clear_value x1
  extract_lets +onlyGivenNames x2
  try clear_value x2
  extract_lets +onlyGivenNames x3
  try clear_value x3
  extract_lets +onlyGivenNames x4
  try clear_value x4
  extract_lets +onlyGivenNames x5
  have hx5 : State.keepsBut s [.way, .ful, .host, .limits, .regs, .out] x5 := by
    unfold x5
    refine keepsBut_ite ?_ ?_
    · exact keepsBut_step keeps_with_ful (by decide) (by assumption)
    · refine keepsBut_step keeps_State_emit (by decide) ?_
      exact keepsBut_step keeps_with_ful (by decide) (by assumption)
  try clear_value x5
  extract_lets +onlyGivenNames x6
  have hx6 : State.keepsBut s [.way, .ful, .host, .limits, .regs, .out] x6 := by
    unfold x6
    refine keepsBut_step keeps_State_raiseInt (by decide) ?_
    exact keepsBut_step keeps_State_note (by decide) (by assumption)
  try clear_value x6
  exact keepsBut_step keeps_State_shrink (by decide) (by assumption)

theorem keeps_State_finalAnswerQ {s : State} {a1 : Option FinalHeld} :
    s.keepsBut [.host, .regs] (s.finalAnswer? a1) := by
  have h0 : State.keepsBut s [.host, .regs] s := keepsBut_refl _ _
  unfold State.finalAnswer?
  split
  · assumption
  · exact keepsBut_step keeps_State_finalAnswer (by decide) (by assumption)

theorem keeps_State_toFirmware {s : State} {lane : ℕ} {i : ℕ} {reason : ℕ} {f : Frame} {stored : List Byte} {ans : Option FinalHeld} :
    s.keepsBut [.way, .host, .limits, .cch, .regs, .out, .ing, .ctx] (s.toFirmware lane i reason f stored ans) := by
  have h0 : State.keepsBut s [.way, .host, .limits, .cch, .regs, .out, .ing, .ctx] s := keepsBut_refl _ _
  unfold State.toFirmware
  extract_lets +onlyGivenNames x0
  try clear_value x0
  refine keepsBut_ite ?_ ?_
  · refine keepsBut_step keeps_State_finalAnswerQ (by decide) ?_
    refine keepsBut_step keeps_State_note (by decide) ?_
    exact keepsBut_step keeps_State_raiseInt (by decide) (by assumption)
  · extract_lets +onlyGivenNames x1
    try clear_value x1
    extract_lets +onlyGivenNames x2
    have hx2 : State.keepsBut s [.way, .host, .limits, .cch, .regs, .out, .ing, .ctx] x2 := by
      unfold x2
      exact keepsBut_step keeps_with_ing (by decide) (by assumption)
    try clear_value x2
    extract_lets +onlyGivenNames x3
    have hx3 : State.keepsBut s [.way, .host, .limits, .cch, .regs, .out, .ing, .ctx] x3 := by
      unfold x3
      refine keepsBut_step keeps_State_modCtx (by decide) ?_
      exact keepsBut_step keeps_State_bump (by decide) (by assumption)
    try clear_value x3
    exact keepsBut_step keeps_State_post (by decide) (by assumption)

theorem keeps_State_toVal {s : State} {l : ℕ} {v : ValItem} :
    s.keepsBut [.regs, .val] (s.toVal l v) := by
  have h0 : State.keepsBut s [.regs, .val] s := keepsBut_refl _ _
  unfold State.toVal
  refine keepsBut_step keeps_State_bump (by decide) ?_
  exact keepsBut_step keeps_with_val (by decide) (by assumption)

theorem keeps_State_heardMeter {s : State} {i : ℕ} {sec : ℕ} :
    s.keepsBut [.ctx] (s.heardMeter i sec) := by
  have h0 : State.keepsBut s [.ctx] s := keepsBut_refl _ _
  unfold State.heardMeter
  exact keepsBut_step keeps_State_modCtx (by decide) (by assumption)

theorem keeps_State_deliverParsed {s : State} {v : Arrival} {o : Outer} {plain : List Byte} {windowed : Bool} {ans : Option FinalHeld} :
    s.keepsBut [.way, .host, .limits, .cch, .regs, .out, .val, .ing, .ctx] (s.deliverParsed v o plain windowed ans) := by
  have h0 : State.keepsBut s [.way, .host, .limits, .cch, .regs, .out, .val, .ing, .ctx] s := keepsBut_refl _ _
  unfold State.deliverParsed
  extract_lets +onlyGivenNames x0
  try clear_value x0
  extract_lets +onlyGivenNames x1
  try clear_value x1
  extract_lets +onlyGivenNames x2
  have hd : ∀ st, State.keepsBut s [.way, .host, .limits, .cch, .regs, .out, .val, .ing, .ctx] st → State.keepsBut s [.way, .host,
      .limits, .cch, .regs, .out, .val, .ing, .ctx] (x2 st) := by
    intro st hst
    unfold x2
    refine keepsBut_ite ?_ ?_
    · exact keepsBut_step keeps_State_modCtx (by decide) (by assumption)
    · assumption
  try clear_value x2
  refine keepsBut_ite ?_ ?_
  · apply hd
    refine keepsBut_step keeps_State_finalAnswerQ (by decide) ?_
    exact keepsBut_step keeps_State_note (by decide) (by assumption)
  · split
    · apply hd
      refine keepsBut_step keeps_State_heardMeter (by decide) ?_
      refine keepsBut_step keeps_State_finalAnswerQ (by decide) ?_
      exact keepsBut_step keeps_State_bump (by decide) (by assumption)
    · apply hd
      exact keepsBut_step keeps_State_toFirmware (by decide) (by assumption)
    · extract_lets +onlyGivenNames x3
      try clear_value x3
      extract_lets +onlyGivenNames x4
      try clear_value x4
      apply hd
      refine keepsBut_step keeps_State_toVal (by decide) ?_
      exact keepsBut_step keeps_State_heardMeter (by decide) (by assumption)

theorem keeps_State_programSummary {s : State} {b : ℕ} {v : Block} :
    s.keepsBut [.ful, .regs, .out] (s.programSummary b v) := by
  have h0 : State.keepsBut s [.ful, .regs, .out] s := keepsBut_refl _ _
  unfold State.programSummary
  extract_lets +onlyGivenNames x0
  try clear_value x0
  extract_lets +onlyGivenNames x1
  have hx1 : State.keepsBut s [.ful, .regs, .out] x1 := by
    unfold x1
    refine keepsBut_foldl ?_ ?_
    · intro u a hu
      try beta_reduce
      · extract_lets +onlyGivenNames x2
        try clear_value x2
        exact keepsBut_step keeps_State_emit (by decide) (by assumption)
    · assumption
  try clear_value x1
  refine keepsBut_step keeps_State_bumpBy (by decide) ?_
  exact keepsBut_step keeps_with_ful (by decide) (by assumption)

theorem keeps_State_closeBlock {s : State} {b : ℕ} {kind : ℕ} :
    s.keepsBut [.ful, .regs, .out] (s.closeBlock b kind) := by
  have h0 : State.keepsBut s [.ful, .regs, .out] s := keepsBut_refl _ _
  unfold State.closeBlock
  extract_lets +onlyGivenNames x0
  try clear_value x0
  refine keepsBut_ite ?_ ?_
  · exact keepsBut_step keeps_with_ful (by decide) (by assumption)
  · extract_lets +onlyGivenNames x1
    try clear_value x1
    extract_lets +onlyGivenNames x2
    have hx2 : State.keepsBut s [.ful, .regs, .out] x2 := by
      unfold x2
      refine keepsBut_step keeps_State_programSummary (by decide) ?_
      exact keepsBut_step keeps_with_ful (by decide) (by assumption)
    try clear_value x2
    refine keepsBut_ite ?_ ?_
    · assumption
    · exact keepsBut_step keeps_State_bump (by decide) (by assumption)

theorem keeps_State_openBlock {s : State} {b : ℕ} {copy : Bool} :
    s.keepsBut [.ful, .regs] (s.openBlock b copy) := by
  have h0 : State.keepsBut s [.ful, .regs] s := keepsBut_refl _ _
  unfold State.openBlock
  extract_lets +onlyGivenNames x0
  try clear_value x0
  extract_lets +onlyGivenNames x1
  try clear_value x1
  extract_lets +onlyGivenNames x2
  try clear_value x2
  refine keepsBut_step keeps_State_bump (by decide) ?_
  exact keepsBut_step keeps_with_ful (by decide) (by assumption)

theorem keeps_State_target {s u : State} {copy : Bool} {b : Nat} (h : s.target copy = some (b, u)) : s.keepsBut [.ful, .regs] u := by
  have h0 : State.keepsBut s [.ful, .regs] s := keepsBut_refl _ _
  simp only [State.target] at h
  split at h
  · cases h
  · split at h
    · cases h
      exact keepsBut_step keeps_with_ful (by decide) (by assumption)
    · rw [Option.map_eq_some_iff] at h
      obtain ⟨c, _, e⟩ := h
      cases e
      refine keepsBut_step keeps_State_openBlock (by decide) ?_
      exact keepsBut_step keeps_with_ful (by decide) (by assumption)

theorem keeps_State_programPage {s : State} {copy : Bool} {secs : List (ℕ × SectorData)} :
    s.keepsBut [.ful, .regs, .out] (s.programPage copy secs) := by
  have h0 : State.keepsBut s [.ful, .regs, .out] s := keepsBut_refl _ _
  unfold State.programPage
  split
  · assumption
  · rename_i b u e
    have hu : State.keepsBut s [.ful, .regs, .out] u := (keeps_State_target e).weaken (by decide)
    extract_lets +onlyGivenNames x0
    try clear_value x0
    extract_lets +onlyGivenNames x1
    try clear_value x1
    extract_lets +onlyGivenNames x2
    try clear_value x2
    extract_lets +onlyGivenNames x3
    try clear_value x3
    extract_lets +onlyGivenNames x4
    try clear_value x4
    extract_lets +onlyGivenNames x5
    try clear_value x5
    extract_lets +onlyGivenNames x6
    try clear_value x6
    extract_lets +onlyGivenNames x7
    have hx7 : State.keepsBut s [.ful, .regs, .out] x7 := by
      unfold x7
      refine keepsBut_step keeps_State_bump (by decide) ?_
      refine keepsBut_step keeps_State_emit (by decide) ?_
      exact keepsBut_step keeps_with_ful (by decide) (by assumption)
    try clear_value x7
    extract_lets +onlyGivenNames x8
    have hx8 : State.keepsBut s [.ful, .regs, .out] x8 := by
      unfold x8
      refine keepsBut_ite ?_ ?_
      · exact keepsBut_step keeps_State_bump (by decide) (by assumption)
      · exact keepsBut_step keeps_State_bumpBy (by decide) (by assumption)
    try clear_value x8
    refine keepsBut_ite ?_ ?_
    · exact keepsBut_step keeps_State_closeBlock (by decide) (by assumption)
    · assumption

theorem keeps_State_closeOpenBlocks {s : State} :
    s.keepsBut [.ful, .regs, .out] (s.closeOpenBlocks) := by
  have h0 : State.keepsBut s [.ful, .regs, .out] s := keepsBut_refl _ _
  unfold State.closeOpenBlocks
  refine keepsBut_foldl ?_ ?_
  · intro u a hu
    try beta_reduce
    · exact keepsBut_step keeps_State_closeBlock (by decide) (by assumption)
  · assumption

theorem keeps_State_cleanClose {s : State} :
    s.keepsBut [.ful, .regs, .out] (s.cleanClose) := by
  have h0 : State.keepsBut s [.ful, .regs, .out] s := keepsBut_refl _ _
  unfold State.cleanClose
  extract_lets +onlyGivenNames x0
  have hx0 : State.keepsBut s [.ful, .regs, .out] x0 := by
    unfold x0
    exact keepsBut_step keeps_State_closeOpenBlocks (by decide) (by assumption)
  try clear_value x0
  split
  · assumption
  · extract_lets +onlyGivenNames x1
    try clear_value x1
    refine keepsBut_step keeps_State_programPage (by decide) ?_
    exact keepsBut_step keeps_with_ful (by decide) (by assumption)

theorem keeps_State_gaspProgress {s : State} :
    s.keepsBut [.ful, .regs, .out, .pwr] (s.gaspProgress) := by
  have h0 : State.keepsBut s [.ful, .regs, .out, .pwr] s := keepsBut_refl _ _
  unfold State.gaspProgress
  refine keepsBut_ite ?_ ?_
  · extract_lets +onlyGivenNames x0
    have hx0 : State.keepsBut s [.ful, .regs, .out, .pwr] x0 := by
      unfold x0
      refine keepsBut_ite ?_ ?_
      · assumption
      · exact keepsBut_step keeps_State_cleanClose (by decide) (by assumption)
    try clear_value x0
    exact keepsBut_step keeps_with_pwr (by decide) (by assumption)
  · assumption

theorem keeps_State_setCamp {s : State} {c : ℕ} {v : Option Campaign} :
    s.keepsBut [.upd] (s.setCamp c v) := by
  have h0 : State.keepsBut s [.upd] s := keepsBut_refl _ _
  unfold State.setCamp
  exact keepsBut_step keeps_with_upd (by decide) (by assumption)

theorem keeps_State_noteMeter {s : State} {c : Counter} {g : LogId} {sp : Span} {gmn : ℕ} {detail : ℕ} :
    s.keepsBut [.way, .host, .limits, .regs, .out] (s.noteMeter c g sp gmn detail) := by
  have h0 : State.keepsBut s [.way, .host, .limits, .regs, .out] s := keepsBut_refl _ _
  unfold State.noteMeter
  exact keepsBut_step keeps_State_note (by decide) (by assumption)

theorem keeps_State_meterFailed {s : State} {c : ℕ} {g : Gmn} {cause : ℕ} :
    s.keepsBut [.way, .host, .limits, .regs, .out, .upd] (s.meterFailed c g cause) := by
  have h0 : State.keepsBut s [.way, .host, .limits, .regs, .out, .upd] s := keepsBut_refl _ _
  unfold State.meterFailed
  split
  · assumption
  · refine keepsBut_step keeps_State_noteMeter (by decide) ?_
    exact keepsBut_step keeps_State_setCamp (by decide) (by assumption)

theorem keeps_State_journal {s : State} {gmn : Gmn} {b : JournalBody} :
    s.keepsBut [.ful] (s.journal gmn b) := by
  have h0 : State.keepsBut s [.ful] s := keepsBut_refl _ _
  unfold State.journal
  exact keepsBut_step keeps_State_toFuller (by decide) (by assumption)

theorem keeps_State_freezeMeter {s : State} {i : ℕ} {seq : BitVec 32} {cause : ℕ} :
    s.keepsBut [.ful, .bil, .ing] (s.freezeMeter i seq cause) := by
  have h0 : State.keepsBut s [.ful, .bil, .ing] s := keepsBut_refl _ _
  unfold State.freezeMeter
  extract_lets +onlyGivenNames x0
  try clear_value x0
  extract_lets +onlyGivenNames x1
  try clear_value x1
  extract_lets +onlyGivenNames x2
  have hx2 : State.keepsBut s [.ful, .bil, .ing] x2 := by
    unfold x2
    exact keepsBut_step keeps_State_setSlot (by decide) (by assumption)
  try clear_value x2
  extract_lets +onlyGivenNames x3
  try clear_value x3
  extract_lets +onlyGivenNames x4
  have hx4 : State.keepsBut s [.ful, .bil, .ing] x4 := by
    unfold x4
    exact keepsBut_step keeps_with_bil (by decide) (by assumption)
  try clear_value x4
  refine keepsBut_step keeps_State_journal (by decide) ?_
  exact keepsBut_step keeps_State_queueOp (by decide) (by assumption)

theorem keeps_State_skipKey {s : State} {k : ℕ} :
    s.keepsBut [.way, .host, .limits, .regs, .out] (s.skipKey k) := by
  have h0 : State.keepsBut s [.way, .host, .limits, .regs, .out] s := keepsBut_refl _ _
  unfold State.skipKey
  exact keepsBut_step keeps_State_note (by decide) (by assumption)

theorem keeps_State_setRoutes {s : State} {slot : ℕ} {r : RouteCache} :
    s.keepsBut [.plc, .ctx] (s.setRoutes slot r) := by
  have h0 : State.keepsBut s [.plc, .ctx] s := keepsBut_refl _ _
  unfold State.setRoutes
  extract_lets +onlyGivenNames x0
  have hx0 : State.keepsBut s [.plc, .ctx] x0 := by
    unfold x0
    exact keepsBut_step keeps_State_modPlc (by decide) (by assumption)
  try clear_value x0
  exact keepsBut_step keeps_State_modCtx (by decide) (by assumption)

theorem keeps_State_learnPath {s : State} {slot : ℕ} {p : LinkPath} :
    s.keepsBut [.plc, .regs, .ctx] (s.learnPath slot p) := by
  have h0 : State.keepsBut s [.plc, .regs, .ctx] s := keepsBut_refl _ _
  unfold State.learnPath
  refine keepsBut_ite ?_ ?_
  · assumption
  · extract_lets +onlyGivenNames x0
    try clear_value x0
    extract_lets +onlyGivenNames x1
    have hx1 : State.keepsBut s [.plc, .regs, .ctx] x1 := by
      unfold x1
      exact keepsBut_step keeps_State_setRoutes (by decide) (by assumption)
    try clear_value x1
    refine keepsBut_ite ?_ ?_
    · exact keepsBut_step keeps_State_bump (by decide) (by assumption)
    · assumption

theorem keeps_State_plcHeardFrom {s : State} {h : PlcHeard} :
    s.keepsBut [.plc, .regs, .ctx] (s.plcHeardFrom h) := by
  have h0 : State.keepsBut s [.plc, .regs, .ctx] s := keepsBut_refl _ _
  unfold State.plcHeardFrom
  extract_lets +onlyGivenNames x0
  try clear_value x0
  refine keepsBut_ite ?_ ?_
  · assumption
  · extract_lets +onlyGivenNames x1
    have hx1 : State.keepsBut s [.plc, .regs, .ctx] x1 := by
      unfold x1
      exact keepsBut_step keeps_State_heardMeter (by decide) (by assumption)
    try clear_value x1
    extract_lets +onlyGivenNames x2
    have hx2 : State.keepsBut s [.plc, .regs, .ctx] x2 := by
      unfold x2
      refine keepsBut_ite ?_ ?_
      · exact keepsBut_step keeps_State_learnPath (by decide) (by assumption)
      · assumption
    try clear_value x2
    refine keepsBut_ite ?_ ?_
    · exact keepsBut_step keeps_State_heardDirect (by decide) (by assumption)
    · assumption

theorem keeps_State_modTim {s : State} {f : Tim → Tim} :
    s.keepsBut [.tim] (s.modTim f) := by
  have h0 : State.keepsBut s [.tim] s := keepsBut_refl _ _
  unfold State.modTim
  exact keepsBut_step keeps_with_tim (by decide) (by assumption)

theorem keeps_State_noteLock {s : State} {e : ℤ} :
    s.keepsBut [.tim, .upd] (s.noteLock e) := by
  have h0 : State.keepsBut s [.tim, .upd] s := keepsBut_refl _ _
  unfold State.noteLock
  refine keepsBut_ite ?_ ?_
  · extract_lets +onlyGivenNames x0
    have hx0 : State.keepsBut s [.tim, .upd] x0 := by
      unfold x0
      exact keepsBut_step keeps_State_modTim (by decide) (by assumption)
    try clear_value x0
    refine keepsBut_ite ?_ ?_
    · exact keepsBut_step keeps_State_checkMet (by decide) (by assumption)
    · assumption
  · exact keepsBut_step keeps_State_modTim (by decide) (by assumption)

theorem keeps_State_refuseOffset {s : State} {e : ℤ} :
    s.keepsBut [.way, .host, .tim, .regs, .out] (s.refuseOffset e) := by
  have h0 : State.keepsBut s [.way, .host, .tim, .regs, .out] s := keepsBut_refl _ _
  unfold State.refuseOffset
  extract_lets +onlyGivenNames x0
  have hx0 : State.keepsBut s [.way, .host, .tim, .regs, .out] x0 := by
    unfold x0
    refine keepsBut_step keeps_State_modTim (by decide) ?_
    exact keepsBut_step keeps_State_setReg (by decide) (by assumption)
  try clear_value x0
  refine keepsBut_ite ?_ ?_
  · assumption
  · exact keepsBut_step keeps_State_event (by decide) (by assumption)

theorem keeps_State_setRate {s : State} {r : ℤ} :
    s.keepsBut [.tim] (s.setRate r) := by
  have h0 : State.keepsBut s [.tim] s := keepsBut_refl _ _
  unfold State.setRate
  extract_lets +onlyGivenNames x0
  try clear_value x0
  exact keepsBut_step keeps_State_modTim (by decide) (by assumption)

theorem keeps_State_servo {s : State} {e : ℤ} {ticks : ℕ} :
    s.keepsBut [.tim] (s.servo e ticks) := by
  have h0 : State.keepsBut s [.tim] s := keepsBut_refl _ _
  unfold State.servo
  extract_lets +onlyGivenNames x0
  try clear_value x0
  extract_lets +onlyGivenNames x1
  try clear_value x1
  extract_lets +onlyGivenNames x2
  try clear_value x2
  extract_lets +onlyGivenNames x3
  try clear_value x3
  refine keepsBut_step keeps_State_modTim (by decide) ?_
  exact keepsBut_step keeps_State_setRate (by decide) (by assumption)

theorem keeps_State_noteRegressed {s : State} :
    s.keepsBut [.tim] (s.noteRegressed) := by
  have h0 : State.keepsBut s [.tim] s := keepsBut_refl _ _
  unfold State.noteRegressed
  extract_lets +onlyGivenNames x0
  try clear_value x0
  exact keepsBut_step keeps_with_tim (by decide) (by assumption)

theorem keeps_State_restartGates {s : State} :
    s.keepsBut [.eth] (s.restartGates) := by
  have h0 : State.keepsBut s [.eth] s := keepsBut_refl _ _
  unfold State.restartGates
  refine keepsBut_foldl ?_ ?_
  · intro u a hu
    try beta_reduce
    · exact keepsBut_step keeps_State_modEthPort (by decide) (by assumption)
  · assumption

theorem keeps_State_stepTime {s : State} {e : ℤ} {authorised : Bool} :
    s.keepsBut [.way, .host, .tim, .regs, .out, .eth] (s.stepTime e authorised) := by
  have h0 : State.keepsBut s [.way, .host, .tim, .regs, .out, .eth] s := keepsBut_refl _ _
  unfold State.stepTime
  extract_lets +onlyGivenNames x0
  try clear_value x0
  extract_lets +onlyGivenNames x1
  try clear_value x1
  extract_lets +onlyGivenNames x2
  have hx2 : State.keepsBut s [.way, .host, .tim, .regs, .out, .eth] x2 := by
    unfold x2
    exact keepsBut_step keeps_State_modTim (by decide) (by assumption)
  try clear_value x2
  extract_lets +onlyGivenNames x3
  have hx3 : State.keepsBut s [.way, .host, .tim, .regs, .out, .eth] x3 := by
    unfold x3
    refine keepsBut_step keeps_State_restartGates (by decide) ?_
    exact keepsBut_step keeps_State_noteRegressed (by decide) (by assumption)
  try clear_value x3
  refine keepsBut_ite ?_ ?_
  · extract_lets +onlyGivenNames x4
    try clear_value x4
    refine keepsBut_step keeps_State_event (by decide) ?_
    exact keepsBut_step keeps_State_event (by decide) (by assumption)
  · assumption

theorem keeps_State_actOnOffset {s : State} {e : ℤ} {ticks : ℕ} :
    s.keepsBut [.way, .host, .tim, .regs, .out, .eth] (s.actOnOffset e ticks) := by
  have h0 : State.keepsBut s [.way, .host, .tim, .regs, .out, .eth] s := keepsBut_refl _ _
  unfold State.actOnOffset
  extract_lets +onlyGivenNames x0
  try clear_value x0
  extract_lets +onlyGivenNames x1
  try clear_value x1
  refine keepsBut_ite ?_ ?_
  · refine keepsBut_step keeps_State_stepTime (by decide) ?_
    exact keepsBut_step keeps_State_modTim (by decide) (by assumption)
  · refine keepsBut_ite ?_ ?_
    · refine keepsBut_ite ?_ ?_
      · refine keepsBut_step keeps_State_stepTime (by decide) ?_
        exact keepsBut_step keeps_State_modTim (by decide) (by assumption)
      · exact keepsBut_step keeps_State_refuseOffset (by decide) (by assumption)
    · refine keepsBut_ite ?_ ?_
      · exact keepsBut_step keeps_State_servo (by decide) (by assumption)
      · exact keepsBut_step keeps_State_refuseOffset (by decide) (by assumption)

theorem keeps_State_passSample {s : State} {source : ℕ} {master : BitVec 64} {e : ℤ} :
    s.keepsBut [.way, .host, .tim, .regs, .out, .upd, .eth] (s.passSample source master e) := by
  have h0 : State.keepsBut s [.way, .host, .tim, .regs, .out, .upd, .eth] s := keepsBut_refl _ _
  unfold State.passSample
  extract_lets +onlyGivenNames x0
  try clear_value x0
  extract_lets +onlyGivenNames x1
  have hx1 : State.keepsBut s [.way, .host, .tim, .regs, .out, .upd, .eth] x1 := by
    unfold x1
    refine keepsBut_ite ?_ ?_
    · assumption
    · exact keepsBut_step keeps_State_modTim (by decide) (by assumption)
  try clear_value x1
  extract_lets +onlyGivenNames x2
  try clear_value x2
  extract_lets +onlyGivenNames x3
  have hx3 : State.keepsBut s [.way, .host, .tim, .regs, .out, .upd, .eth] x3 := by
    unfold x3
    refine keepsBut_step keeps_State_noteLock (by decide) ?_
    exact keepsBut_step keeps_State_modTim (by decide) (by assumption)
  try clear_value x3
  exact keepsBut_step keeps_State_actOnOffset (by decide) (by assumption)

theorem keeps_State_filterSample {s : State} {p : Fin 2} {master : BitVec 64} {e : ℤ} :
    s.keepsBut [.way, .host, .tim, .regs, .out, .upd, .eth] (s.filterSample p master e) := by
  have h0 : State.keepsBut s [.way, .host, .tim, .regs, .out, .upd, .eth] s := keepsBut_refl _ _
  unfold State.filterSample
  extract_lets +onlyGivenNames x0
  try clear_value x0
  extract_lets +onlyGivenNames x1
  have hx1 : State.keepsBut s [.way, .host, .tim, .regs, .out, .upd, .eth] x1 := by
    unfold x1
    exact keepsBut_step keeps_State_modTim (by decide) (by assumption)
  try clear_value x1
  split
  · exact keepsBut_step keeps_State_passSample (by decide) (by assumption)
  · assumption

theorem keeps_State_syncComplete {s : State} {p : Fin 2} {y : PtpSync} {t1 : ℤ} :
    s.keepsBut [.way, .host, .tim, .regs, .out, .upd, .eth] (s.syncComplete p y t1) := by
  have h0 : State.keepsBut s [.way, .host, .tim, .regs, .out, .upd, .eth] s := keepsBut_refl _ _
  unfold State.syncComplete
  split
  · assumption
  · refine keepsBut_ite ?_ ?_
    · assumption
    · exact keepsBut_step keeps_State_filterSample (by decide) (by assumption)

theorem keeps_State_anomaly {s : State} {i : ℕ} {action : ℕ} {time : ℕ} {cause : BitVec 7} :
    s.keepsBut [.way, .ful, .host, .limits, .regs, .out] (s.anomaly i action time cause) := by
  have h0 : State.keepsBut s [.way, .ful, .host, .limits, .regs, .out] s := keepsBut_refl _ _
  unfold State.anomaly
  extract_lets +onlyGivenNames x0
  try clear_value x0
  extract_lets +onlyGivenNames x1
  try clear_value x1
  extract_lets +onlyGivenNames x2
  try clear_value x2
  extract_lets +onlyGivenNames x3
  try clear_value x3
  extract_lets +onlyGivenNames x4
  try clear_value x4
  refine keepsBut_step keeps_State_reportOut (by decide) ?_
  refine keepsBut_step keeps_State_balToFuller (by decide) ?_
  refine keepsBut_step keeps_State_raiseInt (by decide) ?_
  exact keepsBut_step keeps_State_bump (by decide) (by assumption)

theorem keeps_State_modBal {s : State} {i : ℕ} {f : BalState → BalState} :
    s.keepsBut [.ctx] (s.modBal i f) := by
  have h0 : State.keepsBut s [.ctx] s := keepsBut_refl _ _
  unfold State.modBal
  exact keepsBut_step keeps_State_modCtx (by decide) (by assumption)

theorem keeps_State_lapse {s : State} {i : ℕ} :
    s.keepsBut [.ctx] (s.lapse i) := by
  have h0 : State.keepsBut s [.ctx] s := keepsBut_refl _ _
  unfold State.lapse
  exact keepsBut_step keeps_State_modBal (by decide) (by assumption)

theorem keeps_State_rescore {s0 : State} {i : ℕ} {time : ℕ} :
    s0.keepsBut [.way, .ful, .host, .limits, .regs, .out, .ctx] (s0.rescore i time) := by
  have h0 : State.keepsBut s0 [.way, .ful, .host, .limits, .regs, .out, .ctx] s0 := keepsBut_refl _ _
  unfold State.rescore
  extract_lets +onlyGivenNames x0
  have hx0 : State.keepsBut s0 [.way, .ful, .host, .limits, .regs, .out, .ctx] x0 := by
    unfold x0
    exact keepsBut_step keeps_State_lapse (by decide) (by assumption)
  try clear_value x0
  extract_lets +onlyGivenNames x1
  try clear_value x1
  extract_lets +onlyGivenNames x2
  try clear_value x2
  extract_lets +onlyGivenNames x3
  try clear_value x3
  extract_lets +onlyGivenNames x4
  try clear_value x4
  extract_lets +onlyGivenNames x5
  try clear_value x5
  extract_lets +onlyGivenNames x6
  try clear_value x6
  extract_lets +onlyGivenNames x7
  have hx7 : State.keepsBut s0 [.way, .ful, .host, .limits, .regs, .out, .ctx] x7 := by
    unfold x7
    exact keepsBut_step keeps_State_modBal (by decide) (by assumption)
  try clear_value x7
  refine keepsBut_ite ?_ ?_
  · exact keepsBut_step keeps_State_anomaly (by decide) (by assumption)
  · assumption

theorem keeps_State_confirmPhase {s : State} {i : ℕ} {ph : ℕ} {time : ℕ} :
    s.keepsBut [.way, .ful, .host, .limits, .regs, .out, .ctx] (s.confirmPhase i ph time) := by
  have h0 : State.keepsBut s [.way, .ful, .host, .limits, .regs, .out, .ctx] s := keepsBut_refl _ _
  unfold State.confirmPhase
  extract_lets +onlyGivenNames x0
  try clear_value x0
  extract_lets +onlyGivenNames x1
  try clear_value x1
  extract_lets +onlyGivenNames x2
  try clear_value x2
  extract_lets +onlyGivenNames x3
  have hx3 : State.keepsBut s [.way, .ful, .host, .limits, .regs, .out, .ctx] x3 := by
    unfold x3
    exact keepsBut_step keeps_State_modBal (by decide) (by assumption)
  try clear_value x3
  extract_lets +onlyGivenNames x4
  try clear_value x4
  extract_lets +onlyGivenNames x5
  try clear_value x5
  extract_lets +onlyGivenNames x6
  have hx6 : State.keepsBut s [.way, .ful, .host, .limits, .regs, .out, .ctx] x6 := by
    unfold x6
    refine keepsBut_ite ?_ ?_
    · exact keepsBut_step keeps_State_note (by decide) (by assumption)
    · assumption
  try clear_value x6
  extract_lets +onlyGivenNames x7
  have hx7 : State.keepsBut s [.way, .ful, .host, .limits, .regs, .out, .ctx] x7 := by
    unfold x7
    exact keepsBut_step keeps_State_rescore (by decide) (by assumption)
  try clear_value x7
  refine keepsBut_ite ?_ ?_
  · exact keepsBut_step keeps_State_anomaly (by decide) (by assumption)
  · assumption

theorem keeps_State_ethTransmit {s : State} {f : EthSent} :
    s.keepsBut [.regs, .out] (s.ethTransmit f) := by
  have h0 : State.keepsBut s [.regs, .out] s := keepsBut_refl _ _
  unfold State.ethTransmit
  refine keepsBut_step keeps_State_bump (by decide) ?_
  exact keepsBut_step keeps_State_emit (by decide) (by assumption)

theorem keeps_State_ethEnqueue {s : State} {f : EthSent} :
    s.keepsBut [.regs, .out, .eth] (s.ethEnqueue f) := by
  have h0 : State.keepsBut s [.regs, .out, .eth] s := keepsBut_refl _ _
  unfold State.ethEnqueue
  refine keepsBut_ite ?_ ?_
  · assumption
  · refine keepsBut_ite ?_ ?_
    · exact keepsBut_step keeps_State_bump (by decide) (by assumption)
    · refine keepsBut_ite ?_ ?_
      · exact keepsBut_step keeps_State_modEthPort (by decide) (by assumption)
      · exact keepsBut_step keeps_State_ethTransmit (by decide) (by assumption)

theorem keeps_State_setAssoc {s : State} {k : ℕ} {a : Assoc} :
    s.keepsBut [.eth] (s.setAssoc k a) := by
  have h0 : State.keepsBut s [.eth] s := keepsBut_refl _ _
  unfold State.setAssoc
  exact keepsBut_step keeps_with_eth (by decide) (by assumption)

theorem keeps_State_sendFrame {s : State} {k : ℕ} {seq : ℕ} {b : EthBody} :
    s.keepsBut [.regs, .out, .eth] (s.sendFrame k seq b) := by
  have h0 : State.keepsBut s [.regs, .out, .eth] s := keepsBut_refl _ _
  unfold State.sendFrame
  refine keepsBut_ite ?_ ?_
  · exact keepsBut_step keeps_State_bump (by decide) (by assumption)
  · refine keepsBut_foldl ?_ ?_
    · intro u a hu
      try beta_reduce
      · exact keepsBut_step keeps_State_ethEnqueue (by decide) (by assumption)
    · exact keepsBut_step keeps_State_setAssoc (by decide) (by assumption)

theorem keeps_State_restartAssoc {s : State} {k : ℕ} {epoch : ℕ} :
    s.keepsBut [.regs, .out, .eth] (s.restartAssoc k epoch) := by
  have h0 : State.keepsBut s [.regs, .out, .eth] s := keepsBut_refl _ _
  unfold State.restartAssoc
  extract_lets +onlyGivenNames x0
  try clear_value x0
  extract_lets +onlyGivenNames x1
  try clear_value x1
  extract_lets +onlyGivenNames x2
  have hx2 : State.keepsBut s [.regs, .out, .eth] x2 := by
    unfold x2
    exact keepsBut_step keeps_State_setAssoc (by decide) (by assumption)
  try clear_value x2
  refine keepsBut_foldl ?_ ?_
  · intro u a hu
    try beta_reduce
    · exact keepsBut_step keeps_State_sendFrame (by decide) (by assumption)
  · assumption

theorem keeps_State_noteEpoch {s : State} {k : ℕ} {epoch : ℕ} :
    s.keepsBut [.regs, .out, .eth] (s.noteEpoch k epoch) := by
  have h0 : State.keepsBut s [.regs, .out, .eth] s := keepsBut_refl _ _
  unfold State.noteEpoch
  split
  · exact keepsBut_step keeps_State_setAssoc (by decide) (by assumption)
  · refine keepsBut_ite ?_ ?_
    · assumption
    · exact keepsBut_step keeps_State_restartAssoc (by decide) (by assumption)

theorem keeps_State_bar4Read {s : State} {m : Master} {a : ℕ} {n : ℕ} :
    s.keepsBut [.out] (s.bar4Read m a n).1 := by
  have h0 : State.keepsBut s [.out] s := keepsBut_refl _ _
  unfold State.bar4Read
  refine keepsBut_iteFst ?_ ?_
  · dsimp only
    exact keepsBut_step keeps_State_emit (by decide) (by assumption)
  · refine keepsBut_iteFst ?_ ?_
    · dsimp only
      assumption
    · refine keepsBut_iteFst ?_ ?_
      · dsimp only
        assumption
      · dsimp only
        assumption

theorem keeps_State_bundleRefused {s : State} {result : ℕ} :
    s.keepsBut [.way, .host, .limits, .regs, .out] (s.bundleRefused result) := by
  have h0 : State.keepsBut s [.way, .host, .limits, .regs, .out] s := keepsBut_refl _ _
  unfold State.bundleRefused
  extract_lets +onlyGivenNames x0
  have hx0 : State.keepsBut s [.way, .host, .limits, .regs, .out] x0 := by
    unfold x0
    refine keepsBut_step keeps_State_raiseInt (by decide) ?_
    exact keepsBut_step keeps_State_note (by decide) (by assumption)
  try clear_value x0
  refine keepsBut_ite ?_ ?_
  · exact keepsBut_step keeps_State_event (by decide) (by assumption)
  · assumption

theorem keeps_State_writeUpd {s : State} {r : UpdRecord} :
    s.keepsBut [.nor] (s.writeUpd r) := by
  have h0 : State.keepsBut s [.nor] s := keepsBut_refl _ _
  unfold State.writeUpd
  extract_lets +onlyGivenNames x0
  try clear_value x0
  exact keepsBut_step keeps_with_nor (by decide) (by assumption)

theorem keeps_State_stageDevice {s : State} {b : UpdateBundle} {fails : Bool} :
    s.keepsBut [.way, .host, .limits, .regs, .out, .nor] (s.stageDevice b fails).1 := by
  have h0 : State.keepsBut s [.way, .host, .limits, .regs, .out, .nor] s := keepsBut_refl _ _
  unfold State.stageDevice
  extract_lets +onlyGivenNames x0
  try clear_value x0
  extract_lets +onlyGivenNames x1
  have hx1 : State.keepsBut s [.way, .host, .limits, .regs, .out, .nor] x1 := by
    unfold x1
    exact keepsBut_step keeps_State_writeUpd (by decide) (by assumption)
  try clear_value x1
  refine keepsBut_iteFst ?_ ?_
  · dsimp only
    refine keepsBut_step keeps_State_bundleRefused (by decide) ?_
    exact keepsBut_step keeps_with_nor (by decide) (by assumption)
  · extract_lets +onlyGivenNames x2
    have hx2 : State.keepsBut s [.way, .host, .limits, .regs, .out, .nor] x2 := by
      unfold x2
      exact keepsBut_step keeps_with_nor (by decide) (by assumption)
    try clear_value x2
    extract_lets +onlyGivenNames x3
    have hx3 : State.keepsBut s [.way, .host, .limits, .regs, .out, .nor] x3 := by
      unfold x3
      refine keepsBut_step keeps_State_bump (by decide) ?_
      refine keepsBut_step keeps_State_bump (by decide) ?_
      exact keepsBut_step keeps_State_writeUpd (by decide) (by assumption)
    try clear_value x3
    dsimp only
    refine keepsBut_step keeps_State_raiseInt (by decide) ?_
    exact keepsBut_step keeps_State_event (by decide) (by assumption)

theorem keeps_State_extend {s : State} {m : ℕ} {d : Digest} :
    s.keepsBut [.sec] (s.extend m d) := by
  have h0 : State.keepsBut s [.sec] s := keepsBut_refl _ _
  unfold State.extend
  exact keepsBut_step keeps_State_modSec (by decide) (by assumption)

theorem keeps_State_keepRecord {s : State} {role : ℕ} :
    s.keepsBut [.boot, .sec] (s.keepRecord role) := by
  have h0 : State.keepsBut s [.boot, .sec] s := keepsBut_refl _ _
  unfold State.keepRecord
  extract_lets +onlyGivenNames x0
  try clear_value x0
  extract_lets +onlyGivenNames x1
  try clear_value x1
  refine keepsBut_step keeps_State_extend (by decide) ?_
  exact keepsBut_step keeps_with_boot (by decide) (by assumption)

theorem keeps_State_windowSent {s : State} {addr : ℕ} :
    s.keepsBut [.regs, .rfm] (s.windowSent addr) := by
  have h0 : State.keepsBut s [.regs, .rfm] s := keepsBut_refl _ _
  unfold State.windowSent
  refine keepsBut_ite ?_ ?_
  · refine keepsBut_step keeps_State_bump (by decide) ?_
    exact keepsBut_step keeps_State_modRfm (by decide) (by assumption)
  · assumption

theorem keeps_State_fireQueue {s : State} {n : ℕ} :
    s.keepsBut [.host, .regs, .out] (s.fireQueue n) := by
  have h0 : State.keepsBut s [.host, .regs, .out] s := keepsBut_refl _ _
  unfold State.fireQueue
  refine keepsBut_step keeps_State_fire (by decide) ?_
  exact keepsBut_step keeps_State_setRq (by decide) (by assumption)

theorem keeps_State_reserveCycles {s : State} :
    s.keepsBut [.nor] (s.reserveCycles) := by
  have h0 : State.keepsBut s [.nor] s := keepsBut_refl _ _
  unfold State.reserveCycles
  extract_lets +onlyGivenNames x0
  try clear_value x0
  refine keepsBut_ite ?_ ?_
  · assumption
  · exact keepsBut_step keeps_with_nor (by decide) (by assumption)

theorem keeps_State_setFeederRate {s : State} {t : ℕ} :
    s.keepsBut [.met] (s.setFeederRate t) := by
  have h0 : State.keepsBut s [.met] s := keepsBut_refl _ _
  unfold State.setFeederRate
  extract_lets +onlyGivenNames x0
  try clear_value x0
  exact keepsBut_step keeps_with_met (by decide) (by assumption)

theorem keeps_State_postHeld {s : State} {t : Task} :
    s.keepsBut [.cch, .regs, .out] (s.postHeld t) := by
  have h0 : State.keepsBut s [.cch, .regs, .out] s := keepsBut_refl _ _
  unfold State.postHeld
  split
  · refine keepsBut_step keeps_State_dispatch (by decide) ?_
    rename_i u e
    split at e
    · exact keepsBut_step (keeps_State_acceptQ e) (by decide) h0
    · cases e
  · refine keepsBut_step keeps_State_bump (by decide) ?_
    exact keepsBut_step keeps_with_cch (by decide) (by assumption)

theorem keeps_State_settleEvent {s : State} {before : ℕ} {stamp : ℕ} :
    s.keepsBut [.cch, .regs, .out] (s.settleEvent before stamp) := by
  have h0 : State.keepsBut s [.cch, .regs, .out] s := keepsBut_refl _ _
  unfold State.settleEvent
  extract_lets +onlyGivenNames x0
  try clear_value x0
  refine keepsBut_ite ?_ ?_
  · assumption
  · refine keepsBut_step keeps_State_postHeld (by decide) ?_
    exact keepsBut_step keeps_State_bump (by decide) (by assumption)

theorem keeps_State_contextCheckpoint {s : State} {n : ℕ} :
    s.keepsBut [.ful, .cch, .regs, .out, .cyc] (s.contextCheckpoint n) := by
  have h0 : State.keepsBut s [.ful, .cch, .regs, .out, .cyc] s := keepsBut_refl _ _
  unfold State.contextCheckpoint
  refine keepsBut_ite ?_ ?_
  · exact keepsBut_step keeps_State_modCyc (by decide) (by assumption)
  · extract_lets +onlyGivenNames x0
    have hx0 : State.keepsBut s [.ful, .cch, .regs, .out, .cyc] x0 := by
      unfold x0
      exact keepsBut_step keeps_State_modCyc (by decide) (by assumption)
    try clear_value x0
    extract_lets +onlyGivenNames x1
    try clear_value x1
    refine keepsBut_step keeps_State_postHeld (by decide) ?_
    exact keepsBut_step keeps_with_ful (by decide) (by assumption)

theorem keeps_State_toBal {s : State} {i : BalItem} :
    s.keepsBut [.way, .host, .limits, .bal, .regs, .out] (s.toBal i) := by
  have h0 : State.keepsBut s [.way, .host, .limits, .bal, .regs, .out] s := keepsBut_refl _ _
  unfold State.toBal
  refine keepsBut_ite ?_ ?_
  · refine keepsBut_step keeps_State_note (by decide) ?_
    exact keepsBut_step keeps_State_raiseInt (by decide) (by assumption)
  · exact keepsBut_step keeps_with_bal (by decide) (by assumption)

theorem keeps_State_streamNext {s : State} {b : HwlBody} :
    s.keepsBut [.way, .host, .limits, .regs, .out, .hwl] (s.streamNext b) := by
  have h0 : State.keepsBut s [.way, .host, .limits, .regs, .out, .hwl] s := keepsBut_refl _ _
  unfold State.streamNext
  refine keepsBut_ite ?_ ?_
  · assumption
  · extract_lets +onlyGivenNames x0
    try clear_value x0
    extract_lets +onlyGivenNames x1
    try clear_value x1
    extract_lets +onlyGivenNames x2
    have hx2 : State.keepsBut s [.way, .host, .limits, .regs, .out, .hwl] x2 := by
      unfold x2
      exact keepsBut_step keeps_with_hwl (by decide) (by assumption)
    try clear_value x2
    refine keepsBut_step keeps_State_bump (by decide) ?_
    exact keepsBut_step keeps_State_hwlSend (by decide) (by assumption)

theorem keeps_State_mirrorSync {s : State} {i : ℕ} {reason : ℕ} :
    s.keepsBut [.way, .host, .limits, .regs, .out, .hwl] (s.mirrorSync i reason) := by
  have h0 : State.keepsBut s [.way, .host, .limits, .regs, .out, .hwl] s := keepsBut_refl _ _
  unfold State.mirrorSync
  refine keepsBut_step keeps_State_bump (by decide) ?_
  refine keepsBut_foldl ?_ ?_
  · intro u a hu
    try beta_reduce
    · exact keepsBut_step keeps_State_streamNext (by decide) (by assumption)
  · assumption

theorem keeps_State_mirrorSend {s : State} {b : HwlBody} :
    s.keepsBut [.way, .host, .limits, .regs, .out, .hwl] (s.mirrorSend b) := by
  have h0 : State.keepsBut s [.way, .host, .limits, .regs, .out, .hwl] s := keepsBut_refl _ _
  unfold State.mirrorSend
  split
  · exact keepsBut_step keeps_State_streamNext (by decide) (by assumption)
  · refine keepsBut_ite ?_ ?_
    · assumption
    · split
      · refine keepsBut_step keeps_State_mirrorSync (by decide) ?_
        exact keepsBut_step keeps_State_bump (by decide) (by assumption)
      · exact keepsBut_step keeps_State_bump (by decide) (by assumption)

theorem keeps_State_feederArrived {s : State} {f : FeederRecord} {sender : Option ℕ} {mirrored : Bool} :
    s.keepsBut [.way, .ful, .host, .limits, .bal, .regs, .out, .hwl] (s.feederArrived f sender mirrored) := by
  have h0 : State.keepsBut s [.way, .ful, .host, .limits, .bal, .regs, .out, .hwl] s := keepsBut_refl _ _
  unfold State.feederArrived
  extract_lets +onlyGivenNames x0
  try clear_value x0
  extract_lets +onlyGivenNames x1
  have hx1 : State.keepsBut s [.way, .ful, .host, .limits, .bal, .regs, .out, .hwl] x1 := by
    unfold x1
    exact keepsBut_step keeps_State_toBal (by decide) (by assumption)
  try clear_value x1
  extract_lets +onlyGivenNames x2
  have hx2 : State.keepsBut s [.way, .ful, .host, .limits, .bal, .regs, .out, .hwl] x2 := by
    unfold x2
    refine keepsBut_ite ?_ ?_
    · assumption
    · exact keepsBut_step keeps_State_mirrorSend (by decide) (by assumption)
  try clear_value x2
  exact keepsBut_step keeps_State_toFuller (by decide) (by assumption)

theorem keeps_State_launchMessage {s : State} {k : ℕ} {b : EthBody} :
    s.keepsBut [.regs, .out, .eth] (s.launchMessage k b) := by
  have h0 : State.keepsBut s [.regs, .out, .eth] s := keepsBut_refl _ _
  unfold State.launchMessage
  extract_lets +onlyGivenNames x0
  try clear_value x0
  extract_lets +onlyGivenNames x1
  try clear_value x1
  refine keepsBut_step keeps_State_sendFrame (by decide) ?_
  exact keepsBut_step keeps_State_setAssoc (by decide) (by assumption)

theorem keeps_State_pumpMessages {s : State} {k : ℕ} {a2 : ℕ} :
    s.keepsBut [.regs, .out, .eth] (s.pumpMessages k a2) := by
  induction a2 generalizing s with
  | zero => exact keepsBut_refl _ _
  | succ n ih =>
    rw [State.pumpMessages]
    split
    · exact keepsBut_refl _ _
    · split
      · refine keepsBut_step ih (by decide) ?_
        refine keepsBut_step keeps_State_launchMessage (by decide) ?_
        exact keeps_State_setAssoc.weaken (by decide)
      · exact keepsBut_refl _ _

theorem keeps_State_ethSend {s : State} {p : Fin 2} {i : Fin 32} {b : EthBody} :
    s.keepsBut [.regs, .out, .eth] (s.ethSend p i b) := by
  have h0 : State.keepsBut s [.regs, .out, .eth] s := keepsBut_refl _ _
  unfold State.ethSend
  extract_lets +onlyGivenNames x0
  try clear_value x0
  extract_lets +onlyGivenNames x1
  try clear_value x1
  extract_lets +onlyGivenNames x2
  have hx2 : State.keepsBut s [.regs, .out, .eth] x2 := by
    unfold x2
    exact keepsBut_step keeps_State_setAssoc (by decide) (by assumption)
  try clear_value x2
  exact keepsBut_step keeps_State_pumpMessages (by decide) (by assumption)

theorem keeps_State_ethSendPeer {s : State} {i : Fin 32} {b : EthBody} :
    s.keepsBut [.regs, .out, .eth] (s.ethSendPeer i b) := by
  have h0 : State.keepsBut s [.regs, .out, .eth] s := keepsBut_refl _ _
  unfold State.ethSendPeer
  exact keepsBut_step keeps_State_ethSend (by decide) (by assumption)

theorem keeps_State_holdBundle {s : State} {b : RelayBundle} :
    s.keepsBut [.eth] (s.holdBundle b) := by
  have h0 : State.keepsBut s [.eth] s := keepsBut_refl _ _
  unfold State.holdBundle
  refine keepsBut_ite ?_ ?_
  · assumption
  · exact keepsBut_step keeps_with_eth (by decide) (by assumption)

theorem keeps_State_sendBundle {s : State} {b : RelayBundle} :
    s.keepsBut [.host, .regs, .out, .eth] (s.sendBundle b) := by
  have h0 : State.keepsBut s [.host, .regs, .out, .eth] s := keepsBut_refl _ _
  unfold State.sendBundle
  split
  · refine keepsBut_step keeps_State_ethSendPeer (by decide) ?_
    exact keepsBut_step keeps_State_holdBundle (by decide) (by assumption)
  · exact keepsBut_step keeps_State_reportOut (by decide) (by assumption)

theorem keeps_State_advanceBundleSeq {s : State} :
    s.keepsBut [.nor, .ing] (s.advanceBundleSeq) := by
  have h0 : State.keepsBut s [.nor, .ing] s := keepsBut_refl _ _
  unfold State.advanceBundleSeq
  extract_lets +onlyGivenNames x0
  try clear_value x0
  extract_lets +onlyGivenNames x1
  try clear_value x1
  extract_lets +onlyGivenNames x2
  have hx2 : State.keepsBut s [.nor, .ing] x2 := by
    unfold x2
    exact keepsBut_step keeps_with_ing (by decide) (by assumption)
  try clear_value x2
  extract_lets +onlyGivenNames x3
  try clear_value x3
  refine keepsBut_ite ?_ ?_
  · exact keepsBut_step keeps_with_nor (by decide) (by assumption)
  · assumption

theorem keeps_State_closeBundle {s : State} :
    s.keepsBut [.host, .regs, .out, .eth, .nor, .ing] (s.closeBundle) := by
  have h0 : State.keepsBut s [.host, .regs, .out, .eth, .nor, .ing] s := keepsBut_refl _ _
  unfold State.closeBundle
  refine keepsBut_ite ?_ ?_
  · assumption
  · extract_lets +onlyGivenNames x0
    try clear_value x0
    extract_lets +onlyGivenNames x1
    try clear_value x1
    extract_lets +onlyGivenNames x2
    try clear_value x2
    extract_lets +onlyGivenNames x3
    have hx3 : State.keepsBut s [.host, .regs, .out, .eth, .nor, .ing] x3 := by
      unfold x3
      exact keepsBut_step keeps_with_ing (by decide) (by assumption)
    try clear_value x3
    extract_lets +onlyGivenNames x4
    have hx4 : State.keepsBut s [.host, .regs, .out, .eth, .nor, .ing] x4 := by
      unfold x4
      refine keepsBut_step keeps_State_bump (by decide) ?_
      exact keepsBut_step keeps_State_advanceBundleSeq (by decide) (by assumption)
    try clear_value x4
    split
    · exact keepsBut_step keeps_State_sendBundle (by decide) (by assumption)
    · refine keepsBut_step keeps_State_holdBundle (by decide) ?_
      exact keepsBut_step keeps_State_bump (by decide) (by assumption)

theorem keeps_State_addEntry {s : State} {e : RelayEntry} :
    s.keepsBut [.host, .regs, .out, .eth, .nor, .ing] (s.addEntry e) := by
  have h0 : State.keepsBut s [.host, .regs, .out, .eth, .nor, .ing] s := keepsBut_refl _ _
  unfold State.addEntry
  extract_lets +onlyGivenNames x0
  try clear_value x0
  extract_lets +onlyGivenNames x1
  have hx1 : State.keepsBut s [.host, .regs, .out, .eth, .nor, .ing] x1 := by
    unfold x1
    refine keepsBut_ite ?_ ?_
    · exact keepsBut_step keeps_State_closeBundle (by decide) (by assumption)
    · assumption
  try clear_value x1
  extract_lets +onlyGivenNames x2
  try clear_value x2
  extract_lets +onlyGivenNames x3
  have hx3 : State.keepsBut s [.host, .regs, .out, .eth, .nor, .ing] x3 := by
    unfold x3
    exact keepsBut_step keeps_with_ing (by decide) (by assumption)
  try clear_value x3
  refine keepsBut_ite ?_ ?_
  · exact keepsBut_step keeps_State_closeBundle (by decide) (by assumption)
  · assumption

theorem keeps_State_feederOut {s : State} {f : FeederRecord} :
    s.keepsBut [.way, .ful, .host, .limits, .bal, .regs, .out, .eth, .nor, .hwl, .ing] (s.feederOut f) := by
  have h0 : State.keepsBut s [.way, .ful, .host, .limits, .bal, .regs, .out, .eth, .nor, .hwl, .ing] s := keepsBut_refl _ _
  unfold State.feederOut
  extract_lets +onlyGivenNames x0
  have hx0 : State.keepsBut s [.way, .ful, .host, .limits, .bal, .regs, .out, .eth, .nor, .hwl, .ing] x0 := by
    unfold x0
    exact keepsBut_step keeps_State_feederArrived (by decide) (by assumption)
  try clear_value x0
  refine keepsBut_ite ?_ ?_
  · exact keepsBut_step keeps_State_addEntry (by decide) (by assumption)
  · assumption

theorem keeps_State_feederRecords {s : State} {m : MetSample} {cycle : ℕ} {stamp : ℕ} {synth : Bool} {short : Bool} {snap : Bool} :
    s.keepsBut [.way, .ful, .met, .host, .limits, .bal, .regs, .out, .eth, .nor, .hwl, .ing] (s.feederRecords m cycle stamp synth short
        snap) := by
  have h0 : State.keepsBut s [.way, .ful, .met, .host, .limits, .bal, .regs, .out, .eth, .nor, .hwl, .ing] s := keepsBut_refl _ _
  unfold State.feederRecords
  extract_lets +onlyGivenNames x0
  have hx0 : State.keepsBut s [.way, .ful, .met, .host, .limits, .bal, .regs, .out, .eth, .nor, .hwl, .ing] x0 := by
    unfold x0
    refine keepsBut_foldl ?_ ?_
    · intro u a hu
      try beta_reduce
      · exact keepsBut_step keeps_State_feederOut (by decide) (by assumption)
    · assumption
  try clear_value x0
  exact keepsBut_step keeps_with_met (by decide) (by assumption)

theorem keeps_State_closeSynthetic {s : State} {cycle : ℕ} {stamp : ℕ} :
    s.keepsBut [.way, .ful, .met, .host, .limits, .bal, .regs, .out, .eth, .nor, .hwl, .ing] (s.closeSynthetic cycle stamp) := by
  have h0 : State.keepsBut s [.way, .ful, .met, .host, .limits, .bal, .regs, .out, .eth, .nor, .hwl, .ing] s := keepsBut_refl _ _
  unfold State.closeSynthetic
  refine keepsBut_ite ?_ ?_
  · exact keepsBut_step keeps_with_met (by decide) (by assumption)
  · exact keepsBut_step keeps_State_feederRecords (by decide) (by assumption)

end Sys2Proof.Machine
end

