-- ==== Sys2Proof/Laws/Keeps03.lean ====
section
/-!
SUPPORT. What each shared operation leaves of the state, one lemma an operation, an operation after those it is built from: from `postEvent`
to `tooLong`.
-/

namespace Sys2Proof.Machine

theorem keeps_State_postEvent {s : State} {kind : ℕ} {exec : ℕ} {cycle : ℕ} {boundary : Option ℕ} {passed : ℕ} {short : Bool} {synth :
    Bool} :
    s.keepsBut [.cch, .regs, .out] (s.postEvent kind exec cycle boundary passed short synth) := by
  have h0 : State.keepsBut s [.cch, .regs, .out] s := keepsBut_refl _ _
  unfold State.postEvent
  refine keepsBut_step keeps_State_postHeld (by decide) ?_
  exact keepsBut_step keeps_State_emit (by decide) (by assumption)

theorem keeps_State_startSchedules {s : State} {index : ℕ} {stamp : ℕ} :
    s.keepsBut [.cch, .txn] (s.startSchedules index stamp) := by
  have h0 : State.keepsBut s [.cch, .txn] s := keepsBut_refl _ _
  unfold State.startSchedules
  refine keepsBut_foldl ?_ ?_
  · intro u a hu
    try beta_reduce
    · extract_lets +onlyGivenNames x0
      try clear_value x0
      refine keepsBut_ite ?_ ?_
      · assumption
      · extract_lets +onlyGivenNames x1
        try clear_value x1
        extract_lets +onlyGivenNames x2
        try clear_value x2
        extract_lets +onlyGivenNames x3
        try clear_value x3
        exact keepsBut_step keeps_with_cch_txn (by decide) (by assumption)
  · assumption

theorem keeps_State_legalCheckpoint {s : State} {n : ℕ} :
    s.keepsBut [.ful, .cch, .regs, .out, .cyc] (s.legalCheckpoint n) := by
  have h0 : State.keepsBut s [.ful, .cch, .regs, .out, .cyc] s := keepsBut_refl _ _
  unfold State.legalCheckpoint
  refine keepsBut_ite ?_ ?_
  · exact keepsBut_step keeps_State_modCyc (by decide) (by assumption)
  · extract_lets +onlyGivenNames x0
    have hx0 : State.keepsBut s [.ful, .cch, .regs, .out, .cyc] x0 := by
      unfold x0
      exact keepsBut_step keeps_State_modCyc (by decide) (by assumption)
    try clear_value x0
    extract_lets +onlyGivenNames x1
    try clear_value x1
    refine keepsBut_step keeps_State_postHeld (by decide) ?_
    exact keepsBut_step keeps_with_ful (by decide) (by assumption)

theorem keeps_State_postBarriers {s : State} {k : ℕ} :
    s.keepsBut [.way, .host, .limits, .regs, .out, .hwl, .ing] (s.postBarriers k) := by
  have h0 : State.keepsBut s [.way, .host, .limits, .regs, .out, .hwl, .ing] s := keepsBut_refl _ _
  unfold State.postBarriers
  refine keepsBut_ite ?_ ?_
  · assumption
  · extract_lets +onlyGivenNames x0
    try clear_value x0
    extract_lets +onlyGivenNames x1
    have hx1 : State.keepsBut s [.way, .host, .limits, .regs, .out, .hwl, .ing] x1 := by
      unfold x1
      refine keepsBut_ite ?_ ?_
      · exact keepsBut_step keeps_State_note (by decide) (by assumption)
      · assumption
    try clear_value x1
    extract_lets +onlyGivenNames x2
    try clear_value x2
    extract_lets +onlyGivenNames x3
    have hx3 : State.keepsBut s [.way, .host, .limits, .regs, .out, .hwl, .ing] x3 := by
      unfold x3
      exact keepsBut_step keeps_with_hwl (by decide) (by assumption)
    try clear_value x3
    refine keepsBut_foldl ?_ ?_
    · intro u a hu
      try beta_reduce
      · exact keepsBut_step keeps_State_queueOp (by decide) (by assumption)
    · assumption

theorem keeps_State_clearIntervalLimits {s : State} :
    s.keepsBut [.limits] (s.clearIntervalLimits) := by
  have h0 : State.keepsBut s [.limits] s := keepsBut_refl _ _
  unfold State.clearIntervalLimits
  exact keepsBut_step keeps_with_limits (by decide) (by assumption)

theorem keeps_State_feederDemand {s : State} {stamp : ℕ} :
    s.keepsBut [.bil] (s.feederDemand stamp) := by
  have h0 : State.keepsBut s [.bil] s := keepsBut_refl _ _
  unfold State.feederDemand
  extract_lets +onlyGivenNames x0
  try clear_value x0
  exact keepsBut_step keeps_with_bil (by decide) (by assumption)

theorem keeps_State_handFeeder {s : State} :
    s.keepsBut [.met, .bil] (s.handFeeder) := by
  have h0 : State.keepsBut s [.met, .bil] s := keepsBut_refl _ _
  unfold State.handFeeder
  refine keepsBut_ite ?_ ?_
  · assumption
  · extract_lets +onlyGivenNames x0
    try clear_value x0
    extract_lets +onlyGivenNames x1
    try clear_value x1
    extract_lets +onlyGivenNames x2
    try clear_value x2
    exact keepsBut_step keeps_with_bil_met (by decide) (by assumption)

theorem keeps_State_closeFeeder {s : State} {cycle : ℕ} {stamp : ℕ} {short : Bool} :
    s.keepsBut [.way, .ful, .met, .host, .limits, .bal, .regs, .out, .eth, .nor, .bil, .hwl, .ing] (s.closeFeeder cycle stamp short) := by
  have h0 : State.keepsBut s [.way, .ful, .met, .host, .limits, .bal, .regs, .out, .eth, .nor, .bil, .hwl, .ing] s := keepsBut_refl _ _
  unfold State.closeFeeder
  extract_lets +onlyGivenNames x0
  have hx0 : State.keepsBut s [.way, .ful, .met, .host, .limits, .bal, .regs, .out, .eth, .nor, .bil, .hwl, .ing] x0 := by
    unfold x0
    refine keepsBut_step keeps_State_feederDemand (by decide) ?_
    exact keepsBut_step keeps_State_handFeeder (by decide) (by assumption)
  try clear_value x0
  extract_lets +onlyGivenNames x1
  have hx1 : State.keepsBut s [.way, .ful, .met, .host, .limits, .bal, .regs, .out, .eth, .nor, .bil, .hwl, .ing] x1 := by
    unfold x1
    exact keepsBut_step keeps_State_feederRecords (by decide) (by assumption)
  try clear_value x1
  exact keepsBut_step keeps_with_met (by decide) (by assumption)

theorem keeps_State_boundaryEvent {s : State} {stamp : ℕ} {b : ℕ} {passed : ℕ} {synth : Bool} :
    s.keepsBut [.way, .ful, .met, .host, .limits, .cch, .bal, .regs, .out, .cyc, .txn, .eth, .nor, .bil, .hwl, .ing] (s.boundaryEvent
        stamp b passed synth) := by
  have h0 : State.keepsBut s [.way, .ful, .met, .host, .limits, .cch, .bal, .regs, .out, .cyc, .txn, .eth, .nor, .bil, .hwl, .ing] s :=
      keepsBut_refl _ _
  unfold State.boundaryEvent
  extract_lets +onlyGivenNames x0
  try clear_value x0
  extract_lets +onlyGivenNames x1
  have hx1 : State.keepsBut s [.way, .ful, .met, .host, .limits, .cch, .bal, .regs, .out, .cyc, .txn, .eth, .nor, .bil, .hwl, .ing] x1
      := by
    unfold x1
    exact keepsBut_step keeps_State_modCyc (by decide) (by assumption)
  try clear_value x1
  extract_lets +onlyGivenNames x2
  have hx2 : State.keepsBut s [.way, .ful, .met, .host, .limits, .cch, .bal, .regs, .out, .cyc, .txn, .eth, .nor, .bil, .hwl, .ing] x2
      := by
    unfold x2
    exact keepsBut_step keeps_State_clearIntervalLimits (by decide) (by assumption)
  try clear_value x2
  extract_lets +onlyGivenNames x3
  try clear_value x3
  extract_lets +onlyGivenNames x4
  have hx4 : State.keepsBut s [.way, .ful, .met, .host, .limits, .cch, .bal, .regs, .out, .cyc, .txn, .eth, .nor, .bil, .hwl, .ing] x4
      := by
    unfold x4
    exact keepsBut_step keeps_with_hwl (by decide) (by assumption)
  try clear_value x4
  extract_lets +onlyGivenNames x5
  have hx5 : State.keepsBut s [.way, .ful, .met, .host, .limits, .cch, .bal, .regs, .out, .cyc, .txn, .eth, .nor, .bil, .hwl, .ing] x5
      := by
    unfold x5
    exact keepsBut_step keeps_State_postEvent (by decide) (by assumption)
  try clear_value x5
  extract_lets +onlyGivenNames x6
  have hx6 : State.keepsBut s [.way, .ful, .met, .host, .limits, .cch, .bal, .regs, .out, .cyc, .txn, .eth, .nor, .bil, .hwl, .ing] x6
      := by
    unfold x6
    refine keepsBut_ite ?_ ?_
    · exact keepsBut_step keeps_State_closeSynthetic (by decide) (by assumption)
    · exact keepsBut_step keeps_State_closeFeeder (by decide) (by assumption)
  try clear_value x6
  refine keepsBut_step keeps_State_startSchedules (by decide) ?_
  refine keepsBut_step keeps_State_legalCheckpoint (by decide) ?_
  refine keepsBut_step keeps_State_contextCheckpoint (by decide) ?_
  exact keepsBut_step keeps_State_postBarriers (by decide) (by assumption)

theorem keeps_State_realiseBoundary {s : State} {stamp : ℕ} {synth : Bool} :
    s.keepsBut [.way, .ful, .met, .host, .limits, .cch, .bal, .regs, .out, .cyc, .txn, .eth, .nor, .bil, .hwl, .ing] (s.realiseBoundary
        stamp synth) := by
  have h0 : State.keepsBut s [.way, .ful, .met, .host, .limits, .cch, .bal, .regs, .out, .cyc, .txn, .eth, .nor, .bil, .hwl, .ing] s :=
      keepsBut_refl _ _
  unfold State.realiseBoundary
  split
  · exact keepsBut_step keeps_State_modCyc (by decide) (by assumption)
  · extract_lets +onlyGivenNames x0
    try clear_value x0
    refine keepsBut_ite ?_ ?_
    · assumption
    · extract_lets +onlyGivenNames x1
      try clear_value x1
      exact keepsBut_step keeps_State_boundaryEvent (by decide) (by assumption)

theorem keeps_State_repostHeld {s : State} :
    s.keepsBut [.cch, .regs, .out] (s.repostHeld) := by
  have h0 : State.keepsBut s [.cch, .regs, .out] s := keepsBut_refl _ _
  unfold State.repostHeld
  refine keepsBut_foldl ?_ ?_
  · intro u a hu
    try beta_reduce
    · exact keepsBut_step keeps_State_postHeld (by decide) (by assumption)
  · exact keepsBut_step keeps_with_cch (by decide) (by assumption)

theorem keeps_State_postIssues {s : State} {x : ℕ} {a2 : ℕ} :
    s.keepsBut [.way, .host, .limits, .cch, .regs, .out] (s.postIssues x a2) := by
  induction a2 generalizing s with
  | zero => exact keepsBut_refl _ _
  | succ n ih =>
    rw [State.postIssues]
    have hp : State.keepsBut s [.way, .host, .limits, .cch, .regs, .out] (s.post (s.taskFor (issueKind x) (x - 11) 0)).1 :=
        keeps_State_post.weaken (by decide)
    split
    · rename_i u e
      rw [e] at hp
      exact keepsBut_step ih (by decide) hp
    · rename_i u e
      rw [e] at hp
      exact hp

theorem keeps_State_topUpIssues {s : State} :
    s.keepsBut [.way, .host, .limits, .cch, .regs, .out] (s.topUpIssues) := by
  have h0 : State.keepsBut s [.way, .host, .limits, .cch, .regs, .out] s := keepsBut_refl _ _
  unfold State.topUpIssues
  refine keepsBut_ite ?_ ?_
  · assumption
  · refine keepsBut_foldl ?_ ?_
    · intro u a hu
      try beta_reduce
      · exact keepsBut_step keeps_State_postIssues (by decide) (by assumption)
    · assumption

theorem keeps_State_countPending {s : State} {r : Request} {up : Bool} :
    s.keepsBut [.ctx] (s.countPending r up) := by
  have h0 : State.keepsBut s [.ctx] s := keepsBut_refl _ _
  unfold State.countPending
  split
  · assumption
  · exact keepsBut_step keeps_State_modCtx (by decide) (by assumption)

theorem keeps_State_pullRequest {s : State} {r : Request} :
    s.keepsBut [.txn, .ctx] (s.pullRequest r) := by
  have h0 : State.keepsBut s [.txn, .ctx] s := keepsBut_refl _ _
  unfold State.pullRequest
  refine keepsBut_step keeps_State_countPending (by decide) ?_
  exact keepsBut_step keeps_with_txn (by decide) (by assumption)

theorem keeps_State_releaseRequest {s : State} {r : Request} :
    s.keepsBut [.regs, .txn, .ctx] (s.releaseRequest r) := by
  have h0 : State.keepsBut s [.regs, .txn, .ctx] s := keepsBut_refl _ _
  unfold State.releaseRequest
  refine keepsBut_ite ?_ ?_
  · assumption
  · extract_lets +onlyGivenNames x0
    try clear_value x0
    refine keepsBut_ite ?_ ?_
    · refine keepsBut_step keeps_State_bump (by decide) ?_
      exact keepsBut_step keeps_State_pullRequest (by decide) (by assumption)
    · exact keepsBut_step keeps_with_txn (by decide) (by assumption)

theorem keeps_State_releaseRequests {s : State} :
    s.keepsBut [.way, .host, .limits, .cch, .regs, .out, .txn, .ctx] (s.releaseRequests) := by
  have h0 : State.keepsBut s [.way, .host, .limits, .cch, .regs, .out, .txn, .ctx] s := keepsBut_refl _ _
  unfold State.releaseRequests
  refine keepsBut_step keeps_State_topUpIssues (by decide) ?_
  refine keepsBut_foldl ?_ ?_
  · intro u a hu
    try beta_reduce
    · exact keepsBut_step keeps_State_releaseRequest (by decide) (by assumption)
  · assumption

theorem keeps_State_fireCycleTrigger {synth : Bool} {s : State} {e : ℕ × Trigger} :
    s.keepsBut [.cch, .regs, .out] (State.fireCycleTrigger synth s e) := by
  have h0 : State.keepsBut s [.cch, .regs, .out] s := keepsBut_refl _ _
  unfold State.fireCycleTrigger
  extract_lets +onlyGivenNames x0
  try clear_value x0
  extract_lets +onlyGivenNames x1
  try clear_value x1
  extract_lets +onlyGivenNames x2
  try clear_value x2
  extract_lets +onlyGivenNames x3
  try clear_value x3
  extract_lets +onlyGivenNames x4
  have hx4 : State.keepsBut s [.cch, .regs, .out] x4 := by
    unfold x4
    exact keepsBut_step keeps_with_cch (by decide) (by assumption)
  try clear_value x4
  extract_lets +onlyGivenNames x5
  have hx5 : State.keepsBut s [.cch, .regs, .out] x5 := by
    unfold x5
    refine keepsBut_ite ?_ ?_
    · assumption
    · exact keepsBut_step keeps_State_bumpBy (by decide) (by assumption)
  try clear_value x5
  refine keepsBut_step keeps_State_postHeld (by decide) ?_
  exact keepsBut_step keeps_State_bump (by decide) (by assumption)

theorem keeps_State_fireCycleTriggers {s : State} {synth : Bool} :
    s.keepsBut [.cch, .regs, .out] (s.fireCycleTriggers synth) := by
  have h0 : State.keepsBut s [.cch, .regs, .out] s := keepsBut_refl _ _
  unfold State.fireCycleTriggers
  refine keepsBut_foldl ?_ ?_
  · intro u a hu
    try beta_reduce
    · exact keepsBut_step keeps_State_fireCycleTrigger (by decide) (by assumption)
  · assumption

theorem keeps_State_latchFeeder {s : State} {cycle : ℕ} {stamp : ℕ} :
    s.keepsBut [.way, .ful, .met, .host, .limits, .bal, .regs, .out, .eth, .nor, .bil, .hwl, .ing] (s.latchFeeder cycle stamp) := by
  have h0 : State.keepsBut s [.way, .ful, .met, .host, .limits, .bal, .regs, .out, .eth, .nor, .bil, .hwl, .ing] s := keepsBut_refl _ _
  unfold State.latchFeeder
  extract_lets +onlyGivenNames x0
  have hx0 : State.keepsBut s [.way, .ful, .met, .host, .limits, .bal, .regs, .out, .eth, .nor, .bil, .hwl, .ing] x0 := by
    unfold x0
    exact keepsBut_step keeps_State_handFeeder (by decide) (by assumption)
  try clear_value x0
  exact keepsBut_step keeps_State_feederRecords (by decide) (by assumption)

theorem keeps_State_postCycle {s : State} {kind : ℕ} {exec : ℕ} {cycle : ℕ} :
    s.keepsBut [.cch, .regs, .out] (s.postCycle kind exec cycle) := by
  have h0 : State.keepsBut s [.cch, .regs, .out] s := keepsBut_refl _ _
  unfold State.postCycle
  exact keepsBut_step keeps_State_postEvent (by decide) (by assumption)

theorem keeps_State_latchSnapshots {s : State} {stamp : ℕ} {synth : Bool} :
    s.keepsBut [.way, .ful, .met, .host, .limits, .cch, .bal, .regs, .out, .eth, .nor, .bil, .hwl, .ing] (s.latchSnapshots stamp synth)
        := by
  have h0 : State.keepsBut s [.way, .ful, .met, .host, .limits, .cch, .bal, .regs, .out, .eth, .nor, .bil, .hwl, .ing] s :=
      keepsBut_refl _ _
  unfold State.latchSnapshots
  extract_lets +onlyGivenNames x0
  try clear_value x0
  refine keepsBut_ite ?_ ?_
  · assumption
  · refine keepsBut_ite ?_ ?_
    · refine keepsBut_foldl ?_ ?_
      · intro u a hu
        try beta_reduce
        · exact keepsBut_step keeps_State_abandonSnapshot (by decide) (by assumption)
      · assumption
    · extract_lets +onlyGivenNames x1
      try clear_value x1
      extract_lets +onlyGivenNames x2
      try clear_value x2
      extract_lets +onlyGivenNames x3
      have hx3 : State.keepsBut s [.way, .ful, .met, .host, .limits, .cch, .bal, .regs, .out, .eth, .nor, .bil, .hwl, .ing] x3 := by
        unfold x3
        exact keepsBut_step keeps_with_bal (by decide) (by assumption)
      try clear_value x3
      refine keepsBut_step keeps_State_latchFeeder (by decide) ?_
      exact keepsBut_step keeps_State_postCycle (by decide) (by assumption)

theorem keeps_State_nextPlcBeacon {s : State} :
    s.keepsBut [.plc, .regs, .out] (s.nextPlcBeacon) := by
  have h0 : State.keepsBut s [.plc, .regs, .out] s := keepsBut_refl _ _
  unfold State.nextPlcBeacon
  extract_lets +onlyGivenNames x0
  try clear_value x0
  refine keepsBut_ite ?_ ?_
  · assumption
  · extract_lets +onlyGivenNames x1
    try clear_value x1
    extract_lets +onlyGivenNames x2
    try clear_value x2
    extract_lets +onlyGivenNames x3
    have hx3 : State.keepsBut s [.plc, .regs, .out] x3 := by
      unfold x3
      exact keepsBut_step keeps_with_plc (by decide) (by assumption)
    try clear_value x3
    refine keepsBut_ite ?_ ?_
    · assumption
    · exact keepsBut_step keeps_State_queuePlcBeacon (by decide) (by assumption)

theorem keeps_State_timeBeacons {s : State} :
    s.keepsBut [.plc, .regs, .out, .rfm] (s.timeBeacons) := by
  have h0 : State.keepsBut s [.plc, .regs, .out, .rfm] s := keepsBut_refl _ _
  unfold State.timeBeacons
  extract_lets +onlyGivenNames x0
  try clear_value x0
  extract_lets +onlyGivenNames x1
  try clear_value x1
  extract_lets +onlyGivenNames x2
  try clear_value x2
  extract_lets +onlyGivenNames x3
  try clear_value x3
  extract_lets +onlyGivenNames x4
  try clear_value x4
  extract_lets +onlyGivenNames x5
  have hx5 : State.keepsBut s [.plc, .regs, .out, .rfm] x5 := by
    unfold x5
    exact keepsBut_step keeps_State_modPlc (by decide) (by assumption)
  try clear_value x5
  extract_lets +onlyGivenNames x6
  have hx6 : State.keepsBut s [.plc, .regs, .out, .rfm] x6 := by
    unfold x6
    refine keepsBut_ite ?_ ?_
    · assumption
    · refine keepsBut_step keeps_State_bumpBy (by decide) ?_
      exact keepsBut_step keeps_State_raiseInt (by decide) (by assumption)
  try clear_value x6
  refine keepsBut_foldl ?_ ?_
  · intro u a hu
    try beta_reduce
    · extract_lets +onlyGivenNames x7
      try clear_value x7
      extract_lets +onlyGivenNames x8
      try clear_value x8
      extract_lets +onlyGivenNames x9
      have hx9 : State.keepsBut s [.plc, .regs, .out, .rfm] x9 := by
        unfold x9
        exact keepsBut_step keeps_State_setRadio (by decide) (by assumption)
      try clear_value x9
      refine keepsBut_ite ?_ ?_
      · assumption
      · refine keepsBut_step keeps_State_bumpBy (by decide) ?_
        exact keepsBut_step keeps_State_raiseInt (by decide) (by assumption)
  · assumption

theorem keeps_State_nextRfBeacon {s : State} :
    s.keepsBut [.regs, .out, .rfm] (s.nextRfBeacon) := by
  have h0 : State.keepsBut s [.regs, .out, .rfm] s := keepsBut_refl _ _
  unfold State.nextRfBeacon
  extract_lets +onlyGivenNames x0
  try clear_value x0
  refine keepsBut_ite ?_ ?_
  · assumption
  · extract_lets +onlyGivenNames x1
    try clear_value x1
    extract_lets +onlyGivenNames x2
    try clear_value x2
    extract_lets +onlyGivenNames x3
    have hx3 : State.keepsBut s [.regs, .out, .rfm] x3 := by
      unfold x3
      exact keepsBut_step keeps_with_rfm (by decide) (by assumption)
    try clear_value x3
    refine keepsBut_foldl ?_ ?_
    · intro u a hu
      try beta_reduce
      · refine keepsBut_ite ?_ ?_
        · assumption
        · exact keepsBut_step keeps_State_queueRfBeacon (by decide) (by assumption)
    · assumption

theorem keeps_State_launchBeacons {s0 : State} :
    s0.keepsBut [.plc, .cch, .regs, .out, .rfm] (s0.launchBeacons) := by
  have h0 : State.keepsBut s0 [.plc, .cch, .regs, .out, .rfm] s0 := keepsBut_refl _ _
  unfold State.launchBeacons
  extract_lets +onlyGivenNames x0
  have hx0 : State.keepsBut s0 [.plc, .cch, .regs, .out, .rfm] x0 := by
    unfold x0
    exact keepsBut_step keeps_State_timeBeacons (by decide) (by assumption)
  try clear_value x0
  extract_lets +onlyGivenNames x1
  have hx1 : State.keepsBut s0 [.plc, .cch, .regs, .out, .rfm] x1 := by
    unfold x1
    refine keepsBut_foldl ?_ ?_
    · intro u a hu
      try beta_reduce
      · refine keepsBut_ite ?_ ?_
        · exact keepsBut_step keeps_State_postCycle (by decide) (by assumption)
        · assumption
    · assumption
  try clear_value x1
  extract_lets +onlyGivenNames x2
  have hx2 : State.keepsBut s0 [.plc, .cch, .regs, .out, .rfm] x2 := by
    unfold x2
    refine keepsBut_ite ?_ ?_
    · exact keepsBut_step keeps_State_postCycle (by decide) (by assumption)
    · assumption
  try clear_value x2
  refine keepsBut_step keeps_State_nextRfBeacon (by decide) ?_
  exact keepsBut_step keeps_State_nextPlcBeacon (by decide) (by assumption)

theorem keeps_State_feederSwitch {s : State} {stamp : ℕ} {synth : Bool} :
    s.keepsBut [.met, .bil] (s.feederSwitch stamp synth) := by
  have h0 : State.keepsBut s [.met, .bil] s := keepsBut_refl _ _
  unfold State.feederSwitch
  refine keepsBut_ite ?_ ?_
  · exact keepsBut_step keeps_with_met (by decide) (by assumption)
  · refine keepsBut_step keeps_State_setFeederRate (by decide) ?_
    exact keepsBut_step keeps_State_handFeeder (by decide) (by assumption)

theorem keeps_State_tariffEvents {s : State} {before : ℕ} {stamp : ℕ} {synth : Bool} :
    s.keepsBut [.met, .cch, .regs, .out, .bil] (s.tariffEvents before stamp synth) := by
  have h0 : State.keepsBut s [.met, .cch, .regs, .out, .bil] s := keepsBut_refl _ _
  unfold State.tariffEvents
  extract_lets +onlyGivenNames x0
  try clear_value x0
  extract_lets +onlyGivenNames x1
  try clear_value x1
  extract_lets +onlyGivenNames x2
  try clear_value x2
  extract_lets +onlyGivenNames x3
  have hx3 : State.keepsBut s [.met, .cch, .regs, .out, .bil] x3 := by
    unfold x3
    refine keepsBut_ite ?_ ?_
    · assumption
    · exact keepsBut_step keeps_State_postCycle (by decide) (by assumption)
  try clear_value x3
  extract_lets +onlyGivenNames x4
  have hx4 : State.keepsBut s [.met, .cch, .regs, .out, .bil] x4 := by
    unfold x4
    refine keepsBut_ite ?_ ?_
    · assumption
    · exact keepsBut_step keeps_State_postCycle (by decide) (by assumption)
  try clear_value x4
  refine keepsBut_ite ?_ ?_
  · exact keepsBut_step keeps_State_feederSwitch (by decide) (by assumption)
  · assumption

theorem keeps_State_cycleEvents {s : State} {before : ℕ} {stamp : ℕ} {synth : Bool} :
    s.keepsBut [.plc, .way, .ful, .met, .host, .limits, .cch, .bal, .regs, .out, .cyc, .txn, .eth, .nor, .bil, .hwl, .ing, .rfm, .ctx]
        (s.cycleEvents before stamp synth) := by
  have h0 : State.keepsBut s [.plc, .way, .ful, .met, .host, .limits, .cch, .bal, .regs, .out, .cyc, .txn, .eth, .nor, .bil, .hwl,
      .ing, .rfm, .ctx] s := keepsBut_refl _ _
  unfold State.cycleEvents
  extract_lets +onlyGivenNames x0
  have hx0 : State.keepsBut s [.plc, .way, .ful, .met, .host, .limits, .cch, .bal, .regs, .out, .cyc, .txn, .eth, .nor, .bil, .hwl,
      .ing, .rfm, .ctx] x0 := by
    unfold x0
    exact keepsBut_step keeps_State_repostHeld (by decide) (by assumption)
  try clear_value x0
  extract_lets +onlyGivenNames x1
  have hx1 : State.keepsBut s [.plc, .way, .ful, .met, .host, .limits, .cch, .bal, .regs, .out, .cyc, .txn, .eth, .nor, .bil, .hwl,
      .ing, .rfm, .ctx] x1 := by
    unfold x1
    refine keepsBut_ite ?_ ?_
    · exact keepsBut_step keeps_State_setFeederRate (by decide) (by assumption)
    · assumption
  try clear_value x1
  extract_lets +onlyGivenNames x2
  have hx2 : State.keepsBut s [.plc, .way, .ful, .met, .host, .limits, .cch, .bal, .regs, .out, .cyc, .txn, .eth, .nor, .bil, .hwl,
      .ing, .rfm, .ctx] x2 := by
    unfold x2
    refine keepsBut_step keeps_State_launchBeacons (by decide) ?_
    refine keepsBut_step keeps_State_latchSnapshots (by decide) ?_
    refine keepsBut_step keeps_State_tariffEvents (by decide) ?_
    exact keepsBut_step keeps_State_realiseBoundary (by decide) (by assumption)
  try clear_value x2
  refine keepsBut_step keeps_State_releaseRequests (by decide) ?_
  refine keepsBut_step keeps_State_settleEvent (by decide) ?_
  exact keepsBut_step keeps_State_fireCycleTriggers (by decide) (by assumption)

theorem keeps_State_numberCycle {s : State} {at_ : ℕ} {synth : Bool} :
    s.keepsBut [.plc, .way, .ful, .met, .host, .limits, .cch, .tim, .bal, .regs, .out, .cyc, .txn, .eth, .nor, .bil, .hwl, .ing, .rfm,
        .ctx] (s.numberCycle at_ synth) := by
  have h0 : State.keepsBut s [.plc, .way, .ful, .met, .host, .limits, .cch, .tim, .bal, .regs, .out, .cyc, .txn, .eth, .nor, .bil,
      .hwl, .ing, .rfm, .ctx] s := keepsBut_refl _ _
  unfold State.numberCycle
  refine keepsBut_ite ?_ ?_
  · exact keepsBut_step keeps_State_modCyc (by decide) (by assumption)
  · extract_lets +onlyGivenNames x0
    try clear_value x0
    extract_lets +onlyGivenNames x1
    try clear_value x1
    extract_lets +onlyGivenNames x2
    try clear_value x2
    extract_lets +onlyGivenNames x3
    try clear_value x3
    extract_lets +onlyGivenNames x4
    try clear_value x4
    extract_lets +onlyGivenNames x5
    have hx5 : State.keepsBut s [.plc, .way, .ful, .met, .host, .limits, .cch, .tim, .bal, .regs, .out, .cyc, .txn, .eth, .nor, .bil,
        .hwl, .ing, .rfm, .ctx] x5 := by
      unfold x5
      exact keepsBut_step keeps_State_modCyc (by decide) (by assumption)
    try clear_value x5
    refine keepsBut_step keeps_State_cycleEvents (by decide) ?_
    refine keepsBut_step keeps_State_reserveCycles (by decide) ?_
    exact keepsBut_step keeps_State_noteRegressed (by decide) (by assumption)

theorem keeps_State_numberDue {s : State} {a1 : ℕ} :
    s.keepsBut [.plc, .way, .ful, .met, .host, .limits, .cch, .tim, .bal, .regs, .out, .cyc, .txn, .eth, .nor, .bil, .hwl, .ing, .rfm,
        .ctx] (s.numberDue a1) := by
  induction a1 generalizing s with
  | zero => exact keepsBut_refl _ _
  | succ n ih =>
    rw [State.numberDue]
    split
    · exact keepsBut_refl _ _
    · exact keepsBut_step ih (by decide) (keeps_State_numberCycle.weaken (by decide))

theorem keeps_State_abandonPending {s : State} {stamp : ℕ} :
    s.keepsBut [.way, .ful, .host, .limits, .bal, .regs, .out] (s.abandonPending stamp) := by
  have h0 : State.keepsBut s [.way, .ful, .host, .limits, .bal, .regs, .out] s := keepsBut_refl _ _
  unfold State.abandonPending
  refine keepsBut_foldl ?_ ?_
  · intro u a hu
    try beta_reduce
    · exact keepsBut_step keeps_State_abandonSnapshot (by decide) (by assumption)
  · assumption

theorem keeps_State_mainsLost {s : State} :
    s.keepsBut [.plc, .way, .ful, .met, .host, .limits, .cch, .tim, .bal, .regs, .out, .cyc, .txn, .eth, .nor, .bil, .hwl, .ing, .rfm,
        .ctx] (s.mainsLost) := by
  have h0 : State.keepsBut s [.plc, .way, .ful, .met, .host, .limits, .cch, .tim, .bal, .regs, .out, .cyc, .txn, .eth, .nor, .bil,
      .hwl, .ing, .rfm, .ctx] s := keepsBut_refl _ _
  unfold State.mainsLost
  extract_lets +onlyGivenNames x0
  have hx0 : State.keepsBut s [.plc, .way, .ful, .met, .host, .limits, .cch, .tim, .bal, .regs, .out, .cyc, .txn, .eth, .nor, .bil,
      .hwl, .ing, .rfm, .ctx] x0 := by
    unfold x0
    split
    · extract_lets +onlyGivenNames x1
      have hx1 : State.keepsBut s [.plc, .way, .ful, .met, .host, .limits, .cch, .tim, .bal, .regs, .out, .cyc, .txn, .eth, .nor, .bil,
          .hwl, .ing, .rfm, .ctx] x1 := by
        unfold x1
        exact keepsBut_step keeps_State_postEvent (by decide) (by assumption)
      try clear_value x1
      refine keepsBut_ite ?_ ?_
      · exact keepsBut_step keeps_State_handFeeder (by decide) (by assumption)
      · exact keepsBut_step keeps_State_closeFeeder (by decide) (by assumption)
    · exact keepsBut_step keeps_State_postEvent (by decide) (by assumption)
  try clear_value x0
  extract_lets +onlyGivenNames x2
  have hx2 : State.keepsBut s [.plc, .way, .ful, .met, .host, .limits, .cch, .tim, .bal, .regs, .out, .cyc, .txn, .eth, .nor, .bil,
      .hwl, .ing, .rfm, .ctx] x2 := by
    unfold x2
    refine keepsBut_step keeps_State_modCyc (by decide) ?_
    exact keepsBut_step keeps_State_abandonPending (by decide) (by assumption)
  try clear_value x2
  exact keepsBut_step keeps_State_numberDue (by decide) (by assumption)

theorem keeps_State_answerOp {s : State} {ref : Option JobRef} {status : ℕ} {reason : Reason} {outcome : ℕ} {detail : List Byte} :
    s.keepsBut [.host, .regs] (s.answerOp ref status reason outcome detail) := by
  have h0 : State.keepsBut s [.host, .regs] s := keepsBut_refl _ _
  unfold State.answerOp
  split
  · assumption
  · exact keepsBut_step keeps_State_finishJob (by decide) (by assumption)

theorem keeps_State_readingDecided {s : State} {id : ℕ} {outcome : ℕ} :
    s.keepsBut [.host, .regs, .readings] (s.readingDecided id outcome) := by
  have h0 : State.keepsBut s [.host, .regs, .readings] s := keepsBut_refl _ _
  unfold State.readingDecided
  exact keepsBut_step keeps_State_markReading (by decide) (by assumption)

theorem keeps_State_declineRecord {s : State} {id : ℕ} {r : Record} {code : ℕ} :
    s.keepsBut [.ful, .host, .regs, .readings] (s.declineRecord id r code) := by
  have h0 : State.keepsBut s [.ful, .host, .regs, .readings] s := keepsBut_refl _ _
  unfold State.declineRecord
  extract_lets +onlyGivenNames x0
  have hx0 : State.keepsBut s [.ful, .host, .regs, .readings] x0 := by
    unfold x0
    split
    · exact keepsBut_step keeps_State_bump (by decide) (by assumption)
    · exact keepsBut_step keeps_State_bump (by decide) (by assumption)
    · exact keepsBut_step keeps_State_bump (by decide) (by assumption)
    · exact keepsBut_step keeps_State_bump (by decide) (by assumption)
    · assumption
  try clear_value x0
  extract_lets +onlyGivenNames x1
  have hx1 : State.keepsBut s [.ful, .host, .regs, .readings] x1 := by
    unfold x1
    refine keepsBut_ite ?_ ?_
    · exact keepsBut_step keeps_State_journal (by decide) (by assumption)
    · assumption
  try clear_value x1
  exact keepsBut_step keeps_State_readingDecided (by decide) (by assumption)

theorem keeps_State_itemLegalSafe {s : State} {a1 : TroikaItem} :
    s.keepsBut [.ful, .host, .regs, .readings] (s.itemLegalSafe a1) := by
  have h0 : State.keepsBut s [.ful, .host, .regs, .readings] s := keepsBut_refl _ _
  unfold State.itemLegalSafe
  split
  · exact keepsBut_step keeps_State_declineRecord (by decide) (by assumption)
  · refine keepsBut_step keeps_State_answerOp (by decide) ?_
    exact keepsBut_step keeps_State_bump (by decide) (by assumption)
  · refine keepsBut_step keeps_State_answerOp (by decide) ?_
    exact keepsBut_step keeps_State_bump (by decide) (by assumption)
  · exact keepsBut_step keeps_State_bump (by decide) (by assumption)
  · exact keepsBut_step keeps_State_bump (by decide) (by assumption)
  · refine keepsBut_step keeps_State_answerOp (by decide) ?_
    exact keepsBut_step keeps_State_bump (by decide) (by assumption)
  · assumption

theorem keeps_State_setLatch {s : State} {a : ℕ} {m : Master} {w : Option Word} :
    s.keepsBut [.latches] (s.setLatch a m w) := by
  have h0 : State.keepsBut s [.latches] s := keepsBut_refl _ _
  unfold State.setLatch
  exact keepsBut_step keeps_with_latches (by decide) (by assumption)

theorem keeps_State_masterRead {s : State} {m : Master} {a : ℕ} :
    s.keepsBut [.latches] (s.masterRead m a).1 := by
  have h0 : State.keepsBut s [.latches] s := keepsBut_refl _ _
  unfold State.masterRead
  split
  · dsimp only
    refine keepsBut_foldl ?_ ?_
    · intro u a hu
      try beta_reduce
      · refine keepsBut_ite ?_ ?_
        · assumption
        · exact keepsBut_step keeps_State_setLatch (by decide) (by assumption)
    · exact keepsBut_step keeps_State_setLatch (by decide) (by assumption)
  · dsimp only
    refine keepsBut_foldl ?_ ?_
    · intro u a hu
      try beta_reduce
      · exact keepsBut_step keeps_State_setLatch (by decide) (by assumption)
    · assumption

theorem keeps_State_bumpHalf {s : State} {a : ℕ} {high : Bool} :
    s.keepsBut [.regs] (s.bumpHalf a high) := by
  have h0 : State.keepsBut s [.regs] s := keepsBut_refl _ _
  unfold State.bumpHalf
  extract_lets +onlyGivenNames x0
  try clear_value x0
  extract_lets +onlyGivenNames x1
  try clear_value x1
  extract_lets +onlyGivenNames x2
  try clear_value x2
  exact keepsBut_step keeps_State_setReg (by decide) (by assumption)

theorem keeps_State_countError {s : State} {a : ℕ} :
    s.keepsBut [.regs] (s.countError a) := by
  have h0 : State.keepsBut s [.regs] s := keepsBut_refl _ _
  unfold State.countError
  exact keepsBut_step keeps_State_bumpHalf (by decide) (by assumption)

theorem keeps_State_readAnswer {s : State} {m : Master} {a : ℕ} {size : ℕ} :
    s.keepsBut [.latches, .way, .host, .limits, .regs, .out, .sec] (s.readAnswer m a size).1 := by
  have h0 : State.keepsBut s [.latches, .way, .host, .limits, .regs, .out, .sec] s := keepsBut_refl _ _
  unfold State.readAnswer
  split
  · dsimp only
    exact keepsBut_step keeps_State_emit (by decide) (by assumption)
  · dsimp only
    refine keepsBut_step keeps_State_emit (by decide) ?_
    exact keepsBut_step keeps_State_countError (by decide) (by assumption)
  · dsimp only
    assumption
  · dsimp only
    refine keepsBut_step keeps_State_emit (by decide) ?_
    exact keepsBut_step keeps_State_refuseAccess (by decide) (by assumption)
  · exact keepsBut_step keeps_State_masterRead (by decide) (by assumption)

theorem keeps_State_deviceRead {s : State} {m : Master} {fetch : Bool} {p : ℕ} {n : ℕ} :
    s.keepsBut [.latches, .way, .host, .limits, .regs, .out, .sec, .draws] (s.deviceRead m fetch p n).1 := by
  have h0 : State.keepsBut s [.latches, .way, .host, .limits, .regs, .out, .sec, .draws] s := keepsBut_refl _ _
  unfold State.deviceRead
  extract_lets +onlyGivenNames x0
  try clear_value x0
  split
  · dsimp only
    exact keepsBut_step keeps_State_unmapped (by decide) (by assumption)
  · exact keepsBut_step keeps_State_readAnswer (by decide) (by assumption)
  · dsimp only
    refine keepsBut_step keeps_State_emit (by decide) ?_
    exact keepsBut_step keeps_State_refuseAccess (by decide) (by assumption)
  · dsimp only
    exact keepsBut_step keeps_State_drawn (by decide) (by assumption)

theorem keeps_State_spaceRead {s : State} {sp : Space} {m : Master} {fetch : Bool} {a : ℕ} {n : ℕ} :
    s.keepsBut [.latches, .way, .host, .limits, .regs, .out, .sec, .draws] (s.spaceRead sp m fetch a n).1 := by
  have h0 : State.keepsBut s [.latches, .way, .host, .limits, .regs, .out, .sec, .draws] s := keepsBut_refl _ _
  unfold State.spaceRead
  split
  · exact keepsBut_step keeps_State_readAnswer (by decide) (by assumption)
  · exact keepsBut_step keeps_State_bar4Read (by decide) (by assumption)
  · refine keepsBut_iteFst ?_ ?_
    · dsimp only
      assumption
    · split
      · dsimp only
        exact keepsBut_step keeps_State_emit (by decide) (by assumption)
      · exact keepsBut_step keeps_State_deviceRead (by decide) (by assumption)
  · exact keepsBut_step keeps_State_deviceRead (by decide) (by assumption)

theorem keeps_State_slotError {s : State} {i : ℕ} {seq : BitVec 32} :
    s.keepsBut [.ful, .regs, .out, .bil, .ing] (s.slotError i seq) := by
  have h0 : State.keepsBut s [.ful, .regs, .out, .bil, .ing] s := keepsBut_refl _ _
  unfold State.slotError
  refine keepsBut_step keeps_State_bump (by decide) ?_
  refine keepsBut_step keeps_State_raiseInt (by decide) ?_
  exact keepsBut_step keeps_State_freezeMeter (by decide) (by assumption)

theorem keeps_State_pushRequest {s : State} {r : Request} :
    s.keepsBut [.txn, .ctx] (s.pushRequest r) := by
  have h0 : State.keepsBut s [.txn, .ctx] s := keepsBut_refl _ _
  unfold State.pushRequest
  refine keepsBut_step keeps_State_countPending (by decide) ?_
  exact keepsBut_step keeps_with_txn (by decide) (by assumption)

theorem keeps_State_toTroika {s : State} {x : TroikaItem} :
    s.keepsBut [.bil] (s.toTroika x) := by
  have h0 : State.keepsBut s [.bil] s := keepsBut_refl _ _
  unfold State.toTroika
  exact keepsBut_step keeps_with_bil (by decide) (by assumption)

theorem keeps_State_postLegal {s : State} {i : ℕ} {op : LegalOp} :
    s.keepsBut [.way, .host, .limits, .regs, .out, .bil, .hwl] (s.postLegal i op) := by
  have h0 : State.keepsBut s [.way, .host, .limits, .regs, .out, .bil, .hwl] s := keepsBut_refl _ _
  unfold State.postLegal
  refine keepsBut_ite ?_ ?_
  · exact keepsBut_step keeps_State_toTroika (by decide) (by assumption)
  · exact keepsBut_step keeps_State_hwlSend (by decide) (by assumption)

theorem keeps_State_actionTaken {s : State} {i : ℕ} {action : ℕ} {time : ℕ} :
    s.keepsBut [.way, .ful, .host, .limits, .bal, .regs, .out] (s.actionTaken i action time) := by
  have h0 : State.keepsBut s [.way, .ful, .host, .limits, .bal, .regs, .out] s := keepsBut_refl _ _
  unfold State.actionTaken
  extract_lets +onlyGivenNames x0
  try clear_value x0
  extract_lets +onlyGivenNames x1
  try clear_value x1
  extract_lets +onlyGivenNames x2
  have hx2 : State.keepsBut s [.way, .ful, .host, .limits, .bal, .regs, .out] x2 := by
    unfold x2
    exact keepsBut_step keeps_with_bal (by decide) (by assumption)
  try clear_value x2
  extract_lets +onlyGivenNames x3
  have hx3 : State.keepsBut s [.way, .ful, .host, .limits, .bal, .regs, .out] x3 := by
    unfold x3
    refine keepsBut_step keeps_State_note (by decide) ?_
    exact keepsBut_step keeps_State_raiseInt (by decide) (by assumption)
  try clear_value x3
  exact keepsBut_step keeps_State_anomaly (by decide) (by assumption)

theorem keeps_State_issueAction {s : State} {i : ℕ} {action : ℕ} {time : ℕ} :
    s.keepsBut [.way, .ful, .host, .limits, .cch, .bal, .regs, .out, .txn, .bil, .hwl, .ctx] (s.issueAction i action time) := by
  have h0 : State.keepsBut s [.way, .ful, .host, .limits, .cch, .bal, .regs, .out, .txn, .bil, .hwl, .ctx] s := keepsBut_refl _ _
  unfold State.issueAction
  extract_lets +onlyGivenNames x0
  try clear_value x0
  refine keepsBut_ite ?_ ?_
  · extract_lets +onlyGivenNames x1
    have hx1 : State.keepsBut s [.way, .ful, .host, .limits, .cch, .bal, .regs, .out, .txn, .bil, .hwl, .ctx] x1 := by
      unfold x1
      refine keepsBut_step keeps_State_pushRequest (by decide) ?_
      exact keepsBut_step keeps_State_modBal (by decide) (by assumption)
    try clear_value x1
    refine keepsBut_step keeps_State_actionTaken (by decide) ?_
    exact keepsBut_step keeps_State_topUpIssues (by decide) (by assumption)
  · refine keepsBut_ite ?_ ?_
    · refine keepsBut_ite ?_ ?_
      · assumption
      · refine keepsBut_step keeps_State_anomaly (by decide) ?_
        exact keepsBut_step keeps_with_bal (by decide) (by assumption)
    · refine keepsBut_step keeps_State_actionTaken (by decide) ?_
      refine keepsBut_step keeps_State_postLegal (by decide) ?_
      exact keepsBut_step keeps_State_modBal (by decide) (by assumption)

theorem keeps_State_actionBarred {s : State} {i : ℕ} {action : ℕ} {time : ℕ} :
    s.keepsBut [.way, .ful, .host, .limits, .regs, .out] (s.actionBarred i action time) := by
  have h0 : State.keepsBut s [.way, .ful, .host, .limits, .regs, .out] s := keepsBut_refl _ _
  unfold State.actionBarred
  extract_lets +onlyGivenNames x0
  try clear_value x0
  refine keepsBut_step keeps_State_anomaly (by decide) ?_
  refine keepsBut_step keeps_State_note (by decide) ?_
  exact keepsBut_step keeps_State_raiseInt (by decide) (by assumption)

theorem keeps_State_takeAction {s : State} {i : ℕ} {action : ℕ} {time : ℕ} :
    s.keepsBut [.way, .ful, .host, .limits, .cch, .bal, .regs, .out, .txn, .bil, .hwl, .ctx] (s.takeAction i action time) := by
  have h0 : State.keepsBut s [.way, .ful, .host, .limits, .cch, .bal, .regs, .out, .txn, .bil, .hwl, .ctx] s := keepsBut_refl _ _
  unfold State.takeAction
  extract_lets +onlyGivenNames x0
  try clear_value x0
  refine keepsBut_ite ?_ ?_
  · exact keepsBut_step keeps_State_actionBarred (by decide) (by assumption)
  · refine keepsBut_ite ?_ ?_
    · exact keepsBut_step keeps_State_issueAction (by decide) (by assumption)
    · extract_lets +onlyGivenNames x1
      have hx1 : State.keepsBut s [.way, .ful, .host, .limits, .cch, .bal, .regs, .out, .txn, .bil, .hwl, .ctx] x1 := by
        unfold x1
        exact keepsBut_step keeps_State_modBal (by decide) (by assumption)
      try clear_value x1
      exact keepsBut_step keeps_State_hwlSend (by decide) (by assumption)

theorem keeps_State_endHeld {s : State} {i : ℕ} :
    s.keepsBut [.way, .ful, .host, .limits, .cch, .bal, .regs, .out, .txn, .bil, .hwl, .ctx] (s.endHeld i) := by
  have h0 : State.keepsBut s [.way, .ful, .host, .limits, .cch, .bal, .regs, .out, .txn, .bil, .hwl, .ctx] s := keepsBut_refl _ _
  unfold State.endHeld
  refine keepsBut_ite ?_ ?_
  · exact keepsBut_step keeps_State_takeAction (by decide) (by assumption)
  · assumption

theorem keeps_State_retire {s : State} {x : ℕ} :
    s.keepsBut [.cch] (s.retire x) := by
  have h0 : State.keepsBut s [.cch] s := keepsBut_refl _ _
  unfold State.retire
  extract_lets +onlyGivenNames x0
  try clear_value x0
  split
  · assumption
  · extract_lets +onlyGivenNames x1
    try clear_value x1
    exact keepsBut_step keeps_with_cch (by decide) (by assumption)

theorem keeps_State_takeAck {s : State} {k : ℕ} {ackSeq : ℕ} :
    s.keepsBut [.regs, .out, .eth] (s.takeAck k ackSeq) := by
  have h0 : State.keepsBut s [.regs, .out, .eth] s := keepsBut_refl _ _
  unfold State.takeAck
  extract_lets +onlyGivenNames x0
  try clear_value x0
  extract_lets +onlyGivenNames x1
  try clear_value x1
  extract_lets +onlyGivenNames x2
  have hx2 : State.keepsBut s [.regs, .out, .eth] x2 := by
    unfold x2
    exact keepsBut_step keeps_State_setAssoc (by decide) (by assumption)
  try clear_value x2
  exact keepsBut_step keeps_State_pumpMessages (by decide) (by assumption)

theorem keeps_State_setGen {s : State} {k : ℕ} {e : GenEntry} :
    s.keepsBut [.nor, .sec] (s.setGen k e) := by
  have h0 : State.keepsBut s [.nor, .sec] s := keepsBut_refl _ _
  unfold State.setGen
  refine keepsBut_ite ?_ ?_
  · assumption
  · extract_lets +onlyGivenNames x0
    try clear_value x0
    exact keepsBut_step keeps_with_nor_sec (by decide) (by assumption)

theorem keeps_State_fillKey {s : State} {k : ℕ} {v : List Byte} {material : List Byte} :
    s.keepsBut [.nor, .sec] (s.fillKey k v material) := by
  have h0 : State.keepsBut s [.nor, .sec] s := keepsBut_refl _ _
  unfold State.fillKey
  extract_lets +onlyGivenNames x0
  try clear_value x0
  extract_lets +onlyGivenNames x1
  try clear_value x1
  extract_lets +onlyGivenNames x2
  try clear_value x2
  extract_lets +onlyGivenNames x3
  have hx3 : State.keepsBut s [.nor, .sec] x3 := by
    unfold x3
    exact keepsBut_step keeps_State_setKeySlot (by decide) (by assumption)
  try clear_value x3
  refine keepsBut_ite ?_ ?_
  · assumption
  · exact keepsBut_step keeps_State_setGen (by decide) (by assumption)

theorem keeps_State_loadKey {s : State} {k : ℕ} :
    s.keepsBut [.way, .host, .limits, .regs, .out, .nor, .sec] (s.loadKey k) := by
  have h0 : State.keepsBut s [.way, .host, .limits, .regs, .out, .nor, .sec] s := keepsBut_refl _ _
  unfold State.loadKey
  extract_lets +onlyGivenNames x0
  try clear_value x0
  refine keepsBut_ite ?_ ?_
  · assumption
  · refine keepsBut_ite ?_ ?_
    · exact keepsBut_step keeps_State_skipKey (by decide) (by assumption)
    · refine keepsBut_ite ?_ ?_
      · split
        · refine keepsBut_step keeps_State_bump (by decide) ?_
          exact keepsBut_step keeps_State_fillKey (by decide) (by assumption)
        · refine keepsBut_step keeps_State_note (by decide) ?_
          exact keepsBut_step keeps_State_raiseInt (by decide) (by assumption)
      · refine keepsBut_ite ?_ ?_
        · refine keepsBut_step keeps_State_bump (by decide) ?_
          exact keepsBut_step keeps_State_fillKey (by decide) (by assumption)
        · assumption

theorem keeps_State_sendSetup {s : State} {p : ℕ} {b : HwlBody} :
    s.keepsBut [.regs, .out, .draws] (s.sendSetup p b) := by
  have h0 : State.keepsBut s [.regs, .out, .draws] s := keepsBut_refl _ _
  unfold State.sendSetup
  refine keepsBut_step keeps_State_bump (by decide) ?_
  refine keepsBut_step keeps_State_emit (by decide) ?_
  refine keepsBut_step keeps_State_drawn (by decide) ?_
  exact keepsBut_step keeps_State_drawn (by decide) (by assumption)

theorem keeps_State_sendHello {s : State} {p : ℕ} :
    s.keepsBut [.regs, .out, .draws, .hwl] (s.sendHello p) := by
  have h0 : State.keepsBut s [.regs, .out, .draws, .hwl] s := keepsBut_refl _ _
  unfold State.sendHello
  extract_lets +onlyGivenNames x0
  try clear_value x0
  refine keepsBut_step keeps_State_sendSetup (by decide) ?_
  exact keepsBut_step keeps_State_setHport (by decide) (by assumption)

theorem keeps_State_failEvent {s : State} {code : ℕ} {short : ℕ} :
    s.keepsBut [.way, .host, .regs, .out] (s.failEvent code short) := by
  have h0 : State.keepsBut s [.way, .host, .regs, .out] s := keepsBut_refl _ _
  unfold State.failEvent
  exact keepsBut_step keeps_State_event (by decide) (by assumption)

theorem keeps_State_setTrigger {s : State} {entry : ℕ} {t : Trigger} :
    s.keepsBut [.cch, .regs] (s.setTrigger entry t) := by
  have h0 : State.keepsBut s [.cch, .regs] s := keepsBut_refl _ _
  unfold State.setTrigger
  extract_lets +onlyGivenNames x0
  try clear_value x0
  extract_lets +onlyGivenNames x1
  try clear_value x1
  extract_lets +onlyGivenNames x2
  have hx2 : State.keepsBut s [.cch, .regs] x2 := by
    unfold x2
    exact keepsBut_step keeps_with_cch (by decide) (by assumption)
  try clear_value x2
  refine keepsBut_ite ?_ ?_
  · exact keepsBut_step keeps_State_bump (by decide) (by assumption)
  · assumption

theorem keeps_State_runTrigger {s : State} {j : Job} {entry : ℕ} {source : ℕ} {due : ℕ} {period : ℕ} {m : TriggerTemplate} :
    s.keepsBut [.way, .host, .limits, .cch, .regs, .out, .upd, .sec] (s.runTrigger j entry source due period m) := by
  have h0 : State.keepsBut s [.way, .host, .limits, .cch, .regs, .out, .upd, .sec] s := keepsBut_refl _ _
  unfold State.runTrigger
  refine keepsBut_ite ?_ ?_
  · exact keepsBut_step keeps_State_rejectJob (by decide) (by assumption)
  · refine keepsBut_ite ?_ ?_
    · refine keeps_State_onAccept (by decide) ?_ ?_
      · intro u hu
        try beta_reduce
        refine keepsBut_step keeps_State_jobDone (by decide) ?_
        exact keepsBut_step keeps_State_setTrigger (by decide) (by assumption)
      · assumption
    · refine keepsBut_ite ?_ ?_
      · exact keepsBut_step keeps_State_rejectJob (by decide) (by assumption)
      · refine keeps_State_onAccept (by decide) ?_ ?_
        · intro u hu
          try beta_reduce
          refine keepsBut_step keeps_State_jobDone (by decide) ?_
          exact keepsBut_step keeps_State_setTrigger (by decide) (by assumption)
        · assumption

theorem keeps_State_plcQueue {s : State} {w : LinkWork} {a : Apdu} {slot : Option ℕ} {dst : ℕ} {bound : Option LinkPath} :
    s.keepsBut [.plc, .draws] (s.plcQueue w a slot dst bound) := by
  have h0 : State.keepsBut s [.plc, .draws] s := keepsBut_refl _ _
  unfold State.plcQueue
  extract_lets +onlyGivenNames x0
  extract_lets +onlyGivenNames x1
  refine keepsBut_step keeps_State_modPlc (by decide) ?_
  exact keepsBut_step keeps_State_csmaWait (by decide) (by assumption)

theorem keeps_State_setTag {s : State} {t : ℕ} {v : Tag} :
    s.keepsBut [.txn] (s.setTag t v) := by
  have h0 : State.keepsBut s [.txn] s := keepsBut_refl _ _
  unfold State.setTag
  exact keepsBut_step keeps_with_txn (by decide) (by assumption)

theorem keeps_State_markFlood {s : State} {w : LinkWork} {ttl : ℕ} :
    s.keepsBut [.txn] (s.markFlood w ttl) := by
  have h0 : State.keepsBut s [.txn] s := keepsBut_refl _ _
  unfold State.markFlood
  split
  · exact keepsBut_step keeps_State_setTag (by decide) (by assumption)
  · assumption

theorem keeps_State_reportOutcome {s : State} {r : Request} {name : ℕ} {outcome : ℕ} {deferred : Bool} :
    s.keepsBut [.host, .regs] (s.reportOutcome r name outcome deferred) := by
  have h0 : State.keepsBut s [.host, .regs] s := keepsBut_refl _ _
  unfold State.reportOutcome
  extract_lets +onlyGivenNames x0
  have hx0 : State.keepsBut s [.host, .regs] x0 := by
    unfold x0
    split
    · refine keepsBut_ite ?_ ?_
      · assumption
      · exact keepsBut_step keeps_State_finalAnswer (by decide) (by assumption)
    · assumption
  try clear_value x0
  split
  · refine keepsBut_ite ?_ ?_
    · exact keepsBut_step keeps_State_reportOut (by decide) (by assumption)
    · assumption
  · assumption

theorem keeps_State_statusReadOver {s : State} {k : Option ℕ} {g : Gmn} :
    s.keepsBut [.upd] (s.statusReadOver k g) := by
  have h0 : State.keepsBut s [.upd] s := keepsBut_refl _ _
  unfold State.statusReadOver
  split
  · assumption
  · split
    · assumption
    · exact keepsBut_step keeps_State_setCamp (by decide) (by assumption)

theorem keeps_State_unlink {s : State} {t : ℕ} :
    s.keepsBut [.plc, .rfm] (s.unlink t) := by
  have h0 : State.keepsBut s [.plc, .rfm] s := keepsBut_refl _ _
  unfold State.unlink
  extract_lets +onlyGivenNames x0
  try clear_value x0
  extract_lets +onlyGivenNames x1
  try clear_value x1
  exact keepsBut_step keeps_with_plc_rfm (by decide) (by assumption)

theorem keeps_State_completeTxn {s : State} {t : ℕ} {outcome : ℕ} {deferred : Bool} :
    s.keepsBut [.plc, .way, .host, .limits, .cch, .regs, .out, .upd, .txn, .rfm, .ctx] (s.completeTxn t outcome deferred) := by
  have h0 : State.keepsBut s [.plc, .way, .host, .limits, .cch, .regs, .out, .upd, .txn, .rfm, .ctx] s := keepsBut_refl _ _
  unfold State.completeTxn
  extract_lets +onlyGivenNames x0
  try clear_value x0
  split
  · assumption
  · extract_lets +onlyGivenNames x1
    try clear_value x1
    extract_lets +onlyGivenNames x2
    have hx2 : State.keepsBut s [.plc, .way, .host, .limits, .cch, .regs, .out, .upd, .txn, .rfm, .ctx] x2 := by
      unfold x2
      refine keepsBut_step keeps_State_setTag (by decide) ?_
      exact keepsBut_step keeps_State_unlink (by decide) (by assumption)
    try clear_value x2
    extract_lets +onlyGivenNames x3
    have hx3 : State.keepsBut s [.plc, .way, .host, .limits, .cch, .regs, .out, .upd, .txn, .rfm, .ctx] x3 := by
      unfold x3
      refine keepsBut_foldl ?_ ?_
      · intro u a hu
        try beta_reduce
        · exact keepsBut_step keeps_State_pullRequest (by decide) (by assumption)
      · assumption
    try clear_value x3
    extract_lets +onlyGivenNames x4
    have hx4 : State.keepsBut s [.plc, .way, .host, .limits, .cch, .regs, .out, .upd, .txn, .rfm, .ctx] x4 := by
      unfold x4
      split
      · exact keepsBut_step keeps_State_modCtx (by decide) (by assumption)
      · assumption
    try clear_value x4
    extract_lets +onlyGivenNames x5
    have hx5 : State.keepsBut s [.plc, .way, .host, .limits, .cch, .regs, .out, .upd, .txn, .rfm, .ctx] x5 := by
      unfold x5
      exact keepsBut_step keeps_State_bump (by decide) (by assumption)
    try clear_value x5
    extract_lets +onlyGivenNames x6
    have hx6 : State.keepsBut s [.plc, .way, .host, .limits, .cch, .regs, .out, .upd, .txn, .rfm, .ctx] x6 := by
      unfold x6
      refine keepsBut_ite ?_ ?_
      · exact keepsBut_step keeps_State_raiseInt (by decide) (by assumption)
      · assumption
    try clear_value x6
    extract_lets +onlyGivenNames x7
    have hx7 : State.keepsBut s [.plc, .way, .host, .limits, .cch, .regs, .out, .upd, .txn, .rfm, .ctx] x7 := by
      unfold x7
      exact keepsBut_step keeps_State_post (by decide) (by assumption)
    try clear_value x7
    refine keepsBut_step keeps_State_topUpIssues (by decide) ?_
    refine keepsBut_step keeps_State_reportOutcome (by decide) ?_
    exact keepsBut_step keeps_State_statusReadOver (by decide) (by assumption)

theorem keeps_State_failAttempt {s : State} {t : ℕ} {link : Bool} :
    s.keepsBut [.plc, .way, .host, .limits, .cch, .regs, .out, .upd, .txn, .rfm, .ctx] (s.failAttempt t link) := by
  have h0 : State.keepsBut s [.plc, .way, .host, .limits, .cch, .regs, .out, .upd, .txn, .rfm, .ctx] s := keepsBut_refl _ _
  unfold State.failAttempt
  extract_lets +onlyGivenNames x0
  try clear_value x0
  split
  · assumption
  · refine keepsBut_ite ?_ ?_
    · assumption
    · refine keepsBut_ite ?_ ?_
      · extract_lets +onlyGivenNames x1
        try clear_value x1
        extract_lets +onlyGivenNames x2
        have hx2 : State.keepsBut s [.plc, .way, .host, .limits, .cch, .regs, .out, .upd, .txn, .rfm, .ctx] x2 := by
          unfold x2
          refine keepsBut_step keeps_State_setTag (by decide) ?_
          exact keepsBut_step keeps_State_unlink (by decide) (by assumption)
        try clear_value x2
        exact keepsBut_step keeps_State_pushRequest (by decide) (by assumption)
      · exact keepsBut_step keeps_State_completeTxn (by decide) (by assumption)

theorem keeps_State_tooLong {s : State} {t : ℕ} {m : Medium} :
    s.keepsBut [.plc, .way, .host, .limits, .cch, .regs, .out, .upd, .txn, .rfm, .ctx] (s.tooLong t m) := by
  have h0 : State.keepsBut s [.plc, .way, .host, .limits, .cch, .regs, .out, .upd, .txn, .rfm, .ctx] s := keepsBut_refl _ _
  unfold State.tooLong
  refine keepsBut_step keeps_State_failAttempt (by decide) ?_
  exact keepsBut_step keeps_State_bump (by decide) (by assumption)

end Sys2Proof.Machine
end

