-- ==== Sys2Proof/Laws/Keeps04.lean ====
section
/-!
SUPPORT. What each shared operation leaves of the state, one lemma an operation, an operation after those it is built from: from `meshQueue`
to `programSectors`.
-/

namespace Sys2Proof.Machine

theorem keeps_State_meshQueue {s : State} {o : MeshOut} :
    s.keepsBut [.draws, .rfm] (s.meshQueue o) := by
  have h0 : State.keepsBut s [.draws, .rfm] s := keepsBut_refl _ _
  unfold State.meshQueue
  extract_lets +onlyGivenNames x0
  refine keepsBut_step keeps_State_modRfm (by decide) ?_
  exact keepsBut_step keeps_State_rfWait (by decide) (by assumption)

theorem keeps_State_meshTo {s : State} {i : ℕ} {w : LinkWork} {a : Apdu} :
    s.keepsBut [.draws, .rfm] (s.meshTo i w a) := by
  have h0 : State.keepsBut s [.draws, .rfm] s := keepsBut_refl _ _
  unfold State.meshTo
  extract_lets +onlyGivenNames x0
  try clear_value x0
  exact keepsBut_step keeps_State_meshQueue (by decide) (by assumption)

theorem keeps_State_sendTo {s : State} {t : ℕ} {i : ℕ} {m : Medium} {a : Apdu} :
    s.keepsBut [.plc, .way, .host, .limits, .cch, .regs, .out, .upd, .txn, .draws, .rfm, .ctx] (s.sendTo t i m a) := by
  have h0 : State.keepsBut s [.plc, .way, .host, .limits, .cch, .regs, .out, .upd, .txn, .draws, .rfm, .ctx] s := keepsBut_refl _ _
  unfold State.sendTo
  refine keepsBut_ite ?_ ?_
  · extract_lets +onlyGivenNames x0
    have hx0 : State.keepsBut s [.plc, .way, .host, .limits, .cch, .regs, .out, .upd, .txn, .draws, .rfm, .ctx] x0 := by
      unfold x0
      split
      · exact keepsBut_step keeps_State_markFlood (by decide) (by assumption)
      · assumption
    try clear_value x0
    refine keepsBut_ite ?_ ?_
    · exact keepsBut_step keeps_State_tooLong (by decide) (by assumption)
    · exact keepsBut_step keeps_State_meshTo (by decide) (by assumption)
  · refine keepsBut_ite ?_ ?_
    · exact keepsBut_step keeps_State_tooLong (by decide) (by assumption)
    · exact keepsBut_step keeps_State_plcQueue (by decide) (by assumption)

theorem keeps_State_setBudget {s : State} {level : ℕ} :
    s.keepsBut [.cch, .regs, .out] (s.setBudget level) := by
  have h0 : State.keepsBut s [.cch, .regs, .out] s := keepsBut_refl _ _
  unfold State.setBudget
  refine keepsBut_ite ?_ ?_
  · assumption
  · extract_lets +onlyGivenNames x0
    try clear_value x0
    extract_lets +onlyGivenNames x1
    try clear_value x1
    extract_lets +onlyGivenNames x2
    have hx2 : State.keepsBut s [.cch, .regs, .out] x2 := by
      unfold x2
      exact keepsBut_step keeps_with_cch (by decide) (by assumption)
    try clear_value x2
    refine keepsBut_step keeps_State_dispatch (by decide) ?_
    refine keepsBut_step keeps_State_raiseInt (by decide) ?_
    exact keepsBut_step keeps_State_bump (by decide) (by assumption)

theorem keeps_State_setMode {s : State} {m : Mode} {cause : ℕ} :
    s.keepsBut [.way, .host, .limits, .cch, .regs, .out, .pwr] (s.setMode m cause) := by
  have h0 : State.keepsBut s [.way, .host, .limits, .cch, .regs, .out, .pwr] s := keepsBut_refl _ _
  unfold State.setMode
  extract_lets +onlyGivenNames x0
  try clear_value x0
  extract_lets +onlyGivenNames x1
  try clear_value x1
  refine keepsBut_ite ?_ ?_
  · assumption
  · extract_lets +onlyGivenNames x2
    have hx2 : State.keepsBut s [.way, .host, .limits, .cch, .regs, .out, .pwr] x2 := by
      unfold x2
      exact keepsBut_step keeps_State_modPwr (by decide) (by assumption)
    try clear_value x2
    extract_lets +onlyGivenNames x3
    have hx3 : State.keepsBut s [.way, .host, .limits, .cch, .regs, .out, .pwr] x3 := by
      unfold x3
      refine keepsBut_step keeps_State_note (by decide) ?_
      exact keepsBut_step keeps_State_raiseInt (by decide) (by assumption)
    try clear_value x3
    extract_lets +onlyGivenNames x4
    have hx4 : State.keepsBut s [.way, .host, .limits, .cch, .regs, .out, .pwr] x4 := by
      unfold x4
      refine keepsBut_ite ?_ ?_
      · assumption
      · split
        · exact keepsBut_step keeps_State_note (by decide) (by assumption)
        · assumption
    try clear_value x4
    extract_lets +onlyGivenNames x5
    have hx5 : State.keepsBut s [.way, .host, .limits, .cch, .regs, .out, .pwr] x5 := by
      unfold x5
      refine keepsBut_ite ?_ ?_
      · exact keepsBut_step keeps_State_dispatch (by decide) (by assumption)
      · refine keepsBut_step keeps_State_setBudget (by decide) ?_
        exact keepsBut_step keeps_State_raiseInt (by decide) (by assumption)
    try clear_value x5
    refine keepsBut_step keeps_State_fire (by decide) ?_
    exact keepsBut_step keeps_State_route (by decide) (by assumption)

theorem keeps_State_endRide {s : State} :
    s.keepsBut [.pwr] (s.endRide) := by
  have h0 : State.keepsBut s [.pwr] s := keepsBut_refl _ _
  unfold State.endRide
  split
  · assumption
  · exact keepsBut_step keeps_State_modPwr (by decide) (by assumption)

theorem keeps_State_powered {s : State} :
    s.keepsBut [.way, .host, .limits, .cch, .regs, .out, .pwr] (s.powered) := by
  have h0 : State.keepsBut s [.way, .host, .limits, .cch, .regs, .out, .pwr] s := keepsBut_refl _ _
  unfold State.powered
  extract_lets +onlyGivenNames x0
  try clear_value x0
  extract_lets +onlyGivenNames x1
  have hx1 : State.keepsBut s [.way, .host, .limits, .cch, .regs, .out, .pwr] x1 := by
    unfold x1
    exact keepsBut_step keeps_State_endRide (by decide) (by assumption)
  try clear_value x1
  extract_lets +onlyGivenNames x2
  try clear_value x2
  extract_lets +onlyGivenNames x3
  try clear_value x3
  refine keepsBut_ite ?_ ?_
  · exact keepsBut_step keeps_State_setMode (by decide) (by assumption)
  · refine keepsBut_ite ?_ ?_
    · exact keepsBut_step keeps_State_setMode (by decide) (by assumption)
    · exact keepsBut_step keeps_State_setMode (by decide) (by assumption)

theorem keeps_State_checkThreshold {s : State} {n : ℕ} :
    s.keepsBut [.regs, .out, .ing] (s.checkThreshold n) := by
  have h0 : State.keepsBut s [.regs, .out, .ing] s := keepsBut_refl _ _
  unfold State.checkThreshold
  extract_lets +onlyGivenNames x0
  try clear_value x0
  extract_lets +onlyGivenNames x1
  try clear_value x1
  extract_lets +onlyGivenNames x2
  try clear_value x2
  extract_lets +onlyGivenNames x3
  try clear_value x3
  extract_lets +onlyGivenNames x4
  have hx4 : State.keepsBut s [.regs, .out, .ing] x4 := by
    unfold x4
    exact keepsBut_step keeps_with_ing (by decide) (by assumption)
  try clear_value x4
  refine keepsBut_ite ?_ ?_
  · exact keepsBut_step keeps_State_raiseInt (by decide) (by assumption)
  · assumption

theorem keeps_State_entranceDrop {s : State} {src : ℕ} {oversize : Bool} :
    s.keepsBut [.way, .host, .regs, .out] (s.entranceDrop src oversize) := by
  have h0 : State.keepsBut s [.way, .host, .regs, .out] s := keepsBut_refl _ _
  unfold State.entranceDrop
  refine keepsBut_step keeps_State_event (by decide) ?_
  exact keepsBut_step keeps_State_bumpHalf (by decide) (by assumption)

theorem keeps_State_ingestFrame {s : State} {f : Frame} :
    s.keepsBut [.way, .host, .regs, .out, .ing] (s.ingestFrame f) := by
  have h0 : State.keepsBut s [.way, .host, .regs, .out, .ing] s := keepsBut_refl _ _
  unfold State.ingestFrame
  refine keepsBut_ite ?_ ?_
  · assumption
  · refine keepsBut_ite ?_ ?_
    · exact keepsBut_step keeps_State_entranceDrop (by decide) (by assumption)
    · refine keepsBut_ite ?_ ?_
      · refine keepsBut_ite ?_ ?_
        · exact keepsBut_step keeps_State_entranceDrop (by decide) (by assumption)
        · assumption
      · extract_lets +onlyGivenNames x0
        try clear_value x0
        extract_lets +onlyGivenNames x1
        try clear_value x1
        extract_lets +onlyGivenNames x2
        try clear_value x2
        refine keepsBut_step keeps_State_checkThreshold (by decide) ?_
        refine keepsBut_step keeps_State_takeTicket (by decide) ?_
        exact keepsBut_step keeps_with_ing (by decide) (by assumption)

theorem keeps_State_syncDone {s : State} :
    s.keepsBut [.regs, .out, .hwl] (s.syncDone) := by
  have h0 : State.keepsBut s [.regs, .out, .hwl] s := keepsBut_refl _ _
  unfold State.syncDone
  refine keepsBut_step keeps_State_raiseInt (by decide) ?_
  refine keepsBut_step keeps_State_bump (by decide) ?_
  exact keepsBut_step keeps_State_modHwl (by decide) (by assumption)

theorem keeps_State_handback {s : State} :
    s.keepsBut [.way, .host, .regs, .out, .hwl] (s.handback) := by
  have h0 : State.keepsBut s [.way, .host, .regs, .out, .hwl] s := keepsBut_refl _ _
  unfold State.handback
  refine keepsBut_ite ?_ ?_
  · assumption
  · extract_lets +onlyGivenNames x0
    have hx0 : State.keepsBut s [.way, .host, .regs, .out, .hwl] x0 := by
      unfold x0
      refine keepsBut_step keeps_State_syncDone (by decide) ?_
      exact keepsBut_step keeps_State_modHwl (by decide) (by assumption)
    try clear_value x0
    exact keepsBut_step keeps_State_event (by decide) (by assumption)

theorem keeps_State_openCut {s : State} {b : HwlBody} :
    s.keepsBut [.way, .host, .limits, .regs, .out, .hwl] (s.openCut b) := by
  have h0 : State.keepsBut s [.way, .host, .limits, .regs, .out, .hwl] s := keepsBut_refl _ _
  unfold State.openCut
  split
  · extract_lets +onlyGivenNames x0
    try clear_value x0
    refine keepsBut_ite ?_ ?_
    · assumption
    · extract_lets +onlyGivenNames x1
      have hx1 : State.keepsBut s [.way, .host, .limits, .regs, .out, .hwl] x1 := by
        unfold x1
        refine keepsBut_ite ?_ ?_
        · exact keepsBut_step keeps_State_note (by decide) (by assumption)
        · assumption
      try clear_value x1
      exact keepsBut_step keeps_State_modHwl (by decide) (by assumption)
  · assumption

theorem keeps_State_mirrorDeliver {s u : State} {p : HwlBody} (h : s.mirrorDeliver p = some u) :
    s.keepsBut [.way, .ful, .host, .limits, .bal, .regs, .out, .hwl, .ing] u := by
  have h0 : State.keepsBut s [.way, .ful, .host, .limits, .bal, .regs, .out, .hwl, .ing] s := keepsBut_refl _ _
  unfold State.mirrorDeliver at h
  split at h
  · split at h
    · injection h with h
      subst h
      exact keeps_State_ingestFrame.weaken (by decide)
    · cases h
  all_goals
    injection h with h
    subst h
  · split
    · exact keeps_State_modHwl.weaken (by decide)
    · exact h0
  · exact keeps_State_feederArrived.weaken (by decide)
  · exact keeps_State_streamOp.weaken (by decide)
  · split
    · exact keeps_State_streamOp.weaken (by decide)
    · exact h0
  · exact keeps_State_queueOp.weaken (by decide)
  · exact keeps_State_syncPart.weaken (by decide)
  · exact keeps_State_handback.weaken (by decide)
  · exact h0

theorem keeps_State_mirrorDrain {s : State} {a1 : ℕ} :
    s.keepsBut [.way, .ful, .host, .limits, .bal, .regs, .out, .hwl, .ing] (s.mirrorDrain a1) := by
  induction a1 generalizing s with
  | zero => exact keepsBut_refl _ _
  | succ n ih =>
    rw [State.mirrorDrain]
    split
    · exact keepsBut_refl _ _
    · split
      · exact keepsBut_refl _ _
      · rename_i u e
        have hu : State.keepsBut s [.way, .ful, .host, .limits, .bal, .regs, .out, .hwl, .ing] u := keepsBut_step
            (keeps_State_mirrorDeliver e) (by decide) (keeps_State_openCut.weaken (by decide))
        dsimp only
        refine keepsBut_step ih (by decide) ?_
        refine keepsBut_ite ?_ ?_
        · refine keepsBut_step keeps_State_hwlSend (by decide) ?_
          refine keepsBut_step keeps_State_modHwl (by decide) ?_
          exact keepsBut_step keeps_State_modHwl (by decide) (by exact hu)
        · exact keepsBut_step keeps_State_modHwl (by decide) (by exact hu)

theorem keeps_State_mirrorPump {s : State} :
    s.keepsBut [.way, .ful, .host, .limits, .bal, .regs, .out, .hwl, .ing] (s.mirrorPump) := by
  have h0 : State.keepsBut s [.way, .ful, .host, .limits, .bal, .regs, .out, .hwl, .ing] s := keepsBut_refl _ _
  unfold State.mirrorPump
  extract_lets +onlyGivenNames x0
  have hx0 : State.keepsBut s [.way, .ful, .host, .limits, .bal, .regs, .out, .hwl, .ing] x0 := by
    unfold x0
    exact keepsBut_step keeps_State_mirrorDrain (by decide) (by assumption)
  try clear_value x0
  extract_lets +onlyGivenNames x1
  try clear_value x1
  exact keepsBut_step keeps_State_modHwl (by decide) (by assumption)

theorem keeps_State_noteReverse {s : State} {i : ℕ} {r : Record} {tref : ℕ} {deltas : List (Option ℕ)} :
    s.keepsBut [.ctx] (s.noteReverse i r tref deltas) := by
  have h0 : State.keepsBut s [.ctx] s := keepsBut_refl _ _
  unfold State.noteReverse
  extract_lets +onlyGivenNames x0
  try clear_value x0
  extract_lets +onlyGivenNames x1
  try clear_value x1
  refine keepsBut_ite ?_ ?_
  · exact keepsBut_step keeps_State_modBal (by decide) (by assumption)
  · assumption

theorem keeps_State_readWords {s : State} {m : Master} {a : ℕ} {a3 : ℕ} :
    s.keepsBut [.latches, .way, .host, .limits, .regs, .out, .sec] (s.readWords m a a3).1 := by
  induction a3 generalizing s a with
  | zero => exact keepsBut_refl _ _
  | succ n ih =>
    rw [State.readWords]
    dsimp only
    exact keepsBut_step ih (by decide) (keeps_State_readAnswer.weaken (by decide))

theorem keeps_State_startCycles {s : State} :
    s.keepsBut [.plc, .way, .ful, .met, .host, .limits, .cch, .tim, .bal, .regs, .out, .cyc, .txn, .eth, .nor, .bil, .hwl, .ing, .rfm,
        .ctx] (s.startCycles) := by
  have h0 : State.keepsBut s [.plc, .way, .ful, .met, .host, .limits, .cch, .tim, .bal, .regs, .out, .cyc, .txn, .eth, .nor, .bil,
      .hwl, .ing, .rfm, .ctx] s := keepsBut_refl _ _
  unfold State.startCycles
  extract_lets +onlyGivenNames x0
  try clear_value x0
  extract_lets +onlyGivenNames x1
  try clear_value x1
  extract_lets +onlyGivenNames x2
  try clear_value x2
  extract_lets +onlyGivenNames x3
  try clear_value x3
  extract_lets +onlyGivenNames x4
  try clear_value x4
  extract_lets +onlyGivenNames x5
  try clear_value x5
  extract_lets +onlyGivenNames x6
  try clear_value x6
  extract_lets +onlyGivenNames x7
  have hx7 : State.keepsBut s [.plc, .way, .ful, .met, .host, .limits, .cch, .tim, .bal, .regs, .out, .cyc, .txn, .eth, .nor, .bil,
      .hwl, .ing, .rfm, .ctx] x7 := by
    unfold x7
    exact keepsBut_step keeps_with_cyc (by decide) (by assumption)
  try clear_value x7
  extract_lets +onlyGivenNames x8
  have hx8 : State.keepsBut s [.plc, .way, .ful, .met, .host, .limits, .cch, .tim, .bal, .regs, .out, .cyc, .txn, .eth, .nor, .bil,
      .hwl, .ing, .rfm, .ctx] x8 := by
    unfold x8
    refine keepsBut_ite ?_ ?_
    · exact keepsBut_step keeps_State_event (by decide) (by assumption)
    · assumption
  try clear_value x8
  exact keepsBut_step keeps_State_numberCycle (by decide) (by assumption)

theorem keeps_State_postCamp {s : State} {c : ℕ} :
    s.keepsBut [.way, .host, .limits, .cch, .regs, .out] (s.postCamp c) := by
  have h0 : State.keepsBut s [.way, .host, .limits, .cch, .regs, .out] s := keepsBut_refl _ _
  unfold State.postCamp
  refine keepsBut_ite ?_ ?_
  · assumption
  · exact keepsBut_step keeps_State_post (by decide) (by assumption)

theorem keeps_State_campBroadcast {s : State} {v : Campaign} {kind : ℕ} {index : ℕ} :
    s.keepsBut [.way, .host, .limits, .cch, .regs, .out, .txn, .ctx] (s.campBroadcast v kind index) := by
  have h0 : State.keepsBut s [.way, .host, .limits, .cch, .regs, .out, .txn, .ctx] s := keepsBut_refl _ _
  unfold State.campBroadcast
  extract_lets +onlyGivenNames x0
  have hd : ∀ st, State.keepsBut s [.way, .host, .limits, .cch, .regs, .out, .txn, .ctx] st → ∀ m, State.keepsBut s [.way, .host,
      .limits, .cch, .regs, .out, .txn, .ctx] (x0 st m) := by
    intro st hst
    unfold x0
    intro m
    exact keepsBut_step keeps_State_pushRequest (by decide) (by assumption)
  try clear_value x0
  extract_lets +onlyGivenNames x1
  have hx1 : State.keepsBut s [.way, .host, .limits, .cch, .regs, .out, .txn, .ctx] x1 := by
    unfold x1
    refine keepsBut_ite ?_ ?_
    · apply hd; assumption
    · assumption
  try clear_value x1
  refine keepsBut_step keeps_State_topUpIssues (by decide) ?_
  refine keepsBut_ite ?_ ?_
  · apply hd; assumption
  · assumption

theorem keeps_State_actedOn {s : State} {x : ℕ} :
    s.keepsBut [.cch] (s.actedOn x) := by
  have h0 : State.keepsBut s [.cch] s := keepsBut_refl _ _
  unfold State.actedOn
  extract_lets +onlyGivenNames x0
  try clear_value x0
  exact keepsBut_step keeps_with_cch (by decide) (by assumption)

theorem keeps_State_campTaskDone {s : State} {c : ℕ} :
    s.keepsBut [.cch] (s.campTaskDone c) := by
  have h0 : State.keepsBut s [.cch] s := keepsBut_refl _ _
  unfold State.campTaskDone
  split
  · exact keepsBut_step keeps_State_actedOn (by decide) (by assumption)
  · assumption

theorem keeps_State_endCampaign {s : State} {c : ℕ} {v : Campaign} :
    s.keepsBut [.host, .cch, .regs, .out, .upd] (s.endCampaign c v) := by
  have h0 : State.keepsBut s [.host, .cch, .regs, .out, .upd] s := keepsBut_refl _ _
  unfold State.endCampaign
  extract_lets +onlyGivenNames x0
  have hx0 : State.keepsBut s [.host, .cch, .regs, .out, .upd] x0 := by
    unfold x0
    refine keepsBut_step keeps_State_finishJob (by decide) ?_
    refine keepsBut_step keeps_State_setCamp (by decide) ?_
    exact keepsBut_step keeps_State_campTaskDone (by decide) (by assumption)
  try clear_value x0
  refine keepsBut_step keeps_State_raiseInt (by decide) ?_
  exact keepsBut_step keeps_State_bump (by decide) (by assumption)

theorem keeps_State_runCampaign {s : State} {j : Job} {a : CampaignArgs} :
    s.keepsBut [.way, .host, .limits, .cch, .regs, .out, .upd, .txn, .sec, .ctx] (s.runCampaign j a) := by
  have h0 : State.keepsBut s [.way, .host, .limits, .cch, .regs, .out, .upd, .txn, .sec, .ctx] s := keepsBut_refl _ _
  unfold State.runCampaign
  refine keepsBut_ite ?_ ?_
  · exact keepsBut_step keeps_State_rejectJob (by decide) (by assumption)
  · refine keepsBut_ite ?_ ?_
    · split
      · exact keepsBut_step keeps_State_rejectJob (by decide) (by assumption)
      · refine keeps_State_onAccept (by decide) ?_ ?_
        · intro u hu
          try beta_reduce
          refine keepsBut_step keeps_State_jobDone (by decide) ?_
          refine keepsBut_step keeps_State_endCampaign (by decide) ?_
          exact keepsBut_step keeps_State_campBroadcast (by decide) (by assumption)
        · assumption
    · refine keepsBut_ite ?_ ?_
      · refine keeps_State_onAccept (by decide) ?_ ?_
        · intro u hu
          try beta_reduce
          exact keepsBut_step keeps_State_finishJob (by decide) (by assumption)
        · assumption
      · refine keepsBut_ite ?_ ?_
        · exact keepsBut_step keeps_State_rejectJob (by decide) (by assumption)
        · split
          · refine keeps_State_onAccept (by decide) ?_ ?_
            · intro u hu
              try beta_reduce
              extract_lets +onlyGivenNames x0
              try clear_value x0
              extract_lets +onlyGivenNames x1
              have hx1 : State.keepsBut s [.way, .host, .limits, .cch, .regs, .out, .upd, .txn, .sec, .ctx] x1 := by
                unfold x1
                refine keepsBut_step keeps_State_bump (by decide) ?_
                exact keepsBut_step keeps_State_setCamp (by decide) (by assumption)
              try clear_value x1
              refine keepsBut_step keeps_State_postCamp (by decide) ?_
              exact keepsBut_step keeps_with_upd (by decide) (by assumption)
            · assumption
          · exact keepsBut_step keeps_State_rejectJob (by decide) (by assumption)

theorem keeps_State_copyOne {s : State} {i : ℕ} :
    s.keepsBut [.boot, .nor] (s.copyOne i) := by
  have h0 : State.keepsBut s [.boot, .nor] s := keepsBut_refl _ _
  unfold State.copyOne
  extract_lets +onlyGivenNames x0
  try clear_value x0
  extract_lets +onlyGivenNames x1
  have hx1 : State.keepsBut s [.boot, .nor] x1 := by
    unfold x1
    refine keepsBut_ite ?_ ?_
    · assumption
    · exact keepsBut_step keeps_with_nor (by decide) (by assumption)
  try clear_value x1
  extract_lets +onlyGivenNames x2
  try clear_value x2
  extract_lets +onlyGivenNames x3
  have hx3 : State.keepsBut s [.boot, .nor] x3 := by
    unfold x3
    exact keepsBut_step keeps_with_boot (by decide) (by assumption)
  try clear_value x3
  exact keepsBut_step keeps_State_writeUpd (by decide) (by assumption)

theorem keeps_State_copySteps {fails : List ℕ} {a1 : List ℕ} {a2 : State} :
    a2.keepsBut [.regs, .boot, .nor] (State.copySteps fails a1 a2).1 := by
  induction a1 generalizing a2 with
  | nil => exact keepsBut_refl _ _
  | cons i rest ih =>
    rw [State.copySteps]
    split
    · exact keepsBut_step ih (by decide) (keeps_State_copyOne.weaken (by decide))
    · dsimp only
      refine keepsBut_iteFst ?_ ?_
      · dsimp only
        refine keepsBut_step keeps_with_nor (by decide) ?_
        refine keepsBut_ite ?_ (keepsBut_refl _ _)
        exact keeps_State_bump.weaken (by decide)
      · refine keepsBut_step ih (by decide) (keepsBut_step keeps_State_copyOne (by decide) ?_)
        refine keepsBut_ite ?_ (keepsBut_refl _ _)
        exact keeps_State_bump.weaken (by decide)

theorem keeps_State_copyAll {fails : List ℕ} {s : State} :
    s.keepsBut [.regs, .boot, .nor] (State.copyAll fails s).1 := by
  have h0 : State.keepsBut s [.regs, .boot, .nor] s := keepsBut_refl _ _
  unfold State.copyAll
  exact keepsBut_step keeps_State_copySteps (by decide) (by assumption)

theorem keeps_State_purgeWays {s : State} {ks : List ℕ} :
    s.keepsBut [.ing] (s.purgeWays ks) := by
  have h0 : State.keepsBut s [.ing] s := keepsBut_refl _ _
  unfold State.purgeWays
  exact keepsBut_step keeps_with_ing (by decide) (by assumption)

theorem keeps_State_pushLane {s : State} {l : ℕ} {i : Option ℕ} {t : Ticketed} :
    s.keepsBut [.ing] (s.pushLane l i t) := by
  have h0 : State.keepsBut s [.ing] s := keepsBut_refl _ _
  unfold State.pushLane
  exact keepsBut_step keeps_with_ing (by decide) (by assumption)

theorem keeps_State_syncRequest {s : State} {gmn : Gmn} {reason : ℕ} :
    s.keepsBut [.way, .host, .limits, .regs, .out, .hwl] (s.syncRequest gmn reason) := by
  have h0 : State.keepsBut s [.way, .host, .limits, .regs, .out, .hwl] s := keepsBut_refl _ _
  unfold State.syncRequest
  refine keepsBut_ite ?_ ?_
  · assumption
  · refine keepsBut_step keeps_State_hwlSend (by decide) ?_
    exact keepsBut_step keeps_with_hwl (by decide) (by assumption)

theorem keeps_State_compareVerdict {s : State} {l : ℕ} {v : ValItem} {r : Record} :
    s.keepsBut [.way, .host, .limits, .regs, .out, .hwl] (s.compareVerdict l v r) := by
  have h0 : State.keepsBut s [.way, .host, .limits, .regs, .out, .hwl] s := keepsBut_refl _ _
  unfold State.compareVerdict
  split
  · assumption
  · refine keepsBut_ite ?_ ?_
    · assumption
    · extract_lets +onlyGivenNames x0
      try clear_value x0
      refine keepsBut_ite ?_ ?_
      · refine keepsBut_step keeps_State_syncRequest (by decide) ?_
        refine keepsBut_step keeps_State_note (by decide) ?_
        exact keepsBut_step keeps_State_raiseInt (by decide) (by assumption)
      · exact keepsBut_step keeps_State_note (by decide) (by assumption)

theorem keeps_State_countReject {s : State} {l : ℕ} {r : Record} :
    s.keepsBut [.way, .host, .limits, .regs, .out, .val] (s.countReject l r) := by
  have h0 : State.keepsBut s [.way, .host, .limits, .regs, .out, .val] s := keepsBut_refl _ _
  unfold State.countReject
  extract_lets +onlyGivenNames x0
  try clear_value x0
  extract_lets +onlyGivenNames x1
  try clear_value x1
  extract_lets +onlyGivenNames x2
  have hx2 : State.keepsBut s [.way, .host, .limits, .regs, .out, .val] x2 := by
    unfold x2
    refine keepsBut_step keeps_State_bump (by decide) ?_
    exact keepsBut_step keeps_with_val (by decide) (by assumption)
  try clear_value x2
  extract_lets +onlyGivenNames x3
  have hx3 : State.keepsBut s [.way, .host, .limits, .regs, .out, .val] x3 := by
    unfold x3
    exact keepsBut_step keeps_State_raiseInt (by decide) (by assumption)
  try clear_value x3
  extract_lets +onlyGivenNames x4
  have hx4 : State.keepsBut s [.way, .host, .limits, .regs, .out, .val] x4 := by
    unfold x4
    refine keepsBut_ite ?_ ?_
    · exact keepsBut_step keeps_State_raiseInt (by decide) (by assumption)
    · assumption
  try clear_value x4
  exact keepsBut_step keeps_State_noteMeter (by decide) (by assumption)

theorem keeps_State_countVerdict {s : State} {l : ℕ} {r : Record} :
    s.keepsBut [.way, .host, .limits, .regs, .out, .val] (s.countVerdict l r) := by
  have h0 : State.keepsBut s [.way, .host, .limits, .regs, .out, .val] s := keepsBut_refl _ _
  unfold State.countVerdict
  split
  · exact keepsBut_step keeps_State_bump (by decide) (by assumption)
  · refine keepsBut_foldl ?_ ?_
    · intro u a hu
      try beta_reduce
      · exact keepsBut_step keeps_State_bump (by decide) (by assumption)
    · exact keepsBut_step keeps_State_bump (by decide) (by assumption)
  · exact keepsBut_step keeps_State_countReject (by decide) (by assumption)
  · exact keepsBut_step keeps_State_bump (by decide) (by assumption)

theorem keeps_State_compareEstimate {s : State} {v : ValItem} {e : Option Record} :
    s.keepsBut [.way, .host, .limits, .regs, .out, .hwl] (s.compareEstimate v e) := by
  have h0 : State.keepsBut s [.way, .host, .limits, .regs, .out, .hwl] s := keepsBut_refl _ _
  unfold State.compareEstimate
  refine keepsBut_ite ?_ ?_
  · assumption
  · extract_lets +onlyGivenNames x0
    try clear_value x0
    extract_lets +onlyGivenNames x1
    try clear_value x1
    extract_lets +onlyGivenNames x2
    have hx2 : State.keepsBut s [.way, .host, .limits, .regs, .out, .hwl] x2 := by
      unfold x2
      exact keepsBut_step keeps_with_hwl (by decide) (by assumption)
    try clear_value x2
    refine keepsBut_ite ?_ ?_
    · assumption
    · refine keepsBut_step keeps_State_syncRequest (by decide) ?_
      exact keepsBut_step keeps_State_bump (by decide) (by assumption)

theorem keeps_State_holdJudged {s : State} {l : ℕ} {v : ValItem} {j : Judgement} :
    s.keepsBut [.way, .host, .limits, .regs, .out, .val, .hwl] (s.holdJudged l v j) := by
  have h0 : State.keepsBut s [.way, .host, .limits, .regs, .out, .val, .hwl] s := keepsBut_refl _ _
  unfold State.holdJudged
  extract_lets +onlyGivenNames x0
  try clear_value x0
  extract_lets +onlyGivenNames x1
  try clear_value x1
  extract_lets +onlyGivenNames x2
  have hx2 : State.keepsBut s [.way, .host, .limits, .regs, .out, .val, .hwl] x2 := by
    unfold x2
    exact keepsBut_step keeps_with_val (by decide) (by assumption)
  try clear_value x2
  extract_lets +onlyGivenNames x3
  have hx3 : State.keepsBut s [.way, .host, .limits, .regs, .out, .val, .hwl] x3 := by
    unfold x3
    exact keepsBut_step keeps_State_countVerdict (by decide) (by assumption)
  try clear_value x3
  extract_lets +onlyGivenNames x4
  have hx4 : State.keepsBut s [.way, .host, .limits, .regs, .out, .val, .hwl] x4 := by
    unfold x4
    refine keepsBut_ite ?_ ?_
    · exact keepsBut_step keeps_State_bump (by decide) (by assumption)
    · assumption
  try clear_value x4
  extract_lets +onlyGivenNames x5
  have hx5 : State.keepsBut s [.way, .host, .limits, .regs, .out, .val, .hwl] x5 := by
    unfold x5
    refine keepsBut_ite ?_ ?_
    · exact keepsBut_step keeps_State_bump (by decide) (by assumption)
    · assumption
  try clear_value x5
  refine keepsBut_step keeps_State_compareEstimate (by decide) ?_
  exact keepsBut_step keeps_State_compareVerdict (by decide) (by assumption)

theorem keeps_State_nextInChain {s : State} {d : ℕ} {a2 : ℕ} :
    s.keepsBut [.way, .host, .limits, .regs, .out] (s.nextInChain d a2).1 := by
  induction a2 generalizing s d with
  | zero => exact keepsBut_refl _ _
  | succ n ih =>
    rw [State.nextInChain]
    split
    · exact keepsBut_refl _ _
    · split
      · exact keepsBut_refl _ _
      · exact keepsBut_step ih (by decide) (keeps_State_note.weaken (by decide))

theorem keeps_State_setRelay {s : State} {c : Option Chain} :
    s.keepsBut [.hwl] (s.setRelay c) := by
  have h0 : State.keepsBut s [.hwl] s := keepsBut_refl _ _
  unfold State.setRelay
  exact keepsBut_step keeps_State_modHwl (by decide) (by assumption)

theorem keeps_State_chainPump {s : State} {a1 : ℕ} :
    s.keepsBut [.way, .host, .limits, .regs, .out, .hwl] (s.chainPump a1) := by
  induction a1 generalizing s with
  | zero => exact keepsBut_refl _ _
  | succ n ih =>
    rw [State.chainPump]
    split
    · exact keepsBut_refl _ _
    · split
      · exact keepsBut_refl _ _
      · split
        · exact keepsBut_refl _ _
        · dsimp only
          refine keepsBut_step ih (by decide) ?_
          refine keepsBut_step keeps_State_hwlSend (by decide) ?_
          exact keeps_State_setRelay.weaken (by decide)

theorem keeps_State_chainDone {s : State} {c : Chain} :
    s.keepsBut [.host, .regs, .out, .hwl] (s.chainDone c) := by
  have h0 : State.keepsBut s [.host, .regs, .out, .hwl] s := keepsBut_refl _ _
  unfold State.chainDone
  extract_lets +onlyGivenNames x0
  have hx0 : State.keepsBut s [.host, .regs, .out, .hwl] x0 := by
    unfold x0
    refine keepsBut_step keeps_State_raiseInt (by decide) ?_
    exact keepsBut_step keeps_State_setRelay (by decide) (by assumption)
  try clear_value x0
  split
  · assumption
  · exact keepsBut_step keeps_State_finishJob (by decide) (by assumption)

theorem keeps_State_chainRelay {s : State} {d : ℕ} :
    s.keepsBut [.way, .host, .limits, .regs, .out, .hwl] (s.chainRelay d) := by
  have h0 : State.keepsBut s [.way, .host, .limits, .regs, .out, .hwl] s := keepsBut_refl _ _
  unfold State.chainRelay
  split
  · assumption
  · extract_lets +onlyGivenNames x0
    have hx0 : State.keepsBut s [.way, .host, .limits, .regs, .out, .hwl] x0.1 := by
      unfold x0
      exact keepsBut_step keeps_State_nextInChain (by decide) (by assumption)
    try clear_value x0
    split
    · refine keepsBut_ite ?_ ?_
      · exact keepsBut_step keeps_State_chainDone (by decide) (by assumption)
      · exact keepsBut_step keeps_State_setRelay (by decide) (by assumption)
    · refine keepsBut_step keeps_State_chainPump (by decide) ?_
      exact keepsBut_step keeps_State_setRelay (by decide) (by assumption)

theorem keeps_State_chainVerified {s : State} {result : ℕ} :
    s.keepsBut [.way, .host, .limits, .regs, .out, .hwl] (s.chainVerified result) := by
  have h0 : State.keepsBut s [.way, .host, .limits, .regs, .out, .hwl] s := keepsBut_refl _ _
  unfold State.chainVerified
  split
  · assumption
  · extract_lets +onlyGivenNames x0
    try clear_value x0
    extract_lets +onlyGivenNames x1
    have hx1 : State.keepsBut s [.way, .host, .limits, .regs, .out, .hwl] x1 := by
      unfold x1
      refine keepsBut_foldl ?_ ?_
      · intro u a hu
        try beta_reduce
        · exact keepsBut_step keeps_State_hwlSend (by decide) (by assumption)
      · assumption
    try clear_value x1
    extract_lets +onlyGivenNames x2
    have hx2 : State.keepsBut s [.way, .host, .limits, .regs, .out, .hwl] x2 := by
      unfold x2
      exact keepsBut_step keeps_State_setRelay (by decide) (by assumption)
    try clear_value x2
    refine keepsBut_ite ?_ ?_
    · refine keepsBut_ite ?_ ?_
      · exact keepsBut_step keeps_State_chainDone (by decide) (by assumption)
      · exact keepsBut_step keeps_State_chainRelay (by decide) (by assumption)
    · refine keepsBut_ite ?_ ?_
      · exact keepsBut_step keeps_State_chainRelay (by decide) (by assumption)
      · exact keepsBut_step keeps_State_setRelay (by decide) (by assumption)

theorem keeps_State_headChain {s : State} {d : Delivery} {bytes : List Byte} {result : ℕ} {j : JobRef} :
    s.keepsBut [.way, .host, .limits, .regs, .out, .hwl] (s.headChain d bytes result j) := by
  have h0 : State.keepsBut s [.way, .host, .limits, .regs, .out, .hwl] s := keepsBut_refl _ _
  unfold State.headChain
  refine keepsBut_step keeps_State_chainVerified (by decide) ?_
  exact keepsBut_step keeps_State_setRelay (by decide) (by assumption)

theorem keeps_State_stageMeter {s : State} {slot : ℕ} {b : UpdateBundle} {fails : Bool} :
    s.keepsBut [.way, .ful, .host, .limits, .regs, .out, .upd] (s.stageMeter slot b fails).1 := by
  have h0 : State.keepsBut s [.way, .ful, .host, .limits, .regs, .out, .upd] s := keepsBut_refl _ _
  unfold State.stageMeter
  refine keepsBut_iteFst ?_ ?_
  · dsimp only
    exact keepsBut_step keeps_State_bundleRefused (by decide) (by assumption)
  · split
    · extract_lets +onlyGivenNames x0
      try clear_value x0
      extract_lets +onlyGivenNames x1
      have hx1 : State.keepsBut s [.way, .ful, .host, .limits, .regs, .out, .upd] x1 := by
        unfold x1
        refine keepsBut_step keeps_State_toFuller (by decide) ?_
        exact keepsBut_step keeps_with_upd (by decide) (by assumption)
      try clear_value x1
      extract_lets +onlyGivenNames x2
      have hx2 : State.keepsBut s [.way, .ful, .host, .limits, .regs, .out, .upd] x2 := by
        unfold x2
        refine keepsBut_step keeps_State_bump (by decide) ?_
        exact keepsBut_step keeps_State_bump (by decide) (by assumption)
      try clear_value x2
      dsimp only
      refine keepsBut_step keeps_State_raiseInt (by decide) ?_
      exact keepsBut_step keeps_State_event (by decide) (by assumption)
    · dsimp only
      exact keepsBut_step keeps_State_bundleRefused (by decide) (by assumption)

theorem keeps_State_stageBundle {s : State} {dest : ℕ} {bytes : List Byte} {fails : Bool} :
    s.keepsBut [.way, .ful, .host, .limits, .regs, .out, .upd, .nor] (s.stageBundle dest bytes fails).1 := by
  have h0 : State.keepsBut s [.way, .ful, .host, .limits, .regs, .out, .upd, .nor] s := keepsBut_refl _ _
  unfold State.stageBundle
  extract_lets +onlyGivenNames x0
  try clear_value x0
  extract_lets +onlyGivenNames x1
  try clear_value x1
  refine keepsBut_iteFst ?_ ?_
  · dsimp only
    exact keepsBut_step keeps_State_bump (by decide) (by assumption)
  · refine keepsBut_iteFst ?_ ?_
    · dsimp only
      exact keepsBut_step keeps_State_bundleRefused (by decide) (by assumption)
    · refine keepsBut_iteFst ?_ ?_
      · dsimp only
        exact keepsBut_step keeps_State_bundleRefused (by decide) (by assumption)
      · refine keepsBut_iteFst ?_ ?_
        · exact keepsBut_step keeps_State_stageDevice (by decide) (by assumption)
        · exact keepsBut_step keeps_State_stageMeter (by decide) (by assumption)

theorem keeps_State_takeBlock {s : State} {j : Job} {d : Delivery} {block : List Byte} {fails : Bool} :
    s.keepsBut [.way, .ful, .host, .limits, .regs, .out, .upd, .nor, .hwl] (s.takeBlock j d block fails) := by
  have h0 : State.keepsBut s [.way, .ful, .host, .limits, .regs, .out, .upd, .nor, .hwl] s := keepsBut_refl _ _
  unfold State.takeBlock
  extract_lets +onlyGivenNames x0
  have hx0 : State.keepsBut s [.way, .ful, .host, .limits, .regs, .out, .upd, .nor, .hwl] x0 := by
    unfold x0
    exact keepsBut_step keeps_State_bump (by decide) (by assumption)
  try clear_value x0
  extract_lets +onlyGivenNames x1
  try clear_value x1
  refine keepsBut_ite ?_ ?_
  · refine keepsBut_step keeps_State_finishJob (by decide) ?_
    exact keepsBut_step keeps_State_setDelivery (by decide) (by assumption)
  · extract_lets +onlyGivenNames x2
    have hx2 : State.keepsBut s [.way, .ful, .host, .limits, .regs, .out, .upd, .nor, .hwl] x2.1 := by
      unfold x2
      refine keepsBut_step keeps_State_stageBundle (by decide) ?_
      exact keepsBut_step keeps_State_setDelivery (by decide) (by assumption)
    try clear_value x2
    refine keepsBut_ite ?_ ?_
    · exact keepsBut_step keeps_State_headChain (by decide) (by assumption)
    · exact keepsBut_step keeps_State_finishJob (by decide) (by assumption)

theorem keeps_State_setSignature {s : State} {i : ℕ} {p : ℕ} {v : Signature} :
    s.keepsBut [.bal] (s.setSignature i p v) := by
  have h0 : State.keepsBut s [.bal] s := keepsBut_refl _ _
  unfold State.setSignature
  extract_lets +onlyGivenNames x0
  try clear_value x0
  exact keepsBut_step keeps_with_bal (by decide) (by assumption)

theorem keeps_State_confirmStep {s : State} {i : ℕ} {p : ℕ} {v : Signature} {rx : ℕ} :
    s.keepsBut [.way, .ful, .host, .limits, .bal, .regs, .out, .ctx] (s.confirmStep i p v rx) := by
  have h0 : State.keepsBut s [.way, .ful, .host, .limits, .bal, .regs, .out, .ctx] s := keepsBut_refl _ _
  unfold State.confirmStep
  extract_lets +onlyGivenNames x0
  have hx0 : State.keepsBut s [.way, .ful, .host, .limits, .bal, .regs, .out, .ctx] x0 := by
    unfold x0
    exact keepsBut_step keeps_State_setSignature (by decide) (by assumption)
  try clear_value x0
  extract_lets +onlyGivenNames x1
  try clear_value x1
  refine keepsBut_step keeps_State_rescore (by decide) ?_
  exact keepsBut_step keeps_State_modBal (by decide) (by assumption)

theorem keeps_State_startPorts {s : State} :
    s.keepsBut [.eth] (s.startPorts) := by
  have h0 : State.keepsBut s [.eth] s := keepsBut_refl _ _
  unfold State.startPorts
  extract_lets +onlyGivenNames x0
  have hx0 : State.keepsBut s [.eth] x0 := by
    unfold x0
    refine keepsBut_step keeps_State_modEthPort (by decide) ?_
    exact keepsBut_step keeps_State_modEthPort (by decide) (by assumption)
  try clear_value x0
  extract_lets +onlyGivenNames x1
  have hx1 : State.keepsBut s [.eth] x1 := by
    unfold x1
    exact keepsBut_step keeps_State_restartGates (by decide) (by assumption)
  try clear_value x1
  refine keepsBut_step keeps_State_applyGates (by decide) ?_
  exact keepsBut_step keeps_State_applyGates (by decide) (by assumption)

theorem keeps_State_journalContext {s : State} {i : ℕ} {g : Gmn} :
    s.keepsBut [.ful] (s.journalContext i g) := by
  have h0 : State.keepsBut s [.ful] s := keepsBut_refl _ _
  unfold State.journalContext
  extract_lets +onlyGivenNames x0
  try clear_value x0
  exact keepsBut_step keeps_State_toFuller (by decide) (by assumption)

theorem keeps_State_applyFreeze {s : State} {i : ℕ} {frozen : Bool} :
    s.keepsBut [.ful, .ctx] (s.applyFreeze i frozen) := by
  have h0 : State.keepsBut s [.ful, .ctx] s := keepsBut_refl _ _
  unfold State.applyFreeze
  extract_lets +onlyGivenNames x0
  try clear_value x0
  extract_lets +onlyGivenNames x1
  try clear_value x1
  refine keepsBut_step keeps_State_journalContext (by decide) ?_
  exact keepsBut_step keeps_State_setCtx (by decide) (by assumption)

theorem keeps_State_judgeHeat {s : State} :
    s.keepsBut [.regs, .out, .pwr] (s.judgeHeat) := by
  have h0 : State.keepsBut s [.regs, .out, .pwr] s := keepsBut_refl _ _
  unfold State.judgeHeat
  extract_lets +onlyGivenNames x0
  try clear_value x0
  extract_lets +onlyGivenNames x1
  try clear_value x1
  extract_lets +onlyGivenNames x2
  try clear_value x2
  extract_lets +onlyGivenNames x3
  try clear_value x3
  extract_lets +onlyGivenNames x4
  try clear_value x4
  extract_lets +onlyGivenNames x5
  try clear_value x5
  extract_lets +onlyGivenNames x6
  try clear_value x6
  extract_lets +onlyGivenNames x7
  try clear_value x7
  extract_lets +onlyGivenNames x8
  have hx8 : State.keepsBut s [.regs, .out, .pwr] x8 := by
    unfold x8
    refine keepsBut_ite ?_ ?_
    · exact keepsBut_step keeps_State_raiseInt (by decide) (by assumption)
    · assumption
  try clear_value x8
  exact keepsBut_step keeps_State_modPwr (by decide) (by assumption)

theorem keeps_State_policy {s : State} {g : ℕ} {i : ℕ} {time : ℕ} :
    s.keepsBut [.way, .ful, .host, .limits, .cch, .bal, .regs, .out, .txn, .bil, .hwl, .ctx] (s.policy g i time) := by
  have h0 : State.keepsBut s [.way, .ful, .host, .limits, .cch, .bal, .regs, .out, .txn, .bil, .hwl, .ctx] s := keepsBut_refl _ _
  unfold State.policy
  extract_lets +onlyGivenNames x0
  try clear_value x0
  extract_lets +onlyGivenNames x1
  try clear_value x1
  extract_lets +onlyGivenNames x2
  try clear_value x2
  refine keepsBut_ite ?_ ?_
  · assumption
  · extract_lets +onlyGivenNames x3
    have hx3 : State.keepsBut s [.way, .ful, .host, .limits, .cch, .bal, .regs, .out, .txn, .bil, .hwl, .ctx] x3 := by
      unfold x3
      refine keepsBut_ite ?_ ?_
      · exact keepsBut_step keeps_State_takeAction (by decide) (by assumption)
      · assumption
    try clear_value x3
    refine keepsBut_ite ?_ ?_
    · exact keepsBut_step keeps_State_takeAction (by decide) (by assumption)
    · assumption

theorem keeps_State_resultOut {s : State} {ms : List MemberPart} {r : GroupResult} :
    s.keepsBut [.way, .ful, .host, .limits, .regs, .out] (s.resultOut ms r) := by
  have h0 : State.keepsBut s [.way, .ful, .host, .limits, .regs, .out] s := keepsBut_refl _ _
  unfold State.resultOut
  extract_lets +onlyGivenNames x0
  try clear_value x0
  extract_lets +onlyGivenNames x1
  try clear_value x1
  refine keepsBut_step keeps_State_reportOut (by decide) ?_
  exact keepsBut_step keeps_State_balToFuller (by decide) (by assumption)

theorem keeps_State_addSeries {s : State} {i : ℕ} {e : Option (ℤ × ℤ)} :
    s.keepsBut [.bal, .regs, .ctx] (s.addSeries i e) := by
  have h0 : State.keepsBut s [.bal, .regs, .ctx] s := keepsBut_refl _ _
  unfold State.addSeries
  extract_lets +onlyGivenNames x0
  try clear_value x0
  extract_lets +onlyGivenNames x1
  try clear_value x1
  extract_lets +onlyGivenNames x2
  have hx2 : State.keepsBut s [.bal, .regs, .ctx] x2 := by
    unfold x2
    exact keepsBut_step keeps_with_bal (by decide) (by assumption)
  try clear_value x2
  extract_lets +onlyGivenNames x3
  try clear_value x3
  refine keepsBut_ite ?_ ?_
  · assumption
  · extract_lets +onlyGivenNames x4
    try clear_value x4
    refine keepsBut_ite ?_ ?_
    · exact keepsBut_step keeps_State_modBal (by decide) (by assumption)
    · extract_lets +onlyGivenNames x5
      try clear_value x5
      extract_lets +onlyGivenNames x6
      try clear_value x6
      extract_lets +onlyGivenNames x7
      have hx7 : State.keepsBut s [.bal, .regs, .ctx] x7 := by
        unfold x7
        exact keepsBut_step keeps_State_modBal (by decide) (by assumption)
      try clear_value x7
      exact keepsBut_step keeps_State_bump (by decide) (by assumption)

theorem keeps_State_enterSeries {s : State} {g : ℕ} {ms : List MemberPart} {r : GroupResult} :
    s.keepsBut [.bal, .regs, .ctx] (s.enterSeries g ms r) := by
  have h0 : State.keepsBut s [.bal, .regs, .ctx] s := keepsBut_refl _ _
  unfold State.enterSeries
  refine keepsBut_ite ?_ ?_
  · assumption
  · extract_lets +onlyGivenNames x0
    try clear_value x0
    extract_lets +onlyGivenNames x1
    try clear_value x1
    extract_lets +onlyGivenNames x2
    try clear_value x2
    extract_lets +onlyGivenNames x3
    have hx3 : State.keepsBut s [.bal, .regs, .ctx] x3 := by
      unfold x3
      exact keepsBut_step keeps_State_setBalGroup (by decide) (by assumption)
    try clear_value x3
    refine keepsBut_foldl ?_ ?_
    · intro u a hu
      try beta_reduce
      · exact keepsBut_step keeps_State_addSeries (by decide) (by assumption)
    · assumption

theorem keeps_State_enterEarth {s : State} {g : ℕ} {r : GroupResult} :
    s.keepsBut [.bal] (s.enterEarth g r) := by
  have h0 : State.keepsBut s [.bal] s := keepsBut_refl _ _
  unfold State.enterEarth
  refine keepsBut_ite ?_ ?_
  · assumption
  · extract_lets +onlyGivenNames x0
    try clear_value x0
    exact keepsBut_step keeps_State_setBalGroup (by decide) (by assumption)

theorem keeps_State_attribute {s : State} {g : ℕ} {i : ℕ} :
    s.keepsBut [.bal, .ctx] (s.attribute g i) := by
  have h0 : State.keepsBut s [.bal, .ctx] s := keepsBut_refl _ _
  unfold State.attribute
  extract_lets +onlyGivenNames x0
  try clear_value x0
  extract_lets +onlyGivenNames x1
  try clear_value x1
  extract_lets +onlyGivenNames x2
  try clear_value x2
  extract_lets +onlyGivenNames x3
  try clear_value x3
  split
  · extract_lets +onlyGivenNames x4
    try clear_value x4
    extract_lets +onlyGivenNames x5
    try clear_value x5
    extract_lets +onlyGivenNames x6
    try clear_value x6
    refine keepsBut_step keeps_State_modBal (by decide) ?_
    exact keepsBut_step keeps_with_bal (by decide) (by assumption)

theorem keeps_State_finishResults {s : State} {g : ℕ} {snap : Bool} {ms : List MemberPart} {rs : List GroupResult} {time : ℕ} :
    s.keepsBut [.way, .ful, .host, .limits, .cch, .bal, .regs, .out, .txn, .bil, .hwl, .ctx] (s.finishResults g snap ms rs time) := by
  have h0 : State.keepsBut s [.way, .ful, .host, .limits, .cch, .bal, .regs, .out, .txn, .bil, .hwl, .ctx] s := keepsBut_refl _ _
  unfold State.finishResults
  extract_lets +onlyGivenNames x0
  try clear_value x0
  extract_lets +onlyGivenNames x1
  have hx1 : State.keepsBut s [.way, .ful, .host, .limits, .cch, .bal, .regs, .out, .txn, .bil, .hwl, .ctx] x1 := by
    unfold x1
    refine keepsBut_foldl ?_ ?_
    · intro u a hu
      try beta_reduce
      · exact keepsBut_step keeps_State_enterEarth (by decide) (by assumption)
    · assumption
  try clear_value x1
  extract_lets +onlyGivenNames x2
  have hx2 : State.keepsBut s [.way, .ful, .host, .limits, .cch, .bal, .regs, .out, .txn, .bil, .hwl, .ctx] x2 := by
    unfold x2
    refine keepsBut_ite ?_ ?_
    · refine keepsBut_foldl ?_ ?_
      · intro u a hu
        try beta_reduce
        · exact keepsBut_step keeps_State_enterSeries (by decide) (by assumption)
      · assumption
    · assumption
  try clear_value x2
  extract_lets +onlyGivenNames x3
  have hx3 : State.keepsBut s [.way, .ful, .host, .limits, .cch, .bal, .regs, .out, .txn, .bil, .hwl, .ctx] x3 := by
    unfold x3
    refine keepsBut_ite ?_ ?_
    · refine keepsBut_foldl ?_ ?_
      · intro u a hu
        try beta_reduce
        · exact keepsBut_step keeps_State_attribute (by decide) (by assumption)
      · assumption
    · assumption
  try clear_value x3
  extract_lets +onlyGivenNames x4
  have hx4 : State.keepsBut s [.way, .ful, .host, .limits, .cch, .bal, .regs, .out, .txn, .bil, .hwl, .ctx] x4 := by
    unfold x4
    refine keepsBut_foldl ?_ ?_
    · intro u a hu
      try beta_reduce
      · exact keepsBut_step keeps_State_resultOut (by decide) (by assumption)
    · assumption
  try clear_value x4
  refine keepsBut_foldl ?_ ?_
  · intro u a hu
    try beta_reduce
    · refine keepsBut_step keeps_State_policy (by decide) ?_
      exact keepsBut_step keeps_State_rescore (by decide) (by assumption)
  · assumption

theorem keeps_State_intervalResult {s : State} {g : ℕ} {k : ℤ} :
    s.keepsBut [.way, .ful, .host, .limits, .cch, .bal, .regs, .out, .txn, .bil, .hwl, .ctx] (s.intervalResult g k) := by
  have h0 : State.keepsBut s [.way, .ful, .host, .limits, .cch, .bal, .regs, .out, .txn, .bil, .hwl, .ctx] s := keepsBut_refl _ _
  unfold State.intervalResult
  extract_lets +onlyGivenNames x0
  try clear_value x0
  extract_lets +onlyGivenNames x1
  try clear_value x1
  extract_lets +onlyGivenNames x2
  try clear_value x2
  extract_lets +onlyGivenNames x3
  try clear_value x3
  extract_lets +onlyGivenNames x4
  try clear_value x4
  extract_lets +onlyGivenNames x5
  try clear_value x5
  extract_lets +onlyGivenNames x6
  have hx6 : State.keepsBut s [.way, .ful, .host, .limits, .cch, .bal, .regs, .out, .txn, .bil, .hwl, .ctx] x6 := by
    unfold x6
    exact keepsBut_step keeps_State_setBalGroup (by decide) (by assumption)
  try clear_value x6
  extract_lets +onlyGivenNames x7
  have hx7 : State.keepsBut s [.way, .ful, .host, .limits, .cch, .bal, .regs, .out, .txn, .bil, .hwl, .ctx] x7 := by
    unfold x7
    exact keepsBut_step keeps_State_bumpBy (by decide) (by assumption)
  try clear_value x7
  extract_lets +onlyGivenNames x8
  have hx8 : State.keepsBut s [.way, .ful, .host, .limits, .cch, .bal, .regs, .out, .txn, .bil, .hwl, .ctx] x8 := by
    unfold x8
    refine keepsBut_ite ?_ ?_
    · refine keepsBut_step keeps_State_raiseInt (by decide) ?_
      exact keepsBut_step keeps_State_bump (by decide) (by assumption)
    · assumption
  try clear_value x8
  refine keepsBut_step keeps_State_pruneGroup (by decide) ?_
  exact keepsBut_step keeps_State_finishResults (by decide) (by assumption)

theorem keeps_State_nextBlock {s : State} {t : ℕ} {v : Tag} {r : Request} :
    s.keepsBut [.way, .host, .limits, .cch, .regs, .out, .txn, .ctx] (s.nextBlock t v r) := by
  have h0 : State.keepsBut s [.way, .host, .limits, .cch, .regs, .out, .txn, .ctx] s := keepsBut_refl _ _
  unfold State.nextBlock
  extract_lets +onlyGivenNames x0
  have hx0 : State.keepsBut s [.way, .host, .limits, .cch, .regs, .out, .txn, .ctx] x0 := by
    unfold x0
    exact keepsBut_step keeps_State_setTag (by decide) (by assumption)
  try clear_value x0
  refine keepsBut_step keeps_State_topUpIssues (by decide) ?_
  exact keepsBut_step keeps_State_pushRequest (by decide) (by assumption)

theorem keeps_State_releaseOwner {s : State} :
    s.keepsBut [.way, .host, .regs, .out, .hwl] (s.releaseOwner) := by
  have h0 : State.keepsBut s [.way, .host, .regs, .out, .hwl] s := keepsBut_refl _ _
  unfold State.releaseOwner
  extract_lets +onlyGivenNames x0
  have hx0 : State.keepsBut s [.way, .host, .regs, .out, .hwl] x0 := by
    unfold x0
    exact keepsBut_step keeps_State_modHwl (by decide) (by assumption)
  try clear_value x0
  refine keepsBut_ite ?_ ?_
  · assumption
  · refine keepsBut_step keeps_State_raiseInt (by decide) ?_
    refine keepsBut_step keeps_State_event (by decide) ?_
    exact keepsBut_step keeps_State_modHwl (by decide) (by assumption)

theorem keeps_State_sendLeave {s : State} {why : ℕ} :
    s.keepsBut [.way, .host, .limits, .regs, .out, .hwl] (s.sendLeave why) := by
  have h0 : State.keepsBut s [.way, .host, .limits, .regs, .out, .hwl] s := keepsBut_refl _ _
  unfold State.sendLeave
  refine keepsBut_ite ?_ ?_
  · exact keepsBut_step keeps_State_hwlSend (by decide) (by assumption)
  · assumption

theorem keeps_State_stopFuller {s : State} :
    s.keepsBut [.ful] (s.stopFuller) := by
  have h0 : State.keepsBut s [.ful] s := keepsBut_refl _ _
  unfold State.stopFuller
  exact keepsBut_step keeps_with_ful (by decide) (by assumption)

theorem keeps_State_beginHold {s : State} {cls : ResetClass} {escalated : Bool} :
    s.keepsBut [.way, .ful, .host, .rst, .limits, .regs, .out, .hwl] (s.beginHold cls escalated) := by
  have h0 : State.keepsBut s [.way, .ful, .host, .rst, .limits, .regs, .out, .hwl] s := keepsBut_refl _ _
  unfold State.beginHold
  extract_lets +onlyGivenNames x0
  have hx0 : State.keepsBut s [.way, .ful, .host, .rst, .limits, .regs, .out, .hwl] x0 := by
    unfold x0
    refine keepsBut_step keeps_State_stopFuller (by decide) ?_
    refine keepsBut_step keeps_State_releaseOwner (by decide) ?_
    exact keepsBut_step keeps_State_sendLeave (by decide) (by assumption)
  try clear_value x0
  exact keepsBut_step keeps_with_rst (by decide) (by assumption)

theorem keeps_State_requestReset {s : State} {cls : ResetClass} :
    s.keepsBut [.way, .ful, .host, .rst, .limits, .regs, .out, .hwl] (s.requestReset cls) := by
  have h0 : State.keepsBut s [.way, .ful, .host, .rst, .limits, .regs, .out, .hwl] s := keepsBut_refl _ _
  unfold State.requestReset
  split
  · exact keepsBut_step keeps_with_rst (by decide) (by assumption)
  · assumption
  · split
    · exact keepsBut_step keeps_State_beginHold (by decide) (by assumption)
    · exact keepsBut_step keeps_with_rst (by decide) (by assumption)

theorem keeps_State_programDirty {s : State} {bad : List (ℕ × ℕ)} :
    s.keepsBut [.way, .ful, .host, .limits, .regs, .out] (s.programDirty bad) := by
  have h0 : State.keepsBut s [.way, .ful, .host, .limits, .regs, .out] s := keepsBut_refl _ _
  unfold State.programDirty
  extract_lets +onlyGivenNames x0
  try clear_value x0
  refine keepsBut_ite ?_ ?_
  · assumption
  · extract_lets +onlyGivenNames x1
    try clear_value x1
    extract_lets +onlyGivenNames x2
    have hx2 : State.keepsBut s [.way, .ful, .host, .limits, .regs, .out] x2 := by
      unfold x2
      exact keepsBut_step keeps_with_ful (by decide) (by assumption)
    try clear_value x2
    extract_lets +onlyGivenNames x3
    try clear_value x3
    extract_lets +onlyGivenNames x4
    have hx4 : State.keepsBut s [.way, .ful, .host, .limits, .regs, .out] x4 := by
      unfold x4
      exact keepsBut_step keeps_State_programPage (by decide) (by assumption)
    try clear_value x4
    refine keepsBut_foldl ?_ ?_
    · intro u a hu
      try beta_reduce
      · refine keepsBut_step keeps_State_note (by decide) ?_
        exact keepsBut_step keeps_State_raiseInt (by decide) (by assumption)
    · assumption

theorem keeps_State_programSectors {s : State} {a1 : ℕ} :
    s.keepsBut [.way, .ful, .host, .limits, .regs, .out] (s.programSectors a1) := by
  induction a1 generalizing s with
  | zero => exact keepsBut_refl _ _
  | succ n ih =>
    rw [State.programSectors]
    split
    · exact keepsBut_refl _ _
    · exact keepsBut_step ih (by decide) (keeps_State_programDirty.weaken (by decide))

end Sys2Proof.Machine
end

