-- ==== Sys2Proof/Laws/Keeps05.lean ====
section
/-!
SUPPORT. What each shared operation leaves of the state, one lemma an operation, an operation after those it is built from: from `flushFuller`
to `noMajority`.
-/

namespace Sys2Proof.Machine

theorem keeps_State_flushFuller {s : State} :
    s.keepsBut [.way, .ful, .host, .limits, .regs, .out] (s.flushFuller) := by
  have h0 : State.keepsBut s [.way, .ful, .host, .limits, .regs, .out] s := keepsBut_refl _ _
  unfold State.flushFuller
  refine keepsBut_ite ?_ ?_
  · assumption
  · extract_lets +onlyGivenNames x0
    have hx0 : State.keepsBut s [.way, .ful, .host, .limits, .regs, .out] x0 := by
      unfold x0
      exact keepsBut_step keeps_State_stopFuller (by decide) (by assumption)
    try clear_value x0
    refine keepsBut_step keeps_State_cleanClose (by decide) ?_
    exact keepsBut_step keeps_State_programSectors (by decide) (by assumption)

theorem keeps_State_snapshotResult {s : State} {x : Snapshot} {stamp : ℕ} :
    s.keepsBut [.way, .ful, .host, .limits, .cch, .bal, .regs, .out, .txn, .bil, .hwl, .ctx] (s.snapshotResult x stamp) := by
  have h0 : State.keepsBut s [.way, .ful, .host, .limits, .cch, .bal, .regs, .out, .txn, .bil, .hwl, .ctx] s := keepsBut_refl _ _
  unfold State.snapshotResult
  extract_lets +onlyGivenNames x0
  try clear_value x0
  extract_lets +onlyGivenNames x1
  try clear_value x1
  extract_lets +onlyGivenNames x2
  try clear_value x2
  extract_lets +onlyGivenNames x3
  try clear_value x3
  extract_lets +onlyGivenNames x4
  try clear_value x4
  extract_lets +onlyGivenNames x5
  try clear_value x5
  extract_lets +onlyGivenNames x6
  try clear_value x6
  extract_lets +onlyGivenNames x7
  have hx7 : State.keepsBut s [.way, .ful, .host, .limits, .cch, .bal, .regs, .out, .txn, .bil, .hwl, .ctx] x7 := by
    unfold x7
    refine keepsBut_step keeps_State_raiseInt (by decide) ?_
    refine keepsBut_step keeps_State_bumpBy (by decide) ?_
    exact keepsBut_step keeps_State_bumpBy (by decide) (by assumption)
  try clear_value x7
  extract_lets +onlyGivenNames x8
  have hx8 : State.keepsBut s [.way, .ful, .host, .limits, .cch, .bal, .regs, .out, .txn, .bil, .hwl, .ctx] x8 := by
    unfold x8
    exact keepsBut_step keeps_State_finishResults (by decide) (by assumption)
  try clear_value x8
  extract_lets +onlyGivenNames x9
  have hx9 : State.keepsBut s [.way, .ful, .host, .limits, .cch, .bal, .regs, .out, .txn, .bil, .hwl, .ctx] x9 := by
    unfold x9
    refine keepsBut_foldl ?_ ?_
    · intro u a hu
      try beta_reduce
      · exact keepsBut_step keeps_State_modBal (by decide) (by assumption)
    · assumption
  try clear_value x9
  extract_lets +onlyGivenNames x10
  try clear_value x10
  extract_lets +onlyGivenNames x11
  have hx11 : State.keepsBut s [.way, .ful, .host, .limits, .cch, .bal, .regs, .out, .txn, .bil, .hwl, .ctx] x11 := by
    unfold x11
    exact keepsBut_step keeps_State_setBalGroup (by decide) (by assumption)
  try clear_value x11
  refine keepsBut_step keeps_State_snapDone (by decide) ?_
  exact keepsBut_step keeps_State_pruneGroup (by decide) (by assumption)

theorem keeps_State_meshToll {s : State} {f : MeshFrame} :
    s.keepsBut [.regs, .out, .rfm] (s.meshToll f) := by
  have h0 : State.keepsBut s [.regs, .out, .rfm] s := keepsBut_refl _ _
  unfold State.meshToll
  extract_lets +onlyGivenNames x0
  try clear_value x0
  extract_lets +onlyGivenNames x1
  have hx1 : State.keepsBut s [.regs, .out, .rfm] x1 := by
    unfold x1
    exact keepsBut_step keeps_State_modRfm (by decide) (by assumption)
  try clear_value x1
  refine keepsBut_ite ?_ ?_
  · refine keepsBut_step keeps_State_raiseInt (by decide) ?_
    exact keepsBut_step keeps_State_bump (by decide) (by assumption)
  · assumption

theorem keeps_State_markMismatch {s : State} {cutId : ℕ} {range : ℕ} {slots : List ℕ} :
    s.keepsBut [.way, .host, .limits, .regs, .out, .hwl] (s.markMismatch cutId range slots) := by
  have h0 : State.keepsBut s [.way, .host, .limits, .regs, .out, .hwl] s := keepsBut_refl _ _
  unfold State.markMismatch
  extract_lets +onlyGivenNames x0
  try clear_value x0
  refine keepsBut_foldl ?_ ?_
  · intro u a hu
    try beta_reduce
    · extract_lets +onlyGivenNames x1
      try clear_value x1
      extract_lets +onlyGivenNames x2
      try clear_value x2
      extract_lets +onlyGivenNames x3
      have hx3 : State.keepsBut s [.way, .host, .limits, .regs, .out, .hwl] x3 := by
        unfold x3
        exact keepsBut_step keeps_with_hwl (by decide) (by assumption)
      try clear_value x3
      extract_lets +onlyGivenNames x4
      have hx4 : State.keepsBut s [.way, .host, .limits, .regs, .out, .hwl] x4 := by
        unfold x4
        refine keepsBut_step keeps_State_raiseInt (by decide) ?_
        exact keepsBut_step keeps_State_note (by decide) (by assumption)
      try clear_value x4
      exact keepsBut_step keeps_State_reportOut (by decide) (by assumption)
  · assumption

theorem keeps_State_cutCompared {s : State} {cutId : ℕ} {range : ℕ} :
    s.keepsBut [.hwl] (s.cutCompared cutId range) := by
  have h0 : State.keepsBut s [.hwl] s := keepsBut_refl _ _
  unfold State.cutCompared
  exact keepsBut_step keeps_with_hwl (by decide) (by assumption)

theorem keeps_State_sendResult {s : State} {id : ℕ} {range : ℕ} {slots : List ℕ} :
    s.keepsBut [.way, .host, .limits, .regs, .out, .hwl] (s.sendResult id range slots) := by
  have h0 : State.keepsBut s [.way, .host, .limits, .regs, .out, .hwl] s := keepsBut_refl _ _
  unfold State.sendResult
  refine keepsBut_foldl ?_ ?_
  · intro u a hu
    try beta_reduce
    · exact keepsBut_step keeps_State_hwlSend (by decide) (by assumption)
  · assumption

theorem keeps_State_setCut {s : State} {c : Cut} :
    s.keepsBut [.hwl] (s.setCut c) := by
  have h0 : State.keepsBut s [.hwl] s := keepsBut_refl _ _
  unfold State.setCut
  exact keepsBut_step keeps_with_hwl (by decide) (by assumption)

theorem keeps_State_compareCut {s : State} {c : Cut} :
    s.keepsBut [.way, .host, .limits, .regs, .out, .hwl] (s.compareCut c) := by
  have h0 : State.keepsBut s [.way, .host, .limits, .regs, .out, .hwl] s := keepsBut_refl _ _
  unfold State.compareCut
  refine keepsBut_ite ?_ ?_
  · assumption
  · refine keepsBut_ite ?_ ?_
    · refine keepsBut_ite ?_ ?_
      · assumption
      · extract_lets +onlyGivenNames x0
        try clear_value x0
        extract_lets +onlyGivenNames x1
        try clear_value x1
        refine keepsBut_step keeps_State_sendResult (by decide) ?_
        refine keepsBut_step keeps_State_cutCompared (by decide) ?_
        exact keepsBut_step keeps_State_markMismatch (by decide) (by assumption)
    · refine keepsBut_ite ?_ ?_
      · assumption
      · extract_lets +onlyGivenNames x2
        try clear_value x2
        refine keepsBut_ite ?_ ?_
        · refine keepsBut_step keeps_State_sendResult (by decide) ?_
          refine keepsBut_step keeps_State_cutCompared (by decide) ?_
          exact keepsBut_step keeps_State_bump (by decide) (by assumption)
        · refine keepsBut_step keeps_State_hwlSend (by decide) ?_
          refine keepsBut_step keeps_State_setCut (by decide) ?_
          exact keepsBut_step keeps_State_bump (by decide) (by assumption)

theorem keeps_State_withImage {s : State} {c : ConfigImage} :
    s.keepsBut [.cfg, .boot] (s.withImage c) := by
  have h0 : State.keepsBut s [.cfg, .boot] s := keepsBut_refl _ _
  unfold State.withImage
  exact keepsBut_step keeps_with_cfg_boot (by decide) (by assumption)

theorem keeps_State_campPush {s : State} {v : Campaign} {index : ℕ} :
    s.keepsBut [.way, .host, .limits, .cch, .regs, .out, .txn, .ctx] (s.campPush v index) := by
  have h0 : State.keepsBut s [.way, .host, .limits, .cch, .regs, .out, .txn, .ctx] s := keepsBut_refl _ _
  unfold State.campPush
  refine keepsBut_step keeps_State_topUpIssues (by decide) ?_
  refine keepsBut_foldl ?_ ?_
  · intro u a hu
    try beta_reduce
    · exact keepsBut_step keeps_State_pushRequest (by decide) (by assumption)
  · assumption

theorem keeps_State_retireUnit {s : State} {u : ℕ} :
    s.keepsBut [.way, .host, .regs, .out, .bil] (s.retireUnit u) := by
  have h0 : State.keepsBut s [.way, .host, .regs, .out, .bil] s := keepsBut_refl _ _
  unfold State.retireUnit
  extract_lets +onlyGivenNames x0
  try clear_value x0
  extract_lets +onlyGivenNames x1
  try clear_value x1
  extract_lets +onlyGivenNames x2
  try clear_value x2
  extract_lets +onlyGivenNames x3
  have hx3 : State.keepsBut s [.way, .host, .regs, .out, .bil] x3 := by
    unfold x3
    exact keepsBut_step keeps_with_bil (by decide) (by assumption)
  try clear_value x3
  refine keepsBut_step keeps_State_event (by decide) ?_
  refine keepsBut_step keeps_State_reportOut (by decide) ?_
  exact keepsBut_step keeps_State_raiseInt (by decide) (by assumption)

theorem keeps_State_outvote {s : State} {u : ℕ} :
    s.keepsBut [.way, .host, .limits, .regs, .out, .bil] (s.outvote u) := by
  have h0 : State.keepsBut s [.way, .host, .limits, .regs, .out, .bil] s := keepsBut_refl _ _
  unfold State.outvote
  extract_lets +onlyGivenNames x0
  try clear_value x0
  extract_lets +onlyGivenNames x1
  try clear_value x1
  extract_lets +onlyGivenNames x2
  have hx2 : State.keepsBut s [.way, .host, .limits, .regs, .out, .bil] x2 := by
    unfold x2
    exact keepsBut_step keeps_with_bil (by decide) (by assumption)
  try clear_value x2
  extract_lets +onlyGivenNames x3
  have hx3 : State.keepsBut s [.way, .host, .limits, .regs, .out, .bil] x3 := by
    unfold x3
    refine keepsBut_step keeps_State_note (by decide) ?_
    exact keepsBut_step keeps_State_raiseInt (by decide) (by assumption)
  try clear_value x3
  refine keepsBut_ite ?_ ?_
  · exact keepsBut_step keeps_State_retireUnit (by decide) (by assumption)
  · assumption

theorem keeps_State_rejectOwner {s : State} {j : JobRef} {node : ℕ} :
    s.keepsBut [.host, .regs] (s.rejectOwner j node) := by
  have h0 : State.keepsBut s [.host, .regs] s := keepsBut_refl _ _
  unfold State.rejectOwner
  refine keepsBut_step keeps_State_bump (by decide) ?_
  exact keepsBut_step keeps_State_finishJob (by decide) (by assumption)

theorem keeps_State_runTariff {s : State} {j : Job} {slot : ℕ} {x : TariffSet} :
    s.keepsBut [.way, .ful, .host, .limits, .cch, .regs, .out, .upd, .sec] (s.runTariff j slot x) := by
  have h0 : State.keepsBut s [.way, .ful, .host, .limits, .cch, .regs, .out, .upd, .sec] s := keepsBut_refl _ _
  unfold State.runTariff
  refine keepsBut_ite ?_ ?_
  · exact keepsBut_step keeps_State_rejectOwner (by decide) (by assumption)
  · refine keepsBut_ite ?_ ?_
    · exact keepsBut_step keeps_State_rejectJob (by decide) (by assumption)
    · refine keepsBut_ite ?_ ?_
      · exact keepsBut_step keeps_State_rejectJob (by decide) (by assumption)
      · refine keepsBut_ite ?_ ?_
        · exact keepsBut_step keeps_State_rejectJob (by decide) (by assumption)
        · refine keepsBut_ite ?_ ?_
          · exact keepsBut_step keeps_State_rejectJob (by decide) (by assumption)
          · refine keeps_State_onAccept (by decide) ?_ ?_
            · intro u hu
              try beta_reduce
              exact keepsBut_step keeps_State_toFuller (by decide) (by assumption)
            · assumption

theorem keeps_State_rebuildStore {s : State} {badSums : List ℕ} {badPages : List (ℕ × ℕ)} :
    s.keepsBut [.ful, .regs, .out] (s.rebuildStore badSums badPages) := by
  have h0 : State.keepsBut s [.ful, .regs, .out] s := keepsBut_refl _ _
  unfold State.rebuildStore
  dsimp only
  refine keepsBut_step keeps_State_closeOpenBlocks (by decide) ?_
  refine keepsBut_step keeps_State_bumpBy (by decide) ?_
  refine keepsBut_step keeps_State_bumpBy (by decide) ?_
  exact keepsBut_step keeps_with_ful (by decide) (by assumption)

theorem keeps_State_restartGens {s : State} :
    s.keepsBut [.nor, .sec] (s.restartGens) := by
  have h0 : State.keepsBut s [.nor, .sec] s := keepsBut_refl _ _
  unfold State.restartGens
  refine keepsBut_ite ?_ ?_
  · exact keepsBut_step keeps_with_nor_sec (by decide) (by assumption)
  · assumption

theorem keeps_State_awaitFill {s : State} {l : ℕ} {x : LaneItem} :
    s.keepsBut [.ing] (s.awaitFill l x) := by
  have h0 : State.keepsBut s [.ing] s := keepsBut_refl _ _
  unfold State.awaitFill
  exact keepsBut_step keeps_with_ing (by decide) (by assumption)

theorem keeps_State_sendDigests {s : State} {id : ℕ} {range : ℕ} {ds : List (List Byte)} :
    s.keepsBut [.way, .host, .limits, .regs, .out, .hwl] (s.sendDigests id range ds) := by
  have h0 : State.keepsBut s [.way, .host, .limits, .regs, .out, .hwl] s := keepsBut_refl _ _
  unfold State.sendDigests
  refine keepsBut_foldl ?_ ?_
  · intro u a hu
    try beta_reduce
    · exact keepsBut_step keeps_State_hwlSend (by decide) (by assumption)
  · assumption

theorem keeps_State_markCut {s : State} {lane : Fin 4} {cutId : ℕ} {range : ℕ} :
    s.keepsBut [.way, .host, .limits, .regs, .out, .hwl] (s.markCut lane cutId range) := by
  have h0 : State.keepsBut s [.way, .host, .limits, .regs, .out, .hwl] s := keepsBut_refl _ _
  unfold State.markCut
  split
  · assumption
  · extract_lets +onlyGivenNames x0
    try clear_value x0
    extract_lets +onlyGivenNames x1
    try clear_value x1
    extract_lets +onlyGivenNames x2
    try clear_value x2
    extract_lets +onlyGivenNames x3
    try clear_value x3
    extract_lets +onlyGivenNames x4
    have hx4 : State.keepsBut s [.way, .host, .limits, .regs, .out, .hwl] x4 := by
      unfold x4
      exact keepsBut_step keeps_State_setCut (by decide) (by assumption)
    try clear_value x4
    refine keepsBut_ite ?_ ?_
    · assumption
    · refine keepsBut_ite ?_ ?_
      · refine keepsBut_step keeps_State_sendDigests (by decide) ?_
        exact keepsBut_step keeps_State_bump (by decide) (by assumption)
      · exact keepsBut_step keeps_State_compareCut (by decide) (by assumption)

theorem keeps_State_settleCuts {s : State} :
    s.keepsBut [.way, .host, .limits, .regs, .out, .bil, .hwl] (s.settleCuts) := by
  have h0 : State.keepsBut s [.way, .host, .limits, .regs, .out, .bil, .hwl] s := keepsBut_refl _ _
  unfold State.settleCuts
  extract_lets +onlyGivenNames x0
  try clear_value x0
  extract_lets +onlyGivenNames x1
  try clear_value x1
  refine keepsBut_ite ?_ ?_
  · assumption
  · extract_lets +onlyGivenNames x2
    try clear_value x2
    refine keepsBut_foldl ?_ ?_
    · intro u a hu
      try beta_reduce
      · exact keepsBut_step keeps_State_markCut (by decide) (by assumption)
    · exact keepsBut_step keeps_with_bil (by decide) (by assumption)

theorem keeps_State_passBarrier {s : State} {lane : Fin 4} {cutId : ℕ} {range : ℕ} :
    s.keepsBut [.way, .host, .limits, .regs, .out, .bil, .hwl] (s.passBarrier lane cutId range) := by
  have h0 : State.keepsBut s [.way, .host, .limits, .regs, .out, .bil, .hwl] s := keepsBut_refl _ _
  unfold State.passBarrier
  extract_lets +onlyGivenNames x0
  have hx0 : State.keepsBut s [.way, .host, .limits, .regs, .out, .bil, .hwl] x0 := by
    unfold x0
    refine keepsBut_ite ?_ ?_
    · exact keepsBut_step keeps_State_mirrorSend (by decide) (by assumption)
    · assumption
  try clear_value x0
  refine keepsBut_step keeps_State_settleCuts (by decide) ?_
  exact keepsBut_step keeps_State_toTroika (by decide) (by assumption)

theorem keeps_State_applySync {s : State} {i : ℕ} {g : Gmn} {reason : ℕ} {x : Context} {v : LegalSlot} {closed : List ClosedPeriod} :
    s.keepsBut [.way, .ful, .host, .limits, .regs, .out, .bil, .hwl, .ctx] (s.applySync i g reason x v closed) := by
  have h0 : State.keepsBut s [.way, .ful, .host, .limits, .regs, .out, .bil, .hwl, .ctx] s := keepsBut_refl _ _
  unfold State.applySync
  extract_lets +onlyGivenNames x0
  try clear_value x0
  extract_lets +onlyGivenNames x1
  have hx1 : State.keepsBut s [.way, .ful, .host, .limits, .regs, .out, .bil, .hwl, .ctx] x1 := by
    unfold x1
    exact keepsBut_step keeps_State_setCtx (by decide) (by assumption)
  try clear_value x1
  extract_lets +onlyGivenNames x2
  try clear_value x2
  extract_lets +onlyGivenNames x3
  have hx3 : State.keepsBut s [.way, .ful, .host, .limits, .regs, .out, .bil, .hwl, .ctx] x3 := by
    unfold x3
    refine keepsBut_step keeps_State_toTroika (by decide) ?_
    exact keepsBut_step keeps_State_journalContext (by decide) (by assumption)
  try clear_value x3
  extract_lets +onlyGivenNames x4
  have hx4 : State.keepsBut s [.way, .ful, .host, .limits, .regs, .out, .bil, .hwl, .ctx] x4 := by
    unfold x4
    refine keepsBut_foldl ?_ ?_
    · intro u a hu
      try beta_reduce
      · refine keepsBut_step keeps_State_toFuller (by decide) ?_
        exact keepsBut_step keeps_State_keepClosed (by decide) (by assumption)
    · assumption
  try clear_value x4
  extract_lets +onlyGivenNames x5
  try clear_value x5
  extract_lets +onlyGivenNames x6
  have hx6 : State.keepsBut s [.way, .ful, .host, .limits, .regs, .out, .bil, .hwl, .ctx] x6 := by
    unfold x6
    refine keepsBut_ite ?_ ?_
    · exact keepsBut_step keeps_with_hwl (by decide) (by assumption)
    · assumption
  try clear_value x6
  exact keepsBut_step keeps_State_note (by decide) (by assumption)

theorem keeps_State_setCache {s : State} {i : ℕ} {c : CacheSet} :
    s.keepsBut [.ing] (s.setCache i c) := by
  have h0 : State.keepsBut s [.ing] s := keepsBut_refl _ _
  unfold State.setCache
  exact keepsBut_step keeps_with_ing (by decide) (by assumption)

theorem keeps_State_evict {s : State} {i : ℕ} :
    s.keepsBut [.ing] (s.evict i) := by
  have h0 : State.keepsBut s [.ing] s := keepsBut_refl _ _
  unfold State.evict
  extract_lets +onlyGivenNames x0
  try clear_value x0
  split
  · assumption
  · refine keepsBut_ite ?_ ?_
    · assumption
    · exact keepsBut_step keeps_State_setCache (by decide) (by assumption)

theorem keeps_State_fillMaster {s : State} {i : ℕ} :
    s.keepsBut [.sec] (s.fillMaster i) := by
  have h0 : State.keepsBut s [.sec] s := keepsBut_refl _ _
  unfold State.fillMaster
  exact keepsBut_step keeps_with_sec (by decide) (by assumption)

theorem keeps_State_dropMeter {s : State} {g : Gmn} :
    s.keepsBut [.plc, .way, .host, .limits, .cch, .regs, .out, .upd, .txn, .rfm, .ctx] (s.dropMeter g) := by
  have h0 : State.keepsBut s [.plc, .way, .host, .limits, .cch, .regs, .out, .upd, .txn, .rfm, .ctx] s := keepsBut_refl _ _
  unfold State.dropMeter
  extract_lets +onlyGivenNames x0
  have hx0 : State.keepsBut s [.plc, .way, .host, .limits, .cch, .regs, .out, .upd, .txn, .rfm, .ctx] x0 := by
    unfold x0
    refine keepsBut_foldl ?_ ?_
    · intro u a hu
      try beta_reduce
      · refine keepsBut_ite ?_ ?_
        · exact keepsBut_step keeps_State_completeTxn (by decide) (by assumption)
        · assumption
    · assumption
  try clear_value x0
  refine keepsBut_foldl ?_ ?_
  · intro u a hu
    try beta_reduce
    · exact keepsBut_step keeps_State_pullRequest (by decide) (by assumption)
  · assumption

theorem keeps_State_applyJob {s : State} {i : ℕ} {b : JobBody} :
    s.keepsBut [.plc, .way, .ful, .host, .limits, .cch, .regs, .out, .upd, .txn, .sec, .bil, .ing, .rfm, .ctx] (s.applyJob i b) := by
  have h0 : State.keepsBut s [.plc, .way, .ful, .host, .limits, .cch, .regs, .out, .upd, .txn, .sec, .bil, .ing, .rfm, .ctx] s :=
      keepsBut_refl _ _
  unfold State.applyJob
  extract_lets +onlyGivenNames x0
  try clear_value x0
  split
  · extract_lets +onlyGivenNames x1
    have hx1 : State.keepsBut s [.plc, .way, .ful, .host, .limits, .cch, .regs, .out, .upd, .txn, .sec, .bil, .ing, .rfm, .ctx] x1 := by
      unfold x1
      refine keepsBut_step keeps_State_fillMaster (by decide) ?_
      refine keepsBut_step keeps_State_setCtx (by decide) ?_
      refine keepsBut_step keeps_State_evict (by decide) ?_
      exact keepsBut_step keeps_State_modPlc (by decide) (by assumption)
    try clear_value x1
    refine keepsBut_step keeps_State_toTroika (by decide) ?_
    exact keepsBut_step keeps_State_journalContext (by decide) (by assumption)
  · refine keepsBut_step keeps_State_journalContext (by decide) ?_
    refine keepsBut_step keeps_State_fillMaster (by decide) ?_
    refine keepsBut_step keeps_State_setCtx (by decide) ?_
    refine keepsBut_step keeps_State_evict (by decide) ?_
    exact keepsBut_step keeps_State_dropMeter (by decide) (by assumption)
  · refine keepsBut_ite ?_ ?_
    · assumption
    · refine keepsBut_step keeps_State_journalContext (by decide) ?_
      refine keepsBut_step keeps_State_fillMaster (by decide) ?_
      refine keepsBut_step keeps_State_setCtx (by decide) ?_
      exact keepsBut_step keeps_State_evict (by decide) (by assumption)
  · refine keepsBut_step keeps_State_journalContext (by decide) ?_
    exact keepsBut_step keeps_State_setCtx (by decide) (by assumption)
  · refine keepsBut_step keeps_State_journalContext (by decide) ?_
    exact keepsBut_step keeps_State_setCtx (by decide) (by assumption)
  · assumption

theorem keeps_State_heldByMirror {s : State} {ds : List ReportDest} {r : Report} :
    s.keepsBut [.host, .hwl] (s.heldByMirror ds r) := by
  have h0 : State.keepsBut s [.host, .hwl] s := keepsBut_refl _ _
  unfold State.heldByMirror
  refine keepsBut_ite ?_ ?_
  · exact keepsBut_step keeps_with_hwl (by decide) (by assumption)
  · refine keepsBut_foldl ?_ ?_
    · intro u a hu
      try beta_reduce
      · exact keepsBut_step keeps_State_enqueue (by decide) (by assumption)
    · assumption

theorem keeps_State_finishMirrored {s : State} {j : JobRef} {status : ℕ} {reason : Reason} {outcome : ℕ} {detail : List Byte} :
    s.keepsBut [.host, .hwl] (s.finishMirrored j status reason outcome detail) := by
  have h0 : State.keepsBut s [.host, .hwl] s := keepsBut_refl _ _
  unfold State.finishMirrored
  refine keepsBut_step keeps_State_heldByMirror (by decide) ?_
  exact keepsBut_step keeps_State_closeJob (by decide) (by assumption)

theorem keeps_State_finishOp {s : State} {i : ℕ} {b : JobBody} {ref : Option JobRef} {mirrored : Bool} :
    s.keepsBut [.way, .host, .limits, .regs, .out, .hwl] (s.finishOp i b ref mirrored) := by
  have h0 : State.keepsBut s [.way, .host, .limits, .regs, .out, .hwl] s := keepsBut_refl _ _
  unfold State.finishOp
  refine keepsBut_ite ?_ ?_
  · exact keepsBut_step keeps_State_seqReturned (by decide) (by assumption)
  · extract_lets +onlyGivenNames x0
    have hx0 : State.keepsBut s [.way, .host, .limits, .regs, .out, .hwl] x0 := by
      unfold x0
      refine keepsBut_ite ?_ ?_
      · exact keepsBut_step keeps_State_mirrorSend (by decide) (by assumption)
      · assumption
    try clear_value x0
    split
    · assumption
    · refine keepsBut_ite ?_ ?_
      · exact keepsBut_step keeps_State_finishMirrored (by decide) (by assumption)
      · exact keepsBut_step keeps_State_finishJob (by decide) (by assumption)

theorem keeps_State_applyOp {s : State} {lane : Fin 4} {i : Option ℕ} {a3 : CtxOp} :
    s.keepsBut [.plc, .way, .ful, .host, .limits, .cch, .regs, .out, .upd, .txn, .sec, .bil, .hwl, .ing, .rfm, .ctx] (s.applyOp lane i
        a3) := by
  have h0 : State.keepsBut s [.plc, .way, .ful, .host, .limits, .cch, .regs, .out, .upd, .txn, .sec, .bil, .hwl, .ing, .rfm, .ctx] s :=
      keepsBut_refl _ _
  unfold State.applyOp
  split
  · split
    · refine keepsBut_step keeps_State_finishOp (by decide) ?_
      exact keepsBut_step keeps_State_applyJob (by decide) (by assumption)
    · assumption
  · split
    · refine keepsBut_ite ?_ ?_
      · exact keepsBut_step keeps_State_answerOp (by decide) (by assumption)
      · exact keepsBut_step keeps_State_toTroika (by decide) (by assumption)
    · assumption
  · exact keepsBut_step keeps_State_applyFreeze (by decide) (by assumption)
  · split
    · exact keepsBut_step keeps_State_applySync (by decide) (by assumption)
    · assumption
  · exact keepsBut_step keeps_State_passBarrier (by decide) (by assumption)

theorem keeps_State_relaySnapshot {s : State} {j : Job} {p : Fin 32} {group : ℕ} {all : Bool} {lead : ℕ} {gmns : List Gmn} :
    s.keepsBut [.bal, .regs, .out, .eth] (s.relaySnapshot j p group all lead gmns) := by
  have h0 : State.keepsBut s [.bal, .regs, .out, .eth] s := keepsBut_refl _ _
  unfold State.relaySnapshot
  extract_lets +onlyGivenNames x0
  try clear_value x0
  extract_lets +onlyGivenNames x1
  try clear_value x1
  extract_lets +onlyGivenNames x2
  try clear_value x2
  extract_lets +onlyGivenNames x3
  try clear_value x3
  extract_lets +onlyGivenNames x4
  have hx4 : State.keepsBut s [.bal, .regs, .out, .eth] x4 := by
    unfold x4
    refine keepsBut_step keeps_State_addSnapshot (by decide) ?_
    refine keepsBut_step keeps_State_bump (by decide) ?_
    refine keepsBut_step keeps_State_bump (by decide) ?_
    refine keepsBut_step keeps_State_bumpBy (by decide) ?_
    exact keepsBut_step keeps_State_takeSnapId (by decide) (by assumption)
  try clear_value x4
  exact keepsBut_step keeps_State_ethSendPeer (by decide) (by assumption)

theorem keeps_State_runSnapshot {s : State} {j : Job} {group : ℕ} {all : Bool} {lead : ℕ} {gmns : List Gmn} :
    s.keepsBut [.plc, .way, .host, .limits, .cch, .bal, .regs, .out, .upd, .eth, .sec, .rfm] (s.runSnapshot j group all lead gmns) := by
  have h0 : State.keepsBut s [.plc, .way, .host, .limits, .cch, .bal, .regs, .out, .upd, .eth, .sec, .rfm] s := keepsBut_refl _ _
  unfold State.runSnapshot
  extract_lets +onlyGivenNames x0
  try clear_value x0
  refine keepsBut_ite ?_ ?_
  · exact keepsBut_step keeps_State_rejectJob (by decide) (by assumption)
  · refine keepsBut_ite ?_ ?_
    · exact keepsBut_step keeps_State_rejectJob (by decide) (by assumption)
    · refine keepsBut_ite ?_ ?_
      · exact keepsBut_step keeps_State_rejectJob (by decide) (by assumption)
      · refine keepsBut_ite ?_ ?_
        · split
          · exact keepsBut_step keeps_State_rejectJob (by decide) (by assumption)
          · refine keeps_State_onAccept (by decide) ?_ ?_
            · intro u hu
              try beta_reduce
              exact keepsBut_step keeps_State_relaySnapshot (by decide) (by assumption)
            · assumption
        · refine keepsBut_ite ?_ ?_
          · exact keepsBut_step keeps_State_rejectJob (by decide) (by assumption)
          · refine keeps_State_onAccept (by decide) ?_ ?_
            · intro u hu
              try beta_reduce
              exact keepsBut_step keeps_State_beginSnapshot (by decide) (by assumption)
            · assumption

theorem keeps_State_word {s : State} {p : ℕ} {bytes : List Byte} :
    s.keepsBut [.out] (s.word p bytes) := by
  have h0 : State.keepsBut s [.out] s := keepsBut_refl _ _
  unfold State.word
  exact keepsBut_step keeps_State_emit (by decide) (by assumption)

theorem keeps_State_sendNak {s : State} {p : ℕ} :
    s.keepsBut [.regs, .out, .hwl] (s.sendNak p) := by
  have h0 : State.keepsBut s [.regs, .out, .hwl] s := keepsBut_refl _ _
  unfold State.sendNak
  extract_lets +onlyGivenNames x0
  try clear_value x0
  refine keepsBut_step keeps_State_bump (by decide) ?_
  refine keepsBut_step keeps_State_word (by decide) ?_
  exact keepsBut_step keeps_State_setHport (by decide) (by assumption)

theorem keeps_State_replaceSpoilt_go {s : State} {m : BitVec 32} {g : Gmn} :
    s.keepsBut [.way, .host, .limits, .regs, .out, .hwl] (State.replaceSpoilt.go s m g) := by
  have h0 : State.keepsBut s [.way, .host, .limits, .regs, .out, .hwl] s := keepsBut_refl _ _
  unfold State.replaceSpoilt.go
  split
  · assumption
  · split
    · assumption
    · extract_lets +onlyGivenNames x0
      have hx0 : State.keepsBut s [.way, .host, .limits, .regs, .out, .hwl] x0 := by
        unfold x0
        refine keepsBut_step keeps_State_modHwl (by decide) ?_
        exact keepsBut_step keeps_State_bump (by decide) (by assumption)
      try clear_value x0
      refine keepsBut_step keeps_State_bump (by decide) ?_
      refine keepsBut_foldl ?_ ?_
      · intro u a hu
        try beta_reduce
        · exact keepsBut_step keeps_State_streamNext (by decide) (by assumption)
      · assumption

theorem keeps_State_replaceSpoilt {s : State} {m : BitVec 32} :
    s.keepsBut [.way, .host, .limits, .regs, .out, .hwl] (s.replaceSpoilt m) := by
  have h0 : State.keepsBut s [.way, .host, .limits, .regs, .out, .hwl] s := keepsBut_refl _ _
  unfold State.replaceSpoilt
  split
  · exact keepsBut_step keeps_State_replaceSpoilt_go (by decide) (by assumption)
  · exact keepsBut_step keeps_State_replaceSpoilt_go (by decide) (by assumption)
  · assumption

theorem keeps_State_creditAlarm {s : State} {i : ℕ} {code : ℕ} {cause : ℕ} {reported : Bool} {v : LegalSlot} :
    s.keepsBut [.way, .host, .regs, .out] (s.creditAlarm i code cause reported v) := by
  have h0 : State.keepsBut s [.way, .host, .regs, .out] s := keepsBut_refl _ _
  unfold State.creditAlarm
  extract_lets +onlyGivenNames x0
  try clear_value x0
  extract_lets +onlyGivenNames x1
  have hx1 : State.keepsBut s [.way, .host, .regs, .out] x1 := by
    unfold x1
    refine keepsBut_step keeps_State_raiseInt (by decide) ?_
    exact keepsBut_step keeps_State_event (by decide) (by assumption)
  try clear_value x1
  refine keepsBut_ite ?_ ?_
  · exact keepsBut_step keeps_State_reportOut (by decide) (by assumption)
  · assumption

theorem keeps_State_creditAction {s : State} {i : ℕ} {old : LegalSlot} {v : LegalSlot} :
    s.keepsBut [.way, .host, .limits, .regs, .out, .bil, .hwl] (s.creditAction i old v) := by
  have h0 : State.keepsBut s [.way, .host, .limits, .regs, .out, .bil, .hwl] s := keepsBut_refl _ _
  unfold State.creditAction
  refine keepsBut_ite ?_ ?_
  · assumption
  · extract_lets +onlyGivenNames x0
    try clear_value x0
    extract_lets +onlyGivenNames x1
    have hx1 : State.keepsBut s [.way, .host, .limits, .regs, .out, .bil, .hwl] x1 := by
      unfold x1
      refine keepsBut_ite ?_ ?_
      · exact keepsBut_step keeps_State_postLegal (by decide) (by assumption)
      · assumption
    try clear_value x1
    refine keepsBut_ite ?_ ?_
    · exact keepsBut_step keeps_State_postLegal (by decide) (by assumption)
    · assumption

theorem keeps_State_commitSlot {s : State} {i : ℕ} {old : LegalSlot} {v : LegalSlot} :
    s.keepsBut [.way, .host, .limits, .regs, .out, .bil, .hwl] (s.commitSlot i old v) := by
  have h0 : State.keepsBut s [.way, .host, .limits, .regs, .out, .bil, .hwl] s := keepsBut_refl _ _
  unfold State.commitSlot
  extract_lets +onlyGivenNames x0
  try clear_value x0
  extract_lets +onlyGivenNames x1
  have hx1 : State.keepsBut s [.way, .host, .limits, .regs, .out, .bil, .hwl] x1 := by
    unfold x1
    exact keepsBut_step keeps_State_setSlot (by decide) (by assumption)
  try clear_value x1
  extract_lets +onlyGivenNames x2
  have hx2 : State.keepsBut s [.way, .host, .limits, .regs, .out, .bil, .hwl] x2 := by
    unfold x2
    refine keepsBut_ite ?_ ?_
    · exact keepsBut_step keeps_State_creditAlarm (by decide) (by assumption)
    · assumption
  try clear_value x2
  extract_lets +onlyGivenNames x3
  have hx3 : State.keepsBut s [.way, .host, .limits, .regs, .out, .bil, .hwl] x3 := by
    unfold x3
    refine keepsBut_ite ?_ ?_
    · exact keepsBut_step keeps_State_creditAlarm (by decide) (by assumption)
    · assumption
  try clear_value x3
  exact keepsBut_step keeps_State_creditAction (by decide) (by assumption)

theorem keeps_State_modRadio {s : State} {i : ℕ} {f : RadioLink → RadioLink} :
    s.keepsBut [.ctx] (s.modRadio i f) := by
  have h0 : State.keepsBut s [.ctx] s := keepsBut_refl _ _
  unfold State.modRadio
  exact keepsBut_step keeps_State_modCtx (by decide) (by assumption)

theorem keeps_State_anchor {s : State} {x : MeshTx} {first : ℕ} :
    s.keepsBut [.ctx] (s.anchor x first).1 := by
  have h0 : State.keepsBut s [.ctx] s := keepsBut_refl _ _
  unfold State.anchor
  split
  · extract_lets +onlyGivenNames x0
    try clear_value x0
    extract_lets +onlyGivenNames x1
    try clear_value x1
    dsimp only
    exact keepsBut_step keeps_State_modRadio (by decide) (by assumption)
  · dsimp only
    assumption

theorem keeps_State_invalidate {s : State} {k : ℕ} {version : ℕ} :
    s.keepsBut [.way, .host, .limits, .regs, .out, .nor, .sec, .ing] (s.invalidate k version) := by
  have h0 : State.keepsBut s [.way, .host, .limits, .regs, .out, .nor, .sec, .ing] s := keepsBut_refl _ _
  unfold State.invalidate
  extract_lets +onlyGivenNames x0
  try clear_value x0
  extract_lets +onlyGivenNames x1
  try clear_value x1
  extract_lets +onlyGivenNames x2
  have hx2 : State.keepsBut s [.way, .host, .limits, .regs, .out, .nor, .sec, .ing] x2 := by
    unfold x2
    exact keepsBut_step keeps_State_setGen (by decide) (by assumption)
  try clear_value x2
  extract_lets +onlyGivenNames x3
  have hx3 : State.keepsBut s [.way, .host, .limits, .regs, .out, .nor, .sec, .ing] x3 := by
    unfold x3
    refine keepsBut_foldl ?_ ?_
    · intro u a hu
      try beta_reduce
      · extract_lets +onlyGivenNames x4
        try clear_value x4
        exact keepsBut_step keeps_State_setGen (by decide) (by assumption)
    · assumption
  try clear_value x3
  extract_lets +onlyGivenNames x5
  have hx5 : State.keepsBut s [.way, .host, .limits, .regs, .out, .nor, .sec, .ing] x5 := by
    unfold x5
    refine keepsBut_foldl ?_ ?_
    · intro u a hu
      try beta_reduce
      · exact keepsBut_step keeps_State_setKeySlot (by decide) (by assumption)
    · assumption
  try clear_value x5
  extract_lets +onlyGivenNames x6
  try clear_value x6
  extract_lets +onlyGivenNames x7
  have hx7 : State.keepsBut s [.way, .host, .limits, .regs, .out, .nor, .sec, .ing] x7 := by
    unfold x7
    refine keepsBut_step keeps_State_note (by decide) ?_
    exact keepsBut_step keeps_State_raiseInt (by decide) (by assumption)
  try clear_value x7
  refine keepsBut_step keeps_State_purgeWays (by decide) ?_
  exact keepsBut_step keeps_State_bumpBy (by decide) (by assumption)

theorem keeps_State_holdDuty {s : State} {n : ℕ} :
    s.keepsBut [.regs, .out, .rfm] (s.holdDuty n) := by
  have h0 : State.keepsBut s [.regs, .out, .rfm] s := keepsBut_refl _ _
  unfold State.holdDuty
  extract_lets +onlyGivenNames x0
  try clear_value x0
  refine keepsBut_ite ?_ ?_
  · assumption
  · refine keepsBut_step keeps_State_raiseInt (by decide) ?_
    refine keepsBut_step keeps_State_bump (by decide) ?_
    exact keepsBut_step keeps_State_setRadio (by decide) (by assumption)

theorem keeps_State_rejectBlock {s : State} {j : Job} {reason : Reason} :
    s.keepsBut [.way, .host, .limits, .regs, .out] (s.rejectBlock j reason) := by
  have h0 : State.keepsBut s [.way, .host, .limits, .regs, .out] s := keepsBut_refl _ _
  unfold State.rejectBlock
  refine keepsBut_step keeps_State_note (by decide) ?_
  exact keepsBut_step keeps_State_rejectJob (by decide) (by assumption)

theorem keeps_State_runDelivery {s : State} {j : Job} {tag : BitVec 32} {offset : ℕ} {total : ℕ} {part : ℕ} {block : List Byte} {fails
    : Bool} :
    s.keepsBut [.way, .ful, .host, .limits, .cch, .regs, .out, .upd, .nor, .sec, .hwl] (s.runDelivery j tag offset total part block
        fails) := by
  have h0 : State.keepsBut s [.way, .ful, .host, .limits, .cch, .regs, .out, .upd, .nor, .sec, .hwl] s := keepsBut_refl _ _
  unfold State.runDelivery
  refine keepsBut_ite ?_ ?_
  · exact keepsBut_step keeps_State_rejectBlock (by decide) (by assumption)
  · refine keepsBut_ite ?_ ?_
    · refine keeps_State_onAccept (by decide) ?_ ?_
      · intro u hu
        try beta_reduce
        split
        · exact keepsBut_step keeps_State_finishJob (by decide) (by assumption)
        · exact keepsBut_step keeps_State_finishJob (by decide) (by assumption)
      · assumption
    · refine keepsBut_ite ?_ ?_
      · refine keepsBut_ite ?_ ?_
        · exact keepsBut_step keeps_State_rejectBlock (by decide) (by assumption)
        · extract_lets +onlyGivenNames x0
          try clear_value x0
          refine keeps_State_onAccept (by decide) ?_ ?_
          · intro u hu
            try beta_reduce
            refine keepsBut_step keeps_State_takeBlock (by decide) ?_
            exact keepsBut_step keeps_State_openDelivery (by decide) (by assumption)
          · assumption
      · split
        · exact keepsBut_step keeps_State_rejectBlock (by decide) (by assumption)
        · refine keepsBut_ite ?_ ?_
          · exact keepsBut_step keeps_State_rejectBlock (by decide) (by assumption)
          · refine keepsBut_ite ?_ ?_
            · exact keepsBut_step keeps_State_rejectBlock (by decide) (by assumption)
            · refine keeps_State_onAccept (by decide) ?_ ?_
              · intro u hu
                try beta_reduce
                exact keepsBut_step keeps_State_takeBlock (by decide) (by assumption)
              · assumption

theorem keeps_State_modLog {s : State} {g : LogId} {f : Log → Log} :
    s.keepsBut [.way] (s.modLog g f) := by
  have h0 : State.keepsBut s [.way] s := keepsBut_refl _ _
  unfold State.modLog
  exact keepsBut_step keeps_with_way (by decide) (by assumption)

theorem keeps_State_finishClear {s : State} {g : LogId} :
    s.keepsBut [.way, .host, .regs] (s.finishClear g) := by
  have h0 : State.keepsBut s [.way, .host, .regs] s := keepsBut_refl _ _
  unfold State.finishClear
  extract_lets +onlyGivenNames x0
  try clear_value x0
  extract_lets +onlyGivenNames x1
  try clear_value x1
  extract_lets +onlyGivenNames x2
  have hx2 : State.keepsBut s [.way, .host, .regs] x2 := by
    unfold x2
    exact keepsBut_step keeps_State_modLog (by decide) (by assumption)
  try clear_value x2
  extract_lets +onlyGivenNames x3
  have hx3 : State.keepsBut s [.way, .host, .regs] x3 := by
    unfold x3
    exact keepsBut_step keeps_State_modLog (by decide) (by assumption)
  try clear_value x3
  refine keepsBut_step keeps_State_eventReport (by decide) ?_
  refine keepsBut_step keeps_State_bump (by decide) ?_
  exact keepsBut_step keeps_State_bump (by decide) (by assumption)

theorem keeps_State_passSent {s : State} {c : ℕ} {v : Campaign} :
    s.keepsBut [.cch, .upd] (s.passSent c v) := by
  have h0 : State.keepsBut s [.cch, .upd] s := keepsBut_refl _ _
  unfold State.passSent
  refine keepsBut_step keeps_State_campTaskDone (by decide) ?_
  exact keepsBut_step keeps_State_setCamp (by decide) (by assumption)

theorem keeps_State_unknownMeter {s : State} {l : ℕ} {i : ℕ} {gmn : ℕ} :
    s.keepsBut [.way, .host, .limits, .regs, .out] (s.unknownMeter l i gmn) := by
  have h0 : State.keepsBut s [.way, .host, .limits, .regs, .out] s := keepsBut_refl _ _
  unfold State.unknownMeter
  exact keepsBut_step keeps_State_note (by decide) (by assumption)

theorem keeps_State_builtRecord {s : State} {l : ℕ} {i : ℕ} {f : Frame} {r : Record} :
    s.keepsBut [.way, .host, .limits, .regs, .out, .val] (s.builtRecord l i f r) := by
  have h0 : State.keepsBut s [.way, .host, .limits, .regs, .out, .val] s := keepsBut_refl _ _
  unfold State.builtRecord
  refine keepsBut_ite ?_ ?_
  · exact keepsBut_step keeps_State_note (by decide) (by assumption)
  · split
    · exact keepsBut_step keeps_State_unknownMeter (by decide) (by assumption)
    · exact keepsBut_step keeps_State_note (by decide) (by assumption)
    · exact keepsBut_step keeps_State_toVal (by decide) (by assumption)

theorem keeps_State_leaveLane {s : State} {l : ℕ} {x : LaneItem} :
    s.keepsBut [.ing] (s.leaveLane l x) := by
  have h0 : State.keepsBut s [.ing] s := keepsBut_refl _ _
  unfold State.leaveLane
  exact keepsBut_step keeps_with_ing (by decide) (by assumption)

theorem keeps_State_forwardEntry {s : State} {e : RelayEntry} :
    s.keepsBut [.way, .host, .limits, .regs, .out, .hwl] (s.forwardEntry e) := by
  have h0 : State.keepsBut s [.way, .host, .limits, .regs, .out, .hwl] s := keepsBut_refl _ _
  unfold State.forwardEntry
  extract_lets +onlyGivenNames x0
  try clear_value x0
  refine keepsBut_step keeps_State_bump (by decide) ?_
  exact keepsBut_step keeps_State_hwlSend (by decide) (by assumption)

theorem keeps_State_misdelivered {s : State} {e : RelayEntry} :
    s.keepsBut [.way, .host, .limits, .regs, .out, .hwl] (s.misdelivered e) := by
  have h0 : State.keepsBut s [.way, .host, .limits, .regs, .out, .hwl] s := keepsBut_refl _ _
  unfold State.misdelivered
  exact keepsBut_step keeps_State_forwardEntry (by decide) (by assumption)

theorem keeps_State_tagFails {s : State} {l : ℕ} {gmn : ℕ} :
    s.keepsBut [.way, .host, .limits, .regs, .out] (s.tagFails l gmn) := by
  have h0 : State.keepsBut s [.way, .host, .limits, .regs, .out] s := keepsBut_refl _ _
  unfold State.tagFails
  refine keepsBut_step keeps_State_noteMeter (by decide) ?_
  exact keepsBut_step keeps_State_raiseInt (by decide) (by assumption)

theorem keeps_State_requestAnswered {s1 : State} {t : Nat} {v : Tag} {r : Request} {name outcome : Nat} :
    s1.keepsBut [.plc, .way, .host, .limits, .cch, .regs, .out, .upd, .txn, .rfm, .ctx] (s1.requestAnswered t v r name outcome).1 := by
  unfold State.requestAnswered
  split
  · split
    · refine keepsBut_step keeps_State_nextBlock (by decide) ?_
      refine keepsBut_foldl ?_ (keepsBut_refl _ _)
      intro u a hu
      exact keepsBut_step keeps_State_pullRequest (by decide) hu
    · exact keeps_State_completeTxn.weaken (by decide)
  · exact keeps_State_completeTxn.weaken (by decide)
  · refine keepsBut_step keeps_State_completeTxn (by decide) ?_
    split
    · exact keeps_State_modCtx.weaken (by decide)
    · exact keepsBut_refl _ _
  · exact keeps_State_completeTxn.weaken (by decide)

theorem keeps_State_answered {s : State} {name : ℕ} {g : Gmn} {radio : Bool} {outcome : ℕ} :
    s.keepsBut [.plc, .way, .host, .limits, .cch, .regs, .out, .upd, .txn, .rfm, .ctx] (s.answered name g radio outcome).1 := by
  have h0 : State.keepsBut s [.plc, .way, .host, .limits, .cch, .regs, .out, .upd, .txn, .rfm, .ctx] s := keepsBut_refl _ _
  unfold State.answered
  split
  · dsimp only
    refine keepsBut_ite ?_ ?_
    · assumption
    · exact keepsBut_step keeps_State_bump (by decide) (by assumption)
  · extract_lets +onlyGivenNames x0
    try clear_value x0
    extract_lets +onlyGivenNames x1
    have hx1 : State.keepsBut s [.plc, .way, .host, .limits, .cch, .regs, .out, .upd, .txn, .rfm, .ctx] x1 := by
      unfold x1
      split
      · exact keepsBut_step keeps_State_modCtx (by decide) (by assumption)
      · assumption
    try clear_value x1
    split
    · exact hx1
    · exact keepsBut_step keeps_State_requestAnswered (by decide) hx1

theorem keeps_State_decryptFrame {s : State} {v : Arrival} {a : Outer} {o : IcOutcome} :
    s.keepsBut [.plc, .way, .host, .limits, .cch, .regs, .out, .upd, .txn, .val, .ing, .rfm, .ctx] (s.decryptFrame v a o) := by
  have h0 : State.keepsBut s [.plc, .way, .host, .limits, .cch, .regs, .out, .upd, .txn, .val, .ing, .rfm, .ctx] s := keepsBut_refl _ _
  unfold State.decryptFrame
  extract_lets +onlyGivenNames x0
  try clear_value x0
  split
  · exact keepsBut_step keeps_State_tagFails (by decide) (by assumption)
  · split
    · extract_lets +onlyGivenNames x1
      have hx1 : State.keepsBut s [.plc, .way, .host, .limits, .cch, .regs, .out, .upd, .txn, .val, .ing, .rfm, .ctx] x1 := by
        unfold x1
        exact keepsBut_step keeps_State_modCtx (by decide) (by assumption)
      try clear_value x1
      extract_lets +onlyGivenNames x2
      try clear_value x2
      split
      · rename_i u ans e
        have hu : State.keepsBut s [.plc, .way, .host, .limits, .cch, .regs, .out, .upd, .txn, .val, .ing, .rfm, .ctx] u := by
          have e1 := congrArg Prod.fst e
          dsimp only at e1
          rw [← e1]
          refine keepsBut_iteFst ?_ ?_
          · dsimp only
            assumption
          · exact keepsBut_step keeps_State_answered (by decide) (by assumption)
        exact keepsBut_step keeps_State_deliverParsed (by decide) (by assumption)

theorem keeps_State_unopened {s : State} {v : Arrival} {reason : ℕ} {apdu : Apdu} :
    s.keepsBut [.way, .host, .limits, .cch, .regs, .out, .ing, .ctx] (s.unopened v reason apdu) := by
  have h0 : State.keepsBut s [.way, .host, .limits, .cch, .regs, .out, .ing, .ctx] s := keepsBut_refl _ _
  unfold State.unopened
  refine keepsBut_ite ?_ ?_
  · exact keepsBut_step keeps_State_note (by decide) (by assumption)
  · exact keepsBut_step keeps_State_toFirmware (by decide) (by assumption)

theorem keeps_State_fullPath {s : State} {v : Arrival} {apdu : Apdu} :
    s.keepsBut [.plc, .way, .host, .limits, .cch, .regs, .out, .upd, .txn, .val, .ing, .rfm, .ctx] (s.fullPath v apdu) := by
  have h0 : State.keepsBut s [.plc, .way, .host, .limits, .cch, .regs, .out, .upd, .txn, .val, .ing, .rfm, .ctx] s := keepsBut_refl _ _
  unfold State.fullPath
  extract_lets +onlyGivenNames x0
  try clear_value x0
  extract_lets +onlyGivenNames x1
  try clear_value x1
  extract_lets +onlyGivenNames x2
  try clear_value x2
  extract_lets +onlyGivenNames x3
  try clear_value x3
  extract_lets +onlyGivenNames x4
  try clear_value x4
  refine keepsBut_ite ?_ ?_
  · exact keepsBut_step keeps_State_unopened (by decide) (by assumption)
  · refine keepsBut_ite ?_ ?_
    · exact keepsBut_step keeps_State_note (by decide) (by assumption)
    · refine keepsBut_ite ?_ ?_
      · refine keepsBut_ite ?_ ?_
        · exact keepsBut_step keeps_State_note (by decide) (by assumption)
        · split
          · exact keepsBut_step keeps_State_note (by decide) (by assumption)
          · exact keepsBut_step keeps_State_noteMeter (by decide) (by assumption)
          · exact keepsBut_step keeps_State_decryptFrame (by decide) (by assumption)
      · exact keepsBut_step keeps_State_unopened (by decide) (by assumption)

theorem keeps_State_forwardSealed {s : State} {v : Arrival} {a : Apdu} :
    s.keepsBut [.plc, .way, .host, .limits, .cch, .regs, .out, .upd, .txn, .eth, .nor, .ing, .rfm, .ctx] (s.forwardSealed v a) := by
  have h0 : State.keepsBut s [.plc, .way, .host, .limits, .cch, .regs, .out, .upd, .txn, .eth, .nor, .ing, .rfm, .ctx] s :=
      keepsBut_refl _ _
  unfold State.forwardSealed
  extract_lets +onlyGivenNames x0
  try clear_value x0
  refine keepsBut_ite ?_ ?_
  · exact keepsBut_step keeps_State_note (by decide) (by assumption)
  · split
    · rename_i u ans e
      have hu : State.keepsBut s [.plc, .way, .host, .limits, .cch, .regs, .out, .upd, .txn, .eth, .nor, .ing, .rfm, .ctx] u := by
        have e1 := congrArg Prod.fst e
        dsimp only at e1
        rw [← e1]
        exact keepsBut_step keeps_State_answered (by decide) (by assumption)
      extract_lets +onlyGivenNames x1
      have hx1 : State.keepsBut s [.plc, .way, .host, .limits, .cch, .regs, .out, .upd, .txn, .eth, .nor, .ing, .rfm, .ctx] x1 := by
        unfold x1
        refine keepsBut_step keeps_State_heardMeter (by decide) ?_
        exact keepsBut_step keeps_State_finalAnswerQ (by decide) (by assumption)
      try clear_value x1
      refine keepsBut_step keeps_State_bump (by decide) ?_
      exact keepsBut_step keeps_State_addEntry (by decide) (by assumption)

theorem keeps_State_byState {s : State} {v : Arrival} {a : Apdu} :
    s.keepsBut [.plc, .way, .host, .limits, .cch, .regs, .out, .upd, .txn, .eth, .nor, .val, .hwl, .ing, .rfm, .ctx] (s.byState v a) := by
  have h0 : State.keepsBut s [.plc, .way, .host, .limits, .cch, .regs, .out, .upd, .txn, .eth, .nor, .val, .hwl, .ing, .rfm, .ctx] s :=
      keepsBut_refl _ _
  unfold State.byState
  extract_lets +onlyGivenNames x0
  try clear_value x0
  extract_lets +onlyGivenNames x1
  try clear_value x1
  split
  · exact keepsBut_step keeps_State_unknownMeter (by decide) (by assumption)
  · exact keepsBut_step keeps_State_fullPath (by decide) (by assumption)
  · exact keepsBut_step keeps_State_fullPath (by decide) (by assumption)
  · exact keepsBut_step keeps_State_forwardSealed (by decide) (by assumption)
  · refine keepsBut_ite ?_ ?_
    · exact keepsBut_step keeps_State_fullPath (by decide) (by assumption)
    · exact keepsBut_step keeps_State_misdelivered (by decide) (by assumption)
  · exact keepsBut_step keeps_State_noteMeter (by decide) (by assumption)
  · exact keepsBut_step keeps_State_note (by decide) (by assumption)

theorem keeps_State_relayedRecord {s : State} {l : ℕ} {i : ℕ} {e : RelayEntry} {r : Record} :
    s.keepsBut [.way, .host, .limits, .regs, .out, .val] (s.relayedRecord l i e r) := by
  have h0 : State.keepsBut s [.way, .host, .limits, .regs, .out, .val] s := keepsBut_refl _ _
  unfold State.relayedRecord
  refine keepsBut_ite ?_ ?_
  · exact keepsBut_step keeps_State_note (by decide) (by assumption)
  · extract_lets +onlyGivenNames x0
    try clear_value x0
    exact keepsBut_step keeps_State_toVal (by decide) (by assumption)

theorem keeps_State_entryPath {s : State} {l : ℕ} {i? : Option ℕ} {e : RelayEntry} {src : ℕ} {sender : Option ℕ} :
    s.keepsBut [.plc, .way, .ful, .host, .limits, .cch, .bal, .regs, .out, .upd, .txn, .eth, .nor, .val, .hwl, .ing, .rfm, .ctx]
        (s.entryPath l i? e src sender) := by
  have h0 : State.keepsBut s [.plc, .way, .ful, .host, .limits, .cch, .bal, .regs, .out, .upd, .txn, .eth, .nor, .val, .hwl, .ing,
      .rfm, .ctx] s := keepsBut_refl _ _
  unfold State.entryPath
  split
  · refine keepsBut_ite ?_ ?_
    · exact keepsBut_step keeps_State_feederArrived (by decide) (by assumption)
    · exact keepsBut_step keeps_State_note (by decide) (by assumption)
  · split
    · exact keepsBut_step keeps_State_misdelivered (by decide) (by assumption)
    · refine keepsBut_ite ?_ ?_
      · exact keepsBut_step keeps_State_misdelivered (by decide) (by assumption)
      · extract_lets +onlyGivenNames y0
        try clear_value y0
        extract_lets +onlyGivenNames x0
        have hx0 : State.keepsBut s [.plc, .way, .ful, .host, .limits, .cch, .bal, .regs, .out, .upd, .txn, .eth, .nor, .val, .hwl,
            .ing, .rfm, .ctx] x0 := by
          unfold x0
          split
          · exact keepsBut_step keeps_with_ing (by decide) (by assumption)
          · assumption
        try clear_value x0
        split
        · refine keepsBut_step keeps_State_bump (by decide) ?_
          exact keepsBut_step keeps_State_heardMeter (by decide) (by assumption)
        · split
          · exact keepsBut_step keeps_State_unknownMeter (by decide) (by assumption)
          · exact keepsBut_step keeps_State_note (by decide) (by assumption)
          · exact keepsBut_step keeps_State_relayedRecord (by decide) (by assumption)
        · exact keepsBut_step keeps_State_byState (by decide) (by assumption)
        · assumption

theorem keeps_State_pastContext {s : State} {l : ℕ} {x : LaneItem} :
    s.keepsBut [.plc, .way, .ful, .host, .limits, .cch, .bal, .regs, .out, .upd, .txn, .eth, .nor, .val, .hwl, .ing, .rfm, .ctx]
        (s.pastContext l x) := by
  have h0 : State.keepsBut s [.plc, .way, .ful, .host, .limits, .cch, .bal, .regs, .out, .upd, .txn, .eth, .nor, .val, .hwl, .ing,
      .rfm, .ctx] s := keepsBut_refl _ _
  unfold State.pastContext
  extract_lets +onlyGivenNames x0
  have hx0 : State.keepsBut s [.plc, .way, .ful, .host, .limits, .cch, .bal, .regs, .out, .upd, .txn, .eth, .nor, .val, .hwl, .ing,
      .rfm, .ctx] x0 := by
    unfold x0
    exact keepsBut_step keeps_State_leaveLane (by decide) (by assumption)
  try clear_value x0
  split
  · exact keepsBut_step keeps_State_entryPath (by decide) (by assumption)
  · split
    · refine keepsBut_ite ?_ ?_
      · exact keepsBut_step keeps_State_note (by decide) (by assumption)
      · exact keepsBut_step keeps_State_entryPath (by decide) (by assumption)
    · exact keepsBut_step keeps_State_byState (by decide) (by assumption)
    · exact keepsBut_step keeps_State_builtRecord (by decide) (by assumption)
    · assumption
  · assumption

theorem keeps_State_noMajority {s : State} {i : ℕ} {seq : BitVec 32} :
    s.keepsBut [.ful, .host, .regs, .out, .bil, .ing] (s.noMajority i seq) := by
  have h0 : State.keepsBut s [.ful, .host, .regs, .out, .bil, .ing] s := keepsBut_refl _ _
  unfold State.noMajority
  extract_lets +onlyGivenNames x0
  try clear_value x0
  extract_lets +onlyGivenNames x1
  have hx1 : State.keepsBut s [.ful, .host, .regs, .out, .bil, .ing] x1 := by
    unfold x1
    refine keepsBut_step keeps_State_bump (by decide) ?_
    refine keepsBut_step keeps_State_raiseInt (by decide) ?_
    exact keepsBut_step keeps_State_freezeMeter (by decide) (by assumption)
  try clear_value x1
  extract_lets +onlyGivenNames x2
  have hx2 : State.keepsBut s [.ful, .host, .regs, .out, .bil, .ing] x2 := by
    unfold x2
    exact keepsBut_step keeps_State_reportOut (by decide) (by assumption)
  try clear_value x2
  exact keepsBut_step keeps_with_bil (by decide) (by assumption)

end Sys2Proof.Machine
end

