-- ==== Sys2Proof/Laws/Keeps06.lean ====
section
/-!
SUPPORT. What each shared operation leaves of the state, one lemma an operation, an operation after those it is built from: from `rebuildNoMajority`
to `runLegal`.
-/

namespace Sys2Proof.Machine

theorem keeps_State_rebuildNoMajority {s : State} {e : StoreEntry} {i : Option ℕ} :
    s.keepsBut [.ful, .host, .regs, .out, .bil, .ing] (s.rebuildNoMajority e i) := by
  have h0 : State.keepsBut s [.ful, .host, .regs, .out, .bil, .ing] s := keepsBut_refl _ _
  unfold State.rebuildNoMajority
  split
  · extract_lets +onlyGivenNames x0
    have hx0 : State.keepsBut s [.ful, .host, .regs, .out, .bil, .ing] x0 := by
      unfold x0
      refine keepsBut_step keeps_State_bump (by decide) ?_
      exact keepsBut_step keeps_State_raiseInt (by decide) (by assumption)
    try clear_value x0
    exact keepsBut_step keeps_with_bil (by decide) (by assumption)
  · split
    · refine keepsBut_step keeps_State_journal (by decide) ?_
      exact keepsBut_step keeps_State_noMajority (by decide) (by assumption)
    · exact keepsBut_step keeps_State_noMajority (by decide) (by assumption)

theorem keeps_State_rebuildFreeze {s : State} {i : ℕ} {g : Gmn} {q : BitVec 32} {c : ℕ} {past : List StoreEntry} :
    s.keepsBut [.ful, .bil] (s.rebuildFreeze i g q c past) := by
  have h0 : State.keepsBut s [.ful, .bil] s := keepsBut_refl _ _
  unfold State.rebuildFreeze
  extract_lets +onlyGivenNames x0
  try clear_value x0
  extract_lets +onlyGivenNames x1
  try clear_value x1
  extract_lets +onlyGivenNames x2
  try clear_value x2
  extract_lets +onlyGivenNames x3
  have hx3 : State.keepsBut s [.ful, .bil] x3 := by
    unfold x3
    refine keepsBut_foldl ?_ ?_
    · intro u a hu
      try beta_reduce
      · exact keepsBut_step keeps_State_rebuildRecord (by decide) (by assumption)
    · assumption
  try clear_value x3
  exact keepsBut_step keeps_State_rebuildPut (by decide) (by assumption)

theorem keeps_State_rebuildEntry {s u : State} {e : StoreEntry} {past later : List StoreEntry} {i : Option Nat}
    (h : s.rebuildEntry e past later = some (i, u)) : s.keepsBut [.way, .ful, .host, .limits, .regs, .out, .bil, .ing] u := by
  have h0 : State.keepsBut s [.way, .ful, .host, .limits, .regs, .out, .bil, .ing] s := keepsBut_refl _ _
  unfold State.rebuildEntry at h
  split at h
  · cases h
  · injection h with h
    injection h with h1 h
    subst h
    exact keeps_with_bil.weaken (by decide)
  · cases h
  · cases h
  · split at h
    · cases h
    · split at h
      · split at h
        · cases h
        · split at h
          · cases h
          · injection h with h
            injection h with h1 h
            subst h
            exact keeps_State_rebuildRecord.weaken (by decide)
      · injection h with h
        injection h with h1 h
        subst h
        exact keeps_State_rebuildOp.weaken (by decide)
      · injection h with h
        injection h with h1 h
        subst h
        refine keepsBut_step keeps_with_bil (by decide) ?_
        exact keeps_State_setSlot.weaken (by decide)
      · injection h with h
        injection h with h1 h
        subst h
        exact keeps_State_rebuildFreeze.weaken (by decide)
      · cases h

theorem keeps_State_rebuildAll {s : State} {a1 : List (ℕ × StoreEntry)} {a2 : List StoreEntry} {a3 : List (List UnitAnswer)} :
    s.keepsBut [.way, .ful, .host, .limits, .regs, .out, .bil, .ing] (s.rebuildAll a1 a2 a3) := by
  induction a1 generalizing s a2 a3 with
  | nil => exact keeps_with_bil.weaken (by decide)
  | cons e rest ih =>
    rw [State.rebuildAll]
    split
    · exact ih
    · rename_i i u hx
      have hu : s.keepsBut [.way, .ful, .host, .limits, .regs, .out, .bil, .ing] u := keeps_State_rebuildEntry hx
      dsimp only
      split
      · refine keepsBut_step ih (by decide) ?_
        refine keepsBut_foldl ?_ ?_
        · intro w a hw
          exact keepsBut_step keeps_State_outvote (by decide) hw
        · refine keepsBut_step keeps_with_bil (by decide) ?_
          split
          · exact keepsBut_step keeps_with_bil (by decide) hu
          · exact hu
      · refine keepsBut_step keeps_with_bil (by decide) ?_
        refine keepsBut_step keeps_State_rebuildNoMajority (by decide) ?_
        exact keeps_with_bil.weaken (by decide)

theorem keeps_State_failSensor {s : State} {n : ℕ} :
    s.keepsBut [.way, .host, .limits, .regs, .out, .pwr] (s.failSensor n) := by
  have h0 : State.keepsBut s [.way, .host, .limits, .regs, .out, .pwr] s := keepsBut_refl _ _
  unfold State.failSensor
  refine keepsBut_step keeps_State_note (by decide) ?_
  refine keepsBut_step keeps_State_raiseInt (by decide) ?_
  exact keepsBut_step keeps_State_modPwr (by decide) (by assumption)

theorem keeps_State_setPortWord {s : State} {q : ℕ} {w : ℕ} {v : Word} :
    s.keepsBut [.way] (s.setPortWord q w v) := by
  have h0 : State.keepsBut s [.way] s := keepsBut_refl _ _
  unfold State.setPortWord
  exact keepsBut_step keeps_with_way (by decide) (by assumption)

theorem keeps_State_submitPort {s : State} {q : ℕ} {g : LogId} {allowed : Bool} {v : Word} :
    s.keepsBut [.way, .host, .regs, .out] (s.submitPort q g allowed v) := by
  have h0 : State.keepsBut s [.way, .host, .regs, .out] s := keepsBut_refl _ _
  unfold State.submitPort
  extract_lets +onlyGivenNames x0
  have hx0 : State.keepsBut s [.way, .host, .regs, .out] x0 := by
    unfold x0
    exact keepsBut_step keeps_State_setPortWord (by decide) (by assumption)
  try clear_value x0
  extract_lets +onlyGivenNames x1
  try clear_value x1
  extract_lets +onlyGivenNames x2
  try clear_value x2
  extract_lets +onlyGivenNames x3
  try clear_value x3
  extract_lets +onlyGivenNames x4
  try clear_value x4
  extract_lets +onlyGivenNames x5
  try clear_value x5
  refine keepsBut_ite ?_ ?_
  · exact keepsBut_step keeps_State_bump (by decide) (by assumption)
  · exact keepsBut_step keeps_State_event (by decide) (by assumption)

theorem keeps_State_identifyPhase {s : State} {i : ℕ} {r : Record} {rotation : Bool} {tref : ℕ} :
    s.keepsBut [.way, .ful, .host, .limits, .regs, .out, .ctx] (s.identifyPhase i r rotation tref) := by
  have h0 : State.keepsBut s [.way, .ful, .host, .limits, .regs, .out, .ctx] s := keepsBut_refl _ _
  unfold State.identifyPhase
  refine keepsBut_ite ?_ ?_
  · assumption
  · split
    · exact keepsBut_step keeps_State_bump (by decide) (by assumption)
    · extract_lets +onlyGivenNames x0
      try clear_value x0
      extract_lets +onlyGivenNames x1
      try clear_value x1
      extract_lets +onlyGivenNames x2
      have hx2 : State.keepsBut s [.way, .ful, .host, .limits, .regs, .out, .ctx] x2 := by
        unfold x2
        exact keepsBut_step keeps_State_modBal (by decide) (by assumption)
      try clear_value x2
      refine keepsBut_ite ?_ ?_
      · exact keepsBut_step keeps_State_confirmPhase (by decide) (by assumption)
      · assumption

theorem keeps_State_addShare {s : State} {g : ℕ} {i : ℕ} {p : ℤ × ℤ} :
    s.keepsBut [.bal, .regs] (s.addShare g i p) := by
  have h0 : State.keepsBut s [.bal, .regs] s := keepsBut_refl _ _
  unfold State.addShare
  extract_lets +onlyGivenNames x0
  try clear_value x0
  refine keepsBut_ite ?_ ?_
  · exact keepsBut_step keeps_State_bump (by decide) (by assumption)
  · exact keepsBut_step keeps_State_setBalGroup (by decide) (by assumption)

theorem keeps_State_snapLatch {s : State} {g : ℕ} {i : ℕ} {r : Record} :
    s.keepsBut [.bal, .regs] (s.snapLatch g i r) := by
  have h0 : State.keepsBut s [.bal, .regs] s := keepsBut_refl _ _
  unfold State.snapLatch
  extract_lets +onlyGivenNames x0
  try clear_value x0
  refine keepsBut_ite ?_ ?_
  · exact keepsBut_step keeps_State_bump (by decide) (by assumption)
  · extract_lets +onlyGivenNames x1
    try clear_value x1
    exact keepsBut_step keeps_with_bal (by decide) (by assumption)

theorem keeps_State_noteFlags {s : State} {i : ℕ} {r : Record} {tref : ℕ} :
    s.keepsBut [.ctx] (s.noteFlags i r tref) := by
  have h0 : State.keepsBut s [.ctx] s := keepsBut_refl _ _
  unfold State.noteFlags
  extract_lets +onlyGivenNames x0
  try clear_value x0
  refine keepsBut_ite ?_ ?_
  · assumption
  · exact keepsBut_step keeps_State_modBal (by decide) (by assumption)

theorem keeps_State_feederMeter {s : State} {r : Record} {tref : ℕ} {k : Option ℤ} {deltas : List (Option ℕ)} {g : ℕ} :
    s.keepsBut [.bal] (s.feederMeter r tref k deltas g) := by
  have h0 : State.keepsBut s [.bal] s := keepsBut_refl _ _
  unfold State.feederMeter
  extract_lets +onlyGivenNames x0
  try clear_value x0
  refine keepsBut_ite ?_ ?_
  · assumption
  · extract_lets +onlyGivenNames x1
    try clear_value x1
    extract_lets +onlyGivenNames x2
    try clear_value x2
    extract_lets +onlyGivenNames x3
    have hx3 : State.keepsBut s [.bal] x3 := by
      unfold x3
      exact keepsBut_step keeps_State_setBalGroup (by decide) (by assumption)
    try clear_value x3
    refine keepsBut_foldl ?_ ?_
    · intro u a hu
      try beta_reduce
      · extract_lets +onlyGivenNames x4
        try clear_value x4
        exact keepsBut_step keeps_State_setBalGroup (by decide) (by assumption)
    · assumption

theorem keeps_State_channelFrame {s : State} {i : ℕ} {p : ℕ} {att : List ℕ} {snr : ℕ} {rx : ℕ} :
    s.keepsBut [.way, .ful, .host, .limits, .bal, .regs, .out, .ctx] (s.channelFrame i p att snr rx) := by
  have h0 : State.keepsBut s [.way, .ful, .host, .limits, .bal, .regs, .out, .ctx] s := keepsBut_refl _ _
  unfold State.channelFrame
  extract_lets +onlyGivenNames x0
  try clear_value x0
  extract_lets +onlyGivenNames x1
  try clear_value x1
  extract_lets +onlyGivenNames x2
  try clear_value x2
  extract_lets +onlyGivenNames x3
  try clear_value x3
  extract_lets +onlyGivenNames x4
  try clear_value x4
  refine keepsBut_ite ?_ ?_
  · exact keepsBut_step keeps_State_setSignature (by decide) (by assumption)
  · extract_lets +onlyGivenNames x5
    try clear_value x5
    refine keepsBut_ite ?_ ?_
    · refine keepsBut_ite ?_ ?_
      · exact keepsBut_step keeps_State_setSignature (by decide) (by assumption)
      · exact keepsBut_step keeps_State_setSignature (by decide) (by assumption)
    · refine keepsBut_ite ?_ ?_
      · refine keepsBut_step keeps_State_bump (by decide) ?_
        exact keepsBut_step keeps_State_setSignature (by decide) (by assumption)
      · refine keepsBut_ite ?_ ?_
        · extract_lets +onlyGivenNames x6
          try clear_value x6
          refine keepsBut_ite ?_ ?_
          · exact keepsBut_step keeps_State_confirmStep (by decide) (by assumption)
          · exact keepsBut_step keeps_State_setSignature (by decide) (by assumption)
        · exact keepsBut_step keeps_State_setSignature (by decide) (by assumption)

theorem keeps_State_trackEstimate {s : State} {i : ℕ} {e : ChannelEst} {rx : ℕ} :
    s.keepsBut [.way, .ful, .host, .limits, .bal, .regs, .out, .ctx] (s.trackEstimate i e rx) := by
  have h0 : State.keepsBut s [.way, .ful, .host, .limits, .bal, .regs, .out, .ctx] s := keepsBut_refl _ _
  unfold State.trackEstimate
  refine keepsBut_ite ?_ ?_
  · exact keepsBut_step keeps_State_channelFrame (by decide) (by assumption)
  · assumption

theorem keeps_State_trackRecord {s : State} {i : ℕ} {r : Record} {rxCycle : BitVec 48} :
    s.keepsBut [.plc, .way, .ful, .host, .limits, .bal, .regs, .out, .ctx] (s.trackRecord i r rxCycle) := by
  have h0 : State.keepsBut s [.plc, .way, .ful, .host, .limits, .bal, .regs, .out, .ctx] s := keepsBut_refl _ _
  unfold State.trackRecord
  extract_lets +onlyGivenNames x0
  try clear_value x0
  extract_lets +onlyGivenNames x1
  try clear_value x1
  extract_lets +onlyGivenNames x2
  have hx2 : State.keepsBut s [.plc, .way, .ful, .host, .limits, .bal, .regs, .out, .ctx] x2 := by
    unfold x2
    exact keepsBut_step keeps_with_plc (by decide) (by assumption)
  try clear_value x2
  refine keepsBut_foldl ?_ ?_
  · intro u a hu
    try beta_reduce
    · exact keepsBut_step keeps_State_trackEstimate (by decide) (by assumption)
  · assumption

theorem keeps_State_feederLatch {s : State} {r : Record} {g : ℕ} :
    s.keepsBut [.bal] (s.feederLatch r g) := by
  have h0 : State.keepsBut s [.bal] s := keepsBut_refl _ _
  unfold State.feederLatch
  extract_lets +onlyGivenNames x0
  try clear_value x0
  extract_lets +onlyGivenNames x1
  try clear_value x1
  refine keepsBut_ite ?_ ?_
  · assumption
  · extract_lets +onlyGivenNames x2
    try clear_value x2
    extract_lets +onlyGivenNames x3
    try clear_value x3
    refine keepsBut_step keeps_State_setBalGroup (by decide) ?_
    exact keepsBut_step keeps_with_bal (by decide) (by assumption)

theorem keeps_State_balRecord {s : State} {i : ℕ} {r : Record} {rxCycle : BitVec 48} {tref : ℕ} {k : Option ℤ} {deltas : List (Option
    ℕ)} {rotation : Bool} :
    s.keepsBut [.plc, .way, .ful, .host, .limits, .bal, .regs, .out, .ctx] (s.balRecord i r rxCycle tref k deltas rotation) := by
  have h0 : State.keepsBut s [.plc, .way, .ful, .host, .limits, .bal, .regs, .out, .ctx] s := keepsBut_refl _ _
  unfold State.balRecord
  extract_lets +onlyGivenNames x0
  have hx0 : State.keepsBut s [.plc, .way, .ful, .host, .limits, .bal, .regs, .out, .ctx] x0 := by
    unfold x0
    exact keepsBut_step keeps_State_bump (by decide) (by assumption)
  try clear_value x0
  extract_lets +onlyGivenNames x1
  try clear_value x1
  refine keepsBut_ite ?_ ?_
  · exact keepsBut_step keeps_State_noteFlags (by decide) (by assumption)
  · extract_lets +onlyGivenNames x2
    have hx2 : State.keepsBut s [.plc, .way, .ful, .host, .limits, .bal, .regs, .out, .ctx] x2 := by
      unfold x2
      refine keepsBut_step keeps_State_trackRecord (by decide) ?_
      exact keepsBut_step keeps_State_identifyPhase (by decide) (by assumption)
    try clear_value x2
    extract_lets +onlyGivenNames x3
    have hx3 : State.keepsBut s [.plc, .way, .ful, .host, .limits, .bal, .regs, .out, .ctx] x3 := by
      unfold x3
      refine keepsBut_step keeps_State_noteFlags (by decide) ?_
      exact keepsBut_step keeps_State_noteReverse (by decide) (by assumption)
    try clear_value x3
    extract_lets +onlyGivenNames x4
    try clear_value x4
    extract_lets +onlyGivenNames x5
    try clear_value x5
    extract_lets +onlyGivenNames x6
    try clear_value x6
    extract_lets +onlyGivenNames x7
    have hx7 : State.keepsBut s [.plc, .way, .ful, .host, .limits, .bal, .regs, .out, .ctx] x7 := by
      unfold x7
      refine keepsBut_ite ?_ ?_
      · refine keepsBut_foldl ?_ ?_
        · intro u a hu
          try beta_reduce
          · exact keepsBut_step keeps_State_addShare (by decide) (by assumption)
        · assumption
      · assumption
    try clear_value x7
    extract_lets +onlyGivenNames x8
    have hx8 : State.keepsBut s [.plc, .way, .ful, .host, .limits, .bal, .regs, .out, .ctx] x8 := by
      unfold x8
      refine keepsBut_ite ?_ ?_
      · exact keepsBut_step keeps_State_snapLatch (by decide) (by assumption)
      · assumption
    try clear_value x8
    extract_lets +onlyGivenNames x9
    try clear_value x9
    refine keepsBut_foldl ?_ ?_
    · intro u a hu
      try beta_reduce
      · refine keepsBut_step keeps_State_feederLatch (by decide) ?_
        exact keepsBut_step keeps_State_feederMeter (by decide) (by assumption)
    · assumption

theorem keeps_State_headTariff {s : State} {x : ℕ × TariffSet} :
    s.keepsBut [.ful] (s.headTariff x) := by
  have h0 : State.keepsBut s [.ful] s := keepsBut_refl _ _
  unfold State.headTariff
  extract_lets +onlyGivenNames x0
  try clear_value x0
  exact keepsBut_step keeps_with_ful (by decide) (by assumption)

theorem keeps_State_append4 {s : State} {slot : ℕ} {x : TariffSet} :
    s.keepsBut [.way, .ful, .host, .limits, .regs, .out] (s.append4 slot x) := by
  have h0 : State.keepsBut s [.way, .ful, .host, .limits, .regs, .out] s := keepsBut_refl _ _
  unfold State.append4
  extract_lets +onlyGivenNames x0
  try clear_value x0
  refine keepsBut_ite ?_ ?_
  · extract_lets +onlyGivenNames x1
    try clear_value x1
    extract_lets +onlyGivenNames x2
    try clear_value x2
    extract_lets +onlyGivenNames x3
    try clear_value x3
    extract_lets +onlyGivenNames x4
    have hx4 : State.keepsBut s [.way, .ful, .host, .limits, .regs, .out] x4 := by
      unfold x4
      refine keepsBut_step keeps_State_released (by decide) ?_
      exact keepsBut_step keeps_with_ful (by decide) (by assumption)
    try clear_value x4
    refine keepsBut_step keeps_State_headTariff (by decide) ?_
    refine keepsBut_foldl ?_ ?_
    · intro u a hu
      try beta_reduce
      · exact keepsBut_step keeps_State_headTariff (by decide) (by assumption)
    · assumption
  · exact keepsBut_step keeps_State_headTariff (by decide) (by assumption)

theorem keeps_State_keepCaps {s : State} {slot : ℕ} {caps : BitVec 16} :
    s.keepsBut [.plc] (s.keepCaps slot caps) := by
  have h0 : State.keepsBut s [.plc] s := keepsBut_refl _ _
  unfold State.keepCaps
  exact keepsBut_step keeps_State_modPlc (by decide) (by assumption)

theorem keeps_State_floodAll {s : State} {w : LinkWork} {a : Apdu} {slot : Option ℕ} {dst : ℕ} {ttl : ℕ} :
    s.keepsBut [.draws, .rfm] (s.floodAll w a slot dst ttl) := by
  have h0 : State.keepsBut s [.draws, .rfm] s := keepsBut_refl _ _
  unfold State.floodAll
  refine keepsBut_foldl ?_ ?_
  · intro u a hu
    try beta_reduce
    · refine keepsBut_ite ?_ ?_
      · exact keepsBut_step keeps_State_meshQueue (by decide) (by assumption)
      · assumption
  · assumption

theorem keeps_State_newSleepy {s : State} {i : ℕ} :
    s.keepsBut [.regs, .draws, .rfm, .ctx] (s.newSleepy i) := by
  have h0 : State.keepsBut s [.regs, .draws, .rfm, .ctx] s := keepsBut_refl _ _
  unfold State.newSleepy
  extract_lets +onlyGivenNames x0
  try clear_value x0
  refine keepsBut_ite ?_ ?_
  · assumption
  · split
    · extract_lets +onlyGivenNames x1
      have hx1 : State.keepsBut s [.regs, .draws, .rfm, .ctx] x1 := by
        unfold x1
        refine keepsBut_step keeps_State_bump (by decide) ?_
        exact keepsBut_step keeps_State_modRadio (by decide) (by assumption)
      try clear_value x1
      exact keepsBut_step keeps_State_floodAll (by decide) (by assumption)
    · extract_lets +onlyGivenNames x2
      have hx2 : State.keepsBut s [.regs, .draws, .rfm, .ctx] x2 := by
        unfold x2
        refine keepsBut_step keeps_State_bump (by decide) ?_
        exact keepsBut_step keeps_State_modRadio (by decide) (by assumption)
      try clear_value x2
      exact keepsBut_step keeps_State_floodAll (by decide) (by assumption)

theorem keeps_State_meshJoin {s : State} {h : MeshHeard} {hops : ℕ} :
    s.keepsBut [.plc, .way, .host, .limits, .regs, .out, .draws, .rfm, .ctx] (s.meshJoin h hops) := by
  have h0 : State.keepsBut s [.plc, .way, .host, .limits, .regs, .out, .draws, .rfm, .ctx] s := keepsBut_refl _ _
  unfold State.meshJoin
  extract_lets +onlyGivenNames x0
  try clear_value x0
  extract_lets +onlyGivenNames x1
  try clear_value x1
  extract_lets +onlyGivenNames x2
  try clear_value x2
  extract_lets +onlyGivenNames x3
  try clear_value x3
  split
  · extract_lets +onlyGivenNames x4
    have hx4 : State.keepsBut s [.plc, .way, .host, .limits, .regs, .out, .draws, .rfm, .ctx] x4 := by
      unfold x4
      refine keepsBut_step keeps_State_modRadio (by decide) ?_
      exact keepsBut_step keeps_State_keepCaps (by decide) (by assumption)
    try clear_value x4
    extract_lets +onlyGivenNames x5
    have hx5 : State.keepsBut s [.plc, .way, .host, .limits, .regs, .out, .draws, .rfm, .ctx] x5 := by
      unfold x5
      exact keepsBut_step keeps_State_floodAll (by decide) (by assumption)
    try clear_value x5
    refine keepsBut_ite ?_ ?_
    · exact keepsBut_step keeps_State_newSleepy (by decide) (by assumption)
    · assumption
  · refine keepsBut_step keeps_State_bump (by decide) ?_
    refine keepsBut_step keeps_State_eventLimited (by decide) ?_
    exact keepsBut_step keeps_State_raiseInt (by decide) (by assumption)

theorem keeps_State_spoilHeaders {s : State} {bad : List ℕ} :
    s.keepsBut [.way] (s.spoilHeaders bad) := by
  have h0 : State.keepsBut s [.way] s := keepsBut_refl _ _
  unfold State.spoilHeaders
  refine keepsBut_foldl ?_ ?_
  · intro u a hu
    try beta_reduce
    · exact keepsBut_step keeps_State_modLog (by decide) (by assumption)
  · assumption

theorem keeps_State_fuseItem {e : StartEnv} {s : State} {id : ℕ} :
    s.keepsBut [.way, .host, .limits, .regs, .out, .sec] (State.fuseItem e s id) := by
  have h0 : State.keepsBut s [.way, .host, .limits, .regs, .out, .sec] s := keepsBut_refl _ _
  unfold State.fuseItem
  split
  · assumption
  · refine keepsBut_ite ?_ ?_
    · exact keepsBut_step keeps_State_note (by decide) (by assumption)
    · refine keepsBut_ite ?_ ?_
      · refine keepsBut_step keeps_State_note (by decide) ?_
        exact keepsBut_step keeps_State_raiseInt (by decide) (by assumption)
      · refine keepsBut_step keeps_State_event (by decide) ?_
        refine keepsBut_step keeps_State_bump (by decide) ?_
        exact keepsBut_step keeps_State_modSec (by decide) (by assumption)

theorem keeps_State_burnFuses {e : StartEnv} {s : State} :
    s.keepsBut [.way, .host, .limits, .regs, .out, .sec] (State.burnFuses e s) := by
  have h0 : State.keepsBut s [.way, .host, .limits, .regs, .out, .sec] s := keepsBut_refl _ _
  unfold State.burnFuses
  refine keepsBut_foldl ?_ ?_
  · intro u a hu
    try beta_reduce
    · exact keepsBut_step keeps_State_fuseItem (by decide) (by assumption)
  · assumption

theorem keeps_State_runHostTime {s : State} {j : Job} {sec : ℕ} {ns : ℕ} :
    s.keepsBut [.way, .host, .limits, .cch, .tim, .regs, .out, .upd, .eth, .sec] (s.runHostTime j sec ns) := by
  have h0 : State.keepsBut s [.way, .host, .limits, .cch, .tim, .regs, .out, .upd, .eth, .sec] s := keepsBut_refl _ _
  unfold State.runHostTime
  refine keepsBut_ite ?_ ?_
  · exact keepsBut_step keeps_State_rejectJob (by decide) (by assumption)
  · refine keeps_State_onAccept (by decide) ?_ ?_
    · intro u hu
      try beta_reduce
      extract_lets +onlyGivenNames x0
      try clear_value x0
      refine keepsBut_step keeps_State_jobDone (by decide) ?_
      refine keepsBut_ite ?_ ?_
      · exact keepsBut_step keeps_State_passSample (by decide) (by assumption)
      · assumption
    · assumption

theorem keeps_State_plcCombine {s : State} {h : PlcHeard} :
    s.keepsBut [.plc] (s.plcCombine h) := by
  have h0 : State.keepsBut s [.plc] s := keepsBut_refl _ _
  unfold State.plcCombine
  extract_lets +onlyGivenNames x0
  try clear_value x0
  refine keepsBut_ite ?_ ?_
  · exact keepsBut_step keeps_State_modPlc (by decide) (by assumption)
  · exact keepsBut_step keeps_State_modPlc (by decide) (by assumption)

theorem keeps_State_toLongPreamble {s : State} {i : ℕ} :
    s.keepsBut [.rfm] (s.toLongPreamble i) := by
  have h0 : State.keepsBut s [.rfm] s := keepsBut_refl _ _
  unfold State.toLongPreamble
  exact keepsBut_step keeps_State_modRfm (by decide) (by assumption)

theorem keeps_State_reseedRest {s : State} :
    s.keepsBut [.txn] (s.reseedRest) := by
  have h0 : State.keepsBut s [.txn] s := keepsBut_refl _ _
  unfold State.reseedRest
  refine keepsBut_ite ?_ ?_
  · assumption
  · extract_lets +onlyGivenNames x0
    try clear_value x0
    extract_lets +onlyGivenNames x1
    try clear_value x1
    exact keepsBut_step keeps_with_txn (by decide) (by assumption)

theorem keeps_State_plcJoin {s : State} {h : PlcHeard} :
    s.keepsBut [.plc, .way, .host, .limits, .regs, .out, .draws] (s.plcJoin h) := by
  have h0 : State.keepsBut s [.plc, .way, .host, .limits, .regs, .out, .draws] s := keepsBut_refl _ _
  unfold State.plcJoin
  extract_lets +onlyGivenNames x0
  try clear_value x0
  extract_lets +onlyGivenNames x1
  try clear_value x1
  split
  · refine keepsBut_step keeps_State_plcQueue (by decide) ?_
    exact keepsBut_step keeps_State_keepCaps (by decide) (by assumption)
  · refine keepsBut_step keeps_State_bump (by decide) ?_
    refine keepsBut_step keeps_State_eventLimited (by decide) ?_
    exact keepsBut_step keeps_State_raiseInt (by decide) (by assumption)

theorem keeps_State_jobFailed {s : State} {j : JobRef} {reason : Reason} :
    s.keepsBut [.host, .regs] (s.jobFailed j reason) := by
  have h0 : State.keepsBut s [.host, .regs] s := keepsBut_refl _ _
  unfold State.jobFailed
  exact keepsBut_step keeps_State_finishJob (by decide) (by assumption)

theorem keeps_State_runBootHeader {s : State} {j : Job} {h : BootHeader} {fails : Bool} :
    s.keepsBut [.way, .host, .limits, .cch, .regs, .out, .upd, .nor, .sec] (s.runBootHeader j h fails) := by
  have h0 : State.keepsBut s [.way, .host, .limits, .cch, .regs, .out, .upd, .nor, .sec] s := keepsBut_refl _ _
  unfold State.runBootHeader
  refine keepsBut_ite ?_ ?_
  · exact keepsBut_step keeps_State_rejectJob (by decide) (by assumption)
  · refine keeps_State_onAccept (by decide) ?_ ?_
    · intro u hu
      try beta_reduce
      extract_lets +onlyGivenNames x0
      try clear_value x0
      extract_lets +onlyGivenNames x1
      have hx1 : State.keepsBut s [.way, .host, .limits, .cch, .regs, .out, .upd, .nor, .sec] x1 := by
        unfold x1
        exact keepsBut_step keeps_with_nor (by decide) (by assumption)
      try clear_value x1
      extract_lets +onlyGivenNames x2
      have hx2 : State.keepsBut s [.way, .host, .limits, .cch, .regs, .out, .upd, .nor, .sec] x2 := by
        unfold x2
        exact keepsBut_step keeps_State_event (by decide) (by assumption)
      try clear_value x2
      refine keepsBut_ite ?_ ?_
      · exact keepsBut_step keeps_State_jobFailed (by decide) (by assumption)
      · exact keepsBut_step keeps_State_jobDone (by decide) (by assumption)
    · assumption

theorem keeps_State_setPulse {s : State} {o : ℕ} {p : Pulse} :
    s.keepsBut [.tim] (s.setPulse o p) := by
  have h0 : State.keepsBut s [.tim] s := keepsBut_refl _ _
  unfold State.setPulse
  exact keepsBut_step keeps_State_modTim (by decide) (by assumption)

theorem keeps_State_runPulse {s : State} {j : Job} {output : ℕ} {startSec : ℕ} {startNs : ℕ} {period : ℕ} {width : ℕ} :
    s.keepsBut [.way, .host, .limits, .cch, .tim, .regs, .out, .upd, .sec] (s.runPulse j output startSec startNs period width) := by
  have h0 : State.keepsBut s [.way, .host, .limits, .cch, .tim, .regs, .out, .upd, .sec] s := keepsBut_refl _ _
  unfold State.runPulse
  refine keepsBut_ite ?_ ?_
  · exact keepsBut_step keeps_State_rejectJob (by decide) (by assumption)
  · refine keeps_State_onAccept (by decide) ?_ ?_
    · intro u hu
      try beta_reduce
      refine keepsBut_step keeps_State_jobDone (by decide) ?_
      exact keepsBut_step keeps_State_setPulse (by decide) (by assumption)
    · assumption

theorem keeps_State_sendPair {s : State} {query : Bool} {answer : Bool} :
    s.keepsBut [.way, .host, .limits, .regs, .out, .hwl] (s.sendPair query answer) := by
  have h0 : State.keepsBut s [.way, .host, .limits, .regs, .out, .hwl] s := keepsBut_refl _ _
  unfold State.sendPair
  extract_lets +onlyGivenNames x0
  have hx0 : State.keepsBut s [.way, .host, .limits, .regs, .out, .hwl] x0 := by
    unfold x0
    refine keepsBut_ite ?_ ?_
    · assumption
    · exact keepsBut_step keeps_State_modHwl (by decide) (by assumption)
  try clear_value x0
  exact keepsBut_step keeps_State_hwlSend (by decide) (by assumption)

theorem keeps_State_loadLegal {s : State} :
    s.keepsBut [.bil] (s.loadLegal).1 := by
  have h0 : State.keepsBut s [.bil] s := keepsBut_refl _ _
  unfold State.loadLegal
  extract_lets +onlyGivenNames x0
  try clear_value x0
  split
  · dsimp only
    exact keepsBut_step keeps_with_bil (by decide) (by assumption)
  · dsimp only
    exact keepsBut_step keeps_with_bil (by decide) (by assumption)

theorem keeps_State_requeueCores {s : State} :
    s.keepsBut [.cch, .regs] (s.requeueCores) := by
  have h0 : State.keepsBut s [.cch, .regs] s := keepsBut_refl _ _
  unfold State.requeueCores
  refine keepsBut_foldl ?_ ?_
  · intro u a hu
    try beta_reduce
    · split
      · assumption
      · refine keepsBut_step keeps_State_bump (by decide) ?_
        exact keepsBut_step keeps_with_cch (by decide) (by assumption)
  · assumption

theorem keeps_State_endExpert {s : State} {cause : ℕ} :
    s.keepsBut [.way, .host, .regs, .boot, .out] (s.endExpert cause) := by
  have h0 : State.keepsBut s [.way, .host, .regs, .boot, .out] s := keepsBut_refl _ _
  unfold State.endExpert
  split
  · assumption
  · refine keepsBut_step keeps_State_event (by decide) ?_
    exact keepsBut_step keeps_with_boot (by decide) (by assumption)

theorem keeps_State_softPartial {s : State} :
    s.keepsBut [.way, .host, .rst, .cch, .regs, .boot, .out] (s.softPartial) := by
  have h0 : State.keepsBut s [.way, .host, .rst, .cch, .regs, .boot, .out] s := keepsBut_refl _ _
  unfold State.softPartial
  extract_lets +onlyGivenNames x0
  have hx0 : State.keepsBut s [.way, .host, .rst, .cch, .regs, .boot, .out] x0 := by
    unfold x0
    refine keepsBut_step keeps_State_requeueCores (by decide) ?_
    exact keepsBut_step keeps_State_endExpert (by decide) (by assumption)
  try clear_value x0
  extract_lets +onlyGivenNames x1
  try clear_value x1
  extract_lets +onlyGivenNames x2
  have hx2 : State.keepsBut s [.way, .host, .rst, .cch, .regs, .boot, .out] x2 := by
    unfold x2
    exact keepsBut_step keeps_with_rst (by decide) (by assumption)
  try clear_value x2
  refine keepsBut_step keeps_State_event (by decide) ?_
  exact keepsBut_step keeps_State_bump (by decide) (by assumption)

theorem keeps_State_requestPartial {s : State} :
    s.keepsBut [.way, .host, .rst, .cch, .regs, .boot, .out] (s.requestPartial) := by
  have h0 : State.keepsBut s [.way, .host, .rst, .cch, .regs, .boot, .out] s := keepsBut_refl _ _
  unfold State.requestPartial
  split
  · exact keepsBut_step keeps_with_rst (by decide) (by assumption)
  · assumption
  · refine keepsBut_ite ?_ ?_
    · assumption
    · exact keepsBut_step keeps_State_softPartial (by decide) (by assumption)

theorem keeps_State_stopTime {s : State} :
    s.keepsBut [.tim] (s.stopTime) := by
  have h0 : State.keepsBut s [.tim] s := keepsBut_refl _ _
  unfold State.stopTime
  refine keepsBut_ite ?_ ?_
  · assumption
  · exact keepsBut_step keeps_State_modTim (by decide) (by assumption)

theorem keeps_State_ignoreWrite {s : State} {a : ℕ} :
    s.keepsBut [.regs] (s.ignoreWrite a) := by
  have h0 : State.keepsBut s [.regs] s := keepsBut_refl _ _
  unfold State.ignoreWrite
  exact keepsBut_step keeps_State_bumpHalf (by decide) (by assumption)

theorem keeps_State_commitTariff {s : State} {k : ℕ} {x : TariffSet} {ref : Option JobRef} :
    s.keepsBut [.ful, .met, .host, .regs, .bil] (s.commitTariff k x ref) := by
  have h0 : State.keepsBut s [.ful, .met, .host, .regs, .bil] s := keepsBut_refl _ _
  unfold State.commitTariff
  extract_lets +onlyGivenNames x0
  try clear_value x0
  extract_lets +onlyGivenNames x1
  have hx1 : State.keepsBut s [.ful, .met, .host, .regs, .bil] x1 := by
    unfold x1
    exact keepsBut_step keeps_with_bil (by decide) (by assumption)
  try clear_value x1
  extract_lets +onlyGivenNames x2
  have hx2 : State.keepsBut s [.ful, .met, .host, .regs, .bil] x2 := by
    unfold x2
    refine keepsBut_ite ?_ ?_
    · exact keepsBut_step keeps_State_setFeederRate (by decide) (by assumption)
    · assumption
  try clear_value x2
  refine keepsBut_step keeps_State_answerOp (by decide) ?_
  refine keepsBut_step keeps_State_journal (by decide) ?_
  exact keepsBut_step keeps_State_bump (by decide) (by assumption)

theorem keeps_State_zeroMeas {s : State} {ms : List ℕ} :
    s.keepsBut [.sec] (s.zeroMeas ms) := by
  have h0 : State.keepsBut s [.sec] s := keepsBut_refl _ _
  unfold State.zeroMeas
  exact keepsBut_step keeps_State_modSec (by decide) (by assumption)

theorem keeps_State_idConflict {s : State} {serial : BitVec 64} :
    s.keepsBut [.way, .host, .regs, .out, .nor, .hwl] (s.idConflict serial) := by
  have h0 : State.keepsBut s [.way, .host, .regs, .out, .nor, .hwl] s := keepsBut_refl _ _
  unfold State.idConflict
  refine keepsBut_ite ?_ ?_
  · assumption
  · extract_lets +onlyGivenNames x0
    have hx0 : State.keepsBut s [.way, .host, .regs, .out, .nor, .hwl] x0 := by
      unfold x0
      exact keepsBut_step keeps_State_modHwl (by decide) (by assumption)
    try clear_value x0
    extract_lets +onlyGivenNames x1
    try clear_value x1
    extract_lets +onlyGivenNames x2
    have hx2 : State.keepsBut s [.way, .host, .regs, .out, .nor, .hwl] x2 := by
      unfold x2
      exact keepsBut_step keeps_with_nor (by decide) (by assumption)
    try clear_value x2
    refine keepsBut_step keeps_State_reportOut (by decide) ?_
    refine keepsBut_step keeps_State_raiseInt (by decide) ?_
    refine keepsBut_foldl ?_ ?_
    · intro u a hu
      try beta_reduce
      · exact keepsBut_step keeps_State_isolatePort (by decide) (by assumption)
    · assumption

theorem keeps_State_resend {s : State} {k : ℕ} {m : SentMessage} :
    s.keepsBut [.regs, .out, .eth] (s.resend k m) := by
  have h0 : State.keepsBut s [.regs, .out, .eth] s := keepsBut_refl _ _
  unfold State.resend
  extract_lets +onlyGivenNames x0
  try clear_value x0
  extract_lets +onlyGivenNames x1
  try clear_value x1
  refine keepsBut_step keeps_State_bump (by decide) ?_
  refine keepsBut_step keeps_State_sendFrame (by decide) ?_
  exact keepsBut_step keeps_State_setAssoc (by decide) (by assumption)

theorem keeps_State_plcDone {s : State} {x : PlcTx} :
    s.keepsBut [.plc] (s.plcDone x) := by
  have h0 : State.keepsBut s [.plc] s := keepsBut_refl _ _
  unfold State.plcDone
  exact keepsBut_step keeps_State_modPlc (by decide) (by assumption)

theorem keeps_State_ackArrived {s : State} {n : ℕ} {bs : List Byte} :
    s.keepsBut [.plc, .regs, .ctx] (s.ackArrived n bs) := by
  have h0 : State.keepsBut s [.plc, .regs, .ctx] s := keepsBut_refl _ _
  unfold State.ackArrived
  extract_lets +onlyGivenNames x0
  try clear_value x0
  refine keepsBut_ite ?_ ?_
  · exact keepsBut_step keeps_State_bump (by decide) (by assumption)
  · split
    · assumption
    · extract_lets +onlyGivenNames x1
      have hx1 : State.keepsBut s [.plc, .regs, .ctx] x1 := by
        unfold x1
        refine keepsBut_step keeps_State_bump (by decide) ?_
        exact keepsBut_step keeps_State_plcDone (by decide) (by assumption)
      try clear_value x1
      extract_lets +onlyGivenNames x2
      have hx2 : State.keepsBut s [.plc, .regs, .ctx] x2 := by
        unfold x2
        split
        · exact keepsBut_step keeps_State_modCtx (by decide) (by assumption)
        · assumption
      try clear_value x2
      extract_lets +onlyGivenNames x3
      try clear_value x3
      refine keepsBut_ite ?_ ?_
      · exact keepsBut_step keeps_State_modCtx (by decide) (by assumption)
      · assumption

theorem keeps_State_gaspTime {s : State} :
    s.keepsBut [.tim] (s.gaspTime) := by
  have h0 : State.keepsBut s [.tim] s := keepsBut_refl _ _
  unfold State.gaspTime
  refine keepsBut_ite ?_ ?_
  · exact keepsBut_step keeps_with_tim (by decide) (by assumption)
  · assumption

theorem keeps_State_visit {s : State} {n : ℕ} :
    s.keepsBut [.host] (s.visit n) := by
  have h0 : State.keepsBut s [.host] s := keepsBut_refl _ _
  unfold State.visit
  exact keepsBut_step keeps_with_host (by decide) (by assumption)

theorem keeps_State_forwardJob {s : State} {j : Job} {d : NodeId} :
    s.keepsBut [.way, .host, .limits, .regs, .out, .hwl] (s.forwardJob j d) := by
  have h0 : State.keepsBut s [.way, .host, .limits, .regs, .out, .hwl] s := keepsBut_refl _ _
  unfold State.forwardJob
  refine keepsBut_ite ?_ ?_
  · exact keepsBut_step keeps_State_rejectJob (by decide) (by assumption)
  · refine keepsBut_ite ?_ ?_
    · exact keepsBut_step keeps_State_rejectJob (by decide) (by assumption)
    · extract_lets +onlyGivenNames x0
      have hx0 : State.keepsBut s [.way, .host, .limits, .regs, .out, .hwl] x0 := by
        unfold x0
        exact keepsBut_step keeps_State_openJob (by decide) (by assumption)
      try clear_value x0
      extract_lets +onlyGivenNames x1
      try clear_value x1
      refine keepsBut_step keeps_State_hwlSend (by decide) ?_
      exact keepsBut_step keeps_with_host (by decide) (by assumption)

theorem keeps_State_clearLog {s : State} {g : LogId} {cert : BitVec 32} {anchor : ℕ} {job : JobRef} :
    s.keepsBut [.way] (s.clearLog g cert anchor job) := by
  have h0 : State.keepsBut s [.way] s := keepsBut_refl _ _
  unfold State.clearLog
  extract_lets +onlyGivenNames x0
  try clear_value x0
  extract_lets +onlyGivenNames x1
  try clear_value x1
  extract_lets +onlyGivenNames x2
  have hx2 : State.keepsBut s [.way] x2 := by
    unfold x2
    exact keepsBut_step keeps_State_modLog (by decide) (by assumption)
  try clear_value x2
  exact keepsBut_step keeps_State_modLog (by decide) (by assumption)

theorem keeps_State_runClearLog {s : State} {j : Job} {log : ℕ} :
    s.keepsBut [.way, .host, .limits, .cch, .regs, .out, .upd, .sec] (s.runClearLog j log) := by
  have h0 : State.keepsBut s [.way, .host, .limits, .cch, .regs, .out, .upd, .sec] s := keepsBut_refl _ _
  unfold State.runClearLog
  split
  · exact keepsBut_step keeps_State_rejectJob (by decide) (by assumption)
  · refine keepsBut_ite ?_ ?_
    · exact keepsBut_step keeps_State_rejectJob (by decide) (by assumption)
    · refine keeps_State_onAccept (by decide) ?_ ?_
      · intro u hu
        try beta_reduce
        exact keepsBut_step keeps_State_clearLog (by decide) (by assumption)
      · assumption

theorem keeps_State_sendDesignated {s : State} {i : ℕ} :
    s.keepsBut [.way, .host, .limits, .regs, .out, .hwl] (s.sendDesignated i) := by
  have h0 : State.keepsBut s [.way, .host, .limits, .regs, .out, .hwl] s := keepsBut_refl _ _
  unfold State.sendDesignated
  extract_lets +onlyGivenNames x0
  try clear_value x0
  refine keepsBut_ite ?_ ?_
  · assumption
  · exact keepsBut_step keeps_State_mirrorSync (by decide) (by assumption)

theorem keeps_State_runDesignate {s : State} {j : Job} {range : ℕ} {trueNode : NodeId} {slots : Option (List ℕ)} :
    s.keepsBut [.way, .host, .limits, .cch, .regs, .out, .upd, .sec, .hwl] (s.runDesignate j range trueNode slots) := by
  have h0 : State.keepsBut s [.way, .host, .limits, .cch, .regs, .out, .upd, .sec, .hwl] s := keepsBut_refl _ _
  unfold State.runDesignate
  refine keepsBut_ite ?_ ?_
  · exact keepsBut_step keeps_State_rejectJob (by decide) (by assumption)
  · refine keepsBut_ite ?_ ?_
    · refine keeps_State_onAccept (by decide) ?_ ?_
      · intro u hu
        try beta_reduce
        exact keepsBut_step keeps_State_finishJob (by decide) (by assumption)
      · assumption
    · refine keepsBut_ite ?_ ?_
      · exact keepsBut_step keeps_State_rejectJob (by decide) (by assumption)
      · refine keepsBut_ite ?_ ?_
        · refine keeps_State_onAccept (by decide) ?_ ?_
          · intro u hu
            try beta_reduce
            refine keepsBut_step keeps_State_jobDone (by decide) ?_
            refine keepsBut_foldl ?_ ?_
            · intro u a hu
              try beta_reduce
              · exact keepsBut_step keeps_State_sendDesignated (by decide) (by assumption)
            · assumption
          · assumption
        · refine keepsBut_ite ?_ ?_
          · refine keeps_State_onAccept (by decide) ?_ ?_
            · intro u hu
              try beta_reduce
              refine keepsBut_step keeps_State_jobDone (by decide) ?_
              refine keepsBut_foldl ?_ ?_
              · intro u a hu
                try beta_reduce
                · extract_lets +onlyGivenNames x0
                  try clear_value x0
                  refine keepsBut_ite ?_ ?_
                  · assumption
                  · exact keepsBut_step keeps_State_hwlSend (by decide) (by assumption)
              · assumption
            · assumption
          · exact keepsBut_step keeps_State_rejectJob (by decide) (by assumption)

theorem keeps_State_runWallTimeStep {s : State} {j : Job} {window : ℕ} {maxStep : ℕ} :
    s.keepsBut [.way, .host, .limits, .cch, .tim, .regs, .out, .upd, .sec] (s.runWallTimeStep j window maxStep) := by
  have h0 : State.keepsBut s [.way, .host, .limits, .cch, .tim, .regs, .out, .upd, .sec] s := keepsBut_refl _ _
  unfold State.runWallTimeStep
  refine keepsBut_ite ?_ ?_
  · exact keepsBut_step keeps_State_rejectJob (by decide) (by assumption)
  · refine keepsBut_ite ?_ ?_
    · refine keeps_State_onAccept (by decide) ?_ ?_
      · intro u hu
        try beta_reduce
        extract_lets +onlyGivenNames x0
        try clear_value x0
        exact keepsBut_step keeps_State_finishJob (by decide) (by assumption)
      · assumption
    · refine keepsBut_ite ?_ ?_
      · exact keepsBut_step keeps_State_rejectJob (by decide) (by assumption)
      · refine keeps_State_onAccept (by decide) ?_ ?_
        · intro u hu
          try beta_reduce
          refine keepsBut_step keeps_State_jobDone (by decide) ?_
          exact keepsBut_step keeps_State_modTim (by decide) (by assumption)
        · assumption

theorem keeps_State_runMeterState {s : State} {j : Job} {g : Gmn} {parts : BitVec 8} :
    s.keepsBut [.way, .host, .limits, .cch, .regs, .out, .upd, .sec] (s.runMeterState j g parts) := by
  have h0 : State.keepsBut s [.way, .host, .limits, .cch, .regs, .out, .upd, .sec] s := keepsBut_refl _ _
  unfold State.runMeterState
  split
  · exact keepsBut_step keeps_State_rejectJob (by decide) (by assumption)
  · refine keeps_State_onAccept (by decide) ?_ ?_
    · intro u hu
      try beta_reduce
      extract_lets +onlyGivenNames x0
      try clear_value x0
      extract_lets +onlyGivenNames x1
      try clear_value x1
      extract_lets +onlyGivenNames x2
      try clear_value x2
      extract_lets +onlyGivenNames x3
      try clear_value x3
      exact keepsBut_step keeps_State_finishJob (by decide) (by assumption)
    · assumption

theorem keeps_State_runDebugToken {s : State} {j : Job} {x : List Byte} :
    s.keepsBut [.way, .host, .limits, .cch, .regs, .out, .upd, .sec] (s.runDebugToken j x) := by
  have h0 : State.keepsBut s [.way, .host, .limits, .cch, .regs, .out, .upd, .sec] s := keepsBut_refl _ _
  unfold State.runDebugToken
  extract_lets +onlyGivenNames x0
  try clear_value x0
  refine keepsBut_ite ?_ ?_
  · exact keepsBut_step keeps_State_rejectJob (by decide) (by assumption)
  · refine keepsBut_ite ?_ ?_
    · exact keepsBut_step keeps_State_rejectJob (by decide) (by assumption)
    · refine keepsBut_ite ?_ ?_
      · refine keeps_State_onAccept (by decide) ?_ ?_
        · intro u hu
          try beta_reduce
          exact keepsBut_step keeps_State_finishJob (by decide) (by assumption)
        · assumption
      · split
        · exact keepsBut_step keeps_State_rejectJob (by decide) (by assumption)
        · refine keeps_State_onAccept (by decide) ?_ ?_
          · intro u hu
            try beta_reduce
            refine keepsBut_step keeps_State_jobDone (by decide) ?_
            refine keepsBut_step keeps_State_bump (by decide) ?_
            exact keepsBut_step keeps_State_modSec (by decide) (by assumption)
          · assumption

theorem keeps_State_runExpert {s : State} {j : Job} {duration : ℕ} :
    s.keepsBut [.way, .host, .limits, .cch, .regs, .boot, .out, .upd, .sec] (s.runExpert j duration) := by
  have h0 : State.keepsBut s [.way, .host, .limits, .cch, .regs, .boot, .out, .upd, .sec] s := keepsBut_refl _ _
  unfold State.runExpert
  refine keepsBut_ite ?_ ?_
  · exact keepsBut_step keeps_State_rejectJob (by decide) (by assumption)
  · refine keepsBut_ite ?_ ?_
    · refine keeps_State_onAccept (by decide) ?_ ?_
      · intro u hu
        try beta_reduce
        exact keepsBut_step keeps_State_finishJob (by decide) (by assumption)
      · assumption
    · refine keeps_State_onAccept (by decide) ?_ ?_
      · intro u hu
        try beta_reduce
        extract_lets +onlyGivenNames x0
        have hx0 : State.keepsBut s [.way, .host, .limits, .cch, .regs, .boot, .out, .upd, .sec] x0 := by
          unfold x0
          refine keepsBut_ite ?_ ?_
          · assumption
          · exact keepsBut_step keeps_State_event (by decide) (by assumption)
        try clear_value x0
        refine keepsBut_step keeps_State_jobDone (by decide) ?_
        exact keepsBut_step keeps_with_boot (by decide) (by assumption)
      · assumption

theorem keeps_State_runForget {s : State} {j : Job} :
    s.keepsBut [.way, .ful, .host, .rst, .limits, .cch, .regs, .out, .upd, .nor, .sec, .hwl] (s.runForget j) := by
  have h0 : State.keepsBut s [.way, .ful, .host, .rst, .limits, .cch, .regs, .out, .upd, .nor, .sec, .hwl] s := keepsBut_refl _ _
  unfold State.runForget
  refine keeps_State_onAccept (by decide) ?_ ?_
  · intro u hu
    try beta_reduce
    extract_lets +onlyGivenNames x0
    try clear_value x0
    extract_lets +onlyGivenNames x1
    try clear_value x1
    extract_lets +onlyGivenNames x2
    have hx2 : State.keepsBut s [.way, .ful, .host, .rst, .limits, .cch, .regs, .out, .upd, .nor, .sec, .hwl] x2 := by
      unfold x2
      exact keepsBut_step keeps_with_nor_hwl (by decide) (by assumption)
    try clear_value x2
    refine keepsBut_step keeps_State_requestReset (by decide) ?_
    exact keepsBut_step keeps_State_jobDone (by decide) (by assumption)
  · assumption

theorem keeps_State_runCancel {s : State} {j : Job} {tag : BitVec 16} :
    s.keepsBut [.plc, .way, .host, .limits, .cch, .regs, .out, .upd, .txn, .sec, .rfm, .ctx] (s.runCancel j tag) := by
  have h0 : State.keepsBut s [.plc, .way, .host, .limits, .cch, .regs, .out, .upd, .txn, .sec, .rfm, .ctx] s := keepsBut_refl _ _
  unfold State.runCancel
  extract_lets +onlyGivenNames x0
  try clear_value x0
  extract_lets +onlyGivenNames x1
  try clear_value x1
  refine keepsBut_ite ?_ ?_
  · refine keeps_State_onAccept (by decide) ?_ ?_
    · intro u hu
      try beta_reduce
      refine keepsBut_step keeps_State_jobDone (by decide) ?_
      exact keepsBut_step keeps_State_completeTxn (by decide) (by assumption)
    · assumption
  · refine keeps_State_onAccept (by decide) ?_ ?_
    · intro u hu
      try beta_reduce
      exact keepsBut_step keeps_State_finishJob (by decide) (by assumption)
    · assumption

theorem keeps_State_runContextOp {s : State} {j : Job} {g : Gmn} :
    s.keepsBut [.way, .host, .limits, .cch, .regs, .out, .upd, .sec, .hwl, .ing] (s.runContextOp j g) := by
  have h0 : State.keepsBut s [.way, .host, .limits, .cch, .regs, .out, .upd, .sec, .hwl, .ing] s := keepsBut_refl _ _
  unfold State.runContextOp
  split
  · exact keepsBut_step keeps_State_rejectJob (by decide) (by assumption)
  · refine keeps_State_onAccept (by decide) ?_ ?_
    · intro u hu
      try beta_reduce
      exact keepsBut_step keeps_State_sequenceWork (by decide) (by assumption)
    · assumption

theorem keeps_State_claim {s : State} :
    s.keepsBut [.hwl] (s.claim) := by
  have h0 : State.keepsBut s [.hwl] s := keepsBut_refl _ _
  unfold State.claim
  refine keepsBut_ite ?_ ?_
  · assumption
  · exact keepsBut_step keeps_State_modHwl (by decide) (by assumption)

theorem keeps_State_runClaim {s : State} {j : Job} :
    s.keepsBut [.way, .host, .limits, .cch, .regs, .out, .upd, .sec, .hwl] (s.runClaim j) := by
  have h0 : State.keepsBut s [.way, .host, .limits, .cch, .regs, .out, .upd, .sec, .hwl] s := keepsBut_refl _ _
  unfold State.runClaim
  refine keeps_State_onAccept (by decide) ?_ ?_
  · intro u hu
    try beta_reduce
    refine keepsBut_step keeps_State_jobDone (by decide) ?_
    refine keepsBut_step keeps_State_claim (by decide) ?_
    exact keepsBut_step keeps_State_modHwl (by decide) (by assumption)
  · assumption

theorem keeps_State_runReadMeter {s : State} {j : Job} {g : Gmn} {obis : BitVec 48} {priority : ℕ} {medium : ℕ} :
    s.keepsBut [.way, .host, .limits, .cch, .regs, .out, .upd, .txn, .sec, .ctx] (s.runReadMeter j g obis priority medium) := by
  have h0 : State.keepsBut s [.way, .host, .limits, .cch, .regs, .out, .upd, .txn, .sec, .ctx] s := keepsBut_refl _ _
  unfold State.runReadMeter
  refine keepsBut_ite ?_ ?_
  · exact keepsBut_step keeps_State_rejectJob (by decide) (by assumption)
  · refine keepsBut_ite ?_ ?_
    · exact keepsBut_step keeps_State_rejectJob (by decide) (by assumption)
    · refine keepsBut_ite ?_ ?_
      · exact keepsBut_step keeps_State_rejectJob (by decide) (by assumption)
      · refine keeps_State_onAccept (by decide) ?_ ?_
        · intro u hu
          try beta_reduce
          refine keepsBut_step keeps_State_topUpIssues (by decide) ?_
          exact keepsBut_step keeps_State_pushRequest (by decide) (by assumption)
        · assumption

theorem keeps_State_runReset {s : State} {j : Job} {swp : Bool} :
    s.keepsBut [.way, .ful, .host, .rst, .limits, .cch, .regs, .boot, .out, .upd, .sec, .hwl] (s.runReset j swp) := by
  have h0 : State.keepsBut s [.way, .ful, .host, .rst, .limits, .cch, .regs, .boot, .out, .upd, .sec, .hwl] s := keepsBut_refl _ _
  unfold State.runReset
  refine keeps_State_onAccept (by decide) ?_ ?_
  · intro u hu
    try beta_reduce
    refine keepsBut_ite ?_ ?_
    · refine keepsBut_step keeps_State_requestPartial (by decide) ?_
      exact keepsBut_step keeps_State_jobDone (by decide) (by assumption)
    · refine keepsBut_step keeps_State_requestReset (by decide) ?_
      exact keepsBut_step keeps_State_jobDone (by decide) (by assumption)
  · assumption

theorem keeps_State_runBundle {s : State} {j : Job} {b : RelayBundle} :
    s.keepsBut [.way, .host, .limits, .cch, .regs, .out, .upd, .sec, .ing] (s.runBundle j b) := by
  have h0 : State.keepsBut s [.way, .host, .limits, .cch, .regs, .out, .upd, .sec, .ing] s := keepsBut_refl _ _
  unfold State.runBundle
  refine keepsBut_ite ?_ ?_
  · refine keepsBut_step keeps_State_rejectJob (by decide) ?_
    exact keepsBut_step keeps_State_entranceDrop (by decide) (by assumption)
  · refine keeps_State_onAccept (by decide) ?_ ?_
    · intro u hu
      try beta_reduce
      refine keepsBut_step keeps_State_jobDone (by decide) ?_
      exact keepsBut_step keeps_State_ingestFrame (by decide) (by assumption)
    · assumption

theorem keeps_State_runRegisterRead {s : State} {j : Job} {offset : ℕ} {words : ℕ} :
    s.keepsBut [.latches, .way, .host, .limits, .cch, .regs, .out, .upd, .sec] (s.runRegisterRead j offset words) := by
  have h0 : State.keepsBut s [.latches, .way, .host, .limits, .cch, .regs, .out, .upd, .sec] s := keepsBut_refl _ _
  unfold State.runRegisterRead
  refine keepsBut_ite ?_ ?_
  · exact keepsBut_step keeps_State_rejectJob (by decide) (by assumption)
  · refine keeps_State_onAccept (by decide) ?_ ?_
    · intro u hu
      try beta_reduce
      extract_lets +onlyGivenNames x0
      have hx0 : State.keepsBut s [.latches, .way, .host, .limits, .cch, .regs, .out, .upd, .sec] x0.1 := by
        unfold x0
        exact keepsBut_step keeps_State_readWords (by decide) (by assumption)
      try clear_value x0
      exact keepsBut_step keeps_State_finishJob (by decide) (by assumption)
    · assumption

theorem keeps_State_runRelease {s : State} {j : Job} :
    s.keepsBut [.way, .host, .limits, .cch, .regs, .out, .upd, .sec, .hwl] (s.runRelease j) := by
  have h0 : State.keepsBut s [.way, .host, .limits, .cch, .regs, .out, .upd, .sec, .hwl] s := keepsBut_refl _ _
  unfold State.runRelease
  refine keeps_State_onAccept (by decide) ?_ ?_
  · intro u hu
    try beta_reduce
    refine keepsBut_step keeps_State_jobDone (by decide) ?_
    refine keepsBut_ite ?_ ?_
    · exact keepsBut_step keeps_State_releaseOwner (by decide) (by assumption)
    · assumption
  · assumption

theorem keeps_State_runLegal {s : State} {j : Job} {g : Gmn} {op : LegalOp} {owned : Bool} :
    s.keepsBut [.way, .host, .limits, .cch, .regs, .out, .upd, .sec, .hwl, .ing] (s.runLegal j g op owned) := by
  have h0 : State.keepsBut s [.way, .host, .limits, .cch, .regs, .out, .upd, .sec, .hwl, .ing] s := keepsBut_refl _ _
  unfold State.runLegal
  refine keepsBut_ite ?_ ?_
  · exact keepsBut_step keeps_State_rejectOwner (by decide) (by assumption)
  · split
    · exact keepsBut_step keeps_State_rejectJob (by decide) (by assumption)
    · refine keepsBut_ite ?_ ?_
      · exact keepsBut_step keeps_State_rejectJob (by decide) (by assumption)
      · refine keepsBut_ite ?_ ?_
        · exact keepsBut_step keeps_State_rejectJob (by decide) (by assumption)
        · refine keeps_State_onAccept (by decide) ?_ ?_
          · intro u hu
            try beta_reduce
            exact keepsBut_step keeps_State_sequenceWork (by decide) (by assumption)
          · assumption

end Sys2Proof.Machine
end

