-- ==== Sys2Proof/Laws/Keeps07.lean ====
section
/-!
SUPPORT. What each shared operation leaves of the state, one lemma an operation, an operation after those it is built from: from `runKeyChange`
to `place`.
-/

namespace Sys2Proof.Machine

theorem keeps_State_runKeyChange {s : State} {j : Job} {g : Gmn} {slot : ℕ} {ek : BitVec 192} {ak : BitVec 192} :
    s.keepsBut [.way, .host, .limits, .cch, .regs, .out, .upd, .sec, .hwl, .ing] (s.runKeyChange j g slot ek ak) := by
  have h0 : State.keepsBut s [.way, .host, .limits, .cch, .regs, .out, .upd, .sec, .hwl, .ing] s := keepsBut_refl _ _
  unfold State.runKeyChange
  split
  · exact keepsBut_step keeps_State_rejectJob (by decide) (by assumption)
  · refine keepsBut_ite ?_ ?_
    · exact keepsBut_step keeps_State_unwrapFails (by decide) (by assumption)
    · refine keeps_State_onAccept (by decide) ?_ ?_
      · intro u hu
        try beta_reduce
        exact keepsBut_step keeps_State_sequenceWork (by decide) (by assumption)
      · assumption

theorem keeps_State_runMembership {s : State} {j : Job} {g : Gmn} {regPhase : ℕ} :
    s.keepsBut [.way, .host, .limits, .cch, .regs, .out, .upd, .sec, .hwl, .ing] (s.runMembership j g regPhase) := by
  have h0 : State.keepsBut s [.way, .host, .limits, .cch, .regs, .out, .upd, .sec, .hwl, .ing] s := keepsBut_refl _ _
  unfold State.runMembership
  refine keepsBut_ite ?_ ?_
  · exact keepsBut_step keeps_State_rejectJob (by decide) (by assumption)
  · exact keepsBut_step keeps_State_runContextOp (by decide) (by assumption)

theorem keeps_State_runAttest {s : State} {j : Job} {nonce : BitVec 256} :
    s.keepsBut [.way, .host, .limits, .cch, .regs, .out, .upd, .sec, .draws] (s.runAttest j nonce) := by
  have h0 : State.keepsBut s [.way, .host, .limits, .cch, .regs, .out, .upd, .sec, .draws] s := keepsBut_refl _ _
  unfold State.runAttest
  extract_lets +onlyGivenNames x0
  try clear_value x0
  refine keepsBut_ite ?_ ?_
  · exact keepsBut_step keeps_State_rejectJob (by decide) (by assumption)
  · refine keeps_State_onAccept (by decide) ?_ ?_
    · intro u hu
      try beta_reduce
      extract_lets +onlyGivenNames x1
      have hx1 : State.keepsBut s [.way, .host, .limits, .cch, .regs, .out, .upd, .sec, .draws] x1 := by
        unfold x1
        refine keepsBut_step keeps_State_bump (by decide) ?_
        exact keepsBut_step keeps_State_modSec (by decide) (by assumption)
      try clear_value x1
      refine keepsBut_step keeps_State_finishJob (by decide) ?_
      exact keepsBut_step keeps_State_drawn (by decide) (by assumption)
    · assumption

theorem keeps_State_runJob {s : State} {j : Job} :
    s.keepsBut [.latches, .plc, .way, .ful, .host, .rst, .limits, .cch, .tim, .bal, .regs, .boot, .out, .upd, .txn, .eth, .nor, .sec,
        .draws, .hwl, .ing, .rfm, .ctx] (s.runJob j) := by
  have h0 : State.keepsBut s [.latches, .plc, .way, .ful, .host, .rst, .limits, .cch, .tim, .bal, .regs, .boot, .out, .upd, .txn, .eth,
      .nor, .sec, .draws, .hwl, .ing, .rfm, .ctx] s := keepsBut_refl _ _
  unfold State.runJob
  split
  · exact keepsBut_step keeps_State_runReadMeter (by decide) (by assumption)
  · exact keepsBut_step keeps_State_runSnapshot (by decide) (by assumption)
  · exact keepsBut_step keeps_State_runRegisterRead (by decide) (by assumption)
  · exact keepsBut_step keeps_State_runMeterState (by decide) (by assumption)
  · exact keepsBut_step keeps_State_runAttest (by decide) (by assumption)
  · exact keepsBut_step keeps_State_runCancel (by decide) (by assumption)
  · exact keepsBut_step keeps_State_runTrigger (by decide) (by assumption)
  · exact keepsBut_step keeps_State_runPulse (by decide) (by assumption)
  · exact keepsBut_step keeps_State_runHostTime (by decide) (by assumption)
  · exact keepsBut_step keeps_State_runMembership (by decide) (by assumption)
  · exact keepsBut_step keeps_State_runBundle (by decide) (by assumption)
  · exact keepsBut_step keeps_State_runTariff (by decide) (by assumption)
  · exact keepsBut_step keeps_State_runLegal (by decide) (by assumption)
  · exact keepsBut_step keeps_State_runLegal (by decide) (by assumption)
  · exact keepsBut_step keeps_State_runLegal (by decide) (by assumption)
  · exact keepsBut_step keeps_State_runLegal (by decide) (by assumption)
  · exact keepsBut_step keeps_State_runEnrol (by decide) (by assumption)
  · exact keepsBut_step keeps_State_runContextOp (by decide) (by assumption)
  · exact keepsBut_step keeps_State_runKeyChange (by decide) (by assumption)
  · exact keepsBut_step keeps_State_runContextOp (by decide) (by assumption)
  · exact keepsBut_step keeps_State_runDesignate (by decide) (by assumption)
  · exact keepsBut_step keeps_State_runClaim (by decide) (by assumption)
  · exact keepsBut_step keeps_State_runRelease (by decide) (by assumption)
  · exact keepsBut_step keeps_State_runForget (by decide) (by assumption)
  · exact keepsBut_step keeps_State_runWallTimeStep (by decide) (by assumption)
  · exact keepsBut_step keeps_State_runClearLog (by decide) (by assumption)
  · exact keepsBut_step keeps_State_runExpert (by decide) (by assumption)
  · exact keepsBut_step keeps_State_runDebugToken (by decide) (by assumption)
  · exact keepsBut_step keeps_State_runDelivery (by decide) (by assumption)
  · exact keepsBut_step keeps_State_runCampaign (by decide) (by assumption)
  · exact keepsBut_step keeps_State_runReset (by decide) (by assumption)
  · exact keepsBut_step keeps_State_runBootHeader (by decide) (by assumption)
  · exact keepsBut_step keeps_State_rejectJob (by decide) (by assumption)

theorem keeps_State_sendReset {s : State} {j : Job} {d : NodeId} :
    s.keepsBut [.way, .host, .limits, .regs, .out, .sec, .hwl] (s.sendReset j d) := by
  have h0 : State.keepsBut s [.way, .host, .limits, .regs, .out, .sec, .hwl] s := keepsBut_refl _ _
  unfold State.sendReset
  refine keepsBut_ite ?_ ?_
  · exact keepsBut_step keeps_State_rejectJob (by decide) (by assumption)
  · split
    · exact keepsBut_step keeps_State_rejectAccess (by decide) (by assumption)
    · refine keepsBut_ite ?_ ?_
      · exact keepsBut_step keeps_State_rejectJob (by decide) (by assumption)
      · refine keepsBut_step keeps_State_jobDone (by decide) ?_
        refine keepsBut_step keeps_State_hwlSend (by decide) ?_
        exact keepsBut_step keeps_State_openJob (by decide) (by assumption)

theorem keeps_State_takeJob {s0 : State} {j : Job} :
    s0.keepsBut [.latches, .plc, .way, .ful, .host, .rst, .limits, .cch, .tim, .bal, .regs, .boot, .out, .upd, .txn, .eth, .nor, .sec,
        .draws, .hwl, .ing, .rfm, .ctx] (s0.takeJob j) := by
  have h0 : State.keepsBut s0 [.latches, .plc, .way, .ful, .host, .rst, .limits, .cch, .tim, .bal, .regs, .boot, .out, .upd, .txn,
      .eth, .nor, .sec, .draws, .hwl, .ing, .rfm, .ctx] s0 := keepsBut_refl _ _
  unfold State.takeJob
  extract_lets +onlyGivenNames x0
  have hx0 : State.keepsBut s0 [.latches, .plc, .way, .ful, .host, .rst, .limits, .cch, .tim, .bal, .regs, .boot, .out, .upd, .txn,
      .eth, .nor, .sec, .draws, .hwl, .ing, .rfm, .ctx] x0 := by
    unfold x0
    exact keepsBut_step keeps_State_bump (by decide) (by assumption)
  try clear_value x0
  refine keepsBut_ite ?_ ?_
  · refine keepsBut_step keeps_State_rejectJob (by decide) ?_
    refine keepsBut_step keeps_State_raiseInt (by decide) ?_
    exact keepsBut_step keeps_State_bump (by decide) (by assumption)
  · refine keepsBut_ite ?_ ?_
    · exact keepsBut_step keeps_State_rejectJob (by decide) (by assumption)
    · refine keepsBut_ite ?_ ?_
      · exact keepsBut_step keeps_State_rejectJob (by decide) (by assumption)
      · refine keepsBut_ite ?_ ?_
        · refine keepsBut_step keeps_State_rejectJob (by decide) ?_
          exact keepsBut_step keeps_State_bump (by decide) (by assumption)
        · refine keepsBut_ite ?_ ?_
          · exact keepsBut_step keeps_State_rejectJob (by decide) (by assumption)
          · split
            · exact keepsBut_step keeps_State_forwardJob (by decide) (by assumption)
            · refine keepsBut_ite ?_ ?_
              · exact keepsBut_step keeps_State_rejectJob (by decide) (by assumption)
              · split
                · exact keepsBut_step keeps_State_sendReset (by decide) (by assumption)
                · refine keeps_State_acceptAndRun (by decide) ?_ ?_
                  · intro u hu
                    try beta_reduce
                    refine keepsBut_ite ?_ ?_
                    · exact keepsBut_step keeps_State_rejectJob (by decide) (by assumption)
                    · exact keepsBut_step keeps_State_runJob (by decide) (by assumption)
                  · assumption

theorem keeps_State_intake {s : State} {j : Job} :
    s.keepsBut [.latches, .plc, .way, .ful, .host, .rst, .limits, .cch, .tim, .bal, .regs, .boot, .out, .upd, .txn, .eth, .nor, .sec,
        .draws, .hwl, .ing, .rfm, .ctx] (s.intake j) := by
  have h0 : State.keepsBut s [.latches, .plc, .way, .ful, .host, .rst, .limits, .cch, .tim, .bal, .regs, .boot, .out, .upd, .txn, .eth,
      .nor, .sec, .draws, .hwl, .ing, .rfm, .ctx] s := keepsBut_refl _ _
  unfold State.intake
  split
  · refine keepsBut_ite ?_ ?_
    · assumption
    · refine keepsBut_ite ?_ ?_
      · exact keepsBut_step keeps_State_visit (by decide) (by assumption)
      · extract_lets +onlyGivenNames x0
        try clear_value x0
        refine keepsBut_step keeps_State_takeJob (by decide) ?_
        refine keepsBut_step keeps_State_raiseInt (by decide) ?_
        refine keepsBut_step keeps_State_setCq (by decide) ?_
        exact keepsBut_step keeps_State_visit (by decide) (by assumption)
  · refine keepsBut_ite ?_ ?_
    · assumption
    · exact keepsBut_step keeps_State_takeJob (by decide) (by assumption)
  · refine keepsBut_ite ?_ ?_
    · assumption
    · exact keepsBut_step keeps_State_takeJob (by decide) (by assumption)
  · refine keepsBut_ite ?_ ?_
    · assumption
    · exact keepsBut_step keeps_State_takeJob (by decide) (by assumption)

theorem keeps_State_closureOut {i : ℕ} {s : State} {p : ClosedPeriod} :
    s.keepsBut [.ful, .host, .regs, .bil] (State.closureOut i s p) := by
  have h0 : State.keepsBut s [.ful, .host, .regs, .bil] s := keepsBut_refl _ _
  unfold State.closureOut
  extract_lets +onlyGivenNames x0
  have hx0 : State.keepsBut s [.ful, .host, .regs, .bil] x0 := by
    unfold x0
    exact keepsBut_step keeps_State_bump (by decide) (by assumption)
  try clear_value x0
  refine keepsBut_step keeps_State_reportOut (by decide) ?_
  refine keepsBut_step keeps_State_toFuller (by decide) ?_
  exact keepsBut_step keeps_State_keepClosed (by decide) (by assumption)

theorem keeps_State_commitRecord {s : State} {i : ℕ} {r : Record} {tref : ℕ} {k : Option ℤ} {deltas : List (Option ℕ)} :
    s.keepsBut [.way, .ful, .host, .limits, .regs, .out, .upd, .bil, .hwl] (s.commitRecord i r tref k deltas).1 := by
  have h0 : State.keepsBut s [.way, .ful, .host, .limits, .regs, .out, .upd, .bil, .hwl] s := keepsBut_refl _ _
  unfold State.commitRecord
  extract_lets +onlyGivenNames x0
  try clear_value x0
  extract_lets +onlyGivenNames x1
  try clear_value x1
  extract_lets +onlyGivenNames x2
  have hx2 : State.keepsBut s [.way, .ful, .host, .limits, .regs, .out, .upd, .bil, .hwl] x2 := by
    unfold x2
    refine keepsBut_step keeps_State_checkMet (by decide) ?_
    refine keepsBut_step keeps_State_bump (by decide) ?_
    exact keepsBut_step keeps_State_commitSlot (by decide) (by assumption)
  try clear_value x2
  extract_lets +onlyGivenNames x3
  have hx3 : State.keepsBut s [.way, .ful, .host, .limits, .regs, .out, .upd, .bil, .hwl] x3 := by
    unfold x3
    refine keepsBut_ite ?_ ?_
    · exact keepsBut_step keeps_State_bump (by decide) (by assumption)
    · assumption
  try clear_value x3
  extract_lets +onlyGivenNames x4
  have hx4 : State.keepsBut s [.way, .ful, .host, .limits, .regs, .out, .upd, .bil, .hwl] x4 := by
    unfold x4
    refine keepsBut_ite ?_ ?_
    · exact keepsBut_step keeps_State_bump (by decide) (by assumption)
    · assumption
  try clear_value x4
  dsimp only
  refine keepsBut_foldl ?_ ?_
  · intro u a hu
    try beta_reduce
    · exact keepsBut_step keeps_State_closureOut (by decide) (by assumption)
  · assumption

theorem keeps_State_jobCommitted {s : State} {g : Gmn} {op : LegalOp} :
    s.keepsBut [.ful, .regs] (s.jobCommitted g op) := by
  have h0 : State.keepsBut s [.ful, .regs] s := keepsBut_refl _ _
  unfold State.jobCommitted
  refine keepsBut_step keeps_State_journal (by decide) ?_
  exact keepsBut_step keeps_State_bump (by decide) (by assumption)

theorem keeps_State_supplyCommand {s : State} {g : Gmn} {value : ℕ} :
    s.keepsBut [.way, .host, .limits, .cch, .regs, .out, .txn, .ctx] (s.supplyCommand g value) := by
  have h0 : State.keepsBut s [.way, .host, .limits, .cch, .regs, .out, .txn, .ctx] s := keepsBut_refl _ _
  unfold State.supplyCommand
  refine keepsBut_step keeps_State_topUpIssues (by decide) ?_
  exact keepsBut_step keeps_State_pushRequest (by decide) (by assumption)

theorem keeps_State_afterOp {s : State} {i : ℕ} {op : LegalOp} {mirrored : Bool} :
    s.keepsBut [.way, .host, .limits, .cch, .regs, .out, .txn, .ctx] (s.afterOp i op mirrored) := by
  have h0 : State.keepsBut s [.way, .host, .limits, .cch, .regs, .out, .txn, .ctx] s := keepsBut_refl _ _
  unfold State.afterOp
  extract_lets +onlyGivenNames x0
  try clear_value x0
  split
  · refine keepsBut_ite ?_ ?_
    · assumption
    · exact keepsBut_step keeps_State_supplyCommand (by decide) (by assumption)
  · extract_lets +onlyGivenNames x1
    have hx1 : State.keepsBut s [.way, .host, .limits, .cch, .regs, .out, .txn, .ctx] x1 := by
      unfold x1
      exact keepsBut_step keeps_State_modCtx (by decide) (by assumption)
    try clear_value x1
    refine keepsBut_ite ?_ ?_
    · assumption
    · exact keepsBut_step keeps_State_supplyCommand (by decide) (by assumption)
  · exact keepsBut_step keeps_State_event (by decide) (by assumption)
  · assumption

theorem keeps_State_mirrorOp {s : State} {i : ℕ} {op : LegalOp} {ref : Option JobRef} {mirrored : Bool} {detail : List Byte} :
    s.keepsBut [.way, .host, .limits, .regs, .out, .hwl] (s.mirrorOp i op ref mirrored detail) := by
  have h0 : State.keepsBut s [.way, .host, .limits, .regs, .out, .hwl] s := keepsBut_refl _ _
  unfold State.mirrorOp
  refine keepsBut_ite ?_ ?_
  · exact keepsBut_step keeps_State_answerOp (by decide) (by assumption)
  · extract_lets +onlyGivenNames x0
    have hx0 : State.keepsBut s [.way, .host, .limits, .regs, .out, .hwl] x0 := by
      unfold x0
      exact keepsBut_step keeps_State_mirrorSend (by decide) (by assumption)
    try clear_value x0
    split
    · assumption
    · exact keepsBut_step keeps_State_finishMirrored (by decide) (by assumption)

theorem keeps_State_unfreeze {s : State} {i : ℕ} :
    s.keepsBut [.bil, .ing] (s.unfreeze i) := by
  have h0 : State.keepsBut s [.bil, .ing] s := keepsBut_refl _ _
  unfold State.unfreeze
  refine keepsBut_step keeps_State_queueOp (by decide) ?_
  exact keepsBut_step keeps_State_setSlot (by decide) (by assumption)

theorem keeps_State_endRelease {s : State} {i : ℕ} {mode : ℕ} {ref : Option JobRef} {mirrored : Bool} :
    s.keepsBut [.way, .ful, .host, .limits, .regs, .out, .bil, .hwl, .ing] (s.endRelease i mode ref mirrored) := by
  have h0 : State.keepsBut s [.way, .ful, .host, .limits, .regs, .out, .bil, .hwl, .ing] s := keepsBut_refl _ _
  unfold State.endRelease
  extract_lets +onlyGivenNames x0
  try clear_value x0
  extract_lets +onlyGivenNames x1
  have hx1 : State.keepsBut s [.way, .ful, .host, .limits, .regs, .out, .bil, .hwl, .ing] x1 := by
    unfold x1
    exact keepsBut_step keeps_State_unfreeze (by decide) (by assumption)
  try clear_value x1
  extract_lets +onlyGivenNames x2
  try clear_value x2
  extract_lets +onlyGivenNames x3
  have hx3 : State.keepsBut s [.way, .ful, .host, .limits, .regs, .out, .bil, .hwl, .ing] x3 := by
    unfold x3
    refine keepsBut_ite ?_ ?_
    · assumption
    · exact keepsBut_step keeps_State_event (by decide) (by assumption)
  try clear_value x3
  refine keepsBut_step keeps_State_mirrorOp (by decide) ?_
  exact keepsBut_step keeps_State_jobCommitted (by decide) (by assumption)

theorem keeps_State_replayOn {s : State} {i : ℕ} {ref : Option JobRef} {mirrored : Bool} {done : List (BitVec 32)} :
    s.keepsBut [.way, .ful, .host, .limits, .regs, .out, .bil, .hwl, .ing] (s.replayOn i ref mirrored done) := by
  have h0 : State.keepsBut s [.way, .ful, .host, .limits, .regs, .out, .bil, .hwl, .ing] s := keepsBut_refl _ _
  unfold State.replayOn
  split
  · exact keepsBut_step keeps_State_endRelease (by decide) (by assumption)
  · exact keepsBut_step keeps_with_bil (by decide) (by assumption)

theorem keeps_State_commitOp {s : State} {i : ℕ} {op : LegalOp} {ref : Option JobRef} {mirrored : Bool} :
    s.keepsBut [.way, .ful, .host, .limits, .cch, .regs, .out, .txn, .bil, .hwl, .ing, .ctx] (s.commitOp i op ref mirrored) := by
  have h0 : State.keepsBut s [.way, .ful, .host, .limits, .cch, .regs, .out, .txn, .bil, .hwl, .ing, .ctx] s := keepsBut_refl _ _
  unfold State.commitOp
  extract_lets +onlyGivenNames x0
  try clear_value x0
  extract_lets +onlyGivenNames x1
  try clear_value x1
  split
  · refine keepsBut_ite ?_ ?_
    · exact keepsBut_step keeps_State_replayOn (by decide) (by assumption)
    · exact keepsBut_step keeps_State_endRelease (by decide) (by assumption)
  · split
    · exact keepsBut_step keeps_State_answerOp (by decide) (by assumption)
    · extract_lets +onlyGivenNames x2
      have hx2 : State.keepsBut s [.way, .ful, .host, .limits, .cch, .regs, .out, .txn, .bil, .hwl, .ing, .ctx] x2 := by
        unfold x2
        refine keepsBut_step keeps_State_jobCommitted (by decide) ?_
        exact keepsBut_step keeps_State_commitSlot (by decide) (by assumption)
      try clear_value x2
      refine keepsBut_step keeps_State_mirrorOp (by decide) ?_
      refine keepsBut_step keeps_State_afterOp (by decide) ?_
      refine keepsBut_foldl ?_ ?_
      · intro u a hu
        try beta_reduce
        · exact keepsBut_step keeps_State_closureOut (by decide) (by assumption)
      · assumption

theorem keeps_State_commitItem {s : State} {a1 : TroikaItem} :
    s.keepsBut [.way, .ful, .met, .host, .limits, .cch, .regs, .readings, .out, .upd, .txn, .bil, .hwl, .ing, .ctx] (s.commitItem a1)
        := by
  have h0 : State.keepsBut s [.way, .ful, .met, .host, .limits, .cch, .regs, .readings, .out, .upd, .txn, .bil, .hwl, .ing, .ctx] s :=
      keepsBut_refl _ _
  unfold State.commitItem
  split
  · split
    · rename_i u o e
      have hu : State.keepsBut s [.way, .ful, .met, .host, .limits, .cch, .regs, .readings, .out, .upd, .txn, .bil, .hwl, .ing, .ctx] u
          := by
        have e1 := congrArg Prod.fst e
        dsimp only at e1
        rw [← e1]
        exact keepsBut_step keeps_State_commitRecord (by decide) (by assumption)
      exact keepsBut_step keeps_State_readingDecided (by decide) (by assumption)
  · exact keepsBut_step keeps_State_commitOp (by decide) (by assumption)
  · extract_lets +onlyGivenNames x0
    have hx0 : State.keepsBut s [.way, .ful, .met, .host, .limits, .cch, .regs, .readings, .out, .upd, .txn, .bil, .hwl, .ing, .ctx] x0
        := by
      unfold x0
      refine keepsBut_step keeps_State_journal (by decide) ?_
      exact keepsBut_step keeps_State_setSlot (by decide) (by assumption)
    try clear_value x0
    exact keepsBut_step keeps_with_bil (by decide) (by assumption)
  · exact keepsBut_step keeps_State_commitTariff (by decide) (by assumption)
  · exact keepsBut_step keeps_State_setSlot (by decide) (by assumption)
  · refine keepsBut_step keeps_State_replayOn (by decide) ?_
    exact keepsBut_step keeps_State_commitRecord (by decide) (by assumption)
  · assumption

theorem keeps_State_commitImage {s : State} {x : TroikaItem} {m : ℕ} :
    s.keepsBut [.way, .ful, .met, .host, .limits, .cch, .regs, .readings, .out, .upd, .txn, .bil, .hwl, .ing, .ctx] (s.commitImage x m)
        := by
  have h0 : State.keepsBut s [.way, .ful, .met, .host, .limits, .cch, .regs, .readings, .out, .upd, .txn, .bil, .hwl, .ing, .ctx] s :=
      keepsBut_refl _ _
  unfold State.commitImage
  extract_lets +onlyGivenNames x0
  have hx0 : State.keepsBut s [.way, .ful, .met, .host, .limits, .cch, .regs, .readings, .out, .upd, .txn, .bil, .hwl, .ing, .ctx] x0
      := by
    unfold x0
    exact keepsBut_step keeps_State_commitItem (by decide) (by assumption)
  try clear_value x0
  split
  · refine keepsBut_ite ?_ ?_
    · assumption
    · exact keepsBut_step keeps_with_bil (by decide) (by assumption)
  · assumption

theorem keeps_State_itemNoMajority {s : State} {a1 : TroikaItem} :
    s.keepsBut [.ful, .host, .regs, .readings, .out, .bil, .ing] (s.itemNoMajority a1) := by
  have h0 : State.keepsBut s [.ful, .host, .regs, .readings, .out, .bil, .ing] s := keepsBut_refl _ _
  unfold State.itemNoMajority
  split
  · refine keepsBut_step keeps_State_declineRecord (by decide) ?_
    exact keepsBut_step keeps_State_noMajority (by decide) (by assumption)
  · refine keepsBut_step keeps_State_answerOp (by decide) ?_
    exact keepsBut_step keeps_State_noMajority (by decide) (by assumption)
  · exact keepsBut_step keeps_State_noMajority (by decide) (by assumption)
  · exact keepsBut_step keeps_State_noMajority (by decide) (by assumption)
  · refine keepsBut_step keeps_State_answerOp (by decide) ?_
    exact keepsBut_step keeps_State_noMajority (by decide) (by assumption)
  · assumption
  · extract_lets +onlyGivenNames x0
    have hx0 : State.keepsBut s [.ful, .host, .regs, .readings, .out, .bil, .ing] x0 := by
      unfold x0
      refine keepsBut_step keeps_State_bump (by decide) ?_
      exact keepsBut_step keeps_State_raiseInt (by decide) (by assumption)
    try clear_value x0
    refine keepsBut_step keeps_State_answerOp (by decide) ?_
    exact keepsBut_step keeps_with_bil (by decide) (by assumption)

theorem keeps_State_vote {s : State} {x : TroikaItem} {answers : List UnitAnswer} :
    s.keepsBut [.way, .ful, .met, .host, .limits, .cch, .regs, .readings, .out, .upd, .txn, .bil, .hwl, .ing, .ctx] (s.vote x answers)
        := by
  have h0 : State.keepsBut s [.way, .ful, .met, .host, .limits, .cch, .regs, .readings, .out, .upd, .txn, .bil, .hwl, .ing, .ctx] s :=
      keepsBut_refl _ _
  unfold State.vote
  extract_lets +onlyGivenNames x0
  try clear_value x0
  extract_lets +onlyGivenNames x1
  try clear_value x1
  extract_lets +onlyGivenNames x2
  have hx2 : State.keepsBut s [.way, .ful, .met, .host, .limits, .cch, .regs, .readings, .out, .upd, .txn, .bil, .hwl, .ing, .ctx] x2
      := by
    unfold x2
    exact keepsBut_step keeps_with_bil (by decide) (by assumption)
  try clear_value x2
  extract_lets +onlyGivenNames x3
  have hd : ∀ st b, State.keepsBut s [.way, .ful, .met, .host, .limits, .cch, .regs, .readings, .out, .upd, .txn, .bil, .hwl, .ing,
      .ctx] st → State.keepsBut s [.way, .ful, .met, .host, .limits, .cch, .regs, .readings, .out, .upd, .txn, .bil, .hwl, .ing, .ctx]
          (x3 st b) := by
    intro st b hst
    unfold x3
    exact keepsBut_step keeps_with_bil (by decide) hst
  try clear_value x3
  split
  · extract_lets +onlyGivenNames x4
    have hx4 : State.keepsBut s [.way, .ful, .met, .host, .limits, .cch, .regs, .readings, .out, .upd, .txn, .bil, .hwl, .ing, .ctx] x4
        := by
      unfold x4
      refine keepsBut_foldl ?_ ?_
      · intro u a hu
        try beta_reduce
        · exact keepsBut_step keeps_State_outvote (by decide) (by assumption)
      · exact keepsBut_step keeps_State_commitImage (by decide) (by assumption)
    try clear_value x4
    refine keepsBut_ite ?_ ?_
    · assumption
    · exact hd _ _ (by assumption)
  · refine keepsBut_ite ?_ ?_
    · exact keepsBut_step keeps_State_itemNoMajority (by decide) (by assumption)
    · exact hd _ _ (by assumption)

theorem keeps_State_peerDown {s : State} {k : ℕ} :
    s.keepsBut [.way, .host, .limits, .regs, .out, .eth] (s.peerDown k) := by
  have h0 : State.keepsBut s [.way, .host, .limits, .regs, .out, .eth] s := keepsBut_refl _ _
  unfold State.peerDown
  extract_lets +onlyGivenNames x0
  try clear_value x0
  extract_lets +onlyGivenNames x1
  have hx1 : State.keepsBut s [.way, .host, .limits, .regs, .out, .eth] x1 := by
    unfold x1
    exact keepsBut_step keeps_State_setAssoc (by decide) (by assumption)
  try clear_value x1
  refine keepsBut_step keeps_State_note (by decide) ?_
  exact keepsBut_step keeps_State_raiseInt (by decide) (by assumption)

theorem keeps_State_rtcRun {s : State} {ticks : ℕ} :
    s.keepsBut [.way, .tim, .cyc] (s.rtcRun ticks) := by
  have h0 : State.keepsBut s [.way, .tim, .cyc] s := keepsBut_refl _ _
  unfold State.rtcRun
  extract_lets +onlyGivenNames x0
  try clear_value x0
  extract_lets +onlyGivenNames x1
  try clear_value x1
  extract_lets +onlyGivenNames x2
  try clear_value x2
  extract_lets +onlyGivenNames x3
  try clear_value x3
  extract_lets +onlyGivenNames x4
  try clear_value x4
  extract_lets +onlyGivenNames x5
  have hx5 : State.keepsBut s [.way, .tim, .cyc] x5 := by
    unfold x5
    exact keepsBut_step keeps_with_cyc_tim (by decide) (by assumption)
  try clear_value x5
  exact keepsBut_step keeps_with_way (by decide) (by assumption)

theorem keeps_State_meshDone {s : State} {x : MeshTx} :
    s.keepsBut [.rfm] (s.meshDone x) := by
  have h0 : State.keepsBut s [.rfm] s := keepsBut_refl _ _
  unfold State.meshDone
  exact keepsBut_step keeps_State_modRfm (by decide) (by assumption)

theorem keeps_State_meshFail {s : State} {x : MeshTx} :
    s.keepsBut [.plc, .way, .host, .limits, .cch, .regs, .out, .upd, .txn, .rfm, .ctx] (s.meshFail x) := by
  have h0 : State.keepsBut s [.plc, .way, .host, .limits, .cch, .regs, .out, .upd, .txn, .rfm, .ctx] s := keepsBut_refl _ _
  unfold State.meshFail
  extract_lets +onlyGivenNames x0
  have hx0 : State.keepsBut s [.plc, .way, .host, .limits, .cch, .regs, .out, .upd, .txn, .rfm, .ctx] x0 := by
    unfold x0
    refine keepsBut_step keeps_State_raiseInt (by decide) ?_
    refine keepsBut_step keeps_State_bump (by decide) ?_
    exact keepsBut_step keeps_State_meshDone (by decide) (by assumption)
  try clear_value x0
  extract_lets +onlyGivenNames x1
  have hx1 : State.keepsBut s [.plc, .way, .host, .limits, .cch, .regs, .out, .upd, .txn, .rfm, .ctx] x1 := by
    unfold x1
    split
    · exact keepsBut_step keeps_State_modRadio (by decide) (by assumption)
    · assumption
  try clear_value x1
  split
  · exact keepsBut_step keeps_State_failAttempt (by decide) (by assumption)
  · exact keepsBut_step keeps_State_failAttempt (by decide) (by assumption)
  · assumption

theorem keeps_State_meshSet {s : State} {x : MeshTx} {y : MeshTx} :
    s.keepsBut [.rfm] (s.meshSet x y) := by
  have h0 : State.keepsBut s [.rfm] s := keepsBut_refl _ _
  unfold State.meshSet
  exact keepsBut_step keeps_State_modRfm (by decide) (by assumption)

theorem keeps_State_meshAttemptFailed {s : State} {x : MeshTx} :
    s.keepsBut [.plc, .way, .host, .limits, .cch, .regs, .out, .upd, .txn, .draws, .rfm, .ctx] (s.meshAttemptFailed x) := by
  have h0 : State.keepsBut s [.plc, .way, .host, .limits, .cch, .regs, .out, .upd, .txn, .draws, .rfm, .ctx] s := keepsBut_refl _ _
  unfold State.meshAttemptFailed
  extract_lets +onlyGivenNames x0
  extract_lets +onlyGivenNames x1
  refine keepsBut_ite ?_ ?_
  · refine keepsBut_step keeps_State_bump (by decide) ?_
    refine keepsBut_step keeps_State_meshSet (by decide) ?_
    exact keepsBut_step keeps_State_rfWait (by decide) (by assumption)
  · refine keepsBut_ite ?_ ?_
    · refine keepsBut_step keeps_State_meshFail (by decide) ?_
      exact keepsBut_step keeps_State_bump (by decide) (by assumption)
    · split
      · refine keepsBut_ite ?_ ?_
        · extract_lets +onlyGivenNames x2
          refine keepsBut_step keeps_State_markFlood (by decide) ?_
          refine keepsBut_step keeps_State_meshSet (by decide) ?_
          exact keepsBut_step keeps_State_rfWait (by decide) (by assumption)
        · exact keepsBut_step keeps_State_meshFail (by decide) (by assumption)
      · exact keepsBut_step keeps_State_meshFail (by decide) (by assumption)

theorem keeps_State_ccaBusy {s : State} {x : MeshTx} :
    s.keepsBut [.plc, .way, .host, .limits, .cch, .regs, .out, .upd, .txn, .draws, .rfm, .ctx] (s.ccaBusy x) := by
  have h0 : State.keepsBut s [.plc, .way, .host, .limits, .cch, .regs, .out, .upd, .txn, .draws, .rfm, .ctx] s := keepsBut_refl _ _
  unfold State.ccaBusy
  refine keepsBut_ite ?_ ?_
  · refine keepsBut_step keeps_State_meshAttemptFailed (by decide) ?_
    exact keepsBut_step keeps_State_bump (by decide) (by assumption)
  · extract_lets +onlyGivenNames x0
    extract_lets +onlyGivenNames x1
    refine keepsBut_step keeps_State_meshSet (by decide) ?_
    exact keepsBut_step keeps_State_rfWait (by decide) (by assumption)

theorem keeps_State_withCommand {s : State} {c : Instr} :
    s.keepsBut [.pending] (s.withCommand c) := by
  have h0 : State.keepsBut s [.pending] s := keepsBut_refl _ _
  unfold State.withCommand
  exact keepsBut_step keeps_with_pending (by decide) (by assumption)

theorem keeps_State_withFetchWord {s : State} {nbits : ℕ} {w : ℕ} :
    s.keepsBut [.pending] (s.withFetchWord nbits w) := by
  have h0 : State.keepsBut s [.pending] s := keepsBut_refl _ _
  unfold State.withFetchWord
  split
  · exact keepsBut_step keeps_State_withCommand (by decide) (by assumption)
  · assumption

theorem keeps_State_findLog {s : State} {g : LogId} :
    s.keepsBut [.way, .host, .regs, .boot, .out] (s.findLog g) := by
  have h0 : State.keepsBut s [.way, .host, .regs, .boot, .out] s := keepsBut_refl _ _
  simp only [State.findLog]
  split
  · refine keepsBut_ite ?_ ?_
    · exact keeps_State_finishClear.weaken (by decide)
    · exact keeps_State_modLog.weaken (by decide)
  · refine keepsBut_step keeps_State_event (by decide) ?_
    refine keepsBut_step keeps_State_raiseInt (by decide) ?_
    refine keepsBut_step keeps_with_boot (by decide) ?_
    exact keeps_State_modLog.weaken (by decide)

theorem keeps_State_findPositions {s : State} :
    s.keepsBut [.way, .host, .regs, .boot, .out] (s.findPositions) := by
  have h0 : State.keepsBut s [.way, .host, .regs, .boot, .out] s := keepsBut_refl _ _
  unfold State.findPositions
  extract_lets +onlyGivenNames x0
  have hx0 : State.keepsBut s [.way, .host, .regs, .boot, .out] x0 := by
    unfold x0
    refine keepsBut_foldl ?_ ?_
    · intro u a hu
      try beta_reduce
      · exact keepsBut_step keeps_State_findLog (by decide) (by assumption)
    · assumption
  try clear_value x0
  extract_lets +onlyGivenNames x1
  try clear_value x1
  extract_lets +onlyGivenNames x2
  try clear_value x2
  extract_lets +onlyGivenNames x3
  have hx3 : State.keepsBut s [.way, .host, .regs, .boot, .out] x3 := by
    unfold x3
    exact keepsBut_step keeps_with_way (by decide) (by assumption)
  try clear_value x3
  refine keepsBut_foldl ?_ ?_
  · intro u a hu
    try beta_reduce
    · exact keepsBut_step keeps_State_decideEvent (by decide) (by assumption)
  · assumption

theorem keeps_State_dropRecords {s : State} :
    s.keepsBut [.way, .ful, .host, .regs, .readings, .out, .bil, .val] (s.dropRecords) := by
  have h0 : State.keepsBut s [.way, .ful, .host, .regs, .readings, .out, .bil, .val] s := keepsBut_refl _ _
  unfold State.dropRecords
  extract_lets +onlyGivenNames x0
  try clear_value x0
  extract_lets +onlyGivenNames x1
  try clear_value x1
  extract_lets +onlyGivenNames x2
  try clear_value x2
  extract_lets +onlyGivenNames x3
  try clear_value x3
  extract_lets +onlyGivenNames x4
  have hx4 : State.keepsBut s [.way, .ful, .host, .regs, .readings, .out, .bil, .val] x4 := by
    unfold x4
    refine keepsBut_foldl ?_ ?_
    · intro u a hu
      try beta_reduce
      · exact keepsBut_step keeps_State_bumpBy (by decide) (by assumption)
    · assumption
  try clear_value x4
  extract_lets +onlyGivenNames x5
  try clear_value x5
  extract_lets +onlyGivenNames x6
  try clear_value x6
  extract_lets +onlyGivenNames x7
  try clear_value x7
  extract_lets +onlyGivenNames x8
  try clear_value x8
  extract_lets +onlyGivenNames x9
  have hx9 : State.keepsBut s [.way, .ful, .host, .regs, .readings, .out, .bil, .val] x9 := by
    unfold x9
    exact keepsBut_step keeps_with_val_bil_ful_readings (by decide) (by assumption)
  try clear_value x9
  refine keepsBut_ite ?_ ?_
  · assumption
  · refine keepsBut_step keeps_State_event (by decide) ?_
    exact keepsBut_step keeps_State_bumpBy (by decide) (by assumption)

theorem keeps_State_abandonDeliveries {s : State} :
    s.keepsBut [.way, .host, .limits, .regs, .out, .upd] (s.abandonDeliveries) := by
  have h0 : State.keepsBut s [.way, .host, .limits, .regs, .out, .upd] s := keepsBut_refl _ _
  unfold State.abandonDeliveries
  refine keepsBut_foldl ?_ ?_
  · intro u a hu
    try beta_reduce
    · exact keepsBut_step keeps_State_note (by decide) (by assumption)
  · exact keepsBut_step keeps_with_upd (by decide) (by assumption)

theorem keeps_State_gaspHold {s : State} :
    s.keepsBut [.rst] (s.gaspHold) := by
  have h0 : State.keepsBut s [.rst] s := keepsBut_refl _ _
  unfold State.gaspHold
  split
  · assumption
  · exact keepsBut_step keeps_with_rst (by decide) (by assumption)

theorem keeps_State_sbEmit {s : State} {p : SbResponse} :
    s.keepsBut [.regs, .out] (s.sbEmit p) := by
  have h0 : State.keepsBut s [.regs, .out] s := keepsBut_refl _ _
  unfold State.sbEmit
  refine keepsBut_step keeps_State_bump (by decide) ?_
  exact keepsBut_step keeps_State_emit (by decide) (by assumption)

theorem keeps_State_enterGasp {s : State} {cause : ℕ} :
    s.keepsBut [.way, .ful, .host, .rst, .limits, .cch, .tim, .regs, .readings, .boot, .out, .upd, .pwr, .bil, .val, .hwl, .ing]
        (s.enterGasp cause) := by
  have h0 : State.keepsBut s [.way, .ful, .host, .rst, .limits, .cch, .tim, .regs, .readings, .boot, .out, .upd, .pwr, .bil, .val,
      .hwl, .ing] s := keepsBut_refl _ _
  unfold State.enterGasp
  refine keepsBut_ite ?_ ?_
  · exact keepsBut_step keeps_State_modPwr (by decide) (by assumption)
  · extract_lets +onlyGivenNames x0
    have hx0 : State.keepsBut s [.way, .ful, .host, .rst, .limits, .cch, .tim, .regs, .readings, .boot, .out, .upd, .pwr, .bil, .val,
        .hwl, .ing] x0 := by
      unfold x0
      refine keepsBut_step keeps_State_setMode (by decide) ?_
      exact keepsBut_step keeps_State_endRide (by decide) (by assumption)
    try clear_value x0
    extract_lets +onlyGivenNames x1
    have hx1 : State.keepsBut s [.way, .ful, .host, .rst, .limits, .cch, .tim, .regs, .readings, .boot, .out, .upd, .pwr, .bil, .val,
        .hwl, .ing] x1 := by
      unfold x1
      split
      · exact keepsBut_step keeps_State_note (by decide) (by assumption)
      · assumption
    try clear_value x1
    extract_lets +onlyGivenNames x2
    have hx2 : State.keepsBut s [.way, .ful, .host, .rst, .limits, .cch, .tim, .regs, .readings, .boot, .out, .upd, .pwr, .bil, .val,
        .hwl, .ing] x2 := by
      unfold x2
      refine keepsBut_step keeps_State_gaspHold (by decide) ?_
      refine keepsBut_step keeps_State_gaspTime (by decide) ?_
      exact keepsBut_step keeps_State_modPwr (by decide) (by assumption)
    try clear_value x2
    extract_lets +onlyGivenNames x3
    try clear_value x3
    extract_lets +onlyGivenNames x4
    have hx4 : State.keepsBut s [.way, .ful, .host, .rst, .limits, .cch, .tim, .regs, .readings, .boot, .out, .upd, .pwr, .bil, .val,
        .hwl, .ing] x4 := by
      unfold x4
      refine keepsBut_step keeps_State_dropRecords (by decide) ?_
      exact keepsBut_step keeps_with_ing (by decide) (by assumption)
    try clear_value x4
    extract_lets +onlyGivenNames x5
    have hx5 : State.keepsBut s [.way, .ful, .host, .rst, .limits, .cch, .tim, .regs, .readings, .boot, .out, .upd, .pwr, .bil, .val,
        .hwl, .ing] x5 := by
      unfold x5
      refine keepsBut_step keeps_State_sendLeave (by decide) ?_
      refine keepsBut_step keeps_State_releaseOwner (by decide) ?_
      refine keepsBut_step keeps_State_abandonDeliveries (by decide) ?_
      exact keepsBut_step keeps_State_endExpert (by decide) (by assumption)
    try clear_value x5
    extract_lets +onlyGivenNames x6
    have hx6 : State.keepsBut s [.way, .ful, .host, .rst, .limits, .cch, .tim, .regs, .readings, .boot, .out, .upd, .pwr, .bil, .val,
        .hwl, .ing] x6 := by
      unfold x6
      exact keepsBut_step keeps_State_sbEmit (by decide) (by assumption)
    try clear_value x6
    refine keepsBut_step keeps_State_gaspProgress (by decide) ?_
    exact keepsBut_step keeps_State_stopFuller (by decide) (by assumption)

theorem keeps_State_evaluate {s : State} :
    s.keepsBut [.way, .ful, .host, .rst, .limits, .cch, .tim, .regs, .readings, .boot, .out, .upd, .pwr, .bil, .val, .hwl, .ing]
        (s.evaluate) := by
  have h0 : State.keepsBut s [.way, .ful, .host, .rst, .limits, .cch, .tim, .regs, .readings, .boot, .out, .upd, .pwr, .bil, .val,
      .hwl, .ing] s := keepsBut_refl _ _
  unfold State.evaluate
  refine keepsBut_ite ?_ ?_
  · assumption
  · extract_lets +onlyGivenNames x0
    try clear_value x0
    split
    · refine keepsBut_ite ?_ ?_
      · exact keepsBut_step keeps_State_enterGasp (by decide) (by assumption)
      · assumption
    · assumption
    · refine keepsBut_ite ?_ ?_
      · exact keepsBut_step keeps_State_enterGasp (by decide) (by assumption)
      · refine keepsBut_ite ?_ ?_
        · refine keepsBut_ite ?_ ?_
          · exact keepsBut_step keeps_State_enterGasp (by decide) (by assumption)
          · assumption
        · refine keepsBut_ite ?_ ?_
          · exact keepsBut_step keeps_State_powered (by decide) (by assumption)
          · refine keepsBut_ite ?_ ?_
            · refine keepsBut_ite ?_ ?_
              · assumption
              · refine keepsBut_step keeps_State_setMode (by decide) ?_
                exact keepsBut_step keeps_State_modPwr (by decide) (by assumption)
            · exact keepsBut_step keeps_State_enterGasp (by decide) (by assumption)

theorem keeps_State_startTime {s : State} :
    s.keepsBut [.tim] (s.startTime) := by
  have h0 : State.keepsBut s [.tim] s := keepsBut_refl _ _
  unfold State.startTime
  extract_lets +onlyGivenNames x0
  try clear_value x0
  extract_lets +onlyGivenNames x1
  try clear_value x1
  exact keepsBut_step keeps_State_modTim (by decide) (by assumption)

theorem keeps_State_enterRecovery {s : State} {code : ℕ} {short : ℕ} :
    s.keepsBut [.cfg, .way, .ful, .host, .rst, .limits, .cch, .tim, .regs, .readings, .boot, .out, .upd, .pwr, .sec, .bil, .val, .hwl,
        .ing, .sb] (s.enterRecovery code short) := by
  have h0 : State.keepsBut s [.cfg, .way, .ful, .host, .rst, .limits, .cch, .tim, .regs, .readings, .boot, .out, .upd, .pwr, .sec,
      .bil, .val, .hwl, .ing, .sb] s := keepsBut_refl _ _
  unfold State.enterRecovery
  extract_lets +onlyGivenNames x0
  have hx0 : State.keepsBut s [.cfg, .way, .ful, .host, .rst, .limits, .cch, .tim, .regs, .readings, .boot, .out, .upd, .pwr, .sec,
      .bil, .val, .hwl, .ing, .sb] x0 := by
    unfold x0
    exact keepsBut_step keeps_State_failEvent (by decide) (by assumption)
  try clear_value x0
  extract_lets +onlyGivenNames x1
  try clear_value x1
  extract_lets +onlyGivenNames x2
  have hx2 : State.keepsBut s [.cfg, .way, .ful, .host, .rst, .limits, .cch, .tim, .regs, .readings, .boot, .out, .upd, .pwr, .sec,
      .bil, .val, .hwl, .ing, .sb] x2 := by
    unfold x2
    exact keepsBut_step keeps_with_cfg_boot (by decide) (by assumption)
  try clear_value x2
  extract_lets +onlyGivenNames x3
  have hx3 : State.keepsBut s [.cfg, .way, .ful, .host, .rst, .limits, .cch, .tim, .regs, .readings, .boot, .out, .upd, .pwr, .sec,
      .bil, .val, .hwl, .ing, .sb] x3 := by
    unfold x3
    exact keepsBut_step keeps_State_zeroMeas (by decide) (by assumption)
  try clear_value x3
  split
  · refine keepsBut_step keeps_State_event (by decide) ?_
    exact keepsBut_step keeps_with_boot (by decide) (by assumption)
  · extract_lets +onlyGivenNames x4
    have hx4 : State.keepsBut s [.cfg, .way, .ful, .host, .rst, .limits, .cch, .tim, .regs, .readings, .boot, .out, .upd, .pwr, .sec,
        .bil, .val, .hwl, .ing, .sb] x4 := by
      unfold x4
      exact keepsBut_step keeps_State_extend (by decide) (by assumption)
    try clear_value x4
    extract_lets +onlyGivenNames x5
    try clear_value x5
    extract_lets +onlyGivenNames x6
    try clear_value x6
    extract_lets +onlyGivenNames x7
    try clear_value x7
    extract_lets +onlyGivenNames x8
    try clear_value x8
    extract_lets +onlyGivenNames x9
    try clear_value x9
    extract_lets +onlyGivenNames x10
    have hx10 : State.keepsBut s [.cfg, .way, .ful, .host, .rst, .limits, .cch, .tim, .regs, .readings, .boot, .out, .upd, .pwr, .sec,
        .bil, .val, .hwl, .ing, .sb] x10 := by
      unfold x10
      exact keepsBut_step keeps_with_boot_pwr_rst_host_sb (by decide) (by assumption)
    try clear_value x10
    extract_lets +onlyGivenNames x11
    have hx11 : State.keepsBut s [.cfg, .way, .ful, .host, .rst, .limits, .cch, .tim, .regs, .readings, .boot, .out, .upd, .pwr, .sec,
        .bil, .val, .hwl, .ing, .sb] x11 := by
      unfold x11
      refine keepsBut_step keeps_State_startTime (by decide) ?_
      exact keepsBut_step keeps_State_keepRecord (by decide) (by assumption)
    try clear_value x11
    extract_lets +onlyGivenNames x12
    have hx12 : State.keepsBut s [.cfg, .way, .ful, .host, .rst, .limits, .cch, .tim, .regs, .readings, .boot, .out, .upd, .pwr, .sec,
        .bil, .val, .hwl, .ing, .sb] x12 := by
      unfold x12
      refine keepsBut_ite ?_ ?_
      · assumption
      · exact keepsBut_step keeps_State_findPositions (by decide) (by assumption)
    try clear_value x12
    refine keepsBut_step keeps_State_evaluate (by decide) ?_
    exact keepsBut_step keeps_State_setMode (by decide) (by assumption)

theorem keeps_State_sendSlotSet {s : State} {i : ℕ} :
    s.keepsBut [.regs, .draws, .rfm, .ctx] (s.sendSlotSet i) := by
  have h0 : State.keepsBut s [.regs, .draws, .rfm, .ctx] s := keepsBut_refl _ _
  unfold State.sendSlotSet
  extract_lets +onlyGivenNames x0
  have hx0 : State.keepsBut s [.regs, .draws, .rfm, .ctx] x0 := by
    unfold x0
    refine keepsBut_step keeps_State_bump (by decide) ?_
    exact keepsBut_step keeps_State_modRadio (by decide) (by assumption)
  try clear_value x0
  exact keepsBut_step keeps_State_meshTo (by decide) (by assumption)

theorem keeps_State_measure {s : State} {i : ℕ} {tp : ℕ} {lag : ℕ} :
    s.keepsBut [.regs, .draws, .rfm, .ctx] (s.measure i tp lag).1 := by
  have h0 : State.keepsBut s [.regs, .draws, .rfm, .ctx] s := keepsBut_refl _ _
  unfold State.measure
  extract_lets +onlyGivenNames x0
  try clear_value x0
  extract_lets +onlyGivenNames x1
  try clear_value x1
  extract_lets +onlyGivenNames x2
  try clear_value x2
  extract_lets +onlyGivenNames x3
  try clear_value x3
  extract_lets +onlyGivenNames x4
  try clear_value x4
  extract_lets +onlyGivenNames x5
  try clear_value x5
  refine keepsBut_iteFst ?_ ?_
  · dsimp only
    refine keepsBut_step keeps_State_sendSlotSet (by decide) ?_
    exact keepsBut_step keeps_State_bump (by decide) (by assumption)
  · extract_lets +onlyGivenNames x6
    try clear_value x6
    dsimp only
    exact keepsBut_step keeps_State_modRadio (by decide) (by assumption)

theorem keeps_State_uplinkTiming {s : State} {i : ℕ} {tp : ℕ} {m : MeshTiming} :
    s.keepsBut [.regs, .draws, .rfm, .ctx] (s.uplinkTiming i tp m) := by
  have h0 : State.keepsBut s [.regs, .draws, .rfm, .ctx] s := keepsBut_refl _ _
  unfold State.uplinkTiming
  extract_lets +onlyGivenNames x0
  have hx0 : State.keepsBut s [.regs, .draws, .rfm, .ctx] x0 := by
    unfold x0
    refine keepsBut_ite ?_ ?_
    · exact keepsBut_step keeps_State_bump (by decide) (by assumption)
    · assumption
  try clear_value x0
  extract_lets +onlyGivenNames x1
  try clear_value x1
  refine keepsBut_ite ?_ ?_
  · exact keepsBut_step keeps_State_sendSlotSet (by decide) (by assumption)
  · refine keepsBut_ite ?_ ?_
    · exact keepsBut_step keeps_State_measure (by decide) (by assumption)
    · assumption

theorem keeps_State_ethRelease {s : State} {p : ℕ} :
    s.keepsBut [.regs, .out, .eth] (s.ethRelease p) := by
  have h0 : State.keepsBut s [.regs, .out, .eth] s := keepsBut_refl _ _
  unfold State.ethRelease
  refine keepsBut_ite ?_ ?_
  · assumption
  · extract_lets +onlyGivenNames x0
    try clear_value x0
    refine keepsBut_foldl ?_ ?_
    · intro u a hu
      try beta_reduce
      · refine keepsBut_step keeps_State_ethTransmit (by decide) ?_
        exact keepsBut_step keeps_State_modEthPort (by decide) (by assumption)
    · assumption

theorem keeps_State_slotReturn {s : State} {i : ℕ} :
    s.keepsBut [.regs, .ctx] (s.slotReturn i) := by
  have h0 : State.keepsBut s [.regs, .ctx] s := keepsBut_refl _ _
  unfold State.slotReturn
  refine keepsBut_step keeps_State_bump (by decide) ?_
  exact keepsBut_step keeps_State_modRadio (by decide) (by assumption)

theorem keeps_State_ackTiming {s : State} {x : MeshTx} {start : ℕ} {timing : Option MeshTiming} :
    s.keepsBut [.regs, .draws, .rfm, .ctx] (s.ackTiming x start timing) := by
  have h0 : State.keepsBut s [.regs, .draws, .rfm, .ctx] s := keepsBut_refl _ _
  unfold State.ackTiming
  split
  · assumption
  · extract_lets +onlyGivenNames x0
    try clear_value x0
    extract_lets +onlyGivenNames x1
    have hx1 : State.keepsBut s [.regs, .draws, .rfm, .ctx] x1 := by
      unfold x1
      split
      · refine keepsBut_ite ?_ ?_
        · exact keepsBut_step keeps_State_bump (by decide) (by assumption)
        · assumption
      · assumption
    try clear_value x1
    extract_lets +onlyGivenNames x2
    try clear_value x2
    extract_lets +onlyGivenNames x3
    have hx3 : State.keepsBut s [.regs, .draws, .rfm, .ctx] x3.1 := by
      unfold x3
      refine keepsBut_iteFst ?_ ?_
      · exact keepsBut_step keeps_State_measure (by decide) (by assumption)
      · dsimp only
        assumption
    try clear_value x3
    split
    · exact keepsBut_step keeps_State_slotReturn (by decide) (by assumption)
    · assumption
    · refine keepsBut_ite ?_ ?_
      · refine keepsBut_step keeps_State_bump (by decide) ?_
        exact keepsBut_step keeps_State_modRadio (by decide) (by assumption)
      · refine keepsBut_ite ?_ ?_
        · refine keepsBut_ite ?_ ?_
          · exact keepsBut_step keeps_State_sendSlotSet (by decide) (by assumption)
          · refine keepsBut_ite ?_ ?_
            · exact keepsBut_step keeps_State_slotReturn (by decide) (by assumption)
            · assumption
        · refine keepsBut_ite ?_ ?_
          · assumption
          · assumption

theorem keeps_State_feederReport {s : State} {f : FeederRecord} {mseq : Option (BitVec 32)} :
    s.keepsBut [.host, .regs, .hwl] (s.feederReport f mseq) := by
  have h0 : State.keepsBut s [.host, .regs, .hwl] s := keepsBut_refl _ _
  unfold State.feederReport
  extract_lets +onlyGivenNames x0
  try clear_value x0
  refine keepsBut_ite ?_ ?_
  · exact keepsBut_step keeps_State_route (by decide) (by assumption)
  · exact keepsBut_step keeps_with_hwl (by decide) (by assumption)

theorem keeps_State_checkFull {s : State} :
    s.keepsBut [.ful, .regs, .out] (s.checkFull) := by
  have h0 : State.keepsBut s [.ful, .regs, .out] s := keepsBut_refl _ _
  unfold State.checkFull
  extract_lets +onlyGivenNames x0
  try clear_value x0
  extract_lets +onlyGivenNames x1
  try clear_value x1
  extract_lets +onlyGivenNames x2
  have hx2 : State.keepsBut s [.ful, .regs, .out] x2 := by
    unfold x2
    exact keepsBut_step keeps_with_ful (by decide) (by assumption)
  try clear_value x2
  refine keepsBut_ite ?_ ?_
  · exact keepsBut_step keeps_State_raiseInt (by decide) (by assumption)
  · assumption

theorem keeps_State_append8 {s : State} {e : StoreEntry} :
    s.keepsBut [.ful, .regs, .out] (s.append8 e) := by
  have h0 : State.keepsBut s [.ful, .regs, .out] s := keepsBut_refl _ _
  unfold State.append8
  extract_lets +onlyGivenNames x0
  try clear_value x0
  extract_lets +onlyGivenNames x1
  try clear_value x1
  refine keepsBut_ite ?_ ?_
  · exact keepsBut_step keeps_with_ful (by decide) (by assumption)
  · extract_lets +onlyGivenNames x2
    try clear_value x2
    refine keepsBut_step keeps_State_checkFull (by decide) ?_
    exact keepsBut_step keeps_with_ful (by decide) (by assumption)

theorem keeps_State_readingStored {s : State} {id : ℕ} :
    s.keepsBut [.host, .regs, .readings] (s.readingStored id) := by
  have h0 : State.keepsBut s [.host, .regs, .readings] s := keepsBut_refl _ _
  unfold State.readingStored
  exact keepsBut_step keeps_State_markReading (by decide) (by assumption)

theorem keeps_State_appendJournal {s : State} {j : JournalEntry} :
    s.keepsBut [.ful, .regs, .out] (s.appendJournal j) := by
  have h0 : State.keepsBut s [.ful, .regs, .out] s := keepsBut_refl _ _
  unfold State.appendJournal
  extract_lets +onlyGivenNames x0
  try clear_value x0
  extract_lets +onlyGivenNames x1
  have hx1 : State.keepsBut s [.ful, .regs, .out] x1 := by
    unfold x1
    exact keepsBut_step keeps_State_append8 (by decide) (by assumption)
  try clear_value x1
  split
  · split
    · exact keepsBut_step keeps_with_ful (by decide) (by assumption)
    · assumption
  · assumption

theorem keeps_State_append7 {s : State} {a : AnomalyRecord} :
    s.keepsBut [.way, .ful, .host, .limits, .regs, .out] (s.append7 a) := by
  have h0 : State.keepsBut s [.way, .ful, .host, .limits, .regs, .out] s := keepsBut_refl _ _
  unfold State.append7
  extract_lets +onlyGivenNames x0
  try clear_value x0
  extract_lets +onlyGivenNames x1
  try clear_value x1
  extract_lets +onlyGivenNames x2
  try clear_value x2
  extract_lets +onlyGivenNames x3
  have hx3 : State.keepsBut s [.way, .ful, .host, .limits, .regs, .out] x3 := by
    unfold x3
    refine keepsBut_step keeps_State_released (by decide) ?_
    exact keepsBut_step keeps_with_ful (by decide) (by assumption)
  try clear_value x3
  extract_lets +onlyGivenNames x4
  try clear_value x4
  extract_lets +onlyGivenNames x5
  try clear_value x5
  refine keepsBut_ite ?_ ?_
  · exact keepsBut_step keeps_with_ful (by decide) (by assumption)
  · extract_lets +onlyGivenNames x6
    try clear_value x6
    exact keepsBut_step keeps_with_ful (by decide) (by assumption)

theorem keeps_State_append6 {s : State} {g : GroupResult} :
    s.keepsBut [.way, .ful, .host, .limits, .regs, .out] (s.append6 g) := by
  have h0 : State.keepsBut s [.way, .ful, .host, .limits, .regs, .out] s := keepsBut_refl _ _
  unfold State.append6
  extract_lets +onlyGivenNames x0
  try clear_value x0
  extract_lets +onlyGivenNames x1
  try clear_value x1
  extract_lets +onlyGivenNames x2
  try clear_value x2
  extract_lets +onlyGivenNames x3
  have hx3 : State.keepsBut s [.way, .ful, .host, .limits, .regs, .out] x3 := by
    unfold x3
    refine keepsBut_step keeps_State_released (by decide) ?_
    exact keepsBut_step keeps_with_ful (by decide) (by assumption)
  try clear_value x3
  extract_lets +onlyGivenNames x4
  try clear_value x4
  extract_lets +onlyGivenNames x5
  try clear_value x5
  refine keepsBut_ite ?_ ?_
  · exact keepsBut_step keeps_with_ful (by decide) (by assumption)
  · extract_lets +onlyGivenNames x6
    try clear_value x6
    exact keepsBut_step keeps_with_ful (by decide) (by assumption)

theorem keeps_State_place {s : State} {a1 : FulItem} :
    s.keepsBut [.way, .ful, .host, .limits, .regs, .readings, .out, .bil, .hwl] (s.place a1) := by
  have h0 : State.keepsBut s [.way, .ful, .host, .limits, .regs, .readings, .out, .bil, .hwl] s := keepsBut_refl _ _
  unfold State.place
  split
  · refine keepsBut_step keeps_State_readingStored (by decide) ?_
    exact keepsBut_step keeps_State_append8 (by decide) (by assumption)
  · refine keepsBut_step keeps_State_readingStored (by decide) ?_
    refine keepsBut_step keeps_State_readingStored (by decide) ?_
    refine keepsBut_step keeps_State_append8 (by decide) ?_
    exact keepsBut_step keeps_State_append8 (by decide) (by assumption)
  · refine keepsBut_step keeps_State_feederReport (by decide) ?_
    exact keepsBut_step keeps_State_append8 (by decide) (by assumption)
  · refine keepsBut_foldl ?_ ?_
    · intro u a hu
      try beta_reduce
      · exact keepsBut_step keeps_State_appendJournal (by decide) (by assumption)
    · assumption
  · exact keepsBut_step keeps_State_append6 (by decide) (by assumption)
  · exact keepsBut_step keeps_State_append7 (by decide) (by assumption)
  · exact keepsBut_step keeps_with_ful (by decide) (by assumption)
  · extract_lets +onlyGivenNames x0
    have hx0 : State.keepsBut s [.way, .ful, .host, .limits, .regs, .readings, .out, .bil, .hwl] x0 := by
      unfold x0
      exact keepsBut_step keeps_State_append4 (by decide) (by assumption)
    try clear_value x0
    exact keepsBut_step keeps_with_bil (by decide) (by assumption)
  · exact keepsBut_step keeps_with_ful (by decide) (by assumption)

end Sys2Proof.Machine
end

