-- ==== Sys2Proof/Laws/Keeps08.lean ====
section
/-!
SUPPORT. What each shared operation leaves of the state, one lemma an operation, an operation after those it is built from: from `sbSend`
to `takeChainBlock`.
-/

namespace Sys2Proof.Machine

theorem keeps_State_sbSend {s : State} {r : SbReq} {p : SbResponse} :
    s.keepsBut [.regs, .out] (s.sbSend r p) := by
  have h0 : State.keepsBut s [.regs, .out] s := keepsBut_refl _ _
  unfold State.sbSend
  extract_lets +onlyGivenNames x0
  have hx0 : State.keepsBut s [.regs, .out] x0 := by
    unfold x0
    exact keepsBut_step keeps_State_bumpBy (by decide) (by assumption)
  try clear_value x0
  refine keepsBut_ite ?_ ?_
  · exact keepsBut_step keeps_State_bump (by decide) (by assumption)
  · refine keepsBut_ite ?_ ?_
    · exact keepsBut_step keeps_State_bump (by decide) (by assumption)
    · exact keepsBut_step keeps_State_sbEmit (by decide) (by assumption)

theorem keeps_State_sidebandReport {s : State} {mac : BitVec 48} {r : Report} :
    s.keepsBut [.regs, .out, .sb] (s.sidebandReport mac r) := by
  have h0 : State.keepsBut s [.regs, .out, .sb] s := keepsBut_refl _ _
  unfold State.sidebandReport
  split
  · assumption
  · extract_lets +onlyGivenNames x0
    try clear_value x0
    extract_lets +onlyGivenNames x1
    try clear_value x1
    extract_lets +onlyGivenNames x2
    have hx2 : State.keepsBut s [.regs, .out, .sb] x2 := by
      unfold x2
      exact keepsBut_step keeps_State_sbEmit (by decide) (by assumption)
    try clear_value x2
    refine keepsBut_ite ?_ ?_
    · assumption
    · exact keepsBut_step keeps_with_sb (by decide) (by assumption)

theorem keeps_State_jobProgress {s : State} {j : JobRef} {detail : List Byte} :
    s.keepsBut [.host, .regs] (s.jobProgress j detail) := by
  have h0 : State.keepsBut s [.host, .regs] s := keepsBut_refl _ _
  unfold State.jobProgress
  exact keepsBut_step keeps_State_jobReport (by decide) (by assumption)

theorem keeps_State_setChain {s : State} {n : ℕ} {c : PlcChain} :
    s.keepsBut [.plc] (s.setChain n c) := by
  have h0 : State.keepsBut s [.plc] s := keepsBut_refl _ _
  unfold State.setChain
  exact keepsBut_step keeps_State_modPlc (by decide) (by assumption)

theorem keeps_State_drive {s : State} {phases : List ℕ} {first : ℕ} {airtime : ℕ} :
    s.keepsBut [.plc, .regs] (s.drive phases first airtime) := by
  have h0 : State.keepsBut s [.plc, .regs] s := keepsBut_refl _ _
  unfold State.drive
  extract_lets +onlyGivenNames x0
  have hx0 : State.keepsBut s [.plc, .regs] x0 := by
    unfold x0
    exact keepsBut_step keeps_State_modPlc (by decide) (by assumption)
  try clear_value x0
  refine keepsBut_foldl ?_ ?_
  · intro u a hu
    try beta_reduce
    · refine keepsBut_ite ?_ ?_
      · refine keepsBut_step keeps_State_bump (by decide) ?_
        exact keepsBut_step keeps_State_setChain (by decide) (by assumption)
      · assumption
  · assumption

theorem keeps_State_readFifo {s : State} {n : ℕ} {t : Ticketed} :
    s.keepsBut [.regs, .out, .ing] (s.readFifo n t) := by
  have h0 : State.keepsBut s [.regs, .out, .ing] s := keepsBut_refl _ _
  unfold State.readFifo
  refine keepsBut_ite ?_ ?_
  · exact keepsBut_step keeps_with_ing (by decide) (by assumption)
  · extract_lets +onlyGivenNames x0
    try clear_value x0
    refine keepsBut_step keeps_State_checkThreshold (by decide) ?_
    exact keepsBut_step keeps_with_ing (by decide) (by assumption)

theorem keeps_State_endDeferred {s : State} {i : ℕ} :
    s.keepsBut [.way, .host, .limits, .regs, .out, .bil, .hwl] (s.endDeferred i) := by
  have h0 : State.keepsBut s [.way, .host, .limits, .regs, .out, .bil, .hwl] s := keepsBut_refl _ _
  unfold State.endDeferred
  refine keepsBut_ite ?_ ?_
  · assumption
  · exact keepsBut_step keeps_State_postLegal (by decide) (by assumption)

theorem keeps_State_txnSent {s : State} {t : ℕ} :
    s.keepsBut [.txn] (s.txnSent t) := by
  have h0 : State.keepsBut s [.txn] s := keepsBut_refl _ _
  unfold State.txnSent
  extract_lets +onlyGivenNames x0
  try clear_value x0
  refine keepsBut_ite ?_ ?_
  · assumption
  · extract_lets +onlyGivenNames x1
    try clear_value x1
    exact keepsBut_step keeps_State_setTag (by decide) (by assumption)

theorem keeps_State_plcSet {s : State} {x : PlcTx} {y : PlcTx} :
    s.keepsBut [.plc] (s.plcSet x y) := by
  have h0 : State.keepsBut s [.plc] s := keepsBut_refl _ _
  unfold State.plcSet
  exact keepsBut_step keeps_State_modPlc (by decide) (by assumption)

theorem keeps_State_plcTransmit {s : State} {x : PlcTx} :
    s.keepsBut [.plc, .way, .host, .limits, .cch, .regs, .out, .upd, .txn, .rfm, .ctx] (s.plcTransmit x) := by
  have h0 : State.keepsBut s [.plc, .way, .host, .limits, .cch, .regs, .out, .upd, .txn, .rfm, .ctx] s := keepsBut_refl _ _
  unfold State.plcTransmit
  extract_lets +onlyGivenNames x0
  try clear_value x0
  extract_lets +onlyGivenNames x1
  try clear_value x1
  extract_lets +onlyGivenNames x2
  try clear_value x2
  extract_lets +onlyGivenNames x3
  try clear_value x3
  extract_lets +onlyGivenNames x4
  try clear_value x4
  extract_lets +onlyGivenNames x5
  have hx5 : State.keepsBut s [.plc, .way, .host, .limits, .cch, .regs, .out, .upd, .txn, .rfm, .ctx] x5 := by
    unfold x5
    refine keepsBut_step keeps_State_emit (by decide) ?_
    refine keepsBut_step keeps_State_bump (by decide) ?_
    exact keepsBut_step keeps_State_drive (by decide) (by assumption)
  try clear_value x5
  extract_lets +onlyGivenNames x6
  have hx6 : State.keepsBut s [.plc, .way, .host, .limits, .cch, .regs, .out, .upd, .txn, .rfm, .ctx] x6 := by
    unfold x6
    split
    · exact keepsBut_step keeps_State_txnSent (by decide) (by assumption)
    · assumption
  try clear_value x6
  refine keepsBut_ite ?_ ?_
  · extract_lets +onlyGivenNames x7
    have hx7 : State.keepsBut s [.plc, .way, .host, .limits, .cch, .regs, .out, .upd, .txn, .rfm, .ctx] x7 := by
      unfold x7
      exact keepsBut_step keeps_State_plcDone (by decide) (by assumption)
    try clear_value x7
    split
    · exact keepsBut_step keeps_State_completeTxn (by decide) (by assumption)
    · assumption
  · exact keepsBut_step keeps_State_plcSet (by decide) (by assumption)

theorem keeps_State_setDist {s : State} {i : ℕ} {hops : ℕ} {lower : Bool} :
    s.keepsBut [.ctx] (s.setDist i hops lower) := by
  have h0 : State.keepsBut s [.ctx] s := keepsBut_refl _ _
  unfold State.setDist
  exact keepsBut_step keeps_State_modRadio (by decide) (by assumption)

theorem keeps_State_meshHeardFrom {s : State} {h : MeshHeard} {hops : ℕ} :
    s.keepsBut [.regs, .draws, .rfm, .ctx] (s.meshHeardFrom h hops) := by
  have h0 : State.keepsBut s [.regs, .draws, .rfm, .ctx] s := keepsBut_refl _ _
  unfold State.meshHeardFrom
  extract_lets +onlyGivenNames x0
  try clear_value x0
  refine keepsBut_ite ?_ ?_
  · assumption
  · extract_lets +onlyGivenNames x1
    have hx1 : State.keepsBut s [.regs, .draws, .rfm, .ctx] x1 := by
      unfold x1
      refine keepsBut_step keeps_State_modRadio (by decide) ?_
      refine keepsBut_step keeps_State_setDist (by decide) ?_
      exact keepsBut_step keeps_State_heardMeter (by decide) (by assumption)
    try clear_value x1
    split
    · refine keepsBut_ite ?_ ?_
      · exact keepsBut_step keeps_State_uplinkTiming (by decide) (by assumption)
      · assumption
    · assumption

theorem keeps_State_preCheck {s : State} {name : ℕ} {src : Option Gmn} :
    s.keepsBut [.way, .host, .limits, .regs, .out] (s.preCheck name src).1 := by
  have h0 : State.keepsBut s [.way, .host, .limits, .regs, .out] s := keepsBut_refl _ _
  unfold State.preCheck
  refine keepsBut_iteFst ?_ ?_
  · dsimp only
    assumption
  · extract_lets +onlyGivenNames x0
    try clear_value x0
    extract_lets +onlyGivenNames x1
    try clear_value x1
    refine keepsBut_iteFst ?_ ?_
    · dsimp only
      exact keepsBut_step keeps_State_noteMeter (by decide) (by assumption)
    · refine keepsBut_iteFst ?_ ?_
      · dsimp only
        exact keepsBut_step keeps_State_noteMeter (by decide) (by assumption)
      · refine keepsBut_iteFst ?_ ?_
        · dsimp only
          assumption
        · dsimp only
          refine keepsBut_step keeps_State_noteMeter (by decide) ?_
          exact keepsBut_step keeps_State_raiseInt (by decide) (by assumption)

theorem keeps_State_meshDeliver {s : State} {h : MeshHeard} {hops : ℕ} :
    s.keepsBut [.plc, .way, .host, .limits, .regs, .out, .draws, .ing, .rfm, .ctx] (s.meshDeliver h hops).1 := by
  have h0 : State.keepsBut s [.plc, .way, .host, .limits, .regs, .out, .draws, .ing, .rfm, .ctx] s := keepsBut_refl _ _
  unfold State.meshDeliver
  extract_lets +onlyGivenNames x0
  try clear_value x0
  refine keepsBut_iteFst ?_ ?_
  · extract_lets +onlyGivenNames x1
    have hx1 : State.keepsBut s [.plc, .way, .host, .limits, .regs, .out, .draws, .ing, .rfm, .ctx] x1.1 := by
      unfold x1
      exact keepsBut_step keeps_State_preCheck (by decide) (by assumption)
    try clear_value x1
    refine keepsBut_iteFst ?_ ?_
    · dsimp only
      refine keepsBut_step keeps_State_meshHeardFrom (by decide) ?_
      exact keepsBut_step keeps_State_meshToll (by decide) (by assumption)
    · extract_lets +onlyGivenNames x2
      try clear_value x2
      refine keepsBut_iteFst ?_ ?_
      · dsimp only
        exact keepsBut_step keeps_State_ingestFrame (by decide) (by assumption)
      · dsimp only
        refine keepsBut_step keeps_State_bump (by decide) ?_
        refine keepsBut_step keeps_State_meshHeardFrom (by decide) ?_
        refine keepsBut_step keeps_State_meshToll (by decide) ?_
        exact keepsBut_step keeps_State_ingestFrame (by decide) (by assumption)
  · refine keepsBut_iteFst ?_ ?_
    · dsimp only
      refine keepsBut_step keeps_State_bump (by decide) ?_
      refine keepsBut_step keeps_State_meshHeardFrom (by decide) ?_
      exact keepsBut_step keeps_State_meshToll (by decide) (by assumption)
    · refine keepsBut_iteFst ?_ ?_
      · dsimp only
        refine keepsBut_step keeps_State_meshJoin (by decide) ?_
        refine keepsBut_step keeps_State_bump (by decide) ?_
        exact keepsBut_step keeps_State_meshToll (by decide) (by assumption)
      · dsimp only
        exact keepsBut_step keeps_State_meshToll (by decide) (by assumption)

theorem keeps_State_mirrorAck {s : State} {m : BitVec 32} :
    s.keepsBut [.host, .regs, .readings, .out, .hwl] (s.mirrorAck m) := by
  have h0 : State.keepsBut s [.host, .regs, .readings, .out, .hwl] s := keepsBut_refl _ _
  unfold State.mirrorAck
  extract_lets +onlyGivenNames x0
  try clear_value x0
  extract_lets +onlyGivenNames x1
  try clear_value x1
  extract_lets +onlyGivenNames x2
  try clear_value x2
  extract_lets +onlyGivenNames x3
  have hx3 : State.keepsBut s [.host, .regs, .readings, .out, .hwl] x3 := by
    unfold x3
    exact keepsBut_step keeps_State_modHwl (by decide) (by assumption)
  try clear_value x3
  extract_lets +onlyGivenNames x4
  have hx4 : State.keepsBut s [.host, .regs, .readings, .out, .hwl] x4 := by
    unfold x4
    refine keepsBut_step keeps_State_flushReadings (by decide) ?_
    exact keepsBut_step keeps_State_sendHeld (by decide) (by assumption)
  try clear_value x4
  refine keepsBut_ite ?_ ?_
  · exact keepsBut_step keeps_State_syncDone (by decide) (by assumption)
  · assumption

theorem keeps_State_splitEntry {src : ℕ} {sender : ℕ} {s : State} {e : RelayEntry} :
    s.keepsBut [.way, .host, .limits, .regs, .out, .ing] (State.splitEntry src sender s e) := by
  have h0 : State.keepsBut s [.way, .host, .limits, .regs, .out, .ing] s := keepsBut_refl _ _
  unfold State.splitEntry
  refine keepsBut_ite ?_ ?_
  · exact keepsBut_step keeps_State_note (by decide) (by assumption)
  · extract_lets +onlyGivenNames x0
    try clear_value x0
    extract_lets +onlyGivenNames x1
    have hx1 : State.keepsBut s [.way, .host, .limits, .regs, .out, .ing] x1 := by
      unfold x1
      exact keepsBut_step keeps_with_ing (by decide) (by assumption)
    try clear_value x1
    refine keepsBut_step keeps_State_bump (by decide) ?_
    exact keepsBut_step keeps_State_takeTicket (by decide) (by assumption)

theorem keeps_State_acceptBundle {s : State} {b : RelayBundle} {src : ℕ} {sender : ℕ} :
    s.keepsBut [.way, .host, .limits, .regs, .out, .ing] (s.acceptBundle b src sender) := by
  have h0 : State.keepsBut s [.way, .host, .limits, .regs, .out, .ing] s := keepsBut_refl _ _
  unfold State.acceptBundle
  extract_lets +onlyGivenNames x0
  try clear_value x0
  refine keepsBut_ite ?_ ?_
  · exact keepsBut_step keeps_State_note (by decide) (by assumption)
  · extract_lets +onlyGivenNames x1
    try clear_value x1
    extract_lets +onlyGivenNames x2
    try clear_value x2
    extract_lets +onlyGivenNames x3
    have hx3 : State.keepsBut s [.way, .host, .limits, .regs, .out, .ing] x3 := by
      unfold x3
      exact keepsBut_step keeps_with_ing (by decide) (by assumption)
    try clear_value x3
    refine keepsBut_ite ?_ ?_
    · exact keepsBut_step keeps_State_bump (by decide) (by assumption)
    · refine keepsBut_foldl ?_ ?_
      · intro u a hu
        try beta_reduce
        · exact keepsBut_step keeps_State_splitEntry (by decide) (by assumption)
      · assumption

theorem keeps_State_selftestFail {s : State} {n : ℕ} :
    s.keepsBut [.boot] (s.selftestFail n) := by
  have h0 : State.keepsBut s [.boot] s := keepsBut_refl _ _
  unfold State.selftestFail
  exact keepsBut_step keeps_with_boot (by decide) (by assumption)

theorem keeps_State_runSet {e : StartEnv} {f : FwSet} {s : State} :
    s.keepsBut [.way, .host, .regs, .boot, .out, .bil] (State.runSet e f s) := by
  have h0 : State.keepsBut s [.way, .host, .regs, .boot, .out, .bil] s := keepsBut_refl _ _
  unfold State.runSet
  extract_lets +onlyGivenNames x0
  try clear_value x0
  extract_lets +onlyGivenNames x1
  try clear_value x1
  extract_lets +onlyGivenNames x2
  try clear_value x2
  extract_lets +onlyGivenNames x3
  have hx3 : State.keepsBut s [.way, .host, .regs, .boot, .out, .bil] x3 := by
    unfold x3
    exact keepsBut_step keeps_with_boot (by decide) (by assumption)
  try clear_value x3
  refine keepsBut_foldl ?_ ?_
  · intro u a hu
    try beta_reduce
    · refine keepsBut_ite ?_ ?_
      · assumption
      · refine keepsBut_step keeps_State_retireUnit (by decide) ?_
        exact keepsBut_step keeps_State_selftestFail (by decide) (by assumption)
  · assumption

theorem keeps_State_judgeRound {s : State} {c : ℕ} {v : Campaign} :
    s.keepsBut [.way, .host, .limits, .cch, .regs, .out, .upd] (s.judgeRound c v) := by
  have h0 : State.keepsBut s [.way, .host, .limits, .cch, .regs, .out, .upd] s := keepsBut_refl _ _
  unfold State.judgeRound
  extract_lets +onlyGivenNames x0
  try clear_value x0
  extract_lets +onlyGivenNames x1
  try clear_value x1
  extract_lets +onlyGivenNames x2
  try clear_value x2
  extract_lets +onlyGivenNames x3
  have hx3 : State.keepsBut s [.way, .host, .limits, .cch, .regs, .out, .upd] x3 := by
    unfold x3
    refine keepsBut_foldl ?_ ?_
    · intro u a hu
      try beta_reduce
      · exact keepsBut_step keeps_State_meterFailed (by decide) (by assumption)
    · exact keepsBut_step keeps_State_setCamp (by decide) (by assumption)
  try clear_value x3
  extract_lets +onlyGivenNames x4
  try clear_value x4
  extract_lets +onlyGivenNames x5
  try clear_value x5
  extract_lets +onlyGivenNames x6
  have hx6 : State.keepsBut s [.way, .host, .limits, .cch, .regs, .out, .upd] x6 := by
    unfold x6
    refine keepsBut_ite ?_ ?_
    · refine keepsBut_foldl ?_ ?_
      · intro u a hu
        try beta_reduce
        · exact keepsBut_step keeps_State_meterFailed (by decide) (by assumption)
      · assumption
    · assumption
  try clear_value x6
  split
  · assumption
  · extract_lets +onlyGivenNames x7
    have hx7 : State.keepsBut s [.way, .host, .limits, .cch, .regs, .out, .upd] x7 := by
      unfold x7
      exact keepsBut_step keeps_State_jobProgress (by decide) (by assumption)
    try clear_value x7
    refine keepsBut_ite ?_ ?_
    · exact keepsBut_step keeps_State_endCampaign (by decide) (by assumption)
    · exact keepsBut_step keeps_State_setCamp (by decide) (by assumption)

theorem keeps_State_backSteps {fails : List ℕ} {a1 : List ℕ} {a2 : State} :
    a2.keepsBut [.regs, .boot, .nor] (State.backSteps fails a1 a2).1 := by
  induction a1 generalizing a2 with
  | nil => exact keepsBut_refl _ _
  | cons i rest ih =>
    rw [State.backSteps]
    dsimp only
    refine keepsBut_iteFst ?_ ?_
    · dsimp only
      refine keepsBut_step keeps_with_nor (by decide) ?_
      refine keepsBut_ite ?_ (keepsBut_refl _ _)
      exact keeps_State_bump.weaken (by decide)
    · refine keepsBut_step ih (by decide) (keepsBut_step keeps_State_writeUpd (by decide) ?_)
      refine keepsBut_step keeps_with_boot_nor (by decide) ?_
      refine keepsBut_ite ?_ (keepsBut_refl _ _)
      exact keeps_State_bump.weaken (by decide)

theorem keeps_State_fieldReport {s : State} {r : Report} :
    s.keepsBut [.plc, .way, .ful, .host, .limits, .cch, .bal, .regs, .out, .upd, .txn, .rfm, .ctx] (s.fieldReport r) := by
  have h0 : State.keepsBut s [.plc, .way, .ful, .host, .limits, .cch, .bal, .regs, .out, .upd, .txn, .rfm, .ctx] s := keepsBut_refl _ _
  unfold State.fieldReport
  split
  · extract_lets +onlyGivenNames x0
    try clear_value x0
    refine keepsBut_ite ?_ ?_
    · assumption
    · refine keepsBut_ite ?_ ?_
      · extract_lets +onlyGivenNames x1
        try clear_value x1
        extract_lets +onlyGivenNames x2
        try clear_value x2
        refine keepsBut_ite ?_ ?_
        · exact keepsBut_step keeps_State_completeTxn (by decide) (by assumption)
        · exact keepsBut_step keeps_State_bump (by decide) (by assumption)
      · refine keepsBut_ite ?_ ?_
        · extract_lets +onlyGivenNames x3
          try clear_value x3
          split
          · assumption
          · refine keepsBut_ite ?_ ?_
            · refine keepsBut_ite ?_ ?_
              · exact keepsBut_step keeps_State_abandonSnapshot (by decide) (by assumption)
              · assumption
            · extract_lets +onlyGivenNames x4
              try clear_value x4
              extract_lets +onlyGivenNames x5
              have hx5 : State.keepsBut s [.plc, .way, .ful, .host, .limits, .cch, .bal, .regs, .out, .upd, .txn, .rfm, .ctx] x5 := by
                unfold x5
                exact keepsBut_step keeps_with_bal (by decide) (by assumption)
              try clear_value x5
              split
              · exact keepsBut_step keeps_State_jobFailed (by decide) (by assumption)
              · assumption
        · assumption
  · assumption

theorem keeps_State_deliverMessage {s : State} {p : Fin 2} {i : Fin 32} {b : EthBody} :
    s.keepsBut [.latches, .plc, .way, .ful, .host, .rst, .limits, .cch, .tim, .bal, .regs, .boot, .out, .upd, .txn, .eth, .nor, .sec,
        .draws, .hwl, .ing, .rfm, .ctx] (s.deliverMessage p i b) := by
  have h0 : State.keepsBut s [.latches, .plc, .way, .ful, .host, .rst, .limits, .cch, .tim, .bal, .regs, .boot, .out, .upd, .txn, .eth,
      .nor, .sec, .draws, .hwl, .ing, .rfm, .ctx] s := keepsBut_refl _ _
  unfold State.deliverMessage
  split
  · exact keepsBut_step keeps_State_takeJob (by decide) (by assumption)
  · refine keepsBut_ite ?_ ?_
    · exact keepsBut_step keeps_State_fieldReport (by decide) (by assumption)
    · assumption
  · exact keepsBut_step keeps_State_ingestFrame (by decide) (by assumption)
  · exact keepsBut_step keeps_with_eth (by decide) (by assumption)
  · assumption

theorem keeps_State_takeMessage {s : State} {p : Fin 2} {i : Fin 32} {m : EthMsg} :
    s.keepsBut [.latches, .plc, .way, .ful, .host, .rst, .limits, .cch, .tim, .bal, .regs, .boot, .out, .upd, .txn, .eth, .nor, .sec,
        .draws, .hwl, .ing, .rfm, .ctx] (s.takeMessage p i m) := by
  have h0 : State.keepsBut s [.latches, .plc, .way, .ful, .host, .rst, .limits, .cch, .tim, .bal, .regs, .boot, .out, .upd, .txn, .eth,
      .nor, .sec, .draws, .hwl, .ing, .rfm, .ctx] s := keepsBut_refl _ _
  unfold State.takeMessage
  extract_lets +onlyGivenNames x0
  try clear_value x0
  extract_lets +onlyGivenNames x1
  try clear_value x1
  refine keepsBut_ite ?_ ?_
  · refine keepsBut_ite ?_ ?_
    · assumption
    · refine keepsBut_step keeps_State_bump (by decide) ?_
      exact keepsBut_step keeps_State_setAssoc (by decide) (by assumption)
  · extract_lets +onlyGivenNames x2
    try clear_value x2
    refine keepsBut_ite ?_ ?_
    · exact keepsBut_step keeps_State_setAssoc (by decide) (by assumption)
    · refine keepsBut_ite ?_ ?_
      · assumption
      · extract_lets +onlyGivenNames x3
        have hx3 : State.keepsBut s [.latches, .plc, .way, .ful, .host, .rst, .limits, .cch, .tim, .bal, .regs, .boot, .out, .upd,
            .txn, .eth, .nor, .sec, .draws, .hwl, .ing, .rfm, .ctx] x3 := by
          unfold x3
          exact keepsBut_step keeps_State_setAssoc (by decide) (by assumption)
        try clear_value x3
        refine keepsBut_ite ?_ ?_
        · exact keepsBut_step keeps_State_deliverMessage (by decide) (by assumption)
        · exact keepsBut_step keeps_State_bump (by decide) (by assumption)

theorem keeps_State_messageFrame {s : State} {p : Fin 2} {f : EthFrame} :
    s.keepsBut [.latches, .plc, .way, .ful, .host, .rst, .limits, .cch, .tim, .bal, .regs, .boot, .out, .upd, .txn, .eth, .nor, .sec,
        .draws, .hwl, .ing, .rfm, .ctx] (s.messageFrame p f) := by
  have h0 : State.keepsBut s [.latches, .plc, .way, .ful, .host, .rst, .limits, .cch, .tim, .bal, .regs, .boot, .out, .upd, .txn, .eth,
      .nor, .sec, .draws, .hwl, .ing, .rfm, .ctx] s := keepsBut_refl _ _
  unfold State.messageFrame
  split
  · exact keepsBut_step keeps_State_bump (by decide) (by assumption)
  · split
    · refine keepsBut_ite ?_ ?_
      · exact keepsBut_step keeps_State_bump (by decide) (by assumption)
      · refine keepsBut_ite ?_ ?_
        · refine keepsBut_step keeps_State_note (by decide) ?_
          exact keepsBut_step keeps_State_raiseInt (by decide) (by assumption)
        · extract_lets +onlyGivenNames x0
          try clear_value x0
          extract_lets +onlyGivenNames x1
          have hx1 : State.keepsBut s [.latches, .plc, .way, .ful, .host, .rst, .limits, .cch, .tim, .bal, .regs, .boot, .out, .upd,
              .txn, .eth, .nor, .sec, .draws, .hwl, .ing, .rfm, .ctx] x1 := by
            unfold x1
            refine keepsBut_step keeps_State_takeAck (by decide) ?_
            exact keepsBut_step keeps_State_noteEpoch (by decide) (by assumption)
          try clear_value x1
          refine keepsBut_ite ?_ ?_
          · assumption
          · exact keepsBut_step keeps_State_takeMessage (by decide) (by assumption)
    · exact keepsBut_step keeps_State_bump (by decide) (by assumption)

theorem keeps_State_endConditions {s : State} :
    s.keepsBut [.pwr] (s.endConditions) := by
  have h0 : State.keepsBut s [.pwr] s := keepsBut_refl _ _
  unfold State.endConditions
  exact keepsBut_step keeps_State_modPwr (by decide) (by assumption)

theorem keeps_State_plcToll {s : State} {f : PlcFrame} :
    s.keepsBut [.plc, .regs, .out] (s.plcToll f) := by
  have h0 : State.keepsBut s [.plc, .regs, .out] s := keepsBut_refl _ _
  unfold State.plcToll
  extract_lets +onlyGivenNames x0
  try clear_value x0
  extract_lets +onlyGivenNames x1
  have hx1 : State.keepsBut s [.plc, .regs, .out] x1 := by
    unfold x1
    exact keepsBut_step keeps_State_modPlc (by decide) (by assumption)
  try clear_value x1
  refine keepsBut_ite ?_ ?_
  · refine keepsBut_step keeps_State_raiseInt (by decide) ?_
    exact keepsBut_step keeps_State_bump (by decide) (by assumption)
  · assumption

theorem keeps_State_estimateOut {s : State} {slot : ℕ} {h : PlcHeard} :
    s.keepsBut [.plc, .way, .host, .limits, .regs, .out] (s.estimateOut slot h) := by
  have h0 : State.keepsBut s [.plc, .way, .host, .limits, .regs, .out] s := keepsBut_refl _ _
  unfold State.estimateOut
  extract_lets +onlyGivenNames x0
  try clear_value x0
  refine keepsBut_ite ?_ ?_
  · assumption
  · refine keepsBut_ite ?_ ?_
    · refine keepsBut_step keeps_State_note (by decide) ?_
      exact keepsBut_step keeps_State_raiseInt (by decide) (by assumption)
    · refine keepsBut_step keeps_State_bump (by decide) ?_
      exact keepsBut_step keeps_State_modPlc (by decide) (by assumption)

theorem keeps_State_plcDeliver {s : State} {h : PlcHeard} :
    s.keepsBut [.plc, .way, .host, .limits, .regs, .out, .draws, .ing, .ctx] (s.plcDeliver h).1 := by
  have h0 : State.keepsBut s [.plc, .way, .host, .limits, .regs, .out, .draws, .ing, .ctx] s := keepsBut_refl _ _
  unfold State.plcDeliver
  extract_lets +onlyGivenNames x0
  try clear_value x0
  extract_lets +onlyGivenNames x1
  have hd : ∀ st, State.keepsBut s [.plc, .way, .host, .limits, .regs, .out, .draws, .ing, .ctx] st → State.keepsBut s [.plc, .way,
      .host, .limits, .regs, .out, .draws, .ing, .ctx] (x1 st) := by
    intro st hst
    unfold x1
    refine keepsBut_ite ?_ ?_
    · exact keepsBut_step keeps_State_bump (by decide) (by assumption)
    · assumption
  try clear_value x1
  refine keepsBut_iteFst ?_ ?_
  · extract_lets +onlyGivenNames x2
    have hx2 : State.keepsBut s [.plc, .way, .host, .limits, .regs, .out, .draws, .ing, .ctx] x2.1 := by
      unfold x2
      exact keepsBut_step keeps_State_preCheck (by decide) (by assumption)
    try clear_value x2
    refine keepsBut_iteFst ?_ ?_
    · dsimp only
      refine keepsBut_step keeps_State_plcHeardFrom (by decide) ?_
      exact keepsBut_step keeps_State_plcToll (by decide) (by assumption)
    · extract_lets +onlyGivenNames x3
      try clear_value x3
      refine keepsBut_iteFst ?_ ?_
      · dsimp only
        exact keepsBut_step keeps_State_ingestFrame (by decide) (by assumption)
      · extract_lets +onlyGivenNames x4
        have hx4 : State.keepsBut s [.plc, .way, .host, .limits, .regs, .out, .draws, .ing, .ctx] x4 := by
          unfold x4
          refine keepsBut_step keeps_State_plcToll (by decide) ?_
          apply hd
          exact keepsBut_step keeps_State_ingestFrame (by decide) (by assumption)
        try clear_value x4
        dsimp only
        refine keepsBut_step keeps_State_estimateOut (by decide) ?_
        refine keepsBut_step keeps_State_bump (by decide) ?_
        exact keepsBut_step keeps_State_plcHeardFrom (by decide) (by assumption)
  · refine keepsBut_iteFst ?_ ?_
    · dsimp only
      refine keepsBut_step keeps_State_bump (by decide) ?_
      refine keepsBut_step keeps_State_plcHeardFrom (by decide) ?_
      exact keepsBut_step keeps_State_plcToll (by decide) (by assumption)
    · refine keepsBut_iteFst ?_ ?_
      · extract_lets +onlyGivenNames x5
        try clear_value x5
        extract_lets +onlyGivenNames x6
        have hx6 : State.keepsBut s [.plc, .way, .host, .limits, .regs, .out, .draws, .ing, .ctx] x6 := by
          unfold x6
          refine keepsBut_step keeps_State_estimateOut (by decide) ?_
          refine keepsBut_step keeps_State_plcHeardFrom (by decide) ?_
          exact keepsBut_step keeps_State_plcToll (by decide) (by assumption)
        try clear_value x6
        extract_lets +onlyGivenNames x7
        have hx7 : State.keepsBut s [.plc, .way, .host, .limits, .regs, .out, .draws, .ing, .ctx] x7 := by
          unfold x7
          refine keepsBut_ite ?_ ?_
          · exact keepsBut_step keeps_State_learnPath (by decide) (by assumption)
          · assumption
        try clear_value x7
        dsimp only
        exact keepsBut_step keeps_State_bump (by decide) (by assumption)
      · refine keepsBut_iteFst ?_ ?_
        · dsimp only
          refine keepsBut_step keeps_State_plcJoin (by decide) ?_
          refine keepsBut_step keeps_State_estimateOut (by decide) ?_
          refine keepsBut_step keeps_State_bump (by decide) ?_
          exact keepsBut_step keeps_State_plcToll (by decide) (by assumption)
        · dsimp only
          exact keepsBut_step keeps_State_plcToll (by decide) (by assumption)

theorem keeps_State_coalesce {s : State} {n : ℕ} :
    s.keepsBut [.host, .regs, .out] (s.coalesce n) := by
  have h0 : State.keepsBut s [.host, .regs, .out] s := keepsBut_refl _ _
  unfold State.coalesce
  extract_lets +onlyGivenNames x0
  try clear_value x0
  refine keepsBut_ite ?_ ?_
  · exact keepsBut_step keeps_State_fireQueue (by decide) (by assumption)
  · exact keepsBut_step keeps_State_setRq (by decide) (by assumption)

theorem keeps_State_decideWaiting {s : State} {g : LogId} :
    s.keepsBut [.way, .host, .regs, .out] (s.decideWaiting g) := by
  have h0 : State.keepsBut s [.way, .host, .regs, .out] s := keepsBut_refl _ _
  unfold State.decideWaiting
  extract_lets +onlyGivenNames x0
  try clear_value x0
  extract_lets +onlyGivenNames x1
  try clear_value x1
  extract_lets +onlyGivenNames x2
  have hx2 : State.keepsBut s [.way, .host, .regs, .out] x2 := by
    unfold x2
    exact keepsBut_step keeps_with_way (by decide) (by assumption)
  try clear_value x2
  refine keepsBut_foldl ?_ ?_
  · intro u a hu
    try beta_reduce
    · exact keepsBut_step keeps_State_decideEvent (by decide) (by assumption)
  · assumption

theorem keeps_State_clearErased {s : State} {g : LogId} :
    s.keepsBut [.way, .host, .regs, .out] (s.clearErased g) := by
  have h0 : State.keepsBut s [.way, .host, .regs, .out] s := keepsBut_refl _ _
  unfold State.clearErased
  extract_lets +onlyGivenNames x0
  try clear_value x0
  refine keepsBut_ite ?_ ?_
  · assumption
  · extract_lets +onlyGivenNames x1
    have hx1 : State.keepsBut s [.way, .host, .regs, .out] x1 := by
      unfold x1
      refine keepsBut_step keeps_State_decideWaiting (by decide) ?_
      exact keepsBut_step keeps_State_finishClear (by decide) (by assumption)
    try clear_value x1
    split
    · assumption
    · exact keepsBut_step keeps_State_jobDone (by decide) (by assumption)

theorem keeps_State_loadAccess {s : State} :
    s.keepsBut [.sec] (s.loadAccess) := by
  have h0 : State.keepsBut s [.sec] s := keepsBut_refl _ _
  unfold State.loadAccess
  extract_lets +onlyGivenNames x0
  try clear_value x0
  extract_lets +onlyGivenNames x1
  try clear_value x1
  exact keepsBut_step keeps_State_modSec (by decide) (by assumption)

theorem keeps_State_journalMigration {s : State} {c : ConfigImage} :
    s.keepsBut [.way, .host, .regs, .out, .nor] (s.journalMigration c) := by
  have h0 : State.keepsBut s [.way, .host, .regs, .out, .nor] s := keepsBut_refl _ _
  unfold State.journalMigration
  refine keepsBut_ite ?_ ?_
  · assumption
  · extract_lets +onlyGivenNames x0
    try clear_value x0
    extract_lets +onlyGivenNames x1
    try clear_value x1
    extract_lets +onlyGivenNames x2
    try clear_value x2
    extract_lets +onlyGivenNames x3
    have hx3 : State.keepsBut s [.way, .host, .regs, .out, .nor] x3 := by
      unfold x3
      exact keepsBut_step keeps_with_nor (by decide) (by assumption)
    try clear_value x3
    exact keepsBut_step keeps_State_event (by decide) (by assumption)

theorem keeps_State_destroyEntry {s : State} {i : ℕ} :
    s.keepsBut [.way, .host, .limits, .regs, .out, .nor, .sec, .ing] (s.destroyEntry i) := by
  have h0 : State.keepsBut s [.way, .host, .limits, .regs, .out, .nor, .sec, .ing] s := keepsBut_refl _ _
  unfold State.destroyEntry
  extract_lets +onlyGivenNames x0
  try clear_value x0
  extract_lets +onlyGivenNames x1
  try clear_value x1
  extract_lets +onlyGivenNames x2
  try clear_value x2
  refine keepsBut_ite ?_ ?_
  · exact keepsBut_step keeps_State_invalidate (by decide) (by assumption)
  · assumption

theorem keeps_State_loadKeys {s : State} :
    s.keepsBut [.way, .host, .limits, .regs, .out, .nor, .sec, .ing] (s.loadKeys) := by
  have h0 : State.keepsBut s [.way, .host, .limits, .regs, .out, .nor, .sec, .ing] s := keepsBut_refl _ _
  unfold State.loadKeys
  extract_lets +onlyGivenNames x0
  have hx0 : State.keepsBut s [.way, .host, .limits, .regs, .out, .nor, .sec, .ing] x0 := by
    unfold x0
    exact keepsBut_step keeps_State_restartGens (by decide) (by assumption)
  try clear_value x0
  extract_lets +onlyGivenNames x1
  have hx1 : State.keepsBut s [.way, .host, .limits, .regs, .out, .nor, .sec, .ing] x1 := by
    unfold x1
    refine keepsBut_foldl ?_ ?_
    · intro u a hu
      try beta_reduce
      · exact keepsBut_step keeps_State_destroyEntry (by decide) (by assumption)
    · assumption
  try clear_value x1
  refine keepsBut_foldl ?_ ?_
  · intro u a hu
    try beta_reduce
    · exact keepsBut_step keeps_State_loadKey (by decide) (by assumption)
  · assumption

theorem keeps_State_applyImage {e : StartEnv} {backup : Bool} {s : State} {c : ConfigImage} :
    s.keepsBut [.cfg, .way, .host, .limits, .tim, .regs, .boot, .out, .cyc, .nor, .sec, .ing] (State.applyImage e backup s c) := by
  have h0 : State.keepsBut s [.cfg, .way, .host, .limits, .tim, .regs, .boot, .out, .cyc, .nor, .sec, .ing] s := keepsBut_refl _ _
  unfold State.applyImage
  extract_lets +onlyGivenNames x0
  try clear_value x0
  extract_lets +onlyGivenNames x1
  try clear_value x1
  extract_lets +onlyGivenNames x2
  try clear_value x2
  extract_lets +onlyGivenNames x3
  have hx3 : State.keepsBut s [.cfg, .way, .host, .limits, .tim, .regs, .boot, .out, .cyc, .nor, .sec, .ing] x3 := by
    unfold x3
    exact keepsBut_step keeps_State_withImage (by decide) (by assumption)
  try clear_value x3
  extract_lets +onlyGivenNames x4
  try clear_value x4
  extract_lets +onlyGivenNames x5
  have hx5 : State.keepsBut s [.cfg, .way, .host, .limits, .tim, .regs, .boot, .out, .cyc, .nor, .sec, .ing] x5 := by
    unfold x5
    exact keepsBut_step keeps_with_boot (by decide) (by assumption)
  try clear_value x5
  extract_lets +onlyGivenNames x6
  have hx6 : State.keepsBut s [.cfg, .way, .host, .limits, .tim, .regs, .boot, .out, .cyc, .nor, .sec, .ing] x6 := by
    unfold x6
    exact keepsBut_step keeps_State_journalMigration (by decide) (by assumption)
  try clear_value x6
  extract_lets +onlyGivenNames x7
  have hx7 : State.keepsBut s [.cfg, .way, .host, .limits, .tim, .regs, .boot, .out, .cyc, .nor, .sec, .ing] x7 := by
    unfold x7
    refine keepsBut_ite ?_ ?_
    · exact keepsBut_step keeps_State_event (by decide) (by assumption)
    · assumption
  try clear_value x7
  extract_lets +onlyGivenNames x8
  have hx8 : State.keepsBut s [.cfg, .way, .host, .limits, .tim, .regs, .boot, .out, .cyc, .nor, .sec, .ing] x8 := by
    unfold x8
    refine keepsBut_ite ?_ ?_
    · exact keepsBut_step keeps_State_event (by decide) (by assumption)
    · assumption
  try clear_value x8
  extract_lets +onlyGivenNames x9
  have hx9 : State.keepsBut s [.cfg, .way, .host, .limits, .tim, .regs, .boot, .out, .cyc, .nor, .sec, .ing] x9 := by
    unfold x9
    refine keepsBut_ite ?_ ?_
    · assumption
    · refine keepsBut_step keeps_State_event (by decide) ?_
      exact keepsBut_step keeps_State_selftestFail (by decide) (by assumption)
  try clear_value x9
  extract_lets +onlyGivenNames x10
  try clear_value x10
  extract_lets +onlyGivenNames x11
  try clear_value x11
  extract_lets +onlyGivenNames x12
  have hx12 : State.keepsBut s [.cfg, .way, .host, .limits, .tim, .regs, .boot, .out, .cyc, .nor, .sec, .ing] x12 := by
    unfold x12
    exact keepsBut_step keeps_with_cyc_tim (by decide) (by assumption)
  try clear_value x12
  refine keepsBut_step keeps_State_burnFuses (by decide) ?_
  refine keepsBut_step keeps_State_loadAccess (by decide) ?_
  exact keepsBut_step keeps_State_loadKeys (by decide) (by assumption)

theorem keeps_State_touchCache {s : State} {i : ℕ} :
    s.keepsBut [.ing] (s.touchCache i) := by
  have h0 : State.keepsBut s [.ing] s := keepsBut_refl _ _
  unfold State.touchCache
  extract_lets +onlyGivenNames x0
  try clear_value x0
  split
  · assumption
  · exact keepsBut_step keeps_State_setCache (by decide) (by assumption)

theorem keeps_State_openReading {s : State} {r : Record} {mseq : Option (BitVec 32)} {answer : Option FinalHeld} {fromMirror : Bool} :
    s.keepsBut [.readings] (s.openReading r mseq answer fromMirror) := by
  have h0 : State.keepsBut s [.readings] s := keepsBut_refl _ _
  unfold State.openReading
  exact keepsBut_step keeps_with_readings (by decide) (by assumption)

theorem keeps_State_advanceGens {s : State} :
    s.keepsBut [.txn] (s.advanceGens) := by
  have h0 : State.keepsBut s [.txn] s := keepsBut_refl _ _
  unfold State.advanceGens
  extract_lets +onlyGivenNames x0
  try clear_value x0
  exact keepsBut_step keeps_with_txn (by decide) (by assumption)

theorem keeps_State_chooseSource {s : State} :
    s.keepsBut [.plc, .way, .ful, .met, .host, .limits, .cch, .tim, .bal, .regs, .out, .cyc, .txn, .eth, .nor, .bil, .hwl, .ing, .rfm,
        .ctx] (s.chooseSource) := by
  have h0 : State.keepsBut s [.plc, .way, .ful, .met, .host, .limits, .cch, .tim, .bal, .regs, .out, .cyc, .txn, .eth, .nor, .bil,
      .hwl, .ing, .rfm, .ctx] s := keepsBut_refl _ _
  unfold State.chooseSource
  extract_lets +onlyGivenNames x0
  try clear_value x0
  refine keepsBut_ite ?_ ?_
  · refine keepsBut_ite ?_ ?_
    · assumption
    · refine keepsBut_step keeps_State_mainsLost (by decide) ?_
      exact keepsBut_step keeps_State_modCyc (by decide) (by assumption)
  · exact keepsBut_step keeps_State_modCyc (by decide) (by assumption)

theorem keeps_State_collectRead {s : State} {i : ℕ} :
    s.keepsBut [.way, .host, .limits, .cch, .regs, .out, .txn, .ctx] (s.collectRead i) := by
  have h0 : State.keepsBut s [.way, .host, .limits, .cch, .regs, .out, .txn, .ctx] s := keepsBut_refl _ _
  unfold State.collectRead
  refine keepsBut_step keeps_State_topUpIssues (by decide) ?_
  exact keepsBut_step keeps_State_pushRequest (by decide) (by assumption)

theorem keeps_State_syncRange {s : State} {partner : Bool} {reason : ℕ} :
    s.keepsBut [.way, .host, .limits, .regs, .out, .hwl] (s.syncRange partner reason) := by
  have h0 : State.keepsBut s [.way, .host, .limits, .regs, .out, .hwl] s := keepsBut_refl _ _
  unfold State.syncRange
  refine keepsBut_foldl ?_ ?_
  · intro u a hu
    try beta_reduce
    · exact keepsBut_step keeps_State_mirrorSync (by decide) (by assumption)
  · assumption

theorem keeps_State_survive {s : State} {both : Bool} :
    s.keepsBut [.way, .host, .limits, .regs, .out, .hwl] (s.survive both) := by
  have h0 : State.keepsBut s [.way, .host, .limits, .regs, .out, .hwl] s := keepsBut_refl _ _
  unfold State.survive
  extract_lets +onlyGivenNames x0
  have hx0 : State.keepsBut s [.way, .host, .limits, .regs, .out, .hwl] x0 := by
    unfold x0
    refine keepsBut_step keeps_State_syncRange (by decide) ?_
    exact keepsBut_step keeps_State_modHwl (by decide) (by assumption)
  try clear_value x0
  extract_lets +onlyGivenNames x1
  have hx1 : State.keepsBut s [.way, .host, .limits, .regs, .out, .hwl] x1 := by
    unfold x1
    refine keepsBut_ite ?_ ?_
    · exact keepsBut_step keeps_State_syncRange (by decide) (by assumption)
    · assumption
  try clear_value x1
  refine keepsBut_step keeps_State_modHwl (by decide) ?_
  exact keepsBut_step keeps_State_mirrorSend (by decide) (by assumption)

theorem keeps_State_storeBits {s : State} {r : RegRow} {a : ℕ} {v : BitVec 32} :
    s.keepsBut [.regs] (s.storeBits r a v) := by
  have h0 : State.keepsBut s [.regs] s := keepsBut_refl _ _
  unfold State.storeBits
  extract_lets +onlyGivenNames x0
  try clear_value x0
  extract_lets +onlyGivenNames x1
  try clear_value x1
  exact keepsBut_step keeps_State_setReg (by decide) (by assumption)

theorem keeps_State_takeBack {s : State} {a : SeqAsked} :
    s.keepsBut [.ing] (s.takeBack a) := by
  have h0 : State.keepsBut s [.ing] s := keepsBut_refl _ _
  unfold State.takeBack
  split
  · split
    · exact keepsBut_step keeps_State_queueOp (by decide) (by assumption)
    · assumption
  · split
    · split
      · exact keepsBut_step keeps_State_queueOp (by decide) (by assumption)
      · assumption
    · assumption

theorem keeps_State_scheduleRequest {s : State} {r : Request} :
    s.keepsBut [.way, .host, .limits, .regs, .out, .txn, .ctx] (s.scheduleRequest r) := by
  have h0 : State.keepsBut s [.way, .host, .limits, .regs, .out, .txn, .ctx] s := keepsBut_refl _ _
  unfold State.scheduleRequest
  refine keepsBut_ite ?_ ?_
  · exact keepsBut_step keeps_State_bump (by decide) (by assumption)
  · refine keepsBut_ite ?_ ?_
    · refine keepsBut_step keeps_State_note (by decide) ?_
      exact keepsBut_step keeps_State_raiseInt (by decide) (by assumption)
    · exact keepsBut_step keeps_State_pushRequest (by decide) (by assumption)

theorem keeps_State_pairWrong {s : State} {named : ℕ} :
    s.keepsBut [.way, .host, .regs, .out, .hwl] (s.pairWrong named) := by
  have h0 : State.keepsBut s [.way, .host, .regs, .out, .hwl] s := keepsBut_refl _ _
  unfold State.pairWrong
  extract_lets +onlyGivenNames x0
  have hx0 : State.keepsBut s [.way, .host, .regs, .out, .hwl] x0 := by
    unfold x0
    refine keepsBut_step keeps_State_modHwl (by decide) ?_
    exact keepsBut_step keeps_State_releaseOwner (by decide) (by assumption)
  try clear_value x0
  exact keepsBut_step keeps_State_reportOut (by decide) (by assumption)

theorem keeps_State_interlockFails {s : State} :
    s.keepsBut [.way, .host, .limits, .regs, .out, .hwl] (s.interlockFails) := by
  have h0 : State.keepsBut s [.way, .host, .limits, .regs, .out, .hwl] s := keepsBut_refl _ _
  unfold State.interlockFails
  extract_lets +onlyGivenNames x0
  have hx0 : State.keepsBut s [.way, .host, .limits, .regs, .out, .hwl] x0 := by
    unfold x0
    refine keepsBut_step keeps_State_modHwl (by decide) ?_
    exact keepsBut_step keeps_State_releaseOwner (by decide) (by assumption)
  try clear_value x0
  refine keepsBut_step keeps_State_reportOut (by decide) ?_
  refine keepsBut_step keeps_State_note (by decide) ?_
  exact keepsBut_step keeps_State_raiseInt (by decide) (by assumption)

theorem keeps_State_pairUp {s : State} {rejoin : Bool} {base : BitVec 32} :
    s.keepsBut [.way, .host, .limits, .regs, .out, .upd, .hwl] (s.pairUp rejoin base) := by
  have h0 : State.keepsBut s [.way, .host, .limits, .regs, .out, .upd, .hwl] s := keepsBut_refl _ _
  unfold State.pairUp
  extract_lets +onlyGivenNames x0
  try clear_value x0
  extract_lets +onlyGivenNames x1
  try clear_value x1
  extract_lets +onlyGivenNames x2
  try clear_value x2
  extract_lets +onlyGivenNames x3
  have hx3 : State.keepsBut s [.way, .host, .limits, .regs, .out, .upd, .hwl] x3 := by
    unfold x3
    refine keepsBut_ite ?_ ?_
    · exact keepsBut_step keeps_State_sendPair (by decide) (by assumption)
    · assumption
  try clear_value x3
  extract_lets +onlyGivenNames x4
  try clear_value x4
  extract_lets +onlyGivenNames x5
  have hx5 : State.keepsBut s [.way, .host, .limits, .regs, .out, .upd, .hwl] x5 := by
    unfold x5
    refine keepsBut_step keeps_State_modHwl (by decide) ?_
    exact keepsBut_step keeps_State_checkMet (by decide) (by assumption)
  try clear_value x5
  extract_lets +onlyGivenNames x6
  have hx6 : State.keepsBut s [.way, .host, .limits, .regs, .out, .upd, .hwl] x6 := by
    unfold x6
    refine keepsBut_ite ?_ ?_
    · exact keepsBut_step keeps_State_survive (by decide) (by assumption)
    · refine keepsBut_ite ?_ ?_
      · exact keepsBut_step keeps_State_modHwl (by decide) (by assumption)
      · refine keepsBut_ite ?_ ?_
        · exact keepsBut_step keeps_State_survive (by decide) (by assumption)
        · exact keepsBut_step keeps_State_modHwl (by decide) (by assumption)
  try clear_value x6
  refine keepsBut_ite ?_ ?_
  · exact keepsBut_step keeps_State_claim (by decide) (by assumption)
  · assumption

theorem keeps_State_heardPair {s : State} {l : HwlHeader} {named : ℕ} {rejoin : Bool} {base : BitVec 32} {inHigh : Bool} {query : Bool}
    {answer : Bool} :
    s.keepsBut [.way, .host, .limits, .regs, .out, .upd, .hwl] (s.heardPair l named rejoin base inHigh query answer) := by
  have h0 : State.keepsBut s [.way, .host, .limits, .regs, .out, .upd, .hwl] s := keepsBut_refl _ _
  unfold State.heardPair
  refine keepsBut_ite ?_ ?_
  · assumption
  · refine keepsBut_ite ?_ ?_
    · refine keepsBut_ite ?_ ?_
      · exact keepsBut_step keeps_State_sendPair (by decide) (by assumption)
      · assumption
    · refine keepsBut_ite ?_ ?_
      · refine keepsBut_ite ?_ ?_
        · assumption
        · refine keepsBut_ite ?_ ?_
          · exact keepsBut_step keeps_State_interlockFails (by decide) (by assumption)
          · exact keepsBut_step keeps_State_modHwl (by decide) (by assumption)
      · refine keepsBut_ite ?_ ?_
        · exact keepsBut_step keeps_State_pairUp (by decide) (by assumption)
        · exact keepsBut_step keeps_State_pairWrong (by decide) (by assumption)

theorem keeps_State_modPhase {s : State} {p : ℕ} {f : Phase → Phase} :
    s.keepsBut [.cyc] (s.modPhase p f) := by
  have h0 : State.keepsBut s [.cyc] s := keepsBut_refl _ _
  unfold State.modPhase
  exact keepsBut_step keeps_State_modCyc (by decide) (by assumption)

theorem keeps_State_detectNominal {s : State} {p : ℕ} {d : ℕ} :
    s.keepsBut [.cyc] (s.detectNominal p d) := by
  have h0 : State.keepsBut s [.cyc] s := keepsBut_refl _ _
  unfold State.detectNominal
  refine keepsBut_ite ?_ ?_
  · assumption
  · refine keepsBut_ite ?_ ?_
    · exact keepsBut_step keeps_State_modPhase (by decide) (by assumption)
    · extract_lets +onlyGivenNames x0
      try clear_value x0
      refine keepsBut_ite ?_ ?_
      · exact keepsBut_step keeps_State_modPhase (by decide) (by assumption)
      · extract_lets +onlyGivenNames x1
        have hx1 : State.keepsBut s [.cyc] x1 := by
          unfold x1
          exact keepsBut_step keeps_State_modPhase (by decide) (by assumption)
        try clear_value x1
        split
        · exact keepsBut_step keeps_State_modCyc (by decide) (by assumption)
        · assumption

theorem keeps_State_measureAngles {s : State} {z : ℕ} :
    s.keepsBut [.cyc] (s.measureAngles z) := by
  have h0 : State.keepsBut s [.cyc] s := keepsBut_refl _ _
  unfold State.measureAngles
  refine keepsBut_ite ?_ ?_
  · assumption
  · extract_lets +onlyGivenNames x0
    try clear_value x0
    extract_lets +onlyGivenNames x1
    try clear_value x1
    extract_lets +onlyGivenNames x2
    try clear_value x2
    extract_lets +onlyGivenNames x3
    try clear_value x3
    exact keepsBut_step keeps_State_modCyc (by decide) (by assumption)

theorem keeps_State_maybeNumber {s : State} {z : ℕ} {first : Bool} :
    s.keepsBut [.plc, .way, .ful, .met, .host, .limits, .cch, .tim, .bal, .regs, .out, .cyc, .txn, .eth, .nor, .bil, .hwl, .ing, .rfm,
        .ctx] (s.maybeNumber z first) := by
  have h0 : State.keepsBut s [.plc, .way, .ful, .met, .host, .limits, .cch, .tim, .bal, .regs, .out, .cyc, .txn, .eth, .nor, .bil,
      .hwl, .ing, .rfm, .ctx] s := keepsBut_refl _ _
  unfold State.maybeNumber
  extract_lets +onlyGivenNames x0
  try clear_value x0
  extract_lets +onlyGivenNames x1
  try clear_value x1
  refine keepsBut_ite ?_ ?_
  · refine keepsBut_step keeps_State_numberCycle (by decide) ?_
    exact keepsBut_step keeps_State_modCyc (by decide) (by assumption)
  · refine keepsBut_ite ?_ ?_
    · exact keepsBut_step keeps_State_modCyc (by decide) (by assumption)
    · assumption

theorem keeps_State_validCrossing {s : State} {p : ℕ} {d : ℕ} {z : ℕ} {first : Bool} :
    s.keepsBut [.plc, .way, .ful, .met, .host, .limits, .cch, .tim, .bal, .regs, .out, .cyc, .txn, .eth, .nor, .bil, .hwl, .ing, .rfm,
        .ctx] (s.validCrossing p d z first) := by
  have h0 : State.keepsBut s [.plc, .way, .ful, .met, .host, .limits, .cch, .tim, .bal, .regs, .out, .cyc, .txn, .eth, .nor, .bil,
      .hwl, .ing, .rfm, .ctx] s := keepsBut_refl _ _
  unfold State.validCrossing
  extract_lets +onlyGivenNames x0
  have hx0 : State.keepsBut s [.plc, .way, .ful, .met, .host, .limits, .cch, .tim, .bal, .regs, .out, .cyc, .txn, .eth, .nor, .bil,
      .hwl, .ing, .rfm, .ctx] x0 := by
    unfold x0
    exact keepsBut_step keeps_State_modPhase (by decide) (by assumption)
  try clear_value x0
  extract_lets +onlyGivenNames x1
  have hx1 : State.keepsBut s [.plc, .way, .ful, .met, .host, .limits, .cch, .tim, .bal, .regs, .out, .cyc, .txn, .eth, .nor, .bil,
      .hwl, .ing, .rfm, .ctx] x1 := by
    unfold x1
    refine keepsBut_ite ?_ ?_
    · exact keepsBut_step keeps_State_maybeNumber (by decide) (by assumption)
    · assumption
  try clear_value x1
  extract_lets +onlyGivenNames x2
  have hx2 : State.keepsBut s [.plc, .way, .ful, .met, .host, .limits, .cch, .tim, .bal, .regs, .out, .cyc, .txn, .eth, .nor, .bil,
      .hwl, .ing, .rfm, .ctx] x2 := by
    unfold x2
    exact keepsBut_step keeps_State_modPhase (by decide) (by assumption)
  try clear_value x2
  extract_lets +onlyGivenNames x3
  have hx3 : State.keepsBut s [.plc, .way, .ful, .met, .host, .limits, .cch, .tim, .bal, .regs, .out, .cyc, .txn, .eth, .nor, .bil,
      .hwl, .ing, .rfm, .ctx] x3 := by
    unfold x3
    refine keepsBut_ite ?_ ?_
    · exact keepsBut_step keeps_State_measureAngles (by decide) (by assumption)
    · assumption
  try clear_value x3
  refine keepsBut_ite ?_ ?_
  · refine keepsBut_step keeps_State_chooseSource (by decide) ?_
    exact keepsBut_step keeps_State_modPhase (by decide) (by assumption)
  · assumption

theorem keeps_State_invalidCrossing {s : State} {p : ℕ} {first : Bool} :
    s.keepsBut [.cyc] (s.invalidCrossing p first) := by
  have h0 : State.keepsBut s [.cyc] s := keepsBut_refl _ _
  unfold State.invalidCrossing
  refine keepsBut_step keeps_State_modCyc (by decide) ?_
  exact keepsBut_step keeps_State_modPhase (by decide) (by assumption)

theorem keeps_State_crossing {s : State} {p : ℕ} {z : ℕ} :
    s.keepsBut [.plc, .way, .ful, .met, .host, .limits, .cch, .tim, .bal, .regs, .out, .cyc, .txn, .eth, .nor, .bil, .hwl, .ing, .rfm,
        .ctx] (s.crossing p z) := by
  have h0 : State.keepsBut s [.plc, .way, .ful, .met, .host, .limits, .cch, .tim, .bal, .regs, .out, .cyc, .txn, .eth, .nor, .bil,
      .hwl, .ing, .rfm, .ctx] s := keepsBut_refl _ _
  unfold State.crossing
  extract_lets +onlyGivenNames x0
  try clear_value x0
  extract_lets +onlyGivenNames x1
  try clear_value x1
  refine keepsBut_ite ?_ ?_
  · exact keepsBut_step keeps_State_modCyc (by decide) (by assumption)
  · extract_lets +onlyGivenNames x2
    try clear_value x2
    extract_lets +onlyGivenNames x3
    have hx3 : State.keepsBut s [.plc, .way, .ful, .met, .host, .limits, .cch, .tim, .bal, .regs, .out, .cyc, .txn, .eth, .nor, .bil,
        .hwl, .ing, .rfm, .ctx] x3 := by
      unfold x3
      exact keepsBut_step keeps_State_modPhase (by decide) (by assumption)
    try clear_value x3
    extract_lets +onlyGivenNames x4
    have hx4 : State.keepsBut s [.plc, .way, .ful, .met, .host, .limits, .cch, .tim, .bal, .regs, .out, .cyc, .txn, .eth, .nor, .bil,
        .hwl, .ing, .rfm, .ctx] x4 := by
      unfold x4
      refine keepsBut_ite ?_ ?_
      · exact keepsBut_step keeps_State_modCyc (by decide) (by assumption)
      · assumption
    try clear_value x4
    split
    · exact keepsBut_step keeps_State_invalidCrossing (by decide) (by assumption)
    · extract_lets +onlyGivenNames x5
      try clear_value x5
      extract_lets +onlyGivenNames x6
      have hx6 : State.keepsBut s [.plc, .way, .ful, .met, .host, .limits, .cch, .tim, .bal, .regs, .out, .cyc, .txn, .eth, .nor, .bil,
          .hwl, .ing, .rfm, .ctx] x6 := by
        unfold x6
        exact keepsBut_step keeps_State_detectNominal (by decide) (by assumption)
      try clear_value x6
      refine keepsBut_ite ?_ ?_
      · exact keepsBut_step keeps_State_validCrossing (by decide) (by assumption)
      · exact keepsBut_step keeps_State_invalidCrossing (by decide) (by assumption)

theorem keeps_State_takeChainBlock {s : State} {c : Chain} {src : NodeId} {offset : ℕ} {data : List Byte} {fails : Bool} :
    s.keepsBut [.way, .ful, .host, .limits, .regs, .out, .upd, .nor, .hwl] (s.takeChainBlock c src offset data fails) := by
  have h0 : State.keepsBut s [.way, .ful, .host, .limits, .regs, .out, .upd, .nor, .hwl] s := keepsBut_refl _ _
  unfold State.takeChainBlock
  extract_lets +onlyGivenNames x0
  try clear_value x0
  extract_lets +onlyGivenNames x1
  try clear_value x1
  extract_lets +onlyGivenNames x2
  have hx2 : State.keepsBut s [.way, .ful, .host, .limits, .regs, .out, .upd, .nor, .hwl] x2 := by
    unfold x2
    refine keepsBut_step keeps_State_hwlSend (by decide) ?_
    exact keepsBut_step keeps_State_setRelay (by decide) (by assumption)
  try clear_value x2
  refine keepsBut_ite ?_ ?_
  · assumption
  · extract_lets +onlyGivenNames x3
    have hx3 : State.keepsBut s [.way, .ful, .host, .limits, .regs, .out, .upd, .nor, .hwl] x3.1 := by
      unfold x3
      exact keepsBut_step keeps_State_stageBundle (by decide) (by assumption)
    try clear_value x3
    exact keepsBut_step keeps_State_chainVerified (by decide) (by assumption)

end Sys2Proof.Machine
end

