-- ==== Sys2Proof/Laws/Keeps09.lean ====
section
/-!
SUPPORT. What each shared operation leaves of the state, one lemma an operation, an operation after those it is built from: from `chainSkip`
to `issueNext`.
-/

namespace Sys2Proof.Machine

theorem keeps_State_chainSkip {s : State} :
    s.keepsBut [.way, .host, .limits, .regs, .out, .hwl] (s.chainSkip) := by
  have h0 : State.keepsBut s [.way, .host, .limits, .regs, .out, .hwl] s := keepsBut_refl _ _
  unfold State.chainSkip
  split
  · assumption
  · refine keepsBut_step keeps_State_chainRelay (by decide) ?_
    exact keepsBut_step keeps_State_note (by decide) (by assumption)

theorem keeps_State_successorDone {s : State} {c : Chain} {result : ℕ} :
    s.keepsBut [.way, .host, .limits, .regs, .out, .hwl] (s.successorDone c result) := by
  have h0 : State.keepsBut s [.way, .host, .limits, .regs, .out, .hwl] s := keepsBut_refl _ _
  unfold State.successorDone
  refine keepsBut_ite ?_ ?_
  · exact keepsBut_step keeps_State_chainSkip (by decide) (by assumption)
  · extract_lets +onlyGivenNames x0
    have hx0 : State.keepsBut s [.way, .host, .limits, .regs, .out, .hwl] x0 := by
      unfold x0
      exact keepsBut_step keeps_State_bump (by decide) (by assumption)
    try clear_value x0
    refine keepsBut_ite ?_ ?_
    · exact keepsBut_step keeps_State_setRelay (by decide) (by assumption)
    · exact keepsBut_step keeps_State_setRelay (by decide) (by assumption)

theorem keeps_State_slotYield {s : State} {x : MeshTx} {i : ℕ} :
    s.keepsBut [.regs, .rfm] (s.slotYield x i) := by
  have h0 : State.keepsBut s [.regs, .rfm] s := keepsBut_refl _ _
  unfold State.slotYield
  refine keepsBut_step keeps_State_bump (by decide) ?_
  exact keepsBut_step keeps_State_meshSet (by decide) (by assumption)

theorem keeps_State_trainPcie {s : State} {e : StartEnv} :
    s.keepsBut [.host] (s.trainPcie e) := by
  have h0 : State.keepsBut s [.host] s := keepsBut_refl _ _
  unfold State.trainPcie
  refine keepsBut_ite ?_ ?_
  · assumption
  · exact keepsBut_step keeps_with_host (by decide) (by assumption)

theorem keeps_State_saveLost {s : State} :
    s.keepsBut [.way] (s.saveLost) := by
  have h0 : State.keepsBut s [.way] s := keepsBut_refl _ _
  unfold State.saveLost
  refine keepsBut_foldl ?_ ?_
  · intro u a hu
    try beta_reduce
    · extract_lets +onlyGivenNames x0
      try clear_value x0
      split
      · assumption
      · refine keepsBut_ite ?_ ?_
        · assumption
        · exact keepsBut_step keeps_State_modLog (by decide) (by assumption)
  · assumption

theorem keeps_State_radioDrive {s : State} {n : ℕ} {chan : ℕ} {first : ℕ} {airtime : ℕ} :
    s.keepsBut [.rfm] (s.radioDrive n chan first airtime) := by
  have h0 : State.keepsBut s [.rfm] s := keepsBut_refl _ _
  unfold State.radioDrive
  extract_lets +onlyGivenNames x0
  try clear_value x0
  exact keepsBut_step keeps_State_setRadio (by decide) (by assumption)

theorem keeps_State_openWindow {s : State} {addr : ℕ} :
    s.keepsBut [.draws, .rfm] (s.openWindow addr) := by
  have h0 : State.keepsBut s [.draws, .rfm] s := keepsBut_refl _ _
  unfold State.openWindow
  extract_lets +onlyGivenNames x0
  have hx0 : State.keepsBut s [.draws, .rfm] x0 := by
    unfold x0
    exact keepsBut_step keeps_State_modRfm (by decide) (by assumption)
  try clear_value x0
  refine keepsBut_foldl ?_ ?_
  · intro u a hu
    try beta_reduce
    · extract_lets +onlyGivenNames x1
      refine keepsBut_step keeps_State_meshSet (by decide) ?_
      exact keepsBut_step keeps_State_rfWait (by decide) (by assumption)
  · assumption

theorem keeps_State_meshLeft {s : State} {x : MeshTx} {y : MeshTx} :
    s.keepsBut [.plc, .way, .host, .limits, .cch, .regs, .out, .upd, .txn, .draws, .rfm, .ctx] (s.meshLeft x y) := by
  have h0 : State.keepsBut s [.plc, .way, .host, .limits, .cch, .regs, .out, .upd, .txn, .draws, .rfm, .ctx] s := keepsBut_refl _ _
  unfold State.meshLeft
  extract_lets +onlyGivenNames x0
  have hx0 : State.keepsBut s [.plc, .way, .host, .limits, .cch, .regs, .out, .upd, .txn, .draws, .rfm, .ctx] x0 := by
    unfold x0
    split
    · exact keepsBut_step keeps_State_txnSent (by decide) (by assumption)
    · assumption
  try clear_value x0
  refine keepsBut_ite ?_ ?_
  · exact keepsBut_step keeps_State_meshSet (by decide) (by assumption)
  · extract_lets +onlyGivenNames x1
    have hx1 : State.keepsBut s [.plc, .way, .host, .limits, .cch, .regs, .out, .upd, .txn, .draws, .rfm, .ctx] x1 := by
      unfold x1
      refine keepsBut_step keeps_State_bump (by decide) ?_
      exact keepsBut_step keeps_State_meshDone (by decide) (by assumption)
    try clear_value x1
    split
    · refine keepsBut_ite ?_ ?_
      · assumption
      · exact keepsBut_step keeps_State_completeTxn (by decide) (by assumption)
    · refine keepsBut_ite ?_ ?_
      · exact keepsBut_step keeps_State_openWindow (by decide) (by assumption)
      · assumption
    · assumption

theorem keeps_State_meshTransmit {s : State} {x : MeshTx} :
    s.keepsBut [.plc, .way, .host, .limits, .cch, .regs, .out, .upd, .txn, .draws, .rfm, .ctx] (s.meshTransmit x) := by
  have h0 : State.keepsBut s [.plc, .way, .host, .limits, .cch, .regs, .out, .upd, .txn, .draws, .rfm, .ctx] s := keepsBut_refl _ _
  unfold State.meshTransmit
  extract_lets +onlyGivenNames x0
  try clear_value x0
  extract_lets +onlyGivenNames x1
  try clear_value x1
  extract_lets +onlyGivenNames x2
  have hx2 : State.keepsBut s [.plc, .way, .host, .limits, .cch, .regs, .out, .upd, .txn, .draws, .rfm, .ctx] x2.1 := by
    unfold x2
    exact keepsBut_step keeps_State_anchor (by decide) (by assumption)
  try clear_value x2
  extract_lets +onlyGivenNames x3
  try clear_value x3
  extract_lets +onlyGivenNames x4
  try clear_value x4
  extract_lets +onlyGivenNames x5
  try clear_value x5
  extract_lets +onlyGivenNames x6
  have hx6 : State.keepsBut s [.plc, .way, .host, .limits, .cch, .regs, .out, .upd, .txn, .draws, .rfm, .ctx] x6 := by
    unfold x6
    refine keepsBut_step keeps_State_emit (by decide) ?_
    refine keepsBut_step keeps_State_bump (by decide) ?_
    exact keepsBut_step keeps_State_radioDrive (by decide) (by assumption)
  try clear_value x6
  extract_lets +onlyGivenNames x7
  have hx7 : State.keepsBut s [.plc, .way, .host, .limits, .cch, .regs, .out, .upd, .txn, .draws, .rfm, .ctx] x7 := by
    unfold x7
    exact keepsBut_step keeps_State_modRfm (by decide) (by assumption)
  try clear_value x7
  refine keepsBut_step keeps_State_meshLeft (by decide) ?_
  exact keepsBut_step keeps_State_windowSent (by decide) (by assumption)

theorem keeps_State_heardAnnounce {s : State} {l : HwlHeader} :
    s.keepsBut [.way, .host, .limits, .regs, .out, .nor, .hwl] (s.heardAnnounce l) := by
  have h0 : State.keepsBut s [.way, .host, .limits, .regs, .out, .nor, .hwl] s := keepsBut_refl _ _
  unfold State.heardAnnounce
  extract_lets +onlyGivenNames x0
  try clear_value x0
  extract_lets +onlyGivenNames x1
  try clear_value x1
  extract_lets +onlyGivenNames x2
  try clear_value x2
  extract_lets +onlyGivenNames x3
  try clear_value x3
  extract_lets +onlyGivenNames x4
  try clear_value x4
  extract_lets +onlyGivenNames x5
  try clear_value x5
  refine keepsBut_ite ?_ ?_
  · refine keepsBut_ite ?_ ?_
    · assumption
    · exact keepsBut_step keeps_State_idConflict (by decide) (by assumption)
  · refine keepsBut_ite ?_ ?_
    · assumption
    · extract_lets +onlyGivenNames x6
      have hx6 : State.keepsBut s [.way, .host, .limits, .regs, .out, .nor, .hwl] x6 := by
        unfold x6
        refine keepsBut_step keeps_State_bump (by decide) ?_
        exact keepsBut_step keeps_State_modHwl (by decide) (by assumption)
      try clear_value x6
      extract_lets +onlyGivenNames x7
      have hx7 : State.keepsBut s [.way, .host, .limits, .regs, .out, .nor, .hwl] x7 := by
        unfold x7
        exact keepsBut_step keeps_State_recomputeRoutes (by decide) (by assumption)
      try clear_value x7
      extract_lets +onlyGivenNames x8
      try clear_value x8
      extract_lets +onlyGivenNames x9
      have hx9 : State.keepsBut s [.way, .host, .limits, .regs, .out, .nor, .hwl] x9 := by
        unfold x9
        refine keepsBut_ite ?_ ?_
        · exact keepsBut_step keeps_State_note (by decide) (by assumption)
        · refine keepsBut_foldl ?_ ?_
          · intro u a hu
            try beta_reduce
            · exact keepsBut_step keeps_State_hwlQueue (by decide) (by assumption)
          · assumption
      try clear_value x9
      refine keepsBut_ite ?_ ?_
      · exact keepsBut_step keeps_State_sendPair (by decide) (by assumption)
      · assumption

theorem keeps_State_enhAckDue {s : State} {h : MeshHeard} {last : ℕ} :
    s.keepsBut [.rfm] (s.enhAckDue h last) := by
  have h0 : State.keepsBut s [.rfm] s := keepsBut_refl _ _
  unfold State.enhAckDue
  extract_lets +onlyGivenNames x0
  try clear_value x0
  refine keepsBut_ite ?_ ?_
  · exact keepsBut_step keeps_State_modRfm (by decide) (by assumption)
  · assumption

theorem keeps_State_meshAckFor {s : State} {h : MeshHeard} :
    s.keepsBut [.regs, .draws, .rfm] (s.meshAckFor h) := by
  have h0 : State.keepsBut s [.regs, .draws, .rfm] s := keepsBut_refl _ _
  unfold State.meshAckFor
  extract_lets +onlyGivenNames x0
  try clear_value x0
  refine keepsBut_ite ?_ ?_
  · refine keepsBut_step keeps_State_bump (by decide) ?_
    exact keepsBut_step keeps_State_meshQueue (by decide) (by assumption)
  · assumption

theorem keeps_State_finishMesh {s : State} {r : MeshReception} :
    s.keepsBut [.plc, .way, .host, .limits, .regs, .out, .draws, .ing, .rfm, .ctx] (s.finishMesh r) := by
  have h0 : State.keepsBut s [.plc, .way, .host, .limits, .regs, .out, .draws, .ing, .rfm, .ctx] s := keepsBut_refl _ _
  unfold State.finishMesh
  split
  · assumption
  · extract_lets +onlyGivenNames x0
    try clear_value x0
    extract_lets +onlyGivenNames x1
    try clear_value x1
    extract_lets +onlyGivenNames x2
    try clear_value x2
    extract_lets +onlyGivenNames x3
    have hx3 : State.keepsBut s [.plc, .way, .host, .limits, .regs, .out, .draws, .ing, .rfm, .ctx] x3 := by
      unfold x3
      refine keepsBut_foldl ?_ ?_
      · intro u a hu
        try beta_reduce
        · exact keepsBut_step keeps_State_bump (by decide) (by assumption)
      · assumption
    try clear_value x3
    refine keepsBut_ite ?_ ?_
    · extract_lets +onlyGivenNames x4
      have hx4 : State.keepsBut s [.plc, .way, .host, .limits, .regs, .out, .draws, .ing, .rfm, .ctx] x4 := by
        unfold x4
        refine keepsBut_ite ?_ ?_
        · exact keepsBut_step keeps_State_setDist (by decide) (by assumption)
        · assumption
      try clear_value x4
      refine keepsBut_step keeps_State_meshAckFor (by decide) ?_
      refine keepsBut_step keeps_State_enhAckDue (by decide) ?_
      exact keepsBut_step keeps_State_bump (by decide) (by assumption)
    · extract_lets +onlyGivenNames x5
      have hx5 : State.keepsBut s [.plc, .way, .host, .limits, .regs, .out, .draws, .ing, .rfm, .ctx] x5.1 := by
        unfold x5
        exact keepsBut_step keeps_State_meshDeliver (by decide) (by assumption)
      try clear_value x5
      refine keepsBut_ite ?_ ?_
      · refine keepsBut_step keeps_State_meshAckFor (by decide) ?_
        exact keepsBut_step keeps_State_enhAckDue (by decide) (by assumption)
      · assumption

theorem keeps_State_fallBack {fails : List ℕ} {why : ℕ} {s : State} :
    s.keepsBut [.way, .host, .regs, .boot, .out, .upd, .nor] (State.fallBack fails why s).1 := by
  have h0 : State.keepsBut s [.way, .host, .regs, .boot, .out, .upd, .nor] s := keepsBut_refl _ _
  unfold State.fallBack
  extract_lets +onlyGivenNames x0
  try clear_value x0
  extract_lets +onlyGivenNames x1
  try clear_value x1
  extract_lets +onlyGivenNames x2
  have hx2 : State.keepsBut s [.way, .host, .regs, .boot, .out, .upd, .nor] x2.1 := by
    unfold x2
    refine keepsBut_step keeps_State_backSteps (by decide) ?_
    exact keepsBut_step keeps_State_writeUpd (by decide) (by assumption)
  try clear_value x2
  refine keepsBut_iteFst ?_ ?_
  · assumption
  · extract_lets +onlyGivenNames x3
    have hx3 : State.keepsBut s [.way, .host, .regs, .boot, .out, .upd, .nor] x3 := by
      unfold x3
      assumption
    try clear_value x3
    extract_lets +onlyGivenNames x4
    try clear_value x4
    extract_lets +onlyGivenNames x5
    have hx5 : State.keepsBut s [.way, .host, .regs, .boot, .out, .upd, .nor] x5 := by
      unfold x5
      exact keepsBut_step keeps_with_upd (by decide) (by assumption)
    try clear_value x5
    extract_lets +onlyGivenNames x6
    try clear_value x6
    extract_lets +onlyGivenNames x7
    have hx7 : State.keepsBut s [.way, .host, .regs, .boot, .out, .upd, .nor] x7 := by
      unfold x7
      refine keepsBut_step keeps_State_bump (by decide) ?_
      exact keepsBut_step keeps_State_writeUpd (by decide) (by assumption)
    try clear_value x7
    dsimp only
    refine keepsBut_step keeps_State_event (by decide) ?_
    exact keepsBut_step keeps_State_event (by decide) (by assumption)

theorem keeps_State_parityStage {s : State} {l : ℕ} {fs : List ParityFault} :
    s.keepsBut [.way, .host, .limits, .regs, .out] (s.parityStage l fs).1 := by
  have h0 : State.keepsBut s [.way, .host, .limits, .regs, .out] s := keepsBut_refl _ _
  unfold State.parityStage
  extract_lets +onlyGivenNames x0
  try clear_value x0
  extract_lets +onlyGivenNames x1
  have hx1 : State.keepsBut s [.way, .host, .limits, .regs, .out] x1 := by
    unfold x1
    exact keepsBut_step keeps_State_bumpBy (by decide) (by assumption)
  try clear_value x1
  refine keepsBut_iteFst ?_ ?_
  · dsimp only
    refine keepsBut_step keeps_State_note (by decide) ?_
    exact keepsBut_step keeps_State_raiseInt (by decide) (by assumption)
  · dsimp only
    assumption

theorem keeps_State_csmaAttempt {s : State} {x : MeshTx} {energy : ℤ} :
    s.keepsBut [.plc, .way, .host, .limits, .cch, .regs, .out, .upd, .txn, .draws, .rfm, .ctx] (s.csmaAttempt x energy).1 := by
  have h0 : State.keepsBut s [.plc, .way, .host, .limits, .cch, .regs, .out, .upd, .txn, .draws, .rfm, .ctx] s := keepsBut_refl _ _
  unfold State.csmaAttempt
  extract_lets +onlyGivenNames x0
  try clear_value x0
  extract_lets +onlyGivenNames x1
  try clear_value x1
  extract_lets +onlyGivenNames x2
  try clear_value x2
  refine keepsBut_iteFst ?_ ?_
  · dsimp only
    assumption
  · refine keepsBut_iteFst ?_ ?_
    · dsimp only
      exact keepsBut_step keeps_State_holdDuty (by decide) (by assumption)
    · refine keepsBut_iteFst ?_ ?_
      · dsimp only
        exact keepsBut_step keeps_State_ccaBusy (by decide) (by assumption)
      · dsimp only
        exact keepsBut_step keeps_State_meshTransmit (by decide) (by assumption)

theorem keeps_State_sendAckWord {s : State} {p : ℕ} :
    s.keepsBut [.out, .hwl] (s.sendAckWord p) := by
  have h0 : State.keepsBut s [.out, .hwl] s := keepsBut_refl _ _
  unfold State.sendAckWord
  extract_lets +onlyGivenNames x0
  try clear_value x0
  refine keepsBut_step keeps_State_word (by decide) ?_
  exact keepsBut_step keeps_State_setHport (by decide) (by assumption)

theorem keeps_State_metTake {s : State} {c : MetCycle} :
    s.keepsBut [.met, .regs] (s.metTake c) := by
  have h0 : State.keepsBut s [.met, .regs] s := keepsBut_refl _ _
  unfold State.metTake
  extract_lets +onlyGivenNames x0
  try clear_value x0
  extract_lets +onlyGivenNames x1
  try clear_value x1
  extract_lets +onlyGivenNames x2
  have hx2 : State.keepsBut s [.met, .regs] x2 := by
    unfold x2
    exact keepsBut_step keeps_with_met (by decide) (by assumption)
  try clear_value x2
  exact keepsBut_step keeps_State_setReg (by decide) (by assumption)

theorem keeps_State_format {s : State} :
    s.keepsBut [.way, .ful, .host, .regs, .out] (s.format) := by
  have h0 : State.keepsBut s [.way, .ful, .host, .regs, .out] s := keepsBut_refl _ _
  unfold State.format
  extract_lets +onlyGivenNames x0
  try clear_value x0
  extract_lets +onlyGivenNames x1
  try clear_value x1
  extract_lets +onlyGivenNames x2
  try clear_value x2
  extract_lets +onlyGivenNames x3
  try clear_value x3
  extract_lets +onlyGivenNames x4
  try clear_value x4
  extract_lets +onlyGivenNames x5
  try clear_value x5
  extract_lets +onlyGivenNames x6
  try clear_value x6
  extract_lets +onlyGivenNames x7
  try clear_value x7
  extract_lets +onlyGivenNames x8
  try clear_value x8
  extract_lets +onlyGivenNames y9
  try clear_value y9
  extract_lets +onlyGivenNames x9
  have hx9 : State.keepsBut s [.way, .ful, .host, .regs, .out] x9 := by
    unfold x9
    refine keepsBut_step keeps_State_bumpBy (by decide) ?_
    exact keepsBut_step keeps_with_ful (by decide) (by assumption)
  try clear_value x9
  extract_lets +onlyGivenNames x10
  try clear_value x10
  refine keepsBut_step keeps_State_event (by decide) ?_
  exact keepsBut_step keeps_State_event (by decide) (by assumption)

theorem keeps_State_readyStore {s : State} :
    s.keepsBut [.way, .ful, .host, .regs, .out] (s.readyStore) := by
  have h0 : State.keepsBut s [.way, .ful, .host, .regs, .out] s := keepsBut_refl _ _
  unfold State.readyStore
  split
  · exact keepsBut_step keeps_State_format (by decide) (by assumption)
  · extract_lets +onlyGivenNames x0
    try clear_value x0
    extract_lets +onlyGivenNames x1
    have hx1 : State.keepsBut s [.way, .ful, .host, .regs, .out] x1 := by
      unfold x1
      exact keepsBut_step keeps_with_ful (by decide) (by assumption)
    try clear_value x1
    extract_lets +onlyGivenNames x2
    have hx2 : State.keepsBut s [.way, .ful, .host, .regs, .out] x2 := by
      unfold x2
      refine keepsBut_ite ?_ ?_
      · exact keepsBut_step keeps_with_ful (by decide) (by assumption)
      · assumption
    try clear_value x2
    refine keepsBut_ite ?_ ?_
    · assumption
    · refine keepsBut_step keeps_State_event (by decide) ?_
      exact keepsBut_step keeps_with_ful (by decide) (by assumption)

theorem keeps_State_trainingFailed {s : State} {p : ℕ} :
    s.keepsBut [.way, .host, .regs, .out, .hwl] (s.trainingFailed p) := by
  have h0 : State.keepsBut s [.way, .host, .regs, .out, .hwl] s := keepsBut_refl _ _
  unfold State.trainingFailed
  extract_lets +onlyGivenNames x0
  try clear_value x0
  extract_lets +onlyGivenNames x1
  try clear_value x1
  refine keepsBut_ite ?_ ?_
  · extract_lets +onlyGivenNames x2
    try clear_value x2
    extract_lets +onlyGivenNames x3
    have hx3 : State.keepsBut s [.way, .host, .regs, .out, .hwl] x3 := by
      unfold x3
      refine keepsBut_step keeps_State_portState (by decide) ?_
      exact keepsBut_step keeps_State_setHport (by decide) (by assumption)
    try clear_value x3
    exact keepsBut_step keeps_State_setHport (by decide) (by assumption)
  · refine keepsBut_step keeps_State_portState (by decide) ?_
    exact keepsBut_step keeps_State_setHport (by decide) (by assumption)

theorem keeps_State_plcAckDue {s : State} {h : PlcHeard} {last : ℕ} :
    s.keepsBut [.plc] (s.plcAckDue h last) := by
  have h0 : State.keepsBut s [.plc] s := keepsBut_refl _ _
  unfold State.plcAckDue
  extract_lets +onlyGivenNames x0
  try clear_value x0
  refine keepsBut_ite ?_ ?_
  · extract_lets +onlyGivenNames x1
    try clear_value x1
    extract_lets +onlyGivenNames x2
    try clear_value x2
    exact keepsBut_step keeps_State_modPlc (by decide) (by assumption)
  · assumption

theorem keeps_State_startCollection {s : State} :
    s.keepsBut [.ful, .regs] (s.startCollection) := by
  have h0 : State.keepsBut s [.ful, .regs] s := keepsBut_refl _ _
  unfold State.startCollection
  extract_lets +onlyGivenNames x0
  try clear_value x0
  refine keepsBut_ite ?_ ?_
  · assumption
  · split
    · refine keepsBut_step keeps_State_bump (by decide) ?_
      exact keepsBut_step keeps_with_ful (by decide) (by assumption)
    · refine keepsBut_ite ?_ ?_
      · split
        · refine keepsBut_step keeps_State_bump (by decide) ?_
          exact keepsBut_step keeps_with_ful (by decide) (by assumption)
        · assumption
      · refine keepsBut_ite ?_ ?_
        · split
          · refine keepsBut_step keeps_State_bump (by decide) ?_
            exact keepsBut_step keeps_with_ful (by decide) (by assumption)
          · assumption
        · assumption

theorem keeps_State_campRead {s : State} {c : ℕ} {v : Campaign} {g : Gmn} :
    s.keepsBut [.regs, .txn, .ctx] (s.campRead c v g) := by
  have h0 : State.keepsBut s [.regs, .txn, .ctx] s := keepsBut_refl _ _
  unfold State.campRead
  refine keepsBut_step keeps_State_bump (by decide) ?_
  exact keepsBut_step keeps_State_pushRequest (by decide) (by assumption)

theorem keeps_State_mirrorIn {s : State} {l : HwlHeader} {b : HwlBody} :
    s.keepsBut [.way, .ful, .host, .limits, .bal, .regs, .out, .hwl, .ing] (s.mirrorIn l b) := by
  have h0 : State.keepsBut s [.way, .ful, .host, .limits, .bal, .regs, .out, .hwl, .ing] s := keepsBut_refl _ _
  unfold State.mirrorIn
  refine keepsBut_ite ?_ ?_
  · assumption
  · refine keepsBut_ite ?_ ?_
    · exact keepsBut_step keeps_State_note (by decide) (by assumption)
    · refine keepsBut_ite ?_ ?_
      · exact keepsBut_step keeps_State_note (by decide) (by assumption)
      · refine keepsBut_step keeps_State_mirrorPump (by decide) ?_
        exact keepsBut_step keeps_State_modHwl (by decide) (by assumption)

theorem keeps_State_advanceFwRead {s : State} {v : Word} :
    s.keepsBut [.regs, .ing] (s.advanceFwRead v) := by
  have h0 : State.keepsBut s [.regs, .ing] s := keepsBut_refl _ _
  unfold State.advanceFwRead
  extract_lets +onlyGivenNames x0
  try clear_value x0
  extract_lets +onlyGivenNames x1
  try clear_value x1
  refine keepsBut_step keeps_State_setReg (by decide) ?_
  exact keepsBut_step keeps_with_ing (by decide) (by assumption)

theorem keeps_State_room8 {s : State} {n : ℕ} :
    s.keepsBut [.way, .ful, .host, .limits, .regs, .out] (s.room8 n) := by
  have h0 : State.keepsBut s [.way, .ful, .host, .limits, .regs, .out] s := keepsBut_refl _ _
  unfold State.room8
  refine keepsBut_ite ?_ ?_
  · assumption
  · extract_lets +onlyGivenNames x0
    try clear_value x0
    refine keepsBut_ite ?_ ?_
    · extract_lets +onlyGivenNames x1
      try clear_value x1
      extract_lets +onlyGivenNames x2
      have hx2 : State.keepsBut s [.way, .ful, .host, .limits, .regs, .out] x2 := by
        unfold x2
        exact keepsBut_step keeps_with_ful (by decide) (by assumption)
      try clear_value x2
      refine keepsBut_ite ?_ ?_
      · assumption
      · exact keepsBut_step keeps_State_raiseInt (by decide) (by assumption)
    · extract_lets +onlyGivenNames x3
      try clear_value x3
      extract_lets +onlyGivenNames x4
      try clear_value x4
      refine keepsBut_step keeps_State_released (by decide) ?_
      exact keepsBut_step keeps_with_ful (by decide) (by assumption)

theorem keeps_State_afterCheckpoint {s : State} :
    s.keepsBut [.way, .ful, .host, .limits, .regs, .out] (s.afterCheckpoint) := by
  have h0 : State.keepsBut s [.way, .ful, .host, .limits, .regs, .out] s := keepsBut_refl _ _
  unfold State.afterCheckpoint
  refine keepsBut_ite ?_ ?_
  · exact keepsBut_step keeps_State_room8 (by decide) (by assumption)
  · assumption

theorem keeps_State_endProbation {s : State} :
    s.keepsBut [.nor] (s.endProbation) := by
  have h0 : State.keepsBut s [.nor] s := keepsBut_refl _ _
  unfold State.endProbation
  exact keepsBut_step keeps_State_writeUpd (by decide) (by assumption)

theorem keeps_State_partnerIsLost {s : State} :
    s.keepsBut [.way, .host, .limits, .regs, .readings, .out, .hwl, .ing] (s.partnerIsLost) := by
  have h0 : State.keepsBut s [.way, .host, .limits, .regs, .readings, .out, .hwl, .ing] s := keepsBut_refl _ _
  unfold State.partnerIsLost
  refine keepsBut_ite ?_ ?_
  · assumption
  · extract_lets +onlyGivenNames x0
    try clear_value x0
    extract_lets +onlyGivenNames x1
    try clear_value x1
    extract_lets +onlyGivenNames x2
    have hx2 : State.keepsBut s [.way, .host, .limits, .regs, .readings, .out, .hwl, .ing] x2 := by
      unfold x2
      exact keepsBut_step keeps_State_modHwl (by decide) (by assumption)
    try clear_value x2
    extract_lets +onlyGivenNames x3
    have hx3 : State.keepsBut s [.way, .host, .limits, .regs, .readings, .out, .hwl, .ing] x3 := by
      unfold x3
      refine keepsBut_foldl ?_ ?_
      · intro u a hu
        try beta_reduce
        · exact keepsBut_step keeps_State_takeBack (by decide) (by assumption)
      · exact keepsBut_step keeps_State_sendHeld (by decide) (by assumption)
    try clear_value x3
    extract_lets +onlyGivenNames x4
    have hx4 : State.keepsBut s [.way, .host, .limits, .regs, .readings, .out, .hwl, .ing] x4 := by
      unfold x4
      refine keepsBut_step keeps_State_note (by decide) ?_
      exact keepsBut_step keeps_State_raiseInt (by decide) (by assumption)
    try clear_value x4
    refine keepsBut_step keeps_State_claim (by decide) ?_
    refine keepsBut_step keeps_State_flushReadings (by decide) ?_
    exact keepsBut_step keeps_State_reportOut (by decide) (by assumption)

theorem keeps_State_modPtp {s : State} {p : Fin 2} {f : PtpPort → PtpPort} :
    s.keepsBut [.tim] (s.modPtp p f) := by
  have h0 : State.keepsBut s [.tim] s := keepsBut_refl _ _
  unfold State.modPtp
  exact keepsBut_step keeps_State_modTim (by decide) (by assumption)

theorem keeps_State_sendMack {s : State} :
    s.keepsBut [.way, .host, .limits, .regs, .out, .hwl] (s.sendMack) := by
  have h0 : State.keepsBut s [.way, .host, .limits, .regs, .out, .hwl] s := keepsBut_refl _ _
  unfold State.sendMack
  refine keepsBut_step keeps_State_hwlSend (by decide) ?_
  exact keepsBut_step keeps_State_modHwl (by decide) (by assumption)

theorem keeps_State_writePort {s : State} {m : Master} {q : ℕ} {w : ℕ} {v : Word} :
    s.keepsBut [.way, .host, .regs, .out] (s.writePort m q w v) := by
  have h0 : State.keepsBut s [.way, .host, .regs, .out] s := keepsBut_refl _ _
  unfold State.writePort
  refine keepsBut_ite ?_ ?_
  · exact keepsBut_step keeps_State_submitPort (by decide) (by assumption)
  · refine keepsBut_ite ?_ ?_
    · exact keepsBut_step keeps_State_setPortWord (by decide) (by assumption)
    · assumption

theorem keeps_State_writeKeyDestroy {s : State} {r : RegRow} {v : Word} :
    s.keepsBut [.regs, .sec] (s.writeKeyDestroy r v) := by
  have h0 : State.keepsBut s [.regs, .sec] s := keepsBut_refl _ _
  unfold State.writeKeyDestroy
  extract_lets +onlyGivenNames x0
  try clear_value x0
  refine keepsBut_ite ?_ ?_
  · exact keepsBut_step keeps_State_ignoreWrite (by decide) (by assumption)
  · extract_lets +onlyGivenNames x1
    have hx1 : State.keepsBut s [.regs, .sec] x1 := by
      unfold x1
      exact keepsBut_step keeps_State_storeBits (by decide) (by assumption)
    try clear_value x1
    refine keepsBut_ite ?_ ?_
    · assumption
    · exact keepsBut_step keeps_State_modSec (by decide) (by assumption)

theorem keeps_State_writeRegister {s : State} {m : Master} {r : RegRow} {a : ℕ} {v : Word} :
    s.keepsBut [.way, .host, .regs, .out, .sec, .ing] (s.writeRegister m r a v) := by
  have h0 : State.keepsBut s [.way, .host, .regs, .out, .sec, .ing] s := keepsBut_refl _ _
  unfold State.writeRegister
  refine keepsBut_ite ?_ ?_
  · exact keepsBut_step keeps_State_ignoreWrite (by decide) (by assumption)
  · refine keepsBut_ite ?_ ?_
    · exact keepsBut_step keeps_State_writeKeyDestroy (by decide) (by assumption)
    · refine keepsBut_ite ?_ ?_
      · exact keepsBut_step keeps_State_writeAcc (by decide) (by assumption)
      · refine keepsBut_ite ?_ ?_
        · exact keepsBut_step keeps_State_writePort (by decide) (by assumption)
        · refine keepsBut_ite ?_ ?_
          · exact keepsBut_step keeps_State_writePort (by decide) (by assumption)
          · refine keepsBut_ite ?_ ?_
            · exact keepsBut_step keeps_State_writeQueue (by decide) (by assumption)
            · refine keepsBut_ite ?_ ?_
              · exact keepsBut_step keeps_State_advanceFwRead (by decide) (by assumption)
              · refine keepsBut_ite ?_ ?_
                · refine keepsBut_step keeps_State_checkThreshold (by decide) ?_
                  exact keepsBut_step keeps_State_storeBits (by decide) (by assumption)
                · exact keepsBut_step keeps_State_storeBits (by decide) (by assumption)

theorem keeps_State_setupReceive {L : List Part} {s0 : State} {s : State} {l : HwlHeader} {typ : ℕ} {deliver : State → State} (sub : ∀
    p ∈ [.regs], p ∈ L)
    (hf : ∀ u, s0.keepsBut L u → s0.keepsBut L (deliver u)) (h0 : s0.keepsBut L s) : s0.keepsBut L (s.setupReceive l typ deliver) := by
  unfold State.setupReceive
  extract_lets +onlyGivenNames x0
  try clear_value x0
  refine keepsBut_ite ?_ ?_
  · assumption
  · refine keepsBut_ite ?_ ?_
    · exact keepsBut_step keeps_State_bump (keepsBut_sub (by decide) sub) (by assumption)
    · refine keepsBut_ite ?_ ?_
      · refine keepsBut_step keeps_State_bump (keepsBut_sub (by decide) sub) ?_
        exact keepsBut_step keeps_State_bump (keepsBut_sub (by decide) sub) (by assumption)
      · apply hf
        exact keepsBut_step keeps_State_bump (keepsBut_sub (by decide) sub) (by assumption)

theorem keeps_State_copyDone {s : State} :
    s.keepsBut [.nor] (s.copyDone) := by
  have h0 : State.keepsBut s [.nor] s := keepsBut_refl _ _
  unfold State.copyDone
  extract_lets +onlyGivenNames x0
  try clear_value x0
  refine keepsBut_ite ?_ ?_
  · exact keepsBut_step keeps_State_writeUpd (by decide) (by assumption)
  · exact keepsBut_step keeps_State_writeUpd (by decide) (by assumption)

theorem keeps_State_updateStep {fails : List ℕ} {back : List ℕ} {s : State} :
    s.keepsBut [.way, .host, .limits, .regs, .boot, .out, .upd, .nor] (State.updateStep fails back s).1 := by
  have h0 : State.keepsBut s [.way, .host, .limits, .regs, .boot, .out, .upd, .nor] s := keepsBut_refl _ _
  unfold State.updateStep
  extract_lets +onlyGivenNames x0
  try clear_value x0
  split
  · dsimp only
    assumption
  · refine keepsBut_iteFst ?_ ?_
    · extract_lets +onlyGivenNames x1
      have hx1 : State.keepsBut s [.way, .host, .limits, .regs, .boot, .out, .upd, .nor] x1.1 := by
        unfold x1
        refine keepsBut_step keeps_State_copyAll (by decide) ?_
        exact keepsBut_step keeps_State_writeUpd (by decide) (by assumption)
      try clear_value x1
      refine keepsBut_iteFst ?_ ?_
      · dsimp only
        exact keepsBut_step keeps_State_copyDone (by decide) (by assumption)
      · assumption
    · dsimp only
      refine keepsBut_step keeps_State_note (by decide) ?_
      exact keepsBut_step keeps_State_writeUpd (by decide) (by assumption)
  · extract_lets +onlyGivenNames x2
    have hx2 : State.keepsBut s [.way, .host, .limits, .regs, .boot, .out, .upd, .nor] x2.1 := by
      unfold x2
      exact keepsBut_step keeps_State_copyAll (by decide) (by assumption)
    try clear_value x2
    refine keepsBut_iteFst ?_ ?_
    · dsimp only
      exact keepsBut_step keeps_State_copyDone (by decide) (by assumption)
    · assumption
  · extract_lets +onlyGivenNames x3
    have hx3 : State.keepsBut s [.way, .host, .limits, .regs, .boot, .out, .upd, .nor] x3 := by
      unfold x3
      exact keepsBut_step keeps_State_writeUpd (by decide) (by assumption)
    try clear_value x3
    split
    · dsimp only
      assumption
    · exact keepsBut_step keeps_State_fallBack (by decide) (by assumption)
  · exact keepsBut_step keeps_State_fallBack (by decide) (by assumption)

theorem keeps_State_campAnnounce {s : State} {c : ℕ} {v : Campaign} :
    s.keepsBut [.way, .host, .limits, .cch, .regs, .out, .upd, .txn, .ctx] (s.campAnnounce c v) := by
  have h0 : State.keepsBut s [.way, .host, .limits, .cch, .regs, .out, .upd, .txn, .ctx] s := keepsBut_refl _ _
  unfold State.campAnnounce
  extract_lets +onlyGivenNames x0
  have hx0 : State.keepsBut s [.way, .host, .limits, .cch, .regs, .out, .upd, .txn, .ctx] x0 := by
    unfold x0
    exact keepsBut_step keeps_State_campBroadcast (by decide) (by assumption)
  try clear_value x0
  extract_lets +onlyGivenNames x1
  try clear_value x1
  refine keepsBut_ite ?_ ?_
  · refine keepsBut_ite ?_ ?_
    · exact keepsBut_step keeps_State_setCamp (by decide) (by assumption)
    · exact keepsBut_step keeps_State_setCamp (by decide) (by assumption)
  · refine keepsBut_ite ?_ ?_
    · exact keepsBut_step keeps_State_passSent (by decide) (by assumption)
    · exact keepsBut_step keeps_State_setCamp (by decide) (by assumption)

theorem keeps_State_startFabric {s : State} :
    s.keepsBut [.hwl] (s.startFabric) := by
  have h0 : State.keepsBut s [.hwl] s := keepsBut_refl _ _
  unfold State.startFabric
  refine keepsBut_ite ?_ ?_
  · exact keepsBut_step keeps_with_hwl (by decide) (by assumption)
  · exact keepsBut_step keeps_with_hwl (by decide) (by assumption)

theorem keeps_State_resendFrom {s : State} {m : BitVec 32} :
    s.keepsBut [.way, .host, .limits, .regs, .out, .hwl] (s.resendFrom m) := by
  have h0 : State.keepsBut s [.way, .host, .limits, .regs, .out, .hwl] s := keepsBut_refl _ _
  unfold State.resendFrom
  refine keepsBut_foldl ?_ ?_
  · intro u a hu
    try beta_reduce
    · refine keepsBut_step keeps_State_bump (by decide) ?_
      exact keepsBut_step keeps_State_hwlSend (by decide) (by assumption)
  · assumption

theorem keeps_State_ackBundle {s : State} {b : RelayBundle} {peer : Option (Fin 2 × Fin 32)} :
    s.keepsBut [.regs, .out, .eth] (s.ackBundle b peer) := by
  have h0 : State.keepsBut s [.regs, .out, .eth] s := keepsBut_refl _ _
  unfold State.ackBundle
  split
  · exact keepsBut_step keeps_State_ethSend (by decide) (by assumption)
  · assumption

theorem keeps_State_confirm {s : State} :
    s.keepsBut [.way, .host, .regs, .out, .nor] (s.confirm) := by
  have h0 : State.keepsBut s [.way, .host, .regs, .out, .nor] s := keepsBut_refl _ _
  unfold State.confirm
  extract_lets +onlyGivenNames x0
  try clear_value x0
  extract_lets +onlyGivenNames x1
  try clear_value x1
  extract_lets +onlyGivenNames x2
  have hx2 : State.keepsBut s [.way, .host, .regs, .out, .nor] x2 := by
    unfold x2
    exact keepsBut_step keeps_State_writeUpd (by decide) (by assumption)
  try clear_value x2
  extract_lets +onlyGivenNames x3
  try clear_value x3
  extract_lets +onlyGivenNames x4
  have hx4 : State.keepsBut s [.way, .host, .regs, .out, .nor] x4 := by
    unfold x4
    exact keepsBut_step keeps_with_nor (by decide) (by assumption)
  try clear_value x4
  extract_lets +onlyGivenNames x5
  have hx5 : State.keepsBut s [.way, .host, .regs, .out, .nor] x5 := by
    unfold x5
    refine keepsBut_step keeps_State_event (by decide) ?_
    refine keepsBut_step keeps_State_bump (by decide) ?_
    exact keepsBut_step keeps_State_raiseInt (by decide) (by assumption)
  try clear_value x5
  refine keepsBut_ite ?_ ?_
  · exact keepsBut_step keeps_State_event (by decide) (by assumption)
  · assumption

theorem keeps_State_feederClose {s : State} {g : ℕ} {f : FeederRecord} :
    s.keepsBut [.bal] (s.feederClose g f) := by
  have h0 : State.keepsBut s [.bal] s := keepsBut_refl _ _
  unfold State.feederClose
  extract_lets +onlyGivenNames x0
  try clear_value x0
  extract_lets +onlyGivenNames x1
  try clear_value x1
  extract_lets +onlyGivenNames x2
  try clear_value x2
  extract_lets +onlyGivenNames x3
  try clear_value x3
  extract_lets +onlyGivenNames x4
  try clear_value x4
  extract_lets +onlyGivenNames x5
  try clear_value x5
  exact keepsBut_step keeps_State_setBalGroup (by decide) (by assumption)

theorem keeps_State_checkLevels {s : State} {wasCritical : Bool} :
    s.keepsBut [.ful, .regs, .out] (s.checkLevels wasCritical) := by
  have h0 : State.keepsBut s [.ful, .regs, .out] s := keepsBut_refl _ _
  unfold State.checkLevels
  extract_lets +onlyGivenNames x0
  try clear_value x0
  extract_lets +onlyGivenNames x1
  try clear_value x1
  extract_lets +onlyGivenNames x2
  have hx2 : State.keepsBut s [.ful, .regs, .out] x2 := by
    unfold x2
    exact keepsBut_step keeps_with_ful (by decide) (by assumption)
  try clear_value x2
  extract_lets +onlyGivenNames x3
  have hx3 : State.keepsBut s [.ful, .regs, .out] x3 := by
    unfold x3
    refine keepsBut_ite ?_ ?_
    · exact keepsBut_step keeps_State_raiseInt (by decide) (by assumption)
    · assumption
  try clear_value x3
  exact keepsBut_step keeps_State_startCollection (by decide) (by assumption)

theorem keeps_State_journalImage {s : State} {i : ℕ} :
    s.keepsBut [.ful] (s.journalImage i) := by
  have h0 : State.keepsBut s [.ful] s := keepsBut_refl _ _
  unfold State.journalImage
  extract_lets +onlyGivenNames x0
  try clear_value x0
  exact keepsBut_step keeps_State_toFuller (by decide) (by assumption)

theorem keeps_State_hwlForward {s : State} {l : HwlHeader} :
    s.keepsBut [.way, .host, .limits, .regs, .out, .hwl] (s.hwlForward l) := by
  have h0 : State.keepsBut s [.way, .host, .limits, .regs, .out, .hwl] s := keepsBut_refl _ _
  unfold State.hwlForward
  extract_lets +onlyGivenNames x0
  try clear_value x0
  refine keepsBut_ite ?_ ?_
  · exact keepsBut_step keeps_State_note (by decide) (by assumption)
  · split
    · exact keepsBut_step keeps_State_note (by decide) (by assumption)
    · exact keepsBut_step keeps_State_hwlQueue (by decide) (by assumption)

theorem keeps_State_sbAnswer {s : State} {r : SbReq} {cmd : ℕ} {status : ℕ} {reason : Reason} {data : List Byte} :
    s.keepsBut [.regs, .out, .sb] (s.sbAnswer r cmd status reason data) := by
  have h0 : State.keepsBut s [.regs, .out, .sb] s := keepsBut_refl _ _
  unfold State.sbAnswer
  extract_lets +onlyGivenNames x0
  try clear_value x0
  refine keepsBut_step keeps_State_sbSend (by decide) ?_
  exact keepsBut_step keeps_with_sb (by decide) (by assumption)

theorem keeps_State_sbReject {s : State} {r : SbReq} {cmd : ℕ} {reason : Reason} :
    s.keepsBut [.regs, .out, .sb] (s.sbReject r cmd reason) := by
  have h0 : State.keepsBut s [.regs, .out, .sb] s := keepsBut_refl _ _
  unfold State.sbReject
  refine keepsBut_step keeps_State_sbAnswer (by decide) ?_
  exact keepsBut_step keeps_State_bump (by decide) (by assumption)

theorem keeps_State_hwlReceive {L : List Part} {s0 : State} {s : State} {l : HwlHeader} {typ : ℕ} {deliver : State → State} (sub : ∀ p
    ∈ [.way, .host, .limits, .regs, .out, .hwl], p ∈ L)
    (hf : ∀ u, s0.keepsBut L u → s0.keepsBut L (deliver u)) (h0 : s0.keepsBut L s) : s0.keepsBut L (s.hwlReceive l typ deliver) := by
  unfold State.hwlReceive
  extract_lets +onlyGivenNames x0
  try clear_value x0
  extract_lets +onlyGivenNames x1
  try clear_value x1
  refine keepsBut_ite ?_ ?_
  · assumption
  · refine keepsBut_ite ?_ ?_
    · refine keepsBut_step keeps_State_sendNak (keepsBut_sub (by decide) sub) ?_
      exact keepsBut_step keeps_State_bump (keepsBut_sub (by decide) sub) (by assumption)
    · refine keepsBut_ite ?_ ?_
      · refine keepsBut_ite ?_ ?_
        · assumption
        · exact keepsBut_step keeps_State_sendNak (keepsBut_sub (by decide) sub) (by assumption)
      · extract_lets +onlyGivenNames x2
        try clear_value x2
        extract_lets +onlyGivenNames x3
        try clear_value x3
        extract_lets +onlyGivenNames x4
        have hx4 : State.keepsBut s0 L x4 := by
          unfold x4
          refine keepsBut_step keeps_State_word (keepsBut_sub (by decide) sub) ?_
          refine keepsBut_step keeps_State_bump (keepsBut_sub (by decide) sub) ?_
          exact keepsBut_step keeps_State_setHport (keepsBut_sub (by decide) sub) (by assumption)
        try clear_value x4
        extract_lets +onlyGivenNames x5
        have hx5 : State.keepsBut s0 L x5 := by
          unfold x5
          refine keepsBut_ite ?_ ?_
          · exact keepsBut_step keeps_State_sendAckWord (keepsBut_sub (by decide) sub) (by assumption)
          · assumption
        try clear_value x5
        extract_lets +onlyGivenNames x6
        have hx6 : State.keepsBut s0 L x6 := by
          unfold x6
          refine keepsBut_ite ?_ ?_
          · exact keepsBut_step keeps_State_modHwl (keepsBut_sub (by decide) sub) (by assumption)
          · assumption
        try clear_value x6
        refine keepsBut_ite ?_ ?_
        · exact keepsBut_step keeps_State_bump (keepsBut_sub (by decide) sub) (by assumption)
        · refine keepsBut_ite ?_ ?_
          · exact keepsBut_step keeps_State_hwlForward (keepsBut_sub (by decide) sub) (by assumption)
          · apply hf; assumption

theorem keeps_State_sendBroadcast {s : State} {t : ℕ} {m : Medium} {a : Apdu} :
    s.keepsBut [.plc, .regs, .draws, .rfm] (s.sendBroadcast t m a) := by
  have h0 : State.keepsBut s [.plc, .regs, .draws, .rfm] s := keepsBut_refl _ _
  unfold State.sendBroadcast
  extract_lets +onlyGivenNames x0
  have hx0 : State.keepsBut s [.plc, .regs, .draws, .rfm] x0 := by
    unfold x0
    exact keepsBut_step keeps_State_bump (by decide) (by assumption)
  try clear_value x0
  refine keepsBut_ite ?_ ?_
  · exact keepsBut_step keeps_State_floodAll (by decide) (by assumption)
  · exact keepsBut_step keeps_State_plcQueue (by decide) (by assumption)

theorem keeps_State_refuseHello {s : State} {p : ℕ} {cause : ℕ} :
    s.keepsBut [.way, .host, .limits, .regs, .out, .hwl] (s.refuseHello p cause) := by
  have h0 : State.keepsBut s [.way, .host, .limits, .regs, .out, .hwl] s := keepsBut_refl _ _
  unfold State.refuseHello
  extract_lets +onlyGivenNames x0
  have hx0 : State.keepsBut s [.way, .host, .limits, .regs, .out, .hwl] x0 := by
    unfold x0
    exact keepsBut_step keeps_State_isolatePort (by decide) (by assumption)
  try clear_value x0
  refine keepsBut_ite ?_ ?_
  · exact keepsBut_step keeps_State_note (by decide) (by assumption)
  · assumption

theorem keeps_State_releaseOne {s : State} {h : ValHeld} {r : Record} {tref : ℕ} {k : Option ℤ} {deltas : List (Option ℕ)} {answer :
    Option FinalHeld} :
    s.keepsBut [.way, .host, .limits, .bal, .regs, .readings, .out, .bil, .hwl] (s.releaseOne h r tref k deltas answer) := by
  have h0 : State.keepsBut s [.way, .host, .limits, .bal, .regs, .readings, .out, .bil, .hwl] s := keepsBut_refl _ _
  unfold State.releaseOne
  extract_lets +onlyGivenNames x0
  try clear_value x0
  extract_lets +onlyGivenNames x1
  try clear_value x1
  extract_lets +onlyGivenNames x2
  have hx2 : State.keepsBut s [.way, .host, .limits, .bal, .regs, .readings, .out, .bil, .hwl] x2 := by
    unfold x2
    exact keepsBut_step keeps_State_openReading (by decide) (by assumption)
  try clear_value x2
  extract_lets +onlyGivenNames x3
  have hx3 : State.keepsBut s [.way, .host, .limits, .bal, .regs, .readings, .out, .bil, .hwl] x3 := by
    unfold x3
    refine keepsBut_ite ?_ ?_
    · exact keepsBut_step keeps_State_mirrorSend (by decide) (by assumption)
    · assumption
  try clear_value x3
  refine keepsBut_step keeps_State_toBal (by decide) ?_
  exact keepsBut_step keeps_State_toTroika (by decide) (by assumption)

theorem keeps_State_endedByReset {s : State} {cls : ResetClass} :
    s.keepsBut [.way, .host, .limits, .regs, .boot, .out, .upd] (s.endedByReset cls) := by
  have h0 : State.keepsBut s [.way, .host, .limits, .regs, .boot, .out, .upd] s := keepsBut_refl _ _
  unfold State.endedByReset
  refine keepsBut_ite ?_ ?_
  · assumption
  · refine keepsBut_step keeps_State_abandonDeliveries (by decide) ?_
    exact keepsBut_step keeps_State_endExpert (by decide) (by assumption)

theorem keeps_State_dropReport {s : State} :
    s.keepsBut [.way, .host, .limits, .regs, .out] (s.dropReport) := by
  have h0 : State.keepsBut s [.way, .host, .limits, .regs, .out] s := keepsBut_refl _ _
  unfold State.dropReport
  refine keepsBut_step keeps_State_raiseInt (by decide) ?_
  exact keepsBut_step keeps_State_note (by decide) (by assumption)

theorem keeps_State_storeBytes {s : State} {p : ℕ} {bs : List Byte} :
    s.keepsBut [.mem] (s.storeBytes p bs) := by
  have h0 : State.keepsBut s [.mem] s := keepsBut_refl _ _
  unfold State.storeBytes
  exact keepsBut_step keeps_with_mem (by decide) (by assumption)

theorem keeps_State_writeBarred {s u : State} {m : Master} {a size : Nat} (h : s.writeBarred m a size = some u) :
    s.keepsBut [.way, .host, .limits, .regs, .out, .sec] u := by
  unfold State.writeBarred at h
  split at h
  · cases h
    exact keeps_State_emit.weaken (by decide)
  · cases h
    exact keepsBut_step keeps_State_emit (by decide) (keeps_State_countError.weaken (by decide))
  · cases h
    exact keeps_State_ignoreWrite.weaken (by decide)
  · cases h
    exact keepsBut_step keeps_State_emit (by decide) (keeps_State_refuseAccess.weaken (by decide))
  · cases h

theorem keeps_State_masterWrite {s : State} {m : Master} {a : ℕ} {size : ℕ} {v : Word} :
    s.keepsBut [.way, .host, .limits, .regs, .out, .sec, .ing] (s.masterWrite m a size v) := by
  have h0 : State.keepsBut s [.way, .host, .limits, .regs, .out, .sec, .ing] s := keepsBut_refl _ _
  unfold State.masterWrite
  split
  · rename_i e
    exact (keeps_State_writeBarred e).weaken (by decide)
  · split
    · exact keepsBut_step keeps_State_ignoreWrite (by decide) (by assumption)
    · exact keepsBut_step keeps_State_writeRegister (by decide) (by assumption)

theorem keeps_State_deviceWrite {s : State} {m : Master} {p : ℕ} {n : ℕ} {v : Word} :
    s.keepsBut [.way, .host, .limits, .regs, .out, .sec, .mem, .ing] (s.deviceWrite m p n v) := by
  have h0 : State.keepsBut s [.way, .host, .limits, .regs, .out, .sec, .mem, .ing] s := keepsBut_refl _ _
  unfold State.deviceWrite
  split
  · exact keepsBut_step keeps_State_unmapped (by decide) (by assumption)
  · exact keepsBut_step keeps_State_masterWrite (by decide) (by assumption)
  · refine keepsBut_step keeps_State_emit (by decide) ?_
    exact keepsBut_step keeps_State_refuseAccess (by decide) (by assumption)
  · refine keepsBut_ite ?_ ?_
    · exact keepsBut_step keeps_State_storeBytes (by decide) (by assumption)
    · exact keepsBut_step keeps_State_emit (by decide) (by assumption)

theorem keeps_State_bar4Write {s : State} {m : Master} {a : ℕ} {n : ℕ} {v : Word} :
    s.keepsBut [.regs, .out] (s.bar4Write m a n v) := by
  have h0 : State.keepsBut s [.regs, .out] s := keepsBut_refl _ _
  unfold State.bar4Write
  refine keepsBut_ite ?_ ?_
  · exact keepsBut_step keeps_State_emit (by decide) (by assumption)
  · refine keepsBut_ite ?_ ?_
    · assumption
    · refine keepsBut_ite ?_ ?_
      · exact keepsBut_step keeps_State_setReg (by decide) (by assumption)
      · extract_lets +onlyGivenNames x0
        try clear_value x0
        extract_lets +onlyGivenNames x1
        have hx1 : State.keepsBut s [.regs, .out] x1 := by
          unfold x1
          exact keepsBut_step keeps_State_setReg (by decide) (by assumption)
        try clear_value x1
        refine keepsBut_ite ?_ ?_
        · assumption
        · refine keepsBut_step keeps_State_msixMessage (by decide) ?_
          exact keepsBut_step keeps_State_setReg (by decide) (by assumption)

theorem keeps_State_spaceWrite {s : State} {sp : Space} {m : Master} {a : ℕ} {n : ℕ} {v : Word} :
    s.keepsBut [.way, .host, .limits, .regs, .out, .sec, .mem, .ing] (s.spaceWrite sp m a n v) := by
  have h0 : State.keepsBut s [.way, .host, .limits, .regs, .out, .sec, .mem, .ing] s := keepsBut_refl _ _
  unfold State.spaceWrite
  split
  · exact keepsBut_step keeps_State_masterWrite (by decide) (by assumption)
  · exact keepsBut_step keeps_State_bar4Write (by decide) (by assumption)
  · refine keepsBut_ite ?_ ?_
    · assumption
    · split
      · exact keepsBut_step keeps_State_emit (by decide) (by assumption)
      · exact keepsBut_step keeps_State_deviceWrite (by decide) (by assumption)
  · exact keepsBut_step keeps_State_deviceWrite (by decide) (by assumption)

theorem keeps_State_relayRequest {s : State} {t : ℕ} {i : ℕ} {r : Request} :
    s.keepsBut [.regs, .out, .txn, .eth] (s.relayRequest t i r) := by
  have h0 : State.keepsBut s [.regs, .out, .txn, .eth] s := keepsBut_refl _ _
  unfold State.relayRequest
  extract_lets +onlyGivenNames x0
  have hx0 : State.keepsBut s [.regs, .out, .txn, .eth] x0 := by
    unfold x0
    refine keepsBut_step keeps_State_txnSent (by decide) ?_
    exact keepsBut_step keeps_State_bump (by decide) (by assumption)
  try clear_value x0
  split
  · extract_lets +onlyGivenNames x1
    try clear_value x1
    exact keepsBut_step keeps_State_ethSendPeer (by decide) (by assumption)
  · assumption

theorem keeps_State_requestApdu {s u : State} {i : Nat} {plain a : Apdu} (h : s.requestApdu i plain = some (u, a)) :
    s.keepsBut [.ctx] u := by
  unfold State.requestApdu at h
  dsimp only at h
  split at h
  · cases h
    exact keepsBut_refl _ _
  · split at h
    · cases h
      exact keeps_State_modCtx
    · split at h
      · cases h
      · cases h
        exact keeps_State_modCtx

theorem keeps_State_sendRequest {s : State} {t : ℕ} {r : Request} {m : Medium} {plain : Apdu} :
    s.keepsBut [.plc, .way, .host, .limits, .cch, .regs, .out, .upd, .txn, .eth, .draws, .rfm, .ctx] (s.sendRequest t r m plain) := by
  have h0 : State.keepsBut s [.plc, .way, .host, .limits, .cch, .regs, .out, .upd, .txn, .eth, .draws, .rfm, .ctx] s := keepsBut_refl _ _
  unfold State.sendRequest
  split
  · refine keepsBut_ite ?_ ?_
    · exact keepsBut_step keeps_State_tooLong (by decide) (by assumption)
    · exact keepsBut_step keeps_State_sendBroadcast (by decide) (by assumption)
  · split
    · exact keepsBut_step keeps_State_failAttempt (by decide) (by assumption)
    · refine keepsBut_ite ?_ ?_
      · refine keepsBut_step keeps_State_relayRequest (by decide) ?_
        refine keepsBut_ite ?_ ?_
        · exact keepsBut_step keeps_State_modCtx (by decide) (by assumption)
        · assumption
      · split
        · exact keepsBut_step keeps_State_failAttempt (by decide) (by assumption)
        · rename_i e
          refine keepsBut_step keeps_State_sendTo (by decide) ?_
          exact (keeps_State_requestApdu e).weaken (by decide)

theorem keeps_State_issueOn {s : State} {t : ℕ} {r : Request} {plain : Apdu} :
    s.keepsBut [.plc, .way, .host, .limits, .cch, .regs, .out, .upd, .txn, .eth, .draws, .rfm, .ctx] (s.issueOn t r plain) := by
  have h0 : State.keepsBut s [.plc, .way, .host, .limits, .cch, .regs, .out, .upd, .txn, .eth, .draws, .rfm, .ctx] s := keepsBut_refl _ _
  unfold State.issueOn
  extract_lets +onlyGivenNames x0
  try clear_value x0
  extract_lets +onlyGivenNames x1
  try clear_value x1
  extract_lets +onlyGivenNames x2
  try clear_value x2
  extract_lets +onlyGivenNames x3
  try clear_value x3
  extract_lets +onlyGivenNames x4
  try clear_value x4
  extract_lets +onlyGivenNames x5
  have hx5 : State.keepsBut s [.plc, .way, .host, .limits, .cch, .regs, .out, .upd, .txn, .eth, .draws, .rfm, .ctx] x5 := by
    unfold x5
    refine keepsBut_step keeps_State_setTag (by decide) ?_
    exact keepsBut_step keeps_State_pullRequest (by decide) (by assumption)
  try clear_value x5
  extract_lets +onlyGivenNames x6
  have hx6 : State.keepsBut s [.plc, .way, .host, .limits, .cch, .regs, .out, .upd, .txn, .eth, .draws, .rfm, .ctx] x6 := by
    unfold x6
    refine keepsBut_ite ?_ ?_
    · exact keepsBut_step keeps_State_bump (by decide) (by assumption)
    · exact keepsBut_step keeps_State_bump (by decide) (by assumption)
  try clear_value x6
  extract_lets +onlyGivenNames x7
  have hx7 : State.keepsBut s [.plc, .way, .host, .limits, .cch, .regs, .out, .upd, .txn, .eth, .draws, .rfm, .ctx] x7 := by
    unfold x7
    refine keepsBut_ite ?_ ?_
    · exact keepsBut_step keeps_State_bump (by decide) (by assumption)
    · assumption
  try clear_value x7
  extract_lets +onlyGivenNames x8
  have hx8 : State.keepsBut s [.plc, .way, .host, .limits, .cch, .regs, .out, .upd, .txn, .eth, .draws, .rfm, .ctx] x8 := by
    unfold x8
    split
    · refine keepsBut_ite ?_ ?_
      · exact keepsBut_step keeps_State_modCtx (by decide) (by assumption)
      · assumption
    · assumption
  try clear_value x8
  exact keepsBut_step keeps_State_sendRequest (by decide) (by assumption)

theorem keeps_State_issueNext {s : State} {x : ℕ} {plain : Apdu} :
    s.keepsBut [.plc, .way, .host, .limits, .cch, .regs, .out, .upd, .txn, .eth, .draws, .rfm, .ctx] (s.issueNext x plain) := by
  have h0 : State.keepsBut s [.plc, .way, .host, .limits, .cch, .regs, .out, .upd, .txn, .eth, .draws, .rfm, .ctx] s := keepsBut_refl _ _
  unfold State.issueNext
  split
  · assumption
  · refine keepsBut_ite ?_ ?_
    · assumption
    · refine keepsBut_ite ?_ ?_
      · refine keepsBut_step keeps_State_reportOutcome (by decide) ?_
        refine keepsBut_step keeps_State_bump (by decide) ?_
        exact keepsBut_step keeps_State_pullRequest (by decide) (by assumption)
      · split
        · refine keepsBut_step keeps_State_raiseInt (by decide) ?_
          extract_lets +onlyGivenNames x0
          have hx0 : State.keepsBut s [.plc, .way, .host, .limits, .cch, .regs, .out, .upd, .txn, .eth, .draws, .rfm, .ctx] x0 := by
            unfold x0
            exact keepsBut_step keeps_State_bump (by decide) (by assumption)
          try clear_value x0
          exact keepsBut_step keeps_with_txn (by decide) (by assumption)
        · exact keepsBut_step keeps_State_issueOn (by decide) (by assumption)

end Sys2Proof.Machine
end

