-- ==== Sys2Proof/Laws/Keeps10.lean ====
section
/-!
SUPPORT. What each shared operation leaves of the state, one lemma an operation, an operation after those it is built from: from `metMeasure`
to `saveInGasp`.
-/

namespace Sys2Proof.Machine

theorem keeps_State_metMeasure {s : State} {l : List MetCycle} :
    s.keepsBut [.met, .regs] (s.metMeasure l) := by
  have h0 : State.keepsBut s [.met, .regs] s := keepsBut_refl _ _
  unfold State.metMeasure
  refine keepsBut_foldl ?_ ?_
  · intro u a hu
    try beta_reduce
    · exact keepsBut_step keeps_State_metTake (by decide) (by assumption)
  · assumption

theorem keeps_State_ringReport {s : State} {n : ℕ} {r : Report} :
    s.keepsBut [.host, .regs, .out] (s.ringReport n r) := by
  have h0 : State.keepsBut s [.host, .regs, .out] s := keepsBut_refl _ _
  unfold State.ringReport
  extract_lets +onlyGivenNames x0
  try clear_value x0
  extract_lets +onlyGivenNames x1
  have hx1 : State.keepsBut s [.host, .regs, .out] x1 := by
    unfold x1
    refine keepsBut_foldl ?_ ?_
    · intro u a hu
      try beta_reduce
      · exact keepsBut_step keeps_State_emit (by decide) (by assumption)
    · assumption
  try clear_value x1
  refine keepsBut_step keeps_State_coalesce (by decide) ?_
  refine keepsBut_step keeps_State_bump (by decide) ?_
  exact keepsBut_step keeps_State_setRq (by decide) (by assumption)

theorem keeps_State_endFill {s : State} {i : ℕ} {ok : Bool} :
    s.keepsBut [.ing] (s.endFill i ok) := by
  have h0 : State.keepsBut s [.ing] s := keepsBut_refl _ _
  unfold State.endFill
  extract_lets +onlyGivenNames x0
  try clear_value x0
  extract_lets +onlyGivenNames x1
  try clear_value x1
  extract_lets +onlyGivenNames x2
  have hx2 : State.keepsBut s [.ing] x2 := by
    unfold x2
    exact keepsBut_step keeps_with_ing (by decide) (by assumption)
  try clear_value x2
  extract_lets +onlyGivenNames x3
  try clear_value x3
  split
  · assumption
  · extract_lets +onlyGivenNames x4
    try clear_value x4
    exact keepsBut_step keeps_State_setCache (by decide) (by assumption)

theorem keeps_State_finishReception {s : State} {r : PlcReception} :
    s.keepsBut [.plc, .way, .host, .limits, .regs, .out, .draws, .ing, .ctx] (s.finishReception r) := by
  have h0 : State.keepsBut s [.plc, .way, .host, .limits, .regs, .out, .draws, .ing, .ctx] s := keepsBut_refl _ _
  unfold State.finishReception
  split
  · assumption
  · extract_lets +onlyGivenNames x0
    try clear_value x0
    extract_lets +onlyGivenNames x1
    have hx1 : State.keepsBut s [.plc, .way, .host, .limits, .regs, .out, .draws, .ing, .ctx] x1 := by
      unfold x1
      refine keepsBut_foldl ?_ ?_
      · intro u a hu
        try beta_reduce
        · exact keepsBut_step keeps_State_bump (by decide) (by assumption)
      · assumption
    try clear_value x1
    refine keepsBut_ite ?_ ?_
    · refine keepsBut_step keeps_State_plcAckDue (by decide) ?_
      exact keepsBut_step keeps_State_bump (by decide) (by assumption)
    · extract_lets +onlyGivenNames x2
      have hx2 : State.keepsBut s [.plc, .way, .host, .limits, .regs, .out, .draws, .ing, .ctx] x2.1 := by
        unfold x2
        exact keepsBut_step keeps_State_plcDeliver (by decide) (by assumption)
      try clear_value x2
      refine keepsBut_ite ?_ ?_
      · exact keepsBut_step keeps_State_plcAckDue (by decide) (by assumption)
      · assumption

theorem keeps_State_enhAckArrived {s : State} {n : ℕ} {bs : List Byte} {start : ℕ} :
    s.keepsBut [.regs, .draws, .rfm, .ctx] (s.enhAckArrived n bs start) := by
  have h0 : State.keepsBut s [.regs, .draws, .rfm, .ctx] s := keepsBut_refl _ _
  unfold State.enhAckArrived
  split
  · exact keepsBut_step keeps_State_bump (by decide) (by assumption)
  · refine keepsBut_ite ?_ ?_
    · exact keepsBut_step keeps_State_bump (by decide) (by assumption)
    · extract_lets +onlyGivenNames x0
      have hx0 : State.keepsBut s [.regs, .draws, .rfm, .ctx] x0 := by
        unfold x0
        refine keepsBut_step keeps_State_meshDone (by decide) ?_
        exact keepsBut_step keeps_State_bump (by decide) (by assumption)
      try clear_value x0
      extract_lets +onlyGivenNames x1
      have hx1 : State.keepsBut s [.regs, .draws, .rfm, .ctx] x1 := by
        unfold x1
        split
        · exact keepsBut_step keeps_State_modRadio (by decide) (by assumption)
        · assumption
      try clear_value x1
      extract_lets +onlyGivenNames x2
      have hx2 : State.keepsBut s [.regs, .draws, .rfm, .ctx] x2 := by
        unfold x2
        refine keepsBut_ite ?_ ?_
        · exact keepsBut_step keeps_State_openWindow (by decide) (by assumption)
        · assumption
      try clear_value x2
      exact keepsBut_step keeps_State_ackTiming (by decide) (by assumption)

theorem keeps_State_meshCombine {s : State} {h : MeshHeard} :
    s.keepsBut [.rfm] (s.meshCombine h) := by
  have h0 : State.keepsBut s [.rfm] s := keepsBut_refl _ _
  unfold State.meshCombine
  extract_lets +onlyGivenNames x0
  try clear_value x0
  exact keepsBut_step keeps_State_modRfm (by decide) (by assumption)

theorem keeps_State_meshArrived {s : State} {n : ℕ} {c : MeshCopy} :
    s.keepsBut [.regs, .draws, .rfm, .ctx] (s.meshArrived n c) := by
  have h0 : State.keepsBut s [.regs, .draws, .rfm, .ctx] s := keepsBut_refl _ _
  unfold State.meshArrived
  refine keepsBut_ite ?_ ?_
  · exact keepsBut_step keeps_State_enhAckArrived (by decide) (by assumption)
  · refine keepsBut_ite ?_ ?_
    · exact keepsBut_step keeps_State_bump (by decide) (by assumption)
    · split
      · exact keepsBut_step keeps_State_bump (by decide) (by assumption)
      · refine keepsBut_ite ?_ ?_
        · exact keepsBut_step keeps_State_bump (by decide) (by assumption)
        · refine keepsBut_ite ?_ ?_
          · exact keepsBut_step keeps_State_bump (by decide) (by assumption)
          · exact keepsBut_step keeps_State_meshCombine (by decide) (by assumption)

theorem keeps_State_discover {s : State} {slot : ℕ} :
    s.keepsBut [.plc, .regs, .draws, .ctx] (s.discover slot) := by
  have h0 : State.keepsBut s [.plc, .regs, .draws, .ctx] s := keepsBut_refl _ _
  unfold State.discover
  refine keepsBut_ite ?_ ?_
  · assumption
  · refine keepsBut_ite ?_ ?_
    · exact keepsBut_step keeps_State_modPlc (by decide) (by assumption)
    · extract_lets +onlyGivenNames x0
      have hx0 : State.keepsBut s [.plc, .regs, .draws, .ctx] x0 := by
        unfold x0
        refine keepsBut_step keeps_State_bump (by decide) ?_
        exact keepsBut_step keeps_State_modPlc (by decide) (by assumption)
      try clear_value x0
      refine keepsBut_step keeps_State_plcQueue (by decide) ?_
      exact keepsBut_step keeps_State_modCtx (by decide) (by assumption)

theorem keeps_State_dropPath {s : State} {slot : ℕ} {p : LinkPath} :
    s.keepsBut [.plc, .ctx] (s.dropPath slot p) := by
  have h0 : State.keepsBut s [.plc, .ctx] s := keepsBut_refl _ _
  unfold State.dropPath
  extract_lets +onlyGivenNames x0
  try clear_value x0
  refine keepsBut_ite ?_ ?_
  · exact keepsBut_step keeps_State_setRoutes (by decide) (by assumption)
  · refine keepsBut_ite ?_ ?_
    · exact keepsBut_step keeps_State_setRoutes (by decide) (by assumption)
    · assumption

theorem keeps_State_plcAttemptFailed {s : State} {x : PlcTx} :
    s.keepsBut [.plc, .way, .host, .limits, .cch, .regs, .out, .upd, .txn, .draws, .rfm, .ctx] (s.plcAttemptFailed x) := by
  have h0 : State.keepsBut s [.plc, .way, .host, .limits, .cch, .regs, .out, .upd, .txn, .draws, .rfm, .ctx] s := keepsBut_refl _ _
  unfold State.plcAttemptFailed
  refine keepsBut_ite ?_ ?_
  · extract_lets +onlyGivenNames x0
    extract_lets +onlyGivenNames x1
    refine keepsBut_step keeps_State_bump (by decide) ?_
    refine keepsBut_step keeps_State_plcSet (by decide) ?_
    exact keepsBut_step keeps_State_csmaWait (by decide) (by assumption)
  · extract_lets +onlyGivenNames x2
    have hx2 : State.keepsBut s [.plc, .way, .host, .limits, .cch, .regs, .out, .upd, .txn, .draws, .rfm, .ctx] x2 := by
      unfold x2
      refine keepsBut_step keeps_State_raiseInt (by decide) ?_
      refine keepsBut_step keeps_State_bump (by decide) ?_
      exact keepsBut_step keeps_State_plcDone (by decide) (by assumption)
    try clear_value x2
    extract_lets +onlyGivenNames x3
    have hx3 : State.keepsBut s [.plc, .way, .host, .limits, .cch, .regs, .out, .upd, .txn, .draws, .rfm, .ctx] x3 := by
      unfold x3
      split
      · assumption
      · extract_lets +onlyGivenNames x4
        extract_lets +onlyGivenNames x5
        have hx5 : State.keepsBut s [.plc, .way, .host, .limits, .cch, .regs, .out, .upd, .txn, .draws, .rfm, .ctx] x5 := by
          unfold x5
          exact keepsBut_step keeps_State_modCtx (by decide) (by assumption)
        try clear_value x5
        refine keepsBut_ite ?_ ?_
        · refine keepsBut_step keeps_State_discover (by decide) ?_
          exact keepsBut_step keeps_State_dropPath (by decide) (by assumption)
        · assumption
    try clear_value x3
    split
    · exact keepsBut_step keeps_State_failAttempt (by decide) (by assumption)
    · exact keepsBut_step keeps_State_failAttempt (by decide) (by assumption)
    · assumption

theorem keeps_State_frameCheck {s : State} {l : ℕ} {x : LaneItem} :
    s.keepsBut [.way, .host, .limits, .regs, .out, .ing] (s.frameCheck l x).1 := by
  have h0 : State.keepsBut s [.way, .host, .limits, .regs, .out, .ing] s := keepsBut_refl _ _
  unfold State.frameCheck
  split
  · extract_lets +onlyGivenNames x0
    have hx0 : State.keepsBut s [.way, .host, .limits, .regs, .out, .ing] x0.1 := by
      unfold x0
      exact keepsBut_step keeps_State_parityStage (by decide) (by assumption)
    try clear_value x0
    refine keepsBut_iteFst ?_ ?_
    · dsimp only
      exact keepsBut_step keeps_State_leaveLane (by decide) (by assumption)
    · refine keepsBut_iteFst ?_ ?_
      · dsimp only
        refine keepsBut_step keeps_State_leaveLane (by decide) ?_
        exact keepsBut_step keeps_State_note (by decide) (by assumption)
      · assumption
  · dsimp only
    assumption

theorem keeps_State_frameArrived {s : State} {n : ℕ} {r : PlcRx} {c : PlcCopy} :
    s.keepsBut [.plc, .regs] (s.frameArrived n r c) := by
  have h0 : State.keepsBut s [.plc, .regs] s := keepsBut_refl _ _
  unfold State.frameArrived
  split
  · exact keepsBut_step keeps_State_bump (by decide) (by assumption)
  · refine keepsBut_ite ?_ ?_
    · exact keepsBut_step keeps_State_bump (by decide) (by assumption)
    · refine keepsBut_ite ?_ ?_
      · exact keepsBut_step keeps_State_bump (by decide) (by assumption)
      · exact keepsBut_step keeps_State_plcCombine (by decide) (by assumption)

theorem keeps_State_dispatchFrame {s : State} {p : Fin 2} {f : EthFrame} :
    s.keepsBut [.latches, .plc, .way, .ful, .host, .rst, .limits, .cch, .tim, .bal, .regs, .boot, .out, .upd, .txn, .eth, .nor, .sec,
        .draws, .hwl, .ing, .rfm, .ctx] (s.dispatchFrame p f) := by
  have h0 : State.keepsBut s [.latches, .plc, .way, .ful, .host, .rst, .limits, .cch, .tim, .bal, .regs, .boot, .out, .upd, .txn, .eth,
      .nor, .sec, .draws, .hwl, .ing, .rfm, .ctx] s := keepsBut_refl _ _
  unfold State.dispatchFrame
  split
  · exact keepsBut_step keeps_State_bump (by decide) (by assumption)
  · refine keepsBut_ite ?_ ?_
    · exact keepsBut_step keeps_State_bump (by decide) (by assumption)
    · refine keepsBut_ite ?_ ?_
      · exact keepsBut_step keeps_State_messageFrame (by decide) (by assumption)
      · refine keepsBut_ite ?_ ?_
        · exact keepsBut_step keeps_State_bump (by decide) (by assumption)
        · assumption

theorem keeps_State_sampleSensor {s : State} {n : ℕ} :
    s.keepsBut [.way, .host, .limits, .regs, .out, .pwr] (s.sampleSensor n) := by
  have h0 : State.keepsBut s [.way, .host, .limits, .regs, .out, .pwr] s := keepsBut_refl _ _
  unfold State.sampleSensor
  extract_lets +onlyGivenNames x0
  try clear_value x0
  extract_lets +onlyGivenNames x1
  try clear_value x1
  extract_lets +onlyGivenNames x2
  have hx2 : State.keepsBut s [.way, .host, .limits, .regs, .out, .pwr] x2 := by
    unfold x2
    exact keepsBut_step keeps_State_modPwr (by decide) (by assumption)
  try clear_value x2
  refine keepsBut_ite ?_ ?_
  · assumption
  · refine keepsBut_ite ?_ ?_
    · exact keepsBut_step keeps_State_failSensor (by decide) (by assumption)
    · assumption

theorem keeps_State_markAbsent {s : State} {p : ℕ} :
    s.keepsBut [.met] (s.markAbsent p) := by
  have h0 : State.keepsBut s [.met] s := keepsBut_refl _ _
  unfold State.markAbsent
  extract_lets +onlyGivenNames x0
  try clear_value x0
  exact keepsBut_step keeps_with_met (by decide) (by assumption)

theorem keeps_State_sendReport {s : State} {d : ReportDest} {r : Report} :
    s.keepsBut [.way, .host, .limits, .regs, .out, .eth, .hwl, .sb] (s.sendReport d r) := by
  have h0 : State.keepsBut s [.way, .host, .limits, .regs, .out, .eth, .hwl, .sb] s := keepsBut_refl _ _
  unfold State.sendReport
  split
  · exact keepsBut_step keeps_State_ringReport (by decide) (by assumption)
  · refine keepsBut_step keeps_State_bump (by decide) ?_
    exact keepsBut_step keeps_State_ethSend (by decide) (by assumption)
  · refine keepsBut_step keeps_State_bump (by decide) ?_
    exact keepsBut_step keeps_State_sidebandReport (by decide) (by assumption)
  · refine keepsBut_step keeps_State_bump (by decide) ?_
    exact keepsBut_step keeps_State_hwlSend (by decide) (by assumption)

theorem keeps_State_loseContext {s : State} {i : ℕ} :
    s.keepsBut [.regs, .out, .ctx] (s.loseContext i) := by
  have h0 : State.keepsBut s [.regs, .out, .ctx] s := keepsBut_refl _ _
  unfold State.loseContext
  refine keepsBut_step keeps_State_raiseInt (by decide) ?_
  exact keepsBut_step keeps_State_modCtx (by decide) (by assumption)

theorem keeps_State_firePulseTriggers {s : State} {output : ℕ} :
    s.keepsBut [.cch, .regs, .out] (s.firePulseTriggers output) := by
  have h0 : State.keepsBut s [.cch, .regs, .out] s := keepsBut_refl _ _
  unfold State.firePulseTriggers
  refine keepsBut_foldl ?_ ?_
  · intro u a hu
    try beta_reduce
    · refine keepsBut_step keeps_State_postHeld (by decide) ?_
      exact keepsBut_step keeps_State_bump (by decide) (by assumption)
  · assumption

theorem keeps_State_startProbation {s : State} :
    s.keepsBut [.nor] (s.startProbation) := by
  have h0 : State.keepsBut s [.nor] s := keepsBut_refl _ _
  unfold State.startProbation
  extract_lets +onlyGivenNames x0
  try clear_value x0
  refine keepsBut_ite ?_ ?_
  · exact keepsBut_step keeps_State_writeUpd (by decide) (by assumption)
  · assumption

theorem keeps_State_pulsesFromItems {s : State} :
    s.keepsBut [.tim] (s.pulsesFromItems) := by
  have h0 : State.keepsBut s [.tim] s := keepsBut_refl _ _
  unfold State.pulsesFromItems
  refine keepsBut_foldl ?_ ?_
  · intro u a hu
    try beta_reduce
    · extract_lets +onlyGivenNames x0
      try clear_value x0
      exact keepsBut_step keeps_State_setPulse (by decide) (by assumption)
  · assumption

theorem keeps_State_start15 {s : State} :
    s.keepsBut [.plc, .way, .ful, .lgc, .met, .host, .rst, .limits, .cch, .tim, .bal, .regs, .readings, .boot, .out, .cyc, .upd, .txn,
        .eth, .pwr, .nor, .bil, .val, .hwl, .ing, .rfm, .ctx] (s.start15) := by
  have h0 : State.keepsBut s [.plc, .way, .ful, .lgc, .met, .host, .rst, .limits, .cch, .tim, .bal, .regs, .readings, .boot, .out,
      .cyc, .upd, .txn, .eth, .pwr, .nor, .bil, .val, .hwl, .ing, .rfm, .ctx] s := keepsBut_refl _ _
  unfold State.start15
  extract_lets +onlyGivenNames x0
  try clear_value x0
  extract_lets +onlyGivenNames x1
  try clear_value x1
  extract_lets +onlyGivenNames x2
  have hx2 : State.keepsBut s [.plc, .way, .ful, .lgc, .met, .host, .rst, .limits, .cch, .tim, .bal, .regs, .readings, .boot, .out,
      .cyc, .upd, .txn, .eth, .pwr, .nor, .bil, .val, .hwl, .ing, .rfm, .ctx] x2 := by
    unfold x2
    exact keepsBut_step keeps_with_boot_host (by decide) (by assumption)
  try clear_value x2
  extract_lets +onlyGivenNames x3
  have hx3 : State.keepsBut s [.plc, .way, .ful, .lgc, .met, .host, .rst, .limits, .cch, .tim, .bal, .regs, .readings, .boot, .out,
      .cyc, .upd, .txn, .eth, .pwr, .nor, .bil, .val, .hwl, .ing, .rfm, .ctx] x3 := by
    unfold x3
    refine keepsBut_step keeps_State_pulsesFromItems (by decide) ?_
    refine keepsBut_step keeps_State_startCycles (by decide) ?_
    exact keepsBut_step keeps_State_startTime (by decide) (by assumption)
  try clear_value x3
  extract_lets +onlyGivenNames x4
  try clear_value x4
  extract_lets +onlyGivenNames x5
  try clear_value x5
  extract_lets +onlyGivenNames x6
  try clear_value x6
  extract_lets +onlyGivenNames x7
  try clear_value x7
  extract_lets +onlyGivenNames x8
  try clear_value x8
  extract_lets +onlyGivenNames x9
  try clear_value x9
  extract_lets +onlyGivenNames x10
  have hx10 : State.keepsBut s [.plc, .way, .ful, .lgc, .met, .host, .rst, .limits, .cch, .tim, .bal, .regs, .readings, .boot, .out,
      .cyc, .upd, .txn, .eth, .pwr, .nor, .bil, .val, .hwl, .ing, .rfm, .ctx] x10 := by
    unfold x10
    exact keepsBut_step keeps_with_pwr_rst_upd_lgc_ful_rfm (by decide) (by assumption)
  try clear_value x10
  extract_lets +onlyGivenNames x11
  have hx11 : State.keepsBut s [.plc, .way, .ful, .lgc, .met, .host, .rst, .limits, .cch, .tim, .bal, .regs, .readings, .boot, .out,
      .cyc, .upd, .txn, .eth, .pwr, .nor, .bil, .val, .hwl, .ing, .rfm, .ctx] x11 := by
    unfold x11
    refine keepsBut_step keeps_State_startProbation (by decide) ?_
    refine keepsBut_step keeps_State_startPorts (by decide) ?_
    exact keepsBut_step keeps_State_startFabric (by decide) (by assumption)
  try clear_value x11
  extract_lets +onlyGivenNames x12
  have hx12 : State.keepsBut s [.plc, .way, .ful, .lgc, .met, .host, .rst, .limits, .cch, .tim, .bal, .regs, .readings, .boot, .out,
      .cyc, .upd, .txn, .eth, .pwr, .nor, .bil, .val, .hwl, .ing, .rfm, .ctx] x12 := by
    unfold x12
    refine keepsBut_ite ?_ ?_
    · exact keepsBut_step keeps_State_raiseInt (by decide) (by assumption)
    · assumption
  try clear_value x12
  refine keepsBut_step keeps_State_evaluate (by decide) ?_
  exact keepsBut_step keeps_State_setMode (by decide) (by assumption)

theorem keeps_State_slotFrame {s : State} {x : MeshTx} {i : ℕ} :
    s.keepsBut [.plc, .way, .host, .limits, .cch, .regs, .out, .upd, .txn, .draws, .rfm, .ctx] (s.slotFrame x i) := by
  have h0 : State.keepsBut s [.plc, .way, .host, .limits, .cch, .regs, .out, .upd, .txn, .draws, .rfm, .ctx] s := keepsBut_refl _ _
  unfold State.slotFrame
  refine keepsBut_ite ?_ ?_
  · exact keepsBut_step keeps_State_meshTransmit (by decide) (by assumption)
  · extract_lets +onlyGivenNames x0
    try clear_value x0
    refine keepsBut_step keeps_State_meshTransmit (by decide) ?_
    exact keepsBut_step keeps_State_modRfm (by decide) (by assumption)

theorem keeps_State_remapSector {s : State} {g : LogId} {sector : ℕ} :
    s.keepsBut [.way, .host, .regs, .out] (s.remapSector g sector) := by
  have h0 : State.keepsBut s [.way, .host, .regs, .out] s := keepsBut_refl _ _
  unfold State.remapSector
  extract_lets +onlyGivenNames x0
  try clear_value x0
  extract_lets +onlyGivenNames x1
  try clear_value x1
  refine keepsBut_ite ?_ ?_
  · exact keepsBut_step keeps_State_modLog (by decide) (by assumption)
  · extract_lets +onlyGivenNames x2
    have hx2 : State.keepsBut s [.way, .host, .regs, .out] x2 := by
      unfold x2
      exact keepsBut_step keeps_State_modLog (by decide) (by assumption)
    try clear_value x2
    refine keepsBut_step keeps_State_event (by decide) ?_
    refine keepsBut_step keeps_State_raiseInt (by decide) ?_
    exact keepsBut_step keeps_State_bump (by decide) (by assumption)

theorem keeps_State_programRecord {s : State} {g : LogId} {r : WayRecord} {a3 : List Bool} :
    s.keepsBut [.way, .host, .regs, .out] (s.programRecord g r a3).1 := by
  have h0 : State.keepsBut s [.way, .host, .regs, .out] s := keepsBut_refl _ _
  induction a3 generalizing s with
  | nil =>
    rw [State.programRecord.eq_def]
    simp only
    repeat' split
    all_goals first
      | exact h0
      | exact keeps_State_refuseEvent.weaken (by decide)
      | exact keepsBut_step keeps_State_bump (by decide) (keeps_State_modLog.weaken (by decide))
  | cons b bad ih =>
    have h1 : State.keepsBut s [.way, .host, .regs, .out] ((s.modLog g fun x => { x with slots := x.slots ++ [.torn] }).bump cWayTorn) :=
      keepsBut_step keeps_State_bump (by decide) (keeps_State_modLog.weaken (by decide))
    rw [State.programRecord.eq_def]
    cases b with
    | true =>
      simp only
      repeat' split
      all_goals first
        | exact h0
        | exact keeps_State_refuseEvent.weaken (by decide)
        | exact keepsBut_step (ih (keepsBut_refl _ _)) (by decide) (keepsBut_step keeps_State_remapSector (by decide) h1)
        | exact keepsBut_step (ih (keepsBut_refl _ _)) (by decide) h1
    | false =>
      simp only
      repeat' split
      all_goals first
        | exact h0
        | exact keeps_State_refuseEvent.weaken (by decide)
        | exact keepsBut_step keeps_State_bump (by decide) (keeps_State_modLog.weaken (by decide))

theorem keeps_State_retrain {s : State} {p : ℕ} :
    s.keepsBut [.way, .host, .regs, .out, .hwl] (s.retrain p) := by
  have h0 : State.keepsBut s [.way, .host, .regs, .out, .hwl] s := keepsBut_refl _ _
  unfold State.retrain
  refine keepsBut_step keeps_State_bump (by decide) ?_
  refine keepsBut_step keeps_State_portState (by decide) ?_
  exact keepsBut_step keeps_State_setHport (by decide) (by assumption)

theorem keeps_State_readRecord {s : State} {bad : List ℕ} :
    s.keepsBut [.way, .host, .regs, .out, .nor] (s.readRecord bad) := by
  have h0 : State.keepsBut s [.way, .host, .regs, .out, .nor] s := keepsBut_refl _ _
  unfold State.readRecord
  extract_lets +onlyGivenNames x0
  try clear_value x0
  extract_lets +onlyGivenNames x1
  try clear_value x1
  extract_lets +onlyGivenNames x2
  have hx2 : State.keepsBut s [.way, .host, .regs, .out, .nor] x2 := by
    unfold x2
    exact keepsBut_step keeps_with_nor (by decide) (by assumption)
  try clear_value x2
  refine keepsBut_ite ?_ ?_
  · exact keepsBut_step keeps_State_event (by decide) (by assumption)
  · assumption

theorem keeps_State_programAll {s : State} {a1 : List BufferedEvent} {a2 : List Bool} :
    s.keepsBut [.way, .host, .regs, .out] (s.programAll a1 a2) := by
  induction a1 generalizing s a2 with
  | nil => exact keepsBut_refl _ _
  | cons e rest ih =>
    rw [State.programAll]
    exact keepsBut_step ih (by decide) (keeps_State_programRecord.weaken (by decide))

theorem keeps_State_programBuffer {s : State} {bad : List Bool} :
    s.keepsBut [.way, .host, .regs, .out] (s.programBuffer bad) := by
  have h0 : State.keepsBut s [.way, .host, .regs, .out] s := keepsBut_refl _ _
  unfold State.programBuffer
  refine keepsBut_ite ?_ ?_
  · assumption
  · extract_lets +onlyGivenNames x0
    try clear_value x0
    refine keepsBut_step keeps_State_programAll (by decide) ?_
    exact keepsBut_step keeps_with_way (by decide) (by assumption)

theorem keeps_State_sendHelloAck {s : State} {p : ℕ} {peer : List Byte} :
    s.keepsBut [.regs, .out, .draws] (s.sendHelloAck p peer) := by
  have h0 : State.keepsBut s [.regs, .out, .draws] s := keepsBut_refl _ _
  unfold State.sendHelloAck
  extract_lets +onlyGivenNames x0
  try clear_value x0
  split
  · exact keepsBut_step keeps_State_bump (by decide) (by assumption)
  · exact keepsBut_step keeps_State_sendSetup (by decide) (by assumption)

theorem keeps_State_startFill {s u : State} {i : Nat} (h : s.startFill i = some u) : s.keepsBut [.ing] u := by
  have h0 : State.keepsBut s [.ing] s := keepsBut_refl _ _
  simp only [State.startFill] at h
  split at h
  · cases h
  · split at h
    · cases h
    · cases h
      refine keepsBut_step keeps_with_ing (by decide) ?_
      exact keepsBut_step keeps_State_setCache (by decide) (by exact h0)

theorem keeps_State_contextStage {s : State} {l : ℕ} {x : LaneItem} {badRead : Bool} :
    s.keepsBut [.plc, .way, .ful, .host, .limits, .cch, .bal, .regs, .out, .upd, .txn, .eth, .nor, .val, .hwl, .ing, .rfm, .ctx]
        (s.contextStage l x badRead) := by
  have h0 : State.keepsBut s [.plc, .way, .ful, .host, .limits, .cch, .bal, .regs, .out, .upd, .txn, .eth, .nor, .val, .hwl, .ing,
      .rfm, .ctx] s := keepsBut_refl _ _
  unfold State.contextStage
  extract_lets +onlyGivenNames x0
  have hx0 : State.keepsBut s [.plc, .way, .ful, .host, .limits, .cch, .bal, .regs, .out, .upd, .txn, .eth, .nor, .val, .hwl, .ing,
      .rfm, .ctx] x0.1 := by
    unfold x0
    refine keepsBut_step keeps_State_frameCheck (by decide) ?_
    exact keepsBut_step keeps_State_bump (by decide) (by assumption)
  try clear_value x0
  extract_lets +onlyGivenNames x1
  have hx1 : State.keepsBut s [.plc, .way, .ful, .host, .limits, .cch, .bal, .regs, .out, .upd, .txn, .eth, .nor, .val, .hwl, .ing,
      .rfm, .ctx] x1 := by
    unfold x1
    assumption
  try clear_value x1
  refine keepsBut_ite ?_ ?_
  · assumption
  · split
    · exact keepsBut_step keeps_State_pastContext (by decide) (by assumption)
    · refine keepsBut_ite ?_ ?_
      · refine keepsBut_step keeps_State_pastContext (by decide) ?_
        refine keepsBut_step keeps_State_touchCache (by decide) ?_
        exact keepsBut_step keeps_State_bump (by decide) (by assumption)
      · split
        · rename_i e
          refine keepsBut_step keeps_State_awaitFill (by decide) ?_
          refine keepsBut_step (keeps_State_startFill e) (by decide) ?_
          refine keepsBut_ite ?_ ?_
          · refine keepsBut_step keeps_State_evict (by decide) ?_
            exact keepsBut_step keeps_State_bump (by decide) hx1
          · exact keepsBut_step keeps_State_bump (by decide) hx1
        · assumption

theorem keeps_State_sbReceive {L : List Part} {s0 : State} {s : State} {r : SbReq} {cmd : ℕ} {args : ℕ} {right : Option (ℕ × ℕ)} {run :
    State → State} (sub : ∀ p ∈ [.way, .host, .limits, .regs, .out, .sec, .sb], p ∈ L)
    (hf : ∀ u, s0.keepsBut L u → s0.keepsBut L (run u)) (h0 : s0.keepsBut L s) : s0.keepsBut L (s.sbReceive r cmd args right run) := by
  unfold State.sbReceive
  refine keepsBut_ite ?_ ?_
  · assumption
  · extract_lets +onlyGivenNames x0
    have hx0 : State.keepsBut s0 L x0 := by
      unfold x0
      exact keepsBut_step keeps_State_bump (keepsBut_sub (by decide) sub) (by assumption)
    try clear_value x0
    refine keepsBut_ite ?_ ?_
    · exact keepsBut_step keeps_State_bump (keepsBut_sub (by decide) sub) (by assumption)
    · refine keepsBut_ite ?_ ?_
      · exact keepsBut_step keeps_State_bump (keepsBut_sub (by decide) sub) (by assumption)
      · extract_lets +onlyGivenNames x1
        have hx1 : State.keepsBut s0 L x1 := by
          unfold x1
          exact keepsBut_step keeps_State_bump (keepsBut_sub (by decide) sub) (by assumption)
        try clear_value x1
        split
        · refine keepsBut_step keeps_State_sbSend (keepsBut_sub (by decide) sub) ?_
          exact keepsBut_step keeps_State_bump (keepsBut_sub (by decide) sub) (by assumption)
        · refine keepsBut_ite ?_ ?_
          · assumption
          · refine keepsBut_ite ?_ ?_
            · exact keepsBut_step keeps_State_sbReject (keepsBut_sub (by decide) sub) (by assumption)
            · refine keepsBut_ite ?_ ?_
              · exact keepsBut_step keeps_State_sbReject (keepsBut_sub (by decide) sub) (by assumption)
              · split
                · refine keepsBut_step keeps_State_sbReject (keepsBut_sub (by decide) sub) ?_
                  exact keepsBut_step keeps_State_refuseAccess (keepsBut_sub (by decide) sub) (by assumption)
                · apply hf; assumption

theorem keeps_State_judgePower {s : State} {mw : ℕ} :
    s.keepsBut [.way, .host, .limits, .regs, .out, .pwr] (s.judgePower mw) := by
  have h0 : State.keepsBut s [.way, .host, .limits, .regs, .out, .pwr] s := keepsBut_refl _ _
  unfold State.judgePower
  extract_lets +onlyGivenNames x0
  try clear_value x0
  extract_lets +onlyGivenNames x1
  try clear_value x1
  extract_lets +onlyGivenNames x2
  try clear_value x2
  extract_lets +onlyGivenNames x3
  have hx3 : State.keepsBut s [.way, .host, .limits, .regs, .out, .pwr] x3 := by
    unfold x3
    refine keepsBut_ite ?_ ?_
    · refine keepsBut_step keeps_State_note (by decide) ?_
      exact keepsBut_step keeps_State_raiseInt (by decide) (by assumption)
    · assumption
  try clear_value x3
  exact keepsBut_step keeps_State_modPwr (by decide) (by assumption)

theorem keeps_State_runSchedule {s : State} {k : ℕ} {start : ℕ} {stamp : ℕ} :
    s.keepsBut [.way, .host, .limits, .cch, .regs, .out, .txn, .ctx] (s.runSchedule k start stamp) := by
  have h0 : State.keepsBut s [.way, .host, .limits, .cch, .regs, .out, .txn, .ctx] s := keepsBut_refl _ _
  unfold State.runSchedule
  extract_lets +onlyGivenNames x0
  try clear_value x0
  extract_lets +onlyGivenNames x1
  have hx1 : State.keepsBut s [.way, .host, .limits, .cch, .regs, .out, .txn, .ctx] x1 := by
    unfold x1
    refine keepsBut_foldl ?_ ?_
    · intro u a hu
      try beta_reduce
      · split
        · exact keepsBut_step keeps_State_scheduleRequest (by decide) (by assumption)
        · assumption
    · assumption
  try clear_value x1
  exact keepsBut_step keeps_State_releaseRequests (by decide) (by assumption)

theorem keeps_State_noteReset {s : State} :
    s.keepsBut [.way, .host, .limits, .regs, .out] (s.noteReset) := by
  have h0 : State.keepsBut s [.way, .host, .limits, .regs, .out] s := keepsBut_refl _ _
  unfold State.noteReset
  extract_lets +onlyGivenNames x0
  try clear_value x0
  extract_lets +onlyGivenNames x1
  have hx1 : State.keepsBut s [.way, .host, .limits, .regs, .out] x1 := by
    unfold x1
    refine keepsBut_ite ?_ ?_
    · exact keepsBut_step keeps_with_way (by decide) (by assumption)
    · assumption
  try clear_value x1
  extract_lets +onlyGivenNames x2
  have hx2 : State.keepsBut s [.way, .host, .limits, .regs, .out] x2 := by
    unfold x2
    exact keepsBut_step keeps_State_bump (by decide) (by assumption)
  try clear_value x2
  extract_lets +onlyGivenNames x3
  have hx3 : State.keepsBut s [.way, .host, .limits, .regs, .out] x3 := by
    unfold x3
    refine keepsBut_ite ?_ ?_
    · exact keepsBut_step keeps_State_note (by decide) (by assumption)
    · assumption
  try clear_value x3
  extract_lets +onlyGivenNames x4
  have hx4 : State.keepsBut s [.way, .host, .limits, .regs, .out] x4 := by
    unfold x4
    refine keepsBut_ite ?_ ?_
    · exact keepsBut_step keeps_State_note (by decide) (by assumption)
    · assumption
  try clear_value x4
  extract_lets +onlyGivenNames x5
  have hx5 : State.keepsBut s [.way, .host, .limits, .regs, .out] x5 := by
    unfold x5
    exact keepsBut_step keeps_State_event (by decide) (by assumption)
  try clear_value x5
  refine keepsBut_ite ?_ ?_
  · refine keepsBut_step keeps_State_note (by decide) ?_
    exact keepsBut_step keeps_State_event (by decide) (by assumption)
  · assumption

theorem keeps_State_issueFrom {s : State} {front : List WaitingReport} {a2 : List WaitingReport} :
    s.keepsBut [.way, .host, .limits, .regs, .out, .eth, .hwl, .sb] (s.issueFrom front a2) := by
  induction a2 generalizing s front with
  | nil => exact keeps_State_setWaiting.weaken (by decide)
  | cons w rest ih =>
    rw [State.issueFrom]
    split
    · exact ih
    · split
      · refine keepsBut_step keeps_State_sendReport (by decide) ?_
        exact keeps_State_setWaiting.weaken (by decide)
      · refine keepsBut_step keeps_State_bump (by decide) ?_
        exact keeps_State_setWaiting.weaken (by decide)
      · refine keepsBut_step keeps_State_dropReport (by decide) ?_
        exact keeps_State_setWaiting.weaken (by decide)
      · dsimp only
        refine keepsBut_step ih (by decide) ?_
        refine keepsBut_ite ?_ ?_
        · exact keepsBut_refl _ _
        · exact keeps_State_bump.weaken (by decide)

theorem keeps_State_steer {s : State} :
    s.keepsBut [.way, .host, .limits, .regs, .out, .ing] (s.steer) := by
  have h0 : State.keepsBut s [.way, .host, .limits, .regs, .out, .ing] s := keepsBut_refl _ _
  unfold State.steer
  split
  · assumption
  · split
    · refine keepsBut_ite ?_ ?_
      · assumption
      · extract_lets +onlyGivenNames x0
        have hx0 : State.keepsBut s [.way, .host, .limits, .regs, .out, .ing] x0 := by
          unfold x0
          exact keepsBut_step keeps_State_readFifo (by decide) (by assumption)
        try clear_value x0
        exact keepsBut_step keeps_with_ing (by decide) (by assumption)
    · refine keepsBut_ite ?_ ?_
      · assumption
      · refine keepsBut_step keeps_State_pushLane (by decide) ?_
        exact keepsBut_step keeps_State_readFifo (by decide) (by assumption)
    · refine keepsBut_step keeps_State_note (by decide) ?_
      exact keepsBut_step keeps_State_readFifo (by decide) (by assumption)

theorem keeps_State_readPage {s : State} {b : ℕ} :
    s.keepsBut [.ful, .regs] (s.readPage b) := by
  have h0 : State.keepsBut s [.ful, .regs] s := keepsBut_refl _ _
  unfold State.readPage
  extract_lets +onlyGivenNames x0
  try clear_value x0
  extract_lets +onlyGivenNames x1
  try clear_value x1
  refine keepsBut_step keeps_State_bump (by decide) ?_
  exact keepsBut_step keeps_with_ful (by decide) (by assumption)

theorem keeps_State_feederSnap {s : State} {g : ℕ} {f : FeederRecord} :
    s.keepsBut [.bal] (s.feederSnap g f) := by
  have h0 : State.keepsBut s [.bal] s := keepsBut_refl _ _
  unfold State.feederSnap
  extract_lets +onlyGivenNames x0
  try clear_value x0
  extract_lets +onlyGivenNames x1
  try clear_value x1
  extract_lets +onlyGivenNames x2
  try clear_value x2
  extract_lets +onlyGivenNames x3
  try clear_value x3
  refine keepsBut_ite ?_ ?_
  · assumption
  · extract_lets +onlyGivenNames x4
    try clear_value x4
    refine keepsBut_step keeps_State_setBalGroup (by decide) ?_
    exact keepsBut_step keeps_with_bal (by decide) (by assumption)

theorem keeps_State_reseedGens {s : State} :
    s.keepsBut [.txn] (s.reseedGens) := by
  have h0 : State.keepsBut s [.txn] s := keepsBut_refl _ _
  unfold State.reseedGens
  exact keepsBut_step keeps_with_txn (by decide) (by assumption)

theorem keeps_State_release {s : State} {l : ℕ} {h : ValHeld} :
    s.keepsBut [.way, .ful, .host, .limits, .bal, .regs, .readings, .out, .eth, .nor, .bil, .val, .hwl, .ing, .ctx] (s.release l h) := by
  have h0 : State.keepsBut s [.way, .ful, .host, .limits, .bal, .regs, .readings, .out, .eth, .nor, .bil, .val, .hwl, .ing, .ctx] s :=
      keepsBut_refl _ _
  simp only [State.release]
  have h5 : ∀ (x : FulItem) (v : Val) (w : State), State.keepsBut s [.way, .ful, .host, .limits, .bal, .regs, .readings, .out, .eth,
      .nor, .bil, .val, .hwl, .ing, .ctx] w →
      State.keepsBut s [.way, .ful, .host, .limits, .bal, .regs, .readings, .out, .eth, .nor, .bil, .val, .hwl, .ing, .ctx] ((fun (u :
          State) => { u with val := v }) ((w.toFuller x).modCtx h.item.index fun c => { c with val := h.state })) := by
    intro x v w hw
    refine keepsBut_step keeps_with_val (by decide) ?_
    refine keepsBut_step keeps_State_modCtx (by decide) ?_
    exact keepsBut_step keeps_State_toFuller (by decide) hw
  have h2 : ∀ (u : State) a b c d, State.keepsBut s [.way, .ful, .host, .limits, .bal, .regs, .readings, .out, .eth, .nor, .bil, .val,
      .hwl, .ing, .ctx] u → State.keepsBut s [.way, .ful, .host, .limits, .bal, .regs, .readings, .out, .eth, .nor, .bil, .val, .hwl,
          .ing, .ctx] (u.releaseOne h h.item.record a b c d) :=
    fun u a b c d hu => keepsBut_step keeps_State_releaseOne (by decide) hu
  refine keepsBut_ite ?_ ?_
  · refine keepsBut_step keeps_State_addEntry (by decide) (h5 _ _ _ (h2 _ _ _ _ _ ?_))
    split
    · exact keeps_State_releaseOne.weaken (by decide)
    · exact h0
  · refine h5 _ _ _ (h2 _ _ _ _ _ ?_)
    split
    · exact keeps_State_releaseOne.weaken (by decide)
    · exact h0

theorem keeps_State_balFeeder {s : State} {f : FeederRecord} {sender : Option ℕ} :
    s.keepsBut [.bal] (s.balFeeder f sender) := by
  have h0 : State.keepsBut s [.bal] s := keepsBut_refl _ _
  unfold State.balFeeder
  refine keepsBut_foldl ?_ ?_
  · intro u a hu
    try beta_reduce
    · refine keepsBut_ite ?_ ?_
      · exact keepsBut_step keeps_State_feederSnap (by decide) (by assumption)
      · exact keepsBut_step keeps_State_feederClose (by decide) (by assumption)
  · assumption

theorem keeps_State_advance {s : State} {t : ℕ} :
    s.keepsBut [.now] (s.advance t) := by
  have h0 : State.keepsBut s [.now] s := keepsBut_refl _ _
  unfold State.advance
  exact keepsBut_step keeps_with_now (by decide) (by assumption)

theorem keeps_State_campStatus {s : State} {c : ℕ} {g : Gmn} {st : CampStatus} :
    s.keepsBut [.way, .host, .limits, .regs, .out, .upd] (s.campStatus c g st) := by
  have h0 : State.keepsBut s [.way, .host, .limits, .regs, .out, .upd] s := keepsBut_refl _ _
  unfold State.campStatus
  split
  · assumption
  · refine keepsBut_ite ?_ ?_
    · assumption
    · extract_lets +onlyGivenNames x0
      try clear_value x0
      extract_lets +onlyGivenNames x1
      have hx1 : State.keepsBut s [.way, .host, .limits, .regs, .out, .upd] x1 := by
        unfold x1
        exact keepsBut_step keeps_State_setCamp (by decide) (by assumption)
      try clear_value x1
      refine keepsBut_ite ?_ ?_
      · exact keepsBut_step keeps_State_bump (by decide) (by assumption)
      · refine keepsBut_ite ?_ ?_
        · exact keepsBut_step keeps_State_meterFailed (by decide) (by assumption)
        · assumption

theorem keeps_State_takeStatus {s : State} {g : Gmn} {status : Option CampStatus} :
    s.keepsBut [.way, .host, .limits, .regs, .out, .upd] (s.takeStatus g status) := by
  have h0 : State.keepsBut s [.way, .host, .limits, .regs, .out, .upd] s := keepsBut_refl _ _
  unfold State.takeStatus
  split
  · assumption
  · refine keepsBut_foldl ?_ ?_
    · intro u a hu
      try beta_reduce
      · exact keepsBut_step keeps_State_campStatus (by decide) (by assumption)
    · assumption

theorem keeps_State_announcedUtc {s : State} {a : PtpAnnounce} :
    s.keepsBut [.way, .host, .tim, .regs, .out] (s.announcedUtc a) := by
  have h0 : State.keepsBut s [.way, .host, .tim, .regs, .out] s := keepsBut_refl _ _
  unfold State.announcedUtc
  refine keepsBut_ite ?_ ?_
  · assumption
  · refine keepsBut_ite ?_ ?_
    · exact keepsBut_step keeps_State_modTim (by decide) (by assumption)
    · extract_lets +onlyGivenNames x0
      have hx0 : State.keepsBut s [.way, .host, .tim, .regs, .out] x0 := by
        unfold x0
        exact keepsBut_step keeps_State_modTim (by decide) (by assumption)
      try clear_value x0
      refine keepsBut_ite ?_ ?_
      · assumption
      · refine keepsBut_step keeps_State_event (by decide) ?_
        exact keepsBut_step keeps_State_modTim (by decide) (by assumption)

theorem keeps_State_selectMaster {s : State} :
    s.keepsBut [.tim] (s.selectMaster) := by
  have h0 : State.keepsBut s [.tim] s := keepsBut_refl _ _
  unfold State.selectMaster
  extract_lets +onlyGivenNames x0
  try clear_value x0
  refine keepsBut_ite ?_ ?_
  · assumption
  · refine keepsBut_ite ?_ ?_
    · exact keepsBut_step keeps_State_modTim (by decide) (by assumption)
    · exact keepsBut_step keeps_State_modTim (by decide) (by assumption)

theorem keeps_State_saveInGasp {s : State} :
    s.keepsBut [.way, .host, .regs, .out, .nor] (s.saveInGasp) := by
  have h0 : State.keepsBut s [.way, .host, .regs, .out, .nor] s := keepsBut_refl _ _
  unfold State.saveInGasp
  extract_lets +onlyGivenNames x0
  have hx0 : State.keepsBut s [.way, .host, .regs, .out, .nor] x0 := by
    unfold x0
    refine keepsBut_step keeps_State_saveLost (by decide) ?_
    exact keepsBut_step keeps_State_programBuffer (by decide) (by assumption)
  try clear_value x0
  extract_lets +onlyGivenNames x1
  try clear_value x1
  extract_lets +onlyGivenNames x2
  have hx2 : State.keepsBut s [.way, .host, .regs, .out, .nor] x2 := by
    unfold x2
    exact keepsBut_step keeps_with_way (by decide) (by assumption)
  try clear_value x2
  refine keepsBut_ite ?_ ?_
  · assumption
  · exact keepsBut_step keeps_with_nor (by decide) (by assumption)

end Sys2Proof.Machine
end

