-- ==== Sys2Proof/Laws/State.lean ====
section
/-!
SUPPORT. Each simple update of the state, seen through each part: one lemma per part and update, true by computation.
-/

namespace Sys2Proof.Machine

/-! ### `advance` -/

@[simp] theorem State.advance_pending (s : State) (t : Nat) : (s.advance t).pending = s.pending := rfl
@[simp] theorem State.advance_now (s : State) (t : Nat) : (s.advance t).now = max s.now t := rfl
@[simp] theorem State.advance_draws (s : State) (t : Nat) : (s.advance t).draws = s.draws := rfl
@[simp] theorem State.advance_regs (s : State) (t : Nat) : (s.advance t).regs = s.regs := rfl
@[simp] theorem State.advance_latches (s : State) (t : Nat) : (s.advance t).latches = s.latches := rfl
@[simp] theorem State.advance_cfg (s : State) (t : Nat) : (s.advance t).cfg = s.cfg := rfl
@[simp] theorem State.advance_limits (s : State) (t : Nat) : (s.advance t).limits = s.limits := rfl
@[simp] theorem State.advance_out (s : State) (t : Nat) : (s.advance t).out = s.out := rfl
@[simp] theorem State.advance_boot (s : State) (t : Nat) : (s.advance t).boot = s.boot := rfl
@[simp] theorem State.advance_nor (s : State) (t : Nat) : (s.advance t).nor = s.nor := rfl
@[simp] theorem State.advance_sec (s : State) (t : Nat) : (s.advance t).sec = s.sec := rfl
@[simp] theorem State.advance_way (s : State) (t : Nat) : (s.advance t).way = s.way := rfl
@[simp] theorem State.advance_pwr (s : State) (t : Nat) : (s.advance t).pwr = s.pwr := rfl
@[simp] theorem State.advance_rst (s : State) (t : Nat) : (s.advance t).rst = s.rst := rfl
@[simp] theorem State.advance_pins (s : State) (t : Nat) : (s.advance t).pins = s.pins := rfl
@[simp] theorem State.advance_host (s : State) (t : Nat) : (s.advance t).host = s.host := rfl
@[simp] theorem State.advance_eth (s : State) (t : Nat) : (s.advance t).eth = s.eth := rfl
@[simp] theorem State.advance_sb (s : State) (t : Nat) : (s.advance t).sb = s.sb := rfl
@[simp] theorem State.advance_cch (s : State) (t : Nat) : (s.advance t).cch = s.cch := rfl
@[simp] theorem State.advance_txn (s : State) (t : Nat) : (s.advance t).txn = s.txn := rfl
@[simp] theorem State.advance_upd (s : State) (t : Nat) : (s.advance t).upd = s.upd := rfl
@[simp] theorem State.advance_cyc (s : State) (t : Nat) : (s.advance t).cyc = s.cyc := rfl
@[simp] theorem State.advance_tim (s : State) (t : Nat) : (s.advance t).tim = s.tim := rfl
@[simp] theorem State.advance_ctx (s : State) (t : Nat) : (s.advance t).ctx = s.ctx := rfl
@[simp] theorem State.advance_ing (s : State) (t : Nat) : (s.advance t).ing = s.ing := rfl
@[simp] theorem State.advance_val (s : State) (t : Nat) : (s.advance t).val = s.val := rfl
@[simp] theorem State.advance_hwl (s : State) (t : Nat) : (s.advance t).hwl = s.hwl := rfl
@[simp] theorem State.advance_bil (s : State) (t : Nat) : (s.advance t).bil = s.bil := rfl
@[simp] theorem State.advance_lgc (s : State) (t : Nat) : (s.advance t).lgc = s.lgc := rfl
@[simp] theorem State.advance_met (s : State) (t : Nat) : (s.advance t).met = s.met := rfl
@[simp] theorem State.advance_bal (s : State) (t : Nat) : (s.advance t).bal = s.bal := rfl
@[simp] theorem State.advance_ful (s : State) (t : Nat) : (s.advance t).ful = s.ful := rfl
@[simp] theorem State.advance_readings (s : State) (t : Nat) : (s.advance t).readings = s.readings := rfl
@[simp] theorem State.advance_plc (s : State) (t : Nat) : (s.advance t).plc = s.plc := rfl
@[simp] theorem State.advance_rfm (s : State) (t : Nat) : (s.advance t).rfm = s.rfm := rfl
@[simp] theorem State.advance_mem (s : State) (t : Nat) : (s.advance t).mem = s.mem := rfl

/-! ### `drawn` -/

@[simp] theorem State.drawn_pending (s : State) : (s.drawn).pending = s.pending := rfl
@[simp] theorem State.drawn_now (s : State) : (s.drawn).now = s.now := rfl
@[simp] theorem State.drawn_draws (s : State) : (s.drawn).draws = s.draws + 1 := rfl
@[simp] theorem State.drawn_regs (s : State) : (s.drawn).regs = s.regs := rfl
@[simp] theorem State.drawn_latches (s : State) : (s.drawn).latches = s.latches := rfl
@[simp] theorem State.drawn_cfg (s : State) : (s.drawn).cfg = s.cfg := rfl
@[simp] theorem State.drawn_limits (s : State) : (s.drawn).limits = s.limits := rfl
@[simp] theorem State.drawn_out (s : State) : (s.drawn).out = s.out := rfl
@[simp] theorem State.drawn_boot (s : State) : (s.drawn).boot = s.boot := rfl
@[simp] theorem State.drawn_nor (s : State) : (s.drawn).nor = s.nor := rfl
@[simp] theorem State.drawn_sec (s : State) : (s.drawn).sec = s.sec := rfl
@[simp] theorem State.drawn_way (s : State) : (s.drawn).way = s.way := rfl
@[simp] theorem State.drawn_pwr (s : State) : (s.drawn).pwr = s.pwr := rfl
@[simp] theorem State.drawn_rst (s : State) : (s.drawn).rst = s.rst := rfl
@[simp] theorem State.drawn_pins (s : State) : (s.drawn).pins = s.pins := rfl
@[simp] theorem State.drawn_host (s : State) : (s.drawn).host = s.host := rfl
@[simp] theorem State.drawn_eth (s : State) : (s.drawn).eth = s.eth := rfl
@[simp] theorem State.drawn_sb (s : State) : (s.drawn).sb = s.sb := rfl
@[simp] theorem State.drawn_cch (s : State) : (s.drawn).cch = s.cch := rfl
@[simp] theorem State.drawn_txn (s : State) : (s.drawn).txn = s.txn := rfl
@[simp] theorem State.drawn_upd (s : State) : (s.drawn).upd = s.upd := rfl
@[simp] theorem State.drawn_cyc (s : State) : (s.drawn).cyc = s.cyc := rfl
@[simp] theorem State.drawn_tim (s : State) : (s.drawn).tim = s.tim := rfl
@[simp] theorem State.drawn_ctx (s : State) : (s.drawn).ctx = s.ctx := rfl
@[simp] theorem State.drawn_ing (s : State) : (s.drawn).ing = s.ing := rfl
@[simp] theorem State.drawn_val (s : State) : (s.drawn).val = s.val := rfl
@[simp] theorem State.drawn_hwl (s : State) : (s.drawn).hwl = s.hwl := rfl
@[simp] theorem State.drawn_bil (s : State) : (s.drawn).bil = s.bil := rfl
@[simp] theorem State.drawn_lgc (s : State) : (s.drawn).lgc = s.lgc := rfl
@[simp] theorem State.drawn_met (s : State) : (s.drawn).met = s.met := rfl
@[simp] theorem State.drawn_bal (s : State) : (s.drawn).bal = s.bal := rfl
@[simp] theorem State.drawn_ful (s : State) : (s.drawn).ful = s.ful := rfl
@[simp] theorem State.drawn_readings (s : State) : (s.drawn).readings = s.readings := rfl
@[simp] theorem State.drawn_plc (s : State) : (s.drawn).plc = s.plc := rfl
@[simp] theorem State.drawn_rfm (s : State) : (s.drawn).rfm = s.rfm := rfl
@[simp] theorem State.drawn_mem (s : State) : (s.drawn).mem = s.mem := rfl

/-! ### `setReg` -/

@[simp] theorem State.setReg_pending (s : State) (a : Nat) (v : Word) : (s.setReg a v).pending = s.pending := rfl
@[simp] theorem State.setReg_now (s : State) (a : Nat) (v : Word) : (s.setReg a v).now = s.now := rfl
@[simp] theorem State.setReg_draws (s : State) (a : Nat) (v : Word) : (s.setReg a v).draws = s.draws := rfl
@[simp] theorem State.setReg_regs (s : State) (a : Nat) (v : Word) : (s.setReg a v).regs = Table.set 0 s.regs a v := rfl
@[simp] theorem State.setReg_latches (s : State) (a : Nat) (v : Word) : (s.setReg a v).latches = s.latches := rfl
@[simp] theorem State.setReg_cfg (s : State) (a : Nat) (v : Word) : (s.setReg a v).cfg = s.cfg := rfl
@[simp] theorem State.setReg_limits (s : State) (a : Nat) (v : Word) : (s.setReg a v).limits = s.limits := rfl
@[simp] theorem State.setReg_out (s : State) (a : Nat) (v : Word) : (s.setReg a v).out = s.out := rfl
@[simp] theorem State.setReg_boot (s : State) (a : Nat) (v : Word) : (s.setReg a v).boot = s.boot := rfl
@[simp] theorem State.setReg_nor (s : State) (a : Nat) (v : Word) : (s.setReg a v).nor = s.nor := rfl
@[simp] theorem State.setReg_sec (s : State) (a : Nat) (v : Word) : (s.setReg a v).sec = s.sec := rfl
@[simp] theorem State.setReg_way (s : State) (a : Nat) (v : Word) : (s.setReg a v).way = s.way := rfl
@[simp] theorem State.setReg_pwr (s : State) (a : Nat) (v : Word) : (s.setReg a v).pwr = s.pwr := rfl
@[simp] theorem State.setReg_rst (s : State) (a : Nat) (v : Word) : (s.setReg a v).rst = s.rst := rfl
@[simp] theorem State.setReg_pins (s : State) (a : Nat) (v : Word) : (s.setReg a v).pins = s.pins := rfl
@[simp] theorem State.setReg_host (s : State) (a : Nat) (v : Word) : (s.setReg a v).host = s.host := rfl
@[simp] theorem State.setReg_eth (s : State) (a : Nat) (v : Word) : (s.setReg a v).eth = s.eth := rfl
@[simp] theorem State.setReg_sb (s : State) (a : Nat) (v : Word) : (s.setReg a v).sb = s.sb := rfl
@[simp] theorem State.setReg_cch (s : State) (a : Nat) (v : Word) : (s.setReg a v).cch = s.cch := rfl
@[simp] theorem State.setReg_txn (s : State) (a : Nat) (v : Word) : (s.setReg a v).txn = s.txn := rfl
@[simp] theorem State.setReg_upd (s : State) (a : Nat) (v : Word) : (s.setReg a v).upd = s.upd := rfl
@[simp] theorem State.setReg_cyc (s : State) (a : Nat) (v : Word) : (s.setReg a v).cyc = s.cyc := rfl
@[simp] theorem State.setReg_tim (s : State) (a : Nat) (v : Word) : (s.setReg a v).tim = s.tim := rfl
@[simp] theorem State.setReg_ctx (s : State) (a : Nat) (v : Word) : (s.setReg a v).ctx = s.ctx := rfl
@[simp] theorem State.setReg_ing (s : State) (a : Nat) (v : Word) : (s.setReg a v).ing = s.ing := rfl
@[simp] theorem State.setReg_val (s : State) (a : Nat) (v : Word) : (s.setReg a v).val = s.val := rfl
@[simp] theorem State.setReg_hwl (s : State) (a : Nat) (v : Word) : (s.setReg a v).hwl = s.hwl := rfl
@[simp] theorem State.setReg_bil (s : State) (a : Nat) (v : Word) : (s.setReg a v).bil = s.bil := rfl
@[simp] theorem State.setReg_lgc (s : State) (a : Nat) (v : Word) : (s.setReg a v).lgc = s.lgc := rfl
@[simp] theorem State.setReg_met (s : State) (a : Nat) (v : Word) : (s.setReg a v).met = s.met := rfl
@[simp] theorem State.setReg_bal (s : State) (a : Nat) (v : Word) : (s.setReg a v).bal = s.bal := rfl
@[simp] theorem State.setReg_ful (s : State) (a : Nat) (v : Word) : (s.setReg a v).ful = s.ful := rfl
@[simp] theorem State.setReg_readings (s : State) (a : Nat) (v : Word) : (s.setReg a v).readings = s.readings := rfl
@[simp] theorem State.setReg_plc (s : State) (a : Nat) (v : Word) : (s.setReg a v).plc = s.plc := rfl
@[simp] theorem State.setReg_rfm (s : State) (a : Nat) (v : Word) : (s.setReg a v).rfm = s.rfm := rfl
@[simp] theorem State.setReg_mem (s : State) (a : Nat) (v : Word) : (s.setReg a v).mem = s.mem := rfl

/-! ### `emit` -/

@[simp] theorem State.emit_pending (s : State) (e : Emission) : (s.emit e).pending = s.pending := rfl
@[simp] theorem State.emit_now (s : State) (e : Emission) : (s.emit e).now = s.now := rfl
@[simp] theorem State.emit_draws (s : State) (e : Emission) : (s.emit e).draws = s.draws := rfl
@[simp] theorem State.emit_regs (s : State) (e : Emission) : (s.emit e).regs = s.regs := rfl
@[simp] theorem State.emit_latches (s : State) (e : Emission) : (s.emit e).latches = s.latches := rfl
@[simp] theorem State.emit_cfg (s : State) (e : Emission) : (s.emit e).cfg = s.cfg := rfl
@[simp] theorem State.emit_limits (s : State) (e : Emission) : (s.emit e).limits = s.limits := rfl
@[simp] theorem State.emit_out (s : State) (e : Emission) : (s.emit e).out = e :: s.out := rfl
@[simp] theorem State.emit_boot (s : State) (e : Emission) : (s.emit e).boot = s.boot := rfl
@[simp] theorem State.emit_nor (s : State) (e : Emission) : (s.emit e).nor = s.nor := rfl
@[simp] theorem State.emit_sec (s : State) (e : Emission) : (s.emit e).sec = s.sec := rfl
@[simp] theorem State.emit_way (s : State) (e : Emission) : (s.emit e).way = s.way := rfl
@[simp] theorem State.emit_pwr (s : State) (e : Emission) : (s.emit e).pwr = s.pwr := rfl
@[simp] theorem State.emit_rst (s : State) (e : Emission) : (s.emit e).rst = s.rst := rfl
@[simp] theorem State.emit_pins (s : State) (e : Emission) : (s.emit e).pins = s.pins := rfl
@[simp] theorem State.emit_host (s : State) (e : Emission) : (s.emit e).host = s.host := rfl
@[simp] theorem State.emit_eth (s : State) (e : Emission) : (s.emit e).eth = s.eth := rfl
@[simp] theorem State.emit_sb (s : State) (e : Emission) : (s.emit e).sb = s.sb := rfl
@[simp] theorem State.emit_cch (s : State) (e : Emission) : (s.emit e).cch = s.cch := rfl
@[simp] theorem State.emit_txn (s : State) (e : Emission) : (s.emit e).txn = s.txn := rfl
@[simp] theorem State.emit_upd (s : State) (e : Emission) : (s.emit e).upd = s.upd := rfl
@[simp] theorem State.emit_cyc (s : State) (e : Emission) : (s.emit e).cyc = s.cyc := rfl
@[simp] theorem State.emit_tim (s : State) (e : Emission) : (s.emit e).tim = s.tim := rfl
@[simp] theorem State.emit_ctx (s : State) (e : Emission) : (s.emit e).ctx = s.ctx := rfl
@[simp] theorem State.emit_ing (s : State) (e : Emission) : (s.emit e).ing = s.ing := rfl
@[simp] theorem State.emit_val (s : State) (e : Emission) : (s.emit e).val = s.val := rfl
@[simp] theorem State.emit_hwl (s : State) (e : Emission) : (s.emit e).hwl = s.hwl := rfl
@[simp] theorem State.emit_bil (s : State) (e : Emission) : (s.emit e).bil = s.bil := rfl
@[simp] theorem State.emit_lgc (s : State) (e : Emission) : (s.emit e).lgc = s.lgc := rfl
@[simp] theorem State.emit_met (s : State) (e : Emission) : (s.emit e).met = s.met := rfl
@[simp] theorem State.emit_bal (s : State) (e : Emission) : (s.emit e).bal = s.bal := rfl
@[simp] theorem State.emit_ful (s : State) (e : Emission) : (s.emit e).ful = s.ful := rfl
@[simp] theorem State.emit_readings (s : State) (e : Emission) : (s.emit e).readings = s.readings := rfl
@[simp] theorem State.emit_plc (s : State) (e : Emission) : (s.emit e).plc = s.plc := rfl
@[simp] theorem State.emit_rfm (s : State) (e : Emission) : (s.emit e).rfm = s.rfm := rfl
@[simp] theorem State.emit_mem (s : State) (e : Emission) : (s.emit e).mem = s.mem := rfl

/-! ### `enqueue` -/

@[simp] theorem State.enqueue_pending (s : State) (d : ReportDest) (r : Report) : (s.enqueue d r).pending = s.pending := rfl
@[simp] theorem State.enqueue_now (s : State) (d : ReportDest) (r : Report) : (s.enqueue d r).now = s.now := rfl
@[simp] theorem State.enqueue_draws (s : State) (d : ReportDest) (r : Report) : (s.enqueue d r).draws = s.draws := rfl
@[simp] theorem State.enqueue_regs (s : State) (d : ReportDest) (r : Report) : (s.enqueue d r).regs = s.regs := rfl
@[simp] theorem State.enqueue_latches (s : State) (d : ReportDest) (r : Report) : (s.enqueue d r).latches = s.latches := rfl
@[simp] theorem State.enqueue_cfg (s : State) (d : ReportDest) (r : Report) : (s.enqueue d r).cfg = s.cfg := rfl
@[simp] theorem State.enqueue_limits (s : State) (d : ReportDest) (r : Report) : (s.enqueue d r).limits = s.limits := rfl
@[simp] theorem State.enqueue_out (s : State) (d : ReportDest) (r : Report) : (s.enqueue d r).out = s.out := rfl
@[simp] theorem State.enqueue_boot (s : State) (d : ReportDest) (r : Report) : (s.enqueue d r).boot = s.boot := rfl
@[simp] theorem State.enqueue_nor (s : State) (d : ReportDest) (r : Report) : (s.enqueue d r).nor = s.nor := rfl
@[simp] theorem State.enqueue_sec (s : State) (d : ReportDest) (r : Report) : (s.enqueue d r).sec = s.sec := rfl
@[simp] theorem State.enqueue_way (s : State) (d : ReportDest) (r : Report) : (s.enqueue d r).way = s.way := rfl
@[simp] theorem State.enqueue_pwr (s : State) (d : ReportDest) (r : Report) : (s.enqueue d r).pwr = s.pwr := rfl
@[simp] theorem State.enqueue_rst (s : State) (d : ReportDest) (r : Report) : (s.enqueue d r).rst = s.rst := rfl
@[simp] theorem State.enqueue_pins (s : State) (d : ReportDest) (r : Report) : (s.enqueue d r).pins = s.pins := rfl
@[simp] theorem State.enqueue_host (s : State) (d : ReportDest) (r : Report) : (s.enqueue d r).host =
    { s.host with waiting := s.host.waiting ++ [⟨d, r, s.now, false⟩] } := rfl
@[simp] theorem State.enqueue_eth (s : State) (d : ReportDest) (r : Report) : (s.enqueue d r).eth = s.eth := rfl
@[simp] theorem State.enqueue_sb (s : State) (d : ReportDest) (r : Report) : (s.enqueue d r).sb = s.sb := rfl
@[simp] theorem State.enqueue_cch (s : State) (d : ReportDest) (r : Report) : (s.enqueue d r).cch = s.cch := rfl
@[simp] theorem State.enqueue_txn (s : State) (d : ReportDest) (r : Report) : (s.enqueue d r).txn = s.txn := rfl
@[simp] theorem State.enqueue_upd (s : State) (d : ReportDest) (r : Report) : (s.enqueue d r).upd = s.upd := rfl
@[simp] theorem State.enqueue_cyc (s : State) (d : ReportDest) (r : Report) : (s.enqueue d r).cyc = s.cyc := rfl
@[simp] theorem State.enqueue_tim (s : State) (d : ReportDest) (r : Report) : (s.enqueue d r).tim = s.tim := rfl
@[simp] theorem State.enqueue_ctx (s : State) (d : ReportDest) (r : Report) : (s.enqueue d r).ctx = s.ctx := rfl
@[simp] theorem State.enqueue_ing (s : State) (d : ReportDest) (r : Report) : (s.enqueue d r).ing = s.ing := rfl
@[simp] theorem State.enqueue_val (s : State) (d : ReportDest) (r : Report) : (s.enqueue d r).val = s.val := rfl
@[simp] theorem State.enqueue_hwl (s : State) (d : ReportDest) (r : Report) : (s.enqueue d r).hwl = s.hwl := rfl
@[simp] theorem State.enqueue_bil (s : State) (d : ReportDest) (r : Report) : (s.enqueue d r).bil = s.bil := rfl
@[simp] theorem State.enqueue_lgc (s : State) (d : ReportDest) (r : Report) : (s.enqueue d r).lgc = s.lgc := rfl
@[simp] theorem State.enqueue_met (s : State) (d : ReportDest) (r : Report) : (s.enqueue d r).met = s.met := rfl
@[simp] theorem State.enqueue_bal (s : State) (d : ReportDest) (r : Report) : (s.enqueue d r).bal = s.bal := rfl
@[simp] theorem State.enqueue_ful (s : State) (d : ReportDest) (r : Report) : (s.enqueue d r).ful = s.ful := rfl
@[simp] theorem State.enqueue_readings (s : State) (d : ReportDest) (r : Report) : (s.enqueue d r).readings = s.readings := rfl
@[simp] theorem State.enqueue_plc (s : State) (d : ReportDest) (r : Report) : (s.enqueue d r).plc = s.plc := rfl
@[simp] theorem State.enqueue_rfm (s : State) (d : ReportDest) (r : Report) : (s.enqueue d r).rfm = s.rfm := rfl
@[simp] theorem State.enqueue_mem (s : State) (d : ReportDest) (r : Report) : (s.enqueue d r).mem = s.mem := rfl

/-! ### `buffer` -/

@[simp] theorem State.buffer_pending (s : State) (e : BufferedEvent) : (s.buffer e).pending = s.pending := rfl
@[simp] theorem State.buffer_now (s : State) (e : BufferedEvent) : (s.buffer e).now = s.now := rfl
@[simp] theorem State.buffer_draws (s : State) (e : BufferedEvent) : (s.buffer e).draws = s.draws := rfl
@[simp] theorem State.buffer_regs (s : State) (e : BufferedEvent) : (s.buffer e).regs = s.regs := rfl
@[simp] theorem State.buffer_latches (s : State) (e : BufferedEvent) : (s.buffer e).latches = s.latches := rfl
@[simp] theorem State.buffer_cfg (s : State) (e : BufferedEvent) : (s.buffer e).cfg = s.cfg := rfl
@[simp] theorem State.buffer_limits (s : State) (e : BufferedEvent) : (s.buffer e).limits = s.limits := rfl
@[simp] theorem State.buffer_out (s : State) (e : BufferedEvent) : (s.buffer e).out = s.out := rfl
@[simp] theorem State.buffer_boot (s : State) (e : BufferedEvent) : (s.buffer e).boot = s.boot := rfl
@[simp] theorem State.buffer_nor (s : State) (e : BufferedEvent) : (s.buffer e).nor = s.nor := rfl
@[simp] theorem State.buffer_sec (s : State) (e : BufferedEvent) : (s.buffer e).sec = s.sec := rfl
@[simp] theorem State.buffer_way (s : State) (e : BufferedEvent) : (s.buffer e).way = { s.way with buffer := s.way.buffer ++ [e] } := rfl
@[simp] theorem State.buffer_pwr (s : State) (e : BufferedEvent) : (s.buffer e).pwr = s.pwr := rfl
@[simp] theorem State.buffer_rst (s : State) (e : BufferedEvent) : (s.buffer e).rst = s.rst := rfl
@[simp] theorem State.buffer_pins (s : State) (e : BufferedEvent) : (s.buffer e).pins = s.pins := rfl
@[simp] theorem State.buffer_host (s : State) (e : BufferedEvent) : (s.buffer e).host = s.host := rfl
@[simp] theorem State.buffer_eth (s : State) (e : BufferedEvent) : (s.buffer e).eth = s.eth := rfl
@[simp] theorem State.buffer_sb (s : State) (e : BufferedEvent) : (s.buffer e).sb = s.sb := rfl
@[simp] theorem State.buffer_cch (s : State) (e : BufferedEvent) : (s.buffer e).cch = s.cch := rfl
@[simp] theorem State.buffer_txn (s : State) (e : BufferedEvent) : (s.buffer e).txn = s.txn := rfl
@[simp] theorem State.buffer_upd (s : State) (e : BufferedEvent) : (s.buffer e).upd = s.upd := rfl
@[simp] theorem State.buffer_cyc (s : State) (e : BufferedEvent) : (s.buffer e).cyc = s.cyc := rfl
@[simp] theorem State.buffer_tim (s : State) (e : BufferedEvent) : (s.buffer e).tim = s.tim := rfl
@[simp] theorem State.buffer_ctx (s : State) (e : BufferedEvent) : (s.buffer e).ctx = s.ctx := rfl
@[simp] theorem State.buffer_ing (s : State) (e : BufferedEvent) : (s.buffer e).ing = s.ing := rfl
@[simp] theorem State.buffer_val (s : State) (e : BufferedEvent) : (s.buffer e).val = s.val := rfl
@[simp] theorem State.buffer_hwl (s : State) (e : BufferedEvent) : (s.buffer e).hwl = s.hwl := rfl
@[simp] theorem State.buffer_bil (s : State) (e : BufferedEvent) : (s.buffer e).bil = s.bil := rfl
@[simp] theorem State.buffer_lgc (s : State) (e : BufferedEvent) : (s.buffer e).lgc = s.lgc := rfl
@[simp] theorem State.buffer_met (s : State) (e : BufferedEvent) : (s.buffer e).met = s.met := rfl
@[simp] theorem State.buffer_bal (s : State) (e : BufferedEvent) : (s.buffer e).bal = s.bal := rfl
@[simp] theorem State.buffer_ful (s : State) (e : BufferedEvent) : (s.buffer e).ful = s.ful := rfl
@[simp] theorem State.buffer_readings (s : State) (e : BufferedEvent) : (s.buffer e).readings = s.readings := rfl
@[simp] theorem State.buffer_plc (s : State) (e : BufferedEvent) : (s.buffer e).plc = s.plc := rfl
@[simp] theorem State.buffer_rfm (s : State) (e : BufferedEvent) : (s.buffer e).rfm = s.rfm := rfl
@[simp] theorem State.buffer_mem (s : State) (e : BufferedEvent) : (s.buffer e).mem = s.mem := rfl

/-! ### `openJob` -/

@[simp] theorem State.openJob_pending (s : State) (j : JobRef) (code : Nat) : (s.openJob j code).pending = s.pending := rfl
@[simp] theorem State.openJob_now (s : State) (j : JobRef) (code : Nat) : (s.openJob j code).now = s.now := rfl
@[simp] theorem State.openJob_draws (s : State) (j : JobRef) (code : Nat) : (s.openJob j code).draws = s.draws := rfl
@[simp] theorem State.openJob_regs (s : State) (j : JobRef) (code : Nat) : (s.openJob j code).regs = s.regs := rfl
@[simp] theorem State.openJob_latches (s : State) (j : JobRef) (code : Nat) : (s.openJob j code).latches = s.latches := rfl
@[simp] theorem State.openJob_cfg (s : State) (j : JobRef) (code : Nat) : (s.openJob j code).cfg = s.cfg := rfl
@[simp] theorem State.openJob_limits (s : State) (j : JobRef) (code : Nat) : (s.openJob j code).limits = s.limits := rfl
@[simp] theorem State.openJob_out (s : State) (j : JobRef) (code : Nat) : (s.openJob j code).out = s.out := rfl
@[simp] theorem State.openJob_boot (s : State) (j : JobRef) (code : Nat) : (s.openJob j code).boot = s.boot := rfl
@[simp] theorem State.openJob_nor (s : State) (j : JobRef) (code : Nat) : (s.openJob j code).nor = s.nor := rfl
@[simp] theorem State.openJob_sec (s : State) (j : JobRef) (code : Nat) : (s.openJob j code).sec = s.sec := rfl
@[simp] theorem State.openJob_way (s : State) (j : JobRef) (code : Nat) : (s.openJob j code).way = s.way := rfl
@[simp] theorem State.openJob_pwr (s : State) (j : JobRef) (code : Nat) : (s.openJob j code).pwr = s.pwr := rfl
@[simp] theorem State.openJob_rst (s : State) (j : JobRef) (code : Nat) : (s.openJob j code).rst = s.rst := rfl
@[simp] theorem State.openJob_pins (s : State) (j : JobRef) (code : Nat) : (s.openJob j code).pins = s.pins := rfl
@[simp] theorem State.openJob_host (s : State) (j : JobRef) (code : Nat) : (s.openJob j code).host =
    { s.host with jobs := s.host.jobs ++ [⟨j, code, none⟩] } := rfl
@[simp] theorem State.openJob_eth (s : State) (j : JobRef) (code : Nat) : (s.openJob j code).eth = s.eth := rfl
@[simp] theorem State.openJob_sb (s : State) (j : JobRef) (code : Nat) : (s.openJob j code).sb = s.sb := rfl
@[simp] theorem State.openJob_cch (s : State) (j : JobRef) (code : Nat) : (s.openJob j code).cch = s.cch := rfl
@[simp] theorem State.openJob_txn (s : State) (j : JobRef) (code : Nat) : (s.openJob j code).txn = s.txn := rfl
@[simp] theorem State.openJob_upd (s : State) (j : JobRef) (code : Nat) : (s.openJob j code).upd = s.upd := rfl
@[simp] theorem State.openJob_cyc (s : State) (j : JobRef) (code : Nat) : (s.openJob j code).cyc = s.cyc := rfl
@[simp] theorem State.openJob_tim (s : State) (j : JobRef) (code : Nat) : (s.openJob j code).tim = s.tim := rfl
@[simp] theorem State.openJob_ctx (s : State) (j : JobRef) (code : Nat) : (s.openJob j code).ctx = s.ctx := rfl
@[simp] theorem State.openJob_ing (s : State) (j : JobRef) (code : Nat) : (s.openJob j code).ing = s.ing := rfl
@[simp] theorem State.openJob_val (s : State) (j : JobRef) (code : Nat) : (s.openJob j code).val = s.val := rfl
@[simp] theorem State.openJob_hwl (s : State) (j : JobRef) (code : Nat) : (s.openJob j code).hwl = s.hwl := rfl
@[simp] theorem State.openJob_bil (s : State) (j : JobRef) (code : Nat) : (s.openJob j code).bil = s.bil := rfl
@[simp] theorem State.openJob_lgc (s : State) (j : JobRef) (code : Nat) : (s.openJob j code).lgc = s.lgc := rfl
@[simp] theorem State.openJob_met (s : State) (j : JobRef) (code : Nat) : (s.openJob j code).met = s.met := rfl
@[simp] theorem State.openJob_bal (s : State) (j : JobRef) (code : Nat) : (s.openJob j code).bal = s.bal := rfl
@[simp] theorem State.openJob_ful (s : State) (j : JobRef) (code : Nat) : (s.openJob j code).ful = s.ful := rfl
@[simp] theorem State.openJob_readings (s : State) (j : JobRef) (code : Nat) : (s.openJob j code).readings = s.readings := rfl
@[simp] theorem State.openJob_plc (s : State) (j : JobRef) (code : Nat) : (s.openJob j code).plc = s.plc := rfl
@[simp] theorem State.openJob_rfm (s : State) (j : JobRef) (code : Nat) : (s.openJob j code).rfm = s.rfm := rfl
@[simp] theorem State.openJob_mem (s : State) (j : JobRef) (code : Nat) : (s.openJob j code).mem = s.mem := rfl

/-! ### `setCq` -/

@[simp] theorem State.setCq_pending (s : State) (n : Nat) (q : CmdQueue) : (s.setCq n q).pending = s.pending := rfl
@[simp] theorem State.setCq_now (s : State) (n : Nat) (q : CmdQueue) : (s.setCq n q).now = s.now := rfl
@[simp] theorem State.setCq_draws (s : State) (n : Nat) (q : CmdQueue) : (s.setCq n q).draws = s.draws := rfl
@[simp] theorem State.setCq_regs (s : State) (n : Nat) (q : CmdQueue) : (s.setCq n q).regs = s.regs := rfl
@[simp] theorem State.setCq_latches (s : State) (n : Nat) (q : CmdQueue) : (s.setCq n q).latches = s.latches := rfl
@[simp] theorem State.setCq_cfg (s : State) (n : Nat) (q : CmdQueue) : (s.setCq n q).cfg = s.cfg := rfl
@[simp] theorem State.setCq_limits (s : State) (n : Nat) (q : CmdQueue) : (s.setCq n q).limits = s.limits := rfl
@[simp] theorem State.setCq_out (s : State) (n : Nat) (q : CmdQueue) : (s.setCq n q).out = s.out := rfl
@[simp] theorem State.setCq_boot (s : State) (n : Nat) (q : CmdQueue) : (s.setCq n q).boot = s.boot := rfl
@[simp] theorem State.setCq_nor (s : State) (n : Nat) (q : CmdQueue) : (s.setCq n q).nor = s.nor := rfl
@[simp] theorem State.setCq_sec (s : State) (n : Nat) (q : CmdQueue) : (s.setCq n q).sec = s.sec := rfl
@[simp] theorem State.setCq_way (s : State) (n : Nat) (q : CmdQueue) : (s.setCq n q).way = s.way := rfl
@[simp] theorem State.setCq_pwr (s : State) (n : Nat) (q : CmdQueue) : (s.setCq n q).pwr = s.pwr := rfl
@[simp] theorem State.setCq_rst (s : State) (n : Nat) (q : CmdQueue) : (s.setCq n q).rst = s.rst := rfl
@[simp] theorem State.setCq_pins (s : State) (n : Nat) (q : CmdQueue) : (s.setCq n q).pins = s.pins := rfl
@[simp] theorem State.setCq_host (s : State) (n : Nat) (q : CmdQueue) : (s.setCq n q).host =
    { s.host with cqs := s.host.cqs.set n q } := rfl
@[simp] theorem State.setCq_eth (s : State) (n : Nat) (q : CmdQueue) : (s.setCq n q).eth = s.eth := rfl
@[simp] theorem State.setCq_sb (s : State) (n : Nat) (q : CmdQueue) : (s.setCq n q).sb = s.sb := rfl
@[simp] theorem State.setCq_cch (s : State) (n : Nat) (q : CmdQueue) : (s.setCq n q).cch = s.cch := rfl
@[simp] theorem State.setCq_txn (s : State) (n : Nat) (q : CmdQueue) : (s.setCq n q).txn = s.txn := rfl
@[simp] theorem State.setCq_upd (s : State) (n : Nat) (q : CmdQueue) : (s.setCq n q).upd = s.upd := rfl
@[simp] theorem State.setCq_cyc (s : State) (n : Nat) (q : CmdQueue) : (s.setCq n q).cyc = s.cyc := rfl
@[simp] theorem State.setCq_tim (s : State) (n : Nat) (q : CmdQueue) : (s.setCq n q).tim = s.tim := rfl
@[simp] theorem State.setCq_ctx (s : State) (n : Nat) (q : CmdQueue) : (s.setCq n q).ctx = s.ctx := rfl
@[simp] theorem State.setCq_ing (s : State) (n : Nat) (q : CmdQueue) : (s.setCq n q).ing = s.ing := rfl
@[simp] theorem State.setCq_val (s : State) (n : Nat) (q : CmdQueue) : (s.setCq n q).val = s.val := rfl
@[simp] theorem State.setCq_hwl (s : State) (n : Nat) (q : CmdQueue) : (s.setCq n q).hwl = s.hwl := rfl
@[simp] theorem State.setCq_bil (s : State) (n : Nat) (q : CmdQueue) : (s.setCq n q).bil = s.bil := rfl
@[simp] theorem State.setCq_lgc (s : State) (n : Nat) (q : CmdQueue) : (s.setCq n q).lgc = s.lgc := rfl
@[simp] theorem State.setCq_met (s : State) (n : Nat) (q : CmdQueue) : (s.setCq n q).met = s.met := rfl
@[simp] theorem State.setCq_bal (s : State) (n : Nat) (q : CmdQueue) : (s.setCq n q).bal = s.bal := rfl
@[simp] theorem State.setCq_ful (s : State) (n : Nat) (q : CmdQueue) : (s.setCq n q).ful = s.ful := rfl
@[simp] theorem State.setCq_readings (s : State) (n : Nat) (q : CmdQueue) : (s.setCq n q).readings = s.readings := rfl
@[simp] theorem State.setCq_plc (s : State) (n : Nat) (q : CmdQueue) : (s.setCq n q).plc = s.plc := rfl
@[simp] theorem State.setCq_rfm (s : State) (n : Nat) (q : CmdQueue) : (s.setCq n q).rfm = s.rfm := rfl
@[simp] theorem State.setCq_mem (s : State) (n : Nat) (q : CmdQueue) : (s.setCq n q).mem = s.mem := rfl

/-! ### `setRq` -/

@[simp] theorem State.setRq_pending (s : State) (n : Nat) (q : ReportQueue) : (s.setRq n q).pending = s.pending := rfl
@[simp] theorem State.setRq_now (s : State) (n : Nat) (q : ReportQueue) : (s.setRq n q).now = s.now := rfl
@[simp] theorem State.setRq_draws (s : State) (n : Nat) (q : ReportQueue) : (s.setRq n q).draws = s.draws := rfl
@[simp] theorem State.setRq_regs (s : State) (n : Nat) (q : ReportQueue) : (s.setRq n q).regs = s.regs := rfl
@[simp] theorem State.setRq_latches (s : State) (n : Nat) (q : ReportQueue) : (s.setRq n q).latches = s.latches := rfl
@[simp] theorem State.setRq_cfg (s : State) (n : Nat) (q : ReportQueue) : (s.setRq n q).cfg = s.cfg := rfl
@[simp] theorem State.setRq_limits (s : State) (n : Nat) (q : ReportQueue) : (s.setRq n q).limits = s.limits := rfl
@[simp] theorem State.setRq_out (s : State) (n : Nat) (q : ReportQueue) : (s.setRq n q).out = s.out := rfl
@[simp] theorem State.setRq_boot (s : State) (n : Nat) (q : ReportQueue) : (s.setRq n q).boot = s.boot := rfl
@[simp] theorem State.setRq_nor (s : State) (n : Nat) (q : ReportQueue) : (s.setRq n q).nor = s.nor := rfl
@[simp] theorem State.setRq_sec (s : State) (n : Nat) (q : ReportQueue) : (s.setRq n q).sec = s.sec := rfl
@[simp] theorem State.setRq_way (s : State) (n : Nat) (q : ReportQueue) : (s.setRq n q).way = s.way := rfl
@[simp] theorem State.setRq_pwr (s : State) (n : Nat) (q : ReportQueue) : (s.setRq n q).pwr = s.pwr := rfl
@[simp] theorem State.setRq_rst (s : State) (n : Nat) (q : ReportQueue) : (s.setRq n q).rst = s.rst := rfl
@[simp] theorem State.setRq_pins (s : State) (n : Nat) (q : ReportQueue) : (s.setRq n q).pins = s.pins := rfl
@[simp] theorem State.setRq_host (s : State) (n : Nat) (q : ReportQueue) : (s.setRq n q).host =
    { s.host with rqs := s.host.rqs.set n q } := rfl
@[simp] theorem State.setRq_eth (s : State) (n : Nat) (q : ReportQueue) : (s.setRq n q).eth = s.eth := rfl
@[simp] theorem State.setRq_sb (s : State) (n : Nat) (q : ReportQueue) : (s.setRq n q).sb = s.sb := rfl
@[simp] theorem State.setRq_cch (s : State) (n : Nat) (q : ReportQueue) : (s.setRq n q).cch = s.cch := rfl
@[simp] theorem State.setRq_txn (s : State) (n : Nat) (q : ReportQueue) : (s.setRq n q).txn = s.txn := rfl
@[simp] theorem State.setRq_upd (s : State) (n : Nat) (q : ReportQueue) : (s.setRq n q).upd = s.upd := rfl
@[simp] theorem State.setRq_cyc (s : State) (n : Nat) (q : ReportQueue) : (s.setRq n q).cyc = s.cyc := rfl
@[simp] theorem State.setRq_tim (s : State) (n : Nat) (q : ReportQueue) : (s.setRq n q).tim = s.tim := rfl
@[simp] theorem State.setRq_ctx (s : State) (n : Nat) (q : ReportQueue) : (s.setRq n q).ctx = s.ctx := rfl
@[simp] theorem State.setRq_ing (s : State) (n : Nat) (q : ReportQueue) : (s.setRq n q).ing = s.ing := rfl
@[simp] theorem State.setRq_val (s : State) (n : Nat) (q : ReportQueue) : (s.setRq n q).val = s.val := rfl
@[simp] theorem State.setRq_hwl (s : State) (n : Nat) (q : ReportQueue) : (s.setRq n q).hwl = s.hwl := rfl
@[simp] theorem State.setRq_bil (s : State) (n : Nat) (q : ReportQueue) : (s.setRq n q).bil = s.bil := rfl
@[simp] theorem State.setRq_lgc (s : State) (n : Nat) (q : ReportQueue) : (s.setRq n q).lgc = s.lgc := rfl
@[simp] theorem State.setRq_met (s : State) (n : Nat) (q : ReportQueue) : (s.setRq n q).met = s.met := rfl
@[simp] theorem State.setRq_bal (s : State) (n : Nat) (q : ReportQueue) : (s.setRq n q).bal = s.bal := rfl
@[simp] theorem State.setRq_ful (s : State) (n : Nat) (q : ReportQueue) : (s.setRq n q).ful = s.ful := rfl
@[simp] theorem State.setRq_readings (s : State) (n : Nat) (q : ReportQueue) : (s.setRq n q).readings = s.readings := rfl
@[simp] theorem State.setRq_plc (s : State) (n : Nat) (q : ReportQueue) : (s.setRq n q).plc = s.plc := rfl
@[simp] theorem State.setRq_rfm (s : State) (n : Nat) (q : ReportQueue) : (s.setRq n q).rfm = s.rfm := rfl
@[simp] theorem State.setRq_mem (s : State) (n : Nat) (q : ReportQueue) : (s.setRq n q).mem = s.mem := rfl

/-! ### `setWaiting` -/

@[simp] theorem State.setWaiting_pending (s : State) (l : List WaitingReport) : (s.setWaiting l).pending = s.pending := rfl
@[simp] theorem State.setWaiting_now (s : State) (l : List WaitingReport) : (s.setWaiting l).now = s.now := rfl
@[simp] theorem State.setWaiting_draws (s : State) (l : List WaitingReport) : (s.setWaiting l).draws = s.draws := rfl
@[simp] theorem State.setWaiting_regs (s : State) (l : List WaitingReport) : (s.setWaiting l).regs = s.regs := rfl
@[simp] theorem State.setWaiting_latches (s : State) (l : List WaitingReport) : (s.setWaiting l).latches = s.latches := rfl
@[simp] theorem State.setWaiting_cfg (s : State) (l : List WaitingReport) : (s.setWaiting l).cfg = s.cfg := rfl
@[simp] theorem State.setWaiting_limits (s : State) (l : List WaitingReport) : (s.setWaiting l).limits = s.limits := rfl
@[simp] theorem State.setWaiting_out (s : State) (l : List WaitingReport) : (s.setWaiting l).out = s.out := rfl
@[simp] theorem State.setWaiting_boot (s : State) (l : List WaitingReport) : (s.setWaiting l).boot = s.boot := rfl
@[simp] theorem State.setWaiting_nor (s : State) (l : List WaitingReport) : (s.setWaiting l).nor = s.nor := rfl
@[simp] theorem State.setWaiting_sec (s : State) (l : List WaitingReport) : (s.setWaiting l).sec = s.sec := rfl
@[simp] theorem State.setWaiting_way (s : State) (l : List WaitingReport) : (s.setWaiting l).way = s.way := rfl
@[simp] theorem State.setWaiting_pwr (s : State) (l : List WaitingReport) : (s.setWaiting l).pwr = s.pwr := rfl
@[simp] theorem State.setWaiting_rst (s : State) (l : List WaitingReport) : (s.setWaiting l).rst = s.rst := rfl
@[simp] theorem State.setWaiting_pins (s : State) (l : List WaitingReport) : (s.setWaiting l).pins = s.pins := rfl
@[simp] theorem State.setWaiting_host (s : State) (l : List WaitingReport) : (s.setWaiting l).host = { s.host with waiting := l } := rfl
@[simp] theorem State.setWaiting_eth (s : State) (l : List WaitingReport) : (s.setWaiting l).eth = s.eth := rfl
@[simp] theorem State.setWaiting_sb (s : State) (l : List WaitingReport) : (s.setWaiting l).sb = s.sb := rfl
@[simp] theorem State.setWaiting_cch (s : State) (l : List WaitingReport) : (s.setWaiting l).cch = s.cch := rfl
@[simp] theorem State.setWaiting_txn (s : State) (l : List WaitingReport) : (s.setWaiting l).txn = s.txn := rfl
@[simp] theorem State.setWaiting_upd (s : State) (l : List WaitingReport) : (s.setWaiting l).upd = s.upd := rfl
@[simp] theorem State.setWaiting_cyc (s : State) (l : List WaitingReport) : (s.setWaiting l).cyc = s.cyc := rfl
@[simp] theorem State.setWaiting_tim (s : State) (l : List WaitingReport) : (s.setWaiting l).tim = s.tim := rfl
@[simp] theorem State.setWaiting_ctx (s : State) (l : List WaitingReport) : (s.setWaiting l).ctx = s.ctx := rfl
@[simp] theorem State.setWaiting_ing (s : State) (l : List WaitingReport) : (s.setWaiting l).ing = s.ing := rfl
@[simp] theorem State.setWaiting_val (s : State) (l : List WaitingReport) : (s.setWaiting l).val = s.val := rfl
@[simp] theorem State.setWaiting_hwl (s : State) (l : List WaitingReport) : (s.setWaiting l).hwl = s.hwl := rfl
@[simp] theorem State.setWaiting_bil (s : State) (l : List WaitingReport) : (s.setWaiting l).bil = s.bil := rfl
@[simp] theorem State.setWaiting_lgc (s : State) (l : List WaitingReport) : (s.setWaiting l).lgc = s.lgc := rfl
@[simp] theorem State.setWaiting_met (s : State) (l : List WaitingReport) : (s.setWaiting l).met = s.met := rfl
@[simp] theorem State.setWaiting_bal (s : State) (l : List WaitingReport) : (s.setWaiting l).bal = s.bal := rfl
@[simp] theorem State.setWaiting_ful (s : State) (l : List WaitingReport) : (s.setWaiting l).ful = s.ful := rfl
@[simp] theorem State.setWaiting_readings (s : State) (l : List WaitingReport) : (s.setWaiting l).readings = s.readings := rfl
@[simp] theorem State.setWaiting_plc (s : State) (l : List WaitingReport) : (s.setWaiting l).plc = s.plc := rfl
@[simp] theorem State.setWaiting_rfm (s : State) (l : List WaitingReport) : (s.setWaiting l).rfm = s.rfm := rfl
@[simp] theorem State.setWaiting_mem (s : State) (l : List WaitingReport) : (s.setWaiting l).mem = s.mem := rfl

/-! ### `modPwr` -/

@[simp] theorem State.modPwr_pending (s : State) (f : Pwr → Pwr) : (s.modPwr f).pending = s.pending := rfl
@[simp] theorem State.modPwr_now (s : State) (f : Pwr → Pwr) : (s.modPwr f).now = s.now := rfl
@[simp] theorem State.modPwr_draws (s : State) (f : Pwr → Pwr) : (s.modPwr f).draws = s.draws := rfl
@[simp] theorem State.modPwr_regs (s : State) (f : Pwr → Pwr) : (s.modPwr f).regs = s.regs := rfl
@[simp] theorem State.modPwr_latches (s : State) (f : Pwr → Pwr) : (s.modPwr f).latches = s.latches := rfl
@[simp] theorem State.modPwr_cfg (s : State) (f : Pwr → Pwr) : (s.modPwr f).cfg = s.cfg := rfl
@[simp] theorem State.modPwr_limits (s : State) (f : Pwr → Pwr) : (s.modPwr f).limits = s.limits := rfl
@[simp] theorem State.modPwr_out (s : State) (f : Pwr → Pwr) : (s.modPwr f).out = s.out := rfl
@[simp] theorem State.modPwr_boot (s : State) (f : Pwr → Pwr) : (s.modPwr f).boot = s.boot := rfl
@[simp] theorem State.modPwr_nor (s : State) (f : Pwr → Pwr) : (s.modPwr f).nor = s.nor := rfl
@[simp] theorem State.modPwr_sec (s : State) (f : Pwr → Pwr) : (s.modPwr f).sec = s.sec := rfl
@[simp] theorem State.modPwr_way (s : State) (f : Pwr → Pwr) : (s.modPwr f).way = s.way := rfl
@[simp] theorem State.modPwr_pwr (s : State) (f : Pwr → Pwr) : (s.modPwr f).pwr = f s.pwr := rfl
@[simp] theorem State.modPwr_rst (s : State) (f : Pwr → Pwr) : (s.modPwr f).rst = s.rst := rfl
@[simp] theorem State.modPwr_pins (s : State) (f : Pwr → Pwr) : (s.modPwr f).pins = s.pins := rfl
@[simp] theorem State.modPwr_host (s : State) (f : Pwr → Pwr) : (s.modPwr f).host = s.host := rfl
@[simp] theorem State.modPwr_eth (s : State) (f : Pwr → Pwr) : (s.modPwr f).eth = s.eth := rfl
@[simp] theorem State.modPwr_sb (s : State) (f : Pwr → Pwr) : (s.modPwr f).sb = s.sb := rfl
@[simp] theorem State.modPwr_cch (s : State) (f : Pwr → Pwr) : (s.modPwr f).cch = s.cch := rfl
@[simp] theorem State.modPwr_txn (s : State) (f : Pwr → Pwr) : (s.modPwr f).txn = s.txn := rfl
@[simp] theorem State.modPwr_upd (s : State) (f : Pwr → Pwr) : (s.modPwr f).upd = s.upd := rfl
@[simp] theorem State.modPwr_cyc (s : State) (f : Pwr → Pwr) : (s.modPwr f).cyc = s.cyc := rfl
@[simp] theorem State.modPwr_tim (s : State) (f : Pwr → Pwr) : (s.modPwr f).tim = s.tim := rfl
@[simp] theorem State.modPwr_ctx (s : State) (f : Pwr → Pwr) : (s.modPwr f).ctx = s.ctx := rfl
@[simp] theorem State.modPwr_ing (s : State) (f : Pwr → Pwr) : (s.modPwr f).ing = s.ing := rfl
@[simp] theorem State.modPwr_val (s : State) (f : Pwr → Pwr) : (s.modPwr f).val = s.val := rfl
@[simp] theorem State.modPwr_hwl (s : State) (f : Pwr → Pwr) : (s.modPwr f).hwl = s.hwl := rfl
@[simp] theorem State.modPwr_bil (s : State) (f : Pwr → Pwr) : (s.modPwr f).bil = s.bil := rfl
@[simp] theorem State.modPwr_lgc (s : State) (f : Pwr → Pwr) : (s.modPwr f).lgc = s.lgc := rfl
@[simp] theorem State.modPwr_met (s : State) (f : Pwr → Pwr) : (s.modPwr f).met = s.met := rfl
@[simp] theorem State.modPwr_bal (s : State) (f : Pwr → Pwr) : (s.modPwr f).bal = s.bal := rfl
@[simp] theorem State.modPwr_ful (s : State) (f : Pwr → Pwr) : (s.modPwr f).ful = s.ful := rfl
@[simp] theorem State.modPwr_readings (s : State) (f : Pwr → Pwr) : (s.modPwr f).readings = s.readings := rfl
@[simp] theorem State.modPwr_plc (s : State) (f : Pwr → Pwr) : (s.modPwr f).plc = s.plc := rfl
@[simp] theorem State.modPwr_rfm (s : State) (f : Pwr → Pwr) : (s.modPwr f).rfm = s.rfm := rfl
@[simp] theorem State.modPwr_mem (s : State) (f : Pwr → Pwr) : (s.modPwr f).mem = s.mem := rfl

/-! ### `modCyc` -/

@[simp] theorem State.modCyc_pending (s : State) (f : Cyc → Cyc) : (s.modCyc f).pending = s.pending := rfl
@[simp] theorem State.modCyc_now (s : State) (f : Cyc → Cyc) : (s.modCyc f).now = s.now := rfl
@[simp] theorem State.modCyc_draws (s : State) (f : Cyc → Cyc) : (s.modCyc f).draws = s.draws := rfl
@[simp] theorem State.modCyc_regs (s : State) (f : Cyc → Cyc) : (s.modCyc f).regs = s.regs := rfl
@[simp] theorem State.modCyc_latches (s : State) (f : Cyc → Cyc) : (s.modCyc f).latches = s.latches := rfl
@[simp] theorem State.modCyc_cfg (s : State) (f : Cyc → Cyc) : (s.modCyc f).cfg = s.cfg := rfl
@[simp] theorem State.modCyc_limits (s : State) (f : Cyc → Cyc) : (s.modCyc f).limits = s.limits := rfl
@[simp] theorem State.modCyc_out (s : State) (f : Cyc → Cyc) : (s.modCyc f).out = s.out := rfl
@[simp] theorem State.modCyc_boot (s : State) (f : Cyc → Cyc) : (s.modCyc f).boot = s.boot := rfl
@[simp] theorem State.modCyc_nor (s : State) (f : Cyc → Cyc) : (s.modCyc f).nor = s.nor := rfl
@[simp] theorem State.modCyc_sec (s : State) (f : Cyc → Cyc) : (s.modCyc f).sec = s.sec := rfl
@[simp] theorem State.modCyc_way (s : State) (f : Cyc → Cyc) : (s.modCyc f).way = s.way := rfl
@[simp] theorem State.modCyc_pwr (s : State) (f : Cyc → Cyc) : (s.modCyc f).pwr = s.pwr := rfl
@[simp] theorem State.modCyc_rst (s : State) (f : Cyc → Cyc) : (s.modCyc f).rst = s.rst := rfl
@[simp] theorem State.modCyc_pins (s : State) (f : Cyc → Cyc) : (s.modCyc f).pins = s.pins := rfl
@[simp] theorem State.modCyc_host (s : State) (f : Cyc → Cyc) : (s.modCyc f).host = s.host := rfl
@[simp] theorem State.modCyc_eth (s : State) (f : Cyc → Cyc) : (s.modCyc f).eth = s.eth := rfl
@[simp] theorem State.modCyc_sb (s : State) (f : Cyc → Cyc) : (s.modCyc f).sb = s.sb := rfl
@[simp] theorem State.modCyc_cch (s : State) (f : Cyc → Cyc) : (s.modCyc f).cch = s.cch := rfl
@[simp] theorem State.modCyc_txn (s : State) (f : Cyc → Cyc) : (s.modCyc f).txn = s.txn := rfl
@[simp] theorem State.modCyc_upd (s : State) (f : Cyc → Cyc) : (s.modCyc f).upd = s.upd := rfl
@[simp] theorem State.modCyc_cyc (s : State) (f : Cyc → Cyc) : (s.modCyc f).cyc = f s.cyc := rfl
@[simp] theorem State.modCyc_tim (s : State) (f : Cyc → Cyc) : (s.modCyc f).tim = s.tim := rfl
@[simp] theorem State.modCyc_ctx (s : State) (f : Cyc → Cyc) : (s.modCyc f).ctx = s.ctx := rfl
@[simp] theorem State.modCyc_ing (s : State) (f : Cyc → Cyc) : (s.modCyc f).ing = s.ing := rfl
@[simp] theorem State.modCyc_val (s : State) (f : Cyc → Cyc) : (s.modCyc f).val = s.val := rfl
@[simp] theorem State.modCyc_hwl (s : State) (f : Cyc → Cyc) : (s.modCyc f).hwl = s.hwl := rfl
@[simp] theorem State.modCyc_bil (s : State) (f : Cyc → Cyc) : (s.modCyc f).bil = s.bil := rfl
@[simp] theorem State.modCyc_lgc (s : State) (f : Cyc → Cyc) : (s.modCyc f).lgc = s.lgc := rfl
@[simp] theorem State.modCyc_met (s : State) (f : Cyc → Cyc) : (s.modCyc f).met = s.met := rfl
@[simp] theorem State.modCyc_bal (s : State) (f : Cyc → Cyc) : (s.modCyc f).bal = s.bal := rfl
@[simp] theorem State.modCyc_ful (s : State) (f : Cyc → Cyc) : (s.modCyc f).ful = s.ful := rfl
@[simp] theorem State.modCyc_readings (s : State) (f : Cyc → Cyc) : (s.modCyc f).readings = s.readings := rfl
@[simp] theorem State.modCyc_plc (s : State) (f : Cyc → Cyc) : (s.modCyc f).plc = s.plc := rfl
@[simp] theorem State.modCyc_rfm (s : State) (f : Cyc → Cyc) : (s.modCyc f).rfm = s.rfm := rfl
@[simp] theorem State.modCyc_mem (s : State) (f : Cyc → Cyc) : (s.modCyc f).mem = s.mem := rfl

/-! ### `modTim` -/

@[simp] theorem State.modTim_pending (s : State) (f : Tim → Tim) : (s.modTim f).pending = s.pending := rfl
@[simp] theorem State.modTim_now (s : State) (f : Tim → Tim) : (s.modTim f).now = s.now := rfl
@[simp] theorem State.modTim_draws (s : State) (f : Tim → Tim) : (s.modTim f).draws = s.draws := rfl
@[simp] theorem State.modTim_regs (s : State) (f : Tim → Tim) : (s.modTim f).regs = s.regs := rfl
@[simp] theorem State.modTim_latches (s : State) (f : Tim → Tim) : (s.modTim f).latches = s.latches := rfl
@[simp] theorem State.modTim_cfg (s : State) (f : Tim → Tim) : (s.modTim f).cfg = s.cfg := rfl
@[simp] theorem State.modTim_limits (s : State) (f : Tim → Tim) : (s.modTim f).limits = s.limits := rfl
@[simp] theorem State.modTim_out (s : State) (f : Tim → Tim) : (s.modTim f).out = s.out := rfl
@[simp] theorem State.modTim_boot (s : State) (f : Tim → Tim) : (s.modTim f).boot = s.boot := rfl
@[simp] theorem State.modTim_nor (s : State) (f : Tim → Tim) : (s.modTim f).nor = s.nor := rfl
@[simp] theorem State.modTim_sec (s : State) (f : Tim → Tim) : (s.modTim f).sec = s.sec := rfl
@[simp] theorem State.modTim_way (s : State) (f : Tim → Tim) : (s.modTim f).way = s.way := rfl
@[simp] theorem State.modTim_pwr (s : State) (f : Tim → Tim) : (s.modTim f).pwr = s.pwr := rfl
@[simp] theorem State.modTim_rst (s : State) (f : Tim → Tim) : (s.modTim f).rst = s.rst := rfl
@[simp] theorem State.modTim_pins (s : State) (f : Tim → Tim) : (s.modTim f).pins = s.pins := rfl
@[simp] theorem State.modTim_host (s : State) (f : Tim → Tim) : (s.modTim f).host = s.host := rfl
@[simp] theorem State.modTim_eth (s : State) (f : Tim → Tim) : (s.modTim f).eth = s.eth := rfl
@[simp] theorem State.modTim_sb (s : State) (f : Tim → Tim) : (s.modTim f).sb = s.sb := rfl
@[simp] theorem State.modTim_cch (s : State) (f : Tim → Tim) : (s.modTim f).cch = s.cch := rfl
@[simp] theorem State.modTim_txn (s : State) (f : Tim → Tim) : (s.modTim f).txn = s.txn := rfl
@[simp] theorem State.modTim_upd (s : State) (f : Tim → Tim) : (s.modTim f).upd = s.upd := rfl
@[simp] theorem State.modTim_cyc (s : State) (f : Tim → Tim) : (s.modTim f).cyc = s.cyc := rfl
@[simp] theorem State.modTim_tim (s : State) (f : Tim → Tim) : (s.modTim f).tim = f s.tim := rfl
@[simp] theorem State.modTim_ctx (s : State) (f : Tim → Tim) : (s.modTim f).ctx = s.ctx := rfl
@[simp] theorem State.modTim_ing (s : State) (f : Tim → Tim) : (s.modTim f).ing = s.ing := rfl
@[simp] theorem State.modTim_val (s : State) (f : Tim → Tim) : (s.modTim f).val = s.val := rfl
@[simp] theorem State.modTim_hwl (s : State) (f : Tim → Tim) : (s.modTim f).hwl = s.hwl := rfl
@[simp] theorem State.modTim_bil (s : State) (f : Tim → Tim) : (s.modTim f).bil = s.bil := rfl
@[simp] theorem State.modTim_lgc (s : State) (f : Tim → Tim) : (s.modTim f).lgc = s.lgc := rfl
@[simp] theorem State.modTim_met (s : State) (f : Tim → Tim) : (s.modTim f).met = s.met := rfl
@[simp] theorem State.modTim_bal (s : State) (f : Tim → Tim) : (s.modTim f).bal = s.bal := rfl
@[simp] theorem State.modTim_ful (s : State) (f : Tim → Tim) : (s.modTim f).ful = s.ful := rfl
@[simp] theorem State.modTim_readings (s : State) (f : Tim → Tim) : (s.modTim f).readings = s.readings := rfl
@[simp] theorem State.modTim_plc (s : State) (f : Tim → Tim) : (s.modTim f).plc = s.plc := rfl
@[simp] theorem State.modTim_rfm (s : State) (f : Tim → Tim) : (s.modTim f).rfm = s.rfm := rfl
@[simp] theorem State.modTim_mem (s : State) (f : Tim → Tim) : (s.modTim f).mem = s.mem := rfl

/-! ### `modSec` -/

@[simp] theorem State.modSec_pending (s : State) (f : Sec → Sec) : (s.modSec f).pending = s.pending := rfl
@[simp] theorem State.modSec_now (s : State) (f : Sec → Sec) : (s.modSec f).now = s.now := rfl
@[simp] theorem State.modSec_draws (s : State) (f : Sec → Sec) : (s.modSec f).draws = s.draws := rfl
@[simp] theorem State.modSec_regs (s : State) (f : Sec → Sec) : (s.modSec f).regs = s.regs := rfl
@[simp] theorem State.modSec_latches (s : State) (f : Sec → Sec) : (s.modSec f).latches = s.latches := rfl
@[simp] theorem State.modSec_cfg (s : State) (f : Sec → Sec) : (s.modSec f).cfg = s.cfg := rfl
@[simp] theorem State.modSec_limits (s : State) (f : Sec → Sec) : (s.modSec f).limits = s.limits := rfl
@[simp] theorem State.modSec_out (s : State) (f : Sec → Sec) : (s.modSec f).out = s.out := rfl
@[simp] theorem State.modSec_boot (s : State) (f : Sec → Sec) : (s.modSec f).boot = s.boot := rfl
@[simp] theorem State.modSec_nor (s : State) (f : Sec → Sec) : (s.modSec f).nor = s.nor := rfl
@[simp] theorem State.modSec_sec (s : State) (f : Sec → Sec) : (s.modSec f).sec = f s.sec := rfl
@[simp] theorem State.modSec_way (s : State) (f : Sec → Sec) : (s.modSec f).way = s.way := rfl
@[simp] theorem State.modSec_pwr (s : State) (f : Sec → Sec) : (s.modSec f).pwr = s.pwr := rfl
@[simp] theorem State.modSec_rst (s : State) (f : Sec → Sec) : (s.modSec f).rst = s.rst := rfl
@[simp] theorem State.modSec_pins (s : State) (f : Sec → Sec) : (s.modSec f).pins = s.pins := rfl
@[simp] theorem State.modSec_host (s : State) (f : Sec → Sec) : (s.modSec f).host = s.host := rfl
@[simp] theorem State.modSec_eth (s : State) (f : Sec → Sec) : (s.modSec f).eth = s.eth := rfl
@[simp] theorem State.modSec_sb (s : State) (f : Sec → Sec) : (s.modSec f).sb = s.sb := rfl
@[simp] theorem State.modSec_cch (s : State) (f : Sec → Sec) : (s.modSec f).cch = s.cch := rfl
@[simp] theorem State.modSec_txn (s : State) (f : Sec → Sec) : (s.modSec f).txn = s.txn := rfl
@[simp] theorem State.modSec_upd (s : State) (f : Sec → Sec) : (s.modSec f).upd = s.upd := rfl
@[simp] theorem State.modSec_cyc (s : State) (f : Sec → Sec) : (s.modSec f).cyc = s.cyc := rfl
@[simp] theorem State.modSec_tim (s : State) (f : Sec → Sec) : (s.modSec f).tim = s.tim := rfl
@[simp] theorem State.modSec_ctx (s : State) (f : Sec → Sec) : (s.modSec f).ctx = s.ctx := rfl
@[simp] theorem State.modSec_ing (s : State) (f : Sec → Sec) : (s.modSec f).ing = s.ing := rfl
@[simp] theorem State.modSec_val (s : State) (f : Sec → Sec) : (s.modSec f).val = s.val := rfl
@[simp] theorem State.modSec_hwl (s : State) (f : Sec → Sec) : (s.modSec f).hwl = s.hwl := rfl
@[simp] theorem State.modSec_bil (s : State) (f : Sec → Sec) : (s.modSec f).bil = s.bil := rfl
@[simp] theorem State.modSec_lgc (s : State) (f : Sec → Sec) : (s.modSec f).lgc = s.lgc := rfl
@[simp] theorem State.modSec_met (s : State) (f : Sec → Sec) : (s.modSec f).met = s.met := rfl
@[simp] theorem State.modSec_bal (s : State) (f : Sec → Sec) : (s.modSec f).bal = s.bal := rfl
@[simp] theorem State.modSec_ful (s : State) (f : Sec → Sec) : (s.modSec f).ful = s.ful := rfl
@[simp] theorem State.modSec_readings (s : State) (f : Sec → Sec) : (s.modSec f).readings = s.readings := rfl
@[simp] theorem State.modSec_plc (s : State) (f : Sec → Sec) : (s.modSec f).plc = s.plc := rfl
@[simp] theorem State.modSec_rfm (s : State) (f : Sec → Sec) : (s.modSec f).rfm = s.rfm := rfl
@[simp] theorem State.modSec_mem (s : State) (f : Sec → Sec) : (s.modSec f).mem = s.mem := rfl

/-! ### `modHwl` -/

@[simp] theorem State.modHwl_pending (s : State) (f : Hwl → Hwl) : (s.modHwl f).pending = s.pending := rfl
@[simp] theorem State.modHwl_now (s : State) (f : Hwl → Hwl) : (s.modHwl f).now = s.now := rfl
@[simp] theorem State.modHwl_draws (s : State) (f : Hwl → Hwl) : (s.modHwl f).draws = s.draws := rfl
@[simp] theorem State.modHwl_regs (s : State) (f : Hwl → Hwl) : (s.modHwl f).regs = s.regs := rfl
@[simp] theorem State.modHwl_latches (s : State) (f : Hwl → Hwl) : (s.modHwl f).latches = s.latches := rfl
@[simp] theorem State.modHwl_cfg (s : State) (f : Hwl → Hwl) : (s.modHwl f).cfg = s.cfg := rfl
@[simp] theorem State.modHwl_limits (s : State) (f : Hwl → Hwl) : (s.modHwl f).limits = s.limits := rfl
@[simp] theorem State.modHwl_out (s : State) (f : Hwl → Hwl) : (s.modHwl f).out = s.out := rfl
@[simp] theorem State.modHwl_boot (s : State) (f : Hwl → Hwl) : (s.modHwl f).boot = s.boot := rfl
@[simp] theorem State.modHwl_nor (s : State) (f : Hwl → Hwl) : (s.modHwl f).nor = s.nor := rfl
@[simp] theorem State.modHwl_sec (s : State) (f : Hwl → Hwl) : (s.modHwl f).sec = s.sec := rfl
@[simp] theorem State.modHwl_way (s : State) (f : Hwl → Hwl) : (s.modHwl f).way = s.way := rfl
@[simp] theorem State.modHwl_pwr (s : State) (f : Hwl → Hwl) : (s.modHwl f).pwr = s.pwr := rfl
@[simp] theorem State.modHwl_rst (s : State) (f : Hwl → Hwl) : (s.modHwl f).rst = s.rst := rfl
@[simp] theorem State.modHwl_pins (s : State) (f : Hwl → Hwl) : (s.modHwl f).pins = s.pins := rfl
@[simp] theorem State.modHwl_host (s : State) (f : Hwl → Hwl) : (s.modHwl f).host = s.host := rfl
@[simp] theorem State.modHwl_eth (s : State) (f : Hwl → Hwl) : (s.modHwl f).eth = s.eth := rfl
@[simp] theorem State.modHwl_sb (s : State) (f : Hwl → Hwl) : (s.modHwl f).sb = s.sb := rfl
@[simp] theorem State.modHwl_cch (s : State) (f : Hwl → Hwl) : (s.modHwl f).cch = s.cch := rfl
@[simp] theorem State.modHwl_txn (s : State) (f : Hwl → Hwl) : (s.modHwl f).txn = s.txn := rfl
@[simp] theorem State.modHwl_upd (s : State) (f : Hwl → Hwl) : (s.modHwl f).upd = s.upd := rfl
@[simp] theorem State.modHwl_cyc (s : State) (f : Hwl → Hwl) : (s.modHwl f).cyc = s.cyc := rfl
@[simp] theorem State.modHwl_tim (s : State) (f : Hwl → Hwl) : (s.modHwl f).tim = s.tim := rfl
@[simp] theorem State.modHwl_ctx (s : State) (f : Hwl → Hwl) : (s.modHwl f).ctx = s.ctx := rfl
@[simp] theorem State.modHwl_ing (s : State) (f : Hwl → Hwl) : (s.modHwl f).ing = s.ing := rfl
@[simp] theorem State.modHwl_val (s : State) (f : Hwl → Hwl) : (s.modHwl f).val = s.val := rfl
@[simp] theorem State.modHwl_hwl (s : State) (f : Hwl → Hwl) : (s.modHwl f).hwl = f s.hwl := rfl
@[simp] theorem State.modHwl_bil (s : State) (f : Hwl → Hwl) : (s.modHwl f).bil = s.bil := rfl
@[simp] theorem State.modHwl_lgc (s : State) (f : Hwl → Hwl) : (s.modHwl f).lgc = s.lgc := rfl
@[simp] theorem State.modHwl_met (s : State) (f : Hwl → Hwl) : (s.modHwl f).met = s.met := rfl
@[simp] theorem State.modHwl_bal (s : State) (f : Hwl → Hwl) : (s.modHwl f).bal = s.bal := rfl
@[simp] theorem State.modHwl_ful (s : State) (f : Hwl → Hwl) : (s.modHwl f).ful = s.ful := rfl
@[simp] theorem State.modHwl_readings (s : State) (f : Hwl → Hwl) : (s.modHwl f).readings = s.readings := rfl
@[simp] theorem State.modHwl_plc (s : State) (f : Hwl → Hwl) : (s.modHwl f).plc = s.plc := rfl
@[simp] theorem State.modHwl_rfm (s : State) (f : Hwl → Hwl) : (s.modHwl f).rfm = s.rfm := rfl
@[simp] theorem State.modHwl_mem (s : State) (f : Hwl → Hwl) : (s.modHwl f).mem = s.mem := rfl

/-! ### `modPlc` -/

@[simp] theorem State.modPlc_pending (s : State) (f : Plc → Plc) : (s.modPlc f).pending = s.pending := rfl
@[simp] theorem State.modPlc_now (s : State) (f : Plc → Plc) : (s.modPlc f).now = s.now := rfl
@[simp] theorem State.modPlc_draws (s : State) (f : Plc → Plc) : (s.modPlc f).draws = s.draws := rfl
@[simp] theorem State.modPlc_regs (s : State) (f : Plc → Plc) : (s.modPlc f).regs = s.regs := rfl
@[simp] theorem State.modPlc_latches (s : State) (f : Plc → Plc) : (s.modPlc f).latches = s.latches := rfl
@[simp] theorem State.modPlc_cfg (s : State) (f : Plc → Plc) : (s.modPlc f).cfg = s.cfg := rfl
@[simp] theorem State.modPlc_limits (s : State) (f : Plc → Plc) : (s.modPlc f).limits = s.limits := rfl
@[simp] theorem State.modPlc_out (s : State) (f : Plc → Plc) : (s.modPlc f).out = s.out := rfl
@[simp] theorem State.modPlc_boot (s : State) (f : Plc → Plc) : (s.modPlc f).boot = s.boot := rfl
@[simp] theorem State.modPlc_nor (s : State) (f : Plc → Plc) : (s.modPlc f).nor = s.nor := rfl
@[simp] theorem State.modPlc_sec (s : State) (f : Plc → Plc) : (s.modPlc f).sec = s.sec := rfl
@[simp] theorem State.modPlc_way (s : State) (f : Plc → Plc) : (s.modPlc f).way = s.way := rfl
@[simp] theorem State.modPlc_pwr (s : State) (f : Plc → Plc) : (s.modPlc f).pwr = s.pwr := rfl
@[simp] theorem State.modPlc_rst (s : State) (f : Plc → Plc) : (s.modPlc f).rst = s.rst := rfl
@[simp] theorem State.modPlc_pins (s : State) (f : Plc → Plc) : (s.modPlc f).pins = s.pins := rfl
@[simp] theorem State.modPlc_host (s : State) (f : Plc → Plc) : (s.modPlc f).host = s.host := rfl
@[simp] theorem State.modPlc_eth (s : State) (f : Plc → Plc) : (s.modPlc f).eth = s.eth := rfl
@[simp] theorem State.modPlc_sb (s : State) (f : Plc → Plc) : (s.modPlc f).sb = s.sb := rfl
@[simp] theorem State.modPlc_cch (s : State) (f : Plc → Plc) : (s.modPlc f).cch = s.cch := rfl
@[simp] theorem State.modPlc_txn (s : State) (f : Plc → Plc) : (s.modPlc f).txn = s.txn := rfl
@[simp] theorem State.modPlc_upd (s : State) (f : Plc → Plc) : (s.modPlc f).upd = s.upd := rfl
@[simp] theorem State.modPlc_cyc (s : State) (f : Plc → Plc) : (s.modPlc f).cyc = s.cyc := rfl
@[simp] theorem State.modPlc_tim (s : State) (f : Plc → Plc) : (s.modPlc f).tim = s.tim := rfl
@[simp] theorem State.modPlc_ctx (s : State) (f : Plc → Plc) : (s.modPlc f).ctx = s.ctx := rfl
@[simp] theorem State.modPlc_ing (s : State) (f : Plc → Plc) : (s.modPlc f).ing = s.ing := rfl
@[simp] theorem State.modPlc_val (s : State) (f : Plc → Plc) : (s.modPlc f).val = s.val := rfl
@[simp] theorem State.modPlc_hwl (s : State) (f : Plc → Plc) : (s.modPlc f).hwl = s.hwl := rfl
@[simp] theorem State.modPlc_bil (s : State) (f : Plc → Plc) : (s.modPlc f).bil = s.bil := rfl
@[simp] theorem State.modPlc_lgc (s : State) (f : Plc → Plc) : (s.modPlc f).lgc = s.lgc := rfl
@[simp] theorem State.modPlc_met (s : State) (f : Plc → Plc) : (s.modPlc f).met = s.met := rfl
@[simp] theorem State.modPlc_bal (s : State) (f : Plc → Plc) : (s.modPlc f).bal = s.bal := rfl
@[simp] theorem State.modPlc_ful (s : State) (f : Plc → Plc) : (s.modPlc f).ful = s.ful := rfl
@[simp] theorem State.modPlc_readings (s : State) (f : Plc → Plc) : (s.modPlc f).readings = s.readings := rfl
@[simp] theorem State.modPlc_plc (s : State) (f : Plc → Plc) : (s.modPlc f).plc = f s.plc := rfl
@[simp] theorem State.modPlc_rfm (s : State) (f : Plc → Plc) : (s.modPlc f).rfm = s.rfm := rfl
@[simp] theorem State.modPlc_mem (s : State) (f : Plc → Plc) : (s.modPlc f).mem = s.mem := rfl

/-! ### `modRfm` -/

@[simp] theorem State.modRfm_pending (s : State) (f : Rfm → Rfm) : (s.modRfm f).pending = s.pending := rfl
@[simp] theorem State.modRfm_now (s : State) (f : Rfm → Rfm) : (s.modRfm f).now = s.now := rfl
@[simp] theorem State.modRfm_draws (s : State) (f : Rfm → Rfm) : (s.modRfm f).draws = s.draws := rfl
@[simp] theorem State.modRfm_regs (s : State) (f : Rfm → Rfm) : (s.modRfm f).regs = s.regs := rfl
@[simp] theorem State.modRfm_latches (s : State) (f : Rfm → Rfm) : (s.modRfm f).latches = s.latches := rfl
@[simp] theorem State.modRfm_cfg (s : State) (f : Rfm → Rfm) : (s.modRfm f).cfg = s.cfg := rfl
@[simp] theorem State.modRfm_limits (s : State) (f : Rfm → Rfm) : (s.modRfm f).limits = s.limits := rfl
@[simp] theorem State.modRfm_out (s : State) (f : Rfm → Rfm) : (s.modRfm f).out = s.out := rfl
@[simp] theorem State.modRfm_boot (s : State) (f : Rfm → Rfm) : (s.modRfm f).boot = s.boot := rfl
@[simp] theorem State.modRfm_nor (s : State) (f : Rfm → Rfm) : (s.modRfm f).nor = s.nor := rfl
@[simp] theorem State.modRfm_sec (s : State) (f : Rfm → Rfm) : (s.modRfm f).sec = s.sec := rfl
@[simp] theorem State.modRfm_way (s : State) (f : Rfm → Rfm) : (s.modRfm f).way = s.way := rfl
@[simp] theorem State.modRfm_pwr (s : State) (f : Rfm → Rfm) : (s.modRfm f).pwr = s.pwr := rfl
@[simp] theorem State.modRfm_rst (s : State) (f : Rfm → Rfm) : (s.modRfm f).rst = s.rst := rfl
@[simp] theorem State.modRfm_pins (s : State) (f : Rfm → Rfm) : (s.modRfm f).pins = s.pins := rfl
@[simp] theorem State.modRfm_host (s : State) (f : Rfm → Rfm) : (s.modRfm f).host = s.host := rfl
@[simp] theorem State.modRfm_eth (s : State) (f : Rfm → Rfm) : (s.modRfm f).eth = s.eth := rfl
@[simp] theorem State.modRfm_sb (s : State) (f : Rfm → Rfm) : (s.modRfm f).sb = s.sb := rfl
@[simp] theorem State.modRfm_cch (s : State) (f : Rfm → Rfm) : (s.modRfm f).cch = s.cch := rfl
@[simp] theorem State.modRfm_txn (s : State) (f : Rfm → Rfm) : (s.modRfm f).txn = s.txn := rfl
@[simp] theorem State.modRfm_upd (s : State) (f : Rfm → Rfm) : (s.modRfm f).upd = s.upd := rfl
@[simp] theorem State.modRfm_cyc (s : State) (f : Rfm → Rfm) : (s.modRfm f).cyc = s.cyc := rfl
@[simp] theorem State.modRfm_tim (s : State) (f : Rfm → Rfm) : (s.modRfm f).tim = s.tim := rfl
@[simp] theorem State.modRfm_ctx (s : State) (f : Rfm → Rfm) : (s.modRfm f).ctx = s.ctx := rfl
@[simp] theorem State.modRfm_ing (s : State) (f : Rfm → Rfm) : (s.modRfm f).ing = s.ing := rfl
@[simp] theorem State.modRfm_val (s : State) (f : Rfm → Rfm) : (s.modRfm f).val = s.val := rfl
@[simp] theorem State.modRfm_hwl (s : State) (f : Rfm → Rfm) : (s.modRfm f).hwl = s.hwl := rfl
@[simp] theorem State.modRfm_bil (s : State) (f : Rfm → Rfm) : (s.modRfm f).bil = s.bil := rfl
@[simp] theorem State.modRfm_lgc (s : State) (f : Rfm → Rfm) : (s.modRfm f).lgc = s.lgc := rfl
@[simp] theorem State.modRfm_met (s : State) (f : Rfm → Rfm) : (s.modRfm f).met = s.met := rfl
@[simp] theorem State.modRfm_bal (s : State) (f : Rfm → Rfm) : (s.modRfm f).bal = s.bal := rfl
@[simp] theorem State.modRfm_ful (s : State) (f : Rfm → Rfm) : (s.modRfm f).ful = s.ful := rfl
@[simp] theorem State.modRfm_readings (s : State) (f : Rfm → Rfm) : (s.modRfm f).readings = s.readings := rfl
@[simp] theorem State.modRfm_plc (s : State) (f : Rfm → Rfm) : (s.modRfm f).plc = s.plc := rfl
@[simp] theorem State.modRfm_rfm (s : State) (f : Rfm → Rfm) : (s.modRfm f).rfm = f s.rfm := rfl
@[simp] theorem State.modRfm_mem (s : State) (f : Rfm → Rfm) : (s.modRfm f).mem = s.mem := rfl

/-! ### `setCtx` -/

@[simp] theorem State.setCtx_pending (s : State) (i : Nat) (c : Context) : (s.setCtx i c).pending = s.pending := rfl
@[simp] theorem State.setCtx_now (s : State) (i : Nat) (c : Context) : (s.setCtx i c).now = s.now := rfl
@[simp] theorem State.setCtx_draws (s : State) (i : Nat) (c : Context) : (s.setCtx i c).draws = s.draws := rfl
@[simp] theorem State.setCtx_regs (s : State) (i : Nat) (c : Context) : (s.setCtx i c).regs = s.regs := rfl
@[simp] theorem State.setCtx_latches (s : State) (i : Nat) (c : Context) : (s.setCtx i c).latches = s.latches := rfl
@[simp] theorem State.setCtx_cfg (s : State) (i : Nat) (c : Context) : (s.setCtx i c).cfg = s.cfg := rfl
@[simp] theorem State.setCtx_limits (s : State) (i : Nat) (c : Context) : (s.setCtx i c).limits = s.limits := rfl
@[simp] theorem State.setCtx_out (s : State) (i : Nat) (c : Context) : (s.setCtx i c).out = s.out := rfl
@[simp] theorem State.setCtx_boot (s : State) (i : Nat) (c : Context) : (s.setCtx i c).boot = s.boot := rfl
@[simp] theorem State.setCtx_nor (s : State) (i : Nat) (c : Context) : (s.setCtx i c).nor = s.nor := rfl
@[simp] theorem State.setCtx_sec (s : State) (i : Nat) (c : Context) : (s.setCtx i c).sec = s.sec := rfl
@[simp] theorem State.setCtx_way (s : State) (i : Nat) (c : Context) : (s.setCtx i c).way = s.way := rfl
@[simp] theorem State.setCtx_pwr (s : State) (i : Nat) (c : Context) : (s.setCtx i c).pwr = s.pwr := rfl
@[simp] theorem State.setCtx_rst (s : State) (i : Nat) (c : Context) : (s.setCtx i c).rst = s.rst := rfl
@[simp] theorem State.setCtx_pins (s : State) (i : Nat) (c : Context) : (s.setCtx i c).pins = s.pins := rfl
@[simp] theorem State.setCtx_host (s : State) (i : Nat) (c : Context) : (s.setCtx i c).host = s.host := rfl
@[simp] theorem State.setCtx_eth (s : State) (i : Nat) (c : Context) : (s.setCtx i c).eth = s.eth := rfl
@[simp] theorem State.setCtx_sb (s : State) (i : Nat) (c : Context) : (s.setCtx i c).sb = s.sb := rfl
@[simp] theorem State.setCtx_cch (s : State) (i : Nat) (c : Context) : (s.setCtx i c).cch = s.cch := rfl
@[simp] theorem State.setCtx_txn (s : State) (i : Nat) (c : Context) : (s.setCtx i c).txn = s.txn := rfl
@[simp] theorem State.setCtx_upd (s : State) (i : Nat) (c : Context) : (s.setCtx i c).upd = s.upd := rfl
@[simp] theorem State.setCtx_cyc (s : State) (i : Nat) (c : Context) : (s.setCtx i c).cyc = s.cyc := rfl
@[simp] theorem State.setCtx_tim (s : State) (i : Nat) (c : Context) : (s.setCtx i c).tim = s.tim := rfl
@[simp] theorem State.setCtx_ctx (s : State) (i : Nat) (c : Context) : (s.setCtx i c).ctx = Table.set Context.empty s.ctx i c := rfl
@[simp] theorem State.setCtx_ing (s : State) (i : Nat) (c : Context) : (s.setCtx i c).ing = s.ing := rfl
@[simp] theorem State.setCtx_val (s : State) (i : Nat) (c : Context) : (s.setCtx i c).val = s.val := rfl
@[simp] theorem State.setCtx_hwl (s : State) (i : Nat) (c : Context) : (s.setCtx i c).hwl = s.hwl := rfl
@[simp] theorem State.setCtx_bil (s : State) (i : Nat) (c : Context) : (s.setCtx i c).bil = s.bil := rfl
@[simp] theorem State.setCtx_lgc (s : State) (i : Nat) (c : Context) : (s.setCtx i c).lgc = s.lgc := rfl
@[simp] theorem State.setCtx_met (s : State) (i : Nat) (c : Context) : (s.setCtx i c).met = s.met := rfl
@[simp] theorem State.setCtx_bal (s : State) (i : Nat) (c : Context) : (s.setCtx i c).bal = s.bal := rfl
@[simp] theorem State.setCtx_ful (s : State) (i : Nat) (c : Context) : (s.setCtx i c).ful = s.ful := rfl
@[simp] theorem State.setCtx_readings (s : State) (i : Nat) (c : Context) : (s.setCtx i c).readings = s.readings := rfl
@[simp] theorem State.setCtx_plc (s : State) (i : Nat) (c : Context) : (s.setCtx i c).plc = s.plc := rfl
@[simp] theorem State.setCtx_rfm (s : State) (i : Nat) (c : Context) : (s.setCtx i c).rfm = s.rfm := rfl
@[simp] theorem State.setCtx_mem (s : State) (i : Nat) (c : Context) : (s.setCtx i c).mem = s.mem := rfl

/-! ### `setTag` -/

@[simp] theorem State.setTag_pending (s : State) (t : Nat) (v : Tag) : (s.setTag t v).pending = s.pending := rfl
@[simp] theorem State.setTag_now (s : State) (t : Nat) (v : Tag) : (s.setTag t v).now = s.now := rfl
@[simp] theorem State.setTag_draws (s : State) (t : Nat) (v : Tag) : (s.setTag t v).draws = s.draws := rfl
@[simp] theorem State.setTag_regs (s : State) (t : Nat) (v : Tag) : (s.setTag t v).regs = s.regs := rfl
@[simp] theorem State.setTag_latches (s : State) (t : Nat) (v : Tag) : (s.setTag t v).latches = s.latches := rfl
@[simp] theorem State.setTag_cfg (s : State) (t : Nat) (v : Tag) : (s.setTag t v).cfg = s.cfg := rfl
@[simp] theorem State.setTag_limits (s : State) (t : Nat) (v : Tag) : (s.setTag t v).limits = s.limits := rfl
@[simp] theorem State.setTag_out (s : State) (t : Nat) (v : Tag) : (s.setTag t v).out = s.out := rfl
@[simp] theorem State.setTag_boot (s : State) (t : Nat) (v : Tag) : (s.setTag t v).boot = s.boot := rfl
@[simp] theorem State.setTag_nor (s : State) (t : Nat) (v : Tag) : (s.setTag t v).nor = s.nor := rfl
@[simp] theorem State.setTag_sec (s : State) (t : Nat) (v : Tag) : (s.setTag t v).sec = s.sec := rfl
@[simp] theorem State.setTag_way (s : State) (t : Nat) (v : Tag) : (s.setTag t v).way = s.way := rfl
@[simp] theorem State.setTag_pwr (s : State) (t : Nat) (v : Tag) : (s.setTag t v).pwr = s.pwr := rfl
@[simp] theorem State.setTag_rst (s : State) (t : Nat) (v : Tag) : (s.setTag t v).rst = s.rst := rfl
@[simp] theorem State.setTag_pins (s : State) (t : Nat) (v : Tag) : (s.setTag t v).pins = s.pins := rfl
@[simp] theorem State.setTag_host (s : State) (t : Nat) (v : Tag) : (s.setTag t v).host = s.host := rfl
@[simp] theorem State.setTag_eth (s : State) (t : Nat) (v : Tag) : (s.setTag t v).eth = s.eth := rfl
@[simp] theorem State.setTag_sb (s : State) (t : Nat) (v : Tag) : (s.setTag t v).sb = s.sb := rfl
@[simp] theorem State.setTag_cch (s : State) (t : Nat) (v : Tag) : (s.setTag t v).cch = s.cch := rfl
@[simp] theorem State.setTag_txn (s : State) (t : Nat) (v : Tag) : (s.setTag t v).txn =
    { s.txn with tags := Table.set Tag.fresh s.txn.tags t v } := rfl
@[simp] theorem State.setTag_upd (s : State) (t : Nat) (v : Tag) : (s.setTag t v).upd = s.upd := rfl
@[simp] theorem State.setTag_cyc (s : State) (t : Nat) (v : Tag) : (s.setTag t v).cyc = s.cyc := rfl
@[simp] theorem State.setTag_tim (s : State) (t : Nat) (v : Tag) : (s.setTag t v).tim = s.tim := rfl
@[simp] theorem State.setTag_ctx (s : State) (t : Nat) (v : Tag) : (s.setTag t v).ctx = s.ctx := rfl
@[simp] theorem State.setTag_ing (s : State) (t : Nat) (v : Tag) : (s.setTag t v).ing = s.ing := rfl
@[simp] theorem State.setTag_val (s : State) (t : Nat) (v : Tag) : (s.setTag t v).val = s.val := rfl
@[simp] theorem State.setTag_hwl (s : State) (t : Nat) (v : Tag) : (s.setTag t v).hwl = s.hwl := rfl
@[simp] theorem State.setTag_bil (s : State) (t : Nat) (v : Tag) : (s.setTag t v).bil = s.bil := rfl
@[simp] theorem State.setTag_lgc (s : State) (t : Nat) (v : Tag) : (s.setTag t v).lgc = s.lgc := rfl
@[simp] theorem State.setTag_met (s : State) (t : Nat) (v : Tag) : (s.setTag t v).met = s.met := rfl
@[simp] theorem State.setTag_bal (s : State) (t : Nat) (v : Tag) : (s.setTag t v).bal = s.bal := rfl
@[simp] theorem State.setTag_ful (s : State) (t : Nat) (v : Tag) : (s.setTag t v).ful = s.ful := rfl
@[simp] theorem State.setTag_readings (s : State) (t : Nat) (v : Tag) : (s.setTag t v).readings = s.readings := rfl
@[simp] theorem State.setTag_plc (s : State) (t : Nat) (v : Tag) : (s.setTag t v).plc = s.plc := rfl
@[simp] theorem State.setTag_rfm (s : State) (t : Nat) (v : Tag) : (s.setTag t v).rfm = s.rfm := rfl
@[simp] theorem State.setTag_mem (s : State) (t : Nat) (v : Tag) : (s.setTag t v).mem = s.mem := rfl

/-! ### `withCommand` -/

@[simp] theorem State.withCommand_pending (s : State) (c : Instr) : (s.withCommand c).pending = c :: s.pending := rfl
@[simp] theorem State.withCommand_now (s : State) (c : Instr) : (s.withCommand c).now = s.now := rfl
@[simp] theorem State.withCommand_draws (s : State) (c : Instr) : (s.withCommand c).draws = s.draws := rfl
@[simp] theorem State.withCommand_regs (s : State) (c : Instr) : (s.withCommand c).regs = s.regs := rfl
@[simp] theorem State.withCommand_latches (s : State) (c : Instr) : (s.withCommand c).latches = s.latches := rfl
@[simp] theorem State.withCommand_cfg (s : State) (c : Instr) : (s.withCommand c).cfg = s.cfg := rfl
@[simp] theorem State.withCommand_limits (s : State) (c : Instr) : (s.withCommand c).limits = s.limits := rfl
@[simp] theorem State.withCommand_out (s : State) (c : Instr) : (s.withCommand c).out = s.out := rfl
@[simp] theorem State.withCommand_boot (s : State) (c : Instr) : (s.withCommand c).boot = s.boot := rfl
@[simp] theorem State.withCommand_nor (s : State) (c : Instr) : (s.withCommand c).nor = s.nor := rfl
@[simp] theorem State.withCommand_sec (s : State) (c : Instr) : (s.withCommand c).sec = s.sec := rfl
@[simp] theorem State.withCommand_way (s : State) (c : Instr) : (s.withCommand c).way = s.way := rfl
@[simp] theorem State.withCommand_pwr (s : State) (c : Instr) : (s.withCommand c).pwr = s.pwr := rfl
@[simp] theorem State.withCommand_rst (s : State) (c : Instr) : (s.withCommand c).rst = s.rst := rfl
@[simp] theorem State.withCommand_pins (s : State) (c : Instr) : (s.withCommand c).pins = s.pins := rfl
@[simp] theorem State.withCommand_host (s : State) (c : Instr) : (s.withCommand c).host = s.host := rfl
@[simp] theorem State.withCommand_eth (s : State) (c : Instr) : (s.withCommand c).eth = s.eth := rfl
@[simp] theorem State.withCommand_sb (s : State) (c : Instr) : (s.withCommand c).sb = s.sb := rfl
@[simp] theorem State.withCommand_cch (s : State) (c : Instr) : (s.withCommand c).cch = s.cch := rfl
@[simp] theorem State.withCommand_txn (s : State) (c : Instr) : (s.withCommand c).txn = s.txn := rfl
@[simp] theorem State.withCommand_upd (s : State) (c : Instr) : (s.withCommand c).upd = s.upd := rfl
@[simp] theorem State.withCommand_cyc (s : State) (c : Instr) : (s.withCommand c).cyc = s.cyc := rfl
@[simp] theorem State.withCommand_tim (s : State) (c : Instr) : (s.withCommand c).tim = s.tim := rfl
@[simp] theorem State.withCommand_ctx (s : State) (c : Instr) : (s.withCommand c).ctx = s.ctx := rfl
@[simp] theorem State.withCommand_ing (s : State) (c : Instr) : (s.withCommand c).ing = s.ing := rfl
@[simp] theorem State.withCommand_val (s : State) (c : Instr) : (s.withCommand c).val = s.val := rfl
@[simp] theorem State.withCommand_hwl (s : State) (c : Instr) : (s.withCommand c).hwl = s.hwl := rfl
@[simp] theorem State.withCommand_bil (s : State) (c : Instr) : (s.withCommand c).bil = s.bil := rfl
@[simp] theorem State.withCommand_lgc (s : State) (c : Instr) : (s.withCommand c).lgc = s.lgc := rfl
@[simp] theorem State.withCommand_met (s : State) (c : Instr) : (s.withCommand c).met = s.met := rfl
@[simp] theorem State.withCommand_bal (s : State) (c : Instr) : (s.withCommand c).bal = s.bal := rfl
@[simp] theorem State.withCommand_ful (s : State) (c : Instr) : (s.withCommand c).ful = s.ful := rfl
@[simp] theorem State.withCommand_readings (s : State) (c : Instr) : (s.withCommand c).readings = s.readings := rfl
@[simp] theorem State.withCommand_plc (s : State) (c : Instr) : (s.withCommand c).plc = s.plc := rfl
@[simp] theorem State.withCommand_rfm (s : State) (c : Instr) : (s.withCommand c).rfm = s.rfm := rfl
@[simp] theorem State.withCommand_mem (s : State) (c : Instr) : (s.withCommand c).mem = s.mem := rfl

end Sys2Proof.Machine
end

