-- ==== Sys2Proof/Laws/Table.lean ====
section
/-!
SUPPORT. The laws of sparse tables: a read after a write, a write leaves every other index alone, every operation keeps the canonical
form, and canonical tables that read alike are equal.
-/

namespace Sys2Proof.Machine

variable {α : Type}

/-! ## Reads after writes -/

@[simp] theorem Table.get_nil (d : α) (k : Nat) : Table.get d ([] : Table α) k = d := rfl

@[simp] theorem Table.get_put (d : α) (t : Table α) (k : Nat) (v : α) : Table.get d (Table.put t k v) k = v := by
  induction t with
  | nil => simp [Table.put, Table.get]
  | cons e t ih =>
    obtain ⟨j, w⟩ := e
    rw [Table.put]
    split
    · simp [Table.get]
    · split
      · simp [Table.get]
      · rw [Table.get, if_neg (by omega)]; exact ih

theorem Table.get_put_other (d : α) (t : Table α) {k i : Nat} (v : α) (h : i ≠ k) : Table.get d (Table.put t k v) i = Table.get d t i := by
  induction t with
  | nil => simp [Table.put, Table.get, h.symm]
  | cons e t ih =>
    obtain ⟨j, w⟩ := e
    rw [Table.put]
    split
    · rw [Table.get, if_neg h.symm]
    · split
      · rename_i hk; subst hk; simp [Table.get, h.symm]
      · simp only [Table.get, ih]

theorem Table.get_erase_other (d : α) (t : Table α) {k i : Nat} (h : i ≠ k) : Table.get d (Table.erase t k) i = Table.get d t i := by
  induction t with
  | nil => rfl
  | cons e t ih =>
    obtain ⟨j, w⟩ := e
    rw [Table.erase]
    split
    · rename_i hj; rw [Table.get, if_neg (by omega)]
    · simp only [Table.get, ih]

/-- An index below every listed one reads as the default. -/
theorem Table.get_below (d : α) (t : Table α) (k : Nat) (h : ∀ e ∈ t, k < e.1) : Table.get d t k = d := by
  induction t with
  | nil => rfl
  | cons e t ih =>
    have he := h e (by simp)
    rw [Table.get, if_neg (by omega)]
    exact ih fun x hx => h x (by simp [hx])

theorem Table.get_erase (d : α) (t : Table α) (k : Nat) (h : Table.Wf d t) : Table.get d (Table.erase t k) k = d := by
  induction t with
  | nil => rfl
  | cons e t ih =>
    obtain ⟨j, w⟩ := e
    obtain ⟨hp, hd⟩ := h
    rw [List.pairwise_cons] at hp
    rw [Table.erase]
    split
    · rename_i hj; exact Table.get_below d t k fun x hx => hj ▸ hp.1 x hx
    · rename_i hj
      rw [Table.get, if_neg hj]
      exact ih ⟨hp.2, fun x hx => hd x (by simp [hx])⟩

theorem Table.get_set_other [DecidableEq α] (d : α) (t : Table α) {k i : Nat} (v : α) (h : i ≠ k) :
    Table.get d (Table.set d t k v) i = Table.get d t i := by
  rw [Table.set]
  split
  · exact Table.get_erase_other d t h
  · exact Table.get_put_other d t v h

theorem Table.get_set [DecidableEq α] (d : α) (t : Table α) (k : Nat) (v : α) (h : Table.Wf d t) : Table.get d (Table.set d t k v) k = v := by
  rw [Table.set]
  split
  · rename_i hv; rw [hv]; exact Table.get_erase d t k h
  · exact Table.get_put d t k v

/-! ## The canonical form -/

theorem Table.wf_nil (d : α) : Table.Wf d ([] : Table α) := by simp [Table.Wf]

theorem Table.mem_put {t : Table α} {k : Nat} {v : α} {e : Nat × α} (h : e ∈ Table.put t k v) : e = (k, v) ∨ e ∈ t := by
  induction t with
  | nil => simpa [Table.put] using h
  | cons x t ih =>
    rw [Table.put] at h
    split at h
    · simpa using h
    · split at h
      · rcases List.mem_cons.1 h with h | h
        · exact Or.inl h
        · exact Or.inr (by simp [h])
      · rcases List.mem_cons.1 h with h | h
        · exact Or.inr (by simp [h])
        · rcases ih h with h | h
          · exact Or.inl h
          · exact Or.inr (by simp [h])

theorem Table.mem_erase {t : Table α} {k : Nat} {e : Nat × α} (h : e ∈ Table.erase t k) : e ∈ t := by
  induction t with
  | nil => exact h
  | cons x t ih =>
    rw [Table.erase] at h
    split at h
    · simp [h]
    · rcases List.mem_cons.1 h with h | h
      · simp [h]
      · simp [ih h]

theorem Table.wf_put (d : α) {t : Table α} (k : Nat) {v : α} (hv : v ≠ d) (h : Table.Wf d t) : Table.Wf d (Table.put t k v) := by
  refine ⟨?_, fun e he => (Table.mem_put he).elim (fun x => x ▸ hv) (h.2 e)⟩
  obtain ⟨hp, -⟩ := h
  induction t with
  | nil => simp [Table.put]
  | cons x t ih =>
    obtain ⟨j, w⟩ := x
    rw [List.pairwise_cons] at hp
    rw [Table.put]
    split
    · rename_i hk
      refine List.pairwise_cons.2 ⟨fun a ha => ?_, List.pairwise_cons.2 hp⟩
      rcases List.mem_cons.1 ha with ha | ha
      · simpa [ha] using hk
      · exact lt_trans hk (hp.1 a ha)
    · split
      · rename_i hk; subst hk; exact List.pairwise_cons.2 hp
      · refine List.pairwise_cons.2 ⟨fun a ha => ?_, ih hp.2⟩
        rcases Table.mem_put ha with ha | ha
        · subst ha; show j < k; omega
        · exact hp.1 a ha

theorem Table.wf_erase (d : α) {t : Table α} (k : Nat) (h : Table.Wf d t) : Table.Wf d (Table.erase t k) := by
  refine ⟨?_, fun e he => h.2 e (Table.mem_erase he)⟩
  obtain ⟨hp, -⟩ := h
  induction t with
  | nil => exact hp
  | cons x t ih =>
    rw [List.pairwise_cons] at hp
    rw [Table.erase]
    split
    · exact hp.2
    · exact List.pairwise_cons.2 ⟨fun a ha => hp.1 a (Table.mem_erase ha), ih hp.2⟩

/-- A write keeps the canonical form. -/
theorem Table.wf_set [DecidableEq α] (d : α) {t : Table α} (k : Nat) (v : α) (h : Table.Wf d t) : Table.Wf d (Table.set d t k v) := by
  rw [Table.set]
  split
  · exact Table.wf_erase d k h
  · rename_i hv; exact Table.wf_put d k hv h

theorem Table.wf_modify [DecidableEq α] (d : α) {t : Table α} (k : Nat) (f : α → α) (h : Table.Wf d t) : Table.Wf d (Table.modify d t k f) :=
  Table.wf_set d k _ h

/-- Keeping some of the entries keeps the canonical form. -/
theorem Table.wf_keep (d : α) {t : Table α} (p : Nat → α → Bool) (h : Table.Wf d t) : Table.Wf d (Table.keep p t) :=
  ⟨h.1.filter _, fun e he => h.2 e (List.mem_of_mem_filter he)⟩

theorem Table.wf_mapVals [DecidableEq α] (d : α) {t : Table α} (f : Nat → α → α) (h : Table.Wf d t) : Table.Wf d (Table.mapVals d f t) := by
  refine ⟨?_, fun e he => by simpa using (List.mem_filter.1 he).2⟩
  have h1 : (t.map fun e => (e.1, f e.1 e.2)).Pairwise (fun a b => a.1 < b.1) := List.pairwise_map.2 h.1
  exact h1.filter _

/-- Canonical tables that read alike at every index are the same list. -/
theorem Table.ext_of_get (d : α) {t u : Table α} (ht : Table.Wf d t) (hu : Table.Wf d u) (h : ∀ k, Table.get d t k = Table.get d u k) : t = u := by
  induction t generalizing u with
  | nil =>
    cases u with
    | nil => rfl
    | cons y u =>
      have := h y.1
      rw [Table.get_nil, Table.get, if_pos rfl] at this
      exact absurd this.symm (hu.2 y (by simp))
  | cons x t ih =>
    obtain ⟨tp, td⟩ := ht
    rw [List.pairwise_cons] at tp
    cases u with
    | nil =>
      have := h x.1
      rw [Table.get_nil, Table.get, if_pos rfl] at this
      exact absurd this (td x (by simp))
    | cons y u =>
      obtain ⟨up, ud⟩ := hu
      rw [List.pairwise_cons] at up
      have hxy : x.1 = y.1 := by
        by_contra hne
        rcases Nat.lt_or_gt_of_ne hne with hlt | hlt
        · have := h x.1
          rw [Table.get, if_pos rfl, Table.get_below d (y :: u) x.1] at this
          · exact td x (by simp) this
          · intro e he
            rcases List.mem_cons.1 he with he | he
            · rw [he]; exact hlt
            · exact lt_trans hlt (up.1 e he)
        · have := h y.1
          rw [Table.get_below d (x :: t) y.1, Table.get, if_pos rfl] at this
          · exact ud y (by simp) this.symm
          · intro e he
            rcases List.mem_cons.1 he with he | he
            · rw [he]; exact hlt
            · exact lt_trans hlt (tp.1 e he)
      have hv : x.2 = y.2 := by
        have := h x.1
        rwa [Table.get, if_pos rfl, Table.get, if_pos hxy.symm] at this
      have htail : t = u := by
        refine ih ⟨tp.2, fun e he => td e (by simp [he])⟩ ⟨up.2, fun e he => ud e (by simp [he])⟩ fun k => ?_
        by_cases hk : x.1 = k
        · rw [Table.get_below d t k fun e he => hk ▸ tp.1 e he, Table.get_below d u k fun e he => hk ▸ hxy ▸ up.1 e he]
        · have := h k
          rwa [Table.get, if_neg hk, Table.get, if_neg (hxy ▸ hk)] at this
      rw [htail, Prod.ext hxy hv]

end Sys2Proof.Machine
end

