-- ==== Sys2Proof/WellFormed.lean ====
section
/-!
DEFINITION. Well-formed commands: every operand fits the field that the spec gives it.  A command that is not well formed is not one that
the hardware could receive; the meanings are total all the same.
-/

namespace Sys2Proof

/-- A value fits a field of `w` bits. -/
def fitsBits (w n : Nat) : Bool := decide (n < 2 ^ w)

/-- A packet (R356): a header of 16 bytes, and a payload of at most 4 096 bytes, a multiple of 4. -/
def headerWf (l : HwlHeader) : Bool := decide (l.head.length = 16 ∧ l.payload.length ≤ 4096 ∧ l.payload.length % 4 = 0)

/-- A side-band request: a 16-bit EtherType, header fields as wide as Table 13.10 has them, and at most 16 attempts of its answer (R422). -/
def sbReqWf (r : SbReq) : Bool :=
  fitsBits 16 r.etherType && fitsBits 8 r.version && fitsBits 8 r.kind && fitsBits 16 r.length && fitsBits 32 r.peerId && fitsBits 8 r.frag &&
    fitsBits 8 r.frags && decide (r.collisions ≤ 16)

/-- A message header (Table 13.10). -/
def ethMsgWf (m : EthMsg) : Bool :=
  fitsBits 8 m.version && fitsBits 8 m.kind && fitsBits 16 m.length && fitsBits 32 m.peerId && fitsBits 4 m.epoch && fitsBits 32 m.seq &&
    fitsBits 32 m.ackSeq && fitsBits 8 m.frag && fitsBits 8 m.frags && decide (m.cmac.length = 16)

/-- An Ethernet frame: 48-bit addresses, a 12-bit VID, a 16-bit EtherType. -/
def ethFrameWf (f : EthFrame) : Bool :=
  fitsBits 48 f.dst && fitsBits 48 f.src && f.vid.all (fitsBits 12) && fitsBits 16 f.etherType &&
    (match f.content with
      | .message m => ethMsgWf m
      | .udp ip port _ => fitsBits 32 ip && fitsBits 16 port
      | _ => true)

/-- A relay bundle (Table 4.13): a CMAC of 16 bytes, and counts that fit their fields. -/
def bundleWf (b : RelayBundle) : Bool := fitsBits 16 b.entryCount && fitsBits 32 b.totalLength && decide (b.cmac.length = 16)

/-- An ingest frame (Tables 4.1, 4.2): sources 0 to 10, an FCS kind of two bits. -/
def frameWf (f : Frame) : Bool := decide (f.src ≤ 10) && fitsBits 2 f.fcsKind

/-- Campaign-start arguments (Table 16.9). -/
def campaignWf (a : CampaignArgs) : Bool :=
  fitsBits 8 a.campaign && fitsBits 8 a.slot && fitsBits 16 a.blockSize && fitsBits 8 a.rounds && fitsBits 32 a.roundGap &&
    fitsBits 32 a.activateAt && decide (a.gmns.length < 65536)

/-- Enrolment arguments (Table 13.5). -/
def enrolWf (a : EnrolArgs) : Bool :=
  fitsBits 8 a.meterGroup && fitsBits 8 a.rating && fitsBits 8 a.balGroup && fitsBits 8 a.regPhase && fitsBits 8 a.radio &&
    fitsBits 8 a.chan && fitsBits 8 a.keySlot

/-- A trigger's template (Table 10.6). -/
def templateWf (m : TriggerTemplate) : Bool := fitsBits 8 m.kind && fitsBits 6 m.priority && fitsBits 2 m.eclass && fitsBits 3 m.exec

/-- Bytes of a space: 16 MiB of registers, 32 MiB of BAR2, 40 bits of the device's map (R15, R25, R399). -/
def Space.size : Space → Nat
  | .bar0 => 0x1000000
  | .bar2 => 0x2000000
  | .bar4 => 0x4000
  | .device => 2 ^ 40

/-- What a start finds: four sensors, sixteen chip enables, three Troika units. -/
def startWf (e : StartEnv) : Bool := decide (e.temps.length = 4 ∧ e.nand.length ≤ 16 ∧ e.troika.length = 3)

/-- A PLC frame copy: at most 2 048 bytes (R250), one of four modulations, eight sub-band levels (R265). -/
def copyWf (c : PlcCopy) : Bool := decide (c.bytes.length ≤ 2048 ∧ c.modulation < 4 ∧ c.levels.length = 8)

/-- The arguments of a job fit the fields of Table 13.5. -/
def jobBodyWf : JobBody → Bool
  | .readMeter _ _ priority medium => fitsBits 8 priority && fitsBits 8 medium
  | .snapshotGroup group all lead _ => fitsBits 8 group && fitsBits 8 all && fitsBits 16 lead
  | .registerRead offset words => fitsBits 32 offset && fitsBits 16 words
  | .meterStateRead _ _ => true
  | .attest _ => true
  | .cancel _ => true
  | .trigger entry source due period template => templateWf template && fitsBits 8 entry && fitsBits 8 source && fitsBits 48 due && fitsBits 32 period
  | .pulse output startSec startNs period width => fitsBits 8 output && fitsBits 64 startSec && fitsBits 32 startNs && fitsBits 32 period && fitsBits 32 width
  | .hostTime sec ns => fitsBits 64 sec && fitsBits 32 ns
  | .balanceMembership _ group regPhase ex => fitsBits 8 group && fitsBits 8 regPhase && fitsBits 8 ex
  | .bundleSubmit b => bundleWf b
  | .pushTariffSet slot _ => fitsBits 8 slot
  | .creditChange _ amount => decide (-(2 ^ 63) ≤ amount ∧ amount < 2 ^ 63)
  | .disconnect _ => true
  | .reconnect _ force => fitsBits 8 force
  | .legalRelease _ mode => fitsBits 8 mode
  | .enrolMeter a => enrolWf a
  | .removeMeter _ => true
  | .keyChange _ keySlot _ _ => fitsBits 8 keySlot
  | .counterReset _ _ _ => true
  | .designate range _ _ => fitsBits 8 range
  | .claimOwnership => true
  | .releaseOwnership => true
  | .forgetCoordinate => true
  | .wallTimeStep window maxStep => fitsBits 32 window && fitsBits 32 maxStep
  | .clearLog log => fitsBits 8 log
  | .openExpertSession duration => fitsBits 32 duration
  | .debugToken _ => true
  | .updateDelivery _ offset total part block _ => fitsBits 32 offset && fitsBits 32 total && fitsBits 8 part && decide (block.length ≤ 1048576)
  | .campaignStart a => campaignWf a
  | .reset _ cls => fitsBits 8 cls
  | .bootHeaderWrite _ _ => true
  | .unknown jobCode => fitsBits 8 jobCode

/-- A job: its identifier is a field of its type; its arguments fit. -/
def jobWf (j : Job) : Bool := jobBodyWf j.body

/-- Every operand of a command fits its field. -/
def Instr.wellFormed : Instr → Bool
  | .powerUpSequence _ => true
  | .mainRailTimeout _ => true
  | .mainRailDrop _ => true
  | .powerOnReset e _ => startWf e
  | .hrst e _ => startWf e
  | .wrm _ => true
  | .holdComplete e _ => startWf e
  | .holdTimeout e _ => startWf e
  | .bootWatchdogExpiry e _ => startWf e
  | .appHeartbeat _ => true
  | .watchdogPending _ => true
  | .sysWatchdogExpiry _ => true
  | .swpEscalation _ => true
  | .legalWatchdogExpiry _ => true
  | .legalWatchdogEscalation _ => true
  | .pfailNChange _ _ => true
  | .modeEvaluation vscap powerMw _ => fitsBits 16 vscap && fitsBits 32 powerMw
  | .gaspFullerDeadline _ => true
  | .standbyEntry _ => true
  | .rideTimeExpiry _ => true
  | .temperatureSample _ _ _ _ _ => true
  | .thermalClear _ => true
  | .wakeNLow e _ => startWf e
  | .standbyMainsReturn _ e _ => startWf e
  | .thermalWake e _ => startWf e
  | .zeroCrossing _ w _ _ => decide (w.at0 < w.at1)
  | .phaseAbsent _ _ => true
  | .syntheticCycle _ => true
  | .rtcTick _ => true
  | .operatingTimeTick _ => true
  | .operatingTimePersist _ => true
  | .aonTimeRefresh _ => true
  | .sync _ _ sub _ => decide (sub ≤ 406)
  | .followUp _ _ _ => true
  | .delayResp _ _ _ => true
  | .delayReqSend _ sub _ => decide (sub ≤ 406)
  | .ptpAnnounce _ _ _ => true
  | .masterTimeout _ _ _ => true
  | .proportionalEnd _ => true
  | .stepPermitExpiry _ => true
  | .leapSecond _ => true
  | .expertSessionExpiry _ => true
  | .nonceExpiry _ => true
  | .pulseInstant _ _ => true
  | .pulseFall _ _ => true
  | .launch _ _ _ _ launchNs _ _ => decide (launchNs < 1000000000)
  | .beaconLaunch _ => true
  | .rfBeaconLaunch _ _ => true
  | .ingestFrame f => frameWf f
  | .steering => true
  | .creditReturn _ => true
  | .bundleSplit _ => true
  | .contextFill _ _ _ => true
  | .laneProcessing _ _ _ => true
  | .firmwareRecordBuild _ _ _ _ => true
  | .contextOperation _ _ => true
  | .contextRestore _ => true
  | .mirrorRecord _ _ => true
  | .bundleClose _ _ => true
  | .validate _ _ => true
  | .recordRelease _ _ => true
  | .troikaUpdate _ _ _ _ _ => true
  | .voteTimeout _ _ => true
  | .safeStateTestsDone _ _ _ _ => true
  | .forcedClosure _ _ => true
  | .feederDeltas _ _ => true
  | .friendlyPeriodEnd _ => true
  | .troikaRebuild _ _ => true
  | .displayFrame _ _ _ _ => true
  | .supplyConfirmation _ _ _ => true
  | .balRecord _ => true
  | .channelEstimate _ => true
  | .intervalResult _ _ => true
  | .snapshotCollectRead _ => true
  | .snapshotResult _ => true
  | .componentLapse _ _ => true
  | .copyReceived _ c _ => copyWf c
  | .combineWindowClose _ _ => true
  | .ackTransmit _ => true
  | .ack _ _ _ => true
  | .ackWaitExpiry _ => true
  | .csmaBackoffEnd _ => true
  | .discWindowExpiry _ => true
  | .tollbookExpiry _ => true
  | .rfCopyReceived _ _ => true
  | .enhAckTransmit _ => true
  | .enhAck _ _ _ _ => true
  | .rfAckWaitExpiry _ _ => true
  | .csmaCaAttempt _ _ _ => true
  | .slotExchange _ _ _ => true
  | .slotMiss _ _ => true
  | .longPreambleExchange _ _ _ => true
  | .dutyHoldRelease _ _ => true
  | .issue _ _ _ => true
  | .txnDeadline _ _ => true
  | .retryRelease _ => true
  | .quarantineEnd _ _ => true
  | .scheduleRun _ => true
  | .taskPost kind priority eclass exec _ _ _ => fitsBits 8 kind && fitsBits 6 priority && fitsBits 2 eclass && fitsBits 4 exec
  | .taskRetire _ _ => true
  | .fullerAccept _ => true
  | .flushTimer _ => true
  | .pageProgram _ _ => true
  | .programFail _ _ _ => true
  | .eraseFail block _ _ => fitsBits 32 block
  | .sectorRead lsa _ _ _ _ => fitsBits 32 lsa
  | .gcBatch _ => true
  | .checkpointComplete _ _ => true
  | .counterSnapshot _ => true
  | .rebuildDone _ _ _ => true
  | .blockLock _ _ _ => true
  | .lockLoss _ _ _ => true
  | .portRetrainTimer _ _ => true
  | .hello l _ => headerWf l
  | .helloAck l _ => headerWf l
  | .coordinateAssign _ => true
  | .announceTimer _ => true
  | .announce l _ => headerWf l
  | .memberExpiry _ _ => true
  | .pair l _ => headerWf l
  | .pairTimeout _ => true
  | .heartbeatSend _ => true
  | .heartbeat l _ => headerWf l
  | .leave l _ => headerWf l
  | .partnerTimeout _ => true
  | .mrec l _ => headerWf l
  | .mest l _ => headerWf l
  | .mfeed l _ => headerWf l
  | .mjob l _ _ _ => headerWf l
  | .mctx l jb _ => headerWf l && jobBodyWf jb
  | .cut l _ => headerWf l
  | .msync l _ => headerWf l
  | .handback l _ => headerWf l
  | .mack l _ => headerWf l
  | .mnak l _ _ => headerWf l
  | .mirrorGapTimer _ => true
  | .syncReq l _ => headerWf l
  | .digest l _ => headerWf l
  | .digestReq l _ => headerWf l
  | .digestResult l _ => headerWf l
  | .fwdEntry l _ _ => headerWf l
  | .seqReq l _ _ => headerWf l
  | .actionReq l _ => headerWf l
  | .job l j _ => headerWf l && jobWf j
  | .report l _ _ => headerWf l
  | .resetPacket l j _ => headerWf l && jobWf j
  | .chainData l _ _ _ => headerWf l
  | .chainAck l _ => headerWf l
  | .chainResult l _ => headerWf l
  | .chainAckTimeout _ => true
  | .credit _ _ _ units _ => fitsBits 16 units
  | .linkWordAck _ _ _ => true
  | .linkWordNak _ _ _ => true
  | .actOwnInChange _ _ => true
  | .arbWindowExpiry _ => true
  | .arbBackoffExpiry _ => true
  | .queryRetry _ => true
  | .cqTailWrite _ _ _ _ => true
  | .rqEnable _ _ _ _ => true
  | .rqDisable _ _ _ _ => true
  | .rqHeadWrite _ _ _ _ => true
  | .reportIssue _ => true
  | .coalesceTimer _ _ => true
  | .reportHoldExpiry _ => true
  | .pciePerstN _ speed width _ => decide (speed ≤ 4) && decide (width ≤ 4)
  | .ethernetFrame _ f _ => ethFrameWf f
  | .messageResend _ _ _ => true
  | .standaloneAck _ _ _ => true
  | .bundleResend _ => true
  | .gateChange _ _ => true
  | .identify r _ => sbReqWf r
  | .status r _ => sbReqWf r
  | .aonCounters r _ => sbReqWf r
  | .time r _ => sbReqWf r
  | .readLog r log first count _ => sbReqWf r && fitsBits 8 log && fitsBits 32 first && fitsBits 8 count
  | .sidebandWake r e _ => sbReqWf r && startWf e
  | .sidebandReset r j _ => sbReqWf r && jobWf j
  | .sidebandJob r _ b _ => sbReqWf r && jobBodyWf b
  | .readMeter _ _ _ priority medium _ => fitsBits 8 priority && fitsBits 8 medium
  | .snapshotGroup _ group all lead _ _ => fitsBits 8 group && fitsBits 8 all && fitsBits 16 lead
  | .registerRead _ offset words _ => fitsBits 32 offset && fitsBits 16 words
  | .meterStateRead _ _ _ _ => true
  | .attest _ _ _ => true
  | .cancel _ _ _ => true
  | .trigger _ entry source due period template _ => templateWf template && fitsBits 8 entry && fitsBits 8 source && fitsBits 48 due && fitsBits 32 period
  | .pulse _ output startSec startNs period width _ => fitsBits 8 output && fitsBits 64 startSec && fitsBits 32 startNs && fitsBits 32 period && fitsBits 32 width
  | .hostTime _ sec ns _ => fitsBits 64 sec && fitsBits 32 ns
  | .balanceMembership _ _ group regPhase ex _ => fitsBits 8 group && fitsBits 8 regPhase && fitsBits 8 ex
  | .bundleSubmit _ b _ => bundleWf b
  | .pushTariffSet _ slot _ _ => fitsBits 8 slot
  | .creditChange _ _ amount _ => decide (-(2 ^ 63) ≤ amount ∧ amount < 2 ^ 63)
  | .disconnect _ _ _ => true
  | .reconnect _ _ force _ => fitsBits 8 force
  | .legalRelease _ _ mode _ => fitsBits 8 mode
  | .enrolMeter _ a _ => enrolWf a
  | .removeMeter _ _ _ => true
  | .keyChange _ _ keySlot _ _ _ => fitsBits 8 keySlot
  | .counterReset _ _ _ _ _ => true
  | .designate _ range _ _ _ => fitsBits 8 range
  | .claimOwnership _ _ => true
  | .releaseOwnership _ _ => true
  | .forgetCoordinate _ _ => true
  | .wallTimeStep _ window maxStep _ => fitsBits 32 window && fitsBits 32 maxStep
  | .clearLog _ log _ => fitsBits 8 log
  | .openExpertSession _ duration _ => fitsBits 32 duration
  | .debugToken _ _ _ => true
  | .updateDelivery _ _ offset total part block _ _ => fitsBits 32 offset && fitsBits 32 total && fitsBits 8 part && decide (block.length ≤ 1048576)
  | .campaignStart _ a _ => campaignWf a
  | .reset _ _ cls _ => fitsBits 8 cls
  | .bootHeaderWrite _ _ _ _ => true
  | .deliveryIdleTimeout _ => true
  | .probationDeadline _ => true
  | .healthConfirmation _ => true
  | .campaignRound _ _ => true
  | .campaignBlock _ _ => true
  | .statusRound _ _ => true
  | .keyDestroy _ _ _ => true
  | .keyPurge _ => true
  | .eventPortSubmit _ _ _ _ => true
  | .legalPortSubmit _ _ _ => true
  | .bufferProgram _ _ _ => true
  | .lowWordRead sp _ _ a size _ => decide (a < sp.size) && decide (size ≤ 8)
  | .registerWrite sp _ a size _ _ => decide (a < sp.size) && decide (size ≤ 8)
  | .aonSupplyLoss _ => true
  | .ethLinkChange _ _ _ _ => true
  | .linkAckTimer _ _ => true
  | .mirrorAckTimer _ => true
  | .blockErase block _ => fitsBits 32 block
  | .preambleDetection _ _ _ _ => true

end Sys2Proof
end

