-- ==== Sys2Proof/Tests/Slice0.lean ====
section
/-!
SUPPORT. Tests: an ill-formed command for each check of WellFormed, commands whose effect the spec's own text or tables give, and for each
statement states and operands that meet its hypotheses.
-/

set_option maxRecDepth 100000
set_option Elab.async false

namespace Sys2Proof.Tests

open Sys2Proof Sys2Proof.Machine

/-! ## Small objects that the witnesses share -/

/-- A reading of meter 5, type 1, with its RCK made good. -/
def reading : Record :=
  let r : Record := ⟨5, 0, 1, 9, 100, 0, 0, 0, 10, 0, 0, 0, 2300, 5, 0, 0, 1, 40, 0, 0, 0, 0, 0, 0, 0⟩
  sealRecord r

/-- The material of key slot 8, under which the meter's keys are wrapped. -/
def kek : List Byte := List.replicate 32 0x11

/-- The meter's encryption key, sixteen bytes 0x22, wrapped under `kek`. -/
def wrappedEk : BitVec 192 := 0xa4e101d4799e07228840e8b6695e19b7c37c15e70650cb3c

/-- Its authentication key, sixteen bytes 0x33, wrapped under `kek`. -/
def wrappedAk : BitVec 192 := 0xc49cd074d6a429664d95930e39f869f916db6397c0f56eab

/-- Active context of meter 5, title 1. -/
def meter : Context :=
  { Context.empty with gmn := 5, state := .active, title := 1, keySlot := 8, keyGen := 1, ekWrapped := wrappedEk, akWrapped := wrappedAk }

/-- A VCR envelope of the meter with counter `ic`: its body in the clear, authenticated (R122). -/
def vcr (ic : Nat) (body : List Byte) : Apdu :=
  let head : List Byte := [0xB7, 0x10] ++ leBytes 4 ic ++ leBytes 2 body.length
  let title := leBytes 8 1
  head ++ body ++ (gcmTag (List.replicate 16 0x22) (title ++ leBytes 4 ic) (List.replicate 16 0x33 ++ head ++ body) []).take 12

/-- The body of a Vorius compact record of TYPE 1. -/
def vcrBody : List Byte :=
  [1, 1] ++ leBytes 4 9 ++ leBytes 4 0 ++ leBytes 6 0 ++ leBytes 5 10 ++ leBytes 15 0 ++ leBytes 2 2300 ++ leBytes 2 5 ++ List.replicate 8 0

/-- An APDU of the meter with counter 7. -/
def apdu : Apdu := vcr 7 vcrBody

/-- A PLC frame as ING receives it. -/
def frame (b : FrameBody) : Frame := ⟨0, some 5, false, false, 100, 0, 40, 0, 1, 0xFFFF, 0, 0, true, [], b⟩

/-- The meter's APDU in one. -/
def apduFrame : Frame := frame (.apdu [] apdu [])

/-- It in line. -/
def queued (f : Frame) : Ticketed := ⟨0, fifoData (frameData f), .frame f⟩

/-- An entry of a relay bundle: a record of meter 5. -/
def entry : RelayEntry := ⟨5, false, false, 40, 0, 1, 100, 0, 0, .record reading⟩

/-- The material of key slot 0, under which a sender's bundles and a peer's messages go. -/
def peerKey : List Byte := List.replicate 16 0x44

/-- A bundle with its CMAC. -/
def sealed (b : RelayBundle) : RelayBundle := { b with cmac := aesCmac peerKey (bundleBody b) }

/-- A relay bundle of sender 3. -/
def bundle : RelayBundle := sealed ⟨bundleMagic, 1, 1, 132, 3, 1, 100, false, false, false, [entry], []⟩

/-- A feeder record of phase 1. -/
def feeder : FeederRecord := ⟨1, 1, 1, 100, 0, 0, [10, 0, 0, 0], 2300, 5, false, false, false, false, 0, 25, 0⟩

/-- A start on which all goes well. -/
def start : StartEnv :=
  ⟨0, none, true, true, true, true, [25, 25, 25, 25], true, true, List.replicate 16 none, [], [], [], [], true, [true, true, true], [], 3, 8⟩

/-- A certificate of every authority, with subject key 4, signed by anchor key 3. -/
def cert : Cert :=
  ⟨beBytes 444 0x565841430100bc01ffffffff00000000010000000000000000000000000000000000000000000000040035b5df64ae2ac204c354b483487c9070cdc61c891c5ff39afc06c5d55541d3ceac8659e24afe3d0750e8b88e9f078af066a1d5025b08e5a5e2fbc87412871902f30082096f84261279d2b673e0178eb0b4abb65521aef6e6e32e1b5ae63fe2f19907f279f283e54ba385405224f750a95b85eebb7faef04699d1d9e21f47fc346e4d0d0000000401a73d352443de29195dd91d6a64b5959479b52a6e5b123d9ab9e5ad7a112d7a8dd1ad3f164a3a4832051da6bd16b59fe21baeb490862c32ea05a5919d2ede37ad7d013e9b03b97dfa62ddd9979f86c6cab814f2f1557fa82a9d0317d2f8ab1fa355ceec2e2dd4cf8dc575b02d5aced1dec3c70cf105c9bc93a590425f588ca1ee86c0e500000000652bf3c52927a432c73dbc3391c04eb0bf7a596efdb53f0d24cf03dab8f177ace4383c0c6d5e3014237112feaf137e79a329d7e1e6d8931738d5ab5096ec8f307800a31ce63ab8227da9efc53c4aa07368b330b21c387248e0f33bcf325ff32c6f630b0365e47bbf409efcac185c882f2ca9d94f772143a17007060d8244d705733b6d⟩

/-- The header of a host job. -/
def hdr : JobHdr := ⟨.cq 0, 7, 0, false, false, 0, 0, 0, 0, 0, none⟩

/-- Where its answers go. -/
def ref : JobRef := hdr.ref

/-- The header of a host job with its length and DCRC. -/
def hdrOf (b : JobBody) : JobHdr := (withDcrc ⟨{ hdr with attachLen := BitVec.ofNat 32 (jobData b).length }, b⟩).hdr

/-- The envelope of a job, before its signature, for the device with serial 9. -/
def envelope (b : JobBody) : Envelope :=
  let n := (jobData b).length
  ⟨0x4A535856, 1, 64, 9, 0, 604800, 77, BitVec.ofNat 32 n, BitVec.ofNat 32 (align8 (64 + n)), 0, List.replicate (align8 (64 + n) - 64 - n) 0, cert, 0,
    List.replicate 132 0⟩

/-- The header of a job with its envelope, its signature by subject key 4, and its DCRC.  The signatures stand written out: they were made
with private key 4 and random number 6, and `State.signedReason` verifies each one. -/
def signed (b : JobBody) (sig : Nat) : JobHdr :=
  let e := { envelope b with sig := beBytes 132 sig }
  (withDcrc ⟨{ hdr with envelope := some e, attachLen := e.certOffset + 580 }, b⟩).hdr

/-- A head-end that runs, with command queue 0 open and one job in it. -/
def running : State :=
  { State.reset with
    pwr.mode := .run, pwr.startInProgress := false, boot.stage := 15, boot.headEnd := true, boot.locked := true
    host.queuesOpen := true, host.cqs := [⟨0, 1⟩, ⟨0, 0⟩, ⟨0, 0⟩, ⟨0, 0⟩], sec.fuses.serial := 9, sec.fuses.anchors := [cert.anchorKey, 0, 0, 0]
    hwl.assigned := true
    sec.slots := [(0, ⟨peerKey, 1, 0, 0, 0, 0, 0⟩), (8, ⟨kek, 2, 2, 0, 0, 1, 0⟩)]
    ing.creditsOpen := true, ing.restoring := false, sb.up := true, sb.link := true }

/-- It holds meter 5. -/
def holding : State := { running with ctx := [(5, meter)] }

/-- A side-band request to the device with serial 9, with so many bytes of arguments. -/
def requestOf (n : Nat) : SbReq := ⟨1, 0xFFFFFFFFFFFF, 0x88B5, 50 + n, true, 1, 6, 8 + n, 0, 0, 1, 3, 0, false⟩

/-- A side-band request without arguments. -/
def request : SbReq := requestOf 0

/-- A packet from node 1 for this node, node 0, on port 0. -/
def packet (typ : Nat) (tag : BitVec 32) (bs : List Byte) : HwlHeader :=
  let k : HwlPacket := ⟨typ, typeVc typ, 0, false, 0, 1, 0, tag, bs⟩
  ⟨0, packetHeader 0 k, bs, crc32c (packetHeader 0 k ++ bs)⟩

/-- A body as such a packet. -/
def fromNode1 (b : HwlBody) : HwlHeader := packet b.typ 0 b.payload

/-- The port of it is UP and has credits for every class, node 1 is the partner and reached through it. -/
def linked : State :=
  { holding with
    hwl.ports := { HwlPort.atReset with state := .up, blockLock := true, credits := (List.range 12).map fun k => (k, 85) } ::
      List.replicate 3 HwlPort.atReset
    hwl.routes := [(1, ⟨0, true, false, 1⟩)], hwl.paired := true, hwl.checkWiring := true, hwl.ownRange := true, ing.credits := List.replicate 11 100 }

/-- Its port has yet to come up. -/
def greeting (p : PortState) : State :=
  { linked with hwl.ports := { HwlPort.atReset with state := p, blockLock := true } :: List.replicate 3 HwlPort.atReset }
/-- A PTP message of master 7, sequence 4. -/
def ptpHdr : PtpHdr := ⟨0, 0, 7, 4, 0⟩

/-- An Ethernet port that is on, with its link up. -/
def portOn : EthPort := ⟨1, true, false, 0xFF, false, 0, [], []⟩

/-- PTP runs on port 0. -/
def ptp : State := { running with tim.running := true, cfg := [], eth.ports := List.replicate 2 portOn }

/-- Troika accepts updates, with one record in line. -/
def billing : State :=
  { holding with bil.restoring := false, cfg := [(iCreditAction, [0, 0, 0, 0])], bil.queue := [.record 0 5 reading 50 none [some 10, none, none, none]] }

/-- A rejected record. -/
def rejected : Record := { reading with verdict := 2 }

/-- A tariff set in force from the start of 2020, with one rate, under an authority's certificate. -/
def tariff : TariffSet :=
  let z (n : Nat) : List Byte := List.replicate n 0
  let head := leBytes 4 0x53545856 ++ leBytes 2 1 ++ leBytes 2 64 ++ leBytes 4 772 ++ leBytes 4 1 ++ leBytes 4 1 ++ leBytes 4 1 ++ leBytes 2 0 ++
    [0x45, 0x55, 0x52] ++ [1, 1, 1, 0] ++ [1] ++ leBytes 2 0 ++ leBytes 4 0 ++ leBytes 4 192 ++ leBytes 4 640 ++ z 16
  let rate := [1, 0, 0, 0] ++ leBytes 4 0 ++ z 28 ++ leBytes 4 100 ++ z 28
  let body := head ++ rate ++ ([1, 1] ++ z 10) ++ z 44 ++ z 4 ++ cert.bytes ++ z 4
  ⟨body ++ beBytes 132
    0x822c40fb6301f7262a8348396b010e25bd4e29d8a9b003e0a8b8a3b05f826298f5bfea5b8579f49f08b598c1bc8d79e1ab56289b5a6f4040586f9ea54aa78ce6800442cb5e048820c5db657b9373d68416d1a14ce7747b3dae2a41480925554e8ba7b39673a8492b8de8a5ec68e40c8d6e0d316e0ece73899681df2c2fcb173bf1013⟩

/-- The power line and both radios are on. -/
def onAir : State := { holding with cfg := [(iPlcBand, [1]), (iRf0Band, [1]), (iRf1Band, [1]), (iPanId, [0, 0])], now := 1000000 }

/-- A chip enable of 1 024 blocks. -/
def chip : NandCe := ⟨16384, 1024, 64, 1024, 1, 0, 8, true, 5⟩

/-- The store on CE 0. -/
def store : State :=
  { holding with
    ful.used := [0], ful.ces := some chip :: List.replicate 15 none, ful.formatted := true
    ful.rebuilding := false, ful.control := some ⟨false, 70, 64, 64, 1000, 1000⟩ }

/-- Port 0 of Ethernet, with peer 0, in its first epoch. -/
def eth0 : State :=
  { running with
    eth.ports := List.replicate 2 portOn, eth.assocs := [(0, ⟨some 1, 0, 4, [], [], [], false, false⟩)]
    cfg := [(iEthertype, [0xB5, 0x88]), (iBcastEth0, [1]), (iPeer 0, [1, 0, 0, 0, 0, 0, 0, 4, 8, 0, 0, 0, 0, 0, 0, 0])] }

/-- A message of peer 0 with its CMAC. -/
def ethMsg (b : EthBody) : EthMsg :=
  let m : EthMsg := ⟨1, b.kind, b.bytes.length, 8, 1, 0, 4, 0, 0, 1, b.bytes, [], b⟩
  { m with cmac := aesCmac peerKey (messageCovered m) }

/-- A frame of that peer. -/
def ethFrame (b : EthBody) : EthFrame := ⟨0xFFFFFFFFFFFF, 1, none, 0x88B5, 64, true, .message (ethMsg b)⟩

/-- Its head-end owns the pair's meters, and mirrors. -/
def owning : State := { linked with hwl.owner := true }

/-- An enrolment of meter 6. -/
def enrol : EnrolArgs := ⟨6, 0, 0, 0, 0, false, false, 0, 0, 8, 2, wrappedEk, wrappedAk⟩

/-- A good boot header. -/
def header : BootHeader :=
  let z (n : Nat) : List Byte := List.replicate n 0
  let timing : List Byte := [9, 9, 9, 9, 20, 0, 30, 0, 4, 4, 16, 10, 2, 6, 5, 0, 200, 0, 208, 7, 0, 0, 60] ++ z 41
  let body := leBytes 4 0x48425856 ++ leBytes 2 1 ++ leBytes 2 256 ++ [0, 0] ++ leBytes 2 0 ++ [3, 0, 0, 0] ++ [4, 1, 8, 0] ++ leBytes 4 2400 ++ timing ++
    leBytes 2 1 ++ [0, 0, 3] ++ z 159
  ⟨body ++ leBytes 4 (crc32c body).toNat⟩

/-- Arguments of a campaign. -/
def campArgs : CampaignArgs := ⟨0, 0, 1, false, false, 0, 128, 2, 60, 0, 0, [5]⟩

/-- An image of 300 bytes. -/
def image : MeterImage := ⟨1, 1, List.replicate 300 0⟩

/-- A campaign of it. -/
def campaign (p : CampPhase) : Campaign := ⟨1, campArgs, image, ref, p, 0, 0, [], 0, 0, [⟨5, .pending, false, [], false, false, 0⟩]⟩

/-- The campaign's task runs. -/
def campaigning (c : Campaign) : State :=
  { running with
    upd.campaigns := [(1, some c)]
    cch.executors := ⟨some ⟨25, 0, 0, 0, 0, 1, 0⟩, false, 0, []⟩ :: List.replicate 15 ⟨none, false, 0, []⟩ }

/-- An update record in probation. -/
def probation : UpdRecord := { updIdle with state := .probation, deadline := 5, pendingFloors := [2, 0, 0, 0, 0] }

/-- A copy of a PLC DATA frame for this node, from slot address 5, that asks for an ACK. -/
def plcCopy : PlcCopy :=
  ⟨withCrc32 (plcHeader 0 true none true 0 0 0 0 5 0xFFFE 1 [] ++ apdu), 0, 0xFFFFFF, [], 0, 100, List.replicate 24 0, List.replicate 8 0, true, []⟩

/-- It as a chain heard it. -/
def plcHeard : PlcHeard :=
  ⟨1, plcCopy, (plcParse plcCopy.bytes).getD ⟨0, false, none, false, 0, 0, 0, 0, 0, 0, 0, [], [], [], []⟩, false, none, ⟨0, 0, false, false⟩, 0⟩

/-- A copy of a mesh DATA frame for this node from the same meter, one hop away. -/
def meshCopy : MeshCopy :=
  ⟨0, 0, false, 0, withCrc32 (macHeader 1 false true 1 0 0xFFFD 5 ++ ([0x50, 0x11, 0, 1] ++ leBytes 2 5 ++ leBytes 2 0xFFFE ++ leBytes 2 1) ++ apdu),
   -200, 0, true, []⟩

/-- It as it was heard. -/
def meshHeard : MeshHeard :=
  ⟨meshCopy, (meshParse meshCopy.bytes).getD ⟨0, 0, 0, 0, false, 0, false, false, none, none, 0, 0, 0, 0, 0, 0, 0, 0, [], [], []⟩, 80, ⟨0, 0, false, false⟩⟩

/-- A chain that is inside a frame whose header decoded. -/
def chainBusy : PlcChain := ⟨some ⟨9000000, true, 10, none⟩, 0⟩

/-- A PLC frame in line. -/
def plcTx : PlcTx := ⟨.keepAlive, [], none, 7, 1, none, 0, 3, 0, 0, none, false, 0⟩

/-- A mesh frame in line, for the meter at index 5. -/
def meshTx : MeshTx := ⟨.request 0, apdu, some 5, 7, 0, 0, 1, 1, .unicast, 0, 3, 0, 0, false, false, 0⟩

/-- A read request for meter 5. -/
def readRequest : Request := ⟨5, .read 1, 0, 0, true, none, none, none, .plc, none, none⟩

/-- A passage of a phase voltage through zero at an instant. -/
def swing (t : Nat) : ZcWave := ⟨-3000000, 3000000, 0, 1000, t, t + 96⟩

/-- A cycle of MET in which nothing flowed. -/
def quiet : List MetCycle := [⟨List.replicate 7 (List.replicate 4 0)⟩]

/-- A VCR envelope of the meter, enciphered and authenticated (R122). -/
def vcrSealed (ic : Nat) (body : List Byte) : Apdu :=
  let head : List Byte := [0xB7, 0x30] ++ leBytes 4 ic ++ leBytes 2 body.length
  let iv := leBytes 8 1 ++ leBytes 4 ic
  let cipher := gcmCrypt (List.replicate 16 0x22) iv body
  head ++ cipher ++ (gcmTag (List.replicate 16 0x22) iv (List.replicate 16 0x33 ++ head) cipher).take 12

/-- An entry of the firmware ring. -/
def fwEntry : FwEntry := ⟨5, 3, 1, 0, apduFrame, apdu, crc32c apdu, none⟩

/-- A frame that brings a relay bundle. -/
def bundleFrame (b : RelayBundle) : Frame := frame (.bundle b none)

/-- It in line. -/
def bundleIn (b : RelayBundle) : Ticketed := ⟨0, [], .frame (bundleFrame b)⟩

/-- A node that knows the sender of the bundle. -/
def relayNode : State := { running with cfg := [(iSender 2, [3, 0, 0, 0, 0, 0, 0, 0])] }

/-- A frame in lane 1. -/
def inLane (i : Option Nat) (w : Bool) (x : LaneBody) : LaneItem := ⟨i, w, ⟨0, [], x⟩⟩

/-- Context 5 is cached in way 0. -/
def cachedMeter : State :=
  { holding with ing.cache := [(129, ⟨some 0 :: List.replicate 7 none, List.replicate 8 false, List.replicate 7 false⟩)] }

/-- A record in VAL's queue. -/
def inVal (r : Record) : ValItem := ⟨5, 100, false, r, false, none, none⟩

/-- A record held for release. -/
def valHeld : ValHeld := ⟨{ inVal reading with mirrored := true }, [], none, [], { meter.val with valid := true }, none⟩

/-- A chain whose frame has just ended, its header decoded. -/
def rxDone : PlcRx := ⟨9, true, 10, none⟩

/-- All four receive chains have one. -/
def hearing : State := { onAir with plc.chains := List.replicate 4 ⟨some rxDone, 0⟩ }

/-- A PLC ACK for frame 1 that this node awaits. -/
def ackBytes : List Byte := plcAckBytes false 0 0 0xFFFE 1 0 0

/-- A packet from node 1 that is flooded. -/
def floodPacket (b : HwlBody) : HwlHeader :=
  let k : HwlPacket := ⟨b.typ, b.vc, 0, true, 63, 1, 0, 0, b.payload⟩
  ⟨0, packetHeader 0 k, b.payload, crc32c (packetHeader 0 k ++ b.payload)⟩

/-- A neighbour's HELLO. -/
def helloPeer (fabric : Nat) : List Byte := helloBytes ⟨4, fabric, 1, none⟩ (List.replicate 16 0)

/-- A node that has sent a HELLO on port 0 and waits for the answer. -/
def awaitingHello : State :=
  { linked with
    cfg := [(iFabricId, [9, 0, 0, 0])]
    hwl.ports := { HwlPort.atReset with state := .hello, blockLock := true, helloSent := List.replicate 48 0 } :: List.replicate 3 HwlPort.atReset }

/-- A digest cut of a range. -/
def cutOver (range : Nat) : Cut := ⟨3, range, 0, true, [], [], [], []⟩

/-- A chain relay with this node at its head. -/
def chainHead : Chain := ⟨9, 200, [], none, none, some 1, 52, 0, 0, none, [], none⟩

/-- A job that reads no registers. -/
def probeJob : Job := ⟨hdrOf (.registerRead 0 0), .registerRead 0 0⟩

/-- A reset of this device, signed. -/
def resetJob : Job := ⟨signed (.reset 0 0) 0x1ee4569d6cdb59219532eff34f94480d195623d30977fd71cf3981506ade4ab01525fbcca16153f7394e0727a239531be8c2f66e95657f380ae23731bedf79206b901f447f7615ecf53937130271d447fe79e2109f3cc98d5e644b18956185781a854288a009a57ac8c42047e3a4708c137053254ed906f28d9a15b49cfe282aade7668, .reset 0 0⟩

/-- A report that waits for report queue 1. -/
def modeReport : WaitingReport := ⟨.rq 1, ⟨.mode 1 0 0, .none, false, false, false, 0, 0⟩, 0, false⟩

/-- A port that has sent a message which its peer has not acknowledged. -/
def sending (resends : Nat) : State :=
  { eth0 with eth.assocs := [(0, ⟨some 1, 5, 4, [⟨4, .bundleAck 3 1, resends, 5⟩], [], [], true, false⟩)] }

/-- The frame in which it sends a message. -/
def sentFrame (seq : Nat) (b : EthBody) : EthSent := ((sending 2).messageFrames 0 seq b).headD ⟨0, 0, 0, 0, none, 0, []⟩

/-- An Ethernet frame that waits for its gate. -/
def gated : EthSent := ⟨0, 7, 1, 2, none, 0x88B5, [1]⟩

/-- The contents of a debug token of one right. -/
def tokenBytes : List Byte := leBytes 4 0x54445856 ++ leBytes 2 1 ++ [1] ++ List.replicate 9 0

/-- The opening block of a delivery. -/
def openingBlock : JobBody := .updateDelivery 7 0 400 0 (List.replicate 100 1) false

/-- The delivery that it opens. -/
def delivery : Delivery := ⟨0, 7, 400, List.replicate 100 1, .cq 0, false, 0⟩

/-- Its next block. -/
def laterBlock : JobBody := .updateDelivery 7 100 400 0 (List.replicate 100 1) false

/-! ## Witnesses of the statements -/

/-- The signature of the witnesses' certificate verifies. -/
theorem cert_signed : cert.sigOk = true := by decide +kernel

/-- A job with an envelope that was made like `envelope` passes its checks, where its signature verifies. -/
theorem envelope_passes (s : State) (j : Job) (e : Envelope) (a : Authority)
    (he : e.cert = cert ∧ e.notBefore = 0 ∧ e.notAfter = 604800 ∧ e.targetSerial = 9 ∧ e.nonce = 77)
    (hl : envelopeLayoutOk e (jobData j.body).length j.hdr.attachLen.toNat = true)
    (hv : envelopeSigned e (jobHead j) (jobData j.body) = true)
    (hr : certCarries cert a = true ∧ s.serial = 9 ∧ s.tim.valid = false ∧ s.nonceHeld 77 = false ∧ s.sec.nonces.length < 4096 ∧
      cert.wellFormed = true ∧ s.sec.fuses.anchors.getD cert.anchor.val 0 ≠ 0 ∧ s.sec.fuses.anchors.getD cert.anchor.val 0 = cert.anchorKey ∧
      s.sec.fuses.revoke.getLsbD cert.anchor.val = false ∧ s.sec.fuses.certFloor.getD cert.anchor.val 0 * 2 ^ 26 ≤ cert.serial.toNat ∧
      s.listedRevoked cert = false) : s.envelopeReason j e a = none := by
  obtain ⟨hca, hs, ht, hn, hm, c1, c2, c3, c4, c5, c6⟩ := hr
  obtain ⟨e1, e2, e3, e4, e5⟩ := he
  have d := decide_eq_true (And.intro c2 c3)
  have hc : s.acceptsCert cert = true := by
    simp only [State.acceptsCert, Fuses.accepts, cert_signed, c1, d, c4, c6, decide_eq_true c5, Bool.not_false, Bool.and_self]
  have hn' : s.nonceHeld e.nonce = false := by rw [e5]; exact hn
  have hm' : ¬4096 ≤ s.sec.nonces.length := by omega
  unfold State.envelopeReason
  simp [hl, hv, e1, e2, e3, e4, hc, hca, hs, ht, hn', hm']

/-- A signed job of the witnesses passes the checks of its envelope, where its own signature verifies. -/
theorem signed_passes (s : State) (b : JobBody) (sig : Nat) (a : Authority)
    (hv : envelopeSigned { envelope b with sig := beBytes 132 sig } (jobHead ⟨signed b sig, b⟩) (jobData b) = true)
    (ha : jobAuthority b.code = some a)
    (hl : envelopeLayoutOk { envelope b with sig := beBytes 132 sig } (jobData b).length (signed b sig).attachLen.toNat = true)
    (hr : certCarries cert a = true ∧ s.serial = 9 ∧ s.tim.valid = false ∧ s.nonceHeld 77 = false ∧ s.sec.nonces.length < 4096 ∧
      cert.wellFormed = true ∧ s.sec.fuses.anchors.getD cert.anchor.val 0 ≠ 0 ∧ s.sec.fuses.anchors.getD cert.anchor.val 0 = cert.anchorKey ∧
      s.sec.fuses.revoke.getLsbD cert.anchor.val = false ∧ s.sec.fuses.certFloor.getD cert.anchor.val 0 * 2 ^ 26 ≤ cert.serial.toNat ∧
      s.listedRevoked cert = false) : s.signedReason ⟨signed b sig, b⟩ = none := by
  have e := envelope_passes s ⟨signed b sig, b⟩ { envelope b with sig := beBytes 132 sig } a ⟨rfl, rfl, rfl, rfl, rfl⟩ hl hv hr
  show (match jobAuthority b.code with
    | none => none
    | some a => s.envelopeReason ⟨signed b sig, b⟩ { envelope b with sig := beBytes 132 sig } a) = none
  rw [ha]
  exact e

/-- It is then accepted, where its kind and its right are. -/
theorem takes_signed (s : State) (n : Fin 4) (b : JobBody) (sig : Nat)
    (hv : s.signedReason ⟨signed b sig, b⟩ = none)
    (hj : (((JobHdr.source (signed b sig) = .cq n ∧ n.val < s.host.cqs.length ∧ s.cqTurn n.val = true ∧
      dcrcOk ⟨signed b sig, b⟩ = true ∧ (signed b sig).jobId ≠ 0 ∧ jobEncodingOk b = true ∧ s.attachOk ⟨signed b sig, b⟩ = true ∧
      s.carriedTo (signed b sig) = none ∧ s.bundleWaits b = false ∧ s.resetElsewhere b = none) ∧
      acceptedIn b.code s.pwr.mode s.boot.reduced = true) ∧ s.lackedRight 0 b = none) ∧
      (s.pwr.mode = .recovery ∨ (s.post (s.jobTask b.code)).2 = true)) : s.takesJob n ⟨signed b sig, b⟩ :=
  ⟨hj.1.1.1, hj.1.1.2, hj.1.2, hv, hj.2⟩

/-- What `State.sbTakes` asks, as one decidable fact. -/
theorem takes_of (s : State) (r : SbReq) (args : Nat) (right : Option (Nat × Nat))
    (h : (s.sbOpen = true ∧ r.fcsOk = true ∧ s.sbAccepts r = true ∧ s.sbCached r = none ∧ s.sbExecuting r = false ∧ sbFormatOk r args = true ∧
      (s.sb.outstanding.filter fun o => decide (o.mac = r.mac)).length < 4) ∧
      (right.all fun x => s.accGranted 3 x.1 x.2) = true) : s.sbTakes r args right := by
  obtain ⟨⟨a, b, c, d, e, f, g⟩, k⟩ := h
  refine ⟨a, b, c, d, e, f, g, fun x hx => ?_⟩
  subst hx
  simpa using k

/-- States and operands that meet the hypotheses of each clause of PairsAreReadLowWordFirst. -/
theorem test_meets_PairsAreReadLowWordFirst :
    (∃ (s : State) (m : Master) (lo : Nat) (hi : Nat), hi ∈ latchedBy lo ∧ s.checkAccess m lo 4 0 = .open ∧ s.checkAccess m hi 4 0 = .open ∧ Table.get
    none s.latches (latchKey lo m) = none) ∧
    (∃ (u : State) (m : Master) (lo : Nat) (hi : Nat) (w : Word), hi ∈ latchedBy lo ∧ u.checkAccess m hi 4 0 = .open ∧ Table.get none u.latches
    (latchKey hi m) = some w) ∧
    (∃ (s : State) (m : Master) (hi : Nat), s.checkAccess m hi 4 0 = .open ∧ Table.get none s.latches (latchKey hi m) = none) :=
  ⟨⟨running, 0, 0x080014, 0x080018, by decide +kernel⟩,
    ⟨{ running with latches := [(latchKey 0x080018 0, some 9)] }, 0, 0x080014, 0x080018, 9, by decide +kernel⟩,
    ⟨running, 0, 0x080018, by decide +kernel⟩⟩

/-- States and operands that meet the hypotheses of each clause of AccessesAreWholeAlignedWords. -/
theorem test_meets_AccessesAreWholeAlignedWords :
    (∃ (a : Nat) (size : Nat), pageListed a = true ∧ (a % 4 ≠ 0 ∨ size ≠ 4)) ∧
    (∃ (a : Nat) (size : Nat), pageListed a = true ∧ (a % 4 ≠ 0 ∨ size ≠ 4)) ∧
    (∃ (s : State) (m : Master) (a : Nat), s.checkAccess m a 4 0 = .open ∧ regRowAt a = none ∧ Table.get none s.latches (latchKey a m) = none) ∧
    (∃ (s : State) (m : Master) (a : Nat), s.checkAccess m a 4 1 = .open ∧ regRowAt a = none) :=
  ⟨⟨0x060006, 4, by decide +kernel⟩,
    ⟨0x060008, 2, by decide +kernel⟩,
    ⟨running, 0, 0x060FF0, by decide +kernel⟩,
    ⟨running, 0, 0x060FF0, by decide +kernel⟩⟩

/-- States and operands that meet the hypotheses of each clause of ReferenceNumberStopsAtItsEnd. -/
theorem test_meets_ReferenceNumberStopsAtItsEnd :
    (∃ (s : State) (t : Nat), s.cyc.running = true ∧ s.cyc.mains = false ∧ s.cyc.lastAt + s.cyc.period ≤ max s.now t ∧ s.cyc.num = 2 ^ 48 - 1) ∧
    (∃ (s : State) (t : Nat), s.cyc.running = true ∧ s.cyc.mains = false ∧ s.cyc.lastAt + s.cyc.period ≤ max s.now t ∧ s.cyc.num < 2 ^ 48 - 1) ∧
    (∃ (s : State) (p : Fin 3) (w : ZcWave) (t : Nat) (a : Nat) (z : Nat), s.cyc.running = true ∧ s.swings w = true ∧ z = min (max s.now t) (zcInstant
    w) ∧ (s.cyc.phase p.val).lastAccepted = some a ∧ (s.cyc.phase p.val).present = true ∧ s.cyc.source = p.val ∧ s.cyc.pendingSource = none ∧
    s.cyc.nominalDecided = true ∧ s.cyc.period ≤ 2 * (z - a) ∧ s.inWindow (z - a) = true ∧ s.cyc.period < 2 * (z - s.cyc.lastAt) ∧ s.cyc.num = 2 ^
    48 - 1) ∧
    (∃ (s : State) (p : Fin 3) (w : ZcWave) (t : Nat) (a : Nat) (z : Nat), s.cyc.running = true ∧ s.swings w = true ∧ z = min (max s.now t) (zcInstant
    w) ∧ (s.cyc.phase p.val).lastAccepted = some a ∧ (s.cyc.phase p.val).present = true ∧ s.cyc.source = p.val ∧ s.cyc.pendingSource = none ∧
    s.cyc.nominalDecided = true ∧ s.cyc.period ≤ 2 * (z - a) ∧ s.inWindow (z - a) = true ∧ s.cyc.period < 2 * (z - s.cyc.lastAt) ∧ s.cyc.num < 2 ^
    48 - 1) :=
  ⟨⟨{ State.reset with cyc.running := true, cyc.num := 2 ^ 48 - 1 }, 491520, by decide +kernel⟩,
    ⟨{ State.reset with cyc.running := true, cyc.num := 2 ^ 48 - 2 }, 491520, by decide +kernel⟩,
    ⟨{ State.reset with cyc.running := true, cyc.phases := List.replicate 3 ⟨some 0, some 0, 5, true, 0, [], []⟩, cyc.source := 0, cyc.nominalDecided := true, cyc.num := 2 ^ 48 - 1 },
    0, swing 491520, 491520, 0, 491520, by decide +kernel⟩,
    ⟨{ State.reset with cyc.running := true, cyc.phases := List.replicate 3 ⟨some 0, some 0, 5, true, 0, [], []⟩, cyc.source := 0, cyc.nominalDecided := true, cyc.num := 2 ^ 48 - 2 },
    0, swing 491520, 491520, 0, 491520, by decide +kernel⟩⟩

/-- States and operands that meet the hypotheses of each clause of SuppliesStartAndStopTheDevice. -/
theorem test_meets_SuppliesStartAndStopTheDevice :
    (∃ (s : State), s.pins.aonReset = false) ∧
    (∃ (s : State) (t : Nat), s.pins.pwrEnMain = true ∧ s.pins.mainOk = false ∧ s.pins.railAt + 50 * ticksPerMs ≤ max s.now t ∧ s.pins.railAttempts < 2) ∧
    (∃ (s : State) (t : Nat), s.pins.pwrEnMain = true ∧ s.pins.mainOk = false ∧ s.pins.railAt + 50 * ticksPerMs ≤ max s.now t ∧ 2 ≤ s.pins.railAttempts) ∧
    (∃ (s : State), s.pins.pwrEnMain = true ∧ s.pins.mainOk = true) ∧
    (∃ (s : State), s.pins.aonReset = true) :=
  ⟨⟨{ State.reset with pins.aonReset := false }, by decide +kernel⟩,
    ⟨{ State.reset with pins.pwrEnMain := true, pins.mainOk := false }, 1228800, by decide +kernel⟩,
    ⟨{ State.reset with pins.pwrEnMain := true, pins.mainOk := false, pins.railAttempts := 2 }, 1228800, by decide +kernel⟩,
    ⟨running, by decide +kernel⟩,
    ⟨running, by decide +kernel⟩⟩

/-- States and operands that meet the hypotheses of each clause of ResetsAndWakesLatchTheirClass (part 1). -/
theorem test_meets_ResetsAndWakesLatchTheirClass_1 :
    (∃ (s : State) (t : Nat), s.pins.aonReset = true ∧ s.pins.pwrEnMain = true ∧ s.pins.railAt ≤ max s.now t ∧ s.pins.wakePending = false) ∧
    (∃ (s : State) (e : StartEnv), s.pins.aonReset = true ∧ e.rails = true) ∧
    (∃ (s : State) (h : Hold), s.rst.hold = some h) ∧
    (∃ (s : State) (t : Nat) (h : Hold), s.rst.hold = some h ∧ h.since + 100 * ticksPerMs ≤ max s.now t) ∧
    (∃ (s : State) (t : Nat) (a : Nat), s.pwr.mode = .boot ∧ s.boot.halted = false ∧ s.boot.watchdogAt = some a ∧ a + 10 * ticksPerSec ≤ max s.now t) :=
  ⟨⟨State.reset, 0, by decide +kernel⟩,
    ⟨running, start, by decide +kernel⟩,
    ⟨{ running with rst.hold := some ⟨.swf, 0, true⟩ }, ⟨.swf, 0, true⟩, by decide +kernel⟩,
    ⟨{ running with rst.hold := some ⟨.wdg, 0, false⟩ }, 2457600, ⟨.wdg, 0, false⟩, by decide +kernel⟩,
    ⟨{ State.reset with pwr.mode := .boot, boot.stage := 3, boot.watchdogAt := some 0 }, 245760000, 0, by decide +kernel⟩⟩

/-- States and operands that meet the hypotheses of each clause of ResetsAndWakesLatchTheirClass (part 2). -/
theorem test_meets_ResetsAndWakesLatchTheirClass_2 :
    (∃ (s : State) (e : StartEnv), s.pwr.mode = .standby ∧ s.pins.wakePending = false ∧ s.pwr.thermalStandby = false ∧ e.rails = true) ∧
    (∃ (s : State), s.pwr.mode = .standby ∧ s.pins.wakePending = false ∧ s.pwr.thermalStandby = true ∧ s.pwr.coolSince = none) ∧
    (∃ (s : State) (periods : List Nat) (e : StartEnv), s.pwr.mode = .standby ∧ s.pins.wakePending = false ∧ s.pwr.thermalStandby = false ∧
    s.pwr.gaspCause = 3 ∧ s.pwr.pfailLow = false ∨ s.crossingsReturn periods = true ∧ e.rails = true) ∧
    (∃ (s : State) (e : StartEnv) (t : Nat) (a : Nat), s.pwr.mode = .standby ∧ s.pins.wakePending = false ∧ s.pwr.wakeHeld = true ∧ s.pwr.coolSince =
    some a ∧ a + 60 * ticksPerSec ≤ max s.now t ∧ e.rails = true) :=
  ⟨⟨{ running with pwr.mode := .standby, pins.pwrEnMain := false, pins.mainOk := false }, start, by decide +kernel⟩,
    ⟨{ running with pwr.mode := .standby, pwr.thermalStandby := true }, by decide +kernel⟩,
    ⟨{ running with pwr.mode := .standby, pwr.gaspCause := 3 }, [], start, by decide +kernel⟩,
    ⟨{ running with pwr.mode := .standby, pwr.thermalStandby := true, pwr.wakeHeld := true, pwr.coolSince := some 0 }, start, 1474560000, 0, by
    decide +kernel⟩⟩

/-- States and operands that meet the hypotheses of each clause of WatchdogsHoldResetsForFuller (part 1). -/
theorem test_meets_WatchdogsHoldResetsForFuller_1 :
    (∃ (s : State), s.pwr.mode ≠ .gasp ∧ s.pwr.mode ≠ .standby ∧ s.rst.hold = none) ∧
    (∃ (s : State) (t : Nat), s.clusterRuns = true ∧ s.rst.hold = none ∧ s.rst.heartbeatAt + s.item iWdgTimeout * ticksPerMs ≤ max s.now t) ∧
    (∃ (s : State) (t : Nat) (a : Nat), s.clusterRuns = true ∧ s.rst.hold = none ∧ s.rst.swpAt = some a ∧ a + 2 * ticksPerSec ≤ max s.now t) ∧
    (∃ (s : State) (t : Nat) (a : Nat), s.pwr.mode ≠ .gasp ∧ s.pwr.mode ≠ .standby ∧ s.rst.hold = none ∧ s.lgc.watchdogAt = some a ∧ a + ticksPerSec ≤
    max s.now t) ∧
    (∃ (s : State), s.clusterRuns = true) :=
  ⟨⟨running, by decide +kernel⟩,
    ⟨running, 90000000000, by decide +kernel⟩,
    ⟨{ running with rst.swpAt := some 0 }, 49152000, 0, by decide +kernel⟩,
    ⟨{ running with lgc.watchdogAt := some 0 }, 24576000, 0, by decide +kernel⟩,
    ⟨running, by decide +kernel⟩⟩

/-- States and operands that meet the hypotheses of each clause of WatchdogsHoldResetsForFuller (part 2). -/
theorem test_meets_WatchdogsHoldResetsForFuller_2 :
    (∃ (s : State) (t : Nat), s.clusterRuns = true ∧ s.rst.heartbeatAt + ticksPerSec ≤ max s.now t) ∧
    (∃ (s : State) (t : Nat), s.lgc.running = true ∧ s.lgc.watchdogAt = none ∧ s.lgc.servedAt + 2 * ticksPerSec ≤ max s.now t) :=
  ⟨⟨running, 24576000, by decide +kernel⟩,
    ⟨{ State.reset with lgc.running := true }, 49152000, by decide +kernel⟩⟩

/-- States and operands that meet the hypotheses of each clause of ModesFollowTheirInputs (part 1). -/
theorem test_meets_ModesFollowTheirInputs_1 :
    (∃ (s : State), s.pwr.mode = .standby) ∧
    (∃ (s : State), s.pwr.mode = .boot ∧ s.boot.halted = false ∧ (s.tMaxIs fun x => decide ((s.item iShutdownC : Int) ≤ x)) = false) ∧
    (∃ (s : State) (mw : Nat), s.pwr.mode = .run ∧ s.boot.halted = false ∧ s.item iPowerCapMw ≠ 0 ∧ s.item iPowerCapMw < mw ∧ s.item iMainsSource = 1 ∧
    15 ≤ s.boot.stage ∧ s.pwr.pfailLow = false ∧ (s.tMaxIs fun x => decide ((s.item iShutdownC : Int) ≤ x)) = false) ∧
    (∃ (s : State) (mw : Nat), s.pwr.mode = .throttle ∧ s.boot.halted = false ∧ mw ≤ s.item iPowerCapMw ∧ s.pwr.overCap = false ∧ s.pwr.thermal = false
    ∧ s.pwr.testStart = false ∧ s.item iMainsSource = 1 ∧ 15 ≤ s.boot.stage ∧ s.pwr.pfailLow = false ∧ (s.tMaxIs fun x => decide ((s.item
    iShutdownC : Int) ≤ x)) = false) ∧
    (∃ (s : State) (t : Nat), s.pwr.mode = .ride ∧ s.boot.halted = false ∧ s.mainsPresent = false ∧ (s.advance t).rideOver = true ∧ 15 ≤ s.boot.stage ∧
    s.item iMainsSource = 1 ∧ (s.tMaxIs fun x => decide ((s.item iShutdownC : Int) ≤ x)) = false) :=
  ⟨⟨{ State.reset with pwr.mode := .standby }, by decide +kernel⟩,
    ⟨{ State.reset with boot.stage := 3 }, by decide +kernel⟩,
    ⟨{ running with cfg := [(iPowerCapMw, [1, 0, 0, 0])] }, 2, by decide +kernel⟩,
    ⟨{ running with pwr.mode := .throttle, cfg := [(iPowerCapMw, [4, 0, 0, 0])] }, 2, by decide +kernel⟩,
    ⟨{ running with pwr.mode := .ride, pwr.rideStart := some 0, pwr.pfailLow := true }, 900000000000, by decide +kernel⟩⟩

/-- States and operands that meet the hypotheses of each clause of ModesFollowTheirInputs (part 2). -/
theorem test_meets_ModesFollowTheirInputs_2 :
    (∃ (s : State) (t : Nat) (a : Nat), s.pwr.thermalClearSince = some a ∧ a + 10 * ticksPerSec ≤ max s.now t) ∧
    (∃ (s : State) (t : Nat) (a : Nat), s.pwr.gaspAt = some a ∧ s.pwr.mode = .gasp ∧ s.pwr.gaspStored = false ∧ a + 180 * ticksPerMs ≤ max s.now t) ∧
    (∃ (s : State) (t : Nat) (a : Nat), s.pwr.gaspAt = some a ∧ s.pwr.mode = .gasp ∧ a + 250 * ticksPerMs ≤ max s.now t) :=
  ⟨⟨{ State.reset with pwr.thermal := true, pwr.thermalClearSince := some 0 }, 245760000, 0, by decide +kernel⟩,
    ⟨{ running with pwr.mode := .gasp, pwr.gaspAt := some 0 }, 4423680, 0, by decide +kernel⟩,
    ⟨{ running with pwr.mode := .gasp, pwr.gaspAt := some 0 }, 6144000, 0, by decide +kernel⟩⟩

/-- States and operands that meet the hypotheses of each clause of CyclesAreNumbered. -/
theorem test_meets_CyclesAreNumbered :
    (∃ (s : State) (w : ZcWave), s.cyc.running = true ∧ s.swings w = false) ∧
    (∃ (s : State) (p : Fin 3) (w : ZcWave) (t : Nat) (a : Nat), s.cyc.running = true ∧ s.swings w = true ∧ (s.cyc.phase p.val).lastAccepted = some a ∧
    2 * (min (max s.now t) (zcInstant w) - a) < s.cyc.period) ∧
    (∃ (s : State) (p : Fin 3) (w : ZcWave) (t : Nat) (a : Nat) (z : Nat), s.cyc.running = true ∧ s.swings w = true ∧ z = min (max s.now t) (zcInstant
    w) ∧ (s.cyc.phase p.val).lastAccepted = some a ∧ (s.cyc.phase p.val).present = true ∧ s.cyc.source = p.val ∧ s.cyc.pendingSource = none ∧
    s.cyc.nominalDecided = true ∧ s.cyc.period ≤ 2 * (z - a) ∧ s.inWindow (z - a) = true ∧ s.cyc.period < 2 * (z - s.cyc.lastAt) ∧ s.cyc.num < 2 ^
    48 - 1) ∧
    (∃ (s : State) (p : Fin 3) (t : Nat) (v : Nat), s.cyc.running = true ∧ (s.cyc.phase p.val).present = true ∧ (s.cyc.phase p.val).lastValid = some v
    ∧ s.item iLossPeriods * s.cyc.period ≤ 10 * (max s.now t - v)) ∧
    (∃ (s : State) (t : Nat), s.cyc.running = true ∧ s.cyc.mains = false ∧ s.cyc.lastAt + s.cyc.period ≤ max s.now t ∧ s.cyc.num < 2 ^ 48 - 1) :=
  ⟨⟨{ State.reset with cyc.running := true }, ⟨0, 3000000, 0, 1000, 100000, 100096⟩, by decide +kernel⟩,
    ⟨{ State.reset with cyc.running := true, cyc.phases := List.replicate 3 ⟨some 0, none, 0, false, 0, [], []⟩ }, 0, swing 100000, 100000, 0, by
    decide +kernel⟩,
    ⟨{ State.reset with cyc.running := true, cyc.phases := List.replicate 3 ⟨some 0, some 0, 5, true, 0, [], []⟩, cyc.source := 0, cyc.nominalDecided := true },
    0, swing 491520, 491520, 0, 491520, by decide +kernel⟩,
    ⟨{ State.reset with cyc.running := true, cyc.phases := List.replicate 3 ⟨some 0, some 0, 5, true, 0, [], []⟩ }, 1, 4915200, 0, by decide +kernel⟩,
    ⟨{ State.reset with cyc.running := true }, 491520, by decide +kernel⟩⟩

/-- States and operands that meet the hypotheses of each clause of AonKeepsTime. -/
theorem test_meets_AonKeepsTime :
    (∃ (s : State), s.cyc.running = false ∧ s.cyc.rtcTrim = 0 ∧ s.cyc.trimAcc = 0 ∧ s.cyc.shadowAcc + s.nominalHz < 32768 ∧ s.cyc.shadow < 2 ^ 48) ∧
    (∃ (s : State), s.way.opTimeSaved + 3600 ≤ s.way.opTime) ∧
    (∃ (s : State) (t : Nat), s.tim.running = true ∧ s.tim.aonAt + ticksPerSec ≤ max s.now t) :=
  ⟨⟨State.reset, by decide +kernel⟩,
    ⟨{ State.reset with way.opTime := 3600 }, by decide +kernel⟩,
    ⟨{ State.reset with tim.running := true }, 24576000, by decide +kernel⟩⟩

/-- States and operands that meet the hypotheses of each clause of PtpMessagesAreTaken. -/
theorem test_meets_PtpMessagesAreTaken :
    (∃ (s : State) (h : PtpHdr), s.ptpHeard h = true ∧ h.port.val < s.tim.ports.length) ∧
    (∃ (s : State) (h : PtpHdr) (y : PtpSync), s.ptpHeard h = true ∧ (s.tim.port h.port).sync = some y ∧ y.master = h.master ∧ y.seq = h.seq ∧
    (s.tim.port h.port).exchange = none) ∧
    (∃ (s : State) (h : PtpHdr) (t3 : Int), s.ptpHeard h = true ∧ (s.tim.port h.port).request = some (h.seq, t3) ∧ s.tim.master = some (h.port,
    h.master)) ∧
    (∃ (s : State) (p : Fin 2) (t : Nat) (bits : Nat) (c : Fin 8) (m : BitVec 64), s.ptpPortOn p = true ∧ s.tim.master = some (p, m) ∧ (s.tim.port
    p).requestAt = none ∧ p.val < s.tim.ports.length ∧ c = s.txClass p.val 0 ∧ bits = delayReqBits (s.ethTag p.val c.val) (s.item iPtpTransport) ∧
    (s.advance t).gateFits p.val c bits = true ∧ (s.advance t).gateOpenFor p.val c bits (s.advance t).wallNs = true) ∧
    (∃ (s : State) (h : PtpHdr), s.ptpHeard h = true ∧ h.port.val < s.tim.ports.length) :=
  ⟨⟨ptp, ptpHdr, by decide +kernel⟩,
    ⟨{ ptp with tim.ports := List.replicate 2 ⟨[], some ⟨7, 4, 900, 0⟩, 0, none, none, none, 0⟩ }, ptpHdr, ⟨7, 4, 900, 0⟩, by decide +kernel⟩,
    ⟨{ ptp with tim.master := some (0, 7), tim.ports := List.replicate 2 ⟨[], none, 0, some (4, 900), none, none, 0⟩ }, ptpHdr, 900, by
    decide +kernel⟩,
    ⟨{ ptp with tim.master := some (0, 7) }, 0, 5, delayReqBits (ptp.ethTag 0 (ptp.txClass 0 0).val) (ptp.item iPtpTransport), ptp.txClass 0 0, 7, by
    decide +kernel⟩,
    ⟨ptp, ptpHdr, by decide +kernel⟩⟩

/-- States and operands that meet the hypotheses of each clause of TimedStatesEndAndOutputsAct (part 1). -/
theorem test_meets_TimedStatesEndAndOutputsAct_1 :
    (∃ (s : State) (t : Nat) (a : Nat), s.tim.propUntil = some a ∧ a ≤ max s.now t) ∧
    (∃ (s : State) (t : Nat) (p : StepPermit), s.tim.permit = some p ∧ p.opened + p.window * ticksPerSec ≤ max s.now t) ∧
    (∃ (s : State) (t : Nat), s.tim.running = true ∧ s.tim.leap ≠ 0 ∧ s.tim.leapEnd ≤ ((s.advance t).wallSec : Int)) ∧
    (∃ (s : State) (t : Nat) (a : Nat), s.boot.expertUntil = some a ∧ a ≤ max s.now t) ∧
    (∃ (s : State), s.tim.valid = true) :=
  ⟨⟨{ State.reset with tim.running := true, tim.propUntil := some 3 }, 5, 3, by decide +kernel⟩,
    ⟨{ State.reset with tim.running := true, tim.permit := some ⟨0, 1, 10, ref⟩ }, 24576000, ⟨0, 1, 10, ref⟩, by decide +kernel⟩,
    ⟨{ State.reset with tim.running := true, tim.leap := 1 }, 86400000000000000, by decide +kernel⟩,
    ⟨{ State.reset with boot.expertUntil := some 3 }, 5, 3, by decide +kernel⟩,
    ⟨{ State.reset with tim.valid := true, sec.nonces := [(7, 0, none), (8, 5, some 0)] }, by decide +kernel⟩⟩

/-- States and operands that meet the hypotheses of each clause of TimedStatesEndAndOutputsAct (part 2). -/
theorem test_meets_TimedStatesEndAndOutputsAct_2 :
    (∃ (s : State) (o : Fin 2) (t : Nat) (i : Nat), s.tim.running = true ∧ o.val < s.tim.pulses.length ∧ (s.tim.pulse o.val).width ≠ 0 ∧ (s.tim.pulse
    o.val).instant (s.tim.pulse o.val).next = some i ∧ i ≤ (s.advance t).wallNs) ∧
    (∃ (s : State) (o : Fin 2) (t : Nat) (f : Nat), (s.tim.pulse o.val).fallAt = some f ∧ f ≤ (s.advance t).wallNs) ∧
    (∃ (s : State) (p : Fin 2) (c : Fin 8) (bytes : List Byte) (ns : Nat) (t : Nat), (s.ethPort p.val).link = true ∧ ⟨c.val, bytes, 0, ns⟩ ∉ (s.ethPort
    p.val).launches ∧ (s.advance t).gateFits p.val c (8 * bytes.length) = true ∧ (s.advance t).gateOpenFor p.val c (8 * bytes.length) (s.advance
    t).wallNs = true) ∧
    (∃ (s : State) (p : Fin 2) (c : Fin 8) (bytes : List Byte) (sec : Nat) (ns : Nat) (t : Nat), (s.ethPort p.val).link = true ∧ p.val <
    s.eth.ports.length ∧ ⟨c.val, bytes, sec, ns⟩ ∉ (s.ethPort p.val).launches ∧ sec ≠ 0 ∧ (s.advance t).gateFits p.val c (8 * bytes.length) = true
    ∧ (s.advance t).wallNs < sec * 1000000000 + ns ∧ sec * 1000000000 + ns ≤ (s.advance t).wallNs + 10000000000) ∧
    (∃ (s : State) (p : Fin 2) (c : Fin 8) (bytes : List Byte) (sec : Nat) (ns : Nat) (t : Nat), (s.ethPort p.val).link = true ∧ ⟨c.val, bytes, sec,
    ns⟩ ∈ (s.ethPort p.val).launches ∧ sec ≠ 0 ∧ sec * 1000000000 + ns ≤ (s.advance t).wallNs ∧ (s.advance t).gateWait p.val c (8 * bytes.length)
    (sec * 1000000000 + ns) = 0) :=
  ⟨⟨{ State.reset with tim.running := true, tim.pulses := List.replicate 2 ⟨1, 0, 100, 0, false, none, 0⟩, tim.wall := 65536 * 5 }, 0, 5, 1, by
    decide +kernel⟩,
    ⟨{ State.reset with tim.pulses := List.replicate 2 ⟨1, 0, 100, 0, true, some 0, 0⟩ }, 0, 5, 0, by decide +kernel⟩,
    ⟨ptp, 0, 7, [1, 2], 0, 5, by decide +kernel⟩,
    ⟨{ ptp with tim.wall := 0 }, 0, 7, [1, 2], 1, 0, 5, by decide +kernel⟩,
    ⟨{ ptp with tim.wall := 65536000000000, eth.ports := List.replicate 2 { portOn with launches := [⟨7, [1, 2], 1, 0⟩] } }, 0, 7, [1, 2], 1, 0, 5, by
    decide +kernel⟩⟩

/-- States and operands that meet the hypotheses of each clause of TimedStatesEndAndOutputsAct (part 3). -/
theorem test_meets_TimedStatesEndAndOutputsAct_3 :
    ∃ (s : State) (p : Fin 2) (c : Fin 8) (bytes : List Byte) (sec : Nat) (ns : Nat) (t : Nat), (s.ethPort p.val).link = true ∧ ⟨c.val, bytes, sec,
    ns⟩ ∉ (s.ethPort p.val).launches ∧ (s.advance t).gateFits p.val c (8 * bytes.length) = false :=
  ⟨{ ptp with eth.ports := List.replicate 2 { portOn with gates := 0 }, cfg := [(iGclEth0, List.replicate 12 0 ++ [64, 66, 15, 0, 1, 0, 0, 0, 1, 0, 0, 0, 64, 66, 15, 0])] },
    0, 7, List.replicate 64 0, 0, 0, 5, by decide +kernel⟩

/-- States and operands that meet the hypotheses of each clause of FramesEnterInTicketOrder (part 1). -/
theorem test_meets_FramesEnterInTicketOrder_1 :
    (∃ (s : State) (f : Frame), f.src < s.ing.fifos.length ∧ f.src ≤ 10 ∧ s.frameFits f = true) ∧
    (∃ (s : State) (f : Frame), f.src ≤ 4 ∧ frameLen f ≤ frameLimit f.src ∧ s.frameFits f = false) ∧
    (∃ (s : State) (n : Nat) (x : Ticketed) (l : Nat) (i : Option Nat), s.pipeOff = false ∧ s.nextTicketed = some (n, x) ∧ s.steerTo x.body = .lane l i
    ∧ s.laneFull l = false ∧ l < s.ing.lanes.length) ∧
    (∃ (s : State) (n : Nat) (x : Ticketed), s.pipeOff = false ∧ s.nextTicketed = some (n, x) ∧ s.steerTo x.body = .splitter ∧ s.ing.splitter = []) ∧
    (∃ (s : State) (src : Fin 11), src.val < s.ing.credits.length ∧ src.val < s.ing.returning.length) :=
  ⟨⟨{ running with ing.credits := List.replicate 11 100 }, apduFrame, by decide +kernel⟩,
    ⟨{ running with ing.credits := List.replicate 11 0 }, apduFrame, by decide +kernel⟩,
    ⟨{ running with ing.fifos := [queued apduFrame] :: List.replicate 10 [] }, 0, queued apduFrame, 1, some 5, by decide +kernel⟩,
    ⟨{ running with ing.fifos := [queued (bundleFrame bundle)] :: List.replicate 10 [] }, 0, queued (bundleFrame bundle), by decide +kernel⟩,
    ⟨{ running with ing.returning := List.replicate 11 3 }, 2, by decide +kernel⟩⟩

/-- States and operands that meet the hypotheses of each clause of FramesEnterInTicketOrder (part 2). -/
theorem test_meets_FramesEnterInTicketOrder_2 :
    (∃ (s : State) (x : Ticketed) (f : Frame) (b : RelayBundle) (peer : Option (Fin 2 × Fin 32)) (k : Nat), s.pipeOff = false ∧ s.ing.splitter = [x] ∧
    x.body = .frame f ∧ f.faults.any parityLost = false ∧ f.body = .bundle b peer ∧ bundleFormatOk b = true ∧ s.findSender b.senderId.toNat = some
    k ∧ s.bundleVerifies b k = true ∧ b.seq ∉ (Table.get SenderState.fresh s.ing.senders k).seqs) ∧
    (∃ (s : State) (x : Ticketed) (f : Frame) (b : RelayBundle) (peer : Option (Fin 2 × Fin 32)) (k : Nat), s.pipeOff = false ∧ s.ing.splitter = [x] ∧
    x.body = .frame f ∧ f.faults.any parityLost = false ∧ f.body = .bundle b peer ∧ bundleFormatOk b = true ∧ s.findSender b.senderId.toNat = some
    k ∧ s.bundleVerifies b k = true ∧ b.seq ∈ (Table.get SenderState.fresh s.ing.senders k).seqs) ∧
    (∃ (s : State) (x : Ticketed) (f : Frame) (b : RelayBundle) (peer : Option (Fin 2 × Fin 32)), s.pipeOff = false ∧ s.ing.splitter = [x] ∧ x.body =
    .frame f ∧ f.body = .bundle b peer ∧ (f.faults.any parityLost = true ∨ bundleFormatOk b = false)) ∧
    (∃ (s : State) (t : Nat) (f : Nat) (boundary : Bool), s.ing.outFirst = some f ∧ s.ing.outEntries ≠ [] ∧ (boundary = true ∨ f + s.item iBundleHold *
    ticksPerMs ≤ max s.now t)) :=
  ⟨⟨{ relayNode with ing.splitter := [bundleIn bundle] }, bundleIn bundle, bundleFrame bundle, bundle, none, 2, by decide +kernel⟩,
    ⟨{ relayNode with ing.splitter := [bundleIn bundle], ing.senders := [(2, ⟨[1], 0, false⟩)] }, bundleIn bundle, bundleFrame bundle, bundle, none,
    2, by decide +kernel⟩,
    ⟨{ relayNode with ing.splitter := [bundleIn { bundle with magic := 0 }] }, bundleIn { bundle with magic := 0 }, bundleFrame
    { bundle with magic := 0 }, { bundle with magic := 0 }, none, by decide +kernel⟩,
    ⟨{ running with ing.outFirst := some 0, ing.outEntries := [entry], ing.outBytes := 96 }, 5, 0, true, by decide +kernel⟩⟩

/-- States and operands that meet the hypotheses of each clause of FillsAndBuiltRecordsEnd (part 1). -/
theorem test_meets_FillsAndBuiltRecordsEnd_1 :
    (∃ (s : State) (lane : Fin 4) (ecc : EccOutcome) (i : Nat) (w : Nat) (rest : List Nat), s.pipeOff = false ∧ ecc ≠ .uncorrectable ∧ s.laneFills
    lane.val = i :: rest ∧ i % 4 = lane.val ∧ (s.ctxAt i).crcOk = true ∧ s.keysUnwrap (s.ctxAt i) = true ∧ (s.cacheSet i).find (cacheTag i) = some
    w) ∧
    (∃ (s : State) (lane : Fin 4) (ecc : EccOutcome) (i : Nat) (rest : List Nat), s.pipeOff = false ∧ s.laneFills lane.val = i :: rest ∧ (ecc =
    .uncorrectable ∨ (s.ctxAt i).crcOk = false)) ∧
    (∃ (s : State) (e : FwEntry) (rest : List FwEntry), s.ing.fwRing = e :: rest ∧ e.frame.txnTag = 0xFFFF#16) ∧
    (∃ (s : State) (p : Parsed) (e : FwEntry) (rest : List FwEntry), s.ing.fwRing = e :: rest ∧ e.frame.txnTag = 0xFFFF#16 ∧ e.fck = crc32c e.stored ∧
    3 ≤ e.reason ∧ s.frameFits (builtFrame e (s.builtOf e p)) = true ∧ 10 < s.ing.fifos.length) ∧
    (∃ (s : State) (p : Parsed) (e : FwEntry) (rest : List FwEntry), s.ing.fwRing = e :: rest ∧ e.fck = crc32c e.stored ∧ 3 ≤ e.reason ∧ s.frameFits
    (builtFrame e (s.builtOf e p)) = false) :=
  ⟨⟨{ holding with ing.fills := [[], [5], [], []], ing.cache := [(129, ⟨some 0 :: List.replicate 7 none, true :: List.replicate 7 false, List.replicate 7 false⟩)] },
    1, .corrected, 5, 0, [], by decide +kernel⟩,
    ⟨{ holding with ing.fills := [[], [5], [], []] }, 1, .uncorrectable, 5, [], by decide +kernel⟩,
    ⟨{ holding with ing.fwRing := [fwEntry] }, fwEntry, [], by decide +kernel⟩,
    ⟨{ holding with ing.fwRing := [fwEntry], ing.credits := List.replicate 11 100 }, ⟨1, 9, 0, 0, [10, 0, 0, 0], 2300, 5, 0⟩, fwEntry, [], by
    decide +kernel⟩,
    ⟨{ holding with ing.fwRing := [fwEntry], ing.credits := List.replicate 11 0 }, ⟨1, 9, 0, 0, [10, 0, 0, 0], 2300, 5, 0⟩, fwEntry, [], by
    decide +kernel⟩⟩

/-- States and operands that meet the hypotheses of each clause of FillsAndBuiltRecordsEnd (part 2). -/
theorem test_meets_FillsAndBuiltRecordsEnd_2 :
    (∃ (s : State) (lane : Fin 4) (i : Nat) (x : LaneItem) (f : Frame) (r : Record), lane.val < s.val.queue.length ∧ s.pipeOff = false ∧ s.valRoom
    lane.val = true ∧ s.readyIn LaneBody.isMirror (s.lane lane.val) [] = some x ∧ x.item.body = .frame f ∧ f.faults.any parityLost = false ∧
    f.body = .mirror r ∧ x.index = some i ∧ recordOk r = true) ∧
    (∃ (s : State) (lane : Fin 4) (i : Nat) (x : LaneItem) (f : Frame) (r : Record), s.pipeOff = false ∧ s.valRoom lane.val = true ∧ s.readyIn
    LaneBody.isMirror (s.lane lane.val) [] = some x ∧ x.item.body = .frame f ∧ f.body = .mirror r ∧ x.index = some i ∧ (recordOk r = false ∨
    f.faults.any parityLost = true)) :=
  ⟨⟨{ holding with ing.lanes := [[], [inLane (some 5) false (.frame (frame (.mirror reading)))], [], []] }, 1, 5, inLane (some 5) false (.frame
    (frame (.mirror reading))), frame (.mirror reading), reading, by decide +kernel⟩,
    ⟨{ holding with ing.lanes := [[], [inLane (some 5) false (.frame (frame (.mirror { reading with rck := 0 })))], [], []] }, 1, 5, inLane (some 5)
    false (.frame (frame (.mirror { reading with rck := 0 }))), frame (.mirror { reading with rck := 0 }), { reading with rck := 0 }, by
    decide +kernel⟩⟩

/-- States and operands that meet the hypotheses of each clause of CountersAdvanceOnlyWithVerifiedFrames. -/
theorem test_meets_CountersAdvanceOnlyWithVerifiedFrames :
    (∃ (s : State) (lane : Fin 4) (badRead : Bool) (i : Nat) (x : LaneItem) (f : Frame) (h : List Byte) (a : List Byte) (c : List Byte) (plain : List
    Byte) (p : Parsed), lane.val < s.val.queue.length ∧ s.pipeOff = false ∧ s.valRoom lane.val = true ∧ s.readyIn LaneBody.isFrame (s.lane
    lane.val) [] = some x ∧ x.item.body = .frame f ∧ f.body = .apdu h a c ∧ x.index = some i ∧ (x.waiting = true ∨ (s.cached i = true ∧ badRead =
    false ∧ f.faults.any parityLost = false ∧ fcsHolds f = true)) ∧ f.txnTag = 0xFFFF#16 ∧ f.fckOk = true ∧ (s.ctxAt i).state = .active ∧ outerOk
    (s.groupByte (s.ctxAt i).group 1) (outerOf a).layer = true ∧ (outerOf a).malformed = false ∧ (outerOf a).sc = 0x30#8 ∧ (BitVec.ofNat 8
    (s.groupByte (s.ctxAt i).group 2)).getLsbD 0 = true ∧ ((outerOf a).layer = .generalGlo → (outerOf a).title = titleBytes (s.ctxAt i).title) ∧
    (s.ctxAt i).rxIc.toNat < (outerOf a).ic.toNat ∧ s.openApdu (s.ctxAt i) (outerOf a) = some plain ∧ s.parseInner (s.ctxAt i).group ((outerOf
    a).inner plain) = .record p) ∧
    (∃ (s : State) (lane : Fin 4) (badRead : Bool) (i : Nat) (x : LaneItem) (f : Frame) (h : List Byte) (a : List Byte) (c : List Byte), s.pipeOff =
    false ∧ s.valRoom lane.val = true ∧ s.readyIn LaneBody.isFrame (s.lane lane.val) [] = some x ∧ x.item.body = .frame f ∧ f.body = .apdu h a c ∧
    x.index = some i ∧ (x.waiting = true ∨ (s.cached i = true ∧ badRead = false)) ∧ (s.ctxAt i).state = .active ∧ outerOk (s.groupByte (s.ctxAt
    i).group 1) (outerOf a).layer = true ∧ (outerOf a).malformed = false ∧ (outerOf a).sc = 0x30#8 ∧ (BitVec.ofNat 8 (s.groupByte (s.ctxAt
    i).group 2)).getLsbD 0 = true ∧ (judgeIc (s.ctxAt i).rxIc (s.ctxAt i).window (s.groupByte (s.ctxAt i).group 3) (outerOf a).ic = .replayed ∨
    judgeIc (s.ctxAt i).rxIc (s.ctxAt i).window (s.groupByte (s.ctxAt i).group 3) (outerOf a).ic = .repeated ∨ ((outerOf a).layer = .generalGlo ∧
    (outerOf a).title ≠ titleBytes (s.ctxAt i).title) ∨ s.openApdu (s.ctxAt i) (outerOf a) = none)) :=
  ⟨⟨{ cachedMeter with cfg := [(iGroup 0, [0, 1, 1, 64])], ing.lanes := [[], [inLane (some 5) true (.frame (frame (.apdu [] (vcrSealed 7 vcrBody) [])))], [], []] },
    1, false, 5, inLane (some 5) true (.frame (frame (.apdu [] (vcrSealed 7 vcrBody) []))), frame (.apdu [] (vcrSealed 7 vcrBody) []), [],
    vcrSealed 7 vcrBody, [], vcrBody, ⟨1, 9, 0, 0, [10, 0, 0, 0], 2300, 5, 0⟩, by decide +kernel⟩,
    ⟨{ cachedMeter with cfg := [(iGroup 0, [0, 1, 1, 64])], ing.lanes := [[], [inLane (some 5) true (.frame (frame (.apdu [] (vcrSealed 0 vcrBody) [])))], [], []] },
    1, false, 5, inLane (some 5) true (.frame (frame (.apdu [] (vcrSealed 0 vcrBody) []))), frame (.apdu [] (vcrSealed 0 vcrBody) []), [],
    vcrSealed 0 vcrBody, [], by decide +kernel⟩⟩

/-- States and operands that meet the hypotheses of each clause of ContextsAreOperatedOn. -/
theorem test_meets_ContextsAreOperatedOn :
    (∃ (s : State) (lane : Fin 4) (i : Nat) (x : LaneItem) (g : Gmn) (rx : BitVec 32) (tx : BitVec 32) (m : Bool) (l : Fin 4), s.pipeOff = false ∧
    s.valEmpty lane.val = true ∧ (m = true ∨ 16384 ≤ i ∨ s.mirrorAwaited = false) ∧ s.readyIn LaneBody.isOp (s.lane lane.val) [] = some x ∧
    x.item.body = .op (.job (.counterReset g rx tx) none m) l ∧ x.index = some i ∧ (s.ctxAt i).state ≠ .empty) ∧
    (∃ (s : State) (lane : Fin 4) (i : Nat) (x : LaneItem) (l : Fin 4), s.pipeOff = false ∧ s.readyIn LaneBody.isOp (s.lane lane.val) [] = some x ∧
    x.item.body = .op (.freeze i true) l ∧ x.index = some i ∧ (s.ctxAt i).state = .active) ∧
    (∃ (s : State), s.ful.rebuilding = false ∧ s.ing.restoring = true) :=
  ⟨⟨{ holding with hwl.partnerLost := true, ing.lanes := [[], [inLane (some 5) false (.op (.job (.counterReset 5 8 9) none false) 1)], [], []] }, 1,
    5, inLane (some 5) false (.op (.job (.counterReset 5 8 9) none false) 1), 5, 8, 9, false, 1, by decide +kernel⟩,
    ⟨{ holding with ing.lanes := [[], [inLane (some 5) false (.op (.freeze 5 true) 1)], [], []] }, 1, 5, inLane (some 5) false (.op (.freeze 5 true)
    1), 1, by decide +kernel⟩,
    ⟨{ running with ing.restoring := true, ing.creditsOpen := false, ful.rebuilding := false }, by decide +kernel⟩⟩

/-- States and operands that meet the hypotheses of each clause of RecordsAreJudgedThenReleased. -/
theorem test_meets_RecordsAreJudgedThenReleased :
    (∃ (s : State) (lane : Fin 4) (v : ValItem) (rest : List ValItem) (j : Judgement), lane.val < s.val.held.length ∧ s.valHeld lane.val = none ∧
    s.val.queue.getD lane.val [] = v :: rest ∧ s.pipeOff = false ∧ 1 ≤ v.record.typ.toNat ∧ v.record.typ.toNat ≤ 4 ∧ recordOk v.record = true ∧
    s.judge (s.ctxAt v.index).val v.record = some j) ∧
    (∃ (s : State) (lane : Fin 4) (v : ValItem) (rest : List ValItem), s.pipeOff = false ∧ s.valHeld lane.val = none ∧ s.val.queue.getD lane.val [] = v
    :: rest ∧ 1 ≤ v.record.typ.toNat ∧ v.record.typ.toNat ≤ 4 ∧ (s.judge (s.ctxAt v.index).val v.record = none ∨ recordOk v.record = false)) ∧
    (∃ (s : State) (lane : Fin 4) (h : ValHeld), s.pipeOff = false ∧ s.valHeld lane.val = some h ∧ s.canRelease h = true ∧ (s.ctxAt h.item.index).state
    ≠ .empty) ∧
    (∃ (s : State) (lane : Fin 4) (h : ValHeld), s.pipeOff = false ∧ s.valHeld lane.val = some h ∧ s.canRelease h = false) :=
  ⟨⟨{ holding with val.queue := [[], [inVal reading], [], []] }, 1, inVal reading, [], (holding.judge meter.val reading).getD ⟨reading, [], none, [],
    meter.val, false⟩, by decide +kernel⟩,
    ⟨{ holding with val.queue := [[], [inVal { reading with rck := 0 }], [], []] }, 1, inVal { reading with rck := 0 }, [], by decide +kernel⟩,
    ⟨{ store with bil.restoring := false, val.held := [none, some valHeld, none, none] }, 1, valHeld, by decide +kernel⟩,
    ⟨{ holding with val.held := [none, some valHeld, none, none] }, 1, valHeld, by decide +kernel⟩⟩

/-- States and operands that meet the hypotheses of each clause of TroikaCommitsOnlyByMajority. -/
theorem test_meets_TroikaCommitsOnlyByMajority :
    (∃ (s : State) (id : Nat) (i : Nat) (r : Record) (tref : Nat) (k : Option Int) (d : List (Option Nat)), s.bil.restoring = false ∧ s.bil.safe =
    false ∧ s.bil.dead = false ∧ s.bil.awaiting = [] ∧ s.bil.units = [true, true, true] ∧ s.bil.sitOut = none ∧ nextItem s.bil.undecided []
    s.bil.queue = some (.record id i r tref k d) ∧ r.verdict.toNat < 2 ∧ settled [] (s.bil.queue.erase (.record id i r tref k d)) = [] ∧ (s.slotAt
    i).frozen = false ∧ (s.slotAt i).crcOk = true ∧ s.item iCreditAction = 0) ∧
    (∃ (s : State) (id : Nat) (i : Nat) (r : Record) (tref : Nat) (k : Option Int) (d : List (Option Nat)), s.bil.restoring = false ∧ s.bil.safe =
    false ∧ s.bil.dead = false ∧ s.bil.awaiting = [] ∧ nextItem s.bil.undecided [] s.bil.queue = some (.record id i r tref k d) ∧ r.verdict = 2#3
    ∧ settled [] (s.bil.queue.erase (.record id i r tref k d)) = []) ∧
    (∃ (s : State) (id : Nat) (i : Nat) (r : Record) (tref : Nat) (k : Option Int) (d : List (Option Nat)), s.bil.restoring = false ∧ s.bil.safe =
    false ∧ s.bil.dead = false ∧ s.bil.awaiting = [] ∧ nextItem s.bil.undecided [] s.bil.queue = some (.record id i r tref k d) ∧ r.verdict.toNat
    < 2 ∧ (s.slotAt i).frozen = false) ∧
    (∃ (s : State) (id : Nat) (i : Nat) (a : Nat) (b : Nat) (c : Nat) (r : Record) (tref : Nat) (k : Option Int) (d : List (Option Nat)),
    s.bil.restoring = false ∧ s.bil.safe = false ∧ s.bil.dead = false ∧ s.bil.awaiting = [] ∧ s.bil.units = [true, true, true] ∧ s.bil.sitOut =
    none ∧ nextItem s.bil.undecided [] s.bil.queue = some (.record id i r tref k d) ∧ r.verdict.toNat < 2 ∧ (s.slotAt i).frozen = false ∧
    (s.slotAt i).crcOk = true ∧ a ≠ b ∧ a ≠ c ∧ b ≠ c) :=
  ⟨⟨billing, 0, 5, reading, 50, none, [some 10, none, none, none], by decide +kernel⟩,
    ⟨{ billing with bil.queue := [.record 0 5 rejected 50 none []] }, 0, 5, rejected, 50, none, [], by decide +kernel⟩,
    ⟨billing, 0, 5, reading, 50, none, [some 10, none, none, none], by decide +kernel⟩,
    ⟨billing, 0, 5, 0, 1, 2, reading, 50, none, [some 10, none, none, none], by decide +kernel⟩⟩

/-- States and operands that meet the hypotheses of each clause of FailedUnitsLeaveTheVoteAndDisplayIsChecked (part 1). -/
theorem test_meets_FailedUnitsLeaveTheVoteAndDisplayIsChecked_1 :
    (∃ (s : State) (unit : Fin 3) (t : Nat) (i : Nat) (w : VoteWait), s.bil.awaiting = [w] ∧ w.silent = [unit.val] ∧ w.committed = false ∧ w.since +
    s.voteTicks ≤ (s.advance t).now ∧ w.item.index = some i) ∧
    (∃ (s : State) (unit : Fin 3) (t : Nat) (w : VoteWait), s.bil.awaiting = [w] ∧ w.silent = [unit.val] ∧ w.committed = true ∧ w.since + s.voteTicks ≤
    (s.advance t).now) ∧
    (∃ (s : State) (t : Nat) (w : VoteWait), s.bil.awaiting = [w] ∧ (s.advance t).now < w.since + s.voteTicks) ∧
    (∃ (s : State), s.bil.safe = true ∧ s.bil.dead = false) ∧
    (∃ (s : State), s.bil.safe = true ∧ s.bil.dead = false ∧ s.bil.units = [true, true, true]) :=
  ⟨⟨{ billing with bil.queue := [], bil.awaiting := [⟨.clear 5 enrol, [1], false, 0⟩] }, 1, 10000000, 5, ⟨.clear 5 enrol, [1], false, 0⟩, by
    decide +kernel⟩,
    ⟨{ billing with bil.queue := [], bil.awaiting := [⟨.clear 5 enrol, [1], true, 0⟩] }, 1, 10000000, ⟨.clear 5 enrol, [1], true, 0⟩, by
    decide +kernel⟩,
    ⟨{ billing with bil.queue := [], bil.awaiting := [⟨.clear 5 enrol, [1], true, 0⟩] }, 5, ⟨.clear 5 enrol, [1], true, 0⟩, by decide +kernel⟩,
    ⟨{ billing with bil.safe := true }, by decide +kernel⟩,
    ⟨{ billing with bil.safe := true }, by decide +kernel⟩⟩

/-- States and operands that meet the hypotheses of each clause of FailedUnitsLeaveTheVoteAndDisplayIsChecked (part 2). -/
theorem test_meets_FailedUnitsLeaveTheVoteAndDisplayIsChecked_2 :
    (∃ (s : State) (shownSeq : Byte), s.lgc.running = true ∧ shownSeq.toNat = s.lgc.displaySeq) ∧
    (∃ (s : State), s.lgc.running = true ∧ s.lgc.misses = 2) :=
  ⟨⟨{ State.reset with lgc.running := true }, 0, by decide +kernel⟩,
    ⟨{ State.reset with lgc.running := true, lgc.misses := 2 }, by decide +kernel⟩⟩

/-- States and operands that meet the hypotheses of each clause of LegalOperationsArePosted (part 1). -/
theorem test_meets_LegalOperationsArePosted_1 :
    (∃ (s : State) (slot : Fin 16) (t : Nat) (p : Nat), s.boot.headEnd = false ∧ lastPeriodEnd s.tim.utcOffset (s.tariffSlot slot.val) (((s.advance
    t).cycleTime : Int) - s.item iCloseGrace) = some p) ∧
    (∃ (s : State) (t : Nat) (i : Nat) (v : LegalSlot), s.boot.headEnd = false ∧ s.bil.slots = [(i, v)] ∧ v.deferred = true ∧ (s.advance t).friendlyAt
    i (s.advance t).sec2020 = false ∧ s.disconnectQueued i = false ∧ s.bal.heldDisconnects = []) ∧
    (∃ (s : State) (t : Nat) (i : Nat) (v : LegalSlot), s.bil.slots = [(i, v)] ∧ s.bal.heldDisconnects = [] ∧ (v.deferred = false ∨ (s.advance
    t).friendlyAt i (s.advance t).sec2020 = true)) ∧
    (∃ (s : State) (gmn : Gmn) (i : Nat), s.boot.headEnd = false ∧ s.heldIndex gmn = some i) ∧
    (∃ (s : State), s.bil.restoring = false ∧ s.bil.safe = false) :=
  ⟨⟨{ holding with boot.headEnd := false, bil.tariffs := [(3, [tariff])], tim.running := true, tim.wall := 65536000000000 * 1609459200 }, 3, 5,
    28944000, by decide +kernel⟩,
    ⟨{ holding with boot.headEnd := false, bil.slots := [(5, { LegalSlot.fresh with deferred := true, creditExhausted := true })] }, 5, 5,
    { LegalSlot.fresh with deferred := true, creditExhausted := true }, by decide +kernel⟩,
    ⟨{ holding with bil.slots := [(5, LegalSlot.fresh)] }, 5, 5, LegalSlot.fresh, by decide +kernel⟩,
    ⟨{ holding with boot.headEnd := false }, 5, 5, by decide +kernel⟩,
    ⟨billing, by decide +kernel⟩⟩

/-- States and operands that meet the hypotheses of each clause of LegalOperationsArePosted (part 2). -/
theorem test_meets_LegalOperationsArePosted_2 :
    (∃ (s : State), s.bil.safe = true) ∧
    (∃ (s : State) (c : LegalCheckpoint), s.bil.restoring = true ∧ s.ful.rebuilding = false ∧ s.ing.restoring = false ∧ s.bil.safe = false ∧
    s.bil.rebuildAt = none ∧ s.ful.legalCheckpoint = some c ∧ (s.ful.entries.filter fun e => decide (c.readPos ≤ e.1)) = []) :=
  ⟨⟨{ billing with bil.safe := true }, by decide +kernel⟩,
    ⟨{ running with bil.restoring := true, ful.rebuilding := false, ful.dirty := [(12288, .legalCheckpoint ⟨1, 0, 5, [], LegalSlot.fresh, [], []⟩)] },
    ⟨1, 0, 5, [], LegalSlot.fresh, [], []⟩, by decide +kernel⟩⟩

/-- States and operands that meet the hypotheses of each clause of BalanceTakesRecordsAndEstimates. -/
theorem test_meets_BalanceTakesRecordsAndEstimates :
    (∃ (s : State) (i : Nat) (tref : Nat) (r : Record) (rx : BitVec 48) (k : Option Int) (d : List (Option Nat)) (rot : Bool) (rest : List BalItem),
    s.pipeOff = false ∧ s.bal.queue = .record i r rx tref k d rot :: rest ∧ r.verdict = 2#3 ∧ r.meterFlags.toNat % 32 = 0) ∧
    (∃ (s : State) (i : Nat) (tref : Nat) (r : Record) (rx : BitVec 48) (k : Option Int) (d : List (Option Nat)) (rot : Bool) (rest : List BalItem),
    s.pipeOff = false ∧ s.bal.queue = .record i r rx tref k d rot :: rest ∧ r.verdict = 2#3 ∧ r.meterFlags.toNat % 32 ≠ 0) ∧
    (∃ (s : State) (f : FeederRecord) (rest : List BalItem), s.pipeOff = false ∧ s.bal.queue = .feeder f none :: rest ∧ (s.balGroupItem 0).feed = 1 ∧
    s.computes 0 = true ∧ f.snapshot = false) ∧
    (∃ (s : State) (t : Nat) (i : Nat) (e : ChannelEst) (rest : List ChannelEst), s.pipeOff = false ∧ s.plc.estimates = e :: rest ∧ s.heldIndex e.gmn =
    some i ∧ (s.advance t).recordComing i e = false ∧ (s.ctxAt i).bal.member = true ∧ s.computes (s.ctxAt i).bal.group = true ∧ (s.signature i
    e.phase).frames = 0 ∧ (s.signature i e.phase).valid = false) ∧
    (∃ (s : State) (gmn : Gmn) (i : Nat), s.heldIndex gmn = some i ∧ (s.ctxAt i).bal.member = true) :=
  ⟨⟨{ running with bal.queue := [.record 5 rejected 100 50 none [] false] }, 5, 50, rejected, 100, none, [], false, [], by decide +kernel⟩,
    ⟨{ running with bal.queue := [.record 5 { rejected with meterFlags := 1 } 100 50 none [] false] }, 5, 50, { rejected with meterFlags := 1 }, 100,
    none, [], false, [], by decide +kernel⟩,
    ⟨{ running with bal.queue := [.feeder feeder none], cfg := [(iBalGroup 0, 1 :: List.replicate 23 0)] }, feeder, [], by decide +kernel⟩,
    ⟨{ holding with ctx := [(5, { meter with bal.member := true })], plc.estimates := [⟨5, 1, 100, 40, 0, List.replicate 8 10⟩], cfg := [(iBalGroup 0, 1 :: List.replicate 23 0)] },
    5, 5, ⟨5, 1, 100, 40, 0, List.replicate 8 10⟩, [], by decide +kernel⟩,
    ⟨{ holding with ctx := [(5, { meter with bal.member := true })] }, 5, 5, by decide +kernel⟩⟩

/-- States and operands that meet the hypotheses of each clause of GroupResultsAreIssued. -/
theorem test_meets_GroupResultsAreIssued :
    (∃ (s : State) (g : Fin 256) (t : Nat) (k : Int), s.pipeOff = false ∧ s.computes g.val = true ∧ (s.advance t).dueInterval g.val = some k) ∧
    (∃ (s : State) (t : Nat) (c : Nat) (x : Snapshot), s.pipeOff = false ∧ s.bal.snapshots = [x] ∧ x.asked = false ∧ x.stamp = some c ∧ c + s.item
    iSnapCollect / 2 ≤ (s.advance t).cycleTime ∧ x.unlatched = []) ∧
    (∃ (s : State) (t : Nat) (c : Nat) (i : Nat) (x : Snapshot), s.pipeOff = false ∧ s.bal.snapshots = [x] ∧ x.asked = false ∧ x.stamp = some c ∧
    x.unlatched = [i] ∧ c + s.item iSnapCollect / 2 ≤ (s.advance t).cycleTime) ∧
    (∃ (s : State) (t : Nat) (c : Nat) (x : Snapshot), s.pipeOff = false ∧ s.bal.snapshots = [x] ∧ x.stamp = some c ∧ s.computes x.group = true ∧
    (x.unlatched = [] ∨ c + s.item iSnapCollect ≤ (s.advance t).cycleTime)) ∧
    (∃ (s : State) (t : Nat) (c : Nat) (x : Snapshot), s.pipeOff = false ∧ s.bal.snapshots = [x] ∧ x.stamp = some c ∧ s.computes x.group = false ∧
    (x.unlatched = [] ∨ c + s.item iSnapCollect ≤ (s.advance t).cycleTime)) :=
  ⟨⟨{ running with cfg := [(iBalGroup 0, 1 :: List.replicate 23 0)], tim.running := true, tim.wall := 65536000000000 * 1609459200 }, 0, 5, 35135, by
    decide +kernel⟩,
    ⟨{ holding with bal.snapshots := [⟨0, 1, 100, [5], [⟨5, 0, 0⟩], [], [], [], 0, some 0, false, none⟩], tim.running := true, tim.wall := 65536000000000 * 1609459200 },
    5, 0, ⟨0, 1, 100, [5], [⟨5, 0, 0⟩], [], [], [], 0, some 0, false, none⟩, by decide +kernel⟩,
    ⟨{ holding with bal.snapshots := [⟨0, 1, 100, [5], [], [], [], [], 0, some 0, false, none⟩], tim.running := true, tim.wall := 65536000000000 * 1609459200 },
    5, 0, 5, ⟨0, 1, 100, [5], [], [], [], [], 0, some 0, false, none⟩, by decide +kernel⟩,
    ⟨{ running with cfg := [(iBalGroup 0, 1 :: List.replicate 23 0)], bal.snapshots := [⟨0, 1, 100, [5], [], [], [], [], 0, some 0, false, none⟩], tim.running := true, tim.wall := 65536000000000 * 1609459200 },
    5, 0, ⟨0, 1, 100, [5], [], [], [], [], 0, some 0, false, none⟩, by decide +kernel⟩,
    ⟨{ running with bal.snapshots := [⟨0, 1, 100, [5], [], [], [], [], 0, some 0, false, none⟩], tim.running := true, tim.wall := 65536000000000 * 1609459200 },
    5, 0, ⟨0, 1, 100, [5], [], [], [], [], 0, some 0, false, none⟩, by decide +kernel⟩⟩

/-- States and operands that meet the hypotheses of each clause of PlcCopiesAreReceived (part 1). -/
theorem test_meets_PlcCopiesAreReceived_1 :
    (∃ (s : State) (n : Fin 3) (t : Nat), s.plcLive = true ∧ (s.advance t).inFrame n.val = false ∧ (s.advance t).plcMuted n.val = false ∧ n.val <
    s.plc.chains.length) ∧
    (∃ (s : State) (n : Fin 3) (t : Nat), s.plcLive = true ∧ (s.advance t).plcMuted n.val = true) ∧
    (∃ (s : State) (n : Fin 3) (c : PlcCopy) (f : PlcFrame) (r : PlcRx) (t : Nat), s.plcLive = true ∧ (s.chain n.val).rx = some r ∧ r.header = true ∧
    r.ends ≤ max s.now t ∧ plcFcsOk c.bytes = true ∧ fieldAt c.bytes 0 1 % 16 ≠ 1 ∧ plcParse c.bytes = some f ∧ s.plcForUs f = true ∧ f.typ < 8 ∧
    s.plc.receptions = []) ∧
    (∃ (s : State) (n : Fin 3) (c : PlcCopy) (r : PlcRx) (t : Nat), s.plcLive = true ∧ (s.chain n.val).rx = some r ∧ r.header = true ∧ r.ends ≤ max
    s.now t ∧ plcFcsOk c.bytes = false) ∧
    (∃ (s : State) (t : Nat) (r : PlcReception) (rest : List PlcReception), s.plc.receptions = r :: rest ∧ r.closes ≤ max s.now t) :=
  ⟨⟨onAir, 1, 5, by decide +kernel⟩,
    ⟨{ onAir with plc.txPhases := [1, 2, 3], plc.txUntil := 1000000 }, 1, 5, by decide +kernel⟩,
    ⟨hearing, 1, plcCopy, (plcParse plcCopy.bytes).getD plcHeard.frame, rxDone, 5, by decide +kernel⟩,
    ⟨hearing, 1, { plcCopy with bytes := [1, 2, 3, 4, 5, 6, 7, 8] }, rxDone, 5, by decide +kernel⟩,
    ⟨{ onAir with plc.receptions := [⟨[plcHeard], 0, 5⟩] }, 5, ⟨[plcHeard], 0, 5⟩, [], by decide +kernel⟩⟩

/-- States and operands that meet the hypotheses of each clause of PlcCopiesAreReceived (part 2). -/
theorem test_meets_PlcCopiesAreReceived_2 :
    (∃ (s : State) (t : Nat) (r : PlcReception) (rest : List PlcReception) (h : PlcHeard), s.plc.receptions = r :: rest ∧ r.closes ≤ max s.now t ∧
    bestCopy r.copies = some h ∧ tolled s.plc.tollbook h.frame.netId h.frame.src h.frame.seq h.frame.epoch (max s.now t) = true) ∧
    (∃ (s : State) (t : Nat) (r : MeshReception) (rest : List MeshReception), s.rfm.receptions = r :: rest ∧ r.closes ≤ max s.now t) :=
  ⟨⟨{ onAir with plc.receptions := [⟨[plcHeard], 0, 5⟩], plc.tollbook := [⟨0, 5, 1, 0, 2000000⟩] }, 5, ⟨[plcHeard], 0, 5⟩, [], plcHeard, by
    decide +kernel⟩,
    ⟨{ onAir with rfm.receptions := [⟨[meshHeard], 5⟩] }, 5, ⟨[meshHeard], 5⟩, [], by decide +kernel⟩⟩

/-- States and operands that meet the hypotheses of each clause of PlcFramesGoOutAndEnd (part 1). -/
theorem test_meets_PlcFramesGoOutAndEnd_1 :
    (∃ (s : State) (t : Nat) (a : PlcDueAck) (rest : List PlcDueAck), s.plcLive = true ∧ s.plc.acks = a :: rest ∧ a.at_ ≤ max s.now t + plcLead ∧
    s.plc.txUntil ≤ a.at_ ∧ s.meetsBeacon a.at_ (s.robustAirtime 12) = false) ∧
    (∃ (s : State) (n : Fin 3) (bytes : List Byte) (r : PlcRx) (t : Nat) (k : Nat) (x : PlcTx), s.plcLive = true ∧ (s.chain n.val).rx = some r ∧
    r.header = true ∧ r.ends ≤ max s.now t ∧ plcFcsOk bytes = true ∧ fieldAt bytes 0 1 % 16 = 1 ∧ fieldAt bytes 1 1 / 16 = s.item iPlcNetId ∧
    fieldAt bytes 2 2 = 0xFFFE ∧ (s.plc.tx.find? fun y => y.awaiting && decide (y.seq = BitVec.ofNat 16 (fieldAt bytes 4 2) ∧ s.plc.epoch =
    fieldAt bytes 1 1 % 16)) = some x ∧ x.slot = some k ∧ (s.ctxAt k).state ≠ .empty) ∧
    (∃ (s : State) (t : Nat) (x : PlcTx), (s.plc.tx.find? fun y => y.awaiting) = some x ∧ x.waitUntil ≤ max s.now t ∧ x.dst ≠ 0xFFFF ∧ x.attempt <
    s.item iPlcRetries) ∧
    (∃ (s : State) (t : Nat) (x : PlcTx), (s.plc.tx.find? fun y => y.awaiting) = some x ∧ max s.now t < x.waitUntil) ∧
    (∃ (s : State) (t : Nat) (x : PlcTx), (s.plc.tx.find? fun y => y.awaiting) = some x ∧ x.waitUntil ≤ max s.now t ∧ s.item iPlcRetries ≤ x.attempt ∧
    x.slot = none ∧ x.work = .keepAlive) :=
  ⟨⟨{ onAir with plc.acks := [⟨1000005, [1], 7, 1, 0, 0, 0⟩] }, 5, ⟨1000005, [1], 7, 1, 0, 0, 0⟩, [], by decide +kernel⟩,
    ⟨{ hearing with plc.tx := [{ plcTx with slot := some 5, awaiting := true }] }, 1, ackBytes, rxDone, 5, 5,
    { plcTx with slot := some 5, awaiting := true }, by decide +kernel⟩,
    ⟨{ onAir with plc.tx := [{ plcTx with awaiting := true }] }, 5, { plcTx with awaiting := true }, by decide +kernel⟩,
    ⟨{ onAir with plc.tx := [{ plcTx with awaiting := true, waitUntil := 2000000 }] }, 5, { plcTx with awaiting := true, waitUntil := 2000000 }, by
    decide +kernel⟩,
    ⟨{ onAir with plc.tx := [{ plcTx with awaiting := true, attempt := 9 }] }, 5, { plcTx with awaiting := true, attempt := 9 }, by decide +kernel⟩⟩

/-- States and operands that meet the hypotheses of each clause of PlcFramesGoOutAndEnd (part 2). -/
theorem test_meets_PlcFramesGoOutAndEnd_2 :
    (∃ (s : State) (air : Nat) (t : Nat) (x : PlcTx) (rest : List PlcTx) (bytes : List Byte), s.plcLive = true ∧ s.plc.tx = x :: rest ∧ x.awaiting =
    false ∧ x.readyAt ≤ max s.now t ∧ s.plc.acks = [] ∧ (s.advance t).plcBusy = false ∧ bytes = s.plcBytes x (s.attemptOf x).1 (s.attemptOf x).2
    (max s.now t + plcLead) ∧ air = Config.plcAirtime (s.item iPlcBand) (s.plcModulation x (s.attemptOf x).1).1 (s.plcModulation x (s.attemptOf
    x).1).2 bytes.length ∧ s.meetsBeacon (max s.now t + plcLead) air = false ∧ ((s.attemptOf x).2.any fun p => (s.advance t).inFrame (p - 1)) =
    false ∧ x.dst ≠ 0xFFFF) ∧
    (∃ (s : State) (air : Nat) (t : Nat) (x : PlcTx) (rest : List PlcTx) (bytes : List Byte), s.plcLive = true ∧ s.plc.tx = x :: rest ∧ x.awaiting =
    false ∧ x.readyAt ≤ max s.now t ∧ s.plc.acks = [] ∧ (s.advance t).plcBusy = false ∧ bytes = s.plcBytes x (s.attemptOf x).1 (s.attemptOf x).2
    (max s.now t + plcLead) ∧ air = Config.plcAirtime (s.item iPlcBand) (s.plcModulation x (s.attemptOf x).1).1 (s.plcModulation x (s.attemptOf
    x).1).2 bytes.length ∧ s.meetsBeacon (max s.now t + plcLead) air = false ∧ ((s.attemptOf x).2.any fun p => (s.advance t).inFrame (p - 1)) =
    true ∧ x.deferrals + 1 < 8) ∧
    (∃ (s : State) (t : Nat) (d : Nat × Nat) (rest : List (Nat × Nat)) (k : Nat) (ks : List Nat), s.plc.discoveries = d :: rest ∧ d.2 ≤ max s.now t ∧
    s.plc.discWaiting = k :: ks ∧ rest.length < 16 ∧ (rest.any fun e => decide (e.1 = k)) = false ∧ k ∉ ks) ∧
    (∃ (s : State) (t : Nat) (a : Nat) (b : BeaconDue) (rest : List BeaconDue) (bytes : List Byte), s.plcLive = true ∧ s.plc.beacons = b :: rest ∧
    b.at_ = some a ∧ a ≤ max s.now t + plcLead ∧ bytes = withCrc32 (plcHeader 2 false none false 0 s.plc.epoch (s.item iPlcNetId) (s.zcDelay
    (s.enables 0 true) a) 0xFFFE 0xFFFF s.plc.seq [] ++ (s.advance t).beaconBodyOf b s.periodTicks s.plc.nextBeacon)) :=
  ⟨⟨{ onAir with plc.tx := [plcTx] }, Config.plcAirtime (onAir.item iPlcBand) (onAir.plcModulation plcTx (onAir.attemptOf plcTx).1).1
    (onAir.plcModulation plcTx (onAir.attemptOf plcTx).1).2 (onAir.plcBytes plcTx (onAir.attemptOf plcTx).1 (onAir.attemptOf plcTx).2 (1000000 +
    plcLead)).length, 5, plcTx, [], onAir.plcBytes plcTx (onAir.attemptOf plcTx).1 (onAir.attemptOf plcTx).2 (1000000 + plcLead),
    by decide +kernel, by decide +kernel, by decide +kernel, by decide +kernel, by decide +kernel, by decide +kernel, rfl, rfl, by decide +kernel,
    by decide +kernel, by decide +kernel⟩,
    ⟨{ onAir with plc.tx := [plcTx], plc.chains := List.replicate 4 chainBusy }, Config.plcAirtime (onAir.item iPlcBand) (onAir.plcModulation plcTx
    (onAir.attemptOf plcTx).1).1 (onAir.plcModulation plcTx (onAir.attemptOf plcTx).1).2 (onAir.plcBytes plcTx (onAir.attemptOf plcTx).1
    (onAir.attemptOf plcTx).2 (1000000 + plcLead)).length, 5, plcTx, [], onAir.plcBytes plcTx (onAir.attemptOf plcTx).1 (onAir.attemptOf plcTx).2
    (1000000 + plcLead), by decide +kernel, by decide +kernel, by decide +kernel, by decide +kernel, by decide +kernel, by decide +kernel, rfl,
    rfl, by decide +kernel, by decide +kernel, by decide +kernel⟩,
    ⟨{ onAir with plc.discoveries := [(3, 5)], plc.discWaiting := [4] }, 5, (3, 5), [], 4, [], by decide +kernel⟩,
    ⟨{ onAir with plc.beacons := [⟨0, 0, none, some 1000000⟩] }, 5, 1000000, ⟨0, 0, none, some 1000000⟩, [], withCrc32 (plcHeader 2 false none false 0
    onAir.plc.epoch (onAir.item iPlcNetId) (onAir.zcDelay (onAir.enables 0 true) 1000000) 0xFFFE 0xFFFF onAir.plc.seq [] ++ onAir.beaconBodyOf ⟨0,
    0, none, some 1000000⟩ onAir.periodTicks onAir.plc.nextBeacon), by decide +kernel, by decide +kernel, by decide +kernel, by decide +kernel,
    rfl⟩⟩

/-- States and operands that meet the hypotheses of each clause of MeshCopiesAreReceived. -/
theorem test_meets_MeshCopiesAreReceived :
    (∃ (s : State) (c : MeshCopy) (f : MeshFrame) (t : Nat), s.rfRuns c.radio.val = true ∧ (s.advance t).radioMuted c.radio.val c.chan.val (s.radioTick
    c.start) = false ∧ c.modeSwitch = false ∧ c.fcsType = 0 ∧ meshFcsOk c.bytes = true ∧ fieldAt c.bytes 0 2 % 8 ≠ 2 ∧ macKindOk c.bytes 1 = true
    ∧ s.macForUs c.bytes = true ∧ meshParse c.bytes = some f ∧ s.meshForUs f = true ∧ meshTypeOk f = true ∧ s.rfm.receptions = []) ∧
    (∃ (s : State) (c : MeshCopy), s.rfRuns c.radio.val = true ∧ meshFcsOk c.bytes = false) ∧
    (∃ (s : State) (t : Nat) (a : EnhAckDue) (rest : List EnhAckDue) (bytes : List Byte), s.rfm.acks = a :: rest ∧ a.at_ ≤ max s.now t + s.rfLead ∧
    s.rfSends a.radio = true ∧ a.radio < s.rfm.radios.length ∧ (s.advance t).radioBusy a.radio = false ∧ bytes = withCrc32 (macHeader 2 false
    false a.dsn (s.item iPanId) a.dest 0xFFFD) ∧ (s.advance t).meetsSlot a.radio a.at_ (s.rfAirtime a.radio bytes.length) = false ∧ (s.advance
    t).meetsRfBeacon a.radio a.at_ (s.rfAirtime a.radio bytes.length) = false ∧ (s.advance t).dutyFull a.radio = false ∧ (s.advance t).rfPending
    a.dest = false) :=
  ⟨⟨onAir, meshCopy, (meshParse meshCopy.bytes).getD meshHeard.frame, 5, by decide +kernel⟩,
    ⟨onAir, { meshCopy with bytes := [1, 2, 3, 4, 5, 6, 7, 8] }, by decide +kernel⟩,
    ⟨{ onAir with rfm.acks := [⟨1000005, 0, 0, 7, 1⟩] }, 5, ⟨1000005, 0, 0, 7, 1⟩, [], withCrc32 (macHeader 2 false false 1 (onAir.item iPanId) 7
    0xFFFD), by decide +kernel⟩⟩

/-- States and operands that meet the hypotheses of each clause of MeshAttemptsEnd. -/
theorem test_meets_MeshAttemptsEnd :
    (∃ (s : State) (n : Fin 2) (bytes : List Byte) (start : Nat) (t : Nat) (k : Nat) (req : Nat) (x : MeshTx), s.rfRuns n.val = true ∧ (s.advance
    t).radioMuted n.val x.chan (s.radioTick start) = false ∧ meshFcsOk bytes = true ∧ macKindOk bytes 2 = true ∧ s.macForUs bytes = true ∧
    (s.rfm.tx.find? fun y => y.awaiting && decide (y.radio = n.val)) = some x ∧ x.dsn = fieldAt bytes 2 1 ∧ x.dst = fieldAt bytes 7 2 ∧ x.slot =
    some k ∧ bytes.length = 13 ∧ x.way = .unicast ∧ x.pending = false ∧ x.work = .request req ∧ (s.ctxAt k).state ≠ .empty ∧ (s.ctxAt
    k).radio.recovering = false) ∧
    (∃ (s : State) (n : Fin 2) (t : Nat) (x : MeshTx), (s.rfm.tx.find? fun y => y.awaiting && decide (y.radio = n.val ∧ y.way ≠ .slotted ∧ y.waitUntil
    ≤ max s.now t)) = some x ∧ x.way = .unicast ∧ x.attempt < s.item iRfRetries) ∧
    (∃ (s : State) (k : Fin 16384) (t : Nat) (req : Nat) (x : MeshTx), (s.rfm.tx.find? fun y => decide (y.slot = some k.val ∧ y.way = .slotted ∧
    y.waitUntil ≤ max s.now t) && y.awaiting) = some x ∧ x.work = .request req ∧ (s.ctxAt k.val).state ≠ .empty ∧ (s.ctxAt k.val).radio.gstep ≠ 3
    ∧ (s.ctxAt k.val).radio.misses = 0) ∧
    (∃ (s : State) (k : Fin 16384) (t : Nat) (req : Nat) (x : MeshTx), (s.rfm.tx.find? fun y => decide (y.slot = some k.val ∧ y.way = .slotted ∧
    y.waitUntil ≤ max s.now t) && y.awaiting) = some x ∧ x.work = .request req ∧ (s.ctxAt k.val).state ≠ .empty ∧ (s.ctxAt k.val).radio.gstep ≠ 3
    ∧ 1 ≤ (s.ctxAt k.val).radio.misses) ∧
    (∃ (s : State) (k : Fin 16384) (t : Nat) (req : Nat) (x : MeshTx), (s.rfm.tx.find? fun y => decide (y.slot = some k.val ∧ y.way = .slotted ∧
    y.waitUntil ≤ max s.now t) && y.awaiting) = some x ∧ x.work = .request req ∧ (s.ctxAt k.val).state ≠ .empty ∧ (s.ctxAt k.val).radio.gstep = 3) :=
  ⟨⟨{ onAir with rfm.tx := [{ meshTx with awaiting := true }] }, 0, withCrc32 (macHeader 2 false false 1 0 0xFFFD 7), 0, 5, 5, 0,
    { meshTx with awaiting := true }, by decide +kernel⟩,
    ⟨{ onAir with rfm.tx := [{ meshTx with awaiting := true }] }, 0, 5, { meshTx with awaiting := true }, by decide +kernel⟩,
    ⟨{ onAir with rfm.tx := [{ meshTx with awaiting := true, way := .slotted }] }, 5, 5, 0, { meshTx with awaiting := true, way := .slotted }, by
    decide +kernel⟩,
    ⟨{ onAir with ctx := [(5, { meter with radio.misses := 1 })], rfm.tx := [{ meshTx with awaiting := true, way := .slotted }] }, 5, 5, 0,
    { meshTx with awaiting := true, way := .slotted }, by decide +kernel⟩,
    ⟨{ onAir with ctx := [(5, { meter with radio.gstep := 3 })], rfm.tx := [{ meshTx with awaiting := true, way := .slotted }] }, 5, 5, 0,
    { meshTx with awaiting := true, way := .slotted }, by decide +kernel⟩⟩

/-- States and operands that meet the hypotheses of each clause of MeshFramesGoOut (part 1). -/
theorem test_meets_MeshFramesGoOut_1 :
    (∃ (s : State) (n : Fin 2) (energy : Int) (t : Nat) (req : Nat) (x : MeshTx), (s.advance t).nextMesh n.val false = some x ∧ x.way = .unicast ∧
    x.work = .request req ∧ (s.advance t).windowMissed x = false ∧ (s.advance t).windowOpen x.dst = false ∧ x.slot = none ∧ s.rfSends n.val = true
    ∧ (s.advance t).rateFull = false ∧ (s.advance t).radioBusy n.val = false ∧ (s.advance t).meetsSlot n.val (max s.now t + s.rfLead)
    (s.meshAirtime x) = false ∧ (s.advance t).meetsRfBeacon n.val (max s.now t + s.rfLead) (s.meshAirtime x) = false ∧ (s.advance t).dutyFull
    n.val = false ∧ s.ccaIsBusy energy = false) ∧
    (∃ (s : State) (n : Fin 2) (energy : Int) (t : Nat) (x : MeshTx), (s.advance t).nextMesh n.val false = some x ∧ (s.advance t).windowMissed x =
    false ∧ s.rfSends n.val = true ∧ (s.advance t).rateFull = false ∧ (s.advance t).radioBusy n.val = false ∧ (s.advance t).meetsSlot n.val
    ((s.advance t).meshFirst x) (s.meshAirtime x) = false ∧ (s.advance t).meetsRfBeacon n.val ((s.advance t).meshFirst x) (s.meshAirtime x) =
    false ∧ (s.advance t).dutyFull n.val = false ∧ s.ccaIsBusy energy = true ∧ x.backoffs < s.itemField iRfCsma 2 1) ∧
    (∃ (s : State) (n : Fin 2) (energy : Int) (t : Nat) (req : Nat) (x : MeshTx), (s.advance t).nextMesh n.val true = some x ∧ x.work = .request req ∧
    (s.advance t).windowOpen x.dst = false ∧ s.rfSends n.val = true ∧ (s.advance t).rateFull = false ∧ (s.advance t).radioBusy n.val = false ∧
    (s.advance t).meetsSlot n.val (max s.now t + s.rfLead) (s.meshAirtime x) = false ∧ (s.advance t).meetsRfBeacon n.val (max s.now t + s.rfLead)
    (s.meshAirtime x) = false ∧ (s.advance t).dutyFull n.val = false ∧ s.ccaIsBusy energy = false) ∧
    (∃ (s : State) (k : Fin 16384) (energy : Int) (t : Nat) (req : Nat) (x : MeshTx), s.rfm.tx = [x] ∧ x.slot = some k.val ∧ x.way = .slotted ∧
    x.readyAt ≤ max s.now t ∧ x.awaiting = false ∧ x.work = .request req ∧ (s.meshBytes x x.work false).length ≤ 64 ∧ s.rfSends x.radio = true ∧
    (s.advance t).rateFull = false ∧ (s.advance t).exchangeFits k.val = true ∧ (s.advance t).exchangeDue k.val = true ∧ s.ccaIsBusy energy = false
    ∧ (s.advance t).radioBusy x.radio = false ∧ (s.advance t).meetsRfBeacon x.radio (s.afeOf ((s.advance t).exchangeSpan k.val).1) (s.afeOf
    ((s.advance t).exchangeSpan k.val).2 - s.afeOf ((s.advance t).exchangeSpan k.val).1) = false ∧ (s.advance t).dutyFull x.radio = false) ∧
    (∃ (s : State) (k : Fin 16384) (energy : Int) (t : Nat) (x : MeshTx), s.rfm.tx = [x] ∧ x.slot = some k.val ∧ x.way = .slotted ∧ x.readyAt ≤ max
    s.now t ∧ x.awaiting = false ∧ s.rfSends x.radio = true ∧ (s.advance t).rateFull = false ∧ (s.advance t).exchangeFits k.val = true ∧
    (s.advance t).exchangeDue k.val = true ∧ s.ccaIsBusy energy = true) :=
  ⟨⟨{ onAir with rfm.tx := [{ meshTx with slot := none }] }, 0, -1000, 5, 0, { meshTx with slot := none }, by decide +kernel⟩,
    ⟨{ onAir with rfm.tx := [meshTx] }, 0, 1000, 5, meshTx, by decide +kernel⟩,
    ⟨{ onAir with rfm.tx := [{ meshTx with way := .longPreamble }] }, 0, -1000, 5, 0, { meshTx with way := .longPreamble }, by decide +kernel⟩,
    ⟨{ onAir with now := 444826, rfm.tx := [{ meshTx with way := .slotted, apdu := [1] }] }, 5, -1000, 5, 0,
    { meshTx with way := .slotted, apdu := [1] }, by decide +kernel⟩,
    ⟨{ onAir with now := 444826, rfm.tx := [{ meshTx with way := .slotted }] }, 5, 1000, 5, { meshTx with way := .slotted }, by decide +kernel⟩⟩

/-- States and operands that meet the hypotheses of each clause of MeshFramesGoOut (part 2). -/
theorem test_meets_MeshFramesGoOut_2 :
    (∃ (s : State) (n : Fin 2) (t : Nat) (a : Nat) (b : BeaconDue) (rest : List (BeaconDue × Nat)), n.val < s.rfm.radios.length ∧ s.rfSends n.val =
    true ∧ (s.radioAt n.val).beacons = (b, 0) :: rest ∧ b.at_ = some a ∧ a ≤ max s.now t + s.rfLead ∧ (s.advance t).dutyFull n.val = false) ∧
    (∃ (s : State) (n : Fin 2) (t : Nat) (a : Nat) (b : BeaconDue) (rest : List (BeaconDue × Nat)), n.val < s.rfm.radios.length ∧ s.rfSends n.val =
    true ∧ (s.radioAt n.val).beacons = (b, 1) :: rest ∧ b.at_ = some a ∧ a ≤ max s.now t + s.rfLead) ∧
    (∃ (s : State) (n : Fin 2) (t : Nat), n.val < s.rfm.radios.length ∧ (s.advance t).dutyFull n.val = false) :=
  ⟨⟨{ onAir with rfm.radios := List.replicate 2 ⟨[], [(⟨0, 0, none, some 1000000⟩, 0)], false⟩ }, 0, 5, 1000000, ⟨0, 0, none, some 1000000⟩, [], by
    decide +kernel⟩,
    ⟨{ onAir with rfm.radios := List.replicate 2 ⟨[], [(⟨0, 0, none, some 1000000⟩, 1)], false⟩ }, 0, 5, 1000000, ⟨0, 0, none, some 1000000⟩, [], by
    decide +kernel⟩,
    ⟨{ onAir with rfm.radios := List.replicate 2 ⟨[], [], true⟩ }, 0, 5, by decide +kernel⟩⟩

/-- States and operands that meet the hypotheses of each clause of TransactionsBeginAndEnd. -/
theorem test_meets_TransactionsBeginAndEnd :
    (∃ (s : State) (ek : List Byte) (ak : List Byte) (i : Nat) (tag : Nat) (r : Request) (o : BitVec 48), s.runningKind 12 = some 18 ∧ (s.boot.headEnd
    = false ∨ s.hwl.assigned = true) ∧ s.nextRequest 12 = some r ∧ r.body = .read o ∧ r.tag = none ∧ s.freeTag = some tag ∧ (s.nextMedium r 0).1 =
    .plc ∧ s.reqIndex r = some i ∧ (s.ctxAt i).state ≠ .forward ∧ s.groupByte (s.ctxAt i).group 1 ≠ 2 ∧ s.contextKeys (s.ctxAt i) = some (ek, ak)) ∧
    (∃ (s : State) (plain : List Byte) (ek : List Byte) (ak : List Byte) (i : Nat) (tag : Nat) (r : Request) (o : BitVec 48), s.runningKind 13 = some
    (issueKind 13) ∧ (s.boot.headEnd = false ∨ s.hwl.assigned = true) ∧ s.nextRequest 13 = some r ∧ r.body = .read o ∧ r.tag = none ∧ s.freeTag =
    some tag ∧ (s.nextMedium r 0).1 = .radio ∧ s.reqIndex r = some i ∧ (s.ctxAt i).state ≠ .forward ∧ s.groupByte (s.ctxAt i).group 1 ≠ 2 ∧
    s.contextKeys (s.ctxAt i) = some (ek, ak) ∧ meshTooLong (protectedRequest ek ak plain (s.ctxAt i).txIc) = false) ∧
    (∃ (s : State) (tag : Fin 1024) (t : Nat) (d : Nat) (r : Request), (s.tagAt tag.val).state = .issued ∧ (s.tagAt tag.val).deadline = some d ∧ d ≤
    (s.advance t).ms ∧ (s.tagAt tag.val).request = some r ∧ (s.tagAt tag.val).attempts ≤ s.item iTxnRetries) ∧
    (∃ (s : State) (tag : Fin 1024) (t : Nat) (d : Nat) (r : Request), (s.tagAt tag.val).state = .issued ∧ (s.tagAt tag.val).deadline = some d ∧ d ≤
    (s.advance t).ms ∧ (s.tagAt tag.val).request = some r ∧ s.item iTxnRetries < (s.tagAt tag.val).attempts) ∧
    (∃ (s : State) (tag : Fin 1024) (t : Nat), (s.tagAt tag.val).state = .quarantine ∧ (s.tagAt tag.val).restUntil ≤ (s.advance t).ms) :=
  ⟨⟨{ holding with txn.pending := [readRequest], cch.executors := List.replicate 12 ⟨none, false, 0, []⟩ ++ ⟨some ⟨18, 0, 0, 0, 0, 0, 0⟩, false, 0, []⟩ :: List.replicate 3 ⟨none, false, 0, []⟩ },
    List.replicate 16 0x22, List.replicate 16 0x33, 5, 0, readRequest, 1, by decide +kernel⟩,
    ⟨{ holding with txn.pending := [{ readRequest with medium := .radio }], cch.executors := List.replicate 13 ⟨none, false, 0, []⟩ ++ ⟨some ⟨issueKind 13, 0, 0, 0, 0, 0, 0⟩, false, 0, []⟩ :: List.replicate 2 ⟨none, false, 0, []⟩ },
    [0xC0, 1], List.replicate 16 0x22, List.replicate 16 0x33, 5, 0, { readRequest with medium := .radio }, 1, by decide +kernel⟩,
    ⟨{ holding with txn.tags := [(3, ⟨.issued, 0, some readRequest, 1, .plc, 0, some 0, 0, 0, 0⟩)] }, 3, 5, 0, readRequest, by decide +kernel⟩,
    ⟨{ holding with txn.tags := [(3, ⟨.issued, 0, some readRequest, 200, .plc, 0, some 0, 0, 0, 0⟩)] }, 3, 5, 0, readRequest, by decide +kernel⟩,
    ⟨{ holding with txn.tags := [(3, ⟨.quarantine, 0, none, 0, .plc, 0, none, 0, 0, 0⟩)] }, 3, 5, by decide +kernel⟩⟩

/-- States and operands that meet the hypotheses of each clause of TasksArePostedAndRetired. -/
theorem test_meets_TasksArePostedAndRetired :
    (∃ (s : State) (x : Nat) (i : Nat) (c : Context) (k : Nat), s.executorOf 21 = some x ∧ (s.boot.headEnd = false ∨ s.hwl.assigned = true) ∧
    (((s.cch.executor x).running.map Task.arg).getD 0) % 32 = k ∧ s.scheduleMeters k = [(i, c)] ∧ s.txn.pending = [] ∧ s.cyc.num < (Table.get (0,
    0) s.txn.schedules k).1) ∧
    (∃ (s : State) (kind : Nat) (priority : Nat) (eclass : Nat) (exec_ : Nat), taskValid kind priority eclass exec_ = true ∧ 256 < s.cch.free ∧ (∀ x :
    Fin 16, (s.cch.executor x.val).running.isSome = true)) ∧
    (∃ (s : State) (kind : Nat) (priority : Nat) (eclass : Nat) (exec_ : Nat), (taskValid kind priority eclass exec_ = false ∨ s.cch.free = 0)) ∧
    (∃ (s : State) (x : Fin 16), (s.cch.executor x.val).running.isSome = true ∧ s.cch.waiting = [] ∧ s.txn.pending = []) :=
  ⟨⟨{ holding with cch.executors := ⟨some ⟨21, 0, 0, 0, 0, 0, 0⟩, false, 0, []⟩ :: List.replicate 15 ⟨none, false, 0, []⟩, txn.schedules := [(0, (9, 0))], cfg := [(iSchedule 0, [1, 0])] },
    0, 5, meter, 0, by decide +kernel⟩,
    ⟨{ running with cch.executors := List.replicate 16 ⟨some ⟨3, 0, 0, 0, 0, 0, 0⟩, false, 0, []⟩ }, 1, 0, 0, 0, by decide +kernel⟩,
    ⟨running, 99, 0, 0, 0, by decide +kernel⟩,
    ⟨{ running with cch.executors := List.replicate 16 ⟨some ⟨3, 0, 0, 0, 0, 0, 0⟩, false, 0, []⟩ }, 2, by decide +kernel⟩⟩

/-- States and operands that meet the hypotheses of each clause of EntriesAreAcceptedAndProgrammed. -/
theorem test_meets_EntriesAreAcceptedAndProgrammed :
    (∃ (s : State) (id : Nat) (tref : Nat) (r : Record) (k : Option Int) (d : List (Option Nat)) (rest : List FulItem), s.ful.queue = .record id r tref
    k d :: rest ∧ s.ful.shut = false ∧ s.ful.full8 1 = false ∧ s.ful.dirtyBytes + 64 ≤ s.item iDirtyMax * 2 ^ 20 ∧ s.ful.open8.entries.length < 63) ∧
    (∃ (s : State) (i : FulItem) (rest : List FulItem), s.ful.queue = i :: rest ∧ s.ful.shut = true) ∧
    (∃ (s : State) (t : Nat) (a : Nat), s.ful.open8.since = some a ∧ s.item iFlushMs ≠ 0 ∧ a + s.item iFlushMs * ticksPerMs ≤ max s.now t ∧
    s.ful.open8.programmed < s.ful.open8.entries.length) ∧
    (∃ (s : State) (s1 : State) (b : Nat), s.ful.dirty ≠ [] ∧ s.target false = some (b, s1) ∧ s.ful.stopped = false) ∧
    (∃ (s : State), s.ful.dirty = [] ∧ s.ful.stopped = false) ∧
    (∃ (s : State) (c : Collection), s.ful.collection = some c ∧ s.ful.stopped = false ∧ s.rideHoldsGc = false ∧ (∀ e, e ∈ s.ful.blocks → s.way.opTime
    ≤ e.2.closeTime + 86400 * s.item iRetentionDays) ∧ c.next < (s.ful.block c.victim).pages.length ∧ (s.ful.block c.victim).state = .closed ∧
    (s.target true).isSome = true) :=
  ⟨⟨{ store with ful.queue := [.record 0 reading 50 none []] }, 0, 50, reading, none, [], [], by decide +kernel⟩,
    ⟨{ holding with ful.queue := [.record 0 reading 50 none []] }, .record 0 reading 50 none [], [], by decide +kernel⟩,
    ⟨{ store with ful.open8 := ⟨[.record reading 50 none []], 0, some 0⟩ }, 2457600000, 0, by decide +kernel⟩,
    ⟨{ store with ful.dirty := [(40000, .bitmap [])] }, ((({ store with ful.dirty := [(40000, .bitmap [])] } : State).target false).getD (0,
    store)).2, 0, by decide +kernel⟩,
    ⟨store, by decide +kernel⟩,
    ⟨{ store with ful.collection := some ⟨3, 0, false⟩, ful.blocks := [(3, ⟨.closed, [⟨1, false, []⟩], 0, 0, 0, 0, false, false⟩)] }, ⟨3, 0, false⟩,
    by decide +kernel⟩⟩

/-- States and operands that meet the hypotheses of each clause of BlocksAndBooksOfTheStore (part 1). -/
theorem test_meets_BlocksAndBooksOfTheStore_1 :
    (∃ (s : State) (b : Nat), s.ful.dirty ≠ [] ∧ (s.target false).map Prod.fst = some b) ∧
    (∃ (s : State) (b : Nat), b < s.ful.total ∧ (s.ful.block b).state ≠ .retired ∧ (s.ful.block b).state ≠ .factoryBad) ∧
    (∃ (s : State) (b : Nat), b < s.ful.total ∧ (s.ful.block b).state = .free ∧ s.ful.collection = none) ∧
    (∃ (s : State) (lsa : Nat) (l : Loc), Table.get none s.ful.map lsa = some l) ∧
    (∃ (s : State) (c : LegalCheckpoint), s.ful.ckptLegal = some c ∧ s.ful.programmedTo c.readPos = true ∧ (s.target false).isSome = true) :=
  ⟨⟨{ store with ful.dirty := [(40000, .bitmap [])] }, 0, by decide +kernel⟩,
    ⟨{ store with ful.blocks := [(3, ⟨.closed, [⟨1, false, []⟩], 0, 0, 0, 0, false, false⟩)] }, 3, by decide +kernel⟩,
    ⟨store, 3, by decide +kernel⟩,
    ⟨{ store with ful.map := [(40000, some ⟨3, 0, 0⟩)], ful.blocks := [(3, ⟨.closed, [⟨1, false, [some (40000, .bitmap [])]⟩], 0, 0, 0, 0, false, false⟩)] },
    40000, ⟨3, 0, 0⟩, by decide +kernel⟩,
    ⟨{ store with ful.ckptLegal := some ⟨1, 0, 5, [], LegalSlot.fresh, [], []⟩ }, ⟨1, 0, 5, [], LegalSlot.fresh, [], []⟩, by decide +kernel⟩⟩

/-- States and operands that meet the hypotheses of each clause of BlocksAndBooksOfTheStore (part 2). -/
theorem test_meets_BlocksAndBooksOfTheStore_2 :
    (∃ (s : State) (c : CtxCheckpoint), s.ful.ckptCtx = some c ∧ s.ful.programmedTo c.readPos = true ∧ (s.target false).isSome = true) ∧
    (∃ (s : State) (c : LegalCheckpoint), s.ful.ckptLegal = some c ∧ s.ful.programmedTo c.readPos = false) ∧
    (∃ (s : State), s.ful.snapshotAt + 86400 ≤ s.way.opTime ∧ s.ful.control ≠ none) ∧
    (∃ (s : State), s.ful.rebuilding = true ∧ 15 ≤ s.boot.stage) ∧
    (∃ (s : State), s.boot.stage < 15) :=
  ⟨⟨{ store with ful.ckptCtx := some ⟨1, 0, 5, []⟩ }, ⟨1, 0, 5, []⟩, by decide +kernel⟩,
    ⟨{ store with ful.ckptLegal := some ⟨1, 5, 5, [], LegalSlot.fresh, [], []⟩, ful.stream8 := ⟨0, 0⟩, ful.open8 := ⟨List.replicate 6 (.record reading 50 none []), 0, some 0⟩ },
    ⟨1, 5, 5, [], LegalSlot.fresh, [], []⟩, by decide +kernel⟩,
    ⟨{ store with way.opTime := 90000 }, by decide +kernel⟩,
    ⟨{ holding with ful.rebuilding := true }, by decide +kernel⟩,
    ⟨{ State.reset with ful.rebuilding := true }, by decide +kernel⟩⟩

/-- States and operands that meet the hypotheses of each clause of LinksComeUp (part 1). -/
theorem test_meets_LinksComeUp_1 :
    (∃ (s : State) (p : Fin 4) (valid : Nat), s.portEnabled p.val = true ∧ (s.hport p.val).state = .training ∧ p.val < s.hwl.ports.length ∧ 64 ≤ valid) ∧
    (∃ (s : State) (p : Fin 4) (since : Nat) (t : Nat), s.portEnabled p.val = true ∧ (s.hport p.val).state = .up ∧ (s.hport p.val).blockLock = true ∧
    since + 2458 ≤ max s.now t) ∧
    (∃ (s : State) (p : Fin 4) (t : Nat) (d : Nat), (s.hport p.val).retrainAt = some d ∧ d ≤ max s.now t) ∧
    (∃ (s : State) (l : HwlHeader) (mac : List Byte), (s.hport l.port.val).state = .hello ∧ l.lcrcOk = true ∧ packetFits l 0x01 = true ∧ s.helloCause
    l.port.val (helloOf l.payload) = none ∧ s.cmacUnder (s.item iFabricKeySlot) (l.payload ++ s.helloNow l.port.val) = some mac) ∧
    (∃ (s : State) (l : HwlHeader), (s.hport l.port.val).state = .hello ∧ l.lcrcOk = true ∧ packetFits l 0x01 = true ∧ (helloOf l.payload).fabricId ≠
    s.item iFabricId) :=
  ⟨⟨greeting .training, 0, 64, by decide +kernel⟩,
    ⟨linked, 0, 0, 2458, by decide +kernel⟩,
    ⟨{ linked with hwl.ports := { HwlPort.atReset with state := .isolated, retrainAt := some 3 } :: List.replicate 3 HwlPort.atReset }, 0, 5, 3, by
    decide +kernel⟩,
    ⟨awaitingHello, packet 1 0 (helloPeer 9), aesCmac peerKey (helloPeer 9 ++ awaitingHello.helloNow 0), by decide +kernel, by decide +kernel,
    by decide +kernel, by decide +kernel, rfl⟩,
    ⟨awaitingHello, packet 1 0 (helloPeer 8), by decide +kernel⟩⟩

/-- States and operands that meet the hypotheses of each clause of LinksComeUp (part 2). -/
theorem test_meets_LinksComeUp_2 :
    (∃ (s : State) (l : HwlHeader), (s.hport l.port.val).state = .hello ∧ l.lcrcOk = true ∧ packetFits l 0x02 = true ∧ s.helloCause l.port.val (helloOf
    l.payload) = none ∧ s.helloAckOk l.port.val l.payload = true ∧ s.coordsAgree l.port.val (helloOf l.payload).coord = true) ∧
    (∃ (s : State) (l : HwlHeader), (s.hport l.port.val).state = .hello ∧ l.lcrcOk = true ∧ packetFits l 0x02 = true ∧ s.helloCause l.port.val (helloOf
    l.payload) = none ∧ s.helloAckOk l.port.val l.payload = false) :=
  ⟨⟨awaitingHello, packet 2 0 (helloPeer 9 ++ aesCmac peerKey (List.replicate 48 0 ++ helloPeer 9)), by decide +kernel⟩,
    ⟨awaitingHello, packet 2 0 (helloPeer 9 ++ List.replicate 16 0), by decide +kernel⟩⟩

/-- States and operands that meet the hypotheses of each clause of LinkWordsAndNodesAct (part 1). -/
theorem test_meets_LinkWordsAndNodesAct_1 :
    (∃ (s : State) (p : Fin 4), (s.hport p.val).state = .up ∧ (s.hport p.val).waiting = []) ∧
    (∃ (s : State) (p : Fin 4), (s.hport p.val).state = .up ∧ (s.hport p.val).waiting = []) ∧
    (∃ (s : State) (p : Fin 4) (lseq : BitVec 16), (s.hport p.val).state = .up ∧ (s.hport p.val).nakFor = lseq ∧ (s.hport p.val).naks < 7) ∧
    (∃ (s : State) (p : Fin 4) (lseq : BitVec 16), (s.hport p.val).state = .up ∧ (s.hport p.val).nakFor = lseq ∧ 7 ≤ (s.hport p.val).naks) ∧
    (∃ (s : State) (p : Fin 4) (d : Nat) (t : Nat), (s.hport p.val).state = .up ∧ (s.hport p.val).ackSince = some d ∧ d + 49 ≤ max s.now t) :=
  ⟨⟨linked, 0, by decide +kernel⟩,
    ⟨linked, 0, by decide +kernel⟩,
    ⟨{ linked with hwl.ports := { HwlPort.atReset with state := .up, nakFor := 3 } :: List.replicate 3 HwlPort.atReset }, 0, 3, by decide +kernel⟩,
    ⟨{ linked with hwl.ports := { HwlPort.atReset with state := .up, nakFor := 3, naks := 7 } :: List.replicate 3 HwlPort.atReset }, 0, 3, by
    decide +kernel⟩,
    ⟨{ linked with hwl.ports := { HwlPort.atReset with state := .up, ackSince := some 0, expectRx := 4 } :: List.replicate 3 HwlPort.atReset }, 0, 0,
    49, by decide +kernel⟩⟩

/-- States and operands that meet the hypotheses of each clause of LinkWordsAndNodesAct (part 2). -/
theorem test_meets_LinkWordsAndNodesAct_2 :
    (∃ (s : State) (x : Nat) (y : Nat), s.boot.headEnd = true ∧ s.boot.locked = true ∧ s.hwl.assigned = false ∧ s.hwl.conflict = false ∧ s.hwl.stored =
    some (x, y)) ∧
    (∃ (s : State) (t : Nat), s.boot.headEnd = true ∧ s.hwl.assigned = true ∧ s.hwl.announceAt ≤ max s.now t) ∧
    (∃ (s : State) (l : HwlHeader) (node : NodeId), (s.hport l.port.val).state = .up ∧ l.lcrcOk = true ∧ l.lseq = (s.hport l.port.val).expectRx ∧
    packetFits l 0x03 = true ∧ l.flood = true ∧ node = BitVec.ofNat 6 (fieldAt l.payload 8 1) ∧ node ≠ s.hwl.nodeId ∧ Table.get none s.hwl.members
    node.toNat = none) ∧
    (∃ (s : State) (node : NodeId) (t : Nat) (m : Member), Table.get none s.hwl.members node.toNat = some m ∧ m.member = true ∧ m.heard + 3 *
    ticksPerSec ≤ max s.now t) :=
  ⟨⟨{ linked with hwl.assigned := false, hwl.stored := some (1, 0) }, 1, 0, by decide +kernel⟩,
    ⟨linked, 24576000, by decide +kernel⟩,
    ⟨linked, floodPacket (.announce 4 1 [0, 0, 0, 0] 0), 1, by decide +kernel⟩,
    ⟨{ linked with hwl.members := [(1, some ⟨4, 0, 0, [0], true⟩)] }, 1, 73728000, ⟨4, 0, 0, [0], true⟩, by decide +kernel⟩⟩

/-- States and operands that meet the hypotheses of each clause of PairsFormAndBreak (part 1). -/
theorem test_meets_PairsFormAndBreak_1 :
    (∃ (s : State) (l : HwlHeader), s.packetArrives l 0x04 ∧ s.hwl.assigned = true ∧ s.fromPartner l = true ∧ fieldAt l.payload 0 1 =
    s.hwl.nodeId.toNat ∧ bitAt l.payload 6 1 = false ∧ bitAt l.payload 6 2 = false) ∧
    (∃ (s : State) (l : HwlHeader), s.packetArrives l 0x04 ∧ s.hwl.assigned = true ∧ fieldAt l.payload 0 1 ≠ s.hwl.nodeId.toNat ∧ bitAt l.payload 6 1 =
    false ∧ bitAt l.payload 6 2 = false) ∧
    (∃ (s : State) (t : Nat), s.boot.headEnd = true ∧ s.hwl.assigned = true ∧ s.hwl.paired = false ∧ s.hwl.partnerLost = false ∧ s.hwl.assignedAt +
    msTicks (10 * s.item iPartnerTimeout) ≤ max s.now t) ∧
    (∃ (s : State) (t : Nat), s.hwl.paired = true ∧ s.hwl.heartbeatAt + msTicks (s.item iHeartbeatMs) ≤ max s.now t ∧ s.openTo (s.partner.getD 0)
    .heartbeat) ∧
    (∃ (s : State) (l : HwlHeader), s.packetArrives l 0x05 ∧ s.fromPartner l = true) :=
  ⟨⟨{ linked with hwl.paired := false }, fromNode1 (.pair 0 false 9 false false false), by unfold State.packetArrives; decide +kernel⟩,
    ⟨linked, fromNode1 (.pair 7 false 9 false false false), by unfold State.packetArrives; decide +kernel⟩,
    ⟨{ linked with hwl.paired := false }, 24576000000, by decide +kernel⟩,
    ⟨linked, 24576000, by unfold State.openTo; decide +kernel⟩,
    ⟨linked, fromNode1 .heartbeat, by unfold State.packetArrives; decide +kernel⟩⟩

/-- States and operands that meet the hypotheses of each clause of PairsFormAndBreak (part 2). -/
theorem test_meets_PairsFormAndBreak_2 :
    (∃ (s : State) (l : HwlHeader), s.packetArrives l 0x06 ∧ s.fromPartner l = true) ∧
    (∃ (s : State) (t : Nat), s.hwl.paired = true ∧ s.hwl.partnerLost = false ∧ s.hwl.partnerHeard + msTicks (s.item iPartnerTimeout) ≤ max s.now t) :=
  ⟨⟨linked, fromNode1 (.leave 3), by unfold State.packetArrives; decide +kernel⟩,
    ⟨linked, 24576000000, by decide +kernel⟩⟩

/-- States and operands that meet the hypotheses of each clause of StreamIsTakenInOrder (part 1). -/
theorem test_meets_StreamIsTakenInOrder_1 :
    (∃ (s : State) (l : HwlHeader), s.streamArrives l 0x10 ∧ s.frameFits (s.mirrorFrame (recordOf l.payload)) = true ∧ 9 < s.ing.fifos.length) ∧
    (∃ (s : State) (l : HwlHeader) (i : Nat), s.streamArrives l 0x11 ∧ s.indexFor (recordOf l.payload).gmn = some i) ∧
    (∃ (s : State) (l : HwlHeader), s.streamArrives l 0x12 ∧ s.bal.queue.length < 4096 ∧ s.pipeOff = false) ∧
    (∃ (s : State) (l : HwlHeader) (g : Gmn) (i : Nat), s.streamArrives l 0x13 ∧ s.indexFor g = some i) ∧
    (∃ (s : State) (l : HwlHeader) (j : JobBody) (g : Gmn) (i : Nat), s.streamArrives l 0x14 ∧ jobGmn j = some g ∧ s.indexFor g = some i) :=
  ⟨⟨linked, fromNode1 (.mrec reading), by unfold State.streamArrives State.packetArrives; decide +kernel⟩,
    ⟨linked, fromNode1 (.mest reading), 5, by unfold State.streamArrives State.packetArrives; decide +kernel⟩,
    ⟨linked, fromNode1 (.mfeed feeder), by unfold State.streamArrives State.packetArrives; decide +kernel⟩,
    ⟨linked, packet 0x13 0 [1, 2, 3, 4], 5, 5, by unfold State.streamArrives State.packetArrives; decide +kernel⟩,
    ⟨linked, packet 0x14 0 [1, 2, 3, 4], .counterReset 5 1 1, 5, 5, by unfold State.streamArrives State.packetArrives; decide +kernel⟩⟩

/-- States and operands that meet the hypotheses of each clause of StreamIsTakenInOrder (part 2). -/
theorem test_meets_StreamIsTakenInOrder_2 :
    (∃ (s : State) (l : HwlHeader) (lane : Fin 4), s.streamArrives l 0x15 ∧ fieldAt l.payload 4 1 = lane.val) ∧
    (∃ (s : State) (l : HwlHeader) (g : Gmn) (data : List Byte) (i : Nat), s.streamArrives l 0x16 ∧ g = BitVec.ofNat 20 (fieldAt l.payload 0 4) ∧
    fieldAt l.payload 4 1 = 0 ∧ fieldAt l.payload 5 1 = 1 ∧ s.indexFor g = some i ∧ data = l.payload.drop 8) ∧
    (∃ (s : State) (l : HwlHeader), s.streamArrives l 0x17 ∧ s.hwl.ownRange = false) :=
  ⟨⟨linked, fromNode1 (.cut 3 1), 1, by unfold State.streamArrives State.packetArrives; decide +kernel⟩,
    ⟨linked, fromNode1 (.msync 5 0 0 1 (List.replicate 1208 0)), 5, List.replicate 1208 0, 5, by
    unfold State.streamArrives State.packetArrives; decide +kernel⟩,
    ⟨{ linked with hwl.ownRange := false }, fromNode1 .handback, by unfold State.streamArrives State.packetArrives; decide +kernel⟩⟩

/-- States and operands that meet the hypotheses of each clause of StreamIsAcknowledgedAndCompared (part 1). -/
theorem test_meets_StreamIsAcknowledgedAndCompared_1 :
    (∃ (s : State) (l : HwlHeader) (m : BitVec 32), s.packetArrives l 0x18 ∧ s.fromPartner l = true ∧ m = BitVec.ofNat 32 (fieldAt l.payload 0 4)) ∧
    (∃ (s : State) (l : HwlHeader) (m : BitVec 32) (b : HwlBody), s.packetArrives l 0x19 ∧ s.fromPartner l = true ∧ m = BitVec.ofNat 32 (fieldAt
    l.payload 0 4) ∧ s.hwl.window = [(m, b)] ∧ s.openTo (s.partner.getD 0) b) ∧
    (∃ (s : State) (t : Nat) (g : Nat), s.hwl.gapSince = some g ∧ g + msTicks (s.item iMirrorGapMs) ≤ max s.now t ∧ s.openTo (s.partner.getD 0) (.mnak
    s.hwl.expectIn)) ∧
    (∃ (s : State) (t : Nat) (d : Nat), s.hwl.heldIn = [] ∧ s.hwl.mackSince = some d ∧ d + 491 ≤ max s.now t ∧ s.openTo (s.partner.getD 0) (.mack
    (s.hwl.expectIn - 1))) ∧
    (∃ (s : State) (l : HwlHeader) (g : Gmn) (reason : Nat) (i : Nat), s.packetArrives l 0x1A ∧ s.fromPartner l = true ∧ s.mirroring = true ∧ g =
    BitVec.ofNat 20 (fieldAt l.payload 0 4) ∧ reason = fieldAt l.payload 4 4 ∧ s.heldIndex g = some i ∧ i < 16384) :=
  ⟨⟨{ linked with hwl.window := [(1, .handback)] }, fromNode1 (.mack 1), 1, by unfold State.packetArrives; decide +kernel⟩,
    ⟨{ linked with hwl.window := [(1, .handback)] }, fromNode1 (.mnak 1), 1, .handback, by unfold State.packetArrives State.openTo; decide +kernel⟩,
    ⟨{ linked with hwl.gapSince := some 0 }, 24576000, 0, by unfold State.openTo; decide +kernel⟩,
    ⟨{ linked with hwl.mackSince := some 0 }, 5000, 0, by unfold State.openTo; decide +kernel⟩,
    ⟨linked, fromNode1 (.syncReq 5 1), 5, 1, 5, by unfold State.packetArrives; decide +kernel⟩⟩

/-- States and operands that meet the hypotheses of each clause of StreamIsAcknowledgedAndCompared (part 2). -/
theorem test_meets_StreamIsAcknowledgedAndCompared_2 :
    (∃ (s : State) (l : HwlHeader) (c : Cut) (c1 : Cut) (bl : Table (List Byte)), s.packetArrives l 0x1B ∧ s.fromPartner l = true ∧ fieldAt l.payload 4
    1 ≠ s.hwl.nodeId.toNat ∧ s.cutOf (fieldAt l.payload 0 4) (fieldAt l.payload 4 1) = some c ∧ c.asked = [] ∧ bl = (pieces 64 (fieldAt l.payload
    6 1) (l.payload.drop 8)).zipIdx.foldl (fun tb d => Table.set [] tb (fieldAt l.payload 5 1 + d.2) d.1) c.blocks ∧ c1 = { c with blocks := bl }
    ∧ (c.ready = false ∨ c1.blocks.length < 256)) ∧
    (∃ (s : State) (l : HwlHeader) (c : Cut) (b : Nat) (ms : List (List Byte)), s.packetArrives l 0x1B ∧ s.fromPartner l = true ∧ fieldAt l.payload 4 1
    ≠ s.hwl.nodeId.toNat ∧ s.cutOf (fieldAt l.payload 0 4) (fieldAt l.payload 4 1) = some c ∧ c.asked = [b] ∧ ms = c.meters ++ pieces 64 (fieldAt
    l.payload 6 1) (l.payload.drop 8) ∧ c.ready = true ∧ ms.length = 64) ∧
    (∃ (s : State) (l : HwlHeader) (c : Cut) (b : Nat) (d : Nat), s.packetArrives l 0x1C ∧ s.fromPartner l = true ∧ fieldAt l.payload 4 1 =
    s.hwl.nodeId.toNat ∧ s.cutOf (fieldAt l.payload 0 4) (fieldAt l.payload 4 1) = some c ∧ blocksOf (partOf l.payload 8 32) = [b] ∧ s.partner =
    some d ∧ (s.routeTo d).reachable = true ∧ (s.outPort d).state = .up ∧ (s.outPort d).waiting = [] ∧ (s.outPort d).replay.length < 63 ∧ 66 ≤
    (s.outPort d).credit 0 (s.hopClass (s.routeTo d).port 0 (s.routeTo d).diverted false)) ∧
    (∃ (s : State) (l : HwlHeader), s.packetArrives l 0x1D ∧ s.fromPartner l = true ∧ fieldAt l.payload 4 1 = s.hwl.nodeId.toNat) :=
  ⟨⟨{ linked with hwl.cuts := [{ cutOver 1 with ready := false }] }, fromNode1 (.digest 3 1 0 [List.replicate 64 1]),
    { cutOver 1 with ready := false }, { cutOver 1 with ready := false, blocks := [(0, List.replicate 64 1)] }, [(0, List.replicate 64 1)], by
    unfold State.packetArrives; decide +kernel⟩,
    ⟨{ linked with hwl.cuts := [{ cutOver 1 with asked := [0], meters := List.replicate 63 [1] }] }, fromNode1 (.digest 3 1 0 [List.replicate 64 1]),
    { cutOver 1 with asked := [0], meters := List.replicate 63 [1] }, 0, List.replicate 63 [1] ++ [List.replicate 64 1], by
    unfold State.packetArrives; decide +kernel⟩,
    ⟨{ linked with hwl.cuts := [cutOver 0] }, fromNode1 (.digestReq 3 0 [2]), cutOver 0, 2, 1, by unfold State.packetArrives; decide +kernel⟩,
    ⟨linked, fromNode1 (.digestResult 3 0 [5]), by unfold State.packetArrives; decide +kernel⟩⟩

/-- States and operands that meet the hypotheses of each clause of PeersAskForWork (part 1). -/
theorem test_meets_PeersAskForWork_1 :
    (∃ (s : State) (l : HwlHeader) (e : RelayEntry), s.packetArrives l 0x20 ∧ l.payload.drop 32 = entryData e ∧ 8 < s.ing.fifos.length ∧ s.frameFits
    (entryFrame e 8) = true) ∧
    (∃ (s : State) (l : HwlHeader) (g : Gmn) (i : Nat), s.packetArrives l 0x21 ∧ s.indexFor g = some i) ∧
    (∃ (s : State) (l : HwlHeader) (g : Gmn) (r : Report), s.packetArrives l 0x22 ∧ g = BitVec.ofNat 20 (fieldAt l.payload 0 4) ∧ s.heldIndex g = none
    ∧ r = ⟨.jobResult 1 0 0 (leBytes 4 g.toNat ++ leBytes 1 (fieldAt l.payload 4 1)), .none, true, false, false, 0, s.hwl.nodeId⟩ ∧ s.openTo
    l.src.toNat (.report r)) ∧
    (∃ (s : State) (l : HwlHeader) (g : Gmn) (i : Nat), s.packetArrives l 0x22 ∧ g = BitVec.ofNat 20 (fieldAt l.payload 0 4) ∧ fieldAt l.payload 4 1 =
    2 ∧ s.hwl.owner = true ∧ s.heldIndex g = some i ∧ s.mismatched i = false ∧ s.actionsToday < s.item iMaxActionsPerDay) ∧
    (∃ (s : State) (l : HwlHeader) (j : Job), s.packetArrives l 0x23 ∧ HwlHeader.carries l j = true ∧ s.linksTake = true) :=
  ⟨⟨linked, fromNode1 (.fwdEntry entry), entry, by unfold State.packetArrives; decide +kernel⟩,
    ⟨linked, packet 0x21 0 [1, 2, 3, 4], 5, 5, by unfold State.packetArrives; decide +kernel⟩,
    ⟨{ linked with ctx := [] }, fromNode1 (.actionReq 5 1 900 3), 5, ⟨.jobResult 1 0 0 (leBytes 4 5 ++ leBytes 1 1), .none, true, false, false, 0, 0⟩,
    by unfold State.packetArrives State.openTo; decide +kernel⟩,
    ⟨{ linked with hwl.owner := true }, fromNode1 (.actionReq 5 2 900 3), 5, 5, by unfold State.packetArrives; decide +kernel⟩,
    ⟨linked, fromNode1 (.job probeJob), probeJob, by unfold State.packetArrives; decide +kernel⟩⟩

/-- States and operands that meet the hypotheses of each clause of PeersAskForWork (part 2). -/
theorem test_meets_PeersAskForWork_2 :
    (∃ (s : State) (l : HwlHeader) (h : JobHdr) (o : Nat) (t : Nat), s.packetArrives l 0x23 ∧ HwlHeader.carries l ⟨h, .registerRead o 0⟩ = true ∧
    s.linksTake = true ∧ (s.advance t).probeTakes { h with source := .fabric l.port l.src } o) ∧
    (∃ (s : State) (l : HwlHeader) (r : Report) (o : OpenJob), s.packetArrives l 0x24 ∧ r.final = true ∧ l.payload = (reportBytes r).take payloadMax ∧
    (s.host.jobs.find? fun o => decide (o.remote = some l.src ∧ o.ref.jobId = r.jobId)) = some o) ∧
    (∃ (s : State) (l : HwlHeader) (j : Job) (t : Nat), s.packetArrives l 0x25 ∧ HwlHeader.carries l j = true ∧ (s.advance t).resetPacketOk j = true ∧
    s.pwr.mode = .run ∧ s.rst.hold = none) :=
  ⟨⟨linked, fromNode1 (.job probeJob), probeJob.hdr, 0, 5, by unfold State.packetArrives State.probeTakes; decide +kernel⟩,
    ⟨{ linked with host.jobs := [⟨ref, 3, some 1⟩] }, fromNode1 (.report ⟨.jobResult 0 0 0 [], .none, true, false, false, 7, 1⟩), ⟨.jobResult 0 0 0
    [], .none, true, false, false, 7, 1⟩, ⟨ref, 3, some 1⟩, by unfold State.packetArrives; decide +kernel⟩,
    ⟨linked, fromNode1 (.reset resetJob), resetJob, 5, by unfold State.packetArrives; decide +kernel⟩⟩

/-- States and operands that meet the hypotheses of each clause of ChainsAreRelayed. -/
theorem test_meets_ChainsAreRelayed :
    (∃ (s : State) (l : HwlHeader) (data : List Byte) (total : Nat), s.packetArrives l 0x30 ∧ s.delivery 0 = none ∧ s.hwl.chain = none ∧ fieldAt
    l.payload 4 4 = 0 ∧ total = fieldAt l.payload 8 4 ∧ data = (l.payload.drop 16).take total ∧ data ≠ [] ∧ data.length < total) ∧
    (∃ (s : State) (l : HwlHeader) (c : Chain), s.packetArrives l 0x31 ∧ s.hwl.chain = some c ∧ c.successor = some l.src ∧ c.tag = BitVec.ofNat 32
    (fieldAt l.payload 0 4) ∧ c.head = none ∧ c.ackedTo < fieldAt l.payload 4 4) ∧
    (∃ (s : State) (l : HwlHeader) (node : NodeId) (c : Chain) (c1 : Chain), s.packetArrives l 0x32 ∧ s.hwl.chain = some c ∧ c.tag = BitVec.ofNat 32
    (fieldAt l.payload 0 4) ∧ node = BitVec.ofNat 6 (fieldAt l.payload 4 1) ∧ c.head = none ∧ c.successor ≠ some node ∧ c1 =
    { c with results := c.results ++ [(node, fieldAt l.payload 5 1)] } ∧ s.chainAllHeard c1 = false) ∧
    (∃ (s : State) (t : Nat) (c : Chain) (h : NodeId) (d : NodeId), s.hwl.chain = some c ∧ c.head = some h ∧ c.successor = some d ∧ c.ackedTo < c.total
    ∧ c.lastAck + 5 * ticksPerSec ≤ max s.now t ∧ (s.nextInChain d.toNat 64).2 = none) :=
  ⟨⟨linked, fromNode1 (.chainData 9 0 200 (List.replicate 52 1)), List.replicate 52 1, 200, by unfold State.packetArrives; decide +kernel⟩,
    ⟨{ linked with hwl.chain := some chainHead }, fromNode1 (.chainAck 9 50), chainHead, by unfold State.packetArrives; decide +kernel⟩,
    ⟨{ linked with hwl.members := [(2, some ⟨4, 0, 0, [0], true⟩)], hwl.chain := some chainHead }, fromNode1 (.chainResult 9 3 0), 3, chainHead,
    { chainHead with results := [(3, 0)] }, by unfold State.packetArrives; decide +kernel⟩,
    ⟨{ linked with hwl.chain := some { chainHead with head := some 1, predecessor := some 1, successor := some 2 } }, 122880000,
    { chainHead with head := some 1, predecessor := some 1, successor := some 2 }, 1, 2, by decide +kernel⟩⟩

/-- States and operands that meet the hypotheses of each clause of OwnershipIsExclusive (part 1). -/
theorem test_meets_OwnershipIsExclusive_1 :
    (∃ (s : State), s.boot.headEnd = true ∧ s.hwl.owner = true) ∧
    (∃ (s : State) (c : Nat), s.boot.headEnd = true ∧ s.hwl.owner = false ∧ s.hwl.claiming = some c ∧ s.hwl.nodeId.toNat % 2 = 1) ∧
    (∃ (s : State) (c : Nat), s.boot.headEnd = true ∧ s.hwl.claiming = some c) ∧
    (∃ (s : State) (t : Nat) (c : Nat), s.hwl.claiming = some c ∧ s.hwl.inHigh = false ∧ c + aonTicks (s.item iArbWindow) ≤ max s.now t) ∧
    (∃ (s : State) (c : Nat), s.hwl.claiming = some c ∧ s.hwl.inHigh = true) :=
  ⟨⟨{ linked with hwl.owner := true, hwl.outHigh := true }, by decide +kernel⟩,
    ⟨{ linked with hwl.nodeId := 1, hwl.claiming := some 0, hwl.outHigh := true }, 0, by decide +kernel⟩,
    ⟨{ linked with hwl.claiming := some 0, hwl.outHigh := true }, 0, by decide +kernel⟩,
    ⟨{ linked with hwl.claiming := some 0, hwl.outHigh := true }, 2400000000, 0, by decide +kernel⟩,
    ⟨{ linked with hwl.claiming := some 0, hwl.outHigh := true, hwl.inHigh := true }, 0, by decide +kernel⟩⟩

/-- States and operands that meet the hypotheses of each clause of OwnershipIsExclusive (part 2). -/
theorem test_meets_OwnershipIsExclusive_2 :
    (∃ (s : State) (t : Nat) (d : Nat), s.hwl.backoffUntil = some d ∧ d ≤ max s.now t ∧ s.hwl.partnerLost = true ∧ s.boot.headEnd = true ∧
    s.hwl.interlockFault = false ∧ s.hwl.pairMismatch = false ∧ s.pwr.mode = .run ∧ s.hwl.owner = false ∧ s.hwl.claiming = none ∧ s.hwl.inHigh =
    false) ∧
    (∃ (s : State) (t : Nat), s.hwl.paired = true ∧ s.hwl.checkWiring = true ∧ 0 < s.hwl.queries ∧ s.hwl.queryAgain ≤ max s.now t) :=
  ⟨⟨{ linked with hwl.backoffUntil := some 3, hwl.partnerLost := true }, 5, 3, by decide +kernel⟩,
    ⟨{ linked with hwl.queries := 1 }, 245760, by decide +kernel⟩⟩

/-- States and operands that meet the hypotheses of each clause of QueuesFollowTheirRegisters. -/
theorem test_meets_QueuesFollowTheirRegisters :
    (∃ (s : State) (n : Fin 4) (m : Master) (v : Word), s.checkAccess m (0x1D0100 + 0x10 * n.val) 4 1 = .open ∧ s.cqOpen n.val = true ∧ n.val <
    s.host.cqs.length ∧ v ≠ (s.cq n.val).tail ∧ (v - (s.cq n.val).head).toNat ≤ s.cqEntries n.val) ∧
    (∃ (s : State) (n : Fin 4) (m : Master) (v : Word), s.checkAccess m (0x1D0100 + 0x10 * n.val) 4 1 = .open ∧ s.cqOpen n.val = true ∧ v ≠ (s.cq
    n.val).tail ∧ s.cqEntries n.val < (v - (s.cq n.val).head).toNat) ∧
    (∃ (s : State) (n : Fin 4) (m : Master) (k : Fin 16), s.checkAccess m (0x1D0208 + 0x20 * n.val) 4 1 = .open ∧ (s.rq n.val).enable = false ∧ n.val <
    s.host.rqs.length ∧ 10 ≤ k.val) ∧
    (∃ (s : State) (n : Fin 4) (m : Master) (k : Fin 16), s.checkAccess m (0x1D0208 + 0x20 * n.val) 4 1 = .open ∧ (s.rq n.val).enable = false ∧ n.val <
    s.host.rqs.length ∧ k.val < 10) ∧
    (∃ (s : State) (n : Fin 4) (m : Master), s.checkAccess m (0x1D0208 + 0x20 * n.val) 4 1 = .open ∧ (s.rq n.val).enable = true ∧ n.val <
    s.host.rqs.length) ∧
    (∃ (s : State) (n : Fin 4) (m : Master), s.checkAccess m (0x1D020C + 0x20 * n.val) 4 1 = .open ∧ n.val < s.host.rqs.length) :=
  ⟨⟨running, 1, 4, 3, by decide +kernel⟩,
    ⟨running, 1, 4, 0xFFFFFF, by decide +kernel⟩,
    ⟨running, 1, 4, 10, by decide +kernel⟩,
    ⟨running, 1, 4, 3, by decide +kernel⟩,
    ⟨{ running with host.rqs := List.replicate 4 ⟨0, 0, 10, true, 3, 4, 1, some 0, []⟩ }, 1, 4, by decide +kernel⟩,
    ⟨running, 1, 4, by decide +kernel⟩⟩

/-- States and operands that meet the hypotheses of each clause of ReportsAreIssuedInOrder. -/
theorem test_meets_ReportsAreIssuedInOrder :
    (∃ (s : State) (w : WaitingReport) (rest : List WaitingReport) (n : Fin 4), s.host.waiting = w :: rest ∧ w.dest = .rq n ∧ n.val < s.host.rqs.length
    ∧ (s.rq n.val).enable = true ∧ (s.rq n.val).room w.report = true) ∧
    (∃ (s : State) (w : WaitingReport) (rest : List WaitingReport) (n : Fin 4), s.host.waiting = w :: rest ∧ w.dest = .rq n ∧ (s.rq n.val).enable =
    false) ∧
    (∃ (s : State) (n : Fin 4) (t : Nat) (a : Nat), (s.rq n.val).coalesceSince = some a ∧ n.val < s.host.rqs.length ∧ s.coalUs * 3072 ≤ (max s.now t -
    a) * 125) ∧
    (∃ (s : State) (t : Nat) (w : WaitingReport), s.host.waiting.find? (s.advance t).heldTooLong = some w) ∧
    (∃ (s : State) (n : Fin 4), s.pins.perstLow = true ∧ n.val < s.host.cqs.length ∧ n.val < s.host.rqs.length) :=
  ⟨⟨{ running with host.rqs := List.replicate 4 ⟨0, 0, 10, true, 0, 0, 0, none, []⟩, host.waiting := [modeReport] }, modeReport, [], 1, by
    decide +kernel⟩,
    ⟨{ running with host.waiting := [modeReport] }, modeReport, [], 1, by decide +kernel⟩,
    ⟨{ running with host.rqs := List.replicate 4 ⟨0, 0, 10, true, 0, 1, 1, some 0, []⟩ }, 1, 24576000, 0, by decide +kernel⟩,
    ⟨{ running with host.rqs := List.replicate 4 ⟨0, 0, 10, true, 0, 1024, 0, none, []⟩, host.waiting := [modeReport] }, 999999999999, modeReport, by
    decide +kernel⟩,
    ⟨{ running with pins.perstLow := true }, 1, by decide +kernel⟩⟩

/-- States and operands that meet the hypotheses of each clause of EthernetMessagesAreDeliveredOnce (part 1). -/
theorem test_meets_EthernetMessagesAreDeliveredOnce_1 :
    (∃ (s : State) (p : Fin 2) (f : EthFrame) (m : EthMsg) (i : Fin 32) (sender : BitVec 32) (seq : BitVec 32), (s.ethPort p.val).link = true ∧
    f.content = .message m ∧ f.fcsOk = true ∧ s.filterPass p.val f.dst = true ∧ s.vlanOk p.val f.vid = true ∧ s.ethTarget p.val f = .message ∧
    f.length ≤ s.item (ethItem p.val iMaxFrameEth0) ∧ s.peerOf p f.src = some i ∧ ethMsgOk m (s.peer i.val).peerId = true ∧ s.cmacUnder (s.peer
    i.val).keySlot (messageCovered m) = some m.cmac ∧ (s.assoc (assocKey p i)).peerEpoch = some m.epoch ∧ (s.assoc (assocKey p i)).waiting = [] ∧
    m.seq = (s.assoc (assocKey p i)).nextRx ∧ m.frags = 1 ∧ (s.assoc (assocKey p i)).frags = [] ∧ m.body = .bundleAck sender seq ∧ m.part =
    m.body.bytes) ∧
    (∃ (s : State) (p : Fin 2) (f : EthFrame) (m : EthMsg) (i : Fin 32), (s.ethPort p.val).link = true ∧ f.content = .message m ∧ f.fcsOk = true ∧
    s.filterPass p.val f.dst = true ∧ s.vlanOk p.val f.vid = true ∧ s.ethTarget p.val f = .message ∧ f.length ≤ s.item (ethItem p.val
    iMaxFrameEth0) ∧ s.peerOf p f.src = some i ∧ ethMsgOk m (s.peer i.val).peerId = true ∧ s.cmacUnder (s.peer i.val).keySlot (messageCovered m) =
    some m.cmac ∧ (s.assoc (assocKey p i)).peerEpoch = some m.epoch ∧ (s.assoc (assocKey p i)).waiting = [] ∧ m.body ≠ .ack ∧ m.seq + 1 = (s.assoc
    (assocKey p i)).nextRx ∧ (s.assoc (assocKey p i)).nextRx < 2 ^ 32) ∧
    (∃ (s : State) (p : Fin 2) (f : EthFrame), (s.ethPort p.val).link = true ∧ f.content ≠ .pause ∧ (f.fcsOk = false ∨ s.filterPass p.val f.dst = false
    ∨ s.vlanOk p.val f.vid = false)) ∧
    (∃ (s : State) (p : Fin 2) (f : EthFrame), (s.ethPort p.val).link = true ∧ f.content ≠ .pause ∧ f.fcsOk = true ∧ s.filterPass p.val f.dst = true ∧
    s.vlanOk p.val f.vid = true ∧ s.ethTarget p.val f = .ptp ∧ ptpRefused f = true ∧ f.length ≤ s.item (ethItem p.val iMaxFrameEth0)) ∧
    (∃ (s : State) (p : Fin 2) (i : Fin 32) (t : Nat) (m : SentMessage) (f : EthSent), (s.assoc (assocKey p i)).down = false ∧ ((s.assoc (assocKey p
    i)).unacked.find? fun m => decide (m.due ≤ max s.now t)) = some m ∧ m.resends < 8 ∧ s.keyUsable (s.peer i.val).keySlot = true ∧
    s.messageFrames (assocKey p i) m.seq m.body = [f] ∧ (s.advance t).frameLeaves f) :=
  ⟨⟨eth0, 0, ethFrame (.bundleAck 3 1), ethMsg (.bundleAck 3 1), 0, 3, 1, by decide +kernel⟩,
    ⟨{ eth0 with eth.assocs := [(0, ⟨some 1, 0, 5, [], [], [], false, false⟩)] }, 0, ethFrame (.bundleAck 3 1), ethMsg (.bundleAck 3 1), 0, by
    decide +kernel⟩,
    ⟨eth0, 0, { ethFrame .ack with fcsOk := false }, by decide +kernel⟩,
    ⟨eth0, 0, ⟨0xFFFFFFFFFFFF, 1, none, 0x88F7, 64, true, .ptp .pdelay⟩, by decide +kernel⟩,
    ⟨sending 2, 0, 0, 5, ⟨4, .bundleAck 3 1, 2, 5⟩, sentFrame 4 (.bundleAck 3 1), by unfold State.frameLeaves; decide +kernel⟩⟩

/-- States and operands that meet the hypotheses of each clause of EthernetMessagesAreDeliveredOnce (part 2). -/
theorem test_meets_EthernetMessagesAreDeliveredOnce_2 :
    (∃ (s : State) (p : Fin 2) (i : Fin 32) (t : Nat) (m : SentMessage), (s.assoc (assocKey p i)).down = false ∧ ((s.assoc (assocKey p
    i)).unacked.find? fun m => decide (m.due ≤ max s.now t)) = some m ∧ 8 ≤ m.resends) ∧
    (∃ (s : State) (p : Fin 2) (i : Fin 32) (t : Nat) (f : EthSent), (s.assoc (assocKey p i)).ackDue = true ∧ s.keyUsable (s.peer i.val).keySlot = true
    ∧ s.messageFrames (assocKey p i) 0 .ack = [f] ∧ (s.advance t).frameLeaves f) ∧
    (∃ (s : State) (i : Fin 32) (rest : List (Fin 32)), s.peersWith 2 = i :: rest ∧ (s.assoc (assocKey (s.peer i.val).usePort i)).down = false ∧
    (s.ethPort (s.peer i.val).usePort.val).link = true) ∧
    (∃ (s : State) (t : Nat) (i : Fin 32) (rest : List (Fin 32)) (h : HeldBundle) (b : RelayBundle), s.peersWith 2 = i :: rest ∧ (s.assoc (assocKey
    (s.peer i.val).usePort i)).down = false ∧ (s.ethPort (s.peer i.val).usePort.val).link = true ∧ (s.eth.heldBundles.filter fun h => decide
    (h.due ≤ max s.now t)) = [h] ∧ s.sealBundle h.bundle = some b ∧ (s.assoc (assocKey (s.peer i.val).usePort i)).waiting = [] ∧ (s.assoc
    (assocKey (s.peer i.val).usePort i)).unacked.length < s.item iEthWindow) ∧
    (∃ (s : State) (p : Fin 2), (s.ethPort p.val).mode ≠ 0 ∧ p.val < s.eth.ports.length) :=
  ⟨⟨sending 8, 0, 0, 5, ⟨4, .bundleAck 3 1, 8, 5⟩, by decide +kernel⟩,
    ⟨sending 2, 0, 0, 5, sentFrame 0 .ack, by unfold State.frameLeaves; decide +kernel⟩,
    ⟨{ eth0 with eth.heldBundles := [⟨bundle, 5⟩] }, 0, [], by decide +kernel⟩,
    ⟨{ eth0 with eth.heldBundles := [⟨bundle, 5⟩] }, 5, 0, [], ⟨bundle, 5⟩, bundle, by decide +kernel⟩,
    ⟨eth0, 0, by decide +kernel⟩⟩

/-- States and operands that meet the hypotheses of each clause of EthernetMessagesAreDeliveredOnce (part 3). -/
theorem test_meets_EthernetMessagesAreDeliveredOnce_3 :
    (∃ (s : State) (p : Fin 2) (f : EthSent) (t : Nat), (s.ethPort p.val).mode ≠ 0 ∧ p.val < s.eth.ports.length ∧ (s.ethPort p.val).link = true ∧
    (s.ethPort p.val).queue = [f] ∧ f.traffic < 8 ∧ ((s.advance t).applyGates p.val).gateLets f = true) ∧
    (∃ (s : State) (p : Fin 2), (s.ethPort p.val).mode = 0) ∧
    (∃ (s : State) (p : Fin 2), p.val < s.eth.ports.length) :=
  ⟨⟨{ eth0 with eth.ports := List.replicate 2 { portOn with queue := [gated] } }, 0, gated, 5, by decide +kernel⟩,
    ⟨running, 0, by decide +kernel⟩,
    ⟨eth0, 0, by decide +kernel⟩⟩

/-- States and operands that meet the hypotheses of each clause of SidebandAnswersAndActs (part 1). -/
theorem test_meets_SidebandAnswersAndActs_1 :
    (∃ (s : State) (r : SbReq) (t : Nat), (s.advance t).sbTakes r 0 (some (0x00, 0)) ∧ r.collisions = 0 ∧ r.late = false) ∧
    (∃ (s : State) (r : SbReq) (t : Nat), (s.advance t).sbTakes r 0 (some (0x30, 0)) ∧ r.collisions = 0 ∧ r.late = false) ∧
    (∃ (s : State) (r : SbReq) (t : Nat), (s.advance t).sbTakes r 0 (some (0x40, 0)) ∧ r.collisions = 0 ∧ r.late = false) ∧
    (∃ (s : State) (r : SbReq) (t : Nat), (s.advance t).sbTakes r 0 (some (0x180, 0)) ∧ r.collisions = 0 ∧ r.late = false) ∧
    (∃ (s : State) (r : SbReq) (log : Nat) (count : Nat) (t : Nat), (s.advance t).sbTakes r 6 (some (0x60, 0)) ∧ r.collisions = 0 ∧ r.late = false ∧
    s.pwr.mode ≠ .standby ∧ s.pwr.mode ≠ .gasp ∧ log < 3 ∧ count ≠ 0 ∧ count ≤ 32) :=
  ⟨⟨running, request, 5, takes_of _ _ _ _ (by decide +kernel), by decide +kernel, by decide +kernel⟩,
    ⟨running, request, 5, takes_of _ _ _ _ (by decide +kernel), by decide +kernel, by decide +kernel⟩,
    ⟨running, request, 5, takes_of _ _ _ _ (by decide +kernel), by decide +kernel, by decide +kernel⟩,
    ⟨running, request, 5, takes_of _ _ _ _ (by decide +kernel), by decide +kernel, by decide +kernel⟩,
    ⟨running, requestOf 6, 0, 5, 5, takes_of _ _ _ _ (by decide +kernel), by decide +kernel, by decide +kernel, by decide +kernel, by decide +kernel,
    by decide +kernel, by decide +kernel, by decide +kernel⟩⟩

/-- States and operands that meet the hypotheses of each clause of SidebandAnswersAndActs (part 2). -/
theorem test_meets_SidebandAnswersAndActs_2 :
    (∃ (s : State) (r : SbReq) (t : Nat) (c : SbCached), s.sb.up = true ∧ r.fcsOk = true ∧ s.sbAccepts r = true ∧ (s.advance t).sbCached r = some c ∧
    r.collisions = 0 ∧ r.late = false) ∧
    (∃ (s : State) (r : SbReq) (e : StartEnv) (t : Nat), (s.advance t).sbTakes r 0 (some (0x30, 1)) ∧ s.pwr.mode = .standby ∧ s.pins.wakePending =
    false ∧ s.pwr.thermalStandby = false ∧ e.rails = true) ∧
    (∃ (s : State) (r : SbReq) (t : Nat), (s.advance t).sbTakes r 0 (some (0x30, 1)) ∧ s.pwr.mode ≠ .standby ∧ r.collisions = 0 ∧ r.late = false) ∧
    (∃ (s : State) (r : SbReq) (j : Job) (t : Nat), (s.advance t).sbTakes r (64 + j.hdr.attachLen.toNat) (some (0x20, 1)) ∧ s.pwr.mode = .run ∧
    j.body.code = 0x26 ∧ (s.advance t).signedReason j = none ∧ s.rst.hold = none) ∧
    (∃ (s : State) (r : SbReq) (h : JobHdr) (t : Nat), (s.advance t).sbTakes r (64 + h.attachLen.toNat) none) :=
  ⟨⟨{ running with sb.cache := [⟨⟨1, 3, 1, 0, 0, []⟩, 0⟩] }, request, 5, ⟨⟨1, 3, 1, 0, 0, []⟩, 0⟩, by decide +kernel⟩,
    ⟨{ running with pwr.mode := .standby }, request, start, 5, takes_of _ _ _ _ (by decide +kernel), by decide +kernel, by decide +kernel,
    by decide +kernel, by decide +kernel⟩,
    ⟨running, request, 5, takes_of _ _ _ _ (by decide +kernel), by decide +kernel, by decide +kernel, by decide +kernel⟩,
    ⟨running, requestOf (64 + resetJob.hdr.attachLen.toNat), resetJob, 5, takes_of _ _ _ _ (by decide +kernel), by decide +kernel, by decide +kernel,
    signed_passes _ _ _ _ (by decide +kernel) rfl (by decide +kernel) (by decide +kernel), by decide +kernel⟩,
    ⟨running, requestOf (64 + probeJob.hdr.attachLen.toNat), probeJob.hdr, 5, takes_of _ _ _ _ (by decide +kernel)⟩⟩

/-- States and operands that meet the hypotheses of each clause of SidebandAnswersAndActs (part 3). -/
theorem test_meets_SidebandAnswersAndActs_3 :
    ∃ (s : State) (r : SbReq) (h : JobHdr) (o : Nat) (t : Nat), (s.advance t).sbTakes r (64 + h.attachLen.toNat) none ∧ (s.advance t).probeTakes
    { h with source := .sideband r.mac } o :=
  ⟨running, requestOf (64 + probeJob.hdr.attachLen.toNat), probeJob.hdr, 0, 5, takes_of _ _ _ _ (by decide +kernel),
    by unfold State.probeTakes; decide +kernel⟩

/-- States and operands that meet the hypotheses of each clause of JobsAreRejectedWithoutEffect. -/
theorem test_meets_JobsAreRejectedWithoutEffect :
    (∃ (c : Instr) (j : Job) (s : State) (n : Fin 4), jobOf c = some j ∧ s.jobComes n j ∧ jobListed j.body.code = true ∧ acceptedIn j.body.code
    s.pwr.mode s.boot.reduced = false) ∧
    (∃ (c : Instr) (j : Job) (s : State) (n : Fin 4) (r : Nat × Nat), jobOf c = some j ∧ s.jobComes n j ∧ jobListed j.body.code = true ∧ acceptedIn
    j.body.code s.pwr.mode s.boot.reduced = true ∧ s.lackedRight 0 j.body = some r) :=
  ⟨⟨.hostTime (hdrOf (.hostTime 1 1)) 1 1 5, ⟨hdrOf (.hostTime 1 1), .hostTime 1 1⟩, { running with pwr.mode := .gasp }, 0, by
    unfold State.jobComes; decide +kernel⟩,
    ⟨.hostTime (hdrOf (.hostTime 1 1)) 1 1 5, ⟨hdrOf (.hostTime 1 1), .hostTime 1 1⟩,
    { running with sec.acc := [(0x210, some (0, 0, 0)), (0x1D0, some (0, 0, 0)), (0x1C0, some (0, 0, 0)), (0x190, some (0, 0, 0)), (0x180, some (0, 0, 0))] },
    0, (0x180, 1), by unfold State.jobComes; decide +kernel⟩⟩

/-- States and operands that meet the hypotheses of each clause of MeterJobsAreTaken (part 1). -/
theorem test_meets_MeterJobsAreTaken_1 :
    (∃ (s : State) (n : Fin 4) (h : JobHdr) (g : Gmn) (o : BitVec 48) (p : Nat) (m : Nat) (t : Nat) (i : Nat), (s.advance t).takesJob n ⟨h, .readMeter
    g o p m⟩ ∧ p ≤ 63 ∧ m = 1 ∧ s.heldIndex g = some i ∧ s.txn.pending.length < 32768) ∧
    (∃ (s : State) (n : Fin 4) (h : JobHdr) (k : Nat) (lead : Nat) (t : Nat) (gs : List Gmn), (s.advance t).takesJob n ⟨h, .snapshotGroup k 1 lead gs⟩
    ∧ (s.balGroupItem k).feed ≠ 0 ∧ s.computes k = true ∧ (s.boot.headEnd = true → (s.balGroupItem k).feed ≠ 3) ∧ (s.bal.snapshots.any fun x =>
    decide (x.group = k)) = false ∧ s.bal.snapshots.length < 16 ∧ s.mainsPresent = true) ∧
    (∃ (s : State) (n : Fin 4) (h : JobHdr) (g : Gmn) (t : Nat) (i : Nat), (s.advance t).takesJob n ⟨h, .meterStateRead g 3⟩ ∧ s.heldIndex g = some i) ∧
    (∃ (s : State) (n : Fin 4) (h : JobHdr) (tag : BitVec 16) (t : Nat) (r : Request), (s.advance t).takesJob n ⟨h, .cancel tag⟩ ∧ (s.tagAt (tag.toNat
    % 1024)).gen = tag.toNat / 1024 ∧ (s.tagAt (tag.toNat % 1024)).outstanding = true ∧ (s.tagAt (tag.toNat % 1024)).request = some r) ∧
    (∃ (s : State) (n : Fin 4) (h : JobHdr) (tag : BitVec 16) (t : Nat), (s.advance t).takesJob n ⟨h, .cancel tag⟩ ∧ (s.tagAt (tag.toNat %
    1024)).outstanding = false) :=
  ⟨⟨linked, 0, hdrOf (.readMeter 5 1 0 1), 5, 1, 0, 1, 5, 5, by unfold State.takesJob State.jobComes; decide +kernel⟩,
    ⟨{ linked with cfg := [(iBalGroup 0, 1 :: List.replicate 23 0)] }, 0, hdrOf (.snapshotGroup 0 1 5 [5]), 0, 5, 5, [5], by
    unfold State.takesJob State.jobComes; decide +kernel⟩,
    ⟨linked, 0, hdrOf (.meterStateRead 5 3), 5, 5, 5, by unfold State.takesJob State.jobComes; decide +kernel⟩,
    ⟨{ linked with txn.tags := [(3, ⟨.issued, 1, some readRequest, 1, .plc, 0, some 0, 0, 0, 0⟩)] }, 0, hdrOf (.cancel 1027), 1027, 5, readRequest, by
    unfold State.takesJob State.jobComes; decide +kernel⟩,
    ⟨linked, 0, hdrOf (.cancel 1027), 1027, 5, by unfold State.takesJob State.jobComes; decide +kernel⟩⟩

/-- States and operands that meet the hypotheses of each clause of MeterJobsAreTaken (part 2). -/
theorem test_meets_MeterJobsAreTaken_2 :
    (∃ (s : State) (n : Fin 4) (h : JobHdr) (g : Gmn) (k : Nat) (ph : Nat) (e : Nat) (t : Nat) (i : Nat), (s.advance t).takesJob n ⟨h,
    .balanceMembership g k ph e⟩ ∧ ph ≤ 4 ∧ s.heldIndex g = some i ∧ s.sequences i = true) ∧
    (∃ (s : State) (n : Fin 4) (h : JobHdr) (b : RelayBundle) (t : Nat), (s.advance t).takesJob n ⟨h, .bundleSubmit b⟩ ∧ frameLen (s.hostBundle b) ≤
    frameLimit 7 ∧ 7 < s.ing.fifos.length) :=
  ⟨⟨linked, 0, hdrOf (.balanceMembership 5 1 1 1), 5, 1, 1, 1, 5, 5, by unfold State.takesJob State.jobComes; decide +kernel⟩,
    ⟨linked, 0, hdrOf (.bundleSubmit bundle), bundle, 5, by unfold State.takesJob State.jobComes; decide +kernel⟩⟩

/-- States and operands that meet the hypotheses of each clause of LegalAndContextJobsEnterTheirLane (part 1). -/
theorem test_meets_LegalAndContextJobsEnterTheirLane_1 :
    (∃ (s : State) (n : Fin 4) (h : JobHdr) (k : Nat) (t : Nat) (x : TariffSet), (s.advance t).takesJob n ⟨h, .pushTariffSet k x⟩ ∧ s.ownsMeters = true
    ∧ x.formatOk = true ∧ s.acceptsCert x.cert = true ∧ x.sigOk = true ∧ certCarries x.cert .tariff = true ∧ k ≤ 15 ∧ tariffOk x = true ∧
    ((s.tariffSlot k).any fun y => decide (x.revision ≤ y.revision)) = false ∧ (s.advance t).sec2020 + s.item iTariffLead ≤ x.activate) ∧
    (∃ (s : State) (n : Fin 4) (h : JobHdr) (g : Gmn) (a : Int) (t : Nat) (i : Nat), (s.advance t).takesJob n ⟨h, .creditChange g a⟩ ∧ s.ownsMeters =
    true ∧ s.heldIndex g = some i ∧ (s.ctxAt i).state ≠ .forward ∧ s.mismatched i = false ∧ s.sequences i = true) ∧
    (∃ (s : State) (n : Fin 4) (h : JobHdr) (g : Gmn) (t : Nat) (i : Nat), (s.advance t).takesJob n ⟨h, .disconnect g⟩ ∧ s.ownsMeters = true ∧
    s.heldIndex g = some i ∧ (s.ctxAt i).state ≠ .forward ∧ s.mismatched i = false ∧ s.sequences i = true) ∧
    (∃ (s : State) (n : Fin 4) (h : JobHdr) (g : Gmn) (f : Nat) (t : Nat) (i : Nat), (s.advance t).takesJob n ⟨h, .reconnect g f⟩ ∧ s.ownsMeters = true
    ∧ s.heldIndex g = some i ∧ (s.ctxAt i).state ≠ .forward ∧ s.mismatched i = false ∧ s.sequences i = true) ∧
    (∃ (s : State) (n : Fin 4) (h : JobHdr) (g : Gmn) (m : Nat) (t : Nat) (i : Nat), (s.advance t).takesJob n ⟨h, .legalRelease g m⟩ ∧ m ≤ 1 ∧
    s.heldIndex g = some i ∧ (s.ctxAt i).state ≠ .forward ∧ s.mismatched i = false ∧ s.sequences i = true) :=
  ⟨⟨{ owning with cfg := [(iTariffLead, [0, 0, 0, 0])] }, 0, hdrOf (.pushTariffSet 3 tariff), 3, 5, tariff, by
    unfold State.takesJob State.jobComes; decide +kernel⟩,
    ⟨owning, 0, signed (.creditChange 5 100) 0x1ee4569d6cdb59219532eff34f94480d195623d30977fd71cf3981506ade4ab01525fbcca16153f7394e0727a239531be8c2f66e95657f380ae23731bedf79206b901499046a25f23c66ac3b023379fb4545e4f4e5a31577a762328f0f964e4404a49ce99d70c289f1633d0a72ab573bee2e5e24ff80cf7f3868b124836c32d42ae7c02, 5, 100, 5, 5,
    takes_signed _ _ _ _ (signed_passes _ _ _ _ (by decide +kernel) rfl (by decide +kernel) (by decide +kernel)) (by decide +kernel),
    by decide +kernel⟩,
    ⟨owning, 0, signed (.disconnect 5) 0x1ee4569d6cdb59219532eff34f94480d195623d30977fd71cf3981506ade4ab01525fbcca16153f7394e0727a239531be8c2f66e95657f380ae23731bedf79206b9009eef0c7d6b596c7368630ccae06549a482d90ab344724f13de45b2704d72b6a522758321bcdf27802787753d74fa07a6206c99960d22217e3e1131ba38b81b9979, 5, 5, 5,
    takes_signed _ _ _ _ (signed_passes _ _ _ _ (by decide +kernel) rfl (by decide +kernel) (by decide +kernel)) (by decide +kernel),
    by decide +kernel⟩,
    ⟨owning, 0, signed (.reconnect 5 1) 0x1ee4569d6cdb59219532eff34f94480d195623d30977fd71cf3981506ade4ab01525fbcca16153f7394e0727a239531be8c2f66e95657f380ae23731bedf79206b9019ef6af4930875c0a5c192101ba7349113b8501b990527d578ea6e93e2f78187c0bff942e82297531ef3c882a68c7486c66c5b82ea0f12758fdb7c761dd8adc5d1a, 5, 1, 5, 5,
    takes_signed _ _ _ _ (signed_passes _ _ _ _ (by decide +kernel) rfl (by decide +kernel) (by decide +kernel)) (by decide +kernel),
    by decide +kernel⟩,
    ⟨owning, 0, signed (.legalRelease 5 1) 0x1ee4569d6cdb59219532eff34f94480d195623d30977fd71cf3981506ade4ab01525fbcca16153f7394e0727a239531be8c2f66e95657f380ae23731bedf79206b9014997f08e3a1c70f07d91074f0353b82cc34ff880e4737a4e695550ebedec2fda31d6e52b149899342c26f2e3485bb18fd3c88afb3a4836eb79a1ad07c64d37bc47, 5, 1, 5, 5,
    takes_signed _ _ _ _ (signed_passes _ _ _ _ (by decide +kernel) rfl (by decide +kernel) (by decide +kernel)) (by decide +kernel),
    by decide +kernel⟩⟩

/-- States and operands that meet the hypotheses of each clause of LegalAndContextJobsEnterTheirLane (part 2). -/
theorem test_meets_LegalAndContextJobsEnterTheirLane_2 :
    (∃ (s : State) (n : Fin 4) (h : JobHdr) (a : EnrolArgs) (t : Nat) (i : Nat), (s.advance t).takesJob n ⟨h, .enrolMeter a⟩ ∧ a.meterGroup ≤ 15 ∧
    a.rating ≤ 15 ∧ a.regPhase ≤ 4 ∧ a.radio ≤ 1 ∧ a.chan ≤ 1 ∧ s.indexFor a.gmn = some i ∧ (s.ctxAt i).state = .empty ∧ s.unwrapsBoth a.keySlot
    a.ekWrapped a.akWrapped = true ∧ s.sequences i = true) ∧
    (∃ (s : State) (n : Fin 4) (h : JobHdr) (g : Gmn) (t : Nat) (i : Nat), (s.advance t).takesJob n ⟨h, .removeMeter g⟩ ∧ s.heldIndex g = some i ∧
    s.sequences i = true) ∧
    (∃ (s : State) (n : Fin 4) (h : JobHdr) (g : Gmn) (k : Nat) (t : Nat) (i : Nat) (ek : BitVec 192) (ak : BitVec 192), (s.advance t).takesJob n ⟨h,
    .keyChange g k ek ak⟩ ∧ s.heldIndex g = some i ∧ s.unwrapsBoth k ek ak = true ∧ s.sequences i = true) ∧
    (∃ (s : State) (n : Fin 4) (h : JobHdr) (g : Gmn) (rx : BitVec 32) (tx : BitVec 32) (t : Nat) (i : Nat), (s.advance t).takesJob n ⟨h, .counterReset
    g rx tx⟩ ∧ s.heldIndex g = some i ∧ s.sequences i = true) :=
  ⟨⟨owning, 0, signed (.enrolMeter enrol) 0x1ee4569d6cdb59219532eff34f94480d195623d30977fd71cf3981506ade4ab01525fbcca16153f7394e0727a239531be8c2f66e95657f380ae23731bedf79206b9009eef1bb12bad62167c0dd9b8e08796c50d8744266fec09df8acddaabef6d52d4380b2802fed1df024ec8c744a629b539b71fc6db0af0a549bf05fff0983199c565, enrol, 5, 6,
    takes_signed _ _ _ _ (signed_passes _ _ _ _ (by decide +kernel) rfl (by decide +kernel) (by decide +kernel)) (by decide +kernel),
    by decide +kernel⟩,
    ⟨owning, 0, signed (.removeMeter 5) 0x1ee4569d6cdb59219532eff34f94480d195623d30977fd71cf3981506ade4ab01525fbcca16153f7394e0727a239531be8c2f66e95657f380ae23731bedf79206b901f452db32a6334c70bd901c6d129c65259c29c9a9db8579294f25ed6aa05ca8b9bdee4465d91222414185aca8d6f65d61cb807d7d8582e686bec239595b17fcc54b, 5, 5, 5,
    takes_signed _ _ _ _ (signed_passes _ _ _ _ (by decide +kernel) rfl (by decide +kernel) (by decide +kernel)) (by decide +kernel),
    by decide +kernel⟩,
    ⟨owning, 0, signed (.keyChange 5 8 wrappedEk wrappedAk) 0x1ee4569d6cdb59219532eff34f94480d195623d30977fd71cf3981506ade4ab01525fbcca16153f7394e0727a239531be8c2f66e95657f380ae23731bedf79206b9009f021c9a76f8ffa0f17dbd2c5de47464f660e9506a71dd0aa66a70168ff1a4f1a56b1f9107c350d55044f498da4f29af6757cd05dacf2e510c52bb195bfaf6854d, 5, 8, 5, 5, wrappedEk, wrappedAk,
    takes_signed _ _ _ _ (signed_passes _ _ _ _ (by decide +kernel) rfl (by decide +kernel) (by decide +kernel)) (by decide +kernel),
    by decide +kernel⟩,
    ⟨owning, 0, signed (.counterReset 5 1 1) 0x1ee4569d6cdb59219532eff34f94480d195623d30977fd71cf3981506ade4ab01525fbcca16153f7394e0727a239531be8c2f66e95657f380ae23731bedf79206b9009ee38b64d1ea5901fbeee1c72db57c5c4f6c41c5d2c73d9613c16dcf357eecbce191f5cc1a198729f539a2614dfb9e3694941120f998e4f3a26551d439ac744950, 5, 1, 1, 5, 5,
    takes_signed _ _ _ _ (signed_passes _ _ _ _ (by decide +kernel) rfl (by decide +kernel) (by decide +kernel)) (by decide +kernel),
    by decide +kernel⟩⟩

/-- States and operands that meet the hypotheses of each clause of NodeJobsAct. -/
theorem test_meets_NodeJobsAct :
    (∃ (s : State) (n : Fin 4) (h : JobHdr) (t : Nat) (k : Nat), (s.advance t).takesJob n ⟨h, .designate 0 s.hwl.nodeId (some [k])⟩ ∧ k ≤ 16383 ∧
    s.mirroring = true ∧ s.hwl.assigned = true ∧ (s.ctxAt k).state ≠ .empty) ∧
    (∃ (s : State) (n : Fin 4) (h : JobHdr) (t : Nat) (d : NodeId), (s.advance t).takesJob n ⟨h, .designate 0 d (some [])⟩) ∧
    (∃ (s : State) (n : Fin 4) (h : JobHdr) (t : Nat), (s.advance t).takesJob n ⟨h, .claimOwnership⟩ ∧ s.pwr.mode = .run ∧ s.boot.headEnd = true ∧
    s.hwl.pairMismatch = false ∧ s.hwl.backoffUntil = none ∧ s.hwl.owner = false ∧ s.hwl.claiming = none ∧ s.hwl.inHigh = false) ∧
    (∃ (s : State) (n : Fin 4) (h : JobHdr) (t : Nat), (s.advance t).takesJob n ⟨h, .releaseOwnership⟩ ∧ s.boot.headEnd = true) ∧
    (∃ (s : State) (n : Fin 4) (h : JobHdr) (t : Nat), (s.advance t).takesJob n ⟨h, .forgetCoordinate⟩ ∧ s.pwr.mode = .run ∧ s.rst.hold = none) :=
  ⟨⟨owning, 0, signed (.designate 0 owning.hwl.nodeId (some [5])) 0x1ee4569d6cdb59219532eff34f94480d195623d30977fd71cf3981506ade4ab01525fbcca16153f7394e0727a239531be8c2f66e95657f380ae23731bedf79206b901f452b8ad7ab95e085e76aa05495c532ac595b37379c5525e88473fb11364b48d6919b5604638360ab07246031a16c70a3bf23bd2ed826353f21be0f9347c89f576, 5, 5,
    takes_signed _ _ _ _ (signed_passes _ _ _ _ (by decide +kernel) rfl (by decide +kernel) (by decide +kernel)) (by decide +kernel),
    by decide +kernel⟩,
    ⟨{ owning with hwl.mismatch := [5] }, 0, signed (.designate 0 0 (some [])) 0x1ee4569d6cdb59219532eff34f94480d195623d30977fd71cf3981506ade4ab01525fbcca16153f7394e0727a239531be8c2f66e95657f380ae23731bedf79206b9019ef8f99f38d72a455eafd030e58e3a9ad57354ab2b6d3c60b74338080ef99a941ddf8e6cc9c22288391c572446e6320a06bfc4551405c3b50882fab5f05b2fdb01, 5, 0,
    takes_signed _ _ _ _ (signed_passes _ _ _ _ (by decide +kernel) rfl (by decide +kernel) (by decide +kernel)) (by decide +kernel)⟩,
    ⟨linked, 0, signed .claimOwnership 0x1ee4569d6cdb59219532eff34f94480d195623d30977fd71cf3981506ade4ab01525fbcca16153f7394e0727a239531be8c2f66e95657f380ae23731bedf79206b90049890b040ef16c607ae4b94e64f44fd1a13295586e619fecb1fe758fa2e55fb98ad19af2571abdfe3f0cddae2bb732137c1a12d222c031d06baa3b2999c5532ddb, 5,
    takes_signed _ _ _ _ (signed_passes _ _ _ _ (by decide +kernel) rfl (by decide +kernel) (by decide +kernel)) (by decide +kernel),
    by decide +kernel⟩,
    ⟨owning, 0, signed .releaseOwnership 0x1ee4569d6cdb59219532eff34f94480d195623d30977fd71cf3981506ade4ab01525fbcca16153f7394e0727a239531be8c2f66e95657f380ae23731bedf79206b9019ed9983bd70bf2eddbd518f5dcbca7e48f129d2be61d36c9a6c63a59208522308c61005bb790b8ec636c6d38d17332f426417613828ff043d3313c4b52087b8045, 5,
    takes_signed _ _ _ _ (signed_passes _ _ _ _ (by decide +kernel) rfl (by decide +kernel) (by decide +kernel)) (by decide +kernel),
    by decide +kernel⟩,
    ⟨linked, 0, signed .forgetCoordinate 0x1ee4569d6cdb59219532eff34f94480d195623d30977fd71cf3981506ade4ab01525fbcca16153f7394e0727a239531be8c2f66e95657f380ae23731bedf79206b9019edfee195b70f6950a245821161e3163f0b403775d1ca55ed31b19016d033baf2f28da7ed50134b5b8ddec4fae233c8fc18cfafd295be81d6ce07a9eea79f2390b, 5,
    takes_signed _ _ _ _ (signed_passes _ _ _ _ (by decide +kernel) rfl (by decide +kernel) (by decide +kernel)) (by decide +kernel),
    by decide +kernel⟩⟩

/-- States and operands that meet the hypotheses of each clause of DeviceJobsAct (part 1). -/
theorem test_meets_DeviceJobsAct_1 :
    (∃ (s : State) (n : Fin 4) (h : JobHdr) (o : Nat) (t : Nat), (s.advance t).takesJob n ⟨h, .registerRead o 0⟩) ∧
    (∃ (s : State) (n : Fin 4) (h : JobHdr) (o : Nat) (k : Nat) (t : Nat), (s.advance t).takesJob n ⟨h, .registerRead o k⟩ ∧ 0 < k ∧ k ≤ 256) ∧
    (∃ (s : State) (n : Fin 4) (h : JobHdr) (x : BitVec 256) (t : Nat), (s.advance t).takesJob n ⟨h, .attest x⟩ ∧ (s.sec.quotesUntil.filter fun u =>
    decide (max s.now t < u)).length < 4) ∧
    (∃ (s : State) (n : Fin 4) (h : JobHdr) (e : Nat) (src : Nat) (due : Nat) (per : Nat) (t : Nat) (m : TriggerTemplate), (s.advance t).takesJob n ⟨h,
    .trigger e src due per m⟩ ∧ e ≤ 63 ∧ 0 < src ∧ src ≤ 3 ∧ templateValid m = true) ∧
    (∃ (s : State) (n : Fin 4) (h : JobHdr) (o : Nat) (a : Nat) (b : Nat) (per : Nat) (w : Nat) (t : Nat), (s.advance t).takesJob n ⟨h, .pulse o a b
    per w⟩ ∧ o ≤ 1 ∧ b < 1000000000 ∧ o < s.tim.pulses.length) :=
  ⟨⟨linked, 0, hdrOf (.registerRead 0 0), 0, 5, by unfold State.takesJob State.jobComes; decide +kernel⟩,
    ⟨linked, 0, hdrOf (.registerRead 0 2), 0, 2, 5, by unfold State.takesJob State.jobComes; decide +kernel⟩,
    ⟨linked, 0, hdrOf (.attest 1), 1, 5, by unfold State.takesJob State.jobComes; decide +kernel⟩,
    ⟨linked, 0, hdrOf (.trigger 3 1 100 0 ⟨3, 0, 0, 0, 0xFFF, 0⟩), 3, 1, 100, 0, 5, ⟨3, 0, 0, 0, 0xFFF, 0⟩, by
    unfold State.takesJob State.jobComes; decide +kernel⟩,
    ⟨linked, 0, hdrOf (.pulse 0 5 0 100 10), 0, 5, 0, 100, 10, 5, by unfold State.takesJob State.jobComes; decide +kernel⟩⟩

/-- States and operands that meet the hypotheses of each clause of DeviceJobsAct (part 2). -/
theorem test_meets_DeviceJobsAct_2 :
    (∃ (s : State) (n : Fin 4) (h : JobHdr) (a : Nat) (b : Nat) (t : Nat), (s.advance t).takesJob n ⟨h, .hostTime a b⟩ ∧ b < 1000000000 ∧ s.item
    iTimeSource ≠ 4) ∧
    (∃ (s : State) (n : Fin 4) (h : JobHdr) (a : Nat) (b : Nat) (t : Nat), (s.advance t).takesJob n ⟨h, .hostTime a b⟩ ∧ b < 1000000000 ∧ s.item
    iTimeSource = 4 ∧ s.tim.running = true) :=
  ⟨⟨linked, 0, hdrOf (.hostTime 5 5), 5, 5, 5, by unfold State.takesJob State.jobComes; decide +kernel⟩,
    ⟨{ linked with cfg := [(iTimeSource, [4])], tim.running := true }, 0, hdrOf (.hostTime 5 5), 5, 5, 5, by
    unfold State.takesJob State.jobComes; decide +kernel⟩⟩

/-- States and operands that meet the hypotheses of each clause of SignedJobsAct (part 1). -/
theorem test_meets_SignedJobsAct_1 :
    (∃ (s : State) (n : Fin 4) (h : JobHdr) (w : Nat) (k : Nat) (t : Nat), (s.advance t).takesJob n ⟨h, .wallTimeStep w k⟩ ∧ 0 < w ∧ w ≤ 600 ∧ s.item
    iTimeSource ≠ 0) ∧
    (∃ (s : State) (n : Fin 4) (h : JobHdr) (g : LogId) (k : Nat) (t : Nat), (s.advance t).takesJob n ⟨h, .clearLog k⟩ ∧ logOfNumber k = some g ∧
    (s.way.log g).clearing = false) ∧
    (∃ (s : State) (n : Fin 4) (h : JobHdr) (d : Nat) (t : Nat), (s.advance t).takesJob n ⟨h, .openExpertSession d⟩ ∧ 0 < d ∧ d ≤ 3600) ∧
    (∃ (s : State) (n : Fin 4) (h : JobHdr) (x : List Byte) (t : Nat) (e : Envelope), (s.advance t).takesJob n ⟨h, .debugToken x⟩ ∧ x.length = 16 ∧
    fieldAt x 0 4 = 0x54445856 ∧ fieldAt x 4 2 = 1 ∧ 0 < fieldAt x 6 1 ∧ fieldAt x 6 1 ≤ 16 ∧ s.sec.fuses.debugDisable = false ∧ h.envelope = some
    e) ∧
    (∃ (s : State) (n : Fin 4) (h : JobHdr) (d : NodeId) (t : Nat), (s.advance t).takesJob n ⟨h, .reset d 0⟩ ∧ s.pwr.mode = .run ∧ s.rst.hold = none) :=
  ⟨⟨{ linked with cfg := [(iTimeSource, [1])] }, 0, signed (.wallTimeStep 60 5) 0x1ee4569d6cdb59219532eff34f94480d195623d30977fd71cf3981506ade4ab01525fbcca16153f7394e0727a239531be8c2f66e95657f380ae23731bedf79206b9014985f58cc3df9e37abd6add5a80f94ec72f9373bf42814609df9b5612fac15d6f667653dfedacf973ed5988353081195abd81df600f5647def17db1af5c9153c71, 60, 5, 5,
    takes_signed _ _ _ _ (signed_passes _ _ _ _ (by decide +kernel) rfl (by decide +kernel) (by decide +kernel)) (by decide +kernel),
    by decide +kernel⟩,
    ⟨linked, 0, signed (.clearLog 2) 0x1ee4569d6cdb59219532eff34f94480d195623d30977fd71cf3981506ade4ab01525fbcca16153f7394e0727a239531be8c2f66e95657f380ae23731bedf79206b90049998c486ea4aee2d6788793f5f769394f127df05d3c4cb030816e4365af3b4caf793b74d3a9df715b6fcdcb8862ab13ba478585d7ba3047286c106953ac747dcd, .operations, 2, 5,
    takes_signed _ _ _ _ (signed_passes _ _ _ _ (by decide +kernel) rfl (by decide +kernel) (by decide +kernel)) (by decide +kernel),
    by decide +kernel⟩,
    ⟨linked, 0, signed (.openExpertSession 60) 0x1ee4569d6cdb59219532eff34f94480d195623d30977fd71cf3981506ade4ab01525fbcca16153f7394e0727a239531be8c2f66e95657f380ae23731bedf79206b900f44a9da82a2097d7643025505e8827b038c09815de46a36254e5f9fb15d1a19d7090ec625f5ad3faa2ca0e427c3037e7dc104b363bfab2df957d3ad54de3c9c4e7, 60, 5,
    takes_signed _ _ _ _ (signed_passes _ _ _ _ (by decide +kernel) rfl (by decide +kernel) (by decide +kernel)) (by decide +kernel),
    by decide +kernel⟩,
    ⟨linked, 0, signed (.debugToken tokenBytes) 0x1ee4569d6cdb59219532eff34f94480d195623d30977fd71cf3981506ade4ab01525fbcca16153f7394e0727a239531be8c2f66e95657f380ae23731bedf79206b900f43d6bec97f898952954efd7cccb999f8d07398cb3584ebe608009b9e3690f4c0abcc26513478628772ffdf36ed716ec949fad89d833833f628b66887bc2781c46, tokenBytes, 5, (signed (.debugToken tokenBytes) 0x1ee4569d6cdb59219532eff34f94480d195623d30977fd71cf3981506ade4ab01525fbcca16153f7394e0727a239531be8c2f66e95657f380ae23731bedf79206b900f43d6bec97f898952954efd7cccb999f8d07398cb3584ebe608009b9e3690f4c0abcc26513478628772ffdf36ed716ec949fad89d833833f628b66887bc2781c46).envelope.getD (envelope .claimOwnership),
    takes_signed _ _ _ _ (signed_passes _ _ _ _ (by decide +kernel) rfl (by decide +kernel) (by decide +kernel)) (by decide +kernel),
    by decide +kernel⟩,
    ⟨linked, 0, signed (.reset 0 0) 0x1ee4569d6cdb59219532eff34f94480d195623d30977fd71cf3981506ade4ab01525fbcca16153f7394e0727a239531be8c2f66e95657f380ae23731bedf79206b901f447f7615ecf53937130271d447fe79e2109f3cc98d5e644b18956185781a854288a009a57ac8c42047e3a4708c137053254ed906f28d9a15b49cfe282aade7668, 0, 5,
    takes_signed _ _ _ _ (signed_passes _ _ _ _ (by decide +kernel) rfl (by decide +kernel) (by decide +kernel)) (by decide +kernel),
    by decide +kernel⟩⟩

/-- States and operands that meet the hypotheses of each clause of SignedJobsAct (part 2). -/
theorem test_meets_SignedJobsAct_2 :
    (∃ (s : State) (n : Fin 4) (h : JobHdr) (b : BootHeader) (t : Nat), (s.advance t).takesJob n ⟨h, .bootHeaderWrite b false⟩ ∧ headerGood b = true) ∧
    (∃ (s : State) (n : Fin 4) (h : JobHdr) (b : BootHeader) (f : Bool) (t : Nat), (s.advance t).takesJob n ⟨h, .bootHeaderWrite b f⟩ ∧ headerGood b =
    false) :=
  ⟨⟨{ linked with pwr.mode := .recovery }, 0, signed (.bootHeaderWrite header false) 0x1ee4569d6cdb59219532eff34f94480d195623d30977fd71cf3981506ade4ab01525fbcca16153f7394e0727a239531be8c2f66e95657f380ae23731bedf79206b900f431b5b534e32885786123af1c393dcb461f90078d54fbf2c28fc4863bae51b75cba40b32617c63113ff294900e326c129f7c9bb49c737a6aadb66468b3c7a8848, header, 5,
    takes_signed _ _ _ _ (signed_passes _ _ _ _ (by decide +kernel) rfl (by decide +kernel) (by decide +kernel)) (by decide +kernel),
    by decide +kernel⟩,
    ⟨{ linked with pwr.mode := .recovery }, 0, signed (.bootHeaderWrite ⟨List.replicate 256 0⟩ false) 0x1ee4569d6cdb59219532eff34f94480d195623d30977fd71cf3981506ade4ab01525fbcca16153f7394e0727a239531be8c2f66e95657f380ae23731bedf79206b90049a957ff62abab5de7ba1e95bfa196c0e3d5990952fc8835799266eb8abb75fc88f57748b65f56d4c86d8283e52476f3f667550af79590127fd4223bdc1da3ea7f, ⟨List.replicate 256 0⟩, false, 5,
    takes_signed _ _ _ _ (signed_passes _ _ _ _ (by decide +kernel) rfl (by decide +kernel) (by decide +kernel)) (by decide +kernel),
    by decide +kernel⟩⟩

/-- States and operands that meet the hypotheses of each clause of DeliveriesAndProbationRun. -/
theorem test_meets_DeliveriesAndProbationRun :
    (∃ (s : State) (n : Fin 4) (h : JobHdr) (e : Envelope) (tag : BitVec 32) (total : Nat) (t : Nat) (b : List Byte) (f : Bool), (s.advance t).takesJob
    n ⟨h, .updateDelivery tag 0 total 0 b f⟩ ∧ h.envelope = some e ∧ tag ≠ 0 ∧ 48 ≤ total ∧ total ≤ 33554432 ∧ b ≠ [] ∧ b.length < total) ∧
    (∃ (s : State) (n : Fin 4) (h : JobHdr) (d : Delivery) (total : Nat) (t : Nat) (b : List Byte) (f : Bool), (s.advance t).takesJob n ⟨h,
    .updateDelivery d.tag d.next total d.part b f⟩ ∧ h.envelope = none ∧ s.deliveryOf d.part d.tag = some d ∧ d.part ≤ 4 ∧ d.source = h.source ∧ b
    ≠ [] ∧ d.next + b.length < d.total) ∧
    (∃ (s : State) (d : Delivery) (t : Nat), d ∈ s.upd.deliveries ∧ d.lastBlock + s.item iDeliveryIdle * ticksPerSec ≤ max s.now t) ∧
    (∃ (s : State), s.updRec.state = .probation ∧ s.updRec.deadline ≠ 0 ∧ s.updRec.deadline < s.way.opTime ∧ s.pwr.mode = .run ∧ s.rst.hold = none) ∧
    (∃ (s : State) (t : Nat), s.updRec.state = .probation ∧ (s.advance t).healthy = true ∧ s.upd.step15Op + s.updRec.healthSoak ≤ s.way.opTime) :=
  ⟨⟨linked, 0, signed openingBlock 0x1ee4569d6cdb59219532eff34f94480d195623d30977fd71cf3981506ade4ab01525fbcca16153f7394e0727a239531be8c2f66e95657f380ae23731bedf79206b901f44dc9750c5a710082e74226414b187667392da7c020cd70ab53d47a547264a0d8a73dd0d56f8f2726519aece32ad8b9bc12de72c66b3cfdf06f7c6c2ccad5d793, (signed openingBlock 0x1ee4569d6cdb59219532eff34f94480d195623d30977fd71cf3981506ade4ab01525fbcca16153f7394e0727a239531be8c2f66e95657f380ae23731bedf79206b901f44dc9750c5a710082e74226414b187667392da7c020cd70ab53d47a547264a0d8a73dd0d56f8f2726519aece32ad8b9bc12de72c66b3cfdf06f7c6c2ccad5d793).envelope.getD (envelope .claimOwnership), 7, 400, 5, List.replicate 100 1, false,
    takes_signed _ _ _ _ (signed_passes _ _ _ _ (by decide +kernel) rfl (by decide +kernel) (by decide +kernel)) (by decide +kernel),
    by decide +kernel⟩,
    ⟨{ linked with upd.deliveries := [delivery] }, 0, hdrOf laterBlock, delivery, 400, 5, List.replicate 100 1, false, by
    unfold State.takesJob State.jobComes; decide +kernel⟩,
    ⟨{ linked with upd.deliveries := [delivery] }, delivery, 99999999999, by decide +kernel⟩,
    ⟨{ linked with nor.updA := some probation, way.opTime := 6 }, by decide +kernel⟩,
    ⟨{ linked with nor.updA := some probation, way.opTime := 900000, ful.rebuilding := false, bil.restoring := false }, 5, by decide +kernel⟩⟩

/-- States and operands that meet the hypotheses of each clause of CampaignsAdvance. -/
theorem test_meets_CampaignsAdvance :
    (∃ (s : State) (n : Fin 4) (h : JobHdr) (a : CampaignArgs) (img : MeterImage) (t : Nat), (s.advance t).takesJob n ⟨h, .campaignStart a⟩ ∧
    a.campaign ≤ 3 ∧ a.abort = false ∧ a.gmns ≠ [] ∧ s.camp a.campaign = none ∧ campaignArgsOk a = true ∧ Table.get none s.upd.meterSlots a.slot =
    some img) ∧
    (∃ (s : State) (c : Fin 4) (v : Campaign) (x : Nat) (t : Nat), s.camp c.val = some v ∧ s.campExecutor c.val = some x ∧ s.pendingFull = false ∧
    v.phase = .announcing ∧ 1 < v.announcesLeft ∧ v.due ≤ max s.now t) ∧
    (∃ (s : State) (c : Fin 4) (v : Campaign) (x : Nat) (t : Nat), s.camp c.val = some v ∧ s.campExecutor c.val = some x ∧ s.pendingFull = false ∧
    v.phase = .announcing ∧ v.announcesLeft = 1 ∧ v.due ≤ max s.now t) ∧
    (∃ (s : State) (c : Fin 4) (v : Campaign) (x : Nat) (t : Nat) (b : Nat) (k : Nat) (bs : List Nat), s.camp c.val = some v ∧ s.campExecutor c.val =
    some x ∧ s.pendingFull = false ∧ v.phase = .pass ∧ v.announcesLeft = 0 ∧ v.toSend = b :: k :: bs ∧ v.due ≤ max s.now t) ∧
    (∃ (s : State) (c : Fin 4) (v : Campaign) (t : Nat), s.camp c.val = some v ∧ v.phase = .waiting ∧ v.due ≤ max s.now t ∧ s.cch.allows 3 = true ∧
    s.pendingFull = false) :=
  ⟨⟨{ linked with upd.meterSlots := [(0, some image)] }, 0, signed (.campaignStart campArgs) 0x1ee4569d6cdb59219532eff34f94480d195623d30977fd71cf3981506ade4ab01525fbcca16153f7394e0727a239531be8c2f66e95657f380ae23731bedf79206b900f43ec526d2a671b7ee86536dc8a98ec68d86b8f0ed6b603a5b4e05090242f7655c469c4a0bb29d5246079270043c2f323d795899bcd620e1852419087846000282, campArgs, image, 5,
    takes_signed _ _ _ _ (signed_passes _ _ _ _ (by decide +kernel) rfl (by decide +kernel) (by decide +kernel)) (by decide +kernel),
    by decide +kernel⟩,
    ⟨campaigning { campaign .announcing with announcesLeft := 3 }, 1, { campaign .announcing with announcesLeft := 3 }, 0, 5, by decide +kernel⟩,
    ⟨campaigning { campaign .announcing with announcesLeft := 1 }, 1, { campaign .announcing with announcesLeft := 1 }, 0, 5, by decide +kernel⟩,
    ⟨campaigning { campaign .pass with toSend := [0, 1, 2] }, 1, { campaign .pass with toSend := [0, 1, 2] }, 0, 5, 0, 1, [2], by decide +kernel⟩,
    ⟨campaigning (campaign .waiting), 1, campaign .waiting, 5, by decide +kernel⟩⟩

/-- States and operands that meet the hypotheses of each clause of RegistersReadAndWrite (part 1). -/
theorem test_meets_RegistersReadAndWrite_1 :
    (∃ (s : State) (m : Master) (a : Nat) (r : RegRow), s.checkAccess m a 4 1 = .open ∧ regRowAt a = some r ∧ s.writeIgnored r = false ∧ a ≠ 0x070010 ∧
    ¬(0x081000 ≤ a ∧ a < 0x083000) ∧ ¬(0x060800 ≤ a ∧ a < 0x060840) ∧ ¬(0x061000 ≤ a ∧ a < 0x061020) ∧ ¬(0x1D0100 ≤ a ∧ a < 0x1D0280) ∧ a ≠
    0x120200 ∧ ¬(0x120140 ≤ a ∧ a < 0x12016C)) ∧
    (∃ (s : State) (m : Master) (a : Nat) (size : Nat), s.checkAccess m a size 1 = .reserved) ∧
    (∃ (s : State) (m : Master) (a : Nat) (size : Nat), s.checkAccess m a size 1 = .refused) ∧
    (∃ (s : State) (m : Master) (a : Nat), s.checkAccess m a 4 0 = .open ∧ Table.get none s.latches (latchKey a m) = none) ∧
    (∃ (s : State) (m : Master) (a : Nat) (w : Word), s.checkAccess m a 4 0 = .open ∧ Table.get none s.latches (latchKey a m) = some w) :=
  ⟨⟨running, 4, 0x060008, ⟨"WAY_INT_EN", 0x060008, 0x0, 1, 0x0, 1, 0x0000003F#32, 0x00000000#32, 0x00000000#32, 0x00000000#32, 0x00000000#32⟩, by
    decide +kernel⟩,
    ⟨running, 4, 0x1F0000, 4, by decide +kernel⟩,
    ⟨running, 5, 0x060818, 4, by decide +kernel⟩,
    ⟨running, 0, 0x060008, by decide +kernel⟩,
    ⟨{ running with latches := [(latchKey 0x060008 0, some 9)] }, 0, 0x060008, 9, by decide +kernel⟩⟩

/-- States and operands that meet the hypotheses of each clause of RegistersReadAndWrite (part 2). -/
theorem test_meets_RegistersReadAndWrite_2 :
    (∃ (s : State) (m : Master) (a : Nat), a + 4 ≤ 0x1000000 ∧ s.checkAccess m a 4 1 = .open) ∧
    (∃ (s : State) (m : Master) (p : Nat) (k : Nat), k = 1 ∨ k = 2 ∨ k = 4 ∧ s.busCheck m 1 p k = .memory ∧ p < 0x40000000 ∨ 0x100000000 ≤ p ∧ Table.Wf
    none s.mem) ∧
    (∃ (s : State) (m : Master) (f : Bool) (p : Nat) (k : Nat), s.busCheck m (if f = true then 2 else 0) p k = .memory) ∧
    (∃ (s : State) (m : Master) (f : Bool) (p : Nat) (k : Nat), s.busCheck m (if f = true then 2 else 0) p k = .unmapped) :=
  ⟨⟨running, 4, 0x060008, by decide +kernel⟩,
    ⟨running, 4, 0x10000000, 4, by unfold Table.Wf; decide +kernel⟩,
    ⟨running, 4, false, 0x10000000, 4, by decide +kernel⟩,
    ⟨running, 4, false, 0x30000000, 4, by decide +kernel⟩⟩

/-- States and operands that meet the hypotheses of each clause of KeysAndLogsAct (part 1). -/
theorem test_meets_KeysAndLogsAct_1 :
    (∃ (s : State) (m : Master) (v : Word), s.checkAccess m 0x070010 4 1 = .open ∧ s.expertActive = true ∧ s.sec.destroyBusy = none ∧ 8 ≤ v.toNat % 256) ∧
    (∃ (s : State) (m : Master) (v : Word), s.checkAccess m 0x070010 4 1 = .open ∧ v.toNat % 256 < 8) ∧
    (∃ (s : State) (k : Nat), s.sec.destroyBusy = some k ∧ s.sec.testRoot = false ∧ s.descendants k = [] ∧ (s.keySlot k).kind ≠ 0 ∧ Table.Wf
    KeySlot.empty s.sec.slots) ∧
    (∃ (s : State) (q : Fin 2) (m : Master) (v : Word), s.checkAccess m (0x060800 + 0x20 * q.val + 24) 4 1 = .open ∧ m = 4 ∨ m = 6 ∧ v ≠ 0 ∧
    portDefined (s.portWord q.val 2 / 2 ^ 8 % 2 ^ 8) (s.portWord q.val 2 / 2 ^ 16 % 2 ^ 8) (s.portWord q.val 2 / 2 ^ 24 % 2 ^ 4) = true ∧
    s.way.ready = true ∧ s.way.buffer.length < 256 ∧ (s.way.log (if q.val = 0 then .security else .operations)).full = false ∧ s.way.freeOrdinary
    (if q.val = 0 then .security else .operations) ≠ 0) ∧
    (∃ (s : State) (q : Fin 2) (m : Master), s.checkAccess m (0x060800 + 0x20 * q.val + 24) 4 1 = .open ∧ m ≠ 4 ∧ m ≠ 6) :=
  ⟨⟨{ running with boot.expertUntil := some 9 }, 4, 8, by decide +kernel⟩,
    ⟨running, 4, 7, by decide +kernel⟩,
    ⟨{ owning with sec.destroyBusy := some 8 }, 8, by unfold Table.Wf; decide +kernel⟩,
    ⟨{ running with way.ready := true, way.portWords := [(2, 0x810000)] }, 0, 4, 9, by decide +kernel⟩,
    ⟨{ running with way.ready := true, way.portWords := [(2, 0x810000)] }, 0, 0, by decide +kernel⟩⟩

/-- States and operands that meet the hypotheses of each clause of KeysAndLogsAct (part 2). -/
theorem test_meets_KeysAndLogsAct_2 :
    (∃ (s : State) (v : Word), s.checkAccess 5 0x061018 4 1 = .open ∧ v ≠ 0 ∧ portDefined (s.portWord 2 2 / 2 ^ 8 % 2 ^ 8) (s.portWord 2 2 / 2 ^ 16 % 2
    ^ 8) (s.portWord 2 2 / 2 ^ 24 % 2 ^ 4) = true ∧ s.way.ready = true ∧ s.way.buffer.length < 256 ∧ s.way.legal.full = false ∧ s.way.freeOrdinary
    .legal ≠ 0) ∧
    (∃ (m : Master), m ≠ 5) ∧
    (∃ (s : State) (e : BufferedEvent), s.way.ready = true ∧ s.way.buffer = [e] ∧ e.decided = true ∧ (s.way.log e.log).clearing = false ∧ (s.way.log
    e.log).slots.length < logCapacity e.log - 1 ∧ ((s.way.log e.log).header.map LogHeader.state) ≠ some 2) ∧
    (∃ (s : State) (j : JobRef), s.way.ready = true ∧ s.way.buffer = [] ∧ s.way.operations.clearing = true ∧ s.way.operations.clearJob = some j) :=
  ⟨⟨{ running with way.ready := true, way.portWords := [(18, 0x810000)] }, 9, by decide +kernel⟩,
    ⟨4, by decide +kernel⟩,
    ⟨{ running with way.ready := true, way.buffer := [⟨.security, ⟨0, 0, 1, 1, 0, 0⟩, true⟩] }, ⟨.security, ⟨0, 0, 1, 1, 0, 0⟩, true⟩, by
    decide +kernel⟩,
    ⟨{ running with way.ready := true, way.operations.clearing := true, way.operations.clearJob := some ref, host.jobs := [⟨ref, 0x21, none⟩] }, ref,
    by decide +kernel⟩⟩

/-! ## Well-formed commands -/

/-- An operand one past its field, for each check: the command is refused (part 1). -/
theorem test_ill_formed_commands_1 : ([
    .powerOnReset { start with temps := [] } 0, .powerOnReset { start with nand := List.replicate 17 none } 0,
    .powerOnReset { start with troika := [] } 0, .hrst { start with temps := [] } 0, .holdComplete { start with temps := [] } 0,
    .holdTimeout { start with temps := [] } 0, .bootWatchdogExpiry { start with temps := [] } 0, .modeEvaluation (2 ^ 16) 0 0,
    .modeEvaluation 0 (2 ^ 32) 0, .wakeNLow { start with temps := [] } 0, .standbyMainsReturn [] { start with temps := [] } 0,
    .thermalWake { start with temps := [] } 0, .zeroCrossing 0 { swing 0 with at1 := 0 } [] 0, .sync ptpHdr none 407 0, .delayReqSend 0 407 0,
    .launch 0 0 [] 0 1000000000 false 0, .ingestFrame { frame (.built reading) with src := 11 },
    .ingestFrame { frame (.built reading) with fcsKind := 4 }, .copyReceived 0 { plcCopy with bytes := List.replicate 2049 0 } 0,
    .copyReceived 0 { plcCopy with modulation := 4 } 0, .copyReceived 0 { plcCopy with levels := [] } 0, .taskPost 256 0 0 0 0 0 0,
    .taskPost 0 64 0 0 0 0 0, .taskPost 0 0 4 0 0 0 0, .taskPost 0 0 0 16 0 0 0, .eraseFail (2 ^ 32) false 0, .sectorRead (2 ^ 32) 0 0 false 0,
    .hello { fromNode1 (.leave 0) with head := [] } 0, .helloAck { fromNode1 (.leave 0) with head := [] } 0,
    .announce { fromNode1 (.leave 0) with head := [] } 0, .announce { fromNode1 (.leave 0) with payload := List.replicate 4100 0 } 0,
    .announce { fromNode1 (.leave 0) with payload := [0] } 0, .pair { fromNode1 (.leave 0) with head := [] } 0,
    .heartbeat { fromNode1 (.leave 0) with head := [] } 0, .leave { fromNode1 (.leave 0) with head := [] } 0,
    .mrec { fromNode1 (.leave 0) with head := [] } 0, .mest { fromNode1 (.leave 0) with head := [] } 0,
    .mfeed { fromNode1 (.leave 0) with head := [] } 0, .mjob { fromNode1 (.leave 0) with head := [] } 0 (.credit 1) 0,
    .mctx { fromNode1 (.leave 0) with head := [] } .claimOwnership 0] : List Instr).all (fun c => !c.wellFormed) = true := by decide +kernel

/-- An operand one past its field, for each check: the command is refused (part 2). -/
theorem test_ill_formed_commands_2 : ([
    .mctx (fromNode1 (.leave 0)) (.unknown 256) 0, .cut { fromNode1 (.leave 0) with head := [] } 0,
    .msync { fromNode1 (.leave 0) with head := [] } 0, .handback { fromNode1 (.leave 0) with head := [] } 0,
    .mack { fromNode1 (.leave 0) with head := [] } 0, .mnak { fromNode1 (.leave 0) with head := [] } [] 0,
    .syncReq { fromNode1 (.leave 0) with head := [] } 0, .digest { fromNode1 (.leave 0) with head := [] } 0,
    .digestReq { fromNode1 (.leave 0) with head := [] } 0, .digestResult { fromNode1 (.leave 0) with head := [] } 0,
    .fwdEntry { fromNode1 (.leave 0) with head := [] } entry 0, .seqReq { fromNode1 (.leave 0) with head := [] } (.legal 5 (.credit 1)) 0,
    .actionReq { fromNode1 (.leave 0) with head := [] } 0, .job { fromNode1 (.leave 0) with head := [] } ⟨hdr, .claimOwnership⟩ 0,
    .job (fromNode1 (.leave 0)) ⟨hdr, .unknown 256⟩ 0,
    .report { fromNode1 (.leave 0) with head := [] } ⟨.mode 0 0 0, .none, true, false, false, 0, 0⟩ 0,
    .resetPacket { fromNode1 (.leave 0) with head := [] } ⟨hdr, .claimOwnership⟩ 0, .resetPacket (fromNode1 (.leave 0)) ⟨hdr, .unknown 256⟩ 0,
    .chainData { fromNode1 (.leave 0) with head := [] } 0 false 0, .chainAck { fromNode1 (.leave 0) with head := [] } 0,
    .chainResult { fromNode1 (.leave 0) with head := [] } 0, .credit 0 0 0 (2 ^ 16) 0, .pciePerstN false 5 0 0, .pciePerstN false 0 5 0,
    .ethernetFrame 0 { ethFrame .ack with dst := 2 ^ 48 } 0, .ethernetFrame 0 { ethFrame .ack with src := 2 ^ 48 } 0,
    .ethernetFrame 0 { ethFrame .ack with vid := some 4096 } 0, .ethernetFrame 0 { ethFrame .ack with etherType := 65536 } 0,
    .ethernetFrame 0 { ethFrame .ack with content := .udp (2 ^ 32) 0 .slave } 0,
    .ethernetFrame 0 { ethFrame .ack with content := .udp 0 65536 .slave } 0,
    .ethernetFrame 0 { ethFrame .ack with content := .message { ethMsg .ack with version := 2 ^ 8 } } 0,
    .ethernetFrame 0 { ethFrame .ack with content := .message { ethMsg .ack with kind := 2 ^ 8 } } 0,
    .ethernetFrame 0 { ethFrame .ack with content := .message { ethMsg .ack with length := 2 ^ 16 } } 0,
    .ethernetFrame 0 { ethFrame .ack with content := .message { ethMsg .ack with peerId := 2 ^ 32 } } 0,
    .ethernetFrame 0 { ethFrame .ack with content := .message { ethMsg .ack with epoch := 2 ^ 4 } } 0,
    .ethernetFrame 0 { ethFrame .ack with content := .message { ethMsg .ack with seq := 2 ^ 32 } } 0,
    .ethernetFrame 0 { ethFrame .ack with content := .message { ethMsg .ack with ackSeq := 2 ^ 32 } } 0,
    .ethernetFrame 0 { ethFrame .ack with content := .message { ethMsg .ack with frag := 2 ^ 8 } } 0,
    .ethernetFrame 0 { ethFrame .ack with content := .message { ethMsg .ack with frags := 2 ^ 8 } } 0,
    .ethernetFrame 0 { ethFrame .ack with content := .message { ethMsg .ack with cmac := [] } } 0] : List Instr).all (fun c => !c.wellFormed) = true := by decide +kernel

/-- An operand one past its field, for each check: the command is refused (part 3). -/
theorem test_ill_formed_commands_3 : ([
    .identify { request with etherType := 65536 } 0, .identify { request with version := 256 } 0, .identify { request with kind := 256 } 0,
    .identify { request with length := 65536 } 0, .identify { request with peerId := 2 ^ 32 } 0, .identify { request with frag := 256 } 0,
    .identify { request with frags := 256 } 0, .identify { request with collisions := 17 } 0, .status { request with etherType := 65536 } 0,
    .aonCounters { request with etherType := 65536 } 0, .time { request with etherType := 65536 } 0,
    .readLog { request with etherType := 65536 } 0 0 0 0, .readLog request 256 0 0 0, .readLog request 0 (2 ^ 32) 0 0, .readLog request 0 0 256 0,
    .sidebandWake { request with etherType := 65536 } start 0, .sidebandWake request { start with temps := [] } 0,
    .sidebandReset { request with etherType := 65536 } ⟨hdr, .claimOwnership⟩ 0, .sidebandReset request ⟨hdr, .unknown 256⟩ 0,
    .sidebandJob { request with etherType := 65536 } hdr .claimOwnership 0, .sidebandJob request hdr (.unknown 256) 0, .readMeter hdr 0 0 256 0 0,
    .readMeter hdr 0 0 0 256 0, .snapshotGroup hdr 256 0 0 [] 0, .snapshotGroup hdr 0 256 0 [] 0, .snapshotGroup hdr 0 0 (2 ^ 16) [] 0,
    .registerRead hdr (2 ^ 32) 0 0, .registerRead hdr 0 (2 ^ 16) 0,
    .trigger hdr 0 0 0 0 { (⟨0, 0, 0, 0, 0, 0⟩ : TriggerTemplate) with kind := 256 } 0,
    .trigger hdr 0 0 0 0 { (⟨0, 0, 0, 0, 0, 0⟩ : TriggerTemplate) with priority := 64 } 0,
    .trigger hdr 0 0 0 0 { (⟨0, 0, 0, 0, 0, 0⟩ : TriggerTemplate) with eclass := 4 } 0,
    .trigger hdr 0 0 0 0 { (⟨0, 0, 0, 0, 0, 0⟩ : TriggerTemplate) with exec := 8 } 0, .trigger hdr 256 0 0 0 ⟨0, 0, 0, 0, 0, 0⟩ 0,
    .trigger hdr 0 256 0 0 ⟨0, 0, 0, 0, 0, 0⟩ 0, .trigger hdr 0 0 (2 ^ 48) 0 ⟨0, 0, 0, 0, 0, 0⟩ 0,
    .trigger hdr 0 0 0 (2 ^ 32) ⟨0, 0, 0, 0, 0, 0⟩ 0, .pulse hdr 256 0 0 0 0 0, .pulse hdr 0 (2 ^ 64) 0 0 0 0, .pulse hdr 0 0 (2 ^ 32) 0 0 0,
    .pulse hdr 0 0 0 (2 ^ 32) 0 0] : List Instr).all (fun c => !c.wellFormed) = true := by decide +kernel

/-- An operand one past its field, for each check: the command is refused (part 4). -/
theorem test_ill_formed_commands_4 : ([
    .pulse hdr 0 0 0 0 (2 ^ 32) 0, .hostTime hdr (2 ^ 64) 0 0, .hostTime hdr 0 (2 ^ 32) 0, .balanceMembership hdr 0 256 0 0 0,
    .balanceMembership hdr 0 0 256 0 0, .balanceMembership hdr 0 0 0 256 0, .bundleSubmit hdr { bundle with entryCount := 65536 } 0,
    .bundleSubmit hdr { bundle with totalLength := 2 ^ 32 } 0, .bundleSubmit hdr { bundle with cmac := [] } 0, .pushTariffSet hdr 256 tariff 0,
    .creditChange hdr 0 (2 ^ 63) 0, .creditChange hdr 0 (-(2 ^ 63) - 1) 0, .reconnect hdr 0 256 0, .legalRelease hdr 0 256 0,
    .enrolMeter hdr { enrol with meterGroup := 256 } 0, .enrolMeter hdr { enrol with rating := 256 } 0,
    .enrolMeter hdr { enrol with balGroup := 256 } 0, .enrolMeter hdr { enrol with regPhase := 256 } 0,
    .enrolMeter hdr { enrol with radio := 256 } 0, .enrolMeter hdr { enrol with chan := 256 } 0, .enrolMeter hdr { enrol with keySlot := 256 } 0,
    .keyChange hdr 0 256 0 0 0, .designate hdr 256 0 none 0, .wallTimeStep hdr (2 ^ 32) 0 0, .wallTimeStep hdr 0 (2 ^ 32) 0, .clearLog hdr 256 0,
    .openExpertSession hdr (2 ^ 32) 0, .updateDelivery hdr 0 (2 ^ 32) 0 0 [] false 0, .updateDelivery hdr 0 0 (2 ^ 32) 0 [] false 0,
    .updateDelivery hdr 0 0 0 256 [] false 0, .campaignStart hdr { campArgs with campaign := 256 } 0,
    .campaignStart hdr { campArgs with slot := 256 } 0, .campaignStart hdr { campArgs with blockSize := 65536 } 0,
    .campaignStart hdr { campArgs with rounds := 256 } 0, .campaignStart hdr { campArgs with roundGap := 2 ^ 32 } 0,
    .campaignStart hdr { campArgs with activateAt := 2 ^ 32 } 0, .reset hdr 0 256 0, .lowWordRead .bar0 0 false (2 ^ 24) 0 0,
    .lowWordRead .bar0 0 false 0 9 0, .registerWrite .bar0 0 (2 ^ 24) 0 0 0] : List Instr).all (fun c => !c.wellFormed) = true := by decide +kernel

/-- An operand one past its field, for each check: the command is refused (part 5). -/
theorem test_ill_formed_commands_5 : ([
    .registerWrite .bar0 0 0 9 0 0, .blockErase (2 ^ 32) 0] : List Instr).all (fun c => !c.wellFormed) = true := by decide +kernel

/-- The same of the arguments of a job. -/
theorem test_ill_formed_jobs : ([
    .readMeter 0 0 256 0, .readMeter 0 0 0 256, .snapshotGroup 256 0 0 [], .snapshotGroup 0 256 0 [], .snapshotGroup 0 0 (2 ^ 16) [],
    .registerRead (2 ^ 32) 0, .registerRead 0 (2 ^ 16), .trigger 0 0 0 0 { (⟨0, 0, 0, 0, 0, 0⟩ : TriggerTemplate) with kind := 256 },
    .trigger 0 0 0 0 { (⟨0, 0, 0, 0, 0, 0⟩ : TriggerTemplate) with priority := 64 },
    .trigger 0 0 0 0 { (⟨0, 0, 0, 0, 0, 0⟩ : TriggerTemplate) with eclass := 4 },
    .trigger 0 0 0 0 { (⟨0, 0, 0, 0, 0, 0⟩ : TriggerTemplate) with exec := 8 }, .trigger 256 0 0 0 ⟨0, 0, 0, 0, 0, 0⟩,
    .trigger 0 256 0 0 ⟨0, 0, 0, 0, 0, 0⟩, .trigger 0 0 (2 ^ 48) 0 ⟨0, 0, 0, 0, 0, 0⟩, .trigger 0 0 0 (2 ^ 32) ⟨0, 0, 0, 0, 0, 0⟩,
    .pulse 256 0 0 0 0, .pulse 0 (2 ^ 64) 0 0 0, .pulse 0 0 (2 ^ 32) 0 0, .pulse 0 0 0 (2 ^ 32) 0, .pulse 0 0 0 0 (2 ^ 32), .hostTime (2 ^ 64) 0,
    .hostTime 0 (2 ^ 32), .balanceMembership 0 256 0 0, .balanceMembership 0 0 256 0, .balanceMembership 0 0 0 256,
    .bundleSubmit { bundle with entryCount := 65536 }, .bundleSubmit { bundle with totalLength := 2 ^ 32 },
    .bundleSubmit { bundle with cmac := [] }, .pushTariffSet 256 tariff, .creditChange 0 (2 ^ 63), .creditChange 0 (-(2 ^ 63) - 1),
    .reconnect 0 256, .legalRelease 0 256, .enrolMeter { enrol with meterGroup := 256 }, .enrolMeter { enrol with rating := 256 },
    .enrolMeter { enrol with balGroup := 256 }, .enrolMeter { enrol with regPhase := 256 }, .enrolMeter { enrol with radio := 256 },
    .enrolMeter { enrol with chan := 256 }, .enrolMeter { enrol with keySlot := 256 }, .keyChange 0 256 0 0, .designate 256 0 none,
    .wallTimeStep (2 ^ 32) 0, .wallTimeStep 0 (2 ^ 32), .clearLog 256, .openExpertSession (2 ^ 32), .updateDelivery 0 (2 ^ 32) 0 0 [] false,
    .updateDelivery 0 0 (2 ^ 32) 0 [] false, .updateDelivery 0 0 0 256 [] false, .campaignStart { campArgs with campaign := 256 },
    .campaignStart { campArgs with slot := 256 }, .campaignStart { campArgs with blockSize := 65536 },
    .campaignStart { campArgs with rounds := 256 }, .campaignStart { campArgs with roundGap := 2 ^ 32 },
    .campaignStart { campArgs with activateAt := 2 ^ 32 }, .reset 0 256, .unknown 256] : List JobBody).all (fun b => !jobBodyWf b) = true := by decide +kernel

/-- The commands that those differ from in one operand are well formed. -/
theorem test_well_formed_commands : ([
    .powerOnReset start 0, .hrst start 0, .holdComplete start 0, .holdTimeout start 0, .bootWatchdogExpiry start 0, .modeEvaluation 0 0 0,
    .wakeNLow start 0, .standbyMainsReturn [] start 0, .thermalWake start 0, .zeroCrossing 0 (swing 0) [] 0, .sync ptpHdr none 0 0,
    .delayReqSend 0 0 0, .launch 0 0 [] 0 0 false 0, .ingestFrame (frame (.built reading)), .copyReceived 0 plcCopy 0, .taskPost 0 0 0 0 0 0 0,
    .eraseFail 0 false 0, .sectorRead 0 0 0 false 0, .hello (fromNode1 (.leave 0)) 0, .helloAck (fromNode1 (.leave 0)) 0,
    .announce (fromNode1 (.leave 0)) 0, .pair (fromNode1 (.leave 0)) 0, .heartbeat (fromNode1 (.leave 0)) 0, .leave (fromNode1 (.leave 0)) 0,
    .mrec (fromNode1 (.leave 0)) 0, .mest (fromNode1 (.leave 0)) 0, .mfeed (fromNode1 (.leave 0)) 0, .mjob (fromNode1 (.leave 0)) 0 (.credit 1) 0,
    .mctx (fromNode1 (.leave 0)) .claimOwnership 0, .cut (fromNode1 (.leave 0)) 0, .msync (fromNode1 (.leave 0)) 0,
    .handback (fromNode1 (.leave 0)) 0, .mack (fromNode1 (.leave 0)) 0, .mnak (fromNode1 (.leave 0)) [] 0, .syncReq (fromNode1 (.leave 0)) 0,
    .digest (fromNode1 (.leave 0)) 0, .digestReq (fromNode1 (.leave 0)) 0, .digestResult (fromNode1 (.leave 0)) 0,
    .fwdEntry (fromNode1 (.leave 0)) entry 0, .seqReq (fromNode1 (.leave 0)) (.legal 5 (.credit 1)) 0, .actionReq (fromNode1 (.leave 0)) 0,
    .job (fromNode1 (.leave 0)) ⟨hdr, .claimOwnership⟩ 0, .report (fromNode1 (.leave 0)) ⟨.mode 0 0 0, .none, true, false, false, 0, 0⟩ 0,
    .resetPacket (fromNode1 (.leave 0)) ⟨hdr, .claimOwnership⟩ 0, .chainData (fromNode1 (.leave 0)) 0 false 0, .chainAck (fromNode1 (.leave 0)) 0,
    .chainResult (fromNode1 (.leave 0)) 0, .credit 0 0 0 0 0, .pciePerstN false 0 0 0, .ethernetFrame 0 (ethFrame .ack) 0, .identify request 0,
    .status request 0, .aonCounters request 0, .time request 0, .readLog request 0 0 0 0, .sidebandWake request start 0,
    .sidebandReset request ⟨hdr, .claimOwnership⟩ 0, .sidebandJob request hdr .claimOwnership 0, .readMeter hdr 0 0 0 0 0,
    .snapshotGroup hdr 0 0 0 [] 0, .registerRead hdr 0 0 0, .trigger hdr 0 0 0 0 ⟨0, 0, 0, 0, 0, 0⟩ 0, .pulse hdr 0 0 0 0 0 0, .hostTime hdr 0 0 0,
    .balanceMembership hdr 0 0 0 0 0, .bundleSubmit hdr bundle 0, .pushTariffSet hdr 0 tariff 0, .creditChange hdr 0 0 0, .reconnect hdr 0 0 0,
    .legalRelease hdr 0 0 0, .enrolMeter hdr enrol 0, .keyChange hdr 0 0 0 0 0, .designate hdr 0 0 none 0, .wallTimeStep hdr 0 0 0,
    .clearLog hdr 0 0, .openExpertSession hdr 0 0, .updateDelivery hdr 0 0 0 0 [] false 0, .campaignStart hdr campArgs 0, .reset hdr 0 0 0,
    .lowWordRead .bar0 0 false 0 0 0, .registerWrite .bar0 0 0 0 0 0, .blockErase 0 0] : List Instr).all Instr.wellFormed = true := by decide +kernel

/-- And the jobs. -/
theorem test_well_formed_jobs : ([
    .readMeter 0 0 0 0, .snapshotGroup 0 0 0 [], .registerRead 0 0, .trigger 0 0 0 0 ⟨0, 0, 0, 0, 0, 0⟩, .pulse 0 0 0 0 0, .hostTime 0 0,
    .balanceMembership 0 0 0 0, .bundleSubmit bundle, .pushTariffSet 0 tariff, .creditChange 0 0, .reconnect 0 0, .legalRelease 0 0,
    .enrolMeter enrol, .keyChange 0 0 0 0, .designate 0 0 none, .wallTimeStep 0 0, .clearLog 0, .openExpertSession 0,
    .updateDelivery 0 0 0 0 [] false, .campaignStart campArgs, .reset 0 0, .unknown 0] : List JobBody).all jobBodyWf = true := by decide +kernel

/-- A campaign of more meters than its count field holds, and a block longer than an attachment, are refused, whatever they list. -/
theorem test_ill_formed_lengths (l : List Gmn) (bs : List Byte) (hl : 65536 ≤ l.length) (hb : 1048576 < bs.length) :
    campaignWf { campArgs with gmns := l } = false ∧ jobBodyWf (.updateDelivery 0 0 0 0 bs false) = false := by
  simp only [campaignWf, jobBodyWf, Bool.and_eq_false_iff, decide_eq_false_iff_not]
  omega

/-- The next state of an outcome. -/
def nextOf (o : Host.Outcome State Fault Refusal) : State := match o with | .next u => u | _ => State.reset

/-- An outcome is a next state. -/
def isNext (o : Host.Outcome State Fault Refusal) : Bool := match o with | .next _ => true | _ => false

/-- The next state of an outcome that is one. -/
theorem next_of (o : Host.Outcome State Fault Refusal) (h : isNext o = true) : o = .next (nextOf o) := by
  cases o <;> simp_all [isNext, nextOf]

/-- States and operands that meet the hypotheses of each clause of OtherMetersKeepTheirState. -/
theorem test_meets_OtherMetersKeepTheirState :
    (∃ (s u : State) (lane : Fin 4) (i : Nat) (rest : List Nat), s.laneFills lane.val = i :: rest ∧
      exec (.contextFill lane .clean 5) s = .next u) ∧
    (∃ (s u : State) (k : Fin 16384), exec (.slotMiss k 5) s = .next u) ∧
    (∃ (s u : State) (g : Gmn) (i : Nat), s.heldIndex g = some i ∧ exec (.componentLapse g 5) s = .next u) ∧
    (∃ (s u : State) (id i tref : Nat) (r : Record) (k : Option Int) (d : List (Option Nat)),
      nextItem s.bil.undecided [] s.bil.queue = some (.record id i r tref k d) ∧
      exec (.troikaUpdate false (.image 0) (.image 0) (.image 0) 5) s = .next u) :=
  ⟨⟨{ holding with ing.fills := [[5], [], [], []] }, _, 0, 5, [], by decide +kernel, next_of _ (by decide +kernel)⟩, ⟨State.reset, _, 0, next_of _ (by decide +kernel)⟩,
    ⟨holding, _, 5, 5, by decide +kernel, next_of _ (by decide +kernel)⟩,
    ⟨billing, _, 0, 5, 50, reading, none, [some 10, none, none, none], by decide +kernel, next_of _ (by decide +kernel)⟩⟩

/-- A state with a command in front, and one with none. -/
theorem test_meets_StepRunsFrontCommand :
    (∃ (c : Instr) (rest : List Instr) (s : State), s.pending = c :: rest) ∧ (∃ s : State, s.pending = []) :=
  ⟨⟨.steering, [], { State.reset with pending := [.steering] }, rfl⟩, ⟨State.reset, rfl⟩⟩

/-- The state after reset, with a command waiting, is within the bounds, and its step answers a next state. -/
theorem test_meets_BoundsAreKeptByEveryStep :
    ∃ s u : State, s.cacheBounded ∧ s.noncesBounded ∧ s.requestersBounded ∧ step s = .next u :=
  ⟨{ State.reset with pending := [.steering] }, _, by unfold State.cacheBounded; decide, by unfold State.noncesBounded; decide,
    by intro m; simp [State.reset], next_of _ (by decide +kernel)⟩

/-! ## The spec's worked examples

Each example is run on a small state that holds its figures; what is checked is what the example's table gives. -/

/-- The meter of the examples of spec 04 to 06, GMN 54277, as its 10:15 report left it. -/
def exVal : ValState := ⟨16001, 0, [82145730, 0, 12041180, 952200], 353412937, 93500217671, 392681, 0, true, true, 0, 0, 0, 0⟩

/-- Its context. -/
def exMeter : Context := { meter with gmn := 54277, group := 2, val := exVal }

/-- Its 10:45 report. -/
def exRecord : Record :=
  { reading with
    gmn := 54277, src := 1, typ := 1, readSeq := 16003, cycle := 93500307641, meterTime := 353414737, rxTime := 353414739
    impAct := 82172730, expAct := 0, impReact := 12049280, expReact := 952200, voltage := 2321, current := 0xFFFF }

/-- A node with that meter and that report in lane 1. -/
def exState : State :=
  { running with
    cfg := [(iIntervalMin, [15])], tim.utcOffset := 37, ctx := [(5125, exMeter)]
    val.queue := [[], [{ inVal exRecord with index := 5125 }], [], []] }

/-- Spec 05, worked example: the judgement of the 10:45 report: VFLAGS 0x3001, FLAGGED, GAP 1, SEQ_GAP 1. -/
theorem test_validate_worked_example :
    (exState.judge exVal exRecord).map (fun j => (j.record.vflags, j.record.verdict, j.record.gap, j.record.seqGap)) =
      some (0x3001, 1, 1, 1) := by decide +kernel

/-- Spec 05, worked example: the estimated record for 10:30 that precedes it. -/
theorem test_estimate_worked_example :
    ((exState.judge exVal exRecord).bind fun j => j.estimate).map
      (fun e => (e.typ, e.readSeq, e.meterTime, e.cycle, e.impAct, e.impReact, e.verdict)) =
      some (6, 16003, 353413837, 93500262656, 82159230, 12045230, 4) := by decide +kernel

/-- The tariff set of spec 06's worked example: rate 1 from 06:00, rate 2 from 13:40, local time 180 minutes ahead. -/
def exTariff : TariffSet :=
  let z (n : Nat) : List Byte := List.replicate n 0
  let head := leBytes 4 0x53545856 ++ leBytes 2 1 ++ leBytes 2 64 ++ leBytes 4 908 ++ leBytes 4 1 ++ leBytes 4 1 ++ leBytes 4 0 ++ leBytes 2 180 ++
    [0x45, 0x55, 0x52] ++ [3, 1, 1, 0] ++ [1] ++ leBytes 2 0 ++ leBytes 4 0 ++ leBytes 4 328 ++ leBytes 4 776 ++ z 16
  let rate (price : Nat) := [1, 0, 0, 0] ++ leBytes 4 0 ++ z 28 ++ leBytes 4 price ++ z 28
  let profile := [2, 0, 0, 0] ++ leBytes 2 360 ++ [1, 0] ++ leBytes 2 820 ++ [2, 0] ++ z 32
  ⟨head ++ rate 0 ++ rate 82500 ++ rate 131000 ++ ([1, 1] ++ z 10) ++ profile ++ z 4 ++ cert.bytes ++ z 4 ++ z 132⟩

/-- The legal slot that it starts from. -/
def exSlot : LegalSlot := { LegalSlot.fresh with billTref := 353412937, credit := 5000000, lastClose := 353412000 }

/-- Spec 06, worked example: the estimate for 10:30 goes to rate 1 and costs 111 375. -/
def exEstimated : LegalSlot :=
  (applyRecord exState.billEnv [exTariff] exSlot 54277 { exRecord with typ := 6, meterTime := 353413837 } 353413837 (some 392682)
    [some 13500, some 0, some 4050, some 0]).slot

theorem test_bill_estimate_worked_example :
    (exEstimated.credit, exEstimated.residue, exEstimated.billTref, exEstimated.total) =
      (4888625, 0, 353413837, [13500, 0, 4050, 0]) ∧ (exEstimated.demand.map Prod.fst).take 3 = [5400, 0, 1620] := by decide +kernel

/-- Spec 06, worked example: the 10:45 record's rest is split 600 s to 300 s between the two rates. -/
def exBilled : LegalSlot :=
  (applyRecord exState.billEnv [exTariff] exEstimated 54277 { exRecord with vflags := 0x3001, verdict := 1, gap := 1, seqGap := 1 } 353414737
    (some 392683) [some 27000, some 0, some 8100, some 0]).slot

theorem test_bill_record_worked_example :
    (exBilled.credit, exBilled.residue, exBilled.billTref, exBilled.total, exBilled.rate.getD 4 0, exBilled.rate.getD 8 0) =
      (4755425, 0, 353414737, [27000, 0, 8100, 0], 22500, 4500) := by decide +kernel

/-- Spec 07, worked example: the L2 snapshot result: technical loss 298, residue 4 000, 110 permille. -/
theorem test_group_result_worked_example :
    (fun r : GroupResult => (r.members, r.frozen, r.metersE, r.techLoss, r.residue, r.residuePm, r.snapId))
      (({ exState with cfg := [(iBalGroup 0, [1, 1, 0, 0, 0, 0, 0, 0, 0, 0, 40, 0, 0, 0, 0, 0, 20, 0, 0, 0, 0, 0, 0, 0])] } : State).buildResult
        0 2 true [⟨6410, 2, some 10000, true⟩, ⟨7302, 2, some 6000, true⟩, ⟨9911, 2, some 16000, true⟩]
        ⟨true, 36298, [0, 882000, 0], false, false, 93500430000, 4, false⟩ 42 0 5 3600) = (3, 3, 32000, 298, 4000, 110, 42) := by decide +kernel

/-- Spec 07, worked example: the correlations of the three members. -/
theorem test_correlation_worked_example :
    correlate [(200, 1000), (300, 900), (100, 1100), (400, 1000)] = (-632, -1000) ∧
    correlate [(200, 600), (300, 650), (100, 550), (400, 600)] = (632, 2000) ∧
    correlate [(200, 800), (300, 1200), (100, 400), (400, 1600)] = (1000, 250) := by decide +kernel

/-- Spec 08, worked example: ZC_OFFSET 21 918 of the repeated frame, and the path of cost 3 that it offers. -/
theorem test_zc_offset_worked_example :
    ({ running with cyc.phases := ⟨some 0, some 1000, 9, true, 0, [], []⟩ :: List.replicate 2 ⟨none, none, 0, false, 0, [], []⟩ } : State).zcOffset
      { plcHeard with sinceZero := some 317985, frame.zcDelay := 80 } = some 21918 ∧ running.offered [(0x0C05, 2)] 74 = ⟨3, [(0x0C05, 2)]⟩ := by decide +kernel

/-- A node whose meter has slot 201, drift 5.00 ppm, last measured 358.26 s before N of frame 10. -/
def exSleepy : State :=
  { holding with ctx := [(5, { meter with radio := { meter.radio with slot := 201, drift := 500, tMeas := 268220, offset := 0 } })] }

/-- Spec 09, worked example: the guards, N of slot 201, and the drift of 85.3 ppm after the Enh-Ack with LAG 34 250, measured to within the
rounding of LAG's ticks. -/
theorem test_wake_worked_example :
    (List.range 4).map exSleepy.guardNs = [2000000, 8000000, 14000000, 20000000] ∧ exSleepy.nominalNs 0 201 = 12080200000 ∧
    ((exSleepy.measure 5 (626480200000 + 1791300 + 1074000000) 34250).1.radioLink 5).drift = 8529 := by decide +kernel

/-- Spec 10, worked example: the release cycles of the first and the last meter of a schedule. -/
theorem test_schedule_worked_example :
    let s : State := { running with cfg := [(iSchedule 0, [4, 0, 1, 20, 4, 0, 0, 0, 88, 2] ++ List.replicate 14 0)] }
    (s.scheduleFor 0 93500358601 0 3000 0 meter).release = 93500358601 ∧
      (s.scheduleFor 0 93500358601 0 3000 2999 meter).release = 93500388591 := by decide +kernel

/-- Task descriptors of spec 10's second worked example. -/
def task (kind p e x post : Nat) : Task := ⟨kind, p, e, x, 0xFFF, 0, post⟩

/-- Its node under budget B2, with K1 to K6 waiting, VAC0 to VAC3 and the ports PLC and RF0 at work. -/
def exTasks : State :=
  { running with
    pwr.parked := 0xFF0, cch.level := 2
    cch.waiting := [task 25 40 3 0 1500, task 22 60 3 0 0, task 19 20 2 1 2200, task 19 20 1 2 2800, task 20 30 1 0 3100, task 1 0 0 0 4000]
    cch.executors := (List.range 16).map fun k =>
      if k < 4 ∨ k = 12 ∨ k = 13 then ⟨some (task 22 60 0 0 0), false, 0, []⟩ else ⟨none, false, 0, []⟩ }

/-- What an executor runs after the retirement of its task, by KIND. -/
def runsNext (x : Fin 16) (s : State) : Option Nat := ((nextOf (exec (.taskRetire x 100000) s)).cch.executor x.val).running.map Task.kind

/-- Spec 10, worked example: the idle PLC port runs nothing, an idle core runs K6 and, after it, K3; the idle RF0 port runs K2. -/
theorem test_budget_worked_example :
    runsNext 12 exTasks = none ∧ runsNext 2 exTasks = some 1 ∧ runsNext 1 (nextOf (exec (.taskRetire 2 100000) exTasks)) = some 20 ∧
      runsNext 13 exTasks = some 19 := by decide +kernel

/-- Spec 13, worked example: the report of two slots takes indexes 1 023 and 1 024; RQ_TAIL_0 becomes 1 025; PHASE is 1. -/
theorem test_ring_worked_example :
    let q : ReportQueue := ⟨0x80000000, 0x40, 10, true, 1020, 1023, 0, none, []⟩
    let r : Report := ⟨.reading 0 exRecord, .none, true, false, false, 0, 0⟩
    q.room r = true ∧ (q.write r).tail = 1025 ∧ (q.write r).ring.map Prod.fst = [0, 1023] ∧ q.phase q.tail = true := by decide +kernel

/-- Spec 14, worked example: the key slots, generations and floors before KEY_DESTROY of slot 10. -/
def exKeys : State :=
  { running with
    sec.slots := [(8, ⟨kek, 3, 2, 2, 0, 0, 5⟩), (9, ⟨kek, 3, 2, 2, 0, 0, 1⟩), (10, ⟨kek, 1, 1, 2, 0, 0, 2⟩), (12, ⟨kek, 2, 4, 1, 10, 1, 1⟩)]
    sec.gens := [(8, ⟨3, 0, 5⟩), (9, ⟨1, 0, 1⟩), (10, ⟨1, 0, 2⟩), (12, ⟨1, 0, 1⟩)], sec.destroyBusy := some 10 }

/-- Slots 10 and 12 are EMPTY, the floor of slot 10 is 3, both have GEN 2; slots 8 and 9 are untouched; each counter counts one. -/
theorem test_key_destroy_worked_example :
    let u := nextOf (exec (.keyPurge 5) exKeys)
    u.sec.slots = [(8, ⟨kek, 3, 2, 2, 0, 0, 5⟩), (9, ⟨kek, 3, 2, 2, 0, 0, 1⟩)] ∧
      u.sec.gens = [(8, ⟨3, 0, 5⟩), (9, ⟨1, 0, 1⟩), (10, ⟨2, 3, 2⟩), (12, ⟨2, 0, 1⟩)] ∧
      u.reg cSecKeyDestroyed.addr = 1 ∧ u.reg cSecOrphaned.addr = 1 := by decide +kernel

/-- Spec 15, worked example: mains lost, the ride under B2, and GASP with cause 5 after RIDE_TIME. -/
theorem test_ride_worked_example :
    let s : State :=
      { running with boot.headEnd := false, nor.bootHeader := some header, pwr.metAssumed := false, cfg := [(iRideTime, [30, 0, 0, 0])] }
    let u := nextOf (exec (.modeEvaluation 5000 1100 1000) s)
    let v := nextOf (exec (.rideTimeExpiry 737281000) u)
    (u.pwr.mode, u.pwr.budget) = (.ride, 2) ∧ (v.pwr.mode, v.pwr.gaspCause) = (.gasp, 5) := by decide +kernel

/-- Spec 03, worked example: 30 ms after its last crossing, cycle 93 500 217 611, the mains is absent, and synthetic cycle 612 is stamped one
nominal period after it; the next follows one period later. -/
def exCycles : State :=
  { running with
    cyc.running := true, cyc.nominalDecided := true, cyc.num := 93500217611, cyc.lastAt := 1000000, cyc.source := 0
    cyc.phases := ⟨some 1000000, some 1000000, 9, true, 93500217611, [], []⟩ :: List.replicate 2 ⟨none, none, 0, false, 0, [], []⟩ }

theorem test_mains_loss_worked_example :
    let u := nextOf (exec (.phaseAbsent 0 1737280) exCycles)
    let v := nextOf (exec (.syntheticCycle 1983040) u)
    (u.cyc.mains, u.cyc.num, u.cyc.lastAt, v.cyc.num, v.cyc.lastAt) = (false, 93500217612, 1491520, 93500217613, 1983040) := by decide +kernel

/-- Spec 03, worked example: a crossing after 492 012 AFE clocks takes the next number. -/
theorem test_crossing_worked_example :
    let u := nextOf (exec (.zeroCrossing 0 (swing 1492012) [] 1492108) exCycles)
    (u.cyc.num, u.cyc.lastAt, u.cyc.synth) = (93500217612, 1492012, false) := by decide +kernel

/-- Spec 02, worked example: the layout of the field-role image of 836 bytes. -/
theorem test_image_worked_example :
    let z (n : Nat) : List Byte := List.replicate n 0
    let entry (key o n : Nat) := leBytes 2 key ++ leBytes 2 1 ++ leBytes 4 o ++ leBytes 4 n ++ z 4
    let head := leBytes 4 0x49435856 ++ leBytes 2 3 ++ leBytes 2 128 ++ leBytes 4 836 ++ z 4 ++ leBytes 4 1 ++ z 4 ++ [0, 0] ++ leBytes 2 3 ++
      leBytes 4 128 ++ leBytes 4 256 ++ leBytes 4 704 ++ z 88
    imageStructured ⟨head ++ entry 1 176 24 ++ entry 4 200 40 ++ entry 0x8004 240 16 ++ z 660⟩ = true := by decide +kernel

/-- Spec 17, worked example: no ordinary legal slot is left for a credit event, and the log-full record is written in slot 4 095, naming SOURCE 20 and CODE 0x80, and LOST is 1. -/
theorem test_log_full_worked_example :
    let s : State := { running with way.ready := true, way.legal.slots := List.replicate 4095 .torn }
    let u := nextOf (exec (.bufferProgram [] [] 5) (s.event .legal 20 0x80 0 54277))
    (u.way.legal.slots.getLast?, u.way.legal.slots.length, u.way.legal.lost, u.way.legal.full) =
      (some (.valid ⟨0, 0, 6, 0x81, 0, 0x8014⟩), 4096, 1, true) := by decide +kernel

/-- Spec 04, worked example: 2031-03-14 10:15:00 UTC is METER_TIME 353 412 937; the link frame of 124 bytes takes 8 FIFO words; slot 5 125 is of
lane 1. -/
theorem test_ingest_worked_example :
    cosemSeconds ⟨2031, 3, 14, 5, 10, 15, 0, 0, 0, 0⟩ 37 = 353412937 ∧ fifoWords 124 = 8 ∧ laneOf 5125 = 1 := by decide +kernel

/-! ## Steps -/

/-- A step runs the command at the front of the queue on the state with the rest of the queue. -/
theorem test_step_runs_front :
    step { State.reset with pending := [.gateChange 0 5, .steering] } =
      exec (.gateChange 0 5) { State.reset with pending := [.steering] } := rfl

/-- The block idles on an empty queue. -/
theorem test_step_idles : step State.reset = .next State.reset := rfl

/-! ## Checks of the algorithms that the spec names, by the values that their standards give -/

/-- The nine characters "123456789". -/
def nineDigits : List Byte := [0x31, 0x32, 0x33, 0x34, 0x35, 0x36, 0x37, 0x38, 0x39]

/-- The check values of the CRC catalogue for CRC-32C, CRC-32 and CRC-16 with polynomial 0x1021 and initial value 0xFFFF. -/
theorem test_crc_check_values : crc32c nineDigits = 0xE3069283 ∧ crc32 nineDigits = 0xCBF43926 ∧ crc16 nineDigits = 0x29B1 := by decide +kernel

/-- SHA-512 of "abc" (FIPS 180-4). -/
theorem test_sha512_abc : (sha512Bytes [0x61, 0x62, 0x63]).take 8 = beBytes 8 0xDDAF35A193617ABA := by decide +kernel

/-- AES-128 of FIPS 197, appendix C.1, and AES-256 of appendix C.3. -/
theorem test_aes_fips_197 :
    bytesOf (aesEnc (aesRoundKeys (List.range 16)) ((List.range 16).map (17 * ·))) = beBytes 16 0x69C4E0D86A7B0430D8CDB78070B4C55A ∧
    bytesOf (aesEnc (aesRoundKeys (List.range 32)) ((List.range 16).map (17 * ·))) = beBytes 16 0x8EA2B7CA516745BFEAFC49904B496089 ∧
    aesDec (aesRoundKeys (List.range 16)) (natsOf (beBytes 16 0x69C4E0D86A7B0430D8CDB78070B4C55A)) = (List.range 16).map (17 * ·) := by decide +kernel

/-- AES-CMAC of the empty message and of one block (RFC 4493). -/
theorem test_cmac_rfc_4493 :
    aesCmac (beBytes 16 0x2B7E151628AED2A6ABF7158809CF4F3C) [] = beBytes 16 0xBB1D6929E95937287FA37D129B756746 ∧
    aesCmac (beBytes 16 0x2B7E151628AED2A6ABF7158809CF4F3C) (beBytes 16 0x6BC1BEE22E409F96E93D7E117393172A) =
      beBytes 16 0x070A16B46B4D4144F79BDD9DD04A287C := by decide +kernel

/-- Key data of 128 bits under a key-encryption key of 256 bits (RFC 3394, 4.3). -/
theorem test_key_wrap_rfc_3394 :
    kwWrap (bytesOf (List.range 32)) (beBytes 16 0x00112233445566778899AABBCCDDEEFF) =
      beBytes 24 0x64E8C3F9CE0F5BA263E9777905818A2A93C8191E7D6E8AE7 := by decide +kernel

/-- AES-GCM with a zero key, nonce and block (test cases 1 and 2 of its specification). -/
theorem test_gcm_test_cases :
    gcmTag (List.replicate 16 0) (List.replicate 12 0) [] [] = beBytes 16 0x58E2FCCEFA7E3061367F1D57A4E7455A ∧
    gcmCrypt (List.replicate 16 0) (List.replicate 12 0) (List.replicate 16 0) = beBytes 16 0x0388DACE60B6A392F328C2B971B2FE78 ∧
    gcmTag (List.replicate 16 0) (List.replicate 12 0) [] (beBytes 16 0x0388DACE60B6A392F328C2B971B2FE78) =
      beBytes 16 0xAB6E47D42CEC13BDF53A67B21257BDDF := by decide +kernel


end Sys2Proof.Tests
end

/-! # Reads and writes of the register window: words, alignment and pairs (R10 to R12) -/

namespace Sys2Proof.Machine

/-! ## Register words after one is stored or counted -/

theorem State.reg_setReg_other (s : State) {a b : Nat} (v : Word) (h : b ≠ a) : (s.setReg a v).reg b = s.reg b :=
  Table.get_set_other 0 s.regs v h

/-- Whatever form the table of registers is in: a word other than zero is stored by listing it. -/
theorem State.reg_setReg_nonzero (s : State) (a : Nat) {v : Word} (h : v ≠ 0) : (s.setReg a v).reg a = v := by
  show Table.get 0 (Table.set 0 s.regs a v) a = v
  rw [Table.set, if_neg h, Table.get_put]

theorem State.reg_bumpHalf_other (s : State) {a b : Nat} (high : Bool) (h : b ≠ a) : (s.bumpHalf a high).reg b = s.reg b :=
  s.reg_setReg_other _ h

/-- A low half that is not at its end rises by one, and the high half stays. -/
theorem State.toNat_reg_bumpHalf_low (s : State) (a : Nat) (h : (s.reg a).toNat % 65536 < 65535) :
    ((s.bumpHalf a false).reg a).toNat = (s.reg a).toNat + 1 := by
  have hlow : satAdd 16 ((s.reg a).toNat % 65536) 1 = (s.reg a).toNat % 65536 + 1 := by
    have hmax : maxOf 16 = 65535 := rfl
    rw [satAdd, hmax]; omega
  have hword : s.bumpHalf a false = s.setReg a (BitVec.ofNat 32 ((s.reg a).toNat + 1)) := by
    have hsum : (s.reg a).toNat % 65536 + 1 + 65536 * ((s.reg a).toNat / 65536) = (s.reg a).toNat + 1 := by omega
    simp [State.bumpHalf, hlow, hsum]
  have hval : (BitVec.ofNat 32 ((s.reg a).toNat + 1)).toNat = (s.reg a).toNat + 1 := by
    rw [BitVec.toNat_ofNat]; omega
  have hne : BitVec.ofNat 32 ((s.reg a).toNat + 1) ≠ 0 := fun hz => by simp [hz] at hval
  rw [hword, s.reg_setReg_nonzero a hne, hval]

/-! ## What an access meets -/

/-- The rules of an access depend on the start and on the access entries alone. -/
theorem State.checkAccess_congr {s u : State} (hboot : u.boot = s.boot) (hsec : u.sec = s.sec) (m : Master) (a size kind : Nat) :
    u.checkAccess m a size kind = s.checkAccess m a size kind := by
  simp only [State.checkAccess, State.accGranted, State.accEntry, State.accDefault, State.accFixed, hboot, hsec]

theorem State.checkAccess_misaligned (s : State) (m : Master) {a size : Nat} (kind : Nat) (hp : pageListed a = true) (h : a % 4 ≠ 0 ∨ size ≠ 4) :
    s.checkAccess m a size kind = .misaligned := by
  rw [State.checkAccess, if_neg (by simp [hp]), if_pos h]

theorem State.readAnswer_open {s : State} {m : Master} {a size : Nat} (h : s.checkAccess m a size 0 = .open) :
    s.readAnswer m a size = s.masterRead m a := by
  rw [State.readAnswer, h]

theorem State.readAnswer_misaligned {s : State} {m : Master} {a size : Nat} (h : s.checkAccess m a size 0 = .misaligned) :
    s.readAnswer m a size = ((s.countError a).emit (.busError m.val a), 0xFFFFFFFF) := by
  rw [State.readAnswer, h]

theorem State.masterWrite_misaligned {s : State} {m : Master} {a size : Nat} (v : Word) (h : s.checkAccess m a size 1 = .misaligned) :
    s.masterWrite m a size v = (s.countError a).emit (.busError m.val a) := by
  rw [State.masterWrite, State.writeBarred, h]

theorem State.masterWrite_unimplemented {s : State} {m : Master} {a size : Nat} (v : Word) (h : s.checkAccess m a size 1 = .open)
    (hr : regRowAt a = none) : s.masterWrite m a size v = s.ignoreWrite a := by
  rw [State.masterWrite, State.writeBarred, h, hr]

theorem State.readReg_unimplemented (s : State) {a : Nat} (h : regRowAt a = none) : s.readReg a = 0 := by
  rw [State.readReg, h]

/-! ## Latched words -/

theorem latchKey_inj {a b : Nat} {m : Master} : latchKey a m = latchKey b m ↔ a = b := by
  simp only [latchKey]; omega

/-- The words that a low-word read latches, on top of those held. -/
theorem State.get_latches_foldl_setLatch (m : Master) (f : Nat → Word) (l : List Nat) (s : State) (b : Nat) :
    Table.get none (l.foldl (fun st c => st.setLatch c m (some (f c))) s).latches (latchKey b m) =
      if b ∈ l then some (f b) else Table.get none s.latches (latchKey b m) := by
  induction l generalizing s with
  | nil => rfl
  | cons c l ih =>
    have hset : Table.get none (s.setLatch c m (some (f c))).latches (latchKey b m) =
        if b = c then some (f b) else Table.get none s.latches (latchKey b m) := by
      rw [State.setLatch, Table.set, if_neg (Option.some_ne_none _)]
      split
      · next h => rw [h, Table.get_put]
      · next h => rw [Table.get_put_other none s.latches _ (latchKey_inj.not.2 h)]
    rw [List.foldl_cons, ih, hset]
    by_cases hl : b ∈ l <;> simp [hl]

theorem State.masterRead_word_latched {s : State} {m : Master} {a : Nat} {w : Word} (h : Table.get none s.latches (latchKey a m) = some w) :
    (s.masterRead m a).2 = w := by
  rw [State.masterRead, h]

theorem State.masterRead_word_unlatched {s : State} {m : Master} {a : Nat} (h : Table.get none s.latches (latchKey a m) = none) :
    (s.masterRead m a).2 = s.readReg a := by
  rw [State.masterRead, h]

theorem State.masterRead_latches_partner {s : State} {m : Master} {lo hi : Nat} (hp : hi ∈ latchedBy lo)
    (h : Table.get none s.latches (latchKey lo m) = none) :
    Table.get none (s.masterRead m lo).1.latches (latchKey hi m) = some (s.readReg hi) := by
  rw [State.masterRead, h]
  exact (State.get_latches_foldl_setLatch m s.readReg (latchedBy lo) s hi).trans (if_pos hp)

theorem State.masterRead_out (s : State) (m : Master) (a : Nat) : (s.masterRead m a).1.out = s.out :=
  keeps_State_masterRead .out (by decide)

theorem State.checkAccess_masterRead (s : State) (m n : Master) (a b size kind : Nat) :
    (s.masterRead m a).1.checkAccess n b size kind = s.checkAccess n b size kind :=
  State.checkAccess_congr (keeps_State_masterRead .boot (by decide)) (keeps_State_masterRead .sec (by decide)) n b size kind

/-! ## The two commands on the register window -/

theorem exec_lowWordRead_bar0 (s : State) (m : Master) (fetch : Bool) (a size t : Nat) :
    exec (.lowWordRead .bar0 m fetch a size t) s =
      .next (((s.advance t).readAnswer m a size).1.emit (.readData m.val a ((s.advance t).readAnswer m a size).2)) := rfl

theorem exec_registerWrite_bar0 (s : State) (m : Master) (a size : Nat) (v : Word) (t : Nat) :
    exec (.registerWrite .bar0 m a size v t) s = .next ((s.advance t).masterWrite m a size v) := rfl

/-- The state that a granted read of a register word leaves. -/
def State.afterRead (s : State) (m : Master) (a t : Nat) : State :=
  ((s.advance t).masterRead m a).1.emit (.readData m.val a ((s.advance t).masterRead m a).2)

theorem exec_lowWordRead_open {s : State} {m : Master} {a : Nat} (t : Nat) (h : s.checkAccess m a 4 0 = .open) :
    exec (.lowWordRead .bar0 m false a 4 t) s = .next (s.afterRead m a t) := by
  rw [exec_lowWordRead_bar0, State.readAnswer_open (s := s.advance t) h]; rfl

theorem State.afterRead_out_latched {s : State} {m : Master} {a : Nat} {w : Word} (t : Nat)
    (h : Table.get none s.latches (latchKey a m) = some w) : (s.afterRead m a t).out = .readData m.val a w :: s.out := by
  rw [State.afterRead, State.emit_out, State.masterRead_out, State.masterRead_word_latched (s := s.advance t) h, State.advance_out]

theorem State.afterRead_out_unlatched {s : State} {m : Master} {a : Nat} (t : Nat) (h : Table.get none s.latches (latchKey a m) = none) :
    (s.afterRead m a t).out = .readData m.val a ((s.advance t).readReg a) :: s.out := by
  rw [State.afterRead, State.emit_out, State.masterRead_out, State.masterRead_word_unlatched (s := s.advance t) h, State.advance_out]

theorem State.afterRead_latches_partner {s : State} {m : Master} {lo hi : Nat} (t : Nat) (hp : hi ∈ latchedBy lo)
    (h : Table.get none s.latches (latchKey lo m) = none) :
    Table.get none (s.afterRead m lo t).latches (latchKey hi m) = some ((s.advance t).readReg hi) :=
  State.masterRead_latches_partner (s := s.advance t) hp h

theorem State.checkAccess_afterRead (s : State) (m n : Master) (a b t size kind : Nat) :
    (s.afterRead m a t).checkAccess n b size kind = s.checkAccess n b size kind :=
  (s.advance t).checkAccess_masterRead m n a b size kind

/-- The state that an access of no whole aligned word leaves, before a read is answered: the page's error count and the error response (R11). -/
def State.afterMisaligned (s : State) (m : Master) (a t : Nat) : State := ((s.advance t).countError a).emit (.busError m.val a)

theorem exec_lowWordRead_misaligned (s : State) (m : Master) {a size : Nat} (t : Nat) (hp : pageListed a = true) (h : a % 4 ≠ 0 ∨ size ≠ 4) :
    exec (.lowWordRead .bar0 m false a size t) s = .next ((s.afterMisaligned m a t).emit (.readData m.val a 0xFFFFFFFF)) := by
  rw [exec_lowWordRead_bar0, State.readAnswer_misaligned ((s.advance t).checkAccess_misaligned m 0 hp h)]; rfl

theorem exec_registerWrite_misaligned (s : State) (m : Master) {a size : Nat} (v : Word) (t : Nat) (hp : pageListed a = true)
    (h : a % 4 ≠ 0 ∨ size ≠ 4) : exec (.registerWrite .bar0 m a size v t) s = .next (s.afterMisaligned m a t) := by
  rw [exec_registerWrite_bar0, State.masterWrite_misaligned v ((s.advance t).checkAccess_misaligned m 1 hp h)]; rfl

theorem exec_registerWrite_unimplemented {s : State} {m : Master} {a : Nat} (v : Word) (t : Nat) (h : s.checkAccess m a 4 1 = .open)
    (hr : regRowAt a = none) : exec (.registerWrite .bar0 m a 4 v t) s = .next ((s.advance t).ignoreWrite a) := by
  rw [exec_registerWrite_bar0, State.masterWrite_unimplemented (s := s.advance t) v h hr]

theorem State.afterMisaligned_out (s : State) (m : Master) (a t : Nat) : (s.afterMisaligned m a t).out = .busError m.val a :: s.out := rfl

theorem State.keepsBut_afterMisaligned (s : State) (m : Master) (a t : Nat) : s.keepsBut [.now, .regs, .out] (s.afterMisaligned m a t) :=
  keepsBut_step keeps_State_emit (by decide) <| keepsBut_step keeps_State_countError (by decide) <|
    keeps_State_advance.weaken (by decide)

theorem State.reg_afterMisaligned_other (s : State) (m : Master) {a b : Nat} (t : Nat) (h : b ≠ pageIgnoredAt a) :
    (s.afterMisaligned m a t).reg b = s.reg b :=
  (s.advance t).reg_bumpHalf_other true h

/-! ## The obligations -/

/-- Settles O5: the first read latches the partner's word and leaves the rules of access alone, so the second answers that word. -/
theorem pairsAreReadLowWordFirst : Obligations.PairsAreReadLowWordFirst := by
  unfold Obligations.PairsAreReadLowWordFirst
  refine ⟨?lowThenHigh, ?latchedHigh, ?liveHigh⟩
  case lowThenHigh =>
    intro s m lo hi t t' hp hlo hhi hnone
    have hhi' : (s.afterRead m lo t).checkAccess m hi 4 0 = .open := (s.checkAccess_afterRead m m lo hi t 4 0).trans hhi
    exact ⟨_, _, exec_lowWordRead_open t hlo, State.afterRead_out_unlatched t hnone, exec_lowWordRead_open t' hhi',
      State.afterRead_out_latched t' (State.afterRead_latches_partner t hp hnone)⟩
  case latchedHigh =>
    intro u m _ hi t w _ hhi hsome
    exact ⟨_, exec_lowWordRead_open t hhi, State.afterRead_out_latched t hsome⟩
  case liveHigh =>
    intro s m hi t hhi hnone
    exact ⟨_, exec_lowWordRead_open t hhi, State.afterRead_out_unlatched t hnone⟩

/-- Settles O6: a misaligned access ends in the page's error count and the error response, an unimplemented offset reads zero, and a write to
one raises the low half of the page's count. -/
theorem accessesAreWholeAlignedWords : Obligations.AccessesAreWholeAlignedWords := by
  unfold Obligations.AccessesAreWholeAlignedWords
  refine ⟨?misalignedRead, ?misalignedWrite, ?unimplementedRead, ?unimplementedWrite⟩
  case misalignedRead =>
    intro s m a size t hp h
    exact ⟨_, exec_lowWordRead_misaligned s m t hp h, rfl,
      keepsBut_step keeps_State_emit (by decide) (s.keepsBut_afterMisaligned m a t), fun _ hb => s.reg_afterMisaligned_other m t hb⟩
  case misalignedWrite =>
    intro s m a size t v hp h
    exact ⟨_, exec_registerWrite_misaligned s m v t hp h, s.afterMisaligned_out m a t, s.keepsBut_afterMisaligned m a t,
      fun _ hb => s.reg_afterMisaligned_other m t hb⟩
  case unimplementedRead =>
    intro s m a t hopen hrow hnone
    refine ⟨_, exec_lowWordRead_open t hopen, ?_⟩
    rw [State.afterRead_out_unlatched t hnone, State.readReg_unimplemented _ hrow]
  case unimplementedWrite =>
    intro s m a t v hopen hrow
    exact ⟨_, exec_registerWrite_unimplemented v t hopen hrow,
      keepsBut_step keeps_State_ignoreWrite (by decide) (keeps_State_advance.weaken (by decide)),
      fun _ hb => (s.advance t).reg_bumpHalf_other false hb, (s.advance t).toNat_reg_bumpHalf_low (pageIgnoredAt a)⟩

end Sys2Proof.Machine

/-! # The cycle number (R68 to R72): what numbers a cycle, and what leaves the number alone -/

namespace Sys2Proof.Machine

/-! ## What leaves the cycle clock as it is -/

@[simp] theorem State.postHeld_cyc (s : State) (t : Task) : (s.postHeld t).cyc = s.cyc :=
  keeps_State_postHeld .cyc (by decide)

@[simp] theorem State.postEvent_cyc (s : State) (kind exec cycle : Nat) (boundary : Option Nat) (passed : Nat) (short synth : Bool) :
    (s.postEvent kind exec cycle boundary passed short synth).cyc = s.cyc :=
  keeps_State_postEvent .cyc (by decide)

@[simp] theorem State.repostHeld_cyc (s : State) : s.repostHeld.cyc = s.cyc :=
  keeps_State_repostHeld .cyc (by decide)

@[simp] theorem State.clearIntervalLimits_cyc (s : State) : s.clearIntervalLimits.cyc = s.cyc :=
  keeps_State_clearIntervalLimits .cyc (by decide)

@[simp] theorem State.closeSynthetic_cyc (s : State) (cycle stamp : Nat) : (s.closeSynthetic cycle stamp).cyc = s.cyc :=
  keeps_State_closeSynthetic .cyc (by decide)

@[simp] theorem State.closeFeeder_cyc (s : State) (cycle stamp : Nat) (short : Bool) : (s.closeFeeder cycle stamp short).cyc = s.cyc :=
  keeps_State_closeFeeder .cyc (by decide)

@[simp] theorem State.postBarriers_cyc (s : State) (k : Nat) : (s.postBarriers k).cyc = s.cyc :=
  keeps_State_postBarriers .cyc (by decide)

@[simp] theorem State.startSchedules_cyc (s : State) (index stamp : Nat) : (s.startSchedules index stamp).cyc = s.cyc :=
  keeps_State_startSchedules .cyc (by decide)

@[simp] theorem State.setFeederRate_cyc (s : State) (t : Nat) : (s.setFeederRate t).cyc = s.cyc :=
  keeps_State_setFeederRate .cyc (by decide)

@[simp] theorem State.tariffEvents_cyc (s : State) (before stamp : Nat) (synth : Bool) : (s.tariffEvents before stamp synth).cyc = s.cyc :=
  keeps_State_tariffEvents .cyc (by decide)

@[simp] theorem State.latchSnapshots_cyc (s : State) (stamp : Nat) (synth : Bool) : (s.latchSnapshots stamp synth).cyc = s.cyc :=
  keeps_State_latchSnapshots .cyc (by decide)

@[simp] theorem State.launchBeacons_cyc (s : State) : s.launchBeacons.cyc = s.cyc :=
  keeps_State_launchBeacons .cyc (by decide)

@[simp] theorem State.fireCycleTriggers_cyc (s : State) (synth : Bool) : (s.fireCycleTriggers synth).cyc = s.cyc :=
  keeps_State_fireCycleTriggers .cyc (by decide)

@[simp] theorem State.settleEvent_cyc (s : State) (before stamp : Nat) : (s.settleEvent before stamp).cyc = s.cyc :=
  keeps_State_settleEvent .cyc (by decide)

@[simp] theorem State.releaseRequests_cyc (s : State) : s.releaseRequests.cyc = s.cyc :=
  keeps_State_releaseRequests .cyc (by decide)

@[simp] theorem State.noteRegressed_cyc (s : State) : s.noteRegressed.cyc = s.cyc :=
  keeps_State_noteRegressed .cyc (by decide)

@[simp] theorem State.reserveCycles_cyc (s : State) : s.reserveCycles.cyc = s.cyc :=
  keeps_State_reserveCycles .cyc (by decide)

@[simp] theorem State.metMeasure_cyc (s : State) (l : List MetCycle) : (s.metMeasure l).cyc = s.cyc :=
  keeps_State_metMeasure .cyc (by decide)

/-! ## What a boundary cycle moves -/

/-- The clock without what the interval boundaries move: the last boundary and the history of them, the mark of a real boundary cycle, and the
counts of intervals since the checkpoints. -/
def Cyc.offBoundary (c : Cyc) : Cyc :=
  { c with lastBoundary := none, boundaries := [], realBoundary := false, checkpointCount := 0, legalCheckpointCount := 0 }

theorem State.contextCheckpoint_offBoundary (s : State) (n : Nat) : (s.contextCheckpoint n).cyc.offBoundary = s.cyc.offBoundary := by
  unfold State.contextCheckpoint
  split
  · rfl
  · dsimp only
    rw [State.postHeld_cyc]; rfl

theorem State.legalCheckpoint_offBoundary (s : State) (n : Nat) : (s.legalCheckpoint n).cyc.offBoundary = s.cyc.offBoundary := by
  unfold State.legalCheckpoint
  split
  · rfl
  · dsimp only
    rw [State.postHeld_cyc]; rfl

theorem State.boundaryEvent_offBoundary (s : State) (stamp b passed : Nat) (synth : Bool) :
    (s.boundaryEvent stamp b passed synth).cyc.offBoundary = s.cyc.offBoundary := by
  rw [State.boundaryEvent, State.startSchedules_cyc, State.legalCheckpoint_offBoundary, State.contextCheckpoint_offBoundary,
    State.postBarriers_cyc]
  cases synth with
  | true => rw [if_pos rfl, State.closeSynthetic_cyc, State.postEvent_cyc, State.clearIntervalLimits_cyc]; rfl
  | false => rw [if_neg Bool.false_ne_true, State.closeFeeder_cyc, State.postEvent_cyc, State.clearIntervalLimits_cyc]; rfl

theorem State.realiseBoundary_offBoundary (s : State) (stamp : Nat) (synth : Bool) :
    (s.realiseBoundary stamp synth).cyc.offBoundary = s.cyc.offBoundary := by
  unfold State.realiseBoundary
  split
  · rfl
  · dsimp only
    split
    · rfl
    · exact s.boundaryEvent_offBoundary _ _ _ _

/-- The events of a cycle move nothing of the clock but what a boundary moves. -/
theorem State.cycleEvents_offBoundary (s : State) (before stamp : Nat) (synth : Bool) :
    (s.cycleEvents before stamp synth).cyc.offBoundary = s.cyc.offBoundary := by
  rw [State.cycleEvents, State.releaseRequests_cyc, State.settleEvent_cyc, State.fireCycleTriggers_cyc, State.launchBeacons_cyc,
    State.latchSnapshots_cyc, State.tariffEvents_cyc, State.realiseBoundary_offBoundary]
  split
  · rw [State.setFeederRate_cyc, State.repostHeld_cyc]
  · rw [State.repostHeld_cyc]

/-! ## The count of cycles -/

/-- What the numbering of a cycle decides: the number, whether the cycle is synthetic, its AFE time, and SATURATED. -/
structure CycleCount where
  num : Nat
  synth : Bool
  lastAt : Nat
  saturated : Bool

/-- The count as the clock stands. -/
def Cyc.count (c : Cyc) : CycleCount := ⟨c.num, c.synth, c.lastAt, c.saturated⟩

theorem Cyc.count_offBoundary (c : Cyc) : c.offBoundary.count = c.count := rfl

theorem Cyc.phases_offBoundary (c : Cyc) : c.offBoundary.phases = c.phases := rfl

/-- The count after one more cycle (R68 to R72): at 2⁴⁸ − 1 only SATURATED changes. -/
def CycleCount.next (k : CycleCount) (at_ : Nat) (synth : Bool) : CycleCount :=
  if 2 ^ 48 - 1 ≤ k.num then { k with saturated := true } else ⟨k.num + 1, synth, at_, decide (k.num + 1 = 2 ^ 48 - 1)⟩

theorem CycleCount.next_end {k : CycleCount} (at_ : Nat) (synth : Bool) (h : 2 ^ 48 - 1 ≤ k.num) :
    k.next at_ synth = { k with saturated := true } :=
  if_pos h

theorem CycleCount.next_below {k : CycleCount} (at_ : Nat) (synth : Bool) (h : k.num < 2 ^ 48 - 1) :
    k.next at_ synth = ⟨k.num + 1, synth, at_, decide (k.num + 1 = 2 ^ 48 - 1)⟩ :=
  if_neg h.not_ge

/-- At its end the number stays, and so does the rest of the clock but SATURATED (R72). -/
theorem State.numberCycle_end {s : State} (at_ : Nat) (synth : Bool) (h : 2 ^ 48 - 1 ≤ s.cyc.num) :
    s.numberCycle at_ synth = s.modCyc fun c => { c with saturated := true } :=
  if_pos h

theorem State.numberedEvents_offBoundary (u : State) (before stamp : Nat) (synth : Bool) :
    (u.noteRegressed.reserveCycles.cycleEvents before stamp synth).cyc.offBoundary = u.cyc.offBoundary := by
  rw [State.cycleEvents_offBoundary, State.reserveCycles_cyc, State.noteRegressed_cyc]

/-- Below its end the number moves on by one in a state on which the events of the cycle then act. -/
theorem State.numberCycle_below {s : State} (at_ : Nat) (synth : Bool) (h : s.cyc.num < 2 ^ 48 - 1) :
    ∃ (u : State) (before stamp : Nat), s.numberCycle at_ synth = u.noteRegressed.reserveCycles.cycleEvents before stamp synth ∧
      u.cyc.count = ⟨s.cyc.num + 1, synth, at_, decide (s.cyc.num + 1 = 2 ^ 48 - 1)⟩ ∧ u.cyc.phases = s.cyc.phases :=
  ⟨_, _, _, if_neg h.not_ge, rfl, rfl⟩

/-- The next count follows from the count alone: nothing that happens in a cycle's events goes into it. -/
theorem State.numberCycle_count (s : State) (at_ : Nat) (synth : Bool) :
    (s.numberCycle at_ synth).cyc.count = s.cyc.count.next at_ synth := by
  obtain h | h := lt_or_ge s.cyc.num (2 ^ 48 - 1)
  · obtain ⟨u, before, stamp, hu, hcount, -⟩ := State.numberCycle_below at_ synth h
    rw [hu, ← Cyc.count_offBoundary, State.numberedEvents_offBoundary, Cyc.count_offBoundary, hcount]
    exact (CycleCount.next_below (k := s.cyc.count) at_ synth h).symm
  · rw [State.numberCycle_end at_ synth h]
    exact (CycleCount.next_end (k := s.cyc.count) at_ synth h).symm

theorem State.numberCycle_phases (s : State) (at_ : Nat) (synth : Bool) : (s.numberCycle at_ synth).cyc.phases = s.cyc.phases := by
  obtain h | h := lt_or_ge s.cyc.num (2 ^ 48 - 1)
  · obtain ⟨u, before, stamp, hu, -, hphases⟩ := State.numberCycle_below at_ synth h
    rw [hu, ← Cyc.phases_offBoundary, State.numberedEvents_offBoundary, Cyc.phases_offBoundary, hphases]
  · rw [State.numberCycle_end at_ synth h]; rfl

/-! ## A synthetic cycle -/

theorem State.numberDue_one {s : State} (h : s.cyc.lastAt + s.cyc.period ≤ s.now) :
    s.numberDue 1 = s.numberCycle (s.cyc.lastAt + s.cyc.period) true :=
  if_neg h.not_gt

/-- A synthetic cycle that is due is the next, one period after the last (R69). -/
theorem exec_syntheticCycle_due {s : State} {t : Nat} (hrun : s.cyc.running = true) (hmains : s.cyc.mains = false)
    (hdue : s.cyc.lastAt + s.cyc.period ≤ max s.now t) :
    exec (.syntheticCycle t) s = .next ((s.advance t).numberCycle (s.cyc.lastAt + s.cyc.period) true) := by
  show Host.Outcome.next (if s.cyc.running = false ∨ s.cyc.mains = true then s.advance t else (s.advance t).numberDue 1) = _
  rw [if_neg (by simp [hrun, hmains]), State.numberDue_one (s := s.advance t) hdue]; rfl

/-! ## A crossing -/

theorem State.modPhase_count (s : State) (p : Nat) (f : Phase → Phase) : (s.modPhase p f).cyc.count = s.cyc.count := rfl

theorem Cyc.phase_congr {c d : Cyc} (h : c.phases = d.phases) {p : Nat} : c.phase p = d.phase p := by
  rw [Cyc.phase, h, Cyc.phase]

theorem State.modPhase_source (s : State) (p : Nat) (f : Phase → Phase) : (s.modPhase p f).cyc.source = s.cyc.source := rfl

theorem State.measureAngles_count (s : State) (z : Nat) : (s.measureAngles z).cyc.count = s.cyc.count := by
  unfold State.measureAngles; split <;> rfl

theorem State.measureAngles_phases (s : State) (z : Nat) : (s.measureAngles z).cyc.phases = s.cyc.phases := by
  unfold State.measureAngles; split <;> rfl

/-- A change of a phase that leaves its presence alone leaves it present, whether or not the list holds the phase. -/
theorem State.modPhase_present {s : State} {p : Nat} {f : Phase → Phase} (hf : ∀ x, (f x).present = x.present) :
    ((s.modPhase p f).cyc.phase p).present = (s.cyc.phase p).present := by
  show ((s.cyc.phases.set p (f (s.cyc.phase p))).getD p Phase.fresh).present = _
  by_cases hp : p < s.cyc.phases.length
  · rw [List.getD_eq_getElem _ _ (by simpa using hp), List.getElem_set_self, hf]
  · rw [List.set_eq_of_length_le (not_lt.1 hp)]; rfl

/-- The window of R65 depends on the settings and on the nominal frequency alone. -/
theorem State.inWindow_congr {s u : State} (hcfg : u.cfg = s.cfg) (hboot : u.boot = s.boot) (hsec : u.sec = s.sec)
    (hnom : u.cyc.nominal60 = s.cyc.nominal60) (d : Nat) : u.inWindow d = s.inWindow d := by
  rw [State.inWindow, State.nominalHz, State.item, State.itemBytes, State.itemDefault, hcfg, hboot, hsec, hnom]; rfl

/-- On the present source a valid crossing more than half a period after the last numbered cycle is numbered (R68). -/
theorem State.maybeNumber_count {s : State} {z : Nat} (h : s.cyc.period < 2 * (z - s.cyc.lastAt)) :
    (s.maybeNumber z false).cyc.count = s.cyc.count.next z false := by
  have hok : (s.cyc.passedOver || decide (s.cyc.period < 2 * (z - s.cyc.lastAt))) = true := by simp [h]
  rw [State.maybeNumber]
  simp only [Bool.false_eq_true, if_false, hok, if_true, State.numberCycle_count]; rfl

theorem State.maybeNumber_phases (s : State) (z : Nat) (first : Bool) : (s.maybeNumber z first).cyc.phases = s.cyc.phases := by
  rw [State.maybeNumber]
  refine (apply_ite (fun u : State => u.cyc.phases) _ _ _).trans ?_
  rw [State.numberCycle_phases]
  cases first <;> simp

/-- A valid crossing on the source is numbered, and the presence of its phase is judged in a state whose count is the next. -/
theorem State.validCrossing_numbers {s : State} {p d z : Nat} (hsrc : s.cyc.source = p) (hgap : s.cyc.period < 2 * (z - s.cyc.lastAt)) :
    ∃ u : State, s.validCrossing p d z false =
        (if (u.cyc.phase p).present = false ∧ s.item iRestoreCount ≤ (u.cyc.phase p).validRun then
          (u.modPhase p fun x => { x with present := true }).chooseSource else u) ∧
      u.cyc.count = s.cyc.count.next z false ∧ (u.cyc.phase p).present = (s.cyc.phase p).present := by
  refine ⟨_, rfl, ?count, ?present⟩
  case count =>
    rw [apply_ite State.cyc, apply_ite Cyc.count, State.measureAngles_count, ite_self, State.modPhase_count, State.modPhase_source,
      if_pos hsrc]
    exact State.maybeNumber_count (s := s.modPhase p _) hgap
  case present =>
    rw [apply_ite State.cyc, apply_ite (Cyc.phase · p), Cyc.phase_congr (State.measureAngles_phases _ z), ite_self]
    refine (State.modPhase_present ?_).trans ?_
    · exact fun _ => rfl
    · rw [State.modPhase_source, if_pos hsrc, Cyc.phase_congr (State.maybeNumber_phases _ z false)]
      exact State.modPhase_present fun _ => rfl

/-- A valid crossing on the source, whose phase is present, is the next cycle, and no change of source follows. -/
theorem State.validCrossing_count {s : State} {p d z : Nat} (hsrc : s.cyc.source = p) (hpres : (s.cyc.phase p).present = true)
    (hgap : s.cyc.period < 2 * (z - s.cyc.lastAt)) : (s.validCrossing p d z false).cyc.count = s.cyc.count.next z false := by
  obtain ⟨u, hu, hcount, hpresent⟩ := State.validCrossing_numbers (d := d) hsrc hgap
  rw [hu, if_neg (by simp [hpresent, hpres]), hcount]

/-- A crossing at a time that is the next cycle: on the source and its present phase, no noise after the last accepted one, with a period in the
window, and more than half a period after the last numbered cycle (R65 to R68). -/
structure State.CrossingCounts (s : State) (p z a : Nat) : Prop where
  last : (s.cyc.phase p).lastAccepted = some a
  present : (s.cyc.phase p).present = true
  source : s.cyc.source = p
  pending : s.cyc.pendingSource = none
  nominal : s.cyc.nominalDecided = true
  noise : s.cyc.period ≤ 2 * (z - a)
  window : s.inWindow (z - a) = true
  gap : s.cyc.period < 2 * (z - s.cyc.lastAt)

theorem State.CrossingCounts.congr {s u : State} {p z a : Nat} (h : s.CrossingCounts p z a) (hcyc : u.cyc = s.cyc)
    (hwindow : ∀ d, u.inWindow d = s.inWindow d) : u.CrossingCounts p z a where
  last := by rw [hcyc, h.last]
  present := by rw [hcyc, h.present]
  source := by rw [hcyc, h.source]
  pending := by rw [hcyc, h.pending]
  nominal := by rw [hcyc, h.nominal]
  noise := by rw [hcyc]; exact h.noise
  window := by rw [hwindow, h.window]
  gap := by rw [hcyc]; exact h.gap

theorem State.crossing_valid {s : State} {p z a : Nat} (h : s.CrossingCounts p z a) :
    s.crossing p z = (s.modPhase p fun x => { x with lastAccepted := some z }).validCrossing p (z - a) z false := by
  have hwindow : (s.modPhase p fun x => { x with lastAccepted := some z }).inWindow (z - a) = true := h.window
  have hdetect : (s.modPhase p fun x => { x with lastAccepted := some z }).detectNominal p (z - a) =
      s.modPhase p fun x => { x with lastAccepted := some z } := if_pos h.nominal
  simp [State.crossing, h.last, h.pending, h.noise.not_gt, hdetect, hwindow]

theorem State.crossing_count {s : State} {p z a : Nat} (h : s.CrossingCounts p z a) :
    (s.crossing p z).cyc.count = s.cyc.count.next z false := by
  have hpresent : ((s.modPhase p fun x => { x with lastAccepted := some z }).cyc.phase p).present = true :=
    (State.modPhase_present (by intro _; rfl)).trans h.present
  rw [State.crossing_valid h]
  exact State.validCrossing_count (s := s.modPhase p _) h.source hpresent h.gap

/-- MET's measurement leaves what the clock judges a crossing by. -/
theorem State.inWindow_metMeasure (s : State) (m : List MetCycle) (d : Nat) : (s.metMeasure m).inWindow d = s.inWindow d :=
  State.inWindow_congr (keeps_State_metMeasure .cfg (by decide)) (keeps_State_metMeasure .boot (by decide))
    (keeps_State_metMeasure .sec (by decide)) (by rw [State.metMeasure_cyc]) d

theorem exec_zeroCrossing_swings {s : State} (p : Fin 3) {w : ZcWave} (m : List MetCycle) (t : Nat) (hrun : s.cyc.running = true)
    (hswings : s.swings w = true) :
    exec (.zeroCrossing p w m t) s = .next (((s.advance t).metMeasure m).crossing p.val (min (max s.now t) (zcInstant w))) := by
  show Host.Outcome.next (if s.cyc.running = false then s.advance t else if s.swings w = false then (s.advance t).metMeasure m
    else ((s.advance t).metMeasure m).crossing p.val (min (max s.now t) (zcInstant w))) = _
  rw [if_neg (by simp [hrun]), if_neg (by simp [hswings])]

/-- A passage that is the next cycle (R68). -/
theorem exec_zeroCrossing_counts {s : State} {p : Fin 3} {w : ZcWave} (m : List MetCycle) (t : Nat) {a : Nat} (hrun : s.cyc.running = true)
    (hswings : s.swings w = true) (h : s.CrossingCounts p.val (min (max s.now t) (zcInstant w)) a) :
    ∃ u, exec (.zeroCrossing p w m t) s = .next u ∧ u.cyc.count = s.cyc.count.next (min (max s.now t) (zcInstant w)) false := by
  have hcyc : ((s.advance t).metMeasure m).cyc = s.cyc := State.metMeasure_cyc _ m
  have hmeasured : ((s.advance t).metMeasure m).CrossingCounts p.val (min (max s.now t) (zcInstant w)) a :=
    h.congr hcyc ((s.advance t).inWindow_metMeasure m)
  refine ⟨_, exec_zeroCrossing_swings p m t hrun hswings, ?_⟩
  rw [State.crossing_count hmeasured, hcyc]

/-! ## The obligation -/

/-- Settles O7: a synthetic cycle that is due and a crossing that counts both give the next count, which at 2⁴⁸ − 1 only sets SATURATED. -/
theorem referenceNumberStopsAtItsEnd : Obligations.ReferenceNumberStopsAtItsEnd := by
  unfold Obligations.ReferenceNumberStopsAtItsEnd
  refine ⟨?syntheticAtEnd, ?syntheticBelow, ?realAtEnd, ?realBelow⟩
  case syntheticAtEnd =>
    intro s t hrun hmains hdue hend
    refine ⟨_, exec_syntheticCycle_due hrun hmains hdue, ?_⟩
    rw [State.numberCycle_end (s := s.advance t) _ true hend.ge]; rfl
  case syntheticBelow =>
    intro s t hrun hmains hdue hbelow
    have hcount := ((s.advance t).numberCycle_count (s.cyc.lastAt + s.cyc.period) true).trans (CycleCount.next_below _ true hbelow)
    exact ⟨_, exec_syntheticCycle_due hrun hmains hdue, congrArg CycleCount.num hcount, congrArg CycleCount.saturated hcount⟩
  case realAtEnd =>
    intro s p w m t a z hrun hswings hz hlast hpresent hsource hpending hnominal hnoise hwindow hgap hend
    subst hz
    obtain ⟨u, hu, hcount⟩ :=
      exec_zeroCrossing_counts m t hrun hswings ⟨hlast, hpresent, hsource, hpending, hnominal, hnoise, hwindow, hgap⟩
    rw [CycleCount.next_end (k := s.cyc.count) _ false hend.ge] at hcount
    exact ⟨u, hu, (congrArg CycleCount.num hcount).trans hend, congrArg CycleCount.saturated hcount⟩
  case realBelow =>
    intro s p w m t a z hrun hswings hz hlast hpresent hsource hpending hnominal hnoise hwindow hgap hbelow
    subst hz
    obtain ⟨u, hu, hcount⟩ :=
      exec_zeroCrossing_counts m t hrun hswings ⟨hlast, hpresent, hsource, hpending, hnominal, hnoise, hwindow, hgap⟩
    rw [CycleCount.next_below (k := s.cyc.count) _ false hbelow] at hcount
    exact ⟨u, hu, congrArg CycleCount.num hcount, congrArg CycleCount.saturated hcount⟩

end Sys2Proof.Machine

/-! # What an outcome leads to -/

namespace Sys2Proof.Machine

-- One theorem after the other: a thread for each would pass the memory limit of the check.
set_option Elab.async false

/-- An outcome is a next state that keeps every part but those listed. -/
def State.leads (s : State) (L : List Part) (o : Host.Outcome State Fault Refusal) : Prop := ∃ u, o = .next u ∧ s.keepsBut L u

theorem leads_next {s u : State} {L : List Part} (h : s.keepsBut L u) : s.leads L (.next u) := ⟨u, rfl, h⟩

theorem leads_ite {s : State} {L : List Part} {a b : Host.Outcome State Fault Refusal} {c : Prop} [Decidable c] (ha : s.leads L a)
    (hb : s.leads L b) : s.leads L (if c then a else b) := by
  split <;> assumption

/-- What keeps all but some parts keeps all but more. -/
theorem State.keepsBut.within {A L : List Part} {s u : State} (h : s.keepsBut A u) (sub : ∀ p ∈ A, p ∈ L := by decide) : s.keepsBut L u :=
  h.weaken sub

/-- One more operation after those before it: what each keeps, both keep. -/
theorem State.keepsBut.then {A L : List Part} {s t u : State} (h : s.keepsBut L t) (hg : t.keepsBut A u)
    (sub : ∀ p ∈ A, p ∈ L := by decide) : s.keepsBut L u :=
  keepsBut_step hg sub h

theorem keeps_State_takeJob_run {L : List Part} {s0 s : State} {j : Job}
    (sub : ∀ p ∈ [.way, .host, .limits, .regs, .out, .sec, .hwl], p ∈ L) (run : ∀ u, s0.keepsBut L u → s0.keepsBut L (u.runJob j))
    (h : s0.keepsBut L s) : s0.keepsBut L (s.takeJob j) := by
  have hbump : s0.keepsBut L (s.bump cPciJobsIn) := keepsBut_step keeps_State_bump (keepsBut_sub (by decide) sub) h
  have hreject : ∀ (u : State) (r : Reason), s0.keepsBut L u → s0.keepsBut L (u.rejectJob j.hdr.ref r) := fun u r hu =>
    keepsBut_step keeps_State_rejectJob (keepsBut_sub (by decide) sub) hu
  unfold State.takeJob
  refine keepsBut_ite (hreject _ _ ?_) (keepsBut_ite (hreject _ _ hbump) (keepsBut_ite (hreject _ _ hbump)
    (keepsBut_ite (hreject _ _ ?_) (keepsBut_ite (hreject _ _ hbump) ?_))))
  · exact keepsBut_step keeps_State_raiseInt (keepsBut_sub (by decide) sub)
      (keepsBut_step keeps_State_bump (keepsBut_sub (by decide) sub) hbump)
  · exact keepsBut_step keeps_State_bump (keepsBut_sub (by decide) sub) hbump
  · split
    · exact keepsBut_step keeps_State_forwardJob (keepsBut_sub (by decide) sub) hbump
    · refine keepsBut_ite (hreject _ _ hbump) ?_
      split
      · exact keepsBut_step keeps_State_sendReset sub hbump
      · exact keeps_State_acceptAndRun (keepsBut_sub (by decide) sub)
          (fun u hu => keepsBut_ite (hreject _ _ hu) (run u hu)) hbump

/-- Intake changes what the job's own handler changes, and what taking a job costs. -/
theorem keeps_State_intake_run {L : List Part} {s : State} {j : Job}
    (sub : ∀ p ∈ [.way, .host, .limits, .regs, .out, .sec, .hwl], p ∈ L) (run : ∀ u : State, u.keepsBut L (u.runJob j)) :
    s.keepsBut L (s.intake j) := by
  have htake : ∀ u, s.keepsBut L u → s.keepsBut L (u.takeJob j) := fun u hu =>
    keeps_State_takeJob_run sub (fun v hv => keepsBut_step (run v) (fun _ h => h) hv) hu
  have hrefl := keepsBut_refl L s
  unfold State.intake
  split
  · refine keepsBut_ite hrefl (keepsBut_ite ?_ (htake _ ?_))
    · exact keepsBut_step keeps_State_visit (keepsBut_sub (by decide) sub) hrefl
    · refine keepsBut_step keeps_State_raiseInt (keepsBut_sub (by decide) sub) ?_
      refine keepsBut_step keeps_State_setCq (keepsBut_sub (by decide) sub) ?_
      exact keepsBut_step keeps_State_visit (keepsBut_sub (by decide) sub) hrefl
  · exact keepsBut_ite hrefl (htake _ hrefl)
  · exact keepsBut_ite hrefl (htake _ hrefl)
  · exact keepsBut_ite hrefl (htake _ hrefl)

theorem keeps_with_pins {s : State} {pinsv : Pins} :
    s.keepsBut [.pins] { s with pins := pinsv } := by
  intro p hp
  cases p <;> first | rfl | exact absurd (by decide) hp

theorem keeps_with_lgc {s : State} {lgcv : Lgc} :
    s.keepsBut [.lgc] { s with lgc := lgcv } := by
  intro p hp
  cases p <;> first | rfl | exact absurd (by decide) hp

theorem keeps_with_pwr_pins_sb {s : State} {pwrv : Pwr} {pinsv : Pins} {sbv : Sb} :
    s.keepsBut [.pwr, .pins, .sb] { s with pwr := pwrv, pins := pinsv, sb := sbv } := by
  intro p hp
  cases p <;> first | rfl | exact absurd (by decide) hp

theorem keeps_with_bil_lgc {s : State} {bilv : Bil} {lgcv : Lgc} :
    s.keepsBut [.bil, .lgc] { s with bil := bilv, lgc := lgcv } := by
  intro p hp
  cases p <;> first | rfl | exact absurd (by decide) hp

theorem keeps_with_pwr_ful {s : State} {pwrv : Pwr} {fulv : Ful} :
    s.keepsBut [.pwr, .ful] { s with pwr := pwrv, ful := fulv } := by
  intro p hp
  cases p <;> first | rfl | exact absurd (by decide) hp

theorem keeps_with_pins_host {s : State} {pinsv : Pins} {hostv : HostIf} :
    s.keepsBut [.pins, .host] { s with pins := pinsv, host := hostv } := by
  intro p hp
  cases p <;> first | rfl | exact absurd (by decide) hp

end Sys2Proof.Machine

/-! # What a start carries over -/

namespace Sys2Proof.Machine

-- One theorem after the other: a thread for each would pass the memory limit of the check.
set_option Elab.async false

/-- What every part of a start carries over from the state before it: the queue, the pins, the reset's own record (R474), the nonces and
the side-band's requests and responses (R407, R423); jobs that have ended stay ended, and time does not run back. -/
structure State.carries (s u : State) : Prop where
  pending : u.pending = s.pending := by rfl
  pins : u.pins = s.pins := by rfl
  now : s.now ≤ u.now := by exact le_rfl
  nonces : u.sec.nonces = s.sec.nonces := by rfl
  cache : u.sb.cache = s.sb.cache := by rfl
  outstanding : u.sb.outstanding = s.sb.outstanding := by rfl
  cls : u.rst.cls = s.rst.cls := by rfl
  prev : u.rst.prev = s.rst.prev := by rfl
  holdTimeout : u.rst.holdTimeout = s.rst.holdTimeout := by rfl
  escalated : u.rst.escalated = s.rst.escalated := by rfl
  hold : s.rst.hold = none → u.rst.hold = none := by exact id
  jobs : s.host.jobs = [] → u.host.jobs = [] := by exact id

theorem carries_refl (s : State) : s.carries s := {}

theorem State.carries.then {s t u : State} (h : s.carries t) (g : t.carries u) : s.carries u where
  pending := g.pending.trans h.pending
  pins := g.pins.trans h.pins
  now := h.now.trans g.now
  nonces := g.nonces.trans h.nonces
  cache := g.cache.trans h.cache
  outstanding := g.outstanding.trans h.outstanding
  cls := g.cls.trans h.cls
  prev := g.prev.trans h.prev
  holdTimeout := g.holdTimeout.trans h.holdTimeout
  escalated := g.escalated.trans h.escalated
  hold := g.hold ∘ h.hold
  jobs := g.jobs ∘ h.jobs

/-- What leaves these parts alone carries everything over. -/
theorem State.keepsBut.carries {A : List Part} {s u : State} (h : s.keepsBut A u)
    (sub : ∀ p ∈ [Part.pending, .pins, .now, .sec, .sb, .rst, .host], p ∉ A := by decide) : s.carries u := by
  have hnow : u.now = s.now := h .now (sub _ (by decide))
  have hsec : u.sec = s.sec := h .sec (sub _ (by decide))
  have hsb : u.sb = s.sb := h .sb (sub _ (by decide))
  have hrst : u.rst = s.rst := h .rst (sub _ (by decide))
  have hhost : u.host = s.host := h .host (sub _ (by decide))
  exact { pending := h .pending (sub _ (by decide)), pins := h .pins (sub _ (by decide)), now := hnow.ge, nonces := by rw [hsec],
          cache := by rw [hsb], outstanding := by rw [hsb], cls := by rw [hrst], prev := by rw [hrst], holdTimeout := by rw [hrst],
          escalated := by rw [hrst], hold := by rw [hrst]; exact id, jobs := by rw [hhost]; exact id }

theorem State.carries.keep {A : List Part} {s t u : State} (h : s.carries t) (g : t.keepsBut A u)
    (sub : ∀ p ∈ [Part.pending, .pins, .now, .sec, .sb, .rst, .host], p ∉ A := by decide) : s.carries u :=
  h.then (g.carries sub)

theorem carries_ite {s a b : State} {c : Prop} [Decidable c] (ha : s.carries a) (hb : s.carries b) : s.carries (if c then a else b) := by
  split <;> assumption

theorem carries_iteFst {α : Type} {s : State} {a b : State × α} {c : Prop} [Decidable c] (ha : s.carries a.1) (hb : s.carries b.1) :
    s.carries (if c then a else b).1 := by
  split <;> assumption

theorem carries_foldl {α : Type} {s i : State} {f : State → α → State} {l : List α} (hf : ∀ u a, s.carries u → s.carries (f u a))
    (hi : s.carries i) : s.carries (l.foldl f i) := by
  induction l generalizing i with
  | nil => exact hi
  | cons a l ih => exact ih (hf i a hi)

theorem carries_State_enqueue {s : State} {d : ReportDest} {r : Report} : s.carries (s.enqueue d r) := {}

theorem carries_State_route {s : State} {ds : List ReportDest} {r : Report} :
    s.carries (s.route ds r) := by
  unfold State.route
  split
  · exact keeps_State_bump.carries
  · exact carries_foldl (fun _ _ h => h |>.then carries_State_enqueue) (carries_refl _)

theorem carries_State_reportOut {s : State} {b : ReportBody} :
    s.carries (s.reportOut b) := carries_State_route

theorem carries_State_eventReport {s : State} {g : LogId} {r : WayRecord} {notLogged : Bool} :
    s.carries (s.eventReport g r notLogged) :=
  carries_ite (carries_State_reportOut |>.keep keeps_State_bump) (carries_refl _)

theorem carries_State_refuseEvent {s : State} {g : LogId} {r : WayRecord} :
    s.carries (s.refuseEvent g r) :=
  .then (carries_ite (keeps_with_way.carries |>.keep keeps_State_bump) (keeps_with_way.carries |>.keep keeps_State_bump |>.keep
      keeps_State_buffer |>.keep keeps_State_raiseInt)) carries_State_eventReport

theorem carries_State_decideEvent {s : State} {g : LogId} {r : WayRecord} :
    s.carries (s.decideEvent g r) :=
  carries_ite carries_State_refuseEvent (keeps_State_buffer.carries |>.then carries_State_eventReport)

theorem carries_State_acceptEvent {s : State} {g : LogId} {r : WayRecord} :
    s.carries (s.acceptEvent g r) :=
  carries_ite (keeps_State_bump.carries |>.keep keeps_State_raiseInt) (carries_ite (keeps_State_bump.carries |>.then
      carries_State_decideEvent) (keeps_State_bump.carries |>.keep keeps_State_buffer))

theorem carries_State_event {s : State} {g : LogId} {source code : Nat} {set payload : Nat} :
    s.carries (s.event g source code set payload) :=
  carries_State_acceptEvent

theorem carries_State_eventLimited {s : State} {g : LogId} {sp : Span} {who source : Nat} {code set payload : Nat} :
    s.carries (s.eventLimited g sp who source code set payload) :=
  carries_ite carries_State_event (carries_ite (carries_refl _) (keeps_with_limits.carries |>.then carries_State_event))

theorem carries_State_note {s : State} {c : Counter} {g : LogId} {sp : Span} {who payload : Nat} :
    s.carries (s.note c g sp who payload) :=
  keeps_State_bump.carries |>.then carries_State_eventLimited

theorem carries_State_hwlSend {s : State} {d : Nat} {tag : BitVec 32} {b : HwlBody} :
    s.carries (s.hwlSend d tag b) :=
  carries_ite carries_State_note keeps_State_hwlQueue.carries

theorem carries_State_sendLeave {s : State} {why : Nat} :
    s.carries (s.sendLeave why) :=
  carries_ite carries_State_hwlSend (carries_refl _)

theorem carries_State_releaseOwner {s : State} :
    s.carries s.releaseOwner :=
  carries_ite keeps_State_modHwl.carries (keeps_State_modHwl.carries |>.keep keeps_State_modHwl |>.then carries_State_event |>.keep
      keeps_State_raiseInt)

theorem carries_State_abandonDeliveries {s : State} :
    s.carries s.abandonDeliveries :=
  carries_foldl (fun _ _ h => h |>.then carries_State_note) keeps_with_upd.carries

theorem carries_State_endExpert {s : State} {cause : Nat} :
    s.carries (s.endExpert cause) := by
  unfold State.endExpert
  split
  · exact carries_refl _
  · exact keeps_with_boot.carries |>.then carries_State_event

theorem carries_State_dropRecords {s : State} :
    s.carries s.dropRecords :=
  carries_ite (.keep (carries_foldl (fun _ _ h => h |>.keep keeps_State_bumpBy) (carries_refl _)) keeps_with_val_bil_ful_readings) (.then
      (.keep (.keep (carries_foldl (fun _ _ h => h |>.keep keeps_State_bumpBy) (carries_refl _)) keeps_with_val_bil_ful_readings)
      keeps_State_bumpBy) carries_State_event)

theorem carries_State_gaspHold {s : State} : s.carries s.gaspHold := by
  unfold State.gaspHold
  split
  · exact carries_refl _
  · exact { hold := fun _ => rfl }

theorem carries_State_setMode {s : State} {m : Mode} {cause : Nat} :
    s.carries (s.setMode m cause) := by
  unfold State.setMode
  refine carries_ite (carries_refl _) ?_
  refine .keep ?_ keeps_State_fire
  refine .then ?_ carries_State_route
  refine carries_ite ?_ ?_
  · refine .keep ?_ keeps_State_dispatch
    refine carries_ite keeps_State_modPwr.carries ?_
    split
    · exact keeps_State_modPwr.carries |>.keep keeps_State_raiseInt |>.then carries_State_note |>.then carries_State_note
    · exact keeps_State_modPwr.carries |>.keep keeps_State_raiseInt |>.then carries_State_note
  · refine .keep ?_ keeps_State_setBudget
    refine .keep ?_ keeps_State_raiseInt
    refine carries_ite keeps_State_modPwr.carries ?_
    split
    · exact keeps_State_modPwr.carries |>.keep keeps_State_raiseInt |>.then carries_State_note |>.then carries_State_note
    · exact keeps_State_modPwr.carries |>.keep keeps_State_raiseInt |>.then carries_State_note

theorem carries_State_enterGasp {s : State} {cause : Nat} : s.carries (s.enterGasp cause) := by
  unfold State.enterGasp
  refine carries_ite keeps_State_modPwr.carries ?_
  extract_lets s1 s2 s3 _ s4 s5 s6
  have h1 : s.carries s1 := keeps_State_endRide.carries |>.then carries_State_setMode
  have h2 : s.carries s2 := by
    unfold s2
    split
    · exact h1.then carries_State_note
    · exact h1
  have h3 : s.carries s3 := h2.keep keeps_State_modPwr |>.keep keeps_State_gaspTime |>.then carries_State_gaspHold
  have h4 : s.carries s4 := h3.keep keeps_with_ing |>.then carries_State_dropRecords
  have h5 : s.carries s5 := h4.then carries_State_endExpert |>.then carries_State_abandonDeliveries |>.then carries_State_releaseOwner
    |>.then carries_State_sendLeave
  exact h5.keep keeps_State_sbEmit |>.keep keeps_State_stopFuller |>.keep keeps_State_gaspProgress

theorem carries_State_modSec {s : State} {f : Sec → Sec} (h : (f s.sec).nonces = s.sec.nonces) : s.carries (s.modSec f) where
  nonces := h

theorem carries_State_zeroMeas {s : State} {ms : List Nat} :
    s.carries (s.zeroMeas ms) := carries_State_modSec (by rfl)

theorem carries_State_failEvent {s : State} {code short : Nat} :
    s.carries (s.failEvent code short) :=
  carries_State_event

theorem carries_State_powered {s : State} :
    s.carries s.powered :=
  carries_ite carries_State_setMode (carries_ite (keeps_State_endRide.carries |>.then carries_State_setMode) (keeps_State_endRide.carries
      |>.then carries_State_setMode))

theorem carries_State_evaluate {s : State} :
    s.carries s.evaluate := by
  unfold State.evaluate
  refine carries_ite (carries_refl _) ?_
  split
  · exact carries_ite carries_State_enterGasp (carries_refl _)
  · exact carries_refl _
  · exact carries_ite carries_State_enterGasp (carries_ite (carries_ite carries_State_enterGasp (carries_refl _)) (carries_ite
      carries_State_powered (carries_ite (carries_ite (carries_refl _) (keeps_State_modPwr.carries |>.then carries_State_setMode))
      carries_State_enterGasp)))

theorem carries_State_extend {s : State} {m : Nat} {d : Digest} :
    s.carries (s.extend m d) := carries_State_modSec (by rfl)

theorem carries_State_keepRecord {s : State} {role : Nat} :
    s.carries (s.keepRecord role) :=
  keeps_with_boot.carries |>.then carries_State_extend

theorem carries_State_finishClear {s : State} {g : LogId} :
    s.carries (s.finishClear g) :=
  keeps_State_modLog.carries |>.keep keeps_State_modLog |>.keep keeps_State_bump |>.keep keeps_State_bump |>.then carries_State_eventReport

theorem carries_State_findLog {s : State} {g : LogId} :
    s.carries (s.findLog g) := by
  dsimp only [State.findLog]
  split
  · exact carries_ite carries_State_finishClear keeps_State_modLog.carries
  · exact keeps_State_modLog.carries |>.keep keeps_with_boot |>.keep keeps_State_raiseInt |>.then carries_State_event

theorem carries_State_findPositions {s : State} :
    s.carries s.findPositions :=
  carries_foldl (fun _ _ h => h |>.then carries_State_decideEvent) (.keep (carries_foldl (fun _ _ h => h |>.then carries_State_findLog)
      (carries_refl _)) keeps_with_way)

theorem carries_State_enterRecovery {s : State} {code short : Nat} : s.carries (s.enterRecovery code short) := by
  unfold State.enterRecovery
  extract_lets s1 o s2 s3
  have h3 : s.carries s3 := carries_State_failEvent |>.keep keeps_with_cfg_boot |>.then carries_State_zeroMeas
  split
  · exact h3.keep keeps_with_boot |>.then carries_State_event
  · extract_lets s4 _ _ _ _ _ s5 s6 s7
    have h5 : s.carries s5 := h3.then carries_State_extend |>.then {}
    have h6 : s.carries s6 := h5.then carries_State_keepRecord |>.keep keeps_State_startTime
    exact .then (.then (carries_ite h6 (h6.then carries_State_findPositions)) carries_State_setMode) carries_State_evaluate

theorem carries_State_endProbation {s : State} :
    s.carries s.endProbation := keeps_State_writeUpd.carries

theorem carries_State_postFailed {s : State} :
    s.carries s.postFailed :=
  .then (.keep (carries_ite keeps_State_raiseInt.carries (carries_refl _)) keeps_State_raiseInt) carries_State_note

theorem carries_State_post {s : State} {t : Task} : s.carries (s.post t).1 := by
  have hfail : s.carries s.postFailed := carries_State_postFailed
  unfold State.post
  split
  · rename_i u haccept
    have haccept : s.carries u := (keeps_State_acceptQ haccept).carries
    dsimp only
    exact haccept.keep keeps_State_dispatch
  · dsimp only
    exact hfail

theorem carries_State_postIssues {s : State} {x n : Nat} : s.carries (s.postIssues x n) := by
  induction n generalizing s with
  | zero => exact carries_refl s
  | succ n ih =>
    have hpost : s.carries (s.post (s.taskFor (issueKind x) (x - 11) 0)).1 := carries_State_post
    rw [State.postIssues]
    split
    · rename_i heq
      rw [heq] at hpost
      exact hpost.then ih
    · rename_i heq
      rw [heq] at hpost
      exact hpost

theorem carries_State_topUpIssues {s : State} :
    s.carries s.topUpIssues :=
  carries_ite (carries_refl _) (carries_foldl (fun _ _ h => h |>.then carries_State_postIssues) (carries_refl _))

theorem carries_State_releaseRequests {s : State} :
    s.carries s.releaseRequests :=
  .then (carries_foldl (fun _ _ h => h |>.keep keeps_State_releaseRequest) (carries_refl _)) carries_State_topUpIssues

theorem carries_State_jobReport {s : State} {j : JobRef} {b : ReportBody} {d : ReportData} {final : Bool} :
    s.carries (s.jobReport j b d final) :=
  carries_State_route

theorem carries_State_closeJob {s : State} {j : JobRef} : s.carries (s.closeJob j) where
  jobs h := by simp [State.closeJob, h]

theorem carries_State_finishJob {s : State} {j : JobRef} {status : Nat} {reason : Reason} {outcome : Nat} {detail : List Byte}
    {data : ReportData} :
    s.carries (s.finishJob j status reason outcome detail data) :=
  carries_State_closeJob |>.then carries_State_jobReport

theorem carries_State_jobDone {s : State} {j : JobRef} :
    s.carries (s.jobDone j) := carries_State_finishJob

theorem carries_State_snapDone {s : State} {x : Snapshot} :
    s.carries (s.snapDone x) := by
  unfold State.snapDone
  split
  · exact keeps_with_bal.carries |>.keep keeps_State_bump |>.then carries_State_jobDone
  · exact keeps_with_bal.carries |>.keep keeps_State_bump

theorem carries_State_balToFuller {s : State} {x : FulItem} :
    s.carries (s.balToFuller x) :=
  carries_ite keeps_State_toFuller.carries (keeps_State_raiseInt.carries |>.then carries_State_note)

theorem carries_State_abandonSnapshot {s : State} {x : Snapshot} {stamp : Nat} :
    s.carries (s.abandonSnapshot x stamp) :=
  .then (.keep (.keep (carries_foldl (fun _ _ h => h |>.then carries_State_balToFuller |>.then carries_State_reportOut)
      (carries_refl _)) keeps_State_bump) keeps_State_raiseInt) carries_State_snapDone

theorem carries_State_sendBundle {s : State} {b : RelayBundle} :
    s.carries (s.sendBundle b) := by
  unfold State.sendBundle
  split
  · exact keeps_State_holdBundle.carries |>.keep keeps_State_ethSendPeer
  · exact carries_State_reportOut

theorem carries_State_closeBundle {s : State} :
    s.carries s.closeBundle := by
  dsimp only [State.closeBundle]
  refine carries_ite (carries_refl _) ?_
  split
  · exact keeps_with_ing.carries |>.keep keeps_State_advanceBundleSeq |>.keep keeps_State_bump |>.then carries_State_sendBundle
  · exact keeps_with_ing.carries |>.keep keeps_State_advanceBundleSeq |>.keep keeps_State_bump |>.keep keeps_State_bump |>.keep
      keeps_State_holdBundle

theorem carries_State_addEntry {s : State} {e : RelayEntry} :
    s.carries (s.addEntry e) :=
  carries_ite (.then (.keep (carries_ite carries_State_closeBundle (carries_refl _)) keeps_with_ing) carries_State_closeBundle) (.keep
      (carries_ite carries_State_closeBundle (carries_refl _)) keeps_with_ing)

theorem carries_State_toBal {s : State} {i : BalItem} :
    s.carries (s.toBal i) :=
  carries_ite (keeps_State_raiseInt.carries |>.then carries_State_note) keeps_with_bal.carries

theorem carries_State_streamNext {s : State} {b : HwlBody} :
    s.carries (s.streamNext b) :=
  carries_ite (carries_refl _) (keeps_with_hwl.carries |>.then carries_State_hwlSend |>.keep keeps_State_bump)

theorem carries_State_mirrorSync {s : State} {i reason : Nat} :
    s.carries (s.mirrorSync i reason) :=
  .keep (carries_foldl (fun _ _ h => h |>.then carries_State_streamNext) (carries_refl _)) keeps_State_bump

theorem carries_State_mirrorSend {s : State} {b : HwlBody} :
    s.carries (s.mirrorSend b) := by
  unfold State.mirrorSend
  split
  · exact carries_State_streamNext
  · refine carries_ite (carries_refl _) ?_
    split
    · exact keeps_State_bump.carries |>.then carries_State_mirrorSync
    · exact keeps_State_bump.carries

theorem carries_State_feederArrived {s : State} {f : FeederRecord} {sender : Option Nat} {mirrored : Bool} :
    s.carries (s.feederArrived f sender mirrored) :=
  .keep (carries_ite carries_State_toBal (carries_State_toBal |>.then carries_State_mirrorSend)) keeps_State_toFuller

theorem carries_State_feederOut {s : State} {f : FeederRecord} :
    s.carries (s.feederOut f) :=
  carries_ite (carries_State_feederArrived |>.then carries_State_addEntry) carries_State_feederArrived

theorem carries_State_feederRecords {s : State} {m : MetSample} {cycle stamp : Nat} {synth short snap : Bool} :
    s.carries (s.feederRecords m cycle stamp synth short snap) :=
  .keep (carries_foldl (fun _ _ h => h |>.then carries_State_feederOut) (carries_refl _)) keeps_with_met

theorem carries_State_latchFeeder {s : State} {cycle stamp : Nat} :
    s.carries (s.latchFeeder cycle stamp) :=
  keeps_State_handFeeder.carries |>.then carries_State_feederRecords

theorem carries_State_latchSnapshots {s : State} {stamp : Nat} {synth : Bool} :
    s.carries (s.latchSnapshots stamp synth) :=
  carries_ite (carries_refl _) (carries_ite (carries_foldl (fun _ _ h => h |>.then carries_State_abandonSnapshot) (carries_refl _))
      (keeps_with_bal.carries |>.keep keeps_State_postCycle |>.then carries_State_latchFeeder))

theorem carries_State_postBarriers {s : State} {k : Nat} :
    s.carries (s.postBarriers k) :=
  carries_ite (carries_refl _) (carries_foldl (fun _ _ h => h |>.keep keeps_State_queueOp) (.keep (carries_ite carries_State_note
      (carries_refl _)) keeps_with_hwl))

theorem carries_State_closeSynthetic {s : State} {cycle stamp : Nat} :
    s.carries (s.closeSynthetic cycle stamp) :=
  carries_ite keeps_with_met.carries carries_State_feederRecords

theorem carries_State_closeFeeder {s : State} {cycle stamp : Nat} {short : Bool} :
    s.carries (s.closeFeeder cycle stamp short) :=
  keeps_State_handFeeder.carries |>.keep keeps_State_feederDemand |>.then carries_State_feederRecords |>.keep keeps_with_met

theorem carries_State_boundaryEvent {s : State} {stamp b passed : Nat} {synth : Bool} :
    s.carries (s.boundaryEvent stamp b passed synth) :=
  .keep (.keep (.keep (.then (carries_ite (keeps_State_modCyc.carries |>.keep keeps_State_clearIntervalLimits |>.keep keeps_with_hwl
      |>.keep keeps_State_postEvent |>.then carries_State_closeSynthetic) (keeps_State_modCyc.carries |>.keep
      keeps_State_clearIntervalLimits |>.keep keeps_with_hwl |>.keep keeps_State_postEvent |>.then carries_State_closeFeeder))
      carries_State_postBarriers) keeps_State_contextCheckpoint) keeps_State_legalCheckpoint) keeps_State_startSchedules

theorem carries_State_realiseBoundary {s : State} {stamp : Nat} {synth : Bool} :
    s.carries (s.realiseBoundary stamp synth) := by
  unfold State.realiseBoundary
  split
  · exact keeps_State_modCyc.carries
  · exact carries_ite (carries_refl _) carries_State_boundaryEvent

theorem carries_State_cycleEvents {s : State} {before stamp : Nat} {synth : Bool} :
    s.carries (s.cycleEvents before stamp synth) :=
  .then (.keep (.keep (.keep (.then (.keep (.then (carries_ite (keeps_State_repostHeld.carries |>.keep keeps_State_setFeederRate)
      keeps_State_repostHeld.carries) carries_State_realiseBoundary) keeps_State_tariffEvents) carries_State_latchSnapshots)
      keeps_State_launchBeacons) keeps_State_fireCycleTriggers) keeps_State_settleEvent) carries_State_releaseRequests

theorem carries_State_numberCycle {s : State} {at_ : Nat} {synth : Bool} :
    s.carries (s.numberCycle at_ synth) :=
  carries_ite keeps_State_modCyc.carries (keeps_State_modCyc.carries |>.keep keeps_State_noteRegressed |>.keep keeps_State_reserveCycles
      |>.then carries_State_cycleEvents)

theorem carries_State_startCycles {s : State} :
    s.carries s.startCycles :=
  .then (carries_ite (keeps_with_cyc.carries |>.then carries_State_event) keeps_with_cyc.carries) carries_State_numberCycle

theorem carries_State_start15 {s : State} : s.carries s.start15 := by
  unfold State.start15
  extract_lets _ _ s0 s1 _ _ _ _ _ _ s2 s3 s4
  have h0 : s.carries s0 := {}
  have h1 : s.carries s1 := h0.keep keeps_State_startTime |>.then carries_State_startCycles |>.keep keeps_State_pulsesFromItems
  have h2 : s.carries s2 := h1.then {}
  have h3 : s.carries s3 := h2.keep keeps_State_startFabric |>.keep keeps_State_startPorts |>.keep keeps_State_startProbation
  exact .then (.then (carries_ite (h3.keep keeps_State_raiseInt) h3) carries_State_setMode) carries_State_evaluate

theorem carries_State_fuseItem {e : StartEnv} {s : State} {id : Nat} :
    s.carries (State.fuseItem e s id) := by
  unfold State.fuseItem
  split
  · exact carries_refl _
  · exact carries_ite carries_State_note (carries_ite (keeps_State_raiseInt.carries |>.then carries_State_note) (carries_State_modSec
      (by rfl) |>.keep keeps_State_bump |>.then carries_State_event))

theorem carries_State_burnFuses {e : StartEnv} {s : State} :
    s.carries (State.burnFuses e s) :=
  carries_foldl (fun _ _ h => h |>.then carries_State_fuseItem) (carries_refl _)

theorem carries_State_loadAccess {s : State} : s.carries s.loadAccess := by
  unfold State.loadAccess
  exact carries_State_modSec (by rfl)

theorem carries_State_restartGens {s : State} :
    s.carries s.restartGens := carries_ite {} (carries_refl _)

theorem carries_State_setGen {s : State} {k : Nat} {e : GenEntry} :
    s.carries (s.setGen k e) :=
  carries_ite (carries_refl _) {}

theorem carries_State_setKeySlot {s : State} {k : Nat} {v : KeySlot} :
    s.carries (s.setKeySlot k v) :=
  carries_State_modSec (by rfl)

theorem carries_State_invalidate {s : State} {k version : Nat} :
    s.carries (s.invalidate k version) :=
  .keep (.keep (.then (.keep (carries_foldl (fun _ _ h => h |>.then carries_State_setKeySlot) (carries_foldl (fun _ _ h => h |>.then
      carries_State_setGen) carries_State_setGen)) keeps_State_raiseInt) carries_State_note) keeps_State_bumpBy) keeps_State_purgeWays

theorem carries_State_destroyEntry {s : State} {i : Nat} :
    s.carries (s.destroyEntry i) :=
  carries_ite carries_State_invalidate (carries_refl _)

theorem carries_State_skipKey {s : State} {k : Nat} :
    s.carries (s.skipKey k) := carries_State_note

theorem carries_State_fillKey {s : State} {k : Nat} {v : List Byte} {material : List Byte} :
    s.carries (s.fillKey k v material) :=
  carries_ite carries_State_setKeySlot (carries_State_setKeySlot |>.then carries_State_setGen)

theorem carries_State_loadKey {s : State} {k : Nat} :
    s.carries (s.loadKey k) := by
  unfold State.loadKey
  refine carries_ite (carries_refl _) ?_
  refine carries_ite carries_State_skipKey ?_
  refine carries_ite ?_ (carries_ite (carries_State_fillKey |>.keep keeps_State_bump) (carries_refl _))
  split
  · exact carries_State_fillKey |>.keep keeps_State_bump
  · exact keeps_State_raiseInt.carries |>.then carries_State_note

theorem carries_State_loadKeys {s : State} :
    s.carries s.loadKeys :=
  carries_foldl (fun _ _ h => h |>.then carries_State_loadKey) (carries_foldl (fun _ _ h => h |>.then carries_State_destroyEntry)
      carries_State_restartGens)

theorem carries_State_journalMigration {s : State} {c : ConfigImage} :
    s.carries (s.journalMigration c) :=
  carries_ite (carries_refl _) (keeps_with_nor.carries |>.then carries_State_event)

theorem carries_State_applyImage {e : StartEnv} {backup : Bool} {s : State} {c : ConfigImage} :
    s.carries (s.applyImage e backup c) := by
  unfold State.applyImage
  extract_lets m mayExpert isExpert s1 _ s2 s3 s4 s5 s6 _ _ s7
  have h2 : s.carries s2 := keeps_State_withImage.carries |>.keep keeps_with_boot
  have h3 : s.carries s3 := h2.then carries_State_journalMigration
  have h4 : s.carries s4 := carries_ite (h3.then carries_State_event) h3
  have h5 : s.carries s5 := carries_ite (h4.then carries_State_event) h4
  have h6 : s.carries s6 := carries_ite h5 (h5.keep keeps_State_selftestFail |>.then carries_State_event)
  exact h6.keep keeps_with_cyc_tim |>.then carries_State_loadKeys |>.then carries_State_loadAccess |>.then carries_State_burnFuses

theorem carries_State_retireUnit {s : State} {u : Nat} :
    s.carries (s.retireUnit u) :=
  keeps_with_bil.carries |>.keep keeps_State_raiseInt |>.then carries_State_reportOut |>.then carries_State_event

theorem carries_State_runSet {e : StartEnv} {f : FwSet} {s : State} :
    s.carries (State.runSet e f s) :=
  carries_foldl (fun _ _ h => carries_ite h (h |>.keep keeps_State_selftestFail |>.then carries_State_retireUnit)) keeps_with_boot.carries

theorem carries_State_signStatement {s : State} :
    s.carries s.signStatement :=
  carries_State_modSec (by rfl) |>.keep keeps_State_drawn

theorem carries_State_fillFixed {s : State} :
    s.carries s.fillFixed :=
  .keep (carries_foldl (fun _ _ h => h |>.then carries_State_setKeySlot) carries_State_setKeySlot) keeps_State_bumpBy

theorem carries_State_loadGens {s : State} :
    s.carries s.loadGens := by
  unfold State.loadGens
  refine carries_ite (carries_refl _) ?_
  refine carries_ite (carries_State_modSec (by rfl) |>.keep keeps_State_raiseInt |>.then carries_State_event) ?_
  split
  · exact carries_State_modSec (by rfl)
  · exact carries_State_modSec (by rfl)

theorem carries_State_decideDebug {s : State} : s.carries s.decideDebug := by
  unfold State.decideDebug
  extract_lets f bad s1
  have h1 : s.carries s1 := carries_ite ((carries_State_modSec (by rfl)).then carries_State_event) (carries_refl _)
  split
  · exact carries_ite (h1.then (carries_State_modSec (by rfl))) (carries_ite (h1.then (carries_State_modSec (by rfl))) h1)
  · exact carries_ite (h1.then (carries_State_modSec (by rfl))) h1

theorem carries_State_startSec {s : State} : s.carries s.startSec := by
  unfold State.startSec
  extract_lets s1 s2
  have h1 : s.carries s1 := carries_State_decideDebug
  have h2 : s.carries s2 := carries_ite h1 (h1.then (carries_State_modSec (by rfl)))
  exact h2.then carries_State_loadGens |>.then carries_State_fillFixed |>.then carries_State_signStatement

theorem carries_State_failSensor {s : State} {n : Nat} :
    s.carries (s.failSensor n) :=
  keeps_State_modPwr.carries |>.keep keeps_State_raiseInt |>.then carries_State_note

theorem carries_State_sampleSensor {s : State} {n : Nat} :
    s.carries (s.sampleSensor n) :=
  carries_ite keeps_State_modPwr.carries (carries_ite (keeps_State_modPwr.carries |>.then carries_State_failSensor)
      keeps_State_modPwr.carries)

theorem carries_State_trainPcie {s : State} {e : StartEnv} :
    s.carries (s.trainPcie e) :=
  carries_ite (carries_refl _) {}

theorem carries_State_readRecord {s : State} {bad : List Nat} :
    s.carries (s.readRecord bad) :=
  carries_ite (keeps_with_nor.carries |>.then carries_State_event) keeps_with_nor.carries

theorem carries_State_fallBack {fails : List Nat} {why : Nat} {s : State} :
    s.carries (State.fallBack fails why s).1 :=
  carries_iteFst (keeps_State_writeUpd.carries |>.keep keeps_State_backSteps) (keeps_State_writeUpd.carries |>.keep keeps_State_backSteps
      |>.keep keeps_with_upd |>.keep keeps_State_writeUpd |>.keep keeps_State_bump |>.then carries_State_event |>.then carries_State_event)

theorem carries_State_updateStep {fails back : List Nat} {s : State} : s.carries (State.updateStep fails back s).1 := by
  have hrefuse : ∀ r, s.carries ((s.writeUpd r).note cUpdBundlesRefused .operations .none 0 5) := fun _ =>
    keeps_State_writeUpd.carries |>.then carries_State_note
  dsimp only [State.updateStep]
  split
  · exact carries_refl _
  · exact carries_iteFst (carries_iteFst (keeps_State_writeUpd.carries |>.keep keeps_State_copyAll |>.keep keeps_State_copyDone)
      (keeps_State_writeUpd.carries |>.keep keeps_State_copyAll)) (hrefuse _)
  · exact carries_iteFst (keeps_State_copyAll.carries |>.keep keeps_State_copyDone) keeps_State_copyAll.carries
  · split
    · exact keeps_State_writeUpd.carries
    · exact keeps_State_writeUpd.carries |>.then carries_State_fallBack
  · exact carries_State_fallBack

theorem carries_State_rtcRun {s : State} {ticks : Nat} :
    s.carries (s.rtcRun ticks) :=
  keeps_with_cyc_tim.carries |>.keep keeps_with_way

theorem carries_State_spoilHeaders {s : State} {bad : List Nat} :
    s.carries (s.spoilHeaders bad) :=
  carries_foldl (fun _ _ h => h |>.keep keeps_State_modLog) (carries_refl _)

end Sys2Proof.Machine

/-! # How a start ends -/

namespace Sys2Proof.Machine

-- One theorem after the other: a thread for each would pass the memory limit of the check.
set_option Elab.async false

/-! ## What the ends of a start leave of its progress -/

/-- The step reached and RECOVERY stand. -/
structure State.sameStart (s u : State) : Prop where
  stage : u.boot.stage = s.boot.stage := by rfl
  recovery : u.boot.recovery = s.boot.recovery := by rfl

theorem sameStart_refl (s : State) : s.sameStart s := {}

theorem State.sameStart.then {s t u : State} (h : s.sameStart t) (g : t.sameStart u) : s.sameStart u where
  stage := g.stage.trans h.stage
  recovery := g.recovery.trans h.recovery

theorem State.keepsBut.sameStart {A : List Part} {s u : State} (h : s.keepsBut A u) (sub : Part.boot ∉ A := by decide) : s.sameStart u := by
  have hboot : u.boot = s.boot := h .boot sub
  exact { stage := by rw [hboot], recovery := by rw [hboot] }

theorem State.sameStart.keep {A : List Part} {s t u : State} (h : s.sameStart t) (g : t.keepsBut A u) (sub : Part.boot ∉ A := by decide) :
    s.sameStart u :=
  h.then (g.sameStart sub)

theorem sameStart_ite {s a b : State} {c : Prop} [Decidable c] (ha : s.sameStart a) (hb : s.sameStart b) :
    s.sameStart (if c then a else b) := by
  split <;> assumption

theorem sameStart_foldl {α : Type} {s i : State} {f : State → α → State} {l : List α} (hf : ∀ u a, s.sameStart u → s.sameStart (f u a))
    (hi : s.sameStart i) : s.sameStart (l.foldl f i) := by
  induction l generalizing i with
  | nil => exact hi
  | cons a l ih => exact ih (hf i a hi)

theorem sameStart_State_endExpert {s : State} {cause : Nat} : s.sameStart (s.endExpert cause) := by
  unfold State.endExpert
  split
  · exact sameStart_refl _
  · exact .keep {} keeps_State_event

theorem sameStart_State_enterGasp {s : State} {cause : Nat} : s.sameStart (s.enterGasp cause) := by
  unfold State.enterGasp
  refine sameStart_ite keeps_State_modPwr.sameStart ?_
  extract_lets s1 s2 s3 _ s4 s5 s6
  have h1 : s.sameStart s1 := keeps_State_endRide.sameStart |>.keep keeps_State_setMode
  have h2 : s.sameStart s2 := by
    unfold s2
    split
    · exact h1.keep keeps_State_note
    · exact h1
  have h3 : s.sameStart s3 := h2.keep keeps_State_modPwr |>.keep keeps_State_gaspTime |>.keep keeps_State_gaspHold
  have h4 : s.sameStart s4 := h3.keep keeps_with_ing |>.keep keeps_State_dropRecords
  have h5 : s.sameStart s5 := h4.then sameStart_State_endExpert |>.keep keeps_State_abandonDeliveries |>.keep keeps_State_releaseOwner
    |>.keep keeps_State_sendLeave
  exact h5.keep keeps_State_sbEmit |>.keep keeps_State_stopFuller |>.keep keeps_State_gaspProgress

theorem sameStart_State_evaluate {s : State} : s.sameStart s.evaluate := by
  unfold State.evaluate
  refine sameStart_ite (sameStart_refl _) ?_
  split
  · exact sameStart_ite sameStart_State_enterGasp (sameStart_refl _)
  · exact sameStart_refl _
  · refine sameStart_ite sameStart_State_enterGasp (sameStart_ite (sameStart_ite sameStart_State_enterGasp (sameStart_refl _)) ?_)
    refine sameStart_ite keeps_State_powered.sameStart (sameStart_ite (sameStart_ite (sameStart_refl _) ?_) sameStart_State_enterGasp)
    exact keeps_State_modPwr.sameStart |>.keep keeps_State_setMode

theorem sameStart_State_findLog {s : State} {g : LogId} : s.sameStart (s.findLog g) := by
  dsimp only [State.findLog]
  split
  · exact sameStart_ite keeps_State_finishClear.sameStart keeps_State_modLog.sameStart
  · exact .keep (.keep (.then keeps_State_modLog.sameStart {}) keeps_State_raiseInt) keeps_State_event

theorem sameStart_State_findPositions {s : State} : s.sameStart s.findPositions :=
  sameStart_foldl (fun _ _ h => h |>.keep keeps_State_decideEvent)
    (.keep (sameStart_foldl (fun _ _ h => h |>.then sameStart_State_findLog) (sameStart_refl _)) keeps_with_way)

theorem sameStart_State_keepRecord {s : State} {role : Nat} : s.sameStart (s.keepRecord role) := .keep {} keeps_State_extend

/-! ## How a start ends -/

theorem State.startEnds_start15 (s : State) : s.start15.startEnds := by
  refine .inl ?_
  unfold State.start15
  extract_lets _ _ s0 s1 _ _ _ _ _ _ s2 s3 s4
  have h1 : s0.sameStart s1 := keeps_State_startTime.sameStart |>.keep keeps_State_startCycles |>.keep keeps_State_pulsesFromItems
  have h2 : s0.sameStart s2 := h1.then {}
  have h3 : s0.sameStart s3 := h2.keep keeps_State_startFabric |>.keep keeps_State_startPorts |>.keep keeps_State_startProbation
  have h4 : s0.sameStart s4 := sameStart_ite (h3.keep keeps_State_raiseInt) h3
  refine State.sameStart.stage (s := s0) ?_
  exact .then (h4.keep keeps_State_setMode) sameStart_State_evaluate

theorem State.startEnds_enterRecovery (s : State) (code short : Nat) : (s.enterRecovery code short).startEnds := by
  unfold State.enterRecovery
  extract_lets s1 o s2 s3
  split
  · refine .inr (.inr (.inl ?_))
    exact congrArg Boot.halted (keeps_State_event .boot (by decide))
  · refine .inr (.inl ?_)
    extract_lets s4 _ _ _ _ _ s5 s6 s7
    have h6 : s5.sameStart s6 := sameStart_State_keepRecord.keep keeps_State_startTime
    have h7 : s5.sameStart s7 := sameStart_ite h6 (h6.then sameStart_State_findPositions)
    refine State.sameStart.recovery (s := s5) ?_
    exact .then (h7.keep keeps_State_setMode) sameStart_State_evaluate

end Sys2Proof.Machine

/-! # The steps of a start -/

namespace Sys2Proof.Machine

-- One theorem after the other: a thread for each would pass the memory limit of the check.
set_option Elab.async false

/-! ## The steps of a start -/

/-- Every outcome of a part of a start carries over what stood before it, and where the boot ROM stops, the start has ended. -/
def Start.Leaves {α : Type} (s : State) (f : α → State) : Start α → Prop
  | .ok a => s.carries (f a)
  | .error (.ended t) => s.carries t ∧ t.startEnds
  | .error (.failed t _ _) => s.carries t

theorem Start.Leaves.bind {α β : Type} {s : State} {f : α → State} {g : β → State} {x : Start α} {k : α → Start β}
    (hx : Start.Leaves s f x) (hk : ∀ a, s.carries (f a) → Start.Leaves s g (k a)) : Start.Leaves s g (x >>= k) := by
  match x, hx with
  | .ok a, h => exact hk a h
  | .error (.ended t), h => exact h
  | .error (.failed t _ _), h => exact h

theorem Start.Leaves.ite {α : Type} {s : State} {f : α → State} {a b : Start α} {c : Prop} [Decidable c] (ha : Start.Leaves s f a)
    (hb : Start.Leaves s f b) : Start.Leaves s f (if c then a else b) := by
  split <;> assumption

theorem State.carries_done {s u : State} {e : StartEnv} {k : Nat} (h : s.carries u) (hk : k ≠ 0) : Start.Leaves s id (u.done e k) := by
  have hw : (if k = 0 then none else some u.now).isSome = true := by simp [hk]
  unfold State.done
  exact .ite ⟨h.then {}, .inr (.inr (.inr (.inl hw)))⟩ (h.then {} : s.carries _)

theorem State.carries_start2 {s u : State} {e : StartEnv} (h : s.carries u) : Start.Leaves s id (u.start2 e) := by
  unfold State.start2
  refine .ite ⟨?_, .inr (.inr (.inl ?_))⟩ (State.carries_done ?_ (by decide))
  · exact .then (.keep (carries_ite (h.keep keeps_State_selftestFail) (h.keep keeps_State_selftestFail)) keeps_with_boot)
      carries_State_event
  · exact congrArg Boot.halted (keeps_State_event .boot (by decide))
  · exact carries_foldl (fun _ _ hu => hu.then carries_State_sampleSensor) (h.then carries_State_extend |>.keep keeps_State_modPwr)

theorem State.carries_start3 {s u : State} {e : StartEnv} (h : s.carries u) : Start.Leaves s id (u.start3 e) := by
  unfold State.start3
  extract_lets digest s1 _ s2
  have h2 : s.carries s2 := h.then carries_State_extend |>.then carries_State_startSec |>.keep keeps_with_pwr
  split
  · exact h2
  · exact .ite h2 (.ite h2 (State.carries_done h2 (by decide)))

theorem State.carries_start4 {s u : State} {e : StartEnv} (h : s.carries u) : Start.Leaves s id (u.start4 e) := by
  unfold State.start4
  exact .ite h (.ite (h.keep keeps_State_selftestFail) (State.carries_done h (by decide)))

theorem State.carries_probeCe {s : State} {e : StartEnv} {top : Nat} {x : State × List Nat × Option NandProbe} {k : Nat}
    (h : s.carries x.1) : s.carries (State.probeCe e top x k).1 := by
  obtain ⟨u, used, first⟩ := x
  dsimp only [State.probeCe]
  split
  · exact h
  · exact h.then carries_State_event

theorem State.carries_start5 {s u : State} {e : StartEnv} (h : s.carries u) : Start.Leaves s id (u.start5 e) := by
  have hprobe : ∀ (top : Nat) (l : List Nat), s.carries (l.foldl (State.probeCe e top) (u, [], none)).1 := by
    intro top l
    generalize hx : ((u, [], none) : State × List Nat × Option NandProbe) = x
    have hx1 : s.carries x.1 := hx ▸ h
    clear hx
    induction l generalizing x with
    | nil => exact hx1
    | cons a l ih => exact ih _ (State.carries_probeCe hx1)
  unfold State.start5
  extract_lets header mask top
  split
  rename_i s1 used first heq
  have h1 : s.carries s1 := by
    have := hprobe top ((List.range 16).filter fun k => mask.getLsbD k)
    rwa [heq] at this
  exact .ite (h1.keep keeps_with_ful) (.ite (h1.keep keeps_with_ful) (State.carries_done (h1.keep keeps_with_ful |>.keep keeps_with_boot)
      (by decide)))

theorem State.carries_steps1to5 {s u : State} {e : StartEnv} (h : s.carries u) : Start.Leaves s id (State.steps1to5 e u) := by
  unfold State.steps1to5
  refine .bind (State.carries_done (h.then carries_State_trainPcie) (by decide)) fun s1 h1 => ?_
  refine .bind (State.carries_start2 h1) fun s2 h2 => .bind (State.carries_start3 h2) fun s3 h3 => ?_
  exact .bind (State.carries_start4 h3) fun s4 h4 => State.carries_start5 h4

theorem State.carries_loadPart {s : State} {e : StartEnv} {f : FwSet} {x : State × Bool} {k : Nat} (h : s.carries x.1) :
    Start.Leaves s Prod.fst (State.loadPart e f x k) := by
  obtain ⟨u, ok⟩ := x
  dsimp -zeta only [State.loadPart]
  split
  · split
    · extract_lets s1 _ s2 s3
      have h1 : s.carries s1 := h.then carries_State_extend
      have h2 : s.carries s2 := carries_ite (h1.then {}) h1
      have h3 : s.carries s3 := carries_ite (h2.then carries_State_findPositions) h2
      exact .bind (State.carries_done h3 (by omega)) fun _ h4 => h4
    · exact h
  · exact h

theorem Start.Leaves.foldlM {α β : Type} {s : State} {f : α → State} {k : α → β → Start α} {l : List β}
    (hk : ∀ a b, s.carries (f a) → Start.Leaves s f (k a b)) {a : α} (ha : s.carries (f a)) : Start.Leaves s f (l.foldlM k a) := by
  induction l generalizing a with
  | nil => exact ha
  | cons b l ih => exact .bind (hk a b ha) fun c hc => ih hc

theorem State.carries_loadSet {s u : State} {e : StartEnv} {f : FwSet} (h : s.carries u) : Start.Leaves s Prod.fst (u.loadSet e f) := by
  unfold State.loadSet
  exact .bind (.foldlM (fun _ _ hx => State.carries_loadPart hx) h) fun _ hx => hx

theorem State.carries_start10 {s u : State} {e : StartEnv} (h : s.carries u) : Start.Leaves s id (u.start10 e) := by
  unfold State.start10
  refine .bind (State.carries_loadSet h) fun a ha => .ite (ha.then carries_State_runSet) (.ite ha ?_)
  refine .bind (State.carries_loadSet (ha.then carries_State_failEvent |>.then carries_State_zeroMeas)) fun b hb => ?_
  exact .ite (.then (.then (.then hb {}) carries_State_event) carries_State_runSet) (hb.then carries_State_zeroMeas)

theorem State.carries_tryImage {s u : State} {e : StartEnv} {backup : Bool} {o : Option ConfigImage} (h : s.carries u) :
    Start.Leaves s Prod.fst (u.tryImage e backup o) := by
  unfold State.tryImage
  split
  · exact h
  · refine .ite h (.bind (State.carries_done (h.then carries_State_extend) (by decide)) fun s11 h11 => ?_)
    have hm := h11.then (carries_State_journalMigration (c := ‹ConfigImage›))
    refine .ite hm (.bind (State.carries_done hm (by decide)) fun s12 h12 => .ite h12 ?_)
    refine .bind (State.carries_done (.then ?_ carries_State_applyImage) (by decide)) fun _ h14 => h14
    exact carries_ite (h12.then carries_State_event) h12

theorem State.carries_start13 {s u : State} {e : StartEnv} (h : s.carries u) : Start.Leaves s id (u.start13 e) := by
  unfold State.start13
  refine .bind (State.carries_tryImage h) fun a ha => ?_
  split
  · exact ha
  · refine .ite ha (.bind (State.carries_tryImage (ha.then carries_State_failEvent)) fun b hb => ?_)
    split
    · exact hb
    · exact hb

theorem State.carries_start14 {s u : State} {e : StartEnv} (h : s.carries u) : Start.Leaves s id (u.start14 e) := by
  unfold State.start14
  exact State.carries_done (.then (.then h {}) carries_State_keepRecord) (by decide)

/-- A start that runs on to step 15, or that stops where it stands, has ended. -/
def Start.Ends : Start State → Prop
  | .ok t => t.startEnds
  | _ => True

theorem Start.Ends.bind {α : Type} {x : Start α} {k : α → Start State} (hk : ∀ a, Start.Ends (k a)) : Start.Ends (x >>= k) := by
  match x with
  | .ok a => exact hk a
  | .error _ => exact True.intro

theorem State.carries_steps6to15 {s u : State} {e : StartEnv} (h : s.carries u) : Start.Leaves s id (u.steps6to15 e) := by
  unfold State.steps6to15
  extract_lets v
  have hv : s.carries v.1 := h.then carries_State_readRecord |>.then carries_State_updateStep
  refine .ite hv (.bind (State.carries_done hv (by decide)) fun s6 h6 => .bind (State.carries_start10 h6) fun s10 h10 => ?_)
  exact .bind (State.carries_start13 h10) fun s13 h13 => .bind (State.carries_start14 h13) fun s14 h14 => h14.then carries_State_start15

theorem State.ends_steps6to15 (s : State) (e : StartEnv) : Start.Ends (s.steps6to15 e) := by
  unfold State.steps6to15
  extract_lets v
  split
  · exact True.intro
  · exact .bind fun _ => .bind fun _ => .bind fun _ => .bind fun s14 => s14.startEnds_start15

/-- What a start that is over carries over from before it. -/
def State.started (s u : State) : Prop := s.carries u ∧ u.startEnds

theorem State.started_enterRecovery {s u : State} (h : s.carries u) (code short : Nat) : s.started (u.enterRecovery code short) :=
  ⟨h.then carries_State_enterRecovery, u.startEnds_enterRecovery code short⟩

/-- What a start drops of the image and of the backups it had taken, before it runs again from step 6. -/
def State.unset (s : State) : State :=
  { s with cfg := [], boot := { s.boot with fwBackup := false, cfgBackup := false, expertStep := false } }

theorem State.carries_unset (s : State) : s.carries s.unset := {}

theorem State.started_runFrom6 {s u : State} {e : StartEnv} (h : s.carries u) : s.started (u.runFrom6 e) := by
  have hfirst := State.carries_steps6to15 (e := e) h
  have hends := u.ends_steps6to15 e
  unfold State.runFrom6
  revert hfirst hends
  generalize u.steps6to15 e = x
  intro hfirst hends
  match x, hfirst, hends with
  | .ok t, ht, he => exact ⟨ht, he⟩
  | .error (.ended t), ht, _ => exact ht
  | .error (.failed t code short), ht, _ =>
    show s.started (if t.updRec.state = .probation then _ else _)
    split
    · extract_lets back
      have hback : s.carries back := ht.then carries_State_failEvent |>.then carries_State_endProbation |>.then carries_State_zeroMeas
      have hagain := State.carries_steps6to15 (e := { e with updBad := [] }) (hback.then (back.carries_unset))
      have hends := State.ends_steps6to15 back.unset { e with updBad := [] }
      show s.started (match back.unset.steps6to15 { e with updBad := [] } with
        | .ok u => u
        | .error (.ended u) => u
        | .error (.failed u c sh) => u.enterRecovery c sh)
      revert hagain hends
      generalize back.unset.steps6to15 _ = y
      intro hagain hends
      match y, hagain, hends with
      | .ok t, ht, he => exact ⟨ht, he⟩
      | .error (.ended t), ht, _ => exact ht
      | .error (.failed t c sh), ht, _ => exact State.started_enterRecovery ht c sh
    · exact State.started_enterRecovery ht code short

end Sys2Proof.Machine

/-! # Starts and resets -/

namespace Sys2Proof.Machine

-- One theorem after the other: a thread for each would pass the memory limit of the check.
set_option Elab.async false

/-! ## The mode that GASP leaves -/

/-- The mode, its budget level, and GASP's cause and begin stand. -/
structure State.sameGasp (s u : State) : Prop where
  mode : u.pwr.mode = s.pwr.mode := by rfl
  budget : u.pwr.budget = s.pwr.budget := by rfl
  cause : u.pwr.gaspCause = s.pwr.gaspCause := by rfl
  begun : u.pwr.gaspAt = s.pwr.gaspAt := by rfl

theorem State.sameGasp.then {s t u : State} (h : s.sameGasp t) (g : t.sameGasp u) : s.sameGasp u where
  mode := g.mode.trans h.mode
  budget := g.budget.trans h.budget
  cause := g.cause.trans h.cause
  begun := g.begun.trans h.begun

theorem State.sameGasp.mode_budget {s u : State} (h : s.sameGasp u) : u.pwr.mode = s.pwr.mode ∧ u.pwr.budget = s.pwr.budget :=
  ⟨h.mode, h.budget⟩

theorem State.keepsBut.sameGasp {A : List Part} {s u : State} (h : s.keepsBut A u) (sub : Part.pwr ∉ A := by decide) : s.sameGasp u := by
  have hpwr : u.pwr = s.pwr := h .pwr sub
  exact { mode := by rw [hpwr], budget := by rw [hpwr], cause := by rw [hpwr], begun := by rw [hpwr] }

theorem State.sameGasp.keep {A : List Part} {s t u : State} (h : s.sameGasp t) (g : t.keepsBut A u) (sub : Part.pwr ∉ A := by decide) :
    s.sameGasp u :=
  h.then (g.sameGasp sub)

theorem sameGasp_State_gaspProgress {s : State} : s.sameGasp s.gaspProgress := by
  unfold State.gaspProgress
  split
  · extract_lets s1
    have h1 : s.sameGasp s1 := by
      unfold s1
      split
      · exact {}
      · exact keeps_State_cleanClose.sameGasp
    exact h1.then {}
  · exact {}

/-- A change of mode sets the mode and its budget level, and leaves the rest of what GASP notes. -/
theorem State.setMode_pwr (s : State) (m : Mode) (cause : Nat) :
    (s.setMode m cause).pwr.mode = m ∧ (s.setMode m cause).pwr.budget = s.pwr.budgetOf m := by
  unfold State.setMode
  extract_lets level old s1 a s2 s3
  by_cases h : m = old.mode ∧ level = old.budget
  · rw [if_pos h]
    exact ⟨h.1.symm, h.2.symm⟩
  · rw [if_neg h]
    have h2 : s1.sameGasp s2 := by
      unfold s2
      split
      · exact {}
      · have ha : s1.sameGasp a := keeps_State_raiseInt.sameGasp.keep keeps_State_note
        split
        · exact ha.keep keeps_State_note
        · exact ha
    have h3 : s1.sameGasp s3 := by
      unfold s3
      split
      · exact h2.keep keeps_State_dispatch
      · exact h2.keep keeps_State_raiseInt |>.keep keeps_State_setBudget
    exact State.sameGasp.mode_budget (s := s1) (.keep (h3.keep keeps_State_route) keeps_State_fire)

theorem State.setMode_mode (s : State) (m : Mode) (cause : Nat) : (s.setMode m cause).pwr.mode = m := (s.setMode_pwr m cause).1

theorem State.setMode_budget (s : State) (m : Mode) (cause : Nat) : (s.setMode m cause).pwr.budget = s.pwr.budgetOf m :=
  (s.setMode_pwr m cause).2

/-- GASP begins outside GASP: its mode, its budget level, its cause, and the time (Table 15.4). -/
theorem State.enterGasp_pwr {s : State} {cause : Nat} (h : s.pwr.mode ≠ .gasp) :
    (s.enterGasp cause).pwr.mode = .gasp ∧ (s.enterGasp cause).pwr.budget = 3 ∧ (s.enterGasp cause).pwr.gaspCause = cause ∧
      (s.enterGasp cause).pwr.gaspAt = some s.now := by
  unfold State.enterGasp
  rw [if_neg h]
  extract_lets s1 s2 s3 _ s4 s5 s6
  have h2 : s1.sameGasp s2 := by
    unfold s2
    split
    · exact keeps_State_note.sameGasp
    · exact {}
  have h3 : State.sameGasp (s2.modPwr fun p => { p with gaspAt := some s.now, gaspCause := cause, gaspStored := false }) s3 :=
    keeps_State_gaspTime.sameGasp.keep keeps_State_gaspHold
  have h4 : s3.sameGasp s4 := .keep {} keeps_State_dropRecords
  have h6 : s3.sameGasp s6 := h4.keep keeps_State_endExpert |>.keep keeps_State_abandonDeliveries |>.keep keeps_State_releaseOwner
    |>.keep keeps_State_sendLeave |>.keep keeps_State_sbEmit
  have hu := h3.then (h6.keep keeps_State_stopFuller |>.then sameGasp_State_gaspProgress)
  have hmode : s2.pwr.mode = .gasp := h2.mode.trans (State.setMode_mode _ _ _)
  have hbudget : s2.pwr.budget = 3 := h2.budget.trans (State.setMode_budget _ _ _)
  exact ⟨hu.mode.trans hmode, hu.budget.trans hbudget, hu.cause, hu.begun⟩

theorem State.enterGasp_mode (s : State) (cause : Nat) : (s.enterGasp cause).pwr.mode = .gasp := by
  by_cases h : s.pwr.mode = .gasp
  · unfold State.enterGasp
    rw [if_pos h]
    exact h
  · exact (State.enterGasp_pwr h).1

/-! ## The whole start -/

theorem carries_State_advance {s : State} {t : Nat} : s.carries (s.advance t) := { now := Nat.le_max_left _ _ }

theorem State.started_startDevice {s u : State} {e : StartEnv} {forced : Bool} (h : s.carries u) : s.started (u.startDevice e forced) := by
  unfold State.startDevice
  extract_lets _ ended s1
  have hended : s.carries ended := carries_foldl (fun _ _ hv => hv.then carries_State_note) (h.then {})
  split
  · exact ⟨hended.then carries_State_enterGasp, .inr (.inr (.inr (.inr (ended.enterGasp_mode 3))))⟩
  · have h1 : s.carries s1 := hended.then carries_State_rtcRun |>.then carries_State_advance |>.then carries_State_spoilHeaders
    have h5 := State.carries_steps1to5 (e := e) h1
    revert h5
    generalize State.steps1to5 e s1 = x
    intro h5
    match x, h5 with
    | .ok s5, h5 =>
      show s.started (if forced = true then _ else _)
      split
      · exact State.started_enterRecovery h5 8 0
      · exact State.started_runFrom6 h5
    | .error (.ended t), ht => exact ht
    | .error (.failed t code short), ht =>
      refine State.started_enterRecovery (u := if t.updRec.state = .probation then t.endProbation else t) ?_ code short
      exact carries_ite (ht.then carries_State_endProbation) ht

/-! ## Resets -/

theorem carries_State_noteReset {s : State} : s.carries s.noteReset := by
  unfold State.noteReset
  extract_lets w s1 s2 s3 s4 s5
  have h1 : s.carries s1 := carries_ite {} (carries_refl _)
  have h2 : s.carries s2 := h1.keep keeps_State_bump
  have h3 : s.carries s3 := carries_ite (h2.then carries_State_note) h2
  have h4 : s.carries s4 := carries_ite (h3.then carries_State_note) h3
  have h5 : s.carries s5 := h4.then carries_State_event
  exact carries_ite (h5.then carries_State_event |>.then carries_State_note) h5

/-- What a reset of a class leaves of the state before it, and what the start that follows it carries over (R474, Table 15.8). -/
structure State.restarts (s : State) (cls : ResetClass) (timeout escalated : Bool) (u : State) : Prop where
  pending : u.pending = s.pending
  now : s.now ≤ u.now
  cls : u.rst.cls = cls
  prev : u.rst.prev = s.rst.cls
  holdTimeout : u.rst.holdTimeout = timeout
  escalated : u.rst.escalated = escalated
  hold : u.rst.hold = none
  jobs : u.host.jobs = []
  nonces : u.sec.nonces = s.sec.nonces ∨ u.sec.nonces = []
  cache : u.sb.cache = s.sb.cache ∨ u.sb.cache = []
  outstanding : u.sb.outstanding = []

theorem State.restarts.then {s t u : State} {cls : ResetClass} {timeout escalated : Bool} (h : s.restarts cls timeout escalated t)
    (g : t.carries u) : s.restarts cls timeout escalated u where
  pending := g.pending.trans h.pending
  now := h.now.trans g.now
  cls := g.cls.trans h.cls
  prev := g.prev.trans h.prev
  holdTimeout := g.holdTimeout.trans h.holdTimeout
  escalated := g.escalated.trans h.escalated
  hold := g.hold h.hold
  jobs := g.jobs h.jobs
  nonces := by rw [g.nonces]; exact h.nonces
  cache := by rw [g.cache]; exact h.cache
  outstanding := g.outstanding.trans h.outstanding

/-- What the clearing of a reset keeps: what ends first leaves the parts that a reset's record is made from. -/
theorem State.keeps_endedByReset_stopTime (s : State) (cls : ResetClass) :
    s.keepsBut [.way, .host, .limits, .regs, .boot, .out, .upd, .tim] ((s.endedByReset cls).stopTime) :=
  keeps_State_endedByReset.within |>.then keeps_State_stopTime

theorem State.restarts_applyReset (s : State) (cls : ResetClass) (vbat timeout escalated : Bool) :
    s.restarts cls timeout escalated (s.applyReset cls vbat timeout escalated) := by
  have hkept := s.keeps_endedByReset_stopTime cls
  unfold State.applyReset
  extract_lets s1 _ s2 s3 epoch _ _ s4
  have h2 : s.restarts cls timeout escalated s2 :=
    { pending := hkept .pending (by decide), now := (hkept .now (by decide)).ge, cls := rfl,
      prev := congrArg Rst.cls (hkept .rst (by decide)), holdTimeout := rfl, escalated := rfl, hold := rfl, jobs := rfl,
      nonces := by
        have hsec := hkept .sec (by decide)
        show (if _ then _ else _) = _ ∨ (if _ then _ else _) = _
        split
        · exact .inr rfl
        · exact .inl (congrArg Sec.nonces hsec),
      cache := by
        have hsb := hkept .sb (by decide)
        show (if _ then _ else _) = _ ∨ (if _ then _ else _) = _
        split
        · exact .inr rfl
        · exact .inl (congrArg Sb.cache hsb),
      outstanding := rfl }
  have h3 : s2.carries s3 := carries_ite keeps_State_reseedGens.carries keeps_State_advanceGens.carries
  exact h2.then (.then (h3.then {}) carries_State_noteReset)

/-- A reset, the rails up, and the start that follows (R33, R474). -/
theorem State.restarts_resetAndStart (s : State) (cls : ResetClass) (e : StartEnv) (timeout escalated : Bool) :
    s.restarts cls timeout escalated (s.resetAndStart cls e timeout escalated) ∧ (s.resetAndStart cls e timeout escalated).startEnds ∧
      (s.resetAndStart cls e timeout escalated).pins.mainOk = true ∧ (s.resetAndStart cls e timeout escalated).pins.pwrEnMain = true := by
  unfold State.resetAndStart
  extract_lets vbat s1 _ s2
  have h1 : s.restarts cls timeout escalated s1 := s.restarts_applyReset cls vbat timeout escalated
  have h2 : s.restarts cls timeout escalated s2 := { h1 with }
  obtain ⟨hcarries, hends⟩ := State.started_startDevice (e := e) (forced := false) (carries_refl s2)
  exact ⟨h2.then hcarries, hends, by rw [hcarries.pins], by rw [hcarries.pins]⟩

theorem State.restarts_wakeStart (s : State) (e : StartEnv) :
    s.restarts .wake false false (s.wakeStart e) ∧ (s.wakeStart e).startEnds ∧ (s.wakeStart e).pins.mainOk = true ∧
      (s.wakeStart e).pins.pwrEnMain = true := by
  have hkept : s.keepsBut [.way, .host, .limits, .cch, .regs, .out, .pwr] ((s.setMode .boot 8).bump cPwrStandbyWakes) :=
    keeps_State_setMode.then keeps_State_bump
  obtain ⟨h, hends, hmain, hen⟩ := ((s.setMode .boot 8).bump cPwrStandbyWakes).restarts_resetAndStart .wake e false false
  refine ⟨{ h with pending := ?_, now := ?_, prev := ?_, nonces := ?_, cache := ?_ }, hends, hmain, hen⟩
  · exact h.pending.trans (hkept .pending (by decide))
  · exact (hkept .now (by decide)).ge.trans h.now
  · exact h.prev.trans (congrArg Rst.cls (hkept .rst (by decide)))
  · exact (congrArg Sec.nonces (hkept .sec (by decide))) ▸ h.nonces
  · exact (congrArg Sb.cache (hkept .sb (by decide))) ▸ h.cache

end Sys2Proof.Machine

/-! # What each row changes -/

namespace Sys2Proof.Machine

-- One theorem after the other: a thread for each would pass the memory limit of the check.
set_option Elab.async false

theorem leads_execPowerUpSequence (t : Nat) (s0 : State) :
    (s0.advance t).leads [.pins] (execPowerUpSequence t s0) :=
  leads_next (keepsBut_ite (keepsBut_refl _ _) keeps_with_pins.within)

theorem leads_execMainRailTimeout (t : Nat) (s0 : State) :
    (s0.advance t).leads [.pwr, .pins, .sb] (execMainRailTimeout t s0) :=
  leads_ite (leads_next (keepsBut_refl _ _)) (leads_ite (leads_next keeps_with_pins.within) (leads_next keeps_with_pwr_pins_sb.within))

theorem leads_execWrm (t : Nat) (s0 : State) :
    (s0.advance t).leads [.regs, .limits, .out, .way, .rst, .host, .hwl, .ful] (execWrm t s0) :=
  leads_next keeps_State_requestReset.within

theorem leads_execAppHeartbeat (t : Nat) (s0 : State) :
    (s0.advance t).leads [.rst] (execAppHeartbeat t s0) :=
  leads_next (keepsBut_ite (keepsBut_refl _ _) keeps_with_rst.within)

theorem leads_execWatchdogPending (t : Nat) (s0 : State) :
    (s0.advance t).leads [.regs, .out, .way, .rst, .host, .hwl] (execWatchdogPending t s0) :=
  leads_next (keepsBut_ite (keepsBut_refl _ _) (keeps_with_rst.within |>.then keeps_State_releaseOwner))

theorem leads_execSysWatchdogExpiry (t : Nat) (s0 : State) :
    (s0.advance t).leads [.regs, .limits, .out, .way, .rst, .host, .hwl, .ful] (execSysWatchdogExpiry t s0) :=
  leads_next (keepsBut_ite (keepsBut_refl _ _) keeps_State_requestReset.within)

theorem leads_execSwpEscalation (t : Nat) (s0 : State) :
    (s0.advance t).leads [.regs, .limits, .out, .way, .rst, .host, .hwl, .ful] (execSwpEscalation t s0) := by
  dsimp only [execSwpEscalation]
  split
  · exact leads_next (keepsBut_refl _ _)
  · refine leads_next ?_
    refine keepsBut_ite (keepsBut_refl _ _) ?_
    split
    · exact keepsBut_refl _ _
    · exact keeps_with_rst.within |>.then keeps_State_beginHold

theorem leads_execLegalWatchdogExpiry (t : Nat) (s0 : State) :
    (s0.advance t).leads [.regs, .out, .way, .host, .bil, .lgc] (execLegalWatchdogExpiry t s0) :=
  leads_next (keepsBut_ite (keepsBut_refl _ _) (keeps_with_bil_lgc.within |>.then keeps_State_event))

theorem leads_execLegalWatchdogEscalation (t : Nat) (s0 : State) :
    (s0.advance t).leads [.regs, .limits, .out, .way, .rst, .host, .hwl, .ful] (execLegalWatchdogEscalation t s0) := by
  dsimp only [execLegalWatchdogEscalation]
  split
  · exact leads_next (keepsBut_refl _ _)
  · exact leads_next (keepsBut_ite (keepsBut_refl _ _) keeps_State_requestReset.within)

theorem leads_execPfailNChange (low : Bool) (t : Nat) (s0 : State) :
    (s0.advance t).leads [.regs, .limits, .out, .boot, .way, .pwr, .rst, .host, .cch, .upd, .tim, .ing, .val, .hwl, .bil, .ful, .readings]
        (execPfailNChange low t s0) :=
  leads_next (keeps_State_modPwr.within |>.then keeps_State_evaluate)

theorem leads_execModeEvaluation (vscap powerMw t : Nat) (s0 : State) :
    (s0.advance t).leads [.regs, .limits, .out, .boot, .way, .pwr, .rst, .host, .cch, .upd, .tim, .ing, .val, .hwl, .bil, .ful, .readings]
        (execModeEvaluation vscap powerMw t s0) :=
  leads_next (keeps_State_modPwr.within |>.then keeps_State_judgePower |>.then keeps_State_endConditions |>.then keeps_State_modPwr
      |>.then keeps_State_evaluate)

theorem leads_execGaspFullerDeadline (t : Nat) (s0 : State) :
    (s0.advance t).leads [.regs, .limits, .out, .way, .pwr, .host, .ful] (execGaspFullerDeadline t s0) := by
  dsimp only [execGaspFullerDeadline]
  split
  · exact leads_next (keepsBut_refl _ _)
  · exact leads_ite (leads_next (keepsBut_refl _ _)) (leads_next (keeps_State_note.within |>.then keeps_with_pwr_ful))

theorem leads_execRideTimeExpiry (t : Nat) (s0 : State) :
    (s0.advance t).leads [.regs, .limits, .out, .boot, .way, .pwr, .rst, .host, .cch, .upd, .tim, .ing, .val, .hwl, .bil, .ful, .readings]
        (execRideTimeExpiry t s0) :=
  leads_next (keepsBut_ite keeps_State_evaluate.within (keepsBut_refl _ _))

theorem leads_execTemperatureSample (t0 : ℤ) (t1 : ℤ) (t2 : ℤ) (t3 : ℤ) (t : Nat) (s0 : State) :
    (s0.advance t).leads [.regs, .limits, .out, .boot, .way, .pwr, .rst, .host, .cch, .upd, .tim, .ing, .val, .hwl, .bil, .ful, .readings]
        (execTemperatureSample t0 t1 t2 t3 t s0) :=
  leads_next (.then (.then (.then (keepsBut_foldl (fun _ _ h => h |>.then keeps_State_sampleSensor) keeps_State_modPwr.within)
      keeps_State_judgeHeat) keeps_State_modPwr) keeps_State_evaluate)

theorem leads_execThermalClear (t : Nat) (s0 : State) :
    (s0.advance t).leads [.regs, .limits, .out, .boot, .way, .pwr, .rst, .host, .cch, .upd, .tim, .ing, .val, .hwl, .bil, .ful, .readings]
        (execThermalClear t s0) :=
  leads_next (keeps_State_endConditions.within |>.then keeps_State_evaluate)

theorem leads_execZeroCrossing (phase : Fin 3) (w : ZcWave) (m : List MetCycle) (t : Nat) (s0 : State) :
    (s0.advance t).leads (allBut [.pending, .now, .draws, .latches, .cfg, .boot, .sec, .pwr, .rst, .pins, .sb, .upd, .val, .lgc, .readings,
        .mem]) (execZeroCrossing phase w m t s0) :=
  leads_next (keepsBut_ite (keepsBut_refl _ _) (keepsBut_ite keeps_State_metMeasure.within (keeps_State_metMeasure.within |>.then
      keeps_State_crossing)))

theorem leads_execPhaseAbsent (phase : Fin 3) (t : Nat) (s0 : State) :
    (s0.advance t).leads (allBut [.pending, .now, .draws, .latches, .cfg, .boot, .sec, .pwr, .rst, .pins, .sb, .upd, .val, .lgc, .readings,
        .mem]) (execPhaseAbsent phase t s0) := by
  dsimp only [execPhaseAbsent]
  split
  · exact leads_next (keepsBut_refl _ _)
  · exact leads_next (keepsBut_ite (keepsBut_refl _ _) (keeps_State_modPhase.within |>.then keeps_State_markAbsent |>.then
      keeps_State_chooseSource))

theorem leads_execSyntheticCycle (t : Nat) (s0 : State) :
    (s0.advance t).leads (allBut [.pending, .now, .draws, .latches, .cfg, .boot, .sec, .pwr, .rst, .pins, .sb, .upd, .val, .lgc, .readings,
        .mem]) (execSyntheticCycle t s0) :=
  leads_next (keepsBut_ite (keepsBut_refl _ _) keeps_State_numberDue.within)

theorem leads_execRtcTick (t : Nat) (s0 : State) :
    (s0.advance t).leads [.cyc, .tim] (execRtcTick t s0) :=
  leads_ite (leads_next (keepsBut_refl _ _)) (leads_next (keeps_State_modCyc.within |>.then keeps_with_tim))

theorem leads_execOperatingTimeTick (t : Nat) (s0 : State) :
    (s0.advance t).leads [.way] (execOperatingTimeTick t s0) :=
  leads_next keeps_with_way.within

theorem leads_execOperatingTimePersist (t : Nat) (s0 : State) :
    (s0.advance t).leads [.way] (execOperatingTimePersist t s0) :=
  leads_next (keepsBut_ite (keepsBut_refl _ _) keeps_with_way.within)

theorem leads_execAonTimeRefresh (t : Nat) (s0 : State) :
    (s0.advance t).leads [.tim] (execAonTimeRefresh t s0) :=
  leads_next (keepsBut_ite (keepsBut_refl _ _) keeps_with_tim.within)

theorem leads_execSync (h : PtpHdr) (t1 : Option ℤ) (sub t : Nat) (s0 : State) :
    (s0.advance t).leads [.regs, .out, .way, .host, .eth, .upd, .tim] (execSync h t1 sub t s0) := by
  dsimp only [execSync]
  refine leads_ite (leads_next (keepsBut_refl _ _)) ?_
  split
  · exact leads_next (keeps_State_modPtp.within |>.then keeps_State_syncComplete)
  · exact leads_next keeps_State_modPtp.within

theorem leads_execFollowUp (h : PtpHdr) (t1 : ℤ) (t : Nat) (s0 : State) :
    (s0.advance t).leads [.regs, .out, .way, .host, .eth, .upd, .tim] (execFollowUp h t1 t s0) := by
  dsimp only [execFollowUp]
  refine leads_ite (leads_next (keepsBut_refl _ _)) ?_
  split
  · exact leads_next (keepsBut_refl _ _)
  · exact leads_ite (leads_next (keepsBut_refl _ _)) (leads_next (keeps_State_modPtp.within |>.then keeps_State_syncComplete))

theorem leads_execDelayResp (h : PtpHdr) (t4 : ℤ) (t : Nat) (s0 : State) :
    (s0.advance t).leads [.tim] (execDelayResp h t4 t s0) := by
  dsimp only [execDelayResp]
  refine leads_ite (leads_next (keepsBut_refl _ _)) ?_
  split
  · exact leads_next (keepsBut_refl _ _)
  · exact leads_ite (leads_next (keepsBut_refl _ _)) (leads_next keeps_State_modPtp.within)

theorem leads_execDelayReqSend (port : Fin 2) (sub t : Nat) (s0 : State) :
    (s0.advance t).leads [.regs, .out, .tim] (execDelayReqSend port sub t s0) :=
  leads_ite (leads_next (keepsBut_refl _ _)) (leads_ite (leads_next keeps_State_bump.within) (leads_ite (leads_next (keepsBut_refl _ _))
      (leads_next (keeps_State_modPtp.within |>.then keeps_State_emit |>.then keeps_State_bump))))

theorem leads_execPtpAnnounce (h : PtpHdr) (a : PtpAnnounce) (t : Nat) (s0 : State) :
    (s0.advance t).leads [.regs, .out, .way, .host, .tim] (execPtpAnnounce h a t s0) :=
  leads_ite (leads_next (keepsBut_refl _ _)) (leads_next (keepsBut_ite (keeps_State_modPtp.within |>.then keeps_State_selectMaster
      |>.then keeps_State_announcedUtc) (keeps_State_modPtp.within |>.then keeps_State_selectMaster)))

theorem leads_execMasterTimeout (port : Fin 2) (master : BitVec 64) (t : Nat) (s0 : State) :
    (s0.advance t).leads [.tim] (execMasterTimeout port master t s0) :=
  leads_next (keepsBut_ite (keepsBut_refl _ _) (keeps_State_modPtp.within |>.then keeps_State_selectMaster))

theorem leads_execProportionalEnd (t : Nat) (s0 : State) :
    (s0.advance t).leads [.tim] (execProportionalEnd t s0) := by
  dsimp only [execProportionalEnd]
  split
  · exact leads_next (keepsBut_refl _ _)
  · exact leads_next (keepsBut_ite (keepsBut_refl _ _) (keeps_State_setRate.within |>.then keeps_State_modTim))

theorem leads_execStepPermitExpiry (t : Nat) (s0 : State) :
    (s0.advance t).leads [.tim] (execStepPermitExpiry t s0) := by
  dsimp only [execStepPermitExpiry]
  split
  · exact leads_next (keepsBut_refl _ _)
  · exact leads_next (keepsBut_ite (keepsBut_refl _ _) keeps_State_modTim.within)

theorem leads_execLeapSecond (t : Nat) (s0 : State) :
    (s0.advance t).leads [.tim] (execLeapSecond t s0) :=
  leads_next (keepsBut_ite (keepsBut_refl _ _) keeps_State_modTim.within)

theorem leads_execExpertSessionExpiry (t : Nat) (s0 : State) :
    (s0.advance t).leads [.regs, .out, .boot, .way, .host] (execExpertSessionExpiry t s0) := by
  dsimp only [execExpertSessionExpiry]
  split
  · exact leads_next (keepsBut_refl _ _)
  · exact leads_next (keepsBut_ite (keepsBut_refl _ _) keeps_State_endExpert.within)

theorem leads_execNonceExpiry (t : Nat) (s0 : State) :
    (s0.advance t).leads [.sec] (execNonceExpiry t s0) :=
  leads_next keeps_State_modSec.within

theorem leads_execPulseInstant (output : Fin 2) (t : Nat) (s0 : State) :
    (s0.advance t).leads [.regs, .out, .cch, .tim] (execPulseInstant output t s0) := by
  dsimp only [execPulseInstant]
  split
  · exact leads_next (keepsBut_refl _ _)
  · exact leads_ite (leads_next (keepsBut_refl _ _)) (leads_next (.then (keepsBut_ite keeps_State_setPulse.within
      (keeps_State_setPulse.within |>.then keeps_State_emit)) keeps_State_firePulseTriggers))

theorem leads_execPulseFall (output : Fin 2) (t : Nat) (s0 : State) :
    (s0.advance t).leads [.out, .tim] (execPulseFall output t s0) := by
  dsimp only [execPulseFall]
  split
  · exact leads_next (keepsBut_refl _ _)
  · exact leads_next (keepsBut_ite (keepsBut_refl _ _) (keeps_State_setPulse.within |>.then keeps_State_emit))

theorem leads_execLaunch (port : Fin 2) (traffic : Fin 8) (bytes : List Byte) (launchSec launchNs : Nat) (ahead : Bool) (t : Nat)
    (s0 : State) :
    (s0.advance t).leads [.regs, .out, .eth] (execLaunch port traffic bytes launchSec launchNs ahead t s0) :=
  leads_ite (leads_next (keepsBut_refl _ _)) (leads_ite (leads_next (keepsBut_ite (keepsBut_refl _ _) (keeps_State_modEthPort.within
      |>.then keeps_State_launchNow))) (leads_ite (leads_next keeps_State_bump.within) (leads_ite (leads_next (keeps_State_emit.within
      |>.then keeps_State_bump)) (leads_ite (leads_next keeps_State_emit.within) (leads_ite (leads_next keeps_State_modEthPort.within)
      (leads_next keeps_State_launchNow.within))))))

theorem leads_execBeaconLaunch (t : Nat) (s0 : State) :
    (s0.advance t).leads [.regs, .out, .plc] (execBeaconLaunch t s0) := by
  dsimp only [execBeaconLaunch]
  split
  · exact leads_next (keepsBut_refl _ _)
  · exact leads_next (keepsBut_ite keeps_State_modPlc.within (keeps_State_modPlc.within |>.then keeps_State_drive |>.then
      keeps_State_bump |>.then keeps_State_emit))

theorem leads_execRfBeaconLaunch (radio : Fin 2) (t : Nat) (s0 : State) :
    (s0.advance t).leads [.regs, .out, .rfm] (execRfBeaconLaunch radio t s0) := by
  dsimp only [execRfBeaconLaunch]
  split
  · exact leads_next (keepsBut_refl _ _)
  · exact leads_next (keepsBut_ite keeps_State_setRadio.within (keepsBut_ite (keeps_State_setRadio.within |>.then keeps_State_holdDuty
      |>.then keeps_State_raiseInt |>.then keeps_State_bump) (keeps_State_setRadio.within |>.then keeps_State_modRfm |>.then
      keeps_State_radioDrive |>.then keeps_State_bump |>.then keeps_State_emit)))

theorem leads_execIngestFrame (f : Frame) (s : State) :
    s.leads [.regs, .out, .way, .host, .ing] (execIngestFrame f s) :=
  leads_next keeps_State_ingestFrame.within

theorem leads_execSteering (s : State) :
    s.leads [.regs, .limits, .out, .way, .host, .ing] (execSteering s) :=
  leads_next (keepsBut_ite (keepsBut_refl _ _) keeps_State_steer.within)

theorem leads_execCreditReturn (src : Fin 11) (s : State) :
    s.leads [.ing] (execCreditReturn src s) :=
  leads_next keeps_with_ing.within

theorem leads_execBundleSplit (t : Nat) (s0 : State) :
    (s0.advance t).leads [.regs, .limits, .out, .way, .host, .eth, .ing] (execBundleSplit t s0) := by
  dsimp only [execBundleSplit]
  refine leads_ite (leads_next (keepsBut_refl _ _)) ?_
  split
  · exact leads_next (keepsBut_refl _ _)
  · split
    · split
      · refine leads_next ?_
        refine keepsBut_ite (keeps_with_ing.within |>.then keeps_State_parityStage) ?_
        refine keepsBut_ite (keeps_with_ing.within |>.then keeps_State_parityStage |>.then keeps_State_bump |>.then keeps_State_note) ?_
        split
        · exact keeps_with_ing.within |>.then keeps_State_parityStage |>.then keeps_State_bump |>.then keeps_State_note
        · exact keepsBut_ite (keeps_with_ing.within |>.then keeps_State_parityStage |>.then keeps_State_bump |>.then keeps_State_note)
            (keeps_with_ing.within |>.then keeps_State_parityStage |>.then keeps_State_bump |>.then keeps_State_acceptBundle |>.then
            keeps_State_ackBundle)
      · exact leads_next keeps_with_ing.within
    · exact leads_next keeps_with_ing.within

theorem leads_execContextFill (lane : Fin 4) (ecc : EccOutcome) (t : Nat) (s0 : State) :
    (s0.advance t).leads [.regs, .limits, .out, .way, .host, .ctx, .ing] (execContextFill lane ecc t s0) := by
  dsimp only [execContextFill]
  refine leads_ite (leads_next (keepsBut_ite (keepsBut_refl _ _) keeps_State_countEcc.within)) ?_
  split
  · exact leads_next (keepsBut_ite (keepsBut_refl _ _) keeps_State_countEcc.within)
  · refine leads_ite (leads_next (.then (.then (keepsBut_ite (keepsBut_refl _ _) keeps_State_countEcc.within) keeps_State_endFill)
      keeps_State_loseContext)) ?_
    refine leads_ite ?_ (leads_next (.then (keepsBut_ite (keepsBut_refl _ _) keeps_State_countEcc.within) keeps_State_endFill))
    refine leads_next ?_
    split
    · exact .then (.then (.then (keepsBut_ite (keepsBut_refl _ _) keeps_State_countEcc.within) keeps_State_endFill)
        keeps_State_tagFails) keeps_State_leaveLane
    · exact .then (keepsBut_ite (keepsBut_refl _ _) keeps_State_countEcc.within) keeps_State_endFill

theorem leads_execLaneProcessing (lane : Fin 4) (badRead : Bool) (t : Nat) (s0 : State) :
    (s0.advance t).leads (allBut [.pending, .now, .draws, .latches, .cfg, .boot, .sec, .pwr, .rst, .pins, .sb, .cyc, .tim, .bil, .lgc,
        .met, .readings, .mem]) (execLaneProcessing lane badRead t s0) := by
  dsimp only [execLaneProcessing]
  refine leads_ite (leads_next (keepsBut_refl _ _)) ?_
  split
  · exact leads_next (keepsBut_refl _ _)
  · exact leads_next (keepsBut_ite keeps_State_pastContext.within keeps_State_contextStage.within)

theorem leads_execFirmwareRecordBuild (verified : Bool) (built : Option Parsed) (status : Option CampStatus) (t : Nat) (s0 : State) :
    (s0.advance t).leads [.regs, .limits, .out, .way, .host, .cch, .txn, .upd, .ctx, .ing, .plc, .rfm]
        (execFirmwareRecordBuild verified built status t s0) := by
  dsimp only [execFirmwareRecordBuild]
  split
  · exact leads_next (keepsBut_refl _ _)
  · refine leads_ite (leads_next (keepsBut_refl _ _)) ?_
    refine leads_next ?_
    split
    · exact .then (.then (keepsBut_iteFst (keeps_with_ing.within |>.then keeps_State_advanceFwRead |>.then keeps_State_answered)
        (keeps_with_ing.within |>.then keeps_State_advanceFwRead)) keeps_State_finalAnswerQ) keeps_State_takeStatus
    · exact .then (.then (.then (keepsBut_iteFst (keeps_with_ing.within |>.then keeps_State_advanceFwRead |>.then keeps_State_answered)
        (keeps_with_ing.within |>.then keeps_State_advanceFwRead)) keeps_State_finalAnswerQ) keeps_State_takeStatus) keeps_State_ingestFrame

theorem leads_execContextOperation (lane : Fin 4) (t : Nat) (s0 : State) :
    (s0.advance t).leads [.regs, .limits, .out, .sec, .way, .host, .cch, .txn, .upd, .ctx, .ing, .hwl, .bil, .ful, .plc, .rfm]
        (execContextOperation lane t s0) := by
  dsimp only [execContextOperation]
  refine leads_ite (leads_next (keepsBut_refl _ _)) ?_
  split
  · exact leads_next (keepsBut_refl _ _)
  · split
    · exact leads_ite (leads_next (keepsBut_refl _ _)) (leads_next (keeps_State_leaveLane.within |>.then keeps_State_applyOp))
    · exact leads_next (keepsBut_refl _ _)

theorem leads_execContextRestore (t : Nat) (s0 : State) :
    (s0.advance t).leads [.sec, .txn, .ctx, .ing, .ful] (execContextRestore t s0) :=
  leads_ite (leads_next (keepsBut_refl _ _)) (leads_ite (leads_next (.then (.then (keepsBut_foldl (fun _ _ h => h |>.then
      keeps_State_fillMaster) (keepsBut_foldl (fun _ _ h => h |>.then keeps_State_setCtx) keeps_with_ctx.within)) keeps_with_ing)
      keeps_State_reseedRest)) (leads_next (keepsBut_foldl (fun _ _ h => keepsBut_ite h (h |>.then keeps_State_evict |>.then
      keeps_State_setCtx |>.then keeps_State_journalContext)) (keepsBut_refl _ _))))

theorem leads_execMirrorRecord (lane : Fin 4) (t : Nat) (s0 : State) :
    (s0.advance t).leads [.regs, .limits, .out, .way, .host, .ing, .val, .hwl] (execMirrorRecord lane t s0) := by
  dsimp only [execMirrorRecord]
  refine leads_ite (leads_next (keepsBut_refl _ _)) ?_
  split
  · exact leads_next (keepsBut_refl _ _)
  · split
    · split
      · exact leads_next (keepsBut_ite (keeps_State_leaveLane.within |>.then keeps_State_bump |>.then keeps_State_parityStage)
          (keepsBut_ite (keeps_State_leaveLane.within |>.then keeps_State_bump |>.then keeps_State_parityStage |>.then keeps_State_bump
          |>.then keeps_State_toVal) (keeps_State_leaveLane.within |>.then keeps_State_bump |>.then keeps_State_parityStage |>.then
          keeps_State_note |>.then keeps_State_syncRequest)))
      · exact leads_next (keeps_State_leaveLane.within |>.then keeps_State_bump)
    · exact leads_next (keeps_State_leaveLane.within |>.then keeps_State_bump)

theorem leads_execBundleClose (boundary : Bool) (t : Nat) (s0 : State) :
    (s0.advance t).leads [.regs, .out, .nor, .host, .eth, .ing] (execBundleClose boundary t s0) := by
  dsimp only [execBundleClose]
  split
  · exact leads_next (keepsBut_refl _ _)
  · exact leads_next (keepsBut_ite keeps_State_closeBundle.within (keepsBut_refl _ _))

theorem leads_execValidate (lane : Fin 4) (t : Nat) (s0 : State) :
    (s0.advance t).leads [.regs, .limits, .out, .way, .host, .val, .hwl] (execValidate lane t s0) := by
  dsimp only [execValidate]
  refine leads_ite (leads_next (keepsBut_refl _ _)) ?_
  split
  · refine leads_next ?_
    refine keepsBut_ite (keeps_with_val.within |>.then keeps_State_bump |>.then keeps_State_note |>.then keeps_State_finalAnswerQ) ?_
    split
    · exact keeps_with_val.within |>.then keeps_State_bump |>.then keeps_State_noteMeter |>.then keeps_State_finalAnswerQ
    · exact keepsBut_ite (keeps_with_val.within |>.then keeps_State_bump |>.then keeps_State_raiseInt |>.then keeps_State_note |>.then
        keeps_State_finalAnswerQ) (keeps_with_val.within |>.then keeps_State_bump |>.then keeps_State_holdJudged)
  · exact leads_next (keepsBut_refl _ _)

theorem leads_execRecordRelease (lane : Fin 4) (t : Nat) (s0 : State) :
    (s0.advance t).leads [.regs, .limits, .out, .nor, .way, .host, .eth, .ctx, .ing, .val, .hwl, .bil, .bal, .ful, .readings]
        (execRecordRelease lane t s0) := by
  dsimp only [execRecordRelease]
  refine leads_ite (leads_next (keepsBut_refl _ _)) ?_
  split
  · exact leads_next (keepsBut_refl _ _)
  · exact leads_next (keepsBut_ite (keeps_State_bumpBy.within |>.then keeps_State_release) keeps_with_val.within)

theorem leads_execVoteTimeout (unit : Fin 3) (t : Nat) (s0 : State) :
    (s0.advance t).leads [.regs, .limits, .out, .way, .host, .ing, .hwl, .bil, .ful, .readings] (execVoteTimeout unit t s0) := by
  dsimp only [execVoteTimeout]
  split
  · exact leads_next (keepsBut_refl _ _)
  · exact leads_next (.then (keepsBut_ite (keeps_with_bil.within |>.then keeps_State_outvote) (keepsBut_ite (keeps_with_bil.within
      |>.then keeps_State_itemNoMajority) keeps_with_bil.within)) keeps_State_settleCuts)

theorem leads_execSafeStateTestsDone (a b c : Bool) (t : Nat) (s0 : State) :
    (s0.advance t).leads [.regs, .out, .way, .host, .bil] (execSafeStateTestsDone a b c t s0) :=
  leads_ite (leads_next (keepsBut_refl _ _)) (leads_next (keepsBut_ite (keepsBut_foldl (fun _ _ h => h |>.then keeps_State_retireUnit)
      (keepsBut_refl _ _)) (.then (keepsBut_foldl (fun _ _ h => h |>.then keeps_State_retireUnit) (keepsBut_refl _ _)) keeps_with_bil)))

theorem leads_execForcedClosure (slot : Fin 16) (t : Nat) (s0 : State) :
    (s0.advance t).leads [.regs, .limits, .out, .way, .host, .hwl, .bil] (execForcedClosure slot t s0) := by
  dsimp only [execForcedClosure]
  split
  · exact leads_next (keepsBut_refl _ _)
  · exact leads_ite (leads_next (keepsBut_refl _ _)) (leads_next (keepsBut_foldl (fun _ _ h => h |>.then keeps_State_postLegal)
      (keepsBut_refl _ _)))

theorem leads_execFeederDeltas (m : List MetCycle) (t : Nat) (s0 : State) :
    (s0.advance t).leads [.regs, .bil, .met] (execFeederDeltas m t s0) :=
  leads_next (keeps_State_metMeasure.within |>.then keeps_State_handFeeder)

theorem leads_execFriendlyPeriodEnd (t : Nat) (s0 : State) :
    (s0.advance t).leads [.regs, .limits, .out, .way, .host, .cch, .txn, .ctx, .hwl, .bil, .bal, .ful] (execFriendlyPeriodEnd t s0) :=
  leads_next (keepsBut_foldl (fun _ _ h => h |>.then keeps_State_endHeld) (.then (keepsBut_foldl (fun _ _ h => h |>.then
      keeps_State_endDeferred) (keepsBut_refl _ _)) keeps_with_bal))

theorem leads_execTroikaRebuild (votes : List (List UnitAnswer)) (t : Nat) (s0 : State) :
    (s0.advance t).leads [.regs, .limits, .out, .way, .host, .ing, .bil, .met, .ful] (execTroikaRebuild votes t s0) := by
  dsimp only [execTroikaRebuild]
  refine leads_ite (leads_next (keepsBut_refl _ _)) ?_
  refine leads_next ?_
  refine keepsBut_ite ?_ ?_
  · refine State.keepsBut.then ?_ keeps_State_rebuildAll
    split
    · exact keepsBut_refl _ _
    · exact keeps_State_loadLegal.within
  · refine State.keepsBut.then ?_ keeps_State_setFeederRate
    refine State.keepsBut.then ?_ keeps_State_rebuildAll
    split
    · exact keepsBut_refl _ _
    · exact keeps_State_loadLegal.within

theorem leads_execDisplayFrame (sync : Byte) (shownSeq : Byte) (shown : Bool) (t : Nat) (s0 : State) :
    (s0.advance t).leads [.regs, .out, .way, .host, .lgc] (execDisplayFrame sync shownSeq shown t s0) :=
  leads_ite (leads_next (keepsBut_refl _ _)) (leads_next (keepsBut_ite (keeps_with_lgc.within |>.then keeps_State_emit |>.then
      keeps_State_event) (keeps_with_lgc.within |>.then keeps_State_emit)))

theorem leads_execSupplyConfirmation (gmn : Gmn) (positive : Bool) (t : Nat) (s0 : State) :
    (s0.advance t).leads [.regs, .limits, .out, .way, .host, .hwl, .bil] (execSupplyConfirmation gmn positive t s0) := by
  dsimp only [execSupplyConfirmation]
  split
  · exact leads_next (keepsBut_refl _ _)
  · exact leads_next keeps_State_postLegal.within

theorem leads_execBalRecord (t : Nat) (s0 : State) :
    (s0.advance t).leads [.regs, .limits, .out, .way, .host, .ctx, .bal, .ful, .plc] (execBalRecord t s0) := by
  dsimp only [execBalRecord]
  refine leads_ite (leads_next (keepsBut_refl _ _)) ?_
  split
  · exact leads_next (keepsBut_refl _ _)
  · refine leads_next ?_
    split
    · exact keeps_with_bal.within |>.then keeps_State_balRecord
    · exact keeps_with_bal.within |>.then keeps_State_balFeeder

theorem leads_execChannelEstimate (t : Nat) (s0 : State) :
    (s0.advance t).leads [.regs, .limits, .out, .way, .host, .ctx, .bal, .ful, .plc] (execChannelEstimate t s0) := by
  dsimp only [execChannelEstimate]
  refine leads_ite (leads_next (keepsBut_refl _ _)) ?_
  split
  · exact leads_next (keepsBut_refl _ _)
  · refine leads_next ?_
    split
    · exact keeps_with_plc.within
    · exact keeps_with_plc.within |>.then keeps_State_trackEstimate

theorem leads_execIntervalResult (group : Fin 256) (t : Nat) (s0 : State) :
    (s0.advance t).leads [.regs, .limits, .out, .way, .host, .cch, .txn, .ctx, .hwl, .bil, .bal, .ful] (execIntervalResult group t s0) := by
  dsimp only [execIntervalResult]
  refine leads_ite (leads_next (keepsBut_refl _ _)) ?_
  split
  · exact leads_next (keepsBut_refl _ _)
  · exact leads_next keeps_State_intervalResult.within

theorem leads_execSnapshotCollectRead (t : Nat) (s0 : State) :
    (s0.advance t).leads [.regs, .limits, .out, .way, .host, .cch, .txn, .ctx, .bal] (execSnapshotCollectRead t s0) := by
  dsimp only [execSnapshotCollectRead]
  refine leads_ite (leads_next (keepsBut_refl _ _)) ?_
  split
  · exact leads_next (keepsBut_refl _ _)
  · exact leads_next (keepsBut_foldl (fun _ _ h => h |>.then keeps_State_collectRead) keeps_with_bal.within)

theorem leads_execSnapshotResult (t : Nat) (s0 : State) :
    (s0.advance t).leads [.regs, .limits, .out, .way, .host, .cch, .txn, .ctx, .hwl, .bil, .bal, .ful] (execSnapshotResult t s0) := by
  dsimp only [execSnapshotResult]
  refine leads_ite (leads_next (keepsBut_refl _ _)) ?_
  split
  · exact leads_next (keepsBut_refl _ _)
  · exact leads_next (keepsBut_ite keeps_State_snapshotResult.within keeps_State_snapDone.within)

theorem leads_execComponentLapse (gmn : Gmn) (t : Nat) (s0 : State) :
    (s0.advance t).leads [.regs, .limits, .out, .way, .host, .ctx, .ful] (execComponentLapse gmn t s0) := by
  dsimp only [execComponentLapse]
  split
  · exact leads_next (keepsBut_refl _ _)
  · exact leads_next (keepsBut_ite keeps_State_rescore.within (keepsBut_refl _ _))

theorem leads_execCopyReceived (chain : Fin 3) (c : PlcCopy) (t : Nat) (s0 : State) :
    (s0.advance t).leads [.regs, .ctx, .plc] (execCopyReceived chain c t s0) := by
  dsimp only [execCopyReceived]
  split
  · exact leads_next (keepsBut_refl _ _)
  · exact leads_ite (leads_next (keepsBut_refl _ _)) (leads_next (keepsBut_ite (keeps_State_setChain.within |>.then keeps_State_bumpBy
      |>.then keeps_State_bump) (keepsBut_ite (.then (keepsBut_ite (keeps_State_setChain.within |>.then keeps_State_bumpBy |>.then
      keeps_State_bump |>.then keeps_State_bump) (keeps_State_setChain.within |>.then keeps_State_bumpBy |>.then keeps_State_bump))
      keeps_State_ackArrived) (.then (keepsBut_ite (keeps_State_setChain.within |>.then keeps_State_bumpBy |>.then keeps_State_bump
      |>.then keeps_State_bump) (keeps_State_setChain.within |>.then keeps_State_bumpBy |>.then keeps_State_bump))
      keeps_State_frameArrived))))

theorem leads_execCombineWindowClose (mesh : Bool) (t : Nat) (s0 : State) :
    (s0.advance t).leads [.draws, .regs, .limits, .out, .way, .host, .ctx, .ing, .plc, .rfm] (execCombineWindowClose mesh t s0) := by
  dsimp only [execCombineWindowClose]
  refine leads_ite ?_ ?_
  · split
    · exact leads_next (keepsBut_refl _ _)
    · exact leads_next (keepsBut_ite (keepsBut_refl _ _) (keeps_State_modRfm.within |>.then keeps_State_finishMesh))
  · split
    · exact leads_next (keepsBut_refl _ _)
    · exact leads_next (keepsBut_ite (keepsBut_refl _ _) (keeps_State_modPlc.within |>.then keeps_State_finishReception))

theorem leads_execAckTransmit (t : Nat) (s0 : State) :
    (s0.advance t).leads [.regs, .out, .plc] (execAckTransmit t s0) := by
  dsimp only [execAckTransmit]
  split
  · exact leads_next (keepsBut_refl _ _)
  · exact leads_next (keepsBut_ite (keepsBut_refl _ _) (keepsBut_ite (keeps_State_modPlc.within |>.then keeps_State_bump)
      (keeps_State_modPlc.within |>.then keeps_State_drive |>.then keeps_State_bump |>.then keeps_State_emit)))

theorem leads_execAck (chain : Fin 3) (bytes : List Byte) (t : Nat) (s0 : State) :
    (s0.advance t).leads [.regs, .ctx, .plc] (execAck chain bytes t s0) := by
  dsimp only [execAck]
  split
  · exact leads_next (keepsBut_refl _ _)
  · exact leads_ite (leads_next (keepsBut_refl _ _)) (leads_next (keepsBut_ite (keeps_State_setChain.within |>.then keeps_State_bump)
      (keepsBut_ite (keeps_State_setChain.within |>.then keeps_State_bump |>.then keeps_State_ackArrived) (keeps_State_setChain.within
      |>.then keeps_State_bump |>.then keeps_State_bump))))

theorem leads_execAckWaitExpiry (t : Nat) (s0 : State) :
    (s0.advance t).leads [.draws, .regs, .limits, .out, .way, .host, .cch, .txn, .upd, .ctx, .plc, .rfm] (execAckWaitExpiry t s0) := by
  dsimp only [execAckWaitExpiry]
  split
  · exact leads_next (keepsBut_refl _ _)
  · exact leads_next (keepsBut_ite (keepsBut_refl _ _) keeps_State_plcAttemptFailed.within)

theorem leads_execDiscWindowExpiry (t : Nat) (s0 : State) :
    (s0.advance t).leads [.draws, .regs, .ctx, .plc] (execDiscWindowExpiry t s0) := by
  dsimp only [execDiscWindowExpiry]
  split
  · exact leads_next (keepsBut_refl _ _)
  · refine leads_ite (leads_next (keepsBut_refl _ _)) ?_
    refine leads_next ?_
    split
    · exact keeps_State_modPlc.within |>.then keeps_State_modCtx
    · exact keeps_State_modPlc.within |>.then keeps_State_modCtx |>.then keeps_State_modPlc |>.then keeps_State_discover

theorem leads_execTollbookExpiry (t : Nat) (s0 : State) :
    (s0.advance t).leads [.plc, .rfm] (execTollbookExpiry t s0) :=
  leads_next keeps_with_plc_rfm.within

theorem leads_execRfCopyReceived (c : MeshCopy) (t : Nat) (s0 : State) :
    (s0.advance t).leads [.draws, .regs, .ctx, .rfm] (execRfCopyReceived c t s0) :=
  leads_ite (leads_next (keepsBut_refl _ _)) (leads_ite (leads_next keeps_State_bump.within) (leads_next (keepsBut_ite
      (keeps_State_bump.within |>.then keeps_State_bump) (keepsBut_ite (keeps_State_bump.within |>.then keeps_State_bump)
      (keeps_State_bump.within |>.then keeps_State_bump |>.then keeps_State_meshArrived)))))

theorem leads_execEnhAckTransmit (t : Nat) (s0 : State) :
    (s0.advance t).leads [.draws, .regs, .out, .rfm] (execEnhAckTransmit t s0) := by
  dsimp only [execEnhAckTransmit]
  split
  · exact leads_next (keepsBut_refl _ _)
  · exact leads_next (keepsBut_ite (keepsBut_refl _ _) (keepsBut_ite keeps_State_modRfm.within (keepsBut_ite (keeps_State_modRfm.within
      |>.then keeps_State_bump) (keepsBut_ite (keeps_State_modRfm.within |>.then keeps_State_holdDuty |>.then keeps_State_bump)
      (keepsBut_ite (keeps_State_modRfm.within |>.then keeps_State_radioDrive |>.then keeps_State_bump |>.then keeps_State_emit |>.then
      keeps_State_openWindow) (keeps_State_modRfm.within |>.then keeps_State_radioDrive |>.then keeps_State_bump |>.then
      keeps_State_emit))))))

theorem leads_execEnhAck (radio : Fin 2) (bytes : List Byte) (start t : Nat) (s0 : State) :
    (s0.advance t).leads [.draws, .regs, .ctx, .rfm] (execEnhAck radio bytes start t s0) :=
  leads_ite (leads_next (keepsBut_refl _ _)) (leads_ite (leads_next keeps_State_bump.within) (leads_next (keepsBut_ite
      (keeps_State_bump.within |>.then keeps_State_bump) (keeps_State_bump.within |>.then keeps_State_bump |>.then
      keeps_State_enhAckArrived))))

theorem leads_execRfAckWaitExpiry (radio : Fin 2) (t : Nat) (s0 : State) :
    (s0.advance t).leads [.draws, .regs, .limits, .out, .way, .host, .cch, .txn, .upd, .ctx, .plc, .rfm]
        (execRfAckWaitExpiry radio t s0) := by
  dsimp only [execRfAckWaitExpiry]
  split
  · exact leads_next (keepsBut_refl _ _)
  · exact leads_next keeps_State_meshAttemptFailed.within

theorem leads_execCsmaCaAttempt (radio : Fin 2) (energy : ℤ) (t : Nat) (s0 : State) :
    (s0.advance t).leads [.draws, .regs, .limits, .out, .way, .host, .cch, .txn, .upd, .ctx, .plc, .rfm]
        (execCsmaCaAttempt radio energy t s0) := by
  dsimp only [execCsmaCaAttempt]
  split
  · exact leads_next (keepsBut_refl _ _)
  · exact leads_next (keepsBut_ite keeps_State_meshSet.within keeps_State_csmaAttempt.within)

theorem leads_execSlotExchange (slot : Fin 16384) (energy : ℤ) (t : Nat) (s0 : State) :
    (s0.advance t).leads [.draws, .regs, .limits, .out, .way, .host, .cch, .txn, .upd, .ctx, .plc, .rfm]
        (execSlotExchange slot energy t s0) := by
  dsimp only [execSlotExchange]
  split
  · exact leads_next (keepsBut_refl _ _)
  · exact leads_next (keepsBut_ite (keepsBut_refl _ _) (keepsBut_ite (keepsBut_ite (keeps_State_sendSlotSet.within |>.then
      keeps_State_toLongPreamble) (keepsBut_refl _ _)) (keepsBut_ite (keepsBut_refl _ _) (keepsBut_ite keeps_State_slotYield.within
      (keepsBut_ite (keeps_State_holdDuty.within |>.then keeps_State_slotYield) keeps_State_slotFrame.within)))))

theorem leads_execSlotMiss (slot : Fin 16384) (t : Nat) (s0 : State) :
    (s0.advance t).leads [.regs, .out, .ctx, .rfm] (execSlotMiss slot t s0) := by
  dsimp only [execSlotMiss]
  split
  · exact leads_next (keepsBut_refl _ _)
  · exact leads_next (keepsBut_ite (.then (.then (.then (.then (.then (.then (keepsBut_ite (keeps_State_meshDone.within |>.then
      keeps_State_modRfm) keeps_State_meshSet.within) keeps_State_bump) keeps_State_modRadio) keeps_State_modRadio) keeps_State_bump)
      keeps_State_raiseInt) keeps_State_toLongPreamble) (keepsBut_ite (.then (.then (.then (.then (keepsBut_ite
      (keeps_State_meshDone.within |>.then keeps_State_modRfm) keeps_State_meshSet.within) keeps_State_bump) keeps_State_modRadio)
      keeps_State_modRadio) keeps_State_bump) (.then (.then (keepsBut_ite (keeps_State_meshDone.within |>.then keeps_State_modRfm)
      keeps_State_meshSet.within) keeps_State_bump) keeps_State_modRadio)))

theorem leads_execLongPreambleExchange (radio : Fin 2) (energy : ℤ) (t : Nat) (s0 : State) :
    (s0.advance t).leads [.draws, .regs, .limits, .out, .way, .host, .cch, .txn, .upd, .ctx, .plc, .rfm]
        (execLongPreambleExchange radio energy t s0) := by
  dsimp only [execLongPreambleExchange]
  split
  · exact leads_next (keepsBut_refl _ _)
  · exact leads_next (keepsBut_ite (keeps_State_csmaAttempt.within |>.then keeps_State_bump) keeps_State_csmaAttempt.within)

theorem leads_execDutyHoldRelease (radio : Fin 2) (t : Nat) (s0 : State) :
    (s0.advance t).leads [.rfm] (execDutyHoldRelease radio t s0) :=
  leads_next (keepsBut_ite (keepsBut_refl _ _) keeps_State_setRadio.within)

theorem leads_execIssue (port : Fin 4) (plain : Apdu) (t : Nat) (s0 : State) :
    (s0.advance t).leads [.draws, .regs, .limits, .out, .way, .host, .eth, .cch, .txn, .upd, .ctx, .plc, .rfm]
        (execIssue port plain t s0) :=
  leads_next (keepsBut_ite (keeps_State_actedOn.within |>.then keeps_State_issueNext) (keepsBut_refl _ _))

theorem leads_execTxnDeadline (tag : Fin 1024) (t : Nat) (s0 : State) :
    (s0.advance t).leads [.regs, .limits, .out, .way, .host, .cch, .txn, .upd, .ctx, .plc, .rfm] (execTxnDeadline tag t s0) := by
  dsimp only [execTxnDeadline]
  refine leads_next ?_
  split
  · exact keepsBut_ite (keeps_State_failAttempt.within |>.then keeps_State_topUpIssues) (keepsBut_refl _ _)
  · exact keepsBut_refl _ _

theorem leads_execRetryRelease (t : Nat) (s0 : State) :
    (s0.advance t).leads [.regs, .limits, .out, .way, .host, .cch, .txn] (execRetryRelease t s0) :=
  leads_next (keeps_with_txn.within |>.then keeps_State_topUpIssues)

theorem leads_execQuarantineEnd (tag : Fin 1024) (t : Nat) (s0 : State) :
    (s0.advance t).leads [.regs, .limits, .out, .way, .host, .cch, .txn] (execQuarantineEnd tag t s0) :=
  leads_ite (leads_next (keeps_State_setTag.within |>.then keeps_with_txn |>.then keeps_State_topUpIssues)) (leads_next (keepsBut_refl _ _))

theorem leads_execScheduleRun (t : Nat) (s0 : State) :
    (s0.advance t).leads [.regs, .limits, .out, .way, .host, .cch, .txn, .ctx] (execScheduleRun t s0) := by
  dsimp only [execScheduleRun]
  split
  · exact leads_next (keepsBut_refl _ _)
  · exact leads_next (keepsBut_ite keeps_State_actedOn.within (keeps_State_actedOn.within |>.then keeps_State_runSchedule))

theorem leads_execTaskPost (kind priority eclass : Nat) (exec : Nat) (coreMask : BitVec 12) (arg : BitVec 32) (t : Nat) (s0 : State) :
    (s0.advance t).leads [.regs, .limits, .out, .way, .host, .cch] (execTaskPost kind priority eclass exec coreMask arg t s0) :=
  leads_next (keepsBut_ite keeps_State_post.within keeps_State_postFailed.within)

theorem leads_execTaskRetire (executor : Fin 16) (t : Nat) (s0 : State) :
    (s0.advance t).leads [.regs, .limits, .out, .way, .host, .cch] (execTaskRetire executor t s0) :=
  leads_next (keeps_State_retire.within |>.then keeps_State_dispatch |>.then keeps_State_topUpIssues)

theorem leads_execFullerAccept (t : Nat) (s0 : State) :
    (s0.advance t).leads [.regs, .limits, .out, .way, .host, .hwl, .bil, .ful, .readings] (execFullerAccept t s0) := by
  dsimp only [execFullerAccept]
  split
  · exact leads_next (keepsBut_refl _ _)
  · exact leads_ite (leads_next (.then (keepsBut_ite (.then (keepsBut_ite (keepsBut_refl _ _) keeps_State_room8.within) keeps_State_bump)
      (keepsBut_ite (keepsBut_refl _ _) keeps_State_room8.within)) keeps_with_ful)) (leads_next (.then (.then (.then (keepsBut_ite
      (keepsBut_refl _ _) keeps_State_room8.within) keeps_with_ful) keeps_State_place) keeps_State_checkLevels))

theorem leads_execFlushTimer (t : Nat) (s0 : State) :
    (s0.advance t).leads [.ful] (execFlushTimer t s0) :=
  leads_next keeps_with_ful.within

theorem leads_execPageProgram (bad : List (Nat × Nat)) (t : Nat) (s0 : State) :
    (s0.advance t).leads [.regs, .limits, .out, .way, .pwr, .host, .ful] (execPageProgram bad t s0) :=
  leads_next (keeps_State_programDirty.within |>.then keeps_State_checkLevels |>.then keeps_State_gaspProgress)

theorem leads_execEraseFail (block : Nat) (markFails : Bool) (t : Nat) (s0 : State) :
    (s0.advance t).leads [.regs, .limits, .out, .way, .host, .ful] (execEraseFail block markFails t s0) := by
  dsimp only [execEraseFail]
  refine leads_ite (leads_next (keepsBut_refl _ _)) ?_
  refine leads_next ?_
  refine State.keepsBut.then ?_ keeps_State_checkLevels
  refine State.keepsBut.then ?_ keeps_State_retireBlock
  refine State.keepsBut.then ?_ keeps_State_bump
  split
  · exact keepsBut_ite keeps_with_ful.within (keepsBut_refl _ _)
  · exact keepsBut_refl _ _

theorem leads_execSectorRead (lsa bits retries : Nat) (uncorrectable : Bool) (t : Nat) (s0 : State) :
    (s0.advance t).leads [.regs, .limits, .out, .way, .host, .ful] (execSectorRead lsa bits retries uncorrectable t s0) := by
  dsimp only [execSectorRead]
  split
  · exact leads_next (keepsBut_refl _ _)
  · exact leads_next (.then (keepsBut_ite (keepsBut_ite (.then (keepsBut_ite (keepsBut_ite keeps_State_readPage.within
      (keeps_State_readPage.within |>.then keeps_State_bump)) (.then (keepsBut_ite keeps_State_readPage.within
      (keeps_State_readPage.within |>.then keeps_State_bump)) keeps_State_bumpBy)) keeps_with_ful) (keepsBut_ite (keepsBut_ite
      keeps_State_readPage.within (keeps_State_readPage.within |>.then keeps_State_bump)) (.then (keepsBut_ite keeps_State_readPage.within
      (keeps_State_readPage.within |>.then keeps_State_bump)) keeps_State_bumpBy))) (.then (.then (.then (keepsBut_ite (.then (keepsBut_ite
      (keepsBut_ite keeps_State_readPage.within (keeps_State_readPage.within |>.then keeps_State_bump)) (.then (keepsBut_ite
      keeps_State_readPage.within (keeps_State_readPage.within |>.then keeps_State_bump)) keeps_State_bumpBy)) keeps_with_ful)
      (keepsBut_ite (keepsBut_ite keeps_State_readPage.within (keeps_State_readPage.within |>.then keeps_State_bump)) (.then
      (keepsBut_ite keeps_State_readPage.within (keeps_State_readPage.within |>.then keeps_State_bump)) keeps_State_bumpBy)))
      keeps_State_raiseInt) keeps_State_note) keeps_with_ful)) keeps_State_startCollection)

theorem leads_execGcBatch (t : Nat) (s0 : State) :
    (s0.advance t).leads [.regs, .out, .ful] (execGcBatch t s0) := by
  dsimp only [execGcBatch]
  split
  · exact leads_next (keeps_with_ful.within |>.then keeps_State_startCollection)
  · exact leads_ite (leads_next (keeps_with_ful.within |>.then keeps_State_startCollection)) (leads_ite (leads_next
      (keeps_with_ful.within |>.then keeps_State_startCollection)) (leads_next (.then (keepsBut_ite (keeps_with_ful.within |>.then
      keeps_State_startCollection) (.then (keepsBut_foldl (fun _ _ h => h |>.then keeps_State_readPage) (keeps_with_ful.within |>.then
      keeps_State_startCollection)) keeps_State_programPage)) keeps_with_ful)))

theorem leads_execCheckpointComplete (legal : Bool) (t : Nat) (s0 : State) :
    (s0.advance t).leads [.regs, .limits, .out, .way, .host, .ful] (execCheckpointComplete legal t s0) := by
  dsimp only [execCheckpointComplete]
  refine leads_ite ?_ ?_
  · split
    · exact leads_next (keepsBut_refl _ _)
    · exact leads_ite (leads_next (keepsBut_refl _ _)) (leads_next (keeps_State_programPage.within |>.then keeps_with_ful |>.then
        keeps_State_afterCheckpoint))
  · split
    · exact leads_next (keepsBut_refl _ _)
    · exact leads_ite (leads_next (keepsBut_refl _ _)) (leads_next (keeps_State_programPage.within |>.then keeps_with_ful |>.then
        keeps_State_afterCheckpoint))

theorem leads_execCounterSnapshot (t : Nat) (s0 : State) :
    (s0.advance t).leads [.ful] (execCounterSnapshot t s0) :=
  leads_ite (leads_next (keepsBut_refl _ _)) (leads_next keeps_with_ful.within)

theorem leads_execRebuildDone (badSummaries : List Nat) (badPages : List (Nat × Nat)) (t : Nat) (s0 : State) :
    (s0.advance t).leads [.regs, .out, .way, .host, .ful] (execRebuildDone badSummaries badPages t s0) :=
  leads_ite (leads_next (keepsBut_refl _ _)) (leads_next (keeps_State_rebuildStore.within |>.then keeps_State_readyStore |>.then
      keeps_with_ful |>.then keeps_State_checkLevels))

theorem leads_execBlockLock (port : Fin 4) (valid t : Nat) (s0 : State) :
    (s0.advance t).leads [.draws, .regs, .out, .way, .host, .hwl] (execBlockLock port valid t s0) :=
  leads_next (keepsBut_ite (keepsBut_refl _ _) (keeps_State_setHport.within |>.then keeps_State_portState |>.then keeps_State_sendHello))

theorem leads_execLockLoss (port : Fin 4) (since t : Nat) (s0 : State) :
    (s0.advance t).leads [.regs, .out, .way, .host, .hwl] (execLockLoss port since t s0) :=
  leads_next (keepsBut_ite (keepsBut_refl _ _) (keepsBut_ite (keeps_State_setHport.within |>.then keeps_State_bump |>.then
      keeps_State_portState |>.then keeps_State_retrain) (keepsBut_ite (keeps_State_setHport.within |>.then keeps_State_bump)
      (keeps_State_setHport.within |>.then keeps_State_bump |>.then keeps_State_portState |>.then keeps_State_trainingFailed))))

theorem leads_execPortRetrainTimer (port : Fin 4) (t : Nat) (s0 : State) :
    (s0.advance t).leads [.regs, .out, .way, .host, .hwl] (execPortRetrainTimer port t s0) := by
  dsimp only [execPortRetrainTimer]
  split
  · exact leads_next (keepsBut_refl _ _)
  · exact leads_next (keepsBut_ite (keepsBut_refl _ _) keeps_State_retrain.within)

theorem leads_execHello (l : HwlHeader) (t : Nat) (s0 : State) :
    (s0.advance t).leads [.draws, .regs, .limits, .out, .way, .host, .hwl] (execHello l t s0) := by
  dsimp only [execHello]
  refine leads_next ?_
  refine keeps_State_setupReceive ((by decide)) ?_ (keepsBut_refl _ _)
  intro u h
  split
  · exact h |>.then keeps_State_refuseHello
  · exact h |>.then keeps_State_noteNeighbour |>.then keeps_State_sendHelloAck

theorem leads_execHelloAck (l : HwlHeader) (t : Nat) (s0 : State) :
    (s0.advance t).leads [.regs, .limits, .out, .way, .host, .hwl] (execHelloAck l t s0) := by
  dsimp only [execHelloAck]
  refine leads_next ?_
  refine keeps_State_setupReceive ((by decide)) ?_ (keepsBut_refl _ _)
  intro u h
  split
  · exact h |>.then keeps_State_refuseHello
  · exact keepsBut_ite (h |>.then keeps_State_isolatePort |>.then keeps_State_note) (h |>.then keeps_State_linkUp)

theorem leads_execCoordinateAssign (t : Nat) (s0 : State) :
    (s0.advance t).leads [.regs, .out, .nor, .way, .host, .hwl] (execCoordinateAssign t s0) := by
  dsimp only [execCoordinateAssign]
  refine leads_ite (leads_next (keepsBut_refl _ _)) ?_
  split
  · exact leads_next (keepsBut_refl _ _)
  · exact leads_next (keeps_State_modHwl.within |>.then keeps_with_nor |>.then keeps_State_event |>.then keeps_State_recomputeRoutes
      |>.then keeps_State_announce)

theorem leads_execAnnounceTimer (t : Nat) (s0 : State) :
    (s0.advance t).leads [.regs, .out, .hwl] (execAnnounceTimer t s0) :=
  leads_next (keepsBut_ite (keepsBut_refl _ _) (keeps_State_modHwl.within |>.then keeps_State_announce))

theorem leads_execAnnounce (l : HwlHeader) (t : Nat) (s0 : State) :
    (s0.advance t).leads [.regs, .limits, .out, .nor, .way, .host, .hwl] (execAnnounce l t s0) :=
  leads_next (keeps_State_hwlReceive ((by decide)) (fun _ h => h |>.then keeps_State_heardAnnounce) (keepsBut_refl _ _))

theorem leads_execMemberExpiry (node : NodeId) (t : Nat) (s0 : State) :
    (s0.advance t).leads [.regs, .hwl] (execMemberExpiry node t s0) := by
  dsimp only [execMemberExpiry]
  split
  · exact leads_next (keepsBut_refl _ _)
  · exact leads_next (keepsBut_ite (keepsBut_refl _ _) (keeps_State_modHwl.within |>.then keeps_State_recomputeRoutes))

theorem leads_execPair (l : HwlHeader) (t : Nat) (s0 : State) :
    (s0.advance t).leads [.regs, .limits, .out, .way, .host, .upd, .hwl] (execPair l t s0) :=
  leads_next (keeps_State_hwlReceive ((by decide)) (fun _ h => h |>.then keeps_State_heardPair) (keepsBut_refl _ _))

theorem leads_execPairTimeout (t : Nat) (s0 : State) :
    (s0.advance t).leads [.regs, .limits, .out, .way, .host, .ing, .hwl, .readings] (execPairTimeout t s0) :=
  leads_next (keepsBut_ite keeps_State_partnerIsLost.within (keepsBut_refl _ _))

theorem leads_execHeartbeatSend (t : Nat) (s0 : State) :
    (s0.advance t).leads [.regs, .limits, .out, .way, .host, .hwl] (execHeartbeatSend t s0) :=
  leads_next (keepsBut_ite (keeps_State_modHwl.within |>.then keeps_State_hwlSend) (keepsBut_refl _ _))

theorem leads_execHeartbeat (l : HwlHeader) (t : Nat) (s0 : State) :
    (s0.advance t).leads [.regs, .limits, .out, .way, .host, .hwl] (execHeartbeat l t s0) :=
  leads_next (keeps_State_hwlReceive ((by decide)) (fun _ h => h) (keepsBut_refl _ _))

theorem leads_execLeave (l : HwlHeader) (t : Nat) (s0 : State) :
    (s0.advance t).leads [.regs, .limits, .out, .way, .host, .ing, .hwl, .readings] (execLeave l t s0) :=
  leads_next (keeps_State_hwlReceive ((by decide)) (fun _ h => keepsBut_ite (h |>.then keeps_State_partnerIsLost) h) (keepsBut_refl _ _))

theorem leads_execPartnerTimeout (t : Nat) (s0 : State) :
    (s0.advance t).leads [.regs, .limits, .out, .way, .host, .ing, .hwl, .readings] (execPartnerTimeout t s0) :=
  leads_next (keepsBut_ite keeps_State_partnerIsLost.within (keepsBut_refl _ _))

theorem leads_execMrec (l : HwlHeader) (t : Nat) (s0 : State) :
    (s0.advance t).leads [.regs, .limits, .out, .way, .host, .ing, .hwl, .bal, .ful] (execMrec l t s0) :=
  leads_next (keeps_State_hwlReceive ((by decide)) (fun _ h => h |>.then keeps_State_mirrorIn) (keepsBut_refl _ _))

theorem leads_execMest (l : HwlHeader) (t : Nat) (s0 : State) :
    (s0.advance t).leads [.regs, .limits, .out, .way, .host, .ing, .hwl, .bal, .ful] (execMest l t s0) :=
  leads_next (keeps_State_hwlReceive ((by decide)) (fun _ h => h |>.then keeps_State_mirrorIn) (keepsBut_refl _ _))

theorem leads_execMfeed (l : HwlHeader) (t : Nat) (s0 : State) :
    (s0.advance t).leads [.regs, .limits, .out, .way, .host, .ing, .hwl, .bal, .ful] (execMfeed l t s0) :=
  leads_next (keeps_State_hwlReceive ((by decide)) (fun _ h => h |>.then keeps_State_mirrorIn) (keepsBut_refl _ _))

theorem leads_execMjob (l : HwlHeader) (gmn : Gmn) (op : LegalOp) (t : Nat) (s0 : State) :
    (s0.advance t).leads [.regs, .limits, .out, .way, .host, .ing, .hwl, .bal, .ful] (execMjob l gmn op t s0) :=
  leads_next (keeps_State_hwlReceive ((by decide)) (fun _ h => h |>.then keeps_State_mirrorIn) (keepsBut_refl _ _))

theorem leads_execMctx (l : HwlHeader) (job : JobBody) (t : Nat) (s0 : State) :
    (s0.advance t).leads [.regs, .limits, .out, .way, .host, .ing, .hwl, .bal, .ful] (execMctx l job t s0) :=
  leads_next (keeps_State_hwlReceive ((by decide)) (fun _ h => h |>.then keeps_State_mirrorIn) (keepsBut_refl _ _))

theorem leads_execCut (l : HwlHeader) (t : Nat) (s0 : State) :
    (s0.advance t).leads [.regs, .limits, .out, .way, .host, .ing, .hwl, .bal, .ful] (execCut l t s0) :=
  leads_next (keeps_State_hwlReceive ((by decide)) (fun _ h => h |>.then keeps_State_mirrorIn) (keepsBut_refl _ _))

theorem leads_execMsync (l : HwlHeader) (t : Nat) (s0 : State) :
    (s0.advance t).leads [.regs, .limits, .out, .way, .host, .ing, .hwl, .bal, .ful] (execMsync l t s0) :=
  leads_next (keeps_State_hwlReceive ((by decide)) (fun _ h => h |>.then keeps_State_mirrorIn) (keepsBut_refl _ _))

theorem leads_execHandback (l : HwlHeader) (t : Nat) (s0 : State) :
    (s0.advance t).leads [.regs, .limits, .out, .way, .host, .ing, .hwl, .bal, .ful] (execHandback l t s0) :=
  leads_next (keeps_State_hwlReceive ((by decide)) (fun _ h => h |>.then keeps_State_mirrorIn) (keepsBut_refl _ _))

theorem leads_execMack (l : HwlHeader) (t : Nat) (s0 : State) :
    (s0.advance t).leads [.regs, .limits, .out, .way, .host, .hwl, .readings] (execMack l t s0) :=
  leads_next (keeps_State_hwlReceive ((by decide)) (fun _ h => keepsBut_ite (h |>.then keeps_State_mirrorAck) h) (keepsBut_refl _ _))

theorem leads_execMnak (l : HwlHeader) (spoilt : List (BitVec 32)) (t : Nat) (s0 : State) :
    (s0.advance t).leads [.regs, .limits, .out, .way, .host, .hwl] (execMnak l spoilt t s0) :=
  leads_next (keeps_State_hwlReceive ((by decide)) (fun _ h => keepsBut_ite (.then (keepsBut_foldl (fun _ _ h => h |>.then
      keeps_State_replaceSpoilt) h) keeps_State_resendFrom) h) (keepsBut_refl _ _))

theorem leads_execMirrorGapTimer (t : Nat) (s0 : State) :
    (s0.advance t).leads [.regs, .limits, .out, .way, .host, .hwl] (execMirrorGapTimer t s0) := by
  dsimp only [execMirrorGapTimer]
  split
  · exact leads_next (keepsBut_refl _ _)
  · exact leads_next (keepsBut_ite (keepsBut_refl _ _) (keeps_State_modHwl.within |>.then keeps_State_note |>.then keeps_State_hwlSend))

theorem leads_execSyncReq (l : HwlHeader) (t : Nat) (s0 : State) :
    (s0.advance t).leads [.regs, .limits, .out, .way, .host, .hwl] (execSyncReq l t s0) := by
  dsimp only [execSyncReq]
  refine leads_next ?_
  refine keeps_State_hwlReceive ((by decide)) ?_ (keepsBut_refl _ _)
  intro u h
  split
  · exact keepsBut_ite (h |>.then keeps_State_mirrorSync) h
  · exact h

theorem leads_execDigest (l : HwlHeader) (t : Nat) (s0 : State) :
    (s0.advance t).leads [.regs, .limits, .out, .way, .host, .hwl] (execDigest l t s0) := by
  dsimp only [execDigest]
  refine leads_next ?_
  refine keeps_State_hwlReceive ((by decide)) ?_ (keepsBut_refl _ _)
  intro u h
  refine keepsBut_ite h ?_
  split
  · exact h
  · exact h |>.then keeps_State_setCut |>.then keeps_State_compareCut

theorem leads_execDigestReq (l : HwlHeader) (t : Nat) (s0 : State) :
    (s0.advance t).leads [.regs, .limits, .out, .way, .host, .hwl] (execDigestReq l t s0) := by
  dsimp only [execDigestReq]
  refine leads_next ?_
  refine keeps_State_hwlReceive ((by decide)) ?_ (keepsBut_refl _ _)
  intro u h
  refine keepsBut_ite h ?_
  split
  · exact h
  · exact keepsBut_foldl (fun _ _ h => h |>.then keeps_State_sendDigests) h

theorem leads_execDigestResult (l : HwlHeader) (t : Nat) (s0 : State) :
    (s0.advance t).leads [.regs, .limits, .out, .way, .host, .hwl] (execDigestResult l t s0) :=
  leads_next (keeps_State_hwlReceive ((by decide)) (fun _ h => keepsBut_ite (h |>.then keeps_State_markMismatch |>.then
      keeps_State_cutCompared) h) (keepsBut_refl _ _))

theorem leads_execFwdEntry (l : HwlHeader) (e : RelayEntry) (t : Nat) (s0 : State) :
    (s0.advance t).leads [.regs, .limits, .out, .way, .host, .ing, .hwl] (execFwdEntry l e t s0) :=
  leads_next (keepsBut_ite (keepsBut_refl _ _) (keeps_State_hwlReceive ((by decide)) (fun _ h => keepsBut_ite (h |>.then
      keeps_State_ingestFrame |>.then keeps_State_bump) (h |>.then keeps_State_bump)) (keepsBut_refl _ _)))

theorem leads_execSeqReq (l : HwlHeader) (w : SeqWork) (t : Nat) (s0 : State) :
    (s0.advance t).leads [.regs, .limits, .out, .way, .host, .ing, .hwl] (execSeqReq l w t s0) := by
  dsimp only [execSeqReq]
  refine leads_next ?_
  refine keeps_State_hwlReceive ((by decide)) ?_ (keepsBut_refl _ _)
  intro u h
  split
  · exact h |>.then keeps_State_streamOp
  · split
    · exact h |>.then keeps_State_streamOp
    · exact h

theorem leads_execActionReq (l : HwlHeader) (t : Nat) (s0 : State) :
    (s0.advance t).leads [.regs, .limits, .out, .way, .host, .cch, .txn, .ctx, .hwl, .bil, .bal, .ful] (execActionReq l t s0) := by
  dsimp only [execActionReq]
  refine leads_next ?_
  refine keeps_State_hwlReceive ((by decide)) ?_ (keepsBut_refl _ _)
  intro u h
  split
  · exact h |>.then keeps_State_hwlSend
  · exact keepsBut_ite (h |>.then keeps_State_actionBarred |>.then keeps_State_hwlSend) (keepsBut_ite (h |>.then keeps_State_actionBarred
      |>.then keeps_State_hwlSend) (h |>.then keeps_State_issueAction |>.then keeps_State_hwlSend))

theorem leads_execJob (l : HwlHeader) (j : Job) (t : Nat) (s0 : State) :
    (s0.advance t).leads (allBut [.pending, .now, .cfg, .pwr, .pins, .sb, .cyc, .val, .bil, .lgc, .met, .readings, .mem])
        (execJob l j t s0) :=
  leads_next (keeps_State_hwlReceive ((by decide)) (fun _ h => keepsBut_ite (h |>.then keeps_State_bump) (keepsBut_ite h (h |>.then
      keeps_State_takeJob))) (keepsBut_refl _ _))

theorem leads_execReport (l : HwlHeader) (r : Report) (t : Nat) (s0 : State) :
    (s0.advance t).leads [.regs, .limits, .out, .way, .host, .hwl] (execReport l r t s0) := by
  dsimp only [execReport]
  refine leads_next ?_
  refine keeps_State_hwlReceive ((by decide)) ?_ (keepsBut_refl _ _)
  intro u h
  refine keepsBut_ite (h |>.then keeps_State_bump) ?_
  split
  · exact h
  · exact keepsBut_ite (h |>.then keeps_State_route |>.then keeps_State_closeJob) (h |>.then keeps_State_route)

theorem leads_execResetPacket (l : HwlHeader) (j : Job) (t : Nat) (s0 : State) :
    (s0.advance t).leads [.regs, .limits, .out, .sec, .way, .rst, .host, .hwl, .ful] (execResetPacket l j t s0) :=
  leads_next (keeps_State_hwlReceive ((by decide)) (fun _ h => keepsBut_ite (h |>.then keeps_State_enterNonce |>.then
      keeps_State_requestReset) (h |>.then keeps_State_event)) (keepsBut_refl _ _))

theorem leads_execChainData (l : HwlHeader) (head : NodeId) (writeFails : Bool) (t : Nat) (s0 : State) :
    (s0.advance t).leads [.regs, .limits, .out, .nor, .way, .host, .upd, .hwl, .ful] (execChainData l head writeFails t s0) := by
  dsimp only [execChainData]
  refine leads_next ?_
  refine keeps_State_hwlReceive ((by decide)) ?_ (keepsBut_refl _ _)
  intro u h
  refine keepsBut_ite h ?_
  split
  · exact keepsBut_ite (h |>.then keeps_State_hwlSend |>.then keeps_State_chainDone) (keepsBut_ite (h |>.then keeps_State_hwlSend) (h
      |>.then keeps_State_takeChainBlock))
  · exact keepsBut_ite h (h |>.then keeps_State_takeChainBlock)

theorem leads_execChainAck (l : HwlHeader) (t : Nat) (s0 : State) :
    (s0.advance t).leads [.regs, .limits, .out, .way, .host, .hwl] (execChainAck l t s0) := by
  dsimp only [execChainAck]
  refine leads_next ?_
  refine keeps_State_hwlReceive ((by decide)) ?_ (keepsBut_refl _ _)
  intro u h
  split
  · exact h
  · exact keepsBut_ite (h |>.then keeps_State_setRelay) (h |>.then keeps_State_setRelay |>.then keeps_State_chainPump)

theorem leads_execChainResult (l : HwlHeader) (t : Nat) (s0 : State) :
    (s0.advance t).leads [.regs, .limits, .out, .way, .host, .hwl] (execChainResult l t s0) := by
  dsimp only [execChainResult]
  refine leads_next ?_
  refine keeps_State_hwlReceive ((by decide)) ?_ (keepsBut_refl _ _)
  intro u h
  split
  · exact h
  · split
    · refine keepsBut_ite ?_ ?_
      · refine State.keepsBut.then ?_ keeps_State_chainDone
        refine keepsBut_ite ?_ ?_
        · refine State.keepsBut.then ?_ keeps_State_successorDone
          split
          · exact h |>.then keeps_State_setRelay |>.then keeps_State_jobProgress
          · exact h |>.then keeps_State_setRelay
        · split
          · exact h |>.then keeps_State_setRelay |>.then keeps_State_jobProgress
          · exact h |>.then keeps_State_setRelay
      · refine keepsBut_ite ?_ ?_
        · refine State.keepsBut.then ?_ keeps_State_successorDone
          split
          · exact h |>.then keeps_State_setRelay |>.then keeps_State_jobProgress
          · exact h |>.then keeps_State_setRelay
        · split
          · exact h |>.then keeps_State_setRelay |>.then keeps_State_jobProgress
          · exact h |>.then keeps_State_setRelay
    · refine keepsBut_ite ?_ ?_
      · refine State.keepsBut.then ?_ keeps_State_successorDone
        split
        · exact h |>.then keeps_State_setRelay |>.then keeps_State_jobProgress
        · exact h |>.then keeps_State_setRelay
      · split
        · exact h |>.then keeps_State_setRelay |>.then keeps_State_jobProgress
        · exact h |>.then keeps_State_setRelay

theorem leads_execChainAckTimeout (t : Nat) (s0 : State) :
    (s0.advance t).leads [.regs, .limits, .out, .way, .host, .hwl] (execChainAckTimeout t s0) := by
  dsimp only [execChainAckTimeout]
  refine leads_next ?_
  split
  · exact keepsBut_refl _ _
  · exact keepsBut_ite (keepsBut_refl _ _) keeps_State_chainSkip.within

theorem leads_execCredit (port : Fin 4) (vc : Fin 4) (cls : Fin 3) (units t : Nat) (s0 : State) :
    (s0.advance t).leads [.regs, .out, .hwl] (execCredit port vc cls units t s0) :=
  leads_next (keepsBut_ite (keepsBut_refl _ _) (keeps_State_setHport.within |>.then keeps_State_hwlPump))

theorem leads_execLinkWordAck (port : Fin 4) (lseq : BitVec 16) (t : Nat) (s0 : State) :
    (s0.advance t).leads [.regs, .out, .hwl] (execLinkWordAck port lseq t s0) :=
  leads_next (keepsBut_ite (keepsBut_refl _ _) (keeps_State_setHport.within |>.then keeps_State_hwlPump))

theorem leads_execLinkWordNak (port : Fin 4) (lseq : BitVec 16) (t : Nat) (s0 : State) :
    (s0.advance t).leads [.regs, .out, .way, .host, .hwl] (execLinkWordNak port lseq t s0) :=
  leads_ite (leads_next (keepsBut_refl _ _)) (leads_next (keepsBut_ite (keeps_State_setHport.within |>.then keeps_State_bump |>.then
      keeps_State_retrain) (keepsBut_foldl (fun _ _ h => h |>.then keeps_State_emit |>.then keeps_State_bump)
      (keeps_State_setHport.within |>.then keeps_State_bump))))

theorem leads_execActOwnInChange (high : Bool) (t : Nat) (s0 : State) :
    (s0.advance t).leads [.regs, .limits, .out, .way, .host, .hwl] (execActOwnInChange high t s0) :=
  leads_ite (leads_next (keepsBut_refl _ _)) (leads_next (keepsBut_ite (keepsBut_ite (keeps_State_modHwl.within |>.then
      keeps_State_interlockFails) (keepsBut_ite (keepsBut_ite (keeps_State_modHwl.within |>.then keeps_State_modHwl |>.then
      keeps_State_note) (keeps_State_modHwl.within |>.then keeps_State_modHwl)) keeps_State_modHwl.within)) (keepsBut_ite
      (keeps_State_modHwl.within |>.then keeps_State_modHwl) (keepsBut_ite (keeps_State_modHwl.within |>.then keeps_State_claim)
      keeps_State_modHwl.within))))

theorem leads_execArbWindowExpiry (t : Nat) (s0 : State) :
    (s0.advance t).leads [.regs, .limits, .out, .way, .host, .hwl] (execArbWindowExpiry t s0) := by
  dsimp only [execArbWindowExpiry]
  split
  · exact leads_next (keepsBut_refl _ _)
  · exact leads_ite (leads_next (keepsBut_refl _ _)) (leads_next (keepsBut_ite (keeps_State_modHwl.within |>.then keeps_State_event
      |>.then keeps_State_raiseInt |>.then keeps_State_modHwl |>.then keeps_State_sendPair) (keeps_State_modHwl.within |>.then
      keeps_State_event |>.then keeps_State_raiseInt)))

theorem leads_execArbBackoffExpiry (t : Nat) (s0 : State) :
    (s0.advance t).leads [.hwl] (execArbBackoffExpiry t s0) := by
  dsimp only [execArbBackoffExpiry]
  split
  · exact leads_next (keepsBut_refl _ _)
  · exact leads_ite (leads_next (keepsBut_refl _ _)) (leads_next (keepsBut_ite (keeps_State_modHwl.within |>.then keeps_State_claim)
      keeps_State_modHwl.within))

theorem leads_execQueryRetry (t : Nat) (s0 : State) :
    (s0.advance t).leads [.regs, .limits, .out, .way, .host, .hwl] (execQueryRetry t s0) :=
  leads_next (keepsBut_ite (keeps_State_modHwl.within |>.then keeps_State_sendPair) (keepsBut_refl _ _))

theorem leads_execCqTailWrite (n : Fin 4) (m : Master) (v : Word) (t : Nat) (s0 : State) :
    (s0.advance t).leads [.regs, .limits, .out, .sec, .way, .host, .ing] (execCqTailWrite n m v t s0) :=
  leads_next keeps_State_masterWrite.within

theorem leads_execRqEnable (n : Fin 4) (m : Master) (sizeLog2 : Fin 16) (t : Nat) (s0 : State) :
    (s0.advance t).leads [.regs, .limits, .out, .sec, .way, .host, .ing] (execRqEnable n m sizeLog2 t s0) :=
  leads_next keeps_State_masterWrite.within

theorem leads_execRqDisable (n : Fin 4) (m : Master) (sizeLog2 : Fin 16) (t : Nat) (s0 : State) :
    (s0.advance t).leads [.regs, .limits, .out, .sec, .way, .host, .ing] (execRqDisable n m sizeLog2 t s0) :=
  leads_next keeps_State_masterWrite.within

theorem leads_execRqHeadWrite (n : Fin 4) (m : Master) (v : Word) (t : Nat) (s0 : State) :
    (s0.advance t).leads [.regs, .limits, .out, .sec, .way, .host, .ing] (execRqHeadWrite n m v t s0) :=
  leads_next keeps_State_masterWrite.within

theorem leads_execReportIssue (t : Nat) (s0 : State) :
    (s0.advance t).leads [.regs, .limits, .out, .way, .host, .eth, .sb, .hwl] (execReportIssue t s0) :=
  leads_next keeps_State_issueFrom.within

theorem leads_execCoalesceTimer (n : Fin 4) (t : Nat) (s0 : State) :
    (s0.advance t).leads [.regs, .out, .host] (execCoalesceTimer n t s0) := by
  dsimp only [execCoalesceTimer]
  refine leads_next ?_
  split
  · exact keepsBut_refl _ _
  · exact keepsBut_ite (keepsBut_refl _ _) keeps_State_fireQueue.within

theorem leads_execReportHoldExpiry (t : Nat) (s0 : State) :
    (s0.advance t).leads [.regs, .limits, .out, .way, .host] (execReportHoldExpiry t s0) := by
  dsimp only [execReportHoldExpiry]
  refine leads_next ?_
  split
  · exact keepsBut_refl _ _
  · exact keeps_State_setWaiting.within |>.then keeps_State_dropReport

theorem leads_execPciePerstN (high : Bool) (speed width t : Nat) (s0 : State) :
    (s0.advance t).leads [.regs, .pins, .host] (execPciePerstN high speed width t s0) :=
  leads_ite (leads_next keeps_with_pins_host.within) (leads_ite (leads_next (keepsBut_refl _ _)) (leads_next
      (keeps_State_zeroQueues.within |>.then keeps_with_pins_host)))

theorem leads_execEthernetFrame (port : Fin 2) (f : EthFrame) (t : Nat) (s0 : State) :
    (s0.advance t).leads (allBut [.pending, .now, .cfg, .pwr, .pins, .sb, .cyc, .val, .bil, .lgc, .met, .readings, .mem])
        (execEthernetFrame port f t s0) :=
  leads_ite (leads_next (keepsBut_refl _ _)) (leads_next (keepsBut_ite (.then (keepsBut_ite (keeps_State_bump.within |>.then
      keeps_State_bump) keeps_State_bump.within) keeps_State_bump) (keepsBut_ite (.then (keepsBut_ite (keeps_State_bump.within |>.then
      keeps_State_bump) keeps_State_bump.within) keeps_State_bump) (keepsBut_ite (.then (keepsBut_ite (keeps_State_bump.within |>.then
      keeps_State_bump) keeps_State_bump.within) keeps_State_bump) (keepsBut_ite (.then (keepsBut_ite (keeps_State_bump.within |>.then
      keeps_State_bump) keeps_State_bump.within) keeps_State_bump) (.then (keepsBut_ite (keeps_State_bump.within |>.then
      keeps_State_bump) keeps_State_bump.within) keeps_State_dispatchFrame))))))

theorem leads_execMessageResend (port : Fin 2) (peer : Fin 32) (t : Nat) (s0 : State) :
    (s0.advance t).leads [.regs, .limits, .out, .way, .host, .eth] (execMessageResend port peer t s0) := by
  dsimp only [execMessageResend]
  refine leads_next ?_
  refine keepsBut_ite (keepsBut_refl _ _) ?_
  split
  · exact keepsBut_refl _ _
  · exact keepsBut_ite keeps_State_peerDown.within keeps_State_resend.within

theorem leads_execStandaloneAck (port : Fin 2) (peer : Fin 32) (t : Nat) (s0 : State) :
    (s0.advance t).leads [.regs, .out, .eth] (execStandaloneAck port peer t s0) :=
  leads_next (keepsBut_ite keeps_State_sendFrame.within (keepsBut_refl _ _))

theorem leads_execBundleResend (t : Nat) (s0 : State) :
    (s0.advance t).leads [.regs, .out, .eth] (execBundleResend t s0) := by
  dsimp only [execBundleResend]
  refine leads_next ?_
  split
  · exact keepsBut_refl _ _
  · refine keepsBut_ite (keepsBut_refl _ _) ?_
    refine keepsBut_foldl (fun _ _ h => ?_) ?_
    · split
      · exact h |>.then keeps_State_ethSendPeer
      · exact h |>.then keeps_State_bump
    · exact keeps_with_eth.within

theorem leads_execGateChange (port : Fin 2) (t : Nat) (s0 : State) :
    (s0.advance t).leads [.regs, .out, .eth] (execGateChange port t s0) :=
  leads_next (keepsBut_ite (keepsBut_refl _ _) (keeps_State_applyGates.within |>.then keeps_State_ethRelease))

theorem leads_execIdentify (r : SbReq) (t : Nat) (s0 : State) :
    (s0.advance t).leads [.regs, .limits, .out, .sec, .way, .host, .sb] (execIdentify r t s0) :=
  leads_next (keeps_State_sbReceive ((by decide)) (fun _ h => h |>.then keeps_State_sbAnswer) (keepsBut_refl _ _))

theorem leads_execStatus (r : SbReq) (t : Nat) (s0 : State) :
    (s0.advance t).leads [.regs, .limits, .out, .sec, .way, .host, .sb] (execStatus r t s0) :=
  leads_next (keeps_State_sbReceive ((by decide)) (fun _ h => h |>.then keeps_State_sbAnswer) (keepsBut_refl _ _))

theorem leads_execAonCounters (r : SbReq) (t : Nat) (s0 : State) :
    (s0.advance t).leads [.regs, .limits, .out, .sec, .way, .host, .sb] (execAonCounters r t s0) :=
  leads_next (keeps_State_sbReceive ((by decide)) (fun _ h => h |>.then keeps_State_sbAnswer) (keepsBut_refl _ _))

theorem leads_execTime (r : SbReq) (t : Nat) (s0 : State) :
    (s0.advance t).leads [.regs, .limits, .out, .sec, .way, .host, .sb] (execTime r t s0) :=
  leads_next (keeps_State_sbReceive ((by decide)) (fun _ h => h |>.then keeps_State_sbAnswer) (keepsBut_refl _ _))

theorem leads_execReadLog (r : SbReq) (log first count : Nat) (t : Nat) (s0 : State) :
    (s0.advance t).leads [.regs, .limits, .out, .sec, .way, .host, .sb] (execReadLog r log first count t s0) := by
  dsimp only [execReadLog]
  refine leads_next ?_
  refine keeps_State_sbReceive ((by decide)) ?_ (keepsBut_refl _ _)
  intro u h
  refine keepsBut_ite (h |>.then keeps_State_sbReject) ?_
  split
  · exact h |>.then keeps_State_sbReject
  · exact keepsBut_ite (h |>.then keeps_State_sbReject) (keepsBut_ite (h |>.then keeps_State_sbAnswer) (h |>.then keeps_State_sbAnswer))

theorem leads_execSidebandReset (r : SbReq) (j : Job) (t : Nat) (s0 : State) :
    (s0.advance t).leads [.regs, .limits, .out, .sec, .way, .rst, .host, .sb, .hwl, .ful] (execSidebandReset r j t s0) := by
  dsimp only [execSidebandReset]
  refine leads_next ?_
  refine keeps_State_sbReceive ((by decide)) ?_ (keepsBut_refl _ _)
  intro u h
  refine keepsBut_ite (h |>.then keeps_State_sbReject) ?_
  refine keepsBut_ite (h |>.then keeps_State_sbReject) ?_
  split
  · exact h |>.then keeps_State_sbReject
  · exact h |>.then keeps_State_enterNonce |>.then keeps_State_sbAnswer |>.then keeps_State_requestReset

theorem leads_execSidebandJob (r : SbReq) (h : JobHdr) (b : JobBody) (t : Nat) (s0 : State) :
    (s0.advance t).leads (allBut [.pending, .now, .cfg, .pwr, .pins, .cyc, .val, .bil, .lgc, .met, .readings, .mem])
        (execSidebandJob r h b t s0) :=
  leads_next (keeps_State_sbReceive ((by decide)) (fun _ h => h |>.then keeps_with_sb |>.then keeps_State_takeJob) (keepsBut_refl _ _))

theorem leads_execReadMeter (h : JobHdr) (gmn : Gmn) (obis : BitVec 48) (priority medium t : Nat) (s0 : State) :
    (s0.advance t).leads [.regs, .limits, .out, .sec, .way, .host, .cch, .txn, .upd, .ctx, .hwl]
        (execReadMeter h gmn obis priority medium t s0) :=
  leads_next (keeps_State_intake_run (by decide) fun u => keeps_State_runReadMeter.within)

theorem leads_execSnapshotGroup (h : JobHdr) (group all lead : Nat) (gmns : List Gmn) (t : Nat) (s0 : State) :
    (s0.advance t).leads [.regs, .limits, .out, .sec, .way, .host, .eth, .cch, .upd, .hwl, .bal, .plc, .rfm]
        (execSnapshotGroup h group all lead gmns t s0) :=
  leads_next (keeps_State_intake_run (by decide) fun u => keeps_State_runSnapshot.within)

theorem leads_execRegisterRead (h : JobHdr) (offset words t : Nat) (s0 : State) :
    (s0.advance t).leads [.regs, .latches, .limits, .out, .sec, .way, .host, .cch, .upd, .hwl] (execRegisterRead h offset words t s0) :=
  leads_next (keeps_State_intake_run (by decide) fun u => keeps_State_runRegisterRead.within)

theorem leads_execMeterStateRead (h : JobHdr) (gmn : Gmn) (parts : BitVec 8) (t : Nat) (s0 : State) :
    (s0.advance t).leads [.regs, .limits, .out, .sec, .way, .host, .cch, .upd, .hwl] (execMeterStateRead h gmn parts t s0) :=
  leads_next (keeps_State_intake_run (by decide) fun u => keeps_State_runMeterState.within)

theorem leads_execAttest (h : JobHdr) (nonce : BitVec 256) (t : Nat) (s0 : State) :
    (s0.advance t).leads [.draws, .regs, .limits, .out, .sec, .way, .host, .cch, .upd, .hwl] (execAttest h nonce t s0) :=
  leads_next (keeps_State_intake_run (by decide) fun u => keeps_State_runAttest.within)

theorem leads_execCancel (h : JobHdr) (tag : BitVec 16) (t : Nat) (s0 : State) :
    (s0.advance t).leads [.regs, .limits, .out, .sec, .way, .host, .cch, .txn, .upd, .ctx, .hwl, .plc, .rfm] (execCancel h tag t s0) :=
  leads_next (keeps_State_intake_run (by decide) fun u => keeps_State_runCancel.within)

theorem leads_execTrigger (h : JobHdr) (entry source due : Nat) (period : Nat) (template : TriggerTemplate) (t : Nat) (s0 : State) :
    (s0.advance t).leads [.regs, .limits, .out, .sec, .way, .host, .cch, .upd, .hwl]
        (execTrigger h entry source due period template t s0) :=
  leads_next (keeps_State_intake_run (by decide) fun u => keeps_State_runTrigger.within)

theorem leads_execPulse (h : JobHdr) (output startSec startNs : Nat) (period width t : Nat) (s0 : State) :
    (s0.advance t).leads [.regs, .limits, .out, .sec, .way, .host, .cch, .upd, .tim, .hwl]
        (execPulse h output startSec startNs period width t s0) :=
  leads_next (keeps_State_intake_run (by decide) fun u => keeps_State_runPulse.within)

theorem leads_execHostTime (h : JobHdr) (sec ns t : Nat) (s0 : State) :
    (s0.advance t).leads [.regs, .limits, .out, .sec, .way, .host, .eth, .cch, .upd, .tim, .hwl] (execHostTime h sec ns t s0) :=
  leads_next (keeps_State_intake_run (by decide) fun u => keeps_State_runHostTime.within)

theorem leads_execBalanceMembership (h : JobHdr) (gmn : Gmn) (group regPhase exportAllowed : Nat) (t : Nat) (s0 : State) :
    (s0.advance t).leads [.regs, .limits, .out, .sec, .way, .host, .cch, .upd, .ing, .hwl]
        (execBalanceMembership h gmn group regPhase exportAllowed t s0) :=
  leads_next (keeps_State_intake_run (by decide) fun u => keeps_State_runMembership.within)

theorem leads_execBundleSubmit (h : JobHdr) (b : RelayBundle) (t : Nat) (s0 : State) :
    (s0.advance t).leads [.regs, .limits, .out, .sec, .way, .host, .cch, .upd, .ing, .hwl] (execBundleSubmit h b t s0) :=
  leads_next (keeps_State_intake_run (by decide) fun u => keeps_State_runBundle.within)

theorem leads_execPushTariffSet (h : JobHdr) (slot : Nat) (set : TariffSet) (t : Nat) (s0 : State) :
    (s0.advance t).leads [.regs, .limits, .out, .sec, .way, .host, .cch, .upd, .hwl, .ful] (execPushTariffSet h slot set t s0) :=
  leads_next (keeps_State_intake_run (by decide) fun u => keeps_State_runTariff.within)

theorem leads_execCreditChange (h : JobHdr) (gmn : Gmn) (amount : ℤ) (t : Nat) (s0 : State) :
    (s0.advance t).leads [.regs, .limits, .out, .sec, .way, .host, .cch, .upd, .ing, .hwl] (execCreditChange h gmn amount t s0) :=
  leads_next (keeps_State_intake_run (by decide) fun u => keeps_State_runLegal.within)

theorem leads_execDisconnect (h : JobHdr) (gmn : Gmn) (t : Nat) (s0 : State) :
    (s0.advance t).leads [.regs, .limits, .out, .sec, .way, .host, .cch, .upd, .ing, .hwl] (execDisconnect h gmn t s0) :=
  leads_next (keeps_State_intake_run (by decide) fun u => keeps_State_runLegal.within)

theorem leads_execReconnect (h : JobHdr) (gmn : Gmn) (force t : Nat) (s0 : State) :
    (s0.advance t).leads [.regs, .limits, .out, .sec, .way, .host, .cch, .upd, .ing, .hwl] (execReconnect h gmn force t s0) :=
  leads_next (keeps_State_intake_run (by decide) fun u => keeps_State_runLegal.within)

theorem leads_execLegalRelease (h : JobHdr) (gmn : Gmn) (mode t : Nat) (s0 : State) :
    (s0.advance t).leads [.regs, .limits, .out, .sec, .way, .host, .cch, .upd, .ing, .hwl] (execLegalRelease h gmn mode t s0) :=
  leads_next (keeps_State_intake_run (by decide) fun u => keeps_State_runLegal.within)

theorem leads_execEnrolMeter (h : JobHdr) (a : EnrolArgs) (t : Nat) (s0 : State) :
    (s0.advance t).leads [.regs, .limits, .out, .sec, .way, .host, .cch, .upd, .ing, .hwl] (execEnrolMeter h a t s0) :=
  leads_next (keeps_State_intake_run (by decide) fun u => keeps_State_runEnrol.within)

theorem leads_execRemoveMeter (h : JobHdr) (gmn : Gmn) (t : Nat) (s0 : State) :
    (s0.advance t).leads [.regs, .limits, .out, .sec, .way, .host, .cch, .upd, .ing, .hwl] (execRemoveMeter h gmn t s0) :=
  leads_next (keeps_State_intake_run (by decide) fun u => keeps_State_runContextOp.within)

theorem leads_execKeyChange (h : JobHdr) (gmn : Gmn) (keySlot : Nat) (ek : BitVec 192) (ak : BitVec 192) (t : Nat) (s0 : State) :
    (s0.advance t).leads [.regs, .limits, .out, .sec, .way, .host, .cch, .upd, .ing, .hwl] (execKeyChange h gmn keySlot ek ak t s0) :=
  leads_next (keeps_State_intake_run (by decide) fun u => keeps_State_runKeyChange.within)

theorem leads_execCounterReset (h : JobHdr) (gmn : Gmn) (rxIc : BitVec 32) (txIc : BitVec 32) (t : Nat) (s0 : State) :
    (s0.advance t).leads [.regs, .limits, .out, .sec, .way, .host, .cch, .upd, .ing, .hwl] (execCounterReset h gmn rxIc txIc t s0) :=
  leads_next (keeps_State_intake_run (by decide) fun u => keeps_State_runContextOp.within)

theorem leads_execDesignate (h : JobHdr) (range : Nat) (trueNode : NodeId) (slots : Option (List Nat)) (t : Nat) (s0 : State) :
    (s0.advance t).leads [.regs, .limits, .out, .sec, .way, .host, .cch, .upd, .hwl] (execDesignate h range trueNode slots t s0) :=
  leads_next (keeps_State_intake_run (by decide) fun u => keeps_State_runDesignate.within)

theorem leads_execClaimOwnership (h : JobHdr) (t : Nat) (s0 : State) :
    (s0.advance t).leads [.regs, .limits, .out, .sec, .way, .host, .cch, .upd, .hwl] (execClaimOwnership h t s0) :=
  leads_next (keeps_State_intake_run (by decide) fun u => keeps_State_runClaim.within)

theorem leads_execReleaseOwnership (h : JobHdr) (t : Nat) (s0 : State) :
    (s0.advance t).leads [.regs, .limits, .out, .sec, .way, .host, .cch, .upd, .hwl] (execReleaseOwnership h t s0) :=
  leads_next (keeps_State_intake_run (by decide) fun u => keeps_State_runRelease.within)

theorem leads_execForgetCoordinate (h : JobHdr) (t : Nat) (s0 : State) :
    (s0.advance t).leads [.regs, .limits, .out, .nor, .sec, .way, .rst, .host, .cch, .upd, .hwl, .ful] (execForgetCoordinate h t s0) :=
  leads_next (keeps_State_intake_run (by decide) fun u => keeps_State_runForget.within)

theorem leads_execWallTimeStep (h : JobHdr) (window maxStep t : Nat) (s0 : State) :
    (s0.advance t).leads [.regs, .limits, .out, .sec, .way, .host, .cch, .upd, .tim, .hwl] (execWallTimeStep h window maxStep t s0) :=
  leads_next (keeps_State_intake_run (by decide) fun u => keeps_State_runWallTimeStep.within)

theorem leads_execClearLog (h : JobHdr) (log t : Nat) (s0 : State) :
    (s0.advance t).leads [.regs, .limits, .out, .sec, .way, .host, .cch, .upd, .hwl] (execClearLog h log t s0) :=
  leads_next (keeps_State_intake_run (by decide) fun u => keeps_State_runClearLog.within)

theorem leads_execOpenExpertSession (h : JobHdr) (duration t : Nat) (s0 : State) :
    (s0.advance t).leads [.regs, .limits, .out, .boot, .sec, .way, .host, .cch, .upd, .hwl] (execOpenExpertSession h duration t s0) :=
  leads_next (keeps_State_intake_run (by decide) fun u => keeps_State_runExpert.within)

theorem leads_execDebugToken (h : JobHdr) (token : List Byte) (t : Nat) (s0 : State) :
    (s0.advance t).leads [.regs, .limits, .out, .sec, .way, .host, .cch, .upd, .hwl] (execDebugToken h token t s0) :=
  leads_next (keeps_State_intake_run (by decide) fun u => keeps_State_runDebugToken.within)

theorem leads_execUpdateDelivery (h : JobHdr) (imageTag : BitVec 32) (offset total part : Nat) (block : List Byte) (writeFails : Bool)
    (t : Nat) (s0 : State) :
    (s0.advance t).leads [.regs, .limits, .out, .nor, .sec, .way, .host, .cch, .upd, .hwl, .ful]
        (execUpdateDelivery h imageTag offset total part block writeFails t s0) :=
  leads_next (keeps_State_intake_run (by decide) fun u => keeps_State_runDelivery.within)

theorem leads_execCampaignStart (h : JobHdr) (a : CampaignArgs) (t : Nat) (s0 : State) :
    (s0.advance t).leads [.regs, .limits, .out, .sec, .way, .host, .cch, .txn, .upd, .ctx, .hwl] (execCampaignStart h a t s0) :=
  leads_next (keeps_State_intake_run (by decide) fun u => keeps_State_runCampaign.within)

theorem leads_execReset (h : JobHdr) (node : NodeId) (cls t : Nat) (s0 : State) :
    (s0.advance t).leads [.regs, .limits, .out, .boot, .sec, .way, .rst, .host, .cch, .upd, .hwl, .ful] (execReset h node cls t s0) :=
  leads_next (keeps_State_intake_run (by decide) fun u => keeps_State_runReset.within)

theorem leads_execBootHeaderWrite (h : JobHdr) (b : BootHeader) (writeFails : Bool) (t : Nat) (s0 : State) :
    (s0.advance t).leads [.regs, .limits, .out, .nor, .sec, .way, .host, .cch, .upd, .hwl] (execBootHeaderWrite h b writeFails t s0) :=
  leads_next (keeps_State_intake_run (by decide) fun u => keeps_State_runBootHeader.within)

theorem leads_execDeliveryIdleTimeout (t : Nat) (s0 : State) :
    (s0.advance t).leads [.regs, .limits, .out, .way, .host, .upd] (execDeliveryIdleTimeout t s0) :=
  leads_next (keepsBut_foldl (fun _ _ h => h |>.then keeps_State_setDelivery |>.then keeps_State_note) (keepsBut_refl _ _))

theorem leads_execProbationDeadline (t : Nat) (s0 : State) :
    (s0.advance t).leads [.regs, .limits, .out, .way, .rst, .host, .hwl, .ful] (execProbationDeadline t s0) :=
  leads_next (keepsBut_ite keeps_State_requestReset.within (keepsBut_refl _ _))

theorem leads_execHealthConfirmation (t : Nat) (s0 : State) :
    (s0.advance t).leads [.regs, .out, .nor, .way, .host] (execHealthConfirmation t s0) :=
  leads_next (keepsBut_ite keeps_State_confirm.within (keepsBut_refl _ _))

theorem leads_execCampaignRound (campaign : Fin 4) (t : Nat) (s0 : State) :
    (s0.advance t).leads [.regs, .limits, .out, .way, .host, .cch, .txn, .upd, .ctx] (execCampaignRound campaign t s0) := by
  dsimp only [execCampaignRound]
  refine leads_next ?_
  split
  · exact keepsBut_refl _ _
  · exact keepsBut_ite (keepsBut_refl _ _) (keepsBut_ite (keepsBut_ite (keepsBut_refl _ _) keeps_State_campAnnounce.within)
      (keepsBut_ite keeps_State_judgeRound.within (keepsBut_refl _ _)))

theorem leads_execCampaignBlock (campaign : Fin 4) (t : Nat) (s0 : State) :
    (s0.advance t).leads [.regs, .limits, .out, .way, .host, .cch, .txn, .upd, .ctx] (execCampaignBlock campaign t s0) := by
  dsimp only [execCampaignBlock]
  refine leads_next ?_
  split
  · exact keepsBut_refl _ _
  · refine keepsBut_ite (keepsBut_refl _ _) ?_
    refine keepsBut_ite (keepsBut_refl _ _) ?_
    split
    · exact keeps_State_passSent.within
    · exact keepsBut_ite (keeps_State_setCamp.within |>.then keeps_State_campBroadcast |>.then keeps_State_campPush |>.then
        keeps_State_bump |>.then keeps_State_passSent) (keeps_State_setCamp.within |>.then keeps_State_campBroadcast |>.then
        keeps_State_campPush |>.then keeps_State_bump)

theorem leads_execStatusRound (campaign : Fin 4) (t : Nat) (s0 : State) :
    (s0.advance t).leads [.regs, .limits, .out, .way, .host, .cch, .txn, .upd, .ctx] (execStatusRound campaign t s0) := by
  dsimp only [execStatusRound]
  refine leads_next ?_
  split
  · exact keepsBut_refl _ _
  · exact keepsBut_ite (keepsBut_refl _ _) (.then (.then (keepsBut_foldl (fun _ _ h => h |>.then keeps_State_campRead)
      keeps_State_setCamp.within) keeps_State_topUpIssues) keeps_State_postCamp)

theorem leads_execKeyDestroy (m : Master) (v : Word) (t : Nat) (s0 : State) :
    (s0.advance t).leads [.regs, .limits, .out, .sec, .way, .host, .ing] (execKeyDestroy m v t s0) :=
  leads_next keeps_State_masterWrite.within

theorem leads_execKeyPurge (t : Nat) (s0 : State) :
    (s0.advance t).leads [.regs, .limits, .out, .nor, .sec, .way, .host, .ing] (execKeyPurge t s0) := by
  dsimp only [execKeyPurge]
  split
  · exact leads_next (keepsBut_refl _ _)
  · exact leads_next (keeps_State_invalidate.within |>.then keeps_State_modSec)

theorem leads_execBufferProgram (bad : List Bool) (erased : List Bool) (t : Nat) (s0 : State) :
    (s0.advance t).leads [.regs, .out, .way, .host] (execBufferProgram bad erased t s0) :=
  leads_next (.then (keepsBut_foldl (fun _ _ h => keepsBut_ite (h |>.then keeps_State_clearErased) h) (keepsBut_refl _ _))
      keeps_State_programBuffer)

theorem leads_execLowWordRead (sp : Space) (m : Master) (fetch : Bool) (a size t : Nat) (s0 : State) :
    (s0.advance t).leads [.draws, .regs, .latches, .limits, .out, .sec, .way, .host] (execLowWordRead sp m fetch a size t s0) :=
  leads_next (keeps_State_spaceRead.within |>.then keeps_State_emit)

theorem leads_execRegisterWrite (sp : Space) (m : Master) (a size : Nat) (v : Word) (t : Nat) (s0 : State) :
    (s0.advance t).leads [.regs, .limits, .out, .sec, .way, .host, .ing, .mem] (execRegisterWrite sp m a size v t s0) :=
  leads_next keeps_State_spaceWrite.within

theorem leads_execEthLinkChange (port : Fin 2) (up los : Bool) (t : Nat) (s0 : State) :
    (s0.advance t).leads [.regs, .out, .eth] (execEthLinkChange port up los t s0) :=
  leads_next (keepsBut_ite keeps_State_modEthPort.within (keeps_State_modEthPort.within |>.then keeps_State_raiseInt))

theorem leads_execLinkAckTimer (port : Fin 4) (t : Nat) (s0 : State) :
    (s0.advance t).leads [.out, .hwl] (execLinkAckTimer port t s0) := by
  dsimp only [execLinkAckTimer]
  refine leads_next ?_
  split
  · exact keepsBut_refl _ _
  · exact keepsBut_ite (keepsBut_refl _ _) keeps_State_sendAckWord.within

theorem leads_execMirrorAckTimer (t : Nat) (s0 : State) :
    (s0.advance t).leads [.regs, .limits, .out, .way, .host, .ing, .hwl, .bal, .ful] (execMirrorAckTimer t s0) := by
  dsimp only [execMirrorAckTimer]
  refine leads_next ?_
  split
  · exact keeps_State_mirrorPump.within
  · exact keepsBut_ite keeps_State_mirrorPump.within (keeps_State_mirrorPump.within |>.then keeps_State_sendMack)

theorem leads_execBlockErase (block t : Nat) (s0 : State) :
    (s0.advance t).leads [.regs, .out, .ful] (execBlockErase block t s0) :=
  leads_ite (leads_next (keepsBut_refl _ _)) (leads_next (keeps_with_ful.within |>.then keeps_State_bump |>.then keeps_State_checkLevels))

theorem leads_execPreambleDetection (chain : Fin 3) (first : Nat) (announced : Option Nat) (t : Nat) (s0 : State) :
    (s0.advance t).leads [.regs, .plc] (execPreambleDetection chain first announced t s0) :=
  leads_ite (leads_next (keepsBut_refl _ _)) (leads_ite (leads_next keeps_State_bump.within) (leads_next (keeps_State_setChain.within
      |>.then keeps_State_bump)))

theorem keeps_State_answeredEarly {s u : State} {i : Nat} {op : LegalOp} {ref : Option JobRef} (h : s.answeredEarly i op ref = some u) :
    s.keepsBut [.host, .regs] u := by
  unfold State.answeredEarly at h
  dsimp only at h
  split at h
  · cases h; exact keeps_State_answerOp
  · split at h
    · split at h
      · cases h; exact keeps_State_answerOp
      · cases h
    · split at h
      · cases h; exact keeps_State_bump.within |>.then keeps_State_answerOp
      · split at h
        · cases h; exact keeps_State_answerOp
        · cases h

theorem keeps_State_beforeVote {s u : State} {fails : Bool} {x : TroikaItem} (h : s.beforeVote fails x = some u) :
    s.keepsBut [.regs, .out, .host, .ing, .bil, .ful, .readings] u := by
  cases x with
  | record id i r tref k d =>
    simp only [State.beforeVote] at h
    split at h
    · cases h; exact keeps_State_declineRecord.within
    · split at h
      · cases h; exact keeps_State_declineRecord.within
      · split at h
        · cases h; exact keeps_State_declineRecord.within
        · split at h
          · cases h; exact keeps_State_slotError.within |>.then keeps_State_declineRecord
          · cases h
  | legal i op ref rep =>
    simp only [State.beforeVote] at h
    split at h
    · rename_i hearly
      cases h; exact (keeps_State_answeredEarly hearly).within
    · split at h
      · cases h; exact keeps_State_slotError.within |>.then keeps_State_answerOp
      · cases h
  | _ => simp [State.beforeVote] at h

theorem leads_execTroikaUpdate (readFails : Bool) (a b c : UnitAnswer) (t : Nat) (s0 : State) :
    (s0.advance t).leads [.regs, .limits, .out, .way, .host, .cch, .txn, .upd, .ctx, .ing, .hwl, .bil, .met, .ful, .readings]
      (execTroikaUpdate readFails a b c t s0) := by
  dsimp only [execTroikaUpdate]
  refine leads_ite (leads_next (keepsBut_refl _ _)) ?_
  split
  · exact leads_next (keepsBut_refl _ _)
  · refine leads_next (State.keepsBut.then ?_ keeps_State_settleCuts)
    refine keepsBut_ite (keeps_with_bil.within |>.then keeps_State_bump |>.then keeps_State_itemLegalSafe) ?_
    split
    · rename_i hbefore
      exact keeps_with_bil.within |>.then keeps_State_bump |>.then (keeps_State_beforeVote hbefore)
    · exact keeps_with_bil.within |>.then keeps_State_bump |>.then keeps_State_vote

theorem leads_execCsmaBackoffEnd (t : Nat) (s0 : State) :
    (s0.advance t).leads [.draws, .regs, .limits, .out, .way, .host, .cch, .txn, .upd, .ctx, .plc, .rfm] (execCsmaBackoffEnd t s0) := by
  dsimp only [execCsmaBackoffEnd]
  split
  · exact leads_next (keepsBut_refl _ _)
  · refine leads_ite (leads_next (keepsBut_refl _ _)) (leads_ite (leads_next (keepsBut_ite ?_ ?_)) (leads_next
      keeps_State_plcTransmit.within))
    · exact keeps_State_bump.within |>.then keeps_State_plcAttemptFailed
    · exact keeps_State_bump.within |>.then keeps_State_csmaWait |>.then keeps_State_plcSet

theorem leads_execProgramFail (copy markFails : Bool) (t : Nat) (s0 : State) :
    (s0.advance t).leads [.regs, .limits, .out, .way, .host, .ful] (execProgramFail copy markFails t s0) := by
  dsimp only [execProgramFail]
  refine leads_ite (leads_next (keepsBut_refl _ _)) ?_
  split
  · exact leads_next (keepsBut_refl _ _)
  · rename_i htarget
    exact leads_next ((keeps_State_target htarget).within |>.then keeps_State_bump |>.then keeps_State_retireBlock |>.then
        keeps_State_checkLevels)

theorem leads_execEventPortSubmit (port : Fin 2) (m : Master) (v : Word) (t : Nat) (s0 : State) :
    (s0.advance t).leads [.regs, .limits, .out, .sec, .way, .host] (execEventPortSubmit port m v t s0) := by
  dsimp only [execEventPortSubmit]
  split
  · rename_i hbarred
    exact leads_next (keeps_State_writeBarred hbarred).within
  · exact leads_next keeps_State_submitPort.within

theorem leads_execLegalPortSubmit (m : Master) (v : Word) (t : Nat) (s0 : State) :
    (s0.advance t).leads [.regs, .limits, .out, .sec, .way, .host] (execLegalPortSubmit m v t s0) := by
  dsimp only [execLegalPortSubmit]
  split
  · rename_i hbarred
    exact leads_next (keeps_State_writeBarred hbarred).within
  · exact leads_next keeps_State_submitPort.within

end Sys2Proof.Machine

/-! # Rows that stop or start the device -/

namespace Sys2Proof.Machine

-- One theorem after the other: a thread for each would pass the memory limit of the check.
set_option Elab.async false

/-! ## The rows that stop or start the device -/

/-- All that these rows are bound to leave is the queue. -/
theorem keepsBut_allBut_pending {s u : State} (h : u.pending = s.pending) : s.keepsBut (allBut [.pending]) u := fun p hp => by
  cases p <;> first | exact h | exact absurd (by decide) hp

theorem leads_of_pending {s u : State} (h : u.pending = s.pending) : s.leads (allBut [.pending]) (.next u) :=
  leads_next (keepsBut_allBut_pending h)

theorem pending_State_mainOff (s : State) (sb : Bool) : (s.mainOff sb).pending = s.pending :=
  s.keeps_endedByReset_stopTime .wake .pending (by decide)

theorem pending_State_wakeNow (s : State) (e : StartEnv) : (s.wakeNow e).pending = s.pending := by
  unfold State.wakeNow
  split
  · exact (s.restarts_wakeStart e).1.pending
  · rfl

theorem pending_State_wakeEvent (s : State) (e : StartEnv) : (s.wakeEvent e).pending = s.pending := by
  unfold State.wakeEvent
  split
  · rfl
  · split
    · rfl
    · exact pending_State_wakeNow s e

theorem pending_State_resetAndStart (s : State) (cls : ResetClass) (e : StartEnv) (timeout escalated : Bool) :
    (s.resetAndStart cls e timeout escalated).pending = s.pending :=
  (s.restarts_resetAndStart cls e timeout escalated).1.pending

theorem pending_State_enterStandby (s : State) : s.enterStandby.pending = s.pending := by
  unfold State.enterStandby
  extract_lets cause s1 s2 s3 p
  have h2 : s.keepsBut [.way, .host, .limits, .regs, .out, .nor] s2 :=
    keepsBut_ite (keeps_State_saveInGasp.within |>.then keeps_State_note) keeps_State_saveInGasp.within
  have h3 : s.keepsBut [.way, .host, .limits, .cch, .regs, .out, .pwr, .nor] (s2.setMode .standby cause) := h2.within.then
      keeps_State_setMode
  exact (pending_State_mainOff (s2.setMode .standby cause) s2.sb.up).trans (h3 .pending (by decide))

theorem leads_execMainRailDrop (t : Nat) (s0 : State) : (s0.advance t).leads (allBut [.pending]) (execMainRailDrop t s0) :=
  leads_ite (leads_of_pending rfl) (leads_of_pending (pending_State_mainOff _ (s0.advance t).sb.up))

theorem leads_execAonSupplyLoss (t : Nat) (s0 : State) : (s0.advance t).leads (allBut [.pending]) (execAonSupplyLoss t s0) :=
  leads_ite (leads_of_pending rfl) (leads_of_pending (pending_State_mainOff _ false))

theorem leads_execPowerOnReset (e : StartEnv) (t : Nat) (s0 : State) :
    (s0.advance t).leads (allBut [.pending]) (execPowerOnReset e t s0) := by
  refine leads_of_pending ?_
  split
  · rfl
  · split
    · exact (State.restarts_wakeStart _ e).1.pending
    · exact pending_State_resetAndStart _ _ _ _ _

theorem leads_execHrst (e : StartEnv) (t : Nat) (s0 : State) : (s0.advance t).leads (allBut [.pending]) (execHrst e t s0) := by
  refine leads_of_pending ?_
  split
  · rfl
  · split
    · rfl
    · exact pending_State_resetAndStart _ _ _ _ _

theorem leads_execHoldComplete (e : StartEnv) (t : Nat) (s0 : State) :
    (s0.advance t).leads (allBut [.pending]) (execHoldComplete e t s0) := by
  dsimp only [execHoldComplete]
  split
  · exact leads_of_pending rfl
  · exact leads_of_pending ((pending_State_resetAndStart _ _ _ _ _).trans (keeps_State_flushFuller .pending (by decide)))

theorem leads_execHoldTimeout (e : StartEnv) (t : Nat) (s0 : State) :
    (s0.advance t).leads (allBut [.pending]) (execHoldTimeout e t s0) := by
  dsimp only [execHoldTimeout]
  split
  · exact leads_of_pending rfl
  · refine leads_of_pending ?_
    split
    · rfl
    · exact pending_State_resetAndStart _ _ _ _ _

theorem leads_execBootWatchdogExpiry (e : StartEnv) (t : Nat) (s0 : State) :
    (s0.advance t).leads (allBut [.pending]) (execBootWatchdogExpiry e t s0) := by
  refine leads_ite (leads_of_pending rfl) (leads_of_pending ?_)
  exact (State.started_startDevice (carries_refl _)).1.pending.trans (State.restarts_applyReset _ .wdg true false false).pending

theorem leads_execStandbyEntry (t : Nat) (s0 : State) : (s0.advance t).leads (allBut [.pending]) (execStandbyEntry t s0) := by
  dsimp only [execStandbyEntry]
  split
  · exact leads_of_pending rfl
  · refine leads_of_pending ?_
    split
    · rfl
    · exact pending_State_enterStandby _

theorem leads_execWakeNLow (e : StartEnv) (t : Nat) (s0 : State) : (s0.advance t).leads (allBut [.pending]) (execWakeNLow e t s0) :=
  leads_of_pending (pending_State_wakeEvent _ e)

theorem leads_execStandbyMainsReturn (periods : List Nat) (e : StartEnv) (t : Nat) (s0 : State) :
    (s0.advance t).leads (allBut [.pending]) (execStandbyMainsReturn periods e t s0) := by
  refine leads_of_pending ?_
  split
  · exact pending_State_wakeEvent _ e
  · rfl

theorem leads_execThermalWake (e : StartEnv) (t : Nat) (s0 : State) :
    (s0.advance t).leads (allBut [.pending]) (execThermalWake e t s0) := by
  refine leads_of_pending ?_
  split
  · exact pending_State_wakeNow _ e
  · rfl

theorem leads_execSidebandWake (r : SbReq) (e : StartEnv) (t : Nat) (s0 : State) :
    (s0.advance t).leads (allBut [.pending]) (execSidebandWake r e t s0) :=
  leads_next (keeps_State_sbReceive (by decide)
    (fun _ hu => hu.then keeps_State_sbAnswer |>.then (keepsBut_allBut_pending (pending_State_wakeEvent _ e))) (keepsBut_refl _ _))

end Sys2Proof.Machine

/-! # Frames of the rows -/

namespace Sys2Proof.Machine

-- One theorem after the other: a thread for each would pass the memory limit of the check.
set_option Elab.async false

/-- A row that acts at a time changes the time, and the parts that its operations change. -/
theorem framed_timed {c : Instr} {t : Nat} {A L : List Part} (h : ∀ s : State, (s.advance t).leads A (exec c s))
    (sub : ∀ p ∈ Part.now :: A, p ∈ L := by decide) : Framed c L := fun s u hu => by
  obtain ⟨v, hv, hkeeps⟩ := h s
  cases hv.symm.trans hu
  exact .then (keeps_State_advance.within fun p hp => sub p (List.mem_cons.2 (.inl (List.mem_singleton.1 hp)))) hkeeps
    fun p hp => sub p (List.mem_cons.2 (.inr hp))

/-- A row that takes no time changes the parts that its operations change. -/
theorem framed_untimed {c : Instr} {A L : List Part} (h : ∀ s : State, s.leads A (exec c s)) (sub : ∀ p ∈ A, p ∈ L := by decide) :
    Framed c L := fun s u hu => by
  obtain ⟨v, hv, hkeeps⟩ := h s
  cases hv.symm.trans hu
  exact hkeeps.within sub

/-- Settles O58: each row's own lemma says what its operations change. -/
theorem framesOfPowerTimeAndMeterRows : Obligations.FramesOfPowerTimeAndMeterRows := by
  unfold Obligations.FramesOfPowerTimeAndMeterRows
  exact ⟨
    fun t => framed_timed (leads_execPowerUpSequence t),
    fun t => framed_timed (leads_execMainRailTimeout t),
    fun t => framed_timed (leads_execMainRailDrop t),
    fun e t => framed_timed (leads_execPowerOnReset e t),
    fun e t => framed_timed (leads_execHrst e t),
    fun t => framed_timed (leads_execWrm t),
    fun e t => framed_timed (leads_execHoldComplete e t),
    fun e t => framed_timed (leads_execHoldTimeout e t),
    fun e t => framed_timed (leads_execBootWatchdogExpiry e t),
    fun t => framed_timed (leads_execAppHeartbeat t),
    fun t => framed_timed (leads_execWatchdogPending t),
    fun t => framed_timed (leads_execSysWatchdogExpiry t),
    fun t => framed_timed (leads_execSwpEscalation t),
    fun t => framed_timed (leads_execLegalWatchdogExpiry t),
    fun t => framed_timed (leads_execLegalWatchdogEscalation t),
    fun low t => framed_timed (leads_execPfailNChange low t),
    fun vscap powerMw t => framed_timed (leads_execModeEvaluation vscap powerMw t),
    fun t => framed_timed (leads_execGaspFullerDeadline t),
    fun t => framed_timed (leads_execStandbyEntry t),
    fun t => framed_timed (leads_execRideTimeExpiry t),
    fun t0 t1 t2 t3 t => framed_timed (leads_execTemperatureSample t0 t1 t2 t3 t),
    fun t => framed_timed (leads_execThermalClear t),
    fun e t => framed_timed (leads_execWakeNLow e t),
    fun periods e t => framed_timed (leads_execStandbyMainsReturn periods e t),
    fun e t => framed_timed (leads_execThermalWake e t),
    fun phase w m t => framed_timed (leads_execZeroCrossing phase w m t),
    fun phase t => framed_timed (leads_execPhaseAbsent phase t),
    fun t => framed_timed (leads_execSyntheticCycle t),
    fun t => framed_timed (leads_execRtcTick t),
    fun t => framed_timed (leads_execOperatingTimeTick t),
    fun t => framed_timed (leads_execOperatingTimePersist t),
    fun t => framed_timed (leads_execAonTimeRefresh t),
    fun h t1 sub t => framed_timed (leads_execSync h t1 sub t),
    fun h t1 t => framed_timed (leads_execFollowUp h t1 t),
    fun h t4 t => framed_timed (leads_execDelayResp h t4 t),
    fun port sub t => framed_timed (leads_execDelayReqSend port sub t),
    fun h a t => framed_timed (leads_execPtpAnnounce h a t),
    fun port master t => framed_timed (leads_execMasterTimeout port master t),
    fun t => framed_timed (leads_execProportionalEnd t),
    fun t => framed_timed (leads_execStepPermitExpiry t),
    fun t => framed_timed (leads_execLeapSecond t),
    fun t => framed_timed (leads_execExpertSessionExpiry t),
    fun t => framed_timed (leads_execNonceExpiry t),
    fun output t => framed_timed (leads_execPulseInstant output t),
    fun output t => framed_timed (leads_execPulseFall output t),
    fun port traffic bytes launchSec launchNs ahead t => framed_timed (leads_execLaunch port traffic bytes launchSec launchNs ahead t),
    fun t => framed_timed (leads_execBeaconLaunch t),
    fun radio t => framed_timed (leads_execRfBeaconLaunch radio t),
    fun f => framed_untimed (leads_execIngestFrame f),
    framed_untimed leads_execSteering,
    fun src => framed_untimed (leads_execCreditReturn src),
    fun t => framed_timed (leads_execBundleSplit t),
    fun lane ecc t => framed_timed (leads_execContextFill lane ecc t),
    fun lane badRead t => framed_timed (leads_execLaneProcessing lane badRead t),
    fun verified built status t => framed_timed (leads_execFirmwareRecordBuild verified built status t),
    fun lane t => framed_timed (leads_execContextOperation lane t),
    fun t => framed_timed (leads_execContextRestore t),
    fun lane t => framed_timed (leads_execMirrorRecord lane t),
    fun boundary t => framed_timed (leads_execBundleClose boundary t),
    fun lane t => framed_timed (leads_execValidate lane t),
    fun lane t => framed_timed (leads_execRecordRelease lane t),
    fun f a b c t => framed_timed (leads_execTroikaUpdate f a b c t),
    fun unit t => framed_timed (leads_execVoteTimeout unit t),
    fun a b c t => framed_timed (leads_execSafeStateTestsDone a b c t),
    fun slot t => framed_timed (leads_execForcedClosure slot t),
    fun m t => framed_timed (leads_execFeederDeltas m t),
    fun t => framed_timed (leads_execFriendlyPeriodEnd t),
    fun v t => framed_timed (leads_execTroikaRebuild v t),
    fun sync shownSeq shown t => framed_timed (leads_execDisplayFrame sync shownSeq shown t),
    fun gmn positive t => framed_timed (leads_execSupplyConfirmation gmn positive t),
    fun t => framed_timed (leads_execBalRecord t),
    fun t => framed_timed (leads_execChannelEstimate t),
    fun group t => framed_timed (leads_execIntervalResult group t),
    fun t => framed_timed (leads_execSnapshotCollectRead t),
    fun t => framed_timed (leads_execSnapshotResult t),
    fun gmn t => framed_timed (leads_execComponentLapse gmn t),
    fun chain c t => framed_timed (leads_execCopyReceived chain c t),
    fun mesh t => framed_timed (leads_execCombineWindowClose mesh t),
    fun t => framed_timed (leads_execAckTransmit t),
    fun chain bytes t => framed_timed (leads_execAck chain bytes t),
    fun t => framed_timed (leads_execAckWaitExpiry t),
    fun t => framed_timed (leads_execCsmaBackoffEnd t),
    fun t => framed_timed (leads_execDiscWindowExpiry t),
    fun t => framed_timed (leads_execTollbookExpiry t),
    fun c t => framed_timed (leads_execRfCopyReceived c t),
    fun t => framed_timed (leads_execEnhAckTransmit t),
    fun radio bytes start t => framed_timed (leads_execEnhAck radio bytes start t),
    fun radio t => framed_timed (leads_execRfAckWaitExpiry radio t),
    fun radio energy t => framed_timed (leads_execCsmaCaAttempt radio energy t),
    fun slot energy t => framed_timed (leads_execSlotExchange slot energy t),
    fun slot t => framed_timed (leads_execSlotMiss slot t),
    fun radio energy t => framed_timed (leads_execLongPreambleExchange radio energy t),
    fun radio t => framed_timed (leads_execDutyHoldRelease radio t)⟩

/-- Settles O59: each row's own lemma says what its operations change. -/
theorem framesOfTransactionStoreFabricAndHostRows : Obligations.FramesOfTransactionStoreFabricAndHostRows := by
  unfold Obligations.FramesOfTransactionStoreFabricAndHostRows
  exact ⟨
    fun port plain t => framed_timed (leads_execIssue port plain t),
    fun tag t => framed_timed (leads_execTxnDeadline tag t),
    fun t => framed_timed (leads_execRetryRelease t),
    fun tag t => framed_timed (leads_execQuarantineEnd tag t),
    fun t => framed_timed (leads_execScheduleRun t),
    fun kind priority eclass exec' coreMask arg t => framed_timed (leads_execTaskPost kind priority eclass exec' coreMask arg t),
    fun executor t => framed_timed (leads_execTaskRetire executor t),
    fun t => framed_timed (leads_execFullerAccept t),
    fun t => framed_timed (leads_execFlushTimer t),
    fun bad t => framed_timed (leads_execPageProgram bad t),
    fun copy markFails t => framed_timed (leads_execProgramFail copy markFails t),
    fun block markFails t => framed_timed (leads_execEraseFail block markFails t),
    fun lsa bits retries uncorrectable t => framed_timed (leads_execSectorRead lsa bits retries uncorrectable t),
    fun t => framed_timed (leads_execGcBatch t),
    fun legal t => framed_timed (leads_execCheckpointComplete legal t),
    fun t => framed_timed (leads_execCounterSnapshot t),
    fun badSummaries badPages t => framed_timed (leads_execRebuildDone badSummaries badPages t),
    fun port valid t => framed_timed (leads_execBlockLock port valid t),
    fun port since t => framed_timed (leads_execLockLoss port since t),
    fun port t => framed_timed (leads_execPortRetrainTimer port t),
    fun l t => framed_timed (leads_execHello l t),
    fun l t => framed_timed (leads_execHelloAck l t),
    fun t => framed_timed (leads_execCoordinateAssign t),
    fun t => framed_timed (leads_execAnnounceTimer t),
    fun l t => framed_timed (leads_execAnnounce l t),
    fun node t => framed_timed (leads_execMemberExpiry node t),
    fun l t => framed_timed (leads_execPair l t),
    fun t => framed_timed (leads_execPairTimeout t),
    fun t => framed_timed (leads_execHeartbeatSend t),
    fun l t => framed_timed (leads_execHeartbeat l t),
    fun l t => framed_timed (leads_execLeave l t),
    fun t => framed_timed (leads_execPartnerTimeout t),
    fun l t => framed_timed (leads_execMrec l t),
    fun l t => framed_timed (leads_execMest l t),
    fun l t => framed_timed (leads_execMfeed l t),
    fun l gmn op t => framed_timed (leads_execMjob l gmn op t),
    fun l job t => framed_timed (leads_execMctx l job t),
    fun l t => framed_timed (leads_execCut l t),
    fun l t => framed_timed (leads_execMsync l t),
    fun l t => framed_timed (leads_execHandback l t),
    fun l t => framed_timed (leads_execMack l t),
    fun l spoilt t => framed_timed (leads_execMnak l spoilt t),
    fun t => framed_timed (leads_execMirrorGapTimer t),
    fun l t => framed_timed (leads_execSyncReq l t),
    fun l t => framed_timed (leads_execDigest l t),
    fun l t => framed_timed (leads_execDigestReq l t),
    fun l t => framed_timed (leads_execDigestResult l t),
    fun l e t => framed_timed (leads_execFwdEntry l e t),
    fun l w t => framed_timed (leads_execSeqReq l w t),
    fun l t => framed_timed (leads_execActionReq l t),
    fun l j t => framed_timed (leads_execJob l j t),
    fun l r t => framed_timed (leads_execReport l r t),
    fun l j t => framed_timed (leads_execResetPacket l j t),
    fun l head writeFails t => framed_timed (leads_execChainData l head writeFails t),
    fun l t => framed_timed (leads_execChainAck l t),
    fun l t => framed_timed (leads_execChainResult l t),
    fun t => framed_timed (leads_execChainAckTimeout t),
    fun port vc cls units t => framed_timed (leads_execCredit port vc cls units t),
    fun port lseq t => framed_timed (leads_execLinkWordAck port lseq t),
    fun port lseq t => framed_timed (leads_execLinkWordNak port lseq t),
    fun high t => framed_timed (leads_execActOwnInChange high t),
    fun t => framed_timed (leads_execArbWindowExpiry t),
    fun t => framed_timed (leads_execArbBackoffExpiry t),
    fun t => framed_timed (leads_execQueryRetry t),
    fun n m v t => framed_timed (leads_execCqTailWrite n m v t),
    fun n m sizeLog2 t => framed_timed (leads_execRqEnable n m sizeLog2 t),
    fun n m sizeLog2 t => framed_timed (leads_execRqDisable n m sizeLog2 t),
    fun n m v t => framed_timed (leads_execRqHeadWrite n m v t),
    fun t => framed_timed (leads_execReportIssue t),
    fun n t => framed_timed (leads_execCoalesceTimer n t),
    fun t => framed_timed (leads_execReportHoldExpiry t),
    fun high speed width t => framed_timed (leads_execPciePerstN high speed width t),
    fun port f t => framed_timed (leads_execEthernetFrame port f t),
    fun port peer t => framed_timed (leads_execMessageResend port peer t),
    fun port peer t => framed_timed (leads_execStandaloneAck port peer t),
    fun t => framed_timed (leads_execBundleResend t),
    fun port t => framed_timed (leads_execGateChange port t),
    fun r t => framed_timed (leads_execIdentify r t),
    fun r t => framed_timed (leads_execStatus r t),
    fun r t => framed_timed (leads_execAonCounters r t),
    fun r t => framed_timed (leads_execTime r t),
    fun r log first count t => framed_timed (leads_execReadLog r log first count t),
    fun r e t => framed_timed (leads_execSidebandWake r e t),
    fun r j t => framed_timed (leads_execSidebandReset r j t),
    fun r h b t => framed_timed (leads_execSidebandJob r h b t)⟩

/-- Settles O60: each row's own lemma says what its operations change. -/
theorem framesOfJobAndUpdateRows : Obligations.FramesOfJobAndUpdateRows := by
  unfold Obligations.FramesOfJobAndUpdateRows
  exact ⟨
    fun h gmn obis priority medium t => framed_timed (leads_execReadMeter h gmn obis priority medium t),
    fun h group all lead gmns t => framed_timed (leads_execSnapshotGroup h group all lead gmns t),
    fun h offset words t => framed_timed (leads_execRegisterRead h offset words t),
    fun h gmn parts t => framed_timed (leads_execMeterStateRead h gmn parts t),
    fun h nonce t => framed_timed (leads_execAttest h nonce t),
    fun h tag t => framed_timed (leads_execCancel h tag t),
    fun h entry source due period template t => framed_timed (leads_execTrigger h entry source due period template t),
    fun h output startSec startNs period width t => framed_timed (leads_execPulse h output startSec startNs period width t),
    fun h sec ns t => framed_timed (leads_execHostTime h sec ns t),
    fun h gmn group regPhase exportAllowed t => framed_timed (leads_execBalanceMembership h gmn group regPhase exportAllowed t),
    fun h b t => framed_timed (leads_execBundleSubmit h b t),
    fun h slot set t => framed_timed (leads_execPushTariffSet h slot set t),
    fun h gmn amount t => framed_timed (leads_execCreditChange h gmn amount t),
    fun h gmn t => framed_timed (leads_execDisconnect h gmn t),
    fun h gmn force t => framed_timed (leads_execReconnect h gmn force t),
    fun h gmn mode t => framed_timed (leads_execLegalRelease h gmn mode t),
    fun h a t => framed_timed (leads_execEnrolMeter h a t),
    fun h gmn t => framed_timed (leads_execRemoveMeter h gmn t),
    fun h gmn keySlot ek ak t => framed_timed (leads_execKeyChange h gmn keySlot ek ak t),
    fun h gmn rxIc txIc t => framed_timed (leads_execCounterReset h gmn rxIc txIc t),
    fun h range trueNode slots t => framed_timed (leads_execDesignate h range trueNode slots t),
    fun h t => framed_timed (leads_execClaimOwnership h t),
    fun h t => framed_timed (leads_execReleaseOwnership h t),
    fun h t => framed_timed (leads_execForgetCoordinate h t),
    fun h window maxStep t => framed_timed (leads_execWallTimeStep h window maxStep t),
    fun h log t => framed_timed (leads_execClearLog h log t),
    fun h duration t => framed_timed (leads_execOpenExpertSession h duration t),
    fun h token t => framed_timed (leads_execDebugToken h token t),
    fun h imageTag offset total part block writeFails t => framed_timed
        (leads_execUpdateDelivery h imageTag offset total part block writeFails t),
    fun h a t => framed_timed (leads_execCampaignStart h a t),
    fun h node cls t => framed_timed (leads_execReset h node cls t),
    fun h b writeFails t => framed_timed (leads_execBootHeaderWrite h b writeFails t),
    fun t => framed_timed (leads_execDeliveryIdleTimeout t),
    fun t => framed_timed (leads_execProbationDeadline t),
    fun t => framed_timed (leads_execHealthConfirmation t),
    fun campaign t => framed_timed (leads_execCampaignRound campaign t),
    fun campaign t => framed_timed (leads_execCampaignBlock campaign t),
    fun campaign t => framed_timed (leads_execStatusRound campaign t),
    fun m v t => framed_timed (leads_execKeyDestroy m v t),
    fun t => framed_timed (leads_execKeyPurge t),
    fun port m v t => framed_timed (leads_execEventPortSubmit port m v t),
    fun m v t => framed_timed (leads_execLegalPortSubmit m v t),
    fun bad erased t => framed_timed (leads_execBufferProgram bad erased t),
    fun sp m fetch a size t => framed_timed (leads_execLowWordRead sp m fetch a size t),
    fun sp m a size v t => framed_timed (leads_execRegisterWrite sp m a size v t),
    fun t => framed_timed (leads_execAonSupplyLoss t),
    fun port up los t => framed_timed (leads_execEthLinkChange port up los t),
    fun port t => framed_timed (leads_execLinkAckTimer port t),
    fun t => framed_timed (leads_execMirrorAckTimer t),
    fun block t => framed_timed (leads_execBlockErase block t),
    fun chain first announced t => framed_timed (leads_execPreambleDetection chain first announced t)⟩

end Sys2Proof.Machine

/-! # Supplies, resets and watchdogs -/

namespace Sys2Proof.Machine

-- One theorem after the other: a thread for each would pass the memory limit of the check.
set_option Elab.async false

/-- An outcome through the state that it leads to. -/
theorem next_of_eq {u v : State} (h : u = v) : (.next u : Host.Outcome State Fault Refusal) = .next v := congrArg _ h

/-! ## Holds -/

theorem State.beginHold_rst (s : State) (cls : ResetClass) (escalated : Bool) :
    (s.beginHold cls escalated).rst = { s.rst with hold := some ⟨cls, s.now, escalated⟩ } := by
  have hkept : s.keepsBut [.way, .host, .limits, .regs, .out, .hwl, .ful] (s.sendLeave 2).releaseOwner.stopFuller :=
    keeps_State_sendLeave.within |>.then keeps_State_releaseOwner |>.then keeps_State_stopFuller
  have hnow := hkept .now (by decide)
  have hrst := hkept .rst (by decide)
  unfold State.beginHold
  dsimp only
  rw [hrst, hnow]

/-- Outside GASP and STANDBY, with no hold in progress, a reset asked for begins its hold now. -/
theorem State.requestReset_begins {s : State} {cls : ResetClass} (hgasp : s.pwr.mode ≠ .gasp) (hstandby : s.pwr.mode ≠ .standby)
    (hhold : s.rst.hold = none) : s.requestReset cls = s.beginHold cls false := by
  unfold State.requestReset
  split
  · contradiction
  · contradiction
  · rw [hhold]

theorem State.requestReset_hold {s : State} {cls : ResetClass} (hgasp : s.pwr.mode ≠ .gasp) (hstandby : s.pwr.mode ≠ .standby)
    (hhold : s.rst.hold = none) : (s.requestReset cls).rst.hold = some ⟨cls, s.now, false⟩ := by
  rw [State.requestReset_begins hgasp hstandby hhold, State.beginHold_rst]

theorem State.clusterRuns_mode {s : State} (h : s.clusterRuns = true) : s.pwr.mode ≠ .gasp ∧ s.pwr.mode ≠ .standby := by
  unfold State.clusterRuns at h
  constructor <;> intro hm <;> simp [hm] at h

/-! ## Supplies -/

/-- Settles O9: each clause is the branch of its row that its hypotheses choose. -/
theorem suppliesStartAndStopTheDevice : Obligations.SuppliesStartAndStopTheDevice := by
  unfold Obligations.SuppliesStartAndStopTheDevice
  refine ⟨?up, ?again, ?standby, ?drop, ?loss⟩
  case up =>
    intro s t hoff
    exact ⟨_, next_of_eq (if_neg (by simp [hoff])), rfl, rfl, rfl, rfl, rfl, rfl⟩
  case again =>
    intro s t hen hmain hlate hfew
    have hrails : (s.advance t).railsLate = true := by simp [State.railsLate, hen, hmain, hlate]
    exact ⟨_, (if_neg (by simp [hrails])).trans (if_pos hfew), hen, rfl, rfl, rfl⟩
  case standby =>
    intro s t hen hmain hlate hmany
    have hrails : (s.advance t).railsLate = true := by simp [State.railsLate, hen, hmain, hlate]
    exact ⟨_, (if_neg (by simp [hrails])).trans (if_neg (Nat.not_lt.2 hmany)), rfl, rfl, rfl, rfl⟩
  case drop =>
    intro s t hen hmain
    have hkept : ((s.advance t).endedByReset .wake).stopTime.pins = s.pins :=
      (s.advance t).keeps_endedByReset_stopTime .wake .pins (by decide)
    have hpins : ((s.advance t).mainOff s.sb.up).pins.pwrEnMain = s.pins.pwrEnMain := (congrArg Pins.pwrEnMain hkept :)
    exact ⟨_, if_neg (by simp [hen, hmain]), rfl, hpins.trans hen, rfl, rfl, rfl, rfl, rfl, rfl, rfl, pending_State_mainOff
        (s.advance t) s.sb.up⟩
  case loss =>
    intro s t hreset
    exact ⟨_, if_neg (by simp [hreset]), rfl, rfl, rfl, rfl, rfl, rfl, rfl, pending_State_mainOff (s.advance t) false⟩

/-! ## Resets and wakes -/

/-- A state whose step restarts the device with a class. -/
theorem State.wakeNow_rails {s : State} {e : StartEnv} (h : e.rails = true) : s.wakeNow e = s.wakeStart e := if_pos h

theorem State.wakeEvent_wakes {s : State} {e : StartEnv} (hmode : s.pwr.mode = .standby) (hwake : s.pins.wakePending = false)
    (hcool : s.pwr.thermalStandby = false) (hrails : e.rails = true) : s.wakeEvent e = s.wakeStart e := by
  unfold State.wakeEvent
  rw [if_neg (by simp [hmode, hwake]), if_neg (by simp [hcool]), State.wakeNow_rails hrails]

/-- The start after the boot watchdog has expired (R34): the count of its expiries is no part of what a reset latches. -/
theorem State.restarts_watchdog (s : State) (e : StartEnv) {n : Nat} {forced : Bool} :
    let u := State.startDevice e forced (State.applyReset { s with boot := { s.boot with watchdogExpiries := n } } .wdg true false false)
    u.rst.cls = .wdg ∧ u.rst.prev = s.rst.cls ∧ u.startEnds ∧ u.host.jobs = [] ∧ u.pending = s.pending := by
  have happly := State.restarts_applyReset { s with boot := { s.boot with watchdogExpiries := n } } .wdg true false false
  obtain ⟨hcarries, hends⟩ := State.started_startDevice (e := e) (forced := forced) (carries_refl (State.applyReset
    { s with boot := { s.boot with watchdogExpiries := n } } .wdg true false false))
  have h := happly.then hcarries
  exact ⟨h.cls, h.prev, hends, h.jobs, h.pending⟩

/-- Settles O10: every start is one of `resetAndStart`, of `wakeStart`, or of the boot watchdog's reset, and each of these latches its
    class. -/
theorem resetsAndWakesLatchTheirClass : Obligations.ResetsAndWakesLatchTheirClass := by
  unfold Obligations.ResetsAndWakesLatchTheirClass
  refine ⟨?por, ?hrst, ?complete, ?timeout, ?watchdog, ?wake, ?held, ?mains, ?thermal⟩
  case por =>
    intro s e t hreset hen hrail hwake
    obtain ⟨h, hends, hmain, hpwr⟩ := (s.advance t).restarts_resetAndStart .por e false false
    refine ⟨_, next_of_eq ((if_neg ?_).trans (if_neg (by simp [hwake]))), h.cls, h.prev, hmain, hpwr, hends, h.jobs, h.pending⟩
    simp [hreset, hen, Nat.not_lt.2 hrail]
  case hrst =>
    intro s e t hreset hrails
    obtain ⟨h, hends, hmain, hpwr⟩ := (s.advance t).restarts_resetAndStart .hrst e false false
    exact ⟨_, next_of_eq ((if_neg (by simp [hreset])).trans (if_neg
        (by simp [hrails]))), h.cls, h.prev, hmain, hpwr, hends, h.jobs, h.pending⟩
  case complete =>
    intro s e t hold hhold
    obtain ⟨h, hends, -, -⟩ := (s.advance t).flushFuller.restarts_resetAndStart hold.cls e false hold.escalated
    have hprev : (s.advance t).flushFuller.rst = s.rst := keeps_State_flushFuller .rst (by decide)
    have hpending : (s.advance t).flushFuller.pending = s.pending := keeps_State_flushFuller .pending (by decide)
    refine ⟨_, ?_, h.cls, h.prev.trans
        (congrArg Rst.cls hprev), h.holdTimeout, h.escalated, h.hold, hends, h.jobs, h.pending.trans hpending⟩
    simp only [exec, execHoldComplete, State.advance_rst, hhold]
  case timeout =>
    intro s e t hold hhold hlate
    obtain ⟨h, hends, -, -⟩ := (s.advance t).restarts_resetAndStart hold.cls e true hold.escalated
    refine ⟨_, ?_, h.cls, h.prev, h.holdTimeout, h.escalated, h.hold, hends, h.jobs, h.pending⟩
    simp only [exec, execHoldTimeout, State.advance_rst, hhold]
    exact next_of_eq (if_neg (Nat.not_lt.2 hlate))
  case watchdog =>
    intro s e t a hmode hhalted hat hlate
    have hdue : (s.boot.watchdogAt.all fun a => decide (max s.now t < a + 10 * ticksPerSec)) = false := by
      rw [hat, Option.all_some]
      exact decide_eq_false (Nat.not_lt.2 hlate)
    refine ⟨_, if_neg (not_or.2 ⟨not_not_intro hmode, not_or.2 ⟨by simp [hhalted], Bool.eq_false_iff.1 hdue⟩⟩), ?_⟩
    exact State.restarts_watchdog (s.advance t) e
  case wake =>
    intro s e t hmode hwake hcool hrails
    obtain ⟨h, hends, hmain, hpwr⟩ := (s.advance t).restarts_wakeStart e
    exact ⟨_, next_of_eq (State.wakeEvent_wakes hmode hwake hcool hrails), h.cls, h.prev, hpwr, hmain, hends, h.jobs⟩
  case held =>
    intro s e t hmode hwake hheat hcool
    have hhot : (s.advance t).cooled = false := by simp [State.cooled, hcool]
    exact ⟨_, next_of_eq ((if_neg (by simp [hmode, hwake])).trans (if_pos ⟨hheat, hhot⟩)), rfl, hmode⟩
  case mains =>
    intro s periods e t hmode hwake hcool hcause hmains hrails
    obtain ⟨h, hends, hmain, -⟩ := (s.advance t).restarts_wakeStart e
    refine ⟨_, next_of_eq ((if_pos ⟨.inl hcause, hmains⟩).trans
        (State.wakeEvent_wakes hmode hwake hcool hrails)), h.cls, h.prev, hmain, hends, h.jobs⟩
  case thermal =>
    intro s e t a hmode hwake hheld hcool hlate hrails
    obtain ⟨h, hends, hmain, -⟩ := (s.advance t).restarts_wakeStart e
    have hcooled : (s.advance t).cooled = true := by simp [State.cooled, hcool, hlate]
    exact ⟨_, next_of_eq ((if_pos ⟨hmode, hheld, hcooled, hwake⟩).trans (State.wakeNow_rails hrails)), h.cls, h.prev, hmain, hends, h.jobs⟩

/-- Settles O11: a reset that is asked for where no hold is in progress begins one, and each other row sets what it names. -/
theorem watchdogsHoldResetsForFuller : Obligations.WatchdogsHoldResetsForFuller := by
  unfold Obligations.WatchdogsHoldResetsForFuller
  refine ⟨?wrm, ?wdg, ?swp, ?legal, ?heartbeat, ?pending, ?expiry⟩
  case wrm =>
    intro s t hgasp hstandby hhold
    exact ⟨_, rfl, State.requestReset_hold (s := s.advance t) hgasp hstandby hhold⟩
  case wdg =>
    intro s t hruns hhold hlate
    obtain ⟨hgasp, hstandby⟩ := s.clusterRuns_mode hruns
    have hruns' : (s.advance t).clusterRuns = true := hruns
    refine ⟨_, next_of_eq (if_neg ?_), State.requestReset_hold (s := s.advance t) hgasp hstandby hhold⟩
    exact not_or.2 ⟨by simp [hruns'], Nat.not_lt.2 hlate⟩
  case swp =>
    intro s t a hruns hhold hswp hlate
    have hruns' : (s.advance t).clusterRuns = true := hruns
    refine ⟨_, ?_, congrArg Rst.hold (State.beginHold_rst { s.advance t with rst := { s.rst with swpAt := none } } .swf true),
      congrArg Rst.swpAt (State.beginHold_rst { s.advance t with rst := { s.rst with swpAt := none } } .swf true)⟩
    simp [exec, execSwpEscalation, hswp, hhold, hruns', Nat.not_lt.2 hlate]
  case legal =>
    intro s t a hgasp hstandby hhold hat hlate
    refine ⟨_, ?_, State.requestReset_hold (s := s.advance t) hgasp hstandby hhold⟩
    simp [exec, execLegalWatchdogEscalation, hat, Nat.not_lt.2 hlate]
  case heartbeat =>
    intro s t hruns
    have hruns' : (s.advance t).clusterRuns = true := hruns
    exact ⟨_, next_of_eq (if_neg (by simp [hruns'])), rfl, rfl, rfl⟩
  case pending =>
    intro s t hruns hlate
    have hruns' : (s.advance t).clusterRuns = true := hruns
    refine ⟨_, next_of_eq (if_neg ?_), congrArg Rst.watchdogPending (keeps_State_releaseOwner .rst (by decide))⟩
    exact not_or.2 ⟨by simp [hruns'], Nat.not_lt.2 hlate⟩
  case expiry =>
    intro s t hruns hat hlate
    refine ⟨_, next_of_eq (if_neg ?_), congrArg Bil.safe (keeps_State_event .bil (by decide)),
      congrArg Lgc.watchdogAt (keeps_State_event .lgc (by decide))⟩
    exact not_or.2 ⟨by simp [hruns], not_or.2 ⟨by simp [hat], Nat.not_lt.2 hlate⟩⟩

end Sys2Proof.Machine

/-! # Modes -/

namespace Sys2Proof.Machine

-- One theorem after the other: a thread for each would pass the memory limit of the check.
set_option Elab.async false

/-! ## What a change of mode leaves of its inputs -/

/-- The readings and the conditions that the mode follows stand. -/
structure State.sameInputs (s u : State) : Prop where
  vscap : u.pwr.vscap = s.pwr.vscap := by rfl
  power : u.pwr.powerMw = s.pwr.powerMw := by rfl
  overCap : u.pwr.overCap = s.pwr.overCap := by rfl
  thermal : u.pwr.thermal = s.pwr.thermal := by rfl
  temps : u.pwr.temps = s.pwr.temps := by rfl
  sensorFail : u.pwr.sensorFail = s.pwr.sensorFail := by rfl

theorem sameInputs_refl (s : State) : s.sameInputs s := {}

theorem State.sameInputs.then {s t u : State} (h : s.sameInputs t) (g : t.sameInputs u) : s.sameInputs u where
  vscap := g.vscap.trans h.vscap
  power := g.power.trans h.power
  overCap := g.overCap.trans h.overCap
  thermal := g.thermal.trans h.thermal
  temps := g.temps.trans h.temps
  sensorFail := g.sensorFail.trans h.sensorFail

theorem State.keepsBut.sameInputs {A : List Part} {s u : State} (h : s.keepsBut A u)
    (sub : Part.pwr ∉ A := by decide) : s.sameInputs u := by
  have hpwr : u.pwr = s.pwr := h .pwr sub
  exact { vscap := by rw [hpwr], power := by rw [hpwr], overCap := by rw [hpwr], thermal := by rw [hpwr], temps := by rw [hpwr],
          sensorFail := by rw [hpwr] }

theorem State.sameInputs.keep {A : List Part} {s t u : State} (h : s.sameInputs t) (g : t.keepsBut A u) (sub : Part.pwr ∉ A := by decide) :
    s.sameInputs u :=
  h.then (g.sameInputs sub)

theorem sameInputs_ite {s a b : State} {c : Prop} [Decidable c] (ha : s.sameInputs a) (hb : s.sameInputs b) :
    s.sameInputs (if c then a else b) := by
  split <;> assumption

theorem sameInputs_State_setMode {s : State} {m : Mode} {cause : Nat} : s.sameInputs (s.setMode m cause) := by
  unfold State.setMode
  extract_lets level old s1 a s2 s3
  refine sameInputs_ite (sameInputs_refl _) ?_
  have ha : s.sameInputs a := .keep (.keep {} keeps_State_raiseInt) keeps_State_note
  have h2 : s.sameInputs s2 := by
    unfold s2
    split
    · exact {}
    · split
      · exact ha.keep keeps_State_note
      · exact ha
  have h3 : s.sameInputs s3 := sameInputs_ite (h2.keep keeps_State_dispatch) (h2.keep keeps_State_raiseInt |>.keep keeps_State_setBudget)
  exact .keep (h3.keep keeps_State_route) keeps_State_fire

theorem sameInputs_State_endRide {s : State} : s.sameInputs s.endRide := by
  unfold State.endRide
  split
  · exact {}
  · exact {}

theorem sameInputs_State_gaspProgress {s : State} : s.sameInputs s.gaspProgress := by
  unfold State.gaspProgress
  refine sameInputs_ite ?_ (sameInputs_refl _)
  exact .then (sameInputs_ite (sameInputs_refl _) keeps_State_cleanClose.sameInputs) {}

theorem sameInputs_State_enterGasp {s : State} {cause : Nat} : s.sameInputs (s.enterGasp cause) := by
  unfold State.enterGasp
  refine sameInputs_ite {} ?_
  extract_lets s1 s2 s3 _ s4 s5 s6
  have h1 : s.sameInputs s1 := sameInputs_State_endRide.then sameInputs_State_setMode
  have h2 : s.sameInputs s2 := by
    unfold s2
    split
    · exact h1.keep keeps_State_note
    · exact h1
  have h3 : s.sameInputs s3 := .keep (.keep (h2.then {}) keeps_State_gaspTime) keeps_State_gaspHold
  have h4 : s.sameInputs s4 := .keep (h3.then {}) keeps_State_dropRecords
  have h6 : s.sameInputs s6 := h4.keep keeps_State_endExpert |>.keep keeps_State_abandonDeliveries |>.keep keeps_State_releaseOwner
    |>.keep keeps_State_sendLeave |>.keep keeps_State_sbEmit
  exact h6.keep keeps_State_stopFuller |>.then sameInputs_State_gaspProgress

theorem sameInputs_State_powered {s : State} : s.sameInputs s.powered := by
  unfold State.powered
  have hback {m : Mode} {cause : Nat} : s.sameInputs (s.endRide.setMode m cause) := sameInputs_State_endRide.then sameInputs_State_setMode
  exact sameInputs_ite sameInputs_State_setMode (sameInputs_ite hback hback)

theorem sameInputs_State_evaluate {s : State} : s.sameInputs s.evaluate := by
  unfold State.evaluate
  refine sameInputs_ite (sameInputs_refl _) ?_
  split
  · exact sameInputs_ite sameInputs_State_enterGasp (sameInputs_refl _)
  · exact sameInputs_refl _
  · refine sameInputs_ite sameInputs_State_enterGasp (sameInputs_ite (sameInputs_ite sameInputs_State_enterGasp (sameInputs_refl _)) ?_)
    refine sameInputs_ite sameInputs_State_powered (sameInputs_ite (sameInputs_ite (sameInputs_refl _) ?_) sameInputs_State_enterGasp)
    exact .then {} sameInputs_State_setMode

/-! ## The rules of precedence, branch by branch (R458) -/

/-- T_max has reached SHUTDOWN_C. -/
def State.shutsDown (s : State) : Bool := s.tMaxIs fun x => decide ((s.item iShutdownC : Int) ≤ x)

theorem State.evaluate_standby {s : State} (h : s.pwr.mode = .standby) : s.evaluate = s := by
  unfold State.evaluate
  split
  · rfl
  · simp only [h]

/-- A loss of supply in a start. -/
theorem State.evaluate_boot {s : State} (hmode : s.pwr.mode = .boot) (hhalted : s.boot.halted = false) (hcool : s.shutsDown = false)
    (hlow : s.pwr.pfailLow = true) : s.evaluate = s.enterGasp 3 := by
  unfold State.shutsDown at hcool
  unfold State.evaluate
  simp only [hmode, hhalted, hcool, hlow, Bool.false_eq_true, if_false, if_true]

/-- A mode in which the cluster runs. -/
theorem State.evaluate_running {s : State} (hruns : s.clusterRuns = true) (hhalted : s.boot.halted = false) (hcool : s.shutsDown = false) :
    s.evaluate = if s.mainsPresent = true then s.powered
      else if s.rideAllowed = true ∧ s.pwr.mode ≠ .recovery then
        if s.pwr.mode = .ride then s else (s.modPwr fun p => { p with rideStart := some s.now }).setMode .ride 3
      else s.enterGasp s.lossCause := by
  have hboot : s.pwr.mode ≠ .boot := fun hm => by simp [State.clusterRuns, hm] at hruns
  have hgasp : s.pwr.mode ≠ .gasp := (State.clusterRuns_mode hruns).1
  have hstandby : s.pwr.mode ≠ .standby := (State.clusterRuns_mode hruns).2
  unfold State.shutsDown at hcool
  unfold State.evaluate
  rw [if_neg (by simp [hhalted])]
  dsimp only
  split
  · contradiction
  · contradiction
  · rw [hcool, if_neg (by decide), if_neg hboot]

/-- PFAIL_N alone is the source, from step 15 on. -/
theorem State.mainsPresent_pin {s : State} (hsource : s.item iMainsSource = 1) : s.mainsPresent = !s.pwr.pfailLow := by
  unfold State.mainsPresent
  simp [hsource]

/-! ## Sensors (R461) -/

/-- The readings of the sensors, and their failures so far. -/
structure State.keepsSensors (s u : State) : Prop where
  temps : u.pwr.temps = s.pwr.temps
  failed : ∀ k, s.pwr.sensorFail.getLsbD k = true → u.pwr.sensorFail.getLsbD k = true

theorem State.keepsSensors.then {s t u : State} (h : s.keepsSensors t) (g : t.keepsSensors u) : s.keepsSensors u where
  temps := g.temps.trans h.temps
  failed k hk := g.failed k (h.failed k hk)

theorem State.failSensor_pwr (s : State) (n : Nat) :
    (s.failSensor n).pwr = { s.pwr with sensorFail := s.pwr.sensorFail ||| (1#4 <<< n) } := by
  have h : State.keepsBut (s.modPwr fun p => { p with sensorFail := p.sensorFail ||| (1#4 <<< n) }) [.way, .host, .limits, .regs, .out]
    (s.failSensor n) := keeps_State_raiseInt.within |>.then keeps_State_note
  exact h .pwr (by decide)

theorem State.keepsSensors_failSensor (s : State) (n : Nat) : s.keepsSensors (s.failSensor n) where
  temps := by rw [State.failSensor_pwr]
  failed k hk := by
    rw [State.failSensor_pwr, BitVec.getLsbD_or, hk, Bool.true_or]

theorem State.keepsSensors_sampleSensor (s : State) (n : Nat) : s.keepsSensors (s.sampleSensor n) := by
  unfold State.sampleSensor
  extract_lets t runs s1
  have h1 : s.keepsSensors s1 := ⟨rfl, fun _ hk => hk⟩
  split
  · exact h1
  · split
    · exact h1.then (s1.keepsSensors_failSensor n)
    · exact h1

/-- A sensor that reads outside −55 to 160 °C has failed after its part of the sample. -/
theorem State.sampleSensor_fails {s : State} {n : Nat} (hn : n < 4) (h : s.pwr.temps.getD n 0 < -55 ∨ 160 < s.pwr.temps.getD n 0) :
    (s.sampleSensor n).pwr.sensorFail.getLsbD n = true := by
  unfold State.sampleSensor
  extract_lets t runs s1
  split
  · next hfailed => exact hfailed
  · rw [if_pos (h.imp_right .inl), State.failSensor_pwr, BitVec.getLsbD_or]
    have hbit : (1#4 <<< n).getLsbD n = true := by simp [hn]
    rw [hbit, Bool.or_true]

theorem State.keepsSensors_sample {l : List Nat} (s : State) : s.keepsSensors (l.foldl State.sampleSensor s) := by
  induction l generalizing s with
  | nil => exact ⟨rfl, fun _ hk => hk⟩
  | cons n l ih => exact (s.keepsSensors_sampleSensor n).then (ih _)

theorem State.sample_fails {l : List Nat} {n : Nat} (hmem : n ∈ l) (hn : n < 4) (s : State)
    (h : s.pwr.temps.getD n 0 < -55 ∨ 160 < s.pwr.temps.getD n 0) : (l.foldl State.sampleSensor s).pwr.sensorFail.getLsbD n = true := by
  induction l generalizing s with
  | nil => cases hmem
  | cons m l ih =>
    have hm := s.keepsSensors_sampleSensor m
    rcases List.mem_cons.1 hmem with rfl | hrest
    · exact (State.keepsSensors_sample (s.sampleSensor n)).failed n (State.sampleSensor_fails hn h)
    · exact ih hrest _ (by rw [hm.temps]; exact h)

theorem State.keepsSensors_judgeHeat (s : State) : s.keepsSensors s.judgeHeat := by
  unfold State.judgeHeat
  extract_lets hyst throttle b2 two hot cool b2Hot b2Cool s1
  have h1 : s.sameInputs s1 := sameInputs_ite keeps_State_raiseInt.sameInputs (sameInputs_refl _)
  exact ⟨h1.temps, fun k hk => by show s1.pwr.sensorFail.getLsbD k = true; rw [h1.sensorFail]; exact hk⟩

/-! ## The power cap (R462) -/

/-- What is judged of a mean of input power. -/
theorem State.judgePower_pwr (s : State) (mw : Nat) : (s.judgePower mw).pwr =
    { s.pwr with powerMw := mw,
                 overCap := (s.pwr.overCap || decide (s.item iPowerCapMw ≠ 0 ∧ s.item iPowerCapMw < mw)) && decide (s.item iPowerCapMw ≠ 0),
                 overCapClearSince := since s.now (decide
                     (s.item iPowerCapMw = 0 ∨ 10 * mw < 9 * s.item iPowerCapMw)) s.pwr.overCapClearSince } := by
  unfold State.judgePower
  extract_lets cap above low s1
  have hkept : s.keepsBut [.way, .host, .limits, .regs, .out] s1 :=
    keepsBut_ite (keeps_State_raiseInt.within |>.then keeps_State_note) (keepsBut_refl _ _)
  have h1 : s1.pwr = s.pwr := hkept .pwr (by decide)
  show ({ s1.pwr with powerMw := mw, overCap := _, overCapClearSince := _ } : Pwr) = _
  rw [h1]

/-- What MODE_EVALUATION has judged before the mode is evaluated. -/
def State.judged (s : State) (vscap mw : Nat) : State :=
  let s1 := ((s.modPwr fun p => { p with vscap := vscap }).judgePower mw).endConditions
  s1.modPwr fun p => { p with metAssumed := p.metAssumed && !s1.cyc.mains && decide (s1.now < p.step15At + 2 * ticksPerSec) }

theorem State.keeps_judged (s : State) (vscap mw : Nat) : s.keepsBut [.way, .host, .limits, .regs, .out, .pwr] (s.judged vscap mw) :=
  keeps_State_modPwr.within |>.then keeps_State_judgePower |>.then keeps_State_endConditions |>.then keeps_State_modPwr

/-- What a judgement leaves as it was, and the two readings that it takes. -/
theorem State.judged_inputs (s : State) (vscap mw : Nat) :
    (s.judged vscap mw).pwr.mode = s.pwr.mode ∧ (s.judged vscap mw).pwr.testStart = s.pwr.testStart ∧
      (s.judged vscap mw).pwr.pfailLow = s.pwr.pfailLow ∧ (s.judged vscap mw).pwr.temps = s.pwr.temps ∧
      (s.judged vscap mw).pwr.sensorFail = s.pwr.sensorFail ∧ (s.judged vscap mw).pwr.vscap = vscap ∧
      (s.judged vscap mw).pwr.powerMw = mw := by
  have h := (s.modPwr fun p => { p with vscap := vscap }).judgePower_pwr mw
  exact ⟨(congrArg Pwr.mode h :), (congrArg Pwr.testStart h :), (congrArg Pwr.pfailLow h :), (congrArg Pwr.temps h :),
    (congrArg Pwr.sensorFail h :), (congrArg Pwr.vscap h :), (congrArg Pwr.powerMw h :)⟩

theorem State.judged_overCap (s : State) (vscap mw : Nat) : (s.judged vscap mw).pwr.overCap =
    ((State.judgePower (s.modPwr fun p => { p with vscap := vscap }) mw).pwr.overCap &&
      !clearedFor (State.judgePower (s.modPwr fun p => { p with vscap := vscap }) mw).now
        (State.judgePower (s.modPwr fun p => { p with vscap := vscap }) mw).pwr.overCapClearSince) := rfl

theorem State.judged_above {s : State} {vscap mw : Nat} (hcap : s.item iPowerCapMw ≠ 0) (habove : s.item iPowerCapMw < mw) :
    (s.judged vscap mw).pwr.overCap = true := by
  have hitem : (s.modPwr fun p => { p with vscap := vscap }).item iPowerCapMw = s.item iPowerCapMw := rfl
  have hlow : decide (s.item iPowerCapMw = 0 ∨ 10 * mw < 9 * s.item iPowerCapMw) = false := decide_eq_false (by omega)
  rw [State.judged_overCap, State.judgePower_pwr, hitem, hlow, decide_eq_true hcap, decide_eq_true ⟨hcap, habove⟩, Bool.or_true]
  rfl

theorem State.judged_within {s : State} {vscap mw : Nat} (hcap : mw ≤ s.item iPowerCapMw) (hbefore : s.pwr.overCap = false) :
    (s.judged vscap mw).pwr.overCap = false := by
  have hitem : (s.modPwr fun p => { p with vscap := vscap }).item iPowerCapMw = s.item iPowerCapMw := rfl
  have hover : (s.modPwr fun p => { p with vscap := vscap }).pwr.overCap = false := hbefore
  rw [State.judged_overCap, State.judgePower_pwr, hitem, hover, decide_eq_false fun h => absurd h.2 (Nat.not_lt.2 hcap), Bool.or_false,
    Bool.false_and, Bool.false_and]

theorem State.judged_cool {s : State} {vscap mw : Nat} (h : s.pwr.thermal = false) : (s.judged vscap mw).pwr.thermal = false := by
  have hthermal := (congrArg Pwr.thermal ((s.modPwr fun p => { p with vscap := vscap }).judgePower_pwr mw) :)
  show (Pwr.thermal _ && _) = false
  rw [hthermal]
  show (s.pwr.thermal && _) = false
  rw [h, Bool.false_and]

/-- A setting depends on the settings, and by default on the role and the fuses. -/
theorem State.itemBytes_of {s u : State} (hcfg : u.cfg = s.cfg) (hrole : u.boot.headEnd = s.boot.headEnd)
    (hfuses : u.sec.fuses = s.sec.fuses)
    (i : Nat) : u.itemBytes i = s.itemBytes i := by
  unfold State.itemBytes State.itemDefault
  rw [hcfg, hrole, hfuses]

theorem State.keepsBut.itemBytes {A : List Part} {s u : State} (h : s.keepsBut A u) (i : Nat)
    (sub : Part.cfg ∉ A ∧ Part.boot ∉ A ∧ Part.sec ∉ A := by decide) : u.itemBytes i = s.itemBytes i :=
  State.itemBytes_of (h .cfg sub.1) (congrArg Boot.headEnd (h .boot sub.2.1)) (congrArg Sec.fuses (h .sec sub.2.2)) i

theorem State.keepsBut.item {A : List Part} {s u : State} (h : s.keepsBut A u) (i : Nat)
    (sub : Part.cfg ∉ A ∧ Part.boot ∉ A ∧ Part.sec ∉ A := by decide) : u.item i = s.item i :=
  congrArg leNat (h.itemBytes i sub)

theorem State.shutsDown_of {s u : State} (hitem : u.item iShutdownC = s.item iShutdownC) (htemps : u.pwr.temps = s.pwr.temps)
    (hfail : u.pwr.sensorFail = s.pwr.sensorFail) : u.shutsDown = s.shutsDown := by
  unfold State.shutsDown State.tMaxIs State.tMax
  rw [htemps, hfail, hitem]

/-! ## Modes -/

/-- Where PFAIL_N alone is the source and is high, a mode in which the cluster runs, short of RECOVERY, follows the conditions. -/
theorem State.evaluate_supplied {s : State} (hruns : s.clusterRuns = true) (hhalted : s.boot.halted = false) (hcool : s.shutsDown = false)
    (hsource : s.item iMainsSource = 1) (hhigh : s.pwr.pfailLow = false) : s.evaluate = s.powered := by
  rw [State.evaluate_running hruns hhalted hcool, State.mainsPresent_pin hsource, hhigh, if_pos (by decide)]

theorem State.powered_throttles {s : State} (hmode : s.pwr.mode ≠ .recovery) (hcap : s.pwr.overCap = true) :
    s.powered.pwr.mode = .throttle := by
  unfold State.powered
  extract_lets p back cond why
  have hcond : cond = true := by simp [cond, p, hcap]
  rw [if_neg hmode, if_pos hcond, State.setMode_mode]

theorem State.powered_runs {s : State} (hmode : s.pwr.mode ≠ .recovery) (hcap : s.pwr.overCap = false) (hheat : s.pwr.thermal = false)
    (htest : s.pwr.testStart = false) : s.powered.pwr.mode = .run ∧ s.powered.pwr.budget = 0 := by
  unfold State.powered
  extract_lets p back cond why
  have hcond : cond = false := by simp [cond, p, hcap, hheat]
  rw [if_neg hmode, hcond, if_neg (by decide), htest, if_neg (by decide)]
  exact ⟨State.setMode_mode _ _ _, State.setMode_budget _ _ _⟩

theorem mem_range_four (n : Fin 4) : n.val ∈ [0, 1, 2, 3] := by
  revert n
  decide

/-- An evaluation of a running device with PFAIL_N as its source, high, and the device cool. -/
theorem State.evaluate_judged {s : State} {vscap mw : Nat} (hruns : s.clusterRuns = true) (hhalted : s.boot.halted = false)
    (hcool : s.shutsDown = false) (hsource : s.item iMainsSource = 1) (hhigh : s.pwr.pfailLow = false) :
    (s.judged vscap mw).evaluate = (s.judged vscap mw).powered := by
  have hkept := s.keeps_judged vscap mw
  obtain ⟨hmode, -, hpfail, htemps, hfail, -, -⟩ := s.judged_inputs vscap mw
  have hboot : (s.judged vscap mw).boot = s.boot := hkept .boot (by decide)
  refine State.evaluate_supplied ?_ ?_ ?_ ?_ (hpfail.trans hhigh)
  · unfold State.clusterRuns at hruns ⊢
    rw [hmode]
    exact hruns
  · rw [hboot]
    exact hhalted
  · rw [State.shutsDown_of (hkept.item iShutdownC) htemps hfail]
    exact hcool
  · rw [hkept.item iMainsSource]
    exact hsource

/-- A ride that is over, with no mains, ends in GASP with cause 5. -/
theorem State.evaluate_rideOver {s : State} (hmode : s.pwr.mode = .ride) (hhalted : s.boot.halted = false) (hcool : s.shutsDown = false)
    (hmains : s.mainsPresent = false) (hover : s.rideOver = true) : s.evaluate = s.enterGasp 5 := by
  have hruns : s.clusterRuns = true := by simp [State.clusterRuns, hmode]
  have hride : s.rideAllowed = false := by simp [State.rideAllowed, hover]
  have hcause : s.lossCause = 5 := by simp [State.lossCause, hmode, hover]
  rw [State.evaluate_running hruns hhalted hcool, hmains, if_neg (by decide), hride, if_neg (by simp), hcause]

/-- Settles O12: the mode that follows is the branch of `evaluate` that the inputs choose, and no evaluation changes a reading. -/
theorem modesFollowTheirInputs : Obligations.ModesFollowTheirInputs := by
  unfold Obligations.ModesFollowTheirInputs
  refine ⟨?pin, ?loss, ?throttle, ?run, ?ride, ?sample, ?clear, ?deadline, ?standby⟩
  case pin =>
    intro s low t hmode
    have hstay := State.evaluate_standby (s := (s.advance t).modPwr fun p => { p with pfailLow := low }) hmode
    exact ⟨_, next_of_eq hstay, rfl⟩
  case loss =>
    intro s t hmode hhalted hcool
    have hgasp := State.evaluate_boot (s := (s.advance t).modPwr fun p => { p with pfailLow := true }) hmode hhalted hcool rfl
    exact ⟨_, next_of_eq hgasp, State.enterGasp_pwr (by simp [State.modPwr, hmode])⟩
  case throttle =>
    intro s vscap mw t hmode hhalted hcap habove hsource _ hhigh hcool
    have hruns : (s.advance t).clusterRuns = true := by simp [State.clusterRuns, hmode]
    have heval := State.evaluate_judged (vscap := vscap) (mw := mw) hruns hhalted hcool hsource hhigh
    obtain ⟨hstill, -, -, -, -, hvscap, hpower⟩ := (s.advance t).judged_inputs vscap mw
    have hover := State.judged_above (s := s.advance t) (vscap := vscap) hcap habove
    have hsame := sameInputs_State_powered (s := (s.advance t).judged vscap mw)
    refine ⟨_, next_of_eq heval, hsame.vscap.trans hvscap, hsame.power.trans hpower, hsame.overCap.trans hover,
      State.powered_throttles (by simp [hstill, hmode]) hover⟩
  case run =>
    intro s vscap mw t hmode hhalted hcap hover hheat htest hsource _ hhigh hcool
    have hruns : (s.advance t).clusterRuns = true := by simp [State.clusterRuns, hmode]
    have heval := State.evaluate_judged (vscap := vscap) (mw := mw) hruns hhalted hcool hsource hhigh
    obtain ⟨hstill, htest', -, -, -, hvscap, -⟩ := (s.advance t).judged_inputs vscap mw
    have hsame := sameInputs_State_powered (s := (s.advance t).judged vscap mw)
    exact ⟨_, next_of_eq heval, hsame.vscap.trans hvscap, State.powered_runs (by simp [hstill, hmode])
      (State.judged_within (s := s.advance t) hcap hover) (State.judged_cool (s := s.advance t) hheat) (htest'.trans htest)⟩
  case ride =>
    intro s t hmode hhalted hmains hover _ hsource hcool
    have hmains' : (s.advance t).mainsPresent = false := (State.mainsPresent_pin (s := s.advance t) hsource).trans
      ((State.mainsPresent_pin hsource).symm.trans hmains)
    have hgasp := State.evaluate_rideOver (s := s.advance t) hmode hhalted hcool hmains' hover
    exact ⟨_, next_of_eq ((if_pos ⟨hmode, hover⟩).trans hgasp), State.enterGasp_pwr (by simp [hmode])⟩
  case sample =>
    intro s t0 t1 t2 t3 t
    have hsample := State.keepsSensors_sample (l := [0, 1, 2, 3]) ((s.advance t).modPwr fun p => { p with temps := [t0, t1, t2, t3] })
    have hheat := State.keepsSensors_judgeHeat
      (([0, 1, 2, 3] : List Nat).foldl State.sampleSensor ((s.advance t).modPwr fun p => { p with temps := [t0, t1, t2, t3] }))
    refine ⟨_, rfl, sameInputs_State_evaluate.temps.trans (hheat.temps.trans hsample.temps), fun n hn => ?_⟩
    rw [sameInputs_State_evaluate.sensorFail]
    exact hheat.failed n (State.sample_fails (mem_range_four n) n.isLt _ hn)
  case clear =>
    intro s t a hsince hlate
    refine ⟨_, rfl, sameInputs_State_evaluate.thermal.trans ?_⟩
    have hcleared : clearedFor (max s.now t) (some a) = true := decide_eq_true hlate
    show (s.pwr.thermal && !clearedFor (max s.now t) s.pwr.thermalClearSince) = false
    rw [hsince, hcleared, Bool.not_true, Bool.and_false]
  case deadline =>
    intro s t a hat hmode hstored hlate
    have hful : ((s.advance t).note cPwrGaspLate .operations .none 0 0).ful = s.ful := keeps_State_note .ful (by decide)
    refine ⟨{ (s.advance t).note cPwrGaspLate .operations .none 0 0 with
      ful := { ((s.advance t).note cPwrGaspLate .operations .none 0 0).ful with dirty := [] },
      pwr := { ((s.advance t).note cPwrGaspLate .operations .none 0 0).pwr with gaspStored := true } }, ?_, rfl, rfl,
      (congrArg Ful.cleanStart hful :)⟩
    simp only [exec, execGaspFullerDeadline, State.advance_pwr, hat, hmode, hstored]
    exact if_neg (not_or.2 ⟨by simp, not_or.2 ⟨by simp, Nat.not_lt.2 hlate⟩⟩)
  case standby =>
    intro s t a hat hmode hlate
    refine ⟨(s.advance t).enterStandby, ?_, rfl, rfl, rfl, rfl, rfl, pending_State_enterStandby _⟩
    simp only [exec, execStandbyEntry, State.advance_pwr, hat, hmode]
    exact next_of_eq (if_neg (not_or.2 ⟨by simp, Nat.not_lt.2 hlate⟩))

end Sys2Proof.Machine

/-! # Bounds -/

namespace Sys2Proof.Machine

-- One theorem after the other: a thread for each would pass the memory limit of the check.
set_option Elab.async false

/-- Where `s` is within the bounds of R407 and R423, so is `u`; and time has not run back. -/
structure State.bounded (s u : State) : Prop where
  now : s.now ≤ u.now := by exact le_rfl
  nonces : s.noncesBounded → u.noncesBounded := by exact id
  cache : s.cacheBounded → u.cacheBounded := by exact id
  requesters : s.requestersBounded → u.requestersBounded := by exact id

theorem bounded_refl (s : State) : s.bounded s := {}

theorem State.bounded.then {s t u : State} (h : s.bounded t) (g : t.bounded u) : s.bounded u where
  now := h.now.trans g.now
  nonces := g.nonces ∘ h.nonces
  cache := g.cache ∘ h.cache
  requesters := g.requesters ∘ h.requesters

/-- What leaves the nonces, the side-band and the time alone. -/
theorem State.bounded_of_eq {s u : State} (hnow : s.now ≤ u.now) (hnonces : u.sec.nonces = s.sec.nonces) (hcache : u.sb.cache = s.sb.cache)
    (hout : u.sb.outstanding = s.sb.outstanding) : s.bounded u where
  now := hnow
  nonces h := by unfold State.noncesBounded at h ⊢; rwa [hnonces]
  cache h := by unfold State.cacheBounded at h ⊢; rwa [hcache]
  requesters h := by unfold State.requestersBounded at h ⊢; rwa [hout]

theorem State.keepsBut.bounded {A : List Part} {s u : State} (h : s.keepsBut A u)
    (sub : Part.sec ∉ A ∧ Part.sb ∉ A ∧ Part.now ∉ A := by decide) : s.bounded u :=
  State.bounded_of_eq (h .now sub.2.2).ge (congrArg Sec.nonces (h .sec sub.1)) (congrArg Sb.cache (h .sb sub.2.1))
    (congrArg Sb.outstanding (h .sb sub.2.1))

theorem State.carries.bounded {s u : State} (h : s.carries u) : s.bounded u :=
  State.bounded_of_eq h.now h.nonces h.cache h.outstanding

theorem State.bounded.keep {A : List Part} {s t u : State} (h : s.bounded t) (g : t.keepsBut A u)
    (sub : Part.sec ∉ A ∧ Part.sb ∉ A ∧ Part.now ∉ A := by decide) : s.bounded u :=
  h.then (g.bounded sub)

theorem bounded_ite {s a b : State} {c : Prop} [Decidable c] (ha : s.bounded a) (hb : s.bounded b) : s.bounded (if c then a else b) := by
  split <;> assumption

theorem bounded_iteFst {α : Type} {s : State} {a b : State × α} {c : Prop} [Decidable c] (ha : s.bounded a.1) (hb : s.bounded b.1) :
    s.bounded (if c then a else b).1 := by
  split <;> assumption

theorem bounded_foldl {α : Type} {s i : State} {f : State → α → State} {l : List α} (hf : ∀ u a, s.bounded u → s.bounded (f u a))
    (hi : s.bounded i) : s.bounded (l.foldl f i) := by
  induction l generalizing i with
  | nil => exact hi
  | cons a l ih => exact ih (hf i a hi)

/-! ## Nonces (R407) -/

/-- A job that would enter a nonce finds room for it. -/
def State.nonceFits (s : State) (j : Job) : Prop :=
  ∀ a e, jobAuthority j.body.code = some a → j.hdr.envelope = some e → s.sec.nonces.length < 4096

theorem State.nonceFits_of_sec {s u : State} {j : Job} (h : s.nonceFits j) (hsec : u.sec = s.sec) : u.nonceFits j := fun a e ha he => by
  rw [hsec]
  exact h a e ha he

theorem bounded_State_enterNonce {s : State} {j : Job} (h : s.nonceFits j) : s.bounded (s.enterNonce j) := by
  unfold State.enterNonce
  split
  · next a e ha he =>
    have hfits := h a e ha he
    refine { nonces := fun _ => ?_ }
    show (s.sec.nonces ++ [_]).length ≤ 4096
    simpa using hfits
  · exact bounded_refl s

/-- A job whose envelope passes every check finds room for its nonce: the last of the checks is on the cache. -/
theorem State.nonceFits_of_signed {s : State} {j : Job} (h : s.signedReason j = none) : s.nonceFits j := fun a e ha he => by
  unfold State.signedReason at h
  rw [ha, he] at h
  by_contra hfull
  have hfull : 4096 ≤ s.sec.nonces.length := Nat.not_lt.1 hfull
  simp only [State.envelopeReason, hfull] at h
  split_ifs at h

theorem bounded_onAccept {s : State} {j : Job} {f : State → State} (hfits : s.nonceFits j)
    (hf : ∀ u, s.bounded u → s.bounded (f u)) : s.bounded (s.onAccept j f) := by
  unfold State.onAccept
  extract_lets posted s1
  have hkept : s.keepsBut [.limits, .way, .host, .cch, .regs, .out] posted.1 :=
    keepsBut_iteFst (keepsBut_refl _ _) keeps_State_post.within
  have hposted : s.bounded posted.1 := hkept.bounded
  have h1 : s.bounded s1 := hposted.then (bounded_State_enterNonce (State.nonceFits_of_sec hfits (hkept .sec (by decide)))) |>.keep
      keeps_State_openJob
  split
  · refine hf _ ?_
    split
    · exact h1.keep keeps_State_checkMet
    · exact h1.keep keeps_State_checkMet
    · exact h1
  · exact hposted.keep keeps_State_rejectJob

/-! ## Operations that touch SEC or the side-band -/

/-- A change in SEC that leaves the nonces. -/
theorem bounded_State_modSec {s : State} {f : Sec → Sec} (h : (f s.sec).nonces = s.sec.nonces := by rfl) : s.bounded (s.modSec f) :=
  State.bounded_of_eq le_rfl h rfl rfl

theorem bounded_State_setGen {s : State} {k : Nat} {e : GenEntry} :
    s.bounded (State.setGen s k e) :=
  bounded_ite (bounded_refl _) (State.bounded_of_eq le_rfl rfl rfl rfl)

theorem bounded_State_refuseAccess {s : State} {m : Master} {kind t addr : Nat} : s.bounded (s.refuseAccess m kind t addr) := by
  unfold State.refuseAccess
  extract_lets s1 _ s2
  have h1 : s.bounded s1 := keeps_State_bump.bounded
  have h2 : s1.bounded s2 := State.bounded_of_eq le_rfl rfl rfl rfl
  exact h1.then h2 |>.keep keeps_State_raiseInt |>.keep keeps_State_eventLimited

theorem bounded_State_fillMaster {s : State} {i : Nat} : s.bounded (s.fillMaster i) := State.bounded_of_eq le_rfl rfl rfl rfl

theorem bounded_State_readAnswer {s : State} {m : Master} {a : Nat} {size : Nat} :
    s.bounded (State.readAnswer s m a size).1 := by
  unfold State.readAnswer
  split
  · exact keeps_State_emit.bounded
  · exact keeps_State_countError.bounded |>.keep keeps_State_emit
  · exact bounded_refl _
  · exact bounded_State_refuseAccess |>.keep keeps_State_emit
  · exact keeps_State_masterRead.bounded

theorem bounded_State_deviceRead {s : State} {m : Master} {fetch : Bool} {p : Nat} {n : Nat} :
    s.bounded (State.deviceRead s m fetch p n).1 := by
  unfold State.deviceRead
  extract_lets kind
  split
  · exact keeps_State_unmapped.bounded
  · exact bounded_State_readAnswer
  · exact bounded_State_refuseAccess |>.keep keeps_State_emit
  · exact keeps_State_drawn.bounded

theorem bounded_State_spaceRead {s : State} {sp : Space} {m : Master} {fetch : Bool} {a : Nat} {n : Nat} :
    s.bounded (State.spaceRead s sp m fetch a n).1 := by
  unfold State.spaceRead
  split
  · exact bounded_State_readAnswer
  · exact keeps_State_bar4Read.bounded
  · refine bounded_iteFst (bounded_refl _) ?_
    split
    · exact keeps_State_emit.bounded
    · exact bounded_State_deviceRead
  · exact bounded_State_deviceRead

theorem bounded_State_readWords {s : State} {m : Master} {a n : Nat} : s.bounded (s.readWords m a n).1 := by
  induction n generalizing s a with
  | zero => exact bounded_refl s
  | succ n ih => exact bounded_State_readAnswer.then ih

/-! ## Writes -/

theorem bounded_State_writeBarred {s u : State} {m : Master} {a size : Nat} (h : s.writeBarred m a size = some u) : s.bounded u := by
  unfold State.writeBarred at h
  split at h
  · cases h; exact keeps_State_emit.bounded
  · cases h; exact keeps_State_countError.bounded.keep keeps_State_emit
  · cases h; exact keeps_State_ignoreWrite.bounded
  · cases h; exact bounded_State_refuseAccess.keep keeps_State_emit
  · cases h

theorem bounded_State_writeKeyDestroy {s : State} {r : RegRow} {v : Word} : s.bounded (s.writeKeyDestroy r v) := by
  unfold State.writeKeyDestroy
  extract_lets k s1
  have h1 : s.bounded s1 := keeps_State_storeBits.bounded
  exact bounded_ite keeps_State_ignoreWrite.bounded (bounded_ite h1 (h1.then bounded_State_modSec))

theorem bounded_State_writeAcc {s : State} {a : Nat} {v : Word} : s.bounded (s.writeAcc a v) := by
  unfold State.writeAcc
  extract_lets t e lo e1
  exact bounded_State_modSec

theorem bounded_State_writeRegister {s : State} {m : Master} {r : RegRow} {a : Nat} {v : Word} : s.bounded (s.writeRegister m r a v) := by
  unfold State.writeRegister
  refine bounded_ite keeps_State_ignoreWrite.bounded (bounded_ite bounded_State_writeKeyDestroy (bounded_ite bounded_State_writeAcc ?_))
  refine bounded_ite keeps_State_writePort.bounded (bounded_ite keeps_State_writePort.bounded (bounded_ite
      keeps_State_writeQueue.bounded ?_))
  refine bounded_ite keeps_State_advanceFwRead.bounded (bounded_ite ?_ keeps_State_storeBits.bounded)
  exact keeps_State_storeBits.bounded.keep keeps_State_checkThreshold

theorem bounded_State_masterWrite {s : State} {m : Master} {a size : Nat} {v : Word} : s.bounded (s.masterWrite m a size v) := by
  unfold State.masterWrite
  split
  · next hbar => exact bounded_State_writeBarred hbar
  · split
    · exact keeps_State_ignoreWrite.bounded
    · exact bounded_State_writeRegister

theorem bounded_State_deviceWrite {s : State} {m : Master} {p : Nat} {n : Nat} {v : Word} :
    s.bounded (State.deviceWrite s m p n v) := by
  unfold State.deviceWrite
  split
  · exact keeps_State_unmapped.bounded
  · exact bounded_State_masterWrite
  · exact bounded_State_refuseAccess |>.keep keeps_State_emit
  · exact bounded_ite keeps_State_storeBytes.bounded keeps_State_emit.bounded

theorem bounded_State_spaceWrite {s : State} {sp : Space} {m : Master} {a : Nat} {n : Nat} {v : Word} :
    s.bounded (State.spaceWrite s sp m a n v) := by
  unfold State.spaceWrite
  split
  · exact bounded_State_masterWrite
  · exact keeps_State_bar4Write.bounded
  · refine bounded_ite (bounded_refl _) ?_
    split
    · exact keeps_State_emit.bounded
    · exact bounded_State_deviceWrite
  · exact bounded_State_deviceWrite

theorem bounded_State_applyJob {s : State} {i : Nat} {b : JobBody} :
    s.bounded (State.applyJob s i b) := by
  unfold State.applyJob
  split
  · exact keeps_State_modPlc.bounded |>.keep keeps_State_evict |>.keep keeps_State_setCtx |>.then bounded_State_fillMaster |>.keep
      keeps_State_journalContext |>.keep keeps_State_toTroika
  · exact keeps_State_dropMeter.bounded |>.keep keeps_State_evict |>.keep keeps_State_setCtx |>.then bounded_State_fillMaster |>.keep
      keeps_State_journalContext
  · exact bounded_ite (bounded_refl _) (keeps_State_evict.bounded |>.keep keeps_State_setCtx |>.then bounded_State_fillMaster |>.keep
      keeps_State_journalContext)
  · exact keeps_State_setCtx.bounded |>.keep keeps_State_journalContext
  · exact keeps_State_setCtx.bounded |>.keep keeps_State_journalContext
  · exact bounded_refl _

theorem bounded_State_applyOp {s : State} {lane : Fin 4} {i : Option Nat} {x : CtxOp} :
    s.bounded (State.applyOp s lane i x) := by
  unfold State.applyOp
  split
  · split
    · exact bounded_State_applyJob |>.keep keeps_State_finishOp
    · exact bounded_refl _
  · split
    · exact bounded_ite keeps_State_answerOp.bounded keeps_State_toTroika.bounded
    · exact bounded_refl _
  · exact keeps_State_applyFreeze.bounded
  · split
    · exact keeps_State_applySync.bounded
    · exact bounded_refl _
  · exact keeps_State_passBarrier.bounded

theorem bounded_State_setKeySlot {s : State} {k : Nat} {v : KeySlot} :
    s.bounded (State.setKeySlot s k v) :=
  bounded_State_modSec

theorem bounded_State_invalidate {s : State} {k : Nat} {version : Nat} :
    s.bounded (State.invalidate s k version) :=
  .keep (.keep (.keep (.keep (bounded_foldl (fun _ _ h => h |>.then bounded_State_setKeySlot) (bounded_foldl (fun _ _ h => h
      |>.then bounded_State_setGen) bounded_State_setGen)) keeps_State_raiseInt) keeps_State_note) keeps_State_bumpBy) keeps_State_purgeWays

theorem bounded_State_rejectAccess {s : State} {j : Job} {page : Nat} {kind : Nat} :
    s.bounded (State.rejectAccess s j page kind) :=
  bounded_State_refuseAccess |>.keep keeps_State_rejectJob

theorem bounded_State_sendReset {s : State} {j : Job} {d : NodeId} :
    s.bounded (State.sendReset s j d) := by
  unfold State.sendReset
  refine bounded_ite keeps_State_rejectJob.bounded ?_
  split
  · exact bounded_State_rejectAccess
  · exact bounded_ite keeps_State_rejectJob.bounded (keeps_State_openJob.bounded |>.keep keeps_State_hwlSend |>.keep keeps_State_jobDone)

/-! ## Jobs: each handler accepts its job at most once -/

theorem bounded_State_runReadMeter {s : State} {j : Job} {g : Gmn} {obis : BitVec 48} {priority : Nat} {medium : Nat}
    (hfits : s.nonceFits j) :
    s.bounded (State.runReadMeter s j g obis priority medium) :=
  bounded_ite keeps_State_rejectJob.bounded (bounded_ite keeps_State_rejectJob.bounded (bounded_ite keeps_State_rejectJob.bounded
      (bounded_onAccept hfits (fun _ h => h |>.keep keeps_State_pushRequest |>.keep keeps_State_topUpIssues))))

theorem bounded_State_runSnapshot {s : State} {j : Job} {group : Nat} {all : Bool} {lead : Nat} {gmns : List Gmn} (hfits : s.nonceFits j) :
    s.bounded (State.runSnapshot s j group all lead gmns) := by
  unfold State.runSnapshot
  refine bounded_ite keeps_State_rejectJob.bounded ?_
  refine bounded_ite keeps_State_rejectJob.bounded ?_
  refine bounded_ite keeps_State_rejectJob.bounded ?_
  refine bounded_ite ?_ (bounded_ite keeps_State_rejectJob.bounded (bounded_onAccept hfits (fun _ h => h |>.keep
      keeps_State_beginSnapshot)))
  split
  · exact keeps_State_rejectJob.bounded
  · exact bounded_onAccept hfits (fun _ h => h |>.keep keeps_State_relaySnapshot)

theorem bounded_State_runRegisterRead {s : State} {j : Job} {offset : Nat} {words : Nat} (hfits : s.nonceFits j) :
    s.bounded (State.runRegisterRead s j offset words) :=
  bounded_ite keeps_State_rejectJob.bounded (bounded_onAccept hfits (fun _ h => h |>.then bounded_State_readWords |>.keep
      keeps_State_finishJob))

theorem bounded_State_runMeterState {s : State} {j : Job} {g : Gmn} {parts : BitVec 8} (hfits : s.nonceFits j) :
    s.bounded (State.runMeterState s j g parts) := by
  unfold State.runMeterState
  split
  · exact keeps_State_rejectJob.bounded
  · exact bounded_onAccept hfits (fun _ h => h |>.keep keeps_State_finishJob)

theorem bounded_State_runAttest {s : State} {j : Job} {nonce : BitVec 256} (hfits : s.nonceFits j) :
    s.bounded (State.runAttest s j nonce) :=
  bounded_ite keeps_State_rejectJob.bounded (bounded_onAccept hfits (fun _ h => h |>.then bounded_State_modSec |>.keep keeps_State_bump
      |>.keep keeps_State_drawn |>.keep keeps_State_finishJob))

theorem bounded_State_runCancel {s : State} {j : Job} {tag : BitVec 16} (hfits : s.nonceFits j) :
    s.bounded (State.runCancel s j tag) :=
  bounded_ite (bounded_onAccept hfits (fun _ h => h |>.keep keeps_State_completeTxn |>.keep keeps_State_jobDone)) (bounded_onAccept hfits
      (fun _ h => h |>.keep keeps_State_finishJob))

theorem bounded_State_runTrigger {s : State} {j : Job} {entry : Nat} {source : Nat} {due : Nat} {period : Nat} {m : TriggerTemplate}
    (hfits : s.nonceFits j) :
    s.bounded (State.runTrigger s j entry source due period m) :=
  bounded_ite keeps_State_rejectJob.bounded (bounded_ite (bounded_onAccept hfits (fun _ h => h |>.keep keeps_State_setTrigger |>.keep
      keeps_State_jobDone)) (bounded_ite keeps_State_rejectJob.bounded (bounded_onAccept hfits (fun _ h => h |>.keep
      keeps_State_setTrigger |>.keep keeps_State_jobDone))))

theorem bounded_State_runPulse {s : State} {j : Job} {output : Nat} {startSec : Nat} {startNs : Nat} {period : Nat} {width : Nat}
    (hfits : s.nonceFits j) :
    s.bounded (State.runPulse s j output startSec startNs period width) :=
  bounded_ite keeps_State_rejectJob.bounded (bounded_onAccept hfits (fun _ h => h |>.keep keeps_State_setPulse |>.keep keeps_State_jobDone))

theorem bounded_State_runHostTime {s : State} {j : Job} {sec : Nat} {ns : Nat} (hfits : s.nonceFits j) :
    s.bounded (State.runHostTime s j sec ns) :=
  bounded_ite keeps_State_rejectJob.bounded (bounded_onAccept hfits (fun _ h => .keep (bounded_ite (h |>.keep
      keeps_State_passSample) h) keeps_State_jobDone))

theorem bounded_State_runContextOp {s : State} {j : Job} {g : Gmn} (hfits : s.nonceFits j) :
    s.bounded (State.runContextOp s j g) := by
  unfold State.runContextOp
  split
  · exact keeps_State_rejectJob.bounded
  · exact bounded_onAccept hfits (fun _ h => h |>.keep keeps_State_sequenceWork)

theorem bounded_State_runMembership {s : State} {j : Job} {g : Gmn} {regPhase : Nat} (hfits : s.nonceFits j) :
    s.bounded (State.runMembership s j g regPhase) :=
  bounded_ite keeps_State_rejectJob.bounded (bounded_State_runContextOp hfits)

theorem bounded_State_runBundle {s : State} {j : Job} {b : RelayBundle} (hfits : s.nonceFits j) :
    s.bounded (State.runBundle s j b) :=
  bounded_ite (keeps_State_entranceDrop.bounded |>.keep keeps_State_rejectJob) (bounded_onAccept hfits (fun _ h => h |>.keep
      keeps_State_ingestFrame |>.keep keeps_State_jobDone))

theorem bounded_State_runTariff {s : State} {j : Job} {slot : Nat} {x : TariffSet} (hfits : s.nonceFits j) :
    s.bounded (State.runTariff s j slot x) :=
  bounded_ite keeps_State_rejectOwner.bounded (bounded_ite keeps_State_rejectJob.bounded (bounded_ite keeps_State_rejectJob.bounded
      (bounded_ite keeps_State_rejectJob.bounded (bounded_ite keeps_State_rejectJob.bounded (bounded_onAccept hfits (fun _ h => h
      |>.keep keeps_State_toFuller))))))

theorem bounded_State_runLegal {s : State} {j : Job} {g : Gmn} {op : LegalOp} {owned : Bool} (hfits : s.nonceFits j) :
    s.bounded (State.runLegal s j g op owned) := by
  unfold State.runLegal
  refine bounded_ite keeps_State_rejectOwner.bounded ?_
  split
  · exact keeps_State_rejectJob.bounded
  · exact bounded_ite keeps_State_rejectJob.bounded (bounded_ite keeps_State_rejectJob.bounded (bounded_onAccept hfits (fun _ h => h
      |>.keep keeps_State_sequenceWork)))

theorem bounded_State_runEnrol {s : State} {j : Job} {a : EnrolArgs} (hfits : s.nonceFits j) :
    s.bounded (State.runEnrol s j a) := by
  unfold State.runEnrol
  refine bounded_ite keeps_State_rejectJob.bounded ?_
  split
  · exact keeps_State_rejectJob.bounded
  · exact bounded_ite keeps_State_rejectJob.bounded (bounded_ite keeps_State_unwrapFails.bounded (bounded_onAccept hfits (fun _ h => h
      |>.keep keeps_State_sequenceWork)))

theorem bounded_State_runKeyChange {s : State} {j : Job} {g : Gmn} {slot : Nat} {ek : BitVec 192} {ak : BitVec 192}
    (hfits : s.nonceFits j) :
    s.bounded (State.runKeyChange s j g slot ek ak) := by
  unfold State.runKeyChange
  split
  · exact keeps_State_rejectJob.bounded
  · exact bounded_ite keeps_State_unwrapFails.bounded (bounded_onAccept hfits (fun _ h => h |>.keep keeps_State_sequenceWork))

theorem bounded_State_runDesignate {s : State} {j : Job} {range : Nat} {trueNode : NodeId} {slots : Option (List Nat)}
    (hfits : s.nonceFits j) :
    s.bounded (State.runDesignate s j range trueNode slots) :=
  bounded_ite keeps_State_rejectJob.bounded (bounded_ite (bounded_onAccept hfits (fun _ h => h |>.keep keeps_State_finishJob))
      (bounded_ite keeps_State_rejectJob.bounded (bounded_ite (bounded_onAccept hfits (fun _ h => .keep (bounded_foldl (fun _ _ h => h
      |>.keep keeps_State_sendDesignated) h) keeps_State_jobDone)) (bounded_ite (bounded_onAccept hfits (fun _ h => .keep (bounded_foldl
      (fun _ _ h => bounded_ite h (h |>.keep keeps_State_hwlSend)) h) keeps_State_jobDone)) keeps_State_rejectJob.bounded))))

theorem bounded_State_runClaim {s : State} {j : Job} (hfits : s.nonceFits j) :
    s.bounded (State.runClaim s j) :=
  bounded_onAccept hfits (fun _ h => h |>.keep keeps_State_modHwl |>.keep keeps_State_claim |>.keep keeps_State_jobDone)

theorem bounded_State_runRelease {s : State} {j : Job} (hfits : s.nonceFits j) :
    s.bounded (State.runRelease s j) :=
  bounded_onAccept hfits (fun _ h => .keep (bounded_ite (h |>.keep keeps_State_releaseOwner) h) keeps_State_jobDone)

theorem bounded_State_runForget {s : State} {j : Job} (hfits : s.nonceFits j) :
    s.bounded (State.runForget s j) :=
  bounded_onAccept hfits (fun _ h => h |>.keep keeps_with_nor_hwl |>.keep keeps_State_jobDone |>.keep keeps_State_requestReset)

theorem bounded_State_runWallTimeStep {s : State} {j : Job} {window : Nat} {maxStep : Nat} (hfits : s.nonceFits j) :
    s.bounded (State.runWallTimeStep s j window maxStep) :=
  bounded_ite keeps_State_rejectJob.bounded (bounded_ite (bounded_onAccept hfits (fun _ h => h |>.keep keeps_State_finishJob))
      (bounded_ite keeps_State_rejectJob.bounded (bounded_onAccept hfits (fun _ h => h |>.keep keeps_State_modTim |>.keep
      keeps_State_jobDone))))

theorem bounded_State_runClearLog {s : State} {j : Job} {log : Nat} (hfits : s.nonceFits j) :
    s.bounded (State.runClearLog s j log) := by
  unfold State.runClearLog
  split
  · exact keeps_State_rejectJob.bounded
  · exact bounded_ite keeps_State_rejectJob.bounded (bounded_onAccept hfits (fun _ h => h |>.keep keeps_State_clearLog))

theorem bounded_State_runExpert {s : State} {j : Job} {duration : Nat} (hfits : s.nonceFits j) :
    s.bounded (State.runExpert s j duration) :=
  bounded_ite keeps_State_rejectJob.bounded (bounded_ite (bounded_onAccept hfits (fun _ h => h |>.keep keeps_State_finishJob))
      (bounded_onAccept hfits (fun _ h => .keep (.keep (bounded_ite h (h |>.keep keeps_State_event)) keeps_with_boot) keeps_State_jobDone)))

theorem bounded_State_runDebugToken {s : State} {j : Job} {x : List Byte} (hfits : s.nonceFits j) :
    s.bounded (State.runDebugToken s j x) := by
  unfold State.runDebugToken
  refine bounded_ite keeps_State_rejectJob.bounded ?_
  refine bounded_ite keeps_State_rejectJob.bounded ?_
  refine bounded_ite (bounded_onAccept hfits (fun _ h => h |>.keep keeps_State_finishJob)) ?_
  split
  · exact keeps_State_rejectJob.bounded
  · exact bounded_onAccept hfits (fun _ h => h |>.then bounded_State_modSec |>.keep keeps_State_bump |>.keep keeps_State_jobDone)

theorem bounded_State_runDelivery {s : State} {j : Job} {tag : BitVec 32} {offset : Nat} {total : Nat} {part : Nat} {block : List Byte}
    {fails : Bool} (hfits : s.nonceFits j) :
    s.bounded (State.runDelivery s j tag offset total part block fails) := by
  unfold State.runDelivery
  refine bounded_ite keeps_State_rejectBlock.bounded ?_
  refine bounded_ite ?_ ?_
  · refine bounded_onAccept hfits (fun _ h => ?_)
    split
    · exact h |>.keep keeps_State_finishJob
    · exact h |>.keep keeps_State_finishJob
  · refine bounded_ite (bounded_ite keeps_State_rejectBlock.bounded (bounded_onAccept hfits (fun _ h => h |>.keep
      keeps_State_openDelivery |>.keep keeps_State_takeBlock))) ?_
    split
    · exact keeps_State_rejectBlock.bounded
    · exact bounded_ite keeps_State_rejectBlock.bounded (bounded_ite keeps_State_rejectBlock.bounded (bounded_onAccept hfits
        (fun _ h => h |>.keep keeps_State_takeBlock)))

theorem bounded_State_runCampaign {s : State} {j : Job} {a : CampaignArgs} (hfits : s.nonceFits j) :
    s.bounded (State.runCampaign s j a) := by
  unfold State.runCampaign
  refine bounded_ite keeps_State_rejectJob.bounded ?_
  refine bounded_ite ?_ ?_
  · split
    · exact keeps_State_rejectJob.bounded
    · exact bounded_onAccept hfits (fun _ h => h |>.keep keeps_State_campBroadcast |>.keep keeps_State_endCampaign |>.keep
        keeps_State_jobDone)
  · refine bounded_ite (bounded_onAccept hfits (fun _ h => h |>.keep keeps_State_finishJob)) ?_
    refine bounded_ite keeps_State_rejectJob.bounded ?_
    split
    · exact bounded_onAccept hfits (fun _ h => h |>.keep keeps_State_setCamp |>.keep keeps_State_bump |>.keep keeps_with_upd |>.keep
        keeps_State_postCamp)
    · exact keeps_State_rejectJob.bounded

theorem bounded_State_runReset {s : State} {j : Job} {swp : Bool} (hfits : s.nonceFits j) :
    s.bounded (State.runReset s j swp) :=
  bounded_onAccept hfits (fun _ h => bounded_ite (h |>.keep keeps_State_jobDone |>.keep keeps_State_requestPartial) (h |>.keep
      keeps_State_jobDone |>.keep keeps_State_requestReset))

theorem bounded_State_runBootHeader {s : State} {j : Job} {h : BootHeader} {fails : Bool} (hfits : s.nonceFits j) :
    s.bounded (State.runBootHeader s j h fails) :=
  bounded_ite keeps_State_rejectJob.bounded (bounded_onAccept hfits (fun _ h => bounded_ite (h |>.keep keeps_with_nor |>.keep
      keeps_State_event |>.keep keeps_State_jobFailed) (h |>.keep keeps_with_nor |>.keep keeps_State_event |>.keep keeps_State_jobDone)))

theorem bounded_State_runJob {s : State} {j : Job} (hfits : s.nonceFits j) : s.bounded (s.runJob j) := by
  unfold State.runJob
  split
  · exact bounded_State_runReadMeter hfits
  · exact bounded_State_runSnapshot hfits
  · exact bounded_State_runRegisterRead hfits
  · exact bounded_State_runMeterState hfits
  · exact bounded_State_runAttest hfits
  · exact bounded_State_runCancel hfits
  · exact bounded_State_runTrigger hfits
  · exact bounded_State_runPulse hfits
  · exact bounded_State_runHostTime hfits
  · exact bounded_State_runMembership hfits
  · exact bounded_State_runBundle hfits
  · exact bounded_State_runTariff hfits
  · exact bounded_State_runLegal hfits
  · exact bounded_State_runLegal hfits
  · exact bounded_State_runLegal hfits
  · exact bounded_State_runLegal hfits
  · exact bounded_State_runEnrol hfits
  · exact bounded_State_runContextOp hfits
  · exact bounded_State_runKeyChange hfits
  · exact bounded_State_runContextOp hfits
  · exact bounded_State_runDesignate hfits
  · exact bounded_State_runClaim hfits
  · exact bounded_State_runRelease hfits
  · exact bounded_State_runForget hfits
  · exact bounded_State_runWallTimeStep hfits
  · exact bounded_State_runClearLog hfits
  · exact bounded_State_runExpert hfits
  · exact bounded_State_runDebugToken hfits
  · exact bounded_State_runDelivery hfits
  · exact bounded_State_runCampaign hfits
  · exact bounded_State_runReset hfits
  · exact bounded_State_runBootHeader hfits
  · exact keeps_State_rejectJob.bounded

theorem bounded_State_acceptAndRun {s : State} {j : Job} {run : State → State} (hrun : s.nonceFits j → s.bounded (run s)) :
    s.bounded (s.acceptAndRun j run) := by
  unfold State.acceptAndRun
  refine bounded_ite keeps_State_rejectJob.bounded (bounded_ite keeps_State_rejectJob.bounded ?_)
  split
  · exact bounded_State_rejectAccess
  · split
    · exact keeps_State_rejectJob.bounded
    · next hsigned => exact hrun (State.nonceFits_of_signed hsigned)

theorem bounded_State_takeJob {s : State} {j : Job} : s.bounded (s.takeJob j) := by
  have hbump : s.bounded (s.bump cPciJobsIn) := keeps_State_bump.bounded
  have hreject {u : State} {r : Reason} (hu : s.bounded u) : s.bounded (u.rejectJob j.hdr.ref r) := hu.keep keeps_State_rejectJob
  unfold State.takeJob
  refine bounded_ite (hreject (hbump.keep keeps_State_bump |>.keep keeps_State_raiseInt)) (bounded_ite (hreject hbump)
    (bounded_ite (hreject hbump) (bounded_ite (hreject (hbump.keep keeps_State_bump)) (bounded_ite (hreject hbump) ?_))))
  split
  · exact hbump.keep keeps_State_forwardJob
  · refine bounded_ite (hreject hbump) ?_
    split
    · exact hbump.then bounded_State_sendReset
    · exact hbump.then (bounded_State_acceptAndRun fun hfits => bounded_ite keeps_State_rejectJob.bounded (bounded_State_runJob hfits))

theorem bounded_State_intake {s : State} {j : Job} : s.bounded (s.intake j) := by
  unfold State.intake
  split
  · refine bounded_ite (bounded_refl _) (bounded_ite keeps_State_visit.bounded (.then ?_ bounded_State_takeJob))
    exact keeps_State_visit.bounded.keep keeps_State_setCq |>.keep keeps_State_raiseInt
  · exact bounded_ite (bounded_refl _) bounded_State_takeJob
  · exact bounded_ite (bounded_refl _) bounded_State_takeJob
  · exact bounded_ite (bounded_refl _) bounded_State_takeJob

/-! ## Messages and packets -/

theorem bounded_State_deliverMessage {s : State} {p : Fin 2} {i : Fin 32} {b : EthBody} :
    s.bounded (State.deliverMessage s p i b) := by
  unfold State.deliverMessage
  split
  · exact bounded_State_takeJob
  · exact bounded_ite keeps_State_fieldReport.bounded (bounded_refl _)
  · exact keeps_State_ingestFrame.bounded
  · exact keeps_with_eth.bounded
  · exact bounded_refl _

theorem bounded_State_takeMessage {s : State} {p : Fin 2} {i : Fin 32} {m : EthMsg} :
    s.bounded (State.takeMessage s p i m) :=
  bounded_ite (bounded_ite (bounded_refl _) (keeps_State_setAssoc.bounded |>.keep keeps_State_bump)) (bounded_ite
      keeps_State_setAssoc.bounded (bounded_ite (bounded_refl _) (bounded_ite (keeps_State_setAssoc.bounded
      |>.then bounded_State_deliverMessage) (keeps_State_setAssoc.bounded |>.keep keeps_State_bump))))

theorem bounded_State_messageFrame {s : State} {p : Fin 2} {f : EthFrame} :
    s.bounded (State.messageFrame s p f) := by
  unfold State.messageFrame
  split
  · exact keeps_State_bump.bounded
  · split
    · exact bounded_ite keeps_State_bump.bounded (bounded_ite (keeps_State_raiseInt.bounded |>.keep keeps_State_note) (bounded_ite
        (keeps_State_noteEpoch.bounded |>.keep keeps_State_takeAck) (keeps_State_noteEpoch.bounded |>.keep keeps_State_takeAck
        |>.then bounded_State_takeMessage)))
    · exact keeps_State_bump.bounded

theorem bounded_State_dispatchFrame {s : State} {p : Fin 2} {f : EthFrame} :
    s.bounded (State.dispatchFrame s p f) := by
  unfold State.dispatchFrame
  split
  · exact keeps_State_bump.bounded
  · exact bounded_ite keeps_State_bump.bounded (bounded_ite bounded_State_messageFrame (bounded_ite keeps_State_bump.bounded
      (bounded_refl _)))

/-- The state in which a packet that arrived in order is looked at: counted, its credit returned, and acknowledged in time
    (R357 to R359). -/
def State.received (s : State) (l : HwlHeader) : State :=
  let p := l.port.val
  let v := s.hport p
  let v1 := { v with expectRx := v.expectRx + 1, ackSince := some (v.ackSince.getD s.now), unacked := v.unacked + 1, nakSent := false }
  let s1 := ((s.setHport p v1).bump (cPortPacketsRx p)).word p (creditWord l.vc l.cls ((16 + l.payload.length + 4 + 63) / 64))
  let s2 := if 16 ≤ v1.unacked then s1.sendAckWord p else s1
  if s2.partner = some l.src.toNat then s2.modHwl fun h => { h with partnerHeard := s2.now } else s2

theorem State.hwlReceive_eq (s : State) (l : HwlHeader) (typ : Nat) (deliver : State → State) : s.hwlReceive l typ deliver =
    if (s.hport l.port.val).state ≠ .up then s
    else if l.lcrcOk = false then (s.bump (cPortLcrcFail l.port.val)).sendNak l.port.val
    else if l.lseq ≠ (s.hport l.port.val).expectRx then (if (s.hport l.port.val).nakSent = true then s else s.sendNak l.port.val)
    else if packetFits l typ = false then (s.received l).bump (cPortTypeInvalid l.port.val)
    else if l.flood = false ∧ l.dst ≠ s.hwl.nodeId then (s.received l).hwlForward l else deliver (s.received l) := rfl

theorem keeps_State_received {s : State} {l : HwlHeader} : s.keepsBut [.regs, .out, .hwl] (s.received l) := by
  unfold State.received
  extract_lets p v v1 s1 s2
  have h1 : s.keepsBut [.regs, .out, .hwl] s1 := keeps_State_setHport.within |>.then keeps_State_bump |>.then keeps_State_word
  have h2 : s.keepsBut [.regs, .out, .hwl] s2 := keepsBut_ite (h1.then keeps_State_sendAckWord) h1
  exact keepsBut_ite (h2.then keeps_State_modHwl) h2

theorem bounded_State_hwlReceive {s : State} {l : HwlHeader} {typ : Nat} {deliver : State → State}
    (hf : ∀ u : State, u.bounded (deliver u)) : s.bounded (s.hwlReceive l typ deliver) := by
  rw [State.hwlReceive_eq]
  refine bounded_ite (bounded_refl _) (bounded_ite (keeps_State_bump.bounded.keep keeps_State_sendNak) (bounded_ite ?_ (bounded_ite ?_
      (bounded_ite ?_ ?_))))
  · exact bounded_ite (bounded_refl _) keeps_State_sendNak.bounded
  · exact keeps_State_received.bounded.keep keeps_State_bump
  · exact keeps_State_received.bounded.keep keeps_State_hwlForward
  · exact keeps_State_received.bounded.then (hf _)

/-! ## The side-band (R423) -/

theorem bounded_State_sbAnswer {s : State} {r : SbReq} {cmd status : Nat} {reason : Reason} {data : List Byte} :
    s.bounded (s.sbAnswer r cmd status reason data) := by
  unfold State.sbAnswer
  exact .keep { cache := fun _ => List.length_take_le _ _ } keeps_State_sbSend

theorem bounded_State_sbReject {s : State} {r : SbReq} {cmd : Nat} {reason : Reason} : s.bounded (s.sbReject r cmd reason) :=
  keeps_State_bump.bounded.then bounded_State_sbAnswer

/-- Fewer than four requests of a sender are under way. -/
def State.roomFor (s : State) (r : SbReq) : Prop := (s.sb.outstanding.filter fun o => decide (o.mac = r.mac)).length < 4

theorem bounded_State_sbReceive {s : State} {r : SbReq} {cmd args : Nat} {right : Option (Nat × Nat)} {run : State → State}
    (hrun : ∀ u : State, u.roomFor r → u.bounded (run u)) : s.bounded (s.sbReceive r cmd args right run) := by
  unfold State.sbReceive
  extract_lets s1 s2
  have h1 : s.bounded s1 := keeps_State_bump.bounded
  have h2 : s.bounded s2 := h1.keep keeps_State_bump
  refine bounded_ite (bounded_refl _) (bounded_ite (h1.keep keeps_State_bump) (bounded_ite (h1.keep keeps_State_bump) ?_))
  split
  · exact h2.keep keeps_State_bump |>.keep keeps_State_sbSend
  · refine bounded_ite h2 (bounded_ite (h2.then bounded_State_sbReject) ?_)
    split
    · exact h2.then bounded_State_sbReject
    · next hroom =>
      split
      · exact h2.then bounded_State_refuseAccess |>.then bounded_State_sbReject
      · exact h2.then (hrun _ (Nat.not_le.1 hroom))

/-- One more request of a sender that has room for it. -/
theorem State.requestersBounded_append {s : State} {r : SbReq} {x : SbOpen} (hmac : x.mac = r.mac) (hroom : s.roomFor r) :
    s.bounded { s with sb := { s.sb with outstanding := s.sb.outstanding ++ [x] } } where
  requesters h m := by
    show ((s.sb.outstanding ++ [x]).filter _).length ≤ 4
    rw [List.filter_append, List.length_append]
    by_cases hm : x.mac = m
    · have hroom : (s.sb.outstanding.filter fun o => decide (o.mac = m)).length < 4 := by rw [← hm, hmac]; exact hroom
      have hone : ([x].filter fun o => decide (o.mac = m)).length ≤ 1 := List.length_filter_le _ _
      omega
    · have hnone : [x].filter (fun o => decide (o.mac = m)) = [] := by simp [hm]
      rw [hnone]
      exact h m

theorem bounded_State_sidebandReport {s : State} {mac : BitVec 48} {r : Report} : s.bounded (s.sidebandReport mac r) := by
  unfold State.sidebandReport
  split
  · exact bounded_refl _
  · extract_lets status p s1
    have h1 : s.bounded s1 := keeps_State_sbEmit.bounded
    refine bounded_ite h1 (h1.then { cache := fun _ => List.length_take_le _ _, requesters := fun h m => le_trans ?_ (h m) })
    exact ((List.filter_sublist).filter _).length_le

theorem bounded_State_sendReport {s : State} {d : ReportDest} {r : Report} : s.bounded (s.sendReport d r) := by
  unfold State.sendReport
  split
  · exact keeps_State_ringReport.bounded
  · exact keeps_State_ethSend.bounded.keep keeps_State_bump
  · exact bounded_State_sidebandReport.keep keeps_State_bump
  · exact keeps_State_hwlSend.bounded.keep keeps_State_bump

theorem bounded_State_issueFrom {s : State} {front back : List WaitingReport} : s.bounded (s.issueFrom front back) := by
  induction back generalizing s front with
  | nil => exact keeps_State_setWaiting.bounded
  | cons w rest ih =>
    unfold State.issueFrom
    refine bounded_ite ih ?_
    split
    · exact keeps_State_setWaiting.bounded.then bounded_State_sendReport
    · exact keeps_State_setWaiting.bounded.keep keeps_State_bump
    · exact keeps_State_setWaiting.bounded.keep keeps_State_dropReport
    · exact .then (bounded_ite (bounded_refl _) keeps_State_bump.bounded) ih

end Sys2Proof.Machine

/-! # Bounds, row by row -/

namespace Sys2Proof.Machine

-- One theorem after the other: a thread for each would pass the memory limit of the check.
set_option Elab.async false

/-! ## Outcomes -/

/-- A next state is within the bounds, and no earlier. -/
def State.boundedOut (s : State) (o : Host.Outcome State Fault Refusal) : Prop := ∀ u, o = .next u → s.bounded u

theorem boundedOut_next {s u : State} (h : s.bounded u) : s.boundedOut (.next u) := fun _ hv => by
  cases hv
  exact h

theorem boundedOut_ite {s : State} {a b : Host.Outcome State Fault Refusal} {c : Prop} [Decidable c] (ha : s.boundedOut a)
    (hb : s.boundedOut b) : s.boundedOut (if c then a else b) := by
  split <;> assumption

theorem bounded_State_advance {s : State} {t : Nat} : s.bounded (s.advance t) := { now := Nat.le_max_left _ _ }

theorem bounded_untimed {s : State} {A : List Part} {o : Host.Outcome State Fault Refusal} (h : s.leads A o)
    (sub : Part.sec ∉ A ∧ Part.sb ∉ A ∧ Part.now ∉ A := by decide) : s.boundedOut o := by
  obtain ⟨v, hv, hkeeps⟩ := h
  exact hv ▸ boundedOut_next (hkeeps.bounded sub)

theorem bounded_timed {s : State} {t : Nat} {A : List Part} {o : Host.Outcome State Fault Refusal} (h : (s.advance t).leads A o)
    (sub : Part.sec ∉ A ∧ Part.sb ∉ A ∧ Part.now ∉ A := by decide) : s.boundedOut o := by
  obtain ⟨v, hv, hkeeps⟩ := h
  exact hv ▸ boundedOut_next (bounded_State_advance.then (hkeeps.bounded sub))

/-! ## Rows of supplies and resets -/

theorem State.restarts.bounded {s u : State} {cls : ResetClass} {timeout escalated : Bool} (h : s.restarts cls timeout escalated u) :
    s.bounded u where
  now := h.now
  nonces hs := by
    unfold State.noncesBounded at hs ⊢
    rcases h.nonces with hn | hn <;> rw [hn]
    · exact hs
    · exact Nat.zero_le _
  cache hs := by
    unfold State.cacheBounded at hs ⊢
    rcases h.cache with hc | hc <;> rw [hc]
    · exact hs
    · exact Nat.zero_le _
  requesters _ m := by
    rw [h.outstanding]
    exact Nat.zero_le _

theorem bounded_State_mainOff {s : State} {sb : Bool} : s.bounded (s.mainOff sb) := by
  have hkept := s.keeps_endedByReset_stopTime .wake
  have hsec : ((s.endedByReset .wake).stopTime).sec = s.sec := hkept .sec (by decide)
  exact State.bounded_of_eq (hkept .now (by decide)).ge (congrArg Sec.nonces hsec :) rfl rfl

theorem bounded_State_resetAndStart {s : State} {cls : ResetClass} {e : StartEnv} {timeout escalated : Bool} :
    s.bounded (s.resetAndStart cls e timeout escalated) :=
  (s.restarts_resetAndStart cls e timeout escalated).1.bounded

theorem bounded_State_wakeStart {s : State} {e : StartEnv} : s.bounded (s.wakeStart e) := (s.restarts_wakeStart e).1.bounded

theorem bounded_State_wakeNow {s : State} {e : StartEnv} : s.bounded (s.wakeNow e) := bounded_ite bounded_State_wakeStart {}

theorem bounded_State_wakeEvent {s : State} {e : StartEnv} : s.bounded (s.wakeEvent e) :=
  bounded_ite (bounded_refl _) (bounded_ite keeps_State_modPwr.bounded bounded_State_wakeNow)

theorem bounded_State_enterStandby {s : State} : s.bounded s.enterStandby := by
  unfold State.enterStandby
  extract_lets cause s1 s2 s3 p
  have h1 : s.bounded s1 := keeps_State_saveInGasp.bounded
  have h2 : s.bounded s2 := bounded_ite (h1.keep keeps_State_note) h1
  have h3 : s.bounded s3 := h2.keep keeps_State_setMode |>.then bounded_State_mainOff
  exact h3.then {}

theorem bounded_execMainRailTimeout {t : Nat} {s : State} : s.boundedOut (execMainRailTimeout t s) :=
  boundedOut_ite (boundedOut_next bounded_State_advance) (boundedOut_ite (boundedOut_next (bounded_State_advance.then {}))
    (boundedOut_next (bounded_State_advance.then {})))

theorem bounded_execMainRailDrop {t : Nat} {s : State} : s.boundedOut (execMainRailDrop t s) :=
  boundedOut_ite (boundedOut_next bounded_State_advance)
    (boundedOut_next (.then (bounded_State_advance.then (bounded_State_mainOff (sb := s.sb.up))) {}))

theorem bounded_execAonSupplyLoss {t : Nat} {s : State} : s.boundedOut (execAonSupplyLoss t s) :=
  boundedOut_ite (boundedOut_next bounded_State_advance)
    (boundedOut_next (.then (bounded_State_advance.then (bounded_State_mainOff (sb := false))) {}))

theorem bounded_execPowerOnReset {e : StartEnv} {t : Nat} {s : State} : s.boundedOut (execPowerOnReset e t s) :=
  boundedOut_next (bounded_State_advance.then
    (bounded_ite (bounded_refl _) (bounded_ite bounded_State_wakeStart bounded_State_resetAndStart)))

theorem bounded_execHrst {e : StartEnv} {t : Nat} {s : State} : s.boundedOut (execHrst e t s) :=
  boundedOut_next (bounded_State_advance.then (bounded_ite (bounded_refl _) (bounded_ite {} bounded_State_resetAndStart)))

theorem bounded_execHoldComplete {e : StartEnv} {t : Nat} {s : State} : s.boundedOut (execHoldComplete e t s) := by
  dsimp only [execHoldComplete]
  split
  · exact boundedOut_next bounded_State_advance
  · exact boundedOut_next (bounded_State_advance.keep keeps_State_flushFuller |>.then bounded_State_resetAndStart)

theorem bounded_execHoldTimeout {e : StartEnv} {t : Nat} {s : State} : s.boundedOut (execHoldTimeout e t s) := by
  dsimp only [execHoldTimeout]
  split
  · exact boundedOut_next bounded_State_advance
  · exact boundedOut_next (bounded_State_advance.then (bounded_ite (bounded_refl _) bounded_State_resetAndStart))

theorem bounded_execBootWatchdogExpiry {e : StartEnv} {t : Nat} {s : State} : s.boundedOut (execBootWatchdogExpiry e t s) := by
  refine boundedOut_ite (boundedOut_next bounded_State_advance) (boundedOut_next (.then (.then ?_
      (State.restarts_applyReset _ _ _ _ _).bounded)
    (State.started_startDevice (carries_refl _)).1.bounded))
  exact bounded_State_advance.then {}

theorem bounded_execStandbyEntry {t : Nat} {s : State} : s.boundedOut (execStandbyEntry t s) := by
  dsimp only [execStandbyEntry]
  split
  · exact boundedOut_next bounded_State_advance
  · exact boundedOut_next (bounded_State_advance.then (bounded_ite (bounded_refl _) bounded_State_enterStandby))

theorem bounded_execWakeNLow {e : StartEnv} {t : Nat} {s : State} : s.boundedOut (execWakeNLow e t s) :=
  boundedOut_next (bounded_State_advance.then bounded_State_wakeEvent)

theorem bounded_execStandbyMainsReturn {periods : List Nat} {e : StartEnv} {t : Nat} {s : State} :
    s.boundedOut (execStandbyMainsReturn periods e t s) :=
  boundedOut_next (bounded_State_advance.then (bounded_ite bounded_State_wakeEvent (bounded_refl _)))

theorem bounded_execThermalWake {e : StartEnv} {t : Nat} {s : State} : s.boundedOut (execThermalWake e t s) :=
  boundedOut_next (bounded_State_advance.then (bounded_ite bounded_State_wakeNow (bounded_refl _)))

/-! ## Rows of SEC, of the queues and of the links -/

theorem bounded_execNonceExpiry {t : Nat} {s : State} : s.boundedOut (execNonceExpiry t s) :=
  boundedOut_next (bounded_State_advance.then { nonces := fun h => le_trans (List.length_filter_le _ _) h })

theorem bounded_execContextOperation {lane : Fin 4} {t : Nat} {s : State} : s.boundedOut (execContextOperation lane t s) := by
  have hstay : s.boundedOut (.next (s.advance t)) := boundedOut_next bounded_State_advance
  dsimp only [execContextOperation]
  refine boundedOut_ite hstay ?_
  split
  · exact hstay
  · split
    · exact boundedOut_ite hstay (boundedOut_next (bounded_State_advance.keep keeps_State_leaveLane |>.then bounded_State_applyOp))
    · exact hstay

theorem bounded_execContextRestore {t : Nat} {s : State} : s.boundedOut (execContextRestore t s) := by
  dsimp only [execContextRestore]
  refine boundedOut_ite (boundedOut_next bounded_State_advance) (boundedOut_ite (boundedOut_next ?_) (boundedOut_next ?_))
  · refine .keep (.then (bounded_foldl (fun _ _ h => h.then bounded_State_fillMaster) ?_) {}) keeps_State_reseedRest
    exact bounded_foldl (fun _ _ h => h.keep keeps_State_setCtx) (bounded_State_advance.then {})
  · refine bounded_foldl (fun _ _ h => bounded_ite h ?_) bounded_State_advance
    exact h.keep keeps_State_evict |>.keep keeps_State_setCtx |>.keep keeps_State_journalContext

theorem bounded_execJob {l : HwlHeader} {j : Job} {t : Nat} {s : State} : s.boundedOut (execJob l j t s) :=
  boundedOut_next (bounded_State_advance.then (bounded_State_hwlReceive fun _ =>
    bounded_ite keeps_State_bump.bounded (bounded_ite (bounded_refl _) bounded_State_takeJob)))

theorem State.nonceFits_of_reset {s : State} {j : Job} (h : s.resetPacketOk j = true) : s.nonceFits j := by
  unfold State.resetPacketOk at h
  rw [Bool.and_eq_true, decide_eq_true_eq] at h
  exact State.nonceFits_of_signed h.2.2

theorem bounded_execResetPacket {l : HwlHeader} {j : Job} {t : Nat} {s : State} : s.boundedOut (execResetPacket l j t s) := by
  refine boundedOut_next (bounded_State_advance.then (bounded_State_hwlReceive fun u => ?_))
  split
  · next hok => exact (bounded_State_enterNonce (State.nonceFits_of_reset hok.2)).keep keeps_State_requestReset
  · exact keeps_State_event.bounded

theorem bounded_execCqTailWrite {n : Fin 4} {m : Master} {v : Word} {t : Nat} {s : State} : s.boundedOut (execCqTailWrite n m v t s) :=
  boundedOut_next (bounded_State_advance.then bounded_State_masterWrite)

theorem bounded_execRqEnable {n : Fin 4} {m : Master} {k : Fin 16} {t : Nat} {s : State} : s.boundedOut (execRqEnable n m k t s) :=
  boundedOut_next (bounded_State_advance.then bounded_State_masterWrite)

theorem bounded_execRqDisable {n : Fin 4} {m : Master} {k : Fin 16} {t : Nat} {s : State} : s.boundedOut (execRqDisable n m k t s) :=
  boundedOut_next (bounded_State_advance.then bounded_State_masterWrite)

theorem bounded_execRqHeadWrite {n : Fin 4} {m : Master} {v : Word} {t : Nat} {s : State} : s.boundedOut (execRqHeadWrite n m v t s) :=
  boundedOut_next (bounded_State_advance.then bounded_State_masterWrite)

theorem bounded_execReportIssue {t : Nat} {s : State} : s.boundedOut (execReportIssue t s) :=
  boundedOut_next (bounded_State_advance.then bounded_State_issueFrom)

theorem bounded_execEthernetFrame {port : Fin 2} {f : EthFrame} {t : Nat} {s : State} : s.boundedOut (execEthernetFrame port f t s) := by
  unfold execEthernetFrame
  extract_lets v p v0 v1
  have h0 : s.bounded v0 := bounded_State_advance.keep keeps_State_bump
  have h1 : s.bounded v1 := bounded_ite (h0.keep keeps_State_bump) h0
  have hbump {c : Counter} : s.bounded (v1.bump c) := h1.keep keeps_State_bump
  exact boundedOut_ite (boundedOut_next bounded_State_advance) (boundedOut_next (bounded_ite hbump (bounded_ite hbump (bounded_ite hbump
    (bounded_ite hbump (h1.then bounded_State_dispatchFrame))))))

theorem bounded_execKeyDestroy {m : Master} {v : Word} {t : Nat} {s : State} : s.boundedOut (execKeyDestroy m v t s) :=
  boundedOut_next (bounded_State_advance.then bounded_State_masterWrite)

theorem bounded_execKeyPurge {t : Nat} {s : State} : s.boundedOut (execKeyPurge t s) := by
  dsimp only [execKeyPurge]
  split
  · exact boundedOut_next bounded_State_advance
  · exact boundedOut_next (bounded_State_advance.then bounded_State_invalidate |>.then bounded_State_modSec)

theorem bounded_execLowWordRead {sp : Space} {m : Master} {fetch : Bool} {a size t : Nat} {s : State} :
    s.boundedOut (execLowWordRead sp m fetch a size t s) :=
  boundedOut_next (bounded_State_advance.then bounded_State_spaceRead |>.keep keeps_State_emit)

theorem bounded_execRegisterWrite {sp : Space} {m : Master} {a size : Nat} {v : Word} {t : Nat} {s : State} :
    s.boundedOut (execRegisterWrite sp m a size v t s) :=
  boundedOut_next (bounded_State_advance.then bounded_State_spaceWrite)

theorem bounded_execEventPortSubmit {port : Fin 2} {m : Master} {v : Word} {t : Nat} {s : State} :
    s.boundedOut (execEventPortSubmit port m v t s) := by
  dsimp only [execEventPortSubmit]
  split
  · next hbar => exact boundedOut_next (bounded_State_advance.then (bounded_State_writeBarred hbar))
  · exact boundedOut_next (bounded_State_advance.keep keeps_State_submitPort)

theorem bounded_execLegalPortSubmit {m : Master} {v : Word} {t : Nat} {s : State} : s.boundedOut (execLegalPortSubmit m v t s) := by
  dsimp only [execLegalPortSubmit]
  split
  · next hbar => exact boundedOut_next (bounded_State_advance.then (bounded_State_writeBarred hbar))
  · exact boundedOut_next (bounded_State_advance.keep keeps_State_submitPort)

/-! ## Rows of the side-band -/

/-- A command of the side-band that is only answered. -/
theorem boundedOut_answer {r : SbReq} {cmd args t : Nat} {right : Option (Nat × Nat)} {s : State} {run : State → State}
    (hrun : ∀ u : State, u.bounded (run u)) : s.boundedOut (.next ((s.advance t).sbReceive r cmd args right run)) :=
  boundedOut_next (bounded_State_advance.then (bounded_State_sbReceive fun u _ => hrun u))

theorem bounded_execIdentify {r : SbReq} {t : Nat} {s : State} : s.boundedOut (execIdentify r t s) :=
  boundedOut_answer fun _ => bounded_State_sbAnswer

theorem bounded_execStatus {r : SbReq} {t : Nat} {s : State} : s.boundedOut (execStatus r t s) :=
  boundedOut_answer fun _ => bounded_State_sbAnswer

theorem bounded_execAonCounters {r : SbReq} {t : Nat} {s : State} : s.boundedOut (execAonCounters r t s) :=
  boundedOut_answer fun _ => bounded_State_sbAnswer

theorem bounded_execTime {r : SbReq} {t : Nat} {s : State} : s.boundedOut (execTime r t s) :=
  boundedOut_answer fun _ => bounded_State_sbAnswer

theorem bounded_execReadLog {r : SbReq} {log first count t : Nat} {s : State} : s.boundedOut (execReadLog r log first count t s) := by
  refine boundedOut_answer fun u => bounded_ite bounded_State_sbReject ?_
  split
  · exact bounded_State_sbReject
  · exact bounded_ite bounded_State_sbReject (bounded_ite bounded_State_sbAnswer bounded_State_sbAnswer)

theorem bounded_execSidebandWake {r : SbReq} {e : StartEnv} {t : Nat} {s : State} : s.boundedOut (execSidebandWake r e t s) :=
  boundedOut_answer fun _ => bounded_State_sbAnswer.then bounded_State_wakeEvent

theorem bounded_execSidebandReset {r : SbReq} {j : Job} {t : Nat} {s : State} : s.boundedOut (execSidebandReset r j t s) := by
  refine boundedOut_answer fun u => bounded_ite bounded_State_sbReject (bounded_ite bounded_State_sbReject ?_)
  split
  · exact bounded_State_sbReject
  · next hsigned =>
    exact (bounded_State_enterNonce (State.nonceFits_of_signed hsigned)).then bounded_State_sbAnswer |>.keep keeps_State_requestReset

theorem bounded_execSidebandJob {r : SbReq} {h : JobHdr} {b : JobBody} {t : Nat} {s : State} : s.boundedOut (execSidebandJob r h b t s) :=
  boundedOut_next (bounded_State_advance.then (bounded_State_sbReceive fun _ hroom =>
    (State.requestersBounded_append rfl hroom).then bounded_State_takeJob))

/-! ## Every row -/

theorem bounded_exec (c : Instr) (s : State) : s.boundedOut (exec c s) := by
  cases c with
  | powerUpSequence t => exact bounded_timed (leads_execPowerUpSequence t s)
  | mainRailTimeout _ => exact bounded_execMainRailTimeout
  | mainRailDrop _ => exact bounded_execMainRailDrop
  | powerOnReset _ _ => exact bounded_execPowerOnReset
  | hrst _ _ => exact bounded_execHrst
  | wrm t => exact bounded_timed (leads_execWrm t s)
  | holdComplete _ _ => exact bounded_execHoldComplete
  | holdTimeout _ _ => exact bounded_execHoldTimeout
  | bootWatchdogExpiry _ _ => exact bounded_execBootWatchdogExpiry
  | appHeartbeat t => exact bounded_timed (leads_execAppHeartbeat t s)
  | watchdogPending t => exact bounded_timed (leads_execWatchdogPending t s)
  | sysWatchdogExpiry t => exact bounded_timed (leads_execSysWatchdogExpiry t s)
  | swpEscalation t => exact bounded_timed (leads_execSwpEscalation t s)
  | legalWatchdogExpiry t => exact bounded_timed (leads_execLegalWatchdogExpiry t s)
  | legalWatchdogEscalation t => exact bounded_timed (leads_execLegalWatchdogEscalation t s)
  | pfailNChange low t => exact bounded_timed (leads_execPfailNChange low t s)
  | modeEvaluation vscap powerMw t => exact bounded_timed (leads_execModeEvaluation vscap powerMw t s)
  | gaspFullerDeadline t => exact bounded_timed (leads_execGaspFullerDeadline t s)
  | standbyEntry _ => exact bounded_execStandbyEntry
  | rideTimeExpiry t => exact bounded_timed (leads_execRideTimeExpiry t s)
  | temperatureSample t0 t1 t2 t3 t => exact bounded_timed (leads_execTemperatureSample t0 t1 t2 t3 t s)
  | thermalClear t => exact bounded_timed (leads_execThermalClear t s)
  | wakeNLow _ _ => exact bounded_execWakeNLow
  | standbyMainsReturn _ _ _ => exact bounded_execStandbyMainsReturn
  | thermalWake _ _ => exact bounded_execThermalWake
  | zeroCrossing phase w m t => exact bounded_timed (leads_execZeroCrossing phase w m t s)
  | phaseAbsent phase t => exact bounded_timed (leads_execPhaseAbsent phase t s)
  | syntheticCycle t => exact bounded_timed (leads_execSyntheticCycle t s)
  | rtcTick t => exact bounded_timed (leads_execRtcTick t s)
  | operatingTimeTick t => exact bounded_timed (leads_execOperatingTimeTick t s)
  | operatingTimePersist t => exact bounded_timed (leads_execOperatingTimePersist t s)
  | aonTimeRefresh t => exact bounded_timed (leads_execAonTimeRefresh t s)
  | sync h t1 sub t => exact bounded_timed (leads_execSync h t1 sub t s)
  | followUp h t1 t => exact bounded_timed (leads_execFollowUp h t1 t s)
  | delayResp h t4 t => exact bounded_timed (leads_execDelayResp h t4 t s)
  | delayReqSend port sub t => exact bounded_timed (leads_execDelayReqSend port sub t s)
  | ptpAnnounce h a t => exact bounded_timed (leads_execPtpAnnounce h a t s)
  | masterTimeout port master t => exact bounded_timed (leads_execMasterTimeout port master t s)
  | proportionalEnd t => exact bounded_timed (leads_execProportionalEnd t s)
  | stepPermitExpiry t => exact bounded_timed (leads_execStepPermitExpiry t s)
  | leapSecond t => exact bounded_timed (leads_execLeapSecond t s)
  | expertSessionExpiry t => exact bounded_timed (leads_execExpertSessionExpiry t s)
  | nonceExpiry _ => exact bounded_execNonceExpiry
  | pulseInstant output t => exact bounded_timed (leads_execPulseInstant output t s)
  | pulseFall output t => exact bounded_timed (leads_execPulseFall output t s)
  | launch port traffic bytes launchSec launchNs ahead t =>
    exact bounded_timed (leads_execLaunch port traffic bytes launchSec launchNs ahead t s)
  | beaconLaunch t => exact bounded_timed (leads_execBeaconLaunch t s)
  | rfBeaconLaunch radio t => exact bounded_timed (leads_execRfBeaconLaunch radio t s)
  | ingestFrame f => exact bounded_untimed (leads_execIngestFrame f s)
  | steering => exact bounded_untimed (leads_execSteering s)
  | creditReturn src => exact bounded_untimed (leads_execCreditReturn src s)
  | bundleSplit t => exact bounded_timed (leads_execBundleSplit t s)
  | contextFill lane ecc t => exact bounded_timed (leads_execContextFill lane ecc t s)
  | laneProcessing lane badRead t => exact bounded_timed (leads_execLaneProcessing lane badRead t s)
  | firmwareRecordBuild verified built status t => exact bounded_timed (leads_execFirmwareRecordBuild verified built status t s)
  | contextOperation _ _ => exact bounded_execContextOperation
  | contextRestore _ => exact bounded_execContextRestore
  | mirrorRecord lane t => exact bounded_timed (leads_execMirrorRecord lane t s)
  | bundleClose boundary t => exact bounded_timed (leads_execBundleClose boundary t s)
  | validate lane t => exact bounded_timed (leads_execValidate lane t s)
  | recordRelease lane t => exact bounded_timed (leads_execRecordRelease lane t s)
  | troikaUpdate f a b c t => exact bounded_timed (leads_execTroikaUpdate f a b c t s)
  | voteTimeout unit t => exact bounded_timed (leads_execVoteTimeout unit t s)
  | safeStateTestsDone a b c t => exact bounded_timed (leads_execSafeStateTestsDone a b c t s)
  | forcedClosure slot t => exact bounded_timed (leads_execForcedClosure slot t s)
  | feederDeltas m t => exact bounded_timed (leads_execFeederDeltas m t s)
  | friendlyPeriodEnd t => exact bounded_timed (leads_execFriendlyPeriodEnd t s)
  | troikaRebuild v t => exact bounded_timed (leads_execTroikaRebuild v t s)
  | displayFrame sync shownSeq shown t => exact bounded_timed (leads_execDisplayFrame sync shownSeq shown t s)
  | supplyConfirmation gmn positive t => exact bounded_timed (leads_execSupplyConfirmation gmn positive t s)
  | balRecord t => exact bounded_timed (leads_execBalRecord t s)
  | channelEstimate t => exact bounded_timed (leads_execChannelEstimate t s)
  | intervalResult group t => exact bounded_timed (leads_execIntervalResult group t s)
  | snapshotCollectRead t => exact bounded_timed (leads_execSnapshotCollectRead t s)
  | snapshotResult t => exact bounded_timed (leads_execSnapshotResult t s)
  | componentLapse gmn t => exact bounded_timed (leads_execComponentLapse gmn t s)
  | copyReceived chain c t => exact bounded_timed (leads_execCopyReceived chain c t s)
  | combineWindowClose mesh t => exact bounded_timed (leads_execCombineWindowClose mesh t s)
  | ackTransmit t => exact bounded_timed (leads_execAckTransmit t s)
  | ack chain bytes t => exact bounded_timed (leads_execAck chain bytes t s)
  | ackWaitExpiry t => exact bounded_timed (leads_execAckWaitExpiry t s)
  | csmaBackoffEnd t => exact bounded_timed (leads_execCsmaBackoffEnd t s)
  | discWindowExpiry t => exact bounded_timed (leads_execDiscWindowExpiry t s)
  | tollbookExpiry t => exact bounded_timed (leads_execTollbookExpiry t s)
  | rfCopyReceived c t => exact bounded_timed (leads_execRfCopyReceived c t s)
  | enhAckTransmit t => exact bounded_timed (leads_execEnhAckTransmit t s)
  | enhAck radio bytes start t => exact bounded_timed (leads_execEnhAck radio bytes start t s)
  | rfAckWaitExpiry radio t => exact bounded_timed (leads_execRfAckWaitExpiry radio t s)
  | csmaCaAttempt radio energy t => exact bounded_timed (leads_execCsmaCaAttempt radio energy t s)
  | slotExchange slot energy t => exact bounded_timed (leads_execSlotExchange slot energy t s)
  | slotMiss slot t => exact bounded_timed (leads_execSlotMiss slot t s)
  | longPreambleExchange radio energy t => exact bounded_timed (leads_execLongPreambleExchange radio energy t s)
  | dutyHoldRelease radio t => exact bounded_timed (leads_execDutyHoldRelease radio t s)
  | issue port plain t => exact bounded_timed (leads_execIssue port plain t s)
  | txnDeadline tag t => exact bounded_timed (leads_execTxnDeadline tag t s)
  | retryRelease t => exact bounded_timed (leads_execRetryRelease t s)
  | quarantineEnd tag t => exact bounded_timed (leads_execQuarantineEnd tag t s)
  | scheduleRun t => exact bounded_timed (leads_execScheduleRun t s)
  | taskPost kind priority eclass exec coreMask arg t => exact bounded_timed (leads_execTaskPost kind priority eclass exec coreMask arg t s)
  | taskRetire executor t => exact bounded_timed (leads_execTaskRetire executor t s)
  | fullerAccept t => exact bounded_timed (leads_execFullerAccept t s)
  | flushTimer t => exact bounded_timed (leads_execFlushTimer t s)
  | pageProgram bad t => exact bounded_timed (leads_execPageProgram bad t s)
  | programFail copy markFails t => exact bounded_timed (leads_execProgramFail copy markFails t s)
  | eraseFail block markFails t => exact bounded_timed (leads_execEraseFail block markFails t s)
  | sectorRead lsa bits retries uncorrectable t => exact bounded_timed (leads_execSectorRead lsa bits retries uncorrectable t s)
  | gcBatch t => exact bounded_timed (leads_execGcBatch t s)
  | checkpointComplete legal t => exact bounded_timed (leads_execCheckpointComplete legal t s)
  | counterSnapshot t => exact bounded_timed (leads_execCounterSnapshot t s)
  | rebuildDone badSummaries badPages t => exact bounded_timed (leads_execRebuildDone badSummaries badPages t s)
  | blockLock port valid t => exact bounded_timed (leads_execBlockLock port valid t s)
  | lockLoss port since t => exact bounded_timed (leads_execLockLoss port since t s)
  | portRetrainTimer port t => exact bounded_timed (leads_execPortRetrainTimer port t s)
  | hello l t => exact bounded_timed (leads_execHello l t s)
  | helloAck l t => exact bounded_timed (leads_execHelloAck l t s)
  | coordinateAssign t => exact bounded_timed (leads_execCoordinateAssign t s)
  | announceTimer t => exact bounded_timed (leads_execAnnounceTimer t s)
  | announce l t => exact bounded_timed (leads_execAnnounce l t s)
  | memberExpiry node t => exact bounded_timed (leads_execMemberExpiry node t s)
  | pair l t => exact bounded_timed (leads_execPair l t s)
  | pairTimeout t => exact bounded_timed (leads_execPairTimeout t s)
  | heartbeatSend t => exact bounded_timed (leads_execHeartbeatSend t s)
  | heartbeat l t => exact bounded_timed (leads_execHeartbeat l t s)
  | leave l t => exact bounded_timed (leads_execLeave l t s)
  | partnerTimeout t => exact bounded_timed (leads_execPartnerTimeout t s)
  | mrec l t => exact bounded_timed (leads_execMrec l t s)
  | mest l t => exact bounded_timed (leads_execMest l t s)
  | mfeed l t => exact bounded_timed (leads_execMfeed l t s)
  | mjob l gmn op t => exact bounded_timed (leads_execMjob l gmn op t s)
  | mctx l job t => exact bounded_timed (leads_execMctx l job t s)
  | cut l t => exact bounded_timed (leads_execCut l t s)
  | msync l t => exact bounded_timed (leads_execMsync l t s)
  | handback l t => exact bounded_timed (leads_execHandback l t s)
  | mack l t => exact bounded_timed (leads_execMack l t s)
  | mnak l spoilt t => exact bounded_timed (leads_execMnak l spoilt t s)
  | mirrorGapTimer t => exact bounded_timed (leads_execMirrorGapTimer t s)
  | syncReq l t => exact bounded_timed (leads_execSyncReq l t s)
  | digest l t => exact bounded_timed (leads_execDigest l t s)
  | digestReq l t => exact bounded_timed (leads_execDigestReq l t s)
  | digestResult l t => exact bounded_timed (leads_execDigestResult l t s)
  | fwdEntry l e t => exact bounded_timed (leads_execFwdEntry l e t s)
  | seqReq l w t => exact bounded_timed (leads_execSeqReq l w t s)
  | actionReq l t => exact bounded_timed (leads_execActionReq l t s)
  | job _ _ _ => exact bounded_execJob
  | report l r t => exact bounded_timed (leads_execReport l r t s)
  | resetPacket _ _ _ => exact bounded_execResetPacket
  | chainData l head writeFails t => exact bounded_timed (leads_execChainData l head writeFails t s)
  | chainAck l t => exact bounded_timed (leads_execChainAck l t s)
  | chainResult l t => exact bounded_timed (leads_execChainResult l t s)
  | chainAckTimeout t => exact bounded_timed (leads_execChainAckTimeout t s)
  | credit port vc cls units t => exact bounded_timed (leads_execCredit port vc cls units t s)
  | linkWordAck port lseq t => exact bounded_timed (leads_execLinkWordAck port lseq t s)
  | linkWordNak port lseq t => exact bounded_timed (leads_execLinkWordNak port lseq t s)
  | actOwnInChange high t => exact bounded_timed (leads_execActOwnInChange high t s)
  | arbWindowExpiry t => exact bounded_timed (leads_execArbWindowExpiry t s)
  | arbBackoffExpiry t => exact bounded_timed (leads_execArbBackoffExpiry t s)
  | queryRetry t => exact bounded_timed (leads_execQueryRetry t s)
  | cqTailWrite _ _ _ _ => exact bounded_execCqTailWrite
  | rqEnable _ _ _ _ => exact bounded_execRqEnable
  | rqDisable _ _ _ _ => exact bounded_execRqDisable
  | rqHeadWrite _ _ _ _ => exact bounded_execRqHeadWrite
  | reportIssue _ => exact bounded_execReportIssue
  | coalesceTimer n t => exact bounded_timed (leads_execCoalesceTimer n t s)
  | reportHoldExpiry t => exact bounded_timed (leads_execReportHoldExpiry t s)
  | pciePerstN high speed width t => exact bounded_timed (leads_execPciePerstN high speed width t s)
  | ethernetFrame _ _ _ => exact bounded_execEthernetFrame
  | messageResend port peer t => exact bounded_timed (leads_execMessageResend port peer t s)
  | standaloneAck port peer t => exact bounded_timed (leads_execStandaloneAck port peer t s)
  | bundleResend t => exact bounded_timed (leads_execBundleResend t s)
  | gateChange port t => exact bounded_timed (leads_execGateChange port t s)
  | identify _ _ => exact bounded_execIdentify
  | status _ _ => exact bounded_execStatus
  | aonCounters _ _ => exact bounded_execAonCounters
  | time _ _ => exact bounded_execTime
  | readLog _ _ _ _ _ => exact bounded_execReadLog
  | sidebandWake _ _ _ => exact bounded_execSidebandWake
  | sidebandReset _ _ _ => exact bounded_execSidebandReset
  | sidebandJob _ _ _ _ => exact bounded_execSidebandJob
  | readMeter _ _ _ _ _ _ => exact boundedOut_next (bounded_State_advance.then bounded_State_intake)
  | snapshotGroup _ _ _ _ _ _ => exact boundedOut_next (bounded_State_advance.then bounded_State_intake)
  | registerRead _ _ _ _ => exact boundedOut_next (bounded_State_advance.then bounded_State_intake)
  | meterStateRead _ _ _ _ => exact boundedOut_next (bounded_State_advance.then bounded_State_intake)
  | attest _ _ _ => exact boundedOut_next (bounded_State_advance.then bounded_State_intake)
  | cancel _ _ _ => exact boundedOut_next (bounded_State_advance.then bounded_State_intake)
  | trigger _ _ _ _ _ _ _ => exact boundedOut_next (bounded_State_advance.then bounded_State_intake)
  | pulse _ _ _ _ _ _ _ => exact boundedOut_next (bounded_State_advance.then bounded_State_intake)
  | hostTime _ _ _ _ => exact boundedOut_next (bounded_State_advance.then bounded_State_intake)
  | balanceMembership _ _ _ _ _ _ => exact boundedOut_next (bounded_State_advance.then bounded_State_intake)
  | bundleSubmit _ _ _ => exact boundedOut_next (bounded_State_advance.then bounded_State_intake)
  | pushTariffSet _ _ _ _ => exact boundedOut_next (bounded_State_advance.then bounded_State_intake)
  | creditChange _ _ _ _ => exact boundedOut_next (bounded_State_advance.then bounded_State_intake)
  | disconnect _ _ _ => exact boundedOut_next (bounded_State_advance.then bounded_State_intake)
  | reconnect _ _ _ _ => exact boundedOut_next (bounded_State_advance.then bounded_State_intake)
  | legalRelease _ _ _ _ => exact boundedOut_next (bounded_State_advance.then bounded_State_intake)
  | enrolMeter _ _ _ => exact boundedOut_next (bounded_State_advance.then bounded_State_intake)
  | removeMeter _ _ _ => exact boundedOut_next (bounded_State_advance.then bounded_State_intake)
  | keyChange _ _ _ _ _ _ => exact boundedOut_next (bounded_State_advance.then bounded_State_intake)
  | counterReset _ _ _ _ _ => exact boundedOut_next (bounded_State_advance.then bounded_State_intake)
  | designate _ _ _ _ _ => exact boundedOut_next (bounded_State_advance.then bounded_State_intake)
  | claimOwnership _ _ => exact boundedOut_next (bounded_State_advance.then bounded_State_intake)
  | releaseOwnership _ _ => exact boundedOut_next (bounded_State_advance.then bounded_State_intake)
  | forgetCoordinate _ _ => exact boundedOut_next (bounded_State_advance.then bounded_State_intake)
  | wallTimeStep _ _ _ _ => exact boundedOut_next (bounded_State_advance.then bounded_State_intake)
  | clearLog _ _ _ => exact boundedOut_next (bounded_State_advance.then bounded_State_intake)
  | openExpertSession _ _ _ => exact boundedOut_next (bounded_State_advance.then bounded_State_intake)
  | debugToken _ _ _ => exact boundedOut_next (bounded_State_advance.then bounded_State_intake)
  | updateDelivery _ _ _ _ _ _ _ _ => exact boundedOut_next (bounded_State_advance.then bounded_State_intake)
  | campaignStart _ _ _ => exact boundedOut_next (bounded_State_advance.then bounded_State_intake)
  | reset _ _ _ _ => exact boundedOut_next (bounded_State_advance.then bounded_State_intake)
  | bootHeaderWrite _ _ _ _ => exact boundedOut_next (bounded_State_advance.then bounded_State_intake)
  | deliveryIdleTimeout t => exact bounded_timed (leads_execDeliveryIdleTimeout t s)
  | probationDeadline t => exact bounded_timed (leads_execProbationDeadline t s)
  | healthConfirmation t => exact bounded_timed (leads_execHealthConfirmation t s)
  | campaignRound campaign t => exact bounded_timed (leads_execCampaignRound campaign t s)
  | campaignBlock campaign t => exact bounded_timed (leads_execCampaignBlock campaign t s)
  | statusRound campaign t => exact bounded_timed (leads_execStatusRound campaign t s)
  | keyDestroy _ _ _ => exact bounded_execKeyDestroy
  | keyPurge _ => exact bounded_execKeyPurge
  | eventPortSubmit _ _ _ _ => exact bounded_execEventPortSubmit
  | legalPortSubmit _ _ _ => exact bounded_execLegalPortSubmit
  | bufferProgram bad erased t => exact bounded_timed (leads_execBufferProgram bad erased t s)
  | lowWordRead _ _ _ _ _ _ => exact bounded_execLowWordRead
  | registerWrite _ _ _ _ _ _ => exact bounded_execRegisterWrite
  | aonSupplyLoss _ => exact bounded_execAonSupplyLoss
  | ethLinkChange port up los t => exact bounded_timed (leads_execEthLinkChange port up los t s)
  | linkAckTimer port t => exact bounded_timed (leads_execLinkAckTimer port t s)
  | mirrorAckTimer t => exact bounded_timed (leads_execMirrorAckTimer t s)
  | blockErase block t => exact bounded_timed (leads_execBlockErase block t s)
  | preambleDetection chain first announced t => exact bounded_timed (leads_execPreambleDetection chain first announced t s)

/-- Settles O4: every row keeps within the bounds, and a step is a row or nothing. -/
theorem boundsAreKeptByEveryStep : Obligations.BoundsAreKeptByEveryStep := by
  unfold Obligations.BoundsAreKeptByEveryStep
  intro s u hcache hnonces hrequesters hstep
  have hbounded : s.bounded u := by
    unfold step at hstep
    split at hstep
    · cases hstep
      exact bounded_refl _
    · next c rest _ =>
      have h := bounded_exec c { s with pending := rest } u hstep
      exact { now := h.now, nonces := h.nonces, cache := h.cache, requesters := h.requesters }
  exact ⟨hbounded.cache hcache, hbounded.nonces hnonces, hbounded.requesters hrequesters, hbounded.now⟩

end Sys2Proof.Machine

/-! # Clocks, PTP and timed states -/

namespace Sys2Proof.Machine

-- One theorem after the other: a thread for each would pass the memory limit of the check.
set_option Elab.async false

/-! ## Phases (R64 to R66) -/

theorem State.numberDue_phases (s : State) (n : Nat) : (s.numberDue n).cyc.phases = s.cyc.phases := by
  induction n generalizing s with
  | zero => rfl
  | succ n ih =>
    unfold State.numberDue
    split
    · rfl
    · rw [ih, State.numberCycle_phases]

theorem State.mainsLost_phases (s : State) : s.mainsLost.cyc.phases = s.cyc.phases := by
  unfold State.mainsLost
  extract_lets s1 s2
  have h1 : s1.cyc = s.cyc := by
    unfold s1
    split
    · extract_lets a
      have ha : a.cyc = s.cyc := keeps_State_postEvent .cyc (by decide)
      split
      · exact (keeps_State_handFeeder .cyc (by decide)).trans ha
      · exact (keeps_State_closeFeeder .cyc (by decide)).trans ha
    · exact keeps_State_postEvent .cyc (by decide)
  have h2 : (s1.abandonPending s.cycleTime).cyc = s1.cyc := keeps_State_abandonPending .cyc (by decide)
  rw [State.numberDue_phases]
  exact (congrArg Cyc.phases (h2.trans h1) :)

theorem State.chooseSource_phases (s : State) : s.chooseSource.cyc.phases = s.cyc.phases := by
  unfold State.chooseSource
  extract_lets w
  split
  · split
    · rfl
    · rw [State.mainsLost_phases]
      rfl
  · rfl

/-- A phase that stands in the list, changed. -/
theorem State.modPhase_phase {s : State} {p : Nat} {f : Phase → Phase} (h : p < s.cyc.phases.length) :
    (s.modPhase p f).cyc.phase p = f (s.cyc.phase p) := by
  show (s.cyc.phases.set p (f (s.cyc.phase p))).getD p Phase.fresh = _
  rw [List.getD_eq_getElem _ _ (by simpa using h), List.getElem_set_self]

theorem Cyc.length_of_present {c : Cyc} {p : Nat} (h : (c.phase p).present = true) : p < c.phases.length := by
  by_contra hp
  have hfresh : c.phase p = Phase.fresh := List.getD_eq_default _ _ (Nat.not_lt.1 hp)
  rw [hfresh] at h
  exact absurd h (by decide)

/-- Settles O13: a crossing and a synthetic cycle take the next count (`numberCycle_count`), noise only counts, and no change of source
changes a phase. -/
theorem cyclesAreNumbered : Obligations.CyclesAreNumbered := by
  unfold Obligations.CyclesAreNumbered
  refine ⟨?still, ?noise, ?accepted, ?absent, ?synthetic⟩
  case still =>
    intro s p w m t hrun hswings
    have hstill : (s.advance t).swings w = false := hswings
    refine ⟨_, next_of_eq ((if_neg (by simp [hrun])).trans (if_pos hstill)), ?_⟩
    exact State.metMeasure_cyc (s.advance t) m
  case noise =>
    intro s p w m t a hrun hswings hlast hnoise
    refine ⟨_, exec_zeroCrossing_swings p m t hrun hswings, ?_⟩
    have hcyc : ((s.advance t).metMeasure m).cyc = s.cyc := State.metMeasure_cyc (s.advance t) m
    unfold State.crossing
    simp only [hcyc, hlast, hnoise, decide_true, if_true]
    exact congrArg (fun c : Cyc => { c with noise := satAdd 16 c.noise 1 }) hcyc
  case accepted =>
    intro s p w m t a z hrun hswings hz hlast hpresent hsource hpending hnominal hnoise hwindow hgap hbelow
    subst hz
    obtain ⟨u, hu, hcount⟩ :=
      exec_zeroCrossing_counts m t hrun hswings ⟨hlast, hpresent, hsource, hpending, hnominal, hnoise, hwindow, hgap⟩
    rw [CycleCount.next_below (k := s.cyc.count) _ false hbelow] at hcount
    exact ⟨u, hu, congrArg CycleCount.num hcount, congrArg CycleCount.synth hcount, congrArg CycleCount.lastAt hcount⟩
  case absent =>
    intro s p t v hrun hpresent hvalid hlate
    have hgone : (((s.advance t).modPhase p.val fun x => { x with present := false, validRun := 0 }).cyc.phase p.val).present = false :=
      congrArg Phase.present (State.modPhase_phase (s := s.advance t) (Cyc.length_of_present hpresent))
    refine ⟨(((s.advance t).modPhase p.val fun x => { x with present := false, validRun := 0 }).markAbsent p.val).chooseSource, ?_,
      (congrArg Phase.present (Cyc.phase_congr (State.chooseSource_phases _))).trans hgone⟩
    simp only [exec, execPhaseAbsent, State.advance_cyc, hvalid]
    exact next_of_eq (if_neg (not_or.2 ⟨by simp [hrun], not_or.2 ⟨by simp [hpresent], Nat.not_lt.2 hlate⟩⟩))
  case synthetic =>
    intro s t hrun hmains hdue hbelow
    have hcount := ((s.advance t).numberCycle_count (s.cyc.lastAt + s.cyc.period) true).trans (CycleCount.next_below _ true hbelow)
    exact ⟨_, exec_syntheticCycle_due hrun hmains hdue, congrArg CycleCount.num hcount, congrArg CycleCount.synth hcount,
      congrArg CycleCount.lastAt hcount⟩

/-! ## AON's time -/

/-- Settles O14: without trim a tick is one tick, and the other rows set what they name. -/
theorem aonKeepsTime : Obligations.AonKeepsTime := by
  unfold Obligations.AonKeepsTime
  refine ⟨?tick, ?second, ?persist, ?refresh⟩
  case tick =>
    intro s t hrun htrim hacc hlow hshadow
    have htick : trimmedTicks s.cyc.rtcTrim s.cyc.trimAcc = (1, 0) := by
      rw [htrim, hacc]
      rfl
    let acc := s.cyc.shadowAcc + 1 * s.nominalHz
    refine ⟨{ s.advance t with
      cyc := { s.cyc with shadow := min (s.cyc.shadow + acc / 32768) (2 ^ 48 - 1), shadowAcc := acc % 32768, trimAcc := 0 },
      tim := { s.tim with aonWall := s.tim.aonWall + (1 : Nat) * 2000000000 } }, ?_, ?_, ?_, rfl⟩
    · have hstill : ¬ (s.advance t).cyc.running = true := by simp [hrun]
      show execRtcTick t s = _
      dsimp only [execRtcTick]
      rw [if_neg hstill]
      simp only [State.advance_cyc, htick]
      rfl
    · show min (s.cyc.shadow + (s.cyc.shadowAcc + 1 * s.nominalHz) / 32768) (2 ^ 48 - 1) = s.cyc.shadow
      rw [one_mul, Nat.div_eq_of_lt hlow]
      omega
    · show (s.cyc.shadowAcc + 1 * s.nominalHz) % 32768 = s.cyc.shadowAcc + s.nominalHz
      rw [one_mul, Nat.mod_eq_of_lt hlow]
  case second => exact fun s t => ⟨_, rfl, rfl⟩
  case persist =>
    intro s t hlate
    exact ⟨_, next_of_eq (if_neg (Nat.not_lt.2 hlate)), rfl⟩
  case refresh =>
    intro s t hrun hlate
    exact ⟨_, next_of_eq (if_neg (not_or.2 ⟨by simp [hrun], Nat.not_lt.2 hlate⟩)), rfl, rfl, rfl⟩

/-! ## PTP ports (R91, R92) -/

theorem State.modPtp_port {s : State} {p : Fin 2} {f : PtpPort → PtpPort} (h : p.val < s.tim.ports.length) :
    (s.modPtp p f).tim.port p = f (s.tim.port p) := by
  show (s.tim.ports.set p.val (f (s.tim.port p))).getD p.val _ = _
  rw [List.getD_eq_getElem _ _ (by simpa using h), List.getElem_set_self]

/-- A port that holds anything stands in the list. -/
theorem Tim.length_of_port {t : Tim} {p : Fin 2} (h : t.port p ≠ ⟨[], none, 0, none, none, none, 0⟩) : p.val < t.ports.length := by
  by_contra hp
  exact h (List.getD_eq_default _ _ (Nat.not_lt.1 hp))

theorem State.selectMaster_ports (s : State) : s.selectMaster.tim.ports = s.tim.ports := by
  unfold State.selectMaster
  dsimp only
  split
  · rfl
  · split
    · rfl
    · rfl

theorem State.announcedUtc_ports (s : State) (a : PtpAnnounce) : (s.announcedUtc a).tim.ports = s.tim.ports := by
  unfold State.announcedUtc
  split
  · rfl
  · split
    · rfl
    · dsimp only
      split
      · rfl
      · have hevent {u : State} {payload : Nat} : (u.event .operations 24 0x82 0 payload).tim = u.tim := keeps_State_event .tim (by decide)
        rw [hevent]
        rfl

theorem Tim.port_congr {t v : Tim} (h : v.ports = t.ports) (p : Fin 2) : v.port p = t.port p := by
  unfold Tim.port
  rw [h]

/-- What a Delay_Req leaves of its port. -/
def sendRequest (stamp : Int) (now : Nat) (x : PtpPort) : PtpPort :=
  { x with request := some (x.nextSeq, stamp), requestAt := some now, nextSeq := (x.nextSeq + 1) % 65536 }

/-- What an Announce leaves of its port. -/
def hearAnnounce (a : PtpAnnounce) (now : Nat) (p : PtpPort) : PtpPort :=
  { p with foreign := (p.foreign.filter fun f => f.announce.sender ≠ a.sender) ++ [Foreign.mk a now] }

/-- Settles O15: each message changes the port it arrives at, as the port stands in the list. -/
theorem ptpMessagesAreTaken : Obligations.PtpMessagesAreTaken := by
  unfold Obligations.PtpMessagesAreTaken
  refine ⟨?sync, ?followUp, ?delayResp, ?delayReq, ?announce, ?timeout⟩
  case sync =>
    intro s h sub t hheard hport
    have hheard : (s.advance t).ptpHeard h = true := hheard
    exact ⟨_, if_neg (by simp [hheard]), congrArg PtpPort.sync (State.modPtp_port (s := s.advance t) hport)⟩
  case followUp =>
    intro s h t1 t y hheard hsync hmaster hseq hexchange
    have hheard : (s.advance t).ptpHeard h = true := hheard
    have hport : h.port.val < s.tim.ports.length := Tim.length_of_port fun hp => by simp [hp] at hsync
    have hmod := State.modPtp_port (s := s.advance t) (f := fun p => { p with sync := none }) hport
    have hstay : ((s.advance t).modPtp h.port fun p => { p with sync := none }).syncComplete h.port y t1 =
        (s.advance t).modPtp h.port fun p => { p with sync := none } := by
      unfold State.syncComplete
      rw [hmod]
      simp only [State.advance_tim, hexchange]
    refine ⟨(s.advance t).modPtp h.port fun p => { p with sync := none }, ?_, congrArg PtpPort.sync hmod⟩
    simp only [exec, execFollowUp, State.advance_tim, hheard, hsync, hmaster, hseq]
    simpa using hstay
  case delayResp =>
    intro s h t4 t3 t hheard hrequest hmaster
    have hheard : (s.advance t).ptpHeard h = true := hheard
    have hport : h.port.val < s.tim.ports.length := Tim.length_of_port fun hp => by simp [hp] at hrequest
    have hmod := State.modPtp_port (s := s.advance t)
      (f := fun p => { p with request := none, exchange := some ⟨h.master, t3, t4, max s.now t⟩, delayInterval := h.logInterval }) hport
    refine ⟨_, ?_, congrArg PtpPort.request hmod, congrArg PtpPort.exchange hmod⟩
    simp [exec, execDelayResp, hheard, hrequest, hmaster]
  case delayReq =>
    intro s p sub t bits c m hon hmaster hat hport hc hbits hfits hopen
    have hon : (s.advance t).ptpPortOn p = true := hon
    have hmod := State.modPtp_port (s := s.advance t) (f := sendRequest ((s.advance t).macStamp sub + (s.stampFigures p).2)
        (max s.now t)) hport
    subst hc hbits
    refine ⟨(((s.advance t).modPtp p (sendRequest ((s.advance t).macStamp sub + (s.stampFigures p).2) (max s.now t))).emit
      (.delayReq p.val (s.tim.port p).nextSeq (s.txClass p.val 0).val (s.ethTag p.val (s.txClass p.val 0).val))).bump
          (cEthFramesTx p.val), ?_,
      congrArg PtpPort.request hmod, congrArg PtpPort.requestAt hmod, rfl⟩
    simp only [exec, execDelayReqSend, State.advance_tim, hat, hmaster, hon]
    exact (if_neg (by simp)).trans ((if_neg (ne_false_of_eq_true hfits)).trans (if_neg (ne_false_of_eq_true hopen)))
  case announce =>
    intro s h a t hheard hport
    have hheard : (s.advance t).ptpHeard h = true := hheard
    let a1 : PtpAnnounce := { a with sender := h.master, logInterval := h.logInterval }
    let s1 := ((s.advance t).modPtp h.port (hearAnnounce a1 (max s.now t))).selectMaster
    refine ⟨if s1.tim.master = some (h.port, h.master) then s1.announcedUtc a1 else s1, if_neg (by simp [hheard]), ?_⟩
    have hports : (if s1.tim.master = some (h.port, h.master) then s1.announcedUtc a1 else s1).tim.ports = s1.tim.ports := by
      split
      · exact State.announcedUtc_ports s1 a1
      · rfl
    have hmod := State.modPtp_port (s := s.advance t) (f := hearAnnounce a1 (max s.now t)) hport
    rw [Tim.port_congr hports, Tim.port_congr (State.selectMaster_ports _), hmod]
    exact List.getLast?_concat
  case timeout =>
    intro s p m t
    let gone := fun (f : Foreign) => decide (f.announce.sender = m ∧ f.heard + 3 * intervalTicks f.announce.logInterval ≤ max s.now t)
    refine ⟨if (s.tim.port p).foreign.any gone = false then s.advance t
      else ((s.advance t).modPtp p fun x => { x with foreign := x.foreign.filter fun f => !gone f }).selectMaster, rfl, fun f hf => ?_⟩
    suffices hstays : gone f = false from of_decide_eq_false hstays
    split at hf
    · next hnone => exact Bool.eq_false_iff.2 (List.any_eq_false.1 hnone f hf)
    · rw [Tim.port_congr (State.selectMaster_ports _)] at hf
      by_cases hport : p.val < s.tim.ports.length
      · rw [State.modPtp_port (s := s.advance t) hport] at hf
        simpa using (List.mem_filter.1 hf).2
      · have hnone : (((s.advance t).modPtp p fun x => { x with foreign := x.foreign.filter fun f => !gone f }).tim.port p).foreign = [] :=
          congrArg PtpPort.foreign (List.getD_eq_default _ _ (by simpa [State.modPtp, State.modTim] using hport))
        rw [hnone] at hf
        cases hf

/-! ## Counters and ports -/

/-- A counter reads one more, until it stays at its end (R13). -/
theorem State.reg_bump_same (s : State) (c : Counter) : (s.bump c).reg c.addr = BitVec.ofNat 32 (satAdd 32 (s.reg c.addr).toNat 1) := by
  refine State.reg_setReg_nonzero s c.addr ?_
  have hpos : 0 < satAdd 32 (s.reg c.addr).toNat 1 ∧ satAdd 32 (s.reg c.addr).toNat 1 < 2 ^ 32 := by
    simp only [satAdd, maxOf]
    omega
  intro hzero
  have hnat := congrArg BitVec.toNat hzero
  rw [BitVec.toNat_ofNat, Nat.mod_eq_of_lt hpos.2] at hnat
  exact absurd hnat (Nat.ne_of_gt hpos.1)

theorem State.modEthPort_port {s : State} {p : Nat} {f : EthPort → EthPort} (h : p < s.eth.ports.length) :
    (s.modEthPort p f).ethPort p = f (s.ethPort p) := by
  show (s.eth.ports.set p (f (s.ethPort p))).getD p _ = _
  rw [List.getD_eq_getElem _ _ (by simpa using h), List.getElem_set_self]

/-- What a change of a port leaves of it, where it stands in the list or not. -/
theorem State.modEthPort_keeps {α : Type} {s : State} {p : Nat} {f : EthPort → EthPort} (g : EthPort → α)
    (h : g (f (s.ethPort p)) = g (s.ethPort p)) : g ((s.modEthPort p f).ethPort p) = g (s.ethPort p) := by
  by_cases hp : p < s.eth.ports.length
  · rw [State.modEthPort_port hp, h]
  · have hsame : s.eth.ports.set p (f (s.ethPort p)) = s.eth.ports := List.set_eq_of_length_le (Nat.not_lt.1 hp)
    show g ((s.eth.ports.set p (f (s.ethPort p))).getD p _) = _
    rw [hsame]
    rfl

/-- Whether a gate is open for a frame does not depend on what waits at its port (R96, R418). -/
theorem State.gateWait_launches (s : State) (p : Nat) (f : List LaunchFrame → List LaunchFrame) (traffic : Fin 8) (bits ns : Nat) :
    (s.modEthPort p fun x => { x with launches := f x.launches }).gateWait p traffic bits ns = s.gateWait p traffic bits ns := by
  have hmode := s.modEthPort_keeps (p := p) (f := fun x => { x with launches := f x.launches }) EthPort.mode rfl
  have hgates := s.modEthPort_keeps (p := p) (f := fun x => { x with launches := f x.launches }) EthPort.gates rfl
  have hfrom := s.modEthPort_keeps (p := p) (f := fun x => { x with launches := f x.launches }) EthPort.gclFrom rfl
  unfold State.gateWait State.gateOpenFor State.frameNs
  rw [hmode, hgates, hfrom]
  rfl

/-! ## What runs out, and what acts at its time -/

theorem State.setPulse_pulse {s : State} {o : Nat} {p : Pulse} (h : o < s.tim.pulses.length) : (s.setPulse o p).tim.pulse o = p := by
  show (s.tim.pulses.set o p).getD o _ = _
  rw [List.getD_eq_getElem _ _ (by simpa using h), List.getElem_set_self]

theorem Tim.length_of_pulse {t : Tim} {o : Nat} {f : Nat} (h : (t.pulse o).fallAt = some f) : o < t.pulses.length := by
  by_contra hp
  have hnone : t.pulse o = ⟨0, 0, 0, 0, false, none, 0⟩ := List.getD_eq_default _ _ (Nat.not_lt.1 hp)
  rw [hnone] at h
  cases h

/-- A frame that is due as it starts, with no wait for its gate, goes out. -/
theorem State.launchNow_out {s : State} {p : Nat} {c : Fin 8} {bytes : List Byte} {sec ns due : Nat}
    (h : s.gateWait p c (8 * bytes.length) due = 0) :
    (s.launchNow p ⟨c.val, bytes, sec, ns⟩ due due false).out = .launch p c.val bytes true 0 :: s.out := by
  have hclass : (⟨c.val % 8, Nat.mod_lt _ (by decide)⟩ : Fin 8) = c := Fin.ext (Nat.mod_eq_of_lt c.isLt)
  unfold State.launchNow
  extract_lets traffic late limit done
  have hlate : late = 0 := by
    show due - due + s.gateWait p traffic (8 * bytes.length) due = 0
    rw [show traffic = c from hclass, h]
    simp
  rw [if_pos ⟨hlate, rfl⟩]
  show Emission.launch p c.val bytes true late :: s.out = _
  rw [hlate]

/-- Settles O16: each row is the branch in which its time has come. -/
theorem timedStatesEndAndOutputsAct : Obligations.TimedStatesEndAndOutputsAct := by
  unfold Obligations.TimedStatesEndAndOutputsAct
  refine ⟨?proportional, ?permit, ?leap, ?expert, ?nonce, ?rise, ?fall, ?launch, ?held, ?due, ?long⟩
  case proportional =>
    intro s t a hat hlate
    refine ⟨((s.advance t).setRate s.tim.integral).modTim fun x => { x with propUntil := none }, ?_, rfl, rfl, rfl, rfl⟩
    simp only [exec, execProportionalEnd, State.advance_tim, hat]
    exact next_of_eq (if_neg (Nat.not_lt.2 hlate))
  case permit =>
    intro s t p hpermit hlate
    refine ⟨(s.advance t).modTim fun x => { x with permit := none }, ?_, rfl, rfl⟩
    simp only [exec, execStepPermitExpiry, State.advance_tim, hpermit]
    exact next_of_eq (if_neg (Nat.not_lt.2 hlate))
  case leap =>
    intro s t hrun hleap hlate
    refine ⟨_, next_of_eq (if_neg (not_or.2 ⟨by simp [hrun], not_or.2 ⟨hleap, Int.not_lt.2 hlate⟩⟩)), ?_, rfl⟩
    show (((s.tim.utcOffset : Int) + s.tim.leap).toNat : Int) = _
    rw [Int.toNat_eq_max, max_comm]
  case expert =>
    intro s t a hat hlate
    refine ⟨(s.advance t).endExpert 0, ?_, ?_⟩
    · simp only [exec, execExpertSessionExpiry, State.advance_boot, hat]
      exact next_of_eq (if_neg (Nat.not_lt.2 hlate))
    · simp only [State.endExpert, State.advance_boot, hat]
      exact congrArg Boot.expertUntil (keeps_State_event .boot (by decide))
  case nonce =>
    intro s t hvalid
    refine ⟨_, rfl, fun x hx => (List.mem_filter.1 hx).1, fun n a hx => ?_, fun n a b hx => ?_⟩
    · refine List.mem_filter.trans ((and_iff_right hx).trans ?_)
      simp [hvalid]
    · refine List.mem_filter.trans ((and_iff_right hx).trans ?_)
      exact decide_eq_true_iff
  case rise =>
    intro s o t i hrun hlen hwidth hinstant hdue
    let p := s.tim.pulse o.val
    let s1 := ((s.advance t).setPulse o.val { p with next := p.next + 1, level := true, fallAt := some (i + p.width) }).emit
        (.pulse o.val true)
    have hrise : s1.tim.pulse o.val = { p with next := p.next + 1, level := true, fallAt := some (i + p.width) } :=
      State.setPulse_pulse (s := s.advance t) hlen
    have hpulse : (s1.firePulseTriggers o.val).tim.pulse o.val =
        { p with next := p.next + 1, level := true, fallAt := some (i + p.width) } :=
      (congrArg (Tim.pulse · o.val) (keeps_State_firePulseTriggers .tim (by decide))).trans hrise
    refine ⟨s1.firePulseTriggers o.val, ?_, by rw [hpulse], by rw [hpulse], by rw [hpulse]⟩
    simp only [exec, execPulseInstant, State.advance_tim, hinstant]
    refine (if_neg (not_or.2 ⟨ne_false_of_eq_true hrun, Nat.not_lt.2 hdue⟩)).trans ?_
    exact next_of_eq (congrArg (State.firePulseTriggers · o.val) (if_neg hwidth))
  case fall =>
    intro s o t f hfall hdue
    let p := s.tim.pulse o.val
    have hpulse : ((s.advance t).setPulse o.val { p with level := false, fallAt := none }).tim.pulse o.val =
        { p with level := false, fallAt := none } :=
      State.setPulse_pulse (s := s.advance t) (Tim.length_of_pulse hfall)
    refine ⟨((s.advance t).setPulse o.val { p with level := false, fallAt := none }).emit (.pulse o.val false), ?_,
      congrArg Pulse.level hpulse, congrArg Pulse.fallAt hpulse, rfl⟩
    simp only [exec, execPulseFall, State.advance_tim, hfall]
    exact next_of_eq (if_neg (Nat.not_lt.2 hdue))
  case launch =>
    intro s p c bytes ns ahead t hlink hnew hfits hopen
    refine ⟨((s.advance t).emit (.launch p.val c.val bytes true 0)).bump (cEthFramesTx p.val), ?_, rfl⟩
    exact (if_neg (ne_false_of_eq_true hlink)).trans ((if_neg hnew).trans ((if_neg (ne_false_of_eq_true hfits)).trans
        (if_pos ⟨rfl, hopen⟩)))
  case held =>
    intro s p c bytes sec ns ahead t hlink hlen hnew hsec hfits hahead hnear
    have hport := State.modEthPort_port (s := s.advance t) (f := fun x =>
        { x with launches := x.launches ++ [⟨c.val, bytes, sec, ns⟩] }) hlen
    refine ⟨(s.advance t).modEthPort p.val fun x => { x with launches := x.launches ++ [⟨c.val, bytes, sec, ns⟩] }, ?_, rfl, ?_⟩
    · exact (if_neg (ne_false_of_eq_true hlink)).trans ((if_neg hnew).trans ((if_neg (ne_false_of_eq_true hfits)).trans
        ((if_neg fun h => hsec h.1).trans ((if_neg (Nat.not_lt.2 hnear)).trans (if_pos (Or.inl hahead))))))
    · rw [hport]
      exact List.mem_append_right _ (List.mem_singleton_self _)
  case due =>
    intro s p c bytes sec ns t hlink hheld hsec hdue hwait
    let due := sec * 1000000000 + ns
    let f : LaunchFrame := ⟨c.val, bytes, sec, ns⟩
    let s1 := (s.advance t).modEthPort p.val fun x => { x with launches := x.launches.erase f }
    have hwait1 : s1.gateWait p.val c (8 * bytes.length) due = 0 := ((s.advance t).gateWait_launches p.val
        (fun l => l.erase f) c _ due).trans hwait
    refine ⟨s1.launchNow p.val f due due false, ?_, State.launchNow_out hwait1⟩
    refine (if_neg (ne_false_of_eq_true hlink)).trans ((if_pos hheld).trans (next_of_eq ((if_neg ?_).trans ?_)))
    · exact not_or.2 ⟨Nat.not_lt.2 hdue, fun h => hsec h.1⟩
    · rw [if_neg hsec]
      rfl
  case long =>
    intro s p c bytes sec ns ahead t hlink hnew hfits
    refine ⟨(s.advance t).bump (cEthGateTooLong p.val), ?_, rfl, (s.advance t).reg_bump_same _⟩
    exact (if_neg (ne_false_of_eq_true hlink)).trans ((if_neg hnew).trans (if_pos hfits))

end Sys2Proof.Machine

/-! # Frames that enter -/

namespace Sys2Proof.Machine

-- One theorem after the other: a thread for each would pass the memory limit of the check.
set_option Elab.async false

/-! ## Lists of queues: a place that stands, changed -/

theorem List.getD_set_self {α : Type} {l : List α} {n : Nat} {a d : α} (h : n < l.length) : (l.set n a).getD n d = a := by
  rw [List.getD_eq_getElem _ _ (by simpa using h), List.getElem_set_self]

theorem List.getD_set_of_ne {α : Type} {l : List α} {n m : Nat} {a d : α} (h : n ≠ m) : (l.set n a).getD m d = l.getD m d := by
  simp [List.getD_eq_getElem?_getD, List.getElem?_set_ne h]

/-- A place that holds something but the default is in the list. -/
theorem List.lt_length_of_getD_ne {α : Type} {l : List α} {n : Nat} {d : α} (h : l.getD n d ≠ d) : n < l.length := by
  by_contra hn
  exact h (List.getD_eq_default _ _ (Nat.not_lt.1 hn))

/-- A value that is not the table's default is read as written. -/
theorem Table.get_set_ne {α : Type} [DecidableEq α] {d : α} {t : Table α} {k : Nat} {v : α} (h : v ≠ d) :
    Table.get d (Table.set d t k v) k = v := by
  rw [Table.set, if_neg h, Table.get_put]

/-! ## FIFO words (R103, R106) -/

theorem leBytes_length (n v : Nat) : (leBytes n v).length = n := by
  induction n generalizing v with
  | zero => rfl
  | succ n ih => simp [leBytes, ih]

theorem frameData_length (f : Frame) : (frameData f).length = frameLen f := by
  simp [frameData, headerBytes, frameLen, leBytes_length]
  omega

theorem packWords_length (n : Nat) (ws : List PortWord) : (packWords n ws).length = n := by
  induction n generalizing ws with
  | zero => rfl
  | succ n ih => simp [packWords, ih]

theorem fifoData_length (bs : List Byte) : (fifoData bs).length = fifoWords bs.length := packWords_length _ _

/-! ## The entrance (R102, R104) -/

theorem State.checkThreshold_ing (s : State) (n : Nat) : ∃ high, (s.checkThreshold n).ing = { s.ing with thrHigh := high } := by
  unfold State.checkThreshold
  extract_lets t high reached i s1
  refine ⟨s1.ing.thrHigh, ?_⟩
  split
  · exact (keeps_State_raiseInt .ing (by decide) : (s1.raiseInt 0x120004 n).ing = s1.ing)
  · rfl

theorem State.checkThreshold_keeps (s : State) (n : Nat) :
    (s.checkThreshold n).ing.lanes = s.ing.lanes ∧ (s.checkThreshold n).ing.ticket = s.ing.ticket := by
  obtain ⟨high, hing⟩ := State.checkThreshold_ing s n
  exact ⟨(congrArg Ing.lanes hing :), (congrArg Ing.ticket hing :)⟩

/-- What a frame that fits does in ING (R102, R103, R107). -/
theorem State.ingestFrame_ing {s : State} {f : Frame} (h : s.frameFits f = true) :
    ∃ high, (s.ingestFrame f).ing = { s.ing with
      credits := s.ing.credits.set f.src (s.ing.credits.getD f.src 0 - fifoWords (frameLen f)),
      fifos := s.ing.fifos.set f.src (s.fifo f.src ++ [⟨s.ing.ticket, fifoData (frameData f), .frame f⟩]),
      ticket := s.ing.ticket + 1, thrHigh := high } := by
  have hfit := h
  unfold State.frameFits at hfit
  simp only [Bool.and_eq_true, decide_eq_true_eq] at hfit
  obtain ⟨⟨⟨hsrc, hlen⟩, -⟩, -⟩ := hfit
  unfold State.ingestFrame
  rw [if_neg (by omega), if_neg (by omega), if_neg (by simp [h])]
  extract_lets d i i1
  obtain ⟨high, hing⟩ := State.checkThreshold_ing ({ s with ing := i1 }.takeTicket) f.src
  refine ⟨high, hing.trans ?_⟩
  have hd : d.length = fifoWords (frameLen f) := by rw [fifoData_length, frameData_length]
  simp only [State.takeTicket, i1, hd]
  rfl

theorem State.ingestFrame_fifo {s : State} {f : Frame} (h : s.frameFits f = true) (hlen : f.src < s.ing.fifos.length) :
    (s.ingestFrame f).fifo f.src = s.fifo f.src ++ [⟨s.ing.ticket, fifoData (frameData f), .frame f⟩] := by
  obtain ⟨high, hing⟩ := State.ingestFrame_ing h
  unfold State.fifo
  rw [hing]
  exact List.getD_set_self hlen

/-- A PLC or RF frame that is not oversize and does not fit is dropped at the entrance (R102). -/
theorem State.ingestFrame_dropped {s : State} {f : Frame} (hsrc : f.src ≤ 4) (hlen : frameLen f ≤ frameLimit f.src)
    (h : s.frameFits f = false) : s.ingestFrame f = s.entranceDrop f.src false := by
  unfold State.ingestFrame
  rw [if_neg (by omega), if_neg (by omega), if_pos h, if_pos hsrc]

/-! ## Steering (R107) -/

theorem State.readFifo_keeps (s : State) (n : Nat) (x : Ticketed) :
    (s.readFifo n x).ing.lanes = s.ing.lanes ∧ (s.readFifo n x).ing.ticket = s.ing.ticket := by
  unfold State.readFifo
  split
  · exact ⟨rfl, rfl⟩
  · exact State.checkThreshold_keeps _ n

theorem State.pushLane_lane {s : State} {l : Nat} {i : Option Nat} {x : Ticketed} (h : l < s.ing.lanes.length) :
    (s.pushLane l i x).lane l = s.lane l ++ [⟨i, false, x⟩] := List.getD_set_self h

/-! ## The bundle splitter (R135, R137) -/

theorem State.splitEntry_ing (s : State) (src k : Nat) (e : RelayEntry) :
    (State.splitEntry src k s e).ing.senders = s.ing.senders ∧ (State.splitEntry src k s e).ing.splitter = s.ing.splitter := by
  unfold State.splitEntry
  split
  · have h : (s.note cSplitEntryKindRefused .operations .none 0 0).ing = s.ing := keeps_State_note .ing (by decide)
    exact ⟨congrArg Ing.senders h, congrArg Ing.splitter h⟩
  · exact ⟨rfl, rfl⟩

theorem State.splitEntries_ing (l : List RelayEntry) (s : State) (src k : Nat) :
    (l.foldl (State.splitEntry src k) s).ing.senders = s.ing.senders ∧
      (l.foldl (State.splitEntry src k) s).ing.splitter = s.ing.splitter := by
  induction l generalizing s with
  | nil => exact ⟨rfl, rfl⟩
  | cons e l ih =>
    obtain ⟨hs, hp⟩ := State.splitEntry_ing s src k e
    obtain ⟨hs', hp'⟩ := ih (State.splitEntry src k s e)
    exact ⟨hs'.trans hs, hp'.trans hp⟩

theorem State.acceptBundle_again {s : State} {b : RelayBundle} {src k : Nat}
    (h : b.seq ∈ (Table.get SenderState.fresh s.ing.senders k).seqs) : (s.acceptBundle b src k).ing = s.ing := by
  unfold State.acceptBundle
  rw [if_pos h]
  exact keeps_State_note .ing (by decide)

theorem State.acceptBundle_new {s : State} {b : RelayBundle} {src k : Nat}
    (h : b.seq ∉ (Table.get SenderState.fresh s.ing.senders k).seqs) :
    Table.get SenderState.fresh (s.acceptBundle b src k).ing.senders k =
        ⟨(b.seq :: (Table.get SenderState.fresh s.ing.senders k).seqs).take 64, s.sec2020, b.senderRotation⟩ ∧
      (s.acceptBundle b src k).ing.splitter = s.ing.splitter := by
  unfold State.acceptBundle
  rw [if_neg h]
  extract_lets st1 i s1
  have hget : Table.get SenderState.fresh s1.ing.senders k = st1 := by
    have hne : st1 ≠ SenderState.fresh := fun h =>
      List.cons_ne_nil b.seq _ (congrArg SenderState.seqs h : b.seq :: _ = [])
    exact Table.get_set_ne (t := s.ing.senders) hne
  split
  · exact ⟨hget, rfl⟩
  · obtain ⟨hs, hp⟩ := State.splitEntries_ing b.entries s1 src k
    exact ⟨(congrArg (Table.get SenderState.fresh · k) hs).trans hget, hp⟩

theorem State.parityStage_kept {s : State} {l : Nat} {fs : List ParityFault} (h : fs.any parityLost = false) :
    s.parityStage l fs = (s.bumpBy (cLaneParityReplay l) ((fs.takeWhile fun x => !parityLost x).filter parityReplayed).length, true) := by
  unfold State.parityStage
  exact if_neg (ne_true_of_eq_false h)

theorem State.parityStage_lost {s : State} {l : Nat} {fs : List ParityFault} (h : fs.any parityLost = true) :
    (s.parityStage l fs).2 = false := by
  unfold State.parityStage
  rw [if_pos h]

theorem State.parityStage_ing (s : State) (l : Nat) (fs : List ParityFault) : (s.parityStage l fs).1.ing = s.ing :=
  keeps_State_parityStage .ing (by decide)

/-- The senders that the settings name. -/
theorem State.keepsBut.findSender {A : List Part} {s u : State} (h : s.keepsBut A u) (id : Nat)
    (sub : Part.cfg ∉ A ∧ Part.boot ∉ A ∧ Part.sec ∉ A := by decide) : u.findSender id = s.findSender id := by
  unfold State.findSender State.itemField
  simp only [h.itemBytes _ sub]

theorem State.usableWithin_of {s u : State} (h : u.sec = s.sec) (n k : Nat) : u.usableWithin n k = s.usableWithin n k := by
  induction n generalizing k with
  | zero => rfl
  | succ n ih =>
    simp only [State.usableWithin, State.keySlot, State.slotGen, h, ih]
    rfl

/-- A sender's check value stands on its key (R135). -/
theorem State.keepsBut.bundleVerifies {A : List Part} {s u : State} (h : s.keepsBut A u) (b : RelayBundle) (k : Nat)
    (sub : Part.cfg ∉ A ∧ Part.boot ∉ A ∧ Part.sec ∉ A := by decide) : u.bundleVerifies b k = s.bundleVerifies b k := by
  have hsec : u.sec = s.sec := h .sec sub.2.2
  unfold State.bundleVerifies State.cmacUnder State.keyUsable State.keySlot State.itemField
  simp only [h.itemBytes _ sub, hsec, State.usableWithin_of hsec]

/-- Wall time stands on the clock and on TIM. -/
theorem State.keepsBut.sec2020 {A : List Part} {s u : State} (h : s.keepsBut A u)
    (sub : Part.now ∉ A ∧ Part.tim ∉ A := by decide) : u.sec2020 = s.sec2020 := by
  have hnow : u.now = s.now := h .now sub.1
  have htim : u.tim = s.tim := h .tim sub.2
  unfold State.sec2020 State.wallSec State.wall
  rw [hnow, htim]

/-- How a bundle at the head of the splitter is judged (R135): the state after its frame has been read, and what follows. -/
theorem exec_bundleSplit_of_bundle {s : State} {t : Nat} {x : Ticketed} {f : Frame} {b : RelayBundle} {peer : Option (Fin 2 × Fin 32)}
    (hon : s.pipeOff = false) (hx : s.ing.splitter = [x]) (hb : x.body = .frame f) (hf : f.body = .bundle b peer) :
    ∃ s1, s1 = { s.advance t with ing := { s.ing with splitter := [] } } ∧ exec (.bundleSplit t) s =
      .next (if (s1.parityStage 0 f.faults).2 = false then (s1.parityStage 0 f.faults).1
        else if bundleFormatOk b = false then ((s1.parityStage 0 f.faults).1.bump cSplitBundlesIn).note cSplitFormatErr .operations
            .none 0 0
        else match ((s1.parityStage 0 f.faults).1.bump cSplitBundlesIn).findSender b.senderId.toNat with
          | none => ((s1.parityStage 0 f.faults).1.bump cSplitBundlesIn).note cSplitUnknownSender .security .none 0 0
          | some k =>
            if ((s1.parityStage 0 f.faults).1.bump cSplitBundlesIn).bundleVerifies b k = false then
              ((s1.parityStage 0 f.faults).1.bump cSplitBundlesIn).note cSplitCmacFail .security .none 0 0
            else (((s1.parityStage 0 f.faults).1.bump cSplitBundlesIn).acceptBundle b f.src k).ackBundle b peer) := by
  refine ⟨_, rfl, ?_⟩
  show execBundleSplit t s = _
  have hx' : (s.advance t).ing.splitter = [x] := hx
  have hon' : (s.advance t).pipeOff ≠ true := ne_true_of_eq_false hon
  unfold execBundleSplit
  simp only [hx', hb, hf]
  exact if_neg hon'

/-- A bundle of a known sender whose check holds is accepted and acknowledged (R135, R137). -/
theorem exec_bundleSplit_verified {s : State} {t k : Nat} {x : Ticketed} {f : Frame} {b : RelayBundle} {peer : Option (Fin 2 × Fin 32)}
    (hon : s.pipeOff = false) (hx : s.ing.splitter = [x]) (hb : x.body = .frame f) (hclean : f.faults.any parityLost = false)
    (hf : f.body = .bundle b peer) (hform : bundleFormatOk b = true) (hk : s.findSender b.senderId.toNat = some k)
    (hver : s.bundleVerifies b k = true) :
    ∃ s2 : State, (s2.ing = { s.ing with splitter := [] } ∧ s2.sec2020 = (s.advance t).sec2020) ∧
      exec (.bundleSplit t) s = .next ((s2.acceptBundle b f.src k).ackBundle b peer) := by
  obtain ⟨s1, hs1, hexec⟩ := exec_bundleSplit_of_bundle (t := t) hon hx hb hf
  have hparity := State.parityStage_kept (s := s1) (l := 0) hclean
  have hread : (s.advance t).keepsBut [.ing, .way, .host, .limits, .regs, .out] ((s1.parityStage 0 f.faults).1.bump cSplitBundlesIn) := by
    rw [hs1]
    exact keeps_with_ing.within |>.then keeps_State_parityStage |>.then keeps_State_bump
  have hkeep : s.keepsBut [.now, .ing, .way, .host, .limits, .regs, .out] ((s1.parityStage 0 f.faults).1.bump cSplitBundlesIn) :=
    keeps_State_advance.within |>.then hread
  refine ⟨(s1.parityStage 0 f.faults).1.bump cSplitBundlesIn, ⟨?_, ?_⟩, hexec.trans (next_of_eq ?_)⟩
  · rw [(keeps_State_bump .ing (by decide) : State.ing _ = _), State.parityStage_ing, hs1]
  · exact hread.sec2020
  · rw [if_neg (by rw [hparity]; nofun), if_neg (by rw [hform]; decide)]
    simp only [hkeep.findSender, hk, hkeep.bundleVerifies, hver]
    exact if_neg (by decide)

theorem State.advanceBundleSeq_ing (s : State) :
    s.advanceBundleSeq.ing = { s.ing with outSeq := (s.ing.outSeq + 1) % 2 ^ 32 } := by
  unfold State.advanceBundleSeq
  extract_lets q i s1 ahead n
  rw [apply_ite State.ing]
  exact ite_self _

/-- What closing a bundle leaves of it (R135). -/
theorem State.closeBundle_ing {s : State} (h : s.ing.outEntries ≠ []) :
    s.closeBundle.ing =
      { s.ing with outEntries := [], outBytes := 0, outFirst := none, outSeq := (s.ing.outSeq + 1) % 2 ^ 32 } := by
  unfold State.closeBundle
  rw [if_neg h]
  extract_lets k b i s1 s2
  have hs2 : s2.ing = s1.advanceBundleSeq.ing := keeps_State_bump .ing (by decide)
  have hadvance := State.advanceBundleSeq_ing s1
  rw [show s1.ing.outSeq = s.ing.outSeq from rfl] at hadvance
  refine Eq.trans ?_ (hs2.trans hadvance)
  clear_value b s2
  split
  · exact keeps_State_sendBundle .ing (by decide)
  · exact ((keeps_State_bump.within (L := [.regs, .eth])).then keeps_State_holdBundle) .ing (by decide)

/-- Settles O17. -/
theorem framesEnterInTicketOrder : Obligations.FramesEnterInTicketOrder := by
  unfold Obligations.FramesEnterInTicketOrder
  refine ⟨?enters, ?dropped, ?steered, ?split, ?credit, ?taken, ?again, ?bad, ?closed⟩
  case enters =>
    intro s f hlen _ hfit
    obtain ⟨high, hing⟩ := State.ingestFrame_ing hfit
    exact ⟨_, rfl, State.ingestFrame_fifo hfit hlen, (congrArg Ing.ticket hing :), (congrArg Ing.credits hing :)⟩
  case dropped =>
    intro s f hsrc hlen hfit
    exact ⟨_, congrArg Host.Outcome.next (State.ingestFrame_dropped hsrc hlen hfit), keeps_State_entranceDrop .ing (by decide)⟩
  case steered =>
    intro s n x l i hon hx hto hroom hl
    obtain ⟨hlanes, hticket⟩ := State.readFifo_keeps s n x
    refine ⟨(s.readFifo n x).pushLane l i x, next_of_eq ((if_neg (ne_true_of_eq_false hon)).trans ?_), ?_, hticket⟩
    · simp only [State.steer, hx, hto, hroom]
      exact if_neg (by decide)
    · rw [State.pushLane_lane (hlanes ▸ hl)]
      exact congrArg (fun ls => List.getD ls l [] ++ [⟨i, false, x⟩]) hlanes
  case split =>
    intro s n x hon hx hto hempty
    have hsteer : s.steer = { s.readFifo n x with ing := { (s.readFifo n x).ing with splitter := [x] } } := by
      simp only [State.steer, hx, hto]
      exact if_neg (not_not.2 hempty)
    exact ⟨s.steer, next_of_eq (if_neg (ne_true_of_eq_false hon)), congrArg (fun u => u.ing.splitter) hsteer⟩
  case credit =>
    intro s src hc hr
    exact ⟨_, rfl, List.getD_set_self hc, List.getD_set_self hr, rfl⟩
  case taken =>
    intro s t x f b peer k hon hx hb hclean hf hform hk hver hnew
    obtain ⟨s2, hkeep, hexec⟩ := exec_bundleSplit_verified (t := t) hon hx hb hclean hf hform hk hver
    have hing : s2.ing = { s.ing with splitter := [] } := hkeep.1
    obtain ⟨hset, hsplit⟩ := State.acceptBundle_new (s := s2) (b := b) (src := f.src) (k := k) (by rw [hing]; exact hnew)
    have hack : ((s2.acceptBundle b f.src k).ackBundle b peer).ing = (s2.acceptBundle b f.src k).ing :=
      keeps_State_ackBundle .ing (by decide)
    refine ⟨_, hexec, ?_, ?_⟩
    · rw [hack, hsplit, hing]
    · rw [hack, hset, hing, hkeep.2]
  case again =>
    intro s t x f b peer k hon hx hb hclean hf hform hk hver hseen
    obtain ⟨s2, hkeep, hexec⟩ := exec_bundleSplit_verified (t := t) hon hx hb hclean hf hform hk hver
    have hing : s2.ing = { s.ing with splitter := [] } := hkeep.1
    refine ⟨_, hexec, ?_⟩
    calc ((s2.acceptBundle b f.src k).ackBundle b peer).ing
        = (s2.acceptBundle b f.src k).ing := keeps_State_ackBundle .ing (by decide)
      _ = s2.ing := State.acceptBundle_again (by rw [hing]; exact hseen)
      _ = _ := hing
  case bad =>
    intro s t x f b peer hon hx hb hf hbad
    obtain ⟨s1, hs1, hexec⟩ := exec_bundleSplit_of_bundle (t := t) hon hx hb hf
    have hing : s1.ing = { s.ing with splitter := [] } := by rw [hs1]
    refine ⟨_, hexec, ?_⟩
    by_cases hlost : f.faults.any parityLost = true
    · rw [if_pos (State.parityStage_lost hlost), State.parityStage_ing, hing]
    · rw [if_neg (by rw [State.parityStage_kept (eq_false_of_ne_true hlost)]; nofun), if_pos (hbad.resolve_left hlost)]
      calc _ = _ := keeps_State_note .ing (by decide)
        _ = (s1.parityStage 0 f.faults).1.ing := keeps_State_bump .ing (by decide)
        _ = _ := by rw [State.parityStage_ing, hing]
  case closed =>
    intro s t f boundary hfirst hne hdue
    have hfirst' : (s.advance t).ing.outFirst = some f := hfirst
    have hing := State.closeBundle_ing (s := s.advance t) hne
    refine ⟨_, ?_, (congrArg Ing.outEntries hing :), (congrArg Ing.outBytes hing :), (congrArg Ing.outFirst hing :),
      (congrArg Ing.outSeq hing :)⟩
    show execBundleClose boundary t s = _
    unfold execBundleClose
    simp only [hfirst']
    exact next_of_eq (if_pos hdue)

end Sys2Proof.Machine

/-! # Fills and built records -/

namespace Sys2Proof.Machine

-- One theorem after the other: a thread for each would pass the memory limit of the check.
set_option Elab.async false

/-! ## Lane items that are ready -/

theorem State.readyIn_of {s u : State} (h : u.ing = s.ing) (want : LaneBody → Bool) (l : List LaneItem) (seen : List (Option Nat)) :
    u.readyIn want l seen = s.readyIn want l seen := by
  have hcached : ∀ i, u.cached i = s.cached i := fun i => by
    unfold State.cached State.cacheSet
    rw [h]
  induction l generalizing seen with
  | nil => rfl
  | cons y ys ih =>
    unfold State.readyIn
    simp only [hcached, ih]

/-! ## Contexts, written and read -/

/-- A context that is not the empty one is read as written. -/
theorem State.setCtx_ctxAt {s : State} {i : Nat} {c : Context} (h : c.state ≠ .empty) : (s.setCtx i c).ctxAt i = c :=
  Table.get_set_ne fun hc => h (congrArg Context.state hc)

/-- Another context stands as it stood. -/
theorem State.setCtx_ctxAt_other {s : State} {i j : Nat} {c : Context} (h : j ≠ i) : (s.setCtx i c).ctxAt j = s.ctxAt j :=
  Table.get_set_other _ _ _ h

theorem State.ctxAt_of {s u : State} (h : u.ctx = s.ctx) (i : Nat) : u.ctxAt i = s.ctxAt i :=
  congrArg (Table.get Context.empty · i) h

/-! ## Context fills (R113 to R115) -/

theorem State.keepsBut.contextKeys {A : List Part} {s u : State} (h : s.keepsBut A u) (c : Context) (sub : Part.sec ∉ A := by decide) :
    u.contextKeys c = s.contextKeys c := by
  have hsec : u.sec = s.sec := h .sec sub
  unfold State.contextKeys State.unwrapUnder State.keyUsable State.keySlot State.slotGen
  simp only [hsec, State.usableWithin_of hsec]

/-- The lane's oldest fill, at its end (R115). -/
theorem exec_contextFill {s : State} {lane : Fin 4} {ecc : EccOutcome} {t i : Nat} {rest : List Nat} (hon : s.pipeOff = false)
    (hfills : s.laneFills lane.val = i :: rest) :
    ∃ s1, s.keepsBut [.now, .way, .host, .limits, .regs, .out] s1 ∧ exec (.contextFill lane ecc t) s =
      if ecc = .uncorrectable ∨ (s1.ctxAt i).crcOk = false then .next ((s1.endFill i true).loseContext i)
      else if decide ((s1.ctxAt i).state ≠ .empty ∧ (s1.ctxAt i).state ≠ .forward ∧ (s1.ctxAt i).state ≠ .lost) = true ∧
          s1.keysUnwrap (s1.ctxAt i) = false then
        .next (match (s1.endFill i false).waiterOf i with
          | some x => ((s1.endFill i false).tagFails lane.val (s1.ctxAt i).gmn.toNat).leaveLane lane.val x
          | none => s1.endFill i false)
      else .next (s1.endFill i true) := by
  have hkeep : s.keepsBut [.now, .way, .host, .limits, .regs, .out] ((s.advance t).countEcc ecc) :=
    keeps_State_advance.within |>.then keeps_State_countEcc
  refine ⟨(s.advance t).countEcc ecc, hkeep, ?_⟩
  have hadvance : (s.advance t).pipeOff ≠ true := ne_true_of_eq_false hon
  have hpwr : ((s.advance t).countEcc ecc).pwr = s.pwr := hkeep .pwr (by decide)
  have hing : ((s.advance t).countEcc ecc).ing = s.ing := hkeep .ing (by decide)
  have hpipe : ((s.advance t).countEcc ecc).pipeOff ≠ true := by
    unfold State.pipeOff at hon ⊢
    rw [hpwr, hon]
    decide
  have hlane : ((s.advance t).countEcc ecc).laneFills lane.val = i :: rest := by
    unfold State.laneFills
    rw [hing]
    exact hfills
  show execContextFill lane ecc t s = _
  unfold execContextFill
  rw [if_neg hadvance]
  simp only [hlane]
  exact if_neg hpipe

theorem List.getD_set_default {α : Type} (l : List α) (n : Nat) (d : α) : (l.set n d).getD n d = d := by
  by_cases h : n < l.length
  · exact List.getD_set_self h
  · exact List.getD_eq_default _ _ (by simpa using Nat.not_lt.1 h)

/-- A fill that has ended well leaves its context in the cache. -/
theorem State.endFill_cached {s : State} {i w : Nat} (h : (s.cacheSet i).find (cacheTag i) = some w) :
    (s.endFill i true).cached i = true ∧ (s.endFill i true).ing.fills = s.ing.fills.set (i % 4) ((s.laneFills (i % 4)).erase i) := by
  let c := { s.cacheSet i with filling := (s.cacheSet i).filling.set w false }
  let s1 := { s with ing := { s.ing with fills := s.ing.fills.set (i % 4) ((s.laneFills (i % 4)).erase i) } }
  have hend : s.endFill i true = s1.setCache i (c.touch w) := by
    unfold State.endFill
    extract_lets l i0 u c0
    have hc : c0.find (cacheTag i) = some w := h
    split
    · rename_i hnone
      exact absurd (hc.symm.trans hnone) nofun
    · rename_i w' hsome
      cases Option.some.inj (hc.symm.trans hsome)
      rfl
  have hne : c.touch w ≠ CacheSet.empty := by
    intro hc
    have hways : (s.cacheSet i).ways = CacheSet.empty.ways := (congrArg CacheSet.ways hc :)
    have hw : ((s.cacheSet i).ways.getD w none == some (cacheTag i)) = true := 
      List.find?_some (p := fun w => (s.cacheSet i).ways.getD w none == some (cacheTag i)) h
    rw [hways, CacheSet.empty, List.getD_eq_getElem?_getD, List.getElem?_getD_replicate_default_eq] at hw
    exact absurd hw (by simp)
  have hset : (s1.setCache i (c.touch w)).cacheSet i = c.touch w := Table.get_set_ne hne
  rw [hend]
  refine ⟨?_, rfl⟩
  have hfind : (c.touch w).find (cacheTag i) = some w := h
  unfold State.cached
  simp only [hset, hfind]
  show (!((s.cacheSet i).filling.set w false).getD w false) = true
  rw [List.getD_set_default]
  rfl

theorem State.endFill_ctx (s : State) (i : Nat) (ok : Bool) : (s.endFill i ok).ctx = s.ctx := keeps_State_endFill .ctx (by decide)

/-- A context that is lost (R113). -/
theorem State.loseContext_ctxAt (s : State) (i : Nat) : ((s.loseContext i).ctxAt i).state = .lost := by
  have hctx : (s.loseContext i).ctx = (s.modCtx i fun c => { c with state := .lost }).ctx := keeps_State_raiseInt .ctx (by decide)
  rw [State.ctxAt_of hctx]
  unfold State.modCtx
  rw [State.setCtx_ctxAt (by nofun)]

/-! ## The record that firmware builds (R126) -/

/-- Whether a frame fits stands on ING, the role and the assignment. -/
theorem State.frameFits_of {s u : State} (hing : u.ing.creditsOpen = s.ing.creditsOpen ∧ u.ing.credits = s.ing.credits)
    (hboot : u.boot = s.boot)
    (hhwl : u.hwl = s.hwl) (f : Frame) : u.frameFits f = s.frameFits f := by
  unfold State.frameFits State.creditsFor
  rw [hing.1, hing.2, hboot, hhwl]

/-- The record that firmware builds from an entry whose check holds (R126). -/
def firmwareMade (s : State) (verified : Bool) (e : FwEntry) (built : Option Parsed) : Option Record :=
  if (decide (e.fck = crc32c e.stored) && (decide (3 ≤ e.reason) || verified)) = true then built.map (s.builtOf e) else none

theorem firmwareMade_of_check {s : State} {verified : Bool} {e : FwEntry} {p : Parsed} {t : Nat} (hfck : e.fck = crc32c e.stored)
    (hreason : 3 ≤ e.reason) : firmwareMade (s.advance t) verified e (some p) = some (s.builtOf e p) := by
  unfold firmwareMade
  simp only [hfck, hreason, decide_true, Bool.true_or, Bool.and_self, if_true, Option.map_some]
  rfl

/-- The state in which firmware has taken an entry of its ring (R126, R127). -/
def State.firmwareTaken (s : State) (good : Bool) (e : FwEntry) (rest : List FwEntry) (status : Option CampStatus) : State :=
  let s1 := ({ s with ing := { s.ing with fwRing := rest } }).advanceFwRead (BitVec.ofNat 32 (65536 * s.fwNext e.slots))
  let c := s1.ctxAt e.index
  let p := if e.reason ≤ 2 ∧ good = true then s1.answered e.frame.txnTag.toNat c.gmn (decide (e.frame.src = 3 ∨ e.frame.src = 4)) 0
    else (s1, e.answer)
  (p.1.finalAnswer? p.2).takeStatus c.gmn (if good = true then status else none)

theorem keeps_State_firmwareTaken {s : State} {good : Bool} {e : FwEntry} {rest : List FwEntry} {status : Option CampStatus} :
    s.keepsBut [.ing, .plc, .way, .host, .limits, .cch, .regs, .out, .upd, .txn, .rfm, .ctx] (s.firmwareTaken good e rest status) := by
  unfold State.firmwareTaken
  extract_lets i s1 c p
  have h1 : s.keepsBut [.ing, .plc, .way, .host, .limits, .cch, .regs, .out, .upd, .txn, .rfm, .ctx] s1 :=
    keeps_with_ing.within |>.then keeps_State_advanceFwRead
  have hp : s.keepsBut [.ing, .plc, .way, .host, .limits, .cch, .regs, .out, .upd, .txn, .rfm, .ctx] p.1 := by
    unfold p
    exact keepsBut_iteFst (h1.then keeps_State_answered) h1
  exact hp |>.then keeps_State_finalAnswerQ |>.then keeps_State_takeStatus

/-- What firmware leaves of ING when it takes an entry. -/
theorem State.firmwareTaken_ing (s : State) (good : Bool) (e : FwEntry) (rest : List FwEntry) (status : Option CampStatus) :
    ∃ used, (s.firmwareTaken good e rest status).ing = { s.ing with fwRing := rest, fwUsed := used } := by
  unfold State.firmwareTaken
  extract_lets i s1 c p
  have hp : s1.keepsBut [.plc, .way, .host, .limits, .cch, .regs, .out, .upd, .txn, .rfm, .ctx] p.1 := by
    unfold p
    exact keepsBut_iteFst keeps_State_answered.within (keepsBut_refl _ _)
  have hing : ((p.1.finalAnswer? p.2).takeStatus c.gmn (if good = true then status else none)).ing = s1.ing :=
    (hp |>.then keeps_State_finalAnswerQ |>.then keeps_State_takeStatus) .ing (by decide)
  exact ⟨s1.ing.fwUsed, hing⟩

/-- Firmware takes the oldest entry of its ring once the record that it builds fits; the record enters at source 10 (R126, R127). -/
theorem exec_firmwareRecordBuild {s : State} {verified : Bool} {status : Option CampStatus} {t : Nat} {e : FwEntry} {rest : List FwEntry}
    {built : Option Parsed} (hring : s.ing.fwRing = e :: rest) :
    ∃ good, (firmwareMade (s.advance t) verified e built = none →
        exec (.firmwareRecordBuild verified built status t) s = .next ((s.advance t).firmwareTaken good e rest status)) ∧
      ∀ r, firmwareMade (s.advance t) verified e built = some r →
        exec (.firmwareRecordBuild verified built status t) s =
          .next (if s.frameFits (builtFrame e r) = false then s.advance t
            else ((s.advance t).firmwareTaken good e rest status).ingestFrame (builtFrame e r)) := by
  have hring' : (s.advance t).ing.fwRing = e :: rest := hring
  refine ⟨decide (e.fck = crc32c e.stored) && (decide (3 ≤ e.reason) || verified), fun hmade => ?_, fun r hmade => ?_⟩
  all_goals
    show execFirmwareRecordBuild verified built status t s = _
    unfold firmwareMade at hmade
    unfold execFirmwareRecordBuild
    simp only [hring', hmade]
  · exact if_neg (by decide)
  · by_cases hfit : (s.advance t).frameFits (builtFrame e r) = false
    · exact (if_pos (by rw [hfit]; rfl)).trans (next_of_eq (if_pos hfit).symm)
    · exact (if_neg (by rw [eq_true_of_ne_false hfit]; decide)).trans (next_of_eq (if_neg hfit).symm)

/-! ## Mirrored records (R138) -/

/-- A mirrored record has left its lane and been counted. -/
def State.mirrorTaken (s : State) (l : Nat) (x : LaneItem) : State := (s.leaveLane l x).bump (cLaneFramesIn l)

theorem keeps_State_mirrorTaken {s : State} {l : Nat} {x : LaneItem} : s.keepsBut [.ing, .regs] (s.mirrorTaken l x) :=
  keeps_State_leaveLane.within |>.then keeps_State_bump

/-- The item that is ready stands in its lane. -/
theorem State.readyIn_mem {s : State} {want : LaneBody → Bool} {l : List LaneItem} {seen : List (Option Nat)} {x : LaneItem}
    (h : s.readyIn want l seen = some x) : x ∈ l := by
  induction l generalizing seen with
  | nil => exact absurd h nofun
  | cons y ys ih =>
    unfold State.readyIn at h
    extract_lets barrier free ready at h
    split at h
    · exact Option.some.inj h ▸ List.mem_cons_self
    · split at h
      · exact absurd h nofun
      · exact List.mem_cons_of_mem _ (ih h)

theorem State.leaveLane_lane {s : State} {l : Nat} {x : LaneItem} (h : x ∈ s.lane l) : (s.leaveLane l x).lane l = (s.lane l).erase x :=
  List.getD_set_self (List.lt_length_of_getD_ne (d := []) (List.ne_nil_of_mem h))

theorem exec_mirrorRecord {s : State} {lane : Fin 4} {t i : Nat} {x : LaneItem} {f : Frame} {r : Record} (hon : s.pipeOff = false)
    (hroom : s.valRoom lane.val = true) (hready : s.readyIn LaneBody.isMirror (s.lane lane.val) [] = some x) (hbody : x.item.body =
        .frame f)
    (hf : f.body = .mirror r) (hindex : x.index = some i) :
    exec (.mirrorRecord lane t) s =
      .next (if (((s.advance t).mirrorTaken lane.val x).parityStage lane.val f.faults).2 = false then
          (((s.advance t).mirrorTaken lane.val x).parityStage lane.val f.faults).1
        else if recordOk r = true then
          ((((s.advance t).mirrorTaken lane.val x).parityStage lane.val f.faults).1.bump cSplitMirrorIn).toVal lane.val
            ⟨i, r.cycle, r.rxFlags.getLsbD rxSynth, r, true, some r, none⟩
        else ((((s.advance t).mirrorTaken lane.val x).parityStage lane.val f.faults).1.note cSplitMirrorRckFail
          .operations .none 0 0).syncRequest r.gmn 0) := by
  have hready' : (s.advance t).readyIn LaneBody.isMirror ((s.advance t).lane lane.val) [] = some x := by
    rw [← hready]
    exact State.readyIn_of (s := s) (u := s.advance t) rfl _ _ _
  show execMirrorRecord lane t s = _
  unfold execMirrorRecord
  simp only [hready', hbody, hindex, hf]
  exact if_neg (not_or.2 ⟨ne_true_of_eq_false hon, ne_false_of_eq_true hroom⟩)

/-- VAL's queue after a record has been given to an empty lane. -/
theorem State.toVal_queue {s u : State} {l : Nat} {v : ValItem} (hval : u.val = s.val) (hlen : l < s.val.queue.length)
    (hroom : s.valRoom l = true) : (u.toVal l v).val.queue.getD l [] = [v] := by
  have hempty : s.val.queue.getD l [] = [] := of_decide_eq_true hroom
  have hbump : (u.toVal l v).val = { u.val with queue := u.val.queue.set l (u.val.queue.getD l [] ++ [v]) } :=
    keeps_State_bump .val (by decide)
  rw [hbump, hval, hempty]
  exact List.getD_set_self hlen

/-- Settles O18: a fill's end (`exec_contextFill`), the entrance (`ingestFrame_fifo`) and the lane give each record its place. -/
theorem fillsAndBuiltRecordsEnd : Obligations.FillsAndBuiltRecordsEnd := by
  unfold Obligations.FillsAndBuiltRecordsEnd
  refine ⟨?filled, ?lost, ?none, ?built, ?waits, ?mirror, ?failed⟩
  case filled =>
    intro s lane ecc t i w rest hon hecc hfills hlane hcrc hkeys hfind
    obtain ⟨s1, hkeep, hexec⟩ := exec_contextFill (lane := lane) (ecc := ecc) (t := t) hon hfills
    have hctx : s1.ctxAt i = s.ctxAt i := State.ctxAt_of (hkeep .ctx (by decide)) i
    have hing : s1.ing = s.ing := hkeep .ing (by decide)
    have hkeys' : s1.keysUnwrap (s1.ctxAt i) = true := by
      unfold State.keysUnwrap at hkeys ⊢
      rw [hctx, hkeep.contextKeys, hkeys]
    have hfind' : (s1.cacheSet i).find (cacheTag i) = some w := by
      unfold State.cacheSet at hfind ⊢
      rw [hing, hfind]
    obtain ⟨hcached, hends⟩ := State.endFill_cached hfind'
    refine ⟨s1.endFill i true, hexec.trans ?_, ?_, hcached, ?_⟩
    · rw [if_neg (not_or.2 ⟨hecc, by rw [hctx, hcrc]; decide⟩), if_neg (fun h => by rw [hkeys'] at h; exact absurd h.2 (by decide))]
    · unfold State.laneFills at hfills ⊢
      have hlen : lane.val < s.ing.fills.length := List.lt_length_of_getD_ne (d := []) (by rw [hfills]; nofun)
      rw [hends, hing, hlane, List.getD_set_self hlen, State.laneFills, hing, hfills]
      exact List.erase_cons_head i rest
    · exact (State.endFill_ctx s1 i true).trans (hkeep .ctx (by decide))
  case lost =>
    intro s lane ecc t i rest hon hfills hbad
    obtain ⟨s1, hkeep, hexec⟩ := exec_contextFill (lane := lane) (ecc := ecc) (t := t) hon hfills
    have hctx : s1.ctxAt i = s.ctxAt i := State.ctxAt_of (hkeep .ctx (by decide)) i
    exact ⟨_, hexec.trans (if_pos (by rw [hctx]; exact hbad)), State.loseContext_ctxAt _ i⟩
  case none =>
    intro s verified status t e rest hring htag
    obtain ⟨good, hexec, -⟩ := exec_firmwareRecordBuild (verified := verified) (status := status) (t := t) (built := none) hring
    obtain ⟨used, hing⟩ := State.firmwareTaken_ing (s.advance t) good e rest status
    exact ⟨_, hexec (by simp [firmwareMade]), (congrArg Ing.fwRing hing :), keeps_State_firmwareTaken .val (by decide)⟩
  case built =>
    intro s verified p status t e rest hring htag hfck hreason hfits hlen
    obtain ⟨good, -, hexec⟩ := exec_firmwareRecordBuild (verified := verified) (status := status) (t := t) (built := some p) hring
    obtain ⟨used, htaken⟩ := State.firmwareTaken_ing (s.advance t) good e rest status
    have hboot : ((s.advance t).firmwareTaken good e rest status).boot = s.boot := keeps_State_firmwareTaken .boot (by decide)
    have hhwl : ((s.advance t).firmwareTaken good e rest status).hwl = s.hwl := keeps_State_firmwareTaken .hwl (by decide)
    have hfits3 : ((s.advance t).firmwareTaken good e rest status).frameFits (builtFrame e (s.builtOf e p)) = true := by
      rw [State.frameFits_of ⟨(congrArg Ing.creditsOpen htaken :), (congrArg Ing.credits htaken :)⟩ hboot hhwl]
      exact hfits
    obtain ⟨high, hing⟩ := State.ingestFrame_ing hfits3
    refine ⟨_, (hexec _ (firmwareMade_of_check hfck hreason)).trans (next_of_eq (if_neg (by rw [hfits]; decide))),
      (congrArg Ing.fwRing hing :).trans (congrArg Ing.fwRing htaken :), ?_⟩
    have hlen3 : 10 < ((s.advance t).firmwareTaken good e rest status).ing.fifos.length := by rw [htaken]; exact hlen
    refine (State.ingestFrame_fifo (f := builtFrame e (s.builtOf e p)) hfits3 hlen3).trans ?_
    unfold State.fifo
    rw [htaken]
    rfl
  case waits =>
    intro s verified p status t e rest hring hfck hreason hfits
    obtain ⟨good, -, hexec⟩ := exec_firmwareRecordBuild (verified := verified) (status := status) (t := t) (built := some p) hring
    exact ⟨s.advance t, (hexec _ (firmwareMade_of_check hfck hreason)).trans (next_of_eq (if_pos hfits)), rfl⟩
  case mirror =>
    intro s lane t i x f r hlen hon hroom hready hbody hclean hf hindex hok
    have hexec := exec_mirrorRecord (t := t) hon hroom hready hbody hf hindex
    have hparity := State.parityStage_kept (s := (s.advance t).mirrorTaken lane.val x) (l := lane.val) hclean
    have hkeep : (s.advance t).keepsBut [.ing, .way, .host, .limits, .regs, .out]
        ((((s.advance t).mirrorTaken lane.val x).parityStage lane.val f.faults).1.bump cSplitMirrorIn) :=
      keeps_State_mirrorTaken.within |>.then keeps_State_parityStage |>.then keeps_State_bump
    refine ⟨_, hexec.trans (next_of_eq ((if_neg (by rw [hparity]; nofun)).trans (if_pos hok))), ?_, ?_⟩
    · exact State.toVal_queue (hkeep .val (by decide)) hlen hroom
    · have hing := (keeps_State_bump (s := (s.advance t).leaveLane lane.val x) (c := cLaneFramesIn lane.val)).within
          (L := [.way, .host, .limits, .regs, .out, .val]) |>.then (keeps_State_parityStage (l := lane.val) (fs := f.faults))
        |>.then (keeps_State_bump (c := cSplitMirrorIn))
        |>.then (keeps_State_toVal (l := lane.val) (v := ⟨i, r.cycle, r.rxFlags.getLsbD rxSynth, r, true, some r, none⟩))
      exact (congrArg (fun g : Ing => g.lanes.getD lane.val []) (hing .ing (by decide))).trans
        (State.leaveLane_lane (s := s.advance t) (State.readyIn_mem hready))
  case failed =>
    intro s lane t i x f r hon hroom hready hbody hf hindex hbad
    have hexec := exec_mirrorRecord (t := t) hon hroom hready hbody hf hindex
    have hval : (((s.advance t).mirrorTaken lane.val x).parityStage lane.val f.faults).1.val = s.val :=
      (keeps_State_mirrorTaken.within (L := [.ing, .way, .host, .limits, .regs, .out]) |>.then keeps_State_parityStage) .val (by decide)
    refine ⟨_, hexec, ?_⟩
    split
    · exact hval
    · rename_i hkept
      have hrck : ¬ recordOk r = true := by
        intro hok
        refine hkept (State.parityStage_lost (hbad.resolve_left ?_))
        rw [hok]
        decide
      rw [if_neg hrck]
      exact (keeps_State_syncRequest .val (by decide)).trans ((keeps_State_note .val (by decide)).trans hval)

end Sys2Proof.Machine

/-! # Context operations and validation -/

namespace Sys2Proof.Machine

-- One theorem after the other: a thread for each would pass the memory limit of the check.
set_option Elab.async false

/-! ## Context operations (R116, R118, R190) -/

theorem State.journalContext_ctxAt (s : State) (i j : Nat) (g : Gmn) : (s.journalContext i g).ctxAt j = s.ctxAt j :=
  State.ctxAt_of (keeps_State_journalContext .ctx (by decide)) j

/-- An operation that is ready and waits for nothing leaves the lane and takes effect. -/
theorem exec_contextOperation {s : State} {lane : Fin 4} {t : Nat} {x : LaneItem} {o : CtxOp} {l : Fin 4} (hon : s.pipeOff = false)
    (hready : s.readyIn LaneBody.isOp (s.lane lane.val) [] = some x) (hbody : x.item.body = .op o l) (hbarrier : ∀ c r, o ≠ .barrier c r)
    (hval : o.waitsForVal = true → s.valEmpty lane.val = true) (hmirror : o.mirrors x.index = true → s.mirrorAwaited = false) :
    exec (.contextOperation lane t) s = .next (((s.advance t).leaveLane lane.val x).applyOp lane x.index o) := by
  have hready' : (s.advance t).readyIn LaneBody.isOp ((s.advance t).lane lane.val) [] = some x := by
    rw [← hready]
    exact State.readyIn_of (s := s) (u := s.advance t) rfl _ _ _
  have hoff : (s.advance t).pipeOff ≠ true := ne_true_of_eq_false hon
  show execContextOperation lane t s = _
  unfold execContextOperation
  simp only [hready', hbody]
  refine (if_neg hoff).trans (if_neg ?_)
  rintro (⟨hwaits, hempty⟩ | ⟨hbar, -⟩ | ⟨hmir, hawaited⟩)
  · exact absurd ((hval hwaits).symm.trans hempty) (by decide)
  · cases o with
    | barrier c r => exact hbarrier c r rfl
    | _ => exact absurd hbar (by decide)
  · exact absurd ((hmirror hmir).symm.trans hawaited) (by decide)

theorem State.applyFreeze_active {s : State} {i : Nat} (h : (s.ctxAt i).state = .active) :
    s.applyFreeze i true = (s.setCtx i { s.ctxAt i with state := .frozen }).journalContext i (s.ctxAt i).gmn := by
  have hst : (if (s.ctxAt i).state = .active ∨ (s.ctxAt i).state = .exhausted ∨ (s.ctxAt i).state = .mirror then CtxState.frozen
      else (s.ctxAt i).state) = .frozen := if_pos (.inl h)
  unfold State.applyFreeze
  simp only [if_true, hst]

/-- The restore that a start waits for (R118) changes the context table, the key store, and of ING that it restores. -/
theorem exec_contextRestore {s : State} {t : Nat} (hrebuilt : s.ful.rebuilding = false) (hrestoring : s.ing.restoring = true) :
    ∃ s2 : State, s2.ing = s.ing ∧
      exec (.contextRestore t) s = .next ({ s2 with ing := { s2.ing with restoring := false, creditsOpen := true } }).reseedRest := by
  have hrebuilt' : (s.advance t).ful.rebuilding ≠ true := ne_true_of_eq_false hrebuilt
  have hrestoring' : (s.advance t).ing.restoring = true := hrestoring
  have hset : ∀ (is : List Nat) (f : Nat → Context), (s.advance t).keepsBut [.ctx, .sec]
      (is.foldl (fun (st : State) i => st.setCtx i (f i)) { s.advance t with ctx := [] }) := fun is f =>
    keepsBut_foldl (fun u a h => h.then keeps_State_setCtx) keeps_with_ctx.within
  have hfill : ∀ (l : Table Context) (v : State), (s.advance t).keepsBut [.ctx, .sec] v →
      (s.advance t).keepsBut [.ctx, .sec] (l.foldl (fun (st : State) e => st.fillMaster e.1) v) := fun l v hv =>
    keepsBut_foldl (fun u a h => h.then keeps_State_fillMaster) hv
  show ∃ s2 : State, _ ∧ execContextRestore t s = _
  unfold execContextRestore
  extract_lets u ck base pos es
  rw [if_neg hrebuilt', if_pos hrestoring']
  exact ⟨_, hfill _ _ (hset _ _) .ing (by decide), rfl⟩

/-- Settles O20. -/
theorem contextsAreOperatedOn : Obligations.ContextsAreOperatedOn := by
  unfold Obligations.ContextsAreOperatedOn
  refine ⟨?reset, ?freeze, ?restore⟩
  case reset =>
    intro s lane t i x g rx tx m l hon hempty hmirror hready hbody hindex hne
    have hexec := exec_contextOperation (t := t) hon hready hbody (by nofun) (fun _ => hempty) fun hm => by
      rw [hindex] at hm
      simp only [CtxOp.mirrors, Option.any_some, Bool.and_eq_true, Bool.not_eq_true', decide_eq_true_eq] at hm
      exact (hmirror.resolve_left (ne_true_of_eq_false hm.1)).resolve_left (by omega)
    rw [hindex] at hexec
    refine ⟨_, hexec, ?_, ?_⟩
    · have hfinish : ∀ u : State, (u.finishOp i (.counterReset g rx tx) none m).ctxAt i = u.ctxAt i := fun u =>
        State.ctxAt_of (keeps_State_finishOp .ctx (by decide)) i
      refine (hfinish _).trans ((State.journalContext_ctxAt _ i i g).trans ?_)
      exact State.setCtx_ctxAt hne
    · have hkeep : ((s.advance t).leaveLane lane.val x).keepsBut [.ctx, .ful, .way, .host, .limits, .regs, .out, .hwl]
          (((s.advance t).leaveLane lane.val x).applyOp lane (some i) (.job (.counterReset g rx tx) none m)) :=
        keeps_State_setCtx.within |>.then keeps_State_journalContext |>.then keeps_State_finishOp
      exact (congrArg (fun g : Ing => g.lanes.getD lane.val []) (hkeep .ing (by decide))).trans
        (State.leaveLane_lane (s := s.advance t) (State.readyIn_mem hready))
  case freeze =>
    intro s lane t i x l hon hready hbody hindex hactive
    have hexec := exec_contextOperation (t := t) hon hready hbody (by nofun) (by nofun) (by nofun)
    have hfreeze := State.applyFreeze_active (s := (s.advance t).leaveLane lane.val x) hactive
    refine ⟨_, hexec.trans (next_of_eq hfreeze), (State.journalContext_ctxAt _ i i _).trans ?_⟩
    exact State.setCtx_ctxAt (by nofun)
  case restore =>
    intro s t hrebuilt hrestoring
    obtain ⟨s2, hing, hexec⟩ := exec_contextRestore (t := t) hrebuilt hrestoring
    refine ⟨_, hexec, ?_, ?_⟩
    · rw [(keeps_State_reseedRest .ing (by decide) : State.ing _ = _), hing]
    · unfold State.reseedRest
      split
      · assumption
      · rfl

/-! ## Validation (R151, R161 to R165) -/

section Judge

variable {s u : State} (hitem : ∀ k, u.itemBytes k = s.itemBytes k) (htim : u.tim = s.tim)

include hitem in
theorem State.item_of (k : Nat) : u.item k = s.item k := congrArg leNat (hitem k)

include hitem in
theorem State.itemField_of (k o n : Nat) : u.itemField k o n = s.itemField k o n :=
  congrArg (fun bs : List Byte => leNat ((bs.drop o).take n)) (hitem k)

include hitem in
theorem State.rating_of (p : Nat) : u.rating p = s.rating p := by
  unfold State.rating
  simp only [State.itemField_of hitem]

include hitem in
theorem State.judgeSeq_of (v : ValState) (q : BitVec 32) : u.judgeSeq v q = s.judgeSeq v q := by
  unfold State.judgeSeq
  simp only [State.item_of hitem]

include hitem in
theorem State.judgeTime_of (r : Record) : u.judgeTime r = s.judgeTime r := by
  unfold State.judgeTime
  simp only [State.item_of hitem]

include hitem in
theorem State.judgeLate_of (v : ValState) (r : Record) (b : Nat) : u.judgeLate v r b = s.judgeLate v r b := by
  unfold State.judgeLate
  simp only [State.rating_of hitem]

include hitem htim in
theorem State.recordIndex_of (r : Record) (x : TimeJudgement) : u.recordIndex r x = s.recordIndex r x := by
  unfold State.recordIndex State.intervalIndex State.itemInt
  simp only [State.item_of hitem, htim]

include hitem htim in
theorem State.judgeRecord_of (v : ValState) (r : Record) (q : SeqOutcome) : u.judgeRecord v r q = s.judgeRecord v r q := by
  unfold State.judgeRecord State.judgeCycle State.judgeDeltas State.judgeVoltage State.judgeCurrent State.missingBoundary State.itemInt
  simp only [State.rating_of hitem, State.judgeTime_of hitem, State.recordIndex_of hitem htim, State.item_of hitem, htim]

include hitem htim in
/-- The rules stand on the settings and on the time zone. -/
theorem State.judge_of (v : ValState) (r : Record) : u.judge v r = s.judge v r := by
  unfold State.judge
  simp only [State.judgeSeq_of hitem, State.judgeLate_of hitem, State.judgeRecord_of hitem htim]

end Judge

theorem State.countReject_held (s : State) (l : Nat) (r : Record) : (s.countReject l r).val.held = s.val.held := by
  unfold State.countReject
  extract_lets rule v s1 s2 s3
  have h1 : s1.val.held = s.val.held := (congrArg Val.held (keeps_State_bump .val (by decide) : s1.val = _) :)
  have h3 : s1.keepsBut [.regs, .out] s3 :=
    keepsBut_ite (keeps_State_raiseInt.then keeps_State_raiseInt) keeps_State_raiseInt
  have hval : (s3.noteMeter (cValRejected l) .operations .interval r.gmn.toNat (r.readSeq.toNat + 2 ^ 32 * rule)).val = s1.val :=
    (h3.within (L := [.way, .host, .limits, .regs, .out]) |>.then keeps_State_noteMeter) .val (by decide)
  rw [hval, h1]

theorem State.countVerdict_held (s : State) (l : Nat) (r : Record) : (s.countVerdict l r).val.held = s.val.held := by
  have hbump : ∀ (v : State) c, (v.bump c).val = v.val := fun v c => keeps_State_bump .val (by decide)
  have hflags : ∀ (cs : List Counter) (v : State), (cs.foldl State.bump v).val = v.val := by
    intro cs
    induction cs with
    | nil => exact fun _ => rfl
    | cons c cs ih => exact fun v => (ih _).trans (hbump v c)
  unfold State.countVerdict
  split
  · rw [hbump]
  · rw [hflags, hbump]
  · exact State.countReject_held s l r
  · rw [hbump]

/-- A judged record stands held with its verdict. -/
theorem State.holdJudged_held {s : State} {l : Nat} {v : ValItem} {j : Judgement} (h : l < s.val.held.length) :
    (s.holdJudged l v j).valHeld l = some ⟨{ v with record := j.record }, j.deltas, j.estimate, j.estDeltas, j.state, none⟩ := by
  unfold State.holdJudged State.valHeld
  extract_lets x w s1 s2 s3 s4
  have h2 : s2.val.held = s.val.held.set l (some x) := State.countVerdict_held s1 l j.record
  have h3 : s2.keepsBut [.regs] s3 := keepsBut_ite keeps_State_bump.within (keepsBut_refl _ _)
  have h4 : s2.keepsBut [.regs] s4 := keepsBut_ite (h3.then keeps_State_bump) h3
  have hval : ((s4.compareVerdict l v j.record).compareEstimate v j.estimate).val = s2.val :=
    (h4.within (L := [.way, .host, .limits, .regs, .out, .hwl]) |>.then keeps_State_compareVerdict |>.then keeps_State_compareEstimate)
      .val (by decide)
  rw [hval, h2]
  exact List.getD_set_self h

/-- VAL has taken the front of its queue; the rules judge what it stands for (R151). -/
theorem exec_validate {s : State} {lane : Fin 4} {t : Nat} {v : ValItem} {rest : List ValItem} (hon : s.pipeOff = false)
    (hheld : s.valHeld lane.val = none) (hqueue : s.val.queue.getD lane.val [] = v :: rest) (htyp : 1 ≤ v.record.typ.toNat)
    (htyp4 : v.record.typ.toNat ≤ 4) :
    ∃ s1 : State, s.keepsBut [.now, .val, .regs] s1 ∧ s1.val = { s.val with queue := s.val.queue.set lane.val rest } ∧
      exec (.validate lane t) s = .next (match s.judge (s.ctxAt v.index).val v.record with
        | none => (s1.noteMeter (cValDuplicate lane.val) .operations .interval v.record.gmn.toNat 0).finalAnswer? v.answer
        | some j =>
          if recordOk v.record = false then
            ((s1.raiseInt 0x130004 0).note (cValRckFail lane.val) .operations .none 0 v.record.gmn.toNat).finalAnswer? v.answer
          else s1.holdJudged lane.val v j) := by
  have hkeep : s.keepsBut [.now, .val, .regs]
      ({ s.advance t with val := { s.val with queue := s.val.queue.set lane.val rest } }.bump (cValRecordsIn lane.val)) :=
    keeps_State_advance.within |>.then keeps_with_val |>.then keeps_State_bump
  have hjudge : ({ s.advance t with val := { s.val with queue := s.val.queue.set lane.val rest } }.bump (cValRecordsIn lane.val)).judge
      (s.ctxAt v.index).val v.record = s.judge (s.ctxAt v.index).val v.record :=
    State.judge_of (fun k => hkeep.itemBytes k) (hkeep .tim (by decide)) _ _
  refine ⟨_, hkeep, keeps_State_bump .val (by decide), ?_⟩
  have hheld' : (s.advance t).valHeld lane.val = none := hheld
  have hqueue' : (s.advance t).val.queue.getD lane.val [] = v :: rest := hqueue
  have hoff : (s.advance t).pipeOff ≠ true := ne_true_of_eq_false hon
  have htyp' : ¬ (v.record.typ = 0 ∨ 4 < v.record.typ.toNat) := by
    rintro (hz | hbig)
    · rw [hz] at htyp
      exact absurd htyp (by decide)
    · omega
  rw [← hjudge]
  show execValidate lane t s = _
  unfold execValidate
  simp only [hheld', hqueue', if_neg htyp']
  exact if_neg hoff

/-- A released record leaves VAL with its validation state in the context (R165). -/
theorem State.release_held {s : State} {l : Nat} {h : ValHeld} (hne : (s.ctxAt h.item.index).state ≠ .empty) :
    (s.release l h).valHeld l = none ∧ ((s.release l h).ctxAt h.item.index).val = h.state := by
  unfold State.release
  extract_lets r i tj k idE s1 id s2 s3 s4 v s5
  have h1 : s.keepsBut [.way, .host, .limits, .bal, .regs, .readings, .out, .bil, .hwl, .ful] s1 := by
    unfold s1
    split
    · exact keeps_State_releaseOne.within
    · exact keepsBut_refl _ _
  have h3 : s.keepsBut [.way, .host, .limits, .bal, .regs, .readings, .out, .bil, .hwl, .ful] s3 :=
    h1 |>.then keeps_State_releaseOne |>.then keeps_State_toFuller
  have hctx : s3.ctxAt i = s.ctxAt i := State.ctxAt_of (h3 .ctx (by decide)) i
  have h4 : s4.ctxAt i = { s.ctxAt i with val := h.state } := by
    show (s3.setCtx i { s3.ctxAt i with val := h.state }).ctxAt i = _
    rw [hctx]
    exact State.setCtx_ctxAt hne
  have h5 : s5.keepsBut [.host, .regs, .out, .eth, .nor, .ing]
      (if s5.sendsBundles = true then s5.addEntry (recordEntry r h.item.rxCycle h.item.rxSynth) else s5) :=
    keepsBut_ite keeps_State_addEntry (keepsBut_refl _ _)
  constructor
  · exact (congrArg (fun w : Val => w.held.getD l none) (h5 .val (by decide))).trans (List.getD_set_default _ l none)
  · rw [State.ctxAt_of (h5 .ctx (by decide))]
    exact congrArg Context.val h4

theorem exec_recordRelease {s : State} {lane : Fin 4} {t : Nat} {h : ValHeld} (hon : s.pipeOff = false)
    (hheld : s.valHeld lane.val = some h) :
    ∃ s1 : State, s.keepsBut [.now, .regs] s1 ∧ exec (.recordRelease lane t) s =
      .next (if s.canRelease h = true then s1.release lane.val h
        else { s.advance t with val :=
          { s.val with held := s.val.held.set lane.val (some { h with refusedAt := some (h.refusedAt.getD (max s.now t)) }) } }) := by
  have hheld' : (s.advance t).valHeld lane.val = some h := hheld
  refine ⟨_, (keeps_State_advance (t := t)).within |>.then (keeps_State_bumpBy (c := cValStateHoldCycles lane.val)
    (n := (s.advance t).holdingCycles lane.val)), ?_⟩
  show execRecordRelease lane t s = _
  unfold execRecordRelease
  simp only [hheld']
  exact if_neg (ne_true_of_eq_false hon)

/-- Settles O21: a judged record is held (`holdJudged_held`), since the rules read only settings (`judge_of`). -/
theorem recordsAreJudgedThenReleased : Obligations.RecordsAreJudgedThenReleased := by
  unfold Obligations.RecordsAreJudgedThenReleased
  refine ⟨?judged, ?dropped, ?released, ?refused⟩
  case judged =>
    intro s lane t v rest j hlen hheld hqueue hon htyp htyp4 hok hjudge
    obtain ⟨s1, hkeep, hval, hexec⟩ := exec_validate (t := t) hon hheld hqueue htyp htyp4
    rw [hjudge] at hexec
    refine ⟨_, hexec.trans (next_of_eq (if_neg (by rw [hok]; decide))), State.holdJudged_held (by rw [hval]; exact hlen), ?_⟩
    exact (keeps_State_holdJudged .ctx (by decide)).trans (hkeep .ctx (by decide))
  case dropped =>
    intro s lane t v rest hon hheld hqueue htyp htyp4 hbad
    obtain ⟨s1, hkeep, hval, hexec⟩ := exec_validate (t := t) hon hheld hqueue htyp htyp4
    have hdrop : ∀ (b : State), s1.keepsBut [.way, .host, .limits, .regs, .out] b → (b.finalAnswer? v.answer).val = s1.val :=
      fun b hb => (hb.then keeps_State_finalAnswerQ) .val (by decide)
    refine ⟨_, hexec, ?_⟩
    rw [← hval]
    split
    · exact hdrop _ keeps_State_noteMeter
    · rename_i j hj
      rw [if_pos (hbad.resolve_left (by rw [hj]; nofun))]
      exact hdrop _ (keeps_State_raiseInt.within |>.then keeps_State_note)
  case released =>
    intro s lane t h hon hheld hcan hne
    obtain ⟨s1, hkeep, hexec⟩ := exec_recordRelease (t := t) hon hheld
    obtain ⟨hempty, hstate⟩ := State.release_held (s := s1) (l := lane.val) (h := h)
      (by rw [State.ctxAt_of (hkeep .ctx (by decide))]; exact hne)
    exact ⟨_, hexec.trans (next_of_eq (if_pos hcan)), hempty, hstate⟩
  case refused =>
    intro s lane t h hon hheld hcan
    obtain ⟨s1, hkeep, hexec⟩ := exec_recordRelease (t := t) hon hheld
    have hlen : lane.val < s.val.held.length := List.lt_length_of_getD_ne (d := none) (by rw [← State.valHeld, hheld]; nofun)
    exact ⟨_, hexec.trans (next_of_eq (if_neg (by rw [hcan]; decide))), List.getD_set_self hlen, rfl⟩

end Sys2Proof.Machine

/-! # One meter at a time -/

namespace Sys2Proof.Machine

-- One theorem after the other: a thread for each would pass the memory limit of the check.
set_option Elab.async false

/-! ## One meter's context changed, the others as they were -/

/-- In `u` every context but the one of an index stands as in `s`. -/
def State.ctxBut (s : State) (i : Nat) (u : State) : Prop := ∀ j, j ≠ i → u.ctxAt j = s.ctxAt j

theorem State.ctxBut.then {s v u : State} {i : Nat} (h : s.ctxBut i v) (g : v.ctxBut i u) : s.ctxBut i u := fun j hj => (g j hj).trans
    (h j hj)

theorem State.keepsBut.ctxBut {A : List Part} {s u : State} (h : s.keepsBut A u) (i : Nat)
    (sub : Part.ctx ∉ A := by decide) : s.ctxBut i u :=
  fun j _ => State.ctxAt_of (h .ctx sub) j

theorem ctxBut_modCtx (s : State) (i : Nat) (f : Context → Context) : s.ctxBut i (s.modCtx i f) := fun _ hj => State.setCtx_ctxAt_other hj

theorem ctxBut_ite {s a b : State} {i : Nat} {c : Prop} [Decidable c] (ha : s.ctxBut i a) (hb : s.ctxBut i b) :
    s.ctxBut i (if c then a else b) := by
  split
  · exact ha
  · exact hb

theorem ctxBut_execContextFill {s : State} {lane : Fin 4} {ecc : EccOutcome} {t i : Nat} {rest : List Nat}
    (hfills : s.laneFills lane.val = i :: rest) {u : State} (h : exec (.contextFill lane ecc t) s = .next u) : s.ctxBut i u := by
  by_cases hon : s.pipeOff = false
  · obtain ⟨s1, hkeep, hexec⟩ := exec_contextFill (lane := lane) (ecc := ecc) (t := t) hon hfills
    rw [hexec] at h
    have hfill : ∀ ok, s.keepsBut [.now, .way, .host, .limits, .regs, .out, .ing] (s1.endFill i ok) := fun ok =>
      hkeep.within |>.then keeps_State_endFill
    split at h
    · cases h
      exact (((hfill true).ctxBut i).then (ctxBut_modCtx _ i _)).then
        (State.keepsBut.ctxBut (A := [.regs, .out]) keeps_State_raiseInt i)
    · split at h
      · cases h
        split
        · exact ((hfill false) |>.then keeps_State_tagFails |>.then keeps_State_leaveLane).ctxBut i
        · exact (hfill false).ctxBut i
      · cases h
        exact (hfill true).ctxBut i
  · have hoff : (s.advance t).pipeOff = true := eq_true_of_ne_false hon
    have hexec : exec (.contextFill lane ecc t) s = .next (s.advance t) := by
      show execContextFill lane ecc t s = _
      unfold execContextFill
      rw [if_pos hoff]
      exact if_pos hoff
    cases hexec.symm.trans h
    exact fun _ _ => rfl

/-- The frame that a missed slot leaves unanswered (R295). -/
def State.missedFrame (s : State) (i : Nat) : Option MeshTx :=
  s.rfm.tx.find? fun x => decide (x.slot = some i ∧ x.way = .slotted ∧ x.waitUntil ≤ s.now) && x.awaiting

/-- A miss, counted in RFM and on the link (R295). -/
def State.slotMissed (s : State) (i : Nat) (x : MeshTx) : State :=
  ((if x.work = .keepAlive then (s.meshDone x).modRfm fun m =>
      { m with tx := m.tx.map fun y => if y.slot = some i ∧ y.way = .window then { y with way := .slotted } else y }
    else s.meshSet x { x with awaiting := false }).bump cRfmSlotMiss).modRadio i fun r => { r with misses := min 15 (r.misses + 1) }

theorem exec_slotMiss_none {s : State} {k : Fin 16384} {t : Nat} (h : (s.advance t).missedFrame k.val = none) :
    exec (.slotMiss k t) s = .next (s.advance t) := by
  unfold State.missedFrame at h
  show execSlotMiss k t s = _
  simp only [execSlotMiss, h]

/-- What a miss leads to: the guard widens, or the partner moves to long preamble (R295). -/
theorem exec_slotMiss {s : State} {k : Fin 16384} {t : Nat} {x : MeshTx} (h : (s.advance t).missedFrame k.val = some x) :
    exec (.slotMiss k t) s = .next (
      if (s.radioLink k.val).gstep = 3 then
        (((((s.advance t).slotMissed k.val x).modRadio k.val fun r => { r with wake := 2, recovering := true }).bump cRfmLplMove).raiseInt
          0x1A0004 1).toLongPreamble k.val
      else if 1 ≤ (s.radioLink k.val).misses then
        (((s.advance t).slotMissed k.val x).modRadio k.val fun r => { r with gstep := r.gstep + 1 }).bump cRfmGuardWiden
      else (s.advance t).slotMissed k.val x) := by
  unfold State.missedFrame at h
  show execSlotMiss k t s = _
  simp only [execSlotMiss, h]
  rfl

theorem ctxBut_slotMissed (s : State) (i : Nat) (x : MeshTx) : s.ctxBut i (s.slotMissed i x) := by
  have hframe : s.keepsBut [.rfm] (if x.work = .keepAlive then (s.meshDone x).modRfm fun m =>
      { m with tx := m.tx.map fun y => if y.slot = some i ∧ y.way = .window then { y with way := .slotted } else y }
    else s.meshSet x { x with awaiting := false }) :=
    keepsBut_ite (keeps_State_meshDone.then keeps_State_modRfm) keeps_State_meshSet
  exact .then ((hframe.within (L := [.rfm, .regs]) |>.then keeps_State_bump).ctxBut i) (ctxBut_modCtx _ i _)

theorem ctxBut_execSlotMiss {s : State} {k : Fin 16384} {t : Nat} {u : State} (h : exec (.slotMiss k t) s =
    .next u) : s.ctxBut k.val u := by
  have h0 : s.ctxBut k.val (s.advance t) := State.keepsBut.ctxBut keeps_State_advance k.val
  cases hx : (s.advance t).missedFrame k.val with
  | none =>
    rw [← Host.Outcome.next.inj ((exec_slotMiss_none hx).symm.trans h)]
    exact h0
  | some x =>
    have h1 := h0.then (ctxBut_slotMissed _ k.val x)
    rw [← Host.Outcome.next.inj ((exec_slotMiss hx).symm.trans h)]
    refine ctxBut_ite ?_ (ctxBut_ite ?_ h1)
    · exact (h1.then (ctxBut_modCtx _ k.val _)).then (((keeps_State_bump (c := cRfmLplMove)).within (L := [.regs, .out, .rfm])
        |>.then keeps_State_raiseInt |>.then keeps_State_toLongPreamble).ctxBut k.val)
    · exact (h1.then (ctxBut_modCtx _ k.val _)).then (keeps_State_bump.ctxBut k.val)

theorem ctxBut_rescore (s : State) (i time : Nat) : s.ctxBut i (s.rescore i time) := by
  unfold State.rescore
  extract_lets v b parts score above changed newKind s1
  have h1 : s.ctxBut i s1 := (ctxBut_modCtx s i _).then (ctxBut_modCtx v i _)
  exact ctxBut_ite (h1.then (keeps_State_anomaly.ctxBut i)) h1

theorem ctxBut_execComponentLapse {s : State} {g : Gmn} {t i : Nat} (hi : s.heldIndex g = some i) {u : State}
    (h : exec (.componentLapse g t) s = .next u) : s.ctxBut i u := by
  have hi' : (s.advance t).heldIndex g = some i := hi
  have h0 : s.ctxBut i (s.advance t) := State.keepsBut.ctxBut keeps_State_advance i
  have hexec : exec (.componentLapse g t) s =
      .next (if ((s.advance t).ctxAt i).bal.member = true then (s.advance t).rescore i (s.advance t).sec2020 else s.advance t) := by
    show execComponentLapse g t s = _
    unfold execComponentLapse
    simp only [hi']
  cases hexec.symm.trans h
  exact ctxBut_ite (h0.then (ctxBut_rescore _ i _)) h0

/-! ## One meter's legal slot changed, the others as they were -/

/-- In `u` every legal slot but the one of an index stands as in `s`. -/
def State.slotsBut (s : State) (i : Nat) (u : State) : Prop := ∀ j, j ≠ i → u.slotAt j = s.slotAt j

theorem State.slotsBut.then {s v u : State} {i : Nat} (h : s.slotsBut i v) (g : v.slotsBut i u) : s.slotsBut i u :=
  fun j hj => (g j hj).trans (h j hj)

/-- The slots stand where Troika's table stands. -/
theorem slotsBut_of_slots {s u : State} {i : Nat} (h : u.bil.slots = s.bil.slots) : s.slotsBut i u :=
  fun j _ => congrArg (Table.get LegalSlot.fresh · j) h

theorem State.keepsBut.slotsBut {A : List Part} {s u : State} (h : s.keepsBut A u) (i : Nat) (sub : Part.bil ∉ A := by decide) :
    s.slotsBut i u := slotsBut_of_slots (congrArg Bil.slots (h .bil sub))

theorem slotsBut_refl (s : State) (i : Nat) : s.slotsBut i s := fun _ _ => rfl

theorem slotsBut_ite {s a b : State} {i : Nat} {c : Prop} [Decidable c] (ha : s.slotsBut i a) (hb : s.slotsBut i b) :
    s.slotsBut i (if c then a else b) := by
  split
  · exact ha
  · exact hb

theorem slotsBut_foldl {α : Type} {s v : State} {i : Nat} {f : State → α → State} {l : List α}
    (hf : ∀ u a, s.slotsBut i u → s.slotsBut i (f u a)) (hv : s.slotsBut i v) : s.slotsBut i (l.foldl f v) := by
  induction l generalizing v with
  | nil => exact hv
  | cons a l ih => exact ih (hf v a hv)

theorem slotsBut_setSlot (s : State) (i : Nat) (v : LegalSlot) : s.slotsBut i (s.setSlot i v) := fun _ hj => Table.get_set_other _ _ _ hj

theorem slotsBut_postLegal (s : State) (i k : Nat) (op : LegalOp) : s.slotsBut i (s.postLegal k op) := by
  unfold State.postLegal
  exact slotsBut_ite (slotsBut_of_slots rfl) (keeps_State_hwlSend.slotsBut i)

theorem slotsBut_creditAction (s : State) (i : Nat) (old v : LegalSlot) : s.slotsBut i (s.creditAction i old v) := by
  unfold State.creditAction
  extract_lets low s1
  have h1 : s.slotsBut i s1 := slotsBut_ite (slotsBut_postLegal s i i _) (slotsBut_refl s i)
  exact slotsBut_ite (slotsBut_refl s i) (slotsBut_ite (h1.then (slotsBut_postLegal s1 i i _)) h1)

theorem slotsBut_commitSlot (s : State) (i : Nat) (old v : LegalSlot) : s.slotsBut i (s.commitSlot i old v) := by
  unfold State.commitSlot
  extract_lets w s1 s2 s3
  have h1 : s.slotsBut i s1 := slotsBut_setSlot s i w
  have h2 : s.slotsBut i s2 := slotsBut_ite (h1.then (keeps_State_creditAlarm.slotsBut i)) h1
  have h3 : s.slotsBut i s3 := slotsBut_ite (h2.then (keeps_State_creditAlarm.slotsBut i)) h2
  exact h3.then (slotsBut_creditAction s3 i old w)

theorem slotsBut_closureOut (i j : Nat) (s : State) (p : ClosedPeriod) : s.slotsBut i (State.closureOut j s p) := by
  unfold State.closureOut
  extract_lets s1
  have h1 : s.slotsBut i s1 := keeps_State_bump.slotsBut i
  have h2 : s1.slotsBut i (s1.keepClosed j [p]) := slotsBut_of_slots rfl
  exact (h1.then h2).then (((keeps_State_toFuller (i := .closed j p)).within (L := [.ful, .host, .regs]) |>.then
      keeps_State_reportOut).slotsBut i)

theorem slotsBut_commitRecord (s : State) (i : Nat) (r : Record) (tref : Nat) (k : Option Int) (deltas : List (Option Nat)) :
    s.slotsBut i (s.commitRecord i r tref k deltas).1 := by
  unfold State.commitRecord
  extract_lets old b s1 s2 s3
  have h1 : s.slotsBut i s1 := (slotsBut_commitSlot s i old b.slot).then
    (((keeps_State_bump (c := cBilCommitted)).within (L := [.regs, .upd]) |>.then keeps_State_checkMet).slotsBut i)
  have h2 : s.slotsBut i s2 := slotsBut_ite (h1.then (keeps_State_bump.slotsBut i)) h1
  have h3 : s.slotsBut i s3 := slotsBut_ite (h2.then (keeps_State_bump.slotsBut i)) h2
  exact slotsBut_foldl (fun u p h => h.then (slotsBut_closureOut i i u p)) h3

theorem slotsBut_freezeMeter (s : State) (i : Nat) (q : BitVec 32) (cause : Nat) : s.slotsBut i (s.freezeMeter i q cause) := by
  unfold State.freezeMeter
  extract_lets g old s1 w s2
  have h1 : s.slotsBut i s1 := slotsBut_setSlot s i _
  have h2 : s1.slotsBut i s2 := slotsBut_of_slots rfl
  exact (h1.then h2).then ((keeps_State_queueOp.within (L := [.ing, .ful]) |>.then keeps_State_journal).slotsBut i)

theorem slotsBut_noMajority (s : State) (i : Nat) (q : BitVec 32) : s.slotsBut i (s.noMajority i q) := by
  unfold State.noMajority
  extract_lets g s1 s2
  have h1 : s.slotsBut i s1 := (slotsBut_freezeMeter s i q 1).then
    ((keeps_State_raiseInt.then keeps_State_bump).slotsBut i)
  have h2 : s.slotsBut i s2 := h1.then (keeps_State_reportOut.slotsBut i)
  exact h2.then (slotsBut_of_slots rfl)

theorem slotsBut_retireUnit (s : State) (i u : Nat) : s.slotsBut i (s.retireUnit u) := by
  unfold State.retireUnit
  extract_lets units few v s1
  have h1 : s.slotsBut i s1 := slotsBut_of_slots rfl
  exact h1.then (((keeps_State_raiseInt (a := 0x140004) (bit := 2)).within (L := [.way, .host, .regs, .out]) |>.then keeps_State_reportOut
    |>.then keeps_State_event).slotsBut i)

theorem slotsBut_outvote (s : State) (i u : Nat) : s.slotsBut i (s.outvote u) := by
  unfold State.outvote
  extract_lets times v s1 s2
  have h1 : s.slotsBut i s1 := slotsBut_of_slots rfl
  have h2 : s.slotsBut i s2 := h1.then
    (((keeps_State_raiseInt (a := 0x140004) (bit := 0)).within (L := [.way, .host, .limits, .regs, .out]) |>.then
        keeps_State_note).slotsBut i)
  exact slotsBut_ite (h2.then (slotsBut_retireUnit s2 i u)) h2

theorem slotsBut_settleCuts (s : State) (i : Nat) : s.slotsBut i s.settleCuts := by
  unfold State.settleCuts
  extract_lets busy go isGone v
  exact slotsBut_ite (slotsBut_refl s i) (slotsBut_foldl (fun u g h => h.then (keeps_State_markCut.slotsBut i)) (slotsBut_of_slots rfl))

theorem slotsBut_commitImage_record (s : State) (id i tref : Nat) (r : Record) (k : Option Int) (d : List (Option Nat)) (m : Nat) :
    s.slotsBut i (s.commitImage (.record id i r tref k d) m) := by
  have hitem : s.slotsBut i (s.commitItem (.record id i r tref k d)) :=
    (slotsBut_commitRecord s i r tref k d).then (keeps_State_readingDecided.slotsBut i)
  refine .then hitem ?_
  show State.slotsBut _ i (if m = 0 then _ else _)
  exact slotsBut_ite (slotsBut_refl _ i) fun _ hj => Table.get_set_other _ _ _ hj

/-- The item of a record, voted on: only its own slot can change. -/
theorem slotsBut_vote_record (s : State) (id i tref : Nat) (r : Record) (k : Option Int) (d : List (Option Nat))
    (answers : List UnitAnswer) :
    s.slotsBut i (s.vote (.record id i r tref k d) answers) := by
  unfold State.vote
  extract_lets l v s0 await
  have h0 : s.slotsBut i s0 := slotsBut_of_slots rfl
  have hawait : ∀ (st : State) c, st.slotsBut i (await st c) := fun st c => slotsBut_of_slots rfl
  split
  · rename_i m hm
    extract_lets s1
    have h1 : s.slotsBut i s1 := slotsBut_foldl (fun w u h => h.then (slotsBut_outvote w i u))
      (h0.then (slotsBut_commitImage_record s0 id i tref r k d m))
    exact slotsBut_ite h1 (h1.then (hawait s1 true))
  · have hno : s0.slotsBut i (s0.itemNoMajority (.record id i r tref k d)) :=
      (slotsBut_noMajority s0 i r.readSeq).then (keeps_State_declineRecord.slotsBut i)
    exact slotsBut_ite (h0.then hno) (h0.then (hawait s0 false))

theorem slotsBut_beforeVote_record {s u : State} {fails : Bool} {id i tref : Nat} {r : Record} {k : Option Int} {d : List (Option Nat)}
    (h : s.beforeVote fails (.record id i r tref k d) = some u) : s.slotsBut i u := by
  have hdecline : ∀ (v : State) code, v.slotsBut i (v.declineRecord id r code) := fun v code => keeps_State_declineRecord.slotsBut i
  have herror : s.slotsBut i (s.slotError i r.readSeq) :=
    (slotsBut_freezeMeter s i r.readSeq 2).then ((keeps_State_raiseInt.then keeps_State_bump).slotsBut i)
  simp only [State.beforeVote] at h
  split at h
  · exact Option.some.inj h ▸ hdecline s 1
  · split at h
    · exact Option.some.inj h ▸ hdecline s 2
    · split at h
      · exact Option.some.inj h ▸ hdecline s 3
      · split at h
        · exact Option.some.inj h ▸ herror.then (hdecline _ 3)
        · exact absurd h nofun

theorem slotsBut_execTroikaUpdate {s : State} {f : Bool} {a b c : UnitAnswer} {t id i tref : Nat} {r : Record} {k : Option Int}
    {d : List (Option Nat)} (hitem : nextItem s.bil.undecided [] s.bil.queue = some (.record id i r tref k d)) {u : State}
    (h : exec (.troikaUpdate f a b c t) s = .next u) : s.slotsBut i u := by
  have hexec : execTroikaUpdate f a b c t s = .next u := h
  have hitem' : nextItem (s.advance t).bil.undecided [] (s.advance t).bil.queue = some (.record id i r tref k d) := hitem
  have h0 : s.slotsBut i (s.advance t) := State.keepsBut.slotsBut keeps_State_advance i
  unfold execTroikaUpdate at hexec
  simp only [hitem'] at hexec
  split at hexec
  · rw [← Host.Outcome.next.inj hexec]
    exact h0
  · rw [← Host.Outcome.next.inj hexec]
    have h1 : s.slotsBut i (({ s.advance t with bil := { (s.advance t).bil with
        queue := (s.advance t).bil.queue.erase (.record id i r tref k d) } }).bump cBilUpdates) :=
      .then (slotsBut_of_slots rfl) (keeps_State_bump.slotsBut i)
    refine .then (.then h1 ?_) (slotsBut_settleCuts _ i)
    refine slotsBut_ite (State.keepsBut.slotsBut keeps_State_itemLegalSafe i) ?_
    split
    · rename_i hbefore
      exact slotsBut_beforeVote_record hbefore
    · exact slotsBut_vote_record _ id i tref r k d _

/-- Settles O8. -/
theorem otherMetersKeepTheirState : Obligations.OtherMetersKeepTheirState := by
  unfold Obligations.OtherMetersKeepTheirState
  exact ⟨fun s u lane x t i rest hfills h => ctxBut_execContextFill hfills h, fun s u k t h => ctxBut_execSlotMiss h,
    fun s u g t i hi h => ctxBut_execComponentLapse hi h, fun s u f a b c t id i tref r k d hitem h => slotsBut_execTroikaUpdate hitem h⟩

end Sys2Proof.Machine

/-! # Troika -/

namespace Sys2Proof.Machine

-- One theorem after the other: a thread for each would pass the memory limit of the check.
set_option Elab.async false

/-! ## Troika's updates (R171 to R190) -/

theorem State.settleCuts_none {s : State} (h : settled ((s.bil.awaiting.filter fun w => !w.committed).filterMap fun w =>
    w.item.index.map fun i => i % 4) s.bil.queue = []) : s.settleCuts = s := by
  unfold State.settleCuts
  exact if_pos h

/-- Settling the cuts takes them out of Troika's line, and no more. -/
theorem State.settleCuts_bil (s : State) : ∃ q, s.settleCuts.bil = { s.bil with queue := q } := by
  unfold State.settleCuts
  extract_lets busy go isGone b
  split
  · exact ⟨s.bil.queue, rfl⟩
  · exact ⟨_, keepsBut_foldl (L := [.way, .host, .limits, .regs, .out, .hwl]) (fun u g h => h.then keeps_State_markCut) (keepsBut_refl _ _)
      .bil (by decide)⟩

/-- An item has been taken from Troika's line, and the update counted. -/
def State.updateTaken (s : State) (x : TroikaItem) : State :=
  { s with bil := { s.bil with queue := s.bil.queue.erase x } }.bump cBilUpdates

theorem keeps_State_updateTaken {s : State} {x : TroikaItem} : s.keepsBut [.bil, .regs] (s.updateTaken x) :=
  keeps_with_bil.within |>.then keeps_State_bump

theorem State.updateTaken_bil (s : State) (x : TroikaItem) : (s.updateTaken x).bil = { s.bil with queue := s.bil.queue.erase x } :=
  keeps_State_bump (s := { s with bil := { s.bil with queue := s.bil.queue.erase x } }) .bil (by decide)

/-- An update of an item that is next in line (R172). -/
theorem exec_troikaUpdate {s : State} {f : Bool} {a b c : UnitAnswer} {t : Nat} {x : TroikaItem} (hrestoring : s.bil.restoring = false)
    (hsafe : s.bil.safe = false) (hdead : s.bil.dead = false) (hawait : s.bil.awaiting = [])
    (hitem : nextItem s.bil.undecided [] s.bil.queue = some x) :
    ∃ s1 : State, s.keepsBut [.now, .bil, .regs] s1 ∧ s1.bil = { s.bil with queue := s.bil.queue.erase x } ∧
      exec (.troikaUpdate f a b c t) s = .next (((s1.beforeVote f x).getD (s1.vote x [a, b, c])).settleCuts) := by
  have hbil := State.updateTaken_bil (s.advance t) x
  refine ⟨(s.advance t).updateTaken x, keeps_State_advance.within |>.then keeps_State_updateTaken, hbil, ?_⟩
  have hitem' : nextItem (s.advance t).bil.undecided [] (s.advance t).bil.queue = some x := hitem
  have hdead' : ((s.advance t).updateTaken x).bil.dead ≠ true :=
    ne_true_of_eq_false ((congrArg Bil.dead hbil :).trans hdead)
  have hready : ¬ (s.bil.restoring = true ∨ (s.bil.safe = true ∧ s.bil.dead = false) ∨ 4 ≤ s.bil.awaiting.length) := by
    simp [hrestoring, hsafe, hawait]
  show execTroikaUpdate f a b c t s = _
  simp only [execTroikaUpdate, hitem']
  refine (if_neg hready).trans (next_of_eq (congrArg State.settleCuts ((if_neg hdead').trans ?_)))
  change (match ((s.advance t).updateTaken x).beforeVote f x with
    | some s2 => s2
    | none => _) = _
  cases ((s.advance t).updateTaken x).beforeVote f x <;> rfl

theorem State.slotAt_of {s u : State} (h : u.bil.slots = s.bil.slots) (i : Nat) : u.slotAt i = s.slotAt i :=
  congrArg (Table.get LegalSlot.fresh · i) h

/-- A record that VAL has accepted, of a meter whose slot stands readable and not frozen, goes to the vote (R173, R183). -/
theorem State.beforeVote_none {s : State} {id i tref : Nat} {r : Record} {k : Option Int} {d : List (Option Nat)}
    (hverdict : r.verdict.toNat < 2)
    (hfrozen : (s.slotAt i).frozen = false) (hcrc : (s.slotAt i).crcOk = true) :
    s.beforeVote false (.record id i r tref k d) = none := by
  have h2 : r.verdict ≠ 2#3 := fun h => absurd hverdict (by rw [h]; decide)
  have h3 : r.verdict ≠ 3#3 := fun h => absurd hverdict (by rw [h]; decide)
  simp [State.beforeVote, h2, h3, hfrozen, hcrc]

/-- A frozen slot (R188): its mark, its cause and the sequence at which it froze. -/
theorem State.freezeMeter_slot (s : State) (i : Nat) (q : BitVec 32) (cause : Nat) :
    (s.freezeMeter i q cause).slotAt i = { s.slotAt i with frozen := true, freezeSeq := q, freezeCause := cause, crcOk := true } := by
  let v := { s.slotAt i with frozen := true, freezeSeq := q, freezeCause := cause, crcOk := true }
  have hset : (s.setSlot i { s.slotAt i with frozen := true, freezeSeq := q, freezeCause := cause }).slotAt i = v :=
    Table.get_set_ne fun h => absurd (show true = false from congrArg LegalSlot.frozen h) (by decide)
  refine (State.slotAt_of ?_ i).trans hset
  unfold State.freezeMeter
  extract_lets g old s1 w s2
  have hbil : ((s2.queueOp (laneOf i) (.freeze i true)).journal g (.frozen q cause)).bil = s2.bil :=
    (keeps_State_queueOp.within (L := [.ing, .ful]) |>.then keeps_State_journal) .bil (by decide)
  exact (congrArg Bil.slots hbil :)

theorem State.freezeMeter_bil (s : State) (i : Nat) (q : BitVec 32) (cause : Nat) :
    (s.freezeMeter i q cause).bil.safe = s.bil.safe ∧ (s.freezeMeter i q cause).bil.awaiting = s.bil.awaiting := by
  unfold State.freezeMeter
  extract_lets g old s1 w s2
  have hbil : ((s2.queueOp (laneOf i) (.freeze i true)).journal g (.frozen q cause)).bil = s2.bil :=
    (keeps_State_queueOp.within (L := [.ing, .ful]) |>.then keeps_State_journal) .bil (by decide)
  exact ⟨(congrArg Bil.safe hbil :), (congrArg Bil.awaiting hbil :)⟩

/-- Three unlike images freeze the meter and make the partition safe (R188). -/
theorem State.noMajority_bil (s : State) (i : Nat) (q : BitVec 32) :
    (s.noMajority i q).slotAt i = { s.slotAt i with frozen := true, freezeSeq := q, freezeCause := 1, crcOk := true } ∧
      (s.noMajority i q).bil.safe = true ∧ (s.noMajority i q).bil.awaiting = s.bil.awaiting := by
  unfold State.noMajority
  extract_lets g s1 s2
  have hbil : s2.bil = (s.freezeMeter i q 1).bil :=
    (keeps_State_raiseInt.within (L := [.regs, .out, .host]) |>.then keeps_State_bump |>.then keeps_State_reportOut) .bil (by decide)
  exact ⟨(State.slotAt_of (congrArg Bil.slots hbil) i).trans (State.freezeMeter_slot s i q 1), rfl,
    (congrArg Bil.awaiting hbil).trans (State.freezeMeter_bil s i q 1).2⟩

theorem State.slotError_bil (s : State) (i : Nat) (q : BitVec 32) : (s.slotError i q).bil = (s.freezeMeter i q 2).bil :=
  (keeps_State_raiseInt.then keeps_State_bump) .bil (by decide)

theorem State.declineRecord_bil (s : State) (id : Nat) (r : Record) (code : Nat) : (s.declineRecord id r code).bil = s.bil :=
  keeps_State_declineRecord .bil (by decide)

theorem State.closureOut_bil (s : State) (i : Nat) (p : ClosedPeriod) : ∃ c, (State.closureOut i s p).bil = { s.bil with closed := c } := by
  unfold State.closureOut
  extract_lets s1
  have hbil : (((s1.keepClosed i [p]).toFuller (.closed i p)).reportOut (.closedPeriod p)).bil = (s1.keepClosed i [p]).bil :=
    (keeps_State_toFuller.within (L := [.ful, .host, .regs]) |>.then keeps_State_reportOut) .bil (by decide)
  have h1 : s1.bil = s.bil := keeps_State_bump .bil (by decide)
  refine ⟨Table.set [] s1.bil.closed i (([p].reverse ++ s1.closedOf i).take 24), hbil.trans ?_⟩
  unfold State.keepClosed
  rw [h1]

theorem State.closures_bil (ps : List ClosedPeriod) (s : State) (i : Nat) :
    ∃ c, (ps.foldl (State.closureOut i) s).bil = { s.bil with closed := c } := by
  induction ps generalizing s with
  | nil => exact ⟨s.bil.closed, rfl⟩
  | cons p ps ih =>
    obtain ⟨c, hc⟩ := State.closureOut_bil s i p
    obtain ⟨c', hc'⟩ := ih (State.closureOut i s p)
    exact ⟨c', by rw [List.foldl_cons, hc', hc]⟩

theorem State.commitSlot_bil {s : State} {i : Nat} {old v : LegalSlot} (h : s.item iCreditAction = 0) :
    (s.commitSlot i old v).bil = { s.bil with
      slots := Table.set LegalSlot.fresh s.bil.slots i { creditFlags s.creditEnv (s.tariffsOf i) old v with crcOk := true } } := by
  unfold State.commitSlot
  extract_lets w s1 s2 s3
  have h2 : s1.keepsBut [.way, .host, .regs, .out] s2 := keepsBut_ite keeps_State_creditAlarm (keepsBut_refl _ _)
  have h3 : s1.keepsBut [.way, .host, .regs, .out] s3 := keepsBut_ite (h2.then keeps_State_creditAlarm) h2
  have hitem : s3.item iCreditAction = 0 := (h3.item _).trans ((keeps_State_setSlot.item _).trans h)
  have haction : s3.creditAction i old w = s3 := by
    unfold State.creditAction
    exact if_pos (by rw [hitem]; decide)
  rw [haction]
  exact h3 .bil (by decide)

/-- A committed record: the slot, billed (R176 to R183). -/
theorem State.commitRecord_bil {s : State} {i : Nat} {r : Record} {tref : Nat} {k : Option Int} {d : List (Option Nat)}
    (h : s.item iCreditAction = 0) :
    ∃ c, (s.commitRecord i r tref k d).1.bil = { s.bil with
      slots := Table.set LegalSlot.fresh s.bil.slots i
        { creditFlags s.creditEnv (s.tariffsOf i) (s.slotAt i)
            (applyRecord s.billEnv (s.tariffsOf i) (s.slotAt i) r.gmn r tref k d).slot with crcOk := true },
      closed := c } := by
  unfold State.commitRecord
  extract_lets old b s1 s2 s3
  have h1 : s1.bil = (s.commitSlot i old b.slot).bil :=
    (keeps_State_bump.within (L := [.regs, .upd]) |>.then keeps_State_checkMet) .bil (by decide)
  have h3 : s1.keepsBut [.regs] s3 := by
    have h2 : s1.keepsBut [.regs] s2 := keepsBut_ite keeps_State_bump (keepsBut_refl _ _)
    exact keepsBut_ite (h2.then keeps_State_bump) h2
  obtain ⟨c, hc⟩ := State.closures_bil b.closed s3 i
  refine ⟨c, hc.trans ?_⟩
  rw [(h3 .bil (by decide) : s3.bil = s1.bil), h1, State.commitSlot_bil h]

/-- The three units that vote (R188). -/
theorem Bil.presented_all {b : Bil} (hunits : b.units = [true, true, true]) (hsit : b.sitOut = none) (x y z : UnitAnswer) :
    b.presented [x, y, z] = [(0, x), (1, y), (2, z)] := by
  have hvoters : b.voters = [0, 1, 2] := by
    unfold Bil.voters
    rw [hunits, hsit]
    decide
  unfold Bil.presented
  rw [hvoters]
  rfl

/-- A record whose slot cannot be read (R188). -/
theorem State.beforeVote_unread {s : State} {id i tref : Nat} {r : Record} {k : Option Int} {d : List (Option Nat)}
    (hverdict : r.verdict.toNat < 2) (hfrozen : (s.slotAt i).frozen = false) :
    s.beforeVote true (.record id i r tref k d) = some ((s.slotError i r.readSeq).declineRecord id r 3) := by
  have h2 : r.verdict ≠ 2#3 := fun h => absurd hverdict (by rw [h]; decide)
  have h3 : r.verdict ≠ 3#3 := fun h => absurd hverdict (by rw [h]; decide)
  simp [State.beforeVote, h2, h3, hfrozen]

/-- Three equal images commit the record (R188). -/
theorem State.vote_agreed {s : State} {id i tref : Nat} {r : Record} {k : Option Int} {d : List (Option Nat)}
    (hunits : s.bil.units = [true, true, true]) (hsit : s.bil.sitOut = none) (h : s.item iCreditAction = 0) :
    ∃ c, (s.vote (.record id i r tref k d) [.image 0, .image 0, .image 0]).bil = { s.bil with
      slots := Table.set LegalSlot.fresh s.bil.slots i
        { creditFlags s.creditEnv (s.tariffsOf i) (s.slotAt i)
            (applyRecord s.billEnv (s.tariffsOf i) (s.slotAt i) r.gmn r tref k d).slot with crcOk := true },
      closed := c } := by
  have hvote : s.vote (.record id i r tref k d) [.image 0, .image 0, .image 0] =
      { s with bil := { s.bil with sitOut := none } }.commitItem (.record id i r tref k d) := by
    unfold State.vote
    rw [Bil.presented_all hunits hsit]
    rfl
  obtain ⟨c, hc⟩ := State.commitRecord_bil (s := { s with bil := { s.bil with sitOut := none } }) (i := i) (r := r) (tref := tref)
    (k := k) (d := d) h
  refine ⟨c, ?_⟩
  rw [hvote]
  refine (keeps_State_readingDecided .bil (by decide)).trans (hc.trans ?_)
  rw [← hsit]

theorem State.vote_unlike {s : State} {x : TroikaItem} {a b c : Nat} (hunits : s.bil.units = [true, true, true])
    (hsit : s.bil.sitOut = none)
    (hab : a ≠ b) (hac : a ≠ c) (hbc : b ≠ c) :
    s.vote x [.image a, .image b, .image c] = { s with bil := { s.bil with sitOut := none } }.itemNoMajority x := by
  have hmask : agreedMask [(0, .image a), (1, .image b), (2, .image c)] = none := by
    simp [agreedMask, hab, hac, hbc, hab.symm, hac.symm, hbc.symm]
  unfold State.vote
  rw [Bil.presented_all hunits hsit]
  simp only [hmask]
  rfl

/-- What billing reads of the settings and the time zone. -/
theorem State.envs_of {s u : State} (hitem : ∀ k, u.itemBytes k = s.itemBytes k) (htim : u.tim = s.tim) :
    u.creditEnv = s.creditEnv ∧ u.billEnv = s.billEnv := by
  unfold State.creditEnv State.billEnv State.itemInt
  simp only [State.item_of hitem, htim, and_self]

/-- Settles O22. -/
theorem troikaCommitsOnlyByMajority : Obligations.TroikaCommitsOnlyByMajority := by
  unfold Obligations.TroikaCommitsOnlyByMajority
  refine ⟨?commits, ?rejected, ?unread, ?unlike⟩
  case commits =>
    intro s t id i r tref k d hrestoring hsafe hdead hawait hunits hsit hitem hverdict hcuts hfrozen hcrc hcredit
    obtain ⟨s1, hkeep, hbil, hexec⟩ := exec_troikaUpdate (f := false) (a := .image 0) (b := .image 0) (c := .image 0) (t := t)
      hrestoring hsafe hdead hawait hitem
    have hslot : s1.slotAt i = s.slotAt i := State.slotAt_of (congrArg Bil.slots hbil :) i
    rw [State.beforeVote_none hverdict (by rw [hslot, hfrozen]) (by rw [hslot, hcrc]), Option.getD_none] at hexec
    obtain ⟨hcenv, hbenv⟩ := State.envs_of (fun key => hkeep.itemBytes key) (hkeep .tim (by decide))
    have htariffs : s1.tariffsOf i = s.tariffsOf i := by
      unfold State.tariffsOf State.tariffSlot
      rw [State.ctxAt_of (hkeep .ctx (by decide)), hbil]
    obtain ⟨c, hvote⟩ := State.vote_agreed (s := s1) (id := id) (i := i) (r := r) (tref := tref) (k := k) (d := d)
      ((congrArg Bil.units hbil :).trans hunits) ((congrArg Bil.sitOut hbil :).trans hsit) ((hkeep.item _).trans hcredit)
    have hsettled := State.settleCuts_none (s := s1.vote (.record id i r tref k d) [.image 0, .image 0, .image 0])
      (by rw [hvote, hbil, hawait]; exact hcuts)
    rw [hsettled] at hexec
    refine ⟨_, hexec, ?_, ?_⟩
    · rw [hvote, hbil, hslot, hcenv, hbenv, htariffs]
    · rw [hvote, hbil]
  case rejected =>
    intro s t id i r tref k d fails a b c hrestoring hsafe hdead hawait hitem hverdict hcuts
    obtain ⟨s1, hkeep, hbil, hexec⟩ := exec_troikaUpdate (f := fails) (a := a) (b := b) (c := c) (t := t)
      hrestoring hsafe hdead hawait hitem
    have hbefore : s1.beforeVote fails (.record id i r tref k d) = some (s1.declineRecord id r 1) := by
      simp only [State.beforeVote]
      exact if_pos hverdict
    have hdecline : (s1.declineRecord id r 1).bil = { s.bil with queue := s.bil.queue.erase (.record id i r tref k d) } :=
      (State.declineRecord_bil s1 id r 1).trans hbil
    have hsettled : (s1.declineRecord id r 1).settleCuts = s1.declineRecord id r 1 :=
      State.settleCuts_none (by rw [hdecline, hawait]; exact hcuts)
    rw [hbefore, Option.getD_some, hsettled] at hexec
    exact ⟨_, hexec, hdecline⟩
  case unread =>
    intro s t id i r tref k d a b c hrestoring hsafe hdead hawait hitem hverdict hfrozen
    obtain ⟨s1, hkeep, hbil, hexec⟩ := exec_troikaUpdate (f := true) (a := a) (b := b) (c := c) (t := t)
      hrestoring hsafe hdead hawait hitem
    have hslot : s1.slotAt i = s.slotAt i := State.slotAt_of (congrArg Bil.slots hbil :) i
    rw [State.beforeVote_unread hverdict (by rw [hslot, hfrozen]), Option.getD_some] at hexec
    obtain ⟨q, hcut⟩ := State.settleCuts_bil ((s1.slotError i r.readSeq).declineRecord id r 3)
    have herror := (State.declineRecord_bil (s1.slotError i r.readSeq) id r 3).trans (State.slotError_bil s1 i r.readSeq)
    have hfinal : ((s1.slotError i r.readSeq).declineRecord id r 3).settleCuts.slotAt i =
        { s.slotAt i with frozen := true, freezeSeq := r.readSeq, freezeCause := 2, crcOk := true } := by
      rw [State.slotAt_of ((congrArg Bil.slots hcut :).trans (congrArg Bil.slots herror :)), State.freezeMeter_slot, hslot]
    refine ⟨_, hexec, ?_, ?_, ?_, ?_, ?_⟩
    iterate 4 rw [hfinal]
    rw [hcut, herror]
    exact (State.freezeMeter_bil s1 i r.readSeq 2).1.trans ((congrArg Bil.safe hbil :).trans hsafe)
  case unlike =>
    intro s t id i a b c r tref k d hrestoring hsafe hdead hawait hunits hsit hitem hverdict hfrozen hcrc hab hac hbc
    obtain ⟨s1, hkeep, hbil, hexec⟩ := exec_troikaUpdate (f := false) (a := .image a) (b := .image b) (c := .image c) (t := t)
      hrestoring hsafe hdead hawait hitem
    have hslot : s1.slotAt i = s.slotAt i := State.slotAt_of (congrArg Bil.slots hbil :) i
    rw [State.beforeVote_none hverdict (by rw [hslot, hfrozen]) (by rw [hslot, hcrc]), Option.getD_none,
      State.vote_unlike ((congrArg Bil.units hbil :).trans hunits) ((congrArg Bil.sitOut hbil :).trans hsit) hab hac hbc] at hexec
    obtain ⟨q, hcut⟩ := State.settleCuts_bil ({ s1 with bil := { s1.bil with sitOut := none } }.itemNoMajority (.record id i r tref k d))
    obtain ⟨hfreeze, hmade, -⟩ := State.noMajority_bil { s1 with bil := { s1.bil with sitOut := none } } i r.readSeq
    have hdecline := State.declineRecord_bil ({ s1 with bil := { s1.bil with sitOut := none } }.noMajority i r.readSeq) id r 4
    have hfinal := (State.slotAt_of ((congrArg Bil.slots hcut :).trans (congrArg Bil.slots hdecline :)) i).trans hfreeze
    refine ⟨_, hexec, ?_, ?_, ?_, ?_⟩
    · rw [hfinal]
    · rw [hfinal]
    · rw [hfinal]
      exact (congrArg LegalSlot.total hslot :)
    · exact (congrArg Bil.safe hcut :).trans ((congrArg Bil.safe hdecline :).trans hmade)

end Sys2Proof.Machine

/-! # Failed units and legal operations -/

namespace Sys2Proof.Machine

-- One theorem after the other: a thread for each would pass the memory limit of the check.
set_option Elab.async false

/-! ## Units that fail, and the display (R188 to R190, R198) -/

theorem State.retireUnit_bil (s : State) (u : Nat) :
    (s.retireUnit u).bil = { s.bil with
      units := s.bil.units.set u false,
      safe := s.bil.safe || decide (((s.bil.units.set u false).filter fun x => x).length < 2),
      dead := s.bil.dead || decide (((s.bil.units.set u false).filter fun x => x).length < 2) } := by
  unfold State.retireUnit
  extract_lets units few b s1
  exact (keeps_State_raiseInt.within (L := [.way, .host, .regs, .out]) |>.then keeps_State_reportOut |>.then keeps_State_event)
    .bil (by decide)

/-- An outvoted unit sits out the next update (R188). -/
theorem State.outvote_bil (s : State) (u : Nat) :
    (s.outvote u).bil.sitOut = some u ∧ (s.outvote u).bil.awaiting = s.bil.awaiting ∧ (s.outvote u).bil.slots = s.bil.slots := by
  unfold State.outvote
  extract_lets times b s1 s2
  have h2 : s2.bil = s1.bil :=
    (keeps_State_raiseInt.within (L := [.way, .host, .limits, .regs, .out]) |>.then keeps_State_note) .bil (by decide)
  split
  · rw [State.retireUnit_bil, h2]
    exact ⟨rfl, rfl, rfl⟩
  · rw [h2]
    exact ⟨rfl, rfl, rfl⟩

/-- Without a majority the partition is safe, whatever the item of one meter (R188). -/
theorem State.itemNoMajority_safe {s : State} {x : TroikaItem} {i : Nat} (h : x.index = some i) :
    (s.itemNoMajority x).bil.safe = true ∧ (s.itemNoMajority x).bil.awaiting = s.bil.awaiting := by
  have hno : ∀ k q, (s.noMajority k q).bil.safe = true ∧ (s.noMajority k q).bil.awaiting = s.bil.awaiting := fun k q =>
    (State.noMajority_bil s k q).2
  have hanswer : ∀ k q ref (l : List Byte), ((s.noMajority k q).answerOp ref 2 .none 4 l).bil = (s.noMajority k q).bil := fun k q ref l =>
    keeps_State_answerOp .bil (by decide)
  cases x with
  | record id k r _ _ _ =>
    show ((s.noMajority k r.readSeq).declineRecord id r 4).bil.safe = true ∧
        ((s.noMajority k r.readSeq).declineRecord id r 4).bil.awaiting = _
    rw [State.declineRecord_bil]
    exact hno k _
  | legal k op ref m =>
    show ((s.noMajority k _).answerOp ref 2 .none 4 []).bil.safe = true ∧ ((s.noMajority k _).answerOp ref 2 .none 4 []).bil.awaiting = _
    rw [hanswer]
    exact hno k _
  | clear k _ => exact hno k _
  | slot k _ => exact hno k _
  | replay k r _ _ _ ref _ _ =>
    show ((s.noMajority k _).answerOp ref 2 .none 4 []).bil.safe = true ∧ ((s.noMajority k _).answerOp ref 2 .none 4 []).bil.awaiting = _
    rw [hanswer]
    exact hno k _
  | tariff _ _ _ => exact absurd h nofun
  | cut _ _ _ => exact absurd h nofun

/-- The one update that awaits a unit, once its time has passed (R188). -/
theorem exec_voteTimeout {s : State} {unit : Fin 3} {t : Nat} {w : VoteWait} (hawait : s.bil.awaiting = [w])
    (hsilent : w.silent = [unit.val])
    (hdue : w.since + s.voteTicks ≤ (s.advance t).now) :
    exec (.voteTimeout unit t) s = .next ((if w.committed = true then
        ({ s.advance t with bil := { s.bil with awaiting := [] } } : State).outvote unit.val
      else ({ s.advance t with bil := { s.bil with awaiting := [] } } : State).itemNoMajority w.item).settleCuts) := by
  have hawait' : (s.advance t).bil.awaiting = [w] := hawait
  have hfind : [w].find? (fun w => decide (unit.val ∈ w.silent ∧ w.since + (s.advance t).voteTicks ≤ (s.advance t).now)) = some w := by
    rw [List.find?_cons_of_pos]
    exact decide_eq_true ⟨by rw [hsilent]; exact List.mem_singleton_self _, hdue⟩
  have hleft : (w.silent.filter fun u => decide (u ≠ unit.val)) = [] := by
    rw [hsilent]
    simp
  have hrest : [w].erase w = [] := List.erase_cons_head w []
  show execVoteTimeout unit t s = _
  simp only [execVoteTimeout, hawait', hfind, hleft, hrest, if_true]
  rfl

/-- The units in service whose test has failed (R190). -/
def State.failedUnits (s : State) (a b c : Bool) : List Nat :=
  (List.range 3).filter fun u => s.bil.units.getD u false && !([a, b, c].getD u false)

/-- The tests of the safe state, at their end (R190): what has failed is retired. -/
theorem exec_safeStateTestsDone {s u : State} {a b c : Bool} {t : Nat} (hsafe : s.bil.safe = true) (hdead : s.bil.dead = false)
    (hu : u = (s.failedUnits a b c).foldl State.retireUnit (s.advance t)) :
    exec (.safeStateTestsDone a b c t) s = .next (if u.bil.dead = true then u else { u with bil := { u.bil with safe := false } }) := by
  rw [hu]
  exact if_neg (not_or.2 ⟨fun h => absurd (hsafe.symm.trans h) (by decide), fun h => absurd (hdead.symm.trans h) (by decide)⟩)

/-- Settles O23. -/
theorem failedUnitsLeaveTheVoteAndDisplayIsChecked : Obligations.FailedUnitsLeaveTheVoteAndDisplayIsChecked := by
  unfold Obligations.FailedUnitsLeaveTheVoteAndDisplayIsChecked
  refine ⟨?silent, ?outvoted, ?waits, ?pass, ?fail, ?shown, ?missed, ?frame⟩
  case silent =>
    intro s unit t i w hawait hsilent hcommitted hdue hindex
    have hexec := exec_voteTimeout hawait hsilent hdue
    rw [if_neg (by rw [hcommitted]; decide)] at hexec
    obtain ⟨q, hcut⟩ := State.settleCuts_bil (({ s.advance t with bil := { s.bil with awaiting := [] } } : State).itemNoMajority w.item)
    obtain ⟨hsafe, hnone⟩ := State.itemNoMajority_safe (s := { s.advance t with bil := { s.bil with awaiting := [] } }) hindex
    exact ⟨_, hexec, (congrArg Bil.safe hcut :).trans hsafe, (congrArg Bil.awaiting hcut :).trans hnone⟩
  case outvoted =>
    intro s unit t w hawait hsilent hcommitted hdue
    have hexec := exec_voteTimeout hawait hsilent hdue
    rw [if_pos hcommitted] at hexec
    obtain ⟨q, hcut⟩ := State.settleCuts_bil (({ s.advance t with bil := { s.bil with awaiting := [] } } : State).outvote unit.val)
    obtain ⟨hsit, hnone, hslots⟩ := State.outvote_bil { s.advance t with bil := { s.bil with awaiting := [] } } unit.val
    exact ⟨_, hexec, (congrArg Bil.sitOut hcut :).trans hsit, (congrArg Bil.awaiting hcut :).trans hnone,
      (congrArg Bil.slots hcut :).trans hslots⟩
  case waits =>
    intro s unit t w hawait hearly
    have hawait' : (s.advance t).bil.awaiting = [w] := hawait
    have hfind : [w].find? (fun w => decide (unit.val ∈ w.silent ∧ w.since + (s.advance t).voteTicks ≤ (s.advance t).now)) = none := by
      rw [List.find?_cons_of_neg, List.find?_nil]
      exact fun h => absurd (of_decide_eq_true h).2 (Nat.not_le.2 hearly)
    show execVoteTimeout unit t s = _
    simp only [execVoteTimeout, hawait', hfind]
  case pass =>
    intro s t hsafe hdead
    have hfailed : s.failedUnits true true true = [] := by
      unfold State.failedUnits
      rw [List.filter_eq_nil_iff]
      intro u hu
      have hpass : [true, true, true].getD u false = true := by
        have hlt := List.mem_range.1 hu
        interval_cases u <;> rfl
      rw [hpass]
      simp
    have hexec := exec_safeStateTestsDone (u := s.advance t) (a := true) (b := true) (c := true) (t := t) hsafe hdead (by rw [hfailed]; rfl)
    exact ⟨_, hexec.trans (next_of_eq (if_neg (ne_true_of_eq_false hdead))), rfl⟩
  case fail =>
    intro s t hsafe hdead hunits
    have hfailed : s.failedUnits false false false = [0, 1, 2] := by
      unfold State.failedUnits
      rw [hunits]
      decide
    have hexec := exec_safeStateTestsDone (a := false) (b := false) (c := false) (t := t) hsafe hdead
      (congrArg (List.foldl State.retireUnit (s.advance t)) hfailed).symm
    have hbil : ([0, 1, 2].foldl State.retireUnit (s.advance t)).bil =
        { s.bil with units := [false, false, false], safe := true, dead := true } := by
      simp only [List.foldl_cons, List.foldl_nil, State.retireUnit_bil]
      rw [show (s.advance t).bil = s.bil from rfl, hunits, hsafe, hdead]
      rfl
    have hdied : ([0, 1, 2].foldl State.retireUnit (s.advance t)).bil.dead = true := by rw [hbil]
    refine ⟨_, hexec.trans (next_of_eq (if_pos hdied)), ?_, hdied, ?_⟩
    · rw [hbil]
    · rw [hbil]
  case shown =>
    intro s shownSeq t hrun hseq
    show ∃ u, execDisplayFrame 0xA5#8 shownSeq true t s = _ ∧ _
    unfold execDisplayFrame
    extract_lets s1 es l cur passed item e ok misses fault seq s2 s3
    have hok : ok = true := by
      show (decide (_ ∧ shownSeq.toNat = s.lgc.displaySeq) && true) = true
      rw [hseq]
      simp
    have hmisses : misses = 0 := if_pos hok
    have hfault : fault = false := by
      show decide (misses = 3) = false
      rw [hmisses]
      rfl
    exact ⟨s3, (if_neg (by rw [show s1.lgc.running = true from hrun]; decide)).trans (next_of_eq (if_neg (by rw [hfault]; simp))),
      rfl, hmisses, hfault, rfl, e, rfl⟩
  case missed =>
    intro s sync shownSeq t hrun htwo
    show ∃ u, execDisplayFrame sync shownSeq false t s = _ ∧ _
    unfold execDisplayFrame
    extract_lets s1 es l cur passed item e ok misses fault seq s2 s3
    have hok : ok = false := Bool.and_false _
    have hmisses : misses = 3 := by
      show (if ok = true then 0 else min 3 (s.lgc.misses + 1)) = 3
      rw [hok, htwo]
      rfl
    have hfault : fault = true := decide_eq_true hmisses
    have hlgc : (if fault = true ∧ l.fault = false then s3.event .legal 11 0x80 0 0 else s3).lgc = s3.lgc :=
      keepsBut_ite keeps_State_event (keepsBut_refl _ _) .lgc (by decide)
    refine ⟨_, (if_neg (by rw [show s1.lgc.running = true from hrun]; decide)).trans rfl, ?_, ?_, ?_⟩
    · exact (congrArg Lgc.displaySeq hlgc :)
    · exact (congrArg Lgc.misses hlgc :).trans hmisses
    · exact (congrArg Lgc.fault hlgc :).trans hfault
  case frame =>
    intro s seq e
    unfold State.displayBytes
    extract_lets b
    have hcrc : (leBytes 4 (crc32c b).toNat).length = 4 := leBytes_length _ _
    have hlen : (b ++ leBytes 4 (crc32c b).toNat).length - 4 = b.length := by rw [List.length_append, hcrc, Nat.add_sub_cancel]
    rw [hlen, List.drop_left, List.take_left]
    exact ⟨rfl, rfl⟩

/-! ## Legal operations posted, and the feeder's energy (R182 to R195, R234) -/

/-- A node in the field role posts a legal operation into Troika's line. -/
theorem State.postLegal_field {s : State} {i : Nat} {op : LegalOp} (h : s.boot.headEnd = false) :
    s.postLegal i op = s.toTroika (.legal i op none false) := by
  unfold State.postLegal State.sequences
  rw [h]
  rfl

theorem State.ownsMeters_field {s : State} (h : s.boot.headEnd = false) : s.ownsMeters = true := by
  unfold State.ownsMeters
  rw [h]
  rfl

/-- Operations posted one after another: all stand in Troika's line, and the slots as they stood. -/
theorem State.postLegals_field {s : State} (l : Table Context) (op : LegalOp) (h : s.boot.headEnd = false) :
    (l.foldl (fun (st : State) e => st.postLegal e.1 op) s).bil =
      { s.bil with queue := s.bil.queue ++ l.map fun e => .legal e.1 op none false } := by
  induction l generalizing s with
  | nil => simp
  | cons e l ih =>
    rw [List.foldl_cons, State.postLegal_field h, ih (by exact h)]
    simp [State.toTroika]

theorem State.handFeeder_accepting {s : State} (hrestoring : s.bil.restoring = false) (hsafe : s.bil.safe = false) :
    s.handFeeder.bil.slots = s.bil.slots ∧
      s.handFeeder.met = { s.met with unhanded := s.met.unhanded.map fun e => e % metEnergyUnit } ∧
      s.handFeeder.bil.feeder.total = (addEnergy s.bil.feeder s.met.rate (s.met.unhanded.map fun e => e / metEnergyUnit)).total ∧
      s.handFeeder.bil.feeder.rate = (addEnergy s.bil.feeder s.met.rate (s.met.unhanded.map fun e => e / metEnergyUnit)).rate := by
  unfold State.handFeeder
  rw [if_neg (not_or.2 ⟨ne_true_of_eq_false hrestoring, ne_true_of_eq_false hsafe⟩)]
  exact ⟨rfl, rfl, rfl, rfl⟩

/-- What MET takes of a cycle's samples (R193). -/
theorem State.metTake_met (s : State) (c : MetCycle) :
    (s.metTake c).met.since = addSample s.met.since (s.measureCycle c) ∧
      (s.metTake c).met.unhanded = addLists 4 s.met.unhanded (sampleParts (s.measureCycle c)) ∧ (s.metTake c).met.rate = s.met.rate := by
  unfold State.metTake
  extract_lets m x s1
  have hmet : (s1.setReg 0x160000 (s1.reg 0x160000 ||| BitVec.setWidth 32 m.clip)).met = s1.met := keeps_State_setReg .met (by decide)
  rw [hmet]
  exact ⟨rfl, rfl, rfl⟩

/-- The meters whose friendly period has ended (R186), where no disconnection of the balance is held. -/
theorem exec_friendlyPeriodEnd {s u : State} {t : Nat}
    (hu : (s.bil.slots.filter fun e => e.2.deferred).foldl (fun (st : State) e => st.endDeferred e.1) (s.advance t) = u)
    (hheld : u.bal.heldDisconnects = []) : exec (.friendlyPeriodEnd t) s = .next u := by
  show execFriendlyPeriodEnd t s = _
  unfold execFriendlyPeriodEnd
  extract_lets v s1 ended b s2
  have h1 : s1 = u := hu
  have hbal : s1.bal.heldDisconnects = [] := by rw [h1, hheld]
  have h2 : s2 = s1 := by
    unfold s2 b
    rw [hbal]
    show { s1 with bal := { s1.bal with heldDisconnects := [] } } = s1
    rw [← hbal]
  rw [hbal, h2, h1]
  rfl

/-- Settles O24. -/
theorem legalOperationsArePosted : Obligations.LegalOperationsArePosted := by
  unfold Obligations.LegalOperationsArePosted
  refine ⟨?closure, ?friendly, ?kept, ?confirmed, ?handed, ?held, ?parts, ?rebuilt⟩
  case closure =>
    intro s slot t p hrole hend
    have hexec : exec (.forcedClosure slot t) s = .next ((s.ctx.filter fun e => decide (e.2.group = slot.val ∧ e.2.state ≠ .empty ∧
        e.2.state ≠ .forward) && decide ((s.slotAt e.1).lastClose < p)).foldl (fun (st : State) e => st.postLegal e.1 (.forcedClosure p))
          (s.advance t)) := by
      have hend' : lastPeriodEnd (s.advance t).tim.utcOffset ((s.advance t).tariffSlot slot.val)
          (((s.advance t).cycleTime : Int) - (s.advance t).item iCloseGrace) = some p := hend
      show execForcedClosure slot t s = _
      simp only [execForcedClosure, hend']
      exact if_neg (by rw [State.ownsMeters_field (s := s.advance t) hrole]; decide)
    have hbil := State.postLegals_field (s := s.advance t) (s.ctx.filter fun e => decide (e.2.group = slot.val ∧ e.2.state ≠ .empty ∧
      e.2.state ≠ .forward) && decide ((s.slotAt e.1).lastClose < p)) (.forcedClosure p) hrole
    refine ⟨_, hexec, (congrArg Bil.slots hbil :), fun e he hgroup hactive hlast => ?_⟩
    rw [hbil]
    refine List.mem_append_right _ (List.mem_map.2 ⟨e, List.mem_filter.2 ⟨he, ?_⟩, rfl⟩)
    simp [hgroup, hactive, hlast]
  case friendly =>
    intro s t i v hrole hslots hdeferred hover hqueued hheld
    have hpost : (s.advance t).endDeferred i = (s.advance t).toTroika (.legal i (.disconnect true) none false) := by
      have howns : (s.advance t).ownsMeters = true := State.ownsMeters_field hrole
      rw [State.endDeferred, if_neg ?_, State.postLegal_field (s := s.advance t) hrole]
      rw [hover, howns, show (s.advance t).disconnectQueued i = false from hqueued]
      decide
    have hmeters : (s.bil.slots.filter fun e => e.2.deferred) = [(i, v)] := by
      rw [hslots]
      exact List.filter_cons_of_pos hdeferred
    exact ⟨(s.advance t).toTroika (.legal i (.disconnect true) none false), exec_friendlyPeriodEnd
        (by rw [hmeters]; exact hpost) hheld, rfl⟩
  case kept =>
    intro s t i v hslots hheld hstays
    refine exec_friendlyPeriodEnd ?_ hheld
    rw [hslots]
    by_cases hdeferred : v.deferred = true
    · have hover : (s.advance t).friendlyAt i (s.advance t).sec2020 = true := hstays.resolve_left (ne_false_of_eq_true hdeferred)
      have hmeters : [(i, v)].filter (fun e => e.2.deferred) = [(i, v)] := List.filter_cons_of_pos hdeferred
      rw [hmeters]
      exact if_pos (.inl hover)
    · have hmeters : [(i, v)].filter (fun e => e.2.deferred) = [] := List.filter_cons_of_neg hdeferred
      rw [hmeters]
      rfl
  case confirmed =>
    intro s gmn positive t i hrole hindex
    have hindex' : (s.advance t).heldIndex gmn = some i := hindex
    refine ⟨(s.advance t).toTroika (.legal i (.confirm positive) none false), ?_, rfl⟩
    show execSupplyConfirmation gmn positive t s = _
    simp only [execSupplyConfirmation, hindex']
    rw [State.postLegal_field (s := s.advance t) hrole]
  case handed =>
    intro s m t hrestoring hsafe
    have hbil : ((s.advance t).metTake m).bil = s.bil := keeps_State_metTake .bil (by decide)
    obtain ⟨hsince, hunhanded, hrate⟩ := State.metTake_met (s.advance t) m
    obtain ⟨hslots, hmet, htotal, hrates⟩ := State.handFeeder_accepting (s := (s.advance t).metTake m)
      ((congrArg Bil.restoring hbil).trans hrestoring) ((congrArg Bil.safe hbil).trans hsafe)
    rw [hunhanded] at hmet htotal hrates
    rw [hbil, hrate] at htotal hrates
    exact ⟨_, rfl, (congrArg Met.unhanded hmet :), (congrArg Met.since hmet :).trans hsince, htotal, hrates, hslots.trans
        (congrArg Bil.slots hbil)⟩
  case held =>
    intro s m t hsafe
    have hbil : ((s.advance t).metTake m).bil = s.bil := keeps_State_metTake .bil (by decide)
    have hhand : ((s.advance t).metTake m).handFeeder = (s.advance t).metTake m := if_pos (.inr (by rw [hbil]; exact hsafe))
    exact ⟨_, next_of_eq hhand, (State.metTake_met (s.advance t) m).2.1, hbil⟩
  case parts =>
    intro s c p
    exact ⟨rfl, rfl⟩
  case rebuilt =>
    intro s votes t c hrestoring hrebuilt hctx hsafe hat hck hnone
    have hready : ¬ ((s.advance t).bil.restoring = false ∨ (s.advance t).ful.rebuilding = true ∨ (s.advance t).ing.restoring = true ∨
        ((s.advance t).bil.safe = true ∧ (s.advance t).bil.dead = false)) := by
      rintro (h | h | h | ⟨h, -⟩)
      · exact absurd (hrestoring.symm.trans h) (by decide)
      · exact absurd (hrebuilt.symm.trans h) (by decide)
      · exact absurd (hctx.symm.trans h) (by decide)
      · exact absurd (hsafe.symm.trans h) (by decide)
    have hload : (s.advance t).loadLegal = ({ s.advance t with bil := { s.bil with
        slots := c.slots, feeder := c.feeder, tariffs := c.tariffs, closed := s.ful.closedStored } }, c.readPos) := by
      have hck' : (s.advance t).ful.legalCheckpoint = some c := hck
      unfold State.loadLegal
      rw [hck']
      rfl
    have hat' : (s.advance t).bil.rebuildAt = none := hat
    show ∃ u, execTroikaRebuild votes t s = _ ∧ _
    unfold execTroikaRebuild
    extract_lets v x all todo u
    have hx : x = ({ s.advance t with bil := { s.bil with
        slots := c.slots, feeder := c.feeder, tariffs := c.tariffs, closed := s.ful.closedStored } }, c.readPos) := by
      unfold x v
      rw [hat']
      exact hload
    have htodo : todo = [] := by
      unfold todo
      rw [hx]
      exact (congrArg (fun l => if (s.advance t).bil.dead = true then [] else l) hnone).trans (ite_self _)
    have hu : u = { s.advance t with bil := { s.bil with
        slots := c.slots, feeder := c.feeder, tariffs := c.tariffs, closed := s.ful.closedStored, rebuildAt := none, restoring := false } }
            := by
      unfold u
      rw [htodo, hx]
      rfl
    have hres : u.bil.restoring = false := by rw [hu]
    refine ⟨u.setFeederRate u.sec2020, (if_neg hready).trans (next_of_eq (if_neg (ne_true_of_eq_false hres))), ?_, ?_, ?_, ?_, ?_⟩
    all_goals
      unfold State.setFeederRate
      rw [hu]
    exact hsafe

end Sys2Proof.Machine

/-! # The balance -/

namespace Sys2Proof.Machine

-- One theorem after the other: a thread for each would pass the memory limit of the check.
set_option Elab.async false

/-! ## The balance's records and estimates (R207 to R231) -/

/-- What BAL does with an item of its queue (R207, R209). -/
def State.balTakes (s : State) : BalItem → State
  | .record i r rx tref k deltas rot => s.balRecord i r rx tref k deltas rot
  | .feeder f sender => s.balFeeder f sender

theorem exec_balRecord {s : State} {t : Nat} {x : BalItem} {rest : List BalItem} (hon : s.pipeOff = false)
    (hqueue : s.bal.queue = x :: rest) :
    exec (.balRecord t) s = .next (({ s.advance t with bal := { s.bal with queue := rest } } : State).balTakes x) := by
  have hqueue' : (s.advance t).bal.queue = x :: rest := hqueue
  show execBalRecord t s = _
  unfold execBalRecord
  simp only [hqueue']
  cases x with
  | record i r rx tref k deltas rot => exact if_neg (ne_true_of_eq_false hon)
  | feeder f sender => exact if_neg (ne_true_of_eq_false hon)

/-- A rejected record brings only its meter's flags (R207). -/
theorem State.balRecord_rejected {s : State} {i tref : Nat} {r : Record} {rx : BitVec 48} {k : Option Int} {d : List (Option Nat)}
    {rot : Bool}
    (h : r.verdict = 2#3) : s.balRecord i r rx tref k d rot = (s.bump cBalRecordsIn).noteFlags i r tref := by
  unfold State.balRecord
  exact if_pos (by rw [h]; decide)

theorem State.modBal_ctxAt {s : State} {i : Nat} {f : BalState → BalState} (h : f (s.ctxAt i).bal ≠ Context.empty.bal) :
    (s.modBal i f).ctxAt i = { s.ctxAt i with bal := f (s.ctxAt i).bal } :=
  Table.get_set_ne fun hc => h (congrArg Context.bal hc)

/-- A member's balance state is read as written. -/
theorem State.modBal_member {s : State} {i : Nat} {f : BalState → BalState} (h : (f (s.ctxAt i).bal).member = true) :
    ((s.modBal i f).ctxAt i).bal = f (s.ctxAt i).bal := by
  rw [State.modBal_ctxAt]
  intro hc
  rw [hc] at h
  exact absurd h (by decide)

/-- A signature that counts a frame is read as written. -/
theorem State.setSignature_signature {s : State} {i p : Nat} {v : Signature} (h : v.frames ≠ 0) :
    (s.setSignature i p v).signature i p = v :=
  Table.get_set_ne fun hv => h (congrArg Signature.frames hv)

theorem State.setBalGroup_balGroup {s : State} {g : Nat} {v : BalGroup} (h : v ≠ BalGroup.fresh) : (s.setBalGroup g v).balGroup g = v :=
  Table.get_set_ne h

theorem flags_ne_zero {a f : Nat} (hf : f ≠ 0) (hlt : f < 32) : (BitVec.ofNat 8 a ||| BitVec.ofNat 8 f).toNat ≠ 0 := by
  rw [BitVec.toNat_or, BitVec.toNat_ofNat, BitVec.toNat_ofNat, Nat.mod_eq_of_lt (by omega : f < 2 ^ 8)]
  exact fun h => hf (Nat.or_eq_zero_iff.1 h).2

/-- The node's own feeder record closes group 0, where that group is fed by it and computed here (R209). -/
theorem State.balFeeder_own {s : State} {f : FeederRecord} (hfeed : (s.balGroupItem 0).feed = 1) (hcomputes : s.computes 0 = true)
    (hsnap : f.snapshot = false) : s.balFeeder f none = s.feederClose 0 f := by
  have hfed : s.fedGroups none = [0] := if_pos hfeed
  unfold State.balFeeder
  rw [hfed, List.filter_cons_of_pos hcomputes, List.filter_nil, List.foldl_cons, List.foldl_nil, if_neg (by rw [hsnap]; decide)]

/-- The group after a close of its feeder. -/
theorem State.feederClose_group (s : State) (g : Nat) (f : FeederRecord) :
    ((s.feederClose g f).balGroup g).accumE =
        (s.balGroup g).accumE.set (f.phase - 1) ((s.balGroup g).accumE.getD (f.phase - 1) 0 + feederNet f) ∧
      ((s.feederClose g f).balGroup g).accumI =
        (s.balGroup g).accumI.set (f.phase - 1) ((s.balGroup g).accumI.getD (f.phase - 1) 0 + f.i2t) := by
  unfold State.feederClose
  extract_lets b k p out long e
  rw [State.setBalGroup_balGroup fun h => Option.some_ne_none _ (congrArg BalGroup.lastFeederK h)]
  exact ⟨rfl, rfl⟩

/-- The first estimate of a member on a phase begins its signature (R223). -/
theorem State.trackEstimate_first {s : State} {i rx : Nat} {e : ChannelEst} (hmember : (s.ctxAt i).bal.member = true)
    (hcomputes : s.computes (s.ctxAt i).bal.group = true) (hframes : (s.signature i e.phase).frames = 0)
    (hvalid : (s.signature i e.phase).valid = false) :
    s.trackEstimate i e rx = s.setSignature i e.phase
      { s.signature i e.phase with frames := 1, valid := false, mean := e.att, snr := e.snr } := by
  unfold State.trackEstimate
  rw [if_pos ⟨hmember, hcomputes⟩]
  unfold State.channelFrame
  extract_lets v0 v sh step moved d w
  have hv0 : v0.valid = false := hvalid
  have hmoved : moved = { v0 with frames := 1, valid := false, mean := e.att, snr := e.snr } := by
    have hf : v0.frames = 0 := hframes
    unfold moved v
    rw [hf, hv0]
    rfl
  rw [if_pos hv0, hmoved]

/-- The score after a recomputation: the sum of its components, at most 1 000; flags whose hold has run out are cleared (R228, R231). -/
theorem State.rescore_bal {s : State} {i time : Nat} (hmember : (s.ctxAt i).bal.member = true) :
    ((s.rescore i time).ctxAt i).bal.score = min 1000 (((s.rescore i time).ctxAt i).bal.components.foldl (fun a x => a + x) 0) ∧
      ((s.rescore i time).ctxAt i).bal.above = decide (s.item iScoreReport ≤ ((s.rescore i time).ctxAt i).bal.score) ∧
      (s.holds (s.ctxAt i).bal.flagsTime = false → ((s.rescore i time).ctxAt i).bal.flagsSeen = 0) := by
  unfold State.rescore
  extract_lets v b parts score above changed newKind s1
  have hv : (v.ctxAt i).bal = { (s.ctxAt i).bal with
      sigSteps := if s.holds (s.ctxAt i).bal.stepTime = true then (s.ctxAt i).bal.sigSteps else 0,
      flagsSeen := if s.holds (s.ctxAt i).bal.flagsTime = true then (s.ctxAt i).bal.flagsSeen else 0 } :=
    State.modBal_member (s := s) (i := i) (f := fun b => { b with
      sigSteps := if s.holds b.stepTime = true then b.sigSteps else 0,
      flagsSeen := if s.holds b.flagsTime = true then b.flagsSeen else 0 }) hmember
  have h1 : (s1.ctxAt i).bal = { (v.ctxAt i).bal with components := parts, score := score, above := above } :=
    State.modBal_member (s := v) (i := i) (f := fun x => { x with components := parts, score := score, above := above })
      (by rw [hv]; exact hmember)
  have hlast : ∀ c, ((if above ≠ b.above ∨ (newKind = true ∧ above = true) then
      s1.anomaly i (if above = true then 1 else 0) time c else s1).ctxAt i).bal = (s1.ctxAt i).bal := fun c =>
    congrArg Context.bal (State.ctxAt_of (keepsBut_ite keeps_State_anomaly (keepsBut_refl _ _) .ctx (by decide)) i)
  have hitem : v.item iScoreReport = s.item iScoreReport := keeps_State_lapse.item _
  rw [hlast, h1]
  refine ⟨rfl, ?_, fun hover => ?_⟩
  · exact congrArg (fun n => decide (n ≤ score)) hitem
  · show (v.ctxAt i).bal.flagsSeen = 0
    rw [hv]
    exact if_neg (ne_true_of_eq_false hover)

/-- Settles O25. -/
theorem balanceTakesRecordsAndEstimates : Obligations.BalanceTakesRecordsAndEstimates := by
  unfold Obligations.BalanceTakesRecordsAndEstimates
  refine ⟨?rejected, ?flags, ?feeder, ?estimate, ?lapse⟩
  case rejected =>
    intro s t i tref r rx k d rot rest hon hqueue hverdict hflags
    have hnote : ∀ u : State, u.noteFlags i r tref = u := fun u => if_pos hflags
    refine ⟨_, (exec_balRecord hon hqueue).trans (next_of_eq ((State.balRecord_rejected hverdict).trans (hnote _))), ?_, ?_⟩
    · exact keeps_State_bump .bal (by decide)
    · exact keeps_State_bump .ctx (by decide)
  case flags =>
    intro s t i tref r rx k d rot rest hon hqueue hverdict hflags
    refine ⟨_, (exec_balRecord hon hqueue).trans (next_of_eq (State.balRecord_rejected hverdict)), ?_, ?_⟩
    · exact (keeps_State_noteFlags .bal (by decide)).trans (keeps_State_bump .bal (by decide))
    · have hctx := State.ctxAt_of (s := s) (u := ({ s.advance t with bal := { s.bal with queue := rest } } : State).bump cBalRecordsIn)
        (keeps_State_bump .ctx (by decide)) i
      unfold State.noteFlags
      rw [if_neg hflags, State.modBal_ctxAt, hctx]
      intro hempty
      have hzero := (congrArg BalState.flagsSeen hempty :)
      refine flags_ne_zero (a := (s.ctxAt i).bal.flagsSeen) hflags (Nat.mod_lt _ (by decide)) ?_
      rw [← hctx]
      exact hzero
  case feeder =>
    intro s t f rest hon hqueue hfeed hcomputes hsnap
    refine ⟨_, (exec_balRecord hon hqueue).trans (next_of_eq (State.balFeeder_own hfeed hcomputes hsnap)), rfl, ?_, ?_⟩
    · exact (State.feederClose_group _ 0 f).1
    · exact (State.feederClose_group _ 0 f).2
  case estimate =>
    intro s t i e rest hon hests hindex hfree hmember hcomputes hframes hvalid
    have hexec : exec (.channelEstimate t) s = .next (({ s.advance t with plc :=
        { s.plc with estimates := rest } } : State).trackEstimate i e
        (s.advance t).sec2020) := by
      show execChannelEstimate t s = _
      unfold execChannelEstimate
      extract_lets v free
      have hindex' : v.heldIndex e.gmn = some i := hindex
      have hopen : free e = true := by
        unfold free
        rw [hindex']
        show (!(s.advance t).recordComing i e) = true
        rw [hfree]
        rfl
      have hfind : v.plc.estimates.find? free = some e := by
        show s.plc.estimates.find? free = some e
        rw [hests]
        exact List.find?_cons_of_pos hopen
      have hrest : v.plc.estimates.erase e = rest := by
        show s.plc.estimates.erase e = rest
        rw [hests]
        exact List.erase_cons_head e rest
      simp only [hfind, hindex', hrest]
      exact (if_neg (ne_true_of_eq_false hon)).trans rfl
    have htrack := State.trackEstimate_first (s := { s.advance t with plc := { s.plc with estimates := rest } }) (e := e)
      (rx := (s.advance t).sec2020) hmember hcomputes hframes hvalid
    rw [htrack] at hexec
    refine ⟨_, hexec, rfl, ?_, ?_, ?_, rfl⟩
    iterate 3
      rw [State.setSignature_signature (by exact Nat.one_ne_zero)]
  case lapse =>
    intro s gmn t i hindex hmember
    have hindex' : (s.advance t).heldIndex gmn = some i := hindex
    have hexec : exec (.componentLapse gmn t) s = .next ((s.advance t).rescore i (s.advance t).sec2020) := by
      show execComponentLapse gmn t s = _
      simp only [execComponentLapse, hindex']
      exact next_of_eq (if_pos hmember)
    obtain ⟨hscore, habove, hflags⟩ := State.rescore_bal (s := s.advance t) (i := i) (time := (s.advance t).sec2020) hmember
    exact ⟨_, hexec, hscore, habove, hflags⟩

end Sys2Proof.Machine

/-! # Group results -/

namespace Sys2Proof.Machine

-- One theorem after the other: a thread for each would pass the memory limit of the check.
set_option Elab.async false

/-! ## Group results (R210, R217, R218) -/

/-- From `s` to `u` the snapshots under way stand, and a group that has issued an interval has issued the same one. -/
def State.issuedKept (s : State) (g : Nat) (u : State) : Prop :=
  u.bal.snapshots = s.bal.snapshots ∧ ∀ k, (s.balGroup g).issued = some k → (u.balGroup g).issued = some k

theorem State.issuedKept.then {s v u : State} {g : Nat} (h : s.issuedKept g v) (h' : v.issuedKept g u) : s.issuedKept g u :=
  ⟨h'.1.trans h.1, fun k hk => h'.2 k (h.2 k hk)⟩

theorem issuedKept_of_groups {s u : State} {g : Nat} (hs : u.bal.snapshots = s.bal.snapshots) (hg : u.bal.groups = s.bal.groups) :
    s.issuedKept g u := ⟨hs, fun _ hk => (congrArg (fun t => (Table.get BalGroup.fresh t g).issued) hg).trans hk⟩

theorem issuedKept_refl (s : State) (g : Nat) : s.issuedKept g s := issuedKept_of_groups rfl rfl

theorem State.keepsBut.issuedKept {A : List Part} {s u : State} (h : s.keepsBut A u) (g : Nat) (sub : Part.bal ∉ A := by decide) :
    s.issuedKept g u := issuedKept_of_groups (congrArg Bal.snapshots (h .bal sub)) (congrArg Bal.groups (h .bal sub))

theorem issuedKept_ite {s a b : State} {g : Nat} {c : Prop} [Decidable c] (ha : s.issuedKept g a) (hb : s.issuedKept g b) :
    s.issuedKept g (if c then a else b) := by
  split
  · exact ha
  · exact hb

theorem issuedKept_foldl {α : Type} {s v : State} {g : Nat} {f : State → α → State} {l : List α}
    (hf : ∀ u a, s.issuedKept g u → s.issuedKept g (f u a)) (hv : s.issuedKept g v) : s.issuedKept g (l.foldl f v) := by
  induction l generalizing v with
  | nil => exact hv
  | cons a l ih => exact ih (hf v a hv)

/-- A group written anew with the interval that it has issued. -/
theorem issuedKept_setBalGroup {s : State} {g h : Nat} {v : BalGroup} (hv : v.issued = (s.balGroup h).issued) :
    s.issuedKept g (s.setBalGroup h v) := by
  refine ⟨rfl, fun k hk => ?_⟩
  by_cases hgh : g = h
  · rw [hgh] at hk ⊢
    rw [State.setBalGroup_balGroup, hv, hk]
    intro hfresh
    rw [hfresh] at hv
    exact absurd (hv.trans hk) (by nofun)
  · exact (congrArg BalGroup.issued (Table.get_set_other BalGroup.fresh s.bal.groups v hgh)).trans hk

theorem issuedKept_enterEarth (s : State) (g h : Nat) (r : GroupResult) : s.issuedKept g (s.enterEarth h r) := by
  unfold State.enterEarth
  exact issuedKept_ite (issuedKept_refl s g) (issuedKept_setBalGroup rfl)

theorem issuedKept_addSeries (s : State) (g i : Nat) (e : Option (Int × Int)) : s.issuedKept g (s.addSeries i e) := by
  unfold State.addSeries
  extract_lets ring b s1 b1 n m bad s2
  have h1 : s.issuedKept g s1 := issuedKept_of_groups rfl rfl
  have h2 : s.issuedKept g s2 := h1.then (keeps_State_modBal.issuedKept g)
  exact issuedKept_ite h1 (issuedKept_ite (h1.then (keeps_State_modBal.issuedKept g)) (h2.then (keeps_State_bump.issuedKept g)))

theorem issuedKept_enterSeries (s : State) (g h : Nat) (ms : List MemberPart) (r : GroupResult) : s.issuedKept g
    (s.enterSeries h ms r) := by
  unfold State.enterSeries
  extract_lets it b ring s1
  have h1 : s.issuedKept g s1 := issuedKept_setBalGroup rfl
  exact issuedKept_ite (issuedKept_refl s g) (issuedKept_foldl (fun u m hu => hu.then (issuedKept_addSeries u g m.index _)) h1)

theorem issuedKept_attribute (s : State) (g h i : Nat) : s.issuedKept g (s.attribute h i) := by
  unfold State.attribute
  exact (issuedKept_of_groups rfl rfl).then (keeps_State_modBal.issuedKept g)

theorem issuedKept_actionTaken (s : State) (g i action time : Nat) : s.issuedKept g (s.actionTaken i action time) := by
  unfold State.actionTaken
  extract_lets c b s1 s2
  have h1 : s.issuedKept g s1 := issuedKept_of_groups rfl rfl
  exact h1.then ((keeps_State_raiseInt.within (L := [.way, .ful, .host, .limits, .regs, .out]) |>.then keeps_State_note
    |>.then keeps_State_anomaly).issuedKept g)

theorem issuedKept_issueAction (s : State) (g i action time : Nat) : s.issuedKept g (s.issueAction i action time) := by
  unfold State.issueAction
  extract_lets m s1
  have h1 : s.keepsBut [.txn, .ctx] s1 := keeps_State_modBal.within |>.then keeps_State_pushRequest
  have hpost : s.keepsBut [.way, .host, .limits, .regs, .out, .bil, .hwl, .ctx]
      ((s.modBal i fun b => { b with discIssued := true }).postLegal i (.disconnect false)) :=
    keeps_State_modBal.within |>.then keeps_State_postLegal
  have hheld : s.issuedKept g { s with bal :=
      { s.bal with heldDisconnects := s.bal.heldDisconnects ++ [i] } } := issuedKept_of_groups rfl rfl
  refine issuedKept_ite ?_ (issuedKept_ite (issuedKept_ite (issuedKept_refl s g) ?_) ?_)
  · exact ((h1.within (L := [.txn, .ctx, .way, .host, .limits, .cch, .regs, .out]) |>.then keeps_State_topUpIssues).issuedKept g).then
      (issuedKept_actionTaken _ g i 2 time)
  · exact hheld.then (keeps_State_anomaly.issuedKept g)
  · exact (hpost.issuedKept g).then (issuedKept_actionTaken _ g i 3 time)

theorem issuedKept_takeAction (s : State) (g i action time : Nat) : s.issuedKept g (s.takeAction i action time) := by
  unfold State.takeAction
  extract_lets b s1
  have h1 : s.issuedKept g s1 := keeps_State_modBal.issuedKept g
  exact issuedKept_ite (keeps_State_actionBarred.issuedKept g) (issuedKept_ite (issuedKept_issueAction s g i action time)
    (h1.then (keeps_State_hwlSend.issuedKept g)))

theorem issuedKept_policy (s : State) (g h i time : Nat) : s.issuedKept g (s.policy h i time) := by
  unfold State.policy
  extract_lets mask b ok s1
  have h1 : s.issuedKept g s1 := issuedKept_ite (issuedKept_takeAction s g i 2 time) (issuedKept_refl s g)
  exact issuedKept_ite (issuedKept_refl s g) (issuedKept_ite (h1.then (issuedKept_takeAction s1 g i 3 time)) h1)

theorem issuedKept_finishResults (s : State) (g h : Nat) (snap : Bool) (ms : List MemberPart) (rs : List GroupResult) (time : Nat) :
    s.issuedKept g (s.finishResults h snap ms rs time) := by
  unfold State.finishResults
  extract_lets feeds s0 s1 s2 s3
  have h0 : s.issuedKept g s0 := issuedKept_foldl (fun u r hu => hu.then (issuedKept_enterEarth u g h r)) (issuedKept_refl s g)
  have h1 : s.issuedKept g s1 :=
    issuedKept_ite (issuedKept_foldl (fun u r hu => hu.then (issuedKept_enterSeries u g h ms r)) h0) h0
  have h2 : s.issuedKept g s2 :=
    issuedKept_ite (issuedKept_foldl (fun u m hu => hu.then (issuedKept_attribute u g h m.index)) h1) h1
  have h3 : s.issuedKept g s3 := issuedKept_foldl (fun u r hu => hu.then (keeps_State_resultOut.issuedKept g)) h2
  exact issuedKept_foldl (fun u m hu => (hu.then (keeps_State_rescore.issuedKept g)).then (issuedKept_policy _ g h m.index time)) h3

theorem issuedKept_pruneGroup (s : State) (g h : Nat) : s.issuedKept g (s.pruneGroup h) := by
  unfold State.pruneGroup
  exact issuedKept_setBalGroup rfl

/-- An interval's results: the group has issued it (R210). -/
theorem State.intervalResult_issued (s : State) (g : Nat) (k : Int) :
    ((s.intervalResult g k).balGroup g).issued = some k ∧ (s.intervalResult g k).bal.snapshots = s.bal.snapshots := by
  unfold State.intervalResult
  extract_lets it ms endT rs f0 b s1 s2 s3
  have h1 : (s1.balGroup g).issued = some k := by
    rw [State.setBalGroup_balGroup fun h => Option.some_ne_none _ (congrArg BalGroup.issued h)]
  have h2 : s1.keepsBut [.regs, .out] s2 := keeps_State_bumpBy.within
  have h3 : s1.keepsBut [.regs, .out] s3 := keepsBut_ite (h2.then keeps_State_bump |>.then keeps_State_raiseInt) h2
  have hend := ((h3.issuedKept g).then (issuedKept_finishResults s3 g g false ms rs endT)).then
    (issuedKept_pruneGroup (s3.finishResults g false ms rs endT) g g)
  exact ⟨hend.2 k h1, hend.1⟩

/-! ## Snapshots under way -/

theorem State.setBalGroup_base {s : State} {g : Nat} {v : BalGroup} {x : SnapBase} (h : v.base = some x) :
    ((s.setBalGroup g v).balGroup g).base = some x := by
  rw [State.setBalGroup_balGroup, h]
  intro hfresh
  rw [hfresh] at h
  exact absurd h nofun

/-- A snapshot that ends leaves the list; its group keeps its base (R218). -/
theorem State.snapDone_bal (s : State) (x : Snapshot) : (s.snapDone x).bal = { s.bal with snapshots := s.bal.snapshots.erase x } := by
  unfold State.snapDone
  extract_lets b s1
  have h1 : s1.bal = { s.bal with snapshots := s.bal.snapshots.erase x } :=
    keeps_State_bump (s := { s with bal := { s.bal with snapshots := s.bal.snapshots.erase x } }) .bal (by decide)
  split
  · exact (keeps_State_jobDone .bal (by decide)).trans h1
  · exact h1

theorem State.snapshotResult_bal (s : State) (x : Snapshot) (stamp : Nat) :
    (s.snapshotResult x stamp).bal.snapshots = s.bal.snapshots.erase x ∧
      ((s.snapshotResult x stamp).balGroup x.group).base =
        some ⟨x.snapId, x.target, stamp, x.latch (s.balGroupItem x.group).feed, x.latched.map SnapLatch.index⟩ := by
  unfold State.snapshotResult
  extract_lets g it b base span ms rs s1 s2 s3 b3 s4
  have h1 : s.issuedKept g s1 := (keeps_State_bumpBy.within (L := [.regs, .out]) |>.then keeps_State_bumpBy
    |>.then keeps_State_raiseInt).issuedKept g
  have h2 : s.issuedKept g s2 := h1.then (issuedKept_finishResults s1 g g true ms rs stamp)
  have h3 : s.issuedKept g s3 := issuedKept_foldl (fun u l hu => hu.then (keeps_State_modBal.issuedKept g)) h2
  have hbase : (s4.balGroup g).base = some ⟨x.snapId, x.target, stamp, x.latch it.feed, x.latched.map SnapLatch.index⟩ :=
    State.setBalGroup_base rfl
  have hprune : ((s4.pruneGroup g).balGroup g).base =
      some ⟨x.snapId, x.target, stamp, x.latch it.feed, x.latched.map SnapLatch.index⟩ := by
    unfold State.pruneGroup
    exact State.setBalGroup_base hbase
  rw [show ((s4.pruneGroup g).snapDone x).balGroup x.group = Table.get BalGroup.fresh ((s4.pruneGroup g).snapDone x).bal.groups g from rfl,
    State.snapDone_bal]
  exact ⟨congrArg (List.erase · x) h3.1, hprune⟩

/-- Half of SNAP_COLLECT after its cycle, the meters of the one snapshot that have not latched are read (R217). -/
theorem exec_snapshotCollectRead {s : State} {t c : Nat} {x : Snapshot} (hon : s.pipeOff = false) (hsnaps : s.bal.snapshots = [x])
    (hasked : x.asked = false) (hstamp : x.stamp = some c) (hdue : c + s.item iSnapCollect / 2 ≤ (s.advance t).cycleTime) :
    exec (.snapshotCollectRead t) s = .next (x.unlatched.foldl State.collectRead
      { s.advance t with bal := { s.bal with snapshots := [{ x with asked := true }] } }) := by
  show execSnapshotCollectRead t s = _
  unfold execSnapshotCollectRead
  extract_lets v due
  have hready : due x = true := by
    unfold due
    rw [hasked, hstamp]
    exact decide_eq_true hdue
  have hfind : v.bal.snapshots.find? due = some x := by
    show s.bal.snapshots.find? due = some x
    rw [hsnaps]
    exact List.find?_cons_of_pos hready
  have hmap : (v.bal.snapshots.map fun y => if y = x then { x with asked := true } else y) = [{ x with asked := true }] := by
    show (s.bal.snapshots.map fun y => if y = x then { x with asked := true } else y) = _
    rw [hsnaps]
    exact congrArg (· :: []) (if_pos rfl)
  simp only [hfind, hmap]
  exact (if_neg (ne_true_of_eq_false hon)).trans rfl

/-- The one snapshot under way, complete or out of time (R218). -/
theorem exec_snapshotResult {s : State} {t c : Nat} {x : Snapshot} (hon : s.pipeOff = false) (hsnaps : s.bal.snapshots = [x])
    (hstamp : x.stamp = some c) (hend : x.unlatched = [] ∨ c + s.item iSnapCollect ≤ (s.advance t).cycleTime) :
    exec (.snapshotResult t) s =
      .next (if s.computes x.group = true then (s.advance t).snapshotResult x c else (s.advance t).snapDone x) := by
  show execSnapshotResult t s = _
  unfold execSnapshotResult
  extract_lets v due
  have hready : due x = true := by
    unfold due
    rw [hstamp]
    exact decide_eq_true hend
  have hfind : v.bal.snapshots.find? due = some x := by
    show s.bal.snapshots.find? due = some x
    rw [hsnaps]
    exact List.find?_cons_of_pos hready
  simp only [hfind, hstamp]
  exact (if_neg (ne_true_of_eq_false hon)).trans rfl

/-- Settles O26. -/
theorem groupResultsAreIssued : Obligations.GroupResultsAreIssued := by
  unfold Obligations.GroupResultsAreIssued
  refine ⟨?interval, ?latched, ?unlatched, ?result, ?elsewhere⟩
  case interval =>
    intro s g t k hon hcomputes hdue
    obtain ⟨hissued, hsnaps⟩ := State.intervalResult_issued (s.advance t) g.val k
    refine ⟨_, ?_, hissued, hsnaps⟩
    show execIntervalResult g t s = _
    simp only [execIntervalResult, hdue]
    exact if_neg (not_or.2 ⟨ne_true_of_eq_false hon, ne_false_of_eq_true hcomputes⟩)
  case latched =>
    intro s t c x hon hsnaps hasked hstamp hdue hnone
    have hexec := exec_snapshotCollectRead hon hsnaps hasked hstamp hdue
    rw [hnone] at hexec
    exact ⟨_, hexec, rfl, rfl⟩
  case unlatched =>
    intro s t c i x hon hsnaps hasked hstamp hlist hdue
    have hexec := exec_snapshotCollectRead hon hsnaps hasked hstamp hdue
    rw [hlist] at hexec
    have hbal : (({ s.advance t with bal := { s.bal with snapshots := [{ x with asked := true }] } } : State).collectRead i).bal =
        { s.bal with snapshots := [{ x with asked := true }] } := keeps_State_collectRead .bal (by decide)
    exact ⟨_, hexec, (congrArg Bal.snapshots hbal :), rfl⟩
  case result =>
    intro s t c x hon hsnaps hstamp hcomputes hend
    have hexec := exec_snapshotResult hon hsnaps hstamp hend
    obtain ⟨herased, hbase⟩ := State.snapshotResult_bal (s.advance t) x c
    refine ⟨_, hexec.trans (next_of_eq (if_pos hcomputes)), ?_, hbase⟩
    rw [herased, show (s.advance t).bal.snapshots = [x] from hsnaps]
    exact List.erase_cons_head x []
  case elsewhere =>
    intro s t c x hon hsnaps hstamp hcomputes hend
    have hexec := exec_snapshotResult hon hsnaps hstamp hend
    refine ⟨_, hexec.trans (next_of_eq (if_neg (ne_true_of_eq_false hcomputes))), ?_⟩
    rw [State.snapDone_bal, show (s.advance t).bal.snapshots = [x] from hsnaps]
    exact List.erase_cons_head x []

end Sys2Proof.Machine

/-! # The fabric: ownership -/

namespace Sys2Proof.Machine

-- One theorem after the other: a thread for each would pass the memory limit of the check.
set_option Elab.async false

/-! ## What sending on the fabric changes of it: the ports alone (R356 to R360) -/

/-- From `s` to `u` the fabric's state stands but for its ports. -/
def State.portsOnly (s u : State) : Prop := ∃ ps, u.hwl = { s.hwl with ports := ps }

theorem portsOnly_refl (s : State) : s.portsOnly s := ⟨s.hwl.ports, rfl⟩

theorem State.portsOnly.then {s v u : State} (h : s.portsOnly v) (g : v.portsOnly u) : s.portsOnly u := by
  obtain ⟨ps, hv⟩ := h
  obtain ⟨qs, hu⟩ := g
  exact ⟨qs, by rw [hu, hv]⟩

theorem State.keepsBut.portsOnly {A : List Part} {s u : State} (h : s.keepsBut A u) (sub : Part.hwl ∉ A := by decide) : s.portsOnly u :=
  ⟨s.hwl.ports, h .hwl sub⟩

theorem portsOnly_ite {s a b : State} {c : Prop} [Decidable c] (ha : s.portsOnly a) (hb : s.portsOnly b) : s.portsOnly
    (if c then a else b) := by
  split
  · exact ha
  · exact hb

theorem portsOnly_setHport (s : State) (p : Nat) (v : HwlPort) : s.portsOnly (s.setHport p v) := ⟨s.hwl.ports.set p v, rfl⟩

theorem portsOnly_foldl {α : Type} {s v : State} {f : State → α → State} {l : List α}
    (hf : ∀ (u : State) a, u.portsOnly (f u a)) (hv : s.portsOnly v) : s.portsOnly (l.foldl f v) := by
  induction l generalizing v with
  | nil => exact hv
  | cons a l ih => exact ih (hv.then (hf v a))

theorem portsOnly_hwlTransmit (s : State) (p : Nat) (k : HwlPacket) : s.portsOnly (s.hwlTransmit p k) := by
  unfold State.hwlTransmit
  extract_lets v v1
  exact (portsOnly_setHport s p v1).then ((keeps_State_emit.within (L := [.out, .regs]) |>.then keeps_State_bump).portsOnly)

theorem portsOnly_noteStall (s : State) (p : Nat) : s.portsOnly (s.noteStall p) := by
  unfold State.noteStall
  extract_lets v blocked
  split
  · exact portsOnly_ite (portsOnly_setHport s p _) (portsOnly_refl s)
  · exact portsOnly_ite (portsOnly_refl s) ((portsOnly_setHport s p _).then keeps_State_bumpBy.portsOnly)

theorem portsOnly_hwlPump (n : Nat) (s : State) (p : Nat) : s.portsOnly (s.hwlPump p n) := by
  induction n generalizing s with
  | zero => exact portsOnly_noteStall s p
  | succ n ih =>
    unfold State.hwlPump
    split
    · exact portsOnly_noteStall s p
    · rename_i k hk
      exact (portsOnly_hwlTransmit s p k).then (ih _)

theorem portsOnly_hwlQueue (s : State) (p : Nat) (k : HwlPacket) : s.portsOnly (s.hwlQueue p k) := by
  unfold State.hwlQueue
  extract_lets v s1
  exact (portsOnly_setHport s p _).then (portsOnly_hwlPump _ s1 p)

theorem portsOnly_hwlSend (s : State) (d : Nat) (tag : BitVec 32) (b : HwlBody) : s.portsOnly (s.hwlSend d tag b) := by
  unfold State.hwlSend
  extract_lets r
  exact portsOnly_ite keeps_State_note.portsOnly (portsOnly_hwlQueue s r.port _)

theorem portsOnly_hwlFlood (s : State) (tag : BitVec 32) (b : HwlBody) : s.portsOnly (s.hwlFlood tag b) := by
  unfold State.hwlFlood
  exact portsOnly_foldl (fun u p => portsOnly_hwlQueue u p _) (portsOnly_refl s)

/-- A query or an answer to one (R382) is sent without more. -/
theorem portsOnly_sendQuery {s : State} {query answer : Bool} (h : query = true ∨ answer = true) : s.portsOnly
    (s.sendPair query answer) := by
  unfold State.sendPair
  rw [if_pos h]
  exact portsOnly_hwlSend s _ 0 _

/-! ## Ownership (R379 to R382) -/

theorem State.releaseOwner_hwl (s : State) :
    s.releaseOwner.hwl = { s.hwl with outHigh := false, claiming := none, owner := false } := by
  unfold State.releaseOwner
  extract_lets s1
  split
  · rename_i howner
    show { s.hwl with outHigh := false, claiming := none } = _
    rw [← howner]
  · exact (keeps_State_event.within (L := [.way, .host, .regs, .out]) |>.then keeps_State_raiseInt) .hwl (by decide)

theorem State.interlockFails_hwl (s : State) :
    s.interlockFails.hwl =
      { s.hwl with outHigh := false, claiming := none, owner := false, interlockFault := true, checkWiring := false } := by
  unfold State.interlockFails
  extract_lets s1
  refine ((keeps_State_raiseInt.within (L := [.way, .host, .limits, .regs, .out]) |>.then keeps_State_note
    |>.then keeps_State_reportOut) .hwl (by decide)).trans ?_
  show { s.releaseOwner.hwl with interlockFault := true, checkWiring := false } = _
  rw [State.releaseOwner_hwl]

/-- A claim that nothing bars (R379). -/
theorem State.claim_open {s : State} (hbar : s.claimBarred = false) (howner : s.hwl.owner = false) (hclaiming : s.hwl.claiming = none)
    (hlow : s.hwl.inHigh = false) : s.claim = s.modHwl fun h => { h with outHigh := true, claiming := some s.now } := by
  unfold State.claim
  exact if_neg (by simp [hbar, howner, hclaiming, hlow])

/-- Settles O43. -/
theorem ownershipIsExclusive : Obligations.OwnershipIsExclusive := by
  unfold Obligations.OwnershipIsExclusive
  refine ⟨?raised, ?backsOff, ?lowered, ?owns, ?seen, ?claims, ?query⟩
  case raised =>
    intro s t hrole howner
    have hhwl := State.interlockFails_hwl ((s.advance t).modHwl fun h => { h with inHigh := true })
    exact ⟨_, (if_neg (ne_false_of_eq_true hrole)).trans (next_of_eq ((if_pos rfl).trans (if_pos howner))), (congrArg Hwl.owner hhwl :),
      (congrArg Hwl.outHigh hhwl :), (congrArg Hwl.interlockFault hhwl :), (congrArg Hwl.inHigh hhwl :)⟩
  case backsOff =>
    intro s t c hrole howner hclaiming hodd
    have hwait : (s.advance t).hwl.claiming.isSome = true := by rw [show (s.advance t).hwl.claiming = some c from hclaiming]; rfl
    refine ⟨_, (if_neg (ne_false_of_eq_true hrole)).trans (next_of_eq ((if_pos rfl).trans ((if_neg (ne_true_of_eq_false howner)).trans
      ((if_pos hwait).trans (if_pos hodd))))), ?_⟩
    rw [(keeps_State_note .hwl (by decide) : State.hwl _ = _)]
    exact ⟨rfl, rfl, rfl⟩
  case lowered =>
    intro s t c hrole hclaiming
    have hwait : (s.advance t).hwl.claiming.isSome = true := by rw [show (s.advance t).hwl.claiming = some c from hclaiming]; rfl
    exact ⟨_, (if_neg (ne_false_of_eq_true hrole)).trans (next_of_eq ((if_neg (by decide)).trans (if_pos hwait))), rfl⟩
  case owns =>
    intro s t c hclaiming hlow hover
    let s1 := (((s.advance t).modHwl fun h => { h with owner := true, claiming := none }).event .security 28 0x82 0
      (Config.ownerCause true).toNat).raiseInt 0x1C0004 2
    have h1 : s1.hwl = { s.hwl with owner := true, claiming := none } :=
      (keeps_State_event.within (L := [.way, .host, .regs, .out]) |>.then keeps_State_raiseInt) .hwl (by decide)
    have hclaiming' : (s.advance t).hwl.claiming = some c := hclaiming
    obtain ⟨ps, hsend⟩ := portsOnly_sendQuery (s := s1.modHwl fun h => { h with queries := 1, queriedAt := s1.now }) (query := true)
      (answer := false) (.inl rfl)
    refine ⟨if s.hwl.paired = true ∧ s.hwl.nodeId.toNat % 2 = 0 ∧ s.hwl.checkWiring = true then
        (s1.modHwl fun h => { h with queries := 1, queriedAt := s1.now }).sendPair true false else s1, ?_, ?_, ?_⟩
    · show execArbWindowExpiry t s = _
      unfold execArbWindowExpiry
      simp only [hclaiming']
      exact if_neg (not_or.2 ⟨ne_true_of_eq_false hlow, Nat.not_lt.2 hover⟩)
    · split
      · exact (congrArg Hwl.owner hsend :).trans (congrArg Hwl.owner h1 :)
      · exact (congrArg Hwl.owner h1 :)
    · split
      · exact (congrArg Hwl.claiming hsend :).trans (congrArg Hwl.claiming h1 :)
      · exact (congrArg Hwl.claiming h1 :)
  case seen =>
    intro s t c hclaiming hhigh
    have hclaiming' : (s.advance t).hwl.claiming = some c := hclaiming
    refine ⟨s.advance t, ?_, rfl⟩
    show execArbWindowExpiry t s = _
    unfold execArbWindowExpiry
    simp only [hclaiming']
    exact if_pos (.inl hhigh)
  case claims =>
    intro s t d hback hdue hlost hrole hfault hpair hrun howner hclaiming hlow
    have hback' : (s.advance t).hwl.backoffUntil = some d := hback
    have hclaim := State.claim_open (s := (s.advance t).modHwl fun h => { h with backoffUntil := none })
      (by simp [State.claimBarred, State.modHwl, State.advance, hrole, hfault, hpair, hrun]) howner hclaiming hlow
    refine ⟨_, ?_, congrArg State.hwl hclaim⟩
    show execArbBackoffExpiry t s = _
    unfold execArbBackoffExpiry
    simp only [hback']
    refine (if_neg (Nat.not_lt.2 hdue)).trans (next_of_eq (if_pos ?_))
    exact Bool.or_eq_true_iff.2 (.inl hlost)
  case query =>
    intro s t hpaired hwiring hqueries hagain
    obtain ⟨ps, hsend⟩ := portsOnly_sendQuery (s := (s.advance t).modHwl fun h =>
        { h with queries := h.queries + 1, queriedAt := max s.now t })
      (query := true) (answer := false) (.inl rfl)
    exact ⟨_, next_of_eq (if_pos ⟨hpaired, hwiring, hqueries, hagain⟩), (congrArg Hwl.queries hsend :), (congrArg Hwl.queriedAt hsend :)⟩

end Sys2Proof.Machine

/-! # The fabric: partners -/

namespace Sys2Proof.Machine

-- One theorem after the other: a thread for each would pass the memory limit of the check.
set_option Elab.async false

/-! ## What the mirror stream changes of the fabric: its window too (R368) -/

/-- From `s` to `u` the fabric's state stands but for its ports and the window of the mirror stream. -/
def State.streamOnly (s u : State) : Prop := ∃ ps m w, u.hwl = { s.hwl with ports := ps, mseqOut := m, window := w }

theorem State.portsOnly.streamOnly {s u : State} (h : s.portsOnly u) : s.streamOnly u := by
  obtain ⟨ps, hu⟩ := h
  exact ⟨ps, s.hwl.mseqOut, s.hwl.window, hu⟩

theorem streamOnly_refl (s : State) : s.streamOnly s := (portsOnly_refl s).streamOnly

theorem State.streamOnly.then {s v u : State} (h : s.streamOnly v) (g : v.streamOnly u) : s.streamOnly u := by
  obtain ⟨ps, m, w, hv⟩ := h
  obtain ⟨qs, n, x, hu⟩ := g
  exact ⟨qs, n, x, by rw [hu, hv]⟩

theorem State.keepsBut.streamOnly {A : List Part} {s u : State} (h : s.keepsBut A u) (sub : Part.hwl ∉ A := by decide) : s.streamOnly u :=
  (h.portsOnly sub).streamOnly

theorem streamOnly_ite {s a b : State} {c : Prop} [Decidable c] (ha : s.streamOnly a) (hb : s.streamOnly b) :
    s.streamOnly (if c then a else b) := by
  split
  · exact ha
  · exact hb

theorem streamOnly_foldl {α : Type} {s v : State} {f : State → α → State} {l : List α}
    (hf : ∀ (u : State) a, u.streamOnly (f u a)) (hv : s.streamOnly v) : s.streamOnly (l.foldl f v) := by
  induction l generalizing v with
  | nil => exact hv
  | cons a l ih => exact ih (hv.then (hf v a))

theorem streamOnly_streamNext (s : State) (b : HwlBody) : s.streamOnly (s.streamNext b) := by
  unfold State.streamNext
  extract_lets m h s1
  have h1 : s.streamOnly s1 := ⟨s.hwl.ports, _, _, rfl⟩
  exact streamOnly_ite (streamOnly_refl s) ((h1.then (portsOnly_hwlSend s1 _ m b).streamOnly).then keeps_State_bump.streamOnly)

theorem streamOnly_mirrorSync (s : State) (i reason : Nat) : s.streamOnly (s.mirrorSync i reason) := by
  unfold State.mirrorSync
  exact (streamOnly_foldl streamOnly_streamNext (streamOnly_refl s)).then keeps_State_bump.streamOnly

theorem streamOnly_syncRange (s : State) (partner : Bool) (reason : Nat) : s.streamOnly (s.syncRange partner reason) := by
  unfold State.syncRange
  exact streamOnly_foldl (fun u e => streamOnly_mirrorSync u e.1 reason) (streamOnly_refl s)

theorem streamOnly_mirrorSend (s : State) (b : HwlBody) : s.streamOnly (s.mirrorSend b) := by
  unfold State.mirrorSend
  split
  · exact streamOnly_streamNext s b
  · refine streamOnly_ite (streamOnly_refl s) ?_
    split
    · exact (keeps_State_bump (c := cHwlRckFail)).streamOnly.then (streamOnly_mirrorSync _ _ 0)
    · exact keeps_State_bump.streamOnly

/-- The survivor of a pairing keeps the pairing and what it expects of the partner's stream (R386). -/
theorem State.survive_hwl (s : State) (both : Bool) :
    (s.survive both).hwl.paired = s.hwl.paired ∧ (s.survive both).hwl.partnerLost = s.hwl.partnerLost ∧
      (s.survive both).hwl.expectIn = s.hwl.expectIn := by
  unfold State.survive
  extract_lets s1 s2
  have h1 := streamOnly_syncRange (s.modHwl fun h => { h with syncing := true }) false 3
  obtain ⟨ps, m, w, h2⟩ := (streamOnly_ite (c := both = true) (h1.then (streamOnly_syncRange s1 true 3)) h1).then
    (streamOnly_mirrorSend s2 .handback)
  exact ⟨(congrArg Hwl.paired h2 :), (congrArg Hwl.partnerLost h2 :), (congrArg Hwl.expectIn h2 :)⟩

theorem State.claim_hwl (s : State) : ∃ o c, s.claim.hwl = { s.hwl with outHigh := o, claiming := c } := by
  unfold State.claim
  split
  · exact ⟨s.hwl.outHigh, s.hwl.claiming, rfl⟩
  · exact ⟨_, _, rfl⟩

/-! ## Packets that arrive and packets that leave -/

/-- A packet that arrives is delivered in the state that has received it (R356 to R360). -/
theorem State.hwlReceive_arrives {s : State} {l : HwlHeader} {typ t : Nat} (h : s.packetArrives l typ) (deliver : State → State) :
    (s.advance t).hwlReceive l typ deliver = deliver ((s.advance t).received l) := by
  obtain ⟨hup, hcrc, hseq, hdst, hfits⟩ := h
  have hup : ((s.advance t).hport l.port.val).state = .up := hup
  have hseq : l.lseq = ((s.advance t).hport l.port.val).expectRx := hseq
  have hdst : l.dst = (s.advance t).hwl.nodeId := hdst
  rw [State.hwlReceive_eq, if_neg (not_not.2 hup), if_neg (by rw [hcrc]; decide), if_neg (not_not.2 hseq), if_neg (by rw [hfits]; decide),
    if_neg fun hother => hother.2 hdst]

/-- A port that is not DOWN stands in the list. -/
theorem State.hport_lt {s : State} {p : Nat} (h : s.hport p ≠ HwlPort.down) : p < s.hwl.ports.length := List.lt_length_of_getD_ne h

theorem State.setHport_hport {s : State} {p : Nat} {v : HwlPort} (h : p < s.hwl.ports.length) : (s.setHport p v).hport p = v :=
  List.getD_set_self h

theorem State.hport_of {s u : State} (h : u.hwl.ports = s.hwl.ports) (p : Nat) : u.hport p = s.hport p :=
  congrArg (List.getD · p HwlPort.down) h

theorem State.up_lt {s : State} {p : Nat} (h : (s.hport p).state = .up) : p < s.hwl.ports.length :=
  State.hport_lt fun hd => absurd ((congrArg HwlPort.state hd).symm.trans h) nofun

theorem State.partner_of {s u : State} (ha : u.hwl.assigned = s.hwl.assigned) (hn : u.hwl.nodeId = s.hwl.nodeId)
    (hi : u.item iPartner = s.item iPartner) : u.partner = s.partner := by
  unfold State.partner
  rw [ha, hn, hi]

theorem portsOnly_sendAckWord (s : State) (p : Nat) : s.portsOnly (s.sendAckWord p) := by
  unfold State.sendAckWord
  extract_lets v
  exact (portsOnly_setHport s p _).then keeps_State_word.portsOnly

/-- What a node notes of a packet received in order: its port, and that the partner has been heard (R359, R384). -/
theorem State.received_hwl (s : State) (l : HwlHeader) :
    ∃ ps heard, (s.received l).hwl = { s.hwl with ports := ps, partnerHeard := heard } ∧ (s.fromPartner l = true → heard = s.now) := by
  unfold State.received
  extract_lets p v v1 s1 s2
  have k1 : s.keepsBut [.hwl, .regs, .out] s1 := keeps_State_setHport.within |>.then keeps_State_bump |>.then keeps_State_word
  have k2 : s.keepsBut [.hwl, .regs, .out] s2 := keepsBut_ite (k1.then keeps_State_sendAckWord) k1
  have h1 : s.portsOnly s1 := (portsOnly_setHport s p v1).then (keeps_State_bump.within (L := [.regs, .out]) |>.then
      keeps_State_word).portsOnly
  have h2 : s.portsOnly s2 := portsOnly_ite (h1.then (portsOnly_sendAckWord s1 p)) h1
  obtain ⟨ps, hps⟩ := h2
  have hpartner : s2.partner = s.partner :=
    State.partner_of (congrArg Hwl.assigned hps :) (congrArg Hwl.nodeId hps :) (k2.item _)
  have hnow : s2.now = s.now := k2 .now (by decide)
  split
  · refine ⟨ps, s.now, ?_, fun _ => rfl⟩
    show { s2.hwl with partnerHeard := s2.now } = _
    rw [hps, hnow]
  · rename_i hother
    refine ⟨ps, s.hwl.partnerHeard, hps, fun hfrom => absurd ?_ hother⟩
    rw [hpartner]
    exact eq_of_beq hfrom

/-- The port that has received a packet in order expects the next (R359). -/
theorem State.received_port {s : State} {l : HwlHeader} (h : (s.hport l.port.val).state = .up) :
    ((s.received l).hport l.port.val).expectRx = (s.hport l.port.val).expectRx + 1 := by
  unfold State.received
  extract_lets p v v1 s1 s2
  have hlen : p < s.hwl.ports.length := State.up_lt h
  have k1 : s1.hwl = (s.setHport p v1).hwl := (keeps_State_bump.within (L := [.regs, .out]) |>.then keeps_State_word) .hwl (by decide)
  have h1 : s1.hport p = v1 := (State.hport_of (congrArg Hwl.ports k1) p).trans (State.setHport_hport hlen)
  have hlen1 : p < s1.hwl.ports.length := by
    rw [k1]
    exact (List.length_set (as := s.hwl.ports)).symm ▸ hlen
  have h2 : (s2.hport p).expectRx = v.expectRx + 1 := by
    unfold s2
    split
    · have hack : (s1.sendAckWord p).hwl = (s1.setHport p { s1.hport p with ackSince := none, unacked := 0 }).hwl :=
        keeps_State_word .hwl (by decide)
      rw [State.hport_of (congrArg Hwl.ports hack), State.setHport_hport hlen1, h1]
    · rw [h1]
  split
  · exact h2
  · exact h2

/-- Credit for a packet received in order goes back (R358). -/
theorem State.received_out (s : State) (l : HwlHeader) :
    Emission.linkWord l.port.val (creditWord l.vc l.cls ((16 + l.payload.length + 4 + 63) / 64)) ∈ (s.received l).out := by
  unfold State.received
  extract_lets p v v1 s1 s2
  have h1 : Emission.linkWord p (creditWord l.vc l.cls ((16 + l.payload.length + 4 + 63) / 64)) ∈ s1.out := List.mem_cons_self
  have h2 : Emission.linkWord p (creditWord l.vc l.cls ((16 + l.payload.length + 4 + 63) / 64)) ∈ s2.out := by
    unfold s2
    split
    · exact List.mem_cons_of_mem _ h1
    · exact h1
  split
  · exact h2
  · exact h2

/-- A packet to which the way is open leaves at once (R358, R359). -/
theorem State.hwlSend_out {s : State} {d : Nat} {b : HwlBody} (tag : BitVec 32) (h : s.openTo d b) :
    (s.hwlSend d tag b).out = s.packetTo d tag b :: s.out := by
  obtain ⟨hroute, hup, hwaiting, hroom, hcredit⟩ := h
  unfold State.hwlSend State.packetTo State.outPort at *
  extract_lets r
  rw [if_neg (by rw [show r.reachable = true from hroute]; decide)]
  generalize hk : packetOf b (s.hopClass r.port 0 r.diverted false) false (BitVec.ofNat 6 d) s.hwl.nodeId 0 tag = k
  have hlen : r.port < s.hwl.ports.length := State.up_lt hup
  unfold State.hwlQueue
  extract_lets v s1
  have h1 : s1.hport r.port = { v with waiting := [k] } := by
    refine (State.setHport_hport hlen).trans ?_
    rw [show v.waiting = [] from hwaiting]
    rfl
  have hunits : k.units ≤ ({ v with waiting := [k] } : HwlPort).credit k.vc k.cls := by
    rw [← hk]
    exact hcredit
  have hsend : (s1.hport r.port).sendable = some k := by
    rw [h1]
    unfold HwlPort.sendable
    rw [if_neg (not_or.2 ⟨not_not.2 hup, Nat.not_le.2 hroom⟩)]
    have hfirst : [k].find? (fun q => decide (q.vc = k.vc ∧ q.cls = k.cls)) = some k :=
      List.find?_cons_of_pos (decide_eq_true ⟨rfl, rfl⟩)
    refine List.find?_cons_of_pos ?_
    rw [hfirst, decide_eq_true hunits, decide_eq_true rfl]
    rfl
  have hpump : s1.hwlPump r.port (s1.hport r.port).waiting.length = (s1.hwlTransmit r.port k).noteStall r.port := by
    rw [congrArg HwlPort.waiting h1]
    show s1.hwlPump r.port (0 + 1) = _
    unfold State.hwlPump
    rw [hsend]
    rfl
  rw [hpump]
  refine (keeps_State_noteStall .out (by decide)).trans ?_
  unfold State.hwlTransmit
  extract_lets w w1
  refine (keeps_State_bump .out (by decide)).trans ?_
  show Emission.hwlPacket r.port (packetBytes w.nextTx k) :: s.out = _
  rw [show w = _ from h1]

/-! ## Pairing (R367, R380, R384) -/

/-- What a node forgets of a partner that it has lost (R384). -/
theorem State.partnerIsLost_hwl {s : State} (h : s.hwl.partnerLost = false) :
    s.partnerIsLost.hwl.partnerLost = true ∧ s.partnerIsLost.hwl.paired = false ∧ s.partnerIsLost.hwl.partnerRange = true ∧
      s.partnerIsLost.hwl.window = [] := by
  unfold State.partnerIsLost
  rw [if_neg (by rw [h]; decide)]
  extract_lets held asked s1 s2 s3
  have h2 : s1.keepsBut [.host, .ing] s2 :=
    keepsBut_foldl (fun u a hu => hu.then keeps_State_takeBack) keeps_State_sendHeld.within
  have h3 : s1.keepsBut [.host, .ing, .way, .limits, .regs, .readings, .out]
      ((s3.reportOut (.alarm 4 0 (s.partner.getD 0 : Nat))).flushReadings) :=
    h2.within |>.then keeps_State_raiseInt |>.then keeps_State_note |>.then keeps_State_reportOut |>.then keeps_State_flushReadings
  obtain ⟨o, c, hclaim⟩ := State.claim_hwl ((s3.reportOut (.alarm 4 0 (s.partner.getD 0 : Nat))).flushReadings)
  rw [h3 .hwl (by decide)] at hclaim
  rw [hclaim]
  exact ⟨rfl, rfl, rfl, rfl⟩

/-- A pairing: the partner's stream begins at its base (R367). -/
theorem State.pairUp_hwl (s : State) (rejoin : Bool) (base : BitVec 32) :
    (s.pairUp rejoin base).hwl.paired = true ∧ (s.pairUp rejoin base).hwl.partnerLost = false ∧
        (s.pairUp rejoin base).hwl.expectIn = base := by
  unfold State.pairUp
  extract_lets own lost reply s0 even s1 s2
  have h2 : s2.hwl.paired = true ∧ s2.hwl.partnerLost = false ∧ s2.hwl.expectIn = base := by
    unfold s2
    split
    · exact State.survive_hwl s1 true
    · split
      · exact ⟨rfl, rfl, rfl⟩
      · split
        · exact State.survive_hwl s1 false
        · exact ⟨rfl, rfl, rfl⟩
  split
  · obtain ⟨o, c, hclaim⟩ := State.claim_hwl s2
    rw [hclaim]
    exact h2
  · exact h2

/-- A PAIR that does not name this node stops the pairing and its ownership (R367). -/
theorem State.pairWrong_hwl (s : State) (named : Nat) :
    (s.pairWrong named).hwl.paired = false ∧ (s.pairWrong named).hwl.pairMismatch = true ∧ (s.pairWrong named).hwl.owner = false ∧
      (s.pairWrong named).hwl.outHigh = false := by
  unfold State.pairWrong
  extract_lets s1
  have h1 : (s1.reportOut (.alarm 5 0 named)).hwl = { s.releaseOwner.hwl with pairMismatch := true, paired := false } :=
    keeps_State_reportOut .hwl (by decide)
  rw [h1, State.releaseOwner_hwl]
  exact ⟨rfl, rfl, rfl, rfl⟩

theorem State.received_fromPartner (s : State) (l : HwlHeader) : (s.received l).fromPartner l = s.fromPartner l := by
  obtain ⟨ps, heard, hr, -⟩ := State.received_hwl s l
  unfold State.fromPartner
  rw [State.partner_of (s := s) (congrArg Hwl.assigned hr :) (congrArg Hwl.nodeId hr :) (keeps_State_received.item _)]

/-- Settles O38. -/
theorem pairsFormAndBreak : Obligations.PairsFormAndBreak := by
  unfold Obligations.PairsFormAndBreak
  refine ⟨?pairs, ?wrong, ?never, ?beat, ?heard, ?leaves, ?silent⟩
  case pairs =>
    intro s l t harrives hassigned hfrom hnamed hquery hanswer
    obtain ⟨ps, heard, hr, -⟩ := State.received_hwl (s.advance t) l
    have hfrom' := (State.received_fromPartner (s.advance t) l).trans hfrom
    have hnamed' : fieldAt l.payload 0 1 = ((s.advance t).received l).hwl.nodeId.toNat := by
      rw [hr]
      exact hnamed
    refine ⟨_, next_of_eq ((State.hwlReceive_arrives harrives _).trans ?_), 
      State.pairUp_hwl ((s.advance t).received l) (bitAt l.payload 1 0) _⟩
    unfold State.heardPair
    rw [if_neg (by rw [hr]; exact ne_false_of_eq_true hassigned), if_neg (ne_true_of_eq_false hquery), if_neg (ne_true_of_eq_false hanswer),
      if_pos ⟨hfrom', hnamed'⟩]
  case wrong =>
    intro s l t harrives hassigned hnamed hquery hanswer
    obtain ⟨ps, heard, hr, -⟩ := State.received_hwl (s.advance t) l
    have hnamed' : ¬ fieldAt l.payload 0 1 = ((s.advance t).received l).hwl.nodeId.toNat := by rw [hr]; exact hnamed
    refine ⟨_, next_of_eq ((State.hwlReceive_arrives harrives _).trans ?_), State.pairWrong_hwl ((s.advance t).received l)
        (fieldAt l.payload 0 1)⟩
    unfold State.heardPair
    rw [if_neg (by rw [hr]; exact ne_false_of_eq_true hassigned), if_neg (ne_true_of_eq_false hquery), if_neg (ne_true_of_eq_false hanswer),
      if_neg fun h => hnamed' h.2]
  case never =>
    intro s t hrole hassigned hunpaired hkept hlate
    obtain ⟨hlost, -, hrange, -⟩ := State.partnerIsLost_hwl (s := s.advance t) hkept
    exact ⟨_, next_of_eq (if_pos ⟨hrole, hassigned, hunpaired, hlate⟩), hlost, hrange⟩
  case beat =>
    intro s t hpaired hdue hopen
    obtain ⟨ps, hsend⟩ := portsOnly_hwlSend ((s.advance t).modHwl fun h => { h with heartbeatAt := max s.now t }) (s.partner.getD 0) 0
        .heartbeat
    exact ⟨_, next_of_eq (if_pos ⟨hpaired, hdue⟩), (congrArg Hwl.heartbeatAt hsend :),
      State.hwlSend_out (s := (s.advance t).modHwl fun h => { h with heartbeatAt := max s.now t }) 0 hopen⟩
  case heard =>
    intro s l t harrives hfrom
    obtain ⟨hup, hcrc, hseq, hdst, hfits⟩ := id harrives
    obtain ⟨ps, heard, hr, hheard⟩ := State.received_hwl (s.advance t) l
    have hempty : l.payload.length = 0 := by
      unfold packetFits at hfits
      exact of_decide_eq_true (Bool.and_eq_true_iff.1 hfits).2
    have hcredit := State.received_out (s.advance t) l
    rw [hempty] at hcredit
    refine ⟨_, next_of_eq (State.hwlReceive_arrives harrives _), ?_, ?_, hcredit⟩
    · rw [hr]
      exact hheard hfrom
    · rw [State.received_port (s := s.advance t) hup, hseq]
      rfl
  case leaves =>
    intro s l t harrives hfrom
    obtain ⟨ps, heard, hr, -⟩ := State.received_hwl (s.advance t) l
    have hfrom' := (State.received_fromPartner (s.advance t) l).trans hfrom
    refine ⟨_, next_of_eq ((State.hwlReceive_arrives harrives _).trans (if_pos hfrom')), ?_⟩
    by_cases hlost : s.hwl.partnerLost = true
    · have hkept : ((s.advance t).received l).partnerIsLost = (s.advance t).received l := if_pos (by rw [hr]; exact hlost)
      rw [hkept, hr, hlost, Bool.and_true]
      exact ⟨hlost, rfl⟩
    · obtain ⟨hnow, hbroken, -, -⟩ := State.partnerIsLost_hwl (s := (s.advance t).received l) (by rw [hr]; exact eq_false_of_ne_true hlost)
      exact ⟨hnow, by rw [hbroken, eq_false_of_ne_true hlost, Bool.and_false]⟩
  case silent =>
    intro s t hpaired hkept hlate
    obtain ⟨hlost, hbroken, hrange, hwindow⟩ := State.partnerIsLost_hwl (s := s.advance t) hkept
    exact ⟨_, next_of_eq (if_pos ⟨hpaired, hlate⟩), hlost, hbroken, hrange, hwindow⟩

end Sys2Proof.Machine

/-! # The fabric: ports -/

namespace Sys2Proof.Machine

-- One theorem after the other: a thread for each would pass the memory limit of the check.
set_option Elab.async false

/-! ## What sending changes of one port (R357 to R360) -/

/-- From `s` to `u` the ports are as many, and this one stands but for what sending changes: its line, its replay buffer, its credits and
    its
stall. -/
def State.linkKept (s : State) (p : Nat) (u : State) : Prop :=
  u.hwl.ports.length = s.hwl.ports.length ∧
    ∃ n r c w st, u.hport p = { s.hport p with nextTx := n, replay := r, credits := c, waiting := w, stalled := st }

theorem State.linkKept.then {s v u : State} {p : Nat} (h : s.linkKept p v) (g : v.linkKept p u) : s.linkKept p u := by
  obtain ⟨hlen, n, r, c, w, st, hv⟩ := h
  obtain ⟨hlen', n', r', c', w', st', hu⟩ := g
  exact ⟨hlen'.trans hlen, n', r', c', w', st', by rw [hu, hv]⟩

theorem linkKept_refl (s : State) (p : Nat) : s.linkKept p s := ⟨rfl, _, _, _, _, _, rfl⟩

theorem State.keepsBut.hport {A : List Part} {s u : State} (h : s.keepsBut A u) (p : Nat) (sub : Part.hwl ∉ A := by decide) :
    u.hport p = s.hport p := State.hport_of (congrArg Hwl.ports (h .hwl sub)) p

theorem State.keepsBut.linkKept {A : List Part} {s u : State} (h : s.keepsBut A u) (p : Nat) (sub : Part.hwl ∉ A := by decide) :
    s.linkKept p u := ⟨congrArg (fun x : Hwl => x.ports.length) (h .hwl sub), _, _, _, _, _, h.hport p sub⟩

theorem linkKept_ite {s a b : State} {p : Nat} {c : Prop} [Decidable c] (ha : s.linkKept p a) (hb : s.linkKept p b) :
    s.linkKept p (if c then a else b) := by
  split
  · exact ha
  · exact hb

theorem linkKept_foldl {α : Type} {s v : State} {p : Nat} {f : State → α → State} {l : List α}
    (hf : ∀ (u : State) a, u.linkKept p (f u a)) (hv : s.linkKept p v) : s.linkKept p (l.foldl f v) := by
  induction l generalizing v with
  | nil => exact hv
  | cons a l ih => exact ih (hv.then (hf v a))

/-- A port takes what is set of it if it exists, and no other port's value. -/
theorem State.hport_setHport (s : State) (p q : Nat) (v : HwlPort) : (s.setHport q v).hport p =
    if p = q ∧ p < s.hwl.ports.length then v else s.hport p := by
  by_cases hpq : p = q
  · subst hpq
    by_cases hlen : p < s.hwl.ports.length
    · rw [if_pos ⟨rfl, hlen⟩, State.setHport_hport hlen]
    · rw [if_neg fun h => hlen h.2]
      exact congrArg (List.getD · p HwlPort.down) (List.set_eq_of_length_le (Nat.not_lt.1 hlen))
  · rw [if_neg fun h => hpq h.1]
    exact List.getD_set_of_ne (Ne.symm hpq)

theorem State.setHport_other {s : State} {p q : Nat} {v : HwlPort} (h : p ≠ q) : (s.setHport q v).hport p = s.hport p :=
  List.getD_set_of_ne (Ne.symm h)

theorem linkKept_setHport {s : State} {p q : Nat} {v : HwlPort}
    (h : ∃ n r c w st, v = { s.hport q with nextTx := n, replay := r, credits := c, waiting := w, stalled := st }) :
    s.linkKept p (s.setHport q v) := by
  obtain ⟨n, r, c, w, st, hv⟩ := h
  refine ⟨List.length_set, ?_⟩
  rw [State.hport_setHport]
  by_cases hq : p = q ∧ p < s.hwl.ports.length
  · exact ⟨n, r, c, w, st, by rw [if_pos hq, hv, hq.1]⟩
  · exact ⟨_, _, _, _, _, if_neg hq⟩

theorem linkKept_hwlTransmit (s : State) (p q : Nat) (k : HwlPacket) : s.linkKept p (s.hwlTransmit q k) := by
  unfold State.hwlTransmit
  extract_lets v v1
  have hset : s.linkKept p (s.setHport q v1) := linkKept_setHport ⟨_, _, _, _, v.stalled, rfl⟩
  exact hset.then ((keeps_State_emit.within (L := [.out, .regs]) |>.then keeps_State_bump).linkKept p)

theorem linkKept_noteStall (s : State) (p q : Nat) : s.linkKept p (s.noteStall q) := by
  unfold State.noteStall
  extract_lets v blocked
  have hset : ∀ st, s.linkKept p (s.setHport q { v with stalled := st }) := fun st =>
    linkKept_setHport ⟨v.nextTx, v.replay, v.credits, v.waiting, st, rfl⟩
  split
  · exact linkKept_ite (hset _) (linkKept_refl s p)
  · exact linkKept_ite (linkKept_refl _ _) ((hset none).then (keeps_State_bumpBy.linkKept p))

theorem linkKept_hwlPump (n : Nat) (s : State) (p q : Nat) : s.linkKept p (s.hwlPump q n) := by
  induction n generalizing s with
  | zero => exact linkKept_noteStall s p q
  | succ n ih =>
    unfold State.hwlPump
    split
    · exact linkKept_noteStall s p q
    · rename_i k hk
      exact (linkKept_hwlTransmit s p q k).then (ih _)

theorem linkKept_hwlQueue (s : State) (p q : Nat) (k : HwlPacket) : s.linkKept p (s.hwlQueue q k) := by
  unfold State.hwlQueue
  extract_lets v s1
  have hset : s.linkKept p s1 := linkKept_setHport ⟨v.nextTx, v.replay, v.credits, _, v.stalled, rfl⟩
  exact hset.then (linkKept_hwlPump _ s1 p q)

theorem linkKept_hwlFlood (s : State) (p : Nat) (tag : BitVec 32) (b : HwlBody) : s.linkKept p (s.hwlFlood tag b) := by
  unfold State.hwlFlood
  exact linkKept_foldl (fun u q => linkKept_hwlQueue u p q _) (linkKept_refl _ _)

theorem State.hwlQueue_other {s : State} {p q : Nat} (k : HwlPacket) (h : p ≠ q) : (s.hwlQueue q k).hport p = s.hport p := by
  have hstall : ∀ u : State, (u.noteStall q).hport p = u.hport p := fun u => by
    unfold State.noteStall
    extract_lets v blocked
    split
    · split
      · exact State.setHport_other h
      · rfl
    · split
      · rfl
      · exact (keeps_State_bumpBy.hport p).trans (State.setHport_other h)
  have hpump : ∀ (n : Nat) (u : State), (u.hwlPump q n).hport p = u.hport p := fun n => by
    induction n with
    | zero => exact hstall
    | succ n ih =>
      intro u
      unfold State.hwlPump
      split
      · exact hstall u
      · refine (ih _).trans ?_
        unfold State.hwlTransmit
        extract_lets v v1
        exact ((keeps_State_emit.within (L := [.out, .regs]) |>.then keeps_State_bump).hport p).trans (State.setHport_other h)
  unfold State.hwlQueue
  extract_lets v s1
  exact (hpump _ s1).trans (State.setHport_other h)

/-- A flood leaves a port that is not UP as it stands (R364). -/
theorem State.hwlFlood_down {s : State} {p : Nat} (tag : BitVec 32) (b : HwlBody) (h : (s.hport p).state ≠ .up) :
    (s.hwlFlood tag b).hport p = s.hport p := by
  have hfold : ∀ (l : List Nat) (u : State), p ∉ l →
      (l.foldl (fun st q => st.hwlQueue q (packetOf b 0 true 0 st.hwl.nodeId 0 tag)) u).hport p = u.hport p := fun l => by
    induction l with
    | nil => exact fun _ _ => rfl
    | cons q l ih =>
      intro u hmem
      obtain ⟨hne, hrest⟩ := List.ne_and_not_mem_of_not_mem_cons hmem
      exact (ih _ hrest).trans (State.hwlQueue_other _ hne)
  exact hfold _ s fun hmem => h (of_decide_eq_true (List.mem_filter.1 hmem).2)

/-! ## States of a port (R361 to R363) -/

/-- From `s` to `u` the fabric stands but for its ports, its routes and the number of its ANNOUNCEs. -/
def State.linksOnly (s u : State) : Prop := ∃ ps r n, u.hwl = { s.hwl with ports := ps, routes := r, annSeq := n }

theorem State.linksOnly.then {s v u : State} (h : s.linksOnly v) (g : v.linksOnly u) : s.linksOnly u := by
  obtain ⟨ps, r, n, hv⟩ := h
  obtain ⟨qs, r', n', hu⟩ := g
  exact ⟨qs, r', n', by rw [hu, hv]⟩

theorem State.portsOnly.linksOnly {s u : State} (h : s.portsOnly u) : s.linksOnly u := by
  obtain ⟨ps, hu⟩ := h
  exact ⟨ps, s.hwl.routes, s.hwl.annSeq, hu⟩

theorem State.recomputeRoutes_hwl (s : State) : ∃ r, s.recomputeRoutes.hwl = { s.hwl with routes := r } := by
  unfold State.recomputeRoutes
  extract_lets routes
  split
  · exact ⟨s.hwl.routes, rfl⟩
  · exact ⟨routes, keeps_State_bump .hwl (by decide)⟩

theorem State.recomputeRoutes_hport (s : State) (p : Nat) : s.recomputeRoutes.hport p = s.hport p := by
  obtain ⟨r, hr⟩ := s.recomputeRoutes_hwl
  exact State.hport_of (congrArg Hwl.ports hr :) p

theorem State.announce_hwl (s : State) : ∃ ps, s.announce.hwl =
    { s.hwl with ports := ps, annSeq := if s.hwl.assigned = false then s.hwl.annSeq else s.hwl.annSeq + 1 } := by
  unfold State.announce
  extract_lets n
  split
  · exact ⟨s.hwl.ports, rfl⟩
  · exact portsOnly_hwlFlood (s.modHwl fun h => { h with annSeq := n }) n _

theorem linkKept_announce (s : State) (p : Nat) : s.linkKept p s.announce := by
  unfold State.announce
  extract_lets n
  refine linkKept_ite (linkKept_refl s p) ?_
  exact linkKept_hwlFlood (s.modHwl fun h => { h with annSeq := n }) p n _

theorem State.announce_down {s : State} {p : Nat} (h : (s.hport p).state ≠ .up) : s.announce.hport p = s.hport p := by
  unfold State.announce
  extract_lets n
  split
  · rfl
  · exact State.hwlFlood_down (s := s.modHwl fun h => { h with annSeq := n }) n _ h

/-- A port that takes a new state, before the routes and the ANNOUNCE that follow from it. -/
def State.portTurned (s : State) (p : Nat) (st : PortState) (isolate : Nat) : State :=
  ((s.setHport p { s.hport p with state := st, isolate := isolate }).event .operations 28 0x80 p (st.code + 256 * isolate)).raiseInt
    0x1C0004 0

theorem State.portState_eq (s : State) (p : Nat) (st : PortState) (isolate : Nat) : s.portState p st isolate =
    if (s.hport p).state = st ∧ (s.hport p).isolate = isolate then s
    else (s.portTurned p st isolate).recomputeRoutes.announce := rfl

theorem State.portTurned_hwl (s : State) (p : Nat) (st : PortState) (isolate : Nat) :
    (s.portTurned p st isolate).hwl = (s.setHport p { s.hport p with state := st, isolate := isolate }).hwl :=
  (keeps_State_event.within (L := [.way, .host, .regs, .out]) |>.then keeps_State_raiseInt) .hwl (by decide)

theorem State.portTurned_hport {s : State} {p : Nat} (st : PortState) (isolate : Nat) (h : p < s.hwl.ports.length) :
    (s.portTurned p st isolate).hport p = { s.hport p with state := st, isolate := isolate } :=
  (State.hport_of (congrArg Hwl.ports (s.portTurned_hwl p st isolate)) p).trans (State.setHport_hport h)

theorem linksOnly_portState (s : State) (p : Nat) (st : PortState) (isolate : Nat) : s.linksOnly (s.portState p st isolate) := by
  rw [State.portState_eq]
  split
  · exact (portsOnly_refl s).linksOnly
  · obtain ⟨r, hr⟩ := (s.portTurned p st isolate).recomputeRoutes_hwl
    obtain ⟨ps, ha⟩ := (s.portTurned p st isolate).recomputeRoutes.announce_hwl
    rw [hr, State.portTurned_hwl] at ha
    exact ⟨_, _, _, ha⟩

/-- A port that leaves UP, or takes another state than UP, keeps all else. -/
theorem State.portState_down {s : State} {p : Nat} {st : PortState} (isolate : Nat) (h : p < s.hwl.ports.length) (hst : st ≠ .up) :
    (s.portState p st isolate).hport p = { s.hport p with state := st, isolate := isolate } := by
  rw [State.portState_eq]
  split
  · rename_i heq
    rw [← heq.1, ← heq.2]
  · have hport : ((s.portTurned p st isolate).recomputeRoutes).hport p = { s.hport p with state := st, isolate := isolate } :=
      ((s.portTurned p st isolate).recomputeRoutes_hport p).trans (State.portTurned_hport st isolate h)
    exact (State.announce_down (by rw [hport]; exact hst)).trans hport

/-- A port that comes UP sends its ANNOUNCE there too. -/
theorem State.portState_link {s : State} {p : Nat} (st : PortState) (isolate : Nat) (h : p < s.hwl.ports.length) :
    ∃ n r c w sl, (s.portState p st isolate).hport p =
      { s.hport p with state := st, isolate := isolate, nextTx := n, replay := r, credits := c, waiting := w, stalled := sl } := by
  rw [State.portState_eq]
  split
  · rename_i heq
    exact ⟨_, _, _, _, _, by rw [← heq.1, ← heq.2]⟩
  · have hport : ((s.portTurned p st isolate).recomputeRoutes).hport p = { s.hport p with state := st, isolate := isolate } :=
      ((s.portTurned p st isolate).recomputeRoutes_hport p).trans (State.portTurned_hport st isolate h)
    obtain ⟨-, n, r, c, w, sl, hann⟩ := linkKept_announce (s.portTurned p st isolate).recomputeRoutes p
    exact ⟨n, r, c, w, sl, by rw [hann, hport]⟩

theorem State.recomputeRoutes_length (s : State) : s.recomputeRoutes.hwl.ports.length = s.hwl.ports.length := by
  obtain ⟨r, hr⟩ := s.recomputeRoutes_hwl
  rw [hr]

theorem State.portState_length (s : State) (p : Nat) (st : PortState) (isolate : Nat) :
    (s.portState p st isolate).hwl.ports.length = s.hwl.ports.length := by
  rw [State.portState_eq]
  split
  · rfl
  · rw [(linkKept_announce _ p).1, State.recomputeRoutes_length, State.portTurned_hwl]
    exact List.length_set

theorem State.setHport_length (s : State) (p : Nat) (v : HwlPort) : (s.setHport p v).hwl.ports.length = s.hwl.ports.length :=
  List.length_set

/-- Retraining clears the link and keeps its line and its failures (R361). -/
theorem State.retrain_hport {s : State} {p : Nat} (h : p < s.hwl.ports.length) :
    (s.retrain p).hport p = { (s.hport p).cleared with retrainAt := none, state := .training, isolate := 0 } := by
  have hlen := s.setHport_length p { (s.hport p).cleared with retrainAt := none }
  have hdown := State.portState_down (st := .training) 0 (hlen.symm ▸ h) nofun
  rw [State.setHport_hport h] at hdown
  exact (keeps_State_bump.hport p).trans hdown

theorem State.isolatePort_hport {s : State} {p : Nat} (cause : Nat) (h : p < s.hwl.ports.length) :
    (s.isolatePort p cause).hport p =
      { s.hport p with state := .isolated, isolate := cause, retrainAt := some (s.now + 60 * ticksPerSec) } := by
  have h1 : (s.portState p .isolated cause).hport p = { s.hport p with state := .isolated, isolate := cause } :=
    State.portState_down cause h nofun
  have hnow : (s.portState p .isolated cause).now = s.now := keeps_State_portState .now (by decide)
  have hlen : p < (s.portState p .isolated cause).hwl.ports.length := (s.portState_length p _ _).symm ▸ h
  exact (State.setHport_hport hlen).trans (by rw [h1, hnow])

theorem State.hport_known {s : State} {p : Nat} {st : PortState} (h : (s.hport p).state = st) (hst : st ≠ .down) : p < s.hwl.ports.length :=
  State.hport_lt fun hd => hst (h.symm.trans (congrArg HwlPort.state hd))

end Sys2Proof.Machine

/-! # The fabric: links -/

namespace Sys2Proof.Machine

-- One theorem after the other: a thread for each would pass the memory limit of the check.
set_option Elab.async false

/-! ## HELLO and HELLO_ACK (R361 to R363) -/

theorem State.helloNow_of {s u : State} (hsec : u.sec = s.sec) (hitem : ∀ i, u.item i = s.item i) (hdraws : u.draws = s.draws)
    (hassigned : u.hwl.assigned = s.hwl.assigned) (hx : u.hwl.x = s.hwl.x) (hy : u.hwl.y = s.hwl.y) (p : Nat) :
    u.helloNow p = s.helloNow p := by
  unfold State.helloNow State.ownHello State.serial
  rw [hsec, hitem, hdraws, hassigned, hx, hy]

theorem State.cmacUnder_of {s u : State} (hsec : u.sec = s.sec) (k : Nat) (bs : List Byte) : u.cmacUnder k bs = s.cmacUnder k bs := by
  have hslot : u.keySlot k = s.keySlot k := by
    unfold State.keySlot
    rw [hsec]
  unfold State.cmacUnder State.keyUsable
  rw [State.usableWithin_of hsec, hslot]

theorem State.helloCause_of {s u : State} (hitem : ∀ i, u.item i = s.item i) (p : Nat)
    (h : Hello) : u.helloCause p h = s.helloCause p h := by
  unfold State.helloCause
  rw [hitem]

theorem State.coordsAgree_of {s u : State} (hitem : ∀ i, u.item i = s.item i) (hassigned : u.hwl.assigned = s.hwl.assigned)
    (hx : u.hwl.x = s.hwl.x) (hy : u.hwl.y = s.hwl.y) (p : Nat) (c : Option (Nat × Nat)) : u.coordsAgree p c = s.coordsAgree p c := by
  cases c with
  | none => rfl
  | some xy =>
    show (!u.hwl.assigned || decide (xy = u.stepTo u.hwl.x u.hwl.y p)) = (!s.hwl.assigned || decide (xy = s.stepTo s.hwl.x s.hwl.y p))
    unfold State.stepTo
    rw [hitem, hitem, hassigned, hx, hy]

theorem State.sendHello_hport {s : State} {p : Nat} (h : p < s.hwl.ports.length) :
    (s.sendHello p).hport p = { s.hport p with helloSent := s.helloNow p } := by
  unfold State.sendHello
  extract_lets bs
  exact (keeps_State_sendSetup.hport p).trans (State.setHport_hport h)

/-- A setup packet that arrives at a port in HELLO is looked at once it is counted (R361). -/
theorem State.setupReceive_arrives {s : State} {l : HwlHeader} {typ : Nat} (hstate : (s.hport l.port.val).state = .hello)
    (hcrc : l.lcrcOk = true) (hfits : packetFits l typ = true) (deliver : State → State) :
    s.setupReceive l typ deliver = deliver (s.bump (cPortPacketsRx l.port.val)) := by
  unfold State.setupReceive
  extract_lets p
  rw [if_neg (not_not.2 hstate), if_neg (ne_false_of_eq_true hcrc), if_neg (ne_false_of_eq_true hfits)]

/-- The state in which a setup packet is looked at: only counted. -/
theorem State.setupCounted {s : State} {p t : Nat} (h : (s.hport p).state = .hello) :
    (s.advance t).keepsBut [.regs] ((s.advance t).bump (cPortPacketsRx p)) ∧
      p < ((s.advance t).bump (cPortPacketsRx p)).hwl.ports.length := by
  have k : (s.advance t).keepsBut [.regs] ((s.advance t).bump (cPortPacketsRx p)) := keeps_State_bump
  refine ⟨k, ?_⟩
  rw [k .hwl (by decide)]
  exact State.hport_known h nofun

theorem State.helloAckOk_of {s u : State} (hsec : u.sec = s.sec) (hitem : ∀ i, u.item i = s.item i) {p : Nat}
    (hport : u.hport p = s.hport p) (bs : List Byte) : u.helloAckOk p bs = s.helloAckOk p bs := by
  unfold State.helloAckOk
  rw [State.cmacUnder_of hsec, hitem, hport]

theorem State.noteNeighbour_hport {s : State} {p : Nat} (h : Hello) (hlen : p < s.hwl.ports.length) :
    (s.noteNeighbour p h).hport p =
      { s.hport p with
        peerSerial := some h.serial
        peerPort := h.port
        peer := h.coord.map fun c => BitVec.ofNat 6 (s.nodeAt c) } := State.setHport_hport hlen

/-- A HELLO that fits this fabric is answered under the fabric key (R362). -/
theorem State.sendHelloAck_sends {s : State} {p : Nat} {peer mac : List Byte}
    (h : s.cmacUnder (s.item iFabricKeySlot) (peer ++ s.helloNow p) = some mac) :
    s.sendHelloAck p peer = s.sendSetup p (.helloAck (s.helloNow p) mac) := by
  unfold State.sendHelloAck
  extract_lets bs
  have h' : s.cmacUnder (s.item iFabricKeySlot) (peer ++ bs) = some mac := h
  rw [h']

theorem State.sendSetup_out (s : State) (p : Nat) (b : HwlBody) :
    (s.sendSetup p b).out = .hwlPacket p (packetBytes 0 (packetOf b 0 false 0 0 0 0)) :: s.out :=
  keeps_State_bump .out (by decide)

/-- The state of a neighbour that has answered, before the port comes UP. -/
def State.linkReady (s : State) (p : Nat) (h : Hello) : State :=
  let s2 := s.noteNeighbour p h
  let s3 := s2.setHport p { s2.hport p with credits := fullCredits, nextTx := 0, expectRx := 0, replay := [], naks := 0 }
  s3.modHwl fun x => { x with firstUp := some (x.firstUp.getD s3.now) }

theorem State.linkReady_hport {s : State} {p : Nat} (h : Hello) (hlen : p < s.hwl.ports.length) :
    ((s.linkReady p h).hport p).peerSerial = some h.serial ∧ ((s.linkReady p h).hport p).expectRx = 0 := by
  have hlen2 : p < (s.noteNeighbour p h).hwl.ports.length := (s.setHport_length p _).symm ▸ hlen
  have hset : (s.linkReady p h).hport p = { (s.noteNeighbour p h).hport p with
    credits := fullCredits
    nextTx := 0
    expectRx := 0
    replay := []
    naks := 0 } := State.setHport_hport hlen2
  rw [hset, State.noteNeighbour_hport h hlen]
  exact ⟨rfl, rfl⟩

theorem State.linkUp_agreed {s : State} {p : Nat} {h : Hello} (hagree : s.coordsAgree p h.coord = true) :
    ∃ n, s.linkUp p h = ((s.linkReady p h).portState p .up 0).hwlPump p n := by
  have k : (s.linkReady p h).keepsBut [.way, .host, .regs, .out, .hwl] ((s.linkReady p h).portState p .up 0) := keeps_State_portState
  obtain ⟨ps, r, n, hhwl⟩ := linksOnly_portState (s.linkReady p h) p .up 0
  have h4 : ((s.linkReady p h).portState p .up 0).coordsAgree p h.coord = true := by
    rw [State.coordsAgree_of (u := (s.linkReady p h).portState p .up 0) (s := s.linkReady p h) (fun i => k.item i)
      (congrArg Hwl.assigned hhwl :) (congrArg Hwl.x hhwl :) (congrArg Hwl.y hhwl :)]
    exact hagree
  exact ⟨_, if_pos h4⟩

theorem State.linkUp_hport {s : State} {p : Nat} {h : Hello} (hlen : p < s.hwl.ports.length) (hagree : s.coordsAgree p h.coord = true) :
    ((s.linkUp p h).hport p).state = .up ∧ ((s.linkUp p h).hport p).peerSerial = some h.serial ∧ ((s.linkUp p h).hport p).expectRx = 0 := by
  have hlen' : p < (s.linkReady p h).hwl.ports.length :=
    ((State.setHport_length (s.noteNeighbour p h) p _).trans (s.setHport_length p _)).symm ▸ hlen
  obtain ⟨hserial, hexpect⟩ := State.linkReady_hport h hlen
  obtain ⟨n, hup⟩ := State.linkUp_agreed hagree
  obtain ⟨tx, r, c, w, sl, hstate⟩ := State.portState_link .up 0 hlen'
  obtain ⟨-, tx', r', c', w', sl', hpump⟩ := linkKept_hwlPump n ((s.linkReady p h).portState p .up 0) p p
  rw [hup, hpump, hstate]
  exact ⟨rfl, hserial, hexpect⟩

/-- Settles O36. -/
theorem linksComeUp : Obligations.LinksComeUp := by
  unfold Obligations.LinksComeUp
  refine ⟨?lock, ?loss, ?retrain, ?hello, ?foreign, ?ack, ?badAck⟩
  case lock =>
    intro s p valid t henabled htraining hlen hvalid
    let v1 : HwlPort := { (s.advance t).hport p.val with blockLock := true }
    let s1 := (s.advance t).setHport p.val v1
    have hlen1 : p.val < s1.hwl.ports.length := (State.setHport_length _ _ _).symm ▸ hlen
    have h1 : s1.hport p.val = v1 := State.setHport_hport hlen
    have h2 := State.portState_down (st := .hello) 0 hlen1 nofun
    rw [h1] at h2
    have hlen2 : p.val < (s1.portState p.val .hello 0).hwl.ports.length := (s1.portState_length p.val _ _).symm ▸ hlen1
    have k : (s.advance t).keepsBut [.way, .host, .regs, .out, .hwl] (s1.portState p.val .hello 0) :=
      keeps_State_setHport.within |>.then keeps_State_portState
    obtain ⟨ps, r, n, hhwl⟩ := linksOnly_portState s1 p.val .hello 0
    have hnow : (s1.portState p.val .hello 0).helloNow p.val = (s.advance t).helloNow p.val :=
      State.helloNow_of (k .sec (by decide)) (fun i => k.item i) (k .draws (by decide)) (congrArg Hwl.assigned hhwl :)
        (congrArg Hwl.x hhwl :) (congrArg Hwl.y hhwl :) p.val
    have h3 := State.sendHello_hport hlen2
    rw [h2, hnow] at h3
    have hout : ((s1.portState p.val .hello 0).sendHello p.val).out = _ := State.sendSetup_out _ _ _
    rw [hnow] at hout
    refine ⟨(s1.portState p.val .hello 0).sendHello p.val, next_of_eq (if_neg ?_), congrArg HwlPort.state h3, congrArg HwlPort.blockLock h3,
      congrArg HwlPort.helloSent h3, _, hout⟩
    exact not_or.2 ⟨Nat.not_lt.2 hvalid, not_or.2 ⟨ne_false_of_eq_true henabled, fun h => h.2 htraining⟩⟩
  case loss =>
    intro s p since t henabled hup hlock hover
    have hlen := State.up_lt hup
    let v1 : HwlPort := { ((s.advance t).hport p.val).cleared with retrainAt := ((s.advance t).hport p.val).retrainAt }
    let s1 := ((s.advance t).setHport p.val v1).bump (cPortLinkDown p.val)
    have h1 : s1.hport p.val = v1 := (keeps_State_bump.hport p.val).trans (State.setHport_hport hlen)
    have hlen1 : p.val < s1.hwl.ports.length := State.hport_known ((congrArg HwlPort.state h1).trans hup) nofun
    have h2 := State.portState_down (st := .down) 0 hlen1 nofun
    rw [h1] at h2
    have hlen2 : p.val < (s1.portState p.val .down 0).hwl.ports.length := (s1.portState_length p.val _ _).symm ▸ hlen1
    have h3 := State.retrain_hport hlen2
    rw [h2] at h3
    refine ⟨(s1.portState p.val .down 0).retrain p.val, next_of_eq ((if_neg ?_).trans (if_pos hup)), congrArg HwlPort.state h3,
      congrArg HwlPort.blockLock h3, congrArg HwlPort.replay h3⟩
    exact not_or.2 ⟨ne_false_of_eq_true henabled, not_or.2 ⟨ne_false_of_eq_true hlock, Nat.not_lt.2 hover⟩⟩
  case retrain =>
    intro s p t d hdue hover
    have hdue' : ((s.advance t).hport p.val).retrainAt = some d := hdue
    have hlen : p.val < (s.advance t).hwl.ports.length :=
      State.hport_lt fun hd => absurd (hdue'.symm.trans (congrArg HwlPort.retrainAt hd)) nofun
    have h := State.retrain_hport hlen
    refine ⟨(s.advance t).retrain p.val, ?_, congrArg HwlPort.state h, congrArg HwlPort.retrainAt h⟩
    show execPortRetrainTimer p t s = _
    simp only [execPortRetrainTimer, hdue']
    exact next_of_eq (if_neg (Nat.not_lt.2 hover))
  case hello =>
    intro s l mac t hstate hcrc hfits hcause hmac
    let s1 := (s.advance t).bump (cPortPacketsRx l.port.val)
    obtain ⟨k1, hlen⟩ : (s.advance t).keepsBut [.regs] s1 ∧ _ := State.setupCounted hstate
    have hhwl1 : s1.hwl = s.hwl := k1 .hwl (by decide)
    have h1 : s1.hport l.port.val = s.hport l.port.val := k1.hport _
    let s2 := s1.noteNeighbour l.port.val (helloOf l.payload)
    have k2 : (s.advance t).keepsBut [.regs, .hwl] s2 := k1.within |>.then keeps_State_noteNeighbour
    have h2 := State.noteNeighbour_hport (helloOf l.payload) hlen
    have hnow : s2.helloNow l.port.val = s.helloNow l.port.val :=
      State.helloNow_of (k2 .sec (by decide)) (fun i => k2.item i) (k2 .draws (by decide)) (congrArg Hwl.assigned hhwl1 :)
        (congrArg Hwl.x hhwl1 :) (congrArg Hwl.y hhwl1 :) _
    have hmac2 : s2.cmacUnder (s2.item iFabricKeySlot) (l.payload ++ s2.helloNow l.port.val) = some mac := by
      rw [hnow, State.cmacUnder_of (s := s) (k2 .sec (by decide)), k2.item]
      exact hmac
    have hcause1 : s1.helloCause l.port.val (helloOf l.payload) = none :=
      (State.helloCause_of (fun i => k1.item i) _ _).trans hcause
    have hport : (s2.sendSetup l.port.val (.helloAck (s2.helloNow l.port.val) mac)).hport l.port.val = s2.hport l.port.val :=
      keeps_State_sendSetup.hport _
    refine ⟨s2.sendSetup l.port.val (.helloAck (s2.helloNow l.port.val) mac), ?_, ?_, ?_, ?_⟩
    · refine next_of_eq ((State.setupReceive_arrives (s := s.advance t) hstate hcrc hfits _).trans ?_)
      show (match s1.helloCause l.port.val (helloOf l.payload) with
        | some c => s1.refuseHello l.port.val c
        | none => s2.sendHelloAck l.port.val l.payload) = _
      rw [hcause1]
      exact State.sendHelloAck_sends hmac2
    · rw [hport, h2, h1]
      exact hstate
    · rw [hport, h2]
    · rw [State.sendSetup_out, hnow]
      exact congrArg _ (k2 .out (by decide))
  case foreign =>
    intro s l t hstate hcrc hfits hforeign
    obtain ⟨k1, hlen⟩ := State.setupCounted (t := t) hstate
    have hcause1 := (State.helloCause_of (s := s) (fun i => k1.item i) l.port.val (helloOf l.payload)).trans (if_pos hforeign)
    have hport := (keeps_State_note (s := ((s.advance t).bump (cPortPacketsRx l.port.val)).isolatePort l.port.val 1)
      (c := cPortForeign l.port.val) (g := .operations) (sp := .second) (who := l.port.val + 1) (payload := l.port.val)).hport l.port.val
    rw [State.isolatePort_hport 1 hlen] at hport
    refine ⟨((s.advance t).bump (cPortPacketsRx l.port.val)).refuseHello l.port.val 1, ?_, congrArg HwlPort.state hport,
      congrArg HwlPort.isolate hport, ?_⟩
    · refine next_of_eq ((State.setupReceive_arrives (s := s.advance t) hstate hcrc hfits _).trans ?_)
      simp only [hcause1]
    · refine (congrArg HwlPort.retrainAt hport).trans ?_
      rw [k1 .now (by decide)]
      rfl
  case ack =>
    intro s l t hstate hcrc hfits hcause hmac hcoords
    obtain ⟨k1, hlen⟩ := State.setupCounted (t := t) hstate
    have hhwl1 : ((s.advance t).bump (cPortPacketsRx l.port.val)).hwl = s.hwl := k1 .hwl (by decide)
    have hcause1 := (State.helloCause_of (s := s) (fun i => k1.item i) l.port.val (helloOf l.payload)).trans hcause
    have hmac1 := (State.helloAckOk_of (s := s) (k1 .sec (by decide)) (fun i => k1.item i) (k1.hport l.port.val) l.payload).trans hmac
    have hagree := (State.coordsAgree_of (s := s) (fun i => k1.item i) (congrArg Hwl.assigned hhwl1) (congrArg Hwl.x hhwl1)
      (congrArg Hwl.y hhwl1) l.port.val (helloOf l.payload).coord).trans hcoords
    obtain ⟨hstate1, hserial, hexpect⟩ := State.linkUp_hport (h := helloOf l.payload) hlen hagree
    refine ⟨_, next_of_eq ((State.setupReceive_arrives (s := s.advance t) hstate hcrc hfits _).trans ?_), hstate1, hserial, hexpect⟩
    simp only [hcause1]
    exact if_neg (ne_false_of_eq_true hmac1)
  case badAck =>
    intro s l t hstate hcrc hfits hcause hmac
    obtain ⟨k1, hlen⟩ := State.setupCounted (t := t) hstate
    have hcause1 := (State.helloCause_of (s := s) (fun i => k1.item i) l.port.val (helloOf l.payload)).trans hcause
    have hmac1 := (State.helloAckOk_of (s := s) (k1 .sec (by decide)) (fun i => k1.item i) (k1.hport l.port.val) l.payload).trans hmac
    have hport := (keeps_State_note (s := ((s.advance t).bump (cPortPacketsRx l.port.val)).isolatePort l.port.val 2)
      (c := cPortHelloFail l.port.val) (g := .security) (sp := .second) (who := l.port.val + 1) (payload := l.port.val)).hport l.port.val
    rw [State.isolatePort_hport 2 hlen] at hport
    refine ⟨_, next_of_eq ((State.setupReceive_arrives (s := s.advance t) hstate hcrc hfits _).trans ?_), congrArg HwlPort.state hport,
      congrArg HwlPort.isolate hport⟩
    simp only [hcause1]
    exact if_pos hmac1

end Sys2Proof.Machine

/-! # The fabric: link words and ANNOUNCEs -/

namespace Sys2Proof.Machine

-- One theorem after the other: a thread for each would pass the memory limit of the check.
set_option Elab.async false

/-! ## Link words (R357 to R359) -/

theorem State.noteStall_hport {s : State} {p : Nat} (hlen : p < s.hwl.ports.length) :
    ∃ sl, (s.noteStall p).hport p = { s.hport p with stalled := sl } := by
  unfold State.noteStall
  dsimp only
  split
  · split
    · exact ⟨_, State.setHport_hport hlen⟩
    · exact ⟨(s.hport p).stalled, rfl⟩
  · split
    · exact ⟨(s.hport p).stalled, rfl⟩
    · exact ⟨none, (keeps_State_bumpBy.hport p).trans (State.setHport_hport hlen)⟩

/-- A line with nothing in it sends nothing when it is looked at: what is written of the port stands but for its stall. -/
theorem State.pump_empty {s : State} {p : Nat} {v : HwlPort} (hlen : p < s.hwl.ports.length) (h : v.waiting = []) :
    ∃ sl, ((s.setHport p v).hwlPump p ((s.setHport p v).hport p).waiting.length).hport p = { v with stalled := sl } := by
  have hv : (s.setHport p v).hport p = v := State.setHport_hport hlen
  obtain ⟨sl, hstall⟩ := State.noteStall_hport (s := s.setHport p v) ((s.setHport_length p v).symm ▸ hlen)
  rw [hv] at hstall
  rw [hv, show v.waiting.length = 0 from congrArg List.length h]
  exact ⟨sl, hstall⟩

/-- What is replayed goes out in the order of its numbers (R359). -/
theorem State.replay_out (p : Nat) (l : List (BitVec 16 × HwlPacket)) (s : State) :
    (l.foldl (fun st e => (st.emit (.hwlPacket p (packetBytes e.1 e.2))).bump (cPortReplays p)) s).out =
      (l.map fun e => Emission.hwlPacket p (packetBytes e.1 e.2)).reverse ++ s.out := by
  induction l generalizing s with
  | nil => rfl
  | cons e l ih =>
    rw [List.foldl_cons, ih, show ((s.emit _).bump _).out = Emission.hwlPacket p (packetBytes e.1 e.2) :: s.out from
      keeps_State_bump .out (by decide), List.map_cons, List.reverse_cons, List.append_assoc]
    rfl

theorem State.replay_keeps (p : Nat) (l : List (BitVec 16 × HwlPacket)) (s : State) : s.keepsBut [.out, .regs]
    (l.foldl (fun st e => (st.emit (.hwlPacket p (packetBytes e.1 e.2))).bump (cPortReplays p)) s) :=
  by
  exact keepsBut_foldl (fun u e h => h.then keeps_State_emit |>.then keeps_State_bump) (keepsBut_refl _ _)

/-! ## Coordinates and ANNOUNCEs (R362 to R364) -/

theorem State.portsOnly.members {s u : State} (h : s.portsOnly u) : u.hwl.members = s.hwl.members := by
  obtain ⟨ps, hu⟩ := h
  exact (congrArg Hwl.members hu :)

theorem State.sendPair_members (s : State) (query answer : Bool) : (s.sendPair query answer).hwl.members = s.hwl.members := by
  unfold State.sendPair
  extract_lets s1
  have h1 : s1.hwl.members = s.hwl.members := by
    unfold s1
    split
    · rfl
    · rfl
  exact (portsOnly_hwlSend s1 _ 0 _).members.trans h1

/-- What a first ANNOUNCE leaves of the members. -/
theorem State.heardAnnounce_new {s : State} {l : HwlHeader} (hother : BitVec.ofNat 6 (fieldAt l.payload 8 1) ≠ s.hwl.nodeId)
    (hnew : Table.get none s.hwl.members (BitVec.ofNat 6 (fieldAt l.payload 8 1)).toNat = none) :
    (s.heardAnnounce l).hwl.members = Table.set none s.hwl.members (BitVec.ofNat 6 (fieldAt l.payload 8 1)).toNat
      (some ⟨BitVec.ofNat 64 (fieldAt l.payload 0 8), l.tag, s.now,
          (List.range 4).map fun p => fieldAt l.payload 9 1 / 4 ^ p % 4, true⟩) := by
  unfold State.heardAnnounce
  extract_lets serial node ports d old newer s1 s2 fwd s3
  have hnewer : newer = true := by
    unfold newer old
    rw [show Table.get none s.hwl.members d = none from hnew]
  have h1 : s1.hwl.members = Table.set none s.hwl.members d (some ⟨serial, l.tag, s.now, ports, true⟩) :=
    congrArg Hwl.members (keeps_State_bump .hwl (by decide) : s1.hwl = _)
  have h2 : s2.hwl.members = s1.hwl.members := by
    obtain ⟨r, hr⟩ := s1.recomputeRoutes_hwl
    exact (congrArg Hwl.members hr :)
  have h3 : s3.hwl.members = s2.hwl.members := (portsOnly_ite keeps_State_note.portsOnly
    (portsOnly_foldl (fun u q => portsOnly_hwlQueue u q _) (portsOnly_refl s2))).members
  rw [if_neg fun h => hother h.2, if_neg (ne_false_of_eq_true hnewer)]
  split
  · rw [State.sendPair_members, h3, h2, h1]
  · rw [h3, h2, h1]

/-- Settles O37. -/
theorem linkWordsAndNodesAct : Obligations.LinkWordsAndNodesAct := by
  unfold Obligations.LinkWordsAndNodesAct
  refine ⟨?credit, ?ack, ?nak, ?eighth, ?timer, ?assign, ?announces, ?announced, ?expiry⟩
  case credit =>
    intro s p vc cls units t hup hline
    let v1 : HwlPort := { (s.advance t).hport p.val with
      credits := Table.set 0 (s.hport p.val).credits (creditKey vc.val cls.val)
        (min (shareUnits vc.val) ((s.hport p.val).credit vc.val cls.val + units)) }
    obtain ⟨sl, hpump⟩ := State.pump_empty (s := s.advance t) (v := v1) (State.up_lt hup) hline
    exact ⟨_, next_of_eq (if_neg (not_not.2 hup)), congrArg HwlPort.credits hpump⟩
  case ack =>
    intro s p lseq t hup hline
    let v1 : HwlPort := { (s.advance t).hport p.val with replay := after (s.hport p.val).replay lseq }
    obtain ⟨sl, hpump⟩ := State.pump_empty (s := s.advance t) (v := v1) (State.up_lt hup) hline
    exact ⟨_, next_of_eq (if_neg (not_not.2 hup)), congrArg HwlPort.replay hpump⟩
  case nak =>
    intro s p lseq t hup hsame hfew
    let v1 : HwlPort := { (s.advance t).hport p.val with
      naks := (s.hport p.val).naks + 1
      nakFor := lseq
      replay := after (s.hport p.val).replay (lseq - 1) }
    let s1 := ((s.advance t).setHport p.val v1).bump (cPortNakRx p.val)
    have h1 : s1.hport p.val = v1 := (keeps_State_bump.hport p.val).trans (State.setHport_hport (State.up_lt hup))
    have hport := (State.replay_keeps p.val v1.replay s1).hport p.val
    rw [h1] at hport
    have hout := State.replay_out p.val v1.replay s1
    rw [(keeps_State_bump .out (by decide) : s1.out = s.out)] at hout
    refine ⟨_, (if_neg (not_not.2 hup)).trans (next_of_eq ?_), congrArg HwlPort.naks hport, congrArg HwlPort.replay hport, hout⟩
    have hn : (if ((s.advance t).hport p.val).nakFor = lseq then ((s.advance t).hport p.val).naks + 1 else 1) = (s.hport p.val).naks + 1 :=
      if_pos hsame
    simp only [hn]
    exact if_neg (by omega)
  case eighth =>
    intro s p lseq t hup hsame hmany
    let v1 : HwlPort := { (s.advance t).hport p.val with
      naks := (s.hport p.val).naks + 1
      nakFor := lseq
      replay := after (s.hport p.val).replay (lseq - 1) }
    let s1 := ((s.advance t).setHport p.val v1).bump (cPortNakRx p.val)
    have h1 : s1.hport p.val = v1 := (keeps_State_bump.hport p.val).trans (State.setHport_hport (State.up_lt hup))
    have hretrain := State.retrain_hport (State.up_lt (s := s1) (by rw [h1]; exact hup))
    refine ⟨s1.retrain p.val, (if_neg (not_not.2 hup)).trans
        (next_of_eq ?_), congrArg HwlPort.state hretrain, congrArg HwlPort.replay hretrain⟩
    have hn : (if ((s.advance t).hport p.val).nakFor = lseq then ((s.advance t).hport p.val).naks + 1 else 1) = (s.hport p.val).naks + 1 :=
      if_pos hsame
    simp only [hn]
    exact if_pos (by omega)
  case timer =>
    intro s p d t hup hdue hover
    have hport : ((s.advance t).sendAckWord p.val).hport p.val = { s.hport p.val with ackSince := none, unacked := 0 } :=
      State.setHport_hport (State.up_lt hup)
    refine ⟨(s.advance t).sendAckWord p.val, ?_, congrArg HwlPort.ackSince hport, congrArg HwlPort.unacked hport, rfl⟩
    have hdue' : ((s.advance t).hport p.val).ackSince = some d := hdue
    show execLinkAckTimer p t s = _
    simp only [execLinkAckTimer, hdue']
    exact next_of_eq (if_neg (not_or.2 ⟨not_not.2 hup, Nat.not_lt.2 hover⟩))
  case assign =>
    intro s t x y hrole hlocked hfree hagreed hstored
    let id := s.nodeAt (x, y)
    let s2 : State := { (s.advance t).modHwl fun h =>
        { h with assigned := true, nodeId := BitVec.ofNat 6 id, x := x, y := y, stored := some (x, y), assignedAt := max s.now t,
                 announceAt := max s.now t + ticksPerSec } with
      nor := { s.nor with coordinate := some (s.item iFabricId, s.item iTorusW, s.item iTorusH, x, y) } }
    let s3 := s2.event .operations 28 0x81 0 (id + 2 ^ 8 * x + 2 ^ 16 * y)
    have k3 : s2.keepsBut [.way, .host, .regs, .out] s3 := keeps_State_event
    have hnor : s3.recomputeRoutes.announce.nor = s2.nor := (k3.within (L := [.way, .host, .regs, .out, .hwl])
      |>.then keeps_State_recomputeRoutes |>.then keeps_State_announce) .nor (by decide)
    obtain ⟨r, hr⟩ := s3.recomputeRoutes_hwl
    obtain ⟨ps, ha⟩ := s3.recomputeRoutes.announce_hwl
    rw [hr, show s3.hwl = s2.hwl from k3 .hwl (by decide)] at ha
    refine ⟨s3.recomputeRoutes.announce, (if_neg ?_).trans ?_, (congrArg Hwl.assigned ha :), (congrArg Hwl.nodeId ha :),
        (congrArg Hwl.x ha :),
      (congrArg Hwl.y ha :), (congrArg Nor.coordinate hnor :)⟩
    · exact not_or.2 ⟨ne_false_of_eq_true hrole, not_or.2 ⟨ne_true_of_eq_false hfree, not_or.2 ⟨ne_true_of_eq_false hagreed,
        ne_false_of_eq_true hlocked⟩⟩⟩
    · have hcoord : (s.advance t).coordinate = some (x, y) := by
        unfold State.coordinate
        rw [show (s.advance t).hwl.stored = some (x, y) from hstored]
      simp only [hcoord]
      rfl
  case announces =>
    intro s t hrole hassigned hdue
    obtain ⟨ps, hann⟩ := ((s.advance t).modHwl fun h => { h with announceAt := max s.now t + ticksPerSec }).announce_hwl
    refine ⟨_, next_of_eq (if_neg ?_), (congrArg Hwl.annSeq hann).trans ?_, congrArg Hwl.announceAt hann⟩
    · exact not_or.2 ⟨ne_false_of_eq_true hrole, not_or.2 ⟨ne_false_of_eq_true hassigned, Nat.not_lt.2 hdue⟩⟩
    · exact if_neg (ne_false_of_eq_true hassigned)
  case announced =>
    intro s l node t hup hcrc hseq hfits hflood hnode hother hnew
    subst hnode
    obtain ⟨ps, heard, hr, -⟩ := State.received_hwl (s.advance t) l
    have hmembers := State.heardAnnounce_new (s := (s.advance t).received l) (l := l) (by rw [hr]; exact hother) (by rw [hr]; exact hnew)
    have hget := Table.get_set_ne (d := none) (t := ((s.advance t).received l).hwl.members)
      (k := (BitVec.ofNat 6 (fieldAt l.payload 8 1)).toNat) (v := some ⟨BitVec.ofNat 64 (fieldAt l.payload 0 8), l.tag,
        ((s.advance t).received l).now, (List.range 4).map fun p => fieldAt l.payload 9 1 / 4 ^ p % 4, true⟩) nofun
    rw [← hmembers] at hget
    refine ⟨((s.advance t).received l).heardAnnounce l, ?_, ?_, ?_⟩
    · refine next_of_eq ((State.hwlReceive_eq (s.advance t) l 0x03 _).trans ?_)
      exact (if_neg (not_not.2 hup)).trans ((if_neg (ne_false_of_eq_true hcrc)).trans ((if_neg (not_not.2 hseq)).trans
        ((if_neg (ne_false_of_eq_true hfits)).trans (if_neg fun h => absurd (hflood.symm.trans h.1) (by decide)))))
    · unfold State.isMember
      rw [hget]
      exact Bool.or_true _
    · rw [hget, (keeps_State_received .now (by decide) : ((s.advance t).received l).now = _)]
      rfl
  case expiry =>
    intro s node t m hmember hstands hover
    have hmember' : Table.get none (s.advance t).hwl.members node.toNat = some m := hmember
    obtain ⟨r, hr⟩ := ((s.advance t).modHwl fun h =>
      { h with members := Table.set none h.members node.toNat (some { m with member := false }) }).recomputeRoutes_hwl
    refine ⟨_, ?_, (congrArg (fun h : Hwl => Table.get none h.members node.toNat) hr).trans
      (Table.get_set_ne (d := none) (v := some { m with member := false }) nofun)⟩
    show execMemberExpiry node t s = _
    simp only [execMemberExpiry, hmember']
    exact next_of_eq (if_neg (not_or.2 ⟨ne_false_of_eq_true hstands, Nat.not_lt.2 hover⟩))

end Sys2Proof.Machine

/-! # The partner's stream -/

namespace Sys2Proof.Machine

-- One theorem after the other: a thread for each would pass the memory limit of the check.
set_option Elab.async false

/-! ## The partner's stream (R368 to R375) -/

/-- The state in which the next packet of the stream is delivered: it is held, and the cut that it names is open (R369, R375). -/
def State.heldNext (s : State) (tag : BitVec 32) (b : HwlBody) : State :=
  (s.modHwl fun h => { h with heldIn := [(tag, b)] }).openCut b

/-- From `s` to `u` the fabric stands but for what taking a packet of the stream writes: ports and acknowledgements, and the counts given.
    -/
def State.streamTaken (s : State) (e : BitVec 32 × HwlBody) (u : State) : Prop :=
  ∃ ps m g, u.hwl =
    { s.hwl with ports := ps, mackSince := m, gapSince := g, expectIn := s.hwl.expectIn + 1, heldIn := s.hwl.heldIn.erase e }

/-- The next packet of the stream, with none held before it, is delivered and counted (R369). -/
theorem State.mirrorIn_delivers {s v : State} {l : HwlHeader} {b : HwlBody} (hfrom : s.fromPartner l = true) (hpaired : s.hwl.paired = true)
    (htag : l.tag = s.hwl.expectIn) (hheld : s.hwl.heldIn = [])
    (hdel : (s.heldNext l.tag b).mirrorDeliver b = some v) :
    v.streamTaken (l.tag, b) (s.mirrorIn l b) ∧ v.keepsBut [.way, .host, .limits, .regs, .out, .hwl] (s.mirrorIn l b) := by
  let s1 := s.modHwl fun h => { h with heldIn := h.heldIn ++ [(l.tag, b)] }
  have hs1 : s1 = s.modHwl fun h => { h with heldIn := [(l.tag, b)] } := by
    show ({ s with hwl := { s.hwl with heldIn := s.hwl.heldIn ++ [(l.tag, b)] } } : State) = _
    rw [hheld]
    rfl
  let v2 := v.modHwl fun h =>
    { h with expectIn := h.expectIn + 1, heldIn := h.heldIn.erase (l.tag, b), mackSince := some (h.mackSince.getD s.now) }
  let v3 := if v2.hwl.expectIn.toNat % 64 = 0 then v2.sendMack else v2
  have hdrain : s1.mirrorDrain s1.hwl.heldIn.length = v3 := by
    have hone : s1.hwl.heldIn.length = 1 := by
      rw [hs1]
      rfl
    have hfind : (s1.hwl.heldIn.find? fun e => decide (e.1 = s1.hwl.expectIn)) = some (l.tag, b) := by
      rw [hs1]
      exact List.find?_cons_of_pos (decide_eq_true htag)
    have hdel' : (s1.openCut b).mirrorDeliver b = some v := by
      rw [hs1]
      exact hdel
    rw [hone]
    unfold State.mirrorDrain
    simp only [hfind, hdel']
    rfl
  have h3 : ∃ ps m, v3.hwl =
      { v.hwl with ports := ps, mackSince := m, expectIn := v.hwl.expectIn + 1, heldIn := v.hwl.heldIn.erase (l.tag, b) } := by
    unfold v3
    split
    · obtain ⟨ps, hsend⟩ := portsOnly_hwlSend (v2.modHwl fun h => { h with mackSince := none }) (v2.partner.getD 0) 0
        (.mack (v2.hwl.expectIn - 1))
      exact ⟨ps, none, hsend⟩
    · exact ⟨v.hwl.ports, _, rfl⟩
  have k3 : v.keepsBut [.way, .host, .limits, .regs, .out, .hwl] v3 :=
    keepsBut_ite ((keeps_State_modHwl (s := v)).within |>.then keeps_State_sendMack) (keeps_State_modHwl (s := v)).within
  have hin : s.mirrorIn l b = s1.mirrorPump := by
    unfold State.mirrorIn
    rw [if_neg (not_or.2 ⟨ne_false_of_eq_true hfrom, ne_false_of_eq_true hpaired⟩), if_neg, if_neg fun h => h.1 htag]
    rw [htag, hheld]
    simp
  have hpump : ∃ g, s.mirrorIn l b = v3.modHwl fun h => { h with gapSince := g } := by
    rw [hin]
    unfold State.mirrorPump
    simp only [hdrain]
    exact ⟨_, rfl⟩
  obtain ⟨g, hg⟩ := hpump
  obtain ⟨ps, m, hv3⟩ := h3
  rw [hg]
  refine ⟨⟨ps, m, g, ?_⟩, k3.then keeps_State_modHwl⟩
  show { v3.hwl with gapSince := g } = _
  rw [hv3]

/-- What a node has noted of a packet of the stream when it is delivered (R359, R369). -/
theorem State.heldNext_from (s : State) (l : HwlHeader) (b : HwlBody) (hb : ∀ id lane, b ≠ .cut id lane) :
    (∃ ps heard, ((s.received l).heldNext l.tag b).hwl = { s.hwl with ports := ps, partnerHeard := heard, heldIn := [(l.tag, b)] }) ∧
      s.keepsBut [.regs, .out, .hwl] ((s.received l).heldNext l.tag b) := by
  obtain ⟨ps, heard, hr, -⟩ := s.received_hwl l
  have hopen : (s.received l).heldNext l.tag b = (s.received l).modHwl fun h => { h with heldIn := [(l.tag, b)] } := by
    unfold State.heldNext State.openCut
    split
    · exact absurd rfl (hb _ _)
    · rfl
  rw [hopen]
  refine ⟨⟨ps, heard, ?_⟩, keeps_State_received.then keeps_State_modHwl⟩
  show { (s.received l).hwl with heldIn := [(l.tag, b)] } = _
  rw [hr]

/-- The next packet of the stream that is no barrier is delivered in a state that differs from the one before in the fabric's ports alone.
    -/
theorem State.stream_next {s : State} {l : HwlHeader} {typ t : Nat} {b : HwlBody} (h : s.streamArrives l typ)
    (hb : ∀ id lane, b ≠ .cut id lane) : ∃ w : State,
      (∃ ps heard, w.hwl = { s.hwl with ports := ps, partnerHeard := heard, heldIn := [(l.tag, b)] }) ∧
      (s.advance t).keepsBut [.regs, .out, .hwl] w ∧ ∀ v, w.mirrorDeliver b = some v →
        ∃ u, (s.advance t).hwlReceive l typ (fun st => st.mirrorIn l b) = u ∧ v.streamTaken (l.tag, b) u ∧
          v.keepsBut [.way, .host, .limits, .regs, .out, .hwl] u := by
  obtain ⟨harrives, hfrom, hpaired, htag, hheld⟩ := h
  obtain ⟨ps, heard, hr, -⟩ := (s.advance t).received_hwl l
  obtain ⟨hhwl, hkeeps⟩ := State.heldNext_from (s.advance t) l b hb
  refine ⟨_, hhwl, hkeeps, fun v hdel => ⟨_, State.hwlReceive_arrives harrives _, ?_⟩⟩
  refine State.mirrorIn_delivers ((State.received_fromPartner (s.advance t) l).trans hfrom) ?_ ?_ ?_ hdel
  · rw [hr]
    exact hpaired
  · rw [hr]
    exact htag
  · rw [hr]
    exact hheld

theorem State.indexFor_of {s u : State} (hboot : u.boot = s.boot) (hassigned : u.hwl.assigned = s.hwl.assigned)
    (hnode : u.hwl.nodeId = s.hwl.nodeId) (hitem : ∀ i, u.item i = s.item i) (g : Gmn) : u.indexFor g = s.indexFor g := by
  unfold State.indexFor
  rw [hboot, hassigned, hnode, State.partner_of hassigned hnode (hitem _)]

/-- Whether a frame fits stands on ING's credits, the role and the assignment. -/
theorem State.frameFits_assigned {s u : State} (hing : u.ing = s.ing) (hboot : u.boot = s.boot)
    (hassigned : u.hwl.assigned = s.hwl.assigned) (f : Frame) : u.frameFits f = s.frameFits f := by
  unfold State.frameFits State.creditsFor
  rw [hing, hboot, hassigned]

theorem State.mirrorFrame_of {s u : State} (hcyc : u.cyc = s.cyc) (htim : u.tim = s.tim)
    (r : Record) : u.mirrorFrame r = s.mirrorFrame r := by
  unfold State.mirrorFrame
  rw [hcyc, htim]

/-- What a work that comes back in the stream leaves of the requests of this node for it (R373). -/
theorem State.seqReturned_hwl (s : State) (w : SeqWork) : ∃ a, (s.seqReturned w).hwl = { s.hwl with seqAsked := a } := by
  unfold State.seqReturned
  split
  · exact ⟨s.hwl.seqAsked, rfl⟩
  · exact ⟨_, keeps_State_finishJob .hwl (by decide)⟩

/-- The state in which a work of the stream that has come back is no longer asked for. -/
def State.workBack (s : State) : Option SeqWork → State
  | some x => s.seqReturned x
  | none => s

theorem State.workBack_from (s : State) (w : Option SeqWork) :
    (∃ a, (s.workBack w).hwl = { s.hwl with seqAsked := a }) ∧ s.keepsBut [.host, .regs, .hwl] (s.workBack w) := by
  cases w with
  | none => exact ⟨⟨s.hwl.seqAsked, rfl⟩, keepsBut_refl _ _⟩
  | some x => exact ⟨s.seqReturned_hwl x, keeps_State_seqReturned⟩

/-- An operation of the stream takes the next ticket of its meter's lane (R373). -/
theorem State.streamOp_inner {s : State} {g : Gmn} {i : Nat} (o : CtxOp) (w : Option SeqWork) (h : s.indexFor g = some i) :
    (s.streamOp g o w).ing.inner = s.ing.inner ++ [⟨s.ing.ticket, [], .op o (laneOf i)⟩] ∧
      ∃ a, (s.streamOp g o w).hwl = { s.hwl with seqAsked := a } := by
  obtain ⟨⟨a, ha⟩, k⟩ := s.workBack_from w
  have hi : (s.workBack w).indexFor g = some i := (State.indexFor_of (k .boot (by decide)) (congrArg Hwl.assigned ha :)
    (congrArg Hwl.nodeId ha :) (fun j => k.item j) g).trans h
  have hop : s.streamOp g o w = (s.workBack w).queueOp (laneOf i) o := by
    unfold State.streamOp
    cases w with
    | none => simp only [show s.indexFor g = some i from hi]; rfl
    | some x => simp only [show (s.seqReturned x).indexFor g = some i from hi]; rfl
  have hing : (s.workBack w).ing = s.ing := k .ing (by decide)
  rw [hop]
  refine ⟨?_, a, ha⟩
  show (s.workBack w).ing.inner ++ [⟨(s.workBack w).ing.ticket, [], .op o (laneOf i)⟩] = _
  rw [hing]

theorem State.streamTaken.expectIn {v u : State} {e : BitVec 32 × HwlBody} (h : v.streamTaken e u) :
    u.hwl.expectIn = v.hwl.expectIn + 1 := by
  obtain ⟨ps, m, g, hu⟩ := h
  exact (congrArg Hwl.expectIn hu :)

/-- An operation of the stream is delivered into its meter's lane (R373). -/
theorem State.stream_op {s : State} {l : HwlHeader} {typ t i : Nat} {b : HwlBody} {g : Gmn} {o : CtxOp} {w : Option SeqWork}
    (h : s.streamArrives l typ) (hb : ∀ id lane, b ≠ .cut id lane) (hi : s.indexFor g = some i)
    (hdel : ∀ v : State, v.mirrorDeliver b = some (v.streamOp g o w)) :
    ∃ u, (s.advance t).hwlReceive l typ (fun st => st.mirrorIn l b) = u ∧ u.hwl.expectIn = s.hwl.expectIn + 1 ∧
      u.ing.inner = s.ing.inner ++ [⟨s.ing.ticket, [], .op o (laneOf i)⟩] := by
  obtain ⟨w', ⟨ps, heard, hw⟩, kw, hnext⟩ := State.stream_next (t := t) h hb
  have hi' : w'.indexFor g = some i := (State.indexFor_of (s := s) (kw .boot (by decide)) (congrArg Hwl.assigned hw :)
    (congrArg Hwl.nodeId hw :) (fun j => kw.item j) g).trans hi
  obtain ⟨hinner, a, ha⟩ := State.streamOp_inner o w hi'
  obtain ⟨u, hu, htaken, k⟩ := hnext _ (hdel w')
  refine ⟨u, hu, ?_, ?_⟩
  · rw [htaken.expectIn, ha, hw]
  · rw [k .ing (by decide), hinner, kw .ing (by decide)]
    rfl

/-- The cut that a barrier of the stream names is open when it is delivered (R375). -/
theorem State.openCut_opens (s : State) (id lane : Nat) :
    ((s.openCut (.cut id lane)).cutOf id (s.partner.getD 0)).isSome = true ∧
      ∃ cs, (s.openCut (.cut id lane)).hwl = { s.hwl with cuts := cs } := by
  unfold State.openCut
  dsimp only
  split
  · rename_i hany
    obtain ⟨c, hmem, hc⟩ := List.any_eq_true.1 hany
    exact ⟨List.find?_isSome.2 ⟨c, hmem, hc⟩, s.hwl.cuts, rfl⟩
  · have hlate : (if (s.hwl.cuts.any fun c => decide (c.range = s.partner.getD 0)) = true then
        s.note cHwlDigestLate .operations .second 0 id else s).hwl = s.hwl := by
      split
      · exact keeps_State_note .hwl (by decide)
      · rfl
    refine ⟨List.find?_isSome.2 ⟨⟨id, s.partner.getD 0, 0, false, [], [], [], []⟩, List.mem_append_right _ List.mem_cons_self, by simp⟩, ?_⟩
    generalize (if (s.hwl.cuts.any fun c => decide (c.range = s.partner.getD 0)) = true then
        s.note cHwlDigestLate .operations .second 0 id else s) = s1 at hlate ⊢
    rw [← hlate]
    exact ⟨_, rfl⟩

theorem State.mirrorDeliver_mrec {w : State} {r : Record} (h : w.frameFits (w.mirrorFrame r) = true) :
    w.mirrorDeliver (.mrec r) = some (w.ingestFrame (w.mirrorFrame r)) := by
  unfold State.mirrorDeliver
  simp only [h, if_true]

/-- A feeder record of the stream reaches BAL and Fuller (R368). -/
theorem State.mirrorDeliver_mfeed {w : State} {f : FeederRecord} (h : w.bal.queue.length < 4096) :
    w.mirrorDeliver (.mfeed f) = some
      (({ w with bal := { w.bal with queue := w.bal.queue ++ [.feeder f none] } } : State).toFuller (.feeder f none)) := by
  have hto : w.toBal (.feeder f none) = { w with bal := { w.bal with queue := w.bal.queue ++ [.feeder f none] } } := if_neg (by omega)
  unfold State.mirrorDeliver State.feederArrived
  simp only [hto, Bool.true_eq_false, false_and, and_false, if_false, if_true]

/-- A whole state in one part enters its meter's lane at once (R374). -/
theorem State.syncPart_whole (s : State) (g : Gmn) (reason : Nat) (data : List Byte) : s.syncPart g reason 0 1 data =
    (s.modHwl fun h => { h with syncParts := s.hwl.syncParts.filter fun x => decide (x.gmn ≠ g) }).streamOp g
      (.sync g reason (withMirrored Context.empty (data.take 184)) (slotOfBytes (data.drop 184)) []) none := by
  unfold State.syncPart
  rfl

/-- Settles O39. -/
theorem streamIsTakenInOrder : Obligations.StreamIsTakenInOrder := by
  unfold Obligations.StreamIsTakenInOrder
  refine ⟨?record, ?estimate, ?feeder, ?legal, ?context, ?barrier, ?whole, ?back⟩
  case record =>
    intro s l t harrives hfits hlen
    obtain ⟨w, ⟨ps, heard, hw⟩, kw, hnext⟩ := State.stream_next (t := t) (b := .mrec (recordOf l.payload)) harrives nofun
    have hframe : w.mirrorFrame (recordOf l.payload) = s.mirrorFrame (recordOf l.payload) :=
      State.mirrorFrame_of (kw .cyc (by decide)) (kw .tim (by decide)) _
    have hing : w.ing = s.ing := kw .ing (by decide)
    have hfits' : w.frameFits (w.mirrorFrame (recordOf l.payload)) = true := by
      rw [hframe, State.frameFits_assigned (s := s) hing (kw .boot (by decide)) (congrArg Hwl.assigned hw :)]
      exact hfits
    obtain ⟨u, hu, htaken, k⟩ := hnext _ (State.mirrorDeliver_mrec hfits')
    refine ⟨u, next_of_eq hu, ?_, ?_⟩
    · rw [htaken.expectIn, keeps_State_ingestFrame .hwl (by decide), hw]
    · have hfifo : (w.ingestFrame (w.mirrorFrame (recordOf l.payload))).fifo 9 = _ := State.ingestFrame_fifo hfits'
        (by rw [hing]; exact hlen)
      unfold State.fifo at hfifo ⊢
      rw [k .ing (by decide), hfifo, hframe, hing]
      rfl
  case estimate =>
    intro s l t i harrives hi
    obtain ⟨w, ⟨ps, heard, hw⟩, kw, hnext⟩ := State.stream_next (t := t) (b := .mest (recordOf l.payload)) harrives nofun
    have hi' : w.indexFor (recordOf l.payload).gmn = some i := (State.indexFor_of (s := s) (kw .boot (by decide))
        (congrArg Hwl.assigned hw :)
      (congrArg Hwl.nodeId hw :) (fun j => kw.item j) _).trans hi
    obtain ⟨u, hu, ⟨qs, m, g, hhwl⟩, -⟩ := hnext (w.modHwl fun h => { h with mests := Table.set none h.mests i (some
        (recordOf l.payload)) }) (by
      unfold State.mirrorDeliver
      simp only [hi'])
    refine ⟨u, next_of_eq hu, ?_, ?_⟩
    · refine (congrArg Hwl.expectIn hhwl).trans ?_
      show w.hwl.expectIn + 1 = _
      rw [hw]
    · exact (congrArg (fun h : Hwl => Table.get none h.mests i) hhwl).trans
        (Table.get_set_ne (d := none) (v := some (recordOf l.payload)) nofun)
  case feeder =>
    intro s l t harrives hroom hon
    obtain ⟨w, ⟨ps, heard, hw⟩, kw, hnext⟩ := State.stream_next (t := t) (b := .mfeed (feederOf l.payload)) harrives nofun
    have hbal : w.bal = s.bal := kw .bal (by decide)
    have hful : w.ful = s.ful := kw .ful (by decide)
    obtain ⟨u, hu, htaken, k⟩ := hnext _ (State.mirrorDeliver_mfeed (by rw [hbal]; exact hroom))
    refine ⟨u, next_of_eq hu, ?_, ?_, ?_⟩
    · rw [htaken.expectIn]
      show w.hwl.expectIn + 1 = _
      rw [hw]
    · rw [k .ful (by decide)]
      show w.ful.queue ++ _ = _
      rw [hful]
    · rw [k .bal (by decide)]
      show w.bal.queue ++ _ = _
      rw [hbal]
  case legal =>
    intro s l g op t i harrives hi
    obtain ⟨u, hu, hnext, hinner⟩ := State.stream_op (t := t) (b := .mjob g op) harrives nofun hi fun v => rfl
    exact ⟨u, next_of_eq hu, hnext, hinner⟩
  case context =>
    intro s l j g t i harrives hg hi
    obtain ⟨u, hu, hnext, hinner⟩ := State.stream_op (t := t) (b := .mctx j) harrives nofun hi fun v => by
      unfold State.mirrorDeliver
      simp only [hg]
      rfl
    exact ⟨u, next_of_eq hu, hnext, hinner⟩
  case barrier =>
    intro s l lane t harrives hlane
    obtain ⟨hpacket, hfrom, hpaired, htag, hheld⟩ := harrives
    obtain ⟨ps, heard, hr, -⟩ := (s.advance t).received_hwl l
    let id := fieldAt l.payload 0 4
    let w0 := ((s.advance t).received l).modHwl fun h => { h with heldIn := [(l.tag, .cut id (fieldAt l.payload 4 1 % 4))] }
    have hw0 : w0.hwl = { s.hwl with ports := ps, partnerHeard := heard, heldIn := [(l.tag, .cut id (fieldAt l.payload 4 1 % 4))] } := by
      show { ((s.advance t).received l).hwl with heldIn := [(l.tag, .cut id (fieldAt l.payload 4 1 % 4))] } = _
      rw [hr]
      rfl
    have k0 : (s.advance t).keepsBut [.regs, .out, .hwl] w0 := keeps_State_received.then keeps_State_modHwl
    have hpartner0 : w0.partner = s.partner := State.partner_of (congrArg Hwl.assigned hw0 :) (congrArg Hwl.nodeId hw0 :) (k0.item _)
    obtain ⟨hcut, cs, hcs⟩ := w0.openCut_opens id (fieldAt l.payload 4 1 % 4)
    generalize hw : w0.openCut (.cut id (fieldAt l.payload 4 1 % 4)) = w at hcut hcs
    have hwl : w.hwl = { s.hwl with ports := ps, partnerHeard := heard, heldIn := [(l.tag, .cut id
        (fieldAt l.payload 4 1 % 4))], cuts := cs } := by
      rw [hcs, hw0]
    have kw : (s.advance t).keepsBut [.way, .host, .limits, .regs, .out, .hwl] w := by
      rw [← hw]
      exact k0.within |>.then keeps_State_openCut
    have hpartner : w.partner = s.partner := State.partner_of (congrArg Hwl.assigned hwl :) (congrArg Hwl.nodeId hwl :) (kw.item _)
    have hing : w.ing = s.ing := kw .ing (by decide)
    obtain ⟨htaken, k⟩ := State.mirrorIn_delivers (s := (s.advance t).received l) (l := l)
      (v := w.queueOp lane (.barrier id (s.partner.getD 0))) (b := .cut id (fieldAt l.payload 4 1 % 4))
      ((State.received_fromPartner (s.advance t) l).trans hfrom) (by rw [hr]; exact hpaired) (by rw [hr]; exact htag)
          (by rw [hr]; exact hheld) (by
        have hfin : (⟨fieldAt l.payload 4 1 % 4 % 4, Nat.mod_lt _ (by decide)⟩ : Fin 4) = lane := Fin.ext (by
          show fieldAt l.payload 4 1 % 4 % 4 = lane.val
          omega)
        rw [show State.heldNext _ _ _ = w from hw, ← hpartner, ← hfin]
        rfl)
    refine ⟨_, next_of_eq (State.hwlReceive_arrives hpacket _), ?_, ?_, ?_⟩
    · refine htaken.expectIn.trans ?_
      show w.hwl.expectIn + 1 = _
      rw [hwl]
    · obtain ⟨qs, m, g, hu⟩ := htaken
      unfold State.cutOf
      rw [show (State.mirrorIn _ _ _).hwl.cuts = w.hwl.cuts from (congrArg Hwl.cuts hu :), ← hpartner0]
      exact hcut
    · rw [k .ing (by decide)]
      show w.ing.inner ++ [⟨w.ing.ticket, [], _⟩] = _
      rw [hing]
  case whole =>
    intro s l g data t i harrives hg hfirst hparts hi hdata
    subst hg hdata
    obtain ⟨w, ⟨ps, heard, hw⟩, kw, hnext⟩ := State.stream_next (t := t)
      (b := .msync (BitVec.ofNat 20 (fieldAt l.payload 0 4)) (fieldAt l.payload 2 1 / 16) 0 1 (l.payload.drop 8)) harrives nofun
    let others := w.hwl.syncParts.filter fun x => decide (x.gmn ≠ BitVec.ofNat 20 (fieldAt l.payload 0 4))
    have hi' : (w.modHwl fun h => { h with syncParts := others }).indexFor (BitVec.ofNat 20 (fieldAt l.payload 0 4)) = some i :=
      (State.indexFor_of (s := s) (kw .boot (by decide)) (congrArg Hwl.assigned hw :) (congrArg Hwl.nodeId hw :)
          (fun j => kw.item j) _).trans hi
    obtain ⟨hinner, a, ha⟩ := State.streamOp_inner (.sync (BitVec.ofNat 20 (fieldAt l.payload 0 4)) (fieldAt l.payload 2 1 / 16)
      (withMirrored Context.empty ((l.payload.drop 8).take 184)) (slotOfBytes ((l.payload.drop 8).drop 184)) []) none hi'
    obtain ⟨u, hu, htaken, k⟩ := hnext _ (congrArg some (State.syncPart_whole w _ _ _))
    refine ⟨u, next_of_eq ?_, ?_, ?_⟩
    · rw [← hu, hfirst, hparts]
    · rw [htaken.expectIn, ha]
      show w.hwl.expectIn + 1 = _
      rw [hw]
    · rw [k .ing (by decide), hinner]
      show w.ing.inner ++ [⟨w.ing.ticket, [], _⟩] = _
      rw [kw .ing (by decide)]
      rfl
  case back =>
    intro s l t harrives hlost
    obtain ⟨w, ⟨ps, heard, hw⟩, kw, hnext⟩ := State.stream_next (t := t) (b := .handback) harrives nofun
    have hback : w.handback.hwl = { w.hwl with ownRange := true, syncing := false } := by
      unfold State.handback
      rw [if_neg (by rw [hw]; exact ne_true_of_eq_false hlost)]
      exact (keeps_State_event .hwl (by decide)).trans
        ((keeps_State_bump.within (L := [.regs, .out]) |>.then keeps_State_raiseInt) .hwl (by decide))
    obtain ⟨u, hu, ⟨qs, m, g, hhwl⟩, -⟩ := hnext _ rfl
    rw [hback, hw] at hhwl
    exact ⟨u, next_of_eq hu, (congrArg Hwl.expectIn hhwl :), (congrArg Hwl.ownRange hhwl :), (congrArg Hwl.syncing hhwl :)⟩

end Sys2Proof.Machine

/-! # Ways out and the stream -/

namespace Sys2Proof.Machine

-- One theorem after the other: a thread for each would pass the memory limit of the check.
set_option Elab.async false

/-! ## What a packet's way out stands on (R356 to R359) -/

/-- In `u` a packet to a node finds the way that it finds in `s`. -/
structure State.sendsAs (s u : State) : Prop where
  routes : u.hwl.routes = s.hwl.routes
  node : u.hwl.nodeId = s.hwl.nodeId
  x : u.hwl.x = s.hwl.x
  y : u.hwl.y = s.hwl.y
  item : ∀ i, u.item i = s.item i
  state : ∀ p, (u.hport p).state = (s.hport p).state
  waiting : ∀ p, (u.hport p).waiting = (s.hport p).waiting
  replay : ∀ p, (u.hport p).replay = (s.hport p).replay
  credits : ∀ p, (u.hport p).credits = (s.hport p).credits
  next : ∀ p, (u.hport p).nextTx = (s.hport p).nextTx

theorem State.sendsAs.then {s v u : State} (h : s.sendsAs v) (g : v.sendsAs u) : s.sendsAs u where
  routes := g.routes.trans h.routes
  node := g.node.trans h.node
  x := g.x.trans h.x
  y := g.y.trans h.y
  item i := (g.item i).trans (h.item i)
  state p := (g.state p).trans (h.state p)
  waiting p := (g.waiting p).trans (h.waiting p)
  replay p := (g.replay p).trans (h.replay p)
  credits p := (g.credits p).trans (h.credits p)
  next p := (g.next p).trans (h.next p)

/-- The way stands where the ports, the routes, the place and the items stand. -/
theorem sendsAs_of {s u : State} (hports : u.hwl.ports = s.hwl.ports) (hroutes : u.hwl.routes = s.hwl.routes)
    (hnode : u.hwl.nodeId = s.hwl.nodeId) (hx : u.hwl.x = s.hwl.x) (hy : u.hwl.y = s.hwl.y) (hitem : ∀ i, u.item i = s.item i) :
    s.sendsAs u where
  routes := hroutes
  node := hnode
  x := hx
  y := hy
  item := hitem
  state p := congrArg HwlPort.state (State.hport_of hports p)
  waiting p := congrArg HwlPort.waiting (State.hport_of hports p)
  replay p := congrArg HwlPort.replay (State.hport_of hports p)
  credits p := congrArg HwlPort.credits (State.hport_of hports p)
  next p := congrArg HwlPort.nextTx (State.hport_of hports p)

theorem State.keepsBut.sendsAs {A : List Part} {s u : State} (h : s.keepsBut A u) (hhwl : Part.hwl ∉ A := by decide)
    (hitem : Part.cfg ∉ A ∧ Part.boot ∉ A ∧ Part.sec ∉ A := by decide) : s.sendsAs u := by
  have heq : u.hwl = s.hwl := h .hwl hhwl
  exact sendsAs_of (congrArg Hwl.ports heq) (congrArg Hwl.routes heq) (congrArg Hwl.nodeId heq) (congrArg Hwl.x heq) (congrArg Hwl.y heq)
    fun i => congrArg leNat (State.itemBytes_of (h .cfg hitem.1) (congrArg Boot.headEnd (h .boot hitem.2.1))
      (congrArg Sec.fuses (h .sec hitem.2.2)) i)

/-- A port may note what it has received without a change of the way out. -/
theorem sendsAs_setHport {s : State} {p : Nat} {v : HwlPort} (hstate : v.state = (s.hport p).state)
    (hwaiting : v.waiting = (s.hport p).waiting) (hreplay : v.replay = (s.hport p).replay) (hcredits : v.credits = (s.hport p).credits)
    (hnext : v.nextTx = (s.hport p).nextTx) : s.sendsAs (s.setHport p v) := by
  have hport {α : Type} (f : HwlPort → α) (hv : f v = f (s.hport p)) (q : Nat) : f ((s.setHport p v).hport q) = f (s.hport q) := by
    rw [State.hport_setHport]
    split
    · rename_i hq
      rw [hv, hq.1]
    · rfl
  exact ⟨rfl, rfl, rfl, rfl, fun _ => rfl, hport _ hstate, hport _ hwaiting, hport _ hreplay, hport _ hcredits, hport _ hnext⟩

theorem State.sendsAs.routeTo {s u : State} (h : s.sendsAs u) (d : Nat) : u.routeTo d = s.routeTo d := by
  unfold State.routeTo
  rw [h.routes]

theorem State.sendsAs.hopClass {s u : State} (h : s.sendsAs u) (p cls : Nat) (diverted turn : Bool) :
    u.hopClass p cls diverted turn = s.hopClass p cls diverted turn := by
  unfold State.hopClass State.wraps
  rw [h.x, h.y, h.item, h.item]

theorem State.sendsAs.openTo {s u : State} {d : Nat} {b : HwlBody} (h : s.sendsAs u) (hopen : s.openTo d b) : u.openTo d b := by
  unfold State.openTo State.outPort HwlPort.credit at *
  rw [h.routeTo, h.state, h.waiting, h.replay, h.credits, h.hopClass]
  exact hopen

theorem State.sendsAs.packetTo {s u : State} (h : s.sendsAs u) (d : Nat) (tag : BitVec 32) (b : HwlBody) :
    u.packetTo d tag b = s.packetTo d tag b := by
  unfold State.packetTo State.outPort
  rw [h.routeTo, h.next, h.hopClass, h.node]

theorem sendsAs_sendAckWord (s : State) (p : Nat) : s.sendsAs (s.sendAckWord p) := by
  unfold State.sendAckWord
  extract_lets v
  have h1 : s.sendsAs (s.setHport p { v with ackSince := none, unacked := 0 }) := sendsAs_setHport rfl rfl rfl rfl rfl
  exact h1.then keeps_State_word.sendsAs

/-- A packet that is taken leaves the way out as it was. -/
theorem sendsAs_received (s : State) (l : HwlHeader) : s.sendsAs (s.received l) := by
  unfold State.received
  extract_lets p v v1 s1 s2
  have hset : s.sendsAs (s.setHport p v1) := sendsAs_setHport rfl rfl rfl rfl rfl
  have h1 : s.sendsAs s1 := hset.then
    (keeps_State_bump.within (L := [.regs, .out]) |>.then keeps_State_word).sendsAs
  have h2 : s.sendsAs s2 := by
    unfold s2
    split
    · exact h1.then (sendsAs_sendAckWord s1 p)
    · exact h1
  split
  · exact h2.then (sendsAs_of rfl rfl rfl rfl rfl fun _ => rfl)
  · exact h2

/-! ## The stream's window (R369, R370) -/

/-- What an acknowledgement of the stream leaves (R370). -/
theorem State.mirrorAck_hwl (s : State) (m : BitVec 32) : ∃ held mis syncing, (s.mirrorAck m).hwl =
    { s.hwl with
      mseqAcked := m
      window := s.hwl.window.filter fun e => !decide ((m - e.1).toNat < 2 ^ 31)
      heldReports := held
      mismatch := mis
      syncing := syncing } := by
  unfold State.mirrorAck
  extract_lets acked go settled s1 s2
  have h2 : s2.hwl = s1.hwl := (keeps_State_sendHeld.within (L := [.host, .regs, .readings]) |>.then keeps_State_flushReadings) .hwl
      (by decide)
  split
  · refine ⟨s1.hwl.heldReports, s1.hwl.mismatch, false, ((keeps_State_bump.within (L := [.regs, .out]) |>.then keeps_State_raiseInt) .hwl
      (by decide)).trans ?_⟩
    show { s2.hwl with syncing := false } = _
    rw [h2]
    rfl
  · exact ⟨s1.hwl.heldReports, s1.hwl.mismatch, s1.hwl.syncing, h2⟩

theorem State.streamNext_mirroring {s : State} {b : HwlBody} (h : s.mirroring = true) :
    (s.streamNext b).mirroring = true ∧ (s.streamNext b).hwl.mseqOut = s.hwl.mseqOut + 1 ∧
      (s.streamNext b).hwl.window = s.hwl.window ++ [(s.hwl.mseqOut, b)] := by
  unfold State.streamNext
  extract_lets m h0 s1
  rw [if_neg (ne_false_of_eq_true h)]
  have k : s1.keepsBut [.way, .host, .limits, .regs, .out, .hwl] ((s1.hwlSend (s.partner.getD 0) m b).bump cHwlMirrorOut) :=
    keeps_State_hwlSend.within |>.then keeps_State_bump
  obtain ⟨ps, hsend⟩ := portsOnly_hwlSend s1 (s.partner.getD 0) m b
  have hhwl : ((s1.hwlSend (s.partner.getD 0) m b).bump cHwlMirrorOut).hwl = { s1.hwl with ports := ps } :=
    (keeps_State_bump .hwl (by decide)).trans hsend
  refine ⟨?_, (congrArg Hwl.mseqOut hhwl :), (congrArg Hwl.window hhwl :)⟩
  unfold State.mirroring
  rw [hhwl, k .boot (by decide)]
  exact h

/-- Bodies that enter the stream take its next numbers and stay in its window (R369). -/
theorem State.streamNexts {s : State} (l : List HwlBody) (h : s.mirroring = true) :
    (l.foldl State.streamNext s).hwl.mseqOut = s.hwl.mseqOut + BitVec.ofNat 32 l.length ∧
      (l.foldl State.streamNext s).hwl.window.map Prod.snd = s.hwl.window.map Prod.snd ++ l := by
  induction l generalizing s with
  | nil => exact ⟨(BitVec.add_zero _).symm, (List.append_nil _).symm⟩
  | cons b l ih =>
    obtain ⟨hstill, hnext, hwindow⟩ := State.streamNext_mirroring (b := b) h
    obtain ⟨hout, hall⟩ := ih hstill
    refine ⟨?_, ?_⟩
    · rw [List.foldl_cons, hout, hnext, List.length_cons, BitVec.add_assoc, Nat.add_comm l.length 1, BitVec.ofNat_add]
      rfl
    · rw [List.foldl_cons, hall, hwindow, List.map_append, List.append_assoc]
      rfl

/-! ## Cuts and digests (R375 to R377) -/

theorem State.cutOf_named {s : State} {id range : Nat} {c : Cut} (h : s.cutOf id range = some c) : c.cutId = id ∧ c.range = range := by
  have hfound := List.find?_some h
  exact of_decide_eq_true hfound

/-- A cut that is written is found as it was written. -/
theorem State.setCut_cutOf {s : State} {c c1 : Cut} (h : s.cutOf c1.cutId c1.range = some c) :
    (s.setCut c1).cutOf c1.cutId c1.range = some c1 := by
  unfold State.cutOf State.setCut at *
  generalize s.hwl.cuts = cs at h ⊢
  induction cs with
  | nil => exact absurd h nofun
  | cons x cs ih =>
    rw [List.map_cons]
    by_cases hx : x.cutId = c1.cutId ∧ x.range = c1.range
    · rw [if_pos hx]
      exact List.find?_cons_of_pos (decide_eq_true ⟨rfl, rfl⟩)
    · have hpass : ¬ decide (x.cutId = c1.cutId ∧ x.range = c1.range) = true := fun h => hx (of_decide_eq_true h)
      rw [List.find?_cons_of_neg (p := fun y : Cut => decide (y.cutId = c1.cutId ∧ y.range = c1.range)) hpass] at h
      rw [if_neg hx, List.find?_cons_of_neg (p := fun y : Cut => decide (y.cutId = c1.cutId ∧ y.range = c1.range)) hpass]
      exact ih h

theorem State.cutCompared_cutOf (s : State) (id range : Nat) : (s.cutCompared id range).cutOf id range = none := by
  refine List.find?_eq_none.2 fun c hc hnamed => ?_
  have hout := of_decide_eq_true (List.mem_filter.1 hc).2
  obtain ⟨hid, hrange⟩ := of_decide_eq_true hnamed
  exact hout.elim (absurd hid) (absurd hrange)

theorem shaBlocks_length (n : Nat) (h : List Nat) (bs : List Byte) (hlen : h.length = 8) : (shaBlocks n h bs).length = 8 := by
  induction n generalizing h bs with
  | zero => exact hlen
  | succ n ih =>
    refine ih _ _ ?_
    unfold shaBlock
    simp [hlen]

theorem beBytes_length (n x : Nat) : (beBytes n x).length = n := by
  induction n generalizing x with
  | zero => rfl
  | succ n ih => exact congrArg (· + 1) (ih x)

theorem sha512Bytes_length (bs : List Byte) : (sha512Bytes bs).length = 64 := by
  unfold sha512Bytes
  extract_lets p
  have hwords := shaBlocks_length (p.length / 128) shaInit p rfl
  generalize shaBlocks (p.length / 128) shaInit p = ws at hwords
  rw [List.length_flatMap, List.map_congr_left fun w _ => beBytes_length 8 w, List.map_const', hwords]
  rfl

end Sys2Proof.Machine

/-! # Meters that differ -/

namespace Sys2Proof.Machine

-- One theorem after the other: a thread for each would pass the memory limit of the check.
set_option Elab.async false

/-! ## What has gone out stays sent -/

/-- From `s` to `u` nothing that has gone out is lost. -/
def State.outKept (s u : State) : Prop := ∀ e, e ∈ s.out → e ∈ u.out

theorem State.outKept.then {s v u : State} (h : s.outKept v) (g : v.outKept u) : s.outKept u := fun e he => g e (h e he)

theorem State.keepsBut.outKept {A : List Part} {s u : State} (h : s.keepsBut A u) (sub : Part.out ∉ A := by decide) : s.outKept u :=
  fun e he => by
    rw [h .out sub]
    exact he

theorem outKept_hwlTransmit (s : State) (p : Nat) (k : HwlPacket) : s.outKept (s.hwlTransmit p k) := by
  intro e he
  unfold State.hwlTransmit
  extract_lets v v1
  rw [keeps_State_bump .out (by decide)]
  exact List.mem_cons_of_mem _ he

theorem outKept_hwlPump (n : Nat) (s : State) (p : Nat) : s.outKept (s.hwlPump p n) := by
  induction n generalizing s with
  | zero => exact keeps_State_noteStall.outKept
  | succ n ih =>
    unfold State.hwlPump
    split
    · exact keeps_State_noteStall.outKept
    · exact (outKept_hwlTransmit s p _).then (ih _)

/-- A packet for a node that can be reached costs nothing that has gone out. -/
theorem State.hwlSend_outKept {s : State} {d : Nat} (tag : BitVec 32) (b : HwlBody) (h : (s.routeTo d).reachable = true) :
    s.outKept (s.hwlSend d tag b) := by
  unfold State.hwlSend
  extract_lets r
  rw [if_neg (ne_false_of_eq_true h)]
  unfold State.hwlQueue
  extract_lets v s1
  exact (keeps_State_setHport.outKept : s.outKept s1).then (outKept_hwlPump _ s1 _)

/-! ## Meters that differ (R377) -/

/-- One meter that differs is marked once, and reported (R377). -/
def State.markOne (s : State) (base id k : Nat) : State :=
  let i := base + k % 16384
  let s1 : State := { s with hwl := { s.hwl with mismatch := if i ∈ s.hwl.mismatch then s.hwl.mismatch else s.hwl.mismatch ++ [i] } }
  ((s1.note cHwlDigestMismatch .operations .second 0 ((s.ctxAt i).gmn.toNat)).raiseInt 0x1C0004 4).reportOut
    (.alarm 2 (s.ctxAt i).gmn.toNat id)

theorem State.markOne_hwl (s : State) (base id k : Nat) : (s.markOne base id k).hwl =
    { s.hwl with
      mismatch := if base + k % 16384 ∈ s.hwl.mismatch then s.hwl.mismatch else s.hwl.mismatch ++ [base + k % 16384] } := by
  unfold State.markOne
  extract_lets i h s1
  exact (keeps_State_note.within (L := [.way, .host, .limits, .regs, .out]) |>.then keeps_State_raiseInt
    |>.then keeps_State_reportOut) .hwl (by decide)

theorem State.markMismatch_eq (s : State) (id range : Nat) (slots : List Nat) : s.markMismatch id range slots =
    slots.foldl (fun st k => st.markOne (if range = s.hwl.nodeId.toNat then 0 else 16384) id k) s := rfl

/-- The meters that differ in a cut are marked, and none is forgotten. -/
theorem State.markMismatch_hwl (s : State) (id range : Nat) (slots : List Nat) :
    ∃ mis, (s.markMismatch id range slots).hwl = { s.hwl with mismatch := mis } ∧ (∀ i, i ∈ s.hwl.mismatch → i ∈ mis) ∧
      ∀ k, k ∈ slots → (if range = s.hwl.nodeId.toNat then 0 else 16384) + k % 16384 ∈ mis := by
  rw [State.markMismatch_eq]
  generalize (if range = s.hwl.nodeId.toNat then 0 else 16384) = base
  induction slots generalizing s with
  | nil => exact ⟨s.hwl.mismatch, rfl, fun _ h => h, nofun⟩
  | cons k slots ih =>
    have h1 := s.markOne_hwl base id k
    obtain ⟨mis, hmis, hkept, hmarked⟩ := ih (s.markOne base id k)
    rw [h1] at hmis hkept
    refine ⟨mis, hmis, fun j hj => hkept j ?_, fun j hj => ?_⟩
    · dsimp only
      split
      · exact hj
      · exact List.mem_append_left _ hj
    · rcases List.mem_cons.1 hj with rfl | hrest
      · refine hkept _ ?_
        dsimp only
        split
        · assumption
        · exact List.mem_append_right _ List.mem_cons_self
      · exact hmarked j hrest

theorem portsOnly_sendResult (s : State) (id range : Nat) (slots : List Nat) : s.portsOnly (s.sendResult id range slots) := by
  unfold State.sendResult
  exact portsOnly_foldl (fun u k => portsOnly_hwlSend u _ 0 _) (portsOnly_refl s)

theorem State.portsOnly.cutOf {s u : State} (h : s.portsOnly u) (id range : Nat) : u.cutOf id range = s.cutOf id range := by
  obtain ⟨ps, hu⟩ := h
  unfold State.cutOf
  rw [hu]

theorem State.heldIndex_of {s u : State} (hindex : ∀ g, u.indexFor g = s.indexFor g) (hctx : u.ctx = s.ctx) (g : Gmn) :
    u.heldIndex g = s.heldIndex g := by
  have hat (i : Nat) : u.ctxAt i = s.ctxAt i := State.ctxAt_of hctx i
  unfold State.heldIndex
  rw [hindex]
  simp only [hat]

/-- What a packet that is taken leaves of the contexts, the role and the pairing. -/
theorem State.received_heldIndex (s : State) (l : HwlHeader) (g : Gmn) : (s.received l).heldIndex g = s.heldIndex g := by
  obtain ⟨ps, heard, hr, -⟩ := s.received_hwl l
  have k : s.keepsBut [.regs, .out, .hwl] (s.received l) := keeps_State_received
  exact State.heldIndex_of (State.indexFor_of (k .boot (by decide)) (congrArg Hwl.assigned hr :)
      (congrArg Hwl.nodeId hr :) fun i => k.item i)
    (k .ctx (by decide)) g

theorem State.received_partner (s : State) (l : HwlHeader) : (s.received l).partner = s.partner := by
  obtain ⟨ps, heard, hr, -⟩ := s.received_hwl l
  exact State.partner_of (congrArg Hwl.assigned hr :) (congrArg Hwl.nodeId hr :) (keeps_State_received.item _)

theorem State.syncBodies_of {s u : State} (hctx : u.ctx = s.ctx) (hbil : u.bil = s.bil) (i reason : Nat) :
    u.syncBodies i reason = s.syncBodies i reason := by
  unfold State.syncBodies State.slotAt State.closedOf
  rw [State.ctxAt_of hctx, hbil]

/-- A digest carries 64 bytes for each meter or block (R376). -/
theorem digest_units (id range first : Nat) (ds : List (List Byte)) (hlen : ∀ d, d ∈ ds → d.length = 64) (hmany : ds.length ≤ 63) :
    (16 + (HwlBody.digest id range first ds).payload.length + 4 + 63) / 64 ≤ 66 := by
  have hflat : ds.flatten.length = 64 * ds.length := by
    rw [List.length_flatten, List.map_congr_left hlen, List.map_const', List.sum_replicate, smul_eq_mul, Nat.mul_comm]
  unfold HwlBody.payload
  simp only [List.length_append, leBytes_length, hflat, List.length_cons, List.length_nil]
  omega

end Sys2Proof.Machine

/-! # The comparison of a cut -/

namespace Sys2Proof.Machine

-- One theorem after the other: a thread for each would pass the memory limit of the check.
set_option Elab.async false

/-! ## The comparison of a cut (R376, R377) -/

/-- What the digests of a cut leave of it (R376): block digests first, then the meter digests of the blocks asked for. -/
def Cut.takes (c : Cut) (first : Nat) (ds : List (List Byte)) : Cut :=
  if c.asked = [] then { c with blocks := ds.zipIdx.foldl (fun tb d => Table.set [] tb (first + d.2) d.1) c.blocks }
  else { c with meters := c.meters ++ ds }

theorem Cut.takes_named (c : Cut) (first : Nat) (ds : List (List Byte)) : (c.takes first ds).cutId = c.cutId ∧
    (c.takes first ds).range = c.range ∧ (c.takes first ds).ready = c.ready ∧ (c.takes first ds).asked = c.asked := by
  unfold Cut.takes
  split
  · exact ⟨rfl, rfl, rfl, rfl⟩
  · exact ⟨rfl, rfl, rfl, rfl⟩

/-- A DIGEST of the partner about its own range is taken into its cut, and the cut compared (R376). -/
theorem State.digest_arrives {s : State} {l : HwlHeader} {c : Cut} {t : Nat} (harrives : s.packetArrives l 0x1B)
    (hfrom : s.fromPartner l = true) (hrange : fieldAt l.payload 4 1 ≠ s.hwl.nodeId.toNat)
    (hcut : s.cutOf (fieldAt l.payload 0 4) (fieldAt l.payload 4 1) = some c) : ∃ (v : State) (c1 : Cut),
      c1 = c.takes (fieldAt l.payload 5 1) (pieces 64 (fieldAt l.payload 6 1) (l.payload.drop 8)) ∧
      exec (.digest l t) s = .next (v.compareCut c1) ∧ v.cutOf c.cutId c.range = some c1 ∧ v.hwl.mismatch = s.hwl.mismatch ∧
      v.hwl.nodeId = s.hwl.nodeId ∧ c1.range ≠ v.hwl.nodeId.toNat := by
  obtain ⟨ps, heard, hr, -⟩ := (s.advance t).received_hwl l
  obtain ⟨hid, hrg⟩ := State.cutOf_named hcut
  let c1 := c.takes (fieldAt l.payload 5 1) (pieces 64 (fieldAt l.payload 6 1) (l.payload.drop 8))
  obtain ⟨hid1, hrg1, -, -⟩ := c.takes_named (fieldAt l.payload 5 1) (pieces 64 (fieldAt l.payload 6 1) (l.payload.drop 8))
  have hcut' : ((s.advance t).received l).cutOf (fieldAt l.payload 0 4) (fieldAt l.payload 4 1) = some c := by
    unfold State.cutOf at hcut ⊢
    rw [hr]
    exact hcut
  have hnode : ((s.advance t).received l).hwl.nodeId = s.hwl.nodeId := by rw [hr]; rfl
  have hset : (((s.advance t).received l).setCut c1).cutOf c1.cutId c1.range = some c1 := by
    refine State.setCut_cutOf (c := c) ?_
    rw [hid1, hrg1, hid, hrg]
    exact hcut'
  refine ⟨((s.advance t).received l).setCut c1, c1, rfl, ?_, ?_, ?_, hnode, ?_⟩
  · refine next_of_eq ((State.hwlReceive_arrives harrives _).trans ((if_neg (not_or.2 ⟨?_, ?_⟩)).trans ?_))
    · exact ne_false_of_eq_true ((State.received_fromPartner (s.advance t) l).trans hfrom)
    · rw [hnode]
      exact hrange
    · simp only [hcut']
      rfl
  · rw [← hid1, ← hrg1]
    exact hset
  · show ((s.advance t).received l).hwl.mismatch = _
    rw [hr]
    rfl
  · show c1.range ≠ ((s.advance t).received l).hwl.nodeId.toNat
    rw [hnode, hrg1, hrg]
    exact hrange

/-- The meters of a block whose digests do not agree (R377). -/
theorem Cut.differ_mem {c : Cut} {b k : Nat} {ms : List (List Byte)} (hk : k < 64) (hlen : ms.length = 64)
    (hdiffer : ms.getD k [] ≠ c.meterDigest (64 * b + k)) : 64 * b + k ∈ ((([b].flatMap fun b =>
        (List.range 64).map fun m => 64 * b + m).zip
      ms).filterMap fun (e : Nat × List Byte) => if e.2 = c.meterDigest e.1 then none else some e.1) := by
  have hget : ms.getD k [] = ms[k] := by simp [List.getD, hlen, hk]
  refine List.mem_filterMap.2 ⟨(64 * b + k, ms.getD k []), ?_, if_neg hdiffer⟩
  rw [List.flatMap_singleton]
  refine List.mem_iff_getElem.2 ⟨k, by simp [hlen, hk], ?_⟩
  rw [hget, List.getElem_zip, List.getElem_map, List.getElem_range]

/-- Settles O40. -/
theorem streamIsAcknowledgedAndCompared : Obligations.StreamIsAcknowledgedAndCompared := by
  unfold Obligations.StreamIsAcknowledgedAndCompared
  refine ⟨?mack, ?mnak, ?gap, ?ackTimer, ?sync, ?part, ?blocks, ?meters, ?asked, ?result⟩
  case mack =>
    intro s l m t harrives hfrom hm
    obtain ⟨ps, heard, hr, -⟩ := (s.advance t).received_hwl l
    obtain ⟨held, mis, syncing, hack⟩ := ((s.advance t).received l).mirrorAck_hwl m
    rw [hr] at hack
    refine ⟨_, next_of_eq ((State.hwlReceive_arrives harrives _).trans (if_pos ?_)), ?_, ?_⟩
    · exact (State.received_fromPartner (s.advance t) l).trans hfrom
    · rw [← hm]
      exact (congrArg Hwl.mseqAcked hack :)
    · rw [← hm]
      exact (congrArg Hwl.window hack :)
  case mnak =>
    intro s l m b t harrives hfrom hm hwindow hopen
    obtain ⟨ps, heard, hr, -⟩ := (s.advance t).received_hwl l
    let w := (s.advance t).received l
    have hsends : s.sendsAs w := State.sendsAs.then
        (v := s.advance t) ⟨rfl, rfl, rfl, rfl, fun _ => rfl, fun _ => rfl, fun _ => rfl, fun _ => rfl,
      fun _ => rfl, fun _ => rfl⟩ (sendsAs_received _ l)
    have hpartner : w.partner = s.partner := State.received_partner (s.advance t) l
    have hw : w.hwl.window = [(m, b)] := by rw [hr]; exact hwindow
    have hresend : w.resendFrom m = (w.hwlSend (s.partner.getD 0) m b).bump cHwlMirrorResent := by
      unfold State.resendFrom
      rw [hw, List.filter_cons_of_pos (by simp), List.filter_nil, ← hpartner]
      rfl
    obtain ⟨qs, hsend⟩ := portsOnly_hwlSend w (s.partner.getD 0) m b
    refine ⟨w.resendFrom m, next_of_eq ((State.hwlReceive_arrives harrives _).trans ((if_pos ?_).trans ?_)), ?_, w.out, ?_⟩
    · exact (State.received_fromPartner (s.advance t) l).trans hfrom
    · rw [← hm]
      rfl
    · rw [hresend, keeps_State_bump .hwl (by decide), hsend]
      exact hw
    · rw [hresend, keeps_State_bump .out (by decide), State.hwlSend_out m (hsends.openTo hopen), hsends.packetTo]
  case gap =>
    intro s t g hgap hover hopen
    let s1 := (s.advance t).modHwl fun h => { h with gapSince := some (max s.now t) }
    let s2 := s1.note cHwlMirrorGap .operations .second 0 0
    have k2 : s1.keepsBut [.way, .host, .limits, .regs, .out] s2 := keeps_State_note
    have hsends : s.sendsAs s2 := State.sendsAs.then (v := s1) (sendsAs_of rfl rfl rfl rfl rfl fun _ => rfl) k2.sendsAs
    obtain ⟨ps, hsend⟩ := portsOnly_hwlSend s2 (s.partner.getD 0) 0 (.mnak s.hwl.expectIn)
    rw [show s2.hwl = s1.hwl from k2 .hwl (by decide)] at hsend
    refine ⟨s2.hwlSend (s.partner.getD 0) 0 (.mnak s.hwl.expectIn), ?_, (congrArg Hwl.gapSince hsend :), s2.out, ?_⟩
    · have hgap' : (s.advance t).hwl.gapSince = some g := hgap
      show execMirrorGapTimer t s = _
      simp only [execMirrorGapTimer, hgap']
      exact next_of_eq (if_neg (Nat.not_lt.2 hover))
    · rw [State.hwlSend_out 0 (hsends.openTo hopen), hsends.packetTo]
  case ackTimer =>
    intro s t d hheld hdue hover hopen
    let s1 := (s.advance t).modHwl fun h => { h with gapSince := none }
    have hpump : (s.advance t).mirrorPump = s1 := by
      unfold State.mirrorPump
      rw [show (s.advance t).hwl.heldIn.length = 0 from congrArg List.length hheld]
      unfold State.mirrorDrain
      have hnone (q : Prop) [Decidable q] (y : Option Nat) : (if s.hwl.heldIn = [] ∨ q then none else y) = none := if_pos (.inl hheld)
      exact congrArg (fun g => (s.advance t).modHwl fun h => { h with gapSince := g }) (hnone _ _)
    let s2 := s1.modHwl fun h => { h with mackSince := none }
    have hsends : s.sendsAs s2 := sendsAs_of rfl rfl rfl rfl rfl fun _ => rfl
    obtain ⟨ps, hsend⟩ := portsOnly_hwlSend s2 (s.partner.getD 0) 0 (.mack (s.hwl.expectIn - 1))
    refine ⟨s1.sendMack, ?_, (congrArg Hwl.mackSince hsend :), ?_⟩
    · have hdue' : s1.hwl.mackSince = some d := hdue
      show execMirrorAckTimer t s = _
      simp only [execMirrorAckTimer, hpump, hdue']
      exact next_of_eq (if_neg (Nat.not_lt.2 hover))
    · have hout := State.hwlSend_out 0 (hsends.openTo hopen)
      rw [hsends.packetTo] at hout
      exact hout
  case sync =>
    intro s l g reason t i harrives hfrom hmirroring hg hreason hi hlow
    obtain ⟨ps, heard, hr, -⟩ := (s.advance t).received_hwl l
    let w := (s.advance t).received l
    have k : (s.advance t).keepsBut [.regs, .out, .hwl] w := keeps_State_received
    have hi' : w.heldIndex (BitVec.ofNat 20 (fieldAt l.payload 0 4)) = some i := by
      rw [State.received_heldIndex, ← hg]
      exact hi
    have hm : w.mirroring = true := by
      unfold State.mirroring
      rw [k .boot (by decide), hr]
      exact hmirroring
    obtain ⟨hout, hwindow⟩ := State.streamNexts (w.syncBodies i reason) hm
    have hbodies : w.syncBodies i reason = s.syncBodies i reason := State.syncBodies_of (k .ctx (by decide)) (k .bil (by decide)) i reason
    have hsync : (w.mirrorSync i reason).hwl = ((w.syncBodies i reason).foldl State.streamNext w).hwl := keeps_State_bump .hwl (by decide)
    refine ⟨w.mirrorSync i reason, next_of_eq ((State.hwlReceive_arrives harrives _).trans ?_), ?_, ?_⟩
    · subst hreason
      simp only [show ((s.advance t).received l).heldIndex _ = some i from hi']
      exact if_pos (And.intro ((State.received_fromPartner (s.advance t) l).trans hfrom) (Or.inl hlow))
    · rw [hsync, hout, hbodies, hr]
      rfl
    · rw [hsync, hwindow, hbodies, hr]
      rfl
  case part =>
    intro s l c c1 bl t harrives hfrom hrange hcut hfirst hbl hc1 hshort
    obtain ⟨v, d, hd, hexec, hfound, hmis, -, hother⟩ := State.digest_arrives (t := t) harrives hfrom hrange hcut
    have hd1 : d = c1 := by
      rw [hd, hc1, hbl]
      exact if_pos hfirst
    subst hd1
    have hready : d.ready = c.ready := by rw [hc1]
    have hcompare : v.compareCut d = v := by
      unfold State.compareCut
      rcases hshort with hclosed | hfew
      · exact if_pos (.inl (hready.trans hclosed))
      · by_cases hearly : d.ready = false ∨ d.range = v.hwl.nodeId.toNat
        · exact if_pos hearly
        · exact (if_neg hearly).trans ((if_neg (not_not.2 (by rw [hc1]; exact hfirst))).trans (if_pos hfew))
    exact ⟨v, by rw [hexec, hcompare], hfound, hmis⟩
  case blocks =>
    intro s l c c1 bl t harrives hfrom hrange hcut hfirst hbl hc1 hready hfull
    obtain ⟨v, d, hd, hexec, hfound, hmis, -, hother⟩ := State.digest_arrives (t := t) harrives hfrom hrange hcut
    have hd1 : d = c1 := by
      rw [hd, hc1, hbl]
      exact if_pos hfirst
    subst hd1
    obtain ⟨hid, hrg, hrd, has⟩ : d.cutId = c.cutId ∧ d.range = c.range ∧ d.ready = c.ready ∧ d.asked = c.asked := by
      rw [hd]
      exact c.takes_named _ _
    let differ := (List.range 256).filter fun b => decide (Table.get [] d.blocks b ≠ d.blockDigest b)
    have hcompare : v.compareCut d = if differ = [] then ((v.bump cHwlDigestCuts).cutCompared d.cutId d.range).sendResult d.cutId d.range []
        else ((v.bump cHwlDigestCuts).setCut { d with asked := differ }).hwlSend (v.partner.getD 0) 0
            (.digestReq d.cutId d.range differ) := by
      unfold State.compareCut
      exact (if_neg (not_or.2 ⟨ne_false_of_eq_true (hrd.trans hready), hother⟩)).trans
        ((if_neg (not_not.2 (has.trans hfirst))).trans (if_neg (Nat.not_lt.2 hfull)))
    have hdiffer : differ = [] ↔ ((List.range 256).all fun b => decide (Table.get [] d.blocks b = d.blockDigest b)) = true := by
      unfold differ
      simp
    have hbump : (v.bump cHwlDigestCuts).hwl = v.hwl := keeps_State_bump .hwl (by decide)
    by_cases hall : differ = []
    · obtain ⟨ps, hsend⟩ := portsOnly_sendResult ((v.bump cHwlDigestCuts).cutCompared d.cutId d.range) d.cutId d.range []
      refine ⟨_, hexec.trans (next_of_eq (hcompare.trans (if_pos hall))), ?_, fun _ => ⟨?_, ?_⟩, fun hno => ?_⟩
      · rw [hsend]
        show (v.bump cHwlDigestCuts).hwl.mismatch = _
        rw [hbump]
        exact hmis
      · rw [hsend]
        exact hid
      · rw [State.portsOnly.cutOf ⟨ps, hsend⟩, hid, hrg]
        exact State.cutCompared_cutOf _ _ _
      · exact absurd (hdiffer.1 hall) (ne_true_of_eq_false hno)
    · let w := (v.bump cHwlDigestCuts).setCut { d with asked := differ }
      obtain ⟨ps, hsend⟩ := portsOnly_hwlSend w (v.partner.getD 0) 0 (.digestReq d.cutId d.range differ)
      refine ⟨_, hexec.trans (next_of_eq (hcompare.trans (if_neg hall))), ?_, fun hyes => ?_, fun _ => ?_⟩
      · rw [hsend]
        show (v.bump cHwlDigestCuts).hwl.mismatch = _
        rw [hbump]
        exact hmis
      · exact absurd (hdiffer.2 hyes) hall
      · rw [State.portsOnly.cutOf ⟨ps, hsend⟩, ← hid, ← hrg]
        refine State.setCut_cutOf (c := d) (c1 := { d with asked := differ }) ?_
        unfold State.cutOf at hfound ⊢
        rw [hbump, hid, hrg]
        exact hfound
  case meters =>
    intro s l c b t ms harrives hfrom hrange hcut hfirst hms hready hlen
    obtain ⟨v, d, hd, hexec, hfound, hmis, hnode, hother⟩ := State.digest_arrives (t := t) harrives hfrom hrange hcut
    have hd1 : d = { c with meters := ms } := by
      rw [hd, hms]
      exact if_neg (by rw [hfirst]; exact nofun)
    let slots := [b].flatMap fun b => (List.range 64).map fun m => 64 * b + m
    let differ := (slots.zip ms).filterMap fun (e : Nat × List Byte) => if e.2 = c.meterDigest e.1 then none else some e.1
    have hcompare : v.compareCut d =
        ((v.markMismatch c.cutId c.range differ).cutCompared c.cutId c.range).sendResult c.cutId c.range differ := by
      rw [hd1] at hother ⊢
      unfold State.compareCut
      refine (if_neg (not_or.2 ⟨ne_false_of_eq_true hready, hother⟩)).trans ((if_pos (by show c.asked ≠ []; rw [hfirst]; exact nofun)).trans
        ((if_neg ?_).trans ?_))
      · show ¬ ms.length < 64 * c.asked.length
        rw [hlen, hfirst]
        exact Nat.lt_irrefl 64
      · show State.sendResult (State.cutCompared (State.markMismatch v c.cutId c.range (((c.asked.flatMap _).zip ms).filterMap _)) _ _) _ _
          (((c.asked.flatMap _).zip ms).filterMap _) = _
        rw [hfirst]
        rfl
    obtain ⟨mis, hmark, -, hmarked⟩ := v.markMismatch_hwl c.cutId c.range differ
    obtain ⟨ps, hsend⟩ := portsOnly_sendResult ((v.markMismatch c.cutId c.range differ).cutCompared c.cutId c.range) c.cutId c.range differ
    refine ⟨_, hexec.trans (next_of_eq hcompare), ?_, ?_, fun k hk hne => ?_⟩
    · rw [hsend]
      rfl
    · rw [State.portsOnly.cutOf ⟨ps, hsend⟩]
      exact State.cutCompared_cutOf _ _ _
    · have hin := hmarked _ (Cut.differ_mem hk hlen hne)
      rw [hd1] at hother
      rw [if_neg hother] at hin
      rw [hsend]
      show _ ∈ (v.markMismatch c.cutId c.range differ).hwl.mismatch
      rw [hmark]
      exact hin
  case asked =>
    intro s l c b d t harrives hfrom hnamed hcut hblocks hpartner hroute hup hline hroom hcredit
    obtain ⟨ps, heard, hr, -⟩ := (s.advance t).received_hwl l
    let w := (s.advance t).received l
    let ds := (List.range 64).map fun m => c.meterDigest (64 * b + m)
    have hsends : s.sendsAs w := State.sendsAs.then (v := s.advance t) (sendsAs_of rfl rfl rfl rfl rfl fun _ => rfl) (sendsAs_received _ l)
    have hcut' : w.cutOf (fieldAt l.payload 0 4) (fieldAt l.payload 4 1) = some c := by
      unfold State.cutOf at hcut ⊢
      rw [hr]
      exact hcut
    have hpartner' : w.partner = some d := (State.received_partner (s.advance t) l).trans hpartner
    let b0 : HwlBody := .digest c.cutId c.range 0 (ds.take 63)
    have hopen : s.openTo d b0 := by
      refine ⟨hroute, hup, hline, Nat.lt_of_lt_of_le hroom (by decide), Nat.le_trans (digest_units _ _ _ _ (fun x hx => ?_) ?_) hcredit⟩
      · obtain ⟨m, -, rfl⟩ := List.mem_map.1 (List.mem_of_mem_take hx)
        exact sha512Bytes_length _
      · exact List.length_take_le _ _
    let w1 := w.hwlSend d 0 b0
    have hout : s.packetTo d 0 b0 ∈ w1.out := by
      rw [State.hwlSend_out 0 (hsends.openTo hopen), hsends.packetTo]
      exact List.mem_cons_self
    obtain ⟨qs, hw1⟩ := portsOnly_hwlSend w d 0 b0
    have k1 : w.keepsBut [.way, .host, .limits, .regs, .out, .hwl] w1 := keeps_State_hwlSend
    have hpartner1 : w1.partner = some d := (State.partner_of (congrArg Hwl.assigned hw1 :) (congrArg Hwl.nodeId hw1 :)
        (k1.item _)).trans hpartner'
    have hroute1 : (w1.routeTo d).reachable = true := by
      unfold State.routeTo
      rw [hw1]
      show (w.routeTo d).reachable = true
      rw [hsends.routeTo]
      exact hroute
    let w2 := w1.hwlSend d 0 (.digest c.cutId c.range 63 ((ds.drop 63).take 63))
    have hsend : w.sendDigests c.cutId c.range ds = w2 := by
      have hcount : (ds.length + 62) / 63 = 2 := by
        unfold ds
        rw [List.length_map, List.length_range]
      unfold State.sendDigests
      rw [hcount]
      have hfirst : w.hwlSend (w.partner.getD 0) 0 b0 = w1 := by rw [hpartner']; rfl
      show State.hwlSend (w.hwlSend (w.partner.getD 0) 0 b0) ((w.hwlSend (w.partner.getD 0) 0 b0).partner.getD 0) 0 _ = _
      rw [hfirst, hpartner1]
      rfl
    refine ⟨w2, next_of_eq ((State.hwlReceive_arrives harrives _).trans ((if_neg (not_or.2 ⟨?_, ?_⟩)).trans ?_)), ?_⟩
    · exact ne_false_of_eq_true ((State.received_fromPartner (s.advance t) l).trans hfrom)
    · rw [hr]
      exact not_not.2 hnamed
    · simp only [show ((s.advance t).received l).cutOf _ _ = some c from hcut', hblocks]
      exact hsend
    · exact State.hwlSend_outKept 0 _ hroute1 _ hout
  case result =>
    intro s l t harrives hfrom hnamed
    obtain ⟨ps, heard, hr, -⟩ := (s.advance t).received_hwl l
    let w := (s.advance t).received l
    have hnamed' : fieldAt l.payload 4 1 = w.hwl.nodeId.toNat := by rw [hr]; exact hnamed
    obtain ⟨mis, hmis, -, hmarked⟩ := w.markMismatch_hwl (fieldAt l.payload 0 4) (fieldAt l.payload 4 1)
      ((List.range (fieldAt l.payload 6 2)).map fun k => fieldAt l.payload (8 + 2 * k) 2)
    refine ⟨(w.markMismatch (fieldAt l.payload 0 4) (fieldAt l.payload 4 1) ((List.range (fieldAt l.payload 6 2)).map fun k =>
      fieldAt l.payload (8 + 2 * k) 2)).cutCompared (fieldAt l.payload 0 4) (fieldAt l.payload 4 1),
      next_of_eq ((State.hwlReceive_arrives harrives _).trans (if_pos (And.intro
        ((State.received_fromPartner (s.advance t) l).trans hfrom) hnamed'))), rfl, fun k hk => ?_⟩
    · have hin := hmarked _ (List.mem_map.2 ⟨k, List.mem_range.2 hk, rfl⟩)
      rw [if_pos hnamed', Nat.zero_add] at hin
      show _ ∈ (w.markMismatch _ _ _).hwl.mismatch
      rw [hmis]
      exact hin

end Sys2Proof.Machine

/-! # Jobs at the front of their queue -/

namespace Sys2Proof.Machine

-- One theorem after the other: a thread for each would pass the memory limit of the check.
set_option Elab.async false

/-! ## A job at the front of its queue (R397, R404) -/

/-- A state that differs from another in the parts that a job's handling writes is that state with those parts. -/
theorem State.keepsBut.eq_parts {s w : State} (h : s.keepsBut [.regs, .out, .host, .cch, .upd, .sec] w) : w =
    { s with regs := w.regs, out := w.out, host := w.host, cch := w.cch, upd := w.upd, sec := w.sec } := by
  obtain ⟨⟩ := w
  rw [State.mk.injEq]
  exact ⟨h .pending (by decide), h .now (by decide), h .draws (by decide), rfl, h .latches (by decide), h .cfg (by decide),
    h .limits (by decide), rfl, h .boot (by decide), h .nor (by decide), rfl, h .way (by decide), h .pwr (by decide), h .rst (by decide),
    h .pins (by decide), rfl, h .eth (by decide), h .sb (by decide), rfl, h .txn (by decide), rfl, h .cyc (by decide), h .tim (by decide),
    h .ctx (by decide), h .ing (by decide), h .val (by decide), h .hwl (by decide), h .bil (by decide), h .lgc (by decide),
    h .met (by decide), h .bal (by decide), h .ful (by decide), h .readings (by decide), h .plc (by decide), h .rfm (by decide),
    h .mem (by decide)⟩

theorem State.keepsBut.eq_regsOut {s w : State} (h : s.keepsBut [.regs, .out] w) : w = { s with regs := w.regs, out := w.out } := by
  have hparts := (h.within (L := [.regs, .out, .host, .cch, .upd, .sec])).eq_parts
  have hhost : w.host = s.host := h .host (by decide)
  have hcch : w.cch = s.cch := h .cch (by decide)
  have hupd : w.upd = s.upd := h .upd (by decide)
  have hsec : w.sec = s.sec := h .sec (by decide)
  rw [hhost, hcch, hupd, hsec] at hparts
  exact hparts

/-- The state in which a job of a command queue is looked at: its queue visited, its slot consumed, and the job counted. -/
def State.jobFront (s : State) (served : Nat) (cqs : List CmdQueue) (regs : Table (BitVec 32)) (out : List Emission) : State :=
  { s with regs := regs, out := out, host := { s.host with served := served, cqs := cqs } }

/-- The state in which an accepted job runs: open, under its task, with its nonce entered (R325, R407, R409). -/
def State.jobTaken (s : State) (h : JobHdr) (code : Nat) (cqs : List CmdQueue) (regs : Table (BitVec 32)) (out : List Emission) (cch : Cch)
    (served : Nat) (checks : BitVec 4) (nonces : List (BitVec 64 × Nat × Option Nat)) : State :=
  { s with
    regs := regs
    out := out
    cch := cch
    host := { s.host with served := served, cqs := cqs, jobs := s.host.jobs ++ [⟨h.ref, code, none⟩] }
    upd := { s.upd with checksMet := checks }
    sec := { s.sec with nonces := nonces } }

/-- A job row hands its job to the intake of its queue. -/
theorem exec_jobOf {c : Instr} {j : Job} (h : jobOf c = some j) (s : State) : ∃ t, exec c s = .next ((s.advance t).intake j) := by
  unfold jobOf at h
  split at h
  case h_33 => exact absurd h nofun
  all_goals
    cases h
    exact ⟨_, rfl⟩

theorem State.frameFits_len {s u : State} (hing : u.ing = s.ing) (hboot : u.boot = s.boot) (hhwl : u.hwl = s.hwl) {f g : Frame}
    (hsrc : f.src = g.src) (hlen : frameLen f = frameLen g) : u.frameFits f = s.frameFits g := by
  unfold State.frameFits State.creditsFor
  rw [hing, hboot, hhwl, hsrc, hlen]

/-- Whether a bundle waits does not stand on the time or the registers. -/
theorem State.bundleWaits_of {s u : State} (hing : u.ing = s.ing) (hboot : u.boot = s.boot) (hhwl : u.hwl = s.hwl) (b : JobBody) :
    u.bundleWaits b = s.bundleWaits b := by
  unfold State.bundleWaits
  split
  · rename_i x
    have hlen : frameLen (u.hostBundle x) = frameLen (s.hostBundle x) := rfl
    rw [State.frameFits_len hing hboot hhwl (f := u.hostBundle x) (g := s.hostBundle x) rfl hlen, hlen]
  · rfl

/-- A job that comes to the front of its queue is handed on with its slot consumed (R397). -/
theorem State.intake_comes {s : State} {n : Fin 4} {j : Job} (h : s.jobComes n j) : ∃ regs out,
    s.intake j = (s.jobFront n.val (s.host.cqs.set n.val { s.cq n.val with head := (s.cq n.val).head + 1 }) regs out).takeJob j := by
  obtain ⟨hsource, -, hturn, -, -, -, -, -, hwaits, -⟩ := h
  let v := (s.visit n.val).setCq n.val { s.cq n.val with head := (s.cq n.val).head + 1 }
  have hparts : v.raiseInt 0x1D0004 3 = { v with regs := (v.raiseInt 0x1D0004 3).regs, out := (v.raiseInt 0x1D0004 3).out } :=
    keeps_State_raiseInt.eq_regsOut
  refine ⟨(v.raiseInt 0x1D0004 3).regs, (v.raiseInt 0x1D0004 3).out, ?_⟩
  unfold State.intake
  rw [hsource]
  exact (if_neg (ne_false_of_eq_true hturn)).trans ((if_neg (ne_true_of_eq_false hwaits)).trans (congrArg (State.takeJob · j) hparts))

/-- A job that comes from a command queue and is whole is judged by its kind, the mode and its sender's right (R61, R407, R451). -/
theorem State.takeJob_comes {s : State} {n : Fin 4} {j : Job} (h : s.jobComes n j) (hlisted : jobListed j.body.code = true)
    (cqs : List CmdQueue) (regs : Table (BitVec 32)) (out : List Emission) : ∃ regs',
    (s.jobFront n.val cqs regs out).takeJob j = (s.jobFront n.val cqs regs' out).acceptAndRun j fun st => st.runJob j := by
  obtain ⟨hsource, -, -, hdcrc, hid, hencoding, hattach, hhere, hwaits, hreset⟩ := h
  obtain ⟨regs', hbump⟩ : ∃ regs', (s.jobFront n.val cqs regs out).bump cPciJobsIn = s.jobFront n.val cqs regs' out := by
    have hparts := (keeps_State_bump.within (L := [.regs, .out]) : (s.jobFront n.val cqs regs out).keepsBut [.regs, .out]
      ((s.jobFront n.val cqs regs out).bump cPciJobsIn)).eq_regsOut
    rw [(keeps_State_bump .out (by decide) : ((s.jobFront n.val cqs regs out).bump cPciJobsIn).out = out)] at hparts
    exact ⟨_, hparts⟩
  refine ⟨regs', ?_⟩
  unfold State.takeJob
  rw [hbump]
  have hattach' : (s.jobFront n.val cqs regs' out).attachOk j = true := hattach
  have hhere' : (s.jobFront n.val cqs regs' out).carriedTo j.hdr = none := hhere
  have hreset' : (s.jobFront n.val cqs regs' out).resetElsewhere j.body = none := hreset
  have hmay : (s.jobFront n.val cqs regs' out).maySubmit j.hdr.source = true := by
    rw [hsource]
    rfl
  have hwaits' : (s.jobFront n.val cqs regs' out).bundleWaits j.body = false :=
    (State.bundleWaits_of (u := s.jobFront n.val cqs regs' out) (s := s) rfl rfl rfl j.body).trans hwaits
  dsimp only
  rw [if_neg (ne_false_of_eq_true hdcrc), if_neg hid, if_neg (ne_false_of_eq_true hlisted), if_neg (ne_false_of_eq_true hattach'),
    if_neg (ne_false_of_eq_true hmay)]
  simp only [hhere', hreset']
  rw [if_neg (ne_false_of_eq_true hencoding)]
  unfold State.acceptAndRun
  simp only [hwaits', Bool.false_eq_true, if_false]

theorem State.accept?_taken {s s1 : State} {t : Task} (h : s.accept? t = some s1) : s.keepsBut [.cch, .regs, .out] s1 := by
  unfold State.accept? at h
  split at h
  · exact absurd h nofun
  · injection h with h
    rw [← h]
    have k0 : s.keepsBut [.cch] { s with cch := { s.cch with waiting := s.cch.waiting ++ [{ t with ticket := s.us }] } } := keeps_with_cch
    have k1 := (k0.within (L := [.cch, .regs, .out])).then (keeps_State_bump (c := cCchPosted))
    have k2 := keepsBut_ite (c := s.cch.free ≤ 256) (k1.then (keeps_State_bump (c := cCchReservePosts))) k1
    exact keepsBut_ite (k2.then keeps_State_raiseInt) k2

theorem State.post_some {s s1 : State} {t : Task} (h : s.accept? t = some s1) : s.post t = (s1.dispatch, true) := by
  unfold State.post
  rw [h]

theorem State.post_none {s : State} {t : Task} (h : s.accept? t = none) : s.post t = (s.postFailed, false) := by
  unfold State.post
  rw [h]

/-- What a descriptor takes and starts of the tasks (R325). -/
theorem State.post_taken {s : State} {t : Task} (h : (s.post t).2 = true) : s.keepsBut [.cch, .regs, .out] (s.post t).1 := by
  cases hacc : s.accept? t with
  | none =>
    rw [State.post_none hacc] at h
    exact absurd h Bool.false_ne_true
  | some s1 =>
    rw [State.post_some hacc]
    dsimp only
    exact (State.accept?_taken hacc).then keeps_State_dispatch

/-- A descriptor is found, or not, for the task of a job whatever stands in the registers and the queues. -/
theorem State.post_found {s u : State} {t : Task} (hcch : u.cch = s.cch) : (u.post t).2 = (s.post t).2 := by
  unfold State.post State.accept?
  rw [hcch]
  by_cases h : s.cch.free = 0 ∨ (s.cch.free ≤ 256 ∧ t.eclass ≠ 0)
  · simp only [if_pos h]
  · simp only [if_neg h]

theorem State.enterNonce_sec (s : State) (j : Job) : ∃ ns, s.enterNonce j = { s with sec := { s.sec with nonces := ns } } := by
  unfold State.enterNonce
  split
  · exact ⟨_, rfl⟩
  · exact ⟨s.sec.nonces, rfl⟩

theorem State.checkMet_upd (s : State) (bit : Nat) : ∃ c, s.checkMet bit = { s with upd := { s.upd with checksMet := c } } := by
  unfold State.checkMet
  split
  · exact ⟨s.upd.checksMet, rfl⟩
  · exact ⟨_, rfl⟩

/-- An accepted job runs open, under its task, with its nonce entered (R325, R407, R409). -/
theorem State.onAccept_taken {s : State} {n : Fin 4} {j : Job} (hsource : j.hdr.source = .cq n)
    (hpost : s.pwr.mode = .recovery ∨ (s.post (s.jobTask j.body.code)).2 = true) (cqs : List CmdQueue) (regs : Table (BitVec 32))
    (out : List Emission) : ∃ regs' out' cch checks nonces, ∀ f,
      (s.jobFront n.val cqs regs out).onAccept j f = f (s.jobTaken j.hdr j.body.code cqs regs' out' cch n.val checks nonces) := by
  let w := s.jobFront n.val cqs regs out
  let posted := if w.pwr.mode = .recovery then (w, true) else w.post (w.jobTask j.body.code)
  have hposted : posted.2 = true ∧ w.keepsBut [.cch, .regs, .out] posted.1 := by
    unfold posted
    split
    · exact ⟨rfl, keepsBut_refl _ _⟩
    · rename_i hmode
      have hfound : (w.post (w.jobTask j.body.code)).2 = true :=
        (State.post_found (s := s) (u := w) (t := s.jobTask j.body.code) rfl).trans (hpost.resolve_left hmode)
      exact ⟨hfound, State.post_taken hfound⟩
  obtain ⟨hok, hkeeps⟩ := hposted
  have hw2 : ∃ checks nonces, (((posted.1.enterNonce j).openJob j.hdr.ref j.body.code).checkMet 0) =
      s.jobTaken j.hdr j.body.code cqs posted.1.regs posted.1.out posted.1.cch n.val checks nonces := by
    have hparts := (hkeeps.within (L := [.regs, .out, .host, .cch, .upd, .sec])).eq_parts
    rw [show posted.1.host = w.host from hkeeps .host (by decide), show posted.1.upd = w.upd from hkeeps .upd (by decide),
      show posted.1.sec = w.sec from hkeeps .sec (by decide)] at hparts
    generalize posted.1 = p at hparts ⊢
    obtain ⟨ns, hns⟩ := p.enterNonce_sec j
    obtain ⟨c, hc⟩ := ((p.enterNonce j).openJob j.hdr.ref j.body.code).checkMet_upd 0
    refine ⟨c, ns, ?_⟩
    rw [hc, hns]
    generalize p.regs = r at hparts ⊢
    generalize p.out = o at hparts ⊢
    generalize p.cch = x at hparts ⊢
    rw [hparts]
    rfl
  obtain ⟨checks, nonces, hw2⟩ := hw2
  refine ⟨posted.1.regs, posted.1.out, posted.1.cch, checks, nonces, fun f => ?_⟩
  rw [← hw2]
  unfold State.onAccept
  rw [hsource]
  exact if_pos hok

/-- An accepted job of a command queue runs (R61 to R63, R325, R407). -/
theorem State.job_runs {s : State} {n : Fin 4} {j : Job} (h : s.takesJob n j) (hlisted : jobListed j.body.code = true) :
    ∃ w, s.intake j = w.runJob j ∧ (∃ cqs regs out, w = s.jobFront n.val cqs regs out) ∧
      ∃ cqs regs out cch checks nonces, ∀ f, w.onAccept j f = f (s.jobTaken j.hdr j.body.code cqs regs out cch n.val checks nonces) := by
  obtain ⟨hcomes, hmode, hright, hsigned, hpost⟩ := h
  have hsource := hcomes.1
  obtain ⟨regs, out, hintake⟩ := State.intake_comes hcomes
  obtain ⟨regs', htake⟩ := State.takeJob_comes hcomes hlisted (s.host.cqs.set n.val { s.cq n.val with head :=
      (s.cq n.val).head + 1 }) regs out
  obtain ⟨r, o, cch, checks, nonces, haccept⟩ := State.onAccept_taken hsource hpost
    (s.host.cqs.set n.val { s.cq n.val with head := (s.cq n.val).head + 1 }) regs' out
  refine ⟨_, ?_, ⟨_, regs', out, rfl⟩, _, r, o, cch, checks, nonces, haccept⟩
  rw [hintake, htake]
  generalize s.host.cqs.set n.val { s.cq n.val with head := (s.cq n.val).head + 1 } = cqs
  have hright' : (s.jobFront n.val cqs regs' out).lackedRight (sourceMaster j.hdr.source) j.body = none := by
    rw [hsource]
    exact hright
  have hsigned' : (s.jobFront n.val cqs regs' out).signedReason j = none := hsigned
  unfold State.acceptAndRun
  simp only [hright', hsigned']
  exact (if_neg (ne_false_of_eq_true hlisted)).trans (if_neg (ne_false_of_eq_true hmode))

/-! ## Reports (R401, R402, R409) -/

/-- From `s` to `u` the host's interface stands but for reports that have come to wait. -/
def State.reportsAdded (s u : State) : Prop := ∃ ws, u.host = { s.host with waiting := s.host.waiting ++ ws }

theorem State.reportsAdded.then {s v u : State} (h : s.reportsAdded v) (g : v.reportsAdded u) : s.reportsAdded u := by
  obtain ⟨ws, hv⟩ := h
  obtain ⟨vs, hu⟩ := g
  exact ⟨ws ++ vs, by rw [hu, hv]; simp only [List.append_assoc]⟩

theorem State.keepsBut.reportsAdded {A : List Part} {s u : State} (h : s.keepsBut A u) (sub : Part.host ∉ A := by decide) :
    s.reportsAdded u := ⟨[], by rw [h .host sub, List.append_nil]⟩

theorem reportsAdded_refl (s : State) : s.reportsAdded s := ⟨[], by rw [List.append_nil]⟩

theorem reportsAdded_ite {s a b : State} {c : Prop} [Decidable c] (ha : s.reportsAdded a) (hb : s.reportsAdded b) :
    s.reportsAdded (if c then a else b) := by
  split
  · exact ha
  · exact hb

theorem reportsAdded_foldl {α : Type} {s v : State} {f : State → α → State} {l : List α}
    (hf : ∀ (u : State) a, u.reportsAdded (f u a)) (hv : s.reportsAdded v) : s.reportsAdded (l.foldl f v) := by
  induction l generalizing v with
  | nil => exact hv
  | cons a l ih => exact ih (hv.then (hf v a))

theorem reportsAdded_enqueue (s : State) (d : ReportDest) (r : Report) : s.reportsAdded (s.enqueue d r) := ⟨_, rfl⟩

theorem reportsAdded_route (s : State) (ds : List ReportDest) (r : Report) : s.reportsAdded (s.route ds r) := by
  unfold State.route
  split
  · exact keeps_State_bump.reportsAdded
  · exact reportsAdded_foldl (fun u d => reportsAdded_enqueue u d r) (reportsAdded_refl s)

theorem reportsAdded_reportOut (s : State) (b : ReportBody) : s.reportsAdded (s.reportOut b) := reportsAdded_route s _ _

end Sys2Proof.Machine

/-! # Jobs that are rejected -/

namespace Sys2Proof.Machine

-- One theorem after the other: a thread for each would pass the memory limit of the check.
set_option Elab.async false

/-! ## Events add reports alone to the host's interface (R511, R512) -/

theorem reportsAdded_eventReport (s : State) (g : LogId) (r : WayRecord) (notLogged : Bool) : s.reportsAdded
    (s.eventReport g r notLogged) := by
  unfold State.eventReport
  exact reportsAdded_ite ((reportsAdded_reportOut s _).then keeps_State_bump.reportsAdded) (reportsAdded_refl s)

theorem reportsAdded_refuseEvent (s : State) (g : LogId) (r : WayRecord) : s.reportsAdded (s.refuseEvent g r) := by
  unfold State.refuseEvent
  extract_lets l s1 s2 s3
  have h2 : s.reportsAdded s2 := (keeps_with_way (s := s) (wayv := s1.way)).reportsAdded.then keeps_State_bump.reportsAdded
  have h3 : s.reportsAdded s3 := reportsAdded_ite h2 (h2.then (keeps_State_buffer.within (L := [.way, .regs, .out])
    |>.then keeps_State_raiseInt).reportsAdded)
  exact h3.then (reportsAdded_eventReport s3 g r true)

theorem reportsAdded_acceptEvent (s : State) (g : LogId) (r : WayRecord) : s.reportsAdded (s.acceptEvent g r) := by
  unfold State.acceptEvent State.decideEvent
  refine reportsAdded_ite (keeps_State_bump.within (L := [.regs, .out]) |>.then keeps_State_raiseInt).reportsAdded ?_
  have hcount : s.reportsAdded (s.bump cWayEventsIn) := keeps_State_bump.reportsAdded
  refine reportsAdded_ite (reportsAdded_ite ?_ ?_) ?_
  · exact hcount.then (reportsAdded_refuseEvent _ g r)
  · exact hcount.then (keeps_State_buffer.reportsAdded.then (reportsAdded_eventReport _ g r false))
  · exact hcount.then keeps_State_buffer.reportsAdded

theorem reportsAdded_event (s : State) (g : LogId) (source code set payload : Nat) : s.reportsAdded (s.event g source code set payload) :=
  reportsAdded_acceptEvent s g _

theorem reportsAdded_eventLimited (s : State) (g : LogId) (sp : Span) (who source code set payload : Nat) :
    s.reportsAdded (s.eventLimited g sp who source code set payload) := by
  unfold State.eventLimited
  extract_lets m
  refine reportsAdded_ite (reportsAdded_event s g source code set payload) (reportsAdded_ite (reportsAdded_refl s) ?_)
  exact (keeps_with_limits (s := s) (limitsv := m :: s.limits)).reportsAdded.then (reportsAdded_event _ g source code set payload)

theorem reportsAdded_note (s : State) (c : Counter) (g : LogId) (sp : Span) (who payload : Nat) : s.reportsAdded
    (s.note c g sp who payload) :=
  (keeps_State_bump (s := s) (c := c)).reportsAdded.then (reportsAdded_eventLimited _ g sp who c.source c.code c.set payload)

theorem reportsAdded_refuseAccess (s : State) (m : Master) (kind t addr : Nat) : s.reportsAdded (s.refuseAccess m kind t addr) := by
  let s1 := s.bump (cAccViol m)
  let v : Sec := { s1.sec with violation := some ⟨m, kind, s.accFixed m t kind, t, addr⟩ }
  have h2 : s.reportsAdded { s1 with sec := v } := (keeps_State_bump (s := s) (c := cAccViol m)).reportsAdded.then
    (keeps_with_sec (s := s1) (secv := v)).reportsAdded
  exact h2.then (keeps_State_raiseInt.reportsAdded.then (reportsAdded_eventLimited _ _ _ _ _ _ _ _))

/-! ## The answer to a job (R61, R402, R409) -/

/-- What is needed of a state for an answer to go where the job's sender waits for it. -/
structure State.answersTo (s v : State) (t : Nat) : Prop where
  now : v.now = max s.now t
  rqs : v.host.rqs = s.host.rqs
  node : v.hwl.nodeId = s.hwl.nodeId

theorem State.answersTo.rq {s v : State} {t : Nat} (h : s.answersTo v t) (n : Nat) : v.rq n = s.rq n := by
  unfold State.rq
  rw [h.rqs]

theorem State.answersTo.added {s v u : State} {t : Nat} (h : s.answersTo v t) (hadded : v.reportsAdded u) (hnow : u.now = v.now)
    (hnode : u.hwl.nodeId = v.hwl.nodeId) : s.answersTo u t where
  now := hnow.trans h.now
  rqs := by
    obtain ⟨ws, hu⟩ := hadded
    rw [hu]
    exact h.rqs
  node := hnode.trans h.node

/-- The final report of a job closes it, and waits for its queue where that is set up (R402, R409). -/
theorem State.finishJob_answers {s v : State} {h : JobHdr} {n : Fin 4} {t : Nat} (hv : s.answersTo v t) (hsource : h.source = .cq n)
    (status : Nat) (reason : Reason) (outcome : Nat) (detail : List Byte) (data : ReportData) :
    s.answeredJob h t (.jobResult status reason.code outcome detail) data (v.finishJob h.ref status reason outcome detail data) := by
  have hdest : (v.closeJob h.ref).jobDest h.ref = if (s.rq h.rq).enable = true then [.rq h.rq] else [] := by
    unfold State.jobDest
    rw [show h.ref.source = .cq n from hsource, ← hv.rq]
    rfl
  unfold State.finishJob State.jobReport
  refine ⟨fun o ho => ?_, fun henable => ?_⟩
  · have hclosed : o ∈ (v.closeJob h.ref).host.jobs := by
      obtain ⟨ws, hadded⟩ := reportsAdded_route (v.closeJob h.ref) ((v.closeJob h.ref).jobDest h.ref)
        ⟨.jobResult status reason.code outcome detail, data, true, false, false, h.ref.jobId, (v.closeJob h.ref).hwl.nodeId⟩
      rw [hadded] at ho
      exact ho
    exact of_decide_eq_true (List.mem_filter.1 hclosed).2
  · rw [hdest, if_pos henable]
    refine List.mem_append_right _ (List.mem_singleton.2 ?_)
    show _ = WaitingReport.mk (.rq h.rq) ⟨_, _, true, false, false, h.jobId, v.hwl.nodeId⟩ v.now false
    rw [hv.now, hv.node]

theorem State.answeredJob.bump {s u : State} {h : JobHdr} {t : Nat} {b : ReportBody} {d : ReportData} (ha : s.answeredJob h t b d u)
    (c : Counter) : s.answeredJob h t b d (u.bump c) := by
  have hhost : (u.bump c).host = u.host := keeps_State_bump .host (by decide)
  unfold State.answeredJob
  rw [hhost]
  exact ha

/-- The state in which a job is looked at can answer it. -/
theorem State.answersTo_front (s : State) (t served : Nat) (cqs : List CmdQueue) (regs : Table (BitVec 32)) (out : List Emission) :
    s.answersTo ((s.advance t).jobFront served cqs regs out) t := ⟨rfl, rfl, rfl⟩

theorem State.answersTo_taken (s : State) (t : Nat) (h : JobHdr) (code : Nat) (cqs : List CmdQueue) (regs : Table (BitVec 32))
    (out : List Emission)
    (cch : Cch) (served : Nat) (checks : BitVec 4) (nonces : List (BitVec 64 × Nat × Option Nat)) :
    s.answersTo ((s.advance t).jobTaken h code cqs regs out cch served checks nonces) t := ⟨rfl, rfl, rfl⟩

/-! ## Jobs that are rejected (R61, R63, R451) -/

/-- A job still comes when time has run on. -/
theorem State.jobComes.advance {s : State} {n : Fin 4} {j : Job} (h : s.jobComes n j) (t : Nat) : (s.advance t).jobComes n j := by
  obtain ⟨hsource, hn, hturn, hdcrc, hid, hencoding, hattach, hhere, hwaits, hreset⟩ := h
  exact ⟨hsource, hn, hturn, hdcrc, hid, hencoding, hattach, hhere,
    (State.bundleWaits_of (u := s.advance t) (s := s) rfl rfl rfl j.body).trans hwaits, hreset⟩

/-- A rejection answers the job, and changes the host's interface and the registers alone. -/
theorem State.rejectJob_answers {s v : State} {h : JobHdr} {n : Fin 4} {t : Nat} (hv : s.answersTo v t) (hsource : h.source = .cq n)
    (reason : Reason) : s.answeredJob h t (.jobResult 1 reason.code 0 []) .none (v.rejectJob h.ref reason) :=
  (State.finishJob_answers hv hsource 1 reason 0 [] .none).bump _

theorem State.reportsAdded.cq {s u : State} (h : s.reportsAdded u) (n : Nat) : u.cq n = s.cq n := by
  obtain ⟨ws, hu⟩ := h
  unfold State.cq
  rw [hu]

theorem State.rejectJob_cq (s : State) (j : JobRef) (reason : Reason) (n : Nat) : (s.rejectJob j reason).cq n = s.cq n :=
  ((reportsAdded_route (s.closeJob j) _ _).then keeps_State_bump.reportsAdded).cq n

theorem keeps_State_jobFront {s : State} {served : Nat} {cqs : List CmdQueue} {regs : Table (BitVec 32)} {out : List Emission} :
    s.keepsBut [.regs, .out, .host] (s.jobFront served cqs regs out) :=
  (keeps_with_regs (s := s) (regsv := regs)).within.then (keeps_with_out (outv := out)) |>.then keeps_with_host

/-- A job that comes is judged in a state that differs in its queue alone, and the rejection finds its way (R397). -/
theorem State.job_judged {c : Instr} {j : Job} {s : State} {n : Fin 4} (hjob : jobOf c = some j) (hcomes : s.jobComes n j)
    (hlisted : jobListed j.body.code = true) : ∃ t cqs regs out w, w = (s.advance t).jobFront n.val cqs regs out ∧
      exec c s = .next (w.acceptAndRun j fun st => st.runJob j) ∧ (w.cq n.val).head = (s.cq n.val).head + 1 ∧
      s.answersTo w w.now ∧ s.keepsBut [.now, .host, .regs, .out] w := by
  obtain ⟨t, hexec⟩ := exec_jobOf hjob s
  have hn := hcomes.2.1
  obtain ⟨regs, out, hintake⟩ := State.intake_comes (hcomes.advance t)
  obtain ⟨regs', htake⟩ := State.takeJob_comes (hcomes.advance t) hlisted
    ((s.advance t).host.cqs.set n.val { (s.advance t).cq n.val with head := ((s.advance t).cq n.val).head + 1 }) regs out
  refine ⟨t, _, regs', out, _, rfl, by rw [hexec, hintake, htake], ?_, ⟨?_, rfl, rfl⟩, ?_⟩
  · exact congrArg CmdQueue.head (List.getD_set_self hn)
  · exact (max_eq_right (le_max_left s.now t)).symm
  · exact keeps_State_advance.within |>.then keeps_State_jobFront

/-- Settles O48. -/
theorem jobsAreRejectedWithoutEffect : Obligations.JobsAreRejectedWithoutEffect := by
  unfold Obligations.JobsAreRejectedWithoutEffect
  refine ⟨?mode, ?access⟩
  case mode =>
    intro c j s n hjob hcomes hlisted hmode
    obtain ⟨t, cqs, regs, out, w, hw, hexec, hhead, hanswers, hkeeps⟩ := State.job_judged hjob hcomes hlisted
    have hreject : (w.acceptAndRun j fun st => st.runJob j) = w.rejectJob j.hdr.ref .mode := by
      rw [hw]
      exact (if_neg (ne_false_of_eq_true hlisted)).trans (if_pos hmode)
    have hnow : (w.rejectJob j.hdr.ref .mode).now = w.now := keeps_State_rejectJob .now (by decide)
    refine ⟨w.rejectJob j.hdr.ref .mode, hexec.trans (next_of_eq hreject), hkeeps.then keeps_State_rejectJob, ?_, ?_⟩
    · rw [State.rejectJob_cq, hhead]
    · rw [hnow]
      exact State.rejectJob_answers hanswers hcomes.1 .mode
  case access =>
    intro c j s n r hjob hcomes hlisted hmode hlacked
    obtain ⟨t, cqs, regs, out, w, hw, hexec, hhead, hanswers, hkeeps⟩ := State.job_judged hjob hcomes hlisted
    have hlacked' : w.lackedRight (sourceMaster j.hdr.source) j.body = some r := by
      rw [hcomes.1, hw]
      exact hlacked
    let v := w.refuseAccess (sourceMaster j.hdr.source) r.2 r.1 (windowBase + 4096 * r.1)
    have hreject : (w.acceptAndRun j fun st => st.runJob j) = v.rejectJob j.hdr.ref .access := by
      unfold State.acceptAndRun
      simp only [hlacked']
      refine (if_neg (ne_false_of_eq_true hlisted)).trans (if_neg ?_)
      rw [hw]
      exact ne_false_of_eq_true hmode
    have kv : w.keepsBut [.way, .host, .limits, .regs, .out, .sec] v := keeps_State_refuseAccess
    have hadded : w.reportsAdded v := reportsAdded_refuseAccess w _ _ _ _
    have hnow : (v.rejectJob j.hdr.ref .access).now = w.now := (keeps_State_rejectJob .now (by decide)).trans (kv .now (by decide))
    refine ⟨v.rejectJob j.hdr.ref .access, hexec.trans (next_of_eq hreject), hkeeps.within |>.then kv |>.then keeps_State_rejectJob, ?_, ?_⟩
    · rw [State.rejectJob_cq, hadded.cq, hhead]
    · rw [hnow]
      exact State.rejectJob_answers (hanswers.added hadded (kv .now (by decide)) (congrArg Hwl.nodeId (kv .hwl (by decide)))) hcomes.1
          .access

end Sys2Proof.Machine

/-! # Jobs on the node -/

namespace Sys2Proof.Machine

-- One theorem after the other: a thread for each would pass the memory limit of the check.
set_option Elab.async false

/-! ## Accepted jobs (R61 to R63, R397, R409) -/

/-- An accepted job that is listed: the state `w` in which it is looked at, and the state `v` in which it runs. -/
theorem State.job_taken {s : State} {n : Fin 4} {j : Job} {t : Nat} (h : (s.advance t).takesJob n j)
    (hlisted : jobListed j.body.code = true) :
    ∃ w v, (s.advance t).intake j = w.runJob j ∧ (∃ cqs regs out, w = (s.advance t).jobFront n.val cqs regs out) ∧
      (∃ cqs regs out cch checks nonces, v = (s.advance t).jobTaken j.hdr j.body.code cqs regs out cch n.val checks nonces) ∧
      (∀ f, w.onAccept j f = f v) ∧ s.answersTo v t ∧ j.hdr.source = .cq n := by
  obtain ⟨w, hrun, hw, cqs, regs, out, cch, checks, nonces, haccept⟩ := State.job_runs h hlisted
  exact ⟨w, _, hrun, hw, ⟨cqs, regs, out, cch, checks, nonces, rfl⟩, haccept, State.answersTo_taken _ _ _ _ _ _ _ _ _ _ _, h.1.1⟩

theorem State.answeredJob.added {s v u : State} {h : JobHdr} {t : Nat} {b : ReportBody} {d : ReportData} (ha : s.answeredJob h t b d v)
    (hadded : v.reportsAdded u) : s.answeredJob h t b d u := by
  obtain ⟨ws, hu⟩ := hadded
  obtain ⟨hclosed, hwaits⟩ := ha
  unfold State.answeredJob
  rw [hu]
  exact ⟨hclosed, fun henable => List.mem_append_left _ (hwaits henable)⟩

/-- A job done is answered with nothing to tell (R409). -/
theorem State.jobDone_answers {s v : State} {h : JobHdr} {n : Fin 4} {t : Nat} (hv : s.answersTo v t) (hsource : h.source = .cq n) :
    s.doneJob h t (v.jobDone h.ref) := State.finishJob_answers hv hsource 0 .none 0 [] .none

theorem reportsAdded_hwlSend (s : State) (d : Nat) (tag : BitVec 32) (b : HwlBody) : s.reportsAdded (s.hwlSend d tag b) := by
  unfold State.hwlSend
  extract_lets r
  exact reportsAdded_ite (reportsAdded_note s _ _ _ _ _) keeps_State_hwlQueue.reportsAdded

theorem reportsAdded_streamNext (s : State) (b : HwlBody) : s.reportsAdded (s.streamNext b) := by
  unfold State.streamNext
  extract_lets m h0 s1
  refine reportsAdded_ite (reportsAdded_refl s) ?_
  exact (keeps_with_hwl (s := s) (hwlv := s1.hwl)).reportsAdded.then ((reportsAdded_hwlSend s1 _ m b).then keeps_State_bump.reportsAdded)

theorem reportsAdded_mirrorSync (s : State) (i reason : Nat) : s.reportsAdded (s.mirrorSync i reason) :=
  (reportsAdded_foldl reportsAdded_streamNext (reportsAdded_refl s)).then keeps_State_bump.reportsAdded

theorem reportsAdded_releaseOwner (s : State) : s.reportsAdded s.releaseOwner := by
  unfold State.releaseOwner
  extract_lets s1
  have h1 : s.reportsAdded s1 := keeps_State_modHwl.reportsAdded
  refine reportsAdded_ite h1 (h1.then ?_)
  have hlets : s1.reportsAdded (s1.modHwl fun h => { h with owner := false }) := keeps_State_modHwl.reportsAdded
  exact hlets.then ((reportsAdded_event _ _ _ _ _ _).then keeps_State_raiseInt.reportsAdded)

theorem reportsAdded_beginHold (s : State) (cls : ResetClass) (escalated : Bool) : s.reportsAdded (s.beginHold cls escalated) := by
  have hleave : s.reportsAdded (s.sendLeave 2) := by
    unfold State.sendLeave
    exact reportsAdded_ite (reportsAdded_hwlSend s _ _ _) (reportsAdded_refl s)
  have hstop : s.reportsAdded ((s.sendLeave 2).releaseOwner.stopFuller) :=
    hleave.then ((reportsAdded_releaseOwner _).then keeps_State_stopFuller.reportsAdded)
  exact hstop.then (keeps_with_rst (s := (s.sendLeave 2).releaseOwner.stopFuller)).reportsAdded

/-- What a reset that is held for Fuller leaves of the fabric: LEAVE sent, ownership let go (R378, R384, R474). -/
theorem State.beginHold_hwl (s : State) (cls : ResetClass) (escalated : Bool) :
    ∃ ps, (s.beginHold cls escalated).hwl = { s.hwl with ports := ps, outHigh := false, claiming := none, owner := false } := by
  have hleave : s.portsOnly (s.sendLeave 2) := by
    unfold State.sendLeave
    exact portsOnly_ite (portsOnly_hwlSend s _ _ _) (portsOnly_refl s)
  obtain ⟨ps, hps⟩ := hleave
  refine ⟨ps, ?_⟩
  have h : (s.beginHold cls escalated).hwl = (s.sendLeave 2).releaseOwner.hwl := keeps_State_stopFuller .hwl (by decide)
  rw [h, State.releaseOwner_hwl, hps]

/-- Bodies enter the stream's window under its next numbers (R369). -/
theorem State.streamNexts_window {s : State} (l : List HwlBody) (h : s.mirroring = true) :
    (l.foldl State.streamNext s).hwl.window = s.hwl.window ++
      l.zipIdx.map fun (e : HwlBody × Nat) => (s.hwl.mseqOut + BitVec.ofNat 32 e.2, e.1) := by
  have hall : ∀ (l : List HwlBody) (u : State) (k : Nat), u.mirroring = true → u.hwl.mseqOut = s.hwl.mseqOut + BitVec.ofNat 32 k →
      (l.foldl State.streamNext u).hwl.window = u.hwl.window ++
        (l.zipIdx k).map fun (e : HwlBody × Nat) => (s.hwl.mseqOut + BitVec.ofNat 32 e.2, e.1) := by
    intro l
    induction l with
    | nil => exact fun u k _ _ => (List.append_nil _).symm
    | cons b l ih =>
      intro u k hu hk
      obtain ⟨hstill, hnext, hwindow⟩ := State.streamNext_mirroring (b := b) hu
      rw [List.foldl_cons, ih (u.streamNext b) (k + 1) hstill (by rw [hnext, hk, BitVec.add_assoc, BitVec.ofNat_add]; rfl), hwindow, hk,
        List.zipIdx_cons, List.map_cons, List.append_assoc]
      rfl
  exact hall l s 0 h (BitVec.add_zero _).symm

/-- Settles O51. -/
theorem nodeJobsAct : Obligations.NodeJobsAct := by
  unfold Obligations.NodeJobsAct
  refine ⟨?designate, ?count, ?claim, ?release, ?forget⟩
  case designate =>
    intro s n h t k htakes hk hmirroring hassigned hheld
    obtain ⟨w, v, hrun, ⟨cqs, regs, out, hw⟩, ⟨cqs', regs', out', cch, checks, nonces, hv⟩, haccept, hanswers, hsource⟩ :=
      State.job_taken htakes rfl
    have hm : v.mirroring = true := by rw [hv]; exact hmirroring
    have hsend : (v.designated 0 (some [k])).foldl State.sendDesignated v = v.mirrorSync k 2 := by
      unfold State.designated State.sendDesignated
      show (if (v.ctxAt (0 + k)).state = .empty then v else v.mirrorSync (0 + k) 2) = _
      rw [Nat.zero_add, if_neg (by rw [hv]; exact hheld)]
    have hbodies : v.syncBodies k 2 = s.syncBodies k 2 := by rw [hv]; rfl
    have hsync : (v.mirrorSync k 2).hwl = ((v.syncBodies k 2).foldl State.streamNext v).hwl := keeps_State_bump .hwl (by decide)
    have ksync : v.keepsBut [.way, .host, .limits, .regs, .out, .hwl] (v.mirrorSync k 2) := keeps_State_mirrorSync
    have hnode : (v.mirrorSync k 2).hwl.nodeId = v.hwl.nodeId := by
      obtain ⟨ps, m, x, hx⟩ := streamOnly_mirrorSync v k 2
      exact (congrArg Hwl.nodeId hx :)
    have hrole : w.boot.headEnd = true ∧ w.hwl.assigned = true ∧ w.hwl.nodeId = s.hwl.nodeId := by
      rw [hw]
      refine ⟨?_, hassigned, rfl⟩
      have hb := hmirroring
      unfold State.mirroring at hb
      exact (Bool.and_eq_true_iff.1 (Bool.and_eq_true_iff.1 hb).1).1
    obtain ⟨hhead, hass, hself⟩ := hrole
    refine ⟨(v.mirrorSync k 2).jobDone h.ref, next_of_eq (hrun.trans ?_), ?_, ?_⟩
    · show w.runDesignate _ 0 s.hwl.nodeId (some [k]) = _
      unfold State.runDesignate
      rw [if_neg (by simp; omega), if_neg (by simp), if_neg (not_or.2 ⟨ne_false_of_eq_true hhead, ne_false_of_eq_true hass⟩),
        if_pos hself.symm, haccept, hsend]
    · exact State.jobDone_answers (hanswers.added (reportsAdded_mirrorSync v k 2) (ksync .now (by decide)) hnode) hsource
    · rw [(keeps_State_jobDone .hwl (by decide) :
        ((v.mirrorSync k 2).jobDone h.ref).hwl = _), hsync, State.streamNexts_window _ hm, hbodies, hv]
      rfl
  case count =>
    intro s n h t d htakes
    obtain ⟨w, v, hrun, -, ⟨cqs', regs', out', cch, checks, nonces, hv⟩, haccept, hanswers, hsource⟩ := State.job_taken htakes rfl
    have hcount : (v.hwl.mismatch.filter fun i => decide ((16384 ≤ i) = (0 = 1))) = s.hwl.mismatch.filter fun i => decide (i < 16384) := by
      rw [hv]
      exact List.filter_congr fun i _ => decide_eq_decide.2 (by simp)
    refine ⟨v.finishJob h.ref 0 .none 0 (leBytes 2 (s.hwl.mismatch.filter fun i => decide (i < 16384)).length) .none,
      next_of_eq (hrun.trans ?_), ?_, State.finishJob_answers hanswers hsource 0 .none 0 _ .none⟩
    · show w.runDesignate _ 0 d (some []) = _
      unfold State.runDesignate
      rw [if_neg (by simp), if_pos rfl, haccept, hcount]
    · rw [(keeps_State_finishJob .hwl (by decide) : State.hwl _ = v.hwl), hv]
      rfl
  case claim =>
    intro s n h t htakes hmode hrole hpair hbackoff howner hclaiming hlow
    obtain ⟨w, v, hrun, -, ⟨cqs', regs', out', cch, checks, nonces, hv⟩, haccept, hanswers, hsource⟩ := State.job_taken htakes rfl
    let v1 := v.modHwl fun h => { h with interlockFault := false }
    have hbar : v1.claimBarred = false := by
      unfold State.claimBarred v1
      rw [hv]
      show (!s.boot.headEnd || false || s.hwl.backoffUntil.isSome || s.hwl.pairMismatch ||
        decide (s.pwr.mode = .gasp ∨ s.pwr.mode = .standby ∨ s.pwr.mode = .recovery ∨ s.pwr.mode = .boot)) = false
      rw [hrole, hbackoff, hpair, hmode]
      rfl
    have hopen := State.claim_open hbar (by rw [show v1.hwl.owner = v.hwl.owner from rfl, hv]; exact howner)
      (by rw [show v1.hwl.claiming = v.hwl.claiming from rfl, hv]; exact hclaiming)
      (by rw [show v1.hwl.inHigh = v.hwl.inHigh from rfl, hv]; exact hlow)
    refine ⟨v1.claim.jobDone h.ref, next_of_eq (hrun.trans (haccept fun st => ((st.modHwl fun x =>
        { x with interlockFault := false }).claim).jobDone
      h.ref)), ?_, ?_⟩
    · rw [hopen]
      exact State.jobDone_answers ⟨hanswers.now, hanswers.rqs, hanswers.node⟩ hsource
    · rw [(keeps_State_jobDone .hwl (by decide) : (v1.claim.jobDone h.ref).hwl = _), hopen]
      show { v.hwl with interlockFault := false, outHigh := true, claiming := some v.now } = _
      rw [hanswers.now, hv]
      rfl
  case release =>
    intro s n h t htakes hrole
    obtain ⟨w, v, hrun, -, ⟨cqs', regs', out', cch, checks, nonces, hv⟩, haccept, hanswers, hsource⟩ := State.job_taken htakes rfl
    have hv' : v.boot.headEnd = true := by rw [hv]; exact hrole
    have hhwl := v.releaseOwner_hwl
    have k : v.keepsBut [.way, .host, .regs, .out, .hwl] v.releaseOwner := keeps_State_releaseOwner
    refine ⟨v.releaseOwner.jobDone h.ref, next_of_eq (hrun.trans ?_), ?_, ?_⟩
    · show w.runRelease _ = _
      unfold State.runRelease
      rw [haccept, if_pos hv']
    · exact State.jobDone_answers (hanswers.added (reportsAdded_releaseOwner v) (k .now (by decide)) (congrArg Hwl.nodeId hhwl :)) hsource
    · rw [(keeps_State_jobDone .hwl (by decide) : (v.releaseOwner.jobDone h.ref).hwl = _), hhwl, hv]
      rfl
  case forget =>
    intro s n h t htakes hmode hhold
    obtain ⟨w, v, hrun, -, ⟨cqs', regs', out', cch, checks, nonces, hv⟩, haccept, hanswers, hsource⟩ := State.job_taken htakes rfl
    let v1 : State := { v with nor := { v.nor with coordinate := none }, hwl := { v.hwl with stored := none } }
    let v2 := v1.jobDone h.ref
    have k2 : v1.keepsBut [.host, .regs] v2 := keeps_State_jobDone
    have hdone : s.doneJob h t v2 := State.jobDone_answers (v := v1) ⟨hanswers.now, hanswers.rqs, hanswers.node⟩ hsource
    have hmode2 : v2.pwr.mode = .run := by
      rw [k2 .pwr (by decide)]
      show v.pwr.mode = .run
      rw [hv]
      exact hmode
    have hhold2 : v2.rst.hold = none := by
      rw [k2 .rst (by decide)]
      show v.rst.hold = none
      rw [hv]
      exact hhold
    have hbegins := State.requestReset_begins (cls := .fbc) (by rw [hmode2]; decide) (by rw [hmode2]; decide) hhold2
    have hheld := State.requestReset_hold (cls := .fbc) (by rw [hmode2]; decide) (by rw [hmode2]; decide) hhold2
    obtain ⟨ps, hhwl⟩ := v2.beginHold_hwl .fbc false
    refine ⟨v2.requestReset .fbc, next_of_eq (hrun.trans (haccept fun st =>
      (({ st with
        nor := { st.nor with coordinate := none }
        hwl := { st.hwl with stored := none } } : State).jobDone h.ref).requestReset .fbc)), ?_, ?_, ?_, ?_⟩
    · rw [hbegins]
      exact hdone.added (reportsAdded_beginHold v2 .fbc false)
    · rw [(keeps_State_requestReset .nor (by decide) : (v2.requestReset .fbc).nor = v2.nor), k2 .nor (by decide)]
    · rw [hbegins, hhwl, k2 .hwl (by decide)]
    · rw [hheld, k2 .now (by decide)]
      exact congrArg (fun x => some (Hold.mk .fbc x false)) hanswers.now

end Sys2Proof.Machine

/-! # Signed jobs -/

namespace Sys2Proof.Machine

-- One theorem after the other: a thread for each would pass the memory limit of the check.
set_option Elab.async false

/-! ## Logs that are cleared (R519) -/

theorem Way.setLog_log (w : Way) (g : LogId) (l : Log) : (w.setLog g l).log g = l := by
  cases g with
  | legal => rfl
  | security => rfl
  | operations => rfl

theorem Log.writeHeader_kept (l : Log) (x : LogHeader) :
    (l.writeHeader x).clearing = l.clearing ∧ (l.writeHeader x).clearJob = l.clearJob ∧ (l.writeHeader x).slots = l.slots := by
  unfold Log.writeHeader
  extract_lets w
  split
  · exact ⟨rfl, rfl, rfl⟩
  · exact ⟨rfl, rfl, rfl⟩
  · split
    · exact ⟨rfl, rfl, rfl⟩
    · exact ⟨rfl, rfl, rfl⟩

/-- A log that begins to clear keeps its slots until the erase has ended (R519). -/
theorem State.clearLog_log (s : State) (g : LogId) (cert : BitVec 32) (anchor : Nat) (job : JobRef) :
    ((s.clearLog g cert anchor job).way.log g).clearing = true ∧ ((s.clearLog g cert anchor job).way.log g).clearJob = some job ∧
      ((s.clearLog g cert anchor job).way.log g).slots = (s.way.log g).slots := by
  unfold State.clearLog State.modLog
  extract_lets l h s1
  have h1 : s1.way.log g = { s.way.log g with clearing := true, clearJob := some job } := Way.setLog_log _ g _
  dsimp only
  rw [Way.setLog_log, h1]
  exact Log.writeHeader_kept _ _

/-- The reset that a job done asks for is held for Fuller, its report waiting (R474). -/
theorem State.doneJob_held {s v : State} {h : JobHdr} {n : Fin 4} {t : Nat} (cls : ResetClass) (hv : s.answersTo v t)
    (hsource : h.source = .cq n) (hmode : v.pwr.mode = .run) (hhold : v.rst.hold = none) :
    s.doneJob h t ((v.jobDone h.ref).requestReset cls) ∧ ((v.jobDone h.ref).requestReset cls).rst.hold = some ⟨cls, max s.now t, false⟩ ∧
      ∃ ps, ((v.jobDone h.ref).requestReset cls).hwl = { v.hwl with ports := ps, outHigh := false, claiming := none, owner := false } := by
  have k : v.keepsBut [.host, .regs] (v.jobDone h.ref) := keeps_State_jobDone
  have hmode' : (v.jobDone h.ref).pwr.mode = .run := by rw [k .pwr (by decide)]; exact hmode
  have hhold' : (v.jobDone h.ref).rst.hold = none := by rw [k .rst (by decide)]; exact hhold
  have hbegins := State.requestReset_begins (cls := cls) (by rw [hmode']; decide) (by rw [hmode']; decide) hhold'
  have hheld := State.requestReset_hold (cls := cls) (by rw [hmode']; decide) (by rw [hmode']; decide) hhold'
  refine ⟨?_, ?_, ?_⟩
  · rw [hbegins]
    exact (State.jobDone_answers hv hsource).added (reportsAdded_beginHold _ cls false)
  · rw [hheld, k .now (by decide), hv.now]
  · obtain ⟨ps, hhwl⟩ := (v.jobDone h.ref).beginHold_hwl cls false
    exact ⟨ps, by rw [hbegins, hhwl, k .hwl (by decide)]⟩

/-- Settles O53. -/
theorem signedJobsAct : Obligations.SignedJobsAct := by
  unfold Obligations.SignedJobsAct
  refine ⟨?permit, ?clear, ?expert, ?token, ?reset, ?header, ?badHeader⟩
  case permit =>
    intro s n h d k t htakes hpos hlow hsourced
    obtain ⟨w, v, hrun, ⟨cqs, regs, out, hw⟩, ⟨cqs', regs', out', cch, checks, nonces, hv⟩, haccept, hanswers, hsource⟩ :=
      State.job_taken htakes rfl
    let v1 := v.modTim fun x => { x with permit := some ⟨v.now, d, k, h.ref⟩ }
    refine ⟨v1.jobDone h.ref, next_of_eq (hrun.trans ?_), State.jobDone_answers
        (v := v1) ⟨hanswers.now, hanswers.rqs, hanswers.node⟩ hsource, ?_⟩
    · show w.runWallTimeStep _ d k = _
      unfold State.runWallTimeStep
      rw [if_neg (by omega), if_neg (by omega), if_neg (by rw [hw]; exact hsourced), haccept]
    · rw [(keeps_State_jobDone .tim (by decide) : (v1.jobDone h.ref).tim = _)]
      show { v.tim with permit := some ⟨v.now, d, k, h.ref⟩ } = _
      rw [hanswers.now, hv]
      rfl
  case clear =>
    intro s n h g k t htakes hlog hopen
    obtain ⟨w, v, hrun, ⟨cqs, regs, out, hw⟩, ⟨cqs', regs', out', cch, checks, nonces, hv⟩, haccept, hanswers, hsource⟩ :=
      State.job_taken htakes rfl
    obtain ⟨hclearing, hjob, hslots⟩ := v.clearLog_log g (certOf ⟨h, .clearLog k⟩).1 (certOf ⟨h, .clearLog k⟩).2 h.ref
    refine ⟨v.clearLog g (certOf ⟨h, .clearLog k⟩).1 (certOf ⟨h, .clearLog k⟩).2 h.ref, next_of_eq (hrun.trans ?_), ?_, hclearing, hjob, ?_⟩
    · show w.runClearLog _ k = _
      unfold State.runClearLog
      simp only [hlog]
      rw [if_neg (by rw [hw]; exact ne_true_of_eq_false hopen), haccept]
    · show _ ∈ v.host.jobs
      rw [hv]
      exact List.mem_append_right _ List.mem_cons_self
    · rw [hslots, hv]
      rfl
  case expert =>
    intro s n h d t htakes hpos hlow
    obtain ⟨w, v, hrun, -, ⟨cqs', regs', out', cch, checks, nonces, hv⟩, haccept, hanswers, hsource⟩ := State.job_taken htakes rfl
    let v1 := if v.expertActive = true then v else v.event .security 7 0x80 0 d
    have hadded : v.reportsAdded v1 := reportsAdded_ite (reportsAdded_refl v) (reportsAdded_event v _ _ _ _ _)
    have k : v.keepsBut [.way, .host, .regs, .out] v1 := keepsBut_ite (keepsBut_refl _ _) keeps_State_event
    have hanswers1 := hanswers.added hadded (k .now (by decide)) (congrArg Hwl.nodeId (k .hwl (by decide)))
    let v2 : State := { v1 with boot := { v1.boot with expertUntil := some (v1.now + d * ticksPerSec) } }
    refine ⟨v2.jobDone h.ref, next_of_eq (hrun.trans ?_), State.jobDone_answers
        (v := v2) ⟨hanswers1.now, hanswers1.rqs, hanswers1.node⟩ hsource, ?_⟩
    · show w.runExpert _ d = _
      unfold State.runExpert
      rw [if_neg (by omega), if_neg (by omega), haccept]
    · rw [(keeps_State_jobDone .boot (by decide) : (v2.jobDone h.ref).boot = _)]
      show some (v1.now + d * ticksPerSec) = _
      rw [hanswers1.now]
  case token =>
    intro s n h x t e htakes hlen hmagic hversion hpos hlow hdebug henvelope
    obtain ⟨w, v, hrun, ⟨cqs, regs, out, hw⟩, ⟨cqs', regs', out', cch, checks, nonces, hv⟩, haccept, hanswers, hsource⟩ :=
      State.job_taken htakes rfl
    let v1 := v.modSec fun c => { c with token := some ⟨fieldAt x 6 1, x, jobHead ⟨h, .debugToken x⟩, e⟩ }
    let v2 := v1.bump cSecDebugTokens
    have k : v1.keepsBut [.regs] v2 := keeps_State_bump
    have hanswers2 : s.answersTo v2 t := State.answersTo.added (v := v1) ⟨hanswers.now, hanswers.rqs, hanswers.node⟩ k.reportsAdded
      (k .now (by decide)) (congrArg Hwl.nodeId (k .hwl (by decide)))
    refine ⟨v2.jobDone h.ref, next_of_eq (hrun.trans ?_), State.jobDone_answers hanswers2 hsource, ?_⟩
    · show w.runDebugToken _ x = _
      unfold State.runDebugToken
      simp only [henvelope]
      rw [if_neg (by rw [hlen, hmagic, hversion]; simp; omega), if_neg (by rw [hw]; exact ne_true_of_eq_false hdebug), if_neg
          (by omega), haccept]
    · rw [(keeps_State_jobDone .sec (by decide) : (v2.jobDone h.ref).sec = _), k .sec (by decide)]
      rfl
  case reset =>
    intro s n h d t htakes hmode hhold
    obtain ⟨w, v, hrun, -, ⟨cqs', regs', out', cch, checks, nonces, hv⟩, haccept, hanswers, hsource⟩ := State.job_taken htakes rfl
    obtain ⟨hdone, hheld, ps, hhwl⟩ := State.doneJob_held .swf hanswers hsource (by rw [hv]; exact hmode) (by rw [hv]; exact hhold)
    refine ⟨(v.jobDone h.ref).requestReset .swf, next_of_eq (hrun.trans ?_), hdone, hheld, (congrArg Hwl.owner hhwl :)⟩
    show w.runReset _ (decide (0 = 1)) = _
    unfold State.runReset
    rw [haccept]
    exact if_neg nofun
  case header =>
    intro s n h b t htakes hgood
    obtain ⟨w, v, hrun, -, ⟨cqs', regs', out', cch, checks, nonces, hv⟩, haccept, hanswers, hsource⟩ := State.job_taken htakes rfl
    let v1 : State := { v with nor := { v.nor with bootHeader := some b } }
    let v2 := v1.event .security 9 0x83 0 ((certOf ⟨h, .bootHeaderWrite b false⟩).1.toNat + 2 ^ 32 * b.crc.toNat + 0)
    have k : v1.keepsBut [.way, .host, .regs, .out] v2 := keeps_State_event
    have hanswers2 : s.answersTo v2 t := State.answersTo.added (v := v1) ⟨hanswers.now, hanswers.rqs, hanswers.node⟩
      (reportsAdded_event v1 _ _ _ _ _) (k .now (by decide)) (congrArg Hwl.nodeId (k .hwl (by decide)))
    refine ⟨v2.jobDone h.ref, next_of_eq (hrun.trans ?_), State.jobDone_answers hanswers2 hsource, ?_⟩
    · show w.runBootHeader _ b false = _
      unfold State.runBootHeader
      rw [if_neg (ne_false_of_eq_true hgood), haccept]
      exact if_neg nofun
    · rw [(keeps_State_jobDone .nor (by decide) : (v2.jobDone h.ref).nor = _), k .nor (by decide)]
  case badHeader =>
    intro s n h b f t htakes hbad
    obtain ⟨w, v, hrun, ⟨cqs, regs, out, hw⟩, -, -, -, hsource⟩ := State.job_taken htakes rfl
    have hanswers : s.answersTo w t := by
      rw [hw]
      exact State.answersTo_front _ _ _ _ _ _
    refine ⟨w.rejectJob h.ref .format, next_of_eq (hrun.trans (if_pos hbad)), ?_, State.rejectJob_answers hanswers hsource .format⟩
    rw [(keeps_State_rejectJob .nor (by decide) : (w.rejectJob h.ref .format).nor = _), hw]
    rfl

end Sys2Proof.Machine

/-! # Jobs that enter a lane -/

namespace Sys2Proof.Machine

-- One theorem after the other: a thread for each would pass the memory limit of the check.
set_option Elab.async false

/-! ## Work that enters its meter's lane (R116, R180, R373) -/

/-- A work that this node sequences takes the next ticket of its meter's lane (R373). -/
theorem State.sequenceWork_queued {s : State} {i : Nat} (h : s.sequences i = true) (ref : JobRef) :
    (∀ g op, s.sequenceWork i (.legal g op) ref = s.queueOp (laneOf i) (.legal g op (some ref) false)) ∧
      ∀ b, s.sequenceWork i (.context b) ref = s.queueOp (laneOf i) (.job b (some ref) false) :=
  ⟨fun _ _ => if_pos h, fun _ => if_pos h⟩

/-- The job that an accepted operation leaves open, and its place in the lane. -/
theorem State.jobTaken_queued {s v : State} {h : JobHdr} {code t i served : Nat} {cqs : List CmdQueue} {regs : Table (BitVec 32)}
    {out : List Emission} {cch : Cch} {checks : BitVec 4} {nonces : List (BitVec 64 × Nat × Option Nat)}
    (hv : v = (s.advance t).jobTaken h code cqs regs out cch served checks nonces) (o : CtxOp) :
    ⟨h.ref, code, none⟩ ∈ (v.queueOp (laneOf i) o).host.jobs ∧
      (v.queueOp (laneOf i) o).ing.inner = s.ing.inner ++ [⟨s.ing.ticket, [], .op o (laneOf i)⟩] := by
  subst hv
  exact ⟨List.mem_append_right _ List.mem_cons_self, rfl⟩

/-- An accepted legal job of a meter whose work this node sequences (R180, R373, R377). -/
theorem State.legal_queued {s : State} {n : Fin 4} {h : JobHdr} {b : JobBody} {g : Gmn} {op : LegalOp} {owned : Bool} {t i : Nat}
    (htakes : (s.advance t).takesJob n ⟨h, b⟩) (hlisted : jobListed b.code = true)
    (hrun : ∀ w : State, w.runJob ⟨h, b⟩ = w.runLegal ⟨h, b⟩ g op owned) (howned : owned = true → s.ownsMeters = true)
    (hi : s.heldIndex g = some i) (hkept : (s.ctxAt i).state ≠ .forward) (hmatch : s.mismatched i = false) (hseq : s.sequences i = true) :
    ∃ u, (s.advance t).intake ⟨h, b⟩ = u ∧ ⟨h.ref, b.code, none⟩ ∈ u.host.jobs ∧
      u.ing.inner = s.ing.inner ++ [⟨s.ing.ticket, [], .op (.legal g op (some h.ref) false) (laneOf i)⟩] := by
  obtain ⟨w, v, hintake, ⟨cqs, regs, out, hw⟩, ⟨cqs', regs', out', cch, checks, nonces, hv⟩, haccept, -, -⟩ := State.job_taken htakes
      hlisted
  have hi' : w.heldIndex g = some i := by rw [hw]; exact hi
  have hqueue := (State.sequenceWork_queued (s := v) (i := i) (by rw [hv]; exact hseq) h.ref).1 g op
  refine ⟨v.queueOp (laneOf i) (.legal g op (some h.ref) false), hintake.trans ((hrun w).trans ?_), State.jobTaken_queued hv _⟩
  unfold State.runLegal
  simp only [hi']
  rw [if_neg fun hno => absurd hno.2 (by rw [hw]; exact ne_false_of_eq_true (howned hno.1)), if_neg (by rw [hw]; exact hkept),
    if_neg (by rw [hw]; exact ne_true_of_eq_false hmatch), haccept]
  exact hqueue

/-- An accepted job on the context of a meter whose work this node sequences (R116, R373). -/
theorem State.context_queued {s : State} {n : Fin 4} {h : JobHdr} {b : JobBody} {t i : Nat}
    (htakes : (s.advance t).takesJob n ⟨h, b⟩) (hlisted : jobListed b.code = true) (hseq : s.sequences i = true)
    (hrun : ∀ w : State, (∃ served cqs regs out, w = (s.advance t).jobFront served cqs regs out) → w.runJob ⟨h, b⟩ =
      w.onAccept ⟨h, b⟩ fun st => st.sequenceWork i (.context b) h.ref) :
    ∃ u, (s.advance t).intake ⟨h, b⟩ = u ∧ ⟨h.ref, b.code, none⟩ ∈ u.host.jobs ∧
      u.ing.inner = s.ing.inner ++ [⟨s.ing.ticket, [], .op (.job b (some h.ref) false) (laneOf i)⟩] := by
  obtain ⟨w, v, hintake, ⟨cqs, regs, out, hw⟩, ⟨cqs', regs', out', cch, checks, nonces, hv⟩, haccept, -, -⟩ := State.job_taken htakes
      hlisted
  have hqueue := (State.sequenceWork_queued (s := v) (i := i) (by rw [hv]; exact hseq) h.ref).2 b
  refine ⟨v.queueOp (laneOf i) (.job b (some h.ref) false), hintake.trans ((hrun w ⟨_, _, _, _, hw⟩).trans ?_), State.jobTaken_queued hv _⟩
  rw [haccept]
  exact hqueue

theorem State.runContextOp_held {w : State} {h : JobHdr} {b : JobBody} {g : Gmn} {i : Nat} (hi : w.heldIndex g = some i) :
    w.runContextOp ⟨h, b⟩ g = w.onAccept ⟨h, b⟩ fun st => st.sequenceWork i (.context b) h.ref := by
  unfold State.runContextOp
  simp only [hi]

/-- Whether both keys unwrap stands on the key slots alone (R438). -/
theorem State.unwrapsBoth_of {s u : State} (h : u.sec = s.sec) (k : Nat)
    (ek ak : BitVec 192) : u.unwrapsBoth k ek ak = s.unwrapsBoth k ek ak := by
  have hslot : u.keySlot k = s.keySlot k := by
    unfold State.keySlot
    rw [h]
  unfold State.unwrapsBoth State.unwrapUnder State.keyUsable
  rw [State.usableWithin_of h, hslot]

/-- Settles O50. -/
theorem legalAndContextJobsEnterTheirLane : Obligations.LegalAndContextJobsEnterTheirLane := by
  unfold Obligations.LegalAndContextJobsEnterTheirLane
  refine ⟨?tariff, ?credit, ?disconnect, ?reconnect, ?release, ?enrol, ?remove, ?keys, ?counters⟩
  case tariff =>
    intro s n h k t x htakes howns hformat hcert hsig hcarries hslot hok hnewer hlead
    obtain ⟨w, v, hrun, ⟨cqs, regs, out, hw⟩, ⟨cqs', regs', out', cch, checks, nonces, hv⟩, haccept, -, -⟩ := State.job_taken htakes rfl
    have howns' : w.ownsMeters = true := by rw [hw]; exact howns
    have hcert' : w.acceptsCert x.cert = true := by rw [hw]; exact hcert
    have hnewer' : ((w.tariffSlot k).any fun y => decide (x.revision ≤ y.revision)) = false := by rw [hw]; exact hnewer
    have hlead' : w.sec2020 + w.item iTariffLead ≤ x.activate := by rw [hw]; exact hlead
    refine ⟨v.toFuller (.tariff k x (some h.ref)), next_of_eq (hrun.trans ?_), ?_, ?_⟩
    · show w.runTariff _ k x = _
      unfold State.runTariff
      rw [if_neg (ne_false_of_eq_true howns'), if_neg (ne_false_of_eq_true hformat),
        if_neg (not_or.2 ⟨ne_false_of_eq_true hcert', ne_false_of_eq_true hsig⟩), if_neg (ne_false_of_eq_true hcarries),
        if_neg (not_or.2 ⟨by omega, not_or.2 ⟨ne_false_of_eq_true hok, not_or.2 ⟨ne_true_of_eq_false hnewer', by omega⟩⟩⟩), haccept]
    · show _ ∈ v.host.jobs
      rw [hv]
      exact List.mem_append_right _ List.mem_cons_self
    · show v.ful.queue ++ _ = _
      rw [hv]
      rfl
  case credit =>
    intro s n h g a t i htakes howns hi hkept hmatch hseq
    obtain ⟨u, hu, hopen, hinner⟩ := State.legal_queued htakes rfl (fun _ => rfl) (fun _ => howns) hi hkept hmatch hseq
    exact ⟨u, next_of_eq hu, hopen, hinner⟩
  case disconnect =>
    intro s n h g t i htakes howns hi hkept hmatch hseq
    obtain ⟨u, hu, hopen, hinner⟩ := State.legal_queued htakes rfl (fun _ => rfl) (fun _ => howns) hi hkept hmatch hseq
    exact ⟨u, next_of_eq hu, hopen, hinner⟩
  case reconnect =>
    intro s n h g f t i htakes howns hi hkept hmatch hseq
    obtain ⟨u, hu, hopen, hinner⟩ := State.legal_queued htakes rfl (fun _ => rfl) (fun _ => howns) hi hkept hmatch hseq
    exact ⟨u, next_of_eq hu, hopen, hinner⟩
  case release =>
    intro s n h g m t i htakes hm hi hkept hmatch hseq
    obtain ⟨u, hu, hopen, hinner⟩ := State.legal_queued htakes rfl (fun _ => rfl) nofun hi hkept hmatch hseq
    exact ⟨u, next_of_eq hu, hopen, hinner⟩
  case enrol =>
    intro s n h a t i htakes hgroup hrating hphase hradio hchan hi hempty hkeys hseq
    obtain ⟨u, hu, hopen, hinner⟩ := State.context_queued htakes rfl hseq fun w ⟨served, cqs, regs, out, hw⟩ => by
      have hi' : w.indexFor a.gmn = some i := by rw [hw]; exact hi
      have hkeys' := (State.unwrapsBoth_of (s := s) (u := w) (by rw [hw]; rfl) a.keySlot a.ekWrapped a.akWrapped).trans hkeys
      show w.runEnrol ⟨h, .enrolMeter a⟩ a = _
      unfold State.runEnrol
      simp only [hi']
      rw [if_neg (by omega), if_neg fun hno => hno.1 (by rw [hw]; exact hempty), if_neg (ne_false_of_eq_true hkeys')]
    exact ⟨u, next_of_eq hu, hopen, hinner⟩
  case remove =>
    intro s n h g t i htakes hi hseq
    obtain ⟨u, hu, hopen, hinner⟩ := State.context_queued htakes rfl hseq fun w ⟨served, cqs, regs, out, hw⟩ =>
      State.runContextOp_held (by rw [hw]; exact hi)
    exact ⟨u, next_of_eq hu, hopen, hinner⟩
  case keys =>
    intro s n h g k t i ek ak htakes hi hkeys hseq
    obtain ⟨u, hu, hopen, hinner⟩ := State.context_queued htakes rfl hseq fun w ⟨served, cqs, regs, out, hw⟩ => by
      have hi' : w.heldIndex g = some i := by rw [hw]; exact hi
      have hkeys' := (State.unwrapsBoth_of (s := s) (u := w) (by rw [hw]; rfl) k ek ak).trans hkeys
      show w.runKeyChange ⟨h, .keyChange g k ek ak⟩ g k ek ak = _
      unfold State.runKeyChange
      simp only [hi']
      rw [if_neg (ne_false_of_eq_true hkeys')]
    exact ⟨u, next_of_eq hu, hopen, hinner⟩
  case counters =>
    intro s n h g rx tx t i htakes hi hseq
    obtain ⟨u, hu, hopen, hinner⟩ := State.context_queued htakes rfl hseq fun w ⟨served, cqs, regs, out, hw⟩ =>
      State.runContextOp_held (by rw [hw]; exact hi)
    exact ⟨u, next_of_eq hu, hopen, hinner⟩

end Sys2Proof.Machine

/-! # Jobs on meters -/

namespace Sys2Proof.Machine

-- One theorem after the other: a thread for each would pass the memory limit of the check.
set_option Elab.async false

/-! ## What ends with a transaction (R314) -/

theorem State.pullRequest_tags (s : State) (r : Request) : (s.pullRequest r).txn.tags = s.txn.tags := by
  have h : (s.pullRequest r).txn = { s.txn with pending := s.txn.pending.erase r } := keeps_State_countPending .txn (by decide)
  rw [h]

theorem State.pullRequests_tags (l : List Request) (s : State) : (l.foldl State.pullRequest s).txn.tags = s.txn.tags := by
  induction l generalizing s with
  | nil => rfl
  | cons r l ih => exact (ih _).trans (s.pullRequest_tags r)

/-- The tag of a transaction that ends rests in quarantine (R314). -/
theorem State.completeTxn_tags {s : State} {t : Nat} {r : Request} (outcome : Nat) (deferred : Bool) (h : (s.tagAt t).request = some r) :
    (s.completeTxn t outcome deferred).txn.tags = Table.set Tag.fresh s.txn.tags t { s.tagAt t with
      state := .quarantine
      request := none
      deadline := none
      restUntil := s.ms + s.quarantineMs (s.tagAt t).medium r.body.kind } := by
  unfold State.completeTxn
  extract_lets v
  split
  · rename_i hnone
    exact absurd (hnone.symm.trans h) nofun
  · rename_i r' hr'
    obtain rfl : r' = r := Option.some.inj (hr'.symm.trans h)
    extract_lets rest s1 s2 s3 s4 s5 s6
    have h2 : s2.txn.tags = s1.txn.tags := State.pullRequests_tags _ s1
    have h3 : s3.txn = s2.txn := by
      unfold s3
      split
      · rfl
      · rfl
    have h5 : s5.txn = s3.txn := by
      have h4 : s4.txn = s3.txn := keeps_State_bump .txn (by decide)
      refine Eq.trans ?_ h4
      unfold s5
      split
      · exact keeps_State_raiseInt .txn (by decide)
      · rfl
    have h6 : s6.txn = s5.txn := keeps_State_post .txn (by decide)
    have hend : (((s6.statusReadOver r'.campaign r'.gmn).reportOutcome r' (tagName t v.gen) outcome deferred).topUpIssues).txn = s6.txn :=
      (keeps_State_statusReadOver.within (L := [.upd, .way, .host, .limits, .cch, .regs, .out]) |>.then keeps_State_reportOutcome
        |>.then keeps_State_topUpIssues) .txn (by decide)
    rw [hend, h6, h5, h3, h2]
    rfl

/-! ## A snapshot while the mains fade (R217) -/

/-- The header of a SNAPSHOT_GROUP job that names all of group 0. -/
def snapHdr : JobHdr := (withDcrc ⟨⟨.cq 0, 7, 0, false, false, 0, 0, 0, 0, 0, none⟩, .snapshotGroup 0 1 5 []⟩).hdr

/-- A running device whose mains are only assumed: for the first two seconds after step 15, which end before the command's time. -/
def mainsFade : State :=
  { State.reset with
    cfg := [(iBalGroup 0, 1 :: List.replicate 23 0)]
    pwr.mode := .run
    pwr.metAssumed := true
    boot.stage := 15
    boot.locked := true
    host.queuesOpen := true
    host.cqs := [⟨0, 1⟩, ⟨0, 0⟩, ⟨0, 0⟩, ⟨0, 0⟩] }

theorem mainsFade_takes : (mainsFade.advance (2 * ticksPerSec)).takesJob 0 ⟨snapHdr, .snapshotGroup 0 1 5 []⟩ := by
  unfold State.takesJob State.jobComes
  decide +kernel

/-- The snapshot job is rejected, for at its time the mains are absent, and is open no more. -/
theorem mainsFade_rejects : ∀ u, exec (.snapshotGroup snapHdr 0 1 5 [] (2 * ticksPerSec)) mainsFade = .next u → u.host.jobs = [] := by
  have hjobs : (match exec (.snapshotGroup snapHdr 0 1 5 [] (2 * ticksPerSec)) mainsFade with
      | .next u => decide (u.host.jobs = [])
      | _ => true) = true := by decide +kernel
  intro u hu
  rw [hu] at hjobs
  exact of_decide_eq_true hjobs

/-- Refutes O49: its second clause looks for the mains in the state before the command's time. At the state `mainsFade` the mains are
    assumed,
but no longer 2 s later, when SNAPSHOT_GROUP comes: the job is rejected with NO_MAINS and is not open. -/
theorem not_meterJobsAreTaken : ¬ Obligations.MeterJobsAreTaken := by
  unfold Obligations.MeterJobsAreTaken
  rintro ⟨-, hsnapshot, -⟩
  obtain ⟨u, hu, hopen, -⟩ := hsnapshot mainsFade 0 snapHdr 0 5 (2 * ticksPerSec) [] mainsFade_takes (by decide +kernel) (by decide +kernel)
    (by decide +kernel) (by decide +kernel) (by decide +kernel) (by decide +kernel)
  rw [mainsFade_rejects u hu] at hopen
  exact absurd hopen List.not_mem_nil

end Sys2Proof.Machine

/-! # What peers ask for -/

namespace Sys2Proof.Machine

-- One theorem after the other: a thread for each would pass the memory limit of the check.
set_option Elab.async false

/-! ## Operating time stands through events (R90, R511) -/

/-- From `s` to `u` the operating time stands. -/
def State.opTimeKept (s u : State) : Prop := u.way.opTime = s.way.opTime

theorem State.opTimeKept.then {s v u : State} (h : s.opTimeKept v) (g : v.opTimeKept u) : s.opTimeKept u := g.trans h

theorem State.keepsBut.opTimeKept {A : List Part} {s u : State} (h : s.keepsBut A u) (sub : Part.way ∉ A := by decide) : s.opTimeKept u :=
  congrArg Way.opTime (h .way sub)

theorem opTimeKept_ite {s a b : State} {c : Prop} [Decidable c] (ha : s.opTimeKept a) (hb : s.opTimeKept b) :
    s.opTimeKept (if c then a else b) := by
  split
  · exact ha
  · exact hb

theorem opTimeKept_foldl {α : Type} {s v : State} {f : State → α → State} {l : List α}
    (hf : ∀ (u : State) a, u.opTimeKept (f u a)) (hv : s.opTimeKept v) : s.opTimeKept (l.foldl f v) := by
  induction l generalizing v with
  | nil => exact hv
  | cons a l ih => exact ih (hv.then (hf v a))

theorem Way.setLog_opTime (w : Way) (g : LogId) (l : Log) : (w.setLog g l).opTime = w.opTime := by
  cases g with
  | legal => rfl
  | security => rfl
  | operations => rfl

theorem opTimeKept_eventReport (s : State) (g : LogId) (r : WayRecord) (notLogged : Bool) : s.opTimeKept (s.eventReport g r notLogged) := by
  unfold State.eventReport
  exact opTimeKept_ite (keeps_State_reportOut.within (L := [.host, .regs]) |>.then keeps_State_bump).opTimeKept rfl

theorem opTimeKept_refuseEvent (s : State) (g : LogId) (r : WayRecord) : s.opTimeKept (s.refuseEvent g r) := by
  unfold State.refuseEvent
  extract_lets l s1 s2 s3
  have h2 : s.opTimeKept s2 := State.opTimeKept.then (v := s1) (Way.setLog_opTime s.way g _) keeps_State_bump.opTimeKept
  have h3 : s.opTimeKept s3 := opTimeKept_ite h2 (h2.then (State.opTimeKept.then (v := s2.buffer _) rfl keeps_State_raiseInt.opTimeKept))
  exact h3.then (opTimeKept_eventReport s3 g r true)

theorem opTimeKept_acceptEvent (s : State) (g : LogId) (r : WayRecord) : s.opTimeKept (s.acceptEvent g r) := by
  unfold State.acceptEvent State.decideEvent
  refine opTimeKept_ite (keeps_State_bump.within (L := [.regs, .out]) |>.then keeps_State_raiseInt).opTimeKept ?_
  have hcount : s.opTimeKept (s.bump cWayEventsIn) := keeps_State_bump.opTimeKept
  refine opTimeKept_ite (opTimeKept_ite ?_ ?_) ?_
  · exact hcount.then (opTimeKept_refuseEvent _ g r)
  · exact hcount.then (opTimeKept_eventReport ((s.bump cWayEventsIn).buffer ⟨g, r, true⟩) g r false)
  · exact hcount

theorem opTimeKept_eventLimited (s : State) (g : LogId) (sp : Span) (who source code set payload : Nat) :
    s.opTimeKept (s.eventLimited g sp who source code set payload) := by
  unfold State.eventLimited
  extract_lets m
  refine opTimeKept_ite (opTimeKept_acceptEvent s g _) (opTimeKept_ite rfl ?_)
  exact (keeps_with_limits (s := s) (limitsv := m :: s.limits)).opTimeKept.then (opTimeKept_acceptEvent _ g _)

theorem opTimeKept_note (s : State) (c : Counter) (g : LogId) (sp : Span) (who payload : Nat) : s.opTimeKept (s.note c g sp who payload) :=
  (keeps_State_bump (s := s) (c := c)).opTimeKept.then (opTimeKept_eventLimited _ g sp who c.source c.code c.set payload)

theorem opTimeKept_hwlSend (s : State) (d : Nat) (tag : BitVec 32) (b : HwlBody) : s.opTimeKept (s.hwlSend d tag b) := by
  unfold State.hwlSend
  extract_lets r
  exact opTimeKept_ite (opTimeKept_note s _ _ _ _ _) keeps_State_hwlQueue.opTimeKept

theorem opTimeKept_post (s : State) (t : Task) : s.opTimeKept (s.post t).1 := by
  cases hacc : s.accept? t with
  | none =>
    rw [State.post_none hacc]
    unfold State.postFailed
    refine State.opTimeKept.then ?_ (opTimeKept_note _ _ _ _ _ _)
    exact (opTimeKept_ite keeps_State_raiseInt.opTimeKept rfl).then keeps_State_raiseInt.opTimeKept
  | some s1 =>
    have hok : (s.post t).2 = true := by rw [State.post_some hacc]
    exact (State.post_taken hok).opTimeKept

theorem opTimeKept_topUpIssues (s : State) : s.opTimeKept s.topUpIssues := by
  have hposts : ∀ (n : Nat) (u : State) (x : Nat), u.opTimeKept (u.postIssues x n) := fun n => by
    induction n with
    | zero => exact fun u x => rfl
    | succ n ih =>
      intro u x
      have hpost := opTimeKept_post u (u.taskFor (issueKind x) (x - 11) 0)
      unfold State.postIssues
      split
      · rename_i s1 heq
        rw [heq] at hpost
        exact hpost.then (ih s1 x)
      · rename_i s1 heq
        rw [heq] at hpost
        exact hpost
  unfold State.topUpIssues
  exact opTimeKept_ite rfl (opTimeKept_foldl (fun u x => hposts _ u x) rfl)

/-! ## Actions of an owner (R234, R383) -/

theorem State.modCtx_ctxAt {s : State} {i : Nat} {f : Context → Context} (h : (f (s.ctxAt i)).state ≠ .empty) :
    (s.modCtx i f).ctxAt i = f (s.ctxAt i) := State.setCtx_ctxAt h

theorem State.heldIndex_state {s : State} {g : Gmn} {i : Nat} (h : s.heldIndex g = some i) : (s.ctxAt i).state ≠ .empty := by
  unfold State.heldIndex at h
  split at h
  · exact absurd h nofun
  · split at h
    · rename_i hok
      exact Option.some.inj h ▸ hok.1
    · exact absurd h nofun

/-- A pending request counts on its meter's context and leaves what BAL keeps of meters (R311). -/
theorem State.countPending_bal (s : State) (r : Request) (up : Bool) (j : Nat) : ((s.countPending r up).ctxAt j).bal = (s.ctxAt j).bal := by
  unfold State.countPending
  split
  · rfl
  · rename_i i hi
    have hheld : (s.ctxAt i).state ≠ .empty := by
      unfold State.reqIndex at hi
      split at hi
      · exact absurd hi nofun
      · exact State.heldIndex_state hi
    by_cases hj : j = i
    · subst hj
      show ((s.modCtx j _).ctxAt j).bal = _
      rw [State.modCtx_ctxAt]
      exact hheld
    · exact congrArg Context.bal (State.setCtx_ctxAt_other hj)

theorem opTimeKept_anomaly (s : State) (i action time : Nat) (cause : BitVec 7) : s.opTimeKept (s.anomaly i action time cause) := by
  unfold State.anomaly
  extract_lets c b a r r1
  have hraised : s.opTimeKept ((s.bump cBalAnomalyReports).raiseInt 0x150004 1) :=
    (keeps_State_bump.within (L := [.regs, .out]) |>.then keeps_State_raiseInt).opTimeKept
  have hful (u : State) (x : FulItem) : u.opTimeKept (u.balToFuller x) := by
    unfold State.balToFuller
    exact opTimeKept_ite keeps_State_toFuller.opTimeKept ((keeps_State_raiseInt (s := u)).opTimeKept.then (opTimeKept_note _ _ _ _ _ _))
  exact hraised.then ((hful _ _).then keeps_State_reportOut.opTimeKept)

/-- An action that is taken counts for the day (R234). -/
theorem State.actionTaken_counts (s : State) (i action time : Nat) : s.opTimeKept (s.actionTaken i action time) ∧
    (s.actionTaken i action time).bal = { s.bal with actionsToday := s.actionsToday + 1, actionDay := s.way.opTime / 86400 } := by
  unfold State.actionTaken
  extract_lets c b s1 s2
  have h2 : s.opTimeKept s2 := State.opTimeKept.then (v := s1) rfl ((keeps_State_raiseInt (s := s1)).opTimeKept.then
      (opTimeKept_note _ _ _ _ _ _))
  refine ⟨h2.then (opTimeKept_anomaly s2 i action time 0), ?_⟩
  exact (keeps_State_raiseInt.within (L := [.way, .ful, .host, .limits, .regs, .out]) |>.then keeps_State_note
    |>.then keeps_State_anomaly) .bal (by decide)

theorem State.actionsToday_of {s u : State} (hbal : u.bal = s.bal) (htime : s.opTimeKept u) : u.actionsToday = s.actionsToday := by
  unfold State.actionsToday
  rw [hbal, show u.way.opTime = s.way.opTime from htime]

/-- A hold that an owner issues is counted for the day and noted of its meter (R234). -/
theorem State.issueAction_hold {s : State} {i : Nat} (time : Nat) (hheld : (s.ctxAt i).state ≠ .empty) :
    (s.issueAction i 2 time).actionsToday = s.actionsToday + 1 ∧ ((s.issueAction i 2 time).ctxAt i).bal.holdIssued = true := by
  unfold State.issueAction
  extract_lets g s1
  rw [if_pos rfl]
  have k1 : s.keepsBut [.txn, .ctx] s1 := keeps_State_modBal.within |>.then keeps_State_pushRequest
  have ktop : s1.keepsBut [.way, .host, .limits, .cch, .regs, .out] s1.topUpIssues := keeps_State_topUpIssues
  obtain ⟨htime, hbal⟩ := s1.topUpIssues.actionTaken_counts i 2 time
  have htoday : s1.topUpIssues.actionsToday = s.actionsToday :=
    State.actionsToday_of ((ktop .bal (by decide)).trans (k1 .bal (by decide))) (k1.opTimeKept.then (opTimeKept_topUpIssues s1))
  refine ⟨?_, ?_⟩
  · unfold State.actionsToday at htoday ⊢
    rw [hbal, show (s1.topUpIssues.actionTaken i 2 time).way.opTime = s1.topUpIssues.way.opTime from htime, if_pos rfl]
    exact congrArg (· + 1) htoday
  · have hctx : (s1.topUpIssues.actionTaken i 2 time).ctx = s1.ctx := (ktop.within (L := [.way, .ful, .host, .limits, .bal, .regs, .out,
      .cch])
      |>.then keeps_State_actionTaken) .ctx (by decide)
    rw [State.ctxAt_of hctx]
    have hpush : (s1.ctxAt i).bal = ((s.modBal i fun b => { b with holdIssued := true }).ctxAt i).bal := State.countPending_bal _ _ true i
    rw [hpush]
    unfold State.modBal
    rw [State.modCtx_ctxAt]
    exact hheld

/-! ## What a peer asks for (R373, R383, R390, R391) -/

/-- A job of a link is closed and answered towards the node that sent it (R391, R409). -/
theorem State.finishJob_link {s : State} {h : JobHdr} {p : Fin 4} {d : NodeId} (hsource : h.source = .fabric p d) (status : Nat)
    (reason : Reason)
    (outcome : Nat) (detail : List Byte) (data : ReportData) :
    ⟨.fabric p d, ⟨.jobResult status reason.code outcome detail, data, true, false, false, h.jobId, s.hwl.nodeId⟩, s.now, false⟩ ∈
      (s.finishJob h.ref status reason outcome detail data).host.waiting := by
  unfold State.finishJob State.jobReport
  have hdest : (s.closeJob h.ref).jobDest h.ref = [.fabric p d] := by
    unfold State.jobDest
    rw [show h.ref.source = .fabric p d from hsource]
  rw [hdest]
  exact List.mem_append_right _ (List.mem_singleton.2 rfl)

/-- A state that differs from another in what a packet writes is that state with those parts. -/
theorem State.keepsBut.eq_link {s w : State} (h : s.keepsBut [.regs, .out, .hwl] w) : w =
    { s with regs := w.regs, out := w.out, hwl := w.hwl } := by
  obtain ⟨⟩ := w
  rw [State.mk.injEq]
  exact ⟨h .pending (by decide), h .now (by decide), h .draws (by decide), rfl, h .latches (by decide), h .cfg (by decide),
    h .limits (by decide), rfl, h .boot (by decide), h .nor (by decide), h .sec (by decide), h .way (by decide), h .pwr (by decide),
    h .rst (by decide), h .pins (by decide), h .host (by decide), h .eth (by decide), h .sb (by decide), h .cch (by decide),
    h .txn (by decide), h .upd (by decide), h .cyc (by decide), h .tim (by decide), h .ctx (by decide), h .ing (by decide),
    h .val (by decide), rfl, h .bil (by decide), h .lgc (by decide), h .met (by decide), h .bal (by decide), h .ful (by decide),
    h .readings (by decide), h .plc (by decide), h .rfm (by decide), h .mem (by decide)⟩

/-- A probe of a right that a link brings runs and is answered (R61, R391, R451). -/
theorem State.probe_runs {s w : State} {h : JobHdr} {o : Nat} {p : Fin 4} {d : NodeId} (hsource : h.source = .fabric p d)
    (htakes : s.probeTakes h o) (hw : s.keepsBut [.regs, .out, .hwl] w) : ∃ v : State,
      w.takeJob ⟨h, .registerRead o 0⟩ = v.finishJob h.ref 0 .none 0 [0, 0] .none ∧ v.hwl.nodeId = w.hwl.nodeId ∧ v.now = w.now := by
  obtain ⟨hdcrc, hid, hattach, hmay, hhere, hencoding, hmode, hright, hpost⟩ := htakes
  have k1 : s.keepsBut [.regs, .out, .hwl] (w.bump cPciJobsIn) := hw.then keeps_State_bump
  have hhwl : (w.bump cPciJobsIn).hwl = w.hwl := keeps_State_bump .hwl (by decide)
  have hnow : (w.bump cPciJobsIn).now = w.now := keeps_State_bump .now (by decide)
  have hattach' : (w.bump cPciJobsIn).attachOk ⟨h, .registerRead o 0⟩ = true := by
    rw [k1.eq_link]
    exact hattach
  have hmay' : (w.bump cPciJobsIn).maySubmit h.source = true := by
    rw [k1.eq_link]
    exact hmay
  have hhere' : (w.bump cPciJobsIn).carriedTo h = none := by
    unfold State.carriedTo
    rw [hsource]
  have hmode' : acceptedIn 0x03 (w.bump cPciJobsIn).pwr.mode (w.bump cPciJobsIn).boot.reduced = true := by
    rw [k1.eq_link]
    exact hmode
  have hright' : (w.bump cPciJobsIn).lackedRight (sourceMaster h.source) (.registerRead o 0) = none := by
    rw [k1.eq_link]
    exact hright
  have htake : w.takeJob ⟨h, .registerRead o 0⟩ = (w.bump cPciJobsIn).runRegisterRead ⟨h, .registerRead o 0⟩ o 0 := by
    unfold State.takeJob
    refine (if_neg (ne_false_of_eq_true hdcrc)).trans ((if_neg hid).trans ((if_neg ?_).trans ((if_neg (ne_false_of_eq_true hattach')).trans
      ((if_neg (ne_false_of_eq_true hmay')).trans ?_))))
    · exact nofun
    · simp only [hhere']
      refine (if_neg (ne_false_of_eq_true hencoding)).trans ?_
      show State.acceptAndRun _ _ _ = _
      unfold State.acceptAndRun
      refine (if_neg nofun).trans ((if_neg (ne_false_of_eq_true hmode')).trans ?_)
      simp only [hright']
      rfl
  have hrun : ∃ v : State, (w.bump cPciJobsIn).runRegisterRead ⟨h, .registerRead o 0⟩ o 0 = v.finishJob h.ref 0 .none 0 [0, 0] .none ∧
      v.hwl.nodeId = (w.bump cPciJobsIn).hwl.nodeId ∧ v.now = (w.bump cPciJobsIn).now := by
    let x := w.bump cPciJobsIn
    let posted := if x.pwr.mode = .recovery then (x, true) else x.post (x.jobTask 0x03)
    have hposted : posted.2 = true ∧ x.keepsBut [.cch, .regs, .out] posted.1 := by
      by_cases hrecovery : x.pwr.mode = .recovery
      · rw [show posted = (x, true) from if_pos hrecovery]
        exact ⟨rfl, keepsBut_refl _ _⟩
      · rw [show posted = x.post (x.jobTask 0x03) from if_neg hrecovery]
        have hok : (x.post (x.jobTask 0x03)).2 = true := by
          refine (State.post_found (k1 .cch (by decide))).trans ?_
          rw [show x.jobTask 0x03 = s.jobTask 0x03 by rw [show x = _ from k1.eq_link]; rfl]
          refine hpost.resolve_left ?_
          rw [← show x.pwr = s.pwr from k1 .pwr (by decide)]
          exact hrecovery
        exact ⟨hok, State.post_taken hok⟩
    obtain ⟨hok, kp⟩ := hposted
    have kall : x.keepsBut [.cch, .regs, .out, .sec, .host] ((posted.1.enterNonce ⟨h, .registerRead o 0⟩).openJob h.ref 0x03) :=
      kp.within |>.then keeps_State_enterNonce |>.then keeps_State_openJob
    refine ⟨_, ?_, congrArg Hwl.nodeId (kall .hwl (by decide)), kall .now (by decide)⟩
    unfold State.runRegisterRead
    refine (if_neg (by decide)).trans ?_
    unfold State.onAccept
    refine (if_pos hok).trans ?_
    simp only [hsource]
    rfl
  obtain ⟨v, hv, hnode, hvnow⟩ := hrun
  exact ⟨v, htake.trans hv, by rw [hnode, hhwl], by rw [hvnow, hnow]⟩

/-- What a packet writes has no part in whether a reset that it carries is verified (R23, R474). -/
theorem resetPacketOk_of {s w : State} (h : s.keepsBut [.regs, .out, .hwl] w) (hassigned : w.hwl.assigned = s.hwl.assigned)
    (hnode : w.hwl.nodeId = s.hwl.nodeId) (j : Job) : w.resetPacketOk j = s.resetPacketOk j := by
  have hsigned : w.signedReason j = s.signedReason j := by
    rw [h.eq_link]
    rfl
  unfold State.resetPacketOk
  rw [hassigned, hnode, hsigned]

/-- Settles O41: what a packet brings comes to a state that differs from `s` in its time, its ports and its registers only, and each kind
    is then what
the same thing of the host would be. -/
theorem peersAskForWork : Obligations.PeersAskForWork := by
  unfold Obligations.PeersAskForWork
  refine ⟨?entry, ?seq, ?barred, ?action, ?job, ?probe, ?report, ?reset⟩
  case entry =>
    intro s l e t harrives hdata hfifos hfits
    obtain ⟨ps, heard, hr, -⟩ := (s.advance t).received_hwl l
    have k : (s.advance t).keepsBut [.regs, .out, .hwl] ((s.advance t).received l) := keeps_State_received
    have hfits' : ((s.advance t).received l).frameFits (entryFrame e 8) = true :=
      (State.frameFits_assigned (s := s) (k .ing (by decide)) (k .boot (by decide)) (congrArg Hwl.assigned hr :) _).trans hfits
    have hfifo : (((s.advance t).received l).ingestFrame (entryFrame e 8)).fifo 8 = _ :=
      State.ingestFrame_fifo hfits' (by rw [k .ing (by decide)]; exact hfifos)
    refine ⟨((s.advance t).received l |>.ingestFrame (entryFrame e 8)).bump cHwlFwdEntries, next_of_eq ((if_neg ?_).trans
      ((State.hwlReceive_arrives harrives _).trans (if_pos hdata))), ?_⟩
    · exact fun hno => absurd hno.2 (ne_false_of_eq_true ((State.frameFits_assigned (u := s.advance t) (s := s) rfl rfl rfl _).trans hfits))
    · unfold State.fifo at hfifo ⊢
      rw [keeps_State_bump .ing (by decide), hfifo, k .ing (by decide)]
      rfl
  case seq =>
    intro s l g op t i harrives hi
    obtain ⟨ps, heard, hr, -⟩ := (s.advance t).received_hwl l
    have k : (s.advance t).keepsBut [.regs, .out, .hwl] ((s.advance t).received l) := keeps_State_received
    have hi' : ((s.advance t).received l).indexFor g = some i :=
      (State.indexFor_of (s := s) (k .boot (by decide)) (congrArg Hwl.assigned hr :) (congrArg Hwl.nodeId hr :)
          (fun j => k.item j) g).trans hi
    obtain ⟨hinner, -⟩ := State.streamOp_inner (.legal g op none false) none hi'
    refine ⟨_, next_of_eq (State.hwlReceive_arrives harrives _), ?_⟩
    rw [hinner, k .ing (by decide)]
    rfl
  case barred =>
    intro s l g r t harrives hg hnone hr hopen
    let w := (s.advance t).received l
    have hsends : s.sendsAs w := State.sendsAs.then (v := s.advance t) (sendsAs_of rfl rfl rfl rfl rfl fun _ => rfl) (sendsAs_received _ l)
    have hnone' : w.heldIndex (BitVec.ofNat 20 (fieldAt l.payload 0 4)) = none := by
      rw [State.received_heldIndex, ← hg]
      exact hnone
    refine ⟨w.hwlSend l.src.toNat 0 (.report r), next_of_eq ((State.hwlReceive_arrives harrives _).trans ?_), w.out, ?_⟩
    · simp only [show ((s.advance t).received l).heldIndex _ = none from hnone']
      rw [hr, hg, hsends.node]
      rfl
    · rw [State.hwlSend_out 0 (hsends.openTo hopen), hsends.packetTo]
  case action =>
    intro s l g t i harrives hg haction howner hi hmatch hfew
    obtain ⟨ps, heard, hr, -⟩ := (s.advance t).received_hwl l
    have k : (s.advance t).keepsBut [.regs, .out, .hwl] ((s.advance t).received l) := keeps_State_received
    have hi' : ((s.advance t).received l).heldIndex (BitVec.ofNat 20 (fieldAt l.payload 0 4)) = some i := by
      rw [State.received_heldIndex, ← hg]
      exact hi
    have howner' : ((s.advance t).received l).hwl.owner = true := (congrArg Hwl.owner hr :).trans howner
    have hmatch' : ((s.advance t).received l).mismatched i = false := by
      unfold State.mismatched
      rw [show ((s.advance t).received l).hwl.mismatch = s.hwl.mismatch from (congrArg Hwl.mismatch hr :)]
      exact hmatch
    have htoday : ((s.advance t).received l).actionsToday = s.actionsToday :=
      State.actionsToday_of (s := s) (k .bal (by decide)) (congrArg Way.opTime (k .way (by decide)) :)
    have hitem : ((s.advance t).received l).item iMaxActionsPerDay = s.item iMaxActionsPerDay := k.item _
    have hheld : (((s.advance t).received l).ctxAt i).state ≠ .empty := State.heldIndex_state hi'
    obtain ⟨hcount, hissued⟩ := State.issueAction_hold ((s.advance t).received l).sec2020 hheld
    let u := ((s.advance t).received l).issueAction i 2 ((s.advance t).received l).sec2020
    let r : Report := ⟨.jobResult 0 0 0 (leBytes 4 (BitVec.ofNat 20 (fieldAt l.payload 0 4) : Gmn).toNat ++ leBytes 1 2), .none,
      true, false, false, 0, u.hwl.nodeId⟩
    have ksend : u.keepsBut [.regs, .out, .hwl, .limits, .way, .host] (u.hwlSend l.src.toNat 0 (.report r)) := keeps_State_hwlSend.within
    refine ⟨u.hwlSend l.src.toNat 0 (.report r), next_of_eq ((State.hwlReceive_arrives harrives _).trans ?_), ?_⟩
    · simp only [hi']
      refine (if_neg ?_).trans ((if_neg ?_).trans ?_)
      · exact not_or.2 ⟨ne_false_of_eq_true howner', not_or.2 ⟨ne_true_of_eq_false hmatch', fun h => h.1 haction⟩⟩
      · rw [htoday, hitem]
        exact Nat.not_le.2 hfew
      · rw [haction]
        rfl
    · refine ⟨?_, ?_⟩
      · rw [State.actionsToday_of (ksend .bal (by decide)) (opTimeKept_hwlSend _ _ _ _), hcount, htoday]
      · rw [State.ctxAt_of (ksend .ctx (by decide))]
        exact hissued
  case job =>
    intro s l j t harrives hcarries hlinks
    refine ⟨(s.advance t).received l, keeps_State_advance.within |>.then keeps_State_received, ?_⟩
    have k : (s.advance t).keepsBut [.regs, .out, .hwl] ((s.advance t).received l) := keeps_State_received
    have hlinks' : ((s.advance t).received l).linksTake = true := by
      unfold State.linksTake at hlinks ⊢
      rw [k .host (by decide), k .pwr (by decide)]
      exact hlinks
    exact next_of_eq ((State.hwlReceive_arrives harrives _).trans ((if_neg (ne_false_of_eq_true hcarries)).trans
      (if_neg (ne_false_of_eq_true hlinks'))))
  case probe =>
    intro s l h o t harrives hcarries hlinks htakes
    have k : (s.advance t).keepsBut [.regs, .out, .hwl] ((s.advance t).received l) := keeps_State_received
    have hlinks' : ((s.advance t).received l).linksTake = true := by
      unfold State.linksTake at hlinks ⊢
      rw [k .host (by decide), k .pwr (by decide)]
      exact hlinks
    obtain ⟨v, hv, hnode, hnow⟩ := State.probe_runs (h := { h with source := .fabric l.port l.src }) rfl htakes k
    obtain ⟨ps, heard, hr, -⟩ := (s.advance t).received_hwl l
    refine ⟨_, next_of_eq ((State.hwlReceive_arrives harrives _).trans ((if_neg (ne_false_of_eq_true hcarries)).trans
      ((if_neg (ne_false_of_eq_true hlinks')).trans hv))), ?_⟩
    have hmem := State.finishJob_link (s := v) (h := { h with source := .fabric l.port l.src }) rfl 0 .none 0 [0, 0] .none
    rw [hnode, hnow, show ((s.advance t).received l).now = max s.now t from k .now (by decide),
      show ((s.advance t).received l).hwl.nodeId = s.hwl.nodeId from (congrArg Hwl.nodeId hr :)] at hmem
    exact hmem
  case report =>
    intro s l r o t harrives hfinal hpayload hfound
    have k : (s.advance t).keepsBut [.regs, .out, .hwl] ((s.advance t).received l) := keeps_State_received
    have hhost : ((s.advance t).received l).host = s.host := k .host (by decide)
    have hfound' : (((s.advance t).received l).host.jobs.find? fun o => decide
        (o.remote = some l.src ∧ o.ref.jobId = r.jobId)) = some o := by
      rw [hhost]
      exact hfound
    obtain ⟨ws, hadded⟩ := reportsAdded_route ((s.advance t).received l) (((s.advance t).received l).jobDest o.ref) r
    refine ⟨(((s.advance t).received l).route (((s.advance t).received l).jobDest o.ref) r).closeJob o.ref,
      next_of_eq ((State.hwlReceive_arrives harrives _).trans ((if_neg (not_not.2 hpayload)).trans ?_)), ?_⟩
    · simp only [hfound']
      exact if_pos hfinal
    · show (((s.advance t).received l).route _ r).host.jobs.filter _ = _
      rw [hadded, hhost]
  case reset =>
    intro s l j t harrives hcarries hok hmode hhold
    have k : (s.advance t).keepsBut [.regs, .out, .hwl] ((s.advance t).received l) := keeps_State_received
    have kn : (s.advance t).keepsBut [.regs, .out, .hwl, .sec] (((s.advance t).received l).enterNonce j) :=
      k.within |>.then keeps_State_enterNonce
    obtain ⟨ps, heard, hr, -⟩ := (s.advance t).received_hwl l
    have hok' : ((s.advance t).received l).resetPacketOk j = true :=
      (resetPacketOk_of k (congrArg Hwl.assigned hr :) (congrArg Hwl.nodeId hr :) j).trans hok
    have hrun : (((s.advance t).received l).enterNonce j).pwr.mode = .run := by
      rw [kn .pwr (by decide)]
      exact hmode
    have hgasp : (((s.advance t).received l).enterNonce j).pwr.mode ≠ .gasp := hrun ▸ nofun
    have hstandby : (((s.advance t).received l).enterNonce j).pwr.mode ≠ .standby := hrun ▸ nofun
    have hhold' : (((s.advance t).received l).enterNonce j).rst.hold = none := by
      rw [kn .rst (by decide)]
      exact hhold
    refine ⟨_, next_of_eq ((State.hwlReceive_arrives harrives _).trans (if_pos ⟨hcarries, hok'⟩)), ?_, ?_⟩
    · rw [State.requestReset_hold hgasp hstandby hhold', kn .now (by decide)]
      rfl
    · rw [State.requestReset_begins hgasp hstandby hhold']
      obtain ⟨_, hheld⟩ := State.beginHold_hwl (((s.advance t).received l).enterNonce j) .fbc false
      exact congrArg Hwl.owner hheld

end Sys2Proof.Machine

/-! # Chains of update blocks -/

namespace Sys2Proof.Machine

-- One theorem after the other: a thread for each would pass the memory limit of the check.
set_option Elab.async false

/-! ## Chains of update blocks (R388, R389) -/

theorem State.chain_hwlSend (s : State) (d : Nat) (tag : BitVec 32) (b : HwlBody) : (s.hwlSend d tag b).hwl.chain = s.hwl.chain := by
  obtain ⟨ps, hps⟩ := portsOnly_hwlSend s d tag b
  exact (congrArg Hwl.chain hps :)

theorem State.chain_received (s : State) (l : HwlHeader) : (s.received l).hwl.chain = s.hwl.chain := by
  obtain ⟨ps, heard, hr, -⟩ := s.received_hwl l
  exact (congrArg Hwl.chain hr :)

/-- What a pump of a chain leaves of it: all but the bytes it has sent, which only grow (R388). -/
def Chain.pumped (c c' : Chain) : Prop := ∃ n, c.sentTo ≤ n ∧ c' = { c with sentTo := n }

theorem Chain.pumped_refl (c : Chain) : c.pumped c := ⟨c.sentTo, Nat.le_refl _, rfl⟩

theorem Chain.pumped_of_send {c c' : Chain} {n : Nat} (h : Chain.pumped { c with sentTo := c.sentTo + n } c') : c.pumped c' := by
  obtain ⟨m, hm, hc⟩ := h
  exact ⟨m, Nat.le_trans (Nat.le_add_right _ n) hm, hc⟩

theorem State.chainPump_chain (n : Nat) (s : State) (c : Chain) (h : s.hwl.chain = some c) :
    ∃ c', (s.chainPump n).hwl.chain = some c' ∧ c.pumped c' := by
  induction n generalizing s c with
  | zero => exact ⟨c, h, c.pumped_refl⟩
  | succ n ih =>
    unfold State.chainPump
    simp only [h]
    split
    · exact ⟨c, h, c.pumped_refl⟩
    · rename_i d _
      split
      · exact ⟨c, h, c.pumped_refl⟩
      · let c1 : Chain := { c with sentTo := c.sentTo + (partOf c.bytes c.sentTo chainBlock).length }
        obtain ⟨c', hc', hpumped⟩ := ih ((s.setRelay (some c1)).hwlSend d.toNat 0 (.chainData c.tag c.sentTo c.total
          (partOf c.bytes c.sentTo chainBlock))) c1 (State.chain_hwlSend _ _ _ _)
        exact ⟨c', hc', Chain.pumped_of_send hpumped⟩

/-- Whom a chain relays to next depends on the torus, the members and this node's place alone (R388). -/
theorem State.nextInChain_of {s u : State} (hitem : ∀ i, u.item i = s.item i) (hhwl : u.hwl = s.hwl) (n d : Nat) :
    (u.nextInChain d n).2 = (s.nextInChain d n).2 := by
  have hsnake (v : State) (hv : ∀ i, v.item i = s.item i) (x : Nat) : v.snakeNext x = s.snakeNext x := by
    unfold State.snakeNext State.snake
    rw [hv, hv]
  have hmember (v : State) (hv : v.hwl = s.hwl) (x : Nat) : v.isMember x = s.isMember x := by
    unfold State.isMember
    rw [hv]
  have hpass : ∀ (n : Nat) (v : State) (d : Nat), (∀ i, v.item i = s.item i) → v.hwl = s.hwl → ∀ w : State, (∀ i, w.item i = s.item i) →
      w.hwl = s.hwl → (v.nextInChain d n).2 = (w.nextInChain d n).2 := by
    intro n
    induction n with
    | zero => exact fun v d _ _ w _ _ => rfl
    | succ n ih =>
      intro v d hv hvh w hw hwh
      unfold State.nextInChain
      extract_lets e e'
      have he : e = s.snakeNext d := hsnake v hv d
      have he' : e' = s.snakeNext d := hsnake w hw d
      rw [he, he', hmember v hvh, hmember w hwh, hvh, hwh]
      by_cases hnode : s.snakeNext d = s.hwl.nodeId.toNat
      · rw [if_pos hnode, if_pos hnode]
      · rw [if_neg hnode, if_neg hnode]
        by_cases hmem : s.isMember (s.snakeNext d) = true
        · rw [if_pos hmem, if_pos hmem]
        · rw [if_neg hmem, if_neg hmem]
          have k (x : State) : x.keepsBut [.way, .host, .limits, .regs, .out]
            (x.note cHwlChainFailed .operations .second (s.snakeNext d) (s.snakeNext d)) := keeps_State_note
          exact ih _ _ (fun i => ((k v).item i).trans (hv i)) (((k v) .hwl (by decide)).trans hvh) _
            (fun i => ((k w).item i).trans (hw i)) (((k w) .hwl (by decide)).trans hwh)
  exact hpass n u d hitem hhwl s (fun _ => rfl) rfl

/-- Settles O42: a chain that begins takes its first block, the pump leaves of a chain all but what it has sent, and a node that is not the
    head
and has nobody else to relay to gives its part up. -/
theorem chainsAreRelayed : Obligations.ChainsAreRelayed := by
  unfold Obligations.ChainsAreRelayed
  refine ⟨?data, ?ack, ?result, ?timeout⟩
  case data =>
    intro s l head w data total t harrives hdelivery hchain hoffset htotal hdata hne hshort
    let x := (s.advance t).received l
    have k : (s.advance t).keepsBut [.regs, .out, .hwl] x := keeps_State_received
    have hdelivery' : x.delivery 0 = none := by
      unfold State.delivery
      rw [k .upd (by decide)]
      exact hdelivery
    have hchain' : x.hwl.chain = none := (State.chain_received _ l).trans hchain
    let c : Chain := ⟨BitVec.ofNat 32 (fieldAt l.payload 0 4), total, data, some head, some l.src, none, 0, 0, max s.now t, none, [], none⟩
    refine ⟨(x.setRelay (some c)).hwlSend l.src.toNat 0 (.chainAck c.tag c.next), next_of_eq ((State.hwlReceive_arrives harrives _).trans
      ((if_neg ?_).trans ?_)), State.chain_hwlSend _ _ _ _⟩
    · rw [show ((s.advance t).received l).delivery 0 = none from hdelivery']
      exact nofun
    · simp only [show ((s.advance t).received l).hwl.chain = none from hchain']
      have hfree : ((s.advance t).received l).chainFree = true := by
        unfold State.chainFree
        rw [show ((s.advance t).received l).hwl.chain = none from hchain']
      have hnow : ((s.advance t).received l).now = max s.now t := k .now (by decide)
      refine (if_neg (ne_false_of_eq_true hfree)).trans ?_
      rw [hnow, hoffset, ← htotal, Nat.sub_zero, ← hdata]
      unfold State.takeChainBlock
      have hfits : decide (0 = Chain.next ⟨BitVec.ofNat 32 (fieldAt l.payload 0 4), total, [], some head, some l.src, none, 0, 0,
          max s.now t, none, [], none⟩ ∧ data ≠ [] ∧ 0 + data.length ≤ total) = true :=
        decide_eq_true ⟨rfl, hne, by rw [Nat.zero_add]; exact Nat.le_of_lt hshort⟩
      extract_lets fits c0 s1
      have hc0 : c0 = c := if_pos hfits
      have hs1 : s1 = (x.setRelay (some c)).hwlSend l.src.toNat 0 (.chainAck c.tag c.next) := by
        unfold s1
        rw [hc0]
      refine (if_pos (.inr ?_)).trans hs1
      rw [hc0]
      exact hshort
  case ack =>
    intro s l t c harrives hchain hsucc htag hhead hacked
    let x := (s.advance t).received l
    have hchain' : x.hwl.chain = some c := (State.chain_received _ l).trans hchain
    let c1 : Chain := { c with ackedTo := fieldAt l.payload 4 4, sentTo := max c.sentTo (fieldAt l.payload 4 4), lastAck := max s.now t }
    obtain ⟨c', hc', n, hn, heq⟩ := State.chainPump_chain 16 (x.setRelay (some c1)) c1 rfl
    refine ⟨(x.setRelay (some c1)).chainPump 16, next_of_eq ((State.hwlReceive_arrives harrives _).trans ?_), c', hc', ?_⟩
    · have hfilter : (((s.advance t).received l).hwl.chain.filter fun c => decide (c.tag = BitVec.ofNat 32 (fieldAt l.payload 0 4) ∧
          c.successor = some l.src)) = some c := by
        rw [show ((s.advance t).received l).hwl.chain = some c from hchain']
        exact Option.filter_eq_some_iff.2 ⟨rfl, decide_eq_true ⟨htag, hsucc⟩⟩
      have hnow : ((s.advance t).received l).now = max s.now t :=
        (keeps_State_received : (s.advance t).keepsBut [.regs, .out, .hwl] ((s.advance t).received l)) .now (by decide)
      simp only [hfilter]
      refine (if_neg ?_).trans ?_
      · rw [hhead]
        exact fun hno => absurd hno.1 nofun
      · rw [decide_eq_false (Nat.not_le.2 hacked), Nat.max_eq_right (Nat.le_of_lt hacked), hnow]
        rfl
    · rw [heq]
      exact ⟨rfl, rfl, hsucc, Nat.le_trans (Nat.le_max_left _ _) hn⟩
  case result =>
    intro s l node t c c1 harrives hchain htag hnode hhead hsucc hc1 hheard
    obtain ⟨ps, heard, hr, -⟩ := (s.advance t).received_hwl l
    have hheard' (u : State) (hnode : u.hwl.nodeId = s.hwl.nodeId) (hassigned : u.hwl.assigned = s.hwl.assigned)
        (hmembers : u.hwl.members = s.hwl.members) : u.chainAllHeard c1 = false := by
      unfold State.chainAllHeard State.isMember at hheard ⊢
      rw [hnode, hassigned, hmembers]
      exact hheard
    have hfilter : (((s.advance t).received l).hwl.chain.filter fun c => decide (c.tag = BitVec.ofNat 32 (fieldAt l.payload 0 4))) =
        some c := by
      rw [(State.chain_received (s.advance t) l).trans hchain]
      exact Option.filter_eq_some_iff.2 ⟨rfl, decide_eq_true htag⟩
    have hresult : (if c.head = none then { c with results := c.results ++ [(BitVec.ofNat 6 (fieldAt l.payload 4 1),
        fieldAt l.payload 5 1)] } else c) = c1 := by
      rw [if_pos hhead, hc1, hnode]
    let x := ((s.advance t).received l).setRelay (some c1)
    have hx : x.hwl.chain = some c1 ∧ x.chainAllHeard c1 = false :=
      ⟨rfl, hheard' x (congrArg Hwl.nodeId hr :) (congrArg Hwl.assigned hr :) (congrArg Hwl.members hr :)⟩
    have hsucc' : ¬ c.successor = some (BitVec.ofNat 6 (fieldAt l.payload 4 1)) := hnode ▸ hsucc
    have hmore (v : State) (hv : v.hwl = x.hwl) : ¬ (c1.head = none ∧ v.chainAllHeard c1 = true) := fun hno => by
      unfold State.chainAllHeard State.isMember at hno
      rw [hv] at hno
      exact ne_true_of_eq_false hx.2 hno.2
    cases hjob : c.job with
    | none =>
      refine ⟨x, next_of_eq ((State.hwlReceive_arrives harrives _).trans ?_), hx.1⟩
      simp only [hfilter, hresult]
      simp only [hjob, hhead, if_neg hsucc', show (((s.advance t).received l).setRelay (some c1)).hwl.chain = some c1 from rfl]
      exact if_neg (hmore x rfl)
    | some j =>
      let v := x.jobProgress j (deliveryDetail c.total (fieldAt l.payload 5 1) false ++
        leBytes 1 (BitVec.ofNat 6 (fieldAt l.payload 4 1) : NodeId).toNat)
      have hv : v.hwl = x.hwl := keeps_State_jobProgress .hwl (by decide)
      have hchain' : v.hwl.chain = some c1 := (congrArg Hwl.chain hv).trans hx.1
      refine ⟨v, next_of_eq ((State.hwlReceive_arrives harrives _).trans ?_), hchain'⟩
      simp only [hfilter, hresult]
      simp only [hjob, hhead, if_neg hsucc']
      simp only [show ((((s.advance t).received l).setRelay (some c1)).jobProgress j (deliveryDetail c.total
          (fieldAt l.payload 5 1) false ++
        leBytes 1 (BitVec.ofNat 6 (fieldAt l.payload 4 1) : NodeId).toNat)).hwl.chain = some c1 from hchain']
      exact if_neg (hmore v hv)
  case timeout =>
    intro s t c h d hchain hhead hsucc hleft hlate hnone
    let x := (s.advance t).note cHwlChainFailed .operations .second d.toNat d.toNat
    have k : (s.advance t).keepsBut [.way, .host, .limits, .regs, .out] x := keeps_State_note
    have hchain' : x.hwl.chain = some c := (congrArg Hwl.chain (k .hwl (by decide))).trans hchain
    have hnone' : (x.nextInChain d.toNat 64).2 = none := by
      rw [State.nextInChain_of (s := s) (fun i => k.item i) (k .hwl (by decide))]
      exact hnone
    refine ⟨(x.nextInChain d.toNat 64).1.setRelay none, next_of_eq ?_, rfl⟩
    simp only [show (s.advance t).hwl.chain = some c from hchain]
    refine (if_neg ?_).trans ?_
    · rw [hsucc]
      exact not_or.2 ⟨nofun, not_or.2 ⟨Nat.not_le.2 hleft, Nat.not_lt.2 hlate⟩⟩
    · unfold State.chainSkip
      simp only [show (s.advance t).hwl.chain.bind Chain.successor = some d from (congrArg (Option.bind · Chain.successor) hchain).trans
        hsucc]
      unfold State.chainRelay
      simp only [show ((s.advance t).note cHwlChainFailed .operations .second d.toNat d.toNat).hwl.chain = some c from hchain',
        show (((s.advance t).note cHwlChainFailed .operations .second d.toNat d.toNat).nextInChain d.toNat 64).2 = none from hnone', hhead]
      rfl

end Sys2Proof.Machine

/-! # Tasks -/

namespace Sys2Proof.Machine

-- One theorem after the other: a thread for each would pass the memory limit of the check.
set_option Elab.async false

/-! ## Tasks (R316, R322 to R325) -/

/-- Executors that all run a task take none (R324). -/
theorem State.dispatch_busy {s : State} (h : ∀ x : Fin 16, (s.cch.executor x.val).running.isSome = true) : s.dispatch = s := by
  have hall : ∀ l : List Nat, (∀ x ∈ l, x < 16) → l.foldl State.dispatchOn s = s := fun l => by
    induction l with
    | nil => exact fun _ => rfl
    | cons x l ih =>
      intro hl
      have hx : s.dispatchOn x = s := if_pos (.inl (h ⟨x, hl x (List.mem_cons_self ..)⟩))
      rw [List.foldl_cons, hx]
      exact ih fun y hy => hl y (List.mem_cons_of_mem x hy)
  exact hall _ fun x hx => List.mem_range.1 hx

/-- With nothing waiting no executor takes a task (R324). -/
theorem State.dispatch_idle {s : State} (h : s.cch.waiting = []) : s.dispatch = s := by
  have hpick (x : Nat) : s.cch.pick x = none := by
    unfold Cch.pick
    rw [h]
    rfl
  have hon (x : Nat) : s.dispatchOn x = s := by
    unfold State.dispatchOn
    rw [hpick x]
    exact ite_self s
  have hall : ∀ l : List Nat, l.foldl State.dispatchOn s = s := fun l => by
    induction l with
    | nil => rfl
    | cons x l ih =>
      rw [List.foldl_cons, hon x]
      exact ih
  exact hall _

/-- With no request pending TXN posts no issue task (R317). -/
theorem State.topUpIssues_idle {s : State} (h : s.txn.pending = []) : s.topUpIssues = s := by
  have hready (x : Nat) : (s.readyOn x).length = 0 := by
    unfold State.readyOn
    rw [h]
    rfl
  have hone (x : Nat) : s.postIssues x (min (s.item iIssueTasksMax) (s.readyOn x).length - s.issuesWaiting x) = s := by
    rw [hready, Nat.min_zero, Nat.zero_sub]
    rfl
  unfold State.topUpIssues
  simp only [List.foldl_cons, List.foldl_nil, hone, ite_self]

theorem State.countPending_txn (s : State) (r : Request) (up : Bool) : (s.countPending r up).txn = s.txn := by
  unfold State.countPending
  split
  · rfl
  · rfl

/-- A request that waits for a later cycle is not released (R316). -/
theorem State.releaseRequests_early {s : State} {r : Request} (hpending : s.txn.pending = [r]) (hearly : s.cyc.num < r.release) :
    s.releaseRequests.txn = s.txn := by
  have hone : s.releaseRequest r = s := if_pos (.inr (.inr hearly))
  unfold State.releaseRequests
  rw [hpending, List.foldl_cons, List.foldl_nil, hone]
  exact keeps_State_topUpIssues .txn (by decide)

theorem State.runSchedule_queues {s : State} {k start stamp i : Nat} {c : Context} (hmeters : s.scheduleMeters k = [(i, c)])
    (hpending : s.txn.pending = []) (hearly : s.cyc.num < start) :
    (s.runSchedule k start stamp).txn.pending = [s.scheduleFor k start stamp 1 0 c] := by
  let r := s.scheduleFor k start stamp 1 0 c
  have hrelease : r.release = start := by
    show start + 0 * _ * _ / 1 = start
    rw [Nat.zero_mul, Nat.zero_mul, Nat.zero_div, Nat.add_zero]
  have hroom : s.pendingFull = false := by
    unfold State.pendingFull
    rw [hpending]
    rfl
  have hpush : s.scheduleRequest r = s.pushRequest r := by
    refine (if_neg ?_).trans (if_neg (ne_true_of_eq_false hroom))
    rw [hpending]
    exact nofun
  have htxn : (s.pushRequest r).txn.pending = [r] := by
    unfold State.pushRequest
    rw [State.countPending_txn, hpending]
    rfl
  have hcyc : (s.pushRequest r).cyc = s.cyc := keeps_State_pushRequest .cyc (by decide)
  have hrun : s.runSchedule k start stamp = (s.pushRequest r).releaseRequests := by
    unfold State.runSchedule
    rw [hmeters, ← hpush]
    rfl
  rw [hrun, State.releaseRequests_early htxn (by rw [hcyc, hrelease]; exact hearly), htxn]

/-- A task posted while every executor runs one takes the last place in line (R324). -/
theorem State.post_waits {s : State} {t : Task} (hfree : 256 < s.cch.free) (hbusy : ∀ x : Fin 16,
    (s.cch.executor x.val).running.isSome = true) :
    (s.post t).1.cch.waiting = s.cch.waiting ++ [{ t with ticket := s.us }] := by
  have hopen : ¬ (s.cch.free = 0 ∨ (s.cch.free ≤ 256 ∧ t.eclass ≠ 0)) :=
    not_or.2 ⟨Nat.pos_iff_ne_zero.1 (Nat.lt_of_le_of_lt (Nat.zero_le _) hfree), fun h => absurd h.1 (Nat.not_le.2 hfree)⟩
  cases hacc : s.accept? t with
  | none =>
    unfold State.accept? at hacc
    rw [if_neg hopen] at hacc
    exact absurd hacc nofun
  | some s1 =>
    have hcch : s1.cch = { s.cch with waiting := s.cch.waiting ++ [{ t with ticket := s.us }] } := by
      unfold State.accept? at hacc
      rw [if_neg hopen] at hacc
      let w : State := { s with cch := { s.cch with waiting := s.cch.waiting ++ [{ t with ticket := s.us }] } }
      have k : w.keepsBut [.regs, .out] s1 := by
        rw [← Option.some.inj hacc]
        have k1 : w.keepsBut [.regs, .out] (w.bump cCchPosted) := keeps_State_bump.within
        have k2 := keepsBut_ite (c := s.cch.free ≤ 256) (k1.then (keeps_State_bump (c := cCchReservePosts))) k1
        exact keepsBut_ite (k2.then keeps_State_raiseInt) k2
      exact k .cch (by decide)
    have hbusy' : ∀ x : Fin 16, (s1.cch.executor x.val).running.isSome = true := fun x => by
      rw [hcch]
      exact hbusy x
    rw [State.post_some hacc]
    dsimp only
    rw [State.dispatch_busy hbusy', hcch]

theorem State.postFailed_cch (s : State) : s.postFailed.cch = s.cch := by
  have k1 : s.keepsBut [.regs, .out, .way, .host, .limits] (if s.cch.free ≤ 256 then s.raiseInt 0x0C0004 1 else s) :=
    keepsBut_ite keeps_State_raiseInt.within (keepsBut_refl _ _)
  exact (k1.then keeps_State_raiseInt |>.then keeps_State_note) .cch (by decide)

/-- Settles O33: nothing is dispatched where every executor is busy or nothing waits, and a schedule's request waits for its cycle. -/
theorem tasksArePostedAndRetired : Obligations.TasksArePostedAndRetired := by
  unfold Obligations.TasksArePostedAndRetired
  refine ⟨?schedule, ?posted, ?failed, ?retired⟩
  case schedule =>
    intro s t x i c k hexec hassigned hk hmeters hpending hearly
    refine ⟨_, ?_, State.runSchedule_queues (s := (s.advance t).actedOn x) (k := k) (start := (Table.get (0, 0) s.txn.schedules k).1)
      (stamp := (Table.get (0, 0) s.txn.schedules k).2) hmeters hpending hearly⟩
    show execScheduleRun t s = _
    simp only [execScheduleRun, show (s.advance t).executorOf 21 = some x from hexec]
    refine congrArg Host.Outcome.next ((if_neg ?_).trans ?_)
    · exact fun hno => hassigned.elim (fun h => ne_true_of_eq_false h hno.1) fun h => ne_false_of_eq_true h hno.2
    · rw [← hk]
      rfl
  case posted =>
    intro s kind priority eclass exec_ mask arg t hvalid hfree hbusy
    exact ⟨_, next_of_eq (if_pos hvalid), State.post_waits (s := s.advance t) hfree hbusy⟩
  case failed =>
    intro s kind priority eclass exec_ mask arg t h
    by_cases hvalid : taskValid kind priority eclass exec_ = true
    · have hfree : s.cch.free = 0 := h.resolve_left (ne_false_of_eq_true hvalid)
      have hnone : (s.advance t).accept? ⟨kind, priority, eclass, exec_, mask, arg.toNat, (s.advance t).us⟩ = none := if_pos (.inl hfree)
      refine ⟨_, next_of_eq (if_pos hvalid), ?_⟩
      rw [State.post_none hnone]
      exact State.postFailed_cch _
    · exact ⟨_, next_of_eq (if_neg hvalid), State.postFailed_cch _⟩
  case retired =>
    intro s x t hrunning hwaiting hpending
    obtain ⟨task, htask⟩ := Option.isSome_iff_exists.1 hrunning
    let u := (s.advance t).retire x.val
    have hu : ∃ e, e.running = none ∧ u.cch = s.cch.setExecutor x.val e ∧ u.txn = s.txn := by
      unfold u State.retire
      simp only [show ((s.advance t).cch.executor x.val).running = some task from htask]
      exact ⟨_, rfl, rfl, rfl⟩
    obtain ⟨e, he, hcch, htxn⟩ := hu
    have hidle : (u.dispatch).topUpIssues = u := by
      rw [State.dispatch_idle (s := u) (by rw [hcch]; exact hwaiting), State.topUpIssues_idle (by rw [htxn]; exact hpending)]
    have hlt : x.val < s.cch.executors.length := by
      refine Nat.lt_of_not_le fun hle => ?_
      have hnone : s.cch.executor x.val = ⟨none, false, 0, []⟩ := List.getD_eq_default _ _ hle
      rw [hnone] at hrunning
      exact absurd hrunning nofun
    refine ⟨u, next_of_eq hidle, ?_, ?_⟩
    · rw [hcch]
      unfold Cch.executor Cch.setExecutor
      rw [List.getD_set_self hlt]
      exact he
    · rw [hcch]
      exact hwaiting

end Sys2Proof.Machine

/-! # Queues and their registers -/

namespace Sys2Proof.Machine

-- One theorem after the other: a thread for each would pass the memory limit of the check.
set_option Elab.async false

/-! ## Command and report queues (R397, R400, R401) -/

/-- A write that the checks let through reaches the register's row (R10, R11). -/
theorem State.masterWrite_open {s : State} {m : Master} {a : Nat} {v : Word} {r : RegRow} (hopen : s.checkAccess m a 4 1 = .open)
    (hrow : regRowAt a = some r) : s.masterWrite m a 4 v = s.writeRegister m r a v := by
  unfold State.masterWrite State.writeBarred
  rw [hopen, hrow]

/-- A granted write of a queue's register that has bits to write reaches the queue (R397, R400). -/
theorem State.masterWrite_queue {s : State} {m : Master} {a : Nat} {v : Word} {r : RegRow} (hopen : s.checkAccess m a 4 1 = .open)
    (hrow : regRowAt a = some r) (hrw : r.rw ≠ 0) (hlo : 0x1D0100 ≤ a) (hhi : a < 0x1D0280) : s.masterWrite m a 4 v = s.writeQueue a v := by
  have hwritten : ¬ s.writeIgnored r = true := fun hno => by
    unfold State.writeIgnored State.writeMask at hno
    have hzero := BitVec.or_eq_zero_iff.1 (BitVec.or_eq_zero_iff.1 (of_decide_eq_true hno)).1
    exact hrw (BitVec.or_eq_zero_iff.1 (BitVec.or_eq_zero_iff.1 hzero.1).1).1
  rw [State.masterWrite_open hopen hrow]
  unfold State.writeRegister
  rw [if_neg hwritten, if_neg (by omega), if_neg (by omega), if_neg (by omega), if_neg (by omega), if_pos ⟨hlo, hhi⟩]

/-- The registers of the queues have rows with bits to write (Table 13.5). -/
theorem queueRows (n : Fin 4) : (∃ r, regRowAt (0x1D0100 + 0x10 * n.val) = some r ∧ r.rw ≠ 0) ∧
    (∃ r, regRowAt (0x1D0208 + 0x20 * n.val) = some r ∧ r.rw ≠ 0) ∧ ∃ r, regRowAt (0x1D020C + 0x20 * n.val) = some r ∧ r.rw ≠ 0 := by
  have htail : (regRowAt (0x1D0100 + 0x10 * n.val)).any (fun r => decide (r.rw ≠ 0)) = true := by
    revert n
    decide
  have hctrl : (regRowAt (0x1D0208 + 0x20 * n.val)).any (fun r => decide (r.rw ≠ 0)) = true := by
    revert n
    decide
  have hhead : (regRowAt (0x1D020C + 0x20 * n.val)).any (fun r => decide (r.rw ≠ 0)) = true := by
    revert n
    decide
  have hfound (o : Option RegRow) (h : o.any (fun r => decide (r.rw ≠ 0)) = true) : ∃ r, o = some r ∧ r.rw ≠ 0 := by
    cases o with
    | none => exact absurd h nofun
    | some r => exact ⟨r, rfl, of_decide_eq_true h⟩
  exact ⟨hfound _ htail, hfound _ hctrl, hfound _ hhead⟩

theorem State.tailWrite_queue {s : State} {n : Fin 4} {m : Master} {v : Word} (hopen : s.checkAccess m (0x1D0100 + 0x10 * n.val) 4 1 =
    .open) :
    s.masterWrite m (0x1D0100 + 0x10 * n.val) 4 v = s.writeTail n.val v := by
  obtain ⟨⟨r, hr, hrw⟩, -⟩ := queueRows n
  have hqueue : ∀ n : Fin 4, queueOf 0x1D0100 0x10 (0x1D0100 + 0x10 * n.val) = n := by decide
  rw [State.masterWrite_queue hopen hr hrw (by omega) (by omega)]
  unfold State.writeQueue
  rw [if_pos (by omega), hqueue n]

theorem State.ctrlWrite_queue {s : State} {n : Fin 4} {m : Master} {v : Word} (hopen : s.checkAccess m (0x1D0208 + 0x20 * n.val) 4 1 =
    .open) :
    s.masterWrite m (0x1D0208 + 0x20 * n.val) 4 v = s.writeRqCtrl n v := by
  obtain ⟨-, ⟨r, hr, hrw⟩, -⟩ := queueRows n
  have hqueue : ∀ n : Fin 4, queueOf 0x1D0200 0x20 (0x1D0208 + 0x20 * n.val) = n := by decide
  rw [State.masterWrite_queue hopen hr hrw (by omega) (by omega)]
  unfold State.writeQueue
  rw [if_neg (by omega), hqueue n]
  exact (if_neg (by omega)).trans ((if_neg (by omega)).trans (if_pos (by omega)))

theorem State.headWrite_queue {s : State} {n : Fin 4} {m : Master} {v : Word} (hopen : s.checkAccess m (0x1D020C + 0x20 * n.val) 4 1 =
    .open) :
    s.masterWrite m (0x1D020C + 0x20 * n.val) 4 v = s.setRq n.val { s.rq n.val with head := v } := by
  obtain ⟨-, -, ⟨r, hr, hrw⟩⟩ := queueRows n
  have hqueue : ∀ n : Fin 4, queueOf 0x1D0200 0x20 (0x1D020C + 0x20 * n.val) = n := by decide
  rw [State.masterWrite_queue hopen hr hrw (by omega) (by omega)]
  unfold State.writeQueue
  rw [if_neg (by omega), hqueue n]
  exact (if_neg (by omega)).trans ((if_neg (by omega)).trans (if_neg (by omega)))

theorem State.setRq_rq {s : State} {n : Nat} {q : ReportQueue} (h : n < s.host.rqs.length) : (s.setRq n q).rq n = q := List.getD_set_self h

/-- A write of ENABLE with a size to a queue that is off (R400). -/
theorem State.writeRqCtrl_on {s : State} {n : Fin 4} {k : Fin 16} (hoff : (s.rq n.val).enable = false) :
    s.writeRqCtrl n (BitVec.ofNat 32 (1 + 2 * k.val)) = s.setRq n.val
      { s.rq n.val with
        sizeLog2 := k.val
        enable := decide (10 ≤ k.val ∧ k.val ≤ 16)
        ring := if decide (10 ≤ k.val ∧ k.val ≤ 16) = true then [] else (s.rq n.val).ring } := by
  have hon : (BitVec.ofNat 32 (1 + 2 * k.val)).getLsbD 0 = true := by
    revert k
    decide
  have hsize : (BitVec.ofNat 32 (1 + 2 * k.val)).toNat / 2 % 16 = k.val := by
    revert k
    decide
  unfold State.writeRqCtrl
  simp only [hon, hsize, hoff, Bool.true_and]
  exact if_neg nofun

theorem State.writeRqCtrl_off {s : State} {n : Fin 4} {k : Fin 16} (hon : (s.rq n.val).enable = true) :
    s.writeRqCtrl n (BitVec.ofNat 32 (2 * k.val)) = s.stopQueue n := by
  have hoff : (BitVec.ofNat 32 (2 * k.val)).getLsbD 0 = false := by
    revert k
    decide
  unfold State.writeRqCtrl
  simp only [hoff, hon]
  rfl

/-- Settles O44: a granted write of a queue's register reaches that queue. -/
theorem queuesFollowTheirRegisters : Obligations.QueuesFollowTheirRegisters := by
  unfold Obligations.QueuesFollowTheirRegisters
  refine ⟨?tail, ?beyond, ?on, ?small, ?off, ?head⟩
  case tail =>
    intro s n m v t hopen hcq hn hnew hfits
    refine ⟨_, next_of_eq ((State.tailWrite_queue (s := s.advance t) hopen).trans ((if_neg ?_).trans (if_neg ?_))), List.getD_set_self hn⟩
    · exact not_or.2 ⟨ne_false_of_eq_true hcq, hnew⟩
    · exact Nat.not_lt.2 hfits
  case beyond =>
    intro s n m v t hopen hcq hnew hbeyond
    refine ⟨_, next_of_eq ((State.tailWrite_queue (s := s.advance t) hopen).trans ((if_neg ?_).trans (if_pos hbeyond))), ?_⟩
    · exact not_or.2 ⟨ne_false_of_eq_true hcq, hnew⟩
    · have k : (s.advance t).keepsBut [.regs, .out] (((s.advance t).bump cPciCqError).raiseInt 0x1D0004 0) :=
        keeps_State_bump.within |>.then keeps_State_raiseInt
      exact k .host (by decide)
  case on =>
    intro s n m k t hopen hoff hn hk
    have hok : decide (10 ≤ k.val ∧ k.val ≤ 16) = true := decide_eq_true ⟨hk, Nat.le_of_lt k.isLt⟩
    refine ⟨_, next_of_eq ((State.ctrlWrite_queue (s := s.advance t) hopen).trans (State.writeRqCtrl_on hoff)), ?_⟩
    rw [State.setRq_rq (by exact hn), hok]
    rfl
  case small =>
    intro s n m k t hopen hoff hn hk
    have hno : decide (10 ≤ k.val ∧ k.val ≤ 16) = false := decide_eq_false fun h => absurd h.1 (Nat.not_le.2 hk)
    refine ⟨_, next_of_eq ((State.ctrlWrite_queue (s := s.advance t) hopen).trans (State.writeRqCtrl_on hoff)), ?_⟩
    rw [State.setRq_rq (by exact hn), hno]
    exact congrArg (fun on => ({ s.rq n.val with sizeLog2 := k.val, enable := on } : ReportQueue)) hoff.symm
  case off =>
    intro s n m k t hopen hon hn
    refine ⟨_, next_of_eq ((State.ctrlWrite_queue (s := s.advance t) hopen).trans (State.writeRqCtrl_off hon)), ?_⟩
    have hhost (u : State) (c : Counter) (i : Nat) : (u.bumpBy c i).host = u.host := keeps_State_bumpBy .host (by decide)
    unfold State.stopQueue State.unrouteWaiting State.rq
    rw [hhost]
    exact ⟨List.getD_set_self hn, rfl⟩
  case head =>
    intro s n m v t hopen hn
    exact ⟨_, next_of_eq (State.headWrite_queue (s := s.advance t) hopen), List.getD_set_self hn⟩

end Sys2Proof.Machine

/-! # Registers and memory -/

namespace Sys2Proof.Machine

-- One theorem after the other: a thread for each would pass the memory limit of the check.
set_option Elab.async false

/-! ## Registers and memory (R10 to R12, R25, R452) -/

/-- A granted write outside the registers that act stores its bits (R10). -/
theorem State.writeRegister_stores {s : State} {m : Master} {r : RegRow} {a : Nat} {v : Word} (hwritten : s.writeIgnored r = false)
    (hdestroy : a ≠ 0x070010) (hacc : ¬ (0x081000 ≤ a ∧ a < 0x083000)) (hports : ¬ (0x060800 ≤ a ∧ a < 0x060840))
    (hlegal : ¬ (0x061000 ≤ a ∧ a < 0x061020)) (hqueues : ¬ (0x1D0100 ≤ a ∧ a < 0x1D0280)) (hread : a ≠ 0x120200)
    (hthreshold : ¬ (0x120140 ≤ a ∧ a < 0x12016C)) : s.writeRegister m r a v = s.storeBits r a v := by
  unfold State.writeRegister
  rw [if_neg (ne_true_of_eq_false hwritten), if_neg hdestroy, if_neg hacc, if_neg hports, if_neg hlegal, if_neg hqueues, if_neg hread,
    if_neg hthreshold]

theorem State.masterWrite_refused {s : State} {m : Master} {a size : Nat} (v : Word) (h : s.checkAccess m a size 1 = .refused) :
    s.masterWrite m a size v = (s.refuseAccess m 1 (a / 4096) (windowBase + a)).emit (.busError m.val a) := by
  rw [State.masterWrite, State.writeBarred, h]

/-- A refused access is latched as the violation (R452). -/
theorem State.refuseAccess_violation (s : State) (m : Master) (kind t addr : Nat) :
    (s.refuseAccess m kind t addr).sec.violation = some ⟨m, kind, (s.bump (cAccViol m)).accFixed m t kind, t, addr⟩ := by
  unfold State.refuseAccess
  extract_lets s1 c s2
  have k : s2.keepsBut [.way, .host, .limits, .regs, .out] ((s2.raiseInt 0x080004 0).eventLimited .security .second (t + 1) 8 0 m 0) :=
    keeps_State_raiseInt.within |>.then keeps_State_eventLimited
  exact congrArg Sec.violation (k .sec (by decide))

/-- The window's place in the device map (R25). -/
theorem State.busCheck_window (s : State) (m : Master) (kind : Nat) {a n : Nat} (h : a < 0x1000000) :
    s.busCheck m kind (windowBase + a) n = .window a := by
  have hplace : s.placeOf (windowBase + a) = .window a := by
    have hbase : windowBase = 0x20000000 := rfl
    unfold State.placeOf
    rw [if_neg (by omega), if_neg (by omega), if_neg (by omega), if_neg (by omega), if_pos (by omega), Nat.add_sub_cancel_left]
  unfold State.busCheck
  rw [hplace]

/-- The bytes of a place are stored one after the other. -/
def storedAt (mem : Table (Option Byte)) (p : Nat) (bs : List Byte) : Table (Option Byte) :=
  ((List.range bs.length).zip bs).foldl (fun m x => Table.set none m (p + x.1) (some x.2)) mem

theorem storedAt_append (mem : Table (Option Byte)) (p : Nat) (bs : List Byte) (b : Byte) :
    storedAt mem p (bs ++ [b]) = Table.set none (storedAt mem p bs) (p + bs.length) (some b) := by
  unfold storedAt
  rw [List.length_append, List.length_singleton, List.range_succ, List.zip_append (List.length_range ..), List.foldl_append]
  rfl

theorem get_storedAt_other (mem : Table (Option Byte)) (p : Nat) (bs : List Byte) {q : Nat} (h : q < p ∨ p + bs.length ≤ q) :
    Table.get none (storedAt mem p bs) q = Table.get none mem q := by
  induction bs using List.reverseRecOn with
  | nil => rfl
  | append_singleton bs b ih =>
    rw [List.length_append, List.length_singleton] at h
    rw [storedAt_append, Table.get_set_other none _ _ (by omega), ih (by omega)]

theorem get_storedAt (mem : Table (Option Byte)) (p : Nat) (bs : List Byte) {i : Nat} (h : i < bs.length) :
    Table.get none (storedAt mem p bs) (p + i) = some bs[i] := by
  induction bs using List.reverseRecOn with
  | nil => exact absurd h (Nat.not_lt_zero i)
  | append_singleton bs b ih =>
    rw [storedAt_append]
    by_cases hi : i < bs.length
    · rw [Table.get_set_other none _ _ (by omega), ih hi, List.getElem_append_left hi]
    · have hlast : i = bs.length := by
        rw [List.length_append, List.length_singleton] at h
        omega
      subst hlast
      rw [Table.get_set_ne (Option.some_ne_none b), List.getElem_concat_length rfl]

theorem State.memBytes_stored (s : State) (p : Nat) (bs : List Byte) : (s.storeBytes p bs).memBytes p bs.length = bs := by
  unfold State.memBytes
  refine List.ext_getElem (by rw [List.length_map, List.length_range]) fun i _ h => ?_
  rw [List.getElem_map, List.getElem_range, show (s.storeBytes p bs).mem = storedAt s.mem p bs from rfl, get_storedAt _ _ _ h]
  rfl

theorem State.memByte_stored_other (s : State) (p : Nat) (bs : List Byte) {q : Nat} (h : q < p ∨ p + bs.length ≤ q) :
    (s.storeBytes p bs).memBytes q 1 = s.memBytes q 1 := by
  have hbyte : Table.get none (s.storeBytes p bs).mem (q + 0) = Table.get none s.mem (q + 0) := get_storedAt_other s.mem p bs h
  show [(Table.get none (s.storeBytes p bs).mem (q + 0)).getD (Config.memByte s.draws (q + 0))] = _
  rw [hbyte]
  rfl

/-- Settles O56: what an access does is decided by its check, and a byte that is stored is the byte read at its place. -/
theorem registersReadAndWrite : Obligations.RegistersReadAndWrite := by
  unfold Obligations.RegistersReadAndWrite
  refine ⟨?stores, ?reserved, ?refused, ?live, ?latched, ?window, ?memWrite, ?memRead, ?nowhere⟩
  case stores =>
    intro s m a v t r hopen hrow hwritten hdestroy hacc hports hlegal hqueues hread hthreshold
    rw [exec_registerWrite_bar0, State.masterWrite_open (s := s.advance t) hopen hrow,
      State.writeRegister_stores (s := s.advance t) hwritten hdestroy hacc hports hlegal hqueues hread hthreshold]
    rfl
  case reserved =>
    intro s m a size v t h
    rw [exec_registerWrite_bar0, State.masterWrite, State.writeBarred, show (s.advance t).checkAccess m a size 1 = .reserved from h]
  case refused =>
    intro s m a size v t h
    refine ⟨_, next_of_eq (State.masterWrite_refused (s := s.advance t) v h), ⟨_, rfl⟩, ?_, ?_⟩
    · have k : (s.advance t).keepsBut [.regs] ((s.advance t).bump (cAccViol m)) := keeps_State_bump
      refine (State.refuseAccess_violation (s.advance t) m 1 (a / 4096) (windowBase + a)).trans ?_
      unfold State.accFixed
      rw [k .boot (by decide)]
      rfl
    · exact keeps_State_advance.within |>.then keeps_State_refuseAccess |>.then keeps_State_emit
  case live =>
    intro s m a t hopen hnone
    refine ⟨_, exec_lowWordRead_open t hopen, State.afterRead_out_unlatched t hnone, ?_⟩
    exact keeps_State_advance.within |>.then keeps_State_masterRead |>.then keeps_State_emit
  case latched =>
    intro s m a t w hopen hsome
    exact ⟨_, exec_lowWordRead_open t hopen, State.afterRead_out_latched t hsome⟩
  case window =>
    intro s m a v t hin hopen
    have hcheck : (s.advance t).busCheck m 1 (windowBase + a) 4 = .window a := State.busCheck_window _ m 1 (by omega)
    rw [exec_registerWrite_bar0]
    refine next_of_eq ?_
    show (s.advance t).deviceWrite m (windowBase + a) 4 v = _
    unfold State.deviceWrite
    rw [hcheck]
  case memWrite =>
    intro s m p k v t hk hmemory hplace hwf
    have hwrite : (s.advance t).deviceWrite m p k v = (s.advance t).storeBytes p (leBytes k v.toNat) := by
      unfold State.deviceWrite
      rw [show (s.advance t).busCheck m 1 p k = .memory from hmemory]
      exact if_pos hplace
    have hbytes := State.memBytes_stored (s.advance t) p (leBytes k v.toNat)
    rw [leBytes_length] at hbytes
    refine ⟨_, next_of_eq hwrite, hbytes, keeps_State_advance.within |>.then keeps_State_storeBytes, fun q hq => ?_⟩
    exact State.memByte_stored_other (s.advance t) p _ (by rw [leBytes_length]; exact hq)
  case memRead =>
    intro s m f p k t hmemory
    have hread : (s.advance t).deviceRead m f p k = ((s.advance t).drawn, BitVec.ofNat 32 (leNat (s.memBytes p k))) := by
      unfold State.deviceRead
      simp only [show (s.advance t).busCheck m (if f = true then 2 else 0) p k = .memory from hmemory]
      rfl
    refine ⟨((s.advance t).drawn).emit (.readData m.val p (BitVec.ofNat 32 (leNat (s.memBytes p k)))), next_of_eq ?_, rfl, rfl⟩
    show ((s.advance t).deviceRead m f p k).1.emit (.readData m.val p ((s.advance t).deviceRead m f p k).2) = _
    rw [hread]
  case nowhere =>
    intro s m f p k t hnowhere
    have hread : (s.advance t).deviceRead m f p k = ((s.advance t).unmapped m p, 0xFFFFFFFF) := by
      unfold State.deviceRead
      simp only [show (s.advance t).busCheck m (if f = true then 2 else 0) p k = .unmapped from hnowhere]
    have hkeeps : (s.advance t).keepsBut [.way, .host, .regs, .out] ((s.advance t).unmapped m p) := keeps_State_unmapped
    refine ⟨((s.advance t).unmapped m p).emit (.readData m.val p 0xFFFFFFFF), _, next_of_eq ?_, rfl, hkeeps .mem (by decide)⟩
    show ((s.advance t).deviceRead m f p k).1.emit (.readData m.val p ((s.advance t).deviceRead m f p k).2) = _
    rw [hread]

end Sys2Proof.Machine

/-! # A log that its media have filled -/

namespace Sys2Proof.Machine

-- One theorem after the other: a thread for each would pass the memory limit of the check.
set_option Elab.async false

/-! ## An event for a log that its media have filled (R516) -/

/-- A device whose operations log has the header state FULL_BY_MEDIA, with room in its buffer and its slots. -/
def mediaFull : State :=
  { State.reset with
    boot.stage := 15
    boot.locked := true
    way.ready := true
    way.operations.headerA := some { LogHeader.blank with state := 2 }
    way.portWords := [(10, 0x00800600#32)] }

/-- The event is refused: the entry that the buffer takes tells of the full log (code 0x81). -/
theorem mediaFull_refuses : ∀ u, exec (.eventPortSubmit 1 4 1 0) mediaFull = .next u →
    (u.way.buffer.map fun e => e.record.code) = [0x81#8] := by
  have hcodes : (match exec (.eventPortSubmit 1 4 1 0) mediaFull with
      | .next u => decide ((u.way.buffer.map fun e => e.record.code) = [0x81#8])
      | _ => true) = true := by decide +kernel
  intro u hu
  rw [hu] at hcodes
  exact of_decide_eq_true hcodes

/-- Refutes O57: its clause on an event of a permitted master asks that the log is not full and has free slots, and says nothing of a header
with FULL_BY_MEDIA, which refuses events as well (R516). At the state `mediaFull` the buffer takes a record of the full log instead. -/
theorem not_keysAndLogsAct : ¬ Obligations.KeysAndLogsAct := by
  unfold Obligations.KeysAndLogsAct
  rintro ⟨-, -, -, hsubmit, -⟩
  obtain ⟨u, hu, hbuffer⟩ := hsubmit mediaFull 1 4 1 0 (by decide +kernel) (.inl rfl) (by decide +kernel) (by decide +kernel) rfl
    (by decide +kernel) (by decide +kernel) (by decide +kernel)
  have hcodes := mediaFull_refuses u hu
  rw [hbuffer] at hcodes
  exact absurd hcodes (by decide +kernel)

end Sys2Proof.Machine

/-! # A record of the update whose number ends -/

namespace Sys2Proof.Machine

-- One theorem after the other: a thread for each would pass the memory limit of the check.
set_option Elab.async false

/-! ## A record of the update whose WRITE_SEQ ends (R485) -/

/-- A healthy device in probation, whose only update record has the last WRITE_SEQ. -/
def lastUpdSeq : State :=
  { State.reset with
    boot.stage := 15
    ful.rebuilding := false
    bil.restoring := false
    boot.recovery := false
    nor.updA := some { updIdle with writeSeq := 2 ^ 32 - 1, state := .probation }
    nor.updB := none }

/-- The confirmed record is written with WRITE_SEQ 0, and the old one still counts as the latest. -/
theorem lastUpdSeq_stays : ∀ u, exec (.healthConfirmation 0) lastUpdSeq = .next u → u.updRec.state = .probation := by
  have hstate : (match exec (.healthConfirmation 0) lastUpdSeq with
      | .next u => decide (u.updRec.state = .probation)
      | _ => true) = true := by decide +kernel
  intro u hu
  rw [hu] at hstate
  exact of_decide_eq_true hstate

/-- Refutes O54: a confirmation writes its record with the next WRITE_SEQ modulo 2^32, and the record of the larger one counts. At the state
`lastUpdSeq` the number wraps to 0, so that the device stays in probation. -/
theorem not_deliveriesAndProbationRun : ¬ Obligations.DeliveriesAndProbationRun := by
  unfold Obligations.DeliveriesAndProbationRun
  rintro ⟨-, -, -, -, hconfirm⟩
  obtain ⟨u, hu, hidle, -⟩ := hconfirm lastUpdSeq 0 (by decide +kernel) (by decide +kernel) (by decide +kernel)
  rw [lastUpdSeq_stays u hu] at hidle
  exact absurd hidle nofun

end Sys2Proof.Machine

/-! # Campaigns -/

namespace Sys2Proof.Machine

-- One theorem after the other: a thread for each would pass the memory limit of the check.
set_option Elab.async false

/-! ## Campaigns (R502 to R505) -/

theorem State.camp_of {s u : State} (h : u.upd = s.upd) (c : Nat) : u.camp c = s.camp c := by
  unfold State.camp
  rw [h]

theorem State.camp_setCamp (s : State) (c : Nat) (v : Campaign) : (s.setCamp c (some v)).camp c = some v :=
  Table.get_set_ne (Option.some_ne_none v)

/-- The campaign that begins with a start's arguments (R502). -/
def State.campaignOf (s : State) (a : CampaignArgs) (img : MeterImage) (j : JobRef) : Campaign :=
  ⟨s.upd.nextCampaign, a, img, j, .announcing, 0, 3, [], s.now, 0, (s.campNamed a).map (s.campMeter a)⟩

theorem State.runCampaign_starts {s : State} {j : Job} {a : CampaignArgs} {img : MeterImage} (hnum : a.campaign ≤ 3)
    (habort : a.abort = false)
    (hgmns : a.gmns ≠ []) (hfree : s.camp a.campaign = none) (hargs : campaignArgsOk a = true)
    (himg : Table.get none s.upd.meterSlots a.slot = some img) : s.runCampaign j a = s.onAccept j fun st =>
      let s1 := (st.setCamp a.campaign (some (st.campaignOf a img j.hdr.ref))).bump cUpdCampaignsStarted
      ({ s1 with upd := { s1.upd with nextCampaign := (s1.upd.nextCampaign + 1) % 65536 } }).postCamp a.campaign := by
  unfold State.runCampaign
  rw [if_neg (Nat.not_lt.2 hnum), if_neg (ne_true_of_eq_false habort), if_neg (fun h => hgmns h.1), hfree]
  simp only [hargs, himg]
  rfl

/-- Settles O55: what a campaign's commands send leaves the campaigns as they are, and each then sets its own. -/
theorem campaignsAdvance : Obligations.CampaignsAdvance := by
  unfold Obligations.CampaignsAdvance
  refine ⟨?start, ?announce, ?pass, ?block, ?round⟩
  case start =>
    intro s n h a img t htakes hnum habort hgmns hfree hargs himg
    obtain ⟨w, v, hrun, ⟨cqs, regs, out, hw⟩, ⟨cqs', regs', out', cch, checks, nonces, hv⟩, haccept, -, -⟩ := State.job_taken htakes rfl
    have hwupd : w.upd = s.upd := by rw [hw]; rfl
    have hvnext : v.upd.nextCampaign = s.upd.nextCampaign := by rw [hv]; rfl
    let s1 := (v.setCamp a.campaign (some (v.campaignOf a img h.ref))).bump cUpdCampaignsStarted
    let s2 : State := { s1 with upd := { s1.upd with nextCampaign := (s1.upd.nextCampaign + 1) % 65536 } }
    have hs1 : s1.upd = (v.setCamp a.campaign (some (v.campaignOf a img h.ref))).upd := keeps_State_bump .upd (by decide)
    have hpost : (s2.postCamp a.campaign).upd = s2.upd := keeps_State_postCamp .upd (by decide)
    have hcamps : s2.upd.campaigns = (v.setCamp a.campaign (some (v.campaignOf a img h.ref))).upd.campaigns :=
      (congrArg Upd.campaigns hs1 :)
    refine ⟨s2.postCamp a.campaign, v.campaignOf a img h.ref, next_of_eq (hrun.trans ?_), ?_, hvnext, rfl, rfl, rfl,
      rfl, rfl, ?_⟩
    · refine (State.runCampaign_starts hnum habort hgmns ((State.camp_of hwupd _).trans hfree) hargs ?_).trans (haccept _)
      rw [hwupd]
      exact himg
    · rw [State.camp_of hpost]
      show Table.get none s2.upd.campaigns _ = _
      rw [hcamps]
      exact State.camp_setCamp v _ _
    · rw [hpost]
      show (s1.upd.nextCampaign + 1) % 65536 = _
      rw [hs1]
      show (v.upd.nextCampaign + 1) % 65536 = _
      rw [hvnext]
  case announce =>
    intro s c v x t hcamp hexec hroom hphase hleft hdue
    let b := (s.advance t).campBroadcast v 1 0
    refine ⟨b.setCamp c.val (some { v with announcesLeft := v.announcesLeft - 1, due := max s.now t + 10 * ticksPerSec }), ?_,
      State.camp_setCamp _ _ _⟩
    refine next_of_eq ?_
    simp only [show (s.advance t).camp c.val = some v from hcamp, show (s.advance t).campExecutor c.val = some x from hexec]
    refine (if_neg (not_or.2 ⟨nofun, ne_true_of_eq_false hroom⟩)).trans ((if_pos (by omega)).trans ((if_neg (Nat.not_lt.2 hdue)).trans ?_))
    unfold State.campAnnounce
    exact (if_pos hphase).trans (if_neg (by omega))
  case pass =>
    intro s c v x t hcamp hexec hroom hphase hleft hdue
    let b := (s.advance t).campBroadcast v 1 0
    refine ⟨b.setCamp c.val (some { v with phase := .pass, announcesLeft := 0, toSend := List.range v.blocks, due := max s.now t }), ?_,
      State.camp_setCamp _ _ _⟩
    refine next_of_eq ?_
    simp only [show (s.advance t).camp c.val = some v from hcamp, show (s.advance t).campExecutor c.val = some x from hexec]
    refine (if_neg (not_or.2 ⟨nofun, ne_true_of_eq_false hroom⟩)).trans ((if_pos (by omega)).trans ((if_neg (Nat.not_lt.2 hdue)).trans ?_))
    unfold State.campAnnounce
    exact (if_pos hphase).trans (if_pos (by omega))
  case block =>
    intro s c v x t b k bs hcamp hexec hroom hphase hleft htosend hdue
    let w : Campaign := { v with
      toSend := k :: bs
      blocksSent := v.blocksSent + 1
      due := max s.now t + s.item iCampaignBlockGap * ticksPerMs }
    let s1 := ((((s.advance t).setCamp c.val (some w)).campBroadcast w 2 b).campPush w b).bump cUpdCampaignBlocksTx
    have k1 : ((s.advance t).setCamp c.val (some w)).keepsBut [.way, .host, .limits, .cch, .regs, .out, .txn, .ctx] s1 :=
      keeps_State_campBroadcast.then keeps_State_campPush |>.then keeps_State_bump
    refine ⟨s1, next_of_eq ?_, (State.camp_of (k1 .upd (by decide)) _).trans (State.camp_setCamp _ _ _)⟩
    simp only [show (s.advance t).camp c.val = some v from hcamp, show (s.advance t).campExecutor c.val = some x from hexec, htosend]
    exact (if_neg (not_or.2 ⟨nofun, not_or.2 ⟨ne_true_of_eq_false hroom, not_or.2 ⟨by omega, Nat.not_lt.2 hdue⟩⟩⟩)).trans
      ((if_neg fun h => h.1 hphase).trans (if_neg (List.cons_ne_nil _ _)))
  case round =>
    intro s c v t hcamp hphase hdue hallows hroom
    let w : Campaign := { v with
      phase := .statusRound
      meters := v.meters.map fun (m : CampMeter) => if m.state = .pending then { m with reading := true, heard := false } else m }
    let ask := v.meters.filter fun m => decide (m.state = .pending)
    let s1 := ask.foldl (fun st m => st.campRead c.val w m.gmn) ((s.advance t).setCamp c.val (some w))
    have k1 : ((s.advance t).setCamp c.val (some w)).keepsBut [.way, .host, .limits, .cch, .regs, .out, .txn, .ctx]
        (s1.topUpIssues.postCamp c.val) :=
      (keepsBut_foldl (fun u m hu => hu.then keeps_State_campRead) (keepsBut_refl _ _)).then keeps_State_topUpIssues
        |>.then keeps_State_postCamp
    refine ⟨s1.topUpIssues.postCamp c.val, next_of_eq ?_, (State.camp_of (k1 .upd (by decide)) _).trans (State.camp_setCamp _ _ _)⟩
    simp only [show (s.advance t).camp c.val = some v from hcamp]
    exact if_neg (not_or.2 ⟨not_not.2 hphase, not_or.2 ⟨Nat.not_lt.2 hdue, not_or.2 ⟨ne_false_of_eq_true hallows,
      ne_true_of_eq_false hroom⟩⟩⟩)

end Sys2Proof.Machine

/-! # Entries and pages of the store -/

namespace Sys2Proof.Machine

-- One theorem after the other: a thread for each would pass the memory limit of the check.
set_option Elab.async false

/-! ## What Fuller's operations change of it (R341 to R343) -/

/-- From `f` to `g` only what Fuller collects and queues for refresh differs. -/
def Ful.levelsOnly (f g : Ful) : Prop := ∃ on c r, g = { f with collecting := on, collection := c, refresh := r }

theorem Ful.levelsOnly.refl (f : Ful) : f.levelsOnly f := ⟨_, _, _, rfl⟩

theorem Ful.levelsOnly.then {f g h : Ful} (hg : f.levelsOnly g) (hh : g.levelsOnly h) : f.levelsOnly h := by
  obtain ⟨_, _, _, rfl⟩ := hg
  obtain ⟨on, c, r, rfl⟩ := hh
  exact ⟨on, c, r, rfl⟩

theorem State.keepsBut.levelsOnly {A : List Part} {s u : State} (h : s.keepsBut A u) (sub : Part.ful ∉ A := by decide) :
    s.ful.levelsOnly u.ful := by
  rw [h .ful sub]
  exact Ful.levelsOnly.refl _

theorem State.startCollection_ful (s : State) : s.ful.levelsOnly s.startCollection.ful := by
  have hbump (u : State) (c : Counter) : (u.bump c).ful = u.ful := keeps_State_bump .ful (by decide)
  unfold State.startCollection
  extract_lets f
  split
  · exact .refl _
  · split
    · rw [hbump]
      exact ⟨_, _, _, rfl⟩
    · split
      · split
        · rw [hbump]
          exact ⟨_, _, _, rfl⟩
        · exact .refl _
      · split
        · split
          · rw [hbump]
            exact ⟨_, _, _, rfl⟩
          · exact .refl _
        · exact .refl _

theorem State.startCollection_collects {s : State} (h : s.ful.collection.isSome = true) : s.startCollection = s := if_pos (.inl h)

theorem State.checkLevels_ful (s : State) (wasCritical : Bool) : s.ful.levelsOnly (s.checkLevels wasCritical).ful := by
  unfold State.checkLevels
  extract_lets f c s1 s2
  have h1 : s.ful.levelsOnly s1.ful := ⟨_, _, _, rfl⟩
  have k : s1.keepsBut [.regs, .out] s2 := keepsBut_ite keeps_State_raiseInt (keepsBut_refl _ _)
  exact h1.then (k.levelsOnly.then s2.startCollection_ful)

theorem State.gaspProgress_running {s : State}
    (h : s.ful.stopped = false) : s.gaspProgress = s := if_neg fun hno => ne_true_of_eq_false h hno.1

theorem Ful.block_setBlock {f : Ful} {b : Nat} {v : Block} (h : v ≠ Block.fresh) : (f.setBlock b v).block b = v := Table.get_set_ne h

/-- The chip enable whose turn it is to take a page (R341). -/
def Ful.nextCe (f : Ful) (copy : Bool) : Option Nat :=
  ((List.range f.used.length).map fun k => (f.rotate + k) % f.used.length).find? fun ce => (f.openOn ce copy).isSome || (f.freeOn ce).isSome

/-- A chip enable takes a page into its open block, or into the free one that it opens (R341). -/
def State.takeOn (s : State) (copy : Bool) (ce : Nat) (opened free : Option Nat) : Option (Nat × State) :=
  let s1 := { s with ful := { s.ful with rotate := (ce + 1) % s.ful.used.length } }
  match opened with
  | some b => some (b, s1)
  | none => free.map fun b => (b, s1.openBlock b copy)

theorem State.target_eq (s : State) (copy : Bool) :
    s.target copy = (s.ful.nextCe copy).bind fun ce => s.takeOn copy ce (s.ful.openOn ce copy) (s.ful.freeOn ce) := by
  unfold State.target
  extract_lets f n order
  show _ = Option.bind (order.find? fun ce => (f.openOn ce copy).isSome || (f.freeOn ce).isSome) _
  split
  · rename_i h
    rw [h]
    rfl
  · rename_i ce h
    rw [h]
    rfl

theorem State.openBlock_ful (s : State) (b : Nat) (copy : Bool) :
    ∃ bs r, (s.openBlock b copy).ful = { s.ful with blocks := bs, refresh := r } := by
  unfold State.openBlock
  rw [keeps_State_bump .ful (by decide)]
  exact ⟨_, _, rfl⟩

/-- From `f` to `g` no block is retired. -/
def Ful.keepsInUse (f g : Ful) : Prop := ∀ c, (f.block c).state ≠ .retired → (g.block c).state ≠ .retired

theorem Ful.keepsInUse.then {f g h : Ful} (hg : f.keepsInUse g) (hh : g.keepsInUse h) : f.keepsInUse h := fun c hc => hh c (hg c hc)

theorem Ful.keepsInUse_of_blocks {f g : Ful} (h : g.blocks = f.blocks) : f.keepsInUse g := fun c hc => by
  unfold Ful.block at hc ⊢
  rw [h]
  exact hc

theorem Ful.keepsInUse_setBlock {f : Ful} {b : Nat} {v : Block} (hv : v ≠ Block.fresh)
    (hstate : (f.block b).state ≠ .retired → v.state ≠ .retired) : f.keepsInUse (f.setBlock b v) := by
  intro c hc
  by_cases hcb : c = b
  · subst hcb
    rw [Ful.block_setBlock hv]
    exact hstate hc
  · unfold Ful.block Ful.setBlock at *
    rw [Table.get_set_other _ _ _ hcb]
    exact hc

theorem State.openBlock_keepsInUse (s : State) (b : Nat) (copy : Bool) : s.ful.keepsInUse (s.openBlock b copy).ful := by
  unfold State.openBlock
  rw [keeps_State_bump .ful (by decide)]
  have hstate : (openState copy) ≠ .free ∧ openState copy ≠ .retired := by
    cases copy with
    | true => exact ⟨nofun, nofun⟩
    | false => exact ⟨nofun, nofun⟩
  exact (Ful.keepsInUse_setBlock (fun h => hstate.1 (congrArg Block.state h)) fun _ => hstate.2).then (Ful.keepsInUse_of_blocks rfl)

/-- The block that takes the next page is opened at most; Fuller's counts and its other books stand (R341). -/
theorem State.target_ful {s s1 : State} {copy : Bool} {b : Nat} (h : s.target copy = some (b, s1)) :
    (∃ n bs r, s1.ful = { s.ful with rotate := n, blocks := bs, refresh := r }) ∧ s.ful.keepsInUse s1.ful := by
  rw [State.target_eq] at h
  obtain ⟨ce, -, h⟩ := Option.bind_eq_some_iff.1 h
  unfold State.takeOn at h
  extract_lets g s2 at h
  split at h
  · obtain ⟨-, rfl⟩ := Prod.mk.inj (Option.some.inj h)
    exact ⟨⟨_, _, _, rfl⟩, fun c hc => hc⟩
  · obtain ⟨x, -, h⟩ := Option.map_eq_some_iff.1 h
    obtain ⟨-, rfl⟩ := Prod.mk.inj h
    obtain ⟨bs, r, hful⟩ := s2.openBlock_ful x copy
    exact ⟨⟨_, bs, r, hful⟩, (Ful.keepsInUse_of_blocks (g := s2.ful) rfl).then (s2.openBlock_keepsInUse x copy)⟩

/-- Which block takes the next page does not depend on the time or on the sectors that wait (R341). -/
theorem State.target_of (s : State) (copy : Bool) (n : Nat) (d : List (Nat × SectorData)) :
    ({ s with now := n, ful := { s.ful with dirty := d } } : State).target copy =
      (s.target copy).map fun p => (p.1, { p.2 with now := n, ful := { p.2.ful with dirty := d } }) := by
  let s' : State := { s with now := n, ful := { s.ful with dirty := d } }
  have htake (ce : Nat) (opened free : Option Nat) : s'.takeOn copy ce opened free =
      (s.takeOn copy ce opened free).map fun p => (p.1, { p.2 with now := n, ful := { p.2.ful with dirty := d } }) := by
    cases opened with
    | some b => rfl
    | none =>
      cases free with
      | none => rfl
      | some b => rfl
  rw [State.target_eq, State.target_eq]
  show (s.ful.nextCe copy).bind (fun ce => s'.takeOn copy ce (s.ful.openOn ce copy) (s.ful.freeOn ce)) = _
  cases s.ful.nextCe copy with
  | none => rfl
  | some ce => exact htake ce _ _

/-- A block with a page is not the blank one. -/
theorem Block.ne_fresh_of_pages {v : Block} (h : v.pages ≠ []) : v ≠ Block.fresh := fun heq => h (congrArg Block.pages heq)

theorem State.ful_foldl_emit (l : List Nat) (e : Nat → Emission) (s : State) : (l.foldl (fun st k => st.emit (e k)) s).ful = s.ful := by
  induction l generalizing s with
  | nil => rfl
  | cons k l ih => exact ih _

theorem State.programSummary_ful (s : State) (b : Nat) (v : Block) :
    (s.programSummary b v).ful = { s.ful with nextSeq := s.ful.nextSeq + summaryPages s.ful.pagesPer } := by
  unfold State.programSummary
  rw [keeps_State_bumpBy .ful (by decide)]
  exact congrArg (fun f : Ful => { f with nextSeq := s.ful.nextSeq + summaryPages s.ful.pagesPer }) (State.ful_foldl_emit _ _ s)

theorem State.closeBlock_ful (s : State) (b kind : Nat) (h : (s.ful.block b).pages ≠ []) : (s.closeBlock b kind).ful =
    { s.ful.setBlock b { s.ful.block b with state := .closed, closeKind := kind, closeTime := s.way.opTime, summary := true } with
      nextSeq := s.ful.nextSeq + summaryPages s.ful.pagesPer } := by
  have hbump (u : State) (c : Counter) : (u.bump c).ful = u.ful := keeps_State_bump .ful (by decide)
  unfold State.closeBlock
  refine (congrArg State.ful (if_neg h)).trans ?_
  dsimp only
  split
  · exact State.programSummary_ful _ b _
  · rw [hbump]
    exact State.programSummary_ful _ b _

/-- Fuller with a page more in a block (R339). -/
def Ful.withPage (f : Ful) (b : Nat) (copy : Bool) (secs : List (Nat × SectorData)) : Ful :=
  let four := (List.range 4).map fun k => secs[k]?
  let v := f.block b
  { f.setBlock b { v with pages := v.pages ++ [⟨f.nextSeq, copy, four⟩] } with
    nextSeq := f.nextSeq + 1
    map := mapPage f.map b v.pages.length four }

theorem State.programPage_eq {s s1 : State} {copy : Bool} {b : Nat} (secs : List (Nat × SectorData)) (h : s.target copy = some (b, s1)) :
    ∃ u : State, u.ful = s1.ful.withPage b copy secs ∧ s.programPage copy secs =
      if s1.ful.dataPages ≤ (s1.ful.block b).pages.length + 1 then u.closeBlock b 0 else u := by
  have hbump (u : State) (c : Counter) : (u.bump c).ful = u.ful := keeps_State_bump .ful (by decide)
  have hbumpBy (u : State) (c : Counter) (i : Nat) : (u.bumpBy c i).ful = u.ful := keeps_State_bumpBy .ful (by decide)
  let v := s1.ful.block b
  let page : StorePage := ⟨s1.ful.nextSeq, copy, (List.range 4).map fun k => secs[k]?⟩
  let w := (({ s1 with ful := s1.ful.withPage b copy secs } : State).emit
    (.nandPage (s1.ful.psa b v.pages.length 0) (pageImage page).1 (pageImage page).2)).bump cFulPagesProgrammed
  have hw : w.ful = s1.ful.withPage b copy secs := hbump _ _
  refine ⟨if copy = true then w.bump cFulGcPagesCopied else w.bumpBy cFulSectorsWritten secs.length, ?_, ?_⟩
  · split
    · rw [hbump, hw]
    · rw [hbumpBy, hw]
  · unfold State.programPage
    rw [h]
    rfl

theorem Ful.withPage_block (f : Ful) (b : Nat) (copy : Bool) (secs : List (Nat × SectorData)) :
    ((f.withPage b copy secs).block b).pages ≠ [] ∧ ((f.withPage b copy secs).block b).state = (f.block b).state ∧
      f.keepsInUse (f.withPage b copy secs) := by
  let v : Block := { f.block b with pages := (f.block b).pages ++ [⟨f.nextSeq, copy, (List.range 4).map fun k => secs[k]?⟩] }
  have hv : v.pages ≠ [] := List.append_ne_nil_of_right_ne_nil _ (List.cons_ne_nil _ _)
  have hblock : (f.withPage b copy secs).block b = v := Ful.block_setBlock (f := f) (Block.ne_fresh_of_pages hv)
  rw [hblock]
  exact ⟨hv, rfl, (Ful.keepsInUse_setBlock (Block.ne_fresh_of_pages hv) fun h => h).then (Ful.keepsInUse_of_blocks rfl)⟩

theorem State.closeBlock_keepsInUse (s : State) (b kind : Nat) (h : (s.ful.block b).pages ≠ []) :
    s.ful.keepsInUse (s.closeBlock b kind).ful := by
  let v : Block := { s.ful.block b with state := .closed, closeKind := kind, closeTime := s.way.opTime, summary := true }
  have hset : s.ful.keepsInUse (s.ful.setBlock b v) := Ful.keepsInUse_setBlock (Block.ne_fresh_of_pages h) fun _ hno => nomatch hno
  rw [State.closeBlock_ful s b kind h]
  exact hset.then (Ful.keepsInUse_of_blocks rfl)

/-- From `f` to `g` only the blocks and whose turn it is, the map, the queue for refresh and SEQ differ: what a page changes
    (R339, R341). -/
def Ful.pagesOnly (f g : Ful) : Prop := ∃ n bs r m q, g = { f with rotate := n, blocks := bs, refresh := r, map := m, nextSeq := q }

theorem Ful.pagesOnly.then {f g h : Ful} (hg : f.pagesOnly g) (hh : g.pagesOnly h) : f.pagesOnly h := by
  obtain ⟨_, _, _, _, _, rfl⟩ := hg
  obtain ⟨n, bs, r, m, q, rfl⟩ := hh
  exact ⟨n, bs, r, m, q, rfl⟩

theorem State.programPage_ful {s s1 : State} {copy : Bool} {b : Nat} (secs : List (Nat × SectorData)) (h : s.target copy = some (b, s1)) :
    s.ful.pagesOnly (s.programPage copy secs).ful ∧ s.ful.keepsInUse (s.programPage copy secs).ful ∧
      (s.programPage copy secs).ful.nextSeq = s.ful.nextSeq +
        (if s.ful.dataPages ≤ (s1.ful.block b).pages.length + 1 then 1 + summaryPages s.ful.pagesPer else 1) := by
  obtain ⟨⟨n, bs, r, hs1⟩, huse⟩ := State.target_ful h
  obtain ⟨u, hu, hpage⟩ := State.programPage_eq secs h
  obtain ⟨hpages, -, hin⟩ := s1.ful.withPage_block b copy secs
  have hdata : s1.ful.dataPages = s.ful.dataPages := by
    rw [hs1]
    rfl
  have hpaged : s.ful.pagesOnly u.ful := by
    rw [hu]
    refine Ful.pagesOnly.then (g := s1.ful) ?_ ⟨_, _, _, _, _, rfl⟩
    rw [hs1]
    exact ⟨_, _, _, _, _, rfl⟩
  have hseq : u.ful.nextSeq = s.ful.nextSeq + 1 := by
    rw [hu]
    show s1.ful.nextSeq + 1 = _
    rw [hs1]
  have hper : u.ful.pagesPer = s.ful.pagesPer := by
    obtain ⟨_, _, _, _, _, hg⟩ := hpaged
    rw [hg]
    rfl
  rw [hpage, hdata]
  by_cases hfull : s.ful.dataPages ≤ (s1.ful.block b).pages.length + 1
  · have hpages' : (u.ful.block b).pages ≠ [] := by
      rw [hu]
      exact hpages
    have hclosed := State.closeBlock_ful u b 0 hpages'
    rw [if_pos hfull, if_pos hfull, hclosed]
    have hclosedSeq : u.ful.nextSeq + summaryPages u.ful.pagesPer = s.ful.nextSeq + (1 + summaryPages s.ful.pagesPer) := by
      rw [hseq, hper, Nat.add_assoc]
    refine ⟨hpaged.then ⟨_, _, _, _, _, rfl⟩, ?_, hclosedSeq⟩
    rw [← hclosed]
    exact huse.then ((hu ▸ hin).then (u.closeBlock_keepsInUse b 0 hpages'))
  · rw [if_neg hfull, if_neg hfull]
    exact ⟨hpaged, huse.then (hu ▸ hin), hseq⟩

theorem State.programPage_keepsInUse (s : State) (copy : Bool) (secs : List (Nat × SectorData)) :
    s.ful.keepsInUse (s.programPage copy secs).ful := by
  cases h : s.target copy with
  | none =>
    have hsame : s.programPage copy secs = s := by
      unfold State.programPage
      rw [h]
    rw [hsame]
    exact fun c hc => hc
  | some p => exact (State.programPage_ful secs h).2.1

theorem State.readPage_ful (s : State) (b : Nat) : (s.readPage b).ful =
    if s.item iReadLimit ≤ (s.ful.block b).reads + 1 then
      (s.ful.setBlock b { s.ful.block b with reads := (s.ful.block b).reads + 1 }).queueRefresh b
    else s.ful.setBlock b { s.ful.block b with reads := (s.ful.block b).reads + 1 } := keeps_State_bump .ful (by decide)

theorem Block.ne_fresh_of_reads {v : Block} {n : Nat} (h : v.reads = n + 1) : v ≠ Block.fresh := fun heq => by
  rw [heq] at h
  exact absurd h nofun

theorem Ful.queueRefresh_blocks (f : Ful) (b : Nat) : (f.queueRefresh b).blocks = f.blocks := by
  unfold Ful.queueRefresh
  split
  · rfl
  · rfl

theorem State.readPage_keepsInUse (s : State) (b : Nat) : s.ful.keepsInUse (s.readPage b).ful := by
  have hset : s.ful.keepsInUse (s.ful.setBlock b { s.ful.block b with reads := (s.ful.block b).reads + 1 }) :=
    Ful.keepsInUse_setBlock (Block.ne_fresh_of_reads rfl) fun h => h
  rw [State.readPage_ful]
  split
  · exact hset.then (Ful.keepsInUse_of_blocks (Ful.queueRefresh_blocks _ b))
  · exact hset

theorem State.readPages_keepsInUse (l : List Nat) (s : State) (b : Nat) :
    s.ful.keepsInUse (l.foldl (fun (st : State) _ => st.readPage b) s).ful := by
  induction l generalizing s with
  | nil => exact fun c hc => hc
  | cons k l ih => exact (s.readPage_keepsInUse b).then (ih _)

/-! ## Sectors that are filled and flushed (R335, R338) -/

theorem State.append8_room {s : State} {e : StoreEntry} (h : s.ful.open8.entries.length < 63) :
    s.append8 e = { s with ful := { s.ful with open8 := s.ful.open8.add e s.now } } := by
  unfold State.append8
  refine if_pos ?_
  show (s.ful.open8.entries ++ [e]).length < 64
  rw [List.length_append, List.length_singleton]
  omega

theorem Ful.flush6_kept (f : Ful) : ∃ d o, f.flush6 = { f with dirty := d, open6 := o } := by
  unfold Ful.flush6
  split
  · exact ⟨_, _, rfl⟩
  · exact ⟨_, _, rfl⟩

theorem Ful.flush7_kept (f : Ful) : ∃ d o, f.flush7 = { f with dirty := d, open7 := o } := by
  unfold Ful.flush7
  split
  · exact ⟨_, _, rfl⟩
  · exact ⟨_, _, rfl⟩

theorem Ful.mem_putDirty (f : Ful) (lsa : Nat) (d : SectorData) : (lsa, d) ∈ (f.putDirty lsa d).dirty :=
  List.mem_append_right _ (List.mem_singleton.2 rfl)

/-- Settles O34: an accepted record joins the open sector, a page changes the blocks and SEQ, and no page retires the victim of a
    collection. -/
theorem entriesAreAcceptedAndProgrammed : Obligations.EntriesAreAcceptedAndProgrammed := by
  unfold Obligations.EntriesAreAcceptedAndProgrammed
  refine ⟨?accept, ?hold, ?flush, ?program, ?nothing, ?batch⟩
  case accept =>
    intro s t id tref r k d rest hqueue hshut hfull hroom hlen
    have hroom8 : (s.advance t).room8 1 = s.advance t := if_pos hfull
    let s2 : State := { s.advance t with ful := { s.ful with queue := rest, holding := false } }
    have hplace : (s2.place (.record id r tref k d)).ful = { s2.ful with open8 := s.ful.open8.add (.record r tref k d) (max s.now t) } := by
      show ((s2.append8 (.record r tref k d)).readingStored id).ful = _
      rw [keeps_State_readingStored .ful (by decide), State.append8_room (by exact hlen)]
      rfl
    obtain ⟨on, c, q, hlevels⟩ := (s2.place (.record id r tref k d)).checkLevels_ful s.ful.critical
    rw [hplace] at hlevels
    refine ⟨(s2.place (.record id r tref k d)).checkLevels s.ful.critical, ?_, congrArg Ful.queue hlevels, congrArg Ful.holding hlevels,
      congrArg Ful.open8 hlevels⟩
    show execFullerAccept t s = _
    have hready : (if (s.advance t).ful.shut = true ∨ (FulItem.record id r tref k d).entries8 = 0 then s.advance t
        else (s.advance t).room8 (FulItem.record id r tref k d).entries8) = s.advance t :=
      (if_neg (not_or.2 ⟨ne_true_of_eq_false hshut, nofun⟩)).trans hroom8
    simp only [execFullerAccept, show (s.advance t).ful.queue = _ from hqueue, hready]
    exact if_neg (not_or.2 ⟨ne_true_of_eq_false hshut, Nat.not_lt.2 hroom⟩)
  case hold =>
    intro s t i rest hqueue hshut
    let s2 := if s.ful.critical = true ∧ s.ful.holding = false then (s.advance t).bump cFulCriticalHolds else s.advance t
    have hs2 : s2.ful = s.ful := by
      have k : (s.advance t).keepsBut [.regs, .out] s2 := keepsBut_ite keeps_State_bump.within (keepsBut_refl _ _)
      exact k .ful (by decide)
    refine ⟨{ s2 with ful := { s2.ful with holding := true } }, ?_, congrArg (fun f : Ful => { f with holding := true }) hs2⟩
    show execFullerAccept t s = _
    have hready : (if (s.advance t).ful.shut = true ∨ i.entries8 = 0 then s.advance t else (s.advance t).room8 i.entries8) = s.advance t :=
      if_pos (.inl hshut)
    simp only [execFullerAccept, show (s.advance t).ful.queue = _ from hqueue, hready]
    exact if_pos (.inl hshut)
  case flush =>
    intro s t a hsince hms hdue hnew
    let f1 := if (s.advance t).flushDue s.ful.open6.since = true then s.ful.flush6 else s.ful
    let f2 := if (s.advance t).flushDue f1.open7.since = true then f1.flush7 else f1
    have h1 : ∃ d o, f1 = { s.ful with dirty := d, open6 := o } := by
      unfold f1
      split
      · exact s.ful.flush6_kept
      · exact ⟨_, _, rfl⟩
    have h2 : ∃ d o o', f2 = { s.ful with dirty := d, open6 := o, open7 := o' } := by
      obtain ⟨d, o, h1⟩ := h1
      unfold f2
      split
      · obtain ⟨d', o', h⟩ := f1.flush7_kept
        rw [h, h1]
        exact ⟨_, _, _, rfl⟩
      · rw [h1]
        exact ⟨_, _, _, rfl⟩
    obtain ⟨d, o, o', h2⟩ := h2
    have hopen : f2.open8 = s.ful.open8 := by rw [h2]
    have hsector : f2.sector8 = s.ful.sector8 := by
      rw [h2]
      rfl
    have hflush : f2.flush8 = { f2.putDirty f2.sector8.1 f2.sector8.2 with
        open8 := { f2.open8 with programmed := f2.open8.entries.length, since := none } } :=
      if_neg (by rw [hopen]; exact Nat.not_le.2 hnew)
    have hnow : (s.advance t).flushDue f2.open8.since = true := by
      rw [hopen, hsince]
      exact decide_eq_true ⟨hms, hdue⟩
    refine ⟨{ s.advance t with ful := f2.flush8 }, next_of_eq ?_, ?_, ?_, ?_, ?_⟩
    · show ({ s.advance t with ful := if (s.advance t).flushDue f2.open8.since = true then f2.flush8 else f2 } : State) = _
      rw [if_pos hnow]
    · rw [hflush, ← hsector]
      exact f2.mem_putDirty _ _
    · rw [hflush]
    · rw [hflush, ← hopen]
    · rw [hflush, ← hopen]
  case program =>
    intro s s1 t b bad hdirty htarget hrun
    let d : State := { s with now := max s.now t, ful := { s.ful with dirty := s.ful.dirty.drop 4 } }
    have htarget' : d.target false = some (b, { s1 with now := max s.now t, ful := { s1.ful with dirty := s.ful.dirty.drop 4 } }) :=
      (s.target_of false _ _).trans (congrArg _ htarget)
    have hsome : ((s.advance t).target false).isNone = false := by
      rw [show (s.advance t).target false = _ from s.target_of false (max s.now t) s.ful.dirty, htarget]
      rfl
    let pairs := (List.range (s.ful.dirty.take 4).length).zip (s.ful.dirty.take 4)
    let page := d.programPage false (pairs.map fun x => (x.2.1, blankFailed bad x.1 x.2.2))
    let x := (pairs.flatMap fun x => failedNames bad x.1 x.2.2).foldl
      (fun st n => (st.raiseInt 0x110004 4).note cFulRckFail .operations .none 0 (n.1 + 2 ^ 32 * n.2)) page
    have hx : x.ful = page.ful := by
      have k : page.keepsBut [.regs, .out, .way, .host, .limits] x :=
        keepsBut_foldl (fun u a hu => hu.then keeps_State_raiseInt |>.then keeps_State_note) (keepsBut_refl _ _)
      exact k .ful (by decide)
    have hprogram : (s.advance t).programDirty bad = x := by
      refine if_neg (not_or.2 ⟨?_, ne_true_of_eq_false hsome⟩)
      exact fun hno => hdirty ((List.take_eq_nil_iff.1 hno).resolve_left nofun)
    obtain ⟨⟨n, bs, r, m, q, hpage⟩, -, hseq⟩ := State.programPage_ful (pairs.map fun x => (x.2.1, blankFailed bad x.1 x.2.2)) htarget'
    have hpage : page.ful = _ := hpage
    obtain ⟨on, c, r', hlevels⟩ := x.checkLevels_ful s.ful.critical
    refine ⟨x.checkLevels s.ful.critical, next_of_eq ?_, ?_, ?_⟩
    · have hrun' : (x.checkLevels s.ful.critical).ful.stopped = false := by
        rw [hlevels, hx, hpage]
        exact hrun
      rw [hprogram]
      exact State.gaspProgress_running hrun'
    · rw [hlevels, hx, hpage]
    · rw [hlevels, hx]
      exact hseq
  case nothing =>
    intro s t bad hdirty hrun
    obtain ⟨on, c, r, hlevels⟩ := (s.advance t).checkLevels_ful s.ful.critical
    have hrun' : ((s.advance t).checkLevels s.ful.critical).ful.stopped = false := by
      rw [hlevels]
      exact hrun
    refine ⟨(s.advance t).checkLevels s.ful.critical, next_of_eq ?_, ?_, (congrArg Ful.nextSeq hlevels :)⟩
    · have htaken : (s.advance t).ful.dirty.take 4 = [] := by
        rw [show (s.advance t).ful.dirty = [] from hdirty]
        rfl
      have hnone : (s.advance t).programDirty bad = s.advance t := if_pos (.inl htaken)
      rw [hnone]
      exact State.gaspProgress_running hrun'
    · rw [hlevels]
      exact hdirty
  case batch =>
    intro s t c hc hrun hride haged hmore hclosed htarget
    let a := s.advance t
    have hnone : a.ful.closedBlocks.filter (fun e => decide (e.2.closeTime + 86400 * a.item iRetentionDays < a.way.opTime)) = [] := by
      refine List.filter_eq_nil_iff.2 fun e he => ?_
      have hage : s.way.opTime ≤ e.2.closeTime + 86400 * s.item iRetentionDays := haged e (List.mem_of_mem_filter he)
      exact fun hno => absurd (of_decide_eq_true hno) (Nat.not_lt.2 hage)
    have hstart : a.startCollection = a := State.startCollection_collects (by rw [show a.ful.collection = some c from hc]; rfl)
    have hsome : (a.target true).isNone = false := by
      rw [show a.target true = _ from s.target_of true (max s.now t) s.ful.dirty]
      obtain ⟨p, hp⟩ := Option.isSome_iff_exists.1 htarget
      rw [hp]
      rfl
    let r := s.ful.batch c.victim c.next 4 0 []
    let read := ((List.range r.1).filter fun k => decide (s.ful.validIn c.victim (c.next + k) ≠ [])).foldl
      (fun (st : State) _ => st.readPage c.victim) a
    let s2 := if r.2 = [] then a else read.programPage true r.2
    have huse : a.ful.keepsInUse s2.ful := by
      unfold s2
      split
      · exact fun b hb => hb
      · exact (State.readPages_keepsInUse _ a c.victim).then (read.programPage_keepsInUse true r.2)
    have hdone : decide ((s2.ful.block c.victim).state = .retired ∧ (s2.ful.block c.victim).pages.length ≤ c.next + r.1) = false := by
      refine decide_eq_false fun hno => huse c.victim ?_ hno.1
      rw [show (a.ful.block c.victim).state = .closed from hclosed]
      exact nofun
    refine ⟨{ s2 with ful := { s2.ful with collection := some { c with next := c.next + r.1 } } }, ?_, rfl⟩
    have hbegin : ({ a with ful := (a.ful.closedBlocks.filter fun e => decide (e.2.closeTime + 86400 * a.item iRetentionDays <
        a.way.opTime)).foldl (fun (f : Ful) (e : Nat × Block) => f.queueRefresh e.1) a.ful } : State).startCollection = a := by
      rw [hnone]
      exact hstart
    show execGcBatch t s = _
    unfold execGcBatch
    dsimp only
    rw [show ({ a with ful := (a.ful.closedBlocks.filter fun e => decide (e.2.closeTime + 86400 * a.item iRetentionDays <
        a.way.opTime)).foldl (fun (f : Ful) (e : Nat × Block) => f.queueRefresh e.1) a.ful } : State).startCollection = a from hbegin,
      show a.ful.collection = some c from hc]
    dsimp only
    refine (if_neg (not_or.2 ⟨ne_true_of_eq_false hrun, not_or.2 ⟨ne_true_of_eq_false hride, Nat.not_le.2 hmore⟩⟩)).trans
      ((if_neg fun hno => ne_true_of_eq_false hsome hno.2).trans ?_)
    show Host.Outcome.next { s2 with ful := { s2.ful with collection := if decide ((s2.ful.block c.victim).state = BlockState.retired ∧
      (s2.ful.block c.victim).pages.length ≤ c.next + r.1) = true then none else some { c with next := c.next + r.1 } } } = _
    rw [hdone]
    rfl

end Sys2Proof.Machine

/-! # Blocks and books of the store -/

namespace Sys2Proof.Machine

-- One theorem after the other: a thread for each would pass the memory limit of the check.
set_option Elab.async false

/-! ## Blocks that are retired or erased (R344, R346) -/

theorem Ful.block_of {f g : Ful} (h : g.blocks = f.blocks) (b : Nat) : g.block b = f.block b := by
  unfold Ful.block
  rw [h]

theorem Ful.levelsOnly.block {f g : Ful} (h : f.levelsOnly g) (b : Nat) : g.block b = f.block b := by
  obtain ⟨_, _, _, rfl⟩ := h
  rfl

theorem Ful.dirtyControl_blocks (f : Ful) : f.dirtyControl.blocks = f.blocks := by
  unfold Ful.dirtyControl
  split
  · rfl
  · rfl

theorem State.shrink_blocks (s : State) : s.shrink.ful.blocks = s.ful.blocks := by
  unfold State.shrink
  split
  · rfl
  · split
    · have k (u : State) (n : Nat) (l : LogId) (a b c p : Nat) : ((u.released n).event l a b c p).ful = u.ful :=
        (keeps_State_released.then keeps_State_event) .ful (by decide)
      rw [k]
      exact Ful.dirtyControl_blocks _
    · rfl

/-- A block that is retired keeps its pages, and is marked where its mark can be programmed (R346). -/
theorem State.retireBlock_block (s : State) (b : Nat) (markFails : Bool) :
    (s.retireBlock b markFails).ful.block b = { s.ful.block b with state := .retired, marked := !markFails } := by
  let v : Block := { s.ful.block b with state := .retired, marked := !markFails }
  let f := s.ful.setBlock b v
  have hv : v ≠ Block.fresh := fun h => absurd (congrArg Block.state h) nofun
  refine Eq.trans (Ful.block_of ?_ b) (Ful.block_setBlock (f := s.ful) hv)
  let bad := (f.blocks.filter fun e => decide (e.2.state = .retired) && decide (e.1 / 32768 = b / 32768)).map Prod.fst
  let f1 := (f.putDirty (8 + b / 32768) (.bitmap bad)).dirtyControl
  let f2 := if (s.ful.block b).pages = [] then f1 else f1.queueRefresh b
  let s0 : State := if markFails = true then { s with ful := f2 } else ({ s with ful := f2 }).emit (.nandMark (f2.psa b 0 0))
  have h1 : f1.blocks = f.blocks := Ful.dirtyControl_blocks _
  have h2 : f2.blocks = f.blocks := by
    unfold f2
    split
    · exact h1
    · exact (Ful.queueRefresh_blocks f1 b).trans h1
  have h0 : s0.ful = f2 := by
    unfold s0
    split
    · rfl
    · rfl
  have hnoted : ((s0.note cFulBlocksRetired .operations .none 0 b).raiseInt 0x110004 2).ful = s0.ful :=
    (keeps_State_note.then keeps_State_raiseInt) .ful (by decide)
  have hshrunk : (s.retireBlock b markFails).ful.blocks = ((s0.note cFulBlocksRetired .operations
      .none 0 b).raiseInt 0x110004 2).ful.blocks :=
    State.shrink_blocks _
  rw [hshrunk, hnoted, h0, h2]

theorem Ful.queueRefresh_map (f : Ful) (b : Nat) : (f.queueRefresh b).map = f.map := by
  unfold Ful.queueRefresh
  split
  · rfl
  · rfl

/-- A read counts for its block and leaves the map (R337). -/
theorem State.readPage_block (s : State) (b : Nat) :
    (s.readPage b).ful.block b = { s.ful.block b with reads := (s.ful.block b).reads + 1 } ∧ (s.readPage b).ful.map = s.ful.map := by
  let v : Block := { s.ful.block b with reads := (s.ful.block b).reads + 1 }
  have hset : (s.ful.setBlock b v).block b = v := Ful.block_setBlock (Block.ne_fresh_of_reads rfl)
  rw [State.readPage_ful]
  split
  · exact ⟨(Ful.block_of (Ful.queueRefresh_blocks _ b) b).trans hset, Ful.queueRefresh_map _ b⟩
  · exact ⟨hset, rfl⟩

/-! ## Releases of stream 8 (R336) -/

theorem State.room8_ful (s : State) (n : Nat) :
    ∃ m v held, (s.room8 n).ful = { s.ful with map := m, stream8 := v, heldForCheckpoint := held } := by
  unfold State.room8
  split
  · exact ⟨_, _, _, rfl⟩
  · extract_lets v
    split
    · split
      · exact ⟨_, _, _, rfl⟩
      · rw [keeps_State_raiseInt .ful (by decide)]
        exact ⟨_, _, _, rfl⟩
    · rw [keeps_State_released .ful (by decide)]
      exact ⟨_, _, _, rfl⟩

theorem State.afterCheckpoint_ful (s : State) :
    ∃ m v held, s.afterCheckpoint.ful = { s.ful with map := m, stream8 := v, heldForCheckpoint := held } := by
  unfold State.afterCheckpoint
  split
  · exact s.room8_ful 1
  · exact ⟨_, _, _, rfl⟩

/-- Settles O35: a block that is written stays so through all that follows in its command, and a release of stream 8 leaves the
    checkpoints. -/
theorem blocksAndBooksOfTheStore : Obligations.BlocksAndBooksOfTheStore := by
  unfold Obligations.BlocksAndBooksOfTheStore
  refine ⟨?programFail, ?eraseFail, ?erase, ?read, ?legal, ?ctx, ?early, ?counts, ?rebuilt, ?starting⟩
  case programFail =>
    intro s markFails t b hdirty htarget
    obtain ⟨⟨b', s1⟩, hs1, rfl⟩ := Option.map_eq_some_iff.1 htarget
    have htarget' := (s.target_of false (max s.now t) s.ful.dirty).trans (congrArg _ hs1)
    let w : State := { s1 with now := max s.now t, ful := { s1.ful with dirty := s.ful.dirty } }
    let u := (w.bump cFulProgramFail).retireBlock b' markFails
    have hblock := ((u.checkLevels_ful s.ful.critical).block b').trans (State.retireBlock_block _ b' markFails)
    refine ⟨u.checkLevels s.ful.critical, ?_, ?_, ?_⟩
    · show execProgramFail false markFails t s = _
      unfold execProgramFail
      refine (if_neg (not_or.2 ⟨fun hno => hdirty hno.2, nofun⟩)).trans ?_
      rw [show (s.advance t).target false = some (b', w) from htarget']
      rfl
    · rw [hblock]
    · rw [hblock]
  case eraseFail =>
    intro s markFails b t hin hretired hfactory
    let s1 : State := match s.ful.collection with
      | some c => if c.victim = b then { s.advance t with ful := { s.ful with collection := none } } else s.advance t
      | none => s.advance t
    have hs1 : (s1.bump cFulEraseFail).ful.block b = s.ful.block b := by
      rw [keeps_State_bump .ful (by decide)]
      unfold s1
      split
      · split
        · rfl
        · rfl
      · rfl
    let u := (s1.bump cFulEraseFail).retireBlock b markFails
    have hblock := ((u.checkLevels_ful s.ful.critical).block b).trans (State.retireBlock_block _ b markFails)
    rw [hs1] at hblock
    refine ⟨u.checkLevels s.ful.critical, if_neg (not_or.2 ⟨Nat.not_le.2 hin, not_or.2 ⟨hretired, hfactory⟩⟩), ?_, ?_, ?_⟩
    · rw [hblock]
    · rw [hblock]
    · rw [hblock]
  case erase =>
    intro s b t hin hfree hnone
    let v : Block := { Block.fresh with erases := (s.ful.block b).erases + 1 }
    have hv : v ≠ Block.fresh := fun h => absurd (congrArg Block.erases h) nofun
    let f0 := s.ful.setBlock b v
    let s1 := ({ s.advance t with ful := { f0 with refresh := f0.refresh.filter fun x => decide (x ≠ b) } } : State).bump cFulErases
    have hblock : (s1.checkLevels s.ful.critical).ful.block b = v := by
      rw [(s1.checkLevels_ful s.ful.critical).block b, keeps_State_bump .ful (by decide)]
      exact Ful.block_setBlock (f := s.ful) hv
    refine ⟨s1.checkLevels s.ful.critical, ?_, ?_, ?_, ?_⟩
    · show execBlockErase b t s = _
      unfold execBlockErase
      simp only [show (s.advance t).ful.collection = none from hnone]
      exact if_neg (not_or.2 ⟨Nat.not_le.2 hin, fun hno => hno.2 hfree⟩)
    · rw [hblock]
      rfl
    · rw [hblock]
    · rw [hblock]
      rfl
  case read =>
    intro s lsa bits retries t l hl
    let s1 := (s.advance t).readPage l.block
    let s2 := if bits = 0 then s1 else s1.bump cFulCorrectedReads
    let tried := min retries (min s.ful.geometry.retryLevels 8)
    let s3 := if tried = 0 then s2 else s2.bumpBy cFulReadRetries tried
    let s4 : State := if s.item iRefreshBits < bits ∨ false = true then { s3 with ful := s3.ful.queueRefresh l.block } else s3
    have k2 : s1.keepsBut [.regs, .out] s2 := keepsBut_ite (keepsBut_refl _ _) keeps_State_bump.within
    have h3 : s3.ful = s1.ful := keepsBut_ite k2 (k2.then keeps_State_bumpBy) .ful (by decide)
    have h4 : s4.ful.blocks = s1.ful.blocks ∧ s4.ful.map = s1.ful.map := by
      unfold s4
      split
      · rw [← h3]
        exact ⟨Ful.queueRefresh_blocks _ _, Ful.queueRefresh_map _ _⟩
      · rw [h3]
        exact ⟨rfl, rfl⟩
    obtain ⟨hread, hmap⟩ := State.readPage_block (s.advance t) l.block
    have hlevels := s4.startCollection_ful
    refine ⟨s4.startCollection, ?_, ?_, ?_⟩
    · show execSectorRead lsa bits retries false t s = _
      unfold execSectorRead
      extract_lets a
      rw [show Table.get none a.ful.map lsa = some l from hl]
      rfl
    · rw [hlevels.block, Ful.block_of h4.1, hread]
      rfl
    · obtain ⟨_, _, _, hful⟩ := hlevels
      rw [hful]
      exact h4.2.trans hmap
  case legal =>
    intro s t c hc hto htarget
    have hsome : ((s.advance t).target false).isNone = false := by
      obtain ⟨p, hp⟩ := Option.isSome_iff_exists.1 htarget
      rw [show (s.advance t).target false = _ from s.target_of false (max s.now t) s.ful.dirty, hp]
      rfl
    let s1 := (s.advance t).programPage false [(if c.seq % 2 = 0 then 12288 else 22528, .legalCheckpoint c)]
    let s2 : State := { s1 with ful := { s1.ful with ckptLegal := none, legalReadPos := some c.readPos } }
    obtain ⟨m, v, held, hful⟩ := s2.afterCheckpoint_ful
    refine ⟨s2.afterCheckpoint, ?_, by rw [hful], by rw [hful]⟩
    show execCheckpointComplete true t s = _
    unfold execCheckpointComplete
    rw [if_pos rfl, show (s.advance t).ful.ckptLegal = some c from hc]
    exact if_neg (not_or.2 ⟨ne_false_of_eq_true hto, ne_true_of_eq_false hsome⟩)
  case ctx =>
    intro s t c hc hto htarget
    have hsome : ((s.advance t).target false).isNone = false := by
      obtain ⟨p, hp⟩ := Option.isSome_iff_exists.1 htarget
      rw [show (s.advance t).target false = _ from s.target_of false (max s.now t) s.ful.dirty, hp]
      rfl
    let s1 := (s.advance t).programPage false [(if c.seq % 2 = 0 then 4096 else 8192, .ctxCheckpoint c)]
    let s2 : State := { s1 with ful := { s1.ful with ckptCtx := none, ctxReadPos := some c.readPos } }
    obtain ⟨m, v, held, hful⟩ := s2.afterCheckpoint_ful
    refine ⟨s2.afterCheckpoint, ?_, by rw [hful], by rw [hful]⟩
    show execCheckpointComplete false t s = _
    unfold execCheckpointComplete
    rw [if_neg nofun, show (s.advance t).ful.ckptCtx = some c from hc]
    exact if_neg (not_or.2 ⟨ne_false_of_eq_true hto, ne_true_of_eq_false hsome⟩)
  case early =>
    intro s t c hc hto
    refine ⟨s.advance t, ?_, rfl⟩
    show execCheckpointComplete true t s = _
    unfold execCheckpointComplete
    rw [if_pos rfl, show (s.advance t).ful.ckptLegal = some c from hc]
    exact if_pos (.inl hto)
  case counts =>
    intro s t hday hcontrol
    exact ⟨_, if_neg (not_or.2 ⟨Nat.not_lt.2 hday, hcontrol⟩), rfl, Ful.mem_putDirty s.ful 2048 _⟩
  case rebuilt =>
    intro s sums pages t hrebuilding hstage
    refine ⟨_, if_neg (not_or.2 ⟨ne_false_of_eq_true hrebuilding, Nat.not_lt.2 hstage⟩), ?_⟩
    obtain ⟨on, c, r, hlevels⟩ := State.checkLevels_ful _ false
    rw [hlevels]
  case starting =>
    intro s sums pages t hstage
    exact ⟨s.advance t, if_pos (.inr hstage), rfl⟩

end Sys2Proof.Machine

/-! # Attempts of the radio links -/

namespace Sys2Proof.Machine

-- One theorem after the other: a thread for each would pass the memory limit of the check.
set_option Elab.async false

/-! ## Attempts of the radio links (R275, R278, R295) -/

/-- The first of those that meet a condition is also the first of those that meet a stronger one, where it meets that. -/
theorem List.find?_stronger {α : Type} {p q : α → Bool} {l : List α} {x : α} (h : l.find? p = some x) (hq : q x = true)
    (himp : ∀ y, q y = true → p y = true) : l.find? q = some x := by
  obtain ⟨hp, as, bs, rfl, hfirst⟩ := List.find?_eq_some_iff_append.1 h
  refine List.find?_eq_some_iff_append.2 ⟨hq, as, bs, rfl, fun a ha => ?_⟩
  have hno := hfirst a ha
  cases hqa : q a with
  | false => rfl
  | true =>
    rw [himp a hqa] at hno
    exact absurd hno nofun

theorem State.modRadio_radio {s : State} {i : Nat} {f : RadioLink → RadioLink} (h : (s.ctxAt i).state ≠ .empty) :
    ((s.modRadio i f).ctxAt i).radio = f (s.ctxAt i).radio ∧ ((s.modRadio i f).ctxAt i).state ≠ .empty := by
  have hmod : (s.modRadio i f).ctxAt i = { s.ctxAt i with radio := f (s.ctxAt i).radio } := State.modCtx_ctxAt (by exact h)
  rw [hmod]
  exact ⟨rfl, h⟩

/-- A miss of a partner that TXN keeps counts on its link (R295). -/
theorem State.slotMissed_radio {s : State} {i req : Nat} {x : MeshTx} (hwork : x.work = .request req) (h : (s.ctxAt i).state ≠ .empty) :
    ((s.slotMissed i x).ctxAt i).radio = { (s.ctxAt i).radio with misses := min 15 ((s.ctxAt i).radio.misses + 1) } ∧
      ((s.slotMissed i x).ctxAt i).state ≠ .empty := by
  have hkeep : ¬ x.work = .keepAlive := by
    rw [hwork]
    exact nofun
  have k : s.keepsBut [.rfm, .regs] ((s.meshSet x { x with awaiting := false }).bump cRfmSlotMiss) :=
    keeps_State_meshSet.within |>.then keeps_State_bump
  have hctx : ((s.meshSet x { x with awaiting := false }).bump cRfmSlotMiss).ctxAt i = s.ctxAt i := State.ctxAt_of (k .ctx (by decide)) i
  unfold State.slotMissed
  rw [if_neg hkeep, ← hctx]
  exact State.modRadio_radio (by rw [hctx]; exact h)

/-- An Enh-Ack without timing, to a frame of TXN outside the slots, tells nothing of its link's clock (R294). -/
theorem State.ackTiming_plain {s : State} {x : MeshTx} {k req : Nat} (start : Nat) (hslot : x.slot = some k) (hwork : x.work = .request req)
    (hway : x.way = .unicast) (h : (s.ctxAt k).radio.recovering = false) : s.ackTiming x start none = s := by
  unfold State.ackTiming
  simp only [hslot, hwork, hway]
  refine (if_neg nofun).trans ((if_neg (ne_true_of_eq_false h)).trans ?_)
  exact ite_self s

/-- An awaited Enh-Ack ends its frame and clears its link's FAILS (R275, R278). -/
theorem State.enhAckArrived_ends {s : State} {n start k req : Nat} {bytes : List Byte} {x : MeshTx}
    (hfind : (s.rfm.tx.find? fun x => x.awaiting && decide (x.radio = n ∧ x.dsn = fieldAt bytes 2 1 ∧ x.dst = fieldAt bytes 7 2)) = some x)
    (hkind : macKindOk bytes 2 = true) (hus : s.macForUs bytes = true) (hslot : x.slot = some k) (hlen : bytes.length = 13)
    (hway : x.way = .unicast) (hpending : x.pending = false) (hwork : x.work = .request req) (hheld : (s.ctxAt k).state ≠ .empty)
    (hrecovering : (s.ctxAt k).radio.recovering = false) :
    s.enhAckArrived n bytes start = ((s.bump (cRfAckRx n)).meshDone x).modRadio k fun l => { l with fails := 0 } := by
  let s1 := (s.bump (cRfAckRx n)).meshDone x
  have hctx : s1.ctxAt k = s.ctxAt k := State.ctxAt_of ((keeps_State_bump.within (L := [.regs, .rfm]) |>.then keeps_State_meshDone) .ctx
    (by decide)) k
  have hradio : ((s1.modRadio k fun l => { l with fails := 0 }).ctxAt k).radio = { (s1.ctxAt k).radio with fails := 0 } :=
    (State.modRadio_radio (by rw [hctx]; exact hheld)).1
  unfold State.enhAckArrived
  simp only [hfind]
  refine (if_neg (not_or.2 ⟨ne_false_of_eq_true hkind, ne_false_of_eq_true hus⟩)).trans ?_
  simp only [hslot]
  rw [if_neg (ne_true_of_eq_false hpending), if_neg (by rw [hlen]; decide)]
  refine State.ackTiming_plain start hslot hwork hway ?_
  rw [hradio, hctx]
  exact hrecovering

/-- Settles O30: the first frame that awaits is the one that ends, and what a miss counts and widens is its own link. -/
theorem meshAttemptsEnd : Obligations.MeshAttemptsEnd := by
  unfold Obligations.MeshAttemptsEnd
  refine ⟨?ack, ?expiry, ?first, ?further, ?third⟩
  case ack =>
    intro s n bytes start t k req x hruns hmuted hfcs hkind hus hfind hdsn hdst hslot hlen hway hpending hwork hheld hrecovering
    let s1 := ((s.advance t).bump (cRfPreambles n.val)).bump (cRfFramesOk n.val)
    have k1 : (s.advance t).keepsBut [.regs] s1 := keeps_State_bump.then keeps_State_bump
    have hctx : s1.ctxAt k = s.ctxAt k := State.ctxAt_of (k1 .ctx (by decide)) k
    have hrfm : s1.rfm = s.rfm := k1 .rfm (by decide)
    have hfind' : (s1.rfm.tx.find? fun y => y.awaiting && decide
        (y.radio = n.val ∧ y.dsn = fieldAt bytes 2 1 ∧ y.dst = fieldAt bytes 7 2)) =
        some x := by
      have hx := List.find?_some hfind
      rw [Bool.and_eq_true, decide_eq_true_eq] at hx
      rw [hrfm]
      refine List.find?_stronger hfind ?_ fun y hy => ?_
      · rw [Bool.and_eq_true, decide_eq_true_eq]
        exact ⟨hx.1, hx.2, hdsn, hdst⟩
      · rw [Bool.and_eq_true, decide_eq_true_eq] at hy ⊢
        exact ⟨hy.1, hy.2.1⟩
    have hus' : s1.macForUs bytes = true := by
      unfold State.macForUs at hus ⊢
      rw [k1.item]
      exact hus
    let s2 := (s1.bump (cRfAckRx n.val)).meshDone x
    have k2 : (s1.bump (cRfAckRx n.val)).keepsBut [.rfm] s2 := keeps_State_meshDone
    have hctx2 : s2.ctxAt k = s.ctxAt k := by
      rw [State.ctxAt_of (k2 .ctx (by decide)), State.ctxAt_of (keeps_State_bump .ctx (by decide)), hctx]
    have hradio : ((s2.modRadio k fun l => { l with fails := 0 }).ctxAt k).radio = { (s2.ctxAt k).radio with fails := 0 } :=
      (State.modRadio_radio (by rw [hctx2]; exact hheld)).1
    refine ⟨s2.modRadio k fun l => { l with fails := 0 }, ?_, ?_, by rw [hradio]⟩
    · show execEnhAck n bytes start t s = _
      unfold execEnhAck
      extract_lets a m muted
      have hmuted' : muted = false := by
        unfold muted
        rw [show (a.rfm.tx.find? fun x => x.awaiting && decide (x.radio = m)) = some x from hfind]
        exact hmuted
      refine (if_neg (ne_false_of_eq_true hruns)).trans ((if_neg (ne_true_of_eq_false hmuted')).trans ?_)
      refine congrArg Host.Outcome.next ((if_neg (ne_false_of_eq_true hfcs)).trans ?_)
      exact State.enhAckArrived_ends hfind' hkind hus' hslot hlen hway hpending hwork (by rw [hctx]; exact hheld)
        (by rw [hctx]; exact hrecovering)
    · show s2.rfm.tx = _
      show (s1.bump (cRfAckRx n.val)).rfm.tx.erase x = _
      rw [keeps_State_bump .rfm (by decide), hrfm]
  case expiry =>
    intro s n t x hfind hway hattempt
    let a := s.advance t
    let r := a.rfWait x.radio a.rfMinBe
    refine ⟨(r.2.meshSet x { x with attempt := x.attempt + 1, be := a.rfMinBe, backoffs := 0, readyAt := r.1, awaiting := false }).bump
      cRfmTxRetry, ?_, ?_⟩
    · show execRfAckWaitExpiry n t s = _
      unfold execRfAckWaitExpiry
      extract_lets
      rw [show (a.rfm.tx.find? fun y => y.awaiting && decide (y.radio = n.val ∧ y.way ≠
          .slotted ∧ y.waitUntil ≤ a.now)) = some x from hfind]
      refine congrArg Host.Outcome.next ?_
      unfold State.meshAttemptFailed
      rw [hway]
      exact if_pos ⟨rfl, hattempt⟩
    · rw [keeps_State_bump .rfm (by decide)]
      rfl
  case first =>
    intro s k t req x hfind hwork hheld hgstep hmisses
    have hmissed : (s.advance t).missedFrame k.val = some x := hfind
    obtain ⟨hradio, -⟩ := State.slotMissed_radio (s := s.advance t) hwork hheld
    refine ⟨_, (exec_slotMiss hmissed).trans (congrArg Host.Outcome.next ((if_neg hgstep).trans (if_neg ?_))), ?_⟩
    · rw [show (s.radioLink k.val).misses = 0 from hmisses]
      exact nofun
    · rw [hradio]
      show { (s.ctxAt k.val).radio with misses := min 15 ((s.ctxAt k.val).radio.misses + 1) } = _
      rw [hmisses]
      rfl
  case further =>
    intro s k t req x hfind hwork hheld hgstep hmisses
    have hmissed : (s.advance t).missedFrame k.val = some x := hfind
    obtain ⟨hradio, hheld'⟩ := State.slotMissed_radio (s := s.advance t) hwork hheld
    refine ⟨_, (exec_slotMiss hmissed).trans (congrArg Host.Outcome.next ((if_neg hgstep).trans (if_pos hmisses))), ?_⟩
    have hmod := (State.modRadio_radio (f := fun r => { r with gstep := r.gstep + 1 }) hheld').1
    rw [State.ctxAt_of (keeps_State_bump .ctx (by decide)), hmod, hradio]
    exact ⟨rfl, rfl⟩
  case third =>
    intro s k t req x hfind hwork hheld hgstep
    have hmissed : (s.advance t).missedFrame k.val = some x := hfind
    obtain ⟨-, hheld'⟩ := State.slotMissed_radio (s := s.advance t) hwork hheld
    refine ⟨_, (exec_slotMiss hmissed).trans (congrArg Host.Outcome.next (if_pos hgstep)), ?_⟩
    have hmod := (State.modRadio_radio (f := fun r => { r with wake := 2, recovering := true }) hheld').1
    have k (u : State) (i : Nat) : u.keepsBut [.regs, .out, .rfm] (((u.bump cRfmLplMove).raiseInt 0x1A0004 1).toLongPreamble i) :=
      keeps_State_bump.within |>.then keeps_State_raiseInt |>.then keeps_State_toLongPreamble
    rw [State.ctxAt_of ((k _ _) .ctx (by decide)), hmod]
    exact ⟨rfl, rfl⟩

end Sys2Proof.Machine

/-! # Transactions from request to rest -/

namespace Sys2Proof.Machine

-- One theorem after the other: a thread for each would pass the memory limit of the check.
set_option Elab.async false

/-! ## What transactions keep in the contexts (R306, R311) -/

/-- From `s` to `u` the contexts differ at most in what TXN keeps of their meters. -/
def State.txnMoves (s u : State) : Prop := ∀ j, ∃ x, u.ctxAt j = { s.ctxAt j with txn := x }

theorem txnMoves_refl (s : State) : s.txnMoves s := fun _ => ⟨_, rfl⟩

theorem State.txnMoves.then {s v u : State} (h : s.txnMoves v) (g : v.txnMoves u) : s.txnMoves u := fun j => by
  obtain ⟨x, hx⟩ := h j
  obtain ⟨y, hy⟩ := g j
  rw [hy, hx]
  exact ⟨y, rfl⟩

theorem State.keepsBut.txnMoves {A : List Part} {s u : State} (h : s.keepsBut A u) (sub : Part.ctx ∉ A := by decide) : s.txnMoves u :=
  fun j => ⟨_, State.ctxAt_of (h .ctx sub) j⟩

theorem txnMoves_modCtx {s : State} {i : Nat} (f : Context → TxnState) (h : (s.ctxAt i).state ≠ .empty) :
    s.txnMoves (s.modCtx i fun c => { c with txn := f c }) := fun j => by
  by_cases hj : j = i
  · subst hj
    exact ⟨_, State.modCtx_ctxAt h⟩
  · exact ⟨_, State.setCtx_ctxAt_other hj⟩

theorem State.reqIndex_held {s : State} {r : Request} {i : Nat} (h : s.reqIndex r = some i) :
    s.heldIndex r.gmn = some i ∧ (s.ctxAt i).state ≠ .empty := by
  unfold State.reqIndex at h
  split at h
  · exact absurd h nofun
  · exact ⟨h, State.heldIndex_state h⟩

theorem txnMoves_countPending (s : State) (r : Request) (up : Bool) : s.txnMoves (s.countPending r up) := by
  unfold State.countPending
  split
  · exact txnMoves_refl s
  · rename_i i hi
    exact txnMoves_modCtx _ (State.reqIndex_held hi).2

theorem txnMoves_pullRequest (s : State) (r : Request) : s.txnMoves (s.pullRequest r) :=
  State.txnMoves.then (v := { s with txn := { s.txn with pending := s.txn.pending.erase r } }) (txnMoves_refl s)
      (txnMoves_countPending _ r false)

theorem txnMoves_pullRequests (l : List Request) (s : State) : s.txnMoves (l.foldl State.pullRequest s) := by
  induction l generalizing s with
  | nil => exact txnMoves_refl s
  | cons r l ih => exact (txnMoves_pullRequest s r).then (ih _)

theorem txnMoves_completeTxn (s : State) (t outcome : Nat) (deferred : Bool) : s.txnMoves (s.completeTxn t outcome deferred) := by
  unfold State.completeTxn
  extract_lets v
  split
  · exact txnMoves_refl s
  · rename_i r _
    extract_lets rest s1 s2 s3 s4 s5 s6
    have h1 : s.txnMoves s1 := (keeps_State_unlink.within (L := [.plc, .rfm, .txn]) |>.then keeps_State_setTag).txnMoves
    have h2 : s.txnMoves s2 := h1.then (txnMoves_pullRequests _ s1)
    have h3 : s2.txnMoves s3 := by
      unfold s3
      split
      · rename_i i hi
        exact txnMoves_modCtx _ (State.reqIndex_held hi).2
      · exact txnMoves_refl s2
    have k : s3.keepsBut [.regs, .out, .way, .host, .limits, .cch, .upd] (((s6.statusReadOver r.campaign r.gmn).reportOutcome r
        (tagName t v.gen) outcome deferred).topUpIssues) := by
      have k4 : s3.keepsBut [.regs, .out, .way, .host, .limits, .cch, .upd] s4 := keeps_State_bump.within
      have k5 := keepsBut_ite (c := outcome = 1 ∨ outcome = 2) (k4.then (keeps_State_raiseInt (a := 0x0D0008) (bit := 3))) k4
      exact k5.then keeps_State_post |>.then keeps_State_statusReadOver |>.then keeps_State_reportOutcome |>.then keeps_State_topUpIssues
    exact h2.then (h3.then k.txnMoves)

/-- The meter of a GMN has the same context where TXN's part of contexts moves (R22). -/
theorem State.txnMoves.heldIndex {s u : State} (h : s.txnMoves u) (hindex : ∀ g, u.indexFor g = s.indexFor g) (g : Gmn) :
    u.heldIndex g = s.heldIndex g := by
  have hat (j : Nat) : (u.ctxAt j).state = (s.ctxAt j).state ∧ (u.ctxAt j).gmn = (s.ctxAt j).gmn := by
    obtain ⟨x, hx⟩ := h j
    rw [hx]
    exact ⟨rfl, rfl⟩
  unfold State.heldIndex
  rw [hindex]
  simp only [fun j => (hat j).1, fun j => (hat j).2]

/-! ## Tags (R307, R314) -/

theorem State.tagAt_setTag {s : State} {t : Nat} {v : Tag} (h : v ≠ Tag.fresh) : (s.setTag t v).tagAt t = v := Table.get_set_ne h

theorem State.tagAt_of {s u : State} (h : u.txn.tags = s.txn.tags) (t : Nat) : u.tagAt t = s.tagAt t := by
  unfold State.tagAt
  rw [h]

theorem Tag.ne_fresh {v : Tag} (h : v.state ≠ .free) : v ≠ Tag.fresh := fun heq => h (congrArg Tag.state heq)

theorem State.pushRequest_txn (s : State) (r : Request) : (s.pushRequest r).txn = { s.txn with pending := s.txn.pending ++ [r] } :=
  keeps_State_countPending .txn (by decide)

theorem State.pullRequest_txn (s : State) (r : Request) : (s.pullRequest r).txn = { s.txn with pending := s.txn.pending.erase r } :=
  keeps_State_countPending .txn (by decide)

/-- An attempt that fails while retries are left waits for the next one (R313). -/
theorem State.failAttempt_retries {s : State} {t : Nat} {r : Request} (link : Bool) (hstate : (s.tagAt t).state = .issued)
    (hrequest : (s.tagAt t).request = some r) (hleft : (s.tagAt t).attempts ≤ s.item iTxnRetries) :
    ((s.failAttempt t link).tagAt t) = { s.tagAt t with state := .retryWait, deadline := none } ∧
      (s.failAttempt t link).txn.pending = s.txn.pending ++ [{ r with
        tag := some t
        released := false
        release := s.cyc.num + (if s.item iRetryBackoff = 0 then 1 else s.item iRetryBackoff) }] ∧ s.txnMoves (s.failAttempt t link) := by
  let v : Tag := { s.tagAt t with state := .retryWait, deadline := none }
  let r1 : Request := { r with
    tag := some t
    released := false
    release := s.cyc.num + (if s.item iRetryBackoff = 0 then 1 else s.item iRetryBackoff) }
  have hfail : s.failAttempt t link = ((s.unlink t).setTag t v).pushRequest r1 := by
    unfold State.failAttempt
    extract_lets w
    split
    · rename_i hnone
      exact absurd (hnone.symm.trans hrequest) nofun
    · rename_i r2 hr2
      obtain rfl : r2 = r := Option.some.inj (hr2.symm.trans hrequest)
      exact (if_neg (not_not.2 hstate)).trans (if_pos hleft)
  have htxn : (s.unlink t).txn = s.txn := keeps_State_unlink .txn (by decide)
  have hmoves : s.txnMoves ((s.unlink t).setTag t v) := (keeps_State_unlink.within (L := [.plc, .rfm, .txn]) |>.then
      keeps_State_setTag).txnMoves
  rw [hfail]
  refine ⟨?_, ?_, hmoves.then ?_⟩
  · rw [State.tagAt_of (congrArg Txn.tags (State.pushRequest_txn _ _) :)]
    exact State.tagAt_setTag (Tag.ne_fresh nofun)
  · rw [State.pushRequest_txn]
    show (s.unlink t).txn.pending ++ [r1] = _
    rw [htxn]
  · exact State.txnMoves.then (v := { (s.unlink t).setTag t v with txn := { ((s.unlink t).setTag t v).txn with
      pending := ((s.unlink t).setTag t v).txn.pending ++ [r1] } }) (txnMoves_refl _) (txnMoves_countPending _ _ true)

theorem State.failAttempt_ends {s : State} {t : Nat} {r : Request} (link : Bool) (hstate : (s.tagAt t).state = .issued)
    (hrequest : (s.tagAt t).request = some r) (hleft : s.item iTxnRetries < (s.tagAt t).attempts) :
    s.failAttempt t link = s.completeTxn t (if link = true then 2 else 1) false := by
  unfold State.failAttempt
  simp only [hrequest]
  exact (if_neg (not_not.2 hstate)).trans (if_neg (Nat.not_le.2 hleft))

/-! ## Issue (R306, R311, R312) -/

/-- What a free tag keeps of the request that it is issued for (R306). -/
def State.issuedTag (s : State) (tag : Nat) (r : Request) (m : Medium) : Tag :=
  { s.tagAt tag with
    state := .issued
    gen := nextGen tag (s.tagAt tag).gen
    request := some r
    attempts := 1
    medium := m
    flood := 0
    deadline := none
    blocksDone := 0 }

theorem State.issueNext_read {s : State} {x tag : Nat} {plain : List Byte} {r : Request} {o : BitVec 48}
    (hassigned : s.boot.headEnd = false ∨ s.hwl.assigned = true) (hnext : s.nextRequest x = some r) (hbody : r.body = .read o)
    (htag : r.tag = none) (hfree : s.freeTag = some tag) : s.issueNext x plain = s.issueOn tag r plain := by
  have hhead : ¬(s.boot.headEnd = true ∧ s.hwl.assigned = false) := by
    rintro ⟨hhead, hfalse⟩
    rcases hassigned with h | h
    · exact absurd (h.symm.trans hhead) nofun
    · exact absurd (h.symm.trans hfalse) nofun
  have hread (p : Prop) : ¬(r.body.changesState = true ∧ p) := fun h => by
    rw [hbody] at h
    exact absurd h.1 nofun
  unfold State.issueNext
  simp only [hnext, htag, hfree]
  exact (if_neg hhead).trans (if_neg (hread _))

/-- What stands when the request of a tag goes to its medium: the tag is issued, the request has left the queue, and the meter's
    transaction is
active under the next TX_IC. -/
structure State.issues (s : State) (tag i : Nat) (r : Request) (m : Medium) (v : State) : Prop where
  keep : s.keepsBut [.txn, .ctx, .regs] v
  pending : v.txn.pending = s.txn.pending.erase r
  tagAt : v.tagAt tag = s.issuedTag tag r m
  txIc : (v.ctxAt i).txIc = (s.ctxAt i).txIc + 1
  active : (v.ctxAt i).txn.active = tagName tag (nextGen tag (s.tagAt tag).gen)
  radio : (v.ctxAt i).radio = (s.ctxAt i).radio
  plc : (v.ctxAt i).plc = (s.ctxAt i).plc

theorem State.issueOn_sends {s : State} {tag i : Nat} {plain ek ak : List Byte} {r : Request} {o : BitVec 48} {m : Medium}
    (hbody : r.body = .read o) (htag : r.tag = none) (hmedium : (s.nextMedium r 0).1 = m) (hrelay : m ≠ .relay)
    (hindex : s.reqIndex r = some i) (hforward : (s.ctxAt i).state ≠ .forward) (hgroup : s.groupByte (s.ctxAt i).group 1 ≠ 2)
    (hkeys : s.contextKeys (s.ctxAt i) = some (ek, ak)) :
    ∃ v, s.issueOn tag r plain = v.sendTo tag i m (protectedRequest ek ak plain (s.ctxAt i).txIc) ∧ s.issues tag i r m v := by
  cases r with | mk gmn body priority release released heardLimit schedule job medium old campaign
  subst hbody htag hmedium
  let r : Request := ⟨gmn, .read o, priority, release, released, heardLimit, schedule, job, medium, none, campaign⟩
  let m := (s.nextMedium r 0).1
  let s1 := (s.pullRequest r).setTag tag (s.issuedTag tag r m)
  let s2 := s1.bump cTxnStarted
  let s3 := if (s.nextMedium r 0).2 = true then s2.bump cTxnMediumSwitch else s2
  let s4 := s3.modCtx i fun c => { c with txn := { c.txn with active := tagName tag (nextGen tag (s.tagAt tag).gen) } }
  let s5 := s4.modCtx i fun c => { c with txIc := c.txIc + 1 }
  have k2 : s1.keepsBut [.regs] s2 := keeps_State_bump
  have k3 : s1.keepsBut [.regs] s3 := keepsBut_ite (k2.then keeps_State_bump) k2
  have k1 : s.keepsBut [.txn, .ctx] s1 := keeps_State_pullRequest.then keeps_State_setTag
  have keep3 : s.keepsBut [.txn, .ctx, .regs] s3 := k1.within.then k3
  have keep4 : s.keepsBut [.txn, .ctx, .regs] s4 := keep3.then keeps_State_modCtx
  have hm3 : s.txnMoves s3 :=
    (txnMoves_pullRequest s r).then ((keeps_State_setTag (s := s.pullRequest r) (t := tag)).txnMoves.then k3.txnMoves)
  have hheld : s.heldIndex r.gmn = some i := (State.reqIndex_held hindex).1
  have hstate : (s.ctxAt i).state ≠ .empty := (State.reqIndex_held hindex).2
  have hheld3 : s3.heldIndex r.gmn = some i := (hm3.heldIndex (State.indexFor_of (keep3 .boot (by decide)) (congrArg Hwl.assigned
      (keep3 .hwl (by decide))) (congrArg Hwl.nodeId (keep3 .hwl (by decide))) keep3.item) _).trans hheld
  obtain ⟨x3, hx3⟩ := hm3 i
  have hstate3 : (s3.ctxAt i).state ≠ .empty := by rw [hx3]; exact hstate
  have hindex3 : s3.reqIndex r = some i := by
    exact hheld3
  have hctx4 : s4.ctxAt i = { s.ctxAt i with txn := { x3 with active := tagName tag (nextGen tag (s.tagAt tag).gen) } } := by
    rw [State.modCtx_ctxAt hstate3, hx3]
  have hstate4 : (s4.ctxAt i).state ≠ .empty := by rw [hctx4]; exact hstate
  have hctx5 : s5.ctxAt i = { s.ctxAt i with
      txIc := (s.ctxAt i).txIc + 1
      txn := { x3 with active := tagName tag (nextGen tag (s.tagAt tag).gen) } } := by
    rw [State.modCtx_ctxAt hstate4, hctx4]
  have hindex4 : s4.reqIndex r = some i := by
    have hm4 : s3.txnMoves s4 := txnMoves_modCtx _ hstate3
    exact (hm4.heldIndex (fun _ => rfl) _).trans hheld3
  have hapdu : s4.requestApdu i plain = some (s5, protectedRequest ek ak plain (s.ctxAt i).txIc) := by
    have hkeys4 : s4.contextKeys (s4.ctxAt i) = some (ek, ak) := by
      rw [keep4.contextKeys, hctx4]
      exact hkeys
    have hgroup4 : s4.groupByte (s4.ctxAt i).group 1 ≠ 2 := by
      rw [hctx4]
      exact fun h => hgroup ((State.itemField_of keep4.itemBytes ..).symm.trans h)
    unfold State.requestApdu
    simp only [hkeys4]
    rw [if_neg (by rw [hctx4]; exact hforward), if_neg hgroup4, hctx4]
  have htags3 : s3.txn = s1.txn := k3 .txn (by decide)
  refine ⟨s5, ?_, ⟨keep4.then keeps_State_modCtx, ?_, ?_, by rw [hctx5], by rw [hctx5], by rw [hctx5], by rw [hctx5]⟩⟩
  · have hissue : s.issueOn tag r plain = s4.sendRequest tag r m plain := by
      show (match s3.reqIndex r with
        | some i => s3.modCtx i fun c => { c with txn := { c.txn with active := tagName tag (nextGen tag (s.tagAt tag).gen) } }
        | none => s3).sendRequest tag r m plain = _
      rw [hindex3]
    refine hissue.trans ?_
    unfold State.sendRequest
    simp only [hindex4, hapdu]
    exact if_neg hrelay
  · show s3.txn.pending = _
    rw [htags3]
    exact congrArg Txn.pending (State.pullRequest_txn s r)
  · show s3.tagAt tag = _
    rw [State.tagAt_of (congrArg Txn.tags htags3)]
    exact State.tagAt_setTag (Tag.ne_fresh nofun)

theorem State.completeTxn_tagAt {s : State} {t : Nat} {r : Request} (outcome : Nat) (deferred : Bool) (h : (s.tagAt t).request = some r) :
    (s.completeTxn t outcome deferred).tagAt t = { s.tagAt t with
      state := .quarantine
      request := none
      deadline := none
      restUntil := s.ms + s.quarantineMs (s.tagAt t).medium r.body.kind } := by
  unfold State.tagAt at *
  rw [State.completeTxn_tags outcome deferred h]
  exact Table.get_set_ne fun heq => absurd (congrArg Tag.state heq) nofun

/-- An attempt that fails keeps the tag's generation, whether it is tried again or ends. -/
theorem State.failAttempt_gen {s : State} {t : Nat} {r : Request} (link : Bool) (hstate : (s.tagAt t).state = .issued)
    (hrequest : (s.tagAt t).request = some r) :
    ((s.failAttempt t link).tagAt t).gen = (s.tagAt t).gen ∧ s.txnMoves (s.failAttempt t link) := by
  rcases Nat.lt_or_ge (s.item iTxnRetries) (s.tagAt t).attempts with hleft | hleft
  · rw [State.failAttempt_ends link hstate hrequest hleft]
    exact ⟨(congrArg Tag.gen (State.completeTxn_tagAt _ _ hrequest) :), txnMoves_completeTxn _ _ _ _⟩
  · obtain ⟨htag, -, hmoves⟩ := State.failAttempt_retries link hstate hrequest hleft
    exact ⟨(congrArg Tag.gen htag :), hmoves⟩

theorem State.plcTooLong_of {s v : State} {i : Nat} (hplc : (v.ctxAt i).plc = (s.ctxAt i).plc) (hpart : v.plc = s.plc)
    (hitem : ∀ k, v.itemBytes k = s.itemBytes k) (a : List Byte) :
    v.plcTooLong (v.longestPath i) a = s.plcTooLong (s.longestPath i) a := by
  have hlq (n : Nat) : v.lqOf n = s.lqOf n := by
    unfold State.lqOf State.lqThreshold
    simp only [State.itemField_of hitem]
  unfold State.plcTooLong State.longestPath State.candidates State.routesOf State.item
  simp only [hplc, hpart, hitem, hlq]

theorem State.wayTo_of {s v : State} {i : Nat} (hradio : (v.ctxAt i).radio = (s.ctxAt i).radio) (hrfm : v.rfm = s.rfm)
    (hnow : v.now = s.now)
    (hitem : ∀ k, v.item k = s.item k) : v.wayTo i = s.wayTo i := by
  unfold State.wayTo State.wayAwake State.windowOpen State.radioLink State.floodTtl
  simp only [hradio, hrfm, hnow, hitem]

theorem State.plcQueue_tx (s : State) (w : LinkWork) (a : List Byte) (slot : Option Nat) (dst : Nat) :
    (s.plcQueue w a slot dst none).plc.tx.map (fun y => (y.work, y.slot, y.apdu)) =
      s.plc.tx.map (fun y => (y.work, y.slot, y.apdu)) ++ [(w, slot, a)] := by
  show (s.plc.tx ++ [_]).map _ = _
  rw [List.map_append]
  rfl

/-- The request goes to the power line, or fails there as too long (R258, R306). -/
theorem State.issues.plc_sends {s v : State} {tag i : Nat} {r : Request} {a : List Byte} (h : s.issues tag i r .plc v) :
    ((v.sendTo tag i .plc a).tagAt tag).gen = nextGen tag (s.tagAt tag).gen ∧ ((v.sendTo tag i .plc a).ctxAt i).txIc =
        (s.ctxAt i).txIc + 1 ∧
      (s.plcTooLong (s.longestPath i) a = false → v.sendTo tag i .plc a = v.plcQueue (.request tag) a (some i) (i % 16384) none) := by
  have htag := h.tagAt
  rw [← State.plcTooLong_of h.plc (h.keep .plc (by decide)) h.keep.itemBytes]
  by_cases hlong : v.plcTooLong (v.longestPath i) a = true
  · have hsend : v.sendTo tag i .plc a = v.tooLong tag .plc := if_pos hlong
    have hstate : ((v.bump cPlcTxTooLong).tagAt tag).state = .issued := congrArg Tag.state htag
    have hrequest : ((v.bump cPlcTxTooLong).tagAt tag).request = some r := congrArg Tag.request htag
    obtain ⟨hgen, hmoves⟩ := State.failAttempt_gen true hstate hrequest
    rw [hsend]
    refine ⟨hgen.trans (congrArg Tag.gen htag), ?_, fun hfalse => absurd (hlong.symm.trans hfalse) nofun⟩
    obtain ⟨x, hx⟩ := hmoves i
    exact (congrArg Context.txIc hx).trans h.txIc
  · have hsend : v.sendTo tag i .plc a = v.plcQueue (.request tag) a (some i) (i % 16384) none := if_neg hlong
    rw [hsend]
    exact ⟨congrArg Tag.gen htag, h.txIc, fun _ => rfl⟩

theorem State.meshTo_tx (s : State) (i : Nat) (w : LinkWork) (a : List Byte) :
    (s.meshTo i w a).rfm.tx.map (fun y => (y.work, y.slot, y.apdu, y.way)) =
      s.rfm.tx.map (fun y => (y.work, y.slot, y.apdu, y.way)) ++ [(w, some i, a, s.wayTo i)] := by
  show (s.rfm.tx ++ [_]).map _ = _
  rw [List.map_append]
  rfl

/-- A request that fits goes to the mesh, where a flood leaves its TTL with the tag (R278). -/
theorem State.sendTo_radio {s : State} {tag i : Nat} {a : List Byte} (htag : (s.tagAt tag).state ≠ .free) (hshort : meshTooLong a = false) :
    ∃ w, s.sendTo tag i .radio a = w.meshTo i (.request tag) a ∧ s.keepsBut [.txn] w ∧ w.txn.pending = s.txn.pending ∧
      ∃ k, w.tagAt tag = { s.tagAt tag with flood := k } := by
  have hsend : s.sendTo tag i .radio a = State.meshTo (match s.wayTo i with
      | .flood k => s.markFlood (.request tag) k
      | _ => s) i (.request tag) a := (if_pos rfl).trans (if_neg (ne_true_of_eq_false hshort))
  rw [hsend]
  split
  · rename_i k _
    exact ⟨_, rfl, keeps_State_setTag, rfl, k, State.tagAt_setTag (Tag.ne_fresh htag)⟩
  · exact ⟨s, rfl, keepsBut_refl _ _, rfl, _, rfl⟩

/-- The deadline of an issued tag that has passed fails its attempt (R313). -/
theorem State.exec_txnDeadline {s : State} {tag : Fin 1024} {t d : Nat} (hstate : (s.tagAt tag.val).state = .issued)
    (hdeadline : (s.tagAt tag.val).deadline = some d) (hd : d ≤ (s.advance t).ms) :
    exec (.txnDeadline tag t) s = .next ((s.advance t).failAttempt tag.val false).topUpIssues := by
  refine next_of_eq ?_
  show (match (s.tagAt tag.val).deadline with
    | some d => if (s.tagAt tag.val).state = TagState.issued ∧ d ≤ (s.advance t).ms then _ else s.advance t
    | none => s.advance t) = _
  rw [hdeadline]
  exact if_pos ⟨hstate, hd⟩

theorem exec_issue_plc {s : State} {plain ek ak : List Byte} {t i tag : Nat} {r : Request} {o : BitVec 48}
    (hkind : s.runningKind 12 = some 18) (hassigned : s.boot.headEnd = false ∨ s.hwl.assigned = true) (hnext : s.nextRequest 12 = some r)
    (hbody : r.body = .read o) (hold : r.tag = none) (hfree : s.freeTag = some tag) (hmedium : (s.nextMedium r 0).1 = .plc)
    (hindex : s.reqIndex r = some i) (hforward : (s.ctxAt i).state ≠ .forward) (hgroup : s.groupByte (s.ctxAt i).group 1 ≠ 2)
    (hkeys : s.contextKeys (s.ctxAt i) = some (ek, ak)) :
    ∃ u, exec (.issue 0 plain t) s = .next u ∧ (u.tagAt tag).gen = nextGen tag (s.tagAt tag).gen ∧ (u.ctxAt i).txIc = (s.ctxAt i).txIc + 1 ∧
      (s.plcTooLong (s.longestPath i) (protectedRequest ek ak plain (s.ctxAt i).txIc) = false →
        u.txn.pending = s.txn.pending.erase r ∧ (u.tagAt tag).state = .issued ∧ (u.tagAt tag).request = some r ∧
            (u.tagAt tag).attempts = 1 ∧
        (u.ctxAt i).txn.active = tagName tag (nextGen tag (s.tagAt tag).gen) ∧
        u.plc.tx.map (fun y => (y.work, y.slot, y.apdu)) = s.plc.tx.map (fun y => (y.work, y.slot, y.apdu)) ++
          [(.request tag, some i, protectedRequest ek ak plain (s.ctxAt i).txIc)]) := by
  let w := (s.advance t).actedOn 12
  have hkeep0 : s.keepsBut [.now, .way, .host, .limits, .cch] w := keeps_State_advance.within |>.then keeps_State_actedOn
  have hkeys0 : w.contextKeys (w.ctxAt i) = some (ek, ak) := (hkeep0.contextKeys _).trans hkeys
  obtain ⟨v, hsent, hv⟩ := State.issueOn_sends (s := w) (plain := plain) hbody hold hmedium nofun hindex hforward hgroup hkeys0
  obtain ⟨hgen, htxIc, hfits⟩ := hv.plc_sends (a := protectedRequest ek ak plain (s.ctxAt i).txIc)
  have hread : w.issueNext 12 plain = w.issueOn tag r plain := State.issueNext_read hassigned hnext hbody hold hfree
  have hexec : exec (.issue 0 plain t) s = .next (v.sendTo tag i .plc (protectedRequest ek ak plain (s.ctxAt i).txIc)) :=
    next_of_eq ((if_pos hkind).trans (hread.trans hsent))
  refine ⟨_, hexec, hgen, htxIc, fun hshort => ?_⟩
  rw [hfits hshort]
  refine ⟨hv.pending, congrArg Tag.state hv.tagAt, congrArg Tag.request hv.tagAt, congrArg Tag.attempts hv.tagAt, hv.active, ?_⟩
  rw [State.plcQueue_tx, show v.plc = s.plc from hv.keep .plc (by decide)]

theorem exec_issue_radio {s : State} {plain ek ak : List Byte} {t i tag : Nat} {r : Request} {o : BitVec 48}
    (hkind : s.runningKind 13 = some (issueKind 13)) (hassigned : s.boot.headEnd = false ∨ s.hwl.assigned = true)
        (hnext : s.nextRequest 13 = some r)
    (hbody : r.body = .read o) (hold : r.tag = none) (hfree : s.freeTag = some tag) (hmedium : (s.nextMedium r 0).1 = .radio)
    (hindex : s.reqIndex r = some i) (hforward : (s.ctxAt i).state ≠ .forward) (hgroup : s.groupByte (s.ctxAt i).group 1 ≠ 2)
    (hkeys : s.contextKeys (s.ctxAt i) = some (ek, ak))
    (hshort : meshTooLong (protectedRequest ek ak plain (s.ctxAt i).txIc) = false) :
    ∃ u, exec (.issue 1 plain t) s = .next u ∧ u.txn.pending = s.txn.pending.erase r ∧ (u.tagAt tag).state = .issued ∧
      (u.tagAt tag).gen = nextGen tag (s.tagAt tag).gen ∧ (u.tagAt tag).request = some r ∧ (u.tagAt tag).attempts = 1 ∧
      (u.ctxAt i).txn.active = tagName tag (nextGen tag (s.tagAt tag).gen) ∧ (u.ctxAt i).txIc = (s.ctxAt i).txIc + 1 ∧
      u.rfm.tx.map (fun y => (y.work, y.slot, y.apdu, y.way)) = s.rfm.tx.map (fun y => (y.work, y.slot, y.apdu, y.way)) ++
        [(.request tag, some i, protectedRequest ek ak plain (s.ctxAt i).txIc, (s.advance t).wayTo i)] := by
  let w := (s.advance t).actedOn 13
  have hkeep0 : s.keepsBut [.now, .way, .host, .limits, .cch] w := keeps_State_advance.within |>.then keeps_State_actedOn
  have hkeys0 : w.contextKeys (w.ctxAt i) = some (ek, ak) := (hkeep0.contextKeys _).trans hkeys
  obtain ⟨v, hsent, hv⟩ := State.issueOn_sends (s := w) (plain := plain) hbody hold hmedium nofun hindex hforward hgroup hkeys0
  have hstate : (v.tagAt tag).state ≠ .free := by rw [hv.tagAt]; nofun
  obtain ⟨z, hz, hkeep, hpending, k, htag⟩ := State.sendTo_radio (i := i) hstate hshort
  have hread : w.issueNext 13 plain = w.issueOn tag r plain := State.issueNext_read hassigned hnext hbody hold hfree
  have hexec : exec (.issue 1 plain t) s = .next (z.meshTo i (.request tag) (protectedRequest ek ak plain (s.ctxAt i).txIc)) :=
    next_of_eq ((if_pos hkind).trans (hread.trans (hsent.trans hz)))
  have hctx : z.ctxAt i = v.ctxAt i := State.ctxAt_of (hkeep .ctx (by decide)) i
  have hrfm : z.rfm = s.rfm := (hkeep .rfm (by decide)).trans (hv.keep .rfm (by decide))
  have hnow : z.now = w.now := (hkeep .now (by decide)).trans (hv.keep .now (by decide))
  have hway : z.wayTo i = (s.advance t).wayTo i :=
    State.wayTo_of ((congrArg Context.radio hctx).trans hv.radio) hrfm hnow fun n => (hkeep.item n).trans (hv.keep.item n)
  have htag' : z.tagAt tag = { State.issuedTag s tag r .radio with flood := k } := by
    rw [htag, hv.tagAt]
    rfl
  refine ⟨_, hexec, hpending.trans hv.pending, congrArg Tag.state htag', congrArg Tag.gen htag', congrArg Tag.request htag',
    congrArg Tag.attempts htag', (congrArg (fun c => c.txn.active) hctx).trans hv.active, (congrArg Context.txIc hctx).trans hv.txIc, ?_⟩
  rw [State.meshTo_tx, hrfm, hway]

/-- Settles O32: the front request is issued under the free tag; an attempt that fails waits or ends, and a tag that has rested is free. -/
theorem transactionsBeginAndEnd : Obligations.TransactionsBeginAndEnd := by
  unfold Obligations.TransactionsBeginAndEnd
  refine ⟨?_, ?_, ?_, ?_, ?_, ?_⟩
  · intro s plain ek ak t i tag r o hkind hassigned hnext hbody hold hfree hmedium hindex hforward hgroup hkeys
    exact exec_issue_plc hkind hassigned hnext hbody hold hfree hmedium hindex hforward hgroup hkeys
  · intro s plain ek ak t i tag r o hkind hassigned hnext hbody hold hfree hmedium hindex hforward hgroup hkeys hshort
    exact exec_issue_radio hkind hassigned hnext hbody hold hfree hmedium hindex hforward hgroup hkeys hshort
  · intro s tag t d r hstate hdeadline hd hrequest hleft
    obtain ⟨htag, hpending, -⟩ := State.failAttempt_retries (s := s.advance t) false hstate hrequest hleft
    have htxn : ((s.advance t).failAttempt tag.val false).topUpIssues.txn = _ := keeps_State_topUpIssues .txn (by decide)
    have hat := (State.tagAt_of (congrArg Txn.tags htxn) tag.val).trans htag
    exact ⟨_, State.exec_txnDeadline hstate hdeadline hd, congrArg Tag.state hat, congrArg Tag.deadline hat,
      (congrArg Txn.pending htxn).trans hpending⟩
  · intro s tag t d r hstate hdeadline hd hrequest hleft
    have hends := State.failAttempt_ends (s := s.advance t) false hstate hrequest hleft
    have htag := State.completeTxn_tagAt (s := s.advance t) 1 false hrequest
    have htxn : ((s.advance t).failAttempt tag.val false).topUpIssues.txn = _ := keeps_State_topUpIssues .txn (by decide)
    have hat := (State.tagAt_of (congrArg Txn.tags htxn) tag.val).trans (hends ▸ htag)
    exact ⟨_, State.exec_txnDeadline hstate hdeadline hd, congrArg Tag.state hat, congrArg Tag.request hat, congrArg Tag.restUntil hat⟩
  · intro s t
    exact ⟨_, rfl, congrArg Txn.pending (keeps_State_topUpIssues .txn (by decide) :)⟩
  · intro s tag t hstate hrest
    let v : State := (s.advance t).setTag tag.val { Tag.fresh with gen := (s.tagAt tag.val).gen, freed := s.txn.freeCount + 1 }
    let w : State := { v with txn := { v.txn with freeCount := s.txn.freeCount + 1, tagWait := false } }
    have htxn : w.topUpIssues.txn = w.txn := keeps_State_topUpIssues .txn (by decide)
    have htag : w.tagAt tag.val = { Tag.fresh with gen := (s.tagAt tag.val).gen, freed := s.txn.freeCount + 1 } :=
      Table.get_set_ne fun h => absurd (congrArg Tag.freed h) (Nat.succ_ne_zero _)
    exact ⟨w.topUpIssues, if_pos ⟨hstate, hrest⟩, congrArg Txn.tagWait htxn, (State.tagAt_of (congrArg Txn.tags htxn) _).trans htag⟩

end Sys2Proof.Machine

/-! # Frames whose tag verifies -/

namespace Sys2Proof.Machine

-- One theorem after the other: a thread for each would pass the memory limit of the check.
set_option Elab.async false

/-! ## A frame past its context stage (R108, R120) -/

theorem keeps_State_fullPath_refused {s : State} {v : Arrival} {a : List Byte} (hlayer : outerOk (s.groupByte (s.ctxAt v.index).group 1)
    (outerOf
    a).layer = true) (hform : (outerOf a).malformed = false) (hsc : (outerOf a).sc = 0x30#8)
    (hallow : (BitVec.ofNat 8 (s.groupByte (s.ctxAt v.index).group 2)).getLsbD 0 = true)
    (hrefused : judgeIc (s.ctxAt v.index).rxIc (s.ctxAt v.index).window (s.groupByte (s.ctxAt v.index).group 3) (outerOf a).ic = .replayed ∨
      judgeIc (s.ctxAt v.index).rxIc (s.ctxAt v.index).window (s.groupByte (s.ctxAt v.index).group 3) (outerOf a).ic = .repeated ∨
      ((outerOf a).layer = .generalGlo ∧ (outerOf a).title ≠ titleBytes (s.ctxAt v.index).title) ∨
      s.openApdu (s.ctxAt v.index) (outerOf a) = none) :
    s.keepsBut [.way, .host, .limits, .regs, .out] (s.fullPath v a) := by
  have hgood : ¬(outerOk (s.groupByte (s.ctxAt v.index).group 1) (outerOf a).layer = false ∨ (outerOf a).malformed = true) :=
    not_or.2 ⟨ne_false_of_eq_true hlayer, ne_true_of_eq_false hform⟩
  have hsc0 : ¬(outerOf a).sc = 0#8 := by rw [hsc]; decide
  unfold State.fullPath
  extract_lets c o g allow gmn
  rw [if_neg hgood, if_neg hsc0, if_pos (Or.inl ⟨hsc, hallow⟩)]
  split
  · exact keeps_State_note
  · rename_i htitle
    have hsome : judgeIc c.rxIc c.window (s.groupByte g 3) o.ic ≠ .repeated → judgeIc c.rxIc c.window (s.groupByte g 3) o.ic ≠ .replayed →
        s.openApdu c o = none := fun hrepeat hreplay => by
      rcases hrefused with h | h | h | h
      · exact absurd h hreplay
      · exact absurd h hrepeat
      · exact absurd h htitle
      · exact h
    split
    · exact keeps_State_note
    · exact keeps_State_noteMeter
    · rename_i hrepeat hreplay
      unfold State.decryptFrame
      simp only [show s.openApdu (s.ctxAt v.index) o = none from hsome (fun h => hrepeat h) (fun h => hreplay h)]
      exact keeps_State_tagFails

/-- A frame whose counter advances and whose tag verifies is decrypted (R120, R121). -/
theorem State.fullPath_advances {s : State} {v : Arrival} {a plain : List Byte} (hlayer : outerOk (s.groupByte (s.ctxAt v.index).group 1)
    (outerOf
    a).layer = true) (hform : (outerOf a).malformed = false) (hsc : (outerOf a).sc = 0x30#8)
    (hallow : (BitVec.ofNat 8 (s.groupByte (s.ctxAt v.index).group 2)).getLsbD 0 = true)
    (htitle : (outerOf a).layer = .generalGlo → (outerOf a).title = titleBytes (s.ctxAt v.index).title)
    (hic : (s.ctxAt v.index).rxIc.toNat < (outerOf a).ic.toNat) (hopen : s.openApdu (s.ctxAt v.index) (outerOf a) = some plain)
    (hdirect : v.relayed = false) (htxn : v.frame.txnTag = 0xFFFF#16) :
    s.fullPath v a = (s.modCtx v.index fun x => { x with
        rxIc := (outerOf a).ic
        window := (acceptIc (s.ctxAt v.index).rxIc (s.ctxAt v.index).window (outerOf a).ic .advance).2 }).deliverParsed v (outerOf a) plain
      false none := by
  have hgood : ¬(outerOk (s.groupByte (s.ctxAt v.index).group 1) (outerOf a).layer = false ∨ (outerOf a).malformed = true) :=
    not_or.2 ⟨ne_false_of_eq_true hlayer, ne_true_of_eq_false hform⟩
  have hsc0 : ¬(outerOf a).sc = 0#8 := by rw [hsc]; decide
  have hjudge : judgeIc (s.ctxAt v.index).rxIc (s.ctxAt v.index).window (s.groupByte (s.ctxAt v.index).group 3) (outerOf a).ic = .advance :=
    if_pos hic
  have hanswered (w : State) (g : Gmn) (radio : Bool) : w.answered v.frame.txnTag.toNat g radio 0 = (w, none) := by
    rw [htxn]
    have hnone : w.answers (0xFFFF#16).toNat g = none := by
      unfold State.answers
      exact if_neg fun h => h.1 rfl
    unfold State.answered
    rw [hnone]
    rfl
  unfold State.fullPath
  extract_lets c o g allow gmn
  rw [if_neg hgood, if_neg hsc0, if_pos (Or.inl ⟨hsc, hallow⟩), if_neg fun h => h.2 (htitle h.1)]
  simp only [show judgeIc c.rxIc c.window (s.groupByte g 3) o.ic = .advance from hjudge]
  unfold State.decryptFrame
  simp only [show s.openApdu (s.ctxAt v.index) o = some plain from hopen, hdirect, hanswered]
  rfl

/-! ## What a parse reads (R123, R124) -/

section
variable {s u : State} (hitem : ∀ k, u.itemBytes k = s.itemBytes k) (htim : u.tim = s.tim)
include hitem

theorem State.groupByte_of (g o : Nat) : u.groupByte g o = s.groupByte g o := State.itemField_of hitem _ _ _

theorem State.templateByte_of (t o : Nat) : u.templateByte t o = s.templateByte t o := State.itemField_of hitem _ _ _

theorem State.elementsMatch_of (t e : Nat) (els : List Element) : u.elementsMatch t e els = s.elementsMatch t e els := by
  induction els generalizing e with
  | nil => rfl
  | cons x xs ih =>
    unfold State.elementsMatch State.elementMatches
    rw [ih, State.templateByte_of hitem, State.templateByte_of hitem]

theorem State.findTemplate_of (group kind : Nat) (els : List Element) : u.findTemplate group kind els = s.findTemplate group kind els := by
  unfold State.findTemplate
  simp only [State.itemField_of hitem, State.templateByte_of hitem, State.elementsMatch_of hitem]

include htim

theorem State.putElements_of (group t e : Nat) (els : List Element) (p : Parsed) :
    u.putElements group t e els p = s.putElements group t e els p := by
  have hput (target : Nat) (x : Element) (q : Parsed) : u.putElement group target x q = s.putElement group target x q := by
    unfold State.putElement State.groupSigned
    rw [htim, State.groupByte_of hitem, State.groupByte_of hitem, State.groupByte_of hitem]
  induction els generalizing e p with
  | nil => rfl
  | cons x xs ih =>
    unfold State.putElements
    rw [hput, State.templateByte_of hitem]
    simp only [ih]

/-- A parse reads the configuration and the UTC offset alone. -/
theorem State.parseInner_of (group : Nat) (a : InnerApdu) : u.parseInner group a = s.parseInner group a := by
  have helements (kind : Nat) (time : Option CosemTime) (ok trailing : Bool) (els : List Element) :
      u.parseElements group kind time ok trailing els = s.parseElements group kind time ok trailing els := by
    unfold State.parseElements State.templateTimed
    simp only [State.findTemplate_of hitem, State.putElements_of hitem htim, State.templateByte_of hitem, htim]
  unfold State.parseInner
  simp only [State.groupByte_of hitem, helements]

end

/-! ## The context stage of a frame (R108, R112) -/

/-- A frame that meets its context, or is dropped by the checks before it. -/
theorem exec_laneProcessing {s : State} {lane : Fin 4} {badRead : Bool} {t i : Nat} {x : LaneItem} {f : Frame} {h a c : List Byte}
    (hon : s.pipeOff = false) (hroom : s.valRoom lane.val = true) (hready : s.readyIn LaneBody.isFrame (s.lane lane.val) [] = some x)
    (hitem : x.item.body = .frame f) (hbody : f.body = .apdu h a c) (hindex : x.index = some i)
    (hpast : x.waiting = true ∨ (s.cached i = true ∧ badRead = false)) :
    ∃ w, s.keepsBut [.now, .ing, .way, .host, .limits, .regs, .out] w ∧
      (exec (.laneProcessing lane badRead t) s = .next w ∨
        ∃ n, exec (.laneProcessing lane badRead t) s = .next (w.byState ⟨lane.val, i, n, f, frameLink f, false⟩ a)) ∧
      ((x.waiting = true ∨ (f.faults.any parityLost = false ∧ fcsHolds f = true)) →
        ∃ n, exec (.laneProcessing lane badRead t) s = .next (w.byState ⟨lane.val, i, n, f, frameLink f, false⟩ a)) := by
  have hready' : (s.advance t).readyIn LaneBody.isFrame ((s.advance t).lane lane.val) [] = some x := by
    rw [← hready]
    exact State.readyIn_of (s := s) (u := s.advance t) rfl _ _ _
  have hexec : exec (.laneProcessing lane badRead t) s = .next (if x.waiting = true then (s.advance t).pastContext lane.val x
      else (s.advance t).contextStage lane.val x badRead) := by
    show execLaneProcessing lane badRead t s = _
    unfold execLaneProcessing
    simp only [hready']
    exact if_neg (not_or.2 ⟨ne_true_of_eq_false hon, ne_false_of_eq_true hroom⟩)
  have hcontext (w : State) : w.pastContext lane.val x =
      (w.leaveLane lane.val x).byState ⟨lane.val, i, (w.leaveLane lane.val x).slotGmn i, f, frameLink f, false⟩ a := by
    unfold State.pastContext
    simp only [hitem, hbody, hindex]
  by_cases hwait : x.waiting = true
  · have hstep := hexec.trans (next_of_eq ((if_pos hwait).trans (hcontext _)))
    exact ⟨_, keeps_State_advance.within |>.then keeps_State_leaveLane, Or.inr ⟨_, hstep⟩, fun _ => ⟨_, hstep⟩⟩
  · obtain ⟨hcached, hread⟩ := hpast.resolve_left hwait
    let b := (s.advance t).bump (cLaneFramesIn lane.val)
    let w := ((b.frameCheck lane.val x).1.bump (cLaneCtxHit lane.val)).touchCache i
    have hkeepb : s.keepsBut [.now, .ing, .way, .host, .limits, .regs, .out] (b.frameCheck lane.val x).1 :=
      keeps_State_advance.within |>.then keeps_State_bump |>.then keeps_State_frameCheck
    have hstage : (s.advance t).contextStage lane.val x badRead =
        if (b.frameCheck lane.val x).2 = false then (b.frameCheck lane.val x).1 else w.pastContext lane.val x := by
      unfold State.contextStage
      extract_lets z s1
      simp only [hindex]
      rw [if_pos (show (s.advance t).cached i = true ∧ badRead = false from ⟨hcached, hread⟩)]
    have hstep := hexec.trans (next_of_eq ((if_neg hwait).trans hstage))
    by_cases hdrop : (b.frameCheck lane.val x).2 = false
    · refine ⟨_, hkeepb, Or.inl (hstep.trans (next_of_eq (if_pos hdrop))), fun hgood => ?_⟩
      obtain ⟨hparity, hfcs⟩ := hgood.resolve_left hwait
      refine absurd hdrop (ne_false_of_eq_true ?_)
      have hstay : (b.parityStage lane.val f.faults).2 = true := congrArg Prod.snd (State.parityStage_kept hparity)
      unfold State.frameCheck
      simp only [hitem]
      rw [if_neg (by rw [hstay]; decide), if_neg (by rw [hfcs]; decide)]
      exact hstay
    · have hgo := hstep.trans (next_of_eq ((if_neg hdrop).trans (hcontext w)))
      exact ⟨_, hkeepb |>.then keeps_State_bump |>.then keeps_State_touchCache |>.then
          keeps_State_leaveLane, Or.inr ⟨_, hgo⟩, fun _ => ⟨_, hgo⟩⟩

theorem State.keepsBut.openApdu {A : List Part} {s u : State} (h : s.keepsBut A u) (c : Context) (o : Outer)
    (sub : Part.sec ∉ A := by decide) : u.openApdu c o = s.openApdu c o := by
  unfold State.openApdu
  rw [h.contextKeys c sub]

theorem State.byState_active {s : State} {v : Arrival} (h : (s.ctxAt v.index).state = .active)
    (a : List Byte) : s.byState v a = s.fullPath v a := by
  unfold State.byState
  simp only [h]

/-- The record of a frame that parses goes to VAL; the last counter exhausts an active context (R121). -/
theorem State.deliverParsed_record {s : State} {v : Arrival} {o : Outer} {plain : List Byte} {p : Parsed} (hdirect : v.relayed = false)
    (hfck : v.frame.fckOk = true) (hsc : o.sc = 0x30#8) (hparse : s.parseInner (s.ctxAt v.index).group (o.inner plain) = .record p)
    (hstate : (s.ctxAt v.index).state ≠ .empty) :
    ∃ b, (s.deliverParsed v o plain false none).val = (s.toVal v.lane ⟨v.index, v.link.rxCycle, v.link.synth,
        buildRecord (s.ctxAt v.index).gmn p v.link false false false false, false, none, none⟩).val ∧
      (s.deliverParsed v o plain false none).ctxAt v.index = { s.ctxAt v.index with
        state := b
        plc := { (s.ctxAt v.index).plc with lastHeard := v.link.rxTime.toNat } } := by
  let r := buildRecord (s.ctxAt v.index).gmn p v.link false false false false
  let y := (s.heardMeter v.index v.link.rxTime.toNat).toVal v.lane ⟨v.index, v.link.rxCycle, v.link.synth, r, false, none, none⟩
  have hdone : s.deliverParsed v o plain false none =
      if decide (o.ic = 0xFFFFFFFF#32) = true ∧ (s.ctxAt v.index).state = .active then y.modCtx v.index fun x => { x with state :=
          .exhausted }
      else y := by
    unfold State.deliverParsed
    simp only [hparse, hsc, hdirect]
    refine if_neg ?_
    unfold Arrival.fckOk
    rw [hdirect, hfck]
    decide
  have hy : y.ctxAt v.index = { s.ctxAt v.index with plc := { (s.ctxAt v.index).plc with lastHeard := v.link.rxTime.toNat } } :=
    (State.ctxAt_of (keeps_State_toVal .ctx (by decide)) _).trans (State.modCtx_ctxAt hstate)
  rw [hdone]
  split
  · refine ⟨.exhausted, rfl, ?_⟩
    exact (State.modCtx_ctxAt fun h => nomatch (h : CtxState.exhausted = .empty)).trans
      (congrArg (fun x : Context => { x with state := .exhausted }) hy)
  · exact ⟨_, rfl, hy⟩

/-- Settles O19: only a frame that is decrypted writes its counter to its context. -/
theorem countersAdvanceOnlyWithVerifiedFrames : Obligations.CountersAdvanceOnlyWithVerifiedFrames := by
  unfold Obligations.CountersAdvanceOnlyWithVerifiedFrames
  constructor
  · intro s lane badRead t i x f h a c plain p hlen hon hroom hready hitem hbody hindex hpast htxn hfck hstate hlayer hform hsc hallow
      htitle hic hopen hparse
    have hgood : x.waiting = true ∨ (f.faults.any parityLost = false ∧ fcsHolds f = true) := hpast.imp id fun h => h.2.2
    obtain ⟨w, hkeep, -, hgo⟩ := exec_laneProcessing (t := t) hon hroom hready hitem hbody hindex (hpast.imp id fun h => ⟨h.1, h.2.1⟩)
    obtain ⟨n, hexec⟩ := hgo hgood
    have hctx : w.ctxAt i = s.ctxAt i := State.ctxAt_of (hkeep .ctx (by decide)) i
    have hbyte := State.groupByte_of hkeep.itemBytes
    let v : Arrival := ⟨lane.val, i, n, f, frameLink f, false⟩
    let z := w.modCtx i fun x => { x with
      rxIc := (outerOf a).ic
      window := (acceptIc (w.ctxAt i).rxIc (w.ctxAt i).window (outerOf a).ic .advance).2 }
    have hfull : w.fullPath v a = z.deliverParsed v (outerOf a) plain false none :=
      State.fullPath_advances (v := v) (by rw [hctx, hbyte]; exact hlayer) hform hsc (by rw [hctx, hbyte]; exact hallow)
        (by rw [hctx]; exact htitle) (by rw [hctx]; exact hic) (by rw [hctx, hkeep.openApdu]; exact hopen) rfl htxn
    have hz : z.ctxAt i = { s.ctxAt i with
        rxIc := (outerOf a).ic
        window := (acceptIc (s.ctxAt i).rxIc (s.ctxAt i).window (outerOf a).ic .advance).2 } := by
      have hne : (w.ctxAt i).state ≠ .empty := by rw [hctx, hstate]; nofun
      rw [State.modCtx_ctxAt hne, hctx]
    have hparse' : z.parseInner (z.ctxAt i).group ((outerOf a).inner plain) = .record p := by
      rw [hz]
      exact (State.parseInner_of (u := z) hkeep.itemBytes (hkeep .tim (by decide)) _ _).trans hparse
    obtain ⟨b, hval, hat⟩ := State.deliverParsed_record (v := v) rfl hfck hsc hparse'
        (by rw [hz]; exact fun h => nomatch hstate.symm.trans h)
    refine ⟨_, hexec.trans (next_of_eq ((State.byState_active (by rw [hctx]; exact hstate) a).trans hfull)), ?_, ?_, ?_⟩
    · rw [hat, hz]
    · rw [hat, hz]
    · rw [hval, hz]
      exact State.toVal_queue (hkeep .val (by decide)) hlen hroom
  · intro s lane badRead t i x f h a c hon hroom hready hitem hbody hindex hpast hstate hlayer hform hsc hallow hrefused
    obtain ⟨w, hkeep, hexec, -⟩ := exec_laneProcessing (t := t) hon hroom hready hitem hbody hindex hpast
    have hctx : w.ctxAt i = s.ctxAt i := State.ctxAt_of (hkeep .ctx (by decide)) i
    have hbyte := State.groupByte_of hkeep.itemBytes
    rcases hexec with hexec | ⟨n, hexec⟩
    · exact ⟨_, hexec, hkeep .ctx (by decide), hkeep .val (by decide)⟩
    · have hfull := keeps_State_fullPath_refused (s := w) (v := ⟨lane.val, i, n, f, frameLink f, false⟩) (a := a)
        (by rw [hctx, hbyte]; exact hlayer) hform hsc (by rw [hctx, hbyte]; exact hallow)
        (by rw [hctx, hbyte, hkeep.openApdu]; exact hrefused)
      exact ⟨_, hexec.trans (next_of_eq (State.byState_active (by rw [hctx]; exact hstate) a)),
        (hfull .ctx (by decide)).trans (hkeep .ctx (by decide)), (hfull .val (by decide)).trans (hkeep .val (by decide))⟩

end Sys2Proof.Machine

/-! # Frames on the power line -/

namespace Sys2Proof.Machine

-- One theorem after the other: a thread for each would pass the memory limit of the check.
set_option Elab.async false

/-! ## Driving the line (R250) -/

/-- A frame that this node sends holds the line from its lead to its last sample; what a chain receives meanwhile is lost. -/
theorem State.drive_plc (s : State) (phases : List Nat) (first air : Nat) :
    ∃ c, (s.drive phases first air).plc =
      { s.plc with txFrom := first - plcLead, txUntil := first + air, txPhases := phases, chains := c } := by
  have hmute (v : State) (p : Nat) : ∃ c, (if v.inFrame (p - 1) = true then
      (v.setChain (p - 1) { v.chain (p - 1) with rx := none }).bump (cPlcRxRxMuted (p - 1)) else v).plc = { v.plc with chains := c } := by
    split
    · exact ⟨_, keeps_State_bump .plc (by decide)⟩
    · exact ⟨_, rfl⟩
  have hfold (l : List Nat) (v : State) : ∃ c, (l.foldl (fun st p =>
      if st.inFrame (p - 1) = true then (st.setChain (p - 1) { st.chain (p - 1) with rx := none }).bump (cPlcRxRxMuted
          (p - 1)) else st) v).plc =
        { v.plc with chains := c } := by
    induction l generalizing v with
    | nil => exact ⟨_, rfl⟩
    | cons p l ih =>
      obtain ⟨c, hc⟩ := hmute v p
      obtain ⟨d, hd⟩ := ih (if v.inFrame (p - 1) = true then
        (v.setChain (p - 1) { v.chain (p - 1) with rx := none }).bump (cPlcRxRxMuted (p - 1)) else v)
      exact ⟨d, hd.trans (by rw [hc])⟩
  unfold State.drive
  generalize first - plcLead = lead
  exact hfold phases (s.modPlc fun p => { p with txFrom := lead, txUntil := first + air, txPhases := phases })

theorem State.drive_out (s : State) (phases : List Nat) (first air : Nat) : (s.drive phases first air).out = s.out :=
  keeps_State_drive .out (by decide)

theorem State.plcAttemptFailed_retries {s : State} {x : PlcTx} (hdst : x.dst ≠ 0xFFFF) (hleft : x.attempt < s.item iPlcRetries) :
    (s.plcAttemptFailed x).plc.tx = s.plc.tx.map fun z => if z = x then
      { x with attempt := x.attempt + 1, be := s.itemField iPlcCsma 0 1, deferrals := 0,
               readyAt := (s.csmaWait (s.itemField iPlcCsma 0 1)).1, awaiting := false } else z := by
  let r := s.csmaWait (s.itemField iPlcCsma 0 1)
  let y : PlcTx := { x with
    attempt := x.attempt + 1
    be := s.itemField iPlcCsma 0 1
    deferrals := 0
    readyAt := r.1
    awaiting := false }
  have hretry : s.plcAttemptFailed x = (r.2.plcSet x y).bump cPlcTxRetry := if_pos ⟨hdst, hleft⟩
  rw [hretry, show ((r.2.plcSet x y).bump cPlcTxRetry).plc = (r.2.plcSet x y).plc from keeps_State_bump .plc (by decide)]
  exact congrArg (fun p : Plc => p.tx.map fun z => if z = x then y else z) (keeps_State_csmaWait .plc (by decide))

/-- A frame of no transaction that has used its attempts is given up (R258). -/
theorem State.plcAttemptFailed_gives_up {s : State} {x : PlcTx} (hspent : s.item iPlcRetries ≤ x.attempt) (hslot : x.slot = none)
    (hwork : x.work = .keepAlive) : (s.plcAttemptFailed x).plc.tx = s.plc.tx.erase x := by
  have hends : s.plcAttemptFailed x = ((s.plcDone x).bump cPlcTxFail).raiseInt 0x190004 1 := by
    unfold State.plcAttemptFailed
    simp only [hslot, hwork]
    exact if_neg fun h => absurd h.2 (Nat.not_lt.2 hspent)
  have hkeep : (s.plcDone x).keepsBut [.regs, .out] (((s.plcDone x).bump cPlcTxFail).raiseInt 0x190004 1) :=
    keeps_State_bump.within |>.then keeps_State_raiseInt
  rw [hends, show (((s.plcDone x).bump cPlcTxFail).raiseInt 0x190004 1).plc = (s.plcDone x).plc from hkeep .plc (by decide)]
  rfl

theorem exec_ackWaitExpiry {s : State} {t : Nat} {x : PlcTx} (hfind : (s.plc.tx.find? fun y => y.awaiting) = some x) :
    exec (.ackWaitExpiry t) s = .next (if max s.now t < x.waitUntil then s.advance t else (s.advance t).plcAttemptFailed x) := by
  show execAckWaitExpiry t s = _
  unfold execAckWaitExpiry
  simp only [show ((s.advance t).plc.tx.find? fun y => y.awaiting) = some x from hfind]
  rfl

/-- An ACK that a frame awaits ends it and clears FAILS of its meter (R258). -/
theorem State.ackArrived_ends {s : State} {n k : Nat} {bytes : List Byte} {x : PlcTx} (hnet : fieldAt bytes 1 1 / 16 = s.item iPlcNetId)
    (haddr : fieldAt bytes 2 2 = 0xFFFE)
    (hfind : (s.plc.tx.find? fun y => y.awaiting && decide (y.seq = BitVec.ofNat 16
        (fieldAt bytes 4 2) ∧ s.plc.epoch = fieldAt bytes 1 1 % 16)) =
      some x) (hslot : x.slot = some k) (hstate : (s.ctxAt k).state ≠ .empty) :
    (s.ackArrived n bytes).plc = { s.plc with tx := s.plc.tx.erase x } ∧ ((s.ackArrived n bytes).ctxAt k).plc.fails = 0 := by
  let s1 := (s.plcDone x).bump cPlcAckRx
  let s2 := s1.modCtx k fun c => { c with plc := { c.plc with fails := 0 } }
  let hop := firstReceiver x.dst ((x.used).getD ⟨0, []⟩)
  let s3 := if hop < 16384 ∧ (s2.ctxAt hop).state ≠ .empty then
    s2.modCtx hop fun c => { c with plc := { c.plc with txMod := fieldAt bytes 6 1 % 8, txTm := BitVec.ofNat 24 (fieldAt bytes 7 3) } }
    else s2
  have hends : s.ackArrived n bytes = s3 := by
    unfold State.ackArrived
    extract_lets seq
    rw [if_neg (not_or.2 ⟨not_not.2 hnet, not_not.2 haddr⟩), hfind]
    simp only [hslot]
    rfl
  have h2 : s2.ctxAt k = { s.ctxAt k with plc := { (s.ctxAt k).plc with fails := 0 } } :=
    State.modCtx_ctxAt (s := s1) (f := fun c => { c with plc := { c.plc with fails := 0 } }) hstate
  have hplc : s2.plc = { s.plc with tx := s.plc.tx.erase x } := keeps_State_bump (s := s.plcDone x) (c := cPlcAckRx) .plc (by decide)
  rw [hends]
  unfold s3
  split
  · rename_i hhop
    refine ⟨hplc, ?_⟩
    by_cases hk : k = hop
    · rw [hk, State.modCtx_ctxAt hhop.2, ← hk, h2]
    · rw [show (s2.modCtx hop _).ctxAt k = s2.ctxAt k from State.setCtx_ctxAt_other hk, h2]
  · exact ⟨hplc, by rw [h2]⟩

/-- A unicast frame that goes out holds the line and awaits its ACK (R250, R258). -/
theorem State.plcTransmit_awaits {s : State} {x : PlcTx} {air : Nat} {bytes : List Byte} (hdst : x.dst ≠ 0xFFFF)
    (hbytes : bytes = s.plcBytes x (s.attemptOf x).1 (s.attemptOf x).2 (s.now + plcLead))
    (hair : air = Config.plcAirtime (s.item iPlcBand) (s.plcModulation x (s.attemptOf x).1).1 (s.plcModulation x (s.attemptOf x).1).2
      bytes.length) :
    (s.plcTransmit x).plc.txUntil = s.now + plcLead + air ∧
      (s.plcTransmit x).plc.tx = s.plc.tx.map (fun z => if z = x then
        { x with used := some (s.attemptOf x).1, awaiting := true,
                 waitUntil := s.now + plcLead + air + ticksOfUs 2200 + s.robustAirtime 12 } else z) ∧
      (s.plcTransmit x).out = .plcFrame ⟨(s.attemptOf x).2, s.item iTxLevel, (s.plcModulation x (s.attemptOf x).1).1,
        (s.plcModulation x (s.attemptOf x).1).2, s.pdcOf (s.attemptOf x).2 (s.now + plcLead), s.now + plcLead, bytes⟩ :: s.out := by
  subst hair hbytes
  unfold State.plcTransmit
  extract_lets a first md bytes air s1 s2
  rw [if_neg hdst]
  obtain ⟨c, hc⟩ := s.drive_plc a.2 first air
  have h1 : s1.plc = (s.drive a.2 first air).plc :=
    keeps_State_bump (s := s.drive a.2 first air) (c := cPlcFramesTx) .plc (by decide)
  have hkeep : s1.keepsBut [.txn] s2 := by
    unfold s2
    split
    · exact keeps_State_txnSent
    · exact keepsBut_refl _ _
  have hplc : s2.plc = _ := (hkeep .plc (by decide)).trans (h1.trans hc)
  have hout : s1.out = _ :: s.out := congrArg (_ :: ·) ((keeps_State_bump (c := cPlcFramesTx) .out (by decide)).trans
      (s.drive_out a.2 first air))
  exact ⟨(congrArg Plc.txUntil hplc :), congrArg (List.map _) (congrArg Plc.tx hplc :), (hkeep .out (by decide)).trans hout⟩

/-- What the step does with the first frame of the queue once its wait has ended and the line is free (R250, R256). -/
theorem exec_csmaBackoffEnd {s : State} {air t : Nat} {x : PlcTx} {rest : List PlcTx} {bytes : List Byte} (hlive : s.plcLive = true)
    (htx : s.plc.tx = x :: rest) (hsent : x.awaiting = false) (hready : x.readyAt ≤ max s.now t) (hacks : s.plc.acks = [])
    (hfree : (s.advance t).plcBusy = false)
    (hbytes : bytes = s.plcBytes x (s.attemptOf x).1 (s.attemptOf x).2 (max s.now t + plcLead))
    (hair : air = Config.plcAirtime (s.item iPlcBand) (s.plcModulation x (s.attemptOf x).1).1 (s.plcModulation x (s.attemptOf x).1).2
      bytes.length) (hbeacon : s.meetsBeacon (max s.now t + plcLead) air = false) :
    exec (.csmaBackoffEnd t) s = .next (if ((s.attemptOf x).2.any fun p => (s.advance t).inFrame (p - 1)) = true then
        if 8 ≤ x.deferrals + 1 then ((s.advance t).bump cPlcCsmaDefer).plcAttemptFailed x
        else (((s.advance t).bump cPlcCsmaDefer).csmaWait (min (x.be + 1) (s.itemField iPlcCsma 1 1))).2.plcSet x
          { x with deferrals := x.deferrals + 1, be := min (x.be + 1) (s.itemField iPlcCsma 1 1),
                   readyAt := (((s.advance t).bump cPlcCsmaDefer).csmaWait (min (x.be + 1) (s.itemField iPlcCsma 1 1))).1 }
      else (s.advance t).plcTransmit x) := by
  subst hair hbytes
  have hdue : ¬((s.advance t).plc.acks.any fun a => decide (a.at_ ≤ max s.now t + plcLead)) = true := by
    rw [show (s.advance t).plc.acks = [] from hacks]
    nofun
  show execCsmaBackoffEnd t s = _
  unfold execCsmaBackoffEnd
  simp only [show (s.advance t).plc.tx = x :: rest from htx]
  refine (if_neg (not_or.2 ⟨ne_false_of_eq_true hlive, not_or.2 ⟨ne_true_of_eq_false hsent, not_or.2 ⟨Nat.not_lt.2 hready,
    not_or.2 ⟨hdue, not_or.2 ⟨ne_true_of_eq_false hfree, ne_true_of_eq_false hbeacon⟩⟩⟩⟩⟩)).trans ?_
  by_cases hbusy : ((s.attemptOf x).2.any fun p => (s.advance t).inFrame (p - 1)) = true
  · exact (if_pos hbusy).trans (next_of_eq (if_pos hbusy).symm)
  · exact (if_neg hbusy).trans (next_of_eq (if_neg hbusy).symm)

/-- A discovery of a new slot begins while fewer than 16 run (R263). -/
theorem State.discover_begins {s : State} {k : Nat} (hnew : (s.plc.discoveries.any fun e => decide (e.1 = k)) = false)
    (hfresh : k ∉ s.plc.discWaiting) (hroom : s.plc.discoveries.length < 16) :
    (s.discover k).plc.discoveries = s.plc.discoveries ++ [(k, s.now + s.item iDiscWindow * ticksPerSec)] ∧
      (s.discover k).plc.discWaiting = s.plc.discWaiting := by
  let v := (s.modPlc fun p => { p with discoveries := p.discoveries ++ [(k, s.now + s.item iDiscWindow * ticksPerSec)] }).bump
    cPlcDiscoveries
  let w := v.modCtx k fun c => { c with plc := { c.plc with discovering := true } }
  have hbegin : s.discover k = w.plcQueue (.discover k) [] none 0xFFFF none :=
    (if_neg (not_or.2 ⟨ne_true_of_eq_false hnew, hfresh⟩)).trans (if_neg (Nat.not_le.2 hroom))
  have hw : w.plc = { s.plc with discoveries := s.plc.discoveries ++ [(k, s.now + s.item iDiscWindow * ticksPerSec)] } :=
    keeps_State_bump (c := cPlcDiscoveries) .plc (by decide)
  have hqueue : (w.plcQueue (.discover k) [] none 0xFFFF none).plc.discoveries = w.plc.discoveries ∧
      (w.plcQueue (.discover k) [] none 0xFFFF none).plc.discWaiting = w.plc.discWaiting := ⟨rfl, rfl⟩
  rw [hbegin, hqueue.1, hqueue.2, hw]
  exact ⟨rfl, rfl⟩

/-- Settles O28: each step works on the frame that it finds first. -/
theorem plcFramesGoOutAndEnd : Obligations.PlcFramesGoOutAndEnd := by
  unfold Obligations.PlcFramesGoOutAndEnd
  refine ⟨?ackDue, ?ackArrives, ?retry, ?waits, ?ends, ?sends, ?defers, ?discovery, ?beacon⟩
  case ackDue =>
    intro s t a rest hlive hacks hdue hfree hbeacon
    let w := (s.advance t).modPlc fun p => { p with acks := rest }
    obtain ⟨c, hc⟩ := w.drive_plc a.phases a.at_ (s.robustAirtime 12)
    have hexec : exec (.ackTransmit t) s = .next (((w.drive a.phases a.at_ (s.robustAirtime 12)).bump cPlcAckSent).emit
        (.plcFrame ⟨a.phases, s.item iTxLevel, 0, s.allGroups, s.pdcOf a.phases a.at_, a.at_,
          plcAckBytes ((s.advance t).plcPending a.dest) a.epoch (s.item iPlcNetId) a.dest a.seq a.advMod a.advTm⟩)) := by
      show execAckTransmit t s = _
      unfold execAckTransmit
      simp only [show (s.advance t).plc.acks = a :: rest from hacks]
      exact next_of_eq ((if_neg (not_or.2 ⟨ne_false_of_eq_true hlive, Nat.not_lt.2 hdue⟩)).trans
        (if_neg (not_or.2 ⟨Nat.not_lt.2 hfree, ne_true_of_eq_false hbeacon⟩)))
    exact ⟨_, hexec, (congrArg Plc.acks hc :), (congrArg Plc.txUntil hc :), (congrArg Plc.txPhases hc :), (congrArg Plc.tx hc :),
      congrArg (_ :: ·) (w.drive_out ..)⟩
  case ackArrives =>
    intro s n bytes r t k x hlive hrx hheader hover hfcs htype hnet haddr hfind hslot hstate
    let w := ((s.advance t).setChain n.val { s.chain n.val with rx := none }).bump (cPlcRxFramesOk n.val)
    have hkeep : (s.advance t).keepsBut [.plc, .regs] w := keeps_State_setChain.within |>.then keeps_State_bump
    have hplc : w.plc = { s.plc with chains := s.plc.chains.set n.val { s.chain n.val with rx := none } } :=
      keeps_State_bump (s := (s.advance t).setChain n.val { s.chain n.val with rx := none }) .plc (by decide)
    have hctx : w.ctxAt k = s.ctxAt k := State.ctxAt_of (hkeep .ctx (by decide)) k
    have hexec : exec (.ack n bytes t) s = .next (w.ackArrived n.val bytes) := by
      show execAck n bytes t s = _
      unfold execAck
      simp only [show ((s.advance t).chain n.val).rx = some r from hrx]
      exact (if_neg (not_or.2 ⟨ne_false_of_eq_true hlive, not_or.2 ⟨ne_false_of_eq_true hheader, Nat.not_lt.2 hover⟩⟩)).trans
        (next_of_eq ((if_neg (ne_false_of_eq_true hfcs)).trans (if_pos htype)))
    obtain ⟨hends, hfails⟩ := State.ackArrived_ends (s := w) (n := n.val) (hnet.trans (hkeep.item _).symm) haddr
      (by rw [hplc]; exact hfind) hslot (by rw [hctx]; exact hstate)
    have hplc' := hends.trans (congrArg (fun p : Plc => { p with tx := p.tx.erase x }) hplc)
    refine ⟨_, hexec, (congrArg Plc.tx hplc' :), hfails, ?_⟩
    exact (congrArg (fun p : Plc => (p.chains.getD n.val ⟨none, 0⟩).rx) hplc').trans
      (congrArg PlcChain.rx (List.getD_set_self (List.lt_length_of_getD_ne (d := ⟨none, 0⟩) fun h => by
        rw [show s.chain n.val = ⟨none, 0⟩ from h] at hrx
        exact absurd hrx nofun)))
  case retry =>
    intro s t x hfind hover hunicast hleft
    exact ⟨_, (exec_ackWaitExpiry hfind).trans (next_of_eq (if_neg (Nat.not_lt.2 hover))),
      State.plcAttemptFailed_retries (s := s.advance t) hunicast hleft⟩
  case waits =>
    intro s t x hfind hwait
    exact (exec_ackWaitExpiry hfind).trans (next_of_eq (if_pos hwait))
  case ends =>
    intro s t x hfind hover hspent hslot hwork
    exact ⟨_, (exec_ackWaitExpiry hfind).trans (next_of_eq (if_neg (Nat.not_lt.2 hover))),
      State.plcAttemptFailed_gives_up (s := s.advance t) hspent hslot hwork⟩
  case sends =>
    intro s air t x rest bytes hlive htx hsent hready hacks hfree hbytes hair hbeacon hquiet hunicast
    exact ⟨_, (exec_csmaBackoffEnd hlive htx hsent hready hacks hfree hbytes hair hbeacon).trans
      (next_of_eq (if_neg (ne_true_of_eq_false hquiet))), State.plcTransmit_awaits (s := s.advance t) hunicast hbytes hair⟩
  case defers =>
    intro s air t x rest bytes hlive htx hsent hready hacks hfree hbytes hair hbeacon hbusy hleft
    let w := (s.advance t).bump cPlcCsmaDefer
    have hkeep : s.keepsBut [.now, .way, .host, .limits, .regs, .draws] (w.csmaWait (min (x.be + 1) (s.itemField iPlcCsma 1 1))).2 :=
      keeps_State_advance.within |>.then keeps_State_bump |>.then keeps_State_csmaWait
    exact ⟨_, (exec_csmaBackoffEnd hlive htx hsent hready hacks hfree hbytes hair hbeacon).trans
      (next_of_eq ((if_pos hbusy).trans (if_neg (Nat.not_le.2 hleft)))), hkeep .out (by decide),
      congrArg (fun p : Plc => p.tx.map _) (hkeep .plc (by decide))⟩
  case discovery =>
    intro s t d rest k ks hdisc hover hwaiting hroom hnew hfresh
    let w := (((s.advance t).modPlc fun p => { p with discoveries := rest }).modCtx d.1 fun c =>
      { c with plc := { c.plc with discovering := false } }).modPlc fun p => { p with discWaiting := ks }
    have hexec : exec (.discWindowExpiry t) s = .next (w.discover k) := by
      show execDiscWindowExpiry t s = _
      unfold execDiscWindowExpiry
      simp only [show (s.advance t).plc.discoveries = d :: rest from hdisc]
      refine (if_neg (Nat.not_lt.2 hover)).trans (next_of_eq ?_)
      show (match s.plc.discWaiting with
        | [] => _
        | j :: js => _) = _
      rw [hwaiting]
    obtain ⟨hnext, hwait⟩ := State.discover_begins (s := w) hnew hfresh hroom
    exact ⟨_, hexec, hwait, hnext⟩
  case beacon =>
    intro s t a b rest bytes hlive hbeacons hat hdue hbytes
    let w := (s.advance t).modPlc fun p => { p with beacons := p.beacons.erase b, seq := p.seq + 1 }
    have hfirst : (s.advance t).launchAt b = a := by
      unfold State.launchAt
      rw [hat]
      rfl
    obtain ⟨c, hc⟩ := w.drive_plc (s.enables 0 true) a (s.robustAirtime bytes.length)
    have hexec : exec (.beaconLaunch t) s = .next (((w.drive (s.enables 0 true) a (s.robustAirtime bytes.length)).bump cPlcBeaconsTx).emit
        (.plcFrame ⟨s.enables 0 true, s.item iTxLevel, 0, s.allGroups, s.pdcOf (s.enables 0 true) a, a, bytes⟩)) := by
      subst hbytes
      show execBeaconLaunch t s = _
      unfold execBeaconLaunch
      simp only [show (s.advance t).plc.beacons = b :: rest from hbeacons]
      rw [List.find?_cons_of_pos]
      · simp only [hfirst]
        exact next_of_eq (if_neg (ne_false_of_eq_true hlive))
      · simp only [hat]
        exact decide_eq_true hdue
    have hplc := (keeps_State_bump (s := w.drive (s.enables 0 true) a (s.robustAirtime bytes.length)) (c := cPlcBeaconsTx) .plc
      (by decide)).trans hc
    refine ⟨_, hexec, (congrArg Plc.beacons hplc :).trans ?_, (congrArg Plc.txUntil hplc :),
      congrArg (_ :: ·) ((keeps_State_bump (c := cPlcBeaconsTx) .out (by decide)).trans (w.drive_out ..))⟩
    show s.plc.beacons.erase b = rest
    rw [hbeacons]
    exact List.erase_cons_head b rest

end Sys2Proof.Machine

/-! # Copies and acknowledgements of the radios -/

namespace Sys2Proof.Machine

-- One theorem after the other: a thread for each would pass the memory limit of the check.
set_option Elab.async false

/-! ## Copies and Enh-Acks of the radios (R272 to R276, R288) -/

/-- The first copy of a frame opens its reception (R288). -/
theorem State.meshCombine_opens {s : State} {h : MeshHeard} (hnone : s.rfm.receptions = []) :
    (s.meshCombine h).rfm = { s.rfm with receptions := [⟨[h], s.now + ticksOfUs (s.item iRfCombineWindow)⟩] } := by
  unfold State.meshCombine State.modRfm
  simp only [hnone]
  exact if_neg nofun

/-- A copy of a frame for this node goes to its combine window (R275, R288). -/
theorem State.meshArrived_combines {s : State} {n : Nat} {c : MeshCopy} {f : MeshFrame} (hack : fieldAt c.bytes 0 2 % 8 ≠ 2)
    (hkind : macKindOk c.bytes 1 = true) (hus : s.macForUs c.bytes = true) (hparse : meshParse c.bytes = some f)
    (hmesh : s.meshForUs f = true) (htype : meshTypeOk f = true) : s.meshArrived n c = s.meshCombine ⟨c, f, meshSnr c, s.rxStamp⟩ := by
  unfold State.meshArrived
  rw [if_neg hack, if_neg (not_or.2 ⟨ne_false_of_eq_true hkind, ne_false_of_eq_true hus⟩)]
  simp only [hparse]
  exact (if_neg (ne_false_of_eq_true hmesh)).trans (if_neg (ne_false_of_eq_true htype))

theorem State.radioDrive_spans {s : State} {n chan first air : Nat} (h : n < s.rfm.radios.length) :
    ((s.radioDrive n chan first air).radioAt n).spans.head? = some ⟨first, air, chan⟩ := by
  have hset : (s.radioDrive n chan first air).radioAt n = { s.radioAt n with
      spans := ⟨first, air, chan⟩ :: (s.radioAt n).spans.filter fun sp => decide (s.now < sp.first + sp.airtime + dutyWindow) } :=
    List.getD_set_self h
  rw [hset]
  rfl

/-- Settles O29: the checks that a copy meets in turn, and those that an Enh-Ack meets at its instant. -/
theorem meshCopiesAreReceived : Obligations.MeshCopiesAreReceived := by
  unfold Obligations.MeshCopiesAreReceived
  refine ⟨?opens, ?fails, ?acks⟩
  case opens =>
    intro s c f t hruns hmuted hswitch htype hfcs hack hkind hus hparse hmesh htypeOk hreceptions
    let w := ((s.advance t).bump (cRfPreambles c.radio.val)).bump (cRfFramesOk c.radio.val)
    have hkeep : s.keepsBut [.now, .way, .host, .limits, .regs] w := keeps_State_advance.within |>.then keeps_State_bump |>.then
        keeps_State_bump
    have hexec : exec (.rfCopyReceived c t) s = .next (w.meshArrived c.radio.val c) :=
      (if_neg (ne_false_of_eq_true hruns)).trans ((if_neg (ne_true_of_eq_false hmuted)).trans (next_of_eq
        ((if_neg (ne_true_of_eq_false hswitch)).trans (if_neg (not_or.2 ⟨not_not.2 htype, ne_false_of_eq_true hfcs⟩)))))
    have hpan : w.macForUs c.bytes = true := by
      unfold State.macForUs
      rw [hkeep.item]
      exact hus
    have hnet : w.meshForUs f = true := by
      unfold State.meshForUs
      rw [hkeep.item]
      exact hmesh
    have hrfm : w.rfm = s.rfm := hkeep .rfm (by decide)
    have hnow : w.now = max s.now t :=
      (keeps_State_bump.within (L := [.regs]) |>.then keeps_State_bump : (s.advance t).keepsBut [.regs] w) .now (by decide)
    refine ⟨_, hexec, ?_⟩
    rw [State.meshArrived_combines hack hkind hpan hparse hnet htypeOk, State.meshCombine_opens
        (by rw [hrfm]; exact hreceptions), hrfm, hnow,
      hkeep.item]
    rfl
  case fails =>
    intro s c t hruns hfcs
    have hkeep {u : State} (h : (s.advance t).keepsBut [.regs] u) : u.rfm = s.rfm ∧ u.ing = s.ing := ⟨h .rfm (by decide), h .ing
        (by decide)⟩
    by_cases hmuted : (s.advance t).radioMuted c.radio.val c.chan.val (s.radioTick c.start) = true
    · exact ⟨_, (if_neg (ne_false_of_eq_true hruns)).trans (if_pos hmuted), hkeep keeps_State_bump⟩
    · let w := (s.advance t).bump (cRfPreambles c.radio.val)
      have hstep {u : State} (h : (if c.modeSwitch = true then w.bump (cRfTypeInvalid c.radio.val)
          else if c.fcsType ≠ 0 ∨ meshFcsOk c.bytes = false then w.bump (cRfFcsFailLink c.radio.val)
          else (w.bump (cRfFramesOk c.radio.val)).meshArrived c.radio.val c) = u) : exec (.rfCopyReceived c t) s = .next u :=
        (if_neg (ne_false_of_eq_true hruns)).trans ((if_neg hmuted).trans (next_of_eq h))
      by_cases hswitch : c.modeSwitch = true
      · exact ⟨_, hstep (if_pos hswitch), hkeep (keeps_State_bump.within |>.then keeps_State_bump)⟩
      · exact ⟨_, hstep ((if_neg hswitch).trans (if_pos (Or.inr hfcs))), hkeep (keeps_State_bump.within |>.then keeps_State_bump)⟩
  case acks =>
    intro s t a rest bytes hacks hdue hsends hradio hfree hbytes hslot hbeacon hduty hpending
    subst hbytes
    let bytes := withCrc32 (macHeader 2 false false a.dsn (s.item iPanId) a.dest 0xFFFD)
    let w := (s.advance t).modRfm fun m => { m with acks := rest }
    let v := w.radioDrive a.radio a.chan a.at_ (s.rfAirtime a.radio bytes.length)
    have hexec : exec (.enhAckTransmit t) s = .next ((v.bump (cRfAckSent a.radio)).emit
        (s.meshSent a.radio a.chan a.at_ (Config.rfPreamble (s.rfMode a.radio) (s.item iPreambleOctets)) bytes)) := by
      show execEnhAckTransmit t s = _
      unfold execEnhAckTransmit
      simp only [show (s.advance t).rfm.acks = a :: rest from hacks, hpending]
      exact next_of_eq ((if_neg (Nat.not_lt.2 hdue)).trans ((if_neg (ne_false_of_eq_true hsends)).trans ((if_neg (not_or.2
        ⟨ne_true_of_eq_false hfree, not_or.2 ⟨ne_true_of_eq_false hslot, ne_true_of_eq_false hbeacon⟩⟩)).trans
        ((if_neg (ne_true_of_eq_false hduty)).trans (if_neg nofun)))))
    have hrfm : (v.bump (cRfAckSent a.radio)).rfm = v.rfm := keeps_State_bump .rfm (by decide)
    refine ⟨_, hexec, (congrArg Rfm.acks hrfm :), ?_, congrArg (_ :: ·) (keeps_State_bump (s := v) (c := cRfAckSent a.radio) .out
        (by decide))⟩
    exact (congrArg (fun m : Rfm => (m.radios.getD a.radio Radio.idle).spans.head?) hrfm).trans (State.radioDrive_spans (s := w) hradio)

end Sys2Proof.Machine

/-! # Receptions of both media -/

namespace Sys2Proof.Machine

-- One theorem after the other: a thread for each would pass the memory limit of the check.
set_option Elab.async false

/-! ## What leaves the receptions of both media as they are (R260, R288) -/

/-- From `s` to `u` the receptions of the power line and of the mesh stand. -/
def State.rxStand (s u : State) : Prop := u.plc.receptions = s.plc.receptions ∧ u.rfm.receptions = s.rfm.receptions

theorem rxStand_refl (s : State) : s.rxStand s := ⟨rfl, rfl⟩

theorem State.rxStand.then {s v u : State} (h : s.rxStand v) (g : v.rxStand u) : s.rxStand u := ⟨g.1.trans h.1, g.2.trans h.2⟩

theorem State.keepsBut.rxStand {A : List Part} {s u : State} (h : s.keepsBut A u) (sub : Part.plc ∉ A ∧ Part.rfm ∉ A := by decide) :
    s.rxStand u := ⟨congrArg Plc.receptions (h .plc sub.1), congrArg Rfm.receptions (h .rfm sub.2)⟩

theorem State.rxStand.after {A : List Part} {s v u : State} (h : s.rxStand v) (g : v.keepsBut A u)
    (sub : Part.plc ∉ A ∧ Part.rfm ∉ A := by decide) : s.rxStand u := h.then (g.rxStand sub)

theorem State.rxStand.ite {c : Prop} [Decidable c] {s u v : State} (h : s.rxStand u) (g : s.rxStand v) : s.rxStand
    (if c then u else v) := by
  split
  · exact h
  · exact g

theorem rxStand_plcToll (s : State) (f : PlcFrame) : s.rxStand (s.plcToll f) := by
  unfold State.plcToll
  extract_lets r s1
  have h1 : s.rxStand s1 := ⟨rfl, rfl⟩
  exact .ite (h1.after keeps_State_bump |>.after keeps_State_raiseInt) h1

theorem rxStand_learnPath (s : State) (slot : Nat) (p : LinkPath) : s.rxStand (s.learnPath slot p) := by
  unfold State.learnPath
  split
  · exact rxStand_refl s
  · extract_lets o s1
    exact .ite (State.rxStand.after (v := s1) ⟨rfl, rfl⟩ keeps_State_bump) ⟨rfl, rfl⟩

theorem rxStand_plcHeardFrom (s : State) (h : PlcHeard) : s.rxStand (s.plcHeardFrom h) := by
  unfold State.plcHeardFrom
  extract_lets f s0 s1
  split
  · exact rxStand_refl s
  · have h0 : s.rxStand s0 := keeps_State_heardMeter.rxStand
    have h1 : s.rxStand s1 := .ite (h0.then (rxStand_learnPath _ _ _)) h0
    exact .ite (h1.after keeps_State_heardDirect) h1

theorem rxStand_estimateOut (s : State) (slot : Nat) (h : PlcHeard) : s.rxStand (s.estimateOut slot h) := by
  unfold State.estimateOut
  extract_lets st
  exact .ite (rxStand_refl s) (.ite (keeps_State_raiseInt.rxStand.after keeps_State_note) (State.rxStand.after (v := s.modPlc _) ⟨rfl, rfl⟩
    keeps_State_bump))

theorem rxStand_plcJoin (s : State) (h : PlcHeard) : s.rxStand (s.plcJoin h) := by
  unfold State.plcJoin
  extract_lets f title
  split
  · exact ⟨rfl, rfl⟩
  · exact keeps_State_raiseInt.rxStand.after keeps_State_eventLimited |>.after keeps_State_bump

theorem rxStand_plcAckDue (s : State) (h : PlcHeard) (last : Nat) : s.rxStand (s.plcAckDue h last) := by
  unfold State.plcAckDue
  extract_lets f hop v
  exact .ite ⟨rfl, rfl⟩ (rxStand_refl s)

theorem rxStand_plcDeliver (s : State) (h : PlcHeard) : s.rxStand (s.plcDeliver h).1 := by
  have htolled (v : State) (f : PlcFrame) (hv : s.rxStand v) : s.rxStand ((v.plcToll f).plcHeardFrom h) :=
    (hv.then (rxStand_plcToll v f)).then (rxStand_plcHeardFrom _ h)
  unfold State.plcDeliver
  extract_lets f zc pre g s0 target s1 s2
  split
  · have hpre : s.rxStand pre.1 := keeps_State_preCheck.rxStand
    split
    · exact htolled _ _ hpre
    · split
      · exact keeps_State_ingestFrame.rxStand
      · have hzc (v : State) : v.rxStand (zc v) := .ite keeps_State_bump.rxStand (rxStand_refl v)
        have h1 : s.rxStand (zc (pre.1.ingestFrame g)) := (hpre.after keeps_State_ingestFrame).then (hzc _)
        exact (htolled _ f h1 |>.after keeps_State_bump).then (rxStand_estimateOut _ _ _)
  · split
    · exact (htolled s f (rxStand_refl s)).after keeps_State_bump
    · split
      · have h1 : s.rxStand s1 := (htolled s f (rxStand_refl s)).then (rxStand_estimateOut _ _ _)
        have h2 : s.rxStand s2 := .ite (h1.then (rxStand_learnPath _ _ _)) h1
        exact h2.after keeps_State_bump
      · split
        · exact ((rxStand_plcToll s f).after keeps_State_bump |>.then (rxStand_estimateOut _ _ _)).then (rxStand_plcJoin _ h)
        · exact rxStand_plcToll s f

theorem rxStand_crossCopies (l : List PlcHeard) (s : State) : s.rxStand (l.foldl (fun st x => st.bump (cPlcRxCrossCopy x.chain)) s) :=
  (keepsBut_foldl (L := [.regs]) (fun _ _ hu => hu.then keeps_State_bump) (keepsBut_refl _ s)).rxStand

theorem rxStand_finishReception (s : State) (r : PlcReception) : s.rxStand (s.finishReception r) := by
  unfold State.finishReception
  split
  · exact rxStand_refl s
  · rename_i h _
    extract_lets f s1 d
    have h1 : s.rxStand s1 := rxStand_crossCopies _ s
    split
    · exact (h1.after keeps_State_bump).then (rxStand_plcAckDue _ _ _)
    · have hd : s.rxStand d.1 := h1.then (rxStand_plcDeliver s1 h)
      exact .ite (hd.then (rxStand_plcAckDue _ _ _)) hd

/-! ## The mesh -/

theorem rxStand_meshQueue (s : State) (o : MeshOut) : s.rxStand (s.meshQueue o) := ⟨rfl, rfl⟩

theorem rxStand_floodAll (s : State) (w : LinkWork) (a : List Byte) (slot : Option Nat) (dst ttl : Nat) :
    s.rxStand (s.floodAll w a slot dst ttl) := by
  have hone (n : Nat) (v : State) :
      v.rxStand (if v.radioOn n = true then v.meshQueue ⟨w, a, slot, dst, n, 0, .flood ttl⟩ else v) :=
    .ite (rxStand_meshQueue _ _) (rxStand_refl v)
  exact (hone 0 s).then (hone 1 _)

theorem rxStand_meshToll (s : State) (f : MeshFrame) : s.rxStand (s.meshToll f) := by
  unfold State.meshToll
  extract_lets r s1
  have h1 : s.rxStand s1 := ⟨rfl, rfl⟩
  exact .ite (h1.after keeps_State_bump |>.after keeps_State_raiseInt) h1

theorem rxStand_sendSlotSet (s : State) (i : Nat) : s.rxStand (s.sendSlotSet i) := by
  unfold State.sendSlotSet
  extract_lets s1
  have h1 : s.rxStand s1 := keeps_State_modRadio.rxStand.after keeps_State_bump
  exact h1.then (rxStand_meshQueue _ _)

theorem rxStand_measure (s : State) (i tp lag : Nat) : s.rxStand (s.measure i tp lag).1 := by
  unfold State.measure
  extract_lets l lagNs w n e since drift
  split
  · exact keeps_State_bump.rxStand.then (rxStand_sendSlotSet _ i)
  · exact keeps_State_modRadio.rxStand

theorem rxStand_uplinkTiming (s : State) (i tp : Nat) (m : MeshTiming) : s.rxStand (s.uplinkTiming i tp m) := by
  unfold State.uplinkTiming
  extract_lets s1 l
  have h1 : s.rxStand s1 := .ite keeps_State_bump.rxStand (rxStand_refl s)
  exact .ite (h1.then (rxStand_sendSlotSet _ _)) (.ite (h1.then (rxStand_measure _ _ _ _)) h1)

theorem rxStand_meshHeardFrom (s : State) (h : MeshHeard) (hops : Nat) : s.rxStand (s.meshHeardFrom h hops) := by
  unfold State.meshHeardFrom
  extract_lets f s1
  split
  · exact rxStand_refl s
  · have h1 : s.rxStand s1 := keeps_State_heardMeter.rxStand.after keeps_State_setDist |>.after keeps_State_modRadio
    split
    · exact .ite (h1.then (rxStand_uplinkTiming _ _ _ _)) h1
    · exact h1

theorem rxStand_newSleepy (s : State) (i : Nat) : s.rxStand (s.newSleepy i) := by
  unfold State.newSleepy
  extract_lets l
  split
  · exact rxStand_refl s
  · split
    · exact (keeps_State_modRadio.rxStand.after keeps_State_bump).then (rxStand_floodAll _ _ _ _ _ _)
    · exact (keeps_State_modRadio.rxStand.after keeps_State_bump).then (rxStand_floodAll _ _ _ _ _ _)

theorem rxStand_meshJoin (s : State) (h : MeshHeard) (hops : Nat) : s.rxStand (s.meshJoin h hops) := by
  unfold State.meshJoin
  extract_lets f title caps sleepy
  split
  · extract_lets s2 s3
    have h2 : s.rxStand s2 := State.rxStand.after (v := s.keepCaps _ caps) ⟨rfl, rfl⟩ keeps_State_modRadio
    have h3 : s.rxStand s3 := h2.then (rxStand_floodAll _ _ _ _ _ _)
    exact .ite (h3.then (rxStand_newSleepy _ _)) h3
  · exact keeps_State_raiseInt.rxStand.after keeps_State_eventLimited |>.after keeps_State_bump

theorem rxStand_meshDeliver (s : State) (h : MeshHeard) (hops : Nat) : s.rxStand (s.meshDeliver h hops).1 := by
  have htolled (v : State) (f : MeshFrame) (hv : s.rxStand v) : s.rxStand ((v.meshToll f).meshHeardFrom h hops) :=
    (hv.then (rxStand_meshToll v f)).then (rxStand_meshHeardFrom _ h hops)
  unfold State.meshDeliver
  extract_lets f pre g
  split
  · have hpre : s.rxStand pre.1 := keeps_State_preCheck.rxStand
    split
    · exact htolled _ _ hpre
    · split
      · exact keeps_State_ingestFrame.rxStand
      · exact (htolled _ f (hpre.after keeps_State_ingestFrame)).after keeps_State_bump
  · split
    · exact (htolled s f (rxStand_refl s)).after keeps_State_bump
    · split
      · exact ((rxStand_meshToll s f).after keeps_State_bump).then (rxStand_meshJoin _ h hops)
      · exact rxStand_meshToll s f

theorem rxStand_finishMesh (s : State) (r : MeshReception) : s.rxStand (s.finishMesh r) := by
  have hack (v : State) (h : MeshHeard) (last : Nat) (hv : s.rxStand v) : s.rxStand ((v.enhAckDue h last).meshAckFor h) := by
    have hdue : v.rxStand (v.enhAckDue h last) := by
      unfold State.enhAckDue
      exact .ite ⟨rfl, rfl⟩ (rxStand_refl v)
    have hmesh (w : State) : w.rxStand (w.meshAckFor h) := by
      unfold State.meshAckFor
      exact .ite ((rxStand_meshQueue w _).after keeps_State_bump) (rxStand_refl w)
    exact (hv.then hdue).then (hmesh _)
  unfold State.finishMesh
  split
  · exact rxStand_refl s
  · rename_i h _
    extract_lets f last hops s1 s2 d
    have h1 : s.rxStand s1 :=
      (keepsBut_foldl (L := [.regs]) (fun _ _ hu => hu.then keeps_State_bump) (keepsBut_refl _ s)).rxStand
    split
    · have h2 : s.rxStand s2 := .ite (h1.after keeps_State_setDist) h1
      exact hack _ h last (h2.after keeps_State_bump)
    · have hd : s.rxStand d.1 := h1.then (rxStand_meshDeliver s1 h hops)
      exact .ite (hack _ h last hd) hd

/-! ## Copies of a chain (R246 to R249) -/

theorem State.finishReception_tolled {s : State} {r : PlcReception} {h : PlcHeard} (hbest : bestCopy r.copies = some h)
    (htolled : tolled s.plc.tollbook h.frame.netId h.frame.src h.frame.seq h.frame.epoch s.now = true) :
    s.keepsBut [.plc, .regs] (s.finishReception r) ∧ (s.finishReception r).plc.tollbook = s.plc.tollbook := by
  let w := ((r.copies.erase h).foldl (fun st x => st.bump (cPlcRxCrossCopy x.chain)) s).bump cPlcLinkDup
  have hfinish : s.finishReception r = w.plcAckDue h h.last := by
    unfold State.finishReception
    simp only [hbest]
    exact if_pos htolled
  have hkeep : s.keepsBut [.regs] w := (keepsBut_foldl (fun _ _ hu => hu.then keeps_State_bump) (keepsBut_refl _ s)).then keeps_State_bump
  have hack : (w.plcAckDue h h.last).plc.tollbook = w.plc.tollbook := by
    unfold State.plcAckDue
    extract_lets f hop v
    split
    · rfl
    · rfl
  rw [hfinish]
  exact ⟨hkeep.within.then keeps_State_plcAckDue, hack.trans (congrArg Plc.tollbook (hkeep .plc (by decide)))⟩

theorem exec_combineWindowClose_plc {s : State} {t : Nat} {r : PlcReception} {rest : List PlcReception}
    (hreceptions : s.plc.receptions = r :: rest)
    (hcloses : r.closes ≤ max s.now t) :
    exec (.combineWindowClose false t) s =
      .next (((s.advance t).modPlc fun p => { p with receptions := rest }).finishReception r) := by
  show execCombineWindowClose false t s = _
  unfold execCombineWindowClose
  simp only [show (s.advance t).plc.receptions = r :: rest from hreceptions]
  exact (if_neg nofun).trans (next_of_eq (if_neg (Nat.not_lt.2 hcloses)))

/-- A chain's frame that has ended leaves the chain; it goes on as its FCS says (R247). -/
theorem exec_copyReceived {s : State} {n : Fin 3} {c : PlcCopy} {r : PlcRx} {t : Nat} (hlive : s.plcLive = true)
    (hrx : (s.chain n.val).rx = some r) (hheader : r.header = true) (hends : r.ends ≤ max s.now t) :
    ∃ v w, (s.advance t).keepsBut [.plc, .regs] v ∧ v.plc = { s.plc with chains := s.plc.chains.set n.val ⟨none, quarterDb c.snr⟩ } ∧
      (s.advance t).keepsBut [.plc, .regs] w ∧ w.plc = v.plc ∧ exec (.copyReceived n c t) s =
        .next (if plcFcsOk c.bytes = false then v
          else if fieldAt c.bytes 0 1 % 16 = 1 then w.ackArrived n.val c.bytes else w.frameArrived n.val r c) := by
  let s0 := (s.advance t).setChain n.val ⟨none, quarterDb c.snr⟩
  let s1 := s0.bumpBy (cPlcRxBlankedSymbols n.val) (((s.advance t).blanked c).filter id).length
  let v := s1.bump (if (s.advance t).damaged c = true then cPlcRxDamagedLost n.val else cPlcRxFcsFailLink n.val)
  let s2 := s1.bump (cPlcRxFramesOk n.val)
  let w := if (s.advance t).damaged c = true then s2.bump (cPlcRxDamagedRecovered n.val) else s2
  have h1 : s0.keepsBut [.regs] s1 := keeps_State_bumpBy
  have hv : s0.keepsBut [.regs] v := h1.then keeps_State_bump
  have h2 : s0.keepsBut [.regs] s2 := h1.then keeps_State_bump
  have hw : s0.keepsBut [.regs] w := keepsBut_ite (h2.then keeps_State_bump) h2
  have h0 : (s.advance t).keepsBut [.plc, .regs] s0 := keeps_State_setChain.within
  refine ⟨v, w, h0.then hv, hv .plc (by decide), h0.then hw, (hw .plc (by decide)).trans (hv .plc (by decide)).symm, ?_⟩
  show execCopyReceived n c t s = _
  unfold execCopyReceived
  simp only [show ((s.advance t).chain n.val).rx = some r from hrx]
  exact if_neg (not_or.2 ⟨ne_false_of_eq_true hlive, not_or.2 ⟨ne_false_of_eq_true hheader, Nat.not_lt.2 hends⟩⟩)

/-- The first copy of a frame opens its reception (R248). -/
theorem State.plcCombine_opens {s : State} {h : PlcHeard} (hnone : s.plc.receptions = []) :
    s.plcCombine h = s.modPlc fun p =>
      { p with receptions := p.receptions ++ [⟨[h], s.now, s.now + ticksOfUs (s.item iPlcCombineWindow)⟩] } := by
  unfold State.plcCombine
  exact if_neg (by rw [hnone]; nofun)

/-- Settles O27: what a step finishes touches no other reception, and Tollbook holds what it held. -/
theorem plcCopiesAreReceived : Obligations.PlcCopiesAreReceived := by
  unfold Obligations.PlcCopiesAreReceived
  have hchain {s : State} {n : Fin 3} {r : PlcRx} (h : (s.chain n.val).rx = some r) : n.val < s.plc.chains.length :=
    List.lt_length_of_getD_ne (d := ⟨none, 0⟩) fun hd => by
      rw [show s.chain n.val = ⟨none, 0⟩ from hd] at h
      exact absurd h nofun
  refine ⟨?enters, ?muted, ?opens, ?fails, ?finished, ?known, ?mesh, ?expiry⟩
  case enters =>
    intro s n first t air hlive hquiet hmuted hlen
    let r : PlcRx := ⟨first + air.getD (Config.plcLongest (s.item iPlcBand)), air.isSome, Config.plcGain n.val (max s.now t),
      (s.advance t).sinceZero first⟩
    let w := (s.advance t).setChain n.val { s.chain n.val with rx := some r }
    have hplc : (w.bump (cPlcRxPreambles n.val)).plc = w.plc := keeps_State_bump .plc (by decide)
    refine ⟨_, (if_neg (not_or.2 ⟨ne_false_of_eq_true hlive, ne_true_of_eq_false hquiet⟩)).trans (if_neg (ne_true_of_eq_false hmuted)), ?_,
      (congrArg Plc.txUntil hplc :)⟩
    exact (congrArg (fun p : Plc => p.chains.getD n.val ⟨none, 0⟩) hplc).trans (List.getD_set_self hlen)
  case muted =>
    intro s n first t air hlive hmuted
    by_cases hquiet : (s.advance t).inFrame n.val = true
    · exact ⟨_, if_pos (Or.inr hquiet), rfl⟩
    · exact ⟨_, (if_neg (not_or.2 ⟨ne_false_of_eq_true hlive, hquiet⟩)).trans (if_pos hmuted), keeps_State_bump .plc (by decide)⟩
  case opens =>
    intro s n c f r t hlive hrx hheader hends hfcs htype hparse hus hkind hnone
    obtain ⟨v, w, -, hv, hkeep, hw, hexec⟩ := exec_copyReceived (c := c) hlive hrx hheader hends
    have hplc := hw.trans hv
    have hus' : w.plcForUs f = true := by
      unfold State.plcForUs
      rw [hkeep.item]
      exact hus
    have hdamaged : w.damaged c = s.damaged c := by
      unfold State.damaged State.blanked
      rw [hkeep.item, hkeep.item]
      rfl
    have hstamp : w.rxStamp = (s.advance t).rxStamp := by
      unfold State.rxStamp
      rw [hkeep .cyc (by decide), hkeep .tim (by decide), hkeep.sec2020]
    have hnow : w.now = max s.now t := hkeep .now (by decide)
    have hcombine : w.frameArrived n.val r c = w.plcCombine ⟨n.val, c, f, s.damaged c, r.sinceZero,
        (s.advance t).rxStamp, max s.now t⟩ := by
      unfold State.frameArrived
      simp only [hparse]
      rw [if_neg (ne_false_of_eq_true hus'), if_neg (Nat.not_le.2 hkind), hdamaged, hstamp, hnow]
    have hlist : w.plc.receptions = [] := (congrArg Plc.receptions hplc :).trans hnone
    refine ⟨_, hexec.trans (next_of_eq ((if_neg (ne_false_of_eq_true hfcs)).trans ((if_neg htype).trans
      (hcombine.trans (State.plcCombine_opens hlist))))), ?_, ?_⟩
    · exact (congrArg (fun p : Plc => (p.chains.getD n.val ⟨none, 0⟩).rx) hplc).trans
        (congrArg PlcChain.rx (List.getD_set_self (hchain hrx)))
    · show w.plc.receptions ++ [_] = _
      rw [hlist, hnow, hkeep.item]
      rfl
  case fails =>
    intro s n c r t hlive hrx hheader hends hfcs
    obtain ⟨v, w, -, hv, -, -, hexec⟩ := exec_copyReceived (c := c) hlive hrx hheader hends
    refine ⟨_, hexec.trans (next_of_eq (if_pos hfcs)), ?_, (congrArg Plc.receptions hv :), (congrArg Plc.tx hv :)⟩
    exact (congrArg (fun p : Plc => (p.chains.getD n.val ⟨none, 0⟩).rx) hv).trans (congrArg PlcChain.rx (List.getD_set_self (hchain hrx)))
  case finished =>
    intro s t r rest hreceptions hcloses
    let w := (s.advance t).modPlc fun p => { p with receptions := rest }
    have hstand : w.rxStand (w.finishReception r) := rxStand_finishReception w r
    exact ⟨_, exec_combineWindowClose_plc hreceptions hcloses, hstand.1, (keeps_State_finishReception .rfm (by decide) :)⟩
  case known =>
    intro s t r rest h hreceptions hcloses hbest htolled
    let w := (s.advance t).modPlc fun p => { p with receptions := rest }
    obtain ⟨hkeep, htoll⟩ := State.finishReception_tolled (s := w) hbest htolled
    exact ⟨_, exec_combineWindowClose_plc hreceptions hcloses, hkeep .ing (by decide), hkeep .ctx (by decide), htoll⟩
  case mesh =>
    intro s t r rest hreceptions hcloses
    let w := (s.advance t).modRfm fun m => { m with receptions := rest }
    have hstand : w.rxStand (w.finishMesh r) := rxStand_finishMesh w r
    have hexec : exec (.combineWindowClose true t) s = .next (w.finishMesh r) := by
      show execCombineWindowClose true t s = _
      unfold execCombineWindowClose
      simp only [show (s.advance t).rfm.receptions = r :: rest from hreceptions]
      exact (if_pos trivial).trans (next_of_eq (if_neg (Nat.not_lt.2 hcloses)))
    exact ⟨_, hexec, hstand.2, hstand.1⟩
  case expiry =>
    intro s t
    have hfilter (l : List Tolled) (e : Tolled) : e ∈ l.filter (fun e => decide (max s.now t < e.ends)) ↔ e ∈ l ∧ max s.now t < e.ends := by
      rw [List.mem_filter, decide_eq_true_iff]
    exact ⟨_, rfl, hfilter _, hfilter _⟩

end Sys2Proof.Machine

/-! # A side-band that is disabled -/

namespace Sys2Proof.Machine

-- One theorem after the other: a thread for each would pass the memory limit of the check.
set_option Elab.async false

/-! ## A side-band that its configuration disables (R422, R423) -/

/-- A request whose answer the side-band has kept. -/
def keptRequest : SbReq :=
  { mac := 1
    dst := 0xFFFFFFFFFFFF
    etherType := State.reset.item iSbEthertype
    bytes := 64
    fcsOk := true
    version := 1
    kind := 6
    length := 8
    peerId := 0
    frag := 0
    frags := 1
    reqId := 7
    collisions := 0
    late := false }

/-- The answer kept for it. -/
def keptAnswer : SbCached := ⟨⟨1, 7, 1, 0, 0, []⟩, 0⟩

/-- A device whose side-band is up and holds the answer, and whose item SB_ENABLE is 0. -/
def sbDisabled : State :=
  { State.reset with
    cfg := Table.set [] State.reset.cfg iSbEnable [0#8]
    sb.up := true
    sb.cache := [keptAnswer] }

/-- The disabled port takes no frame: nothing goes out. -/
theorem sbDisabled_is_silent : ∀ u, exec (.identify keptRequest 0) sbDisabled = .next u → u.out = sbDisabled.out := by
  have hclosed : ¬(sbDisabled.advance 0).sbOpen = true := by decide +kernel
  intro u hu
  have hstay : exec (.identify keptRequest 0) sbDisabled = .next (sbDisabled.advance 0) := next_of_eq (if_pos (eq_false_of_ne_true hclosed))
  exact congrArg State.out (Host.Outcome.next.inj (hu.symm.trans hstay))

/-- Refutes O47: the port that takes requests is up and enabled
    (`State.sbOpen`), and the repeat is answered where it is up alone. At the state
`sbDisabled` the side-band is up with SB_ENABLE 0 and holds the answer, and the repeat brings nothing. -/
theorem not_sidebandAnswersAndActs : ¬ Obligations.SidebandAnswersAndActs := by
  unfold Obligations.SidebandAnswersAndActs
  rintro ⟨-, -, -, -, -, hrepeat, -⟩
  obtain ⟨u, hu, hout, -⟩ := hrepeat sbDisabled keptRequest 0 keptAnswer rfl rfl (by decide +kernel) (by decide +kernel) rfl rfl
  exact List.cons_ne_self _ _ (hout.symm.trans (sbDisabled_is_silent u hu))

end Sys2Proof.Machine

/-! # A peer that goes down -/

namespace Sys2Proof.Machine

-- One theorem after the other: a thread for each would pass the memory limit of the check.
set_option Elab.async false

/-! ## A peer that is down, and the interrupt that tells of it (R395, R420) -/

/-- A device whose host has enabled the interrupt of a peer that goes down on port 0 and has unmasked its vector; a message to peer 0 has
    been
sent again eight times. -/
def silentPeer : State :=
  { State.reset with
    regs := Table.set 0 (Table.set 0 State.reset.regs 0x1B0008 1#32) (msixWordAt 0 3) 1#32
    eth.assocs := Table.set Assoc.fresh State.reset.eth.assocs 0 { Assoc.fresh with unacked := [⟨0, .ack, 8, 0⟩] } }

/-- The message of the vector goes out. -/
theorem silentPeer_interrupts : ∀ u, exec (.messageResend 0 0 0) silentPeer = .next u → u.out ≠ silentPeer.out := by
  have hout : (match exec (.messageResend 0 0 0) silentPeer with
      | .next u => decide (u.out.length = silentPeer.out.length + 1)
      | _ => true) = true := by decide +kernel
  intro u hu heq
  rw [hu] at hout
  exact absurd (congrArg List.length heq) (Nat.ne_of_gt (Nat.lt_of_succ_le (Nat.le_of_eq (of_decide_eq_true hout).symm)))

/-- Refutes O46: the peer that is given up after eight resends raises its interrupt, and an enabled interrupt sends its MSI-X message. At
    the
state `silentPeer` the step therefore lists an emission, where the statement has none. -/
theorem not_ethernetMessagesAreDeliveredOnce : ¬ Obligations.EthernetMessagesAreDeliveredOnce := by
  unfold Obligations.EthernetMessagesAreDeliveredOnce
  rintro ⟨-, -, -, -, -, hdown, -⟩
  obtain ⟨u, hu, -, hout⟩ := hdown silentPeer 0 0 0 ⟨0, .ack, 8, 0⟩ (by decide +kernel) (by decide +kernel) (by decide)
  exact silentPeer_interrupts u hu hout

end Sys2Proof.Machine

/-! # The step and the reset state -/

namespace Sys2Proof.Machine

-- One theorem after the other: a thread for each would pass the memory limit of the check.
set_option Elab.async false

/-! ## The step and the reset state -/

/-- Settles O1: a step is its front command on the rest of the queue. -/
theorem stepRunsFrontCommand : Obligations.StepRunsFrontCommand := by
  unfold Obligations.StepRunsFrontCommand
  constructor
  · intro c rest s hpending
    unfold step
    rw [hpending]
  · intro s hpending
    unfold step
    rw [hpending]

/-- Settles O2: the reset state holds each value as its definition writes it. -/
theorem resetStateOfTheDevice : Obligations.ResetStateOfTheDevice := by
  unfold Obligations.ResetStateOfTheDevice
  refine ⟨rfl, rfl, rfl, rfl, rfl, rfl, rfl, ?queues, rfl, rfl, ?fifos, ?gates, ?links, rfl, rfl, rfl, rfl, rfl⟩
  case queues => decide
  case fifos => decide
  case gates => decide
  case links => decide

/-- Settles O3: nothing is kept or under way at reset. -/
theorem boundsHoldAtReset : Obligations.BoundsHoldAtReset := by
  unfold Obligations.BoundsHoldAtReset
  exact ⟨Nat.zero_le 16, Nat.zero_le 4096, fun _ => Nat.zero_le 4⟩

end Sys2Proof.Machine
